-- ==== Sys2Proof/Word.lean ====
section
/-!
DEFINITION. The word types of the ESX-256 model: the byte, and the numbered places of the module (lanes, ports,
partitions, slots, and so on) as bounded indexes, so that a command cannot name a place the module does not have.
-/

namespace Sys2Proof

/-- One byte, as host memory, the beam and every wire carry it. -/
abbrev Byte := BitVec 8

/-- A SerDes lane L0 to L255 (R42). -/
abbrev Lane := Fin 256
/-- A port slot P0 to P127 (R42). -/
abbrev Port := Fin 128
/-- A partition VS0 to VS31 (R115). -/
abbrev Vs := Fin 32
/-- A hot-plug slot (R135). -/
abbrev Slot := Fin 32
/-- A hot-plug I²C expander (R135). -/
abbrev Expander := Fin 16
/-- A reference clock input: 0 to 7 `WREFCLK`, 8 and 9 `FREFCLK` (R49, R71). -/
abbrev Clk := Fin 10
/-- A loom destination or source, D0 to D129 (R146, R149). -/
abbrev Dest := Fin 130
/-- A traffic class. -/
abbrev Tc := Fin 8
/-- A connection context C0 to C16383 (R228). -/
abbrev Cid := Fin 16384
/-- A window-engine instance 0 to 2047 (R298). -/
abbrev Inst := Fin 2048
/-- A spool ring, 0 to 31 for the rings of VS0 to VS31 and 32 for the installer ring: sub-index less 1 (R520). -/
abbrev Ring := Fin 33
/-- A VME interrupt level less 1: 0 to 6 for levels 1 to 7 (R404). -/
abbrev IrqLevel := Fin 7

end Sys2Proof
end

