-- ==== Sys2Proof/Syntax.lean ====
section
/-!
DEFINITION. The commands of the ESX-256: one constructor of `Instr` for each row of spec/opcode_table.json, in the
table's order. The table gives no row any operand field; an operand here is what the step's own words need from outside
the module: the port, lane, feed or partition it happens at, a measured value, the content of what arrives on a wire, the
session that writes an object. A step that handles something already received takes no operand: it takes the oldest one
waiting in the state.
-/

namespace Sys2Proof

/-- A main power feed (R414). -/
inductive Feed where
  | a | b
  deriving DecidableEq, Repr

/-- The kind of a transaction-layer packet, as far as the module's own rules tell kinds apart (R149, R322, R395). -/
inductive TlpKind where
  | memRead | memReadLocked | memWrite | deferrableWrite | ioRead | ioWrite | cfgRead | cfgWrite
  | fetchAdd | swap | compareSwap | completion | message | unlock
  deriving DecidableEq, Repr

/-- A TLP as the data link layer hands it over. `addr` is the memory or I/O address, or for a configuration request the
routing ID times 4096 plus the register offset, or for a completion the requester ID it is addressed to. `errs` holds the
cause codes of R343 (1, 8 to 13, 16) that the physical, link and transaction layers found in it per the standard. -/
structure Tlp where
  kind : TlpKind
  addr : Nat
  /-- bytes asked for or carried, 0 to 4096 -/
  len : Nat
  firstBe : Nat := 15
  lastBe : Nat := 15
  tc : Tc := 0
  rid : Nat := 0
  tag : Nat := 0
  ro : Bool := false
  ns : Bool := false
  ido : Bool := false
  /-- processing hint and steering tag, when the TLP carries them -/
  tph : Option (Nat × Nat) := none
  /-- the poison bit EP -/
  ep : Bool := false
  /-- header, prefixes, orthogonal header content and digest, in bytes (R113) -/
  hdrBytes : Nat := 16
  /-- the selective IDE stream, when one protects the TLP -/
  ide : Option Nat := none
  errs : List Nat := []
  /-- completion: completer ID, status (0 SC, 1 UR, 2 CA), byte count, lower address -/
  completer : Nat := 0
  status : Nat := 0
  byteCount : Nat := 0
  lowerAddr : Nat := 0
  data : List Byte := []
  /-- message code of a message -/
  code : Nat := 0
  /-- address type: 0 untranslated, 1 translation request, 2 translated -/
  atype : Nat := 0
  /-- it carries an ECRC digest, which the module checks at ingress and computes anew as the TLP leaves (R112) -/
  digest : Bool := false
  deriving DecidableEq, Repr

/-- A Pravan operation on the wire: the envelope of R186 as its 128-bit word, the body, and the 16-byte tag (empty where
the operation carries none). -/
structure WireOp where
  env : BitVec 128
  body : List Byte
  tag : List Byte
  deriving DecidableEq, Repr

/-- A VME cycle as a slave sees it (R389): single, block, 64-bit block or read-modify-write. -/
inductive VmeKind where
  | single | blt | mblt | rmw
  deriving DecidableEq, Repr

/-- A cycle of a VME master. `width` is the bytes of each beat; `len` the bytes asked for or written in all; `beats` what a write
puts on the data and address lines, beat by beat: D31 to D0 in the lower half, A31 to A1 and LWORD in the upper (R383). -/
structure VmeCycle where
  addr : Nat
  am : Nat
  kind : VmeKind
  write : Bool
  width : Nat
  len : Nat
  beats : List (BitVec 64) := []
  deriving DecidableEq, Repr

/-- A boundary-scan instruction of IEEE 1149.1 (R497). -/
inductive TapInstr where
  | bypass | idcode | samplePreload | extest | clamp | highz
  deriving DecidableEq, Repr

/-- The indicator settings of a slot (R137). -/
inductive Indicator where
  | off | on | blink
  deriving DecidableEq, Repr

/-- Who asks for a freeze of lane adaptation (R65): the treadle, or a session by writing `ADAPT_FREEZE`. -/
inductive FreezeBy where
  | treadle (start : Bool)
  | session (sess : Nat) (value : Nat)
  deriving DecidableEq, Repr

/-- What the error check of the bobbin store or of the beam says of an item as it is read (R169, R343): no error, one that it has corrected,
an uncorrectable one in the payload only, or one in the header or envelope. -/
inductive StoreRead where
  | clean
  | corrected
  | payload
  | header
  deriving DecidableEq, Repr

/-- The store gave the data. -/
def StoreRead.good (r : StoreRead) : Bool := r = .clean || r = .corrected

/-- The payload of a 130-bit block (R54), or of a row. -/
abbrev Block := BitVec 128

inductive Instr where
  -- 0x00 power feeds
  | supplyRise (vkeepMv aMv bMv : Nat)
  | feedRampStart (f : Feed) (mv outMv : Nat)
  | shortFailCheck (f : Feed) (mv outMv : Nat)
  | feedRampComplete (f : Feed) (mv outMv gateMv : Nat)
  | gateFailTimeout (f : Feed) (mv gateMv : Nat)
  | feedQualifyDone (f : Feed) (mv : Nat)
  | currentLimitEnter (f : Feed) (mv outMv ma : Nat)
  | currentLimitExit (f : Feed) (ma : Nat)
  | faultTimerExpiry (f : Feed) (mv : Nat)
  | fastTrip (f : Feed) (mv ma : Nat)
  | cooldownExpiry (f : Feed) (mv : Nat)
  | feedOutOfRange (f : Feed) (mv : Nat)
  | feedPowerCycled (f : Feed) (mv : Nat)
  | tripCountReset (f : Feed)
  | idealDiodeReverseOff (f : Feed) (mv reverseMa : Nat)
  | reverseFailCheck (f : Feed) (mv reverseMa : Nat)
  | idealDiodeOn (f : Feed) (mv railMv : Nat)
  | feedClear (sess : Nat) (f : Feed) (value : Nat)
  | vkeepChange (mv : Nat)
  | vioDobChange (mv : Nat)
  -- start-up
  | coreOn (regulated beamTrained : Bool)
  | bootSlotSelect (lockstepOk : Bool)
  | configEntry (healthOk : Bool)
  | storedConfigCommit
  | serviceEntry (warpTried : Bool)
  -- governor and thermal loop
  | governorPeriod (aMv bMv aMa bMa powerW stagePs : Nat)
  | capacityFloorClear
  | vcoreRaiseDone (mv : Nat)
  | loomRescaleDone
  | thermalLoop (hottestMc : Int)
  | thermalFatalTimeout
  -- lanes
  | weftBlockReceive (l : Lane) (levels : BitVec 130)
  | blockLockAcquired (l : Lane)
  | blockLockLost (l : Lane)
  | laneLockTimeout (l : Lane)
  | alignSend (p : Port)
  | alignReceive (l : Lane)
  | laneAlignTimeout (l : Lane)
  | refclkLost (c : Clk)
  | refclkRestored (c : Clk)
  | adaptFreeze (by_ : FreezeBy)
  | adaptFreezeEnd
  | adaptFreezeHeldStart
  | marginStart (sess : Nat) (value : Nat)
  | marginStep (errors : Nat)
  -- weft link
  | flitSend (p : Port)
  | flitReceive (p : Port)
  | replayTimerExpiry (p : Port)
  | weftTrainingStart (p : Port)
  | ts1Receive (p : Port)
  | ts2Receive (p : Port)
  | trainingPhaseTimeout (p : Port)
  | creditInitReceive (p : Port)
  | flitStartReceive (p : Port)
  | alignedTimeout (p : Port)
  | retrainReqReceive (p : Port)
  | retrainRateStep (p : Port)
  | retrainTimeout (p : Port)
  | weftRetrainCmd (sess : Nat) (p : Port) (value : Nat)
  -- warp ports and partitions
  | tlpIngress (p : Port) (t : Tlp)
  | warpLinkUp (p : Port) (width rate : Nat) (flit : Bool)
  | perstAssert (v : Vs) (ns : Nat)
  | perstDeassert (v : Vs)
  | hotResetReceived (p : Port)
  | dlDown (p : Port)
  | vsResetCmd (sess : Nat) (v : Vs) (value : Nat)
  | partitionResetEnd (v : Vs)
  | partitionReady (v : Vs)
  | secondaryBusReset (p : Port)
  | linkDisable (p : Port)
  | slotPowerOff (k : Slot)
  | slotPwrenClear (k : Slot)
  | slotPowerOn (k : Slot)
  | slotPerstRelease (k : Slot)
  | indicatorSet (k : Slot) (attention power : Indicator)
  | indicatorBlink
  | surpriseDown (p : Port)
  | hpInputDebounced (k : Slot) (bit : Fin 4)
  | expanderInterrupt (inputs : List (Option (BitVec 16)))
  | expanderPoll (inputs : List (Option (BitVec 16)))
  | expanderRetry (e : Expander) (input : Option (BitVec 16))
  | surpriseReport (p : Port)
  | linkReturnL0 (p : Port) (width rate : Nat) (flit : Bool)
  | dpcTrigger (p : Port) (reason : Nat)
  | dpcRelease (p : Port)
  | proxyFree (sess : Nat) (value : Nat)
  | mcastGroupEnable (v : Vs) (group : Fin 64)
  | weCompletionTimeout (req : Nat)
  -- loom
  | sharedPromotion (src : Dest)
  | egressArbitration (d : Dest) (r : StoreRead)
  | ledgerMoveStart
  | ledgerMoveDone
  | spillWriteDone
  | readbackStart (d : Dest) (tc : Tc)
  | readbackDone (r : StoreRead)
  | beamStackFault (stack : Fin 2)
  | ageSweep
  | sharedPoolExhausted
  -- fabric
  | linkProbeSend (p : Port)
  | linkProbeReceive
  | beaconSend
  | beaconReceive
  | directedMsgForward
  | masterDiscovery
  | neighbours
  | assignMid
  | routeWrite
  | bankSwitch
  | bankSwitchTime
  | fabricCtlHeartbeatSend
  | fabricCtlHeartbeatReceive
  | admitPartition
  | fenceNotice
  | resyncBegin
  | resyncEnd
  | memberReport
  | tableRecompute
  | admissionTimeout
  | beaconSilence
  | heartbeatSilence
  | leaseRenew
  | leaseResp
  | claimResp
  | witnessUnreachableFence
  | memberFenceDeadline
  | masterForce (sess : Nat) (value : Nat)
  | ftSet (sess : Nat) (value : Nat)
  | ftPpsInEdge
  | ftPpsOutPulse
  -- shuttle
  | operationAccept
  | deferredAccept
  | operationFirstSend (c : Cid)
  | retransmitTimeout (ledgerIndex : Fin 65536)
  | operationReceive
  | ackSend (c : Cid)
  | ackReceive
  | nakReceive
  | connReqOpen
  | connReqClose
  | connReqReset
  | connReqRekey
  | connResp
  | connReqResend (c : Cid)
  | connOpenTimeout (c : Cid)
  | connExchangeTimeout (c : Cid)
  | connCloseTimeout (c : Cid)
  | autoResumeTimer (c : Cid)
  | rekeyAll (sess : Nat) (value : Nat)
  -- windows and ordering
  | apertureAccess (i : Inst) (t : Tlp)
  | heldLoadSend
  | visibilityPoint
  | windowRevokeComplete (w : Fin 65536)
  | postfailClear (sess : Nat) (v : Vs) (value : Nat)
  -- admin commands: each takes the oldest admin command of its opcode that the module has taken from a ring
  | windowOpen
  | windowRevoke
  | windowFree
  | windowRead
  | importWrite
  | importInvalidate
  | importRead
  | importSetGen
  | connOpen
  | connModify
  | connReset
  | connRead
  | connClose
  | ledgerRead
  | fenceBind
  | queueCreate
  | queueDelete
  | shareSet
  | tuMap
  | tuUnmap
  | tuUnmapComplete
  | tuMode
  -- window engine registers and functions
  | admqCtrl (v : Vs) (value : Nat)
  | admcqHead (v : Vs) (value : Nat)
  | vfMsgRing (i : Inst) (value : Nat)
  | vfReplyWrite (v : Vs) (vf : Fin 256) (reply : List Byte)
  | vfEnable (v : Vs) (numVfs : Nat)
  | vfDisable (v : Vs)
  | vfFlr (i : Inst)
  | vfFlrComplete (i : Inst)
  | pfFlr (v : Vs)
  | descWrite (i : Inst) (q : Fin 16)
  | descRead (i : Inst) (q : Fin 16)
  | descAtomic (i : Inst) (q : Fin 16)
  | descFence (i : Inst) (q : Fin 16)
  | descNop (i : Inst) (q : Fin 16)
  | descriptorComplete (i : Inst) (q : Fin 16)
  | descFetchFail (i : Inst) (q : Fin 16)
  | fenceSlotRead (i : Inst) (slot : Fin 1024) (rid tag : Nat)
  -- heddles and selvedges
  | hedCommit (sess : Nat) (value : Nat)
  | hedCommitComplete
  | debugAccess (write : Bool) (addr len : Nat)
  | selIsolateCmd (sess : Nat) (v : Vs) (value : Nat)
  | routingStateError (v : Vs)
  | shadowReloadDone (v : Vs) (ok : Bool)
  | selErrClear (sess : Nat) (d : Dest) (value : Nat)
  | moduleFatalError (cause : Nat)
  -- twin pair
  | mirrorRecordReceive
  | twinSilence
  | twinLostDeclare
  | mirrorRateAlert
  -- dobby
  | dobbyTake (r : StoreRead)
  | vmeCycleStart
  | vmeCycleEnd (lines : BitVec 64)
  | vmeBerr
  | dobBusTimerExpiry
  | vmeInboundCycle (c : VmeCycle)
  | vmeSemaphoreCycle (sem : Fin 16) (am : Nat) (write : Bool) (value : BitVec 32)
  | semRead (v : Vs) (sem : Fin 16) (rid tag : Nat)
  | semWrite (v : Vs) (sem : Fin 16) (value : BitVec 32)
  | vmeIrqAssert (lvl : IrqLevel)
  | iackDone (statusId : BitVec 32)
  | ihRearm (v : Vs) (mask : Nat)
  | irqRaise (v : Vs) (value : Nat)
  | irqWithdraw (v : Vs) (mask : Nat)
  | iackinReceive (lvl : IrqLevel) (width : Nat)
  | lockBackoff
  | unlockMessage (v : Vs)
  | busRequestPending
  | dobConnOpen (sess : Nat) (value : Nat)
  | dobConnClose (sess : Nat) (value : Nat)
  | dobConnReset (sess : Nat) (value : Nat)
  | sysresetInput
  | sysfailChange (asserted : Bool)
  | acfailChange (asserted : Bool)
  | sysresetOutEnd
  -- resets and firmware
  | warmResetCmd (sess : Nat) (value : Nat)
  | warmResetDrainEnd
  | warmResetCoreReset
  | testEnterCmd (sess : Nat) (value : Nat)
  | testEntryTime
  | fwLoadBegin (sess : Nat) (value : Nat)
  | fwEraseDone
  | fwBlockData (sess : Nat) (data : List Byte)
  | fwLoadEnd (sess : Nat) (value : Nat)
  | fwVerifyDone (flashOk : Bool)
  | fwActivateCmd (sess : Nat) (value : Nat)
  | fwActivateCancel (sess : Nat) (value : Nat)
  | fwActivationStart
  | hitlessPhaseDone (hashOk : Bool)
  | hitlessResume
  | trialEnd
  | treadleWatchdogExpiry
  -- Harmir, sessions, dictionary messages
  | heartbeatSend
  | heartbeat
  | authBegin
  | authProof
  | authTimeout (sess : Nat)
  | lockoutEnd (source : Nat)
  | read
  | write
  | commit (quick : Bool)
  | commitFlashDone (ok : Bool)
  | discard
  | sessionEnd
  | describe
  | sessionIdleTimeout (sess : Nat)
  | lease
  | leaseExpiry (slot : Fin 16)
  | claim
  | claimPendingTimeout (slot : Fin 16)
  | witnessStartupEnd
  | canFrameReceive (ident : Nat) (bytes : List Byte)
  | segmentTimeout (src typ tagId : Nat)
  | canBusOff
  | canBusOffRecovery
  | mbReqSegment (v : Vs) (ctrl : Nat) (bytes : List Byte)
  | mbRespTaken (v : Vs)
  -- security
  | entropyFault
  | entropyRecovered
  | tapInstruction (t : TapInstr)
  | ideKmKeyProg (p : Port) (stream : Nat) (selective : Bool) (keys : List Byte)
  -- counters, spool, bolt
  | tallySnapshotLaunch
  | tallyImageComplete
  | tallyHold (sess : Nat) (value : Nat)
  | tallyHoldTimeout
  | spoolDeliveryDeadline (r : Ring)
  | spoolRelease (sess : Nat) (r : Ring) (value : Nat)
  | spoolMark (sess : Nat) (r : Ring) (value : Nat)
  | spoolRewind (sess : Nat) (r : Ring) (value : Nat)
  | spoolRestart (sess : Nat) (r : Ring) (value : Nat)
  | spoolIntrTimeout (r : Ring)
  | boltCapture (sess : Nat) (value : Nat)
  | boltRelease (sess : Nat) (value : Nat)
  | boltWriteDone
  | boltSectionTimeout
  -- the rest of the table
  | registerWrite (sess : Nat) (index sub value : Nat)
  | fabricCtlResponse
  | sqTailDoorbell (i : Inst) (q : Fin 16) (tail : Nat)
  | admqTailDoorbell (v : Vs) (tail : Nat)
  | retrainReqEnd (p : Port)
  deriving DecidableEq, Repr

end Sys2Proof
end

