-- ==== Sys2Proof/Decode.lean ====
section
/-!
DEFINITION. Words of the command table: the rows of spec/opcode_table.json give no bits, so that no word spells a command.
-/

namespace Sys2Proof

/-- The command that a word spells by the table's bits. No row of the table gives any. -/
def decodeTableWord (_nbits _w : Nat) : Option Instr := none

end Sys2Proof
end

