-- ==== Sys2Proof/Machine/Tbl.lean ====
section
/-!
DEFINITION. The plain-data containers of the model and the bit-field, byte-order and table helpers every block uses: a
sparse table keyed by a number, byte memories in one canonical form, and little-endian words.
-/

namespace Sys2Proof.Machine

/-! ### Bit fields and byte orders (R4: little-endian everywhere but on the VME side) -/

/-- The `n`-bit field of `x` whose lowest bit is bit `lo`. -/
def bits (x lo n : Nat) : Nat := (x >>> lo) % 2 ^ n

/-- Bit `i` of `x`. -/
def bit (x i : Nat) : Bool := (x >>> i) % 2 = 1

/-- `x` with bit `i` set to `v`. -/
def putBit (x i : Nat) (v : Bool) : Nat :=
  if bit x i = v then x else if v then x + 2 ^ i else x - 2 ^ i

/-- `x` with its `n`-bit field at `lo` replaced by `v`. -/
def putBits (x lo n v : Nat) : Nat := x - bits x lo n * 2 ^ lo + v % 2 ^ n * 2 ^ lo

/-- `v` placed at bit `lo` (fields of a word are joined by `+`). -/
def at_ (lo v : Nat) : Nat := v <<< lo

def b2n (b : Bool) : Nat := if b then 1 else 0

/-- `n` little-endian bytes of `x`. -/
def leBytes : Nat → Nat → List Byte
  | 0, _ => []
  | n + 1, x => BitVec.ofNat 8 x :: leBytes n (x / 256)

/-- The number whose little-endian bytes are `bs`. -/
def leNat : List Byte → Nat
  | [] => 0
  | b :: bs => b.toNat + 256 * leNat bs

def beNat (bs : List Byte) : Nat := bs.foldl (fun a b => a * 256 + b.toNat) 0

def beBytes (n x : Nat) : List Byte := (leBytes n x).reverse

/-- ASCII bytes of a text. -/
def ascii (t : String) : List Byte := t.toList.map fun c => BitVec.ofNat 8 c.toNat

/-- `bs` cut or zero-filled to `n` bytes. -/
def fitBytes (n : Nat) (bs : List Byte) : List Byte :=
  (bs ++ List.replicate (n - bs.length) 0).take n

/-- Bytes `[o, o+n)` of `bs`, as a little-endian number. -/
def leAt (bs : List Byte) (o n : Nat) : Nat := leNat ((bs.drop o).take n)

/-- The number of set bits among the lowest `n` bits of `x`. -/
def popCount : Nat → Nat → Nat
  | 0, _ => 0
  | n + 1, x => x % 2 + popCount n (x / 2)

/-- The positions of the set bits among the lowest `n`. -/
def setBits (n x : Nat) : List Nat := (List.range n).filter fun i => bit x i

/-- Two's complement of a 32-bit signed value. -/
def ofI32 (x : Int) : Nat := (x % 4294967296).toNat
def toI32 (x : Nat) : Int := if x % 4294967296 < 2147483648 then (x % 4294967296 : Nat) else (x % 4294967296 : Nat) - 4294967296

/-- `a` rounded up to whole units of `n`. -/
def ceilDiv (a n : Nat) : Nat := (a + n - 1) / n

/-! ### Sparse tables -/

/-- A sparse table: rows in rising order of key, each key once. A key without a row holds the table's default. -/
abbrev Tbl (α : Type) := List (Nat × α)

def Tbl.find? {α : Type} : Tbl α → Nat → Option α
  | [], _ => none
  | (k', v) :: t, k => if k = k' then some v else Tbl.find? t k

def Tbl.get {α : Type} (t : Tbl α) (k : Nat) (d : α) : α := (Tbl.find? t k).getD d

def Tbl.set {α : Type} : Tbl α → Nat → α → Tbl α
  | [], k, v => [(k, v)]
  | (k', v') :: t, k, v =>
    if k < k' then (k, v) :: (k', v') :: t
    else if k = k' then (k, v) :: t
    else (k', v') :: Tbl.set t k v

def Tbl.erase {α : Type} (t : Tbl α) (k : Nat) : Tbl α := t.filter fun r => r.1 ≠ k

def Tbl.modify {α : Type} (t : Tbl α) (k : Nat) (f : α → α) : Tbl α :=
  t.map fun r => if r.1 = k then (r.1, f r.2) else r

def Tbl.keys {α : Type} (t : Tbl α) : List Nat := t.map Prod.fst

/-- The lowest key below `n` that has no row. -/
def Tbl.firstFree {α : Type} (t : Tbl α) (n : Nat) : Option Nat :=
  let rec go : List Nat → Nat → Nat → Option Nat
    | _, _, 0 => none
    | [], k, _ => some k
    | k' :: ks, k, fuel + 1 => if k' = k then go ks (k + 1) fuel else some k
  go (Tbl.keys t) 0 n

/-! ### Fixed arrays, read and written by number -/

/-- Element `k`, or `d` past the end. -/
def vget {α : Type} {n : Nat} (v : Vector α n) (k : Nat) (d : α) : α := (v[k]?).getD d

/-- Element `k` replaced; nothing past the end. -/
def vset {α : Type} {n : Nat} (v : Vector α n) (k : Nat) (x : α) : Vector α n := v.setIfInBounds k x

/-! ### Sorting -/

def insertBy {α : Type} (le : α → α → Bool) (x : α) : List α → List α
  | [] => [x]
  | y :: ys => if le x y then x :: y :: ys else y :: insertBy le x ys

/-- The list in order; equals keep theirs. -/
def sortBy {α : Type} (le : α → α → Bool) (xs : List α) : List α := xs.foldr (insertBy le) []

/-! ### Byte memories -/

/-- A byte memory: addresses strictly rising, and no row equal to `Memory.blank`. -/
abbrev Memory := List Host.Cell

/-- What an address that nothing has written reads as. DESIGN CHOICE (log entry 4): the spec gives no content of host
memory, nor of the beam after power-up. -/
def Memory.blank : Byte := 0

def Memory.read : Memory → Nat → Byte
  | [], _ => Memory.blank
  | (k, v) :: m, a => if a = k then v else Memory.read m a

/-- Put a byte at an address, whatever the byte. -/
def Memory.insert : Memory → Nat → Byte → Memory
  | [], a, b => [(a, b)]
  | (k, v) :: m, a, b =>
    if a < k then (a, b) :: (k, v) :: m
    else if a = k then (a, b) :: m
    else (k, v) :: Memory.insert m a b

/-- Write a byte, keeping the canonical form. -/
def Memory.write (m : Memory) (a : Nat) (b : Byte) : Memory :=
  if b = Memory.blank then m.filter (fun c => c.1 ≠ a) else Memory.insert m a b

def Memory.readBytes (m : Memory) (a : Nat) : Nat → List Byte
  | 0 => []
  | n + 1 => Memory.read m a :: Memory.readBytes m (a + 1) n

def Memory.writeBytes : Memory → Nat → List Byte → Memory
  | m, _, [] => m
  | m, a, b :: bs => Memory.writeBytes (Memory.write m a b) (a + 1) bs

/-- The canonical form: addresses strictly rising and no blank byte listed. -/
def Memory.wf (m : Memory) : Bool :=
  decide ((m.map Prod.fst).Pairwise (· < ·)) && m.all fun c => c.2 ≠ Memory.blank

end Sys2Proof.Machine
end

