-- ==== Sys2Proof/Machine/Crypto.lean ====
section
/-!
DEFINITION. The cryptographic functions the spec names: SHA-384 (FIPS 180-4), HMAC-SHA-384 (FIPS 198-1), HKDF-SHA-384
(RFC 5869), AES-256, AES-256-GCM (SP 800-38D) and AES-256-XTS (SP 800-38E), ECDSA P-384 verification (FIPS 186-5), and CRC-32C (R204). Each is the
public standard's, which R455, R457, R258, R259, R163, R437 and R204 call by name.
-/

namespace Sys2Proof.Machine

/-! ### SHA-384 -/

def m64 : Nat := 18446744073709551616

def rotr64 (x n : Nat) : Nat := (x >>> n) ||| ((x <<< (64 - n)) % m64)

/-- The largest number of at most `n` bits above `r` whose `k`-th power does not exceed `x`, found bit by bit. -/
def rootFrom (k x : Nat) : Nat → Nat → Nat
  | 0, r => r
  | n + 1, r => rootFrom k x n (if (r + 2 ^ n) ^ k ≤ x then r + 2 ^ n else r)

/-- The first 64 bits behind the point of the `k`-th root of a number below 512. -/
def rootFraction (k p : Nat) : Nat := rootFrom k (p * 2 ^ (64 * k)) 69 0 % m64

/-- The prime numbers below 410: the first eighty. -/
def smallPrimes : List Nat :=
  (List.range 410).filter fun p => decide (1 < p) && (List.range p).all fun d => decide (d < 2) || decide (p % d ≠ 0)

/-- The round constants of FIPS 180-4: the fractions of the cube roots of the first eighty primes. -/
def shaK : List Nat := smallPrimes.map (rootFraction 3)

/-- The initial hash value of SHA-384: the fractions of the square roots of the ninth to the sixteenth prime. -/
def sha384Init : List Nat := ((smallPrimes.drop 8).take 8).map (rootFraction 2)

/-- The 64-bit big-endian words of a block. -/
def beWords : Nat → List Byte → List Nat
  | 0, _ => []
  | n + 1, bs => beNat (bs.take 8) :: beWords n (bs.drop 8)

/-- The message schedule, kept newest first. -/
def shaSchedule : Nat → List Nat → List Nat
  | 0, w => w
  | n + 1, w =>
    let w2 := w.getD 1 0
    let w15 := w.getD 14 0
    let s0 := rotr64 w15 1 ^^^ rotr64 w15 8 ^^^ (w15 >>> 7)
    let s1 := rotr64 w2 19 ^^^ rotr64 w2 61 ^^^ (w2 >>> 6)
    shaSchedule n ((w.getD 15 0 + s0 + w.getD 6 0 + s1) % m64 :: w)

def shaRound (h : List Nat) (k w : Nat) : List Nat :=
  match h with
  | [a, b, c, d, e, f, g, hh] =>
    let t1 := hh + (rotr64 e 14 ^^^ rotr64 e 18 ^^^ rotr64 e 41) + ((e &&& f) ^^^ ((m64 - 1 - e) &&& g)) + k + w
    let t2 := (rotr64 a 28 ^^^ rotr64 a 34 ^^^ rotr64 a 39) + ((a &&& b) ^^^ (a &&& c) ^^^ (b &&& c))
    [(t1 + t2) % m64, a, b, c, (d + t1) % m64, e, f, g]
  | h => h

def shaBlock (h : List Nat) (blk : List Byte) : List Nat :=
  let w := (shaSchedule 64 (beWords 16 blk).reverse).reverse
  let r := (List.zip shaK w).foldl (fun acc kw => shaRound acc kw.1 kw.2) h
  List.zipWith (fun x y => (x + y) % m64) h r

def shaBlocks : Nat → List Nat → List Byte → List Nat
  | 0, h, _ => h
  | n + 1, h, bs => shaBlocks n (shaBlock h (bs.take 128)) (bs.drop 128)

/-- SHA-384 of a byte string: 48 bytes. -/
def sha384 (msg : List Byte) : List Byte :=
  let len := msg.length
  let pad := (240 - (len + 1) % 128) % 128
  let padded := msg ++ [0x80] ++ List.replicate pad 0 ++ beBytes 16 (len * 8)
  ((shaBlocks (padded.length / 128) sha384Init padded).take 6).flatMap (beBytes 8)

/-- HMAC-SHA-384 of FIPS 198-1. -/
def hmac384 (key msg : List Byte) : List Byte :=
  let k := fitBytes 128 (if key.length ≤ 128 then key else sha384 key)
  sha384 (k.map (· ^^^ 0x5c) ++ sha384 (k.map (· ^^^ 0x36) ++ msg))

/-- HKDF-Expand of RFC 5869: blocks T(i), T(i+1), … of `info` under `prk`. -/
def hkdfBlocks : Nat → Nat → List Byte → List Byte → List Byte → List Byte
  | 0, _, _, _, _ => []
  | n + 1, i, prk, info, prev =>
    let t := hmac384 prk (prev ++ info ++ [BitVec.ofNat 8 i])
    t ++ hkdfBlocks n (i + 1) prk info t

/-- HKDF-SHA-384: `len` bytes from a salt, input key material and info. -/
def hkdf384 (salt ikm info : List Byte) (len : Nat) : List Byte :=
  (hkdfBlocks (ceilDiv len 48) 1 (hmac384 salt ikm) info []).take len

/-! ### AES-256 and GCM -/

/-- Product in GF(2^8) modulo x^8 + x^4 + x^3 + x + 1. -/
def gf8mul (a b : Nat) : Nat :=
  let rec go : Nat → Nat → Nat → Nat → Nat
    | 0, _, _, acc => acc
    | n + 1, a, b, acc =>
      let acc := if b % 2 = 1 then acc ^^^ a else acc
      let a' := a * 2
      go n (if a' ≥ 256 then a' ^^^ 0x11b else a') (b / 2) acc
  go 8 a b 0

/-- a^254, the inverse (0 for 0). -/
def gf8inv (a : Nat) : Nat :=
  let a2 := gf8mul a a
  let a4 := gf8mul a2 a2
  let a8 := gf8mul a4 a4
  let a16 := gf8mul a8 a8
  let a32 := gf8mul a16 a16
  let a64 := gf8mul a32 a32
  let a128 := gf8mul a64 a64
  gf8mul a128 (gf8mul a64 (gf8mul a32 (gf8mul a16 (gf8mul a8 (gf8mul a4 a2)))))

def aesSub (a : Nat) : Nat :=
  let x := gf8inv a
  let rl := fun (k : Nat) => ((x <<< k) ||| (x >>> (8 - k))) % 256
  x ^^^ rl 1 ^^^ rl 2 ^^^ rl 3 ^^^ rl 4 ^^^ 0x63

/-- The key schedule of AES-256 as 60 four-byte words, newest first. -/
def aesExpand : Nat → Nat → Nat → List (List Nat) → List (List Nat)
  | 0, _, _, w => w
  | n + 1, i, rcon, w =>
    let t := w.getD 0 []
    let t := if i % 8 = 0 then
        let r := (t.drop 1 ++ t.take 1).map aesSub
        List.zipWith (· ^^^ ·) r [rcon, 0, 0, 0]
      else if i % 8 = 4 then t.map aesSub else t
    let rcon := if i % 8 = 0 then gf8mul rcon 2 else rcon
    aesExpand n (i + 1) rcon (List.zipWith (· ^^^ ·) t (w.getD 7 []) :: w)

/-- The four-byte words of a key or block. -/
def quads : Nat → List Nat → List (List Nat)
  | 0, _ => []
  | n + 1, l => l.take 4 :: quads n (l.drop 4)

/-- The fifteen round keys, 16 bytes each. -/
def aesKeys (key : List Byte) : List (List Nat) :=
  let w := (aesExpand 52 8 1 (quads 8 ((fitBytes 32 key).map BitVec.toNat)).reverse).reverse
  let rec group : Nat → List (List Nat) → List (List Nat)
    | 0, _ => []
    | n + 1, l => (l.take 4).flatten :: group n (l.drop 4)
  group 15 w

def aesShift (b : List Nat) : List Nat :=
  [0, 5, 10, 15, 4, 9, 14, 3, 8, 13, 2, 7, 12, 1, 6, 11].map fun i => b.getD i 0

def aesMix (b : List Nat) : List Nat :=
  (quads 4 b).flatMap fun c =>
    match c with
    | [x, y, z, w] =>
      [gf8mul 2 x ^^^ gf8mul 3 y ^^^ z ^^^ w, x ^^^ gf8mul 2 y ^^^ gf8mul 3 z ^^^ w,
       x ^^^ y ^^^ gf8mul 2 z ^^^ gf8mul 3 w, gf8mul 3 x ^^^ y ^^^ z ^^^ gf8mul 2 w]
    | c => c

def aesRounds : List (List Nat) → List Nat → List Nat
  | [], b => b
  | [k], b => List.zipWith (· ^^^ ·) (aesShift (b.map aesSub)) k
  | k :: ks, b => aesRounds ks (List.zipWith (· ^^^ ·) (aesMix (aesShift (b.map aesSub))) k)

/-- One AES-256 block, under expanded round keys. -/
def aesBlock (keys : List (List Nat)) (b : List Nat) : List Nat :=
  match keys with
  | [] => b
  | k :: ks => aesRounds ks (List.zipWith (· ^^^ ·) b k)

/-- The inverse of `aesSub`. -/
def aesUnsub (y : Nat) : Nat :=
  let rl := fun (k : Nat) => ((y <<< k) ||| (y >>> (8 - k))) % 256
  gf8inv (rl 1 ^^^ rl 3 ^^^ rl 6 ^^^ 5)

/-- The inverse of `aesShift`: row r of each column comes from r columns before. -/
def aesUnshift (b : List Nat) : List Nat := (List.range 16).map fun i => b.getD ((i + 16 - 4 * (i % 4)) % 16) 0

/-- The inverse of `aesMix`. -/
def aesUnmix (b : List Nat) : List Nat :=
  (quads 4 b).flatMap fun c =>
    (List.range 4).map fun r =>
      (List.range 4).foldl (fun acc j => acc ^^^ gf8mul ([14, 11, 13, 9].getD ((j + 4 - r) % 4) 0) (c.getD j 0)) 0

/-- The rounds undone, with the round keys from the last to the first. -/
def aesUnrounds : List (List Nat) → List Nat → List Nat
  | [], b => b
  | [k], b => List.zipWith (· ^^^ ·) b k
  | k :: ks, b => aesUnrounds ks (aesUnmix (List.zipWith (· ^^^ ·) b k) |> aesUnshift |>.map aesUnsub)

/-- One AES-256 block decrypted, under expanded round keys. -/
def aesUnblock (keys : List (List Nat)) (b : List Nat) : List Nat :=
  match keys.reverse with
  | [] => b
  | k :: ks => aesUnrounds ks ((aesUnshift (List.zipWith (· ^^^ ·) b k)).map aesUnsub)

/-! ### AES-256-XTS (SP 800-38E), over data units of whole 16-byte blocks -/

/-- The tweak of the next block: multiplied by x in GF(2^128), the tweak's first byte lowest. -/
def xtsNext (t : Nat) : Nat := t * 2 % 2 ^ 128 ^^^ (if 2 ^ 127 ≤ t then 0x87 else 0)

/-- The blocks of a data unit under the block function `f`, from tweak `t` on. -/
def xtsBlocks (f : List Nat → List Nat) : Nat → Nat → List Byte → List Byte
  | 0, _, _ => []
  | n + 1, t, bs =>
    let tw := (leBytes 16 t).map BitVec.toNat
    let y := f (List.zipWith (· ^^^ ·) ((fitBytes 16 (bs.take 16)).map BitVec.toNat) tw)
    (List.zipWith (· ^^^ ·) y tw).map (BitVec.ofNat 8) ++ xtsBlocks f n (xtsNext t) (bs.drop 16)

/-- The first tweak of data unit `unit`, under the second half of the key. -/
def xtsTweak (key : List Byte) (unit : Nat) : Nat :=
  leNat ((aesBlock (aesKeys (key.drop 32)) ((leBytes 16 unit).map BitVec.toNat)).map (BitVec.ofNat 8))

/-- A data unit encrypted under a 64-byte key. -/
def xtsSeal (key : List Byte) (unit : Nat) (bs : List Byte) : List Byte :=
  xtsBlocks (aesBlock (aesKeys (key.take 32))) (ceilDiv bs.length 16) (xtsTweak key unit) bs

/-- A data unit decrypted. -/
def xtsOpen (key : List Byte) (unit : Nat) (bs : List Byte) : List Byte :=
  xtsBlocks (aesUnblock (aesKeys (key.take 32))) (ceilDiv bs.length 16) (xtsTweak key unit) bs

/-- Product in GF(2^128) in the bit order of GCM; operands as 128-bit numbers, leftmost bit first. -/
def ghashMul (x y : Nat) : Nat :=
  let rec go : Nat → Nat → Nat → Nat → Nat
    | 0, _, _, z => z
    | n + 1, i, v, z =>
      let z := if (x >>> (127 - i)) % 2 = 1 then z ^^^ v else z
      go n (i + 1) (if v % 2 = 1 then (v >>> 1) ^^^ (0xe1 <<< 120) else v >>> 1) z
  go 128 0 y 0

def ghashBlocks : Nat → Nat → Nat → List Byte → Nat
  | 0, _, y, _ => y
  | n + 1, h, y, bs => ghashBlocks n h (ghashMul (y ^^^ beNat (fitBytes 16 (bs.take 16))) h) (bs.drop 16)

/-- CTR keystream applied to `bs`, counter starting at `c` after the 12-byte nonce. -/
def gcmCtr (keys : List (List Nat)) (nonce : List Byte) : Nat → Nat → List Byte → List Byte
  | 0, _, _ => []
  | n + 1, c, bs =>
    let ks := aesBlock keys ((nonce ++ beBytes 4 c).map BitVec.toNat)
    List.zipWith (fun b k => b ^^^ BitVec.ofNat 8 k) (bs.take 16) ks ++ gcmCtr keys nonce n (c + 1) (bs.drop 16)

def gcmTag (keys : List (List Nat)) (nonce aad ct : List Byte) : List Byte :=
  let h := beNat ((aesBlock keys (List.replicate 16 0)).map (BitVec.ofNat 8))
  let y := ghashBlocks (ceilDiv aad.length 16) h 0 aad
  let y := ghashBlocks (ceilDiv ct.length 16) h y ct
  let y := ghashMul (y ^^^ (aad.length * 8 * 2 ^ 64 + ct.length * 8)) h
  let e := aesBlock keys ((nonce ++ beBytes 4 1).map BitVec.toNat)
  List.zipWith (fun b k => b ^^^ BitVec.ofNat 8 k) (beBytes 16 y) e

/-- AES-256-GCM sealing: ciphertext and 16-byte tag. -/
def gcmSeal (key nonce aad pt : List Byte) : List Byte × List Byte :=
  let keys := aesKeys key
  let ct := gcmCtr keys nonce (ceilDiv pt.length 16) 2 pt
  (ct, gcmTag keys nonce aad ct)

/-- AES-256-GCM opening: the plaintext when the tag is right. -/
def gcmOpen (key nonce aad ct tag : List Byte) : Option (List Byte) :=
  let keys := aesKeys key
  if gcmTag keys nonce aad ct = tag then some (gcmCtr keys nonce (ceilDiv ct.length 16) 2 ct) else none

/-! ### CRC-32C (R204) -/

def crc32cByte (c : Nat) (b : Byte) : Nat :=
  let rec go : Nat → Nat → Nat
    | 0, c => c
    | n + 1, c => go n (if c % 2 = 1 then (c >>> 1) ^^^ 0x82F63B78 else c >>> 1)
  go 8 (c ^^^ b.toNat)

/-- CRC-32C, reflected, preset and inverted with all ones. -/
def crc32c (bs : List Byte) : Nat := (bs.foldl crc32cByte 0xFFFFFFFF) ^^^ 0xFFFFFFFF

/-! ### ECDSA P-384 verification -/

def p384p : Nat := 0xfffffffffffffffffffffffffffffffffffffffffffffffffffffffffffffffeffffffff0000000000000000ffffffff
def p384n : Nat := 0xffffffffffffffffffffffffffffffffffffffffffffffffc7634d81f4372ddf581a0db248b0a77aecec196accc52973
def p384b : Nat := 0xb3312fa7e23ee7e4988e056be3f82d19181d9c6efe8141120314088f5013875ac656398d8a2ed19d2a85c8edd3ec2aef
def p384gx : Nat := 0xaa87ca22be8b05378eb1c71ef320ad746e1d3b628ba79b9859f741e082542a385502f25dbf55296c3a545e3872760ab7
def p384gy : Nat := 0x3617de4a96262c6f5d9e98bf9292dc29f8f41dbd289a147ce9da3113b5f0b8c00a60b1ce1d7e819d7a431d7c90ea0e5f

def powMod : Nat → Nat → Nat → Nat → Nat
  | 0, _, _, _ => 1
  | f + 1, b, e, m =>
    if e = 0 then 1 % m
    else
      let h := powMod f (b * b % m) (e / 2) m
      if e % 2 = 1 then h * b % m else h

def invMod (a m : Nat) : Nat := powMod 400 (a % m) (m - 2) m

/-- A point of the curve, `none` at infinity. -/
abbrev P384 := Option (Nat × Nat)

def p384Add (a b : P384) : P384 :=
  match a, b with
  | none, q => q
  | p, none => p
  | some (x1, y1), some (x2, y2) =>
    let p := p384p
    if x1 = x2 ∧ (y1 + y2) % p = 0 then none
    else
      let l := if x1 = x2 then (3 * x1 * x1 + (p - 3)) * invMod (2 * y1) p % p
        else (y2 + (p - y1)) * invMod (x2 + (p - x1)) p % p
      let x3 := (l * l + 2 * p - x1 - x2) % p
      some (x3, (l * (x1 + (p - x3)) + (p - y1)) % p)

def p384Mul : Nat → Nat → P384 → P384
  | 0, _, _ => none
  | f + 1, k, q =>
    if k = 0 then none
    else
      let h := p384Mul f (k / 2) (p384Add q q)
      if k % 2 = 1 then p384Add h q else h

/-- ECDSA P-384 with SHA-384: key as the 97-byte uncompressed point, signature r ‖ s of 48 bytes each, big-endian. -/
def ecdsaVerify (key msg sig : List Byte) : Bool :=
  let x := beNat ((key.drop 1).take 48)
  let y := beNat ((key.drop 49).take 48)
  let r := beNat (sig.take 48)
  let s := beNat ((sig.drop 48).take 48)
  let ok := key.length = 97 ∧ key.head? = some 4 ∧ x < p384p ∧ y < p384p ∧
    (y * y) % p384p = (x * x * x + (p384p - 3) * x + p384b) % p384p ∧ 0 < r ∧ r < p384n ∧ 0 < s ∧ s < p384n
  if ok then
    let w := invMod s p384n
    let u1 := beNat (sha384 msg) * w % p384n
    let u2 := r * w % p384n
    match p384Add (p384Mul 400 u1 (some (p384gx, p384gy))) (p384Mul 400 u2 (some (x, y))) with
    | none => false
    | some (px, _) => px % p384n = r
  else false

end Sys2Proof.Machine
end

