-- ==== Sys2Proof/Machine/Objects.lean ====
section
/-!
DEFINITION. The object dictionary's static side (chapters 17 and 18): every object of the spec's object tables with its
type, rights, default, store and own range (R461), its kind (R450), and the lookups over them.
-/

namespace Sys2Proof.Machine

/-- A row of an object table: index, first and last sub-index, type code of R449, OCTETS length, rights (bits [1:0]
operator, [3:2] installer, [5:4] maker; bit 0 of each read, bit 1 write), default, store (0 V, 1 S, 2 F), and the own range
as (low, high, step) intervals, empty where the type alone bounds the value. A default the table gives as — stands as 0. -/
structure ObjRow where
  index : Nat
  lo : Nat
  hi : Nat
  typ : Nat
  len : Nat
  rights : Nat
  dflt : Nat
  store : Nat
  range : List (Nat × Nat × Nat)
  deriving DecidableEq, Repr

def objs10a : List ObjRow :=
  [⟨0x1000, 1, 1, 10, 0, 21, 0, 2, []⟩,
   ⟨0x1000, 2, 2, 10, 0, 21, 0, 2, []⟩,
   ⟨0x1000, 3, 3, 10, 0, 21, 0, 2, []⟩,
   ⟨0x1000, 4, 4, 10, 0, 21, 0, 2, []⟩,
   ⟨0x1000, 5, 5, 10, 0, 21, 0, 2, []⟩,
   ⟨0x1001, 0, 0, 2, 0, 21, 0, 2, []⟩,
   ⟨0x1002, 0, 0, 6, 0, 21, 1, 0, []⟩,
   ⟨0x1003, 0, 0, 3, 0, 21, 0, 1, []⟩,
   ⟨0x1010, 0, 0, 2, 0, 21, 4113, 2, []⟩]

def objs11a : List ObjRow :=
  [⟨0x1101, 1, 1, 12, 0, 40, 0, 1, []⟩,
   ⟨0x1101, 2, 2, 12, 0, 40, 0, 1, []⟩,
   ⟨0x1101, 3, 3, 12, 0, 32, 0, 2, []⟩,
   ⟨0x1102, 0, 0, 12, 0, 40, 0, 1, []⟩,
   ⟨0x1103, 1, 1, 1, 0, 21, 0, 0, []⟩,
   ⟨0x1103, 2, 2, 2, 0, 61, 60, 1, [(10, 3600, 1)]⟩,
   ⟨0x1104, 1, 40, 4, 0, 21, 0, 0, []⟩,
   ⟨0x1110, 1, 1, 3, 0, 21, 0, 1, []⟩,
   ⟨0x1110, 2, 2, 3, 0, 21, 0, 1, []⟩,
   ⟨0x1110, 3, 3, 3, 0, 61, 0, 0, []⟩,
   ⟨0x1110, 4, 4, 9, 64, 21, 0, 0, []⟩,
   ⟨0x1120, 1, 1, 1, 0, 61, 254, 1, [(1, 254, 1)]⟩,
   ⟨0x1120, 2, 2, 6, 0, 61, 1, 1, [(0, 4, 1)]⟩,
   ⟨0x1120, 3, 3, 0, 0, 61, 1, 1, []⟩,
   ⟨0x1121, 0, 0, 0, 0, 61, 0, 1, []⟩,
   ⟨0x1122, 1, 16, 9, 16, 21, 0, 0, []⟩]

def objs12a : List ObjRow :=
  [⟨0x1201, 1, 1, 3, 0, 21, 0, 0, []⟩,
   ⟨0x1202, 1, 64, 3, 0, 21, 0, 0, []⟩,
   ⟨0x1203, 1, 1, 3, 0, 21, 0, 0, []⟩,
   ⟨0x1204, 1, 16, 4, 0, 21, 0, 0, []⟩]

def objs13a : List ObjRow :=
  [⟨0x1300, 1, 1, 3, 0, 21, 0, 0, []⟩,
   ⟨0x1300, 2, 2, 6, 0, 21, 0, 0, []⟩,
   ⟨0x1300, 3, 3, 3, 0, 21, 0, 2, []⟩,
   ⟨0x1301, 1, 2, 6, 0, 21, 0, 1, []⟩,
   ⟨0x1302, 1, 2, 3, 0, 21, 0, 1, []⟩,
   ⟨0x1303, 1, 2, 7, 0, 21, 0, 1, []⟩,
   ⟨0x1304, 1, 2, 2, 0, 21, 0, 0, []⟩,
   ⟨0x1310, 1, 1, 6, 0, 61, 0, 0, [(0, 1, 1)]⟩,
   ⟨0x1310, 2, 2, 3, 0, 61, 0, 0, []⟩,
   ⟨0x1310, 3, 3, 0, 0, 40, 0, 0, []⟩,
   ⟨0x1310, 4, 4, 3, 0, 40, 0, 0, []⟩,
   ⟨0x1310, 5, 5, 9, 4096, 40, 0, 0, []⟩,
   ⟨0x1310, 6, 6, 0, 0, 40, 0, 0, []⟩,
   ⟨0x1310, 7, 7, 6, 0, 21, 0, 0, []⟩,
   ⟨0x1320, 1, 1, 6, 0, 61, 0, 0, [(0, 1, 1)]⟩,
   ⟨0x1320, 2, 2, 11, 0, 61, 0, 0, []⟩,
   ⟨0x1320, 3, 3, 0, 0, 40, 0, 0, []⟩,
   ⟨0x1320, 4, 4, 0, 0, 40, 0, 0, []⟩,
   ⟨0x1320, 6, 6, 3, 0, 21, 0, 0, []⟩,
   ⟨0x1320, 7, 7, 2, 0, 21, 0, 0, []⟩,
   ⟨0x1330, 1, 1, 2, 0, 61, 0, 1, []⟩,
   ⟨0x1340, 1, 1, 0, 0, 40, 0, 0, []⟩,
   ⟨0x1340, 2, 2, 0, 0, 40, 0, 0, []⟩,
   ⟨0x1340, 3, 3, 11, 0, 61, 0, 0, []⟩]

def objs20a : List ObjRow :=
  [⟨0x2000, 1, 1, 2, 0, 61, 330, 1, [(40, 330, 1)]⟩,
   ⟨0x2001, 1, 2, 1, 0, 61, 60, 1, [(10, 90, 1)]⟩,
   ⟨0x2002, 1, 2, 2, 0, 61, 2000, 1, [(100, 20000, 1)]⟩,
   ⟨0x2003, 1, 2, 1, 0, 61, 3, 1, [(0, 7, 1)]⟩,
   ⟨0x2004, 1, 2, 2, 0, 61, 1000, 1, [(200, 1500, 1)]⟩,
   ⟨0x2005, 1, 2, 0, 0, 61, 1, 1, []⟩,
   ⟨0x2006, 1, 2, 0, 0, 40, 0, 0, []⟩,
   ⟨0x2007, 1, 2, 7, 0, 21, 0, 0, []⟩,
   ⟨0x2008, 1, 2, 2, 0, 21, 0, 0, []⟩,
   ⟨0x2009, 1, 2, 3, 0, 21, 0, 0, []⟩,
   ⟨0x200A, 1, 2, 1, 0, 21, 0, 0, []⟩,
   ⟨0x200B, 1, 1, 2, 0, 21, 0, 0, []⟩,
   ⟨0x200B, 2, 2, 2, 0, 21, 0, 0, []⟩,
   ⟨0x200C, 1, 2, 6, 0, 21, 0, 0, []⟩]

def objs21a : List ObjRow :=
  [⟨0x2100, 1, 1, 3, 0, 21, 21714, 0, []⟩,
   ⟨0x2100, 2, 2, 2, 0, 21, 550, 0, []⟩,
   ⟨0x2100, 3, 3, 3, 0, 61, 0, 1, []⟩,
   ⟨0x2100, 4, 4, 2, 0, 21, 0, 0, []⟩,
   ⟨0x2100, 5, 5, 2, 0, 61, 780, 1, [(550, 860, 5)]⟩,
   ⟨0x2100, 6, 6, 6, 0, 21, 0, 0, []⟩,
   ⟨0x2100, 7, 7, 5, 0, 21, 0, 0, []⟩,
   ⟨0x2100, 8, 8, 2, 0, 21, 0, 0, []⟩,
   ⟨0x2100, 9, 9, 2, 0, 21, 330, 0, []⟩,
   ⟨0x2100, 10, 10, 2, 0, 21, 0, 0, []⟩,
   ⟨0x2110, 1, 1, 11, 0, 21, 0, 0, []⟩,
   ⟨0x2110, 2, 2, 5, 0, 21, 0, 0, []⟩,
   ⟨0x2110, 3, 3, 0, 0, 21, 0, 0, []⟩,
   ⟨0x2110, 4, 4, 0, 0, 61, 0, 1, []⟩,
   ⟨0x2110, 5, 5, 0, 0, 61, 0, 1, []⟩,
   ⟨0x2110, 6, 6, 11, 0, 40, 0, 0, []⟩,
   ⟨0x2111, 1, 128, 2, 0, 21, 0, 0, []⟩]

def objs30a : List ObjRow :=
  [⟨0x3001, 1, 32, 6, 0, 61, 0, 1, [(0, 5, 1)]⟩,
   ⟨0x3002, 1, 32, 7, 0, 61, 0, 1, []⟩,
   ⟨0x3003, 1, 128, 6, 0, 61, 0, 1, [(0, 3, 1)]⟩,
   ⟨0x3004, 1, 128, 6, 0, 61, 0, 1, [(0, 6, 1)]⟩,
   ⟨0x3005, 1, 128, 6, 0, 61, 0, 1, [(0, 2, 1)]⟩,
   ⟨0x3006, 1, 128, 1, 0, 21, 0, 0, []⟩,
   ⟨0x3010, 1, 128, 6, 0, 21, 0, 0, []⟩,
   ⟨0x3011, 1, 128, 6, 0, 21, 0, 0, []⟩,
   ⟨0x3012, 1, 128, 6, 0, 61, 0, 1, [(0, 2, 1)]⟩,
   ⟨0x3013, 1, 128, 6, 0, 61, 0, 1, [(0, 2, 1)]⟩,
   ⟨0x3014, 1, 128, 6, 0, 21, 0, 0, []⟩,
   ⟨0x3015, 1, 128, 6, 0, 21, 0, 0, []⟩,
   ⟨0x3016, 1, 128, 1, 0, 61, 5, 1, [(0, 15, 1)]⟩,
   ⟨0x3017, 1, 128, 1, 0, 61, 5, 1, [(0, 15, 1)]⟩,
   ⟨0x3020, 1, 1, 2, 0, 61, 0, 0, [(0, 255, 1)]⟩,
   ⟨0x3020, 2, 2, 6, 0, 61, 0, 0, [(0, 1, 1)]⟩,
   ⟨0x3020, 3, 3, 3, 0, 61, 4, 0, []⟩,
   ⟨0x3020, 4, 4, 0, 0, 40, 0, 0, []⟩,
   ⟨0x3020, 5, 5, 6, 0, 21, 0, 0, []⟩,
   ⟨0x3020, 6, 6, 1, 0, 21, 0, 0, []⟩,
   ⟨0x3020, 7, 7, 1, 0, 21, 0, 0, []⟩,
   ⟨0x3030, 1, 1, 0, 0, 61, 0, 0, []⟩]

def objs31a : List ObjRow :=
  [⟨0x3101, 1, 128, 1, 0, 61, 255, 1, [(0, 31, 1), (255, 255, 1)]⟩,
   ⟨0x3102, 1, 128, 6, 0, 61, 0, 1, [(0, 1, 1)]⟩,
   ⟨0x3103, 1, 128, 6, 0, 21, 0, 0, []⟩,
   ⟨0x3104, 1, 128, 6, 0, 21, 0, 0, []⟩,
   ⟨0x3105, 1, 128, 0, 0, 21, 0, 0, []⟩,
   ⟨0x3106, 1, 128, 6, 0, 61, 1, 1, [(0, 1, 1)]⟩,
   ⟨0x3107, 1, 128, 1, 0, 61, 1, 1, [(1, 2, 1)]⟩,
   ⟨0x3108, 1, 128, 1, 0, 21, 0, 0, []⟩,
   ⟨0x3110, 1, 1, 1, 0, 61, 0, 0, [(0, 127, 1)]⟩,
   ⟨0x3110, 2, 2, 2, 0, 61, 0, 0, [(0, 4095, 1)]⟩,
   ⟨0x3110, 3, 3, 4, 0, 21, 0, 0, []⟩,
   ⟨0x3110, 4, 4, 0, 0, 40, 0, 0, []⟩,
   ⟨0x3111, 1, 128, 2, 0, 21, 0, 0, []⟩,
   ⟨0x3120, 1, 16, 1, 0, 61, 0, 1, [(0, 127, 1)]⟩,
   ⟨0x3121, 1, 32, 1, 0, 61, 255, 1, [(0, 127, 1), (255, 255, 1)]⟩,
   ⟨0x3122, 1, 32, 1, 0, 61, 255, 1, [(0, 63, 1), (255, 255, 1)]⟩,
   ⟨0x3123, 1, 1, 1, 0, 61, 20, 1, [(1, 100, 1)]⟩,
   ⟨0x3123, 2, 2, 6, 0, 61, 0, 1, [(0, 1, 1)]⟩,
   ⟨0x3124, 1, 32, 7, 0, 21, 0, 0, []⟩,
   ⟨0x3130, 1, 1, 2, 0, 21, 0, 0, []⟩]

def objs32a : List ObjRow :=
  [⟨0x3201, 1, 128, 6, 0, 21, 0, 0, []⟩,
   ⟨0x3202, 1, 128, 6, 0, 21, 0, 0, []⟩,
   ⟨0x3203, 1, 128, 1, 0, 61, 3, 1, [(1, 15, 1)]⟩,
   ⟨0x3204, 1, 128, 7, 0, 61, 255, 1, []⟩,
   ⟨0x3205, 1, 128, 2, 0, 61, 64, 1, [(1, 2047, 1)]⟩,
   ⟨0x3206, 1, 128, 2, 0, 61, 1024, 1, [(65, 32767, 1)]⟩,
   ⟨0x3207, 1, 128, 0, 0, 40, 0, 0, []⟩,
   ⟨0x3208, 1, 128, 3, 0, 21, 0, 0, []⟩,
   ⟨0x3209, 1, 128, 2, 0, 21, 0, 0, []⟩,
   ⟨0x320A, 1, 128, 1, 0, 21, 0, 0, []⟩,
   ⟨0x320B, 1, 128, 1, 0, 21, 0, 0, []⟩]

def objs33a : List ObjRow :=
  [⟨0x3301, 1, 32, 0, 0, 61, 0, 1, []⟩,
   ⟨0x3302, 1, 32, 3, 0, 61, 0, 1, []⟩,
   ⟨0x3303, 1, 32, 6, 0, 21, 0, 0, []⟩,
   ⟨0x3304, 1, 32, 6, 0, 61, 0, 1, [(0, 1, 1)]⟩,
   ⟨0x3305, 1, 32, 0, 0, 40, 0, 0, []⟩,
   ⟨0x3306, 1, 32, 2, 0, 21, 0, 0, []⟩]

def objs40a : List ObjRow :=
  [⟨0x4001, 1, 130, 3, 0, 61, 2560, 1, [(20, 16384, 1)]⟩,
   ⟨0x4002, 1, 130, 3, 0, 61, 131072, 1, [(17, 524288, 1)]⟩,
   ⟨0x4003, 1, 130, 3, 0, 21, 0, 0, []⟩,
   ⟨0x4004, 0, 0, 3, 0, 21, 187392, 0, []⟩,
   ⟨0x4005, 0, 0, 3, 0, 21, 187392, 0, []⟩,
   ⟨0x4010, 0, 0, 11, 0, 61, 100000000, 1, [(10000, 2000000000, 1)]⟩,
   ⟨0x4020, 1, 1, 0, 0, 61, 1, 1, []⟩,
   ⟨0x4020, 2, 2, 3, 0, 61, 65536, 1, []⟩,
   ⟨0x4020, 3, 3, 3, 0, 61, 98304, 1, []⟩,
   ⟨0x4020, 4, 4, 3, 0, 61, 512, 1, []⟩,
   ⟨0x4020, 5, 5, 3, 0, 61, 4096, 1, []⟩,
   ⟨0x4020, 6, 6, 0, 0, 21, 0, 0, []⟩,
   ⟨0x4020, 7, 7, 3, 0, 21, 0, 0, []⟩,
   ⟨0x4021, 1, 1, 3, 0, 61, 1024, 1, [(1024, 8192, 256)]⟩,
   ⟨0x4021, 2, 2, 3, 0, 21, 0, 0, []⟩,
   ⟨0x4021, 3, 3, 3, 0, 61, 16384, 1, []⟩,
   ⟨0x4022, 1, 1, 11, 0, 61, 50000, 1, [(8000, 10000000, 1)]⟩,
   ⟨0x4022, 2, 2, 3, 0, 61, 131072, 1, []⟩,
   ⟨0x4022, 3, 3, 3, 0, 21, 0, 0, []⟩,
   ⟨0x4030, 1, 128, 3, 0, 61, 2000, 1, [(250, 100000, 1)]⟩,
   ⟨0x4031, 0, 0, 6, 0, 61, 0, 1, [(0, 1, 1)]⟩,
   ⟨0x4032, 1, 128, 3, 0, 21, 0, 0, []⟩,
   ⟨0x4040, 1, 130, 8, 0, 61, 72340172838076673, 1, []⟩,
   ⟨0x4041, 0, 0, 3, 0, 61, 65536, 1, []⟩,
   ⟨0x4042, 0, 0, 3, 0, 21, 0, 0, []⟩,
   ⟨0x4050, 1, 1, 2, 0, 61, 0, 0, [(0, 4159, 1)]⟩,
   ⟨0x4050, 2, 2, 3, 0, 21, 0, 0, []⟩,
   ⟨0x4050, 3, 3, 3, 0, 21, 0, 0, []⟩]

def objs41a : List ObjRow :=
  [⟨0x4100, 1, 1, 2, 0, 61, 65535, 1, [(0, 1023, 1), (65535, 65535, 1)]⟩,
   ⟨0x4100, 2, 2, 3, 0, 61, 0, 1, []⟩,
   ⟨0x4100, 3, 3, 6, 0, 21, 0, 0, []⟩,
   ⟨0x4100, 4, 4, 2, 0, 21, 65535, 0, []⟩,
   ⟨0x4100, 5, 5, 3, 0, 21, 0, 0, []⟩,
   ⟨0x4100, 6, 6, 2, 0, 21, 0, 0, []⟩,
   ⟨0x4101, 1, 4, 2, 0, 61, 65535, 1, [(0, 1023, 1), (65535, 65535, 1)]⟩,
   ⟨0x4102, 1, 1, 1, 0, 61, 0, 1, [(0, 254, 1)]⟩,
   ⟨0x4102, 2, 2, 6, 0, 21, 0, 0, []⟩,
   ⟨0x4103, 1, 1, 1, 0, 21, 0, 0, []⟩,
   ⟨0x4104, 1, 1, 2, 0, 61, 0, 0, [(0, 1023, 1)]⟩,
   ⟨0x4104, 2, 2, 9, 16, 21, 0, 0, []⟩,
   ⟨0x4104, 3, 3, 3, 0, 21, 0, 0, []⟩,
   ⟨0x4105, 1, 128, 0, 0, 61, 0, 1, []⟩,
   ⟨0x4106, 1, 1, 0, 0, 40, 0, 0, []⟩,
   ⟨0x4106, 2, 2, 3, 0, 21, 0, 0, []⟩]

def objs42a : List ObjRow :=
  [⟨0x4201, 0, 0, 1, 0, 61, 8, 1, [(1, 15, 1)]⟩,
   ⟨0x4202, 1, 1, 2, 0, 61, 1024, 1, [(65, 65535, 1)]⟩,
   ⟨0x4202, 2, 2, 2, 0, 61, 16384, 1, [(65, 65535, 1)]⟩,
   ⟨0x4202, 3, 3, 2, 0, 61, 65, 1, [(1, 1024, 1)]⟩,
   ⟨0x4203, 0, 0, 1, 0, 61, 16, 1, [(1, 64, 1)]⟩,
   ⟨0x4204, 0, 0, 11, 0, 61, 1000000, 1, [(0, 1000000000, 1)]⟩,
   ⟨0x4205, 1, 1, 2, 0, 21, 0, 0, []⟩,
   ⟨0x4205, 2, 2, 2, 0, 21, 0, 0, []⟩,
   ⟨0x4205, 3, 3, 3, 0, 21, 0, 0, []⟩,
   ⟨0x4205, 4, 4, 3, 0, 21, 0, 0, []⟩,
   ⟨0x4210, 1, 1, 2, 0, 61, 0, 0, [(0, 1023, 1)]⟩,
   ⟨0x4210, 2, 2, 12, 0, 40, 0, 1, []⟩,
   ⟨0x4210, 3, 3, 6, 0, 21, 0, 0, []⟩,
   ⟨0x4210, 4, 4, 0, 0, 40, 0, 0, []⟩,
   ⟨0x4211, 0, 0, 12, 0, 40, 0, 1, []⟩,
   ⟨0x4212, 0, 0, 0, 0, 40, 0, 0, []⟩,
   ⟨0x4213, 0, 0, 2, 0, 21, 0, 0, []⟩]

def objs43a : List ObjRow :=
  [⟨0x4301, 1, 1, 3, 0, 21, 0, 0, []⟩,
   ⟨0x4301, 2, 2, 3, 0, 21, 0, 0, []⟩,
   ⟨0x4301, 3, 3, 3, 0, 21, 0, 0, []⟩,
   ⟨0x4301, 4, 4, 2, 0, 21, 8192, 0, []⟩,
   ⟨0x4302, 1, 1, 2, 0, 21, 2048, 0, []⟩,
   ⟨0x4302, 2, 2, 2, 0, 61, 64, 1, [(1, 2048, 1)]⟩,
   ⟨0x4302, 3, 3, 2, 0, 61, 256, 1, [(0, 4080, 1)]⟩,
   ⟨0x4302, 4, 4, 2, 0, 21, 0, 0, []⟩,
   ⟨0x4303, 1, 1, 2, 0, 60, 0, 0, [(0, 2047, 1)]⟩,
   ⟨0x4303, 2, 2, 9, 32, 20, 0, 0, []⟩,
   ⟨0x4310, 1, 32, 9, 32, 21, 0, 0, []⟩,
   ⟨0x4311, 1, 32, 0, 0, 42, 0, 0, []⟩,
   ⟨0x4312, 1, 32, 2, 0, 61, 0, 1, []⟩,
   ⟨0x4313, 1, 32, 3, 0, 21, 0, 0, []⟩]

def objs44a : List ObjRow :=
  [⟨0x4401, 1, 32, 2, 0, 61, 0, 1, [(0, 256, 1)]⟩,
   ⟨0x4402, 1, 32, 2, 0, 61, 64, 1, []⟩,
   ⟨0x4403, 1, 32, 3, 0, 61, 2048, 1, []⟩,
   ⟨0x4404, 1, 32, 3, 0, 61, 2048, 1, []⟩,
   ⟨0x4405, 1, 32, 2, 0, 61, 512, 1, []⟩,
   ⟨0x4406, 1, 32, 3, 0, 61, 0, 1, []⟩,
   ⟨0x4407, 1, 32, 1, 0, 61, 34, 1, [(22, 44, 1)]⟩,
   ⟨0x4408, 1, 32, 3, 0, 61, 8192, 1, []⟩,
   ⟨0x4409, 1, 32, 2, 0, 21, 0, 0, []⟩,
   ⟨0x440A, 1, 1, 2, 0, 21, 2048, 0, []⟩,
   ⟨0x440A, 2, 2, 2, 0, 21, 4096, 0, []⟩,
   ⟨0x440A, 3, 3, 3, 0, 21, 262144, 0, []⟩,
   ⟨0x440B, 1, 1, 2, 0, 61, 0, 0, [(0, 2047, 1)]⟩,
   ⟨0x440B, 2, 2, 2, 0, 21, 0, 0, []⟩]

def objs50a : List ObjRow :=
  [⟨0x5000, 1, 1, 2, 0, 21, 1, 0, []⟩,
   ⟨0x5000, 2, 2, 0, 0, 40, 0, 0, []⟩,
   ⟨0x5000, 3, 3, 6, 0, 21, 0, 0, []⟩,
   ⟨0x5000, 4, 4, 3, 0, 21, 0, 0, []⟩,
   ⟨0x5000, 5, 5, 3, 0, 20, 0, 0, []⟩,
   ⟨0x5001, 1, 1, 1, 0, 60, 0, 0, [(0, 129, 1)]⟩,
   ⟨0x5001, 2, 2, 1, 0, 60, 0, 0, [(0, 63, 1)]⟩,
   ⟨0x5001, 3, 3, 9, 32, 60, 0, 1, []⟩,
   ⟨0x5001, 4, 4, 9, 32, 20, 0, 0, []⟩,
   ⟨0x5002, 1, 130, 0, 0, 61, 1, 1, []⟩,
   ⟨0x5003, 1, 130, 9, 32, 20, 0, 0, []⟩,
   ⟨0x5010, 1, 64, 3, 0, 61, 0, 1, []⟩]

def objs51a : List ObjRow :=
  [⟨0x5101, 1, 130, 9, 32, 21, 0, 0, []⟩,
   ⟨0x5102, 1, 130, 0, 0, 42, 0, 0, []⟩,
   ⟨0x5103, 1, 130, 3, 0, 61, 1000, 1, []⟩,
   ⟨0x5104, 1, 128, 7, 0, 61, 9, 1, []⟩,
   ⟨0x5105, 0, 0, 0, 0, 61, 1, 1, []⟩,
   ⟨0x5106, 1, 32, 0, 0, 40, 0, 0, []⟩,
   ⟨0x5107, 1, 32, 1, 0, 21, 0, 0, []⟩,
   ⟨0x5108, 1, 32, 3, 0, 21, 0, 0, []⟩,
   ⟨0x5109, 0, 0, 1, 0, 21, 0, 1, []⟩,
   ⟨0x510A, 0, 0, 1, 0, 21, 0, 1, []⟩]

def objs52a : List ObjRow :=
  [⟨0x5201, 0, 0, 0, 0, 61, 0, 1, []⟩,
   ⟨0x5202, 0, 0, 6, 0, 61, 0, 1, [(0, 1, 1)]⟩,
   ⟨0x5203, 0, 0, 2, 0, 61, 65535, 1, [(0, 1023, 1), (65535, 65535, 1)]⟩,
   ⟨0x5204, 0, 0, 3, 0, 61, 0, 1, []⟩,
   ⟨0x5205, 0, 0, 2, 0, 61, 15359, 1, [(0, 16383, 1)]⟩,
   ⟨0x5206, 0, 0, 1, 0, 61, 7, 1, [(0, 7, 1)]⟩,
   ⟨0x5207, 0, 0, 6, 0, 61, 1, 1, [(0, 1, 1)]⟩,
   ⟨0x5208, 0, 0, 6, 0, 21, 0, 0, []⟩,
   ⟨0x5209, 0, 0, 1, 0, 21, 0, 0, []⟩,
   ⟨0x520A, 0, 0, 3, 0, 21, 0, 0, []⟩,
   ⟨0x520B, 0, 0, 3, 0, 21, 0, 0, []⟩,
   ⟨0x520C, 0, 0, 3, 0, 21, 0, 0, []⟩,
   ⟨0x520D, 0, 0, 2, 0, 21, 0, 0, []⟩]

def objs60a : List ObjRow :=
  [⟨0x6001, 0, 0, 0, 0, 61, 0, 1, []⟩,
   ⟨0x6002, 0, 0, 0, 0, 61, 0, 1, []⟩,
   ⟨0x6003, 0, 0, 6, 0, 61, 3, 1, [(0, 6, 1)]⟩,
   ⟨0x6004, 0, 0, 1, 0, 61, 63, 1, [(0, 63, 1)]⟩,
   ⟨0x6005, 1, 1, 6, 0, 61, 0, 1, [(0, 1, 1)]⟩,
   ⟨0x6005, 2, 2, 1, 0, 61, 3, 1, [(0, 3, 1)]⟩,
   ⟨0x6007, 0, 0, 2, 0, 61, 10, 1, [(1, 100, 1)]⟩,
   ⟨0x6008, 0, 0, 2, 0, 61, 256, 1, [(0, 2048, 1)]⟩,
   ⟨0x6010, 1, 16, 9, 32, 61, 0, 1, []⟩,
   ⟨0x6011, 1, 16, 9, 32, 61, 0, 1, []⟩,
   ⟨0x6012, 1, 32, 0, 0, 61, 0, 1, []⟩,
   ⟨0x6013, 1, 32, 1, 0, 61, 24, 1, [(20, 28, 1)]⟩,
   ⟨0x6014, 1, 32, 3, 0, 61, 0, 1, []⟩,
   ⟨0x6015, 1, 32, 2, 0, 61, 0, 1, []⟩,
   ⟨0x6016, 1, 32, 9, 32, 21, 0, 0, []⟩,
   ⟨0x6017, 1, 32, 0, 0, 42, 0, 0, []⟩,
   ⟨0x6018, 0, 0, 9, 32, 20, 0, 0, []⟩,
   ⟨0x6018, 1, 1, 0, 0, 40, 0, 0, []⟩,
   ⟨0x6019, 1, 1, 1, 0, 61, 0, 1, [(0, 7, 1)]⟩,
   ⟨0x6019, 2, 2, 1, 0, 61, 0, 1, []⟩,
   ⟨0x6020, 1, 128, 4, 0, 61, 0, 1, []⟩,
   ⟨0x6021, 0, 0, 7, 0, 61, 0, 1, []⟩,
   ⟨0x6022, 0, 0, 7, 0, 61, 0, 1, []⟩,
   ⟨0x6022, 1, 1, 7, 0, 40, 0, 0, []⟩,
   ⟨0x6023, 0, 0, 6, 0, 61, 0, 1, [(0, 2, 1)]⟩,
   ⟨0x6024, 1, 1, 7, 0, 61, 0, 1, []⟩,
   ⟨0x6024, 2, 2, 0, 0, 61, 0, 1, []⟩,
   ⟨0x6025, 0, 0, 2, 0, 61, 65535, 1, [(0, 65472, 64), (65535, 65535, 1)]⟩,
   ⟨0x6026, 0, 0, 3, 0, 21, 0, 0, []⟩,
   ⟨0x6027, 1, 128, 4, 0, 61, 0, 1, []⟩,
   ⟨0x6028, 1, 128, 4, 0, 61, 0, 1, []⟩,
   ⟨0x6029, 1, 128, 4, 0, 61, 0, 1, []⟩,
   ⟨0x6030, 1, 1, 3, 0, 40, 0, 0, []⟩,
   ⟨0x6030, 2, 2, 1, 0, 61, 0, 1, [(0, 7, 1)]⟩,
   ⟨0x6030, 3, 3, 3, 0, 21, 0, 0, []⟩]

def objs70a : List ObjRow :=
  [⟨0x7001, 0, 0, 11, 0, 61, 1000000000, 1, [(10000, 10000000000, 1)]⟩,
   ⟨0x7002, 0, 0, 3, 0, 21, 0, 0, []⟩,
   ⟨0x7003, 0, 0, 0, 0, 42, 0, 0, []⟩,
   ⟨0x7004, 0, 0, 3, 0, 63, 0, 0, [(0, 36864, 4096)]⟩,
   ⟨0x7005, 0, 0, 9, 4096, 21, 0, 0, []⟩,
   ⟨0x7010, 1, 64, 3, 0, 4, 0, 0, []⟩,
   ⟨0x7011, 0, 0, 8, 0, 4, 0, 0, []⟩,
   ⟨0x7012, 0, 0, 8, 0, 8, 0, 0, []⟩,
   ⟨0x7020, 1, 128, 9, 32, 61, 0, 1, []⟩,
   ⟨0x7021, 0, 0, 9, 576, 61, 0, 1, []⟩,
   ⟨0x7022, 1, 1, 2, 0, 63, 0, 0, [(0, 9215, 1)]⟩,
   ⟨0x7022, 2, 2, 4, 0, 21, 0, 0, []⟩]

def objs71a : List ObjRow :=
  [⟨0x7101, 1, 33, 0, 0, 61, 0, 1, []⟩,
   ⟨0x7102, 1, 33, 4, 0, 61, 0, 1, [(0, 18446744073709551552, 64)]⟩,
   ⟨0x7103, 1, 33, 1, 0, 61, 10, 1, [(6, 20, 1)]⟩,
   ⟨0x7104, 1, 33, 3, 0, 21, 0, 0, []⟩,
   ⟨0x7105, 1, 33, 6, 0, 61, 0, 1, [(0, 1, 1)]⟩,
   ⟨0x7106, 0, 0, 1, 0, 61, 32, 1, [(0, 32, 1)]⟩,
   ⟨0x7107, 1, 33, 3, 0, 21, 0, 0, []⟩,
   ⟨0x7108, 1, 33, 3, 0, 42, 0, 0, []⟩,
   ⟨0x7109, 1, 33, 0, 0, 42, 0, 0, []⟩,
   ⟨0x710A, 1, 33, 3, 0, 21, 0, 0, []⟩,
   ⟨0x710B, 1, 33, 0, 0, 42, 0, 0, []⟩,
   ⟨0x710C, 1, 33, 0, 0, 42, 0, 0, []⟩,
   ⟨0x710D, 1, 33, 3, 0, 21, 0, 0, []⟩,
   ⟨0x710E, 1, 32, 2, 0, 61, 0, 1, []⟩,
   ⟨0x710F, 1, 32, 2, 0, 61, 16, 1, []⟩]

def objs72a : List ObjRow :=
  [⟨0x7201, 1, 1, 3, 0, 60, 0, 0, [(0, 268431360, 4096)]⟩,
   ⟨0x7201, 2, 2, 9, 4096, 20, 0, 0, []⟩,
   ⟨0x7202, 0, 0, 0, 0, 40, 0, 0, []⟩,
   ⟨0x7203, 0, 0, 0, 0, 40, 0, 0, []⟩,
   ⟨0x7204, 0, 0, 6, 0, 21, 0, 0, []⟩]

def objs7Fa : List ObjRow :=
  [⟨0x7F01, 0, 0, 12, 0, 32, 0, 0, []⟩,
   ⟨0x7F02, 0, 0, 6, 0, 21, 0, 0, []⟩,
   ⟨0x7F03, 1, 4, 0, 0, 53, 0, 2, []⟩,
   ⟨0x7F04, 1, 4, 9, 97, 21, 0, 2, []⟩,
   ⟨0x7F05, 0, 0, 4, 0, 21, 0, 0, []⟩,
   ⟨0x7F06, 0, 0, 1, 0, 21, 0, 0, []⟩,
   ⟨0x7F10, 0, 0, 9, 256, 48, 0, 2, []⟩,
   ⟨0x7F20, 0, 0, 0, 0, 40, 0, 0, []⟩,
   ⟨0x7F21, 0, 0, 7, 0, 21, 0, 0, []⟩,
   ⟨0x7F22, 0, 0, 3, 0, 21, 1, 1, []⟩]

def objTable : List ObjRow :=
  objs10a ++ objs11a ++ objs12a ++ objs13a ++ objs20a ++ objs21a ++ objs30a ++ objs31a ++ objs32a ++ objs33a ++ objs40a ++ objs41a ++ objs42a ++ objs43a ++ objs44a ++ objs50a ++ objs51a ++ objs52a ++ objs60a ++ objs70a ++ objs71a ++ objs72a ++ objs7Fa

/-- The capability records 0x1011 to 0x101F (R486): CAP_ID, then the U32 data from sub-index 04. -/
def capData (f48 : Bool) (objects : Nat) : List (List Nat) :=
  [[0x1000, 0x1001], [256, 32, 128], [6, 32, 256, 4096], [3, 384], [1024, 6, 16, 1024, 4], [16384, 65536, 256, 1024],
   [65536, 65536, 2048, 8192], [130, 64, 64], [16, 16, 512, 16], [2],
   if f48 then [2, 49152, 2400] else [1, 24576, 1200], [0x1F, 1024], [objects, 64, 16], [256], [2, 32, 4]]

/-- A capability record's sub-index: type code and value. -/
def capRead (f48 : Bool) (index sub : Nat) : Option (Nat × Nat) :=
  if 0x1011 ≤ index ∧ index ≤ 0x101F then
    match sub with
    | 1 => some (1, index - 0x1010)
    | 2 => some (1, 1)
    | 3 => some (2, if index = 0x101F then 0 else index + 1)
    | n =>
      if 4 ≤ n then
        match ((capData f48 9216).getD (index - 0x1011) [])[n - 4]? with
        | some v => some (3, v)
        | none => none
      else none
  else none

/-- The dictionary key of an object. -/
def key (index sub : Nat) : Nat := index * 256 + sub

/-- The rows of one range of 256 indexes. -/
def objRows (high : Nat) : List ObjRow :=
  match high with
  | 0x10 => objs10a
  | 0x11 => objs11a
  | 0x12 => objs12a
  | 0x13 => objs13a
  | 0x20 => objs20a
  | 0x21 => objs21a
  | 0x30 => objs30a
  | 0x31 => objs31a
  | 0x32 => objs32a
  | 0x33 => objs33a
  | 0x40 => objs40a
  | 0x41 => objs41a
  | 0x42 => objs42a
  | 0x43 => objs43a
  | 0x44 => objs44a
  | 0x50 => objs50a
  | 0x51 => objs51a
  | 0x52 => objs52a
  | 0x60 => objs60a
  | 0x70 => objs70a
  | 0x71 => objs71a
  | 0x72 => objs72a
  | 0x7F => objs7Fa
  | _ => []

/-- The table row that defines an object; sub-index 0 of an array is its count and has none. -/
def objRow (index sub : Nat) : Option ObjRow :=
  (objRows (index / 256)).find? fun r => r.index = index ∧ r.lo ≤ sub ∧ sub ≤ r.hi

/-- The count that sub-index 0 of an array reads as (R449). -/
def objCount (index : Nat) : Nat :=
  ((objRows (index / 256)).filter fun r => r.index = index).foldl (fun n r => max n r.hi) 0

def objDefault (index sub : Nat) : Nat :=
  match objRow index sub with
  | some r => r.dflt
  | none => 0

/-- Bytes of a value of a type (R449); a STRING's length is its own. -/
def typeBytes (typ len : Nat) : Nat :=
  match typ with
  | 0 => 1 | 1 => 1 | 2 => 2 | 3 => 4 | 4 => 8 | 5 => 4 | 6 => 1 | 7 => 4 | 8 => 8 | 9 => len | 11 => 8 | 12 => 32
  | _ => 0

/-- The rights of a role (1 operator, 2 installer, 3 maker) in a row: read, write. -/
def ObjRow.mayRead (r : ObjRow) (role : Nat) : Bool := r.typ = 12 || bit r.rights (2 * (role - 1))
def ObjRow.mayWrite (r : ObjRow) (role : Nat) : Bool := bit r.rights (2 * (role - 1) + 1)

/-- The kinds of R450. -/
inductive ObjKind where
  | status | config | action | param | control
  deriving DecidableEq, Repr

def ObjKind.code : ObjKind → Nat
  | .status => 0 | .config => 1 | .action => 2 | .param => 3 | .control => 4

def ObjRow.kind (r : ObjRow) : ObjKind :=
  let writable := bit r.rights 1 || bit r.rights 3 || bit r.rights 5
  let readable := bit r.rights 0 || bit r.rights 2 || bit r.rights 4
  if r.index = 0x3030 then .control
  else if !writable then .status
  else if r.store ≠ 0 || r.typ = 12 || r.index = 0x7F20 then .config
  else if !readable then .action
  else .param

/-- The value lies in the object's own range (R461). -/
def ObjRow.inRange (r : ObjRow) (v : Nat) : Bool :=
  let fits := if r.typ = 0 then v ≤ 1 else v < 2 ^ (8 * typeBytes r.typ r.len)
  fits && (r.range.isEmpty || r.range.any fun i => i.1 ≤ v && v ≤ i.2.1 && (v - i.1) % i.2.2 = 0)

/-- A read without a session is answered (R452). -/
def publicObject (index : Nat) : Bool := (0x1000 ≤ index && index ≤ 0x10FF) || (0x2007 ≤ index && index ≤ 0x200C)

end Sys2Proof.Machine
end

