-- ==== Sys2Proof/Config.lean ====
section
/-!
DEFINITION. What an implementation fixes and what the spec leaves open: constants without a body, so that nothing in Lean
can say what their values are. A statement about one holds for every value of it.
-/

namespace Sys2Proof

/-- The order code is ESX-256-F48: two beam stacks, 46.25 GiB for spill (R1, R2); otherwise F24. -/
opaque Config.f48 : Bool
/-- `STEPPING` 0x1000:04 as its bit number in STEPPING_MASK (R436), below 16. -/
opaque Config.stepping : Nat
/-- The two characters that name the stepping in `STEPPING` 0x1000:04, as a little-endian number. -/
opaque Config.steppingMark : Nat
/-- `SERIAL` 0x1000:05, the 16 ASCII bytes as a little-endian number. -/
opaque Config.serial : Nat
/-- The vault generator and the entropy source (R494): the n-th value drawn, 384 bits of it. -/
opaque Config.entropy : Nat → BitVec 384
/-- The maker unlock key of R492. -/
opaque Config.makerUnlockKey : BitVec 256
/-- The shipping values of the role secrets 1 operator, 2 installer, 3 maker (R454, R495). -/
opaque Config.shippingSecret : Nat → BitVec 256
/-- FW_PUBKEY of signing slot n (R501): the 97-byte point as a little-endian number. -/
opaque Config.fwPublicKey : Nat → Nat
/-- FW_BOOT_ROM_VERSION 0x1300:03. -/
opaque Config.bootRomVersion : Nat
/-- MAKER_TRIM 0x7F10 as made. -/
opaque Config.makerTrim : Nat
/-- The Vcore in mV at which the governor estimates that measured power `w` at `v` mV meets limit `l` (R33). -/
opaque Config.vcoreFor : Nat → Nat → Nat → Nat
/-- The 256-byte unit at which the use of the spill region, and of the ledger region, begins: the spec places no item in them. -/
opaque Config.beamOrigin : Nat
/-- How many header credits a warp port advertises beyond its minimum out of a share of its cost, in 1/16 bobbins (R153 divides
the cost between posted and non-posted credits, and not between headers and data). -/
opaque Config.headerCredits : Nat → Nat
/-- Identifiers and class codes of the PCI Express functions, which the spec does not give: by kind of function, twice its number for
Vendor and Device ID, and one more for the class code of a Type 0 function. -/
opaque Config.pciId : Nat → Nat
/-- The port part of a global port that another module's window records for its target, by module times 65536 plus window: it is
not known here. -/
opaque Config.targetPort : Nat → Nat

/-- The n-th free draw of the model: a value the spec leaves open (a hash, a mark drawn at random, a pick among equals). -/
opaque Config.free : Nat → Nat

end Sys2Proof
end

