-- ==== Sys2Proof/Machine/State.lean ====
section
/-!
DEFINITION. The state of the ESX-256: one structure for each block of the module, every field plain data, and every
default the value at reset (R7: a volatile object's default; where the spec gives none, the value a log entry names).
-/

namespace Sys2Proof.Machine

/-- A step of this model stops with no fault: every row of the table has an effect the spec describes, and a command whose
condition does not hold in the state changes nothing. The one reason kept is raised by nothing (safe). -/
inductive Fault where
  /-- Raised by nothing: the machine has no fault of its own. Safe. -/
  | none
  deriving DecidableEq, Repr

/-- Why a command has no meaning. -/
inductive Refusal where
  /-- The command has no meaning yet; raised only by an arm of `exec`. Safe: the machine stops. -/
  | notModelled (mnemonic : String)
  deriving DecidableEq, Repr

/-! ### Module state (R17, R18) -/

/-- The states of `MODULE_STATE` (0x1002:00). -/
inductive ModState where
  | off | keeper | feedsUp | coreOn | boot | config | links | service | degraded | recovery | test | fenced | halted
  deriving DecidableEq, Repr

/-! ### Event records (R489) -/

/-- One event record. `part` is the partition of PART_SEV when it is valid; `time` is fabric time in ns modulo 2^48, or
the supervisor's count when `early`. -/
structure EventRec where
  code : Nat
  inst : Nat := 0
  sev : Nat := 0
  part : Option Nat := none
  paired : Bool := false
  toInst : Bool := true
  lost : Bool := false
  early : Bool := false
  time : Nat := 0
  info : Nat := 0
  deriving DecidableEq, Repr

/-- An event held before a ring exists: the record, the ring it goes to, and, for a change of module state held by the
supervisor, the previous and the new state and the cause, which the journal still has to receive (R552). -/
structure HeldEvent where
  ring : Nat
  rec_ : EventRec
  change : Option (Nat × Nat × Nat) := none
  deriving DecidableEq, Repr

/-- One spool ring (R520 to R526). -/
structure RingState where
  armed : Bool := false
  /-- SPOOL_HEAD 0x7107 -/
  head : Nat := 0
  /-- SPOOL_RELEASED 0x710D -/
  released : Nat := 0
  /-- SPOOL_MARK_SEQ 0x710A; bit 31 none -/
  markSeq : Nat := 0
  marked : Bool := false
  markGone : Bool := false
  markCount : Nat := 0
  /-- SPOOL_LOST 0x7104 -/
  lost : Nat := 0
  lostPending : Bool := false
  /-- records held, oldest first, at most three -/
  held : List EventRec := []
  heldSince : Nat := 0
  /-- losses since the last 0x0B40 of each kind, and when that was written -/
  drops : Nat := 0
  dropsAt : Option Nat := none
  overs : Nat := 0
  oversAt : Option Nat := none
  unsigLines : Nat := 0
  unsigSince : Option Nat := none
  /-- records in each line place -/
  lineRecs : Tbl Nat := []
  deriving DecidableEq, Repr

/-- An entry of the change journal (R477), before its CHECK is taken. Values are the 16 stored bytes as a number. -/
structure JournalEntry where
  number : Nat
  time : Nat
  role : Nat
  kind : Nat
  oldHashed : Bool := false
  newHashed : Bool := false
  mailbox : Bool := false
  source : Nat := 0
  session : Nat := 0
  index : Nat
  sub : Nat
  oldValue : Nat
  newValue : Nat
  commitNumber : Nat := 0
  deriving DecidableEq, Repr

/-- A section of the bolt (R531): type, flags, content. -/
structure BoltSection where
  typ : Nat
  flags : Nat := 0
  body : List Byte := []
  done : Bool := true
  deriving DecidableEq, Repr

/-- The bolt (R528 to R530). `state` is BOLT_STATE. -/
structure Bolt where
  state : Nat := 0
  number : Nat := 0
  kind : Nat := 0
  cause : Nat := 0
  stateBefore : Nat := 0
  time : Nat := 0
  since : Nat := 0
  laters : Nat := 0
  laterSections : Nat := 0
  sections : List BoltSection := []
  /-- header fields FW_VERSION as of the cause -/
  fwVersion : Nat := 0
  deriving DecidableEq, Repr

/-- A snapshot image (R518). -/
structure TallyImage where
  number : Nat
  launch : Nat
  period : Nat
  locked : Bool
  counters : Tbl Nat
  priv : Tbl Nat
  sticky : Nat
  deriving DecidableEq, Repr

/-- The tally reader (R517 to R519). -/
structure Tally where
  /-- TALLY_SNAPSHOT 0x7002 -/
  snapshot : Nat := 0
  /-- launches since module reset -/
  launched : Nat := 0
  /-- a launched image on its way -/
  flight : Option TallyImage := none
  flightSince : Nat := 0
  /-- FT_NOW at the last launch -/
  lastFt : Nat := 0
  /-- the readable bank, and the bank that fills while a hold lasts -/
  image : Option TallyImage := none
  behind : Option TallyImage := none
  hold : Option Nat := none
  holdSince : Nat := 0
  deriving DecidableEq, Repr

/-- Counters, spool, journal and bolt (chapter 20, R476). -/
structure ObsBlk where
  /-- ordinary counters 0 to 9215 (R509) -/
  counters : Tbl Nat := []
  /-- privileged counters 0 to 63 (R512) -/
  priv : Tbl Nat := []
  /-- PRIV_STICKY 0x7011 -/
  sticky : Nat := 0
  tally : Tally := {}
  rings : Vector RingState 33 := Vector.replicate 33 {}
  /-- the stored spool objects are in force (R525) -/
  live : Bool := false
  /-- records the supervisor holds, oldest first (R552) -/
  early : List HeldEvent := []
  earlyReplaced : Nat := 0
  /-- records held from CORE_ON to CONFIG (R525) -/
  waiting : List HeldEvent := []
  /-- the newest 16384 records written, oldest first (R531) -/
  history : List EventRec := []
  /-- the journal's entries, oldest first, at most 4096 (R476) -/
  journal : List JournalEntry := []
  /-- JOURNAL_NEXT 0x1110:01 -/
  journalNext : Nat := 1
  commitNumber : Nat := 0
  bolt : Bolt := {}
  /-- rate limits: (event, place) last written at -/
  lastAt : Tbl Nat := []
  /-- counts awaiting a rate-limited event -/
  limitCount : Tbl Nat := []
  deriving DecidableEq, Repr

/-! ### Management (chapter 17) -/

/-- An open session (R455, R458). `source` is the source byte: the node, or 0x80 + partition for a mailbox. -/
structure Session where
  slot : Nat
  num : Nat
  role : Nat
  source : Nat
  key : List Byte := []
  rxCount : Nat := 0
  txCount : Nat := 0
  /-- the pending set: (object, value) in write order -/
  staged : List (Nat × Nat) := []
  /-- PARAM values -/
  params : Tbl Nat := []
  lastMsg : Nat := 0
  outstanding : Nat := 0
  /-- messages discarded, and when 0x0B06 was last written for it -/
  discards : Nat := 0
  discardsAt : Option Nat := none
  deriving DecidableEq, Repr

/-- A message of R459 received whole. -/
structure Msg where
  source : Nat
  prio : Nat := 2
  typ : Nat
  tagId : Nat := 0
  session : Nat := 0
  counter : Nat := 0
  dst : Nat := 0
  body : List Byte := []
  tag : List Byte := []
  deriving DecidableEq, Repr

/-- An attempt waiting for its proof. -/
structure AuthAttempt where
  source : Nat
  role : Nat
  num : Nat
  nc : List Byte
  nm : List Byte
  since : Nat
  tagId : Nat := 0
  deriving DecidableEq, Repr

/-- A message being reassembled (R467), by (SRC, TYPE, TAG_ID). -/
structure Assembly where
  src : Nat
  typ : Nat
  tagId : Nat
  prio : Nat
  dst : Nat
  seq : Nat
  since : Nat
  bytes : List Byte
  deriving DecidableEq, Repr

/-- The mailbox registers of a partition (R469) and the response segments waiting. -/
structure Mailbox where
  reqBusy : Bool := false
  reqCtrl : Nat := 0
  reqBytes : List Byte := []
  building : List Byte := []
  respCtrl : Nat := 0
  resp : List Byte := []
  queue : List (Nat × List Byte) := []
  deriving DecidableEq, Repr

/-- A lease of the witness service (R478 to R480). -/
structure Lease where
  kind : Nat
  ident : Nat
  holder : Nat
  term : Nat
  since : Nat
  live : Bool
  deriving DecidableEq, Repr

/-- A claim the witness holds pending (R479). -/
structure PendingClaim where
  source : Nat
  tagId : Nat
  kind : Nat
  ident : Nat
  claimant : Nat
  term : Nat
  since : Nat
  deriving DecidableEq, Repr

/-- A commit whose checks have passed and whose flash write has not finished (R471): its request, and its items in write
order. -/
structure FlashCommit where
  msg : Msg
  by_ : Session
  items : List (Nat × Nat)
  deriving DecidableEq, Repr

structure MgmtBlk where
  sessions : List Session := []
  nextSession : Nat := 1
  attempts : List AuthAttempt := []
  /-- (source, time) of failed attempts -/
  failures : List (Nat × Nat) := []
  /-- locked-out sources and since when -/
  lockouts : List (Nat × Nat) := []
  /-- messages received whole and not yet handled, oldest first -/
  inbox : List Msg := []
  assembling : List Assembly := []
  mailboxes : Vector Mailbox 32 := Vector.replicate 32 {}
  /-- own bus count, lower half, since start (R468) -/
  busCount : Nat := 0
  /-- highest bus count accepted from each node -/
  busSeen : Tbl Nat := []
  /-- when each node's last tagged heartbeat came, and what it said -/
  heard : Tbl (Nat × Nat) := []
  heartbeatAt : Nat := 0
  canOff : Bool := false
  leases : List Lease := []
  claims : List PendingClaim := []
  witnessSince : Nat := 0
  witnessOpen : Bool := false
  inFlash : Option FlashCommit := none
  /-- object writes held by the hitless pause, oldest first: session, index, sub-index, value (R442) -/
  heldWrites : List (Nat × Nat × Nat × Nat) := []
  /-- claim tables: (resource key, holder object) -/
  claimed : Tbl Nat := []
  deriving DecidableEq, Repr

/-! ### Vault (chapter 19) -/

structure VaultBlk where
  entropyOk : Bool := true
  beamKey : Option (List Byte) := none
  zeroised : Bool := false
  /-- VAULT_WRAP_EPOCH 0x7F22 -/
  wrapEpoch : Nat := 1
  /-- KEY objects in the vault: object → 32 bytes as a number -/
  secrets : Tbl Nat := []
  /-- DEBUG_STATE 0x7F02 -/
  debugOpen : Bool := false
  debugNonce : Nat := 0
  /-- DEBUG_TRIES 0x7F06, keeper domain -/
  debugTries : Nat := 0
  /-- IDE streams: stream key → (key set bytes) ; see the warp block for what a stream is -/
  ide : Tbl (List Byte) := []
  /-- the scan instruction in force: TAP register -/
  tap : TapInstr := .idcode
  deriving DecidableEq, Repr

/-! ### What leaves the module -/

/-- An item the module hands to a wire, a pin or a host, in order: the model's own record of its outputs (log entry 5). -/
inductive Emit where
  /-- a CAN FD frame: 29-bit identifier, data bytes (R465, R466) -/
  | can (ident : Nat) (bytes : List Byte)
  /-- the status of an object write of a session (R462) -/
  | status (sess index sub code : Nat)
  /-- an MSI-X vector of a function of a partition: 0 the management function, 1 + i instance i, 4096 the dobby function -/
  | msi (vs fn vector : Nat)
  /-- a TLP leaves a warp port -/
  | tlp (port : Nat) (t : Tlp)
  /-- a block leaves a weft lane: the tap weights of its equaliser in hundredths (R64), and its 65 levels in base 4, the first
  lowest (R53) -/
  | block (lane : Nat) (taps : List Int) (levels : Nat)
  /-- a link-level row is handed to the trained lanes of a weft port (R95): its blocks follow -/
  | row (port : Nat) (payload : Nat)
  /-- a flit is handed to the data rows of a weft port (R76, R79): the blocks of each row that it fills follow -/
  | flit (port : Nat) (bytes : List Byte)
  /-- a Pravan operation leaves a weft port, in the flits that follow (R186) -/
  | oper (port : Nat) (op : WireOp)
  /-- an operation of the module to itself is delivered -/
  | data (port : Nat) (bytes : List Byte)
  /-- a beat of a VME cycle starts: address, AM code, write, width (R386), and what a write puts on the lines: D31 to D0 in the
  lower half, A31 to A1 and LWORD in the upper (R383) -/
  | vme (addr am : Nat) (write : Bool) (width : Nat) (lines : Nat)
  /-- an answer to a VME master: DTACK with the lines of each beat of a read, or BERR -/
  | vmeAnswer (berr : Bool) (lines : List Nat)
  /-- an IACK cycle on a level, the STATUS/ID answer to one, or IACKOUT -/
  | iack (level : Nat)
  | statusId (level id : Nat)
  | iackOut (level : Nat)
  /-- a pulse or level on a pin the chapter names: 1 FT_PPS_OUT, 2 SYSRESET, 3 PERST to a slot -/
  | pin (which place : Nat) (level : Bool)
  /-- an I²C write to an expander: outputs, or its polarity (0) or direction (1) registers -/
  | i2c (expander : Nat) (value : Nat)
  | i2cSetup (expander register : Nat) (value : Nat)
  /-- hot reset on a downstream warp link (R125, R128) -/
  | hotReset (port : Nat)
  /-- a value shifted out of the test access port -/
  | tdo (bits_ : Nat)
  deriving DecidableEq, Repr

/-! ### Lanes and the reed (chapter 3) -/

/-- LANE_STATE (0x3010, 0x3011). -/
inductive LaneSt where
  | off | idle | hunting | locked | aligned | failed
  deriving DecidableEq, Repr

/-- What a 130-bit block is to the receiver (R54 to R56): data, a link-level control block that goes in rows, an ALIGN, or a
block that takes part in no row (a TS1 or TS2, an undefined lane-level block). -/
inductive RxKind where
  | data | control | align | other
  deriving DecidableEq, Repr

/-- A block on its way into a row: its kind, its payload descrambled, and when it came. -/
structure RxBlock where
  kind : RxKind
  payload : Nat
  cameAt : Nat
  deriving DecidableEq, Repr

structure LaneState where
  st : LaneSt := .off
  /-- the candidate block boundary, and consecutive valid headers at it (R57) -/
  candidate : Nat := 0
  valid : Nat := 0
  /-- validity of the last 64 headers, newest first -/
  history : List Bool := []
  huntSince : Nat := 0
  /-- LANE_POL_SEEN 0x3014 -/
  polSeen : Nat := 0
  /-- the level sent last, and the last 58 bits sent scrambled, newest lowest (R53, R55) -/
  txLevel : Nat := 0
  txScr : Nat := 0
  /-- the level received last, and the last 58 scrambled bits received -/
  rxLevel : Nat := 0
  rxScr : Nat := 0
  /-- the coefficients of the receive equalisers: the free draw they last adapted to (R64) -/
  coef : Nat := 0
  /-- lane-level control blocks of an undefined type (R56) -/
  unknown : Nat := 0
  /-- ALIGN images received and not yet used, oldest first -/
  aligns : List Nat := []
  /-- the block position since the last ALIGN on the line, and when that ALIGN came (R59, R60) -/
  pos : Nat := 0
  lineAlignAt : Nat := 0
  /-- deskew: blocks to drop before this lane joins the rows, and the blocks that wait for their row, oldest first -/
  skip : Nat := 0
  fifo : List RxBlock := []
  polChecked : Bool := false
  /-- LANE_NUM and PORT_WIDTH of the last valid ALIGN, and when it came -/
  seenNum : Option Nat := none
  seenWidth : Nat := 0
  alignAt : Nat := 0
  deriving DecidableEq, Repr

/-- A margining run (R67). -/
structure MarginRun where
  lane : Nat
  axis : Nat
  limit : Nat
  positive : Bool
  step : Nat
  since : Nat
  deriving DecidableEq, Repr

/-- One direction of a port's crossing between the physical-coding clock and the loom's handshake (R30, R31): the bytes in
each of its up to 16 entries, oldest first; the write and the read pointer, Gray codes modulo 32; and the two synchroniser
stages of each pointer on the far side. -/
structure EdgeFifo where
  entries : List Nat := []
  wr : Nat := 0
  rd : Nat := 0
  wrStage1 : Nat := 0
  wrStage2 : Nat := 0
  rdStage1 : Nat := 0
  rdStage2 : Nat := 0
  deriving DecidableEq, Repr

structure LanesBlk where
  lane : Vector LaneState 256 := Vector.replicate 256 {}
  /-- the edge FIFOs, by port times 2, plus 1 for the direction out of the module -/
  edge : Vector EdgeFifo 256 := Vector.replicate 256 {}
  /-- reference clocks lost, a bit each, and when each was lost -/
  refLost : Nat := 0
  refLostAt : Tbl Nat := []
  /-- a freeze of adaptation: asked by the installer, since when (R65) -/
  frozen : Option (Bool × Nat) := none
  /-- lanes of these ports have left the freeze (R106) -/
  thawed : List Nat := []
  freezeEnd : Option Nat := none
  freezeHeld : Option Bool := none
  run : Option MarginRun := none
  /-- MARGIN_STATUS, MARGIN_NEG, MARGIN_POS 0x3020:05-07 -/
  marginStatus : Nat := 0
  marginNeg : Nat := 0
  marginPos : Nat := 0
  deriving DecidableEq, Repr

/-! ### Weft and twin ports (chapter 4) -/

/-- WEFT_LINK_STATE (0x3201). -/
inductive LinkSt where
  | down | training | aligned | active | retrain | failed
  deriving DecidableEq, Repr

/-- A payload flit kept for replay (R84). -/
structure SentFlit where
  seq : Nat
  slotMap : Nat
  slots : List Byte
  opAbort : Bool
  sentAt : Nat
  deriving DecidableEq, Repr

/-- An operation on its way out of a port: traffic class, slots left, whether its first slot has gone, and an abort. -/
structure OutOp where
  tc : Nat
  slots : Nat
  left : List Byte
  started : Bool := false
  abort : Bool := false
  /-- relayed by cut-through: the ingress port, and whether its last slot has come (R177) -/
  relay : Option Nat := none
  whole : Bool := true
  deriving DecidableEq, Repr

/-- What the rows of a port have brought, in the order of the line: a link-level row that passed its test, or a flit. -/
inductive RxItem where
  | row (payload : Nat)
  | flit (bytes : List Byte)
  deriving DecidableEq, Repr

structure WeftPort where
  link : LinkSt := .down
  since : Nat := 0
  /-- since when the transmitters are in electrical idle -/
  idleSince : Nat := 0
  /-- WEFT_RATE_NOW 0x3202, PORT_WIDTH_NOW 0x3006, trained lanes -/
  rate : Nat := 0
  width : Nat := 0
  lanes : Nat := 0
  /-- WEFT_TRAIN_FAILS 0x320A, WEFT_LAST_CAUSE 0x320B, WEFT_PEER 0x3208, WEFT_ACK_RTT_NS 0x3209 -/
  fails : Nat := 0
  lastCause : Nat := 0
  peer : Nat := 0
  /-- acknowledgement round trips measured: when, and ns, of the last 1 ms -/
  rtts : List (Nat × Nat) := []
  /-- training (R101, R102) -/
  trainRate : Nat := 1
  phaseSince : Nat := 0
  nonce : Nat := 0
  peerNonce : Option Nat := none
  peer212 : Bool := true
  /-- by lane: the last TS payload without LANE_NUM and CHECK, and how many in a row -/
  ts1Seen : Tbl (Nat × Nat) := []
  ts2Seen : Tbl (Nat × Nat) := []
  peerMask : Nat := 0
  orderTold : Bool := false
  /-- chosen lanes in own numbering, in the leader's numbering, width and rate, once TS2 is sent -/
  chosen : Option (Nat × Nat × Nat × Nat) := none
  ts2Sent : Nat := 0
  agreed : Bool := false
  /-- classes whose CREDIT_INIT has come, and the exchange of FLIT_START -/
  creditSeen : Nat := 0
  creditSent : Nat := 0
  startSent : Bool := false
  startSeen : Bool := false
  /-- credits as sender: advertised, returned and consumed, header then data, by class -/
  advH : Tbl Nat := []
  advD : Tbl Nat := []
  retH : Tbl Nat := []
  retD : Tbl Nat := []
  useH : Tbl Nat := []
  useD : Tbl Nat := []
  /-- credits as receiver: cumulative returns and arrivals by class -/
  giveH : Tbl Nat := []
  giveD : Tbl Nat := []
  gotH : Tbl Nat := []
  gotD : Tbl Nat := []
  crTc : Nat := 0
  /-- transmitter -/
  nextSeq : Nat := 0
  buffer : List SentFlit := []
  resend : List SentFlit := []
  headReplays : Nat := 0
  headRetrained : Bool := false
  lastNakRound : Option Bool := none
  timer : Option Nat := none
  out : List OutOp := []
  /-- receiver -/
  waitReplay : Bool := false
  nak : Bool := false
  nakRound : Bool := false
  expect : Nat := 0
  countC : Nat := 0
  opening : List Byte := []
  openSlots : Nat := 0
  /-- the operation under reception is relayed by cut-through: its egress and its chain (R177) -/
  relayTo : Option (Nat × Nat) := none
  /-- RETRAIN: cause, and since when RETRAIN_REQ rows are sent -/
  retrainSince : Nat := 0
  reqSince : Option Nat := none
  /-- since when the transmitter sends blocks at its rate, and the ALIGN rows it has sent since (R59) -/
  lineSince : Nat := 0
  alignPos : Nat := 0
  /-- flit bytes that do not fill a row yet (R76) -/
  txRow : List Byte := []
  /-- rows are formed over the trained lanes; the flit bytes gathered since a FLIT_START, none before one (R76, R77) -/
  rowing : Bool := false
  gathered : Option (List Byte) := none
  /-- rows and flits received and not yet handled, and TS1 and TS2 blocks with their lane numbers, oldest first -/
  rx : List RxItem := []
  ts : List (Nat × Nat) := []
  /-- clock compensation (R51, R61): the peer's clock behind the own one since the last compensation, in 1/10625 ns; when the
  last ALIGN row came; ALIGN rows deleted and repeated; and the rows handed on -/
  drift : Int := 0
  rowAlignAt : Option Nat := none
  deleted : Nat := 0
  repeated : Nat := 0
  rowsOut : Nat := 0
  deriving DecidableEq, Repr

/-- An operation that a flit has completed and the loom has not yet taken. -/
structure Arrival where
  port : Nat
  tc : Nat
  bytes : List Byte
  /-- ended by OP_ABORT (R75) -/
  aborted : Bool := false
  /-- relayed by cut-through: its egress and its chain -/
  relay : Option (Nat × Nat) := none
  deriving DecidableEq, Repr

structure WeftBlk where
  port : Vector WeftPort 128 := Vector.replicate 128 {}
  arrived : List Arrival := []
  /-- cut-through relays that their ingress has broken off: egress, ingress and chain (R178) -/
  broken : List (Nat × Nat × Nat) := []
  /-- ports that have just gone down, for the blocks above to act on -/
  downed : List Nat := []
  /-- ports that have just entered ACTIVE -/
  risen : List Nat := []
  /-- errors that the selvedge has still to classify: port and cause of R343 -/
  errs : List (Nat × Nat) := []
  deriving DecidableEq, Repr

/-! ### Requests and where their answers go -/

/-- The path a completion takes back to its requester (R122). -/
inductive Ret where
  /-- no answer is due -/
  | none
  /-- a warp port of this module, on the local path -/
  | port (p : Nat)
  /-- the reverse connection: CID, request sequence number, request tag -/
  | shuttle (cid seq tag : Nat)
  /-- the dobby's inbound cycle -/
  | dobby
  /-- a descriptor's local read or write: the engine's own request number -/
  | engine (req : Nat)
  /-- an imported partition's tunnel: partition -/
  | tunnel (vs : Nat)
  /-- the partition that asked has been reset since: the completion is discarded and counted (R126) -/
  | gone (vs : Nat)
  deriving DecidableEq, Repr

/-- Who asks: requester class (R323), source MID, partition, requester ID and SRC_KIND (0 warp requester, 1 dobby,
2 window-engine function), and the way back. `window` is the window the request came through. -/
structure Origin where
  cls : Nat := 0
  mid : Nat := 0
  vs : Nat := 0
  rid : Nat := 0
  kind : Nat := 0
  outside : Bool := false
  ret : Ret := .none
  window : Option Nat := none
  deriving DecidableEq, Repr

/-! ### Warp ports, partitions and hot-plug (chapter 5) -/

/-- WARP_LINK_STATE (0x3103). -/
inductive WarpSt where
  | down | training | active | surprise | dpc
  deriving DecidableEq, Repr

/-- A proxy table entry (R124). -/
structure ProxyEntry where
  mid : Nat
  vs : Nat
  rid : Nat
  kind : Nat
  outstanding : Nat := 0
  deriving DecidableEq, Repr

/-- A non-posted request a port has sent or holds, until its completion (R128, R132). -/
structure OutReq where
  rid : Nat
  tag : Nat
  t : Tlp
  origin : Origin
  reservation : Nat := 0
  since : Nat := 0
  got : Nat := 0
  deriving DecidableEq, Repr

structure WarpPort where
  st : WarpSt := .down
  /-- PORT_WIDTH_NOW, WARP_RATE_NOW 0x3104, WARP_FLIT_MODE 0x3105, WARP_DOWN_CAUSE 0x3108 -/
  width : Nat := 0
  rate : Nat := 0
  flit : Bool := false
  downCause : Nat := 0
  /-- the link is held down by software: Secondary Bus Reset, Link Disable or slot power-off (R128) -/
  softDown : Bool := false
  /-- counts since the last report of the surprise state, and when that was (R132) -/
  synthesized : Nat := 0
  dropped : Nat := 0
  reportAt : Nat := 0
  /-- DPC governs the port: its Completion Control answers Unsupported Request -/
  dpcUr : Bool := false
  /-- R131 holds under DPC -/
  surpriseUnder : Bool := false
  /-- containment under R348: cause and start -/
  contained : Option (Nat × Nat) := none
  proxies : Tbl ProxyEntry := []
  /-- the wiring that training has found: lanes in reverse order, inverted lanes; the rate whose equalisation is complete (R63) -/
  reversed : Bool := false
  inverted : Nat := 0
  equalised : Nat := 0
  /-- DPC Trigger Reason (R134) -/
  dpcReason : Nat := 0
  /-- flow control as a receiver, by 4 times the virtual channel plus 0 PH, 1 PD, 2 NPH, 3 NPD: the credits advertised when
  the link trained (R153), and those given back since as space was released (R151) -/
  adv : Tbl Nat := []
  freed : Tbl Nat := []
  /-- the upstream function this module presents for a partition of another module, by dword (R117) -/
  upCfg : Tbl Nat := []
  /-- that partition is ready: its owner has said so over the tunnel (R127) -/
  upReady : Bool := false
  reqs : List OutReq := []
  deriving DecidableEq, Repr

structure Partition where
  /-- VS_STATE 0x3303 of an enabled partition: 1 in reset, 2 active, 3 isolated -/
  st : Nat := 1
  /-- a partition reset under way: since the last cause -/
  resetSince : Option Nat := none
  /-- the reset has ended; the partition is not ready yet -/
  endedAt : Option Nat := none
  /-- PERST_N[n] asserted -/
  perst : Bool := false
  /-- completions discarded for the reset partition (R126) -/
  discarded : Nat := 0
  /-- multicast groups the host has enabled, a bit each -/
  groups : Nat := 0
  /-- configuration registers by (function number times 1024 + dword); functions: d the d-th downstream bridge, 240 the
  upstream function, 241 the proxy bridge, 242 the management function, 243 the dobby function -/
  config : Tbl Nat := []
  /-- PTM (R139): the host's time, and when it was that; a request to the host awaits its response -/
  ptm : Option (Nat × Nat) := none
  ptmAsked : Bool := false
  /-- the copy in the table shadow of the beam is unreadable; a reload runs since (R352) -/
  reloading : Option Nat := none
  /-- SEL_ISOLATE_CAUSE 0x5107, SEL_VS_ERRORS 0x5108 -/
  isolateCause : Nat := 0
  /-- isolated when the reset under way began (event 0x0906) -/
  wasIsolated : Bool := false
  /-- TLPs that the ingress holds during the reload, with their ports (R352) -/
  held : List (Nat × Tlp) := []
  errors : Nat := 0
  deriving DecidableEq, Repr

/-- A hot-plug slot (R135 to R137). Inputs by bit: 3 PWRFLT_N, 2 MRL_N, 1 ATNBTN_N, 0 PRSNT_N. -/
structure SlotState where
  perstN : Bool := false
  pwren : Bool := false
  attention : Indicator := .off
  power : Indicator := .off
  raw : Nat := 0
  /-- HP_SLOT_INPUTS 0x3124 -/
  inputs : Nat := 0
  /-- since when each raw input has its level -/
  rawSince : Tbl Nat := []
  offAt : Option Nat := none
  onAt : Option Nat := none
  powerFault : Bool := false
  /-- PWRFLT_N has been read low since power was turned on -/
  faultRead : Bool := false
  presenceChanged : Bool := false
  buttonPressed : Bool := false
  commandCompleted : Bool := false
  deriving DecidableEq, Repr

structure ExpanderState where
  fails : Nat := 0
  lastTry : Nat := 0
  silent : Bool := false
  /-- the polarity and direction registers have been written (R135) -/
  setUp : Bool := false
  deriving DecidableEq, Repr

structure WarpBlk where
  port : Vector WarpPort 128 := Vector.replicate 128 {}
  part : Vector Partition 32 := Vector.replicate 32 {}
  slot : Vector SlotState 32 := Vector.replicate 32 {}
  expander : Vector ExpanderState 16 := Vector.replicate 16 {}
  pollAt : Nat := 0
  /-- phase of blinking indicators -/
  blink : Bool := false
  blinkAt : Nat := 0
  /-- error messages that functions have still to send to their hosts: partition (or 32
  + port, for an exported port), function, message code (R341) -/
  errMsgs : List (Nat × Nat × Nat) := []
  /-- terminated selective IDE streams in use: (port, stream) -/
  ideSel : List (Nat × Nat) := []
  deriving DecidableEq, Repr

/-! ### The loom (chapter 6) -/

/-- What an item is. -/
inductive Cargo where
  | tlp (t : Tlp)
  | oper (o : WireOp)
  deriving DecidableEq, Repr

/-- The account a chain is charged to (R151, R157). -/
inductive Account where
  | reserve (src : Nat)
  | shared (src : Nat)
  | ledger
  | readback
  /-- charged to a port's completion reservations (R154) -/
  | completion (port : Nat)
  deriving DecidableEq, Repr

/-- A chain of bobbins (R147, R156). -/
structure Chain where
  size : Nat
  account : Account
  src : Nat
  refs : Nat
  /-- the ledger entry that holds its one ledger reference -/
  ledger : Option Nat := none
  mcast : Bool := false
  /-- flow-control credits still to return for it: at a weft port its number, the class and the slots; at a warp port its
  number, twice the virtual channel plus 1 for a non-posted request, and the data credits -/
  credit : Option (Nat × Nat × Nat) := none
  /-- its promotion has been refused by MCAST_MAX (R182) -/
  held : Bool := false
  residentSince : Nat := 0
  /-- a ledger move under way; abandoned when the acknowledgement comes meanwhile -/
  moving : Bool := false
  abandoned : Bool := false
  /-- the units of the ledger region that the move writes -/
  units : List Nat := []
  deriving DecidableEq, Repr

/-- Where an item's data is. -/
inductive Place where
  | resident
  | spilling
  | spilled
  | reading
  deriving DecidableEq, Repr

/-- An item in a queue. `kind` is 0 posted, 1 non-posted, 2 completion, 3 control (R149); `stamp` is its arrival, for
ageing of a local item; `epoch` the heddle epoch it was checked under. -/
structure LoomItem where
  id : Nat
  chain : Nat
  src : Nat
  tc : Nat
  kind : Nat
  ord : Nat := 0
  bytes : Nat
  cargo : Cargo
  origin : Origin := {}
  stamp : Nat := 0
  epoch : Nat := 0
  mark : Bool := false
  place : Place := .resident
  mcast : Bool := false
  /-- the ledger entry whose plaintext operation this is, encrypted as it leaves, and its context -/
  own : Option (Nat × Nat) := none
  /-- a copy out of the ledger region of the beam, which this ledger entry's place there holds (R159) -/
  copyOf : Option Nat := none
  /-- an operation that this weft port still receives, considered for cut-through (R177) -/
  relay : Option Nat := none
  /-- it has waited for a completion reservation -/
  waited : Bool := false
  deriving DecidableEq, Repr

structure LoomBlk where
  queue : Vector (List LoomItem) 130 := Vector.replicate 130 []
  chains : Tbl Chain := []
  nextId : Nat := 0
  nextChain : Nat := 0
  /-- completion reservations held, bobbins (R154) -/
  compHeld : Nat := 0
  /-- SHARED_FREE_MIN 0x4005 -/
  freeMin : Option Nat := none
  /-- SPILL_ACTIVE 0x4020:06 -/
  spillActive : Bool := false
  /-- queues that have told their spill limit -/
  spillTold : List Nat := []
  /-- the 256-byte units in use of the spill region by item, and of the ledger region by ledger entry, each list in the order of
  its bytes (R162) -/
  spillAt : Tbl (List Nat) := []
  beamLedger : Tbl (List Nat) := []
  /-- readbacks under way, oldest first: chain, destination and item (R156, R167) -/
  reads : List (Nat × Nat × Nat) := []
  /-- when the ledger moves and spill writes handed to the beam are done, in bytes it can take since power-up (R164) -/
  writesUntil : Nat := 0
  /-- stacks that report an uncorrectable fault, a bit each -/
  badStacks : Nat := 0
  /-- deficits of weighted classes: destination times 8 + class -/
  deficit : Tbl Nat := []
  turn : Tbl Nat := []
  /-- since when a chain waits in its reservation that the shared pool has no room for (R182) -/
  stuckSince : Option Nat := none
  exhausted : Bool := false
  sweepAt : Nat := 0
  deriving DecidableEq, Repr

/-! ### Fabric mode (chapter 7) -/

/-- A route entry (R202). -/
structure RouteEntry where
  valid : Bool := false
  hops : Nat := 0
  isLocal : Bool := false
  ports : List Nat := []
  deriving DecidableEq, Repr

/-- The last probe of a peer on a port (R193): own fabric time and clock of its arrival, and what it said. -/
structure Probe where
  t4 : Nat
  since : Nat
  tTx : Nat
  echo1 : Nat
  echo2 : Nat
  fabricId : Nat
  term : Nat
  master : Option Nat
  gport : Nat
  gportValid : Bool
  fenced : Bool
  candPos : Nat
  role : Nat
  deriving DecidableEq, Repr

/-- The last beacon of the current term on a port (R194). -/
structure BeaconSeen where
  since : Nat
  term : Nat
  hops : Nat
  aliveCand : Nat
  ppsLocked : Bool
  witnessOk : Bool
  masterMid : Nat
  deriving DecidableEq, Repr

/-- A FABRIC_CTL message (R195). `peer` is the MID it came from on a management connection; `port` the ingress port of a
directed one. -/
structure CtlMsg where
  code : Nat
  response : Bool := false
  directed : Bool := false
  reqId : Nat := 0
  term : Nat := 0
  status : Nat := 0
  data : List Byte := []
  peer : Nat := 65535
  port : Nat := 128
  deriving DecidableEq, Repr

/-- One port of a NEIGHBOURS listing (R197). -/
structure Neighbour where
  port : Nat
  link : Nat
  width : Nat
  rate : Nat
  peer : Nat
  delay : Nat
  /-- the port has joined path sets at its module (R198, R207) -/
  joined : Bool := false
  deriving DecidableEq, Repr

/-- What the master knows of an admitted module (R199, R201, R205), by MID. -/
structure Member where
  level : Nat := 0
  path : List Nat := []
  heardAt : Nat := 0
  state : Nat := 0
  links : List Neighbour := []
  deriving DecidableEq, Repr

/-- A request the master waits to see answered. -/
structure CtlReq where
  reqId : Nat
  code : Nat
  path : List Nat
  mid : Option Nat
  sentAt : Nat
  deriving DecidableEq, Repr

/-- A partition admitted with an imported upstream port (R210): partition, global port, and the CIDs of the pair. -/
structure AdmittedVs where
  pgid : Nat
  gport : Nat
  cidA : Nat
  cidB : Nat
  deriving DecidableEq, Repr

structure FabBlk where
  /-- FABRIC_ROLE 0x4100:03, MASTER_MID, MASTER_TERM, MEMBER_COUNT -/
  role : Nat := 0
  /-- the highest mastership term heard of (R193, R225) -/
  high : Nat := 0
  master : Option Nat := none
  term : Nat := 0
  memberCount : Nat := 0
  /-- HASH_ROTATE 0x4103:01 and the one written with the standby bank -/
  rotate : Nat := 0
  standbyRotate : Nat := 0
  /-- route banks, by MID, and the MIDs of the standby bank that ROUTE_WRITE has written (R202, R206) -/
  active : Tbl RouteEntry := []
  standby : Tbl RouteEntry := []
  written : List Nat := []
  /-- ROUTE_EPOCH 0x4104:03; the switch due: epoch, time, members -/
  epoch : Nat := 0
  switch : Option (Nat × Nat × Nat) := none
  /-- the BANK_SWITCH that is answered at its time -/
  switchMsg : Option CtlMsg := none
  /-- MIDs the master wrote valid in the active and in the standby bank (R240) -/
  admitted : List Nat := []
  nextAdmitted : List Nat := []
  /-- ports local repair holds out of the path sets, and ports that have joined them (R207, R198) -/
  repaired : List Nat := []
  joined : List Nat := []
  /-- an adopted MID treated as own (R372) -/
  adoptedMid : Option Nat := none
  /-- the first bank has been switched in, or the member has settled unadmitted (R200) -/
  settled : Bool := false
  firstActive : Option Nat := none
  probesSent : Tbl Nat := []
  probes : Tbl Probe := []
  probeAt : Tbl Nat := []
  beacons : Tbl BeaconSeen := []
  beaconSeq : Nat := 0
  beaconAt : Option Nat := none
  beaconSentAt : Nat := 0
  timeParent : Option Nat := none
  /-- FT_OFFSET_NS, FT_LOCKED, FT_LINK_DELAY_NS 0x2111, steering in ppm, runs of beacons in and out of tolerance -/
  offset : Int := 0
  locked : Bool := false
  delay : Tbl Nat := []
  steer : Int := 0
  inTol : Nat := 0
  outTol : Nat := 0
  /-- a step is allowed at the next beacon: first join, leaving FENCED, or a merge (R216) -/
  mayStep : Bool := true
  /-- the SENIOR's TERM last followed outside fabric mode (R362) -/
  followed : Option Nat := none
  ppsLocked : Bool := false
  ppsHigh : Option Nat := none
  /-- probes and beacons from the ports, and FABRIC_CTL messages, that the treadle has not yet handled -/
  inbox : List (Nat × WireOp) := []
  ctl : List CtlMsg := []
  /-- the way back to the master of the last directed message -/
  masterPath : List Nat := []
  heartbeatAt : Nat := 0
  /-- at the master -/
  members : Tbl Member := []
  reqs : List CtlReq := []
  nextReq : Nat := 1
  recomputeSince : Option Nat := none
  /-- bonds already reported over 8 ports -/
  bondTold : List Nat := []
  /-- the witness (R218 to R221) -/
  leaseAt : Nat := 0
  leaseOk : Option Nat := none
  leaseWait : Option Nat := none
  witnessOk : Bool := false
  /-- the last renewal of the lease has failed -/
  leaseBad : Bool := false
  splitAt : Option Nat := none
  claimAt : Option Nat := none
  /-- SPLIT_COUNT 0x4106:02 -/
  splitCount : Nat := 0
  fencedReported : List Nat := []
  imported : List AdmittedVs := []
  /-- ALIVE_CAND of the last beacon -/
  alive : Nat := 0
  /-- at the master: fenced modules reported and not yet resynchronised (R224), and MIDs found twice (R199) -/
  toResync : List Nat := []
  /-- at the master: a merge goes on, and every module found is resynchronised (R224) -/
  merging : Bool := false
  /-- at the master: imported partitions that members have named, and those admitted (R210) -/
  wanted : List (Nat × Nat) := []
  granted : List AdmittedVs := []
  /-- imported partitions already named to the master -/
  importsTold : List (Nat × Nat) := []
  /-- at a FENCED module: RESYNC_BEGIN has come (R201, R224) -/
  resyncing : Bool := false
  conflicts : List Nat := []
  /-- at the master: adopted MIDs and their survivors (R372); at any module: the adoption already reported -/
  adoptions : Tbl Nat := []
  adoptTold : Option Nat := none
  deriving DecidableEq, Repr

/-! ### The shuttle (chapter 8) -/

/-- A descriptor in progress: instance, queue, and its number in the queue since the queue was created. -/
structure Ticket where
  inst : Nat
  q : Nat
  n : Nat
  deriving DecidableEq, Repr

/-- An operation presented to the shuttle and not yet accepted (R243). `head` is its 128-bit header with REQ_TAG 0;
`origin` and `tlp` say who asks and with what; `chain` holds it in its source's reservation. -/
structure NewOp where
  cid : Nat
  typ : Nat
  ord : Nat := 0
  acq : Bool := false
  rel : Bool := false
  gen : Nat := 0
  head : Nat := 0
  data : List Byte := []
  srcPort : Nat := 0
  dstPort : Nat := 0
  src : Nat := 128
  chain : Option Nat := none
  origin : Origin := {}
  tlp : Option Tlp := none
  ticket : Option Ticket := none
  /-- offset of the first byte within the descriptor -/
  off : Nat := 0
  /-- the import of an aperture store, which takes a posting-buffer entry -/
  post : Option Nat := none
  /-- instance charged for bandwidth -/
  inst : Option Nat := none
  /-- waits for a ledger entry, a posting-buffer entry or the twin; the event has been written -/
  told : Bool := false
  /-- the last WRITE of a mirror record: the context and sequence number it mirrors; part of a catch-up -/
  mirror : Option (Nat × Nat) := none
  catchUp : Bool := false
  deriving DecidableEq, Repr

/-- A ledger entry (R244) with what the loom's chain and the requester keep for it. -/
structure LedgerEntry where
  cid : Nat
  seq : Nat
  typ : Nat
  timeouts : Nat := 0
  mirrored : Bool := false
  slots : Nat
  chain : Nat
  /-- 0 bobbins, 1 beam, 2 move in progress -/
  place : Nat := 0
  stamp : Nat := 0
  /-- expiry of the timer, on the model's clock -/
  deadline : Nat := 0
  sent : Bool := false
  op : NewOp
  posting : Option Nat := none
  deriving DecidableEq, Repr

/-- A non-posted request of a direction that awaits its completion (R233). -/
structure Asked where
  seq : Nat
  tag : Nat
  origin : Origin
  tlp : Option Tlp
  ticket : Option Ticket
  acq : Bool
  len : Nat
  got : Nat := 0
  off : Nat := 0
  deriving DecidableEq, Repr

/-- Connection states (R231). -/
inductive ConnSt where
  | idle | opening | active | stalled | failed | closing
  deriving DecidableEq, Repr

/-- Keys of an epoch, seen from this end (R258). -/
structure KeySet where
  dataTx : List Byte
  dataRx : List Byte
  ctlTx : List Byte
  ctlRx : List Byte
  deriving DecidableEq, Repr

/-- A CONN_REQ this end waits to see answered (R238). -/
structure Exchange where
  kind : Nat
  epoch : Nat := 0
  nonce : Nat := 0
  firstSeq : Nat := 0
  openTime : Nat := 0
  since : Nat
  sentAt : Nat
  /-- an OPEN answered with STATUS 2 in clear (R260) -/
  noSecret : Bool := false
  /-- a RESET that AUTO_RESUME started, and the OPEN as it was sent -/
  auto : Bool := false
  sentOp : Option WireOp := none
  deriving DecidableEq, Repr

/-- A CONN_RESP this end has sent, to send again (R238). -/
structure Answered where
  kind : Nat
  nonceI : Nat
  status : Nat
  epoch : Nat
  nonceR : Nat
  firstSeq : Nat
  sentOp : Option WireOp := none
  deriving DecidableEq, Repr

/-- An operation for this module that the shuttle has still to take: the chain its arrival holds (R151), none for one that has
never left the module, and the loom's source it came from. -/
structure Inbound where
  op : WireOp
  chain : Option Nat := none
  src : Nat := 128
  deriving DecidableEq, Repr

/-- An operation held in the reorder window (R246), decrypted. -/
structure HeldOp where
  seq : Nat
  op : WireOp
  /-- the chain its arrival holds, and the loom's source it came from -/
  chain : Option Nat := none
  src : Nat := 128
  deriving DecidableEq, Repr

/-- A connection context (R231). -/
structure Conn where
  st : ConnSt := .idle
  peerMid : Nat := 0
  peerCid : Nat := 0
  tc : Nat := 0
  twin : Bool := false
  autoResume : Bool := false
  retryLimit : Nat := 8
  pathOffset : Nat := 0
  consecTo : Nat := 0
  keyEpoch : Nat := 0
  txNext : Nat := 0
  rxE : Nat := 0
  cwnd : Nat := 0
  decSeq : Nat := 0
  failReason : Nat := 0
  ownerKind : Nat := 0
  ownerId : Nat := 0
  failSeq : Nat := 0
  /-- this end opened the connection; the peer's OPEN_TIME that created the context -/
  opener : Bool := false
  openTime : Nat := 0
  nonceI : Nat := 0
  nonceR : Nat := 0
  keys : Option KeySet := none
  /-- keys before the present epoch, with the first sequence numbers of the new ones: sending, receiving (R261) -/
  oldKeys : Option KeySet := none
  firstTx : Nat := 0
  firstRx : Nat := 0
  /-- sequence number and control count at the start of the epoch -/
  epochSeq : Nat := 0
  ctlTx : Nat := 0
  ctlBase : Nat := 0
  /-- control counts accepted under the present and the earlier key: the highest, and those within 64 of it -/
  ctlHigh : Nat := 0
  ctlSeen : List Nat := []
  oldHigh : Nat := 0
  oldSeen : List Nat := []
  exch : Option Exchange := none
  answered : Option Answered := none
  closingAt : Option Nat := none
  closeAnswered : Bool := false
  ownerCloses : Bool := false
  stalledAt : Nat := 0
  /-- receive direction: 1 delivered, 2 refused, by sequence number within the duplicate window -/
  window : Tbl Nat := []
  held : List HeldOp := []
  refusals : List (Nat × Nat) := []
  /-- handled and covered by no acknowledgement: sequence number and envelope, oldest first, and since when the oldest waits -/
  unacked : List (Nat × Nat) := []
  unackedSince : Nat := 0
  ceCount : Nat := 0
  /-- writes of this connection delivered here that are not yet visible (R285) -/
  unseen : Nat := 0
  asked : List Asked := []
  /-- a posted failure since the previous fence completed (R286) -/
  failedSince : Bool := false
  /-- adoption (R372): entries replayed and failed -/
  adopted : Bool := false
  replayed : Nat := 0
  failed : Nat := 0
  /-- fragments of a TUNNEL under reassembly -/
  tunnel : List Byte := []
  deriving DecidableEq, Repr

/-- A write dropped after it was handled, whose LATE_DROP is due (R248): its context, sequence number, window and offset, and
the port parts of its global ports. -/
structure LateDrop where
  cid : Nat
  seq : Nat
  window : Nat
  offset : Nat
  srcPort : Nat
  dstPort : Nat
  deriving DecidableEq, Repr

structure ShuBlk where
  conns : Tbl Conn := []
  ledger : Tbl LedgerEntry := []
  /-- LEDGER_PEAK 0x4205:04 -/
  peak : Nat := 0
  /-- operations presented and not accepted, oldest first -/
  waiting : List NewOp := []
  /-- operations for this module that its shuttle has not yet handled, oldest first -/
  inbox : List Inbound := []
  /-- roster in configuration flash (R241): CID to peer MID, peer CID, owner -/
  roster : Tbl (Nat × Nat × Nat × Nat) := []
  rosterPending : Bool := false
  /-- OPENs refused without an answer (R238), and refusals for want of a secret received (R260) -/
  openRefused : Nat := 0
  secretless : Nat := 0
  /-- CONN_ROSTER_LOST 0x4213 -/
  rosterLost : Nat := 0
  lateDrops : List LateDrop := []
  /-- TLPs of imported partitions reassembled and not yet routed: the context they came on, the loom's source, and the chain of
  the last fragment (R235) -/
  tunnelled : List (Nat × Nat × Option Nat × Tlp) := []
  /-- link keys by port (R263) -/
  linkKeys : Tbl (List Byte) := []
  deriving DecidableEq, Repr

/-! ### Windows and imports (chapter 9) -/

inductive WinSt where
  | free | open_ | revoking | revoked
  deriving DecidableEq, Repr

/-- An entry of a DEVICE window's completion cache (R275). -/
structure CacheEntry where
  mid : Nat
  cid : Nat
  seq : Nat
  tag : Nat
  /-- status and data, once the completion has come -/
  answer : Option (Nat × List Byte) := none
  /-- sequence number of the COMPLETION that carried it -/
  compSeq : Option Nat := none
  deriving DecidableEq, Repr

/-- A window (R267). -/
structure Window where
  st : WinSt := .free
  device : Bool := false
  permR : Bool := false
  permW : Bool := false
  permA : Bool := false
  sizeLog2 : Nat := 0
  gen : Nat := 0
  owner : Nat := 0
  kind : Nat := 0
  port : Nat := 0
  peerAny : Bool := false
  peerPgid : Nat := 0
  devCache : Nat := 0
  admitted : Nat := 0
  quarUntil : Nat := 0
  base : Nat := 0
  revokeAt : Nat := 0
  cache : List CacheEntry := []
  deriving DecidableEq, Repr

/-- An import (R277). -/
structure Import where
  device : Bool := false
  permR : Bool := false
  permW : Bool := false
  permA : Bool := false
  sizeLog2 : Nat := 12
  func : Nat := 0
  cid : Nat := 0
  window : Nat := 0
  gen : Nat := 0
  ord : Nat := 0
  acqLoads : Bool := false
  relStores : Bool := false
  merge : Bool := false
  fwd : Bool := false
  base : Nat := 0
  winBase : Nat := 0
  deriving DecidableEq, Repr

/-- A posting-buffer entry (R281). -/
structure Posting where
  ledger : Nat
  cid : Nat
  seq : Nat
  window : Nat
  offset : Nat
  data : List Byte
  firstBe : Nat
  lastBe : Nat
  imp : Nat
  device : Bool
  rel : Bool
  sent : Bool := false
  deriving DecidableEq, Repr

/-- A write admitted here that has not reached its visibility point (R284): the item that carries it, its window, the
connection context and sequence number it came on. -/
structure Unseen where
  item : Nat
  window : Option Nat
  cid : Nat
  seq : Nat
  dest : Nat := 0
  epoch : Nat := 0
  offset : Nat := 0
  /-- port parts of its SRC_GPORT and DST_GPORT -/
  srcPort : Nat := 0
  dstPort : Nat := 0
  left : Bool := false
  /-- an inbound cycle that waits for it: the write, and the way back (R390) -/
  waiter : Option (Origin × Tlp) := none
  deriving DecidableEq, Repr

/-- A load that waits for overlapping stores (R283). -/
structure HeldLoad where
  imp : Nat
  offset : Nat
  tlp : Tlp
  origin : Origin
  inst : Nat
  /-- the loom's source it entered through -/
  src : Nat := 128
  deriving DecidableEq, Repr

/-- POSTFAIL_LOG (R290). -/
structure FailLog where
  overflow : Nat := 0
  reason : Nat
  func : Nat
  cid : Nat
  mid : Nat
  window : Nat
  offset : Nat
  seq : Nat
  time : Nat
  deriving DecidableEq, Repr

structure WinBlk where
  windows : Tbl Window := []
  imports : Tbl Import := []
  posting : Tbl Posting := []
  /-- POST_PEAK 0x4302:04 -/
  postPeak : Nat := 0
  heldLoads : List HeldLoad := []
  unseen : List Unseen := []
  fails : Tbl FailLog := []
  /-- POSTFAIL_COUNT 0x4313 -/
  failCount : Tbl Nat := []
  deriving DecidableEq, Repr

/-! ### The window engine (chapter 10) -/

/-- An admin command taken from a ring (R303). `reads` is the ring head after it. -/
structure AdmCmd where
  vs : Nat
  op : Nat
  id : Nat
  target : Nat
  arg : Nat
  data : List Byte
  head : Nat
  deriving DecidableEq, Repr

/-- A command that has started and waits on a drain or a peer (R306). `obj` is the CID, window or queue it waits for. -/
structure OpenCmd where
  cmd : AdmCmd
  obj : Nat
  since : Nat
  deriving DecidableEq, Repr

/-- The admin queue registers of a partition (R302). -/
structure AdmBlk where
  base : Nat := 0
  cqBase : Nat := 0
  size : Nat := 0
  enabled : Bool := false
  disabling : Bool := false
  tail : Nat := 0
  head : Nat := 0
  cqTail : Nat := 0
  cqHead : Nat := 0
  phase : Bool := true
  stopped : Bool := false
  /-- NumVFs in force -/
  vfs : Nat := 0
  deriving DecidableEq, Repr

/-- A mapping of the translation unit (R315). -/
structure TuMap where
  iova : Nat
  host : Nat
  size : Nat
  read : Bool
  write : Bool
  deriving DecidableEq, Repr

/-- A descriptor in progress (R310, R311). -/
structure DescState where
  n : Nat
  opcode : Nat
  tag : Nat
  addr : Nat
  len : Nat
  imp : Nat
  intr : Bool
  fenceAfter : Bool
  head : Nat
  /-- local reads awaited, and the data they have returned by offset -/
  reads : Nat := 0
  buffer : Tbl (List Byte) := []
  /-- operations presented and not yet answered -/
  left : Nat := 0
  /-- the operand and flags that its operations still to present need -/
  offset : Nat := 0
  rel : Bool := false
  acq : Bool := false
  atom : Nat := 0
  opA : Nat := 0
  opB : Nat := 0
  fenceBefore : Bool := false
  /-- its operations have been presented -/
  presented : Bool := false
  bytesDone : Nat := 0
  /-- conditions of R311 met, as (status, detail) -/
  conds : List (Nat × Nat) := []
  deriving DecidableEq, Repr

/-- A descriptor queue pair (R308). -/
structure Queue where
  sqBase : Nat
  cqBase : Nat
  sqLog : Nat
  cqLog : Nat
  vector : Nat
  tail : Nat := 0
  head : Nat := 0
  cqTail : Nat := 0
  cqHead : Nat := 0
  phase : Bool := true
  stopped : Bool := false
  deleting : Bool := false
  count : Nat := 0
  work : List DescState := []
  deriving DecidableEq, Repr

/-- An enabled virtual function (R298). -/
structure InstState where
  vs : Nat
  vf : Nat
  mapped : Bool := false
  maps : List TuMap := []
  queues : Tbl Queue := []
  /-- QUEUE_ERROR -/
  errors : Nat := 0
  fences : Tbl Nat := []
  request : List Byte := List.replicate 64 0
  reply : List Byte := List.replicate 64 0
  msgState : Nat := 0
  /-- an FLR under way, and operations accepted before it that have drained -/
  flr : Option Nat := none
  drained : Nat := 0
  /-- VF Enable has been cleared: the instance is freed when it issues nothing more -/
  ending : Bool := false
  /-- instance shares 1, 3, 4, 5, 6 (R316); none is the partition's -/
  shares : Tbl Nat := []
  /-- bytes the bandwidth bucket holds, and when it was last filled -/
  bucket : Nat := 65536
  bucketAt : Nat := 0
  deriving DecidableEq, Repr

/-- A local read of the engine that awaits its completion (R129). -/
structure EngRead where
  req : Nat
  ticket : Ticket
  off : Nat
  len : Nat
  got : Nat := 0
  iova : Nat
  since : Nat
  deriving DecidableEq, Repr

structure EngBlk where
  /-- Bus Master Enable of each partition's management function, a bit per partition -/
  fnBme : Nat := 0
  /-- MSI-X table entries by (partition, function, vector); an entry not listed is masked -/
  msix : Tbl Nat := []
  msixPending : List Nat := []
  adm : Vector AdmBlk 32 := Vector.replicate 32 {}
  /-- commands taken from the rings, oldest first, and those that wait -/
  cmds : List AdmCmd := []
  waits : List OpenCmd := []
  insts : Tbl InstState := []
  /-- mirror and reply slots, pending bits, by partition * 256 + VF -/
  mirror : Tbl (List Byte) := []
  replies : Tbl (List Byte) := []
  ringing : List Nat := []
  reads : List EngRead := []
  nextReq : Nat := 0
  /-- answers for the engine not yet taken: request, status, poison, data -/
  answers : List (Nat × Nat × Bool × List Byte) := []
  /-- the partition's bandwidth bucket -/
  buckets : Tbl Nat := []
  bucketAt : Tbl Nat := []
  deriving DecidableEq, Repr

/-! ### Heddles (chapter 11) -/

/-- HED_DENY_LOG (R334). -/
structure DenyLog where
  address : Nat := 0
  time : Nat := 0
  cls : Nat := 0
  kind : Nat := 0
  region : Nat := 0
  sub : Nat := 0
  epoch : Nat := 0
  count : Nat := 0
  deriving DecidableEq, Repr

/-- A denial of an access that a function made inside a step, to be recorded at the end of the step: heddle, class, kind,
denied byte, region and sub-region. -/
structure LateDenial where
  heddle : Nat
  cls : Nat
  kind : Nat
  addr : Nat
  region : Nat
  sub : Nat
  deriving DecidableEq, Repr

structure HedBlk where
  /-- HED_EPOCH 0x5000:01 -/
  epoch : Nat := 1
  /-- HED_COMMIT_STATUS 0x5000:03, HED_COMMIT_DETAIL 0x5000:05 -/
  status : Nat := 0
  detail : Nat := 0
  /-- active regions by heddle times 64 + region, active HED_OWN_PASS by heddle, active fabric class map by entry -/
  active : Tbl Nat := []
  own : Tbl Nat := []
  map : Tbl Nat := []
  changed : List Nat := []
  draining : Bool := false
  drainSince : Nat := 0
  denied : Tbl DenyLog := []
  late : List LateDenial := []
  deriving DecidableEq, Repr

/-! ### Selvedges (chapter 12) -/

/-- SEL_ERR_LOG (R344). -/
structure SelLog where
  overflow : Nat := 0
  cls : Nat
  cause : Nat
  action : Nat
  vs : Option Nat
  time : Nat
  header : Nat
  deriving DecidableEq, Repr

/-- Correctable errors of one selvedge in the running second. -/
structure CorrCount where
  since : Nat := 0
  total : Nat := 0
  byCause : Tbl Nat := []
  told : Bool := false
  deriving DecidableEq, Repr

structure SelBlk where
  log : Tbl SelLog := []
  corr : Tbl CorrCount := []
  deriving DecidableEq, Repr

/-! ### The twin pair (chapter 13) -/

/-- TWIN_STATE (R367). -/
inductive TwinSt where
  | off | joining | protected_ | unprotected | adopting | alone | fenced
  deriving DecidableEq, Repr

/-- A record of the twin's mirror store (R364, R365). -/
structure MirrorEntry where
  cid : Nat
  seq : Nat
  /-- envelope and body in plaintext, as first sent -/
  bytes : List Byte
  chain : Nat
  deriving DecidableEq, Repr

/-- A mirrored connection record: the 40-byte context and the two nonces. -/
structure MirrorConn where
  ctx : List Byte
  nonceI : Nat
  nonceR : Nat
  deriving DecidableEq, Repr

structure TwinBlk where
  st : TwinSt := .off
  store : Tbl MirrorEntry := []
  conns : Tbl MirrorConn := []
  /-- bytes of a record under way, by ordering class -/
  partial0 : List Byte := []
  partial1 : List Byte := []
  /-- WRITE operations with mirror records received, not yet stored: class and data -/
  inbox : List (Nat × List Byte) := []
  /-- releases to report, and since when the oldest waits -/
  releases : List (Nat × Nat) := []
  catching : Bool := false
  caughtUp : Nat := 0
  linksTold : Nat := 0
  heldTold : Bool := false
  /-- TWIN_UNMIRRORED 0x520C -/
  unmirrored : Nat := 0
  /-- bytes mirrored in the running 1 ms, TWIN_MIRROR_GBPS 0x520B, and since when it stands above 95 % -/
  rateBytes : Nat := 0
  rateAt : Nat := 0
  gbps : Nat := 0
  highSince : Option Nat := none
  highTold : Bool := false
  /-- silence detected at; a lease renewal has succeeded since; the twin has said it goes; a claim was granted -/
  silentAt : Option Nat := none
  leaseSince : Bool := false
  gone : Bool := false
  claimWon : Bool := false
  lostMid : Nat := 0
  contextsClosed : Nat := 0
  replaying : Bool := false
  deriving DecidableEq, Repr

/-! ### The dobby (chapter 14) -/

/-- How a VME transaction goes: single, BLT, MBLT, or read-modify-write. -/
inductive VmeMode where
  | single | blt | mblt | rmw
  deriving DecidableEq, Repr

/-- A transaction still to run for an outbound item: VME address, modifier, width of a beat, bytes in ascending order (for a
read, how many), and the offset of its first byte in the item. -/
structure DobStep where
  addr : Nat
  am : Nat
  mode : VmeMode
  width : Nat
  count : Nat
  off : Nat
  deriving DecidableEq, Repr

/-- An item the dobby has taken for the bus, in order (R397). -/
structure DobItem where
  origin : Origin
  tlp : Tlp
  item : Nat
  posted : Bool
  /-- the chain that still holds a write on the hold list -/
  chain : Option Nat := none
  started : Bool := false
  split : Bool := false
  win : Nat := 0
  steps : List DobStep := []
  /-- bytes read, by VME position within the item -/
  got : Tbl (List Byte) := []
  /-- the phase of an atomic -/
  phase : Nat := 0
  /-- when it was taken -/
  since : Nat := 0
  deriving DecidableEq, Repr

/-- A bus cycle in progress as master. -/
structure DobCycle where
  step : DobStep
  write : Bool
  since : Nat
  deriving DecidableEq, Repr

/-- An inbound cycle whose answer is due. -/
structure DobIn where
  cycle : VmeCycle
  win : Nat
  since : Nat
  /-- answers still awaited, and the data they brought by offset -/
  left : Nat
  got : Tbl (List Byte) := []
  /-- number of the cycle, which its requests carry in their tags; the bytes asked for so far; a read-modify-write's write
  phase; held: it waits for room in the inbound write buffer, or, when it is not posted, for the writes
  there -/
  number : Nat := 0
  next : Nat := 0
  writing : Bool := false
  /-- module-side address and length of each request, and whether an answer was an error -/
  asked : Tbl (Nat × Nat) := []
  bad : Bool := false
  held : Bool := false
  deriving DecidableEq, Repr

/-- DOB_BERR_LOG (R401). -/
structure DobLog where
  overflow : Nat := 0
  reason : Nat
  win : Nat
  am : Nat
  pgid : Nat
  addr : Nat
  time : Nat
  deriving DecidableEq, Repr

structure DobBlk where
  /-- posted FIFO, hold list and request list together, in the order taken -/
  items : List DobItem := []
  cycle : Option DobCycle := none
  holdsBus : Bool := false
  /-- the locking partition (R395) -/
  lock : Option Nat := none
  /-- another master's request is pending since -/
  busWanted : Option Nat := none
  inbound : Option DobIn := none
  /-- the inbound write buffer: writes whose DTACK has been given and which the module side has still to take, oldest first
  (R390) -/
  inbuf : List DobIn := []
  sem : Vector Nat 16 := Vector.replicate 16 0
  /-- pending raises, oldest first: level, partition (32 for the dobby itself), status/ID -/
  raises : List (Nat × Nat × Nat) := []
  irqResult : Tbl Nat := []
  /-- handler levels armed, a bit each; the partition that received a level's last interrupt -/
  armed : Nat := 254
  receiver : Tbl Nat := []
  /-- an IACK cycle on a level, since -/
  iack : Option (Nat × Nat) := none
  berr : Tbl DobLog := []
  inBerr : Option DobLog := none
  /-- SYSRESET driven since -/
  sysreset : Option Nat := none
  sysfail : Bool := false
  acfail : Bool := false
  /-- DOB_CONN_RESULT 0x6030:03 -/
  connResult : Nat := 0
  /-- the CID whose command waits -/
  connWait : Option Nat := none
  lateCount : Nat := 0
  /-- number of the next inbound cycle -/
  inNumber : Nat := 0
  /-- a cycle of another master that nothing on this module answers: address modifier, since -/
  stray : Option (Nat × Nat) := none
  deriving DecidableEq, Repr

/-! ### Power feeds (chapter 15) -/

/-- FEED_STATE (0x200C). -/
inductive FeedSt where
  | off | wait | ramp | qualify | good | cooldown | latched | failed | disabled
  deriving DecidableEq, Repr

/-- One feed and its supervisor (R414 to R423). Voltages in mV, currents in mA, times in ns. -/
structure FeedState where
  st : FeedSt := .off
  /-- when the state was entered -/
  since : Nat := 0
  /-- FEED_VOLT_MV 0x2008 -/
  mv : Nat := 0
  /-- FEED_CURR_MA 0x2009 -/
  ma : Nat := 0
  outMv : Nat := 0
  /-- since when the feed is inside the thresholds for leaving WAIT -/
  inSince : Option Nat := none
  /-- since when it is below 1.0 V -/
  lowSince : Option Nat := none
  /-- FEED_TRIPS 0x200A -/
  trips : Nat := 0
  /-- FEED_STATUS fields (R429) -/
  lastTrip : Nat := 0
  gateFail : Bool := false
  shortFail : Bool := false
  reverseFail : Bool := false
  diodeOn : Bool := false
  ilimit : Bool := false
  foldback : Bool := false
  ov : Bool := false
  uv : Bool := false
  /-- the fault timer's start while it runs (TIMER_RUN) -/
  timer : Option Nat := none
  /-- since when the qualification, the 10 s of R420 and the gate-fail count of R421 run -/
  clearSince : Nat := 0
  gateCount : Nat := 0
  /-- the ideal-diode transistor was commanded off at -/
  diodeOffAt : Option Nat := none
  reverses : Nat := 0
  timerEventAt : Option Nat := none
  /-- since when the gate is off -/
  gateOffSince : Nat := 0
  /-- PGOOD_x -/
  pgood : Bool := false
  /-- PGOOD_x has been asserted since the module left OFF (R18) -/
  wasGood : Bool := false
  /-- the ramp time the running ramp was started with, µs (R417, R425) -/
  rampUs : Nat := 1000
  /-- the current limit in force in the hardware, A (R425) -/
  hwLimit : Nat := 60
  deriving DecidableEq, Repr

structure PowerBlk where
  a : FeedState := {}
  b : FeedState := {}
  /-- VKEEP_MV 0x200B:01 -/
  vkeepMv : Nat := 0
  vkeepOk : Bool := false
  /-- VIO_DOB_MV 0x200B:02 -/
  vioMv : Nat := 0
  vioOk : Bool := false
  vioSince : Option Nat := none
  deriving DecidableEq, Repr

/-! ### Governor and thermal loop (chapter 2) -/

structure GovBlk where
  /-- CORE_CAPACITY 0x2100:01 -/
  capacity : Nat := 21714
  /-- VCORE_SET 0x2100:02, mV -/
  vcore : Nat := 550
  /-- STAGE_TIME_PS 0x2100:04 -/
  stagePs : Nat := 0
  /-- GOV_LIMIT 0x2100:06 -/
  limit : Nat := 0
  /-- TJ_HOT 0x2100:07, m°C -/
  tjHot : Int := 0
  /-- LIMIT_FEED_W 0x2100:08 -/
  feedW : Nat := 0
  /-- LIMIT_THERMAL_W 0x2100:09 -/
  thermalW : Nat := 330
  /-- POWER_MEASURED_W 0x2100:0A -/
  powerW : Nat := 0
  /-- a lowering whose VCORE_SET waits for the loom's rescale (R35) -/
  lowering : Option Nat := none
  /-- a raise whose capacity waits for the regulator (R35) -/
  raising : Option Nat := none
  rescaling : Bool := false
  periodAt : Nat := 0
  thermalAt : Nat := 0
  /-- the governor runs -/
  running : Bool := false
  /-- the conditions of R34, R36 and R39, and their times -/
  unmet : Bool := false
  hotSince : Option Nat := none
  /-- the present entry into the row of 150 °C has been treated as module-fatal (R36) -/
  hotTold : Bool := false
  throttling : Bool := false
  belowFloor : Bool := false
  atFloorSince : Option Nat := none
  /-- a commit has set the floor to 0 or to the capacity or below (R39) -/
  floorLowered : Bool := false
  /-- THERM_N asserted -/
  thermN : Bool := false
  deriving DecidableEq, Repr

/-! ### Module state, resets and firmware (chapters 1 and 16) -/

/-- The states of a firmware slot. -/
inductive SlotSt where
  | empty | loading | verified | active | pending
  deriving DecidableEq, Repr

structure FwSlot where
  st : SlotSt := .empty
  /-- the slot's bytes in flash, by offset within the slot -/
  image : Memory := []
  length : Nat := 0
  blocks : List Nat := []
  rejected : Bool := false
  trial : Bool := false
  flashBad : Bool := false
  deriving DecidableEq, Repr

/-- The hitless pause (R442): its phase. -/
inductive Pause where
  | quiesce | save | load | restart
  deriving DecidableEq, Repr

/-- Where a warm reset stands (R434). -/
inductive WarmStep where
  | drain | reset
  deriving DecidableEq, Repr

structure ModBlk where
  state : ModState := .off
  /-- entry into the present state, and the latest entry into KEEPER -/
  since : Nat := 0
  keeperSince : Nat := 0
  /-- BOOT_COUNT 0x1003 -/
  bootCount : Nat := 0
  /-- times of the entries into RECOVERY still counted (R18) -/
  recoveries : List Nat := []
  /-- SEL_FATAL_LAST 0x5109, SEL_RECOVERY_COUNT 0x510A -/
  fatalLast : Nat := 0
  recoveryCount : Nat := 0
  /-- ALERT_N held by a module-fatal error or by the vault's entropy fault in FEEDS_UP -/
  fatalAlert : Bool := false
  /-- warm reset: step, cause of event 0x0C0C, start of the step, a request held, TEST on reaching CONFIG -/
  warm : Option WarmStep := none
  warmCause : Nat := 0
  warmSince : Nat := 0
  warmHeld : Option Nat := none
  toTest : Bool := false
  testScheduled : Bool := false
  /-- a scheduled test entry (R435): fabric time -/
  testAt : Option Nat := none
  /-- operations to drain at the start, and drained and recorded at the end (event 0x0C0D) -/
  drainStart : Nat := 0
  drained : Nat := 0
  recorded : Nat := 0
  reportDrain : Bool := false
  /-- firmware slots A and B -/
  slots : Vector FwSlot 2 := Vector.replicate 2 {}
  /-- FW_RUNNING_SLOT 0x1300:02 -/
  running : Nat := 0
  /-- the failed check that a start after a loss of power gives an image on trial (R444) -/
  bootFailed : Option Nat := none
  /-- the load claim: session, slot, length, whether the erase runs -/
  claim : Option (Nat × Nat × Nat) := none
  /-- FW_LOAD_STATUS 0x1310:07 -/
  loadStatus : Nat := 0
  loadSince : Nat := 0
  verifying : Option Nat := none
  /-- a pending activation: slot, mode, fabric time, session -/
  activation : Option (Nat × Nat × Nat) := none
  pause : Option Pause := none
  pauseSlot : Nat := 0
  pauseSince : Nat := 0
  isRollback : Bool := false
  /-- FW_LAST_PAUSE_US 0x1320:06 -/
  lastPauseUs : Nat := 0
  /-- end of the trial -/
  trialSince : Option Nat := none
  prevSlot : Nat := 0
  watchdogAt : Nat := 0
  /-- stored configuration could not be committed; the module waits in CONFIG -/
  refused : Bool := false
  /-- the boot ROM has started an image, which has not yet reached CONFIG -/
  started : Bool := false
  /-- the cause of a module-fatal error that event 0x0909 has still to report (R353) -/
  recovered : Option Nat := none
  /-- a commit lost in flash, whose journal entry of KIND 4 is due (R473) -/
  commitGone : Option FlashCommit := none
  deriving DecidableEq, Repr

/-! ### The whole machine -/

/-- The state of the module and of the host memories it reaches. -/
structure State where
  /-- commands waiting, first in first out -/
  pending : List Instr := []
  /-- the model's clock, ns (log entry 2) -/
  now : Nat := 0
  /-- FT_NOW 0x2110:01 -/
  ft : Nat := 0
  /-- values drawn so far from the entropy source, and free draws of the model -/
  drawn : Nat := 0
  freeDraws : Nat := 0
  /-- values of objects in force, and in configuration flash, where they differ from the default -/
  cfg : Tbl Nat := []
  flash : Tbl Nat := []
  module : ModBlk := {}
  power : PowerBlk := {}
  gov : GovBlk := {}
  lanes : LanesBlk := {}
  weft : WeftBlk := {}
  warp : WarpBlk := {}
  loom : LoomBlk := {}
  fab : FabBlk := {}
  shu : ShuBlk := {}
  win : WinBlk := {}
  eng : EngBlk := {}
  hed : HedBlk := {}
  sel : SelBlk := {}
  twin : TwinBlk := {}
  dob : DobBlk := {}
  mgmt : MgmtBlk := {}
  vault : VaultBlk := {}
  obs : ObsBlk := {}
  /-- the memory of the host of each partition -/
  host : Vector Memory 32 := Vector.replicate 32 []
  /-- the bolt region of the beam (R528) -/
  beam : Memory := []
  /-- what has left the module, oldest first -/
  tx : List Emit := []
  deriving DecidableEq, Repr

/-- The machine right after reset: no supply has risen, no command waits, every field at its reset value. -/
def State.reset : State := {}

end Sys2Proof.Machine
end

