-- ==== Sys2Proof/Machine/Ops.lean ====
section
/-!
DEFINITION. The operations every block shares: values of objects in force, draws from the vault's generator, counters,
event records and the spool's rings, the change journal, host memory and vectors, and the change of module state.
-/

namespace Sys2Proof.Machine

/-! ### Times, in ns -/

def us : Nat := 1000
def ms : Nat := 1000000
def sec : Nat := 1000000000

/-- At least `d` ns have passed since `t`. -/
def elapsed (s : State) (t d : Nat) : Bool := t + d ≤ s.now

/-- At least `d` ns have passed since the time `t` holds. -/
def elapsedOpt (s : State) (t : Option Nat) (d : Nat) : Bool :=
  match t with
  | some t => t + d ≤ s.now
  | none => false

/-! ### Objects -/

/-- The value of an object in force (R451). -/
def cfgv (s : State) (index sub : Nat) : Nat := Tbl.get s.cfg (key index sub) (objDefault index sub)

/-- The stored value of an object. -/
def flashv (s : State) (index sub : Nat) : Nat := Tbl.get s.flash (key index sub) (objDefault index sub)

def setCfg (s : State) (k v : Nat) : State := { s with cfg := Tbl.set s.cfg k v }
def setFlash (s : State) (k v : Nat) : State := { s with flash := Tbl.set s.flash k v }

/-- A BOOL object in force. -/
def cfgOn (s : State) (index sub : Nat) : Bool := cfgv s index sub = 1

/-! ### Ports and partitions -/

def personality (s : State) (p : Nat) : Nat := cfgv s 0x3003 (p + 1)
def isWarp (s : State) (p : Nat) : Bool := personality s p = 1
/-- The partition of a port (0x3101). -/
def portPart (s : State) (p : Nat) : Option Nat :=
  if cfgv s 0x3101 (p + 1) < 32 then some (cfgv s 0x3101 (p + 1)) else none

/-- The local upstream port of a partition. -/
def upPort (s : State) (v : Nat) : Option Nat :=
  if bit (cfgv s 0x3302 (v + 1)) 31 then none
  else (List.range 128).find? fun p => isWarp s p && cfgv s 0x3102 (p + 1) = 1 && portPart s p = some v

/-! ### Heddle rule sets (R326, R331, R553) -/

/-- The dictionary key that holds a pending region: HED_REGION_PENDING with its selectors. -/
def regionKey (h r : Nat) : Nat := key 0x5001 3 + (h * 64 + r + 1) * 2 ^ 24

def lockedRegion (h r : Nat) : Bool := h = 128 && 56 ≤ r

/-- READ_CLASSES and WRITE_CLASSES of a locked region (R331). -/
def lockedClasses (r : Nat) (open_ : Bool) : Nat × Nat :=
  let dbg := if open_ then 2 ^ 50 else 0
  match r with
  | 57 => (2 ^ 49 + dbg, 0)
  | 58 => (2 ^ 49 + dbg, 2 ^ 49 + dbg)
  | 59 => (2 ^ 49 + dbg, 2 ^ 49)
  | 60 => (2 ^ 49 + dbg, 2 ^ 49)
  | _ => (0, 0)

/-- Base, SIZE_LOG2 and ENABLE of a locked region (R553). -/
def lockedPlace (r : Nat) : Nat × Nat × Bool :=
  match r with
  | 56 => (0xF000000000, 24, true)
  | 57 => (0xF001000000, 24, true)
  | 58 => (0xF004000000, 26, true)
  | 59 => (0xF008000000, 27, true)
  | 60 => (0xF010000000, 28, true)
  | _ => (0, 0, false)

/-- The entry of a locked region. -/
def lockedWord (s : State) (r : Nat) : Nat :=
  let c := lockedClasses r s.vault.debugOpen
  let q := lockedPlace r
  at_ 192 c.1 + at_ 128 c.2 + at_ 80 (q.1 / 65536) + at_ 74 q.2.1 + at_ 65 (b2n q.2.2) + at_ 64 1

def activeRegion (s : State) (h r : Nat) : Nat := if lockedRegion h r then lockedWord s r else Tbl.get s.hed.active (h * 64 + r) 0

def activeOwn (s : State) (h : Nat) : Nat := if h = 128 then 1 else if h = 129 then 0 else Tbl.get s.hed.own h 1

/-! ### The check (R325 to R330) -/

/-- An access as a heddle sees it. `kind` is 0 read, 1 write, 2 AtomicOp, 3 Deferrable Memory Write. -/
structure Access where
  cls : Nat
  kind : Nat
  addr : Nat
  len : Nat

/-- What a check answers: passed unchecked, passed by a region, or denied at a byte. -/
inductive Verdict where
  | own
  | region (word : Nat)
  | deny (addr region sub : Nat)
  deriving DecidableEq, Repr

/-- The region contains the address, in a sub-region that is not disabled. -/
def regionHas (w a : Nat) : Bool :=
  let base := bits w 80 48 * 65536
  let n := bits w 74 6
  bit w 65 && base ≤ a && a < base + 2 ^ n && !bit w (66 + (a - base) / 2 ^ (n - 3))

/-- The winning region for a byte among the regions `lo` to `hi - 1`: the highest-numbered. -/
def winner (s : State) (h lo hi a : Nat) : Option Nat :=
  ((List.range (hi - lo)).reverse.map (lo + ·)).find? fun r => regionHas (activeRegion s h r) a

/-- The class bits an access needs in a region (R328). -/
def permits (w : Nat) (a : Access) : Bool :=
  let rd := bit w (192 + a.cls)
  let wr := bit w (128 + a.cls)
  match a.kind with
  | 0 => rd
  | 2 => rd && wr
  | _ => wr

/-- The first byte of an access and each later byte that starts an 8 KiB block: between them no region and no sub-region
begins or ends. -/
def probeBytes (a len : Nat) : List Nat :=
  a :: ((List.range (len / 8192 + 1)).map fun i => (a / 8192 + i + 1) * 8192).filter fun b => b < a + len

/-- The rule sets of R327 over a range of regions. -/
def regionCheck (s : State) (h lo hi : Nat) (a : Access) : Verdict :=
  let bad := (probeBytes a.addr a.len).find? fun b =>
    match winner s h lo hi b with
    | some r => !permits (activeRegion s h r) a
    | none => true
  match bad with
  | some b =>
    match winner s h lo hi b with
    | some r =>
      let w := activeRegion s h r
      .deny b r ((b - bits w 80 48 * 65536) / 2 ^ (bits w 74 6 - 3))
    | none => .deny b 127 0
  | none =>
    match winner s h lo hi a.addr with
    | some r => .region (activeRegion s h r)
    | none => .deny a.addr 127 0

/-- The check of a request at heddle `h`; at H129 the outbound set. -/
def heddleCheck (s : State) (h : Nat) (a : Access) : Verdict :=
  if h = 129 then regionCheck s 129 0 32 a
  else if h = 128 then if a.cls < 32 then .own else regionCheck s 128 0 64 a
  else if activeOwn s h = 1 && portPart s h = some a.cls && a.cls < 32 then .own
  else regionCheck s h 0 64 a

/-! ### Outputs -/

def emit (s : State) (e : Emit) : State := { s with tx := s.tx ++ [e] }

def emitAll (s : State) (es : List Emit) : State := { s with tx := s.tx ++ es }

/-! ### Values drawn -/

/-- The next 384 bits of the vault's generator (R494). -/
def drawn (s : State) : BitVec 384 := Config.entropy s.drawn

def afterDraw (s : State) : State := { s with drawn := s.drawn + 1 }

/-- The next value the spec leaves open. -/
def freeValue (s : State) : Nat := Config.free s.freeDraws

def afterFree (s : State) : State := { s with freeDraws := s.freeDraws + 1 }

/-! ### Module state -/

def ModState.code : ModState → Nat
  | .off => 0 | .keeper => 1 | .feedsUp => 2 | .coreOn => 3 | .boot => 4 | .config => 5 | .links => 6 | .service => 7
  | .degraded => 8 | .recovery => 9 | .test => 10 | .fenced => 11 | .halted => 12

/-- Only the power-stage supervisor runs (R20, R552). -/
def supervisorOnly (s : State) : Bool :=
  match s.module.state with
  | .keeper | .feedsUp => true
  | _ => false

def coreRuns (s : State) : Bool :=
  match s.module.state with
  | .off | .keeper | .feedsUp => false
  | _ => true

/-- The states in which the loom forwards (R19); FENCED forwards only between the module's own ports. -/
def forwards (s : State) : Bool :=
  match s.module.state with
  | .links | .service | .degraded | .fenced => true
  | _ => false

/-- The states in which ports and partitions are up. -/
def inService (s : State) : Bool :=
  match s.module.state with
  | .links | .service | .degraded | .fenced => true
  | _ => false

/-! ### Ordinary and privileged counters (R509 to R512) -/

def ctrPort (p c : Nat) : Nat := 30 * p + c
def ctrLoom (d c : Nat) : Nat := 3840 + 16 * d + c
def ctrLoomAll (c : Nat) : Nat := 5920 + c
def ctrShuttle (tc c : Nat) : Nat := 5952 + 64 * tc + c
def ctrWin (v c : Nat) : Nat := 6464 + 16 * v + c
def ctrHed (h c : Nat) : Nat := 6976 + 4 * h + c
def ctrSel (x c : Nat) : Nat := 7496 + 8 * x + c
def ctrDob (c : Nat) : Nat := 8536 + c
def ctrTwin (c : Nat) : Nat := 8664 + c
def ctrPower (c : Nat) : Nat := 8696 + c
def ctrMgmt (c : Nat) : Nat := 8760 + c
def ctrPart (v c : Nat) : Nat := 8832 + 4 * v + c
def ctrFilter (b slot c : Nat) : Nat := 8960 + 32 * b + 2 * slot + c

/-- CTR_CHAIN joins counter `c` to its neighbour (R511). -/
def chained (s : State) (c : Nat) : Bool := bit (cfgv s 0x7021 0) (c / 2)

/-- Add `n` to an ordinary counter: 32 bits, or 64 at the even counter of a chained pair, whose odd one counts nothing. -/
def count (s : State) (c n : Nat) : State :=
  let m := if chained s c then 2 ^ 64 else 2 ^ 32
  if chained s c && c % 2 = 1 then s
  else { s with obs := { s.obs with counters := Tbl.set s.obs.counters c ((Tbl.get s.obs.counters c 0 + n) % m) } }

/-- A counter's live value: the upper half of a chained pair stands in its odd counter. -/
def counterValue (s : State) (c : Nat) : Nat :=
  if chained s c then
    if c % 2 = 1 then Tbl.get s.obs.counters (c - 1) 0 / 2 ^ 32 else Tbl.get s.obs.counters c 0 % 2 ^ 32
  else Tbl.get s.obs.counters c 0

/-! ### Event records and spool lines (R489, R490) -/

/-- The 20 bytes of a record. -/
def EventRec.bytes (r : EventRec) : List Byte :=
  leBytes 2 r.code ++ leBytes 2 (r.code / 256 * 256 + r.inst % 256) ++
  leBytes 1 (r.sev * 64 + (match r.part with | some p => 32 + p % 32 | none => 0)) ++
  leBytes 1 (b2n r.paired + 2 * b2n r.toInst + 4 * b2n r.lost + 8 * b2n r.early) ++
  leBytes 6 r.time ++ leBytes 8 r.info

def ringGet (s : State) (r : Nat) : RingState := vget s.obs.rings r {}

def ringSet (s : State) (r : Nat) (x : RingState) : State := { s with obs := { s.obs with rings := vset s.obs.rings r x } }

def ringEnabled (s : State) (r : Nat) : Bool := cfgOn s 0x7101 (r + 1)

/-- Records held for all rings together (R523). -/
def spoolHeld (s : State) : Nat := (s.obs.rings.toList.map fun r => r.held.length).sum

/-- Where a ring lies: the host memory of a partition, or none for the beam spool area (R520). -/
def ringPlace (s : State) (r : Nat) : Option Nat :=
  if r < 32 then some r else if cfgv s 0x7106 0 < 32 then some (cfgv s 0x7106 0) else none

/-- The management function of the ring's host memory may master the bus. -/
def ringMaster (s : State) (r : Nat) : Bool :=
  match ringPlace s r with
  | some v => bit s.eng.fnBme v
  | none => true

/-- Lines written and not released. -/
def unreleased (x : RingState) : Nat := (x.head + 2 * 2 ^ 24 - 1 - x.released) % 2 ^ 24

def ringFull (s : State) (r : Nat) : Bool := 2 ^ cfgv s 0x7103 (r + 1) ≤ unreleased (ringGet s r)

/-! ### Host memory and vectors -/

def hostMem (s : State) (v : Nat) : Memory := vget s.host v []

def hostRead (s : State) (v a n : Nat) : List Byte := Memory.readBytes (hostMem s v) a n

def hostWrite (s : State) (v a : Nat) (bs : List Byte) : State :=
  { s with host := vset s.host v (Memory.writeBytes (hostMem s v) a bs) }

/-- Why the heddle of a partition's upstream port denies an access of one of the partition's own functions (R16, R325); none
where it passes, or where the port is another module's, which checks there. -/
def hostDenial (s : State) (v kind a n : Nat) : Option LateDenial :=
  match upPort s v with
  | some p =>
    match heddleCheck s p { cls := v, kind := kind, addr := a, len := n } with
    | .deny b r sub => some { heddle := p, cls := v, kind := kind, addr := b, region := r, sub := sub }
    | _ => none
  | none => none

/-- A denial that is recorded at the end of the step (R334). -/
def noteDenial (s : State) (d : LateDenial) : State := { s with hed := { s.hed with late := s.hed.late ++ [d] } }

/-- A function of a partition writes its host's memory; a denied write is dropped (R333). -/
def hostPost (s : State) (v a : Nat) (bs : List Byte) : State :=
  match hostDenial s v 1 a bs.length with
  | some d => noteDenial s d
  | none => hostWrite s v a bs

/-- A function of a partition reads its host's memory: none where the heddle denies it. -/
def hostFetch (s : State) (v a n : Nat) : State × Option (List Byte) :=
  match hostDenial s v 0 a n with
  | some d => (noteDenial s d, none)
  | none => (s, some (hostRead s v a n))

/-! ### The beam (R162, R163) -/

/-- 256-byte unit `u` of the beam in clear; one that nothing has written reads as zeros (log entry 4). -/
def beamUnit (s : State) (u : Nat) : List Byte :=
  let raw := Memory.readBytes s.beam (256 * u) 256
  match s.vault.beamKey with
  | some k => if raw.all (· = 0) then raw else xtsOpen k u raw
  | none => List.replicate 256 0

/-- Write a unit: AES-256-XTS under the beam key, the tweak its number (R163). -/
def beamPut (s : State) (u : Nat) (plain : List Byte) : State :=
  match s.vault.beamKey with
  | some k => { s with beam := Memory.writeBytes s.beam (256 * u) (xtsSeal k u (fitBytes 256 plain)) }
  | none => s

/-- A unit with `bs` laid over it from address `a` on. -/
def overUnit (u a : Nat) (bs plain : List Byte) : List Byte :=
  (List.range 256).map fun j =>
    let x := 256 * u + j
    if a ≤ x && x < a + bs.length then (bs[x - a]?).getD 0 else (plain[j]?).getD 0

/-- Write bytes to the beam. -/
def beamWrite (s : State) (a : Nat) (bs : List Byte) : State :=
  (List.range (ceilDiv (a % 256 + bs.length) 256)).foldl (fun s i =>
    let u := a / 256 + i
    beamPut s u (overUnit u a bs (beamUnit s u))) s

/-- Read bytes of the beam. -/
def beamRead (s : State) (a n : Nat) : List Byte :=
  (((List.range (ceilDiv (a % 256 + n) 256)).flatMap fun i => beamUnit s (a / 256 + i)).drop (a % 256)).take n

/-- Bytes in and out that the beam sustains per ns for the loom, outside the 2 % of table shadow and bolt traffic (R164). -/
def beamRate : Nat := if Config.f48 then 1200 else 600

/-- The beam has written what ledger moves and spill writes have handed to it. -/
def beamFree (s : State) : Bool := s.loom.writesUntil ≤ s.now * beamRate

/-- Hand the beam `n` 256-byte units to write. -/
def beamTake (s : State) (n : Nat) : State :=
  { s with loom := { s.loom with writesUntil := max s.loom.writesUntil (s.now * beamRate) + 256 * n } }

/-- The key of an MSI-X table entry. -/
def msixKey (v fn vec : Nat) : Nat := (v * 8192 + fn) * 4096 + vec

/-- Signal a vector: sent when its table entry is unmasked, pending otherwise. The write it makes passes the heddle of the
partition's upstream port. -/
def msi (s : State) (v fn vec : Nat) : State :=
  if bit (Tbl.get s.eng.msix (msixKey v fn vec) (2 ^ 96)) 96 then
    { s with eng := { s.eng with msixPending :=
        if (msixKey v fn vec) ∈ s.eng.msixPending then s.eng.msixPending else s.eng.msixPending ++ [msixKey v fn vec] } }
  else
    match hostDenial s v 1 (Tbl.get s.eng.msix (msixKey v fn vec) (2 ^ 96) % 2 ^ 64) 4 with
    | some d => noteDenial s d
    | none => emit s (.msi v fn vec)

/-! ### Writing lines and records -/

/-- The trailer of a line (R490). -/
def lineTrailer (seq n : Nat) (mark partial_ : Bool) : Nat :=
  seq % 2 ^ 24 * 256 + 20 * n * 4 + 2 * b2n mark + b2n partial_

/-- The 64 bytes of a line. -/
def lineBytes (recs : List EventRec) (seq : Nat) (mark : Bool) : List Byte :=
  fitBytes 60 (recs.flatMap EventRec.bytes) ++ leBytes 4 (lineTrailer seq recs.length mark (recs.length < 3))

/-- SPOOL_VECTOR after a line to a partition ring (R526). -/
def signalLine (s : State) (r : Nat) (grave : Bool) : State :=
  if 32 ≤ r then s
  else
    let x := ringGet s r
    let per := cfgv s 0x710F (r + 1)
    if per = 0 then s
    else if per ≤ x.unsigLines || grave then
      ringSet (msi s r 0 (cfgv s 0x710E (r + 1))) r { x with unsigLines := 0, unsigSince := none }
    else ringSet s r { x with unsigSince := match x.unsigSince with | some t => some t | none => some s.now }

/-- Write the records a ring holds as its next line (R520 to R522). -/
def writeLine (s : State) (r : Nat) (mark : Bool) : State :=
  let x := ringGet s r
  if x.held.isEmpty then s
  else
    let slots := 2 ^ cfgv s 0x7103 (r + 1)
    let place := x.head % slots
    let a := cfgv s 0x7102 (r + 1) + 64 * place
    let bs := lineBytes x.held x.head mark
    let ow := slots ≤ unreleased x
    let gone := Tbl.get x.lineRecs place 0
    let x' := { x with
      head := (x.head + 1) % 2 ^ 24
      released := if ow then (x.head + 2 ^ 24 - slots) % 2 ^ 24 else x.released
      lost := if ow then (x.lost + gone) % 2 ^ 32 else x.lost
      overs := if ow then x.overs + gone else x.overs
      held := []
      unsigLines := x.unsigLines + 1
      lineRecs := Tbl.set x.lineRecs place x.held.length
      markGone := x.markGone || x.markSeq = (x.head + 2 ^ 24 - slots) % 2 ^ 24 }
    let s := ringSet s r x'
    let s := match ringPlace s r with
      | some v => hostPost s v a bs
      | none => beamWrite s (0x0C000000 + a) bs
    signalLine s r (x.held.any fun e => 2 ≤ e.sev)

/-- Why a record cannot enter its ring (R522, R523). -/
def ringDrops (s : State) (r : Nat) : Bool :=
  !((ringGet s r).armed && ringEnabled s r && ringMaster s r) || (cfgv s 0x7105 (r + 1) = 1 && ringFull s r) ||
    4096 ≤ spoolHeld s

/-- Put a record into a ring: held, and a line written at three; or lost. -/
def ringPut (s : State) (r : Nat) (e : EventRec) : State :=
  let x := ringGet s r
  if ringDrops s r then
    ringSet s r { x with lost := (x.lost + 1) % 2 ^ 32, drops := x.drops + 1, lostPending := true }
  else
    let e := { e with lost := e.lost || x.lostPending }
    let s := ringSet s r { x with held := x.held ++ [e], lostPending := false,
                                  heldSince := if x.held.isEmpty then s.now else x.heldSince }
    let s := { s with obs := { s.obs with history := (s.obs.history ++ [e]).drop (s.obs.history.length - 16383) } }
    if 3 ≤ (ringGet s r).held.length then writeLine s r false else s

/-- The time field of a record: fabric time, or the supervisor's count before CORE_ON (R489, R552). -/
def eventTime (s : State) : Nat :=
  if supervisorOnly s then (s.now - s.module.keeperSince) % 2 ^ 48 else s.ft % 2 ^ 48

/-- No report of this kind has been written for 1 ms. -/
def lossDue (s : State) (last : Option Nat) : Bool :=
  match last with
  | some t => t + ms ≤ s.now
  | none => true

/-- Report a ring's losses of one kind, at most once per 1 ms (R523); a report that is itself lost carries its count on. -/
def reportLoss (s : State) (r : Nat) (ow : Bool) : State :=
  let x := ringGet s r
  let n := if ow then x.overs else x.drops
  if n = 0 || !lossDue s (if ow then x.oversAt else x.dropsAt) then s
  else if ringDrops s 32 then
    let y := ringGet s 32
    ringSet s 32 { y with lost := (y.lost + 1) % 2 ^ 32, lostPending := true }
  else
    let x' := if ow then { x with overs := 0, oversAt := some s.now } else { x with drops := 0, dropsAt := some s.now }
    ringPut (ringSet s r x') 32
      { code := 0x0B40, time := eventTime s, info := r + 1 + (if ow then 128 else 0) + at_ 32 (n % 2 ^ 32) }

/-- A record goes to its ring, is held by the supervisor before CORE_ON, or waits from CORE_ON to CONFIG (R525, R552). -/
def putEvent (s : State) (h : HeldEvent) : State :=
  if supervisorOnly s then
    let h := { h with rec_ := { h.rec_ with early := true } }
    if 64 ≤ s.obs.early.length then
      { s with obs := { s.obs with early := s.obs.early.drop 1 ++ [h], earlyReplaced := s.obs.earlyReplaced + 1 } }
    else { s with obs := { s.obs with early := s.obs.early ++ [h] } }
  else if !s.obs.live then
    if 4096 ≤ s.obs.waiting.length then
      let x := ringGet s h.ring
      ringSet s h.ring { x with lost := (x.lost + 1) % 2 ^ 32, lostPending := true }
    else { s with obs := { s.obs with waiting := s.obs.waiting ++ [h] } }
  else
    let s := ringPut s h.ring h.rec_
    reportLoss (reportLoss s h.ring false) h.ring true

/-- Write an event. `part` is the partition whose ring it goes to (R554); none is the installer ring. -/
def eventFull (s : State) (code inst sev : Nat) (part : Option Nat) (paired : Bool) (info : Nat) : State :=
  match s.module.state with
  | .off => s
  | _ =>
    putEvent s
      { ring := part.getD 32
        rec_ := { code := code, inst := inst, sev := sev, part := part, paired := paired, toInst := part.isNone,
                  time := eventTime s, info := info % 2 ^ 64 } }

/-- An event of severity 0 to the installer ring. -/
def event (s : State) (code inst info : Nat) : State := eventFull s code inst 0 none false info

/-- An event of severity 0 to a partition's ring, or to the installer ring. -/
def eventIn (s : State) (part : Option Nat) (code inst info : Nat) : State := eventFull s code inst 0 part false info

/-- An event that is written at most once per `gap` for its place; `put` receives the count since the last one. -/
def rateEvent (s : State) (code place gap : Nat) (put : State → Nat → State) : State :=
  let k := code * 2 ^ 32 + place
  let n := Tbl.get s.obs.limitCount k 0 + 1
  let due := match Tbl.find? s.obs.lastAt k with
    | some t => decide (t + gap ≤ s.now)
    | none => true
  if due then
    put { s with obs := { s.obs with limitCount := Tbl.set s.obs.limitCount k 0, lastAt := Tbl.set s.obs.lastAt k s.now } } n
  else { s with obs := { s.obs with limitCount := Tbl.set s.obs.limitCount k n } }

/-- Add to a privileged counter; a wrap sets its sticky bit and writes event 0x0B47 (R512). -/
def privCount (s : State) (c : Nat) : State :=
  let v := (Tbl.get s.obs.priv c 0 + 1) % 2 ^ 32
  let s := { s with obs := { s.obs with priv := Tbl.set s.obs.priv c v } }
  if v = 0 then event { s with obs := { s.obs with sticky := putBit s.obs.sticky c true } } 0x0B47 0 c else s

/-! ### The change journal (R476, R477) -/

/-- A value as the journal stores it: 16 bytes as a number, and whether they are a hash. -/
def journalValue (typ len v : Nat) : Nat × Bool :=
  let n := if typ = 10 then 255 else typeBytes typ len
  if typ = 12 || 16 < n then (leNat ((sha384 (leBytes n v)).take 16), true) else (v % 2 ^ 128, false)

/-- Append an entry; when 4,096 are held it takes the place of the oldest. -/
def journal (s : State) (e : JournalEntry) : State :=
  { s with obs := { s.obs with
      journal := (s.obs.journal ++ [{ e with number := s.obs.journalNext, time := s.ft }]).drop (s.obs.journal.length - 4095)
      journalNext := (s.obs.journalNext + 1) % 2 ^ 32 } }

/-- The 64 bytes of an entry. -/
def JournalEntry.bytes (e : JournalEntry) : List Byte :=
  let w := at_ 480 e.number + at_ 416 (e.time % 2 ^ 64) + at_ 413 e.role + at_ 410 e.kind + at_ 409 (b2n e.oldHashed) +
    at_ 408 (b2n e.newHashed) + at_ 407 (b2n e.mailbox) + at_ 399 (e.source % 256) + at_ 383 (e.session % 65536) +
    at_ 367 (e.index % 65536) + at_ 359 (e.sub % 256) + at_ 224 (e.oldValue % 2 ^ 128) + at_ 96 (e.newValue % 2 ^ 128) +
    at_ 64 (e.commitNumber % 2 ^ 32)
  let b := leBytes 64 w
  leBytes 4 (crc32c (b.drop 4)) ++ b.drop 4

/-- Enter a change of module state in the journal (KIND 3). -/
def journalChange (s : State) (prev new cause : Nat) : State :=
  journal s { number := 0, time := 0, role := 0, kind := 3, index := 0x1002, sub := 0, oldValue := prev,
              newValue := new + at_ 16 (cause % 65536) }

/-- A change of module state: event 0x0B0A in the installer ring and an entry in the journal (R18). Before CORE_ON the
supervisor holds both (R552). -/
def changeState (s : State) (new : ModState) (cause : Nat) : State :=
  let prev := s.module.state
  if prev = new then s
  else
    let s := { s with module := { s.module with state := new, since := s.now,
                                                keeperSince := if new = .keeper then s.now else s.module.keeperSince } }
    let info := new.code + at_ 8 prev.code + at_ 16 (cause % 65536)
    match new with
    | .off => s
    | _ =>
      if supervisorOnly s then
        putEvent s { ring := 32, rec_ := { code := 0x0B0A, time := eventTime s, info := info },
                     change := some (prev.code, new.code, cause) }
      else event (journalChange s prev.code new.code cause) 0x0B0A 0 (info + at_ 32 s.obs.journalNext)

/-! ### Sessions and object writes that act at once -/

def sessionOf (s : State) (n : Nat) : Option Session := s.mgmt.sessions.find? fun x => x.num = n

/-- A PARAM value of a session (R450). -/
def param (s : State) (sess index sub : Nat) : Nat :=
  match sessionOf s sess with
  | some x => Tbl.get x.params (key index sub) (objDefault index sub)
  | none => objDefault index sub

/-- The objects HALTED still serves for writing (R22). -/
def haltedServes (index : Nat) : Bool :=
  index = 0x1310 || index = 0x1340 || index = 0x7201 || index = 0x7202

/-- Through a mailbox, the per-ring objects are reached only from the ring's own partition (R533). -/
def ringObject (index : Nat) : Bool := 0x7101 ≤ index && index ≤ 0x710F && index ≠ 0x7106

def mailboxReaches (x : Session) (index sub : Nat) : Bool :=
  !(128 ≤ x.source) || !ringObject index || x.source - 128 + 1 = sub

/-- The status with which a session's write of an object is refused before the object's own rule is asked, or 0. -/
def writeRefusal (s : State) (sess index sub v : Nat) : Nat :=
  match objRow index sub with
  | none => 2
  | some r =>
    match sessionOf s sess with
    | none => 3
    | some x =>
      if !r.mayWrite x.role || !mailboxReaches x index sub then 3
      else if !r.inRange v then 4
      else if s.module.state = .halted ∧ !haltedServes index then 5
      else 0

/-- The journal entry of an accepted ACTION (KIND 2). -/
def journalAction (s : State) (sess index sub v : Nat) : State :=
  match objRow index sub, sessionOf s sess with
  | some r, some x =>
    let n := journalValue r.typ r.len v
    journal s { number := 0, time := 0, role := x.role, kind := 2, newHashed := n.2, mailbox := 128 ≤ x.source,
                source := x.source % 128 + (if 128 ≤ x.source then 0 else x.source / 128 * 128), session := sess,
                index := index, sub := sub, oldValue := 0, newValue := n.1 }
  | _, _ => s

/-- The common course of an ACTION write (R450, R453, R461, R476): rights and range, then the object's own check, then the
journal and the effect. `refused` is what a refusal by that check still does. A write in the hitless pause is held. -/
def actWrite (s : State) (sess index sub v check : Nat) (refused done : State → State) : State :=
  if s.module.pause.isSome then { s with mgmt := { s.mgmt with heldWrites := s.mgmt.heldWrites ++ [(sess, index, sub, v)] } }
  else
    let st := writeRefusal s sess index sub v
    if st ≠ 0 then emit s (.status sess index sub st)
    else if check ≠ 0 then emit (refused s) (.status sess index sub check)
    else emit (done (journalAction s sess index sub v)) (.status sess index sub 0)

/-- An effect that a write of 1 has and a write of 0 has not. -/
def onOne (v : Nat) (f : State → State) (s : State) : State := if v = 1 then f s else s

end Sys2Proof.Machine
end

