-- ==== Sys2Proof/Machine/Health.lean ====
section
/-!
DEFINITION. What the whole module loses at a reset (R7, R21), the degrading conditions of R18, and the status outputs of
R424 as functions of the state.
-/

namespace Sys2Proof.Machine

/-! ### Feeds as the rest of the module sees them -/

def feedOf (s : State) (f : Feed) : FeedState :=
  match f with
  | .a => s.power.a
  | .b => s.power.b

def setFeed (s : State) (f : Feed) (x : FeedState) : State :=
  match f with
  | .a => { s with power := { s.power with a := x } }
  | .b => { s with power := { s.power with b := x } }

/-- Sub-index of a feed in the per-feed arrays (R428). -/
def feedSub (f : Feed) : Nat :=
  match f with
  | .a => 1
  | .b => 2

def otherFeed (f : Feed) : Feed :=
  match f with
  | .a => .b
  | .b => .a

def bothFeedsDown (s : State) : Bool := !s.power.a.pgood && !s.power.b.pgood

/-- Some supply keeps the supervisor running (R18, R20, R426): VKEEP, a feed that asserts PGOOD_x, or a feed at 2.7 V. -/
def supplyUp (s : State) : Bool := s.power.vkeepOk || !bothFeedsDown s || 2700 ≤ s.power.a.mv || 2700 ≤ s.power.b.mv

/-! ### Losing the core -/

/-- The fields of the module block that flash keeps, or that the model keeps to tell a start from another. -/
def keptModule (m : ModBlk) : ModBlk :=
  { state := m.state, since := m.since, keeperSince := m.keeperSince, bootCount := m.bootCount,
    fatalLast := m.fatalLast, recoveryCount := m.recoveryCount, prevSlot := m.prevSlot,
    slots := m.slots.map fun (x : FwSlot) => { x with blocks := [] }
    recoveries := m.recoveries, running := m.running, recovered := m.recovered, commitGone := m.commitGone }

/-- What the observation blocks keep over a module reset: the records a ring still held are lost (R525), and the ring is
armed again when the stored spool objects are put in force. -/
def keptObs (o : ObsBlk) : ObsBlk :=
  { early := o.early, earlyReplaced := o.earlyReplaced, journal := o.journal, journalNext := o.journalNext,
    commitNumber := o.commitNumber, waiting := o.waiting, history := o.history
    rings := o.rings.map fun (x : RingState) => { lost := x.held.length, lostPending := !x.held.isEmpty } }

def keptVault (v : VaultBlk) : VaultBlk :=
  { entropyOk := v.entropyOk, wrapEpoch := v.wrapEpoch, secrets := v.secrets, debugTries := v.debugTries }

/-- The levels of pins that others drive, which no reset of the module changes: reference clocks, `PERST_N`, `SYSFAIL*` and
`ACFAIL*`. -/
def pinsOnly (s t : State) : State :=
  { t with
    lanes := { t.lanes with refLost := s.lanes.refLost }
    warp := { t.warp with part := Vector.zipWith (fun (x y : Partition) => { y with perst := x.perst }) s.warp.part t.warp.part }
    dob := { t.dob with sysfail := s.dob.sysfail, acfail := s.dob.acfail } }

/-- A commit whose flash write a reset interrupts is kept to be told (R473). -/
def noteCommit (s : State) : State :=
  match s.mgmt.inFlash with
  | some f => { s with module := { s.module with commitGone := some f } }
  | none => s

/-- Both feeds lost: every volatile object returns to its default, the beam and its key are lost; flash, the keeper domain
and what lies outside the module stay (R7, R426, R504). -/
def coreLost (s : State) : State :=
  let s := noteCommit s
  pinsOnly s { State.reset with
    pending := s.pending, now := s.now, drawn := s.drawn, freeDraws := s.freeDraws, cfg := s.cfg, flash := s.flash,
    module := keptModule s.module, power := s.power, vault := keptVault s.vault, shu := { roster := s.shu.roster },
    obs := { keptObs s.obs with waiting := [], history := [], rings := State.reset.obs.rings }, host := s.host, tx := s.tx,
    mgmt := { canOff := s.mgmt.canOff } }

/-- All supplies lost: the keeper domain returns to its defaults too. -/
def allLost (s : State) : State :=
  let s := coreLost s
  { s with
    power := { a := { mv := s.power.a.mv }, b := { mv := s.power.b.mv }, vkeepMv := s.power.vkeepMv, vioMv := s.power.vioMv }
    vault := { s.vault with debugTries := 0 }
    obs := { s.obs with early := [], earlyReplaced := 0 }
    module := { s.module with state := .off, since := s.now } }

/-- Both feeds have dropped PGOOD_x (R18): KEEPER with VKEEP; else OFF, which a feed still at 2.7 V leaves for KEEPER. -/
def feedsLost (s : State) (cause : Nat) : State :=
  match s.module.state with
  | .off | .keeper => s
  | _ =>
    if bothFeedsDown s then
      let s := coreLost s
      if s.power.vkeepOk then changeState s .keeper cause
      else if supplyUp s then changeState (changeState s .off cause) .keeper 0
      else allLost s
    else s

/-- The last supply has gone. -/
def suppliesChecked (s : State) : State :=
  match s.module.state with
  | .off => s
  | _ => if supplyUp s then s else allLost s

/-! ### Degrading conditions (R18) -/

/-- The feed degrades the module. -/
def feedDegrades (s : State) (f : Feed) : Bool :=
  let x := feedOf s f
  cfgOn s 0x2005 (feedSub f) && (x.st = .latched || x.st = .failed || (x.wasGood && !x.pgood))

/-- A twin pair runs without its twin links (R367). -/
def twinDegrades (s : State) : Bool :=
  match s.twin.st with
  | .unprotected | .adopting | .alone => true
  | _ => false

/-- An enabled port is in FAILED. -/
def portDegrades (s : State) : Bool := s.weft.port.toList.any fun x => x.link = .failed

/-- A degrading condition holds. -/
def degraded (s : State) : Bool :=
  feedDegrades s .a || feedDegrades s .b || s.gov.belowFloor || s.gov.throttling || s.loom.badStacks ≠ 0 || portDegrades s ||
    twinDegrades s

/-- SERVICE and DEGRADED follow the degrading conditions. -/
def health (s : State) (cause : Nat) : State :=
  match s.module.state with
  | .service => if degraded s then changeState s .degraded cause else s
  | .degraded => if degraded s then s else changeState s .service cause
  | _ => s

/-! ### Status outputs (R424) -/

/-- How an output transistor of the status pins stands: off, so that the board's pull-up shows, or driven low. -/
inductive PinDrive where
  | open_ | low
  deriving DecidableEq, Repr

/-- A supply of the module is above 1.0 V. -/
def powered (s : State) : Bool := 1000 < s.power.vkeepMv || 1000 < s.power.a.mv || 1000 < s.power.b.mv

/-- A status pin: high-impedance without a supply; the level `clamp` until the supervisor starts; then what it drives. -/
def statusPin (s : State) (clamp driven : PinDrive) : PinDrive :=
  if !powered s then .open_ else match s.module.state with
    | .off => clamp
    | _ => driven

/-- FAULT_N asserted. -/
def faultN (s : State) : Bool :=
  s.power.a.st = .latched || s.power.a.st = .failed || s.power.b.st = .latched || s.power.b.st = .failed

/-- ALERT_N asserted: a feed in COOLDOWN or with its fault timer running, the capacity floor (R39), a module-fatal error
(R353), or the entropy fault in FEEDS_UP (R494). -/
def alertN (s : State) : Bool :=
  s.power.a.st = .cooldown || s.power.a.timer.isSome || s.power.b.st = .cooldown || s.power.b.timer.isSome ||
    s.gov.belowFloor || s.module.fatalAlert || (s.module.state = .feedsUp && !s.vault.entropyOk)

/-- PGOOD_A or PGOOD_B: active high. -/
def pgoodPin (s : State) (f : Feed) : PinDrive := statusPin s .low (if (feedOf s f).pgood then .open_ else .low)

/-- FAULT_N, ALERT_N and THERM_N: active low. -/
def faultPin (s : State) : PinDrive := statusPin s .open_ (if faultN s then .low else .open_)
def alertPin (s : State) : PinDrive := statusPin s .open_ (if alertN s then .low else .open_)
def thermPin (s : State) : PinDrive := statusPin s .open_ (if s.gov.thermN then .low else .open_)

end Sys2Proof.Machine
end

