-- ==== Sys2Proof/Machine/Power.lean ====
section
/-!
DEFINITION. The power feeds: the supervisor's states, trips, pass-transistor checks and outputs (R414 to R430), and the
commands of the table that act on them.
-/

namespace Sys2Proof.Machine

/-- Above the rising undervoltage and below the falling overvoltage threshold (R414). -/
def inThresholds (mv : Nat) : Bool := 2650 < mv && mv < 14200

/-- Below the falling undervoltage or above the rising overvoltage threshold (R414). -/
def outThresholds (mv : Nat) : Bool := mv < 2500 || 14500 < mv

/-- The hot-swap gate is on. -/
def FeedState.gateOn (x : FeedState) : Bool := x.st = .ramp || x.st = .qualify || x.st = .good

/-- A feed is in regulation (R415). -/
def FeedState.regulates (x : FeedState) : Bool := x.st = .qualify || x.st = .good

/-- A voltage measured at the feed's lands. -/
def FeedState.sample (x : FeedState) (now mv : Nat) : FeedState :=
  { x with
    mv := mv
    uv := if mv < 2500 then true else if 2650 < mv then false else x.uv
    ov := if 14500 < mv then true else if mv < 14200 then false else x.ov
    inSince := if inThresholds mv then (match x.inSince with | some t => some t | none => some now) else none
    lowSince := if mv < 1000 then (match x.lowSince with | some t => some t | none => some now) else none }

/-- The output the supervisor has raised the feed to: a constant slope that reaches the feed voltage in the ramp time (R417). -/
def FeedState.rampMv (x : FeedState) (now mv : Nat) : Nat :=
  if x.rampUs * us ≤ now - x.since then mv else mv * (now - x.since) / (x.rampUs * us)

def FeedState.enter (x : FeedState) (now : Nat) (st : FeedSt) : FeedState := { x with st := st, since := now }

/-- The gate is turned off. -/
def FeedState.gateOff (x : FeedState) (now : Nat) : FeedState :=
  { x with timer := none, ilimit := false, foldback := false, gateOffSince := now, pgood := false, ma := 0 }

/-- A power-feed event (R430): bit 16 the feed, [63:32] its voltage. -/
def feedEvent (s : State) (f : Feed) (code extra : Nat) : State :=
  event s code (feedSub f - 1) (at_ 16 (feedSub f - 1) + extra + at_ 32 (feedOf s f).mv)

/-- Counter `c` of the feed's 16 (R510). -/
def feedCount (s : State) (f : Feed) (c : Nat) : State := count s (ctrPower (16 * (feedSub f - 1) + c)) 1

/-- Event 0x0102 when PGOOD_x was asserted, and the loss of both feeds (R18, R430). -/
def pgoodReleased (s : State) (f : Feed) (was : Bool) (cause : Nat) : State :=
  if was then feedsLost (feedEvent s f 0x0102 (at_ 17 cause)) 0x0102 else s

/-- A trip (R416, R418 to R420): cause 1 fault timer, 2 fast trip. -/
def tripFeed (s : State) (f : Feed) (cause : Nat) : State :=
  let x := feedOf s f
  let trips := x.trips + 1
  let latch := cfgv s 0x2003 (feedSub f) < trips
  let y := ((x.gateOff s.now).enter s.now (if latch then .latched else .cooldown))
  let s := setFeed s f { y with trips := trips % 256, lastTrip := cause }
  let s := feedCount s f cause
  let s := feedEvent s f 0x0104 (at_ 17 cause + at_ 19 (trips % 32))
  let s := if latch then feedCount (feedEvent s f 0x0106 (at_ 19 (trips % 32))) f 3 else s
  health (pgoodReleased s f x.pgood 1) 0x0104

/-- The three marks of R421. -/
inductive FailMark where
  | gate | short | reverse
  deriving DecidableEq, Repr

/-- A failure mark: FAILED, the gate held off (R421). -/
def failFeed (s : State) (f : Feed) (mark : FailMark) (extra : Nat) : State :=
  let x := feedOf s f
  let y := (x.gateOff s.now).enter s.now .failed
  let y := match mark with
    | .gate => { y with gateFail := true }
    | .short => { y with shortFail := true }
    | .reverse => { y with reverseFail := true }
  let code := match mark with
    | .gate => 0x0107
    | .short => 0x0108
    | .reverse => 0x010A
  let s := feedEvent (setFeed s f y) f code extra
  health (pgoodReleased s f x.pgood 4) code

/-- LATCHED or FAILED is cleared (R416): WAIT with no trips; bit 17 of event 0x010D tells a power-cycle. -/
def clearFeed (s : State) (f : Feed) (cycled : Nat) : State :=
  let x := (feedOf s f).enter s.now .wait
  let s := setFeed s f { x with trips := 0, gateFail := false, shortFail := false, reverseFail := false, gateOffSince := s.now }
  health (feedEvent s f 0x010D (at_ 17 cycled)) 0x010D

/-- The supervisor starts on a supply (R18, R416): a feed leaves OFF for WAIT or DISABLED. -/
def startFeed (s : State) (f : Feed) (mv : Nat) : FeedState :=
  let x := (feedOf s f).sample s.now mv
  let x := { x with hwLimit := cfgv s 0x2001 (feedSub f), wasGood := false, gateOffSince := s.now }
  if x.st = .off then x.enter s.now (if cfgOn s 0x2005 (feedSub f) then .wait else .disabled) else x

/-- SUPPLY_RISE (R18). -/
def supplyRise (vkeepMv aMv bMv : Nat) (s : State) : State :=
  if s.module.state = .off ∧ (2700 ≤ vkeepMv ∨ 2700 ≤ aMv ∨ 2700 ≤ bMv) then
    let kept := decide (2700 < vkeepMv)
    let s := { s with power := { s.power with
        a := startFeed s .a aMv, b := startFeed s .b bMv, vkeepMv := vkeepMv, vkeepOk := decide (2700 ≤ vkeepMv) } }
    let s := changeState s .keeper 0
    if kept then event s 0x010F 0 (at_ 17 1 + at_ 32 vkeepMv) else s
  else s

def execSupplyRise (vkeepMv aMv bMv : Nat) (s : State) : Host.Outcome State Fault Refusal := .next (supplyRise vkeepMv aMv bMv s)

/-- More than 90 % of the feed's voltage stands at the output (R421). -/
def shorted (mv outMv : Nat) : Bool := mv * 9 < outMv * 10

/-- FEED_RAMP_START (R416): 10 ms inside the thresholds, and the short-fail check. -/
def feedRampStart (f : Feed) (mv outMv : Nat) (s : State) : State :=
  let x := (feedOf s f).sample s.now mv
  let x := { x with outMv := outMv }
  let s := setFeed s f x
  if x.st = .wait ∧ inThresholds mv ∧ elapsedOpt s x.inSince (10 * ms) then
    if shorted mv outMv then failFeed s f .short (at_ 17 (outMv / 100 % 32768))
    else
      let s := setFeed s f { x.enter s.now .ramp with
        clearSince := s.now, gateCount := 0, rampUs := cfgv s 0x2004 (feedSub f) }
      feedEvent (feedCount s f 0) f 0x0100 0
  else s

def execFeedRampStart (f : Feed) (mv outMv : Nat) (s : State) : Host.Outcome State Fault Refusal := .next (feedRampStart f mv outMv s)

/-- SHORT_FAIL_CHECK (R421): the gate has been off for 20 ms. -/
def shortFailCheck (f : Feed) (mv outMv : Nat) (s : State) : State :=
  let x := (feedOf s f).sample s.now mv
  let x := { x with outMv := outMv }
  let s := setFeed s f x
  if ¬ x.gateOn ∧ x.st ≠ .disabled ∧ x.st ≠ .off ∧ ¬ x.shortFail ∧ elapsed s x.gateOffSince (20 * ms) ∧ shorted mv outMv then
    failFeed s f .short (at_ 17 (outMv / 100 % 32768))
  else s

def execShortFailCheck (f : Feed) (mv outMv : Nat) (s : State) : Host.Outcome State Fault Refusal := .next (shortFailCheck f mv outMv s)

/-- FEED_RAMP_COMPLETE (R416): the output within 100 mV of the feed, which the slope of R417 has allowed by then. -/
def feedRampComplete (f : Feed) (mv outMv gateMv : Nat) (s : State) : State :=
  let x := feedOf s f
  if x.st = .ramp ∧ mv ≤ outMv + 100 ∧ mv ≤ x.rampMv s.now mv + 100 ∧ mv + 8000 < gateMv then
    setFeed s f { x.enter s.now .qualify with clearSince := s.now, mv := mv, outMv := outMv }
  else s

def execFeedRampComplete (f : Feed) (mv outMv gateMv : Nat) (s : State) : Host.Outcome State Fault Refusal :=
  .next (feedRampComplete f mv outMv gateMv s)

/-- GATE_FAIL_TIMEOUT (R421): 2 ms of RAMP outside current limit. -/
def gateFailTimeout (f : Feed) (mv gateMv : Nat) (s : State) : State :=
  let x := feedOf s f
  if x.st = .ramp ∧ ¬ x.ilimit ∧ gateMv ≤ mv + 8000 ∧ 2 * ms ≤ x.gateCount + (s.now - x.clearSince) then
    failFeed (setFeed s f { x with mv := mv }) f .gate 0
  else s

def execGateFailTimeout (f : Feed) (mv gateMv : Nat) (s : State) : Host.Outcome State Fault Refusal := .next (gateFailTimeout f mv gateMv s)

/-- A feed becomes GOOD and asserts PGOOD_x. -/
def feedGood (f : Feed) (mv : Nat) (s : State) : State :=
  let x := feedOf s f
  feedEvent (setFeed s f { x.enter s.now .good with clearSince := s.now, mv := mv, pgood := true, wasGood := true }) f 0x0101 0

/-- FEED_QUALIFY_DONE (R423): 5 ms with the fault timer idle; KEEPER becomes FEEDS_UP (R18). -/
def feedQualifyDone (f : Feed) (mv : Nat) (s : State) : State :=
  let x := feedOf s f
  if x.st = .qualify ∧ x.timer = none ∧ elapsed s x.clearSince (5 * ms) then
    let s := feedGood f mv s
    if s.module.state = .keeper then changeState s .feedsUp 0x0101 else health s 0x0101
  else s

def execFeedQualifyDone (f : Feed) (mv : Nat) (s : State) : Host.Outcome State Fault Refusal := .next (feedQualifyDone f mv s)

/-- The current a feed in current limit is held at, mA: the limit, lowered so that the transistor dissipates at most 250 W,
never below 10 A (R418). -/
def heldCurrent (limitA mv outMv : Nat) : Nat :=
  if 250000 < (mv - outMv) * limitA then max 10000 (250000000 / (mv - outMv)) else limitA * 1000

/-- CURRENT_LIMIT_ENTER (R418): the current would exceed the limit. -/
def currentLimitEnter (f : Feed) (mv outMv ma : Nat) (s : State) : State :=
  let x := feedOf s f
  if x.gateOn ∧ ¬ x.ilimit ∧ x.hwLimit * 1000 < ma then
    let held := heldCurrent x.hwLimit mv outMv
    let due := !(match x.timerEventAt with | some t => decide (s.now < t + ms) | none => false)
    let y := { x with
      ilimit := true, timer := some s.now, mv := mv, outMv := outMv, ma := held
      foldback := decide (held < x.hwLimit * 1000)
      gateCount := if x.st = .ramp then x.gateCount + (s.now - x.clearSince) else x.gateCount
      clearSince := s.now
      timerEventAt := if due then some s.now else x.timerEventAt }
    let s := feedCount (setFeed s f y) f 4
    if due then feedEvent s f 0x0103 (at_ 17 (held / 1000 % 32768)) else s
  else s

def execCurrentLimitEnter (f : Feed) (mv outMv ma : Nat) (s : State) : Host.Outcome State Fault Refusal :=
  .next (currentLimitEnter f mv outMv ma s)

/-- CURRENT_LIMIT_EXIT (R418). -/
def currentLimitExit (f : Feed) (ma : Nat) (s : State) : State :=
  let x := feedOf s f
  if x.ilimit then
    setFeed s f { x with ilimit := false, foldback := false, timer := none, ma := ma,
                         clearSince := if x.st = .good then x.clearSince else s.now }
  else s

def execCurrentLimitExit (f : Feed) (ma : Nat) (s : State) : Host.Outcome State Fault Refusal := .next (currentLimitExit f ma s)

/-- FAULT_TIMER_EXPIRY (R418). -/
def faultTimerExpiry (f : Feed) (mv : Nat) (s : State) : State :=
  let x := feedOf s f
  if x.gateOn ∧ elapsedOpt s x.timer (cfgv s 0x2002 (feedSub f) * us) then tripFeed (setFeed s f { x with mv := mv }) f 1 else s

def execFaultTimerExpiry (f : Feed) (mv : Nat) (s : State) : Host.Outcome State Fault Refusal := .next (faultTimerExpiry f mv s)

/-- FAST_TRIP (R419): the current reaches twice the limit. -/
def fastTrip (f : Feed) (mv ma : Nat) (s : State) : State :=
  let x := feedOf s f
  if x.gateOn ∧ 2 * x.hwLimit * 1000 ≤ ma then tripFeed (setFeed s f { x with mv := mv }) f 2 else s

def execFastTrip (f : Feed) (mv ma : Nat) (s : State) : Host.Outcome State Fault Refusal := .next (fastTrip f mv ma s)

/-- COOLDOWN_EXPIRY (R416). -/
def cooldownExpiry (f : Feed) (mv : Nat) (s : State) : State :=
  let x := feedOf s f
  if x.st = .cooldown ∧ elapsed s x.since (250 * ms) then
    feedEvent (setFeed s f ((x.sample s.now mv).enter s.now .wait)) f 0x0105 (at_ 19 (x.trips % 32))
  else s

def execCooldownExpiry (f : Feed) (mv : Nat) (s : State) : Host.Outcome State Fault Refusal := .next (cooldownExpiry f mv s)

/-- FEED_OUT_OF_RANGE (R414, R416): not a trip. -/
def feedOutOfRange (f : Feed) (mv : Nat) (s : State) : State :=
  let x := feedOf s f
  let y := x.sample s.now mv
  if x.gateOn ∧ outThresholds mv then
    let high := decide (14500 < mv)
    let s := setFeed s f ((y.gateOff s.now).enter s.now .wait)
    let s := feedCount s f (if high then 7 else 6)
    let code := if high then 0x010B else 0x010C
    let s := pgoodReleased (feedEvent s f code 0) f x.pgood (if high then 3 else 2)
    suppliesChecked (health s code)
  else suppliesChecked (setFeed s f y)

def execFeedOutOfRange (f : Feed) (mv : Nat) (s : State) : Host.Outcome State Fault Refusal := .next (feedOutOfRange f mv s)

/-- FEED_POWER_CYCLED (R414): 50 ms below 1.0 V. -/
def feedPowerCycled (f : Feed) (mv : Nat) (s : State) : State :=
  let x := (feedOf s f).sample s.now mv
  let s := setFeed s f x
  if mv < 1000 ∧ elapsedOpt s x.lowSince (50 * ms) then
    if x.st = .latched ∨ x.st = .failed then clearFeed s f 1 else setFeed s f { x with trips := 0 }
  else s

def execFeedPowerCycled (f : Feed) (mv : Nat) (s : State) : Host.Outcome State Fault Refusal := .next (feedPowerCycled f mv s)

/-- TRIP_COUNT_RESET (R420): 10 s in GOOD without a start of the fault timer. -/
def tripCountReset (f : Feed) (s : State) : State :=
  let x := feedOf s f
  if x.st = .good ∧ x.timer = none ∧ elapsed s x.clearSince (10 * sec) then setFeed s f { x with trips := 0 } else s

def execTripCountReset (f : Feed) (s : State) : Host.Outcome State Fault Refusal := .next (tripCountReset f s)

/-- IDEAL_DIODE_REVERSE_OFF (R422): more than 2 A of reverse current. -/
def idealDiodeReverseOff (f : Feed) (mv reverseMa : Nat) (s : State) : State :=
  let x := feedOf s f
  if x.diodeOn ∧ 2000 < reverseMa then
    let s := setFeed s f { x with diodeOn := false, diodeOffAt := some s.now, reverses := x.reverses + 1, mv := mv }
    rateEvent (feedCount s f 5) 0x0109 (feedSub f) sec fun s n => feedEvent s f 0x0109 (at_ 17 (n % 32768))
  else s

def execIdealDiodeReverseOff (f : Feed) (mv reverseMa : Nat) (s : State) : Host.Outcome State Fault Refusal :=
  .next (idealDiodeReverseOff f mv reverseMa s)

/-- REVERSE_FAIL_CHECK (R421): 2 µs after a commanded turn-off. -/
def reverseFailCheck (f : Feed) (mv reverseMa : Nat) (s : State) : State :=
  let x := feedOf s f
  if x.st ≠ .disabled ∧ elapsedOpt s x.diodeOffAt (2 * us) then
    let s := setFeed s f { x with diodeOffAt := none, mv := mv }
    if 5000 ≤ reverseMa then failFeed s f .reverse 0 else s
  else s

def execReverseFailCheck (f : Feed) (mv reverseMa : Nat) (s : State) : Host.Outcome State Fault Refusal :=
  .next (reverseFailCheck f mv reverseMa s)

/-- IDEAL_DIODE_ON (R422): the feed is at least 20 mV above the rail. -/
def idealDiodeOn (f : Feed) (mv railMv : Nat) (s : State) : State :=
  let x := feedOf s f
  if ¬ x.diodeOn ∧ x.gateOn ∧ railMv + 20 ≤ mv then setFeed s f { x with diodeOn := true, diodeOffAt := none, mv := mv } else s

def execIdealDiodeOn (f : Feed) (mv railMv : Nat) (s : State) : Host.Outcome State Fault Refusal := .next (idealDiodeOn f mv railMv s)

/-- The effect of FEED_CLEAR 1 (R416): nothing in any state but LATCHED and FAILED. -/
def actFeedClear (f : Feed) (s : State) : State :=
  if (feedOf s f).st = .latched ∨ (feedOf s f).st = .failed then clearFeed s f 0 else s

/-- VKEEP_CHANGE (R426). -/
def vkeepChange (mv : Nat) (s : State) : State :=
  let ok := s.power.vkeepOk
  let s := { s with power := { s.power with vkeepMv := mv } }
  if s.module.state = .off then s
  else if ¬ ok ∧ 2700 < mv then
    event { s with power := { s.power with vkeepOk := true } } 0x010F 0 (at_ 17 1 + at_ 32 mv)
  else if ok ∧ mv < 2600 then
    suppliesChecked (event { s with power := { s.power with vkeepOk := false } } 0x010F 0 (at_ 32 mv))
  else s

def execVkeepChange (mv : Nat) (s : State) : Host.Outcome State Fault Refusal := .next (vkeepChange mv s)

/-- VIO_DOB is within 2.65 to 5.6 V (R427). -/
def vioInRange (mv : Nat) : Bool := 2650 ≤ mv && mv ≤ 5600

/-- VIO_DOB_CHANGE (R427): in range for 10 ms, or out of range. -/
def vioDobChange (mv : Nat) (s : State) : State :=
  let p := s.power
  let since := if vioInRange mv then (match p.vioSince with | some t => some t | none => some s.now) else none
  let s := { s with power := { p with vioMv := mv, vioSince := since } }
  if s.module.state = .off then s
  else if ¬ p.vioOk ∧ elapsedOpt s since (10 * ms) then
    event { s with power := { s.power with vioOk := true } } 0x010E 0 (at_ 17 1 + at_ 32 mv)
  else if p.vioOk ∧ ¬ vioInRange mv then
    event { s with power := { s.power with vioOk := false } } 0x010E 0 (at_ 32 mv)
  else s

def execVioDobChange (mv : Nat) (s : State) : Host.Outcome State Fault Refusal := .next (vioDobChange mv s)

/-- FEED_ENABLE committed (R416): 0 disables the feed, 1 sends a disabled one to WAIT. -/
def feedEnableCommitted (s : State) (f : Feed) (on : Bool) : State :=
  let x := feedOf s f
  if on then
    if x.st = .disabled then setFeed s f { x.enter s.now .wait with gateOffSince := s.now } else s
  else if x.st = .disabled ∨ x.st = .off then s
  else health (pgoodReleased (setFeed s f ((x.gateOff s.now).enter s.now .disabled)) f x.pgood 5) 0x0102

end Sys2Proof.Machine
end

