-- ==== Sys2Proof/Machine/Governor.lean ====
section
/-!
DEFINITION. Capacity, the governor and the thermal loop (R26 to R40), and the commands of the table that run them.
-/

namespace Sys2Proof.Machine

/-- Guaranteed capacity at a Vcore in mV, Gb/s per direction (R28). -/
def capacityAt (mv : Nat) : Nat := min 48000 (48000 * (mv - 360) / 420)

/-- The capacity the governor publishes: at 145 °C and above also bounded by the measured stage time (R28). -/
def capacityNow (mv : Nat) (tj : Int) (stagePs : Nat) : Nat :=
  if 145000 ≤ tj ∧ 0 < stagePs then min (capacityAt mv) (48000 * 200 / stagePs) else capacityAt mv

/-- The feed-power limit (R415): over the feeds in regulation, measured voltage times FEED_ILIMIT, in W. -/
def feedLimitW (s : State) : Nat :=
  ((if s.power.a.regulates then s.power.a.mv * cfgv s 0x2001 1 else 0) +
   (if s.power.b.regulates then s.power.b.mv * cfgv s 0x2001 2 else 0)) / 1000

/-- The lowest of the four limits and its code, lowest code first among equals (R33). -/
def lowestLimit (feedW thermalW budgetW : Nat) : Nat × Nat :=
  let w := min (min 330 feedW) (min thermalW budgetW)
  (w, if w = 330 then 0 else if w = feedW then 1 else if w = thermalW then 2 else 3)

/-- A lowered Vcore: towards `target`, by at most 80 mV in a period, in steps of 5 mV, not below 550 (R33). -/
def lowerTo (v target : Nat) : Nat := max 550 (max (v - 80) (target / 5 * 5))

/-- What a period does to Vcore (R33, R36). -/
inductive VcoreMove where
  | hold | lower (mv : Nat) | raise (mv : Nat)
  deriving DecidableEq, Repr

def vcoreMove (v ceil power limit : Nat) (hot : Bool) : VcoreMove :=
  if hot then (if 550 < v then .lower 550 else .hold)
  else if ceil < v then
    .lower (lowerTo v (if limit < power then min ceil (Config.vcoreFor power v limit) else ceil))
  else if limit < power then
    (if 550 < v then .lower (lowerTo v (min (v - 5) (Config.vcoreFor power v limit))) else .hold)
  else if power * 100 < limit * 97 ∧ v < ceil then .raise (v + 5)
  else .hold

/-- The capacity floor after a new capacity (R39). -/
def floorCheck (s : State) : State :=
  let floor := cfgv s 0x2100 3
  let cap := s.gov.capacity
  let info := cap % 2 ^ 32 + at_ 32 (floor % 2 ^ 32)
  if ¬ s.gov.belowFloor then
    if floor ≠ 0 ∧ cap < floor then
      let s := { s with gov := { s.gov with belowFloor := true, atFloorSince := none } }
      health (count (event s 0x0180 0 info) (ctrPower 39) 1) 0x0180
    else s
  else if cap < floor then { s with gov := { s.gov with atFloorSince := none } }
  else { s with gov := { s.gov with atFloorSince := match s.gov.atFloorSince with | some t => some t | none => some s.now } }

/-- The condition of R39 ends: event 0x0181 and ALERT_N's hold released. -/
def floorCleared (s : State) : State :=
  let info := s.gov.capacity % 2 ^ 32 + at_ 32 (cfgv s 0x2100 3 % 2 ^ 32)
  health (event { s with gov := { s.gov with belowFloor := false, atFloorSince := none } } 0x0181 0 info) 0x0181

/-- Publish a capacity and have the loom rescale (R35, R172). -/
def publish (s : State) (cap : Nat) : State :=
  floorCheck { s with gov := { s.gov with capacity := cap, rescaling := true } }

/-- The limits a period computes and reports, and event 0x0182 on a change of the binding one. -/
def governorLimits (s : State) (powerW stagePs : Nat) : State :=
  let feedW := feedLimitW s
  let l := lowestLimit feedW s.gov.thermalW (cfgv s 0x2000 1)
  let changed := l.2 ≠ s.gov.limit
  let s := { s with gov := { s.gov with feedW := feedW, powerW := powerW, stagePs := stagePs, limit := l.2, periodAt := s.now } }
  let s := count s (ctrPower (34 + l.2)) 1
  let s := if s.gov.throttling then count s (ctrPower 38) 1 else s
  if changed then event s 0x0182 0 (l.2 + at_ 16 (l.1 % 65536)) else s

/-- A limit that cannot be met at 0.55 V: event 0x0186 once at each entry (R34). -/
def unmetCheck (s : State) (limitW : Nat) : State :=
  if s.gov.powerW ≤ limitW then { s with gov := { s.gov with unmet := false } }
  else if s.gov.vcore = 550 ∧ ¬ s.gov.unmet then
    event { s with gov := { s.gov with unmet := true } } 0x0186 0 (s.gov.powerW % 65536 + at_ 16 (limitW % 65536))
  else s

/-- A lowered FEED_ILIMIT enters the hardware once power is within the limit computed with it (R425). -/
def lowerIlimit (s : State) (f : Feed) : State :=
  let x := feedOf s f
  let set := cfgv s 0x2001 (feedSub f)
  if x.hwLimit < set ∨ s.gov.powerW ≤ s.gov.feedW then setFeed s f { x with hwLimit := set } else s

/-- The measured feeds of a period. -/
def governorSample (s : State) (aMv bMv aMa bMa : Nat) : State :=
  { s with power := { s.power with a := { s.power.a with mv := aMv, ma := aMa }, b := { s.power.b with mv := bMv, ma := bMa } } }

/-- The move of Vcore, capacity first when it falls (R35); the capacity bound recomputed, and a higher one published only while
Vcore stands (R28). DESIGN CHOICE (log entry 103): R33 names no period that falls while an earlier lowering still waits for the
loom's rescale, or an earlier raise for the regulator; such a period makes no move, or no further raise. -/
def governorMove (s : State) (limitW : Nat) : State :=
  let hot := decide (150000 ≤ s.gov.tjHot)
  let s := if s.gov.lowering.isSome then s
    else match vcoreMove s.gov.vcore (cfgv s 0x2100 5) s.gov.powerW limitW hot with
      | .hold => s
      | .lower mv =>
        let s := { s with gov := { s.gov with lowering := some mv, raising := none } }
        publish (count s (ctrPower 32) 1) (min s.gov.capacity (capacityNow mv s.gov.tjHot s.gov.stagePs))
      | .raise mv =>
        if s.gov.raising.isSome then s else count { s with gov := { s.gov with vcore := mv, raising := some mv } } (ctrPower 33) 1
  let bound := capacityNow (match s.gov.lowering with | some mv => mv | none => s.gov.vcore) s.gov.tjHot s.gov.stagePs
  if bound < s.gov.capacity ∨ (s.gov.lowering.isNone ∧ s.gov.raising.isNone ∧ bound ≠ s.gov.capacity) then publish s bound else s

/-- A floor set at or below the capacity clears the condition in the next period (R39). -/
def floorPeriod (s : State) : State :=
  let s := floorCheck s
  let low := s.gov.floorLowered
  let s := { s with gov := { s.gov with floorLowered := false } }
  if s.gov.belowFloor ∧ low ∧ cfgv s 0x2100 3 ≤ s.gov.capacity then floorCleared s else s

/-- GOVERNOR_PERIOD (R33): every 100 µs. -/
def governorPeriod (aMv bMv aMa bMa powerW stagePs : Nat) (s : State) : State :=
  if s.gov.running ∧ elapsed s s.gov.periodAt (100 * us) then
    let s := governorLimits (governorSample s aMv bMv aMa bMa) powerW stagePs
    let l := (lowestLimit s.gov.feedW s.gov.thermalW (cfgv s 0x2000 1)).1
    let s := unmetCheck (governorMove s l) l
    floorPeriod (lowerIlimit (lowerIlimit s .a) .b)
  else s

def execGovernorPeriod (aMv bMv aMa bMa powerW stagePs : Nat) (s : State) : Host.Outcome State Fault Refusal :=
  .next (governorPeriod aMv bMv aMa bMa powerW stagePs s)

/-- CAPACITY_FLOOR_CLEAR (R39): 10 ms at or above the floor. -/
def capacityFloorClear (s : State) : State :=
  if s.gov.belowFloor ∧ cfgv s 0x2100 3 ≤ s.gov.capacity ∧ elapsedOpt s s.gov.atFloorSince (10 * ms) then floorCleared s else s

def execCapacityFloorClear (s : State) : Host.Outcome State Fault Refusal := .next (capacityFloorClear s)

/-- VCORE_RAISE_DONE (R35): the regulator reports the raised voltage. -/
def vcoreRaiseDone (mv : Nat) (s : State) : State :=
  match s.gov.raising with
  | some v =>
    if v ≤ mv then
      let cap := capacityNow s.gov.vcore s.gov.tjHot s.gov.stagePs
      let s := { s with gov := { s.gov with raising := none } }
      if s.gov.capacity < cap then publish s cap else s
    else s
  | none => s

def execVcoreRaiseDone (mv : Nat) (s : State) : Host.Outcome State Fault Refusal := .next (vcoreRaiseDone mv s)

/-- LOOM_RESCALE_DONE (R35, R172): the lowered VCORE_SET is written. -/
def loomRescaleDone (s : State) : State :=
  if s.gov.rescaling then
    { s with gov := { s.gov with rescaling := false, vcore := s.gov.lowering.getD s.gov.vcore, lowering := none } }
  else s

def execLoomRescaleDone (s : State) : Host.Outcome State Fault Refusal := .next (loomRescaleDone s)

/-- The thermal limit after a period of the loop (R36). -/
def thermalStep (limit : Nat) (tj : Int) : Nat :=
  if tj < 140000 then min 330 (limit + 5) else if tj < 145000 then limit else limit - 10

/-- THERMAL_LOOP (R36): every 10 ms, on the hottest sensor. The treadle's pause holds the limit (R443). -/
def thermalLoop (hottestMc : Int) (s : State) : State :=
  if s.gov.running ∧ elapsed s s.gov.thermalAt (10 * ms) then
    let w := if s.module.pause.isSome then s.gov.thermalW else thermalStep s.gov.thermalW hottestMc
    let hot := decide (150000 ≤ hottestMc)
    let was := s.gov.throttling
    let entered := hot && s.gov.hotSince.isNone
    let s := { s with gov := { s.gov with
        tjHot := hottestMc, thermalW := w, thermalAt := s.now, throttling := decide (w < 330)
        thermN := if 145000 ≤ hottestMc then true else if hottestMc < 140000 ∧ w = 330 then false else s.gov.thermN
        hotSince := if hot then (match s.gov.hotSince with | some t => some t | none => some s.now) else none
        hotTold := hot && s.gov.hotTold } }
    let info := ofI32 hottestMc
    let s := if entered then event s 0x0185 0 info else s
    let s := if ¬ was ∧ s.gov.throttling then event s 0x0183 0 info else if was ∧ ¬ s.gov.throttling then event s 0x0184 0 info else s
    health s (if s.gov.throttling then 0x0183 else 0x0184)
  else s

def execThermalLoop (hottestMc : Int) (s : State) : Host.Outcome State Fault Refusal := .next (thermalLoop hottestMc s)

end Sys2Proof.Machine
end

