-- ==== Sys2Proof/Machine/Filters.lean ====
section
/-!
DEFINITION. The filter slots of R514 and R515: each block counts the items its slots match.
-/

namespace Sys2Proof.Machine

/-- An item as a block's filter sees it. A master or an address the block cannot see is none. -/
structure FilterItem where
  cls : Option Nat := none
  tc : Nat := 0
  /-- 0 posted write, 1 read, 2 AtomicOp, 3 non-posted write, 4 completion, 5 configuration or I/O, 6 fence, 7 control -/
  typ : Nat
  master : Option (Nat × Nat × Nat) := none
  addr : Option Nat := none
  bytes : Nat := 0

/-- The master criterion of a slot. -/
def filterMaster (w : Nat) (m : Option (Nat × Nat × Nat)) : Bool :=
  match m with
  | some (mid, vs, rid) =>
    bits w 174 10 = mid && bits w 169 5 = vs && (bits w 153 16 ^^^ rid) &&& bits w 137 16 = 0
  | none => false

/-- The address criterion of a slot. -/
def filterAddr (w : Nat) (a : Option Nat) : Bool :=
  match a with
  | some a => bits w 52 52 ≤ a / 4096 && a / 4096 ≤ bits w 0 52
  | none => false

/-- The class criterion: an item without a class matches only a full mask. -/
def filterClass (w : Nat) (c : Option Nat) : Bool :=
  match c with
  | some c => c < 50 && bit w (185 + c)
  | none => bits w 185 50 = 2 ^ 50 - 1

/-- A slot matches an item. -/
def filterMatches (w : Nat) (i : FilterItem) : Bool :=
  bit w 255 && filterClass w i.cls && (!bit w 254 || filterMaster w i.master) && (!bit w 253 || filterAddr w i.addr) &&
    (!bit w 252 || bit w (243 + i.tc)) && (!bit w 251 || bit w (235 + i.typ))

/-- Slot `k` of block `b` counts the item. -/
def filterSlot (b : Nat) (i : FilterItem) (s : State) (k : Nat) : State :=
  if filterMatches (cfgv s 0x7020 (16 * b + k + 1)) i then
    let s := count s (ctrFilter b k 0) 1
    if chained s (ctrFilter b k 0) then s else count s (ctrFilter b k 1) (ceilDiv i.bytes 64)
  else s

/-- Block `b` (R515: 0 warp ports, 1 weft ports, 2 loom, 3 shuttle, 4 windows, 5 heddles, 6 selvedges, 7 dobby) sees an
item. -/
def filterItem (s : State) (b : Nat) (i : FilterItem) : State := (List.range 16).foldl (filterSlot b i) s

end Sys2Proof.Machine
end

