-- ==== Sys2Proof/Machine/Codec.lean ====
section
/-!
DEFINITION. The wire codes of the weft link: precoding and scrambling of a lane (R53 to R55), the flit's Reed-Solomon and
CRC protection (R78, R79), its layout (R72, R73), and the control blocks (R59, R95 to R99).
-/

namespace Sys2Proof.Machine

/-! ### Lane coding (R53 to R55) -/

/-- Gray code of a bit pair, the first bit the more significant (R53). -/
def graySymbol (pair : Nat) : Nat :=
  match pair with
  | 0 => 0 | 1 => 1 | 3 => 2 | _ => 3

/-- The level sent for symbol `x` after level `prev`. -/
def precode (x prev : Nat) : Nat := (x + 4 - prev) % 4

/-- The symbol recovered from level `y` after level `prev`. -/
def unprecode (y prev : Nat) : Nat := (y + prev) % 4

/-- The levels of a run of symbols, from the previous level. -/
def precodeAll : Nat → List Nat → List Nat
  | _, [] => []
  | prev, x :: xs => precode x prev :: precodeAll (precode x prev) xs

def unprecodeAll : Nat → List Nat → List Nat
  | _, [] => []
  | prev, y :: ys => unprecode y prev :: unprecodeAll y ys

/-- The bit pair of a symbol, the first bit the more significant. -/
def grayPair (x : Nat) : Nat :=
  match x with
  | 0 => 0 | 1 => 1 | 2 => 3 | _ => 2

/-- One bit of the self-synchronising scrambler 1 + x^39 + x^58: the register holds the last 58 bits sent, newest lowest. -/
def scrambleBit (reg : Nat) (b : Bool) : Bool := xor b (xor (bit reg 38) (bit reg 57))

def scramble : Nat → List Bool → List Bool
  | _, [] => []
  | reg, b :: bs =>
    let o := scrambleBit reg b
    o :: scramble ((reg * 2 + b2n o) % 2 ^ 58) bs

def descramble : Nat → List Bool → List Bool
  | _, [] => []
  | reg, o :: os => scrambleBit reg o :: descramble ((reg * 2 + b2n o) % 2 ^ 58) os

/-- The bits of a word, the lowest first, which is sent first (R55). -/
def wordBits (n w : Nat) : List Bool := (List.range n).map fun i => bit w i

/-- The word whose bits, lowest first, these are. -/
def bitsWord (bs : List Bool) : Nat := bs.foldr (fun b w => b2n b + 2 * w) 0

/-- The last 58 of the bits that a scrambler has sent or received, newest lowest. -/
def scramblerAfter (reg : Nat) (sent : List Bool) : Nat := sent.foldl (fun r b => (r * 2 + b2n b) % 2 ^ 58) reg

/-- The 65 symbols of a block (R54): the header, its first bit the more significant, then the payload from bit 0. -/
def blockSymbols (header payload : Nat) : List Nat :=
  graySymbol header ::
    (List.range 64).map fun i => graySymbol (2 * b2n (bit payload (2 * i)) + b2n (bit payload (2 * i + 1)))

/-- The header and the payload of 65 symbols. -/
def symbolsBlock (xs : List Nat) : Nat × Nat :=
  (grayPair (xs.getD 0 0), bitsWord ((xs.drop 1).flatMap fun x => [bit (grayPair x) 1, bit (grayPair x) 0]))

/-- Levels as a number in base 4, the first lowest. -/
def levelsWord (ys : List Nat) : Nat := ys.foldr (fun y w => y + 4 * w) 0

def wordLevels (w : Nat) : List Nat := (List.range 65).map fun i => bits w (2 * i) 2

/-- A receiver that inverts the lane takes each level for its opposite (R62). -/
def invertLevels (w : Nat) : Nat := 4 ^ 65 - 1 - w % 4 ^ 65

/-- The tap weights c(−2), c(−1), c0, c(+1), c(+2) of a transmit preset, in hundredths (R64, R546). -/
def presetTaps (preset : Nat) : List Int :=
  match preset with
  | 0 => [0, 0, 100, 0, 0]
  | 1 => [0, -5, 95, 0, 0]
  | 2 => [0, -10, 90, 0, 0]
  | 3 => [0, 0, 95, -5, 0]
  | 4 => [0, 0, 90, -10, 0]
  | 5 => [0, -5, 90, -5, 0]
  | 6 => [2, -10, 83, -5, 0]
  | 7 => [0, -10, 80, -10, 0]
  | 8 => [2, -12, 78, -8, 0]
  | 9 => [0, -15, 80, -5, 0]
  | 10 => [0, -5, 80, -15, 0]
  | 11 => [3, -15, 72, -10, 0]
  | 12 => [3, -15, 70, -10, 2]
  | 13 => [4, -20, 66, -10, 0]
  | 14 => [4, -20, 59, -15, 2]
  | _ => [5, -25, 53, -15, 2]

/-! ### Gray code counters (R30) -/

def grayCode (n : Nat) : Nat := n ^^^ (n >>> 1)

/-- The count of a five-bit Gray code. -/
def grayCount (g : Nat) : Nat := g ^^^ (g >>> 1) ^^^ (g >>> 2) ^^^ (g >>> 3) ^^^ (g >>> 4)

/-- The next pointer modulo 32: exactly one bit differs. -/
def grayNext (g : Nat) : Nat := grayCode ((grayCount g + 1) % 32)

/-! ### Reed-Solomon RS(72,68) (R78) -/

/-- Product in GF(2^8) modulo 0x11D. -/
def rsMul (a b : Nat) : Nat :=
  let rec go : Nat → Nat → Nat → Nat → Nat
    | 0, _, _, acc => acc
    | n + 1, a, b, acc =>
      let acc := if b % 2 = 1 then acc ^^^ a else acc
      let a' := a * 2
      go n (if a' ≥ 256 then a' ^^^ 0x11d else a') (b / 2) acc
  go 8 a b 0

def rsPow (a : Nat) : Nat → Nat
  | 0 => 1
  | n + 1 => rsMul a (rsPow a n)

/-- a^254. -/
def rsInv (a : Nat) : Nat :=
  let a2 := rsMul a a
  let a4 := rsMul a2 a2
  let a8 := rsMul a4 a4
  let a16 := rsMul a8 a8
  let a32 := rsMul a16 a16
  let a64 := rsMul a32 a32
  let a128 := rsMul a64 a64
  rsMul a128 (rsMul a64 (rsMul a32 (rsMul a16 (rsMul a8 (rsMul a4 a2)))))

/-- The four parity symbols of 68 data symbols, the remainder by (x − 1)(x − α)(x − α²)(x − α³), highest first. -/
def rsParity (data : List Nat) : List Nat :=
  -- x^4 + 15 x^3 + 54 x^2 + 120 x + 64
  data.foldl (fun r d =>
    let f := d ^^^ r.getD 0 0
    [r.getD 1 0 ^^^ rsMul f 15, r.getD 2 0 ^^^ rsMul f 54, r.getD 3 0 ^^^ rsMul f 120, rsMul f 64]) [0, 0, 0, 0]

/-- Syndrome j of a codeword, highest coefficient first. -/
def rsSyndrome (c : List Nat) (j : Nat) : Nat := c.foldl (fun acc x => rsMul acc (rsPow 2 j) ^^^ x) 0

/-- Correct up to two symbols of a codeword: the codeword and the symbols corrected, or none. -/
def rsDecode (c : List Nat) : Option (List Nat × Nat) :=
  let s0 := rsSyndrome c 0
  let s1 := rsSyndrome c 1
  let s2 := rsSyndrome c 2
  let s3 := rsSyndrome c 3
  if s0 = 0 ∧ s1 = 0 ∧ s2 = 0 ∧ s3 = 0 then some (c, 0)
  else
    let det := rsMul s1 s1 ^^^ rsMul s0 s2
    let places := List.range 72
    let fix := fun (c : List Nat) (p e : Nat) => c.modify (71 - p) (· ^^^ e)
    if det = 0 then
      if s0 ≠ 0 then
        let x := rsMul s1 (rsInv s0)
        match places.find? fun p => rsPow 2 p = x with
        | some p =>
          if rsMul s0 (rsMul x x) = s2 ∧ rsMul s0 (rsMul x (rsMul x x)) = s3 then some (fix c p s0, 1) else none
        | none => none
      else none
    else
      let l1 := rsMul (rsMul s1 s2 ^^^ rsMul s0 s3) (rsInv det)
      let l2 := rsMul (rsMul s2 s2 ^^^ rsMul s1 s3) (rsInv det)
      match places.filter fun p => let x := rsPow 2 p; (rsMul x x ^^^ rsMul l1 x ^^^ l2) = 0 with
      | [p, q] =>
        let x := rsPow 2 p
        let y := rsPow 2 q
        let e := rsMul (s1 ^^^ rsMul s0 y) (rsInv (x ^^^ y))
        some (fix (fix c p e) q (s0 ^^^ e), 2)
      | _ => none

/-- Every fourth element from `i`. -/
def everyFourth (l : List Nat) (i : Nat) : Nat → List Nat
  | 0 => []
  | n + 1 => l.getD i 0 :: everyFourth l (i + 4) n

/-- Elements of four interleaves taken in turn. -/
def interleave (a b c d : List Nat) : List Nat :=
  ((List.zip (List.zip a b) (List.zip c d)).map fun t => [t.1.1, t.1.2, t.2.1, t.2.2]).flatten

/-- The 16 parity bytes of flit bytes 0 to 271. -/
def flitParity (body : List Nat) : List Nat :=
  let par := fun i => rsParity (everyFourth body i 68)
  interleave (par 0) (par 1) (par 2) (par 3)

/-- FEC of a whole flit: corrected bytes and symbols corrected, or none (R78, R80). -/
def flitFec (flit : List Nat) : Option (List Nat × Nat) :=
  match rsDecode (everyFourth flit 0 72), rsDecode (everyFourth flit 1 72),
        rsDecode (everyFourth flit 2 72), rsDecode (everyFourth flit 3 72) with
  | some a, some b, some c, some d => some (interleave a.1 b.1 c.1 d.1, a.2 + b.2 + c.2 + d.2)
  | _, _, _, _ => none

/-! ### CRC-64 and CRC-16 -/

def crcStep (width poly : Nat) : Nat → Nat → Nat
  | 0, c => c
  | n + 1, c => crcStep width poly n (if (c >>> (width - 1)) % 2 = 1 then ((c <<< 1) % 2 ^ width) ^^^ poly else (c <<< 1) % 2 ^ width)

def crc64Byte (c : Nat) (b : Nat) : Nat := crcStep 64 0x42F0E1EBA9EA3693 8 (c ^^^ (b <<< 56))

/-- CRC-64 of a prefix and flit bytes 0 to 263 (R79). -/
def flitCrc (pre : Nat) (body : List Nat) : Nat :=
  ((pre % 256) :: (pre / 256 % 256) :: body).foldl crc64Byte 0xFFFFFFFFFFFFFFFF ^^^ 0xFFFFFFFFFFFFFFFF

/-- CRC-16 of payload bytes 0 to 13 of a control block (R95). -/
def crc16 (bs : List Byte) : Nat := bs.foldl (fun c b => crcStep 16 0x1021 8 (c ^^^ (b.toNat <<< 8))) 0xFFFF

/-! ### The flit (R72, R73) -/

/-- The fields of a link header. -/
structure LinkHeader where
  kind : Nat := 1
  slotMap : Nat := 0
  ackSeq : Nat := 0
  nak : Bool := false
  nakRound : Bool := false
  crTc : Nat := 0
  crHdr : Nat := 0
  crData : Nat := 0
  opAbort : Bool := false
  deriving DecidableEq, Repr

def LinkHeader.word (h : LinkHeader) : Nat :=
  at_ 62 (h.kind % 4) + at_ 54 (h.slotMap % 256) + at_ 44 (h.ackSeq % 1024) + at_ 43 (b2n h.nak) + at_ 42 (b2n h.nakRound) +
  at_ 39 (h.crTc % 8) + at_ 27 (h.crHdr % 4096) + at_ 11 (h.crData % 65536) + at_ 10 (b2n h.opAbort)

def LinkHeader.of (w : Nat) : LinkHeader :=
  { kind := bits w 62 2, slotMap := bits w 54 8, ackSeq := bits w 44 10, nak := bit w 43, nakRound := bit w 42,
    crTc := bits w 39 3, crHdr := bits w 27 12, crData := bits w 11 16, opAbort := bit w 10 }

/-- The 288 bytes of a flit: header, four 64-byte slots, CRC and parity. -/
def flitBytes (h : LinkHeader) (slots : List Byte) (pre : Nat) : List Byte :=
  let body := (leBytes 8 h.word ++ fitBytes 256 slots).map BitVec.toNat
  let crc := (leBytes 8 (flitCrc pre body)).map BitVec.toNat
  let all := body ++ crc
  (all ++ flitParity all).map (BitVec.ofNat 8)

/-! ### Control blocks -/

/-- A payload with its CHECK over bytes 0 to 13. -/
def withCheck (w : Nat) : Nat := w % 2 ^ 112 + at_ 112 (crc16 (leBytes 14 w))

/-- The CHECK of a payload is right. -/
def checkOk (w : Nat) : Bool := bits w 112 16 = crc16 (leBytes 14 w)

/-- The ALIGN payload of a lane (R59). -/
def alignBlock (width laneNum : Nat) : Nat :=
  0x1E + at_ 8 laneNum + at_ 16 width + at_ 32 0x0F0F0F0F0F0F0F0F0F0F0F0F

/-- A true ALIGN image. -/
def isAlign (w : Nat) : Bool := bits w 0 8 = 0x1E && bits w 32 96 = 0x0F0F0F0F0F0F0F0F0F0F0F0F

/-- A payload read with every symbol x replaced by (2 − x) mod 4 and so bits pairs 0b00 and 0b11 swapped (R62). -/
def invertPayload (w : Nat) : Nat :=
  (List.range 64).foldl (fun acc i =>
    let a := bit w (2 * i)
    let b := bit w (2 * i + 1)
    if a = b then acc + (if a then 0 else 3) * 4 ^ i else acc + bits w (2 * i) 2 * 4 ^ i) 0

/-- The inverted ALIGN image: CTL_TYPE 0xD2 and pattern bytes 0xF0 (R62). -/
def isInvertedAlign (w : Nat) : Bool := bits w 0 8 = 0xD2 && bits w 32 96 = 0xF0F0F0F0F0F0F0F0F0F0F0F0

/-- The TS1 payload (R97). -/
def ts1Block (nonce mask gport pers cap212 valid laneNum width : Nat) : Nat :=
  withCheck (0x40 + at_ 8 width + at_ 16 laneNum + at_ 58 valid + at_ 59 1 + at_ 60 cap212 + at_ 61 pers + at_ 63 gport +
    at_ 80 mask + at_ 96 nonce)

/-- The TS2 payload (R98). -/
def ts2Block (nonce set width rate leader laneNum cfgWidth : Nat) : Nat :=
  withCheck (0x41 + at_ 8 cfgWidth + at_ 16 laneNum + at_ 70 leader + at_ 71 rate + at_ 72 width + at_ 80 set + at_ 96 nonce)

def creditInitBlock (tc h d : Nat) : Nat := withCheck (0x48 + at_ 8 tc + at_ 32 h + at_ 44 d)
def flitStartBlock (replay : Bool) (seq : Nat) : Nat := withCheck (0x50 + at_ 8 seq + at_ 18 (b2n replay))
def retrainReqBlock (cause : Nat) : Nat := withCheck (0x58 + at_ 8 cause)

end Sys2Proof.Machine
end

