-- ==== Sys2Proof/Machine/Lanes.lean ====
section
/-!
DEFINITION. The reed and the weft lanes: which lanes a port has (R42 to R46), block lock and polarity (R57, R58, R62), the
freeze of adaptation (R65, R66) and margining (R67, R68).
-/

namespace Sys2Proof.Machine

/-! ### The reed (R42 to R49) -/

def split (s : State) (k : Nat) : Nat := cfgv s 0x3001 (k + 1)

/-- The lanes a slot takes under a split: first lane within the octet and how many; none where the slot does not exist. -/
def slotLanes (sp k j : Nat) (x1 : Bool) : Option (Nat × Nat) :=
  let two := fun base => some (base, if x1 then 1 else 2)
  match sp, j with
  | 1, 0 => some (0, 8)
  | 2, 0 => some (0, 4)
  | 2, 2 => some (4, 4)
  | 3, 0 => some (0, 4)
  | 3, 2 => two 4
  | 3, 3 => two 6
  | 4, j => if j < 4 then two (2 * j) else none
  | 5, 0 => if k % 2 = 0 then some (0, 16) else none
  | _, _ => none

/-- A port's first global lane and configured width (R42 to R44). -/
def portLanes (s : State) (p : Nat) : Option (Nat × Nat) :=
  let k := p / 4
  match slotLanes (split s k) k (p % 4) (bit (cfgv s 0x3002 (k + 1)) (p % 4)) with
  | some (b, n) => some (8 * k + b, n)
  | none => none

def isWeft (s : State) (p : Nat) : Bool := personality s p = 2 || personality s p = 3
def isTwinPort (s : State) (p : Nat) : Bool := personality s p = 3

def portWidth (s : State) (p : Nat) : Nat :=
  match portLanes s p with
  | some (_, n) => n
  | none => 0

/-- The reference clock an enabled port runs from (R49). -/
def portClock (s : State) (p : Nat) : Nat := if isWeft s p then 8 + p / 4 / 16 else p / 16

def clockOk (s : State) (p : Nat) : Bool := !bit s.lanes.refLost (portClock s p)

def laneOf (s : State) (l : Nat) : LaneState := vget s.lanes.lane l {}
def setLane (s : State) (l : Nat) (x : LaneState) : State := { s with lanes := { s.lanes with lane := vset s.lanes.lane l x } }

/-- The enabled port a lane belongs to, and its number within the port. -/
def lanePort (s : State) (l : Nat) : Option (Nat × Nat) :=
  let k := l / 8
  let slots := (List.range 4).map (4 * k + ·) ++ [4 * (k / 2 * 2)]
  match slots.find? fun p => personality s p ≠ 0 &&
      (match portLanes s p with | some (b, n) => b ≤ l && l < b + n | none => false) with
  | some p =>
    match portLanes s p with
    | some (b, _) => some (p, l - b)
    | none => none
  | none => none

def weftPort (s : State) (p : Nat) : WeftPort := vget s.weft.port p {}
def setWeft (s : State) (p : Nat) (x : WeftPort) : State := { s with weft := { s.weft with port := vset s.weft.port p x } }

/-- Every lane of a port put in a state. -/
def setPortLanes (s : State) (p : Nat) (f : LaneState → LaneState) : State :=
  match portLanes s p with
  | some (b, n) => (List.range n).foldl (fun s j => setLane s (b + j) (f (laneOf s (b + j)))) s
  | none => s

/-- The receiver of a lane starts afresh. DESIGN CHOICE (log entry 104): the spec does not say whether a detected inversion
outlasts a loss of lock; `polSeen` stays, so that an inverted lane that locks again writes no second event 0x0203. -/
def laneFresh (x : LaneState) : LaneState :=
  { x with valid := 0, history := [], polChecked := false, seenNum := none, aligns := [], pos := 0, skip := 0, fifo := [] }

def laneIdle (x : LaneState) : LaneState := { laneFresh x with st := .idle }
def laneHunts (now : Nat) (x : LaneState) : LaneState := { laneFresh x with st := .hunting, huntSince := now }

/-- The port lanes that are aligned and show the right PORT_WIDTH: RX_LANE_MASK (R97). -/
def alignedMask (s : State) (p : Nat) : Nat :=
  match portLanes s p with
  | some (b, n) => ((List.range n).map fun j => if (laneOf s (b + j)).st = .aligned then 2 ^ j else 0).sum
  | none => 0

/-! ### Block lock (R57, R58) -/

/-- Headers 0b01, a data block, and 0b10, a control block, are valid (R54). -/
def validHeader (h : Nat) : Bool := h = 1 || h = 2

/-- BLOCK_LOCK_ACQUIRED (R57): 64 consecutive valid headers. -/
def blockLockAcquired (l : Nat) (s : State) : State :=
  let x := laneOf s l
  if x.st = .hunting ∧ 64 ≤ x.valid then
    event (setLane s l { x with st := .locked, history := [], polChecked := false, alignAt := s.now }) 0x0200 0 l
  else s

def execBlockLockAcquired (l : Lane) (s : State) : Host.Outcome State Fault Refusal := .next (blockLockAcquired l s)

/-- Invalid headers among the last 64. -/
def invalidHeaders (x : LaneState) : Nat := (x.history.filter fun v => !v).length

/-- The lane returns to hunting; event 0x0201. -/
def lockLost (l : Nat) (s : State) : State :=
  let x := laneOf s l
  event (setLane s l (laneHunts s.now x)) 0x0201 0 (l + at_ 16 (invalidHeaders x))

/-- LANE_LOCK_TIMEOUT (R58). -/
def laneLockTimeout (l : Nat) (s : State) : State :=
  let x := laneOf s l
  if x.st = .hunting ∧ elapsed s x.huntSince (100 * us) then event (setLane s l { x with st := .failed }) 0x0202 0 l else s

def execLaneLockTimeout (l : Lane) (s : State) : Host.Outcome State Fault Refusal := .next (laneLockTimeout l s)

/-! ### Alignment and polarity (R59 to R62) -/

/-- The polarity a lane's setting gives it: 1 normal, 2 inverted, or the one seen (R62). -/
def lanePolarity (s : State) (l : Nat) : Nat := cfgv s (if l < 128 then 0x3012 else 0x3013) (l % 128 + 1)

/-- Three ALIGN periods, ns, at the lane's rate (R59, R62). -/
def threeAligns (rate : Nat) : Nat := if rate = 2 then 30070 else 15035

/-! ### The freeze of adaptation (R65, R66) -/

/-- A margining run ends early (R68): status 3 by a freeze, 4 by the link; event 0x020B. -/
def marginAbort (s : State) (status : Nat) : State :=
  match s.lanes.run with
  | some r => event { s with lanes := { s.lanes with run := none, marginStatus := status } } 0x020B 0 (r.lane + at_ 16 status)
  | none => s

def freezeBegin (s : State) (installer : Bool) : State :=
  let s := { s with lanes := { s.lanes with frozen := some (installer, s.now), freezeHeld := none, thawed := [] } }
  marginAbort (event s 0x0208 0 (at_ 16 (b2n installer))) 3

def freezeEnd (s : State) : State :=
  match s.lanes.frozen with
  | some (_, t) =>
    event { s with lanes := { s.lanes with frozen := none, thawed := [], freezeEnd := some s.now } } 0x0209 0
      (at_ 16 ((s.now - t) / us % 2 ^ 32))
  | none => s

/-- The 20 ms gap after a freeze has passed. -/
def gapPassed (s : State) : Bool :=
  match s.lanes.freezeEnd with
  | some t => t + 20 * ms ≤ s.now
  | none => true

/-- A request for a freeze: it joins one that is active or held, waits out the gap, or begins one. -/
def freezeRequest (s : State) (installer : Bool) : State :=
  if s.lanes.frozen.isSome ∨ s.lanes.freezeHeld.isSome then s
  else if gapPassed s then freezeBegin s installer
  else { s with lanes := { s.lanes with freezeHeld := some installer } }

/-- The end of a cause: an installer's write of 0, or the treadle's. -/
def freezeRelease (s : State) (installer : Bool) : State :=
  match s.lanes.frozen with
  | some (i, _) => if i = installer then freezeEnd s else s
  | none => if s.lanes.freezeHeld = some installer then { s with lanes := { s.lanes with freezeHeld := none } } else s

/-- ADAPT_FREEZE (R65): by the treadle, or by a session's write of the CONTROL object 0x3030:01. -/
def adaptFreeze (by_ : FreezeBy) (s : State) : State :=
  match by_ with
  | .treadle true => freezeRequest s false
  | .treadle false => freezeRelease s false
  | .session sess v =>
    if s.module.pause.isSome then { s with mgmt := { s.mgmt with heldWrites := s.mgmt.heldWrites ++ [(sess, 0x3030, 1, v)] } }
    else
      let st := writeRefusal s sess 0x3030 1 v
      emit (if st ≠ 0 then s else if v = 1 then freezeRequest s true else freezeRelease s true) (.status sess 0x3030 1 st)

def execAdaptFreeze (by_ : FreezeBy) (s : State) : Host.Outcome State Fault Refusal := .next (adaptFreeze by_ s)

/-- ADAPT_FREEZE_END (R65): the 2 ms cap. -/
def adaptFreezeEnd (s : State) : State :=
  match s.lanes.frozen with
  | some (_, t) => if elapsed s t (2 * ms) then freezeEnd s else s
  | none => s

def execAdaptFreezeEnd (s : State) : Host.Outcome State Fault Refusal := .next (adaptFreezeEnd s)

/-- ADAPT_FREEZE_HELD_START (R66). -/
def adaptFreezeHeldStart (s : State) : State :=
  match s.lanes.freezeHeld with
  | some i => if gapPassed s ∧ s.lanes.frozen.isNone then freezeBegin s i else s
  | none => s

def execAdaptFreezeHeldStart (s : State) : Host.Outcome State Fault Refusal := .next (adaptFreezeHeldStart s)

/-! ### Margining (R67, R68) -/

/-- The lane belongs to a weft or twin port in ACTIVE. -/
def marginLane (s : State) (l : Nat) : Bool :=
  match lanePort s l with
  | some (p, _) => isWeft s p && (weftPort s p).link = .active
  | none => false

def marginCheck (s : State) (sess : Nat) : Nat :=
  if s.lanes.run.isSome || !marginLane s (param s sess 0x3020 1) || s.lanes.frozen.isSome then 5 else 0

/-- The effect of MARGIN_START 1: a run from the centre, negative side first. -/
def actMarginStart (sess : Nat) (s : State) : State :=
  { s with lanes := { s.lanes with
      run := some { lane := param s sess 0x3020 1, axis := param s sess 0x3020 2, limit := param s sess 0x3020 3,
                    positive := false, step := 1, since := s.now }
      marginStatus := 1, marginNeg := 0, marginPos := 0 } }

/-- A refused start shows in MARGIN_STATUS as 5. DESIGN CHOICE (log entry 105): the spec does not say what the object reads when
the start is refused because a run is active; it keeps 1, running. -/
def marginRefused (s : State) : State :=
  if s.lanes.run.isSome then s else { s with lanes := { s.lanes with marginStatus := 5 } }

def execMarginStart (sess value : Nat) (s : State) : Host.Outcome State Fault Refusal :=
  .next (actWrite s sess 0x3020 4 value (if value = 1 then marginCheck s sess else 0) marginRefused (onOne value (actMarginStart sess)))

/-- One step of 1 ms has ended (R67): the side stops at the first step over the limit, or at step 63. -/
def marginStep (errors : Nat) (s : State) : State :=
  match s.lanes.run with
  | none => s
  | some r =>
    if ¬ elapsed s r.since ms then s
    else if errors ≤ r.limit ∧ r.step < 63 then
      { s with lanes := { s.lanes with run := some { r with step := r.step + 1, since := s.now } } }
    else
      let last := if errors ≤ r.limit then 63 else r.step - 1
      if r.positive then
        let s := { s with lanes := { s.lanes with run := none, marginStatus := 2, marginPos := last } }
        event s 0x020A 0 (r.lane + at_ 16 s.lanes.marginNeg + at_ 24 last)
      else
        { s with lanes := { s.lanes with marginNeg := last, run := some { r with positive := true, step := 1, since := s.now } } }

def execMarginStep (errors : Nat) (s : State) : Host.Outcome State Fault Refusal := .next (marginStep errors s)

end Sys2Proof.Machine
end

