-- ==== Sys2Proof/Machine/Line.lean ====
section
/-!
DEFINITION. The line of a weft port and the edge of every port: the edge FIFOs (R30, R31), blocks sent with scrambling,
precoding and the lane's transmit preset (R53 to R55, R64), data rows and link-level rows (R76, R77, R95), and on the receive
side the blocks of the trained lanes joined into rows again: deskew (R60), clock compensation (R51, R61), and the flits that
the data rows carry.
-/

namespace Sys2Proof.Machine

/-! ### Edge FIFOs (R30, R31) -/

/-- Full as the write side sees it: 16 entries between its own pointer and the read pointer behind two synchroniser stages. -/
def EdgeFifo.full (f : EdgeFifo) : Bool := (grayCount f.wr + 32 - grayCount f.rdStage2) % 32 = 16

/-- Empty as the read side sees it: its own pointer has reached the write pointer behind two synchroniser stages. -/
def EdgeFifo.empty (f : EdgeFifo) : Bool := f.wrStage2 = f.rd

/-- The port writes an entry, unless the FIFO shows full. -/
def EdgeFifo.put (f : EdgeFifo) (n : Nat) : EdgeFifo :=
  if f.full then f else { f with entries := f.entries ++ [n], wr := grayNext f.wr }

/-- The far side reads an entry, unless the FIFO shows empty. -/
def EdgeFifo.take (f : EdgeFifo) : EdgeFifo :=
  if f.empty then f else { f with entries := f.entries.drop 1, rd := grayNext f.rd }

/-- Each side's clock steps the synchroniser that samples the other side's pointer. -/
def EdgeFifo.sync (f : EdgeFifo) : EdgeFifo :=
  { f with wrStage2 := f.wrStage1, wrStage1 := f.wr, rdStage2 := f.rdStage1, rdStage1 := f.rd }

/-- An item crosses entry by entry: written, seen two steps later, read, and seen to be read two steps later. -/
def EdgeFifo.cross : List Nat → EdgeFifo → EdgeFifo
  | [], f => f
  | n :: ns, f => EdgeFifo.cross ns (f.put n).sync.sync.take.sync.sync

/-- The entries that `n` bytes fill: 64 bytes each, the last one what is left. -/
def edgeEntries (n : Nat) : List Nat :=
  List.replicate (n / 64) 64 ++ (if n % 64 = 0 then [] else [n % 64])

/-- `n` bytes cross the edge of a port, into the module or out of it. -/
def edgeCross (s : State) (p : Nat) (out : Bool) (n : Nat) : State :=
  let i := 2 * p + b2n out
  { s with lanes := { s.lanes with edge := vset s.lanes.edge i ((vget s.lanes.edge i {}).cross (edgeEntries n)) } }

/-! ### Sending blocks (R53 to R56, R64) -/

def txPreset (s : State) (l : Nat) : Nat := cfgv s (if l < 128 then 0x3016 else 0x3017) (l % 128 + 1)

/-- The scrambler runs over data blocks and link-level control blocks only (R55, R56). -/
def scrambled (header payload : Nat) : Bool := header = 1 || 64 ≤ payload % 256

/-- A block leaves a lane. -/
def sendBlock (s : State) (l header payload : Nat) : State :=
  let x := laneOf s l
  let out := if scrambled header payload then scramble x.txScr (wordBits 128 payload) else wordBits 128 payload
  let ys := precodeAll x.txLevel (blockSymbols header (bitsWord out))
  let s := setLane s l { x with
    txLevel := ys.getLastD x.txLevel
    txScr := if scrambled header payload then scramblerAfter x.txScr out else x.txScr }
  emit s (.block l (presetTaps (txPreset s l)) (levelsWord ys))

/-- The global lanes of a port that are in a set of its port lanes, lowest first. -/
def lanesIn (s : State) (p set : Nat) : List Nat :=
  match portLanes s p with
  | some (b, n) => (setBits n set).map (b + ·)
  | none => []

def trainedLanes (s : State) (p : Nat) : List Nat := lanesIn s p (weftPort s p).lanes

/-- One block on each of some lanes: its payload by the lane's place among them. -/
def sendOn (s : State) (ls : List Nat) (header : Nat) (payload : Nat → Nat) : State :=
  (ls.zipIdx).foldl (fun s x => sendBlock s x.1 header (payload x.2)) s

/-- The bytes of a row of width `w` that lane `i` of the trained lanes carries: groups i, i + w, i + 2w, i + 3w (R76). -/
def rowPayload (w : Nat) (row : List Byte) (i : Nat) : Nat :=
  leNat ((List.range 4).flatMap fun k => (row.drop (4 * (i + k * w))).take 4)

/-- The bytes of a row from the payloads of its lanes, in order. -/
def rowBytes (payloads : List Nat) : List Byte :=
  (List.range 4).flatMap fun k => payloads.flatMap fun w => leBytes 4 (w >>> (32 * k))

/-- One data row. -/
def sendDataRow (s : State) (p : Nat) (row : List Byte) : State :=
  let ls := trainedLanes s p
  sendOn s ls 1 (rowPayload ls.length row)

/-- Rows are sent while the bytes waiting fill one; `fuel` bounds how many. -/
def sendRows : Nat → Nat → State → State
  | 0, _, s => s
  | fuel + 1, p, s =>
    let x := weftPort s p
    let w := (trainedLanes s p).length
    if w = 0 ∨ x.txRow.length < 16 * w then s
    else sendRows fuel p (sendDataRow (setWeft s p { x with txRow := x.txRow.drop (16 * w) }) p (x.txRow.take (16 * w)))

/-- A flit's groups follow those of the previous flit with no gap (R76). -/
def sendFlit (s : State) (p : Nat) (bytes : List Byte) : State :=
  let x := weftPort s p
  let s := emit s (.flit p bytes)
  sendRows 5 p (setWeft s p { x with txRow := x.txRow ++ bytes })

/-- The rest of the row begun is filled with zeros (R77). -/
def fillRow (s : State) (p : Nat) : State :=
  let x := weftPort s p
  if x.txRow.isEmpty then s
  else sendDataRow (setWeft s p { x with txRow := [] }) p (fitBytes (16 * (trainedLanes s p).length) x.txRow)

/-- A link-level row: the same block on every trained lane, after the row that the last flit ends in (R77, R95). -/
def sendRow (s : State) (p w : Nat) : State :=
  let s := emit (fillRow s p) (.row p w)
  sendOn s (trainedLanes s p) 2 fun _ => w

/-! ### ALIGN positions (R59) -/

/-- The rate the port's transmitter runs at: the one being trained until agreement, then the trained one. -/
def lineRate (x : WeftPort) : Nat :=
  if x.link = .training ∨ (x.link = .retrain ∧ ¬ x.agreed) then x.trainRate else x.rate

/-- A block's time in units of 1/10625 ns: 65 symbols of 106.25 or 53.125 GBd. -/
def blockTime (rate : Nat) : Nat := if rate = 2 then 13000 else 6500

/-- The block position the transmitter has reached since it began to send at this rate. -/
def blockPosition (s : State) (x : WeftPort) : Nat := (s.now - x.lineSince) * 10625 / blockTime (lineRate x)

/-- The next ALIGN position has come. -/
def alignDue (s : State) (x : WeftPort) : Bool := 8192 * x.alignPos ≤ blockPosition s x

/-- The width that ALIGN blocks carry and that a receiver expects in them: the configured one while lanes are chosen, the
trained one after (R60, R102). -/
def alignWidth (s : State) (p : Nat) : Nat :=
  let x := weftPort s p
  if x.link = .aligned ∨ x.link = .active ∨ (x.link = .retrain ∧ x.agreed) then x.width else portWidth s p

/-! ### Receiving blocks (R53 to R62) -/

/-- The receiver of the lane inverts it: its setting, or for an automatic lane what it has seen (R62). -/
def laneInverted (s : State) (l : Nat) : Bool :=
  lanePolarity s l = 2 || (lanePolarity s l = 0 && (laneOf s l).polSeen = 2)

/-- The adaptation of a lane stands still (R65, R106). -/
def laneFrozen (s : State) (l : Nat) : Bool :=
  s.lanes.frozen.isSome && !(match lanePort s l with
    | some (p, _) => s.lanes.thawed.contains p
    | none => false)

/-- The equalisers of a locked lane adapt with every block, unless frozen (R64, R65). -/
def adaptLane (s : State) (l : Nat) : State :=
  if laneFrozen s l then s else afterFree (setLane s l { laneOf s l with coef := freeValue s })

/-- What a control block is, from its payload as it came and as the descrambler gives it. DEDUCED (log entry 106): scrambling
hides whether a block is link-level; a block is an ALIGN by its whole image, link-level when its descrambled type is and its
CHECK is right, lane-level when its type as it came is below 0x40, and otherwise a damaged link-level block. -/
inductive ControlKind where
  | align | laneLevel | linkLevel
  deriving DecidableEq, Repr

def controlKind (raw clear : Nat) : ControlKind :=
  if isAlign raw ∨ isInvertedAlign raw then .align
  else if 64 ≤ clear % 256 ∧ checkOk clear then .linkLevel
  else if raw % 256 < 64 then .laneLevel
  else .linkLevel

/-- The trained lanes of a port in the order of the LANE_NUM they show, which undoes reversal and any other order (R60). -/
def orderedLanes (s : State) (p : Nat) : List Nat :=
  sortBy (fun a b => (laneOf s a).seenNum.getD 16 ≤ (laneOf s b).seenNum.getD 16) (trainedLanes s p)

/-- Rows begin over the newly trained lanes: a lane that lags drops the blocks that another lane has already passed. Two ALIGN
blocks within 12 ns are the same one (R60). -/
def startRows (s : State) (p : Nat) : State :=
  let ls := trainedLanes s p
  let latest := (ls.map fun l => (laneOf s l).lineAlignAt).foldl max 0
  let at_ := fun l => let x := laneOf s l; x.pos + (if latest ≤ x.lineAlignAt + 12 then 8192 else 0)
  let far := (ls.map at_).foldl max 0
  let s := ls.foldl (fun s' l => setLane s' l { laneOf s' l with skip := far - at_ l, fifo := [] }) s
  setWeft s p { weftPort s p with rowing := true, gathered := none, txRow := [], rx := [], drift := 0, rowAlignAt := none }

/-- Flits cut from the bytes gathered. -/
def cutFlits : Nat → List Byte → List (List Byte) × List Byte
  | 0, bs => ([], bs)
  | n + 1, bs =>
    if bs.length < 288 then ([], bs)
    else
      let r := cutFlits n (bs.drop 288)
      (bs.take 288 :: r.1, r.2)

/-- A data row: its groups join those gathered since the FLIT_START (R76, R77). -/
def takeDataRow (s : State) (p : Nat) (payloads : List Nat) : State :=
  let x := weftPort s p
  match x.gathered with
  | none => s
  | some g =>
    let r := cutFlits 2 (g ++ rowBytes payloads)
    setWeft s p { x with rx := x.rx ++ r.1.map .flit, gathered := some r.2 }

/-- A link-level row: acted on only when every lane carries the same block and its CHECK is right; else counted and ignored; an
undefined type is discarded (R95). A flit begins in the first data row after a FLIT_START (R77). -/
def takeControlRow (s : State) (p : Nat) (payloads : List Nat) : State :=
  let x := weftPort s p
  match payloads with
  | [] => s
  | w :: ws =>
    if ¬ ws.all (· = w) ∨ ¬ checkOk w then count s (ctrPort p 9) 1
    else if bits w 0 8 = 0x50 then setWeft s p { x with rx := x.rx ++ [.row w], gathered := some [] }
    else if bits w 0 8 = 0x48 ∨ bits w 0 8 = 0x58 then setWeft s p { x with rx := x.rx ++ [.row w], gathered := none }
    else setWeft s p { x with gathered := none }

/-- An ALIGN row drives the clock compensation: late by a block it is repeated, early by a block deleted, on all lanes together
(R51, R61). -/
def takeAlignRow (s : State) (p cameAt : Nat) : State :=
  let x := weftPort s p
  let b := blockTime x.rate
  let d : Int := match x.rowAlignAt with
    | some t => x.drift + ((cameAt - t) * 10625 : Nat) - (8192 * b : Nat)
    | none => x.drift
  let x := { x with rowAlignAt := some cameAt }
  if (b : Int) ≤ d then setWeft s p { x with drift := d - b, repeated := x.repeated + 1, rowsOut := x.rowsOut + 2 }
  else if d ≤ -(b : Int) then setWeft s p { x with drift := d + b, deleted := x.deleted + 1 }
  else setWeft s p { x with drift := d, rowsOut := x.rowsOut + 1 }

/-- The lanes whose ALIGN came more than 12 ns after the first one of its row (R60). -/
def skewedLanes (ls : List Nat) (heads : List RxBlock) : List Nat :=
  let first := match heads with
    | b :: bs => (bs.map RxBlock.cameAt).foldl min b.cameAt
    | [] => 0
  ((ls.zip heads).filter fun x => first + 12 < x.2.cameAt).map Prod.fst

/-- A row is complete when every trained lane has a block for it. It gives the lanes found beyond the tolerated skew. -/
def formRow (s : State) (p : Nat) : State × List Nat :=
  let x := weftPort s p
  let ls := orderedLanes s p
  let heads := ls.filterMap fun l => (laneOf s l).fifo.head?
  if ¬ x.rowing ∨ ls.isEmpty ∨ heads.length < ls.length then (s, [])
  else
    let s := ls.foldl (fun s l => setLane s l { laneOf s l with fifo := (laneOf s l).fifo.drop 1 }) s
    let row := fun k => heads.all fun b => decide (b.kind = k)
    let counted := fun s => setWeft s p { weftPort s p with rowsOut := x.rowsOut + 1 }
    if row .align then
      let late := skewedLanes ls heads
      if late.isEmpty then (takeAlignRow s p ((heads.map RxBlock.cameAt).foldl max 0), []) else (s, late)
    else if row .data then (takeDataRow (counted s) p (heads.map RxBlock.payload), [])
    else if row .control then (takeControlRow (counted s) p (heads.map RxBlock.payload), [])
    else if row .other then (counted s, [])
    else (count (counted s) (ctrPort p 9) 1, [])

/-- A block joins the queue of its lane: dropped while the lane catches up with the others. -/
def queueBlock (x : LaneState) (rowing : Bool) (b : RxBlock) : LaneState :=
  if 0 < x.skip then { x with skip := x.skip - 1 } else if rowing then { x with fifo := x.fifo ++ [b] } else x

/-- A block with a lane's own numbers, once the lane is locked: descrambled, sorted by its kind, and put where it is used. DESIGN
CHOICE (log entry 106): a block with an invalid header takes its place in the row as data. -/
def sortBlock (s : State) (l header raw : Nat) : State :=
  let x := laneOf s l
  let clear := bitsWord (descramble x.rxScr (wordBits 128 raw))
  let descrambled := { x with rxScr := scramblerAfter x.rxScr (wordBits 128 raw), pos := x.pos + 1 }
  match lanePort s l with
  | none => s
  | some (p, j) =>
    let y := weftPort s p
    let own := y.rowing && bit y.lanes j
    if header ≠ 2 then setLane s l (queueBlock descrambled own { kind := .data, payload := clear, cameAt := s.now })
    else match controlKind raw clear with
    | .align =>
      setLane s l (queueBlock { x with aligns := x.aligns ++ [raw], pos := 0, lineAlignAt := s.now } own
        { kind := .align, payload := raw, cameAt := s.now })
    | .laneLevel =>
      setLane s l (queueBlock { x with unknown := x.unknown + (if raw % 256 = 0x1E then 0 else 1), pos := x.pos + 1 } own
        { kind := .other, payload := raw, cameAt := s.now })
    | .linkLevel =>
      let ts := bits clear 0 8 = 0x40 ∨ bits clear 0 8 = 0x41
      let s := setLane s l (queueBlock descrambled own
        { kind := if ts then .other else .control, payload := clear, cameAt := s.now })
      if ts then setWeft s p { y with ts := y.ts ++ [(j, clear)] } else s

end Sys2Proof.Machine
end

