-- ==== Sys2Proof/Machine/Weft.lean ====
section
/-!
DEFINITION. The weft link layer (R72 to R111): block and ALIGN reception, training, credits, flits, acknowledgement and replay
of each weft and twin port. What the link hands upwards waits in `weft.arrived` and `weft.downed`; the fabric's file takes it from there.
-/

namespace Sys2Proof.Machine

/-! ### Small counters of a port -/

def ctrWeft (s : State) (p c n : Nat) : State := count s (ctrPort p c) n

/-- The enabled classes of a port; TC0 always is (R103). -/
def tcEnable (s : State) (p : Nat) : Nat := putBit (cfgv s 0x3204 (p + 1) % 256) 0 true

def advHdr (s : State) (p tc : Nat) : Nat := if bit (tcEnable s p) tc then cfgv s 0x3205 (p + 1) else 0
def advData (s : State) (p tc : Nat) : Nat := if bit (tcEnable s p) tc then cfgv s 0x3206 (p + 1) else 0

/-- The module's global port number, and whether a MID is assigned (R97). -/
def midValid (s : State) : Bool := cfgv s 0x4100 1 < 1024
def gport (s : State) (p : Nat) : Nat := if midValid s then cfgv s 0x4100 1 * 128 + p else p

/-! ### Going down, failing and retraining -/

/-- The port's link-level state is discarded (R105); its training record and its counts of attempts stay. DESIGN CHOICE (log
entry 107): R105 speaks only of operations that were being sent; one handed to the port whose first slot has not gone is
dropped with them. -/
def clearedLink (x : WeftPort) (now : Nat) : WeftPort :=
  { link := .down, since := now, idleSince := now, fails := x.fails, lastCause := x.lastCause, peer := x.peer,
    deleted := x.deleted, repeated := x.repeated, rowsOut := x.rowsOut }

/-- Change the operation that port `d` relays from ingress `p` (R177). -/
def withRelay (s : State) (d p : Nat) (f : OutOp → Option OutOp) : State :=
  let y := weftPort s d
  setWeft s d { y with out := y.out.filterMap fun o => if o.relay = some p && !o.whole then f o else some o }

/-- An operation that is relayed ends without its rest (R178): with OP_ABORT when its first slot has gone, else not at all. -/
def endRelay (s : State) (d p : Nat) : State :=
  withRelay s d p fun o => if o.started then some { o with abort := true, whole := true } else none

/-- An ingress goes down: the operation it was bringing to a cut-through egress ends there. -/
def breakRelay (s : State) (p : Nat) : State :=
  match (weftPort s p).relayTo with
  | some (d, c) => endRelay { s with weft := { s.weft with broken := s.weft.broken ++ [(d, p, c)] } } d p
  | none => s

/-- DOWN from any state but FAILED; a departure that the blocks above must act on is noted. -/
def linkDown (s : State) (p cause : Nat) : State :=
  let s := breakRelay s p
  let x := weftPort s p
  let sev := if 15 ≤ cause && cause ≤ 17 then 2 else 0
  let was := x.link = .active || x.link = .retrain
  let s := setWeft s p { clearedLink x s.now with lastCause := cause }
  let s := setPortLanes s p laneIdle
  let s := eventFull s 0x0223 p sev none false (p + at_ 16 cause)
  let s := match s.lanes.run with
    | some r => if (lanePort s r.lane).map Prod.fst = some p then marginAbort s 4 else s
    | none => s
  if was then { s with weft := { s.weft with downed := s.weft.downed ++ [p] } } else s

/-- The selvedge has an error of this port to classify (R343). -/
def weftError (s : State) (p cause : Nat) : State := { s with weft := { s.weft with errs := s.weft.errs ++ [(p, cause)] } }

/-- A protocol error (R74, R83, R92): events 0x0226 and 0x0223. -/
def protocolError (s : State) (p cause : Nat) : State := linkDown (weftError (eventFull s 0x0226 p 2 none false (p + at_ 16 cause)) p 18) p cause

/-- FAILED: event 0x0224. -/
def linkFailed (s : State) (p cause : Nat) : State :=
  let s := breakRelay s p
  let x := weftPort s p
  let was := x.link = .active || x.link = .retrain
  let s := setWeft s p { clearedLink x s.now with link := .failed, lastCause := cause }
  let s := event (setPortLanes s p laneIdle) 0x0224 p (p + at_ 16 cause)
  let s := health (weftError s p 19) 0x0224
  if was then { s with weft := { s.weft with downed := s.weft.downed ++ [p] } } else s

/-- A failed attempt (R100): event 0x0225, and FAILED at WEFT_TRAIN_LIMIT. -/
def attemptFailed (s : State) (p cause : Nat) : State :=
  let x := weftPort s p
  let n := x.fails + 1
  let s := setWeft s p { clearedLink x s.now with fails := n, lastCause := cause }
  let s := event (setPortLanes s p laneIdle) 0x0225 p (p + at_ 16 cause + at_ 24 (n % 256))
  if cfgv s 0x3203 (p + 1) ≤ n then linkFailed s p cause else s

/-- The receiver enters WAIT_REPLAY (R83): NAK with a toggled round. -/
def enterWaitReplay (x : WeftPort) : WeftPort :=
  if x.waitReplay then x else { x with waitReplay := true, nak := true, nakRound := !x.nakRound }

/-- RETRAIN (R100, R104): all link-layer state kept; lanes that stood idle hunt, so that the width may rise; a local cause sends
RETRAIN_REQ rows for 1 µs first. -/
def enterRetrain (s : State) (p cause : Nat) : State :=
  let x := enterWaitReplay (weftPort s p)
  let loc := cause ≠ 4
  let s := setWeft s p { x with
    link := .retrain, since := s.now, retrainSince := s.now, lastCause := cause, timer := none, agreed := false, chosen := none,
    ts2Sent := 0, ts1Seen := [], ts2Seen := [], startSent := false, startSeen := false, peerNonce := none, orderTold := false,
    rowing := false, gathered := none, rx := [], ts := [], trainRate := x.rate, phaseSince := s.now, reqSince := if loc then some s.now else none
    nonce := (drawn s).toNat % 65536 }
  let s := afterDraw s
  let s := ctrWeft s p 10 1
  let s := event s 0x0221 p (p + at_ 16 cause)
  let s := match s.lanes.run with
    | some r => if (lanePort s r.lane).map Prod.fst = some p then marginAbort s 4 else s
    | none => s
  let s := { s with lanes := { s.lanes with thawed := if s.lanes.frozen.isSome then s.lanes.thawed ++ [p] else s.lanes.thawed } }
  let s := if loc then sendRow s p (retrainReqBlock cause) else s
  setPortLanes s p fun l => if l.st = .idle ∨ l.st = .failed then laneHunts s.now l else l

/-! ### Training (R100 to R103) -/

/-- A step done `n` times. -/
def times (f : State → State) : Nat → State → State
  | 0, s => s
  | n + 1, s => times f n (f s)

/-- The lane numbers of a port, each with its global lane. -/
def configuredLanes (s : State) (p : Nat) : List Nat := lanesIn s p (2 ^ portWidth s p - 1)

/-- Send TS1 on every configured lane (R97, R102). The port sends it without end while it trains; a run of eight identical ones is
recorded at each change of what it says and at each ALIGN position (log entry 96). -/
def sendTs1 (s : State) (p : Nat) : State :=
  let x := weftPort s p
  times (fun s => sendOn s (configuredLanes s p) 2 fun j =>
    ts1Block x.nonce (alignedMask s p) (gport s p) (personality s p)
      (if cfgv s 0x3004 (p + 1) = 0 then 1 else 0) (b2n (midValid s)) j (portWidth s p)) 8 s

/-- WEFT_TRAINING_START (R100). -/
def weftTrainingStart (p : Nat) (s : State) : State :=
  let x := weftPort s p
  if isWeft s p ∧ inService s ∧ x.link = .down ∧ clockOk s p ∧ elapsed s x.idleSince (100 * us) ∧ (portLanes s p).isSome then
    if cfgv s 0x3203 (p + 1) ≤ x.fails then linkFailed s p x.lastCause
    else
      let s := setWeft s p { x with
        link := .training, since := s.now, phaseSince := s.now, trainRate := if cfgv s 0x3004 (p + 1) = 0 then 1 else 2
        nonce := (drawn s).toNat % 65536, peerNonce := none, peer212 := true, ts1Seen := [], ts2Seen := [], orderTold := false,
        lineSince := s.now, alignPos := 0, chosen := none, ts2Sent := 0, agreed := false, creditSeen := 0, creditSent := 0, startSent := false, startSeen := false }
      let s := afterDraw s
      let s := setPortLanes s p (laneHunts s.now)
      let s := { s with lanes := { s.lanes with thawed := if s.lanes.frozen.isSome then s.lanes.thawed ++ [p] else s.lanes.thawed } }
      sendTs1 s p
  else s

/-- The next rate phase (R101). -/
def nextPhase (s : State) (p : Nat) : State :=
  let x := weftPort s p
  let s := setWeft s p { x with
    trainRate := 2, phaseSince := s.now, ts1Seen := [], ts2Seen := [], ts := [], chosen := none,
    ts2Sent := 0, lineSince := s.now, alignPos := 0 }
  sendTs1 (setPortLanes s p (laneHunts s.now)) p

/-- A TS payload without its LANE_NUM and CHECK. -/
def tsBody (w : Nat) : Nat := putBits (w % 2 ^ 112) 16 8 0

/-- Count identical payloads on a lane. -/
def countSame (t : Tbl (Nat × Nat)) (lane w : Nat) : Tbl (Nat × Nat) :=
  match Tbl.find? t lane with
  | some (v, n) => Tbl.set t lane (if v = tsBody w then (v, n + 1) else (tsBody w, 1))
  | none => Tbl.set t lane (tsBody w, 1)

/-- Lanes usable at both ends, in own numbering: S of R102. -/
def usableLanes (s : State) (p peerMask : Nat) : Nat :=
  match portLanes s p with
  | some (b, n) =>
    ((List.range n).map fun j =>
      match (laneOf s (b + j)).seenNum with
      | some k => if bit (alignedMask s p) j && bit peerMask k then 2 ^ j else 0
      | none => 0).sum
  | none => 0

/-- Every lane has aligned or counts as not aligned by now: the time of R58 and that of R62 have passed in this rate phase. DESIGN
CHOICE (log entry 108): unless every configured lane is usable, the leader forms S no sooner, since lanes align one after
another and R102 does not say how long it waits for them. -/
def lanesSettled (s : State) (p : Nat) : Bool :=
  elapsed s (weftPort s p).phaseSince (100 * us + threeAligns (weftPort s p).trainRate)

/-- The candidate sets, widest first, lowest-numbered first among equals (R102). -/
def laneSets : List (Nat × Nat) :=
  [(16, 0xFFFF), (8, 0x00FF), (8, 0xFF00), (4, 0x000F), (4, 0x00F0), (4, 0x0F00), (4, 0xF000)]

def chooseSet (width usable : Nat) : Option (Nat × Nat) :=
  laneSets.find? fun c => c.1 ≤ width && c.2 < 2 ^ width && (c.2 &&& usable) = c.2

/-- Send sixteen TS2 on each configured lane (R102). -/
def sendTs2 (s : State) (p set width rate : Nat) (leader : Bool) : State :=
  let x := weftPort s p
  times (fun s => sendOn s (configuredLanes s p) 2 fun j => ts2Block x.nonce set width rate (b2n leader) j (portWidth s p)) 16 s

/-- The leader forms S, chooses a set and sends TS2. DESIGN CHOICE (log entry 108): in RETRAIN no fitting set is no failed
attempt, since R100 gives cause 12 to TRAINING alone; the rate step and the 1 ms of R101 go on. -/
def leaderChooses (s : State) (p peerMask : Nat) : State :=
  let x := weftPort s p
  match chooseSet (portWidth s p) (usableLanes s p peerMask) with
  | some (w, set) =>
    let s := setWeft s p { x with chosen := some (set, set, w, x.trainRate), ts2Sent := 16 }
    sendTs2 s p set w (x.trainRate - 1) true
  | none => if x.link = .training then attemptFailed s p 12 else s

/-- The oldest TS block of a type that waits at a port is taken: what `f` does with its lane and payload. -/
def takeTs (p typ : Nat) (f : Nat → Nat → State → State) (s : State) : State :=
  let x := weftPort s p
  match x.ts.find? fun t => bits t.2 0 8 = typ with
  | some t => f t.1 t.2 (setWeft s p { x with ts := x.ts.erase t })
  | none => s

/-- A TS1 on a lane (R97, R102). WEFT_PEER's `valid` takes the peer's GPORT_VALID, and a TS1 of another width is ignored in RETRAIN:
DESIGN CHOICES (log entries 108 and 109). -/
def ts1Take (p lane w : Nat) (s : State) : State :=
  let x := weftPort s p
  if ¬ (x.link = .training ∨ x.link = .retrain) then s
  else if ¬ checkOk w then ctrWeft s p 9 1
  else if bits w 61 2 ≠ personality s p then linkFailed s p 10
  else if bits w 8 8 ≠ portWidth s p then (if x.link = .training then attemptFailed s p 11 else s)
  else
    let x := { x with
      peerNonce := some (bits w 96 16), peerMask := bits w 80 16, peer212 := bit w 60, ts1Seen := countSame x.ts1Seen lane w
      peer := at_ 31 (bits w 58 1) + at_ 17 (bits w 61 2) + bits w 63 17 }
    let s := setWeft s p x
    if x.nonce = bits w 96 16 then
      let s := afterDraw (setWeft s p { x with nonce := (drawn s).toNat % 65536, ts1Seen := [], peerNonce := none })
      sendTs1 s p
    else if x.link = .training ∧ x.trainRate = 1 ∧ ¬ x.peer212 then nextPhase s p
    else if x.nonce < bits w 96 16 ∧ x.chosen = none ∧ 8 ≤ ((Tbl.get x.ts1Seen lane (0, 0)).2) ∧ x.reqSince = none ∧
        (usableLanes s p x.peerMask = 2 ^ portWidth s p - 1 ∨ lanesSettled s p) then
      leaderChooses s p x.peerMask
    else s

/-- TS1_RECEIVE: the oldest TS1 that waits. -/
def ts1Receive (p : Nat) (s : State) : State := takeTs p 0x40 (ts1Take p) s

/-- A set in the leader's numbering, in own numbering: own lane j receives the leader's lane LANE_NUM (R60, R102). -/
def ownNumbering (s : State) (p set : Nat) : Nat :=
  match portLanes s p with
  | some (b, n) =>
    ((List.range n).map fun j =>
      match (laneOf s (b + j)).seenNum with
      | some k => if bit set k then 2 ^ j else 0
      | none => 0).sum
  | none => 0

/-- CREDIT_INIT rows for TC0 to TC7, four rounds (R103). -/
def sendCreditInit (s : State) (p : Nat) : State :=
  times (fun s => (List.range 8).foldl (fun s tc => sendRow s p (creditInitBlock tc (advHdr s p tc) (advData s p tc))) s) 4 s

/-- Both ends have sent and received FLIT_START (R100): ACTIVE. -/
def linkActive (s : State) (p : Nat) : State :=
  let x := weftPort s p
  let info := p + at_ 16 x.width + at_ 24 (x.rate - 1)
  let s := { s with weft := { s.weft with risen := s.weft.risen ++ [p] } }
  if x.link = .aligned then
    event (setWeft s p { x with link := .active, since := s.now, fails := 0 }) 0x0220 p info
  else
    let dur := (s.now - x.retrainSince) / us % 65536
    event (setWeft s p { x with
      link := .active, since := s.now, resend := x.buffer, headReplays := 0, headRetrained := !x.buffer.isEmpty
      timer := if x.buffer.isEmpty then none else some s.now }) 0x0222 p (info + at_ 32 dur)

/-- TS2 agreement (R102, R103, R104). -/
def trainingAgreed (s : State) (p : Nat) : State :=
  let x := weftPort s p
  match x.chosen with
  | none => s
  | some (own, _, w, rate) =>
    let s := setWeft s p { x with agreed := true, lanes := own, width := w, rate := rate }
    let s := match portLanes s p with
      | some (b, n) => (List.range n).foldl (fun s j => if bit own j then s else setLane s (b + j) (laneIdle (laneOf s (b + j)))) s
      | none => s
    let s := if w < portWidth s p then event s 0x0205 p (p + at_ 16 w + at_ 24 (portWidth s p)) else s
    let s := startRows s p
    let y := weftPort s p
    if x.link = .training then
      sendCreditInit (setWeft s p { y with link := .aligned, since := s.now, creditSent := 4 }) p
    else
      let head := match y.buffer with
        | f :: _ => f.seq
        | [] => y.nextSeq
      let s := sendRow (setWeft s p { y with startSent := true }) p (flitStartBlock true head)
      if y.startSeen then linkActive s p else s

/-- A TS2 on a lane (R98, R102). -/
def ts2Take (p lane w : Nat) (s : State) : State :=
  let x := weftPort s p
  if ¬ (x.link = .training ∨ x.link = .retrain) ∨ x.agreed then s
  else if ¬ checkOk w then ctrWeft s p 9 1
  else
    let x := { x with ts2Seen := countSame x.ts2Seen lane w }
    let s := setWeft s p x
    let eight := decide (8 ≤ (Tbl.get x.ts2Seen lane (0, 0)).2)
    match x.peerNonce with
    | none => s
    | some pn =>
      if pn ≠ bits w 96 16 ∨ ¬ eight then s
      else if x.nonce < pn then
        -- the leader: the follower repeats its choice
        match x.chosen with
        | some (_, set, wd, rate) =>
          if ¬ bit w 70 ∧ bits w 80 16 = set ∧ bits w 72 8 = wd ∧ bits w 71 1 + 1 = rate then trainingAgreed s p else s
        | none => s
      else if bit w 70 then
        let set := bits w 80 16
        let s := setWeft s p { x with chosen := some (ownNumbering s p set, set, bits w 72 8, bits w 71 1 + 1), ts2Sent := 16 }
        trainingAgreed (sendTs2 s p set (bits w 72 8) (bits w 71 1) false) p
      else s

/-- TS2_RECEIVE: the oldest TS2 that waits. -/
def ts2Receive (p : Nat) (s : State) : State := takeTs p 0x41 (ts2Take p) s

/-- TRAINING_PHASE_TIMEOUT (R101): 2 ms at 212.5 Gb/s, then 4 ms at 106.25 Gb/s. -/
def trainingPhaseTimeout (p : Nat) (s : State) : State :=
  let x := weftPort s p
  if x.link = .training ∧ x.trainRate = 1 ∧ elapsed s x.phaseSince (2 * ms) then nextPhase s p
  else if x.link = .training ∧ x.trainRate = 2 ∧ elapsed s x.phaseSince (4 * ms) then attemptFailed s p 8
  else s

/-- The exchange of credits is complete (R103): FLIT_START with START_SEQ 0, or cause 18. -/
def creditsComplete (s : State) (p : Nat) : State :=
  let x := weftPort s p
  let theirs := (List.range 8).map fun tc => if Tbl.get x.advH tc 0 ≠ 0 ∨ Tbl.get x.advD tc 0 ≠ 0 then 2 ^ tc else 0
  if theirs.sum ≠ tcEnable s p then attemptFailed s p 18
  else
    let s := sendRow (setWeft s p { x with startSent := true }) p (flitStartBlock false 0)
    if x.startSeen then linkActive s p else s

/-- The oldest item that a port's rows have brought is taken when it is a link-level row of a type (R95). -/
def takeRow (p typ : Nat) (f : Nat → State → State) (s : State) : State :=
  let x := weftPort s p
  match x.rx with
  | .row w :: rest => if bits w 0 8 = typ then f w (setWeft s p { x with rx := rest }) else s
  | _ => s

/-- A CREDIT_INIT row (R99, R103). -/
def creditInitTake (p w : Nat) (s : State) : State :=
  let x := weftPort s p
  if x.link ≠ .aligned then s
  else
    let tc := bits w 8 3
    let x := { x with advH := Tbl.set x.advH tc (bits w 32 12), advD := Tbl.set x.advD tc (bits w 44 16),
                      creditSeen := putBit x.creditSeen tc true }
    let s := setWeft s p x
    if x.creditSeen = 255 ∧ 4 ≤ x.creditSent ∧ ¬ x.startSent then creditsComplete s p else s

/-- CREDIT_INIT_RECEIVE. -/
def creditInitReceive (p : Nat) (s : State) : State := takeRow p 0x48 (creditInitTake p) s

/-- Sequence `c` equals `e` or is before it (R81). -/
def notAfter (c e : Nat) : Bool := (e + 1024 - c) % 1024 ≤ 512

/-- A FLIT_START row (R83, R100, R104). -/
def flitStartTake (p w : Nat) (s : State) : State :=
  let x := weftPort s p
  let start := bits w 8 10
  if x.link = .aligned then
    if bit w 18 then s
    else
      let s := setWeft s p { x with startSeen := true, expect := start, countC := start }
      if x.startSent then linkActive s p else s
  else if x.link ≠ .active ∧ x.link ≠ .retrain then s
  else if ¬ notAfter start x.expect then protocolError s p 16
  else if ¬ bit w 18 then s
  else
    let s := setWeft s p { x with countC := start, waitReplay := false, nak := false, startSeen := true }
    if x.link = .retrain ∧ x.startSent then linkActive s p else s

/-- FLIT_START_RECEIVE. -/
def flitStartReceive (p : Nat) (s : State) : State := takeRow p 0x50 (flitStartTake p) s

/-- ALIGNED_TIMEOUT (R100). -/
def alignedTimeout (p : Nat) (s : State) : State :=
  let x := weftPort s p
  if x.link = .aligned ∧ elapsed s x.since (100 * us) then attemptFailed s p 9 else s

/-- RETRAIN_REQ_RECEIVE (R100): cause 4; both ends then train. -/
def retrainReqReceive (p : Nat) (s : State) : State :=
  takeRow p 0x58 (fun _ s => if (weftPort s p).link = .active then sendTs1 (enterRetrain s p 4) p else s) s

/-- RETRAIN_REQ_END (R101): after 1 µs of RETRAIN_REQ rows, TS1 at the current rate. -/
def retrainReqEnd (p : Nat) (s : State) : State :=
  let x := weftPort s p
  if x.link = .retrain ∧ elapsedOpt s x.reqSince us then sendTs1 (setWeft s p { x with reqSince := none }) p else s

/-- RETRAIN_RATE_STEP (R101): 500 µs at 212.5 Gb/s, then 106.25 Gb/s. -/
def retrainRateStep (p : Nat) (s : State) : State :=
  let x := weftPort s p
  if x.link = .retrain ∧ x.trainRate = 1 ∧ ¬ x.agreed ∧ elapsed s x.retrainSince (500 * us) then nextPhase s p else s

/-- RETRAIN_TIMEOUT (R100). -/
def retrainTimeout (p : Nat) (s : State) : State :=
  let x := weftPort s p
  if x.link = .retrain ∧ elapsed s x.retrainSince ms then linkDown s p 6 else s

/-- The effect of WEFT_RETRAIN_CMD 1 (R100, R107). -/
def actWeftRetrain (p : Nat) (s : State) : State :=
  let x := weftPort s p
  match x.link with
  | .active => enterRetrain s p 5
  | .failed => health (setWeft s p { x with link := .down, since := s.now, idleSince := s.now, fails := 0 }) 0
  | _ => s

/-- A lane of a trained port has lost block lock or alignment (R100). -/
def trainedLaneLost (s : State) (l cause : Nat) : State :=
  match lanePort s l with
  | some (p, j) =>
    let x := weftPort s p
    if isWeft s p ∧ x.link = .active ∧ bit x.lanes j then enterRetrain s p cause else s
  | none => s

/-! ### ALIGN and blocks (R54 to R62) -/

/-- TS1 is being sent: the port trains, and has not chosen or agreed. -/
def sendsTs1 (x : WeftPort) : Bool :=
  (x.link = .training || x.link = .retrain) && x.chosen = none && !x.agreed && x.reqSince = none

/-- ALIGN_SEND (R59): at every 8,192nd block position, on all lanes of the port at once. What the port sends without end goes on
after it: TS1 in training, and in ALIGNED the rounds of CREDIT_INIT, of which R103 gives only the least number. -/
def alignSend (p : Nat) (s : State) : State :=
  let x := weftPort s p
  let trained := x.link = .aligned ∨ x.link = .active ∨ (x.link = .retrain ∧ x.agreed)
  let set := if trained then x.lanes else 2 ^ portWidth s p - 1
  if x.link = .down ∨ x.link = .failed ∨ ¬ alignDue s x then s
  else
    let s := setWeft s p { x with alignPos := x.alignPos + 1 }
    let s := sendOn s (lanesIn s p set) 2 fun i => alignBlock (alignWidth s p) ((setBits 16 set).getD i 0)
    if sendsTs1 x then sendTs1 s p else if x.link = .aligned ∧ ¬ x.startSent then sendCreditInit s p else s

def execAlignSend (p : Port) (s : State) : Host.Outcome State Fault Refusal := .next (if isWeft s p then alignSend p s else s)

/-- A valid ALIGN image on a lane: aligned when its PORT_WIDTH is the width being trained, and its LANE_NUM kept (R60); a trained
lane that shows another width has lost alignment (R100). DESIGN CHOICE (log entry 110): where port lane 0 has shown no ALIGN
yet, event 0x0204 carries the LANE_NUM just read. -/
def takeAlign (s : State) (l w : Nat) : State :=
  let x := laneOf s l
  match lanePort s l with
  | none => s
  | some (p, j) =>
    let num := bits w 8 8
    let ok := bits w 16 8 = alignWidth s p
    let mask := alignedMask s p
    let s := setLane s l { x with st := if ok then .aligned else .locked, seenNum := some num, seenWidth := bits w 16 8,
                                  alignAt := s.now, polChecked := true }
    let y := weftPort s p
    let s := if num ≠ j ∧ ¬ y.orderTold then
        let first := match portLanes s p with
          | some (b, _) => (laneOf s b).seenNum.getD num
          | none => num
        event (setWeft s p { y with orderTold := true }) 0x0204 p (p + at_ 16 first)
      else s
    let s := if ok then s else trainedLaneLost s l 3
    if sendsTs1 y ∧ alignedMask s p ≠ mask then sendTs1 s p else s

/-- ALIGN_RECEIVE (R60, R62): the oldest ALIGN image that waits on the lane. -/
def alignReceive (l : Nat) (s : State) : State :=
  let x := laneOf s l
  match x.aligns with
  | [] => s
  | w :: ws =>
    let x := { x with aligns := ws }
    let s := setLane s l x
    if x.st ≠ .locked ∧ x.st ≠ .aligned then s
    else if isAlign w then takeAlign (setLane s l { x with polSeen := if laneInverted s l then 2 else 1 }) l w
    else if lanePolarity s l = 0 ∧ ¬ x.polChecked ∧ isInvertedAlign w then
      takeAlign (event (setLane s l { x with polSeen := if x.polSeen = 2 then 1 else 2 }) 0x0203 0 l) l (invertPayload w)
    else s

/-- Lanes beyond the tolerated skew are not aligned (R60). -/
def lanesSkewed (late : List Nat) (s : State) : State :=
  late.foldl (fun s l => trainedLaneLost (setLane s l { laneOf s l with st := .locked, seenNum := none }) l 3) s

/-- A block of a locked lane goes to where it is used, and a row it completes is taken (R56, R60, R76, R95). -/
def useBlock (s : State) (l header payload : Nat) : State :=
  let s := sortBlock (adaptLane s l) l header payload
  match lanePort s l with
  | some (p, _) =>
    let r := formRow s p
    lanesSkewed r.2 r.1
  | none => s

/-- WEFT_BLOCK_RECEIVE (R53, R54, R57): the 65 levels at the lane's candidate boundary. Their header is checked at the candidate
of a hunting lane, or against the last 64 of a locked one, whose payload is then used. -/
def weftBlockReceive (l levels : Nat) (s : State) : State :=
  let x := laneOf s l
  let ys := wordLevels (if laneInverted s l then invertLevels levels else levels)
  let b := symbolsBlock (unprecodeAll x.rxLevel ys)
  let x := { x with rxLevel := ys.getLastD x.rxLevel }
  match x.st with
  | .hunting =>
    setLane s l (if validHeader b.1 then { x with valid := x.valid + 1 } else { x with candidate := (x.candidate + 1) % 65, valid := 0 })
  | .locked | .aligned =>
    useBlock (setLane s l { x with history := (validHeader b.1 :: x.history).take 64 }) l b.1 b.2
  | _ => s

/-- BLOCK_LOCK_LOST (R57): 8 invalid headers within 64 blocks. -/
def blockLockLost (l : Nat) (s : State) : State :=
  let x := laneOf s l
  if (x.st = .locked ∨ x.st = .aligned) ∧ 8 ≤ invalidHeaders x then trainedLaneLost (lockLost l s) l 2 else s

/-- LANE_ALIGN_TIMEOUT (R62): no valid image within three ALIGN periods; the lane counts as not aligned. -/
def laneAlignTimeout (l : Nat) (s : State) : State :=
  let x := laneOf s l
  let rate := match lanePort s l with
    | some (p, _) => let y := weftPort s p; if y.rate = 0 then y.trainRate else y.rate
    | none => 1
  if (x.st = .locked ∨ x.st = .aligned) ∧ elapsed s x.alignAt (threeAligns rate) then
    trainedLaneLost (setLane s l { x with st := .locked, seenNum := none }) l 3
  else s

/-! ### Replay (R84 to R87) -/

/-- Start a replay round from the oldest unacknowledged flit; a round still under way is abandoned (R86). -/
def startRound (s : State) (p : Nat) : State :=
  let x := weftPort s p
  match x.buffer with
  | [] => sendRow (setWeft s p { x with resend := [] }) p (flitStartBlock true x.nextSeq)
  | f :: _ =>
    let s := setWeft s p { x with headReplays := x.headReplays + 1, resend := x.buffer, timer := some s.now }
    sendRow (ctrWeft (weftError s p 2) p 6 1) p (flitStartBlock true f.seq)

/-- A replay trigger (R87). -/
def replayTrigger (s : State) (p : Nat) : State :=
  let x := weftPort s p
  if x.buffer.isEmpty ∨ x.headReplays < 4 then startRound s p
  else if ¬ x.headRetrained then enterRetrain s p 1
  else linkDown s p 7

/-- REPLAY_TIMER_EXPIRY (R85): 1.5 µs. -/
def replayTimerExpiry (p : Nat) (s : State) : State :=
  let x := weftPort s p
  if x.link = .active ∧ ¬ x.buffer.isEmpty ∧ elapsedOpt s x.timer 1500 then replayTrigger s p else s

/-! ### Sending flits (R81 to R84, R90) -/

def availH (x : WeftPort) (tc : Nat) : Nat :=
  (Tbl.get x.advH tc 0 + Tbl.get x.retH tc 0 + 4096 - Tbl.get x.useH tc 0) % 4096
def availD (x : WeftPort) (tc : Nat) : Nat :=
  (Tbl.get x.advD tc 0 + Tbl.get x.retD tc 0 + 65536 - Tbl.get x.useD tc 0) % 65536

/-- An operation of a class and length may start now (R90). -/
def creditsFor (x : WeftPort) (tc slots : Nat) : Bool := 1 ≤ availH x tc && slots ≤ availD x tc

/-- The data credits that an operation needs to start. No field of the envelope gives the length of one that is relayed by
cut-through: it starts with the credits of the longest, 65 slots (DESIGN CHOICE, log entry 62). -/
def OutOp.need (o : OutOp) : Nat := if o.relay.isNone then o.slots else if o.whole then ceilDiv o.left.length 64 else 65

def chargeData (x : WeftPort) (tc slots : Nat) : WeftPort :=
  { x with useD := Tbl.set x.useD tc ((Tbl.get x.useD tc 0 + slots) % 65536) }

/-- Charge an operation at its first transmission; one relayed by cut-through is charged its slots as they go. -/
def chargeOp (x : WeftPort) (o : OutOp) : WeftPort :=
  chargeData { x with useH := Tbl.set x.useH o.tc ((Tbl.get x.useH o.tc 0 + 1) % 4096) } o.tc (if o.relay.isNone then o.slots else 0)

/-- The slots of an operation that can be sent are at hand: all that the flit still has room for, or the rest of it. An operation
relayed by cut-through has no empty slot in its midst (R74, R177). -/
def slotsReady (o : OutOp) (room : Nat) : Bool := o.whole || 64 * room ≤ o.left.length

/-- Fill up to four slots from the operations waiting: the port, the slots' bytes, the slot map, whether one aborts. -/
def fillSlots : Nat → Nat → WeftPort → List Byte → Nat → WeftPort × List Byte × Nat × Bool
  | 0, _, x, bs, m => (x, bs, m, false)
  | n + 1, i, x, bs, m =>
    match x.out with
    | [] => (x, bs, m, false)
    | o :: os =>
      if (¬ o.started ∧ ¬ creditsFor x o.tc o.need) ∨ ¬ slotsReady o (n + 1) then (x, bs, m, false)
      else
        let x := if o.started then x else chargeOp x o
        let x := if o.relay.isNone then x else chargeData x o.tc 1
        let slot := fitBytes 64 (o.left.take 64)
        let rest := o.left.drop 64
        let last := (rest.isEmpty && o.whole) || o.abort
        let state := if last then 3 else if o.started then 2 else 1
        let m := m + at_ (2 * i) state
        let x := { x with out := if last then os else { o with left := rest, started := true } :: os }
        if o.abort then (x, bs ++ slot, m, true) else fillSlots n (i + 1) x (bs ++ slot) m

/-- The header every flit carries (R73, R82, R91). -/
def currentHeader (x : WeftPort) : LinkHeader :=
  { ackSeq := (x.expect + 1023) % 1024, nak := x.nak, nakRound := x.nakRound, crTc := x.crTc
    crHdr := Tbl.get x.giveH x.crTc 0, crData := Tbl.get x.giveD x.crTc 0 }

/-- A flit crosses the egress edge FIFO and goes to the rows (R30, R76). -/
def flitOut (s : State) (p : Nat) (bytes : List Byte) : State := sendFlit (edgeCross s p true bytes.length) p bytes

/-- FLIT_SEND (R81, R84, R86): a flit of a replay round, a new payload flit, or an idle flit. DESIGN CHOICE (log entry 111): R109
gives its counters names only; `NAKs sent` counts headers with NAK = 1, and `payload flits sent` no flit of a replay round. -/
def flitSend (p : Nat) (s : State) : State :=
  let x := weftPort s p
  if x.link ≠ .active then s
  else
    let h := currentHeader x
    let x := { x with crTc := (x.crTc + 1) % 8 }
    let s := if x.nak then ctrWeft s p 8 1 else s
    match x.resend with
    | f :: fs =>
      let s := setWeft s p { x with resend := fs }
      flitOut s p (flitBytes { h with kind := 0, slotMap := f.slotMap, opAbort := f.opAbort } f.slots f.seq)
    | [] =>
      let (y, slots, m, ab) := fillSlots 4 0 x [] 0
      if 384 ≤ x.buffer.length ∨ m = 0 then
        flitOut (ctrWeft (setWeft s p x) p 2 1) p (flitBytes { h with kind := 1 } [] 0xFFFF)
      else
        let f : SentFlit := { seq := y.nextSeq, slotMap := m, slots := slots, opAbort := ab, sentAt := s.now }
        let s := setWeft s p { y with
          nextSeq := (y.nextSeq + 1) % 1024, buffer := y.buffer ++ [f]
          timer := match y.timer with | some t => some t | none => some s.now }
        flitOut (ctrWeft s p 0 1) p (flitBytes { h with kind := 0, slotMap := m, opAbort := ab } slots f.seq)

def execFlitSend (p : Port) (s : State) : Host.Outcome State Fault Refusal := .next (flitSend p s)

/-! ### Receiving flits (R80 to R93) -/

/-- Free every buffered flit up to ACK_SEQ, when it lies within the buffer (R85, R87). -/
def ackFlits (s : State) (p ack : Nat) : State :=
  let x := weftPort s p
  match x.buffer.findIdx? (fun f => f.seq = ack) with
  | none => s
  | some i =>
    let rtt := match x.buffer[i]? with
      | some f => s.now - f.sentAt
      | none => 0
    let left := x.buffer.drop (i + 1)
    setWeft s p { x with
      buffer := left, headReplays := 0, headRetrained := false
      timer := if left.isEmpty then none else some s.now
      rtts := (x.rtts.filter fun m => s.now < m.1 + ms) ++ [(s.now, rtt)] }

/-- WEFT_ACK_RTT_NS (R88, R107): the least round trip of the last 1 ms, 0 where there is none. -/
def leastRtt (s : State) (p : Nat) : Nat :=
  match ((weftPort s p).rtts.filter fun m => s.now < m.1 + ms).map Prod.snd with
  | [] => 0
  | r :: rs => min (rs.foldl min r) 65535

/-- A class's returned counts (R92): applied, or cause 17 where they exceed what was advertised. -/
def creditReturn (s : State) (p tc h d : Nat) : State :=
  let x := weftPort s p
  let y := { x with retH := Tbl.set x.retH tc h, retD := Tbl.set x.retD tc d }
  if Tbl.get x.advH tc 0 < availH y tc ∨ Tbl.get x.advD tc 0 < availD y tc then protocolError s p 17
  else setWeft s p y

/-- Use a header (R83, R86): acknowledgement first, then credits, then NAK. -/
def useHeader (s : State) (p : Nat) (h : LinkHeader) : State :=
  let s := creditReturn (ackFlits s p h.ackSeq) p h.crTc h.crHdr h.crData
  let x := weftPort s p
  if x.link = .active ∧ h.nak ∧ x.lastNakRound ≠ some h.nakRound then
    replayTrigger (setWeft s p { x with lastNakRound := some h.nakRound }) p
  else s

/-- The states of a slot map, slot 0 first. -/
def slotStates (m : Nat) : List Nat := [bits m 0 2, bits m 2 2, bits m 4 2, bits m 6 2]

/-- The slots of a flit obey the rules of R74 and R75, given whether an operation is open. -/
def slotsLegal : List Nat → Bool → Bool
  | [], _ => true
  | 0 :: ss, false => slotsLegal ss false
  | 1 :: ss, false => slotsLegal ss true
  | 2 :: ss, true => slotsLegal ss true
  | 3 :: ss, _ => slotsLegal ss false
  | _, _ => false

/-- With OP_ABORT exactly one slot is last, and every later one empty (R75). -/
def abortLegal (ss : List Nat) : Bool := (ss.filter (· = 3)).length = 1 && ((ss.dropWhile (· ≠ 3)).drop 1).all (· = 0)

/-- The traffic class of an operation, from its envelope (R186). -/
def envTc (op : List Byte) : Nat := bits (leAt op 0 16) 8 3

/-- A slot of an operation goes on to the egress that relays it by cut-through (R177). One that ends with OP_ABORT ends so there
too (DEDUCED from R75: the operation is discarded, and its last slot is none of its own). -/
def relaySlot (s : State) (p : Nat) (slot : List Byte) (last ab : Bool) : State :=
  match (weftPort s p).relayTo with
  | none => s
  | some (d, _) =>
    if last && ab then endRelay s d p
    else withRelay s d p fun o => some { o with left := o.left ++ slot, whole := last }

/-- Take the slots of a flit: each operation they complete arrives (R80, R92). -/
def takeSlots : List Nat → List Byte → Bool → Nat → State → State
  | [], _, _, _, s => s
  | st :: ss, bs, ab, p, s =>
    let x := weftPort s p
    let slot := bs.take 64
    match st with
    | 0 => takeSlots ss (bs.drop 64) ab p s
    | 1 => takeSlots ss (bs.drop 64) ab p (setWeft s p { x with opening := slot, openSlots := 1 })
    | 2 => takeSlots ss (bs.drop 64) ab p
        (relaySlot (setWeft s p { x with opening := x.opening ++ slot, openSlots := x.openSlots + 1 }) p slot false false)
    | _ =>
      let op := x.opening ++ slot
      let n := x.openSlots + 1
      let tc := envTc op
      let way := x.relayTo
      let x := { x with opening := [], openSlots := 0, gotH := Tbl.set x.gotH tc ((Tbl.get x.gotH tc 0 + 1) % 4096),
                        gotD := Tbl.set x.gotD tc ((Tbl.get x.gotD tc 0 + n) % 65536) }
      let beyond := (Tbl.get x.gotH tc 0 + 4096 - Tbl.get x.giveH tc 0) % 4096 > advHdr s p tc ∨
        (Tbl.get x.gotD tc 0 + 65536 - Tbl.get x.giveD tc 0) % 65536 > advData s p tc
      if beyond then protocolError s p 17
      else
        let s := relaySlot (setWeft s p x) p slot true ab
        let s := setWeft s p { weftPort s p with relayTo := none }
        let s := if ab then event (ctrWeft s p 11 1) 0x0227 p (p + at_ 16 tc) else s
        takeSlots ss (bs.drop 64) ab p { s with weft := { s.weft with
          arrived := s.weft.arrived ++ [{ port := p, tc := tc, bytes := op, aborted := ab, relay := way }] } }

/-- A good payload flit in order. -/
def acceptFlit (s : State) (p : Nat) (h : LinkHeader) (slots : List Byte) : State :=
  let x := weftPort s p
  let ss := slotStates h.slotMap
  let opened := if x.openSlots = 0 then 0 else x.openSlots + (ss.takeWhile (· ≠ 3)).length + (if ss.contains 3 then 1 else 0)
  if ss.all (· = 0) ∨ ¬ slotsLegal ss (0 < x.openSlots) ∨ (h.opAbort ∧ ¬ abortLegal ss) ∨ 65 < opened then
    protocolError s p 15
  else
    let s := setWeft s p { x with expect := (x.expect + 1) % 1024, countC := (x.countC + 1) % 1024 }
    takeSlots ss slots h.opAbort p (ctrWeft s p 1 1)

/-- A flit that is bad by its FEC or CRC (R83). -/
def badFlit (s : State) (p c : Nat) : State :=
  let x := weftPort s p
  let s := ctrWeft s p c 1
  if x.waitReplay then s else setWeft s p (enterWaitReplay x)

/-- A payload flit whose CRC passes with the count: in order it is accepted, else it is a duplicate (R83). -/
def countedFlit (s : State) (p : Nat) (h : LinkHeader) (slots : List Byte) : State :=
  let x := weftPort s p
  if x.countC = x.expect then
    let s := useHeader s p h
    if (weftPort s p).link = .active ∨ (weftPort s p).link = .retrain then acceptFlit s p h slots else s
  else
    let s := ctrWeft (useHeader s p h) p 7 1
    let y := weftPort s p
    setWeft s p { y with countC := (y.countC + 1) % 1024 }

/-- A flit at the link layer (R80, R83): corrected, its CRC checked under the prefix of its kind, and used as the receiver's mode
says. An invalid kind that passes under either prefix is a protocol error (R74). -/
def flitAccept (p : Nat) (flit : List Byte) (s : State) : State :=
  let x := weftPort s p
  if x.link ≠ .active ∨ flit.length ≠ 288 then s
  else
    match flitFec (flit.map BitVec.toNat) with
    | none => badFlit s p 4
    | some (c, fixed) =>
      let s := if fixed = 0 then s else ctrWeft (weftError s p 2) p 3 fixed
      let body := c.take 264
      let crc := leNat (((c.drop 264).take 8).map (BitVec.ofNat 8))
      let h := LinkHeader.of (leNat ((c.take 8).map (BitVec.ofNat 8)))
      let slots := ((c.drop 8).take 256).map (BitVec.ofNat 8)
      let idle := decide (flitCrc 0xFFFF body = crc)
      let counted := !x.waitReplay && flitCrc x.countC body = crc
      if 2 ≤ h.kind then (if idle || counted then protocolError s p 15 else badFlit s p 5)
      else if x.waitReplay then (if idle then useHeader s p h else s)
      else if h.kind = 1 then (if idle then useHeader s p h else badFlit s p 5)
      else if counted then countedFlit s p h slots
      else badFlit s p 5

/-- The oldest flit that the rows of a port have brought crosses the ingress edge FIFO. -/
def takeFlit (p : Nat) (s : State) : State × Option (List Byte) :=
  let x := weftPort s p
  match x.rx with
  | .flit bs :: rest => (edgeCross (setWeft s p { x with rx := rest }) p false bs.length, some bs)
  | _ => (s, none)

/-- The loom releases an operation's space at a port (R91). -/
def weftRelease (s : State) (p tc slots : Nat) : State :=
  let x := weftPort s p
  if x.link = .active ∨ x.link = .retrain then
    setWeft s p { x with giveH := Tbl.set x.giveH tc ((Tbl.get x.giveH tc 0 + 1) % 4096)
                         giveD := Tbl.set x.giveD tc ((Tbl.get x.giveD tc 0 + slots) % 65536) }
  else s

/-- A port is enabled or disabled by its personality (R70, R100): disabling is cause 14; enabling clears FAILED. -/
def weftDisabled (s : State) (p : Nat) : State :=
  let x := weftPort s p
  let s := if x.link = .down ∨ x.link = .failed then s else linkDown s p 14
  let x := weftPort s p
  setPortLanes (setWeft s p { clearedLink x s.now with fails := 0 }) p fun l => { l with st := .off }

def weftEnabled (s : State) (p : Nat) : State :=
  setPortLanes (setWeft s p { idleSince := s.now, since := s.now }) p laneIdle

end Sys2Proof.Machine
end

