-- ==== Sys2Proof/Machine/Space.lean ====
section
/-!
DEFINITION. The configuration space of the functions of a partition (R112, R116, R119, R139 to R141, R298, R379): reset values,
what a write changes, power states, and the error registers that a port logs to (R341). The spec takes registers by their names
in the PCI Express Base Specification and gives no offset; the places are PRESUMED (log entry 8).
-/

namespace Sys2Proof.Machine

def warpPort (s : State) (p : Nat) : WarpPort := vget s.warp.port p {}
def setWarp (s : State) (p : Nat) (x : WarpPort) : State := { s with warp := { s.warp with port := vset s.warp.port p x } }
def partOf (s : State) (v : Nat) : Partition := vget s.warp.part v {}
def setPart (s : State) (v : Nat) (x : Partition) : State := { s with warp := { s.warp with part := vset s.warp.part v x } }

def partEnabled (s : State) (v : Nat) : Bool := cfgOn s 0x3301 (v + 1)

/-- VS_STATE 0x3303. -/
def vsState (s : State) (v : Nat) : Nat := if partEnabled s v then (partOf s v).st else 0

/-- A downstream warp port. -/
def isDown (s : State) (p : Nat) : Bool := isWarp s p && cfgv s 0x3102 (p + 1) = 0

/-- The downstream ports of a partition in increasing number (R116). -/
def downPorts (s : State) (v : Nat) : List Nat := (List.range 128).filter fun p => isDown s p && portPart s p = some v

/-- The downstream bridge number of a port in its partition. -/
def bridgeOf (s : State) (p : Nat) : Nat :=
  match portPart s p with
  | some v => ((downPorts s v).takeWhile (· ≠ p)).length
  | none => 0

/-- The function that presents a port to its partition's host: its downstream bridge, or the upstream function. -/
def portFn (s : State) (p : Nat) : Nat := if isDown s p then bridgeOf s p else 240

/-! ### Registers -/

/-- What the function of a number is (R116, R298, R379). -/
inductive FnKind where
  | up | bridge | proxy | mgmt | dobby | vf
  deriving DecidableEq, Repr

def fnKind (fn : Nat) : FnKind :=
  if fn < 128 then .bridge
  else if fn = 240 then .up
  else if fn = 241 then .proxy
  else if fn = 242 then .mgmt
  else if fn = 243 then .dobby
  else .vf

/-- A function with a Type 1 header. -/
def FnKind.isType1 : FnKind → Bool
  | .up | .bridge | .proxy => true
  | _ => false

/-- A function with a link of its own. -/
def FnKind.hasLink : FnKind → Bool
  | .up | .bridge => true
  | _ => false

def FnKind.code : FnKind → Nat
  | .up => 0 | .bridge => 1 | .proxy => 2 | .mgmt => 3 | .dobby => 4 | .vf => 5

/-- The extended capabilities of a function: identifier, version and offset, in the order of their chain. -/
def extCaps : FnKind → List (Nat × Nat × Nat)
  | .up => [(0x01, 2, 0x100), (0x12, 1, 0x240), (0x02, 1, 0x280), (0x1F, 1, 0x2C0), (0x19, 1, 0x300), (0x27, 1, 0x340), (0x2E, 1, 0x3C0)]
  | .bridge => [(0x01, 2, 0x100), (0x1D, 1, 0x200), (0x0D, 1, 0x220), (0x12, 1, 0x240), (0x02, 1, 0x280), (0x1F, 1, 0x2C0),
      (0x19, 1, 0x300), (0x27, 1, 0x340), (0x2E, 1, 0x3C0)]
  | .proxy => [(0x01, 2, 0x100)]
  | .mgmt => [(0x01, 2, 0x100), (0x10, 1, 0x180)]
  | _ => []

/-- The header dword of an extended capability that stands at a dword: its identifier, version and the place of the next. -/
def extHeader (dw : Nat) : List (Nat × Nat × Nat) → Option Nat
  | [] => none
  | (k, ver, off) :: rest => if off = 4 * dw then some (k + at_ 16 ver + at_ 20 (rest.headD (0, 0, 0)).2.2) else extHeader dw rest

/-- PCI Express Capabilities: version 2, device type, and the Power Management capability as the next. -/
def expressCap (f : FnKind) : Nat :=
  0x28010 + at_ 20 (match f with
    | .up => 5
    | .bridge | .proxy => 6
    | _ => 0)

/-- The first 64 bytes of configuration space at reset. -/
def headerInit (f : FnKind) (dw : Nat) : Nat :=
  match dw with
  | 0 => Config.pciId (2 * f.code) % 2 ^ 32
  | 1 => 0x00100000
  | 2 => (if f.isType1 then 0x06040000 else Config.pciId (2 * f.code + 1) % 2 ^ 24 * 256) + Config.stepping % 256
  | 3 => if f.isType1 then 0x00010000 else 0
  | 4 => if f = .mgmt || f = .dobby then 4 else 0
  | 6 => if f = .dobby then 4 else 0
  | 7 => if f.isType1 then 0x0101 else 0
  | 9 => if f.isType1 then 0x00010001 else 0
  | 13 => 0x40
  | _ => 0

/-- The capabilities of configuration space at reset: PCI Express at 0x40, Power Management at 0x80, MSI-X at 0x90, and the
extended ones. -/
def capInit (f : FnKind) (dw : Nat) : Nat :=
  let msix := f = .mgmt || f = .vf
  match dw with
  | 0x10 => expressCap f
  | 0x11 => 0x8025 + at_ 28 (b2n (f = .vf))
  | 0x13 => if f = .bridge then 0x00180807 else if f = .up then 0x00000807 else 0
  | 0x16 => if f = .bridge then 0x07C0 else 0
  | 0x19 => if f.isType1 then 0x00030070 else 0x0003001F
  | 0x1B => if f.hasLink then 0xFE else 0
  | 0x1C => if f.hasLink then 7 else 0
  | 0x20 => 0x00030001 + at_ 8 (if msix then 0x90 else 0)
  | 0x24 => if f = .mgmt then 0x003F0011 else if f = .vf then 0x00100011 else 0
  | 0x25 => if f = .mgmt then 0x10000 else if f = .vf then 0x2000 else 0
  | 0x26 => if f = .mgmt then 0x18000 else if f = .vf then 0x3000 else 0
  | 0x43 => if (extCaps f).isEmpty then 0 else 0x00462030
  | 0x45 => if (extCaps f).isEmpty then 0 else 0x2000
  | 0x46 => if (extCaps f).isEmpty then 0 else 0xA0
  | 0x69 => if f = .mgmt then 4 else 0
  | 0x67 => if f = .mgmt then 0x553 else 0
  | 0x68 => if f = .mgmt then 1 else 0
  | 0x6B => if f = .mgmt then 12 else 0
  | 0x89 => if f = .bridge then 0x80FF else 0
  | 0x91 => if f.hasLink then 63 else 0
  | 0xA5 => if f.hasLink then 0x800000FF else 0
  | 0xA8 => if f.hasLink then 0x01000000 else 0
  | 0xB1 => if f = .up then 1 else if f = .bridge then 2 else 0
  | _ => (extHeader dw (extCaps f)).getD 0

/-- A configuration dword at reset. -/
def cfgInit (fn dw : Nat) : Nat := if dw < 16 then headerInit (fnKind fn) dw else capInit (fnKind fn) dw

/-- The bits of a header dword that a write sets. -/
def headerMask (f : FnKind) (dw : Nat) : Nat :=
  if f.isType1 then
    match dw with
    | 1 => 0x0547
    | 3 => 0xFF
    | 6 => 0x00FFFFFF
    | 7 => 0xF0F0
    | 8 | 9 => 0xFFF0FFF0
    | 10 | 11 | 12 => 0xFFFFFFFF
    | 15 => 0x007F00FF
    | _ => 0
  else
    match dw with
    | 1 => if f = .vf then 4 else 0x0547
    | 4 => if f = .mgmt then 0xFFFE0000 else if f = .dobby then 0xFFFFF000 else 0
    | 5 => if f = .vf then 0 else 0xFFFFFFFF
    | 6 => if f = .dobby then 0xFFFFF000 else 0
    | 7 => if f = .dobby then 0xFFFFFFFF else 0
    | 15 => 0xFF
    | _ => 0

/-- The bits of a capability dword that a write sets. -/
def capMask (f : FnKind) (dw : Nat) : Nat :=
  let aer := !(extCaps f).isEmpty
  match dw with
  | 0x12 => 0x7FFF
  | 0x14 => if f = .bridge then 0x0FDB else if f = .up then 0x0FCB else 0
  | 0x16 => if f = .bridge then 0x1FFF else 0
  | 0x1A => 0xFFFF
  | 0x1C => if f.hasLink then 0xFFFF else 0
  | 0x21 => 3
  | 0x24 => if f = .mgmt || f = .vf then 0xC0000000 else 0
  | 0x42 | 0x43 => if aer then 0xFFFFFFF0 else 0
  | 0x45 => if aer then 0xF1C1 else 0
  | 0x46 => if aer then 0x140 else 0
  | 0x62 => if f = .mgmt then 0x1F else 0
  | 0x64 => if f = .mgmt then 0xFFFF else 0
  | 0x68 => if f = .mgmt then 0xFFFFFFFF else 0
  | 0x69 => if f = .mgmt then 0xFFFFC000 else 0
  | 0x6A | 0x6C => if f = .mgmt then 0xFFFFFFFF else 0
  | 0x6B => if f = .mgmt then 0xFFFFF000 else 0
  | 0x81 => if f = .bridge then 0x003F0000 else 0
  | 0x89 => if f = .bridge then 0x1FFF0000 else 0
  | 0x8A | 0x8B | 0x8C | 0x8D => if f = .bridge then 0xFFFFFFFF else 0
  | 0x91 => if f.hasLink then 0x803F0000 else 0
  | 0x92 => if f.hasLink then 0xFFFFF03F else 0
  | 0xA5 => if f.hasLink then 0xFE else 0
  | 0xA8 => if f.hasLink then 0x870000FE else 0
  | 0xB2 => if f.hasLink then 0xFF03 else 0
  | 0xC1 => if f.hasLink then 0xFFFF else 0
  | _ =>
    if f.hasLink && 0x93 ≤ dw && dw ≤ 0x9B then 0xFFFFFFFF
    else if f.hasLink && 0xD2 ≤ dw && dw ≤ 0xE1 then 0xFF7F
    else 0

/-- The bits of a dword that a write of one clears. -/
def cfgClears (fn dw : Nat) : Nat :=
  let f := fnKind fn
  match dw with
  | 1 => 0xF9000000
  | 7 => if f.isType1 then 0xF9000000 else 0
  | 0x12 => 0x000F0000
  | 0x14 => 0xC0000000
  | 0x41 | 0x44 => if (extCaps f).isEmpty then 0 else 0xFFFFFFFF
  | 0x82 => if f = .bridge then 1 else 0
  | _ => 0

def cfgMask (fn dw : Nat) : Nat := if dw < 16 then headerMask (fnKind fn) dw else capMask (fnKind fn) dw

/-- A dword after a write of `new` to the bytes that `be` enables: D-state values other than D0 and D3hot are not taken. -/
def cfgMerge (fn dw old new be : Nat) : Nat :=
  let en := ((List.range 4).map fun k => if bit be k then at_ (8 * k) 255 else 0).sum
  let m := cfgMask fn dw &&& en
  let gone := cfgClears fn dw &&& en &&& new
  let w := (old &&& (0xFFFFFFFF ^^^ (m ||| gone))) ||| (new &&& m)
  if dw = 0x21 && bits w 0 2 ≠ 0 && bits w 0 2 ≠ 3 then old else w % 2 ^ 32

/-- A configuration register of a function of a partition. -/
def cfgReg (s : State) (v fn dw : Nat) : Nat := Tbl.get (partOf s v).config (fn * 1024 + dw) (cfgInit fn dw)

def setCfgReg (s : State) (v fn dw x : Nat) : State :=
  setPart s v { partOf s v with config := Tbl.set (partOf s v).config (fn * 1024 + dw) (x % 2 ^ 32) }

/-- The function is in D0; in D3hot it answers configuration requests only (R112). -/
def inD0 (s : State) (v fn : Nat) : Bool := bits (cfgReg s v fn 0x21) 0 2 = 0

/-- Memory Space, I/O Space and Bus Master Enable of a function: bits 1, 0 and 2 of its command register. -/
def cmdBit (s : State) (v fn b : Nat) : Bool := inD0 s v fn && bit (cfgReg s v fn 1) b

/-- The upstream function's internal bus of a partition: the secondary bus of function 240. -/
def internalBus (s : State) (v : Nat) : Nat := bits (cfgReg s v 240 6) 8 8

/-- The routing ID of the proxy bridge of a partition: device 30 of its internal bus (R116). -/
def proxyBridgeId (s : State) (v : Nat) : Nat := internalBus s v * 256 + 240

/-- The routing ID of a function. -/
def fnId (s : State) (v fn : Nat) : Nat :=
  match fnKind fn with
  | .up => bits (cfgReg s v 240 6) 0 8 * 256
  | .bridge => internalBus s v * 256 + fn
  | .proxy => proxyBridgeId s v
  | .mgmt => internalBus s v * 256 + 248
  | .dobby => internalBus s v * 256 + 249
  | .vf => (internalBus s v + 1) * 256 + (fn - 256) % 256

/-! ### Error registers (R341) -/

/-- The bit of the uncorrectable error status register for a cause of R343. -/
def aerBit (cause : Nat) : Option Nat :=
  match cause with
  | 8 => some 18 | 9 => some 19 | 10 => some 12 | 11 => some 16 | 12 => some 21 | 13 => some 4 | 14 => some 5 | 16 => some 28
  | 17 => some 14
  | _ => none

/-- An error message for the host, sent at the end of the step: code 0x30 correctable, 0x31 not fatal, 0x33 fatal. -/
def errorMessage (s : State) (v fn code : Nat) : State := { s with warp := { s.warp with errMsgs := s.warp.errMsgs ++ [(v, fn, code)] } }

/-- The effect of an uncorrectable error on the registers of a function: its status bit, the header of the first one that is not
masked, the device status; and the code of the error message, where the host lets the function report it. -/
def aerWrites (r : Nat → Nat) (b header : Nat) : List (Nat × Nat) × Option Nat :=
  let masked := bit (r 0x42) b
  let fatal := bit (r 0x43) b
  let first := !masked && r 0x41 &&& (0xFFFFFFFF ^^^ r 0x42) = 0
  let lets := bit (r 0x12) (if fatal then 2 else 1) && (b ≠ 20 || bit (r 0x12) 3)
  ([(0x41, putBit (r 0x41) b true), (0x12, putBit (putBit (r 0x12) (if fatal then 18 else 17) true) 19 (bit (r 0x12) 19 || b = 20))] ++
      (if first then (0x46, putBits (r 0x46) 0 5 b) :: (List.range 4).map fun k => (0x47 + k, bits header (32 * k) 32) else []),
   if !masked && lets then some (if fatal then 0x33 else 0x31) else none)

/-- The effect of a correctable error. -/
def aerCorrWrites (r : Nat → Nat) (b : Nat) : List (Nat × Nat) × Option Nat :=
  ([(0x44, putBit (r 0x44) b true), (0x12, putBit (r 0x12) 16 true)], if !bit (r 0x45) b && bit (r 0x12) 0 then some 0x30 else none)

/-- A function of a partition logs an error. -/
def aerApply (s : State) (v fn : Nat) (w : List (Nat × Nat) × Option Nat) : State :=
  let s := w.1.foldl (fun s q => setCfgReg s v fn q.1 q.2) s
  match w.2 with
  | some c => errorMessage s v fn c
  | none => s

/-- A register of the upstream function that this module presents for a partition of another module (R117). -/
def upReg (s : State) (p dw : Nat) : Nat := Tbl.get (warpPort s p).upCfg dw (cfgInit 240 dw)

def setUpReg (s : State) (p dw x : Nat) : State :=
  setWarp s p { warpPort s p with upCfg := Tbl.set (warpPort s p).upCfg dw (x % 2 ^ 32) }

/-- A warp port logs an error through the function that presents it: a function of its partition, or the upstream function of an
exported port. -/
def aerPort (s : State) (p : Nat) (f : (Nat → Nat) → List (Nat × Nat) × Option Nat) : State :=
  if !isWarp s p then s
  else
    match portPart s p with
    | some v => aerApply s v (portFn s p) (f (cfgReg s v (portFn s p)))
    | none =>
      if isDown s p then s
      else
        let w := f (upReg s p)
        let s := w.1.foldl (fun s q => setUpReg s p q.1 q.2) s
        match w.2 with
        | some c => errorMessage s (32 + p) 240 c
        | none => s

/-- A warp port logs an error of a cause. -/
def aerLog (s : State) (p cause header : Nat) : State :=
  match aerBit cause with
  | some b => aerPort s p fun r => aerWrites r b header
  | none => s

/-- A warp port answers a request as unsupported. -/
def aerUnsupported (s : State) (p header : Nat) : State := aerPort s p fun r => aerWrites r 20 header

/-- A warp port logs a receiver error that its data link layer has corrected. -/
def aerReceiver (s : State) (p : Nat) : State := aerPort s p fun r => aerCorrWrites r 0

/-! ### Virtual channels (R112, R114) -/

/-- The virtual channel of a traffic class at a port: the map of its second channel's control register, where it has one enabled. -/
def tcVc (s : State) (p tc : Nat) : Nat :=
  let w := match portPart s p with
    | some v => cfgReg s v (portFn s p) 0xA8
    | none => upReg s p 0xA8
  if cfgv s 0x3107 (p + 1) = 2 && bit w 31 && bit w tc then 1 else 0

end Sys2Proof.Machine
end

