-- ==== Sys2Proof/Machine/Selvedge.lean ====
section
/-!
DEFINITION. The selvedges (chapter 12): the classes and actions of R343, the error logs, the charge to a partition, and
partition isolation. Selvedge `x` is 0 to 127 for the ports, 128 for the internal targets, 129 for the dobby.
-/

namespace Sys2Proof.Machine

/-- A completion for a request of a partition that has been reset since is discarded and counted (R126). -/
def discardCompletion (s : State) (v : Nat) : State :=
  setPart s v { partOf s v with discarded := (partOf s v).discarded + 1 }

/-! ### Classes and actions (R340 to R343) -/

/-- The class of a cause: 0 correctable, 1 contained, 2 fatal. -/
def errClass (cause : Nat) : Nat := if cause ≤ 4 then 0 else if cause < 40 then 1 else 2

/-- The bit of SEL_CONTAIN_MASK of a cause. -/
def containBit (cause : Nat) : Option Nat :=
  match cause with
  | 13 => some 0 | 8 => some 1 | 9 => some 2 | 16 => some 3
  | _ => none

/-- The cause takes this downstream port into containment (R343, R348). -/
def contains (s : State) (p cause : Nat) : Bool :=
  isDown s p && (match containBit cause with
    | some b => bit (cfgv s 0x5104 (p + 1)) b
    | none => cause = 14)

/-- The action of a cause found at the ingress of a warp port. -/
def ingressAction (s : State) (p cause : Nat) : Nat :=
  if contains s p cause then 3
  else if errClass cause = 0 then 0
  else
    match cause with
    | 10 => 6
    | 12 => 2
    | _ => 1

/-- The rank of an action among several (R342): 6 counts as lower than 1 and 2. -/
def actionRank (a : Nat) : Nat :=
  match a with
  | 0 => 0 | 6 => 1 | 1 => 2 | 2 => 3 | 3 => 4 | 4 => 5 | 5 => 6
  | _ => 7

/-! ### Logs (R344 to R346) -/

/-- Latch an error that is not correctable, or add to OVERFLOW. -/
def selLatch (s : State) (x cause action : Nat) (vs : Option Nat) (header : Nat) : State :=
  let l := match Tbl.find? s.sel.log x with
    | some l => { l with overflow := min 65535 (l.overflow + 1) }
    | none => { cls := errClass cause, cause := cause, action := action, vs := vs, time := s.ft % 2 ^ 48,
                header := header % 2 ^ 128 }
  { s with sel := { s.sel with log := Tbl.set s.sel.log x l } }

/-- A contained error: logged here and in the port's AER capability (R341), counted, charged to its partition, reported at most once per 1 ms (R345, R357). -/
def selContained (s : State) (x cause action : Nat) (vs : Option Nat) (header : Nat) : State :=
  let s := count (selLatch (aerLog s x cause header) x cause action vs header) (ctrSel x 1) 1
  let s := match vs with
    | some v => count (setPart s v { partOf s v with errors := ((partOf s v).errors + 1) % 2 ^ 32 }) (ctrPart v 2) 1
    | none => s
  rateEvent s 0x0901 x ms fun s n =>
    eventFull s 0x0901 x 2 vs false (x + at_ 16 cause + at_ 24 action + at_ 27 (vs.getD 0) + at_ 32 (n % 2 ^ 32))

/-- The cause counted most often. -/
def mostFrequent (t : Tbl Nat) : Nat := (t.foldl (fun (b : Nat × Nat) r => if b.2 < r.2 then r else b) (0, 0)).1

/-- A correctable error: counted, and reported once for a second beyond SEL_CORR_LIMIT (R346). -/
def selCorrectable (s : State) (x cause : Nat) : State :=
  let s := count s (ctrSel x 0) 1
  let s := if cause = 1 then aerReceiver s x else s
  let c := Tbl.get s.sel.corr x { since := s.now }
  let c := if elapsed s c.since sec then { since := s.now } else c
  let c := { c with total := c.total + 1, byCause := Tbl.set c.byCause cause (Tbl.get c.byCause cause 0 + 1) }
  let lim := cfgv s 0x5103 (x + 1)
  let due := lim ≠ 0 && lim < c.total && !c.told
  let s := { s with sel := { s.sel with corr := Tbl.set s.sel.corr x { c with told := c.told || due } } }
  if due then eventFull s 0x0900 x 1 none false (x + at_ 16 (mostFrequent c.byCause) + at_ 32 (c.total % 2 ^ 32)) else s

/-- SEL_ERR_CLEAR (R344). -/
def actSelErrClear (x : Nat) (s : State) : State := { s with sel := { s.sel with log := Tbl.erase s.sel.log x } }

def execSelErrClear (sess : Nat) (d : Dest) (value : Nat) (s : State) : Host.Outcome State Fault Refusal :=
  .next (actWrite s sess 0x5102 (d + 1) value 0 id (onOne value (actSelErrClear d)))

/-- SEL_ERR_LOG as its 256 bits (R344). -/
def SelLog.word (l : SelLog) : Nat :=
  at_ 255 1 + at_ 239 l.overflow + at_ 237 l.cls + at_ 229 (l.cause % 256) + at_ 226 (l.action % 8) + at_ 225 (b2n l.vs.isSome) +
    at_ 220 (l.vs.getD 0 % 32) + at_ 128 l.time + l.header % 2 ^ 128

/-! ### IDE keys (R503) -/

def ideKey (p stream : Nat) : Nat := p * 65536 + stream

/-- Discard the keys of every stream of a port. -/
def discardIde (s : State) (p cause : Nat) : State :=
  let gone := (Tbl.keys s.vault.ide).filter fun k => k / 65536 = p
  let s := { s with vault := { s.vault with ide := s.vault.ide.filter fun r => r.1 / 65536 ≠ p }
                    warp := { s.warp with ideSel := s.warp.ideSel.filter fun q => q.1 ≠ p } }
  gone.foldl (fun s k => event s 0x0B27 0 (p + at_ 16 (k % 65536 % 256) + at_ 24 cause)) s

/-- The keys that a partition's ports hold go with its reset or isolation. -/
def discardPartIde (s : State) (v : Nat) : State :=
  ((List.range 128).filter fun p => portPart s p = some v).foldl (fun s p => discardIde s p 2) s

/-! ### Partition isolation (R351, R352) -/

/-- Isolate an enabled partition. -/
def isolate (s : State) (v cause : Nat) : State :=
  if vsState s v = 0 then s
  else
    let s := selContained s 128 cause 5 (some v) 0
    let s := setPart s v { partOf s v with st := 3, isolateCause := cause, reloading := none }
    let s := discardPartIde (count s (ctrSel 128 6) 1) v
    eventFull s 0x0905 128 2 (some v) false (128 + at_ 16 v + at_ 24 cause)

/-- A write of SEL_ISOLATE_CMD: a disabled partition, or one isolated already, stays as it is. -/
def actSelIsolate (v : Nat) (s : State) : State := if vsState s v = 3 then s else isolate s v 27

/-- SEL_ISOLATE_CMD (R351). -/
def execSelIsolateCmd (sess : Nat) (v : Vs) (value : Nat) (s : State) : Host.Outcome State Fault Refusal :=
  .next (actWrite s sess 0x5106 (v + 1) value 0 id (onOne value (actSelIsolate v)))

/-- ROUTING_STATE_ERROR (R352): the ingress is held and a reload starts. -/
def routingStateError (v : Nat) (s : State) : State :=
  if vsState s v = 0 ∨ (partOf s v).reloading.isSome ∨ ¬ coreRuns s then s
  else setPart s v { partOf s v with reloading := some s.now }

def execRoutingStateError (v : Vs) (s : State) : Host.Outcome State Fault Refusal := .next (routingStateError v s)

/-- SHADOW_RELOAD_DONE (R352): the state is restored, a correctable error, or the partition is isolated with cause 26. -/
def shadowReloadDone (v : Nat) (ok : Bool) (s : State) : State :=
  match (partOf s v).reloading with
  | none => s
  | some _ =>
    let s := setPart s v { partOf s v with reloading := none }
    if ok then
      let s := count (selCorrectable s 128 4) (ctrSel 128 7) 1
      event s 0x090A 128 (128 + at_ 16 v)
    else isolate s v 26

def execShadowReloadDone (v : Vs) (ok : Bool) (s : State) : Host.Outcome State Fault Refusal := .next (shadowReloadDone v ok s)

end Sys2Proof.Machine
end

