-- ==== Sys2Proof/Machine/Heddles.lean ====
section
/-!
DEFINITION. The heddles (chapter 11): rule sets, the check of R327, denials, commits and their epochs, and the debug
access port. Heddle `h` is 0 to 129, region `r` is 0 to 63.
-/

namespace Sys2Proof.Machine

def activeMap (s : State) (i : Nat) : Nat := Tbl.get s.hed.map i 0

/-! ### Pending sets -/

def pendingRegion (s : State) (h r : Nat) : Nat := Tbl.get s.cfg (regionKey h r) 0

/-- HED_OWN_PASS as pending; those of H128 and H129 have one value each (R338). -/
def pendingOwn (s : State) (h : Nat) : Nat := if h = 128 then 1 else if h = 129 then 0 else cfgv s 0x5002 (h + 1)

def pendingMap (s : State) (i : Nat) : Nat := cfgv s 0x5010 (i + 1)

/-! ### Requester classes (R323, R324) -/

/-- The class of a request delivered through a window. -/
def fabricClass (s : State) (mid vs kind : Nat) : Nat :=
  let fits := fun (w : Nat) => bit w 31 && bits w 20 10 = mid && (bit w 30 || (kind ≠ 1 && bits w 15 5 = vs))
  match (List.range 64).find? fun i => fits (activeMap s i) with
  | some i => 32 + bits (activeMap s i) 0 4
  | none => 47

/-- A check of the inbound set: window `w`, with a supervisory address modifier or not (R330). -/
def inboundCheck (s : State) (w : Nat) (supervisor : Bool) (kind addr len : Nat) : Verdict :=
  regionCheck s 129 32 64 { cls := if supervisor then w else 16 + w, kind := kind, addr := addr, len := len }

/-- One of the three attribute controls: 0 pass, 1 clear, 2 set. -/
def control (c : Nat) (v : Bool) : Bool :=
  match c with
  | 1 => false
  | 2 => true
  | _ => v

/-- The attributes with which a passing access is delivered (R329). -/
def stamped (w : Nat) (t : Tlp) : Tlp :=
  { t with
    ns := control (bits w 62 2) t.ns
    ro := control (bits w 60 2) t.ro
    ido := control (bits w 58 2) t.ido
    tph := match bits w 56 2 with
      | 1 => none
      | 2 => some (bits w 54 2, bits w 46 8)
      | _ => t.tph }

/-! ### Denials (R333, R334) -/

/-- The privileged counter of a denial. -/
def denyCounter (h cls : Nat) (inbound : Bool) : Nat :=
  if cls = 50 then 4 else if cls = 49 then 5 else if h < 128 then 0 else if h = 128 then 1 else if inbound then 3 else 2

/-- Count and record a denial. For the inbound set the class recorded is 48, a VME master. -/
def denied (s : State) (h cls kind : Nat) (inbound : Bool) (addr region sub : Nat) : State :=
  let s := privCount s (denyCounter h cls inbound)
  let l := Tbl.get s.hed.denied h {}
  let l := { l with address := addr % 2 ^ 64, time := s.ft % 2 ^ 48, cls := cls, kind := kind, region := region, sub := sub,
                    epoch := s.hed.epoch, count := (l.count + 1) % 2 ^ 32 }
  let s := { s with hed := { s.hed with denied := Tbl.set s.hed.denied h l } }
  let info := at_ 58 cls + addr % 2 ^ 58
  if cls = 50 then event s 0x0801 h info
  else if cls = 49 then event s 0x0802 h info
  else rateEvent s 0x0800 h ms fun s _ => event s 0x0800 h info

/-- The denials noted in the step are recorded. -/
def denialsRecorded (s : State) : State :=
  let ds := s.hed.late
  ds.foldl (fun s d => denied s d.heddle d.cls d.kind false d.addr d.region d.sub) { s with hed := { s.hed with late := [] } }

/-- A heddle passes a request: counted, and seen by the filter of block 5. -/
def passed (s : State) (h : Nat) (ownPass : Bool) (i : FilterItem) : State :=
  filterItem (count s (ctrHed h (if ownPass then 1 else 0)) 1) 5 i

/-- HED_DENY_LOG as its 256 bits. -/
def DenyLog.word (l : DenyLog) : Nat :=
  at_ 192 l.address + at_ 144 l.time + at_ 138 (l.cls % 64) + at_ 134 (l.kind % 16) + at_ 127 (l.region % 128) +
    at_ 124 (l.sub % 8) + at_ 108 (l.epoch % 65536) + at_ 76 l.count

/-! ### Commit (R335 to R337) -/

/-- The cause for which a pending region is refused, or 0. -/
def regionCause (h r w : Nat) : Nat :=
  let base := bits w 80 48 * 65536
  let n := bits w 74 6
  let both := bits w 192 64 ||| bits w 128 64
  if lockedRegion h r then if w = 0 then 0 else 4
  else if bit w 65 && (n < 16 || base % 2 ^ n ≠ 0) then 1
  else if bits w 0 46 ≠ 0 || bits w 62 2 = 3 || bits w 60 2 = 3 || bits w 58 2 = 3 || bits w 56 2 = 3 then 2
  else if bits both 50 14 ≠ 0 || (h = 129 && 32 ≤ r && bits both 32 32 ≠ 0) then 3
  else 0

def mapCause (w : Nat) : Nat := if bits w 4 11 ≠ 0 then 2 else 0

/-- The first offence of the pending sets, as HED_COMMIT_DETAIL. -/
def pendingOffence (s : State) : Option Nat :=
  let regions := (List.range 130).flatMap fun h => (List.range 64).map fun r => (h, r)
  match regions.find? fun q => regionCause q.1 q.2 (pendingRegion s q.1 q.2) ≠ 0 with
  | some (h, r) => some (r + at_ 8 h + at_ 16 (regionCause h r (pendingRegion s h r)))
  | none =>
    match (List.range 64).find? fun i => mapCause (pendingMap s i) ≠ 0 with
    | some i => some (i + at_ 8 0xFF + at_ 16 (mapCause (pendingMap s i)))
    | none => none

def mapChanged (s : State) : Bool := (List.range 64).any fun i => pendingMap s i ≠ activeMap s i

/-- The pending set of a heddle differs from its active set. -/
def heddleChanged (s : State) (h : Nat) : Bool :=
  pendingOwn s h ≠ activeOwn s h ||
    ((List.range 64).any fun r => !lockedRegion h r && pendingRegion s h r ≠ activeRegion s h r)

/-- The pending sets become the active ones. -/
def activate (s : State) : State :=
  { s with hed := { s.hed with
      active := (s.cfg.filter fun c => regionKey 0 0 ≤ c.1 && c.1 ≤ regionKey 129 63 && c.1 % 2 ^ 24 = key 0x5001 3).map
        fun c => (c.1 / 2 ^ 24 - 1, c.2)
      own := (List.range 130).map fun h => (h, pendingOwn s h)
      map := (List.range 64).map fun i => (i, pendingMap s i) } }

/-- Refuse a heddle commit. -/
def hedRefuse (s : State) (detail : Nat) : State :=
  event { s with hed := { s.hed with status := 3, detail := detail } } 0x0805 0 detail

/-- A write of 1 to HED_COMMIT. -/
def actHedCommit (s : State) : State :=
  if s.hed.draining then hedRefuse s (at_ 16 5)
  else
    match pendingOffence s with
    | some d => hedRefuse s d
    | none =>
      let changed := if mapChanged s then List.range 130 else (List.range 130).filter (heddleChanged s)
      let e := if s.hed.epoch = 65535 then 1 else s.hed.epoch + 1
      let s := activate s
      let s := { s with hed := { s.hed with epoch := e, status := 1, detail := 0, changed := changed, draining := true,
                                            drainSince := s.now } }
      event s 0x0803 0 (e + at_ 16 changed.length)

/-- HED_COMMIT (R335). -/
def execHedCommit (sess value : Nat) (s : State) : Host.Outcome State Fault Refusal :=
  .next (actWrite s sess 0x5000 2 value 0 id (onOne value actHedCommit))

/-- Requests of the previous epoch still at changed heddles (HED_COMMIT_OUTSTANDING): waiting in the queue of a changed
heddle's target, or written out and not yet visible. -/
def previousEpoch (s : State) : Nat :=
  let old := fun (d e : Nat) => e ≠ 0 && e ≠ s.hed.epoch && d ∈ s.hed.changed
  ((List.range 130).map fun d => ((vget s.loom.queue d []).filter fun i => old d i.epoch).length).sum +
    (s.win.unseen.filter fun u => u.left && old u.dest u.epoch).length

/-- HED_COMMIT_COMPLETE (R336). -/
def hedCommitComplete (s : State) : State :=
  if s.hed.draining ∧ previousEpoch s = 0 then
    let s := { s with hed := { s.hed with status := 2, draining := false } }
    event s 0x0804 0 (s.hed.epoch + at_ 32 ((s.now - s.hed.drainSince) / us % 2 ^ 32))
  else s

def execHedCommitComplete (s : State) : Host.Outcome State Fault Refusal := .next (hedCommitComplete s)

/-! ### The debug access port (R332) -/

/-- Bytes of MAKER_TRIM, which stands at offset 0 of region 57 (R553). -/
def trimBytes : Nat :=
  match objRow 0x7F10 0 with
  | some r => typeBytes r.typ r.len
  | none => 0

/-- DEBUG_ACCESS (R498): checked at H128 as class 50. A denied read returns 0 and a denied write is discarded; what a
granted access finds behind a locked region is the maker's (R553), a free value; beyond the locked regions a read returns
0. -/
def debugAccess (write : Bool) (addr len : Nat) (s : State) : State :=
  if !coreRuns s then s else
  match heddleCheck s 128 { cls := 50, kind := b2n write, addr := addr, len := len } with
  | .deny a r sub =>
    let s := denied s 128 50 (b2n write) false a r sub
    if write then s else emit s (.tdo 0)
  | .own => s
  | .region w =>
    let s := passed s 128 false { cls := some 50, typ := if write then 0 else 1, addr := some addr, bytes := len }
    if write then s
    else if 0xF001000000 ≤ addr && addr + len ≤ 0xF001000000 + trimBytes then
      emit s (.tdo (cfgv s 0x7F10 0 / 2 ^ (8 * (addr - 0xF001000000)) % 2 ^ (8 * len)))
    else if bit w 64 then emit (afterFree s) (.tdo (freeValue s % 2 ^ (8 * len)))
    else emit s (.tdo 0)

def execDebugAccess (write : Bool) (addr len : Nat) (s : State) : Host.Outcome State Fault Refusal :=
  .next (debugAccess write addr len s)

end Sys2Proof.Machine
end

