-- ==== Sys2Proof/Machine/Reports.lean ====
section
/-!
DEFINITION. The latched reports of a lost write: posted failures (R289 to R291), the dobby's outbound and inbound bus error
logs (R401, R402), and the raise of a VME interrupt (R407) that the inbound log may ask for.
-/

namespace Sys2Proof.Machine

/-! ### Posted failures (R289) -/

/-- A posted write of a function of partition `part` has failed. The severity is that of an exhausted direction (cause 21)
for reason 16, and 0 otherwise. -/
def postedFailure (s : State) (part func c mid window offset seq reason : Nat) : State :=
  let sev := if reason = 16 then 2 else 0
  let seq := if reason = 17 || reason = 18 then 0 else seq
  let s := eventFull s 0x0700 0 sev (some part) true (offset % 2 ^ 41 + at_ 41 (window % 65536) + at_ 57 (reason % 128))
  let s := eventFull s 0x0701 0 sev (some part) false (c % 16384 + at_ 14 (mid % 1024) + at_ 32 seq)
  let s := count s (ctrWin part 4) 1
  let s := { s with win := { s.win with failCount := Tbl.set s.win.failCount part ((Tbl.get s.win.failCount part 0 + 1) % 2 ^ 32) } }
  match Tbl.find? s.win.fails part with
  | some l => { s with win := { s.win with fails := Tbl.set s.win.fails part { l with overflow := min 65535 (l.overflow + 1) } } }
  | none =>
    let l : FailLog := { reason := reason, func := func, cid := c, mid := mid, window := window, offset := offset, seq := seq,
                         time := s.ft % 2 ^ 48 }
    msi { s with win := { s.win with fails := Tbl.set s.win.fails part l } } part 0 (cfgv s 0x4312 (part + 1))

/-- POSTFAIL_LOG as its 256 bits (R290). -/
def FailLog.word (l : FailLog) : Nat :=
  at_ 255 1 + at_ 239 l.overflow + at_ 231 (l.reason % 256) + at_ 220 (l.func % 2048) + at_ 206 (l.cid % 16384) + at_ 196 (l.mid % 1024) +
    at_ 180 (l.window % 65536) + at_ 139 (l.offset % 2 ^ 41) + at_ 107 l.seq + l.time

/-- A write of POSTFAIL_CLEAR. -/
def actPostfailClear (v : Nat) (s : State) : State := { s with win := { s.win with fails := Tbl.erase s.win.fails v } }

/-- POSTFAIL_CLEAR (R289). -/
def execPostfailClear (sess : Nat) (v : Vs) (value : Nat) (s : State) : Host.Outcome State Fault Refusal :=
  .next (actWrite s sess 0x4311 (v + 1) value 0 id (onOne value (actPostfailClear v)))

/-! ### The dobby's logs (R401, R402) -/

/-- A bus error log as its 256 bits (R401). -/
def DobLog.word (l : DobLog) : Nat :=
  at_ 255 1 + at_ 239 l.overflow + at_ 231 (l.reason % 256) + at_ 227 (l.win % 16) + at_ 221 (l.am % 64) + at_ 206 (l.pgid % 32768) +
    at_ 64 (l.addr % 2 ^ 64) + l.time

/-- A posted write of partition `v` to the dobby is dropped. -/
def dobbyDropped (s : State) (v reason w am addr : Nat) : State :=
  let sev := if reason = 1 || reason = 2 then 2 else 0
  let s := eventFull s 0x0A00 0 sev (some v) false (reason + at_ 8 w + at_ 12 am + at_ 32 (addr % 2 ^ 32))
  match Tbl.find? s.dob.berr v with
  | some l => { s with dob := { s.dob with berr := Tbl.set s.dob.berr v { l with overflow := min 65535 (l.overflow + 1) } } }
  | none =>
    let l : DobLog := { reason := reason, win := w, am := am, pgid := cfgv s 0x4100 1 % 1024 * 32 + v, addr := addr, time := s.ft % 2 ^ 48 }
    msi { s with dob := { s.dob with berr := Tbl.set s.dob.berr v l } } v 0 (cfgv s 0x6015 (v + 1))

/-- A raise of a VME interrupt: partition 32 is the dobby itself. -/
def dobRaise (s : State) (level part ident : Nat) : State :=
  { s with dob := { s.dob with raises := s.dob.raises ++ [(level, part, ident)] } }

/-- An inbound write has failed after DTACK: reason 8 refused, 9 no answer. -/
def inboundFailed (s : State) (w reason addr : Nat) : State :=
  let s := event s 0x0A03 0 (reason + at_ 8 w)
  match s.dob.inBerr with
  | some l => { s with dob := { s.dob with inBerr := some { l with overflow := min 65535 (l.overflow + 1) } } }
  | none =>
    let l : DobLog := { reason := reason, win := w, am := 0, pgid := 0, addr := addr, time := s.ft % 2 ^ 48 }
    let s := { s with dob := { s.dob with inBerr := some l } }
    let lvl := cfgv s 0x6019 1
    if 1 ≤ lvl && lvl ≤ 7 && bit (cfgv s 0x6024 1) lvl && !(s.dob.raises.any fun r => r.1 = lvl && r.2.1 = 32) then dobRaise (count s (ctrDob (70 + lvl)) 1) lvl 32 (cfgv s 0x6019 2) else s

end Sys2Proof.Machine
end

