-- ==== Sys2Proof/Machine/Loom.lean ====
section
/-!
DEFINITION. The loom (chapter 6): bobbin accounts and chains, queues, the mark, ageing, spill and the beam. Destination
`d` and source `src` are 0 to 127 for the ports, 128 for the internal targets, 129 for the dobby; source 130 owns what no
source owns.
-/

namespace Sys2Proof.Machine

/-! ### Accounts (R151, R157) -/

def chainOf (s : State) (c : Nat) : Option Chain := Tbl.find? s.loom.chains c
def setChain (s : State) (c : Nat) (x : Chain) : State := { s with loom := { s.loom with chains := Tbl.set s.loom.chains c x } }

/-- Bobbins of the chains that meet a test. -/
def bobbins (s : State) (f : Chain → Bool) : Nat := ((s.loom.chains.filter fun r => f r.2).map fun r => r.2.size).sum

/-- RESERVE_USED 0x4003. -/
def reserveUsed (s : State) (src : Nat) : Nat := bobbins s fun c => c.account = .reserve src

/-- Bobbins of the shared pool that a source holds. -/
def sharedHeld (s : State) (src : Nat) : Nat := bobbins s fun c => c.account = .shared src

/-- LEDGER_RESIDENT 0x4022:03. -/
def ledgerResident (s : State) : Nat := bobbins s fun c => c.account = .ledger

/-- MCAST_USED 0x4042. -/
def mcastUsed (s : State) : Nat := bobbins s fun c => c.mcast

/-- Bobbins of the shared pool: the store less every reservation and the readback reserve (R152). -/
def sharedTotal (s : State) : Nat := 524288 - ((List.range 130).map fun i => cfgv s 0x4001 (i + 1)).sum - 4096

/-- SHARED_FREE 0x4004. -/
def sharedFree (s : State) : Nat :=
  sharedTotal s - (bobbins s fun c => match c.account with
    | .shared _ | .ledger | .completion _ => true
    | _ => false) - s.loom.compHeld

/-- What follows a change of the free bobbins: the lowest value, since when a chain waits that the pool has no room for (R182),
spill on or off (R165), the end of exhaustion. -/
def poolChanged (s : State) : State :=
  let f := sharedFree s
  let m := match s.loom.freeMin with
    | some m => min m f
    | none => f
  let s := { s with loom := { s.loom with freeMin := some m } }
  let waits := s.loom.chains.any fun r => match r.2.account with
    | .reserve _ => f < r.2.size
    | _ => false
  let s := { s with loom := { s.loom with stuckSince := if waits then some (s.loom.stuckSince.getD s.now) else none } }
  let s :=
    if !s.loom.spillActive && f < cfgv s 0x4020 2 then
      event (count { s with loom := { s.loom with spillActive := true } } (ctrLoomAll 4) 1) 0x0400 0 (at_ 16 f)
    else if s.loom.spillActive && cfgv s 0x4020 3 < f then
      event { s with loom := { s.loom with spillActive := false } } 0x0401 0 (at_ 16 f)
    else s
  if s.loom.exhausted && 4096 < f then event { s with loom := { s.loom with exhausted := false } } 0x0403 0 (at_ 16 f) else s

/-- Credits of a warp port that its next UpdateFC returns: `k` is twice the virtual channel plus 1 for a non-posted request. -/
def warpFreed (s : State) (p k n : Nat) : State :=
  let x := warpPort s p
  let f := Tbl.set x.freed (2 * k) (Tbl.get x.freed (2 * k) 0 + 1)
  setWarp s p { x with freed := Tbl.set f (2 * k + 1) (Tbl.get f (2 * k + 1) 0 + n) }

/-- The credits a chain holds back go to the peer (R91, R151); none does during a warm reset (R434). -/
def returnCredit (s : State) (c : Chain) : State :=
  match c.credit with
  | some (p, k, n) => if s.module.warm.isSome then s else if isWarp s p then warpFreed s p k n else weftRelease s p k n
  | none => s

/-- A multicast chain is held back while multicast chains exceed MCAST_MAX (R160). -/
def mcastHeld (s : State) (c : Chain) : Bool := c.mcast && cfgv s 0x4041 0 < mcastUsed s

/-- The conditions of R151 hold for a chain in the reservation of `src`. -/
def mayPromote (s : State) (src : Nat) (c : Chain) : Bool :=
  c.size ≤ sharedFree s && sharedHeld s src + c.size ≤ cfgv s 0x4002 (src + 1) && !mcastHeld s c

/-- Promote a chain when the conditions hold; one that MCAST_MAX holds back is told once. -/
def promote (s : State) (id : Nat) : State :=
  match chainOf s id with
  | none => s
  | some c =>
    match c.account with
    | .reserve src =>
      if mcastHeld s c then
        if c.held then s
        else event (count (setChain s id { c with held := true }) (ctrLoomAll 2) 1) 0x0409 0 (src + at_ 16 (mcastUsed s))
      else if mayPromote s src c then
        let s := returnCredit s c
        let s := setChain s id { c with account := .shared src, credit := none }
        poolChanged { s with loom := { s.loom with stuckSince := none } }
      else s
    | _ => s

/-- Store an item: a new chain in its source's reservation, promoted at once when it may be. -/
def storeChain (s : State) (src size : Nat) (mcast : Bool) (credit : Option (Nat × Nat × Nat)) : State × Nat :=
  let id := s.loom.nextChain
  let s := { s with loom := { s.loom with nextChain := id + 1 } }
  let s := setChain s id { size := size, account := .reserve src, src := src, refs := 1, mcast := mcast, credit := credit }
  (poolChanged (promote s id), id)

/-- Free a chain's bobbins (R156). -/
def freeChain (s : State) (id : Nat) : State :=
  match chainOf s id with
  | none => s
  | some c =>
    let s := returnCredit s c
    poolChanged { s with loom := { s.loom with chains := Tbl.erase s.loom.chains id } }

/-- Drop a reference: the last one frees the chain; with only the ledger's left it becomes ledger-resident (R157). -/
def dropRef (s : State) (id : Nat) : State :=
  match chainOf s id with
  | none => s
  | some c =>
    if c.refs ≤ 1 then freeChain s id
    else if c.refs = 2 && c.ledger.isSome then
      let s := returnCredit s c
      poolChanged (setChain s id { c with refs := 1, account := .ledger, credit := none, residentSince := s.now })
    else setChain s id { c with refs := c.refs - 1 }

/-- A reference more (R156). -/
def addRef (s : State) (id : Nat) : State :=
  match chainOf s id with
  | none => s
  | some c => setChain s id { c with refs := c.refs + 1 }

/-- Bobbins released with no credit: what held them lives on elsewhere. -/
def eraseChain (s : State) (id : Nat) : State := { s with loom := { s.loom with chains := Tbl.erase s.loom.chains id } }

/-- What an arrived operation holds passes to the first chain made of it since chain number `k`, if there is one; else it is
freed (R151, R155). -/
def handOver (s : State) (chain : Option Nat) (k : Nat) : State :=
  match chain with
  | none => s
  | some old =>
    match chainOf s old, chainOf s k with
    | some o, some n =>
      match n.account with
      | .reserve _ => promote (setChain (eraseChain s old) k { n with credit := o.credit }) k
      | _ => freeChain s old
    | _, _ => freeChain s old

/-! ### Sizes and queues -/

/-- The stored size of a TLP (R147). -/
def tlpBytes (t : Tlp) : Nat := t.hdrBytes + t.data.length

def operBytes (o : WireOp) : Nat := 16 + o.body.length + o.tag.length

def cells (bytes : Nat) : Nat := max 1 (ceilDiv bytes 256)

def queueOf (s : State) (d : Nat) : List LoomItem := vget s.loom.queue d []
def setQueue (s : State) (d : Nat) (q : List LoomItem) : State := { s with loom := { s.loom with queue := vset s.loom.queue d q } }

/-- Bobbins of the (d, t) queue, resident and spilled. -/
def depth (s : State) (d tc : Nat) : Nat := (((queueOf s d).filter fun i => i.tc = tc).map fun i => cells i.bytes).sum

/-- Bobbins of a queue in the spill region, or on their way there or back. -/
def spilledBobbins (s : State) (d tc : Nat) : Nat :=
  (((queueOf s d).filter fun i => i.tc = tc && i.place ≠ .resident && i.copyOf.isNone).map fun i => cells i.bytes).sum

/-! ### Order (R150) -/

/-- The item is ordered as a fabric operation: Relaxed and ID-Based Ordering count as 0. -/
def ordersAsOper (i : LoomItem) : Bool :=
  match i.cargo with
  | .oper _ => true
  | .tlp _ => i.origin.outside && i.origin.window.isSome

/-- The later item has Relaxed Ordering set. -/
def relaxed (j : LoomItem) : Bool :=
  match j.cargo with
  | .tlp a => a.ro && !ordersAsOper j
  | .oper _ => false

/-- The later item has ID-Based Ordering set and stands under another ID than the earlier one. -/
def otherId (j i : LoomItem) : Bool :=
  match j.cargo, i.cargo with
  | .tlp a, .tlp b => a.ido && !ordersAsOper j && (if j.kind = 2 then a.completer ≠ b.rid else a.rid ≠ b.rid)
  | _, _ => false

/-- Item `j` may leave ahead of the earlier item `i` of its tuple. Kinds: 0 posted, 1 non-posted, 2 completion, 3 control. -/
def mayPass (j i : LoomItem) : Bool :=
  match j.kind, i.kind with
  | 0, k => k = 1 || k = 2
  | 1, 0 => otherId j i
  | 1, k => k = 2
  | 2, 0 => relaxed j || otherId j i
  | 2, k => k = 1
  | _, k => k ≠ 3

/-- The items have the same ingress, traffic class and ordering class. -/
def sameTuple (i j : LoomItem) : Bool := i.src = j.src && i.tc = j.tc && i.ord = j.ord

/-- R150 lets the item leave now. -/
def unblocked (q : List LoomItem) (j : LoomItem) : Bool :=
  (q.takeWhile fun i => i.id ≠ j.id).all fun i => !sameTuple i j || mayPass j i

/-! ### What the store holds of an item (R147, R163) -/

def connOf (s : State) (c : Nat) : Conn := Tbl.get s.shu.conns c {}
def setConn (s : State) (c : Nat) (x : Conn) : State := { s with shu := { s.shu with conns := Tbl.set s.shu.conns c x } }

def ownMid (s : State) : Nat := cfgv s 0x4100 1


/-- The MID under which a context sends: an adopted context uses the lost half's (R372). -/
def connMid (s : State) (c : Nat) : Nat := if c < 16384 then ownMid s else s.twin.lostMid

/-- The fields of an envelope that its sender sets. -/
structure EnvFields where
  typ : Nat
  tc : Nat := 0
  ord : Nat := 0
  acq : Bool := false
  rel : Bool := false
  gen : Nat := 0
  seq : Nat := 0
  cid : Nat := 0
  src : Nat
  dst : Nat
  stamp : Nat := 0

def EnvFields.word (e : EnvFields) : Nat :=
  1 + at_ 4 (e.typ % 16) + at_ 8 (e.tc % 8) + at_ 11 (e.ord % 4) + at_ 13 (b2n e.acq) + at_ 14 (b2n e.rel) + at_ 20 (e.dst % 131072) +
    at_ 37 (e.src % 131072) + at_ 54 (e.cid % 16384) + at_ 68 (e.seq % 2 ^ 32) + at_ 100 (e.gen % 65536) + at_ 116 (e.stamp % 4096)

/-- The plaintext body: header and data (R233 to R235); a FABRIC_CTL message is its data (R195). -/
def opBody (op : NewOp) : List Byte := if op.typ = 13 then op.data else leBytes 16 op.head ++ op.data

/-- The operation of a ledger entry, with the entry's stamp (R187). -/
def entryOp (s : State) (e : LedgerEntry) : WireOp :=
  let x := connOf s e.cid
  let env : EnvFields :=
    { typ := e.typ, tc := x.tc, ord := e.op.ord, acq := e.op.acq, rel := e.op.rel, gen := e.op.gen, seq := e.seq, cid := e.cid % 16384,
      src := connMid s e.cid * 128 + e.op.srcPort, dst := x.peerMid * 128 + e.op.dstPort, stamp := e.stamp }
  { env := BitVec.ofNat 128 env.word, body := opBody e.op, tag := [] }

def tlpKindCode : TlpKind → Nat
  | .memRead => 0 | .memReadLocked => 1 | .memWrite => 2 | .deferrableWrite => 3 | .ioRead => 4 | .ioWrite => 5 | .cfgRead => 6
  | .cfgWrite => 7 | .fetchAdd => 8 | .swap => 9 | .compareSwap => 10 | .completion => 11 | .message => 12 | .unlock => 13

def tlpKinds : List TlpKind :=
  [.memRead, .memReadLocked, .memWrite, .deferrableWrite, .ioRead, .ioWrite, .cfgRead, .cfgWrite, .fetchAdd, .swap, .compareSwap,
   .completion, .message, .unlock]

/-- The fields of a TLP as 41 bytes, in a form of the model's own (log entry 6: the spec takes the TLP's own form from PCI Express
and does not restate it). -/
def tlpHead (t : Tlp) : List Byte :=
  leBytes 1 (tlpKindCode t.kind) ++ leBytes 8 t.addr ++ leBytes 2 t.len ++ leBytes 1 (t.firstBe % 16 + 16 * (t.lastBe % 16)) ++
  leBytes 1 (t.tc + 8 * (t.atype % 4) + 32 * b2n t.digest) ++ leBytes 2 t.rid ++ leBytes 2 t.tag ++
  leBytes 1 (b2n t.ro + 2 * b2n t.ns + 4 * b2n t.ido + 8 * b2n t.ep + 16 * b2n t.tph.isSome + 32 * b2n t.ide.isSome) ++
  leBytes 1 (t.tph.getD (0, 0)).1 ++ leBytes 2 (t.tph.getD (0, 0)).2 ++ leBytes 2 t.hdrBytes ++ leBytes 2 (t.ide.getD 0) ++
  leBytes 2 t.completer ++ leBytes 1 t.status ++ leBytes 2 t.byteCount ++ leBytes 2 t.lowerAddr ++ leBytes 8 t.data.length ++ leBytes 1 t.code

/-- The bytes of a TLP inside a tunnel. -/
def tlpWire (t : Tlp) : List Byte := tlpHead t ++ t.data

/-- An operation as it is stored: envelope, body and tag. -/
def storedOper (o : WireOp) : List Byte := leBytes 16 o.env.toNat ++ o.body ++ o.tag

/-- The bytes of an item in its bobbins: an operation's own; of a TLP its header, in the model's form, and its data. -/
def cargoBytes : Cargo → List Byte
  | .oper o => storedOper o
  | .tlp t => fitBytes t.hdrBytes (tlpHead t) ++ t.data

/-- Place of a mirror-store entry in the ledger region of the beam, apart from the own ledger's entries (R365). -/
def mirrorPlace (k : Nat) : Nat := 65536 + k

/-- The bytes that the ledger keeps under a number: an own operation, or an entry of the mirror store. -/
def ledgerBytes (s : State) (l : Nat) : List Byte :=
  match Tbl.find? s.shu.ledger l with
  | some e => storedOper (entryOp s e)
  | none =>
    match Tbl.find? s.twin.store (l - mirrorPlace 0) with
    | some m => m.bytes
    | none => []

/-! ### Rates and the mark (R148, R170, R171); rates in units of 1/2560 Gb/s -/

/-- Payload rate per lane, in tenths of a Gb/s. -/
def laneRate (s : State) (p : Nat) : Nat :=
  if isWarp s p then
    match (warpPort s p).rate with
    | 1 => 20 | 2 => 40 | 3 => 79 | 4 => 158 | 5 => 315 | 6 => 590 | 7 => 1180
    | _ => 0
  else if (weftPort s p).rate = 1 then 1860 else if (weftPort s p).rate = 2 then 930 else 0

def trainedWidth (s : State) (p : Nat) : Nat := if isWarp s p then (warpPort s p).width else (weftPort s p).width

/-- R_eff of a port. -/
def rEff (s : State) (p : Nat) : Nat :=
  min (s.gov.capacity * portWidth s p * 10) (trainedWidth s p * laneRate s p * 256)

/-- C_svc (R148). -/
def cSvc (s : State) : Nat :=
  min (400 * 2560) (s.gov.capacity * 2560 - ((List.range 128).map fun p => if personality s p = 0 then 0 else rEff s p).sum)

/-- K of a destination, CONG_THRESHOLD 0x4032. -/
def markThreshold (s : State) (d : Nat) : Nat :=
  if d < 128 then max 34 (rEff s d * cfgv s 0x4030 (d + 1) / (2560 * 2048)) else max 34 (cSvc s * 2000 / (2560 * 2048))

/-- The prefetch depth of R167. -/
def prefetch (s : State) (d : Nat) : Nat := max 64 ((if d < 128 then rEff s d else cSvc s) * 3000 / (2560 * 2048))

/-- The loom marks a fabric operation that finds `n` bobbins ahead of it, by the free 16-bit draw `r`. -/
def marks (s : State) (d n r : Nat) : Bool :=
  let k := markThreshold s d
  k < n && (cfgv s 0x4031 0 = 1 || r * k < 65536 * (n - k))

/-! ### The ledger and the spill region (R162, R164) -/

/-- 256-byte units of the ledger region and of the spill region. -/
def ledgerRegion (s : State) : Nat := cfgv s 0x4021 1 * 4096
def spillRegion (s : State) : Nat := ((if Config.f48 then 49152 else 24576) - 768) * 4096 - ledgerRegion s

/-- The beam unit of a unit of each region. -/
def ledgerUnit (s : State) (k : Nat) : Nat := 768 * 4096 + (Config.beamOrigin + k) % ledgerRegion s
def spillUnit (s : State) (k : Nat) : Nat := 768 * 4096 + ledgerRegion s + (Config.beamOrigin + k) % spillRegion s

/-- Units in use. -/
def ledgerInUse (s : State) : List Nat := s.loom.beamLedger.flatMap Prod.snd ++ s.loom.chains.flatMap fun r => r.2.units
def spillInUse (s : State) : List Nat := s.loom.spillAt.flatMap Prod.snd

/-- The lowest `n` free units of a region of `total`; none when it has fewer. DESIGN CHOICE (log entry 112): the spec places no item
in a region. -/
def freeUnits (n total : Nat) (used : List Nat) : Option (List Nat) :=
  let us := (((List.range (used.length + n)).filter fun k => !used.contains k).take n)
  if us.all (· < total) then some us else none

/-- Hand bytes to the beam, unit by unit. -/
def beamStore (s : State) (units : List Nat) (bs : List Byte) : State :=
  (units.zip (List.range units.length)).foldl (fun s u => beamPut s u.1 ((bs.drop (256 * u.2)).take 256)) s

/-- Resident bobbins of the (d, t) queue ahead of an item. -/
def residentAhead (s : State) (d tc id : Nat) : Nat :=
  ((((queueOf s d).filter fun i => i.tc = tc).takeWhile fun i => i.id ≠ id).filter fun i => i.place = .resident || i.place = .reading).foldl
    (fun n i => n + cells i.bytes) 0

/-- The item of a queue that may be read back (R167): its first in the beam, when the resident data ahead is below the prefetch
depth and bobbins remain for it. -/
def readbackCan (s : State) (d tc : Nat) : Option LoomItem :=
  match (queueOf s d).find? fun i => i.tc = tc && i.place = .spilled with
  | none => none
  | some i =>
    if prefetch s d ≤ residentAhead s d tc i.id then none
    else if sharedFree s < cells i.bytes && 4096 < (bobbins s fun c => c.account = .readback) + cells i.bytes then none
    else some i

/-- A readback is due somewhere. -/
def readbackDue (s : State) : Bool :=
  (List.range 130).any fun d => !(queueOf s d).isEmpty && (List.range 8).any fun tc => (readbackCan s d tc).isSome

/-- Ledger-resident chains, oldest first. -/
def residents (s : State) : List (Nat × Chain) :=
  sortBy (fun a b => a.2.residentSince ≤ b.2.residentSince)
    (s.loom.chains.filter fun r => r.2.account = .ledger && r.2.refs = 1 && !r.2.moving)

/-- The chain that must move to the beam: the oldest over age, in excess, or under pressure. -/
def moveDue (s : State) : Option (Nat × Chain) :=
  match residents s with
  | [] => none
  | (id, c) :: _ =>
    if elapsed s c.residentSince (cfgv s 0x4022 1 + 1) || cfgv s 0x4022 2 < ledgerResident s ||
       (sharedFree s < cfgv s 0x4020 2 && elapsed s c.residentSince (8 * us + 1)) then some (id, c) else none

/-- Write bandwidth is free for a spill write (R164, R166): no readback and no ledger move comes first, and the beam has taken what was
handed to it before (DEDUCED, log entry 112). -/
def writesFree (s : State) : Bool := beamFree s && (moveDue s).isNone && !readbackDue s

/-! ### Spill (R165, R166) -/

/-- A stack that takes spill writes remains. -/
def stackLeft (s : State) : Bool := if Config.f48 then !(bit s.loom.badStacks 0 && bit s.loom.badStacks 1) else !bit s.loom.badStacks 0

/-- An item may be spilled as it arrives (R166, R168). -/
def spillable (s : State) (d : Nat) (i : LoomItem) : Bool :=
  s.loom.spillActive && cfgOn s 0x4020 1 && stackLeft s && i.kind ≠ 3 && !i.mcast && i.relay.isNone && i.copyOf.isNone &&
    cfgv s 0x4020 4 ≤ depth s d i.tc && spilledBobbins s d i.tc < cfgv s 0x4020 5 * 4096

/-- The queue's spilled data has reached its limit for the first time: event 0x0407. -/
def spillLimit (s : State) (d tc : Nat) : State :=
  if cfgv s 0x4020 5 * 4096 ≤ spilledBobbins s d tc && !s.loom.spillTold.contains (8 * d + tc) then
    event { s with loom := { s.loom with spillTold := s.loom.spillTold ++ [8 * d + tc] } } 0x0407 0 (d + at_ 16 tc)
  else s

/-- Put an item at the end of a destination's queue. An eligible one is spilled when write bandwidth is free and the region has
room: units of it are taken, and the write starts. -/
def pushItem (s : State) (d : Nat) (i : LoomItem) : State :=
  let i := { i with id := s.loom.nextId }
  let s := { s with loom := { s.loom with nextId := s.loom.nextId + 1 } }
  let units := if spillable s d i && writesFree s then freeUnits (cells i.bytes) (spillRegion s) (spillInUse s) else none
  match units with
  | some us =>
    let s := count (setQueue s d (queueOf s d ++ [{ i with place := .spilling }])) (ctrLoom d 0) 1
    let s := beamTake { s with loom := { s.loom with spillAt := Tbl.set s.loom.spillAt i.id us } } us.length
    spillLimit (count s (ctrLoom d 1) (cells i.bytes)) d i.tc
  | none => count (setQueue s d (queueOf s d ++ [i])) (ctrLoom d 0) 1

/-- Change an item of a queue. -/
def withItem (s : State) (d id : Nat) (f : LoomItem → LoomItem) : State :=
  setQueue s d ((queueOf s d).map fun j => if j.id = id then f j else j)

/-- The items of every queue that meet a test, with their destinations. -/
def itemsWhere (s : State) (f : LoomItem → Bool) : List (Nat × LoomItem) :=
  (List.range 130).flatMap fun d => ((queueOf s d).filter f).map fun i => (d, i)

/-- The item whose spill write has been under way longest. -/
def oldestSpill (s : State) : Option (Nat × LoomItem) :=
  (itemsWhere s fun i => i.place = .spilling).foldl (fun b r => match b with
    | some (q : Nat × LoomItem) => if r.2.id < q.2.id then some r else some q
    | none => some r) none

/-- SPILL_WRITE_DONE (R163, R166): the oldest write under way completes: the beam holds the item, and its bobbins are freed. -/
def spillWriteDone (s : State) : State :=
  match oldestSpill s with
  | none => s
  | some (d, i) =>
    let s := beamStore s ((Tbl.get s.loom.spillAt i.id []).map (spillUnit s)) (cargoBytes i.cargo)
    dropRef (withItem s d i.id fun j => { j with place := .spilled }) i.chain

def execSpillWriteDone (s : State) : Host.Outcome State Fault Refusal := .next (spillWriteDone s)

/-! ### Enqueue (R149, R171) -/

/-- The kind of a TLP: 0 posted, 1 non-posted, 2 completion. -/
def tlpKind (t : Tlp) : Nat :=
  match t.kind with
  | .memWrite | .message | .unlock => 0
  | .completion => 2
  | _ => 1

/-- The filter type of a TLP (R514). -/
def tlpFilter (t : Tlp) : Nat :=
  match t.kind with
  | .memWrite | .message | .unlock => 0
  | .memRead | .memReadLocked => 1
  | .fetchAdd | .swap | .compareSwap => 2
  | .deferrableWrite => 3
  | .completion => 4
  | _ => 5

/-- A TLP as a filter of the local path sees it. -/
def tlpItem (t : Tlp) (cls : Option Nat) (master : Option (Nat × Nat × Nat)) : FilterItem :=
  { cls := if t.kind = .completion then none else cls, tc := t.tc, typ := tlpFilter t, master := master, addr := some t.addr,
    bytes := t.data.length }

/-- Queue a TLP at a destination, in a chain of its own; `ord` is the ordering class, 0 but for an operation delivered at its
target (R149). -/
def enqueueTlp (s : State) (d src : Nat) (o : Origin) (t : Tlp) (epoch ord : Nat) : State × Nat :=
  let (s, c) := storeChain s src (cells (tlpBytes t)) false none
  let s := filterItem s 2 (tlpItem t (some o.cls) (some (o.mid, o.vs, o.rid)))
  let id := s.loom.nextId
  (pushItem s d { id := 0, chain := c, src := src, tc := t.tc, kind := tlpKind t, ord := ord, bytes := tlpBytes t, cargo := .tlp t,
                  origin := o, stamp := s.now, epoch := epoch }, id)

/-- The kind of a fabric operation by its type (R149, R232). -/
def operKind (typ : Nat) : Nat :=
  match typ with
  | 0 | 5 | 6 => 0
  | 1 | 2 | 3 => 1
  | 4 => 2
  | _ => 3

def envTyp (o : WireOp) : Nat := bits o.env.toNat 4 4
def envOrd (o : WireOp) : Nat := bits o.env.toNat 11 2
def envClass (o : WireOp) : Nat := bits o.env.toNat 8 3
def envCid (o : WireOp) : Nat := bits o.env.toNat 54 14
def envSeq (o : WireOp) : Nat := bits o.env.toNat 68 32
def envSrc (o : WireOp) : Nat := bits o.env.toNat 37 17
def envDst (o : WireOp) : Nat := bits o.env.toNat 20 17
def envHops (o : WireOp) : Nat := bits o.env.toNat 16 4
def envStamp (o : WireOp) : Nat := bits o.env.toNat 116 12

/-- FABRIC_CTL, probes and beacons and the control operations go on their class as control items; the type 0xD carries
sequenced management traffic as a control item too (R192). -/
def envKind (o : WireOp) : Nat := operKind (envTyp o)

/-- A fabric operation as a filter sees it on its way: it has no class, no master and no address (R515). -/
def operFilter (o : WireOp) (bytes : Nat) : FilterItem :=
  { tc := envClass o, bytes := bytes
    typ := if envKind o = 3 then 7 else match envTyp o with | 1 => 1 | 2 => 2 | 3 => 3 | 4 => 4 | 5 => 6 | _ => 0 }

/-- The mark that a fabric operation of class `tc` gets at destination `d` as it is enqueued there (R171). -/
def drawMark (s : State) (d tc : Nat) : State × Bool :=
  let n := depth s d tc
  let m := marks s d n (freeValue s % 65536)
  let s := if markThreshold s d < n && cfgv s 0x4031 0 = 0 then afterFree s else s
  (if m then count s (ctrLoom d 3) 1 else s, m)

/-- An operation as an item of a queue. -/
def operItem (s : State) (src chain bytes : Nat) (o : WireOp) : LoomItem :=
  { id := 0, chain := chain, src := src, tc := envClass o, kind := envKind o, ord := envOrd o, bytes := bytes, cargo := .oper o,
    stamp := s.now }

/-- Queue a fabric operation for a weft or twin egress. `chain` is a stored chain that the new queue reference goes to. -/
def enqueueOper (s : State) (d src chain bytes : Nat) (o : WireOp) (own : Option (Nat × Nat)) : State :=
  let q := drawMark s d (envClass o)
  pushItem (filterItem q.1 2 (operFilter o bytes)) d { operItem s src chain bytes o with mark := q.2, own := own }

/-- Queue the copy of a ledger entry that lies in the beam (R159): it is read back by the rules of R167 (DEDUCED: in the place
in its queue where it would stand were it resident). -/
def enqueueCopy (s : State) (d bytes l cid : Nat) (o : WireOp) : State :=
  let q := drawMark s d (envClass o)
  pushItem (filterItem q.1 2 (operFilter o bytes)) d
    { operItem s 128 0 bytes o with mark := q.2, own := some (l, cid), copyOf := some l, place := .spilled }

/-! ### Windows and answers: what the loom does for others -/

/-- An admitted access of a window has drained (R273). -/
def winDrain (s : State) (w : Nat) : State :=
  match Tbl.find? s.win.windows w with
  | some x => { s with win := { s.win with windows := Tbl.set s.win.windows w { x with admitted := x.admitted - 1 } } }
  | none => s

/-- The write that an item carries is visible, or lost: it is forgotten here, and its window drains (R273, R284). A lost
one is reported with a NAK of reason LATE_DROP (R248). -/
def writeDone (s : State) (u : Unseen) (late : Bool) : State :=
  let s := { s with win := { s.win with unseen := s.win.unseen.filter fun x => x ≠ u } }
  let c := connOf s u.cid
  let s := if (Tbl.find? s.shu.conns u.cid).isSome then setConn s u.cid { c with unseen := c.unseen - 1 } else s
  let s := match u.window with
    | some w => winDrain s w
    | none => s
  if late then { s with shu := { s.shu with lateDrops := s.shu.lateDrops ++
    [{ cid := u.cid, seq := u.seq, window := u.window.getD 0, offset := u.offset, srcPort := u.srcPort, dstPort := u.dstPort }] } } else s

/-- The target keeps the completion of a request to a DEVICE window (R275). -/
def cacheAnswer (s : State) (w cid seq status : Nat) (data : List Byte) : State :=
  match Tbl.find? s.win.windows w with
  | some x =>
    let c := connOf s cid
    let f := fun (e : CacheEntry) => if e.mid = c.peerMid && e.cid = c.peerCid && e.seq = seq then { e with answer := some (status, data) } else e
    { s with win := { s.win with windows := Tbl.set s.win.windows w { x with cache := x.cache.map f } } }
  | none => s

/-- The pieces of `n` bytes from offset `o` that R235 allows: at most 4080 bytes, all but the last ending on a 64-byte
boundary. -/
def pieces : Nat → Nat → Nat → List (Nat × Nat)
  | 0, _, _ => []
  | fuel + 1, o, n =>
    if n ≤ 4080 then [(o, n)]
    else
      let k := (o + 4080) / 64 * 64 - o
      (o, k) :: pieces fuel (o + k) (n - k)

/-- The header of a COMPLETION (R234). -/
def completionHead (seq tag status remain n lower : Nat) (last : Bool) : Nat :=
  at_ 96 (seq % 2 ^ 32) + at_ 84 (tag % 4096) + at_ 81 (status % 8) + at_ 80 (b2n last) + at_ 67 (remain % 8192) + at_ 54 (n % 8192) +
    at_ 47 (lower % 128)

/-- Present the COMPLETION operations of a request to the shuttle (R235). -/
def presentCompletion (s : State) (cid seq tag status offset : Nat) (data : List Byte) : State :=
  let ps := pieces (data.length + 1) offset data.length
  let mk := fun (q : Nat × Nat) =>
    let off := q.1 - offset
    let last := off + q.2 = data.length
    { cid := cid, typ := 4, head := completionHead seq tag status (data.length - off) q.2 q.1 last,
      data := (data.drop off).take q.2 : NewOp }
  { s with shu := { s.shu with waiting := s.shu.waiting ++ ps.map mk } }

/-- The completion TLP that answers a request. Byte count and lower address as the standard has them: 4 and 0 but for the data
of a read (PRESUMED, log entry 61). It goes on the stream of its request (R141). -/
def completionFor (q : Tlp) (completer status : Nat) (data : List Byte) : Tlp :=
  let low := match q.kind with
    | .memRead | .memReadLocked => if status = 0 then q.addr % 128 else 0
    | _ => 0
  { kind := .completion, addr := q.rid, len := data.length, tc := q.tc, rid := q.rid, tag := q.tag, hdrBytes := 12, completer := completer,
    status := status, byteCount := if data.isEmpty then 4 else data.length, lowerAddr := low, data := data, ide := q.ide }

/-! ### The tunnel of an imported upstream port (R117, R232, R235) -/

/-- The TLP that such bytes carry. -/
def tlpOfWire (bs : List Byte) : Option Tlp :=
  match tlpKinds[leAt bs 0 1]? with
  | none => none
  | some k =>
    let f := leAt bs 17 1
    some { kind := k, addr := leAt bs 1 8, len := leAt bs 9 2, firstBe := leAt bs 11 1 % 16, lastBe := leAt bs 11 1 / 16,
           tc := Fin.ofNat 8 (leAt bs 12 1), atype := bits (leAt bs 12 1) 3 2, digest := bit (leAt bs 12 1) 5, code := leAt bs 40 1, rid := leAt bs 13 2, tag := leAt bs 15 2, ro := bit f 0, ns := bit f 1, ido := bit f 2,
           ep := bit f 3, tph := if bit f 4 then some (leAt bs 18 1, leAt bs 19 2) else none, hdrBytes := leAt bs 21 2,
           ide := if bit f 5 then some (leAt bs 23 2) else none, completer := leAt bs 25 2, status := leAt bs 27 1,
           byteCount := leAt bs 28 2, lowerAddr := leAt bs 30 2, data := (bs.drop 41).take (leAt bs 32 8) }

/-- Fragments of at most 4080 bytes with their mark: 0 whole, 1 first, 2 middle, 3 last. -/
def fragments : Nat → Bool → List Byte → List (Nat × List Byte)
  | 0, _, _ => []
  | fuel + 1, first, bs =>
    if bs.length ≤ 4080 then [(if first then 0 else 3, bs)]
    else (if first then 1 else 2, bs.take 4080) :: fragments fuel false (bs.drop 4080)

/-- Present a TLP as TUNNEL operations on a connection, from source `src`; `ask` is a request of the host here that awaits its
completion, and stands with the last of them (R130). DST_GPORT of the owner's names the exported port (R187). -/
def presentTunnel (s : State) (cid src : Nat) (ask : Option Origin) (t : Tlp) : State :=
  let bs := tlpWire t
  let mk := fun (f : Nat × List Byte) =>
    let last := f.1 = 0 || f.1 = 3
    { cid := cid, typ := 6, head := at_ 126 f.1 + at_ 113 f.2.length, data := f.2, src := src, origin := ask.getD {}
      srcPort := if src < 128 then src else 0
      dstPort := match s.fab.imported.find? fun a => a.pgid / 32 = ownMid s && a.cidA = cid with
        | some a => a.gport % 128
        | none => 0
      tlp := if last && ask.isSome then some t else none : NewOp }
  { s with shu := { s.shu with waiting := s.shu.waiting ++ (fragments (bs.length + 1) true bs).map mk } }

/-- The own context of the pair that carries partition `v` of this module (R210), or, for 32 and more, of the pair that carries
the partition with global ID `v - 32` of another module. -/
def tunnelCid (s : State) (v : Nat) : Option Nat :=
  if v < 32 then
    match s.fab.imported.find? fun a => a.pgid = cfgv s 0x4100 1 * 32 + v with
    | some a => some a.cidA
    | none => none
  else
    match s.fab.imported.find? fun a => a.pgid + 32 = v with
    | some a => some a.cidB
    | none => none

/-- Answer a request by the way it came. A poisoned answer over the fabric becomes Completer Abort (R347). -/
def answer (s : State) (src : Nat) (o : Origin) (q : Tlp) (completer status : Nat) (ep : Bool) (data : List Byte) : State :=
  match o.ret with
  | .none => s
  | .port p => (enqueueTlp s p src o { completionFor q completer status data with ep := ep } 0 0).1
  | .tunnel v =>
    match tunnelCid s v with
    | some c => presentTunnel s c 128 none { completionFor q completer status data with ep := ep }
    | none => s
  | .dobby => (enqueueTlp s 129 src o { completionFor q completer status data with ep := ep } 0 0).1
  | .gone v => discardCompletion s v
  | .engine r => { s with eng := { s.eng with answers := s.eng.answers ++ [(r, status, ep, data)] } }
  | .shuttle cid seq tag =>
    let s := if ep then eventFull s 0x0908 src 2 none false (src + at_ 32 seq) else s
    let st := if ep then 2 else status
    let data := if ep || st ≠ 0 then [] else data
    let s := match o.window with
      | some w => winDrain (cacheAnswer s w cid seq st data) w
      | none => s
    presentCompletion s cid seq tag st (q.addr % 2 ^ 41) data

/-- A queued write is gone without being delivered: a window's write is reported as LATE_DROP (R248), an inbound cycle's ends
with BERR before DTACK and in the inbound log after it (R390, R402). -/
def itemLost (s : State) (i : LoomItem) : State :=
  match s.win.unseen.find? fun u => u.item = i.id with
  | some u => writeDone s u true
  | none =>
    match i.cargo, i.origin.ret with
    | .tlp t, .dobby => answer s i.src i.origin t 0 1 false []
    | .tlp t, .none => if i.origin.kind = 1 && i.kind = 0 then inboundFailed s (i.origin.window.getD 0) 8 t.addr else s
    | _, _ => s

/-- A non-posted request of a window has gone without reaching its target: a write among them no longer holds back a release
(R285). -/
def requestGone (s : State) (i : LoomItem) : State :=
  match s.win.unseen.find? fun u => u.item = i.id with
  | some u => writeDone s u false
  | none => s

/-! ### Ageing (R173 to R175) -/

def ageTick (s : State) : Nat := cfgv s 0x4010 0 / 1024
def stampNow (s : State) : Nat := s.ft / max 1 (ageTick s) % 4096

/-- An item is over age. -/
def overAge (s : State) (i : LoomItem) : Bool :=
  if i.kind = 3 then false
  else
    match i.cargo with
    | .oper o => 1024 ≤ (stampNow s + 4096 - envStamp o) % 4096
    | .tlp _ => i.stamp + cfgv s 0x4010 0 ≤ s.now

/-- Drop an item's queue reference, and its copy in the spill region. -/
def releaseItem (s : State) (i : LoomItem) : State :=
  let s := { s with loom := { s.loom with spillAt := Tbl.erase s.loom.spillAt i.id } }
  match i.place with
  | .spilled => s
  | _ => dropRef s i.chain

def removeItem (s : State) (d id : Nat) : State := setQueue s d ((queueOf s d).filter fun i => i.id ≠ id)

/-- Discard an over-age item of destination `d` (R175). -/
def ageOut (s : State) (d : Nat) (i : LoomItem) : State :=
  let s := count (releaseItem (removeItem s d i.id) i) (ctrLoom d 4) 1
  match i.cargo with
  | .oper _ => rateEvent s 0x0406 (32 * d + 4 * i.tc + i.kind) ms fun s n => event s 0x0406 0 (d + at_ 16 i.tc + at_ 32 (n % 65536))
  | .tlp t =>
    if i.kind = 1 then
      let s := event s 0x0405 0 (d + at_ 16 i.tc + at_ 32 (t.addr % 2 ^ 32))
      answer (requestGone s i) i.src i.origin t 0 2 false []
    else itemLost (event s 0x0404 0 (d + at_ 16 i.tc + at_ 32 (t.addr % 2 ^ 32))) i

/-- The heads of the four sub-queues of each class. -/
def queueHeads (s : State) (d : Nat) : List LoomItem :=
  (List.range 32).filterMap fun k => (queueOf s d).find? fun i => i.tc = k / 4 && i.kind = k % 4

/-- Discard over-age heads of one destination until none is left. -/
def sweepQueue : Nat → Nat → State → State
  | 0, _, s => s
  | fuel + 1, d, s =>
    match (queueHeads s d).find? (overAge s) with
    | some i => sweepQueue fuel d (ageOut s d i)
    | none => s

/-- AGE_SWEEP (R174): each AGE_LIMIT / 16. -/
def ageSweep (s : State) : State :=
  if elapsed s s.loom.sweepAt (cfgv s 0x4010 0 / 16) then
    let s := { s with loom := { s.loom with sweepAt := s.now } }
    (List.range 130).foldl (fun s d => sweepQueue (queueOf s d).length d s) s
  else s

/-! ### Promotion, exhaustion -/

/-- SHARED_PROMOTION (R151): every chain of a source that waits in its reservation and may be promoted, the oldest first. -/
def sharedPromotion (src : Nat) (s : State) : State :=
  (s.loom.chains.filter fun r => r.2.account = .reserve src).foldl (fun s r => promote s r.1) s

def execSharedPromotion (src : Dest) (s : State) : Host.Outcome State Fault Refusal := .next (sharedPromotion src s)

/-- SHARED_POOL_EXHAUSTED (R182): a chain waits in a reservation and no promotion has been possible for 10 µs. -/
def sharedPoolExhausted (s : State) : State :=
  if ¬ s.loom.exhausted ∧ elapsedOpt s s.loom.stuckSince (10 * us) then
    event (count { s with loom := { s.loom with exhausted := true } } (ctrLoomAll 6) 1) 0x0402 0 0xFFFF
  else s

def execSharedPoolExhausted (s : State) : Host.Outcome State Fault Refusal := .next (sharedPoolExhausted s)

/-! ### Ledger chains and the beam (R158, R159) -/

/-- The ledger entry of a chain records where its data is (R244). -/
def setWhere (s : State) (l place : Nat) : State :=
  match Tbl.find? s.shu.ledger l with
  | some e => { s with shu := { s.shu with ledger := Tbl.set s.shu.ledger l { e with place := place } } }
  | none => s

/-- LEDGER_MOVE_START (R158, R164): the chain that is due, unless a readback is due first. -/
def ledgerMoveStart (s : State) : State :=
  if readbackDue s then s
  else
    match moveDue s with
    | none => s
    | some (id, c) =>
      match freeUnits c.size (ledgerRegion s) (ledgerInUse s) with
      | none => s
      | some us =>
        let s := beamTake (setChain s id { c with moving := true, units := us }) us.length
        match c.ledger with
        | some l => setWhere s l 2
        | none => s

def execLedgerMoveStart (s : State) : Host.Outcome State Fault Refusal := .next (ledgerMoveStart s)

/-- LEDGER_MOVE_DONE (R158): the beam copy takes the ledger's reference, and the bobbins are freed unless a queue names them; an
abandoned copy is dropped with the reference that the move has held. -/
def ledgerMoveDone (s : State) : State :=
  match List.find? (fun r => r.2.moving) s.loom.chains with
  | none => s
  | some (id, c) =>
    let done := { c with moving := false, abandoned := false, ledger := none, units := [] }
    match c.abandoned, c.ledger with
    | false, some l =>
      let s := setWhere (beamStore s (c.units.map (ledgerUnit s)) (ledgerBytes s l)) l 1
      let s := { s with loom := { s.loom with beamLedger := Tbl.set s.loom.beamLedger l c.units } }
      count (dropRef (setChain s id { done with account := if c.refs ≤ 1 then c.account else .shared 130 }) id) (ctrLoomAll 0) 1
    | _, _ => count (dropRef (setChain s id done) id) (ctrLoomAll 1) 1

def execLedgerMoveDone (s : State) : Host.Outcome State Fault Refusal := .next (ledgerMoveDone s)

/-- The ledger lets go of a chain: bobbins, the beam copy, or a move that is abandoned (R158). -/
def ledgerRelease (s : State) (l chain : Nat) : State :=
  let s := { s with loom := { s.loom with beamLedger := Tbl.erase s.loom.beamLedger l } }
  match chainOf s chain with
  | some c =>
    if c.ledger ≠ some l then s
    else if c.moving then setChain s chain { c with abandoned := true, ledger := none }
    else dropRef (setChain s chain { c with ledger := none }) chain
  | none => s

/-! ### Instances and owners of connections -/

def instOf (s : State) (i : Nat) : Option InstState := Tbl.find? s.eng.insts i
def setInst (s : State) (i : Nat) (x : InstState) : State := { s with eng := { s.eng with insts := Tbl.set s.eng.insts i x } }

/-- The partition of a connection's owner, when it has one (R554). -/
def ownerPart (s : State) (c : Nat) : Option Nat :=
  let x := connOf s c
  match x.ownerKind with
  | 0 => (instOf s x.ownerId).map fun i => i.vs
  | 3 => some (x.ownerId % 32)
  | _ => none

/-- Ring and severity of a connection's event: adopted contexts report to the installer only (R372). -/
def connRing (s : State) (c : Nat) : Option Nat := if c < 16384 then ownerPart s c else none

/-! ### Readback (R167, R169) -/

/-- A chain for data read back, from the shared pool or the readback reserve: named by the item and by the readback. -/
def readbackChain (s : State) (size : Nat) : State × Nat :=
  let id := s.loom.nextChain
  let s := { s with loom := { s.loom with nextChain := id + 1 } }
  if size ≤ sharedFree s then
    (poolChanged (setChain s id { size := size, account := .shared 130, src := 130, refs := 2 }), id)
  else (count (setChain s id { size := size, account := .readback, src := 130, refs := 2 }) (ctrLoomAll 5) 1, id)

/-- READBACK_START (R167). -/
def readbackStart (d tc : Nat) (s : State) : State :=
  match readbackCan s d tc with
  | none => s
  | some i =>
    let (s, c) := readbackChain s (cells i.bytes)
    withItem { s with loom := { s.loom with reads := s.loom.reads ++ [(c, d, i.id)] } } d i.id
      fun j => { j with place := .reading, chain := c }

def execReadbackStart (d : Dest) (tc : Tc) (s : State) : Host.Outcome State Fault Refusal := .next (readbackStart d tc s)

/-- The first unit of the beam that an item's data lies in. -/
def unitOf (s : State) (i : LoomItem) : Nat :=
  match i.copyOf with
  | some l => ledgerUnit s ((Tbl.get s.loom.beamLedger l []).headD 0)
  | none => spillUnit s ((Tbl.get s.loom.spillAt i.id []).headD 0)

/-- The partition of an item's source (R345). -/
def itemPart (s : State) (i : LoomItem) : Option Nat :=
  match i.own with
  | some (_, c) => connRing s c
  | none => if i.src < 128 then portPart s i.src else none

/-- An item whose data are lost, as far as the loom goes (R169, R343 causes 23 to 25): a fabric operation is a loss, a posted TLP or a
completion is dropped, a non-posted request gets Completer Abort. The ingress selvedge logs the error (DEDUCED, log entry 126: R347 says
so of cause 24). -/
def unreadable (s : State) (i : LoomItem) (cause : Nat) : State :=
  let s := releaseItem s i
  let asks := match i.cargo with
    | .tlp _ => decide (i.kind = 1)
    | .oper _ => false
  let s := selContained s (min i.src 129) cause (if asks then 2 else 1) (itemPart s i) 0
  match i.cargo with
  | .oper _ => s
  | .tlp t => if asks then answer (requestGone s i) i.src i.origin t 0 2 false [] else itemLost s i

/-- A single-bit error, corrected (R343 cause 3). -/
def storeCorrected (s : State) (i : LoomItem) : State := selCorrectable s (min i.src 129) 3

/-- An item, already out of its queue, as the bobbin store gives it: as it was; poisoned, where only the payload of a local TLP is lost and
SEL_POISON_FWD is 1; or none, its loss handled (R343 causes 3, 23 and 24, R347). -/
def storeRead (s : State) (i : LoomItem) (r : StoreRead) : State × Option LoomItem :=
  match r, i.cargo with
  | .clean, _ => (s, some i)
  | .corrected, _ => (storeCorrected s i, some i)
  | .payload, .tlp t =>
    if t.data.isEmpty then (unreadable s i 23, none)
    else if cfgOn s 0x5105 0 then
      (selContained s (min i.src 129) 24 6 (itemPart s i) 0, some { i with cargo := .tlp { t with ep := true } })
    else (unreadable s i 24, none)
  | _, _ => (unreadable s i 23, none)

/-- An uncorrectable beam read (R169). The address in event 0x0408 is a free value by `Config.beamOrigin`. -/
def badReadback (s : State) (d : Nat) (i : LoomItem) : State :=
  let s := count (eventFull (removeItem s d i.id) 0x0408 0 2 none false (d + at_ 16 (unitOf s i % 2 ^ 48))) (ctrLoomAll 3) 1
  unreadable s i 25

/-- READBACK_DONE (R156, R167, R174): the oldest readback lands and lets go of its chain; the item keeps its place, unless it is
over age or unreadable. One that has left its queue meanwhile has no more to come. -/
def readbackDone (r : StoreRead) (s : State) : State :=
  match s.loom.reads with
  | [] => s
  | (c, d, id) :: rest =>
    let s := dropRef { s with loom := { s.loom with reads := rest } } c
    match (queueOf s d).find? fun i => i.id = id with
    | none => s
    | some i =>
      if !r.good then badReadback s d i
      else
        let s := if r = .corrected then storeCorrected s i else s
        let s := count s (ctrLoom d 2) (cells i.bytes)
        let s := { s with loom := { s.loom with spillAt := Tbl.erase s.loom.spillAt i.id } }
        let i := { i with place := .resident }
        let s := withItem s d i.id fun _ => i
        if overAge s i then ageOut s d i else s

/-- BEAM_STACK_FAULT (R169): spill writes to the stack stop; a degrading condition. -/
def beamStackFault (stack : Nat) (s : State) : State :=
  if (stack = 1 && !Config.f48) || bit s.loom.badStacks stack || !coreRuns s then s
  else
    let s := event { s with loom := { s.loom with badStacks := putBit s.loom.badStacks stack true } } 0x040A stack stack
    health s 0x040A

def execBeamStackFault (stack : Fin 2) (s : State) : Host.Outcome State Fault Refusal := .next (beamStackFault stack s)

end Sys2Proof.Machine
end

