-- ==== Sys2Proof/Machine/Warp.lean ====
section
/-!
DEFINITION. Warp ports (chapter 5): links, the surprise state, containment, DPC, hot-plug slots and expanders, proxy tables
and multicast groups. Routing inside a partition is in Ingress, partition resets are in Partitions.
-/

namespace Sys2Proof.Machine

/-! ### Slots of ports -/

def slotOf (s : State) (p : Nat) : Option Nat := (List.range 32).find? fun k => cfgv s 0x3121 (k + 1) = p

def slotState (s : State) (k : Nat) : SlotState := vget s.warp.slot k {}
def setSlot (s : State) (k : Nat) (x : SlotState) : State := { s with warp := { s.warp with slot := vset s.warp.slot k x } }
def expander (s : State) (e : Nat) : ExpanderState := vget s.warp.expander e {}
def setExpander (s : State) (e : Nat) (x : ExpanderState) : State :=
  { s with warp := { s.warp with expander := vset s.warp.expander e x } }

/-- The slot is enabled (R136). -/
def slotEnabled (s : State) (k : Nat) : Bool := cfgv s 0x3121 (k + 1) < 128

/-! ### Delivery on the local path (R322, R325, R329, R333) -/

/-- A request is refused before it reaches a target: 1 Unsupported Request, 2 Completer Abort. -/
def refuseTlp (s : State) (src : Nat) (o : Origin) (t : Tlp) (status : Nat) : State :=
  if tlpKind t = 2 then s
  else if tlpKind t = 1 then
    let s := if status = 1 then aerUnsupported s src (t.addr % 2 ^ 64 * 2 ^ 64) else s
    answer (if src < 128 then count s (ctrSel src 2) 1 else s) src o t 0 status false []
  else
    match o.ret with
    | .dobby => answer s src o t 0 status false []
    | _ => if o.kind = 1 then inboundFailed s (o.window.getD 0) 8 t.addr else s

/-- The access kind under which a heddle checks a TLP; configuration, I/O, messages and completions are not checked. -/
def tlpAccess (t : Tlp) : Option Nat :=
  match t.kind with
  | .memRead | .memReadLocked => some 0
  | .memWrite => some 1
  | .fetchAdd | .swap | .compareSwap => some 2
  | .deferrableWrite => some 3
  | _ => none

/-- A FENCED module refuses every request to a device that is shared (R19, R223). -/
def fencedOff (s : State) (d : Nat) (t : Tlp) : Bool :=
  s.module.state = .fenced && d < 128 && cfgOn s 0x4105 (d + 1) && tlpKind t ≠ 2

/-- Check a TLP at the heddle of destination `d` and queue it there. -/
def deliverTlp (s : State) (d src : Nat) (o : Origin) (t : Tlp) : State :=
  if fencedOff s d t then refuseTlp s src o t 1
  else
  match tlpAccess t with
  | none => (enqueueTlp s d src o t s.hed.epoch 0).1
  | some k =>
    match heddleCheck s d { cls := o.cls, kind := k, addr := t.addr, len := max t.len t.data.length } with
    | .deny a r sb => refuseTlp (denied s d o.cls k false a r sb) src o t 1
    | v =>
      let s := passed s d (match v with | .own => true | _ => false) (tlpItem t (some o.cls) (some (o.mid, o.vs, o.rid)))
      let t := match v with
        | .region w => if d < 128 then stamped w t else t
        | _ => t
      (enqueueTlp s d src o t s.hed.epoch 0).1

/-! ### Slot outputs (R135, R137) -/

def lit (i : Indicator) (phase : Bool) : Bool :=
  match i with
  | .off => false
  | .on => true
  | .blink => phase

/-- The output bits of a slot's byte, inputs as 1. -/
def slotByte (s : State) (k : Nat) : Nat :=
  let x := slotState s k
  at_ 7 (b2n x.perstN) + at_ 6 (b2n (!lit x.attention s.warp.blink)) + at_ 5 (b2n (!lit x.power s.warp.blink)) +
    at_ 4 (b2n x.pwren) + 0xF

/-- Drive a slot's expander. -/
def driveSlot (s : State) (k : Nat) : State :=
  emit s (.i2c (k / 2) (slotByte s (k / 2 * 2) + at_ 8 (slotByte s (k / 2 * 2 + 1))))

/-- Assert the SLOT_PERST_N of the slot a port has. -/
def assertSlotPerst (s : State) (p : Nat) : State :=
  match slotOf s p with
  | some k => driveSlot (setSlot s k { slotState s k with perstN := false }) k
  | none => s

/-- An event of a port goes to the ring of its partition (R554). -/
def portEvent (s : State) (p code info : Nat) : State := eventIn s (portPart s p) code p info

/-- An event of a slot, to the ring of the partition of the slot's port. -/
def slotEvent (s : State) (k code info : Nat) : State := eventIn s (portPart s (cfgv s 0x3121 (k + 1))) code k info

/-! ### Requests of a port that can no longer be answered by its device (R128, R132) -/

/-- The completion reservation of R154. The read completion boundary is 64 bytes, a switch port's (log entry 7). -/
def reservation (t : Tlp) : Nat := ceilDiv (if t.len = 0 then 4 else t.len) 64 + 1

/-- Bytes an AtomicOp returns: its operand's size. -/
def atomicBytes (t : Tlp) : Nat := if t.kind = .compareSwap then t.data.length / 2 else t.data.length

/-- The answer of SURPRISE_READ_MODE 1: status and data. -/
def onesAnswer (t : Tlp) : List Byte :=
  match t.kind with
  | .memRead | .memReadLocked | .ioRead | .cfgRead => List.replicate t.len 0xFF
  | .fetchAdd | .swap | .compareSwap => List.replicate (atomicBytes t) 0xFF
  | _ => []

/-- How a port answers in place of its device: 0 Unsupported Request, 1 all ones, 2 Completer Abort. -/
def standIn (s : State) (p : Nat) : Nat :=
  let x := warpPort s p
  match x.st with
  | .surprise => cfgv s 0x3106 (p + 1)
  | .dpc => if x.dpcUr then 0 else 2
  | _ => 0

/-- Answer one request in the device's place; in the surprise state it is counted. -/
def synthesize (s : State) (p : Nat) (o : Origin) (t : Tlp) : State :=
  let m := standIn s p
  let x := warpPort s p
  let s := if x.st = .surprise then setWarp s p { x with synthesized := x.synthesized + 1 } else s
  let s := count (count s (ctrPort p 14) 1) (ctrSel p 2) 1
  if m = 1 then answer s p o t 0 0 false (onesAnswer t) else answer s p o t 0 (if m = 2 then 2 else 1) false []

/-- Drop a posted write at a port that is down. -/
def dropPosted (s : State) (p : Nat) : State :=
  let x := warpPort s p
  let s := if x.st = .surprise then setWarp s p { x with dropped := x.dropped + 1 } else s
  count s (ctrPort p 15) 1

/-- Every request already sent to the device is answered, its reservation released, and no entry of the proxy table awaits it any
more (R123, R124); a write that the device had not acknowledged is lost (DEDUCED from R248, log entry 60). -/
def failSent (s : State) (p : Nat) : State :=
  let x := warpPort s p
  let s := setWarp s p { x with reqs := [], proxies := x.proxies.map fun r => (r.1, { r.2 with outstanding := 0 }) }
  let s := (s.win.unseen.filter fun u => u.left && u.dest = p).foldl (fun s u =>
    let s := writeDone s u u.window.isSome
    match u.waiter with
    | some w => answer s p w.1 w.2 0 1 false []
    | none => s) s
  x.reqs.foldl (fun s r =>
    synthesize { s with loom := { s.loom with compHeld := s.loom.compHeld - r.reservation } } p r.origin r.t) s

/-- Take one queued item of a port that is down. -/
def refuseQueued (s : State) (p : Nat) (i : LoomItem) : State :=
  let s := releaseItem (removeItem s p i.id) i
  match i.cargo with
  | .oper _ => s
  | .tlp t =>
    if i.kind = 1 then synthesize (requestGone s i) p i.origin t
    else if i.kind = 0 then itemLost (dropPosted s p) i
    else s

/-- Items queued to a port that is down. -/
def refuseQueue (s : State) (p : Nat) : State := (queueOf s p).foldl (fun s i => refuseQueued s p i) s

/-! ### Links -/

/-- The link has gone: its rate and width, and event 0x0301. -/
def warpLinkGone (s : State) (p cause : Nat) : State :=
  let x := warpPort s p
  let s := setWarp s p { x with width := 0, rate := 0, flit := false, equalised := 0, downCause := cause }
  let s := count (eventFull s 0x0301 p (if cause = 1 then 2 else 0) (portPart s p) false (p + at_ 16 cause)) (ctrPort p 13) 1
  discardIde s p 1

/-- The partition of another module whose upstream port is this port (R117, R210). -/
def exportOf (s : State) (p : Nat) : Option AdmittedVs :=
  if isWarp s p && cfgv s 0x3102 (p + 1) = 1 && (portPart s p).isNone then
    s.fab.imported.find? fun a => a.gport = gport s p && a.pgid / 32 ≠ cfgv s 0x4100 1
  else none

/-- A trained width, a rate, and the mode that goes with it: 64 and 128 GT/s run in flit mode only (R46, R112). -/
def linkFits (s : State) (p width rate : Nat) (flit : Bool) : Bool :=
  1 ≤ rate && rate ≤ 7 && width ≤ portWidth s p && 1 ≤ width && (rate ≤ 5 || flit)

/-- The reset of the port's partition, and of its slot, lets its link train (R125, R127). -/
def linkLet (s : State) (p : Nat) : Bool :=
  match portPart s p with
  | some v => partEnabled s v && (partOf s v).resetSince.isNone && (!isDown s p || (match slotOf s p with
      | some k => (slotState s k).perstN
      | none => true))
  | none => (exportOf s p).isSome

/-- The credits of one kind that a port advertises on each virtual channel: beyond the minimum, what a share of the cost pays, in
1/16 bobbins. How a share divides between header and data credits is a free value. -/
def shareOf (share : Nat) : Nat × Nat :=
  let h := Config.headerCredits share % (share / 24 + 1)
  (h, share - 24 * h)

/-- The credits that a warp port advertises (R114, R153): on each virtual channel at least 1, 256, 1 and 8, and the rest of its
reservation's cost divided evenly among the channels and 3:1 between posted and non-posted credits. -/
def warpAdvert (s : State) (p : Nat) : Tbl Nat :=
  let n := max 1 (cfgv s 0x3107 (p + 1))
  let rest := (16 * cfgv s 0x4001 (p + 1) - 312 * n) / n
  let a := shareOf (rest * 3 / 4)
  let b := shareOf (rest / 4)
  (List.range n).foldl (fun t vc =>
    Tbl.set (Tbl.set (Tbl.set (Tbl.set t (4 * vc) (1 + a.1)) (4 * vc + 1) (256 + a.2)) (4 * vc + 2) (1 + b.1)) (4 * vc + 3) (8 + b.2)) []

/-- WARP_LINK_UP (R145): a link of a port in a partition trains to L0. What its lanes' order and polarity turn out to be is a free
value; at 8 GT/s and above equalisation is complete (R63). -/
def warpLinkUp (p width rate : Nat) (flit : Bool) (s : State) : State :=
  let x := warpPort s p
  match x.st with
  | .down | .training =>
    if isWarp s p && inService s && linkLet s p && clockOk s p && linkFits s p width rate flit then
      let f := freeValue s
      let s := setWarp (afterFree s) p { x with
        st := .active, width := width, rate := rate, flit := flit, softDown := false, reversed := bit f 0, inverted := bits f 1 width
        equalised := if 3 ≤ rate then rate else 0, adv := warpAdvert s p, freed := [] }
      portEvent s p 0x0300 (p + at_ 16 width + at_ 24 rate + at_ 28 (b2n flit))
    else s
  | _ => s

def execWarpLinkUp (p : Port) (width rate : Nat) (flit : Bool) (s : State) : Host.Outcome State Fault Refusal :=
  .next (warpLinkUp p width rate flit s)

/-! ### The surprise state (R131 to R133) -/

/-- Events 0x0303 and 0x0304 with the counts since the last report. -/
def surpriseCounts (s : State) (p : Nat) : State :=
  let x := warpPort s p
  let s := setWarp s p { x with synthesized := 0, dropped := 0, reportAt := s.now }
  portEvent (portEvent s p 0x0303 (p + at_ 16 (x.synthesized % 2 ^ 32))) p 0x0304 (p + at_ 16 (x.dropped % 2 ^ 32))

/-- Enter the surprise state: what the port had taken is answered or dropped. -/
def surpriseState (s : State) (p : Nat) : State :=
  let s := setWarp s p { warpPort s p with st := .surprise, synthesized := 0, dropped := 0, reportAt := s.now }
  refuseQueue (failSent (assertSlotPerst s p) p) p

/-- A surprise down of a downstream link: `presence` when the slot's input reported it. -/
def surpriseEnter (s : State) (p : Nat) (presence : Bool) : State :=
  let s := eventFull s 0x0302 p 2 (portPart s p) false (p + at_ 16 (b2n presence))
  let s := selContained (warpLinkGone s p 1) p 14 3 (portPart s p) 0
  surpriseState (count s (ctrSel p 5) 1) p

/-- The surprise state or containment ends: the last report, and event 0x0903 after containment. -/
def surpriseEnd (s : State) (p : Nat) (st : WarpSt) : State :=
  let x := warpPort s p
  if x.st = .surprise then
    let s := surpriseCounts s p
    let s := match x.contained with
      | some (_, t) => portEvent s p 0x0903 (p + at_ 16 ((s.now - t) / us % 2 ^ 32))
      | none => s
    setWarp s p { warpPort s p with st := st, contained := none }
  else s

/-- SURPRISE_DOWN (R131): the LTSSM leaves L0 or Recovery without a software cause. -/
def surpriseDown (p : Nat) (s : State) : State :=
  let x := warpPort s p
  if isDown s p ∧ x.st = .active ∧ ¬ x.softDown then surpriseEnter s p false
  else if x.st = .dpc then setWarp s p { x with surpriseUnder := true }
  else s

def execSurpriseDown (p : Port) (s : State) : Host.Outcome State Fault Refusal := .next (surpriseDown p s)

/-- SURPRISE_REPORT (R132): each second. -/
def surpriseReport (p : Nat) (s : State) : State :=
  let x := warpPort s p
  if x.st = .surprise ∧ elapsed s x.reportAt sec then surpriseCounts s p else s

def execSurpriseReport (p : Port) (s : State) : Host.Outcome State Fault Refusal := .next (surpriseReport p s)

/-- The slot of a port, if it has one, has its card. -/
def cardPresent (s : State) (p : Nat) : Bool :=
  match slotOf s p with
  | some k => !bit (slotState s k).inputs 0
  | none => true

/-- LINK_RETURN_L0 (R133): the link is back with the slot present. A port contained under R348 is held in Disabled. -/
def linkReturnL0 (p width rate : Nat) (flit : Bool) (s : State) : State :=
  let x := warpPort s p
  if x.st = .surprise ∧ x.contained.isNone ∧ cardPresent s p ∧ clockOk s p ∧ linkFits s p width rate flit then
    warpLinkUp p width rate flit (surpriseEnd s p .training)
  else s

def execLinkReturnL0 (p : Port) (width rate : Nat) (flit : Bool) (s : State) : Host.Outcome State Fault Refusal :=
  .next (linkReturnL0 p width rate flit s)

/-! ### Containment (R348) -/

/-- Port containment for a cause other than surprise down. On a port contained already the error is only logged. -/
def containPort (s : State) (p cause header : Nat) : State :=
  let x := warpPort s p
  if x.st = .surprise then selLatch s p cause 3 (portPart s p) header
  else
    let s := selContained s p cause 3 (portPart s p) header
    let s := count (discardIde s p 1) (ctrSel p 5) 1
    let s := setWarp s p { warpPort s p with contained := some (cause, s.now), width := 0, rate := 0, flit := false, downCause := 1 }
    surpriseState (eventFull s 0x0902 p 2 (portPart s p) false (p + at_ 16 cause)) p

/-! ### Software link-downs (R128) -/

/-- Take a downstream link down by software. -/
def softwareDown (s : State) (p : Nat) : State :=
  if !isDown s p then s
  else
    let was := (warpPort s p).st = .active
    let s := surpriseEnd s p .down
    let s := if was then warpLinkGone s p 0 else s
    let s := setWarp s p { warpPort s p with st := .down, softDown := true, surpriseUnder := false }
    refuseQueue (failSent s p) p

/-- SECONDARY_BUS_RESET (R128, R133): a hot reset goes out on the link. -/
def secondaryBusReset (p : Nat) (s : State) : State :=
  softwareDown (if isDown s p && (warpPort s p).st = .active then emit s (.hotReset p) else s) p
def execSecondaryBusReset (p : Port) (s : State) : Host.Outcome State Fault Refusal := .next (secondaryBusReset p s)

/-- LINK_DISABLE (R128, R133). -/
def linkDisable (p : Nat) (s : State) : State := softwareDown s p
def execLinkDisable (p : Port) (s : State) : Host.Outcome State Fault Refusal := .next (linkDisable p s)

/-! ### DPC (R134) -/

/-- DPC Completion Control of a downstream bridge: Unsupported Request when 0. PRESUMED (log entry 8): the DPC capability
stands at offset 0x200, its control register in the upper half of the dword at 0x204. -/
def dpcAnswersUr (s : State) (p : Nat) : Bool :=
  match portPart s p with
  | some v => !bit (cfgReg s v (bridgeOf s p) 0x81) 18
  | none => true

/-- DPC is enabled on a port: DPC Trigger Enable of its bridge is not 0. -/
def dpcEnabled (s : State) (p : Nat) : Bool :=
  match portPart s p with
  | some v => bits (cfgReg s v (bridgeOf s p) 0x81) 16 2 ≠ 0
  | none => false

/-- DPC_TRIGGER (R134): where DPC is enabled on the port. The surprise state that it supersedes makes its last report (R132). -/
def dpcTrigger (p reason : Nat) (s : State) : State :=
  let x := warpPort s p
  if isDown s p ∧ dpcEnabled s p ∧ (x.st = .active ∨ x.st = .surprise) then
    let s := if x.st = .active then warpLinkGone s p 2 else surpriseCounts s p
    let s := setWarp s p { warpPort s p with
      st := .dpc, dpcUr := dpcAnswersUr s p, dpcReason := reason % 256, surpriseUnder := x.st = .surprise }
    let s := selContained s p 15 3 (portPart s p) 0
    let s := portEvent (count s (ctrSel p 5) 1) p 0x030F (p + at_ 16 (reason % 256))
    refuseQueue (failSent s p) p
  else s

def execDpcTrigger (p : Port) (reason : Nat) (s : State) : Host.Outcome State Fault Refusal := .next (dpcTrigger p reason s)

/-- DPC_RELEASE (R134): the link trains, unless R131 still holds; then the surprise state is entered anew. -/
def dpcRelease (p : Nat) (s : State) : State :=
  let x := warpPort s p
  if x.st = .dpc then
    setWarp s p { x with st := if x.surpriseUnder then .surprise else .training, surpriseUnder := false, synthesized := 0,
                         dropped := 0, reportAt := s.now }
  else s

def execDpcRelease (p : Port) (s : State) : Host.Outcome State Fault Refusal := .next (dpcRelease p s)

/-! ### Hot-plug (R135 to R138) -/

/-- SLOT_POWER_OFF (R137): SLOT_PERST_N asserted, the power indicator off, and a software link-down. -/
def slotPowerOff (k : Nat) (s : State) : State :=
  if slotEnabled s k ∧ ¬ (expander s (k / 2)).silent then
    let s := setSlot s k { slotState s k with perstN := false, power := .off, offAt := some s.now, onAt := none, commandCompleted := true }
    softwareDown (driveSlot s k) (cfgv s 0x3121 (k + 1))
  else s

def execSlotPowerOff (k : Slot) (s : State) : Host.Outcome State Fault Refusal := .next (slotPowerOff k s)

/-- SLOT_PWREN_CLEAR (R137): 1 ms later. -/
def slotPwrenClear (k : Nat) (s : State) : State :=
  let x := slotState s k
  if elapsedOpt s x.offAt ms then driveSlot (setSlot s k { x with pwren := false, offAt := none }) k else s

def execSlotPwrenClear (k : Slot) (s : State) : Host.Outcome State Fault Refusal := .next (slotPwrenClear k s)

/-- SLOT_POWER_ON (R137); refused while the expander is silent (R138). -/
def slotPowerOn (k : Nat) (s : State) : State :=
  if slotEnabled s k ∧ ¬ (expander s (k / 2)).silent then
    driveSlot (setSlot s k { slotState s k with
      pwren := true, onAt := some s.now, offAt := none, powerFault := false, faultRead := false, commandCompleted := true }) k
  else s

def execSlotPowerOn (k : Slot) (s : State) : Host.Outcome State Fault Refusal := .next (slotPowerOn k s)

/-- SLOT_PERST_RELEASE (R137): 100 ms after power-on, when PWRFLT_N is high and has not been read low since. -/
def slotPerstRelease (k : Nat) (s : State) : State :=
  let x := slotState s k
  if elapsedOpt s x.onAt (100 * ms) ∧ x.pwren ∧ ¬ x.powerFault ∧ ¬ x.faultRead ∧ bit x.raw 3 then
    let s := driveSlot (setSlot s k { x with perstN := true, onAt := none }) k
    let p := cfgv s 0x3121 (k + 1)
    match (warpPort s p).st with
    | .down => setWarp s p { warpPort s p with st := .training, softDown := false }
    | _ => s
  else s

def execSlotPerstRelease (k : Slot) (s : State) : Host.Outcome State Fault Refusal := .next (slotPerstRelease k s)

/-- INDICATOR_SET (R137). -/
def indicatorSet (k : Nat) (attention power : Indicator) (s : State) : State :=
  if slotEnabled s k then
    driveSlot (setSlot s k { slotState s k with attention := attention, power := power, commandCompleted := true }) k
  else s

def execIndicatorSet (k : Slot) (attention power : Indicator) (s : State) : Host.Outcome State Fault Refusal :=
  .next (indicatorSet k attention power s)

/-- A slot blinks. -/
def blinks (s : State) (k : Nat) : Bool := (slotState s k).attention = .blink || (slotState s k).power = .blink

/-- INDICATOR_BLINK (R137): 1.5 Hz, a toggle each third of a second. -/
def indicatorBlink (s : State) : State :=
  if elapsed s s.warp.blinkAt 333333333 then
    let s := { s with warp := { s.warp with blink := !s.warp.blink, blinkAt := s.now } }
    ((List.range 32).filter (blinks s)).foldl driveSlot s
  else s

def execIndicatorBlink (s : State) : Host.Outcome State Fault Refusal := .next (indicatorBlink s)

/-- A slot's byte of an expander's inputs: each changed bit starts its debounce; a power fault while power comes up is kept. -/
def slotInputs (s : State) (k byte : Nat) : State :=
  let x := slotState s k
  let changed := (List.range 4).filter fun i => bit x.raw i ≠ bit byte i
  setSlot s k { x with raw := byte % 16, faultRead := x.faultRead || (x.onAt.isSome && !bit byte 3), rawSince := changed.foldl (fun t i => Tbl.set t i s.now) x.rawSince }

/-- The polarity registers are set to 0, and bits 7 to 4 of each slot to outputs (R135). -/
def setUpExpander (s : State) (e : Nat) : State :=
  if (expander s e).setUp then s
  else emit (emit (emit s (.i2cSetup e 0 0)) (.i2cSetup e 1 0x0F0F)) (.i2c e (slotByte s (2 * e) + at_ 8 (slotByte s (2 * e + 1))))

/-- An expander has answered with its inputs: it is set up when it has not been since it last failed, and a silent one is trusted
again (R138). -/
def expanderAnswers (s : State) (e v : Nat) : State :=
  let was := (expander s e).silent
  let s := setExpander (setUpExpander s e) e { fails := 0, lastTry := s.now, silent := false, setUp := true }
  let s := slotInputs (slotInputs s (2 * e) (v % 256)) (2 * e + 1) (v / 256)
  if was then
    let ok := fun (s : State) (k : Nat) => setSlot s k { slotState s k with powerFault := !bit (slotState s k).raw 3 }
    ok (ok s (2 * e)) (2 * e + 1)
  else s

/-- An expander has not acknowledged. The attempts of R138 are made 1 ms apart: a poll or an interrupt makes the first of them, and
counts for nothing while they go on. After the third both slots report Power Fault Detected. -/
def expanderFails (s : State) (e : Nat) (again : Bool) : State :=
  let x := expander s e
  if x.silent ∨ (¬ again ∧ x.fails ≠ 0) then s
  else
  let s := setExpander s e { x with fails := x.fails + 1, lastTry := s.now, silent := 3 ≤ x.fails + 1, setUp := false }
  if x.fails + 1 = 3 then
    let bad := fun (s : State) (k : Nat) => setSlot s k { slotState s k with powerFault := true }
    event (bad (bad s (2 * e)) (2 * e + 1)) 0x030A 0 e
  else s

/-- Read one expander: it answers, or not. -/
def readExpander (s : State) (e : Nat) (v : Option (BitVec 16)) (again : Bool) : State :=
  if cfgv s 0x3120 (e + 1) = 0 then s
  else
    match v with
    | some v => expanderAnswers s e v.toNat
    | none => expanderFails s e again

def readExpanders (s : State) (inputs : List (Option (BitVec 16))) : State :=
  (List.range 16).foldl (fun s e => readExpander s e ((inputs[e]?).getD none) false) s

/-- EXPANDER_INTERRUPT (R136). -/
def expanderInterrupt (inputs : List (Option (BitVec 16))) (s : State) : State := if coreRuns s then readExpanders s inputs else s

def execExpanderInterrupt (inputs : List (Option (BitVec 16))) (s : State) : Host.Outcome State Fault Refusal :=
  .next (expanderInterrupt inputs s)

/-- EXPANDER_POLL (R136): every 10 ms. -/
def expanderPoll (inputs : List (Option (BitVec 16))) (s : State) : State :=
  if coreRuns s ∧ elapsed s s.warp.pollAt (10 * ms) then readExpanders { s with warp := { s.warp with pollAt := s.now } } inputs else s

def execExpanderPoll (inputs : List (Option (BitVec 16))) (s : State) : Host.Outcome State Fault Refusal := .next (expanderPoll inputs s)

/-- EXPANDER_RETRY (R138): 1 ms after an access that was not acknowledged. -/
def expanderRetry (e : Nat) (input : Option (BitVec 16)) (s : State) : State :=
  let x := expander s e
  if 1 ≤ x.fails ∧ x.fails < 3 ∧ elapsed s x.lastTry ms then readExpander s e input true else s

def execExpanderRetry (e : Expander) (input : Option (BitVec 16)) (s : State) : Host.Outcome State Fault Refusal :=
  .next (expanderRetry e input s)

/-- What a debounced change does: presence, button, latch, power fault. -/
def inputEffect (s : State) (k i : Nat) (level : Bool) : State :=
  let x := slotState s k
  let p := cfgv s 0x3121 (k + 1)
  match i with
  | 0 =>
    let s := slotEvent (setSlot s k { x with presenceChanged := true }) k 0x030B (k + at_ 16 (b2n (!level)))
    if level ∧ isDown s p ∧ (warpPort s p).st = .active then surpriseEnter s p true
    else if level ∧ (warpPort s p).st = .dpc then setWarp s p { warpPort s p with surpriseUnder := true }
    else s
  | 1 => if level then s else slotEvent (setSlot s k { x with buttonPressed := true }) k 0x030C k
  | 3 => if level then s else driveSlot (setSlot s k { x with pwren := false, powerFault := true, onAt := none }) k
  | _ => s

/-- HP_INPUT_DEBOUNCED (R136, R137): the input has held its new level for HP_DEBOUNCE_MS. -/
def hpInputDebounced (k i : Nat) (s : State) : State :=
  let x := slotState s k
  let level := bit x.raw i
  if slotEnabled s k ∧ bit x.inputs i ≠ level ∧ elapsed s (Tbl.get x.rawSince i s.now) (cfgv s 0x3123 1 * ms) then
    inputEffect (setSlot s k { x with inputs := putBit x.inputs i level }) k i level
  else s

def execHpInputDebounced (k : Slot) (bit : Fin 4) (s : State) : Host.Outcome State Fault Refusal := .next (hpInputDebounced k bit s)

/-! ### Proxy tables (R120 to R124) and multicast (R140) -/

/-- Secondary and subordinate bus of the proxy bridge of a partition (VS_PROXY_BUS 0x3306). -/
def proxyBuses (s : State) (v : Nat) : Nat × Nat := (bits (cfgReg s v 241 6) 8 8, bits (cfgReg s v 241 6) 16 8)

/-- Entry `e` of the proxy table of a port in partition `v` is usable. DESIGN CHOICE (log entry 113): a proxy bridge whose secondary
bus is still 0 has no range. -/
def proxyUsable (s : State) (v e : Nat) : Bool :=
  let b := proxyBuses s v
  b.1 ≠ 0 && b.1 + e / 256 ≤ b.2

/-- The proxy ID of entry `e`. -/
def proxyId (s : State) (v e : Nat) : Nat := ((proxyBuses s v).1 + e / 256) * 256 + e % 256

/-- PROXY_ENTRY (R124). -/
def proxyWord (s : State) (p e : Nat) : Nat :=
  match Tbl.find? (warpPort s p).proxies e, portPart s p with
  | some x, some v =>
    at_ 63 1 + at_ 53 (x.mid % 1024) + at_ 48 (if x.kind = 1 then 0 else x.vs % 32) + at_ 32 (x.rid % 65536) + at_ 30 (x.kind % 4) +
      at_ 16 (min x.outstanding 4095) + proxyId s v e % 65536
  | _, _ => 0

/-- The lowest index without an entry. -/
def proxyFreeIndex (t : Tbl ProxyEntry) : Option Nat := Tbl.firstFree t 4096

/-- The proxy entry for a source at an egress port, allocated if need be; none when no usable entry is free (R121). -/
def proxyFor (s : State) (p v : Nat) (o : Origin) : State × Option Nat :=
  let x := warpPort s p
  match List.find? (fun r => r.2.mid = o.mid && r.2.vs = o.vs && r.2.rid = o.rid && r.2.kind = o.kind) x.proxies with
  | some (e, _) => if proxyUsable s v e then (s, some e) else (event s 0x0309 p (p + at_ 16 e), none)
  | none =>
    match proxyFreeIndex x.proxies with
    | some e =>
      if proxyUsable s v e then
        (count (setWarp s p { x with proxies := Tbl.set x.proxies e { mid := o.mid, vs := o.vs, rid := o.rid, kind := o.kind } })
          (ctrPort p 16) 1, some e)
      else (count (event s 0x0308 p (p + at_ 16 (o.mid * 32 + o.vs))) (ctrPort p 17) 1, none)
    | none => (count (event s 0x0308 p (p + at_ 16 (o.mid * 32 + o.vs))) (ctrPort p 17) 1, none)

/-- Requests outstanding under the selected entry hold off its release (R123). -/
def proxyFreeCheck (s : State) (sess : Nat) : Nat :=
  match Tbl.find? (warpPort s (param s sess 0x3110 1)).proxies (param s sess 0x3110 2) with
  | some x => if x.outstanding = 0 then 0 else 5
  | none => 0

def actProxyFree (sess : Nat) (s : State) : State :=
  let p := param s sess 0x3110 1
  let x := warpPort s p
  setWarp s p { x with proxies := Tbl.erase x.proxies (param s sess 0x3110 2) }

/-- PROXY_FREE (R123). -/
def execProxyFree (sess value : Nat) (s : State) : Host.Outcome State Fault Refusal :=
  .next (actWrite s sess 0x3110 4 value (if value = 1 then proxyFreeCheck s sess else 0) id (onOne value (actProxyFree sess)))

/-- Groups in use in the whole module. -/
def groupsUsed (s : State) : Nat := ((List.range 32).map fun v => popCount 64 (partOf s v).groups).sum

/-- MCAST_GROUP_ENABLE (R140): the group takes one of the module's, or its enable bit stays 0. Event 0x030E names the partition's
upstream port. -/
def mcastGroupEnable (v group : Nat) (s : State) : State :=
  let x := partOf s v
  if vsState s v ≠ 2 ∨ bit x.groups group then s
  else if 1024 ≤ groupsUsed s then eventIn s (some v) 0x030E 0 ((upPort s v).getD 0 + at_ 16 v)
  else setPart s v { x with groups := putBit x.groups group true }

def execMcastGroupEnable (v : Vs) (group : Fin 64) (s : State) : Host.Outcome State Fault Refusal := .next (mcastGroupEnable v group s)

end Sys2Proof.Machine
end

