-- ==== Sys2Proof/Machine/Route.lean ====
section
/-!
DEFINITION. Envelopes, routes and keys: the envelope of R186, the route lookup of R203 and R204, the twin ports of R363, the
secrets and keys of R257 to R263, and the sealing, opening and sending of operations.
-/

namespace Sys2Proof.Machine

/-- Fabric mode (R198). -/
def fabricOn (s : State) : Bool := cfgv s 0x4100 2 ≠ 0

/-- The module treats this MID as its own (R190, R372). -/
def isOwnMid (s : State) (m : Nat) : Bool := m = ownMid s || s.fab.adoptedMid = some m

/-- The module's position in MASTER_CANDIDATE, 1 to 4, or 0 (R199). -/
def candidateOf (s : State) (m : Nat) : Nat :=
  match (List.range 4).find? fun i => cfgv s 0x4101 (i + 1) = m && m < 1024 with
  | some i => i + 1
  | none => 0

/-! ### The envelope (R186, R189) -/

def envVersion (o : WireOp) : Nat := bits o.env.toNat 0 4
def envGen (o : WireOp) : Nat := bits o.env.toNat 100 16
def envAcq (o : WireOp) : Bool := bit o.env.toNat 13
def envRel (o : WireOp) : Bool := bit o.env.toNat 14
def envCong (o : WireOp) : Bool := bit o.env.toNat 15

/-- The envelope as additional data: HOP_COUNT and CONG taken as 0 (R189). -/
def aadEnv (env : Nat) : List Byte := leBytes 16 (putBit (putBits env 16 4 0) 15 false)

/-! ### Routes (R202 to R204) -/

/-- The flow hash H (R204). -/
def flowHash (o : WireOp) : Nat :=
  crc32c (leBytes 8 (envSrc o + at_ 17 (envDst o) + at_ 34 (envCid o) + at_ 48 (envOrd o)))

/-- Rotate right within 32 bits. -/
def rotr32 (x n : Nat) : Nat := (x >>> (n % 32)) ||| ((x <<< (32 - n % 32)) % 2 ^ 32)

/-- A written entry with the ports that have joined path sets: their probes agree, and no local repair holds them out (R198, R207,
R211). -/
def effective (s : State) (e : RouteEntry) : RouteEntry :=
  let ps := e.ports.filter fun p => s.fab.joined.contains p && !s.fab.repaired.contains p
  { e with ports := ps, valid := e.valid && (e.isLocal || !ps.isEmpty) }

/-- The active-bank entry of a destination. -/
def routeEntry (s : State) (mid : Nat) : RouteEntry := effective s (Tbl.get s.fab.active mid {})

/-- The egress of an operation at this module, `p` the path offset (R203). -/
def routePort (s : State) (o : WireOp) (p : Nat) : Option Nat :=
  let e := routeEntry s (envDst o / 128)
  if e.valid && !e.isLocal && !e.ports.isEmpty then e.ports[(rotr32 (flowHash o) s.fab.rotate + p) % e.ports.length]? else none

/-- A route entry as its 128 bits (R202). -/
def RouteEntry.word (e : RouteEntry) : Nat :=
  at_ 127 (b2n e.valid) + at_ 120 (e.hops % 16) + at_ 116 (b2n e.isLocal) + at_ 112 ((e.ports.length - 1) % 16) +
    ((List.range 16).map fun j => at_ (7 * j) ((e.ports[j]?).getD 0 % 128)).sum

/-- The route entry that 128 bits give. -/
def RouteEntry.of (w : Nat) : RouteEntry :=
  { valid := bit w 127, hops := bits w 120 4, isLocal := bit w 116
    ports := if bit w 127 && !bit w 116 then (List.range (bits w 112 4 + 1)).map fun j => bits w (7 * j) 7 else [] }

/-! ### Twin links (R360, R363) -/

def twinMid (s : State) : Nat := cfgv s 0x5203 0

/-- A twin port's peer shows another MID than the twin's (R360). -/
def twinHeld (s : State) (p : Nat) : Bool :=
  match Tbl.find? s.fab.probes p with
  | some x => !(x.gportValid && x.gport / 128 = twinMid s)
  | none => false

/-- The twin links that may carry the twin connection. -/
def twinLinks (s : State) : List Nat :=
  (List.range 128).filter fun p => isTwinPort s p && (weftPort s p).link = .active && !twinHeld s p

/-- The context is this module's end of the twin connection (R363). -/
def isTwinCid (s : State) (c : Nat) : Bool := cfgOn s 0x5201 0 && c = cfgv s 0x5205 0 && (connOf s c).peerMid = twinMid s

/-- The twin port of an ordering class. -/
def twinPort (s : State) (ord : Nat) : Option Nat :=
  match twinLinks s with
  | [] => none
  | [p] => some p
  | p :: q :: _ => if ord = 0 then some p else some q

/-- The operation belongs to the direction of which this module is the ingress: an acknowledgement, a refusal and a response belong
to the peer's (R203, R236). -/
def ownDirection (o : WireOp) : Bool := envTyp o ≠ 8 && envTyp o ≠ 9 && envTyp o ≠ 11

/-- The egress of an operation of context `c`. -/
def egressOf (s : State) (c : Nat) (o : WireOp) : Option Nat :=
  if isTwinCid s c then twinPort s (if envTyp o < 8 then envOrd o else 0)
  else routePort s o (if ownDirection o then (connOf s c).pathOffset else 0)

/-! ### Secrets and keys (R257 to R263) -/

/-- Where the vault holds the pair secret for a module. -/
def pairKey (mid : Nat) : Nat := key 0x4210 2 + (mid + 1) * 2 ^ 24

/-- The secret shared with a module: the pair secret, or the join secret while either end has no MID. -/
def secretFor (s : State) (mid : Nat) : Option (List Byte) :=
  let k := if midValid s && mid < 1024 then pairKey mid else key 0x4211 0
  match Tbl.find? s.vault.secrets k with
  | some v => some (leBytes 32 v)
  | none => none

/-- The open key of two modules (R258). -/
def openKey (secret : List Byte) (a b : Nat) : List Byte :=
  hkdf384 [] secret (ascii "PRAVAN-O1" ++ leBytes 2 (min a b) ++ leBytes 2 (max a b)) 32

/-- The 128 bytes of a connection's keys: the initiator's fresh value and the responder's are the salt (R258). -/
def connKeyBytes (secret : List Byte) (nonceI nonceR iMid iCid rMid rCid epoch : Nat) : List Byte :=
  hkdf384 (leBytes 8 nonceI ++ leBytes 8 nonceR) secret
    (ascii "PRAVAN-C1" ++ leBytes 2 iMid ++ leBytes 2 iCid ++ leBytes 2 rMid ++ leBytes 2 rCid ++ leBytes 2 epoch) 128

/-- The keys of an epoch, as the opener or as the other end sees them. -/
def keySet (bs : List Byte) (opener : Bool) : KeySet :=
  let k := fun (i : Nat) => (bs.drop (32 * i)).take 32
  if opener then { dataTx := k 0, dataRx := k 1, ctlTx := k 2, ctlRx := k 3 }
  else { dataTx := k 1, dataRx := k 0, ctlTx := k 3, ctlRx := k 2 }

/-- The keys of an epoch of context `c`; `nonceI` is the opener's fresh value. -/
def deriveKeys (s : State) (c nonceI nonceR epoch : Nat) (opener : Bool) (secret : List Byte) : KeySet :=
  let x := connOf s c
  let own := connMid s c
  let bs := if opener then connKeyBytes secret nonceI nonceR own (c % 16384) x.peerMid x.peerCid epoch
            else connKeyBytes secret nonceI nonceR x.peerMid x.peerCid own (c % 16384) epoch
  keySet bs opener

/-- The link key of a port (R263): leader's nonce, follower's nonce, the two global ports. -/
def linkKey (secret : List Byte) (leader follower a b : Nat) : List Byte :=
  hkdf384 (leBytes 2 leader ++ leBytes 2 follower) secret
    (ascii "PRAVAN-L1" ++ leBytes 3 (min a b) ++ leBytes 3 (max a b)) 32

/-! ### Sealing (R259, R260) -/

def dataNonce (env : Nat) : List Byte := beBytes 12 (at_ 64 (bits env 68 32) + at_ 52 (bits env 116 12))

def ctlNonce (n : Nat) : List Byte := beBytes 8 n ++ List.replicate 4 0

/-- Encrypt a sequenced operation given in plaintext. -/
def sealData (k : List Byte) (o : WireOp) : WireOp :=
  let c := gcmSeal k (dataNonce o.env.toNat) (aadEnv o.env.toNat) o.body
  { o with body := c.1, tag := c.2 }

/-- Open a sequenced operation. -/
def openData (k : List Byte) (o : WireOp) : Option WireOp :=
  match gcmOpen k (dataNonce o.env.toNat) (aadEnv o.env.toNat) o.body o.tag with
  | some pt => some { o with body := pt, tag := [] }
  | none => none

/-- A control operation with its tag, under a key and an 8-byte nonce. -/
def sealCtl (k : List Byte) (nonce : Nat) (env : Nat) (body : List Byte) : WireOp :=
  { env := BitVec.ofNat 128 env, body := body, tag := (gcmSeal k (ctlNonce nonce) (aadEnv env ++ body) []).2 }

/-- The tag of a control operation is right. -/
def ctlTagOk (k : List Byte) (nonce : Nat) (o : WireOp) : Bool :=
  (gcmOpen k (ctlNonce nonce) (aadEnv o.env.toNat ++ o.body) [] o.tag).isSome

/-- A beacon's tag: the nonce is T_TX followed by the envelope SEQ (R263). -/
def beaconNonce (tTx seq : Nat) : List Byte := beBytes 8 tTx ++ beBytes 4 seq

def sealBeacon (k : List Byte) (env : Nat) (body : List Byte) : WireOp :=
  { env := BitVec.ofNat 128 env, body := body,
    tag := (gcmSeal k (beaconNonce (leAt body 24 8) (bits env 68 32)) (aadEnv env ++ body) []).2 }

def beaconTagOk (k : List Byte) (o : WireOp) : Bool :=
  (gcmOpen k (beaconNonce (leAt o.body 24 8) (envSeq o)) (aadEnv o.env.toNat ++ o.body) [] o.tag).isSome

/-! ### Sending -/

/-- A loss for want of a route (R212). -/
def noRoute (s : State) (mid : Nat) : State :=
  rateEvent s 0x050B mid ms fun s n => event s 0x050B 0 (mid % 1024 + at_ 32 (n % 2 ^ 32))

/-- Hand a complete operation of the own shuttle to the loom, or to the own inbox when it is for this module. -/
def launch (s : State) (c : Nat) (o : WireOp) : State :=
  if isOwnMid s (envDst o / 128) then { s with shu := { s.shu with inbox := s.shu.inbox ++ [{ op := o }] } }
  else
    match egressOf s c o with
    | none => noRoute s (envDst o / 128)
    | some d =>
      let q := storeChain s 128 (cells (operBytes o)) false none
      enqueueOper q.1 d 128 q.2 (operBytes o) o none

/-- Send a link-local operation out of one weft port (R193, R194). -/
def launchPort (s : State) (p : Nat) (o : WireOp) : State :=
  let q := storeChain s 128 (cells (operBytes o)) false none
  enqueueOper q.1 p 128 q.2 (operBytes o) o none

/-- Send a control operation on a context under its newest control key, with the next CTL_COUNT (R260). `cid` is the CID the
envelope carries; `word` the 32-byte body without the count. -/
def sendControl (s : State) (c cid typ word seq srcPort dstPort : Nat) : State :=
  let x := connOf s c
  match x.keys with
  | none => s
  | some k =>
    let n := x.ctlTx + 1
    let env := { typ := typ, tc := x.tc, seq := seq, cid := cid, src := connMid s c * 128 + srcPort,
                 dst := x.peerMid * 128 + dstPort, stamp := stampNow s : EnvFields }.word
    launch (setConn s c { x with ctlTx := n }) c (sealCtl k.ctlTx n env (leBytes 32 (word + at_ 192 (n % 2 ^ 64))))

/-- Answer under the open key, for want of a key of the connection (R260): a fresh random CTL_COUNT, or a tag of zeros when
there is no secret. With the entropy source unhealthy there is no fresh count, and no answer (R494). -/
def sendOpen (s : State) (mid : Nat) (own : Nat) (env word : Nat) : State :=
  if !s.vault.entropyOk then s
  else
    let n := (drawn s).toNat % 2 ^ 64
    let body := leBytes 32 (word + at_ 192 n)
    let o : WireOp := match secretFor s mid with
      | some k => sealCtl (openKey k own mid) n env body
      | none => { env := BitVec.ofNat 128 env, body := body, tag := List.replicate 16 0 }
    launch (afterDraw s) 16383 o

/-! ### Connection contexts and their events (R231, R266, R554) -/

/-- Sequence number `a` is before `b` (R242). -/
def seqBefore (a b : Nat) : Bool := let d := (b + 2 ^ 32 - a) % 2 ^ 32; 1 ≤ d && d ≤ 2 ^ 31

/-- `b - a` modulo 2^32. -/
def seqDiff (b a : Nat) : Nat := (b + 2 ^ 32 - a % 2 ^ 32) % 2 ^ 32

def connEvent (s : State) (c code extra : Nat) : State :=
  eventIn s (connRing s c) code 0 (c % 16384 + at_ 14 ((connOf s c).peerMid % 1024) + extra)

/-- The same, caused by a contained error. -/
def connError (s : State) (c code extra : Nat) : State :=
  eventFull s code 0 2 (connRing s c) false (c % 16384 + at_ 14 ((connOf s c).peerMid % 1024) + extra)

/-- The context of a source MID and CID (R229). -/
def contextFor (s : State) (mid cid : Nat) : Option Nat :=
  match List.find? (fun r => r.2.st ≠ .idle && r.2.peerMid = mid && r.2.peerCid = cid && (r.2.st ≠ .opening)) s.shu.conns with
  | some r => some r.1
  | none => none

/-- The context an arriving operation is for: its source, and its destination MID for an adopted one. -/
def contextOf (s : State) (o : WireOp) : Option Nat :=
  let adopted := s.fab.adoptedMid = some (envDst o / 128)
  match List.find? (fun r => r.2.st ≠ .idle && r.2.st ≠ .opening && r.2.peerMid = envSrc o / 128 && r.2.peerCid = envCid o &&
      (adopted == decide (16384 ≤ r.1))) s.shu.conns with
  | some r => some r.1
  | none => none

/-! ### Ledger entries of a context -/

/-- A context's ledger entries in sequence order. -/
def ledgerOf (s : State) (c : Nat) : List (Nat × LedgerEntry) :=
  let x := connOf s c
  sortBy (fun a b => seqDiff x.txNext b.2.seq ≤ seqDiff x.txNext a.2.seq) (s.shu.ledger.filter fun r => r.2.cid = c)

def ledgerAt (s : State) (c seq : Nat) : Option (Nat × LedgerEntry) := List.find? (fun r => r.2.cid = c && r.2.seq = seq) s.shu.ledger

/-- INFLIGHT: slots of the operations of a direction that have been sent and not released (R245). -/
def inflight (s : State) (c : Nat) : Nat := ((s.shu.ledger.filter fun r => r.2.cid = c && r.2.sent).map fun r => r.2.slots).sum

/-- INFLIGHT as the context reads it: slots of every operation of the direction in the ledger (R231). -/
def ledgerSlots (s : State) (c : Nat) : Nat := ((s.shu.ledger.filter fun r => r.2.cid = c).map fun r => r.2.slots).sum

/-- TX_OLDEST (R231). -/
def txOldest (s : State) (c : Nat) : Nat :=
  match ledgerOf s c with
  | r :: _ => r.2.seq
  | [] => (connOf s c).txNext

def ConnSt.code : ConnSt → Nat
  | .idle => 0 | .opening => 1 | .active => 2 | .stalled => 3 | .failed => 4 | .closing => 5

/-- A connection context as its 40 bytes (R231). -/
def contextWord (s : State) (c : Nat) : Nat :=
  let x := connOf s c
  at_ 288 x.decSeq + at_ 253 x.st.code + at_ 243 (x.peerMid % 1024) + at_ 229 (x.peerCid % 16384) + at_ 226 (x.tc % 8) +
    at_ 225 (b2n x.twin) + at_ 224 (b2n x.autoResume) + at_ 220 (x.retryLimit % 16) + at_ 216 (x.pathOffset % 16) +
    at_ 214 (x.consecTo % 4) + at_ 198 (x.keyEpoch % 65536) + at_ 160 x.txNext + at_ 128 (txOldest s c) + at_ 96 x.rxE +
    at_ 80 (x.cwnd % 65536) + at_ 64 (ledgerSlots s c % 65536) + at_ 53 ((ledgerOf s c).length % 2048) + at_ 45 (x.failReason % 256) +
    at_ 43 (x.ownerKind % 4) + at_ 32 (x.ownerId % 2048) + x.failSeq

def contextBytes (s : State) (c : Nat) : List Byte := leBytes 40 (contextWord s c)

/-- CHAIN of ledger entry `l` (R244): its chain head, or the first unit of the ledger region of the beam that holds it. -/
def entryChain (s : State) (l : Nat) (e : LedgerEntry) : Nat :=
  if e.place = 1 then ledgerUnit s ((Tbl.get s.loom.beamLedger l []).headD 0) else e.chain

/-- A ledger entry as its 16 bytes (R244). -/
def ledgerWord (s : State) (l : Nat) (e : LedgerEntry) : Nat :=
  at_ 127 1 + at_ 125 (e.place % 4) + at_ 111 (e.cid % 16384) + at_ 107 (e.typ % 16) + at_ 103 (e.timeouts % 16) + at_ 102 (b2n e.mirrored) +
    at_ 95 (e.slots % 128) + at_ 67 (entryChain s l e % 2 ^ (if e.place = 1 then 28 else 19)) +
    at_ 55 (e.stamp % 4096) + at_ 32 ((s.ft + e.deadline - s.now) / 128 % 2 ^ 23) + e.seq

end Sys2Proof.Machine
end

