-- ==== Sys2Proof/Machine/Windows.lean ====
section
/-!
DEFINITION. Windows, imports and the posting buffer (chapter 9): the window table and its transitions, the target's checks,
apertures at the requester, merging and forwarding, and what a descriptor or a fence learns of its operations.
-/

namespace Sys2Proof.Machine

/-! ### Entries as they are read (R267, R277, R281) -/

def WinSt.code : WinSt → Nat
  | .free => 0 | .open_ => 1 | .revoking => 2 | .revoked => 3

def winOf (s : State) (w : Nat) : Window := Tbl.get s.win.windows w {}
def setWin (s : State) (w : Nat) (x : Window) : State := { s with win := { s.win with windows := Tbl.set s.win.windows w x } }

def Window.word (x : Window) : Nat :=
  at_ 254 x.st.code + at_ 253 (b2n x.device) + at_ 252 (b2n x.permR) + at_ 251 (b2n x.permW) + at_ 250 (b2n x.permA) +
    at_ 244 (x.sizeLog2 % 64) + at_ 228 (x.gen % 65536) + at_ 223 (x.owner % 32) + at_ 221 (x.kind % 4) + at_ 214 (x.port % 128) +
    at_ 213 (b2n x.peerAny) + at_ 198 (x.peerPgid % 32768) + at_ 192 (x.devCache % 64) + at_ 172 (x.admitted % 2 ^ 20) +
    at_ 128 (x.quarUntil % 2 ^ 44) + at_ 64 (x.base % 2 ^ 64)

/-- What an open command's image gives of an entry. -/
def Window.image (w : Nat) : Window :=
  { device := bit w 253, permR := bit w 252, permW := bit w 251, permA := bit w 250, sizeLog2 := bits w 244 6, kind := bits w 221 2,
    port := bits w 214 7, peerAny := bit w 213, peerPgid := bits w 198 15, devCache := bits w 192 6, base := bits w 64 64 }

def Import.word (x : Import) : Nat :=
  at_ 255 1 + at_ 254 (b2n x.device) + at_ 253 (b2n x.permR) + at_ 252 (b2n x.permW) + at_ 251 (b2n x.permA) +
    at_ 245 (x.sizeLog2 % 64) + at_ 234 (x.func % 2048) + at_ 220 (x.cid % 16384) + at_ 204 (x.window % 65536) + at_ 188 (x.gen % 65536) +
    at_ 186 (x.ord % 4) + at_ 185 (b2n x.acqLoads) + at_ 184 (b2n x.relStores) + at_ 183 (b2n x.merge) + at_ 182 (b2n x.fwd) +
    at_ 64 (x.base % 2 ^ 64) + x.winBase % 2 ^ 41

def Import.image (w : Nat) : Import :=
  { device := bit w 254, permR := bit w 253, permW := bit w 252, permA := bit w 251, sizeLog2 := bits w 245 6, func := bits w 234 11,
    cid := bits w 220 14, window := bits w 204 16, gen := bits w 188 16, ord := bits w 186 2, acqLoads := bit w 185, relStores := bit w 184,
    merge := bit w 183, fwd := bit w 182, base := bits w 64 64, winBase := bits w 0 41 }

def Posting.word (s : State) (x : Posting) : Nat :=
  let chain := match Tbl.find? s.shu.ledger x.ledger with
    | some e => entryChain s x.ledger e
    | none => 0
  at_ 255 1 + at_ 254 (b2n x.sent) + at_ 253 (b2n x.device) + at_ 252 (b2n x.rel) + at_ 238 (x.cid % 16384) + at_ 206 x.seq +
    at_ 190 (x.window % 65536) + at_ 149 (x.offset % 2 ^ 41) + at_ 136 (x.data.length % 8192) + at_ 132 (x.firstBe % 16) +
    at_ 128 (x.lastBe % 16) + at_ 112 (x.imp % 65536) + at_ 84 (chain % 2 ^ 28)

/-- Free entries of the completion-cache pool (R276): an OPEN, REVOKING or REVOKED window holds its entries. -/
def devCacheFree (s : State) : Nat :=
  8192 - ((s.win.windows.map fun r => if r.2.st = .free then 0 else r.2.devCache).sum)

/-! ### Window transitions (R269 to R271) -/

/-- An event of a window goes to the ring of its owner (R554). -/
def winEvent (s : State) (v code info : Nat) : State := eventIn s (some v) code 0 info

/-- Windows that count against a partition's share. -/
def windowsOf (s : State) (v : Nat) : Nat := (s.win.windows.filter fun r => r.2.st ≠ .free && r.2.owner = v).length

/-- Why partition `v` may not open window `w` with image `i` (R270), or 0. -/
def openRefusal (s : State) (v w : Nat) (i : Window) : Nat :=
  let x := winOf s w
  let back := if x.st = .revoked then x.devCache else 0
  let us := s.ft / us % 2 ^ 44
  if !(x.st = .free || (x.st = .revoked && x.owner = v)) then 1
  else if i.sizeLog2 < 12 || 41 < i.sizeLog2 || i.base % 2 ^ i.sizeLog2 ≠ 0 then 2
  else if 2 ≤ i.kind || (i.kind = 0 && !(isWarp s i.port && portPart s i.port = some v)) then 3
  else if i.device && (i.devCache = 0 || devCacheFree s + back < i.devCache) then 4
  else if x.quarUntil ≠ 0 && (x.quarUntil + 2 ^ 44 - us) % 2 ^ 44 ≤ 2 ^ 43 && x.quarUntil ≠ us then 5
  else if vsState s v ≠ 2 then 6
  else if x.st = .free && cfgv s 0x4403 (v + 1) ≤ windowsOf s v then 7
  else 0

/-- Open a window (R269, R271): GEN advances and never takes 0. -/
def openWindow (s : State) (v w : Nat) (i : Window) : State :=
  let x := winOf s w
  let g := if x.gen = 65535 then 1 else x.gen + 1
  let y := { i with st := .open_, gen := g, owner := v, devCache := if i.device then i.devCache else 0,
                    port := if i.kind = 1 then 0 else i.port, cache := [] }
  let s := count (setWin s w y) (ctrWin v 8) 1
  winEvent s v 0x0704 (w + at_ 16 g + at_ 32 y.sizeLog2 + at_ 38 (b2n y.device))

/-- An open refused: event 0x0705, with 0x070A for quarantine. -/
def openRefused (s : State) (v w status : Nat) : State :=
  let s := winEvent s v 0x0705 (w + at_ 16 status)
  if status = 5 then
    winEvent s v 0x070A (w + at_ 32 (((winOf s w).quarUntil + 2 ^ 44 - s.ft / us % 2 ^ 44) % 2 ^ 44 % 2 ^ 32))
  else s

/-- OPEN to REVOKING. -/
def startRevoke (s : State) (w : Nat) : State :=
  let x := winOf s w
  count (setWin s w { x with st := .revoking, revokeAt := s.now }) (ctrWin x.owner 9) 1

/-- REVOKING to REVOKED, with the quarantine of R271: event 0x0703. -/
def endRevoke (s : State) (w : Nat) : State :=
  let x := winOf s w
  let q := if x.gen = 65535 then (s.ft + cfgv s 0x4010 0 + 10 * ms) / us % 2 ^ 44 else 0
  winEvent (setWin s w { x with st := .revoked, quarUntil := q }) x.owner 0x0703
    (w + at_ 16 x.gen + at_ 32 ((s.now - x.revokeAt) / us % 2 ^ 32))

/-- REVOKED to FREE: the cache entries go back to the pool; the generation and the quarantine stay. -/
def freeWindow (s : State) (w : Nat) : State :=
  let x := winOf s w
  setWin s w { gen := x.gen, quarUntil := x.quarUntil }

/-! ### The target's checks (R272, R273) -/

/-- Fields of a request header (R233). -/
structure ReqHead where
  rid : Nat
  vs : Nat
  kind : Nat
  tag : Nat
  len : Nat
  lastBe : Nat
  firstBe : Nat
  atom : Nat
  ns : Bool
  window : Nat
  offset : Nat

def reqHead (w : Nat) : ReqHead :=
  { rid := bits w 112 16, vs := bits w 107 5, kind := bits w 105 2, tag := bits w 93 12, len := bits w 80 13, lastBe := bits w 76 4,
    firstBe := bits w 72 4, atom := bits w 68 4, ns := bit w 67, window := bits w 41 16, offset := bits w 0 41 }

/-- The header word of a request with REQ_TAG 0. -/
def reqWord (h : ReqHead) : Nat :=
  at_ 112 (h.rid % 65536) + at_ 107 (h.vs % 32) + at_ 105 (h.kind % 4) + at_ 93 (h.tag % 4096) + at_ 80 (h.len % 8192) +
    at_ 76 (h.lastBe % 16) + at_ 72 (h.firstBe % 16) + at_ 68 (h.atom % 16) + at_ 67 (b2n h.ns) + at_ 41 (h.window % 65536) + h.offset % 2 ^ 41

/-- The body of an operation is consistent with its type (R254). -/
def bodyConsistent (typ : Nat) (h : ReqHead) (data : Nat) : Bool :=
  match typ with
  | 0 => data = h.len && h.len ≤ 4080
  | 3 => data = h.len && h.len ≤ 4080
  | 1 => data = 0 && h.len ≤ 4096
  | 2 => h.atom ≤ 2 && (h.len = 4 || h.len = 8 || h.len = 16) && data = (if h.atom = 2 then 2 * h.len else h.len)
  | 5 => h.len = 0 && data = 0
  | _ => true

/-- Access kind of a request type, as a heddle sees it. -/
def accessKind (typ : Nat) : Nat :=
  match typ with
  | 1 => 0 | 2 => 2 | 3 => 3
  | _ => 1

/-- The target port takes no request from elsewhere (R128, R131, R274, R348, R351), or its partition is in reset, or the
device is shared while the module is FENCED (R223). -/
def targetUnavailable (s : State) (x : Window) : Bool :=
  (x.kind = 0 && ((warpPort s x.port).st ≠ .active ||
    (match portPart s x.port with
      | some v => vsState s v ≠ 2 || (partOf s v).resetSince.isSome
      | none => true) ||
    (s.module.state = .fenced && cfgOn s 0x4105 (x.port + 1)))) ||
  (x.kind = 1 && !cfgOn s 0x6001 0)

/-- Refuse a module that is FENCED or outside the serving states. -/
def permitsType (x : Window) (typ : Nat) : Bool :=
  match typ with
  | 1 => x.permR
  | 2 => x.permA
  | _ => x.permW

/-- The checks of R272 up to the heddle: a NAK reason, or 0. -/
def windowRefusal (s : State) (mid typ gen : Nat) (h : ReqHead) : Nat :=
  let x := winOf s h.window
  if x.st = .revoking || x.st = .revoked then 2
  else if x.st = .free then 4
  else if gen ≠ x.gen then 3
  else if 2 ^ x.sizeLog2 < h.offset + h.len || !permitsType x typ ||
      (!x.peerAny && (h.kind = 1 || mid * 32 + h.vs ≠ x.peerPgid)) || (x.device && typ = 1 && 64 < h.len) then 4
  else if targetUnavailable s x then 5
  else 0

/-- The heddle of a window's target, and its destination in the loom. -/
def winTarget (x : Window) : Nat := if x.kind = 1 then 129 else x.port

/-- The TLP that a request becomes at its target (R268). -/
def targetTlp (x : Window) (typ tc : Nat) (h : ReqHead) (data : List Byte) : Tlp :=
  { kind := match typ with
      | 0 => .memWrite
      | 1 => .memRead
      | 3 => .deferrableWrite
      | _ => if h.atom = 0 then .fetchAdd else if h.atom = 1 then .swap else .compareSwap
    addr := x.base + h.offset, len := h.len, firstBe := h.firstBe, lastBe := h.lastBe, tc := Fin.ofNat 8 tc, rid := h.rid, ns := h.ns,
    tag := h.tag, data := data }

/-- A device window has its completion-cache entry taken for a request. -/
def takeCache (s : State) (w c seq tag : Nat) : State :=
  let x := winOf s w
  if x.device then
    let y := connOf s c
    setWin s w { x with cache := x.cache ++ [{ mid := y.peerMid, cid := y.peerCid, seq := seq, tag := tag }] }
  else s

/-- The outcome of a delivery: handled as delivered, with the loom's mark; refused with a reason; or discarded unacknowledged. -/
inductive Delivery where
  | delivered (s : State) (mark : Bool)
  | refused (s : State) (reason : Nat)
  | discarded (s : State)

/-- Deliver a READ, ATOMIC, WRITE or NP_WRITE to a window (R171, R272, R273, R275, R329): `src` is the loom's source it arrived from
and `ord` its ordering class (R149). -/
def deliverRequest (s : State) (c src typ tc ord gen seq srcPort dstPort : Nat) (h : ReqHead) (data : List Byte) : Delivery :=
  let y := connOf s c
  let x := winOf s h.window
  let r := windowRefusal s y.peerMid typ gen h
  let cls := fabricClass s y.peerMid h.vs h.kind
  let fi : FilterItem := { cls := some cls, tc := tc, typ := (if typ = 1 then 1 else if typ = 2 then 2 else if typ = 3 then 3 else 0),
                           master := some (y.peerMid, h.vs, h.rid), addr := some (x.base + h.offset), bytes := data.length }
  let s := filterItem s 4 fi
  if r ≠ 0 then .refused (if x.st = .free then s else count s (ctrWin x.owner 10) 1) r
  else
    let d := winTarget x
    match heddleCheck s d { cls := cls, kind := accessKind typ, addr := x.base + h.offset, len := h.len } with
    | .deny a rg sb => .refused (denied (count s (ctrWin x.owner 10) 1) d cls (accessKind typ) false a rg sb) 1
    | v =>
     if x.device && typ ≠ 0 && x.devCache ≤ x.cache.length then
      let s := count s (ctrWin x.owner 11) 1
      .discarded (rateEvent s 0x0706 h.window ms fun s n => winEvent s x.owner 0x0706 (h.window + at_ 32 (n % 2 ^ 32)))
     else
      let s := passed s d (match v with | .own => true | _ => false) fi
      let t := targetTlp x typ tc h data
      let t := match v with
        | .region w => if d < 128 then stamped w t else t
        | _ => t
      let s := setWin s h.window { x with admitted := x.admitted + 1 }
      let o : Origin := { cls := cls, mid := y.peerMid, vs := h.vs, rid := h.rid, kind := h.kind, outside := true,
                          window := some h.window, ret := if typ = 0 then .none else .shuttle c seq h.tag }
      let s := if typ = 0 then s else takeCache s h.window c seq h.tag
      let (s, mark) := drawMark s d tc
      let q := enqueueTlp s d src o t s.hed.epoch ord
      if typ = 0 || typ = 3 then
        let s := setConn q.1 c { connOf q.1 c with unseen := (connOf q.1 c).unseen + 1 }
        let u : Unseen := { item := q.2, window := if typ = 0 then some h.window else none, cid := c, seq := seq, dest := d,
                            epoch := s.hed.epoch, offset := h.offset, srcPort := srcPort, dstPort := dstPort }
        .delivered { s with win := { s.win with unseen := s.win.unseen ++ [u] } } mark
      else .delivered q.1 mark

/-! ### Visibility (R284, R285) -/

/-- A write that has left is visible. -/
def visible (s : State) (u : Unseen) : State := writeDone s u false

/-! ### Descriptors as their operations see them -/

/-- Change a descriptor in progress. -/
def descMod (s : State) (t : Ticket) (f : DescState → DescState) : State :=
  match instOf s t.inst with
  | some x =>
    match Tbl.find? x.queues t.q with
    | some q => setInst s t.inst { x with queues := Tbl.set x.queues t.q { q with work := q.work.map fun d => if d.n = t.n then f d else d } }
    | none => s
  | none => s

/-- One of a descriptor's operations has been answered for `bytes` bytes. -/
def descDone (s : State) (t : Ticket) (bytes : Nat) : State := descMod s t fun d => { d with left := d.left - 1, bytesDone := d.bytesDone + bytes }

/-- A descriptor meets a condition of R311. -/
def descCond (s : State) (t : Ticket) (status detail : Nat) : State := descMod s t fun d => { d with conds := d.conds ++ [(status, detail)] }

/-! ### The translation unit (R315) -/

/-- The host address of an IOVA: PASS sends it unchanged; MAPPED takes the largest page that covers it and allows the
request. -/
def translate (x : InstState) (iova : Nat) (write : Bool) : Option Nat :=
  if !x.mapped then some iova
  else
    let fits := x.maps.filter fun m => m.iova ≤ iova && iova < m.iova + 2 ^ m.size && (if write then m.write else m.read)
    match fits.foldl (fun b m => match b with
      | some (k : TuMap) => if k.size < m.size then some m else some k
      | none => some m) none with
    | some m => some (m.host + (iova - m.iova))
    | none => none

/-- A translation fault: event 0x0724. -/
def translationFault (s : State) (i iova : Nat) (write : Bool) : State :=
  match instOf s i with
  | some x => eventIn (count s (ctrWin x.vs 13) 1) (some x.vs) 0x0724 0 (i % 2048 + at_ 11 (b2n write) + at_ 12 (iova / 4096 % 2 ^ 52))
  | none => s

/-- The parts of a range that lie in one 4 KiB page each. -/
def pageParts : Nat → Nat → Nat → List (Nat × Nat)
  | 0, _, _ => []
  | fuel + 1, a, n =>
    if n = 0 then []
    else
      let k := min n (4096 - a % 4096)
      (a, k) :: pageParts fuel (a + k) (n - k)

/-- Write bytes at an instance's IOVA; false when a page does not translate. A function-level reset discards the write
(R318). -/
def localWrite (s : State) (i iova : Nat) (data : List Byte) : State × Bool :=
  match instOf s i with
  | none => (s, true)
  | some x =>
    if x.flr.isSome then (s, true)
    else
      (pageParts (data.length + 1) iova data.length).foldl (fun (r : State × Bool) p =>
        match translate x p.1 true with
        | some a => (hostPost r.1 x.vs a ((data.drop (p.1 - iova)).take p.2), r.2)
        | none => if r.2 then (translationFault r.1 i p.1 true, false) else r) (s, true)

/-! ### Refusals and answers at the requester (R239, R279, R286) -/

/-- A fence has its status (R286). -/
def fenceDone (s : State) (c seq status : Nat) (o : Origin) (tlp : Option Tlp) (ticket : Option Ticket) : State :=
  let x := connOf s c
  let s := if (Tbl.find? s.shu.conns c).isSome then setConn s c { x with failedSince := false } else s
  let s := if status = 3 then
      let s := match o.ret with
        | .none => s
        | _ => count s (ctrWin (o.vs % 32) 6) 1
      connEvent s c 0x0707 (at_ 32 seq)
    else s
  match ticket with
  | some t =>
    let s := descDone s t 0
    if status = 3 then descCond s t 2 0 else if status = 2 then descCond s t 1 0 else s
  | none =>
    match tlp with
    | some t => answer s 128 o t 0 0 false (leBytes 4 status)
    | none => s

/-- A posted write of a function, or of the dobby's inbound side, has failed (R289). -/
def writeFailed (s : State) (c seq reason : Nat) (op : NewOp) : State :=
  let h := reqHead op.head
  let x := connOf s c
  let s := if (Tbl.find? s.shu.conns c).isSome then setConn s c { x with failedSince := true } else s
  if 16384 ≤ c then
    let s := eventFull s 0x0700 0 2 none true (h.offset + at_ 41 h.window + at_ 57 (reason % 128))
    event s 0x0701 0 (c % 16384 + at_ 14 (x.peerMid % 1024) + at_ 32 seq)
  else if h.kind = 3 then s
  else if h.kind = 1 then inboundFailed s (op.origin.window.getD 0) 8 h.offset
  else
    let func := match op.ticket, op.inst with
      | some t, _ => t.inst
      | none, some i => i
      | none, none => 0
    postedFailure s h.vs func c x.peerMid h.window h.offset seq reason

/-- An operation that has been presented fails with Completer Abort, a posted failure or a failed fence; the host of a request in a
tunnel receives Completer Abort (R130), and a completion or any other tunnelled TLP is dropped. `reason` is the posted-failure reason; status and detail are the descriptor's. -/
def failOp (s : State) (c seq reason : Nat) (op : NewOp) (status : Nat) : State :=
  match op.typ with
  | 0 =>
    let s := writeFailed s c seq reason op
    match op.ticket with
    | some t => descCond (descDone s t 0) t status reason
    | none => s
  | 5 => fenceDone s c seq 3 op.origin op.tlp op.ticket
  | 1 | 2 | 3 =>
    match op.ticket with
    | some t => descCond (descDone s t 0) t status reason
    | none =>
      match op.tlp with
      | some t => answer s op.src op.origin t 0 2 false []
      | none => s
  | 6 =>
    match op.tlp with
    | some t => answer s op.src op.origin t 0 2 false []
    | none => s
  | _ => s

/-- Refuse what is presented on a connection that is not ACTIVE (R239, R279): reason 17. -/
def refusePresented (s : State) (op : NewOp) : State :=
  let s := match op.chain with
    | some k => freeChain s k
    | none => s
  failOp s op.cid 0 17 op 2

/-- The port part of the DST_GPORT of a request: the target port that its window records (R187). What a window of another module
records is not known here (DESIGN CHOICE, log entry 114). -/
def windowPort (s : State) (c w : Nat) : Nat :=
  let m := (connOf s c).peerMid
  if isOwnMid s m then (let x := winOf s w; if x.kind = 0 then x.port % 128 else 0) else Config.targetPort (m * 65536 + w) % 128

/-! ### Presenting operations -/

/-- Present an operation to the shuttle: it waits in its source's reservation until it is accepted (R243). -/
def present (s : State) (op : NewOp) : State :=
  let n := 32 + (if op.typ = 13 then op.data.length else 16 + op.data.length)
  let q := storeChain s op.src (cells n) false none
  { q.1 with shu := { q.1.shu with waiting := q.1.shu.waiting ++ [{ op with chain := some q.2 }] } }

/-! ### Apertures (R278 to R283) -/

/-- The valid import that covers an aperture offset: the lowest-numbered. -/
def importFor (s : State) (i a : Nat) : Option (Nat × Import) :=
  List.find? (fun r => r.2.func = i && r.2.base ≤ a && a < r.2.base + 2 ^ r.2.sizeLog2) s.win.imports

def importPermits (x : Import) (t : Tlp) : Bool :=
  match t.kind with
  | .memRead => x.permR
  | .memWrite | .deferrableWrite => x.permW
  | .fetchAdd | .swap | .compareSwap => x.permA
  | _ => false

/-- The requester refuses an access (R279): event 0x0709; non-posted Unsupported Request, posted a failure of reason 18. -/
def refuseAccess (s : State) (i src : Nat) (o : Origin) (t : Tlp) (imp : Option (Nat × Import)) (cause : Nat) : State :=
  let n := match imp with
    | some r => r.1
    | none => 0xFFFF
  let s := count (eventIn s (some o.vs) 0x0709 0 (n + at_ 16 cause + at_ 24 (i % 2048))) (ctrWin o.vs 7) 1
  if tlpKind t = 0 then
    match imp with
    | some (_, x) =>
      postedFailure s o.vs i x.cid (connOf s x.cid).peerMid x.window (x.winBase + (t.addr - x.base)) 0 18
    | none => postedFailure s o.vs i 0 0 0 t.addr 0 18
  else answer s src o t 0 1 false []

/-- A poisoned request is stopped at the aperture (R347). -/
def poisonedAccess (s : State) (i src : Nat) (o : Origin) (t : Tlp) : State :=
  let s := count (eventFull s 0x0907 128 2 (some o.vs) false (128 + at_ 32 (t.addr % 2 ^ 32))) (ctrSel 128 4) 1
  if tlpKind t = 0 then
    match importFor s i t.addr with
    | some (_, x) => postedFailure s o.vs i x.cid (connOf s x.cid).peerMid x.window (x.winBase + (t.addr - x.base)) 0 18
    | none => postedFailure s o.vs i 0 0 0 t.addr 0 18
  else answer s src o t 0 2 false []

/-- Which bytes of an access are enabled: the first and the last doubleword have their own enables. -/
def enabledAt (addr len firstBe lastBe b : Nat) : Bool :=
  let lo := addr / 4 * 4
  let hi := (addr + len - 1) / 4 * 4
  if b < addr || addr + len ≤ b then false
  else if lo = hi then bit firstBe (b % 4)
  else if b / 4 * 4 = lo then bit firstBe (b % 4)
  else if b / 4 * 4 = hi then bit lastBe (b % 4)
  else true

/-- The enables of a byte of a posting-buffer entry. -/
def postHas (p : Posting) (b : Nat) : Bool := enabledAt p.offset p.data.length p.firstBe p.lastBe b

/-- Posting-buffer entries of a connection and window, youngest first. -/
def postingsOf (s : State) (c w : Nat) : List Posting :=
  let e := (s.win.posting.map Prod.snd).filter fun p => p.cid = c && p.window = w
  sortBy (fun a b => seqDiff (connOf s c).txNext a.seq ≤ seqDiff (connOf s c).txNext b.seq) e

/-- The youngest entry that holds a byte, and the byte. -/
def forwardByte (ps : List Posting) (b : Nat) : Option Byte :=
  match ps.find? fun p => postHas p b with
  | some p => p.data[b - p.offset]?
  | none => none

/-- How the posting buffer covers a load (R283): 0 not at all, 1 in part, 2 in whole. -/
def coverage (ps : List Posting) (off len : Nat) : Nat :=
  let n := ((List.range len).filter fun i => (forwardByte ps (off + i)).isSome).length
  if n = 0 then 0 else if n = len then 2 else 1

/-- The operation that an access becomes at window offset `off`. -/
def accessOp (s : State) (x : Import) (i src : Nat) (o : Origin) (t : Tlp) (typ off len : Nat) (first last : Bool) (rel : Bool) (data : List Byte)
    (post : Option Nat) : NewOp :=
  { cid := x.cid, typ := typ, ord := x.ord, acq := x.acqLoads && (typ = 1 || typ = 2), rel := rel, gen := x.gen,
    head := reqWord { rid := o.rid, vs := o.vs, kind := o.kind, tag := 0, len := len, lastBe := if last then t.lastBe else 15,
                      firstBe := if first then t.firstBe else 15,
                      atom := match t.kind with | .swap => 1 | .compareSwap => 2 | _ => 0
                      ns := t.ns, window := x.window, offset := off }
    data := data, srcPort := if src < 128 then src else 0, dstPort := windowPort s x.cid x.window, src := src, origin := o, tlp := if typ = 0 then none else some t, post := post,
    inst := some i }

/-- Present a load, a non-posted write or an AtomicOp. -/
def presentLoad (s : State) (x : Import) (i src : Nat) (o : Origin) (t : Tlp) : State :=
  let off := x.winBase + (t.addr - x.base)
  match t.kind with
  | .memRead => present s (accessOp s x i src o t 1 off t.len true true false [] none)
  | .deferrableWrite => present s (accessOp s x i src o t 3 off t.data.length true true x.relStores t.data none)
  | _ => present s (accessOp s x i src o t 2 off (atomicBytes t) true true false t.data none)

/-- Present a store, split under R235; a split store carries REL on its first piece. -/
def presentStore (s : State) (n : Nat) (x : Import) (i src : Nat) (o : Origin) (t : Tlp) : State :=
  let off := x.winBase + (t.addr - x.base)
  let ps := pieces (t.data.length + 1) off t.data.length
  ps.foldl (fun s p =>
    let first := p.1 = off
    let last := p.1 + p.2 = off + t.data.length
    present s (accessOp s x i src o t 0 p.1 p.2 first (last && !(first && last && t.lastBe = 0)) (x.relStores && first)
      ((t.data.drop (p.1 - off)).take p.2) (some n))) s

/-- An ACQ-marked READ or ATOMIC of the connection has been accepted and awaits its last completion (R285). -/
def acqPending (s : State) (c : Nat) : Bool := (connOf s c).asked.any fun a => a.acq

/-- APERTURE_ACCESS (R278, R279, R283): `t.addr` is the offset in the instance's aperture. -/
def apertureAccess (s : State) (i src : Nat) (o : Origin) (t : Tlp) : State :=
  match instOf s i with
  | none => if tlpKind t = 0 then s else answer s src o t 0 1 false []
  | some f =>
    if f.flr.isSome || f.ending || vsState s f.vs ≠ 2 || (partOf s f.vs).resetSince.isSome then
      if tlpKind t = 0 then count s (ctrWin f.vs 7) 1 else answer s src o t 0 1 false []
    else
      let s := filterItem s 4 (tlpItem t (some o.cls) (some (o.mid, o.vs, o.rid)))
      if t.ep then poisonedAccess s i src o t
      else
        match importFor s i t.addr with
        | none => refuseAccess s i src o t none 1
        | some (n, x) =>
          if !importPermits x t then refuseAccess s i src o t (some (n, x)) 2
          else if x.device && t.kind = .memRead && 64 < t.len then refuseAccess s i src o t (some (n, x)) 3
          else if (connOf s x.cid).st ≠ .active then
            if t.kind = .memWrite then presentStore s n x i src o t else presentLoad s x i src o t
          else
            match t.kind with
            | .memWrite => presentStore s n x i src o t
            | .memRead =>
              let off := x.winBase + (t.addr - x.base)
              let ps := postingsOf s x.cid x.window
              let c := coverage ps off t.len
              if x.device || !x.fwd || c = 0 then presentLoad s x i src o t
              else if c = 2 && !acqPending s x.cid then
                let s := count s (ctrWin o.vs 2) 1
                answer s src o t 0 0 false ((List.range t.len).map fun k => (forwardByte ps (off + k)).getD 0)
              else
                let l : HeldLoad := { imp := n, offset := off, tlp := t, origin := o, inst := i, src := src }
                count { s with win := { s.win with heldLoads := s.win.heldLoads ++ [l] } } (ctrWin o.vs 3) 1
            | _ => presentLoad s x i src o t

/-- HELD_LOAD_SEND (R283): the oldest held load that no entry overlaps any more. -/
def heldLoadSend (s : State) : State :=
  match s.win.heldLoads.find? fun l =>
      match Tbl.find? s.win.imports l.imp with
      | some x => coverage (postingsOf s x.cid x.window) l.offset l.tlp.len = 0
      | none => true with
  | none => s
  | some l =>
    let s := { s with win := { s.win with heldLoads := s.win.heldLoads.erase l } }
    match Tbl.find? s.win.imports l.imp with
    | some x => presentLoad s x l.inst l.src l.origin l.tlp
    | none => refuseAccess s l.inst l.src l.origin l.tlp none 1

/-! ### Fences from a function (R314) -/

/-- Present a FENCE on a connection. -/
def presentFence (s : State) (c : Nat) (o : Origin) (t : Option Tlp) (ticket : Option Ticket) (inst : Nat) (ord : Nat) : State :=
  let s := count s (ctrWin (o.vs % 32) 5) 1
  present s { cid := c, typ := 5, ord := ord, acq := true, rel := true,
              head := reqWord { rid := o.rid, vs := o.vs, kind := o.kind, tag := 0, len := 0, lastBe := 0, firstBe := 0, atom := 0, ns := false,
                                window := 0, offset := 0 }
              origin := o, tlp := t, ticket := ticket, inst := some inst }

/-- A read of FENCE[i]: a fence on the bound connection, or 0 from an unbound slot. -/
def fenceSlotRead (s : State) (i slot src : Nat) (o : Origin) (t : Tlp) : State :=
  match instOf s i with
  | none => answer s src o t 0 1 false []
  | some x =>
    match Tbl.find? x.fences slot with
    | some c => presentFence s c o (some t) none i 0
    | none => answer s src o t 0 0 false (leBytes 4 0)

end Sys2Proof.Machine
end

