-- ==== Sys2Proof/Machine/Depart.lean ====
section
/-!
DEFINITION. A TLP as it leaves a warp port (R120, R121, R141, R154, R160, R284): its proxy ID, its completion reservation, the
stream it is encrypted on, the overlay of a multicast copy, and what the host's memory takes of it.
-/

namespace Sys2Proof.Machine

/-- The write that an item carries has left and awaits the acknowledgement of the link (R284); an inbound cycle that waits
for one becomes its waiter (R390). -/
def markLeft (s : State) (p : Nat) (i : LoomItem) (t : Tlp) : State :=
  if s.win.unseen.any fun u => u.item = i.id then
    { s with win := { s.win with unseen := s.win.unseen.map fun u => if u.item = i.id then { u with left := true } else u } }
  else if i.kind = 0 && i.origin.ret = .dobby then
    { s with win := { s.win with unseen := s.win.unseen ++
      [{ item := i.id, window := none, cid := 16384, seq := 0, dest := p, epoch := i.epoch, left := true, waiter := some (i.origin, t) }] } }
  else s

/-- A write that leaves by a partition's own upstream port is in the memory of its host. -/
def inHost (s : State) (p : Nat) (t : Tlp) : State :=
  match portPart s p with
  | some v =>
    if t.kind = .memWrite && upPort s v = some p then
      (List.range t.data.length).foldl (fun s k =>
        if enabledAt t.addr t.data.length t.firstBe t.lastBe (t.addr + k) then hostWrite s v (t.addr + k) [(t.data[k]?).getD 0] else s) s
    else s
  | none => s

/-- The address overlay of a multicast copy at its egress (R160): MC_Overlay_BAR of the port's function. -/
def overlaid (s : State) (p : Nat) (i : LoomItem) (t : Tlp) : Tlp :=
  match portPart s p with
  | some v =>
    let fn := portFn s p
    let w := cfgReg s v fn 0x9A + cfgReg s v fn 0x9B * 2 ^ 32
    let n := w % 64
    if i.mcast && 6 ≤ n then { t with addr := w / 2 ^ n * 2 ^ n + t.addr % 2 ^ n } else t
  | none => t

/-- The stream that terminates at a port for TLPs from outside their partition (R141). DESIGN CHOICE (log entry 115): the first that
was programmed, where a port terminates several. -/
def egressStream (s : State) (p : Nat) : Option Nat := (s.warp.ideSel.find? fun r => r.1 = p).map Prod.snd

/-- A request from outside is encrypted on the stream that terminates at its egress. -/
def reEncrypted (s : State) (p : Nat) (i : LoomItem) (t : Tlp) : Tlp :=
  if i.origin.outside && i.kind ≠ 2 then { t with ide := egressStream s p } else t

/-- Counters of a TLP that leaves. -/
def countLeaves (s : State) (p : Nat) (t : Tlp) : State :=
  let s := count (count s (ctrPort p 1) 1) (ctrPort p 3) (ceilDiv (tlpBytes t) 64)
  match portPart s p with
  | some v => count s (ctrPart v 1) 1
  | none => s

/-- A non-posted request goes out with its completion reservation taken; a proxy entry counts it. -/
def noteRequest (s : State) (p : Nat) (i : LoomItem) (t : Tlp) (proxy : Option Nat) : State :=
  if i.kind ≠ 1 then s
  else
    let n := reservation t
    let x := warpPort s p
    let s := setWarp s p { x with
      reqs := x.reqs ++ [{ rid := t.rid, tag := t.tag, t := t, origin := i.origin, reservation := n, since := s.now }]
      proxies := match proxy with
        | some e => x.proxies.map fun r => if r.1 = e then (r.1, { r.2 with outstanding := r.2.outstanding + 1 }) else r
        | none => x.proxies }
    poolChanged { s with loom := { s.loom with compHeld := s.loom.compHeld + n } }

/-- No proxy entry is free for a TLP from outside (R121). -/
def proxyRefused (s : State) (i : LoomItem) (t : Tlp) : State :=
  if i.kind = 1 then answer (requestGone s i) i.src i.origin t 0 1 false [] else itemLost s i

/-- A TLP leaves a warp port. -/
def leaveWarp (s : State) (p : Nat) (i : LoomItem) (t : Tlp) : State :=
  let v := (portPart s p).getD 0
  let proxied := i.origin.outside && i.kind ≠ 2
  let q := if proxied then proxyFor s p v i.origin else (s, none)
  if proxied && q.2.isNone then releaseItem (proxyRefused q.1 i t) i
  else
    let t := match q.2 with
      | some e => { t with rid := proxyId q.1 v e }
      | none => t
    let s := noteRequest q.1 p i t q.2
    let s := inHost (markLeft s p i t) p t
    releaseItem (emit (countLeaves s p t) (.tlp p (overlaid s p i (reEncrypted s p i t)))) i

end Sys2Proof.Machine
end

