-- ==== Sys2Proof/Machine/Admin.lean ====
section
/-!
DEFINITION. Admin completions (R303, R305, R306), and what an open, reset or close of a connection tells its owner.
-/

namespace Sys2Proof.Machine

def admOf (s : State) (v : Nat) : AdmBlk := vget s.eng.adm v {}
def setAdm (s : State) (v : Nat) (x : AdmBlk) : State := { s with eng := { s.eng with adm := vset s.eng.adm v x } }

/-- The 16 bytes of an admin completion. -/
def admBytes (result id status detail head : Nat) (phase : Bool) : List Byte :=
  leBytes 8 result ++ leBytes 2 id ++ leBytes 1 status ++ leBytes 1 detail ++ leBytes 2 head ++ leBytes 1 0 ++ leBytes 1 (b2n phase)

/-- Write a command's completion and signal vector 0 (R297, R303). A queue that is off takes none. -/
def admFinish (s : State) (c : AdmCmd) (status detail result : Nat) : State :=
  let x := admOf s c.vs
  if !x.enabled then s
  else
    let n := 2 ^ bits x.size 8 4
    let s := hostPost s c.vs (x.cqBase + 16 * x.cqTail) (admBytes result c.id status detail (c.head % 65536) x.phase)
    let t := (x.cqTail + 1) % n
    msi (setAdm s c.vs { x with cqTail := t, phase := if t = 0 then !x.phase else x.phase }) c.vs 0 0

/-- Complete the waiting commands that meet a test. -/
def finishWaits (s : State) (f : OpenCmd → Bool) (status detail : Nat) (result : OpenCmd → Nat) : State :=
  let done := s.eng.waits.filter f
  let s := { s with eng := { s.eng with waits := s.eng.waits.filter fun w => !f w } }
  done.foldl (fun s w => admFinish s w.cmd status detail (result w)) s

/-- DOB_CONN_RESULT (R393). -/
def dobConnDone (s : State) (c status : Nat) : State :=
  if s.dob.connWait = some c then
    { s with dob := { s.dob with connWait := none, connResult := at_ 31 1 + at_ 16 (status % 256) + c % 16384 } }
  else s

/-- A connection has been opened: its owner learns the CID. -/
def openSettled (s : State) (c : Nat) : State :=
  dobConnDone (finishWaits s (fun w => w.cmd.op = 0x10 && w.obj = c) 0 0 fun _ => c) c 0

/-- An open has been refused, or nothing has answered it (0xFF). -/
def openFailed (s : State) (c status : Nat) : State :=
  dobConnDone (finishWaits s (fun w => w.cmd.op = 0x10 && w.obj = c) 1 status fun _ => 0) c status

/-- A reset has ended, at ACTIVE or FAILED. -/
def resetSettled (s : State) (c status : Nat) : State :=
  dobConnDone (finishWaits s (fun w => w.cmd.op = 0x12 && w.obj = c) 0 0 fun _ => 0) c status

/-- A close has ended, at IDLE. -/
def closeSettled (s : State) (c : Nat) : State :=
  dobConnDone (finishWaits s (fun w => w.cmd.op = 0x14 && w.obj = c) 0 0 fun _ => 0) c 0

/-- WINDOW_REVOKE_COMPLETE (R269): no admitted access remains. -/
def windowRevokeComplete (w : Nat) (s : State) : State :=
  let x := winOf s w
  if x.st = .revoking ∧ x.admitted = 0 then
    finishWaits (endRevoke s w) (fun c => c.cmd.op = 0x02 && c.obj = w) 0 0 fun _ => (s.now - x.revokeAt) / us
  else s

def execWindowRevokeComplete (w : Fin 65536) (s : State) : Host.Outcome State Fault Refusal := .next (windowRevokeComplete w s)

end Sys2Proof.Machine
end

