-- ==== Sys2Proof/Machine/Shuttle.lean ====
section
/-!
DEFINITION. The shuttle's records (chapter 8): operations in plaintext, ledger entries and their release, mirror records of a
twin-protected connection, the failure of a direction, exchanges, and the changes of a connection's state.
-/

namespace Sys2Proof.Machine

/-! ### Operations in plaintext -/

/-- Slots of an operation: envelope, body and tag in 64-byte units. -/
def opSlots (op : NewOp) : Nat := ceilDiv (32 + (opBody op).length) 64

def setEntry (s : State) (l : Nat) (e : LedgerEntry) : State := { s with shu := { s.shu with ledger := Tbl.set s.shu.ledger l e } }

/-- The fixed part of a request header of the module itself: SRC_KIND 3, no window (R363). -/
def mirrorRequest (n : Nat) : Nat :=
  reqWord { rid := 0, vs := 0, kind := 3, tag := 0, len := n, lastBe := 15, firstBe := 15, atom := 0, ns := false, window := 0, offset := 0 }

/-! ### Mirror records (R364) -/

/-- The pair is joined: mirrors are sent and awaited (R369). -/
def twinJoined (s : State) : Bool := s.twin.st = .joining || s.twin.st = .protected_

/-- A context whose entries are mirrored. -/
def mirrors (s : State) (c : Nat) : Bool := twinJoined s && (connOf s c).twin && c < 16384 && c ≠ cfgv s 0x5205 0

/-- The header of a mirror record. -/
def mirrorHead (kind len cid seq n ev : Nat) : Nat :=
  at_ 124 kind + at_ 111 (len % 8192) + at_ 97 (cid % 16384) + at_ 65 (seq % 2 ^ 32) + at_ 55 (n % 1024) + at_ 51 ev

/-- Present a record as WRITE operations of the twin connection; the last of them confirms the entry it mirrors (R365). -/
def presentRecord (s : State) (kind cid seq n ev : Nat) (data : List Byte) (mirror : Option (Nat × Nat)) (catchUp : Bool) : State :=
  let bs := leBytes 16 (mirrorHead kind data.length cid seq n ev) ++ data
  let mk := fun (q : Nat × Nat) =>
    let d := (bs.drop q.1).take q.2
    { cid := cfgv s 0x5205 0, typ := 0, ord := cid % 2, head := mirrorRequest d.length, data := d, mirror := if q.1 + q.2 = bs.length then mirror else none,
      catchUp := catchUp : NewOp }
  let ops := (pieces (bs.length + 1) 0 bs.length).map mk
  let s := { s with shu := { s.shu with waiting := s.shu.waiting ++ ops }
                    twin := { s.twin with rateBytes := s.twin.rateBytes + bs.length + 32 * ops.length } }
  if kind ≤ 3 then count s (ctrTwin (kind - 1)) 1 else s

/-- The ENTRY record of a ledger entry. -/
def mirrorEntry (s : State) (l : Nat) (catchUp : Bool) : State :=
  match Tbl.find? s.shu.ledger l with
  | some e =>
    let o := entryOp s e
    presentRecord s 1 e.cid e.seq 0 0 (leBytes 16 o.env.toNat ++ o.body) (some (e.cid, e.seq)) catchUp
  | none => s

/-- The CONN record of a protected connection: 1 open, 2 modify, 3 rekey or reset, 4 close. -/
def mirrorConn (s : State) (c ev : Nat) (catchUp : Bool) : State :=
  if mirrors s c then
    let x := connOf s c
    presentRecord s 3 c 0 0 ev (contextBytes s c ++ leBytes 8 x.nonceI ++ leBytes 8 x.nonceR) none catchUp
  else s

/-! ### Releases and failures (R250, R253) -/

/-- Release a ledger entry: its posting-buffer entry and its chain go with it, and the twin is to be told (R280, R364). -/
def releaseEntry (s : State) (l : Nat) : State :=
  match Tbl.find? s.shu.ledger l with
  | none => s
  | some e =>
    let s := { s with shu := { s.shu with ledger := Tbl.erase s.shu.ledger l } }
    let s := match e.posting with
      | some p => { s with win := { s.win with posting := Tbl.erase s.win.posting p } }
      | none => s
    let s := ledgerRelease s l e.chain
    let s := if mirrors s e.cid then { s with twin := { s.twin with releases := s.twin.releases ++ [(e.cid, e.seq)] } } else s
    let x := connOf s e.cid
    setConn s e.cid { x with consecTo := 0 }

/-- The request of `seq` is no longer awaited. -/
def dropAsked (s : State) (c seq : Nat) : State :=
  let x := connOf s c
  setConn s c { x with asked := x.asked.filter fun a => a.seq ≠ seq }

/-- Fail one entry: it is released and its owner is told. -/
def failEntry (s : State) (l reason status : Nat) : State :=
  match Tbl.find? s.shu.ledger l with
  | none => s
  | some e =>
    let s := dropAsked (releaseEntry s l) e.cid e.seq
    let x := connOf s e.cid
    failOp (setConn s e.cid { x with failed := x.failed + 1 }) e.cid e.seq reason e.op status

/-- `seq` and every later operation of the direction fail, oldest first (R253). -/
def failFrom (s : State) (c seq : Nat) : State :=
  let n := (connOf s c).txNext
  ((ledgerOf s c).filter fun r => seqDiff n r.2.seq ≤ seqDiff n seq).foldl (fun s r => failEntry s r.1 16 2) s

/-- Every operation still in the ledger fails. -/
def failAll (s : State) (c : Nat) : State := (ledgerOf s c).foldl (fun s r => failEntry s r.1 16 2) s

/-- A request whose completion will not come receives Completer Abort. -/
def abortAsked (s : State) (c : Nat) : State :=
  let x := connOf s c
  let s := setConn s c { x with asked := [] }
  x.asked.foldl (fun s a =>
    match a.ticket with
    | some t => descCond (descDone s t 0) t 2 16
    | none =>
      match a.tlp with
      | some t => answer s 128 a.origin t 0 2 false []
      | none => s) s

/-- The connection leaves ACTIVE: its completion-cache entries are freed (R275). -/
def leaveActive (s : State) (c : Nat) : State :=
  let x := connOf s c
  let keep := fun (w : Window) => { w with cache := w.cache.filter fun e => !(e.mid = x.peerMid && e.cid = x.peerCid) }
  { s with win := { s.win with windows := s.win.windows.map fun r => (r.1, keep r.2) } }

/-! ### The roster (R241) -/

def rosterAdd (s : State) (c : Nat) : State :=
  let x := connOf s c
  if c < 16384 then { s with shu := { s.shu with roster := Tbl.set s.shu.roster c (x.peerMid, x.peerCid, x.ownerKind, x.ownerId) } } else s

def rosterDrop (s : State) (c : Nat) : State := { s with shu := { s.shu with roster := Tbl.erase s.shu.roster c } }

/-! ### To IDLE and to FAILED (R237, R240) -/

/-- The context is free again: 0 orderly, 1 drain time exceeded, 2 from FAILED. -/
def goIdle (s : State) (c cause : Nat) : State :=
  let s := abortAsked (failAll s c) c
  let s := mirrorConn s c 4 false
  let s := connEvent s c 0x0601 (at_ 24 cause)
  let s := if 16384 ≤ c then { s with twin := { s.twin with contextsClosed := s.twin.contextsClosed + 1 } } else s
  let s := rosterDrop s c
  closeSettled { s with shu := { s.shu with conns := Tbl.erase s.shu.conns c } } c

/-- The states in which a connection carries operations. -/
def Conn.live (x : Conn) : Bool := x.st = .active || x.st = .stalled || x.st = .closing

/-- A failing condition: 1 unknown, 2 peer reopened, 3 peer left, 4 exchange unanswered or refused (R240, R266). -/
def toFailed (s : State) (c cause : Nat) : State :=
  let x := connOf s c
  if !x.live then s
  else
    let s := if x.st = .active then leaveActive s c else s
    let s := connEvent s c 0x0604 (at_ 24 cause)
    let s := setConn s c { connOf s c with st := .failed, failReason := cause, exch := none, held := [], tunnel := [], unacked := [] }
    let s := resetSettled (abortAsked (failAll s c) c) c 1
    if x.ownerKind = 2 || x.ownerCloses then goIdle s c 2 else s

/-- CLOSING ends when the ledger is empty and the exchange complete (R237). -/
def closeCheck (s : State) (c : Nat) : State :=
  let x := connOf s c
  if x.st = .closing && x.exch.isNone && (x.ownerCloses || x.closeAnswered) && (ledgerOf s c).isEmpty then goIdle s c 0 else s

/-- To STALLED (R253): the retries of `seq` have run out, or its chain is unreadable. The reason that an entry into STALLED
leaves in FAIL_REASON is a free value: the events table gives it none. -/
def toStalled (s : State) (c seq cause : Nat) : State :=
  let x := connOf s c
  let s := selContained s 128 cause 4 (connRing s c) 0
  if x.st = .active then
    let s := leaveActive s c
    let s := setConn s c { connOf s c with st := .stalled, failSeq := seq, stalledAt := s.now, failReason := freeValue s % 256, exch := none }
    connError (failFrom (afterFree s) c seq) c 0x0603 (at_ 32 seq)
  else closeCheck (failFrom (setConn s c { x with failSeq := seq }) c seq) c

/-! ### Exchanges (R236, R238, R261) -/

/-- A control operation of a context, sealed under its newest control key with the next CTL_COUNT. -/
def controlOp (s : State) (c cid typ word seq srcPort dstPort : Nat) : State × Option WireOp :=
  let x := connOf s c
  match x.keys with
  | none => (s, none)
  | some k =>
    let n := x.ctlTx + 1
    let env := { typ := typ, tc := x.tc, seq := seq, cid := cid, src := connMid s c * 128 + srcPort,
                 dst := x.peerMid * 128 + dstPort, stamp := stampNow s : EnvFields }.word
    (setConn s c { x with ctlTx := n }, some (sealCtl k.ctlTx n env (leBytes 32 (word + at_ 192 (n % 2 ^ 64)))))

/-- Send the request of a RESET, REKEY or CLOSE. -/
def sendRequest (s : State) (c : Nat) (e : Exchange) : State :=
  sendControl s c (c % 16384) 10 (at_ 184 e.kind + at_ 160 e.epoch + at_ 96 e.nonce + at_ 64 e.firstSeq) 0 0 0

/-- Start a CLOSE (2), RESET (3) or REKEY (4). DESIGN CHOICE (log entry 130): with the entropy source unhealthy an own RESET or
REKEY does not begin; R494 says only that the exchange is refused. -/
def startRequest (s : State) (c kind : Nat) (auto : Bool) : State :=
  let x := connOf s c
  if x.exch.isSome && kind ≠ 2 then s
  else if kind = 2 then
    let e : Exchange := { kind := 2, epoch := x.keyEpoch, since := s.now, sentAt := s.now }
    sendRequest (setConn s c { x with exch := some e }) c e
  else if !s.vault.entropyOk then s
  else
    let e : Exchange := { kind := kind, epoch := (x.keyEpoch + 1) % 65536, nonce := (drawn s).toNat % 2 ^ 64, firstSeq := x.txNext, since := s.now,
                          sentAt := s.now, auto := auto }
    sendRequest (setConn (afterDraw s) c { x with exch := some e }) c e

/-- Open a connection from context `c` (R237, R257, R258): OPENING, or refused with STATUS 2 for want of a
secret. DESIGN CHOICE (log entry 130): with the entropy source unhealthy it is refused at once, as unanswered. -/
def openConn (s : State) (c mid tc : Nat) (twin auto : Bool) (retry kind owner : Nat) : State :=
  match secretFor s mid, s.vault.entropyOk with
  | none, _ => openFailed (event s 0x060D 0 (c % 16384 + at_ 14 (mid % 1024))) c 2
  | some _, false => openFailed s c 0xFF
  | some k, true =>
    let n := (drawn s).toNat % 2 ^ 64
    let t := s.ft % 2 ^ 48
    let env := { typ := 10, tc := tc, seq := 0, cid := c, src := ownMid s * 128, dst := mid * 128, stamp := stampNow s : EnvFields }.word
    let o := sealCtl (openKey k (ownMid s) mid) n env (leBytes 32 (at_ 184 1 + at_ 96 n + at_ 61 tc + at_ 60 (b2n twin) + t))
    let e : Exchange := { kind := 1, nonce := n, openTime := t, since := s.now, sentAt := s.now, sentOp := some o }
    let x : Conn := { st := .opening, peerMid := mid, tc := tc, twin := twin, autoResume := auto, retryLimit := retry, ownerKind := kind,
                      ownerId := owner, opener := true, exch := some e, cwnd := cfgv s 0x4202 1 }
    launch (setConn (afterDraw s) c x) c o

/-- The owner closes a connection (R237). -/
def ownerClose (s : State) (c : Nat) : State :=
  let x := connOf s c
  match x.st with
  | .active =>
    startRequest (setConn (leaveActive s c) c { x with st := .closing, exch := none, closingAt := some s.now, ownerCloses := true }) c 2 false
  | .stalled => startRequest (setConn s c { x with st := .closing, exch := none, closingAt := some s.now, ownerCloses := true }) c 2 false
  | .failed => goIdle s c 2
  | _ => s

/-- Put a new epoch in force (R261): the keys, the first sequence numbers under them, and the control counts from the start. -/
def installKeys (s : State) (c nonceI nonceR epoch : Nat) (k : KeySet) (firstTx firstRx : Nat) : State :=
  let x := connOf s c
  setConn s c { x with oldKeys := x.keys, keys := some k, keyEpoch := epoch, nonceI := nonceI, nonceR := nonceR, firstTx := firstTx,
                       firstRx := firstRx, epochSeq := x.txNext, ctlTx := 0, ctlBase := 0, oldHigh := x.ctlHigh, oldSeen := x.ctlSeen,
                       ctlHigh := 0, ctlSeen := [] }

/-- The old keys go once neither direction holds an operation before its FIRST_SEQ: event 0x0609 (R261). -/
def oldKeyCheck (s : State) (c : Nat) : State :=
  let x := connOf s c
  if x.oldKeys.isSome && !((ledgerOf s c).any fun r => seqBefore r.2.seq x.firstTx) && !seqBefore x.rxE x.firstRx then
    connEvent (setConn s c { x with oldKeys := none, oldSeen := [] }) c 0x0609 (at_ 32 x.keyEpoch)
  else s

/-- The effect of a RESET on the receive direction and the state (R239). -/
def afterReset (s : State) (c rxFirst cause : Nat) : State :=
  let x := connOf s c
  let s := setConn s c { x with rxE := rxFirst, window := [], held := [], refusals := [], unacked := [], ceCount := 0, cwnd := cfgv s 0x4202 1,
                                tunnel := [], st := if x.st = .stalled then .active else x.st }
  resetSettled (if x.st = .stalled then connEvent s c 0x0605 (at_ 24 cause) else s) c 0

/-- A rekey is due: 2^30 sequence numbers or control counts since the epoch began (R261). -/
def rekeyDue (x : Conn) : Bool := 2 ^ 30 ≤ seqDiff x.txNext x.epochSeq || 2 ^ 30 ≤ x.ctlTx - x.ctlBase

/-- REKEY_TRIGGER (R261). -/
def rekeyTrigger (s : State) (c : Nat) : State :=
  let x := connOf s c
  if x.st = .active && x.exch.isNone && rekeyDue x then startRequest s c 4 false else s

end Sys2Proof.Machine
end

