-- ==== Sys2Proof/Machine/Accept.lean ====
section
/-!
DEFINITION. The sending side of the shuttle: acceptance and merging (R243, R280 to R282), the first send under its limits
(R245, R285, R313, R316), and retransmission (R251 to R253).
-/

namespace Sys2Proof.Machine

/-! ### Merging (R282) -/

/-- The youngest posting-buffer entry of a connection. -/
def youngestPosting (s : State) (c : Nat) : Option (Nat × Posting) :=
  let n := (connOf s c).txNext
  (s.win.posting.filter fun r => r.2.cid = c).foldl (fun b r => match b with
    | some (q : Nat × Posting) => if seqDiff n r.2.seq < seqDiff n q.2.seq then some r else some q
    | none => some r) none

/-- The byte enables of the doubleword at `dw`. -/
def beOf (en : Nat → Bool) (dw : Nat) : Nat := ((List.range 4).map fun i => at_ i (b2n (en (dw + i)))).sum

/-- The bytes enabled in an entry with a store appended. -/
def mergedEnable (e : Posting) (h : ReqHead) (b : Nat) : Bool :=
  postHas e b || enabledAt h.offset h.len h.firstBe h.lastBe b

/-- Every byte that lies between the two, in the entry's last doubleword and the store's first, is enabled. -/
def mergeJoins (e : Posting) (h : ReqHead) : Bool :=
  let en := mergedEnable e h
  let lo := (h.offset - 1) / 4 * 4
  let hi := h.offset / 4 * 4 + 4
  let before := fun b => (List.range (b - e.offset)).any fun i => en (e.offset + i)
  let after := fun b => (List.range (h.offset + h.len - b)).any fun i => en (b + i)
  (List.range (hi - lo)).all fun i =>
    let b := lo + i
    b < e.offset || h.offset + h.len ≤ b || en b || !before b || !after b

/-- The entry a store merges into. -/
def mergeTarget (s : State) (op : NewOp) : Option (Nat × Posting) :=
  match op.post, youngestPosting s op.cid with
  | some n, some (p, e) =>
    let h := reqHead op.head
    let i := Tbl.get s.win.imports n {}
    if !e.sent && e.imp = n && !i.device && i.merge && !e.rel && !op.rel && h.offset = e.offset + e.data.length &&
        e.data.length + op.data.length ≤ cfgv s 0x4302 3 && mergeJoins e h then some (p, e) else none
  | _, _ => none

/-- STORE_MERGE (R282): the store is accepted by being appended; a mirrored entry is mirrored again. -/
def mergeStore (s : State) (op : NewOp) (p : Nat) (e : Posting) : State :=
  let h := reqHead op.head
  let data := e.data ++ op.data
  let en := mergedEnable e h
  let lo := e.offset / 4 * 4
  let hi := (h.offset + h.len - 1) / 4 * 4
  let fb := beOf en lo
  let lb := if lo = hi then 0 else beOf en hi
  let s := match op.chain with
    | some k => freeChain s k
    | none => s
  let s := { s with win := { s.win with posting := Tbl.set s.win.posting p { e with data := data, firstBe := fb, lastBe := lb } } }
  let s := count (count s (ctrWin (h.vs) 0) 1) (ctrWin h.vs 1) 1
  let s := count s (ctrWin h.vs 14) (ceilDiv op.data.length 64)
  match Tbl.find? s.shu.ledger e.ledger with
  | none => s
  | some le =>
    let g := reqHead le.op.head
    let op' : NewOp := { le.op with head := reqWord { g with len := data.length, firstBe := fb, lastBe := lb }, data := data }
    let s := setEntry s e.ledger { le with op := op', slots := opSlots op', mirrored := false }
    let s := match chainOf s le.chain with
      | some k => poolChanged (setChain s le.chain { k with size := cells (32 + (opBody op').length) })
      | none => s
    if mirrors s op.cid then mirrorEntry s e.ledger false else s

/-! ### Acceptance (R243, R280) -/

/-- The filter's view of an operation at the shuttle. -/
def shuttleItem (mid typ head tc : Nat) (cls : Option Nat) (n : Nat) : FilterItem :=
  let h := reqHead head
  let plain := typ ≤ 3 || typ = 5
  { cls := if plain then cls else none, tc := tc,
    typ := (match typ with | 0 => 0 | 1 => 1 | 2 => 2 | 3 => 3 | 4 => 4 | 5 => 6 | 6 => 0 | _ => 7),
    master := if plain then some (mid, h.vs, h.rid) else none, addr := none, bytes := n }

/-- The lowest REQ_TAG no request of the direction uses. -/
def freeTag (x : Conn) : Nat := ((List.range 4096).find? fun t => !(x.asked.any fun a => a.tag = t)).getD 0

/-- The completion-cache entry of a request notes the sequence number of the COMPLETION that carries it (R275). -/
def noteCompletion (s : State) (c head seq : Nat) : State :=
  let x := connOf s c
  let f := fun (e : CacheEntry) =>
    if e.mid = x.peerMid && e.cid = x.peerCid && e.seq = bits head 96 32 then { e with compSeq := some seq } else e
  { s with win := { s.win with windows := s.win.windows.map fun r => (r.1, { r.2 with cache := r.2.cache.map f }) } }

/-- Take ledger entry `l`, and posting-buffer entry `p`, for an operation, and assign TX_NEXT (R243). -/
def assign (s : State) (op : NewOp) (l : Nat) (p : Option Nat) : State :=
  let x := connOf s op.cid
  let seq := x.txNext
  let asks := op.typ = 1 || op.typ = 2 || op.typ = 3
  let tag := freeTag x
  let op := if asks then { op with head := op.head + at_ 93 tag } else op
  let h := reqHead op.head
  let q := match op.chain with
    | some k => (s, k)
    | none => storeChain s op.src (cells (32 + (opBody op).length)) false none
  let s := q.1
  let s := match chainOf s q.2 with
    | some k => setChain s q.2 { k with ledger := some l }
    | none => s
  let e : LedgerEntry := { cid := op.cid, seq := seq, typ := op.typ, slots := opSlots op, chain := q.2, stamp := stampNow s, op := op, posting := p }
  let s := setEntry s l e
  let s := { s with shu := { s.shu with peak := max s.shu.peak s.shu.ledger.length } }
  let a : Asked := { seq := seq, tag := tag, origin := op.origin, tlp := op.tlp, ticket := op.ticket, acq := op.acq && op.typ ≠ 3,
                     len := if op.typ = 3 then 0 else h.len, off := op.off }
  let s := setConn s op.cid { x with txNext := (seq + 1) % 2 ^ 32, asked := if asks then x.asked ++ [a] else x.asked }
  let s := match p, op.post with
    | some k, some n =>
      let i := Tbl.get s.win.imports n {}
      let b : Posting := { ledger := l, cid := op.cid, seq := seq, window := h.window, offset := h.offset, data := op.data, firstBe := h.firstBe,
                           lastBe := h.lastBe, imp := n, device := i.device, rel := op.rel }
      let t := Tbl.set s.win.posting k b
      count { s with win := { s.win with posting := t, postPeak := max s.win.postPeak t.length } } (ctrWin h.vs 0) 1
    | _, _ => s
  let s := if (op.typ = 0 || op.typ = 3) && h.kind ≠ 1 && h.kind ≠ 3 then count s (ctrWin h.vs 14) (ceilDiv op.data.length 64) else s
  let s := if op.typ = 4 then noteCompletion s op.cid op.head seq else s
  let s := filterItem s 3 (shuttleItem (ownMid s) op.typ op.head x.tc (some op.origin.cls) op.data.length)
  let s := if mirrors s op.cid then mirrorEntry s l false else s
  rekeyTrigger s op.cid

/-- Outside the joined states a protected operation waits under TWIN_UNPROT_MODE 0 (R369). -/
def twinHolds (s : State) (c : Nat) : Bool :=
  (connOf s c).twin && c < 16384 && c ≠ cfgv s 0x5205 0 && !twinJoined s && cfgv s 0x5207 0 = 0

/-- An operation may be taken up: its connection refuses it, or has room for it (R245). -/
def takeable (s : State) (op : NewOp) : Bool :=
  let x := connOf s op.cid
  x.st ≠ .active || (seqDiff x.txNext (txOldest s op.cid) < 768 && !twinHolds s op.cid)

/-- The oldest waiting operation that has none of its connection before it and meets a test. -/
def nextWaiting (f : NewOp → Bool) : List NewOp → List Nat → Option NewOp
  | [], _ => none
  | op :: t, seen =>
    if seen.contains op.cid then nextWaiting f t seen
    else if f op then some op
    else nextWaiting f t (op.cid :: seen)

def unwait (s : State) (op : NewOp) : State := { s with shu := { s.shu with waiting := s.shu.waiting.erase op } }

/-- The posting-buffer entry a store would take: none needed, one free, or what it waits for. -/
inductive PostPlace where
  | none
  | free (p : Nat)
  | full
  | limit
  deriving DecidableEq, Repr

def postPlace (s : State) (op : NewOp) : PostPlace :=
  if op.post.isNone then .none
  else if cfgv s 0x4302 2 ≤ (s.win.posting.filter fun r => r.2.cid = op.cid).length then .limit
  else
    match Tbl.firstFree s.win.posting 2048 with
    | some p => .free p
    | none => .full

def PostPlace.entry : PostPlace → Option Nat
  | .free p => some p
  | _ => Option.none

/-- The operation waits for a ledger or a posting-buffer entry, and the event says so once (R243, R280). -/
def deferOp (s : State) (op : NewOp) : State :=
  let s := { s with shu := { s.shu with waiting := s.shu.waiting.map fun q => if q = op then { q with told := true } else q } }
  let x := connOf s op.cid
  if 65536 ≤ s.shu.ledger.length then
    event s 0x060A 0 (op.cid % 16384 + at_ 14 (x.peerMid % 1024) + at_ 32 ((s.shu.waiting.filter fun q => q.told).length % 2 ^ 32))
  else
    match postPlace s op with
    | .full => event s 0x0708 0 (at_ 32 ((s.shu.waiting.filter fun q => q.told && q.post.isSome).length % 2 ^ 32))
    | _ => s

/-- Take up one operation: refused by the state of its connection (R239), merged, accepted, or deferred. -/
def takeUp (s : State) (op : NewOp) : State :=
  if (connOf s op.cid).st ≠ .active then refusePresented (unwait s op) op
  else
    match mergeTarget s op with
    | some (p, e) => mergeStore (unwait s op) op p e
    | none =>
      match Tbl.firstFree s.shu.ledger 65536, postPlace s op with
      | some l, .none => assign (unwait s op) op l none
      | some l, .free p => assign (unwait s op) op l (some p)
      | _, _ => deferOp s op

/-- OPERATION_ACCEPT (R243). -/
def operationAccept (s : State) : State :=
  match nextWaiting (fun op => !op.told && takeable s op) s.shu.waiting [] with
  | some op => takeUp s op
  | none => s

/-- What a deferred operation waits for is free. -/
def resourceFree (s : State) (op : NewOp) : Bool :=
  (connOf s op.cid).st ≠ .active || (mergeTarget s op).isSome ||
    (s.shu.ledger.length < 65536 && (match postPlace s op with
      | .none => true
      | .free _ => true
      | _ => false))

/-- DEFERRED_ACCEPT (R243, R280). -/
def deferredAccept (s : State) : State :=
  match nextWaiting (fun op => op.told && takeable s op && resourceFree s op) s.shu.waiting [] with
  | some op => takeUp s op
  | none => s

/-! ### Transmission (R245, R251, R259, R316) -/

/-- The data key of a sent sequence number (R261). -/
def sendKey (x : Conn) (seq : Nat) : Option KeySet := if x.oldKeys.isSome && seqBefore seq x.firstTx then x.oldKeys else x.keys

/-- Encrypt an own operation for its wire. -/
def sealOwn (s : State) (c : Nat) (o : WireOp) : Option WireOp :=
  match sendKey (connOf s c) (envSeq o) with
  | some k => some (sealData k.dataTx o)
  | none => none

/-- Queue a ledger entry for transmission, with a new stamp and its timer set (R159, R251). -/
def sendEntry (s : State) (l : Nat) (e : LedgerEntry) : State :=
  let e := { e with stamp := stampNow s, deadline := s.now + min (4 * us * 2 ^ e.timeouts) ms, sent := true }
  let s := setEntry s l e
  let o := entryOp s e
  let n := 32 + o.body.length
  if isOwnMid s (envDst o / 128) then
    match sealOwn s e.cid o with
    | some w => { s with shu := { s.shu with inbox := s.shu.inbox ++ [{ op := w }] } }
    | none => s
  else
    match egressOf s e.cid o with
    | none => noRoute s (envDst o / 128)
    | some d =>
      if e.place = 1 then enqueueCopy s d n l e.cid o else enqueueOper (addRef s e.chain) d e.op.src e.chain n o (some (l, e.cid))

/-- Bytes a token bucket of `rate` Gb/s holds now (R316). -/
def bucketNow (s : State) (rate have_ since : Nat) : Nat := min (max 65536 (rate * 1250)) (have_ + rate * (s.now - since) / 8)

/-- The bandwidth share of an instance, capped at its partition's `rp`; 0 is unlimited (R316, R317). -/
def instGbps (x : InstState) (rp : Nat) : Nat :=
  match Tbl.find? x.shares 5 with
  | none => rp
  | some r => if rp = 0 then r else if r = 0 then rp else min r rp

/-- The bytes in a bucket as its rate changes: what it holds under the old rate, cut to the new depth (R317). -/
def bucketCut (s : State) (old new have_ since : Nat) : Nat :=
  min (max 65536 (new * 1250)) (if old = 0 then max 65536 (new * 1250) else bucketNow s old have_ since)

/-- The instance's bucket passes from one rate to another. -/
def bucketChanged (s : State) (x : InstState) (old new : Nat) : InstState :=
  if old = new then x else { x with bucket := bucketCut s old new x.bucket x.bucketAt, bucketAt := s.now }

/-- Pay for the body of a WRITE from the bucket of its instance and of its partition (R313, R316); none when one is short. -/
def payBandwidth (s : State) (op : NewOp) : Option State :=
  match op.inst with
  | none => some s
  | some i =>
    match instOf s i with
    | none => some s
    | some x =>
      if op.typ ≠ 0 then some s
      else
        let n := 16 + op.data.length
        let rp := cfgv s 0x4406 (x.vs + 1)
        let ri := instGbps x rp
        let bi := bucketNow s ri x.bucket x.bucketAt
        let bp := bucketNow s rp (Tbl.get s.eng.buckets x.vs 65536) (Tbl.get s.eng.bucketAt x.vs 0)
        if (ri ≠ 0 && bi < n) || (rp ≠ 0 && bp < n) then none
        else
          let s := if ri = 0 then s else setInst s i { x with bucket := bi - n, bucketAt := s.now }
          some (if rp = 0 then s else { s with eng := { s.eng with buckets := Tbl.set s.eng.buckets x.vs (bp - n)
                                                                   bucketAt := Tbl.set s.eng.bucketAt x.vs s.now } })

/-- The oldest entry of a direction that has not been sent. -/
def firstUnsent (s : State) (c : Nat) : Option (Nat × LedgerEntry) := (ledgerOf s c).find? fun r => !r.2.sent

/-- The twin lets a protected entry go: confirmed while joined, and by TWIN_UNPROT_MODE otherwise (R243, R369). -/
def twinAllows (s : State) (e : LedgerEntry) : Bool :=
  !((connOf s e.cid).twin && e.cid < 16384 && e.cid ≠ cfgv s 0x5205 0) || (if twinJoined s then e.mirrored else cfgv s 0x5207 0 = 1)

/-- No ACQ request before the entry awaits its completion (R285). -/
def acquireAllows (x : Conn) (e : LedgerEntry) : Bool := !(x.asked.any fun a => a.acq && seqBefore a.seq e.seq)

/-- The entry waits for the key of an exchange under way, whose FIRST_SEQ it follows (R261). -/
def keyAllows (x : Conn) (e : LedgerEntry) : Bool :=
  match x.exch with
  | some q => !(q.kind = 3 || q.kind = 4) || seqBefore e.seq q.firstSeq
  | none => true

/-- The window admits the entry (R245). -/
def windowAllows (s : State) (c : Nat) (e : LedgerEntry) : Bool :=
  inflight s c = 0 || inflight s c + e.slots ≤ (connOf s c).cwnd

/-- OPERATION_FIRST_SEND (R245). -/
def operationFirstSend (c : Nat) (s : State) : State :=
  let x := connOf s c
  match firstUnsent s c with
  | none => s
  | some (l, e) =>
    if (x.st = .active || x.st = .closing) && twinAllows s e && acquireAllows x e && keyAllows x e && windowAllows s c e then
      match payBandwidth s e.op with
      | none => s
      | some s =>
        let s := count s (ctrShuttle x.tc 0) 1
        let s := if x.twin && c < 16384 && c ≠ cfgv s 0x5205 0 && !e.mirrored then
            count { s with twin := { s.twin with unmirrored := (s.twin.unmirrored + 1) % 2 ^ 32 } } (ctrTwin 4) 1
          else s
        let s := match e.posting with
          | some p => { s with win := { s.win with posting := Tbl.modify s.win.posting p fun b => { b with sent := true } } }
          | none => s
        sendEntry s l e
    else s

/-! ### Adopted directions (R372) -/

/-- An adopted direction that holds no entry is closed: event 0x0D05. -/
def adoptedCheck (s : State) (c : Nat) : State :=
  let x := connOf s c
  if 16384 ≤ c && s.twin.replaying && (x.st = .active || x.st = .stalled) && (ledgerOf s c).isEmpty then
    let s := event s 0x0D05 0 (s.twin.lostMid % 1024 + at_ 10 (c % 16384) + at_ 24 (x.replayed % 2 ^ 20) + at_ 44 (x.failed % 2 ^ 20))
    ownerClose (count s (ctrTwin 6) x.failed) c
  else s

/-! ### Retransmission (R251 to R253, R256) -/

/-- What a timeout does to the direction: the path offset (R252) and the window (R256). -/
def timeoutCounts (s : State) (c seq : Nat) : State :=
  let x := connOf s c
  let s := count (count s (ctrShuttle x.tc 2) 1) (ctrShuttle x.tc 27) (if 65 < x.cwnd then 1 else 0)
  let x := { x with cwnd := 65, decSeq := x.txNext }
  if x.consecTo = 1 then
    let p := (x.pathOffset + 1) % 16
    let s := count (setConn s c { x with consecTo := 0, pathOffset := p }) (ctrShuttle x.tc 3) 1
    connEvent s c 0x0606 (at_ 24 p + at_ 32 seq)
  else setConn s c { x with consecTo := x.consecTo + 1 }

/-- RETRANSMIT_TIMEOUT (R251). -/
def retransmitTimeout (l : Nat) (s : State) : State :=
  match Tbl.find? s.shu.ledger l with
  | none => s
  | some e =>
    if e.sent ∧ e.deadline ≤ s.now ∧ (connOf s e.cid).live then
      let s := timeoutCounts s e.cid e.seq
      let e := { e with timeouts := e.timeouts + 1 }
      let s := setEntry s l e
      if (connOf s e.cid).retryLimit ≤ e.timeouts then adoptedCheck (toStalled s e.cid e.seq 21) e.cid
      else sendEntry (count s (ctrShuttle (connOf s e.cid).tc 1) 1) l e
    else s

end Sys2Proof.Machine
end

