-- ==== Sys2Proof/Machine/Receive.lean ====
section
/-!
DEFINITION. The receiving side of the shuttle: decryption and the windows of R246, delivery (R247, R248), duplicates (R249),
acknowledgements and refusals (R236, R250, R254), the control counter (R260) and the congestion window (R256).
-/

namespace Sys2Proof.Machine

/-! ### Answers (R236, R248, R254, R287) -/

/-- Handled operations that end at `seq`, counted back. -/
def runLength (x : Conn) : Nat → Nat → Nat
  | 0, _ => 0
  | n + 1, q => if (Tbl.find? x.window q).isSome then 1 + runLength x n ((q + 2 ^ 32 - 1) % 2 ^ 32) else 0

/-- Send an ACK for an operation with envelope `env` (R248): CUM_SEQ, and one run that ends at its SEQ. -/
def sendAck (s : State) (c env : Nat) (cumOnly : Bool) : State :=
  let x := connOf s c
  let seq := bits env 68 32
  let cum := (x.rxE + 2 ^ 32 - 1) % 2 ^ 32
  let run := if cumOnly || !seqBefore cum seq then 0 else runLength x 768 seq
  let left := x.unacked.filter fun u => seqBefore cum u.1 && run ≤ seqDiff seq u.1
  let s := setConn s c { x with ceCount := 0, unacked := left }
  let s := count s (ctrShuttle x.tc 28) 1
  sendControl s c x.peerCid 8 (at_ 160 cum + at_ 144 run + at_ 128 (x.ceCount % 65536)) seq (bits env 20 7) (bits env 37 7)

/-- ACK_SEND (R248): within 500 ns of handling, or at ACK_COALESCE operations. -/
def ackSend (c : Nat) (s : State) : State :=
  let x := connOf s c
  match x.unacked.getLast? with
  | some u => if x.live && (elapsed s x.unackedSince 500 || cfgv s 0x4203 0 ≤ x.unacked.length) then sendAck s c u.2 false else s
  | none => s

/-- The 32-byte body of a NAK without its count. -/
def nakWord (cum reason : Nat) (late : Bool) (window offset : Nat) : Nat :=
  at_ 160 cum + at_ 152 (reason % 256) + at_ 151 (b2n late) + at_ 128 (window % 65536) + at_ 64 (offset % 2 ^ 41)

/-- Send a NAK for an operation with envelope `env`. -/
def sendNak (s : State) (c env reason : Nat) (late : Bool) (window offset : Nat) : State :=
  let x := connOf s c
  let s := count s (ctrShuttle x.tc (6 + reason)) 1
  sendControl s c x.peerCid 9 (nakWord ((x.rxE + 2 ^ 32 - 1) % 2 ^ 32) reason late window offset) (bits env 68 32) (bits env 20 7) (bits env 37 7)

/-- A NAK of reason 7, under the open key (R254, R260). What it says of window and offset is a free value: the body cannot be
read. -/
def nakUnknown (s : State) (o : WireOp) : State :=
  let f := freeValue s
  let s := count (afterFree s) (ctrShuttle (envClass o) 13) 1
  let env := { typ := 9, tc := envClass o, seq := envSeq o, cid := envCid o, src := envDst o, dst := envSrc o, stamp := stampNow s : EnvFields }.word
  sendOpen s (envSrc o / 128) (envDst o / 128) env (nakWord (f / 2 ^ 57 % 2 ^ 32) 7 false (f % 65536) (f / 65536 % 2 ^ 41))

/-! ### Tags and control counts (R259, R260, R262) -/

/-- A tag has failed (R262): event 0x0608 at most once per connection per 1 ms. -/
def tagFailed (s : State) (c : Nat) (o : WireOp) : State :=
  let s := selContained (count s (ctrShuttle (envClass o) 25) 1) 128 20 1 (connRing s c) o.env.toNat
  rateEvent s 0x0608 c ms fun s n => connError s c 0x0608 (at_ 32 (n % 2 ^ 32))

/-- The same where no context holds the connection. -/
def tagFailedOpen (s : State) (o : WireOp) : State :=
  let s := selContained (count s (ctrShuttle (envClass o) 25) 1) 128 20 1 none o.env.toNat
  rateEvent s 0x0608 (65536 + envSrc o / 128 * 16384 + envCid o) ms fun s n =>
    eventFull s 0x0608 0 2 none false (envCid o + at_ 14 (envSrc o / 128 % 1024) + at_ 32 (n % 2 ^ 32))

/-- Bytes of the body of a sequenced operation, from its type and header. -/
def bodyLength (typ head raw : Nat) : Nat :=
  match typ with
  | 0 => 16 + bits head 80 13
  | 1 => 16
  | 2 => 16 + (if bits head 68 4 = 2 then 2 else 1) * bits head 80 13
  | 3 => 16 + bits head 80 13
  | 4 => 16 + bits head 54 13
  | 5 => 16
  | 6 => 16 + bits head 113 13
  | 13 => 16 + bits head 48 16
  | _ => raw - 16

/-- Decrypt and check an arrived operation: its header tells where the body ends and the tag stands. -/
def openArrived (k : List Byte) (o : WireOp) : Option WireOp :=
  let raw := o.body ++ o.tag
  let head := leNat (gcmCtr (aesKeys k) (dataNonce o.env.toNat) 1 2 (raw.take 16))
  let n := bodyLength (envTyp o) head raw.length
  if raw.length < n + 16 then none else openData k { o with body := raw.take n, tag := (raw.drop n).take 16 }

/-- A count is accepted: not seen, and no more than 64 below the highest (R260). -/
def countFresh (n high : Nat) (seen : List Nat) : Bool := high ≤ n + 64 && !seen.contains n

def noteCount (n high : Nat) (seen : List Nat) : Nat × List Nat :=
  let h := max n high
  (h, (n :: seen).filter fun m => h ≤ m + 64)

/-- Accept a control operation of a context under its newest control key, or an earlier one still held: none when the tag is
wrong under both, or the count has been used. -/
def acceptControl (s : State) (c : Nat) (o : WireOp) : Option State :=
  let x := connOf s c
  let n := leAt o.body 24 8
  let ok := fun (k : Option KeySet) => match k with
    | some k => ctlTagOk k.ctlRx n o
    | none => false
  if ok x.keys then
    if countFresh n x.ctlHigh x.ctlSeen then
      let q := noteCount n x.ctlHigh x.ctlSeen
      some (setConn s c { x with ctlHigh := q.1, ctlSeen := q.2 })
    else none
  else if ok x.oldKeys then
    if countFresh n x.oldHigh x.oldSeen then
      let q := noteCount n x.oldHigh x.oldSeen
      some (setConn s c { x with oldHigh := q.1, oldSeen := q.2 })
    else none
  else none

/-- A control operation that `acceptControl` refuses is discarded, and counted when its tag is wrong. -/
def refuseControl (s : State) (c : Nat) (o : WireOp) : State :=
  let x := connOf s c
  let n := leAt o.body 24 8
  let ok := fun (k : Option KeySet) => match k with
    | some k => ctlTagOk k.ctlRx n o
    | none => false
  if ok x.keys || ok x.oldKeys then s else tagFailed s c o

/-! ### Handling (R246 to R249) -/

/-- E passes every handled number (R248). -/
def advanceE (x : Conn) : Nat → Conn
  | 0 => x
  | n + 1 => if (Tbl.find? x.window x.rxE).isSome then advanceE { x with rxE := (x.rxE + 1) % 2 ^ 32 } n else x

/-- An operation is handled: delivered, or refused with a reason, which its NAK reports at once. -/
def handled (s : State) (c : Nat) (o : WireOp) (reason : Nat) (window offset : Nat) : State :=
  let x := connOf s c
  let q := envSeq o
  let x := { x with window := Tbl.set x.window q (if reason = 0 then 1 else 2)
                    refusals := if reason = 0 then x.refusals else (x.refusals ++ [(q, reason)]).drop (x.refusals.length - 15)
                    ceCount := x.ceCount + b2n (envCong o)
                    unackedSince := if x.unacked.isEmpty then s.now else x.unackedSince
                    unacked := x.unacked ++ [(q, o.env.toNat)] }
  let x := advanceE x (x.window.length + 1)
  let x := { x with window := x.window.filter fun r => seqDiff x.rxE r.1 ≤ 768 || seqDiff r.1 x.rxE ≤ 255 }
  let s := setConn s c x
  if reason = 0 then s else sendNak s c o.env.toNat reason false window offset

/-- The restart of an answer: the part of a completion that a requester receives (R235, R250), from the loom's source `src`. -/
def answerPart (s : State) (src : Nat) (o : Origin) (q : Tlp) (status remain got : Nat) (data : List Byte) : State :=
  let t := { completionFor q (proxyBridgeId s o.vs) status data with byteCount := remain, lowerAddr := (q.addr + got) % 128 }
  match o.ret with
  | .port p => (enqueueTlp s p src o t 0 0).1
  | .tunnel v =>
    match tunnelCid s v with
    | some c => presentTunnel s c src none t
    | none => s
  | _ => answer s src o q 0 status false data

/-- A chain's bobbins are released, if there is one. -/
def freeOpt (s : State) (chain : Option Nat) : State :=
  match chain with
  | some k => freeChain s k
  | none => s

/-- A descriptor that has met a local fault sends no new operation: those not yet accepted are withdrawn (R312). -/
def withdraw (s : State) (t : Ticket) : State :=
  let mine := s.shu.waiting.filter fun op => op.ticket = some t
  let s := { s with shu := { s.shu with waiting := s.shu.waiting.filter fun op => op.ticket ≠ some t } }
  descMod (mine.foldl (fun s op => freeOpt s op.chain) s) t fun d => { d with left := d.left - mine.length }

/-- A descriptor receives part of a completion: READ data, or an ATOMIC's result, is written at its local address (R310). -/
def descriptorPart (s : State) (a : Asked) (t : Ticket) (status : Nat) (data : List Byte) (last : Bool) : State :=
  match instOf s t.inst with
  | none => s
  | some x =>
    match Tbl.find? x.queues t.q with
    | none => s
    | some q =>
      match q.work.find? fun d => d.n = t.n with
      | none => s
      | some d =>
        let w := if status = 0 && !data.isEmpty then localWrite s t.inst (d.addr + a.off + a.got) data else (s, true)
        let s := if w.2 then w.1 else withdraw (descCond w.1 t 5 0) t
        let s := descMod s t fun d => { d with bytesDone := d.bytesDone + (if status = 0 && w.2 then data.length else 0) }
        if last then descDone s t 0 else s

/-- The destination in the loom to which the way back of a request leads. -/
def Ret.dest : Ret → Nat
  | .port p => p
  | .dobby => 129
  | _ => 128

/-- Deliver a COMPLETION (R171, R248 to R250): matched to its request and handed towards the requester, with the loom's mark; or a
second one. -/
def deliverCompletion (s : State) (c src : Nat) (o : WireOp) : State × Bool :=
  let x := connOf s c
  let w := leAt o.body 0 16
  let q := bits w 96 32
  let status := bits w 81 3
  let last := bit w 80
  let data := o.body.drop 16
  match x.asked.find? fun a => a.seq = q && a.tag = bits w 84 12 with
  | none => (connEvent (count s (ctrShuttle x.tc 26) 1) c 0x060E (at_ 32 q), false)
  | some a =>
    let (s, mark) := drawMark s a.origin.ret.dest x.tc
    let s := match ledgerAt s c q with
      | some r => releaseEntry s r.1
      | none => s
    let x := connOf s c
    let s := setConn s c { x with asked := if last then x.asked.filter fun b => b.seq ≠ q
                                           else x.asked.map fun b => if b.seq = q then { b with got := b.got + data.length } else b }
    let s := if a.origin.kind = 1 || data.isEmpty then s else count s (ctrWin (a.origin.vs % 32) 15) (ceilDiv data.length 64)
    match a.ticket, a.tlp with
    | some t, _ => (descriptorPart s a t status data last, mark)
    | none, some t => (answerPart s src a.origin t status (a.len - a.got) a.got data, mark)
    | none, none => (s, mark)

/-- The destination that a mark of a TUNNEL is decided at: the exported port; at the owner the internal targets (R171). -/
def tunnelDest (s : State) (c : Nat) : Nat :=
  match s.fab.imported.find? fun a => a.cidB = c && a.pgid / 32 ≠ ownMid s with
  | some a => a.gport % 128
  | none => 128

/-- Deliver a fragment of a tunnelled TLP (R235). -/
def deliverTunnel (s : State) (c src : Nat) (chain : Option Nat) (o : WireOp) : State :=
  let x := connOf s c
  let mark := bits (leAt o.body 0 16) 126 2
  let bs := (if mark = 0 || mark = 1 then [] else x.tunnel) ++ o.body.drop 16
  if mark = 0 || mark = 3 then
    let s := setConn s c { x with tunnel := [] }
    match tlpOfWire bs with
    | some t => { s with shu := { s.shu with tunnelled := s.shu.tunnelled ++ [(c, src, chain, t)] } }
    | none => freeOpt s chain
  else freeOpt (setConn s c { x with tunnel := bs }) chain

/-- A FABRIC_CTL message (R195). -/
def ctlMsgOf (bs : List Byte) (peer port : Nat) : CtlMsg :=
  let w := leAt bs 0 16
  { code := bits w 0 8, response := bit w 32, directed := bit w 33, reqId := bits w 96 32, term := bits w 64 32, status := bits w 40 8,
    data := (bs.drop 16).take (bits w 48 16), peer := peer, port := port }

/-- The congestion mark of a loom at delivery joins the envelope's own (R171). -/
def markedOp (o : WireOp) (mark : Bool) : WireOp :=
  if mark then { o with env := BitVec.ofNat 128 (putBit o.env.toNat 15 true) } else o

/-- An operation that ends at this module's own engines is handled, with the mark of the internal targets' queue. -/
def handledHere (s : State) (c : Nat) (chain : Option Nat) (o : WireOp) : State :=
  let (s, mark) := drawMark s 128 (connOf s c).tc
  handled (freeOpt s chain) c (markedOp o mark) 0 0 0

/-- Deliver an operation that R247 allows. Its tag has been checked and its body is plain. The chain of its arrival passes to what it
becomes in the loom, or is freed. -/
def deliverOp (s : State) (c : Nat) (g : HeldOp) : State :=
  let o := g.op
  let x := connOf s c
  let typ := envTyp o
  let w := leAt o.body 0 16
  let h := reqHead w
  let data := o.body.drop 16
  let s := filterItem s 3 (shuttleItem x.peerMid typ w x.tc (some (fabricClass s x.peerMid h.vs h.kind)) data.length)
  let k := s.loom.nextChain
  if typ = 7 || (typ ≤ 5 && typ ≠ 4 && !bodyConsistent typ h data.length) then handled (freeOpt s g.chain) c o 6 h.window h.offset
  else
    match typ with
    | 4 =>
      let (s, mark) := deliverCompletion s c g.src o
      handled (handOver s g.chain k) c (markedOp o mark) 0 0 0
    | 5 => handledHere s c g.chain o
    | 6 =>
      let (s, mark) := drawMark s (tunnelDest s c) x.tc
      handled (deliverTunnel s c g.src g.chain o) c (markedOp o mark) 0 0 0
    | 13 => handledHere { s with fab := { s.fab with ctl := s.fab.ctl ++ [ctlMsgOf o.body x.peerMid 128] } } c g.chain o
    | _ =>
      if h.kind = 3 then
        if typ = 0 && isTwinCid s c then
          handledHere { s with twin := { s.twin with inbox := s.twin.inbox ++ [(envOrd o, data)] } } c g.chain o
        else handled (freeOpt s g.chain) c o 6 h.window h.offset
      else
        match deliverRequest s c g.src typ x.tc (envOrd o) (envGen o) (envSeq o) (envSrc o % 128) (envDst o % 128) h data with
        | .delivered s mark => handled (handOver s g.chain k) c (markedOp o mark) 0 0 0
        | .refused s r => handled (freeOpt s g.chain) c o r h.window h.offset
        | .discarded s => freeOpt s g.chain

/-- An operation held at `q` may be delivered (R247, R285): every earlier one is handled, or is held, of another ordering
class and without ACQ, and the operation carries no REL; a REL waits for every earlier write's visibility too. -/
def deliverable (x : Conn) (o : WireOp) : Bool :=
  let q := envSeq o
  ((List.range (min 256 (seqDiff q x.rxE))).all fun i =>
    let t := (x.rxE + i) % 2 ^ 32
    (Tbl.find? x.window t).isSome ||
      (match x.held.find? fun h => h.seq = t with
        | some h => envOrd h.op ≠ envOrd o && !envAcq h.op && !envRel o
        | none => false)) && (!envRel o || x.unseen = 0)

/-- HELD_DELIVERY (R247): deliver what may be delivered, oldest first. -/
def deliverHeld : Nat → State → Nat → State
  | 0, s, _ => s
  | fuel + 1, s, c =>
    let x := connOf s c
    match x.held.find? fun h => deliverable x h.op with
    | some h => deliverHeld fuel (deliverOp (setConn s c { x with held := x.held.filter fun g => g.seq ≠ h.seq }) c h) c
    | none => s

/-- Put an operation into the reorder window, in sequence order. -/
def holdOp (x : Conn) (h : HeldOp) : Conn :=
  let before := fun (g : HeldOp) => seqDiff g.seq x.rxE < seqDiff h.seq x.rxE
  { x with held := x.held.takeWhile before ++ [h] ++ x.held.dropWhile before }

/-- Discarded outside the windows (R246): 1 after E + 255, 2 reorder window full. -/
def discardOp (s : State) (c cause : Nat) : State :=
  let s := count s (ctrShuttle (connOf s c).tc 6) 1
  rateEvent s 0x060C c ms fun s n => connEvent s c 0x060C (at_ 24 cause + at_ 32 (n % 2 ^ 32))

/-- A duplicate is answered and never executed (R249). -/
def duplicateOp (s : State) (c : Nat) (o : WireOp) (how : Nat) : State :=
  let x := connOf s c
  let s := count s (ctrShuttle x.tc 4) 1
  let h := reqHead (leAt o.body 0 16)
  if how = 2 then
    let r := match x.refusals.find? fun r => r.1 = envSeq o with
      | some r => r.2
      | none => 9
    sendNak s c o.env.toNat r false h.window h.offset
  else
    let s :=
      if envTyp o = 1 || envTyp o = 2 || envTyp o = 3 then
        match (winOf s h.window).cache.find? fun e => e.mid = x.peerMid && e.cid = x.peerCid && e.seq = envSeq o with
        | some e =>
          match e.answer with
          | some a => presentCompletion s c e.seq e.tag a.1 h.offset a.2
          | none => s
        | none => s
      else s
    sendAck s c o.env.toNat false

/-- The windows of R246, for an operation whose tag is right. One that is neither held nor delivered gives up its bobbins. -/
def receiveOp (s : State) (c : Nat) (i : Inbound) : State :=
  let o := i.op
  let x := connOf s c
  let q := envSeq o
  match Tbl.find? x.window q with
  | some how => duplicateOp (freeOpt s i.chain) c o how
  | none =>
    if seqBefore q x.rxE then sendAck (freeOpt s i.chain) c o.env.toNat true
    else if 255 < seqDiff q x.rxE then discardOp (freeOpt s i.chain) c 1
    else if x.held.any fun h => h.seq = q then freeOpt s i.chain
    else if !deliverable x o && 256 ≤ x.held.length then discardOp (freeOpt s i.chain) c 2
    else
      let s := if deliverable x o then s else count s (ctrShuttle x.tc 5) 1
      deliverHeld 512 (setConn s c (holdOp x { seq := q, op := o, chain := i.chain, src := i.src })) c

/-- A sequenced operation on an adopted direction (R372): a COMPLETION is acknowledged far behind and discarded, anything else
is refused with reason 5. -/
def receiveAdopted (s : State) (c : Nat) (o : WireOp) : State :=
  let x := connOf s c
  if envTyp o = 4 then
    let s := count s (ctrShuttle x.tc 28) 1
    sendControl s c x.peerCid 8 (at_ 160 ((envSeq o + 2 ^ 32 - 1024) % 2 ^ 32) + at_ 144 1) (envSeq o) (envDst o % 128) (envSrc o % 128)
  else
    let h := reqHead (leAt o.body 0 16)
    sendNak s c o.env.toNat 5 false h.window h.offset

/-- Take the oldest operation of the shuttle's inbox that meets a test. -/
def takeInbox (s : State) (f : WireOp → Bool) : Option (State × Inbound) :=
  match s.shu.inbox.find? fun r => f r.op with
  | some r => some ({ s with shu := { s.shu with inbox := s.shu.inbox.erase r } }, r)
  | none => none

/-- The same for an operation that is used up as it is taken. -/
def takeControl (s : State) (f : WireOp → Bool) : Option (State × WireOp) :=
  match takeInbox s f with
  | some (s, i) => some (freeOpt s i.chain, i.op)
  | none => none

/-- The data key under which an arrived sequence number was sent (R261). -/
def receiveKey (x : Conn) (seq : Nat) : Option KeySet := if x.oldKeys.isSome && seqBefore seq x.firstRx then x.oldKeys else x.keys

/-- OPERATION_RECEIVE (R246). -/
def operationReceive (s : State) : State :=
  match takeInbox s (fun o => envTyp o < 8 || envTyp o = 13) with
  | none => s
  | some (s, i) =>
    let o := i.op
    match contextOf s o with
    | none => nakUnknown (freeOpt s i.chain) o
    | some c =>
      let x := connOf s c
      if !x.live then freeOpt s i.chain
      else
        match receiveKey x (envSeq o) with
        | none => tagFailed (freeOpt s i.chain) c o
        | some k =>
          match openArrived k.dataRx o with
          | none => tagFailed (freeOpt s i.chain) c o
          | some p =>
            if 16384 ≤ c then receiveAdopted (freeOpt s i.chain) c p else oldKeyCheck (receiveOp s c { i with op := p }) c

/-! ### ACK_RECEIVE (R250, R256) -/

/-- The context a control operation names: the direction's own CID at this end. -/
def controlContext (s : State) (o : WireOp) : Option Nat :=
  let c := if s.fab.adoptedMid = some (envDst o / 128) && envDst o / 128 ≠ ownMid s then 16384 + envCid o else envCid o
  match Tbl.find? s.shu.conns c with
  | some x => if x.st ≠ .idle && x.peerMid = envSrc o / 128 then some c else none
  | none => none

/-- What the release of an acknowledged entry means (R275, R286, R365). -/
def acknowledged (s : State) (e : LedgerEntry) : State :=
  let s := match e.op.mirror with
    | some (c, q) =>
      let again := s.shu.waiting.any (fun op => op.mirror = some (c, q)) || s.shu.ledger.any fun r => r.2.op.mirror = some (c, q)
      match ledgerAt s c q with
      | some r => if again then s else setEntry s r.1 { r.2 with mirrored := true }
      | none => s
    | none => s
  match e.typ with
  | 0 | 3 =>
    match e.op.ticket with
    | some t => if e.typ = 0 then descDone s t e.op.data.length else s
    | none => s
  | 4 =>
    let x := connOf s e.cid
    let gone := fun (k : CacheEntry) => k.mid = x.peerMid && k.cid = x.peerCid && k.compSeq = some e.seq
    { s with win := { s.win with windows := s.win.windows.map fun r => (r.1, { r.2 with cache := r.2.cache.filter fun k => !gone k }) } }
  | 5 => fenceDone s e.cid e.seq (if (connOf s e.cid).failedSince then 2 else 1) e.op.origin e.op.tlp e.op.ticket
  | _ => s

/-- CWND_UPDATE (R256): `u` slots released, `late` when one of them is at or after DEC_SEQ. -/
def cwndUpdate (s : State) (c ce u : Nat) (late : Bool) : State :=
  let x := connOf s c
  if u = 0 then s
  else if ce = 0 then
    setConn s c { x with cwnd := max x.cwnd (min (cfgv s 0x4202 2) (x.cwnd + ceilDiv (cfgv s 0x4202 3 * u) (max 1 x.cwnd))) }
  else if late then
    count (setConn s c { x with cwnd := max 65 (x.cwnd / 2), decSeq := x.txNext }) (ctrShuttle x.tc 27) 1
  else s

/-- CATCH_UP_COMPLETE (R368): every mirror of the catch-up is confirmed. -/
def catchUpCheck (s : State) : State :=
  if s.twin.catching && s.twin.st = .joining && !(s.shu.waiting.any fun op => op.catchUp) && !(s.shu.ledger.any fun r => r.2.op.catchUp) then
    let s := event { s with twin := { s.twin with catching := false, st := .protected_ } } 0x0D08 0
      (twinMid s % 1024 + at_ 16 (s.twin.caughtUp % 2 ^ 32))
    event s 0x0D00 0 (twinMid s % 1024 + at_ 16 ((twinLinks s).length % 4))
  else s

/-- Apply an ACK: release what it covers (R250). -/
def applyAck (s : State) (c seq cum run ce : Nat) : State :=
  let x := connOf s c
  let covered := (ledgerOf s c).filter fun r => r.2.sent && (!seqBefore cum r.2.seq || (0 < run && seqDiff seq r.2.seq < run))
  let u := (covered.map fun r => r.2.slots).sum
  let late := covered.any fun r => !seqBefore r.2.seq x.decSeq
  let s := covered.foldl (fun s r => acknowledged (releaseEntry s r.1) r.2) s
  let s := setConn s c { connOf s c with replayed := (connOf s c).replayed + covered.length }
  let s := if 16384 ≤ c then count s (ctrTwin 5) covered.length else s
  catchUpCheck (adoptedCheck (closeCheck (oldKeyCheck (cwndUpdate s c ce u late) c) c) c)

/-- ACK_RECEIVE (R250). -/
def ackReceive (s : State) : State :=
  match takeControl s (fun o => envTyp o = 8) with
  | none => s
  | some (s, o) =>
    match controlContext s o with
    | none => s
    | some c =>
      if !(connOf s c).live then s
      else
        match acceptControl s c o with
        | none => refuseControl s c o
        | some s =>
          let w := leAt o.body 0 32
          applyAck (count s (ctrShuttle (connOf s c).tc 29) 1) c (envSeq o) (bits w 160 32) (bits w 144 16) (bits w 128 16)

/-! ### NAK_RECEIVE (R250, R254) -/

/-- The inbound window of the dobby whose accesses a connection carries to a remote window (R388). -/
def inboundWindow (s : State) (c window : Nat) : Option Nat :=
  (List.range 16).find? fun i =>
    let w := cfgv s 0x6011 (i + 1)
    bit w 255 && bit w 254 && bits w 216 14 = c && bits w 200 16 = window

/-- The outcome of a refusal at the requester. -/
def refusedOp (s : State) (c seq reason : Nat) (op : NewOp) : State :=
  match op.typ with
  | 1 | 2 | 3 =>
    match op.ticket with
    | some t => descCond (descDone s t 0) t 3 reason
    | none =>
      match op.tlp with
      | some t => answer s 128 op.origin t 0 (if reason = 1 then 1 else 2) false []
      | none => s
  | _ => failOp s c seq reason op 3

/-- A write dropped after it was handled, whose entry is already released (R248, R250): it is reported from what the NAK says;
the function is the connection's owner. -/
def lateDrop (s : State) (c seq window offset : Nat) : State :=
  let x := connOf s c
  let s := setConn s c { x with failedSince := true }
  match x.ownerKind, ownerPart s c with
  | 1, _ => inboundFailed s ((inboundWindow s c window).getD 0) 8 offset
  | 0, some v => postedFailure s v x.ownerId c x.peerMid window offset seq 8
  | _, _ => s

/-- NAK_RECEIVE (R250). -/
def nakReceive (s : State) : State :=
  match takeControl s (fun o => envTyp o = 9) with
  | none => s
  | some (s, o) =>
    match controlContext s o with
    | none => s
    | some c =>
      let x := connOf s c
      let w := leAt o.body 0 32
      let reason := bits w 152 8
      let told := fun (s : State) =>
        let s := if 1 ≤ reason && reason ≤ 9 then count s (ctrShuttle x.tc (15 + reason)) 1 else s
        rateEvent s 0x0607 c ms fun s _ => connEvent s c 0x0607 (at_ 24 reason + at_ 32 (envSeq o))
      if !x.live then s
      else if reason = 7 then
        match secretFor s x.peerMid, ledgerAt s c (envSeq o) with
        | some k, some _ =>
          if ctlTagOk (openKey k (connMid s c) x.peerMid) (leAt o.body 24 8) o then toFailed (told s) c 1 else tagFailed s c o
        | _, _ => s
      else
        match acceptControl s c o with
        | none => refuseControl s c o
        | some s =>
          match ledgerAt s c (envSeq o) with
          | some r =>
            let s := setConn s c { connOf s c with failed := (connOf s c).failed + 1 }
            let s := refusedOp (dropAsked (releaseEntry (told s) r.1) c r.2.seq) c r.2.seq reason r.2.op
            catchUpCheck (adoptedCheck (closeCheck (oldKeyCheck s c) c) c)
          | none => if bit w 151 then lateDrop (told s) c (envSeq o) (bits w 128 16) (bits w 64 41) else s

/-- VISIBILITY_POINT (R284, R285): the oldest write that has left is visible, and what waited for it is delivered. -/
def visibilityPoint (s : State) : State :=
  match s.win.unseen.find? fun u => u.left with
  | some u =>
    match u.waiter with
    | some w => answer (visible s u) u.dest w.1 w.2 0 0 false []
    | none => deliverHeld 512 (visible s u) u.cid
  | none => s

end Sys2Proof.Machine
end

