-- ==== Sys2Proof/Machine/Connect.lean ====
section
/-!
DEFINITION. Connection exchanges (R237 to R241, R257 to R261): requests received, responses received, resends and timeouts, and
the rekeys that the installer or a changed secret starts.
-/

namespace Sys2Proof.Machine

/-! ### Requests received -/

/-- KIND of a CONN_REQ or CONN_RESP body. -/
def ctlKind (o : WireOp) : Nat := leAt o.body 23 1

def reqEpoch (o : WireOp) : Nat := leAt o.body 20 2
def reqNonce (o : WireOp) : Nat := leAt o.body 12 8
def reqFirst (o : WireOp) : Nat := leAt o.body 8 4
def respStatus (o : WireOp) : Nat := leAt o.body 22 1
def respCid (o : WireOp) : Nat := bits (leAt o.body 0 8) 50 14

/-- A CONN_RESP body without its count. -/
def respWord (kind status epoch nonce first cid : Nat) : Nat :=
  at_ 184 kind + at_ 176 (status % 256) + at_ 160 epoch + at_ 96 nonce + at_ 64 first + at_ 50 (cid % 16384)

/-- Answer a request under the open key (R260): the request's NONCE_I stands in NONCE_R. -/
def answerOpen (s : State) (o : WireOp) (status : Nat) : State :=
  let env := { typ := 11, tc := envClass o, seq := 0, cid := envCid o, src := envDst o, dst := envSrc o, stamp := stampNow s : EnvFields }.word
  sendOpen s (envSrc o / 128) (envDst o / 128) env (respWord (ctlKind o) status 0 (reqNonce o) 0 0)

/-- Answer a request under the connection's key, and keep the answer for a repeated request (R238). -/
def answerKeyed (s : State) (c : Nat) (o : WireOp) (status nonceR first : Nat) : State :=
  let x := connOf s c
  let q := controlOp s c (envCid o) 11 (respWord (ctlKind o) status x.keyEpoch nonceR first (c % 16384)) 0 0 0
  match q.2 with
  | none => s
  | some w =>
    let s := q.1
    let a : Answered := { kind := ctlKind o, nonceI := reqNonce o, status := status, epoch := x.keyEpoch, nonceR := nonceR, firstSeq := first, sentOp := some w }
    launch (setConn s c { connOf s c with answered := some a }) c w

/-- Send an answered request's response of the same content again, under the next CTL_COUNT (R238). -/
def answerAgain (s : State) (c : Nat) (o : WireOp) (a : Answered) : State :=
  sendControl s c (envCid o) 11 (respWord a.kind a.status a.epoch a.nonceR a.firstSeq (c % 16384)) 0 0 0

/-- The contexts the owners of connections use (R185), the twin's apart. -/
def freeContext (s : State) : Option Nat :=
  let n := if candidateOf s (ownMid s) = 0 then 16384 else 15360
  (List.range n).find? fun c => c ≠ 0 && (Tbl.find? s.shu.conns c).isNone && !(cfgOn s 0x5201 0 && c = cfgv s 0x5205 0)

/-- The context an OPEN takes: the management context of its member, the twin's, or the lowest free one. -/
def contextForOpen (s : State) (o : WireOp) : Option Nat :=
  let m := envSrc o / 128
  let free := fun (c : Nat) => if (Tbl.find? s.shu.conns c).isNone then some c else none
  if cfgOn s 0x5201 0 && m = twinMid s && envCid o = cfgv s 0x5205 0 then free (cfgv s 0x5205 0)
  else if envCid o = 0 && s.fab.role = 2 then free (15360 + m)
  else freeContext s

/-- OPEN_TIME is within 1 ms of the own fabric time, and later than the OPEN that made the present context (R238). -/
def openTimely (s : State) (t : Nat) (old : Option Nat) : Bool :=
  let d := (t + 2 ^ 48 - s.ft % 2 ^ 48) % 2 ^ 48
  (d ≤ ms || 2 ^ 48 - ms ≤ d) &&
    (match old with
      | some p => let e := (t + 2 ^ 48 - p) % 2 ^ 48; 1 ≤ e && e ≤ 2 ^ 47
      | none => true)

/-- The JUNIOR refuses the twin connection, without an answer, until it has locked to the SENIOR's time (R362). -/
def juniorWaits (s : State) (o : WireOp) : Bool :=
  cfgOn s 0x5201 0 && cfgv s 0x5202 0 = 1 && !fabricOn s && envSrc o / 128 = twinMid s && envCid o = cfgv s 0x5205 0 && !s.fab.locked

/-- The status with which an OPEN that is in order is refused, or 0 (R236). -/
def openStatus (s : State) (o : WireOp) : Nat :=
  if s.module.state = .fenced then 4
  else if fabricOn s && !s.fab.admitted.contains (envSrc o / 128) && !(s.fab.members.any fun r => r.1 = envSrc o / 128) then 3
  else if (contextForOpen s o).isNone then 1
  else 0

/-- Accept an OPEN (R237, R258, R307). -/
def acceptOpen (s : State) (o : WireOp) (k : List Byte) (c : Nat) : State :=
  let b := leAt o.body 0 32
  let r := (drawn s).toNat % 2 ^ 64
  let x : Conn := { st := .active, peerMid := envSrc o / 128, peerCid := envCid o, tc := bits b 61 3, twin := bit b 60, autoResume := true,
                    retryLimit := cfgv s 0x4201 0, ownerKind := 2, openTime := bits b 0 48, cwnd := cfgv s 0x4202 1 }
  let s := setConn (afterDraw s) c x
  let s := installKeys s c (reqNonce o) r 0 (deriveKeys s c (reqNonce o) r 0 false k) 0 0
  mirrorConn (rosterAdd (answerKeyed s c o 0 r 0) c) c 1 false

/-- The context of the same initiator and CID that an earlier OPEN made. -/
def openedBefore (s : State) (o : WireOp) : Option (Nat × Conn) :=
  List.find? (fun r => !r.2.opener && r.1 < 16384 && r.2.peerMid = envSrc o / 128 && r.2.peerCid = envCid o && r.2.st ≠ .idle) s.shu.conns

/-- Take the oldest CONN_REQ of a kind. -/
def takeRequest (s : State) (kind : Nat) : Option (State × WireOp) := takeControl s (fun o => envTyp o = 10 && ctlKind o = kind)

/-- An OPEN that is not a repetition, with the secret at hand. -/
def freshOpen (s : State) (o : WireOp) (k : List Byte) : State :=
  let old := openedBefore s o
  if !ctlTagOk (openKey k (envSrc o / 128) (envDst o / 128)) (reqNonce o) o then tagFailedOpen s o
  else if !openTimely s (bits (leAt o.body 0 32) 0 48) (old.map fun r => r.2.openTime) || juniorWaits s o then
    { s with shu := { s.shu with openRefused := s.shu.openRefused + 1 } }
  else
    let s := match old with
      | some r => toFailed s r.1 2
      | none => s
    let st := openStatus s o
    match contextForOpen s o with
    | some c => if st = 0 then acceptOpen s o k c else answerOpen s o st
    | none => answerOpen s o st

/-- CONN_REQ_OPEN (R238). With the entropy source unhealthy a new one gets no answer (R494). -/
def connReqOpen (s : State) : State :=
  match takeRequest s 1 with
  | none => s
  | some (s, o) =>
    let again := match openedBefore s o with
      | some r =>
        match r.2.answered with
        | some a => if r.2.nonceI = reqNonce o && a.kind = 1 then some (r.1, a.sentOp) else none
        | none => none
      | none => none
    match again with
    | some (c, some w) => launch s c w
    | some (_, none) => s
    | none =>
      match secretFor s (envSrc o / 128), s.vault.entropyOk with
      | _, false => s
      | none, true => answerOpen (event s 0x060D 0 (envCid o + at_ 14 (envSrc o / 128 % 1024))) o 2
      | some k, true => freshOpen s o k

/-- A request on a connection that no context holds is answered with STATUS 5. -/
def requestContext (s : State) (o : WireOp) : Option Nat := contextOf s o

/-- CONN_REQ_CLOSE (R237). -/
def connReqClose (s : State) : State :=
  match takeRequest s 2 with
  | none => s
  | some (s, o) =>
    match requestContext s o with
    | none => answerOpen s o 5
    | some c =>
      if !(connOf s c).live then s
      else
        match acceptControl s c o with
        | none => refuseControl s c o
        | some s =>
          let x := connOf s c
          let s := if x.st = .active then leaveActive s c else s
          let x := connOf s c
          let s := if x.st = .closing then setConn s c { x with closeAnswered := true }
                   else setConn s c { x with st := .closing, exch := none, closingAt := some s.now, closeAnswered := true }
          closeCheck (answerKeyed s c o 0 0 0) c

/-- Carry out a RESET or REKEY of the peer (R239, R261). The cause that event 0x0605 of a RESET by the peer carries is a free
value: the events table names only the own driver and the own timer. -/
def carryOut (s : State) (c : Nat) (o : WireOp) (k : List Byte) : State :=
  let x := connOf s c
  let r := (drawn s).toNat % 2 ^ 64
  let ni := if x.opener then r else reqNonce o
  let nr := if x.opener then reqNonce o else r
  let s := afterDraw s
  let s := installKeys s c ni nr (reqEpoch o) (deriveKeys s c ni nr (reqEpoch o) x.opener k) x.txNext (reqFirst o)
  let s := if ctlKind o = 3 then afterReset (afterFree s) c (reqFirst o) (freeValue s % 256) else s
  let s := answerKeyed s c o 0 r x.txNext
  oldKeyCheck (mirrorConn s c 3 false) c

/-- A RESET or REKEY received: repeated, refused without an answer while the entropy source is unhealthy (R494), in conflict with
an own request, or carried out. -/
def receiveExchange (s : State) (kind : Nat) : State :=
  match takeRequest s kind with
  | none => s
  | some (s, o) =>
    match requestContext s o with
    | none => answerOpen s o 5
    | some c =>
      if !(connOf s c).live then s
      else
        match acceptControl s c o with
        | none => refuseControl s c o
        | some s =>
          let x := connOf s c
          let again := match x.answered with
            | some a => a.kind = kind && a.nonceI = reqNonce o && a.status = 0
            | none => false
          let own := match x.exch with
            | some e => e.kind = 3 || e.kind = 4
            | none => false
          if again then
            match x.answered with
            | some a => answerAgain s c o a
            | none => s
          else if !s.vault.entropyOk then s
          else if own && x.opener then answerKeyed s c o 6 0 0
          else
            match secretFor s x.peerMid with
            | none => answerKeyed (event s 0x060D 0 (c % 16384 + at_ 14 (x.peerMid % 1024))) c o 2 0 0
            | some k =>
              let reset := match x.exch with
                | some e => e.kind = 3
                | none => false
              let s := if own then setConn s c { x with exch := none } else s
              let s := carryOut s c o k
              if reset && (connOf s c).st = .stalled then startRequest s c 3 false else s

/-- CONN_REQ_RESET (R239). -/
def connReqReset (s : State) : State := receiveExchange s 3

/-- CONN_REQ_REKEY (R261). -/
def connReqRekey (s : State) : State := receiveExchange s 4

/-! ### CONN_RESP (R237, R260) -/

/-- An OPEN has been refused: back to IDLE with event 0x0602. -/
def openEnds (s : State) (c status : Nat) : State :=
  let s := connEvent s c 0x0602 (at_ 24 status)
  openFailed { s with shu := { s.shu with conns := Tbl.erase s.shu.conns c } } c status

/-- An answer under the open key to an exchange that waits. -/
def openAnswer (s : State) (c : Nat) (e : Exchange) (o : WireOp) : State :=
  let x := connOf s c
  if e.kind = 1 && respStatus o = 2 && leNat o.tag = 0 then
    setConn { s with shu := { s.shu with secretless := s.shu.secretless + 1 } } c { x with exch := some { e with noSecret := true } }
  else
    match secretFor s x.peerMid with
    | none => s
    | some k =>
      if !ctlTagOk (openKey k (connMid s c) x.peerMid) (leAt o.body 24 8) o || (e.kind ≠ 2 && reqNonce o ≠ e.nonce) then tagFailed s c o
      else if e.kind = 1 then openEnds s c (respStatus o)
      else toFailed s c 1

/-- An accepted OPEN, RESET or REKEY: the keys are derived, and the tag checked under them (R258). -/
def exchangeDone (s : State) (c : Nat) (e : Exchange) (o : WireOp) (k : List Byte) : State :=
  let x := connOf s c
  let x := if e.kind = 1 then { x with peerCid := respCid o } else x
  let ni := if x.opener then e.nonce else reqNonce o
  let nr := if x.opener then reqNonce o else e.nonce
  let keys := deriveKeys (setConn s c x) c ni nr e.epoch x.opener k
  if !ctlTagOk keys.ctlRx (leAt o.body 24 8) o then tagFailed s c o
  else
    let n := leAt o.body 24 8
    let s := installKeys (setConn s c { x with exch := none }) c ni nr e.epoch keys e.firstSeq (reqFirst o)
    let x := connOf s c
    let s := setConn s c { x with ctlHigh := n, ctlSeen := [n] }
    match e.kind with
    | 1 =>
      let x := connOf s c
      let s := setConn s c { x with st := .active, rxE := reqFirst o, cwnd := cfgv s 0x4202 1 }
      let s := mirrorConn (connEvent (rosterAdd s c) c 0x0600 (at_ 32 x.peerCid)) c 1 false
      openSettled s c
    | 3 => oldKeyCheck (mirrorConn (afterReset s c (reqFirst o) (b2n e.auto)) c 3 false) c
    | _ => oldKeyCheck (mirrorConn s c 3 false) c

/-- CONN_RESP (R237). -/
def connResp (s : State) : State :=
  match takeControl s (fun o => envTyp o = 11) with
  | none => s
  | some (s, o) =>
    match controlContext s o with
    | none => s
    | some c =>
      let x := connOf s c
      match x.exch with
      | none => s
      | some e =>
        if e.kind ≠ ctlKind o || x.st = .failed then s
        else if (e.kind = 1 && respStatus o ≠ 0) || respStatus o = 5 then openAnswer s c e o
        else if e.kind = 2 || respStatus o ≠ 0 then
          match acceptControl s c o with
          | none => refuseControl s c o
          | some s =>
            let s := setConn s c { connOf s c with exch := none }
            if e.kind = 2 then closeCheck s c
            else if respStatus o = 6 then s
            else toFailed s c 4
        else
          match secretFor s x.peerMid with
          | none => toFailed (event s 0x060D 0 (c % 16384 + at_ 14 (x.peerMid % 1024))) c 4
          | some k => exchangeDone s c e o k

/-! ### Timers (R237 to R239) -/

/-- CONN_REQ_RESEND (R238): every 50 µs, for at most 2 ms but for a CLOSE. -/
def connReqResend (c : Nat) (s : State) : State :=
  let x := connOf s c
  match x.exch with
  | none => s
  | some e =>
    if elapsed s e.sentAt (50 * us) && (e.kind = 2 || !elapsed s e.since (2 * ms)) then
      let s := setConn s c { x with exch := some { e with sentAt := s.now } }
      match e.kind, e.sentOp with
      | 1, some o => launch s c o
      | 1, none => s
      | _, _ => sendRequest s c e
    else s

/-- CONN_OPEN_TIMEOUT (R237). -/
def connOpenTimeout (c : Nat) (s : State) : State :=
  let x := connOf s c
  match x.exch with
  | some e => if x.st = .opening && e.kind = 1 && elapsed s e.since (2 * ms) then openEnds s c (if e.noSecret then 2 else 0xFF) else s
  | none => s

/-- CONN_EXCHANGE_TIMEOUT (R238). -/
def connExchangeTimeout (c : Nat) (s : State) : State :=
  match (connOf s c).exch with
  | some e => if (e.kind = 3 || e.kind = 4) && elapsed s e.since (2 * ms) then toFailed s c 4 else s
  | none => s

/-- CONN_CLOSE_TIMEOUT (R237). -/
def connCloseTimeout (c : Nat) (s : State) : State :=
  let x := connOf s c
  if x.st = .closing && elapsedOpt s x.closingAt (10 * ms) then goIdle s c 1 else s

/-- AUTO_RESUME_TIMER (R239). -/
def autoResumeTimer (c : Nat) (s : State) : State :=
  let x := connOf s c
  if x.st = .stalled && x.autoResume && x.exch.isNone && elapsed s x.stalledAt (cfgv s 0x4204 0) then startRequest s c 3 true else s

/-! ### Rekeys (R261) -/

/-- Start a REKEY on every ACTIVE connection that meets a test. -/
def rekeyWhere (s : State) (f : Conn → Bool) : State :=
  ((s.shu.conns.filter fun r => r.2.st = .active && f r.2).map Prod.fst).foldl (fun s c => startRequest s c 4 false) s

/-- A write of REKEY_ALL. -/
def actRekeyAll (s : State) : State := rekeyWhere s fun _ => true

/-- The pair secret of a module changes (R257, R261). -/
def secretChanged (s : State) (mid : Nat) : State := rekeyWhere s fun x => x.peerMid = mid

/-- The peers that left the membership at a bank switch (R240). -/
def membershipCheck (s : State) : State :=
  ((s.shu.conns.filter fun r => r.2.live && !s.fab.admitted.contains r.2.peerMid && !isOwnMid s r.2.peerMid).map Prod.fst).foldl
    (fun s c => toFailed s c 3) s

end Sys2Proof.Machine
end

