-- ==== Sys2Proof/Machine/Twin.lean ====
section
/-!
DEFINITION. The twin pair (chapter 13): the twin state and what follows from it, the catch-up, the mirror store, adoption and
replay, and the mirror rate.
-/

namespace Sys2Proof.Machine

def TwinSt.code : TwinSt → Nat
  | .off => 0 | .joining => 1 | .protected_ => 2 | .unprotected => 3 | .adopting => 4 | .alone => 5 | .fenced => 6

/-- An event of the twin: the twin's MID in bits [9:0] (R376). -/
def twinEvent (s : State) (code extra : Nat) : State := event s code 0 (twinMid s % 1024 + extra)

/-- The context of the twin connection. -/
def twinCid (s : State) : Nat := cfgv s 0x5205 0

def twinConnActive (s : State) : Bool := (connOf s (twinCid s)).st = .active && isTwinCid s (twinCid s)

/-- Take an entry out of the mirror store. -/
def mirrorDrop (s : State) (k : Nat) : State :=
  match Tbl.find? s.twin.store k with
  | some e => ledgerRelease { s with twin := { s.twin with store := Tbl.erase s.twin.store k } } (mirrorPlace k) e.chain
  | none => s

/-- Take every entry out that meets a test. -/
def mirrorDropAll (s : State) (f : MirrorEntry → Bool) : State :=
  ((s.twin.store.filter fun r => f r.2).map Prod.fst).foldl mirrorDrop s

/-! ### Twin states (R367 to R369) -/

/-- Change the twin state. Outside the joined states protected operations go without a mirror under TWIN_UNPROT_MODE 1: event
0x0D09 once on entering that condition. Entry to JOINING discards the mirror store (R368). -/
def setTwin (s : State) (st : TwinSt) : State :=
  let was := twinJoined s
  let s := { s with twin := { s.twin with st := st, catching := false } }
  let s := if was && !twinJoined s && st ≠ .off && cfgv s 0x5207 0 = 1 then twinEvent s 0x0D09 (at_ 16 1) else s
  if st = .joining then
    let s := mirrorDropAll s fun _ => true
    { s with twin := { s.twin with conns := [], partial0 := [], partial1 := [], gone := false, claimWon := false, silentAt := none, leaseSince := false } }
  else s

/-- The protected connections of this half that are open. -/
def protectedConns (s : State) : List Nat :=
  (s.shu.conns.filter fun r => mirrors s r.1 && r.2.live).map Prod.fst

/-- The protected ledger entries, each connection's in sequence order. -/
def protectedEntries (s : State) : List Nat := (protectedConns s).flatMap fun c => (ledgerOf s c).map Prod.fst

/-- The catch-up starts once the twin connection is ACTIVE (R368). -/
def startCatchUp (s : State) : State :=
  let cs := protectedConns s
  let es := protectedEntries s
  let s := cs.foldl (fun s c => mirrorConn s c 1 true) s
  let s := es.foldl (fun s l => mirrorEntry s l true) s
  catchUpCheck { s with twin := { s.twin with catching := true, caughtUp := cs.length + es.length } }

/-- TWIN_ENABLE has been put in force (R358, R367): 1 leaves OFF for JOINING. A module with TWIN_ENABLE 0 takes part in no
pair and stands in OFF. -/
def twinCommitted (s : State) : State :=
  if cfgOn s 0x5201 0 then (if s.twin.st = .off then setTwin s .joining else s)
  else if s.twin.st = .off then s
  else ownerClose (setTwin s .off) (twinCid s)

/-- The twin's probes are seen on a twin link (R367, R373). -/
def twinProbes (s : State) : Bool :=
  (twinLinks s).any fun p => match Tbl.find? s.fab.probes p with
    | some x => x.gportValid && x.gport / 128 = twinMid s && !elapsed s x.since (20 * ms)
    | none => false

/-- TWIN_LINKS_ACTIVE, and a port held under R360: event 0x0D02 on a change. -/
def twinLinkCheck (s : State) : State :=
  let n := (twinLinks s).length
  let held := (List.range 128).any fun p => isTwinPort s p && (weftPort s p).link = .active && twinHeld s p
  if n = s.twin.linksTold && held = s.twin.heldTold then s
  else twinEvent { s with twin := { s.twin with linksTold := n, heldTold := held } } 0x0D02 (at_ 16 (n % 4) + at_ 24 (b2n held))

/-- The transitions of R367 that follow from links, the twin connection and the module's state. -/
def twinMove (s : State) : State :=
  match s.twin.st, s.module.state with
  | .off, _ => s
  | .fenced, .fenced => s
  | _, .fenced => setTwin s .fenced
  | .fenced, _ => setTwin s .joining
  | .protected_, _ =>
    if (twinLinks s).isEmpty then setTwin (twinEvent s 0x0D01 (at_ 16 1)) .unprotected
    else if !twinConnActive s then setTwin (twinEvent s 0x0D01 (at_ 16 2)) .unprotected
    else s
  | .unprotected, _ => if !(twinLinks s).isEmpty && twinConnActive s then setTwin s .joining else s
  | .alone, _ => if twinProbes s && (!fabricOn s || s.fab.admitted.contains (twinMid s)) then setTwin s .joining else s
  | _, _ => s

/-- A catch-up begins when the half is joining over an ACTIVE connection, and is begun again when that connection was lost. -/
def catchUpMove (s : State) : State :=
  match s.twin.st with
  | .joining =>
    if !twinConnActive s then { s with twin := { s.twin with catching := false } }
    else if s.twin.catching then s
    else startCatchUp s
  | _ => s

/-! ### Adoption (R372) -/

/-- The adopted contexts that are open: TWIN_ADOPTED 0x520D. -/
def adoptedConns (s : State) : List Nat := (s.shu.conns.filter fun r => 16384 ≤ r.1).map Prod.fst

/-- Every adopted context is closed: event 0x0D06. -/
def adoptionEnd (s : State) : State :=
  if s.twin.st = .adopting && s.twin.replaying && (adoptedConns s).isEmpty then
    let s := event s 0x0D06 0 (s.twin.lostMid % 1024 + at_ 16 (s.twin.contextsClosed % 65536))
    setTwin { s with twin := { s.twin with replaying := false }
                     fab := { s.fab with adoptedMid := none, recomputeSince := if s.fab.role = 2 then some s.now else s.fab.recomputeSince } } .alone
  else s

/-- What the twin block does after any step of the module. -/
def twinCheck (s : State) : State :=
  if cfgOn s 0x5201 0 then health (catchUpMove (adoptionEnd (twinMove (twinLinkCheck s)))) 0 else s

/-- The context that a mirrored CONN record gives, under the lost half's MID. -/
def adoptedContext (s : State) (cid : Nat) (m : MirrorConn) : State :=
  let w := leNat m.ctx
  let c := 16384 + cid
  let next := bits w 160 32
  let last := (s.twin.store.filter fun r => r.2.cid = cid).foldl (fun a r => if seqBefore a ((r.2.seq + 1) % 2 ^ 32) then (r.2.seq + 1) % 2 ^ 32 else a) next
  let opener := bits w 43 2 ≠ 2
  let x : Conn := { st := .active, peerMid := bits w 243 10, peerCid := bits w 229 14, tc := bits w 226 3, twin := true, autoResume := bit w 224,
                    retryLimit := bits w 220 4, txNext := last, rxE := bits w 96 32, cwnd := cfgv s 0x4202 1, ownerKind := 2, opener := opener,
                    keyEpoch := bits w 198 16, nonceI := m.nonceI, nonceR := m.nonceR, ctlTx := 2 ^ 62 - 1, ctlBase := 2 ^ 62, epochSeq := last,
                    adopted := true }
  let s := setConn s c x
  match secretFor s x.peerMid with
  | some k => setConn s c { x with keys := some (deriveKeys s c m.nonceI m.nonceR x.keyEpoch opener k) }
  | none => s

/-- Adopted contexts are set up for every mirrored connection. -/
def adoptContexts (s : State) : State := s.twin.conns.foldl (fun s r => adoptedContext s r.1 r.2) s

/-- A mirrored entry becomes a ledger entry of its adopted direction and is sent. -/
def replayEntry (s : State) (k : Nat) (m : MirrorEntry) : State :=
  match Tbl.firstFree s.shu.ledger 65536 with
  | none => s
  | some l =>
    let env : WireOp := { env := BitVec.ofNat 128 (leAt m.bytes 0 16), body := m.bytes.drop 16, tag := [] }
    let c := 16384 + m.cid
    let op : NewOp := { cid := c, typ := envTyp env, ord := envOrd env, acq := envAcq env, rel := envRel env, gen := envGen env,
                        head := leAt env.body 0 16, data := env.body.drop 16, srcPort := envSrc env % 128, dstPort := envDst env % 128 }
    let resident := (chainOf s m.chain).isSome
    let e : LedgerEntry := { cid := c, seq := m.seq, typ := op.typ, slots := opSlots op, chain := m.chain, place := if resident then 0 else 1, stamp := 0, op := op }
    let s := { s with twin := { s.twin with store := Tbl.erase s.twin.store k } }
    let s := match chainOf s m.chain with
      | some x => setChain s m.chain { x with ledger := some l }
      | none => { s with loom := { s.loom with beamLedger := Tbl.set (Tbl.erase s.loom.beamLedger (mirrorPlace k)) l
                                                          (Tbl.get s.loom.beamLedger (mirrorPlace k) []) } }
    let x := connOf s c
    sendEntry (setConn s c { x with replayed := x.replayed + 1 }) l e

/-- Mirrored entries in the order of replay: by connection, then in sequence order. -/
def replayOrder (s : State) : List (Nat × MirrorEntry) :=
  sortBy (fun a b =>
    a.2.cid < b.2.cid || (a.2.cid = b.2.cid && seqDiff (connOf s (16384 + a.2.cid)).txNext b.2.seq ≤ seqDiff (connOf s (16384 + a.2.cid)).txNext a.2.seq)) s.twin.store

/-- TWIN_REPLAY_START (R372): event 0x0D04, and every mirrored entry of an adopted direction is sent. -/
def replayStart (s : State) : State :=
  if s.twin.st = .adopting && !s.twin.replaying then
    let rs := (replayOrder s).filter fun r => (Tbl.find? s.shu.conns (16384 + r.2.cid)).isSome
    let s := { s with twin := { s.twin with replaying := true }, fab := { s.fab with adoptedMid := some s.twin.lostMid } }
    let s := count (event s 0x0D04 0 (s.twin.lostMid % 1024 + at_ 16 (rs.length % 2 ^ 32))) (ctrTwin 5) rs.length
    let s := rs.foldl (fun s r => replayEntry s r.1 r.2) s
    adoptionEnd ((adoptedConns s).foldl adoptedCheck s)
  else s

/-- TWIN_ADOPTION (R371, R372): the twin is declared lost for `cause`. -/
def twinDeclare (s : State) (cause : Nat) : State :=
  match s.twin.st with
  | .joining | .protected_ | .unprotected =>
    let s := twinEvent s 0x0D03 (at_ 16 cause)
    let s := { s with twin := { s.twin with lostMid := twinMid s, contextsClosed := 0, replaying := false } }
    let s := adoptContexts (setTwin s .adopting)
    let s := health s 0
    if fabricOn s then s else replayStart s
  | _ => s

/-! ### Records (R364, R365) -/

/-- Keep an ENTRY. -/
def mirrorStore (s : State) (cid seq : Nat) (data : List Byte) : State :=
  let s := mirrorDropAll s fun e => e.cid = cid && e.seq = seq
  match Tbl.firstFree s.twin.store 65536 with
  | none => s
  | some k =>
    let q := storeChain s 128 (cells data.length) false none
    let s := match chainOf q.1 q.2 with
      | some x => poolChanged (setChain q.1 q.2 { x with account := .ledger, ledger := some (mirrorPlace k), residentSince := s.now })
      | none => q.1
    { s with twin := { s.twin with store := Tbl.set s.twin.store k { cid := cid, seq := seq, bytes := data, chain := q.2 } } }

/-- What one record does. -/
def takeRecord (s : State) (head : Nat) (data : List Byte) : State :=
  let cid := bits head 97 14
  let seq := bits head 65 32
  let s := count s (ctrTwin 3) 1
  match bits head 124 4 with
  | 1 => mirrorStore s cid seq data
  | 2 => mirrorDropAll s fun e => e.cid = cid && (e.seq + 2 ^ 32 - seq) % 2 ^ 32 < bits head 55 10
  | 3 =>
    if bits head 51 4 = 4 then
      let s := mirrorDropAll s fun e => e.cid = cid
      { s with twin := { s.twin with conns := Tbl.erase s.twin.conns cid } }
    else
      let m : MirrorConn := { ctx := data.take 40, nonceI := leAt data 40 8, nonceR := leAt data 48 8 }
      { s with twin := { s.twin with conns := Tbl.set s.twin.conns cid m } }
  | 4 => { s with twin := { s.twin with gone := true } }
  | _ => s

/-- Take every whole record from the bytes of a class. -/
def takeRecords : Nat → State → List Byte → State × List Byte
  | 0, s, bs => (s, bs)
  | fuel + 1, s, bs =>
    let head := leAt bs 0 16
    let n := bits head 111 13
    if bs.length < 16 || bs.length < 16 + n then (s, bs)
    else takeRecords fuel (takeRecord s head ((bs.drop 16).take n)) (bs.drop (16 + n))

/-- The oldest received WRITE of the twin connection continues or completes records of its class. -/
def takeMirror (s : State) : State :=
  match s.twin.inbox with
  | [] => s
  | (ord, bs) :: rest =>
    let s := { s with twin := { s.twin with inbox := rest } }
    let all := (if ord % 2 = 0 then s.twin.partial0 else s.twin.partial1) ++ bs
    let r := takeRecords (all.length + 1) s all
    if ord % 2 = 0 then { r.1 with twin := { r.1.twin with partial0 := r.2 } } else { r.1 with twin := { r.1.twin with partial1 := r.2 } }

/-- The runs of consecutive sequence numbers of one connection's releases, at most 768 to a record. -/
def releaseRuns : List Nat → List (Nat × Nat)
  | [] => []
  | q :: qs =>
    match releaseRuns qs with
    | (a, n) :: rs => if a = (q + 1) % 2 ^ 32 && n < 768 then (q, n + 1) :: rs else (q, 1) :: (a, n) :: rs
    | [] => [(q, 1)]

/-- RELEASE records of the entries released since the last ones (R364). -/
def sendReleases (s : State) : State :=
  let rs := s.twin.releases
  let s := { s with twin := { s.twin with releases := [] } }
  if !twinJoined s then s
  else
    (rs.map Prod.fst).dedup.foldl (fun s c =>
      (releaseRuns ((rs.filter fun r => r.1 = c).map Prod.snd)).foldl (fun s q => presentRecord s 2 c q.1 q.2 0 [] none false) s) s

/-- TWIN_GONE_SEND (R364): the half is about to stop forwarding. -/
def twinGoneSend (s : State) : State := if twinJoined s then presentRecord s 4 0 0 0 0 [] none false else s

/-- GONE at once, on entry to RECOVERY when the twin link can still carry it: the treadle accepts and sends it before forwarding stops
(R364; DEDUCED, log entry 124). -/
def twinGoneNow (s : State) : State :=
  if !(twinJoined s && twinConnActive s) then s
  else
    let n := s.shu.waiting.length
    let s := presentRecord s 4 0 0 0 0 [] none false
    match s.shu.waiting[n]?, Tbl.firstFree s.shu.ledger 65536 with
    | some op, some l =>
      let s := assign (unwait s op) op l none
      match Tbl.find? s.shu.ledger l with
      | some e =>
        let o := entryOp s e
        match egressOf s e.cid o, sealOwn s e.cid o with
        | some d, some w => emit s (.oper d { w with env := BitVec.ofNat 128 (putBits w.env.toNat 16 4 1) })
        | _, _ => s
      | none => s
    | _, _ => s

/-! ### The mirror rate (R366) -/

/-- Mirror traffic is bounded by 2,976 Gb/s for each ACTIVE twin link. -/
def mirrorBound (s : State) : Nat := 2976 * (twinLinks s).length

/-- The end of a 1 ms span of the mirror rate: TWIN_MIRROR_GBPS, and event 0x0D0A after 10 ms above 95 % of the bound. -/
def mirrorRateAlert (s : State) : State :=
  if !cfgOn s 0x5201 0 || !elapsed s s.twin.rateAt ms then s
  else
    let g := s.twin.rateBytes * 8 / (s.now - s.twin.rateAt)
    let high := mirrorBound s * 95 < g * 100
    let since := if high then (match s.twin.highSince with | some t => some t | none => some s.twin.rateAt) else none
    let s := { s with twin := { s.twin with gbps := g, rateBytes := 0, rateAt := s.now, highSince := since, highTold := high && s.twin.highTold } }
    if elapsedOpt s since (10 * ms) && !s.twin.highTold then
      twinEvent { s with twin := { s.twin with highTold := true } } 0x0D0A (at_ 16 (g % 2 ^ 32))
    else s

end Sys2Proof.Machine
end

