-- ==== Sys2Proof/Machine/Harmir.lean ====
section
/-!
DEFINITION. Messages on Harmir as they leave the module (R459, R464 to R468): the header, the tag, segments in CAN FD frames,
and the messages tagged under the bus secret.
-/

namespace Sys2Proof.Machine

/-- The 12-byte header of a message (R459). -/
def msgHeader (typ tagId session len counter : Nat) : List Byte :=
  leBytes 12 (typ % 256 + at_ 8 (tagId % 256) + at_ 16 (len % 65536) + at_ 32 (session % 65536) + at_ 64 (counter % 2 ^ 32))

/-- TAG of a message (R456). -/
def msgTag (k : List Byte) (header body : List Byte) : List Byte := (hmac384 k (header ++ body)).take 16

/-- A CAN FD data field: the smallest length that holds `bs`, filled with 0 (R466). -/
def canData (bs : List Byte) : List Byte :=
  let n := bs.length
  fitBytes (if n ≤ 8 then n else if n ≤ 12 then 12 else if n ≤ 16 then 16 else if n ≤ 20 then 20 else if n ≤ 24 then 24 else if n ≤ 32 then 32
    else if n ≤ 48 then 48 else 64) bs

/-- The frames of a message, each with its segment byte. -/
def segments : Nat → Nat → List Byte → List (List Byte)
  | 0, _, _ => []
  | fuel + 1, i, bs =>
    let last := bs.length ≤ 63
    let b := (if i = 0 then 128 else 0) + (if last then 64 else 0) + i % 64
    canData (leBytes 1 b ++ bs.take 63) :: (if last then [] else segments fuel (i + 1) (bs.drop 63))

/-- The 29-bit identifier (R465). -/
def canIdent (prio typ tagId dst src : Nat) : Nat :=
  at_ 26 (prio % 8) + at_ 21 (typ % 32) + at_ 16 (tagId % 32) + at_ 8 (dst % 256) + src % 256

/-- `CAN_STBY` is high where Harmir is not in use or the module has no supply (R464). -/
def canStby (s : State) : Bool := !cfgOn s 0x1120 3 || s.module.state = .off

/-- Harmir is in use and the controller is not in bus-off. -/
def harmirOn (s : State) : Bool := cfgOn s 0x1120 3 && !s.mgmt.canOff

/-- Send a whole message to a node. -/
def harmirSend (s : State) (prio typ tagId dst : Nat) (bs : List Byte) : State :=
  if harmirOn s then
    let fs := segments 70 0 bs
    emitAll (count (count s (ctrMgmt 4) 1) (ctrMgmt 9) fs.length) (fs.map fun f => .can (canIdent prio typ tagId dst (cfgv s 0x1120 1)) f)
  else s

def busSecret (s : State) : List Byte := leBytes 32 (Tbl.get s.vault.secrets (key 0x1102 0) 0)

/-- Send a message tagged under the bus secret, with the next bus count (R468). `body` is what follows BOOT_COUNT. -/
def busSend (s : State) (typ tagId dst : Nat) (body : List Byte) : State :=
  let n := (s.mgmt.busCount + 1) % 2 ^ 32
  let s := { s with mgmt := { s.mgmt with busCount := n } }
  let b := leBytes 4 s.module.bootCount ++ body
  let h := msgHeader typ tagId 0 b.length n
  harmirSend s 0 typ tagId dst (h ++ b ++ msgTag (busSecret s) h b)

/-- The heartbeat body after its BOOT_COUNT (R468). -/
def heartbeatBody (s : State) (auth : Bool) : List Byte :=
  leBytes 16 (cfgv s 0x4100 2 % 2 ^ 32 + at_ 32 (cfgv s 0x5204 0 % 2 ^ 32) + at_ 64 (b2n auth) + at_ 65 (cfgv s 0x1121 0 % 2) +
    at_ 66 (cfgv s 0x5202 0 % 2) + at_ 67 (s.fab.role % 4) + at_ 69 (if midValid s then cfgv s 0x4100 1 else 0) + at_ 79 (b2n (midValid s)) +
    at_ 96 s.module.state.code + at_ 104 (s.fab.term % 2 ^ 24))

/-- Send a heartbeat: tagged from BOOT onward, untagged by the supervisor (R468). -/
def sendHeartbeat (s : State) (dst tagId : Nat) : State :=
  if supervisorOnly s then
    let b := leBytes 4 0 ++ heartbeatBody s false
    harmirSend s 0 0 tagId dst (msgHeader 0 tagId 0 b.length 0 ++ b)
  else busSend s 0 tagId dst (heartbeatBody s true)

/-- The heartbeat of a node that shows MID `m` has come within the last 20 ms, tagged. -/
def heartbeatOf (s : State) (m : Nat) : Bool :=
  s.mgmt.heard.any fun r => !elapsed s r.2.1 (20 * ms) && bit r.2.2 79 && bits r.2.2 69 10 = m

/-- LEASE to the witness: kind, identity, holder and term (R478). -/
def sendLease (s : State) (kind ident term : Nat) : State :=
  busSend s 0x0D 0 (cfgv s 0x4102 1) (leBytes 1 kind ++ leBytes 4 ident ++ leBytes 2 (ownMid s) ++ leBytes 4 term)

/-- CLAIM to the witness (R479). -/
def sendClaim (s : State) (kind ident term : Nat) : State :=
  busSend s 0x0F 0 (cfgv s 0x4102 1) (leBytes 1 kind ++ leBytes 4 ident ++ leBytes 2 (ownMid s) ++ leBytes 4 term)

end Sys2Proof.Machine
end

