-- ==== Sys2Proof/Machine/Fabric.lean ====
section
/-!
DEFINITION. Fabric mode (chapter 7): operations as they arrive on a port, probes and beacons, fabric time, local path repair,
FABRIC_CTL messages at a member, and FENCED.
-/

namespace Sys2Proof.Machine

/-! ### Path sets (R198, R207, R211) -/

def linkUp (s : State) (p : Nat) : Bool := isWeft s p && (weftPort s p).link = .active

/-- The peer of a port, as its TS1 or its probes show it, when it has a MID. -/
def peerMidOf (s : State) (p : Nat) : Option Nat :=
  match Tbl.find? s.fab.probes p with
  | some x => if x.gportValid then some (x.gport / 128) else none
  | none => if bit (weftPort s p).peer 31 then some ((weftPort s p).peer % 131072 / 128) else none

/-- The peer's global port as last seen, or 0. -/
def peerGport (s : State) (p : Nat) : Nat :=
  match Tbl.find? s.fab.probes p with
  | some x => x.gport
  | none => (weftPort s p).peer % 131072

/-- The probes of both ends agree (R198). -/
def probesAgree (s : State) (p : Nat) : Bool :=
  match Tbl.find? s.fab.probes p with
  | some x => fabricOn s && x.fabricId = cfgv s 0x4100 2 && x.gportValid && midValid s && !x.fenced && s.module.state ≠ .fenced
  | none => false

/-- The port is held out of path sets: its peer shows another FABRIC_ID (R198), or a twin port's peer another MID (R360). -/
def heldOut (s : State) (p : Nat) : Bool :=
  match Tbl.find? s.fab.probes p with
  | some x => x.fabricId ≠ cfgv s 0x4100 2 || (isTwinPort s p && twinHeld s p)
  | none => false

/-- Some path set of the written bank holds the port. -/
def inPathSets (s : State) (p : Nat) : Bool := s.fab.active.any fun r => r.2.valid && r.2.ports.contains p

/-! ### FABRIC_CTL messages (R195, R196) -/

def CtlMsg.bytes (m : CtlMsg) : List Byte :=
  leBytes 16 (m.code % 256 + at_ 32 (b2n m.response) + at_ 33 (b2n m.directed) + at_ 40 (m.status % 256) + at_ 48 m.data.length +
    at_ 64 (m.term % 2 ^ 32) + at_ 96 (m.reqId % 2 ^ 32)) ++ m.data

/-- Send a message on a connection of this module. -/
def ctlOn (s : State) (c : Nat) (m : CtlMsg) : State := present s { cid := c, typ := 13, data := m.bytes, acq := false }

/-- The key that seals a directed message between this module and a peer (R196, R257): the open key of the two, under the join
secret while one of them has no MID. ASSIGN_MID and its answer are always under the join secret. DESIGN CHOICE (log entry 9): a
connection that no route carries has no keys of its own yet. -/
def directedKey (s : State) (code peer : Nat) : Option (List Byte) :=
  let own := if code = 2 && s.fab.role ≠ 2 then 65535 else ownMid s
  let peer := if code = 2 && s.fab.role = 2 then 65535 else peer
  match Tbl.find? s.vault.secrets (if code = 2 || !midValid s || 1024 ≤ peer then key 0x4211 0 else pairKey peer) with
  | some v => some (openKey (leBytes 32 v) own peer)
  | none => none

/-- The content of a directed message as it is sealed, after the path: a fresh nonce, the ciphertext, the tag. The header is
authenticated with it. Without a healthy entropy source there is no nonce, and nothing is sent (R494). -/
def sealDirected (s : State) (peer : Nat) (path : List Byte) (m : CtlMsg) : Option (State × CtlMsg) :=
  match directedKey s m.code peer, s.vault.entropyOk with
  | none, _ => none
  | some _, false => none
  | some k, true =>
    let n := (drawn s).toNat % 2 ^ 64
    let m := { m with directed := true }
    let head := ({ m with data := path ++ leBytes 8 n ++ m.data ++ List.replicate 16 0 } : CtlMsg).bytes.take 16
    let c := gcmSeal k (ctlNonce n) head m.data
    some (afterDraw s, { m with data := path ++ leBytes 8 n ++ c.1 ++ c.2 })

/-- The content of a directed message is opened: none when its tag is wrong, or no secret is at hand. -/
def openDirected (s : State) (peer : Nat) (m : CtlMsg) : Option CtlMsg :=
  let d := m.data.drop 8
  match directedKey s m.code peer with
  | none => none
  | some k =>
    if d.length < 24 then none
    else
      match gcmOpen k (ctlNonce (leAt d 0 8)) (m.bytes.take 16) ((d.drop 8).take (d.length - 24)) (d.drop (d.length - 16)) with
      | some pt => some { m with data := m.data.take 8 ++ pt }
      | none => none

/-- Send a directed message of this module out of a port: on the wire its source and its destination are one global port, that of
the sender (log entry 9), and its CID is that of the sender's management connection (R185). -/
def ctlOut (s : State) (p peer : Nat) (m : CtlMsg) : State :=
  let g := ownMid s % 1024 * 128
  let cid := if s.fab.role = 2 then 15360 + peer % 1024 else 0
  launchPort s p { env := BitVec.ofNat 128 { typ := 13, cid := cid, src := g, dst := g, stamp := stampNow s : EnvFields }.word
                   body := m.bytes, tag := [] }

/-- The path bytes of a directed message: length, index, six slots. -/
def pathBytes (i : Nat) (ps : List Nat) : List Byte := leBytes 1 ps.length ++ leBytes 1 i ++ fitBytes 6 (ps.map fun p => BitVec.ofNat 8 p)

def pathLen (m : CtlMsg) : Nat := leAt m.data 0 1
def pathIdx (m : CtlMsg) : Nat := leAt m.data 1 1
def pathSlot (m : CtlMsg) (i : Nat) : Nat := leAt m.data (2 + i) 1

/-- A directed message with its index, and one slot, replaced. -/
def withPath (m : CtlMsg) (i slot v : Nat) : CtlMsg :=
  let d := m.data.set 1 (BitVec.ofNat 8 i)
  { m with data := if slot < 6 then d.set (2 + slot) (BitVec.ofNat 8 v) else d }

/-- The content of a message, after the path of a directed one. -/
def CtlMsg.content (m : CtlMsg) : List Byte := if m.directed then m.data.drop 8 else m.data

/-- Send a directed message along a path of ports from this module to `peer`. -/
def ctlAlong (s : State) (ps : List Nat) (peer : Nat) (m : CtlMsg) : State :=
  match ps with
  | [] => s
  | p :: _ =>
    match sealDirected s peer (pathBytes 1 ps) m with
    | some (s, m) => ctlOut s p peer m
    | none => s

/-- Send a directed message or response of this module one hop back. -/
def ctlBack (s : State) (peer : Nat) (m : CtlMsg) : State :=
  let i := pathIdx m
  if i = 0 then s else ctlOut s (pathSlot m (i - 1)) peer (withPath m (i - 1) 6 0)

/-- Answer a FABRIC_CTL message by the way it came. -/
def ctlRespond (s : State) (m : CtlMsg) (status : Nat) (content : List Byte) : State :=
  let r : CtlMsg := { m with response := true, term := s.fab.term, status := status, data := content }
  if m.directed then
    match sealDirected s m.peer (m.data.take 8) r with
    | some (s, r) => ctlBack s m.peer r
    | none => s
  else ctlOn s (if s.fab.role = 2 then 15360 + m.peer else 0) r

/-- A message of a member to the master: on C0 when that is ACTIVE, else by the way back of the last directed message. -/
def ctlToMaster (s : State) (code : Nat) (data : List Byte) : State :=
  let m : CtlMsg := { code := code, reqId := s.fab.nextReq, term := s.fab.term, data := data }
  let s := { s with fab := { s.fab with nextReq := (s.fab.nextReq + 1) % 2 ^ 32 } }
  if (connOf s 0).st = .active then ctlOn s 0 m else ctlAlong s s.fab.masterPath (s.fab.master.getD 65535) m

/-- MEMBER_REPORT (R197, log entry 10): 1 port left path sets, 2 port joined, 3 destination unreachable, 4 fenced peer, 5 adopted
MID, 6 peer of the other master `mid`, 7 adoption ended, 8 imported upstream port of partition `mid`. A master that reports to
itself acts at once. -/
def memberReport (s : State) (kind port mid term : Nat) : State :=
  if s.fab.role = 2 then
    let self : CtlMsg := { code := 0x0A, term := s.fab.term, peer := ownMid s, data := leBytes 1 kind ++ leBytes 1 port ++ leBytes 2 mid ++ leBytes 4 term }
    { s with fab := { s.fab with ctl := s.fab.ctl ++ [self] } }
  else ctlToMaster s 0x0A (leBytes 1 kind ++ leBytes 1 port ++ leBytes 2 mid ++ leBytes 4 term)

/-! ### Local path repair (R211) -/

/-- LOCAL_PATH_REPAIR: a port leaves every path set; destinations it leaves without a path are reported too. -/
def pathRemoved (s : State) (p cause : Nat) : State :=
  if !isWeft s p || isTwinPort s p || s.fab.repaired.contains p || !fabricOn s then s
  else
    let had := (s.fab.active.filter fun r => (effective s r.2).valid && !r.2.isLocal).map Prod.fst
    let s := { s with fab := { s.fab with repaired := s.fab.repaired ++ [p], joined := s.fab.joined.filter fun q => q ≠ p } }
    let s := event s 0x0509 p (at_ 16 p + at_ 24 (cause % 256))
    let lost := had.filter fun m => !(routeEntry s m).valid
    lost.foldl (fun s m => memberReport s 3 p m 0) (memberReport s 1 p 1023 0)

/-- The port is back in path sets: its link is ACTIVE and its probes agree. -/
def pathRestored (s : State) (p : Nat) : State :=
  if s.fab.repaired.contains p && linkUp s p && probesAgree s p then
    let s := { s with fab := { s.fab with repaired := s.fab.repaired.filter fun q => q ≠ p, joined := s.fab.joined ++ [p] } }
    memberReport (event s 0x050A p (at_ 16 p)) 2 p ((peerMidOf s p).getD 1023) 0
  else if linkUp s p && probesAgree s p && !isTwinPort s p && !s.fab.joined.contains p then
    memberReport { s with fab := { s.fab with joined := s.fab.joined ++ [p] } } 2 p ((peerMidOf s p).getD 1023) 0
  else s

/-- Items queued to a port are losses, and what it relays ends (R178, R211). -/
def dropQueue (s : State) (p : Nat) : State :=
  let q := queueOf s p
  let s := q.foldl releaseItem (setQueue s p [])
  ((weftPort s p).out.filterMap fun o => o.relay).foldl (fun s i => endRelay s p i) s

/-- The probes of a port no longer agree: it is removed as in the DOWN case (R211). -/
def probesStopped (s : State) (p : Nat) : State :=
  if s.fab.joined.contains p && !s.fab.repaired.contains p then dropQueue (pathRemoved s p 0) p else s

/-! ### FENCED (R222, R223) -/

/-- FENCED_ENTRY: only from SERVICE and DEGRADED (R18). -/
def fencedEntry (s : State) (cause : Nat) : State :=
  match s.module.state with
  | .service | .degraded =>
    let s := event s 0x0506 0 (at_ 16 cause)
    let s := { s with fab := { s.fab with splitCount := (s.fab.splitCount + 1) % 2 ^ 32, role := if s.fab.role = 2 then 1 else s.fab.role, claimAt := none
                                          resyncing := false } }
    twinCheck (changeState s .fenced 0x0506)
  | _ => s

/-- Leaving FENCED: event 0x0507, to SERVICE or DEGRADED; a step of fabric time is allowed (R216). -/
def fencedExit (s : State) : State :=
  match s.module.state with
  | .fenced =>
    let s := event s 0x0507 0 (at_ 32 (s.fab.term % 2 ^ 32))
    let s := { s with fab := { s.fab with splitAt := none, claimAt := none, mayStep := true, fencedReported := [], resyncing := false } }
    twinCheck (changeState s (if degraded s then .degraded else .service) 0x0507)
  | _ => s

/-! ### Operations arriving on a port (R190) -/

/-- The operation that the bytes of its slots carry. The length of a sequenced one is known only once it is opened: its bytes
stay together in the body. -/
def arrivedOp (bs : List Byte) : WireOp :=
  let env := BitVec.ofNat 128 (leAt bs 0 16)
  let rest := bs.drop 16
  let t := bits env.toNat 4 4
  let n := if t = 12 then 48 else if 8 ≤ t && t ≤ 14 && t ≠ 13 then 32 else rest.length
  { env := env, body := rest.take n, tag := if t = 12 || n = rest.length then [] else (rest.drop n).take 16 }

/-- A directed message on the wire. -/
def isDirected (o : WireOp) : Bool := envTyp o = 13 && envSrc o = envDst o

/-- An operation of `n` bytes has come in by a port: its counters, and the filters at the ingress. -/
def arrivalCounted (s : State) (p : Nat) (o : WireOp) (n : Nat) : State :=
  filterItem (count (count s (ctrPort p 12) 1) (ctrPort p 14) (ceilDiv n 64)) 1 (operFilter o n)

/-- FABRIC_OP_CHECK (R190): the first check that fails decides. An operation for this module keeps its bobbins, and its credits at
the link, until the shuttle is done with it (R155). -/
def fabricArrive (s : State) (p tc : Nat) (bs : List Byte) : State :=
  let o := arrivedOp bs
  let slots := ceilDiv bs.length 64
  let s := arrivalCounted s p o bs.length
  let freed := fun (s : State) => weftRelease s p tc slots
  let drop := fun (s : State) => count (freed s) (ctrPort p 19) 1
  if envVersion o ≠ 1 || envTyp o = 15 then
    drop (rateEvent s 0x0513 p ms fun s _ => event s 0x0513 p (at_ 16 p + at_ 24 (envVersion o) + at_ 28 (envTyp o)))
  else if heldOut s p && envTyp o ≠ 12 then drop s
  else if envTyp o = 12 || envTyp o = 14 || isDirected o then freed { s with fab := { s.fab with inbox := s.fab.inbox ++ [(p, o)] } }
  else if isOwnMid s (envDst o / 128) then
    let q := storeChain s p (cells bs.length) false (some (p, tc, slots))
    { q.1 with shu := { q.1.shu with inbox := q.1.shu.inbox ++ [{ op := o, chain := some q.2, src := p }] } }
  else if s.module.state = .fenced || !forwards s then drop s
  else
    match routePort s o 0 with
    | none => count (freed (noRoute s (envDst o / 128))) (ctrPort p 21) 1
    | some d =>
      let q := storeChain s p (cells bs.length) false (some (p, tc, slots))
      enqueueOper q.1 d p q.2 bs.length o none

/-! ### Probes (R193, R198, R224) -/

/-- The master that this module follows. -/
def masterField (s : State) : Nat :=
  match s.fab.master with
  | some m => m % 1024
  | none => at_ 31 1

/-- The highest mastership term the module knows (R193, R225): its own, those of its peers' probes, and those it has been told. -/
def highestTerm (s : State) : Nat := s.fab.probes.foldl (fun t r => max t r.2.term) (max s.fab.term s.fab.high)

/-- A term is heard of. -/
def noteTerm (s : State) (t : Nat) : State := { s with fab := { s.fab with high := max s.fab.high t } }

/-- LINK_PROBE_SEND (R193): on entry to ACTIVE and every 1 ms. T_TX is written as the probe leaves the pins. -/
def linkProbeSend (p : Nat) (s : State) : State :=
  let due := match Tbl.find? s.fab.probeAt p with
    | some t => elapsed s t ms
    | none => true
  if !(linkUp s p && due) then s
  else
    let n := Tbl.get s.fab.probesSent p 0
    let last := Tbl.find? s.fab.probes p
    let body := leBytes 48 (at_ 72 (s.fab.role % 4) + at_ 74 (candidateOf s (ownMid s)) + at_ 77 (b2n (s.module.state = .fenced)) +
      at_ 78 (b2n (midValid s)) + at_ 79 (gport s p) + at_ 96 (masterField s) + at_ 128 (highestTerm s % 2 ^ 32) + at_ 160 (cfgv s 0x4100 2) +
      at_ 192 ((match last with | some x => x.t4 | none => 0) % 2 ^ 64) + at_ 256 ((match last with | some x => x.tTx | none => 0) % 2 ^ 64))
    let env := { typ := 12, seq := n, src := gport s p, dst := peerGport s p, stamp := stampNow s : EnvFields }.word
    let s := { s with fab := { s.fab with probesSent := Tbl.set s.fab.probesSent p ((n + 1) % 2 ^ 32), probeAt := Tbl.set s.fab.probeAt p s.now } }
    launchPort s p { env := BitVec.ofNat 128 env, body := body, tag := [] }

def execLinkProbeSend (p : Port) (s : State) : Host.Outcome State Fault Refusal := .next (linkProbeSend p s)

/-- Take the oldest operation of a kind from the ports. -/
def takePort (s : State) (f : WireOp → Bool) : Option (State × Nat × WireOp) :=
  match s.fab.inbox.find? fun r => f r.2 with
  | some r => some ({ s with fab := { s.fab with inbox := s.fab.inbox.erase r } }, r.1, r.2)
  | none => none

def probeOf (s : State) (w : Nat) : Probe :=
  { t4 := s.ft, since := s.now, tTx := bits w 320 64, echo1 := bits w 256 64, echo2 := bits w 192 64, fabricId := bits w 160 32,
    term := bits w 128 32, master := if bit w 127 then none else some (bits w 96 10), gport := bits w 79 17, gportValid := bit w 78,
    fenced := bit w 77, candPos := bits w 74 3, role := bits w 72 2 }

/-- The link delay of a probe exchange (R214): none before the peer has echoed a probe. -/
def probeDelay (x : Probe) : Option Nat :=
  if x.echo1 = 0 then none
  else some ((((x.t4 : Int) - x.echo1) - ((x.tTx : Int) - x.echo2)) / 2).toNat

/-- What a probe shows that the treadle acts on: another FABRIC_ID, the own MID, a fenced peer, a peer of another master. -/
def probeActs (s : State) (p : Nat) (old : Option Probe) (x : Probe) : State :=
  let changed := match old with
    | some o => o.fabricId ≠ x.fabricId
    | none => true
  let s := if x.fabricId ≠ cfgv s 0x4100 2 && changed then event s 0x0514 p (at_ 16 p + at_ 32 x.fabricId) else s
  let same := x.gportValid && midValid s && x.gport / 128 = ownMid s
  let was := match old with
    | some o => o.gportValid && o.gport / 128 = ownMid s
    | none => false
  let s := if same && !was then event s 0x050D p (ownMid s % 1024 + at_ 16 p) else s
  let s := if probesAgree s p then pathRestored s p else probesStopped s p
  let other := match x.master, s.fab.master with
    | some m, some n => m ≠ n
    | _, _ => false
  if fabricOn s && x.fabricId = cfgv s 0x4100 2 && s.module.state ≠ .fenced && x.gportValid && (x.fenced || other) then
    let k := p + (if x.fenced then 0 else 128)
    if s.fab.fencedReported.contains k then s
    else
      memberReport { s with fab := { s.fab with fencedReported := s.fab.fencedReported ++ [k] } } (if x.fenced then 4 else 6) p
        (if x.fenced then x.gport / 128 else x.master.getD 1023) x.term
  else { s with fab := { s.fab with fencedReported := s.fab.fencedReported.filter fun q => q % 128 ≠ p } }

/-- LINK_PROBE_RECEIVE (R193). -/
def linkProbeReceive (s : State) : State :=
  match takePort s fun o => envTyp o = 12 with
  | none => s
  | some (s, p, o) =>
    let x := probeOf s (leNat o.body)
    let old := Tbl.find? s.fab.probes p
    let s := count s (ctrPort p 16) 1
    let s := { s with fab := { s.fab with
      probes := Tbl.set s.fab.probes p x, high := max s.fab.high x.term
      delay := match probeDelay x with
        | some d => Tbl.set s.fab.delay p (d % 65536)
        | none => s.fab.delay } }
    twinCheck (probeActs s p old x)

def execLinkProbeReceive (s : State) : Host.Outcome State Fault Refusal := .next (linkProbeReceive s)

/-! ### Link keys and beacons (R194, R214, R263, R362) -/

/-- A port in ACTIVE derives its link key from the nonces of its training and the pair secret of its peer. -/
def deriveLinkKey (s : State) (p : Nat) : State :=
  let x := weftPort s p
  if (Tbl.find? s.shu.linkKeys p).isSome || !linkUp s p then s
  else
    match x.peerNonce, peerMidOf s p with
    | some n, some m =>
      match secretFor s m with
      | some k =>
        let lead := x.nonce < n
        let key := linkKey k (if lead then x.nonce else n) (if lead then n else x.nonce) (gport s p) (x.peer % 131072)
        { s with shu := { s.shu with linkKeys := Tbl.set s.shu.linkKeys p key } }
      | none => s
    | _, _ => s

/-- The other ports that carry beacons: weft ports in fabric mode, twin ports outside it. -/
def beaconPorts (s : State) : List Nat := (List.range 128).filter fun p => linkUp s p && (if fabricOn s then !isTwinPort s p else isTwinPort s p && !twinHeld s p)

/-- Send a beacon on one port that has its link key: T_TX and the tag are written as it leaves the pins. -/
def beaconOut (s : State) (p : Nat) (w : Nat) : State :=
  if (Tbl.find? s.shu.linkKeys p).isNone then s
  else
    let env := { typ := 14, seq := s.fab.beaconSeq, src := gport s p, dst := peerGport s p, stamp := stampNow s : EnvFields }.word
    let s := { s with fab := { s.fab with beaconSeq := (s.fab.beaconSeq + 1) % 2 ^ 32 } }
    launchPort s p { env := BitVec.ofNat 128 env, body := leBytes 32 (w % 2 ^ 192), tag := List.replicate 16 0 }

/-- Candidates that are live members, a bit each: this module, and those heard within 20 ms. -/
def aliveCandidates (s : State) : Nat :=
  ((List.range 4).map fun i =>
    let m := cfgv s 0x4101 (i + 1)
    let live := m < 1024 && (m = ownMid s || heartbeatOf s m || s.fab.members.any fun r => r.1 = m && !elapsed s r.2.heardAt (20 * ms))
    at_ i (b2n live)).sum

/-- BEACON_SEND (R194, R362): every 1 ms by the master, or by the SENIOR half outside fabric mode. -/
def beaconSend (s : State) : State :=
  if !elapsed s s.fab.beaconSentAt ms then s
  else if fabricOn s && s.fab.role = 2 && s.module.state ≠ .fenced then
    let w := ownMid s % 1024 + at_ 86 (b2n s.fab.witnessOk) + at_ 87 (b2n s.fab.ppsLocked) + at_ 92 (aliveCandidates s) + at_ 96 (cfgv s 0x4100 2) +
      at_ 128 s.fab.epoch + at_ 160 (s.fab.term % 2 ^ 32)
    (beaconPorts s).foldl (fun s p => beaconOut s p w) { s with fab := { s.fab with beaconSentAt := s.now, alive := aliveCandidates s } }
  else if !fabricOn s && cfgOn s 0x5201 0 && cfgv s 0x5202 0 = 0 then
    let w := ownMid s % 1024 + at_ 96 (cfgv s 0x5204 0) + at_ 160 (s.module.bootCount % 2 ^ 32)
    (beaconPorts s).foldl (fun s p => beaconOut s p w) { s with fab := { s.fab with beaconSentAt := s.now } }
  else s

def execBeaconSend (s : State) : Host.Outcome State Fault Refusal := .next (beaconSend s)

/-- The JUNIOR follows a new TERM of its SENIOR: its context of the twin connection is closed with the step (R362). -/
def juniorStepped (s : State) : State :=
  if !fabricOn s && cfgOn s 0x5201 0 then { s with shu := { s.shu with conns := Tbl.erase s.shu.conns (twinCid s) } } else s

/-- Fabric time is locked or unlocked by the offsets of successive beacons (R214). -/
def lockCheck (s : State) (off : Int) : State :=
  let small := -10 ≤ off && off ≤ 10
  let big := off < -30 || 30 < off
  let i := if small then s.fab.inTol + 1 else 0
  let o := if big then s.fab.outTol + 1 else 0
  let s := { s with fab := { s.fab with inTol := i, outTol := o } }
  let info := at_ 16 (ofI32 off)
  if !s.fab.locked && 10 ≤ i then event { s with fab := { s.fab with locked := true } } 0x0510 0 info
  else if s.fab.locked && 3 ≤ o then event { s with fab := { s.fab with locked := false } } 0x0512 0 info
  else s

/-- FT_STEP and steering (R214, R216): a step of more than 1 µs where one is allowed, else a rate that removes the offset in
1 ms, within 200 ppm (log entry 12). -/
def followTime (s : State) (p tTx : Nat) : State :=
  let off : Int := (tTx : Int) + Tbl.get s.fab.delay p 0 - s.ft
  let s := { s with fab := { s.fab with offset := off } }
  let step := s.fab.mayStep && (off < -1000 || 1000 < off)
  let s := { s with fab := { s.fab with mayStep := false } }
  if step then
    let s := event { s with ft := ((s.ft : Int) + off).toNat, fab := { s.fab with steer := 0 } } 0x0511 0 (at_ 16 (off % 2 ^ 48).toNat)
    juniorStepped (lockCheck s off)
  else lockCheck { s with fab := { s.fab with steer := max (-200) (min 200 off) } } off

/-- The time parent: among the ports that deliver the current term with the lowest HOPS, the lowest-numbered (R194). -/
def timeParentOf (s : State) : Option Nat :=
  let live := s.fab.beacons.filter fun r => linkUp s r.1 && r.2.term = s.fab.term && !elapsed s r.2.since (20 * ms)
  match live.foldl (fun b r => match b with
    | some (q : Nat × BeaconSeen) => if r.2.hops < q.2.hops then some r else some q
    | none => some r) none with
  | some r => some r.1
  | none => none

/-- Follow a master and its term: event 0x0501 on a change. -/
def followMaster (s : State) (m term : Nat) : State :=
  let new := s.fab.master ≠ some m || s.fab.term ≠ term
  let s := { s with fab := { s.fab with master := some m, term := term, role := 1, splitAt := none, claimAt := none, high := max s.fab.high term } }
  if new then event { s with fab := { s.fab with importsTold := [], fencedReported := [] } } 0x0501 0 (m % 1024 + at_ 32 term) else s

/-- A beacon as a member sends it on: HOPS one higher, reserved bits 0 (R6, R194). -/
def beaconOn (w : Nat) : Nat := putBits (bits w 0 10 + at_ 86 (bits w 86 106)) 88 4 (bits w 88 4 + 1)

/-- A beacon of the fabric, with its tag right. -/
def memberBeacon (s : State) (p w : Nat) : State :=
  let term := bits w 160 32
  let m := bits w 0 10
  let free := s.fab.master.isNone || s.fab.master = some m || s.fab.splitAt.isSome || s.module.state = .fenced
  if s.fab.role = 2 || term < s.fab.term || (s.fab.term < term && !free) || (term = s.fab.term && s.fab.master.isSome && s.fab.master ≠ some m) then s
  else
    let s := followMaster s m term
    let b : BeaconSeen := { since := s.now, term := term, hops := bits w 88 4, aliveCand := bits w 92 4, ppsLocked := bit w 87, witnessOk := bit w 86, masterMid := m }
    let s := { s with fab := { s.fab with beacons := Tbl.set s.fab.beacons p b, beaconAt := some s.now, alive := bits w 92 4 } }
    let s := { s with fab := { s.fab with timeParent := timeParentOf s } }
    if s.fab.timeParent = some p then
      let s := followTime s p (bits w 192 64)
      ((beaconPorts s).filter fun q => q ≠ p).foldl (fun s q => beaconOut s q (beaconOn w)) s
    else s

/-- A beacon of the SENIOR half at the JUNIOR, on its lowest ACTIVE twin port (R362). -/
def juniorBeacon (s : State) (p w : Nat) : State :=
  let s := { s with fab := { s.fab with beaconAt := some s.now } }
  if (beaconPorts s).head? = some p then
    let term := bits w 160 32
    let s := if s.fab.followed = some term then s else { s with fab := { s.fab with followed := some term, mayStep := true } }
    followTime { s with fab := { s.fab with timeParent := some p } } p (bits w 192 64)
  else s

/-- BEACON_RECEIVE (R194, R263). -/
def beaconReceive (s : State) : State :=
  match takePort s fun o => envTyp o = 14 with
  | none => s
  | some (s, p, o) =>
    let s := count (deriveLinkKey s p) (ctrPort p 17) 1
    let w := leNat o.body
    let ok := match Tbl.find? s.shu.linkKeys p with
      | some k => beaconTagOk k o
      | none => false
    if !ok then event (count s (ctrPort p 18) 1) 0x060F p (at_ 32 p)
    else if fabricOn s && bits w 96 32 = cfgv s 0x4100 2 then memberBeacon s p w
    else if !fabricOn s && cfgOn s 0x5201 0 && cfgv s 0x5202 0 = 1 && isTwinPort s p && bits w 96 32 = cfgv s 0x5204 0 then juniorBeacon s p w
    else s

def execBeaconReceive (s : State) : Host.Outcome State Fault Refusal := .next (beaconReceive s)

/-! ### Fabric time at the master and at its pins (R217) -/

/-- A write of FT_SET at the master. -/
def actFtSet (v : Nat) (s : State) : State := { s with ft := v % 2 ^ 64 }

/-- FT_SET (R217): honoured on the master only. -/
def execFtSet (sess value : Nat) (s : State) : Host.Outcome State Fault Refusal :=
  .next (actWrite s sess 0x2110 6 value (if s.fab.role = 2 then 0 else 5) id (actFtSet value))

/-- FT_PPS_IN_EDGE (R217): the master steers towards the whole second nearest to the edge. -/
def ftPpsInEdge (s : State) : State :=
  if cfgOn s 0x2110 4 && s.fab.role = 2 then
    let r := s.ft % sec
    let off : Int := if r * 2 < sec then -(r : Int) else (sec : Int) - r
    { s with fab := { s.fab with offset := off, ppsLocked := true, steer := max (-200) (min 200 off) } }
  else s

def execFtPpsInEdge (s : State) : Host.Outcome State Fault Refusal := .next (ftPpsInEdge s)

/-- Fabric time is within 5 ns of a whole second. -/
def atSecond (s : State) : Bool := s.ft % sec ≤ 5 || sec - 5 ≤ s.ft % sec

/-- FT_PPS_OUT_PULSE (R217): high at a whole second, low 100 µs later. -/
def ftPpsOutPulse (s : State) : State :=
  match s.fab.ppsHigh with
  | some t =>
    if elapsed s t (100 * us) then emit { s with fab := { s.fab with ppsHigh := none } } (.pin 1 0 false) else s
  | none => if cfgOn s 0x2110 5 && coreRuns s && atSecond s then emit { s with fab := { s.fab with ppsHigh := some s.now } } (.pin 1 0 true) else s

def execFtPpsOutPulse (s : State) : Host.Outcome State Fault Refusal := .next (ftPpsOutPulse s)

/-! ### Directed messages (R196) -/

/-- The peer of a directed message: its sender, and for a response the module that was asked. -/
def directedPeer (s : State) (m : CtlMsg) : Nat :=
  match m.response, s.fab.reqs.find? fun r => r.reqId = m.reqId with
  | true, some r => r.mid.getD 65535
  | _, _ => m.peer

/-- A directed message has reached this module's treadle. A refusal on the way (status 1, R196) carries no content. -/
def ctlDelivered (s : State) (p : Nat) (o : WireOp) (m : CtlMsg) : State :=
  let plain := if m.response && m.status = 1 && m.data.length = 8 then some m else openDirected s (directedPeer s m) m
  match plain with
  | none => tagFailedOpen s o
  | some m =>
    let s := if m.response || m.code = 7 || s.fab.role = 2 then s
      else { s with fab := { s.fab with masterPath := ((List.range (pathLen m)).map fun i => pathSlot m i).reverse } }
    { s with fab := { s.fab with ctl := s.fab.ctl ++ [{ m with port := p }] } }

/-- DIRECTED_MSG_FORWARD (R196). -/
def directedMsgForward (s : State) : State :=
  match takePort s isDirected with
  | none => s
  | some (s, p, o) =>
    let m := ctlMsgOf o.body (envSrc o / 128) p
    let i := pathIdx m
    if m.response then
      if i = 0 then ctlDelivered s p o m else launchPort s (pathSlot m (i - 1)) { o with body := (withPath m (i - 1) 6 0).bytes }
    else
      let m := withPath m i (i - 1) p
      if pathLen m ≤ i then ctlDelivered s p o m
      else
        let d := pathSlot m i
        if linkUp s d then launchPort s d { o with body := (withPath m (i + 1) 6 0).bytes }
        else ctlBack s m.peer { m with response := true, status := 1, data := m.data.take 8 }

def execDirectedMsgForward (s : State) : Host.Outcome State Fault Refusal := .next (directedMsgForward s)

/-! ### Messages a member takes (R197, R206, R210, R222, R224) -/

/-- Take the oldest request of a code. -/
def takeCtl (s : State) (code : Nat) : Option (State × CtlMsg) :=
  match s.fab.ctl.find? fun m => m.code = code && !m.response with
  | some m => some ({ s with fab := { s.fab with ctl := s.fab.ctl.erase m } }, m)
  | none => none

/-- A command of a lower term than the own is refused with status 3 (R195). A FENCED module, which waits to be reached whatever its
term, takes NEIGHBOURS and RESYNC_BEGIN of any (DEDUCED from R224: the new term comes with RESYNC_BEGIN). -/
def ctlCommand (s : State) (code : Nat) (f : State → CtlMsg → State) : State :=
  match takeCtl s code with
  | none => s
  | some (s, m) =>
    if m.term < s.fab.term && !((code = 1 || code = 8) && s.module.state = .fenced) then ctlRespond s m 3 [] else f s m

def LinkSt.code : LinkSt → Nat
  | .down => 0 | .training => 1 | .aligned => 2 | .active => 3 | .retrain => 4 | .failed => 5

/-- One port of a NEIGHBOURS listing, 12 bytes (log entry 10). -/
def neighbourBytes (s : State) (p : Nat) : List Byte :=
  let x := weftPort s p
  leBytes 1 p ++ leBytes 1 x.link.code ++ leBytes 1 x.width ++ leBytes 1 x.rate ++ leBytes 4 x.peer ++ leBytes 2 (Tbl.get s.fab.delay p 0) ++
    leBytes 2 (b2n (s.fab.joined.contains p && !s.fab.repaired.contains p))

def weftPorts (s : State) : List Nat := (List.range 128).filter fun p => isWeft s p

/-- NEIGHBOURS (R197). -/
def neighbours (s : State) : State := ctlCommand s 1 fun s m => ctlRespond s m 0 ((weftPorts s).flatMap (neighbourBytes s))

def execNeighbours (s : State) : Host.Outcome State Fault Refusal := .next (neighbours s)

/-- ASSIGN_MID (R199): a module without a MID stores the one it is given. The own MID tells a module that another bears it too
(DESIGN CHOICE, log entry 32): event 0x050D. -/
def assignMid (s : State) : State :=
  ctlCommand s 2 fun s m =>
    let v := leAt m.content 0 2
    if midValid s && v = ownMid s then ctlRespond (event s 0x050D (m.port % 128) (v % 1024 + at_ 16 (m.port % 128))) m 0 []
    else if midValid s || 1024 ≤ v then ctlRespond s m 1 []
    else ctlRespond (setFlash (setCfg s (key 0x4100 1) v) (key 0x4100 1) v) m 0 []

def execAssignMid (s : State) : Host.Outcome State Fault Refusal := .next (assignMid s)

/-- Entries of a ROUTE_WRITE, 16 bytes each, from a first MID. -/
def writeEntries : Nat → Nat → List Byte → Tbl RouteEntry → Tbl RouteEntry
  | 0, _, _, t => t
  | n + 1, m, bs, t => writeEntries n (m + 1) (bs.drop 16) (Tbl.set t (m % 1024) (RouteEntry.of (leAt bs 0 16)))

/-- ROUTE_WRITE (R197, R206): sub-header first MID, count, HASH_ROTATE and bank, 1 the standby bank (log entry 10). -/
def routeWrite (s : State) : State :=
  ctlCommand s 3 fun s m =>
    let c := m.content
    let first := leAt c 0 2
    let n := leAt c 2 2
    if 254 < n || 1024 < first + n || c.length < 16 + 16 * n || leAt c 5 1 ≠ 1 then ctlRespond s m 2 []
    else
      let ws := (List.range n).map fun i => first + i
      let s := { s with fab := { s.fab with
        standby := writeEntries n first (c.drop 16) s.fab.standby, standbyRotate := leAt c 4 1 % 32
        written := s.fab.written ++ ws.filter fun w => !s.fab.written.contains w } }
      ctlRespond s m 0 []

def execRouteWrite (s : State) : Host.Outcome State Fault Refusal := .next (routeWrite s)

/-- The whole standby bank has been written (R206). -/
def bankComplete (s : State) : Bool := s.fab.written.length = 1024

/-- BANK_SWITCH (R206): ROUTE_EPOCH, the time of the switch, and the member count. It is answered at that time. -/
def bankSwitch (s : State) : State :=
  ctlCommand s 4 fun s m =>
    let c := m.content
    { s with fab := { s.fab with switch := some (leAt c 0 4, leAt c 4 8, leAt c 12 2), switchMsg := some m } }

/-- Answer the BANK_SWITCH whose time has come. -/
def switchAnswered (s : State) (msg : Option CtlMsg) (status : Nat) : State :=
  match msg with
  | some m => ctlRespond s m status []
  | none => s

def execBankSwitch (s : State) : Host.Outcome State Fault Refusal := .next (bankSwitch s)

/-- The members that a bank admits: the destinations it holds valid. -/
def validMids (t : Tbl RouteEntry) : List Nat := (t.filter fun r => r.2.valid).map Prod.fst

/-- BANK_SWITCH_TIME (R206, R207, R240, R372): status 4 when the standby bank is not whole. -/
def bankSwitchTime (s : State) : State :=
  match s.fab.switch with
  | none => s
  | some (ep, t, n) =>
    if s.ft < t then s
    else
      let msg := s.fab.switchMsg
      let s := { s with fab := { s.fab with switch := none, switchMsg := none } }
      if !bankComplete s then switchAnswered s msg 4
      else
        let first := !s.fab.settled || s.fab.epoch = 0
        let s := { s with fab := { s.fab with
          active := s.fab.standby, rotate := s.fab.standbyRotate, epoch := ep, written := [], memberCount := n, settled := true
          admitted := if s.fab.role = 2 then s.fab.nextAdmitted else (validMids s.fab.standby).filter fun m => s.fab.adoptedMid ≠ some m } }
        let s := event s 0x0508 0 (at_ 32 ep)
        let s := if first then event s 0x0500 0 ((s.fab.master.getD 1023) % 1024) else s
        twinCheck (replayStart (membershipCheck (switchAnswered s msg 0)))

def execBankSwitchTime (s : State) : Host.Outcome State Fault Refusal := .next (bankSwitchTime s)

/-- FABRIC_CTL_HEARTBEAT_SEND (R201): every 1 ms by each member; a FENCED module is one again from RESYNC_BEGIN. -/
def fabricCtlHeartbeatSend (s : State) : State :=
  if fabricOn s && s.fab.role = 1 && s.fab.master.isSome && (s.module.state ≠ .fenced || s.fab.resyncing) &&
      elapsed s s.fab.heartbeatAt ms then
    ctlToMaster { s with fab := { s.fab with heartbeatAt := s.now } } 5 (leBytes 1 s.module.state.code)
  else s

def execFabricCtlHeartbeatSend (s : State) : Host.Outcome State Fault Refusal := .next (fabricCtlHeartbeatSend s)

/-- ADMIT_PARTITION (R210): partition global ID, imported upstream global port, and the CIDs of the pair. -/
def admitPartition (s : State) : State :=
  ctlCommand s 6 fun s m =>
    let c := m.content
    let a : AdmittedVs := { pgid := leAt c 0 2, gport := leAt c 2 4, cidA := leAt c 6 2, cidB := leAt c 8 2 }
    ctlRespond { s with fab := { s.fab with imported := (s.fab.imported.filter fun b => b.pgid ≠ a.pgid) ++ [a] } } m 0 []

def execAdmitPartition (s : State) : Host.Outcome State Fault Refusal := .next (admitPartition s)

/-- FENCE_NOTICE to the peer of every weft port in ACTIVE (R220). DEDUCED: no connection joins a candidate and a member, and a
candidate knows no path but its own ports; each member that a notice fences passes it on, so that it comes to every member that
is still reached. -/
def sendFenceNotices (s : State) (term cause : Nat) : State :=
  let c := leBytes 4 term ++ leBytes 1 cause
  ((weftPorts s).filter fun p => linkUp s p && !isTwinPort s p).foldl (fun s p =>
    ctlAlong s [p] ((peerMidOf s p).getD 65535) { code := 7, term := s.fab.term, data := c }) s

/-- FENCE_NOTICE (R222): the member enters FENCED at once. -/
def fenceNotice (s : State) : State :=
  ctlCommand s 7 fun s m =>
    let t := leAt m.content 0 4
    let s := noteTerm s t
    if s.module.state = .service || s.module.state = .degraded then sendFenceNotices (fencedEntry s 4) t (leAt m.content 4 1) else s

def execFenceNotice (s : State) : Host.Outcome State Fault Refusal := .next (fenceNotice s)

/-- A signed 64-bit number. -/
def toI64 (x : Nat) : Int := if x < 2 ^ 63 then (x : Int) else (x : Int) - 2 ^ 64

/-- The MIDs of a membership list, 2 bytes each. -/
def midList : Nat → List Byte → List Nat
  | 0, _ => []
  | n + 1, bs => leAt bs 0 2 :: midList n (bs.drop 2)

/-- RESYNC_BEGIN (R224): a fenced module takes the term, the membership and the time step; one that is not fenced and follows
another master is fenced first (a merge). The routes and admissions follow in their own messages. -/
def resyncBegin (s : State) : State :=
  ctlCommand s 8 fun s m =>
    let c := m.content
    let s := if s.module.state = .fenced then s else fencedEntry s 6
    let n := leAt c 6 2
    let step := toI64 (leAt c 8 8)
    let s := { s with fab := { s.fab with term := m.term, master := some (leAt c 4 2), role := 1, admitted := midList n (c.drop 16), imported := []
                                          standby := [], written := [], mayStep := true, splitAt := none, resyncing := true, importsTold := []
                                          high := max s.fab.high m.term } }
    let s := if step < -1000 || 1000 < step then
        event { s with ft := ((s.ft : Int) + step).toNat } 0x0511 0 (at_ 16 (step % 2 ^ 48).toNat)
      else s
    ctlRespond s m 0 []

def execResyncBegin (s : State) : Host.Outcome State Fault Refusal := .next (resyncBegin s)

/-- RESYNC_END (R224): the module leaves FENCED once the bank of the ROUTE_EPOCH in force is its own; else it refuses. -/
def resyncEnd (s : State) : State :=
  ctlCommand s 9 fun s m => if s.fab.epoch = leAt m.content 0 4 then ctlRespond (fencedExit s) m 0 [] else ctlRespond s m 1 []

def execResyncEnd (s : State) : Host.Outcome State Fault Refusal := .next (resyncEnd s)

/-! ### A member's timers (R200, R219, R222) -/

/-- ADMISSION_TIMEOUT (R200): not admitted within 5 s of the first weft port reaching ACTIVE. -/
def admissionTimeout (s : State) : State :=
  if fabricOn s && !s.fab.settled && elapsedOpt s s.fab.firstActive (5 * sec) then
    event { s with fab := { s.fab with settled := true } } 0x0500 0 ((s.fab.master.getD 1023) % 1024 + at_ 16 1)
  else s

def execAdmissionTimeout (s : State) : Host.Outcome State Fault Refusal := .next (admissionTimeout s)

end Sys2Proof.Machine
end

