-- ==== Sys2Proof/Machine/Master.lean ====
section
/-!
DEFINITION. The fabric master (R199 to R213, R218 to R225): discovery, levels and path sets, the writing and switching of
banks, members and their reports, the witness, splits, claims and mastership.
-/

namespace Sys2Proof.Machine

/-! ### Topology as the master knows it -/

/-- The own ports as a NEIGHBOURS listing. -/
def ownListing (s : State) : List Neighbour :=
  (weftPorts s).map fun p =>
    let x := weftPort s p
    { port := p, link := x.link.code, width := x.width, rate := x.rate, delay := Tbl.get s.fab.delay p 0
      joined := s.fab.joined.contains p && !s.fab.repaired.contains p
      peer := match Tbl.find? s.fab.probes p with
        | some q => at_ 31 (b2n q.gportValid) + at_ 17 (bits x.peer 17 2) + q.gport
        | none => x.peer }

/-- The listing that 12-byte records give (log entry 10). -/
def listingOf : Nat → List Byte → List Neighbour
  | 0, _ => []
  | n + 1, bs =>
    if bs.length < 12 then []
    else { port := leAt bs 0 1, link := leAt bs 1 1, width := leAt bs 2 1, rate := leAt bs 3 1, peer := leAt bs 4 4, delay := leAt bs 8 2
           joined := bit (leAt bs 10 2) 0 } ::
      listingOf n (bs.drop 12)

def linksOf (s : State) (m : Nat) : List Neighbour :=
  if m = ownMid s then ownListing s else (Tbl.get s.fab.members m {}).links

def Neighbour.peerMid (n : Neighbour) : Nat := n.peer % 131072 / 128

/-- The same MID at a module other than the one admitted: the far port does not list this one as its peer (R199). -/
def midConflict (s : State) (u : Nat) (n : Neighbour) : Bool :=
  let m := n.peerMid
  if (m = ownMid s || (Tbl.find? s.fab.members m).isSome) && !(linksOf s m).isEmpty then
    match (linksOf s m).find? fun k => k.port = n.peer % 128 with
    | some k => bit k.peer 31 && k.peer % 131072 ≠ u * 128 + n.port
    | none => true
  else false

/-- A listed port of `u` that may carry fabric traffic to a peer with a MID: ACTIVE, not a twin port, not to a module refused for its
MID, and in path sets (R198). The links of a module that is being resynchronised join them only when it has left FENCED: the
bank that it is given already counts them (R224). -/
def carries (s : State) (u : Nat) (n : Neighbour) : Bool :=
  n.link = 3 && bit n.peer 31 && bits n.peer 17 2 ≠ 3 &&
    (n.joined || s.fab.toResync.contains u || s.fab.toResync.contains n.peerMid) && !midConflict s u n

/-- Payload rate of a lane by its rate code, in Gb/s: 212.5 and 106.25 Gb/s carry two to one. -/
def payloadRate (code : Nat) : Nat := if code = 1 then 2 else if code = 2 then 1 else 0

def Neighbour.payload (n : Neighbour) : Nat := n.width * payloadRate n.rate

/-- The ports of `u` that join it to `v`: those of the largest rate, at most the 8 lowest-numbered (R208). -/
def bond (s : State) (u v : Nat) : List Nat :=
  let all := (linksOf s u).filter fun n => carries s u n && n.peerMid = v
  let best := all.foldl (fun b n => max b n.payload) 0
  ((all.filter fun n => n.payload = best).map fun n => n.port).take 8

/-- The modules joined to `u` among `ms`. -/
def joinedTo (s : State) (ms : List Nat) (u : Nat) : List Nat := ms.filter fun v => v ≠ u && !(bond s u v).isEmpty

/-- Link distances from the master among `ms` (R205). -/
def levelsFrom (s : State) (ms : List Nat) : Nat → Nat → List Nat → Tbl Nat → Tbl Nat
  | 0, _, _, t => t
  | fuel + 1, d, front, t =>
    let t := front.foldl (fun t m => Tbl.set t m d) t
    let next := ms.filter fun v => (Tbl.find? t v).isNone && front.any fun u => !(bond s u v).isEmpty
    if next.isEmpty then t else levelsFrom s ms fuel (d + 1) next t

def levels (s : State) (ms : List Nat) : Tbl Nat := levelsFrom s ms 8 0 [ownMid s] []

/-- A link from `u` to `v` is up (R205). -/
def isUp (lv : Tbl Nat) (u v : Nat) : Bool := Tbl.get lv v 99 < Tbl.get lv u 99 || (Tbl.get lv v 99 = Tbl.get lv u 99 && v < u)

/-- Modules in the order of level and MID: every up link leads to an earlier one. -/
def upOrder (lv : Tbl Nat) (ms : List Nat) : List Nat :=
  sortBy (fun u v => Tbl.get lv u 99 < Tbl.get lv v 99 || (Tbl.get lv u 99 = Tbl.get lv v 99 && u ≤ v)) ms

def least (xs : List Nat) : Nat := xs.foldl min 99

/-- Lengths of the routes to `d` that only go down. -/
def downDist (s : State) (lv : Tbl Nat) (ms : List Nat) (d : Nat) : Tbl Nat :=
  (upOrder lv ms).reverse.foldl (fun t w =>
    Tbl.set t w (if w = d then 0 else min 99 (1 + least (((joinedTo s ms w).filter fun y => !isUp lv w y).map fun y => Tbl.get t y 99)))) []

/-- Lengths of the legal routes to `d`, where the modules of `forced` may only go down. -/
def legalDist (s : State) (lv : Tbl Nat) (ms : List Nat) (d : Nat) (down : Tbl Nat) (forced : List Nat) : Tbl Nat :=
  (upOrder lv ms).foldl (fun t w =>
    let up := 1 + least (((joinedTo s ms w).filter fun y => isUp lv w y).map fun y => Tbl.get t y 99)
    Tbl.set t w (if w = d then 0 else if forced.contains w then Tbl.get down w 99 else min 99 (min (Tbl.get down w 99) up))) []

/-- The next modules on shortest legal routes from `w` to `d`. -/
def nextHops (s : State) (lv : Tbl Nat) (ms : List Nat) (d : Nat) (down dist : Tbl Nat) (forced : List Nat) (w : Nat) : List Nat :=
  let k := Tbl.get dist w 99
  if w = d || 99 ≤ k then []
  else (joinedTo s ms w).filter fun y =>
    if isUp lv w y then !forced.contains w && 1 + Tbl.get dist y 99 = k else 1 + Tbl.get down y 99 = k

/-- A table indexed by destination sends everything that reaches a module the same way: a module that some route enters by a
down link may itself only go down. The forced modules grow until none is added (R205). -/
def forcedFor (s : State) (lv : Tbl Nat) (ms : List Nat) (d : Nat) (down : Tbl Nat) : Nat → List Nat → List Nat
  | 0, f => f
  | fuel + 1, f =>
    let dist := legalDist s lv ms d down f
    let more := (ms.flatMap fun w => (nextHops s lv ms d down dist f w).filter fun y => !isUp lv w y && y ≠ d && !f.contains y).dedup
    if more.isEmpty then f else forcedFor s lv ms d down fuel (f ++ more)

/-- The entries of every module for destination `d`. -/
def entriesTo (s : State) (lv : Tbl Nat) (ms : List Nat) (d : Nat) : Tbl RouteEntry :=
  let down := downDist s lv ms d
  let f := forcedFor s lv ms d down (ms.length + 1) []
  let dist := legalDist s lv ms d down f
  ms.foldl (fun t w =>
    let k := Tbl.get dist w 99
    let ps := sortBy (· ≤ ·) ((nextHops s lv ms d down dist f w).flatMap fun y => bond s w y)
    let e : RouteEntry := if w = d then { valid := true, isLocal := true }
      else if 6 < k || ps.isEmpty then {} else { valid := true, hops := k, ports := ps.take 16 }
    Tbl.set t w e) []

/-- Every destination's entries. -/
def allEntries (s : State) (lv : Tbl Nat) (ms : List Nat) : Tbl (Tbl RouteEntry) := ms.map fun d => (d, entriesTo s lv ms d)

/-- The module that is not admitted for want of a legal route of at most 6 links to every other (R209): the last by level and MID of
those not admitted before, and only then one of those that were. -/
def unreachable (lv : Tbl Nat) (before ms : List Nat) (t : Tbl (Tbl RouteEntry)) : Option Nat :=
  let us := (upOrder lv ms).reverse
  (us.filter (fun u => !before.contains u) ++ us.filter fun u => before.contains u).find? fun u =>
    ms.any fun d => !(Tbl.get (Tbl.get t d []) u {}).valid

/-- The modules admitted together, and their tables; the others are named in event 0x050E. -/
def admitSet (s : State) : Nat → List Nat → State × List Nat × Tbl (Tbl RouteEntry)
  | 0, _ => (s, [], [])
  | fuel + 1, ms =>
    let lv := levels s ms
    let t := allEntries s lv ms
    match unreachable lv s.fab.admitted ms t with
    | none => (s, ms, t)
    | some u =>
      if u = ownMid s then (s, [u], [(u, [(u, { valid := true, isLocal := true })])])
      else admitSet (event s 0x050E 0 (u % 1024)) fuel (ms.filter fun m => m ≠ u)

/-! ### Messages of the master -/

/-- Send a request to a module, on its management connection when that is ACTIVE, else along its path. -/
def ctlRequest (s : State) (mid : Option Nat) (path : List Nat) (code : Nat) (content : List Byte) : State :=
  let m : CtlMsg := { code := code, reqId := s.fab.nextReq, term := s.fab.term, data := content }
  let r : CtlReq := { reqId := s.fab.nextReq, code := code, path := path, mid := mid, sentAt := s.now }
  let s := { s with fab := { s.fab with nextReq := (s.fab.nextReq + 1) % 2 ^ 32, reqs := s.fab.reqs ++ [r] } }
  let c := 15360 + mid.getD 0
  if mid.isSome && code ≠ 1 && code ≠ 2 && (connOf s c).st = .active then ctlOn s c m else ctlAlong s path (mid.getD 65535) m

def toMember (s : State) (mid code : Nat) (content : List Byte) : State :=
  ctlRequest s (some mid) (Tbl.get s.fab.members mid {}).path code content

/-- The member that sent a message: by its connection, or by the path of a directed one. -/
def ctlSender (s : State) (m : CtlMsg) : Option Nat :=
  if m.directed then
    let back := ((List.range (pathLen m)).map fun i => pathSlot m i).reverse
    match List.find? (fun r => r.2.path = back) s.fab.members with
    | some r => some r.1
    | none => none
  else some m.peer

/-- The module that path `ps` from this module leads to, when its MID is known. -/
def peerAlong (s : State) : Nat → List Nat → Option Nat
  | _, [] => none
  | u, [p] =>
    match (linksOf s u).find? fun n => n.port = p with
    | some n => if bit n.peer 31 then some n.peerMid else none
    | none => none
  | u, p :: ps =>
    match (linksOf s u).find? fun n => n.port = p with
    | some n => peerAlong s n.peerMid ps
    | none => none

/-- New tables are due (R213). -/
def recomputeDue (s : State) : State :=
  { s with fab := { s.fab with recomputeSince := match s.fab.recomputeSince with | some t => some t | none => some s.now } }

/-! ### Discovery (R199) -/

/-- The ports at the edge of what is known: the path to each, and its listing. -/
def frontier (s : State) : List (List Nat × Nat × Neighbour) :=
  let own := ((ownListing s).filter fun n => n.link = 3 && bits n.peer 17 2 ≠ 3).map fun n => ([n.port], ownMid s, n)
  let far := s.fab.members.flatMap fun r =>
    if 6 ≤ r.2.path.length then []
    else (r.2.links.filter fun n => n.link = 3 && bits n.peer 17 2 ≠ 3).map fun n => (r.2.path ++ [n.port], r.1, n)
  sortBy (fun a b => a.1.length ≤ b.1.length) (own ++ far)

/-- Two modules bear MID `m` (R199): each of them writes event 0x050D, told by ASSIGN_MID with the MID it has (log entry 32). `path`
leads to the one that is refused; `port` is where its link was found. -/
def midRefused (s : State) (m port : Nat) (path : List Nat) : State :=
  if s.fab.conflicts.contains m then s
  else
    let s := { s with fab := { s.fab with conflicts := s.fab.conflicts ++ [m] } }
    let s := if m = ownMid s then event s 0x050D port (m % 1024 + at_ 16 port)
             else ctlRequest s (some m) (Tbl.get s.fab.members m {}).path 2 (leBytes 2 m)
    ctlRequest s none path 2 (leBytes 2 m)

/-- Requests that have stayed unanswered for 20 ms are given up, and discovery asks again; a merge ends when nothing is outstanding
(DESIGN CHOICE, log entry 33). -/
def oldRequests (s : State) : State :=
  let rs := s.fab.reqs.filter fun r => !elapsed s r.sentAt (20 * ms)
  { s with fab := { s.fab with reqs := rs, merging := s.fab.merging && !(rs.isEmpty && s.fab.toResync.isEmpty) } }

/-- MASTER_DISCOVERY: NEIGHBOURS along every path to a module not yet known. -/
def masterDiscovery (s : State) : State :=
  if s.fab.role ≠ 2 || !fabricOn s then s
  else
    let s := oldRequests s
    (frontier s).foldl (fun s (f : List Nat × Nat × Neighbour) =>
      let n := f.2.2
      let known := bit n.peer 31 && (n.peerMid = ownMid s || (Tbl.find? s.fab.members n.peerMid).isSome)
      let asked := s.fab.reqs.any fun r => r.code ≤ 2 && (r.path = f.1 || (bit n.peer 31 && r.mid = some n.peerMid))
      if bit n.peer 31 && midConflict s f.2.1 n then midRefused s n.peerMid n.port f.1
      else if known || asked || (bit n.peer 31 && (Tbl.find? s.fab.adoptions n.peerMid).isSome) then s
      else ctlRequest s (if bit n.peer 31 then some n.peerMid else none) f.1 1 []) s

def execMasterDiscovery (s : State) : Host.Outcome State Fault Refusal := .next (masterDiscovery s)

/-- The lowest MID that no known module has. -/
def lowestFreeMid (s : State) : Nat :=
  ((List.range 1024).find? fun m => m ≠ ownMid s && (Tbl.find? s.fab.members m).isNone && !s.fab.reqs.any fun r => r.code = 2 && r.mid = some m).getD 1023

/-- The time step that RESYNC_BEGIN gives a module (R224): by the last probe of one that is joined to this module. DESIGN CHOICE
(log entry 33): 0 for one that is not, which steps to the beacons as it leaves FENCED (R216). -/
def timeStepFor (s : State) (m : Nat) : Int :=
  match List.find? (fun (r : Nat × Probe) => r.2.gportValid && r.2.gport / 128 = m) s.fab.probes with
  | some r => (r.2.t4 : Int) - (r.2.tTx + Tbl.get s.fab.delay r.1 0)
  | none => 0

/-- RESYNC_BEGIN to a module (R224). -/
def sendResync (s : State) (m : Nat) (path : List Nat) : State :=
  let ms := ownMid s :: Tbl.keys s.fab.members
  ctlRequest s (some m) path 8 (leBytes 4 s.fab.term ++ leBytes 2 (ownMid s) ++ leBytes 2 ms.length ++
    leBytes 8 (timeStepFor s m % 2 ^ 64).toNat ++ ms.flatMap (leBytes 2))

/-- A NEIGHBOURS listing has come: a member is found or its links are renewed. A module that is found in a merge and has followed a
master is resynchronised first. -/
def listingArrived (s : State) (r : CtlReq) (term : Nat) (c : List Byte) : State :=
  let ls := listingOf 128 c
  let m := match r.mid with
    | some m => some m
    | none => peerAlong s (ownMid s) r.path
  match m with
  | none =>
    let v := lowestFreeMid s
    ctlRequest s (some v) r.path 2 (leBytes 2 v)
  | some m =>
    if (Tbl.find? s.fab.members m).isNone && (s.fab.toResync.contains m || (s.fab.merging && term ≠ 0)) then
      sendResync { s with fab := { s.fab with toResync := s.fab.toResync.filter (fun x => x ≠ m) ++ [m] } } m r.path
    else
      let x := Tbl.get s.fab.members m { heardAt := s.now, path := r.path }
      let s := if ls.any fun n => n.joined then { s with fab := { s.fab with toResync := s.fab.toResync.filter fun x => x ≠ m } } else s
      recomputeDue { s with fab := { s.fab with members := Tbl.set s.fab.members m { x with links := ls } } }

/-! ### Banks (R206) -/

/-- The whole bank of a member: 1,024 entries. An adopted MID's entry is that of its survivor; at the survivor it is LOCAL. -/
def bankOf (s : State) (t : Tbl (Tbl RouteEntry)) (u : Nat) : List RouteEntry :=
  (List.range 1024).map fun d => Tbl.get (Tbl.get t (Tbl.get s.fab.adoptions d d) []) u {}

/-- ROUTE_WRITE messages of a bank, 252 entries each: with its path and its seal a directed one holds no more (R195). -/
def bankMessages (es : List RouteEntry) (rotate : Nat) : List (List Byte) :=
  (List.range 5).map fun i =>
    let part := (es.drop (252 * i)).take 252
    leBytes 2 (252 * i) ++ leBytes 2 part.length ++ leBytes 1 rotate ++ leBytes 1 1 ++ List.replicate 10 0 ++ part.flatMap fun e => leBytes 16 e.word

/-- Write a member its bank, and tell it the switch. -/
def writeBank (s : State) (t : Tbl (Tbl RouteEntry)) (lv : Tbl Nat) (ep time n u : Nat) : State :=
  let es := bankOf s t u
  let rot := 8 * Tbl.get lv u 0 % 32
  if u = ownMid s then
    { s with fab := { s.fab with standby := ((List.range 1024).zip es).filter (fun r => r.2.valid), standbyRotate := rot, written := List.range 1024
                                 switch := some (ep, time, n) } }
  else
    let s := (bankMessages es rot).foldl (fun s b => toMember s u 3 b) s
    toMember s u 4 (leBytes 4 ep ++ leBytes 8 time ++ leBytes 2 n)

/-- The lead of a bank switch: at least 2 ms ahead (R206). -/
def switchLead : Nat := 2100 * us

/-- Bonds of more than 8 ports (R208), one event for each pair. -/
def bondCheck (s : State) (ms : List Nat) : State :=
  ms.foldl (fun s u => ms.foldl (fun s v =>
    let n := ((linksOf s u).filter fun k => carries s u k && k.peerMid = v).length
    let k := u * 1024 + v
    if u < v && 8 < n && !s.fab.bondTold.contains k then
      event { s with fab := { s.fab with bondTold := s.fab.bondTold ++ [k] } } 0x050F 0 (v % 1024)
    else s) s) s

/-- TABLE_RECOMPUTE (R205, R206, R213). -/
def tableRecompute (s : State) : State :=
  if s.fab.role ≠ 2 || s.fab.recomputeSince.isNone then s
  else
    let s := bondCheck s (ownMid s :: Tbl.keys s.fab.members)
    let (s, ms, t) := admitSet s 1025 (ownMid s :: Tbl.keys s.fab.members)
    let lv := levels s ms
    let ep := (s.fab.epoch + 1) % 2 ^ 32
    let time := s.ft + switchLead
    let s := { s with fab := { s.fab with recomputeSince := none, nextAdmitted := ms,
                                          members := s.fab.members.map fun r => (r.1, { r.2 with level := Tbl.get lv r.1 99 }) } }
    ms.foldl (fun s u => writeBank s t lv ep time ms.length u) s

def execTableRecompute (s : State) : Host.Outcome State Fault Refusal := .next (tableRecompute s)

/-- The bank is sent again to one member (R206). -/
def resendBank (s : State) (u : Nat) : State :=
  match s.fab.switch with
  | some (ep, time, n) =>
    let r := admitSet s 1025 s.fab.nextAdmitted
    writeBank r.1 r.2.2 (levels s r.2.1) ep (max time (s.ft + switchLead)) n u
  | none =>
    let r := admitSet s 1025 s.fab.nextAdmitted
    writeBank r.1 r.2.2 (levels s r.2.1) s.fab.epoch (s.ft + switchLead) s.fab.memberCount u

/-- ADMIT_PARTITION to one module (R197, R210): at the master itself it takes effect at once. -/
def sendAdmission (s : State) (u : Nat) (a : AdmittedVs) : State :=
  if u = ownMid s then { s with fab := { s.fab with imported := (s.fab.imported.filter fun b => b.pgid ≠ a.pgid) ++ [a] } }
  else toMember s u 6 (leBytes 2 a.pgid ++ leBytes 4 a.gport ++ leBytes 2 a.cidA ++ leBytes 2 a.cidB)

/-- The admissions that concern a module that is resynchronised (R224). -/
def admissionsTo (s : State) (u : Nat) : State :=
  (s.fab.granted.filter fun a => a.pgid / 32 = u || a.gport / 128 = u).foldl (fun s a => sendAdmission s u a) s

/-- FABRIC_CTL_RESPONSE: what an answer to the master's request brings. A module that is resynchronised leaves FENCED once it has
answered that its bank is switched (R224). -/
def fabricCtlResponse (s : State) : State :=
  match s.fab.ctl.find? fun m => m.response with
  | none => s
  | some m =>
    let s := { s with fab := { s.fab with ctl := s.fab.ctl.erase m } }
    match s.fab.reqs.find? fun r => r.reqId = m.reqId with
    | none => s
    | some r =>
      let s := { s with fab := { s.fab with reqs := s.fab.reqs.erase r } }
      if s.fab.role ≠ 2 then s
      else
        match r.code, m.status, r.mid with
        | 1, 0, _ => listingArrived s r m.term m.content
        | 2, 0, some v => ctlRequest s (some v) r.path 1 []
        | 4, 4, some u => resendBank s u
        | 4, 0, some u => if s.fab.toResync.contains u then toMember s u 9 (leBytes 4 s.fab.epoch) else s
        | 9, 0, some u => toMember s u 1 []
        | 9, 1, some u => resendBank s u
        | 8, 0, some u =>
          let s := { s with fab := { s.fab with members := Tbl.set s.fab.members u { heardAt := s.now, path := r.path } } }
          ctlRequest (admissionsTo (recomputeDue s) u) (some u) r.path 1 []
        | _, _, _ => s

def execFabricCtlResponse (s : State) : Host.Outcome State Fault Refusal := .next (fabricCtlResponse s)

/-! ### Members (R201, R213, R219) -/

/-- FABRIC_CTL_HEARTBEAT_RECEIVE (R201): a heartbeat of the current term. -/
def fabricCtlHeartbeatReceive (s : State) : State :=
  match takeCtl s 5 with
  | none => s
  | some (s, m) =>
    match ctlSender s m with
    | some u =>
      if s.fab.role = 2 && m.term = s.fab.term then
        { s with fab := { s.fab with members := Tbl.modify s.fab.members u fun x => { x with heardAt := s.now, state := leAt m.content 0 1 } } }
      else s
    | none => s

def execFabricCtlHeartbeatReceive (s : State) : Host.Outcome State Fault Refusal := .next (fabricCtlHeartbeatReceive s)

/-- The rank of a module among the candidates, most senior first; 9 for one that is none. -/
def seniority (s : State) (m : Nat) : Nat := let c := candidateOf s m; if c = 0 then 9 else c

/-- A link of a member has left its path sets. -/
def linkLost (s : State) (u p : Nat) : State :=
  recomputeDue { s with fab := { s.fab with members := Tbl.modify s.fab.members u fun x =>
    { x with links := x.links.map fun n => if n.port = p then { n with link := 0 } else n } } }

/-- A merge of two fabrics (R224): the higher term wins, among equals the master that is the more senior candidate. -/
def winsMerge (s : State) (master term : Nat) : Bool :=
  term < s.fab.term || (term = s.fab.term && seniority s (ownMid s) < seniority s master)

/-- A partition's imported upstream port as a member names it; the highest bit withdraws it (R210). -/
def importWanted (s : State) (pgid g : Nat) : State :=
  let w := s.fab.wanted.filter fun r => r.1 ≠ pgid
  if bit g 31 then
    { s with fab := { s.fab with wanted := w, granted := s.fab.granted.filter fun a => a.pgid ≠ pgid } }
  else { s with fab := { s.fab with wanted := w ++ [(pgid, g)] } }

/-- MEMBER_REPORT (R207, R210, R213, R224, R372). -/
def memberReportReceive (s : State) : State :=
  match takeCtl s 0x0A with
  | none => s
  | some (s, m) =>
    match ctlSender s m with
    | none => s
    | some u =>
      let c := m.content
      let port := leAt c 1 1
      let mid := leAt c 2 2
      if s.fab.role ≠ 2 then s
      else
        let path := (if u = ownMid s then [] else (Tbl.get s.fab.members u {}).path) ++ [port]
        match leAt c 0 1 with
        | 1 => linkLost s u port
        | 2 => if u = ownMid s then recomputeDue s else ctlRequest (recomputeDue s) (some u) (Tbl.get s.fab.members u {}).path 1 []
        | 4 => ctlRequest { s with fab := { s.fab with toResync := s.fab.toResync.filter (fun x => x ≠ mid) ++ [mid], members := Tbl.erase s.fab.members mid } }
            (some mid) path 1 []
        | 5 => recomputeDue { s with fab := { s.fab with adoptions := Tbl.set s.fab.adoptions mid u, members := Tbl.erase s.fab.members mid } }
        | 6 =>
          match peerAlong s (ownMid s) path with
          | some v =>
            if winsMerge s mid (leAt c 4 4) then
              ctlRequest { s with fab := { s.fab with merging := true, toResync := s.fab.toResync.filter (fun x => x ≠ v) ++ [v] } } (some v) path 1 []
            else s
          | none => s
        | 8 => importWanted s mid (leAt c 4 4)
        | 7 => recomputeDue { s with fab := { s.fab with adoptions := Tbl.erase s.fab.adoptions mid } }
        | _ => s

def execMemberReport (s : State) : Host.Outcome State Fault Refusal := .next (memberReportReceive s)

/-! ### Mastership (R218 to R221, R225) -/

/-- Become master under a term: event 0x0501. Discovery and tables begin anew. -/
def becomeMaster (s : State) (term : Nat) : State :=
  let s := { s with fab := { s.fab with role := 2, master := some (ownMid s), term := term, members := [], reqs := [], recomputeSince := some s.now
                                        splitAt := none, claimAt := none, beaconSentAt := 0, mayStep := false, steer := 0, locked := false
                                        admitted := [ownMid s], timeParent := none, leaseAt := 0, leaseWait := none, granted := s.fab.imported
                                        toResync := [], merging := false, wanted := [] } }
  event s 0x0501 0 (ownMid s % 1024 + at_ 32 term)

/-- The witness's heartbeat is heard. -/
def witnessHeard (s : State) : Bool :=
  match Tbl.find? s.mgmt.heard (cfgv s 0x4102 1) with
  | some r => !elapsed s r.1 (20 * ms)
  | none => false

/-- A candidate counts as live when its probe or its heartbeat has been seen within 20 ms (R220). -/
def candidateLive (s : State) (m : Nat) : Bool :=
  m = ownMid s || heartbeatOf s m ||
    s.fab.probes.any fun r => r.2.gportValid && r.2.gport / 128 = m && !elapsed s r.2.since (20 * ms)

/-- A more senior candidate is live in this half. -/
def seniorLive (s : State) : Bool :=
  (List.range (candidateOf s (ownMid s) - 1)).any fun i => cfgv s 0x4101 (i + 1) < 1024 && candidateLive s (cfgv s 0x4101 (i + 1))

/-- The most senior candidate of the last beacon before the split; before any beacon, the most senior live in this half. -/
def seniorCandidate (s : State) : Nat :=
  match (List.range 4).find? fun i =>
      cfgv s 0x4101 (i + 1) < 1024 && (if s.fab.beaconAt.isSome || s.fab.role = 2 then bit s.fab.alive i else candidateLive s (cfgv s 0x4101 (i + 1))) with
  | some i => cfgv s 0x4101 (i + 1)
  | none => 65535

/-- The twin is silent with the split that detected it (R370). -/
def twinSplit (s : State) : State :=
  if cfgOn s 0x5201 0 && s.twin.silentAt.isNone then { s with twin := { s.twin with silentAt := some s.now, leaseSince := false } } else s

/-- Since when no beacon of the current term has come: before the first, since the first weft port reached ACTIVE. -/
def beaconQuiet (s : State) (d : Nat) : Bool :=
  match s.fab.beaconAt with
  | some t => elapsed s t d
  | none => elapsedOpt s s.fab.firstActive d

/-- Fabric time is unlocked after 20 ms without a beacon (R214). -/
def timeUnlocked (s : State) : State :=
  if s.fab.locked && s.fab.role ≠ 2 && elapsedOpt s s.fab.beaconAt (20 * ms) then
    event { s with fab := { s.fab with locked := false } } 0x0512 0 (at_ 16 (ofI32 s.fab.offset))
  else s

/-- A candidate that has detected a split asks the witness for the next term, once no more senior candidate is live in its own half
(R220); without a witness the senior candidate takes it (R221). -/
def trySucceed (s : State) : State :=
  if candidateOf s (ownMid s) = 0 then s
  else if cfgv s 0x4102 1 ≠ 0 then
    if !witnessHeard s || seniorLive s || s.fab.claimAt.isSome then s
    else sendClaim { s with fab := { s.fab with claimAt := some s.now } } 1 (cfgv s 0x4100 2) s.fab.term
  else if seniorCandidate s = ownMid s then becomeMaster s (s.fab.term + 1)
  else s

/-- BEACON_SILENCE (R214, R219, R220, R221): 20 ms without a valid beacon at a member or at a candidate without a master. -/
def beaconSilence (s : State) : State :=
  let s := timeUnlocked s
  if !fabricOn s || s.fab.role = 2 || !inService s || s.module.state = .fenced then s
  else if s.fab.splitAt.isSome then trySucceed s
  else if !beaconQuiet s (20 * ms) then s
  else
    let s := if s.fab.beaconAt.isSome then twinSplit (event s 0x0502 0 0) else s
    trySucceed { s with fab := { s.fab with splitAt := some s.now } }

def execBeaconSilence (s : State) : Host.Outcome State Fault Refusal := .next (beaconSilence s)

/-- A master without a lease has detected a split (R218, R220): it keeps its role no longer, and stands as a candidate that has
detected one. -/
def stepsDown (s : State) : State :=
  trySucceed { s with fab := { s.fab with role := 1, splitAt := some s.now, beaconAt := some s.now } }

/-- HEARTBEAT_SILENCE (R218 to R221): members silent for 20 ms are removed. The master keeps its role with a working lease, or
without a witness as, or in reach of, the most senior candidate of its last beacon; else its half enters FENCED. -/
def heartbeatSilence (s : State) : State :=
  let gone := (s.fab.members.filter fun r => elapsed s r.2.heardAt (20 * ms)).map Prod.fst
  if s.fab.role ≠ 2 || gone.isEmpty then s
  else
    let senior := seniorCandidate s
    let s := event { s with fab := { s.fab with members := s.fab.members.filter fun r => !gone.contains r.1 } } 0x0502 0 gone.length
    let s := if gone.contains (twinMid s) then twinSplit s else s
    let keeps := if cfgv s 0x4102 1 ≠ 0 then s.fab.witnessOk else senior = ownMid s || !gone.contains senior
    if keeps then recomputeDue s else if cfgv s 0x4102 1 ≠ 0 then stepsDown s else fencedEntry s 3

def execHeartbeatSilence (s : State) : Host.Outcome State Fault Refusal := .next (heartbeatSilence s)

/-! ### The lease (R218, R370) -/

/-- The half holds the twin lease outside fabric mode: the SENIOR at first, and after it the winner of a claim. -/
def holdsTwinLease (s : State) : Bool :=
  !fabricOn s && cfgOn s 0x5201 0 && s.module.state ≠ .fenced && (cfgv s 0x5202 0 = 0 || s.twin.claimWon)

/-- Kind and identity of the lease this module renews. -/
def leaseKind (s : State) : Option (Nat × Nat) :=
  if cfgv s 0x4102 1 = 0 then none
  else if fabricOn s && s.fab.role = 2 then some (1, cfgv s 0x4100 2)
  else if holdsTwinLease s then some (2, cfgv s 0x5204 0)
  else none

/-- A renewal has failed: event 0x0505 once. -/
def leaseFails (s : State) : State :=
  let was := s.fab.witnessOk || !s.fab.leaseBad
  let s := { s with fab := { s.fab with witnessOk := false, leaseBad := true } }
  if was then event s 0x0505 0 (at_ 16 1) else s

/-- WITNESS_STATE (R226): none is configured, a claim is pending, or the witness is reachable or not. -/
def witnessView (s : State) : Nat :=
  if cfgv s 0x4102 1 = 0 then 0
  else if s.fab.claimAt.isSome then 3
  else if witnessHeard s || (s.fab.witnessOk && s.fab.role = 2) then 1
  else 2

/-- LEASE_RENEW (R218): every 5 ms; one that stays unanswered until the next has failed. -/
def leaseRenew (s : State) : State :=
  match leaseKind s with
  | none => s
  | some (k, ident) =>
    if s.fab.leaseAt ≠ 0 && !elapsed s s.fab.leaseAt (5 * ms) then s
    else
      let s := if s.fab.leaseWait.isSome then leaseFails s else s
      sendLease { s with fab := { s.fab with leaseAt := s.now, leaseWait := some s.now } } k ident s.fab.term

def execLeaseRenew (s : State) : Host.Outcome State Fault Refusal := .next (leaseRenew s)

/-- Take the oldest message of a type from the Harmir inbox. -/
def takeMsg (s : State) (typ : Nat) : Option (State × Msg) :=
  match s.mgmt.inbox.find? fun m => m.typ = typ with
  | some m => some ({ s with mgmt := { s.mgmt with inbox := s.mgmt.inbox.erase m } }, m)
  | none => none

/-- LEASE_RESP (R218): status 0 renews; any other is a failed renewal. -/
def leaseResp (s : State) : State :=
  match takeMsg s 0x0E with
  | none => s
  | some (s, m) =>
    let s := { s with fab := { s.fab with leaseWait := none } }
    if leAt m.body 4 1 = 0 then
      { s with fab := { s.fab with leaseOk := some s.now, witnessOk := true, leaseBad := false }
               twin := { s.twin with leaseSince := s.twin.leaseSince || s.twin.silentAt.isSome } }
    else leaseFails s

def execLeaseResp (s : State) : Host.Outcome State Fault Refusal := .next (leaseResp s)

/-- CLAIM_RESP (R220, R370). -/
def claimResp (s : State) : State :=
  match takeMsg s 0x10 with
  | none => s
  | some (s, m) =>
    let status := leAt m.body 4 1
    let term := leAt m.body 5 4
    if s.fab.claimAt.isNone then s
    else
      let s := noteTerm { s with fab := { s.fab with claimAt := none } } term
      if status = 0 then
        let s := event s 0x0503 0 (at_ 32 term)
        let s := { s with twin := { s.twin with claimWon := s.twin.silentAt.isSome || s.twin.claimWon }, fab := { s.fab with witnessOk := true } }
        if fabricOn s then becomeMaster s term else { s with fab := { s.fab with term := term, leaseAt := 0, leaseWait := none } }
      else
        let s := event s 0x0504 0 ((s.fab.master.getD (twinMid s)) % 1024 + at_ 32 term)
        let s := fencedEntry s 1
        if fabricOn s then sendFenceNotices s term 1 else s

def execClaimResp (s : State) : Host.Outcome State Fault Refusal := .next (claimResp s)

/-- WITNESS_UNREACHABLE_FENCE (R220): 20 ms after detection, a candidate that cannot reach its witness enters FENCED. -/
def witnessUnreachableFence (s : State) : State :=
  let since := if fabricOn s then s.fab.splitAt else s.twin.silentAt
  let candidate := if fabricOn s then candidateOf s (ownMid s) ≠ 0 && s.fab.role ≠ 2 else cfgOn s 0x5201 0 && !holdsTwinLease s
  if cfgv s 0x4102 1 ≠ 0 && candidate && s.fab.claimAt.isNone && elapsedOpt s since (20 * ms) && !witnessHeard s then
    fencedEntry (event s 0x0505 0 0) 2
  else s

def execWitnessUnreachableFence (s : State) : Host.Outcome State Fault Refusal := .next (witnessUnreachableFence s)

/-- MEMBER_FENCE_DEADLINE (R222): 40 ms after the last beacon, a claim under way or not. -/
def memberFenceDeadline (s : State) : State :=
  if fabricOn s && s.fab.role ≠ 2 && s.fab.splitAt.isSome && elapsedOpt s s.fab.beaconAt (40 * ms) then
    fencedEntry s (if cfgv s 0x4102 1 = 0 && candidateOf s (ownMid s) ≠ 0 then 3 else 5)
  else s

def execMemberFenceDeadline (s : State) : Host.Outcome State Fault Refusal := .next (memberFenceDeadline s)

/-- The effect of MASTER_FORCE 1 on a FENCED candidate. -/
def actMasterForce (s : State) : State :=
  let t := highestTerm s + 1
  fencedExit (becomeMaster (event s 0x0515 0 (at_ 32 t)) t)

/-- MASTER_FORCE (R225). -/
def execMasterForce (sess value : Nat) (s : State) : Host.Outcome State Fault Refusal :=
  .next (actWrite s sess 0x4106 1 value
    (if value = 0 || (s.module.state = .fenced && candidateOf s (ownMid s) ≠ 0 && fabricOn s) then 0 else 5) id (onOne value actMasterForce))

/-- The survivor's adoption is reported to the master when it begins and when it has ended (R372). -/
def adoptionReports (s : State) : State :=
  if !fabricOn s then s
  else
    match s.twin.st, s.fab.adoptTold with
    | .adopting, none => memberReport { s with fab := { s.fab with adoptTold := some s.twin.lostMid } } 5 0 s.twin.lostMid 0
    | .adopting, some _ => s
    | _, some m => memberReport { s with fab := { s.fab with adoptTold := none } } 7 0 m 0
    | _, none => s

end Sys2Proof.Machine
end

