-- ==== Sys2Proof/Machine/Pair.lean ====
section
/-!
DEFINITION. The pair's decisions (R370, R371), the connections the treadle opens for itself, and what the blocks above do when
weft ports change state or bring operations.
-/

namespace Sys2Proof.Machine

/-! ### Mirror records and the mirror rate -/

/-- MIRROR_RECORD_RECEIVE (R365): a GONE record declares the twin lost at once (R371). -/
def mirrorRecordReceive (s : State) : State :=
  let s := takeMirror s
  if s.twin.gone then twinDeclare s 1 else s

/-! ### Silence and loss (R370, R371) -/

/-- The twin's probes or heartbeats have come within 20 ms. -/
def twinHeard (s : State) : Bool := twinProbes s || heartbeatOf s (twinMid s)

/-- TWIN_SILENCE (R370): 20 ms without them reveal a split outside fabric mode. -/
def twinSilence (s : State) : State :=
  let joined := s.twin.st = .joining || s.twin.st = .protected_ || s.twin.st = .unprotected
  let serving := s.module.state = .service || s.module.state = .degraded
  if fabricOn s || !cfgOn s 0x5201 0 || !joined || !serving || s.twin.silentAt.isSome || twinHeard s || !elapsed s s.module.since (20 * ms) then s
  else
    let s := twinSplit s
    if cfgv s 0x4102 1 = 0 then (if cfgv s 0x5202 0 = 0 then s else fencedEntry s 3)
    else if holdsTwinLease s then (if s.fab.witnessOk then s else fencedEntry s 2)
    else if witnessHeard s then sendClaim { s with fab := { s.fab with claimAt := some s.now } } 2 (cfgv s 0x5204 0) s.fab.term
    else s

def execTwinSilence (s : State) : Host.Outcome State Fault Refusal := .next (twinSilence s)

/-- The half decides: it holds the lease, or keeps or has gained the role of fabric master. -/
def pairHolder (s : State) : Bool := if fabricOn s then s.fab.role = 2 else holdsTwinLease s

/-- Why the twin may be declared lost now (R371), or 0. -/
def lostCause (s : State) : Nat :=
  if s.module.state = .fenced then 0
  else if s.twin.gone then 1
  else if s.twin.claimWon && s.twin.silentAt.isSome then 2
  else if cfgv s 0x4102 1 ≠ 0 && pairHolder s && s.twin.leaseSince && elapsedOpt s s.twin.silentAt (10 * ms) then 3
  else if cfgv s 0x4102 1 = 0 && cfgv s 0x5202 0 = 0 && (!fabricOn s || s.fab.role = 2) && elapsedOpt s s.twin.silentAt (10 * ms) then 4
  else 0

/-- TWIN_LOST_DECLARE (R371). -/
def twinLostDeclare (s : State) : State := let c := lostCause s; if c = 0 then s else adoptionReports (twinDeclare s c)

/-- The twin is heard again before the decision. -/
def silenceEnds (s : State) : State :=
  if !fabricOn s && s.twin.silentAt.isSome && s.twin.st ≠ .adopting && s.twin.st ≠ .alone && twinProbes s then
    { s with twin := { s.twin with silentAt := none, leaseSince := false } }
  else s

/-! ### Connections of the treadle (R185, R210, R363) -/

/-- Open a connection of the treadle in a context that is free. -/
def treadleOpen (s : State) (c mid tc kind owner : Nat) : State :=
  if (Tbl.find? s.shu.conns c).isNone && (secretFor s mid).isSome then openConn s c mid tc false true (cfgv s 0x4201 0) kind owner
  else if kind = 3 && (connOf s c).st = .failed then ownerClose s c
  else s

/-- The twin connection, at the SENIOR half. -/
def openTwin (s : State) : State :=
  if cfgOn s 0x5201 0 && cfgv s 0x5202 0 = 0 && !(twinLinks s).isEmpty &&
      (s.twin.st = .joining || s.twin.st = .protected_ || s.twin.st = .unprotected) then
    treadleOpen s (twinCid s) (twinMid s) (cfgv s 0x5206 0) 2 0
  else s

/-- The management connection of a member, once a bank routes it to the master. -/
def openManagement (s : State) : State :=
  match s.fab.master with
  | some m => if s.fab.role = 1 && s.fab.epoch ≠ 0 && (routeEntry s m).valid then treadleOpen s 0 m 0 2 0 else s
  | none => s

/-- The tunnels of the partitions admitted with an imported upstream port: each module opens the connection that carries its
own TLPs (R210, R235). -/
def openTunnels (s : State) : State :=
  s.fab.imported.foldl (fun s a =>
    if a.pgid / 32 = ownMid s then treadleOpen s a.cidA (a.gport / 128) 0 3 (a.pgid % 32)
    else if a.gport / 128 = ownMid s then treadleOpen s a.cidB (a.pgid / 32) 0 3 (a.pgid % 32)
    else s) s

/-- VS_UPSTREAM of a partition: a global port of another module (R117). -/
def importedPort (s : State) (v : Nat) : Option Nat :=
  let g := cfgv s 0x3302 (v + 1)
  if partEnabled s v && bit g 31 && fabricOn s && g % 131072 / 128 ≠ ownMid s then some (g % 131072) else none

/-- The imported upstream ports of this module's partitions, as partition global IDs and global ports. -/
def ownImports (s : State) : List (Nat × Nat) :=
  (List.range 32).filterMap fun v => (importedPort s v).map fun g => (ownMid s * 32 + v, g)

/-- The master learns of them by MEMBER_REPORT (DESIGN CHOICE, log entry 10: R197 names no message that tells it). -/
def tellImports (s : State) : State :=
  if !fabricOn s || s.fab.master.isNone then s
  else
    let own := ownImports s
    let s := (s.fab.importsTold.filter fun r => !own.contains r).foldl (fun s r => memberReport s 8 0 r.1 (2 ^ 31)) s
    let s := (own.filter fun r => !s.fab.importsTold.contains r).foldl (fun s r => memberReport s 8 0 r.1 r.2) s
    if own = s.fab.importsTold then s else { s with fab := { s.fab with importsTold := own } }

/-- The context numbers of a pair: the lowest that no admission has, free here where this module is one of the two (DESIGN CHOICE, log
entry 33). -/
def pairCid (s : State) : Option Nat :=
  (List.range 15360).find? fun c => c ≠ 0 && !(s.fab.granted.any fun a => a.cidA = c || a.cidB = c) &&
    (Tbl.find? s.shu.conns c).isNone && !(cfgOn s 0x5201 0 && c = cfgv s 0x5205 0)

/-- The master admits a partition that imports an upstream port once both modules are admitted (R210): both receive the same CIDs. -/
def admitWanted (s : State) : State :=
  if s.fab.role ≠ 2 then s
  else
    s.fab.wanted.foldl (fun s r =>
      let m := r.1 / 32
      let n := r.2 % 131072 / 128
      if s.fab.granted.any (fun a => a.pgid = r.1 && a.gport = r.2) || !s.fab.admitted.contains m || !s.fab.admitted.contains n then s
      else
        match pairCid s with
        | some c =>
          let a : AdmittedVs := { pgid := r.1, gport := r.2, cidA := c, cidB := c }
          sendAdmission (sendAdmission { s with fab := { s.fab with granted := (s.fab.granted.filter fun b => b.pgid ≠ r.1) ++ [a] } } m a) n a
        | none => s) s

def treadleConns (s : State) : State :=
  if inService s && s.module.state ≠ .fenced then openTunnels (admitWanted (tellImports (openManagement (openTwin s)))) else s

/-! ### Weft ports that have changed (R190, R211, R343) -/

/-- The credits of a link that has gone down are forgotten with it (R105): what the loom still holds of it returns none. -/
def forgetCredits (s : State) (p : Nat) : State :=
  let f := fun (c : Chain) => match c.credit with
    | some x => if x.1 = p then { c with credit := none } else c
    | none => c
  { s with loom := { s.loom with chains := s.loom.chains.map fun r => (r.1, f r.2) } }

/-- A port has gone down. -/
def portDowned (s : State) (p : Nat) : State :=
  let s := forgetCredits s p
  let s := pathRemoved s p (weftPort s p).lastCause
  let s := { s with
    shu := { s.shu with linkKeys := Tbl.erase s.shu.linkKeys p }
    fab := { s.fab with probes := Tbl.erase s.fab.probes p, probeAt := Tbl.erase s.fab.probeAt p, beacons := Tbl.erase s.fab.beacons p
                        fencedReported := s.fab.fencedReported.filter fun q => q % 128 ≠ p } }
  dropQueue s p

/-- An error of a weft port at its selvedge. -/
def weftClassified (s : State) (e : Nat × Nat) : State :=
  if e.2 = 2 then selCorrectable s e.1 2 else selContained s e.1 e.2 3 none 0

/-- Counters of an operation that has left `d` by cut-through (R181, R510). -/
def relayCounted (s : State) (d : Nat) (o : WireOp) (n : Nat) : State :=
  let s := count (count (filterItem s 2 (operFilter o n)) (ctrLoom d 0) 1) (ctrLoom d (6 + envClass o)) (cells n)
  count (count s (ctrPort d 13) 1) (ctrPort d 15) (ceilDiv n 64)

/-- An operation has arrived whole, or aborted (R75). One that has been relayed by cut-through gives up its bobbins (R177). -/
def weftArrival (s : State) (a : Arrival) : State :=
  let freed := fun (s : State) => weftRelease s a.port a.tc (ceilDiv a.bytes.length 64)
  match a.relay, a.aborted with
  | some (_, c), true => freed (freeChain s c)
  | some (d, c), false =>
    let o := arrivedOp a.bytes
    freed (freeChain (relayCounted (arrivalCounted s a.port o a.bytes.length) d o a.bytes.length) c)
  | none, true => freed s
  | none, false => fabricArrive s a.port a.tc a.bytes

/-- The ingress of a relay has gone down (R178): event 0x040B; the bobbins are freed. -/
def relayBroken (s : State) (b : Nat × Nat × Nat) : State :=
  event (freeChain s b.2.2) 0x040B b.1 (b.1 + at_ 16 b.2.1)

/-- A port has entered ACTIVE: a probe is due at once (R193). -/
def portRisen (s : State) (p : Nat) : State := { s with fab := { s.fab with probeAt := Tbl.erase s.fab.probeAt p } }

/-- A port in service: its link key, and its return to path sets; one in RETRAIN leaves them (R211). -/
def portFollowed (s : State) (p : Nat) : State :=
  match (weftPort s p).link with
  | .active => pathRestored (deriveLinkKey s p) p
  | .retrain => pathRemoved s p (weftPort s p).lastCause
  | _ => s

def noteFirstActive (s : State) : State :=
  if s.fab.firstActive.isNone && (List.range 128).any (fun p => linkUp s p && !isTwinPort s p) then
    { s with fab := { s.fab with firstActive := some s.now } }
  else s

/-- The fabric's side of the end of a step: what the weft ports have brought is acted on. -/
def weftSettled (s : State) : State :=
  let down := s.weft.downed
  let errs := s.weft.errs
  let ins := s.weft.arrived
  let up := s.weft.risen
  let broken := s.weft.broken
  let s := { s with weft := { s.weft with downed := [], errs := [], arrived := [], risen := [], broken := [] } }
  let s := broken.foldl relayBroken s
  let s := errs.foldl weftClassified s
  let s := down.foldl portDowned s
  let s := up.foldl portRisen s
  let s := ins.foldl weftArrival s
  let s := (weftPorts s).foldl portFollowed s
  treadleConns (adoptionReports (sendReleases (silenceEnds (twinCheck (noteFirstActive s)))))

end Sys2Proof.Machine
end

