-- ==== Sys2Proof/Machine/Sessions.lean ====
section
/-!
DEFINITION. The end of a session (R458), and of a tally hold (R519).
-/

namespace Sys2Proof.Machine

/-- The session fields of an event: number, role and source byte (R483). -/
def sessionInfo (x : Session) : Nat := x.num % 65536 + at_ 16 (x.role % 8) + at_ 24 (x.source % 256)

/-- A hold of the tally ends: the image that filled meanwhile is published (R519). -/
def releaseHold (s : State) : State :=
  let y := s.obs.tally
  { s with obs := { s.obs with tally := { y with hold := none, behind := none, image := match y.behind with
      | some m => some m
      | none => y.image } } }

/-- A session ends: its pending set, its PARAM values and the load claim it held go with it (R458, R438). -/
def endSession (s : State) (num cause : Nat) : State :=
  match sessionOf s num with
  | none => s
  | some x =>
    let s := { s with mgmt := { s.mgmt with sessions := s.mgmt.sessions.filter fun y => y.num ≠ num }
                      module := { s.module with claim := match s.module.claim with
                        | some (n, sl, len) => if n = num then none else some (n, sl, len)
                        | none => none } }
    let s := if s.obs.tally.hold = some num then releaseHold s else s
    event s 0x0B01 0 (sessionInfo x + at_ 32 cause)

/-- End every session that meets a test. -/
def endSessions (s : State) (f : Session → Bool) (cause : Nat) : State :=
  ((s.mgmt.sessions.filter f).map fun x => x.num).foldl (fun s n => endSession s n cause) s

/-- The mailbox session of a partition ends (R458). -/
def endMailbox (s : State) (v cause : Nat) : State := endSessions s (fun x => x.source = 128 + v) cause

end Sys2Proof.Machine
end

