-- ==== Sys2Proof/Machine/Engine.lean ====
section
/-!
DEFINITION. The window engine's functions (chapter 10): the admin queue and its commands, virtual functions and their resets,
descriptor queues, and the translation unit.
-/

namespace Sys2Proof.Machine

/-! ### Instances and their shares (R298, R316) -/

/-- The instances of a partition. -/
def instsOf (s : State) (v : Nat) : List (Nat × InstState) := s.eng.insts.filter fun r => r.2.vs = v

/-- The instance belongs to the partition. -/
def ownsInst (s : State) (v i : Nat) : Bool :=
  match instOf s i with
  | some x => x.vs = v && !x.ending
  | none => false

/-- The connection belongs to the partition: a function's of it, or its tunnel. -/
def ownsConn (s : State) (v c : Nat) : Bool :=
  match Tbl.find? s.shu.conns c with
  | some x => x.ownerKind = 0 && (match instOf s x.ownerId with | some i => i.vs = v | none => false)
  | none => false

/-- The partition share of a resource: 1 queue pairs, 3 imports, 4 connections, 5 bandwidth, 6 mappings. -/
def partShare (s : State) (v r : Nat) : Nat :=
  match r with
  | 1 => cfgv s 0x4402 (v + 1)
  | 2 => cfgv s 0x4403 (v + 1)
  | 3 => cfgv s 0x4404 (v + 1)
  | 4 => cfgv s 0x4405 (v + 1)
  | 5 => cfgv s 0x4406 (v + 1)
  | _ => cfgv s 0x4408 (v + 1)

/-- The share of an instance: its own, capped at the partition's (R317). -/
def instShare (s : State) (x : InstState) (r : Nat) : Nat := min (Tbl.get x.shares r (partShare s x.vs r)) (partShare s x.vs r)

/-- Use of a resource by an instance. -/
def instUse (s : State) (i : Nat) (r : Nat) : Nat :=
  match r with
  | 1 => match instOf s i with | some x => x.queues.length | none => 0
  | 3 => (s.win.imports.filter fun k => k.2.func = i).length
  | 4 => (s.shu.conns.filter fun k => k.2.ownerKind = 0 && k.2.ownerId = i && k.2.st ≠ .idle).length
  | 6 => match instOf s i with | some x => x.maps.length | none => 0
  | _ => 0

def partUse (s : State) (v r : Nat) : Nat := ((instsOf s v).map fun k => instUse s k.1 r).sum

def poolUse (s : State) (r : Nat) : Nat := (s.eng.insts.map fun k => instUse s k.1 r).sum

def poolSize (r : Nat) : Nat :=
  match r with
  | 1 => 4096
  | 3 => 65536
  | 4 => 16384
  | _ => 262144

/-- One more of a resource fits within the instance share, the partition share and the pool. -/
def shareAllows (s : State) (i r : Nat) : Bool :=
  match instOf s i with
  | some x => instUse s i r < instShare s x r && partUse s x.vs r < partShare s x.vs r && poolUse s r < poolSize r
  | none => false

/-- An allocation refused by its share: event 0x0725. -/
def shareRefused (s : State) (v r : Nat) : State := eventIn s (some v) 0x0725 0 (at_ 16 v + at_ 24 r)

/-! ### The admin queue (R302, R303, R306) -/

def admEntries (x : AdmBlk) : Nat := 2 ^ bits x.size 0 4
def admcqEntries (x : AdmBlk) : Nat := 2 ^ bits x.size 8 4

/-- The completion ring holds a full round of completions the driver has not consumed. -/
def admFull (x : AdmBlk) : Bool := (x.cqTail + 1) % admcqEntries x = x.cqHead

/-- The command that 64 bytes give. -/
def admCommand (v head : Nat) (bs : List Byte) : AdmCmd :=
  { vs := v, op := leAt bs 0 1, id := leAt bs 2 2, target := leAt bs 4 4, arg := leAt bs 8 8, data := (bs.drop 16).take 48, head := head }

/-- Fetch the commands up to the tail. A ring that the heddle of the host's port denies stops the queue (DESIGN CHOICE, log entry
116: R302 names no such end). -/
def admFetch : Nat → Nat → State → State
  | 0, _, s => s
  | fuel + 1, v, s =>
    let x := admOf s v
    if x.head = x.tail then s
    else
      let h := (x.head + 1) % admEntries x
      match hostFetch s v (x.base + 64 * x.head) 64 with
      | (s, some bs) =>
        let s := setAdm s v { x with head := h }
        admFetch fuel v { s with eng := { s.eng with cmds := s.eng.cmds ++ [admCommand v h bs] } }
      | (s, none) => setAdm s v { x with enabled := false, stopped := true }

def admOpcodes : List Nat := [1, 2, 3, 4, 8, 9, 10, 11, 0x10, 0x11, 0x12, 0x13, 0x14, 0x15, 0x18, 0x20, 0x21, 0x22, 0x28, 0x29, 0x2A]

/-- The oldest command of each partition, which is the next to start. -/
def admHeads (s : State) : List AdmCmd :=
  (List.range 32).filterMap fun v => s.eng.cmds.find? fun c => c.vs = v

def admDrop (s : State) (c : AdmCmd) : State := { s with eng := { s.eng with cmds := s.eng.cmds.erase c } }

/-- A command with a reserved opcode is malformed in its first byte. -/
def admReserved : Nat → State → State
  | 0, s => s
  | fuel + 1, s =>
    match (admHeads s).find? fun c => !admOpcodes.contains c.op && !admFull (admOf s c.vs) with
    | some c => admReserved fuel (admFinish (admDrop s c) c 6 0 0)
    | none => s

/-- A queue being disabled is off once no command is in progress. -/
def admDisabled (s : State) (v : Nat) : State :=
  let x := admOf s v
  if x.disabling && !s.eng.waits.any (fun w => w.cmd.vs = v) then
    let s := setAdm s v { x with enabled := false, disabling := false }
    { s with eng := { s.eng with cmds := s.eng.cmds.filter fun c => c.vs ≠ v } }
  else s

def admSettled (s : State) : State := (List.range 32).foldl admDisabled (admReserved 4096 s)

/-- The tail doorbell of the command ring. A tail beyond the ring is taken modulo its entries. -/
def admqTailDoorbell (v tail : Nat) (s : State) : State :=
  let x := admOf s v
  if x.enabled && !x.disabling && !x.stopped then admSettled (admFetch (admEntries x) v (setAdm s v { x with tail := tail % admEntries x })) else s

def execAdmqTailDoorbell (v : Vs) (tail : Nat) (s : State) : Host.Outcome State Fault Refusal := .next (admqTailDoorbell v tail s)

/-- ADMQ_CTRL (R302): enabling starts both rings from their first entries; a misaligned ring address stops the queue. -/
def admqCtrl (v value : Nat) (s : State) : State :=
  let x := admOf s v
  if bit value 0 then
    if x.enabled then s
    else
      let bad := x.base % 64 ≠ 0 || x.cqBase % 16 ≠ 0 || bits x.size 0 4 < 4 || 12 < bits x.size 0 4 || bits x.size 8 4 < 4 || 12 < bits x.size 8 4
      setAdm s v { x with enabled := !bad, disabling := false, stopped := bad, tail := 0, head := 0, cqTail := 0, cqHead := 0, phase := true }
  else if x.enabled then admDisabled (setAdm s v { x with disabling := true }) v
  else setAdm s v { x with stopped := false }

def execAdmqCtrl (v : Vs) (value : Nat) (s : State) : Host.Outcome State Fault Refusal := .next (admqCtrl v value s)

/-- ADMCQ_HEAD (R306): completions consumed. -/
def admcqHead (v value : Nat) (s : State) : State :=
  let x := admOf s v
  admSettled (setAdm s v { x with cqHead := value % admcqEntries x })

def execAdmcqHead (v : Vs) (value : Nat) (s : State) : Host.Outcome State Fault Refusal := .next (admcqHead v value s)

/-- The kind of object a command names: 1 window, 2 import, 3 connection, 4 queue, 5 mapping. -/
def admKind (op : Nat) : Nat :=
  if op ≤ 4 then 1 else if op ≤ 0x0B then 2 else if op = 0x10 || (0x11 ≤ op && op ≤ 0x14) then 3 else if op = 0x21 || op = 0x20 then 4 else 5

/-- A mapping named by instance, IOVA and size. -/
def mapName (i iova size : Nat) : Nat := (i * 2 ^ 64 + iova) * 64 + size

/-- The object a command names, as the waiting commands are kept. -/
def admObject (c : AdmCmd) : Option Nat :=
  match c.op with
  | 0x20 => some (c.target * 16 + leAt c.data 18 1 % 16)
  | 0x21 => some (c.target * 16 + c.arg % 16)
  | 0x28 => some (mapName c.target (leAt c.data 0 8) (leAt c.data 16 1))
  | 0x29 => some (mapName c.target (leAt c.data 0 8) (leAt c.data 8 1))
  | 0x10 | 0x15 | 0x18 | 0x22 | 0x2A => none
  | _ => some c.target

/-- An earlier command on the same object has not completed (R306). The object is the one that the command names: a queue for 0x20 and
0x21, a mapping for 0x28 and 0x29, else TARGET within its kind (DESIGN CHOICE, log entry 41). -/
def admBusy (s : State) (c : AdmCmd) : Bool :=
  match admObject c with
  | some o => s.eng.waits.any fun w => w.obj = o && admKind w.cmd.op = admKind c.op
  | none => false

/-- A command waits: its completion follows. -/
def admWait (s : State) (c : AdmCmd) (obj : Nat) : State :=
  { s with eng := { s.eng with waits := s.eng.waits ++ [{ cmd := c, obj := obj, since := s.now }] } }

def admDone (s : State) (c : AdmCmd) : State := admFinish s c 0 0 0

/-- Start the oldest command of an opcode that is next in its ring (R306). -/
def admStart (s : State) (op : Nat) (f : State → AdmCmd → State) : State :=
  match (admHeads s).find? fun c => c.op = op && !admFull (admOf s c.vs) && !(admOf s c.vs).disabling with
  | none => s
  | some c =>
    let s := admDrop s c
    admSettled (if admBusy s c then admFinish s c 1 0xFF 0 else f s c)

/-! ### Windows (R269, R270, R304) -/

/-- WINDOW_OPEN. -/
def windowOpen (s : State) : State :=
  admStart s 1 fun s c =>
    let i := Window.image (leAt c.data 0 32)
    let st := if 65536 ≤ c.target then 1 else openRefusal s c.vs c.target i
    if st ≠ 0 then
      let s := if st = 7 then shareRefused s c.vs 2 else s
      admFinish (openRefused s c.vs c.target st) c st 0 0
    else
      let s := openWindow s c.vs c.target i
      admFinish s c 0 0 (winOf s c.target).gen

def execWindowOpen (s : State) : Host.Outcome State Fault Refusal := .next (windowOpen s)

/-- A window that another partition owns, or a number past the table. -/
def windowStatus (s : State) (c : AdmCmd) : Nat :=
  if 65536 ≤ c.target then 4 else if (winOf s c.target).st ≠ .free && (winOf s c.target).owner ≠ c.vs then 3 else 0

/-- WINDOW_REVOKE: event 0x0702, and the completion at REVOKED. -/
def windowRevoke (s : State) : State :=
  admStart s 2 fun s c =>
    let st := windowStatus s c
    let x := winOf s c.target
    if st ≠ 0 then admFinish s c st 0 0
    else if x.st ≠ .open_ then admFinish s c 1 x.st.code 0
    else
      let s := winEvent s c.vs 0x0702 (c.target + at_ 16 x.gen + at_ 32 x.admitted)
      admWait (startRevoke s c.target) c c.target

def execWindowRevoke (s : State) : Host.Outcome State Fault Refusal := .next (windowRevoke s)

/-- WINDOW_FREE. -/
def windowFree (s : State) : State :=
  admStart s 3 fun s c =>
    let st := windowStatus s c
    let x := winOf s c.target
    if st ≠ 0 then admFinish s c st 0 0
    else if x.st ≠ .revoked then admFinish s c 1 x.st.code 0
    else admDone (freeWindow s c.target) c

def execWindowFree (s : State) : Host.Outcome State Fault Refusal := .next (windowFree s)

/-- WINDOW_READ. -/
def windowRead (s : State) : State :=
  admStart s 4 fun s c =>
    let st := windowStatus s c
    if st ≠ 0 then admFinish s c st 0 0
    else admDone (hostPost s c.vs c.arg (leBytes 32 (winOf s c.target).word)) c

def execWindowRead (s : State) : Host.Outcome State Fault Refusal := .next (windowRead s)

/-! ### Imports (R277, R304) -/

/-- The partition of an import. -/
def importOwner (s : State) (n : Nat) : Option Nat :=
  match Tbl.find? s.win.imports n with
  | some x => (instOf s x.func).map fun i => i.vs
  | none => none

/-- An import of another partition, or a number past the table. -/
def importStatus (s : State) (c : AdmCmd) : Nat :=
  if 65536 ≤ c.target then 4
  else
    match importOwner s c.target with
    | some v => if v ≠ c.vs then 3 else 0
    | none => 0

/-- IMPORT_WRITE. -/
def importWrite (s : State) : State :=
  admStart s 8 fun s c =>
    let st := importStatus s c
    let x := Import.image (leAt c.data 0 32)
    let old := Tbl.find? s.win.imports c.target
    let more := match old with
      | some y => y.func ≠ x.func
      | none => true
    if st ≠ 0 then admFinish s c st 0 0
    else if !ownsInst s c.vs x.func || !ownsConn s c.vs x.cid then admFinish s c 3 0 0
    else if x.sizeLog2 < 12 || 41 < x.sizeLog2 then admFinish s c 6 46 0
    else if x.base % 2 ^ x.sizeLog2 ≠ 0 then admFinish s c 6 24 0
    else if x.winBase % 2 ^ x.sizeLog2 ≠ 0 then admFinish s c 6 16 0
    else if more && !shareAllows s x.func 3 then admFinish (shareRefused s c.vs 3) c 2 3 0
    else admDone { s with win := { s.win with imports := Tbl.set s.win.imports c.target x } } c

def execImportWrite (s : State) : Host.Outcome State Fault Refusal := .next (importWrite s)

/-- An access already matched to an import waits to be accepted or refused. -/
def importInUse (s : State) (cid window : Nat) : Bool :=
  s.shu.waiting.any fun op => op.cid = cid && op.ticket.isNone && op.inst.isSome && op.typ ≤ 3 && (reqHead op.head).window = window

/-- IMPORT_INVALIDATE: it completes after the accesses already matched to the entry have been accepted or refused. -/
def importInvalidate (s : State) : State :=
  admStart s 9 fun s c =>
    let st := importStatus s c
    if st ≠ 0 then admFinish s c st 0 0
    else
      match Tbl.find? s.win.imports c.target with
      | none => admFinish s c 1 0 0
      | some x =>
        let s := { s with win := { s.win with imports := Tbl.erase s.win.imports c.target } }
        if importInUse s x.cid x.window then admWait s { c with arg := x.cid * 65536 + x.window } c.target else admDone s c

def execImportInvalidate (s : State) : Host.Outcome State Fault Refusal := .next (importInvalidate s)

/-- The invalidations that need wait no longer complete. -/
def invalidateSettled (s : State) : State :=
  finishWaits s (fun w => w.cmd.op = 9 && !importInUse s (w.cmd.arg / 65536) (w.cmd.arg % 65536)) 0 0 fun _ => 0

/-- IMPORT_READ. -/
def importRead (s : State) : State :=
  admStart s 0x0A fun s c =>
    let st := importStatus s c
    if st ≠ 0 then admFinish s c st 0 0
    else
      let w := match Tbl.find? s.win.imports c.target with
        | some x => x.word
        | none => 0
      admDone (hostPost s c.vs c.arg (leBytes 32 w)) c

def execImportRead (s : State) : Host.Outcome State Fault Refusal := .next (importRead s)

/-- IMPORT_SET_GEN. -/
def importSetGen (s : State) : State :=
  admStart s 0x0B fun s c =>
    let st := importStatus s c
    if st ≠ 0 then admFinish s c st 0 0
    else
      match Tbl.find? s.win.imports c.target with
      | none => admFinish s c 1 0 0
      | some x => admDone { s with win := { s.win with imports := Tbl.set s.win.imports c.target { x with gen := c.arg % 65536 } } } c

def execImportSetGen (s : State) : Host.Outcome State Fault Refusal := .next (importSetGen s)

/-! ### Connections (R237, R239, R304) -/

/-- CONN_OPEN. -/
def connOpenCmd (s : State) : State :=
  admStart s 0x10 fun s c =>
    let b := fun (i : Nat) => leAt c.data i 1
    let mid := leAt c.data 0 2
    if 2048 ≤ c.target then admFinish s c 4 0 0
    else if !ownsInst s c.vs c.target then admFinish s c 3 0 0
    else if 1024 ≤ mid then admFinish s c 6 16 0
    else if 8 ≤ b 2 then admFinish s c 6 18 0
    else if 2 ≤ b 3 then admFinish s c 6 19 0
    else if 2 ≤ b 4 then admFinish s c 6 20 0
    else if b 5 = 0 || 16 ≤ b 5 then admFinish s c 6 21 0
    else if !shareAllows s c.target 4 then admFinish (shareRefused s c.vs 4) c 2 4 0
    else
      match freeContext s with
      | none => admFinish (shareRefused s c.vs 4) c 2 4 0
      | some k => openConn (admWait s c k) k mid (b 2) (b 3 = 1) (b 4 = 1) (b 5) 0 c.target

def execConnOpen (s : State) : Host.Outcome State Fault Refusal := .next (connOpenCmd s)

/-- A connection command's target: past the contexts, or not a connection of the partition. -/
def connStatus (s : State) (c : AdmCmd) : Nat := if 16384 ≤ c.target then 4 else if !ownsConn s c.vs c.target then 3 else 0

/-- CONN_MODIFY: mirrored when the connection is protected (R364). -/
def connModify (s : State) : State :=
  admStart s 0x11 fun s c =>
    let st := connStatus s c
    if st ≠ 0 then admFinish s c st 0 0
    else if 2 ≤ leAt c.data 0 1 then admFinish s c 6 16 0
    else if leAt c.data 1 1 = 0 || 16 ≤ leAt c.data 1 1 then admFinish s c 6 17 0
    else
      let x := connOf s c.target
      let s := setConn s c.target { x with autoResume := leAt c.data 0 1 = 1, retryLimit := leAt c.data 1 1 }
      admDone (if x.live then mirrorConn s c.target 2 false else s) c

def execConnModify (s : State) : Host.Outcome State Fault Refusal := .next (connModify s)

/-- CONN_RESET: it completes at ACTIVE or FAILED. -/
def connResetCmd (s : State) : State :=
  admStart s 0x12 fun s c =>
    let st := connStatus s c
    let x := connOf s c.target
    let under := match x.exch with
      | some e => e.kind
      | none => 0
    if st ≠ 0 then admFinish s c st 0 0
    else if !(x.st = .active || x.st = .stalled) || under = 4 then admFinish s c 1 x.st.code 0
    else if under = 3 then admWait s c c.target
    else if !s.vault.entropyOk then admFinish s c 1 x.st.code 0
    else startRequest (admWait s c c.target) c.target 3 false

def execConnReset (s : State) : Host.Outcome State Fault Refusal := .next (connResetCmd s)

/-- CONN_READ. -/
def connReadCmd (s : State) : State :=
  admStart s 0x13 fun s c =>
    let st := connStatus s c
    if st ≠ 0 then admFinish s c st 0 0 else admDone (hostPost s c.vs c.arg (contextBytes s c.target)) c

def execConnRead (s : State) : Host.Outcome State Fault Refusal := .next (connReadCmd s)

/-- CONN_CLOSE: it completes at IDLE. -/
def connCloseCmd (s : State) : State :=
  admStart s 0x14 fun s c =>
    let st := connStatus s c
    let x := connOf s c.target
    if st ≠ 0 then admFinish s c st 0 0
    else if !(x.st = .active || x.st = .stalled || x.st = .failed) then admFinish s c 1 x.st.code 0
    else ownerClose (admWait s c c.target) c.target

def execConnClose (s : State) : Host.Outcome State Fault Refusal := .next (connCloseCmd s)

/-- LEDGER_READ: an installer session on the partition's mailbox is required. -/
def ledgerReadCmd (s : State) : State :=
  admStart s 0x15 fun s c =>
    if !s.mgmt.sessions.any (fun x => x.source = 128 + c.vs && x.role = 2) then admFinish s c 5 0 0
    else if 65536 ≤ c.target then admFinish s c 4 0 0
    else
      let w := match Tbl.find? s.shu.ledger c.target with
        | some e => ledgerWord s c.target e
        | none => 0
      admDone (hostPost s c.vs c.arg (leBytes 16 w)) c

def execLedgerRead (s : State) : Host.Outcome State Fault Refusal := .next (ledgerReadCmd s)

/-! ### Fence slots, queues, shares and translations (R308, R314 to R317) -/

/-- A command on an instance: past the instances, or not one of the partition. -/
def instStatus (s : State) (c : AdmCmd) : Nat := if 2048 ≤ c.target then 4 else if !ownsInst s c.vs c.target then 3 else 0

/-- A command on an instance that is in order goes on with it. -/
def onInst (s : State) (c : AdmCmd) (f : State → InstState → State) : State :=
  match instStatus s c, instOf s c.target with
  | 0, some x => f s x
  | 0, none => admFinish s c 3 0 0
  | st, _ => admFinish s c st 0 0

/-- FENCE_BIND. -/
def fenceBind (s : State) : State :=
  admStart s 0x18 fun s c => onInst s c fun s x =>
    let slot := bits c.arg 0 10
    let cid := bits c.arg 10 14
    if bit c.arg 31 then
      if !ownsConn s c.vs cid then admFinish s c 3 0 0
      else admDone (setInst s c.target { x with fences := Tbl.set x.fences slot cid }) c
    else admDone (setInst s c.target { x with fences := Tbl.erase x.fences slot }) c

def execFenceBind (s : State) : Host.Outcome State Fault Refusal := .next (fenceBind s)

/-- QUEUE_CREATE (R308). -/
def queueCreate (s : State) : State :=
  admStart s 0x20 fun s c => onInst s c fun s x =>
    let b := fun (i : Nat) => leAt c.data i 1
    let sq := b 16
    let cq := b 17
    let q := b 18
    if sq < 6 || 16 < sq then admFinish s c 6 32 0
    else if cq < 6 || 16 < cq || cq < sq then admFinish s c 6 33 0
    else if 16 ≤ q then admFinish s c 6 34 0
    else if 16 ≤ b 19 then admFinish s c 6 35 0
    else if (Tbl.find? x.queues q).isSome || x.flr.isSome then admFinish s c 1 1 0
    else if !shareAllows s c.target 1 then admFinish (shareRefused s c.vs 1) c 2 1 0
    else
      let n : Queue := { sqBase := leAt c.data 0 8, cqBase := leAt c.data 8 8, sqLog := sq, cqLog := cq, vector := b 19 }
      admDone (setInst s c.target { x with queues := Tbl.set x.queues q n, errors := putBit x.errors q false }) c

def execQueueCreate (s : State) : Host.Outcome State Fault Refusal := .next (queueCreate s)

/-- A queue that is being deleted, and holds nothing more, is gone. -/
def queueGone (s : State) (i q : Nat) : State :=
  match instOf s i with
  | none => s
  | some x =>
    match Tbl.find? x.queues q with
    | some k =>
      if k.deleting && k.work.isEmpty && k.head = k.tail then
        finishWaits (setInst s i { x with queues := Tbl.erase x.queues q }) (fun w => w.cmd.op = 0x21 && w.obj = i * 16 + q) 0 0 fun _ => 0
      else s
    | none => s

/-- QUEUE_DELETE: it completes after the drain of R312. -/
def queueDelete (s : State) : State :=
  admStart s 0x21 fun s c => onInst s c fun s x =>
    let q := c.arg % 16
    match Tbl.find? x.queues q with
    | none => admFinish s c 1 0 0
    | some k => queueGone (admWait (setInst s c.target { x with queues := Tbl.set x.queues q { k with deleting := true } }) c (c.target * 16 + q)) c.target q

def execQueueDelete (s : State) : Host.Outcome State Fault Refusal := .next (queueDelete s)

/-- The counts of a SHARE_SET, 4 bytes each; none where left unchanged. -/
def shareCounts (c : AdmCmd) : List (Nat × Nat) :=
  ([1, 3, 4, 5, 6].map fun r => (r, leAt c.data (4 * (r - 1)) 4)).filter fun r => r.2 ≠ 0xFFFFFFFF

/-- The count exceeds the partition share; for bandwidth 0 is unlimited. -/
def shareOver (s : State) (v : Nat) (r : Nat × Nat) : Bool :=
  let p := partShare s v r.1
  if r.1 = 5 then p ≠ 0 && (r.2 = 0 || p < r.2) else p < r.2

/-- SHARE_SET (R316, R317): a share lowered below use writes event 0x0726. -/
def shareSet (s : State) : State :=
  admStart s 0x22 fun s c => onInst s c fun s x =>
    let ns := shareCounts c
    if ns.any fun r => r.1 = 1 && 16 < r.2 then admFinish s c 6 16 0
    else
      match ns.find? fun r => shareOver s c.vs r with
      | some r => admFinish (shareRefused s c.vs r.1) c 2 r.1 0
      | none =>
        let y := { x with shares := ns.foldl (fun t r => Tbl.set t r.1 r.2) x.shares }
        let rp := partShare s c.vs 5
        let s := setInst s c.target (bucketChanged s y (instGbps x rp) (instGbps y rp))
        let low := ns.filter fun r => r.1 ≠ 5 && r.2 < instUse s c.target r.1
        admDone (low.foldl (fun s r => eventIn s (some c.vs) 0x0726 0 (at_ 16 c.vs + at_ 24 r.1)) s) c

def execShareSet (s : State) : Host.Outcome State Fault Refusal := .next (shareSet s)

def pageSize (n : Nat) : Bool := n = 12 || n = 21 || n = 30

/-- TU_MAP. -/
def tuMapCmd (s : State) : State :=
  admStart s 0x28 fun s c => onInst s c fun s x =>
    let m : TuMap := { iova := leAt c.data 0 8, host := leAt c.data 8 8, size := leAt c.data 16 1, read := bit (leAt c.data 17 1) 0, write := bit (leAt c.data 17 1) 1 }
    if !pageSize m.size then admFinish s c 6 32 0
    else if m.iova % 2 ^ m.size ≠ 0 then admFinish s c 6 16 0
    else if m.host % 2 ^ m.size ≠ 0 then admFinish s c 6 24 0
    else if x.maps.any (fun k => k.iova = m.iova && k.size = m.size) then admFinish s c 1 1 0
    else if !shareAllows s c.target 6 then admFinish (shareRefused s c.vs 6) c 2 6 0
    else admDone (setInst s c.target { x with maps := x.maps ++ [m] }) c

def execTuMap (s : State) : Host.Outcome State Fault Refusal := .next (tuMapCmd s)

/-- A read translated under a mapping has not returned. -/
def mapInUse (s : State) (i iova size : Nat) : Bool :=
  s.eng.reads.any fun r => r.ticket.inst = i && iova ≤ r.iova && r.iova < iova + 2 ^ size

/-- TU_UNMAP (R315): at once for new lookups; it completes when every read under the mapping has returned.
Posted writes under it that are queued already stay ahead of the completion on the same path. -/
def tuUnmapCmd (s : State) : State :=
  admStart s 0x29 fun s c => onInst s c fun s x =>
    let iova := leAt c.data 0 8
    let size := leAt c.data 8 1
    if !pageSize size then admFinish s c 6 24 0
    else if !x.maps.any (fun k => k.iova = iova && k.size = size) then admFinish s c 1 0 0
    else
      let s := setInst s c.target { x with maps := x.maps.filter fun k => !(k.iova = iova && k.size = size) }
      if mapInUse s c.target iova size then admWait s c (mapName c.target iova size) else admDone s c

def execTuUnmap (s : State) : Host.Outcome State Fault Refusal := .next (tuUnmapCmd s)

/-- TU_UNMAP_COMPLETE (R315). -/
def tuUnmapComplete (s : State) : State :=
  admSettled (finishWaits s (fun w => w.cmd.op = 0x29 && !mapInUse s w.cmd.target (leAt w.cmd.data 0 8) (leAt w.cmd.data 8 1)) 0 0 fun _ => 0)

def execTuUnmapComplete (s : State) : Host.Outcome State Fault Refusal := .next (tuUnmapComplete s)

/-- TU_MODE: refused while a queue of the instance is enabled. -/
def tuMode (s : State) : State :=
  admStart s 0x2A fun s c => onInst s c fun s x =>
    if !x.queues.isEmpty then admFinish s c 1 0 0 else admDone (setInst s c.target { x with mapped := bit c.arg 0 }) c

def execTuMode (s : State) : Host.Outcome State Fault Refusal := .next (tuMode s)

/-! ### Mediated set-up (R301) -/

/-- The index of a partition's VF among the per-VF slots. -/
def vfKey (v vf : Nat) : Nat := v * 256 + vf

/-- VF_MSG_RING (R301). -/
def vfMsgRing (i value : Nat) (s : State) : State :=
  match instOf s i with
  | none => s
  | some x =>
    if value % 2 ≠ 1 || x.msgState = 1 then s
    else
      let k := vfKey x.vs x.vf
      let s := setInst s i { x with msgState := 1 }
      let s := { s with eng := { s.eng with mirror := Tbl.set s.eng.mirror k x.request
                                            ringing := if s.eng.ringing.contains k then s.eng.ringing else s.eng.ringing ++ [k] } }
      msi s x.vs 0 1

def execVfMsgRing (i : Inst) (value : Nat) (s : State) : Host.Outcome State Fault Refusal := .next (vfMsgRing i value s)

/-- The enabled instance of a VF. -/
def instOfVf (s : State) (v vf : Nat) : Option Nat :=
  match List.find? (fun r => r.2.vs = v && r.2.vf = vf && !r.2.ending) s.eng.insts with
  | some r => some r.1
  | none => none

/-- VF_REPLY_WRITE (R301): a non-zero last byte hands the reply to the VF. -/
def vfReplyWrite (v vf : Nat) (reply : List Byte) (s : State) : State :=
  let bs := fitBytes 64 reply
  let s := { s with eng := { s.eng with replies := Tbl.set s.eng.replies (vfKey v vf) bs } }
  match instOfVf s v vf with
  | none => s
  | some i =>
    if (bs.getLast?).getD 0 = 0 then s
    else
      match instOf s i with
      | some x => msi (setInst s i { x with reply := bs, msgState := 2 }) v (1 + i) 16
      | none => s

def execVfReplyWrite (v : Vs) (vf : Fin 256) (reply : List Byte) (s : State) : Host.Outcome State Fault Refusal := .next (vfReplyWrite v vf reply s)

/-! ### Virtual functions and function-level resets (R299, R318) -/

/-- A downstream bridge of the partition claims the bus after the internal one (R299). -/
def busConflict (s : State) (v : Nat) : Bool :=
  (List.range (downPorts s v).length).any fun d =>
    let w := cfgReg s v d 6
    let b := internalBus s v + 1
    w ≠ 0 && bits w 8 8 ≤ b && b ≤ bits w 16 8

/-- The lowest free instances. -/
def freeInsts (s : State) (n : Nat) : List Nat := ((List.range 2048).filter fun i => (instOf s i).isNone).take n

/-- VF_ENABLE (R299). -/
def vfEnable (v n : Nat) (s : State) : State :=
  if (admOf s v).vfs ≠ 0 || n = 0 || !coreRuns s then s
  else if cfgv s 0x4401 (v + 1) < n then eventIn s (some v) 0x0720 0 (at_ 16 v + at_ 24 1)
  else if busConflict s v then eventIn s (some v) 0x0720 0 (at_ 16 v + at_ 24 2)
  else
    let is := freeInsts s n
    let s := (is.zip (List.range n)).foldl (fun s r => setInst s r.1 { vs := v, vf := r.2, bucketAt := s.now }) s
    eventIn (setAdm s v { admOf s v with vfs := n }) (some v) 0x0721 0 (at_ 16 v + at_ 32 n)

def execVfEnable (v : Vs) (numVfs : Nat) (s : State) : Host.Outcome State Fault Refusal := .next (vfEnable v numVfs s)

/-- Operations of an instance that the shuttle has accepted or that wait for it. -/
def instOps (s : State) (i : Nat) : Nat :=
  (s.shu.ledger.filter fun r => r.2.op.inst = some i).length + (s.shu.waiting.filter fun op => op.inst = some i).length

/-- A function-level reset sets the function's configuration registers to their reset values. -/
def fnCleared (s : State) (v fn : Nat) : State :=
  setPart s v { partOf s v with config := (partOf s v).config.filter fun r => r.1 / 1024 ≠ fn }

/-- FLR of a VF, or its disabling (R318): queues, fence bindings and mappings are deleted; imports and connections stay. Operations
presented to the shuttle and not yet accepted drain as the accepted ones do (DEDUCED, log entry 44). -/
def flrStart (s : State) (i : Nat) (ending : Bool) : State :=
  match instOf s i with
  | none => s
  | some x =>
    let k := vfKey x.vs x.vf
    let mine := fun (w : OpenCmd) => (w.cmd.op = 0x21 && w.obj / 16 = i) || (w.cmd.op = 0x29 && w.cmd.target = i)
    let s := setInst s i { x with flr := some s.now, drained := instOps s i, ending := ending || x.ending, queues := [], maps := [], fences := []
                                  mapped := false, errors := 0, msgState := 0, request := List.replicate 64 0, reply := List.replicate 64 0 }
    let s := { s with eng := { s.eng with mirror := Tbl.set s.eng.mirror k (List.replicate 64 0)
                                          ringing := if s.eng.ringing.contains k then s.eng.ringing else s.eng.ringing ++ [k]
                                          msix := s.eng.msix.filter (fun r => r.1 / 4096 ≠ x.vs * 8192 + 1 + i) } }
    finishWaits (fnCleared s x.vs (256 + x.vf)) mine 0 0 fun _ => 0

/-- VF_FLR. -/
def vfFlr (i : Nat) (s : State) : State := flrStart s i false

def execVfFlr (i : Inst) (s : State) : Host.Outcome State Fault Refusal := .next (vfFlr i s)

/-- VF Enable cleared by the host: every VF is reset and its instance is freed at the end. -/
def vfDisable (v : Nat) (s : State) : State :=
  if (admOf s v).vfs = 0 then s
  else ((instsOf s v).map Prod.fst).foldl (fun s i => flrStart s i true) (setAdm s v { admOf s v with vfs := 0 })

def execVfDisable (v : Vs) (s : State) : Host.Outcome State Fault Refusal := .next (vfDisable v s)

/-- VF_FLR_COMPLETE (R318): the instance issues no further memory requests. -/
def vfFlrComplete (i : Nat) (s : State) : State :=
  match instOf s i with
  | none => s
  | some x =>
    match x.flr with
    | none => s
    | some t =>
      if s.eng.reads.any (fun r => r.ticket.inst = i) && !elapsed s t (100 * ms) then s
      else
        let s := { s with eng := { s.eng with reads := s.eng.reads.filter fun r => r.ticket.inst ≠ i } }
        let s := eventIn s (some x.vs) 0x0723 0 (i + at_ 16 (x.drained % 2 ^ 32))
        if x.ending then { s with eng := { s.eng with insts := Tbl.erase s.eng.insts i } } else setInst s i { x with flr := none }

def execVfFlrComplete (i : Inst) (s : State) : Host.Outcome State Fault Refusal := .next (vfFlrComplete i s)

/-- Revoke every open window of a partition. -/
def revokeWindows (s : State) (v : Nat) : State × Nat :=
  let ws := (s.win.windows.filter fun r => r.2.owner = v && r.2.st = .open_).map Prod.fst
  (ws.foldl startRevoke s, ws.length)

/-- PF_FLR (R319). -/
def pfFlr (v : Nat) (s : State) : State :=
  let s := fnCleared (vfDisable v s) v 242
  let s := setAdm s v {}
  let s := { s with eng := { s.eng with
    cmds := s.eng.cmds.filter (fun c => c.vs ≠ v), waits := s.eng.waits.filter fun w => w.cmd.vs ≠ v
    fnBme := putBit s.eng.fnBme v false, msix := s.eng.msix.filter fun r => r.1 / 4096 ≠ v * 8192 } }
  let s := endMailbox s v 3
  let ws := s.win.windows.filter fun r => r.2.owner = v && r.2.st = .open_
  let s := ws.foldl (fun s r => startRevoke (winEvent s v 0x0702 (r.1 + at_ 16 r.2.gen + at_ 32 r.2.admitted)) r.1) s
  let owned : Nat → Bool := fun i => match instOf s i with
    | some x => decide (x.vs = v)
    | none => false
  let s := { s with win := { s.win with imports := s.win.imports.filter fun r => !owned r.2.func } }
  let cs := (s.shu.conns.filter fun r => r.2.ownerKind = 0 && owned r.2.ownerId).map Prod.fst
  cs.foldl ownerClose s

def execPfFlr (v : Vs) (s : State) : Host.Outcome State Fault Refusal := .next (pfFlr v s)

/-! ### Descriptor queues (R308 to R312) -/

def queueOfInst (s : State) (i q : Nat) : Option (InstState × Queue) :=
  match instOf s i with
  | some x =>
    match Tbl.find? x.queues q with
    | some k => some (x, k)
    | none => none
  | none => none

def setQueueOf (s : State) (i q : Nat) (k : Queue) : State :=
  match instOf s i with
  | some x => setInst s i { x with queues := Tbl.set x.queues q k }
  | none => s

/-- A queue stops (R312): 1 tail beyond the depth, 2 ring fetch error, 3 ring translation fault. -/
def stopQueue (s : State) (i q cause : Nat) : State :=
  match queueOfInst s i q with
  | none => s
  | some (x, k) =>
    let s := setInst s i { x with queues := Tbl.set x.queues q { k with stopped := true }, errors := putBit x.errors q true }
    eventIn s (some x.vs) 0x0722 0 (i % 2048 + at_ 16 q + at_ 24 cause)

/-- SQ_TAIL (R300, R312). -/
def sqTailDoorbell (i q tail : Nat) (s : State) : State :=
  match queueOfInst s i q with
  | none => s
  | some (x, k) =>
    if k.stopped || k.deleting || x.flr.isSome then s
    else if 2 ^ k.sqLog ≤ tail then stopQueue s i q 1
    else setQueueOf s i q { k with tail := tail }

def execSqTailDoorbell (i : Inst) (q : Fin 16) (tail : Nat) (s : State) : Host.Outcome State Fault Refusal := .next (sqTailDoorbell i q tail s)

/-- The fields of a descriptor (R309). -/
structure DescHead where
  w : Nat
  opcode : Nat
  len : Nat
  off : Nat
  imp : Nat
  atom : Nat

def descHead (w : Nat) : DescHead :=
  { w := w, opcode := bits w 176 4, len := bits w 258 30, off := bits w 217 41, imp := bits w 201 16, atom := bits w 197 4 }

/-- A descriptor that R311 calls malformed: reserved opcode, bad LENGTH or ATOM, or a reserved field not 0. -/
def DescHead.malformed (d : DescHead) : Bool :=
  !(1 ≤ d.opcode && d.opcode ≤ 5) || bits d.w 189 8 ≠ 0 || bits d.w 180 4 ≠ 0 || bits d.w 0 176 ≠ 0 ||
    (match d.opcode with
     | 1 | 2 => d.len = 0
     | 3 => !(d.len = 4 || d.len = 8) || 2 < d.atom
     | _ => d.len ≠ 0)

/-- The descriptor needs its import: all but a NOP without fences. -/
def DescHead.needsImport (d : DescHead) : Bool := d.opcode ≠ 5 || bit d.w 184 || bit d.w 185

/-- The cause of R279 with which the descriptor is refused, or 0. -/
def importRefusal (s : State) (i : Nat) (d : DescHead) : Nat :=
  if !d.needsImport then 0
  else
    match Tbl.find? s.win.imports d.imp with
    | none => 1
    | some x =>
      let may := match d.opcode with
        | 1 => x.permW
        | 2 => x.permR
        | 3 => x.permA
        | _ => true
      if x.func ≠ i || 2 ^ x.sizeLog2 < d.off + d.len then 1
      else if !may then 2
      else if x.device && d.opcode = 2 && 64 < d.len then 3
      else 0

/-- The descriptor in progress that a fetched one becomes. -/
def descStart (n head : Nat) (d : DescHead) : DescState :=
  { n := n, opcode := d.opcode, tag := bits d.w 288 32, addr := bits d.w 448 64, len := d.len, imp := d.imp, intr := bit d.w 188, fenceAfter := bit d.w 185,
    head := head, offset := d.off, rel := bit d.w 186, acq := bit d.w 187, atom := d.atom, opA := bits d.w 384 64, opB := bits d.w 320 64,
    fenceBefore := bit d.w 184 }

/-- The origin of an engine request of an instance. -/
def engineOrigin (s : State) (i : Nat) : Origin :=
  match instOf s i with
  | some x => { cls := x.vs, mid := ownMid s, vs := x.vs, rid := (internalBus s x.vs + 1) * 256 + x.vf % 256, kind := 2 }
  | none => { kind := 2 }

/-- Send a TLP of the engine towards the host: by the upstream port, or by the tunnel of an imported one (R117, R129). -/
def toHost (s : State) (v req : Nat) (t : Tlp) : State :=
  let o : Origin := { cls := v, mid := ownMid s, vs := v, rid := t.rid, kind := 2, ret := .engine req }
  match upPort s v with
  | some p => deliverTlp s p 128 o t
  | none =>
    match tunnelCid s v with
    | some c => presentTunnel s c 128 (if tlpKind t = 1 then some o else none) t
    | none => { s with eng := { s.eng with answers := s.eng.answers ++ [(req, 1, false, [])] } }

/-- Read the local data of a WRITE: one request for each 4 KiB page (R315). -/
def readLocal (s : State) (t : Ticket) (d : DescState) : State :=
  match instOf s t.inst with
  | none => s
  | some x =>
    (pageParts (d.len + 1) d.addr d.len).foldl (fun s p =>
      match translate x p.1 false with
      | none => descCond (translationFault s t.inst p.1 false) t 5 0
      | some a =>
        let r := s.eng.nextReq
        let e : EngRead := { req := r, ticket := t, off := p.1 - d.addr, len := p.2, iova := p.1, since := s.now }
        let s := { s with eng := { s.eng with nextReq := r + 1, reads := s.eng.reads ++ [e] } }
        let s := descMod s t fun d => { d with reads := d.reads + 1 }
        toHost s x.vs r { kind := .memRead, addr := a, len := p.2, rid := (internalBus s x.vs + 1) * 256 + x.vf % 256, tag := r % 4096 }) s

/-- Take the next descriptor of a queue into progress, when its opcode meets `f` (R310). -/
def fetchDescriptor (s : State) (i q : Nat) (f : Nat → Bool) : State :=
  match queueOfInst s i q with
  | none => s
  | some (x, k) =>
    if k.stopped || k.deleting || x.flr.isSome || k.head = k.tail || 64 ≤ k.work.length || vsState s x.vs ≠ 2 then s
    else
      let a := k.sqBase + 64 * k.head
      match translate x a false with
      | none => stopQueue (translationFault s i a false) i q 3
      | some h =>
        match hostFetch s x.vs h 64 with
        | (s, none) => stopQueue s i q 2
        | (s, some bs) =>
        let d := descHead (leNat bs)
        if !f d.opcode then s
        else
          let next := (k.head + 1) % 2 ^ k.sqLog
          let w := descStart k.count next d
          let t : Ticket := { inst := i, q := q, n := k.count }
          let s := setQueueOf s i q { k with head := next, count := k.count + 1, work := k.work ++ [w] }
          let r := importRefusal s i d
          if d.malformed then descCond s t 8 0
          else if r ≠ 0 then
            let s := count (eventIn s (some x.vs) 0x0709 0 (d.imp + at_ 16 r + at_ 24 i)) (ctrWin x.vs 7) 1
            descCond s t 4 r
          else if d.opcode = 1 then readLocal s t w
          else s

/-- An operation of a descriptor. -/
def descOp (x : Import) (i typ : Nat) (t : Ticket) (o : Origin) (d : DescState) (off len rel : Nat) (acq : Bool) (data : List Byte) : NewOp :=
  { cid := x.cid, typ := typ, ord := x.ord, acq := acq, rel := rel = 1, gen := x.gen,
    head := reqWord { rid := o.rid, vs := o.vs, kind := 2, tag := 0, len := len, lastBe := 15, firstBe := 15, atom := d.atom, ns := false
                      window := x.window, offset := x.winBase + off }
    data := data, src := 128, origin := o, ticket := some t, off := off - d.offset, inst := some i }

/-- Present the operations of a descriptor, its fences before and after (R310). -/
def presentDesc (s : State) (t : Ticket) (d : DescState) : State :=
  let o := engineOrigin s t.inst
  let s := descMod s t fun d => { d with presented := true }
  if !d.conds.isEmpty then s
  else
    match Tbl.find? s.win.imports d.imp with
    | none => if d.opcode = 5 && !d.fenceBefore && !d.fenceAfter then s else descCond s t 4 1
    | some x =>
      let put := fun (s : State) (op : NewOp) => present (descMod s t fun d => { d with left := d.left + 1 }) op
      let fence := fun (s : State) => presentFence (descMod s t fun d => { d with left := d.left + 1 }) x.cid o none (some t) t.inst x.ord
      let s := if d.fenceBefore then fence s else s
      let data := d.buffer.flatMap fun r => r.2
      let ps := pieces (d.len + 1) d.offset d.len
      let last := fun (p : Nat × Nat) => p.1 + p.2 = d.offset + d.len
      let s := match d.opcode with
        | 1 => ps.foldl (fun s p => put s (descOp x t.inst 0 t o d p.1 p.2 (b2n ((d.rel || x.relStores) && p.1 = d.offset)) false
                  ((data.drop (p.1 - d.offset)).take p.2))) s
        | 2 => ps.foldl (fun s p => put s (descOp x t.inst 1 t o d p.1 p.2 0 (x.acqLoads || (d.acq && last p)) [])) s
        | 3 => put s (descOp x t.inst 2 t o d d.offset d.len 0 (x.acqLoads || d.acq)
                  (leBytes d.len d.opA ++ if d.atom = 2 then leBytes d.len d.opB else []))
        | 4 => fence s
        | _ => s
      if d.fenceAfter then fence s else s

/-- Present what is ready, in descriptor order: a WRITE once its data has come. -/
def advanceQueue : Nat → State → Nat → Nat → State
  | 0, s, _, _ => s
  | fuel + 1, s, i, q =>
    match queueOfInst s i q with
    | none => s
    | some (_, k) =>
      match k.work.find? fun d => !d.presented with
      | none => s
      | some d => if d.reads ≠ 0 then s else advanceQueue fuel (presentDesc s { inst := i, q := q, n := d.n } d) i q

def descRow (s : State) (i q : Nat) (f : Nat → Bool) : State := advanceQueue 65 (fetchDescriptor s i q f) i q

/-- DESC_WRITE (R310). -/
def descWrite (i q : Nat) (s : State) : State := descRow s i q fun o => o = 1
def execDescWrite (i : Inst) (q : Fin 16) (s : State) : Host.Outcome State Fault Refusal := .next (descWrite i q s)

/-- DESC_READ (R310). -/
def descRead (i q : Nat) (s : State) : State := descRow s i q fun o => o = 2
def execDescRead (i : Inst) (q : Fin 16) (s : State) : Host.Outcome State Fault Refusal := .next (descRead i q s)

/-- DESC_ATOMIC (R310). -/
def descAtomic (i q : Nat) (s : State) : State := descRow s i q fun o => o = 3
def execDescAtomic (i : Inst) (q : Fin 16) (s : State) : Host.Outcome State Fault Refusal := .next (descAtomic i q s)

/-- DESC_FENCE (R310). -/
def descFence (i q : Nat) (s : State) : State := descRow s i q fun o => o = 4
def execDescFence (i : Inst) (q : Fin 16) (s : State) : Host.Outcome State Fault Refusal := .next (descFence i q s)

/-- DESC_NOP, and a descriptor with a reserved opcode, which is malformed (R311). -/
def descNop (i q : Nat) (s : State) : State := descRow s i q fun o => !(1 ≤ o && o ≤ 4)
def execDescNop (i : Inst) (q : Fin 16) (s : State) : Host.Outcome State Fault Refusal := .next (descNop i q s)

/-- DESC_FETCH_FAIL (R312): the fetch of the next descriptor has failed on the link. -/
def descFetchFail (i q : Nat) (s : State) : State :=
  match queueOfInst s i q with
  | some (x, k) => if k.stopped || k.deleting || x.flr.isSome || k.head = k.tail then s else stopQueue s i q 2
  | none => s

def execDescFetchFail (i : Inst) (q : Fin 16) (s : State) : Host.Outcome State Fault Refusal := .next (descFetchFail i q s)

/-- The order in which conditions of R311 decide a STATUS. -/
def statusOrder : List Nat := [8, 4, 5, 6, 7, 2, 3, 9, 1]

/-- STATUS and DETAIL of a descriptor. -/
def descStatus (cs : List (Nat × Nat)) : Nat × Nat :=
  match statusOrder.find? fun x => cs.any fun c => c.1 = x with
  | some x => (cs.find? fun c => c.1 = x).getD (0, 0)
  | none => (0, 0)

/-- The 16 bytes of a completion (R311). -/
def cqBytes (tag done head status detail q : Nat) (phase : Bool) : List Byte :=
  leBytes 16 (at_ 96 tag + at_ 64 (done % 2 ^ 32) + at_ 48 (head % 65536) + at_ 40 status + at_ 32 detail + at_ 16 q + b2n phase)

/-- Write a completion, and signal the queue's vector. -/
def cqWrite (s : State) (i q tag done head status detail : Nat) (intr : Bool) : State :=
  match queueOfInst s i q with
  | none => s
  | some (x, k) =>
    let a := k.cqBase + 16 * k.cqTail
    match translate x a true with
    | none => stopQueue (translationFault s i a true) i q 3
    | some h =>
      let s := hostPost s x.vs h (cqBytes tag done head status detail q k.phase)
      let t := (k.cqTail + 1) % 2 ^ k.cqLog
      let s := setQueueOf s i q { k with cqTail := t, phase := if t = 0 then !k.phase else k.phase }
      if intr then msi s x.vs (1 + i) k.vector else s

def cqFull (k : Queue) : Bool := (k.cqTail + 1) % 2 ^ k.cqLog = k.cqHead

/-- The descriptor has no operation and no read under way. -/
def descEnded (d : DescState) : Bool := d.presented && d.left = 0 && d.reads = 0

/-- A descriptor that a stopped or deleted queue has not started is flushed. -/
def flushNext (s : State) (i q : Nat) (x : InstState) (k : Queue) : State :=
  let a := k.sqBase + 64 * k.head
  let next := (k.head + 1) % 2 ^ k.sqLog
  let (s, w) := match translate x a false with
    | some h =>
      let (s, bs) := hostFetch s x.vs h 64
      (s, leNat (bs.getD []))
    | none => (s, 0)
  cqWrite (setQueueOf s i q { k with head := next, count := k.count + 1 }) i q (bits w 288 32) 0 next 9 0 (bit w 188)

/-- DESCRIPTOR_COMPLETE (R310 to R312): in submission order, the oldest descriptor that has ended. -/
def descriptorComplete (i q : Nat) (s : State) : State :=
  match queueOfInst s i q with
  | none => s
  | some (x, k) =>
    if cqFull k then s
    else
      match k.work with
      | d :: ds =>
        if descEnded d then
          let r := descStatus d.conds
          let s := setQueueOf s i q { k with work := ds }
          queueGone (cqWrite s i q d.tag d.bytesDone d.head r.1 r.2 d.intr) i q
        else s
      | [] => if (k.stopped || k.deleting) && k.head ≠ k.tail then queueGone (flushNext s i q x k) i q else s

def execDescriptorComplete (i : Inst) (q : Fin 16) (s : State) : Host.Outcome State Fault Refusal := .next (descriptorComplete i q s)

/-! ### Answers to the engine's local reads (R129, R311) -/

/-- A part of the answer to a local read: data, or an error. -/
def engineAnswer (s : State) (a : Nat × Nat × Bool × List Byte) : State :=
  match s.eng.reads.find? fun r => r.req = a.1 with
  | none => s
  | some r =>
    let bad := a.2.1 ≠ 0 || a.2.2.1
    let got := r.got + a.2.2.2.length
    if bad then
      let s := { s with eng := { s.eng with reads := s.eng.reads.erase r } }
      let s := descCond (descMod s r.ticket fun d => { d with reads := d.reads - 1 }) r.ticket 7 0
      advanceQueue 65 s r.ticket.inst r.ticket.q
    else
      let s := descMod s r.ticket fun d => { d with buffer := Tbl.set d.buffer (r.off + r.got) a.2.2.2 }
      if got < r.len then { s with eng := { s.eng with reads := s.eng.reads.map fun e => if e.req = r.req then { e with got := got } else e } }
      else
        let s := { s with eng := { s.eng with reads := s.eng.reads.erase r } }
        advanceQueue 65 (descMod s r.ticket fun d => { d with reads := d.reads - 1 }) r.ticket.inst r.ticket.q

/-- The engine takes the answers that have come for it. -/
def engineSettled (s : State) : State :=
  let as := s.eng.answers
  invalidateSettled (as.foldl engineAnswer { s with eng := { s.eng with answers := [] } })

/-- A local read has timed out (R129, cause 17): event 0x0727. -/
def readTimedOut (s : State) (r : EngRead) : State :=
  let v := (instOf s r.ticket.inst).map fun x => x.vs
  let s := { s with eng := { s.eng with reads := s.eng.reads.erase r } }
  let s := eventFull (selContained s 128 17 1 v 0) 0x0727 0 2 v false (r.ticket.inst % 2048 + at_ 16 (r.iova / 65536))
  let s := descCond (descMod s r.ticket fun d => { d with reads := d.reads - 1 }) r.ticket 6 0
  advanceQueue 65 s r.ticket.inst r.ticket.q

end Sys2Proof.Machine
end

