-- ==== Sys2Proof/Machine/Ingress.lean ====
section
/-!
DEFINITION. TLPs as warp ports take them (chapters 5 and 12): errors at the ingress, the routing of a partition as a PCI
Express switch, completions and proxy IDs, and the tunnel of an imported upstream port.
-/

namespace Sys2Proof.Machine

/-! ### The address map of a partition (R116, R118, R295, R300, R379) -/

/-- Where partition routing sends a TLP. -/
inductive Hop where
  /-- a warp port of the partition, another's upstream, or nowhere -/
  | port (p : Nat)
  | up
  | none
  /-- configuration space of one of the partition's functions -/
  | config (fn : Nat)
  /-- BAR0 of the management function, BAR0 of an instance, BAR0 of the dobby function, by offset -/
  | mgmt (off : Nat)
  | vf (i off : Nat)
  | dobReg (off : Nat)
  /-- an aperture, by instance and offset; the dobby's outbound space -/
  | aperture (i off : Nat)
  | dobOut (off : Nat)
  /-- an ACS violation at the ingress -/
  | blocked
  /-- the proxy bridge's range: an entry -/
  | proxy (e : Nat)
  deriving DecidableEq, Repr

/-- A Type 1 function claims a memory address: the memory window, or the prefetchable one. -/
def claimsMem (s : State) (v fn a : Nat) : Bool :=
  let m := cfgReg s v fn 8
  let p := cfgReg s v fn 9
  let lo := bits m 4 12 * 2 ^ 20
  let hi := (bits m 20 12 + 1) * 2 ^ 20
  let plo := bits p 4 12 * 2 ^ 20 + cfgReg s v fn 10 * 2 ^ 32
  let phi := (bits p 20 12 + 1) * 2 ^ 20 + cfgReg s v fn 11 * 2 ^ 32
  cmdBit s v fn 1 && ((lo ≤ a && a < hi) || (plo ≤ a && a < phi))

def claimsIo (s : State) (v fn a : Nat) : Bool :=
  let w := cfgReg s v fn 7
  let u := cfgReg s v fn 12
  let lo := bits w 4 4 * 2 ^ 12 + bits u 0 16 * 2 ^ 16
  let hi := (bits w 12 4 + 1) * 2 ^ 12 + bits u 16 16 * 2 ^ 16
  cmdBit s v fn 0 && lo ≤ a && a < hi

/-- A Type 1 function has a bus in its secondary to subordinate range. -/
def claimsBus (s : State) (v fn b : Nat) : Bool :=
  let w := cfgReg s v fn 6
  bits w 8 8 ≠ 0 && bits w 8 8 ≤ b && b ≤ bits w 16 8

/-- Offset of an address in a 64-bit BAR of `size` bytes at dword `dw`. -/
def barOffset (s : State) (v fn dw size a : Nat) : Option Nat :=
  let base := (cfgReg s v fn dw + cfgReg s v fn (dw + 1) * 2 ^ 32) / size * size
  if base ≤ a && a < base + size then some (a - base) else none

/-- Offset within the BARs of all VFs: which VF, and where in it. PRESUMED (log entry 8): the SR-IOV capability stands at
0x180, its VF BAR0 at dword 0x69 and VF BAR2 at 0x6B, VF Memory Space Enable in bit 3 of dword 0x62. -/
def vfBar (s : State) (v dw size a : Nat) : Option (Nat × Nat) :=
  let base := (cfgReg s v 242 dw + cfgReg s v 242 (dw + 1) * 2 ^ 32) / size * size
  let k := (a - base) / size
  if bit (cfgReg s v 242 0x62) 3 && base ≤ a && k < (admOf s v).vfs then some (k, (a - base) % size) else none

/-- The partition presents a dobby function (R379). -/
def dobbyFunction (s : State) (v : Nat) : Bool := cfgOn s 0x6012 (v + 1)

/-- The own function whose BAR holds a memory address. -/
def internalHop (s : State) (v a : Nat) : Option Hop :=
  let m := if cmdBit s v 242 1 then barOffset s v 242 4 131072 a else none
  match m with
  | some x => some (.mgmt x)
  | none =>
    match vfBar s v 0x69 16384 a with
    | some (k, x) => (instOfVf s v k).map fun i => .vf i x
    | none =>
      match vfBar s v 0x6B (2 ^ cfgv s 0x4407 (v + 1)) a with
      | some (k, x) => (instOfVf s v k).map fun i => .aperture i x
      | none =>
        if dobbyFunction s v && cmdBit s v 243 1 then
          match barOffset s v 243 4 4096 a with
          | some x => some (.dobReg x)
          | none => (barOffset s v 243 6 (2 ^ cfgv s 0x6013 (v + 1)) a).map fun x => .dobOut (cfgv s 0x6014 (v + 1) + x)
        else none

/-- The downstream port whose bridge meets a test. -/
def bridgeWhere (s : State) (v : Nat) (f : Nat → Bool) : Option Nat :=
  let ps := downPorts s v
  match (List.range ps.length).find? f with
  | some d => ps[d]?
  | none => none

/-! ### ACS at a downstream port (R119); PRESUMED (log entry 8): the capability stands at 0x220 -/

/-- A bit of the ACS control of a downstream port's bridge: 0 Source Validation, 1 Translation Blocking, 2 P2P Request Redirect,
3 P2P Completion Redirect, 4 Upstream Forwarding, 5 P2P Egress Control, 6 Direct Translated P2P, 7 I/O Request Blocking, 12
Unclaimed Request Redirect. -/
def acsBit (s : State) (v src b : Nat) : Bool := isDown s src && bit (cfgReg s v (bridgeOf s src) 0x89) (16 + b)

/-- The egress control vector of a downstream port names the bridge of port `p`. -/
def acsVector (s : State) (v src p : Nat) : Bool :=
  let d := bridgeOf s p
  bit (cfgReg s v (bridgeOf s src) (0x8A + d / 32)) (d % 32)

/-- A memory request. -/
def isMemory (t : Tlp) : Bool :=
  match t.kind with
  | .memRead | .memReadLocked | .memWrite | .deferrableWrite | .fetchAdd | .swap | .compareSwap => true
  | _ => false

/-- A request that goes up: through the ingress bridge, with bus mastering enabled, and only outside the partition's own window. -/
def upHop (s : State) (v src : Nat) (inside : Bool) : Hop :=
  if inside || (isDown s src && !cmdBit s v (bridgeOf s src) 2) || !cmdBit s v 240 2 then .none else .up

/-- The way of a request from a downstream port to port `p` of its partition: directly, redirected upstream, or blocked. -/
def peerHop (s : State) (v src p : Nat) (t : Tlp) : Hop :=
  if !isDown s src || (acsBit s v src 6 && t.atype = 2 && isMemory t) then .port p
  else if acsBit s v src 5 then
    if !acsVector s v src p then .port p
    else if acsBit s v src 2 then upHop s v src false
    else .blocked
  else if acsBit s v src 2 then upHop s v src false
  else .port p

/-- Routing of a memory or I/O request; `host` tells that it came from the partition's upstream side. -/
def addressHop (s : State) (v src : Nat) (host io : Bool) (t : Tlp) : Hop :=
  let a := t.addr
  let inside := if io then claimsIo s v 240 a else claimsMem s v 240 a
  if host && !inside then .none
  else
    match if io then none else internalHop s v a with
    | some h => h
    | none =>
      match bridgeWhere s v fun d => if io then claimsIo s v d a else claimsMem s v d a with
      | some p => if p = src then (if acsBit s v src 4 then upHop s v src false else .none) else peerHop s v src p t
      | none => if host then .none else upHop s v src (inside && !acsBit s v src 12)

/-- The function at a device and function number of the internal bus (R116, R379). -/
def functionAt (s : State) (v devfn : Nat) : Option Nat :=
  if devfn < 128 then (if devfn < (downPorts s v).length then some devfn else none)
  else if devfn = 240 then some 241
  else if devfn = 248 then some 242
  else if devfn = 249 && dobbyFunction s v then some 243
  else none

/-- Routing of a configuration request, which comes from the upstream side only. A bus outside the secondary to subordinate
range of the upstream function is that of the upstream link itself: the function 0 there is the upstream function. -/
def configHop (s : State) (v rid : Nat) : Hop :=
  let b := rid / 256 % 256
  let sec := internalBus s v
  if !claimsBus s v 240 b then (if rid % 256 = 0 then .config 240 else .none)
  else if b = sec then
    match functionAt s v (rid % 256) with
    | some f => .config f
    | none => .none
  else if b = sec + 1 && rid % 256 < (admOf s v).vfs then .config (256 + rid % 256)
  else
    match bridgeWhere s v fun d => claimsBus s v d b with
    | some p => .port p
    | none => .none

/-- Routing of a completion by its ID's bus; a peer's without Relaxed Ordering may be redirected upstream. -/
def idHop (s : State) (v src : Nat) (t : Tlp) : Hop :=
  let b := t.addr / 256 % 256
  match bridgeWhere s v fun d => claimsBus s v d b with
  | some p => if p = src then .none else if acsBit s v src 3 && !t.ro then .up else .port p
  | none =>
    if claimsBus s v 241 b then .proxy ((b - (proxyBuses s v).1) * 256 + t.addr % 256)
    else if isDown s src then .up
    else .none

/-- Partition routing (R116, R118). -/
def routeHop (s : State) (v src : Nat) (host : Bool) (t : Tlp) : Hop :=
  match t.kind with
  | .completion => idHop s v src t
  | .cfgRead | .cfgWrite => if host then configHop s v (t.addr / 4096) else .none
  | .ioRead | .ioWrite => addressHop s v src host true t
  | .message | .unlock => if host then .none else .up
  | _ => addressHop s v src host false t

/-- A request violates ACS at its ingress: its requester is not below the port, its address is translated, it is an I/O request, or its
way is blocked. -/
def acsViolation (s : State) (v p : Nat) (t : Tlp) : Bool :=
  tlpKind t ≠ 2 && ((acsBit s v p 0 && !claimsBus s v (bridgeOf s p) (t.rid / 256 % 256)) || (acsBit s v p 1 && isMemory t && t.atype ≠ 0) ||
    (acsBit s v p 7 && (t.kind = .ioRead || t.kind = .ioWrite)) || routeHop s v p false t = .blocked)

/-! ### What a TLP meets at its hop -/

/-- A port takes requests: its link is up and, for a request from elsewhere, its partition is active. -/
def portTakes (s : State) (p : Nat) : Bool := (warpPort s p).st = .active

/-- A TLP for a warp port. -/
def toPort (s : State) (p src : Nat) (o : Origin) (t : Tlp) : State :=
  if portTakes s p then deliverTlp s p src o t
  else if tlpKind t = 1 then synthesize s p o t
  else if tlpKind t = 0 then refuseTlp (dropPosted s p) src o t 1
  else s

/-- Presented operations from the `n`-th waiting one on are charged as `f` says: they get their chains now. -/
def chargeWaiting (s : State) (n : Nat) (f : State → Nat → State × Nat) : State :=
  let q := (s.shu.waiting.drop n).foldl (fun (a : State × List NewOp) op =>
    if op.chain.isSome then (a.1, a.2 ++ [op])
    else
      let r := f a.1 (cells (48 + op.data.length))
      (r.1, a.2 ++ [{ op with chain := some r.2 }])) (s, [])
  { q.1 with shu := { q.1.shu with waiting := s.shu.waiting.take n ++ q.2 } }

/-- A TLP enters a tunnel in its source's reservation (R151). -/
def intoTunnel (s : State) (c src : Nat) (ask : Option Origin) (t : Tlp) : State :=
  chargeWaiting (presentTunnel s c src ask t) s.shu.waiting.length fun s n => storeChain s src n false none

/-- The module's own word to the other end of a tunnel, in the form of a message of code 0xFF (DESIGN CHOICE, log entry 117: the spec has
the two modules present one partition and names no message between them): 1 the upstream port is lost, 2 the partition is
ready, 3 it is in reset, 4 a write to dword `x` of the upstream function. -/
def tunnelNotice (s : State) (c what x be : Nat) (data : List Byte) : State :=
  presentTunnel s c 128 none { kind := .message, addr := what + 16 * x, len := data.length, firstBe := be, code := 0xFF, data := data }

/-- A TLP for the host of the partition: its local upstream port, or the tunnel (R117). -/
def toUpstream (s : State) (v src : Nat) (o : Origin) (t : Tlp) : State :=
  match upPort s v with
  | some p => toPort s p src o t
  | none =>
    match tunnelCid s v with
    | some c => intoTunnel s c src (if tlpKind t = 1 then some o else none) t
    | none => refuseTlp s src o t 1

/-- A TLP under a selective stream leaves its partition only when the stream terminates at its ingress port (R141). -/
def ideStays (s : State) (p : Nat) (t : Tlp) : Bool :=
  match t.ide with
  | some k => !s.warp.ideSel.contains (p, k)
  | none => false

/-- Event 0x030D: a TLP of a stream that does not terminate here would leave its partition. -/
def ideToldOff (s : State) (v p : Nat) (t : Tlp) : State := eventIn s (some v) 0x030D 0 (p + at_ 16 (t.ide.getD 0 % 256))

def ideRefused (s : State) (v src : Nat) (o : Origin) (t : Tlp) : State := refuseTlp (ideToldOff s v src t) src o t 1

/-- The multicast group of an address: PRESUMED (log entry 8), the Multicast capability of the upstream function stands at
0x240. -/
def mcastGroup (s : State) (v a : Nat) : Option Nat :=
  let ctl := cfgReg s v 240 0x91
  let lo := cfgReg s v 240 0x92
  let base := lo / 4096 * 4096 + cfgReg s v 240 0x93 * 2 ^ 32
  let g := (a - base) / 2 ^ max 12 (lo % 64)
  if bit ctl 31 && base ≤ a && g ≤ bits ctl 16 6 && bit (partOf s v).groups g then some g else none

/-- A bit of a 64-bit multicast register of a function: 0x94 MC_Receive, 0x96 MC_Block_All, 0x98 MC_Block_Untranslated. -/
def mcastBit (s : State) (v fn dw g : Nat) : Bool := bit (cfgReg s v fn dw + cfgReg s v fn (dw + 1) * 2 ^ 32) g

/-- Multicast members: the ports whose function receives the group, but for the one the TLP came from. -/
def mcastMembers (s : State) (v src g : Nat) : List Nat :=
  let down := (downPorts s v).filter fun p => mcastBit s v (bridgeOf s p) 0x94 g
  let up := match upPort s v with
    | some p => if mcastBit s v 240 0x94 g then [p] else []
    | none => []
  (down ++ up).filter fun p => p ≠ src && portTakes s p

/-- The function of the ingress blocks the group. -/
def mcastBlocked (s : State) (v src g : Nat) (t : Tlp) : Bool :=
  let fn := if isDown s src then bridgeOf s src else 240
  mcastBit s v fn 0x96 g || (mcastBit s v fn 0x98 g && t.atype = 0)

/-- Queue one reference of a stored multicast TLP for a member, when its heddle lets it through and it is not fenced off. -/
def mcastMember (s : State) (p src chain : Nat) (o : Origin) (t : Tlp) : State :=
  if fencedOff s p t then s
  else
    let s := count s (ctrHed p 2) 1
    match heddleCheck s p { cls := o.cls, kind := 1, addr := t.addr, len := t.data.length } with
    | .deny a r sb => denied s p o.cls 1 false a r sb
    | w =>
      let s := passed s p (match w with | .own => true | _ => false) (tlpItem t (some o.cls) (some (o.mid, o.vs, o.rid)))
      let t := match w with
        | .region x => stamped x t
        | _ => t
      let i : LoomItem := { id := 0, chain := chain, src := src, tc := t.tc, kind := 0, bytes := tlpBytes t, cargo := .tlp t, origin := o, stamp := s.now,
                            epoch := s.hed.epoch, mcast := true }
      pushItem (addRef s chain) p i

/-- Store a multicast TLP once and queue a reference for each member its heddle lets through (R160, R322); one that the ingress function
blocks is only logged in its AER capability. -/
def mcastTlp (s : State) (v src : Nat) (o : Origin) (t : Tlp) (g : Nat) : State :=
  if mcastBlocked s v src g t then aerPort s src fun r => aerWrites r 23 (t.addr % 2 ^ 64 * 2 ^ 64)
  else
    let q := storeChain s src (cells (tlpBytes t)) true none
    dropRef ((mcastMembers q.1 v src g).foldl (fun s p => mcastMember s p src q.2 o t) q.1) q.2

/-- Carry a TLP to its hop. One that leaves its partition does so decrypted (R141). -/
def toHop (s : State) (v src : Nat) (o : Origin) (t : Tlp) (h : Hop) : State :=
  match h with
  | .port p => toPort s p src o t
  | .up => toUpstream s v src o t
  | .none | .blocked => refuseTlp s src o t 1
  | .config _ => (enqueueTlp s 128 src o t s.hed.epoch 0).1
  | .mgmt _ | .vf _ _ | .dobReg _ => deliverTlp s 128 src o t
  | .aperture i off =>
    if ideStays s src t then ideRefused s v src o t else apertureAccess s i src o { t with addr := off, ide := none }
  | .dobOut off =>
    if ideStays s src t then ideRefused s v src o t
    else if !cfgOn s 0x6001 0 then refuseTlp s src o t 1
    else deliverTlp s 129 src o { t with addr := off, ide := none }
  | .proxy _ => s

/-! ### Precision time (R139); PRESUMED (log entry 8): the PTM capability stands at 0x2C0 -/

/-- A function takes part in PTM. -/
def ptmOn (s : State) (v fn : Nat) : Bool := bit (cfgReg s v fn 0xB2) 0

/-- The time that the downstream ports of a partition answer with: fabric time of a root, else the host's, once it is known. -/
def ptmTime (s : State) (v : Nat) : Option Nat :=
  if cfgv s 0x3304 (v + 1) = 1 then some s.ft
  else (partOf s v).ptm.map fun r => r.1 + (s.now - r.2)

/-- A PTM message: a request of code 0x52, a response of code 0x53 with the time in its address field and, where it has one, the
propagation delay as data. The module answers within the step, so the delay is 0 (DESIGN CHOICE, log entry 118). -/
def ptmMessage (s : State) (v fn code : Nat) (time : Option Nat) : Tlp :=
  { kind := .message, addr := time.getD 0 % 2 ^ 64, len := if time.isSome then 4 else 0, rid := fnId s v fn, code := code
    data := if time.isSome then List.replicate 4 0 else [] }

/-- The upstream port asks the host for its time, when it is a requester and no request is under way. -/
def ptmAsk (s : State) (v : Nat) : State :=
  if cfgv s 0x3304 (v + 1) = 1 || (partOf s v).ptmAsked || !ptmOn s v 240 then s
  else toUpstream (setPart s v { partOf s v with ptmAsked := true }) v 128 {} (ptmMessage s v 240 0x52 none)

/-- A PTM message at a port: a request from below is answered with the partition's time, which is asked for again; a response from
the host sets it. Any other is not supported. -/
def ptmIngress (s : State) (v p : Nat) (host : Bool) (t : Tlp) : State :=
  if t.code = 0x52 && !host && ptmOn s v (bridgeOf s p) then
    ptmAsk (toPort s p 128 {} (ptmMessage s v (bridgeOf s p) 0x53 (ptmTime s v))) v
  else if t.code = 0x53 && host && (partOf s v).ptmAsked then
    setPart s v { partOf s v with ptmAsked := false, ptm := if t.data.isEmpty then (partOf s v).ptm else some (t.addr % 2 ^ 64, s.now) }
  else aerUnsupported s p (t.addr % 2 ^ 64 * 2 ^ 64)

/-- Route a TLP in partition `v`. A write to a multicast address goes to the group's members, a PTM message no further than its port,
any other message of the host to every downstream port. -/
def routeTlp (s : State) (v src : Nat) (host : Bool) (o : Origin) (t : Tlp) : State :=
  match if t.kind = .memWrite then mcastGroup s v t.addr else none with
  | some g => mcastTlp s v src o t g
  | none =>
    if t.kind = .message && (t.code = 0x52 || t.code = 0x53) then ptmIngress s v src host t
    else if host && (t.kind = .message || t.kind = .unlock) then
      ((downPorts s v).filter fun p => portTakes s p).foldl (fun s p => deliverTlp s p src o t) s
    else toHop s v src o t (routeHop s v src host t)

/-! ### Completions (R121, R122, R154) -/

/-- Take a completion against the request a port has sent; the reservation shrinks by what it takes, and the rest is released
with the last one. -/
def requestAnswered (s : State) (p : Nat) (r : OutReq) (t : Tlp) : State × Bool :=
  let x := warpPort s p
  let want := match r.t.kind with
    | .fetchAdd | .swap | .compareSwap => atomicBytes r.t
    | .memRead | .memReadLocked | .ioRead | .cfgRead => r.t.len
    | _ => 0
  let last := t.status ≠ 0 || want ≤ r.got + t.data.length
  let n := min r.reservation (cells (tlpBytes t))
  let r' := { r with got := r.got + t.data.length, reservation := r.reservation - n }
  let gone := if last then r.reservation else n
  let same := fun (q : OutReq) => q.rid = r.rid && q.tag = r.tag
  let s := setWarp s p { x with reqs := if last then x.reqs.filter fun q => !same q else x.reqs.map fun q => if same q then r' else q }
  let s := { s with loom := { s.loom with compHeld := s.loom.compHeld - gone } }
  let s := if last && r.origin.outside then
      let y := warpPort s p
      let f := fun (e : ProxyEntry) =>
        if e.mid = r.origin.mid && e.vs = r.origin.vs && e.rid = r.origin.rid && e.kind = r.origin.kind then { e with outstanding := e.outstanding - 1 } else e
      setWarp s p { y with proxies := y.proxies.map fun q => (q.1, f q.2) }
    else s
  (poolChanged s, last)

/-- The completion leaves the partition of the device. -/
def leavesPartition (o : Origin) : Bool :=
  match o.ret with
  | .shuttle _ _ _ | .dobby => true
  | .port _ => o.outside
  | _ => false

/-- A completion operation's room in the reservation of its request at port `p` (R154). -/
def fromReservation (p : Nat) (s : State) (n : Nat) : State × Nat :=
  let id := s.loom.nextChain
  let s := { s with loom := { s.loom with nextChain := id + 1 } }
  (poolChanged (setChain s id { size := n, account := .completion p, src := p, refs := 1 }), id)

/-- Hand part of an answer from a device towards the requester (R122, R154, R235, R347). -/
def passAnswer (s : State) (p : Nat) (r : OutReq) (t : Tlp) (last : Bool) : State :=
  let o := r.origin
  match o.ret with
  | .shuttle cid seq tag =>
    let s := if t.ep then eventFull (count (selContained s p 29 2 none 0) (ctrSel p 4) 1) 0x0908 p 2 none false (p + at_ 32 seq) else s
    let st := if t.ep then 2 else t.status
    let data := if st = 0 then t.data else []
    let s := match o.window with
      | some w => if last || t.ep then winDrain (cacheAnswer s w cid seq st data) w else s
      | none => s
    let off := r.t.addr % 2 ^ 41 + r.got
    let ps := pieces (data.length + 1) off data.length
    let remain := r.t.len - r.got
    let mk := fun (q : Nat × Nat) =>
      let k := q.1 - off
      let end_ := last && k + q.2 = data.length
      { cid := cid, typ := 4, head := completionHead seq tag st (if st = 0 then remain - k else 0) q.2 q.1 (end_ || st ≠ 0),
        data := (data.drop k).take q.2, src := p : NewOp }
    chargeWaiting { s with shu := { s.shu with waiting := s.shu.waiting ++ ps.map mk } } s.shu.waiting.length (fromReservation p)
  | .engine e => { s with eng := { s.eng with answers := s.eng.answers ++ [(e, t.status, t.ep, t.data)] } }
  | .dobby => (enqueueTlp s 129 p o { t with tag := r.t.tag, rid := o.rid } s.hed.epoch 0).1
  | .port q => toPort s q p o { t with addr := o.rid, rid := o.rid, completer := if o.outside then proxyBridgeId s o.vs else t.completer }
  | .tunnel v =>
    match tunnelCid s v with
    | some c => chargeWaiting (presentTunnel s c p none t) s.shu.waiting.length (fromReservation p)
    | none => s
  | .gone v => discardCompletion s v
  | .none => s

/-- A completion under a stream, as it leaves its partition: decrypted where the stream terminates at the port; else it is refused, and
the requester receives Unsupported Request (R141). -/
def leavingAnswer (s : State) (p : Nat) (r : OutReq) (t : Tlp) : State × Tlp :=
  if !leavesPartition r.origin then (s, t)
  else if ideStays s p t then
    (ideToldOff s ((portPart s p).getD 0) p t, { t with status := 1, len := 0, data := [], ep := false, ide := none })
  else (s, { t with ide := none })

/-- The chain that carries a completion is charged to the reservation (R154). -/
def chargeCompletion (s : State) (p before : Nat) : State :=
  match chainOf s before with
  | some c => setChain s before { c with account := .completion p }
  | none => s

/-- The engine's local read that a completion of the tunnel answers. -/
def tunnelRead (s : State) (v p : Nat) (t : Tlp) : Option Nat :=
  if p ≠ 128 then none
  else
    match s.eng.reads.find? fun r => r.req % 4096 = t.tag && (engineOrigin s r.ticket.inst).rid = t.addr && (engineOrigin s r.ticket.inst).vs = v with
    | some r => some r.req
    | none => none

/-- The first 16 bytes of a header, as the model has it: address, length and requester. -/
def headerWord (t : Tlp) : Nat := at_ 64 (t.addr % 2 ^ 64) + at_ 48 (t.rid % 65536) + at_ 32 (t.tag % 65536) + tlpKindCode t.kind + at_ 8 (t.len % 65536)

/-- A completion at a port: against its request, or routed by its ID; one for a proxy ID without a request is unexpected. -/
def completionIn (s : State) (v p : Nat) (o : Origin) (host : Bool) (t : Tlp) : State :=
  match (warpPort s p).reqs.find? fun r => r.rid = t.addr && r.tag = t.tag with
  | some r =>
    let (s, t) := leavingAnswer s p r t
    let q := requestAnswered s p r t
    let k := q.1.loom.nextChain
    let s := passAnswer q.1 p r t q.2
    if s.loom.nextChain = k then s else chargeCompletion s p k
  | none =>
    match tunnelRead s v p t with
    | some e => { s with eng := { s.eng with answers := s.eng.answers ++ [(e, t.status, t.ep, t.data)] } }
    | none =>
      match routeHop s v p host t with
      | .port d => toPort s d p o t
      | .up => toUpstream s v p o t
      | _ => selContained s p 11 1 (some v) (headerWord t)

/-! ### TLP_INGRESS -/

/-- The errors that a TLP shows by itself (R113, R343); an ECRC failure counts where the port's function, by its register `r`, has ECRC
checking enabled. -/
def tlpErrors (r : Nat → Nat) (t : Tlp) : List Nat :=
  (t.errs.filter fun c => c ≠ 9 || bit (r 0x46) 8) ++ (if 128 < t.hdrBytes && !t.errs.contains 8 then [8] else []) ++
    (if t.ep && !t.errs.contains 10 then [10] else [])

/-- The errors of a TLP at its ingress: its own, and an ACS violation (R342, R343). -/
def ingressErrors (s : State) (v p : Nat) (t : Tlp) : List Nat :=
  let es := tlpErrors (cfgReg s v (portFn s p)) t
  es ++ (if isDown s p && acsViolation s v p t && !es.contains 12 then [12] else [])

/-- The action that decides among several errors. -/
def worstAction (s : State) (p : Nat) (es : List Nat) : Nat :=
  es.foldl (fun a c => let b := ingressAction s p c; if actionRank a < actionRank b then b else a) 0

/-- An integrity failure makes its stream insecure (R141, cause 16). -/
def ideFailed (s : State) (v : Option Nat) (p : Nat) (t : Tlp) : State :=
  let k := t.ide.getD 0
  let s := { s with vault := { s.vault with ide := Tbl.erase s.vault.ide (ideKey p k) }
                    warp := { s.warp with ideSel := s.warp.ideSel.filter fun q => q ≠ (p, k) } }
  eventIn (count s (ctrPort p 18) 1) v 0x030D 0 (p + at_ 16 (k % 256))

/-- Log one error of a TLP; the filter of block 6 sees the item at its classification. -/
def logIngress (s : State) (v : Option Nat) (p : Nat) (t : Tlp) (c : Nat) : State :=
  let s := if c = 16 then ideFailed s v p t else s
  if errClass c = 0 then selCorrectable s p c
  else if contains s p c then containPort s p c (headerWord t) else selContained s p c (ingressAction s p c) v (headerWord t)

/-- A TLP of an isolated partition (R351): its host's configuration requests to own functions, and completions, are served. -/
def isolatedServes (s : State) (v p : Nat) (host : Bool) (t : Tlp) : Bool :=
  match t.kind with
  | .completion => true
  | .cfgRead | .cfgWrite => host && (match routeHop s v p host t with
    | .config _ => true
    | _ => false)
  | _ => false

/-- A TLP that has passed the selvedge is accepted and routed. -/
def acceptTlp (s : State) (v p : Nat) (host : Bool) (ret : Ret) (t : Tlp) : State :=
  let o : Origin := { cls := v, mid := ownMid s, vs := v, rid := t.rid, kind := 0, ret := if tlpKind t = 1 then ret else .none }
  let ready := vsState s v
  if ready = 3 && !isolatedServes s v p host t then refuseTlp (count s (ctrPart v 3) 1) p o t 1
  else if ready = 1 then
    if t.kind = .completion then discardCompletion s v
    else if t.kind = .cfgRead || t.kind = .cfgWrite then answer s p o t 0 3 false []
    else refuseTlp s p o t 1
  else
    let s := count s (ctrPart v 0) 1
    if t.kind = .completion then completionIn s v p o host t else routeTlp s v p host o t

/-- Counters and filter of a TLP that a port receives. -/
def countIngress (s : State) (p : Nat) (v : Option Nat) (t : Tlp) : State :=
  let s := count (count (count s (ctrPort p 0) 1) (ctrPort p 2) (ceilDiv (tlpBytes t) 64)) (ctrPort p (4 + tlpKind t)) 1
  filterItem s 0 (tlpItem t v (v.map fun v => (ownMid s, v, t.rid)))

/-- The receiver's flow control of a TLP (R151): its credits are held by the first chain made of it since chain `k`, as long as that stays
in the port's reservation, or go back at once. Completions have the credits of their requests' reservations (R154). -/
def ingressCredit (s : State) (p : Nat) (t : Tlp) (k : Nat) : State :=
  if tlpKind t = 2 then s
  else
    let c := (p, 2 * tcVc s p t.tc + tlpKind t, ceilDiv t.data.length 16)
    match chainOf s k with
    | some x =>
      match x.account with
      | .reserve _ => setChain s k { x with credit := some c }
      | _ => warpFreed s c.1 c.2.1 c.2.2
    | none => warpFreed s c.1 c.2.1 c.2.2

/-! ### The exporter of an upstream port (R117) -/

/-- The windows of the upstream function that this module presents let a request of the host through. -/
def upClaims (s : State) (p : Nat) (t : Tlp) : Bool :=
  let w := fun (on lo hi : Nat) => bit (upReg s p 1) on && bits (upReg s p 0x21) 0 2 = 0 && lo ≤ t.addr && t.addr < hi
  let m := upReg s p 8
  let f := upReg s p 9
  let i := upReg s p 7
  let u := upReg s p 12
  match t.kind with
  | .ioRead | .ioWrite => w 0 (bits i 4 4 * 2 ^ 12 + bits u 0 16 * 2 ^ 16) ((bits i 12 4 + 1) * 2 ^ 12 + bits u 16 16 * 2 ^ 16)
  | .completion | .message | .unlock => true
  | _ => w 1 (bits m 4 12 * 2 ^ 20) ((bits m 20 12 + 1) * 2 ^ 20) ||
      w 1 (bits f 4 12 * 2 ^ 20 + upReg s p 10 * 2 ^ 32) ((bits f 20 12 + 1) * 2 ^ 20 + upReg s p 11 * 2 ^ 32)

/-- A bus lies behind the upstream function. -/
def upBus (s : State) (p b : Nat) : Bool :=
  let w := upReg s p 6
  bits w 8 8 ≠ 0 && bits w 8 8 ≤ b && b ≤ bits w 16 8

/-- The partition behind an exported port is ready, and its tunnel is up. -/
def upServes (s : State) (p : Nat) (a : AdmittedVs) : Bool := (warpPort s p).upReady && (connOf s a.cidB).st = .active

/-- A completion of the host for a request that has left by the port. -/
def exportedCompletion (s : State) (p : Nat) (t : Tlp) : State :=
  match (warpPort s p).reqs.find? fun r => r.rid = t.addr && r.tag = t.tag with
  | some r =>
    let q := requestAnswered s p r t
    passAnswer q.1 p r t q.2
  | none => selContained s p 11 1 none (headerWord t)

/-- A configuration request of the host: the upstream function's own are answered here, and a write is told to the owner; the others
cross the tunnel. Until the partition is ready all are answered with Request Retry Status (R127). -/
def exportedConfig (s : State) (p : Nat) (a : AdmittedVs) (o : Origin) (t : Tlp) : State :=
  let rid := t.addr / 4096
  let dw := t.addr % 4096 / 4
  if !upServes s p a then answer s p o t rid 3 false []
  else if upBus s p (rid / 256 % 256) then intoTunnel s a.cidB p (some o) t
  else if rid % 256 ≠ 0 then refuseTlp s p o t 1
  else if t.kind = .cfgRead then answer s p o t rid 0 false (leBytes 4 (upReg s p dw))
  else if t.ep then answer s p o t rid 0 false []
  else
    let s := setUpReg s p dw (cfgMerge 240 dw (upReg s p dw) (leAt t.data 0 4) t.firstBe)
    tunnelNotice (answer s p o t rid 0 false []) a.cidB 4 dw t.firstBe (t.data.take 4)

/-- A TLP of a host behind a port that this module exports, once it has passed the selvedge. -/
def exportedAccept (s : State) (p : Nat) (a : AdmittedVs) (t : Tlp) : State :=
  let o : Origin := { mid := ownMid s, vs := a.pgid % 32, rid := t.rid, ret := if tlpKind t = 1 then .port p else .none }
  match t.kind with
  | .completion => exportedCompletion s p t
  | .cfgRead | .cfgWrite => exportedConfig s p a o t
  | _ =>
    if !upServes s p a || !upClaims s p t || (t.kind = .message && t.code = 0xFF) then refuseTlp s p o t 1
    else intoTunnel s a.cidB p (if tlpKind t = 1 then some o else none) t

/-- TLP ingress at an exported port: errors as at any other (R341 to R343), charged to no partition of this module. -/
def exportedIngress (s : State) (p : Nat) (a : AdmittedVs) (t : Tlp) : State :=
  let s := countIngress s p none t
  let es := tlpErrors (upReg s p) t
  let s := es.foldl (fun s c => logIngress s none p t c) s
  match worstAction s p es with
  | 0 | 6 => exportedAccept (if t.ep then count s (ctrSel p 3) 1 else s) p a t
  | _ => s

/-! ### TLP_INGRESS -/

/-- A TLP that a port of partition `v` receives: counted, checked by the selvedge, accepted. -/
def partIngress (s : State) (v p : Nat) (t : Tlp) : State :=
  let s := countIngress s p (some v) t
  let es := ingressErrors s v p t
  let act := worstAction s p es
  let s := if es.isEmpty then s else filterItem (es.foldl (fun s c => logIngress s (some v) p t c) s) 6 (tlpItem t (some v) (some (ownMid s, v, t.rid)))
  let o : Origin := { cls := v, mid := ownMid s, vs := v, rid := t.rid, ret := if tlpKind t = 1 then .port p else .none }
  if act = 1 || act = 3 then s
  else if act = 2 then (if tlpKind t = 1 then refuseTlp s p o t 1 else s)
  else acceptTlp (if t.ep then count s (ctrSel p 3) 1 else s) v p (!isDown s p) (.port p) t

/-- The TLP is taken now: by its partition, or by the tunnel of an exported port. -/
def takeTlp (s : State) (p : Nat) (t : Tlp) : State :=
  match portPart s p with
  | none =>
    match exportOf s p with
    | some a => exportedIngress s p a t
    | none => s
  | some v => if (partOf s v).resetSince.isSome || vsState s v = 0 then s else partIngress s v p t

/-- TLP_INGRESS (R113, R118, R126, R151, R341 to R348, R351, R352): while its partition's routing state is reloaded the ingress holds what
arrives, with its credits. -/
def tlpIngress (p : Nat) (t : Tlp) (s : State) : State :=
  if !(isWarp s p && inService s && (warpPort s p).st = .active) then s
  else
    match portPart s p with
    | some v =>
      if (partOf s v).reloading.isSome then setPart s v { partOf s v with held := (partOf s v).held ++ [(p, t)] }
      else ingressCredit (takeTlp s p t) p t s.loom.nextChain
    | none => ingressCredit (takeTlp s p t) p t s.loom.nextChain

/-- What the ingress of a partition has held is taken once the reload has ended. -/
def heldTaken (s : State) (v : Nat) : State :=
  if (partOf s v).reloading.isSome || (partOf s v).held.isEmpty then s
  else (partOf s v).held.foldl (fun s r => tlpIngress r.1 r.2 s) (setPart s v { partOf s v with held := [] })

/-- Send the error messages that functions have left (R341): to the host of the partition, or by the exported port. -/
def errorsSent (s : State) : State :=
  s.warp.errMsgs.foldl (fun s e =>
    let t : Tlp := { kind := .message, addr := 0, len := 0, rid := fnId s e.1 e.2.1, code := e.2.2 }
    if e.1 < 32 then (if vsState s e.1 = 0 || vsState s e.1 = 1 then s else toUpstream s e.1 128 {} t)
    else toPort s (e.1 - 32) 128 {} { t with rid := bits (upReg s (e.1 - 32) 6) 0 8 * 256 }) { s with warp := { s.warp with errMsgs := [] } }

end Sys2Proof.Machine
end

