-- ==== Sys2Proof/Machine/Dobby.lean ====
section
/-!
DEFINITION. The dobby (chapter 14): outbound windows and cycles, inbound windows, atomics, locks, semaphores, interrupts and
the backplane's own signals.
-/

namespace Sys2Proof.Machine

/-! ### Address modifiers (R378) -/

/-- What a modifier says: space, supervisory, program, and 0 single, 1 BLT, 2 MBLT. -/
structure AmInfo where
  space : Nat
  sup : Bool := false
  prog : Bool := false
  mode : Nat := 0

def amInfo (am : Nat) : Option AmInfo :=
  match am with
  | 0x29 => some { space := 0 }
  | 0x2D => some { space := 0, sup := true }
  | 0x39 => some { space := 1 }
  | 0x3D => some { space := 1, sup := true }
  | 0x3A => some { space := 1, prog := true }
  | 0x3E => some { space := 1, sup := true, prog := true }
  | 0x3B => some { space := 1, mode := 1 }
  | 0x3F => some { space := 1, sup := true, mode := 1 }
  | 0x38 => some { space := 1, mode := 2 }
  | 0x3C => some { space := 1, sup := true, mode := 2 }
  | 0x09 => some { space := 2 }
  | 0x0D => some { space := 2, sup := true }
  | 0x0A => some { space := 2, prog := true }
  | 0x0E => some { space := 2, sup := true, prog := true }
  | 0x0B => some { space := 2, mode := 1 }
  | 0x0F => some { space := 2, sup := true, mode := 1 }
  | 0x08 => some { space := 2, mode := 2 }
  | 0x0C => some { space := 2, sup := true, mode := 2 }
  | 0x01 => some { space := 3 }
  | 0x03 => some { space := 3, mode := 1 }
  | 0x00 => some { space := 3, mode := 2 }
  | _ => none

/-- The modifier of an outbound window for a mode. -/
def outAm (w mode : Nat) : Nat :=
  let sup := if bit w 251 then 4 else 0
  let prog := if bit w 250 then 1 else 0
  if bit w 252 then 0x2F
  else
    match bits w 253 2, mode with
    | 0, _ => 0x29 + sup
    | 1, 0 => 0x39 + sup + prog
    | 1, 1 => 0x3B + sup
    | 1, _ => 0x38 + sup
    | 2, 0 => 0x09 + sup + prog
    | 2, 1 => 0x0B + sup
    | 2, _ => 0x08 + sup
    | _, 0 => 0x01
    | _, 1 => 0x03
    | _, _ => 0x00

/-! ### Data lanes (R383) -/

/-- The lowest line of the byte at VME address `x` in a cycle of beat width `width` that starts at `a`, or in an MBLT. Lines 0 to 31 are
D0 to D31, lines 32 to 63 LWORD and A1 to A31. -/
def byteLine (mblt : Bool) (width a x : Nat) : Nat :=
  if mblt then 56 - 8 * (x % 8)
  else if 3 ≤ width || (width = 2 && a % 2 = 1) then 24 - 8 * (x % 4)
  else if x % 2 = 0 then 8
  else 0

/-- The lines of a beat that carries bytes from VME address `x` on. -/
def onLanes (mblt : Bool) (width a x : Nat) (bs : List Byte) : Nat :=
  ((List.range bs.length).map fun k => at_ (byteLine mblt width a (x + k)) ((bs[k]?).getD 0).toNat).sum

/-- The `n` bytes of a beat from VME address `x` on. -/
def offLanes (mblt : Bool) (width a x n lines : Nat) : List Byte :=
  (List.range n).map fun k => BitVec.ofNat 8 (bits lines (byteLine mblt width a (x + k)) 8)

/-- The beats of `n` bytes from `a`: address and bytes of each. -/
def beatsOf (width a n : Nat) : List (Nat × Nat) :=
  let w := max 1 width
  (List.range (ceilDiv n w)).map fun k => (a + w * k, min w (n - w * k))

/-! ### Outbound windows (R381, R382, R384) -/

/-- The dobby is in service (R379, R435). -/
def dobOn (s : State) : Bool := cfgOn s 0x6001 0 && inService s

/-- The dobby's pins drive the backplane (R427). -/
def dobPins (s : State) : Bool := s.power.vioOk && dobOn s

def outWin (s : State) (n : Nat) : Nat := cfgv s 0x6010 (n + 1)

/-- The valid outbound window of an outbound-space address. -/
def outWindow (s : State) (a : Nat) : Option Nat :=
  (List.range 16).find? fun n =>
    let w := outWin s n
    bit w 255 && bits w 0 32 ≤ a && a < bits w 0 32 + 2 ^ bits w 237 6

/-- The exclusive-or of SWAP on the low three address bits (R384). -/
def swapMask (sw : Nat) : Nat :=
  match sw with
  | 0 => 0
  | 1 => 1
  | 2 => 3
  | _ => 7

/-- VME address of an outbound-space byte. -/
def outVme (w a : Nat) : Nat := bits w 64 64 + ((a - bits w 0 32) ^^^ swapMask (bits w 244 2))

/-- The outbound-space byte at a VME address: the permutation is its own inverse. -/
def outByte (w x : Nat) : Nat := bits w 0 32 + ((x - bits w 64 64) ^^^ swapMask (bits w 244 2))

/-- The bytes of an access that are enabled, in outbound space. -/
def enabledBytes (t : Tlp) : List Nat :=
  let n := max t.len t.data.length
  ((List.range n).map fun i => t.addr + i).filter fun b => enabledAt t.addr n t.firstBe t.lastBe b

/-- Neighbours within one doubleword are contiguous (R385). -/
def expressible : List Nat → Bool
  | x :: y :: xs => (x / 4 ≠ y / 4 || y = x + 1) && expressible (y :: xs)
  | _ => true

/-- Runs of consecutive addresses: first address and length. -/
def runsOf : List Nat → List (Nat × Nat)
  | [] => []
  | x :: xs =>
    match runsOf xs with
    | (a, n) :: rs => if a = x + 1 then (x, n + 1) :: rs else (x, 1) :: (a, n) :: rs
    | [] => [(x, 1)]

/-! ### Splitting into cycles (R386) -/

/-- The cycles of `k` enabled bytes from `a`, within one doubleword. -/
def dwordSteps : Nat → Nat → Nat → Nat → Nat → List DobStep
  | 0, _, _, _, _ => []
  | fuel + 1, am, maxDw, a, k =>
    if k = 0 then []
    else
      let uat := k = 3 || (k = 2 && a % 2 = 1)
      let n := if 2 ≤ maxDw || (maxDw = 1 && k = 2 && !uat) then k else if maxDw = 1 && a % 2 = 0 && 2 ≤ k then 2 else 1
      let st : DobStep := { addr := a, am := am, mode := .single, width := n, count := n, off := 0 }
      st :: dwordSteps fuel am maxDw (a + n) (k - n)

/-- Single cycles, doubleword by doubleword. -/
def singleSteps : Nat → Nat → Nat → Nat → Nat → List DobStep
  | 0, _, _, _, _ => []
  | fuel + 1, am, maxDw, a, n =>
    if n = 0 then []
    else
      let k := min n (4 - a % 4)
      dwordSteps 4 am maxDw a k ++ singleSteps fuel am maxDw (a + k) (n - k)

/-- Bursts that do not cross a boundary. -/
def burstSteps : Nat → Nat → VmeMode → Nat → Nat → Nat → Nat → List DobStep
  | 0, _, _, _, _, _, _ => []
  | fuel + 1, am, mode, width, bound, a, n =>
    if n = 0 then []
    else
      let k := min n (bound - a % bound)
      let st : DobStep := { addr := a, am := am, mode := mode, width := width, count := k, off := 0 }
      st :: burstSteps fuel am mode width bound (a + k) (n - k)

/-- A part without MBLT: whole units, at least two, in BLT bursts, the rest in single cycles. -/
def bltPart (w a n : Nat) : List DobStep :=
  let dw := bits w 248 2
  let u := if 2 ≤ dw then 4 else 2
  let lo := ceilDiv a u * u
  let hi := (a + n) / u * u
  let one := singleSteps (n + 1) (outAm w 0) dw
  if 1 ≤ bits w 246 2 && lo + 2 * u ≤ hi then
    one a (lo - a) ++ burstSteps (n + 1) (outAm w 1) .blt u 256 lo (hi - lo) ++ one hi (a + n - hi)
  else one a n

/-- A run of enabled bytes. -/
def runSteps (w a n : Nat) : List DobStep :=
  let lo := ceilDiv a 8 * 8
  let hi := (a + n) / 8 * 8
  if bits w 246 2 = 2 && lo + 16 ≤ hi then
    bltPart w a (lo - a) ++ burstSteps (n + 1) (outAm w 2) .mblt 8 2048 lo (hi - lo) ++ bltPart w hi (a + n - hi)
  else bltPart w a n

/-! ### Items (R397, R400) -/

def setItems (s : State) (is : List DobItem) : State := { s with dob := { s.dob with items := is } }

def setItem (s : State) (it : DobItem) : State := setItems s (s.dob.items.map fun i => if i.item = it.item then it else i)

/-- Bytes in the posted FIFO: writes taken that are not on the hold list. -/
def fifoBytes (s : State) : Nat := ((s.dob.items.filter fun i => i.posted && i.chain.isNone).map fun i => i.tlp.data.length).sum

/-- DOB_HOLD_USED 0x6026. -/
def holdUsed (s : State) : Nat :=
  (s.dob.items.map fun i => match i.chain with
    | some c => ((chainOf s c).map fun x => x.size).getD 0
    | none => 0).sum

/-- Held writes enter the FIFO, in order, as it has room. -/
def holdMoves : Nat → State → State
  | 0, s => s
  | fuel + 1, s =>
    match s.dob.items.find? fun i => i.chain.isSome with
    | some i =>
      match i.chain with
      | some c =>
        if fifoBytes s + i.tlp.data.length ≤ 16384 then holdMoves fuel (dropRef (setItem s { i with chain := none }) c) else s
      | none => s
    | none => s

/-- An atomic access, which the dobby carries as a read-modify-write (R394). -/
def isAtomic (t : Tlp) : Bool :=
  match t.kind with
  | .fetchAdd | .swap | .compareSwap => true
  | _ => false

/-- The item on the bus. -/
def onBus (s : State) : Option DobItem := s.dob.items.find? fun i => i.started

/-- An atomic is on the bus, which it holds throughout (R394). -/
def inAtomic (s : State) : Bool :=
  match onBus s with
  | some it => isAtomic it.tlp
  | none => false

/-- The bus is released to another master whose request is pending, unless a lock or an atomic holds it (R394, R395, R398). -/
def busYield (s : State) : State :=
  if s.dob.lock.isNone && s.dob.busWanted.isSome && !inAtomic s then { s with dob := { s.dob with holdsBus := false, busWanted := none } } else s

/-- An item leaves the dobby. -/
def itemGone (s : State) (it : DobItem) : State :=
  let s := setItems { s with dob := { s.dob with cycle := none } } (s.dob.items.filter fun i => i.item ≠ it.item)
  let s := match it.chain with
    | some c => dropRef s c
    | none => s
  busYield (holdMoves 64 s)

/-- The window's write that an item carries is visible, or lost (R284, R400). -/
def itemSeen (s : State) (it : DobItem) (late : Bool) : State :=
  match s.win.unseen.find? fun u => u.item = it.item with
  | some u => writeDone s u (late && it.posted)
  | none => s

/-- An item ends in error (R400, R401): the reason, the modifier and the VME address. -/
def itemFails (s : State) (it : DobItem) (reason am addr : Nat) : State :=
  let bus := reason = 1 || reason = 2 || reason = 7
  let s := if bus then count (selContained s 129 28 (if it.posted then 1 else 2) none 0) (ctrDob (32 + it.win)) 1 else s
  let s := itemGone s it
  if it.posted then
    if it.origin.outside then itemSeen s it true else dobbyDropped s it.origin.vs reason it.win am addr
  else
    let sev := if bus then 2 else 0
    let s := rateEvent s 0x0A01 0 ms fun s n => eventFull s 0x0A01 0 sev none false (reason + at_ 8 it.win + at_ 16 (n % 65536))
    answer (itemSeen s it false) 129 it.origin it.tlp 0 (if bus || reason = 6 then 2 else 1) false []

/-- The byte that the reads of an item have brought from a VME address. -/
def gotByte (got : Tbl (List Byte)) (x : Nat) : Byte :=
  match List.find? (fun r => r.1 ≤ x && x < r.1 + r.2.length) got with
  | some r => (r.2[x - r.1]?).getD 0
  | none => 0

/-- The module-side bytes that a read or an atomic has found. -/
def readBack (w : Nat) (it : DobItem) (n : Nat) : List Byte := (List.range n).map fun k => gotByte it.got (outVme w (it.tlp.addr + k))

/-- An item has ended well. -/
def itemDone (s : State) (it : DobItem) (data : List Byte) : State :=
  let s := itemGone s it
  let s := if it.tlp.kind = .memReadLocked then { s with dob := { s.dob with lock := some it.origin.vs, holdsBus := true } } else s
  if it.posted then itemSeen s it false else answer (itemSeen s it false) 129 it.origin it.tlp 0 0 false data

/-- DOBBY_TAKE of a request: a posted write always, to the FIFO or behind the writes that are held, a non-posted one while the request
list has room. -/
def takeRequest129 (s : State) (i : LoomItem) (t : Tlp) : State :=
  let part := if i.origin.outside then none else some i.origin.vs
  let s := filterItem (removeItem s 129 i.id) 7 (tlpItem t (some i.origin.cls) (some (i.origin.mid, i.origin.vs, i.origin.rid)))
  let posted := i.kind = 0
  let it : DobItem := { origin := i.origin, tlp := t, item := i.id, posted := posted, since := s.now, win := (outWindow s t.addr).getD 0 }
  if t.ep then
    let s := releaseItem (count (eventFull s 0x0907 129 2 part false (129 + at_ 32 (t.addr % 2 ^ 32))) (ctrSel 129 4) 1) i
    itemFails (setItems s (s.dob.items ++ [it])) it 6 0 0
  else if posted && (16384 < fifoBytes s + t.data.length || s.dob.items.any fun i => i.chain.isSome) then setItems s (s.dob.items ++ [{ it with chain := some i.chain }])
  else setItems (releaseItem s i) (s.dob.items ++ [it])

/-! ### Inbound cycles (R388 to R392) -/

def inWin (s : State) (n : Nat) : Nat := cfgv s 0x6011 (n + 1)

/-- The window that answers a cycle: it contains the address and accepts the modifier. -/
def inWindow (s : State) (c : VmeCycle) : Option Nat :=
  match amInfo c.am with
  | none => none
  | some a =>
    (List.range 16).find? fun n =>
      let w := inWin s n
      bit w 255 && bits w 252 2 = a.space && bits w 64 64 ≤ c.addr && c.addr < bits w 64 64 + 2 ^ bits w 235 6 &&
        (if a.sup then bit w 251 else bit w 250) && (!a.prog || bit w 249) && (a.mode ≠ 1 || bit w 248) && (a.mode ≠ 2 || bit w 247)

/-- The module-side address of a VME byte of a window (R389). -/
def inModule (w x : Nat) : Nat := bits w 0 64 + ((x - bits w 64 64) ^^^ swapMask (bits w 244 2))

/-- Module-side bytes in ascending order with their place in the cycle. -/
def inBytes (w a n : Nat) : List (Nat × Nat) :=
  sortBy (fun x y => x.1 ≤ y.1) ((List.range n).map fun i => (inModule w (a + i), i))

/-- One module-side access: address, length, and the enables of its first doubleword. -/
def inParts (ms : List Nat) : List (Nat × Nat × Nat) :=
  let lo := ms.foldl min ((ms.head?).getD 0)
  let hi := ms.foldl max 0
  if lo / 4 = hi / 4 then [(lo, hi + 1 - lo, (ms.map fun m => at_ (m % 4) 1).sum)]
  else (runsOf ms).map fun r => (r.1, r.2, 15)

/-- Cut a local access at 256-byte boundaries (R390). -/
def cut256 : Nat → Nat × Nat × Nat → List (Nat × Nat × Nat)
  | 0, _ => []
  | fuel + 1, (a, n, be) =>
    let k := min n (256 - a % 256)
    if k = n then [(a, n, be)] else (a, k, be) :: cut256 fuel (a + k, n - k, 15)

/-- A cycle ends with BERR: event 0x0A02. -/
def inBerr (s : State) (n reason am addr : Nat) : State :=
  let s := event (count s (ctrDob (48 + n)) 1) 0x0A02 0 (reason + at_ 8 n + at_ 12 am + at_ 32 (addr % 2 ^ 32))
  emit { s with dob := { s.dob with inbound := none } } (.vmeAnswer true [])

/-- The tag of request `k` of an inbound cycle; 1023 is a fence. -/
def inTag (number k : Nat) : Nat := number % 16 * 1024 + k

/-- The origin of an inbound request (R323, R389): class 48, SRC_KIND 1. -/
def inOrigin (s : State) (n : Nat) (answered : Bool) : Origin :=
  { cls := 48, mid := ownMid s, vs := if bit (inWin s n) 254 then 0 else bits (inWin s n) 230 5, rid := 0, kind := 1, outside := true,
    window := some n, ret := if answered then .dobby else .none }

/-- Present a fence of the dobby on a connection (R391). -/
def inFence (s : State) (n number cid : Nat) (answered : Bool) : State :=
  present s { cid := cid, typ := 5, acq := true, rel := true, src := 129, origin := inOrigin s n answered,
              head := reqWord { rid := 0, vs := 0, kind := 1, tag := 0, len := 0, lastBe := 0, firstBe := 0, atom := 0, ns := false, window := 0, offset := 0 }
              tlp := some { kind := .memRead, addr := 0, len := 4, tag := inTag number 1023 } }

/-- Send one module-side access of a cycle: into the loom for a local window, as an operation for a remote one. -/
def inSend (s : State) (n : Nat) (write answered : Bool) (tag : Nat) (p : Nat × Nat × Nat) (data : List Byte) : State :=
  let w := inWin s n
  let o := inOrigin s n answered
  let t : Tlp := { kind := if write then .memWrite else .memRead, addr := p.1, len := p.2.1, firstBe := p.2.2, tag := tag, data := data }
  if bit w 254 then
    let typ := if !write then 1 else if answered then 3 else 0
    present s { cid := bits w 216 14, typ := typ, gen := bits w 184 16, data := data, src := 129, origin := o
                tlp := if typ = 0 then none else some t
                head := reqWord { rid := 0, vs := 0, kind := 1, tag := 0, len := p.2.1, lastBe := 15, firstBe := p.2.2, atom := 0, ns := false
                                  window := bits w 200 16, offset := p.1 } }
  else routeTlp s (bits w 230 5) 129 false o t

/-- Ask for, or write, `n` bytes of a cycle from VME address `a`. -/
def inAccess (s : State) (win : Nat) (x : DobIn) (write answered : Bool) (a n : Nat) (data : List Byte) : State :=
  let w := inWin s win
  let bs := inBytes w a n
  let whole := inParts (bs.map Prod.fst)
  let ps := if bit w 254 then whole else whole.flatMap fun p => cut256 (n + 1) p
  let fence := bit w 254 && bit w 241
  let cid := bits w 216 14
  let byte := fun (m : Nat) => match bs.find? fun b => b.1 = m with
    | some b => (data[b.2]?).getD 0
    | none => 0
  let ks := (List.range ps.length).zip ps
  let x' := { x with left := x.left + (if answered then ps.length + (if fence then 2 else 0) else 0)
                     asked := if answered then ks.map fun (k : Nat × Nat × Nat × Nat) => (k.1, (k.2.1, if write then 0 else k.2.2.1)) else [] }
  let s := if answered then { s with dob := { s.dob with inbound := some { x' with got := [] } } } else s
  let s := if fence then inFence s win x.number cid answered else s
  let s := ks.foldl (fun s (k : Nat × Nat × Nat × Nat) =>
    inSend s win write answered (inTag x.number k.1) k.2 (if write then (List.range k.2.2.1).map fun j => byte (k.2.1 + j) else [])) s
  if fence then inFence s win x.number cid answered else s

/-- Bytes a burst read asks for at once (R391). -/
def inChunk (s : State) (win : Nat) (c : VmeCycle) (done : Nat) : Nat :=
  let w := inWin s win
  let beat := max 1 c.width
  let burst := match c.kind with
    | .blt | .mblt => true
    | _ => false
  let most := if burst && bit w 242 then max beat (cfgv s 0x6008 0) else beat
  let bound := if c.kind = .mblt then 2048 else 256
  let room := min (bits w 64 64 + 2 ^ bits w 235 6 - (c.addr + done)) (bound - (c.addr + done) % bound)
  min (min most room) (c.len - done)

/-- The next read of a cycle. -/
def inRead (s : State) (x : DobIn) : State :=
  let n := inChunk s x.win x.cycle x.next
  inAccess s x.win { x with next := x.next + n } false true (x.cycle.addr + x.next) n []

/-- The bytes that a VME master writes, off its lanes. -/
def cycleData (c : VmeCycle) : List Byte :=
  if !c.write && c.kind ≠ .rmw then []
  else
    let m := c.kind = .mblt
    ((beatsOf c.width c.addr c.len).zip c.beats).flatMap fun r => offLanes m c.width c.addr r.1.1 r.1.2 r.2.toNat

/-- DTACK for bytes from `a` on that a master reads, on its lanes, beat by beat. -/
def dtackData (c : VmeCycle) (a : Nat) (data : List Byte) : Emit :=
  let m := c.kind = .mblt
  .vmeAnswer false ((beatsOf c.width a data.length).map fun r => onLanes m c.width c.addr r.1 ((data.drop (r.1 - a)).take r.2))

/-- The cycle's write is posted (R390). -/
def isPosted (s : State) (x : DobIn) : Bool := bit (inWin s x.win) 243

/-- Bytes in the inbound write buffer. -/
def inbufBytes (s : State) : Nat := (s.dob.inbuf.map fun x => x.cycle.len).sum

/-- The write of a cycle (R390): posted, into the inbound write buffer with DTACK at once, or answered when it is visible or
completed. -/
def inWrite (s : State) (x : DobIn) : State :=
  let c := x.cycle
  if isPosted s x then emit { s with dob := { s.dob with inbound := none, inbuf := s.dob.inbuf ++ [x] } } (.vmeAnswer false [])
  else inAccess s x.win { x with next := c.len } true true c.addr c.len (cycleData c)

/-- Bobbins of the S129 reservation that inbound requests hold. DEDUCED (log entry 119) from R398: completions of outbound requests, which
the same source brings, do not hold an inbound write back. -/
def inboundHeld (s : State) : Nat :=
  let size := fun (c : Nat) => match chainOf s c with
    | some x => if x.account = .reserve 129 then x.size else 0
    | none => 0
  ((itemsWhere s fun i => i.src = 129 && i.kind ≠ 2).map fun r => size r.2.chain).sum +
    (s.shu.waiting.map fun op => if op.src = 129 then size (op.chain.getD s.loom.nextChain) else 0).sum

/-- The S129 reservation has room for a posted write. -/
def inRoom (s : State) (c : VmeCycle) : Bool := inboundHeld s + cells (c.len + 48) ≤ cfgv s 0x4001 130

/-- The writes of the inbound write buffer enter the loom, in order, as its source has room. -/
def drainInbuf : Nat → State → State
  | 0, s => s
  | fuel + 1, s =>
    match s.dob.inbuf with
    | [] => s
    | x :: xs =>
      if inRoom s x.cycle then
        drainInbuf fuel (inAccess { s with dob := { s.dob with inbuf := xs } } x.win x true false x.cycle.addr x.cycle.len (cycleData x.cycle))
      else s

/-- A cycle cannot start yet: a posted write waits for room in the buffer, every other cycle for the writes there (DEDUCED, log entry 119:
one master's accesses keep their order). -/
def inWaits (s : State) (x : DobIn) : Bool :=
  if x.cycle.write && x.cycle.kind ≠ .rmw && isPosted s x then 16384 < inbufBytes s + x.cycle.len else !s.dob.inbuf.isEmpty

/-- A cycle that has passed its checks starts. -/
def inStart (s : State) (x : DobIn) : State :=
  if inWaits s x then { s with dob := { s.dob with inbound := some { x with held := true } } }
  else if x.cycle.write && x.cycle.kind ≠ .rmw then inWrite s { x with held := false }
  else inRead s { x with held := false }

/-- The inbound write buffer drains, and a cycle that DTACK was held for goes on when it may. -/
def dobbySettled (s : State) : State :=
  let s := drainInbuf (s.dob.inbuf.length) s
  match s.dob.inbound with
  | some x => if x.held && !inWaits s x then (let s := inStart s x; drainInbuf (s.dob.inbuf.length) s) else s
  | none => s

/-- A read or write of a semaphore by a VME master (R396). -/
def semTaken (s : State) (k owner : Nat) : State × Nat :=
  let v := vget s.dob.sem k 0
  if bit v 31 then (s, v)
  else (count { s with dob := { s.dob with sem := vset s.dob.sem k (at_ 31 1 + owner) } } (ctrDob 81) 1, v)

def semFreed (s : State) (k value : Nat) : State :=
  if bit value 31 then s else { s with dob := { s.dob with sem := vset s.dob.sem k 0 } }

/-- VME_SEMAPHORE_CYCLE (R396). -/
def vmeSemaphoreCycle (k am : Nat) (write : Bool) (value : Nat) (s : State) : State :=
  if !dobPins s || cfgv s 0x6025 0 = 65535 || !(am = 0x29 || am = 0x2D) then s
  else if write then emit (semFreed s k value) (.vmeAnswer false [])
  else
    let q := semTaken s k (at_ 30 1 + 0x7FFF)
    emit q.1 (.vmeAnswer false [q.2 % 2 ^ 32])

def execVmeSemaphoreCycle (sem : Fin 16) (am : Nat) (write : Bool) (value : BitVec 32) (s : State) : Host.Outcome State Fault Refusal :=
  .next (vmeSemaphoreCycle sem am write value.toNat s)

/-- A D32 single cycle of the semaphore block. -/
def semaphoreOf (s : State) (c : VmeCycle) : Option Nat :=
  let b := cfgv s 0x6025 0
  if b ≠ 65535 && (c.am = 0x29 || c.am = 0x2D) && c.width = 4 && c.len = 4 && b ≤ c.addr && c.addr < b + 64 && c.addr % 4 = 0 then some ((c.addr - b) / 4) else none

/-- VME_INBOUND_CYCLE (R388, R389). -/
def vmeInboundCycle (c : VmeCycle) (s : State) : State :=
  if !dobPins s || s.dob.inbound.isSome || s.dob.cycle.isSome || s.dob.iack.isSome then s
  else
    match semaphoreOf s c with
    | some k => vmeSemaphoreCycle k c.am c.write ((c.beats.headD 0).toNat % 2 ^ 32) s
    | none =>
      match inWindow s c, amInfo c.am with
      | some n, some a =>
        let w := inWin s n
        let s := count s (ctrDob (16 + n)) 1
        let ms := (inBytes w c.addr (max 1 c.len)).map Prod.fst
        let lo := ms.foldl min ((ms.head?).getD 0)
        let hi := ms.foldl max 0
        let check := fun (k : Nat) => inboundCheck s n a.sup k lo (hi + 1 - lo)
        let verdict := if c.kind = .rmw then (match check 0 with
            | .deny x r sb => .deny x r sb
            | _ => check 1)
          else check (if c.write then 1 else 0)
        if c.kind = .rmw && !bit w 246 then inBerr s n 5 c.am c.addr
        else
          match verdict with
          | .deny x r sb => inBerr (denied s 129 48 (if c.write then 1 else 0) true x r sb) n 8 c.am c.addr
          | _ =>
            if bit w 254 && (connOf s (bits w 216 14)).st ≠ .active then inBerr s n 8 c.am c.addr
            else
              let x : DobIn := { cycle := c, win := n, since := s.now, left := 0, number := s.dob.inNumber }
              dobbySettled (inStart { s with dob := { s.dob with inbound := some x, inNumber := s.dob.inNumber + 1 } } x)
      | _, _ => { s with dob := { s.dob with stray := some (c.am, s.now) } }

def execVmeInboundCycle (c : VmeCycle) (s : State) : Host.Outcome State Fault Refusal := .next (vmeInboundCycle c s)

/-- A cycle has all the answers it waited for: its data goes to the master, and it goes on or ends. -/
def inAnswered (s : State) (x : DobIn) : State :=
  let c := x.cycle
  if x.bad then inBerr s x.win 8 c.am c.addr
  else
    let w := inWin s x.win
    let byte := fun (m : Nat) =>
      match List.find? (fun (r : Nat × (Nat × Nat)) => r.2.1 ≤ m && m < r.2.1 + r.2.2) x.asked with
      | some r => ((Tbl.get x.got r.1 [])[m - r.2.1]?).getD 0
      | none => 0
    let n := ((x.asked.map fun r => r.2.2)).sum
    let data := (List.range n).map fun i => byte (inModule w (c.addr + x.next - n + i))
    let s := if c.write && c.kind ≠ .rmw || x.writing then emit s (.vmeAnswer false []) else emit s (dtackData c (c.addr + x.next - n) data)
    if x.writing || (c.write && c.kind ≠ .rmw) then { s with dob := { s.dob with inbound := none } }
    else if x.next < c.len then inRead s x
    else if c.kind = .rmw then inWrite s { x with writing := true }
    else { s with dob := { s.dob with inbound := none } }

/-- A completion that no cycle awaits: event 0x0A05. -/
def lateCompletion (s : State) : State :=
  let s := count { s with dob := { s.dob with lateCount := s.dob.lateCount + 1 } } (ctrDob 79) 1
  event s 0x0A05 0 (at_ 16 (s.dob.lateCount % 65536))

/-- DOBBY_TAKE of a completion: into the inbound read buffer. -/
def takeCompletion129 (s : State) (i : LoomItem) (t : Tlp) : State :=
  let s := releaseItem (removeItem s 129 i.id) i
  let s := filterItem s 7 (tlpItem t none none)
  match s.dob.inbound with
  | none => lateCompletion s
  | some x =>
    let k := t.tag % 1024
    if t.tag / 1024 ≠ x.number % 16 || x.left = 0 then lateCompletion s
    else
      let bad := t.status ≠ 0 || t.ep || (k = 1023 && leNat t.data = 3)
      let want := match Tbl.find? x.asked k with
        | some r => r.2
        | none => 0
      let bs := if k = 1023 then [] else Tbl.get x.got k [] ++ t.data
      let whole := bad || k = 1023 || want ≤ bs.length
      let x := { x with got := if k = 1023 then x.got else Tbl.set x.got k bs, bad := x.bad || bad, left := x.left - b2n whole }
      let s := { s with dob := { s.dob with inbound := some x } }
      if x.left = 0 then inAnswered s x else s

/-- The item of D129 that may be taken next (R150, R397): a completion always, a request that R150 lets leave, a non-posted one while the
list has room. -/
def takeNext (s : State) : Option LoomItem :=
  let room := (s.dob.items.filter fun i => !i.posted).length < 64
  (queueOf s 129).find? fun i => i.place = .resident && (i.kind = 2 || (unblocked (queueOf s 129) i && (i.kind ≠ 1 || room)))

/-- DOBBY_TAKE (R397): the oldest item that may be taken; an over-age one is discarded (R174). -/
def dobbyTake (r : StoreRead) (s : State) : State :=
  if !coreRuns s then s
  else
    match takeNext s with
    | none => s
    | some i =>
      if overAge s i then ageOut s 129 i
      else
        let (s, got) := storeRead (removeItem s 129 i.id) i r
        match got with
        | none => s
        | some i =>
          match i.cargo with
          | .oper _ => releaseItem s i
          | .tlp t => if i.kind = 2 then takeCompletion129 s i t else takeRequest129 s i t

/-! ### Outbound cycles (R386, R394, R395, R398) -/

/-- Why the window forbids an access: no RMW (5), bytes that no cycle expresses (3), no window (4), or 0. An access past the end of its
window counts as 4, an atomic of a size that the window cannot carry as 5, and a misaligned atomic as 3 (DEDUCED, log entry 125). -/
def outRefusal (s : State) (t : Tlp) : Nat :=
  match outWindow s t.addr with
  | none => 4
  | some n =>
    let w := outWin s n
    let locks := isAtomic t || t.kind = .memReadLocked
    if bits w 0 32 + 2 ^ bits w 237 6 < t.addr + max t.len t.data.length && !isAtomic t then 4
    else if locks && !bit w 243 then 5
    else if isAtomic t then
      if !(atomicBytes t = 4 || atomicBytes t = 8) || bits w 248 2 < 2 then 5 else if t.addr % atomicBytes t ≠ 0 then 3 else 0
    else if !expressible (sortBy (· ≤ ·) ((enabledBytes t).map (outVme w))) then 3
    else 0

/-- The transactions of an access. -/
def outSteps (w : Nat) (t : Tlp) : List DobStep :=
  (runsOf (sortBy (· ≤ ·) ((enabledBytes t).map (outVme w)))).flatMap fun r => runSteps w r.1 r.2

/-- The lowest VME address of an atomic. -/
def atomicBase (w : Nat) (t : Tlp) : Nat := outVme w t.addr / atomicBytes t * atomicBytes t

/-- The cycle of an atomic's phase (R394). For 8 bytes: read the dword at the higher address, read-modify-write the lower one, write
the higher one. -/
def atomicStep (w : Nat) (it : DobItem) : DobStep :=
  let a := atomicBase w it.tlp
  let high := atomicBytes it.tlp = 8 && (it.phase = 0 || it.phase = 3)
  { addr := if high then a + 4 else a, am := outAm w 0, mode := if high then .single else .rmw, width := 4, count := 4, off := 0 }

/-- The value an atomic leaves: operands and result are little-endian on the module side. -/
def atomicNew (w : Nat) (it : DobItem) : Nat :=
  let n := atomicBytes it.tlp
  let old := leNat (readBack w it n)
  let a := leAt it.tlp.data 0 n
  match it.tlp.kind with
  | .fetchAdd => (old + a) % 2 ^ (8 * n)
  | .swap => a
  | _ => if old = a then leAt it.tlp.data n n else old

/-- The bytes that a write cycle puts on the bus. -/
def stepData (w : Nat) (it : DobItem) (st : DobStep) (n : Nat) : List Byte :=
  let src := if isAtomic it.tlp then leBytes (atomicBytes it.tlp) (atomicNew w it) else it.tlp.data
  (List.range n).map fun k => (src[outByte w (st.addr + k) - it.tlp.addr]?).getD 0

/-- The present cycle of an atomic writes. -/
def atomicWrites (it : DobItem) : Bool := if atomicBytes it.tlp = 4 then it.phase = 1 else 2 ≤ it.phase

/-- Put a beat on the bus. -/
def beat (s : State) (it : DobItem) (st : DobStep) (write : Bool) : State :=
  let n := min st.width st.count
  let w := outWin s it.win
  let s := { s with dob := { s.dob with cycle := some { step := st, write := write, since := s.now }, holdsBus := true } }
  emit s (.vme st.addr st.am write n (if write then onLanes (st.mode = .mblt) st.width st.addr st.addr (stepData w it st n) else 0))

/-- The item whose turn it is: the oldest, or under a lock the oldest of the locking partition (R395, R397). -/
def dobNext (s : State) : Option DobItem :=
  match s.dob.lock with
  | none => s.dob.items.head?
  | some v => s.dob.items.find? fun i => i.started || (!i.origin.outside && i.origin.vs = v)

/-- VME_CYCLE_START (R385 to R387, R394). -/
def vmeCycleStart (s : State) : State :=
  if !dobPins s || s.dob.cycle.isSome || s.dob.iack.isSome || s.dob.inbound.isSome then s
  else
    let s := busYield s
    match dobNext s with
    | none => s
    | some it =>
      let t := it.tlp
      if !it.split && (enabledBytes t).isEmpty && !isAtomic t then itemDone s it (if it.posted then [] else leBytes 4 0)
      else
        let r := if it.split then 0 else outRefusal s t
        if r ≠ 0 then itemFails s it r 0 (match outWindow s t.addr with
          | some n => outVme (outWin s n) t.addr
          | none => t.addr)
        else
          let w := outWin s it.win
          let it := if it.split then it else { it with split := true, started := true, steps := if isAtomic t then [] else outSteps w t }
          let s := count (setItem s it) (ctrDob it.win) 1
          if isAtomic t then beat s it (atomicStep w it) (atomicWrites it)
          else
            match it.steps with
            | st :: _ => beat s it st (tlpKind t = 0 || t.kind = .deferrableWrite)
            | [] => itemDone s it []

def execVmeCycleStart (s : State) : Host.Outcome State Fault Refusal := .next (vmeCycleStart s)

/-- DTACK in a phase of an atomic. -/
def atomicBeat (s : State) (it : DobItem) (c : DobCycle) (data : List Byte) : State :=
  let w := outWin s it.win
  let n := atomicBytes it.tlp
  let it := if c.write then it else { it with got := Tbl.set it.got c.step.addr (fitBytes 4 data) }
  let same := atomicNew w it = leNat (readBack w it n)
  let finish := fun (s : State) => itemDone s it (readBack w it n)
  let go := fun (s : State) (p : Nat) => setItem { s with dob := { s.dob with cycle := none } } { it with phase := p }
  if n = 4 then
    if it.phase = 0 then let it := { it with phase := 1 }; beat (setItem s it) it (atomicStep w it) true else finish s
  else
    match it.phase with
    | 0 => go s 1
    | 1 => let it := { it with phase := 2 }; beat (setItem s it) it (atomicStep w it) true
    | 2 => if same then finish s else go s 3
    | _ => finish s

/-- VME_CYCLE_END (R383, R386): DTACK, with the lines that a read latches. -/
def vmeCycleEnd (lines : Nat) (s : State) : State :=
  match s.dob.cycle, onBus s with
  | some c, some it =>
    let data := offLanes (c.step.mode = .mblt) c.step.width c.step.addr c.step.addr (min c.step.width c.step.count) lines
    if isAtomic it.tlp then atomicBeat s it c data
    else
      let n := min c.step.width c.step.count
      let it := if c.write then it else { it with got := Tbl.set it.got c.step.addr (fitBytes n data) }
      let rest : DobStep := { c.step with addr := c.step.addr + n, count := c.step.count - n }
      if rest.count = 0 then
        let it := { it with steps := it.steps.drop 1 }
        let s := setItem { s with dob := { s.dob with cycle := none } } it
        if it.steps.isEmpty then itemDone s it (if c.write then [] else readBack (outWin s it.win) it it.tlp.len) else busYield s
      else
        let it := { it with steps := rest :: it.steps.drop 1 }
        let s := setItem { s with dob := { s.dob with cycle := none } } it
        if s.dob.busWanted.isSome && s.dob.lock.isNone then busYield s else beat s it rest c.write
  | _, _ => s

def execVmeCycleEnd (lines : BitVec 64) (s : State) : Host.Outcome State Fault Refusal := .next (vmeCycleEnd lines.toNat s)

/-- An IACK cycle fails (R404): the level stays disarmed. -/
def iackFails (s : State) (l reason : Nat) : State :=
  event { s with dob := { s.dob with iack := none, armed := putBit s.dob.armed l false } } 0x0A12 0 (l + at_ 4 reason)

/-- VME_BERR (R400, R404). -/
def vmeBerr (s : State) : State :=
  match s.dob.iack with
  | some (l, _) => iackFails s l 1
  | none =>
    match s.dob.cycle, onBus s with
    | some c, some it => itemFails s it 1 c.step.am c.step.addr
    | _, _ => s

def execVmeBerr (s : State) : Host.Outcome State Fault Refusal := .next (vmeBerr s)

/-- DOB_BUS_TIMER in ns. -/
def busTimer (s : State) : Nat := 8000 * 2 ^ cfgv s 0x6003 0

/-- As system controller, the end of a cycle by the bus timer is reported (R408). -/
def sysconExpiry (s : State) (am : Nat) : State :=
  if cfgOn s 0x6002 0 then rateEvent s 0x0A23 0 ms fun s n => event s 0x0A23 0 (at_ 12 am + at_ 16 (n % 65536)) else s

/-- DOB_BUS_TIMER_EXPIRY (R399, R408). -/
def dobBusTimerExpiry (s : State) : State :=
  let past := fun (t : Nat) => elapsed s t (busTimer s)
  let own := match s.dob.cycle, onBus s with
    | some c, some it =>
      if past c.since then some (itemFails (sysconExpiry (count s (ctrDob 78) 1) c.step.am) it 2 c.step.am c.step.addr) else none
    | _, _ => none
  match own with
  | some s => s
  | none =>
    match s.dob.iack, s.dob.inbound, s.dob.stray with
    | some (l, t), _, _ => if past t then iackFails (count s (ctrDob 78) 1) l 2 else s
    | none, some x, _ => if past x.since then inBerr (sysconExpiry (count s (ctrDob 78) 1) x.cycle.am) x.win 9 x.cycle.am x.cycle.addr else s
    | none, none, some (am, t) =>
      if past t && cfgOn s 0x6002 0 then
        emit (sysconExpiry (count { s with dob := { s.dob with stray := none } } (ctrDob 78) 1) am) (.vmeAnswer true [])
      else s
    | none, none, none =>
      match s.dob.items with
      | it :: _ => if !dobPins s && past it.since then itemFails (count s (ctrDob 78) 1) it 2 0 it.tlp.addr else s
      | [] => s

/-- LOCK_BACKOFF (R395): event 0x0A04. -/
def lockBackoff (s : State) : State :=
  match s.dob.lock, s.dob.busWanted with
  | some v, some t =>
    if elapsed s t (cfgv s 0x6007 0 * us) then
      let s := count { s with dob := { s.dob with lock := none, holdsBus := false, busWanted := none } } (ctrDob 80) 1
      eventIn s (some (v % 32)) 0x0A04 0 (at_ 16 (v % 32))
    else s
  | _, _ => s

def execLockBackoff (s : State) : Host.Outcome State Fault Refusal := .next (lockBackoff s)

/-- UNLOCK_MESSAGE (R395). -/
def unlockMessage (v : Nat) (s : State) : State :=
  if s.dob.lock = some v then busYield { s with dob := { s.dob with lock := none, holdsBus := s.dob.cycle.isSome } } else s

def execUnlockMessage (v : Vs) (s : State) : Host.Outcome State Fault Refusal := .next (unlockMessage v s)

/-- BUS_REQUEST_PENDING (R398): between transactions the bus is released at once, a burst ends after its current beat, and a
lock holds the bus. -/
def busRequestPending (s : State) : State :=
  if !s.dob.holdsBus then s
  else if s.dob.cycle.isNone && s.dob.lock.isNone && !inAtomic s then { s with dob := { s.dob with holdsBus := false } }
  else if s.dob.busWanted.isSome then s
  else { s with dob := { s.dob with busWanted := some s.now } }

def execBusRequestPending (s : State) : Host.Outcome State Fault Refusal := .next (busRequestPending s)

/-! ### Semaphores from a partition (R396) -/

/-- Where a completion to the host of a partition goes. -/
def hostRet (s : State) (v : Nat) : Ret :=
  match upPort s v with
  | some p => .port p
  | none => .tunnel v

/-- Answer a host's read of 4 bytes. -/
def answerHost (s : State) (v rid tag : Nat) (data : List Byte) : State :=
  let o : Origin := { cls := v, mid := ownMid s, vs := v, rid := rid, ret := hostRet s v }
  answer s 128 o { kind := .memRead, addr := 0, len := data.length, rid := rid, tag := tag } 0 0 false data

/-- The value a read of SEM[k] from partition `v` returns, and the claim it makes. -/
def semClaim (s : State) (v k : Nat) : State × Nat := semTaken s k ((ownMid s % 1024 * 32 + v) % 32768)

/-- SEM_READ (R396). -/
def semRead (v k rid tag : Nat) (s : State) : State :=
  if vsState s v = 2 && dobbyFunction s v then let q := semClaim s v k; answerHost q.1 v rid tag (leBytes 4 q.2) else s

def execSemRead (v : Vs) (sem : Fin 16) (rid tag : Nat) (s : State) : Host.Outcome State Fault Refusal := .next (semRead v sem rid tag s)

/-- SEM_WRITE (R396). -/
def semWrite (v k value : Nat) (s : State) : State := if vsState s v = 2 && dobbyFunction s v then semFreed s k value else s

def execSemWrite (v : Vs) (sem : Fin 16) (value : BitVec 32) (s : State) : Host.Outcome State Fault Refusal := .next (semWrite v sem value.toNat s)

/-- A partition reset frees the semaphores of the partition: event 0x0A08. -/
def freeSemaphores (s : State) (v : Nat) : State :=
  let own := (ownMid s % 1024 * 32 + v) % 32768
  let ks := (List.range 16).filter fun k => let x := vget s.dob.sem k 0; bit x 31 && !bit x 30 && bits x 0 15 = own
  if ks.isEmpty then s
  else
    let s := { s with dob := { s.dob with sem := ks.foldl (fun t k => vset t k 0) s.dob.sem } }
    event s 0x0A08 0 ((ks.map fun k => at_ k 1).sum + at_ 16 v)

/-! ### Interrupts (R404 to R407) -/

/-- VME_IRQ_ASSERT (R404). -/
def vmeIrqAssert (l : Nat) (s : State) : State :=
  if dobPins s && bit (cfgv s 0x6021 0) l && bit s.dob.armed l && s.dob.iack.isNone && s.dob.cycle.isNone && s.dob.inbound.isNone then
    emit (count { s with dob := { s.dob with iack := some (l, s.now) } } (ctrDob (63 + l)) 1) (.iack l)
  else s

def execVmeIrqAssert (lvl : IrqLevel) (s : State) : Host.Outcome State Fault Refusal := .next (vmeIrqAssert (lvl.val + 1) s)

/-- Entry `e` of the routing table (R405). -/
def irqRoute (s : State) (e : Nat) : Nat :=
  cfgv s (match e / 128 with | 0 => 0x6020 | 1 => 0x6027 | 2 => 0x6028 | _ => 0x6029) (e % 128 + 1)

/-- The entry that an interrupt matches (R406). -/
def irqMatch (s : State) (l ident : Nat) : Option Nat :=
  (List.range 512).find? fun e =>
    let r := irqRoute s e
    bit r 63 && (bits r 60 3 = 0 || bits r 60 3 = l) && (bits r 0 8 ^^^ ident % 256) &&& bits r 8 8 = 0

/-- IACK_DONE (R404, R406). -/
def iackDone (statusId : Nat) (s : State) : State :=
  match s.dob.iack with
  | none => s
  | some (l, _) =>
    let ident := match cfgv s 0x6023 0 with
      | 0 => statusId % 256
      | 1 => statusId % 65536
      | _ => statusId % 2 ^ 32
    let s := { s with dob := { s.dob with iack := none, armed := if bit (cfgv s 0x6022 0) l then s.dob.armed else putBit s.dob.armed l false } }
    let lost := fun (s : State) => event s 0x0A11 0 (l + at_ 32 ident)
    match irqMatch s l ident with
    | none => lost s
    | some e =>
      let r := irqRoute s e
      let v := bits r 44 5
      if vsState s v ≠ 2 then lost s
      else
        let only := bit r 59
        let s := { s with dob := { s.dob with receiver := Tbl.set s.dob.receiver l v } }
        let s := eventIn s (some v) 0x0A10 0 (l + at_ 8 (b2n only) + at_ 16 e + at_ 32 ident)
        if only then s else msi s v 0 (bits r 38 6)

def execIackDone (statusId : BitVec 32) (s : State) : Host.Outcome State Fault Refusal := .next (iackDone statusId.toNat s)

/-- Re-arm the levels of a mask (R404). -/
def rearm (s : State) (mask : Nat) : State := { s with dob := { s.dob with armed := s.dob.armed ||| (mask % 256 &&& 254) } }

/-- DOB_IH_REARM by the installer. -/
def actIhRearm (mask : Nat) (s : State) : State := rearm s mask

/-- IH_REARM (R404): by a partition that received the level's last interrupt. -/
def ihRearm (v mask : Nat) (s : State) : State :=
  rearm s ((List.range 8).map fun l => if bit mask l && Tbl.find? s.dob.receiver l = some v then at_ l 1 else 0).sum

def execIhRearm (v : Vs) (mask : Nat) (s : State) : Host.Outcome State Fault Refusal := .next (ihRearm v mask s)

/-- IRQ_RAISE (R380, R407): the result of the write is IRQ_RESULT. -/
def irqRaise (v value : Nat) (s : State) : State :=
  let l := bits value 8 3
  let result := if !dobOn s then 3 else if l = 0 || !bit (cfgv s 0x6024 1) l then 2
    else if s.dob.raises.any fun r => r.1 = l && r.2.1 = v then 1 else 0
  if !(vsState s v = 2 && dobbyFunction s v) then s
  else
    let s := { s with dob := { s.dob with irqResult := Tbl.set s.dob.irqResult v result } }
    if result = 0 then count (dobRaise s l v (bits value 0 8)) (ctrDob (70 + l)) 1
    else eventIn s (some v) 0x0A13 0 (l + at_ 4 result)

def execIrqRaise (v : Vs) (value : Nat) (s : State) : Host.Outcome State Fault Refusal := .next (irqRaise v value s)

/-- IRQ_WITHDRAW (R380). -/
def irqWithdraw (v mask : Nat) (s : State) : State :=
  { s with dob := { s.dob with raises := s.dob.raises.filter fun r => !(r.2.1 = v && bit mask r.1) } }

def execIrqWithdraw (v : Vs) (mask : Nat) (s : State) : Host.Outcome State Fault Refusal := .next (irqWithdraw v mask s)

/-- IACKIN_RECEIVE (R407): the oldest pending raise of the level, or IACKOUT. -/
def iackinReceive (l : Nat) (s : State) : State :=
  if !dobPins s then s
  else
    match s.dob.raises.find? fun r => r.1 = l with
    | none => emit s (.iackOut l)
    | some r =>
      let s := emit { s with dob := { s.dob with raises := s.dob.raises.erase r } } (.statusId l r.2.2)
      eventIn s (if r.2.1 < 32 then some r.2.1 else none) 0x0A14 0 (l + at_ 8 r.2.2)

/-- The width of the IACK decides only how many zero bits stand above the 8 of the status/ID. -/
def execIackinReceive (lvl : IrqLevel) (_width : Nat) (s : State) : Host.Outcome State Fault Refusal := .next (iackinReceive (lvl.val + 1) s)

/-- DOB_BERR_CLEAR, BERR_CLEAR: the log of a partition. -/
def actBerrClear (v : Nat) (s : State) : State := { s with dob := { s.dob with berr := Tbl.erase s.dob.berr v } }

/-- DOB_IN_BERR_CLEAR: the dobby's own raise ends with the log (R402). -/
def actInBerrClear (s : State) : State :=
  { s with dob := { s.dob with inBerr := none, raises := s.dob.raises.filter fun r => r.2.1 ≠ 32 } }

/-! ### Connections of the dobby (R393) -/

/-- A command of DOB_CONN_CMD is refused while another waits, or when its context is not one the command can act on. -/
def dobConnCheck (s : State) (value : Nat) : Nat :=
  let c := bits value 0 14
  let x := connOf s c
  let mine := x.st ≠ .idle && x.ownerKind = 1
  if s.dob.connWait.isSome then 5
  else
    match bits value 30 2 with
    | 1 => if s.vault.entropyOk && x.st = .idle && 0 < c && c < (if candidateOf s (ownMid s) ≠ 0 then 15360 else 16384) && !(cfgOn s 0x5201 0 && c = cfgv s 0x5205 0) && !(List.range 32).any (fun v => tunnelCid s v = some c) then 0 else 5
    | 2 => if mine && (x.st = .active || x.st = .stalled || x.st = .failed) then 0 else 5
    | 3 => if s.vault.entropyOk && mine && (x.st = .active || x.st = .stalled) && x.exch.isNone then 0 else 5
    | _ => 4

def dobConnWait (s : State) (value : Nat) : State :=
  { s with dob := { s.dob with connWait := some (bits value 0 14), connResult := bits value 0 14 } }

/-- Open, close or reset a connection of the dobby. -/
def actDobConn (value : Nat) (s : State) : State :=
  let c := bits value 0 14
  let s := dobConnWait s value
  match bits value 30 2 with
  | 1 => openConn s c (bits value 20 10) (cfgv s 0x6030 2) false true (cfgv s 0x4201 0) 1 0
  | 2 => ownerClose s c
  | _ => startRequest s c 3 false

/-- The common course of the three commands: a write of DOB_CONN_CMD whose command field is `op`. -/
def dobConnCmd (op sess value : Nat) (s : State) : State :=
  if bits value 30 2 = op then actWrite s sess 0x6030 1 value (dobConnCheck s value) id (actDobConn value) else s

/-- DOB_CONN_OPEN (R393). -/
def execDobConnOpen (sess value : Nat) (s : State) : Host.Outcome State Fault Refusal := .next (dobConnCmd 1 sess value s)

/-- DOB_CONN_CLOSE (R393). -/
def execDobConnClose (sess value : Nat) (s : State) : Host.Outcome State Fault Refusal := .next (dobConnCmd 2 sess value s)

/-- DOB_CONN_RESET (R393). -/
def execDobConnReset (sess value : Nat) (s : State) : Host.Outcome State Fault Refusal := .next (dobConnCmd 3 sess value s)

/-! ### The backplane's utility lines (R403, R408) -/

/-- SYSRESET_INPUT (R403). -/
def sysresetInput (s : State) : State :=
  if !dobPins s then s
  else
    let started := s.dob.items.filter fun i => i.started
    let am := match s.dob.cycle with
      | some c => (c.step.am, c.step.addr)
      | none => (0, 0)
    let s := started.foldl (fun s it => itemFails s it 7 am.1 am.2) s
    let s := { s with dob := { s.dob with raises := [], armed := 0, cycle := none, iack := none, inbound := none, lock := none, holdsBus := false
                                          busWanted := none, stray := none } }
    event s 0x0A20 0 (at_ 16 (started.length % 65536))

def execSysresetInput (s : State) : Host.Outcome State Fault Refusal := .next (sysresetInput s)

/-- SYSFAIL_CHANGE (R403). -/
def sysfailChange (a : Bool) (s : State) : State :=
  if !dobPins s || s.dob.sysfail = a then s else event { s with dob := { s.dob with sysfail := a } } 0x0A21 0 (b2n a)

def execSysfailChange (asserted : Bool) (s : State) : Host.Outcome State Fault Refusal := .next (sysfailChange asserted s)

/-- ACFAIL_CHANGE (R403). -/
def acfailChange (a : Bool) (s : State) : State :=
  if !dobPins s || s.dob.acfail = a then s else event { s with dob := { s.dob with acfail := a } } 0x0A22 0 (b2n a)

def execAcfailChange (asserted : Bool) (s : State) : Host.Outcome State Fault Refusal := .next (acfailChange asserted s)

/-- SYSRESET_OUT_END (R408): 200 ms after the reset. -/
def sysresetOutEnd (s : State) : State :=
  if elapsedOpt s s.dob.sysreset (200 * ms) then emit { s with dob := { s.dob with sysreset := none } } (.pin 2 0 false) else s

def execSysresetOutEnd (s : State) : Host.Outcome State Fault Refusal := .next (sysresetOutEnd s)

/-- A module reset or a warm reset: the system controller asserts SYSRESET (R408). -/
def driveSysreset (s : State) : State :=
  if cfgOn s 0x6001 0 && cfgOn s 0x6002 0 && cfgOn s 0x6024 2 then emit { s with dob := { s.dob with sysreset := some s.now } } (.pin 2 0 true) else s

end Sys2Proof.Machine
end

