-- ==== Sys2Proof/Machine/Registers.lean ====
section
/-!
DEFINITION. Configuration registers as a host reads and writes them (R112, R116, R119, R134, R137, R140, R298, R379): what the
module's own state shows through them, and what a write does to it. The places are PRESUMED (log entry 8).
-/

namespace Sys2Proof.Machine

/-! ### Reads -/

/-- The port of a downstream bridge. -/
def portOfBridge (s : State) (v fn : Nat) : Option Nat := if fn < 128 then (downPorts s v)[fn]? else none

/-- The port whose link a function presents: of a bridge its own, of the upstream function the local upstream port. -/
def linkPort (s : State) (v fn : Nat) : Option Nat := if fn = 240 then upPort s v else portOfBridge s v fn

/-- Slot Capabilities of a slot: button, controller, latch, indicators, surprise, hot-plug, and its number. -/
def slotCaps (k : Nat) : Nat := 0x7F + at_ 19 (k + 1)

/-- A card is present: by the slot's input, or in band by the link, unless bit 13 of Slot Control turns that off (R112; DESIGN CHOICE, log
entry 120: the spec names no object with which the installer may disable it). -/
def presenceState (s : State) (p ctl k : Nat) : Bool := !bit (slotState s k).inputs 0 || (!bit ctl 13 && (warpPort s p).st = .active)

/-- Slot Status, in the upper half of the dword whose lower half is Slot Control. -/
def slotStatus (s : State) (p ctl k : Nat) : Nat :=
  let x := slotState s k
  at_ 16 (b2n x.buttonPressed) + at_ 17 (b2n x.powerFault) + at_ 19 (b2n x.presenceChanged) + at_ 20 (b2n x.commandCompleted) +
    at_ 21 (b2n (bit x.inputs 2)) + at_ 22 (b2n (presenceState s p ctl k))

/-- Link Status in the upper half: rate, width, training, link active. -/
def linkStatus (s : State) (fn p : Nat) : Nat :=
  let x := warpPort s p
  at_ 16 (x.rate % 16) + at_ 20 (x.width % 64) + at_ 27 (b2n (x.st = .training && fn < 128)) + at_ 29 (b2n (x.st = .active && fn < 128))

/-- Link Status 2 in the upper half: equalisation complete with its three phases, and flit mode. -/
def linkStatus2 (s : State) (p : Nat) : Nat :=
  let x := warpPort s p
  (if x.equalised = 0 then 0 else 0x1E0000) + at_ 26 (b2n x.flit)

/-- What the state of a port shows in a register of the function that presents it. -/
def linkRead (s : State) (v fn p dw w : Nat) : Nat :=
  let slot := if fn < 128 then slotOf s p else none
  match dw, slot with
  | 0x10, some _ => putBit w 24 true
  | 0x13, _ => putBits (putBits w 4 6 (portWidth s p)) 24 8 p
  | 0x14, _ => bits w 0 16 + linkStatus s fn p
  | 0x15, some k => slotCaps k
  | 0x16, some k => bits w 0 16 + slotStatus s p w k
  | 0x1C, _ => bits w 0 16 + linkStatus2 s p
  | 0x82, _ => if fn < 128 then putBits w 0 3 (b2n ((warpPort s p).st = .dpc) + at_ 1 ((warpPort s p).dpcReason % 4)) else w
  | 0xA1, _ => cfgv s 0x3107 (p + 1) - 1
  | 0xA7, _ | 0xA8, _ | 0xA9, _ => if cfgv s 0x3107 (p + 1) = 2 then w else 0
  | 0x94, _ => w &&& bits (partOf s v).groups 0 32
  | 0x95, _ => w &&& bits (partOf s v).groups 32 32
  | _, _ => w

/-- The base address of a BAR reads aligned to its size, with the BAR's type bits. -/
def barRead (w size kind : Nat) : Nat := w / size * size % 2 ^ 32 + kind

/-- Function 0 of a device of the internal bus has others beside it. -/
def multiFunction (s : State) (v fn : Nat) : Bool :=
  (fn < 128 && fn % 8 = 0 && fn + 1 < (downPorts s v).length) || (fn = 242 && dobbyFunction s v)

/-- A configuration doubleword. -/
def configRead (s : State) (v fn dw : Nat) : Nat :=
  let w := cfgReg s v fn dw
  if dw = 3 && multiFunction s v fn then putBit w 23 true
  else if fn = 242 then
    match dw with
    | 0x62 => putBit w 0 ((admOf s v).vfs ≠ 0)
    | 0x63 => cfgv s 0x4401 (v + 1) % 65536 * 65537
    | 0x65 => 8 + at_ 16 1
    | 0x6B => barRead w (2 ^ cfgv s 0x4407 (v + 1)) 12
    | 0x6C => bits (w * 2 ^ 32 / 2 ^ cfgv s 0x4407 (v + 1) * 2 ^ cfgv s 0x4407 (v + 1)) 32 32
    | _ => w
  else if fn = 243 && dw = 6 then barRead w (2 ^ cfgv s 0x6013 (v + 1)) 4
  else
    match linkPort s v fn with
    | some p => linkRead s v fn p dw w
    | none => w

/-! ### Writes -/

/-- Multicast groups that a write of MC_Receive newly sets are enabled, one after another, and a bit that is refused stays 0 (R140); a
group that no function of the partition receives any more is given back. -/
def receiveWrite (s : State) (v fn dw old : Nat) : State :=
  let new := cfgReg s v fn dw
  let base := if dw = 0x94 then 0 else 32
  let rises := (setBits 32 new).filter fun b => !bit old b
  let falls := (setBits 32 old).filter fun b => !bit new b
  let s := rises.foldl (fun s b =>
    let s := mcastGroupEnable v (base + b) s
    if bit (partOf s v).groups (base + b) then s else setCfgReg s v fn dw (putBit (cfgReg s v fn dw) b false)) s
  falls.foldl (fun s b =>
    if ((240 : Nat) :: List.range (downPorts s v).length).any fun f => bit (cfgReg s v f dw) b then s
    else setPart s v { partOf s v with groups := putBit (partOf s v).groups (base + b) false }) s

/-- Software lets a link train that it had taken down (R128). -/
def softwareUp (s : State) (p : Nat) : State :=
  let x := warpPort s p
  if x.st = .down && x.softDown && linkLet s p then setWarp s p { x with st := .training, softDown := false } else s

/-- An indicator control field of Slot Control; 0 leaves the indicator as it is. -/
def indicatorOf (x : Nat) (was : Indicator) : Indicator :=
  match x with
  | 1 => .on
  | 2 => .blink
  | 3 => .off
  | _ => was

/-- A write of Slot Control and Slot Status (R137): status bits written 1 clear, the indicators follow, and the power controller when its
bit changes. -/
def slotWrite (s : State) (k old w gone : Nat) : State :=
  let x := slotState s k
  let s := setSlot s k { x with buttonPressed := x.buttonPressed && !bit gone 16, presenceChanged := x.presenceChanged && !bit gone 19
                                commandCompleted := x.commandCompleted && !bit gone 20 }
  if bits w 0 16 = bits old 0 16 then s
  else
    let s := indicatorSet k (indicatorOf (bits w 6 2) x.attention) (indicatorOf (bits w 8 2) x.power) s
    if bit w 10 = bit old 10 then s else if bit w 10 then slotPowerOff k s else slotPowerOn k s

/-- What a write does to the port of a downstream bridge: Secondary Bus Reset, Link Disable, the slot, DPC. -/
def bridgeWrite (s : State) (v fn p dw old new be : Nat) : State :=
  let w := cfgReg s v fn dw
  let en := ((List.range 4).map fun k => if bit be k then at_ (8 * k) 255 else 0).sum
  let one := new &&& en
  match dw with
  | 0x0F => if bit w 22 && !bit old 22 then secondaryBusReset p s else if bit old 22 && !bit w 22 then softwareUp s p else s
  | 0x14 => if bit w 4 && !bit old 4 then linkDisable p s else if bit old 4 && !bit w 4 then softwareUp s p else s
  | 0x16 =>
    match slotOf s p with
    | some k => slotWrite s k old w one
    | none => s
  | 0x81 => if bit one 22 then dpcTrigger p 3 s else s
  | 0x82 => if bit one 0 then dpcRelease p s else s
  | _ => s

/-- A write of the management function's own: bus mastering, as the engine and the rings ask for it; VF Enable (R299); function-level
reset (R319). -/
def mgmtConfigWrite (s : State) (v dw old new be : Nat) : State :=
  let w := cfgReg s v 242 dw
  match dw with
  | 0x01 | 0x21 => { s with eng := { s.eng with fnBme := putBit s.eng.fnBme v (cmdBit s v 242 2) } }
  | 0x12 => if bit new 15 && bit be 1 then pfFlr v s else s
  | 0x62 => if bit w 0 && !bit old 0 then vfEnable v (bits (cfgReg s v 242 0x64) 0 16) s else if bit old 0 && !bit w 0 then vfDisable v s else s
  | _ => s

/-- Lane Margining at the Receiver (R63): a lane's status answers its command; what a receiver reports is a free value. -/
def marginWrite (s : State) (v fn dw : Nat) : State :=
  let c := bits (cfgReg s v fn dw) 0 16
  let typ := bits c 3 3
  if typ = 1 || typ = 3 || typ = 4 then
    setCfgReg (afterFree s) v fn dw (c + at_ 16 (c % 256 + at_ 8 (freeValue s % 256)))
  else setCfgReg s v fn dw (c + at_ 16 c)

/-- A configuration write under byte enables. -/
def configWrite (s : State) (v fn dw new be : Nat) : State :=
  let old := cfgReg s v fn dw
  let s := setCfgReg s v fn dw (cfgMerge fn dw old new be)
  if (fnKind fn).hasLink && (dw = 0x94 || dw = 0x95) then receiveWrite s v fn dw old
  else if (fnKind fn).hasLink && 0xD2 ≤ dw && dw ≤ 0xE1 then marginWrite s v fn dw
  else if fn = 242 then mgmtConfigWrite s v dw old new be
  else if 256 ≤ fn then
    (if dw = 0x12 && bit new 15 && bit be 1 then
      match instOfVf s v (fn - 256) with
      | some i => vfFlr i s
      | none => s
    else s)
  else
    match portOfBridge s v fn with
    | some p => bridgeWrite s v fn p dw old new be
    | none => s

end Sys2Proof.Machine
end

