-- ==== Sys2Proof/Machine/Partitions.lean ====
section
/-!
DEFINITION. Partition resets (R125 to R128): the causes that start or extend one, what it does to the partition's functions,
links, traffic and ring, and its end.
-/

namespace Sys2Proof.Machine

/-! ### What a partition leaves behind -/

/-- The partition that asked has been reset: the completion of its request will be discarded (R126). -/
def orphaned (s : State) (v : Nat) (o : Origin) : Origin :=
  match o.ret with
  | .port p => if portPart s p = some v then { o with ret := .gone v } else o
  | .tunnel u => if u = v then { o with ret := .gone v } else o
  | _ => o

/-- Every request under way of the partition, wherever it stands. -/
def orphanAll (s : State) (v : Nat) : State :=
  let f := orphaned s v
  let op := fun (x : NewOp) => { x with origin := f x.origin }
  { s with
    warp := { s.warp with port := s.warp.port.map fun x => { x with reqs := x.reqs.map fun r => { r with origin := f r.origin } } }
    loom := { s.loom with queue := s.loom.queue.map fun q => q.map fun i => { i with origin := f i.origin } }
    shu := { s.shu with
      waiting := s.shu.waiting.map op
      ledger := s.shu.ledger.map fun r => (r.1, { r.2 with op := op r.2.op })
      conns := s.shu.conns.map fun r => (r.1, { r.2 with asked := r.2.asked.map fun a => { a with origin := f a.origin } }) }
    win := { s.win with heldLoads := s.win.heldLoads.map fun h => { h with origin := f h.origin } }
    dob := { s.dob with items := s.dob.items.map fun i => { i with origin := f i.origin } } }

/-- SPOOL_DISARM (R525): what the ring of a partition holds is written at once, and the ring is disarmed. -/
def spoolDisarm (s : State) (v : Nat) : State :=
  let x := ringGet s v
  if x.armed && ringEnabled s v then
    let s := writeLine s v false
    event (ringSet s v { ringGet s v with armed := false }) 0x0B43 0 (v + 1)
  else s

/-- Proxy entries of the partition's ports, and those whose source the partition is (R123). -/
def dropProxies (s : State) (v : Nat) : State :=
  let own := ownMid s
  let mine := fun (p : Nat) => portPart s p = some v
  { s with warp := { s.warp with port := Vector.ofFn fun (p : Fin 128) =>
    let x := s.warp.port[p]
    { x with proxies := if mine p.val then [] else x.proxies.filter fun r => !(r.2.mid = own && r.2.vs = v && r.2.kind ≠ 1) } } }

/-- Posted writes that the partition sent before its reset, and that still wait at its own ports, are delivered (R126). -/
def deliverPosted (s : State) (v p : Nat) : State :=
  if (warpPort s p).st ≠ .active then s
  else
    ((queueOf s p).filter fun i => i.kind = 0 && !i.origin.outside && i.origin.cls = v).foldl (fun s i =>
      match i.cargo with
      | .tlp t => leaveWarp (removeItem s p i.id) p i t
      | .oper _ => s) s

/-- A slot as its bridge's registers present it after a reset: nothing pending, the indicators off. -/
def resetSlot (s : State) (p : Nat) : State :=
  match slotOf s p with
  | some k => setSlot s k { slotState s k with presenceChanged := false, buttonPressed := false, commandCompleted := false
                                               attention := .off, power := .off }
  | none => s

/-- The link of a port of the partition goes down by the reset, a downstream one with a hot reset; what stands at the port is refused or
dropped. `cause` is that of event 0x0301. -/
def resetLink (cause : Nat) (s : State) (p : Nat) : State :=
  let s := surpriseEnd s p .down
  let up := (warpPort s p).st = .active
  let s := if isDown s p && up then emit s (.hotReset p) else s
  let s := if up then warpLinkGone s p cause else s
  let s := setWarp s p { warpPort s p with st := .down, softDown := false, surpriseUnder := false }
  refuseQueue (failSent (if isDown s p then assertSlotPerst (resetSlot s p) p else s) p) p

/-- The functions of the partition return to their reset values: configuration registers, multicast groups, virtual
functions, the admin queue, the mailbox and its session, and every vector. Imports and connections stay. -/
def resetFunctions (s : State) (v : Nat) : State :=
  let s := vfDisable v s
  let s := setAdm s v {}
  let s := { s with
    eng := { s.eng with
      cmds := s.eng.cmds.filter (fun c => c.vs ≠ v), waits := s.eng.waits.filter (fun w => w.cmd.vs ≠ v)
      fnBme := putBit s.eng.fnBme v false
      msix := s.eng.msix.filter (fun r => r.1 / 4096 / 8192 ≠ v), msixPending := s.eng.msixPending.filter (fun k => k / 4096 / 8192 ≠ v)
      mirror := s.eng.mirror.filter (fun r => r.1 / 256 ≠ v), replies := s.eng.replies.filter (fun r => r.1 / 256 ≠ v)
      ringing := s.eng.ringing.filter fun k => k / 256 ≠ v }
    dob := { s.dob with irqResult := Tbl.erase s.dob.irqResult v }
    mgmt := { s.mgmt with mailboxes := vset s.mgmt.mailboxes v {}, inbox := s.mgmt.inbox.filter fun m => m.source ≠ 128 + v } }
  let s := setPart s v { partOf s v with config := [], groups := 0, ptm := none, ptmAsked := false, held := [] }
  let s := { s with warp := { s.warp with errMsgs := s.warp.errMsgs.filter fun e => e.1 ≠ v } }
  endMailbox s v 3

/-- What the partition had written to its own functions has been delivered to them as they are reset (R126). -/
def dropTargets (s : State) (v : Nat) : State :=
  ((queueOf s 128).filter fun i => i.kind = 0 && !i.origin.outside && i.origin.cls = v).foldl (fun s i => releaseItem (removeItem s 128 i.id) i) s

/-- Every open window of the partition goes to REVOKING: event 0x070B once (R269). -/
def resetWindows (s : State) (v : Nat) : State :=
  let r := revokeWindows s v
  if r.2 = 0 then r.1 else eventIn r.1 (some v) 0x070B 0 (v + at_ 16 r.2)

/-- The ports of a partition. -/
def partPorts (s : State) (v : Nat) : List Nat := (List.range 128).filter fun p => isWarp s p && portPart s p = some v

/-- The other end of the tunnel of an imported partition is told (R117): 2 the partition is ready, 3 it is in reset. -/
def tellExporter (s : State) (v what : Nat) : State :=
  match upPort s v, tunnelCid s v with
  | none, some c => tunnelNotice s c what 0 0 []
  | _, _ => s

/-- A cause of R125: it starts a partition reset, or extends the one under way. Sources: 0 PERST, 1 hot reset, 2 DL_Down, 3 loss
of the imported upstream port, 4 command, 5 module warm reset. -/
def resetPartition (s : State) (v source : Nat) : State :=
  let x := partOf s v
  if !partEnabled s v then s
  else if x.resetSince.isSome then setPart s v { x with resetSince := some s.now }
  else
    let s := spoolDisarm (resetWindows s v) v
    let s := setPart s v { partOf s v with wasIsolated := x.st = 3 || x.wasIsolated, st := 1, resetSince := some s.now, endedAt := none, reloading := none
                                           discarded := 0 }
    let s := orphanAll s v
    let s := discardPartIde s v
    let s := dropTargets ((partPorts s v).foldl (fun s p => deliverPosted s v p) s) v
    let s := (partPorts s v).foldl (resetLink (if source = 5 then 5 else 4)) s
    let s := freeSemaphores (dropProxies (resetFunctions s v) v) v
    event (tellExporter s v 3) 0x0305 0 (v + at_ 16 source)

/-! ### The causes -/

/-- PERST_ASSERT (R125): `PERST_N[n]` has been held for `ns`; honoured from LINKS on (R431). -/
def perstAssert (v ns : Nat) (s : State) : State :=
  if ns < us then s
  else
    let s := setPart s v { partOf s v with perst := true }
    if inService s then resetPartition s v 0 else s

def execPerstAssert (v : Vs) (ns : Nat) (s : State) : Host.Outcome State Fault Refusal := .next (perstAssert v ns s)

/-- PERST_DEASSERT (R125). -/
def perstDeassert (v : Nat) (s : State) : State := setPart s v { partOf s v with perst := false }

def execPerstDeassert (v : Vs) (s : State) : Host.Outcome State Fault Refusal := .next (perstDeassert v s)

/-- The partition whose local upstream port `p` is. -/
def upstreamOf (s : State) (p : Nat) : Option Nat := if isWarp s p && !isDown s p then portPart s p else none

/-- An exported upstream link goes down and trains again (R127): what stands at it is refused, and its function returns to reset
values. -/
def exportedReset (s : State) (p cause : Nat) : State :=
  let s := if (warpPort s p).st = .active then warpLinkGone s p cause else s
  let s := setWarp s p { warpPort s p with st := .training, upCfg := [], upReady := false }
  refuseQueue (failSent s p) p

/-- The exported upstream port is lost: its owner is told, for which that starts a partition reset (R125). DEDUCED (log entry 117): a hot
reset or DL_Down of the imported link is its loss. -/
def exportedDown (s : State) (p cause : Nat) : State :=
  let s := match exportOf s p with
    | some a => tunnelNotice s a.cidB 1 0 0 []
    | none => s
  exportedReset s p cause

/-- HOT_RESET_RECEIVED (R125): on the local upstream link, or on an exported one. -/
def hotResetReceived (p : Nat) (s : State) : State :=
  if !(inService s && (warpPort s p).st = .active) then s
  else
    match upstreamOf s p with
    | some v => resetPartition s v 1
    | none => if (exportOf s p).isSome then exportedDown s p 4 else s

def execHotResetReceived (p : Port) (s : State) : Host.Outcome State Fault Refusal := .next (hotResetReceived p s)

/-- DL_DOWN (R125, R503): on the local upstream link it starts a partition reset. -/
def dlDown (p : Nat) (s : State) : State :=
  match upstreamOf s p with
  | some v => if inService s && (warpPort s p).st = .active then resetPartition (discardIde s p 1) v 2 else s
  | none => if (exportOf s p).isSome && (warpPort s p).st = .active then exportedDown s p 4 else s

def execDlDown (p : Port) (s : State) : Host.Outcome State Fault Refusal := .next (dlDown p s)

/-- The effect of VS_RESET_CMD 1. -/
def actVsReset (v : Nat) (s : State) : State := resetPartition s v 4

/-- A partition can be reset only while it is enabled and ports are served. -/
def vsResetCheck (s : State) (v : Nat) : Nat := if partEnabled s v && inService s then 0 else 5

/-- VS_RESET_CMD (R125). -/
def execVsResetCmd (sess : Nat) (v : Vs) (value : Nat) (s : State) : Host.Outcome State Fault Refusal :=
  .next (actWrite s sess 0x3305 (v + 1) value (if value = 1 then vsResetCheck s v else 0) id (onOne value (actVsReset v)))

/-! ### The end -/

/-- A port of a partition whose reset has ended starts training; a downstream port with a slot waits for its power-up. -/
def trainPort (s : State) (p : Nat) : State :=
  let x := warpPort s p
  if x.st = .down && !x.softDown && ((slotOf s p).isNone || !isDown s p) then setWarp s p { x with st := .training } else s

/-- A partition starts: its ports train, and it becomes ready within 100 ms. -/
def startPartition (s : State) (v : Nat) : State :=
  let s := setPart s v { partOf s v with resetSince := none, endedAt := some s.now }
  (partPorts s v).foldl trainPort s

/-- PARTITION_RESET_END (R125, R127): 2 ms after the last cause, with PERST released. -/
def partitionResetEnd (v : Nat) (s : State) : State :=
  let x := partOf s v
  if elapsedOpt s x.resetSince (2 * ms) && !x.perst && partEnabled s v then startPartition s v else s

def execPartitionResetEnd (v : Vs) (s : State) : Host.Outcome State Fault Refusal := .next (partitionResetEnd v s)

/-- An imported partition is ready only over its tunnel. -/
def tunnelUp (s : State) (v : Nat) : Bool :=
  match importedPort s v with
  | none => true
  | some _ =>
    match tunnelCid s v with
    | some c => (connOf s c).st = .active
    | none => false

/-- PARTITION_READY (R127): event 0x0306, the count of R126 in event 0x0307, and the end of an isolation (R351). -/
def partitionReady (v : Nat) (s : State) : State :=
  let x := partOf s v
  if x.endedAt.isSome && x.resetSince.isNone && partEnabled s v && inService s && tunnelUp s v then
    let s := setPart s v { x with st := 2, endedAt := none, wasIsolated := false, discarded := 0 }
    let s := event s 0x0306 0 v
    let s := tellExporter (event s 0x0307 0 (v + at_ 16 (x.discarded % 2 ^ 32))) v 2
    if x.wasIsolated then eventIn s (some v) 0x0906 128 (128 + at_ 16 v) else s
  else s

def execPartitionReady (v : Vs) (s : State) : Host.Outcome State Fault Refusal := .next (partitionReady v s)

/-- The imported upstream port of a ready partition is lost with its tunnel (R125). -/
def importLost (s : State) (v : Nat) : State :=
  match tunnelCid s v with
  | some c => if vsState s v = 2 && (importedPort s v).isSome && (connOf s c).st = .failed then resetPartition s v 3 else s
  | none => s

/-- An exported port whose tunnel has failed waits for a partition that is ready again. -/
def exportLost (s : State) (a : AdmittedVs) : State :=
  let p := a.gport % 128
  if a.gport / 128 = ownMid s && a.pgid / 32 ≠ ownMid s && (warpPort s p).upReady && (connOf s a.cidB).st = .failed then exportedReset s p 4 else s

/-- Every imported partition, and every exported port, follows its tunnel. -/
def importsFollowed (s : State) : State :=
  s.fab.imported.foldl (fun s a => exportLost (if a.pgid / 32 = ownMid s then importLost s (a.pgid % 32) else s) a) s

/-! ### Enabling a partition (R115) -/

/-- A partition comes into service: at LINKS, or at the commit that enables it. -/
def enterPartition (s : State) (v : Nat) : State :=
  if !partEnabled s v then s
  else if (partOf s v).perst then
    event (setPart s v { partOf s v with st := 1, resetSince := some s.now, endedAt := none }) 0x0305 0 v
  else startPartition (setPart s v { partOf s v with st := 1 }) v

/-- A partition is disabled: its links go down with it, and its functions are gone. -/
def leavePartition (s : State) (v : Nat) : State :=
  let s := orphanAll (resetWindows s v) v
  let s := tellExporter (discardPartIde s v) v 3
  let s := (partPorts s v).foldl (resetLink 4) s
  let s := freeSemaphores (dropProxies (resetFunctions s v) v) v
  setPart s v { perst := (partOf s v).perst }

end Sys2Proof.Machine
end

