-- ==== Sys2Proof/Machine/Tunnel.lean ====
section
/-!
DEFINITION. TLPs as they come out of a tunnel (R117, R235), and the word that the two modules of an imported partition have for
each other (log entry 117).
-/

namespace Sys2Proof.Machine

/-- The admission whose tunnel ends here for a context: at the owner of the partition, or at the exporter of its upstream port. -/
def ownerOf (s : State) (c : Nat) : Option AdmittedVs := s.fab.imported.find? fun a => a.pgid / 32 = ownMid s && a.cidA = c
def exporterOf (s : State) (c : Nat) : Option AdmittedVs := s.fab.imported.find? fun a => a.pgid / 32 ≠ ownMid s && a.cidB = c

/-- A notice of the exporter: the upstream port is lost, or the host has written a register of the upstream function. -/
def ownerNotice (s : State) (v : Nat) (t : Tlp) : State :=
  match t.addr % 16 with
  | 1 => resetPartition s v 3
  | 4 => if (partOf s v).resetSince.isSome then s else configWrite s v 240 (t.addr / 16 % 1024) (leAt t.data 0 4) t.firstBe
  | _ => s

/-- A notice of the owner: the partition is ready, or in reset. -/
def exporterNotice (s : State) (p : Nat) (t : Tlp) : State :=
  match t.addr % 16 with
  | 2 => setWarp s p { warpPort s p with upReady := true }
  | 3 => if (warpPort s p).upReady then exportedReset s p 4 else s
  | _ => s

/-- A TLP for the owner enters the partition from its upstream side. -/
def ownerArrival (s : State) (v : Nat) (t : Tlp) : State :=
  if vsState s v = 0 then s
  else if t.kind = .message && t.code = 0xFF then ownerNotice s v t
  else if (partOf s v).resetSince.isSome then s
  else acceptTlp s v 128 true (.tunnel v) t

/-- A TLP for the host leaves by the exported port, from source `src`. -/
def exporterArrival (s : State) (a : AdmittedVs) (src : Nat) (t : Tlp) : State :=
  let p := a.gport % 128
  let o : Origin := { mid := a.pgid / 32, vs := a.pgid % 32, rid := t.rid, ret := if tlpKind t = 1 then .tunnel (32 + a.pgid) else .none }
  if t.kind = .message && t.code = 0xFF then exporterNotice s p t
  else if portTakes s p then (enqueueTlp s p src o t s.hed.epoch 0).1
  else if tlpKind t = 1 then answer s src o t 0 1 false [] else s

/-- A TLP that has come through the tunnel of context `c`, from the loom's source `src`, takes the place of what had carried it. -/
def tunnelArrived (s : State) (r : Nat × Nat × Option Nat × Tlp) : State :=
  let k := s.loom.nextChain
  let s := match ownerOf s r.1, exporterOf s r.1 with
    | some a, _ => ownerArrival s (a.pgid % 32) r.2.2.2
    | none, some a => exporterArrival s a r.2.1 r.2.2.2
    | none, none => s
  handOver s r.2.2.1 k

/-- Take the TLPs that the shuttle has reassembled. -/
def tunnelSettled (s : State) : State := s.shu.tunnelled.foldl tunnelArrived { s with shu := { s.shu with tunnelled := [] } }

end Sys2Proof.Machine
end

