-- ==== Sys2Proof/Machine/Links.lean ====
section
/-!
DEFINITION. The end of a step, where what one block has left for another is acted on, and the commands that need it: the weft
links, the reference clocks, ingress, the shuttle, the aperture, the loom's losses, the twin pair and the dobby's reads.
-/

namespace Sys2Proof.Machine

/-! ### What is left at the end of a step -/

/-- Send the LATE_DROP of a write (R248). -/
def lateDropSent (s : State) (d : LateDrop) : State :=
  let env := { typ := 0, seq := d.seq, src := d.srcPort, dst := d.dstPort : EnvFields }.word
  sendNak s d.cid env 8 true d.window d.offset

def lateDropsSent (s : State) : State :=
  let ds := s.shu.lateDrops
  ds.foldl lateDropSent { s with shu := { s.shu with lateDrops := [] } }

/-- What the ingresses have held is taken where their partitions' reloads have ended. -/
def heldSettled (s : State) : State := (List.range 32).foldl heldTaken s

/-- What the blocks have left for each other is acted on. -/
def settle (s : State) : State :=
  health (denialsRecorded (dobbySettled (errorsSent (importsFollowed (engineSettled (tunnelSettled (heldSettled (lateDropsSent
    (weftSettled s))))))))) 0

/-! ### Weft links (chapters 3 and 4) -/

def execBlockLockLost (l : Lane) (s : State) : Host.Outcome State Fault Refusal := .next (settle (blockLockLost l.val s))
def execLaneAlignTimeout (l : Lane) (s : State) : Host.Outcome State Fault Refusal := .next (settle (laneAlignTimeout l.val s))
def execWeftBlockReceive (l : Lane) (levels : BitVec 130) (s : State) : Host.Outcome State Fault Refusal :=
  .next (settle (weftBlockReceive l.val levels.toNat s))
def execAlignReceive (l : Lane) (s : State) : Host.Outcome State Fault Refusal := .next (settle (alignReceive l.val s))
def execTs1Receive (p : Port) (s : State) : Host.Outcome State Fault Refusal := .next (settle (ts1Receive p.val s))
def execTs2Receive (p : Port) (s : State) : Host.Outcome State Fault Refusal := .next (settle (ts2Receive p.val s))

/-- FLIT_RECEIVE (R80, R83): the oldest flit that the rows of the port have brought. -/
def flitReceive (p : Nat) (s : State) : State :=
  let q := takeFlit p s
  match q.2 with
  | some bs => flitAccept p bs q.1
  | none => s

def execFlitReceive (p : Port) (s : State) : Host.Outcome State Fault Refusal := .next (settle (flitReceive p.val s))
def execReplayTimerExpiry (p : Port) (s : State) : Host.Outcome State Fault Refusal := .next (settle (replayTimerExpiry p.val s))
def execWeftTrainingStart (p : Port) (s : State) : Host.Outcome State Fault Refusal := .next (settle (weftTrainingStart p.val s))
def execTrainingPhaseTimeout (p : Port) (s : State) : Host.Outcome State Fault Refusal := .next (settle (trainingPhaseTimeout p.val s))
def execCreditInitReceive (p : Port) (s : State) : Host.Outcome State Fault Refusal := .next (settle (creditInitReceive p.val s))
def execFlitStartReceive (p : Port) (s : State) : Host.Outcome State Fault Refusal := .next (settle (flitStartReceive p.val s))
def execAlignedTimeout (p : Port) (s : State) : Host.Outcome State Fault Refusal := .next (settle (alignedTimeout p.val s))
def execRetrainReqReceive (p : Port) (s : State) : Host.Outcome State Fault Refusal := .next (settle (retrainReqReceive p.val s))
def execRetrainReqEnd (p : Port) (s : State) : Host.Outcome State Fault Refusal := .next (settle (retrainReqEnd p.val s))
def execRetrainRateStep (p : Port) (s : State) : Host.Outcome State Fault Refusal := .next (settle (retrainRateStep p.val s))
def execRetrainTimeout (p : Port) (s : State) : Host.Outcome State Fault Refusal := .next (settle (retrainTimeout p.val s))

/-- WEFT_RETRAIN_CMD (R107): refused at a port that is not a weft or twin port. -/
def execWeftRetrainCmd (sess : Nat) (p : Port) (value : Nat) (s : State) : Host.Outcome State Fault Refusal :=
  .next (settle (actWrite s sess 0x3207 (p.val + 1) value (if isWeft s p.val then 0 else 5) id (onOne value (actWeftRetrain p.val))))

/-! ### Reference clocks (R52) -/

/-- A warp port whose clock is lost goes down: event 0x0301 with cause 3. An upstream link's DL_Down resets its partition; a
downstream port answers in the surprise state. -/
def warpClockDown (s : State) (p : Nat) : State :=
  if (warpPort s p).st ≠ .active then s
  else
    let s := warpLinkGone s p 3
    if isDown s p then surpriseState s p
    else
      match portPart s p with
      | some v => resetPartition (setWarp s p { warpPort s p with st := .down }) v 2
      | none => exportedDown s p 3

/-- A port that runs from a lost clock goes down: cause 13 for a weft or twin port. -/
def clockDown (s : State) (p : Nat) : State :=
  if isWarp s p then warpClockDown s p
  else
    match (weftPort s p).link with
    | .down | .failed => s
    | _ => linkDown s p 13

/-- The enabled ports that depend on a reference clock input. -/
def clockPorts (s : State) (c : Nat) : List Nat :=
  (List.range 128).filter fun p => (portLanes s p).isSome && personality s p ≠ 0 && portClock s p = c

/-- REFCLK_LOST (R52). -/
def refclkLost (c : Nat) (s : State) : State :=
  if !coreRuns s || bit s.lanes.refLost c then s
  else
    let s := event { s with lanes := { s.lanes with refLost := putBit s.lanes.refLost c true, refLostAt := Tbl.set s.lanes.refLostAt c s.now } } 0x0206 0 c
    (clockPorts s c).foldl clockDown s

def execRefclkLost (c : Clk) (s : State) : Host.Outcome State Fault Refusal := .next (settle (refclkLost c.val s))

/-- A warp port of a partition that is not in reset trains again; a weft port does after its electrical idle. -/
def clockUp (s : State) (p : Nat) : State :=
  match portPart s p with
  | some v => if isWarp s p && (partOf s v).resetSince.isNone && inService s then trainPort s p else s
  | none => if (exportOf s p).isSome && inService s then trainPort s p else s

/-- REFCLK_RESTORED (R52): the input has been within tolerance for 1 ms, which cannot be sooner than 1 ms after its loss. -/
def refclkRestored (c : Nat) (s : State) : State :=
  if !coreRuns s || !bit s.lanes.refLost c || !elapsed s (Tbl.get s.lanes.refLostAt c 0) ms then s
  else
    let s := event { s with lanes := { s.lanes with refLost := putBit s.lanes.refLost c false } } 0x0207 0 c
    (clockPorts s c).foldl clockUp s

def execRefclkRestored (c : Clk) (s : State) : Host.Outcome State Fault Refusal := .next (settle (refclkRestored c.val s))

/-! ### Ingress of warp ports -/

def execTlpIngress (p : Port) (t : Tlp) (s : State) : Host.Outcome State Fault Refusal := .next (settle (tlpIngress p.val t s))

/-- The shortest time after which a Completion Timeout Value lets a request time out (R129). -/
def timeoutRange (v : Nat) : Nat :=
  match v with
  | 2 => ms
  | 5 => 16 * ms
  | 6 => 65 * ms
  | 9 => 260 * ms
  | 10 => sec
  | 13 => 4 * sec
  | 14 => 17 * sec
  | _ => 50 * us

/-- The Completion Timeout fields of a partition's management function. PRESUMED (log entry 8): its PCI Express capability stands at
0x40, so Device Control 2 is the lower half of the dword at 0x68. -/
def timedOut (s : State) (v since : Nat) : Bool :=
  let d := cfgReg s v 242 0x1A
  !bit d 4 && elapsed s since (timeoutRange (bits d 0 4))

/-- A request of a window to a device has timed out: it completes with Completer Abort. -/
def windowTimedOut (s : State) (p : Nat) (r : OutReq) : State :=
  let s := selContained s 128 17 1 (portPart s p) 0
  let t := completionFor r.t 0 2 []
  let q := requestAnswered s p r t
  passAnswer q.1 p r t q.2

/-- WE_COMPLETION_TIMEOUT (R129): the engine's local read `req`, or request `req` mod 2^16 of port `req` div 2^16, less 2^40. -/
def weCompletionTimeout (req : Nat) (s : State) : State :=
  if req < 2 ^ 40 then
    match s.eng.reads.find? fun r => r.req = req with
    | some r =>
      match instOf s r.ticket.inst with
      | some x => if timedOut s x.vs r.since then readTimedOut s r else s
      | none => s
    | none => s
  else
    let p := (req - 2 ^ 40) / 65536
    match (warpPort s p).reqs[req % 65536]?, portPart s p with
    | some r, some v => if r.origin.window.isSome && timedOut s v r.since then windowTimedOut s p r else s
    | _, _ => s

def execWeCompletionTimeout (req : Nat) (s : State) : Host.Outcome State Fault Refusal := .next (settle (weCompletionTimeout req s))

/-! ### Loom: losses -/

def execAgeSweep (s : State) : Host.Outcome State Fault Refusal := .next (settle (ageSweep s))

/-- The item of the oldest readback under way. -/
def readingItem (s : State) : Option LoomItem :=
  match s.loom.reads with
  | (_, d, id) :: _ => (queueOf s d).find? fun i => i.id = id
  | [] => none

/-- READBACK_DONE. A copy of ledger data that cannot be read stalls its connection (R169, R253): cause 22. -/
def readback (r : StoreRead) (s : State) : State :=
  let e := match (readingItem s).bind LoomItem.copyOf with
    | some l => Tbl.find? s.shu.ledger l
    | none => none
  match e with
  | some e => if r.good then readbackDone r s else toStalled (readbackDone r s) e.cid e.seq 22
  | none => readbackDone r s

def execReadbackDone (r : StoreRead) (s : State) : Host.Outcome State Fault Refusal := .next (settle (readback r s))

/-! ### The shuttle (chapter 8) -/

def execOperationAccept (s : State) : Host.Outcome State Fault Refusal := .next (settle (operationAccept s))
def execDeferredAccept (s : State) : Host.Outcome State Fault Refusal := .next (settle (deferredAccept s))
def execOperationFirstSend (c : Cid) (s : State) : Host.Outcome State Fault Refusal := .next (settle (operationFirstSend c.val s))
def execRetransmitTimeout (ledgerIndex : Fin 65536) (s : State) : Host.Outcome State Fault Refusal :=
  .next (settle (retransmitTimeout ledgerIndex.val s))
def execOperationReceive (s : State) : Host.Outcome State Fault Refusal := .next (settle (operationReceive s))
def execAckSend (c : Cid) (s : State) : Host.Outcome State Fault Refusal := .next (settle (ackSend c.val s))
def execAckReceive (s : State) : Host.Outcome State Fault Refusal := .next (settle (ackReceive s))
def execNakReceive (s : State) : Host.Outcome State Fault Refusal := .next (settle (nakReceive s))
def execConnReqOpen (s : State) : Host.Outcome State Fault Refusal := .next (settle (connReqOpen s))
def execConnReqClose (s : State) : Host.Outcome State Fault Refusal := .next (settle (connReqClose s))
def execConnReqReset (s : State) : Host.Outcome State Fault Refusal := .next (settle (connReqReset s))
def execConnReqRekey (s : State) : Host.Outcome State Fault Refusal := .next (settle (connReqRekey s))
def execConnResp (s : State) : Host.Outcome State Fault Refusal := .next (settle (connResp s))
def execConnReqResend (c : Cid) (s : State) : Host.Outcome State Fault Refusal := .next (settle (connReqResend c.val s))
def execConnOpenTimeout (c : Cid) (s : State) : Host.Outcome State Fault Refusal := .next (settle (connOpenTimeout c.val s))
def execConnExchangeTimeout (c : Cid) (s : State) : Host.Outcome State Fault Refusal := .next (settle (connExchangeTimeout c.val s))
def execConnCloseTimeout (c : Cid) (s : State) : Host.Outcome State Fault Refusal := .next (settle (connCloseTimeout c.val s))
def execAutoResumeTimer (c : Cid) (s : State) : Host.Outcome State Fault Refusal := .next (settle (autoResumeTimer c.val s))

/-- REKEY_ALL (R261). -/
def execRekeyAll (sess value : Nat) (s : State) : Host.Outcome State Fault Refusal :=
  .next (settle (actWrite s sess 0x4212 0 value 0 id (onOne value actRekeyAll)))

/-! ### Windows and ordering (chapter 9) -/

/-- The origin of a host's access to a function of partition `v`. -/
def hostOrigin (s : State) (v rid : Nat) (answered : Bool) : Origin :=
  { cls := v, mid := ownMid s, vs := v, rid := rid, ret := if answered then hostRet s v else .none }

/-- A load or store of the host in the aperture of an instance. -/
def hostAperture (i : Nat) (t : Tlp) (s : State) : State :=
  match instOf s i with
  | some x => if inService s then apertureAccess s i ((upPort s x.vs).getD 128) (hostOrigin s x.vs t.rid (tlpKind t = 1)) t else s
  | none => s

def execApertureAccess (i : Inst) (t : Tlp) (s : State) : Host.Outcome State Fault Refusal := .next (settle (hostAperture i.val t s))
def execHeldLoadSend (s : State) : Host.Outcome State Fault Refusal := .next (settle (heldLoadSend s))
def execVisibilityPoint (s : State) : Host.Outcome State Fault Refusal := .next (settle (visibilityPoint s))

/-- FENCE_SLOT_READ (R314). -/
def hostFenceSlot (i slot rid tag : Nat) (s : State) : State :=
  match instOf s i with
  | some x =>
    if inService s then
      fenceSlotRead s i slot ((upPort s x.vs).getD 128) (hostOrigin s x.vs rid true) { kind := .memRead, addr := 0x1000 + 4 * slot, len := 4, rid := rid, tag := tag }
    else s
  | none => s

def execFenceSlotRead (i : Inst) (slot : Fin 1024) (rid tag : Nat) (s : State) : Host.Outcome State Fault Refusal :=
  .next (settle (hostFenceSlot i.val slot.val rid tag s))

/-! ### The twin pair (chapter 13) -/

def execMirrorRecordReceive (s : State) : Host.Outcome State Fault Refusal := .next (settle (mirrorRecordReceive s))
def execTwinLostDeclare (s : State) : Host.Outcome State Fault Refusal := .next (settle (twinLostDeclare s))
def execMirrorRateAlert (s : State) : Host.Outcome State Fault Refusal := .next (settle (mirrorRateAlert s))

/-! ### The dobby (chapter 14) -/

def execDobbyTake (r : StoreRead) (s : State) : Host.Outcome State Fault Refusal := .next (settle (dobbyTake r s))
def execDobBusTimerExpiry (s : State) : Host.Outcome State Fault Refusal := .next (settle (dobBusTimerExpiry s))

end Sys2Proof.Machine
end

