-- ==== Sys2Proof/Machine/Values.lean ====
section
/-!
DEFINITION. What a read of each object of the dictionary returns (R451): the value in force, which for a STATUS object is
computed from the state of its block, the PARAM values of the session, identity and capability records, and the effects
that reading has (SHARED_FREE_MIN, LEDGER_PEAK, POST_PEAK, and COUNT of HED_DENY_LOG).
-/

namespace Sys2Proof.Machine

/-! ### Firmware images (R436) -/

def fwSlot (s : State) (k : Nat) : FwSlot := vget s.module.slots k {}

def setFwSlot (s : State) (k : Nat) (x : FwSlot) : State := { s with module := { s.module with slots := vset s.module.slots k x } }

/-- A little-endian field of an image's header. -/
def fwField (x : FwSlot) (o n : Nat) : Nat := leNat (Memory.readBytes x.image o n)

def fwVersion (x : FwSlot) : Nat := fwField x 8 4
def fwStateFmt (x : FwSlot) : Nat := fwField x 18 2
def fwStateMin (x : FwSlot) : Nat := fwField x 20 2

def SlotSt.code : SlotSt → Nat
  | .empty => 0 | .loading => 1 | .verified => 2 | .active => 3 | .pending => 4

/-- The state format of image `a` lies within the range of image `b` (R440, R445). -/
def fmtFits (a b : FwSlot) : Bool := fwStateMin b ≤ fwStateFmt a && fwStateFmt a ≤ fwStateFmt b

/-- The boot ROM has chosen an image. -/
def fwRuns (s : State) : Bool :=
  match s.module.state with
  | .off | .keeper | .feedsUp | .coreOn => false
  | _ => true

def runningVersion (s : State) : Nat :=
  if !fwRuns s then 0
  else if 2 ≤ s.module.running then Config.bootRomVersion % 2 ^ 32
  else fwVersion (fwSlot s s.module.running)

/-- FW_SLOT_INFO (R447). -/
def slotInfo (s : State) (k : Nat) : Nat :=
  let x := fwSlot s k
  if x.st = .empty then 0
  else at_ 4 (fwField x 24 1 % 4) + at_ 2 (b2n (fmtFits (fwSlot s s.module.running) x)) + at_ 1 (b2n x.rejected) + b2n x.trial

/-- The trial of R444. -/
def trialTime : Nat := 30 * sec

def trialLeft (s : State) : Nat :=
  match s.module.trialSince with
  | some t => (t + trialTime - s.now) / ms
  | none => 0

/-! ### Blocks as status words -/

def FeedSt.code : FeedSt → Nat
  | .off => 0 | .wait => 1 | .ramp => 2 | .qualify => 3 | .good => 4 | .cooldown => 5 | .latched => 6 | .failed => 7 | .disabled => 8

/-- FEED_STATUS (R429). -/
def FeedState.status (x : FeedState) : Nat :=
  at_ 11 (b2n x.reverseFail) + at_ 10 (b2n x.shortFail) + at_ 9 (b2n x.gateFail) + at_ 8 (b2n (decide (x.st = .latched))) +
    at_ 6 (x.lastTrip % 4) + at_ 5 (b2n x.diodeOn) + at_ 4 (b2n x.timer.isSome) + at_ 3 (b2n x.ilimit) + at_ 2 (b2n x.foldback) +
    at_ 1 (b2n x.ov) + b2n x.uv

/-- VAULT_STATUS (R507). -/
def vaultStatus (s : State) : Nat :=
  at_ 3 (b2n s.vault.debugOpen) + at_ 2 (b2n s.vault.zeroised) + at_ 1 (b2n s.vault.beamKey.isSome) + b2n s.vault.entropyOk

def LaneSt.code : LaneSt → Nat
  | .off => 0 | .idle => 1 | .hunting => 2 | .locked => 3 | .aligned => 4 | .failed => 5

def WarpSt.code : WarpSt → Nat
  | .down => 0 | .training => 1 | .active => 2 | .surprise => 3 | .dpc => 4

/-- SESSION_INFO of a slot (R482). -/
def sessionWord (s : State) (slot : Nat) : Nat :=
  match s.mgmt.sessions.find? fun (x : Session) => x.slot = slot with
  | some x => at_ 63 1 + at_ 56 (x.role % 8) + at_ 48 (x.source % 256) + at_ 32 (x.num % 65536) + (s.now - x.lastMsg) / ms % 2 ^ 32
  | none => 0

/-- WITNESS_LEASE n: identity kind, identity, holder, term, remaining µs, state (R482). -/
def leaseWord (s : State) (n : Nat) : Nat :=
  match s.mgmt.leases[n]? with
  | some x =>
    let left := x.since + 20 * ms - s.now
    let pend := s.mgmt.claims.any fun (c : PendingClaim) => c.kind = x.kind && c.ident = x.ident
    leNat (leBytes 1 x.kind ++ leBytes 4 x.ident ++ leBytes 2 x.holder ++ leBytes 4 x.term ++ leBytes 4 (left / us) ++
      leBytes 1 (if pend then 3 else if left = 0 || !x.live then 2 else 1))
  | none => 0

/-- Claim resources: 1 the shared land, 2 a timer channel, 3 the spill claim, 4 a connection context (R474). -/
def claimKey (cls n : Nat) : Nat := cls * 65536 + n

/-- CLAIM_CONTEXT n: the claimed contexts in order of CID (R475). -/
def claimContext (s : State) (n : Nat) : Nat :=
  match (s.mgmt.claimed.filter fun r => r.1 / 65536 = 4)[n]? with
  | some (k, h) => at_ 32 (k % 16384) + h
  | none => 0

/-- JOURNAL_OLDEST. -/
def journalOldest (s : State) : Nat :=
  match s.obs.journal with
  | e :: _ => e.number
  | [] => s.obs.journalNext

/-- Items of the queue q = 32d + 4t + k that meet a test, in bobbins. -/
def queueBobbins (s : State) (q : Nat) (resident : Bool) : Nat :=
  ((queueOf s (q / 32)).map fun (i : LoomItem) =>
    let here := match i.place with
      | .resident | .spilling => true
      | _ => false
    if i.tc = q / 4 % 8 && i.kind = q % 4 && here = resident then cells i.bytes else 0).sum

/-- BEAM_SPILL_MIB: the beam less its fixed regions and the ledger region (R162). -/
def beamSpillMib (s : State) : Nat := (if Config.f48 then 49152 else 24576) - 768 - cfgv s 0x4021 1

/-! ### The tally image (R518, R513) -/

/-- A mailbox session of a partition may read an ordinary counter. -/
def mailboxCounter (s : State) (v c : Nat) : Bool :=
  let slotMask (i : Nat) : Nat := bits (cfgv s 0x7020 (i + 1)) 185 50
  if c < 3840 then portPart s (c / 30) = some v
  else if 6464 ≤ c && c < 6976 then c = 6464 + 16 * v + (c - 6464) % 16
  else if 8832 ≤ c && c < 8960 then c = 8832 + 4 * v + (c - 8832) % 4
  else if 8960 ≤ c && c < 9216 then slotMask ((c - 8960) / 2) = 2 ^ v
  else false

/-- The source of a session is a mailbox; of which partition. -/
def sessionVs (s : State) (sess : Nat) : Option Nat :=
  match sessionOf s sess with
  | some x => if 128 ≤ x.source then some (x.source - 128) else none
  | none => none

def sessionRole (s : State) (sess : Nat) : Nat :=
  match sessionOf s sess with
  | some x => x.role
  | none => 0

/-- The image's counter `c` as a session sees it. -/
def imageCounter (s : State) (sess : Nat) (m : TallyImage) (c : Nat) : Nat :=
  match sessionVs s sess with
  | some v => if mailboxCounter s v c then Tbl.get m.counters c 0 else 0
  | none => Tbl.get m.counters c 0

/-- A 4 KiB block of the image. -/
def tallyBlock (s : State) (sess off : Nat) : List Byte :=
  match s.obs.tally.image with
  | none => List.replicate 4096 0
  | some m =>
    if off / 4096 < 9 then (List.range 1024).flatMap fun i => leBytes 4 (imageCounter s sess m (off / 4 + i))
    else
      let inst := sessionRole s sess = 2
      leBytes 4 m.number ++ leBytes 4 9216 ++ leBytes 8 m.launch ++ leBytes 8 m.period ++
        leBytes 4 (b2n s.obs.tally.hold.isSome + 2 * b2n m.locked) ++ List.replicate 228 0 ++
        ((List.range 64).flatMap fun i => leBytes 4 (if inst then Tbl.get m.priv i 0 else 0)) ++
        leBytes 8 (if inst then m.sticky else 0) ++ List.replicate 3576 0

/-! ### The bolt region (R528 to R531) -/

/-- Where each section of a bolt lies: from 4096 on, each at a multiple of 4096. -/
def sectionPlaces : Nat → List BoltSection → List (Nat × BoltSection)
  | _, [] => []
  | o, x :: xs => (o, x) :: sectionPlaces (o + (ceilDiv x.body.length 4096) * 4096) xs

/-- Bytes of the bolt in use. -/
def Bolt.inUse (b : Bolt) : Nat := (sectionPlaces 4096 b.sections).foldl (fun n r => max n (r.1 + r.2.body.length)) 4096

/-- The 4096 bytes of the bolt header, with HDR_CHECK (R530). -/
def Bolt.header (b : Bolt) : List Byte :=
  let flags := b2n (decide (b.state = 3)) + 2 * b2n (b.sections.any fun x => x.typ = 13) +
    4 * b2n (b.sections.any fun x => x.flags % 2 = 1)
  let head := ascii "ESXBOLT1" ++ leBytes 4 b.number ++ leBytes 1 b.kind ++ leBytes 1 b.cause ++ leBytes 1 b.stateBefore ++
    leBytes 1 flags ++ leBytes 8 b.time ++ leBytes 4 b.fwVersion ++ leBytes 16 Config.serial ++ leBytes 2 b.sections.length ++
    leBytes 2 b.laters ++ leBytes 4 b.inUse
  let descs := (sectionPlaces 4096 b.sections).flatMap fun r =>
    leBytes 2 r.2.typ ++ leBytes 2 r.2.flags ++ leBytes 4 r.2.body.length ++ leBytes 4 r.1 ++ leBytes 4 (crc32c r.2.body)
  let body (check : Nat) : List Byte := fitBytes 4096 (head ++ leBytes 4 check ++ leBytes 8 0 ++ descs)
  body (crc32c (body 0))

/-- 4 KiB of the bolt region at an offset. -/
def boltBlock (s : State) (off : Nat) : List Byte :=
  let b := s.obs.bolt
  if 0x0C000000 ≤ off then beamRead s off 4096
  else if b.state = 0 then List.replicate 4096 0
  else if off = 0 then b.header
  else
    match List.find? (fun (r : Nat × BoltSection) => r.1 ≤ off && off < r.1 + r.2.body.length) (sectionPlaces 4096 b.sections) with
    | some (o, x) => fitBytes 4096 (x.body.drop (off - o))
    | none => List.replicate 4096 0

/-! ### Values of STATUS objects -/

def liveConns (s : State) (f : Conn → Bool) : Nat := (s.shu.conns.filter fun r => f r.2).length

/-- The pair secret or join secret that a KEY object holds. -/
def secretSet (s : State) (k : Nat) : Bool := (Tbl.find? s.vault.secrets k).isSome

/-- The value of a STATUS object of the ranges 0x1000 to 0x2FFF. -/
def statusLow (s : State) (sess index sub : Nat) : Option Nat :=
  let feed := if sub = 1 then s.power.a else s.power.b
  match index with
  | 0x1001 => some ((objTable.length + ((capData false 0).map fun r => 3 + r.length).sum) % 65536)
  | 0x1002 => some (if s.module.state = .off then 1 else s.module.state.code)
  | 0x1003 => some (s.module.bootCount % 2 ^ 32)
  | 0x1103 => if sub = 1 then some s.mgmt.sessions.length else none
  | 0x1104 => some (sessionWord s (sub - 1))
  | 0x1110 => if sub = 1 then some s.obs.journalNext else if sub = 2 then some (journalOldest s) else
      if sub = 4 then some (match s.obs.journal.find? fun (e : JournalEntry) => e.number = param s sess 0x1110 3 with
        | some e => leNat e.bytes
        | none => 0) else none
  | 0x1122 => some (leaseWord s (sub - 1))
  | 0x1201 => some (Tbl.get s.mgmt.claimed (claimKey 1 0) 0)
  | 0x1202 => some (Tbl.get s.mgmt.claimed (claimKey 2 (sub - 1)) 0)
  | 0x1203 => some (Tbl.get s.mgmt.claimed (claimKey 3 0) 0)
  | 0x1204 => some (claimContext s (sub - 1))
  | 0x1300 => if sub = 1 then some (runningVersion s) else if sub = 2 then some (if fwRuns s then s.module.running else 0) else
      some (Config.bootRomVersion % 2 ^ 32)
  | 0x1301 => some (fwSlot s (sub - 1)).st.code
  | 0x1302 => some (if (fwSlot s (sub - 1)).st = .empty then 0 else fwVersion (fwSlot s (sub - 1)))
  | 0x1303 => some (slotInfo s (sub - 1))
  | 0x1304 => some (fwSlot s (sub - 1)).blocks.length
  | 0x1310 => if sub = 7 then some s.module.loadStatus else none
  | 0x1320 => if sub = 6 then some s.module.lastPauseUs else if sub = 7 then some (trialLeft s) else none
  | 0x2007 => some feed.status
  | 0x2008 => some (feed.mv % 65536)
  | 0x2009 => some (feed.ma % 2 ^ 32)
  | 0x200A => some feed.trips
  | 0x200B => some ((if sub = 1 then s.power.vkeepMv else s.power.vioMv) % 65536)
  | 0x200C => some feed.st.code
  | 0x2100 =>
    match sub with
    | 1 => some s.gov.capacity
    | 2 => some s.gov.vcore
    | 4 => some s.gov.stagePs
    | 6 => some s.gov.limit
    | 7 => some (ofI32 s.gov.tjHot)
    | 8 => some s.gov.feedW
    | 9 => some s.gov.thermalW
    | 10 => some s.gov.powerW
    | _ => none
  | 0x2110 => if sub = 1 then some (s.ft % 2 ^ 64) else if sub = 2 then some (ofI32 s.fab.offset) else
      if sub = 3 then some (b2n s.fab.locked) else none
  | 0x2111 => some (Tbl.get s.fab.delay (sub - 1) 0 % 65536)
  | _ => none

/-- The value of a STATUS object of the ranges 0x3000 to 0x3FFF. ADAPT_FREEZE reads 0 while a freeze that the treadle began stands, also
after a write of 1 that joined it (DESIGN CHOICE, log entry 127: R65 does not say). -/
def statusPorts (s : State) (sess index sub : Nat) : Option Nat :=
  let p := sub - 1
  match index with
  | 0x3006 => some (if isWarp s p then (warpPort s p).width else (weftPort s p).width)
  | 0x3010 => some (laneOf s p).st.code
  | 0x3011 => some (laneOf s (128 + p)).st.code
  | 0x3014 => some (laneOf s p).polSeen
  | 0x3015 => some (laneOf s (128 + p)).polSeen
  | 0x3020 => if sub = 5 then some s.lanes.marginStatus else if sub = 6 then some s.lanes.marginNeg else
      if sub = 7 then some s.lanes.marginPos else none
  | 0x3030 => some (match s.lanes.frozen with
      | some (b, _) => b2n b
      | none => 0)
  | 0x3103 => some (warpPort s p).st.code
  | 0x3104 => some (warpPort s p).rate
  | 0x3105 => some (b2n (warpPort s p).flit)
  | 0x3108 => some (warpPort s p).downCause
  | 0x3110 => if sub = 3 then some (proxyWord s (param s sess 0x3110 1) (param s sess 0x3110 2)) else none
  | 0x3111 => some (warpPort s p).proxies.length
  | 0x3124 => some (vget s.warp.slot p {}).inputs
  | 0x3130 => some s.warp.ideSel.length
  | 0x3201 => some (weftPort s p).link.code
  | 0x3202 => some (weftPort s p).rate
  | 0x3208 => some (weftPort s p).peer
  | 0x3209 => some (leastRtt s p)
  | 0x320A => some (weftPort s p).fails
  | 0x320B => some (weftPort s p).lastCause
  | 0x3303 => some (vsState s p)
  | 0x3306 => some ((proxyBuses s p).1 * 256 + (proxyBuses s p).2)
  | _ => none

/-- The value of a STATUS object of the ranges 0x4000 to 0x4FFF. -/
def statusFabric (s : State) (sess index sub : Nat) : Option Nat :=
  match index with
  | 0x4003 => some (reserveUsed s (sub - 1))
  | 0x4004 => some (sharedFree s)
  | 0x4005 => some (s.loom.freeMin.getD (sharedFree s))
  | 0x4020 => if sub = 6 then some (b2n s.loom.spillActive) else if sub = 7 then some (ceilDiv (spillInUse s).length 4096) else none
  | 0x4021 => if sub = 2 then some (beamSpillMib s) else none
  | 0x4022 => if sub = 3 then some (ledgerResident s) else none
  | 0x4032 => some (markThreshold s (sub - 1))
  | 0x4042 => some (mcastUsed s)
  | 0x4050 => if sub = 2 then some (queueBobbins s (param s sess 0x4050 1) true) else
      if sub = 3 then some (queueBobbins s (param s sess 0x4050 1) false) else none
  | 0x4100 =>
    match sub with
    | 3 => some s.fab.role
    | 4 => some (s.fab.master.getD 65535)
    | 5 => some s.fab.term
    | 6 => some s.fab.memberCount
    | _ => none
  | 0x4102 => if sub = 2 then some (witnessView s) else none
  | 0x4103 => some s.fab.rotate
  | 0x4104 => if sub = 2 then some (routeEntry s (param s sess 0x4104 1)).word else if sub = 3 then some s.fab.epoch else none
  | 0x4106 => if sub = 2 then some s.fab.splitCount else none
  | 0x4205 =>
    match sub with
    | 1 => some (liveConns s fun x => x.st = .active)
    | 2 => some (liveConns s fun x => x.st = .stalled || x.st = .failed)
    | 3 => some s.shu.ledger.length
    | 4 => some s.shu.peak
    | _ => none
  | 0x4210 => if sub = 3 then some (b2n (secretSet s (pairKey (param s sess 0x4210 1)))) else none
  | 0x4213 => some (s.shu.rosterLost % 65536)
  | 0x4301 =>
    match sub with
    | 1 => some (s.win.windows.filter fun r => r.2.st = .open_).length
    | 2 => some (s.win.windows.filter fun r => r.2.st = .revoking).length
    | 3 => some s.win.imports.length
    | 4 => some (devCacheFree s)
    | _ => none
  | 0x4302 => if sub = 1 then some (2048 - s.win.posting.length) else if sub = 4 then some s.win.postPeak else none
  | 0x4303 => if sub = 2 then some (match Tbl.find? s.win.posting (param s sess 0x4303 1) with
      | some x => x.word s
      | none => 0) else none
  | 0x4310 => some (match Tbl.find? s.win.fails (sub - 1) with
      | some l => l.word
      | none => 0)
  | 0x4313 => some (Tbl.get s.win.failCount (sub - 1) 0 % 2 ^ 32)
  | 0x4409 => some (admOf s (sub - 1)).vfs
  | 0x440A => if sub = 1 then some (2048 - s.eng.insts.length) else if sub = 2 then some (4096 - poolUse s 1) else some (262144 - poolUse s 6)
  | 0x440B => if sub = 2 then some (match instOf s (param s sess 0x440B 1) with
      | some x => at_ 15 1 + at_ 8 (x.vs % 32) + x.vf % 256
      | none => 0) else none
  | _ => none

/-- The value of a STATUS object of the ranges 0x5000 to 0x6FFF. -/
def statusGuards (s : State) (sess index sub : Nat) : Option Nat :=
  match index with
  | 0x5000 =>
    match sub with
    | 1 => some (s.hed.epoch % 65536)
    | 3 => some s.hed.status
    | 4 => some (if s.hed.draining then previousEpoch s else 0)
    | 5 => some s.hed.detail
    | _ => none
  | 0x5001 =>
    if sub = 3 then some (pendingRegion s (param s sess 0x5001 1) (param s sess 0x5001 2))
    else if sub = 4 then some (activeRegion s (param s sess 0x5001 1) (param s sess 0x5001 2)) else none
  | 0x5002 => some (pendingOwn s (sub - 1))
  | 0x5003 => some ((Tbl.get s.hed.denied (sub - 1) {}).word)
  | 0x5101 => some (match Tbl.find? s.sel.log (sub - 1) with
      | some l => l.word
      | none => 0)
  | 0x5107 => some (partOf s (sub - 1)).isolateCause
  | 0x5108 => some ((partOf s (sub - 1)).errors % 2 ^ 32)
  | 0x5109 => some s.module.fatalLast
  | 0x510A => some s.module.recoveryCount
  | 0x5208 => some s.twin.st.code
  | 0x5209 => some (twinLinks s).length
  | 0x520A => some s.twin.store.length
  | 0x520B => some s.twin.gbps
  | 0x520C => some (s.twin.unmirrored % 2 ^ 32)
  | 0x520D => some (liveConns s fun x => x.adopted && x.st ≠ .idle)
  | 0x6016 => some (match Tbl.find? s.dob.berr (sub - 1) with
      | some l => l.word
      | none => 0)
  | 0x6018 => if sub = 0 then some (match s.dob.inBerr with
      | some l => l.word
      | none => 0) else none
  | 0x6026 => some (holdUsed s)
  | 0x6030 => if sub = 3 then some s.dob.connResult else none
  | _ => none

/-- The value of a STATUS object of the ranges 0x7000 to 0x7FFF. -/
def statusHigh (s : State) (sess index sub : Nat) : Option Nat :=
  let x := ringGet s (sub - 1)
  match index with
  | 0x7002 => some (s.obs.tally.snapshot % 2 ^ 32)
  | 0x7005 => some (leNat (tallyBlock s sess (param s sess 0x7004 0)))
  | 0x7010 => some (Tbl.get s.obs.priv (sub - 1) 0)
  | 0x7011 => some s.obs.sticky
  | 0x7022 =>
    if sub = 2 then
      let c := param s sess 0x7022 1
      some (if chained s c then Tbl.get s.obs.counters c 0 else counterValue s c)
    else none
  | 0x7104 => some x.lost
  | 0x7107 => some x.head
  | 0x710A => some (if x.marked then x.markSeq else 2 ^ 31)
  | 0x710D => some x.released
  | 0x7201 => if sub = 2 then some (leNat (boltBlock s (param s sess 0x7201 1))) else none
  | 0x7204 => some s.obs.bolt.state
  | 0x7F02 => some (b2n s.vault.debugOpen)
  | 0x7F04 => some (Config.fwPublicKey (sub - 1) % 2 ^ 776)
  | 0x7F05 => some (s.vault.debugNonce % 2 ^ 64)
  | 0x7F06 => some s.vault.debugTries
  | 0x7F10 => some (Tbl.get s.cfg (key 0x7F10 0) (Config.makerTrim % 2 ^ 2048))
  | 0x7F21 => some (vaultStatus s)
  | 0x7F22 => some s.vault.wrapEpoch
  | _ => none

def statusValue (s : State) (sess index sub : Nat) : Option Nat :=
  match index / 4096 with
  | 1 | 2 => statusLow s sess index sub
  | 3 => statusPorts s sess index sub
  | 4 => statusFabric s sess index sub
  | 5 | 6 => statusGuards s sess index sub
  | 7 => statusHigh s sess index sub
  | _ => none

/-- The reserved bits of an object, as stretches of a first bit and a width (R6): they are ignored when written and read 0. -/
def reservedBits (index sub : Nat) : List (Nat × Nat) :=
  match index with
  | 0x3002 | 0x5104 => [(4, 28)]
  | 0x3204 => [(8, 24)]
  | 0x5001 => if 3 ≤ sub then [(0, 46)] else []
  | 0x5010 => [(4, 11)]
  | 0x6010 => [(32, 32), (128, 109)]
  | 0x6011 => [(128, 56)]
  | 0x6020 | 0x6027 | 0x6028 | 0x6029 => [(16, 22)]
  | 0x6021 => [(0, 1), (8, 24)]
  | _ => []

/-- A value of an object with its reserved bits 0; bit 0 of WEFT_TC_ENABLE is always 1 (R107). -/
def plainValue (index sub v : Nat) : Nat :=
  let w := (reservedBits index sub).foldl (fun w (r : Nat × Nat) => putBits w r.1 r.2 0) v
  if index = 0x3204 then putBits w 0 1 1 else w

/-- A per-port array of R107 or R143 at a port of another kind: it reads 0 there. -/
def foreignPort (s : State) (index sub : Nat) : Bool :=
  if (0x3101 ≤ index && index ≤ 0x3108) || index = 0x3111 then !isWarp s (sub - 1)
  else if 0x3201 ≤ index && index ≤ 0x320B then !isWeft s (sub - 1)
  else false

/-- The value of an object as a session reads it (R451): a KEY object reads zero. -/
def objectValue (s : State) (sess : Nat) (r : ObjRow) (index sub : Nat) : Nat :=
  if r.typ = 12 || foreignPort s index sub then 0
  else
    plainValue index sub (match statusValue s sess index sub with
      | some v => v
      | none => if r.kind = .param then param s sess index sub else cfgv s index sub)

/-! ### Strings and capability records -/

/-- The bytes of a STRING object (R485). -/
def stringValue (sub : Nat) : List Byte :=
  match sub with
  | 1 => ascii "Sucheha Integrated"
  | 2 => ascii "Esnyx"
  | 3 => if Config.f48 then ascii "ESX-256-F48" else ascii "ESX-256-F24"
  | 4 => ascii "stepping " ++ leBytes 2 Config.steppingMark
  | _ => leBytes 16 Config.serial

/-- An array's sub-index 0 (R449): its count. -/
def arrayCount (index : Nat) : Option Nat :=
  if objTable.any fun r => r.index = index && r.lo = 1 && 1 < r.hi then some (objCount index) else none

/-- What a read of an object finds in the dictionary: status, type code, flags and bytes. `sess` 0 is no session. -/
structure ReadItem where
  status : Nat
  typ : Nat := 0
  flags : Nat := 0
  bytes : List Byte := []
  deriving DecidableEq, Repr

/-- The session has a different value of the object in its pending set. -/
def isPending (s : State) (sess k v : Nat) : Bool :=
  match sessionOf s sess with
  | some x => x.staged.any fun i => i.1 = k && i.2 ≠ v
  | none => false

/-- The key under which the pending set and the store hold an object: with its selectors where it has some. -/
def selectedKey (s : State) (sess index sub : Nat) : Nat :=
  if index = 0x5001 && sub = 3 then regionKey (param s sess 0x5001 1) (param s sess 0x5001 2)
  else if index = 0x4210 && sub = 2 then pairKey (param s sess 0x4210 1)
  else key index sub

/-- A read that a rule of the object's chapter refuses (R513, R529, CTR_VALUE). -/
def readRefusal (s : State) (sess index sub : Nat) : Nat :=
  if index = 0x7201 && sub = 2 then
    (if s.obs.bolt.state = 1 && param s sess 0x7201 1 < 0x0C000000 then 5 else 0)
  else if index = 0x7022 && sub = 2 then
    let c := param s sess 0x7022 1
    match sessionVs s sess with
    | some v => if !mailboxCounter s v c then 3 else if chained s c && c % 2 = 1 then 5 else 0
    | none => if chained s c && c % 2 = 1 then 5 else 0
  else 0

/-- Read one object (R451 to R453, R461, R484). -/
def readObject (s : State) (sess index sub : Nat) : ReadItem :=
  let pub := publicObject index
  if sess = 0 && !pub then { status := 3 }
  else
    match capRead Config.f48 index sub with
    | some (t, v) => { status := 0, typ := t, bytes := leBytes (typeBytes t 0) v }
    | none =>
      match objRow index sub with
      | none =>
        if sub = 0 then
          match arrayCount index with
          | some n => { status := 0, typ := 1, bytes := leBytes 1 n }
          | none => { status := 2 }
        else { status := 2 }
      | some r =>
        let role := sessionRole s sess
        let reach := match sessionOf s sess with
          | some x => mailboxReaches x index sub
          | none => true
        if sess ≠ 0 && (!r.mayRead role || !reach) then { status := 3 }
        else
          let st := readRefusal s sess index sub
          if st ≠ 0 then { status := st }
          else if r.typ = 10 then { status := 0, typ := 10, bytes := stringValue sub }
          else
            let v := objectValue s sess r index sub
            { status := 0, typ := r.typ
              flags := b2n (isPending s sess (selectedKey s sess index sub) v) + 2 * b2n (decide (r.typ = 12))
              bytes := leBytes (typeBytes r.typ r.len) v }

/-- What reading an object changes: peaks restart from the present value, and COUNT of a denial log returns to 0. -/
def afterRead (s : State) (index sub : Nat) : State :=
  if index = 0x4005 then { s with loom := { s.loom with freeMin := some (sharedFree s) } }
  else if index = 0x4205 && sub = 4 then { s with shu := { s.shu with peak := s.shu.ledger.length } }
  else if index = 0x4302 && sub = 4 then { s with win := { s.win with postPeak := s.win.posting.length } }
  else if index = 0x5003 then
    { s with hed := { s.hed with denied := Tbl.modify s.hed.denied (sub - 1) fun l => { l with count := 0 } } }
  else s

end Sys2Proof.Machine
end

