-- ==== Sys2Proof/Machine/Observe.lean ====
section
/-!
DEFINITION. The tally reader, the spool's commands and deadlines, and the bolt (chapter 20, R517 to R533).
-/

namespace Sys2Proof.Machine

/-! ### Tally (R517 to R519) -/

/-- An image of every counter as it stands. -/
def capture (s : State) (number : Nat) : TallyImage :=
  { number := number % 2 ^ 32, launch := s.ft % 2 ^ 64, period := cfgv s 0x7001 0, locked := s.fab.locked
    counters := (List.range 9216).filterMap fun c => if counterValue s c = 0 then none else some (c, counterValue s c)
    priv := s.obs.priv, sticky := s.obs.sticky }

def setTally (s : State) (y : Tally) : State := { s with obs := { s.obs with tally := y } }

/-- TALLY_SNAPSHOT_LAUNCH (R517): FT_NOW has crossed a whole multiple of TALLY_PERIOD. -/
def tallySnapshotLaunch (s : State) : State :=
  let y := s.obs.tally
  let per := cfgv s 0x7001 0
  if coreRuns s && y.flight.isNone && y.lastFt / per < s.ft / per then
    setTally s { y with launched := y.launched + 1, flight := some (capture s (y.launched + 1)), flightSince := s.now, lastFt := s.ft }
  else s
def execTallySnapshotLaunch (s : State) : Host.Outcome State Fault Refusal := .next (tallySnapshotLaunch s)

/-- TALLY_IMAGE_COMPLETE (R517): TALLY_SNAPSHOT reads the image's number; it is readable unless a hold lasts. -/
def tallyImageComplete (s : State) : State :=
  let y := s.obs.tally
  match y.flight with
  | none => s
  | some m =>
    let y := { y with snapshot := m.number, flight := none }
    setTally s (if y.hold.isSome then { y with behind := some m } else { y with image := some m })
def execTallyImageComplete (s : State) : Host.Outcome State Fault Refusal := .next (tallyImageComplete s)

/-- The effect of TALLY_HOLD (R519): 1 freezes the image unless it is frozen already, 0 releases it. -/
def actTallyHold (sess value : Nat) (s : State) : State :=
  let y := s.obs.tally
  if value = 1 then (if y.hold.isSome then s else setTally s { y with hold := some sess, holdSince := s.now })
  else releaseHold s
def execTallyHold (sess value : Nat) (s : State) : Host.Outcome State Fault Refusal :=
  .next (actWrite s sess 0x7003 0 value 0 id (actTallyHold sess value))

/-- TALLY_HOLD_TIMEOUT (R519): 1 s after it began. -/
def tallyHoldTimeout (s : State) : State :=
  match s.obs.tally.hold with
  | some n => if elapsed s s.obs.tally.holdSince sec then event (releaseHold s) 0x0B48 0 (n % 65536) else s
  | none => s
def execTallyHoldTimeout (s : State) : Host.Outcome State Fault Refusal := .next (tallyHoldTimeout s)

/-! ### Spool (R521 to R526) -/

/-- SPOOL_DELIVERY_DEADLINE (R521): what the ring holds is written as a partial line. -/
def spoolDeliveryDeadline (r : Nat) (s : State) : State :=
  let x := ringGet s r
  if !x.held.isEmpty && x.armed && ringEnabled s r && ringMaster s r then writeLine s r false else s
def execSpoolDeliveryDeadline (r : Ring) (s : State) : Host.Outcome State Fault Refusal := .next (spoolDeliveryDeadline r.val s)

/-- How a written LINE_SEQ stands to the ring (R522): 0 releases, 5 at or after SPOOL_HEAD, 1 at or before SPOOL_RELEASED. -/
def releaseKind (x : RingState) (v : Nat) : Nat :=
  let v := v % 2 ^ 24
  let d := (v + 2 ^ 24 - x.released) % 2 ^ 24
  if 1 ≤ d && d ≤ unreleased x then 0
  else if (v + 2 ^ 24 - x.head) % 2 ^ 24 < 2 ^ 23 then 5
  else 1

/-- The effect of SPOOL_RELEASE (R522). -/
def actSpoolRelease (r value : Nat) (s : State) : State :=
  let x := ringGet s r
  if releaseKind x value = 0 then ringSet s r { x with released := value % 2 ^ 24 } else s
def execSpoolRelease (sess : Nat) (r : Ring) (value : Nat) (s : State) : Host.Outcome State Fault Refusal :=
  .next (actWrite s sess 0x7108 (r.val + 1) value (if releaseKind (ringGet s r.val) value = 5 then 5 else 0) id (actSpoolRelease r.val value))

/-- A ring's own record: of the partition whose ring it is. -/
def ringRecord (s : State) (r code info : Nat) : EventRec :=
  { code := code, part := if r < 32 then some r else none, toInst := 32 ≤ r, time := eventTime s, info := info }

/-- The effect of SPOOL_MARK 1 (R524): the mark record closes the current line. -/
def actSpoolMark (r : Nat) (s : State) : State :=
  let x := ringGet s r
  let e := ringRecord s r 0x0B41 (r + 1 + at_ 8 ((x.markCount + 1) % 2 ^ 24))
  if ringDrops s r then ringPut s r e
  else
    let e := { e with lost := x.lostPending }
    let s := ringSet s r { x with held := x.held ++ [e], lostPending := false, markSeq := x.head, marked := true, markGone := false,
                                  markCount := x.markCount + 1 }
    let s := { s with obs := { s.obs with history := (s.obs.history ++ [e]).drop (s.obs.history.length - 16383) } }
    writeLine s r true
def execSpoolMark (sess : Nat) (r : Ring) (value : Nat) (s : State) : Host.Outcome State Fault Refusal :=
  .next (actWrite s sess 0x7109 (r.val + 1) value 0 id (onOne value (actSpoolMark r.val)))

/-- The effect of SPOOL_REWIND 1 (R524). -/
def actSpoolRewind (r : Nat) (s : State) : State :=
  let x := ringGet s r
  ringSet s r { x with released := (x.markSeq + 2 ^ 24 - 1) % 2 ^ 24 }
def execSpoolRewind (sess : Nat) (r : Ring) (value : Nat) (s : State) : Host.Outcome State Fault Refusal :=
  .next (actWrite s sess 0x710B (r.val + 1) value (if value = 1 && (!(ringGet s r.val).marked || (ringGet s r.val).markGone) then 5 else 0) id
    (onOne value (actSpoolRewind r.val)))

/-- Restart and arm a ring (R525): cause 1 command, 2 commit, 3 module reset. -/
def restartRing (s : State) (r cause : Nat) : State :=
  let x := ringGet s r
  let n := x.held.length
  let s := ringSet s r { x with armed := true, head := 0, released := 0xFFFFFF, markSeq := 0, marked := false, markGone := false, markCount := 0, held := [],
                                lost := (x.lost + n) % 2 ^ 32, drops := x.drops + n, lostPending := x.lostPending || n ≠ 0,
                                unsigLines := 0, unsigSince := none, lineRecs := [] }
  let s := ringPut s r (ringRecord s r 0x0B42 (r + 1 + at_ 8 cause))
  reportLoss s r false

def execSpoolRestart (sess : Nat) (r : Ring) (value : Nat) (s : State) : Host.Outcome State Fault Refusal :=
  .next (actWrite s sess 0x710C (r.val + 1) value 0 id (onOne value fun s => restartRing s r.val 1))

/-- SPOOL_INTR_TIMEOUT (R526): 100 µs after the oldest line not yet signalled. -/
def spoolIntrTimeout (r : Nat) (s : State) : State :=
  let x := ringGet s r
  if r < 32 && elapsedOpt s x.unsigSince (100 * us) && cfgv s 0x710F (r + 1) ≠ 0 then
    msi (ringSet s r { x with unsigLines := 0, unsigSince := none }) r 0 (cfgv s 0x710E (r + 1))
  else s
def execSpoolIntrTimeout (r : Ring) (s : State) : Host.Outcome State Fault Refusal := .next (spoolIntrTimeout r.val s)

/-! ### Sections of the bolt (R531, R532) -/

/-- A RESET record (R532) of a ledger entry. -/
def resetRecord (s : State) (e : LedgerEntry) (reason : Nat) : List Byte :=
  let x := connOf s e.cid
  let h := e.op.head
  let asks := e.typ ≤ 3 || e.typ = 5
  leBytes 32 (at_ 252 (e.typ % 16) + at_ 250 reason + at_ 249 (b2n x.twin) + at_ 248 (b2n e.mirrored) + at_ 234 (e.cid % 16384) +
    at_ 224 (x.peerMid % 1024) + at_ 192 (e.seq % 2 ^ 32) + at_ 176 (if asks then bits h 41 16 else 0) +
    at_ 135 (if asks then bits h 0 41 else 0) + at_ 122 (if asks then bits h 80 13 else e.op.data.length % 8192) + s.ft % 2 ^ 48)

def resetSection (s : State) (reason : Nat) : BoltSection :=
  { typ := 1, done := false, body := s.shu.ledger.flatMap fun r => resetRecord s r.2 reason }

/-- Objects that stand in the OBJECTS section: every one that has a value, the two 4 KiB reading windows apart. -/
def dumped (r : ObjRow) : Bool :=
  match r.kind with
  | .action | .param => false
  | _ => r.index ≠ 0x7201 && r.index ≠ 0x7005

/-- An object as the OBJECTS section gives it, padded to 4 bytes. -/
def dumpObject (s : State) (r : ObjRow) (sub : Nat) : List Byte :=
  let v := if r.typ = 10 then stringValue sub else leBytes (typeBytes r.typ r.len) (objectValue s 0 r r.index sub)
  let b := leBytes 2 r.index ++ leBytes 1 sub ++ leBytes 1 (b2n (decide (r.typ = 12))) ++ leBytes 2 v.length ++ v
  fitBytes (ceilDiv b.length 4 * 4) b

def objectsBody (s : State) : List Byte :=
  (objTable.filter dumped).flatMap fun r => (List.range (r.hi - r.lo + 1)).flatMap fun i => dumpObject s r (r.lo + i)

/-- The STATE section: the state changes the journal holds, FEED_STATUS of both feeds, the governor's ten objects and
SEL_FATAL_LAST. -/
def stateBody (s : State) : List Byte :=
  ((s.obs.journal.filter fun e => e.kind = 3).flatMap JournalEntry.bytes) ++ leBytes 4 s.power.a.status ++ leBytes 4 s.power.b.status ++
    ((List.range 10).flatMap fun i => leBytes 4 (((statusLow s 0 0x2100 (i + 1)).getD (cfgv s 0x2100 (i + 1))) % 2 ^ 32)) ++
    leBytes 1 s.module.fatalLast

/-- The TREADLE section: its bytes are free. -/
def treadleBody (s : State) : State × List Byte :=
  let n := freeValue s % 4096
  let s := afterFree s
  (afterFree s, leBytes (65536 + n) (freeValue s))

/-- The LOOM section: resident and spilled bobbins of each queue, SHARED_FREE, and both route banks. -/
def loomBody (s : State) : List Byte :=
  ((List.range 4160).flatMap fun q => leBytes 4 (queueBobbins s q true) ++ leBytes 4 (queueBobbins s q false)) ++
    leBytes 4 (sharedFree s) ++ ((List.range 1024).flatMap fun m => leBytes 16 (Tbl.get s.fab.active m {}).word) ++
    ((List.range 1024).flatMap fun m => leBytes 16 (Tbl.get s.fab.standby m {}).word)

def connectionsBody (s : State) : List Byte :=
  (s.shu.conns.filter fun r => r.2.st ≠ .idle).flatMap fun r => leBytes 2 r.1 ++ leBytes 6 0 ++ contextBytes s r.1

def windowsBody (s : State) : List Byte :=
  ((s.win.windows.filter fun r => r.2.st ≠ .free).flatMap fun r => leBytes 4 r.1 ++ leBytes 4 0 ++ leBytes 32 r.2.word) ++
    s.win.imports.flatMap fun r => leBytes 4 r.1 ++ leBytes 4 1 ++ leBytes 32 r.2.word

def heddlesBody (s : State) : List Byte :=
  ((List.range 130).flatMap fun h => (List.range 64).flatMap fun r => leBytes 32 (activeRegion s h r)) ++
    (List.range 64).flatMap fun i => leBytes 4 (activeMap s i)

def countersBody (s : State) : List Byte :=
  let s := setTally s { s.obs.tally with image := some (capture s s.obs.tally.launched), hold := none }
  (List.range 10).flatMap fun i => tallyBlock s 0 (4096 * i)

/-- Sections 2 to 12 as of the cause. -/
def boltSections (s : State) : State × List BoltSection :=
  let t := treadleBody s
  let sec_ (typ flags : Nat) (body : List Byte) : BoltSection := { typ := typ, flags := flags, body := body, done := false }
  (t.1,
    [sec_ 2 0 (s.obs.history.flatMap EventRec.bytes), sec_ 3 0 (stateBody s), sec_ 4 2 (objectsBody s), sec_ 5 0 t.2,
     sec_ 6 0 ((List.range 130).flatMap fun x => leBytes 32 ((statusGuards s 0 0x5101 (x + 1)).getD 0)), sec_ 7 0 (loomBody s),
     sec_ 8 0 (connectionsBody s), sec_ 9 0 (s.shu.ledger.flatMap fun r => leBytes 16 (ledgerWord s r.1 r.2)), sec_ 10 0 (windowsBody s),
     sec_ 11 0 (heddlesBody s), sec_ 12 0 (countersBody s)])

/-! ### The bolt's course (R529) -/

def setBolt (s : State) (b : Bolt) : State := { s with obs := { s.obs with bolt := b } }

/-- Begin a bolt: kind 1 FATAL, 2 WARM, 3 CAPTURE; `first` is the RESET section of a WARM bolt. -/
def boltStart (s : State) (kind cause : Nat) (before : ModState) (first : List BoltSection) : State :=
  let t := boltSections s
  setBolt t.1 { state := 1, number := (s.obs.bolt.number + 1) % 2 ^ 32, kind := kind, cause := cause, stateBefore := before.code
                time := s.ft % 2 ^ 64, since := s.now, sections := first ++ t.2, fwVersion := runningVersion s }

/-- A bolt of this kind is held when complete: WARM only with a RESET section that is not empty. -/
def Bolt.holds (b : Bolt) : Bool :=
  b.kind ≠ 2 || b.sections.any fun x => x.typ = 1 && !x.body.isEmpty

/-- The bolt is complete. -/
def boltDone (s : State) : State :=
  let b := s.obs.bolt
  if b.state ≠ 1 then s
  else
    let b := { b with state := if b.holds then 3 else 2, sections := b.sections.map fun x => { x with done := true } }
    event (setBolt s b) 0x0B44 0 (b.kind + at_ 8 b.cause + at_ 16 (b.sections.length % 65536))

/-- A later module-fatal error while a bolt is held: a LATER section, at most 8 of them. -/
def boltLater (s : State) (cause : Nat) (before : ModState) : State :=
  let b := s.obs.bolt
  let body := leBytes 1 cause ++ leBytes 7 0 ++ leBytes 8 (s.ft % 2 ^ 64) ++ leBytes 1 before.code ++ leBytes 15 0 ++
    (s.obs.history.drop (s.obs.history.length - 1024)).flatMap EventRec.bytes
  let n := (b.laters + 1) % 65536
  let b := if b.laterSections < 8 then
      { b with laters := n, laterSections := b.laterSections + 1, sections := b.sections ++ [{ typ := 13, body := body }] }
    else { b with laters := n }
  event (setBolt s b) 0x0B46 0 (cause % 256 + at_ 16 n)

/-- A warm reset's RESET section: appended to a held bolt or to a FATAL bolt being written, else the first of a WARM bolt. -/
def boltReset (s : State) (cause reason : Nat) (before : ModState) : State :=
  let sect := resetSection s reason
  let b := s.obs.bolt
  if b.state = 3 then setBolt s { b with sections := b.sections ++ [{ sect with done := true }] }
  else if b.state = 1 && b.kind = 1 then setBolt s { b with sections := b.sections ++ [sect] }
  else boltStart s 2 cause before [sect]

/-- The effect of BOLT_CAPTURE 1. -/
def actBoltCapture (s : State) : State := boltStart s 3 0 s.module.state []

/-- A capture is refused while a bolt is held or being written (R529). -/
def boltCaptureCheck (s : State) : Nat := if s.obs.bolt.state = 1 || s.obs.bolt.state = 3 || !coreRuns s then 5 else 0

def execBoltCapture (sess value : Nat) (s : State) : Host.Outcome State Fault Refusal :=
  .next (actWrite s sess 0x7203 0 value (if value = 1 then boltCaptureCheck s else 0) id (onOne value actBoltCapture))

/-- The effect of BOLT_RELEASE 1: the bolt may be written over. -/
def actBoltRelease (s : State) : State :=
  event (setBolt s { s.obs.bolt with state := 2 }) 0x0B45 0 s.obs.bolt.number
def execBoltRelease (sess value : Nat) (s : State) : Host.Outcome State Fault Refusal :=
  .next (actWrite s sess 0x7202 0 value (if value = 1 && s.obs.bolt.state ≠ 3 then 5 else 0) id (onOne value actBoltRelease))

/-- BOLT_SECTION_TIMEOUT (R529): after 250 ms what is unfinished is cut where it stands. -/
def boltSectionTimeout (s : State) : State :=
  let b := s.obs.bolt
  if b.state = 1 && elapsed s b.since (250 * ms) && b.sections.any (fun x => !x.done) then
    let n := freeValue s
    setBolt (afterFree s) { b with sections := b.sections.map fun x =>
      if x.done then x else { x with done := true, flags := x.flags / 2 * 2 + 1, body := x.body.take (n % (x.body.length + 1)) } }
  else s
def execBoltSectionTimeout (s : State) : Host.Outcome State Fault Refusal := .next (boltSectionTimeout s)

end Sys2Proof.Machine
end

