-- ==== Sys2Proof/Machine/Security.lean ====
section
/-!
DEFINITION. The key vault's own steps (chapter 19): the entropy test, zeroisation, the maker's unlock, signing-key
revocation, the test access port and IDE key programming.
-/

namespace Sys2Proof.Machine

/-! ### Entropy (R494) -/

/-- ENTROPY_FAULT (R494): the vault issues nothing. The event is written when the spool is running. -/
def entropyFault (s : State) : State :=
  if s.vault.entropyOk && s.module.state ≠ .off then
    let s := { s with vault := { s.vault with entropyOk := false } }
    if s.obs.live then event s 0x0B26 0 1 else s
  else s
def execEntropyFault (s : State) : Host.Outcome State Fault Refusal := .next (entropyFault s)

/-- ENTROPY_RECOVERED (R494). -/
def entropyRecovered (s : State) : State :=
  if !s.vault.entropyOk && s.module.state ≠ .off then
    let s := { s with vault := { s.vault with entropyOk := true } }
    if s.obs.live then event s 0x0B26 0 0 else s
  else s
def execEntropyRecovered (s : State) : Host.Outcome State Fault Refusal := .next (entropyRecovered s)

/-! ### Zeroisation (R495) -/

/-- A context without its keys. -/
def Conn.keyless (x : Conn) : Conn := { x with keys := none, oldKeys := none }

/-- Step 1: every item that is not fused is erased; IDE keys go with cause 4. -/
def eraseVault (s : State) : State :=
  let s := (List.range 128).foldl (fun s p => discardIde s p 4) s
  { s with vault := { s.vault with beamKey := none, secrets := [], ide := [], zeroised := true }
           shu := { s.shu with conns := s.shu.conns.map fun r => (r.1, r.2.keyless), linkKeys := [] } }

/-- ZEROISE (R495): kind 1 by the maker's unlock, 2 by VAULT_ZEROISE. The role secrets stand at their shipping values, which
are what the table of secrets gives when it holds none. What the beam holds can no longer be read, the bolt included. -/
def zeroise (s : State) (kind : Nat) : State :=
  let s := eraseVault s
  let s := { s with vault := { s.vault with wrapEpoch := (s.vault.wrapEpoch + 1) % 2 ^ 32 } }
  let s := { s with beam := [], obs := { s.obs with bolt := { number := s.obs.bolt.number } } }
  let s := endSessions s (fun _ => true) 6
  event (privCount s 8) 0x0B22 0 (kind + at_ 32 s.vault.wrapEpoch)

/-- A role's secret (R454): the one written, else the shipping value. -/
def roleSecret (s : State) (role : Nat) : List Byte :=
  leBytes 32 (Tbl.get s.vault.secrets (key 0x1101 role) (Config.shippingSecret role).toNat)

/-! ### Maker unlock (R499, R500) -/

/-- The token that opens the debug access port. -/
def unlockToken (s : State) : List Byte :=
  (hmac384 (leBytes 32 Config.makerUnlockKey.toNat) (ascii "ESX-DBG1" ++ leBytes 16 Config.serial ++ leBytes 8 s.vault.debugNonce)).take 32

/-- Why a token is refused: 2 the module's state, 3 three tries used, 1 wrong; 0 when it opens. -/
def unlockCause (s : State) (token : Nat) : Nat :=
  if s.module.state ≠ .test && s.module.state ≠ .halted then 2
  else if 3 ≤ s.vault.debugTries then 3
  else if leBytes 32 token = unlockToken s then 0
  else 1

/-- A new nonce for the debug port. -/
def newDebugNonce (s : State) : State :=
  afterDraw { s with vault := { s.vault with debugNonce := (drawn s).toNat % 2 ^ 64 } }

/-- A refused token (R499): a wrong one costs a try; each is followed by a new nonce. -/
def unlockRefused (s : State) (cause : Nat) : State :=
  let s := if cause = 1 then privCount { s with vault := { s.vault with debugTries := s.vault.debugTries + 1 } } 7 else s
  newDebugNonce (event s 0x0B21 0 (cause + at_ 8 s.vault.debugTries))

/-- DEBUG_UNLOCK (R500): steps 3 and 4, after the journal entry and the final answer. -/
def debugUnlock (s : State) (sess : Nat) : State :=
  let s := zeroise s 1
  event { s with vault := { s.vault with debugOpen := true } } 0x0B20 0 (sess % 65536)

/-! ### Signing keys (R501) -/

def keyRevoked (s : State) (slot : Nat) : Bool := cfgOn s 0x7F03 (slot + 1)

/-! ### Test access port (R497) -/

/-- The states in which EXTEST, CLAMP and HIGHZ act. -/
def scanStates (s : State) : Bool :=
  match s.module.state with
  | .keeper | .feedsUp | .coreOn | .test | .halted => true
  | _ => false

/-- The code by which event 0x0B23 names an instruction; 0 for one that acts in every state. -/
def tapCode : TapInstr → Nat
  | .extest => 1 | .clamp => 2 | .highz => 3
  | .bypass | .idcode | .samplePreload => 0

/-- TAP_INSTRUCTION (R497). -/
def tapInstruction (t : TapInstr) (s : State) : State :=
  if tapCode t = 0 || scanStates s then { s with vault := { s.vault with tap := t } }
  else
    let s := privCount { s with vault := { s.vault with tap := .bypass } } 9
    event s 0x0B23 0 (tapCode t + at_ 8 s.module.state.code)
def execTapInstruction (t : TapInstr) (s : State) : Host.Outcome State Fault Refusal := .next (tapInstruction t s)

/-! ### IDE keys (R141, R502) -/

/-- Link streams of a port with keys: every stream of it that is not selective. -/
def linkStreams (s : State) (p : Nat) : Nat :=
  (s.vault.ide.filter fun r => r.1 / 65536 = p && !s.warp.ideSel.contains (p, r.1 % 65536)).length

/-- A stream's keys may be placed: the port is a warp port of an enabled partition with its link up, and a stream context is
free (128 link streams, one a port; 256 selective). -/
def ideRoom (s : State) (p stream : Nat) (selective : Bool) : Bool :=
  if selective then s.warp.ideSel.contains (p, stream) || s.warp.ideSel.length < 256
  else (Tbl.find? s.vault.ide (ideKey p stream)).isSome || linkStreams s p = 0

/-- IDE_KM_KEY_PROG (R502): the keys go straight into the vault. -/
def ideKmKeyProg (p stream : Nat) (selective : Bool) (keys : List Byte) (s : State) : State :=
  match portPart s p with
  | some v =>
    if isWarp s p && partEnabled s v && (warpPort s p).st = .active && stream < 256 then
      if ideRoom s p stream selective then
        { s with vault := { s.vault with ide := Tbl.set s.vault.ide (ideKey p stream) keys }
                 warp := { s.warp with ideSel :=
                   if selective && !s.warp.ideSel.contains (p, stream) then s.warp.ideSel ++ [(p, stream)] else s.warp.ideSel } }
      else eventIn s (some v) 0x030D 0 (p + at_ 16 stream)
    else s
  | none => s
def execIdeKmKeyProg (p : Port) (stream : Nat) (selective : Bool) (keys : List Byte) (s : State) : Host.Outcome State Fault Refusal :=
  .next (ideKmKeyProg p.val stream selective keys s)

end Sys2Proof.Machine
end

