-- ==== Sys2Proof/Machine/Commit.lean ====
section
/-!
DEFINITION. Commits of the dictionary (R471 to R475): the checks of each chapter on a pending set, the claims, the journal,
the stored configuration, and what a committed value does in its block.
-/

namespace Sys2Proof.Machine

/-! ### Objects as a pending set names them -/

def keyIndex (k : Nat) : Nat := k / 256 % 65536
def keySub (k : Nat) : Nat := k % 256

/-- The selector part of a key: heddle and region, or peer MID. -/
def keySelector (k : Nat) : Nat := k / 2 ^ 24 - 1

def isKeyObject (k : Nat) : Bool :=
  match objRow (keyIndex k) (keySub k) with
  | some r => r.typ = 12
  | none => false

/-- VAULT_ZEROISE and DEBUG_UNLOCK act at their commit and store nothing. -/
def actsAtCommit (k : Nat) : Bool := keyIndex k = 0x7F20 || keyIndex k = 0x7F01

/-- The value of an object under its key in a state. -/
def keyValue (s : State) (k : Nat) : Nat :=
  if actsAtCommit k then 0
  else if isKeyObject k then Tbl.get s.vault.secrets k 0
  else if k = key 0x7F10 0 then Tbl.get s.cfg k (Config.makerTrim % 2 ^ 2048)
  else Tbl.get s.cfg k (objDefault (keyIndex k) (keySub k))

/-- A state in which an object has a value, for the checks of what a set would leave. -/
def planned (w : State) (k v : Nat) : State :=
  if actsAtCommit k then w
  else if isKeyObject k then { w with vault := { w.vault with secrets := Tbl.set w.vault.secrets k v } }
  else setCfg w k v

/-- The values that a set is judged on: those in force; in CONFIG and TEST those stored (R433, R435). -/
def planBase (s : State) : State :=
  match s.module.state with
  | .config | .test => { s with cfg := s.flash }
  | _ => s

/-- Why a commit is refused: status, the refused object, and for status 6 the holder. -/
structure Refused where
  status : Nat
  obj : Nat
  holder : Nat := 0
  deriving DecidableEq, Repr

/-! ### Rules on a change, in the state the earlier items leave -/

def portOff (w : State) (p : Nat) : Bool := personality w p = 0

/-- The first port of the octets that is enabled, the ports in `opened` apart (R70). -/
def octetBusy (w : State) (opened : List Nat) (os : List Nat) : Option Nat :=
  (os.flatMap fun o => (List.range 4).map fun j => 4 * o + j).find? fun p => !portOff w p && !opened.contains p

/-- The octets that a change of octet `o` involves: the pair for an x16 split. -/
def octetsOf (w : State) (o : Nat) (sp : Nat) : List Nat :=
  if sp = 5 || split w o = 5 then [o / 2 * 2, o / 2 * 2 + 1] else [o]

/-- R70 for the octet of a port. -/
def octetRule (w : State) (opened : List Nat) (o sp : Nat) : Option Refused :=
  match octetBusy w opened (octetsOf w o sp) with
  | some p => some { status := 5, obj := key 0x3003 (p + 1) }
  | none => none

/-- Refuse the object itself unless a condition holds. -/
def unless_ (c : Bool) (k : Nat) : Option Refused := if c then none else some { status := 5, obj := k }

/-- The rules of chapters 3 to 6 on a change. `opened` are the ports that earlier items of the set have enabled: R70 lets one set give
the ports of an octet their new personalities one after the other. DEDUCED (log entry 122): another port's new personality is not
refused for them. -/
def changePorts (w : State) (opened : List Nat) (k v : Nat) : Option Refused :=
  let sub := keySub k
  let p := sub - 1
  match keyIndex k with
  | 0x3001 => octetRule w [] p v
  | 0x3002 => octetRule w [] p (split w p)
  | 0x3003 => if v = 0 then none else octetRule w (opened.filter (· ≠ p)) (p / 4) (split w (p / 4))
  | 0x3004 => octetRule w [] (p / 4) (split w (p / 4))
  | 0x3101 | 0x3102 | 0x3107 | 0x3204 | 0x3205 | 0x3206 => unless_ (portOff w p) (key 0x3003 sub)
  | 0x3302 => unless_ (!partEnabled w p) (key 0x3301 sub)
  | 0x4001 | 0x4002 =>
    if sub ≤ 128 then unless_ (portOff w p) (key 0x3003 sub)
    else if sub = 129 then unless_ (w.module.state = .config || w.module.state = .test) k
    else unless_ (!cfgOn w 0x6001 0) (key 0x6001 0)
  | 0x4021 =>
    if sub = 1 then
      if !w.loom.beamLedger.isEmpty then some { status := 5, obj := key 0x4021 1 }
      else if !w.loom.spillAt.isEmpty then some { status := 5, obj := key 0x4021 2 } else none
    else none
  | 0x4100 =>
    if sub = 1 then
      match (List.range 128).find? fun q => isWeft w q with
      | some q => some { status := 5, obj := key 0x3003 (q + 1) }
      | none => none
    else none
  | _ => none

/-- The rules of the other chapters on a change. -/
def changeRest (w : State) (role k v : Nat) : Option Refused :=
  let sub := keySub k
  match keyIndex k with
  | 0x1330 => unless_ (cfgv w 0x1330 1 ≤ v || role = 3) k
  | 0x2005 =>
    let other := if sub = 1 then w.power.b else w.power.a
    if v = 0 then unless_ ((other.st = .good && cfgOn w 0x2005 (3 - sub)) || w.module.state = .keeper) k else none
  | 0x4407 => unless_ ((admOf w (sub - 1)).vfs = 0) k
  | 0x5001 => unless_ (!lockedRegion (keySelector k / 64) (keySelector k % 64)) k
  | 0x6002 | 0x6004 | 0x6010 | 0x6011 => unless_ (!cfgOn w 0x6001 0) k
  | 0x6005 => if sub = 2 then unless_ (!cfgOn w 0x6001 0) k else none
  | 0x6013 | 0x6014 => unless_ (!partEnabled w (sub - 1)) k
  | 0x7F03 =>
    if v = 0 then unless_ (!cfgOn w 0x7F03 sub) k
    else unless_ ((List.range 4).any fun i => i + 1 ≠ sub && !keyRevoked w i) k
  | _ => none

/-- The item belongs to the port's other kind: an object of R143 at a weft or twin port, or one of R107 at a warp port. DEDUCED (log entry
121): a disabled port takes both, since R46 and R143 let some of them change only while the port is disabled. -/
def otherKind (w : State) (k : Nat) : Bool :=
  let p := keySub k - 1
  match keyIndex k with
  | 0x3101 | 0x3102 | 0x3106 | 0x3107 => isWeft w p
  | 0x3203 | 0x3204 | 0x3205 | 0x3206 => isWarp w p
  | _ => false

/-- The rules on an item that is written, changed or not. -/
def itemRule (w : State) (k v : Nat) : Option Refused :=
  match keyIndex k with
  | 0x7F20 => if v = 1 then unless_ (w.module.state = .config || w.module.state = .test) k else none
  | 0x7F01 => unless_ (unlockCause w v = 0) k
  | _ => unless_ (!(isKeyObject k && w.vault.debugOpen)) k

/-- Rule 1 and 2 for the items of a set in turn; the state they leave. -/
def checkItems (role : Nat) : List (Nat × Nat) → List Nat → State → Option Refused × State
  | [], _, w => (none, w)
  | (k, v) :: is, opened, w =>
    let own := match objRow (keyIndex k) (keySub k) with
      | some r => r.inRange v
      | none => false
    if !own then (some { status := 4, obj := k }, w)
    else
      match (if otherKind w k then some { status := 5, obj := k } else itemRule w k v) with
      | some r => (some r, w)
      | none =>
        let bad := if keyValue w k = v then none else
          match changePorts w opened k v with
          | some r => some r
          | none => changeRest w role k v
        match bad with
        | some r => (some r, w)
        | none => checkItems role is
            (if keyIndex k = 0x3003 && v ≠ 0 && keyValue w k = 0 then (keySub k - 1) :: opened else opened) (planned w k v)

/-! ### Rules on what a set leaves -/

/-- The first element of a list that breaks a rule, as a refusal of the object it names. -/
def firstBad (xs : List Nat) (bad : Nat → Bool) (obj : Nat → Nat) : Option Refused :=
  match xs.find? bad with
  | some x => some { status := 5, obj := obj x }
  | none => none

/-- Bobbins a weft port's credits need of its reservation (R94). -/
def creditBobbins (w : State) (p : Nat) : Nat :=
  popCount 8 (tcEnable w p) * ceilDiv (cfgv w 0x3206 (p + 1) + 3 * cfgv w 0x3205 (p + 1)) 4

/-- A port whose personality, width, slot or rate matches no row of R46. -/
def portMisfit (w : State) (p : Nat) : Bool :=
  match personality w p, portLanes w p with
  | 0, _ => false
  | _, none => true
  | 1, some _ => 6 < cfgv w 0x3004 (p + 1)
  | 2, some (_, n) => !(n = 4 || n = 8 || n = 16) || p % 2 ≠ 0 || 1 < cfgv w 0x3004 (p + 1)
  | _, some (_, n) => n ≠ 16 || 1 < cfgv w 0x3004 (p + 1)

/-- The enabled ports that use quad `q`, lanes 4q to 4q + 3. -/
def quadPorts (w : State) (q : Nat) : List Nat :=
  ([q / 2, q / 2 / 2 * 2].eraseDups.flatMap fun o => (List.range 4).map fun j => 4 * o + j).filter fun p => !portOff w p &&
    (match portLanes w p with
      | some (b, n) => b < 4 * q + 4 && 4 * q < b + n
      | none => false)

def quadMixed (w : State) (q : Nat) : Bool :=
  let ps := quadPorts w q
  ps.any (fun p => isWarp w p) && ps.any fun p => isWeft w p

/-- The upstream ports of a partition: local ones, and an imported one as 128 (R115). -/
def upstreams (w : State) (v : Nat) : List Nat :=
  ((List.range 128).filter fun p => isWarp w p && cfgv w 0x3101 (p + 1) = v && cfgv w 0x3102 (p + 1) = 1) ++
    (if bit (cfgv w 0x3302 (v + 1)) 31 then [128] else [])

/-- Rules of the lanes, the links and the partitions on what a set leaves. -/
def finalPorts (w : State) : List (Option Refused) :=
  let ports := List.range 128
  let twins := ports.filter fun p => isTwinPort w p
  let badVs := (List.range 32).find? fun v => partEnabled w v && (upstreams w v).length ≠ 1
  [firstBad (List.range 32) (fun o => split w o = 5 && (o % 2 = 1 && split w (o - 1) ≠ 5 || o % 2 = 0 && split w (o + 1) ≠ 5)) fun o => key 0x3001 (o + 1),
   firstBad ports (portMisfit w) fun p => key 0x3003 (p + 1),
   firstBad (twins.drop 2) (fun _ => true) fun p => key 0x3003 (p + 1),
   firstBad (List.range 64) (quadMixed w) fun q => key 0x3003 ((quadPorts w q).headD 0 + 1),
   match badVs with
    | none => none
    | some v =>
      match (upstreams w v)[1]? with
      | some p => some { status := 5, obj := if p < 128 then key 0x3102 (p + 1) else key 0x3302 (v + 1) }
      | none => some { status := 5, obj := key 0x3301 (v + 1) },
   firstBad (List.range 32) (fun n => cfgv w 0x3121 (n + 1) ≠ 255 && cfgv w 0x3122 (n + 1) = 255) fun n => key 0x3121 (n + 1)]

/-- Rules of the loom and the shuttle on what a set leaves. `named` is the object that a rule on a sum names. -/
def finalLoom (w : State) (named : Nat → Nat) : List (Option Refused) :=
  let reserve (x : Nat) : Nat := cfgv w 0x4001 (x + 1)
  let sumReserve := ((List.range 130).map reserve).sum
  [firstBad (List.range 128) (fun p => (isWeft w p && reserve p < creditBobbins w p) ||
      (isWarp w p && reserve p < ceilDiv (195 * cfgv w 0x3107 (p + 1)) 10)) fun p => key 0x4001 (p + 1),
   if 393216 < sumReserve + 4096 then some { status := 5, obj := named 0x4001 } else none,
   if cfgv w 0x4020 3 ≤ cfgv w 0x4020 2 then some { status := 5, obj := named 0x4020 } else none,
   if cfgv w 0x4202 2 < cfgv w 0x4202 1 then some { status := 5, obj := key 0x4202 1 } else none,
   if 2048 < ((List.range 32).map fun v => cfgv w 0x4401 (v + 1)).sum then some { status := 5, obj := named 0x4401 } else none,
   match pendingOffence w with
    | none => none
    | some d => some { status := 5, obj := if bits d 8 8 = 255 then key 0x5010 (bits d 0 8 + 1) else regionKey (bits d 8 8) (bits d 0 8) },
   if cfgOn w 0x5201 0 && (cfgv w 0x4100 1 = 65535 || cfgv w 0x5203 0 = cfgv w 0x4100 1 || !((List.range 128).any fun p => isTwinPort w p) ||
      !secretSet w (pairKey (cfgv w 0x5203 0))) then some { status := 5, obj := key 0x5201 0 } else none]

/-- The width of a VME space in address bits. -/
def spaceBits (sp : Nat) : Nat :=
  match sp with
  | 0 => 16 | 1 => 24 | 2 => 32 | _ => 64

/-- An outbound window that R382 refuses. -/
def outWindowBad (w : Nat) : Bool :=
  let sp := bits w 253 2
  let crcsr := bit w 252
  let n := bits w 237 6
  let dw := bits w 248 2
  let burst := bits w 246 2
  let vme := bits w 64 64
  let out := bits w 0 32
  bit w 255 &&
    (n < 12 || 32 < n || ((sp = 0 || crcsr) && 16 < n) || (sp = 1 && 24 < n) || vme % 2 ^ n ≠ 0 || out % 2 ^ n ≠ 0 ||
      2 ^ spaceBits sp < vme + 2 ^ n || 2 ^ 32 < out + 2 ^ n || (crcsr && sp ≠ 1) || ((sp = 0 || crcsr) && (burst ≠ 0 || dw = 3)) ||
      (dw = 3 && burst ≠ 2) || (burst = 2 && dw ≠ 3) || burst = 3)

/-- An inbound window that R388 refuses. -/
def inWindowBad (s : State) (w : Nat) : Bool :=
  let sp := bits w 252 2
  let n := bits w 235 6
  let vme := bits w 64 64
  bit w 255 &&
    (n < 12 || (if sp = 3 then 40 < n else spaceBits sp < n) || vme % 2 ^ n ≠ 0 || 2 ^ spaceBits sp < vme + 2 ^ n ||
      (sp = 0 && (bit w 248 || bit w 247)) || !(bit w 251 || bit w 250) ||
      (if bit w 254 then
        (match Tbl.find? s.shu.conns (bits w 216 14) with
          | some x => x.ownerKind ≠ 1
          | none => true) || bits w 41 23 ≠ 0
       else bits w 0 64 % 4096 ≠ 0))

/-- Two ranges share an address. -/
def rangesMeet (a n b m : Nat) : Bool := a < b + m && b < a + n

/-- The outbound window meets an earlier valid one in outbound space. -/
def outMeets (w : State) (i : Nat) : Bool :=
  let x := cfgv w 0x6010 (i + 1)
  bit x 255 && (List.range i).any fun j =>
    let y := cfgv w 0x6010 (j + 1)
    bit y 255 && rangesMeet (bits x 0 32) (2 ^ bits x 237 6) (bits y 0 32) (2 ^ bits y 237 6)

/-- The inbound window meets an earlier valid one of its space. -/
def inMeets (w : State) (i : Nat) : Bool :=
  let x := cfgv w 0x6011 (i + 1)
  bit x 255 && (List.range i).any fun j =>
    let y := cfgv w 0x6011 (j + 1)
    bit y 255 && bits x 252 2 = bits y 252 2 && rangesMeet (bits x 64 64) (2 ^ bits x 235 6) (bits y 64 64) (2 ^ bits y 235 6)

/-- The object and sub-index of routing entry `e` (R405). -/
def routeKey (e : Nat) : Nat :=
  key (match e / 128 with
    | 0 => 0x6020 | 1 => 0x6027 | 2 => 0x6028 | _ => 0x6029) (e % 128 + 1)

/-- A filter slot that R516 refuses. -/
def filterBad (w : Nat) : Bool := bit w 184 || bits w 104 33 ≠ 0 || bits w 0 52 < bits w 52 52

/-- Rules of the dobby and of chapter 20 on what a set leaves. -/
def finalDobby (w : State) : List (Option Refused) :=
  [firstBad (List.range 16) (fun i => outWindowBad (cfgv w 0x6010 (i + 1)) || outMeets w i) fun i => key 0x6010 (i + 1),
   firstBad (List.range 16) (fun i => inWindowBad w (cfgv w 0x6011 (i + 1)) || inMeets w i) fun i => key 0x6011 (i + 1),
   firstBad (List.range 32) (fun v => cfgv w 0x6014 (v + 1) % 2 ^ cfgv w 0x6013 (v + 1) ≠ 0) fun v => key 0x6014 (v + 1),
   firstBad (List.range 512) (fun e =>
      let x := cfgv w (keyIndex (routeKey e)) (keySub (routeKey e))
      bit x 63 && bits x 49 10 ≠ cfgv w 0x4100 1) routeKey,
   if (List.range 8).any fun n => n ≠ 0 && bit (cfgv w 0x6021 0) n && bit (cfgv w 0x6024 1) n then some { status := 5, obj := key 0x6024 1 } else none,
   firstBad (List.range 128) (fun i => filterBad (cfgv w 0x7020 (i + 1))) fun i => key 0x7020 (i + 1),
   if cfgv w 0x7106 0 = 32 && 0x4000000 < cfgv w 0x7102 33 + 64 * 2 ^ cfgv w 0x7103 33 then some { status := 5, obj := key 0x7102 33 } else none]

/-- The first refusal of a list. -/
def firstSome : List (Option Refused) → Option Refused
  | [] => none
  | some r :: _ => some r
  | none :: rs => firstSome rs

/-- Every rule on what a set leaves. -/
def finalRules (w : State) (items : List (Nat × Nat)) : Option Refused :=
  let named (ix : Nat) : Nat :=
    match items.find? fun i => keyIndex i.1 = ix with
    | some i => i.1
    | none => key ix (if ix = 0x4020 then 3 else 1)
  firstSome (finalPorts w ++ finalLoom w named ++ finalDobby w)

/-! ### Claims (R474, R475) -/

/-- A claim: resource, the object that enables the holder, and the object that names the resource. -/
structure Claim where
  res : Nat
  holder : Nat
  chooser : Nat
  deriving DecidableEq, Repr

/-- The claims that a configuration makes. -/
def claimsOf (w : State) : List Claim :=
  let when_ (c : Bool) (x : Claim) : List Claim := if c then [x] else []
  when_ (cfgOn w 0x2110 5) ⟨claimKey 1 0, key 0x2110 5, key 0x2110 5⟩ ++ when_ (cfgOn w 0x6002 0) ⟨claimKey 1 0, key 0x6002 0, key 0x6002 0⟩ ++
    ((List.range 32).flatMap fun n => when_ (cfgv w 0x3121 (n + 1) ≠ 255 && cfgv w 0x3122 (n + 1) ≠ 255)
      ⟨claimKey 2 (cfgv w 0x3122 (n + 1)), key 0x3121 (n + 1), key 0x3122 (n + 1)⟩) ++
    when_ (cfgOn w 0x6001 0) ⟨claimKey 2 (cfgv w 0x6004 0), key 0x6001 0, key 0x6004 0⟩ ++
    when_ (cfgOn w 0x4020 1) ⟨claimKey 3 0, key 0x4020 1, key 0x4021 3⟩ ++
    when_ (cfgOn w 0x5201 0) ⟨claimKey 4 (cfgv w 0x5205 0), key 0x5201 0, key 0x5205 0⟩

/-- When a claim came: before the set, or with its first item that made it. -/
def claimOrder (s : State) (items : List (Nat × Nat)) (c : Claim) : Nat :=
  if Tbl.find? s.mgmt.claimed c.res = some c.holder then 0
  else 1 + ((items.map Prod.fst).findIdx fun k => k = c.holder || k = c.chooser)

/-- The first claim of a set on a resource that another feature holds. -/
def claimConflict (s w : State) (items : List (Nat × Nat)) : Option Refused :=
  let cs := claimsOf w
  let rivals (c : Claim) : List Claim := cs.filter fun d => d.res = c.res && d.holder ≠ c.holder && claimOrder s items d ≤ claimOrder s items c &&
    (claimOrder s items d < claimOrder s items c || d.holder < c.holder)
  match cs.find? fun c => !(rivals c).isEmpty with
  | some c => some { status := 6, obj := c.holder, holder := ((rivals c).headD c).holder }
  | none =>
    if cfgOn w 0x4020 1 && beamSpillMib w < cfgv w 0x4021 3 then
      some { status := 6, obj := match items.find? fun i => keyIndex i.1 = 0x4021 || i.1 = key 0x4020 1 with
                | some i => i.1
                | none => key 0x4020 1
             holder := key 0x4020 1 }
    else if cfgOn w 0x5201 0 && Tbl.find? s.mgmt.claimed (claimKey 4 (cfgv w 0x5205 0)) ≠ some (key 0x5201 0) &&
        (connOf s (cfgv w 0x5205 0)).st ≠ .idle then
      some { status := 6, obj := key 0x5201 0 }
    else none

/-- Every check of a commit: none when the set may be applied. -/
def checkCommit (s : State) (role : Nat) (items : List (Nat × Nat)) : Option Refused :=
  let r := checkItems role items [] (planBase s)
  match r.1 with
  | some x => some x
  | none =>
    match finalRules r.2 items with
    | some x => some x
    | none => claimConflict s r.2 items

/-- The claim tables after a commit or a start. -/
def takeClaims (s : State) : State :=
  { s with mgmt := { s.mgmt with claimed := (claimsOf (planBase s)).foldl (fun t c => Tbl.set t c.res c.holder) [] } }

/-! ### What a committed value does -/

/-- A port takes up a personality or lays it down (R9, R70, R510): a weft port, or a warp port of a partition in service, starts to
train. DESIGN CHOICE (log entry 123): the lanes of a warp port keep LANE_STATE 0, which the spec defines by the block lock of a weft
lane. -/
def personalitySet (s : State) (p old new : Nat) : State :=
  let s := (List.range 30).foldl (fun s c => { s with obs := { s.obs with counters := Tbl.erase s.obs.counters (ctrPort p c) } }) s
  let weft (x : Nat) : Bool := x = 2 || x = 3
  let s := if weft old then weftDisabled s p else s
  if weft new then weftEnabled s p else if new = 1 then clockUp s p else s

/-- A warp port that is disabled goes down by software (cause 0 of event 0x0301). -/
def warpDisabled (s : State) (p : Nat) : State :=
  if isDown s p then (let s := softwareDown s p
                      setWarp s p {})
  else (let s := if (warpPort s p).st = .active then warpLinkGone s p 0 else s
        setWarp s p {})

/-- A port that is about to be disabled goes down while its old personality stands (R70). -/
def personalityLeft (s : State) (p old : Nat) : State := if old = 1 then warpDisabled s p else s

/-- FABRIC_ID changes: the module is in no fabric until it is admitted; with 0 its weft ports go DOWN (R198). -/
def fabricChanged (s : State) (new : Nat) : State :=
  let f := s.fab
  let s := { s with fab := { offset := f.offset, locked := f.locked, delay := f.delay, probesSent := f.probesSent, probes := f.probes,
                             probeAt := f.probeAt, splitCount := f.splitCount, nextReq := f.nextReq, ppsHigh := f.ppsHigh } }
  if new = 0 then
    ((List.range 128).filter fun p => personality s p = 2).foldl (fun s p =>
      let x := weftPort s p
      if x.link = .down ∨ x.link = .failed then s else linkDown s p 14) s
  else s

/-- An instance's own share, capped at the partition's; for bandwidth 0 is unlimited (R317). -/
def shareCapped (r new : Nat) (x : InstState) : InstState :=
  match Tbl.find? x.shares r with
  | none => x
  | some n =>
    let above := if r = 5 then new ≠ 0 && (n = 0 || new < n) else new < n
    if above then { x with shares := Tbl.set x.shares r new } else x

/-- The partition's bandwidth share changes: its bucket and those of its instances pass to their new rates (R316, R317). -/
def gbpsChanged (s : State) (v old new : Nat) : State :=
  let b := bucketCut s old new (Tbl.get s.eng.buckets v 65536) (Tbl.get s.eng.bucketAt v 0)
  let s := { s with eng := { s.eng with buckets := Tbl.set s.eng.buckets v b, bucketAt := Tbl.set s.eng.bucketAt v s.now } }
  (instsOf s v).foldl (fun s r => setInst s r.1 (bucketChanged s (shareCapped 5 new r.2) (instGbps r.2 old) (instGbps r.2 new))) s

/-- A share lowered below use frees nothing: event 0x0726; the shares of the partition's instances above it are capped (R317). -/
def shareLowered (s : State) (v r old new : Nat) : State :=
  let s := (instsOf s v).foldl (fun s k => setInst s k.1 (shareCapped r new k.2)) s
  let used := if r = 2 then windowsOf s v else partUse s v r
  if new < old && new < used && r ≠ 5 then eventIn s (some v) 0x0726 0 (at_ 16 v + at_ 24 r) else s

/-- Counters of the pairs whose chain bit changes return to 0 (R511). -/
def chainChanged (s : State) (old new : Nat) : State :=
  (List.range 4608).foldl (fun s p =>
    if bit old p = bit new p then s
    else { s with obs := { s.obs with counters := Tbl.erase (Tbl.erase s.obs.counters (2 * p)) (2 * p + 1) } }) s

/-- The effect of a committed value on the power stage, the management and the fabric. -/
def effectLow (s : State) (k old new : Nat) : State :=
  let sub := keySub k
  let feed : Feed := if sub = 1 then .a else .b
  match keyIndex k with
  | 0x1121 =>
    { s with mgmt := { s.mgmt with leases := [], claims := [], witnessSince := s.now, witnessOpen := false } }
  | 0x1330 => if old < new then event s 0x0B25 0 new else s
  | 0x2001 => if old < new then setFeed s feed { feedOf s feed with hwLimit := new } else s
  | 0x2005 => feedEnableCommitted s feed (new = 1)
  | 0x2100 =>
    if sub = 3 && s.gov.belowFloor && (new = 0 || new ≤ s.gov.capacity) then { s with gov := { s.gov with floorLowered := true } } else s
  | 0x2110 => if sub = 4 && new = 0 then { s with fab := { s.fab with ppsLocked := false } } else s
  | 0x3003 => personalitySet s (sub - 1) old new
  | 0x3301 =>
    if !inService s then s else if new = 1 then enterPartition s (sub - 1) else s
  | 0x4001 | 0x4002 | 0x4020 | 0x4021 => poolChanged s
  | 0x4100 => if sub = 2 then fabricChanged s new else s
  | 0x4402 => shareLowered s (sub - 1) 1 old new
  | 0x4403 => shareLowered s (sub - 1) 2 old new
  | 0x4404 => shareLowered s (sub - 1) 3 old new
  | 0x4405 => shareLowered s (sub - 1) 4 old new
  | 0x4406 => gbpsChanged s (sub - 1) old new
  | 0x4408 => shareLowered s (sub - 1) 6 old new
  | 0x5201 => twinCommitted s
  | _ => s

/-- The effect of a committed value on counters, spool and keys. -/
def effectHigh (s : State) (k old new : Nat) : State :=
  let sub := keySub k
  let r := sub - 1
  match keyIndex k with
  | 0x7020 =>
    { s with obs := { s.obs with counters := Tbl.erase (Tbl.erase s.obs.counters (8960 + 2 * r)) (8960 + 2 * r + 1) } }
  | 0x7021 => chainChanged s old new
  | 0x7101 => if new = 1 then ringSet s r { ringGet s r with armed := true } else s
  | 0x7102 | 0x7103 => if ringEnabled s r then restartRing s r 2 else s
  | 0x7106 => if ringEnabled s 32 then restartRing s 32 2 else s
  | 0x7F03 => if new = 1 then event s 0x0B24 0 (r % 4) else s
  | _ => s

/-- A value takes its place in the store and, outside TEST, in force, with its effect. -/
def putInForce (s : State) (k v : Nat) : State :=
  let old := keyValue s k
  if actsAtCommit k then s
  else if isKeyObject k then
    let t := { s with vault := { s.vault with secrets := Tbl.set s.vault.secrets k v } }
    if keyIndex k = 0x4210 && keyValue s k ≠ v && s.module.state ≠ .test then secretChanged t (keySelector k) else t
  else
    let s := setFlash s k v
    if s.module.state = .test then s
    else if old = v then setCfg s k v
    else
      let s := if keyIndex k = 0x3003 then personalityLeft s (keySub k - 1) old else s
      let s := if keyIndex k = 0x3301 && v = 0 && inService s then leavePartition s (keySub k - 1) else s
      let s := setCfg s k v
      effectHigh (effectLow s k old v) k old v

/-- The journal entry of a committed value (KIND 1), or of a value lost with its commit (KIND 4). -/
def journalItem (s : State) (x : Session) (kind k v : Nat) : State :=
  match objRow (keyIndex k) (keySub k) with
  | none => s
  | some r =>
    let o := journalValue r.typ r.len (keyValue s k)
    let n := journalValue r.typ r.len v
    journal s { number := 0, time := 0, role := x.role, kind := kind, oldHashed := o.2, newHashed := n.2, mailbox := 128 ≤ x.source,
                source := if 128 ≤ x.source then x.source - 128 else x.source, session := x.num, index := keyIndex k, sub := keySub k,
                oldValue := o.1, newValue := n.1, commitNumber := s.obs.commitNumber }

/-- The journal entries of a set, each with the value that the items before it leave. -/
def journalItems (x : Session) : List (Nat × Nat) → State → State → State
  | [], _, s => s
  | (k, v) :: is, w, s =>
    let e := journalItem { w with obs := s.obs } x 1 k v
    journalItems x is (planned w k v) { s with obs := e.obs }

/-- Apply a checked set (R471): journal, store, force, claims, and event 0x0B04. The number of the first entry. -/
def applyCommit (s : State) (x : Session) (items : List (Nat × Nat)) : State × Nat :=
  let first := s.obs.journalNext
  let s := { s with obs := { s.obs with commitNumber := (s.obs.commitNumber + 1) % 2 ^ 32 } }
  let s := journalItems x items (planBase s) s
  let s := items.foldl (fun s i => putInForce s i.1 i.2) s
  let s := takeClaims s
  (event (count s (ctrMgmt 6) 1) 0x0B04 0 (sessionInfo x + at_ 32 (items.length % 65536) + at_ 48 (first % 65536)), first)

/-- A refused commit (R471): event 0x0B05, and for DEBUG_UNLOCK what R499 adds. -/
def refuseCommit (s : State) (x : Session) (items : List (Nat × Nat)) (r : Refused) : State :=
  let s := event (count s (ctrMgmt 7) 1) 0x0B05 0 (sessionInfo x + at_ 32 r.status + at_ 40 (r.obj % 2 ^ 24))
  match items.find? fun i => i.1 = key 0x7F01 0 with
  | some i => if r.obj = key 0x7F01 0 then unlockRefused s (unlockCause s i.2) else s
  | none => s

/-- A commit was lost in flash at the last loss of power or warm reset from RECOVERY: its one journal entry of KIND 4 names its
first item (R434, R473). -/
def commitLost (s : State) : State :=
  match s.module.commitGone with
  | none => s
  | some f =>
    let s := { s with module := { s.module with commitGone := none } }
    match f.items.head? with
    | none => s
    | some i => journalItem s f.by_ 4 i.1 i.2

end Sys2Proof.Machine
end

