-- ==== Sys2Proof/Machine/Startup.lean ====
section
/-!
DEFINITION. Start-up, resets, recovery, TEST and firmware (chapter 16, R18, R21, R353): from CORE_ON to SERVICE, the warm
reset, the verification and activation of images, and what a failed image leads to.
-/

namespace Sys2Proof.Machine

def setModule (s : State) (m : ModBlk) : State := { s with module := m }

/-! ### Verification of an image (R436, R437) -/

/-- The header is well formed: MAGIC, LENGTH within its range and a multiple of 4,096, reserved bytes 0. -/
def headerOk (x : FwSlot) : Bool :=
  let n := fwField x 12 4
  Memory.readBytes x.image 0 8 = ascii "ESXFWIM1" && 8192 ≤ n && n ≤ 33554432 && n % 4096 = 0 && fwField x 25 7 = 0 && fwField x 80 3920 = 0

/-- BODY_HASH matches the body as flash holds it. -/
def bodyHashOk (x : FwSlot) : Bool :=
  sha384 (Memory.readBytes x.image 4096 (fwField x 12 4 - 4096)) = Memory.readBytes x.image 32 48

/-- The signature verifies under the public key in KEY_SLOT; there are keys 0 to 3. -/
def signatureOk (x : FwSlot) : Bool :=
  fwField x 24 1 < 4 &&
    ecdsaVerify (leBytes 97 (Config.fwPublicKey (fwField x 24 1))) (Memory.readBytes x.image 0 4000) (Memory.readBytes x.image 4000 96)

/-- Why an image does not pass R437, by the reasons of R439; 0 when it passes. -/
def imageReason (s : State) (k : Nat) : Nat :=
  let x := fwSlot s k
  if x.flashBad then 7
  else if !headerOk x then 2
  else if !(signatureOk x && bodyHashOk x) then 3
  else if keyRevoked { s with cfg := s.flash } (fwField x 24 1) then 4
  else if fwField x 16 2 < flashv s 0x1330 1 then 5
  else if !bit (fwField x 22 2) Config.stepping then 6
  else 0

/-- The slot part of a firmware event (R448). -/
def slotField (s : State) (k : Nat) : Nat := k + at_ 32 (fwVersion (fwSlot s k))

/-! ### Warm reset: its start (R434) -/

/-- The states that a warm reset may start in. -/
def warmStates (m : ModState) : Bool :=
  match m with
  | .config | .links | .service | .degraded | .test | .halted => true
  | _ => false

/-- Step 1: the drain. Causes: 1 command, 2 activation, 4 rollback, 5 test entry, 6 zeroisation. -/
def startWarm (s : State) (cause : Nat) : State :=
  let s := setModule s { s.module with warm := some .drain, warmCause := cause, warmSince := s.now, warmHeld := none
                                       drainStart := s.shu.ledger.length }
  event s 0x0C0C 0 (at_ 8 cause)

/-- A warm reset is asked for: it waits for another one, for the pause of an activation and for a commit in flash. -/
def requestWarm (s : State) (cause : Nat) : State :=
  if s.module.warm.isSome || s.module.pause.isSome || s.mgmt.inFlash.isSome then
    setModule s { s.module with warmHeld := some (s.module.warmHeld.getD cause) }
  else startWarm s cause

/-- A warm reset held meanwhile is carried out. -/
def releaseWarm (s : State) : State :=
  match s.module.warmHeld with
  | some c => if warmStates s.module.state && s.module.pause.isNone && s.module.warm.isNone && s.mgmt.inFlash.isNone then startWarm s c else s
  | none => s

/-- The effect of WARM_RESET_CMD 1. -/
def actWarmReset (s : State) : State := requestWarm s 1

def execWarmResetCmd (sess value : Nat) (s : State) : Host.Outcome State Fault Refusal :=
  .next (actWrite s sess 0x1340 1 value (if value = 1 && !warmStates s.module.state then 5 else 0) id (onOne value actWarmReset))

/-! ### The trial of an image, and rollback (R444, R445) -/

/-- An image is on trial. -/
def onTrial (s : State) : Bool := s.module.running < 2 && (fwSlot s s.module.running).trial

/-- The failed image is rejected, and the previous one is the one to start. -/
def rejectRunning (s : State) : State :=
  let f := s.module.running
  let s := setFwSlot s f { fwSlot s f with st := .verified, rejected := true, trial := false }
  let p := fwSlot s (1 - f)
  let s := if p.st = .verified then setFwSlot s (1 - f) { p with st := .active } else s
  setModule s { s.module with trialSince := none }

/-- The pause of a hitless activation begins (R442). -/
def beginPause (s : State) (k : Nat) (rollback : Bool) : State :=
  setModule s { s.module with pause := some .quiesce, pauseSlot := k, pauseSince := s.now, isRollback := rollback, activation := none }

/-- ROLLBACK (R445): `check` is the failed check of R444. It is hitless when the previous image can take over the failed one's
state and the module still runs; else by warm reset, or by R432 at the next start. -/
def rollback (s : State) (check : Nat) : State :=
  let f := s.module.running
  let p := fwSlot s (1 - f)
  let runs := match s.module.state with
    | .links | .service | .degraded | .fenced => s.module.warm.isNone
    | _ => false
  let info := slotField s f + at_ 8 check
  if runs && p.st = .verified && fmtFits (fwSlot s f) p then
    let s := setFwSlot s f { fwSlot s f with rejected := true, trial := false }
    let s := event (setModule s { s.module with trialSince := none }) 0x0C09 0 info
    beginPause s (1 - f) true
  else
    let s := event (rejectRunning s) 0x0C09 0 (info + at_ 16 1)
    if warmStates s.module.state then requestWarm s 4 else s

/-- TREADLE_WATCHDOG_EXPIRY (R444): 1 s after the treadle last served it. -/
def treadleWatchdogExpiry (s : State) : State :=
  if onTrial s && s.module.trialSince.isSome && s.module.pause.isNone && elapsed s s.module.watchdogAt sec then rollback s 2 else s
def execTreadleWatchdogExpiry (s : State) : Host.Outcome State Fault Refusal := .next (treadleWatchdogExpiry s)

/-- TRIAL_END (R444): 30 s without a failure. -/
def trialEnd (s : State) : State :=
  if onTrial s && elapsedOpt s s.module.trialSince trialTime then
    let k := s.module.running
    let s := setFwSlot s k { fwSlot s k with trial := false }
    event (setModule s { s.module with trialSince := none }) 0x0C08 0 (slotField s k)
  else s
def execTrialEnd (s : State) : Host.Outcome State Fault Refusal := .next (trialEnd s)

/-! ### Module-fatal errors (R353, R354) -/

/-- The last 10 minutes. -/
def recentRecoveries (s : State) : List Nat := s.module.recoveries.filter fun t => s.now < t + 600 * sec

/-- The bolt of a fatal cause: begun, or a LATER section of one that is held or being written. -/
def fatalBolt (s : State) (cause : Nat) (before : ModState) : State :=
  if s.obs.bolt.state = 1 || s.obs.bolt.state = 3 then boltLater s cause before else boltStart s 1 cause before []

/-- HALTED (R22): the treadle runs from its boot ROM. -/
def enterHalted (s : State) (cause : Nat) : State :=
  let s := setModule s { s.module with running := 2, started := false, toTest := false }
  releaseWarm (changeState s .halted cause)

/-- RECOVERY on a module-fatal error; the third entry within 10 minutes ends in HALTED. An image on trial, or one being
activated, has failed (R443, R444). -/
def enterRecovery (s : State) (cause : Nat) : State :=
  let before := s.module.state
  let s := if s.module.pause.isSome && !s.module.isRollback then
      let k := s.module.pauseSlot
      setFwSlot s k { fwSlot s k with st := .verified, rejected := true, trial := false }
    else s
  let failed := onTrial s
  let f := s.module.running
  let s := if failed then rejectRunning s else s
  let s := if inService s then twinGoneNow s else s
  let rs := recentRecoveries s ++ [s.now]
  let s := setModule s { s.module with pause := none, warm := none, warmHeld := none, activation := none, recoveries := rs, fatalLast := cause
                                       fatalAlert := true, recovered := some cause }
  let s := changeState s .recovery 0x0909
  let s := if failed then event s 0x0C09 0 (slotField s f + at_ 8 3 + at_ 16 1) else s
  let s := fatalBolt s cause before
  if 3 ≤ rs.length then enterHalted s 0x0909 else s

/-- The fatal causes of R343. -/
def fatalCause (cause : Nat) : Bool := 40 ≤ cause && cause ≤ 43

/-- MODULE_FATAL_ERROR (R353): from CORE_ON on; in RECOVERY a further one is recorded only in the bolt (R354). -/
def moduleFatalError (cause : Nat) (s : State) : State :=
  if !fatalCause cause || !coreRuns s then s
  else if s.module.state = .recovery then boltLater s cause .recovery
  else enterRecovery s cause
def execModuleFatalError (cause : Nat) (s : State) : Host.Outcome State Fault Refusal := .next (moduleFatalError cause s)

/-- THERMAL_FATAL_TIMEOUT (R36): cause 42. -/
def thermalFatalTimeout (s : State) : State :=
  if coreRuns s && !s.gov.hotTold && elapsedOpt s s.gov.hotSince sec then
    moduleFatalError 42 { s with gov := { s.gov with hotTold := true } }
  else s
def execThermalFatalTimeout (s : State) : Host.Outcome State Fault Refusal := .next (thermalFatalTimeout s)

/-! ### Warm reset: its end (R434) -/

/-- WARM_RESET_DRAIN_END (R434): the posting buffers and the ledger are empty, or 10 ms have passed. -/
def warmResetDrainEnd (s : State) : State :=
  if s.module.warm = some .drain && ((s.win.posting.isEmpty && s.shu.ledger.isEmpty) || elapsed s s.module.warmSince (10 * ms)) then
    let rest := s.shu.ledger.length
    let s := boltReset s s.module.warmCause 0 s.module.state
    let s := twinGoneSend s
    setModule s { s.module with warm := some .reset, warmSince := s.now, drained := s.module.drainStart - rest, recorded := rest }
  else s
def execWarmResetDrainEnd (s : State) : Host.Outcome State Fault Refusal := .next (warmResetDrainEnd s)

/-- A beam key from the vault's generator: the two 256-bit keys of AES-256-XTS (R163, R494). -/
def newBeamKey (s : State) : State :=
  let t := afterDraw s
  afterDraw { t with vault := { t.vault with beamKey := some (leBytes 32 (drawn s).toNat ++ leBytes 32 (drawn t).toNat) } }

/-- The core after a warm reset: volatile objects at their defaults (R7); the beam key, the bolt region, flash, the keeper domain
and what lies outside stay (R21). -/
def coreReset (s : State) : State :=
  let m := s.module
  pinsOnly s { State.reset with
    pending := s.pending, now := s.now, drawn := s.drawn, freeDraws := s.freeDraws, cfg := s.cfg, flash := s.flash
    module := { keptModule m with warmCause := m.warmCause, warmHeld := m.warmHeld, toTest := m.toTest, testScheduled := m.testScheduled
                                  testAt := m.testAt, drained := m.drained, recorded := m.recorded, reportDrain := m.warmCause ≠ 3
                                  fatalAlert := m.fatalAlert }
    power := s.power, gov := { running := true }
    vault := { keptVault s.vault with beamKey := s.vault.beamKey, tap := s.vault.tap, zeroised := s.vault.zeroised }
    shu := { roster := s.shu.roster, rosterPending := s.shu.rosterPending }
    mgmt := { canOff := s.mgmt.canOff }
    obs := { keptObs s.obs with bolt := s.obs.bolt }
    host := s.host, beam := s.beam, tx := s.tx }

/-- Ports and partitions go down with the core, out of RECOVERY too (R128, R503), and every session ends with cause 5. -/
def coreDown (s : State) : State :=
  let s := endSessions s (fun _ => true) 5
  let s := (List.range 32).foldl (fun s v => if partEnabled s v then resetPartition s v 5 else s) s
  ((List.range 128).filter fun p => (exportOf s p).isSome).foldl (fun s p => exportedReset s p 5) s

/-- WARM_RESET_CORE_RESET (R434): 1 ms after the drain; the module is in BOOT. The vault draws a new nonce, and a new beam key
where zeroisation erased the old (R495, R499). -/
def warmResetCoreReset (s : State) : State :=
  if s.module.warm = some .reset && elapsed s s.module.warmSince ms then
    let s := coreReset (noteCommit (coreDown s))
    let s := if s.vault.beamKey.isNone then newBeamKey s else s
    let s := driveSysreset (newDebugNonce s)
    changeState s .boot 0x0C0C
  else s
def execWarmResetCoreReset (s : State) : Host.Outcome State Fault Refusal := .next (warmResetCoreReset s)

/-- BOLT_WRITE_DONE (R529): the bolt is complete; in RECOVERY the warm reset follows, without the drain (R21, R353). -/
def boltWriteDone (s : State) : State :=
  let s := boltDone s
  if s.module.state = .recovery && s.module.warm.isNone then
    let s := event s 0x0C0C 0 (at_ 8 3)
    let s := boltReset s 3 1 .recovery
    setModule s { s.module with warm := some .reset, warmCause := 3, warmSince := s.now, drained := 0, recorded := s.shu.ledger.length }
  else s
def execBoltWriteDone (s : State) : Host.Outcome State Fault Refusal := .next (boltWriteDone s)

/-! ### CORE_ON and BOOT (R18, R431, R432) -/

/-- EARLY_EVENT_HANDOVER (R552): the supervisor's records go ahead of every record from CORE_ON; the first one carries LOST when
others were replaced. -/
def earlyHandover (s : State) : State :=
  let n := s.obs.earlyReplaced
  let hs := match s.obs.early with
    | h :: t => { h with rec_ := { h.rec_ with lost := h.rec_.lost || n ≠ 0 } } :: t
    | [] => []
  let x := ringGet s 32
  let s := ringSet s 32 { x with lost := (x.lost + n) % 2 ^ 32 }
  { s with obs := { s.obs with early := [], earlyReplaced := 0, waiting := hs ++ s.obs.waiting } }

/-- CORE_ON (R18): regulators in regulation, Vcore at 0.55 V, the beam trained, its key generated. -/
def coreOn (regulated beamTrained : Bool) (s : State) : State :=
  if s.module.state = .feedsUp && regulated && beamTrained && s.vault.entropyOk then
    let s := newDebugNonce (newBeamKey (earlyHandover s))
    let s := { s with gov := { s.gov with running := true }, shu := { s.shu with rosterPending := true } }
    let s := setModule s { s.module with state := .coreOn, since := s.now }
    let s := putEvent s { ring := 32, rec_ := { code := 0x0B0A, time := eventTime s, info := 3 + at_ 8 2 }, change := some (2, 3, 0) }
    driveSysreset s
  else s
def execCoreOn (regulated beamTrained : Bool) (s : State) : Host.Outcome State Fault Refusal := .next (coreOn regulated beamTrained s)

/-- The changes of state among the records handed over enter the journal, and each record takes its entry's number. -/
def journalWaiting : List HeldEvent → State → State × List HeldEvent
  | [], s => (s, [])
  | h :: hs, s =>
    match h.change with
    | some (p, n, c) =>
      let num := s.obs.journalNext
      let r := journalWaiting hs (journalChange s p n c)
      (r.1, { h with change := none, rec_ := { h.rec_ with info := h.rec_.info + at_ 32 num } } :: r.2)
    | none =>
      let r := journalWaiting hs s
      (r.1, h :: r.2)

/-- The slot in a state, if any. -/
def slotIn (s : State) (st : SlotSt) : Option Nat := [0, 1].find? fun k => (fwSlot s k).st = st

/-- A slot's image starts. -/
def startSlot (s : State) (k : Nat) : State := setModule s { s.module with running := k, started := true, bootFailed := none }

/-- The other slot is started in place of the ACTIVE one, which becomes VERIFIED (R432). -/
def startOther (s : State) (k other reason : Nat) (failed : Bool) : State :=
  let x := fwSlot s k
  let s := if x.st = .active then setFwSlot s k { x with st := .verified, trial := false, rejected := x.rejected || failed } else s
  let s := setFwSlot s other { fwSlot s other with st := .active }
  startSlot (event s 0x0C0A 0 (slotField s other + at_ 8 reason)) other

/-- R432: the ACTIVE slot, or the other one when it fails or is on trial; `skip` is a slot whose image has started and failed. -/
def bootRom (s : State) (skip : Option Nat) : State :=
  let passes (k : Nat) : Bool := imageReason s k = 0 && skip ≠ some k
  match slotIn s .active with
  | some k =>
    let r := imageReason s k
    let trial := (fwSlot s k).trial
    if passes k && !trial then startSlot s k
    else if (fwSlot s (1 - k)).st = .verified && passes (1 - k) then
      let cold := s.module.bootFailed = some 5
      let s := if trial && cold then event s 0x0C09 0 (slotField s k + at_ 8 5) else s
      if r = 0 then startOther (afterFree s) k (1 - k) (freeValue s % 256) (trial && cold) else startOther s k (1 - k) r (trial && cold)
    else if passes k then startSlot s k
    else enterHalted s 0
  | none =>
    match [0, 1].find? fun k => (fwSlot s k).st = .verified && passes k with
    | some k => startOther (afterFree s) (1 - k) k (freeValue s % 256) false
    | none => enterHalted s 0

/-- A PENDING slot whose activation has not started by a warm reset of its own has missed its time (R441). -/
def pendingMissed (s : State) : State :=
  match slotIn s .pending with
  | some k => event (setFwSlot s k { fwSlot s k with st := .verified }) 0x0C0B 0 (slotField s k + at_ 8 5)
  | none => s

/-- Start the slot of an activation in mode WARM_RESET (R440): ACTIVE with the TRIAL mark when it passes; one that does not pass
is rejected. -/
def startPending (s : State) (k : Nat) : State :=
  let r := imageReason s k
  if r = 0 then
    let s := match slotIn s .active with
      | some a => setFwSlot s a { fwSlot s a with st := .verified, trial := false }
      | none => s
    startSlot (setFwSlot s k { fwSlot s k with st := .active, trial := true }) k
  else
    bootRom (event (setFwSlot s k { fwSlot s k with st := .verified, rejected := true }) 0x0C09 0 (slotField s k + at_ 8 1 + at_ 16 1)) none

/-- BOOT_SLOT_SELECT (R432): from CORE_ON, or in BOOT after a warm reset. The treadle first runs: held state changes enter the
journal (R552), ahead of the change to BOOT, a DESIGN CHOICE (log entry 76); BOOT_COUNT counts the start, and after RECOVERY the recoveries are counted (R353). A mismatch of the lockstep
self-test is fatal (cause 40). -/
def bootSlotSelect (lockstepOk : Bool) (s : State) : State :=
  let cold := s.module.state = .coreOn
  if cold || (s.module.state = .boot && !s.module.started) then
    if !lockstepOk then moduleFatalError 40 s
    else
      let r := journalWaiting s.obs.waiting s
      let s := changeState { r.1 with obs := { r.1.obs with waiting := r.2 } } .boot 0
      let s := setModule s { s.module with bootCount := (s.module.bootCount + 1) % 2 ^ 32, bootFailed := if cold then some 5 else none
                                           recoveryCount := (recentRecoveries s).length % 256 }
      match slotIn s .pending with
      | some k => if !cold && s.module.warmCause = 2 then startPending s k else bootRom (pendingMissed s) none
      | none => bootRom s none
  else s
def execBootSlotSelect (lockstepOk : Bool) (s : State) : Host.Outcome State Fault Refusal := .next (bootSlotSelect lockstepOk s)

/-! ### CONFIG (R18, R433, R525) -/

/-- The stored values of some objects are put in force. -/
def storedInForce (s : State) (f : Nat → Bool) : State :=
  { s with cfg := (s.flash.filter fun r => f r.1).foldl (fun t r => Tbl.set t r.1 r.2) (s.cfg.filter fun r => !f r.1) }

/-- The spool objects come ahead of the rest; then what was held is written to its rings (R525). -/
def spoolStart (s : State) : State :=
  let s := storedInForce s fun k => keyIndex k / 256 = 0x71
  let s := { s with obs := { s.obs with live := true } }
  let s := (List.range 33).foldl (fun s r => if ringEnabled s r then restartRing s r 3 else s) s
  let hs := s.obs.waiting
  hs.foldl putEvent { s with obs := { s.obs with waiting := [] } }

/-- What the module reports once CONFIG is reached: the drain result, the fatal cause, and a lost commit. -/
def configReports (s : State) : State :=
  let m := s.module
  let s := if m.reportDrain then event s 0x0C0D 0 (at_ 8 (m.drained % 2 ^ 24) + at_ 32 m.recorded) else s
  let s := match m.recovered with
    | some c => event s 0x0909 0 c
    | none => s
  commitLost (setModule s { s.module with reportDrain := false, recovered := none, fatalAlert := if m.recovered.isSome then false else m.fatalAlert })

/-- CONFIG is reached; where a test entry asked for it, TEST in its place (R435). -/
def reachConfig (s : State) : State :=
  let s := changeState s .config 0
  let s := setModule s { s.module with started := false, watchdogAt := s.now, trialSince := if onTrial s then some s.now else none }
  let s := configReports (spoolStart s)
  let s := if s.module.toTest then
      event (changeState (setModule s { s.module with toTest := false }) .test 0x0C10) 0x0C10 0 (at_ 8 2 + at_ 16 (b2n s.module.testScheduled))
    else s
  releaseWarm s

/-- The image's health check has failed before CONFIG: the boot ROM turns to the other slot; an image on trial is rejected
(R432, R444, R445). -/
def bootHealthFailed (s : State) : State :=
  let k := s.module.running
  let x := fwSlot s k
  let s := if x.trial then
      event (setFwSlot s k { x with st := .verified, rejected := true, trial := false }) 0x0C09 0 (slotField s k + at_ 8 1)
    else s
  bootRom (setModule s { s.module with started := false }) (some k)

/-- CONFIG_ENTRY (R18): the image that the boot ROM has started passes its health check. -/
def configEntry (healthOk : Bool) (s : State) : State :=
  if s.module.state = .boot && s.module.started then
    if healthOk then reachConfig s else bootHealthFailed s
  else s
def execConfigEntry (healthOk : Bool) (s : State) : Host.Outcome State Fault Refusal := .next (configEntry healthOk s)

/-- CONN_ROSTER_REPORT (R241): after a loss of both feeds. -/
def rosterReport (s : State) : State :=
  if s.shu.rosterPending then
    let n := s.shu.roster.length
    let s := s.shu.roster.foldl (fun s r => event s 0x060B 0 (r.1 + at_ 16 (r.2.1 % 1024))) s
    { s with shu := { s.shu with roster := [], rosterPending := false, rosterLost := n } }
  else s

/-- The first refusal of the stored configuration: an object's own rule, the rules on the whole, then claims. -/
def storedRefusal (s : State) : Option Refused :=
  let w := { s with cfg := s.flash, mgmt := { s.mgmt with claimed := [] } }
  match firstSome (s.flash.map fun r => itemRule w r.1 r.2) with
  | some r => some r
  | none =>
    match finalRules w [] with
    | some r => some r
    | none => claimConflict w w []

/-- Ports and partitions come up with the configuration. -/
def portsStart (s : State) : State :=
  let s := ((List.range 128).filter fun p => personality s p = 2 || personality s p = 3).foldl weftEnabled s
  (List.range 32).foldl enterPartition s

/-- A FEED_ILIMIT raised by the stored configuration is in the hardware at once (R425). -/
def storedLimits (s : State) : State :=
  [Feed.a, Feed.b].foldl (fun s f =>
    let x := feedOf s f
    let l := cfgv s 0x2001 (feedSub f)
    if x.hwLimit < l then setFeed s f { x with hwLimit := l } else s) s

/-- STORED_CONFIG_COMMIT (R433): refused, the module stays in CONFIG; else LINKS. The pending heddle sets are active as epoch 1. -/
def storedConfigCommit (s : State) : State :=
  if s.module.state = .config && s.module.warm.isNone then
    match storedRefusal s with
    | some r => event (setModule s { s.module with refused := true }) 0x0C0F 0 (at_ 8 (r.obj % 2 ^ 24))
    | none =>
      let s := takeClaims { s with cfg := s.flash }
      let s := setModule s { s.module with refused := false }
      let s := { activate s with mgmt := { s.mgmt with witnessSince := s.now, witnessOpen := false } }
      let s := poolChanged (storedLimits { s with hed := { s.hed with epoch := 1 } })
      let s := rosterReport (twinCommitted s)
      portsStart (changeState s .links 0)
  else s
def execStoredConfigCommit (s : State) : Host.Outcome State Fault Refusal := .next (settle (storedConfigCommit s))

/-! ### SERVICE (R18, R200) -/

/-- A port is ACTIVE or has used its first training attempt; of the warp ports in training, `tried` says it. -/
def portTried (s : State) (tried : Bool) (p : Nat) : Bool :=
  match personality s p with
  | 0 => true
  | 1 => (warpPort s p).st ≠ .training || tried
  | _ => (weftPort s p).link = .active || (weftPort s p).link = .failed || 0 < (weftPort s p).fails

/-- Fabric membership is settled; a module in no fabric has none to settle. -/
def membershipSettled (s : State) : Bool := !fabricOn s || s.fab.settled

/-- SERVICE_ENTRY (R18). -/
def serviceEntry (tried : Bool) (s : State) : State :=
  if s.module.state = .links && (List.range 128).all (portTried s tried) && membershipSettled s then health (changeState s .service 0) 0 else s
def execServiceEntry (tried : Bool) (s : State) : Host.Outcome State Fault Refusal := .next (settle (serviceEntry tried s))

/-! ### TEST (R435) -/

/-- The test entry proceeds by the module's state; one whose time comes elsewhere is missed. -/
def enterTest (scheduled : Bool) (s : State) : State :=
  match s.module.state with
  | .config =>
    if s.module.warm.isSome then event s 0x0C10 0 (at_ 8 3 + at_ 16 (b2n scheduled))
    else event (changeState s .test 0x0C10) 0x0C10 0 (at_ 8 1 + at_ 16 (b2n scheduled))
  | .links | .service | .degraded | .halted =>
    requestWarm (setModule s { s.module with toTest := true, testScheduled := scheduled }) 5
  | _ => event s 0x0C10 0 (at_ 8 3 + at_ 16 (b2n scheduled))

/-- The states in which TEST_ENTER_CMD starts the entry. -/
def testStates (m : ModState) : Bool :=
  match m with
  | .config | .links | .service | .degraded | .halted => true
  | _ => false

def testEnterCheck (s : State) (sess : Nat) : Nat :=
  let t := param s sess 0x1340 3
  if t = 0 then (if testStates s.module.state then 0 else 5) else if t < s.ft + 10 * ms then 5 else 0

/-- The effect of TEST_ENTER_CMD 1. -/
def actTestEnter (sess : Nat) (s : State) : State :=
  let t := param s sess 0x1340 3
  if t = 0 then enterTest false s else setModule s { s.module with testAt := some t }

def execTestEnterCmd (sess value : Nat) (s : State) : Host.Outcome State Fault Refusal :=
  .next (actWrite s sess 0x1340 2 value (if value = 1 then testEnterCheck s sess else 0) id (onOne value (actTestEnter sess)))

/-- TEST_ENTRY_TIME (R435): `FT_NOW` has reached the scheduled time. -/
def testEntryTime (s : State) : State :=
  match s.module.testAt with
  | some t => if coreRuns s && t ≤ s.ft then enterTest true (setModule s { s.module with testAt := none }) else s
  | none => s
def execTestEntryTime (s : State) : Host.Outcome State Fault Refusal := .next (testEntryTime s)

/-! ### Loading an image (R438, R439) -/

/-- Why FW_LOAD_BEGIN is refused, as event 0x0C01 names it: 1 running slot, 2 PENDING, 3 claim held; 0 when it is not. In HALTED a
slot must be EMPTY or VERIFIED. -/
def loadRefusal (s : State) (sess : Nat) : Nat :=
  let k := param s sess 0x1310 1
  let st := (fwSlot s k).st
  if k = s.module.running || (s.module.state = .halted && st = .active) then 1
  else if st = .pending then 2
  else match s.module.claim with
    | some (n, _, _) => if n = sess then 0 else 3
    | none => 0

def loadCheck (s : State) (sess : Nat) : Nat :=
  match loadRefusal s sess with
  | 0 => 0
  | 3 => 6
  | _ => 5

/-- The session that holds the load claim, for a refusal to name. -/
def claimant (s : State) : Nat :=
  match s.module.claim with
  | some (n, _, _) => n
  | none => 0

def loadRefused (sess : Nat) (s : State) : State :=
  let c := loadRefusal s sess
  event s 0x0C01 0 (slotField s (param s sess 0x1310 1) + at_ 8 c + (if c = 3 then at_ 16 (claimant s % 65536) else 0))

/-- The effect of FW_LOAD_BEGIN 1: the session takes the load claim, and the erase begins. -/
def actLoadBegin (sess : Nat) (s : State) : State :=
  let k := param s sess 0x1310 1
  let s := setFwSlot s k {}
  setModule s { s.module with claim := some (sess, k, param s sess 0x1310 2), loadStatus := 1, loadSince := s.now, verifying := none }

def execFwLoadBegin (sess value : Nat) (s : State) : Host.Outcome State Fault Refusal :=
  .next (actWrite s sess 0x1310 3 value (if value = 1 then loadCheck s sess else 0) (loadRefused sess) (onOne value (actLoadBegin sess)))

/-- FW_ERASE_DONE (R438): the slot is LOADING, while a session holds the claim. -/
def fwEraseDone (s : State) : State :=
  if s.module.loadStatus ≠ 1 then s
  else match s.module.claim with
    | some (_, k, n) =>
      let s := setFwSlot s k { st := .loading, length := n }
      event (setModule s { s.module with loadStatus := 2 }) 0x0C00 0 (slotField s k)
    | none => setModule s { s.module with loadStatus := 0 }
def execFwEraseDone (s : State) : Host.Outcome State Fault Refusal := .next (fwEraseDone s)

/-- A block is refused: 3 a session without the claim, 4 its offset; 0 when it is not. -/
def blockRefusal (s : State) (sess : Nat) : Nat :=
  let o := param s sess 0x1310 4
  match s.module.claim with
  | some (n, _, len) => if n ≠ sess then 3 else if o % 4096 ≠ 0 || len ≤ o then 4 else 0
  | none => 3

def blockCheck (s : State) (sess : Nat) : Nat :=
  match blockRefusal s sess with
  | 0 => if s.module.loadStatus = 2 then 0 else 5
  | 4 => 4
  | _ => 5

def blockRefused (sess : Nat) (s : State) : State :=
  let c := blockRefusal s sess
  let k := match s.module.claim with
    | some (_, k, _) => k
    | none => param s sess 0x1310 1
  if c = 0 then s else event s 0x0C01 0 (slotField s k + at_ 8 c)

/-- The effect of a block: it is stored at its offset, in place of an earlier one. -/
def actBlock (sess : Nat) (data : List Byte) (s : State) : State :=
  match s.module.claim with
  | some (_, k, _) =>
    let o := param s sess 0x1310 4
    let x := fwSlot s k
    setFwSlot s k { x with image := Memory.writeBytes x.image o data, blocks := if x.blocks.contains o then x.blocks else x.blocks ++ [o] }
  | none => s

/-- FW_BLOCK_DATA (R439): 4,096 bytes. -/
def execFwBlockData (sess : Nat) (data : List Byte) (s : State) : Host.Outcome State Fault Refusal :=
  .next (actWrite s sess 0x1310 5 (leNat data) (if data.length ≠ 4096 then 4 else blockCheck s sess) (blockRefused sess) (actBlock sess data))

def loadEndCheck (s : State) (sess : Nat) : Nat :=
  match s.module.claim with
  | some (n, _, _) => if n = sess && s.module.loadStatus = 2 then 0 else 5
  | none => 5

/-- The effect of FW_LOAD_END 1: the verification begins. -/
def actLoadEnd (s : State) : State :=
  match s.module.claim with
  | some (_, k, _) => setModule s { s.module with loadStatus := 3, verifying := some k, loadSince := s.now }
  | none => s

def execFwLoadEnd (sess value : Nat) (s : State) : Host.Outcome State Fault Refusal :=
  .next (actWrite s sess 0x1310 6 value (if value = 1 then loadEndCheck s sess else 0) id (onOne value actLoadEnd))

/-- Why a loaded slot fails (R439), or 0. -/
def loadReason (s : State) (k : Nat) (flashOk : Bool) : Nat :=
  let x := fwSlot s k
  if !flashOk then 7 else if x.blocks.length * 4096 < x.length then 1 else imageReason s k

/-- FW_VERIFY_DONE (R437, R439): VERIFIED, or EMPTY with the reason. The claim ends with the load. -/
def fwVerifyDone (flashOk : Bool) (s : State) : State :=
  match s.module.verifying with
  | none => s
  | some k =>
    let r := loadReason s k flashOk
    let info := slotField s k
    let s := setModule s { s.module with verifying := none, claim := none, loadStatus := if r = 0 then 4 else 8 + r }
    if r = 0 then event (setFwSlot s k { fwSlot s k with st := .verified }) 0x0C02 0 info
    else event (setFwSlot s k {}) 0x0C03 0 (info + at_ 8 r)
def execFwVerifyDone (flashOk : Bool) (s : State) : Host.Outcome State Fault Refusal := .next (fwVerifyDone flashOk s)

/-! ### Activation (R440, R441) -/

/-- The states of R440 that allow an activation in a mode: 0 HITLESS, 1 WARM_RESET. -/
def activationStates (m : ModState) (mode : Nat) : Bool :=
  match m with
  | .links | .service | .degraded => true
  | .config | .test => mode = 1
  | _ => false

/-- The slot an activation starts: the one that is not running. -/
def otherSlot (s : State) : Nat := 1 - s.module.running

/-- Why FW_ACTIVATE_CMD is refused with event 0x0C0B, or 0. -/
def activateRefusal (s : State) (sess : Nat) : Nat :=
  let x := fwSlot s (otherSlot s)
  let mode := param s sess 0x1320 1
  if 2 ≤ s.module.running || x.st ≠ .verified then 1
  else if x.rejected then 2
  else if !activationStates s.module.state mode || s.module.warm.isSome then 3
  else if mode = 0 && !fmtFits (fwSlot s s.module.running) x then 4
  else 0

/-- FW_ACTIVATE_TIME lies less than 10 ms ahead. -/
def activateSoon (s : State) (sess : Nat) : Bool :=
  let t := param s sess 0x1320 2
  t ≠ 0 && t < s.ft + 10 * ms

def activateCheck (s : State) (sess : Nat) : Nat := if activateRefusal s sess ≠ 0 || activateSoon s sess then 5 else 0

def activateRefused (sess : Nat) (s : State) : State :=
  let c := activateRefusal s sess
  if c = 0 then s else event s 0x0C0B 0 (slotField s (otherSlot s) + at_ 8 c)

/-- An activation starts: the pause, or the warm reset. -/
def startActivation (s : State) (k mode : Nat) (unlocked : Bool) : State :=
  let s := setModule s { s.module with activation := none }
  let s := event s 0x0C06 0 (slotField s k + at_ 8 mode + at_ 16 (b2n unlocked))
  if mode = 0 then beginPause s k false else requestWarm s 2

/-- The effect of FW_ACTIVATE_CMD 1. -/
def actActivate (sess : Nat) (s : State) : State :=
  let k := otherSlot s
  let mode := param s sess 0x1320 1
  let t := param s sess 0x1320 2
  let s := setFwSlot s k { fwSlot s k with st := .pending }
  let s := event s 0x0C04 0 (slotField s k + at_ 8 mode)
  if t = 0 then startActivation s k mode false else setModule s { s.module with activation := some (k, mode, t) }

def execFwActivateCmd (sess value : Nat) (s : State) : Host.Outcome State Fault Refusal :=
  .next (actWrite s sess 0x1320 3 value (if value = 1 then activateCheck s sess else 0) (activateRefused sess) (onOne value (actActivate sess)))

/-- The effect of FW_ACTIVATE_CANCEL 1 on an activation that has not started. -/
def actActivateCancel (s : State) : State :=
  match s.module.activation with
  | some (k, _, _) =>
    let s := setFwSlot s k { fwSlot s k with st := .verified }
    event (setModule s { s.module with activation := none }) 0x0C05 0 (slotField s k)
  | none => s

def execFwActivateCancel (sess value : Nat) (s : State) : Host.Outcome State Fault Refusal :=
  .next (actWrite s sess 0x1320 4 value (if value = 1 && s.module.activation.isNone then 5 else 0) id (onOne value actActivateCancel))

/-- FW_ACTIVATION_START (R441): `FT_NOW` has reached the time of the activation; it starts or is missed. -/
def fwActivationStart (s : State) : State :=
  match s.module.activation with
  | some (k, mode, t) =>
    if s.ft < t then s
    else if activationStates s.module.state mode && s.module.warm.isNone then startActivation s k mode (!s.fab.locked)
    else
      let s := setFwSlot s k { fwSlot s k with st := .verified }
      event (setModule s { s.module with activation := none }) 0x0C0B 0 (slotField s k + at_ 8 5)
  | none => s
def execFwActivationStart (s : State) : Host.Outcome State Fault Refusal := .next (fwActivationStart s)

/-! ### The hitless pause (R442) -/

/-- The pause in µs so far. -/
def pauseUs (s : State) : Nat := (s.now - s.module.pauseSince) / us

/-- The running image resumes because the new one's body hash did not match: the new slot is VERIFIED again. A rollback that ends
so goes by warm reset. -/
def pauseAborted (s : State) : State :=
  let k := s.module.pauseSlot
  let n := pauseUs s
  let s := setFwSlot s k { fwSlot s k with st := .verified }
  let s := setModule s { s.module with pause := none, lastPauseUs := n }
  let s := event s 0x0C07 0 (s.module.running + at_ 8 (n % 2 ^ 24) + at_ 32 (fwVersion (fwSlot s s.module.running)))
  if s.module.isRollback then requestWarm (rejectRunning s) 4 else releaseWarm s

/-- HITLESS_PHASE_DONE (R442): quiesce waits for a commit under way; the load phase asks for one freeze of adaptation and ends with
the body hash checked again; `hashOk` says that flash gave the body as it was loaded. -/
def hitlessPhaseDone (hashOk : Bool) (s : State) : State :=
  match s.module.pause with
  | some .quiesce => if s.mgmt.inFlash.isSome then s else setModule s { s.module with pause := some .save }
  | some .save => freezeRequest (setModule s { s.module with pause := some .load }) false
  | some .load =>
    if hashOk && bodyHashOk (fwSlot s s.module.pauseSlot) then setModule (freezeRelease s false) { s.module with pause := some .restart }
    else pauseAborted (freezeRelease s false)
  | some .restart => s
  | none => s

/-- The new image has taken over the saved state: ACTIVE, on trial unless it is a rollback; the old slot is VERIFIED. A resumption
later than 150 ms has failed the health check (4). -/
def pauseEnds (s : State) : State :=
  let m := s.module
  let k := m.pauseSlot
  let n := pauseUs s
  let s := setFwSlot s m.running { fwSlot s m.running with st := .verified, trial := false }
  let s := setFwSlot s k { fwSlot s k with st := .active, trial := !m.isRollback }
  let s := setModule s { s.module with pause := none, running := k, prevSlot := m.running, lastPauseUs := n, isRollback := false
                                       watchdogAt := s.now, trialSince := if m.isRollback then none else some s.now }
  let s := event s 0x0C07 0 (slotField s k % 256 + at_ 8 (n % 2 ^ 24) + at_ 32 (fwVersion (fwSlot s k)))
  if 150000 < n && !m.isRollback then rollback s 4 else s

end Sys2Proof.Machine
end

