-- ==== Sys2Proof/Machine/Mgmt.lean ====
section
/-!
DEFINITION. Messages (chapter 17): reception on Harmir and through the mailboxes, sessions and their authentication, READ,
COMMIT, DISCARD and DESCRIBE, the witness and the heartbeat. WRITE stands with the objects that act, in Actions.
-/

namespace Sys2Proof.Machine

def setMgmt (s : State) (m : MgmtBlk) : State := { s with mgmt := m }

/-! ### States in which messages are served (R20, R22, R442, R452) -/

/-- The treadle serves sessions: it runs an image, or its boot ROM in HALTED. -/
def treadleServes (m : ModState) : Bool :=
  match m with
  | .config | .links | .service | .degraded | .test | .fenced | .halted => true
  | .off | .keeper | .feedsUp | .coreOn | .boot | .recovery => false

/-- Messages are handled now: not in the hitless pause. -/
def serves (s : State) : Bool := treadleServes s.module.state && s.module.pause.isNone

/-! ### Sending (R456, R459, R466, R470) -/

/-- The segments of a message for a mailbox, each with its MB_RESP_CTRL without READY: FIRST in bit 13, LAST in bit 12. -/
def mailboxSegments : Nat → Bool → List Byte → List (Nat × List Byte)
  | 0, _, _ => []
  | fuel + 1, first, bs =>
    let last := bs.length ≤ 1984
    let b := bs.take 1984
    (b.length + at_ 13 (b2n first) + at_ 12 (b2n last), b) :: (if last then [] else mailboxSegments fuel false (bs.drop 1984))

def mailbox (s : State) (v : Nat) : Mailbox := vget s.mgmt.mailboxes v {}
def setMailbox (s : State) (v : Nat) (x : Mailbox) : State := setMgmt s { s.mgmt with mailboxes := vset s.mgmt.mailboxes v x }

/-- The next waiting segment is placed in MB_RESP when it is free: READY, and vector 2. -/
def placeResponse (s : State) (v : Nat) : State :=
  let x := mailbox s v
  match x.queue with
  | (c, b) :: q => if bit x.respCtrl 31 then s else msi (setMailbox s v { x with respCtrl := c + at_ 31 1, resp := b, queue := q }) v 0 2
  | [] => s

def mailboxSend (s : State) (v : Nat) (bs : List Byte) : State :=
  let x := mailbox s v
  placeResponse (setMailbox (count s (ctrMgmt 4) 1) v { x with queue := x.queue ++ mailboxSegments 4 true bs }) v

/-- A whole message goes to a source: a node, or a mailbox. -/
def sendTo (s : State) (source prio typ tagId : Nat) (bs : List Byte) : State :=
  if 128 ≤ source then mailboxSend s (source - 128) bs else harmirSend s prio typ tagId source bs

def setSession (s : State) (x : Session) : State :=
  setMgmt s { s.mgmt with sessions := s.mgmt.sessions.map fun y => if y.num = x.num then x else y }

/-- An answer outside a session: no counter, no tag. -/
def answerPlain (s : State) (m : Msg) (typ : Nat) (body : List Byte) : State :=
  sendTo s m.source m.prio typ m.tagId (msgHeader typ m.tagId 0 body.length 0 ++ body)

/-- Answer a message: in its session with the session's next count and tag, which needs the session to be open still. -/
def reply (s : State) (m : Msg) (typ : Nat) (body : List Byte) : State :=
  if m.session = 0 then answerPlain s m typ body
  else
    match sessionOf s m.session with
    | none => s
    | some x =>
      let c := (x.txCount + 1) % 2 ^ 32
      let h := msgHeader typ m.tagId x.num body.length c
      sendTo (setSession s { x with txCount := c }) m.source m.prio typ m.tagId (h ++ body ++ msgTag x.key h body)

/-- The last answer to a request: the request is no longer outstanding. -/
def answerDone (s : State) (m : Msg) (typ : Nat) (body : List Byte) : State :=
  let s := reply s m typ body
  match sessionOf s m.session with
  | some x => if m.session = 0 then s else setSession s { x with outstanding := x.outstanding - 1 }
  | none => s

def statusBody (st : Nat) : List Byte := leBytes 1 st

/-! ### Receiving a whole message (R456, R459, R463, R468) -/

/-- The message types that requests of a session have. -/
def requestType (t : Nat) : Bool := t = 5 || t = 7 || t = 9 || t = 0x0B || t = 0x0C || t = 0x11

/-- Types that only answers have; the module, which is no client, ignores them. -/
def answerType (t : Nat) : Bool := t = 2 || t = 4 || t = 6 || t = 8 || t = 0x0A || t = 0x12 || t = 0x13

/-- Types tagged under the bus secret: a tagged heartbeat, and the witness messages. -/
def busType (t : Nat) (body : List Byte) : Bool := (0x0D ≤ t && t ≤ 0x10) || (t = 0 && bit (leAt body 12 1) 0)

def enqueueMsg (s : State) (m : Msg) : State := setMgmt s { s.mgmt with inbox := s.mgmt.inbox ++ [m] }

/-- A discarded message of a session (R456): counted, and event 0x0B06 at most once per session per 1 s. -/
def discardInSession (s : State) (x : Session) : State :=
  let s := count s (ctrMgmt 5) 1
  let n := x.discards + 1
  let due := match x.discardsAt with
    | some t => elapsed s t sec
    | none => true
  if due then event (setSession s { x with discards := 0, discardsAt := some s.now }) 0x0B06 0 (sessionInfo x + at_ 32 n)
  else setSession s { x with discards := n }

/-- A discarded message under the bus secret. -/
def discardOnBus (s : State) (m : Msg) : State :=
  rateEvent (count s (ctrMgmt 5) 1) 0x0B06 m.source sec fun s n => event s 0x0B06 0 (at_ 24 m.source + at_ 32 (n % 2 ^ 32))

/-- A message under the bus secret: its tag and the 64-bit bus count decide. -/
def receiveBus (s : State) (m : Msg) (header : List Byte) : State :=
  let n := m.counter + at_ 32 (leAt m.body 0 4)
  let newer := match Tbl.find? s.mgmt.busSeen m.source with
    | some h => decide (h < n)
    | none => true
  if 128 ≤ m.source then s
  else if newer && m.tag = msgTag (busSecret s) header m.body then
    enqueueMsg (setMgmt s { s.mgmt with busSeen := Tbl.set s.mgmt.busSeen m.source n }) m
  else discardOnBus s m

/-- A commit of the session waits or is in flash. -/
def committing (s : State) (num : Nat) : Bool :=
  s.mgmt.inbox.any (fun m => m.session = num && m.typ = 9) ||
    (match s.mgmt.inFlash with
     | some f => f.msg.session = num
     | none => false)

/-- A message of an open session that its source and its counter and tag let pass. -/
def receiveInSession (s : State) (x : Session) (m : Msg) : State :=
  let x := { x with rxCount := m.counter, lastMsg := s.now }
  let s := setSession s x
  if answerType m.typ then s
  else if !requestType m.typ then reply s m 0x13 (statusBody 1)
  else if 4 ≤ x.outstanding || committing s x.num then reply s m 0x13 (statusBody 10)
  else enqueueMsg (setSession s { x with outstanding := x.outstanding + 1 }) m

/-- A message without a session. -/
def receivePlain (s : State) (m : Msg) : State :=
  if m.typ = 1 || m.typ = 3 || m.typ = 5 then enqueueMsg s m
  else if answerType m.typ then s
  else answerPlain s m 0x13 (statusBody (if requestType m.typ then 3 else 1))

/-- A message has been received whole: header, body and, where one is due, tag. Outside the states that serve, only reads
without a session and heartbeats are taken (R452); HALTED serves the Harmir sessions of the installer and the maker (R22). -/
def receiveMsg (s : State) (source dst prio : Nat) (raw : List Byte) : State :=
  let n := leAt raw 2 2
  let m : Msg := { source := source, dst := dst, prio := prio, typ := leAt raw 0 1, tagId := leAt raw 1 1, session := leAt raw 4 2
                   counter := leAt raw 8 4, body := (raw.drop 12).take n, tag := raw.drop (12 + n) }
  let s := count s (ctrMgmt 3) 1
  if m.typ = 0 && (!bit (leAt m.body 12 1) 0 || supervisorOnly s) then (if 128 ≤ source then s else enqueueMsg s m)
  else if busType m.typ m.body then receiveBus s m (raw.take 12)
  else if !treadleServes s.module.state then (if m.typ = 5 && m.session = 0 then enqueueMsg s m else s)
  else if m.session = 0 then receivePlain s m
  else
    match s.mgmt.sessions.find? fun x => x.num = m.session && x.source = source && !(s.module.state = .halted && (x.role = 1 || 128 ≤ source)) with
    | none => count s (ctrMgmt 5) 1
    | some x => if x.rxCount < m.counter && m.tag = msgTag x.key (raw.take 12) m.body then receiveInSession s x m else discardInSession s x

/-- Bytes of the message whose first bytes are `raw`: header, body and tag. -/
def msgLength (raw : List Byte) : Nat :=
  let n := leAt raw 2 2
  let tagged := leAt raw 4 2 ≠ 0 || busType (leAt raw 0 1) ((raw.drop 12).take n)
  12 + n + (if tagged then 16 else 0)

/-- A message that cannot be put together (R467): counter 12, and STATUS with status 1. -/
def reassemblyFailed (s : State) (source prio tagId : Nat) : State :=
  answerPlain (count s (ctrMgmt 12) 1) { source := source, prio := prio, typ := 0, tagId := tagId } 0x13 (statusBody 1)

/-! ### CAN FD frames (R464 to R467) -/

/-- The length in the header and the bytes received agree: the last frame has the smallest length that holds its part. -/
def lengthsAgree (prior last : List Byte) : Bool :=
  let n := msgLength (prior ++ last)
  12 ≤ prior.length + last.length && leAt (prior ++ last) 2 2 ≤ 4308 && prior.length < n && n ≤ prior.length + last.length &&
    (canData (List.replicate (1 + (n - prior.length)) 0)).length = 1 + last.length

def assemblyKey (x : Assembly) (src typ tagId : Nat) : Bool := x.src = src && x.typ = typ && x.tagId = tagId

def dropAssembly (s : State) (src typ tagId : Nat) : State :=
  setMgmt s { s.mgmt with assembling := s.mgmt.assembling.filter fun x => !assemblyKey x src typ tagId }

/-- A segment continues or ends a message. -/
def takeSegment (s : State) (x : Assembly) (last : Bool) (data : List Byte) : State :=
  let s := dropAssembly s x.src x.typ x.tagId
  if last then
    if lengthsAgree x.bytes data then receiveMsg s x.src x.dst x.prio ((x.bytes ++ data).take (msgLength (x.bytes ++ data)))
    else reassemblyFailed s x.src x.prio x.tagId
  else setMgmt s { s.mgmt with assembling := s.mgmt.assembling ++ [{ x with bytes := x.bytes ++ data, since := s.now }] }

/-- A frame for this node: byte 0 is the segment byte. A continuation of no message is ignored. -/
def takeFrame (s : State) (prio typ tagId dst src : Nat) (seg : Nat) (data : List Byte) : State :=
  let first := bit seg 7
  let fresh : Assembly := { src := src, typ := typ, tagId := tagId, prio := prio, dst := dst, seq := 0, since := s.now, bytes := [] }
  match s.mgmt.assembling.find? fun x => assemblyKey x src typ tagId with
  | none =>
    if !first then s
    else if seg % 64 ≠ 0 then reassemblyFailed s src prio tagId
    else takeSegment s fresh (bit seg 6) data
  | some x =>
    if first then
      let s := reassemblyFailed (dropAssembly s src typ tagId) src prio tagId
      if seg % 64 ≠ 0 then s else takeSegment s fresh (bit seg 6) data
    else if seg % 64 ≠ (x.seq + 1) % 64 then reassemblyFailed (dropAssembly s src typ tagId) src prio tagId
    else takeSegment s { x with seq := seg % 64 } (bit seg 6) data

/-- CAN_FRAME_RECEIVE (R465, R466): a CAN FD frame with a 29-bit identifier. -/
def canFrameReceive (ident : Nat) (bytes : List Byte) (s : State) : State :=
  if s.module.state = .off || !harmirOn s then s
  else
    let s := count s (ctrMgmt 8) 1
    let dst := bits ident 8 8
    match bytes with
    | [] => s
    | seg :: data =>
      if (dst = 0 || dst = cfgv s 0x1120 1) && ident % 256 ≠ 0 && ident % 256 ≠ 255 then
        takeFrame s (bits ident 26 3) (bits ident 21 5) (bits ident 16 5) dst (ident % 256) seg.toNat (data.take 63)
      else s
def execCanFrameReceive (ident : Nat) (bytes : List Byte) (s : State) : Host.Outcome State Fault Refusal :=
  .next (canFrameReceive ident bytes s)

/-- SEGMENT_TIMEOUT (R467): more than 50 ms since the last segment. -/
def segmentTimeout (src typ tagId : Nat) (s : State) : State :=
  match s.mgmt.assembling.find? fun x => assemblyKey x src typ tagId with
  | some x => if x.since + 50 * ms < s.now then reassemblyFailed (dropAssembly s src typ tagId) src x.prio tagId else s
  | none => s
def execSegmentTimeout (src typ tagId : Nat) (s : State) : Host.Outcome State Fault Refusal := .next (segmentTimeout src typ tagId s)

/-- CAN_BUS_OFF (R464). -/
def canBusOff (s : State) : State :=
  if s.module.state = .off || !harmirOn s then s
  else event (count (setMgmt s { s.mgmt with canOff := true }) (ctrMgmt 11) 1) 0x0B09 0 0
def execCanBusOff (s : State) : Host.Outcome State Fault Refusal := .next (canBusOff s)

/-- CAN_BUS_OFF_RECOVERY (R464). -/
def canBusOffRecovery (s : State) : State :=
  if s.mgmt.canOff then event (setMgmt s { s.mgmt with canOff := false }) 0x0B09 0 (at_ 16 1) else s
def execCanBusOffRecovery (s : State) : Host.Outcome State Fault Refusal := .next (canBusOffRecovery s)

/-! ### Mailboxes (R469, R470) -/

/-- A segment is put together with those before it; on LAST the message is whole. -/
def mailboxTake (s : State) (v ctrl : Nat) (data : List Byte) : State :=
  let x := mailbox s v
  let n := ctrl % 4096
  let broken := (bit ctrl 13 && !x.building.isEmpty) || (!bit ctrl 13 && x.building.isEmpty) || n = 0 || 2048 < n
  let bs := (if bit ctrl 13 then [] else x.building) ++ fitBytes n data
  let fail (s : State) : State := reassemblyFailed s (128 + v) 2 0
  if n = 0 || 2048 < n || (!bit ctrl 13 && x.building.isEmpty) then fail (setMailbox s v { x with building := [] })
  else
    let s := if broken then fail s else s
    if !bit ctrl 12 then setMailbox s v { mailbox s v with building := bs }
    else
      let s := setMailbox s v { mailbox s v with building := [] }
      if 12 ≤ bs.length && leAt bs 2 2 ≤ 4308 && msgLength bs = bs.length then receiveMsg s (128 + v) 0 2 bs else fail s

/-- The module takes the segment in MB_REQ: GO is cleared, and vector 2 signalled. -/
def mailboxFree (s : State) (v : Nat) : State :=
  let x := mailbox s v
  if !x.reqBusy then s
  else
    let s := setMailbox s v { x with reqBusy := false, reqCtrl := x.reqCtrl % 2 ^ 31 }
    msi (mailboxTake s v x.reqCtrl x.reqBytes) v 0 2

/-- The partition's host reaches the management function. -/
def mailboxUp (s : State) (v : Nat) : Bool := partEnabled s v && inService s && (partOf s v).resetSince.isNone

/-- MB_REQ_SEGMENT (R469, R470): MB_REQ_CTRL holds what is written to it, and GO hands the segment over; ignored while GO is set; in
the hitless pause the segment waits (R442). -/
def mbReqSegment (v ctrl : Nat) (data : List Byte) (s : State) : State :=
  let x := mailbox s v
  if !mailboxUp s v || x.reqBusy then s
  else
    let s := setMailbox s v { x with reqBusy := bit ctrl 31, reqCtrl := bits ctrl 0 14 + at_ 31 (b2n (bit ctrl 31)), reqBytes := data.take 2048 }
    if bit ctrl 31 && serves s then mailboxFree s v else s
def execMbReqSegment (v : Vs) (ctrl : Nat) (bytes : List Byte) (s : State) : Host.Outcome State Fault Refusal :=
  .next (mbReqSegment v.val ctrl bytes s)

/-- MB_RESP_TAKEN (R470). -/
def mbRespTaken (v : Nat) (s : State) : State :=
  let x := mailbox s v
  if bit x.respCtrl 31 then placeResponse (setMailbox s v { x with respCtrl := 0, resp := [] }) v else s
def execMbRespTaken (v : Vs) (s : State) : Host.Outcome State Fault Refusal := .next (mbRespTaken v.val s)

/-! ### The next message to handle (R463) -/

/-- The oldest message of a type that no earlier message of its session precedes. -/
def firstOf (typ : Nat) : List Msg → List Msg → Option Msg
  | _, [] => none
  | seen, m :: ms =>
    if m.typ = typ && (m.session = 0 || !seen.any fun x => x.session = m.session) then some m else firstOf typ (m :: seen) ms

/-- Take the next message of a type from the inbox. -/
def nextMsg (s : State) (typ : Nat) : Option (State × Msg) :=
  match firstOf typ [] s.mgmt.inbox with
  | some m => some (setMgmt s { s.mgmt with inbox := s.mgmt.inbox.erase m }, m)
  | none => none

/-- Handle the next message of a type, where the module serves it. -/
def handle (typ : Nat) (f : State → Msg → State) (s : State) : State :=
  if !serves s then s
  else match nextMsg s typ with
    | some (t, m) => f t m
    | none => s

/-! ### Sessions (R453, R455, R458) -/

def hmacRole (s : State) (role : Nat) (label : String) (rest : List Byte) : List Byte := hmac384 (roleSecret s role) (ascii label ++ rest)

/-- The module byte of R455. -/
def moduleByte (s : State) (source : Nat) : Nat := if 128 ≤ source then 0 else cfgv s 0x1120 1

def attemptProof (s : State) (a : AuthAttempt) : List Byte :=
  hmacRole s a.role "HARMIR-A1" (a.nm ++ a.nc ++ leBytes 1 a.source ++ leBytes 1 (moduleByte s a.source) ++ leBytes 1 a.role)

/-- Harmir sessions: at most 8, and at most 2 for one node. -/
def sessionRoom (s : State) (source : Nat) : Bool :=
  let hs := s.mgmt.sessions.filter fun x => x.source < 128
  128 ≤ source || (hs.length < 8 && (hs.filter fun x => x.source = source).length < 2)

/-- Why AUTH_BEGIN is refused, or 0. -/
def beginRefusal (s : State) (m : Msg) : Nat :=
  let role := leAt m.body 0 1
  if m.body.length < 17 then 1
  else if s.mgmt.lockouts.any (fun r => r.1 = m.source) then 9
  else if role = 0 || 3 < role then 1
  else if role = 3 && 128 ≤ m.source then 7
  else if !s.vault.entropyOk || (s.module.state = .halted && (role = 1 || 128 ≤ m.source)) then 5
  else if !sessionRoom s m.source then 10
  else 0

/-- The first session number from `n` on that no session and no attempt has. -/
def freeSession (used : List Nat) : Nat → Nat → Nat
  | 0, n => n
  | fuel + 1, n => if used.contains n then freeSession used fuel (n % 65535 + 1) else n

/-- AUTH_BEGIN (R455): the challenge, or AUTH_RESULT with the refusal. A source has one attempt at a time. -/
def authBegin : State → State := handle 1 fun s m =>
  let st := beginRefusal s m
  if st ≠ 0 then answerPlain s m 4 (statusBody st)
  else
    let used := (s.mgmt.sessions.map fun x => x.num) ++ s.mgmt.attempts.map fun a => a.num
    let num := freeSession used 64 s.mgmt.nextSession
    let nm := leBytes 16 (drawn s).toNat
    let a : AuthAttempt := { source := m.source, role := leAt m.body 0 1, num := num, nc := (m.body.drop 1).take 16, nm := nm
                             since := s.now, tagId := m.tagId }
    let s := setMgmt (afterDraw s) { s.mgmt with nextSession := num % 65535 + 1
                                                 attempts := (s.mgmt.attempts.filter fun x => x.source ≠ m.source) ++ [a] }
    answerPlain s m 2 (leBytes 2 num ++ nm)
def execAuthBegin (s : State) : Host.Outcome State Fault Refusal := .next (authBegin s)

/-- A failed attempt (R455): cause 1 proof wrong, 2 timeout. The fifth failure of a source within 60 s locks it out. -/
def authFailed (s : State) (a : AuthAttempt) (cause : Nat) : State :=
  let s := setMgmt s { s.mgmt with attempts := s.mgmt.attempts.filter fun x => x.num ≠ a.num }
  let info := a.num + at_ 16 a.role + at_ 24 a.source
  let s := answerPlain s { source := a.source, typ := 3, tagId := a.tagId } 4 (statusBody 8)
  let s := event (privCount s 6) 0x0B02 0 (info + at_ 32 cause)
  let fs := (s.mgmt.failures.filter fun r => s.now < r.2 + 60 * sec) ++ [(a.source, s.now)]
  if 5 ≤ (fs.filter fun r => r.1 = a.source).length then
    event (setMgmt s { s.mgmt with failures := fs.filter (fun r => r.1 ≠ a.source), lockouts := s.mgmt.lockouts ++ [(a.source, s.now)] }) 0x0B03 0 info
  else setMgmt s { s.mgmt with failures := fs }

/-- The lowest free session slot: 1 to 8 on Harmir, 9 + partition for a mailbox. -/
def sessionSlot (s : State) (source : Nat) : Nat :=
  if 128 ≤ source then 9 + (source - 128)
  else ((List.range 8).map fun i => i + 1).find? (fun i => !s.mgmt.sessions.any fun x => x.slot = i) |>.getD 8

/-- A session opens (R455, R458). -/
def openSession (s : State) (m : Msg) (a : AuthAttempt) : State :=
  let tail := a.nc ++ a.nm ++ leBytes 2 a.num
  let pm := hmacRole s a.role "HARMIR-B1" tail
  let k := hmacRole s a.role "HARMIR-S1" tail
  let s := if 128 ≤ a.source then endMailbox s (a.source - 128) 4 else s
  let x : Session := { slot := sessionSlot s a.source, num := a.num, role := a.role, source := a.source, key := k, lastMsg := s.now }
  let s := setMgmt s { s.mgmt with sessions := s.mgmt.sessions ++ [x], attempts := s.mgmt.attempts.filter fun y => y.num ≠ a.num }
  let s := event (count s (ctrMgmt (a.role - 1)) 1) 0x0B00 0 (sessionInfo x)
  answerPlain s m 4 (statusBody 0 ++ pm)

/-- AUTH_PROOF (R455). -/
def authProof : State → State := handle 3 fun s m =>
  match s.mgmt.attempts.find? fun a => a.source = m.source with
  | none => answerPlain s m 4 (statusBody 1)
  | some a =>
    let a := { a with tagId := m.tagId }
    if elapsed s a.since sec then authFailed s a 2
    else if m.body.take 48 ≠ attemptProof s a then authFailed s a 1
    else if !sessionRoom s a.source then
      answerPlain (setMgmt s { s.mgmt with attempts := s.mgmt.attempts.filter fun y => y.num ≠ a.num }) m 4 (statusBody 10)
    else openSession s m a
def execAuthProof (s : State) : Host.Outcome State Fault Refusal := .next (authProof s)

/-- AUTH_TIMEOUT (R455): no proof within 1 s of the challenge. -/
def authTimeout (num : Nat) (s : State) : State :=
  match s.mgmt.attempts.find? fun a => a.num = num with
  | some a => if elapsed s a.since sec then authFailed s a 2 else s
  | none => s
def execAuthTimeout (sess : Nat) (s : State) : Host.Outcome State Fault Refusal := .next (authTimeout sess s)

/-- LOCKOUT_END (R455): after 60 s. -/
def lockoutEnd (source : Nat) (s : State) : State :=
  match s.mgmt.lockouts.find? fun r => r.1 = source with
  | some r => if elapsed s r.2 (60 * sec) then setMgmt s { s.mgmt with lockouts := s.mgmt.lockouts.erase r } else s
  | none => s
def execLockoutEnd (source : Nat) (s : State) : Host.Outcome State Fault Refusal := .next (lockoutEnd source s)

/-- SESSION_IDLE_TIMEOUT (R458): cause 2. -/
def sessionIdleTimeout (num : Nat) (s : State) : State :=
  match sessionOf s num with
  | some x => if elapsed s x.lastMsg (cfgv s 0x1103 2 * sec) && s.module.pause.isNone then endSession s num 2 else s
  | none => s
def execSessionIdleTimeout (sess : Nat) (s : State) : Host.Outcome State Fault Refusal := .next (sessionIdleTimeout sess s)

/-- SESSION_END (R458, R460): answered by STATUS, then cause 1. -/
def sessionEnd : State → State := handle 0x0C fun s m => endSession (answerDone s m 0x13 (statusBody 0)) m.session 1
def execSessionEnd (s : State) : Host.Outcome State Fault Refusal := .next (sessionEnd s)

/-! ### READ, DISCARD, DESCRIBE (R452, R460, R461) -/

/-- The range of an OCTETS object that a read item asks for: offset 0 and length 0 is the whole, length 0 reaches to the end.
A range of another object, or past the end, is status 4. -/
def ranged (r : ReadItem) (off len : Nat) : ReadItem :=
  if r.status ≠ 0 || (off = 0 && len = 0) then r
  else if r.typ ≠ 9 || r.bytes.length < off + len then { status := 4, typ := r.typ }
  else { r with bytes := (r.bytes.drop off).take (if len = 0 then r.bytes.length else len) }

def answerItem (index sub : Nat) (r : ReadItem) : List Byte :=
  leBytes 2 index ++ leBytes 1 sub ++ leBytes 1 r.status ++ leBytes 1 r.typ ++ leBytes 1 r.flags ++ leBytes 2 r.bytes.length ++ r.bytes

/-- The (index, sub-index, offset, length) reads of a body's items; none where it is malformed. -/
def readItems : Nat → List Byte → Option (List (Nat × Nat × Nat × Nat))
  | 0, _ => some []
  | n + 1, bs =>
    let c := leAt bs 3 1
    if bs.length < 10 || c = 0 then none
    else
      let sub := leAt bs 2 1
      match readItems n (bs.drop 10) with
      | some rs => some (((List.range c).filter fun i => sub + i < 256).map (fun i => (leAt bs 0 2, sub + i, leAt bs 4 4, leAt bs 8 2)) ++ rs)
      | none => none

/-- Read each item in turn: the answers, and how many; no answer goes past the longest body. -/
def readAll (sess : Nat) : List (Nat × Nat × Nat × Nat) → State → List Byte → Nat → State × List Byte × Nat
  | [], s, bs, n => (s, bs, n)
  | (ix, sub, off, len) :: rs, s, bs, n =>
    let r := ranged (readObject s sess ix sub) off len
    let b := answerItem ix sub r
    if 4307 < bs.length + b.length || 254 < n then (s, bs, n)
    else readAll sess rs (if r.status = 0 then afterRead s ix sub else s) (bs ++ b) (n + 1)

def readMsg (s : State) (m : Msg) : State :=
  match readItems (leAt m.body 0 1) (m.body.drop 1) with
  | none => answerDone s m 0x13 (statusBody 1)
  | some rs =>
    if m.body.length = 0 then answerDone s m 0x13 (statusBody 1)
    else
      let r := readAll m.session rs s [] 0
      answerDone r.1 m 6 (leBytes 1 r.2.2 ++ r.2.1)

/-- READ (R461). Without a session the public set is read, by the supervisor too (R452). -/
def read (s : State) : State :=
  if serves s then handle 5 readMsg s
  else if s.module.state = .off || s.module.pause.isSome then s
  else match nextMsg s 5 with
    | some (t, m) => if m.session = 0 then readMsg t m else s
    | none => s
def execRead (s : State) : Host.Outcome State Fault Refusal := .next (read s)

/-- DISCARD (R460): status 13 with nothing pending. -/
def discard : State → State := handle 0x0B fun s m =>
  match sessionOf s m.session with
  | none => s
  | some x =>
    if x.staged.isEmpty then answerDone s m 0x13 (statusBody 13)
    else answerDone (setSession s { x with staged := [] }) m 0x13 (statusBody 0)
def execDiscard (s : State) : Host.Outcome State Fault Refusal := .next (discard s)

/-- The body of DESCRIBE_RESP (R460): rights are each 0 none, 1 R, 2 W, 3 RW. -/
def describeBody (index sub : Nat) : List Byte :=
  let entry (typ len rights store kind n : Nat) : List Byte :=
    leBytes 1 0 ++ leBytes 1 typ ++ leBytes 2 len ++ leBytes 1 rights ++ leBytes 1 store ++ leBytes 1 kind ++ leBytes 1 n
  match capRead Config.f48 index sub with
  | some (t, _) => entry t 0 0x15 2 0 0
  | none =>
    match objRow index sub with
    | some r => entry r.typ (if r.typ = 9 then r.len else 0) r.rights r.store r.kind.code ((arrayCount index).getD 0)
    | none =>
      match (if sub = 0 then arrayCount index else none) with
      | some n => entry 1 0 0x15 2 0 n
      | none => leBytes 8 2

/-- DESCRIBE (R460). -/
def describe : State → State := handle 0x11 fun s m =>
  if m.body.length < 3 then answerDone s m 0x13 (statusBody 1)
  else answerDone s m 0x12 (describeBody (leAt m.body 0 2) (leAt m.body 2 1))
def execDescribe (s : State) : Host.Outcome State Fault Refusal := .next (describe s)

/-! ### COMMIT (R471, R472) -/

/-- The body of COMMIT_RESP: status, refused object, holder, first journal number, items applied. -/
def commitBody (st obj holder first n : Nat) : List Byte :=
  leBytes 1 st ++ leBytes 2 (keyIndex obj) ++ leBytes 1 (keySub obj) ++ leBytes 2 (keyIndex holder) ++ leBytes 1 (keySub holder) ++ leBytes 1 0 ++
    leBytes 4 first ++ leBytes 2 n

/-- Why a commit is refused whatever it holds, or 0: HALTED, FENCED, a warm reset under way. -/
def commitState (s : State) : Nat :=
  match s.module.state with
  | .halted | .fenced => 5
  | _ => if s.module.warm.isSome then 5 else 0

/-- A change of the Harmir settings is sent under the old ones: they change after the answer (R482). -/
def underHarmir (old : State) (f : State → State) (s : State) : State :=
  let t := f { s with cfg := [1, 2, 3].foldl (fun t i => Tbl.set t (key 0x1120 i) (cfgv old 0x1120 i)) s.cfg }
  { t with cfg := s.cfg }

/-- An item of the set changes a Harmir setting. -/
def harmirChanges (s : State) (items : List (Nat × Nat)) : Bool := items.any fun i => keyIndex i.1 = 0x1120 && i.2 ≠ keyValue s i.1

/-- Apply a checked commit and give its final answer; then what acts after it: new Harmir settings end every Harmir session,
and zeroisation and unlock follow (R482, R496, R500). -/
def finishCommit (s : State) (m : Msg) (x : Session) (items : List (Nat × Nat)) : State :=
  let old := s
  let bus := harmirChanges s items
  let r := applyCommit s x items
  let s := match sessionOf r.1 x.num with
    | some y => setSession r.1 { y with staged := [] }
    | none => r.1
  let s := underHarmir old (fun s => answerDone s m 0x0A (commitBody 0 0 0 r.2 items.length)) s
  let s := if bus then endSessions (afterFree s) (fun y => y.source < 128) (freeValue s % 256) else s
  let s := if items.any (fun i => i.1 = key 0x7F01 0) then debugUnlock s x.num else s
  if items.any (fun i => i.1 = key 0x7F20 0 && i.2 = 1) then requestWarm (zeroise s 2) 6 else s

/-- A commit that flash does not take is refused with status 12, and nothing is applied (R476). -/
def commitFails (s : State) (m : Msg) (x : Session) : State :=
  let s := refuseCommit s x [] { status := 12, obj := 0 }
  answerDone s m 0x0A (commitBody 12 0 0 0 0)

/-- COMMIT: the checks; then at once, or with status 11 first. -/
def commitMsg (quick : Bool) (s : State) (m : Msg) : State :=
  match sessionOf s m.session with
  | none => s
  | some x =>
    let st := commitState s
    if st ≠ 0 then answerDone (refuseCommit s x x.staged { status := st, obj := 0 }) m 0x0A (commitBody st 0 0 0 0)
    else if x.staged.isEmpty then answerDone s m 0x0A (commitBody 13 0 0 0 0)
    else
      match checkCommit s x.role x.staged with
      | some r => answerDone (refuseCommit s x x.staged r) m 0x0A (commitBody r.status r.obj r.holder 0 0)
      | none =>
        if quick then finishCommit s m x x.staged
        else
          let s := reply s m 0x0A (commitBody 11 0 0 0 0)
          setMgmt s { s.mgmt with inFlash := some { msg := m, by_ := x, items := x.staged } }

/-- COMMIT (R471): one at a time. `quick` says that the work is done within 5 ms. -/
def commit (quick : Bool) (s : State) : State := if s.mgmt.inFlash.isSome then s else settle (handle 9 (commitMsg quick) s)
def execCommit (quick : Bool) (s : State) : Host.Outcome State Fault Refusal := .next (commit quick s)

/-- COMMIT_FLASH_DONE (R471): the stored configuration is written, or could not be; a held warm reset may then start (R434). -/
def commitFlashDone (ok : Bool) (s : State) : State :=
  match s.mgmt.inFlash with
  | none => s
  | some f =>
    let s := setMgmt s { s.mgmt with inFlash := none }
    settle (releaseWarm (if ok then finishCommit s f.msg f.by_ f.items else commitFails s f.msg f.by_))
def execCommitFlashDone (ok : Bool) (s : State) : Host.Outcome State Fault Refusal := .next (commitFlashDone ok s)

/-! ### Heartbeats (R468) -/

/-- HEARTBEAT_SEND (R468): every 5 ms ± 0.5 ms from BOOT onward. -/
def heartbeatSend (s : State) : State :=
  if supervisorOnly s || s.module.state = .coreOn then s
  else if s.mgmt.heartbeatAt = 0 || elapsed s s.mgmt.heartbeatAt (4500 * us) then
    sendHeartbeat (setMgmt s { s.mgmt with heartbeatAt := s.now }) 0 0
  else s
def execHeartbeatSend (s : State) : Host.Outcome State Fault Refusal := .next (heartbeatSend s)

/-- HEARTBEAT (R468): liveness from a tagged one; one sent to this node alone is a ping, which is answered. -/
def heartbeat (s : State) : State :=
  match nextMsg s 0 with
  | none => s
  | some (s, m) =>
    let s := count s (ctrMgmt 13) 1
    let s := if bit (leAt m.body 12 1) 0 && !supervisorOnly s then
        setMgmt s { s.mgmt with heard := Tbl.set s.mgmt.heard m.source (s.now, leNat m.body) }
      else s
    if m.dst = 0 then s else sendHeartbeat s m.source m.tagId
def execHeartbeat (s : State) : Host.Outcome State Fault Refusal := .next (heartbeat s)

/-! ### The witness (R218 to R220, R478 to R480) -/

def findLease (s : State) (kind ident : Nat) : Option Lease := s.mgmt.leases.find? fun x => x.kind = kind && x.ident = ident

/-- Record a lease in place of the one of its identity. -/
def putLease (s : State) (x : Lease) : State :=
  let same (y : Lease) : Bool := y.kind = x.kind && y.ident = x.ident
  let ls := s.mgmt.leases
  setMgmt s { s.mgmt with leases := if ls.any same then ls.map (fun y => if same y then x else y) else ls ++ [x] }

/-- A decided claim: event 0x0B08 and CLAIM_RESP. -/
def claimAnswer (s : State) (c : PendingClaim) (status term : Nat) : State :=
  let s := event (count s (ctrMgmt 15) 1) 0x0B08 0 (c.claimant % 1024 + at_ 10 status + at_ 32 c.ident)
  busSend s 0x10 c.tagId c.source (leBytes 1 status ++ leBytes 4 term)

def claimsOn (s : State) (kind ident : Nat) : List PendingClaim := s.mgmt.claims.filter fun c => c.kind = kind && c.ident = ident

/-- Grant a claim: the term above the recorded and the claimed one; the other claims on the identity are refused with status 3. -/
def grantClaim (s : State) (c : PendingClaim) : State :=
  let rec_ := match findLease s c.kind c.ident with
    | some x => x.term
    | none => 0
  let term := (max rec_ c.term + 1) % 2 ^ 32
  let others := (claimsOn s c.kind c.ident).filter fun d => d ≠ c
  let s := putLease s { kind := c.kind, ident := c.ident, holder := c.claimant, term := term, since := s.now, live := true }
  let s := setMgmt s { s.mgmt with claims := s.mgmt.claims.filter fun d => !(d.kind = c.kind && d.ident = c.ident) }
  others.foldl (fun s d => claimAnswer s d 3 term) (claimAnswer s c 0 term)

/-- The holder has renewed: pending claims on the identity are refused. -/
def refuseClaims (s : State) (kind ident term : Nat) : State :=
  let cs := claimsOn s kind ident
  let s := setMgmt s { s.mgmt with claims := s.mgmt.claims.filter fun d => !(d.kind = kind && d.ident = ident) }
  cs.foldl (fun s d => claimAnswer s d 1 term) s

def leaseAnswer (s : State) (m : Msg) (status holder term left : Nat) : State :=
  busSend (count s (ctrMgmt 14) 1) 0x0E m.tagId m.source (leBytes 1 status ++ leBytes 2 holder ++ leBytes 4 term ++ leBytes 4 left)

/-- The lease's remaining lifetime, µs. -/
def leaseLeft (s : State) (x : Lease) : Nat := if x.live then (x.since + 20 * ms - s.now) / us else 0

/-- This module acts as a witness. -/
def witnesses (s : State) : Bool := cfgOn s 0x1121 0 && serves s && s.module.state ≠ .halted

/-- LEASE (R478): the first row that applies. -/
def lease (s : State) : State :=
  if !witnesses s then s
  else match nextMsg s 0x0D with
    | none => s
    | some (s, m) =>
      let kind := leAt m.body 4 1
      let ident := leAt m.body 5 4
      let holder := leAt m.body 9 2
      let term := leAt m.body 11 4
      let fresh : Lease := { kind := kind, ident := ident, holder := holder, term := term, since := s.now, live := true }
      match findLease s kind ident with
      | none =>
        if 16 ≤ s.mgmt.leases.length then leaseAnswer s m 1 holder term 0
        else leaseAnswer (event (putLease s fresh) 0x0B07 0 (holder % 1024 + at_ 32 ident)) m 0 holder term 20000
      | some x =>
        if term < x.term then leaseAnswer s m 2 x.holder x.term (leaseLeft s x)
        else if x.holder = holder then refuseClaims (leaseAnswer (putLease s fresh) m 0 holder term 20000) kind ident term
        else leaseAnswer s m 1 x.holder x.term (leaseLeft s x)
def execLease (s : State) : Host.Outcome State Fault Refusal := .next (lease s)

/-- A lease of the identity is live. -/
def leaseLive (s : State) (kind ident : Nat) : Bool :=
  match findLease s kind ident with
  | some x => x.live
  | none => false

/-- LEASE_EXPIRY (R478, R220): 20 ms after its last renewal; a claim that waits for it is granted. -/
def leaseExpiry (slot : Nat) (s : State) : State :=
  match s.mgmt.leases[slot]? with
  | none => s
  | some x =>
    if x.live && elapsed s x.since (20 * ms) && witnesses s then
      let s := putLease s { x with live := false }
      match (claimsOn s x.kind x.ident).head? with
      | some c => if s.mgmt.witnessOpen then grantClaim s c else s
      | none => s
    else s
def execLeaseExpiry (slot : Fin 16) (s : State) : Host.Outcome State Fault Refusal := .next (leaseExpiry slot.val s)

/-- CLAIM (R479): granted at once when no lease is live; else held, as is every claim in the witness's first 20 ms (R480). -/
def claim (s : State) : State :=
  if !witnesses s then s
  else match nextMsg s 0x0F with
    | none => s
    | some (s, m) =>
      let c : PendingClaim := { source := m.source, tagId := m.tagId, kind := leAt m.body 4 1, ident := leAt m.body 5 4
                                claimant := leAt m.body 9 2, term := leAt m.body 11 4, since := s.now }
      if s.mgmt.witnessOpen && !leaseLive s c.kind c.ident then grantClaim s c
      else setMgmt s { s.mgmt with claims := s.mgmt.claims ++ [c] }
def execClaim (s : State) : Host.Outcome State Fault Refusal := .next (claim s)

/-- CLAIM_PENDING_TIMEOUT (R220): after 25 ms. -/
def claimPendingTimeout (slot : Nat) (s : State) : State :=
  match s.mgmt.claims[slot]? with
  | none => s
  | some c =>
    if elapsed s c.since (25 * ms) && s.mgmt.witnessOpen && witnesses s then
      if leaseLive s c.kind c.ident then
        claimAnswer (setMgmt s { s.mgmt with claims := s.mgmt.claims.erase c }) c 2 (((findLease s c.kind c.ident).map Lease.term).getD 0)
      else grantClaim s c
    else s
def execClaimPendingTimeout (slot : Fin 16) (s : State) : Host.Outcome State Fault Refusal := .next (claimPendingTimeout slot.val s)

/-- WITNESS_STARTUP_END (R480): 20 ms after the witness starts; the held claims are decided in order of arrival. -/
def witnessStartupEnd (s : State) : State :=
  if witnesses s && !s.mgmt.witnessOpen && elapsed s s.mgmt.witnessSince (20 * ms) then
    let s := setMgmt s { s.mgmt with witnessOpen := true }
    s.mgmt.claims.foldl (fun s c => if s.mgmt.claims.contains c && !leaseLive s c.kind c.ident then grantClaim s c else s) s
  else s
def execWitnessStartupEnd (s : State) : Host.Outcome State Fault Refusal := .next (witnessStartupEnd s)

end Sys2Proof.Machine
end

