-- ==== Sys2Proof/Machine/Actions.lean ====
section
/-!
DEFINITION. Writes of objects (R5, R450, R461): what is staged, what a session keeps for itself, and which action each object
that acts starts; the WRITE message; and the end of the hitless pause, which hands over what it held.
-/

namespace Sys2Proof.Machine

/-! ### Actions whose objects have no chapter of their own before this one -/

/-- FEED_CLEAR (R416). -/
def execFeedClear (sess : Nat) (f : Feed) (value : Nat) (s : State) : Host.Outcome State Fault Refusal :=
  .next (actWrite s sess 0x2006 (feedSub f) value 0 id (onOne value fun s => health (actFeedClear f s) 0))

/-- PAIR_CLEAR 1 deletes the selected secret. -/
def actPairClear (sess : Nat) (s : State) : State :=
  { s with vault := { s.vault with secrets := Tbl.erase s.vault.secrets (pairKey (param s sess 0x4210 1)) } }

/-- PRIV_STICKY_CLEAR: a set bit clears its sticky bit. -/
def actStickyClear (value : Nat) (s : State) : State :=
  { s with obs := { s.obs with sticky := (setBits 64 value).foldl (fun x i => putBit x i false) s.obs.sticky } }

/-- FW_BLOCK_OFFSET is held for the session that wrote it (R439). -/
def actBlockOffset (sess value : Nat) (s : State) : State :=
  match sessionOf s sess with
  | some x => setSession s { x with params := Tbl.set x.params (key 0x1310 4) value }
  | none => s

/-! ### The action of an object -/

/-- The state an outcome leads to. -/
def outState (o : Host.Outcome State Fault Refusal) (s : State) : State :=
  match o with
  | .next t => t
  | .fault _ => s
  | .refused _ => s

/-- Apply an action to an element of a fixed number, if it exists. -/
def onFin (n k : Nat) (f : Fin n → State) (s : State) : State := if h : k < n then f ⟨k, h⟩ else s

/-- Actions of the firmware, the power stage, the lanes and the partitions. -/
def actLow (sess index sub v : Nat) (s : State) : State :=
  match index, sub with
  | 0x1310, 3 => outState (execFwLoadBegin sess v s) s
  | 0x1310, 4 => actWrite s sess index sub v 0 id (actBlockOffset sess v)
  | 0x1310, 5 => outState (execFwBlockData sess (leBytes 4096 v) s) s
  | 0x1310, 6 => outState (execFwLoadEnd sess v s) s
  | 0x1320, 3 => outState (execFwActivateCmd sess v s) s
  | 0x1320, 4 => outState (execFwActivateCancel sess v s) s
  | 0x1340, 1 => outState (execWarmResetCmd sess v s) s
  | 0x1340, 2 => outState (execTestEnterCmd sess v s) s
  | 0x2006, 1 => outState (execFeedClear sess .a v s) s
  | 0x2006, _ => outState (execFeedClear sess .b v s) s
  | 0x2110, _ => outState (execFtSet sess v s) s
  | 0x3020, _ => outState (execMarginStart sess v s) s
  | 0x3030, _ => outState (execAdaptFreeze (.session sess v) s) s
  | 0x3110, _ => outState (execProxyFree sess v s) s
  | 0x3207, p => onFin 128 (p - 1) (fun p => outState (execWeftRetrainCmd sess p v s) s) s
  | 0x3305, n => onFin 32 (n - 1) (fun n => outState (execVsResetCmd sess n v s) s) s
  | _, _ => s

/-- Actions of the fabric, the shuttle, the guards, the dobby and chapter 20. -/
def actHigh (sess index sub v : Nat) (s : State) : State :=
  let k := sub - 1
  match index with
  | 0x4106 => outState (execMasterForce sess v s) s
  | 0x4210 => actWrite s sess index sub v 0 id (onOne v (actPairClear sess))
  | 0x4212 => outState (execRekeyAll sess v s) s
  | 0x4311 => onFin 32 k (fun n => outState (execPostfailClear sess n v s) s) s
  | 0x5000 => outState (execHedCommit sess v s) s
  | 0x5102 => onFin 130 k (fun d => outState (execSelErrClear sess d v s) s) s
  | 0x5106 => onFin 32 k (fun n => outState (execSelIsolateCmd sess n v s) s) s
  | 0x6017 => actWrite s sess index sub v 0 id (onOne v (actBerrClear k))
  | 0x6018 => actWrite s sess index sub v 0 id (onOne v actInBerrClear)
  | 0x6022 => actWrite s sess index sub v 0 id (actIhRearm v)
  | 0x6030 => dobConnCmd (bits v 30 2) sess v s
  | 0x7003 => outState (execTallyHold sess v s) s
  | 0x7012 => actWrite s sess index sub v 0 id (actStickyClear v)
  | 0x7108 => onFin 33 k (fun r => outState (execSpoolRelease sess r v s) s) s
  | 0x7109 => onFin 33 k (fun r => outState (execSpoolMark sess r v s) s) s
  | 0x710B => onFin 33 k (fun r => outState (execSpoolRewind sess r v s) s) s
  | 0x710C => onFin 33 k (fun r => outState (execSpoolRestart sess r v s) s) s
  | 0x7202 => outState (execBoltRelease sess v s) s
  | 0x7203 => outState (execBoltCapture sess v s) s
  | _ => s

/-- The write of an object of kind ACTION or CONTROL. -/
def actObject (sess index sub v : Nat) (s : State) : State :=
  if index < 0x4000 then actLow sess index sub v s else actHigh sess index sub v s

/-! ### A write of any object (R450, R461) -/

/-- Bytes that a session's pending set holds. -/
def stagedBytes (x : Session) : Nat :=
  (x.staged.map fun i => match objRow (keyIndex i.1) (keySub i.1) with
    | some r => typeBytes r.typ r.len
    | none => 0).sum

/-- Place a value in the pending set, behind the others: a set may hold several values of one object, which are checked and put in
force in the order written (R70, R471). Status 10 when the set is full or its commit is in progress (R462, R471). -/
def stageValue (s : State) (x : Session) (k v bytes : Nat) : State × Nat :=
  if committing s x.num then (s, 10)
  else if 256 ≤ x.staged.length || 65536 < stagedBytes x + bytes then (s, 10)
  else (setSession s { x with staged := x.staged ++ [(k, v)] }, 0)

/-- The rights and the range of a write, or 0. The own-pass settings of H128 and H129 have one value each (R338); HALTED takes the
writes that its services need and no other (R22). -/
def writeStatus (s : State) (x : Session) (r : ObjRow) (index sub v : Nat) : Nat :=
  if !r.mayWrite x.role || !mailboxReaches x index sub then 3
  else if s.module.state = .halted && !haltedServes index then 5
  else if !r.inRange v || (index = 0x5002 && ((sub = 129 && v ≠ 1) || (sub = 130 && v ≠ 0))) then 4
  else 0

/-- A value of the right length for its type is written by a session: the status. ACTION and CONTROL objects answer through the
status that they emit, which is taken back here. -/
def writeValue (s : State) (x : Session) (r : ObjRow) (index sub v : Nat) : State × Nat :=
  match r.kind with
  | .status => (s, 3)
  | .config =>
    let st := writeStatus s x r index sub v
    if st ≠ 0 then (s, st) else stageValue s x (selectedKey s x.num index sub) (plainValue index sub v) (typeBytes r.typ r.len)
  | .param =>
    let st := writeStatus s x r index sub v
    if st ≠ 0 then (s, st) else (setSession s { x with params := Tbl.set x.params (key index sub) v }, 0)
  | .action | .control =>
    let t := actObject x.num index sub v s
    let new := t.tx.drop s.tx.length
    match new.findSome? (fun e => match e with
      | .status n ix sb st => if n = x.num && ix = index && sb = sub then some st else none
      | _ => none) with
    | some st =>
      ({ t with tx := t.tx.take s.tx.length ++ new.filter fun e => match e with
          | .status n ix sb _ => !(n = x.num && ix = index && sb = sub)
          | _ => true }, st)
    | none => (t, 0)

/-- The rows' objects and the registers without a row share this write: a read-only object is not written (R5). -/
def objectWrite (sess index sub v : Nat) (s : State) : State :=
  match sessionOf s sess with
  | none => emit s (.status sess index sub 3)
  | some x =>
    match objRow index sub with
    | none => emit s (.status sess index sub (if (capRead Config.f48 index sub).isSome || (sub = 0 && (arrayCount index).isSome) then 3 else 2))
    | some r =>
      let t := writeValue s x r index sub v
      emit t.1 (.status sess index sub t.2)

/-- REGISTER_WRITE (R5): a session's write of any object; held in the hitless pause (R442). -/
def registerWrite (sess index sub v : Nat) (s : State) : State :=
  if s.module.pause.isSome then setMgmt s { s.mgmt with heldWrites := s.mgmt.heldWrites ++ [(sess, index, sub, v)] }
  else settle (objectWrite sess index sub v s)
def execRegisterWrite (sess index sub value : Nat) (s : State) : Host.Outcome State Fault Refusal := .next (registerWrite sess index sub value s)

/-! ### WRITE (R457, R461) -/

/-- A KEY value is unwrapped with the session's key (R457). -/
def unwrapKey (x : Session) (counter index sub : Nat) (val : List Byte) : Option Nat :=
  if val.length ≠ 48 then none
  else
    match gcmOpen ((hmac384 x.key (ascii "HARMIR-W1")).take 32) (leBytes 4 counter ++ leBytes 8 0) (leBytes 2 index ++ leBytes 1 sub)
        (val.take 32) (val.drop 32) with
    | some p => some (leNat p)
    | none => none

/-- One write item: the status. -/
def writeItem (s : State) (x : Session) (counter index sub : Nat) (val : List Byte) : State × Nat :=
  match objRow index sub with
  | none => (s, if (capRead Config.f48 index sub).isSome || (sub = 0 && (arrayCount index).isSome) then 3 else 2)
  | some r =>
    if !r.mayWrite x.role || !mailboxReaches x index sub then (s, 3)
    else if r.typ = 12 then
      match unwrapKey x counter index sub val with
      | some v => writeValue s x r index sub v
      | none => (s, 4)
    else if val.length ≠ typeBytes r.typ r.len then (s, 4)
    else writeValue s x r index sub (leNat val)

/-- The items of a WRITE body: index, sub-index, value; none where it is malformed. -/
def writeItems : Nat → List Byte → Option (List (Nat × Nat × List Byte))
  | 0, _ => some []
  | n + 1, bs =>
    let len := leAt bs 4 2
    if bs.length < 6 + len then none
    else
      match writeItems n (bs.drop (6 + len)) with
      | some is => some ((leAt bs 0 2, leAt bs 2 1, (bs.drop 6).take len) :: is)
      | none => none

/-- Write each item in turn, for the session as it then stands. -/
def writeAll (sess counter : Nat) : List (Nat × Nat × List Byte) → State → List Nat → State × List Nat
  | [], s, sts => (s, sts)
  | (ix, sub, val) :: is, s, sts =>
    match sessionOf s sess with
    | none => (s, sts ++ [3])
    | some x =>
      let t := writeItem s x counter ix sub val
      writeAll sess counter is t.1 (sts ++ [t.2])

def writeMsg (s : State) (m : Msg) : State :=
  match (if m.body.isEmpty then none else writeItems (leAt m.body 0 1) (m.body.drop 1)) with
  | none => answerDone s m 0x13 (statusBody 1)
  | some is =>
    let r := writeAll m.session m.counter is s []
    answerDone r.1 m 8 (leBytes 1 r.2.length ++ r.2.flatMap fun st => leBytes 1 st)

/-- WRITE (R461). -/
def write (s : State) : State := settle (handle 7 writeMsg s)
def execWrite (s : State) : Host.Outcome State Fault Refusal := .next (write s)

/-! ### The end of the hitless pause (R442) -/

/-- Writes held by the pause act, oldest first; mailbox segments that waited are taken. -/
def releaseHeld (s : State) : State :=
  let ws := s.mgmt.heldWrites
  let s := setMgmt s { s.mgmt with heldWrites := [] }
  let s := ws.foldl (fun s w => objectWrite w.1 w.2.1 w.2.2.1 w.2.2.2 s) s
  (List.range 32).foldl mailboxFree s

/-- HITLESS_RESUME (R442): the new image has taken over. -/
def hitlessResume (s : State) : State :=
  match s.module.pause with
  | some .restart => settle (releaseHeld (releaseWarm (pauseEnds s)))
  | _ => s
def execHitlessResume (s : State) : Host.Outcome State Fault Refusal := .next (hitlessResume s)

/-- HITLESS_PHASE_DONE (R442): when the load phase ends the activation, what the pause held is handed over too. -/
def execHitlessPhaseDone (hashOk : Bool) (s : State) : Host.Outcome State Fault Refusal :=
  let t := hitlessPhaseDone hashOk s
  .next (if s.module.pause.isSome && t.module.pause.isNone then settle (releaseHeld t) else t)

end Sys2Proof.Machine
end

