-- ==== Sys2Proof/Machine/Targets.lean ====
section
/-!
DEFINITION. The internal targets behind H128 as a partition's requests reach them (R116, R295, R298, R300, R302, R380,
R469): configuration registers, BAR0 of the management function, of an instance and of the dobby function. Registers are
read and written a doubleword at a time, under the byte enables of the request.
-/

namespace Sys2Proof.Machine

/-! ### Doublewords -/

/-- `old` with the bytes that `be` enables replaced. -/
def mergeBytes (old new be : Nat) : Nat :=
  (List.range 4).foldl (fun w k => if bit be k then putBits w (8 * k) 8 (bits new (8 * k) 8) else w) old

/-- `bs` with the enabled bytes of the doubleword at offset `o` replaced. -/
def mergeAt (bs : List Byte) (o new be : Nat) : List Byte :=
  (List.range bs.length).map fun k =>
    if o ≤ k && k < o + 4 && bit be (k - o) then BitVec.ofNat 8 (bits new (8 * (k - o)) 8) else (bs[k]?).getD 0

/-- The half of a 64-bit register at a doubleword: 0 the lower. -/
def half (x h : Nat) : Nat := bits x (32 * h) 32

/-- A 64-bit register with one of its halves written. -/
def mergeHalf (x h new be : Nat) : Nat := putBits x (32 * h) 32 (mergeBytes (half x h) new be)

/-- The doublewords that an access covers: offset from the access's first doubleword, and enables. -/
def accessDwords (t : Tlp) : List (Nat × Nat) :=
  let n := max t.len t.data.length
  let lo := t.addr / 4
  (List.range ((t.addr + n + 3) / 4 - lo)).map fun k =>
    (4 * k, ((List.range 4).map fun b => if enabledAt t.addr n t.firstBe t.lastBe (4 * (lo + k) + b) then at_ b 1 else 0).sum)

/-- The data of a write for the doubleword `k` bytes past the first one. -/
def dwordOf (t : Tlp) (k : Nat) : Nat :=
  ((List.range 4).map fun b =>
    let a := t.addr / 4 * 4 + k + b
    if a < t.addr then 0 else at_ (8 * b) ((t.data[a - t.addr]?).getD 0).toNat).sum

/-! ### MSI-X tables (R295, R300) -/

def msixEntry (s : State) (v fn vec : Nat) : Nat := Tbl.get s.eng.msix (msixKey v fn vec) (2 ^ 96)

/-- A write to a table entry; a vector that is pending is sent when its mask is cleared. -/
def msixWrite (s : State) (v fn off new be : Nat) : State :=
  let vec := off / 16
  let k := msixKey v fn vec
  let w := msixEntry s v fn vec
  let lo := off % 16 * 8
  let w := putBits w lo 32 (mergeBytes (bits w lo 32) new be)
  let s := { s with eng := { s.eng with msix := Tbl.set s.eng.msix k w } }
  if !bit w 96 && s.eng.msixPending.contains k then
    emit { s with eng := { s.eng with msixPending := s.eng.msixPending.filter fun j => j ≠ k } } (.msi v fn vec)
  else s

def msixRead (s : State) (v fn off : Nat) : Nat := bits (msixEntry s v fn (off / 16)) (off % 16 * 8) 32

/-- Pending bits of 32 vectors. -/
def msixPba (s : State) (v fn first : Nat) : Nat :=
  ((List.range 32).map fun k => if s.eng.msixPending.contains (msixKey v fn (first + k)) then at_ k 1 else 0).sum

/-! ### BAR0 of the management function (R295, R302, R469) -/

/-- MB_STATUS. -/
def mailboxStatus (s : State) (v : Nat) : Nat :=
  b2n (mailbox s v).reqBusy + (match s.mgmt.sessions.find? fun x => x.source = 128 + v with
    | some x => 2 + at_ 8 (x.num % 65536)
    | none => 0)

def mailboxRead (s : State) (v off : Nat) : Nat :=
  let x := mailbox s v
  if off = 0 then x.reqCtrl
  else if off = 4 then x.respCtrl
  else if off = 0xC then mailboxStatus s v
  else if 0x40 ≤ off && off < 0x800 then leAt (fitBytes 1984 x.resp) (off - 0x40) 4
  else if 0x800 ≤ off && off < 0x1000 then leAt (fitBytes 2048 x.reqBytes) (off - 0x800) 4
  else 0

/-- A write to the mailbox: GO hands the request segment over; the buffer is the host's until then. -/
def mailboxWrite (s : State) (v off new be : Nat) : State :=
  let x := mailbox s v
  if off = 0 then mbReqSegment v (mergeBytes x.reqCtrl new be) x.reqBytes s
  else if off = 8 then (if mergeBytes 0 new be = 1 then mbRespTaken v s else s)
  else if 0x800 ≤ off && off < 0x1000 && !x.reqBusy then
    setMailbox s v { x with reqBytes := mergeAt (fitBytes 2048 x.reqBytes) (off - 0x800) new be }
  else s

def admRead (s : State) (v off : Nat) : Nat :=
  let x := admOf s v
  match off with
  | 0x00 => half x.base 0
  | 0x04 => half x.base 1
  | 0x08 => half x.cqBase 0
  | 0x0C => half x.cqBase 1
  | 0x10 => x.size
  | 0x18 => b2n (x.enabled && !x.disabling)
  | 0x30 => b2n x.enabled + at_ 1 (b2n x.stopped)
  | _ => 0

def admWrite (s : State) (v off new be : Nat) : State :=
  let x := admOf s v
  match off with
  | 0x00 => setAdm s v { x with base := mergeHalf x.base 0 new be }
  | 0x04 => setAdm s v { x with base := mergeHalf x.base 1 new be }
  | 0x08 => setAdm s v { x with cqBase := mergeHalf x.cqBase 0 new be }
  | 0x0C => setAdm s v { x with cqBase := mergeHalf x.cqBase 1 new be }
  | 0x10 => setAdm s v { x with size := mergeBytes x.size new be &&& 0x0F0F }
  | 0x18 => if bit be 0 then admqCtrl v (mergeBytes 0 new be) s else s
  | 0x20 => admqTailDoorbell v (mergeBytes 0 new be) s
  | 0x28 => admcqHead v (mergeBytes 0 new be) s
  | _ => s

/-- A 2-byte entry of the instance map. -/
def instanceMap (s : State) (v vf : Nat) : Nat :=
  match instOfVf s v vf with
  | some i => at_ 15 1 + i % 2048
  | none => 0

/-- VF request pending: 32 VFs. -/
def vfRinging (s : State) (v first : Nat) : Nat :=
  ((List.range 32).map fun k => if s.eng.ringing.contains (vfKey v (first + k)) then at_ k 1 else 0).sum

def clearRinging (s : State) (v first w : Nat) : State :=
  let gone := (setBits 32 w).map fun k => vfKey v (first + k)
  { s with eng := { s.eng with ringing := s.eng.ringing.filter fun k => !gone.contains k } }

/-- A doubleword of BAR0 of the management function. -/
def mgmtRead (s : State) (v off : Nat) : Nat :=
  if off < 0x1000 then mailboxRead s v off
  else if off < 0x2000 then admRead s v (off - 0x1000)
  else if off < 0x2200 then instanceMap s v ((off - 0x2000) / 2) + at_ 16 (instanceMap s v ((off - 0x2000) / 2 + 1))
  else if 0x4000 ≤ off && off < 0x8000 then
    leAt (Tbl.get s.eng.mirror (vfKey v ((off - 0x4000) / 64)) (List.replicate 64 0)) (off % 64) 4
  else if 0x8000 ≤ off && off < 0xC000 then
    leAt (Tbl.get s.eng.replies (vfKey v ((off - 0x8000) / 64)) (List.replicate 64 0)) (off % 64) 4
  else if 0xC000 ≤ off && off < 0xC020 then vfRinging s v ((off - 0xC000) * 8)
  else if 0x10000 ≤ off && off < 0x10400 then msixRead s v 0 (off - 0x10000)
  else if 0x18000 ≤ off && off < 0x18008 then msixPba s v 0 ((off - 0x18000) * 8)
  else 0

/-- A write to a VF's reply slot: only a write of the last byte can hand the reply over (R301). -/
def replyWrite (s : State) (v off new be : Nat) : State :=
  let k := vfKey v (off / 64)
  let bs := mergeAt (Tbl.get s.eng.replies k (List.replicate 64 0)) (off % 64) new be
  if off % 64 = 60 && bit be 3 then vfReplyWrite v (off / 64) bs s
  else { s with eng := { s.eng with replies := Tbl.set s.eng.replies k bs } }

def mgmtWrite (s : State) (v off new be : Nat) : State :=
  if off < 0x1000 then mailboxWrite s v off new be
  else if off < 0x2000 then admWrite s v (off - 0x1000) new be
  else if 0x8000 ≤ off && off < 0xC000 then replyWrite s v (off - 0x8000) new be
  else if 0xC000 ≤ off && off < 0xC020 then clearRinging s v ((off - 0xC000) * 8) (mergeBytes 0 new be)
  else if 0x10000 ≤ off && off < 0x10400 then msixWrite s v 0 (off - 0x10000) new be
  else s

/-! ### BAR0 of an instance (R300, R301) -/

def vfStatus (x : InstState) : Nat := ((x.queues.filter fun q => !q.2.deleting).map fun q => at_ (q.1 % 16) 1).sum + at_ 16 (b2n x.flr.isSome)

def vfRead (s : State) (i off : Nat) : Nat :=
  match instOf s i with
  | none => 0
  | some x =>
    if off = 0x100 then vfStatus x
    else if off = 0x108 then x.errors
    else if 0xC00 ≤ off && off < 0xC40 then leAt x.request (off - 0xC00) 4
    else if off = 0xC48 then x.msgState
    else if 0xC80 ≤ off && off < 0xCC0 then leAt x.reply (off - 0xC80) 4
    else if 0x2000 ≤ off && off < 0x2110 then msixRead s x.vs (1 + i) (off - 0x2000)
    else if off = 0x3000 then msixPba s x.vs (1 + i) 0
    else 0

/-- CQ_HEAD of a queue: completions the driver has consumed. -/
def cqHeadWrite (s : State) (i q head : Nat) : State :=
  match queueOfInst s i q with
  | some (_, k) => setQueueOf s i q { k with cqHead := head % 2 ^ k.cqLog }
  | none => s

def vfWrite (s : State) (i off new be : Nat) : State :=
  match instOf s i with
  | none => s
  | some x =>
    let w := mergeBytes 0 new be
    if off < 0x80 then (if off % 8 = 0 then sqTailDoorbell i (off / 8) w s else s)
    else if off < 0x100 then (if off % 8 = 0 then cqHeadWrite s i ((off - 0x80) / 8) w else s)
    else if off = 0x108 then setInst s i { x with errors := (setBits 16 w).foldl (fun e q => putBit e q false) x.errors }
    else if 0xC00 ≤ off && off < 0xC40 then setInst s i { x with request := mergeAt (fitBytes 64 x.request) (off - 0xC00) new be }
    else if off = 0xC40 then vfMsgRing i w s
    else if 0x2000 ≤ off && off < 0x2110 then msixWrite s x.vs (1 + i) (off - 0x2000) new be
    else s

/-! ### BAR0 of the dobby function (R380) -/

/-- IRQ_PENDING. -/
def irqPending (s : State) (v : Nat) : Nat := ((s.dob.raises.filter fun r => r.2.1 = v).map fun r => at_ r.1 1).sum

/-- A read of the dobby function's registers; one of a semaphore may claim it (R396). -/
def dobRegRead (s : State) (v off : Nat) : State × Nat :=
  if off = 8 then (s, irqPending s v)
  else if off = 0x18 then (s, Tbl.get s.dob.irqResult v 0)
  else if 0x100 ≤ off && off < 0x140 then semClaim s v ((off - 0x100) / 4)
  else if 0x300 ≤ off && off < 0x320 then
    (s, match Tbl.find? s.dob.berr v with
      | some l => bits (DobLog.word l) (8 * (off - 0x300)) 32
      | none => 0)
  else (s, 0)

def dobRegWrite (s : State) (v off new be : Nat) : State :=
  let w := mergeBytes 0 new be
  if off = 0 then irqRaise v w s
  else if off = 0x10 then irqWithdraw v w s
  else if 0x100 ≤ off && off < 0x140 then semWrite v ((off - 0x100) / 4) w s
  else if off = 0x200 then ihRearm v w s
  else if off = 0x320 then (if w = 1 then actBerrClear v s else s)
  else s

/-! ### Requests at H128 -/

/-- The registers that a request at H128 is for: a configuration function, or the BAR it falls in. -/
def targetHop (s : State) (v : Nat) (t : Tlp) : Hop :=
  match t.kind with
  | .cfgRead | .cfgWrite => configHop s v (t.addr / 4096)
  | .ioRead | .ioWrite => .none
  | _ => (internalHop s v t.addr).getD .none

/-- A doubleword of a target. -/
def targetRead (s : State) (v : Nat) (h : Hop) (k : Nat) : State × Nat :=
  match h with
  | .config fn => (s, configRead s v fn k)
  | .mgmt off => (s, mgmtRead s v (off / 4 * 4 + k))
  | .vf i off => (s, vfRead s i (off / 4 * 4 + k))
  | .dobReg off => dobRegRead s v (off / 4 * 4 + k)
  | _ => (s, 0)

def targetWrite (s : State) (v : Nat) (h : Hop) (k new be : Nat) : State :=
  match h with
  | .config fn => configWrite s v fn k new be
  | .mgmt off => mgmtWrite s v (off / 4 * 4 + k) new be
  | .vf i off => vfWrite s i (off / 4 * 4 + k) new be
  | .dobReg off => dobRegWrite s v (off / 4 * 4 + k) new be
  | _ => s

/-- Read the doublewords of a request in ascending order. -/
def readDwords (v : Nat) (h : Hop) : List (Nat × Nat) → State → List Byte → State × List Byte
  | [], s, bs => (s, bs)
  | (k, _) :: ks, s, bs =>
    let q := targetRead s v h k
    readDwords v h ks q.1 (bs ++ leBytes 4 q.2)

/-- The ID of the function that completes a request. -/
def targetId (s : State) (v : Nat) (h : Hop) (t : Tlp) : Nat :=
  let b := internalBus s v
  match h with
  | .config _ => t.addr / 4096 % 65536
  | .vf i _ => (b + 1) * 256 + (match instOf s i with | some x => x.vf % 256 | none => 0)
  | .dobReg _ => b * 256 + 249
  | _ => b * 256 + 248

/-- A request reaches its internal target. A poisoned write has no effect (PRESUMED, log entry 61: the standard's rule for a
completer); one that no function holds any more, and an AtomicOp, are refused. -/
def atTarget (s : State) (o : Origin) (t : Tlp) : State :=
  let v := o.vs
  let h := targetHop s v t
  let id := targetId s v h t
  let done := fun (s : State) (data : List Byte) => if tlpKind t = 1 then answer s 128 o t id 0 false data else
    (match o.ret with
      | .dobby => answer s 128 o t id 0 false []
      | _ => s)
  match h, t.kind with
  | .none, _ => refuseTlp s 128 o t 1
  | .config fn, .cfgRead => done s (leBytes 4 (configRead s v fn (t.addr % 4096 / 4)))
  | .config fn, .cfgWrite => done (if t.ep then s else configWrite s v fn (t.addr % 4096 / 4) (leAt t.data 0 4) t.firstBe) []
  | .vf i off, .memRead =>
    if 0x1000 ≤ off && off < 0x2000 && t.len = 4 then fenceSlotRead s i ((off - 0x1000) / 4) 128 o t
    else
      let q := readDwords v h (accessDwords t) s []
      done q.1 ((q.2.drop (t.addr % 4)).take t.len)
  | _, .memRead | _, .memReadLocked =>
    let q := readDwords v h (accessDwords t) s []
    done q.1 ((q.2.drop (t.addr % 4)).take t.len)
  | _, .memWrite | _, .deferrableWrite =>
    done (if t.ep then s else
      (accessDwords t).foldl (fun s r => if r.2 = 0 then s else targetWrite s v h r.1 (dwordOf t r.1) r.2) s) []
  | _, _ => refuseTlp s 128 o t 1

end Sys2Proof.Machine
end

