-- ==== Sys2Proof/Machine/Egress.lean ====
section
/-!
DEFINITION. The egress side of the loom (R14, R32, R120, R121, R150, R154, R160, R176, R177, R187, R191): which item leaves next,
an operation that a weft port is still receiving among them, and what happens to it as it is read out.
-/

namespace Sys2Proof.Machine

/-! ### What an egress can take -/

/-- A destination can take an item. The service attachment and a warp link always do: the credits of the link partner are
not the module's state (log entry 63). A weft port does when no operation it holds waits to start. -/
def egressOpen (s : State) (d : Nat) : Bool :=
  if 128 ≤ d then d = 128 && coreRuns s
  else if isWarp s d then forwards s && (warpPort s d).st = .active
  else isWeft s d && forwards s && (weftPort s d).link = .active && (weftPort s d).out.all fun o => o.started

/-- The item has its egress credit (R90). -/
def hasCredit (s : State) (d : Nat) (i : LoomItem) : Bool :=
  if d < 128 && isWeft s d then creditsFor (weftPort s d) i.tc (ceilDiv i.bytes 64) else true

/-- The completion reservation that the item needs: bobbins (R154). -/
def needs (s : State) (d : Nat) (i : LoomItem) : Nat :=
  match i.cargo with
  | .tlp t => if d < 128 && isWarp s d && i.kind = 1 then reservation t else 0
  | .oper _ => 0

/-- The item can leave now but for its completion reservation. -/
def ripe (s : State) (d : Nat) (i : LoomItem) : Bool :=
  i.place = .resident && unblocked (queueOf s d) i && hasCredit s d i

/-- The item can leave now. -/
def eligible (s : State) (d : Nat) (i : LoomItem) : Bool := ripe s d i && needs s d i ≤ sharedFree s

def weight (s : State) (d tc : Nat) : Nat := bits (cfgv s 0x4040 (d + 1)) (8 * tc) 8

/-! ### Cut-through (R32, R177) -/

/-- The share of published capacity in the port's slice is at least the port's line rate (R32). -/
def shareCovers (s : State) (d : Nat) : Bool := trainedWidth s d * laneRate s d * 256 ≤ s.gov.capacity * portWidth s d * 10

/-- The operation that port `p` is still receiving, as an item for egress `d`, where its envelope passes R190 and its route leads there.
Its length is not known: it counts as the longest, 65 slots (log entry 62). -/
def relayItem (s : State) (d p : Nat) : Option LoomItem :=
  let x := weftPort s p
  let o := arrivedOp x.opening
  let i : LoomItem := { operItem s p 0 4160 o with id := s.loom.nextId, relay := some p }
  if x.openSlots = 0 || x.relayTo.isSome || envVersion o ≠ 1 || envTyp o = 12 || 14 ≤ envTyp o || isDirected o || heldOut s p ||
      isOwnMid s (envDst o / 128) || s.module.state = .fenced || 6 ≤ envHops o || overAge s i || routePort s o 0 ≠ some d then none
  else some i

/-- The operations that egress `d` could relay now: none with an eligible item of its (d, t) queue ahead of it. -/
def relayItems (s : State) (d : Nat) : List LoomItem :=
  if d < 128 && isWeft s d && shareCovers s d then
    ((weftPorts s).filterMap (relayItem s d)).filter fun i => !(queueOf s d).any fun j => j.tc = i.tc && eligible s d j
  else []

/-- What an egress chooses from: its queue, then what it could relay. -/
def candidates (s : State) (d : Nat) : List LoomItem := queueOf s d ++ relayItems s d

/-- The oldest eligible item that is no control item, of a class. -/
def oldestOf (s : State) (d tc : Nat) : Option LoomItem :=
  (candidates s d).find? fun i => i.kind ≠ 3 && i.tc = tc && eligible s d i

/-- The classes in the order in which deficit round robin looks at them after class `t`. -/
def classRound (t : Nat) : List Nat := (List.range 8).map fun k => (t + 1 + k) % 8

def setDeficit (s : State) (d tc n : Nat) : State := { s with loom := { s.loom with deficit := Tbl.set s.loom.deficit (8 * d + tc) n } }
def deficit (s : State) (d tc : Nat) : Nat := Tbl.get s.loom.deficit (8 * d + tc) 0

/-- Deficit round robin among the weighted classes (R176): the class in turn goes on while its deficit covers its item; then
the next class with an item receives its quantum. -/
def weightedChoice (s : State) (d : Nat) : Option (State × LoomItem) :=
  let t := Tbl.get s.loom.turn d 0
  let ready := fun (tc : Nat) => weight s d tc ≠ 0 && (oldestOf s d tc).isSome
  let stay := match oldestOf s d t with
    | some i => if weight s d t ≠ 0 && i.bytes ≤ deficit s d t then some i else none
    | none => none
  match stay with
  | some i => some (setDeficit s d t (deficit s d t - i.bytes), i)
  | none =>
    match (classRound t).find? ready with
    | some u =>
      match oldestOf s d u with
      | some i =>
        let s := setDeficit s d u (deficit s d u + 4224 * weight s d u - i.bytes)
        some ({ s with loom := { s.loom with turn := Tbl.set s.loom.turn d u } }, i)
      | none => none
    | none => none

/-- The choice of R176: control in arrival order, then the strict classes, the higher first, then the weighted ones. -/
def chooseItem (s : State) (d : Nat) : Option (State × LoomItem) :=
  match (candidates s d).find? fun i => i.kind = 3 && eligible s d i with
  | some i => some (s, i)
  | none =>
    match (List.range 8).reverse.findSome? fun tc => if weight s d tc = 0 then oldestOf s d tc else none with
    | some i => some (s, i)
    | none => weightedChoice s d

/-- A request that only its completion reservation holds back is counted once (R181). -/
def countWaits (s : State) (d : Nat) : State :=
  (queueOf s d).foldl (fun s i =>
    if !i.waited && i.kind = 1 && ripe s d i && sharedFree s < needs s d i then
      count (setQueue s d ((queueOf s d).map fun j => if j.id = i.id then { j with waited := true } else j)) (ctrLoom d 5) 1
    else s) s

/-- Take the next item for an egress out of its queue; over-age items on the way are discarded (R174). -/
def takeItem : Nat → State → Nat → Option (State × LoomItem) × State
  | 0, s, _ => (none, s)
  | fuel + 1, s, d =>
    match chooseItem s d with
    | none => (none, s)
    | some (t, i) => if overAge s i then takeItem fuel (ageOut s d i) d else (some (removeItem t d i.id, i), s)

/-! ### Out of a weft or twin port -/

/-- The envelope as it leaves: HOP_COUNT one higher, and CONG set when the loom has marked the item (R171, R187). A probe keeps
HOP_COUNT 0 (R193). -/
def leavingEnv (o : WireOp) (mark : Bool) : Nat :=
  let e := o.env.toNat
  let e := if envTyp o = 12 then e else putBits e 16 4 (envHops o + 1)
  if mark then putBit e 15 true else e

/-- An own operation is encrypted as it leaves; one whose ledger entry or key is gone leaves no more. -/
def sealedFor (s : State) (i : LoomItem) (o : WireOp) : Option WireOp :=
  match i.own with
  | none => some o
  | some (l, _) =>
    match Tbl.find? s.shu.ledger l with
    | some e => sealOwn s e.cid o
    | none => none

/-- What is written as an operation leaves the pins: T_TX of a probe; T_TX and the tag of a beacon (R193, R194, R263). -/
def atPins (s : State) (p : Nat) (o : WireOp) : WireOp :=
  if envTyp o = 12 then { o with body := o.body.take 40 ++ leBytes 8 s.ft }
  else if envTyp o = 14 then
    match Tbl.find? s.shu.linkKeys p with
    | some k => sealBeacon k o.env.toNat (o.body.take 24 ++ leBytes 8 s.ft)
    | none => o
  else o

/-- An operation that port `p` is still receiving starts to leave by `d` (R177): its first slots go, and its others follow as their
flits pass their checks. -/
def startRelay (s : State) (d p : Nat) (i : LoomItem) (o : WireOp) : State :=
  let x := weftPort s p
  let q := drawMark s d i.tc
  let r := storeChain q.1 p (cells x.opening.length) false none
  let s := setWeft r.1 p { weftPort r.1 p with relayTo := some (d, r.2) }
  let y := weftPort s d
  let bs := leBytes 16 (leavingEnv o q.2) ++ x.opening.drop 16
  count (setWeft s d { y with out := y.out ++ [{ tc := i.tc, slots := x.openSlots, left := bs, relay := some p, whole := false }] }) (ctrLoom d 14) 1

/-- An operation leaves a weft port: it is handed to the link as its slots, and starts under the credits of R90. -/
def leaveWeft (s : State) (p : Nat) (i : LoomItem) (o : WireOp) : State :=
  if 6 ≤ envHops o then
    let s := count (releaseItem s i) (ctrPort p 20) 1
    rateEvent s 0x050C p ms fun s n => event s 0x050C p (at_ 16 p + at_ 32 (n % 2 ^ 32))
  else
    match sealedFor s i o with
    | none => releaseItem s i
    | some o =>
      let o := atPins s p { o with env := BitVec.ofNat 128 (leavingEnv o i.mark) }
      let bs := leBytes 16 o.env.toNat ++ o.body ++ o.tag
      let n := ceilDiv bs.length 64
      let x := weftPort s p
      let s := setWeft s p { x with out := x.out ++ [{ tc := i.tc, slots := n, left := bs }] }
      let s := count (count s (ctrPort p 13) 1) (ctrPort p 15) n
      releaseItem (emit s (.oper p o)) i

/-! ### EGRESS_ARBITRATION -/

/-- Counters of an item that the loom reads out. -/
def countDequeue (s : State) (d : Nat) (i : LoomItem) : State :=
  let s := count (count s (ctrLoom d (6 + i.tc)) (cells i.bytes)) (ctrLoom d 15) 1
  if i.epoch ≠ 0 && i.epoch ≠ s.hed.epoch then count s (ctrHed d 3) 1 else s

/-- A ledger chain that the bobbin store cannot give: the operation counts as having exhausted its retries (R169, R343 cause 22). -/
def chainUnreadable (s : State) (i : LoomItem) (l : Nat) : State :=
  let s := releaseItem s i
  match Tbl.find? s.shu.ledger l with
  | some e => toStalled s e.cid e.seq 22
  | none => s

/-- An item is read out at its destination, as the bobbin store gives it. -/
def readOut (s : State) (d : Nat) (i : LoomItem) (r : StoreRead) : State :=
  match i.relay, i.cargo with
  | some p, .oper o => startRelay s d p i o
  | _, _ =>
    let s := countDequeue s d i
    match r.good, i.own with
    | false, some (l, _) => chainUnreadable s i l
    | _, _ =>
      let (s, got) := storeRead s i r
      match got with
      | none => s
      | some i =>
        match i.cargo with
        | .tlp t => if 128 ≤ d then atTarget (releaseItem s i) i.origin t else leaveWarp s d i t
        | .oper o => if 128 ≤ d then releaseItem s i else leaveWeft s d i o

/-- EGRESS_ARBITRATION (R176): the destination takes the item that the loom chooses. DOBBY_TAKE is the arbitration of the
dobby. -/
def egressArbitration (d : Nat) (k : StoreRead) (s : State) : State :=
  if !egressOpen s d then s
  else
    let s := countWaits s d
    match takeItem ((queueOf s d).length + 2) s d with
    | (some r, _) => readOut r.1 d r.2 k
    | (none, s) => s

def execEgressArbitration (d : Dest) (r : StoreRead) (s : State) : Host.Outcome State Fault Refusal :=
  .next (settle (egressArbitration d.val r s))

end Sys2Proof.Machine
end

