-- ==== Sys2Proof/Machine/Dispatch.lean ====
section
/-!
DEFINITION. The one match that gives each command of the table its meaning.
-/

namespace Sys2Proof.Machine

def exec (i : Instr) (s : State) : Host.Outcome State Fault Refusal :=
  match i with
  | .supplyRise vkeepMv aMv bMv => Sys2Proof.Machine.execSupplyRise vkeepMv aMv bMv s
  | .feedRampStart f mv outMv => Sys2Proof.Machine.execFeedRampStart f mv outMv s
  | .shortFailCheck f mv outMv => Sys2Proof.Machine.execShortFailCheck f mv outMv s
  | .feedRampComplete f mv outMv gateMv => Sys2Proof.Machine.execFeedRampComplete f mv outMv gateMv s
  | .gateFailTimeout f mv gateMv => Sys2Proof.Machine.execGateFailTimeout f mv gateMv s
  | .feedQualifyDone f mv => Sys2Proof.Machine.execFeedQualifyDone f mv s
  | .currentLimitEnter f mv outMv ma => Sys2Proof.Machine.execCurrentLimitEnter f mv outMv ma s
  | .currentLimitExit f ma => Sys2Proof.Machine.execCurrentLimitExit f ma s
  | .faultTimerExpiry f mv => Sys2Proof.Machine.execFaultTimerExpiry f mv s
  | .fastTrip f mv ma => Sys2Proof.Machine.execFastTrip f mv ma s
  | .cooldownExpiry f mv => Sys2Proof.Machine.execCooldownExpiry f mv s
  | .feedOutOfRange f mv => Sys2Proof.Machine.execFeedOutOfRange f mv s
  | .feedPowerCycled f mv => Sys2Proof.Machine.execFeedPowerCycled f mv s
  | .tripCountReset f => Sys2Proof.Machine.execTripCountReset f s
  | .idealDiodeReverseOff f mv reverseMa => Sys2Proof.Machine.execIdealDiodeReverseOff f mv reverseMa s
  | .reverseFailCheck f mv reverseMa => Sys2Proof.Machine.execReverseFailCheck f mv reverseMa s
  | .idealDiodeOn f mv railMv => Sys2Proof.Machine.execIdealDiodeOn f mv railMv s
  | .feedClear sess f value => Sys2Proof.Machine.execFeedClear sess f value s
  | .vkeepChange mv => Sys2Proof.Machine.execVkeepChange mv s
  | .vioDobChange mv => Sys2Proof.Machine.execVioDobChange mv s
  | .coreOn regulated beamTrained => Sys2Proof.Machine.execCoreOn regulated beamTrained s
  | .bootSlotSelect lockstepOk => Sys2Proof.Machine.execBootSlotSelect lockstepOk s
  | .configEntry healthOk => Sys2Proof.Machine.execConfigEntry healthOk s
  | .storedConfigCommit => Sys2Proof.Machine.execStoredConfigCommit s
  | .serviceEntry warpTried => Sys2Proof.Machine.execServiceEntry warpTried s
  | .governorPeriod aMv bMv aMa bMa powerW stagePs => Sys2Proof.Machine.execGovernorPeriod aMv bMv aMa bMa powerW stagePs s
  | .capacityFloorClear => Sys2Proof.Machine.execCapacityFloorClear s
  | .vcoreRaiseDone mv => Sys2Proof.Machine.execVcoreRaiseDone mv s
  | .loomRescaleDone => Sys2Proof.Machine.execLoomRescaleDone s
  | .thermalLoop hottestMc => Sys2Proof.Machine.execThermalLoop hottestMc s
  | .thermalFatalTimeout => Sys2Proof.Machine.execThermalFatalTimeout s
  | .weftBlockReceive l levels => Sys2Proof.Machine.execWeftBlockReceive l levels s
  | .blockLockAcquired l => Sys2Proof.Machine.execBlockLockAcquired l s
  | .blockLockLost l => Sys2Proof.Machine.execBlockLockLost l s
  | .laneLockTimeout l => Sys2Proof.Machine.execLaneLockTimeout l s
  | .alignSend p => Sys2Proof.Machine.execAlignSend p s
  | .alignReceive l => Sys2Proof.Machine.execAlignReceive l s
  | .laneAlignTimeout l => Sys2Proof.Machine.execLaneAlignTimeout l s
  | .refclkLost c => Sys2Proof.Machine.execRefclkLost c s
  | .refclkRestored c => Sys2Proof.Machine.execRefclkRestored c s
  | .adaptFreeze by_ => Sys2Proof.Machine.execAdaptFreeze by_ s
  | .adaptFreezeEnd => Sys2Proof.Machine.execAdaptFreezeEnd s
  | .adaptFreezeHeldStart => Sys2Proof.Machine.execAdaptFreezeHeldStart s
  | .marginStart sess value => Sys2Proof.Machine.execMarginStart sess value s
  | .marginStep errors => Sys2Proof.Machine.execMarginStep errors s
  | .flitSend p => Sys2Proof.Machine.execFlitSend p s
  | .flitReceive p => Sys2Proof.Machine.execFlitReceive p s
  | .replayTimerExpiry p => Sys2Proof.Machine.execReplayTimerExpiry p s
  | .weftTrainingStart p => Sys2Proof.Machine.execWeftTrainingStart p s
  | .ts1Receive p => Sys2Proof.Machine.execTs1Receive p s
  | .ts2Receive p => Sys2Proof.Machine.execTs2Receive p s
  | .trainingPhaseTimeout p => Sys2Proof.Machine.execTrainingPhaseTimeout p s
  | .creditInitReceive p => Sys2Proof.Machine.execCreditInitReceive p s
  | .flitStartReceive p => Sys2Proof.Machine.execFlitStartReceive p s
  | .alignedTimeout p => Sys2Proof.Machine.execAlignedTimeout p s
  | .retrainReqReceive p => Sys2Proof.Machine.execRetrainReqReceive p s
  | .retrainRateStep p => Sys2Proof.Machine.execRetrainRateStep p s
  | .retrainTimeout p => Sys2Proof.Machine.execRetrainTimeout p s
  | .weftRetrainCmd sess p value => Sys2Proof.Machine.execWeftRetrainCmd sess p value s
  | .tlpIngress p t => Sys2Proof.Machine.execTlpIngress p t s
  | .warpLinkUp p width rate flit => Sys2Proof.Machine.execWarpLinkUp p width rate flit s
  | .perstAssert v ns => Sys2Proof.Machine.execPerstAssert v ns s
  | .perstDeassert v => Sys2Proof.Machine.execPerstDeassert v s
  | .hotResetReceived p => Sys2Proof.Machine.execHotResetReceived p s
  | .dlDown p => Sys2Proof.Machine.execDlDown p s
  | .vsResetCmd sess v value => Sys2Proof.Machine.execVsResetCmd sess v value s
  | .partitionResetEnd v => Sys2Proof.Machine.execPartitionResetEnd v s
  | .partitionReady v => Sys2Proof.Machine.execPartitionReady v s
  | .secondaryBusReset p => Sys2Proof.Machine.execSecondaryBusReset p s
  | .linkDisable p => Sys2Proof.Machine.execLinkDisable p s
  | .slotPowerOff k => Sys2Proof.Machine.execSlotPowerOff k s
  | .slotPwrenClear k => Sys2Proof.Machine.execSlotPwrenClear k s
  | .slotPowerOn k => Sys2Proof.Machine.execSlotPowerOn k s
  | .slotPerstRelease k => Sys2Proof.Machine.execSlotPerstRelease k s
  | .indicatorSet k attention power => Sys2Proof.Machine.execIndicatorSet k attention power s
  | .indicatorBlink => Sys2Proof.Machine.execIndicatorBlink s
  | .surpriseDown p => Sys2Proof.Machine.execSurpriseDown p s
  | .hpInputDebounced k bit => Sys2Proof.Machine.execHpInputDebounced k bit s
  | .expanderInterrupt inputs => Sys2Proof.Machine.execExpanderInterrupt inputs s
  | .expanderPoll inputs => Sys2Proof.Machine.execExpanderPoll inputs s
  | .expanderRetry e input => Sys2Proof.Machine.execExpanderRetry e input s
  | .surpriseReport p => Sys2Proof.Machine.execSurpriseReport p s
  | .linkReturnL0 p width rate flit => Sys2Proof.Machine.execLinkReturnL0 p width rate flit s
  | .dpcTrigger p reason => Sys2Proof.Machine.execDpcTrigger p reason s
  | .dpcRelease p => Sys2Proof.Machine.execDpcRelease p s
  | .proxyFree sess value => Sys2Proof.Machine.execProxyFree sess value s
  | .mcastGroupEnable v group => Sys2Proof.Machine.execMcastGroupEnable v group s
  | .weCompletionTimeout req => Sys2Proof.Machine.execWeCompletionTimeout req s
  | .sharedPromotion src => Sys2Proof.Machine.execSharedPromotion src s
  | .egressArbitration d r => Sys2Proof.Machine.execEgressArbitration d r s
  | .ledgerMoveStart => Sys2Proof.Machine.execLedgerMoveStart s
  | .ledgerMoveDone => Sys2Proof.Machine.execLedgerMoveDone s
  | .spillWriteDone => Sys2Proof.Machine.execSpillWriteDone s
  | .readbackStart d tc => Sys2Proof.Machine.execReadbackStart d tc s
  | .readbackDone r => Sys2Proof.Machine.execReadbackDone r s
  | .beamStackFault stack => Sys2Proof.Machine.execBeamStackFault stack s
  | .ageSweep => Sys2Proof.Machine.execAgeSweep s
  | .sharedPoolExhausted => Sys2Proof.Machine.execSharedPoolExhausted s
  | .linkProbeSend p => Sys2Proof.Machine.execLinkProbeSend p s
  | .linkProbeReceive => Sys2Proof.Machine.execLinkProbeReceive s
  | .beaconSend => Sys2Proof.Machine.execBeaconSend s
  | .beaconReceive => Sys2Proof.Machine.execBeaconReceive s
  | .directedMsgForward => Sys2Proof.Machine.execDirectedMsgForward s
  | .masterDiscovery => Sys2Proof.Machine.execMasterDiscovery s
  | .neighbours => Sys2Proof.Machine.execNeighbours s
  | .assignMid => Sys2Proof.Machine.execAssignMid s
  | .routeWrite => Sys2Proof.Machine.execRouteWrite s
  | .bankSwitch => Sys2Proof.Machine.execBankSwitch s
  | .bankSwitchTime => Sys2Proof.Machine.execBankSwitchTime s
  | .fabricCtlHeartbeatSend => Sys2Proof.Machine.execFabricCtlHeartbeatSend s
  | .fabricCtlHeartbeatReceive => Sys2Proof.Machine.execFabricCtlHeartbeatReceive s
  | .admitPartition => Sys2Proof.Machine.execAdmitPartition s
  | .fenceNotice => Sys2Proof.Machine.execFenceNotice s
  | .resyncBegin => Sys2Proof.Machine.execResyncBegin s
  | .resyncEnd => Sys2Proof.Machine.execResyncEnd s
  | .memberReport => Sys2Proof.Machine.execMemberReport s
  | .tableRecompute => Sys2Proof.Machine.execTableRecompute s
  | .admissionTimeout => Sys2Proof.Machine.execAdmissionTimeout s
  | .beaconSilence => Sys2Proof.Machine.execBeaconSilence s
  | .heartbeatSilence => Sys2Proof.Machine.execHeartbeatSilence s
  | .leaseRenew => Sys2Proof.Machine.execLeaseRenew s
  | .leaseResp => Sys2Proof.Machine.execLeaseResp s
  | .claimResp => Sys2Proof.Machine.execClaimResp s
  | .witnessUnreachableFence => Sys2Proof.Machine.execWitnessUnreachableFence s
  | .memberFenceDeadline => Sys2Proof.Machine.execMemberFenceDeadline s
  | .masterForce sess value => Sys2Proof.Machine.execMasterForce sess value s
  | .ftSet sess value => Sys2Proof.Machine.execFtSet sess value s
  | .ftPpsInEdge => Sys2Proof.Machine.execFtPpsInEdge s
  | .ftPpsOutPulse => Sys2Proof.Machine.execFtPpsOutPulse s
  | .operationAccept => Sys2Proof.Machine.execOperationAccept s
  | .deferredAccept => Sys2Proof.Machine.execDeferredAccept s
  | .operationFirstSend c => Sys2Proof.Machine.execOperationFirstSend c s
  | .retransmitTimeout ledgerIndex => Sys2Proof.Machine.execRetransmitTimeout ledgerIndex s
  | .operationReceive => Sys2Proof.Machine.execOperationReceive s
  | .ackSend c => Sys2Proof.Machine.execAckSend c s
  | .ackReceive => Sys2Proof.Machine.execAckReceive s
  | .nakReceive => Sys2Proof.Machine.execNakReceive s
  | .connReqOpen => Sys2Proof.Machine.execConnReqOpen s
  | .connReqClose => Sys2Proof.Machine.execConnReqClose s
  | .connReqReset => Sys2Proof.Machine.execConnReqReset s
  | .connReqRekey => Sys2Proof.Machine.execConnReqRekey s
  | .connResp => Sys2Proof.Machine.execConnResp s
  | .connReqResend c => Sys2Proof.Machine.execConnReqResend c s
  | .connOpenTimeout c => Sys2Proof.Machine.execConnOpenTimeout c s
  | .connExchangeTimeout c => Sys2Proof.Machine.execConnExchangeTimeout c s
  | .connCloseTimeout c => Sys2Proof.Machine.execConnCloseTimeout c s
  | .autoResumeTimer c => Sys2Proof.Machine.execAutoResumeTimer c s
  | .rekeyAll sess value => Sys2Proof.Machine.execRekeyAll sess value s
  | .apertureAccess inst t => Sys2Proof.Machine.execApertureAccess inst t s
  | .heldLoadSend => Sys2Proof.Machine.execHeldLoadSend s
  | .visibilityPoint => Sys2Proof.Machine.execVisibilityPoint s
  | .windowRevokeComplete w => Sys2Proof.Machine.execWindowRevokeComplete w s
  | .postfailClear sess v value => Sys2Proof.Machine.execPostfailClear sess v value s
  | .windowOpen => Sys2Proof.Machine.execWindowOpen s
  | .windowRevoke => Sys2Proof.Machine.execWindowRevoke s
  | .windowFree => Sys2Proof.Machine.execWindowFree s
  | .windowRead => Sys2Proof.Machine.execWindowRead s
  | .importWrite => Sys2Proof.Machine.execImportWrite s
  | .importInvalidate => Sys2Proof.Machine.execImportInvalidate s
  | .importRead => Sys2Proof.Machine.execImportRead s
  | .importSetGen => Sys2Proof.Machine.execImportSetGen s
  | .connOpen => Sys2Proof.Machine.execConnOpen s
  | .connModify => Sys2Proof.Machine.execConnModify s
  | .connReset => Sys2Proof.Machine.execConnReset s
  | .connRead => Sys2Proof.Machine.execConnRead s
  | .connClose => Sys2Proof.Machine.execConnClose s
  | .ledgerRead => Sys2Proof.Machine.execLedgerRead s
  | .fenceBind => Sys2Proof.Machine.execFenceBind s
  | .queueCreate => Sys2Proof.Machine.execQueueCreate s
  | .queueDelete => Sys2Proof.Machine.execQueueDelete s
  | .shareSet => Sys2Proof.Machine.execShareSet s
  | .tuMap => Sys2Proof.Machine.execTuMap s
  | .tuUnmap => Sys2Proof.Machine.execTuUnmap s
  | .tuUnmapComplete => Sys2Proof.Machine.execTuUnmapComplete s
  | .tuMode => Sys2Proof.Machine.execTuMode s
  | .admqCtrl v value => Sys2Proof.Machine.execAdmqCtrl v value s
  | .admcqHead v value => Sys2Proof.Machine.execAdmcqHead v value s
  | .vfMsgRing inst value => Sys2Proof.Machine.execVfMsgRing inst value s
  | .vfReplyWrite v vf reply => Sys2Proof.Machine.execVfReplyWrite v vf reply s
  | .vfEnable v numVfs => Sys2Proof.Machine.execVfEnable v numVfs s
  | .vfDisable v => Sys2Proof.Machine.execVfDisable v s
  | .vfFlr inst => Sys2Proof.Machine.execVfFlr inst s
  | .vfFlrComplete inst => Sys2Proof.Machine.execVfFlrComplete inst s
  | .pfFlr v => Sys2Proof.Machine.execPfFlr v s
  | .descWrite inst q => Sys2Proof.Machine.execDescWrite inst q s
  | .descRead inst q => Sys2Proof.Machine.execDescRead inst q s
  | .descAtomic inst q => Sys2Proof.Machine.execDescAtomic inst q s
  | .descFence inst q => Sys2Proof.Machine.execDescFence inst q s
  | .descNop inst q => Sys2Proof.Machine.execDescNop inst q s
  | .descriptorComplete inst q => Sys2Proof.Machine.execDescriptorComplete inst q s
  | .descFetchFail inst q => Sys2Proof.Machine.execDescFetchFail inst q s
  | .fenceSlotRead inst slot rid tag => Sys2Proof.Machine.execFenceSlotRead inst slot rid tag s
  | .hedCommit sess value => Sys2Proof.Machine.execHedCommit sess value s
  | .hedCommitComplete => Sys2Proof.Machine.execHedCommitComplete s
  | .debugAccess write addr len => Sys2Proof.Machine.execDebugAccess write addr len s
  | .selIsolateCmd sess v value => Sys2Proof.Machine.execSelIsolateCmd sess v value s
  | .routingStateError v => Sys2Proof.Machine.execRoutingStateError v s
  | .shadowReloadDone v ok => Sys2Proof.Machine.execShadowReloadDone v ok s
  | .selErrClear sess d value => Sys2Proof.Machine.execSelErrClear sess d value s
  | .moduleFatalError cause => Sys2Proof.Machine.execModuleFatalError cause s
  | .mirrorRecordReceive => Sys2Proof.Machine.execMirrorRecordReceive s
  | .twinSilence => Sys2Proof.Machine.execTwinSilence s
  | .twinLostDeclare => Sys2Proof.Machine.execTwinLostDeclare s
  | .mirrorRateAlert => Sys2Proof.Machine.execMirrorRateAlert s
  | .dobbyTake r => Sys2Proof.Machine.execDobbyTake r s
  | .vmeCycleStart => Sys2Proof.Machine.execVmeCycleStart s
  | .vmeCycleEnd lines => Sys2Proof.Machine.execVmeCycleEnd lines s
  | .vmeBerr => Sys2Proof.Machine.execVmeBerr s
  | .dobBusTimerExpiry => Sys2Proof.Machine.execDobBusTimerExpiry s
  | .vmeInboundCycle c => Sys2Proof.Machine.execVmeInboundCycle c s
  | .vmeSemaphoreCycle sem am write value => Sys2Proof.Machine.execVmeSemaphoreCycle sem am write value s
  | .semRead v sem rid tag => Sys2Proof.Machine.execSemRead v sem rid tag s
  | .semWrite v sem value => Sys2Proof.Machine.execSemWrite v sem value s
  | .vmeIrqAssert lvl => Sys2Proof.Machine.execVmeIrqAssert lvl s
  | .iackDone statusId => Sys2Proof.Machine.execIackDone statusId s
  | .ihRearm v mask => Sys2Proof.Machine.execIhRearm v mask s
  | .irqRaise v value => Sys2Proof.Machine.execIrqRaise v value s
  | .irqWithdraw v mask => Sys2Proof.Machine.execIrqWithdraw v mask s
  | .iackinReceive lvl width => Sys2Proof.Machine.execIackinReceive lvl width s
  | .lockBackoff => Sys2Proof.Machine.execLockBackoff s
  | .unlockMessage v => Sys2Proof.Machine.execUnlockMessage v s
  | .busRequestPending => Sys2Proof.Machine.execBusRequestPending s
  | .dobConnOpen sess value => Sys2Proof.Machine.execDobConnOpen sess value s
  | .dobConnClose sess value => Sys2Proof.Machine.execDobConnClose sess value s
  | .dobConnReset sess value => Sys2Proof.Machine.execDobConnReset sess value s
  | .sysresetInput => Sys2Proof.Machine.execSysresetInput s
  | .sysfailChange asserted => Sys2Proof.Machine.execSysfailChange asserted s
  | .acfailChange asserted => Sys2Proof.Machine.execAcfailChange asserted s
  | .sysresetOutEnd => Sys2Proof.Machine.execSysresetOutEnd s
  | .warmResetCmd sess value => Sys2Proof.Machine.execWarmResetCmd sess value s
  | .warmResetDrainEnd => Sys2Proof.Machine.execWarmResetDrainEnd s
  | .warmResetCoreReset => Sys2Proof.Machine.execWarmResetCoreReset s
  | .testEnterCmd sess value => Sys2Proof.Machine.execTestEnterCmd sess value s
  | .testEntryTime => Sys2Proof.Machine.execTestEntryTime s
  | .fwLoadBegin sess value => Sys2Proof.Machine.execFwLoadBegin sess value s
  | .fwEraseDone => Sys2Proof.Machine.execFwEraseDone s
  | .fwBlockData sess data => Sys2Proof.Machine.execFwBlockData sess data s
  | .fwLoadEnd sess value => Sys2Proof.Machine.execFwLoadEnd sess value s
  | .fwVerifyDone flashOk => Sys2Proof.Machine.execFwVerifyDone flashOk s
  | .fwActivateCmd sess value => Sys2Proof.Machine.execFwActivateCmd sess value s
  | .fwActivateCancel sess value => Sys2Proof.Machine.execFwActivateCancel sess value s
  | .fwActivationStart => Sys2Proof.Machine.execFwActivationStart s
  | .hitlessPhaseDone hashOk => Sys2Proof.Machine.execHitlessPhaseDone hashOk s
  | .hitlessResume => Sys2Proof.Machine.execHitlessResume s
  | .trialEnd => Sys2Proof.Machine.execTrialEnd s
  | .treadleWatchdogExpiry => Sys2Proof.Machine.execTreadleWatchdogExpiry s
  | .heartbeatSend => Sys2Proof.Machine.execHeartbeatSend s
  | .heartbeat => Sys2Proof.Machine.execHeartbeat s
  | .authBegin => Sys2Proof.Machine.execAuthBegin s
  | .authProof => Sys2Proof.Machine.execAuthProof s
  | .authTimeout sess => Sys2Proof.Machine.execAuthTimeout sess s
  | .lockoutEnd source => Sys2Proof.Machine.execLockoutEnd source s
  | .read => Sys2Proof.Machine.execRead s
  | .write => Sys2Proof.Machine.execWrite s
  | .commit quick => Sys2Proof.Machine.execCommit quick s
  | .commitFlashDone ok => Sys2Proof.Machine.execCommitFlashDone ok s
  | .discard => Sys2Proof.Machine.execDiscard s
  | .sessionEnd => Sys2Proof.Machine.execSessionEnd s
  | .describe => Sys2Proof.Machine.execDescribe s
  | .sessionIdleTimeout sess => Sys2Proof.Machine.execSessionIdleTimeout sess s
  | .lease => Sys2Proof.Machine.execLease s
  | .leaseExpiry slot => Sys2Proof.Machine.execLeaseExpiry slot s
  | .claim => Sys2Proof.Machine.execClaim s
  | .claimPendingTimeout slot => Sys2Proof.Machine.execClaimPendingTimeout slot s
  | .witnessStartupEnd => Sys2Proof.Machine.execWitnessStartupEnd s
  | .canFrameReceive ident bytes => Sys2Proof.Machine.execCanFrameReceive ident bytes s
  | .segmentTimeout src typ tagId => Sys2Proof.Machine.execSegmentTimeout src typ tagId s
  | .canBusOff => Sys2Proof.Machine.execCanBusOff s
  | .canBusOffRecovery => Sys2Proof.Machine.execCanBusOffRecovery s
  | .mbReqSegment v ctrl bytes => Sys2Proof.Machine.execMbReqSegment v ctrl bytes s
  | .mbRespTaken v => Sys2Proof.Machine.execMbRespTaken v s
  | .entropyFault => Sys2Proof.Machine.execEntropyFault s
  | .entropyRecovered => Sys2Proof.Machine.execEntropyRecovered s
  | .tapInstruction t => Sys2Proof.Machine.execTapInstruction t s
  | .ideKmKeyProg p stream selective keys => Sys2Proof.Machine.execIdeKmKeyProg p stream selective keys s
  | .tallySnapshotLaunch => Sys2Proof.Machine.execTallySnapshotLaunch s
  | .tallyImageComplete => Sys2Proof.Machine.execTallyImageComplete s
  | .tallyHold sess value => Sys2Proof.Machine.execTallyHold sess value s
  | .tallyHoldTimeout => Sys2Proof.Machine.execTallyHoldTimeout s
  | .spoolDeliveryDeadline r => Sys2Proof.Machine.execSpoolDeliveryDeadline r s
  | .spoolRelease sess r value => Sys2Proof.Machine.execSpoolRelease sess r value s
  | .spoolMark sess r value => Sys2Proof.Machine.execSpoolMark sess r value s
  | .spoolRewind sess r value => Sys2Proof.Machine.execSpoolRewind sess r value s
  | .spoolRestart sess r value => Sys2Proof.Machine.execSpoolRestart sess r value s
  | .spoolIntrTimeout r => Sys2Proof.Machine.execSpoolIntrTimeout r s
  | .boltCapture sess value => Sys2Proof.Machine.execBoltCapture sess value s
  | .boltRelease sess value => Sys2Proof.Machine.execBoltRelease sess value s
  | .boltWriteDone => Sys2Proof.Machine.execBoltWriteDone s
  | .boltSectionTimeout => Sys2Proof.Machine.execBoltSectionTimeout s
  | .registerWrite sess index sub value => Sys2Proof.Machine.execRegisterWrite sess index sub value s
  | .fabricCtlResponse => Sys2Proof.Machine.execFabricCtlResponse s
  | .sqTailDoorbell inst q tail => Sys2Proof.Machine.execSqTailDoorbell inst q tail s
  | .admqTailDoorbell v tail => Sys2Proof.Machine.execAdmqTailDoorbell v tail s
  | .retrainReqEnd p => Sys2Proof.Machine.execRetrainReqEnd p s

end Sys2Proof.Machine
end

