-- ==== Sys2Proof/Machine/Tick.lean ====
section
/-!
DEFINITION. Time: what passes when no command waits (log entry 2).
-/

namespace Sys2Proof.Machine

/-- Fabric time gained in the nanosecond that starts at `now`, steered by `ppm` parts in a million (R216): 1 ns, with one more
or one less each time the steering has gathered a whole nanosecond. -/
def ftGain (now : Nat) (ppm : Int) : Int := 1 + (((now : Int) + 1) * ppm / 1000000 - (now : Int) * ppm / 1000000)

/-- One nanosecond passes. Fabric time counts while the core runs (R7, R214). -/
def tick (s : State) : State :=
  { s with now := s.now + 1
           ft := if coreRuns s then ((s.ft : Int) + ftGain s.now s.fab.steer).toNat else s.ft }

end Sys2Proof.Machine
end

