-- ==== Sys2Proof/Safety.lean ====
section
/-!
DEFINITION. What counts as a safe run, in the terms the statements use: a machine that goes on, and the conditions on a state
that the rules keep whatever is commanded.
-/

namespace Sys2Proof

open Sys2Proof.Machine

/-- The step goes on to `t`. -/
def StepsTo (s t : State) : Prop := step s = .next t

/-- No step of a run of `n` steps stops. -/
def Runs : Nat → State → Prop
  | 0, _ => True
  | n + 1, s => ∃ t, StepsTo s t ∧ Runs n t

/-- A feed asserts PGOOD_x exactly while it is GOOD (R423). -/
def FeedPgood (x : FeedState) : Prop := x.pgood = true ↔ x.st = FeedSt.good

def PgoodExact (s : State) : Prop := FeedPgood s.power.a ∧ FeedPgood s.power.b

/-- The memory of every partition's host, and the bolt region of the beam, are in their canonical form. -/
def Memories (s : State) : Prop := (∀ k : Nat, Memory.wf (vget s.host k []) = true) ∧ Memory.wf s.beam = true

/-! ### What a command does -/

/-- The command completes, and the state it leaves meets `P`. -/
def Leaves (c : Instr) (s : State) (P : State → Prop) : Prop := ∃ t, exec c s = .next t ∧ P t

/-- The command completes: its own effect leaves a state that meets `P`, and what comes about inside the same step of that
effect (`settle`: what falls due at ports, slots, partitions and queues, with no further command) follows it. -/
def LeavesSettling (c : Instr) (s : State) (P : State → Prop) : Prop := ∃ u, exec c s = .next (settle u) ∧ P u

/-- Session `sess` may write `v` to the object now: no hitless pause holds writes, the object exists, the session lives, its
role and path reach the object, the value is in range, and the module state serves it (R22, R450, R453). -/
abbrev MayAct (s : State) (sess index sub v : Nat) : Prop := s.module.pause = none ∧ writeRefusal s sess index sub v = 0

/-- The parts of the state. -/
inductive Part where
  | ft | cfg | flash | module | power | gov | lanes | weft | warp | loom | fab | shu | win | eng | hed | sel | twin | dob | mgmt
  | vault | obs | host | beam
  deriving DecidableEq, Repr

/-- A part stands as it was. -/
def Part.same : Part → State → State → Prop
  | .ft, s, t => t.ft = s.ft
  | .cfg, s, t => t.cfg = s.cfg
  | .flash, s, t => t.flash = s.flash
  | .module, s, t => t.module = s.module
  | .power, s, t => t.power = s.power
  | .gov, s, t => t.gov = s.gov
  | .lanes, s, t => t.lanes = s.lanes
  | .weft, s, t => t.weft = s.weft
  | .warp, s, t => t.warp = s.warp
  | .loom, s, t => t.loom = s.loom
  | .fab, s, t => t.fab = s.fab
  | .shu, s, t => t.shu = s.shu
  | .win, s, t => t.win = s.win
  | .eng, s, t => t.eng = s.eng
  | .hed, s, t => t.hed = s.hed
  | .sel, s, t => t.sel = s.sel
  | .twin, s, t => t.twin = s.twin
  | .dob, s, t => t.dob = s.dob
  | .mgmt, s, t => t.mgmt = s.mgmt
  | .vault, s, t => t.vault = s.vault
  | .obs, s, t => t.obs = s.obs
  | .host, s, t => t.host = s.host
  | .beam, s, t => t.beam = s.beam

/-- The command completes and leaves every part but those of `ps` as it was. -/
def TouchesOnly (c : Instr) (s : State) (ps : List Part) : Prop := ∃ t, exec c s = .next t ∧ ∀ p, p ∉ ps → p.same s t

/-- The command completes and leaves the parts of `ps` as they were. -/
def Spares (c : Instr) (s : State) (ps : List Part) : Prop := ∃ t, exec c s = .next t ∧ ∀ p, p ∈ ps → p.same s t

end Sys2Proof
end

