-- ==== Sys2Proof/Certificates/Slice0/Obligations.lean ====
section
/-!
DEFINITION. The statements for the provers.
-/

section

open Sys2Proof Sys2Proof.Machine

/-- Feeds: what leaving OFF, WAIT, RAMP and QUALIFY does to a feed (R18, R414, R416, R421, R423). (Choices of the model behind it: log entries 129.) -/
def Obligations.FeedStarts : Prop :=
  (∀ (vkeepMv aMv bMv : Nat) (s : State), s.module.state = .off → (2700 ≤ vkeepMv ∨ 2700 ≤ aMv ∨ 2700 ≤ bMv) →
    Leaves (.supplyRise vkeepMv aMv bMv) s fun t => t.module.state = .keeper ∧ t.module.keeperSince = s.now ∧ t.power.a = startFeed s .a aMv ∧ t.power.b = startFeed s .b bMv ∧ t.power.vkeepMv = vkeepMv ∧ (t.power.vkeepOk = true ↔ 2700 ≤ vkeepMv)) ∧
  (∀ (f : Feed) (mv outMv t0 : Nat) (s : State), (feedOf s f).st = .wait → (feedOf s f).inSince = some t0 →
    t0 + 10000000 ≤ s.now → 2650 < mv → mv < 14200 → outMv * 10 ≤ mv * 9 →
    Leaves (.feedRampStart f mv outMv) s fun t => (feedOf t f).st = .ramp ∧ (feedOf t f).since = s.now ∧ (feedOf t f).mv = mv ∧ (feedOf t f).outMv = outMv ∧ (feedOf t f).gateCount = 0 ∧ (feedOf t f).trips = (feedOf s f).trips ∧ (feedOf t f).pgood = (feedOf s f).pgood ∧ feedOf t (otherFeed f) = feedOf s (otherFeed f)) ∧
  (∀ (f : Feed) (mv outMv gateMv : Nat) (s : State), (feedOf s f).st = .ramp → mv ≤ outMv + 100 →
    mv ≤ (feedOf s f).rampMv s.now mv + 100 → mv + 8000 < gateMv →
    Leaves (.feedRampComplete f mv outMv gateMv) s fun t => t.power = (setFeed s f { feedOf s f with st := .qualify, since := s.now, clearSince := s.now, mv := mv, outMv := outMv }).power) ∧
  (∀ (f : Feed) (mv : Nat) (s : State), (feedOf s f).st = .qualify → (feedOf s f).timer = none →
    (feedOf s f).clearSince + 5000000 ≤ s.now →
    Leaves (.feedQualifyDone f mv) s fun t => t.power = (setFeed s f { feedOf s f with st := .good, since := s.now, clearSince := s.now, mv := mv, pgood := true, wasGood := true }).power ∧ (s.module.state = .keeper → t.module.state = .feedsUp))

/-- Feeds: current limit, the fault timer, the fast trip, and the trip count (R416, R418, R419, R420, R423). -/
def Obligations.FeedTrips : Prop :=
  (∀ (f : Feed) (mv outMv ma : Nat) (s : State),
    ((feedOf s f).st = .ramp ∨ (feedOf s f).st = .qualify ∨ (feedOf s f).st = .good) → (feedOf s f).ilimit = false →
    (feedOf s f).hwLimit * 1000 < ma →
    Leaves (.currentLimitEnter f mv outMv ma) s fun t => (feedOf t f).ilimit = true ∧ (feedOf t f).timer = some s.now ∧ (feedOf t f).ma = heldCurrent (feedOf s f).hwLimit mv outMv ∧ (feedOf t f).st = (feedOf s f).st ∧ (feedOf t f).pgood = (feedOf s f).pgood ∧ (feedOf t f).trips = (feedOf s f).trips ∧ feedOf t (otherFeed f) = feedOf s (otherFeed f)) ∧
  (∀ (f : Feed) (ma : Nat) (s : State), (feedOf s f).ilimit = true →
    Leaves (.currentLimitExit f ma) s fun t => t.power = (setFeed s f { feedOf s f with ilimit := false, foldback := false, timer := none, ma := ma, clearSince := if (feedOf s f).st = .good then (feedOf s f).clearSince else s.now }).power) ∧
  (∀ (f : Feed) (mv t0 : Nat) (s : State),
    ((feedOf s f).st = .ramp ∨ (feedOf s f).st = .qualify ∨ (feedOf s f).st = .good) → (feedOf s f).timer = some t0 →
    t0 + cfgv s 0x2002 (feedSub f) * 1000 ≤ s.now → 2700 ≤ mv →
    Leaves (.faultTimerExpiry f mv) s fun t => (feedOf t f).st = (if cfgv s 0x2003 (feedSub f) < (feedOf s f).trips + 1 then .latched else .cooldown) ∧ (feedOf t f).trips = ((feedOf s f).trips + 1) % 256 ∧ (feedOf t f).lastTrip = 1 ∧ (feedOf t f).pgood = false ∧ (feedOf t f).timer = none ∧ (feedOf t f).ilimit = false) ∧
  (∀ (f : Feed) (mv ma : Nat) (s : State),
    ((feedOf s f).st = .ramp ∨ (feedOf s f).st = .qualify ∨ (feedOf s f).st = .good) →
    2 * (feedOf s f).hwLimit * 1000 ≤ ma → 2700 ≤ mv →
    Leaves (.fastTrip f mv ma) s fun t => (feedOf t f).st = (if cfgv s 0x2003 (feedSub f) < (feedOf s f).trips + 1 then .latched else .cooldown) ∧ (feedOf t f).trips = ((feedOf s f).trips + 1) % 256 ∧ (feedOf t f).lastTrip = 2 ∧ (feedOf t f).pgood = false ∧ (feedOf t f).timer = none ∧ (feedOf t f).ilimit = false) ∧
  (∀ (f : Feed) (mv : Nat) (s : State), (feedOf s f).st = .cooldown → (feedOf s f).since + 250000000 ≤ s.now →
    Leaves (.cooldownExpiry f mv) s fun t => (feedOf t f).st = .wait ∧ (feedOf t f).since = s.now ∧ (feedOf t f).mv = mv ∧ (feedOf t f).trips = (feedOf s f).trips ∧ (feedOf t f).pgood = (feedOf s f).pgood ∧ feedOf t (otherFeed f) = feedOf s (otherFeed f)) ∧
  (∀ (f : Feed) (s : State), (feedOf s f).st = .good → (feedOf s f).timer = none →
    (feedOf s f).clearSince + 10000000000 ≤ s.now →
    Leaves (.tripCountReset f) s fun t => t.power = (setFeed s f { feedOf s f with trips := 0 }).power)

/-- Feeds: the three failure marks, thresholds, and what clears a feed (R414, R416, R421, R422, R426, R427, R450). -/
def Obligations.FeedFailures : Prop :=
  (∀ (f : Feed) (mv outMv : Nat) (s : State),
    ((feedOf s f).st = .wait ∨ (feedOf s f).st = .cooldown ∨ (feedOf s f).st = .latched) → (feedOf s f).shortFail = false →
    (feedOf s f).gateOffSince + 20000000 ≤ s.now → mv * 9 < outMv * 10 → 2700 ≤ mv →
    Leaves (.shortFailCheck f mv outMv) s fun t => (feedOf t f).st = .failed ∧ (feedOf t f).shortFail = true ∧ (feedOf t f).gateFail = (feedOf s f).gateFail ∧ (feedOf t f).reverseFail = (feedOf s f).reverseFail ∧ (feedOf t f).pgood = false) ∧
  (∀ (f : Feed) (mv gateMv : Nat) (s : State), (feedOf s f).st = .ramp → (feedOf s f).ilimit = false →
    gateMv ≤ mv + 8000 → 2000000 ≤ (feedOf s f).gateCount + (s.now - (feedOf s f).clearSince) → 2700 ≤ mv →
    Leaves (.gateFailTimeout f mv gateMv) s fun t => (feedOf t f).st = .failed ∧ (feedOf t f).gateFail = true ∧ (feedOf t f).shortFail = (feedOf s f).shortFail ∧ (feedOf t f).reverseFail = (feedOf s f).reverseFail ∧ (feedOf t f).pgood = false) ∧
  (∀ (f : Feed) (mv reverseMa t0 : Nat) (s : State), (feedOf s f).st ≠ .disabled → (feedOf s f).diodeOffAt = some t0 →
    t0 + 2000 ≤ s.now → 5000 ≤ reverseMa → 2700 ≤ mv →
    Leaves (.reverseFailCheck f mv reverseMa) s fun t => (feedOf t f).st = .failed ∧ (feedOf t f).reverseFail = true ∧ (feedOf t f).gateFail = (feedOf s f).gateFail ∧ (feedOf t f).shortFail = (feedOf s f).shortFail ∧ (feedOf t f).pgood = false) ∧
  (∀ (f : Feed) (mv : Nat) (s : State), ((feedOf s f).st = .ramp ∨ (feedOf s f).st = .qualify ∨ (feedOf s f).st = .good) →
    (mv < 2500 ∨ 14500 < mv) → s.power.vkeepOk = true →
    Leaves (.feedOutOfRange f mv) s fun t => (feedOf t f).st = .wait ∧ (feedOf t f).pgood = false ∧ (feedOf t f).timer = none ∧ (feedOf t f).trips = (feedOf s f).trips ∧ (feedOf t f).mv = mv ∧ feedOf t (otherFeed f) = feedOf s (otherFeed f)) ∧
  (∀ (f : Feed) (mv reverseMa : Nat) (s : State), (feedOf s f).diodeOn = true → 2000 < reverseMa →
    Leaves (.idealDiodeReverseOff f mv reverseMa) s fun t => t.power = (setFeed s f { feedOf s f with diodeOn := false, diodeOffAt := some s.now, reverses := (feedOf s f).reverses + 1, mv := mv }).power) ∧
  (∀ (f : Feed) (mv railMv : Nat) (s : State), (feedOf s f).diodeOn = false →
    ((feedOf s f).st = .ramp ∨ (feedOf s f).st = .qualify ∨ (feedOf s f).st = .good) → railMv + 20 ≤ mv →
    Leaves (.idealDiodeOn f mv railMv) s fun t => t.power = (setFeed s f { feedOf s f with diodeOn := true, diodeOffAt := none, mv := mv }).power) ∧
  (∀ (f : Feed) (mv t0 : Nat) (s : State), ((feedOf s f).st = .latched ∨ (feedOf s f).st = .failed) → mv < 1000 →
    (feedOf s f).lowSince = some t0 → t0 + 50000000 ≤ s.now →
    Leaves (.feedPowerCycled f mv) s fun t => (feedOf t f).st = .wait ∧ (feedOf t f).trips = 0 ∧ (feedOf t f).gateFail = false ∧ (feedOf t f).shortFail = false ∧ (feedOf t f).reverseFail = false ∧ feedOf t (otherFeed f) = feedOf s (otherFeed f)) ∧
  (∀ (sess : Nat) (f : Feed) (s : State), MayAct s sess 0x2006 (feedSub f) 1 →
    ((feedOf s f).st = .latched ∨ (feedOf s f).st = .failed) →
    Leaves (.feedClear sess f 1) s fun t => (feedOf t f).st = .wait ∧ (feedOf t f).trips = 0 ∧ (feedOf t f).gateFail = false ∧ (feedOf t f).shortFail = false ∧ (feedOf t f).reverseFail = false ∧ feedOf t (otherFeed f) = feedOf s (otherFeed f)) ∧
  (∀ (mv : Nat) (s : State), s.module.state ≠ .off →
    (s.power.vkeepOk = false ∧ 2700 < mv ∨ s.power.vkeepOk = true ∧ mv < 2600 ∧ 2700 ≤ s.power.a.mv) →
    Leaves (.vkeepChange mv) s fun t => t.power = { s.power with vkeepMv := mv, vkeepOk := !s.power.vkeepOk }) ∧
  (∀ (mv t0 : Nat) (s : State), s.module.state ≠ .off →
    (s.power.vioOk = false ∧ 2650 ≤ mv ∧ mv ≤ 5600 ∧ s.power.vioSince = some t0 ∧ t0 + 10000000 ≤ s.now ∨ s.power.vioOk = true ∧ (mv < 2650 ∨ 5600 < mv)) →
    Leaves (.vioDobChange mv) s fun t => t.power.vioMv = mv ∧ t.power.vioOk = !s.power.vioOk ∧ t.power.a = s.power.a ∧ t.power.b = s.power.b ∧ t.power.vkeepMv = s.power.vkeepMv ∧ t.power.vkeepOk = s.power.vkeepOk)

/-- Governor: what a period measures, computes and may move (R26, R28, R33, R34, R35, R39). (Choices of the model behind it: log entries 14, 103.) -/
def Obligations.GovernorPeriodEffect : Prop :=
  ∀ (aMv bMv aMa bMa powerW stagePs : Nat) (s : State), s.gov.running = true → s.gov.periodAt + 100000 ≤ s.now →
    Leaves (.governorPeriod aMv bMv aMa bMa powerW stagePs) s fun t => t.gov.powerW = powerW ∧ t.gov.stagePs = stagePs ∧ t.gov.periodAt = s.now ∧ t.gov.thermalW = s.gov.thermalW ∧ t.gov.feedW = feedLimitW (governorSample s aMv bMv aMa bMa) ∧ t.gov.limit = (lowestLimit t.gov.feedW s.gov.thermalW (cfgv s 0x2000 1)).2 ∧ (t.gov.vcore = s.gov.vcore ∨ t.gov.vcore = s.gov.vcore + 5) ∧ (t.gov.capacity ≤ s.gov.capacity ∨ s.gov.lowering = none ∧ s.gov.raising = none ∧ t.gov.vcore = s.gov.vcore ∧ t.gov.capacity = capacityNow s.gov.vcore s.gov.tjHot stagePs) ∧ (t.power.a.mv, t.power.a.ma, t.power.b.mv, t.power.b.ma) = (aMv, aMa, bMv, bMa)

/-- Governor: the capacity floor, the regulator, the loom rescale and the thermal loop (R35, R36, R39, R172). -/
def Obligations.GovernorMoves : Prop :=
  (∀ (t0 : Nat) (s : State), s.gov.belowFloor = true → cfgv s 0x2100 3 ≤ s.gov.capacity → s.gov.atFloorSince = some t0 →
    t0 + 10000000 ≤ s.now →
    Leaves (.capacityFloorClear) s fun t => t.gov = { s.gov with belowFloor := false, atFloorSince := none }) ∧
  (∀ (mv v : Nat) (s : State), s.gov.raising = some v → v ≤ mv →
    Leaves (.vcoreRaiseDone mv) s fun t => t.gov.raising = none ∧ t.gov.vcore = s.gov.vcore ∧ t.gov.lowering = s.gov.lowering ∧ t.gov.capacity = max s.gov.capacity (capacityNow s.gov.vcore s.gov.tjHot s.gov.stagePs)) ∧
  (∀ (s : State), s.gov.rescaling = true →
    Leaves (.loomRescaleDone) s fun t => t = { s with gov := { s.gov with rescaling := false, vcore := s.gov.lowering.getD s.gov.vcore, lowering := none } }) ∧
  (∀ (hottestMc : Int) (s : State), s.gov.running = true → s.gov.thermalAt + 10000000 ≤ s.now → s.module.pause = none →
    Leaves (.thermalLoop hottestMc) s fun t => t.gov.tjHot = hottestMc ∧ t.gov.thermalAt = s.now ∧ t.gov.thermalW = (if hottestMc < 140000 then min 330 (s.gov.thermalW + 5) else if hottestMc < 145000 then s.gov.thermalW else s.gov.thermalW - 10) ∧ (t.gov.throttling = true ↔ t.gov.thermalW < 330) ∧ (145000 ≤ hottestMc → t.gov.thermN = true) ∧ (hottestMc < 140000 → t.gov.thermalW = 330 → t.gov.thermN = false) ∧ (hottestMc < 145000 → (140000 ≤ hottestMc ∨ t.gov.thermalW ≠ 330) → t.gov.thermN = s.gov.thermN) ∧ t.gov.vcore = s.gov.vcore ∧ t.gov.capacity = s.gov.capacity)

/-- Start-up: from FEEDS_UP to the image that starts (R18, R432, R433, R494, R525, R552). (Choices of the model behind it: log entries 76, 77, 78.) -/
def Obligations.StartUp : Prop :=
  (∀ (s : State), s.module.state = .feedsUp → s.vault.entropyOk = true →
    Leaves (.coreOn true true) s fun t => t.module.state = .coreOn ∧ t.module.since = s.now ∧ t.gov = { s.gov with running := true } ∧ t.vault.beamKey = some (leBytes 32 (Config.entropy s.drawn).toNat ++ leBytes 32 (Config.entropy (s.drawn + 1)).toNat) ∧ t.shu = { s.shu with rosterPending := true } ∧ t.power = s.power ∧ t.cfg = s.cfg ∧ t.flash = s.flash) ∧
  (∀ (k : Nat) (s : State), s.module.state = .coreOn → slotIn s .active = some k → k < 2 → (fwSlot s k).trial = false →
    slotIn s .pending = none → (fwSlot s (1 - k)).st ≠ .verified →
    Leaves (.bootSlotSelect true) s fun t => t.module.bootCount = (s.module.bootCount + 1) % 2 ^ 32 ∧ (imageReason s k = 0 → t.module.state = .boot ∧ t.module.running = k ∧ t.module.started = true) ∧ (imageReason s k ≠ 0 → t.module.state = .halted)) ∧
  (∀ (s : State), s.module.state = .boot → s.module.started = true → s.module.toTest = false → s.module.warmHeld = none →
    Leaves (.configEntry true) s fun t => t.module.state = .config ∧ t.module.started = false ∧ t.module.running = s.module.running ∧ t.module.watchdogAt = s.now ∧ t.flash = s.flash) ∧
  (∀ (tried : Bool) (s : State), s.module.state = .links → (List.range 128).all (portTried s tried) = true →
    membershipSettled s = true →
    LeavesSettling (.serviceEntry tried) s fun t => t.module.state = if degraded s then .degraded else .service)

/-- Warm reset: the command, the drain, the core reset, and the test entries (R7, R21, R353, R434, R435). (Choices of the model behind it: log entries 81, 82.) -/
def Obligations.WarmResetSteps : Prop :=
  (∀ (sess : Nat) (s : State), MayAct s sess 0x1340 1 1 → warmStates s.module.state = true → s.module.warm = none →
    s.mgmt.inFlash = none →
    Leaves (.warmResetCmd sess 1) s fun t => t.module = { s.module with warm := some .drain, warmCause := 1, warmSince := s.now, warmHeld := none, drainStart := s.shu.ledger.length }) ∧
  (∀ (s : State), s.module.warm = some .drain →
    (s.win.posting = [] ∧ s.shu.ledger = [] ∨ s.module.warmSince + 10000000 ≤ s.now) →
    Leaves (.warmResetDrainEnd) s fun t => t.module.warm = some .reset ∧ t.module.warmSince = s.now ∧ t.module.drained = s.module.drainStart - s.shu.ledger.length ∧ t.module.recorded = s.shu.ledger.length ∧ t.module.state = s.module.state) ∧
  (∀ (s : State), s.module.warm = some .reset → s.module.warmSince + 1000000 ≤ s.now →
    Leaves (.warmResetCoreReset) s fun t => t.module.state = .boot ∧ t.module.warm = none ∧ t.module.started = false ∧ t.cfg = s.cfg ∧ t.flash = s.flash ∧ t.ft = 0 ∧ t.win = {} ∧ t.hed = {} ∧ t.loom = {} ∧ t.fab = {} ∧ t.power = s.power) ∧
  (∀ (sess : Nat) (s : State), MayAct s sess 0x1340 2 1 → param s sess 0x1340 3 ≠ 0 →
    s.ft + 10000000 ≤ param s sess 0x1340 3 →
    Leaves (.testEnterCmd sess 1) s fun t => t.module = { s.module with testAt := some (param s sess 0x1340 3) }) ∧
  (∀ (t0 : Nat) (s : State), s.module.state = .config → s.module.testAt = some t0 → t0 ≤ s.ft → s.module.warm = none →
    Leaves (.testEntryTime) s fun t => t.module.state = .test ∧ t.module.testAt = none ∧ t.module.since = s.now) ∧
  (∀ (t0 : Nat) (s : State), s.module.running < 2 → (fwSlot s s.module.running).trial = true →
    s.module.trialSince = some t0 → t0 + trialTime ≤ s.now →
    Leaves (.trialEnd) s fun t => t.module.trialSince = none ∧ (fwSlot t s.module.running).trial = false ∧ (fwSlot t s.module.running).st = (fwSlot s s.module.running).st ∧ t.module.state = s.module.state)

/-- Module-fatal errors and failed images: RECOVERY, HALTED, rejection and rollback (R36, R343, R353, R354, R444, R445, R529). (Choices of the model behind it: log entries 77, 83.) -/
def Obligations.FatalAndFailedImages : Prop :=
  (∀ (cause : Nat) (s : State), 40 ≤ cause → cause ≤ 43 → coreRuns s = true → s.module.state ≠ .recovery →
    Leaves (.moduleFatalError cause) s fun t => t.module.fatalLast = cause ∧ t.module.warm = none ∧ t.module.pause = none ∧ t.module.recoveries = recentRecoveries s ++ [s.now] ∧ t.module.state = (if 3 ≤ (recentRecoveries s).length + 1 then .halted else .recovery)) ∧
  (∀ (t0 : Nat) (s : State), coreRuns s = true → s.module.state ≠ .recovery → s.gov.hotTold = false →
    s.gov.hotSince = some t0 → t0 + 1000000000 ≤ s.now →
    Leaves (.thermalFatalTimeout) s fun t => t.module.fatalLast = 42 ∧ t.gov.hotTold = true ∧ t.module.state = (if 3 ≤ (recentRecoveries s).length + 1 then .halted else .recovery)) ∧
  (∀ (s : State), onTrial s = true → s.module.trialSince.isSome = true → s.module.pause = none →
    s.module.watchdogAt + 1000000000 ≤ s.now →
    Leaves (.treadleWatchdogExpiry) s fun t => (fwSlot t s.module.running).rejected = true ∧ (fwSlot t s.module.running).trial = false ∧ t.module.trialSince = none) ∧
  (∀ (s : State), s.obs.bolt.state = 1 → s.module.state = .recovery → s.module.warm = none →
    Leaves (.boltWriteDone) s fun t => t.module.warm = some .reset ∧ t.module.warmCause = 3 ∧ t.module.warmSince = s.now ∧ t.module.state = .recovery)

/-- Firmware: begin, erase, blocks, end and verification of a load (R437, R438, R439). (Choices of the model behind it: log entries 79.) -/
def Obligations.FirmwareLoad : Prop :=
  (∀ (sess : Nat) (s : State), MayAct s sess 0x1310 3 1 → param s sess 0x1310 1 < 2 → loadRefusal s sess = 0 →
    Leaves (.fwLoadBegin sess 1) s fun t => t.module.claim = some (sess, param s sess 0x1310 1, param s sess 0x1310 2) ∧ t.module.loadStatus = 1 ∧ t.module.loadSince = s.now ∧ t.module.verifying = none ∧ fwSlot t (param s sess 0x1310 1) = {} ∧ (∀ j, j ≠ param s sess 0x1310 1 → fwSlot t j = fwSlot s j) ∧ t.module.state = s.module.state) ∧
  (∀ (sess k n : Nat) (s : State), s.module.loadStatus = 1 → s.module.claim = some (sess, k, n) → k < 2 →
    Leaves (.fwEraseDone) s fun t => t.module.loadStatus = 2 ∧ fwSlot t k = { st := .loading, length := n } ∧ t.module.claim = some (sess, k, n) ∧ (∀ j, j ≠ k → fwSlot t j = fwSlot s j)) ∧
  (∀ (sess k n : Nat) (data : List Byte) (s : State), MayAct s sess 0x1310 5 (leNat data) → data.length = 4096 →
    s.module.claim = some (sess, k, n) → k < 2 → s.module.loadStatus = 2 → param s sess 0x1310 4 % 4096 = 0 →
    param s sess 0x1310 4 < n →
    Leaves (.fwBlockData sess data) s fun t => (fwSlot t k).image = Memory.writeBytes (fwSlot s k).image (param s sess 0x1310 4) data ∧ param s sess 0x1310 4 ∈ (fwSlot t k).blocks ∧ (fwSlot t k).st = (fwSlot s k).st ∧ (∀ j, j ≠ k → fwSlot t j = fwSlot s j) ∧ t.module.claim = s.module.claim) ∧
  (∀ (sess k n : Nat) (s : State), MayAct s sess 0x1310 6 1 → s.module.claim = some (sess, k, n) →
    s.module.loadStatus = 2 →
    Leaves (.fwLoadEnd sess 1) s fun t => t.module = { s.module with loadStatus := 3, verifying := some k, loadSince := s.now }) ∧
  (∀ (flashOk : Bool) (k : Nat) (s : State), s.module.verifying = some k → k < 2 →
    Leaves (.fwVerifyDone flashOk) s fun t => t.module.verifying = none ∧ t.module.claim = none ∧ (loadReason s k flashOk = 0 → t.module.loadStatus = 4 ∧ fwSlot t k = { fwSlot s k with st := .verified }) ∧ (loadReason s k flashOk ≠ 0 → t.module.loadStatus = 8 + loadReason s k flashOk ∧ fwSlot t k = {}) ∧ (∀ j, j ≠ k → fwSlot t j = fwSlot s j))

/-- Firmware: activation, its cancellation and its start, and the hitless pause (R440, R441, R442, R443). (Choices of the model behind it: log entries 80.) -/
def Obligations.FirmwareActivation : Prop :=
  (∀ (sess : Nat) (s : State), MayAct s sess 0x1320 3 1 → activateRefusal s sess = 0 →
    s.ft + 10000000 ≤ param s sess 0x1320 2 → s.module.running < 2 →
    Leaves (.fwActivateCmd sess 1) s fun t => t.module.activation = some (1 - s.module.running, param s sess 0x1320 1, param s sess 0x1320 2) ∧ (fwSlot t (1 - s.module.running)).st = .pending ∧ fwSlot t s.module.running = fwSlot s s.module.running ∧ t.module.state = s.module.state) ∧
  (∀ (sess k m t0 : Nat) (s : State), MayAct s sess 0x1320 4 1 → s.module.activation = some (k, m, t0) → k < 2 →
    Leaves (.fwActivateCancel sess 1) s fun t => t.module.activation = none ∧ fwSlot t k = { fwSlot s k with st := .verified } ∧ (∀ j, j ≠ k → fwSlot t j = fwSlot s j)) ∧
  (∀ (k t0 : Nat) (s : State), s.module.activation = some (k, 0, t0) → t0 ≤ s.ft →
    activationStates s.module.state 0 = true → s.module.warm = none →
    Leaves (.fwActivationStart) s fun t => t.module.activation = none ∧ t.module.pause = some .quiesce ∧ t.module.pauseSlot = k ∧ t.module.pauseSince = s.now ∧ t.module.isRollback = false) ∧
  (∀ (hashOk : Bool) (s : State), s.module.pause = some .quiesce → s.mgmt.inFlash = none →
    Leaves (.hitlessPhaseDone hashOk) s fun t => t.module = { s.module with pause := some .save }) ∧
  (∀ (s : State), s.module.pause = some .restart → s.module.pauseSlot < 2 → s.module.running < 2 →
    s.module.running ≠ s.module.pauseSlot → s.module.isRollback = false → s.now < s.module.pauseSince + 150000000 →
    s.module.warmHeld = none → s.mgmt.heldWrites = [] →
    LeavesSettling (.hitlessResume) s fun t => t.module.pause = none ∧ t.module.running = s.module.pauseSlot ∧ (fwSlot t s.module.pauseSlot).st = .active ∧ (fwSlot t s.module.pauseSlot).trial = true ∧ (fwSlot t s.module.running).st = .verified)

/-- Lanes: block lock, alignment and what a lane shows of them (R53, R57, R58, R59, R60, R62). (Choices of the model behind it: log entries 96, 106.) -/
def Obligations.LanesLock : Prop :=
  (∀ (l : Lane) (levels : BitVec 130) (s : State), (laneOf s l).st = .hunting →
    LeavesSettling (.weftBlockReceive l levels) s fun t => let ys := wordLevels (if laneInverted s l then invertLevels levels.toNat else levels.toNat); let header := (symbolsBlock (unprecodeAll (laneOf s l).rxLevel ys)).1; t = setLane s l (if header = 1 ∨ header = 2 then { laneOf s l with rxLevel := ys.getLastD (laneOf s l).rxLevel, valid := (laneOf s l).valid + 1 } else { laneOf s l with rxLevel := ys.getLastD (laneOf s l).rxLevel, candidate := ((laneOf s l).candidate + 1) % 65, valid := 0 })) ∧
  (∀ (l : Lane) (levels : BitVec 130) (s : State), ((laneOf s l).st = .locked ∨ (laneOf s l).st = .aligned) →
    lanePort s l = none →
    LeavesSettling (.weftBlockReceive l levels) s fun t => let ys := wordLevels (if laneInverted s l then invertLevels levels.toNat else levels.toNat); let header := (symbolsBlock (unprecodeAll (laneOf s l).rxLevel ys)).1; (laneOf t l).history = (decide (header = 1 ∨ header = 2) :: (laneOf s l).history).take 64 ∧ (laneOf t l).st = (laneOf s l).st ∧ (laneOf t l).rxLevel = ys.getLastD (laneOf s l).rxLevel ∧ (∀ m : Lane, m ≠ l → laneOf t m = laneOf s m) ∧ t.weft = s.weft) ∧
  (∀ (l : Lane) (s : State), (laneOf s l).st = .hunting → 64 ≤ (laneOf s l).valid →
    Leaves (.blockLockAcquired l) s fun t => laneOf t l = { laneOf s l with st := .locked, history := [], polChecked := false, alignAt := s.now } ∧ (∀ m : Lane, m ≠ l → laneOf t m = laneOf s m)) ∧
  (∀ (l : Lane) (s : State), ((laneOf s l).st = .locked ∨ (laneOf s l).st = .aligned) → 8 ≤ invalidHeaders (laneOf s l) →
    LeavesSettling (.blockLockLost l) s fun t => (laneOf t l).st = .hunting ∧ (laneOf t l).huntSince = s.now ∧ (laneOf t l).valid = 0 ∧ (∀ p j, lanePort s l = some (p, j) → isWeft s p = true → p < 128 → (weftPort s p).link = .active → bit (weftPort s p).lanes j = true → (weftPort t p).link = .retrain ∧ (weftPort t p).lastCause = 2)) ∧
  (∀ (l : Lane) (s : State), (laneOf s l).st = .hunting → (laneOf s l).huntSince + 100000 ≤ s.now →
    Leaves (.laneLockTimeout l) s fun t => laneOf t l = { laneOf s l with st := .failed } ∧ (∀ m : Lane, m ≠ l → laneOf t m = laneOf s m)) ∧
  (∀ (l : Lane) (s : State), (laneOf s l).st = .aligned → lanePort s l = none → (laneOf s l).alignAt + 15035 ≤ s.now →
    LeavesSettling (.laneAlignTimeout l) s fun t => (laneOf t l).st = .locked ∧ (laneOf t l).seenNum = none) ∧
  (∀ (l : Lane) (w : Nat) (ws : List Nat) (p j : Nat) (s : State),
    ((laneOf s l).st = .locked ∨ (laneOf s l).st = .aligned) → (laneOf s l).aligns = w :: ws → lanePolarity s l = 1 →
    isAlign w = true → lanePort s l = some (p, j) →
    LeavesSettling (.alignReceive l) s fun t => (laneOf t l).st = (if bits w 16 8 = alignWidth s p then .aligned else .locked) ∧ (laneOf t l).seenNum = some (bits w 8 8) ∧ (laneOf t l).alignAt = s.now ∧ (laneOf t l).polSeen = 1 ∧ (laneOf t l).aligns = ws) ∧
  (∀ (p : Port) (s : State), isWeft s p = true → (weftPort s p).link = .active → alignDue s (weftPort s p) = true →
    Leaves (.alignSend p) s fun t => t = sendOn (setWeft s p { weftPort s p with alignPos := (weftPort s p).alignPos + 1 }) (lanesIn s p (weftPort s p).lanes) 2 fun i => alignBlock (alignWidth s p) ((setBits 16 (weftPort s p).lanes).getD i 0))

/-- Lanes: the freeze of adaptation, margining, and the reference clocks (R52, R65, R66, R67, R68). -/
def Obligations.AdaptationAndMargin : Prop :=
  (∀ (s : State), s.lanes.frozen = none → s.lanes.freezeHeld = none → s.lanes.freezeEnd = none →
    Leaves (.adaptFreeze (.treadle true)) s fun t => t.lanes.frozen = some (false, s.now) ∧ t.lanes.freezeHeld = none ∧ t.lanes.thawed = [] ∧ t.lanes.lane = s.lanes.lane ∧ t.lanes.run = none) ∧
  (∀ (b : Bool) (t0 : Nat) (s : State), s.lanes.frozen = some (b, t0) → t0 + 2000000 ≤ s.now →
    Leaves (.adaptFreezeEnd) s fun t => t.lanes = { s.lanes with frozen := none, thawed := [], freezeEnd := some s.now }) ∧
  (∀ (b : Bool) (t0 : Nat) (s : State), s.lanes.freezeHeld = some b → s.lanes.frozen = none →
    s.lanes.freezeEnd = some t0 → t0 + 20000000 ≤ s.now →
    Leaves (.adaptFreezeHeldStart) s fun t => t.lanes.frozen = some (b, s.now) ∧ t.lanes.freezeHeld = none ∧ t.lanes.lane = s.lanes.lane) ∧
  (∀ (sess : Nat) (s : State), MayAct s sess 0x3020 4 1 → s.lanes.run = none → s.lanes.frozen = none →
    marginLane s (param s sess 0x3020 1) = true →
    Leaves (.marginStart sess 1) s fun t => t.lanes = { s.lanes with run := some { lane := param s sess 0x3020 1, axis := param s sess 0x3020 2, limit := param s sess 0x3020 3, positive := false, step := 1, since := s.now }, marginStatus := 1, marginNeg := 0, marginPos := 0 }) ∧
  (∀ (errors : Nat) (r : MarginRun) (s : State), s.lanes.run = some r → r.since + 1000000 ≤ s.now → errors ≤ r.limit →
    r.step < 63 →
    Leaves (.marginStep errors) s fun t => t = { s with lanes := { s.lanes with run := some { r with step := r.step + 1, since := s.now } } }) ∧
  (∀ (errors : Nat) (r : MarginRun) (s : State), s.lanes.run = some r → r.since + 1000000 ≤ s.now → r.limit < errors →
    Leaves (.marginStep errors) s fun t => t.lanes = (if r.positive then { s.lanes with run := none, marginStatus := 2, marginPos := r.step - 1 } else { s.lanes with marginNeg := r.step - 1, run := some { r with positive := true, step := 1, since := s.now } })) ∧
  (∀ (c : Clk) (s : State), coreRuns s = true → bit s.lanes.refLost c = false → clockPorts s c = [] →
    LeavesSettling (.refclkLost c) s fun t => t.lanes = { s.lanes with refLost := putBit s.lanes.refLost c true, refLostAt := Tbl.set s.lanes.refLostAt c s.now } ∧ t.weft = s.weft ∧ t.warp = s.warp) ∧
  (∀ (c : Clk) (s : State), coreRuns s = true → bit s.lanes.refLost c = true →
    Tbl.get s.lanes.refLostAt c 0 + 1000000 ≤ s.now → clockPorts s c = [] →
    LeavesSettling (.refclkRestored c) s fun t => t.lanes = { s.lanes with refLost := putBit s.lanes.refLost c false } ∧ t.weft = s.weft ∧ t.warp = s.warp)

/-- Weft links: from training to ACTIVE (R98, R100, R101, R102, R103, R104). (Choices of the model behind it: log entries 107, 108.) -/
def Obligations.WeftTraining : Prop :=
  (∀ (p : Port) (b n : Nat) (s : State), isWeft s p = true → inService s = true → (weftPort s p).link = .down →
    clockOk s p = true → (weftPort s p).idleSince + 100000 ≤ s.now → portLanes s p = some (b, n) →
    (weftPort s p).fails < cfgv s 0x3203 (p + 1) →
    LeavesSettling (.weftTrainingStart p) s fun t => (weftPort t p).link = .training ∧ (weftPort t p).trainRate = (if cfgv s 0x3004 (p + 1) = 0 then 1 else 2) ∧ (weftPort t p).phaseSince = s.now ∧ (weftPort t p).nonce = (Config.entropy s.drawn).toNat % 65536 ∧ (weftPort t p).fails = (weftPort s p).fails ∧ (∀ q : Port, q ≠ p → weftPort t q = weftPort s q)) ∧
  (∀ (p : Port) (l w : Nat) (ts : List (Nat × Nat)) (s : State),
    ((weftPort s p).link = .training ∨ (weftPort s p).link = .retrain) → (weftPort s p).ts = (l, w) :: ts →
    bits w 0 8 = 0x40 → checkOk w = false →
    LeavesSettling (.ts1Receive p) s fun t => t = ctrWeft (setWeft s p { weftPort s p with ts := ts }) p 9 1) ∧
  (∀ (p : Port) (l w : Nat) (ts : List (Nat × Nat)) (s : State), (weftPort s p).link = .training →
    (weftPort s p).ts = (l, w) :: ts → bits w 0 8 = 0x40 → checkOk w = true → bits w 61 2 = personality s p →
    bits w 8 8 = portWidth s p → bits w 96 16 < (weftPort s p).nonce → (weftPort s p).trainRate = 2 →
    LeavesSettling (.ts1Receive p) s fun t => (weftPort t p).peerNonce = some (bits w 96 16) ∧ (weftPort t p).peerMask = bits w 80 16 ∧ (weftPort t p).ts1Seen = countSame (weftPort s p).ts1Seen l w ∧ (weftPort t p).peer = at_ 31 (bits w 58 1) + at_ 17 (bits w 61 2) + bits w 63 17 ∧ (weftPort t p).link = .training ∧ (weftPort t p).ts = ts ∧ (∀ q : Port, q ≠ p → weftPort t q = weftPort s q)) ∧
  (∀ (p : Port) (l w : Nat) (ts : List (Nat × Nat)) (s : State), (weftPort s p).link = .training →
    (weftPort s p).agreed = false → (weftPort s p).ts = (l, w) :: ts → bits w 0 8 = 0x41 → checkOk w = true →
    (weftPort s p).peerNonce = none →
    LeavesSettling (.ts2Receive p) s fun t => (weftPort t p).ts2Seen = countSame (weftPort s p).ts2Seen l w ∧ (weftPort t p).link = .training ∧ (weftPort t p).ts = ts ∧ (∀ q : Port, q ≠ p → weftPort t q = weftPort s q)) ∧
  (∀ (p : Port) (s : State), (weftPort s p).link = .training → (weftPort s p).trainRate = 1 →
    (weftPort s p).phaseSince + 2000000 ≤ s.now →
    LeavesSettling (.trainingPhaseTimeout p) s fun t => (weftPort t p).link = .training ∧ (weftPort t p).trainRate = 2 ∧ (weftPort t p).phaseSince = s.now ∧ (weftPort t p).ts1Seen = [] ∧ (weftPort t p).fails = (weftPort s p).fails) ∧
  (∀ (p : Port) (w : Nat) (rest : List RxItem) (s : State), (weftPort s p).link = .aligned →
    (weftPort s p).rx = .row w :: rest → bits w 0 8 = 0x48 → (weftPort s p).creditSent < 4 →
    LeavesSettling (.creditInitReceive p) s fun t => t = setWeft s p { weftPort s p with rx := rest, advH := Tbl.set (weftPort s p).advH (bits w 8 3) (bits w 32 12), advD := Tbl.set (weftPort s p).advD (bits w 8 3) (bits w 44 16), creditSeen := putBit (weftPort s p).creditSeen (bits w 8 3) true }) ∧
  (∀ (p : Port) (w : Nat) (rest : List RxItem) (s : State), (weftPort s p).link = .aligned →
    (weftPort s p).rx = .row w :: rest → bits w 0 8 = 0x50 → bit w 18 = false → (weftPort s p).startSent = true →
    LeavesSettling (.flitStartReceive p) s fun t => (weftPort t p).link = .active ∧ (weftPort t p).fails = 0 ∧ (weftPort t p).expect = bits w 8 10 ∧ (weftPort t p).since = s.now ∧ (weftPort t p).rx = rest ∧ (∀ q : Port, q ≠ p → weftPort t q = weftPort s q)) ∧
  (∀ (p : Port) (s : State), (weftPort s p).link = .aligned → (weftPort s p).since + 100000 ≤ s.now →
    (weftPort s p).fails + 1 < cfgv s 0x3203 (p + 1) →
    LeavesSettling (.alignedTimeout p) s fun t => (weftPort t p).link = .down ∧ (weftPort t p).fails = (weftPort s p).fails + 1 ∧ (weftPort t p).lastCause = 9 ∧ (weftPort t p).idleSince = s.now)

/-- Weft links: flits, replay and RETRAIN (R74, R80, R81, R83, R84, R85, R86, R87, R92, R100, R101). -/
def Obligations.WeftRunning : Prop :=
  (∀ (p : Port) (s : State), (weftPort s p).link = .active → (weftPort s p).nak = false → (weftPort s p).resend = [] →
    (weftPort s p).out = [] →
    Leaves (.flitSend p) s fun t => (∃ es, t.tx = s.tx ++ .flit p (flitBytes { currentHeader (weftPort s p) with kind := 1 } [] 0xFFFF) :: es) ∧ { weftPort t p with txRow := [] } = { weftPort s p with crTc := ((weftPort s p).crTc + 1) % 8, txRow := [] } ∧ (∀ q : Port, q ≠ p → weftPort t q = weftPort s q)) ∧
  (∀ (p : Port) (f : SentFlit) (fs : List SentFlit) (s : State), (weftPort s p).link = .active →
    (weftPort s p).nak = false → (weftPort s p).resend = f :: fs →
    Leaves (.flitSend p) s fun t => (∃ es, t.tx = s.tx ++ .flit p (flitBytes { currentHeader (weftPort s p) with kind := 0, slotMap := f.slotMap, opAbort := f.opAbort } f.slots f.seq) :: es) ∧ { weftPort t p with txRow := [] } = { weftPort s p with crTc := ((weftPort s p).crTc + 1) % 8, resend := fs, txRow := [] } ∧ (∀ q : Port, q ≠ p → weftPort t q = weftPort s q)) ∧
  (∀ (p : Port) (bs : List Byte) (rest : List RxItem) (s : State), (weftPort s p).link = .active →
    (weftPort s p).rx = .flit bs :: rest → bs.length = 288 → flitFec (bs.map BitVec.toNat) = none →
    (weftPort s p).waitReplay = false →
    LeavesSettling (.flitReceive p) s fun t => weftPort t p = { weftPort s p with rx := rest, waitReplay := true, nak := true, nakRound := !(weftPort s p).nakRound } ∧ t.weft.arrived = s.weft.arrived) ∧
  (∀ (p : Port) (bs : List Byte) (rest : List RxItem) (c : List Nat) (h : LinkHeader) (tc : Nat) (s : State),
    (weftPort s p).link = .active → (weftPort s p).rx = .flit bs :: rest → bs.length = 288 →
    flitFec (bs.map BitVec.toNat) = some (c, 0) → h = LinkHeader.of (leNat ((c.take 8).map (BitVec.ofNat 8))) →
    h.kind = 0 → h.nak = false → h.opAbort = false → h.slotMap = 3 → (weftPort s p).waitReplay = false →
    (weftPort s p).countC = (weftPort s p).expect →
    flitCrc (weftPort s p).countC (c.take 264) = leNat (((c.drop 264).take 8).map (BitVec.ofNat 8)) →
    (weftPort s p).buffer = [] →
    availH { weftPort s p with retH := Tbl.set (weftPort s p).retH h.crTc h.crHdr } h.crTc ≤ Tbl.get (weftPort s p).advH h.crTc 0 →
    availD { weftPort s p with retD := Tbl.set (weftPort s p).retD h.crTc h.crData } h.crTc ≤ Tbl.get (weftPort s p).advD h.crTc 0 →
    (weftPort s p).openSlots = 0 → (weftPort s p).opening = [] → (weftPort s p).relayTo = none →
    tc = envTc (((c.drop 8).take 64).map (BitVec.ofNat 8)) →
    ((Tbl.get (weftPort s p).gotH tc 0 + 1) % 4096 + 4096 - Tbl.get (weftPort s p).giveH tc 0) % 4096 ≤ advHdr s p tc →
    ((Tbl.get (weftPort s p).gotD tc 0 + 1) % 65536 + 65536 - Tbl.get (weftPort s p).giveD tc 0) % 65536 ≤ advData s p tc →
    LeavesSettling (.flitReceive p) s fun t => t.weft.arrived = s.weft.arrived ++ [{ port := p, tc := tc, bytes := ((c.drop 8).take 64).map (BitVec.ofNat 8) }] ∧ (weftPort t p).expect = ((weftPort s p).expect + 1) % 1024 ∧ (weftPort t p).countC = ((weftPort s p).expect + 1) % 1024 ∧ (weftPort t p).link = .active ∧ (weftPort t p).waitReplay = false ∧ (weftPort t p).rx = rest ∧ Tbl.get (weftPort t p).retH h.crTc 0 = h.crHdr ∧ Tbl.get (weftPort t p).retD h.crTc 0 = h.crData ∧ (∀ q : Port, q ≠ p → weftPort t q = weftPort s q)) ∧
  (∀ (p : Port) (f : SentFlit) (fs : List SentFlit) (t0 : Nat) (s : State), (weftPort s p).link = .active →
    (weftPort s p).buffer = f :: fs → (weftPort s p).timer = some t0 → t0 + 1500 ≤ s.now → (weftPort s p).headReplays < 4 →
    LeavesSettling (.replayTimerExpiry p) s fun t => { weftPort t p with txRow := [] } = { weftPort s p with headReplays := (weftPort s p).headReplays + 1, resend := f :: fs, timer := some s.now, txRow := [] } ∧ (∃ es fs', t.tx = s.tx ++ es ++ .row p (flitStartBlock true f.seq) :: fs')) ∧
  (∀ (p : Port) (w : Nat) (rest : List RxItem) (s : State), (weftPort s p).link = .active →
    (weftPort s p).rx = .row w :: rest → bits w 0 8 = 0x58 →
    LeavesSettling (.retrainReqReceive p) s fun t => (weftPort t p).link = .retrain ∧ (weftPort t p).lastCause = 4 ∧ (weftPort t p).buffer = (weftPort s p).buffer ∧ (weftPort t p).waitReplay = true) ∧
  (∀ (p : Port) (t0 : Nat) (s : State), (weftPort s p).link = .retrain → (weftPort s p).reqSince = some t0 →
    t0 + 1000 ≤ s.now →
    LeavesSettling (.retrainReqEnd p) s fun t => weftPort t p = { weftPort s p with reqSince := none } ∧ s.tx <+: t.tx) ∧
  (∀ (p : Port) (s : State), (weftPort s p).link = .retrain → (weftPort s p).trainRate = 1 →
    (weftPort s p).agreed = false → (weftPort s p).retrainSince + 500000 ≤ s.now →
    LeavesSettling (.retrainRateStep p) s fun t => (weftPort t p).link = .retrain ∧ (weftPort t p).trainRate = 2 ∧ (weftPort t p).phaseSince = s.now ∧ (weftPort t p).buffer = (weftPort s p).buffer) ∧
  (∀ (p : Port) (s : State), (weftPort s p).link = .retrain → (weftPort s p).retrainSince + 1000000 ≤ s.now →
    LeavesSettling (.retrainTimeout p) s fun t => (weftPort t p).link = .down ∧ (weftPort t p).lastCause = 6 ∧ (weftPort t p).buffer = [] ∧ (weftPort t p).rx = [] ∧ p.val ∈ t.weft.downed) ∧
  (∀ (sess : Nat) (p : Port) (s : State), MayAct s sess 0x3207 (p + 1) 1 → isWeft s p = true →
    (weftPort s p).link = .active →
    LeavesSettling (.weftRetrainCmd sess p 1) s fun t => (weftPort t p).link = .retrain ∧ (weftPort t p).lastCause = 5 ∧ (weftPort t p).buffer = (weftPort s p).buffer)

/-- Warp ports: links, the surprise state, DPC and software link-downs (R128, R131, R132, R133, R134, R145). (Choices of the model behind it: log entries 55, 60.) -/
def Obligations.WarpLinks : Prop :=
  (∀ (p : Port) (width rate : Nat) (flit : Bool) (s : State),
    ((warpPort s p).st = .down ∨ (warpPort s p).st = .training) → isWarp s p = true → inService s = true →
    linkLet s p = true → clockOk s p = true → linkFits s p width rate flit = true →
    Leaves (.warpLinkUp p width rate flit) s fun t => (warpPort t p).st = .active ∧ (warpPort t p).width = width ∧ (warpPort t p).rate = rate ∧ (warpPort t p).flit = flit ∧ (warpPort t p).softDown = false ∧ (warpPort t p).adv = warpAdvert s p ∧ (warpPort t p).freed = [] ∧ (warpPort t p).reqs = (warpPort s p).reqs ∧ (∀ q : Port, q ≠ p → warpPort t q = warpPort s q)) ∧
  (∀ (p : Port) (s : State), isDown s p = true → (warpPort s p).st = .active → (warpPort s p).softDown = false →
    Leaves (.surpriseDown p) s fun t => (warpPort t p).st = .surprise ∧ (warpPort t p).downCause = 1 ∧ (warpPort t p).width = 0 ∧ (warpPort t p).rate = 0 ∧ (warpPort t p).reportAt = s.now) ∧
  (∀ (p : Port) (s : State), (warpPort s p).st = .surprise → (warpPort s p).reportAt + 1000000000 ≤ s.now →
    Leaves (.surpriseReport p) s fun t => warpPort t p = { warpPort s p with synthesized := 0, dropped := 0, reportAt := s.now } ∧ (∀ q : Port, q ≠ p → warpPort t q = warpPort s q)) ∧
  (∀ (p : Port) (width rate : Nat) (flit : Bool) (s : State), (warpPort s p).st = .surprise →
    (warpPort s p).contained = none → cardPresent s p = true → isWarp s p = true → inService s = true →
    linkLet s p = true → clockOk s p = true → linkFits s p width rate flit = true →
    Leaves (.linkReturnL0 p width rate flit) s fun t => (warpPort t p).st = .active ∧ (warpPort t p).width = width ∧ (warpPort t p).rate = rate ∧ (warpPort t p).flit = flit ∧ (warpPort t p).softDown = false ∧ (warpPort t p).adv = warpAdvert s p ∧ (warpPort t p).freed = [] ∧ (warpPort t p).synthesized = 0 ∧ (warpPort t p).dropped = 0) ∧
  (∀ (p : Port) (s : State), isDown s p = true → ((warpPort s p).st = .active ∨ (warpPort s p).st = .surprise) →
    Leaves (.secondaryBusReset p) s fun t => (warpPort t p).st = .down ∧ (warpPort t p).softDown = true ∧ (warpPort t p).reqs = []) ∧
  (∀ (p : Port) (s : State), isDown s p = true → ((warpPort s p).st = .active ∨ (warpPort s p).st = .surprise) →
    Leaves (.linkDisable p) s fun t => (warpPort t p).st = .down ∧ (warpPort t p).softDown = true ∧ (warpPort t p).reqs = []) ∧
  (∀ (p : Port) (reason : Nat) (s : State), isDown s p = true → dpcEnabled s p = true →
    ((warpPort s p).st = .active ∨ (warpPort s p).st = .surprise) →
    Leaves (.dpcTrigger p reason) s fun t => (warpPort t p).st = .dpc ∧ (warpPort t p).dpcUr = dpcAnswersUr s p ∧ ((warpPort t p).surpriseUnder = true ↔ (warpPort s p).st = .surprise)) ∧
  (∀ (p : Port) (s : State), (warpPort s p).st = .dpc →
    Leaves (.dpcRelease p) s fun t => warpPort t p = { warpPort s p with st := if (warpPort s p).surpriseUnder then .surprise else .training, surpriseUnder := false, synthesized := 0, dropped := 0, reportAt := s.now } ∧ (∀ q : Port, q ≠ p → warpPort t q = warpPort s q))

/-- Hot-plug slots: power, reset, indicators, inputs and expanders (R131, R135, R136, R137, R138). (Choices of the model behind it: log entries 100.) -/
def Obligations.HotPlug : Prop :=
  (∀ (k : Slot) (s : State), slotEnabled s k = true → (expander s (k / 2)).silent = false →
    Leaves (.slotPowerOff k) s fun t => (slotState t k).perstN = false ∧ (slotState t k).power = .off ∧ (slotState t k).offAt = some s.now ∧ (slotState t k).pwren = (slotState s k).pwren ∧ (isDown s (cfgv s 0x3121 (k + 1)) = true → (warpPort t (cfgv s 0x3121 (k + 1))).softDown = true)) ∧
  (∀ (k : Slot) (t0 : Nat) (s : State), (slotState s k).offAt = some t0 → t0 + 1000000 ≤ s.now →
    Leaves (.slotPwrenClear k) s fun t => slotState t k = { slotState s k with pwren := false, offAt := none } ∧ (∀ j : Slot, j ≠ k → slotState t j = slotState s j) ∧ t.tx = s.tx ++ [.i2c (k / 2) (slotByte t (k / 2 * 2) + at_ 8 (slotByte t (k / 2 * 2 + 1)))]) ∧
  (∀ (k : Slot) (s : State), slotEnabled s k = true → (expander s (k / 2)).silent = false →
    Leaves (.slotPowerOn k) s fun t => slotState t k = { slotState s k with pwren := true, onAt := some s.now, offAt := none, powerFault := false, faultRead := false, commandCompleted := true } ∧ (∀ j : Slot, j ≠ k → slotState t j = slotState s j)) ∧
  (∀ (k : Slot) (s : State), (expander s (k / 2)).silent = true → Leaves (.slotPowerOn k) s fun t => t = s) ∧
  (∀ (k : Slot) (t0 : Nat) (s : State), (slotState s k).onAt = some t0 → t0 + 100000000 ≤ s.now →
    (slotState s k).pwren = true → (slotState s k).powerFault = false → (slotState s k).faultRead = false →
    bit (slotState s k).raw 3 = true →
    Leaves (.slotPerstRelease k) s fun t => slotState t k = { slotState s k with perstN := true, onAt := none } ∧ (∀ j : Slot, j ≠ k → slotState t j = slotState s j)) ∧
  (∀ (k : Slot) (attention power : Indicator) (s : State), slotEnabled s k = true →
    Leaves (.indicatorSet k attention power) s fun t => slotState t k = { slotState s k with attention := attention, power := power, commandCompleted := true } ∧ t.tx = s.tx ++ [.i2c (k / 2) (slotByte t (k / 2 * 2) + at_ 8 (slotByte t (k / 2 * 2 + 1)))]) ∧
  (∀ (s : State), s.warp.blinkAt + 333333333 ≤ s.now →
    Leaves (.indicatorBlink) s fun t => t.warp = { s.warp with blink := !s.warp.blink, blinkAt := s.now }) ∧
  (∀ (k : Slot) (i : Fin 4) (s : State), i = 3 → slotEnabled s k = true → bit (slotState s k).inputs i = true →
    bit (slotState s k).raw i = false → Tbl.get (slotState s k).rawSince i s.now + cfgv s 0x3123 1 * ms ≤ s.now →
    Leaves (.hpInputDebounced k i) s fun t => (slotState t k).pwren = false ∧ (slotState t k).powerFault = true ∧ (slotState t k).onAt = none ∧ bit (slotState t k).inputs i = false) ∧
  (∀ (k : Slot) (i : Fin 4) (s : State), i = 0 → slotEnabled s k = true → bit (slotState s k).inputs i = false →
    bit (slotState s k).raw i = true → Tbl.get (slotState s k).rawSince i s.now + cfgv s 0x3123 1 * ms ≤ s.now →
    (warpPort s (cfgv s 0x3121 (k + 1))).st = .active →
    Leaves (.hpInputDebounced k i) s fun t => (slotState t k).presenceChanged = true ∧ bit (slotState t k).inputs i = true ∧ (warpPort t (cfgv s 0x3121 (k + 1))).st = .surprise) ∧
  (∀ (inputs : List (Option (BitVec 16))) (e : Expander) (v : BitVec 16) (s : State), coreRuns s = true →
    inputs[e.val]? = some (some v) → cfgv s 0x3120 (e + 1) ≠ 0 →
    Leaves (.expanderInterrupt inputs) s fun t => expander t e = { fails := 0, lastTry := s.now, silent := false, setUp := true } ∧ t.warp.pollAt = s.warp.pollAt) ∧
  (∀ (inputs : List (Option (BitVec 16))) (e : Expander) (s : State), coreRuns s = true →
    s.warp.pollAt + 10000000 ≤ s.now → inputs[e.val]? = none → cfgv s 0x3120 (e + 1) ≠ 0 → (expander s e).fails = 0 →
    (expander s e).silent = false →
    Leaves (.expanderPoll inputs) s fun t => expander t e = { fails := 1, lastTry := s.now, silent := false, setUp := false } ∧ t.warp.pollAt = s.now) ∧
  (∀ (e : Expander) (input : Option (BitVec 16)) (s : State), (expander s e).fails = 2 →
    (expander s e).lastTry + 1000000 ≤ s.now → cfgv s 0x3120 (e + 1) ≠ 0 → input = none → (expander s e).silent = false →
    Leaves (.expanderRetry e input) s fun t => (expander t e).silent = true ∧ (slotState t (2 * e)).powerFault = true ∧ (slotState t (2 * e + 1)).powerFault = true)

/-- Partition resets, proxies and multicast groups (R115, R118, R123, R125, R126, R127, R140, R326). (Choices of the model behind it: log entries 53, 56.) -/
def Obligations.PartitionResets : Prop :=
  (∀ (v : Vs) (ns : Nat) (s : State), 1000 ≤ ns → inService s = true → partEnabled s v = true →
    (partOf s v).resetSince = none →
    Leaves (.perstAssert v ns) s fun t => (partOf t v).perst = true ∧ (partOf t v).st = 1 ∧ (partOf t v).resetSince = some s.now ∧ (partOf t v).config = [] ∧ (partOf t v).groups = 0) ∧
  (∀ (v : Vs) (ns : Nat) (s : State), ns < 1000 → Leaves (.perstAssert v ns) s fun t => t = s) ∧
  (∀ (v : Vs) (s : State),
    Leaves (.perstDeassert v) s fun t => partOf t v = { partOf s v with perst := false } ∧ (∀ u : Vs, u ≠ v → partOf t u = partOf s u)) ∧
  (∀ (p : Port) (v : Nat) (s : State), upstreamOf s p = some v → inService s = true → (warpPort s p).st = .active →
    partEnabled s v = true → (partOf s v).resetSince = none →
    Leaves (.hotResetReceived p) s fun t => (v < 32 → (partOf t v).st = 1 ∧ (partOf t v).resetSince = some s.now) ∧ (warpPort t p).st = .down) ∧
  (∀ (p : Port) (v : Nat) (t0 : Nat) (s : State), upstreamOf s p = some v → inService s = true →
    (warpPort s p).st = .active → partEnabled s v = true → (partOf s v).resetSince = some t0 →
    Leaves (.dlDown p) s fun t => (v < 32 → (partOf t v).resetSince = some s.now ∧ (partOf t v).st = (partOf s v).st) ∧ (∀ r ∈ t.vault.ide, r.1 / 65536 ≠ p.val)) ∧
  (∀ (sess : Nat) (v : Vs) (s : State), MayAct s sess 0x3305 (v + 1) 1 → vsResetCheck s v = 0 →
    (partOf s v).resetSince = none →
    Leaves (.vsResetCmd sess v 1) s fun t => (partOf t v).st = 1 ∧ (partOf t v).resetSince = some s.now) ∧
  (∀ (v : Vs) (t0 : Nat) (s : State), (partOf s v).resetSince = some t0 → t0 + 2000000 ≤ s.now →
    (partOf s v).perst = false → partEnabled s v = true →
    Leaves (.partitionResetEnd v) s fun t => (partOf t v).resetSince = none ∧ (partOf t v).endedAt = some s.now ∧ (partOf t v).st = (partOf s v).st) ∧
  (∀ (v : Vs) (t0 : Nat) (s : State), (partOf s v).endedAt = some t0 → (partOf s v).resetSince = none →
    partEnabled s v = true → inService s = true → tunnelUp s v = true →
    Leaves (.partitionReady v) s fun t => partOf t v = { partOf s v with st := 2, endedAt := none, wasIsolated := false, discarded := 0 } ∧ vsState t v = 2) ∧
  (∀ (sess : Nat) (s : State), MayAct s sess 0x3110 4 1 → proxyFreeCheck s sess = 0 → param s sess 0x3110 1 < 128 →
    Leaves (.proxyFree sess 1) s fun t => Tbl.find? (warpPort t (param s sess 0x3110 1)).proxies (param s sess 0x3110 2) = none) ∧
  (∀ (v : Vs) (group : Fin 64) (s : State), vsState s v = 2 → bit (partOf s v).groups group = false →
    groupsUsed s < 1024 →
    Leaves (.mcastGroupEnable v group) s fun t => partOf t v = { partOf s v with groups := putBit (partOf s v).groups group true } ∧ (∀ u : Vs, u ≠ v → partOf t u = partOf s u)) ∧
  (∀ (p : Port) (tl : Tlp) (v : Vs) (s : State), isWarp s p = true → inService s = true → (warpPort s p).st = .active →
    portPart s p = some v → (partOf s v).reloading = none → (partOf s v).resetSince = none → vsState s v = 1 →
    ingressErrors s v p tl = [] → tl.ep = false → tl.kind = .completion →
    LeavesSettling (.tlpIngress p tl) s fun t => (partOf t v).discarded = (partOf s v).discarded + 1 ∧ t.loom = s.loom) ∧
  (∀ (p : Port) (tl : Tlp) (v : Vs) (s : State), isWarp s p = true → inService s = true → (warpPort s p).st = .active →
    portPart s p = some v → (partOf s v).reloading = none → (partOf s v).resetSince ≠ none →
    LeavesSettling (.tlpIngress p tl) s fun t => partOf t v = partOf s v ∧ t.loom = s.loom ∧ t.tx = s.tx) ∧
  (∀ (p q : Port) (tl : Tlp) (v : Vs) (k : Nat) (s : State), isWarp s p = true → inService s = true →
    (warpPort s p).st = .active → portPart s p = some v → (partOf s v).reloading = none → (partOf s v).resetSince = none →
    vsState s v = 2 → ingressErrors s v p tl = [] → tl.ep = false → tlpAccess tl = some k →
    (tl.kind = .memWrite → mcastGroup s v tl.addr = none) → routeHop s v p (!isDown s p) tl = .port q →
    (warpPort s q).st = .active → fencedOff s q tl = false →
    heddleCheck s q { cls := v, kind := k, addr := tl.addr, len := max tl.len tl.data.length } = .own →
    LeavesSettling (.tlpIngress p tl) s fun t => ∃ i, queueOf t q = queueOf s q ++ [i] ∧ i.cargo = .tlp tl ∧ i.src = p.val ∧ i.kind = tlpKind tl ∧ i.tc = tl.tc.val ∧ i.bytes = tlpBytes tl ∧ i.stamp = s.now ∧ i.origin.cls = v.val ∧ i.origin.rid = tl.rid ∧ i.origin.ret = (if tlpKind tl = 1 then .port p.val else .none)) ∧
  (∀ (req : Nat) (r : EngRead) (x : InstState) (s : State), req < 1099511627776 →
    s.eng.reads.find? (fun q => q.req = req) = some r → instOf s r.ticket.inst = some x → timedOut s x.vs r.since = true →
    LeavesSettling (.weCompletionTimeout req) s fun t => t = readTimedOut s r)

/-- The loom: promotion, ledger moves, spill and readback (R151, R158, R165, R166, R167, R169, R174, R182). (Choices of the model behind it: log entries 112, 126.) -/
def Obligations.LoomMemory : Prop :=
  (∀ (src : Dest) (id : Nat) (c : Chain) (s : State),
    List.find? (fun r => r.2.account = .reserve src.val) s.loom.chains = some (id, c) → chainOf s id = some c →
    mayPromote s src c = true →
    Leaves (.sharedPromotion src) s fun t => chainOf t id = some { c with account := .shared src.val, credit := none } ∧ t.loom.queue = s.loom.queue) ∧
  (∀ (id : Nat) (c : Chain) (l : Nat) (e : LedgerEntry) (us : List Nat) (s : State), readbackDue s = false →
    moveDue s = some (id, c) → freeUnits c.size (ledgerRegion s) (ledgerInUse s) = some us → c.ledger = some l →
    Tbl.find? s.shu.ledger l = some e →
    Leaves (.ledgerMoveStart) s fun t => chainOf t id = some { c with moving := true, units := us } ∧ Tbl.find? t.shu.ledger l = some { e with place := 2 } ∧ t.loom.queue = s.loom.queue) ∧
  (∀ (id : Nat) (c : Chain) (l : Nat) (e : LedgerEntry) (s : State),
    List.find? (fun r => r.2.moving) s.loom.chains = some (id, c) → c.abandoned = false → c.ledger = some l → c.refs ≤ 1 →
    Tbl.find? s.shu.ledger l = some e →
    Leaves (.ledgerMoveDone) s fun t => chainOf t id = none ∧ Tbl.find? t.shu.ledger l = some { e with place := 1 } ∧ Tbl.find? t.loom.beamLedger l = some c.units ∧ t.beam = (beamStore s (c.units.map (ledgerUnit s)) (ledgerBytes s l)).beam) ∧
  (∀ (d : Dest) (i : LoomItem) (c : Chain) (s : State), oldestSpill s = some (d.val, i) → chainOf s i.chain = some c →
    c.refs ≤ 1 →
    Leaves (.spillWriteDone) s fun t => queueOf t d = (queueOf s d).map (fun j => if j.id = i.id then { j with place := .spilled } else j) ∧ chainOf t i.chain = none ∧ t.beam = (beamStore s ((Tbl.get s.loom.spillAt i.id []).map (spillUnit s)) (cargoBytes i.cargo)).beam ∧ (∀ e : Dest, e ≠ d → queueOf t e = queueOf s e)) ∧
  (∀ (d : Dest) (tc : Tc) (i : LoomItem) (s : State), readbackCan s d tc = some i → cells i.bytes ≤ sharedFree s →
    Leaves (.readbackStart d tc) s fun t => queueOf t d = (queueOf s d).map (fun j => if j.id = i.id then { j with place := .reading, chain := s.loom.nextChain } else j) ∧ chainOf t s.loom.nextChain = some { size := cells i.bytes, account := .shared 130, src := 130, refs := 2 } ∧ t.loom.nextChain = s.loom.nextChain + 1 ∧ t.loom.reads = s.loom.reads ++ [(s.loom.nextChain, d.val, i.id)]) ∧
  (∀ (r : StoreRead) (d : Dest) (i : LoomItem) (c : Nat) (rest : List (Nat × Nat × Nat)) (s : State), r = .clean →
    s.loom.reads = (c, d.val, i.id) :: rest → (queueOf s d).find? (fun j => j.id = i.id) = some i →
    overAge s { i with place := .resident } = false →
    LeavesSettling (.readbackDone r) s fun t => queueOf t d = (queueOf s d).map (fun j => if j.id = i.id then { i with place := .resident } else j) ∧ t.loom.spillAt = Tbl.erase s.loom.spillAt i.id ∧ t.loom.reads = rest) ∧
  (∀ (stack : Fin 2) (s : State), (stack = 0 ∨ Config.f48 = true) → bit s.loom.badStacks stack = false →
    coreRuns s = true →
    Leaves (.beamStackFault stack) s fun t => t.loom = { s.loom with badStacks := putBit s.loom.badStacks stack true }) ∧
  (∀ (d : Dest) (i : LoomItem) (o : WireOp) (s : State), s.loom.sweepAt + cfgv s 0x4010 0 / 16 ≤ s.now →
    queueOf s d = [i] → (∀ e : Dest, e ≠ d → queueOf s e = []) → i.tc < 8 → i.kind < 3 → i.cargo = .oper o →
    overAge s i = true → LeavesSettling (.ageSweep) s fun t => (∀ e : Dest, queueOf t e = []) ∧ t.loom.sweepAt = s.now) ∧
  (∀ (t0 : Nat) (s : State), s.loom.exhausted = false → s.loom.stuckSince = some t0 → t0 + 10000 ≤ s.now →
    Leaves (.sharedPoolExhausted) s fun t => t.loom = { s.loom with exhausted := true }) ∧
  (∀ (d : Dest) (r : StoreRead) (p : Port) (i : LoomItem) (o : WireOp) (s : State), r = .clean → d.val = p.val →
    isWeft s p = true → egressOpen s p = true → queueOf s p = [i] → i.kind = 3 → i.place = .resident → i.cargo = .oper o →
    i.own = none → i.relay = none → hasCredit s p i = true → envHops o < 6 → envTyp o < 10 →
    LeavesSettling (.egressArbitration d r) s fun t => queueOf t p = [] ∧ (weftPort t p).out = (weftPort s p).out ++ [{ tc := i.tc, slots := ceilDiv (16 + o.body.length + o.tag.length) 64, left := leBytes 16 (leavingEnv o i.mark) ++ o.body ++ o.tag }])

/-- Probes, beacons, directed messages and fabric time (R193, R194, R196, R197, R214, R217, R263). (Choices of the model behind it: log entries 9, 12, 39.) -/
def Obligations.FabricLinkMessages : Prop :=
  (∀ (p : Port) (t0 : Nat) (s : State), linkUp s p = true → Tbl.find? s.fab.probeAt p = some t0 → t0 + 1000000 ≤ s.now →
    Leaves (.linkProbeSend p) s fun t => Tbl.get t.fab.probesSent p 0 = (Tbl.get s.fab.probesSent p 0 + 1) % 2 ^ 32 ∧ Tbl.find? t.fab.probeAt p = some s.now ∧ t.fab.probes = s.fab.probes) ∧
  (∀ (p : Port) (o : WireOp) (s : State), s.fab.inbox.find? (fun r => envTyp r.2 = 12) = some (p.val, o) →
    Leaves (.linkProbeReceive) s fun t => Tbl.find? t.fab.probes p = some (probeOf s (leNat o.body)) ∧ t.fab.inbox = s.fab.inbox.erase (p.val, o)) ∧
  (∀ (s : State), s.fab.beaconSentAt + 1000000 ≤ s.now → fabricOn s = true → s.fab.role = 2 → s.module.state ≠ .fenced →
    Leaves (.beaconSend) s fun t => t.fab.beaconSentAt = s.now ∧ t.fab.term = s.fab.term ∧ t.fab.role = 2) ∧
  (∀ (p : Port) (o : WireOp) (k : List Byte) (s : State), s.fab.inbox.find? (fun r => envTyp r.2 = 14) = some (p.val, o) →
    Tbl.find? s.shu.linkKeys p = some k → beaconTagOk k o = false →
    Leaves (.beaconReceive) s fun t => t.fab = { s.fab with inbox := s.fab.inbox.erase (p.val, o) } ∧ t.ft = s.ft) ∧
  (∀ (p : Port) (o : WireOp) (k : List Byte) (s : State), s.fab.inbox.find? (fun r => envTyp r.2 = 14) = some (p.val, o) →
    Tbl.find? s.shu.linkKeys p = some k → beaconTagOk k o = true → fabricOn s = true →
    bits (leNat o.body) 96 32 = cfgv s 0x4100 2 → s.fab.role ≠ 2 →
    (s.fab.master = none ∨ s.module.state = .fenced ∧ s.fab.term < bits (leNat o.body) 160 32) →
    s.fab.term ≤ bits (leNat o.body) 160 32 →
    Leaves (.beaconReceive) s fun t => t.fab.master = some (bits (leNat o.body) 0 10) ∧ t.fab.term = bits (leNat o.body) 160 32 ∧ t.fab.role = 1 ∧ t.fab.beaconAt = some s.now) ∧
  (∀ (p : Port) (o : WireOp) (m : CtlMsg) (s : State), s.fab.inbox.find? (fun r => isDirected r.2) = some (p.val, o) →
    ctlMsgOf o.body (envSrc o / 128) p = m → m.response = false → pathIdx m < pathLen m →
    linkUp s (pathSlot (withPath m (pathIdx m) (pathIdx m - 1) p) (pathIdx m)) = true →
    Leaves (.directedMsgForward) s fun t => t = launchPort { s with fab := { s.fab with inbox := s.fab.inbox.erase (p.val, o) } } (pathSlot (withPath m (pathIdx m) (pathIdx m - 1) p) (pathIdx m)) { o with body := (withPath (withPath m (pathIdx m) (pathIdx m - 1) p) (pathIdx m + 1) 6 0).bytes }) ∧
  (∀ (p : Port) (o : WireOp) (m : CtlMsg) (s : State), s.fab.inbox.find? (fun r => isDirected r.2) = some (p.val, o) →
    ctlMsgOf o.body (envSrc o / 128) p = m → m.response = true → pathIdx m = 0 → m.status = 1 → m.data.length = 8 →
    Leaves (.directedMsgForward) s fun t => t.fab.ctl = s.fab.ctl ++ [{ m with port := p.val }] ∧ t.fab.inbox = s.fab.inbox.erase (p.val, o)) ∧
  (∀ (p : Port) (o : WireOp) (m r : CtlMsg) (s : State), s.fab.inbox.find? (fun r => isDirected r.2) = some (p.val, o) →
    ctlMsgOf o.body (envSrc o / 128) p = m → m.response = false → pathLen m ≤ pathIdx m →
    openDirected s (directedPeer s (withPath m (pathIdx m) (pathIdx m - 1) p)) (withPath m (pathIdx m) (pathIdx m - 1) p) = some r →
    Leaves (.directedMsgForward) s fun t => t.fab.ctl = s.fab.ctl ++ [{ r with port := p.val }] ∧ t.fab.inbox = s.fab.inbox.erase (p.val, o)) ∧
  (∀ (sess v : Nat) (s : State), MayAct s sess 0x2110 6 v → s.fab.role = 2 →
    Leaves (.ftSet sess v) s fun t => t.ft = v % 2 ^ 64) ∧
  (∀ (s : State), cfgOn s 0x2110 4 = true → s.fab.role = 2 → s.ft % 1000000000 * 2 < 1000000000 →
    Leaves (.ftPpsInEdge) s fun t => t.fab = { s.fab with offset := -(s.ft % 1000000000 : Nat), ppsLocked := true, steer := max (-200) (min 200 (-(s.ft % 1000000000 : Nat))) } ∧ t.ft = s.ft) ∧
  (∀ (s : State), s.fab.ppsHigh = none → cfgOn s 0x2110 5 = true → coreRuns s = true → atSecond s = true →
    Leaves (.ftPpsOutPulse) s fun t => t = { s with fab := { s.fab with ppsHigh := some s.now }, tx := s.tx ++ [.pin 1 0 true] }) ∧
  (∀ (t0 : Nat) (s : State), s.fab.ppsHigh = some t0 → t0 + 100000 ≤ s.now →
    Leaves (.ftPpsOutPulse) s fun t => t = { s with fab := { s.fab with ppsHigh := none }, tx := s.tx ++ [.pin 1 0 false] })

/-- FABRIC_CTL at a member: MID, banks, admissions, FENCED and resync (R195, R197, R199, R200, R201, R206, R210, R222, R224). (Choices of the model behind it: log entries 10, 31.) -/
def Obligations.FabricMember : Prop :=
  (∀ (m : CtlMsg) (s : State), s.fab.ctl.find? (fun m => m.code = 1 && !m.response) = some m →
    Leaves (.neighbours) s fun t => t.fab = { s.fab with ctl := s.fab.ctl.erase m } ∧ t.cfg = s.cfg) ∧
  (∀ (m : CtlMsg) (s : State), s.fab.ctl.find? (fun m => m.code = 2 && !m.response) = some m → s.fab.term ≤ m.term →
    midValid s = false → leAt m.content 0 2 < 1024 →
    Leaves (.assignMid) s fun t => cfgv t 0x4100 1 = leAt m.content 0 2 ∧ flashv t 0x4100 1 = leAt m.content 0 2 ∧ t.fab = { s.fab with ctl := s.fab.ctl.erase m }) ∧
  (∀ (m : CtlMsg) (s : State), s.fab.ctl.find? (fun m => m.code = 3 && !m.response) = some m → s.fab.term ≤ m.term →
    leAt m.content 2 2 ≤ 254 → leAt m.content 5 1 = 1 → leAt m.content 0 2 + leAt m.content 2 2 ≤ 1024 →
    16 + 16 * leAt m.content 2 2 ≤ m.content.length →
    Leaves (.routeWrite) s fun t => t.fab.standby = writeEntries (leAt m.content 2 2) (leAt m.content 0 2) (m.content.drop 16) s.fab.standby ∧ t.fab.active = s.fab.active ∧ t.fab.epoch = s.fab.epoch) ∧
  (∀ (m : CtlMsg) (s : State), s.fab.ctl.find? (fun m => m.code = 4 && !m.response) = some m → s.fab.term ≤ m.term →
    Leaves (.bankSwitch) s fun t => t.fab.switch = some (leAt m.content 0 4, leAt m.content 4 8, leAt m.content 12 2) ∧ t.fab.switchMsg = some m ∧ t.fab.active = s.fab.active ∧ t.fab.standby = s.fab.standby) ∧
  (∀ (ep tm n : Nat) (s : State), s.fab.switch = some (ep, tm, n) → tm ≤ s.ft → bankComplete s = false →
    Leaves (.bankSwitchTime) s fun t => t.fab.active = s.fab.active ∧ t.fab.epoch = s.fab.epoch ∧ t.fab.standby = s.fab.standby ∧ t.fab.switch = none) ∧
  (∀ (ep tm n : Nat) (s : State), s.fab.switch = some (ep, tm, n) → tm ≤ s.ft → bankComplete s = true →
    Leaves (.bankSwitchTime) s fun t => t.fab.active = s.fab.standby ∧ t.fab.rotate = s.fab.standbyRotate ∧ t.fab.epoch = ep ∧ t.fab.switch = none ∧ t.fab.written = [] ∧ t.fab.memberCount = n) ∧
  (∀ (s : State), fabricOn s = true → s.fab.role = 1 → s.fab.master.isSome = true →
    (s.module.state ≠ .fenced ∨ s.fab.resyncing = true) → s.fab.heartbeatAt + 1000000 ≤ s.now →
    Leaves (.fabricCtlHeartbeatSend) s fun t => t.fab.heartbeatAt = s.now ∧ t.fab.nextReq = (s.fab.nextReq + 1) % 2 ^ 32 ∧ t.fab.role = 1) ∧
  (∀ (m : CtlMsg) (s : State), s.fab.ctl.find? (fun m => m.code = 6 && !m.response) = some m → s.fab.term ≤ m.term →
    Leaves (.admitPartition) s fun t => t.fab.imported = (s.fab.imported.filter fun b => b.pgid ≠ leAt m.content 0 2) ++ [{ pgid := leAt m.content 0 2, gport := leAt m.content 2 4, cidA := leAt m.content 6 2, cidB := leAt m.content 8 2 }]) ∧
  (∀ (m : CtlMsg) (s : State), s.fab.ctl.find? (fun m => m.code = 7 && !m.response) = some m → s.fab.term ≤ m.term →
    (s.module.state = .service ∨ s.module.state = .degraded) →
    Leaves (.fenceNotice) s fun t => t.module.state = .fenced ∧ t.fab.splitCount = (s.fab.splitCount + 1) % 2 ^ 32 ∧ t.fab.claimAt = none ∧ t.fab.high = max s.fab.high (leAt m.content 0 4)) ∧
  (∀ (m : CtlMsg) (s : State), s.fab.ctl.find? (fun m => m.code = 8 && !m.response) = some m → s.module.state = .fenced →
    Leaves (.resyncBegin) s fun t => t.fab.term = m.term ∧ t.fab.master = some (leAt m.content 4 2) ∧ t.fab.role = 1 ∧ t.fab.admitted = midList (leAt m.content 6 2) (m.content.drop 16) ∧ t.fab.imported = [] ∧ t.fab.resyncing = true ∧ t.module.state = .fenced) ∧
  (∀ (m : CtlMsg) (s : State), s.fab.ctl.find? (fun m => m.code = 9 && !m.response) = some m → s.fab.term ≤ m.term →
    s.module.state = .fenced → s.fab.epoch = leAt m.content 0 4 →
    Leaves (.resyncEnd) s fun t => t.module.state ≠ .fenced ∧ t.fab.splitAt = none ∧ t.fab.mayStep = true) ∧
  (∀ (t0 : Nat) (s : State), fabricOn s = true → s.fab.settled = false → s.fab.firstActive = some t0 →
    t0 + 5000000000 ≤ s.now → Leaves (.admissionTimeout) s fun t => t.fab = { s.fab with settled := true }) ∧
  (∀ (t0 : Nat) (s : State), fabricOn s = true → s.fab.role ≠ 2 → s.fab.splitAt.isSome = true → s.fab.beaconAt = some t0 →
    t0 + 40000000 ≤ s.now → (s.module.state = .service ∨ s.module.state = .degraded) →
    Leaves (.memberFenceDeadline) s fun t => t.module.state = .fenced ∧ t.fab.splitCount = (s.fab.splitCount + 1) % 2 ^ 32)

/-- The master: discovery, members, tables, leases, splits and mastership (R199, R201, R205, R206, R213, R218, R219, R220, R221, R225). (Choices of the model behind it: log entries 10, 13, 29.) -/
def Obligations.FabricMaster : Prop :=
  (∀ (path : List Nat) (u : Nat) (n : Neighbour) (s : State), s.fab.role = 2 → fabricOn s = true →
    frontier s = [(path, u, n)] → bit n.peer 31 = false → s.fab.reqs = [] → path ≠ [] →
    Leaves (.masterDiscovery) s fun t => t.fab.reqs = [{ reqId := s.fab.nextReq, code := 1, path := path, mid := none, sentAt := s.now }] ∧ t.fab.nextReq = (s.fab.nextReq + 1) % 2 ^ 32) ∧
  (∀ (s : State), s.fab.role = 2 → s.fab.recomputeSince.isSome = true → s.fab.members = [] →
    Leaves (.tableRecompute) s fun t => t.fab.recomputeSince = none ∧ t.fab.nextAdmitted = [ownMid s] ∧ t.fab.switch = some ((s.fab.epoch + 1) % 2 ^ 32, s.ft + 2100000, 1) ∧ t.fab.active = s.fab.active) ∧
  (∀ (m : CtlMsg) (u : Nat) (x : Member) (s : State), s.fab.ctl.find? (fun m => m.code = 5 && !m.response) = some m →
    ctlSender s m = some u → s.fab.role = 2 → m.term = s.fab.term → Tbl.find? s.fab.members u = some x →
    Leaves (.fabricCtlHeartbeatReceive) s fun t => Tbl.find? t.fab.members u = some { x with heardAt := s.now, state := leAt m.content 0 1 } ∧ t.fab.ctl = s.fab.ctl.erase m) ∧
  (∀ (m : CtlMsg) (u : Nat) (s : State), s.fab.ctl.find? (fun m => m.code = 0x0A && !m.response) = some m →
    ctlSender s m = some u → s.fab.role = 2 → leAt m.content 0 1 = 1 →
    Leaves (.memberReport) s fun t => t.fab.recomputeSince.isSome = true ∧ t.fab.term = s.fab.term ∧ t.fab.ctl = s.fab.ctl.erase m) ∧
  (∀ (m : CtlMsg) (r : CtlReq) (v : Nat) (s : State), s.fab.ctl.find? (fun m => m.response) = some m →
    s.fab.reqs.find? (fun r => r.reqId = m.reqId) = some r → s.fab.role = 2 → r.code = 2 → m.status = 0 → r.mid = some v →
    Leaves (.fabricCtlResponse) s fun t => t.fab.reqs = s.fab.reqs.erase r ++ [{ reqId := s.fab.nextReq, code := 1, path := r.path, mid := some v, sentAt := s.now }] ∧ t.fab.ctl = s.fab.ctl.erase m) ∧
  (∀ (r : Nat × Member) (s : State), s.fab.role = 2 → r ∈ s.fab.members → r.2.heardAt + 20000000 ≤ s.now →
    cfgv s 0x4102 1 ≠ 0 → s.fab.witnessOk = true →
    Leaves (.heartbeatSilence) s fun t => t.fab.members = (s.fab.members.filter fun r => !((s.fab.members.filter fun q => decide (q.2.heardAt + 20000000 ≤ s.now)).map Prod.fst).contains r.1) ∧ t.fab.role = 2) ∧
  (∀ (t0 : Nat) (s : State), fabricOn s = true → s.fab.role ≠ 2 → s.fab.splitAt = none → s.fab.beaconAt = some t0 →
    t0 + 20000000 ≤ s.now → inService s = true → s.module.state ≠ .fenced → candidateOf s (ownMid s) = 0 →
    Leaves (.beaconSilence) s fun t => t.fab = { s.fab with splitAt := some s.now, locked := false }) ∧
  (∀ (t0 : Nat) (s : State), fabricOn s = true → s.fab.role ≠ 2 → s.fab.splitAt = none → s.fab.beaconAt = some t0 →
    t0 + 20000000 ≤ s.now → inService s = true → s.module.state ≠ .fenced → candidateOf s (ownMid s) ≠ 0 →
    cfgv s 0x4102 1 = 0 → seniorCandidate s = ownMid s →
    Leaves (.beaconSilence) s fun t => t.fab.role = 2 ∧ t.fab.master = some (ownMid s) ∧ t.fab.term = s.fab.term + 1) ∧
  (∀ (k ident : Nat) (s : State), leaseKind s = some (k, ident) → (s.fab.leaseAt = 0 ∨ s.fab.leaseAt + 5000000 ≤ s.now) →
    s.fab.leaseWait = none →
    Leaves (.leaseRenew) s fun t => t.fab = { s.fab with leaseAt := s.now, leaseWait := some s.now }) ∧
  (∀ (m : Msg) (s : State), s.mgmt.inbox.find? (fun m => m.typ = 0x0E) = some m → leAt m.body 4 1 = 0 →
    Leaves (.leaseResp) s fun t => t.fab = { s.fab with leaseWait := none, leaseOk := some s.now, witnessOk := true, leaseBad := false }) ∧
  (∀ (m : Msg) (s : State), s.mgmt.inbox.find? (fun m => m.typ = 0x10) = some m → leAt m.body 4 1 = 0 →
    s.fab.claimAt.isSome = true → fabricOn s = true →
    Leaves (.claimResp) s fun t => t.fab.role = 2 ∧ t.fab.master = some (ownMid s) ∧ t.fab.term = leAt m.body 5 4 ∧ t.fab.claimAt = none ∧ t.fab.witnessOk = true) ∧
  (∀ (t0 : Nat) (s : State), fabricOn s = true → s.fab.splitAt = some t0 → t0 + 20000000 ≤ s.now → cfgv s 0x4102 1 ≠ 0 →
    candidateOf s (ownMid s) ≠ 0 → s.fab.role ≠ 2 → s.fab.claimAt = none → witnessHeard s = false →
    (s.module.state = .service ∨ s.module.state = .degraded) →
    Leaves (.witnessUnreachableFence) s fun t => t.module.state = .fenced ∧ t.fab.splitCount = (s.fab.splitCount + 1) % 2 ^ 32) ∧
  (∀ (sess : Nat) (s : State), MayAct s sess 0x4106 1 1 → s.module.state = .fenced → candidateOf s (ownMid s) ≠ 0 →
    fabricOn s = true →
    Leaves (.masterForce sess 1) s fun t => t.fab.role = 2 ∧ t.fab.term = highestTerm s + 1 ∧ t.fab.master = some (ownMid s) ∧ t.module.state ≠ .fenced)

/-- The shuttle: acceptance, transmission, retransmission and acknowledgements sent (R242, R243, R244, R245, R248, R251, R252, R253). (Choices of the model behind it: log entries 21.) -/
def Obligations.ShuttleSends : Prop :=
  (∀ (op : NewOp) (l ch : Nat) (s : State), nextWaiting (fun op => !op.told && takeable s op) s.shu.waiting [] = some op →
    (connOf s op.cid).st = .active → (connOf s op.cid).twin = false → mergeTarget s op = none → op.post = none →
    op.chain = some ch → Tbl.firstFree s.shu.ledger 65536 = some l →
    LeavesSettling (.operationAccept) s fun t => (Tbl.find? t.shu.ledger l).map (fun e => (e.cid, e.seq, e.typ, e.sent, e.chain)) = some (op.cid, (connOf s op.cid).txNext, op.typ, false, ch) ∧ (connOf t op.cid).txNext = ((connOf s op.cid).txNext + 1) % 2 ^ 32 ∧ t.shu.waiting = s.shu.waiting.erase op) ∧
  (∀ (op : NewOp) (l ch : Nat) (s : State),
    nextWaiting (fun op => op.told && takeable s op && resourceFree s op) s.shu.waiting [] = some op →
    (connOf s op.cid).st = .active → (connOf s op.cid).twin = false → mergeTarget s op = none → op.post = none →
    op.chain = some ch → Tbl.firstFree s.shu.ledger 65536 = some l →
    LeavesSettling (.deferredAccept) s fun t => (Tbl.find? t.shu.ledger l).map (fun e => (e.cid, e.seq, e.typ, e.sent, e.chain)) = some (op.cid, (connOf s op.cid).txNext, op.typ, false, ch) ∧ (connOf t op.cid).txNext = ((connOf s op.cid).txNext + 1) % 2 ^ 32 ∧ t.shu.waiting = s.shu.waiting.erase op) ∧
  (∀ (c : Cid) (l : Nat) (e : LedgerEntry) (s : State), firstUnsent s c = some (l, e) →
    ((connOf s c).st = .active ∨ (connOf s c).st = .closing) → twinAllows s e = true →
    acquireAllows (connOf s c) e = true → keyAllows (connOf s c) e = true → windowAllows s c e = true → e.op.inst = none →
    LeavesSettling (.operationFirstSend c) s fun t => Tbl.find? t.shu.ledger l = some { e with stamp := stampNow s, deadline := s.now + min (4000 * 2 ^ e.timeouts) 1000000, sent := true }) ∧
  (∀ (l : Fin 65536) (e : LedgerEntry) (s : State), Tbl.find? s.shu.ledger l = some e → e.sent = true →
    e.deadline ≤ s.now → (connOf s e.cid).live = true → e.timeouts + 1 < (connOf s e.cid).retryLimit →
    LeavesSettling (.retransmitTimeout l) s fun t => Tbl.find? t.shu.ledger l = some { e with timeouts := e.timeouts + 1, stamp := stampNow s, deadline := s.now + min (4000 * 2 ^ (e.timeouts + 1)) 1000000, sent := true } ∧ (connOf t e.cid).cwnd = 65 ∧ (connOf t e.cid).decSeq = (connOf s e.cid).txNext) ∧
  (∀ (c : Cid) (k : KeySet) (u : Nat × Nat) (s : State), (connOf s c).unacked.getLast? = some u →
    (connOf s c).live = true → (connOf s c).keys = some k →
    ((connOf s c).unackedSince + 500 ≤ s.now ∨ cfgv s 0x4203 0 ≤ (connOf s c).unacked.length) →
    LeavesSettling (.ackSend c) s fun t => (connOf t c).ceCount = 0 ∧ (connOf t c).ctlTx = (connOf s c).ctlTx + 1 ∧ (connOf t c).rxE = (connOf s c).rxE ∧ t.shu.ledger = s.shu.ledger)

/-- The shuttle: acknowledgements, refusals and operations received (R246, R248, R250, R254, R260). (Choices of the model behind it: log entries 20.) -/
def Obligations.ShuttleReceives : Prop :=
  (∀ (o : WireOp) (ch : Option Nat) (src : Nat) (c : Nat) (x : Conn) (k : KeySet) (l : Nat) (e : LedgerEntry) (s : State),
    s.shu.inbox.find? (fun r => envTyp r.op = 8) = some { op := o, chain := ch, src := src } →
    controlContext s o = some c → Tbl.find? s.shu.conns c = some x → x.live = true → x.keys = some k →
    ctlTagOk k.ctlRx (leAt o.body 24 8) o = true → countFresh (leAt o.body 24 8) x.ctlHigh x.ctlSeen = true →
    Tbl.find? s.shu.ledger l = some e → e.cid = c → e.sent = true →
    seqBefore (bits (leAt o.body 0 32) 160 32) e.seq = false →
    LeavesSettling (.ackReceive) s fun t => Tbl.find? t.shu.ledger l = none ∧ t.shu.inbox = s.shu.inbox.erase { op := o, chain := ch, src := src }) ∧
  (∀ (o : WireOp) (ch : Option Nat) (src : Nat) (c : Nat) (x : Conn) (k : KeySet) (l : Nat) (e : LedgerEntry) (s : State),
    s.shu.inbox.find? (fun r => envTyp r.op = 9) = some { op := o, chain := ch, src := src } →
    controlContext s o = some c → Tbl.find? s.shu.conns c = some x → x.live = true → x.keys = some k →
    ctlTagOk k.ctlRx (leAt o.body 24 8) o = true → countFresh (leAt o.body 24 8) x.ctlHigh x.ctlSeen = true →
    ledgerAt s c (envSeq o) = some (l, e) → bits (leAt o.body 0 32) 152 8 ≠ 7 →
    LeavesSettling (.nakReceive) s fun t => Tbl.find? t.shu.ledger l = none ∧ t.shu.inbox = s.shu.inbox.erase { op := o, chain := ch, src := src }) ∧
  (∀ (o p : WireOp) (ch : Option Nat) (src : Nat) (c : Nat) (x : Conn) (k : KeySet) (s : State),
    s.shu.inbox.find? (fun r => envTyp r.op < 8 || envTyp r.op = 13) = some { op := o, chain := ch, src := src } →
    contextOf s o = some c → Tbl.find? s.shu.conns c = some x → c < 16384 → x.live = true → x.oldKeys = none →
    x.keys = some k → openArrived k.dataRx o = some p → x.window = [] → x.held = [] → envTyp o = 5 → envSeq o = x.rxE →
    x.rxE < 2 ^ 32 → x.unseen = 0 → p.body.length = 16 → (reqHead (leAt p.body 0 16)).len = 0 →
    LeavesSettling (.operationReceive) s fun t => (connOf t c).rxE = (x.rxE + 1) % 2 ^ 32 ∧ Tbl.find? (connOf t c).window x.rxE = some 1 ∧ (connOf t c).held = [] ∧ t.shu.inbox = s.shu.inbox.erase { op := o, chain := ch, src := src }) ∧
  (∀ (o : WireOp) (ch : Option Nat) (src : Nat) (s : State),
    s.shu.inbox.find? (fun r => envTyp r.op < 8 || envTyp r.op = 13) = some { op := o, chain := ch, src := src } →
    contextOf s o = none → isOwnMid s (envSrc o / 128) = false →
    LeavesSettling (.operationReceive) s fun t => t.shu.conns = s.shu.conns ∧ t.shu.ledger = s.shu.ledger ∧ t.shu.inbox = s.shu.inbox.erase { op := o, chain := ch, src := src })

/-- Connections: OPEN, CLOSE, RESET, REKEY, responses and timers (R236, R237, R238, R239, R240, R253, R261). (Choices of the model behind it: log entries 19, 22, 130.) -/
def Obligations.ConnectionExchanges : Prop :=
  (∀ (o : WireOp) (ch : Option Nat) (src : Nat) (k : List Byte) (c : Nat) (s : State),
    s.shu.inbox.find? (fun r => envTyp r.op = 10 && ctlKind r.op = 1) = some { op := o, chain := ch, src := src } →
    openedBefore s o = none → s.vault.entropyOk = true → secretFor s (envSrc o / 128) = some k →
    ctlTagOk (openKey k (envSrc o / 128) (envDst o / 128)) (reqNonce o) o = true →
    openTimely s (bits (leAt o.body 0 32) 0 48) none = true → juniorWaits s o = false → openStatus s o = 0 →
    contextForOpen s o = some c →
    LeavesSettling (.connReqOpen) s fun t => (connOf t c).st = .active ∧ (connOf t c).peerMid = envSrc o / 128 ∧ (connOf t c).peerCid = envCid o ∧ (connOf t c).txNext = 0 ∧ (connOf t c).rxE = 0 ∧ (connOf t c).keyEpoch = 0 ∧ (connOf t c).twin = bit (leAt o.body 0 32) 60) ∧
  (∀ (o : WireOp) (ch : Option Nat) (src : Nat) (c : Nat) (x : Conn) (k : KeySet) (s : State),
    s.shu.inbox.find? (fun r => envTyp r.op = 10 && ctlKind r.op = 2) = some { op := o, chain := ch, src := src } →
    contextOf s o = some c → Tbl.find? s.shu.conns c = some x → x.live = true → x.keys = some k →
    ctlTagOk k.ctlRx (leAt o.body 24 8) o = true → countFresh (leAt o.body 24 8) x.ctlHigh x.ctlSeen = true →
    ledgerOf s c ≠ [] →
    LeavesSettling (.connReqClose) s fun t => (connOf t c).st = .closing ∧ (connOf t c).closeAnswered = true ∧ t.shu.ledger = s.shu.ledger) ∧
  (∀ (o : WireOp) (ch : Option Nat) (src : Nat) (c : Nat) (x : Conn) (k : KeySet) (z : List Byte) (s : State),
    s.shu.inbox.find? (fun r => envTyp r.op = 10 && ctlKind r.op = 3) = some { op := o, chain := ch, src := src } →
    contextOf s o = some c → Tbl.find? s.shu.conns c = some x → x.live = true → x.keys = some k →
    ctlTagOk k.ctlRx (leAt o.body 24 8) o = true → countFresh (leAt o.body 24 8) x.ctlHigh x.ctlSeen = true →
    x.answered = none → x.exch = none → secretFor s x.peerMid = some z → s.vault.entropyOk = true →
    LeavesSettling (.connReqReset) s fun t => (connOf t c).keyEpoch = reqEpoch o ∧ (connOf t c).rxE = reqFirst o ∧ (connOf t c).st = (if x.st = .stalled then .active else x.st) ∧ (connOf t c).firstTx = x.txNext ∧ (connOf t c).window = [] ∧ (connOf t c).txNext = x.txNext) ∧
  (∀ (o : WireOp) (ch : Option Nat) (src : Nat) (c : Nat) (x : Conn) (k : KeySet) (z : List Byte) (s : State),
    s.shu.inbox.find? (fun r => envTyp r.op = 10 && ctlKind r.op = 4) = some { op := o, chain := ch, src := src } →
    contextOf s o = some c → Tbl.find? s.shu.conns c = some x → x.live = true → x.keys = some k →
    ctlTagOk k.ctlRx (leAt o.body 24 8) o = true → countFresh (leAt o.body 24 8) x.ctlHigh x.ctlSeen = true →
    x.answered = none → x.exch = none → secretFor s x.peerMid = some z → s.vault.entropyOk = true →
    LeavesSettling (.connReqRekey) s fun t => (connOf t c).keyEpoch = reqEpoch o ∧ (connOf t c).rxE = x.rxE ∧ (connOf t c).st = x.st ∧ (connOf t c).firstTx = x.txNext ∧ (connOf t c).firstRx = reqFirst o ∧ (connOf t c).txNext = x.txNext) ∧
  (∀ (o : WireOp) (ch : Option Nat) (src : Nat) (c : Nat) (x : Conn) (k : KeySet) (e : Exchange) (s : State),
    s.shu.inbox.find? (fun r => envTyp r.op = 11) = some { op := o, chain := ch, src := src } →
    controlContext s o = some c → Tbl.find? s.shu.conns c = some x → x.live = true → x.keys = some k →
    ctlTagOk k.ctlRx (leAt o.body 24 8) o = true → countFresh (leAt o.body 24 8) x.ctlHigh x.ctlSeen = true →
    x.exch = some e → e.kind = 2 → ctlKind o = 2 → respStatus o = 0 → ledgerOf s c ≠ [] →
    LeavesSettling (.connResp) s fun t => (connOf t c).exch = none ∧ (connOf t c).st = x.st ∧ t.shu.ledger = s.shu.ledger) ∧
  (∀ (c : Cid) (e : Exchange) (s : State), (connOf s c).exch = some e → e.sentAt + 50000 ≤ s.now →
    (e.kind = 2 ∨ s.now < e.since + 2000000) →
    LeavesSettling (.connReqResend c) s fun t => (connOf t c).exch = some { e with sentAt := s.now } ∧ (connOf t c).st = (connOf s c).st) ∧
  (∀ (c : Cid) (e : Exchange) (s : State), (connOf s c).exch = some e → (connOf s c).st = .opening → e.kind = 1 →
    e.since + 2000000 ≤ s.now → LeavesSettling (.connOpenTimeout c) s fun t => Tbl.find? t.shu.conns c = none) ∧
  (∀ (c : Cid) (e : Exchange) (s : State), (connOf s c).exch = some e → (e.kind = 3 ∨ e.kind = 4) →
    e.since + 2000000 ≤ s.now → (connOf s c).live = true → (connOf s c).ownerKind ≠ 2 → (connOf s c).ownerCloses = false →
    LeavesSettling (.connExchangeTimeout c) s fun t => (connOf t c).st = .failed ∧ (connOf t c).failReason = 4 ∧ (connOf t c).exch = none ∧ (∀ r ∈ t.shu.ledger, r.2.cid ≠ c.val)) ∧
  (∀ (c : Cid) (t0 : Nat) (s : State), (connOf s c).st = .closing → (connOf s c).closingAt = some t0 →
    t0 + 10000000 ≤ s.now → LeavesSettling (.connCloseTimeout c) s fun t => Tbl.find? t.shu.conns c = none) ∧
  (∀ (c : Cid) (s : State), (connOf s c).st = .stalled → (connOf s c).autoResume = true → (connOf s c).exch = none →
    s.vault.entropyOk = true → (connOf s c).stalledAt + cfgv s 0x4204 0 ≤ s.now →
    LeavesSettling (.autoResumeTimer c) s fun t => (connOf t c).exch = some { kind := 3, epoch := ((connOf s c).keyEpoch + 1) % 65536, nonce := (Config.entropy s.drawn).toNat % 2 ^ 64, firstSeq := (connOf s c).txNext, since := s.now, sentAt := s.now, auto := true } ∧ (connOf t c).st = .stalled) ∧
  (∀ (sess c : Nat) (x : Conn) (s : State), MayAct s sess 0x4212 0 1 → Tbl.find? s.shu.conns c = some x → x.st = .active →
    x.exch = none → s.vault.entropyOk = true →
    LeavesSettling (.rekeyAll sess 1) s fun t => (connOf t c).exch.map (fun e => (e.kind, e.epoch, e.firstSeq)) = some (4, (x.keyEpoch + 1) % 65536, x.txNext))

/-- Windows: opening, revoking, freeing and reading (R267, R269, R270, R271, R304, R306). (Choices of the model behind it: log entries 41.) -/
def Obligations.WindowTable : Prop :=
  (∀ (c : AdmCmd) (s : State),
    (admHeads s).find? (fun c => c.op = 1 && !admFull (admOf s c.vs) && !(admOf s c.vs).disabling) = some c →
    admBusy (admDrop s c) c = false → c.target < 65536 →
    openRefusal s c.vs c.target (Window.image (leAt c.data 0 32)) = 0 →
    Leaves (.windowOpen) s fun t => (winOf t c.target).st = .open_ ∧ (winOf t c.target).owner = c.vs ∧ (winOf t c.target).gen = (if (winOf s c.target).gen = 65535 then 1 else (winOf s c.target).gen + 1) ∧ (winOf t c.target).base = bits (leAt c.data 0 32) 64 64 ∧ (winOf t c.target).sizeLog2 = bits (leAt c.data 0 32) 244 6 ∧ (winOf t c.target).cache = [] ∧ (∀ w, w ≠ c.target → winOf t w = winOf s w)) ∧
  (∀ (c : AdmCmd) (s : State),
    (admHeads s).find? (fun c => c.op = 1 && !admFull (admOf s c.vs) && !(admOf s c.vs).disabling) = some c →
    admBusy (admDrop s c) c = false → c.target < 65536 →
    openRefusal s c.vs c.target (Window.image (leAt c.data 0 32)) ≠ 0 → Leaves (.windowOpen) s fun t => t.win = s.win) ∧
  (∀ (c : AdmCmd) (s : State),
    (admHeads s).find? (fun c => c.op = 2 && !admFull (admOf s c.vs) && !(admOf s c.vs).disabling) = some c →
    admBusy (admDrop s c) c = false → c.target < 65536 → (winOf s c.target).st = .open_ → (winOf s c.target).owner = c.vs →
    Leaves (.windowRevoke) s fun t => winOf t c.target = { winOf s c.target with st := .revoking, revokeAt := s.now } ∧ (∀ w, w ≠ c.target → winOf t w = winOf s w)) ∧
  (∀ (w : Fin 65536) (s : State), (winOf s w).st = .revoking → (winOf s w).admitted = 0 →
    Leaves (.windowRevokeComplete w) s fun t => (winOf t w).st = .revoked ∧ (winOf t w).gen = (winOf s w).gen ∧ (winOf t w).quarUntil = (if (winOf s w).gen = 65535 then (s.ft + cfgv s 0x4010 0 + 10000000) / 1000 % 2 ^ 44 else 0)) ∧
  (∀ (c : AdmCmd) (s : State),
    (admHeads s).find? (fun c => c.op = 3 && !admFull (admOf s c.vs) && !(admOf s c.vs).disabling) = some c →
    admBusy (admDrop s c) c = false → c.target < 65536 → (winOf s c.target).st = .revoked →
    (winOf s c.target).owner = c.vs →
    Leaves (.windowFree) s fun t => winOf t c.target = { gen := (winOf s c.target).gen, quarUntil := (winOf s c.target).quarUntil }) ∧
  (∀ (c : AdmCmd) (s : State),
    (admHeads s).find? (fun c => c.op = 4 && !admFull (admOf s c.vs) && !(admOf s c.vs).disabling) = some c →
    admBusy (admDrop s c) c = false → windowStatus s c = 0 →
    Leaves (.windowRead) s fun t => t = admSettled (admFinish (hostPost (admDrop s c) c.vs c.arg (leBytes 32 (winOf s c.target).word)) c 0 0 0))

/-- Imports: writing, invalidating, reading and their generation (R277, R304, R306, R317). (Choices of the model behind it: log entries 41.) -/
def Obligations.ImportTable : Prop :=
  (∀ (c : AdmCmd) (s : State),
    (admHeads s).find? (fun c => c.op = 8 && !admFull (admOf s c.vs) && !(admOf s c.vs).disabling) = some c →
    admBusy (admDrop s c) c = false → importStatus s c = 0 →
    ownsInst s c.vs (Import.image (leAt c.data 0 32)).func = true →
    ownsConn s c.vs (Import.image (leAt c.data 0 32)).cid = true → 12 ≤ (Import.image (leAt c.data 0 32)).sizeLog2 →
    (Import.image (leAt c.data 0 32)).sizeLog2 ≤ 41 →
    (Import.image (leAt c.data 0 32)).base % 2 ^ (Import.image (leAt c.data 0 32)).sizeLog2 = 0 →
    (Import.image (leAt c.data 0 32)).winBase % 2 ^ (Import.image (leAt c.data 0 32)).sizeLog2 = 0 →
    shareAllows s (Import.image (leAt c.data 0 32)).func 3 = true →
    Leaves (.importWrite) s fun t => Tbl.find? t.win.imports c.target = some (Import.image (leAt c.data 0 32)) ∧ t.win.windows = s.win.windows) ∧
  (∀ (c : AdmCmd) (x : Import) (s : State),
    (admHeads s).find? (fun c => c.op = 9 && !admFull (admOf s c.vs) && !(admOf s c.vs).disabling) = some c →
    admBusy (admDrop s c) c = false → importStatus s c = 0 → Tbl.find? s.win.imports c.target = some x →
    Leaves (.importInvalidate) s fun t => Tbl.find? t.win.imports c.target = none ∧ t.win.windows = s.win.windows) ∧
  (∀ (c : AdmCmd) (x : Import) (s : State),
    (admHeads s).find? (fun c => c.op = 0x0A && !admFull (admOf s c.vs) && !(admOf s c.vs).disabling) = some c →
    admBusy (admDrop s c) c = false → importStatus s c = 0 → Tbl.find? s.win.imports c.target = some x →
    Leaves (.importRead) s fun t => t = admSettled (admFinish (hostPost (admDrop s c) c.vs c.arg (leBytes 32 x.word)) c 0 0 0)) ∧
  (∀ (c : AdmCmd) (x : Import) (s : State),
    (admHeads s).find? (fun c => c.op = 0x0B && !admFull (admOf s c.vs) && !(admOf s c.vs).disabling) = some c →
    admBusy (admDrop s c) c = false → importStatus s c = 0 → Tbl.find? s.win.imports c.target = some x →
    Leaves (.importSetGen) s fun t => Tbl.find? t.win.imports c.target = some { x with gen := c.arg % 65536 })

/-- Apertures: stores, loads, forwarding, held loads, visibility and fences (R278, R279, R283, R284, R285, R286, R289, R290, R314). (Choices of the model behind it: log entries 45.) -/
def Obligations.AperturesAndOrder : Prop :=
  (∀ (i : Inst) (q : Tlp) (f : InstState) (n : Nat) (x : Import) (s : State), instOf s i.val = some f →
    inService s = true → f.flr = none → f.ending = false → vsState s f.vs = 2 → (partOf s f.vs).resetSince = none →
    q.ep = false → importFor s i.val q.addr = some (n, x) → importPermits x q = true → (connOf s x.cid).st = .active →
    q.kind = .memRead → x.device = false →
    coverage (postingsOf s x.cid x.window) (x.winBase + (q.addr - x.base)) q.len = 0 →
    LeavesSettling (.apertureAccess i q) s fun t => t.shu.waiting.map (fun o => (o.cid, o.typ, o.gen, o.head)) = s.shu.waiting.map (fun o => (o.cid, o.typ, o.gen, o.head)) ++ [(x.cid, 1, x.gen, reqWord { rid := q.rid, vs := f.vs, kind := 0, tag := 0, len := q.len, lastBe := q.lastBe, firstBe := q.firstBe, atom := 0, ns := q.ns, window := x.window, offset := x.winBase + (q.addr - x.base) })]) ∧
  (∀ (i : Inst) (q : Tlp) (f : InstState) (n : Nat) (x : Import) (s : State), instOf s i.val = some f →
    inService s = true → f.flr = none → f.ending = false → vsState s f.vs = 2 → (partOf s f.vs).resetSince = none →
    q.ep = false → importFor s i.val q.addr = some (n, x) → importPermits x q = true → (connOf s x.cid).st = .active →
    q.kind = .memWrite → q.data.length ≤ 4080 →
    LeavesSettling (.apertureAccess i q) s fun t => t.shu.waiting.map (fun o => (o.cid, o.typ, o.gen, o.rel, o.data, o.post)) = s.shu.waiting.map (fun o => (o.cid, o.typ, o.gen, o.rel, o.data, o.post)) ++ [(x.cid, 0, x.gen, x.relStores, q.data, some n)]) ∧
  (∀ (i : Inst) (q : Tlp) (f : InstState) (n : Nat) (x : Import) (s : State), instOf s i.val = some f →
    inService s = true → f.flr = none → f.ending = false → vsState s f.vs = 2 → (partOf s f.vs).resetSince = none →
    q.ep = false → importFor s i.val q.addr = some (n, x) → importPermits x q = true → (connOf s x.cid).st = .active →
    q.kind = .memRead → x.device = false → x.fwd = true →
    coverage (postingsOf s x.cid x.window) (x.winBase + (q.addr - x.base)) q.len = 1 →
    LeavesSettling (.apertureAccess i q) s fun t => t.win.heldLoads.map (fun l => (l.imp, l.offset, l.tlp, l.inst)) = s.win.heldLoads.map (fun l => (l.imp, l.offset, l.tlp, l.inst)) ++ [(n, x.winBase + (q.addr - x.base), q, i.val)] ∧ t.shu.waiting = s.shu.waiting) ∧
  (∀ (i : Inst) (q : Tlp) (f : InstState) (s : State), instOf s i.val = some f → inService s = true → q.ep = false →
    importFor s i.val q.addr = none →
    LeavesSettling (.apertureAccess i q) s fun t => (∀ o ∈ t.shu.waiting, o ∈ s.shu.waiting ∨ o.typ = 6) ∧ t.win.heldLoads = s.win.heldLoads) ∧
  (∀ (l : HeldLoad) (x : Import) (s : State),
    s.win.heldLoads.find? (fun l => match Tbl.find? s.win.imports l.imp with | some x => decide (coverage (postingsOf s x.cid x.window) l.offset l.tlp.len = 0) | none => true) = some l →
    Tbl.find? s.win.imports l.imp = some x → l.tlp.kind = .memRead →
    LeavesSettling (.heldLoadSend) s fun t => t.win.heldLoads = s.win.heldLoads.erase l ∧ t.shu.waiting.map (fun o => (o.cid, o.typ)) = s.shu.waiting.map (fun o => (o.cid, o.typ)) ++ [(x.cid, 1)]) ∧
  (∀ (u : Unseen) (w : Nat) (x : Window) (s : State), s.win.unseen.find? (fun u => u.left) = some u → u.waiter = none →
    u.window = some w → Tbl.find? s.win.windows w = some x → (connOf s u.cid).held = [] →
    LeavesSettling (.visibilityPoint) s fun t => t.win.unseen = s.win.unseen.filter (fun y => y ≠ u) ∧ (winOf t w).admitted = x.admitted - 1) ∧
  (∀ (i : Inst) (slot : Fin 1024) (rid tag : Nat) (f : InstState) (c : Nat) (s : State), instOf s i.val = some f →
    inService s = true → Tbl.find? f.fences slot.val = some c →
    LeavesSettling (.fenceSlotRead i slot rid tag) s fun t => t.shu.waiting.map (fun o => (o.cid, o.typ, o.acq, o.rel)) = s.shu.waiting.map (fun o => (o.cid, o.typ, o.acq, o.rel)) ++ [(c, 5, true, true)]) ∧
  (∀ (sess : Nat) (v : Vs) (s : State), MayAct s sess 0x4311 (v + 1) 1 →
    Leaves (.postfailClear sess v 1) s fun t => Tbl.find? t.win.fails v.val = none ∧ t.win.failCount = s.win.failCount)

/-- Admin commands on connections and the ledger (R229, R237, R239, R244, R304, R305, R306, R494). (Choices of the model behind it: log entries 41, 130.) -/
def Obligations.ConnectionCommands : Prop :=
  (∀ (c : AdmCmd) (k : Nat) (z : List Byte) (s : State),
    (admHeads s).find? (fun c => c.op = 0x10 && !admFull (admOf s c.vs) && !(admOf s c.vs).disabling) = some c →
    admBusy (admDrop s c) c = false → c.target < 2048 → ownsInst s c.vs c.target = true → leAt c.data 0 2 < 1024 →
    leAt c.data 2 1 < 8 → leAt c.data 3 1 < 2 → leAt c.data 4 1 < 2 → 1 ≤ leAt c.data 5 1 → leAt c.data 5 1 < 16 →
    shareAllows s c.target 4 = true → freeContext s = some k → secretFor s (leAt c.data 0 2) = some z →
    s.vault.entropyOk = true →
    Leaves (.connOpen) s fun t => (connOf t k).st = .opening ∧ (connOf t k).peerMid = leAt c.data 0 2 ∧ (connOf t k).tc = leAt c.data 2 1 ∧ (connOf t k).twin = decide (leAt c.data 3 1 = 1) ∧ (connOf t k).autoResume = decide (leAt c.data 4 1 = 1) ∧ (connOf t k).retryLimit = leAt c.data 5 1 ∧ (connOf t k).ownerKind = 0 ∧ (connOf t k).ownerId = c.target ∧ (connOf t k).exch.map (fun e => (e.kind, e.openTime, e.since)) = some (1, s.ft % 2 ^ 48, s.now)) ∧
  (∀ (c : AdmCmd) (s : State),
    (admHeads s).find? (fun c => c.op = 0x11 && !admFull (admOf s c.vs) && !(admOf s c.vs).disabling) = some c →
    admBusy (admDrop s c) c = false → connStatus s c = 0 → leAt c.data 0 1 < 2 → 1 ≤ leAt c.data 1 1 →
    leAt c.data 1 1 < 16 →
    Leaves (.connModify) s fun t => connOf t c.target = { connOf s c.target with autoResume := decide (leAt c.data 0 1 = 1), retryLimit := leAt c.data 1 1 }) ∧
  (∀ (c : AdmCmd) (s : State),
    (admHeads s).find? (fun c => c.op = 0x12 && !admFull (admOf s c.vs) && !(admOf s c.vs).disabling) = some c →
    admBusy (admDrop s c) c = false → connStatus s c = 0 →
    ((connOf s c.target).st = .active ∨ (connOf s c.target).st = .stalled) → (connOf s c.target).exch = none →
    s.vault.entropyOk = true →
    Leaves (.connReset) s fun t => (connOf t c.target).exch.map (fun e => (e.kind, e.epoch, e.firstSeq, e.since)) = some (3, ((connOf s c.target).keyEpoch + 1) % 65536, (connOf s c.target).txNext, s.now) ∧ (connOf t c.target).st = (connOf s c.target).st) ∧
  (∀ (c : AdmCmd) (s : State),
    (admHeads s).find? (fun c => c.op = 0x13 && !admFull (admOf s c.vs) && !(admOf s c.vs).disabling) = some c →
    admBusy (admDrop s c) c = false → connStatus s c = 0 →
    Leaves (.connRead) s fun t => t = admSettled (admFinish (hostPost (admDrop s c) c.vs c.arg (contextBytes (admDrop s c) c.target)) c 0 0 0)) ∧
  (∀ (c : AdmCmd) (s : State),
    (admHeads s).find? (fun c => c.op = 0x14 && !admFull (admOf s c.vs) && !(admOf s c.vs).disabling) = some c →
    admBusy (admDrop s c) c = false → connStatus s c = 0 →
    ((connOf s c.target).st = .active ∨ (connOf s c.target).st = .stalled) →
    Leaves (.connClose) s fun t => (connOf t c.target).st = .closing ∧ (connOf t c.target).ownerCloses = true ∧ (connOf t c.target).closingAt = some s.now ∧ (connOf t c.target).exch.map (fun e => e.kind) = some 2) ∧
  (∀ (c : AdmCmd) (w : Nat) (s : State),
    (admHeads s).find? (fun c => c.op = 0x15 && !admFull (admOf s c.vs) && !(admOf s c.vs).disabling) = some c →
    admBusy (admDrop s c) c = false → s.mgmt.sessions.any (fun x => x.source = 128 + c.vs && x.role = 2) = true →
    c.target < 65536 → w = (match Tbl.find? s.shu.ledger c.target with | some e => ledgerWord s c.target e | none => 0) →
    Leaves (.ledgerRead) s fun t => t = admSettled (admFinish (hostPost (admDrop s c) c.vs c.arg (leBytes 16 w)) c 0 0 0)) ∧
  (∀ (c : AdmCmd) (s : State),
    (admHeads s).find? (fun c => c.op = 0x15 && !admFull (admOf s c.vs) && !(admOf s c.vs).disabling) = some c →
    admBusy (admDrop s c) c = false → s.mgmt.sessions.any (fun x => x.source = 128 + c.vs && x.role = 2) = false →
    Leaves (.ledgerRead) s fun t => t = admSettled (admFinish (admDrop s c) c 5 0 0))

/-- Admin commands on instances: fences, queues, shares and translations (R304, R308, R312, R314, R315, R316, R317). (Choices of the model behind it: log entries 40.) -/
def Obligations.InstanceCommands : Prop :=
  (∀ (c : AdmCmd) (x : InstState) (s : State),
    (admHeads s).find? (fun c => c.op = 0x18 && !admFull (admOf s c.vs) && !(admOf s c.vs).disabling) = some c →
    admBusy (admDrop s c) c = false → instStatus s c = 0 → instOf s c.target = some x → bit c.arg 31 = true →
    ownsConn s c.vs (bits c.arg 10 14) = true →
    Leaves (.fenceBind) s fun t => instOf t c.target = some { x with fences := Tbl.set x.fences (bits c.arg 0 10) (bits c.arg 10 14) }) ∧
  (∀ (c : AdmCmd) (x : InstState) (s : State),
    (admHeads s).find? (fun c => c.op = 0x18 && !admFull (admOf s c.vs) && !(admOf s c.vs).disabling) = some c →
    admBusy (admDrop s c) c = false → instStatus s c = 0 → instOf s c.target = some x → bit c.arg 31 = false →
    Leaves (.fenceBind) s fun t => instOf t c.target = some { x with fences := Tbl.erase x.fences (bits c.arg 0 10) }) ∧
  (∀ (c : AdmCmd) (x : InstState) (s : State),
    (admHeads s).find? (fun c => c.op = 0x20 && !admFull (admOf s c.vs) && !(admOf s c.vs).disabling) = some c →
    admBusy (admDrop s c) c = false → instStatus s c = 0 → instOf s c.target = some x → 6 ≤ leAt c.data 16 1 →
    leAt c.data 16 1 ≤ leAt c.data 17 1 → leAt c.data 17 1 ≤ 16 → leAt c.data 18 1 < 16 → leAt c.data 19 1 < 16 →
    Tbl.find? x.queues (leAt c.data 18 1) = none → x.flr = none → shareAllows s c.target 1 = true →
    Leaves (.queueCreate) s fun t => (queueOfInst t c.target (leAt c.data 18 1)).map Prod.snd = some { sqBase := leAt c.data 0 8, cqBase := leAt c.data 8 8, sqLog := leAt c.data 16 1, cqLog := leAt c.data 17 1, vector := leAt c.data 19 1 } ∧ (∀ y, instOf t c.target = some y → bit y.errors (leAt c.data 18 1) = false)) ∧
  (∀ (c : AdmCmd) (x : InstState) (k : Queue) (s : State),
    (admHeads s).find? (fun c => c.op = 0x21 && !admFull (admOf s c.vs) && !(admOf s c.vs).disabling) = some c →
    admBusy (admDrop s c) c = false → instStatus s c = 0 → instOf s c.target = some x →
    Tbl.find? x.queues (c.arg % 16) = some k →
    Leaves (.queueDelete) s fun t => (queueOfInst t c.target (c.arg % 16)).map Prod.snd = (if k.work = [] ∧ k.head = k.tail then none else some { k with deleting := true })) ∧
  (∀ (c : AdmCmd) (x : InstState) (s : State),
    (admHeads s).find? (fun c => c.op = 0x22 && !admFull (admOf s c.vs) && !(admOf s c.vs).disabling) = some c →
    admBusy (admDrop s c) c = false → instStatus s c = 0 → instOf s c.target = some x →
    (shareCounts c).any (fun r => r.1 = 1 && 16 < r.2) = false → (shareCounts c).any (shareOver s c.vs) = false →
    Leaves (.shareSet) s fun t => instOf t c.target = some { x with shares := (shareCounts c).foldl (fun t r => Tbl.set t r.1 r.2) x.shares }) ∧
  (∀ (c : AdmCmd) (x : InstState) (s : State),
    (admHeads s).find? (fun c => c.op = 0x28 && !admFull (admOf s c.vs) && !(admOf s c.vs).disabling) = some c →
    admBusy (admDrop s c) c = false → instStatus s c = 0 → instOf s c.target = some x →
    pageSize (leAt c.data 16 1) = true → leAt c.data 0 8 % 2 ^ leAt c.data 16 1 = 0 →
    leAt c.data 8 8 % 2 ^ leAt c.data 16 1 = 0 →
    x.maps.any (fun k => k.iova = leAt c.data 0 8 && k.size = leAt c.data 16 1) = false → shareAllows s c.target 6 = true →
    Leaves (.tuMap) s fun t => instOf t c.target = some { x with maps := x.maps ++ [{ iova := leAt c.data 0 8, host := leAt c.data 8 8, size := leAt c.data 16 1, read := bit (leAt c.data 17 1) 0, write := bit (leAt c.data 17 1) 1 }] }) ∧
  (∀ (c : AdmCmd) (x : InstState) (s : State),
    (admHeads s).find? (fun c => c.op = 0x29 && !admFull (admOf s c.vs) && !(admOf s c.vs).disabling) = some c →
    admBusy (admDrop s c) c = false → instStatus s c = 0 → instOf s c.target = some x → pageSize (leAt c.data 8 1) = true →
    x.maps.any (fun k => k.iova = leAt c.data 0 8 && k.size = leAt c.data 8 1) = true →
    Leaves (.tuUnmap) s fun t => instOf t c.target = some { x with maps := x.maps.filter fun k => !(k.iova = leAt c.data 0 8 && k.size = leAt c.data 8 1) }) ∧
  (∀ (s : State),
    Leaves (.tuUnmapComplete) s fun t => (∀ w ∈ t.eng.waits, w.cmd.op = 0x29 → mapInUse s w.cmd.target (leAt w.cmd.data 0 8) (leAt w.cmd.data 8 1) = true) ∧ (∀ w ∈ s.eng.waits, w.cmd.op ≠ 0x29 → w ∈ t.eng.waits)) ∧
  (∀ (c : AdmCmd) (x : InstState) (s : State),
    (admHeads s).find? (fun c => c.op = 0x2A && !admFull (admOf s c.vs) && !(admOf s c.vs).disabling) = some c →
    admBusy (admDrop s c) c = false → instStatus s c = 0 → instOf s c.target = some x → x.queues = [] →
    Leaves (.tuMode) s fun t => instOf t c.target = some { x with mapped := bit c.arg 0 })

/-- The admin rings, virtual functions and function-level resets (R299, R301, R302, R303, R306, R318, R319). (Choices of the model behind it: log entries 40, 44.) -/
def Obligations.FunctionsAndRings : Prop :=
  (∀ (v : Vs) (value : Nat) (s : State), bit value 0 = true → (admOf s v.val).enabled = false →
    (admOf s v.val).base % 64 = 0 → (admOf s v.val).cqBase % 16 = 0 → 4 ≤ bits (admOf s v.val).size 0 4 →
    bits (admOf s v.val).size 0 4 ≤ 12 → 4 ≤ bits (admOf s v.val).size 8 4 → bits (admOf s v.val).size 8 4 ≤ 12 →
    Leaves (.admqCtrl v value) s fun t => (admOf t v.val).enabled = true ∧ (admOf t v.val).head = 0 ∧ (admOf t v.val).tail = 0 ∧ (admOf t v.val).cqTail = 0 ∧ (admOf t v.val).cqHead = 0 ∧ (admOf t v.val).base = (admOf s v.val).base) ∧
  (∀ (v : Vs) (value : Nat) (s : State), bit value 0 = false → (admOf s v.val).enabled = true →
    s.eng.waits.any (fun w => w.cmd.vs = v.val) = false →
    Leaves (.admqCtrl v value) s fun t => (admOf t v.val).enabled = false ∧ (∀ c ∈ t.eng.cmds, c.vs ≠ v.val)) ∧
  (∀ (v : Vs) (tail : Nat) (s : State), (admOf s v.val).enabled = true → (admOf s v.val).disabling = false →
    (admOf s v.val).stopped = false →
    Leaves (.admqTailDoorbell v tail) s fun t => (admOf t v.val).head = tail % admEntries (admOf s v.val) ∧ (admOf t v.val).tail = tail % admEntries (admOf s v.val)) ∧
  (∀ (v : Vs) (tail : Nat) (s : State), (admOf s v.val).enabled = true → (admOf s v.val).disabling = false →
    (admOf s v.val).stopped = false →
    tail % admEntries (admOf s v.val) = ((admOf s v.val).head + 1) % admEntries (admOf s v.val) →
    (admOf s v.val).head < admEntries (admOf s v.val) → 1 < admEntries (admOf s v.val) →
    hostDenial s v.val 0 ((admOf s v.val).base + 64 * (admOf s v.val).head) 64 = none →
    admOpcodes.contains (leAt (hostRead s v.val ((admOf s v.val).base + 64 * (admOf s v.val).head) 64) 0 1) = true →
    Leaves (.admqTailDoorbell v tail) s fun t => admCommand v.val (tail % admEntries (admOf s v.val)) (hostRead s v.val ((admOf s v.val).base + 64 * (admOf s v.val).head) 64) ∈ t.eng.cmds) ∧
  (∀ (v : Vs) (value : Nat) (s : State),
    Leaves (.admcqHead v value) s fun t => (admOf t v.val).cqHead = value % admcqEntries (admOf s v.val)) ∧
  (∀ (v : Vs) (n : Nat) (s : State), (admOf s v.val).vfs = 0 → n ≠ 0 → coreRuns s = true → n ≤ cfgv s 0x4401 (v + 1) →
    busConflict s v = false →
    Leaves (.vfEnable v n) s fun t => (admOf t v.val).vfs = n ∧ (∀ r ∈ (freeInsts s n).zip (List.range n), instOf t r.1 = some { vs := v, vf := r.2, bucketAt := s.now })) ∧
  (∀ (v : Vs) (s : State), (admOf s v.val).vfs ≠ 0 →
    Leaves (.vfDisable v) s fun t => (admOf t v.val).vfs = 0 ∧ (∀ (i : Nat) (x : InstState), instOf s i = some x → x.vs = v.val → (instOf t i).map (fun y => (y.flr, y.ending, y.vs)) = some (some s.now, true, v.val) ∧ (instOf t i).map (fun y => (y.queues, y.maps, y.fences)) = some ([], [], []))) ∧
  (∀ (i : Inst) (x : InstState) (s : State), instOf s i.val = some x →
    Leaves (.vfFlr i) s fun t => (instOf t i.val).map (fun y => (y.flr, y.ending, y.vs)) = some (some s.now, x.ending, x.vs) ∧ (instOf t i.val).map (fun y => (y.vf, y.mapped, y.errors)) = some (x.vf, false, 0) ∧ (instOf t i.val).map (fun y => (y.queues, y.maps, y.fences)) = some ([], [], []) ∧ t.win.imports = s.win.imports ∧ t.shu.conns = s.shu.conns) ∧
  (∀ (i : Inst) (x : InstState) (t0 : Nat) (s : State), instOf s i.val = some x → x.flr = some t0 →
    s.eng.reads.any (fun r => r.ticket.inst = i.val) = false →
    Leaves (.vfFlrComplete i) s fun t => instOf t i.val = (if x.ending then none else some { x with flr := none })) ∧
  (∀ (v : Vs) (s : State),
    Leaves (.pfFlr v) s fun t => admOf t v.val = {} ∧ (∀ c ∈ t.eng.cmds, c.vs ≠ v.val) ∧ bit t.eng.fnBme v.val = false ∧ (∀ w : Nat, (winOf s w).st = .open_ → (winOf s w).owner = v.val → (winOf t w).st = .revoking)) ∧
  (∀ (i : Inst) (value : Nat) (x : InstState) (s : State), instOf s i.val = some x → value % 2 = 1 → x.msgState ≠ 1 →
    Leaves (.vfMsgRing i value) s fun t => instOf t i.val = some { x with msgState := 1 } ∧ Tbl.find? t.eng.mirror (vfKey x.vs x.vf) = some x.request ∧ vfKey x.vs x.vf ∈ t.eng.ringing) ∧
  (∀ (v : Vs) (vf : Fin 256) (reply : List Byte) (i : Nat) (x : InstState) (s : State), instOfVf s v vf = some i →
    instOf s i = some x → ((fitBytes 64 reply).getLast?).getD 0 ≠ 0 →
    Leaves (.vfReplyWrite v vf reply) s fun t => instOf t i = some { x with reply := fitBytes 64 reply, msgState := 2 } ∧ Tbl.find? t.eng.replies (vfKey v vf) = some (fitBytes 64 reply))

/-- Descriptor queues: fetching, presenting, completing and stopping (R300, R308, R309, R310, R311, R312, R315). (Choices of the model behind it: log entries 42, 43.) -/
def Obligations.Descriptors : Prop :=
  (∀ (i : Inst) (q : Fin 16) (x : InstState) (k : Queue) (h : Nat) (w : Nat) (a : Nat) (s : State),
    queueOfInst s i q = some (x, k) → k.stopped = false → k.deleting = false → x.flr = none → k.head ≠ k.tail →
    k.work.length < 64 → vsState s x.vs = 2 → translate x (k.sqBase + 64 * k.head) false = some h →
    hostDenial s x.vs 0 h 64 = none → leNat (hostRead s x.vs h 64) = w → (descHead w).opcode = 1 →
    (descHead w).malformed = false → importRefusal s i (descHead w) = 0 → bits w 448 64 % 4096 + (descHead w).len ≤ 4096 →
    translate x (bits w 448 64) false = some a →
    Leaves (.descWrite i q) s fun t => (queueOfInst t i q).map (fun r => (r.2.head, r.2.count, r.2.work.length)) = some ((k.head + 1) % 2 ^ k.sqLog, k.count + 1, k.work.length + 1) ∧ t.eng.reads.map (fun r => (r.off, r.len, r.iova)) = s.eng.reads.map (fun r => (r.off, r.len, r.iova)) ++ [(0, (descHead w).len, bits w 448 64)]) ∧
  (∀ (i : Inst) (q : Fin 16) (x : InstState) (k : Queue) (h : Nat) (w : Nat) (m : Import) (s : State),
    queueOfInst s i q = some (x, k) → k.stopped = false → k.deleting = false → x.flr = none → k.head ≠ k.tail →
    k.work.length < 64 → vsState s x.vs = 2 → translate x (k.sqBase + 64 * k.head) false = some h →
    hostDenial s x.vs 0 h 64 = none → leNat (hostRead s x.vs h 64) = w → (descHead w).opcode = 2 → k.work = [] →
    (descHead w).malformed = false → importRefusal s i (descHead w) = 0 →
    Tbl.find? s.win.imports (descHead w).imp = some m → bit w 184 = false → bit w 185 = false → (descHead w).len ≤ 4080 →
    Leaves (.descRead i q) s fun t => (queueOfInst t i q).map (fun r => (r.2.head, r.2.count, r.2.work.length)) = some ((k.head + 1) % 2 ^ k.sqLog, k.count + 1, k.work.length + 1) ∧ t.shu.waiting.map (fun o => (o.cid, o.typ, o.gen, o.head)) = s.shu.waiting.map (fun o => (o.cid, o.typ, o.gen, o.head)) ++ [(m.cid, 1, m.gen, reqWord { rid := (engineOrigin s i).rid, vs := x.vs, kind := 2, tag := 0, len := (descHead w).len, lastBe := 15, firstBe := 15, atom := (descHead w).atom, ns := false, window := m.window, offset := m.winBase + (descHead w).off })]) ∧
  (∀ (i : Inst) (q : Fin 16) (x : InstState) (k : Queue) (h : Nat) (w : Nat) (m : Import) (s : State),
    queueOfInst s i q = some (x, k) → k.stopped = false → k.deleting = false → x.flr = none → k.head ≠ k.tail →
    k.work.length < 64 → vsState s x.vs = 2 → translate x (k.sqBase + 64 * k.head) false = some h →
    hostDenial s x.vs 0 h 64 = none → leNat (hostRead s x.vs h 64) = w → (descHead w).opcode = 3 → k.work = [] →
    (descHead w).malformed = false → importRefusal s i (descHead w) = 0 →
    Tbl.find? s.win.imports (descHead w).imp = some m → bit w 184 = false → bit w 185 = false →
    Leaves (.descAtomic i q) s fun t => (queueOfInst t i q).map (fun r => (r.2.head, r.2.count, r.2.work.length)) = some ((k.head + 1) % 2 ^ k.sqLog, k.count + 1, k.work.length + 1) ∧ t.shu.waiting.map (fun o => (o.cid, o.typ, o.gen, o.head)) = s.shu.waiting.map (fun o => (o.cid, o.typ, o.gen, o.head)) ++ [(m.cid, 2, m.gen, reqWord { rid := (engineOrigin s i).rid, vs := x.vs, kind := 2, tag := 0, len := (descHead w).len, lastBe := 15, firstBe := 15, atom := (descHead w).atom, ns := false, window := m.window, offset := m.winBase + (descHead w).off })]) ∧
  (∀ (i : Inst) (q : Fin 16) (x : InstState) (k : Queue) (h : Nat) (w : Nat) (m : Import) (s : State),
    queueOfInst s i q = some (x, k) → k.stopped = false → k.deleting = false → x.flr = none → k.head ≠ k.tail →
    k.work.length < 64 → vsState s x.vs = 2 → translate x (k.sqBase + 64 * k.head) false = some h →
    hostDenial s x.vs 0 h 64 = none → leNat (hostRead s x.vs h 64) = w → (descHead w).opcode = 4 → k.work = [] →
    (descHead w).malformed = false → importRefusal s i (descHead w) = 0 →
    Tbl.find? s.win.imports (descHead w).imp = some m → bit w 184 = false → bit w 185 = false →
    Leaves (.descFence i q) s fun t => (queueOfInst t i q).map (fun r => (r.2.head, r.2.count, r.2.work.length)) = some ((k.head + 1) % 2 ^ k.sqLog, k.count + 1, k.work.length + 1) ∧ t.shu.waiting.map (fun o => (o.cid, o.typ, o.acq, o.rel)) = s.shu.waiting.map (fun o => (o.cid, o.typ, o.acq, o.rel)) ++ [(m.cid, 5, true, true)]) ∧
  (∀ (i : Inst) (q : Fin 16) (x : InstState) (k : Queue) (h : Nat) (w : Nat) (s : State),
    queueOfInst s i q = some (x, k) → k.stopped = false → k.deleting = false → x.flr = none → k.head ≠ k.tail →
    k.work.length < 64 → vsState s x.vs = 2 → translate x (k.sqBase + 64 * k.head) false = some h →
    hostDenial s x.vs 0 h 64 = none → leNat (hostRead s x.vs h 64) = w →
    ((descHead w).opcode = 0 ∨ 5 < (descHead w).opcode) →
    Leaves (.descNop i q) s fun t => (queueOfInst t i q).map (fun r => (r.2.head, r.2.count, r.2.work.length)) = some ((k.head + 1) % 2 ^ k.sqLog, k.count + 1, k.work.length + 1) ∧ ((queueOfInst t i q).any fun r => r.2.work.any fun e => e.n = k.count && e.conds.contains (8, 0)) = true) ∧
  (∀ (i : Inst) (q : Fin 16) (x : InstState) (k : Queue) (h : Nat) (w : Nat) (s : State),
    queueOfInst s i q = some (x, k) → k.stopped = false → k.deleting = false → x.flr = none → k.head ≠ k.tail →
    k.work.length < 64 → vsState s x.vs = 2 → translate x (k.sqBase + 64 * k.head) false = some h →
    hostDenial s x.vs 0 h 64 = none → leNat (hostRead s x.vs h 64) = w → k.work = [] → (descHead w).opcode = 5 →
    (descHead w).malformed = false → bit w 184 = false → bit w 185 = false →
    Leaves (.descNop i q) s fun t => (queueOfInst t i q).map (fun r => (r.2.head, r.2.count, r.2.work.length)) = some ((k.head + 1) % 2 ^ k.sqLog, k.count + 1, k.work.length + 1) ∧ t.shu.waiting = s.shu.waiting) ∧
  (∀ (i : Inst) (q : Fin 16) (x : InstState) (k : Queue) (d : DescState) (ds : List DescState) (h : Nat) (s : State),
    queueOfInst s i q = some (x, k) → cqFull k = false → k.work = d :: ds → descEnded d = true → k.deleting = false →
    translate x (k.cqBase + 16 * k.cqTail) true = some h →
    Leaves (.descriptorComplete i q) s fun t => (queueOfInst t i q).map Prod.snd = some { k with work := ds, cqTail := (k.cqTail + 1) % 2 ^ k.cqLog, phase := if (k.cqTail + 1) % 2 ^ k.cqLog = 0 then !k.phase else k.phase } ∧ t.host = (hostPost s x.vs h (cqBytes d.tag d.bytesDone d.head (descStatus d.conds).1 (descStatus d.conds).2 q.val k.phase)).host) ∧
  (∀ (i : Inst) (q : Fin 16) (tail : Nat) (x : InstState) (k : Queue) (s : State), queueOfInst s i q = some (x, k) →
    k.stopped = false → k.deleting = false → x.flr = none →
    Leaves (.sqTailDoorbell i q tail) s fun t => queueOfInst t i q = (if 2 ^ k.sqLog ≤ tail then some ({ x with queues := Tbl.set x.queues q { k with stopped := true }, errors := putBit x.errors q true }, { k with stopped := true }) else some ({ x with queues := Tbl.set x.queues q { k with tail := tail } }, { k with tail := tail }))) ∧
  (∀ (i : Inst) (q : Fin 16) (x : InstState) (k : Queue) (s : State), queueOfInst s i q = some (x, k) →
    k.stopped = false → k.deleting = false → x.flr = none → k.head ≠ k.tail →
    Leaves (.descFetchFail i q) s fun t => queueOfInst t i q = some ({ x with queues := Tbl.set x.queues q { k with stopped := true }, errors := putBit x.errors q true }, { k with stopped := true }))

/-- Heddles: commits, their end, and the debug access port (R332, R333, R334, R335, R336, R498). -/
def Obligations.HeddleCommits : Prop :=
  (∀ (sess : Nat) (s : State), MayAct s sess 0x5000 2 1 → s.hed.draining = false → pendingOffence s = none →
    Leaves (.hedCommit sess 1) s fun t => t.hed.epoch = (if s.hed.epoch = 65535 then 1 else s.hed.epoch + 1) ∧ t.hed.status = 1 ∧ t.hed.detail = 0 ∧ t.hed.draining = true ∧ t.hed.drainSince = s.now ∧ (∀ h : Fin 130, activeOwn t h = pendingOwn s h) ∧ (∀ i : Fin 64, activeMap t i = pendingMap s i)) ∧
  (∀ (sess : Nat) (s : State), MayAct s sess 0x5000 2 1 → (s.hed.draining = true ∨ pendingOffence s ≠ none) →
    Leaves (.hedCommit sess 1) s fun t => t.hed.status = 3 ∧ t.hed.detail = (if s.hed.draining = true then 0x50000 else (pendingOffence s).getD 0) ∧ t.hed.active = s.hed.active ∧ t.hed.own = s.hed.own ∧ t.hed.map = s.hed.map ∧ t.hed.epoch = s.hed.epoch) ∧
  (∀ (s : State), s.hed.draining = true → previousEpoch s = 0 →
    Leaves (.hedCommitComplete) s fun t => t.hed.status = 2 ∧ t.hed.draining = false ∧ t.hed.epoch = s.hed.epoch) ∧
  (∀ (write : Bool) (addr len a r sub : Nat) (s : State), coreRuns s = true →
    heddleCheck s 128 { cls := 50, kind := b2n write, addr := addr, len := len } = .deny a r sub →
    Leaves (.debugAccess write addr len) s fun t => (Tbl.find? t.hed.denied 128).map (fun l => (l.address, l.cls, l.kind, l.region, l.sub)) = some (a % 2 ^ 64, 50, b2n write, r, sub) ∧ (write = false → t.tx.getLast? = some (.tdo 0))) ∧
  (∀ (addr len w : Nat) (s : State), coreRuns s = true →
    heddleCheck s 128 { cls := 50, kind := 0, addr := addr, len := len } = .region w → 0xF001000000 ≤ addr →
    addr + len ≤ 0xF001000000 + trimBytes →
    Leaves (.debugAccess false addr len) s fun t => t.tx.getLast? = some (.tdo (cfgv s 0x7F10 0 / 2 ^ (8 * (addr - 0xF001000000)) % 2 ^ (8 * len))))

/-- Selvedge: isolation, routing state and the error logs (R344, R351, R352). -/
def Obligations.SelvedgeActs : Prop :=
  (∀ (sess : Nat) (v : Vs) (s : State), MayAct s sess 0x5106 (v + 1) 1 → vsState s v ≠ 0 → vsState s v ≠ 3 →
    Leaves (.selIsolateCmd sess v 1) s fun t => (partOf t v.val).st = 3 ∧ (partOf t v.val).isolateCause = 27 ∧ (partOf t v.val).reloading = none ∧ (∀ w : Vs, w ≠ v → partOf t w = partOf s w)) ∧
  (∀ (v : Vs) (s : State), vsState s v ≠ 0 → (partOf s v.val).reloading = none → coreRuns s = true →
    Leaves (.routingStateError v) s fun t => partOf t v.val = { partOf s v.val with reloading := some s.now }) ∧
  (∀ (v : Vs) (t0 : Nat) (s : State), (partOf s v.val).reloading = some t0 →
    Leaves (.shadowReloadDone v true) s fun t => partOf t v.val = { partOf s v.val with reloading := none }) ∧
  (∀ (v : Vs) (t0 : Nat) (s : State), (partOf s v.val).reloading = some t0 → vsState s v ≠ 0 →
    Leaves (.shadowReloadDone v false) s fun t => (partOf t v.val).st = 3 ∧ (partOf t v.val).isolateCause = 26 ∧ (partOf t v.val).reloading = none) ∧
  (∀ (sess : Nat) (d : Dest) (s : State), MayAct s sess 0x5102 (d + 1) 1 →
    Leaves (.selErrClear sess d 1) s fun t => Tbl.find? t.sel.log d.val = none ∧ (∀ e : Dest, e ≠ d → Tbl.find? t.sel.log e.val = Tbl.find? s.sel.log e.val))

/-- The twin pair: mirror records, silence, loss and the mirror rate (R364, R365, R366, R370, R371). (Choices of the model behind it: log entries 35, 38.) -/
def Obligations.TwinPair : Prop :=
  (∀ (bs : List Byte) (rest : List (Nat × List Byte)) (ord : Nat) (s : State), s.twin.inbox = (ord, bs) :: rest →
    ord % 2 = 0 → s.twin.partial0 = [] → bs.length = 16 + bits (leAt bs 0 16) 111 13 → bits (leAt bs 0 16) 124 4 = 3 →
    bits (leAt bs 0 16) 51 4 ≠ 4 → s.twin.gone = false →
    LeavesSettling (.mirrorRecordReceive) s fun t => (Tbl.find? t.twin.conns (bits (leAt bs 0 16) 97 14)).map (fun m => (m.ctx, m.nonceI, m.nonceR)) = some ((((bs.drop 16).take (bits (leAt bs 0 16) 111 13)).take 40), leAt ((bs.drop 16).take (bits (leAt bs 0 16) 111 13)) 40 8, leAt ((bs.drop 16).take (bits (leAt bs 0 16) 111 13)) 48 8) ∧ t.twin.inbox = rest ∧ t.twin.partial0 = []) ∧
  (∀ (bs : List Byte) (rest : List (Nat × List Byte)) (ord : Nat) (s : State), s.twin.inbox = (ord, bs) :: rest →
    ord % 2 = 0 → s.twin.partial0 = [] → bs.length = 16 → bits (leAt bs 0 16) 111 13 = 0 → bits (leAt bs 0 16) 124 4 = 4 →
    s.twin.st = .protected_ → fabricOn s = true →
    LeavesSettling (.mirrorRecordReceive) s fun t => t.twin.st = .adopting ∧ t.twin.lostMid = twinMid s ∧ t.twin.inbox = rest) ∧
  (∀ (s : State), fabricOn s = false → cfgOn s 0x5201 0 = true → s.twin.st = .protected_ → s.module.state = .service →
    s.twin.silentAt = none → twinHeard s = false → s.module.since + 20000000 ≤ s.now → cfgv s 0x4102 1 = 0 →
    Leaves (.twinSilence) s fun t => t.twin.silentAt = some s.now ∧ t.module.state = (if cfgv s 0x5202 0 = 0 then .service else .fenced)) ∧
  (∀ (s : State), (fabricOn s = true ∨ s.twin.silentAt.isSome = true ∨ twinHeard s = true) →
    Leaves (.twinSilence) s fun t => t = s) ∧
  (∀ (s : State), lostCause s ≠ 0 → s.twin.st = .protected_ → fabricOn s = true →
    LeavesSettling (.twinLostDeclare) s fun t => t.twin.st = .adopting ∧ t.twin.lostMid = twinMid s ∧ t.fab.adoptTold = some (s.fab.adoptTold.getD (twinMid s))) ∧
  (∀ (s : State), lostCause s = 0 → LeavesSettling (.twinLostDeclare) s fun t => t = s) ∧
  (∀ (s : State), cfgOn s 0x5201 0 = true → s.twin.rateAt + 1000000 ≤ s.now →
    LeavesSettling (.mirrorRateAlert) s fun t => t.twin.gbps = s.twin.rateBytes * 8 / (s.now - s.twin.rateAt) ∧ t.twin.rateBytes = 0 ∧ t.twin.rateAt = s.now)

/-- The stored configuration is committed, or the module stays in CONFIG (R18, R336, R433). (Choices of the model behind it: log entries 84.) -/
def Obligations.StoredConfiguration : Prop :=
  (∀ (s : State), s.module.state = .config → s.module.warm = none → storedRefusal s = none →
    LeavesSettling (.storedConfigCommit) s fun t => t.module.state = .links ∧ t.module.refused = false ∧ t.hed.epoch = 1 ∧ t.cfg = s.flash) ∧
  (∀ (s : State), s.module.state = .config → s.module.warm = none → (storedRefusal s).isSome = true →
    LeavesSettling (.storedConfigCommit) s fun t => t.module.state = .config ∧ t.module.refused = true ∧ t.cfg = s.cfg ∧ t.hed = s.hed)

/-- The dobby: taking items, and cycles as master of the backplane (R377, R386, R387, R394, R395, R397, R398, R399, R400). (Choices of the model behind it: log entries 49, 50, 125.) -/
def Obligations.DobbyCycles : Prop :=
  (∀ (r : StoreRead) (i : LoomItem) (q : Tlp) (s : State), r = .clean → coreRuns s = true → takeNext s = some i →
    overAge s i = false → i.cargo = .tlp q → q.ep = false → i.kind ≤ 1 →
    LeavesSettling (.dobbyTake r) s fun t => t.dob.items.map (fun j => (j.tlp, j.item, j.posted, j.origin)) = s.dob.items.map (fun j => (j.tlp, j.item, j.posted, j.origin)) ++ [(q, i.id, decide (i.kind = 0), i.origin)] ∧ (∀ j ∈ queueOf t 129, j.id ≠ i.id)) ∧
  (∀ (it : DobItem) (st : DobStep) (ss : List DobStep) (s : State), dobPins s = true → s.dob.cycle = none →
    s.dob.iack = none → s.dob.inbound = none → s.dob.lock = none → s.dob.busWanted = none → s.dob.items.head? = some it →
    it.split = false → enabledBytes it.tlp ≠ [] → outRefusal s it.tlp = 0 → isAtomic it.tlp = false →
    outSteps (outWin s it.win) it.tlp = st :: ss →
    Leaves (.vmeCycleStart) s fun t => t.dob.cycle = some { step := st, write := tlpKind it.tlp = 0 || it.tlp.kind = .deferrableWrite, since := s.now } ∧ t.dob.holdsBus = true ∧ t.tx.getLast? = some (.vme st.addr st.am (tlpKind it.tlp = 0 || it.tlp.kind = .deferrableWrite) (min st.width st.count) (if tlpKind it.tlp = 0 || it.tlp.kind = .deferrableWrite then onLanes (st.mode = .mblt) st.width st.addr st.addr (stepData (outWin s it.win) it st (min st.width st.count)) else 0))) ∧
  (∀ (it : DobItem) (s : State), dobPins s = true → s.dob.cycle = none → s.dob.iack = none → s.dob.inbound = none →
    s.dob.lock = none → s.dob.busWanted = none → s.dob.items.head? = some it → it.split = false →
    (enabledBytes it.tlp ≠ [] ∨ isAtomic it.tlp = true) → outRefusal s it.tlp ≠ 0 →
    Leaves (.vmeCycleStart) s fun t => t.dob.cycle = none ∧ (∀ j ∈ t.dob.items, j.item ≠ it.item)) ∧
  (∀ (lines : BitVec 64) (c : DobCycle) (it : DobItem) (s : State), s.dob.cycle = some c → onBus s = some it →
    isAtomic it.tlp = false → c.step.count ≤ c.step.width → it.steps.drop 1 = [] →
    Leaves (.vmeCycleEnd lines) s fun t => t.dob.cycle = none ∧ (∀ j ∈ t.dob.items, j.item ≠ it.item)) ∧
  (∀ (lines : BitVec 64) (c : DobCycle) (it : DobItem) (s : State), s.dob.cycle = some c → onBus s = some it →
    isAtomic it.tlp = false → c.step.width < c.step.count → s.dob.busWanted = none →
    Leaves (.vmeCycleEnd lines) s fun t => t.dob.cycle = some { step := { c.step with addr := c.step.addr + c.step.width, count := c.step.count - c.step.width }, write := c.write, since := s.now } ∧ t.dob.holdsBus = true) ∧
  (∀ (lines : BitVec 64) (c : DobCycle) (it : DobItem) (s : State), s.dob.cycle = some c → onBus s = some it →
    isAtomic it.tlp = true → atomicBytes it.tlp = 4 → it.phase = 0 → c.write = false →
    Leaves (.vmeCycleEnd lines) s fun t => t.dob.cycle = some { step := { addr := atomicBase (outWin s it.win) it.tlp, am := outAm (outWin s it.win) 0, mode := .rmw, width := 4, count := 4, off := 0 }, write := true, since := s.now }) ∧
  (∀ (c : DobCycle) (it : DobItem) (s : State), s.dob.iack = none → s.dob.cycle = some c → onBus s = some it →
    Leaves (.vmeBerr) s fun t => t.dob.cycle = none ∧ (∀ j ∈ t.dob.items, j.item ≠ it.item)) ∧
  (∀ (l t0 : Nat) (s : State), s.dob.iack = some (l, t0) →
    Leaves (.vmeBerr) s fun t => t.dob.iack = none ∧ t.dob.armed = putBit s.dob.armed l false ∧ t.dob.items = s.dob.items) ∧
  (∀ (c : DobCycle) (it : DobItem) (s : State), s.dob.cycle = some c → onBus s = some it → c.since + busTimer s ≤ s.now →
    LeavesSettling (.dobBusTimerExpiry) s fun t => t.dob.cycle = none ∧ (∀ j ∈ t.dob.items, j.item ≠ it.item)) ∧
  (∀ (v t0 : Nat) (s : State), s.dob.lock = some v → s.dob.busWanted = some t0 → t0 + cfgv s 0x6007 0 * 1000 ≤ s.now →
    Leaves (.lockBackoff) s fun t => t.dob.lock = none ∧ t.dob.holdsBus = false ∧ t.dob.busWanted = none) ∧
  (∀ (v : Vs) (s : State), s.dob.lock = some v.val →
    Leaves (.unlockMessage v) s fun t => t.dob.lock = none ∧ t.dob.items = s.dob.items) ∧
  (∀ (s : State), s.dob.holdsBus = true → s.dob.cycle = none → s.dob.lock = none → onBus s = none →
    Leaves (.busRequestPending) s fun t => t.dob.holdsBus = false) ∧
  (∀ (s : State), s.dob.holdsBus = true → s.dob.cycle ≠ none → s.dob.busWanted = none →
    Leaves (.busRequestPending) s fun t => t.dob.holdsBus = true ∧ t.dob.busWanted = some s.now)

/-- The dobby as slave: inbound cycles and semaphores (R388, R389, R391, R396). (Choices of the model behind it: log entries 57, 119.) -/
def Obligations.DobbySlave : Prop :=
  (∀ (c : VmeCycle) (n w : Nat) (a : AmInfo) (s : State), dobPins s = true → s.dob.cycle = none → s.dob.iack = none →
    s.dob.inbound = none → semaphoreOf s c = none → inWindow s c = some n → amInfo c.am = some a → c.write = false →
    c.kind = .single → s.dob.inbuf = [] → bit (inWin s n) 254 = false →
    inboundCheck s n a.sup 0 (((inBytes (inWin s n) c.addr (max 1 c.len)).map Prod.fst).foldl min ((((inBytes (inWin s n) c.addr (max 1 c.len)).map Prod.fst).head?).getD 0)) (((inBytes (inWin s n) c.addr (max 1 c.len)).map Prod.fst).foldl max 0 + 1 - (((inBytes (inWin s n) c.addr (max 1 c.len)).map Prod.fst).foldl min ((((inBytes (inWin s n) c.addr (max 1 c.len)).map Prod.fst).head?).getD 0))) = .region w →
    Leaves (.vmeInboundCycle c) s fun t => t.dob.inbound.map (fun x => (x.cycle, x.win, x.number, x.next)) = some (c, n, s.dob.inNumber, inChunk s n c 0) ∧ t.dob.inNumber = s.dob.inNumber + 1) ∧
  (∀ (c : VmeCycle) (n x r sb : Nat) (a : AmInfo) (s : State), dobPins s = true → s.dob.cycle = none → s.dob.iack = none →
    s.dob.inbound = none → semaphoreOf s c = none → inWindow s c = some n → amInfo c.am = some a → c.write = false →
    c.kind = .single →
    inboundCheck s n a.sup 0 (((inBytes (inWin s n) c.addr (max 1 c.len)).map Prod.fst).foldl min ((((inBytes (inWin s n) c.addr (max 1 c.len)).map Prod.fst).head?).getD 0)) (((inBytes (inWin s n) c.addr (max 1 c.len)).map Prod.fst).foldl max 0 + 1 - (((inBytes (inWin s n) c.addr (max 1 c.len)).map Prod.fst).foldl min ((((inBytes (inWin s n) c.addr (max 1 c.len)).map Prod.fst).head?).getD 0))) = .deny x r sb →
    Leaves (.vmeInboundCycle c) s fun t => t.dob.inbound = none ∧ t.tx.getLast? = some (.vmeAnswer true []) ∧ (Tbl.find? t.hed.denied 129).map (fun l => (l.address, l.cls, l.kind, l.region, l.sub)) = some (x % 2 ^ 64, 48, 0, r, sb)) ∧
  (∀ (c : VmeCycle) (s : State), dobPins s = true → s.dob.cycle = none → s.dob.iack = none → s.dob.inbound = none →
    semaphoreOf s c = none → inWindow s c = none →
    Leaves (.vmeInboundCycle c) s fun t => t.dob.stray = some (c.am, s.now) ∧ t.tx = s.tx) ∧
  (∀ (c : VmeCycle) (k : Nat) (s : State), dobPins s = true → s.dob.cycle = none → s.dob.iack = none →
    s.dob.inbound = none → semaphoreOf s c = some k → k < 16 → c.write = false →
    Leaves (.vmeInboundCycle c) s fun t => vget t.dob.sem k 0 = (if bit (vget s.dob.sem k 0) 31 then vget s.dob.sem k 0 else 0xC0007FFF) ∧ t.tx.getLast? = some (.vmeAnswer false [vget s.dob.sem k 0 % 2 ^ 32])) ∧
  (∀ (sem : Fin 16) (am : Nat) (value : BitVec 32) (s : State), dobPins s = true → cfgv s 0x6025 0 ≠ 65535 →
    (am = 0x29 ∨ am = 0x2D) →
    Leaves (.vmeSemaphoreCycle sem am false value) s fun t => vget t.dob.sem sem 0 = (if bit (vget s.dob.sem sem 0) 31 then vget s.dob.sem sem 0 else 0xC0007FFF) ∧ t.tx.getLast? = some (.vmeAnswer false [vget s.dob.sem sem 0 % 2 ^ 32])) ∧
  (∀ (sem : Fin 16) (am : Nat) (value : BitVec 32) (s : State), dobPins s = true → cfgv s 0x6025 0 ≠ 65535 →
    (am = 0x29 ∨ am = 0x2D) →
    Leaves (.vmeSemaphoreCycle sem am true value) s fun t => vget t.dob.sem sem 0 = (if bit value.toNat 31 then vget s.dob.sem sem 0 else 0)) ∧
  (∀ (v : Vs) (sem : Fin 16) (rid tag : Nat) (s : State), vsState s v = 2 → dobbyFunction s v = true →
    Leaves (.semRead v sem rid tag) s fun t => vget t.dob.sem sem 0 = (if bit (vget s.dob.sem sem 0) 31 then vget s.dob.sem sem 0 else 0x80000000 + (cfgv s 0x4100 1 % 1024 * 32 + v) % 32768)) ∧
  (∀ (v : Vs) (sem : Fin 16) (value : BitVec 32) (s : State), vsState s v = 2 → dobbyFunction s v = true →
    Leaves (.semWrite v sem value) s fun t => vget t.dob.sem sem 0 = (if bit value.toNat 31 then vget s.dob.sem sem 0 else 0))

/-- The dobby: interrupts, the utility lines and its connections (R393, R403, R404, R405, R406, R407, R408). (Choices of the model behind it: log entries 59, 130.) -/
def Obligations.DobbyInterrupts : Prop :=
  (∀ (lvl : IrqLevel) (s : State), dobPins s = true → s.dob.cycle = none → s.dob.iack = none → s.dob.inbound = none →
    bit (cfgv s 0x6021 0) (lvl.val + 1) = true → bit s.dob.armed (lvl.val + 1) = true →
    Leaves (.vmeIrqAssert lvl) s fun t => t.dob.iack = some (lvl.val + 1, s.now) ∧ t.tx.getLast? = some (.iack (lvl.val + 1))) ∧
  (∀ (sid : BitVec 32) (l t0 e : Nat) (s : State), s.dob.iack = some (l, t0) → cfgv s 0x6023 0 = 0 →
    irqMatch s l (sid.toNat % 256) = some e → vsState s (bits (irqRoute s e) 44 5) = 2 →
    Leaves (.iackDone sid) s fun t => t.dob.iack = none ∧ Tbl.find? t.dob.receiver l = some (bits (irqRoute s e) 44 5) ∧ t.dob.armed = (if bit (cfgv s 0x6022 0) l then s.dob.armed else putBit s.dob.armed l false)) ∧
  (∀ (sid : BitVec 32) (l t0 : Nat) (s : State), s.dob.iack = some (l, t0) → cfgv s 0x6023 0 = 0 →
    irqMatch s l (sid.toNat % 256) = none →
    Leaves (.iackDone sid) s fun t => t.dob.iack = none ∧ t.dob.receiver = s.dob.receiver) ∧
  (∀ (v : Vs) (mask : Nat) (s : State),
    Leaves (.ihRearm v mask) s fun t => ∀ l : Fin 8, bit t.dob.armed l = (bit s.dob.armed l || (l.val != 0 && bit mask l && decide (Tbl.find? s.dob.receiver l = some v.val)))) ∧
  (∀ (v : Vs) (value : Nat) (s : State), vsState s v = 2 → dobbyFunction s v = true → dobOn s = true →
    bits value 8 3 ≠ 0 → bit (cfgv s 0x6024 1) (bits value 8 3) = true →
    s.dob.raises.any (fun r => r.1 = bits value 8 3 && r.2.1 = v.val) = false →
    Leaves (.irqRaise v value) s fun t => t.dob.raises = s.dob.raises ++ [(bits value 8 3, v.val, bits value 0 8)] ∧ Tbl.find? t.dob.irqResult v = some 0) ∧
  (∀ (v : Vs) (value : Nat) (s : State), vsState s v = 2 → dobbyFunction s v = true → dobOn s = true →
    (bits value 8 3 = 0 ∨ bit (cfgv s 0x6024 1) (bits value 8 3) = false) →
    Leaves (.irqRaise v value) s fun t => t.dob.raises = s.dob.raises ∧ Tbl.find? t.dob.irqResult v = some 2) ∧
  (∀ (v : Vs) (mask : Nat) (s : State),
    Leaves (.irqWithdraw v mask) s fun t => t.dob.raises = s.dob.raises.filter fun r => !(r.2.1 = v.val && bit mask r.1)) ∧
  (∀ (lvl : IrqLevel) (wd : Nat) (r : Nat × Nat × Nat) (s : State), dobPins s = true →
    s.dob.raises.find? (fun r => r.1 = lvl.val + 1) = some r →
    Leaves (.iackinReceive lvl wd) s fun t => t.dob.raises = s.dob.raises.erase r ∧ .statusId (lvl.val + 1) r.2.2 ∈ t.tx) ∧
  (∀ (lvl : IrqLevel) (wd : Nat) (s : State), dobPins s = true → s.dob.raises.find? (fun r => r.1 = lvl.val + 1) = none →
    Leaves (.iackinReceive lvl wd) s fun t => t.dob.raises = s.dob.raises ∧ t.tx = s.tx ++ [.iackOut (lvl.val + 1)]) ∧
  (∀ (s : State), dobPins s = true →
    Leaves (.sysresetInput) s fun t => t.dob.raises = [] ∧ t.dob.armed = 0 ∧ t.dob.cycle = none ∧ t.dob.iack = none ∧ t.dob.inbound = none ∧ t.dob.lock = none ∧ t.dob.holdsBus = false ∧ (∀ j ∈ t.dob.items, j.started = false)) ∧
  (∀ (b : Bool) (s : State), dobPins s = true →
    Leaves (.sysfailChange b) s fun t => t.dob.sysfail = b ∧ t.dob.items = s.dob.items) ∧
  (∀ (b : Bool) (s : State), dobPins s = true →
    Leaves (.acfailChange b) s fun t => t.dob.acfail = b ∧ t.dob.items = s.dob.items) ∧
  (∀ (t0 : Nat) (s : State), s.dob.sysreset = some t0 → t0 + 200000000 ≤ s.now →
    Leaves (.sysresetOutEnd) s fun t => t.dob.sysreset = none ∧ t.tx = s.tx ++ [.pin 2 0 false]) ∧
  (∀ (sess value : Nat) (z : List Byte) (s : State), MayAct s sess 0x6030 1 value → dobConnCheck s value = 0 →
    bits value 30 2 = 1 → secretFor s (bits value 20 10) = some z →
    Leaves (.dobConnOpen sess value) s fun t => (connOf t (bits value 0 14)).st = .opening ∧ (connOf t (bits value 0 14)).peerMid = bits value 20 10 ∧ (connOf t (bits value 0 14)).ownerKind = 1 ∧ t.dob.connWait = some (bits value 0 14)) ∧
  (∀ (sess value : Nat) (s : State), MayAct s sess 0x6030 1 value → dobConnCheck s value = 0 → bits value 30 2 = 2 →
    (connOf s (bits value 0 14)).st = .active →
    Leaves (.dobConnClose sess value) s fun t => (connOf t (bits value 0 14)).st = .closing ∧ (connOf t (bits value 0 14)).exch.map (fun e => e.kind) = some 2 ∧ t.dob.connWait = some (bits value 0 14)) ∧
  (∀ (sess value : Nat) (s : State), MayAct s sess 0x6030 1 value → dobConnCheck s value = 0 → bits value 30 2 = 3 →
    Leaves (.dobConnReset sess value) s fun t => (connOf t (bits value 0 14)).exch.map (fun e => (e.kind, e.epoch, e.firstSeq)) = some (3, ((connOf s (bits value 0 14)).keyEpoch + 1) % 65536, (connOf s (bits value 0 14)).txNext) ∧ t.dob.connWait = some (bits value 0 14))

/-- Sessions: authentication, lock-out, idle time and end (R453, R455, R458, R460, R463). (Choices of the model behind it: log entries 86.) -/
def Obligations.Sessions : Prop :=
  (∀ (m : Msg) (s : State), serves s = true → firstOf 1 [] s.mgmt.inbox = some m → beginRefusal s m = 0 →
    Leaves (.authBegin) s fun t => (t.mgmt.attempts.filter fun a => a.source = m.source).map (fun a => (a.role, a.nc, a.since)) = [(leAt m.body 0 1, (m.body.drop 1).take 16, s.now)] ∧ t.mgmt.sessions = s.mgmt.sessions ∧ t.mgmt.inbox = s.mgmt.inbox.erase m) ∧
  (∀ (m : Msg) (s : State), serves s = true → firstOf 1 [] s.mgmt.inbox = some m → beginRefusal s m ≠ 0 →
    Leaves (.authBegin) s fun t => t.mgmt.attempts = s.mgmt.attempts ∧ t.mgmt.sessions = s.mgmt.sessions) ∧
  (∀ (m : Msg) (a : AuthAttempt) (s : State), serves s = true → firstOf 3 [] s.mgmt.inbox = some m →
    s.mgmt.attempts.find? (fun a => a.source = m.source) = some a → s.now < a.since + 1000000000 →
    m.body.take 48 = attemptProof s a → sessionRoom s a.source = true →
    Leaves (.authProof) s fun t => t.mgmt.sessions.any (fun x => x.num = a.num && x.role = a.role && x.source = a.source && x.key = hmacRole s a.role "HARMIR-S1" (a.nc ++ a.nm ++ leBytes 2 a.num)) = true ∧ (∀ b ∈ t.mgmt.attempts, b.num ≠ a.num)) ∧
  (∀ (m : Msg) (a : AuthAttempt) (s : State), serves s = true → firstOf 3 [] s.mgmt.inbox = some m →
    s.mgmt.attempts.find? (fun a => a.source = m.source) = some a → m.body.take 48 ≠ attemptProof s a →
    Leaves (.authProof) s fun t => t.mgmt.sessions = s.mgmt.sessions ∧ (∀ b ∈ t.mgmt.attempts, b.num ≠ a.num)) ∧
  (∀ (num : Nat) (a : AuthAttempt) (s : State), s.mgmt.attempts.find? (fun a => a.num = num) = some a →
    a.since + 1000000000 ≤ s.now →
    Leaves (.authTimeout num) s fun t => (∀ b ∈ t.mgmt.attempts, b.num ≠ num) ∧ t.mgmt.sessions = s.mgmt.sessions) ∧
  (∀ (src : Nat) (r : Nat × Nat) (s : State), s.mgmt.lockouts.find? (fun r => r.1 = src) = some r →
    r.2 + 60000000000 ≤ s.now → Leaves (.lockoutEnd src) s fun t => t.mgmt.lockouts = s.mgmt.lockouts.erase r) ∧
  (∀ (num : Nat) (x : Session) (s : State), sessionOf s num = some x → x.lastMsg + cfgv s 0x1103 2 * 1000000000 ≤ s.now →
    s.module.pause = none →
    Leaves (.sessionIdleTimeout num) s fun t => sessionOf t num = none ∧ (∀ n, n ≠ num → sessionOf t n = sessionOf s n)) ∧
  (∀ (m : Msg) (x : Session) (s : State), serves s = true → firstOf 0x0C [] s.mgmt.inbox = some m →
    sessionOf s m.session = some x → Leaves (.sessionEnd) s fun t => sessionOf t m.session = none)

/-- Reads, writes, commits and discards of objects (R5, R442, R450, R460, R461, R462, R471, R476). (Choices of the model behind it: log entries 72, 88, 89.) -/
def Obligations.ObjectTransactions : Prop :=
  (∀ (m : Msg) (u : State) (ix sub off len : Nat) (r : ReadItem) (s : State), serves s = true →
    firstOf 5 [] s.mgmt.inbox = some m → u = setMgmt s { s.mgmt with inbox := s.mgmt.inbox.erase m } → m.body ≠ [] →
    readItems (leAt m.body 0 1) (m.body.drop 1) = some [(ix, sub, off, len)] →
    ranged (readObject u m.session ix sub) off len = r → (answerItem ix sub r).length ≤ 4307 →
    Leaves (.read) s fun t => t = answerDone (if r.status = 0 then afterRead u ix sub else u) m 6 (leBytes 1 1 ++ answerItem ix sub r)) ∧
  (∀ (m : Msg) (x : Session) (r : ObjRow) (ix sub : Nat) (val : List Byte) (s : State), serves s = true →
    firstOf 7 [] s.mgmt.inbox = some m → m.body ≠ [] →
    writeItems (leAt m.body 0 1) (m.body.drop 1) = some [(ix, sub, val)] → sessionOf s m.session = some x →
    objRow ix sub = some r → r.kind = .config → r.typ ≠ 12 → val.length = typeBytes r.typ r.len → val.length ≤ 65536 →
    writeStatus s x r ix sub (leNat val) = 0 → x.staged = [] → committing s x.num = false →
    LeavesSettling (.write) s fun t => (sessionOf t m.session).map (fun y => y.staged) = some [(selectedKey s x.num ix sub, leNat val)] ∧ t.cfg = s.cfg) ∧
  (∀ (sess ix sub v : Nat) (x : Session) (r : ObjRow) (s : State), s.module.pause = none → sessionOf s sess = some x →
    objRow ix sub = some r → r.kind = .config → writeStatus s x r ix sub v = 0 → typeBytes r.typ r.len ≤ 65536 →
    x.staged = [] → committing s x.num = false →
    LeavesSettling (.registerWrite sess ix sub v) s fun t => (sessionOf t sess).map (fun y => y.staged) = some [(selectedKey s x.num ix sub, v)] ∧ t.cfg = s.cfg) ∧
  (∀ (sess ix sub v : Nat) (s : State), s.module.pause.isSome = true →
    Leaves (.registerWrite sess ix sub v) s fun t => t = setMgmt s { s.mgmt with heldWrites := s.mgmt.heldWrites ++ [(sess, ix, sub, v)] }) ∧
  (∀ (m : Msg) (x : Session) (k v : Nat) (s : State), serves s = true → firstOf 9 [] s.mgmt.inbox = some m →
    s.mgmt.inFlash = none → sessionOf s m.session = some x → commitState s = 0 → x.staged = [(k, v)] →
    checkCommit s x.role x.staged = none → keyIndex k ≠ 0x2005 → isKeyObject k = false → actsAtCommit k = false →
    k ≠ key 0x7F10 0 → s.module.state ≠ .test →
    LeavesSettling (.commit true) s fun t => keyValue t k = v ∧ (sessionOf t m.session).all (fun y => y.staged.isEmpty) = true) ∧
  (∀ (m : Msg) (x : Session) (s : State), serves s = true → firstOf 9 [] s.mgmt.inbox = some m → s.mgmt.inFlash = none →
    sessionOf s m.session = some x → commitState s = 0 → x.staged ≠ [] → checkCommit s x.role x.staged = none →
    LeavesSettling (.commit false) s fun t => t.mgmt.inFlash = some { msg := m, by_ := x, items := x.staged } ∧ t.cfg = s.cfg ∧ t.flash = s.flash) ∧
  (∀ (q : Bool) (m : Msg) (x : Session) (s : State), serves s = true → firstOf 9 [] s.mgmt.inbox = some m →
    s.mgmt.inFlash = none → sessionOf s m.session = some x →
    (commitState s ≠ 0 ∨ x.staged = [] ∨ (checkCommit s x.role x.staged).isSome = true) →
    LeavesSettling (.commit q) s fun t => t.cfg = s.cfg ∧ t.flash = s.flash ∧ t.mgmt.inFlash = none) ∧
  (∀ (f : FlashCommit) (k v : Nat) (s : State), s.mgmt.inFlash = some f → f.items = [(k, v)] → s.module.warm = none →
    keyIndex k ≠ 0x2005 → isKeyObject k = false → actsAtCommit k = false → k ≠ key 0x7F10 0 → s.module.state ≠ .test →
    LeavesSettling (.commitFlashDone true) s fun t => keyValue t k = v ∧ t.mgmt.inFlash = none) ∧
  (∀ (f : FlashCommit) (s : State), s.mgmt.inFlash = some f → s.module.warm = none →
    LeavesSettling (.commitFlashDone false) s fun t => t.cfg = s.cfg ∧ t.flash = s.flash ∧ t.mgmt.inFlash = none) ∧
  (∀ (m : Msg) (x : Session) (s : State), serves s = true → firstOf 0x0B [] s.mgmt.inbox = some m →
    sessionOf s m.session = some x →
    Leaves (.discard) s fun t => (sessionOf t m.session).map (fun y => y.staged) = some [] ∧ t.cfg = s.cfg) ∧
  (∀ (m : Msg) (s : State), serves s = true → firstOf 0x11 [] s.mgmt.inbox = some m → 3 ≤ m.body.length →
    Leaves (.describe) s fun t => t = answerDone (setMgmt s { s.mgmt with inbox := s.mgmt.inbox.erase m }) m 0x12 (describeBody (leAt m.body 0 2) (leAt m.body 2 1)))

/-- The Harmir bus, mailboxes and heartbeats (R464, R466, R467, R468, R470). (Choices of the model behind it: log entries 87, 90.) -/
def Obligations.BusAndMailboxes : Prop :=
  (∀ (s : State), supervisorOnly s = false → s.module.state ≠ .coreOn → s.mgmt.heartbeatAt + 4500000 ≤ s.now →
    Leaves (.heartbeatSend) s fun t => t.mgmt.heartbeatAt = s.now ∧ t.mgmt.busCount = (s.mgmt.busCount + 1) % 2 ^ 32) ∧
  (∀ (m : Msg) (s : State), firstOf 0 [] s.mgmt.inbox = some m → bit (leAt m.body 12 1) 0 = true →
    supervisorOnly s = false →
    Leaves (.heartbeat) s fun t => Tbl.find? t.mgmt.heard m.source = some (s.now, leNat m.body) ∧ t.mgmt.inbox = s.mgmt.inbox.erase m) ∧
  (∀ (ident : Nat) (bs data : List Byte) (seg : Byte) (s : State), s.module.state ≠ .off → harmirOn s = true →
    bs = seg :: data → (bits ident 8 8 = 0 ∨ bits ident 8 8 = cfgv s 0x1120 1) → ident % 256 ≠ 0 → ident % 256 ≠ 255 →
    s.mgmt.assembling.find? (fun x => assemblyKey x (ident % 256) (bits ident 21 5) (bits ident 16 5)) = none →
    bit seg.toNat 7 = true → seg.toNat % 64 = 0 → bit seg.toNat 6 = false →
    Leaves (.canFrameReceive ident bs) s fun t => t.mgmt.assembling = s.mgmt.assembling ++ [{ src := ident % 256, typ := bits ident 21 5, tagId := bits ident 16 5, prio := bits ident 26 3, dst := bits ident 8 8, seq := 0, since := s.now, bytes := data.take 63 }] ∧ t.mgmt.inbox = s.mgmt.inbox) ∧
  (∀ (a b c : Nat) (x : Assembly) (s : State), s.mgmt.assembling.find? (fun x => assemblyKey x a b c) = some x →
    x.since + 50000000 < s.now →
    Leaves (.segmentTimeout a b c) s fun t => t.mgmt.assembling = s.mgmt.assembling.filter (fun x => !assemblyKey x a b c)) ∧
  (∀ (s : State), s.module.state ≠ .off → harmirOn s = true →
    Leaves (.canBusOff) s fun t => t.mgmt.canOff = true ∧ harmirOn t = false) ∧
  (∀ (s : State), s.mgmt.canOff = true → Leaves (.canBusOffRecovery) s fun t => t.mgmt.canOff = false) ∧
  (∀ (v : Vs) (ctrl : Nat) (bs : List Byte) (s : State), mailboxUp s v = true → serves s = true → bit ctrl 31 = true →
    bit ctrl 13 = true → bit ctrl 12 = false → ctrl < 2 ^ 32 → (mailbox s v).reqBusy = false →
    (mailbox s v).building = [] → ctrl % 4096 ≠ 0 → ctrl % 4096 ≤ 2048 →
    Leaves (.mbReqSegment v ctrl bs) s fun t => (mailbox t v).building = fitBytes (ctrl % 4096) (bs.take 2048) ∧ (mailbox t v).reqBusy = false ∧ t.mgmt.inbox = s.mgmt.inbox) ∧
  (∀ (v : Vs) (s : State), bit (mailbox s v).respCtrl 31 = true →
    Leaves (.mbRespTaken v) s fun t => (match (mailbox s v).queue with | [] => decide (mailbox t v = { mailbox s v with respCtrl := 0, resp := [] }) | (c, b) :: q => decide (mailbox t v = { mailbox s v with respCtrl := c + at_ 31 1, resp := b, queue := q })) = true)

/-- The witness: leases, their expiry, claims and the start-up time (R220, R478, R479, R480). (Choices of the model behind it: log entries 90.) -/
def Obligations.Witness : Prop :=
  (∀ (m : Msg) (s : State), witnesses s = true → firstOf 0x0D [] s.mgmt.inbox = some m →
    findLease s (leAt m.body 4 1) (leAt m.body 5 4) = none → s.mgmt.leases.length < 16 →
    Leaves (.lease) s fun t => findLease t (leAt m.body 4 1) (leAt m.body 5 4) = some { kind := leAt m.body 4 1, ident := leAt m.body 5 4, holder := leAt m.body 9 2, term := leAt m.body 11 4, since := s.now, live := true }) ∧
  (∀ (m : Msg) (x : Lease) (s : State), witnesses s = true → firstOf 0x0D [] s.mgmt.inbox = some m →
    findLease s (leAt m.body 4 1) (leAt m.body 5 4) = some x → x.term ≤ leAt m.body 11 4 → x.holder = leAt m.body 9 2 →
    Leaves (.lease) s fun t => findLease t (leAt m.body 4 1) (leAt m.body 5 4) = some { x with term := leAt m.body 11 4, since := s.now, live := true }) ∧
  (∀ (m : Msg) (x : Lease) (s : State), witnesses s = true → firstOf 0x0D [] s.mgmt.inbox = some m →
    findLease s (leAt m.body 4 1) (leAt m.body 5 4) = some x → (leAt m.body 11 4 < x.term ∨ x.holder ≠ leAt m.body 9 2) →
    Leaves (.lease) s fun t => t.mgmt.leases = s.mgmt.leases) ∧
  (∀ (slot : Fin 16) (x : Lease) (s : State), s.mgmt.leases[slot.val]? = some x → x.live = true →
    x.since + 20000000 ≤ s.now → witnesses s = true → claimsOn s x.kind x.ident = [] →
    Leaves (.leaseExpiry slot) s fun t => t.mgmt.leases[slot.val]? = some { x with live := false }) ∧
  (∀ (m : Msg) (s : State), witnesses s = true → firstOf 0x0F [] s.mgmt.inbox = some m → s.mgmt.witnessOpen = true →
    leaseLive s (leAt m.body 4 1) (leAt m.body 5 4) = false →
    Leaves (.claim) s fun t => (findLease t (leAt m.body 4 1) (leAt m.body 5 4)).map (fun x => (x.holder, x.term, x.since, x.live)) = some (leAt m.body 9 2, (max (((findLease s (leAt m.body 4 1) (leAt m.body 5 4)).map Lease.term).getD 0) (leAt m.body 11 4) + 1) % 2 ^ 32, s.now, true)) ∧
  (∀ (m : Msg) (s : State), witnesses s = true → firstOf 0x0F [] s.mgmt.inbox = some m →
    (s.mgmt.witnessOpen = false ∨ leaseLive s (leAt m.body 4 1) (leAt m.body 5 4) = true) →
    Leaves (.claim) s fun t => t.mgmt.leases = s.mgmt.leases ∧ t.mgmt.claims.length = s.mgmt.claims.length + 1) ∧
  (∀ (slot : Fin 16) (c : PendingClaim) (s : State), s.mgmt.claims[slot.val]? = some c → c.since + 25000000 ≤ s.now →
    s.mgmt.witnessOpen = true → witnesses s = true → leaseLive s c.kind c.ident = true →
    Leaves (.claimPendingTimeout slot) s fun t => t.mgmt.claims = s.mgmt.claims.erase c ∧ t.mgmt.leases = s.mgmt.leases) ∧
  (∀ (s : State), witnesses s = true → s.mgmt.witnessOpen = false → s.mgmt.witnessSince + 20000000 ≤ s.now →
    Leaves (.witnessStartupEnd) s fun t => t.mgmt.witnessOpen = true) ∧
  (∀ (s : State), s.now < s.mgmt.witnessSince + 20000000 → Leaves (.witnessStartupEnd) s fun t => t = s)

/-- The tally: launch, completion, hold and release (R517, R518, R519). (Choices of the model behind it: log entries 64, 65.) -/
def Obligations.Tally : Prop :=
  (∀ (s : State), coreRuns s = true → s.obs.tally.flight = none →
    s.obs.tally.lastFt / cfgv s 0x7001 0 < s.ft / cfgv s 0x7001 0 →
    Leaves (.tallySnapshotLaunch) s fun t => t.obs.tally.launched = s.obs.tally.launched + 1 ∧ t.obs.tally.lastFt = s.ft ∧ t.obs.tally.flight.map (fun m => (m.number, m.launch, m.period, m.sticky)) = some ((s.obs.tally.launched + 1) % 2 ^ 32, s.ft % 2 ^ 64, cfgv s 0x7001 0, s.obs.sticky) ∧ t.obs.tally.image = s.obs.tally.image) ∧
  (∀ (m : TallyImage) (s : State), s.obs.tally.flight = some m →
    Leaves (.tallyImageComplete) s fun t => t.obs.tally.snapshot = m.number ∧ t.obs.tally.flight = none ∧ t.obs.tally.image = (if s.obs.tally.hold = none then some m else s.obs.tally.image) ∧ t.obs.tally.behind = (if s.obs.tally.hold = none then s.obs.tally.behind else some m)) ∧
  (∀ (sess : Nat) (s : State), MayAct s sess 0x7003 0 1 → s.obs.tally.hold = none →
    Leaves (.tallyHold sess 1) s fun t => t.obs.tally.hold = some sess ∧ t.obs.tally.holdSince = s.now ∧ t.obs.tally.image = s.obs.tally.image) ∧
  (∀ (sess : Nat) (s : State), MayAct s sess 0x7003 0 0 →
    Leaves (.tallyHold sess 0) s fun t => t.obs.tally.hold = none ∧ t.obs.tally.behind = none) ∧
  (∀ (n : Nat) (s : State), s.obs.tally.hold = some n → s.obs.tally.holdSince + 1000000000 ≤ s.now →
    Leaves (.tallyHoldTimeout) s fun t => t.obs.tally.hold = none ∧ t.obs.tally.image = (if s.obs.tally.behind = none then s.obs.tally.image else s.obs.tally.behind))

/-- The spool: delivery, releases, marks, rewinds, restarts and its interrupt (R490, R521, R522, R523, R524, R525, R526). (Choices of the model behind it: log entries 68.) -/
def Obligations.Spool : Prop :=
  (∀ (r : Ring) (s : State), (ringGet s r.val).armed = true → ringEnabled s r.val = true → ringMaster s r.val = true →
    ringFull s r.val = false → (ringGet s r.val).held ≠ [] → r.val < 32 →
    Leaves (.spoolDeliveryDeadline r) s fun t => (ringGet t r.val).held = [] ∧ (ringGet t r.val).head = ((ringGet s r.val).head + 1) % 2 ^ 24 ∧ (ringGet t r.val).released = (ringGet s r.val).released ∧ t.host = (hostPost s r.val (cfgv s 0x7102 (r.val + 1) + 64 * ((ringGet s r.val).head % 2 ^ cfgv s 0x7103 (r.val + 1))) (lineBytes (ringGet s r.val).held (ringGet s r.val).head false)).host) ∧
  (∀ (r : Ring) (s : State), (ringGet s r.val).held = [] → Leaves (.spoolDeliveryDeadline r) s fun t => t = s) ∧
  (∀ (sess value : Nat) (r : Ring) (s : State), MayAct s sess 0x7108 (r.val + 1) value →
    releaseKind (ringGet s r.val) value = 0 →
    Leaves (.spoolRelease sess r value) s fun t => ringGet t r.val = { ringGet s r.val with released := value % 2 ^ 24 }) ∧
  (∀ (sess : Nat) (r : Ring) (s : State), MayAct s sess 0x7109 (r.val + 1) 1 → (ringGet s r.val).armed = true →
    ringEnabled s r.val = true → ringMaster s r.val = true → ringFull s r.val = false → spoolHeld s < 4096 →
    Leaves (.spoolMark sess r 1) s fun t => (ringGet t r.val).marked = true ∧ (ringGet t r.val).markSeq = (ringGet s r.val).head ∧ (ringGet t r.val).markCount = (ringGet s r.val).markCount + 1 ∧ (ringGet t r.val).held = [] ∧ (ringGet t r.val).head = ((ringGet s r.val).head + 1) % 2 ^ 24 ∧ (ringGet t r.val).released = (ringGet s r.val).released) ∧
  (∀ (sess : Nat) (r : Ring) (s : State), MayAct s sess 0x710B (r.val + 1) 1 → (ringGet s r.val).marked = true →
    Leaves (.spoolRewind sess r 1) s fun t => ringGet t r.val = { ringGet s r.val with released := ((ringGet s r.val).markSeq + 2 ^ 24 - 1) % 2 ^ 24 }) ∧
  (∀ (sess : Nat) (r : Ring) (s : State), MayAct s sess 0x710C (r.val + 1) 1 →
    Leaves (.spoolRestart sess r 1) s fun t => (ringGet t r.val).head = 0 ∧ (ringGet t r.val).released = 0xFFFFFF ∧ (ringGet t r.val).marked = false ∧ (ringGet t r.val).armed = true) ∧
  (∀ (r : Ring) (t0 : Nat) (s : State), r.val < 32 → (ringGet s r.val).unsigSince = some t0 → t0 + 100000 ≤ s.now →
    cfgv s 0x710F (r.val + 1) ≠ 0 →
    Leaves (.spoolIntrTimeout r) s fun t => (ringGet t r.val).unsigLines = 0 ∧ (ringGet t r.val).unsigSince = none)

/-- The bolt, entropy, the test access port and IDE keys (R493, R497, R502, R529, R532). (Choices of the model behind it: log entries 66, 73.) -/
def Obligations.BoltAndVault : Prop :=
  (∀ (sess : Nat) (s : State), MayAct s sess 0x7203 0 1 → boltCaptureCheck s = 0 →
    Leaves (.boltCapture sess 1) s fun t => t.obs.bolt.state = 1 ∧ t.obs.bolt.number = (s.obs.bolt.number + 1) % 2 ^ 32 ∧ t.obs.bolt.kind = 3 ∧ t.obs.bolt.since = s.now ∧ t.obs.bolt.sections.map (fun x => x.typ) = [2, 3, 4, 5, 6, 7, 8, 9, 10, 11, 12]) ∧
  (∀ (sess : Nat) (s : State), MayAct s sess 0x7202 0 1 → s.obs.bolt.state = 3 →
    Leaves (.boltRelease sess 1) s fun t => t.obs.bolt = { s.obs.bolt with state := 2 }) ∧
  (∀ (s : State), s.obs.bolt.state = 1 → s.obs.bolt.since + 250000000 ≤ s.now →
    Leaves (.boltSectionTimeout) s fun t => t.obs.bolt.sections.map (fun x => x.typ) = s.obs.bolt.sections.map (fun x => x.typ) ∧ (∀ x ∈ t.obs.bolt.sections, x.done = true)) ∧
  (∀ (s : State), s.module.state ≠ .off → Leaves (.entropyFault) s fun t => t.vault.entropyOk = false) ∧
  (∀ (s : State), s.module.state ≠ .off → Leaves (.entropyRecovered) s fun t => t.vault.entropyOk = true) ∧
  (∀ (i : TapInstr) (s : State),
    Leaves (.tapInstruction i) s fun t => t.vault.tap = (if tapCode i = 0 ∨ scanStates s = true then i else .bypass)) ∧
  (∀ (p : Port) (stream : Nat) (sel : Bool) (keys : List Byte) (v : Nat) (s : State), portPart s p = some v →
    isWarp s p = true → partEnabled s v = true → (warpPort s p).st = .active → stream < 256 →
    ideRoom s p stream sel = true →
    Leaves (.ideKmKeyProg p stream sel keys) s fun t => Tbl.find? t.vault.ide (ideKey p stream) = some keys ∧ (sel = true → (p.val, stream) ∈ t.warp.ideSel))

/-- A step runs the command at the front of the queue (R463). -/
def Obligations.StepRunsTheFrontCommand : Prop :=
  ∀ (c : Instr) (cs : List Instr) (s : State), step { s with pending := c :: cs } = exec c { s with pending := cs }

/-- A step on an empty queue is a nanosecond (R7, R214). -/
def Obligations.IdleStepPassesTime : Prop :=
  ∀ s : State, s.pending = [] →
    ∃ f, step s = .next { s with now := s.now + 1, ft := f } ∧ (coreRuns s = false → f = s.ft) ∧
      (coreRuns s = true → s.fab.steer = 0 → f = s.ft + 1)

/-- The state after reset (R7, R17, R18, R423). (Choices of the model behind it: log entries 3, 4, 11.) -/
def Obligations.ResetState : Prop :=
  State.reset.pending = [] ∧ State.reset.module.state = .off ∧ State.reset.now = 0 ∧ State.reset.ft = 0 ∧ PgoodExact State.reset ∧
    Memories State.reset ∧ State.reset.mgmt.sessions = [] ∧ State.reset.shu.conns = [] ∧ State.reset.win.windows = [] ∧
    State.reset.tx = []

/-- PGOOD is asserted exactly in GOOD, after every step (R416, R423). -/
def Obligations.PgoodStaysExact : Prop :=
  ∀ s t : State, PgoodExact s → StepsTo s t → PgoodExact t

/-- Host memories and the bolt region keep their canonical form (R302, R490, R528). (Choices of the model behind it: log entries 4.) -/
def Obligations.MemoriesStayCanonical : Prop :=
  ∀ s t : State, Memories s → StepsTo s t → Memories t

/-- Every command completes, keeps the queue and the clock, and only adds outputs (R214, R463). -/
def Obligations.CommandsKeepQueueAndClock : Prop :=
  (∀ (c : Instr) (s : State), ∃ t, exec c s = .next t ∧ t.pending = s.pending ∧ t.now = s.now ∧ s.tx <+: t.tx ∧ s.drawn ≤ t.drawn ∧
      s.freeDraws ≤ t.freeDraws) ∧
  (∀ (n : Nat) (s : State), Runs n s) ∧
  (∀ s t : State, StepsTo s t → (s.pending ≠ [] → t.now = s.now ∧ t.pending = s.pending.tail) ∧ (s.pending = [] → t.now = s.now + 1 ∧ t.tx = s.tx))

/-- Frames: power, module, lanes, links and partitions (R17, R33, R57, R84, R100, R126, R128, R416). -/
def Obligations.FramesPowerToLinks : Prop :=
  (∀ (vkeepMv : Nat) (aMv : Nat) (bMv : Nat) (s : State), TouchesOnly (.supplyRise vkeepMv aMv bMv) s [.module, .power, .eng, .hed, .obs, .host, .beam]) ∧
  (∀ (f : Feed) (mv : Nat) (outMv : Nat) (gateMv : Nat) (s : State), TouchesOnly (.feedRampComplete f mv outMv gateMv) s [.power]) ∧
  (∀ (f : Feed) (mv : Nat) (s : State), TouchesOnly (.feedQualifyDone f mv) s [.module, .power, .eng, .hed, .obs, .host, .beam]) ∧
  (∀ (f : Feed) (mv : Nat) (outMv : Nat) (ma : Nat) (s : State), TouchesOnly (.currentLimitEnter f mv outMv ma) s [.power, .eng, .hed, .obs, .host, .beam]) ∧
  (∀ (f : Feed) (ma : Nat) (s : State), TouchesOnly (.currentLimitExit f ma) s [.power]) ∧
  (∀ (f : Feed) (mv : Nat) (s : State), TouchesOnly (.cooldownExpiry f mv) s [.power, .eng, .hed, .obs, .host, .beam]) ∧
  (∀ (f : Feed) (mv : Nat) (s : State), TouchesOnly (.feedPowerCycled f mv) s [.module, .power, .eng, .hed, .obs, .host, .beam]) ∧
  (∀ (f : Feed) (s : State), TouchesOnly (.tripCountReset f) s [.power]) ∧
  (∀ (f : Feed) (mv : Nat) (reverseMa : Nat) (s : State), TouchesOnly (.idealDiodeReverseOff f mv reverseMa) s [.power, .eng, .hed, .obs, .host, .beam]) ∧
  (∀ (f : Feed) (mv : Nat) (railMv : Nat) (s : State), TouchesOnly (.idealDiodeOn f mv railMv) s [.power]) ∧
  (∀ (sess : Nat) (f : Feed) (value : Nat) (s : State), TouchesOnly (.feedClear sess f value) s [.module, .power, .eng, .hed, .mgmt, .obs, .host, .beam]) ∧
  (∀ (mv : Nat) (s : State), TouchesOnly (.vioDobChange mv) s [.power, .eng, .hed, .obs, .host, .beam]) ∧
  (∀ (regulated : Bool) (beamTrained : Bool) (s : State), TouchesOnly (.coreOn regulated beamTrained) s [.module, .gov, .shu, .eng, .hed, .dob, .vault, .obs, .host, .beam]) ∧
  (∀ (lockstepOk : Bool) (s : State), Spares (.bootSlotSelect lockstepOk) s [.ft, .flash, .power, .gov, .lanes, .fab, .sel, .dob, .mgmt, .vault]) ∧
  (∀ (healthOk : Bool) (s : State), TouchesOnly (.configEntry healthOk) s [.cfg, .module, .eng, .hed, .obs, .host, .beam]) ∧
  (∀ (s : State), Spares (.storedConfigCommit) s [.ft, .flash, .gov]) ∧
  (∀ (warpTried : Bool) (s : State), Spares (.serviceEntry warpTried) s [.ft, .cfg, .flash, .gov, .lanes]) ∧
  (∀ (aMv : Nat) (bMv : Nat) (aMa : Nat) (bMa : Nat) (powerW : Nat) (stagePs : Nat) (s : State), TouchesOnly (.governorPeriod aMv bMv aMa bMa powerW stagePs) s [.module, .power, .gov, .eng, .hed, .obs, .host, .beam]) ∧
  (∀ (s : State), TouchesOnly (.capacityFloorClear) s [.module, .gov, .eng, .hed, .obs, .host, .beam]) ∧
  (∀ (mv : Nat) (s : State), TouchesOnly (.vcoreRaiseDone mv) s [.module, .gov, .eng, .hed, .obs, .host, .beam]) ∧
  (∀ (s : State), TouchesOnly (.loomRescaleDone) s [.gov]) ∧
  (∀ (hottestMc : Int) (s : State), TouchesOnly (.thermalLoop hottestMc) s [.module, .gov, .eng, .hed, .obs, .host, .beam]) ∧
  (∀ (s : State), Spares (.thermalFatalTimeout) s [.ft, .cfg, .flash, .power, .lanes, .fab, .sel, .dob, .mgmt, .vault]) ∧
  (∀ (l : Lane) (levels : BitVec 130) (s : State), Spares (.weftBlockReceive l levels) s [.ft, .cfg, .flash, .gov]) ∧
  (∀ (l : Lane) (s : State), TouchesOnly (.blockLockAcquired l) s [.lanes, .eng, .hed, .obs, .host, .beam]) ∧
  (∀ (l : Lane) (s : State), Spares (.blockLockLost l) s [.ft, .cfg, .flash, .gov]) ∧
  (∀ (l : Lane) (s : State), TouchesOnly (.laneLockTimeout l) s [.lanes, .eng, .hed, .obs, .host, .beam]) ∧
  (∀ (p : Port) (s : State), TouchesOnly (.alignSend p) s [.lanes, .weft]) ∧
  (∀ (l : Lane) (s : State), Spares (.alignReceive l) s [.ft, .cfg, .flash, .gov]) ∧
  (∀ (l : Lane) (s : State), Spares (.laneAlignTimeout l) s [.ft, .cfg, .flash, .gov]) ∧
  (∀ (c : Clk) (s : State), Spares (.refclkLost c) s [.ft, .cfg, .flash, .gov]) ∧
  (∀ (c : Clk) (s : State), Spares (.refclkRestored c) s [.ft, .cfg, .flash, .gov]) ∧
  (∀ (by_ : FreezeBy) (s : State), TouchesOnly (.adaptFreeze by_) s [.lanes, .eng, .hed, .mgmt, .obs, .host, .beam]) ∧
  (∀ (s : State), TouchesOnly (.adaptFreezeEnd) s [.lanes, .eng, .hed, .obs, .host, .beam]) ∧
  (∀ (s : State), TouchesOnly (.adaptFreezeHeldStart) s [.lanes, .eng, .hed, .obs, .host, .beam]) ∧
  (∀ (sess : Nat) (value : Nat) (s : State), TouchesOnly (.marginStart sess value) s [.lanes, .mgmt, .obs]) ∧
  (∀ (errors : Nat) (s : State), TouchesOnly (.marginStep errors) s [.lanes, .eng, .hed, .obs, .host, .beam]) ∧
  (∀ (p : Port) (s : State), TouchesOnly (.flitSend p) s [.lanes, .weft, .obs]) ∧
  (∀ (p : Port) (s : State), Spares (.flitReceive p) s [.ft, .cfg, .flash, .gov]) ∧
  (∀ (p : Port) (s : State), Spares (.replayTimerExpiry p) s [.ft, .cfg, .flash, .gov]) ∧
  (∀ (p : Port) (s : State), Spares (.weftTrainingStart p) s [.ft, .cfg, .flash, .gov]) ∧
  (∀ (p : Port) (s : State), Spares (.ts1Receive p) s [.ft, .cfg, .flash, .gov]) ∧
  (∀ (p : Port) (s : State), Spares (.ts2Receive p) s [.ft, .cfg, .flash, .gov]) ∧
  (∀ (p : Port) (s : State), Spares (.trainingPhaseTimeout p) s [.ft, .cfg, .flash, .gov]) ∧
  (∀ (p : Port) (s : State), Spares (.creditInitReceive p) s [.ft, .cfg, .flash, .gov]) ∧
  (∀ (p : Port) (s : State), Spares (.flitStartReceive p) s [.ft, .cfg, .flash, .gov]) ∧
  (∀ (p : Port) (s : State), Spares (.alignedTimeout p) s [.ft, .cfg, .flash, .gov]) ∧
  (∀ (p : Port) (s : State), Spares (.retrainReqReceive p) s [.ft, .cfg, .flash, .gov]) ∧
  (∀ (p : Port) (s : State), Spares (.retrainRateStep p) s [.ft, .cfg, .flash, .gov]) ∧
  (∀ (p : Port) (s : State), Spares (.retrainTimeout p) s [.ft, .cfg, .flash, .gov]) ∧
  (∀ (sess : Nat) (p : Port) (value : Nat) (s : State), Spares (.weftRetrainCmd sess p value) s [.ft, .cfg, .flash, .gov]) ∧
  (∀ (p : Port) (t : Tlp) (s : State), Spares (.tlpIngress p t) s [.ft, .cfg, .flash, .gov, .lanes]) ∧
  (∀ (p : Port) (width : Nat) (rate : Nat) (flit : Bool) (s : State), TouchesOnly (.warpLinkUp p width rate flit) s [.warp, .eng, .hed, .obs, .host, .beam]) ∧
  (∀ (v : Vs) (ns : Nat) (s : State), Spares (.perstAssert v ns) s [.ft, .cfg, .flash, .gov, .lanes, .fab, .sel, .twin]) ∧
  (∀ (v : Vs) (s : State), TouchesOnly (.perstDeassert v) s [.warp]) ∧
  (∀ (p : Port) (s : State), Spares (.hotResetReceived p) s [.ft, .cfg, .flash, .gov, .lanes, .fab, .sel, .twin]) ∧
  (∀ (p : Port) (s : State), Spares (.dlDown p) s [.ft, .cfg, .flash, .gov, .lanes, .fab, .sel, .twin]) ∧
  (∀ (sess : Nat) (v : Vs) (value : Nat) (s : State), Spares (.vsResetCmd sess v value) s [.ft, .cfg, .flash, .gov, .lanes, .fab, .sel, .twin]) ∧
  (∀ (v : Vs) (s : State), TouchesOnly (.partitionResetEnd v) s [.warp]) ∧
  (∀ (v : Vs) (s : State), TouchesOnly (.partitionReady v) s [.warp, .shu, .eng, .hed, .obs, .host, .beam]) ∧
  (∀ (p : Port) (s : State), TouchesOnly (.secondaryBusReset p) s [.weft, .warp, .loom, .shu, .win, .eng, .hed, .dob, .vault, .obs, .host, .beam]) ∧
  (∀ (p : Port) (s : State), TouchesOnly (.linkDisable p) s [.weft, .warp, .loom, .shu, .win, .eng, .hed, .dob, .vault, .obs, .host, .beam]) ∧
  (∀ (k : Slot) (s : State), Spares (.slotPowerOff k) s [.ft, .cfg, .flash, .module, .gov, .lanes, .fab, .sel, .twin, .mgmt]) ∧
  (∀ (k : Slot) (s : State), TouchesOnly (.slotPwrenClear k) s [.warp]) ∧
  (∀ (k : Slot) (s : State), TouchesOnly (.slotPowerOn k) s [.warp]) ∧
  (∀ (k : Slot) (s : State), TouchesOnly (.slotPerstRelease k) s [.warp]) ∧
  (∀ (k : Slot) (attention : Indicator) (power : Indicator) (s : State), TouchesOnly (.indicatorSet k attention power) s [.power, .warp]) ∧
  (∀ (s : State), TouchesOnly (.indicatorBlink) s [.warp]) ∧
  (∀ (p : Port) (s : State), Spares (.surpriseDown p) s [.ft, .cfg, .flash, .module, .power, .gov, .lanes, .fab, .twin, .mgmt]) ∧
  (∀ (k : Slot) (bit : Fin 4) (s : State), Spares (.hpInputDebounced k bit) s [.ft, .cfg, .flash, .module, .power, .gov, .lanes, .fab, .twin, .mgmt]) ∧
  (∀ (inputs : List (Option (BitVec 16))) (s : State), TouchesOnly (.expanderInterrupt inputs) s [.warp, .eng, .hed, .obs, .host, .beam]) ∧
  (∀ (inputs : List (Option (BitVec 16))) (s : State), TouchesOnly (.expanderPoll inputs) s [.warp, .eng, .hed, .obs, .host, .beam]) ∧
  (∀ (e : Expander) (input : Option (BitVec 16)) (s : State), TouchesOnly (.expanderRetry e input) s [.warp, .eng, .hed, .obs, .host, .beam]) ∧
  (∀ (p : Port) (s : State), TouchesOnly (.surpriseReport p) s [.warp, .eng, .hed, .obs, .host, .beam]) ∧
  (∀ (p : Port) (width : Nat) (rate : Nat) (flit : Bool) (s : State), TouchesOnly (.linkReturnL0 p width rate flit) s [.warp, .eng, .hed, .obs, .host, .beam]) ∧
  (∀ (p : Port) (reason : Nat) (s : State), Spares (.dpcTrigger p reason) s [.ft, .cfg, .flash, .module, .power, .gov, .lanes, .fab, .twin, .mgmt]) ∧
  (∀ (p : Port) (s : State), TouchesOnly (.dpcRelease p) s [.warp]) ∧
  (∀ (sess : Nat) (value : Nat) (s : State), TouchesOnly (.proxyFree sess value) s [.warp, .mgmt, .obs]) ∧
  (∀ (v : Vs) (group : Fin 64) (s : State), TouchesOnly (.mcastGroupEnable v group) s [.warp, .eng, .hed, .obs, .host, .beam]) ∧
  (∀ (req : Nat) (s : State), Spares (.weCompletionTimeout req) s [.ft, .cfg, .flash, .gov, .lanes]) ∧
  (∀ (src : Dest) (s : State), TouchesOnly (.sharedPromotion src) s [.weft, .warp, .loom, .eng, .hed, .obs, .host, .beam]) ∧
  (∀ (d : Dest) (r : StoreRead) (s : State), Spares (.egressArbitration d r) s [.ft, .cfg, .flash, .gov, .lanes]) ∧
  (∀ (s : State), TouchesOnly (.ledgerMoveStart) s [.loom, .shu]) ∧
  (∀ (s : State), TouchesOnly (.ledgerMoveDone) s [.weft, .warp, .loom, .shu, .eng, .hed, .obs, .host, .beam]) ∧
  (∀ (s : State), TouchesOnly (.spillWriteDone) s [.weft, .warp, .loom, .eng, .hed, .obs, .host, .beam])

/-- Frames: the loom, the fabric and the shuttle (R151, R166, R174, R193, R206, R220, R243, R248). -/
def Obligations.FramesLoomToShuttle : Prop :=
  (∀ (d : Dest) (tc : Tc) (s : State), TouchesOnly (.readbackStart d tc) s [.loom, .eng, .hed, .obs, .host, .beam]) ∧
  (∀ (r : StoreRead) (s : State), Spares (.readbackDone r) s [.ft, .cfg, .flash, .gov, .lanes]) ∧
  (∀ (stack : Fin 2) (s : State), TouchesOnly (.beamStackFault stack) s [.module, .loom, .eng, .hed, .obs, .host, .beam]) ∧
  (∀ (s : State), Spares (.ageSweep) s [.ft, .cfg, .flash, .gov, .lanes]) ∧
  (∀ (s : State), TouchesOnly (.sharedPoolExhausted) s [.loom, .eng, .hed, .obs, .host, .beam]) ∧
  (∀ (p : Port) (s : State), TouchesOnly (.linkProbeSend p) s [.weft, .warp, .loom, .fab, .eng, .hed, .obs, .host, .beam]) ∧
  (∀ (s : State), TouchesOnly (.linkProbeReceive) s [.module, .weft, .warp, .loom, .fab, .shu, .eng, .hed, .twin, .obs, .host, .beam]) ∧
  (∀ (s : State), TouchesOnly (.beaconSend) s [.weft, .warp, .loom, .fab, .eng, .hed, .obs, .host, .beam]) ∧
  (∀ (s : State), TouchesOnly (.beaconReceive) s [.ft, .weft, .warp, .loom, .fab, .shu, .eng, .hed, .obs, .host, .beam]) ∧
  (∀ (s : State), TouchesOnly (.directedMsgForward) s [.weft, .warp, .loom, .fab, .eng, .hed, .sel, .obs, .host, .beam]) ∧
  (∀ (s : State), TouchesOnly (.masterDiscovery) s [.weft, .warp, .loom, .fab, .shu, .eng, .hed, .obs, .host, .beam]) ∧
  (∀ (s : State), TouchesOnly (.neighbours) s [.weft, .warp, .loom, .fab, .shu, .eng, .hed, .obs, .host, .beam]) ∧
  (∀ (s : State), TouchesOnly (.assignMid) s [.cfg, .flash, .weft, .warp, .loom, .fab, .shu, .eng, .hed, .obs, .host, .beam]) ∧
  (∀ (s : State), TouchesOnly (.routeWrite) s [.weft, .warp, .loom, .fab, .shu, .eng, .hed, .obs, .host, .beam]) ∧
  (∀ (s : State), TouchesOnly (.bankSwitch) s [.weft, .warp, .loom, .fab, .shu, .eng, .hed, .obs, .host, .beam]) ∧
  (∀ (s : State), Spares (.bankSwitchTime) s [.ft, .cfg, .flash, .power, .gov, .lanes, .sel, .mgmt, .vault]) ∧
  (∀ (s : State), TouchesOnly (.fabricCtlHeartbeatSend) s [.weft, .warp, .loom, .fab, .shu, .eng, .hed, .obs, .host, .beam]) ∧
  (∀ (s : State), TouchesOnly (.fabricCtlHeartbeatReceive) s [.fab]) ∧
  (∀ (s : State), TouchesOnly (.admitPartition) s [.weft, .warp, .loom, .fab, .shu, .eng, .hed, .obs, .host, .beam]) ∧
  (∀ (s : State), TouchesOnly (.fenceNotice) s [.module, .weft, .warp, .loom, .fab, .shu, .eng, .hed, .twin, .obs, .host, .beam]) ∧
  (∀ (s : State), Spares (.resyncBegin) s [.cfg, .flash, .power, .gov, .lanes, .win, .sel, .dob, .mgmt, .vault]) ∧
  (∀ (s : State), TouchesOnly (.resyncEnd) s [.module, .weft, .warp, .loom, .fab, .shu, .eng, .hed, .twin, .obs, .host, .beam]) ∧
  (∀ (s : State), TouchesOnly (.memberReport) s [.weft, .warp, .loom, .fab, .shu, .eng, .hed, .obs, .host, .beam]) ∧
  (∀ (s : State), TouchesOnly (.tableRecompute) s [.weft, .warp, .loom, .fab, .shu, .eng, .hed, .obs, .host, .beam]) ∧
  (∀ (s : State), TouchesOnly (.admissionTimeout) s [.fab, .eng, .hed, .obs, .host, .beam]) ∧
  (∀ (s : State), TouchesOnly (.beaconSilence) s [.fab, .eng, .hed, .twin, .mgmt, .obs, .host, .beam]) ∧
  (∀ (s : State), Spares (.heartbeatSilence) s [.ft, .cfg, .flash, .power, .gov, .lanes, .win, .sel, .dob, .vault]) ∧
  (∀ (s : State), TouchesOnly (.leaseRenew) s [.fab, .eng, .hed, .mgmt, .obs, .host, .beam]) ∧
  (∀ (s : State), TouchesOnly (.leaseResp) s [.fab, .eng, .hed, .twin, .mgmt, .obs, .host, .beam]) ∧
  (∀ (s : State), Spares (.claimResp) s [.ft, .cfg, .flash, .power, .gov, .lanes, .win, .sel, .dob, .vault]) ∧
  (∀ (s : State), TouchesOnly (.witnessUnreachableFence) s [.module, .weft, .warp, .loom, .fab, .shu, .eng, .hed, .twin, .obs, .host, .beam]) ∧
  (∀ (s : State), TouchesOnly (.memberFenceDeadline) s [.module, .weft, .warp, .loom, .fab, .shu, .eng, .hed, .twin, .obs, .host, .beam]) ∧
  (∀ (sess : Nat) (value : Nat) (s : State), Spares (.masterForce sess value) s [.ft, .cfg, .flash, .power, .gov, .lanes, .win, .sel, .dob, .vault]) ∧
  (∀ (sess : Nat) (value : Nat) (s : State), TouchesOnly (.ftSet sess value) s [.ft, .mgmt, .obs]) ∧
  (∀ (s : State), TouchesOnly (.ftPpsInEdge) s [.fab]) ∧
  (∀ (s : State), TouchesOnly (.ftPpsOutPulse) s [.fab]) ∧
  (∀ (s : State), Spares (.operationAccept) s [.ft, .cfg, .flash, .gov, .lanes]) ∧
  (∀ (s : State), Spares (.deferredAccept) s [.ft, .cfg, .flash, .gov, .lanes]) ∧
  (∀ (c : Cid) (s : State), Spares (.operationFirstSend c) s [.ft, .cfg, .flash, .gov, .lanes]) ∧
  (∀ (ledgerIndex : Fin 65536) (s : State), Spares (.retransmitTimeout ledgerIndex) s [.ft, .cfg, .flash, .gov, .lanes]) ∧
  (∀ (s : State), Spares (.operationReceive) s [.ft, .cfg, .flash, .gov, .lanes]) ∧
  (∀ (c : Cid) (s : State), Spares (.ackSend c) s [.ft, .cfg, .flash, .gov, .lanes]) ∧
  (∀ (s : State), Spares (.ackReceive) s [.ft, .cfg, .flash, .gov, .lanes]) ∧
  (∀ (s : State), Spares (.nakReceive) s [.ft, .cfg, .flash, .gov, .lanes]) ∧
  (∀ (s : State), Spares (.connReqOpen) s [.ft, .cfg, .flash, .gov, .lanes]) ∧
  (∀ (s : State), Spares (.connReqClose) s [.ft, .cfg, .flash, .gov, .lanes]) ∧
  (∀ (s : State), Spares (.connReqReset) s [.ft, .cfg, .flash, .gov, .lanes]) ∧
  (∀ (s : State), Spares (.connReqRekey) s [.ft, .cfg, .flash, .gov, .lanes])

/-- Frames: windows, the window engine, heddles, selvedge, twin and dobby (R269, R277, R302, R309, R335, R344, R364, R386, R404). -/
def Obligations.FramesWindowsToDobby : Prop :=
  (∀ (s : State), Spares (.connResp) s [.ft, .cfg, .flash, .gov, .lanes]) ∧
  (∀ (c : Cid) (s : State), Spares (.connReqResend c) s [.ft, .cfg, .flash, .gov, .lanes]) ∧
  (∀ (c : Cid) (s : State), Spares (.connOpenTimeout c) s [.ft, .cfg, .flash, .gov, .lanes]) ∧
  (∀ (c : Cid) (s : State), Spares (.connExchangeTimeout c) s [.ft, .cfg, .flash, .gov, .lanes]) ∧
  (∀ (c : Cid) (s : State), Spares (.connCloseTimeout c) s [.ft, .cfg, .flash, .gov, .lanes]) ∧
  (∀ (c : Cid) (s : State), Spares (.autoResumeTimer c) s [.ft, .cfg, .flash, .gov, .lanes]) ∧
  (∀ (sess : Nat) (value : Nat) (s : State), Spares (.rekeyAll sess value) s [.ft, .cfg, .flash, .gov, .lanes]) ∧
  (∀ (i : Inst) (t : Tlp) (s : State), Spares (.apertureAccess i t) s [.ft, .cfg, .flash, .gov, .lanes]) ∧
  (∀ (s : State), Spares (.heldLoadSend) s [.ft, .cfg, .flash, .gov, .lanes]) ∧
  (∀ (s : State), Spares (.visibilityPoint) s [.ft, .cfg, .flash, .gov, .lanes]) ∧
  (∀ (w : Fin 65536) (s : State), TouchesOnly (.windowRevokeComplete w) s [.win, .eng, .hed, .obs, .host, .beam]) ∧
  (∀ (sess : Nat) (v : Vs) (value : Nat) (s : State), TouchesOnly (.postfailClear sess v value) s [.win, .mgmt, .obs]) ∧
  (∀ (s : State), TouchesOnly (.windowOpen) s [.win, .eng, .hed, .obs, .host, .beam]) ∧
  (∀ (s : State), TouchesOnly (.windowRevoke) s [.win, .eng, .hed, .obs, .host, .beam]) ∧
  (∀ (s : State), TouchesOnly (.windowFree) s [.win, .eng, .hed, .host]) ∧
  (∀ (s : State), TouchesOnly (.windowRead) s [.eng, .hed, .host]) ∧
  (∀ (s : State), TouchesOnly (.importWrite) s [.win, .eng, .hed, .obs, .host, .beam]) ∧
  (∀ (s : State), TouchesOnly (.importInvalidate) s [.win, .eng, .hed, .host]) ∧
  (∀ (s : State), TouchesOnly (.importRead) s [.eng, .hed, .host]) ∧
  (∀ (s : State), TouchesOnly (.importSetGen) s [.win, .eng, .hed, .host]) ∧
  (∀ (s : State), TouchesOnly (.connOpen) s [.weft, .warp, .loom, .shu, .eng, .hed, .twin, .dob, .obs, .host, .beam]) ∧
  (∀ (s : State), TouchesOnly (.connModify) s [.shu, .eng, .hed, .twin, .obs, .host]) ∧
  (∀ (s : State), TouchesOnly (.connReset) s [.weft, .warp, .loom, .shu, .eng, .hed, .obs, .host, .beam]) ∧
  (∀ (s : State), TouchesOnly (.connRead) s [.eng, .hed, .host]) ∧
  (∀ (s : State), TouchesOnly (.connClose) s [.weft, .warp, .loom, .shu, .win, .eng, .hed, .twin, .dob, .obs, .host, .beam]) ∧
  (∀ (s : State), TouchesOnly (.ledgerRead) s [.eng, .hed, .host]) ∧
  (∀ (s : State), TouchesOnly (.fenceBind) s [.eng, .hed, .host]) ∧
  (∀ (s : State), TouchesOnly (.queueCreate) s [.eng, .hed, .obs, .host, .beam]) ∧
  (∀ (s : State), TouchesOnly (.queueDelete) s [.eng, .hed, .host]) ∧
  (∀ (s : State), TouchesOnly (.shareSet) s [.eng, .hed, .obs, .host, .beam]) ∧
  (∀ (s : State), Spares (.tuMap) s [.cfg, .flash, .gov]) ∧
  (∀ (s : State), TouchesOnly (.tuUnmap) s [.eng, .hed, .host]) ∧
  (∀ (s : State), TouchesOnly (.tuUnmapComplete) s [.eng, .hed, .host]) ∧
  (∀ (s : State), TouchesOnly (.tuMode) s [.eng, .hed, .host]) ∧
  (∀ (v : Vs) (value : Nat) (s : State), TouchesOnly (.admqCtrl v value) s [.eng]) ∧
  (∀ (v : Vs) (value : Nat) (s : State), TouchesOnly (.admcqHead v value) s [.eng, .hed, .host]) ∧
  (∀ (i : Inst) (value : Nat) (s : State), TouchesOnly (.vfMsgRing i value) s [.eng, .hed]) ∧
  (∀ (v : Vs) (vf : Fin 256) (reply : List Byte) (s : State), TouchesOnly (.vfReplyWrite v vf reply) s [.eng, .hed]) ∧
  (∀ (v : Vs) (numVfs : Nat) (s : State), TouchesOnly (.vfEnable v numVfs) s [.eng, .hed, .obs, .host, .beam]) ∧
  (∀ (v : Vs) (s : State), TouchesOnly (.vfDisable v) s [.warp, .eng, .hed, .mgmt, .obs, .host]) ∧
  (∀ (i : Inst) (s : State), TouchesOnly (.vfFlr i) s [.warp, .eng, .hed, .mgmt, .obs, .host]) ∧
  (∀ (i : Inst) (s : State), TouchesOnly (.vfFlrComplete i) s [.eng, .hed, .obs, .host, .beam]) ∧
  (∀ (v : Vs) (s : State), Spares (.pfFlr v) s [.ft, .cfg, .flash, .power, .gov, .lanes, .fab, .sel, .vault]) ∧
  (∀ (i : Inst) (q : Fin 16) (s : State), TouchesOnly (.descWrite i q) s [.weft, .warp, .loom, .shu, .win, .eng, .hed, .dob, .obs, .host, .beam]) ∧
  (∀ (i : Inst) (q : Fin 16) (s : State), TouchesOnly (.descRead i q) s [.weft, .warp, .loom, .shu, .win, .eng, .hed, .dob, .obs, .host, .beam]) ∧
  (∀ (i : Inst) (q : Fin 16) (s : State), TouchesOnly (.descAtomic i q) s [.weft, .warp, .loom, .shu, .win, .eng, .hed, .dob, .obs, .host, .beam]) ∧
  (∀ (i : Inst) (q : Fin 16) (s : State), TouchesOnly (.descFence i q) s [.weft, .warp, .loom, .shu, .win, .eng, .hed, .dob, .obs, .host, .beam]) ∧
  (∀ (i : Inst) (q : Fin 16) (s : State), TouchesOnly (.descNop i q) s [.weft, .warp, .loom, .shu, .win, .eng, .hed, .dob, .obs, .host, .beam]) ∧
  (∀ (i : Inst) (q : Fin 16) (s : State), TouchesOnly (.descriptorComplete i q) s [.eng, .hed, .obs, .host, .beam]) ∧
  (∀ (i : Inst) (q : Fin 16) (s : State), TouchesOnly (.descFetchFail i q) s [.eng, .hed, .obs, .host, .beam]) ∧
  (∀ (i : Inst) (slot : Fin 1024) (rid : Nat) (tag : Nat) (s : State), Spares (.fenceSlotRead i slot rid tag) s [.ft, .cfg, .flash, .gov, .lanes]) ∧
  (∀ (sess : Nat) (value : Nat) (s : State), TouchesOnly (.hedCommit sess value) s [.eng, .hed, .mgmt, .obs, .host, .beam]) ∧
  (∀ (s : State), TouchesOnly (.hedCommitComplete) s [.eng, .hed, .obs, .host, .beam]) ∧
  (∀ (write : Bool) (addr : Nat) (len : Nat) (s : State), TouchesOnly (.debugAccess write addr len) s [.eng, .hed, .obs, .host, .beam]) ∧
  (∀ (sess : Nat) (v : Vs) (value : Nat) (s : State), TouchesOnly (.selIsolateCmd sess v value) s [.warp, .eng, .hed, .sel, .mgmt, .vault, .obs, .host, .beam]) ∧
  (∀ (v : Vs) (s : State), TouchesOnly (.routingStateError v) s [.warp]) ∧
  (∀ (v : Vs) (ok : Bool) (s : State), TouchesOnly (.shadowReloadDone v ok) s [.warp, .eng, .hed, .sel, .vault, .obs, .host, .beam]) ∧
  (∀ (sess : Nat) (d : Dest) (value : Nat) (s : State), TouchesOnly (.selErrClear sess d value) s [.sel, .mgmt, .obs]) ∧
  (∀ (cause : Nat) (s : State), TouchesOnly (.moduleFatalError cause) s [.module, .weft, .warp, .loom, .shu, .win, .eng, .hed, .twin, .obs, .host, .beam]) ∧
  (∀ (s : State), Spares (.mirrorRecordReceive) s [.ft, .cfg, .flash, .gov, .lanes]) ∧
  (∀ (s : State), Spares (.twinSilence) s [.ft, .cfg, .flash, .power, .gov, .lanes, .win, .sel, .dob, .vault]) ∧
  (∀ (s : State), Spares (.twinLostDeclare) s [.ft, .cfg, .flash, .gov, .lanes]) ∧
  (∀ (s : State), Spares (.mirrorRateAlert) s [.ft, .cfg, .flash, .gov, .lanes]) ∧
  (∀ (r : StoreRead) (s : State), Spares (.dobbyTake r) s [.ft, .cfg, .flash, .gov, .lanes]) ∧
  (∀ (s : State), TouchesOnly (.vmeCycleStart) s [.weft, .warp, .loom, .shu, .win, .eng, .hed, .sel, .dob, .obs, .host, .beam]) ∧
  (∀ (lines : BitVec 64) (s : State), TouchesOnly (.vmeCycleEnd lines) s [.weft, .warp, .loom, .shu, .win, .eng, .hed, .dob, .obs, .host, .beam]) ∧
  (∀ (s : State), TouchesOnly (.vmeBerr) s [.weft, .warp, .loom, .shu, .win, .eng, .hed, .sel, .dob, .obs, .host, .beam]) ∧
  (∀ (s : State), Spares (.dobBusTimerExpiry) s [.ft, .cfg, .flash, .gov, .lanes]) ∧
  (∀ (c : VmeCycle) (s : State), TouchesOnly (.vmeInboundCycle c) s [.weft, .warp, .loom, .shu, .win, .eng, .hed, .dob, .obs, .host, .beam]) ∧
  (∀ (sem : Fin 16) (am : Nat) (write : Bool) (value : BitVec 32) (s : State), TouchesOnly (.vmeSemaphoreCycle sem am write value) s [.dob, .obs]) ∧
  (∀ (v : Vs) (sem : Fin 16) (rid : Nat) (tag : Nat) (s : State), TouchesOnly (.semRead v sem rid tag) s [.weft, .warp, .loom, .shu, .win, .eng, .hed, .dob, .obs, .host, .beam]) ∧
  (∀ (v : Vs) (sem : Fin 16) (value : BitVec 32) (s : State), TouchesOnly (.semWrite v sem value) s [.dob]) ∧
  (∀ (lvl : IrqLevel) (s : State), TouchesOnly (.vmeIrqAssert lvl) s [.dob, .obs]) ∧
  (∀ (statusId : BitVec 32) (s : State), TouchesOnly (.iackDone statusId) s [.eng, .hed, .dob, .obs, .host, .beam]) ∧
  (∀ (v : Vs) (mask : Nat) (s : State), TouchesOnly (.ihRearm v mask) s [.dob]) ∧
  (∀ (v : Vs) (value : Nat) (s : State), TouchesOnly (.irqRaise v value) s [.eng, .hed, .dob, .obs, .host, .beam]) ∧
  (∀ (v : Vs) (mask : Nat) (s : State), TouchesOnly (.irqWithdraw v mask) s [.dob]) ∧
  (∀ (lvl : IrqLevel) (width : Nat) (s : State), TouchesOnly (.iackinReceive lvl width) s [.eng, .hed, .dob, .obs, .host, .beam]) ∧
  (∀ (s : State), TouchesOnly (.lockBackoff) s [.eng, .hed, .dob, .obs, .host, .beam]) ∧
  (∀ (v : Vs) (s : State), TouchesOnly (.unlockMessage v) s [.dob]) ∧
  (∀ (s : State), TouchesOnly (.busRequestPending) s [.dob]) ∧
  (∀ (sess : Nat) (value : Nat) (s : State), Spares (.dobConnOpen sess value) s [.ft, .cfg, .flash, .module, .power, .gov, .lanes, .fab, .sel, .vault]) ∧
  (∀ (sess : Nat) (value : Nat) (s : State), Spares (.dobConnClose sess value) s [.ft, .cfg, .flash, .module, .power, .gov, .lanes, .fab, .sel, .vault]) ∧
  (∀ (sess : Nat) (value : Nat) (s : State), Spares (.dobConnReset sess value) s [.ft, .cfg, .flash, .module, .power, .gov, .lanes, .fab, .sel, .vault]) ∧
  (∀ (s : State), TouchesOnly (.sysresetInput) s [.weft, .warp, .loom, .shu, .win, .eng, .hed, .sel, .dob, .obs, .host, .beam])

/-- Frames: management, security and observation (R438, R455, R464, R471, R478, R494, R517, R521, R529). -/
def Obligations.FramesManagement : Prop :=
  (∀ (asserted : Bool) (s : State), TouchesOnly (.sysfailChange asserted) s [.eng, .hed, .dob, .obs, .host, .beam]) ∧
  (∀ (asserted : Bool) (s : State), TouchesOnly (.acfailChange asserted) s [.eng, .hed, .dob, .obs, .host, .beam]) ∧
  (∀ (s : State), TouchesOnly (.sysresetOutEnd) s [.dob]) ∧
  (∀ (sess : Nat) (value : Nat) (s : State), TouchesOnly (.warmResetCmd sess value) s [.module, .eng, .hed, .mgmt, .obs, .host, .beam]) ∧
  (∀ (s : State), TouchesOnly (.warmResetDrainEnd) s [.module, .weft, .warp, .loom, .shu, .eng, .hed, .twin, .obs, .host, .beam]) ∧
  (∀ (sess : Nat) (value : Nat) (s : State), TouchesOnly (.testEnterCmd sess value) s [.module, .eng, .hed, .mgmt, .obs, .host, .beam]) ∧
  (∀ (s : State), TouchesOnly (.testEntryTime) s [.module, .eng, .hed, .obs, .host, .beam]) ∧
  (∀ (sess : Nat) (value : Nat) (s : State), TouchesOnly (.fwLoadBegin sess value) s [.module, .eng, .hed, .mgmt, .obs, .host, .beam]) ∧
  (∀ (s : State), TouchesOnly (.fwEraseDone) s [.module, .eng, .hed, .obs, .host, .beam]) ∧
  (∀ (sess : Nat) (data : List Byte) (s : State), TouchesOnly (.fwBlockData sess data) s [.module, .eng, .hed, .mgmt, .obs, .host, .beam]) ∧
  (∀ (sess : Nat) (value : Nat) (s : State), TouchesOnly (.fwLoadEnd sess value) s [.module, .mgmt, .obs]) ∧
  (∀ (flashOk : Bool) (s : State), TouchesOnly (.fwVerifyDone flashOk) s [.cfg, .module, .eng, .hed, .mgmt, .obs, .host, .beam]) ∧
  (∀ (sess : Nat) (value : Nat) (s : State), TouchesOnly (.fwActivateCmd sess value) s [.module, .eng, .hed, .mgmt, .obs, .host, .beam]) ∧
  (∀ (sess : Nat) (value : Nat) (s : State), TouchesOnly (.fwActivateCancel sess value) s [.module, .eng, .hed, .mgmt, .obs, .host, .beam]) ∧
  (∀ (s : State), TouchesOnly (.fwActivationStart) s [.module, .eng, .hed, .obs, .host, .beam]) ∧
  (∀ (hashOk : Bool) (s : State), Spares (.hitlessPhaseDone hashOk) s [.cfg, .flash, .gov]) ∧
  (∀ (s : State), Spares (.hitlessResume) s [.cfg, .flash, .gov]) ∧
  (∀ (s : State), TouchesOnly (.trialEnd) s [.module, .eng, .hed, .obs, .host, .beam]) ∧
  (∀ (s : State), TouchesOnly (.treadleWatchdogExpiry) s [.module, .eng, .hed, .obs, .host, .beam]) ∧
  (∀ (s : State), TouchesOnly (.heartbeatSend) s [.mgmt, .obs]) ∧
  (∀ (s : State), TouchesOnly (.heartbeat) s [.mgmt, .obs]) ∧
  (∀ (s : State), TouchesOnly (.authBegin) s [.eng, .hed, .mgmt, .obs]) ∧
  (∀ (s : State), TouchesOnly (.authProof) s [.module, .eng, .hed, .mgmt, .obs, .host, .beam]) ∧
  (∀ (sess : Nat) (s : State), TouchesOnly (.authTimeout sess) s [.eng, .hed, .mgmt, .obs, .host, .beam]) ∧
  (∀ (source : Nat) (s : State), TouchesOnly (.lockoutEnd source) s [.mgmt]) ∧
  (∀ (s : State), TouchesOnly (.read) s [.loom, .shu, .win, .eng, .hed, .mgmt, .obs, .host, .beam]) ∧
  (∀ (s : State), Spares (.write) s [.cfg, .flash, .gov]) ∧
  (∀ (s : State), TouchesOnly (.discard) s [.eng, .hed, .mgmt, .obs]) ∧
  (∀ (s : State), TouchesOnly (.sessionEnd) s [.module, .eng, .hed, .mgmt, .obs, .host, .beam]) ∧
  (∀ (s : State), TouchesOnly (.describe) s [.eng, .hed, .mgmt, .obs]) ∧
  (∀ (sess : Nat) (s : State), TouchesOnly (.sessionIdleTimeout sess) s [.module, .eng, .hed, .mgmt, .obs, .host, .beam]) ∧
  (∀ (s : State), TouchesOnly (.lease) s [.eng, .hed, .mgmt, .obs, .host, .beam]) ∧
  (∀ (slot : Fin 16) (s : State), TouchesOnly (.leaseExpiry slot) s [.eng, .hed, .mgmt, .obs, .host, .beam]) ∧
  (∀ (s : State), TouchesOnly (.claim) s [.eng, .hed, .mgmt, .obs, .host, .beam]) ∧
  (∀ (slot : Fin 16) (s : State), TouchesOnly (.claimPendingTimeout slot) s [.eng, .hed, .mgmt, .obs, .host, .beam]) ∧
  (∀ (s : State), TouchesOnly (.witnessStartupEnd) s [.eng, .hed, .mgmt, .obs, .host, .beam]) ∧
  (∀ (ident : Nat) (bytes : List Byte) (s : State), TouchesOnly (.canFrameReceive ident bytes) s [.eng, .hed, .mgmt, .obs, .host, .beam]) ∧
  (∀ (src : Nat) (typ : Nat) (tagId : Nat) (s : State), TouchesOnly (.segmentTimeout src typ tagId) s [.eng, .hed, .mgmt, .obs]) ∧
  (∀ (s : State), TouchesOnly (.canBusOff) s [.eng, .hed, .mgmt, .obs, .host, .beam]) ∧
  (∀ (s : State), TouchesOnly (.canBusOffRecovery) s [.eng, .hed, .mgmt, .obs, .host, .beam]) ∧
  (∀ (v : Vs) (ctrl : Nat) (bytes : List Byte) (s : State), TouchesOnly (.mbReqSegment v ctrl bytes) s [.eng, .hed, .mgmt, .obs, .host, .beam]) ∧
  (∀ (v : Vs) (s : State), TouchesOnly (.mbRespTaken v) s [.eng, .hed, .mgmt]) ∧
  (∀ (s : State), TouchesOnly (.entropyFault) s [.eng, .hed, .vault, .obs, .host, .beam]) ∧
  (∀ (s : State), TouchesOnly (.entropyRecovered) s [.eng, .hed, .vault, .obs, .host, .beam]) ∧
  (∀ (t : TapInstr) (s : State), TouchesOnly (.tapInstruction t) s [.eng, .hed, .vault, .obs, .host, .beam]) ∧
  (∀ (p : Port) (stream : Nat) (selective : Bool) (keys : List Byte) (s : State), TouchesOnly (.ideKmKeyProg p stream selective keys) s [.warp, .eng, .hed, .vault, .obs, .host, .beam]) ∧
  (∀ (s : State), TouchesOnly (.tallySnapshotLaunch) s [.weft, .warp, .loom, .shu, .eng, .hed, .obs, .host, .beam]) ∧
  (∀ (s : State), TouchesOnly (.tallyImageComplete) s [.obs]) ∧
  (∀ (sess : Nat) (value : Nat) (s : State), TouchesOnly (.tallyHold sess value) s [.mgmt, .obs]) ∧
  (∀ (s : State), TouchesOnly (.tallyHoldTimeout) s [.eng, .hed, .obs, .host, .beam]) ∧
  (∀ (r : Ring) (s : State), TouchesOnly (.spoolDeliveryDeadline r) s [.eng, .hed, .obs, .host, .beam]) ∧
  (∀ (sess : Nat) (r : Ring) (value : Nat) (s : State), TouchesOnly (.spoolRelease sess r value) s [.mgmt, .obs]) ∧
  (∀ (sess : Nat) (r : Ring) (value : Nat) (s : State), TouchesOnly (.spoolMark sess r value) s [.eng, .hed, .mgmt, .obs, .host, .beam]) ∧
  (∀ (sess : Nat) (r : Ring) (value : Nat) (s : State), TouchesOnly (.spoolRewind sess r value) s [.mgmt, .obs]) ∧
  (∀ (sess : Nat) (r : Ring) (value : Nat) (s : State), TouchesOnly (.spoolRestart sess r value) s [.eng, .hed, .mgmt, .obs, .host, .beam]) ∧
  (∀ (r : Ring) (s : State), TouchesOnly (.spoolIntrTimeout r) s [.eng, .hed, .obs]) ∧
  (∀ (sess : Nat) (value : Nat) (s : State), TouchesOnly (.boltCapture sess value) s [.weft, .warp, .loom, .shu, .eng, .hed, .mgmt, .obs, .host, .beam]) ∧
  (∀ (sess : Nat) (value : Nat) (s : State), TouchesOnly (.boltRelease sess value) s [.eng, .hed, .mgmt, .obs, .host, .beam]) ∧
  (∀ (s : State), TouchesOnly (.boltWriteDone) s [.module, .weft, .warp, .loom, .shu, .eng, .hed, .obs, .host, .beam]) ∧
  (∀ (s : State), TouchesOnly (.boltSectionTimeout) s [.obs]) ∧
  (∀ (sess : Nat) (index : Nat) (sub : Nat) (value : Nat) (s : State), Spares (.registerWrite sess index sub value) s [.cfg, .flash, .gov]) ∧
  (∀ (s : State), TouchesOnly (.fabricCtlResponse) s [.weft, .warp, .loom, .fab, .shu, .eng, .hed, .obs, .host, .beam]) ∧
  (∀ (i : Inst) (q : Fin 16) (tail : Nat) (s : State), TouchesOnly (.sqTailDoorbell i q tail) s [.eng, .hed, .obs, .host, .beam]) ∧
  (∀ (v : Vs) (tail : Nat) (s : State), TouchesOnly (.admqTailDoorbell v tail) s [.eng, .hed, .host]) ∧
  (∀ (p : Port) (s : State), Spares (.retrainReqEnd p) s [.ft, .cfg, .flash, .gov])

/-- Frames inside a part: other ports, slots, lanes, feeds, windows and partitions stand (R57, R59, R84, R127, R134, R137, R269, R301, R302, R352, R396, R416). -/
def Obligations.FramesWithinAPart : Prop :=
  (∀ (f : Feed) (mv outMv gateMv : Nat) (s : State),
    Leaves (.feedRampComplete f mv outMv gateMv) s fun t => feedOf t (otherFeed f) = feedOf s (otherFeed f)) ∧
  (∀ (f : Feed) (ma : Nat) (s : State),
    Leaves (.currentLimitExit f ma) s fun t => feedOf t (otherFeed f) = feedOf s (otherFeed f)) ∧
  (∀ (l : Lane) (levels : BitVec 130) (s : State), (laneOf s l).st = .hunting →
    LeavesSettling (.weftBlockReceive l levels) s fun t => (∀ m : Lane, m ≠ l → laneOf t m = laneOf s m) ∧ t.weft = s.weft) ∧
  (∀ (p : Port) (s : State), Leaves (.alignSend p) s fun t => ∀ q : Port, q ≠ p → weftPort t q = weftPort s q) ∧
  (∀ (p : Port) (s : State), Leaves (.flitSend p) s fun t => ∀ q : Port, q ≠ p → weftPort t q = weftPort s q) ∧
  (∀ (k : Slot) (s : State),
    Leaves (.slotPowerOn k) s fun t => (∀ m : Slot, m ≠ k → slotState t m = slotState s m) ∧ t.warp.port = s.warp.port ∧ t.warp.part = s.warp.part) ∧
  (∀ (k : Slot) (s : State),
    Leaves (.slotPwrenClear k) s fun t => (∀ m : Slot, m ≠ k → slotState t m = slotState s m) ∧ t.warp.port = s.warp.port ∧ t.warp.part = s.warp.part) ∧
  (∀ (p : Port) (s : State),
    Leaves (.dpcRelease p) s fun t => (∀ q : Port, q ≠ p → warpPort t q = warpPort s q) ∧ t.warp.slot = s.warp.slot ∧ t.warp.part = s.warp.part) ∧
  (∀ (v : Vs) (s : State),
    Leaves (.perstDeassert v) s fun t => (∀ w : Vs, w ≠ v → partOf t w = partOf s w) ∧ t.warp.slot = s.warp.slot ∧ t.warp.port = s.warp.port) ∧
  (∀ (v : Vs) (s : State),
    Leaves (.routingStateError v) s fun t => (∀ w : Vs, w ≠ v → partOf t w = partOf s w) ∧ t.warp.slot = s.warp.slot ∧ t.warp.port = s.warp.port) ∧
  (∀ (w : Fin 65536) (s : State),
    Leaves (.windowRevokeComplete w) s fun t => (∀ x : Nat, x ≠ w → winOf t x = winOf s x) ∧ t.win.imports = s.win.imports ∧ t.win.unseen = s.win.unseen) ∧
  (∀ (s : State),
    Leaves (.importSetGen) s fun t => t.win.windows = s.win.windows ∧ (∀ (n : Nat) (x y : Import), Tbl.find? s.win.imports n = some x → Tbl.find? t.win.imports n = some y → y = { x with gen := y.gen })) ∧
  (∀ (i : Inst) (value : Nat) (s : State),
    Leaves (.vfMsgRing i value) s fun t => ∀ j : Nat, j ≠ i → instOf t j = instOf s j) ∧
  (∀ (v : Vs) (value : Nat) (s : State), Leaves (.admqCtrl v value) s fun t => ∀ w : Vs, w ≠ v → admOf t w = admOf s w) ∧
  (∀ (v : Vs) (k : Fin 16) (value : BitVec 32) (s : State),
    Leaves (.semWrite v k value) s fun t => (∀ j : Fin 16, j ≠ k → vget t.dob.sem j 0 = vget s.dob.sem j 0) ∧ t.dob.items = s.dob.items ∧ t.dob.raises = s.dob.raises)

/-- Sequence numbers are compared modulo 2^32 (R242). -/
def Obligations.SequenceOrder : Prop :=
  (∀ s t : BitVec 32, seqBefore s.toNat t.toNat = true ↔ 1 ≤ (t - s).toNat ∧ (t - s).toNat ≤ 2 ^ 31) ∧
  (∀ s t k : BitVec 32, seqBefore (s + k).toNat (t + k).toNat = seqBefore s.toNat t.toNat)

/-- What a class may do at a region, and which bits no installer sets (R328). -/
def Obligations.ClassRights : Prop :=
  (∀ (s : State) (h w : Nat) (a : Access), heddleCheck s h a = .region w →
    (a.kind = 0 → bit w (192 + a.cls) = true) ∧ (a.kind = 1 ∨ a.kind = 3 → bit w (128 + a.cls) = true) ∧
    (a.kind = 2 → bit w (192 + a.cls) = true ∧ bit w (128 + a.cls) = true)) ∧
  (∀ (s : State) (sess h r c : Nat), MayAct s sess 0x5000 2 1 → h < 130 → r < 64 → lockedRegion h r = false → 50 ≤ c → c < 64 →
    bit (pendingRegion s h r) (192 + c) = true ∨ bit (pendingRegion s h r) (128 + c) = true →
    Leaves (.hedCommit sess 1) s fun t => t.hed.active = s.hed.active ∧ t.hed.own = s.hed.own ∧ t.hed.map = s.hed.map) ∧
  (∀ (s : State) (r c : Nat), lockedRegion 128 r = true → 51 ≤ c → c < 64 →
    bit (activeRegion s 128 r) (192 + c) = false ∧ bit (activeRegion s 128 r) (128 + c) = false)

/-- Accesses of length 0 start no cycle on the backplane (R387). -/
def Obligations.ZeroLengthAccesses : Prop :=
  (∀ (s : State) (it : DobItem), dobPins s = true → s.dob.cycle = none → s.dob.iack = none → s.dob.inbound = none → s.dob.lock = none →
    s.dob.busWanted = none → s.dob.items.head? = some it → it.split = false → enabledBytes it.tlp = [] →
    isAtomic it.tlp = false → it.tlp.kind ≠ .memReadLocked →
    Leaves .vmeCycleStart s fun t => t.dob.cycle = none ∧ t.dob.items.all (fun j => j.item ≠ it.item) = true ∧
      t = itemDone s it (if it.posted then [] else leBytes 4 0))

end
end

