-- ==== Sys2Proof/Laws/Memory.lean ====
section
/-!
SUPPORT. Byte memories: every operation keeps the canonical form, and what a write leaves to be read.
-/

namespace Sys2Proof.Machine

theorem Memory.wf_iff (m : Memory) :
    Memory.wf m = true ↔ (m.map Prod.fst).Pairwise (· < ·) ∧ ∀ c ∈ m, c.2 ≠ Memory.blank := by
  simp [Memory.wf]

theorem Memory.wf_nil : Memory.wf [] = true := by decide

theorem Memory.wf_filter (m : Memory) (p : Host.Cell → Bool) (h : Memory.wf m = true) : Memory.wf (m.filter p) = true := by
  rw [Memory.wf_iff] at h ⊢
  exact ⟨h.1.sublist (List.Sublist.map _ List.filter_sublist), fun c hc => h.2 c (List.mem_filter.mp hc).1⟩

theorem Memory.mem_insert {m : Memory} {a : Nat} {b : Byte} {c : Host.Cell} (h : c ∈ Memory.insert m a b) : c = (a, b) ∨ c ∈ m := by
  induction m with
  | nil => simpa [Memory.insert] using h
  | cons d m ih =>
    obtain ⟨k, v⟩ := d
    simp only [Memory.insert] at h
    split at h
    · simpa using h
    · split at h
      · rcases List.mem_cons.mp h with e | e
        · exact .inl e
        · exact .inr (List.mem_cons_of_mem _ e)
      · rcases List.mem_cons.mp h with e | e
        · exact .inr (e ▸ List.mem_cons_self)
        · rcases ih e with e | e
          · exact .inl e
          · exact .inr (List.mem_cons_of_mem _ e)

theorem Memory.wf_insert (m : Memory) (a : Nat) (b : Byte) (hb : b ≠ Memory.blank) (h : Memory.wf m = true) :
    Memory.wf (Memory.insert m a b) = true := by
  induction m with
  | nil => simp [Memory.insert, Memory.wf_iff, hb]
  | cons d m ih =>
    obtain ⟨k, v⟩ := d
    have hw := (Memory.wf_iff _).mp h
    have hp := List.pairwise_cons.mp (by simpa using hw.1 : ((k :: m.map Prod.fst).Pairwise (· < ·)))
    have hm : Memory.wf m = true := (Memory.wf_iff _).mpr ⟨hp.2, fun c hc => hw.2 c (List.mem_cons_of_mem _ hc)⟩
    simp only [Memory.insert]
    split
    · next hlt =>
      refine (Memory.wf_iff _).mpr ⟨?_, ?_⟩
      · simp only [List.map_cons, List.pairwise_cons]
        refine ⟨fun x hx => ?_, hp⟩
        rcases List.mem_cons.mp hx with e | e
        · exact e ▸ hlt
        · exact Nat.lt_trans hlt (hp.1 x e)
      · intro c hc
        rcases List.mem_cons.mp hc with e | e
        · exact e ▸ hb
        · exact hw.2 c e
    · split
      · next he =>
        refine (Memory.wf_iff _).mpr ⟨?_, ?_⟩
        · simpa [he] using hp
        · intro c hc
          rcases List.mem_cons.mp hc with e | e
          · exact e ▸ hb
          · exact hw.2 c (List.mem_cons_of_mem _ e)
      · next hn hne =>
        have hi := (Memory.wf_iff _).mp (ih hm)
        refine (Memory.wf_iff _).mpr ⟨?_, ?_⟩
        · simp only [List.map_cons, List.pairwise_cons]
          refine ⟨fun x hx => ?_, hi.1⟩
          obtain ⟨c, hc, rfl⟩ := List.mem_map.mp hx
          rcases Memory.mem_insert hc with e | e
          · subst e
            exact Nat.lt_of_le_of_ne (Nat.le_of_not_lt hn) (fun e => hne e.symm)
          · exact hp.1 _ (List.mem_map_of_mem e)
        · intro c hc
          rcases List.mem_cons.mp hc with e | e
          · exact e ▸ hw.2 _ List.mem_cons_self
          · exact hi.2 c e

theorem Memory.wf_write (m : Memory) (a : Nat) (b : Byte) (h : Memory.wf m = true) : Memory.wf (Memory.write m a b) = true := by
  unfold Memory.write
  split
  · exact Memory.wf_filter m _ h
  · next hb => exact Memory.wf_insert m a b hb h

theorem Memory.wf_writeBytes (bs : List Byte) (m : Memory) (a : Nat) (h : Memory.wf m = true) :
    Memory.wf (Memory.writeBytes m a bs) = true := by
  induction bs generalizing m a with
  | nil => exact h
  | cons b bs ih => exact ih _ _ (Memory.wf_write m a b h)

/-! ### What is read after a write -/

theorem Memory.read_filter_other (m : Memory) (a x : Nat) (hx : x ≠ a) :
    Memory.read (m.filter fun c => c.1 ≠ a) x = Memory.read m x := by
  induction m with
  | nil => rfl
  | cons d m ih =>
    obtain ⟨k, v⟩ := d
    by_cases hk : k = a
    · subst hk
      rw [List.filter_cons_of_neg (by simp), ih]
      simp [Memory.read, hx]
    · rw [List.filter_cons_of_pos (by simpa using hk)]
      simp only [Memory.read, ih]

theorem Memory.read_filter_same (m : Memory) (a : Nat) : Memory.read (m.filter fun c => c.1 ≠ a) a = Memory.blank := by
  induction m with
  | nil => rfl
  | cons d m ih =>
    obtain ⟨k, v⟩ := d
    by_cases hk : k = a
    · rw [List.filter_cons_of_neg (by simpa using hk), ih]
    · rw [List.filter_cons_of_pos (by simpa using hk)]
      simp only [Memory.read, ih]
      rw [if_neg (fun e => hk e.symm)]

theorem Memory.read_insert (m : Memory) (a x : Nat) (b : Byte) :
    Memory.read (Memory.insert m a b) x = if x = a then b else Memory.read m x := by
  induction m with
  | nil => simp [Memory.insert, Memory.read]
  | cons d m ih =>
    obtain ⟨k, v⟩ := d
    simp only [Memory.insert]
    split
    · simp [Memory.read]
    · split
      · next h => subst h; simp only [Memory.read]; split <;> rfl
      · next h1 h2 =>
        simp only [Memory.read, ih]
        split
        · next e => rw [if_neg (by omega)]
        · rfl

/-- A byte written is read back, and every other address reads as before. -/
theorem Memory.read_write (m : Memory) (a x : Nat) (b : Byte) :
    Memory.read (Memory.write m a b) x = if x = a then b else Memory.read m x := by
  unfold Memory.write
  split
  · next hb =>
    split
    · next e => rw [e, Memory.read_filter_same, hb]
    · next e => exact Memory.read_filter_other m a x e
  · exact Memory.read_insert m a x b

/-- Bytes written are read back in their place, and every address outside them reads as before. -/
theorem Memory.read_writeBytes (bs : List Byte) (m : Memory) (a x : Nat) :
    Memory.read (Memory.writeBytes m a bs) x =
      if a ≤ x ∧ x < a + bs.length then bs.getD (x - a) Memory.blank else Memory.read m x := by
  induction bs generalizing m a with
  | nil => simp [Memory.writeBytes]
  | cons b bs ih =>
    simp only [Memory.writeBytes, ih, Memory.read_write, List.length_cons]
    by_cases h : x = a
    · subst h
      rw [if_neg (by omega), if_pos rfl, if_pos (by omega)]
      simp
    · by_cases h2 : a + 1 ≤ x ∧ x < a + 1 + bs.length
      · rw [if_pos h2, if_pos (by omega)]
        have : x - a = (x - (a + 1)) + 1 := by omega
        rw [this, List.getD_cons_succ]
      · rw [if_neg h2, if_neg h, if_neg (by omega)]

end Sys2Proof.Machine
end

