-- ==== Sys2Proof/Laws/Keeps.lean ====
section
/-!
SUPPORT. The relation `Keeps m s t`: what no command of the block does to the state, and which blocks it may touch. Block `i` may
differ between `s` and `t` only where bit `i` of `m` is set. Every function of the model that returns a state has one lemma
`<name>_keeps` in the files beside this one.
-/

namespace Sys2Proof.Laws

open Sys2Proof.Machine


/-- From `s` to `t` the queue and the clock stand, outputs are only added, draws are only made, PGOOD_x stays exact, memories stay
canonical, and a block changes only where the mask `m` has its bit. -/
structure Keeps (m : Nat) (s t : State) : Prop where
  pending : t.pending = s.pending
  now : t.now = s.now
  tx : s.tx <+: t.tx
  drawn : s.drawn ≤ t.drawn
  freeDraws : s.freeDraws ≤ t.freeDraws
  feeds : PgoodExact s → PgoodExact t
  mem : Memories s → Memories t
  ft : m.testBit 0 = false → t.ft = s.ft
  cfg : m.testBit 1 = false → t.cfg = s.cfg
  flash : m.testBit 2 = false → t.flash = s.flash
  module : m.testBit 3 = false → t.module = s.module
  power : m.testBit 4 = false → t.power = s.power
  gov : m.testBit 5 = false → t.gov = s.gov
  lanes : m.testBit 6 = false → t.lanes = s.lanes
  weft : m.testBit 7 = false → t.weft = s.weft
  warp : m.testBit 8 = false → t.warp = s.warp
  loom : m.testBit 9 = false → t.loom = s.loom
  fab : m.testBit 10 = false → t.fab = s.fab
  shu : m.testBit 11 = false → t.shu = s.shu
  win : m.testBit 12 = false → t.win = s.win
  eng : m.testBit 13 = false → t.eng = s.eng
  hed : m.testBit 14 = false → t.hed = s.hed
  sel : m.testBit 15 = false → t.sel = s.sel
  twin : m.testBit 16 = false → t.twin = s.twin
  dob : m.testBit 17 = false → t.dob = s.dob
  mgmt : m.testBit 18 = false → t.mgmt = s.mgmt
  vault : m.testBit 19 = false → t.vault = s.vault
  obs : m.testBit 20 = false → t.obs = s.obs
  host : m.testBit 21 = false → t.host = s.host
  beam : m.testBit 22 = false → t.beam = s.beam

/-! ### Order -/

theorem Keeps.refl {m : Nat} (s : State) : Keeps m s s where
  pending := rfl
  now := rfl
  tx := List.prefix_rfl
  drawn := Nat.le_refl _
  freeDraws := Nat.le_refl _
  feeds := id
  mem := id
  ft := fun _ => rfl
  cfg := fun _ => rfl
  flash := fun _ => rfl
  module := fun _ => rfl
  power := fun _ => rfl
  gov := fun _ => rfl
  lanes := fun _ => rfl
  weft := fun _ => rfl
  warp := fun _ => rfl
  loom := fun _ => rfl
  fab := fun _ => rfl
  shu := fun _ => rfl
  win := fun _ => rfl
  eng := fun _ => rfl
  hed := fun _ => rfl
  sel := fun _ => rfl
  twin := fun _ => rfl
  dob := fun _ => rfl
  mgmt := fun _ => rfl
  vault := fun _ => rfl
  obs := fun _ => rfl
  host := fun _ => rfl
  beam := fun _ => rfl

theorem Keeps.trans {m : Nat} {s t u : State} (h : Keeps m s t) (k : Keeps m t u) : Keeps m s u where
  pending := k.pending.trans h.pending
  now := k.now.trans h.now
  tx := h.tx.trans k.tx
  drawn := Nat.le_trans h.drawn k.drawn
  freeDraws := Nat.le_trans h.freeDraws k.freeDraws
  feeds := fun x => k.feeds (h.feeds x)
  mem := fun x => k.mem (h.mem x)
  ft := fun x => (k.ft x).trans (h.ft x)
  cfg := fun x => (k.cfg x).trans (h.cfg x)
  flash := fun x => (k.flash x).trans (h.flash x)
  module := fun x => (k.module x).trans (h.module x)
  power := fun x => (k.power x).trans (h.power x)
  gov := fun x => (k.gov x).trans (h.gov x)
  lanes := fun x => (k.lanes x).trans (h.lanes x)
  weft := fun x => (k.weft x).trans (h.weft x)
  warp := fun x => (k.warp x).trans (h.warp x)
  loom := fun x => (k.loom x).trans (h.loom x)
  fab := fun x => (k.fab x).trans (h.fab x)
  shu := fun x => (k.shu x).trans (h.shu x)
  win := fun x => (k.win x).trans (h.win x)
  eng := fun x => (k.eng x).trans (h.eng x)
  hed := fun x => (k.hed x).trans (h.hed x)
  sel := fun x => (k.sel x).trans (h.sel x)
  twin := fun x => (k.twin x).trans (h.twin x)
  dob := fun x => (k.dob x).trans (h.dob x)
  mgmt := fun x => (k.mgmt x).trans (h.mgmt x)
  vault := fun x => (k.vault x).trans (h.vault x)
  obs := fun x => (k.obs x).trans (h.obs x)
  host := fun x => (k.host x).trans (h.host x)
  beam := fun x => (k.beam x).trans (h.beam x)

/-- A bit of a mask stands in every mask above it. -/
theorem clear_of_sub {a m i : Nat} (hs : a &&& m = a) (h : m.testBit i = false) : a.testBit i = false := by
  rw [← hs, Nat.testBit_and, h, Bool.and_false]

theorem Keeps.weaken {a m : Nat} {s t : State} (h : Keeps a s t) (hs : a &&& m = a) : Keeps m s t where
  pending := h.pending
  now := h.now
  tx := h.tx
  drawn := h.drawn
  freeDraws := h.freeDraws
  feeds := h.feeds
  mem := h.mem
  ft := fun x => h.ft (clear_of_sub hs x)
  cfg := fun x => h.cfg (clear_of_sub hs x)
  flash := fun x => h.flash (clear_of_sub hs x)
  module := fun x => h.module (clear_of_sub hs x)
  power := fun x => h.power (clear_of_sub hs x)
  gov := fun x => h.gov (clear_of_sub hs x)
  lanes := fun x => h.lanes (clear_of_sub hs x)
  weft := fun x => h.weft (clear_of_sub hs x)
  warp := fun x => h.warp (clear_of_sub hs x)
  loom := fun x => h.loom (clear_of_sub hs x)
  fab := fun x => h.fab (clear_of_sub hs x)
  shu := fun x => h.shu (clear_of_sub hs x)
  win := fun x => h.win (clear_of_sub hs x)
  eng := fun x => h.eng (clear_of_sub hs x)
  hed := fun x => h.hed (clear_of_sub hs x)
  sel := fun x => h.sel (clear_of_sub hs x)
  twin := fun x => h.twin (clear_of_sub hs x)
  dob := fun x => h.dob (clear_of_sub hs x)
  mgmt := fun x => h.mgmt (clear_of_sub hs x)
  vault := fun x => h.vault (clear_of_sub hs x)
  obs := fun x => h.obs (clear_of_sub hs x)
  host := fun x => h.host (clear_of_sub hs x)
  beam := fun x => h.beam (clear_of_sub hs x)

/-! ### One block replaced -/

theorem Keeps.ft' {m : Nat} {s t : State} (h : Keeps m s t) (x : Nat) (hm : m.testBit 0 = true) : Keeps m s { t with ft := x } where
  pending := h.pending
  now := h.now
  tx := h.tx
  drawn := h.drawn
  freeDraws := h.freeDraws
  feeds := h.feeds
  mem := h.mem
  ft := fun e => absurd (hm.symm.trans e) Bool.noConfusion
  cfg := h.cfg
  flash := h.flash
  module := h.module
  power := h.power
  gov := h.gov
  lanes := h.lanes
  weft := h.weft
  warp := h.warp
  loom := h.loom
  fab := h.fab
  shu := h.shu
  win := h.win
  eng := h.eng
  hed := h.hed
  sel := h.sel
  twin := h.twin
  dob := h.dob
  mgmt := h.mgmt
  vault := h.vault
  obs := h.obs
  host := h.host
  beam := h.beam

theorem Keeps.cfg' {m : Nat} {s t : State} (h : Keeps m s t) (x : Tbl Nat) (hm : m.testBit 1 = true) : Keeps m s { t with cfg := x } where
  pending := h.pending
  now := h.now
  tx := h.tx
  drawn := h.drawn
  freeDraws := h.freeDraws
  feeds := h.feeds
  mem := h.mem
  ft := h.ft
  cfg := fun e => absurd (hm.symm.trans e) Bool.noConfusion
  flash := h.flash
  module := h.module
  power := h.power
  gov := h.gov
  lanes := h.lanes
  weft := h.weft
  warp := h.warp
  loom := h.loom
  fab := h.fab
  shu := h.shu
  win := h.win
  eng := h.eng
  hed := h.hed
  sel := h.sel
  twin := h.twin
  dob := h.dob
  mgmt := h.mgmt
  vault := h.vault
  obs := h.obs
  host := h.host
  beam := h.beam

theorem Keeps.flash' {m : Nat} {s t : State} (h : Keeps m s t) (x : Tbl Nat) (hm : m.testBit 2 = true) : Keeps m s { t with flash := x } where
  pending := h.pending
  now := h.now
  tx := h.tx
  drawn := h.drawn
  freeDraws := h.freeDraws
  feeds := h.feeds
  mem := h.mem
  ft := h.ft
  cfg := h.cfg
  flash := fun e => absurd (hm.symm.trans e) Bool.noConfusion
  module := h.module
  power := h.power
  gov := h.gov
  lanes := h.lanes
  weft := h.weft
  warp := h.warp
  loom := h.loom
  fab := h.fab
  shu := h.shu
  win := h.win
  eng := h.eng
  hed := h.hed
  sel := h.sel
  twin := h.twin
  dob := h.dob
  mgmt := h.mgmt
  vault := h.vault
  obs := h.obs
  host := h.host
  beam := h.beam

theorem Keeps.module' {m : Nat} {s t : State} (h : Keeps m s t) (x : ModBlk) (hm : m.testBit 3 = true) : Keeps m s { t with module := x } where
  pending := h.pending
  now := h.now
  tx := h.tx
  drawn := h.drawn
  freeDraws := h.freeDraws
  feeds := h.feeds
  mem := h.mem
  ft := h.ft
  cfg := h.cfg
  flash := h.flash
  module := fun e => absurd (hm.symm.trans e) Bool.noConfusion
  power := h.power
  gov := h.gov
  lanes := h.lanes
  weft := h.weft
  warp := h.warp
  loom := h.loom
  fab := h.fab
  shu := h.shu
  win := h.win
  eng := h.eng
  hed := h.hed
  sel := h.sel
  twin := h.twin
  dob := h.dob
  mgmt := h.mgmt
  vault := h.vault
  obs := h.obs
  host := h.host
  beam := h.beam

theorem Keeps.gov' {m : Nat} {s t : State} (h : Keeps m s t) (x : GovBlk) (hm : m.testBit 5 = true) : Keeps m s { t with gov := x } where
  pending := h.pending
  now := h.now
  tx := h.tx
  drawn := h.drawn
  freeDraws := h.freeDraws
  feeds := h.feeds
  mem := h.mem
  ft := h.ft
  cfg := h.cfg
  flash := h.flash
  module := h.module
  power := h.power
  gov := fun e => absurd (hm.symm.trans e) Bool.noConfusion
  lanes := h.lanes
  weft := h.weft
  warp := h.warp
  loom := h.loom
  fab := h.fab
  shu := h.shu
  win := h.win
  eng := h.eng
  hed := h.hed
  sel := h.sel
  twin := h.twin
  dob := h.dob
  mgmt := h.mgmt
  vault := h.vault
  obs := h.obs
  host := h.host
  beam := h.beam

theorem Keeps.lanes' {m : Nat} {s t : State} (h : Keeps m s t) (x : LanesBlk) (hm : m.testBit 6 = true) : Keeps m s { t with lanes := x } where
  pending := h.pending
  now := h.now
  tx := h.tx
  drawn := h.drawn
  freeDraws := h.freeDraws
  feeds := h.feeds
  mem := h.mem
  ft := h.ft
  cfg := h.cfg
  flash := h.flash
  module := h.module
  power := h.power
  gov := h.gov
  lanes := fun e => absurd (hm.symm.trans e) Bool.noConfusion
  weft := h.weft
  warp := h.warp
  loom := h.loom
  fab := h.fab
  shu := h.shu
  win := h.win
  eng := h.eng
  hed := h.hed
  sel := h.sel
  twin := h.twin
  dob := h.dob
  mgmt := h.mgmt
  vault := h.vault
  obs := h.obs
  host := h.host
  beam := h.beam

theorem Keeps.weft' {m : Nat} {s t : State} (h : Keeps m s t) (x : WeftBlk) (hm : m.testBit 7 = true) : Keeps m s { t with weft := x } where
  pending := h.pending
  now := h.now
  tx := h.tx
  drawn := h.drawn
  freeDraws := h.freeDraws
  feeds := h.feeds
  mem := h.mem
  ft := h.ft
  cfg := h.cfg
  flash := h.flash
  module := h.module
  power := h.power
  gov := h.gov
  lanes := h.lanes
  weft := fun e => absurd (hm.symm.trans e) Bool.noConfusion
  warp := h.warp
  loom := h.loom
  fab := h.fab
  shu := h.shu
  win := h.win
  eng := h.eng
  hed := h.hed
  sel := h.sel
  twin := h.twin
  dob := h.dob
  mgmt := h.mgmt
  vault := h.vault
  obs := h.obs
  host := h.host
  beam := h.beam

theorem Keeps.warp' {m : Nat} {s t : State} (h : Keeps m s t) (x : WarpBlk) (hm : m.testBit 8 = true) : Keeps m s { t with warp := x } where
  pending := h.pending
  now := h.now
  tx := h.tx
  drawn := h.drawn
  freeDraws := h.freeDraws
  feeds := h.feeds
  mem := h.mem
  ft := h.ft
  cfg := h.cfg
  flash := h.flash
  module := h.module
  power := h.power
  gov := h.gov
  lanes := h.lanes
  weft := h.weft
  warp := fun e => absurd (hm.symm.trans e) Bool.noConfusion
  loom := h.loom
  fab := h.fab
  shu := h.shu
  win := h.win
  eng := h.eng
  hed := h.hed
  sel := h.sel
  twin := h.twin
  dob := h.dob
  mgmt := h.mgmt
  vault := h.vault
  obs := h.obs
  host := h.host
  beam := h.beam

theorem Keeps.loom' {m : Nat} {s t : State} (h : Keeps m s t) (x : LoomBlk) (hm : m.testBit 9 = true) : Keeps m s { t with loom := x } where
  pending := h.pending
  now := h.now
  tx := h.tx
  drawn := h.drawn
  freeDraws := h.freeDraws
  feeds := h.feeds
  mem := h.mem
  ft := h.ft
  cfg := h.cfg
  flash := h.flash
  module := h.module
  power := h.power
  gov := h.gov
  lanes := h.lanes
  weft := h.weft
  warp := h.warp
  loom := fun e => absurd (hm.symm.trans e) Bool.noConfusion
  fab := h.fab
  shu := h.shu
  win := h.win
  eng := h.eng
  hed := h.hed
  sel := h.sel
  twin := h.twin
  dob := h.dob
  mgmt := h.mgmt
  vault := h.vault
  obs := h.obs
  host := h.host
  beam := h.beam

theorem Keeps.fab' {m : Nat} {s t : State} (h : Keeps m s t) (x : FabBlk) (hm : m.testBit 10 = true) : Keeps m s { t with fab := x } where
  pending := h.pending
  now := h.now
  tx := h.tx
  drawn := h.drawn
  freeDraws := h.freeDraws
  feeds := h.feeds
  mem := h.mem
  ft := h.ft
  cfg := h.cfg
  flash := h.flash
  module := h.module
  power := h.power
  gov := h.gov
  lanes := h.lanes
  weft := h.weft
  warp := h.warp
  loom := h.loom
  fab := fun e => absurd (hm.symm.trans e) Bool.noConfusion
  shu := h.shu
  win := h.win
  eng := h.eng
  hed := h.hed
  sel := h.sel
  twin := h.twin
  dob := h.dob
  mgmt := h.mgmt
  vault := h.vault
  obs := h.obs
  host := h.host
  beam := h.beam

theorem Keeps.shu' {m : Nat} {s t : State} (h : Keeps m s t) (x : ShuBlk) (hm : m.testBit 11 = true) : Keeps m s { t with shu := x } where
  pending := h.pending
  now := h.now
  tx := h.tx
  drawn := h.drawn
  freeDraws := h.freeDraws
  feeds := h.feeds
  mem := h.mem
  ft := h.ft
  cfg := h.cfg
  flash := h.flash
  module := h.module
  power := h.power
  gov := h.gov
  lanes := h.lanes
  weft := h.weft
  warp := h.warp
  loom := h.loom
  fab := h.fab
  shu := fun e => absurd (hm.symm.trans e) Bool.noConfusion
  win := h.win
  eng := h.eng
  hed := h.hed
  sel := h.sel
  twin := h.twin
  dob := h.dob
  mgmt := h.mgmt
  vault := h.vault
  obs := h.obs
  host := h.host
  beam := h.beam

theorem Keeps.win' {m : Nat} {s t : State} (h : Keeps m s t) (x : WinBlk) (hm : m.testBit 12 = true) : Keeps m s { t with win := x } where
  pending := h.pending
  now := h.now
  tx := h.tx
  drawn := h.drawn
  freeDraws := h.freeDraws
  feeds := h.feeds
  mem := h.mem
  ft := h.ft
  cfg := h.cfg
  flash := h.flash
  module := h.module
  power := h.power
  gov := h.gov
  lanes := h.lanes
  weft := h.weft
  warp := h.warp
  loom := h.loom
  fab := h.fab
  shu := h.shu
  win := fun e => absurd (hm.symm.trans e) Bool.noConfusion
  eng := h.eng
  hed := h.hed
  sel := h.sel
  twin := h.twin
  dob := h.dob
  mgmt := h.mgmt
  vault := h.vault
  obs := h.obs
  host := h.host
  beam := h.beam

theorem Keeps.eng' {m : Nat} {s t : State} (h : Keeps m s t) (x : EngBlk) (hm : m.testBit 13 = true) : Keeps m s { t with eng := x } where
  pending := h.pending
  now := h.now
  tx := h.tx
  drawn := h.drawn
  freeDraws := h.freeDraws
  feeds := h.feeds
  mem := h.mem
  ft := h.ft
  cfg := h.cfg
  flash := h.flash
  module := h.module
  power := h.power
  gov := h.gov
  lanes := h.lanes
  weft := h.weft
  warp := h.warp
  loom := h.loom
  fab := h.fab
  shu := h.shu
  win := h.win
  eng := fun e => absurd (hm.symm.trans e) Bool.noConfusion
  hed := h.hed
  sel := h.sel
  twin := h.twin
  dob := h.dob
  mgmt := h.mgmt
  vault := h.vault
  obs := h.obs
  host := h.host
  beam := h.beam

theorem Keeps.hed' {m : Nat} {s t : State} (h : Keeps m s t) (x : HedBlk) (hm : m.testBit 14 = true) : Keeps m s { t with hed := x } where
  pending := h.pending
  now := h.now
  tx := h.tx
  drawn := h.drawn
  freeDraws := h.freeDraws
  feeds := h.feeds
  mem := h.mem
  ft := h.ft
  cfg := h.cfg
  flash := h.flash
  module := h.module
  power := h.power
  gov := h.gov
  lanes := h.lanes
  weft := h.weft
  warp := h.warp
  loom := h.loom
  fab := h.fab
  shu := h.shu
  win := h.win
  eng := h.eng
  hed := fun e => absurd (hm.symm.trans e) Bool.noConfusion
  sel := h.sel
  twin := h.twin
  dob := h.dob
  mgmt := h.mgmt
  vault := h.vault
  obs := h.obs
  host := h.host
  beam := h.beam

theorem Keeps.sel' {m : Nat} {s t : State} (h : Keeps m s t) (x : SelBlk) (hm : m.testBit 15 = true) : Keeps m s { t with sel := x } where
  pending := h.pending
  now := h.now
  tx := h.tx
  drawn := h.drawn
  freeDraws := h.freeDraws
  feeds := h.feeds
  mem := h.mem
  ft := h.ft
  cfg := h.cfg
  flash := h.flash
  module := h.module
  power := h.power
  gov := h.gov
  lanes := h.lanes
  weft := h.weft
  warp := h.warp
  loom := h.loom
  fab := h.fab
  shu := h.shu
  win := h.win
  eng := h.eng
  hed := h.hed
  sel := fun e => absurd (hm.symm.trans e) Bool.noConfusion
  twin := h.twin
  dob := h.dob
  mgmt := h.mgmt
  vault := h.vault
  obs := h.obs
  host := h.host
  beam := h.beam

theorem Keeps.twin' {m : Nat} {s t : State} (h : Keeps m s t) (x : TwinBlk) (hm : m.testBit 16 = true) : Keeps m s { t with twin := x } where
  pending := h.pending
  now := h.now
  tx := h.tx
  drawn := h.drawn
  freeDraws := h.freeDraws
  feeds := h.feeds
  mem := h.mem
  ft := h.ft
  cfg := h.cfg
  flash := h.flash
  module := h.module
  power := h.power
  gov := h.gov
  lanes := h.lanes
  weft := h.weft
  warp := h.warp
  loom := h.loom
  fab := h.fab
  shu := h.shu
  win := h.win
  eng := h.eng
  hed := h.hed
  sel := h.sel
  twin := fun e => absurd (hm.symm.trans e) Bool.noConfusion
  dob := h.dob
  mgmt := h.mgmt
  vault := h.vault
  obs := h.obs
  host := h.host
  beam := h.beam

theorem Keeps.dob' {m : Nat} {s t : State} (h : Keeps m s t) (x : DobBlk) (hm : m.testBit 17 = true) : Keeps m s { t with dob := x } where
  pending := h.pending
  now := h.now
  tx := h.tx
  drawn := h.drawn
  freeDraws := h.freeDraws
  feeds := h.feeds
  mem := h.mem
  ft := h.ft
  cfg := h.cfg
  flash := h.flash
  module := h.module
  power := h.power
  gov := h.gov
  lanes := h.lanes
  weft := h.weft
  warp := h.warp
  loom := h.loom
  fab := h.fab
  shu := h.shu
  win := h.win
  eng := h.eng
  hed := h.hed
  sel := h.sel
  twin := h.twin
  dob := fun e => absurd (hm.symm.trans e) Bool.noConfusion
  mgmt := h.mgmt
  vault := h.vault
  obs := h.obs
  host := h.host
  beam := h.beam

theorem Keeps.mgmt' {m : Nat} {s t : State} (h : Keeps m s t) (x : MgmtBlk) (hm : m.testBit 18 = true) : Keeps m s { t with mgmt := x } where
  pending := h.pending
  now := h.now
  tx := h.tx
  drawn := h.drawn
  freeDraws := h.freeDraws
  feeds := h.feeds
  mem := h.mem
  ft := h.ft
  cfg := h.cfg
  flash := h.flash
  module := h.module
  power := h.power
  gov := h.gov
  lanes := h.lanes
  weft := h.weft
  warp := h.warp
  loom := h.loom
  fab := h.fab
  shu := h.shu
  win := h.win
  eng := h.eng
  hed := h.hed
  sel := h.sel
  twin := h.twin
  dob := h.dob
  mgmt := fun e => absurd (hm.symm.trans e) Bool.noConfusion
  vault := h.vault
  obs := h.obs
  host := h.host
  beam := h.beam

theorem Keeps.vault' {m : Nat} {s t : State} (h : Keeps m s t) (x : VaultBlk) (hm : m.testBit 19 = true) : Keeps m s { t with vault := x } where
  pending := h.pending
  now := h.now
  tx := h.tx
  drawn := h.drawn
  freeDraws := h.freeDraws
  feeds := h.feeds
  mem := h.mem
  ft := h.ft
  cfg := h.cfg
  flash := h.flash
  module := h.module
  power := h.power
  gov := h.gov
  lanes := h.lanes
  weft := h.weft
  warp := h.warp
  loom := h.loom
  fab := h.fab
  shu := h.shu
  win := h.win
  eng := h.eng
  hed := h.hed
  sel := h.sel
  twin := h.twin
  dob := h.dob
  mgmt := h.mgmt
  vault := fun e => absurd (hm.symm.trans e) Bool.noConfusion
  obs := h.obs
  host := h.host
  beam := h.beam

theorem Keeps.obs' {m : Nat} {s t : State} (h : Keeps m s t) (x : ObsBlk) (hm : m.testBit 20 = true) : Keeps m s { t with obs := x } where
  pending := h.pending
  now := h.now
  tx := h.tx
  drawn := h.drawn
  freeDraws := h.freeDraws
  feeds := h.feeds
  mem := h.mem
  ft := h.ft
  cfg := h.cfg
  flash := h.flash
  module := h.module
  power := h.power
  gov := h.gov
  lanes := h.lanes
  weft := h.weft
  warp := h.warp
  loom := h.loom
  fab := h.fab
  shu := h.shu
  win := h.win
  eng := h.eng
  hed := h.hed
  sel := h.sel
  twin := h.twin
  dob := h.dob
  mgmt := h.mgmt
  vault := h.vault
  obs := fun e => absurd (hm.symm.trans e) Bool.noConfusion
  host := h.host
  beam := h.beam

/-! ### Blocks with a promise of their own -/

theorem Keeps.power' {m : Nat} {s t : State} (h : Keeps m s t) (x : PowerBlk) (hm : m.testBit 4 = true) (hx : PgoodExact t → FeedPgood x.a ∧ FeedPgood x.b) : Keeps m s { t with power := x } where
  pending := h.pending
  now := h.now
  tx := h.tx
  drawn := h.drawn
  freeDraws := h.freeDraws
  feeds := fun e => hx (h.feeds e)
  mem := h.mem
  ft := h.ft
  cfg := h.cfg
  flash := h.flash
  module := h.module
  power := fun e => absurd (hm.symm.trans e) Bool.noConfusion
  gov := h.gov
  lanes := h.lanes
  weft := h.weft
  warp := h.warp
  loom := h.loom
  fab := h.fab
  shu := h.shu
  win := h.win
  eng := h.eng
  hed := h.hed
  sel := h.sel
  twin := h.twin
  dob := h.dob
  mgmt := h.mgmt
  vault := h.vault
  obs := h.obs
  host := h.host
  beam := h.beam

theorem Keeps.tx' {m : Nat} {s t : State} (h : Keeps m s t) (x : List Emit) (hx : t.tx <+: x) : Keeps m s { t with tx := x } where
  pending := h.pending
  now := h.now
  tx := h.tx.trans hx
  drawn := h.drawn
  freeDraws := h.freeDraws
  feeds := h.feeds
  mem := h.mem
  ft := h.ft
  cfg := h.cfg
  flash := h.flash
  module := h.module
  power := h.power
  gov := h.gov
  lanes := h.lanes
  weft := h.weft
  warp := h.warp
  loom := h.loom
  fab := h.fab
  shu := h.shu
  win := h.win
  eng := h.eng
  hed := h.hed
  sel := h.sel
  twin := h.twin
  dob := h.dob
  mgmt := h.mgmt
  vault := h.vault
  obs := h.obs
  host := h.host
  beam := h.beam

theorem Keeps.drawn' {m : Nat} {s t : State} (h : Keeps m s t) (x : Nat) (hx : t.drawn ≤ x) : Keeps m s { t with drawn := x } where
  pending := h.pending
  now := h.now
  tx := h.tx
  drawn := Nat.le_trans h.drawn hx
  freeDraws := h.freeDraws
  feeds := h.feeds
  mem := h.mem
  ft := h.ft
  cfg := h.cfg
  flash := h.flash
  module := h.module
  power := h.power
  gov := h.gov
  lanes := h.lanes
  weft := h.weft
  warp := h.warp
  loom := h.loom
  fab := h.fab
  shu := h.shu
  win := h.win
  eng := h.eng
  hed := h.hed
  sel := h.sel
  twin := h.twin
  dob := h.dob
  mgmt := h.mgmt
  vault := h.vault
  obs := h.obs
  host := h.host
  beam := h.beam

theorem Keeps.freeDraws' {m : Nat} {s t : State} (h : Keeps m s t) (x : Nat) (hx : t.freeDraws ≤ x) : Keeps m s { t with freeDraws := x } where
  pending := h.pending
  now := h.now
  tx := h.tx
  drawn := h.drawn
  freeDraws := Nat.le_trans h.freeDraws hx
  feeds := h.feeds
  mem := h.mem
  ft := h.ft
  cfg := h.cfg
  flash := h.flash
  module := h.module
  power := h.power
  gov := h.gov
  lanes := h.lanes
  weft := h.weft
  warp := h.warp
  loom := h.loom
  fab := h.fab
  shu := h.shu
  win := h.win
  eng := h.eng
  hed := h.hed
  sel := h.sel
  twin := h.twin
  dob := h.dob
  mgmt := h.mgmt
  vault := h.vault
  obs := h.obs
  host := h.host
  beam := h.beam

theorem Keeps.host' {m : Nat} {s t : State} (h : Keeps m s t) (x : Vector Memory 32) (hm : m.testBit 21 = true)
    (hx : (∀ k, Memory.wf (vget t.host k []) = true) → ∀ k, Memory.wf (vget x k []) = true) : Keeps m s { t with host := x } where
  pending := h.pending
  now := h.now
  tx := h.tx
  drawn := h.drawn
  freeDraws := h.freeDraws
  feeds := h.feeds
  mem := fun e => ⟨hx (h.mem e).1, (h.mem e).2⟩
  ft := h.ft
  cfg := h.cfg
  flash := h.flash
  module := h.module
  power := h.power
  gov := h.gov
  lanes := h.lanes
  weft := h.weft
  warp := h.warp
  loom := h.loom
  fab := h.fab
  shu := h.shu
  win := h.win
  eng := h.eng
  hed := h.hed
  sel := h.sel
  twin := h.twin
  dob := h.dob
  mgmt := h.mgmt
  vault := h.vault
  obs := h.obs
  host := fun e => absurd (hm.symm.trans e) Bool.noConfusion
  beam := h.beam

/-- The state of a pair that a function gives. -/
theorem Keeps.ofPair {α : Type} {m : Nat} {s t : State} {p : State × α} {x : α} (e : p = (t, x)) (h : Keeps m s p.1) : Keeps m s t := by
  rw [e] at h
  exact h

theorem Keeps.beam' {m : Nat} {s t : State} (h : Keeps m s t) (x : Memory) (hm : m.testBit 22 = true) (hx : Memory.wf t.beam = true → Memory.wf x = true) : Keeps m s { t with beam := x } where
  pending := h.pending
  now := h.now
  tx := h.tx
  drawn := h.drawn
  freeDraws := h.freeDraws
  feeds := h.feeds
  mem := fun e => ⟨(h.mem e).1, hx (h.mem e).2⟩
  ft := h.ft
  cfg := h.cfg
  flash := h.flash
  module := h.module
  power := h.power
  gov := h.gov
  lanes := h.lanes
  weft := h.weft
  warp := h.warp
  loom := h.loom
  fab := h.fab
  shu := h.shu
  win := h.win
  eng := h.eng
  hed := h.hed
  sel := h.sel
  twin := h.twin
  dob := h.dob
  mgmt := h.mgmt
  vault := h.vault
  obs := h.obs
  host := h.host
  beam := fun e => absurd (hm.symm.trans e) Bool.noConfusion


/-- Several blocks replaced at once, but for the feeds, the memories and what only grows. -/
theorem Keeps.several {m : Nat} {s t : State} {ft' : Nat} {cfg' : Tbl Nat} {flash' : Tbl Nat} {module' : ModBlk} {gov' : GovBlk} {lanes' : LanesBlk} {weft' : WeftBlk} {warp' : WarpBlk} {loom' : LoomBlk} {fab' : FabBlk} {shu' : ShuBlk} {win' : WinBlk} {eng' : EngBlk} {hed' : HedBlk} {sel' : SelBlk} {twin' : TwinBlk} {dob' : DobBlk} {mgmt' : MgmtBlk} {vault' : VaultBlk} {obs' : ObsBlk}
    (h : Keeps m s t)
    (b : (ft' = t.ft ∨ m.testBit 0 = true) ∧
      (cfg' = t.cfg ∨ m.testBit 1 = true) ∧
      (flash' = t.flash ∨ m.testBit 2 = true) ∧
      (module' = t.module ∨ m.testBit 3 = true) ∧
      (gov' = t.gov ∨ m.testBit 5 = true) ∧
      (lanes' = t.lanes ∨ m.testBit 6 = true) ∧
      (weft' = t.weft ∨ m.testBit 7 = true) ∧
      (warp' = t.warp ∨ m.testBit 8 = true) ∧
      (loom' = t.loom ∨ m.testBit 9 = true) ∧
      (fab' = t.fab ∨ m.testBit 10 = true) ∧
      (shu' = t.shu ∨ m.testBit 11 = true) ∧
      (win' = t.win ∨ m.testBit 12 = true) ∧
      (eng' = t.eng ∨ m.testBit 13 = true) ∧
      (hed' = t.hed ∨ m.testBit 14 = true) ∧
      (sel' = t.sel ∨ m.testBit 15 = true) ∧
      (twin' = t.twin ∨ m.testBit 16 = true) ∧
      (dob' = t.dob ∨ m.testBit 17 = true) ∧
      (mgmt' = t.mgmt ∨ m.testBit 18 = true) ∧
      (vault' = t.vault ∨ m.testBit 19 = true) ∧
      (obs' = t.obs ∨ m.testBit 20 = true)) :
    Keeps m s (State.mk t.pending t.now ft' t.drawn t.freeDraws cfg' flash' module' t.power gov' lanes' weft' warp' loom' fab' shu' win' eng' hed' sel' twin' dob' mgmt' vault' obs' t.host t.beam t.tx) := by
  obtain ⟨b0, b1, b2, b3, b4, b5, b6, b7, b8, b9, b10, b11, b12, b13, b14, b15, b16, b17, b18, b19⟩ := b
  have pick : ∀ {α : Type} {x y z : α} {i : Nat}, (x = y ∨ m.testBit i = true) → (m.testBit i = false → y = z) →
      m.testBit i = false → x = z := by
    intro α x y z i o k e
    rcases o with o | o
    · exact o.trans (k e)
    · exact absurd (o.symm.trans e) Bool.noConfusion
  exact { pending := h.pending, now := h.now, tx := h.tx, drawn := h.drawn, freeDraws := h.freeDraws, feeds := h.feeds, mem := h.mem
          power := h.power, host := h.host, beam := h.beam
          ft := pick b0 h.ft
          cfg := pick b1 h.cfg
          flash := pick b2 h.flash
          module := pick b3 h.module
          gov := pick b4 h.gov
          lanes := pick b5 h.lanes
          weft := pick b6 h.weft
          warp := pick b7 h.warp
          loom := pick b8 h.loom
          fab := pick b9 h.fab
          shu := pick b10 h.shu
          win := pick b11 h.win
          eng := pick b12 h.eng
          hed := pick b13 h.hed
          sel := pick b14 h.sel
          twin := pick b15 h.twin
          dob := pick b16 h.dob
          mgmt := pick b17 h.mgmt
          vault := pick b18 h.vault
          obs := pick b19 h.obs }

/-! ### Shapes of the model's functions -/

theorem Keeps.ite {m : Nat} {s a b : State} {c : Prop} {_ : Decidable c} (ha : Keeps m s a) (hb : Keeps m s b) :
    Keeps m s (if c then a else b) := by
  split
  · exact ha
  · exact hb

theorem Keeps.iteFst {m : Nat} {s : State} {α : Type} {a b : State × α} {c : Prop} {_ : Decidable c} (ha : Keeps m s a.1)
    (hb : Keeps m s b.1) : Keeps m s (if c then a else b).1 := by
  split
  · exact ha
  · exact hb

theorem Keeps.foldl {m : Nat} {α : Type} {s t : State} {f : State → α → State} (h : Keeps m s t) (l : List α)
    (hf : ∀ u a, Keeps m s u → Keeps m s (f u a)) : Keeps m s (l.foldl f t) := by
  induction l generalizing t with
  | nil => exact h
  | cons a l ih => exact ih (hf t a h)

theorem Keeps.foldlFst {m : Nat} {α β : Type} {s : State} {t : State × β} {f : State × β → α → State × β} (h : Keeps m s t.1)
    (l : List α) (hf : ∀ u a, Keeps m s u.1 → Keeps m s (f u a).1) : Keeps m s (l.foldl f t).1 := by
  induction l generalizing t with
  | nil => exact h
  | cons a l ih => exact ih (hf t a h)

/-- A table with one entry replaced reads as the new entry there and as before elsewhere. -/
theorem vget_vset {α : Type} {n : Nat} (v : Vector α n) (i k : Nat) (x d : α) :
    vget (vset v i x) k d = if i = k ∧ k < n then x else vget v k d := by
  unfold vget vset
  rw [Vector.getElem?_setIfInBounds]
  by_cases h : i = k
  · subst h
    by_cases hn : i < n
    · simp [hn]
    · simp [hn]
  · simp [h]

end Sys2Proof.Laws
end

