-- ==== Sys2Proof/Laws/KeepsCore.lean ====
section
/-!
SUPPORT. What the functions keep, one lemma each: the shared operations, the health of the module, the feeds and the governor.
-/

namespace Sys2Proof.Laws

open Sys2Proof.Machine

set_option linter.all false

/-! ### Ops -/

theorem setCfg_keeps {mk : Nat} {sk : State} {s : State} {k : Nat} {v : Nat} (hk : Keeps mk sk s) (hm : 2 &&& mk = 2) :
    Keeps mk sk (setCfg s k v) := by
  suffices g : Keeps 2 s (setCfg s k v) from hk.trans (g.weaken hm)
  unfold setCfg
  with_reducible repeat' first
  | exact Keeps.refl _
  | assumption
  | decide
  | (fail_if_no_progress refine Keeps.cfg' ?_ _ rfl)
  | (intro _ _)
  | split
  | dsimp only

theorem setFlash_keeps {mk : Nat} {sk : State} {s : State} {k : Nat} {v : Nat} (hk : Keeps mk sk s) (hm : 4 &&& mk = 4) :
    Keeps mk sk (setFlash s k v) := by
  suffices g : Keeps 4 s (setFlash s k v) from hk.trans (g.weaken hm)
  unfold setFlash
  with_reducible repeat' first
  | exact Keeps.refl _
  | assumption
  | decide
  | (fail_if_no_progress refine Keeps.flash' ?_ _ rfl)
  | (intro _ _)
  | split
  | dsimp only

theorem emit_keeps {m : Nat} {s0 s : State} {e : Emit} (h : Keeps m s0 s) : Keeps m s0 (emit s e) :=
  Keeps.tx' h _ (List.prefix_append _ _)

theorem emitAll_keeps {m : Nat} {s0 s : State} {es : List Emit} (h : Keeps m s0 s) : Keeps m s0 (emitAll s es) :=
  Keeps.tx' h _ (List.prefix_append _ _)

theorem afterDraw_keeps {mk : Nat} {sk : State} {s : State} (hk : Keeps mk sk s) (hm : 0 &&& mk = 0) :
    Keeps mk sk (afterDraw s) := by
  suffices g : Keeps 0 s (afterDraw s) from hk.trans (g.weaken hm)
  unfold afterDraw
  with_reducible repeat' first
  | exact Keeps.refl _
  | assumption
  | decide
  | (fail_if_no_progress refine Keeps.drawn' ?_ _ (Nat.le_succ _))
  | (intro _ _)
  | split
  | dsimp only

theorem afterFree_keeps {mk : Nat} {sk : State} {s : State} (hk : Keeps mk sk s) (hm : 0 &&& mk = 0) :
    Keeps mk sk (afterFree s) := by
  suffices g : Keeps 0 s (afterFree s) from hk.trans (g.weaken hm)
  unfold afterFree
  with_reducible repeat' first
  | exact Keeps.refl _
  | assumption
  | decide
  | (fail_if_no_progress refine Keeps.freeDraws' ?_ _ (Nat.le_succ _))
  | (intro _ _)
  | split
  | dsimp only

theorem count_keeps {mk : Nat} {sk : State} {s : State} {c : Nat} {n : Nat} (hk : Keeps mk sk s) (hm : 1048576 &&& mk = 1048576) :
    Keeps mk sk (count s c n) := by
  suffices g : Keeps 1048576 s (count s c n) from hk.trans (g.weaken hm)
  unfold count
  with_reducible repeat' first
  | exact Keeps.refl _
  | assumption
  | decide
  | (extract_lets +onlyGivenNames s1; have h1 : Keeps 1048576 s s1 := (by unfold s1; repeat' first | exact Keeps.refl _ | assumption | decide | refine Keeps.ite ?_ ?_ | (fail_if_no_progress refine Keeps.obs' ?_ _ rfl) | (intro _ _) | split | dsimp only); clear_value s1)
  | (extract_lets +onlyGivenNames x1; clear_value x1)
  | refine Keeps.ite ?_ ?_
  | (fail_if_no_progress refine Keeps.obs' ?_ _ rfl)
  | (intro _ _)
  | split
  | dsimp only

theorem ringSet_keeps {mk : Nat} {sk : State} {s : State} {r : Nat} {x : RingState} (hk : Keeps mk sk s) (hm : 1048576 &&& mk = 1048576) :
    Keeps mk sk (ringSet s r x) := by
  suffices g : Keeps 1048576 s (ringSet s r x) from hk.trans (g.weaken hm)
  unfold ringSet
  with_reducible repeat' first
  | exact Keeps.refl _
  | assumption
  | decide
  | (fail_if_no_progress refine Keeps.obs' ?_ _ rfl)
  | (intro _ _)
  | split
  | dsimp only

theorem hostWrite_keeps {m : Nat} {s0 s : State} {v a : Nat} {bs : List Byte} (h : Keeps m s0 s) (hm : 2097152 &&& m = 2097152) :
    Keeps m s0 (hostWrite s v a bs) := by
  suffices g : Keeps 2097152 s (hostWrite s v a bs) from h.trans (g.weaken hm)
  refine Keeps.host' (Keeps.refl s) _ rfl (fun hw k => ?_)
  rw [vget_vset]
  split
  · exact Memory.wf_writeBytes _ _ _ (hw v)
  · exact hw k

theorem noteDenial_keeps {mk : Nat} {sk : State} {s : State} {d : LateDenial} (hk : Keeps mk sk s) (hm : 16384 &&& mk = 16384) :
    Keeps mk sk (noteDenial s d) := by
  suffices g : Keeps 16384 s (noteDenial s d) from hk.trans (g.weaken hm)
  unfold noteDenial
  with_reducible repeat' first
  | exact Keeps.refl _
  | assumption
  | decide
  | (fail_if_no_progress refine Keeps.hed' ?_ _ rfl)
  | (intro _ _)
  | split
  | dsimp only

theorem hostPost_keeps {mk : Nat} {sk : State} {s : State} {v : Nat} {a : Nat} {bs : List Byte} (hk : Keeps mk sk s) (hm : 2113536 &&& mk = 2113536) :
    Keeps mk sk (hostPost s v a bs) := by
  suffices g : Keeps 2113536 s (hostPost s v a bs) from hk.trans (g.weaken hm)
  unfold hostPost
  with_reducible repeat' first
  | exact Keeps.refl _
  | assumption
  | decide
  | refine hostWrite_keeps ?_ ?_
  | refine noteDenial_keeps ?_ ?_
  | (intro _ _)
  | split
  | dsimp only

theorem hostFetch_keeps {mk : Nat} {sk : State} {s : State} {v : Nat} {a : Nat} {n : Nat} (hk : Keeps mk sk s) (hm : 16384 &&& mk = 16384) :
    Keeps mk sk (hostFetch s v a n).1 := by
  suffices g : Keeps 16384 s (hostFetch s v a n).1 from hk.trans (g.weaken hm)
  unfold hostFetch
  with_reducible repeat' first
  | exact Keeps.refl _
  | assumption
  | decide
  | refine noteDenial_keeps ?_ ?_
  | (intro _ _)
  | split
  | dsimp only

theorem beamPut_keeps {m : Nat} {s0 s : State} {u : Nat} {plain : List Byte} (h : Keeps m s0 s) (hm : 4194304 &&& m = 4194304) :
    Keeps m s0 (beamPut s u plain) := by
  suffices g : Keeps 4194304 s (beamPut s u plain) from h.trans (g.weaken hm)
  unfold beamPut
  split
  · exact Keeps.beam' (Keeps.refl s) _ rfl (fun hw => Memory.wf_writeBytes _ _ _ hw)
  · exact Keeps.refl s

theorem beamWrite_keeps {mk : Nat} {sk : State} {s : State} {a : Nat} {bs : List Byte} (hk : Keeps mk sk s) (hm : 4194304 &&& mk = 4194304) :
    Keeps mk sk (beamWrite s a bs) := by
  suffices g : Keeps 4194304 s (beamWrite s a bs) from hk.trans (g.weaken hm)
  unfold beamWrite
  with_reducible repeat' first
  | exact Keeps.refl _
  | assumption
  | decide
  | (extract_lets +onlyGivenNames s1; have h1 : Keeps 4194304 s s1 := (by unfold s1; repeat' first | exact Keeps.refl _ | assumption | decide | refine beamPut_keeps ?_ ?_ | refine Keeps.foldl ?_ _ (fun u a hu => ?_) | refine Keeps.foldlFst ?_ _ (fun u a hu => ?_) | (intro _ _) | split | dsimp only); clear_value s1)
  | (extract_lets +onlyGivenNames x1; clear_value x1)
  | refine beamPut_keeps ?_ ?_
  | refine Keeps.foldl ?_ _ (fun u a hu => ?_)
  | refine Keeps.foldlFst ?_ _ (fun u a hu => ?_)
  | (intro _ _)
  | split
  | dsimp only

theorem beamTake_keeps {mk : Nat} {sk : State} {s : State} {n : Nat} (hk : Keeps mk sk s) (hm : 512 &&& mk = 512) :
    Keeps mk sk (beamTake s n) := by
  suffices g : Keeps 512 s (beamTake s n) from hk.trans (g.weaken hm)
  unfold beamTake
  with_reducible repeat' first
  | exact Keeps.refl _
  | assumption
  | decide
  | (fail_if_no_progress refine Keeps.loom' ?_ _ rfl)
  | (intro _ _)
  | split
  | dsimp only

theorem msi_keeps {mk : Nat} {sk : State} {s : State} {v : Nat} {fn : Nat} {vec : Nat} (hk : Keeps mk sk s) (hm : 24576 &&& mk = 24576) :
    Keeps mk sk (msi s v fn vec) := by
  suffices g : Keeps 24576 s (msi s v fn vec) from hk.trans (g.weaken hm)
  unfold msi
  with_reducible repeat' first
  | exact Keeps.refl _
  | assumption
  | decide
  | refine emit_keeps ?_
  | refine noteDenial_keeps ?_ ?_
  | refine Keeps.ite ?_ ?_
  | (fail_if_no_progress refine Keeps.eng' ?_ _ rfl)
  | (intro _ _)
  | split
  | dsimp only

theorem signalLine_keeps {mk : Nat} {sk : State} {s : State} {r : Nat} {grave : Bool} (hk : Keeps mk sk s) (hm : 1073152 &&& mk = 1073152) :
    Keeps mk sk (signalLine s r grave) := by
  suffices g : Keeps 1073152 s (signalLine s r grave) from hk.trans (g.weaken hm)
  unfold signalLine
  with_reducible repeat' first
  | exact Keeps.refl _
  | assumption
  | decide
  | (extract_lets +onlyGivenNames s1; have h1 : Keeps 1073152 s s1 := (by unfold s1; repeat' first | exact Keeps.refl _ | assumption | decide | refine msi_keeps ?_ ?_ | refine ringSet_keeps ?_ ?_ | refine Keeps.ite ?_ ?_ | (intro _ _) | split | dsimp only); clear_value s1)
  | (extract_lets +onlyGivenNames x1; clear_value x1)
  | refine msi_keeps ?_ ?_
  | refine ringSet_keeps ?_ ?_
  | refine Keeps.ite ?_ ?_
  | (intro _ _)
  | split
  | dsimp only

theorem writeLine_keeps {mk : Nat} {sk : State} {s : State} {r : Nat} {mark : Bool} (hk : Keeps mk sk s) (hm : 7364608 &&& mk = 7364608) :
    Keeps mk sk (writeLine s r mark) := by
  suffices g : Keeps 7364608 s (writeLine s r mark) from hk.trans (g.weaken hm)
  unfold writeLine
  with_reducible repeat' first
  | exact Keeps.refl _
  | assumption
  | decide
  | (extract_lets +onlyGivenNames s1; have h1 : Keeps 7364608 s s1 := (by unfold s1; repeat' first | exact Keeps.refl _ | assumption | decide | refine beamWrite_keeps ?_ ?_ | refine hostPost_keeps ?_ ?_ | refine ringSet_keeps ?_ ?_ | refine signalLine_keeps ?_ ?_ | refine Keeps.ite ?_ ?_ | (intro _ _) | split | dsimp only); clear_value s1)
  | (extract_lets +onlyGivenNames x1; clear_value x1)
  | refine beamWrite_keeps ?_ ?_
  | refine hostPost_keeps ?_ ?_
  | refine ringSet_keeps ?_ ?_
  | refine signalLine_keeps ?_ ?_
  | refine Keeps.ite ?_ ?_
  | (intro _ _)
  | split
  | dsimp only

theorem ringPut_keeps {mk : Nat} {sk : State} {s : State} {r : Nat} {e : EventRec} (hk : Keeps mk sk s) (hm : 7364608 &&& mk = 7364608) :
    Keeps mk sk (ringPut s r e) := by
  suffices g : Keeps 7364608 s (ringPut s r e) from hk.trans (g.weaken hm)
  unfold ringPut
  with_reducible repeat' first
  | exact Keeps.refl _
  | assumption
  | decide
  | (extract_lets +onlyGivenNames s1; have h1 : Keeps 7364608 s s1 := (by unfold s1; repeat' first | exact Keeps.refl _ | assumption | decide | refine ringSet_keeps ?_ ?_ | refine writeLine_keeps ?_ ?_ | refine Keeps.ite ?_ ?_ | (fail_if_no_progress refine Keeps.obs' ?_ _ rfl) | (intro _ _) | split | dsimp only); clear_value s1)
  | (extract_lets +onlyGivenNames x1; clear_value x1)
  | refine ringSet_keeps ?_ ?_
  | refine writeLine_keeps ?_ ?_
  | refine Keeps.ite ?_ ?_
  | (fail_if_no_progress refine Keeps.obs' ?_ _ rfl)
  | (intro _ _)
  | split
  | dsimp only

theorem reportLoss_keeps {mk : Nat} {sk : State} {s : State} {r : Nat} {ow : Bool} (hk : Keeps mk sk s) (hm : 7364608 &&& mk = 7364608) :
    Keeps mk sk (reportLoss s r ow) := by
  suffices g : Keeps 7364608 s (reportLoss s r ow) from hk.trans (g.weaken hm)
  unfold reportLoss
  with_reducible repeat' first
  | exact Keeps.refl _
  | assumption
  | decide
  | (extract_lets +onlyGivenNames s1; have h1 : Keeps 7364608 s s1 := (by unfold s1; repeat' first | exact Keeps.refl _ | assumption | decide | refine ringPut_keeps ?_ ?_ | refine ringSet_keeps ?_ ?_ | refine Keeps.ite ?_ ?_ | (intro _ _) | split | dsimp only); clear_value s1)
  | (extract_lets +onlyGivenNames x1; clear_value x1)
  | refine ringPut_keeps ?_ ?_
  | refine ringSet_keeps ?_ ?_
  | refine Keeps.ite ?_ ?_
  | (intro _ _)
  | split
  | dsimp only

theorem putEvent_keeps {mk : Nat} {sk : State} {s : State} {h : HeldEvent} (hk : Keeps mk sk s) (hm : 7364608 &&& mk = 7364608) :
    Keeps mk sk (putEvent s h) := by
  suffices g : Keeps 7364608 s (putEvent s h) from hk.trans (g.weaken hm)
  unfold putEvent
  with_reducible repeat' first
  | exact Keeps.refl _
  | assumption
  | decide
  | (extract_lets +onlyGivenNames s1; have h1 : Keeps 7364608 s s1 := (by unfold s1; repeat' first | exact Keeps.refl _ | assumption | decide | refine reportLoss_keeps ?_ ?_ | refine ringPut_keeps ?_ ?_ | refine ringSet_keeps ?_ ?_ | refine Keeps.ite ?_ ?_ | (fail_if_no_progress refine Keeps.obs' ?_ _ rfl) | (intro _ _) | split | dsimp only); clear_value s1)
  | (extract_lets +onlyGivenNames x1; clear_value x1)
  | refine reportLoss_keeps ?_ ?_
  | refine ringPut_keeps ?_ ?_
  | refine ringSet_keeps ?_ ?_
  | refine Keeps.ite ?_ ?_
  | (fail_if_no_progress refine Keeps.obs' ?_ _ rfl)
  | (intro _ _)
  | split
  | dsimp only

theorem eventFull_keeps {mk : Nat} {sk : State} {s : State} {code : Nat} {inst : Nat} {sev : Nat} {part : Option Nat} {paired : Bool} {info : Nat} (hk : Keeps mk sk s) (hm : 7364608 &&& mk = 7364608) :
    Keeps mk sk (eventFull s code inst sev part paired info) := by
  suffices g : Keeps 7364608 s (eventFull s code inst sev part paired info) from hk.trans (g.weaken hm)
  unfold eventFull
  with_reducible repeat' first
  | exact Keeps.refl _
  | assumption
  | decide
  | refine putEvent_keeps ?_ ?_
  | (intro _ _)
  | split
  | dsimp only

theorem event_keeps {mk : Nat} {sk : State} {s : State} {code : Nat} {inst : Nat} {info : Nat} (hk : Keeps mk sk s) (hm : 7364608 &&& mk = 7364608) :
    Keeps mk sk (event s code inst info) := by
  suffices g : Keeps 7364608 s (event s code inst info) from hk.trans (g.weaken hm)
  unfold event
  with_reducible repeat' first
  | exact Keeps.refl _
  | assumption
  | decide
  | refine eventFull_keeps ?_ ?_
  | (intro _ _)
  | split
  | dsimp only

theorem eventIn_keeps {mk : Nat} {sk : State} {s : State} {part : Option Nat} {code : Nat} {inst : Nat} {info : Nat} (hk : Keeps mk sk s) (hm : 7364608 &&& mk = 7364608) :
    Keeps mk sk (eventIn s part code inst info) := by
  suffices g : Keeps 7364608 s (eventIn s part code inst info) from hk.trans (g.weaken hm)
  unfold eventIn
  with_reducible repeat' first
  | exact Keeps.refl _
  | assumption
  | decide
  | refine eventFull_keeps ?_ ?_
  | (intro _ _)
  | split
  | dsimp only

theorem rateEvent_keeps {m : Nat} {s0 s : State} {code place gap : Nat} {put : State → Nat → State} (h : Keeps m s0 s)
    (hm : m.testBit 20 = true) (hp : ∀ u n, Keeps m s0 u → Keeps m s0 (put u n)) : Keeps m s0 (rateEvent s code place gap put) := by
  unfold rateEvent
  extract_lets k n due
  clear_value due
  split
  · exact hp _ _ (Keeps.obs' h _ hm)
  · exact Keeps.obs' h _ hm

theorem privCount_keeps {mk : Nat} {sk : State} {s : State} {c : Nat} (hk : Keeps mk sk s) (hm : 7364608 &&& mk = 7364608) :
    Keeps mk sk (privCount s c) := by
  suffices g : Keeps 7364608 s (privCount s c) from hk.trans (g.weaken hm)
  unfold privCount
  with_reducible repeat' first
  | exact Keeps.refl _
  | assumption
  | decide
  | (extract_lets +onlyGivenNames s1; have h1 : Keeps 7364608 s s1 := (by unfold s1; repeat' first | exact Keeps.refl _ | assumption | decide | refine event_keeps ?_ ?_ | refine Keeps.ite ?_ ?_ | (fail_if_no_progress refine Keeps.obs' ?_ _ rfl) | (intro _ _) | split | dsimp only); clear_value s1)
  | (extract_lets +onlyGivenNames x1; clear_value x1)
  | refine event_keeps ?_ ?_
  | refine Keeps.ite ?_ ?_
  | (fail_if_no_progress refine Keeps.obs' ?_ _ rfl)
  | (intro _ _)
  | split
  | dsimp only

theorem journal_keeps {mk : Nat} {sk : State} {s : State} {e : JournalEntry} (hk : Keeps mk sk s) (hm : 1048576 &&& mk = 1048576) :
    Keeps mk sk (journal s e) := by
  suffices g : Keeps 1048576 s (journal s e) from hk.trans (g.weaken hm)
  unfold journal
  with_reducible repeat' first
  | exact Keeps.refl _
  | assumption
  | decide
  | (fail_if_no_progress refine Keeps.obs' ?_ _ rfl)
  | (intro _ _)
  | split
  | dsimp only

theorem journalChange_keeps {mk : Nat} {sk : State} {s : State} {prev : Nat} {new : Nat} {cause : Nat} (hk : Keeps mk sk s) (hm : 1048576 &&& mk = 1048576) :
    Keeps mk sk (journalChange s prev new cause) := by
  suffices g : Keeps 1048576 s (journalChange s prev new cause) from hk.trans (g.weaken hm)
  unfold journalChange
  with_reducible repeat' first
  | exact Keeps.refl _
  | assumption
  | decide
  | refine journal_keeps ?_ ?_
  | (intro _ _)
  | split
  | dsimp only

theorem changeState_keeps {mk : Nat} {sk : State} {s : State} {new : ModState} {cause : Nat} (hk : Keeps mk sk s) (hm : 7364616 &&& mk = 7364616) :
    Keeps mk sk (changeState s new cause) := by
  suffices g : Keeps 7364616 s (changeState s new cause) from hk.trans (g.weaken hm)
  unfold changeState
  with_reducible repeat' first
  | exact Keeps.refl _
  | assumption
  | decide
  | (extract_lets +onlyGivenNames s1; have h1 : Keeps 7364616 s s1 := (by unfold s1; repeat' first | exact Keeps.refl _ | assumption | decide | refine event_keeps ?_ ?_ | refine journalChange_keeps ?_ ?_ | refine putEvent_keeps ?_ ?_ | refine Keeps.ite ?_ ?_ | (fail_if_no_progress refine Keeps.module' ?_ _ rfl) | (intro _ _) | split | dsimp only); clear_value s1)
  | (extract_lets +onlyGivenNames x1; clear_value x1)
  | refine event_keeps ?_ ?_
  | refine journalChange_keeps ?_ ?_
  | refine putEvent_keeps ?_ ?_
  | refine Keeps.ite ?_ ?_
  | (fail_if_no_progress refine Keeps.module' ?_ _ rfl)
  | (intro _ _)
  | split
  | dsimp only

theorem journalAction_keeps {mk : Nat} {sk : State} {s : State} {sess : Nat} {index : Nat} {sub : Nat} {v : Nat} (hk : Keeps mk sk s) (hm : 1048576 &&& mk = 1048576) :
    Keeps mk sk (journalAction s sess index sub v) := by
  suffices g : Keeps 1048576 s (journalAction s sess index sub v) from hk.trans (g.weaken hm)
  unfold journalAction
  with_reducible repeat' first
  | exact Keeps.refl _
  | assumption
  | decide
  | (extract_lets +onlyGivenNames s1; have h1 : Keeps 1048576 s s1 := (by unfold s1; repeat' first | exact Keeps.refl _ | assumption | decide | refine journal_keeps ?_ ?_ | refine Keeps.ite ?_ ?_ | refine Keeps.iteFst ?_ ?_ | (intro _ _) | split | dsimp only); clear_value s1)
  | (extract_lets +onlyGivenNames x1; clear_value x1)
  | refine journal_keeps ?_ ?_
  | refine Keeps.ite ?_ ?_
  | refine Keeps.iteFst ?_ ?_
  | (intro _ _)
  | split
  | dsimp only

theorem actWrite_keeps {m : Nat} {s0 s : State} {sess index sub v check : Nat} {refused done : State → State} (h : Keeps m s0 s)
    (hm : 1310720 &&& m = 1310720) (hr : ∀ u, Keeps m s0 u → Keeps m s0 (refused u)) (hd : ∀ u, Keeps m s0 u → Keeps m s0 (done u)) :
    Keeps m s0 (actWrite s sess index sub v check refused done) := by
  have hb : m.testBit 18 = true := by
    rw [← Bool.not_eq_false]
    exact fun e => absurd (clear_of_sub hm e) (by decide)
  have ho : 1048576 &&& m = 1048576 := by
    have : (1048576 &&& 1310720 &&& m) = 1048576 &&& 1310720 := by rw [Nat.and_assoc, hm]
    simpa using this
  have e0 : ∀ {u : State} {e : Emit}, Keeps m s0 u → Keeps m s0 (emit u e) := fun k =>
emit_keeps k
  unfold actWrite
  split
  · exact Keeps.mgmt' h _ hb
  · extract_lets st
    clear_value st
    split
    · exact e0 h
    · split
      · exact e0 (hr s h)
      · exact e0 (hd _ (journalAction_keeps h ho))

theorem onOne_keeps {m : Nat} {s0 s : State} {v : Nat} {f : State → State} (h : Keeps m s0 s)
    (hf : ∀ u, Keeps m s0 u → Keeps m s0 (f u)) : Keeps m s0 (onOne v f s) := by
  unfold onOne
  split
  · exact hf s h
  · exact h

/-! ### Health -/

theorem feedPgood_of {s : State} (h : PgoodExact s) (f : Feed) : FeedPgood (feedOf s f) := by
  cases f
  · exact h.1
  · exact h.2

theorem setFeed_keeps {mk : Nat} {sk s : State} {f : Feed} {x : FeedState} (hk : Keeps mk sk s) (hm : 16 &&& mk = 16)
    (hx : PgoodExact s → PgoodExact sk → FeedPgood x) : Keeps mk sk (setFeed s f x) := by
  have hb : mk.testBit 4 = true := by
    rw [← Bool.not_eq_false]
    exact fun e => absurd (clear_of_sub hm e) (by decide)
  have hs : PgoodExact sk → PgoodExact s := hk.feeds
  cases f
  · exact { Keeps.power' hk s.power hb id with
      feeds := fun e => ⟨hx (hs e) e, (hs e).2⟩
      power := fun e => absurd (hb.symm.trans e) Bool.noConfusion }
  · exact { Keeps.power' hk s.power hb id with
      feeds := fun e => ⟨(hs e).1, hx (hs e) e⟩
      power := fun e => absurd (hb.symm.trans e) Bool.noConfusion }

@[simp] theorem feedOf_setFeed (s : State) (f : Feed) (x : FeedState) : feedOf (setFeed s f x) f = x := by cases f <;> rfl

theorem noteCommit_keeps {mk : Nat} {sk : State} {s : State} (hk : Keeps mk sk s) (hm : 8 &&& mk = 8) :
    Keeps mk sk (noteCommit s) := by
  suffices g : Keeps 8 s (noteCommit s) from hk.trans (g.weaken hm)
  unfold noteCommit
  with_reducible repeat' first
  | exact Keeps.refl _
  | assumption
  | decide
  | (fail_if_no_progress refine Keeps.module' ?_ _ rfl)
  | (intro _ _)
  | split
  | dsimp only

theorem coreLost_keeps {mk : Nat} {sk s : State} (hk : Keeps mk sk s) (hm : 8388607 &&& mk = 8388607) : Keeps mk sk (coreLost s) := by
  suffices g : Keeps 8388607 s (coreLost s) from hk.trans (g.weaken hm)
  have h1 : (noteCommit s).pending = s.pending ∧ (noteCommit s).now = s.now ∧ (noteCommit s).tx = s.tx ∧ (noteCommit s).drawn = s.drawn ∧
      (noteCommit s).freeDraws = s.freeDraws ∧ (noteCommit s).power = s.power ∧ (noteCommit s).host = s.host := by
    unfold noteCommit
    split
    · exact ⟨rfl, rfl, rfl, rfl, rfl, rfl, rfl⟩
    · exact ⟨rfl, rfl, rfl, rfl, rfl, rfl, rfl⟩
  obtain ⟨e1, e2, e3, e4, e5, e6, e7⟩ := h1
  exact { pending := e1, now := e2, tx := e3 ▸ List.prefix_rfl, drawn := Nat.le_of_eq e4.symm, freeDraws := Nat.le_of_eq e5.symm,
          feeds := fun h => (⟨e6 ▸ h.1, e6 ▸ h.2⟩ : FeedPgood (noteCommit s).power.a ∧ FeedPgood (noteCommit s).power.b)
          mem := fun h => ⟨fun k => (congrArg (fun x => Memory.wf (vget x k [])) e7).trans (h.1 k), Memory.wf_nil⟩
          ft := fun e => absurd e (by decide)
          cfg := fun e => absurd e (by decide)
          flash := fun e => absurd e (by decide)
          module := fun e => absurd e (by decide)
          power := fun e => absurd e (by decide)
          gov := fun e => absurd e (by decide)
          lanes := fun e => absurd e (by decide)
          weft := fun e => absurd e (by decide)
          warp := fun e => absurd e (by decide)
          loom := fun e => absurd e (by decide)
          fab := fun e => absurd e (by decide)
          shu := fun e => absurd e (by decide)
          win := fun e => absurd e (by decide)
          eng := fun e => absurd e (by decide)
          hed := fun e => absurd e (by decide)
          sel := fun e => absurd e (by decide)
          twin := fun e => absurd e (by decide)
          dob := fun e => absurd e (by decide)
          mgmt := fun e => absurd e (by decide)
          vault := fun e => absurd e (by decide)
          obs := fun e => absurd e (by decide)
          host := fun e => absurd e (by decide)
          beam := fun e => absurd e (by decide) }

theorem allLost_keeps {mk : Nat} {sk s : State} (hk : Keeps mk sk s) (hm : 8388607 &&& mk = 8388607) : Keeps mk sk (allLost s) := by
  suffices g : Keeps 8388607 s (allLost s) from hk.trans (g.weaken hm)
  have h := coreLost_keeps (Keeps.refl (m := 8388607) s) (by decide)
  unfold allLost
  generalize coreLost s = t at h
  have k := Keeps.power' h ({ t.power with a := { mv := t.power.a.mv }, b := { mv := t.power.b.mv }, vkeepOk := false, vioOk := false, vioSince := none }) rfl (fun _ => ⟨by simp [FeedPgood], by simp [FeedPgood]⟩)
  exact Keeps.several (t := { t with power := _ }) k (by
    refine ⟨?_, ?_, ?_, ?_, ?_, ?_, ?_, ?_, ?_, ?_, ?_, ?_, ?_, ?_, ?_, ?_, ?_, ?_, ?_, ?_⟩ <;> first | exact Or.inl rfl | exact Or.inr rfl)

theorem feedsLost_keeps {mk : Nat} {sk : State} {s : State} {cause : Nat} (hk : Keeps mk sk s) (hm : 8388607 &&& mk = 8388607) :
    Keeps mk sk (feedsLost s cause) := by
  suffices g : Keeps 8388607 s (feedsLost s cause) from hk.trans (g.weaken hm)
  unfold feedsLost
  with_reducible repeat' first
  | exact Keeps.refl _
  | assumption
  | decide
  | (extract_lets +onlyGivenNames s1; have h1 : Keeps 8388607 s s1 := (by unfold s1; repeat' first | exact Keeps.refl _ | assumption | decide | refine allLost_keeps ?_ ?_ | refine changeState_keeps ?_ ?_ | refine coreLost_keeps ?_ ?_ | refine Keeps.ite ?_ ?_ | (intro _ _) | split | dsimp only); clear_value s1)
  | (extract_lets +onlyGivenNames x1; clear_value x1)
  | refine allLost_keeps ?_ ?_
  | refine changeState_keeps ?_ ?_
  | refine coreLost_keeps ?_ ?_
  | refine Keeps.ite ?_ ?_
  | (intro _ _)
  | split
  | dsimp only

theorem suppliesChecked_keeps {mk : Nat} {sk : State} {s : State} (hk : Keeps mk sk s) (hm : 8388607 &&& mk = 8388607) :
    Keeps mk sk (suppliesChecked s) := by
  suffices g : Keeps 8388607 s (suppliesChecked s) from hk.trans (g.weaken hm)
  unfold suppliesChecked
  with_reducible repeat' first
  | exact Keeps.refl _
  | assumption
  | decide
  | refine allLost_keeps ?_ ?_
  | refine Keeps.ite ?_ ?_
  | (intro _ _)
  | split
  | dsimp only

theorem health_keeps {mk : Nat} {sk : State} {s : State} {cause : Nat} (hk : Keeps mk sk s) (hm : 7364616 &&& mk = 7364616) :
    Keeps mk sk (health s cause) := by
  suffices g : Keeps 7364616 s (health s cause) from hk.trans (g.weaken hm)
  unfold health
  with_reducible repeat' first
  | exact Keeps.refl _
  | assumption
  | decide
  | refine changeState_keeps ?_ ?_
  | refine Keeps.ite ?_ ?_
  | (intro _ _)
  | split
  | dsimp only

/-! ### Power -/

theorem feedEvent_keeps {mk : Nat} {sk : State} {s : State} {f : Feed} {code : Nat} {extra : Nat} (hk : Keeps mk sk s) (hm : 7364608 &&& mk = 7364608) :
    Keeps mk sk (feedEvent s f code extra) := by
  suffices g : Keeps 7364608 s (feedEvent s f code extra) from hk.trans (g.weaken hm)
  unfold feedEvent
  try dsimp only
  repeat' first
  | with_reducible exact Keeps.refl _
  | with_reducible assumption
  | with_reducible decide
  | with_reducible refine event_keeps ?_ ?_
  | split
  | (intro hp hq; exact feedPgood_of hp _)
  | (intro hp hq; have hf := feedPgood_of hp f; have hg := feedPgood_of hq f; simp_all [FeedPgood, FeedState.enter, FeedState.gateOff, FeedState.sample]; done)
  | (intro hp; first | exact ⟨hp.1, hp.2⟩ | (have hf := feedPgood_of hp f; cases hv : (feedOf s f).pgood <;> simp_all [FeedPgood, FeedState.enter, FeedState.gateOff, FeedState.sample] <;> done))
  | (intro _ _)

theorem feedCount_keeps {mk : Nat} {sk : State} {s : State} {f : Feed} {c : Nat} (hk : Keeps mk sk s) (hm : 1048576 &&& mk = 1048576) :
    Keeps mk sk (feedCount s f c) := by
  suffices g : Keeps 1048576 s (feedCount s f c) from hk.trans (g.weaken hm)
  unfold feedCount
  try dsimp only
  repeat' first
  | with_reducible exact Keeps.refl _
  | with_reducible assumption
  | with_reducible decide
  | with_reducible refine count_keeps ?_ ?_
  | split
  | (intro hp hq; exact feedPgood_of hp _)
  | (intro hp hq; have hf := feedPgood_of hp f; have hg := feedPgood_of hq f; simp_all [FeedPgood, FeedState.enter, FeedState.gateOff, FeedState.sample]; done)
  | (intro hp; first | exact ⟨hp.1, hp.2⟩ | (have hf := feedPgood_of hp f; cases hv : (feedOf s f).pgood <;> simp_all [FeedPgood, FeedState.enter, FeedState.gateOff, FeedState.sample] <;> done))
  | (intro _ _)

theorem pgoodReleased_keeps {mk : Nat} {sk : State} {s : State} {f : Feed} {was : Bool} {cause : Nat} (hk : Keeps mk sk s) (hm : 8388607 &&& mk = 8388607) :
    Keeps mk sk (pgoodReleased s f was cause) := by
  suffices g : Keeps 8388607 s (pgoodReleased s f was cause) from hk.trans (g.weaken hm)
  unfold pgoodReleased
  try dsimp only
  repeat' first
  | with_reducible exact Keeps.refl _
  | with_reducible assumption
  | with_reducible decide
  | with_reducible refine feedEvent_keeps ?_ ?_
  | with_reducible refine feedsLost_keeps ?_ ?_
  | split
  | (intro hp hq; exact feedPgood_of hp _)
  | (intro hp hq; have hf := feedPgood_of hp f; have hg := feedPgood_of hq f; simp_all [FeedPgood, FeedState.enter, FeedState.gateOff, FeedState.sample]; done)
  | (intro hp; first | exact ⟨hp.1, hp.2⟩ | (have hf := feedPgood_of hp f; cases hv : (feedOf s f).pgood <;> simp_all [FeedPgood, FeedState.enter, FeedState.gateOff, FeedState.sample] <;> done))
  | (intro _ _)

theorem tripFeed_keeps {mk : Nat} {sk : State} {s : State} {f : Feed} {cause : Nat} (hk : Keeps mk sk s) (hm : 8388607 &&& mk = 8388607) :
    Keeps mk sk (tripFeed s f cause) := by
  suffices g : Keeps 8388607 s (tripFeed s f cause) from hk.trans (g.weaken hm)
  unfold tripFeed
  try dsimp only
  repeat' first
  | with_reducible exact Keeps.refl _
  | with_reducible assumption
  | with_reducible decide
  | with_reducible refine feedCount_keeps ?_ ?_
  | with_reducible refine feedEvent_keeps ?_ ?_
  | with_reducible refine health_keeps ?_ ?_
  | with_reducible refine pgoodReleased_keeps ?_ ?_
  | with_reducible refine setFeed_keeps ?_ ?_ ?_
  | split
  | (intro hp hq; exact feedPgood_of hp _)
  | (intro hp hq; have hf := feedPgood_of hp f; have hg := feedPgood_of hq f; simp_all [FeedPgood, FeedState.enter, FeedState.gateOff, FeedState.sample]; done)
  | (intro hp; first | exact ⟨hp.1, hp.2⟩ | (have hf := feedPgood_of hp f; cases hv : (feedOf s f).pgood <;> simp_all [FeedPgood, FeedState.enter, FeedState.gateOff, FeedState.sample] <;> done))
  | (intro _ _)

theorem failFeed_keeps {mk : Nat} {sk : State} {s : State} {f : Feed} {mark : FailMark} {extra : Nat} (hk : Keeps mk sk s) (hm : 8388607 &&& mk = 8388607) :
    Keeps mk sk (failFeed s f mark extra) := by
  suffices g : Keeps 8388607 s (failFeed s f mark extra) from hk.trans (g.weaken hm)
  unfold failFeed
  try dsimp only
  repeat' first
  | with_reducible exact Keeps.refl _
  | with_reducible assumption
  | with_reducible decide
  | with_reducible refine feedEvent_keeps ?_ ?_
  | with_reducible refine health_keeps ?_ ?_
  | with_reducible refine pgoodReleased_keeps ?_ ?_
  | with_reducible refine setFeed_keeps ?_ ?_ ?_
  | split
  | (intro hp hq; exact feedPgood_of hp _)
  | (intro hp hq; have hf := feedPgood_of hp f; have hg := feedPgood_of hq f; simp_all [FeedPgood, FeedState.enter, FeedState.gateOff, FeedState.sample]; done)
  | (intro hp; first | exact ⟨hp.1, hp.2⟩ | (have hf := feedPgood_of hp f; cases hv : (feedOf s f).pgood <;> simp_all [FeedPgood, FeedState.enter, FeedState.gateOff, FeedState.sample] <;> done))
  | (intro _ _)

theorem clearFeed_keeps {mk : Nat} {sk s : State} {f : Feed} {cycled : Nat} (hk : Keeps mk sk s)
    (hm : 7364632 &&& mk = 7364632) (hx : PgoodExact s → (feedOf s f).pgood = false) : Keeps mk sk (clearFeed s f cycled) := by
  suffices g : Keeps 7364632 s (clearFeed s f cycled) from hk.trans (g.weaken hm)
  unfold clearFeed
  refine health_keeps (feedEvent_keeps (setFeed_keeps (Keeps.refl s) ?_ ?_) ?_) ?_
  · decide
  · intro hp _
    simp [FeedPgood, FeedState.enter, hx hp]
  · decide
  · decide

theorem startFeed_pgood {s : State} (hp : PgoodExact s) (f : Feed) (mv : Nat) : FeedPgood (startFeed s f mv) := by
  have hf := feedPgood_of hp f
  unfold startFeed
  dsimp only
  split
  · split <;> simp_all [FeedPgood, FeedState.enter, FeedState.sample]
  · simpa [FeedPgood, FeedState.sample] using hf

theorem supplyRise_keeps {mk : Nat} {sk : State} {vkeepMv aMv bMv : Nat} {s : State} (hk : Keeps mk sk s)
    (hm : 7364632 &&& mk = 7364632) : Keeps mk sk (supplyRise vkeepMv aMv bMv s) := by
  suffices g : Keeps 7364632 s (supplyRise vkeepMv aMv bMv s) from hk.trans (g.weaken hm)
  unfold supplyRise
  split
  · extract_lets kept q s1 s2
    have h1 : Keeps 7364632 s s1 :=
      Keeps.power' (Keeps.refl s) _ rfl (fun hp => ⟨startFeed_pgood hp .a aMv, startFeed_pgood hp .b bMv⟩)
    have h2 : Keeps 7364632 s s2 := changeState_keeps h1 (by decide)
    split
    · exact event_keeps h2 (by decide)
    · exact h2
  · exact Keeps.refl s

theorem execSupplyRise_keeps {mk : Nat} {sk : State} {vkeepMv : Nat} {aMv : Nat} {bMv : Nat} {s : State} (hk : Keeps mk sk s) (hm : 7364632 &&& mk = 7364632) :
    ∃ t', execSupplyRise vkeepMv aMv bMv s = .next t' ∧ Keeps mk sk t' := by
  suffices g : ∃ t', execSupplyRise vkeepMv aMv bMv s = .next t' ∧ Keeps 7364632 s t' from g.imp fun _ h => ⟨h.1, hk.trans (h.2.weaken hm)⟩
  refine ⟨_, rfl, ?_⟩
  with_reducible repeat' first
  | exact Keeps.refl _
  | assumption
  | decide
  | refine supplyRise_keeps ?_ ?_
  | (intro _ _)
  | split
  | dsimp only

theorem feedRampStart_keeps {mk : Nat} {sk : State} {f : Feed} {mv : Nat} {outMv : Nat} {s : State} (hk : Keeps mk sk s) (hm : 8388607 &&& mk = 8388607) :
    Keeps mk sk (feedRampStart f mv outMv s) := by
  suffices g : Keeps 8388607 s (feedRampStart f mv outMv s) from hk.trans (g.weaken hm)
  unfold feedRampStart
  try dsimp only
  repeat' first
  | with_reducible exact Keeps.refl _
  | with_reducible assumption
  | with_reducible decide
  | with_reducible refine failFeed_keeps ?_ ?_
  | with_reducible refine feedCount_keeps ?_ ?_
  | with_reducible refine feedEvent_keeps ?_ ?_
  | with_reducible refine setFeed_keeps ?_ ?_ ?_
  | split
  | (intro hp hq; exact feedPgood_of hp _)
  | (intro hp hq; have hf := feedPgood_of hp f; have hg := feedPgood_of hq f; simp_all [FeedPgood, FeedState.enter, FeedState.gateOff, FeedState.sample]; done)
  | (intro hp; first | exact ⟨hp.1, hp.2⟩ | (have hf := feedPgood_of hp f; cases hv : (feedOf s f).pgood <;> simp_all [FeedPgood, FeedState.enter, FeedState.gateOff, FeedState.sample] <;> done))
  | (intro _ _)

theorem execFeedRampStart_keeps {mk : Nat} {sk : State} {f : Feed} {mv : Nat} {outMv : Nat} {s : State} (hk : Keeps mk sk s) (hm : 8388607 &&& mk = 8388607) :
    ∃ t', execFeedRampStart f mv outMv s = .next t' ∧ Keeps mk sk t' := by
  suffices g : ∃ t', execFeedRampStart f mv outMv s = .next t' ∧ Keeps 8388607 s t' from g.imp fun _ h => ⟨h.1, hk.trans (h.2.weaken hm)⟩
  refine ⟨_, rfl, ?_⟩
  with_reducible repeat' first
  | exact Keeps.refl _
  | assumption
  | decide
  | refine feedRampStart_keeps ?_ ?_
  | (intro _ _)
  | split
  | dsimp only

theorem shortFailCheck_keeps {mk : Nat} {sk : State} {f : Feed} {mv : Nat} {outMv : Nat} {s : State} (hk : Keeps mk sk s) (hm : 8388607 &&& mk = 8388607) :
    Keeps mk sk (shortFailCheck f mv outMv s) := by
  suffices g : Keeps 8388607 s (shortFailCheck f mv outMv s) from hk.trans (g.weaken hm)
  unfold shortFailCheck
  try dsimp only
  repeat' first
  | with_reducible exact Keeps.refl _
  | with_reducible assumption
  | with_reducible decide
  | with_reducible refine failFeed_keeps ?_ ?_
  | with_reducible refine setFeed_keeps ?_ ?_ ?_
  | split
  | (intro hp hq; exact feedPgood_of hp _)
  | (intro hp hq; have hf := feedPgood_of hp f; have hg := feedPgood_of hq f; simp_all [FeedPgood, FeedState.enter, FeedState.gateOff, FeedState.sample]; done)
  | (intro hp; first | exact ⟨hp.1, hp.2⟩ | (have hf := feedPgood_of hp f; cases hv : (feedOf s f).pgood <;> simp_all [FeedPgood, FeedState.enter, FeedState.gateOff, FeedState.sample] <;> done))
  | (intro _ _)

theorem execShortFailCheck_keeps {mk : Nat} {sk : State} {f : Feed} {mv : Nat} {outMv : Nat} {s : State} (hk : Keeps mk sk s) (hm : 8388607 &&& mk = 8388607) :
    ∃ t', execShortFailCheck f mv outMv s = .next t' ∧ Keeps mk sk t' := by
  suffices g : ∃ t', execShortFailCheck f mv outMv s = .next t' ∧ Keeps 8388607 s t' from g.imp fun _ h => ⟨h.1, hk.trans (h.2.weaken hm)⟩
  refine ⟨_, rfl, ?_⟩
  with_reducible repeat' first
  | exact Keeps.refl _
  | assumption
  | decide
  | refine shortFailCheck_keeps ?_ ?_
  | (intro _ _)
  | split
  | dsimp only

theorem feedRampComplete_keeps {mk : Nat} {sk : State} {f : Feed} {mv : Nat} {outMv : Nat} {gateMv : Nat} {s : State} (hk : Keeps mk sk s) (hm : 16 &&& mk = 16) :
    Keeps mk sk (feedRampComplete f mv outMv gateMv s) := by
  suffices g : Keeps 16 s (feedRampComplete f mv outMv gateMv s) from hk.trans (g.weaken hm)
  unfold feedRampComplete
  try dsimp only
  repeat' first
  | with_reducible exact Keeps.refl _
  | with_reducible assumption
  | with_reducible decide
  | with_reducible refine setFeed_keeps ?_ ?_ ?_
  | split
  | (intro hp hq; exact feedPgood_of hp _)
  | (intro hp hq; have hf := feedPgood_of hp f; have hg := feedPgood_of hq f; simp_all [FeedPgood, FeedState.enter, FeedState.gateOff, FeedState.sample]; done)
  | (intro hp; first | exact ⟨hp.1, hp.2⟩ | (have hf := feedPgood_of hp f; cases hv : (feedOf s f).pgood <;> simp_all [FeedPgood, FeedState.enter, FeedState.gateOff, FeedState.sample] <;> done))
  | (intro _ _)

theorem execFeedRampComplete_keeps {mk : Nat} {sk : State} {f : Feed} {mv : Nat} {outMv : Nat} {gateMv : Nat} {s : State} (hk : Keeps mk sk s) (hm : 16 &&& mk = 16) :
    ∃ t', execFeedRampComplete f mv outMv gateMv s = .next t' ∧ Keeps mk sk t' := by
  suffices g : ∃ t', execFeedRampComplete f mv outMv gateMv s = .next t' ∧ Keeps 16 s t' from g.imp fun _ h => ⟨h.1, hk.trans (h.2.weaken hm)⟩
  refine ⟨_, rfl, ?_⟩
  with_reducible repeat' first
  | exact Keeps.refl _
  | assumption
  | decide
  | refine feedRampComplete_keeps ?_ ?_
  | (intro _ _)
  | split
  | dsimp only

theorem gateFailTimeout_keeps {mk : Nat} {sk : State} {f : Feed} {mv : Nat} {gateMv : Nat} {s : State} (hk : Keeps mk sk s) (hm : 8388607 &&& mk = 8388607) :
    Keeps mk sk (gateFailTimeout f mv gateMv s) := by
  suffices g : Keeps 8388607 s (gateFailTimeout f mv gateMv s) from hk.trans (g.weaken hm)
  unfold gateFailTimeout
  try dsimp only
  repeat' first
  | with_reducible exact Keeps.refl _
  | with_reducible assumption
  | with_reducible decide
  | with_reducible refine failFeed_keeps ?_ ?_
  | with_reducible refine setFeed_keeps ?_ ?_ ?_
  | split
  | (intro hp hq; exact feedPgood_of hp _)
  | (intro hp hq; have hf := feedPgood_of hp f; have hg := feedPgood_of hq f; simp_all [FeedPgood, FeedState.enter, FeedState.gateOff, FeedState.sample]; done)
  | (intro hp; first | exact ⟨hp.1, hp.2⟩ | (have hf := feedPgood_of hp f; cases hv : (feedOf s f).pgood <;> simp_all [FeedPgood, FeedState.enter, FeedState.gateOff, FeedState.sample] <;> done))
  | (intro _ _)

theorem execGateFailTimeout_keeps {mk : Nat} {sk : State} {f : Feed} {mv : Nat} {gateMv : Nat} {s : State} (hk : Keeps mk sk s) (hm : 8388607 &&& mk = 8388607) :
    ∃ t', execGateFailTimeout f mv gateMv s = .next t' ∧ Keeps mk sk t' := by
  suffices g : ∃ t', execGateFailTimeout f mv gateMv s = .next t' ∧ Keeps 8388607 s t' from g.imp fun _ h => ⟨h.1, hk.trans (h.2.weaken hm)⟩
  refine ⟨_, rfl, ?_⟩
  with_reducible repeat' first
  | exact Keeps.refl _
  | assumption
  | decide
  | refine gateFailTimeout_keeps ?_ ?_
  | (intro _ _)
  | split
  | dsimp only

theorem feedGood_keeps {mk : Nat} {sk : State} {f : Feed} {mv : Nat} {s : State} (hk : Keeps mk sk s) (hm : 7364624 &&& mk = 7364624) :
    Keeps mk sk (feedGood f mv s) := by
  suffices g : Keeps 7364624 s (feedGood f mv s) from hk.trans (g.weaken hm)
  unfold feedGood
  try dsimp only
  repeat' first
  | with_reducible exact Keeps.refl _
  | with_reducible assumption
  | with_reducible decide
  | with_reducible refine feedEvent_keeps ?_ ?_
  | with_reducible refine setFeed_keeps ?_ ?_ ?_
  | split
  | (intro hp hq; exact feedPgood_of hp _)
  | (intro hp hq; have hf := feedPgood_of hp f; have hg := feedPgood_of hq f; simp_all [FeedPgood, FeedState.enter, FeedState.gateOff, FeedState.sample]; done)
  | (intro hp; first | exact ⟨hp.1, hp.2⟩ | (have hf := feedPgood_of hp f; cases hv : (feedOf s f).pgood <;> simp_all [FeedPgood, FeedState.enter, FeedState.gateOff, FeedState.sample] <;> done))
  | (intro _ _)

theorem feedQualifyDone_keeps {mk : Nat} {sk : State} {f : Feed} {mv : Nat} {s : State} (hk : Keeps mk sk s) (hm : 7364632 &&& mk = 7364632) :
    Keeps mk sk (feedQualifyDone f mv s) := by
  suffices g : Keeps 7364632 s (feedQualifyDone f mv s) from hk.trans (g.weaken hm)
  unfold feedQualifyDone
  try dsimp only
  repeat' first
  | with_reducible exact Keeps.refl _
  | with_reducible assumption
  | with_reducible decide
  | with_reducible refine changeState_keeps ?_ ?_
  | with_reducible refine feedGood_keeps ?_ ?_
  | with_reducible refine health_keeps ?_ ?_
  | split
  | (intro hp hq; exact feedPgood_of hp _)
  | (intro hp hq; have hf := feedPgood_of hp f; have hg := feedPgood_of hq f; simp_all [FeedPgood, FeedState.enter, FeedState.gateOff, FeedState.sample]; done)
  | (intro hp; first | exact ⟨hp.1, hp.2⟩ | (have hf := feedPgood_of hp f; cases hv : (feedOf s f).pgood <;> simp_all [FeedPgood, FeedState.enter, FeedState.gateOff, FeedState.sample] <;> done))
  | (intro _ _)

theorem execFeedQualifyDone_keeps {mk : Nat} {sk : State} {f : Feed} {mv : Nat} {s : State} (hk : Keeps mk sk s) (hm : 7364632 &&& mk = 7364632) :
    ∃ t', execFeedQualifyDone f mv s = .next t' ∧ Keeps mk sk t' := by
  suffices g : ∃ t', execFeedQualifyDone f mv s = .next t' ∧ Keeps 7364632 s t' from g.imp fun _ h => ⟨h.1, hk.trans (h.2.weaken hm)⟩
  refine ⟨_, rfl, ?_⟩
  with_reducible repeat' first
  | exact Keeps.refl _
  | assumption
  | decide
  | refine feedQualifyDone_keeps ?_ ?_
  | (intro _ _)
  | split
  | dsimp only

theorem currentLimitEnter_keeps {mk : Nat} {sk : State} {f : Feed} {mv : Nat} {outMv : Nat} {ma : Nat} {s : State} (hk : Keeps mk sk s) (hm : 7364624 &&& mk = 7364624) :
    Keeps mk sk (currentLimitEnter f mv outMv ma s) := by
  suffices g : Keeps 7364624 s (currentLimitEnter f mv outMv ma s) from hk.trans (g.weaken hm)
  unfold currentLimitEnter
  try dsimp only
  repeat' first
  | with_reducible exact Keeps.refl _
  | with_reducible assumption
  | with_reducible decide
  | with_reducible refine feedCount_keeps ?_ ?_
  | with_reducible refine feedEvent_keeps ?_ ?_
  | with_reducible refine setFeed_keeps ?_ ?_ ?_
  | split
  | (intro hp hq; exact feedPgood_of hp _)
  | (intro hp hq; have hf := feedPgood_of hp f; have hg := feedPgood_of hq f; simp_all [FeedPgood, FeedState.enter, FeedState.gateOff, FeedState.sample]; done)
  | (intro hp; first | exact ⟨hp.1, hp.2⟩ | (have hf := feedPgood_of hp f; cases hv : (feedOf s f).pgood <;> simp_all [FeedPgood, FeedState.enter, FeedState.gateOff, FeedState.sample] <;> done))
  | (intro _ _)

theorem execCurrentLimitEnter_keeps {mk : Nat} {sk : State} {f : Feed} {mv : Nat} {outMv : Nat} {ma : Nat} {s : State} (hk : Keeps mk sk s) (hm : 7364624 &&& mk = 7364624) :
    ∃ t', execCurrentLimitEnter f mv outMv ma s = .next t' ∧ Keeps mk sk t' := by
  suffices g : ∃ t', execCurrentLimitEnter f mv outMv ma s = .next t' ∧ Keeps 7364624 s t' from g.imp fun _ h => ⟨h.1, hk.trans (h.2.weaken hm)⟩
  refine ⟨_, rfl, ?_⟩
  with_reducible repeat' first
  | exact Keeps.refl _
  | assumption
  | decide
  | refine currentLimitEnter_keeps ?_ ?_
  | (intro _ _)
  | split
  | dsimp only

theorem currentLimitExit_keeps {mk : Nat} {sk : State} {f : Feed} {ma : Nat} {s : State} (hk : Keeps mk sk s) (hm : 16 &&& mk = 16) :
    Keeps mk sk (currentLimitExit f ma s) := by
  suffices g : Keeps 16 s (currentLimitExit f ma s) from hk.trans (g.weaken hm)
  unfold currentLimitExit
  try dsimp only
  repeat' first
  | with_reducible exact Keeps.refl _
  | with_reducible assumption
  | with_reducible decide
  | with_reducible refine setFeed_keeps ?_ ?_ ?_
  | split
  | (intro hp hq; exact feedPgood_of hp _)
  | (intro hp hq; have hf := feedPgood_of hp f; have hg := feedPgood_of hq f; simp_all [FeedPgood, FeedState.enter, FeedState.gateOff, FeedState.sample]; done)
  | (intro hp; first | exact ⟨hp.1, hp.2⟩ | (have hf := feedPgood_of hp f; cases hv : (feedOf s f).pgood <;> simp_all [FeedPgood, FeedState.enter, FeedState.gateOff, FeedState.sample] <;> done))
  | (intro _ _)

theorem execCurrentLimitExit_keeps {mk : Nat} {sk : State} {f : Feed} {ma : Nat} {s : State} (hk : Keeps mk sk s) (hm : 16 &&& mk = 16) :
    ∃ t', execCurrentLimitExit f ma s = .next t' ∧ Keeps mk sk t' := by
  suffices g : ∃ t', execCurrentLimitExit f ma s = .next t' ∧ Keeps 16 s t' from g.imp fun _ h => ⟨h.1, hk.trans (h.2.weaken hm)⟩
  refine ⟨_, rfl, ?_⟩
  with_reducible repeat' first
  | exact Keeps.refl _
  | assumption
  | decide
  | refine currentLimitExit_keeps ?_ ?_
  | (intro _ _)
  | split
  | dsimp only

theorem faultTimerExpiry_keeps {mk : Nat} {sk : State} {f : Feed} {mv : Nat} {s : State} (hk : Keeps mk sk s) (hm : 8388607 &&& mk = 8388607) :
    Keeps mk sk (faultTimerExpiry f mv s) := by
  suffices g : Keeps 8388607 s (faultTimerExpiry f mv s) from hk.trans (g.weaken hm)
  unfold faultTimerExpiry
  try dsimp only
  repeat' first
  | with_reducible exact Keeps.refl _
  | with_reducible assumption
  | with_reducible decide
  | with_reducible refine setFeed_keeps ?_ ?_ ?_
  | with_reducible refine tripFeed_keeps ?_ ?_
  | split
  | (intro hp hq; exact feedPgood_of hp _)
  | (intro hp hq; have hf := feedPgood_of hp f; have hg := feedPgood_of hq f; simp_all [FeedPgood, FeedState.enter, FeedState.gateOff, FeedState.sample]; done)
  | (intro hp; first | exact ⟨hp.1, hp.2⟩ | (have hf := feedPgood_of hp f; cases hv : (feedOf s f).pgood <;> simp_all [FeedPgood, FeedState.enter, FeedState.gateOff, FeedState.sample] <;> done))
  | (intro _ _)

theorem execFaultTimerExpiry_keeps {mk : Nat} {sk : State} {f : Feed} {mv : Nat} {s : State} (hk : Keeps mk sk s) (hm : 8388607 &&& mk = 8388607) :
    ∃ t', execFaultTimerExpiry f mv s = .next t' ∧ Keeps mk sk t' := by
  suffices g : ∃ t', execFaultTimerExpiry f mv s = .next t' ∧ Keeps 8388607 s t' from g.imp fun _ h => ⟨h.1, hk.trans (h.2.weaken hm)⟩
  refine ⟨_, rfl, ?_⟩
  with_reducible repeat' first
  | exact Keeps.refl _
  | assumption
  | decide
  | refine faultTimerExpiry_keeps ?_ ?_
  | (intro _ _)
  | split
  | dsimp only

theorem fastTrip_keeps {mk : Nat} {sk : State} {f : Feed} {mv : Nat} {ma : Nat} {s : State} (hk : Keeps mk sk s) (hm : 8388607 &&& mk = 8388607) :
    Keeps mk sk (fastTrip f mv ma s) := by
  suffices g : Keeps 8388607 s (fastTrip f mv ma s) from hk.trans (g.weaken hm)
  unfold fastTrip
  try dsimp only
  repeat' first
  | with_reducible exact Keeps.refl _
  | with_reducible assumption
  | with_reducible decide
  | with_reducible refine setFeed_keeps ?_ ?_ ?_
  | with_reducible refine tripFeed_keeps ?_ ?_
  | split
  | (intro hp hq; exact feedPgood_of hp _)
  | (intro hp hq; have hf := feedPgood_of hp f; have hg := feedPgood_of hq f; simp_all [FeedPgood, FeedState.enter, FeedState.gateOff, FeedState.sample]; done)
  | (intro hp; first | exact ⟨hp.1, hp.2⟩ | (have hf := feedPgood_of hp f; cases hv : (feedOf s f).pgood <;> simp_all [FeedPgood, FeedState.enter, FeedState.gateOff, FeedState.sample] <;> done))
  | (intro _ _)

theorem execFastTrip_keeps {mk : Nat} {sk : State} {f : Feed} {mv : Nat} {ma : Nat} {s : State} (hk : Keeps mk sk s) (hm : 8388607 &&& mk = 8388607) :
    ∃ t', execFastTrip f mv ma s = .next t' ∧ Keeps mk sk t' := by
  suffices g : ∃ t', execFastTrip f mv ma s = .next t' ∧ Keeps 8388607 s t' from g.imp fun _ h => ⟨h.1, hk.trans (h.2.weaken hm)⟩
  refine ⟨_, rfl, ?_⟩
  with_reducible repeat' first
  | exact Keeps.refl _
  | assumption
  | decide
  | refine fastTrip_keeps ?_ ?_
  | (intro _ _)
  | split
  | dsimp only

theorem cooldownExpiry_keeps {mk : Nat} {sk : State} {f : Feed} {mv : Nat} {s : State} (hk : Keeps mk sk s) (hm : 7364624 &&& mk = 7364624) :
    Keeps mk sk (cooldownExpiry f mv s) := by
  suffices g : Keeps 7364624 s (cooldownExpiry f mv s) from hk.trans (g.weaken hm)
  unfold cooldownExpiry
  try dsimp only
  repeat' first
  | with_reducible exact Keeps.refl _
  | with_reducible assumption
  | with_reducible decide
  | with_reducible refine feedEvent_keeps ?_ ?_
  | with_reducible refine setFeed_keeps ?_ ?_ ?_
  | split
  | (intro hp hq; exact feedPgood_of hp _)
  | (intro hp hq; have hf := feedPgood_of hp f; have hg := feedPgood_of hq f; simp_all [FeedPgood, FeedState.enter, FeedState.gateOff, FeedState.sample]; done)
  | (intro hp; first | exact ⟨hp.1, hp.2⟩ | (have hf := feedPgood_of hp f; cases hv : (feedOf s f).pgood <;> simp_all [FeedPgood, FeedState.enter, FeedState.gateOff, FeedState.sample] <;> done))
  | (intro _ _)

theorem execCooldownExpiry_keeps {mk : Nat} {sk : State} {f : Feed} {mv : Nat} {s : State} (hk : Keeps mk sk s) (hm : 7364624 &&& mk = 7364624) :
    ∃ t', execCooldownExpiry f mv s = .next t' ∧ Keeps mk sk t' := by
  suffices g : ∃ t', execCooldownExpiry f mv s = .next t' ∧ Keeps 7364624 s t' from g.imp fun _ h => ⟨h.1, hk.trans (h.2.weaken hm)⟩
  refine ⟨_, rfl, ?_⟩
  with_reducible repeat' first
  | exact Keeps.refl _
  | assumption
  | decide
  | refine cooldownExpiry_keeps ?_ ?_
  | (intro _ _)
  | split
  | dsimp only

theorem feedOutOfRange_keeps {mk : Nat} {sk : State} {f : Feed} {mv : Nat} {s : State} (hk : Keeps mk sk s) (hm : 8388607 &&& mk = 8388607) :
    Keeps mk sk (feedOutOfRange f mv s) := by
  suffices g : Keeps 8388607 s (feedOutOfRange f mv s) from hk.trans (g.weaken hm)
  unfold feedOutOfRange
  try dsimp only
  repeat' first
  | with_reducible exact Keeps.refl _
  | with_reducible assumption
  | with_reducible decide
  | with_reducible refine feedCount_keeps ?_ ?_
  | with_reducible refine feedEvent_keeps ?_ ?_
  | with_reducible refine health_keeps ?_ ?_
  | with_reducible refine pgoodReleased_keeps ?_ ?_
  | with_reducible refine setFeed_keeps ?_ ?_ ?_
  | with_reducible refine suppliesChecked_keeps ?_ ?_
  | split
  | (intro hp hq; exact feedPgood_of hp _)
  | (intro hp hq; have hf := feedPgood_of hp f; have hg := feedPgood_of hq f; simp_all [FeedPgood, FeedState.enter, FeedState.gateOff, FeedState.sample]; done)
  | (intro hp; first | exact ⟨hp.1, hp.2⟩ | (have hf := feedPgood_of hp f; cases hv : (feedOf s f).pgood <;> simp_all [FeedPgood, FeedState.enter, FeedState.gateOff, FeedState.sample] <;> done))
  | (intro _ _)

theorem execFeedOutOfRange_keeps {mk : Nat} {sk : State} {f : Feed} {mv : Nat} {s : State} (hk : Keeps mk sk s) (hm : 8388607 &&& mk = 8388607) :
    ∃ t', execFeedOutOfRange f mv s = .next t' ∧ Keeps mk sk t' := by
  suffices g : ∃ t', execFeedOutOfRange f mv s = .next t' ∧ Keeps 8388607 s t' from g.imp fun _ h => ⟨h.1, hk.trans (h.2.weaken hm)⟩
  refine ⟨_, rfl, ?_⟩
  with_reducible repeat' first
  | exact Keeps.refl _
  | assumption
  | decide
  | refine feedOutOfRange_keeps ?_ ?_
  | (intro _ _)
  | split
  | dsimp only

theorem feedPowerCycled_keeps {mk : Nat} {sk : State} {f : Feed} {mv : Nat} {s : State} (hk : Keeps mk sk s) (hm : 7364632 &&& mk = 7364632) :
    Keeps mk sk (feedPowerCycled f mv s) := by
  suffices g : Keeps 7364632 s (feedPowerCycled f mv s) from hk.trans (g.weaken hm)
  unfold feedPowerCycled
  try dsimp only
  repeat' first
  | with_reducible exact Keeps.refl _
  | with_reducible assumption
  | with_reducible decide
  | with_reducible refine clearFeed_keeps ?_ ?_ ?_
  | with_reducible refine setFeed_keeps ?_ ?_ ?_
  | split
  | (intro hp hq; exact feedPgood_of hp _)
  | (intro hp hq; have hf := feedPgood_of hp f; have hg := feedPgood_of hq f; simp_all [FeedPgood, FeedState.enter, FeedState.gateOff, FeedState.sample]; done)
  | (intro hp; first | exact ⟨hp.1, hp.2⟩ | (have hf := feedPgood_of hp f; cases hv : (feedOf s f).pgood <;> simp_all [FeedPgood, FeedState.enter, FeedState.gateOff, FeedState.sample] <;> done))
  | (intro _ _)

theorem execFeedPowerCycled_keeps {mk : Nat} {sk : State} {f : Feed} {mv : Nat} {s : State} (hk : Keeps mk sk s) (hm : 7364632 &&& mk = 7364632) :
    ∃ t', execFeedPowerCycled f mv s = .next t' ∧ Keeps mk sk t' := by
  suffices g : ∃ t', execFeedPowerCycled f mv s = .next t' ∧ Keeps 7364632 s t' from g.imp fun _ h => ⟨h.1, hk.trans (h.2.weaken hm)⟩
  refine ⟨_, rfl, ?_⟩
  with_reducible repeat' first
  | exact Keeps.refl _
  | assumption
  | decide
  | refine feedPowerCycled_keeps ?_ ?_
  | (intro _ _)
  | split
  | dsimp only

theorem tripCountReset_keeps {mk : Nat} {sk : State} {f : Feed} {s : State} (hk : Keeps mk sk s) (hm : 16 &&& mk = 16) :
    Keeps mk sk (tripCountReset f s) := by
  suffices g : Keeps 16 s (tripCountReset f s) from hk.trans (g.weaken hm)
  unfold tripCountReset
  try dsimp only
  repeat' first
  | with_reducible exact Keeps.refl _
  | with_reducible assumption
  | with_reducible decide
  | with_reducible refine setFeed_keeps ?_ ?_ ?_
  | split
  | (intro hp hq; exact feedPgood_of hp _)
  | (intro hp hq; have hf := feedPgood_of hp f; have hg := feedPgood_of hq f; simp_all [FeedPgood, FeedState.enter, FeedState.gateOff, FeedState.sample]; done)
  | (intro hp; first | exact ⟨hp.1, hp.2⟩ | (have hf := feedPgood_of hp f; cases hv : (feedOf s f).pgood <;> simp_all [FeedPgood, FeedState.enter, FeedState.gateOff, FeedState.sample] <;> done))
  | (intro _ _)

theorem execTripCountReset_keeps {mk : Nat} {sk : State} {f : Feed} {s : State} (hk : Keeps mk sk s) (hm : 16 &&& mk = 16) :
    ∃ t', execTripCountReset f s = .next t' ∧ Keeps mk sk t' := by
  suffices g : ∃ t', execTripCountReset f s = .next t' ∧ Keeps 16 s t' from g.imp fun _ h => ⟨h.1, hk.trans (h.2.weaken hm)⟩
  refine ⟨_, rfl, ?_⟩
  with_reducible repeat' first
  | exact Keeps.refl _
  | assumption
  | decide
  | refine tripCountReset_keeps ?_ ?_
  | (intro _ _)
  | split
  | dsimp only

theorem idealDiodeReverseOff_keeps {mk : Nat} {sk : State} {f : Feed} {mv : Nat} {reverseMa : Nat} {s : State} (hk : Keeps mk sk s) (hm : 7364624 &&& mk = 7364624) :
    Keeps mk sk (idealDiodeReverseOff f mv reverseMa s) := by
  suffices g : Keeps 7364624 s (idealDiodeReverseOff f mv reverseMa s) from hk.trans (g.weaken hm)
  unfold idealDiodeReverseOff
  try dsimp only
  repeat' first
  | with_reducible exact Keeps.refl _
  | with_reducible assumption
  | with_reducible decide
  | with_reducible refine feedCount_keeps ?_ ?_
  | with_reducible refine feedEvent_keeps ?_ ?_
  | with_reducible refine rateEvent_keeps ?_ rfl (fun u a hu => ?_)
  | with_reducible refine setFeed_keeps ?_ ?_ ?_
  | split
  | (intro hp hq; exact feedPgood_of hp _)
  | (intro hp hq; have hf := feedPgood_of hp f; have hg := feedPgood_of hq f; simp_all [FeedPgood, FeedState.enter, FeedState.gateOff, FeedState.sample]; done)
  | (intro hp; first | exact ⟨hp.1, hp.2⟩ | (have hf := feedPgood_of hp f; cases hv : (feedOf s f).pgood <;> simp_all [FeedPgood, FeedState.enter, FeedState.gateOff, FeedState.sample] <;> done))
  | (intro _ _)

theorem execIdealDiodeReverseOff_keeps {mk : Nat} {sk : State} {f : Feed} {mv : Nat} {reverseMa : Nat} {s : State} (hk : Keeps mk sk s) (hm : 7364624 &&& mk = 7364624) :
    ∃ t', execIdealDiodeReverseOff f mv reverseMa s = .next t' ∧ Keeps mk sk t' := by
  suffices g : ∃ t', execIdealDiodeReverseOff f mv reverseMa s = .next t' ∧ Keeps 7364624 s t' from g.imp fun _ h => ⟨h.1, hk.trans (h.2.weaken hm)⟩
  refine ⟨_, rfl, ?_⟩
  with_reducible repeat' first
  | exact Keeps.refl _
  | assumption
  | decide
  | refine idealDiodeReverseOff_keeps ?_ ?_
  | (intro _ _)
  | split
  | dsimp only

theorem reverseFailCheck_keeps {mk : Nat} {sk : State} {f : Feed} {mv : Nat} {reverseMa : Nat} {s : State} (hk : Keeps mk sk s) (hm : 8388607 &&& mk = 8388607) :
    Keeps mk sk (reverseFailCheck f mv reverseMa s) := by
  suffices g : Keeps 8388607 s (reverseFailCheck f mv reverseMa s) from hk.trans (g.weaken hm)
  unfold reverseFailCheck
  try dsimp only
  repeat' first
  | with_reducible exact Keeps.refl _
  | with_reducible assumption
  | with_reducible decide
  | with_reducible refine failFeed_keeps ?_ ?_
  | with_reducible refine setFeed_keeps ?_ ?_ ?_
  | split
  | (intro hp hq; exact feedPgood_of hp _)
  | (intro hp hq; have hf := feedPgood_of hp f; have hg := feedPgood_of hq f; simp_all [FeedPgood, FeedState.enter, FeedState.gateOff, FeedState.sample]; done)
  | (intro hp; first | exact ⟨hp.1, hp.2⟩ | (have hf := feedPgood_of hp f; cases hv : (feedOf s f).pgood <;> simp_all [FeedPgood, FeedState.enter, FeedState.gateOff, FeedState.sample] <;> done))
  | (intro _ _)

theorem execReverseFailCheck_keeps {mk : Nat} {sk : State} {f : Feed} {mv : Nat} {reverseMa : Nat} {s : State} (hk : Keeps mk sk s) (hm : 8388607 &&& mk = 8388607) :
    ∃ t', execReverseFailCheck f mv reverseMa s = .next t' ∧ Keeps mk sk t' := by
  suffices g : ∃ t', execReverseFailCheck f mv reverseMa s = .next t' ∧ Keeps 8388607 s t' from g.imp fun _ h => ⟨h.1, hk.trans (h.2.weaken hm)⟩
  refine ⟨_, rfl, ?_⟩
  with_reducible repeat' first
  | exact Keeps.refl _
  | assumption
  | decide
  | refine reverseFailCheck_keeps ?_ ?_
  | (intro _ _)
  | split
  | dsimp only

theorem idealDiodeOn_keeps {mk : Nat} {sk : State} {f : Feed} {mv : Nat} {railMv : Nat} {s : State} (hk : Keeps mk sk s) (hm : 16 &&& mk = 16) :
    Keeps mk sk (idealDiodeOn f mv railMv s) := by
  suffices g : Keeps 16 s (idealDiodeOn f mv railMv s) from hk.trans (g.weaken hm)
  unfold idealDiodeOn
  try dsimp only
  repeat' first
  | with_reducible exact Keeps.refl _
  | with_reducible assumption
  | with_reducible decide
  | with_reducible refine setFeed_keeps ?_ ?_ ?_
  | split
  | (intro hp hq; exact feedPgood_of hp _)
  | (intro hp hq; have hf := feedPgood_of hp f; have hg := feedPgood_of hq f; simp_all [FeedPgood, FeedState.enter, FeedState.gateOff, FeedState.sample]; done)
  | (intro hp; first | exact ⟨hp.1, hp.2⟩ | (have hf := feedPgood_of hp f; cases hv : (feedOf s f).pgood <;> simp_all [FeedPgood, FeedState.enter, FeedState.gateOff, FeedState.sample] <;> done))
  | (intro _ _)

theorem execIdealDiodeOn_keeps {mk : Nat} {sk : State} {f : Feed} {mv : Nat} {railMv : Nat} {s : State} (hk : Keeps mk sk s) (hm : 16 &&& mk = 16) :
    ∃ t', execIdealDiodeOn f mv railMv s = .next t' ∧ Keeps mk sk t' := by
  suffices g : ∃ t', execIdealDiodeOn f mv railMv s = .next t' ∧ Keeps 16 s t' from g.imp fun _ h => ⟨h.1, hk.trans (h.2.weaken hm)⟩
  refine ⟨_, rfl, ?_⟩
  with_reducible repeat' first
  | exact Keeps.refl _
  | assumption
  | decide
  | refine idealDiodeOn_keeps ?_ ?_
  | (intro _ _)
  | split
  | dsimp only

theorem actFeedClear_keeps {mk : Nat} {sk : State} {f : Feed} {s : State} (hk : Keeps mk sk s) (hm : 7364632 &&& mk = 7364632) :
    Keeps mk sk (actFeedClear f s) := by
  suffices g : Keeps 7364632 s (actFeedClear f s) from hk.trans (g.weaken hm)
  unfold actFeedClear
  try dsimp only
  repeat' first
  | with_reducible exact Keeps.refl _
  | with_reducible assumption
  | with_reducible decide
  | with_reducible refine clearFeed_keeps ?_ ?_ ?_
  | split
  | (intro hp hq; exact feedPgood_of hp _)
  | (intro hp hq; have hf := feedPgood_of hp f; have hg := feedPgood_of hq f; simp_all [FeedPgood, FeedState.enter, FeedState.gateOff, FeedState.sample]; done)
  | (intro hp; first | exact ⟨hp.1, hp.2⟩ | (have hf := feedPgood_of hp f; cases hv : (feedOf s f).pgood <;> simp_all [FeedPgood, FeedState.enter, FeedState.gateOff, FeedState.sample] <;> done))
  | (intro _ _)

theorem vkeepChange_keeps {mk : Nat} {sk : State} {mv : Nat} {s : State} (hk : Keeps mk sk s) (hm : 8388607 &&& mk = 8388607) :
    Keeps mk sk (vkeepChange mv s) := by
  suffices g : Keeps 8388607 s (vkeepChange mv s) from hk.trans (g.weaken hm)
  unfold vkeepChange
  try dsimp only
  repeat' first
  | with_reducible exact Keeps.refl _
  | with_reducible assumption
  | with_reducible decide
  | with_reducible refine event_keeps ?_ ?_
  | with_reducible refine suppliesChecked_keeps ?_ ?_
  | split
  | with_reducible refine Keeps.power' ?_ _ rfl ?_
  | (intro hp hq; exact feedPgood_of hp _)
  | (intro hp hq; have hf := feedPgood_of hp f; have hg := feedPgood_of hq f; simp_all [FeedPgood, FeedState.enter, FeedState.gateOff, FeedState.sample]; done)
  | (intro hp; first | exact ⟨hp.1, hp.2⟩ | (have hf := feedPgood_of hp f; cases hv : (feedOf s f).pgood <;> simp_all [FeedPgood, FeedState.enter, FeedState.gateOff, FeedState.sample] <;> done))
  | (intro _ _)

theorem execVkeepChange_keeps {mk : Nat} {sk : State} {mv : Nat} {s : State} (hk : Keeps mk sk s) (hm : 8388607 &&& mk = 8388607) :
    ∃ t', execVkeepChange mv s = .next t' ∧ Keeps mk sk t' := by
  suffices g : ∃ t', execVkeepChange mv s = .next t' ∧ Keeps 8388607 s t' from g.imp fun _ h => ⟨h.1, hk.trans (h.2.weaken hm)⟩
  refine ⟨_, rfl, ?_⟩
  with_reducible repeat' first
  | exact Keeps.refl _
  | assumption
  | decide
  | refine vkeepChange_keeps ?_ ?_
  | (intro _ _)
  | split
  | dsimp only

theorem vioDobChange_keeps {mk : Nat} {sk : State} {mv : Nat} {s : State} (hk : Keeps mk sk s) (hm : 7364624 &&& mk = 7364624) :
    Keeps mk sk (vioDobChange mv s) := by
  suffices g : Keeps 7364624 s (vioDobChange mv s) from hk.trans (g.weaken hm)
  unfold vioDobChange
  try dsimp only
  repeat' first
  | with_reducible exact Keeps.refl _
  | with_reducible assumption
  | with_reducible decide
  | with_reducible refine event_keeps ?_ ?_
  | split
  | with_reducible refine Keeps.power' ?_ _ rfl ?_
  | (intro hp hq; exact feedPgood_of hp _)
  | (intro hp hq; have hf := feedPgood_of hp f; have hg := feedPgood_of hq f; simp_all [FeedPgood, FeedState.enter, FeedState.gateOff, FeedState.sample]; done)
  | (intro hp; first | exact ⟨hp.1, hp.2⟩ | (have hf := feedPgood_of hp f; cases hv : (feedOf s f).pgood <;> simp_all [FeedPgood, FeedState.enter, FeedState.gateOff, FeedState.sample] <;> done))
  | (intro _ _)

theorem execVioDobChange_keeps {mk : Nat} {sk : State} {mv : Nat} {s : State} (hk : Keeps mk sk s) (hm : 7364624 &&& mk = 7364624) :
    ∃ t', execVioDobChange mv s = .next t' ∧ Keeps mk sk t' := by
  suffices g : ∃ t', execVioDobChange mv s = .next t' ∧ Keeps 7364624 s t' from g.imp fun _ h => ⟨h.1, hk.trans (h.2.weaken hm)⟩
  refine ⟨_, rfl, ?_⟩
  with_reducible repeat' first
  | exact Keeps.refl _
  | assumption
  | decide
  | refine vioDobChange_keeps ?_ ?_
  | (intro _ _)
  | split
  | dsimp only

theorem feedEnableCommitted_keeps {mk : Nat} {sk : State} {s : State} {f : Feed} {on : Bool} (hk : Keeps mk sk s) (hm : 8388607 &&& mk = 8388607) :
    Keeps mk sk (feedEnableCommitted s f on) := by
  suffices g : Keeps 8388607 s (feedEnableCommitted s f on) from hk.trans (g.weaken hm)
  unfold feedEnableCommitted
  try dsimp only
  repeat' first
  | with_reducible exact Keeps.refl _
  | with_reducible assumption
  | with_reducible decide
  | with_reducible refine health_keeps ?_ ?_
  | with_reducible refine pgoodReleased_keeps ?_ ?_
  | with_reducible refine setFeed_keeps ?_ ?_ ?_
  | split
  | (intro hp hq; exact feedPgood_of hp _)
  | (intro hp hq; have hf := feedPgood_of hp f; have hg := feedPgood_of hq f; simp_all [FeedPgood, FeedState.enter, FeedState.gateOff, FeedState.sample]; done)
  | (intro hp; first | exact ⟨hp.1, hp.2⟩ | (have hf := feedPgood_of hp f; cases hv : (feedOf s f).pgood <;> simp_all [FeedPgood, FeedState.enter, FeedState.gateOff, FeedState.sample] <;> done))
  | (intro _ _)

/-! ### Governor -/

theorem floorCheck_keeps {mk : Nat} {sk : State} {s : State} (hk : Keeps mk sk s) (hm : 7364648 &&& mk = 7364648) :
    Keeps mk sk (floorCheck s) := by
  suffices g : Keeps 7364648 s (floorCheck s) from hk.trans (g.weaken hm)
  unfold floorCheck
  with_reducible repeat' first
  | exact Keeps.refl _
  | assumption
  | decide
  | (extract_lets +onlyGivenNames s1; have h1 : Keeps 7364648 s s1 := (by unfold s1; repeat' first | exact Keeps.refl _ | assumption | decide | refine count_keeps ?_ ?_ | refine event_keeps ?_ ?_ | refine health_keeps ?_ ?_ | refine Keeps.ite ?_ ?_ | (fail_if_no_progress refine Keeps.gov' ?_ _ rfl) | (intro _ _) | split | dsimp only); clear_value s1)
  | (extract_lets +onlyGivenNames x1; clear_value x1)
  | refine count_keeps ?_ ?_
  | refine event_keeps ?_ ?_
  | refine health_keeps ?_ ?_
  | refine Keeps.ite ?_ ?_
  | (fail_if_no_progress refine Keeps.gov' ?_ _ rfl)
  | (intro _ _)
  | split
  | dsimp only

theorem floorCleared_keeps {mk : Nat} {sk : State} {s : State} (hk : Keeps mk sk s) (hm : 7364648 &&& mk = 7364648) :
    Keeps mk sk (floorCleared s) := by
  suffices g : Keeps 7364648 s (floorCleared s) from hk.trans (g.weaken hm)
  unfold floorCleared
  with_reducible repeat' first
  | exact Keeps.refl _
  | assumption
  | decide
  | (extract_lets +onlyGivenNames s1; have h1 : Keeps 7364648 s s1 := (by unfold s1; repeat' first | exact Keeps.refl _ | assumption | decide | refine event_keeps ?_ ?_ | refine health_keeps ?_ ?_ | (fail_if_no_progress refine Keeps.gov' ?_ _ rfl) | (intro _ _) | split | dsimp only); clear_value s1)
  | (extract_lets +onlyGivenNames x1; clear_value x1)
  | refine event_keeps ?_ ?_
  | refine health_keeps ?_ ?_
  | (fail_if_no_progress refine Keeps.gov' ?_ _ rfl)
  | (intro _ _)
  | split
  | dsimp only

theorem publish_keeps {mk : Nat} {sk : State} {s : State} {cap : Nat} (hk : Keeps mk sk s) (hm : 7364648 &&& mk = 7364648) :
    Keeps mk sk (publish s cap) := by
  suffices g : Keeps 7364648 s (publish s cap) from hk.trans (g.weaken hm)
  unfold publish
  with_reducible repeat' first
  | exact Keeps.refl _
  | assumption
  | decide
  | refine floorCheck_keeps ?_ ?_
  | (fail_if_no_progress refine Keeps.gov' ?_ _ rfl)
  | (intro _ _)
  | split
  | dsimp only

theorem governorLimits_keeps {mk : Nat} {sk : State} {s : State} {powerW : Nat} {stagePs : Nat} (hk : Keeps mk sk s) (hm : 7364640 &&& mk = 7364640) :
    Keeps mk sk (governorLimits s powerW stagePs) := by
  suffices g : Keeps 7364640 s (governorLimits s powerW stagePs) from hk.trans (g.weaken hm)
  unfold governorLimits
  with_reducible repeat' first
  | exact Keeps.refl _
  | assumption
  | decide
  | (extract_lets +onlyGivenNames s1; have h1 : Keeps 7364640 s s1 := (by unfold s1; repeat' first | exact Keeps.refl _ | assumption | decide | refine count_keeps ?_ ?_ | refine event_keeps ?_ ?_ | refine Keeps.ite ?_ ?_ | refine Keeps.iteFst ?_ ?_ | (fail_if_no_progress refine Keeps.gov' ?_ _ rfl) | (intro _ _) | split | dsimp only); clear_value s1)
  | (extract_lets +onlyGivenNames x1; clear_value x1)
  | refine count_keeps ?_ ?_
  | refine event_keeps ?_ ?_
  | refine Keeps.ite ?_ ?_
  | refine Keeps.iteFst ?_ ?_
  | (fail_if_no_progress refine Keeps.gov' ?_ _ rfl)
  | (intro _ _)
  | split
  | dsimp only

theorem unmetCheck_keeps {mk : Nat} {sk : State} {s : State} {limitW : Nat} (hk : Keeps mk sk s) (hm : 7364640 &&& mk = 7364640) :
    Keeps mk sk (unmetCheck s limitW) := by
  suffices g : Keeps 7364640 s (unmetCheck s limitW) from hk.trans (g.weaken hm)
  unfold unmetCheck
  with_reducible repeat' first
  | exact Keeps.refl _
  | assumption
  | decide
  | refine event_keeps ?_ ?_
  | refine Keeps.ite ?_ ?_
  | (fail_if_no_progress refine Keeps.gov' ?_ _ rfl)
  | (intro _ _)
  | split
  | dsimp only

theorem lowerIlimit_keeps {mk : Nat} {sk : State} {s : State} {f : Feed} (hk : Keeps mk sk s) (hm : 16 &&& mk = 16) :
    Keeps mk sk (lowerIlimit s f) := by
  suffices g : Keeps 16 s (lowerIlimit s f) from hk.trans (g.weaken hm)
  unfold lowerIlimit
  try dsimp only
  repeat' first
  | with_reducible exact Keeps.refl _
  | with_reducible assumption
  | with_reducible decide
  | with_reducible refine setFeed_keeps ?_ ?_ ?_
  | split
  | (intro hp hq; exact feedPgood_of hp _)
  | (intro hp hq; have hf := feedPgood_of hp f; have hg := feedPgood_of hq f; simp_all [FeedPgood, FeedState.enter, FeedState.gateOff, FeedState.sample]; done)
  | (intro hp; first | exact ⟨hp.1, hp.2⟩ | (have hf := feedPgood_of hp f; cases hv : (feedOf s f).pgood <;> simp_all [FeedPgood, FeedState.enter, FeedState.gateOff, FeedState.sample] <;> done))
  | (intro _ _)

theorem governorSample_keeps {mk : Nat} {sk s : State} {aMv bMv aMa bMa : Nat} (hk : Keeps mk sk s) (hm : 16 &&& mk = 16) :
    Keeps mk sk (governorSample s aMv bMv aMa bMa) := by
  suffices g : Keeps 16 s (governorSample s aMv bMv aMa bMa) from hk.trans (g.weaken hm)
  exact Keeps.power' (Keeps.refl s) _ rfl (fun hp => ⟨hp.1, hp.2⟩)

theorem governorMove_keeps {mk : Nat} {sk : State} {s : State} {limitW : Nat} (hk : Keeps mk sk s) (hm : 7364648 &&& mk = 7364648) :
    Keeps mk sk (governorMove s limitW) := by
  suffices g : Keeps 7364648 s (governorMove s limitW) from hk.trans (g.weaken hm)
  unfold governorMove
  with_reducible repeat' first
  | exact Keeps.refl _
  | assumption
  | decide
  | (extract_lets +onlyGivenNames s1; have h1 : Keeps 7364648 s s1 := (by unfold s1; repeat' first | exact Keeps.refl _ | assumption | decide | refine count_keeps ?_ ?_ | refine publish_keeps ?_ ?_ | refine Keeps.ite ?_ ?_ | (fail_if_no_progress refine Keeps.gov' ?_ _ rfl) | (intro _ _) | split | dsimp only); clear_value s1)
  | (extract_lets +onlyGivenNames x1; clear_value x1)
  | refine count_keeps ?_ ?_
  | refine publish_keeps ?_ ?_
  | refine Keeps.ite ?_ ?_
  | (fail_if_no_progress refine Keeps.gov' ?_ _ rfl)
  | (intro _ _)
  | split
  | dsimp only

theorem floorPeriod_keeps {mk : Nat} {sk : State} {s : State} (hk : Keeps mk sk s) (hm : 7364648 &&& mk = 7364648) :
    Keeps mk sk (floorPeriod s) := by
  suffices g : Keeps 7364648 s (floorPeriod s) from hk.trans (g.weaken hm)
  unfold floorPeriod
  with_reducible repeat' first
  | exact Keeps.refl _
  | assumption
  | decide
  | (extract_lets +onlyGivenNames s1; have h1 : Keeps 7364648 s s1 := (by unfold s1; repeat' first | exact Keeps.refl _ | assumption | decide | refine floorCheck_keeps ?_ ?_ | refine floorCleared_keeps ?_ ?_ | refine Keeps.ite ?_ ?_ | (fail_if_no_progress refine Keeps.gov' ?_ _ rfl) | (intro _ _) | split | dsimp only); clear_value s1)
  | (extract_lets +onlyGivenNames x1; clear_value x1)
  | refine floorCheck_keeps ?_ ?_
  | refine floorCleared_keeps ?_ ?_
  | refine Keeps.ite ?_ ?_
  | (fail_if_no_progress refine Keeps.gov' ?_ _ rfl)
  | (intro _ _)
  | split
  | dsimp only

theorem governorPeriod_keeps {mk : Nat} {sk : State} {aMv : Nat} {bMv : Nat} {aMa : Nat} {bMa : Nat} {powerW : Nat} {stagePs : Nat} {s : State} (hk : Keeps mk sk s) (hm : 7364664 &&& mk = 7364664) :
    Keeps mk sk (governorPeriod aMv bMv aMa bMa powerW stagePs s) := by
  suffices g : Keeps 7364664 s (governorPeriod aMv bMv aMa bMa powerW stagePs s) from hk.trans (g.weaken hm)
  unfold governorPeriod
  with_reducible repeat' first
  | exact Keeps.refl _
  | assumption
  | decide
  | (extract_lets +onlyGivenNames s1; have h1 : Keeps 7364664 s s1 := (by unfold s1; repeat' first | exact Keeps.refl _ | assumption | decide | refine floorPeriod_keeps ?_ ?_ | refine governorLimits_keeps ?_ ?_ | refine governorMove_keeps ?_ ?_ | refine governorSample_keeps ?_ ?_ | refine lowerIlimit_keeps ?_ ?_ | refine unmetCheck_keeps ?_ ?_ | refine Keeps.ite ?_ ?_ | refine Keeps.iteFst ?_ ?_ | (intro _ _) | split | dsimp only); clear_value s1)
  | (extract_lets +onlyGivenNames x1; clear_value x1)
  | refine floorPeriod_keeps ?_ ?_
  | refine governorLimits_keeps ?_ ?_
  | refine governorMove_keeps ?_ ?_
  | refine governorSample_keeps ?_ ?_
  | refine lowerIlimit_keeps ?_ ?_
  | refine unmetCheck_keeps ?_ ?_
  | refine Keeps.ite ?_ ?_
  | refine Keeps.iteFst ?_ ?_
  | (intro _ _)
  | split
  | dsimp only

theorem execGovernorPeriod_keeps {mk : Nat} {sk : State} {aMv : Nat} {bMv : Nat} {aMa : Nat} {bMa : Nat} {powerW : Nat} {stagePs : Nat} {s : State} (hk : Keeps mk sk s) (hm : 7364664 &&& mk = 7364664) :
    ∃ t', execGovernorPeriod aMv bMv aMa bMa powerW stagePs s = .next t' ∧ Keeps mk sk t' := by
  suffices g : ∃ t', execGovernorPeriod aMv bMv aMa bMa powerW stagePs s = .next t' ∧ Keeps 7364664 s t' from g.imp fun _ h => ⟨h.1, hk.trans (h.2.weaken hm)⟩
  refine ⟨_, rfl, ?_⟩
  with_reducible repeat' first
  | exact Keeps.refl _
  | assumption
  | decide
  | refine governorPeriod_keeps ?_ ?_
  | (intro _ _)
  | split
  | dsimp only

theorem capacityFloorClear_keeps {mk : Nat} {sk : State} {s : State} (hk : Keeps mk sk s) (hm : 7364648 &&& mk = 7364648) :
    Keeps mk sk (capacityFloorClear s) := by
  suffices g : Keeps 7364648 s (capacityFloorClear s) from hk.trans (g.weaken hm)
  unfold capacityFloorClear
  with_reducible repeat' first
  | exact Keeps.refl _
  | assumption
  | decide
  | refine floorCleared_keeps ?_ ?_
  | refine Keeps.ite ?_ ?_
  | (intro _ _)
  | split
  | dsimp only

theorem execCapacityFloorClear_keeps {mk : Nat} {sk : State} {s : State} (hk : Keeps mk sk s) (hm : 7364648 &&& mk = 7364648) :
    ∃ t', execCapacityFloorClear s = .next t' ∧ Keeps mk sk t' := by
  suffices g : ∃ t', execCapacityFloorClear s = .next t' ∧ Keeps 7364648 s t' from g.imp fun _ h => ⟨h.1, hk.trans (h.2.weaken hm)⟩
  refine ⟨_, rfl, ?_⟩
  with_reducible repeat' first
  | exact Keeps.refl _
  | assumption
  | decide
  | refine capacityFloorClear_keeps ?_ ?_
  | (intro _ _)
  | split
  | dsimp only

theorem vcoreRaiseDone_keeps {mk : Nat} {sk : State} {mv : Nat} {s : State} (hk : Keeps mk sk s) (hm : 7364648 &&& mk = 7364648) :
    Keeps mk sk (vcoreRaiseDone mv s) := by
  suffices g : Keeps 7364648 s (vcoreRaiseDone mv s) from hk.trans (g.weaken hm)
  unfold vcoreRaiseDone
  with_reducible repeat' first
  | exact Keeps.refl _
  | assumption
  | decide
  | (extract_lets +onlyGivenNames s1; have h1 : Keeps 7364648 s s1 := (by unfold s1; repeat' first | exact Keeps.refl _ | assumption | decide | refine publish_keeps ?_ ?_ | refine Keeps.ite ?_ ?_ | (fail_if_no_progress refine Keeps.gov' ?_ _ rfl) | (intro _ _) | split | dsimp only); clear_value s1)
  | (extract_lets +onlyGivenNames x1; clear_value x1)
  | refine publish_keeps ?_ ?_
  | refine Keeps.ite ?_ ?_
  | (fail_if_no_progress refine Keeps.gov' ?_ _ rfl)
  | (intro _ _)
  | split
  | dsimp only

theorem execVcoreRaiseDone_keeps {mk : Nat} {sk : State} {mv : Nat} {s : State} (hk : Keeps mk sk s) (hm : 7364648 &&& mk = 7364648) :
    ∃ t', execVcoreRaiseDone mv s = .next t' ∧ Keeps mk sk t' := by
  suffices g : ∃ t', execVcoreRaiseDone mv s = .next t' ∧ Keeps 7364648 s t' from g.imp fun _ h => ⟨h.1, hk.trans (h.2.weaken hm)⟩
  refine ⟨_, rfl, ?_⟩
  with_reducible repeat' first
  | exact Keeps.refl _
  | assumption
  | decide
  | refine vcoreRaiseDone_keeps ?_ ?_
  | (intro _ _)
  | split
  | dsimp only

theorem loomRescaleDone_keeps {mk : Nat} {sk : State} {s : State} (hk : Keeps mk sk s) (hm : 32 &&& mk = 32) :
    Keeps mk sk (loomRescaleDone s) := by
  suffices g : Keeps 32 s (loomRescaleDone s) from hk.trans (g.weaken hm)
  unfold loomRescaleDone
  with_reducible repeat' first
  | exact Keeps.refl _
  | assumption
  | decide
  | refine Keeps.ite ?_ ?_
  | (fail_if_no_progress refine Keeps.gov' ?_ _ rfl)
  | (intro _ _)
  | split
  | dsimp only

theorem execLoomRescaleDone_keeps {mk : Nat} {sk : State} {s : State} (hk : Keeps mk sk s) (hm : 32 &&& mk = 32) :
    ∃ t', execLoomRescaleDone s = .next t' ∧ Keeps mk sk t' := by
  suffices g : ∃ t', execLoomRescaleDone s = .next t' ∧ Keeps 32 s t' from g.imp fun _ h => ⟨h.1, hk.trans (h.2.weaken hm)⟩
  refine ⟨_, rfl, ?_⟩
  with_reducible repeat' first
  | exact Keeps.refl _
  | assumption
  | decide
  | refine loomRescaleDone_keeps ?_ ?_
  | (intro _ _)
  | split
  | dsimp only

theorem thermalLoop_keeps {mk : Nat} {sk : State} {hottestMc : Int} {s : State} (hk : Keeps mk sk s) (hm : 7364648 &&& mk = 7364648) :
    Keeps mk sk (thermalLoop hottestMc s) := by
  suffices g : Keeps 7364648 s (thermalLoop hottestMc s) from hk.trans (g.weaken hm)
  unfold thermalLoop
  with_reducible repeat' first
  | exact Keeps.refl _
  | assumption
  | decide
  | (extract_lets +onlyGivenNames s1; have h1 : Keeps 7364648 s s1 := (by unfold s1; repeat' first | exact Keeps.refl _ | assumption | decide | refine event_keeps ?_ ?_ | refine health_keeps ?_ ?_ | refine Keeps.ite ?_ ?_ | (fail_if_no_progress refine Keeps.gov' ?_ _ rfl) | (intro _ _) | split | dsimp only); clear_value s1)
  | (extract_lets +onlyGivenNames x1; clear_value x1)
  | refine event_keeps ?_ ?_
  | refine health_keeps ?_ ?_
  | refine Keeps.ite ?_ ?_
  | (fail_if_no_progress refine Keeps.gov' ?_ _ rfl)
  | (intro _ _)
  | split
  | dsimp only

theorem execThermalLoop_keeps {mk : Nat} {sk : State} {hottestMc : Int} {s : State} (hk : Keeps mk sk s) (hm : 7364648 &&& mk = 7364648) :
    ∃ t', execThermalLoop hottestMc s = .next t' ∧ Keeps mk sk t' := by
  suffices g : ∃ t', execThermalLoop hottestMc s = .next t' ∧ Keeps 7364648 s t' from g.imp fun _ h => ⟨h.1, hk.trans (h.2.weaken hm)⟩
  refine ⟨_, rfl, ?_⟩
  with_reducible repeat' first
  | exact Keeps.refl _
  | assumption
  | decide
  | refine thermalLoop_keeps ?_ ?_
  | (intro _ _)
  | split
  | dsimp only

end Sys2Proof.Laws
end

