-- ==== Sys2Proof/Laws/KeepsPorts.lean ====
section
/-!
SUPPORT. What the functions keep, one lemma each: lanes, line coding, weft ports, filters, configuration space, selvedge and heddles.
-/

namespace Sys2Proof.Laws

open Sys2Proof.Machine

set_option linter.all false

/-! ### Lanes -/

theorem setLane_keeps {mk : Nat} {sk : State} {s : State} {l : Nat} {x : LaneState} (hk : Keeps mk sk s) (hm : 64 &&& mk = 64) :
    Keeps mk sk (setLane s l x) := by
  suffices g : Keeps 64 s (setLane s l x) from hk.trans (g.weaken hm)
  unfold setLane
  with_reducible repeat' first
  | exact Keeps.refl _
  | assumption
  | decide
  | (fail_if_no_progress refine Keeps.lanes' ?_ _ rfl)
  | (intro _ _)
  | split
  | dsimp only

theorem setWeft_keeps {mk : Nat} {sk : State} {s : State} {p : Nat} {x : WeftPort} (hk : Keeps mk sk s) (hm : 128 &&& mk = 128) :
    Keeps mk sk (setWeft s p x) := by
  suffices g : Keeps 128 s (setWeft s p x) from hk.trans (g.weaken hm)
  unfold setWeft
  with_reducible repeat' first
  | exact Keeps.refl _
  | assumption
  | decide
  | (fail_if_no_progress refine Keeps.weft' ?_ _ rfl)
  | (intro _ _)
  | split
  | dsimp only

theorem setPortLanes_keeps {mk : Nat} {sk : State} {s : State} {p : Nat} {f : LaneState → LaneState} (hk : Keeps mk sk s) (hm : 64 &&& mk = 64) :
    Keeps mk sk (setPortLanes s p f) := by
  suffices g : Keeps 64 s (setPortLanes s p f) from hk.trans (g.weaken hm)
  unfold setPortLanes
  with_reducible repeat' first
  | exact Keeps.refl _
  | assumption
  | decide
  | refine setLane_keeps ?_ ?_
  | refine Keeps.foldl ?_ _ (fun u a hu => ?_)
  | refine Keeps.foldlFst ?_ _ (fun u a hu => ?_)
  | (intro _ _)
  | split
  | dsimp only

theorem blockLockAcquired_keeps {mk : Nat} {sk : State} {l : Nat} {s : State} (hk : Keeps mk sk s) (hm : 7364672 &&& mk = 7364672) :
    Keeps mk sk (blockLockAcquired l s) := by
  suffices g : Keeps 7364672 s (blockLockAcquired l s) from hk.trans (g.weaken hm)
  unfold blockLockAcquired
  with_reducible repeat' first
  | exact Keeps.refl _
  | assumption
  | decide
  | (extract_lets +onlyGivenNames s1; have h1 : Keeps 7364672 s s1 := (by unfold s1; repeat' first | exact Keeps.refl _ | assumption | decide | refine event_keeps ?_ ?_ | refine setLane_keeps ?_ ?_ | refine Keeps.ite ?_ ?_ | (intro _ _) | split | dsimp only); clear_value s1)
  | (extract_lets +onlyGivenNames x1; clear_value x1)
  | refine event_keeps ?_ ?_
  | refine setLane_keeps ?_ ?_
  | refine Keeps.ite ?_ ?_
  | (intro _ _)
  | split
  | dsimp only

theorem execBlockLockAcquired_keeps {mk : Nat} {sk : State} {l : Lane} {s : State} (hk : Keeps mk sk s) (hm : 7364672 &&& mk = 7364672) :
    ∃ t', execBlockLockAcquired l s = .next t' ∧ Keeps mk sk t' := by
  suffices g : ∃ t', execBlockLockAcquired l s = .next t' ∧ Keeps 7364672 s t' from g.imp fun _ h => ⟨h.1, hk.trans (h.2.weaken hm)⟩
  refine ⟨_, rfl, ?_⟩
  with_reducible repeat' first
  | exact Keeps.refl _
  | assumption
  | decide
  | refine blockLockAcquired_keeps ?_ ?_
  | (intro _ _)
  | split
  | dsimp only

theorem lockLost_keeps {mk : Nat} {sk : State} {l : Nat} {s : State} (hk : Keeps mk sk s) (hm : 7364672 &&& mk = 7364672) :
    Keeps mk sk (lockLost l s) := by
  suffices g : Keeps 7364672 s (lockLost l s) from hk.trans (g.weaken hm)
  unfold lockLost
  with_reducible repeat' first
  | exact Keeps.refl _
  | assumption
  | decide
  | (extract_lets +onlyGivenNames s1; have h1 : Keeps 7364672 s s1 := (by unfold s1; repeat' first | exact Keeps.refl _ | assumption | decide | refine event_keeps ?_ ?_ | refine setLane_keeps ?_ ?_ | (intro _ _) | split | dsimp only); clear_value s1)
  | (extract_lets +onlyGivenNames x1; clear_value x1)
  | refine event_keeps ?_ ?_
  | refine setLane_keeps ?_ ?_
  | (intro _ _)
  | split
  | dsimp only

theorem laneLockTimeout_keeps {mk : Nat} {sk : State} {l : Nat} {s : State} (hk : Keeps mk sk s) (hm : 7364672 &&& mk = 7364672) :
    Keeps mk sk (laneLockTimeout l s) := by
  suffices g : Keeps 7364672 s (laneLockTimeout l s) from hk.trans (g.weaken hm)
  unfold laneLockTimeout
  with_reducible repeat' first
  | exact Keeps.refl _
  | assumption
  | decide
  | (extract_lets +onlyGivenNames s1; have h1 : Keeps 7364672 s s1 := (by unfold s1; repeat' first | exact Keeps.refl _ | assumption | decide | refine event_keeps ?_ ?_ | refine setLane_keeps ?_ ?_ | refine Keeps.ite ?_ ?_ | (intro _ _) | split | dsimp only); clear_value s1)
  | (extract_lets +onlyGivenNames x1; clear_value x1)
  | refine event_keeps ?_ ?_
  | refine setLane_keeps ?_ ?_
  | refine Keeps.ite ?_ ?_
  | (intro _ _)
  | split
  | dsimp only

theorem execLaneLockTimeout_keeps {mk : Nat} {sk : State} {l : Lane} {s : State} (hk : Keeps mk sk s) (hm : 7364672 &&& mk = 7364672) :
    ∃ t', execLaneLockTimeout l s = .next t' ∧ Keeps mk sk t' := by
  suffices g : ∃ t', execLaneLockTimeout l s = .next t' ∧ Keeps 7364672 s t' from g.imp fun _ h => ⟨h.1, hk.trans (h.2.weaken hm)⟩
  refine ⟨_, rfl, ?_⟩
  with_reducible repeat' first
  | exact Keeps.refl _
  | assumption
  | decide
  | refine laneLockTimeout_keeps ?_ ?_
  | (intro _ _)
  | split
  | dsimp only

theorem marginAbort_keeps {mk : Nat} {sk : State} {s : State} {status : Nat} (hk : Keeps mk sk s) (hm : 7364672 &&& mk = 7364672) :
    Keeps mk sk (marginAbort s status) := by
  suffices g : Keeps 7364672 s (marginAbort s status) from hk.trans (g.weaken hm)
  unfold marginAbort
  with_reducible repeat' first
  | exact Keeps.refl _
  | assumption
  | decide
  | refine event_keeps ?_ ?_
  | (fail_if_no_progress refine Keeps.lanes' ?_ _ rfl)
  | (intro _ _)
  | split
  | dsimp only

theorem freezeBegin_keeps {mk : Nat} {sk : State} {s : State} {installer : Bool} (hk : Keeps mk sk s) (hm : 7364672 &&& mk = 7364672) :
    Keeps mk sk (freezeBegin s installer) := by
  suffices g : Keeps 7364672 s (freezeBegin s installer) from hk.trans (g.weaken hm)
  unfold freezeBegin
  with_reducible repeat' first
  | exact Keeps.refl _
  | assumption
  | decide
  | (extract_lets +onlyGivenNames s1; have h1 : Keeps 7364672 s s1 := (by unfold s1; repeat' first | exact Keeps.refl _ | assumption | decide | refine event_keeps ?_ ?_ | refine marginAbort_keeps ?_ ?_ | (fail_if_no_progress refine Keeps.lanes' ?_ _ rfl) | (intro _ _) | split | dsimp only); clear_value s1)
  | (extract_lets +onlyGivenNames x1; clear_value x1)
  | refine event_keeps ?_ ?_
  | refine marginAbort_keeps ?_ ?_
  | (fail_if_no_progress refine Keeps.lanes' ?_ _ rfl)
  | (intro _ _)
  | split
  | dsimp only

theorem freezeEnd_keeps {mk : Nat} {sk : State} {s : State} (hk : Keeps mk sk s) (hm : 7364672 &&& mk = 7364672) :
    Keeps mk sk (freezeEnd s) := by
  suffices g : Keeps 7364672 s (freezeEnd s) from hk.trans (g.weaken hm)
  unfold freezeEnd
  with_reducible repeat' first
  | exact Keeps.refl _
  | assumption
  | decide
  | refine event_keeps ?_ ?_
  | (fail_if_no_progress refine Keeps.lanes' ?_ _ rfl)
  | (intro _ _)
  | split
  | dsimp only

theorem freezeRequest_keeps {mk : Nat} {sk : State} {s : State} {installer : Bool} (hk : Keeps mk sk s) (hm : 7364672 &&& mk = 7364672) :
    Keeps mk sk (freezeRequest s installer) := by
  suffices g : Keeps 7364672 s (freezeRequest s installer) from hk.trans (g.weaken hm)
  unfold freezeRequest
  with_reducible repeat' first
  | exact Keeps.refl _
  | assumption
  | decide
  | refine freezeBegin_keeps ?_ ?_
  | refine Keeps.ite ?_ ?_
  | (fail_if_no_progress refine Keeps.lanes' ?_ _ rfl)
  | (intro _ _)
  | split
  | dsimp only

theorem freezeRelease_keeps {mk : Nat} {sk : State} {s : State} {installer : Bool} (hk : Keeps mk sk s) (hm : 7364672 &&& mk = 7364672) :
    Keeps mk sk (freezeRelease s installer) := by
  suffices g : Keeps 7364672 s (freezeRelease s installer) from hk.trans (g.weaken hm)
  unfold freezeRelease
  with_reducible repeat' first
  | exact Keeps.refl _
  | assumption
  | decide
  | refine freezeEnd_keeps ?_ ?_
  | refine Keeps.ite ?_ ?_
  | (fail_if_no_progress refine Keeps.lanes' ?_ _ rfl)
  | (intro _ _)
  | split
  | dsimp only

theorem adaptFreeze_keeps {mk : Nat} {sk : State} {by_ : FreezeBy} {s : State} (hk : Keeps mk sk s) (hm : 7626816 &&& mk = 7626816) :
    Keeps mk sk (adaptFreeze by_ s) := by
  suffices g : Keeps 7626816 s (adaptFreeze by_ s) from hk.trans (g.weaken hm)
  unfold adaptFreeze
  with_reducible repeat' first
  | exact Keeps.refl _
  | assumption
  | decide
  | (extract_lets +onlyGivenNames s1; have h1 : Keeps 7626816 s s1 := (by unfold s1; repeat' first | exact Keeps.refl _ | assumption | decide | refine emit_keeps ?_ | refine freezeRelease_keeps ?_ ?_ | refine freezeRequest_keeps ?_ ?_ | refine Keeps.ite ?_ ?_ | (fail_if_no_progress refine Keeps.mgmt' ?_ _ rfl) | (intro _ _) | split | dsimp only); clear_value s1)
  | (extract_lets +onlyGivenNames x1; clear_value x1)
  | refine emit_keeps ?_
  | refine freezeRelease_keeps ?_ ?_
  | refine freezeRequest_keeps ?_ ?_
  | refine Keeps.ite ?_ ?_
  | (fail_if_no_progress refine Keeps.mgmt' ?_ _ rfl)
  | (intro _ _)
  | split
  | dsimp only

theorem execAdaptFreeze_keeps {mk : Nat} {sk : State} {by_ : FreezeBy} {s : State} (hk : Keeps mk sk s) (hm : 7626816 &&& mk = 7626816) :
    ∃ t', execAdaptFreeze by_ s = .next t' ∧ Keeps mk sk t' := by
  suffices g : ∃ t', execAdaptFreeze by_ s = .next t' ∧ Keeps 7626816 s t' from g.imp fun _ h => ⟨h.1, hk.trans (h.2.weaken hm)⟩
  refine ⟨_, rfl, ?_⟩
  with_reducible repeat' first
  | exact Keeps.refl _
  | assumption
  | decide
  | refine adaptFreeze_keeps ?_ ?_
  | (intro _ _)
  | split
  | dsimp only

theorem adaptFreezeEnd_keeps {mk : Nat} {sk : State} {s : State} (hk : Keeps mk sk s) (hm : 7364672 &&& mk = 7364672) :
    Keeps mk sk (adaptFreezeEnd s) := by
  suffices g : Keeps 7364672 s (adaptFreezeEnd s) from hk.trans (g.weaken hm)
  unfold adaptFreezeEnd
  with_reducible repeat' first
  | exact Keeps.refl _
  | assumption
  | decide
  | refine freezeEnd_keeps ?_ ?_
  | refine Keeps.ite ?_ ?_
  | (intro _ _)
  | split
  | dsimp only

theorem execAdaptFreezeEnd_keeps {mk : Nat} {sk : State} {s : State} (hk : Keeps mk sk s) (hm : 7364672 &&& mk = 7364672) :
    ∃ t', execAdaptFreezeEnd s = .next t' ∧ Keeps mk sk t' := by
  suffices g : ∃ t', execAdaptFreezeEnd s = .next t' ∧ Keeps 7364672 s t' from g.imp fun _ h => ⟨h.1, hk.trans (h.2.weaken hm)⟩
  refine ⟨_, rfl, ?_⟩
  with_reducible repeat' first
  | exact Keeps.refl _
  | assumption
  | decide
  | refine adaptFreezeEnd_keeps ?_ ?_
  | (intro _ _)
  | split
  | dsimp only

theorem adaptFreezeHeldStart_keeps {mk : Nat} {sk : State} {s : State} (hk : Keeps mk sk s) (hm : 7364672 &&& mk = 7364672) :
    Keeps mk sk (adaptFreezeHeldStart s) := by
  suffices g : Keeps 7364672 s (adaptFreezeHeldStart s) from hk.trans (g.weaken hm)
  unfold adaptFreezeHeldStart
  with_reducible repeat' first
  | exact Keeps.refl _
  | assumption
  | decide
  | refine freezeBegin_keeps ?_ ?_
  | refine Keeps.ite ?_ ?_
  | (intro _ _)
  | split
  | dsimp only

theorem execAdaptFreezeHeldStart_keeps {mk : Nat} {sk : State} {s : State} (hk : Keeps mk sk s) (hm : 7364672 &&& mk = 7364672) :
    ∃ t', execAdaptFreezeHeldStart s = .next t' ∧ Keeps mk sk t' := by
  suffices g : ∃ t', execAdaptFreezeHeldStart s = .next t' ∧ Keeps 7364672 s t' from g.imp fun _ h => ⟨h.1, hk.trans (h.2.weaken hm)⟩
  refine ⟨_, rfl, ?_⟩
  with_reducible repeat' first
  | exact Keeps.refl _
  | assumption
  | decide
  | refine adaptFreezeHeldStart_keeps ?_ ?_
  | (intro _ _)
  | split
  | dsimp only

theorem actMarginStart_keeps {mk : Nat} {sk : State} {sess : Nat} {s : State} (hk : Keeps mk sk s) (hm : 64 &&& mk = 64) :
    Keeps mk sk (actMarginStart sess s) := by
  suffices g : Keeps 64 s (actMarginStart sess s) from hk.trans (g.weaken hm)
  unfold actMarginStart
  with_reducible repeat' first
  | exact Keeps.refl _
  | assumption
  | decide
  | (fail_if_no_progress refine Keeps.lanes' ?_ _ rfl)
  | (intro _ _)
  | split
  | dsimp only

theorem marginRefused_keeps {mk : Nat} {sk : State} {s : State} (hk : Keeps mk sk s) (hm : 64 &&& mk = 64) :
    Keeps mk sk (marginRefused s) := by
  suffices g : Keeps 64 s (marginRefused s) from hk.trans (g.weaken hm)
  unfold marginRefused
  with_reducible repeat' first
  | exact Keeps.refl _
  | assumption
  | decide
  | refine Keeps.ite ?_ ?_
  | (fail_if_no_progress refine Keeps.lanes' ?_ _ rfl)
  | (intro _ _)
  | split
  | dsimp only

theorem execMarginStart_keeps {mk : Nat} {sk : State} {sess : Nat} {value : Nat} {s : State} (hk : Keeps mk sk s) (hm : 1310784 &&& mk = 1310784) :
    ∃ t', execMarginStart sess value s = .next t' ∧ Keeps mk sk t' := by
  suffices g : ∃ t', execMarginStart sess value s = .next t' ∧ Keeps 1310784 s t' from g.imp fun _ h => ⟨h.1, hk.trans (h.2.weaken hm)⟩
  refine ⟨_, rfl, ?_⟩
  with_reducible repeat' first
  | exact Keeps.refl _
  | assumption
  | decide
  | refine actMarginStart_keeps ?_ ?_
  | refine actWrite_keeps ?_ rfl (fun u hu => ?_) (fun u hu => ?_)
  | refine marginRefused_keeps ?_ ?_
  | refine onOne_keeps ?_ (fun u hu => ?_)
  | refine Keeps.ite ?_ ?_
  | (intro _ _)
  | split
  | dsimp only

theorem marginStep_keeps {mk : Nat} {sk : State} {errors : Nat} {s : State} (hk : Keeps mk sk s) (hm : 7364672 &&& mk = 7364672) :
    Keeps mk sk (marginStep errors s) := by
  suffices g : Keeps 7364672 s (marginStep errors s) from hk.trans (g.weaken hm)
  unfold marginStep
  with_reducible repeat' first
  | exact Keeps.refl _
  | assumption
  | decide
  | (extract_lets +onlyGivenNames s1; have h1 : Keeps 7364672 s s1 := (by unfold s1; repeat' first | exact Keeps.refl _ | assumption | decide | refine event_keeps ?_ ?_ | refine Keeps.ite ?_ ?_ | (fail_if_no_progress refine Keeps.lanes' ?_ _ rfl) | (intro _ _) | split | dsimp only); clear_value s1)
  | (extract_lets +onlyGivenNames x1; clear_value x1)
  | refine event_keeps ?_ ?_
  | refine Keeps.ite ?_ ?_
  | (fail_if_no_progress refine Keeps.lanes' ?_ _ rfl)
  | (intro _ _)
  | split
  | dsimp only

theorem execMarginStep_keeps {mk : Nat} {sk : State} {errors : Nat} {s : State} (hk : Keeps mk sk s) (hm : 7364672 &&& mk = 7364672) :
    ∃ t', execMarginStep errors s = .next t' ∧ Keeps mk sk t' := by
  suffices g : ∃ t', execMarginStep errors s = .next t' ∧ Keeps 7364672 s t' from g.imp fun _ h => ⟨h.1, hk.trans (h.2.weaken hm)⟩
  refine ⟨_, rfl, ?_⟩
  with_reducible repeat' first
  | exact Keeps.refl _
  | assumption
  | decide
  | refine marginStep_keeps ?_ ?_
  | (intro _ _)
  | split
  | dsimp only

/-! ### Line -/

theorem edgeCross_keeps {mk : Nat} {sk : State} {s : State} {p : Nat} {out : Bool} {n : Nat} (hk : Keeps mk sk s) (hm : 64 &&& mk = 64) :
    Keeps mk sk (edgeCross s p out n) := by
  suffices g : Keeps 64 s (edgeCross s p out n) from hk.trans (g.weaken hm)
  unfold edgeCross
  with_reducible repeat' first
  | exact Keeps.refl _
  | assumption
  | decide
  | (extract_lets +onlyGivenNames s1; have h1 : Keeps 64 s s1 := (by unfold s1; repeat' first | exact Keeps.refl _ | assumption | decide | (fail_if_no_progress refine Keeps.lanes' ?_ _ rfl) | (intro _ _) | split | dsimp only); clear_value s1)
  | (extract_lets +onlyGivenNames x1; clear_value x1)
  | (fail_if_no_progress refine Keeps.lanes' ?_ _ rfl)
  | (intro _ _)
  | split
  | dsimp only

theorem sendBlock_keeps {mk : Nat} {sk : State} {s : State} {l : Nat} {header : Nat} {payload : Nat} (hk : Keeps mk sk s) (hm : 64 &&& mk = 64) :
    Keeps mk sk (sendBlock s l header payload) := by
  suffices g : Keeps 64 s (sendBlock s l header payload) from hk.trans (g.weaken hm)
  unfold sendBlock
  with_reducible repeat' first
  | exact Keeps.refl _
  | assumption
  | decide
  | (extract_lets +onlyGivenNames s1; have h1 : Keeps 64 s s1 := (by unfold s1; repeat' first | exact Keeps.refl _ | assumption | decide | refine emit_keeps ?_ | refine setLane_keeps ?_ ?_ | refine Keeps.ite ?_ ?_ | (intro _ _) | split | dsimp only); clear_value s1)
  | (extract_lets +onlyGivenNames x1; clear_value x1)
  | refine emit_keeps ?_
  | refine setLane_keeps ?_ ?_
  | refine Keeps.ite ?_ ?_
  | (intro _ _)
  | split
  | dsimp only

theorem sendOn_keeps {mk : Nat} {sk : State} {s : State} {ls : List Nat} {header : Nat} {payload : Nat → Nat} (hk : Keeps mk sk s) (hm : 64 &&& mk = 64) :
    Keeps mk sk (sendOn s ls header payload) := by
  suffices g : Keeps 64 s (sendOn s ls header payload) from hk.trans (g.weaken hm)
  unfold sendOn
  with_reducible repeat' first
  | exact Keeps.refl _
  | assumption
  | decide
  | refine sendBlock_keeps ?_ ?_
  | refine Keeps.foldl ?_ _ (fun u a hu => ?_)
  | refine Keeps.foldlFst ?_ _ (fun u a hu => ?_)
  | (intro _ _)
  | split
  | dsimp only

theorem sendDataRow_keeps {mk : Nat} {sk : State} {s : State} {p : Nat} {row : List Byte} (hk : Keeps mk sk s) (hm : 64 &&& mk = 64) :
    Keeps mk sk (sendDataRow s p row) := by
  suffices g : Keeps 64 s (sendDataRow s p row) from hk.trans (g.weaken hm)
  unfold sendDataRow
  with_reducible repeat' first
  | exact Keeps.refl _
  | assumption
  | decide
  | (extract_lets +onlyGivenNames s1; have h1 : Keeps 64 s s1 := (by unfold s1; repeat' first | exact Keeps.refl _ | assumption | decide | refine sendOn_keeps ?_ ?_ | (intro _ _) | split | dsimp only); clear_value s1)
  | (extract_lets +onlyGivenNames x1; clear_value x1)
  | refine sendOn_keeps ?_ ?_
  | (intro _ _)
  | split
  | dsimp only

theorem sendRows_keeps {mk : Nat} {sk : State}  {k : Nat} {p : Nat} {s : State} (hk : Keeps mk sk s) (hm : 192 &&& mk = 192) :
    Keeps mk sk (sendRows k p s) := by
  have aux : ∀ (k : Nat) (p : Nat) (u t : State), Keeps 192 u t → Keeps 192 u (sendRows k p t) := by
    intro k
    induction k with
    | zero => intro p u t h0; unfold sendRows; exact h0
    | succ n ih =>
      intro p u t h0
      unfold sendRows
      with_reducible repeat' first
        | with_reducible exact Keeps.refl _
        | with_reducible assumption
        | decide
        | (extract_lets +onlyGivenNames q1; have hq1 : Keeps 192 u q1.1 := (by unfold q1; repeat' first | with_reducible exact Keeps.refl _ | with_reducible assumption | decide | with_reducible refine ih _ _ _ ?_ | refine sendDataRow_keeps ?_ ?_ | refine setWeft_keeps ?_ ?_ | refine Keeps.ite ?_ ?_ | (intro _ _) | split | dsimp only); clear_value q1)
        | (extract_lets +onlyGivenNames s1; have h1 : Keeps 192 u s1 := (by unfold s1; repeat' first | with_reducible exact Keeps.refl _ | with_reducible assumption | decide | with_reducible refine ih _ _ _ ?_ | refine sendDataRow_keeps ?_ ?_ | refine setWeft_keeps ?_ ?_ | refine Keeps.ite ?_ ?_ | (intro _ _) | split | dsimp only); clear_value s1)
        | (extract_lets +onlyGivenNames x1; clear_value x1)
        | with_reducible refine ih _ _ _ ?_
        | refine sendDataRow_keeps ?_ ?_
        | refine setWeft_keeps ?_ ?_
        | refine Keeps.ite ?_ ?_
        | (intro _ _)
        | split
        | dsimp only
  exact hk.trans ((aux k p s s (Keeps.refl s)).weaken hm)

theorem sendFlit_keeps {mk : Nat} {sk : State} {s : State} {p : Nat} {bytes : List Byte} (hk : Keeps mk sk s) (hm : 192 &&& mk = 192) :
    Keeps mk sk (sendFlit s p bytes) := by
  suffices g : Keeps 192 s (sendFlit s p bytes) from hk.trans (g.weaken hm)
  unfold sendFlit
  with_reducible repeat' first
  | exact Keeps.refl _
  | assumption
  | decide
  | (extract_lets +onlyGivenNames q1; have hq1 : Keeps 192 s q1.1 := (by unfold q1; repeat' first | exact Keeps.refl _ | assumption | decide | refine emit_keeps ?_ | refine sendRows_keeps ?_ ?_ | refine setWeft_keeps ?_ ?_ | (intro _ _) | split | dsimp only); clear_value q1)
  | (extract_lets +onlyGivenNames s1; have h1 : Keeps 192 s s1 := (by unfold s1; repeat' first | exact Keeps.refl _ | assumption | decide | refine emit_keeps ?_ | refine sendRows_keeps ?_ ?_ | refine setWeft_keeps ?_ ?_ | (intro _ _) | split | dsimp only); clear_value s1)
  | (extract_lets +onlyGivenNames x1; clear_value x1)
  | refine emit_keeps ?_
  | refine sendRows_keeps ?_ ?_
  | refine setWeft_keeps ?_ ?_
  | (intro _ _)
  | split
  | dsimp only

theorem fillRow_keeps {mk : Nat} {sk : State} {s : State} {p : Nat} (hk : Keeps mk sk s) (hm : 192 &&& mk = 192) :
    Keeps mk sk (fillRow s p) := by
  suffices g : Keeps 192 s (fillRow s p) from hk.trans (g.weaken hm)
  unfold fillRow
  with_reducible repeat' first
  | exact Keeps.refl _
  | assumption
  | decide
  | (extract_lets +onlyGivenNames s1; have h1 : Keeps 192 s s1 := (by unfold s1; repeat' first | exact Keeps.refl _ | assumption | decide | refine sendDataRow_keeps ?_ ?_ | refine setWeft_keeps ?_ ?_ | refine Keeps.ite ?_ ?_ | (intro _ _) | split | dsimp only); clear_value s1)
  | (extract_lets +onlyGivenNames x1; clear_value x1)
  | refine sendDataRow_keeps ?_ ?_
  | refine setWeft_keeps ?_ ?_
  | refine Keeps.ite ?_ ?_
  | (intro _ _)
  | split
  | dsimp only

theorem sendRow_keeps {mk : Nat} {sk : State} {s : State} {p : Nat} {w : Nat} (hk : Keeps mk sk s) (hm : 192 &&& mk = 192) :
    Keeps mk sk (sendRow s p w) := by
  suffices g : Keeps 192 s (sendRow s p w) from hk.trans (g.weaken hm)
  unfold sendRow
  with_reducible repeat' first
  | exact Keeps.refl _
  | assumption
  | decide
  | (extract_lets +onlyGivenNames s1; have h1 : Keeps 192 s s1 := (by unfold s1; repeat' first | exact Keeps.refl _ | assumption | decide | refine emit_keeps ?_ | refine fillRow_keeps ?_ ?_ | refine sendOn_keeps ?_ ?_ | (intro _ _) | split | dsimp only); clear_value s1)
  | (extract_lets +onlyGivenNames x1; clear_value x1)
  | refine emit_keeps ?_
  | refine fillRow_keeps ?_ ?_
  | refine sendOn_keeps ?_ ?_
  | (intro _ _)
  | split
  | dsimp only

theorem adaptLane_keeps {mk : Nat} {sk : State} {s : State} {l : Nat} (hk : Keeps mk sk s) (hm : 64 &&& mk = 64) :
    Keeps mk sk (adaptLane s l) := by
  suffices g : Keeps 64 s (adaptLane s l) from hk.trans (g.weaken hm)
  unfold adaptLane
  with_reducible repeat' first
  | exact Keeps.refl _
  | assumption
  | decide
  | refine afterFree_keeps ?_ ?_
  | refine setLane_keeps ?_ ?_
  | refine Keeps.ite ?_ ?_
  | (intro _ _)
  | split
  | dsimp only

theorem startRows_keeps {mk : Nat} {sk : State} {s : State} {p : Nat} (hk : Keeps mk sk s) (hm : 192 &&& mk = 192) :
    Keeps mk sk (startRows s p) := by
  suffices g : Keeps 192 s (startRows s p) from hk.trans (g.weaken hm)
  unfold startRows
  with_reducible repeat' first
  | exact Keeps.refl _
  | assumption
  | decide
  | (extract_lets +onlyGivenNames s1; have h1 : Keeps 192 s s1 := (by unfold s1; repeat' first | exact Keeps.refl _ | assumption | decide | refine setLane_keeps ?_ ?_ | refine setWeft_keeps ?_ ?_ | refine Keeps.ite ?_ ?_ | refine Keeps.foldl ?_ _ (fun u a hu => ?_) | refine Keeps.foldlFst ?_ _ (fun u a hu => ?_) | (intro _ _) | split | dsimp only); clear_value s1)
  | (extract_lets +onlyGivenNames x1; clear_value x1)
  | refine setLane_keeps ?_ ?_
  | refine setWeft_keeps ?_ ?_
  | refine Keeps.ite ?_ ?_
  | refine Keeps.foldl ?_ _ (fun u a hu => ?_)
  | refine Keeps.foldlFst ?_ _ (fun u a hu => ?_)
  | (intro _ _)
  | split
  | dsimp only

theorem takeDataRow_keeps {mk : Nat} {sk : State} {s : State} {p : Nat} {payloads : List Nat} (hk : Keeps mk sk s) (hm : 128 &&& mk = 128) :
    Keeps mk sk (takeDataRow s p payloads) := by
  suffices g : Keeps 128 s (takeDataRow s p payloads) from hk.trans (g.weaken hm)
  unfold takeDataRow
  with_reducible repeat' first
  | exact Keeps.refl _
  | assumption
  | decide
  | (extract_lets +onlyGivenNames s1; have h1 : Keeps 128 s s1 := (by unfold s1; repeat' first | exact Keeps.refl _ | assumption | decide | refine setWeft_keeps ?_ ?_ | (intro _ _) | split | dsimp only); clear_value s1)
  | (extract_lets +onlyGivenNames x1; clear_value x1)
  | refine setWeft_keeps ?_ ?_
  | (intro _ _)
  | split
  | dsimp only

theorem takeControlRow_keeps {mk : Nat} {sk : State} {s : State} {p : Nat} {payloads : List Nat} (hk : Keeps mk sk s) (hm : 1048704 &&& mk = 1048704) :
    Keeps mk sk (takeControlRow s p payloads) := by
  suffices g : Keeps 1048704 s (takeControlRow s p payloads) from hk.trans (g.weaken hm)
  unfold takeControlRow
  with_reducible repeat' first
  | exact Keeps.refl _
  | assumption
  | decide
  | (extract_lets +onlyGivenNames s1; have h1 : Keeps 1048704 s s1 := (by unfold s1; repeat' first | exact Keeps.refl _ | assumption | decide | refine count_keeps ?_ ?_ | refine setWeft_keeps ?_ ?_ | refine Keeps.ite ?_ ?_ | (intro _ _) | split | dsimp only); clear_value s1)
  | (extract_lets +onlyGivenNames x1; clear_value x1)
  | refine count_keeps ?_ ?_
  | refine setWeft_keeps ?_ ?_
  | refine Keeps.ite ?_ ?_
  | (intro _ _)
  | split
  | dsimp only

theorem takeAlignRow_keeps {mk : Nat} {sk : State} {s : State} {p : Nat} {cameAt : Nat} (hk : Keeps mk sk s) (hm : 128 &&& mk = 128) :
    Keeps mk sk (takeAlignRow s p cameAt) := by
  suffices g : Keeps 128 s (takeAlignRow s p cameAt) from hk.trans (g.weaken hm)
  unfold takeAlignRow
  with_reducible repeat' first
  | exact Keeps.refl _
  | assumption
  | decide
  | (extract_lets +onlyGivenNames s1; have h1 : Keeps 128 s s1 := (by unfold s1; repeat' first | exact Keeps.refl _ | assumption | decide | refine setWeft_keeps ?_ ?_ | refine Keeps.ite ?_ ?_ | (intro _ _) | split | dsimp only); clear_value s1)
  | (extract_lets +onlyGivenNames x1; clear_value x1)
  | refine setWeft_keeps ?_ ?_
  | refine Keeps.ite ?_ ?_
  | (intro _ _)
  | split
  | dsimp only

theorem formRow_keeps {mk : Nat} {sk : State} {s : State} {p : Nat} (hk : Keeps mk sk s) (hm : 1048768 &&& mk = 1048768) :
    Keeps mk sk (formRow s p).1 := by
  suffices g : Keeps 1048768 s (formRow s p).1 from hk.trans (g.weaken hm)
  unfold formRow
  with_reducible repeat' first
  | exact Keeps.refl _
  | assumption
  | decide
  | (extract_lets +onlyGivenNames f1; have hf1 : ∀ u, Keeps 1048768 s u → Keeps 1048768 s (f1 u) := (by intro u hu; unfold f1; repeat' first | exact Keeps.refl _ | assumption | decide | refine count_keeps ?_ ?_ | refine setLane_keeps ?_ ?_ | refine setWeft_keeps ?_ ?_ | refine takeAlignRow_keeps ?_ ?_ | refine takeControlRow_keeps ?_ ?_ | refine takeDataRow_keeps ?_ ?_ | refine Keeps.ite ?_ ?_ | refine Keeps.iteFst ?_ ?_ | refine Keeps.foldl ?_ _ (fun u a hu => ?_) | refine Keeps.foldlFst ?_ _ (fun u a hu => ?_) | (intro _ _) | split | dsimp only | refine hf1 _ ?_ | refine hf2 _ ?_ | refine hf3 _ ?_); clear_value f1)
  | (extract_lets +onlyGivenNames s1; have h1 : Keeps 1048768 s s1 := (by unfold s1; repeat' first | exact Keeps.refl _ | assumption | decide | refine count_keeps ?_ ?_ | refine setLane_keeps ?_ ?_ | refine setWeft_keeps ?_ ?_ | refine takeAlignRow_keeps ?_ ?_ | refine takeControlRow_keeps ?_ ?_ | refine takeDataRow_keeps ?_ ?_ | refine Keeps.ite ?_ ?_ | refine Keeps.iteFst ?_ ?_ | refine Keeps.foldl ?_ _ (fun u a hu => ?_) | refine Keeps.foldlFst ?_ _ (fun u a hu => ?_) | (intro _ _) | split | dsimp only | refine hf1 _ ?_ | refine hf2 _ ?_ | refine hf3 _ ?_); clear_value s1)
  | (extract_lets +onlyGivenNames x1; clear_value x1)
  | refine count_keeps ?_ ?_
  | refine setLane_keeps ?_ ?_
  | refine setWeft_keeps ?_ ?_
  | refine takeAlignRow_keeps ?_ ?_
  | refine takeControlRow_keeps ?_ ?_
  | refine takeDataRow_keeps ?_ ?_
  | refine Keeps.ite ?_ ?_
  | refine Keeps.iteFst ?_ ?_
  | refine Keeps.foldl ?_ _ (fun u a hu => ?_)
  | refine Keeps.foldlFst ?_ _ (fun u a hu => ?_)
  | (intro _ _)
  | split
  | dsimp only
  | refine hf1 _ ?_

theorem sortBlock_keeps {mk : Nat} {sk : State} {s : State} {l : Nat} {header : Nat} {raw : Nat} (hk : Keeps mk sk s) (hm : 192 &&& mk = 192) :
    Keeps mk sk (sortBlock s l header raw) := by
  suffices g : Keeps 192 s (sortBlock s l header raw) from hk.trans (g.weaken hm)
  unfold sortBlock
  with_reducible repeat' first
  | exact Keeps.refl _
  | assumption
  | decide
  | (extract_lets +onlyGivenNames s1; have h1 : Keeps 192 s s1 := (by unfold s1; repeat' first | exact Keeps.refl _ | assumption | decide | refine setLane_keeps ?_ ?_ | refine setWeft_keeps ?_ ?_ | refine Keeps.ite ?_ ?_ | (intro _ _) | split | dsimp only); clear_value s1)
  | (extract_lets +onlyGivenNames x1; clear_value x1)
  | refine setLane_keeps ?_ ?_
  | refine setWeft_keeps ?_ ?_
  | refine Keeps.ite ?_ ?_
  | (intro _ _)
  | split
  | dsimp only

/-! ### Weft -/

theorem ctrWeft_keeps {mk : Nat} {sk : State} {s : State} {p : Nat} {c : Nat} {n : Nat} (hk : Keeps mk sk s) (hm : 1048576 &&& mk = 1048576) :
    Keeps mk sk (ctrWeft s p c n) := by
  suffices g : Keeps 1048576 s (ctrWeft s p c n) from hk.trans (g.weaken hm)
  unfold ctrWeft
  with_reducible repeat' first
  | exact Keeps.refl _
  | assumption
  | decide
  | refine count_keeps ?_ ?_
  | (intro _ _)
  | split
  | dsimp only

theorem withRelay_keeps {mk : Nat} {sk : State} {s : State} {d : Nat} {p : Nat} {f : OutOp → Option OutOp} (hk : Keeps mk sk s) (hm : 128 &&& mk = 128) :
    Keeps mk sk (withRelay s d p f) := by
  suffices g : Keeps 128 s (withRelay s d p f) from hk.trans (g.weaken hm)
  unfold withRelay
  with_reducible repeat' first
  | exact Keeps.refl _
  | assumption
  | decide
  | (extract_lets +onlyGivenNames s1; have h1 : Keeps 128 s s1 := (by unfold s1; repeat' first | exact Keeps.refl _ | assumption | decide | refine setWeft_keeps ?_ ?_ | refine Keeps.ite ?_ ?_ | (intro _ _) | split | dsimp only); clear_value s1)
  | (extract_lets +onlyGivenNames x1; clear_value x1)
  | refine setWeft_keeps ?_ ?_
  | refine Keeps.ite ?_ ?_
  | (intro _ _)
  | split
  | dsimp only

theorem endRelay_keeps {mk : Nat} {sk : State} {s : State} {d : Nat} {p : Nat} (hk : Keeps mk sk s) (hm : 128 &&& mk = 128) :
    Keeps mk sk (endRelay s d p) := by
  suffices g : Keeps 128 s (endRelay s d p) from hk.trans (g.weaken hm)
  unfold endRelay
  with_reducible repeat' first
  | exact Keeps.refl _
  | assumption
  | decide
  | refine withRelay_keeps ?_ ?_
  | refine Keeps.ite ?_ ?_
  | (intro _ _)
  | split
  | dsimp only

theorem breakRelay_keeps {mk : Nat} {sk : State} {s : State} {p : Nat} (hk : Keeps mk sk s) (hm : 128 &&& mk = 128) :
    Keeps mk sk (breakRelay s p) := by
  suffices g : Keeps 128 s (breakRelay s p) from hk.trans (g.weaken hm)
  unfold breakRelay
  with_reducible repeat' first
  | exact Keeps.refl _
  | assumption
  | decide
  | refine endRelay_keeps ?_ ?_
  | (fail_if_no_progress refine Keeps.weft' ?_ _ rfl)
  | (intro _ _)
  | split
  | dsimp only

theorem linkDown_keeps {mk : Nat} {sk : State} {s : State} {p : Nat} {cause : Nat} (hk : Keeps mk sk s) (hm : 7364800 &&& mk = 7364800) :
    Keeps mk sk (linkDown s p cause) := by
  suffices g : Keeps 7364800 s (linkDown s p cause) from hk.trans (g.weaken hm)
  unfold linkDown
  with_reducible repeat' first
  | exact Keeps.refl _
  | assumption
  | decide
  | (extract_lets +onlyGivenNames s1; have h1 : Keeps 7364800 s s1 := (by unfold s1; repeat' first | exact Keeps.refl _ | assumption | decide | refine breakRelay_keeps ?_ ?_ | refine eventFull_keeps ?_ ?_ | refine marginAbort_keeps ?_ ?_ | refine setPortLanes_keeps ?_ ?_ | refine setWeft_keeps ?_ ?_ | refine Keeps.ite ?_ ?_ | (fail_if_no_progress refine Keeps.weft' ?_ _ rfl) | (intro _ _) | split | dsimp only); clear_value s1)
  | (extract_lets +onlyGivenNames x1; clear_value x1)
  | refine breakRelay_keeps ?_ ?_
  | refine eventFull_keeps ?_ ?_
  | refine marginAbort_keeps ?_ ?_
  | refine setPortLanes_keeps ?_ ?_
  | refine setWeft_keeps ?_ ?_
  | refine Keeps.ite ?_ ?_
  | (fail_if_no_progress refine Keeps.weft' ?_ _ rfl)
  | (intro _ _)
  | split
  | dsimp only

theorem weftError_keeps {mk : Nat} {sk : State} {s : State} {p : Nat} {cause : Nat} (hk : Keeps mk sk s) (hm : 128 &&& mk = 128) :
    Keeps mk sk (weftError s p cause) := by
  suffices g : Keeps 128 s (weftError s p cause) from hk.trans (g.weaken hm)
  unfold weftError
  with_reducible repeat' first
  | exact Keeps.refl _
  | assumption
  | decide
  | (fail_if_no_progress refine Keeps.weft' ?_ _ rfl)
  | (intro _ _)
  | split
  | dsimp only

theorem protocolError_keeps {mk : Nat} {sk : State} {s : State} {p : Nat} {cause : Nat} (hk : Keeps mk sk s) (hm : 7364800 &&& mk = 7364800) :
    Keeps mk sk (protocolError s p cause) := by
  suffices g : Keeps 7364800 s (protocolError s p cause) from hk.trans (g.weaken hm)
  unfold protocolError
  with_reducible repeat' first
  | exact Keeps.refl _
  | assumption
  | decide
  | refine eventFull_keeps ?_ ?_
  | refine linkDown_keeps ?_ ?_
  | refine weftError_keeps ?_ ?_
  | (intro _ _)
  | split
  | dsimp only

theorem linkFailed_keeps {mk : Nat} {sk : State} {s : State} {p : Nat} {cause : Nat} (hk : Keeps mk sk s) (hm : 7364808 &&& mk = 7364808) :
    Keeps mk sk (linkFailed s p cause) := by
  suffices g : Keeps 7364808 s (linkFailed s p cause) from hk.trans (g.weaken hm)
  unfold linkFailed
  with_reducible repeat' first
  | exact Keeps.refl _
  | assumption
  | decide
  | (extract_lets +onlyGivenNames s1; have h1 : Keeps 7364808 s s1 := (by unfold s1; repeat' first | exact Keeps.refl _ | assumption | decide | refine breakRelay_keeps ?_ ?_ | refine event_keeps ?_ ?_ | refine health_keeps ?_ ?_ | refine setPortLanes_keeps ?_ ?_ | refine setWeft_keeps ?_ ?_ | refine weftError_keeps ?_ ?_ | refine Keeps.ite ?_ ?_ | (fail_if_no_progress refine Keeps.weft' ?_ _ rfl) | (intro _ _) | split | dsimp only); clear_value s1)
  | (extract_lets +onlyGivenNames x1; clear_value x1)
  | refine breakRelay_keeps ?_ ?_
  | refine event_keeps ?_ ?_
  | refine health_keeps ?_ ?_
  | refine setPortLanes_keeps ?_ ?_
  | refine setWeft_keeps ?_ ?_
  | refine weftError_keeps ?_ ?_
  | refine Keeps.ite ?_ ?_
  | (fail_if_no_progress refine Keeps.weft' ?_ _ rfl)
  | (intro _ _)
  | split
  | dsimp only

theorem attemptFailed_keeps {mk : Nat} {sk : State} {s : State} {p : Nat} {cause : Nat} (hk : Keeps mk sk s) (hm : 7364808 &&& mk = 7364808) :
    Keeps mk sk (attemptFailed s p cause) := by
  suffices g : Keeps 7364808 s (attemptFailed s p cause) from hk.trans (g.weaken hm)
  unfold attemptFailed
  with_reducible repeat' first
  | exact Keeps.refl _
  | assumption
  | decide
  | (extract_lets +onlyGivenNames s1; have h1 : Keeps 7364808 s s1 := (by unfold s1; repeat' first | exact Keeps.refl _ | assumption | decide | refine event_keeps ?_ ?_ | refine linkFailed_keeps ?_ ?_ | refine setPortLanes_keeps ?_ ?_ | refine setWeft_keeps ?_ ?_ | refine Keeps.ite ?_ ?_ | (intro _ _) | split | dsimp only); clear_value s1)
  | (extract_lets +onlyGivenNames x1; clear_value x1)
  | refine event_keeps ?_ ?_
  | refine linkFailed_keeps ?_ ?_
  | refine setPortLanes_keeps ?_ ?_
  | refine setWeft_keeps ?_ ?_
  | refine Keeps.ite ?_ ?_
  | (intro _ _)
  | split
  | dsimp only

theorem enterRetrain_keeps {mk : Nat} {sk : State} {s : State} {p : Nat} {cause : Nat} (hk : Keeps mk sk s) (hm : 7364800 &&& mk = 7364800) :
    Keeps mk sk (enterRetrain s p cause) := by
  suffices g : Keeps 7364800 s (enterRetrain s p cause) from hk.trans (g.weaken hm)
  unfold enterRetrain
  with_reducible repeat' first
  | exact Keeps.refl _
  | assumption
  | decide
  | (extract_lets +onlyGivenNames s1; have h1 : Keeps 7364800 s s1 := (by unfold s1; repeat' first | exact Keeps.refl _ | assumption | decide | refine afterDraw_keeps ?_ ?_ | refine ctrWeft_keeps ?_ ?_ | refine event_keeps ?_ ?_ | refine marginAbort_keeps ?_ ?_ | refine sendRow_keeps ?_ ?_ | refine setPortLanes_keeps ?_ ?_ | refine setWeft_keeps ?_ ?_ | refine Keeps.ite ?_ ?_ | (fail_if_no_progress refine Keeps.lanes' ?_ _ rfl) | (intro _ _) | split | dsimp only); clear_value s1)
  | (extract_lets +onlyGivenNames x1; clear_value x1)
  | refine afterDraw_keeps ?_ ?_
  | refine ctrWeft_keeps ?_ ?_
  | refine event_keeps ?_ ?_
  | refine marginAbort_keeps ?_ ?_
  | refine sendRow_keeps ?_ ?_
  | refine setPortLanes_keeps ?_ ?_
  | refine setWeft_keeps ?_ ?_
  | refine Keeps.ite ?_ ?_
  | (fail_if_no_progress refine Keeps.lanes' ?_ _ rfl)
  | (intro _ _)
  | split
  | dsimp only

theorem times_keeps {m : Nat} {s0 s : State} {f : State → State} {n : Nat} (hf : ∀ u, Keeps m s0 u → Keeps m s0 (f u))
    (h : Keeps m s0 s) : Keeps m s0 (times f n s) := by
  induction n generalizing s with
  | zero => exact h
  | succ n ih => exact ih (hf _ h)

theorem sendTs1_keeps {mk : Nat} {sk : State} {s : State} {p : Nat} (hk : Keeps mk sk s) (hm : 64 &&& mk = 64) :
    Keeps mk sk (sendTs1 s p) := by
  suffices g : Keeps 64 s (sendTs1 s p) from hk.trans (g.weaken hm)
  unfold sendTs1
  with_reducible repeat' first
  | exact Keeps.refl _
  | assumption
  | decide
  | (extract_lets +onlyGivenNames s1; have h1 : Keeps 64 s s1 := (by unfold s1; repeat' first | exact Keeps.refl _ | assumption | decide | refine sendOn_keeps ?_ ?_ | refine times_keeps (fun u hu => ?_) ?_ | refine Keeps.ite ?_ ?_ | (intro _ _) | split | dsimp only); clear_value s1)
  | (extract_lets +onlyGivenNames x1; clear_value x1)
  | refine sendOn_keeps ?_ ?_
  | refine times_keeps (fun u hu => ?_) ?_
  | refine Keeps.ite ?_ ?_
  | (intro _ _)
  | split
  | dsimp only

theorem weftTrainingStart_keeps {mk : Nat} {sk : State} {p : Nat} {s : State} (hk : Keeps mk sk s) (hm : 7364808 &&& mk = 7364808) :
    Keeps mk sk (weftTrainingStart p s) := by
  suffices g : Keeps 7364808 s (weftTrainingStart p s) from hk.trans (g.weaken hm)
  unfold weftTrainingStart
  with_reducible repeat' first
  | exact Keeps.refl _
  | assumption
  | decide
  | (extract_lets +onlyGivenNames s1; have h1 : Keeps 7364808 s s1 := (by unfold s1; repeat' first | exact Keeps.refl _ | assumption | decide | refine afterDraw_keeps ?_ ?_ | refine linkFailed_keeps ?_ ?_ | refine sendTs1_keeps ?_ ?_ | refine setPortLanes_keeps ?_ ?_ | refine setWeft_keeps ?_ ?_ | refine Keeps.ite ?_ ?_ | (fail_if_no_progress refine Keeps.lanes' ?_ _ rfl) | (intro _ _) | split | dsimp only); clear_value s1)
  | (extract_lets +onlyGivenNames x1; clear_value x1)
  | refine afterDraw_keeps ?_ ?_
  | refine linkFailed_keeps ?_ ?_
  | refine sendTs1_keeps ?_ ?_
  | refine setPortLanes_keeps ?_ ?_
  | refine setWeft_keeps ?_ ?_
  | refine Keeps.ite ?_ ?_
  | (fail_if_no_progress refine Keeps.lanes' ?_ _ rfl)
  | (intro _ _)
  | split
  | dsimp only

theorem nextPhase_keeps {mk : Nat} {sk : State} {s : State} {p : Nat} (hk : Keeps mk sk s) (hm : 192 &&& mk = 192) :
    Keeps mk sk (nextPhase s p) := by
  suffices g : Keeps 192 s (nextPhase s p) from hk.trans (g.weaken hm)
  unfold nextPhase
  with_reducible repeat' first
  | exact Keeps.refl _
  | assumption
  | decide
  | (extract_lets +onlyGivenNames s1; have h1 : Keeps 192 s s1 := (by unfold s1; repeat' first | exact Keeps.refl _ | assumption | decide | refine sendTs1_keeps ?_ ?_ | refine setPortLanes_keeps ?_ ?_ | refine setWeft_keeps ?_ ?_ | (intro _ _) | split | dsimp only); clear_value s1)
  | (extract_lets +onlyGivenNames x1; clear_value x1)
  | refine sendTs1_keeps ?_ ?_
  | refine setPortLanes_keeps ?_ ?_
  | refine setWeft_keeps ?_ ?_
  | (intro _ _)
  | split
  | dsimp only

theorem sendTs2_keeps {mk : Nat} {sk : State} {s : State} {p : Nat} {set : Nat} {width : Nat} {rate : Nat} {leader : Bool} (hk : Keeps mk sk s) (hm : 64 &&& mk = 64) :
    Keeps mk sk (sendTs2 s p set width rate leader) := by
  suffices g : Keeps 64 s (sendTs2 s p set width rate leader) from hk.trans (g.weaken hm)
  unfold sendTs2
  with_reducible repeat' first
  | exact Keeps.refl _
  | assumption
  | decide
  | (extract_lets +onlyGivenNames s1; have h1 : Keeps 64 s s1 := (by unfold s1; repeat' first | exact Keeps.refl _ | assumption | decide | refine sendOn_keeps ?_ ?_ | refine times_keeps (fun u hu => ?_) ?_ | (intro _ _) | split | dsimp only); clear_value s1)
  | (extract_lets +onlyGivenNames x1; clear_value x1)
  | refine sendOn_keeps ?_ ?_
  | refine times_keeps (fun u hu => ?_) ?_
  | (intro _ _)
  | split
  | dsimp only

theorem leaderChooses_keeps {mk : Nat} {sk : State} {s : State} {p : Nat} {peerMask : Nat} (hk : Keeps mk sk s) (hm : 7364808 &&& mk = 7364808) :
    Keeps mk sk (leaderChooses s p peerMask) := by
  suffices g : Keeps 7364808 s (leaderChooses s p peerMask) from hk.trans (g.weaken hm)
  unfold leaderChooses
  with_reducible repeat' first
  | exact Keeps.refl _
  | assumption
  | decide
  | (extract_lets +onlyGivenNames s1; have h1 : Keeps 7364808 s s1 := (by unfold s1; repeat' first | exact Keeps.refl _ | assumption | decide | refine attemptFailed_keeps ?_ ?_ | refine sendTs2_keeps ?_ ?_ | refine setWeft_keeps ?_ ?_ | refine Keeps.ite ?_ ?_ | (intro _ _) | split | dsimp only); clear_value s1)
  | (extract_lets +onlyGivenNames x1; clear_value x1)
  | refine attemptFailed_keeps ?_ ?_
  | refine sendTs2_keeps ?_ ?_
  | refine setWeft_keeps ?_ ?_
  | refine Keeps.ite ?_ ?_
  | (intro _ _)
  | split
  | dsimp only

theorem takeTs_keeps {m : Nat} {s0 s : State} {p typ : Nat} {f : Nat → Nat → State → State} (h : Keeps m s0 s) (hm : m.testBit 7 = true)
    (hf : ∀ a b u, Keeps m s0 u → Keeps m s0 (f a b u)) : Keeps m s0 (takeTs p typ f s) := by
  unfold takeTs
  dsimp only
  split
  · exact hf _ _ _ (Keeps.weft' h _ hm)
  · exact h

theorem ts1Take_keeps {mk : Nat} {sk : State} {p : Nat} {lane : Nat} {w : Nat} {s : State} (hk : Keeps mk sk s) (hm : 7364808 &&& mk = 7364808) :
    Keeps mk sk (ts1Take p lane w s) := by
  suffices g : Keeps 7364808 s (ts1Take p lane w s) from hk.trans (g.weaken hm)
  unfold ts1Take
  with_reducible repeat' first
  | exact Keeps.refl _
  | assumption
  | decide
  | (extract_lets +onlyGivenNames s1; have h1 : Keeps 7364808 s s1 := (by unfold s1; repeat' first | exact Keeps.refl _ | assumption | decide | refine afterDraw_keeps ?_ ?_ | refine attemptFailed_keeps ?_ ?_ | refine ctrWeft_keeps ?_ ?_ | refine leaderChooses_keeps ?_ ?_ | refine linkFailed_keeps ?_ ?_ | refine nextPhase_keeps ?_ ?_ | refine sendTs1_keeps ?_ ?_ | refine setWeft_keeps ?_ ?_ | refine Keeps.ite ?_ ?_ | (intro _ _) | split | dsimp only); clear_value s1)
  | (extract_lets +onlyGivenNames x1; clear_value x1)
  | refine afterDraw_keeps ?_ ?_
  | refine attemptFailed_keeps ?_ ?_
  | refine ctrWeft_keeps ?_ ?_
  | refine leaderChooses_keeps ?_ ?_
  | refine linkFailed_keeps ?_ ?_
  | refine nextPhase_keeps ?_ ?_
  | refine sendTs1_keeps ?_ ?_
  | refine setWeft_keeps ?_ ?_
  | refine Keeps.ite ?_ ?_
  | (intro _ _)
  | split
  | dsimp only

theorem ts1Receive_keeps {mk : Nat} {sk : State} {p : Nat} {s : State} (hk : Keeps mk sk s) (hm : 7364808 &&& mk = 7364808) :
    Keeps mk sk (ts1Receive p s) := by
  suffices g : Keeps 7364808 s (ts1Receive p s) from hk.trans (g.weaken hm)
  unfold ts1Receive
  with_reducible repeat' first
  | exact Keeps.refl _
  | assumption
  | decide
  | refine takeTs_keeps ?_ rfl (fun a b u hu => ?_)
  | refine ts1Take_keeps ?_ ?_
  | (intro _ _)
  | split
  | dsimp only

theorem sendCreditInit_keeps {mk : Nat} {sk : State} {s : State} {p : Nat} (hk : Keeps mk sk s) (hm : 192 &&& mk = 192) :
    Keeps mk sk (sendCreditInit s p) := by
  suffices g : Keeps 192 s (sendCreditInit s p) from hk.trans (g.weaken hm)
  unfold sendCreditInit
  with_reducible repeat' first
  | exact Keeps.refl _
  | assumption
  | decide
  | refine sendRow_keeps ?_ ?_
  | refine times_keeps (fun u hu => ?_) ?_
  | refine Keeps.foldl ?_ _ (fun u a hu => ?_)
  | refine Keeps.foldlFst ?_ _ (fun u a hu => ?_)
  | (intro _ _)
  | split
  | dsimp only

theorem linkActive_keeps {mk : Nat} {sk : State} {s : State} {p : Nat} (hk : Keeps mk sk s) (hm : 7364736 &&& mk = 7364736) :
    Keeps mk sk (linkActive s p) := by
  suffices g : Keeps 7364736 s (linkActive s p) from hk.trans (g.weaken hm)
  unfold linkActive
  with_reducible repeat' first
  | exact Keeps.refl _
  | assumption
  | decide
  | (extract_lets +onlyGivenNames s1; have h1 : Keeps 7364736 s s1 := (by unfold s1; repeat' first | exact Keeps.refl _ | assumption | decide | refine event_keeps ?_ ?_ | refine setWeft_keeps ?_ ?_ | refine Keeps.ite ?_ ?_ | (fail_if_no_progress refine Keeps.weft' ?_ _ rfl) | (intro _ _) | split | dsimp only); clear_value s1)
  | (extract_lets +onlyGivenNames x1; clear_value x1)
  | refine event_keeps ?_ ?_
  | refine setWeft_keeps ?_ ?_
  | refine Keeps.ite ?_ ?_
  | (fail_if_no_progress refine Keeps.weft' ?_ _ rfl)
  | (intro _ _)
  | split
  | dsimp only

theorem trainingAgreed_keeps {mk : Nat} {sk : State} {s : State} {p : Nat} (hk : Keeps mk sk s) (hm : 7364800 &&& mk = 7364800) :
    Keeps mk sk (trainingAgreed s p) := by
  suffices g : Keeps 7364800 s (trainingAgreed s p) from hk.trans (g.weaken hm)
  unfold trainingAgreed
  with_reducible repeat' first
  | exact Keeps.refl _
  | assumption
  | decide
  | (extract_lets +onlyGivenNames s1; have h1 : Keeps 7364800 s s1 := (by unfold s1; repeat' first | exact Keeps.refl _ | assumption | decide | refine event_keeps ?_ ?_ | refine linkActive_keeps ?_ ?_ | refine sendCreditInit_keeps ?_ ?_ | refine sendRow_keeps ?_ ?_ | refine setLane_keeps ?_ ?_ | refine setWeft_keeps ?_ ?_ | refine startRows_keeps ?_ ?_ | refine Keeps.ite ?_ ?_ | refine Keeps.foldl ?_ _ (fun u a hu => ?_) | refine Keeps.foldlFst ?_ _ (fun u a hu => ?_) | (fail_if_no_progress refine Keeps.lanes' ?_ _ rfl) | (intro _ _) | split | dsimp only); clear_value s1)
  | (extract_lets +onlyGivenNames x1; clear_value x1)
  | refine event_keeps ?_ ?_
  | refine linkActive_keeps ?_ ?_
  | refine sendCreditInit_keeps ?_ ?_
  | refine sendRow_keeps ?_ ?_
  | refine setLane_keeps ?_ ?_
  | refine setWeft_keeps ?_ ?_
  | refine startRows_keeps ?_ ?_
  | refine Keeps.ite ?_ ?_
  | refine Keeps.foldl ?_ _ (fun u a hu => ?_)
  | refine Keeps.foldlFst ?_ _ (fun u a hu => ?_)
  | (fail_if_no_progress refine Keeps.lanes' ?_ _ rfl)
  | (intro _ _)
  | split
  | dsimp only

theorem ts2Take_keeps {mk : Nat} {sk : State} {p : Nat} {lane : Nat} {w : Nat} {s : State} (hk : Keeps mk sk s) (hm : 7364800 &&& mk = 7364800) :
    Keeps mk sk (ts2Take p lane w s) := by
  suffices g : Keeps 7364800 s (ts2Take p lane w s) from hk.trans (g.weaken hm)
  unfold ts2Take
  with_reducible repeat' first
  | exact Keeps.refl _
  | assumption
  | decide
  | (extract_lets +onlyGivenNames s1; have h1 : Keeps 7364800 s s1 := (by unfold s1; repeat' first | exact Keeps.refl _ | assumption | decide | refine ctrWeft_keeps ?_ ?_ | refine sendTs2_keeps ?_ ?_ | refine setWeft_keeps ?_ ?_ | refine trainingAgreed_keeps ?_ ?_ | refine Keeps.ite ?_ ?_ | (intro _ _) | split | dsimp only); clear_value s1)
  | (extract_lets +onlyGivenNames x1; clear_value x1)
  | refine ctrWeft_keeps ?_ ?_
  | refine sendTs2_keeps ?_ ?_
  | refine setWeft_keeps ?_ ?_
  | refine trainingAgreed_keeps ?_ ?_
  | refine Keeps.ite ?_ ?_
  | (intro _ _)
  | split
  | dsimp only

theorem ts2Receive_keeps {mk : Nat} {sk : State} {p : Nat} {s : State} (hk : Keeps mk sk s) (hm : 7364800 &&& mk = 7364800) :
    Keeps mk sk (ts2Receive p s) := by
  suffices g : Keeps 7364800 s (ts2Receive p s) from hk.trans (g.weaken hm)
  unfold ts2Receive
  with_reducible repeat' first
  | exact Keeps.refl _
  | assumption
  | decide
  | refine takeTs_keeps ?_ rfl (fun a b u hu => ?_)
  | refine ts2Take_keeps ?_ ?_
  | (intro _ _)
  | split
  | dsimp only

theorem trainingPhaseTimeout_keeps {mk : Nat} {sk : State} {p : Nat} {s : State} (hk : Keeps mk sk s) (hm : 7364808 &&& mk = 7364808) :
    Keeps mk sk (trainingPhaseTimeout p s) := by
  suffices g : Keeps 7364808 s (trainingPhaseTimeout p s) from hk.trans (g.weaken hm)
  unfold trainingPhaseTimeout
  with_reducible repeat' first
  | exact Keeps.refl _
  | assumption
  | decide
  | (extract_lets +onlyGivenNames s1; have h1 : Keeps 7364808 s s1 := (by unfold s1; repeat' first | exact Keeps.refl _ | assumption | decide | refine attemptFailed_keeps ?_ ?_ | refine nextPhase_keeps ?_ ?_ | refine Keeps.ite ?_ ?_ | (intro _ _) | split | dsimp only); clear_value s1)
  | (extract_lets +onlyGivenNames x1; clear_value x1)
  | refine attemptFailed_keeps ?_ ?_
  | refine nextPhase_keeps ?_ ?_
  | refine Keeps.ite ?_ ?_
  | (intro _ _)
  | split
  | dsimp only

theorem creditsComplete_keeps {mk : Nat} {sk : State} {s : State} {p : Nat} (hk : Keeps mk sk s) (hm : 7364808 &&& mk = 7364808) :
    Keeps mk sk (creditsComplete s p) := by
  suffices g : Keeps 7364808 s (creditsComplete s p) from hk.trans (g.weaken hm)
  unfold creditsComplete
  with_reducible repeat' first
  | exact Keeps.refl _
  | assumption
  | decide
  | (extract_lets +onlyGivenNames s1; have h1 : Keeps 7364808 s s1 := (by unfold s1; repeat' first | exact Keeps.refl _ | assumption | decide | refine attemptFailed_keeps ?_ ?_ | refine linkActive_keeps ?_ ?_ | refine sendRow_keeps ?_ ?_ | refine setWeft_keeps ?_ ?_ | refine Keeps.ite ?_ ?_ | (intro _ _) | split | dsimp only); clear_value s1)
  | (extract_lets +onlyGivenNames x1; clear_value x1)
  | refine attemptFailed_keeps ?_ ?_
  | refine linkActive_keeps ?_ ?_
  | refine sendRow_keeps ?_ ?_
  | refine setWeft_keeps ?_ ?_
  | refine Keeps.ite ?_ ?_
  | (intro _ _)
  | split
  | dsimp only

theorem takeRow_keeps {m : Nat} {s0 s : State} {p typ : Nat} {f : Nat → State → State} (h : Keeps m s0 s) (hm : m.testBit 7 = true)
    (hf : ∀ a u, Keeps m s0 u → Keeps m s0 (f a u)) : Keeps m s0 (takeRow p typ f s) := by
  unfold takeRow
  dsimp only
  split
  · split
    · exact hf _ _ (Keeps.weft' h _ hm)
    · exact h
  · exact h

theorem creditInitTake_keeps {mk : Nat} {sk : State} {p : Nat} {w : Nat} {s : State} (hk : Keeps mk sk s) (hm : 7364808 &&& mk = 7364808) :
    Keeps mk sk (creditInitTake p w s) := by
  suffices g : Keeps 7364808 s (creditInitTake p w s) from hk.trans (g.weaken hm)
  unfold creditInitTake
  with_reducible repeat' first
  | exact Keeps.refl _
  | assumption
  | decide
  | (extract_lets +onlyGivenNames s1; have h1 : Keeps 7364808 s s1 := (by unfold s1; repeat' first | exact Keeps.refl _ | assumption | decide | refine creditsComplete_keeps ?_ ?_ | refine setWeft_keeps ?_ ?_ | refine Keeps.ite ?_ ?_ | (intro _ _) | split | dsimp only); clear_value s1)
  | (extract_lets +onlyGivenNames x1; clear_value x1)
  | refine creditsComplete_keeps ?_ ?_
  | refine setWeft_keeps ?_ ?_
  | refine Keeps.ite ?_ ?_
  | (intro _ _)
  | split
  | dsimp only

theorem creditInitReceive_keeps {mk : Nat} {sk : State} {p : Nat} {s : State} (hk : Keeps mk sk s) (hm : 7364808 &&& mk = 7364808) :
    Keeps mk sk (creditInitReceive p s) := by
  suffices g : Keeps 7364808 s (creditInitReceive p s) from hk.trans (g.weaken hm)
  unfold creditInitReceive
  with_reducible repeat' first
  | exact Keeps.refl _
  | assumption
  | decide
  | refine creditInitTake_keeps ?_ ?_
  | refine takeRow_keeps ?_ rfl (fun a u hu => ?_)
  | (intro _ _)
  | split
  | dsimp only

theorem flitStartTake_keeps {mk : Nat} {sk : State} {p : Nat} {w : Nat} {s : State} (hk : Keeps mk sk s) (hm : 7364800 &&& mk = 7364800) :
    Keeps mk sk (flitStartTake p w s) := by
  suffices g : Keeps 7364800 s (flitStartTake p w s) from hk.trans (g.weaken hm)
  unfold flitStartTake
  with_reducible repeat' first
  | exact Keeps.refl _
  | assumption
  | decide
  | (extract_lets +onlyGivenNames s1; have h1 : Keeps 7364800 s s1 := (by unfold s1; repeat' first | exact Keeps.refl _ | assumption | decide | refine linkActive_keeps ?_ ?_ | refine protocolError_keeps ?_ ?_ | refine setWeft_keeps ?_ ?_ | refine Keeps.ite ?_ ?_ | (intro _ _) | split | dsimp only); clear_value s1)
  | (extract_lets +onlyGivenNames x1; clear_value x1)
  | refine linkActive_keeps ?_ ?_
  | refine protocolError_keeps ?_ ?_
  | refine setWeft_keeps ?_ ?_
  | refine Keeps.ite ?_ ?_
  | (intro _ _)
  | split
  | dsimp only

theorem flitStartReceive_keeps {mk : Nat} {sk : State} {p : Nat} {s : State} (hk : Keeps mk sk s) (hm : 7364800 &&& mk = 7364800) :
    Keeps mk sk (flitStartReceive p s) := by
  suffices g : Keeps 7364800 s (flitStartReceive p s) from hk.trans (g.weaken hm)
  unfold flitStartReceive
  with_reducible repeat' first
  | exact Keeps.refl _
  | assumption
  | decide
  | refine flitStartTake_keeps ?_ ?_
  | refine takeRow_keeps ?_ rfl (fun a u hu => ?_)
  | (intro _ _)
  | split
  | dsimp only

theorem alignedTimeout_keeps {mk : Nat} {sk : State} {p : Nat} {s : State} (hk : Keeps mk sk s) (hm : 7364808 &&& mk = 7364808) :
    Keeps mk sk (alignedTimeout p s) := by
  suffices g : Keeps 7364808 s (alignedTimeout p s) from hk.trans (g.weaken hm)
  unfold alignedTimeout
  with_reducible repeat' first
  | exact Keeps.refl _
  | assumption
  | decide
  | (extract_lets +onlyGivenNames s1; have h1 : Keeps 7364808 s s1 := (by unfold s1; repeat' first | exact Keeps.refl _ | assumption | decide | refine attemptFailed_keeps ?_ ?_ | refine Keeps.ite ?_ ?_ | (intro _ _) | split | dsimp only); clear_value s1)
  | (extract_lets +onlyGivenNames x1; clear_value x1)
  | refine attemptFailed_keeps ?_ ?_
  | refine Keeps.ite ?_ ?_
  | (intro _ _)
  | split
  | dsimp only

theorem retrainReqReceive_keeps {mk : Nat} {sk : State} {p : Nat} {s : State} (hk : Keeps mk sk s) (hm : 7364800 &&& mk = 7364800) :
    Keeps mk sk (retrainReqReceive p s) := by
  suffices g : Keeps 7364800 s (retrainReqReceive p s) from hk.trans (g.weaken hm)
  unfold retrainReqReceive
  with_reducible repeat' first
  | exact Keeps.refl _
  | assumption
  | decide
  | refine enterRetrain_keeps ?_ ?_
  | refine sendTs1_keeps ?_ ?_
  | refine takeRow_keeps ?_ rfl (fun a u hu => ?_)
  | refine Keeps.ite ?_ ?_
  | (intro _ _)
  | split
  | dsimp only

theorem retrainReqEnd_keeps {mk : Nat} {sk : State} {p : Nat} {s : State} (hk : Keeps mk sk s) (hm : 192 &&& mk = 192) :
    Keeps mk sk (retrainReqEnd p s) := by
  suffices g : Keeps 192 s (retrainReqEnd p s) from hk.trans (g.weaken hm)
  unfold retrainReqEnd
  with_reducible repeat' first
  | exact Keeps.refl _
  | assumption
  | decide
  | (extract_lets +onlyGivenNames s1; have h1 : Keeps 192 s s1 := (by unfold s1; repeat' first | exact Keeps.refl _ | assumption | decide | refine sendTs1_keeps ?_ ?_ | refine setWeft_keeps ?_ ?_ | refine Keeps.ite ?_ ?_ | (intro _ _) | split | dsimp only); clear_value s1)
  | (extract_lets +onlyGivenNames x1; clear_value x1)
  | refine sendTs1_keeps ?_ ?_
  | refine setWeft_keeps ?_ ?_
  | refine Keeps.ite ?_ ?_
  | (intro _ _)
  | split
  | dsimp only

theorem retrainRateStep_keeps {mk : Nat} {sk : State} {p : Nat} {s : State} (hk : Keeps mk sk s) (hm : 192 &&& mk = 192) :
    Keeps mk sk (retrainRateStep p s) := by
  suffices g : Keeps 192 s (retrainRateStep p s) from hk.trans (g.weaken hm)
  unfold retrainRateStep
  with_reducible repeat' first
  | exact Keeps.refl _
  | assumption
  | decide
  | (extract_lets +onlyGivenNames s1; have h1 : Keeps 192 s s1 := (by unfold s1; repeat' first | exact Keeps.refl _ | assumption | decide | refine nextPhase_keeps ?_ ?_ | refine Keeps.ite ?_ ?_ | (intro _ _) | split | dsimp only); clear_value s1)
  | (extract_lets +onlyGivenNames x1; clear_value x1)
  | refine nextPhase_keeps ?_ ?_
  | refine Keeps.ite ?_ ?_
  | (intro _ _)
  | split
  | dsimp only

theorem retrainTimeout_keeps {mk : Nat} {sk : State} {p : Nat} {s : State} (hk : Keeps mk sk s) (hm : 7364800 &&& mk = 7364800) :
    Keeps mk sk (retrainTimeout p s) := by
  suffices g : Keeps 7364800 s (retrainTimeout p s) from hk.trans (g.weaken hm)
  unfold retrainTimeout
  with_reducible repeat' first
  | exact Keeps.refl _
  | assumption
  | decide
  | (extract_lets +onlyGivenNames s1; have h1 : Keeps 7364800 s s1 := (by unfold s1; repeat' first | exact Keeps.refl _ | assumption | decide | refine linkDown_keeps ?_ ?_ | refine Keeps.ite ?_ ?_ | (intro _ _) | split | dsimp only); clear_value s1)
  | (extract_lets +onlyGivenNames x1; clear_value x1)
  | refine linkDown_keeps ?_ ?_
  | refine Keeps.ite ?_ ?_
  | (intro _ _)
  | split
  | dsimp only

theorem actWeftRetrain_keeps {mk : Nat} {sk : State} {p : Nat} {s : State} (hk : Keeps mk sk s) (hm : 7364808 &&& mk = 7364808) :
    Keeps mk sk (actWeftRetrain p s) := by
  suffices g : Keeps 7364808 s (actWeftRetrain p s) from hk.trans (g.weaken hm)
  unfold actWeftRetrain
  with_reducible repeat' first
  | exact Keeps.refl _
  | assumption
  | decide
  | (extract_lets +onlyGivenNames s1; have h1 : Keeps 7364808 s s1 := (by unfold s1; repeat' first | exact Keeps.refl _ | assumption | decide | refine enterRetrain_keeps ?_ ?_ | refine health_keeps ?_ ?_ | refine setWeft_keeps ?_ ?_ | (intro _ _) | split | dsimp only); clear_value s1)
  | (extract_lets +onlyGivenNames x1; clear_value x1)
  | refine enterRetrain_keeps ?_ ?_
  | refine health_keeps ?_ ?_
  | refine setWeft_keeps ?_ ?_
  | (intro _ _)
  | split
  | dsimp only

theorem trainedLaneLost_keeps {mk : Nat} {sk : State} {s : State} {l : Nat} {cause : Nat} (hk : Keeps mk sk s) (hm : 7364800 &&& mk = 7364800) :
    Keeps mk sk (trainedLaneLost s l cause) := by
  suffices g : Keeps 7364800 s (trainedLaneLost s l cause) from hk.trans (g.weaken hm)
  unfold trainedLaneLost
  with_reducible repeat' first
  | exact Keeps.refl _
  | assumption
  | decide
  | (extract_lets +onlyGivenNames s1; have h1 : Keeps 7364800 s s1 := (by unfold s1; repeat' first | exact Keeps.refl _ | assumption | decide | refine enterRetrain_keeps ?_ ?_ | refine Keeps.ite ?_ ?_ | (intro _ _) | split | dsimp only); clear_value s1)
  | (extract_lets +onlyGivenNames x1; clear_value x1)
  | refine enterRetrain_keeps ?_ ?_
  | refine Keeps.ite ?_ ?_
  | (intro _ _)
  | split
  | dsimp only

theorem alignSend_keeps {mk : Nat} {sk : State} {p : Nat} {s : State} (hk : Keeps mk sk s) (hm : 192 &&& mk = 192) :
    Keeps mk sk (alignSend p s) := by
  suffices g : Keeps 192 s (alignSend p s) from hk.trans (g.weaken hm)
  unfold alignSend
  with_reducible repeat' first
  | exact Keeps.refl _
  | assumption
  | decide
  | (extract_lets +onlyGivenNames s1; have h1 : Keeps 192 s s1 := (by unfold s1; repeat' first | exact Keeps.refl _ | assumption | decide | refine sendCreditInit_keeps ?_ ?_ | refine sendOn_keeps ?_ ?_ | refine sendTs1_keeps ?_ ?_ | refine setWeft_keeps ?_ ?_ | refine Keeps.ite ?_ ?_ | (intro _ _) | split | dsimp only); clear_value s1)
  | (extract_lets +onlyGivenNames x1; clear_value x1)
  | refine sendCreditInit_keeps ?_ ?_
  | refine sendOn_keeps ?_ ?_
  | refine sendTs1_keeps ?_ ?_
  | refine setWeft_keeps ?_ ?_
  | refine Keeps.ite ?_ ?_
  | (intro _ _)
  | split
  | dsimp only

theorem execAlignSend_keeps {mk : Nat} {sk : State} {p : Port} {s : State} (hk : Keeps mk sk s) (hm : 192 &&& mk = 192) :
    ∃ t', execAlignSend p s = .next t' ∧ Keeps mk sk t' := by
  suffices g : ∃ t', execAlignSend p s = .next t' ∧ Keeps 192 s t' from g.imp fun _ h => ⟨h.1, hk.trans (h.2.weaken hm)⟩
  refine ⟨_, rfl, ?_⟩
  with_reducible repeat' first
  | exact Keeps.refl _
  | assumption
  | decide
  | refine alignSend_keeps ?_ ?_
  | refine Keeps.ite ?_ ?_
  | (intro _ _)
  | split
  | dsimp only

theorem takeAlign_keeps {mk : Nat} {sk : State} {s : State} {l : Nat} {w : Nat} (hk : Keeps mk sk s) (hm : 7364800 &&& mk = 7364800) :
    Keeps mk sk (takeAlign s l w) := by
  suffices g : Keeps 7364800 s (takeAlign s l w) from hk.trans (g.weaken hm)
  unfold takeAlign
  with_reducible repeat' first
  | exact Keeps.refl _
  | assumption
  | decide
  | (extract_lets +onlyGivenNames s1; have h1 : Keeps 7364800 s s1 := (by unfold s1; repeat' first | exact Keeps.refl _ | assumption | decide | refine event_keeps ?_ ?_ | refine sendTs1_keeps ?_ ?_ | refine setLane_keeps ?_ ?_ | refine setWeft_keeps ?_ ?_ | refine trainedLaneLost_keeps ?_ ?_ | refine Keeps.ite ?_ ?_ | (intro _ _) | split | dsimp only); clear_value s1)
  | (extract_lets +onlyGivenNames x1; clear_value x1)
  | refine event_keeps ?_ ?_
  | refine sendTs1_keeps ?_ ?_
  | refine setLane_keeps ?_ ?_
  | refine setWeft_keeps ?_ ?_
  | refine trainedLaneLost_keeps ?_ ?_
  | refine Keeps.ite ?_ ?_
  | (intro _ _)
  | split
  | dsimp only

theorem alignReceive_keeps {mk : Nat} {sk : State} {l : Nat} {s : State} (hk : Keeps mk sk s) (hm : 7364800 &&& mk = 7364800) :
    Keeps mk sk (alignReceive l s) := by
  suffices g : Keeps 7364800 s (alignReceive l s) from hk.trans (g.weaken hm)
  unfold alignReceive
  with_reducible repeat' first
  | exact Keeps.refl _
  | assumption
  | decide
  | (extract_lets +onlyGivenNames s1; have h1 : Keeps 7364800 s s1 := (by unfold s1; repeat' first | exact Keeps.refl _ | assumption | decide | refine event_keeps ?_ ?_ | refine setLane_keeps ?_ ?_ | refine takeAlign_keeps ?_ ?_ | refine Keeps.ite ?_ ?_ | (intro _ _) | split | dsimp only); clear_value s1)
  | (extract_lets +onlyGivenNames x1; clear_value x1)
  | refine event_keeps ?_ ?_
  | refine setLane_keeps ?_ ?_
  | refine takeAlign_keeps ?_ ?_
  | refine Keeps.ite ?_ ?_
  | (intro _ _)
  | split
  | dsimp only

theorem lanesSkewed_keeps {mk : Nat} {sk : State} {late : List Nat} {s : State} (hk : Keeps mk sk s) (hm : 7364800 &&& mk = 7364800) :
    Keeps mk sk (lanesSkewed late s) := by
  suffices g : Keeps 7364800 s (lanesSkewed late s) from hk.trans (g.weaken hm)
  unfold lanesSkewed
  with_reducible repeat' first
  | exact Keeps.refl _
  | assumption
  | decide
  | refine setLane_keeps ?_ ?_
  | refine trainedLaneLost_keeps ?_ ?_
  | refine Keeps.foldl ?_ _ (fun u a hu => ?_)
  | refine Keeps.foldlFst ?_ _ (fun u a hu => ?_)
  | (intro _ _)
  | split
  | dsimp only

theorem useBlock_keeps {mk : Nat} {sk : State} {s : State} {l : Nat} {header : Nat} {payload : Nat} (hk : Keeps mk sk s) (hm : 7364800 &&& mk = 7364800) :
    Keeps mk sk (useBlock s l header payload) := by
  suffices g : Keeps 7364800 s (useBlock s l header payload) from hk.trans (g.weaken hm)
  unfold useBlock
  with_reducible repeat' first
  | exact Keeps.refl _
  | assumption
  | decide
  | (extract_lets +onlyGivenNames q1; have hq1 : Keeps 7364800 s q1.1 := (by unfold q1; repeat' first | exact Keeps.refl _ | assumption | decide | refine adaptLane_keeps ?_ ?_ | refine formRow_keeps ?_ ?_ | refine lanesSkewed_keeps ?_ ?_ | refine sortBlock_keeps ?_ ?_ | (intro _ _) | split | dsimp only); clear_value q1)
  | (extract_lets +onlyGivenNames s1; have h1 : Keeps 7364800 s s1 := (by unfold s1; repeat' first | exact Keeps.refl _ | assumption | decide | refine adaptLane_keeps ?_ ?_ | refine formRow_keeps ?_ ?_ | refine lanesSkewed_keeps ?_ ?_ | refine sortBlock_keeps ?_ ?_ | (intro _ _) | split | dsimp only); clear_value s1)
  | (extract_lets +onlyGivenNames x1; clear_value x1)
  | refine adaptLane_keeps ?_ ?_
  | refine formRow_keeps ?_ ?_
  | refine lanesSkewed_keeps ?_ ?_
  | refine sortBlock_keeps ?_ ?_
  | (intro _ _)
  | split
  | dsimp only

theorem weftBlockReceive_keeps {mk : Nat} {sk : State} {l : Nat} {levels : Nat} {s : State} (hk : Keeps mk sk s) (hm : 7364800 &&& mk = 7364800) :
    Keeps mk sk (weftBlockReceive l levels s) := by
  suffices g : Keeps 7364800 s (weftBlockReceive l levels s) from hk.trans (g.weaken hm)
  unfold weftBlockReceive
  with_reducible repeat' first
  | exact Keeps.refl _
  | assumption
  | decide
  | (extract_lets +onlyGivenNames s1; have h1 : Keeps 7364800 s s1 := (by unfold s1; repeat' first | exact Keeps.refl _ | assumption | decide | refine setLane_keeps ?_ ?_ | refine useBlock_keeps ?_ ?_ | refine Keeps.ite ?_ ?_ | refine Keeps.iteFst ?_ ?_ | (intro _ _) | split | dsimp only); clear_value s1)
  | (extract_lets +onlyGivenNames x1; clear_value x1)
  | refine setLane_keeps ?_ ?_
  | refine useBlock_keeps ?_ ?_
  | refine Keeps.ite ?_ ?_
  | refine Keeps.iteFst ?_ ?_
  | (intro _ _)
  | split
  | dsimp only

theorem blockLockLost_keeps {mk : Nat} {sk : State} {l : Nat} {s : State} (hk : Keeps mk sk s) (hm : 7364800 &&& mk = 7364800) :
    Keeps mk sk (blockLockLost l s) := by
  suffices g : Keeps 7364800 s (blockLockLost l s) from hk.trans (g.weaken hm)
  unfold blockLockLost
  with_reducible repeat' first
  | exact Keeps.refl _
  | assumption
  | decide
  | (extract_lets +onlyGivenNames s1; have h1 : Keeps 7364800 s s1 := (by unfold s1; repeat' first | exact Keeps.refl _ | assumption | decide | refine lockLost_keeps ?_ ?_ | refine trainedLaneLost_keeps ?_ ?_ | refine Keeps.ite ?_ ?_ | (intro _ _) | split | dsimp only); clear_value s1)
  | (extract_lets +onlyGivenNames x1; clear_value x1)
  | refine lockLost_keeps ?_ ?_
  | refine trainedLaneLost_keeps ?_ ?_
  | refine Keeps.ite ?_ ?_
  | (intro _ _)
  | split
  | dsimp only

theorem laneAlignTimeout_keeps {mk : Nat} {sk : State} {l : Nat} {s : State} (hk : Keeps mk sk s) (hm : 7364800 &&& mk = 7364800) :
    Keeps mk sk (laneAlignTimeout l s) := by
  suffices g : Keeps 7364800 s (laneAlignTimeout l s) from hk.trans (g.weaken hm)
  unfold laneAlignTimeout
  with_reducible repeat' first
  | exact Keeps.refl _
  | assumption
  | decide
  | (extract_lets +onlyGivenNames s1; have h1 : Keeps 7364800 s s1 := (by unfold s1; repeat' first | exact Keeps.refl _ | assumption | decide | refine setLane_keeps ?_ ?_ | refine trainedLaneLost_keeps ?_ ?_ | refine Keeps.ite ?_ ?_ | (intro _ _) | split | dsimp only); clear_value s1)
  | (extract_lets +onlyGivenNames x1; clear_value x1)
  | refine setLane_keeps ?_ ?_
  | refine trainedLaneLost_keeps ?_ ?_
  | refine Keeps.ite ?_ ?_
  | (intro _ _)
  | split
  | dsimp only

theorem startRound_keeps {mk : Nat} {sk : State} {s : State} {p : Nat} (hk : Keeps mk sk s) (hm : 1048768 &&& mk = 1048768) :
    Keeps mk sk (startRound s p) := by
  suffices g : Keeps 1048768 s (startRound s p) from hk.trans (g.weaken hm)
  unfold startRound
  with_reducible repeat' first
  | exact Keeps.refl _
  | assumption
  | decide
  | (extract_lets +onlyGivenNames s1; have h1 : Keeps 1048768 s s1 := (by unfold s1; repeat' first | exact Keeps.refl _ | assumption | decide | refine ctrWeft_keeps ?_ ?_ | refine sendRow_keeps ?_ ?_ | refine setWeft_keeps ?_ ?_ | refine weftError_keeps ?_ ?_ | (intro _ _) | split | dsimp only); clear_value s1)
  | (extract_lets +onlyGivenNames x1; clear_value x1)
  | refine ctrWeft_keeps ?_ ?_
  | refine sendRow_keeps ?_ ?_
  | refine setWeft_keeps ?_ ?_
  | refine weftError_keeps ?_ ?_
  | (intro _ _)
  | split
  | dsimp only

theorem replayTrigger_keeps {mk : Nat} {sk : State} {s : State} {p : Nat} (hk : Keeps mk sk s) (hm : 7364800 &&& mk = 7364800) :
    Keeps mk sk (replayTrigger s p) := by
  suffices g : Keeps 7364800 s (replayTrigger s p) from hk.trans (g.weaken hm)
  unfold replayTrigger
  with_reducible repeat' first
  | exact Keeps.refl _
  | assumption
  | decide
  | (extract_lets +onlyGivenNames s1; have h1 : Keeps 7364800 s s1 := (by unfold s1; repeat' first | exact Keeps.refl _ | assumption | decide | refine enterRetrain_keeps ?_ ?_ | refine linkDown_keeps ?_ ?_ | refine startRound_keeps ?_ ?_ | refine Keeps.ite ?_ ?_ | (intro _ _) | split | dsimp only); clear_value s1)
  | (extract_lets +onlyGivenNames x1; clear_value x1)
  | refine enterRetrain_keeps ?_ ?_
  | refine linkDown_keeps ?_ ?_
  | refine startRound_keeps ?_ ?_
  | refine Keeps.ite ?_ ?_
  | (intro _ _)
  | split
  | dsimp only

theorem replayTimerExpiry_keeps {mk : Nat} {sk : State} {p : Nat} {s : State} (hk : Keeps mk sk s) (hm : 7364800 &&& mk = 7364800) :
    Keeps mk sk (replayTimerExpiry p s) := by
  suffices g : Keeps 7364800 s (replayTimerExpiry p s) from hk.trans (g.weaken hm)
  unfold replayTimerExpiry
  with_reducible repeat' first
  | exact Keeps.refl _
  | assumption
  | decide
  | (extract_lets +onlyGivenNames s1; have h1 : Keeps 7364800 s s1 := (by unfold s1; repeat' first | exact Keeps.refl _ | assumption | decide | refine replayTrigger_keeps ?_ ?_ | refine Keeps.ite ?_ ?_ | (intro _ _) | split | dsimp only); clear_value s1)
  | (extract_lets +onlyGivenNames x1; clear_value x1)
  | refine replayTrigger_keeps ?_ ?_
  | refine Keeps.ite ?_ ?_
  | (intro _ _)
  | split
  | dsimp only

theorem flitOut_keeps {mk : Nat} {sk : State} {s : State} {p : Nat} {bytes : List Byte} (hk : Keeps mk sk s) (hm : 192 &&& mk = 192) :
    Keeps mk sk (flitOut s p bytes) := by
  suffices g : Keeps 192 s (flitOut s p bytes) from hk.trans (g.weaken hm)
  unfold flitOut
  with_reducible repeat' first
  | exact Keeps.refl _
  | assumption
  | decide
  | refine edgeCross_keeps ?_ ?_
  | refine sendFlit_keeps ?_ ?_
  | (intro _ _)
  | split
  | dsimp only

theorem flitSend_keeps {mk : Nat} {sk : State} {p : Nat} {s : State} (hk : Keeps mk sk s) (hm : 1048768 &&& mk = 1048768) :
    Keeps mk sk (flitSend p s) := by
  suffices g : Keeps 1048768 s (flitSend p s) from hk.trans (g.weaken hm)
  unfold flitSend
  with_reducible repeat' first
  | exact Keeps.refl _
  | assumption
  | decide
  | (extract_lets +onlyGivenNames s1; have h1 : Keeps 1048768 s s1 := (by unfold s1; repeat' first | exact Keeps.refl _ | assumption | decide | refine ctrWeft_keeps ?_ ?_ | refine flitOut_keeps ?_ ?_ | refine setWeft_keeps ?_ ?_ | refine Keeps.ite ?_ ?_ | refine Keeps.ofPair (by assumption) ?_ | (intro _ _) | split | dsimp only); clear_value s1)
  | (extract_lets +onlyGivenNames x1; clear_value x1)
  | refine ctrWeft_keeps ?_ ?_
  | refine flitOut_keeps ?_ ?_
  | refine setWeft_keeps ?_ ?_
  | refine Keeps.ite ?_ ?_
  | refine Keeps.ofPair (by assumption) ?_
  | (intro _ _)
  | split
  | dsimp only

theorem execFlitSend_keeps {mk : Nat} {sk : State} {p : Port} {s : State} (hk : Keeps mk sk s) (hm : 1048768 &&& mk = 1048768) :
    ∃ t', execFlitSend p s = .next t' ∧ Keeps mk sk t' := by
  suffices g : ∃ t', execFlitSend p s = .next t' ∧ Keeps 1048768 s t' from g.imp fun _ h => ⟨h.1, hk.trans (h.2.weaken hm)⟩
  refine ⟨_, rfl, ?_⟩
  with_reducible repeat' first
  | exact Keeps.refl _
  | assumption
  | decide
  | refine flitSend_keeps ?_ ?_
  | (intro _ _)
  | split
  | dsimp only

theorem ackFlits_keeps {mk : Nat} {sk : State} {s : State} {p : Nat} {ack : Nat} (hk : Keeps mk sk s) (hm : 128 &&& mk = 128) :
    Keeps mk sk (ackFlits s p ack) := by
  suffices g : Keeps 128 s (ackFlits s p ack) from hk.trans (g.weaken hm)
  unfold ackFlits
  with_reducible repeat' first
  | exact Keeps.refl _
  | assumption
  | decide
  | (extract_lets +onlyGivenNames s1; have h1 : Keeps 128 s s1 := (by unfold s1; repeat' first | exact Keeps.refl _ | assumption | decide | refine setWeft_keeps ?_ ?_ | refine Keeps.ite ?_ ?_ | refine Keeps.iteFst ?_ ?_ | (intro _ _) | split | dsimp only); clear_value s1)
  | (extract_lets +onlyGivenNames x1; clear_value x1)
  | refine setWeft_keeps ?_ ?_
  | refine Keeps.ite ?_ ?_
  | refine Keeps.iteFst ?_ ?_
  | (intro _ _)
  | split
  | dsimp only

theorem creditReturn_keeps {mk : Nat} {sk : State} {s : State} {p : Nat} {tc : Nat} {h : Nat} {d : Nat} (hk : Keeps mk sk s) (hm : 7364800 &&& mk = 7364800) :
    Keeps mk sk (creditReturn s p tc h d) := by
  suffices g : Keeps 7364800 s (creditReturn s p tc h d) from hk.trans (g.weaken hm)
  unfold creditReturn
  with_reducible repeat' first
  | exact Keeps.refl _
  | assumption
  | decide
  | (extract_lets +onlyGivenNames s1; have h1 : Keeps 7364800 s s1 := (by unfold s1; repeat' first | exact Keeps.refl _ | assumption | decide | refine protocolError_keeps ?_ ?_ | refine setWeft_keeps ?_ ?_ | refine Keeps.ite ?_ ?_ | (intro _ _) | split | dsimp only); clear_value s1)
  | (extract_lets +onlyGivenNames x1; clear_value x1)
  | refine protocolError_keeps ?_ ?_
  | refine setWeft_keeps ?_ ?_
  | refine Keeps.ite ?_ ?_
  | (intro _ _)
  | split
  | dsimp only

theorem useHeader_keeps {mk : Nat} {sk : State} {s : State} {p : Nat} {h : LinkHeader} (hk : Keeps mk sk s) (hm : 7364800 &&& mk = 7364800) :
    Keeps mk sk (useHeader s p h) := by
  suffices g : Keeps 7364800 s (useHeader s p h) from hk.trans (g.weaken hm)
  unfold useHeader
  with_reducible repeat' first
  | exact Keeps.refl _
  | assumption
  | decide
  | (extract_lets +onlyGivenNames s1; have h1 : Keeps 7364800 s s1 := (by unfold s1; repeat' first | exact Keeps.refl _ | assumption | decide | refine ackFlits_keeps ?_ ?_ | refine creditReturn_keeps ?_ ?_ | refine replayTrigger_keeps ?_ ?_ | refine setWeft_keeps ?_ ?_ | refine Keeps.ite ?_ ?_ | (intro _ _) | split | dsimp only); clear_value s1)
  | (extract_lets +onlyGivenNames x1; clear_value x1)
  | refine ackFlits_keeps ?_ ?_
  | refine creditReturn_keeps ?_ ?_
  | refine replayTrigger_keeps ?_ ?_
  | refine setWeft_keeps ?_ ?_
  | refine Keeps.ite ?_ ?_
  | (intro _ _)
  | split
  | dsimp only

theorem relaySlot_keeps {mk : Nat} {sk : State} {s : State} {p : Nat} {slot : List Byte} {last : Bool} {ab : Bool} (hk : Keeps mk sk s) (hm : 128 &&& mk = 128) :
    Keeps mk sk (relaySlot s p slot last ab) := by
  suffices g : Keeps 128 s (relaySlot s p slot last ab) from hk.trans (g.weaken hm)
  unfold relaySlot
  with_reducible repeat' first
  | exact Keeps.refl _
  | assumption
  | decide
  | refine endRelay_keeps ?_ ?_
  | refine withRelay_keeps ?_ ?_
  | refine Keeps.ite ?_ ?_
  | (intro _ _)
  | split
  | dsimp only

theorem takeSlots_keeps {mk : Nat} {sk : State}  {ss : List Nat} {bs : List Byte} {ab : Bool} {p : Nat} {s : State} (hk : Keeps mk sk s) (hm : 7364800 &&& mk = 7364800) :
    Keeps mk sk (takeSlots ss bs ab p s) := by
  have aux : ∀ (ss : List Nat) (bs : List Byte) (ab : Bool) (p : Nat) (u t : State), Keeps 7364800 u t → Keeps 7364800 u (takeSlots ss bs ab p t) := by
    intro ss
    induction ss with
    | nil => intro bs ab p u t h0; unfold takeSlots; exact h0
    | cons x l ih =>
      intro bs ab p u t h0
      unfold takeSlots
      with_reducible repeat' first
        | with_reducible exact Keeps.refl _
        | with_reducible assumption
        | decide
        | (extract_lets +onlyGivenNames q1; have hq1 : Keeps 7364800 u q1.1 := (by unfold q1; repeat' first | with_reducible exact Keeps.refl _ | with_reducible assumption | decide | with_reducible refine ih _ _ _ _ _ ?_ | refine ctrWeft_keeps ?_ ?_ | refine event_keeps ?_ ?_ | refine protocolError_keeps ?_ ?_ | refine relaySlot_keeps ?_ ?_ | refine setWeft_keeps ?_ ?_ | refine Keeps.ite ?_ ?_ | (fail_if_no_progress refine Keeps.weft' ?_ _ rfl) | (intro _ _) | split | dsimp only); clear_value q1)
        | (extract_lets +onlyGivenNames s1; have h1 : Keeps 7364800 u s1 := (by unfold s1; repeat' first | with_reducible exact Keeps.refl _ | with_reducible assumption | decide | with_reducible refine ih _ _ _ _ _ ?_ | refine ctrWeft_keeps ?_ ?_ | refine event_keeps ?_ ?_ | refine protocolError_keeps ?_ ?_ | refine relaySlot_keeps ?_ ?_ | refine setWeft_keeps ?_ ?_ | refine Keeps.ite ?_ ?_ | (fail_if_no_progress refine Keeps.weft' ?_ _ rfl) | (intro _ _) | split | dsimp only); clear_value s1)
        | (extract_lets +onlyGivenNames x1; clear_value x1)
        | with_reducible refine ih _ _ _ _ _ ?_
        | refine ctrWeft_keeps ?_ ?_
        | refine event_keeps ?_ ?_
        | refine protocolError_keeps ?_ ?_
        | refine relaySlot_keeps ?_ ?_
        | refine setWeft_keeps ?_ ?_
        | refine Keeps.ite ?_ ?_
        | (fail_if_no_progress refine Keeps.weft' ?_ _ rfl)
        | (intro _ _)
        | split
        | dsimp only
  exact hk.trans ((aux ss bs ab p s s (Keeps.refl s)).weaken hm)

theorem acceptFlit_keeps {mk : Nat} {sk : State} {s : State} {p : Nat} {h : LinkHeader} {slots : List Byte} (hk : Keeps mk sk s) (hm : 7364800 &&& mk = 7364800) :
    Keeps mk sk (acceptFlit s p h slots) := by
  suffices g : Keeps 7364800 s (acceptFlit s p h slots) from hk.trans (g.weaken hm)
  unfold acceptFlit
  with_reducible repeat' first
  | exact Keeps.refl _
  | assumption
  | decide
  | (extract_lets +onlyGivenNames q1; have hq1 : Keeps 7364800 s q1.1 := (by unfold q1; repeat' first | exact Keeps.refl _ | assumption | decide | refine ctrWeft_keeps ?_ ?_ | refine protocolError_keeps ?_ ?_ | refine setWeft_keeps ?_ ?_ | refine takeSlots_keeps ?_ ?_ | refine Keeps.ite ?_ ?_ | (intro _ _) | split | dsimp only); clear_value q1)
  | (extract_lets +onlyGivenNames s1; have h1 : Keeps 7364800 s s1 := (by unfold s1; repeat' first | exact Keeps.refl _ | assumption | decide | refine ctrWeft_keeps ?_ ?_ | refine protocolError_keeps ?_ ?_ | refine setWeft_keeps ?_ ?_ | refine takeSlots_keeps ?_ ?_ | refine Keeps.ite ?_ ?_ | (intro _ _) | split | dsimp only); clear_value s1)
  | (extract_lets +onlyGivenNames x1; clear_value x1)
  | refine ctrWeft_keeps ?_ ?_
  | refine protocolError_keeps ?_ ?_
  | refine setWeft_keeps ?_ ?_
  | refine takeSlots_keeps ?_ ?_
  | refine Keeps.ite ?_ ?_
  | (intro _ _)
  | split
  | dsimp only

theorem badFlit_keeps {mk : Nat} {sk : State} {s : State} {p : Nat} {c : Nat} (hk : Keeps mk sk s) (hm : 1048704 &&& mk = 1048704) :
    Keeps mk sk (badFlit s p c) := by
  suffices g : Keeps 1048704 s (badFlit s p c) from hk.trans (g.weaken hm)
  unfold badFlit
  with_reducible repeat' first
  | exact Keeps.refl _
  | assumption
  | decide
  | (extract_lets +onlyGivenNames s1; have h1 : Keeps 1048704 s s1 := (by unfold s1; repeat' first | exact Keeps.refl _ | assumption | decide | refine ctrWeft_keeps ?_ ?_ | refine setWeft_keeps ?_ ?_ | refine Keeps.ite ?_ ?_ | (intro _ _) | split | dsimp only); clear_value s1)
  | (extract_lets +onlyGivenNames x1; clear_value x1)
  | refine ctrWeft_keeps ?_ ?_
  | refine setWeft_keeps ?_ ?_
  | refine Keeps.ite ?_ ?_
  | (intro _ _)
  | split
  | dsimp only

theorem countedFlit_keeps {mk : Nat} {sk : State} {s : State} {p : Nat} {h : LinkHeader} {slots : List Byte} (hk : Keeps mk sk s) (hm : 7364800 &&& mk = 7364800) :
    Keeps mk sk (countedFlit s p h slots) := by
  suffices g : Keeps 7364800 s (countedFlit s p h slots) from hk.trans (g.weaken hm)
  unfold countedFlit
  with_reducible repeat' first
  | exact Keeps.refl _
  | assumption
  | decide
  | (extract_lets +onlyGivenNames s1; have h1 : Keeps 7364800 s s1 := (by unfold s1; repeat' first | exact Keeps.refl _ | assumption | decide | refine acceptFlit_keeps ?_ ?_ | refine ctrWeft_keeps ?_ ?_ | refine setWeft_keeps ?_ ?_ | refine useHeader_keeps ?_ ?_ | refine Keeps.ite ?_ ?_ | (intro _ _) | split | dsimp only); clear_value s1)
  | (extract_lets +onlyGivenNames x1; clear_value x1)
  | refine acceptFlit_keeps ?_ ?_
  | refine ctrWeft_keeps ?_ ?_
  | refine setWeft_keeps ?_ ?_
  | refine useHeader_keeps ?_ ?_
  | refine Keeps.ite ?_ ?_
  | (intro _ _)
  | split
  | dsimp only

theorem flitAccept_keeps {mk : Nat} {sk : State} {p : Nat} {flit : List Byte} {s : State} (hk : Keeps mk sk s) (hm : 7364800 &&& mk = 7364800) :
    Keeps mk sk (flitAccept p flit s) := by
  suffices g : Keeps 7364800 s (flitAccept p flit s) from hk.trans (g.weaken hm)
  unfold flitAccept
  with_reducible repeat' first
  | exact Keeps.refl _
  | assumption
  | decide
  | (extract_lets +onlyGivenNames s1; have h1 : Keeps 7364800 s s1 := (by unfold s1; repeat' first | exact Keeps.refl _ | assumption | decide | refine badFlit_keeps ?_ ?_ | refine countedFlit_keeps ?_ ?_ | refine ctrWeft_keeps ?_ ?_ | refine protocolError_keeps ?_ ?_ | refine useHeader_keeps ?_ ?_ | refine weftError_keeps ?_ ?_ | refine Keeps.ite ?_ ?_ | (intro _ _) | split | dsimp only); clear_value s1)
  | (extract_lets +onlyGivenNames x1; clear_value x1)
  | refine badFlit_keeps ?_ ?_
  | refine countedFlit_keeps ?_ ?_
  | refine ctrWeft_keeps ?_ ?_
  | refine protocolError_keeps ?_ ?_
  | refine useHeader_keeps ?_ ?_
  | refine weftError_keeps ?_ ?_
  | refine Keeps.ite ?_ ?_
  | (intro _ _)
  | split
  | dsimp only

theorem takeFlit_keeps {mk : Nat} {sk : State} {p : Nat} {s : State} (hk : Keeps mk sk s) (hm : 192 &&& mk = 192) :
    Keeps mk sk (takeFlit p s).1 := by
  suffices g : Keeps 192 s (takeFlit p s).1 from hk.trans (g.weaken hm)
  unfold takeFlit
  with_reducible repeat' first
  | exact Keeps.refl _
  | assumption
  | decide
  | (extract_lets +onlyGivenNames s1; have h1 : Keeps 192 s s1 := (by unfold s1; repeat' first | exact Keeps.refl _ | assumption | decide | refine edgeCross_keeps ?_ ?_ | refine setWeft_keeps ?_ ?_ | (intro _ _) | split | dsimp only); clear_value s1)
  | (extract_lets +onlyGivenNames x1; clear_value x1)
  | refine edgeCross_keeps ?_ ?_
  | refine setWeft_keeps ?_ ?_
  | (intro _ _)
  | split
  | dsimp only

theorem weftRelease_keeps {mk : Nat} {sk : State} {s : State} {p : Nat} {tc : Nat} {slots : Nat} (hk : Keeps mk sk s) (hm : 128 &&& mk = 128) :
    Keeps mk sk (weftRelease s p tc slots) := by
  suffices g : Keeps 128 s (weftRelease s p tc slots) from hk.trans (g.weaken hm)
  unfold weftRelease
  with_reducible repeat' first
  | exact Keeps.refl _
  | assumption
  | decide
  | (extract_lets +onlyGivenNames s1; have h1 : Keeps 128 s s1 := (by unfold s1; repeat' first | exact Keeps.refl _ | assumption | decide | refine setWeft_keeps ?_ ?_ | refine Keeps.ite ?_ ?_ | (intro _ _) | split | dsimp only); clear_value s1)
  | (extract_lets +onlyGivenNames x1; clear_value x1)
  | refine setWeft_keeps ?_ ?_
  | refine Keeps.ite ?_ ?_
  | (intro _ _)
  | split
  | dsimp only

theorem weftDisabled_keeps {mk : Nat} {sk : State} {s : State} {p : Nat} (hk : Keeps mk sk s) (hm : 7364800 &&& mk = 7364800) :
    Keeps mk sk (weftDisabled s p) := by
  suffices g : Keeps 7364800 s (weftDisabled s p) from hk.trans (g.weaken hm)
  unfold weftDisabled
  with_reducible repeat' first
  | exact Keeps.refl _
  | assumption
  | decide
  | (extract_lets +onlyGivenNames s1; have h1 : Keeps 7364800 s s1 := (by unfold s1; repeat' first | exact Keeps.refl _ | assumption | decide | refine linkDown_keeps ?_ ?_ | refine setPortLanes_keeps ?_ ?_ | refine setWeft_keeps ?_ ?_ | refine Keeps.ite ?_ ?_ | (intro _ _) | split | dsimp only); clear_value s1)
  | (extract_lets +onlyGivenNames x1; clear_value x1)
  | refine linkDown_keeps ?_ ?_
  | refine setPortLanes_keeps ?_ ?_
  | refine setWeft_keeps ?_ ?_
  | refine Keeps.ite ?_ ?_
  | (intro _ _)
  | split
  | dsimp only

theorem weftEnabled_keeps {mk : Nat} {sk : State} {s : State} {p : Nat} (hk : Keeps mk sk s) (hm : 192 &&& mk = 192) :
    Keeps mk sk (weftEnabled s p) := by
  suffices g : Keeps 192 s (weftEnabled s p) from hk.trans (g.weaken hm)
  unfold weftEnabled
  with_reducible repeat' first
  | exact Keeps.refl _
  | assumption
  | decide
  | refine setPortLanes_keeps ?_ ?_
  | refine setWeft_keeps ?_ ?_
  | (intro _ _)
  | split
  | dsimp only

/-! ### Filters -/

theorem filterSlot_keeps {mk : Nat} {sk : State} {b : Nat} {i : FilterItem} {s : State} {k : Nat} (hk : Keeps mk sk s) (hm : 1048576 &&& mk = 1048576) :
    Keeps mk sk (filterSlot b i s k) := by
  suffices g : Keeps 1048576 s (filterSlot b i s k) from hk.trans (g.weaken hm)
  unfold filterSlot
  with_reducible repeat' first
  | exact Keeps.refl _
  | assumption
  | decide
  | (extract_lets +onlyGivenNames s1; have h1 : Keeps 1048576 s s1 := (by unfold s1; repeat' first | exact Keeps.refl _ | assumption | decide | refine count_keeps ?_ ?_ | refine Keeps.ite ?_ ?_ | (intro _ _) | split | dsimp only); clear_value s1)
  | (extract_lets +onlyGivenNames x1; clear_value x1)
  | refine count_keeps ?_ ?_
  | refine Keeps.ite ?_ ?_
  | (intro _ _)
  | split
  | dsimp only

theorem filterItem_keeps {mk : Nat} {sk : State} {s : State} {b : Nat} {i : FilterItem} (hk : Keeps mk sk s) (hm : 1048576 &&& mk = 1048576) :
    Keeps mk sk (filterItem s b i) := by
  suffices g : Keeps 1048576 s (filterItem s b i) from hk.trans (g.weaken hm)
  unfold filterItem
  with_reducible repeat' first
  | exact Keeps.refl _
  | assumption
  | decide
  | refine filterSlot_keeps ?_ ?_
  | refine Keeps.foldl ?_ _ (fun u a hu => ?_)
  | refine Keeps.foldlFst ?_ _ (fun u a hu => ?_)
  | (intro _ _)
  | split
  | dsimp only

/-! ### Space -/

theorem setWarp_keeps {mk : Nat} {sk : State} {s : State} {p : Nat} {x : WarpPort} (hk : Keeps mk sk s) (hm : 256 &&& mk = 256) :
    Keeps mk sk (setWarp s p x) := by
  suffices g : Keeps 256 s (setWarp s p x) from hk.trans (g.weaken hm)
  unfold setWarp
  with_reducible repeat' first
  | exact Keeps.refl _
  | assumption
  | decide
  | (fail_if_no_progress refine Keeps.warp' ?_ _ rfl)
  | (intro _ _)
  | split
  | dsimp only

theorem setPart_keeps {mk : Nat} {sk : State} {s : State} {v : Nat} {x : Partition} (hk : Keeps mk sk s) (hm : 256 &&& mk = 256) :
    Keeps mk sk (setPart s v x) := by
  suffices g : Keeps 256 s (setPart s v x) from hk.trans (g.weaken hm)
  unfold setPart
  with_reducible repeat' first
  | exact Keeps.refl _
  | assumption
  | decide
  | (fail_if_no_progress refine Keeps.warp' ?_ _ rfl)
  | (intro _ _)
  | split
  | dsimp only

theorem setCfgReg_keeps {mk : Nat} {sk : State} {s : State} {v : Nat} {fn : Nat} {dw : Nat} {x : Nat} (hk : Keeps mk sk s) (hm : 256 &&& mk = 256) :
    Keeps mk sk (setCfgReg s v fn dw x) := by
  suffices g : Keeps 256 s (setCfgReg s v fn dw x) from hk.trans (g.weaken hm)
  unfold setCfgReg
  with_reducible repeat' first
  | exact Keeps.refl _
  | assumption
  | decide
  | refine setPart_keeps ?_ ?_
  | (intro _ _)
  | split
  | dsimp only

theorem errorMessage_keeps {mk : Nat} {sk : State} {s : State} {v : Nat} {fn : Nat} {code : Nat} (hk : Keeps mk sk s) (hm : 256 &&& mk = 256) :
    Keeps mk sk (errorMessage s v fn code) := by
  suffices g : Keeps 256 s (errorMessage s v fn code) from hk.trans (g.weaken hm)
  unfold errorMessage
  with_reducible repeat' first
  | exact Keeps.refl _
  | assumption
  | decide
  | (fail_if_no_progress refine Keeps.warp' ?_ _ rfl)
  | (intro _ _)
  | split
  | dsimp only

theorem aerApply_keeps {mk : Nat} {sk : State} {s : State} {v : Nat} {fn : Nat} {w : List (Nat × Nat) × Option Nat} (hk : Keeps mk sk s) (hm : 256 &&& mk = 256) :
    Keeps mk sk (aerApply s v fn w) := by
  suffices g : Keeps 256 s (aerApply s v fn w) from hk.trans (g.weaken hm)
  unfold aerApply
  with_reducible repeat' first
  | exact Keeps.refl _
  | assumption
  | decide
  | (extract_lets +onlyGivenNames s1; have h1 : Keeps 256 s s1 := (by unfold s1; repeat' first | exact Keeps.refl _ | assumption | decide | refine errorMessage_keeps ?_ ?_ | refine setCfgReg_keeps ?_ ?_ | refine Keeps.foldl ?_ _ (fun u a hu => ?_) | refine Keeps.foldlFst ?_ _ (fun u a hu => ?_) | (intro _ _) | split | dsimp only); clear_value s1)
  | (extract_lets +onlyGivenNames x1; clear_value x1)
  | refine errorMessage_keeps ?_ ?_
  | refine setCfgReg_keeps ?_ ?_
  | refine Keeps.foldl ?_ _ (fun u a hu => ?_)
  | refine Keeps.foldlFst ?_ _ (fun u a hu => ?_)
  | (intro _ _)
  | split
  | dsimp only

theorem setUpReg_keeps {mk : Nat} {sk : State} {s : State} {p : Nat} {dw : Nat} {x : Nat} (hk : Keeps mk sk s) (hm : 256 &&& mk = 256) :
    Keeps mk sk (setUpReg s p dw x) := by
  suffices g : Keeps 256 s (setUpReg s p dw x) from hk.trans (g.weaken hm)
  unfold setUpReg
  with_reducible repeat' first
  | exact Keeps.refl _
  | assumption
  | decide
  | refine setWarp_keeps ?_ ?_
  | (intro _ _)
  | split
  | dsimp only

theorem aerPort_keeps {mk : Nat} {sk : State} {s : State} {p : Nat} {f : (Nat → Nat) → List (Nat × Nat) × Option Nat} (hk : Keeps mk sk s) (hm : 256 &&& mk = 256) :
    Keeps mk sk (aerPort s p f) := by
  suffices g : Keeps 256 s (aerPort s p f) from hk.trans (g.weaken hm)
  unfold aerPort
  with_reducible repeat' first
  | exact Keeps.refl _
  | assumption
  | decide
  | (extract_lets +onlyGivenNames s1; have h1 : Keeps 256 s s1 := (by unfold s1; repeat' first | exact Keeps.refl _ | assumption | decide | refine aerApply_keeps ?_ ?_ | refine errorMessage_keeps ?_ ?_ | refine setUpReg_keeps ?_ ?_ | refine Keeps.ite ?_ ?_ | refine Keeps.iteFst ?_ ?_ | refine Keeps.foldl ?_ _ (fun u a hu => ?_) | refine Keeps.foldlFst ?_ _ (fun u a hu => ?_) | (intro _ _) | split | dsimp only); clear_value s1)
  | (extract_lets +onlyGivenNames x1; clear_value x1)
  | refine aerApply_keeps ?_ ?_
  | refine errorMessage_keeps ?_ ?_
  | refine setUpReg_keeps ?_ ?_
  | refine Keeps.ite ?_ ?_
  | refine Keeps.iteFst ?_ ?_
  | refine Keeps.foldl ?_ _ (fun u a hu => ?_)
  | refine Keeps.foldlFst ?_ _ (fun u a hu => ?_)
  | (intro _ _)
  | split
  | dsimp only

theorem aerLog_keeps {mk : Nat} {sk : State} {s : State} {p : Nat} {cause : Nat} {header : Nat} (hk : Keeps mk sk s) (hm : 256 &&& mk = 256) :
    Keeps mk sk (aerLog s p cause header) := by
  suffices g : Keeps 256 s (aerLog s p cause header) from hk.trans (g.weaken hm)
  unfold aerLog
  with_reducible repeat' first
  | exact Keeps.refl _
  | assumption
  | decide
  | refine aerPort_keeps ?_ ?_
  | (intro _ _)
  | split
  | dsimp only

theorem aerUnsupported_keeps {mk : Nat} {sk : State} {s : State} {p : Nat} {header : Nat} (hk : Keeps mk sk s) (hm : 256 &&& mk = 256) :
    Keeps mk sk (aerUnsupported s p header) := by
  suffices g : Keeps 256 s (aerUnsupported s p header) from hk.trans (g.weaken hm)
  unfold aerUnsupported
  with_reducible repeat' first
  | exact Keeps.refl _
  | assumption
  | decide
  | refine aerPort_keeps ?_ ?_
  | (intro _ _)
  | split
  | dsimp only

theorem aerReceiver_keeps {mk : Nat} {sk : State} {s : State} {p : Nat} (hk : Keeps mk sk s) (hm : 256 &&& mk = 256) :
    Keeps mk sk (aerReceiver s p) := by
  suffices g : Keeps 256 s (aerReceiver s p) from hk.trans (g.weaken hm)
  unfold aerReceiver
  with_reducible repeat' first
  | exact Keeps.refl _
  | assumption
  | decide
  | refine aerPort_keeps ?_ ?_
  | (intro _ _)
  | split
  | dsimp only

/-! ### Selvedge -/

theorem discardCompletion_keeps {mk : Nat} {sk : State} {s : State} {v : Nat} (hk : Keeps mk sk s) (hm : 256 &&& mk = 256) :
    Keeps mk sk (discardCompletion s v) := by
  suffices g : Keeps 256 s (discardCompletion s v) from hk.trans (g.weaken hm)
  unfold discardCompletion
  with_reducible repeat' first
  | exact Keeps.refl _
  | assumption
  | decide
  | refine setPart_keeps ?_ ?_
  | (intro _ _)
  | split
  | dsimp only

theorem selLatch_keeps {mk : Nat} {sk : State} {s : State} {x : Nat} {cause : Nat} {action : Nat} {vs : Option Nat} {header : Nat} (hk : Keeps mk sk s) (hm : 32768 &&& mk = 32768) :
    Keeps mk sk (selLatch s x cause action vs header) := by
  suffices g : Keeps 32768 s (selLatch s x cause action vs header) from hk.trans (g.weaken hm)
  unfold selLatch
  with_reducible repeat' first
  | exact Keeps.refl _
  | assumption
  | decide
  | (extract_lets +onlyGivenNames s1; have h1 : Keeps 32768 s s1 := (by unfold s1; repeat' first | exact Keeps.refl _ | assumption | decide | (fail_if_no_progress refine Keeps.sel' ?_ _ rfl) | (intro _ _) | split | dsimp only); clear_value s1)
  | (extract_lets +onlyGivenNames x1; clear_value x1)
  | (fail_if_no_progress refine Keeps.sel' ?_ _ rfl)
  | (intro _ _)
  | split
  | dsimp only

theorem selContained_keeps {mk : Nat} {sk : State} {s : State} {x : Nat} {cause : Nat} {action : Nat} {vs : Option Nat} {header : Nat} (hk : Keeps mk sk s) (hm : 7397632 &&& mk = 7397632) :
    Keeps mk sk (selContained s x cause action vs header) := by
  suffices g : Keeps 7397632 s (selContained s x cause action vs header) from hk.trans (g.weaken hm)
  unfold selContained
  with_reducible repeat' first
  | exact Keeps.refl _
  | assumption
  | decide
  | (extract_lets +onlyGivenNames s1; have h1 : Keeps 7397632 s s1 := (by unfold s1; repeat' first | exact Keeps.refl _ | assumption | decide | refine aerLog_keeps ?_ ?_ | refine count_keeps ?_ ?_ | refine eventFull_keeps ?_ ?_ | refine rateEvent_keeps ?_ rfl (fun u a hu => ?_) | refine selLatch_keeps ?_ ?_ | refine setPart_keeps ?_ ?_ | (intro _ _) | split | dsimp only); clear_value s1)
  | (extract_lets +onlyGivenNames x1; clear_value x1)
  | refine aerLog_keeps ?_ ?_
  | refine count_keeps ?_ ?_
  | refine eventFull_keeps ?_ ?_
  | refine rateEvent_keeps ?_ rfl (fun u a hu => ?_)
  | refine selLatch_keeps ?_ ?_
  | refine setPart_keeps ?_ ?_
  | (intro _ _)
  | split
  | dsimp only

theorem selCorrectable_keeps {mk : Nat} {sk : State} {s : State} {x : Nat} {cause : Nat} (hk : Keeps mk sk s) (hm : 7397632 &&& mk = 7397632) :
    Keeps mk sk (selCorrectable s x cause) := by
  suffices g : Keeps 7397632 s (selCorrectable s x cause) from hk.trans (g.weaken hm)
  unfold selCorrectable
  with_reducible repeat' first
  | exact Keeps.refl _
  | assumption
  | decide
  | (extract_lets +onlyGivenNames s1; have h1 : Keeps 7397632 s s1 := (by unfold s1; repeat' first | exact Keeps.refl _ | assumption | decide | refine aerReceiver_keeps ?_ ?_ | refine count_keeps ?_ ?_ | refine eventFull_keeps ?_ ?_ | refine Keeps.ite ?_ ?_ | (fail_if_no_progress refine Keeps.sel' ?_ _ rfl) | (intro _ _) | split | dsimp only); clear_value s1)
  | (extract_lets +onlyGivenNames x1; clear_value x1)
  | refine aerReceiver_keeps ?_ ?_
  | refine count_keeps ?_ ?_
  | refine eventFull_keeps ?_ ?_
  | refine Keeps.ite ?_ ?_
  | (fail_if_no_progress refine Keeps.sel' ?_ _ rfl)
  | (intro _ _)
  | split
  | dsimp only

theorem actSelErrClear_keeps {mk : Nat} {sk : State} {x : Nat} {s : State} (hk : Keeps mk sk s) (hm : 32768 &&& mk = 32768) :
    Keeps mk sk (actSelErrClear x s) := by
  suffices g : Keeps 32768 s (actSelErrClear x s) from hk.trans (g.weaken hm)
  unfold actSelErrClear
  with_reducible repeat' first
  | exact Keeps.refl _
  | assumption
  | decide
  | (fail_if_no_progress refine Keeps.sel' ?_ _ rfl)
  | (intro _ _)
  | split
  | dsimp only

theorem execSelErrClear_keeps {mk : Nat} {sk : State} {sess : Nat} {d : Dest} {value : Nat} {s : State} (hk : Keeps mk sk s) (hm : 1343488 &&& mk = 1343488) :
    ∃ t', execSelErrClear sess d value s = .next t' ∧ Keeps mk sk t' := by
  suffices g : ∃ t', execSelErrClear sess d value s = .next t' ∧ Keeps 1343488 s t' from g.imp fun _ h => ⟨h.1, hk.trans (h.2.weaken hm)⟩
  refine ⟨_, rfl, ?_⟩
  with_reducible repeat' first
  | exact Keeps.refl _
  | assumption
  | decide
  | refine actSelErrClear_keeps ?_ ?_
  | refine actWrite_keeps ?_ rfl (fun u hu => ?_) (fun u hu => ?_)
  | refine onOne_keeps ?_ (fun u hu => ?_)
  | simp only [id_eq]
  | (intro _ _)
  | split
  | dsimp only

theorem discardIde_keeps {mk : Nat} {sk : State} {s : State} {p : Nat} {cause : Nat} (hk : Keeps mk sk s) (hm : 7889152 &&& mk = 7889152) :
    Keeps mk sk (discardIde s p cause) := by
  suffices g : Keeps 7889152 s (discardIde s p cause) from hk.trans (g.weaken hm)
  unfold discardIde
  with_reducible repeat' first
  | exact Keeps.refl _
  | assumption
  | decide
  | (extract_lets +onlyGivenNames s1; have h1 : Keeps 7889152 s s1 := (by unfold s1; repeat' first | exact Keeps.refl _ | assumption | decide | refine event_keeps ?_ ?_ | refine Keeps.foldl ?_ _ (fun u a hu => ?_) | refine Keeps.foldlFst ?_ _ (fun u a hu => ?_) | (fail_if_no_progress refine Keeps.warp' ?_ _ rfl) | (fail_if_no_progress refine Keeps.vault' ?_ _ rfl) | (fail_if_no_progress (refine Keeps.several ?_ (by refine ⟨?_, ?_, ?_, ?_, ?_, ?_, ?_, ?_, ?_, ?_, ?_, ?_, ?_, ?_, ?_, ?_, ?_, ?_, ?_, ?_⟩ <;> first | exact Or.inl rfl | exact Or.inr rfl))) | (intro _ _) | split | dsimp only); clear_value s1)
  | (extract_lets +onlyGivenNames x1; clear_value x1)
  | refine event_keeps ?_ ?_
  | refine Keeps.foldl ?_ _ (fun u a hu => ?_)
  | refine Keeps.foldlFst ?_ _ (fun u a hu => ?_)
  | (fail_if_no_progress refine Keeps.warp' ?_ _ rfl)
  | (fail_if_no_progress refine Keeps.vault' ?_ _ rfl)
  | (fail_if_no_progress (refine Keeps.several ?_ (by refine ⟨?_, ?_, ?_, ?_, ?_, ?_, ?_, ?_, ?_, ?_, ?_, ?_, ?_, ?_, ?_, ?_, ?_, ?_, ?_, ?_⟩ <;> first | exact Or.inl rfl | exact Or.inr rfl)))
  | (intro _ _)
  | split
  | dsimp only

theorem discardPartIde_keeps {mk : Nat} {sk : State} {s : State} {v : Nat} (hk : Keeps mk sk s) (hm : 7889152 &&& mk = 7889152) :
    Keeps mk sk (discardPartIde s v) := by
  suffices g : Keeps 7889152 s (discardPartIde s v) from hk.trans (g.weaken hm)
  unfold discardPartIde
  with_reducible repeat' first
  | exact Keeps.refl _
  | assumption
  | decide
  | refine discardIde_keeps ?_ ?_
  | refine Keeps.foldl ?_ _ (fun u a hu => ?_)
  | refine Keeps.foldlFst ?_ _ (fun u a hu => ?_)
  | (intro _ _)
  | split
  | dsimp only

theorem isolate_keeps {mk : Nat} {sk : State} {s : State} {v : Nat} {cause : Nat} (hk : Keeps mk sk s) (hm : 7921920 &&& mk = 7921920) :
    Keeps mk sk (isolate s v cause) := by
  suffices g : Keeps 7921920 s (isolate s v cause) from hk.trans (g.weaken hm)
  unfold isolate
  with_reducible repeat' first
  | exact Keeps.refl _
  | assumption
  | decide
  | (extract_lets +onlyGivenNames s1; have h1 : Keeps 7921920 s s1 := (by unfold s1; repeat' first | exact Keeps.refl _ | assumption | decide | refine count_keeps ?_ ?_ | refine discardPartIde_keeps ?_ ?_ | refine eventFull_keeps ?_ ?_ | refine selContained_keeps ?_ ?_ | refine setPart_keeps ?_ ?_ | refine Keeps.ite ?_ ?_ | (intro _ _) | split | dsimp only); clear_value s1)
  | (extract_lets +onlyGivenNames x1; clear_value x1)
  | refine count_keeps ?_ ?_
  | refine discardPartIde_keeps ?_ ?_
  | refine eventFull_keeps ?_ ?_
  | refine selContained_keeps ?_ ?_
  | refine setPart_keeps ?_ ?_
  | refine Keeps.ite ?_ ?_
  | (intro _ _)
  | split
  | dsimp only

theorem actSelIsolate_keeps {mk : Nat} {sk : State} {v : Nat} {s : State} (hk : Keeps mk sk s) (hm : 7921920 &&& mk = 7921920) :
    Keeps mk sk (actSelIsolate v s) := by
  suffices g : Keeps 7921920 s (actSelIsolate v s) from hk.trans (g.weaken hm)
  unfold actSelIsolate
  with_reducible repeat' first
  | exact Keeps.refl _
  | assumption
  | decide
  | refine isolate_keeps ?_ ?_
  | refine Keeps.ite ?_ ?_
  | (intro _ _)
  | split
  | dsimp only

theorem execSelIsolateCmd_keeps {mk : Nat} {sk : State} {sess : Nat} {v : Vs} {value : Nat} {s : State} (hk : Keeps mk sk s) (hm : 8184064 &&& mk = 8184064) :
    ∃ t', execSelIsolateCmd sess v value s = .next t' ∧ Keeps mk sk t' := by
  suffices g : ∃ t', execSelIsolateCmd sess v value s = .next t' ∧ Keeps 8184064 s t' from g.imp fun _ h => ⟨h.1, hk.trans (h.2.weaken hm)⟩
  refine ⟨_, rfl, ?_⟩
  with_reducible repeat' first
  | exact Keeps.refl _
  | assumption
  | decide
  | refine actSelIsolate_keeps ?_ ?_
  | refine actWrite_keeps ?_ rfl (fun u hu => ?_) (fun u hu => ?_)
  | refine onOne_keeps ?_ (fun u hu => ?_)
  | simp only [id_eq]
  | (intro _ _)
  | split
  | dsimp only

theorem routingStateError_keeps {mk : Nat} {sk : State} {v : Nat} {s : State} (hk : Keeps mk sk s) (hm : 256 &&& mk = 256) :
    Keeps mk sk (routingStateError v s) := by
  suffices g : Keeps 256 s (routingStateError v s) from hk.trans (g.weaken hm)
  unfold routingStateError
  with_reducible repeat' first
  | exact Keeps.refl _
  | assumption
  | decide
  | refine setPart_keeps ?_ ?_
  | refine Keeps.ite ?_ ?_
  | (intro _ _)
  | split
  | dsimp only

theorem execRoutingStateError_keeps {mk : Nat} {sk : State} {v : Vs} {s : State} (hk : Keeps mk sk s) (hm : 256 &&& mk = 256) :
    ∃ t', execRoutingStateError v s = .next t' ∧ Keeps mk sk t' := by
  suffices g : ∃ t', execRoutingStateError v s = .next t' ∧ Keeps 256 s t' from g.imp fun _ h => ⟨h.1, hk.trans (h.2.weaken hm)⟩
  refine ⟨_, rfl, ?_⟩
  with_reducible repeat' first
  | exact Keeps.refl _
  | assumption
  | decide
  | refine routingStateError_keeps ?_ ?_
  | (intro _ _)
  | split
  | dsimp only

theorem shadowReloadDone_keeps {mk : Nat} {sk : State} {v : Nat} {ok : Bool} {s : State} (hk : Keeps mk sk s) (hm : 7921920 &&& mk = 7921920) :
    Keeps mk sk (shadowReloadDone v ok s) := by
  suffices g : Keeps 7921920 s (shadowReloadDone v ok s) from hk.trans (g.weaken hm)
  unfold shadowReloadDone
  with_reducible repeat' first
  | exact Keeps.refl _
  | assumption
  | decide
  | (extract_lets +onlyGivenNames s1; have h1 : Keeps 7921920 s s1 := (by unfold s1; repeat' first | exact Keeps.refl _ | assumption | decide | refine count_keeps ?_ ?_ | refine event_keeps ?_ ?_ | refine isolate_keeps ?_ ?_ | refine selCorrectable_keeps ?_ ?_ | refine setPart_keeps ?_ ?_ | refine Keeps.ite ?_ ?_ | (intro _ _) | split | dsimp only); clear_value s1)
  | (extract_lets +onlyGivenNames x1; clear_value x1)
  | refine count_keeps ?_ ?_
  | refine event_keeps ?_ ?_
  | refine isolate_keeps ?_ ?_
  | refine selCorrectable_keeps ?_ ?_
  | refine setPart_keeps ?_ ?_
  | refine Keeps.ite ?_ ?_
  | (intro _ _)
  | split
  | dsimp only

theorem execShadowReloadDone_keeps {mk : Nat} {sk : State} {v : Vs} {ok : Bool} {s : State} (hk : Keeps mk sk s) (hm : 7921920 &&& mk = 7921920) :
    ∃ t', execShadowReloadDone v ok s = .next t' ∧ Keeps mk sk t' := by
  suffices g : ∃ t', execShadowReloadDone v ok s = .next t' ∧ Keeps 7921920 s t' from g.imp fun _ h => ⟨h.1, hk.trans (h.2.weaken hm)⟩
  refine ⟨_, rfl, ?_⟩
  with_reducible repeat' first
  | exact Keeps.refl _
  | assumption
  | decide
  | refine shadowReloadDone_keeps ?_ ?_
  | (intro _ _)
  | split
  | dsimp only

/-! ### Heddles -/

theorem denied_keeps {mk : Nat} {sk : State} {s : State} {h : Nat} {cls : Nat} {kind : Nat} {inbound : Bool} {addr : Nat} {region : Nat} {sub : Nat} (hk : Keeps mk sk s) (hm : 7364608 &&& mk = 7364608) :
    Keeps mk sk (denied s h cls kind inbound addr region sub) := by
  suffices g : Keeps 7364608 s (denied s h cls kind inbound addr region sub) from hk.trans (g.weaken hm)
  unfold denied
  with_reducible repeat' first
  | exact Keeps.refl _
  | assumption
  | decide
  | (extract_lets +onlyGivenNames s1; have h1 : Keeps 7364608 s s1 := (by unfold s1; repeat' first | exact Keeps.refl _ | assumption | decide | refine count_keeps ?_ ?_ | refine event_keeps ?_ ?_ | refine privCount_keeps ?_ ?_ | refine rateEvent_keeps ?_ rfl (fun u a hu => ?_) | refine Keeps.ite ?_ ?_ | (fail_if_no_progress refine Keeps.hed' ?_ _ rfl) | (intro _ _) | split | dsimp only); clear_value s1)
  | (extract_lets +onlyGivenNames x1; clear_value x1)
  | refine count_keeps ?_ ?_
  | refine event_keeps ?_ ?_
  | refine privCount_keeps ?_ ?_
  | refine rateEvent_keeps ?_ rfl (fun u a hu => ?_)
  | refine Keeps.ite ?_ ?_
  | (fail_if_no_progress refine Keeps.hed' ?_ _ rfl)
  | (intro _ _)
  | split
  | dsimp only

theorem denialsRecorded_keeps {mk : Nat} {sk : State} {s : State} (hk : Keeps mk sk s) (hm : 7364608 &&& mk = 7364608) :
    Keeps mk sk (denialsRecorded s) := by
  suffices g : Keeps 7364608 s (denialsRecorded s) from hk.trans (g.weaken hm)
  unfold denialsRecorded
  with_reducible repeat' first
  | exact Keeps.refl _
  | assumption
  | decide
  | (extract_lets +onlyGivenNames s1; have h1 : Keeps 7364608 s s1 := (by unfold s1; repeat' first | exact Keeps.refl _ | assumption | decide | refine denied_keeps ?_ ?_ | refine Keeps.foldl ?_ _ (fun u a hu => ?_) | refine Keeps.foldlFst ?_ _ (fun u a hu => ?_) | (fail_if_no_progress refine Keeps.hed' ?_ _ rfl) | (intro _ _) | split | dsimp only); clear_value s1)
  | (extract_lets +onlyGivenNames x1; clear_value x1)
  | refine denied_keeps ?_ ?_
  | refine Keeps.foldl ?_ _ (fun u a hu => ?_)
  | refine Keeps.foldlFst ?_ _ (fun u a hu => ?_)
  | (fail_if_no_progress refine Keeps.hed' ?_ _ rfl)
  | (intro _ _)
  | split
  | dsimp only

theorem passed_keeps {mk : Nat} {sk : State} {s : State} {h : Nat} {ownPass : Bool} {i : FilterItem} (hk : Keeps mk sk s) (hm : 1048576 &&& mk = 1048576) :
    Keeps mk sk (passed s h ownPass i) := by
  suffices g : Keeps 1048576 s (passed s h ownPass i) from hk.trans (g.weaken hm)
  unfold passed
  with_reducible repeat' first
  | exact Keeps.refl _
  | assumption
  | decide
  | refine count_keeps ?_ ?_
  | refine filterItem_keeps ?_ ?_
  | refine Keeps.ite ?_ ?_
  | (intro _ _)
  | split
  | dsimp only

theorem activate_keeps {mk : Nat} {sk : State} {s : State} (hk : Keeps mk sk s) (hm : 16384 &&& mk = 16384) :
    Keeps mk sk (activate s) := by
  suffices g : Keeps 16384 s (activate s) from hk.trans (g.weaken hm)
  unfold activate
  with_reducible repeat' first
  | exact Keeps.refl _
  | assumption
  | decide
  | (fail_if_no_progress refine Keeps.hed' ?_ _ rfl)
  | (intro _ _)
  | split
  | dsimp only

theorem hedRefuse_keeps {mk : Nat} {sk : State} {s : State} {detail : Nat} (hk : Keeps mk sk s) (hm : 7364608 &&& mk = 7364608) :
    Keeps mk sk (hedRefuse s detail) := by
  suffices g : Keeps 7364608 s (hedRefuse s detail) from hk.trans (g.weaken hm)
  unfold hedRefuse
  with_reducible repeat' first
  | exact Keeps.refl _
  | assumption
  | decide
  | refine event_keeps ?_ ?_
  | (fail_if_no_progress refine Keeps.hed' ?_ _ rfl)
  | (intro _ _)
  | split
  | dsimp only

theorem actHedCommit_keeps {mk : Nat} {sk : State} {s : State} (hk : Keeps mk sk s) (hm : 7364608 &&& mk = 7364608) :
    Keeps mk sk (actHedCommit s) := by
  suffices g : Keeps 7364608 s (actHedCommit s) from hk.trans (g.weaken hm)
  unfold actHedCommit
  with_reducible repeat' first
  | exact Keeps.refl _
  | assumption
  | decide
  | (extract_lets +onlyGivenNames s1; have h1 : Keeps 7364608 s s1 := (by unfold s1; repeat' first | exact Keeps.refl _ | assumption | decide | refine activate_keeps ?_ ?_ | refine event_keeps ?_ ?_ | refine hedRefuse_keeps ?_ ?_ | refine Keeps.ite ?_ ?_ | (fail_if_no_progress refine Keeps.hed' ?_ _ rfl) | (intro _ _) | split | dsimp only); clear_value s1)
  | (extract_lets +onlyGivenNames x1; clear_value x1)
  | refine activate_keeps ?_ ?_
  | refine event_keeps ?_ ?_
  | refine hedRefuse_keeps ?_ ?_
  | refine Keeps.ite ?_ ?_
  | (fail_if_no_progress refine Keeps.hed' ?_ _ rfl)
  | (intro _ _)
  | split
  | dsimp only

theorem execHedCommit_keeps {mk : Nat} {sk : State} {sess : Nat} {value : Nat} {s : State} (hk : Keeps mk sk s) (hm : 7626752 &&& mk = 7626752) :
    ∃ t', execHedCommit sess value s = .next t' ∧ Keeps mk sk t' := by
  suffices g : ∃ t', execHedCommit sess value s = .next t' ∧ Keeps 7626752 s t' from g.imp fun _ h => ⟨h.1, hk.trans (h.2.weaken hm)⟩
  refine ⟨_, rfl, ?_⟩
  with_reducible repeat' first
  | exact Keeps.refl _
  | assumption
  | decide
  | refine actHedCommit_keeps ?_ ?_
  | refine actWrite_keeps ?_ rfl (fun u hu => ?_) (fun u hu => ?_)
  | refine onOne_keeps ?_ (fun u hu => ?_)
  | simp only [id_eq]
  | (intro _ _)
  | split
  | dsimp only

theorem hedCommitComplete_keeps {mk : Nat} {sk : State} {s : State} (hk : Keeps mk sk s) (hm : 7364608 &&& mk = 7364608) :
    Keeps mk sk (hedCommitComplete s) := by
  suffices g : Keeps 7364608 s (hedCommitComplete s) from hk.trans (g.weaken hm)
  unfold hedCommitComplete
  with_reducible repeat' first
  | exact Keeps.refl _
  | assumption
  | decide
  | (extract_lets +onlyGivenNames s1; have h1 : Keeps 7364608 s s1 := (by unfold s1; repeat' first | exact Keeps.refl _ | assumption | decide | refine event_keeps ?_ ?_ | refine Keeps.ite ?_ ?_ | (fail_if_no_progress refine Keeps.hed' ?_ _ rfl) | (intro _ _) | split | dsimp only); clear_value s1)
  | (extract_lets +onlyGivenNames x1; clear_value x1)
  | refine event_keeps ?_ ?_
  | refine Keeps.ite ?_ ?_
  | (fail_if_no_progress refine Keeps.hed' ?_ _ rfl)
  | (intro _ _)
  | split
  | dsimp only

theorem execHedCommitComplete_keeps {mk : Nat} {sk : State} {s : State} (hk : Keeps mk sk s) (hm : 7364608 &&& mk = 7364608) :
    ∃ t', execHedCommitComplete s = .next t' ∧ Keeps mk sk t' := by
  suffices g : ∃ t', execHedCommitComplete s = .next t' ∧ Keeps 7364608 s t' from g.imp fun _ h => ⟨h.1, hk.trans (h.2.weaken hm)⟩
  refine ⟨_, rfl, ?_⟩
  with_reducible repeat' first
  | exact Keeps.refl _
  | assumption
  | decide
  | refine hedCommitComplete_keeps ?_ ?_
  | (intro _ _)
  | split
  | dsimp only

theorem debugAccess_keeps {mk : Nat} {sk : State} {write : Bool} {addr len : Nat} {s : State} (hk : Keeps mk sk s)
    (hm : 7364608 &&& mk = 7364608) : Keeps mk sk (debugAccess write addr len s) := by
  suffices g : Keeps 7364608 s (debugAccess write addr len s) from hk.trans (g.weaken hm)
  unfold debugAccess
  with_reducible refine Keeps.ite ?_ ?_
  · exact Keeps.refl _
  split
  · extract_lets s1
    have h1 : Keeps 7364608 s s1 := denied_keeps (Keeps.refl _) (by decide)
    clear_value s1
    with_reducible refine Keeps.ite ?_ ?_
    · exact h1
    · exact emit_keeps h1
  · exact Keeps.refl _
  · extract_lets s1
    have h1 : Keeps 7364608 s s1 := passed_keeps (Keeps.refl _) (by decide)
    clear_value s1
    with_reducible refine Keeps.ite ?_ ?_
    · exact h1
    · with_reducible refine Keeps.ite ?_ ?_
      · exact emit_keeps h1
      · with_reducible refine Keeps.ite ?_ ?_
        · exact emit_keeps (afterFree_keeps h1 (by decide))
        · exact emit_keeps h1

theorem execDebugAccess_keeps {mk : Nat} {sk : State} {write : Bool} {addr : Nat} {len : Nat} {s : State} (hk : Keeps mk sk s) (hm : 7364608 &&& mk = 7364608) :
    ∃ t', execDebugAccess write addr len s = .next t' ∧ Keeps mk sk t' := by
  suffices g : ∃ t', execDebugAccess write addr len s = .next t' ∧ Keeps 7364608 s t' from g.imp fun _ h => ⟨h.1, hk.trans (h.2.weaken hm)⟩
  refine ⟨_, rfl, ?_⟩
  with_reducible repeat' first
  | exact Keeps.refl _
  | assumption
  | decide
  | refine debugAccess_keeps ?_ ?_
  | (intro _ _)
  | split
  | dsimp only

/-! ### Reports -/

theorem postedFailure_keeps {mk : Nat} {sk : State} {s : State} {part : Nat} {func : Nat} {c : Nat} {mid : Nat} {window : Nat} {offset : Nat} {seq : Nat} {reason : Nat} (hk : Keeps mk sk s) (hm : 7368704 &&& mk = 7368704) :
    Keeps mk sk (postedFailure s part func c mid window offset seq reason) := by
  suffices g : Keeps 7368704 s (postedFailure s part func c mid window offset seq reason) from hk.trans (g.weaken hm)
  unfold postedFailure
  with_reducible repeat' first
  | exact Keeps.refl _
  | assumption
  | decide
  | (extract_lets +onlyGivenNames s1; have h1 : Keeps 7368704 s s1 := (by unfold s1; repeat' first | exact Keeps.refl _ | assumption | decide | refine count_keeps ?_ ?_ | refine eventFull_keeps ?_ ?_ | refine msi_keeps ?_ ?_ | refine Keeps.ite ?_ ?_ | (fail_if_no_progress refine Keeps.win' ?_ _ rfl) | (intro _ _) | split | dsimp only); clear_value s1)
  | (extract_lets +onlyGivenNames x1; clear_value x1)
  | refine count_keeps ?_ ?_
  | refine eventFull_keeps ?_ ?_
  | refine msi_keeps ?_ ?_
  | refine Keeps.ite ?_ ?_
  | (fail_if_no_progress refine Keeps.win' ?_ _ rfl)
  | (intro _ _)
  | split
  | dsimp only

theorem actPostfailClear_keeps {mk : Nat} {sk : State} {v : Nat} {s : State} (hk : Keeps mk sk s) (hm : 4096 &&& mk = 4096) :
    Keeps mk sk (actPostfailClear v s) := by
  suffices g : Keeps 4096 s (actPostfailClear v s) from hk.trans (g.weaken hm)
  unfold actPostfailClear
  with_reducible repeat' first
  | exact Keeps.refl _
  | assumption
  | decide
  | (fail_if_no_progress refine Keeps.win' ?_ _ rfl)
  | (intro _ _)
  | split
  | dsimp only

theorem execPostfailClear_keeps {mk : Nat} {sk : State} {sess : Nat} {v : Vs} {value : Nat} {s : State} (hk : Keeps mk sk s) (hm : 1314816 &&& mk = 1314816) :
    ∃ t', execPostfailClear sess v value s = .next t' ∧ Keeps mk sk t' := by
  suffices g : ∃ t', execPostfailClear sess v value s = .next t' ∧ Keeps 1314816 s t' from g.imp fun _ h => ⟨h.1, hk.trans (h.2.weaken hm)⟩
  refine ⟨_, rfl, ?_⟩
  with_reducible repeat' first
  | exact Keeps.refl _
  | assumption
  | decide
  | refine actPostfailClear_keeps ?_ ?_
  | refine actWrite_keeps ?_ rfl (fun u hu => ?_) (fun u hu => ?_)
  | refine onOne_keeps ?_ (fun u hu => ?_)
  | simp only [id_eq]
  | (intro _ _)
  | split
  | dsimp only

theorem dobbyDropped_keeps {mk : Nat} {sk : State} {s : State} {v : Nat} {reason : Nat} {w : Nat} {am : Nat} {addr : Nat} (hk : Keeps mk sk s) (hm : 7499776 &&& mk = 7499776) :
    Keeps mk sk (dobbyDropped s v reason w am addr) := by
  suffices g : Keeps 7499776 s (dobbyDropped s v reason w am addr) from hk.trans (g.weaken hm)
  unfold dobbyDropped
  with_reducible repeat' first
  | exact Keeps.refl _
  | assumption
  | decide
  | (extract_lets +onlyGivenNames s1; have h1 : Keeps 7499776 s s1 := (by unfold s1; repeat' first | exact Keeps.refl _ | assumption | decide | refine eventFull_keeps ?_ ?_ | refine msi_keeps ?_ ?_ | refine Keeps.ite ?_ ?_ | (fail_if_no_progress refine Keeps.win' ?_ _ rfl) | (fail_if_no_progress refine Keeps.dob' ?_ _ rfl) | (fail_if_no_progress (refine Keeps.several ?_ (by refine ⟨?_, ?_, ?_, ?_, ?_, ?_, ?_, ?_, ?_, ?_, ?_, ?_, ?_, ?_, ?_, ?_, ?_, ?_, ?_, ?_⟩ <;> first | exact Or.inl rfl | exact Or.inr rfl))) | (intro _ _) | split | dsimp only); clear_value s1)
  | (extract_lets +onlyGivenNames x1; clear_value x1)
  | refine eventFull_keeps ?_ ?_
  | refine msi_keeps ?_ ?_
  | refine Keeps.ite ?_ ?_
  | (fail_if_no_progress refine Keeps.win' ?_ _ rfl)
  | (fail_if_no_progress refine Keeps.dob' ?_ _ rfl)
  | (fail_if_no_progress (refine Keeps.several ?_ (by refine ⟨?_, ?_, ?_, ?_, ?_, ?_, ?_, ?_, ?_, ?_, ?_, ?_, ?_, ?_, ?_, ?_, ?_, ?_, ?_, ?_⟩ <;> first | exact Or.inl rfl | exact Or.inr rfl)))
  | (intro _ _)
  | split
  | dsimp only

theorem dobRaise_keeps {mk : Nat} {sk : State} {s : State} {level : Nat} {part : Nat} {ident : Nat} (hk : Keeps mk sk s) (hm : 131072 &&& mk = 131072) :
    Keeps mk sk (dobRaise s level part ident) := by
  suffices g : Keeps 131072 s (dobRaise s level part ident) from hk.trans (g.weaken hm)
  unfold dobRaise
  with_reducible repeat' first
  | exact Keeps.refl _
  | assumption
  | decide
  | (fail_if_no_progress refine Keeps.dob' ?_ _ rfl)
  | (intro _ _)
  | split
  | dsimp only

theorem inboundFailed_keeps {mk : Nat} {sk : State} {s : State} {w : Nat} {reason : Nat} {addr : Nat} (hk : Keeps mk sk s) (hm : 7499776 &&& mk = 7499776) :
    Keeps mk sk (inboundFailed s w reason addr) := by
  suffices g : Keeps 7499776 s (inboundFailed s w reason addr) from hk.trans (g.weaken hm)
  unfold inboundFailed
  with_reducible repeat' first
  | exact Keeps.refl _
  | assumption
  | decide
  | (extract_lets +onlyGivenNames s1; have h1 : Keeps 7499776 s s1 := (by unfold s1; repeat' first | exact Keeps.refl _ | assumption | decide | refine count_keeps ?_ ?_ | refine dobRaise_keeps ?_ ?_ | refine event_keeps ?_ ?_ | refine inBerr_keeps ?_ ?_ | refine Keeps.ite ?_ ?_ | refine Keeps.iteFst ?_ ?_ | (fail_if_no_progress refine Keeps.win' ?_ _ rfl) | (fail_if_no_progress refine Keeps.dob' ?_ _ rfl) | (fail_if_no_progress (refine Keeps.several ?_ (by refine ⟨?_, ?_, ?_, ?_, ?_, ?_, ?_, ?_, ?_, ?_, ?_, ?_, ?_, ?_, ?_, ?_, ?_, ?_, ?_, ?_⟩ <;> first | exact Or.inl rfl | exact Or.inr rfl))) | (intro _ _) | split | dsimp only); clear_value s1)
  | (extract_lets +onlyGivenNames x1; clear_value x1)
  | refine count_keeps ?_ ?_
  | refine dobRaise_keeps ?_ ?_
  | refine event_keeps ?_ ?_
  | refine inBerr_keeps ?_ ?_
  | refine Keeps.ite ?_ ?_
  | refine Keeps.iteFst ?_ ?_
  | (fail_if_no_progress refine Keeps.win' ?_ _ rfl)
  | (fail_if_no_progress refine Keeps.dob' ?_ _ rfl)
  | (fail_if_no_progress (refine Keeps.several ?_ (by refine ⟨?_, ?_, ?_, ?_, ?_, ?_, ?_, ?_, ?_, ?_, ?_, ?_, ?_, ?_, ?_, ?_, ?_, ?_, ?_, ?_⟩ <;> first | exact Or.inl rfl | exact Or.inr rfl)))
  | (intro _ _)
  | split
  | dsimp only

end Sys2Proof.Laws
end

