-- ==== Sys2Proof/Laws/KeepsLoom.lean ====
section
/-!
SUPPORT. What the functions keep, one lemma each: the loom, the warp ports, routing, windows, departures and what the shuttle accepts.
-/

namespace Sys2Proof.Laws

open Sys2Proof.Machine

set_option linter.all false

/-! ### Loom -/

theorem setChain_keeps {mk : Nat} {sk : State} {s : State} {c : Nat} {x : Chain} (hk : Keeps mk sk s) (hm : 512 &&& mk = 512) :
    Keeps mk sk (setChain s c x) := by
  suffices g : Keeps 512 s (setChain s c x) from hk.trans (g.weaken hm)
  unfold setChain
  with_reducible repeat' first
  | exact Keeps.refl _
  | assumption
  | decide
  | (fail_if_no_progress refine Keeps.loom' ?_ _ rfl)
  | (intro _ _)
  | split
  | dsimp only

theorem poolChanged_keeps {mk : Nat} {sk : State} {s : State} (hk : Keeps mk sk s) (hm : 7365120 &&& mk = 7365120) :
    Keeps mk sk (poolChanged s) := by
  suffices g : Keeps 7365120 s (poolChanged s) from hk.trans (g.weaken hm)
  unfold poolChanged
  with_reducible repeat' first
  | exact Keeps.refl _
  | assumption
  | decide
  | (extract_lets +onlyGivenNames s1; have h1 : Keeps 7365120 s s1 := (by unfold s1; repeat' first | exact Keeps.refl _ | assumption | decide | refine count_keeps ?_ ?_ | refine event_keeps ?_ ?_ | refine Keeps.ite ?_ ?_ | (fail_if_no_progress refine Keeps.loom' ?_ _ rfl) | (intro _ _) | split | dsimp only); clear_value s1)
  | (extract_lets +onlyGivenNames x1; clear_value x1)
  | refine count_keeps ?_ ?_
  | refine event_keeps ?_ ?_
  | refine Keeps.ite ?_ ?_
  | (fail_if_no_progress refine Keeps.loom' ?_ _ rfl)
  | (intro _ _)
  | split
  | dsimp only

theorem warpFreed_keeps {mk : Nat} {sk : State} {s : State} {p : Nat} {k : Nat} {n : Nat} (hk : Keeps mk sk s) (hm : 256 &&& mk = 256) :
    Keeps mk sk (warpFreed s p k n) := by
  suffices g : Keeps 256 s (warpFreed s p k n) from hk.trans (g.weaken hm)
  unfold warpFreed
  with_reducible repeat' first
  | exact Keeps.refl _
  | assumption
  | decide
  | (extract_lets +onlyGivenNames s1; have h1 : Keeps 256 s s1 := (by unfold s1; repeat' first | exact Keeps.refl _ | assumption | decide | refine setWarp_keeps ?_ ?_ | (intro _ _) | split | dsimp only); clear_value s1)
  | (extract_lets +onlyGivenNames x1; clear_value x1)
  | refine setWarp_keeps ?_ ?_
  | (intro _ _)
  | split
  | dsimp only

theorem returnCredit_keeps {mk : Nat} {sk : State} {s : State} {c : Chain} (hk : Keeps mk sk s) (hm : 384 &&& mk = 384) :
    Keeps mk sk (returnCredit s c) := by
  suffices g : Keeps 384 s (returnCredit s c) from hk.trans (g.weaken hm)
  unfold returnCredit
  with_reducible repeat' first
  | exact Keeps.refl _
  | assumption
  | decide
  | refine warpFreed_keeps ?_ ?_
  | refine weftRelease_keeps ?_ ?_
  | refine Keeps.ite ?_ ?_
  | (intro _ _)
  | split
  | dsimp only

theorem promote_keeps {mk : Nat} {sk : State} {s : State} {id : Nat} (hk : Keeps mk sk s) (hm : 7365504 &&& mk = 7365504) :
    Keeps mk sk (promote s id) := by
  suffices g : Keeps 7365504 s (promote s id) from hk.trans (g.weaken hm)
  unfold promote
  with_reducible repeat' first
  | exact Keeps.refl _
  | assumption
  | decide
  | (extract_lets +onlyGivenNames s1; have h1 : Keeps 7365504 s s1 := (by unfold s1; repeat' first | exact Keeps.refl _ | assumption | decide | refine count_keeps ?_ ?_ | refine event_keeps ?_ ?_ | refine poolChanged_keeps ?_ ?_ | refine returnCredit_keeps ?_ ?_ | refine setChain_keeps ?_ ?_ | refine Keeps.ite ?_ ?_ | simp only [id_eq] | (fail_if_no_progress refine Keeps.loom' ?_ _ rfl) | (intro _ _) | split | dsimp only); clear_value s1)
  | (extract_lets +onlyGivenNames x1; clear_value x1)
  | refine count_keeps ?_ ?_
  | refine event_keeps ?_ ?_
  | refine poolChanged_keeps ?_ ?_
  | refine returnCredit_keeps ?_ ?_
  | refine setChain_keeps ?_ ?_
  | refine Keeps.ite ?_ ?_
  | simp only [id_eq]
  | (fail_if_no_progress refine Keeps.loom' ?_ _ rfl)
  | (intro _ _)
  | split
  | dsimp only

theorem storeChain_keeps {mk : Nat} {sk : State} {s : State} {src : Nat} {size : Nat} {mcast : Bool} {credit : Option (Nat × Nat × Nat)} (hk : Keeps mk sk s) (hm : 7365504 &&& mk = 7365504) :
    Keeps mk sk (storeChain s src size mcast credit).1 := by
  suffices g : Keeps 7365504 s (storeChain s src size mcast credit).1 from hk.trans (g.weaken hm)
  unfold storeChain
  with_reducible repeat' first
  | exact Keeps.refl _
  | assumption
  | decide
  | (extract_lets +onlyGivenNames s1; have h1 : Keeps 7365504 s s1 := (by unfold s1; repeat' first | exact Keeps.refl _ | assumption | decide | refine poolChanged_keeps ?_ ?_ | refine promote_keeps ?_ ?_ | refine setChain_keeps ?_ ?_ | simp only [id_eq] | (fail_if_no_progress refine Keeps.loom' ?_ _ rfl) | (intro _ _) | split | dsimp only); clear_value s1)
  | (extract_lets +onlyGivenNames x1; clear_value x1)
  | refine poolChanged_keeps ?_ ?_
  | refine promote_keeps ?_ ?_
  | refine setChain_keeps ?_ ?_
  | simp only [id_eq]
  | (fail_if_no_progress refine Keeps.loom' ?_ _ rfl)
  | (intro _ _)
  | split
  | dsimp only

theorem freeChain_keeps {mk : Nat} {sk : State} {s : State} {id : Nat} (hk : Keeps mk sk s) (hm : 7365504 &&& mk = 7365504) :
    Keeps mk sk (freeChain s id) := by
  suffices g : Keeps 7365504 s (freeChain s id) from hk.trans (g.weaken hm)
  unfold freeChain
  with_reducible repeat' first
  | exact Keeps.refl _
  | assumption
  | decide
  | (extract_lets +onlyGivenNames s1; have h1 : Keeps 7365504 s s1 := (by unfold s1; repeat' first | exact Keeps.refl _ | assumption | decide | refine poolChanged_keeps ?_ ?_ | refine returnCredit_keeps ?_ ?_ | simp only [id_eq] | (fail_if_no_progress refine Keeps.loom' ?_ _ rfl) | (intro _ _) | split | dsimp only); clear_value s1)
  | (extract_lets +onlyGivenNames x1; clear_value x1)
  | refine poolChanged_keeps ?_ ?_
  | refine returnCredit_keeps ?_ ?_
  | simp only [id_eq]
  | (fail_if_no_progress refine Keeps.loom' ?_ _ rfl)
  | (intro _ _)
  | split
  | dsimp only

theorem dropRef_keeps {mk : Nat} {sk : State} {s : State} {id : Nat} (hk : Keeps mk sk s) (hm : 7365504 &&& mk = 7365504) :
    Keeps mk sk (dropRef s id) := by
  suffices g : Keeps 7365504 s (dropRef s id) from hk.trans (g.weaken hm)
  unfold dropRef
  with_reducible repeat' first
  | exact Keeps.refl _
  | assumption
  | decide
  | (extract_lets +onlyGivenNames s1; have h1 : Keeps 7365504 s s1 := (by unfold s1; repeat' first | exact Keeps.refl _ | assumption | decide | refine freeChain_keeps ?_ ?_ | refine poolChanged_keeps ?_ ?_ | refine returnCredit_keeps ?_ ?_ | refine setChain_keeps ?_ ?_ | refine Keeps.ite ?_ ?_ | simp only [id_eq] | (intro _ _) | split | dsimp only); clear_value s1)
  | (extract_lets +onlyGivenNames x1; clear_value x1)
  | refine freeChain_keeps ?_ ?_
  | refine poolChanged_keeps ?_ ?_
  | refine returnCredit_keeps ?_ ?_
  | refine setChain_keeps ?_ ?_
  | refine Keeps.ite ?_ ?_
  | simp only [id_eq]
  | (intro _ _)
  | split
  | dsimp only

theorem addRef_keeps {mk : Nat} {sk : State} {s : State} {id : Nat} (hk : Keeps mk sk s) (hm : 512 &&& mk = 512) :
    Keeps mk sk (addRef s id) := by
  suffices g : Keeps 512 s (addRef s id) from hk.trans (g.weaken hm)
  unfold addRef
  with_reducible repeat' first
  | exact Keeps.refl _
  | assumption
  | decide
  | refine setChain_keeps ?_ ?_
  | simp only [id_eq]
  | (intro _ _)
  | split
  | dsimp only

theorem eraseChain_keeps {mk : Nat} {sk : State} {s : State} {id : Nat} (hk : Keeps mk sk s) (hm : 512 &&& mk = 512) :
    Keeps mk sk (eraseChain s id) := by
  suffices g : Keeps 512 s (eraseChain s id) from hk.trans (g.weaken hm)
  unfold eraseChain
  with_reducible repeat' first
  | exact Keeps.refl _
  | assumption
  | decide
  | simp only [id_eq]
  | (fail_if_no_progress refine Keeps.loom' ?_ _ rfl)
  | (intro _ _)
  | split
  | dsimp only

theorem handOver_keeps {mk : Nat} {sk : State} {s : State} {chain : Option Nat} {k : Nat} (hk : Keeps mk sk s) (hm : 7365504 &&& mk = 7365504) :
    Keeps mk sk (handOver s chain k) := by
  suffices g : Keeps 7365504 s (handOver s chain k) from hk.trans (g.weaken hm)
  unfold handOver
  with_reducible repeat' first
  | exact Keeps.refl _
  | assumption
  | decide
  | refine eraseChain_keeps ?_ ?_
  | refine freeChain_keeps ?_ ?_
  | refine promote_keeps ?_ ?_
  | refine setChain_keeps ?_ ?_
  | (intro _ _)
  | split
  | dsimp only

theorem setQueue_keeps {mk : Nat} {sk : State} {s : State} {d : Nat} {q : List LoomItem} (hk : Keeps mk sk s) (hm : 512 &&& mk = 512) :
    Keeps mk sk (setQueue s d q) := by
  suffices g : Keeps 512 s (setQueue s d q) from hk.trans (g.weaken hm)
  unfold setQueue
  with_reducible repeat' first
  | exact Keeps.refl _
  | assumption
  | decide
  | (fail_if_no_progress refine Keeps.loom' ?_ _ rfl)
  | (intro _ _)
  | split
  | dsimp only

theorem setConn_keeps {mk : Nat} {sk : State} {s : State} {c : Nat} {x : Conn} (hk : Keeps mk sk s) (hm : 2048 &&& mk = 2048) :
    Keeps mk sk (setConn s c x) := by
  suffices g : Keeps 2048 s (setConn s c x) from hk.trans (g.weaken hm)
  unfold setConn
  with_reducible repeat' first
  | exact Keeps.refl _
  | assumption
  | decide
  | (fail_if_no_progress refine Keeps.shu' ?_ _ rfl)
  | (intro _ _)
  | split
  | dsimp only

theorem beamStore_keeps {mk : Nat} {sk : State} {s : State} {units : List Nat} {bs : List Byte} (hk : Keeps mk sk s) (hm : 4194304 &&& mk = 4194304) :
    Keeps mk sk (beamStore s units bs) := by
  suffices g : Keeps 4194304 s (beamStore s units bs) from hk.trans (g.weaken hm)
  unfold beamStore
  with_reducible repeat' first
  | exact Keeps.refl _
  | assumption
  | decide
  | refine beamPut_keeps ?_ ?_
  | refine Keeps.foldl ?_ _ (fun u a hu => ?_)
  | refine Keeps.foldlFst ?_ _ (fun u a hu => ?_)
  | (intro _ _)
  | split
  | dsimp only

theorem spillLimit_keeps {mk : Nat} {sk : State} {s : State} {d : Nat} {tc : Nat} (hk : Keeps mk sk s) (hm : 7365120 &&& mk = 7365120) :
    Keeps mk sk (spillLimit s d tc) := by
  suffices g : Keeps 7365120 s (spillLimit s d tc) from hk.trans (g.weaken hm)
  unfold spillLimit
  with_reducible repeat' first
  | exact Keeps.refl _
  | assumption
  | decide
  | refine event_keeps ?_ ?_
  | refine Keeps.ite ?_ ?_
  | (fail_if_no_progress refine Keeps.loom' ?_ _ rfl)
  | (intro _ _)
  | split
  | dsimp only

theorem pushItem_keeps {mk : Nat} {sk : State} {s : State} {d : Nat} {i : LoomItem} (hk : Keeps mk sk s) (hm : 7365120 &&& mk = 7365120) :
    Keeps mk sk (pushItem s d i) := by
  suffices g : Keeps 7365120 s (pushItem s d i) from hk.trans (g.weaken hm)
  unfold pushItem
  with_reducible repeat' first
  | exact Keeps.refl _
  | assumption
  | decide
  | (extract_lets +onlyGivenNames s1; have h1 : Keeps 7365120 s s1 := (by unfold s1; repeat' first | exact Keeps.refl _ | assumption | decide | refine beamTake_keeps ?_ ?_ | refine count_keeps ?_ ?_ | refine setQueue_keeps ?_ ?_ | refine spillLimit_keeps ?_ ?_ | refine Keeps.ite ?_ ?_ | simp only [id_eq] | (fail_if_no_progress refine Keeps.loom' ?_ _ rfl) | (intro _ _) | split | dsimp only); clear_value s1)
  | (extract_lets +onlyGivenNames x1; clear_value x1)
  | refine beamTake_keeps ?_ ?_
  | refine count_keeps ?_ ?_
  | refine setQueue_keeps ?_ ?_
  | refine spillLimit_keeps ?_ ?_
  | refine Keeps.ite ?_ ?_
  | simp only [id_eq]
  | (fail_if_no_progress refine Keeps.loom' ?_ _ rfl)
  | (intro _ _)
  | split
  | dsimp only

theorem withItem_keeps {mk : Nat} {sk : State} {s : State} {d : Nat} {id : Nat} {f : LoomItem → LoomItem} (hk : Keeps mk sk s) (hm : 512 &&& mk = 512) :
    Keeps mk sk (withItem s d id f) := by
  suffices g : Keeps 512 s (withItem s d id f) from hk.trans (g.weaken hm)
  unfold withItem
  with_reducible repeat' first
  | exact Keeps.refl _
  | assumption
  | decide
  | refine setQueue_keeps ?_ ?_
  | refine Keeps.ite ?_ ?_
  | simp only [id_eq]
  | (intro _ _)
  | split
  | dsimp only

theorem spillWriteDone_keeps {mk : Nat} {sk : State} {s : State} (hk : Keeps mk sk s) (hm : 7365504 &&& mk = 7365504) :
    Keeps mk sk (spillWriteDone s) := by
  suffices g : Keeps 7365504 s (spillWriteDone s) from hk.trans (g.weaken hm)
  unfold spillWriteDone
  with_reducible repeat' first
  | exact Keeps.refl _
  | assumption
  | decide
  | (extract_lets +onlyGivenNames s1; have h1 : Keeps 7365504 s s1 := (by unfold s1; repeat' first | exact Keeps.refl _ | assumption | decide | refine beamStore_keeps ?_ ?_ | refine dropRef_keeps ?_ ?_ | refine withItem_keeps ?_ ?_ | (intro _ _) | split | dsimp only); clear_value s1)
  | (extract_lets +onlyGivenNames x1; clear_value x1)
  | refine beamStore_keeps ?_ ?_
  | refine dropRef_keeps ?_ ?_
  | refine withItem_keeps ?_ ?_
  | (intro _ _)
  | split
  | dsimp only

theorem execSpillWriteDone_keeps {mk : Nat} {sk : State} {s : State} (hk : Keeps mk sk s) (hm : 7365504 &&& mk = 7365504) :
    ∃ t', execSpillWriteDone s = .next t' ∧ Keeps mk sk t' := by
  suffices g : ∃ t', execSpillWriteDone s = .next t' ∧ Keeps 7365504 s t' from g.imp fun _ h => ⟨h.1, hk.trans (h.2.weaken hm)⟩
  refine ⟨_, rfl, ?_⟩
  with_reducible repeat' first
  | exact Keeps.refl _
  | assumption
  | decide
  | refine spillWriteDone_keeps ?_ ?_
  | (intro _ _)
  | split
  | dsimp only

theorem enqueueTlp_keeps {mk : Nat} {sk : State} {s : State} {d : Nat} {src : Nat} {o : Origin} {t : Tlp} {epoch : Nat} {ord : Nat} (hk : Keeps mk sk s) (hm : 7365504 &&& mk = 7365504) :
    Keeps mk sk (enqueueTlp s d src o t epoch ord).1 := by
  suffices g : Keeps 7365504 s (enqueueTlp s d src o t epoch ord).1 from hk.trans (g.weaken hm)
  unfold enqueueTlp
  with_reducible repeat' first
  | exact Keeps.refl _
  | assumption
  | decide
  | (extract_lets +onlyGivenNames q1; have hq1 : Keeps 7365504 s q1.1 := (by unfold q1; repeat' first | exact Keeps.refl _ | assumption | decide | refine filterItem_keeps ?_ ?_ | refine pushItem_keeps ?_ ?_ | refine storeChain_keeps ?_ ?_ | simp only [id_eq] | refine Keeps.ofPair (by assumption) ?_ | (intro _ _) | split | dsimp only); clear_value q1)
  | (extract_lets +onlyGivenNames s1; have h1 : Keeps 7365504 s s1 := (by unfold s1; repeat' first | exact Keeps.refl _ | assumption | decide | refine filterItem_keeps ?_ ?_ | refine pushItem_keeps ?_ ?_ | refine storeChain_keeps ?_ ?_ | simp only [id_eq] | refine Keeps.ofPair (by assumption) ?_ | (intro _ _) | split | dsimp only); clear_value s1)
  | (extract_lets +onlyGivenNames x1; clear_value x1)
  | refine filterItem_keeps ?_ ?_
  | refine pushItem_keeps ?_ ?_
  | refine storeChain_keeps ?_ ?_
  | simp only [id_eq]
  | refine Keeps.ofPair (by assumption) ?_
  | (intro _ _)
  | split
  | dsimp only

theorem drawMark_keeps {mk : Nat} {sk : State} {s : State} {d : Nat} {tc : Nat} (hk : Keeps mk sk s) (hm : 1048576 &&& mk = 1048576) :
    Keeps mk sk (drawMark s d tc).1 := by
  suffices g : Keeps 1048576 s (drawMark s d tc).1 from hk.trans (g.weaken hm)
  unfold drawMark
  with_reducible repeat' first
  | exact Keeps.refl _
  | assumption
  | decide
  | (extract_lets +onlyGivenNames s1; have h1 : Keeps 1048576 s s1 := (by unfold s1; repeat' first | exact Keeps.refl _ | assumption | decide | refine afterFree_keeps ?_ ?_ | refine count_keeps ?_ ?_ | refine Keeps.ite ?_ ?_ | refine Keeps.iteFst ?_ ?_ | (intro _ _) | split | dsimp only); clear_value s1)
  | (extract_lets +onlyGivenNames x1; clear_value x1)
  | refine afterFree_keeps ?_ ?_
  | refine count_keeps ?_ ?_
  | refine Keeps.ite ?_ ?_
  | refine Keeps.iteFst ?_ ?_
  | (intro _ _)
  | split
  | dsimp only

theorem enqueueOper_keeps {mk : Nat} {sk : State} {s : State} {d : Nat} {src : Nat} {chain : Nat} {bytes : Nat} {o : WireOp} {own : Option (Nat × Nat)} (hk : Keeps mk sk s) (hm : 7365120 &&& mk = 7365120) :
    Keeps mk sk (enqueueOper s d src chain bytes o own) := by
  suffices g : Keeps 7365120 s (enqueueOper s d src chain bytes o own) from hk.trans (g.weaken hm)
  unfold enqueueOper
  with_reducible repeat' first
  | exact Keeps.refl _
  | assumption
  | decide
  | (extract_lets +onlyGivenNames q1; have hq1 : Keeps 7365120 s q1.1 := (by unfold q1; repeat' first | exact Keeps.refl _ | assumption | decide | refine drawMark_keeps ?_ ?_ | refine filterItem_keeps ?_ ?_ | refine pushItem_keeps ?_ ?_ | (intro _ _) | split | dsimp only); clear_value q1)
  | (extract_lets +onlyGivenNames s1; have h1 : Keeps 7365120 s s1 := (by unfold s1; repeat' first | exact Keeps.refl _ | assumption | decide | refine drawMark_keeps ?_ ?_ | refine filterItem_keeps ?_ ?_ | refine pushItem_keeps ?_ ?_ | (intro _ _) | split | dsimp only); clear_value s1)
  | (extract_lets +onlyGivenNames x1; clear_value x1)
  | refine drawMark_keeps ?_ ?_
  | refine filterItem_keeps ?_ ?_
  | refine pushItem_keeps ?_ ?_
  | (intro _ _)
  | split
  | dsimp only

theorem enqueueCopy_keeps {mk : Nat} {sk : State} {s : State} {d : Nat} {bytes : Nat} {l : Nat} {cid : Nat} {o : WireOp} (hk : Keeps mk sk s) (hm : 7365120 &&& mk = 7365120) :
    Keeps mk sk (enqueueCopy s d bytes l cid o) := by
  suffices g : Keeps 7365120 s (enqueueCopy s d bytes l cid o) from hk.trans (g.weaken hm)
  unfold enqueueCopy
  with_reducible repeat' first
  | exact Keeps.refl _
  | assumption
  | decide
  | (extract_lets +onlyGivenNames q1; have hq1 : Keeps 7365120 s q1.1 := (by unfold q1; repeat' first | exact Keeps.refl _ | assumption | decide | refine drawMark_keeps ?_ ?_ | refine filterItem_keeps ?_ ?_ | refine pushItem_keeps ?_ ?_ | (intro _ _) | split | dsimp only); clear_value q1)
  | (extract_lets +onlyGivenNames s1; have h1 : Keeps 7365120 s s1 := (by unfold s1; repeat' first | exact Keeps.refl _ | assumption | decide | refine drawMark_keeps ?_ ?_ | refine filterItem_keeps ?_ ?_ | refine pushItem_keeps ?_ ?_ | (intro _ _) | split | dsimp only); clear_value s1)
  | (extract_lets +onlyGivenNames x1; clear_value x1)
  | refine drawMark_keeps ?_ ?_
  | refine filterItem_keeps ?_ ?_
  | refine pushItem_keeps ?_ ?_
  | (intro _ _)
  | split
  | dsimp only

theorem winDrain_keeps {mk : Nat} {sk : State} {s : State} {w : Nat} (hk : Keeps mk sk s) (hm : 4096 &&& mk = 4096) :
    Keeps mk sk (winDrain s w) := by
  suffices g : Keeps 4096 s (winDrain s w) from hk.trans (g.weaken hm)
  unfold winDrain
  with_reducible repeat' first
  | exact Keeps.refl _
  | assumption
  | decide
  | (fail_if_no_progress refine Keeps.win' ?_ _ rfl)
  | (intro _ _)
  | split
  | dsimp only

theorem writeDone_keeps {mk : Nat} {sk : State} {s : State} {u : Unseen} {late : Bool} (hk : Keeps mk sk s) (hm : 6144 &&& mk = 6144) :
    Keeps mk sk (writeDone s u late) := by
  suffices g : Keeps 6144 s (writeDone s u late) from hk.trans (g.weaken hm)
  unfold writeDone
  with_reducible repeat' first
  | exact Keeps.refl _
  | assumption
  | decide
  | (extract_lets +onlyGivenNames s1; have h1 : Keeps 6144 s s1 := (by unfold s1; repeat' first | exact Keeps.refl _ | assumption | decide | refine setConn_keeps ?_ ?_ | refine winDrain_keeps ?_ ?_ | refine Keeps.ite ?_ ?_ | (fail_if_no_progress refine Keeps.shu' ?_ _ rfl) | (fail_if_no_progress refine Keeps.win' ?_ _ rfl) | (fail_if_no_progress (refine Keeps.several ?_ (by refine ⟨?_, ?_, ?_, ?_, ?_, ?_, ?_, ?_, ?_, ?_, ?_, ?_, ?_, ?_, ?_, ?_, ?_, ?_, ?_, ?_⟩ <;> first | exact Or.inl rfl | exact Or.inr rfl))) | (intro _ _) | split | dsimp only); clear_value s1)
  | (extract_lets +onlyGivenNames x1; clear_value x1)
  | refine setConn_keeps ?_ ?_
  | refine winDrain_keeps ?_ ?_
  | refine Keeps.ite ?_ ?_
  | (fail_if_no_progress refine Keeps.shu' ?_ _ rfl)
  | (fail_if_no_progress refine Keeps.win' ?_ _ rfl)
  | (fail_if_no_progress (refine Keeps.several ?_ (by refine ⟨?_, ?_, ?_, ?_, ?_, ?_, ?_, ?_, ?_, ?_, ?_, ?_, ?_, ?_, ?_, ?_, ?_, ?_, ?_, ?_⟩ <;> first | exact Or.inl rfl | exact Or.inr rfl)))
  | (intro _ _)
  | split
  | dsimp only

theorem cacheAnswer_keeps {mk : Nat} {sk : State} {s : State} {w : Nat} {cid : Nat} {seq : Nat} {status : Nat} {data : List Byte} (hk : Keeps mk sk s) (hm : 7371648 &&& mk = 7371648) :
    Keeps mk sk (cacheAnswer s w cid seq status data) := by
  suffices g : Keeps 7371648 s (cacheAnswer s w cid seq status data) from hk.trans (g.weaken hm)
  unfold cacheAnswer
  with_reducible repeat' first
  | exact Keeps.refl _
  | assumption
  | decide
  | (extract_lets +onlyGivenNames s1; have h1 : Keeps 7371648 s s1 := (by unfold s1; repeat' first | exact Keeps.refl _ | assumption | decide | refine answer_keeps ?_ ?_ | refine Keeps.ite ?_ ?_ | (fail_if_no_progress refine Keeps.win' ?_ _ rfl) | (intro _ _) | split | dsimp only); clear_value s1)
  | (extract_lets +onlyGivenNames x1; clear_value x1)
  | refine answer_keeps ?_ ?_
  | refine Keeps.ite ?_ ?_
  | (fail_if_no_progress refine Keeps.win' ?_ _ rfl)
  | (intro _ _)
  | split
  | dsimp only

theorem presentCompletion_keeps {mk : Nat} {sk : State} {s : State} {cid : Nat} {seq : Nat} {tag : Nat} {status : Nat} {offset : Nat} {data : List Byte} (hk : Keeps mk sk s) (hm : 2048 &&& mk = 2048) :
    Keeps mk sk (presentCompletion s cid seq tag status offset data) := by
  suffices g : Keeps 2048 s (presentCompletion s cid seq tag status offset data) from hk.trans (g.weaken hm)
  unfold presentCompletion
  with_reducible repeat' first
  | exact Keeps.refl _
  | assumption
  | decide
  | (extract_lets +onlyGivenNames s1; have h1 : Keeps 2048 s s1 := (by unfold s1; repeat' first | exact Keeps.refl _ | assumption | decide | (fail_if_no_progress refine Keeps.shu' ?_ _ rfl) | (intro _ _) | split | dsimp only); clear_value s1)
  | (extract_lets +onlyGivenNames x1; clear_value x1)
  | (fail_if_no_progress refine Keeps.shu' ?_ _ rfl)
  | (intro _ _)
  | split
  | dsimp only

theorem presentTunnel_keeps {mk : Nat} {sk : State} {s : State} {cid : Nat} {src : Nat} {ask : Option Origin} {t : Tlp} (hk : Keeps mk sk s) (hm : 2048 &&& mk = 2048) :
    Keeps mk sk (presentTunnel s cid src ask t) := by
  suffices g : Keeps 2048 s (presentTunnel s cid src ask t) from hk.trans (g.weaken hm)
  unfold presentTunnel
  with_reducible repeat' first
  | exact Keeps.refl _
  | assumption
  | decide
  | (extract_lets +onlyGivenNames s1; have h1 : Keeps 2048 s s1 := (by unfold s1; repeat' first | exact Keeps.refl _ | assumption | decide | refine Keeps.ite ?_ ?_ | refine Keeps.iteFst ?_ ?_ | (fail_if_no_progress refine Keeps.shu' ?_ _ rfl) | (intro _ _) | split | dsimp only); clear_value s1)
  | (extract_lets +onlyGivenNames x1; clear_value x1)
  | refine Keeps.ite ?_ ?_
  | refine Keeps.iteFst ?_ ?_
  | (fail_if_no_progress refine Keeps.shu' ?_ _ rfl)
  | (intro _ _)
  | split
  | dsimp only

theorem answer_keeps {mk : Nat} {sk : State} {s : State} {src : Nat} {o : Origin} {q : Tlp} {completer : Nat} {status : Nat} {ep : Bool} {data : List Byte} (hk : Keeps mk sk s) (hm : 7371648 &&& mk = 7371648) :
    Keeps mk sk (answer s src o q completer status ep data) := by
  suffices g : Keeps 7371648 s (answer s src o q completer status ep data) from hk.trans (g.weaken hm)
  unfold answer
  with_reducible repeat' first
  | exact Keeps.refl _
  | assumption
  | decide
  | (extract_lets +onlyGivenNames q1; have hq1 : Keeps 7371648 s q1.1 := (by unfold q1; repeat' first | exact Keeps.refl _ | assumption | decide | refine cacheAnswer_keeps ?_ ?_ | refine discardCompletion_keeps ?_ ?_ | refine enqueueTlp_keeps ?_ ?_ | refine eventFull_keeps ?_ ?_ | refine presentCompletion_keeps ?_ ?_ | refine presentTunnel_keeps ?_ ?_ | refine winDrain_keeps ?_ ?_ | refine Keeps.ite ?_ ?_ | refine Keeps.iteFst ?_ ?_ | (fail_if_no_progress refine Keeps.eng' ?_ _ rfl) | (intro _ _) | split | dsimp only); clear_value q1)
  | (extract_lets +onlyGivenNames s1; have h1 : Keeps 7371648 s s1 := (by unfold s1; repeat' first | exact Keeps.refl _ | assumption | decide | refine cacheAnswer_keeps ?_ ?_ | refine discardCompletion_keeps ?_ ?_ | refine enqueueTlp_keeps ?_ ?_ | refine eventFull_keeps ?_ ?_ | refine presentCompletion_keeps ?_ ?_ | refine presentTunnel_keeps ?_ ?_ | refine winDrain_keeps ?_ ?_ | refine Keeps.ite ?_ ?_ | refine Keeps.iteFst ?_ ?_ | (fail_if_no_progress refine Keeps.eng' ?_ _ rfl) | (intro _ _) | split | dsimp only); clear_value s1)
  | (extract_lets +onlyGivenNames x1; clear_value x1)
  | refine cacheAnswer_keeps ?_ ?_
  | refine discardCompletion_keeps ?_ ?_
  | refine enqueueTlp_keeps ?_ ?_
  | refine eventFull_keeps ?_ ?_
  | refine presentCompletion_keeps ?_ ?_
  | refine presentTunnel_keeps ?_ ?_
  | refine winDrain_keeps ?_ ?_
  | refine Keeps.ite ?_ ?_
  | refine Keeps.iteFst ?_ ?_
  | (fail_if_no_progress refine Keeps.eng' ?_ _ rfl)
  | (intro _ _)
  | split
  | dsimp only

theorem itemLost_keeps {mk : Nat} {sk : State} {s : State} {i : LoomItem} (hk : Keeps mk sk s) (hm : 7502720 &&& mk = 7502720) :
    Keeps mk sk (itemLost s i) := by
  suffices g : Keeps 7502720 s (itemLost s i) from hk.trans (g.weaken hm)
  unfold itemLost
  with_reducible repeat' first
  | exact Keeps.refl _
  | assumption
  | decide
  | refine answer_keeps ?_ ?_
  | refine inboundFailed_keeps ?_ ?_
  | refine writeDone_keeps ?_ ?_
  | refine Keeps.ite ?_ ?_
  | (intro _ _)
  | split
  | dsimp only

theorem requestGone_keeps {mk : Nat} {sk : State} {s : State} {i : LoomItem} (hk : Keeps mk sk s) (hm : 6144 &&& mk = 6144) :
    Keeps mk sk (requestGone s i) := by
  suffices g : Keeps 6144 s (requestGone s i) from hk.trans (g.weaken hm)
  unfold requestGone
  with_reducible repeat' first
  | exact Keeps.refl _
  | assumption
  | decide
  | refine writeDone_keeps ?_ ?_
  | (intro _ _)
  | split
  | dsimp only

theorem releaseItem_keeps {mk : Nat} {sk : State} {s : State} {i : LoomItem} (hk : Keeps mk sk s) (hm : 7365504 &&& mk = 7365504) :
    Keeps mk sk (releaseItem s i) := by
  suffices g : Keeps 7365504 s (releaseItem s i) from hk.trans (g.weaken hm)
  unfold releaseItem
  with_reducible repeat' first
  | exact Keeps.refl _
  | assumption
  | decide
  | (extract_lets +onlyGivenNames s1; have h1 : Keeps 7365504 s s1 := (by unfold s1; repeat' first | exact Keeps.refl _ | assumption | decide | refine dropRef_keeps ?_ ?_ | (fail_if_no_progress refine Keeps.loom' ?_ _ rfl) | (intro _ _) | split | dsimp only); clear_value s1)
  | (extract_lets +onlyGivenNames x1; clear_value x1)
  | refine dropRef_keeps ?_ ?_
  | (fail_if_no_progress refine Keeps.loom' ?_ _ rfl)
  | (intro _ _)
  | split
  | dsimp only

theorem removeItem_keeps {mk : Nat} {sk : State} {s : State} {d : Nat} {id : Nat} (hk : Keeps mk sk s) (hm : 512 &&& mk = 512) :
    Keeps mk sk (removeItem s d id) := by
  suffices g : Keeps 512 s (removeItem s d id) from hk.trans (g.weaken hm)
  unfold removeItem
  with_reducible repeat' first
  | exact Keeps.refl _
  | assumption
  | decide
  | refine setQueue_keeps ?_ ?_
  | simp only [id_eq]
  | (intro _ _)
  | split
  | dsimp only

theorem ageOut_keeps {mk : Nat} {sk : State} {s : State} {d : Nat} {i : LoomItem} (hk : Keeps mk sk s) (hm : 7502720 &&& mk = 7502720) :
    Keeps mk sk (ageOut s d i) := by
  suffices g : Keeps 7502720 s (ageOut s d i) from hk.trans (g.weaken hm)
  unfold ageOut
  with_reducible repeat' first
  | exact Keeps.refl _
  | assumption
  | decide
  | (extract_lets +onlyGivenNames s1; have h1 : Keeps 7502720 s s1 := (by unfold s1; repeat' first | exact Keeps.refl _ | assumption | decide | refine answer_keeps ?_ ?_ | refine count_keeps ?_ ?_ | refine event_keeps ?_ ?_ | refine itemLost_keeps ?_ ?_ | refine rateEvent_keeps ?_ rfl (fun u a hu => ?_) | refine releaseItem_keeps ?_ ?_ | refine removeItem_keeps ?_ ?_ | refine requestGone_keeps ?_ ?_ | refine Keeps.ite ?_ ?_ | (intro _ _) | split | dsimp only); clear_value s1)
  | (extract_lets +onlyGivenNames x1; clear_value x1)
  | refine answer_keeps ?_ ?_
  | refine count_keeps ?_ ?_
  | refine event_keeps ?_ ?_
  | refine itemLost_keeps ?_ ?_
  | refine rateEvent_keeps ?_ rfl (fun u a hu => ?_)
  | refine releaseItem_keeps ?_ ?_
  | refine removeItem_keeps ?_ ?_
  | refine requestGone_keeps ?_ ?_
  | refine Keeps.ite ?_ ?_
  | (intro _ _)
  | split
  | dsimp only

theorem sweepQueue_keeps {mk : Nat} {sk : State}  {k : Nat} {d : Nat} {s : State} (hk : Keeps mk sk s) (hm : 7502720 &&& mk = 7502720) :
    Keeps mk sk (sweepQueue k d s) := by
  have aux : ∀ (k : Nat) (d : Nat) (u t : State), Keeps 7502720 u t → Keeps 7502720 u (sweepQueue k d t) := by
    intro k
    induction k with
    | zero => intro d u t h0; unfold sweepQueue; exact h0
    | succ n ih =>
      intro d u t h0
      unfold sweepQueue
      with_reducible repeat' first
        | with_reducible exact Keeps.refl _
        | with_reducible assumption
        | decide
        | (extract_lets +onlyGivenNames q1; have hq1 : Keeps 7502720 u q1.1 := (by unfold q1; repeat' first | with_reducible exact Keeps.refl _ | with_reducible assumption | decide | with_reducible refine ih _ _ _ ?_ | refine ageOut_keeps ?_ ?_ | (intro _ _) | split | dsimp only); clear_value q1)
        | (extract_lets +onlyGivenNames s1; have h1 : Keeps 7502720 u s1 := (by unfold s1; repeat' first | with_reducible exact Keeps.refl _ | with_reducible assumption | decide | with_reducible refine ih _ _ _ ?_ | refine ageOut_keeps ?_ ?_ | (intro _ _) | split | dsimp only); clear_value s1)
        | (extract_lets +onlyGivenNames x1; clear_value x1)
        | with_reducible refine ih _ _ _ ?_
        | refine ageOut_keeps ?_ ?_
        | (intro _ _)
        | split
        | dsimp only
  exact hk.trans ((aux k d s s (Keeps.refl s)).weaken hm)

theorem ageSweep_keeps {mk : Nat} {sk : State} {s : State} (hk : Keeps mk sk s) (hm : 7502720 &&& mk = 7502720) :
    Keeps mk sk (ageSweep s) := by
  suffices g : Keeps 7502720 s (ageSweep s) from hk.trans (g.weaken hm)
  unfold ageSweep
  with_reducible repeat' first
  | exact Keeps.refl _
  | assumption
  | decide
  | (extract_lets +onlyGivenNames q1; have hq1 : Keeps 7502720 s q1.1 := (by unfold q1; repeat' first | exact Keeps.refl _ | assumption | decide | refine sweepQueue_keeps ?_ ?_ | refine Keeps.ite ?_ ?_ | refine Keeps.foldl ?_ _ (fun u a hu => ?_) | refine Keeps.foldlFst ?_ _ (fun u a hu => ?_) | (fail_if_no_progress refine Keeps.loom' ?_ _ rfl) | (intro _ _) | split | dsimp only); clear_value q1)
  | (extract_lets +onlyGivenNames s1; have h1 : Keeps 7502720 s s1 := (by unfold s1; repeat' first | exact Keeps.refl _ | assumption | decide | refine sweepQueue_keeps ?_ ?_ | refine Keeps.ite ?_ ?_ | refine Keeps.foldl ?_ _ (fun u a hu => ?_) | refine Keeps.foldlFst ?_ _ (fun u a hu => ?_) | (fail_if_no_progress refine Keeps.loom' ?_ _ rfl) | (intro _ _) | split | dsimp only); clear_value s1)
  | (extract_lets +onlyGivenNames x1; clear_value x1)
  | refine sweepQueue_keeps ?_ ?_
  | refine Keeps.ite ?_ ?_
  | refine Keeps.foldl ?_ _ (fun u a hu => ?_)
  | refine Keeps.foldlFst ?_ _ (fun u a hu => ?_)
  | (fail_if_no_progress refine Keeps.loom' ?_ _ rfl)
  | (intro _ _)
  | split
  | dsimp only

theorem sharedPromotion_keeps {mk : Nat} {sk : State} {src : Nat} {s : State} (hk : Keeps mk sk s) (hm : 7365504 &&& mk = 7365504) :
    Keeps mk sk (sharedPromotion src s) := by
  suffices g : Keeps 7365504 s (sharedPromotion src s) from hk.trans (g.weaken hm)
  unfold sharedPromotion
  with_reducible repeat' first
  | exact Keeps.refl _
  | assumption
  | decide
  | refine promote_keeps ?_ ?_
  | refine Keeps.foldl ?_ _ (fun u a hu => ?_)
  | refine Keeps.foldlFst ?_ _ (fun u a hu => ?_)
  | (intro _ _)
  | split
  | dsimp only

theorem execSharedPromotion_keeps {mk : Nat} {sk : State} {src : Dest} {s : State} (hk : Keeps mk sk s) (hm : 7365504 &&& mk = 7365504) :
    ∃ t', execSharedPromotion src s = .next t' ∧ Keeps mk sk t' := by
  suffices g : ∃ t', execSharedPromotion src s = .next t' ∧ Keeps 7365504 s t' from g.imp fun _ h => ⟨h.1, hk.trans (h.2.weaken hm)⟩
  refine ⟨_, rfl, ?_⟩
  with_reducible repeat' first
  | exact Keeps.refl _
  | assumption
  | decide
  | refine sharedPromotion_keeps ?_ ?_
  | (intro _ _)
  | split
  | dsimp only

theorem sharedPoolExhausted_keeps {mk : Nat} {sk : State} {s : State} (hk : Keeps mk sk s) (hm : 7365120 &&& mk = 7365120) :
    Keeps mk sk (sharedPoolExhausted s) := by
  suffices g : Keeps 7365120 s (sharedPoolExhausted s) from hk.trans (g.weaken hm)
  unfold sharedPoolExhausted
  with_reducible repeat' first
  | exact Keeps.refl _
  | assumption
  | decide
  | refine count_keeps ?_ ?_
  | refine event_keeps ?_ ?_
  | refine Keeps.ite ?_ ?_
  | (fail_if_no_progress refine Keeps.loom' ?_ _ rfl)
  | (intro _ _)
  | split
  | dsimp only

theorem execSharedPoolExhausted_keeps {mk : Nat} {sk : State} {s : State} (hk : Keeps mk sk s) (hm : 7365120 &&& mk = 7365120) :
    ∃ t', execSharedPoolExhausted s = .next t' ∧ Keeps mk sk t' := by
  suffices g : ∃ t', execSharedPoolExhausted s = .next t' ∧ Keeps 7365120 s t' from g.imp fun _ h => ⟨h.1, hk.trans (h.2.weaken hm)⟩
  refine ⟨_, rfl, ?_⟩
  with_reducible repeat' first
  | exact Keeps.refl _
  | assumption
  | decide
  | refine sharedPoolExhausted_keeps ?_ ?_
  | (intro _ _)
  | split
  | dsimp only

theorem setWhere_keeps {mk : Nat} {sk : State} {s : State} {l : Nat} {place : Nat} (hk : Keeps mk sk s) (hm : 2048 &&& mk = 2048) :
    Keeps mk sk (setWhere s l place) := by
  suffices g : Keeps 2048 s (setWhere s l place) from hk.trans (g.weaken hm)
  unfold setWhere
  with_reducible repeat' first
  | exact Keeps.refl _
  | assumption
  | decide
  | (fail_if_no_progress refine Keeps.shu' ?_ _ rfl)
  | (intro _ _)
  | split
  | dsimp only

theorem ledgerMoveStart_keeps {mk : Nat} {sk : State} {s : State} (hk : Keeps mk sk s) (hm : 2560 &&& mk = 2560) :
    Keeps mk sk (ledgerMoveStart s) := by
  suffices g : Keeps 2560 s (ledgerMoveStart s) from hk.trans (g.weaken hm)
  unfold ledgerMoveStart
  with_reducible repeat' first
  | exact Keeps.refl _
  | assumption
  | decide
  | (extract_lets +onlyGivenNames s1; have h1 : Keeps 2560 s s1 := (by unfold s1; repeat' first | exact Keeps.refl _ | assumption | decide | refine beamTake_keeps ?_ ?_ | refine setChain_keeps ?_ ?_ | refine setWhere_keeps ?_ ?_ | refine Keeps.ite ?_ ?_ | simp only [id_eq] | (intro _ _) | split | dsimp only); clear_value s1)
  | (extract_lets +onlyGivenNames x1; clear_value x1)
  | refine beamTake_keeps ?_ ?_
  | refine setChain_keeps ?_ ?_
  | refine setWhere_keeps ?_ ?_
  | refine Keeps.ite ?_ ?_
  | simp only [id_eq]
  | (intro _ _)
  | split
  | dsimp only

theorem execLedgerMoveStart_keeps {mk : Nat} {sk : State} {s : State} (hk : Keeps mk sk s) (hm : 2560 &&& mk = 2560) :
    ∃ t', execLedgerMoveStart s = .next t' ∧ Keeps mk sk t' := by
  suffices g : ∃ t', execLedgerMoveStart s = .next t' ∧ Keeps 2560 s t' from g.imp fun _ h => ⟨h.1, hk.trans (h.2.weaken hm)⟩
  refine ⟨_, rfl, ?_⟩
  with_reducible repeat' first
  | exact Keeps.refl _
  | assumption
  | decide
  | refine ledgerMoveStart_keeps ?_ ?_
  | (intro _ _)
  | split
  | dsimp only

theorem ledgerMoveDone_keeps {mk : Nat} {sk : State} {s : State} (hk : Keeps mk sk s) (hm : 7367552 &&& mk = 7367552) :
    Keeps mk sk (ledgerMoveDone s) := by
  suffices g : Keeps 7367552 s (ledgerMoveDone s) from hk.trans (g.weaken hm)
  unfold ledgerMoveDone
  with_reducible repeat' first
  | exact Keeps.refl _
  | assumption
  | decide
  | (extract_lets +onlyGivenNames s1; have h1 : Keeps 7367552 s s1 := (by unfold s1; repeat' first | exact Keeps.refl _ | assumption | decide | refine beamStore_keeps ?_ ?_ | refine count_keeps ?_ ?_ | refine dropRef_keeps ?_ ?_ | refine setChain_keeps ?_ ?_ | refine setWhere_keeps ?_ ?_ | refine Keeps.ite ?_ ?_ | simp only [id_eq] | (fail_if_no_progress refine Keeps.loom' ?_ _ rfl) | (intro _ _) | split | dsimp only); clear_value s1)
  | (extract_lets +onlyGivenNames x1; clear_value x1)
  | refine beamStore_keeps ?_ ?_
  | refine count_keeps ?_ ?_
  | refine dropRef_keeps ?_ ?_
  | refine setChain_keeps ?_ ?_
  | refine setWhere_keeps ?_ ?_
  | refine Keeps.ite ?_ ?_
  | simp only [id_eq]
  | (fail_if_no_progress refine Keeps.loom' ?_ _ rfl)
  | (intro _ _)
  | split
  | dsimp only

theorem execLedgerMoveDone_keeps {mk : Nat} {sk : State} {s : State} (hk : Keeps mk sk s) (hm : 7367552 &&& mk = 7367552) :
    ∃ t', execLedgerMoveDone s = .next t' ∧ Keeps mk sk t' := by
  suffices g : ∃ t', execLedgerMoveDone s = .next t' ∧ Keeps 7367552 s t' from g.imp fun _ h => ⟨h.1, hk.trans (h.2.weaken hm)⟩
  refine ⟨_, rfl, ?_⟩
  with_reducible repeat' first
  | exact Keeps.refl _
  | assumption
  | decide
  | refine ledgerMoveDone_keeps ?_ ?_
  | (intro _ _)
  | split
  | dsimp only

theorem ledgerRelease_keeps {mk : Nat} {sk : State} {s : State} {l : Nat} {chain : Nat} (hk : Keeps mk sk s) (hm : 7365504 &&& mk = 7365504) :
    Keeps mk sk (ledgerRelease s l chain) := by
  suffices g : Keeps 7365504 s (ledgerRelease s l chain) from hk.trans (g.weaken hm)
  unfold ledgerRelease
  with_reducible repeat' first
  | exact Keeps.refl _
  | assumption
  | decide
  | (extract_lets +onlyGivenNames s1; have h1 : Keeps 7365504 s s1 := (by unfold s1; repeat' first | exact Keeps.refl _ | assumption | decide | refine dropRef_keeps ?_ ?_ | refine setChain_keeps ?_ ?_ | refine Keeps.ite ?_ ?_ | (fail_if_no_progress refine Keeps.loom' ?_ _ rfl) | (intro _ _) | split | dsimp only); clear_value s1)
  | (extract_lets +onlyGivenNames x1; clear_value x1)
  | refine dropRef_keeps ?_ ?_
  | refine setChain_keeps ?_ ?_
  | refine Keeps.ite ?_ ?_
  | (fail_if_no_progress refine Keeps.loom' ?_ _ rfl)
  | (intro _ _)
  | split
  | dsimp only

theorem setInst_keeps {mk : Nat} {sk : State} {s : State} {i : Nat} {x : InstState} (hk : Keeps mk sk s) (hm : 8192 &&& mk = 8192) :
    Keeps mk sk (setInst s i x) := by
  suffices g : Keeps 8192 s (setInst s i x) from hk.trans (g.weaken hm)
  unfold setInst
  with_reducible repeat' first
  | exact Keeps.refl _
  | assumption
  | decide
  | (fail_if_no_progress refine Keeps.eng' ?_ _ rfl)
  | (intro _ _)
  | split
  | dsimp only

theorem readbackChain_keeps {mk : Nat} {sk : State} {s : State} {size : Nat} (hk : Keeps mk sk s) (hm : 7365120 &&& mk = 7365120) :
    Keeps mk sk (readbackChain s size).1 := by
  suffices g : Keeps 7365120 s (readbackChain s size).1 from hk.trans (g.weaken hm)
  unfold readbackChain
  with_reducible repeat' first
  | exact Keeps.refl _
  | assumption
  | decide
  | (extract_lets +onlyGivenNames s1; have h1 : Keeps 7365120 s s1 := (by unfold s1; repeat' first | exact Keeps.refl _ | assumption | decide | refine count_keeps ?_ ?_ | refine poolChanged_keeps ?_ ?_ | refine setChain_keeps ?_ ?_ | refine Keeps.ite ?_ ?_ | refine Keeps.iteFst ?_ ?_ | simp only [id_eq] | (fail_if_no_progress refine Keeps.loom' ?_ _ rfl) | (intro _ _) | split | dsimp only); clear_value s1)
  | (extract_lets +onlyGivenNames x1; clear_value x1)
  | refine count_keeps ?_ ?_
  | refine poolChanged_keeps ?_ ?_
  | refine setChain_keeps ?_ ?_
  | refine Keeps.ite ?_ ?_
  | refine Keeps.iteFst ?_ ?_
  | simp only [id_eq]
  | (fail_if_no_progress refine Keeps.loom' ?_ _ rfl)
  | (intro _ _)
  | split
  | dsimp only

theorem readbackStart_keeps {mk : Nat} {sk : State} {d : Nat} {tc : Nat} {s : State} (hk : Keeps mk sk s) (hm : 7365120 &&& mk = 7365120) :
    Keeps mk sk (readbackStart d tc s) := by
  suffices g : Keeps 7365120 s (readbackStart d tc s) from hk.trans (g.weaken hm)
  unfold readbackStart
  with_reducible repeat' first
  | exact Keeps.refl _
  | assumption
  | decide
  | (extract_lets +onlyGivenNames q1; have hq1 : Keeps 7365120 s q1.1 := (by unfold q1; repeat' first | exact Keeps.refl _ | assumption | decide | refine readbackChain_keeps ?_ ?_ | refine withItem_keeps ?_ ?_ | refine Keeps.ofPair (by assumption) ?_ | (fail_if_no_progress refine Keeps.loom' ?_ _ rfl) | (intro _ _) | split | dsimp only); clear_value q1)
  | (extract_lets +onlyGivenNames s1; have h1 : Keeps 7365120 s s1 := (by unfold s1; repeat' first | exact Keeps.refl _ | assumption | decide | refine readbackChain_keeps ?_ ?_ | refine withItem_keeps ?_ ?_ | refine Keeps.ofPair (by assumption) ?_ | (fail_if_no_progress refine Keeps.loom' ?_ _ rfl) | (intro _ _) | split | dsimp only); clear_value s1)
  | (extract_lets +onlyGivenNames x1; clear_value x1)
  | refine readbackChain_keeps ?_ ?_
  | refine withItem_keeps ?_ ?_
  | refine Keeps.ofPair (by assumption) ?_
  | (fail_if_no_progress refine Keeps.loom' ?_ _ rfl)
  | (intro _ _)
  | split
  | dsimp only

theorem execReadbackStart_keeps {mk : Nat} {sk : State} {d : Dest} {tc : Tc} {s : State} (hk : Keeps mk sk s) (hm : 7365120 &&& mk = 7365120) :
    ∃ t', execReadbackStart d tc s = .next t' ∧ Keeps mk sk t' := by
  suffices g : ∃ t', execReadbackStart d tc s = .next t' ∧ Keeps 7365120 s t' from g.imp fun _ h => ⟨h.1, hk.trans (h.2.weaken hm)⟩
  refine ⟨_, rfl, ?_⟩
  with_reducible repeat' first
  | exact Keeps.refl _
  | assumption
  | decide
  | refine readbackStart_keeps ?_ ?_
  | (intro _ _)
  | split
  | dsimp only

theorem unreadable_keeps {mk : Nat} {sk : State} {s : State} {i : LoomItem} {cause : Nat} (hk : Keeps mk sk s) (hm : 7535488 &&& mk = 7535488) :
    Keeps mk sk (unreadable s i cause) := by
  suffices g : Keeps 7535488 s (unreadable s i cause) from hk.trans (g.weaken hm)
  unfold unreadable
  with_reducible repeat' first
  | exact Keeps.refl _
  | assumption
  | decide
  | (extract_lets +onlyGivenNames s1; have h1 : Keeps 7535488 s s1 := (by unfold s1; repeat' first | exact Keeps.refl _ | assumption | decide | refine answer_keeps ?_ ?_ | refine itemLost_keeps ?_ ?_ | refine releaseItem_keeps ?_ ?_ | refine requestGone_keeps ?_ ?_ | refine selContained_keeps ?_ ?_ | refine Keeps.ite ?_ ?_ | (intro _ _) | split | dsimp only); clear_value s1)
  | (extract_lets +onlyGivenNames x1; clear_value x1)
  | refine answer_keeps ?_ ?_
  | refine itemLost_keeps ?_ ?_
  | refine releaseItem_keeps ?_ ?_
  | refine requestGone_keeps ?_ ?_
  | refine selContained_keeps ?_ ?_
  | refine Keeps.ite ?_ ?_
  | (intro _ _)
  | split
  | dsimp only

theorem storeCorrected_keeps {mk : Nat} {sk : State} {s : State} {i : LoomItem} (hk : Keeps mk sk s) (hm : 7397632 &&& mk = 7397632) :
    Keeps mk sk (storeCorrected s i) := by
  suffices g : Keeps 7397632 s (storeCorrected s i) from hk.trans (g.weaken hm)
  unfold storeCorrected
  with_reducible repeat' first
  | exact Keeps.refl _
  | assumption
  | decide
  | refine selCorrectable_keeps ?_ ?_
  | (intro _ _)
  | split
  | dsimp only

theorem storeRead_keeps {mk : Nat} {sk : State} {s : State} {i : LoomItem} {r : StoreRead} (hk : Keeps mk sk s) (hm : 7535488 &&& mk = 7535488) :
    Keeps mk sk (storeRead s i r).1 := by
  suffices g : Keeps 7535488 s (storeRead s i r).1 from hk.trans (g.weaken hm)
  unfold storeRead
  with_reducible repeat' first
  | exact Keeps.refl _
  | assumption
  | decide
  | refine selContained_keeps ?_ ?_
  | refine storeCorrected_keeps ?_ ?_
  | refine unreadable_keeps ?_ ?_
  | refine Keeps.ite ?_ ?_
  | refine Keeps.iteFst ?_ ?_
  | (intro _ _)
  | split
  | dsimp only

theorem badReadback_keeps {mk : Nat} {sk : State} {s : State} {d : Nat} {i : LoomItem} (hk : Keeps mk sk s) (hm : 7535488 &&& mk = 7535488) :
    Keeps mk sk (badReadback s d i) := by
  suffices g : Keeps 7535488 s (badReadback s d i) from hk.trans (g.weaken hm)
  unfold badReadback
  with_reducible repeat' first
  | exact Keeps.refl _
  | assumption
  | decide
  | (extract_lets +onlyGivenNames s1; have h1 : Keeps 7535488 s s1 := (by unfold s1; repeat' first | exact Keeps.refl _ | assumption | decide | refine count_keeps ?_ ?_ | refine eventFull_keeps ?_ ?_ | refine removeItem_keeps ?_ ?_ | refine unreadable_keeps ?_ ?_ | (intro _ _) | split | dsimp only); clear_value s1)
  | (extract_lets +onlyGivenNames x1; clear_value x1)
  | refine count_keeps ?_ ?_
  | refine eventFull_keeps ?_ ?_
  | refine removeItem_keeps ?_ ?_
  | refine unreadable_keeps ?_ ?_
  | (intro _ _)
  | split
  | dsimp only

theorem readbackDone_keeps {mk : Nat} {sk : State} {r : StoreRead} {s : State} (hk : Keeps mk sk s) (hm : 7535488 &&& mk = 7535488) :
    Keeps mk sk (readbackDone r s) := by
  suffices g : Keeps 7535488 s (readbackDone r s) from hk.trans (g.weaken hm)
  unfold readbackDone
  with_reducible repeat' first
  | exact Keeps.refl _
  | assumption
  | decide
  | (extract_lets +onlyGivenNames s1; have h1 : Keeps 7535488 s s1 := (by unfold s1; repeat' first | exact Keeps.refl _ | assumption | decide | refine ageOut_keeps ?_ ?_ | refine badReadback_keeps ?_ ?_ | refine count_keeps ?_ ?_ | refine dropRef_keeps ?_ ?_ | refine storeCorrected_keeps ?_ ?_ | refine withItem_keeps ?_ ?_ | refine Keeps.ite ?_ ?_ | simp only [id_eq] | (fail_if_no_progress refine Keeps.loom' ?_ _ rfl) | (intro _ _) | split | dsimp only); clear_value s1)
  | (extract_lets +onlyGivenNames x1; clear_value x1)
  | refine ageOut_keeps ?_ ?_
  | refine badReadback_keeps ?_ ?_
  | refine count_keeps ?_ ?_
  | refine dropRef_keeps ?_ ?_
  | refine storeCorrected_keeps ?_ ?_
  | refine withItem_keeps ?_ ?_
  | refine Keeps.ite ?_ ?_
  | simp only [id_eq]
  | (fail_if_no_progress refine Keeps.loom' ?_ _ rfl)
  | (intro _ _)
  | split
  | dsimp only

theorem beamStackFault_keeps {mk : Nat} {sk : State} {stack : Nat} {s : State} (hk : Keeps mk sk s) (hm : 7365128 &&& mk = 7365128) :
    Keeps mk sk (beamStackFault stack s) := by
  suffices g : Keeps 7365128 s (beamStackFault stack s) from hk.trans (g.weaken hm)
  unfold beamStackFault
  with_reducible repeat' first
  | exact Keeps.refl _
  | assumption
  | decide
  | (extract_lets +onlyGivenNames s1; have h1 : Keeps 7365128 s s1 := (by unfold s1; repeat' first | exact Keeps.refl _ | assumption | decide | refine event_keeps ?_ ?_ | refine health_keeps ?_ ?_ | refine Keeps.ite ?_ ?_ | (fail_if_no_progress refine Keeps.loom' ?_ _ rfl) | (intro _ _) | split | dsimp only); clear_value s1)
  | (extract_lets +onlyGivenNames x1; clear_value x1)
  | refine event_keeps ?_ ?_
  | refine health_keeps ?_ ?_
  | refine Keeps.ite ?_ ?_
  | (fail_if_no_progress refine Keeps.loom' ?_ _ rfl)
  | (intro _ _)
  | split
  | dsimp only

theorem execBeamStackFault_keeps {mk : Nat} {sk : State} {stack : Fin 2} {s : State} (hk : Keeps mk sk s) (hm : 7365128 &&& mk = 7365128) :
    ∃ t', execBeamStackFault stack s = .next t' ∧ Keeps mk sk t' := by
  suffices g : ∃ t', execBeamStackFault stack s = .next t' ∧ Keeps 7365128 s t' from g.imp fun _ h => ⟨h.1, hk.trans (h.2.weaken hm)⟩
  refine ⟨_, rfl, ?_⟩
  with_reducible repeat' first
  | exact Keeps.refl _
  | assumption
  | decide
  | refine beamStackFault_keeps ?_ ?_
  | (intro _ _)
  | split
  | dsimp only

/-! ### Warp -/

theorem setSlot_keeps {mk : Nat} {sk : State} {s : State} {k : Nat} {x : SlotState} (hk : Keeps mk sk s) (hm : 256 &&& mk = 256) :
    Keeps mk sk (setSlot s k x) := by
  suffices g : Keeps 256 s (setSlot s k x) from hk.trans (g.weaken hm)
  unfold setSlot
  with_reducible repeat' first
  | exact Keeps.refl _
  | assumption
  | decide
  | (fail_if_no_progress refine Keeps.warp' ?_ _ rfl)
  | (intro _ _)
  | split
  | dsimp only

theorem setExpander_keeps {mk : Nat} {sk : State} {s : State} {e : Nat} {x : ExpanderState} (hk : Keeps mk sk s) (hm : 256 &&& mk = 256) :
    Keeps mk sk (setExpander s e x) := by
  suffices g : Keeps 256 s (setExpander s e x) from hk.trans (g.weaken hm)
  unfold setExpander
  with_reducible repeat' first
  | exact Keeps.refl _
  | assumption
  | decide
  | (fail_if_no_progress refine Keeps.warp' ?_ _ rfl)
  | (intro _ _)
  | split
  | dsimp only

theorem refuseTlp_keeps {mk : Nat} {sk : State} {s : State} {src : Nat} {o : Origin} {t : Tlp} {status : Nat} (hk : Keeps mk sk s) (hm : 7502720 &&& mk = 7502720) :
    Keeps mk sk (refuseTlp s src o t status) := by
  suffices g : Keeps 7502720 s (refuseTlp s src o t status) from hk.trans (g.weaken hm)
  unfold refuseTlp
  with_reducible repeat' first
  | exact Keeps.refl _
  | assumption
  | decide
  | (extract_lets +onlyGivenNames s1; have h1 : Keeps 7502720 s s1 := (by unfold s1; repeat' first | exact Keeps.refl _ | assumption | decide | refine aerUnsupported_keeps ?_ ?_ | refine answer_keeps ?_ ?_ | refine count_keeps ?_ ?_ | refine inboundFailed_keeps ?_ ?_ | refine Keeps.ite ?_ ?_ | (intro _ _) | split | dsimp only); clear_value s1)
  | (extract_lets +onlyGivenNames x1; clear_value x1)
  | refine aerUnsupported_keeps ?_ ?_
  | refine answer_keeps ?_ ?_
  | refine count_keeps ?_ ?_
  | refine inboundFailed_keeps ?_ ?_
  | refine Keeps.ite ?_ ?_
  | (intro _ _)
  | split
  | dsimp only

theorem deliverTlp_keeps {mk : Nat} {sk : State} {s : State} {d : Nat} {src : Nat} {o : Origin} {t : Tlp} (hk : Keeps mk sk s) (hm : 7502720 &&& mk = 7502720) :
    Keeps mk sk (deliverTlp s d src o t) := by
  suffices g : Keeps 7502720 s (deliverTlp s d src o t) from hk.trans (g.weaken hm)
  unfold deliverTlp
  with_reducible repeat' first
  | exact Keeps.refl _
  | assumption
  | decide
  | (extract_lets +onlyGivenNames q1; have hq1 : Keeps 7502720 s q1.1 := (by unfold q1; repeat' first | exact Keeps.refl _ | assumption | decide | refine denied_keeps ?_ ?_ | refine enqueueTlp_keeps ?_ ?_ | refine passed_keeps ?_ ?_ | refine refuseTlp_keeps ?_ ?_ | refine Keeps.ite ?_ ?_ | refine Keeps.iteFst ?_ ?_ | (intro _ _) | split | dsimp only); clear_value q1)
  | (extract_lets +onlyGivenNames s1; have h1 : Keeps 7502720 s s1 := (by unfold s1; repeat' first | exact Keeps.refl _ | assumption | decide | refine denied_keeps ?_ ?_ | refine enqueueTlp_keeps ?_ ?_ | refine passed_keeps ?_ ?_ | refine refuseTlp_keeps ?_ ?_ | refine Keeps.ite ?_ ?_ | refine Keeps.iteFst ?_ ?_ | (intro _ _) | split | dsimp only); clear_value s1)
  | (extract_lets +onlyGivenNames x1; clear_value x1)
  | refine denied_keeps ?_ ?_
  | refine enqueueTlp_keeps ?_ ?_
  | refine passed_keeps ?_ ?_
  | refine refuseTlp_keeps ?_ ?_
  | refine Keeps.ite ?_ ?_
  | refine Keeps.iteFst ?_ ?_
  | (intro _ _)
  | split
  | dsimp only

theorem driveSlot_keeps {mk : Nat} {sk : State} {s : State} {k : Nat} (hk : Keeps mk sk s) (hm : 0 &&& mk = 0) :
    Keeps mk sk (driveSlot s k) := by
  suffices g : Keeps 0 s (driveSlot s k) from hk.trans (g.weaken hm)
  unfold driveSlot
  with_reducible repeat' first
  | exact Keeps.refl _
  | assumption
  | decide
  | refine emit_keeps ?_
  | (intro _ _)
  | split
  | dsimp only

theorem assertSlotPerst_keeps {mk : Nat} {sk : State} {s : State} {p : Nat} (hk : Keeps mk sk s) (hm : 256 &&& mk = 256) :
    Keeps mk sk (assertSlotPerst s p) := by
  suffices g : Keeps 256 s (assertSlotPerst s p) from hk.trans (g.weaken hm)
  unfold assertSlotPerst
  with_reducible repeat' first
  | exact Keeps.refl _
  | assumption
  | decide
  | refine driveSlot_keeps ?_ ?_
  | refine setSlot_keeps ?_ ?_
  | (intro _ _)
  | split
  | dsimp only

theorem portEvent_keeps {mk : Nat} {sk : State} {s : State} {p : Nat} {code : Nat} {info : Nat} (hk : Keeps mk sk s) (hm : 7364608 &&& mk = 7364608) :
    Keeps mk sk (portEvent s p code info) := by
  suffices g : Keeps 7364608 s (portEvent s p code info) from hk.trans (g.weaken hm)
  unfold portEvent
  with_reducible repeat' first
  | exact Keeps.refl _
  | assumption
  | decide
  | refine eventIn_keeps ?_ ?_
  | (intro _ _)
  | split
  | dsimp only

theorem slotEvent_keeps {mk : Nat} {sk : State} {s : State} {k : Nat} {code : Nat} {info : Nat} (hk : Keeps mk sk s) (hm : 7364608 &&& mk = 7364608) :
    Keeps mk sk (slotEvent s k code info) := by
  suffices g : Keeps 7364608 s (slotEvent s k code info) from hk.trans (g.weaken hm)
  unfold slotEvent
  with_reducible repeat' first
  | exact Keeps.refl _
  | assumption
  | decide
  | refine eventIn_keeps ?_ ?_
  | (intro _ _)
  | split
  | dsimp only

theorem synthesize_keeps {mk : Nat} {sk : State} {s : State} {p : Nat} {o : Origin} {t : Tlp} (hk : Keeps mk sk s) (hm : 7371648 &&& mk = 7371648) :
    Keeps mk sk (synthesize s p o t) := by
  suffices g : Keeps 7371648 s (synthesize s p o t) from hk.trans (g.weaken hm)
  unfold synthesize
  with_reducible repeat' first
  | exact Keeps.refl _
  | assumption
  | decide
  | (extract_lets +onlyGivenNames s1; have h1 : Keeps 7371648 s s1 := (by unfold s1; repeat' first | exact Keeps.refl _ | assumption | decide | refine answer_keeps ?_ ?_ | refine count_keeps ?_ ?_ | refine setWarp_keeps ?_ ?_ | refine Keeps.ite ?_ ?_ | (intro _ _) | split | dsimp only); clear_value s1)
  | (extract_lets +onlyGivenNames x1; clear_value x1)
  | refine answer_keeps ?_ ?_
  | refine count_keeps ?_ ?_
  | refine setWarp_keeps ?_ ?_
  | refine Keeps.ite ?_ ?_
  | (intro _ _)
  | split
  | dsimp only

theorem dropPosted_keeps {mk : Nat} {sk : State} {s : State} {p : Nat} (hk : Keeps mk sk s) (hm : 1048832 &&& mk = 1048832) :
    Keeps mk sk (dropPosted s p) := by
  suffices g : Keeps 1048832 s (dropPosted s p) from hk.trans (g.weaken hm)
  unfold dropPosted
  with_reducible repeat' first
  | exact Keeps.refl _
  | assumption
  | decide
  | (extract_lets +onlyGivenNames s1; have h1 : Keeps 1048832 s s1 := (by unfold s1; repeat' first | exact Keeps.refl _ | assumption | decide | refine count_keeps ?_ ?_ | refine setWarp_keeps ?_ ?_ | refine Keeps.ite ?_ ?_ | (intro _ _) | split | dsimp only); clear_value s1)
  | (extract_lets +onlyGivenNames x1; clear_value x1)
  | refine count_keeps ?_ ?_
  | refine setWarp_keeps ?_ ?_
  | refine Keeps.ite ?_ ?_
  | (intro _ _)
  | split
  | dsimp only

theorem failSent_keeps {mk : Nat} {sk : State} {s : State} {p : Nat} (hk : Keeps mk sk s) (hm : 7371648 &&& mk = 7371648) :
    Keeps mk sk (failSent s p) := by
  suffices g : Keeps 7371648 s (failSent s p) from hk.trans (g.weaken hm)
  unfold failSent
  with_reducible repeat' first
  | exact Keeps.refl _
  | assumption
  | decide
  | (extract_lets +onlyGivenNames s1; have h1 : Keeps 7371648 s s1 := (by unfold s1; repeat' first | exact Keeps.refl _ | assumption | decide | refine answer_keeps ?_ ?_ | refine setWarp_keeps ?_ ?_ | refine synthesize_keeps ?_ ?_ | refine writeDone_keeps ?_ ?_ | refine Keeps.foldl ?_ _ (fun u a hu => ?_) | refine Keeps.foldlFst ?_ _ (fun u a hu => ?_) | (fail_if_no_progress refine Keeps.loom' ?_ _ rfl) | (intro _ _) | split | dsimp only); clear_value s1)
  | (extract_lets +onlyGivenNames x1; clear_value x1)
  | refine answer_keeps ?_ ?_
  | refine setWarp_keeps ?_ ?_
  | refine synthesize_keeps ?_ ?_
  | refine writeDone_keeps ?_ ?_
  | refine Keeps.foldl ?_ _ (fun u a hu => ?_)
  | refine Keeps.foldlFst ?_ _ (fun u a hu => ?_)
  | (fail_if_no_progress refine Keeps.loom' ?_ _ rfl)
  | (intro _ _)
  | split
  | dsimp only

theorem refuseQueued_keeps {mk : Nat} {sk : State} {s : State} {p : Nat} {i : LoomItem} (hk : Keeps mk sk s) (hm : 7502720 &&& mk = 7502720) :
    Keeps mk sk (refuseQueued s p i) := by
  suffices g : Keeps 7502720 s (refuseQueued s p i) from hk.trans (g.weaken hm)
  unfold refuseQueued
  with_reducible repeat' first
  | exact Keeps.refl _
  | assumption
  | decide
  | (extract_lets +onlyGivenNames s1; have h1 : Keeps 7502720 s s1 := (by unfold s1; repeat' first | exact Keeps.refl _ | assumption | decide | refine dropPosted_keeps ?_ ?_ | refine itemLost_keeps ?_ ?_ | refine releaseItem_keeps ?_ ?_ | refine removeItem_keeps ?_ ?_ | refine requestGone_keeps ?_ ?_ | refine synthesize_keeps ?_ ?_ | refine Keeps.ite ?_ ?_ | (intro _ _) | split | dsimp only); clear_value s1)
  | (extract_lets +onlyGivenNames x1; clear_value x1)
  | refine dropPosted_keeps ?_ ?_
  | refine itemLost_keeps ?_ ?_
  | refine releaseItem_keeps ?_ ?_
  | refine removeItem_keeps ?_ ?_
  | refine requestGone_keeps ?_ ?_
  | refine synthesize_keeps ?_ ?_
  | refine Keeps.ite ?_ ?_
  | (intro _ _)
  | split
  | dsimp only

theorem refuseQueue_keeps {mk : Nat} {sk : State} {s : State} {p : Nat} (hk : Keeps mk sk s) (hm : 7502720 &&& mk = 7502720) :
    Keeps mk sk (refuseQueue s p) := by
  suffices g : Keeps 7502720 s (refuseQueue s p) from hk.trans (g.weaken hm)
  unfold refuseQueue
  with_reducible repeat' first
  | exact Keeps.refl _
  | assumption
  | decide
  | refine refuseQueued_keeps ?_ ?_
  | refine Keeps.foldl ?_ _ (fun u a hu => ?_)
  | refine Keeps.foldlFst ?_ _ (fun u a hu => ?_)
  | (intro _ _)
  | split
  | dsimp only

theorem warpLinkGone_keeps {mk : Nat} {sk : State} {s : State} {p : Nat} {cause : Nat} (hk : Keeps mk sk s) (hm : 7889152 &&& mk = 7889152) :
    Keeps mk sk (warpLinkGone s p cause) := by
  suffices g : Keeps 7889152 s (warpLinkGone s p cause) from hk.trans (g.weaken hm)
  unfold warpLinkGone
  with_reducible repeat' first
  | exact Keeps.refl _
  | assumption
  | decide
  | (extract_lets +onlyGivenNames s1; have h1 : Keeps 7889152 s s1 := (by unfold s1; repeat' first | exact Keeps.refl _ | assumption | decide | refine count_keeps ?_ ?_ | refine discardIde_keeps ?_ ?_ | refine eventFull_keeps ?_ ?_ | refine setWarp_keeps ?_ ?_ | refine Keeps.ite ?_ ?_ | (intro _ _) | split | dsimp only); clear_value s1)
  | (extract_lets +onlyGivenNames x1; clear_value x1)
  | refine count_keeps ?_ ?_
  | refine discardIde_keeps ?_ ?_
  | refine eventFull_keeps ?_ ?_
  | refine setWarp_keeps ?_ ?_
  | refine Keeps.ite ?_ ?_
  | (intro _ _)
  | split
  | dsimp only

theorem warpLinkUp_keeps {mk : Nat} {sk : State} {p : Nat} {width : Nat} {rate : Nat} {flit : Bool} {s : State} (hk : Keeps mk sk s) (hm : 7364864 &&& mk = 7364864) :
    Keeps mk sk (warpLinkUp p width rate flit s) := by
  suffices g : Keeps 7364864 s (warpLinkUp p width rate flit s) from hk.trans (g.weaken hm)
  unfold warpLinkUp
  with_reducible repeat' first
  | exact Keeps.refl _
  | assumption
  | decide
  | (extract_lets +onlyGivenNames s1; have h1 : Keeps 7364864 s s1 := (by unfold s1; repeat' first | exact Keeps.refl _ | assumption | decide | refine afterFree_keeps ?_ ?_ | refine portEvent_keeps ?_ ?_ | refine setWarp_keeps ?_ ?_ | refine Keeps.ite ?_ ?_ | (intro _ _) | split | dsimp only); clear_value s1)
  | (extract_lets +onlyGivenNames x1; clear_value x1)
  | refine afterFree_keeps ?_ ?_
  | refine portEvent_keeps ?_ ?_
  | refine setWarp_keeps ?_ ?_
  | refine Keeps.ite ?_ ?_
  | (intro _ _)
  | split
  | dsimp only

theorem execWarpLinkUp_keeps {mk : Nat} {sk : State} {p : Port} {width : Nat} {rate : Nat} {flit : Bool} {s : State} (hk : Keeps mk sk s) (hm : 7364864 &&& mk = 7364864) :
    ∃ t', execWarpLinkUp p width rate flit s = .next t' ∧ Keeps mk sk t' := by
  suffices g : ∃ t', execWarpLinkUp p width rate flit s = .next t' ∧ Keeps 7364864 s t' from g.imp fun _ h => ⟨h.1, hk.trans (h.2.weaken hm)⟩
  refine ⟨_, rfl, ?_⟩
  with_reducible repeat' first
  | exact Keeps.refl _
  | assumption
  | decide
  | refine warpLinkUp_keeps ?_ ?_
  | (intro _ _)
  | split
  | dsimp only

theorem surpriseCounts_keeps {mk : Nat} {sk : State} {s : State} {p : Nat} (hk : Keeps mk sk s) (hm : 7364864 &&& mk = 7364864) :
    Keeps mk sk (surpriseCounts s p) := by
  suffices g : Keeps 7364864 s (surpriseCounts s p) from hk.trans (g.weaken hm)
  unfold surpriseCounts
  with_reducible repeat' first
  | exact Keeps.refl _
  | assumption
  | decide
  | (extract_lets +onlyGivenNames s1; have h1 : Keeps 7364864 s s1 := (by unfold s1; repeat' first | exact Keeps.refl _ | assumption | decide | refine portEvent_keeps ?_ ?_ | refine setWarp_keeps ?_ ?_ | (intro _ _) | split | dsimp only); clear_value s1)
  | (extract_lets +onlyGivenNames x1; clear_value x1)
  | refine portEvent_keeps ?_ ?_
  | refine setWarp_keeps ?_ ?_
  | (intro _ _)
  | split
  | dsimp only

theorem surpriseState_keeps {mk : Nat} {sk : State} {s : State} {p : Nat} (hk : Keeps mk sk s) (hm : 7502720 &&& mk = 7502720) :
    Keeps mk sk (surpriseState s p) := by
  suffices g : Keeps 7502720 s (surpriseState s p) from hk.trans (g.weaken hm)
  unfold surpriseState
  with_reducible repeat' first
  | exact Keeps.refl _
  | assumption
  | decide
  | (extract_lets +onlyGivenNames s1; have h1 : Keeps 7502720 s s1 := (by unfold s1; repeat' first | exact Keeps.refl _ | assumption | decide | refine assertSlotPerst_keeps ?_ ?_ | refine failSent_keeps ?_ ?_ | refine refuseQueue_keeps ?_ ?_ | refine setWarp_keeps ?_ ?_ | (intro _ _) | split | dsimp only); clear_value s1)
  | (extract_lets +onlyGivenNames x1; clear_value x1)
  | refine assertSlotPerst_keeps ?_ ?_
  | refine failSent_keeps ?_ ?_
  | refine refuseQueue_keeps ?_ ?_
  | refine setWarp_keeps ?_ ?_
  | (intro _ _)
  | split
  | dsimp only

theorem surpriseEnter_keeps {mk : Nat} {sk : State} {s : State} {p : Nat} {presence : Bool} (hk : Keeps mk sk s) (hm : 8059776 &&& mk = 8059776) :
    Keeps mk sk (surpriseEnter s p presence) := by
  suffices g : Keeps 8059776 s (surpriseEnter s p presence) from hk.trans (g.weaken hm)
  unfold surpriseEnter
  with_reducible repeat' first
  | exact Keeps.refl _
  | assumption
  | decide
  | (extract_lets +onlyGivenNames s1; have h1 : Keeps 8059776 s s1 := (by unfold s1; repeat' first | exact Keeps.refl _ | assumption | decide | refine count_keeps ?_ ?_ | refine eventFull_keeps ?_ ?_ | refine selContained_keeps ?_ ?_ | refine surpriseState_keeps ?_ ?_ | refine warpLinkGone_keeps ?_ ?_ | (intro _ _) | split | dsimp only); clear_value s1)
  | (extract_lets +onlyGivenNames x1; clear_value x1)
  | refine count_keeps ?_ ?_
  | refine eventFull_keeps ?_ ?_
  | refine selContained_keeps ?_ ?_
  | refine surpriseState_keeps ?_ ?_
  | refine warpLinkGone_keeps ?_ ?_
  | (intro _ _)
  | split
  | dsimp only

theorem surpriseEnd_keeps {mk : Nat} {sk : State} {s : State} {p : Nat} {st : WarpSt} (hk : Keeps mk sk s) (hm : 7364864 &&& mk = 7364864) :
    Keeps mk sk (surpriseEnd s p st) := by
  suffices g : Keeps 7364864 s (surpriseEnd s p st) from hk.trans (g.weaken hm)
  unfold surpriseEnd
  with_reducible repeat' first
  | exact Keeps.refl _
  | assumption
  | decide
  | (extract_lets +onlyGivenNames s1; have h1 : Keeps 7364864 s s1 := (by unfold s1; repeat' first | exact Keeps.refl _ | assumption | decide | refine portEvent_keeps ?_ ?_ | refine setWarp_keeps ?_ ?_ | refine surpriseCounts_keeps ?_ ?_ | refine Keeps.ite ?_ ?_ | (intro _ _) | split | dsimp only); clear_value s1)
  | (extract_lets +onlyGivenNames x1; clear_value x1)
  | refine portEvent_keeps ?_ ?_
  | refine setWarp_keeps ?_ ?_
  | refine surpriseCounts_keeps ?_ ?_
  | refine Keeps.ite ?_ ?_
  | (intro _ _)
  | split
  | dsimp only

theorem surpriseDown_keeps {mk : Nat} {sk : State} {p : Nat} {s : State} (hk : Keeps mk sk s) (hm : 8059776 &&& mk = 8059776) :
    Keeps mk sk (surpriseDown p s) := by
  suffices g : Keeps 8059776 s (surpriseDown p s) from hk.trans (g.weaken hm)
  unfold surpriseDown
  with_reducible repeat' first
  | exact Keeps.refl _
  | assumption
  | decide
  | (extract_lets +onlyGivenNames s1; have h1 : Keeps 8059776 s s1 := (by unfold s1; repeat' first | exact Keeps.refl _ | assumption | decide | refine setWarp_keeps ?_ ?_ | refine surpriseEnter_keeps ?_ ?_ | refine Keeps.ite ?_ ?_ | (intro _ _) | split | dsimp only); clear_value s1)
  | (extract_lets +onlyGivenNames x1; clear_value x1)
  | refine setWarp_keeps ?_ ?_
  | refine surpriseEnter_keeps ?_ ?_
  | refine Keeps.ite ?_ ?_
  | (intro _ _)
  | split
  | dsimp only

theorem execSurpriseDown_keeps {mk : Nat} {sk : State} {p : Port} {s : State} (hk : Keeps mk sk s) (hm : 8059776 &&& mk = 8059776) :
    ∃ t', execSurpriseDown p s = .next t' ∧ Keeps mk sk t' := by
  suffices g : ∃ t', execSurpriseDown p s = .next t' ∧ Keeps 8059776 s t' from g.imp fun _ h => ⟨h.1, hk.trans (h.2.weaken hm)⟩
  refine ⟨_, rfl, ?_⟩
  with_reducible repeat' first
  | exact Keeps.refl _
  | assumption
  | decide
  | refine surpriseDown_keeps ?_ ?_
  | (intro _ _)
  | split
  | dsimp only

theorem surpriseReport_keeps {mk : Nat} {sk : State} {p : Nat} {s : State} (hk : Keeps mk sk s) (hm : 7364864 &&& mk = 7364864) :
    Keeps mk sk (surpriseReport p s) := by
  suffices g : Keeps 7364864 s (surpriseReport p s) from hk.trans (g.weaken hm)
  unfold surpriseReport
  with_reducible repeat' first
  | exact Keeps.refl _
  | assumption
  | decide
  | (extract_lets +onlyGivenNames s1; have h1 : Keeps 7364864 s s1 := (by unfold s1; repeat' first | exact Keeps.refl _ | assumption | decide | refine surpriseCounts_keeps ?_ ?_ | refine Keeps.ite ?_ ?_ | (intro _ _) | split | dsimp only); clear_value s1)
  | (extract_lets +onlyGivenNames x1; clear_value x1)
  | refine surpriseCounts_keeps ?_ ?_
  | refine Keeps.ite ?_ ?_
  | (intro _ _)
  | split
  | dsimp only

theorem execSurpriseReport_keeps {mk : Nat} {sk : State} {p : Port} {s : State} (hk : Keeps mk sk s) (hm : 7364864 &&& mk = 7364864) :
    ∃ t', execSurpriseReport p s = .next t' ∧ Keeps mk sk t' := by
  suffices g : ∃ t', execSurpriseReport p s = .next t' ∧ Keeps 7364864 s t' from g.imp fun _ h => ⟨h.1, hk.trans (h.2.weaken hm)⟩
  refine ⟨_, rfl, ?_⟩
  with_reducible repeat' first
  | exact Keeps.refl _
  | assumption
  | decide
  | refine surpriseReport_keeps ?_ ?_
  | (intro _ _)
  | split
  | dsimp only

theorem linkReturnL0_keeps {mk : Nat} {sk : State} {p : Nat} {width : Nat} {rate : Nat} {flit : Bool} {s : State} (hk : Keeps mk sk s) (hm : 7364864 &&& mk = 7364864) :
    Keeps mk sk (linkReturnL0 p width rate flit s) := by
  suffices g : Keeps 7364864 s (linkReturnL0 p width rate flit s) from hk.trans (g.weaken hm)
  unfold linkReturnL0
  with_reducible repeat' first
  | exact Keeps.refl _
  | assumption
  | decide
  | (extract_lets +onlyGivenNames s1; have h1 : Keeps 7364864 s s1 := (by unfold s1; repeat' first | exact Keeps.refl _ | assumption | decide | refine surpriseEnd_keeps ?_ ?_ | refine warpLinkUp_keeps ?_ ?_ | refine Keeps.ite ?_ ?_ | (intro _ _) | split | dsimp only); clear_value s1)
  | (extract_lets +onlyGivenNames x1; clear_value x1)
  | refine surpriseEnd_keeps ?_ ?_
  | refine warpLinkUp_keeps ?_ ?_
  | refine Keeps.ite ?_ ?_
  | (intro _ _)
  | split
  | dsimp only

theorem execLinkReturnL0_keeps {mk : Nat} {sk : State} {p : Port} {width : Nat} {rate : Nat} {flit : Bool} {s : State} (hk : Keeps mk sk s) (hm : 7364864 &&& mk = 7364864) :
    ∃ t', execLinkReturnL0 p width rate flit s = .next t' ∧ Keeps mk sk t' := by
  suffices g : ∃ t', execLinkReturnL0 p width rate flit s = .next t' ∧ Keeps 7364864 s t' from g.imp fun _ h => ⟨h.1, hk.trans (h.2.weaken hm)⟩
  refine ⟨_, rfl, ?_⟩
  with_reducible repeat' first
  | exact Keeps.refl _
  | assumption
  | decide
  | refine linkReturnL0_keeps ?_ ?_
  | (intro _ _)
  | split
  | dsimp only

theorem containPort_keeps {mk : Nat} {sk : State} {s : State} {p : Nat} {cause : Nat} {header : Nat} (hk : Keeps mk sk s) (hm : 8059776 &&& mk = 8059776) :
    Keeps mk sk (containPort s p cause header) := by
  suffices g : Keeps 8059776 s (containPort s p cause header) from hk.trans (g.weaken hm)
  unfold containPort
  with_reducible repeat' first
  | exact Keeps.refl _
  | assumption
  | decide
  | (extract_lets +onlyGivenNames s1; have h1 : Keeps 8059776 s s1 := (by unfold s1; repeat' first | exact Keeps.refl _ | assumption | decide | refine count_keeps ?_ ?_ | refine discardIde_keeps ?_ ?_ | refine eventFull_keeps ?_ ?_ | refine selContained_keeps ?_ ?_ | refine selLatch_keeps ?_ ?_ | refine setWarp_keeps ?_ ?_ | refine surpriseState_keeps ?_ ?_ | refine Keeps.ite ?_ ?_ | (intro _ _) | split | dsimp only); clear_value s1)
  | (extract_lets +onlyGivenNames x1; clear_value x1)
  | refine count_keeps ?_ ?_
  | refine discardIde_keeps ?_ ?_
  | refine eventFull_keeps ?_ ?_
  | refine selContained_keeps ?_ ?_
  | refine selLatch_keeps ?_ ?_
  | refine setWarp_keeps ?_ ?_
  | refine surpriseState_keeps ?_ ?_
  | refine Keeps.ite ?_ ?_
  | (intro _ _)
  | split
  | dsimp only

theorem softwareDown_keeps {mk : Nat} {sk : State} {s : State} {p : Nat} (hk : Keeps mk sk s) (hm : 8027008 &&& mk = 8027008) :
    Keeps mk sk (softwareDown s p) := by
  suffices g : Keeps 8027008 s (softwareDown s p) from hk.trans (g.weaken hm)
  unfold softwareDown
  with_reducible repeat' first
  | exact Keeps.refl _
  | assumption
  | decide
  | (extract_lets +onlyGivenNames s1; have h1 : Keeps 8027008 s s1 := (by unfold s1; repeat' first | exact Keeps.refl _ | assumption | decide | refine failSent_keeps ?_ ?_ | refine refuseQueue_keeps ?_ ?_ | refine setWarp_keeps ?_ ?_ | refine surpriseEnd_keeps ?_ ?_ | refine warpLinkGone_keeps ?_ ?_ | refine Keeps.ite ?_ ?_ | (intro _ _) | split | dsimp only); clear_value s1)
  | (extract_lets +onlyGivenNames x1; clear_value x1)
  | refine failSent_keeps ?_ ?_
  | refine refuseQueue_keeps ?_ ?_
  | refine setWarp_keeps ?_ ?_
  | refine surpriseEnd_keeps ?_ ?_
  | refine warpLinkGone_keeps ?_ ?_
  | refine Keeps.ite ?_ ?_
  | (intro _ _)
  | split
  | dsimp only

theorem secondaryBusReset_keeps {mk : Nat} {sk : State} {p : Nat} {s : State} (hk : Keeps mk sk s) (hm : 8027008 &&& mk = 8027008) :
    Keeps mk sk (secondaryBusReset p s) := by
  suffices g : Keeps 8027008 s (secondaryBusReset p s) from hk.trans (g.weaken hm)
  unfold secondaryBusReset
  with_reducible repeat' first
  | exact Keeps.refl _
  | assumption
  | decide
  | refine emit_keeps ?_
  | refine softwareDown_keeps ?_ ?_
  | refine Keeps.ite ?_ ?_
  | (intro _ _)
  | split
  | dsimp only

theorem execSecondaryBusReset_keeps {mk : Nat} {sk : State} {p : Port} {s : State} (hk : Keeps mk sk s) (hm : 8027008 &&& mk = 8027008) :
    ∃ t', execSecondaryBusReset p s = .next t' ∧ Keeps mk sk t' := by
  suffices g : ∃ t', execSecondaryBusReset p s = .next t' ∧ Keeps 8027008 s t' from g.imp fun _ h => ⟨h.1, hk.trans (h.2.weaken hm)⟩
  refine ⟨_, rfl, ?_⟩
  with_reducible repeat' first
  | exact Keeps.refl _
  | assumption
  | decide
  | refine secondaryBusReset_keeps ?_ ?_
  | (intro _ _)
  | split
  | dsimp only

theorem linkDisable_keeps {mk : Nat} {sk : State} {p : Nat} {s : State} (hk : Keeps mk sk s) (hm : 8027008 &&& mk = 8027008) :
    Keeps mk sk (linkDisable p s) := by
  suffices g : Keeps 8027008 s (linkDisable p s) from hk.trans (g.weaken hm)
  unfold linkDisable
  with_reducible repeat' first
  | exact Keeps.refl _
  | assumption
  | decide
  | refine softwareDown_keeps ?_ ?_
  | (intro _ _)
  | split
  | dsimp only

theorem execLinkDisable_keeps {mk : Nat} {sk : State} {p : Port} {s : State} (hk : Keeps mk sk s) (hm : 8027008 &&& mk = 8027008) :
    ∃ t', execLinkDisable p s = .next t' ∧ Keeps mk sk t' := by
  suffices g : ∃ t', execLinkDisable p s = .next t' ∧ Keeps 8027008 s t' from g.imp fun _ h => ⟨h.1, hk.trans (h.2.weaken hm)⟩
  refine ⟨_, rfl, ?_⟩
  with_reducible repeat' first
  | exact Keeps.refl _
  | assumption
  | decide
  | refine linkDisable_keeps ?_ ?_
  | (intro _ _)
  | split
  | dsimp only

theorem dpcTrigger_keeps {mk : Nat} {sk : State} {p : Nat} {reason : Nat} {s : State} (hk : Keeps mk sk s) (hm : 8059776 &&& mk = 8059776) :
    Keeps mk sk (dpcTrigger p reason s) := by
  suffices g : Keeps 8059776 s (dpcTrigger p reason s) from hk.trans (g.weaken hm)
  unfold dpcTrigger
  with_reducible repeat' first
  | exact Keeps.refl _
  | assumption
  | decide
  | (extract_lets +onlyGivenNames s1; have h1 : Keeps 8059776 s s1 := (by unfold s1; repeat' first | exact Keeps.refl _ | assumption | decide | refine count_keeps ?_ ?_ | refine failSent_keeps ?_ ?_ | refine portEvent_keeps ?_ ?_ | refine refuseQueue_keeps ?_ ?_ | refine selContained_keeps ?_ ?_ | refine setWarp_keeps ?_ ?_ | refine surpriseCounts_keeps ?_ ?_ | refine warpLinkGone_keeps ?_ ?_ | refine Keeps.ite ?_ ?_ | (intro _ _) | split | dsimp only); clear_value s1)
  | (extract_lets +onlyGivenNames x1; clear_value x1)
  | refine count_keeps ?_ ?_
  | refine failSent_keeps ?_ ?_
  | refine portEvent_keeps ?_ ?_
  | refine refuseQueue_keeps ?_ ?_
  | refine selContained_keeps ?_ ?_
  | refine setWarp_keeps ?_ ?_
  | refine surpriseCounts_keeps ?_ ?_
  | refine warpLinkGone_keeps ?_ ?_
  | refine Keeps.ite ?_ ?_
  | (intro _ _)
  | split
  | dsimp only

theorem execDpcTrigger_keeps {mk : Nat} {sk : State} {p : Port} {reason : Nat} {s : State} (hk : Keeps mk sk s) (hm : 8059776 &&& mk = 8059776) :
    ∃ t', execDpcTrigger p reason s = .next t' ∧ Keeps mk sk t' := by
  suffices g : ∃ t', execDpcTrigger p reason s = .next t' ∧ Keeps 8059776 s t' from g.imp fun _ h => ⟨h.1, hk.trans (h.2.weaken hm)⟩
  refine ⟨_, rfl, ?_⟩
  with_reducible repeat' first
  | exact Keeps.refl _
  | assumption
  | decide
  | refine dpcTrigger_keeps ?_ ?_
  | (intro _ _)
  | split
  | dsimp only

theorem dpcRelease_keeps {mk : Nat} {sk : State} {p : Nat} {s : State} (hk : Keeps mk sk s) (hm : 256 &&& mk = 256) :
    Keeps mk sk (dpcRelease p s) := by
  suffices g : Keeps 256 s (dpcRelease p s) from hk.trans (g.weaken hm)
  unfold dpcRelease
  with_reducible repeat' first
  | exact Keeps.refl _
  | assumption
  | decide
  | (extract_lets +onlyGivenNames s1; have h1 : Keeps 256 s s1 := (by unfold s1; repeat' first | exact Keeps.refl _ | assumption | decide | refine setWarp_keeps ?_ ?_ | refine Keeps.ite ?_ ?_ | (intro _ _) | split | dsimp only); clear_value s1)
  | (extract_lets +onlyGivenNames x1; clear_value x1)
  | refine setWarp_keeps ?_ ?_
  | refine Keeps.ite ?_ ?_
  | (intro _ _)
  | split
  | dsimp only

theorem execDpcRelease_keeps {mk : Nat} {sk : State} {p : Port} {s : State} (hk : Keeps mk sk s) (hm : 256 &&& mk = 256) :
    ∃ t', execDpcRelease p s = .next t' ∧ Keeps mk sk t' := by
  suffices g : ∃ t', execDpcRelease p s = .next t' ∧ Keeps 256 s t' from g.imp fun _ h => ⟨h.1, hk.trans (h.2.weaken hm)⟩
  refine ⟨_, rfl, ?_⟩
  with_reducible repeat' first
  | exact Keeps.refl _
  | assumption
  | decide
  | refine dpcRelease_keeps ?_ ?_
  | (intro _ _)
  | split
  | dsimp only

theorem slotPowerOff_keeps {mk : Nat} {sk : State} {k : Nat} {s : State} (hk : Keeps mk sk s) (hm : 8027024 &&& mk = 8027024) :
    Keeps mk sk (slotPowerOff k s) := by
  suffices g : Keeps 8027024 s (slotPowerOff k s) from hk.trans (g.weaken hm)
  unfold slotPowerOff
  with_reducible repeat' first
  | exact Keeps.refl _
  | assumption
  | decide
  | (extract_lets +onlyGivenNames s1; have h1 : Keeps 8027024 s s1 := (by unfold s1; repeat' first | exact Keeps.refl _ | assumption | decide | refine driveSlot_keeps ?_ ?_ | refine setSlot_keeps ?_ ?_ | refine softwareDown_keeps ?_ ?_ | refine Keeps.ite ?_ ?_ | (intro _ _) | split | dsimp only); clear_value s1)
  | (extract_lets +onlyGivenNames x1; clear_value x1)
  | refine driveSlot_keeps ?_ ?_
  | refine setSlot_keeps ?_ ?_
  | refine softwareDown_keeps ?_ ?_
  | refine Keeps.ite ?_ ?_
  | (intro _ _)
  | split
  | dsimp only

theorem execSlotPowerOff_keeps {mk : Nat} {sk : State} {k : Slot} {s : State} (hk : Keeps mk sk s) (hm : 8027024 &&& mk = 8027024) :
    ∃ t', execSlotPowerOff k s = .next t' ∧ Keeps mk sk t' := by
  suffices g : ∃ t', execSlotPowerOff k s = .next t' ∧ Keeps 8027024 s t' from g.imp fun _ h => ⟨h.1, hk.trans (h.2.weaken hm)⟩
  refine ⟨_, rfl, ?_⟩
  with_reducible repeat' first
  | exact Keeps.refl _
  | assumption
  | decide
  | refine slotPowerOff_keeps ?_ ?_
  | (intro _ _)
  | split
  | dsimp only

theorem slotPwrenClear_keeps {mk : Nat} {sk : State} {k : Nat} {s : State} (hk : Keeps mk sk s) (hm : 256 &&& mk = 256) :
    Keeps mk sk (slotPwrenClear k s) := by
  suffices g : Keeps 256 s (slotPwrenClear k s) from hk.trans (g.weaken hm)
  unfold slotPwrenClear
  with_reducible repeat' first
  | exact Keeps.refl _
  | assumption
  | decide
  | (extract_lets +onlyGivenNames s1; have h1 : Keeps 256 s s1 := (by unfold s1; repeat' first | exact Keeps.refl _ | assumption | decide | refine driveSlot_keeps ?_ ?_ | refine setSlot_keeps ?_ ?_ | refine Keeps.ite ?_ ?_ | (intro _ _) | split | dsimp only); clear_value s1)
  | (extract_lets +onlyGivenNames x1; clear_value x1)
  | refine driveSlot_keeps ?_ ?_
  | refine setSlot_keeps ?_ ?_
  | refine Keeps.ite ?_ ?_
  | (intro _ _)
  | split
  | dsimp only

theorem execSlotPwrenClear_keeps {mk : Nat} {sk : State} {k : Slot} {s : State} (hk : Keeps mk sk s) (hm : 256 &&& mk = 256) :
    ∃ t', execSlotPwrenClear k s = .next t' ∧ Keeps mk sk t' := by
  suffices g : ∃ t', execSlotPwrenClear k s = .next t' ∧ Keeps 256 s t' from g.imp fun _ h => ⟨h.1, hk.trans (h.2.weaken hm)⟩
  refine ⟨_, rfl, ?_⟩
  with_reducible repeat' first
  | exact Keeps.refl _
  | assumption
  | decide
  | refine slotPwrenClear_keeps ?_ ?_
  | (intro _ _)
  | split
  | dsimp only

theorem slotPowerOn_keeps {mk : Nat} {sk : State} {k : Nat} {s : State} (hk : Keeps mk sk s) (hm : 256 &&& mk = 256) :
    Keeps mk sk (slotPowerOn k s) := by
  suffices g : Keeps 256 s (slotPowerOn k s) from hk.trans (g.weaken hm)
  unfold slotPowerOn
  with_reducible repeat' first
  | exact Keeps.refl _
  | assumption
  | decide
  | refine driveSlot_keeps ?_ ?_
  | refine setSlot_keeps ?_ ?_
  | refine Keeps.ite ?_ ?_
  | (intro _ _)
  | split
  | dsimp only

theorem execSlotPowerOn_keeps {mk : Nat} {sk : State} {k : Slot} {s : State} (hk : Keeps mk sk s) (hm : 256 &&& mk = 256) :
    ∃ t', execSlotPowerOn k s = .next t' ∧ Keeps mk sk t' := by
  suffices g : ∃ t', execSlotPowerOn k s = .next t' ∧ Keeps 256 s t' from g.imp fun _ h => ⟨h.1, hk.trans (h.2.weaken hm)⟩
  refine ⟨_, rfl, ?_⟩
  with_reducible repeat' first
  | exact Keeps.refl _
  | assumption
  | decide
  | refine slotPowerOn_keeps ?_ ?_
  | (intro _ _)
  | split
  | dsimp only

theorem slotPerstRelease_keeps {mk : Nat} {sk : State} {k : Nat} {s : State} (hk : Keeps mk sk s) (hm : 256 &&& mk = 256) :
    Keeps mk sk (slotPerstRelease k s) := by
  suffices g : Keeps 256 s (slotPerstRelease k s) from hk.trans (g.weaken hm)
  unfold slotPerstRelease
  with_reducible repeat' first
  | exact Keeps.refl _
  | assumption
  | decide
  | (extract_lets +onlyGivenNames s1; have h1 : Keeps 256 s s1 := (by unfold s1; repeat' first | exact Keeps.refl _ | assumption | decide | refine driveSlot_keeps ?_ ?_ | refine setSlot_keeps ?_ ?_ | refine setWarp_keeps ?_ ?_ | refine Keeps.ite ?_ ?_ | (intro _ _) | split | dsimp only); clear_value s1)
  | (extract_lets +onlyGivenNames x1; clear_value x1)
  | refine driveSlot_keeps ?_ ?_
  | refine setSlot_keeps ?_ ?_
  | refine setWarp_keeps ?_ ?_
  | refine Keeps.ite ?_ ?_
  | (intro _ _)
  | split
  | dsimp only

theorem execSlotPerstRelease_keeps {mk : Nat} {sk : State} {k : Slot} {s : State} (hk : Keeps mk sk s) (hm : 256 &&& mk = 256) :
    ∃ t', execSlotPerstRelease k s = .next t' ∧ Keeps mk sk t' := by
  suffices g : ∃ t', execSlotPerstRelease k s = .next t' ∧ Keeps 256 s t' from g.imp fun _ h => ⟨h.1, hk.trans (h.2.weaken hm)⟩
  refine ⟨_, rfl, ?_⟩
  with_reducible repeat' first
  | exact Keeps.refl _
  | assumption
  | decide
  | refine slotPerstRelease_keeps ?_ ?_
  | (intro _ _)
  | split
  | dsimp only

theorem indicatorSet_keeps {mk : Nat} {sk : State} {k : Nat} {attention : Indicator} {power : Indicator} {s : State} (hk : Keeps mk sk s) (hm : 272 &&& mk = 272) :
    Keeps mk sk (indicatorSet k attention power s) := by
  suffices g : Keeps 272 s (indicatorSet k attention power s) from hk.trans (g.weaken hm)
  unfold indicatorSet
  with_reducible repeat' first
  | exact Keeps.refl _
  | assumption
  | decide
  | refine driveSlot_keeps ?_ ?_
  | refine setSlot_keeps ?_ ?_
  | refine Keeps.ite ?_ ?_
  | (intro _ _)
  | split
  | dsimp only

theorem execIndicatorSet_keeps {mk : Nat} {sk : State} {k : Slot} {attention : Indicator} {power : Indicator} {s : State} (hk : Keeps mk sk s) (hm : 272 &&& mk = 272) :
    ∃ t', execIndicatorSet k attention power s = .next t' ∧ Keeps mk sk t' := by
  suffices g : ∃ t', execIndicatorSet k attention power s = .next t' ∧ Keeps 272 s t' from g.imp fun _ h => ⟨h.1, hk.trans (h.2.weaken hm)⟩
  refine ⟨_, rfl, ?_⟩
  with_reducible repeat' first
  | exact Keeps.refl _
  | assumption
  | decide
  | refine indicatorSet_keeps ?_ ?_
  | (intro _ _)
  | split
  | dsimp only

theorem indicatorBlink_keeps {mk : Nat} {sk : State} {s : State} (hk : Keeps mk sk s) (hm : 256 &&& mk = 256) :
    Keeps mk sk (indicatorBlink s) := by
  suffices g : Keeps 256 s (indicatorBlink s) from hk.trans (g.weaken hm)
  unfold indicatorBlink
  with_reducible repeat' first
  | exact Keeps.refl _
  | assumption
  | decide
  | (extract_lets +onlyGivenNames s1; have h1 : Keeps 256 s s1 := (by unfold s1; repeat' first | exact Keeps.refl _ | assumption | decide | refine driveSlot_keeps ?_ ?_ | refine Keeps.ite ?_ ?_ | refine Keeps.foldl ?_ _ (fun u a hu => ?_) | refine Keeps.foldlFst ?_ _ (fun u a hu => ?_) | (fail_if_no_progress refine Keeps.warp' ?_ _ rfl) | (intro _ _) | split | dsimp only); clear_value s1)
  | (extract_lets +onlyGivenNames x1; clear_value x1)
  | refine driveSlot_keeps ?_ ?_
  | refine Keeps.ite ?_ ?_
  | refine Keeps.foldl ?_ _ (fun u a hu => ?_)
  | refine Keeps.foldlFst ?_ _ (fun u a hu => ?_)
  | (fail_if_no_progress refine Keeps.warp' ?_ _ rfl)
  | (intro _ _)
  | split
  | dsimp only

theorem execIndicatorBlink_keeps {mk : Nat} {sk : State} {s : State} (hk : Keeps mk sk s) (hm : 256 &&& mk = 256) :
    ∃ t', execIndicatorBlink s = .next t' ∧ Keeps mk sk t' := by
  suffices g : ∃ t', execIndicatorBlink s = .next t' ∧ Keeps 256 s t' from g.imp fun _ h => ⟨h.1, hk.trans (h.2.weaken hm)⟩
  refine ⟨_, rfl, ?_⟩
  with_reducible repeat' first
  | exact Keeps.refl _
  | assumption
  | decide
  | refine indicatorBlink_keeps ?_ ?_
  | (intro _ _)
  | split
  | dsimp only

theorem slotInputs_keeps {mk : Nat} {sk : State} {s : State} {k : Nat} {byte : Nat} (hk : Keeps mk sk s) (hm : 256 &&& mk = 256) :
    Keeps mk sk (slotInputs s k byte) := by
  suffices g : Keeps 256 s (slotInputs s k byte) from hk.trans (g.weaken hm)
  unfold slotInputs
  with_reducible repeat' first
  | exact Keeps.refl _
  | assumption
  | decide
  | (extract_lets +onlyGivenNames s1; have h1 : Keeps 256 s s1 := (by unfold s1; repeat' first | exact Keeps.refl _ | assumption | decide | refine setSlot_keeps ?_ ?_ | refine Keeps.foldl ?_ _ (fun u a hu => ?_) | refine Keeps.foldlFst ?_ _ (fun u a hu => ?_) | (intro _ _) | split | dsimp only); clear_value s1)
  | (extract_lets +onlyGivenNames x1; clear_value x1)
  | refine setSlot_keeps ?_ ?_
  | refine Keeps.foldl ?_ _ (fun u a hu => ?_)
  | refine Keeps.foldlFst ?_ _ (fun u a hu => ?_)
  | (intro _ _)
  | split
  | dsimp only

theorem setUpExpander_keeps {mk : Nat} {sk : State} {s : State} {e : Nat} (hk : Keeps mk sk s) (hm : 0 &&& mk = 0) :
    Keeps mk sk (setUpExpander s e) := by
  suffices g : Keeps 0 s (setUpExpander s e) from hk.trans (g.weaken hm)
  unfold setUpExpander
  with_reducible repeat' first
  | exact Keeps.refl _
  | assumption
  | decide
  | refine emit_keeps ?_
  | refine Keeps.ite ?_ ?_
  | (intro _ _)
  | split
  | dsimp only

theorem expanderAnswers_keeps {mk : Nat} {sk : State} {s : State} {e : Nat} {v : Nat} (hk : Keeps mk sk s) (hm : 256 &&& mk = 256) :
    Keeps mk sk (expanderAnswers s e v) := by
  suffices g : Keeps 256 s (expanderAnswers s e v) from hk.trans (g.weaken hm)
  unfold expanderAnswers
  with_reducible repeat' first
  | exact Keeps.refl _
  | assumption
  | decide
  | (extract_lets +onlyGivenNames f1; have hf1 : ∀ u a, Keeps 256 s u → Keeps 256 s (f1 u a) := (by intro u a hu; unfold f1; repeat' first | exact Keeps.refl _ | assumption | decide | refine setExpander_keeps ?_ ?_ | refine setSlot_keeps ?_ ?_ | refine setUpExpander_keeps ?_ ?_ | refine slotInputs_keeps ?_ ?_ | refine Keeps.ite ?_ ?_ | (intro _ _) | split | dsimp only | refine hf1 _ _ ?_ | refine hf2 _ _ ?_ | refine hf3 _ _ ?_); clear_value f1)
  | (extract_lets +onlyGivenNames s1; have h1 : Keeps 256 s s1 := (by unfold s1; repeat' first | exact Keeps.refl _ | assumption | decide | refine setExpander_keeps ?_ ?_ | refine setSlot_keeps ?_ ?_ | refine setUpExpander_keeps ?_ ?_ | refine slotInputs_keeps ?_ ?_ | refine Keeps.ite ?_ ?_ | (intro _ _) | split | dsimp only | refine hf1 _ _ ?_ | refine hf2 _ _ ?_ | refine hf3 _ _ ?_); clear_value s1)
  | (extract_lets +onlyGivenNames x1; clear_value x1)
  | refine setExpander_keeps ?_ ?_
  | refine setSlot_keeps ?_ ?_
  | refine setUpExpander_keeps ?_ ?_
  | refine slotInputs_keeps ?_ ?_
  | refine Keeps.ite ?_ ?_
  | (intro _ _)
  | split
  | dsimp only
  | refine hf1 _ _ ?_

theorem expanderFails_keeps {mk : Nat} {sk : State} {s : State} {e : Nat} {again : Bool} (hk : Keeps mk sk s) (hm : 7364864 &&& mk = 7364864) :
    Keeps mk sk (expanderFails s e again) := by
  suffices g : Keeps 7364864 s (expanderFails s e again) from hk.trans (g.weaken hm)
  unfold expanderFails
  with_reducible repeat' first
  | exact Keeps.refl _
  | assumption
  | decide
  | (extract_lets +onlyGivenNames f1; have hf1 : ∀ u a, Keeps 7364864 s u → Keeps 7364864 s (f1 u a) := (by intro u a hu; unfold f1; repeat' first | exact Keeps.refl _ | assumption | decide | refine event_keeps ?_ ?_ | refine setExpander_keeps ?_ ?_ | refine setSlot_keeps ?_ ?_ | refine Keeps.ite ?_ ?_ | (intro _ _) | split | dsimp only | refine hf1 _ _ ?_ | refine hf2 _ _ ?_ | refine hf3 _ _ ?_); clear_value f1)
  | (extract_lets +onlyGivenNames s1; have h1 : Keeps 7364864 s s1 := (by unfold s1; repeat' first | exact Keeps.refl _ | assumption | decide | refine event_keeps ?_ ?_ | refine setExpander_keeps ?_ ?_ | refine setSlot_keeps ?_ ?_ | refine Keeps.ite ?_ ?_ | (intro _ _) | split | dsimp only | refine hf1 _ _ ?_ | refine hf2 _ _ ?_ | refine hf3 _ _ ?_); clear_value s1)
  | (extract_lets +onlyGivenNames x1; clear_value x1)
  | refine event_keeps ?_ ?_
  | refine setExpander_keeps ?_ ?_
  | refine setSlot_keeps ?_ ?_
  | refine Keeps.ite ?_ ?_
  | (intro _ _)
  | split
  | dsimp only
  | refine hf1 _ _ ?_

theorem readExpander_keeps {mk : Nat} {sk : State} {s : State} {e : Nat} {v : Option (BitVec 16)} {again : Bool} (hk : Keeps mk sk s) (hm : 7364864 &&& mk = 7364864) :
    Keeps mk sk (readExpander s e v again) := by
  suffices g : Keeps 7364864 s (readExpander s e v again) from hk.trans (g.weaken hm)
  unfold readExpander
  with_reducible repeat' first
  | exact Keeps.refl _
  | assumption
  | decide
  | refine expanderAnswers_keeps ?_ ?_
  | refine expanderFails_keeps ?_ ?_
  | refine Keeps.ite ?_ ?_
  | (intro _ _)
  | split
  | dsimp only

theorem readExpanders_keeps {mk : Nat} {sk : State} {s : State} {inputs : List (Option (BitVec 16))} (hk : Keeps mk sk s) (hm : 7364864 &&& mk = 7364864) :
    Keeps mk sk (readExpanders s inputs) := by
  suffices g : Keeps 7364864 s (readExpanders s inputs) from hk.trans (g.weaken hm)
  unfold readExpanders
  with_reducible repeat' first
  | exact Keeps.refl _
  | assumption
  | decide
  | refine readExpander_keeps ?_ ?_
  | refine Keeps.foldl ?_ _ (fun u a hu => ?_)
  | refine Keeps.foldlFst ?_ _ (fun u a hu => ?_)
  | (intro _ _)
  | split
  | dsimp only

theorem expanderInterrupt_keeps {mk : Nat} {sk : State} {inputs : List (Option (BitVec 16))} {s : State} (hk : Keeps mk sk s) (hm : 7364864 &&& mk = 7364864) :
    Keeps mk sk (expanderInterrupt inputs s) := by
  suffices g : Keeps 7364864 s (expanderInterrupt inputs s) from hk.trans (g.weaken hm)
  unfold expanderInterrupt
  with_reducible repeat' first
  | exact Keeps.refl _
  | assumption
  | decide
  | refine readExpanders_keeps ?_ ?_
  | refine Keeps.ite ?_ ?_
  | (intro _ _)
  | split
  | dsimp only

theorem execExpanderInterrupt_keeps {mk : Nat} {sk : State} {inputs : List (Option (BitVec 16))} {s : State} (hk : Keeps mk sk s) (hm : 7364864 &&& mk = 7364864) :
    ∃ t', execExpanderInterrupt inputs s = .next t' ∧ Keeps mk sk t' := by
  suffices g : ∃ t', execExpanderInterrupt inputs s = .next t' ∧ Keeps 7364864 s t' from g.imp fun _ h => ⟨h.1, hk.trans (h.2.weaken hm)⟩
  refine ⟨_, rfl, ?_⟩
  with_reducible repeat' first
  | exact Keeps.refl _
  | assumption
  | decide
  | refine expanderInterrupt_keeps ?_ ?_
  | (intro _ _)
  | split
  | dsimp only

theorem expanderPoll_keeps {mk : Nat} {sk : State} {inputs : List (Option (BitVec 16))} {s : State} (hk : Keeps mk sk s) (hm : 7364864 &&& mk = 7364864) :
    Keeps mk sk (expanderPoll inputs s) := by
  suffices g : Keeps 7364864 s (expanderPoll inputs s) from hk.trans (g.weaken hm)
  unfold expanderPoll
  with_reducible repeat' first
  | exact Keeps.refl _
  | assumption
  | decide
  | refine readExpanders_keeps ?_ ?_
  | refine Keeps.ite ?_ ?_
  | (fail_if_no_progress refine Keeps.warp' ?_ _ rfl)
  | (intro _ _)
  | split
  | dsimp only

theorem execExpanderPoll_keeps {mk : Nat} {sk : State} {inputs : List (Option (BitVec 16))} {s : State} (hk : Keeps mk sk s) (hm : 7364864 &&& mk = 7364864) :
    ∃ t', execExpanderPoll inputs s = .next t' ∧ Keeps mk sk t' := by
  suffices g : ∃ t', execExpanderPoll inputs s = .next t' ∧ Keeps 7364864 s t' from g.imp fun _ h => ⟨h.1, hk.trans (h.2.weaken hm)⟩
  refine ⟨_, rfl, ?_⟩
  with_reducible repeat' first
  | exact Keeps.refl _
  | assumption
  | decide
  | refine expanderPoll_keeps ?_ ?_
  | (intro _ _)
  | split
  | dsimp only

theorem expanderRetry_keeps {mk : Nat} {sk : State} {e : Nat} {input : Option (BitVec 16)} {s : State} (hk : Keeps mk sk s) (hm : 7364864 &&& mk = 7364864) :
    Keeps mk sk (expanderRetry e input s) := by
  suffices g : Keeps 7364864 s (expanderRetry e input s) from hk.trans (g.weaken hm)
  unfold expanderRetry
  with_reducible repeat' first
  | exact Keeps.refl _
  | assumption
  | decide
  | (extract_lets +onlyGivenNames s1; have h1 : Keeps 7364864 s s1 := (by unfold s1; repeat' first | exact Keeps.refl _ | assumption | decide | refine readExpander_keeps ?_ ?_ | refine Keeps.ite ?_ ?_ | (intro _ _) | split | dsimp only); clear_value s1)
  | (extract_lets +onlyGivenNames x1; clear_value x1)
  | refine readExpander_keeps ?_ ?_
  | refine Keeps.ite ?_ ?_
  | (intro _ _)
  | split
  | dsimp only

theorem execExpanderRetry_keeps {mk : Nat} {sk : State} {e : Expander} {input : Option (BitVec 16)} {s : State} (hk : Keeps mk sk s) (hm : 7364864 &&& mk = 7364864) :
    ∃ t', execExpanderRetry e input s = .next t' ∧ Keeps mk sk t' := by
  suffices g : ∃ t', execExpanderRetry e input s = .next t' ∧ Keeps 7364864 s t' from g.imp fun _ h => ⟨h.1, hk.trans (h.2.weaken hm)⟩
  refine ⟨_, rfl, ?_⟩
  with_reducible repeat' first
  | exact Keeps.refl _
  | assumption
  | decide
  | refine expanderRetry_keeps ?_ ?_
  | (intro _ _)
  | split
  | dsimp only

theorem inputEffect_keeps {mk : Nat} {sk : State} {s : State} {k : Nat} {i : Nat} {level : Bool} (hk : Keeps mk sk s) (hm : 8059776 &&& mk = 8059776) :
    Keeps mk sk (inputEffect s k i level) := by
  suffices g : Keeps 8059776 s (inputEffect s k i level) from hk.trans (g.weaken hm)
  unfold inputEffect
  with_reducible repeat' first
  | exact Keeps.refl _
  | assumption
  | decide
  | (extract_lets +onlyGivenNames s1; have h1 : Keeps 8059776 s s1 := (by unfold s1; repeat' first | exact Keeps.refl _ | assumption | decide | refine driveSlot_keeps ?_ ?_ | refine setSlot_keeps ?_ ?_ | refine setWarp_keeps ?_ ?_ | refine slotEvent_keeps ?_ ?_ | refine surpriseEnter_keeps ?_ ?_ | refine Keeps.ite ?_ ?_ | (intro _ _) | split | dsimp only); clear_value s1)
  | (extract_lets +onlyGivenNames x1; clear_value x1)
  | refine driveSlot_keeps ?_ ?_
  | refine setSlot_keeps ?_ ?_
  | refine setWarp_keeps ?_ ?_
  | refine slotEvent_keeps ?_ ?_
  | refine surpriseEnter_keeps ?_ ?_
  | refine Keeps.ite ?_ ?_
  | (intro _ _)
  | split
  | dsimp only

theorem hpInputDebounced_keeps {mk : Nat} {sk : State} {k : Nat} {i : Nat} {s : State} (hk : Keeps mk sk s) (hm : 8059776 &&& mk = 8059776) :
    Keeps mk sk (hpInputDebounced k i s) := by
  suffices g : Keeps 8059776 s (hpInputDebounced k i s) from hk.trans (g.weaken hm)
  unfold hpInputDebounced
  with_reducible repeat' first
  | exact Keeps.refl _
  | assumption
  | decide
  | (extract_lets +onlyGivenNames s1; have h1 : Keeps 8059776 s s1 := (by unfold s1; repeat' first | exact Keeps.refl _ | assumption | decide | refine inputEffect_keeps ?_ ?_ | refine setSlot_keeps ?_ ?_ | refine Keeps.ite ?_ ?_ | (intro _ _) | split | dsimp only); clear_value s1)
  | (extract_lets +onlyGivenNames x1; clear_value x1)
  | refine inputEffect_keeps ?_ ?_
  | refine setSlot_keeps ?_ ?_
  | refine Keeps.ite ?_ ?_
  | (intro _ _)
  | split
  | dsimp only

theorem execHpInputDebounced_keeps {mk : Nat} {sk : State} {k : Slot} {bit : Fin 4} {s : State} (hk : Keeps mk sk s) (hm : 8059776 &&& mk = 8059776) :
    ∃ t', execHpInputDebounced k bit s = .next t' ∧ Keeps mk sk t' := by
  suffices g : ∃ t', execHpInputDebounced k bit s = .next t' ∧ Keeps 8059776 s t' from g.imp fun _ h => ⟨h.1, hk.trans (h.2.weaken hm)⟩
  refine ⟨_, rfl, ?_⟩
  with_reducible repeat' first
  | exact Keeps.refl _
  | assumption
  | decide
  | refine hpInputDebounced_keeps ?_ ?_
  | (intro _ _)
  | split
  | dsimp only

theorem proxyFor_keeps {mk : Nat} {sk : State} {s : State} {p : Nat} {v : Nat} {o : Origin} (hk : Keeps mk sk s) (hm : 7364864 &&& mk = 7364864) :
    Keeps mk sk (proxyFor s p v o).1 := by
  suffices g : Keeps 7364864 s (proxyFor s p v o).1 from hk.trans (g.weaken hm)
  unfold proxyFor
  with_reducible repeat' first
  | exact Keeps.refl _
  | assumption
  | decide
  | (extract_lets +onlyGivenNames s1; have h1 : Keeps 7364864 s s1 := (by unfold s1; repeat' first | exact Keeps.refl _ | assumption | decide | refine count_keeps ?_ ?_ | refine event_keeps ?_ ?_ | refine setWarp_keeps ?_ ?_ | refine Keeps.ite ?_ ?_ | refine Keeps.iteFst ?_ ?_ | (intro _ _) | split | dsimp only); clear_value s1)
  | (extract_lets +onlyGivenNames x1; clear_value x1)
  | refine count_keeps ?_ ?_
  | refine event_keeps ?_ ?_
  | refine setWarp_keeps ?_ ?_
  | refine Keeps.ite ?_ ?_
  | refine Keeps.iteFst ?_ ?_
  | (intro _ _)
  | split
  | dsimp only

theorem actProxyFree_keeps {mk : Nat} {sk : State} {sess : Nat} {s : State} (hk : Keeps mk sk s) (hm : 256 &&& mk = 256) :
    Keeps mk sk (actProxyFree sess s) := by
  suffices g : Keeps 256 s (actProxyFree sess s) from hk.trans (g.weaken hm)
  unfold actProxyFree
  with_reducible repeat' first
  | exact Keeps.refl _
  | assumption
  | decide
  | (extract_lets +onlyGivenNames s1; have h1 : Keeps 256 s s1 := (by unfold s1; repeat' first | exact Keeps.refl _ | assumption | decide | refine setWarp_keeps ?_ ?_ | (intro _ _) | split | dsimp only); clear_value s1)
  | (extract_lets +onlyGivenNames x1; clear_value x1)
  | refine setWarp_keeps ?_ ?_
  | (intro _ _)
  | split
  | dsimp only

theorem execProxyFree_keeps {mk : Nat} {sk : State} {sess : Nat} {value : Nat} {s : State} (hk : Keeps mk sk s) (hm : 1310976 &&& mk = 1310976) :
    ∃ t', execProxyFree sess value s = .next t' ∧ Keeps mk sk t' := by
  suffices g : ∃ t', execProxyFree sess value s = .next t' ∧ Keeps 1310976 s t' from g.imp fun _ h => ⟨h.1, hk.trans (h.2.weaken hm)⟩
  refine ⟨_, rfl, ?_⟩
  with_reducible repeat' first
  | exact Keeps.refl _
  | assumption
  | decide
  | refine actProxyFree_keeps ?_ ?_
  | refine actWrite_keeps ?_ rfl (fun u hu => ?_) (fun u hu => ?_)
  | refine onOne_keeps ?_ (fun u hu => ?_)
  | refine Keeps.ite ?_ ?_
  | simp only [id_eq]
  | (intro _ _)
  | split
  | dsimp only

theorem mcastGroupEnable_keeps {mk : Nat} {sk : State} {v : Nat} {group : Nat} {s : State} (hk : Keeps mk sk s) (hm : 7364864 &&& mk = 7364864) :
    Keeps mk sk (mcastGroupEnable v group s) := by
  suffices g : Keeps 7364864 s (mcastGroupEnable v group s) from hk.trans (g.weaken hm)
  unfold mcastGroupEnable
  with_reducible repeat' first
  | exact Keeps.refl _
  | assumption
  | decide
  | (extract_lets +onlyGivenNames s1; have h1 : Keeps 7364864 s s1 := (by unfold s1; repeat' first | exact Keeps.refl _ | assumption | decide | refine eventIn_keeps ?_ ?_ | refine setPart_keeps ?_ ?_ | refine Keeps.ite ?_ ?_ | (intro _ _) | split | dsimp only); clear_value s1)
  | (extract_lets +onlyGivenNames x1; clear_value x1)
  | refine eventIn_keeps ?_ ?_
  | refine setPart_keeps ?_ ?_
  | refine Keeps.ite ?_ ?_
  | (intro _ _)
  | split
  | dsimp only

theorem execMcastGroupEnable_keeps {mk : Nat} {sk : State} {v : Vs} {group : Fin 64} {s : State} (hk : Keeps mk sk s) (hm : 7364864 &&& mk = 7364864) :
    ∃ t', execMcastGroupEnable v group s = .next t' ∧ Keeps mk sk t' := by
  suffices g : ∃ t', execMcastGroupEnable v group s = .next t' ∧ Keeps 7364864 s t' from g.imp fun _ h => ⟨h.1, hk.trans (h.2.weaken hm)⟩
  refine ⟨_, rfl, ?_⟩
  with_reducible repeat' first
  | exact Keeps.refl _
  | assumption
  | decide
  | refine mcastGroupEnable_keeps ?_ ?_
  | (intro _ _)
  | split
  | dsimp only

/-! ### Route -/

theorem noRoute_keeps {mk : Nat} {sk : State} {s : State} {mid : Nat} (hk : Keeps mk sk s) (hm : 7364608 &&& mk = 7364608) :
    Keeps mk sk (noRoute s mid) := by
  suffices g : Keeps 7364608 s (noRoute s mid) from hk.trans (g.weaken hm)
  unfold noRoute
  with_reducible repeat' first
  | exact Keeps.refl _
  | assumption
  | decide
  | refine event_keeps ?_ ?_
  | refine rateEvent_keeps ?_ rfl (fun u a hu => ?_)
  | (intro _ _)
  | split
  | dsimp only

theorem launch_keeps {mk : Nat} {sk : State} {s : State} {c : Nat} {o : WireOp} (hk : Keeps mk sk s) (hm : 7367552 &&& mk = 7367552) :
    Keeps mk sk (launch s c o) := by
  suffices g : Keeps 7367552 s (launch s c o) from hk.trans (g.weaken hm)
  unfold launch
  with_reducible repeat' first
  | exact Keeps.refl _
  | assumption
  | decide
  | (extract_lets +onlyGivenNames q1; have hq1 : Keeps 7367552 s q1.1 := (by unfold q1; repeat' first | exact Keeps.refl _ | assumption | decide | refine enqueueOper_keeps ?_ ?_ | refine noRoute_keeps ?_ ?_ | refine storeChain_keeps ?_ ?_ | refine Keeps.ite ?_ ?_ | refine Keeps.iteFst ?_ ?_ | (fail_if_no_progress refine Keeps.shu' ?_ _ rfl) | (intro _ _) | split | dsimp only); clear_value q1)
  | (extract_lets +onlyGivenNames s1; have h1 : Keeps 7367552 s s1 := (by unfold s1; repeat' first | exact Keeps.refl _ | assumption | decide | refine enqueueOper_keeps ?_ ?_ | refine noRoute_keeps ?_ ?_ | refine storeChain_keeps ?_ ?_ | refine Keeps.ite ?_ ?_ | refine Keeps.iteFst ?_ ?_ | (fail_if_no_progress refine Keeps.shu' ?_ _ rfl) | (intro _ _) | split | dsimp only); clear_value s1)
  | (extract_lets +onlyGivenNames x1; clear_value x1)
  | refine enqueueOper_keeps ?_ ?_
  | refine noRoute_keeps ?_ ?_
  | refine storeChain_keeps ?_ ?_
  | refine Keeps.ite ?_ ?_
  | refine Keeps.iteFst ?_ ?_
  | (fail_if_no_progress refine Keeps.shu' ?_ _ rfl)
  | (intro _ _)
  | split
  | dsimp only

theorem launchPort_keeps {mk : Nat} {sk : State} {s : State} {p : Nat} {o : WireOp} (hk : Keeps mk sk s) (hm : 7365504 &&& mk = 7365504) :
    Keeps mk sk (launchPort s p o) := by
  suffices g : Keeps 7365504 s (launchPort s p o) from hk.trans (g.weaken hm)
  unfold launchPort
  with_reducible repeat' first
  | exact Keeps.refl _
  | assumption
  | decide
  | (extract_lets +onlyGivenNames q1; have hq1 : Keeps 7365504 s q1.1 := (by unfold q1; repeat' first | exact Keeps.refl _ | assumption | decide | refine enqueueOper_keeps ?_ ?_ | refine storeChain_keeps ?_ ?_ | (intro _ _) | split | dsimp only); clear_value q1)
  | (extract_lets +onlyGivenNames s1; have h1 : Keeps 7365504 s s1 := (by unfold s1; repeat' first | exact Keeps.refl _ | assumption | decide | refine enqueueOper_keeps ?_ ?_ | refine storeChain_keeps ?_ ?_ | (intro _ _) | split | dsimp only); clear_value s1)
  | (extract_lets +onlyGivenNames x1; clear_value x1)
  | refine enqueueOper_keeps ?_ ?_
  | refine storeChain_keeps ?_ ?_
  | (intro _ _)
  | split
  | dsimp only

theorem sendControl_keeps {mk : Nat} {sk : State} {s : State} {c : Nat} {cid : Nat} {typ : Nat} {word : Nat} {seq : Nat} {srcPort : Nat} {dstPort : Nat} (hk : Keeps mk sk s) (hm : 7367552 &&& mk = 7367552) :
    Keeps mk sk (sendControl s c cid typ word seq srcPort dstPort) := by
  suffices g : Keeps 7367552 s (sendControl s c cid typ word seq srcPort dstPort) from hk.trans (g.weaken hm)
  unfold sendControl
  with_reducible repeat' first
  | exact Keeps.refl _
  | assumption
  | decide
  | (extract_lets +onlyGivenNames s1; have h1 : Keeps 7367552 s s1 := (by unfold s1; repeat' first | exact Keeps.refl _ | assumption | decide | refine launch_keeps ?_ ?_ | refine setConn_keeps ?_ ?_ | (intro _ _) | split | dsimp only); clear_value s1)
  | (extract_lets +onlyGivenNames x1; clear_value x1)
  | refine launch_keeps ?_ ?_
  | refine setConn_keeps ?_ ?_
  | (intro _ _)
  | split
  | dsimp only

theorem sendOpen_keeps {mk : Nat} {sk : State} {s : State} {mid : Nat} {own : Nat} {env : Nat} {word : Nat} (hk : Keeps mk sk s) (hm : 7367552 &&& mk = 7367552) :
    Keeps mk sk (sendOpen s mid own env word) := by
  suffices g : Keeps 7367552 s (sendOpen s mid own env word) from hk.trans (g.weaken hm)
  unfold sendOpen
  with_reducible repeat' first
  | exact Keeps.refl _
  | assumption
  | decide
  | (extract_lets +onlyGivenNames s1; have h1 : Keeps 7367552 s s1 := (by unfold s1; repeat' first | exact Keeps.refl _ | assumption | decide | refine afterDraw_keeps ?_ ?_ | refine launch_keeps ?_ ?_ | refine Keeps.ite ?_ ?_ | (intro _ _) | split | dsimp only); clear_value s1)
  | (extract_lets +onlyGivenNames x1; clear_value x1)
  | refine afterDraw_keeps ?_ ?_
  | refine launch_keeps ?_ ?_
  | refine Keeps.ite ?_ ?_
  | (intro _ _)
  | split
  | dsimp only

theorem connEvent_keeps {mk : Nat} {sk : State} {s : State} {c : Nat} {code : Nat} {extra : Nat} (hk : Keeps mk sk s) (hm : 7364608 &&& mk = 7364608) :
    Keeps mk sk (connEvent s c code extra) := by
  suffices g : Keeps 7364608 s (connEvent s c code extra) from hk.trans (g.weaken hm)
  unfold connEvent
  with_reducible repeat' first
  | exact Keeps.refl _
  | assumption
  | decide
  | refine eventIn_keeps ?_ ?_
  | (intro _ _)
  | split
  | dsimp only

theorem connError_keeps {mk : Nat} {sk : State} {s : State} {c : Nat} {code : Nat} {extra : Nat} (hk : Keeps mk sk s) (hm : 7364608 &&& mk = 7364608) :
    Keeps mk sk (connError s c code extra) := by
  suffices g : Keeps 7364608 s (connError s c code extra) from hk.trans (g.weaken hm)
  unfold connError
  with_reducible repeat' first
  | exact Keeps.refl _
  | assumption
  | decide
  | refine eventFull_keeps ?_ ?_
  | (intro _ _)
  | split
  | dsimp only

/-! ### Windows -/

theorem setWin_keeps {mk : Nat} {sk : State} {s : State} {w : Nat} {x : Window} (hk : Keeps mk sk s) (hm : 4096 &&& mk = 4096) :
    Keeps mk sk (setWin s w x) := by
  suffices g : Keeps 4096 s (setWin s w x) from hk.trans (g.weaken hm)
  unfold setWin
  with_reducible repeat' first
  | exact Keeps.refl _
  | assumption
  | decide
  | (fail_if_no_progress refine Keeps.win' ?_ _ rfl)
  | (intro _ _)
  | split
  | dsimp only

theorem winEvent_keeps {mk : Nat} {sk : State} {s : State} {v : Nat} {code : Nat} {info : Nat} (hk : Keeps mk sk s) (hm : 7364608 &&& mk = 7364608) :
    Keeps mk sk (winEvent s v code info) := by
  suffices g : Keeps 7364608 s (winEvent s v code info) from hk.trans (g.weaken hm)
  unfold winEvent
  with_reducible repeat' first
  | exact Keeps.refl _
  | assumption
  | decide
  | refine eventIn_keeps ?_ ?_
  | (intro _ _)
  | split
  | dsimp only

theorem openWindow_keeps {mk : Nat} {sk : State} {s : State} {v : Nat} {w : Nat} {i : Window} (hk : Keeps mk sk s) (hm : 7368704 &&& mk = 7368704) :
    Keeps mk sk (openWindow s v w i) := by
  suffices g : Keeps 7368704 s (openWindow s v w i) from hk.trans (g.weaken hm)
  unfold openWindow
  with_reducible repeat' first
  | exact Keeps.refl _
  | assumption
  | decide
  | (extract_lets +onlyGivenNames s1; have h1 : Keeps 7368704 s s1 := (by unfold s1; repeat' first | exact Keeps.refl _ | assumption | decide | refine count_keeps ?_ ?_ | refine setWin_keeps ?_ ?_ | refine winEvent_keeps ?_ ?_ | refine Keeps.ite ?_ ?_ | (intro _ _) | split | dsimp only); clear_value s1)
  | (extract_lets +onlyGivenNames x1; clear_value x1)
  | refine count_keeps ?_ ?_
  | refine setWin_keeps ?_ ?_
  | refine winEvent_keeps ?_ ?_
  | refine Keeps.ite ?_ ?_
  | (intro _ _)
  | split
  | dsimp only

theorem openRefused_keeps {mk : Nat} {sk : State} {s : State} {v : Nat} {w : Nat} {status : Nat} (hk : Keeps mk sk s) (hm : 7364608 &&& mk = 7364608) :
    Keeps mk sk (openRefused s v w status) := by
  suffices g : Keeps 7364608 s (openRefused s v w status) from hk.trans (g.weaken hm)
  unfold openRefused
  with_reducible repeat' first
  | exact Keeps.refl _
  | assumption
  | decide
  | (extract_lets +onlyGivenNames s1; have h1 : Keeps 7364608 s s1 := (by unfold s1; repeat' first | exact Keeps.refl _ | assumption | decide | refine winEvent_keeps ?_ ?_ | refine Keeps.ite ?_ ?_ | (intro _ _) | split | dsimp only); clear_value s1)
  | (extract_lets +onlyGivenNames x1; clear_value x1)
  | refine winEvent_keeps ?_ ?_
  | refine Keeps.ite ?_ ?_
  | (intro _ _)
  | split
  | dsimp only

theorem startRevoke_keeps {mk : Nat} {sk : State} {s : State} {w : Nat} (hk : Keeps mk sk s) (hm : 1052672 &&& mk = 1052672) :
    Keeps mk sk (startRevoke s w) := by
  suffices g : Keeps 1052672 s (startRevoke s w) from hk.trans (g.weaken hm)
  unfold startRevoke
  with_reducible repeat' first
  | exact Keeps.refl _
  | assumption
  | decide
  | (extract_lets +onlyGivenNames s1; have h1 : Keeps 1052672 s s1 := (by unfold s1; repeat' first | exact Keeps.refl _ | assumption | decide | refine count_keeps ?_ ?_ | refine setWin_keeps ?_ ?_ | (intro _ _) | split | dsimp only); clear_value s1)
  | (extract_lets +onlyGivenNames x1; clear_value x1)
  | refine count_keeps ?_ ?_
  | refine setWin_keeps ?_ ?_
  | (intro _ _)
  | split
  | dsimp only

theorem endRevoke_keeps {mk : Nat} {sk : State} {s : State} {w : Nat} (hk : Keeps mk sk s) (hm : 7368704 &&& mk = 7368704) :
    Keeps mk sk (endRevoke s w) := by
  suffices g : Keeps 7368704 s (endRevoke s w) from hk.trans (g.weaken hm)
  unfold endRevoke
  with_reducible repeat' first
  | exact Keeps.refl _
  | assumption
  | decide
  | (extract_lets +onlyGivenNames s1; have h1 : Keeps 7368704 s s1 := (by unfold s1; repeat' first | exact Keeps.refl _ | assumption | decide | refine setWin_keeps ?_ ?_ | refine winEvent_keeps ?_ ?_ | refine Keeps.ite ?_ ?_ | (intro _ _) | split | dsimp only); clear_value s1)
  | (extract_lets +onlyGivenNames x1; clear_value x1)
  | refine setWin_keeps ?_ ?_
  | refine winEvent_keeps ?_ ?_
  | refine Keeps.ite ?_ ?_
  | (intro _ _)
  | split
  | dsimp only

theorem freeWindow_keeps {mk : Nat} {sk : State} {s : State} {w : Nat} (hk : Keeps mk sk s) (hm : 4096 &&& mk = 4096) :
    Keeps mk sk (freeWindow s w) := by
  suffices g : Keeps 4096 s (freeWindow s w) from hk.trans (g.weaken hm)
  unfold freeWindow
  with_reducible repeat' first
  | exact Keeps.refl _
  | assumption
  | decide
  | (extract_lets +onlyGivenNames s1; have h1 : Keeps 4096 s s1 := (by unfold s1; repeat' first | exact Keeps.refl _ | assumption | decide | refine setWin_keeps ?_ ?_ | (intro _ _) | split | dsimp only); clear_value s1)
  | (extract_lets +onlyGivenNames x1; clear_value x1)
  | refine setWin_keeps ?_ ?_
  | (intro _ _)
  | split
  | dsimp only

theorem takeCache_keeps {mk : Nat} {sk : State} {s : State} {w : Nat} {c : Nat} {seq : Nat} {tag : Nat} (hk : Keeps mk sk s) (hm : 4096 &&& mk = 4096) :
    Keeps mk sk (takeCache s w c seq tag) := by
  suffices g : Keeps 4096 s (takeCache s w c seq tag) from hk.trans (g.weaken hm)
  unfold takeCache
  with_reducible repeat' first
  | exact Keeps.refl _
  | assumption
  | decide
  | (extract_lets +onlyGivenNames s1; have h1 : Keeps 4096 s s1 := (by unfold s1; repeat' first | exact Keeps.refl _ | assumption | decide | refine setWin_keeps ?_ ?_ | refine Keeps.ite ?_ ?_ | (intro _ _) | split | dsimp only); clear_value s1)
  | (extract_lets +onlyGivenNames x1; clear_value x1)
  | refine setWin_keeps ?_ ?_
  | refine Keeps.ite ?_ ?_
  | (intro _ _)
  | split
  | dsimp only

/-- The state a delivery leaves. -/
def deliveryState : Delivery → State
  | .delivered s _ => s
  | .refused s _ => s
  | .discarded s => s

theorem deliveryIte {m : Nat} {s : State} {a b : Delivery} {c : Prop} {_ : Decidable c} (ha : Keeps m s (deliveryState a))
    (hb : Keeps m s (deliveryState b)) : Keeps m s (deliveryState (if c then a else b)) := by
  split
  · exact ha
  · exact hb

theorem deliverRequest_keeps {mk : Nat} {sk s : State} {c src typ tc ord gen seq srcPort dstPort : Nat} {h : ReqHead} {data : List Byte} (hk : Keeps mk sk s) (hm : 7371648 &&& mk = 7371648) :
    Keeps mk sk (deliveryState (deliverRequest s c src typ tc ord gen seq srcPort dstPort h data)) := by
  suffices g : Keeps 7371648 s (deliveryState (deliverRequest s c src typ tc ord gen seq srcPort dstPort h data)) from hk.trans (g.weaken hm)
  unfold deliverRequest
  with_reducible repeat' first
  | with_reducible exact Keeps.refl _
  | with_reducible assumption
  | decide
  | (extract_lets +onlyGivenNames q1; have hq1 : Keeps 7371648 s q1.1 := (by unfold q1; repeat' first | with_reducible exact Keeps.refl _ | with_reducible assumption | decide | refine count_keeps ?_ ?_ | refine denied_keeps ?_ ?_ | refine drawMark_keeps ?_ ?_ | refine enqueueTlp_keeps ?_ ?_ | refine filterItem_keeps ?_ ?_ | refine passed_keeps ?_ ?_ | refine rateEvent_keeps ?_ rfl (fun u a hu => ?_) | refine setConn_keeps ?_ ?_ | refine setWin_keeps ?_ ?_ | refine takeCache_keeps ?_ ?_ | refine winEvent_keeps ?_ ?_ | refine Keeps.ite ?_ ?_ | refine Keeps.iteFst ?_ ?_ | refine Keeps.ofPair (by assumption) ?_ | (fail_if_no_progress refine Keeps.win' ?_ _ rfl) | (intro _ _) | split | dsimp only); clear_value q1)
  | (extract_lets +onlyGivenNames s1; have h1 : Keeps 7371648 s s1 := (by unfold s1; repeat' first | with_reducible exact Keeps.refl _ | with_reducible assumption | decide | refine count_keeps ?_ ?_ | refine denied_keeps ?_ ?_ | refine drawMark_keeps ?_ ?_ | refine enqueueTlp_keeps ?_ ?_ | refine filterItem_keeps ?_ ?_ | refine passed_keeps ?_ ?_ | refine rateEvent_keeps ?_ rfl (fun u a hu => ?_) | refine setConn_keeps ?_ ?_ | refine setWin_keeps ?_ ?_ | refine takeCache_keeps ?_ ?_ | refine winEvent_keeps ?_ ?_ | refine Keeps.ite ?_ ?_ | refine Keeps.iteFst ?_ ?_ | refine Keeps.ofPair (by assumption) ?_ | (fail_if_no_progress refine Keeps.win' ?_ _ rfl) | (intro _ _) | split | dsimp only); clear_value s1)
  | (extract_lets +onlyGivenNames x1; clear_value x1)
  | refine deliveryIte ?_ ?_
  | refine count_keeps ?_ ?_
  | refine denied_keeps ?_ ?_
  | refine drawMark_keeps ?_ ?_
  | refine enqueueTlp_keeps ?_ ?_
  | refine filterItem_keeps ?_ ?_
  | refine passed_keeps ?_ ?_
  | refine rateEvent_keeps ?_ rfl (fun u a hu => ?_)
  | refine setConn_keeps ?_ ?_
  | refine setWin_keeps ?_ ?_
  | refine takeCache_keeps ?_ ?_
  | refine winEvent_keeps ?_ ?_
  | refine Keeps.ite ?_ ?_
  | refine Keeps.iteFst ?_ ?_
  | refine Keeps.ofPair (by assumption) ?_
  | (fail_if_no_progress refine Keeps.win' ?_ _ rfl)
  | (intro _ _)
  | split
  | dsimp only
  | unfold deliveryState

theorem deliverRequest_delivered {mk : Nat} {sk s t' : State} {b' : Bool} {c src typ tc ord gen seq srcPort dstPort : Nat} {h : ReqHead} {data : List Byte} (hk : Keeps mk sk s) (hm : 7371648 &&& mk = 7371648)
    (e : deliverRequest s c src typ tc ord gen seq srcPort dstPort h data = .delivered t' b') : Keeps mk sk t' := by
  have g := deliverRequest_keeps (c := c) (src := src) (typ := typ) (tc := tc) (ord := ord) (gen := gen) (seq := seq) (srcPort := srcPort)
    (dstPort := dstPort) (h := h) (data := data) hk hm
  rw [e] at g
  exact g

theorem deliverRequest_discarded {mk : Nat} {sk s t' : State} {c src typ tc ord gen seq srcPort dstPort : Nat} {h : ReqHead} {data : List Byte} (hk : Keeps mk sk s) (hm : 7371648 &&& mk = 7371648)
    (e : deliverRequest s c src typ tc ord gen seq srcPort dstPort h data = .discarded t') : Keeps mk sk t' := by
  have g := deliverRequest_keeps (c := c) (src := src) (typ := typ) (tc := tc) (ord := ord) (gen := gen) (seq := seq) (srcPort := srcPort)
    (dstPort := dstPort) (h := h) (data := data) hk hm
  rw [e] at g
  exact g

theorem deliverRequest_refused {mk : Nat} {sk s t' : State} {n' : Nat} {c src typ tc ord gen seq srcPort dstPort : Nat} {h : ReqHead} {data : List Byte} (hk : Keeps mk sk s) (hm : 7371648 &&& mk = 7371648)
    (e : deliverRequest s c src typ tc ord gen seq srcPort dstPort h data = .refused t' n') : Keeps mk sk t' := by
  have g := deliverRequest_keeps (c := c) (src := src) (typ := typ) (tc := tc) (ord := ord) (gen := gen) (seq := seq) (srcPort := srcPort)
    (dstPort := dstPort) (h := h) (data := data) hk hm
  rw [e] at g
  exact g

theorem visible_keeps {mk : Nat} {sk : State} {s : State} {u : Unseen} (hk : Keeps mk sk s) (hm : 6144 &&& mk = 6144) :
    Keeps mk sk (visible s u) := by
  suffices g : Keeps 6144 s (visible s u) from hk.trans (g.weaken hm)
  unfold visible
  with_reducible repeat' first
  | exact Keeps.refl _
  | assumption
  | decide
  | refine writeDone_keeps ?_ ?_
  | (intro _ _)
  | split
  | dsimp only

theorem descMod_keeps {mk : Nat} {sk : State} {s : State} {t : Ticket} {f : DescState → DescState} (hk : Keeps mk sk s) (hm : 8192 &&& mk = 8192) :
    Keeps mk sk (descMod s t f) := by
  suffices g : Keeps 8192 s (descMod s t f) from hk.trans (g.weaken hm)
  unfold descMod
  with_reducible repeat' first
  | exact Keeps.refl _
  | assumption
  | decide
  | refine setInst_keeps ?_ ?_
  | refine Keeps.ite ?_ ?_
  | (intro _ _)
  | split
  | dsimp only

theorem descDone_keeps {mk : Nat} {sk : State} {s : State} {t : Ticket} {bytes : Nat} (hk : Keeps mk sk s) (hm : 8192 &&& mk = 8192) :
    Keeps mk sk (descDone s t bytes) := by
  suffices g : Keeps 8192 s (descDone s t bytes) from hk.trans (g.weaken hm)
  unfold descDone
  with_reducible repeat' first
  | exact Keeps.refl _
  | assumption
  | decide
  | refine descMod_keeps ?_ ?_
  | (intro _ _)
  | split
  | dsimp only

theorem descCond_keeps {mk : Nat} {sk : State} {s : State} {t : Ticket} {status : Nat} {detail : Nat} (hk : Keeps mk sk s) (hm : 8192 &&& mk = 8192) :
    Keeps mk sk (descCond s t status detail) := by
  suffices g : Keeps 8192 s (descCond s t status detail) from hk.trans (g.weaken hm)
  unfold descCond
  with_reducible repeat' first
  | exact Keeps.refl _
  | assumption
  | decide
  | refine descMod_keeps ?_ ?_
  | (intro _ _)
  | split
  | dsimp only

theorem translationFault_keeps {mk : Nat} {sk : State} {s : State} {i : Nat} {iova : Nat} {write : Bool} (hk : Keeps mk sk s) (hm : 7364608 &&& mk = 7364608) :
    Keeps mk sk (translationFault s i iova write) := by
  suffices g : Keeps 7364608 s (translationFault s i iova write) from hk.trans (g.weaken hm)
  unfold translationFault
  with_reducible repeat' first
  | exact Keeps.refl _
  | assumption
  | decide
  | refine count_keeps ?_ ?_
  | refine eventIn_keeps ?_ ?_
  | (intro _ _)
  | split
  | dsimp only

theorem localWrite_keeps {mk : Nat} {sk : State} {s : State} {i : Nat} {iova : Nat} {data : List Byte} (hk : Keeps mk sk s) (hm : 7364608 &&& mk = 7364608) :
    Keeps mk sk (localWrite s i iova data).1 := by
  suffices g : Keeps 7364608 s (localWrite s i iova data).1 from hk.trans (g.weaken hm)
  unfold localWrite
  with_reducible repeat' first
  | exact Keeps.refl _
  | assumption
  | decide
  | refine hostPost_keeps ?_ ?_
  | refine translationFault_keeps ?_ ?_
  | refine Keeps.ite ?_ ?_
  | refine Keeps.iteFst ?_ ?_
  | refine Keeps.foldl ?_ _ (fun u a hu => ?_)
  | refine Keeps.foldlFst ?_ _ (fun u a hu => ?_)
  | (intro _ _)
  | split
  | dsimp only

theorem fenceDone_keeps {mk : Nat} {sk : State} {s : State} {c : Nat} {seq : Nat} {status : Nat} {o : Origin} {tlp : Option Tlp} {ticket : Option Ticket} (hk : Keeps mk sk s) (hm : 7371648 &&& mk = 7371648) :
    Keeps mk sk (fenceDone s c seq status o tlp ticket) := by
  suffices g : Keeps 7371648 s (fenceDone s c seq status o tlp ticket) from hk.trans (g.weaken hm)
  unfold fenceDone
  with_reducible repeat' first
  | exact Keeps.refl _
  | assumption
  | decide
  | (extract_lets +onlyGivenNames s1; have h1 : Keeps 7371648 s s1 := (by unfold s1; repeat' first | exact Keeps.refl _ | assumption | decide | refine answer_keeps ?_ ?_ | refine connEvent_keeps ?_ ?_ | refine count_keeps ?_ ?_ | refine descCond_keeps ?_ ?_ | refine descDone_keeps ?_ ?_ | refine setConn_keeps ?_ ?_ | refine Keeps.ite ?_ ?_ | (intro _ _) | split | dsimp only); clear_value s1)
  | (extract_lets +onlyGivenNames x1; clear_value x1)
  | refine answer_keeps ?_ ?_
  | refine connEvent_keeps ?_ ?_
  | refine count_keeps ?_ ?_
  | refine descCond_keeps ?_ ?_
  | refine descDone_keeps ?_ ?_
  | refine setConn_keeps ?_ ?_
  | refine Keeps.ite ?_ ?_
  | (intro _ _)
  | split
  | dsimp only

theorem writeFailed_keeps {mk : Nat} {sk : State} {s : State} {c : Nat} {seq : Nat} {reason : Nat} {op : NewOp} (hk : Keeps mk sk s) (hm : 7501824 &&& mk = 7501824) :
    Keeps mk sk (writeFailed s c seq reason op) := by
  suffices g : Keeps 7501824 s (writeFailed s c seq reason op) from hk.trans (g.weaken hm)
  unfold writeFailed
  with_reducible repeat' first
  | exact Keeps.refl _
  | assumption
  | decide
  | (extract_lets +onlyGivenNames s1; have h1 : Keeps 7501824 s s1 := (by unfold s1; repeat' first | exact Keeps.refl _ | assumption | decide | refine event_keeps ?_ ?_ | refine eventFull_keeps ?_ ?_ | refine inboundFailed_keeps ?_ ?_ | refine postedFailure_keeps ?_ ?_ | refine setConn_keeps ?_ ?_ | refine Keeps.ite ?_ ?_ | (intro _ _) | split | dsimp only); clear_value s1)
  | (extract_lets +onlyGivenNames x1; clear_value x1)
  | refine event_keeps ?_ ?_
  | refine eventFull_keeps ?_ ?_
  | refine inboundFailed_keeps ?_ ?_
  | refine postedFailure_keeps ?_ ?_
  | refine setConn_keeps ?_ ?_
  | refine Keeps.ite ?_ ?_
  | (intro _ _)
  | split
  | dsimp only

theorem failOp_keeps {mk : Nat} {sk : State} {s : State} {c : Nat} {seq : Nat} {reason : Nat} {op : NewOp} {status : Nat} (hk : Keeps mk sk s) (hm : 7502720 &&& mk = 7502720) :
    Keeps mk sk (failOp s c seq reason op status) := by
  suffices g : Keeps 7502720 s (failOp s c seq reason op status) from hk.trans (g.weaken hm)
  unfold failOp
  with_reducible repeat' first
  | exact Keeps.refl _
  | assumption
  | decide
  | (extract_lets +onlyGivenNames s1; have h1 : Keeps 7502720 s s1 := (by unfold s1; repeat' first | exact Keeps.refl _ | assumption | decide | refine answer_keeps ?_ ?_ | refine descCond_keeps ?_ ?_ | refine descDone_keeps ?_ ?_ | refine fenceDone_keeps ?_ ?_ | refine writeFailed_keeps ?_ ?_ | (intro _ _) | split | dsimp only); clear_value s1)
  | (extract_lets +onlyGivenNames x1; clear_value x1)
  | refine answer_keeps ?_ ?_
  | refine descCond_keeps ?_ ?_
  | refine descDone_keeps ?_ ?_
  | refine fenceDone_keeps ?_ ?_
  | refine writeFailed_keeps ?_ ?_
  | (intro _ _)
  | split
  | dsimp only

theorem refusePresented_keeps {mk : Nat} {sk : State} {s : State} {op : NewOp} (hk : Keeps mk sk s) (hm : 7502720 &&& mk = 7502720) :
    Keeps mk sk (refusePresented s op) := by
  suffices g : Keeps 7502720 s (refusePresented s op) from hk.trans (g.weaken hm)
  unfold refusePresented
  with_reducible repeat' first
  | exact Keeps.refl _
  | assumption
  | decide
  | (extract_lets +onlyGivenNames s1; have h1 : Keeps 7502720 s s1 := (by unfold s1; repeat' first | exact Keeps.refl _ | assumption | decide | refine failOp_keeps ?_ ?_ | refine freeChain_keeps ?_ ?_ | (intro _ _) | split | dsimp only); clear_value s1)
  | (extract_lets +onlyGivenNames x1; clear_value x1)
  | refine failOp_keeps ?_ ?_
  | refine freeChain_keeps ?_ ?_
  | (intro _ _)
  | split
  | dsimp only

theorem present_keeps {mk : Nat} {sk : State} {s : State} {op : NewOp} (hk : Keeps mk sk s) (hm : 7367552 &&& mk = 7367552) :
    Keeps mk sk (present s op) := by
  suffices g : Keeps 7367552 s (present s op) from hk.trans (g.weaken hm)
  unfold present
  with_reducible repeat' first
  | exact Keeps.refl _
  | assumption
  | decide
  | (extract_lets +onlyGivenNames q1; have hq1 : Keeps 7367552 s q1.1 := (by unfold q1; repeat' first | exact Keeps.refl _ | assumption | decide | refine storeChain_keeps ?_ ?_ | refine Keeps.ite ?_ ?_ | refine Keeps.iteFst ?_ ?_ | (fail_if_no_progress refine Keeps.shu' ?_ _ rfl) | (intro _ _) | split | dsimp only); clear_value q1)
  | (extract_lets +onlyGivenNames s1; have h1 : Keeps 7367552 s s1 := (by unfold s1; repeat' first | exact Keeps.refl _ | assumption | decide | refine storeChain_keeps ?_ ?_ | refine Keeps.ite ?_ ?_ | refine Keeps.iteFst ?_ ?_ | (fail_if_no_progress refine Keeps.shu' ?_ _ rfl) | (intro _ _) | split | dsimp only); clear_value s1)
  | (extract_lets +onlyGivenNames x1; clear_value x1)
  | refine storeChain_keeps ?_ ?_
  | refine Keeps.ite ?_ ?_
  | refine Keeps.iteFst ?_ ?_
  | (fail_if_no_progress refine Keeps.shu' ?_ _ rfl)
  | (intro _ _)
  | split
  | dsimp only

theorem refuseAccess_keeps {mk : Nat} {sk : State} {s : State} {i : Nat} {src : Nat} {o : Origin} {t : Tlp} {imp : Option (Nat × Import)} {cause : Nat} (hk : Keeps mk sk s) (hm : 7371648 &&& mk = 7371648) :
    Keeps mk sk (refuseAccess s i src o t imp cause) := by
  suffices g : Keeps 7371648 s (refuseAccess s i src o t imp cause) from hk.trans (g.weaken hm)
  unfold refuseAccess
  with_reducible repeat' first
  | exact Keeps.refl _
  | assumption
  | decide
  | (extract_lets +onlyGivenNames s1; have h1 : Keeps 7371648 s s1 := (by unfold s1; repeat' first | exact Keeps.refl _ | assumption | decide | refine answer_keeps ?_ ?_ | refine count_keeps ?_ ?_ | refine eventIn_keeps ?_ ?_ | refine postedFailure_keeps ?_ ?_ | refine Keeps.ite ?_ ?_ | refine Keeps.iteFst ?_ ?_ | (intro _ _) | split | dsimp only); clear_value s1)
  | (extract_lets +onlyGivenNames x1; clear_value x1)
  | refine answer_keeps ?_ ?_
  | refine count_keeps ?_ ?_
  | refine eventIn_keeps ?_ ?_
  | refine postedFailure_keeps ?_ ?_
  | refine Keeps.ite ?_ ?_
  | refine Keeps.iteFst ?_ ?_
  | (intro _ _)
  | split
  | dsimp only

theorem poisonedAccess_keeps {mk : Nat} {sk : State} {s : State} {i : Nat} {src : Nat} {o : Origin} {t : Tlp} (hk : Keeps mk sk s) (hm : 7371648 &&& mk = 7371648) :
    Keeps mk sk (poisonedAccess s i src o t) := by
  suffices g : Keeps 7371648 s (poisonedAccess s i src o t) from hk.trans (g.weaken hm)
  unfold poisonedAccess
  with_reducible repeat' first
  | exact Keeps.refl _
  | assumption
  | decide
  | (extract_lets +onlyGivenNames s1; have h1 : Keeps 7371648 s s1 := (by unfold s1; repeat' first | exact Keeps.refl _ | assumption | decide | refine answer_keeps ?_ ?_ | refine count_keeps ?_ ?_ | refine eventFull_keeps ?_ ?_ | refine postedFailure_keeps ?_ ?_ | refine Keeps.ite ?_ ?_ | (intro _ _) | split | dsimp only); clear_value s1)
  | (extract_lets +onlyGivenNames x1; clear_value x1)
  | refine answer_keeps ?_ ?_
  | refine count_keeps ?_ ?_
  | refine eventFull_keeps ?_ ?_
  | refine postedFailure_keeps ?_ ?_
  | refine Keeps.ite ?_ ?_
  | (intro _ _)
  | split
  | dsimp only

theorem presentLoad_keeps {mk : Nat} {sk : State} {s : State} {x : Import} {i : Nat} {src : Nat} {o : Origin} {t : Tlp} (hk : Keeps mk sk s) (hm : 7367552 &&& mk = 7367552) :
    Keeps mk sk (presentLoad s x i src o t) := by
  suffices g : Keeps 7367552 s (presentLoad s x i src o t) from hk.trans (g.weaken hm)
  unfold presentLoad
  with_reducible repeat' first
  | exact Keeps.refl _
  | assumption
  | decide
  | (extract_lets +onlyGivenNames s1; have h1 : Keeps 7367552 s s1 := (by unfold s1; repeat' first | exact Keeps.refl _ | assumption | decide | refine present_keeps ?_ ?_ | (intro _ _) | split | dsimp only); clear_value s1)
  | (extract_lets +onlyGivenNames x1; clear_value x1)
  | refine present_keeps ?_ ?_
  | (intro _ _)
  | split
  | dsimp only

theorem presentStore_keeps {mk : Nat} {sk : State} {s : State} {n : Nat} {x : Import} {i : Nat} {src : Nat} {o : Origin} {t : Tlp} (hk : Keeps mk sk s) (hm : 7367552 &&& mk = 7367552) :
    Keeps mk sk (presentStore s n x i src o t) := by
  suffices g : Keeps 7367552 s (presentStore s n x i src o t) from hk.trans (g.weaken hm)
  unfold presentStore
  with_reducible repeat' first
  | exact Keeps.refl _
  | assumption
  | decide
  | (extract_lets +onlyGivenNames s1; have h1 : Keeps 7367552 s s1 := (by unfold s1; repeat' first | exact Keeps.refl _ | assumption | decide | refine present_keeps ?_ ?_ | refine Keeps.foldl ?_ _ (fun u a hu => ?_) | refine Keeps.foldlFst ?_ _ (fun u a hu => ?_) | (intro _ _) | split | dsimp only); clear_value s1)
  | (extract_lets +onlyGivenNames x1; clear_value x1)
  | refine present_keeps ?_ ?_
  | refine Keeps.foldl ?_ _ (fun u a hu => ?_)
  | refine Keeps.foldlFst ?_ _ (fun u a hu => ?_)
  | (intro _ _)
  | split
  | dsimp only

theorem apertureAccess_keeps {mk : Nat} {sk : State} {s : State} {i : Nat} {src : Nat} {o : Origin} {t : Tlp} (hk : Keeps mk sk s) (hm : 7371648 &&& mk = 7371648) :
    Keeps mk sk (apertureAccess s i src o t) := by
  suffices g : Keeps 7371648 s (apertureAccess s i src o t) from hk.trans (g.weaken hm)
  unfold apertureAccess
  with_reducible repeat' first
  | exact Keeps.refl _
  | assumption
  | decide
  | (extract_lets +onlyGivenNames s1; have h1 : Keeps 7371648 s s1 := (by unfold s1; repeat' first | exact Keeps.refl _ | assumption | decide | refine answer_keeps ?_ ?_ | refine count_keeps ?_ ?_ | refine filterItem_keeps ?_ ?_ | refine poisonedAccess_keeps ?_ ?_ | refine presentLoad_keeps ?_ ?_ | refine presentStore_keeps ?_ ?_ | refine refuseAccess_keeps ?_ ?_ | refine Keeps.ite ?_ ?_ | (fail_if_no_progress refine Keeps.win' ?_ _ rfl) | (intro _ _) | split | dsimp only); clear_value s1)
  | (extract_lets +onlyGivenNames x1; clear_value x1)
  | refine answer_keeps ?_ ?_
  | refine count_keeps ?_ ?_
  | refine filterItem_keeps ?_ ?_
  | refine poisonedAccess_keeps ?_ ?_
  | refine presentLoad_keeps ?_ ?_
  | refine presentStore_keeps ?_ ?_
  | refine refuseAccess_keeps ?_ ?_
  | refine Keeps.ite ?_ ?_
  | (fail_if_no_progress refine Keeps.win' ?_ _ rfl)
  | (intro _ _)
  | split
  | dsimp only

theorem heldLoadSend_keeps {mk : Nat} {sk : State} {s : State} (hk : Keeps mk sk s) (hm : 7371648 &&& mk = 7371648) :
    Keeps mk sk (heldLoadSend s) := by
  suffices g : Keeps 7371648 s (heldLoadSend s) from hk.trans (g.weaken hm)
  unfold heldLoadSend
  with_reducible repeat' first
  | exact Keeps.refl _
  | assumption
  | decide
  | (extract_lets +onlyGivenNames s1; have h1 : Keeps 7371648 s s1 := (by unfold s1; repeat' first | exact Keeps.refl _ | assumption | decide | refine presentLoad_keeps ?_ ?_ | refine refuseAccess_keeps ?_ ?_ | (fail_if_no_progress refine Keeps.win' ?_ _ rfl) | (intro _ _) | split | dsimp only); clear_value s1)
  | (extract_lets +onlyGivenNames x1; clear_value x1)
  | refine presentLoad_keeps ?_ ?_
  | refine refuseAccess_keeps ?_ ?_
  | (fail_if_no_progress refine Keeps.win' ?_ _ rfl)
  | (intro _ _)
  | split
  | dsimp only

theorem presentFence_keeps {mk : Nat} {sk : State} {s : State} {c : Nat} {o : Origin} {t : Option Tlp} {ticket : Option Ticket} {inst : Nat} {ord : Nat} (hk : Keeps mk sk s) (hm : 7367552 &&& mk = 7367552) :
    Keeps mk sk (presentFence s c o t ticket inst ord) := by
  suffices g : Keeps 7367552 s (presentFence s c o t ticket inst ord) from hk.trans (g.weaken hm)
  unfold presentFence
  with_reducible repeat' first
  | exact Keeps.refl _
  | assumption
  | decide
  | (extract_lets +onlyGivenNames s1; have h1 : Keeps 7367552 s s1 := (by unfold s1; repeat' first | exact Keeps.refl _ | assumption | decide | refine count_keeps ?_ ?_ | refine present_keeps ?_ ?_ | (intro _ _) | split | dsimp only); clear_value s1)
  | (extract_lets +onlyGivenNames x1; clear_value x1)
  | refine count_keeps ?_ ?_
  | refine present_keeps ?_ ?_
  | (intro _ _)
  | split
  | dsimp only

theorem fenceSlotRead_keeps {mk : Nat} {sk : State} {s : State} {i : Nat} {slot : Nat} {src : Nat} {o : Origin} {t : Tlp} (hk : Keeps mk sk s) (hm : 7371648 &&& mk = 7371648) :
    Keeps mk sk (fenceSlotRead s i slot src o t) := by
  suffices g : Keeps 7371648 s (fenceSlotRead s i slot src o t) from hk.trans (g.weaken hm)
  unfold fenceSlotRead
  with_reducible repeat' first
  | exact Keeps.refl _
  | assumption
  | decide
  | refine answer_keeps ?_ ?_
  | refine presentFence_keeps ?_ ?_
  | (intro _ _)
  | split
  | dsimp only

/-! ### Depart -/

theorem markLeft_keeps {mk : Nat} {sk : State} {s : State} {p : Nat} {i : LoomItem} {t : Tlp} (hk : Keeps mk sk s) (hm : 4096 &&& mk = 4096) :
    Keeps mk sk (markLeft s p i t) := by
  suffices g : Keeps 4096 s (markLeft s p i t) from hk.trans (g.weaken hm)
  unfold markLeft
  with_reducible repeat' first
  | exact Keeps.refl _
  | assumption
  | decide
  | refine Keeps.ite ?_ ?_
  | (fail_if_no_progress refine Keeps.win' ?_ _ rfl)
  | (intro _ _)
  | split
  | dsimp only

theorem inHost_keeps {mk : Nat} {sk : State} {s : State} {p : Nat} {t : Tlp} (hk : Keeps mk sk s) (hm : 2097152 &&& mk = 2097152) :
    Keeps mk sk (inHost s p t) := by
  suffices g : Keeps 2097152 s (inHost s p t) from hk.trans (g.weaken hm)
  unfold inHost
  with_reducible repeat' first
  | exact Keeps.refl _
  | assumption
  | decide
  | refine hostWrite_keeps ?_ ?_
  | refine Keeps.ite ?_ ?_
  | refine Keeps.foldl ?_ _ (fun u a hu => ?_)
  | refine Keeps.foldlFst ?_ _ (fun u a hu => ?_)
  | (intro _ _)
  | split
  | dsimp only

theorem countLeaves_keeps {mk : Nat} {sk : State} {s : State} {p : Nat} {t : Tlp} (hk : Keeps mk sk s) (hm : 1048576 &&& mk = 1048576) :
    Keeps mk sk (countLeaves s p t) := by
  suffices g : Keeps 1048576 s (countLeaves s p t) from hk.trans (g.weaken hm)
  unfold countLeaves
  with_reducible repeat' first
  | exact Keeps.refl _
  | assumption
  | decide
  | (extract_lets +onlyGivenNames s1; have h1 : Keeps 1048576 s s1 := (by unfold s1; repeat' first | exact Keeps.refl _ | assumption | decide | refine count_keeps ?_ ?_ | (intro _ _) | split | dsimp only); clear_value s1)
  | (extract_lets +onlyGivenNames x1; clear_value x1)
  | refine count_keeps ?_ ?_
  | (intro _ _)
  | split
  | dsimp only

theorem noteRequest_keeps {mk : Nat} {sk : State} {s : State} {p : Nat} {i : LoomItem} {t : Tlp} {proxy : Option Nat} (hk : Keeps mk sk s) (hm : 7365376 &&& mk = 7365376) :
    Keeps mk sk (noteRequest s p i t proxy) := by
  suffices g : Keeps 7365376 s (noteRequest s p i t proxy) from hk.trans (g.weaken hm)
  unfold noteRequest
  with_reducible repeat' first
  | exact Keeps.refl _
  | assumption
  | decide
  | (extract_lets +onlyGivenNames s1; have h1 : Keeps 7365376 s s1 := (by unfold s1; repeat' first | exact Keeps.refl _ | assumption | decide | refine poolChanged_keeps ?_ ?_ | refine setWarp_keeps ?_ ?_ | refine Keeps.ite ?_ ?_ | refine Keeps.iteFst ?_ ?_ | (fail_if_no_progress refine Keeps.loom' ?_ _ rfl) | (intro _ _) | split | dsimp only); clear_value s1)
  | (extract_lets +onlyGivenNames x1; clear_value x1)
  | refine poolChanged_keeps ?_ ?_
  | refine setWarp_keeps ?_ ?_
  | refine Keeps.ite ?_ ?_
  | refine Keeps.iteFst ?_ ?_
  | (fail_if_no_progress refine Keeps.loom' ?_ _ rfl)
  | (intro _ _)
  | split
  | dsimp only

theorem proxyRefused_keeps {mk : Nat} {sk : State} {s : State} {i : LoomItem} {t : Tlp} (hk : Keeps mk sk s) (hm : 7502720 &&& mk = 7502720) :
    Keeps mk sk (proxyRefused s i t) := by
  suffices g : Keeps 7502720 s (proxyRefused s i t) from hk.trans (g.weaken hm)
  unfold proxyRefused
  with_reducible repeat' first
  | exact Keeps.refl _
  | assumption
  | decide
  | refine answer_keeps ?_ ?_
  | refine itemLost_keeps ?_ ?_
  | refine requestGone_keeps ?_ ?_
  | refine Keeps.ite ?_ ?_
  | (intro _ _)
  | split
  | dsimp only

theorem leaveWarp_keeps {mk : Nat} {sk : State} {s : State} {p : Nat} {i : LoomItem} {t : Tlp} (hk : Keeps mk sk s) (hm : 7502720 &&& mk = 7502720) :
    Keeps mk sk (leaveWarp s p i t) := by
  suffices g : Keeps 7502720 s (leaveWarp s p i t) from hk.trans (g.weaken hm)
  unfold leaveWarp
  with_reducible repeat' first
  | exact Keeps.refl _
  | assumption
  | decide
  | (extract_lets +onlyGivenNames q1; have hq1 : Keeps 7502720 s q1.1 := (by unfold q1; repeat' first | exact Keeps.refl _ | assumption | decide | refine countLeaves_keeps ?_ ?_ | refine emit_keeps ?_ | refine inHost_keeps ?_ ?_ | refine markLeft_keeps ?_ ?_ | refine noteRequest_keeps ?_ ?_ | refine proxyFor_keeps ?_ ?_ | refine proxyRefused_keeps ?_ ?_ | refine releaseItem_keeps ?_ ?_ | refine Keeps.ite ?_ ?_ | refine Keeps.iteFst ?_ ?_ | (intro _ _) | split | dsimp only); clear_value q1)
  | (extract_lets +onlyGivenNames s1; have h1 : Keeps 7502720 s s1 := (by unfold s1; repeat' first | exact Keeps.refl _ | assumption | decide | refine countLeaves_keeps ?_ ?_ | refine emit_keeps ?_ | refine inHost_keeps ?_ ?_ | refine markLeft_keeps ?_ ?_ | refine noteRequest_keeps ?_ ?_ | refine proxyFor_keeps ?_ ?_ | refine proxyRefused_keeps ?_ ?_ | refine releaseItem_keeps ?_ ?_ | refine Keeps.ite ?_ ?_ | refine Keeps.iteFst ?_ ?_ | (intro _ _) | split | dsimp only); clear_value s1)
  | (extract_lets +onlyGivenNames x1; clear_value x1)
  | refine countLeaves_keeps ?_ ?_
  | refine emit_keeps ?_
  | refine inHost_keeps ?_ ?_
  | refine markLeft_keeps ?_ ?_
  | refine noteRequest_keeps ?_ ?_
  | refine proxyFor_keeps ?_ ?_
  | refine proxyRefused_keeps ?_ ?_
  | refine releaseItem_keeps ?_ ?_
  | refine Keeps.ite ?_ ?_
  | refine Keeps.iteFst ?_ ?_
  | (intro _ _)
  | split
  | dsimp only

/-! ### Admin -/

theorem setAdm_keeps {mk : Nat} {sk : State} {s : State} {v : Nat} {x : AdmBlk} (hk : Keeps mk sk s) (hm : 8192 &&& mk = 8192) :
    Keeps mk sk (setAdm s v x) := by
  suffices g : Keeps 8192 s (setAdm s v x) from hk.trans (g.weaken hm)
  unfold setAdm
  with_reducible repeat' first
  | exact Keeps.refl _
  | assumption
  | decide
  | (fail_if_no_progress refine Keeps.eng' ?_ _ rfl)
  | (intro _ _)
  | split
  | dsimp only

theorem admFinish_keeps {mk : Nat} {sk : State} {s : State} {c : AdmCmd} {status : Nat} {detail : Nat} {result : Nat} (hk : Keeps mk sk s) (hm : 2121728 &&& mk = 2121728) :
    Keeps mk sk (admFinish s c status detail result) := by
  suffices g : Keeps 2121728 s (admFinish s c status detail result) from hk.trans (g.weaken hm)
  unfold admFinish
  with_reducible repeat' first
  | exact Keeps.refl _
  | assumption
  | decide
  | (extract_lets +onlyGivenNames s1; have h1 : Keeps 2121728 s s1 := (by unfold s1; repeat' first | exact Keeps.refl _ | assumption | decide | refine hostPost_keeps ?_ ?_ | refine msi_keeps ?_ ?_ | refine setAdm_keeps ?_ ?_ | refine Keeps.ite ?_ ?_ | (intro _ _) | split | dsimp only); clear_value s1)
  | (extract_lets +onlyGivenNames x1; clear_value x1)
  | refine hostPost_keeps ?_ ?_
  | refine msi_keeps ?_ ?_
  | refine setAdm_keeps ?_ ?_
  | refine Keeps.ite ?_ ?_
  | (intro _ _)
  | split
  | dsimp only

theorem finishWaits_keeps {mk : Nat} {sk : State} {s : State} {f : OpenCmd → Bool} {status : Nat} {detail : Nat} {result : OpenCmd → Nat} (hk : Keeps mk sk s) (hm : 2121728 &&& mk = 2121728) :
    Keeps mk sk (finishWaits s f status detail result) := by
  suffices g : Keeps 2121728 s (finishWaits s f status detail result) from hk.trans (g.weaken hm)
  unfold finishWaits
  with_reducible repeat' first
  | exact Keeps.refl _
  | assumption
  | decide
  | (extract_lets +onlyGivenNames s1; have h1 : Keeps 2121728 s s1 := (by unfold s1; repeat' first | exact Keeps.refl _ | assumption | decide | refine admFinish_keeps ?_ ?_ | refine Keeps.foldl ?_ _ (fun u a hu => ?_) | refine Keeps.foldlFst ?_ _ (fun u a hu => ?_) | (fail_if_no_progress refine Keeps.eng' ?_ _ rfl) | (intro _ _) | split | dsimp only); clear_value s1)
  | (extract_lets +onlyGivenNames x1; clear_value x1)
  | refine admFinish_keeps ?_ ?_
  | refine Keeps.foldl ?_ _ (fun u a hu => ?_)
  | refine Keeps.foldlFst ?_ _ (fun u a hu => ?_)
  | (fail_if_no_progress refine Keeps.eng' ?_ _ rfl)
  | (intro _ _)
  | split
  | dsimp only

theorem dobConnDone_keeps {mk : Nat} {sk : State} {s : State} {c : Nat} {status : Nat} (hk : Keeps mk sk s) (hm : 131072 &&& mk = 131072) :
    Keeps mk sk (dobConnDone s c status) := by
  suffices g : Keeps 131072 s (dobConnDone s c status) from hk.trans (g.weaken hm)
  unfold dobConnDone
  with_reducible repeat' first
  | exact Keeps.refl _
  | assumption
  | decide
  | refine Keeps.ite ?_ ?_
  | (fail_if_no_progress refine Keeps.dob' ?_ _ rfl)
  | (intro _ _)
  | split
  | dsimp only

theorem openSettled_keeps {mk : Nat} {sk : State} {s : State} {c : Nat} (hk : Keeps mk sk s) (hm : 2252800 &&& mk = 2252800) :
    Keeps mk sk (openSettled s c) := by
  suffices g : Keeps 2252800 s (openSettled s c) from hk.trans (g.weaken hm)
  unfold openSettled
  with_reducible repeat' first
  | exact Keeps.refl _
  | assumption
  | decide
  | refine dobConnDone_keeps ?_ ?_
  | refine finishWaits_keeps ?_ ?_
  | (intro _ _)
  | split
  | dsimp only

theorem openFailed_keeps {mk : Nat} {sk : State} {s : State} {c : Nat} {status : Nat} (hk : Keeps mk sk s) (hm : 2252800 &&& mk = 2252800) :
    Keeps mk sk (openFailed s c status) := by
  suffices g : Keeps 2252800 s (openFailed s c status) from hk.trans (g.weaken hm)
  unfold openFailed
  with_reducible repeat' first
  | exact Keeps.refl _
  | assumption
  | decide
  | refine dobConnDone_keeps ?_ ?_
  | refine finishWaits_keeps ?_ ?_
  | (intro _ _)
  | split
  | dsimp only

theorem resetSettled_keeps {mk : Nat} {sk : State} {s : State} {c : Nat} {status : Nat} (hk : Keeps mk sk s) (hm : 2252800 &&& mk = 2252800) :
    Keeps mk sk (resetSettled s c status) := by
  suffices g : Keeps 2252800 s (resetSettled s c status) from hk.trans (g.weaken hm)
  unfold resetSettled
  with_reducible repeat' first
  | exact Keeps.refl _
  | assumption
  | decide
  | refine dobConnDone_keeps ?_ ?_
  | refine finishWaits_keeps ?_ ?_
  | (intro _ _)
  | split
  | dsimp only

theorem closeSettled_keeps {mk : Nat} {sk : State} {s : State} {c : Nat} (hk : Keeps mk sk s) (hm : 2252800 &&& mk = 2252800) :
    Keeps mk sk (closeSettled s c) := by
  suffices g : Keeps 2252800 s (closeSettled s c) from hk.trans (g.weaken hm)
  unfold closeSettled
  with_reducible repeat' first
  | exact Keeps.refl _
  | assumption
  | decide
  | refine dobConnDone_keeps ?_ ?_
  | refine finishWaits_keeps ?_ ?_
  | (intro _ _)
  | split
  | dsimp only

theorem windowRevokeComplete_keeps {mk : Nat} {sk : State} {w : Nat} {s : State} (hk : Keeps mk sk s) (hm : 7368704 &&& mk = 7368704) :
    Keeps mk sk (windowRevokeComplete w s) := by
  suffices g : Keeps 7368704 s (windowRevokeComplete w s) from hk.trans (g.weaken hm)
  unfold windowRevokeComplete
  with_reducible repeat' first
  | exact Keeps.refl _
  | assumption
  | decide
  | (extract_lets +onlyGivenNames s1; have h1 : Keeps 7368704 s s1 := (by unfold s1; repeat' first | exact Keeps.refl _ | assumption | decide | refine endRevoke_keeps ?_ ?_ | refine finishWaits_keeps ?_ ?_ | refine Keeps.ite ?_ ?_ | (intro _ _) | split | dsimp only); clear_value s1)
  | (extract_lets +onlyGivenNames x1; clear_value x1)
  | refine endRevoke_keeps ?_ ?_
  | refine finishWaits_keeps ?_ ?_
  | refine Keeps.ite ?_ ?_
  | (intro _ _)
  | split
  | dsimp only

theorem execWindowRevokeComplete_keeps {mk : Nat} {sk : State} {w : Fin 65536} {s : State} (hk : Keeps mk sk s) (hm : 7368704 &&& mk = 7368704) :
    ∃ t', execWindowRevokeComplete w s = .next t' ∧ Keeps mk sk t' := by
  suffices g : ∃ t', execWindowRevokeComplete w s = .next t' ∧ Keeps 7368704 s t' from g.imp fun _ h => ⟨h.1, hk.trans (h.2.weaken hm)⟩
  refine ⟨_, rfl, ?_⟩
  with_reducible repeat' first
  | exact Keeps.refl _
  | assumption
  | decide
  | refine windowRevokeComplete_keeps ?_ ?_
  | (intro _ _)
  | split
  | dsimp only

/-! ### Shuttle -/

theorem setEntry_keeps {mk : Nat} {sk : State} {s : State} {l : Nat} {e : LedgerEntry} (hk : Keeps mk sk s) (hm : 2048 &&& mk = 2048) :
    Keeps mk sk (setEntry s l e) := by
  suffices g : Keeps 2048 s (setEntry s l e) from hk.trans (g.weaken hm)
  unfold setEntry
  with_reducible repeat' first
  | exact Keeps.refl _
  | assumption
  | decide
  | (fail_if_no_progress refine Keeps.shu' ?_ _ rfl)
  | (intro _ _)
  | split
  | dsimp only

theorem presentRecord_keeps {mk : Nat} {sk : State} {s : State} {kind : Nat} {cid : Nat} {seq : Nat} {n : Nat} {ev : Nat} {data : List Byte} {mirror : Option (Nat × Nat)} {catchUp : Bool} (hk : Keeps mk sk s) (hm : 1116160 &&& mk = 1116160) :
    Keeps mk sk (presentRecord s kind cid seq n ev data mirror catchUp) := by
  suffices g : Keeps 1116160 s (presentRecord s kind cid seq n ev data mirror catchUp) from hk.trans (g.weaken hm)
  unfold presentRecord
  with_reducible repeat' first
  | exact Keeps.refl _
  | assumption
  | decide
  | (extract_lets +onlyGivenNames s1; have h1 : Keeps 1116160 s s1 := (by unfold s1; repeat' first | exact Keeps.refl _ | assumption | decide | refine count_keeps ?_ ?_ | refine Keeps.ite ?_ ?_ | refine Keeps.iteFst ?_ ?_ | (fail_if_no_progress refine Keeps.shu' ?_ _ rfl) | (fail_if_no_progress refine Keeps.twin' ?_ _ rfl) | (fail_if_no_progress (refine Keeps.several ?_ (by refine ⟨?_, ?_, ?_, ?_, ?_, ?_, ?_, ?_, ?_, ?_, ?_, ?_, ?_, ?_, ?_, ?_, ?_, ?_, ?_, ?_⟩ <;> first | exact Or.inl rfl | exact Or.inr rfl))) | (intro _ _) | split | dsimp only); clear_value s1)
  | (extract_lets +onlyGivenNames x1; clear_value x1)
  | refine count_keeps ?_ ?_
  | refine Keeps.ite ?_ ?_
  | refine Keeps.iteFst ?_ ?_
  | (fail_if_no_progress refine Keeps.shu' ?_ _ rfl)
  | (fail_if_no_progress refine Keeps.twin' ?_ _ rfl)
  | (fail_if_no_progress (refine Keeps.several ?_ (by refine ⟨?_, ?_, ?_, ?_, ?_, ?_, ?_, ?_, ?_, ?_, ?_, ?_, ?_, ?_, ?_, ?_, ?_, ?_, ?_, ?_⟩ <;> first | exact Or.inl rfl | exact Or.inr rfl)))
  | (intro _ _)
  | split
  | dsimp only

theorem mirrorEntry_keeps {mk : Nat} {sk : State} {s : State} {l : Nat} {catchUp : Bool} (hk : Keeps mk sk s) (hm : 1116160 &&& mk = 1116160) :
    Keeps mk sk (mirrorEntry s l catchUp) := by
  suffices g : Keeps 1116160 s (mirrorEntry s l catchUp) from hk.trans (g.weaken hm)
  unfold mirrorEntry
  with_reducible repeat' first
  | exact Keeps.refl _
  | assumption
  | decide
  | (extract_lets +onlyGivenNames s1; have h1 : Keeps 1116160 s s1 := (by unfold s1; repeat' first | exact Keeps.refl _ | assumption | decide | refine presentRecord_keeps ?_ ?_ | (intro _ _) | split | dsimp only); clear_value s1)
  | (extract_lets +onlyGivenNames x1; clear_value x1)
  | refine presentRecord_keeps ?_ ?_
  | (intro _ _)
  | split
  | dsimp only

theorem mirrorConn_keeps {mk : Nat} {sk : State} {s : State} {c : Nat} {ev : Nat} {catchUp : Bool} (hk : Keeps mk sk s) (hm : 1116160 &&& mk = 1116160) :
    Keeps mk sk (mirrorConn s c ev catchUp) := by
  suffices g : Keeps 1116160 s (mirrorConn s c ev catchUp) from hk.trans (g.weaken hm)
  unfold mirrorConn
  with_reducible repeat' first
  | exact Keeps.refl _
  | assumption
  | decide
  | (extract_lets +onlyGivenNames s1; have h1 : Keeps 1116160 s s1 := (by unfold s1; repeat' first | exact Keeps.refl _ | assumption | decide | refine presentRecord_keeps ?_ ?_ | refine Keeps.ite ?_ ?_ | (intro _ _) | split | dsimp only); clear_value s1)
  | (extract_lets +onlyGivenNames x1; clear_value x1)
  | refine presentRecord_keeps ?_ ?_
  | refine Keeps.ite ?_ ?_
  | (intro _ _)
  | split
  | dsimp only

theorem releaseEntry_keeps {mk : Nat} {sk : State} {s : State} {l : Nat} (hk : Keeps mk sk s) (hm : 7437184 &&& mk = 7437184) :
    Keeps mk sk (releaseEntry s l) := by
  suffices g : Keeps 7437184 s (releaseEntry s l) from hk.trans (g.weaken hm)
  unfold releaseEntry
  with_reducible repeat' first
  | exact Keeps.refl _
  | assumption
  | decide
  | (extract_lets +onlyGivenNames s1; have h1 : Keeps 7437184 s s1 := (by unfold s1; repeat' first | exact Keeps.refl _ | assumption | decide | refine ledgerRelease_keeps ?_ ?_ | refine setConn_keeps ?_ ?_ | refine Keeps.ite ?_ ?_ | (fail_if_no_progress refine Keeps.shu' ?_ _ rfl) | (fail_if_no_progress refine Keeps.win' ?_ _ rfl) | (fail_if_no_progress refine Keeps.twin' ?_ _ rfl) | (fail_if_no_progress (refine Keeps.several ?_ (by refine ⟨?_, ?_, ?_, ?_, ?_, ?_, ?_, ?_, ?_, ?_, ?_, ?_, ?_, ?_, ?_, ?_, ?_, ?_, ?_, ?_⟩ <;> first | exact Or.inl rfl | exact Or.inr rfl))) | (intro _ _) | split | dsimp only); clear_value s1)
  | (extract_lets +onlyGivenNames x1; clear_value x1)
  | refine ledgerRelease_keeps ?_ ?_
  | refine setConn_keeps ?_ ?_
  | refine Keeps.ite ?_ ?_
  | (fail_if_no_progress refine Keeps.shu' ?_ _ rfl)
  | (fail_if_no_progress refine Keeps.win' ?_ _ rfl)
  | (fail_if_no_progress refine Keeps.twin' ?_ _ rfl)
  | (fail_if_no_progress (refine Keeps.several ?_ (by refine ⟨?_, ?_, ?_, ?_, ?_, ?_, ?_, ?_, ?_, ?_, ?_, ?_, ?_, ?_, ?_, ?_, ?_, ?_, ?_, ?_⟩ <;> first | exact Or.inl rfl | exact Or.inr rfl)))
  | (intro _ _)
  | split
  | dsimp only

theorem dropAsked_keeps {mk : Nat} {sk : State} {s : State} {c : Nat} {seq : Nat} (hk : Keeps mk sk s) (hm : 2048 &&& mk = 2048) :
    Keeps mk sk (dropAsked s c seq) := by
  suffices g : Keeps 2048 s (dropAsked s c seq) from hk.trans (g.weaken hm)
  unfold dropAsked
  with_reducible repeat' first
  | exact Keeps.refl _
  | assumption
  | decide
  | (extract_lets +onlyGivenNames s1; have h1 : Keeps 2048 s s1 := (by unfold s1; repeat' first | exact Keeps.refl _ | assumption | decide | refine setConn_keeps ?_ ?_ | (intro _ _) | split | dsimp only); clear_value s1)
  | (extract_lets +onlyGivenNames x1; clear_value x1)
  | refine setConn_keeps ?_ ?_
  | (intro _ _)
  | split
  | dsimp only

theorem failEntry_keeps {mk : Nat} {sk : State} {s : State} {l : Nat} {reason : Nat} {status : Nat} (hk : Keeps mk sk s) (hm : 7568256 &&& mk = 7568256) :
    Keeps mk sk (failEntry s l reason status) := by
  suffices g : Keeps 7568256 s (failEntry s l reason status) from hk.trans (g.weaken hm)
  unfold failEntry
  with_reducible repeat' first
  | exact Keeps.refl _
  | assumption
  | decide
  | (extract_lets +onlyGivenNames s1; have h1 : Keeps 7568256 s s1 := (by unfold s1; repeat' first | exact Keeps.refl _ | assumption | decide | refine dropAsked_keeps ?_ ?_ | refine failOp_keeps ?_ ?_ | refine releaseEntry_keeps ?_ ?_ | refine setConn_keeps ?_ ?_ | (intro _ _) | split | dsimp only); clear_value s1)
  | (extract_lets +onlyGivenNames x1; clear_value x1)
  | refine dropAsked_keeps ?_ ?_
  | refine failOp_keeps ?_ ?_
  | refine releaseEntry_keeps ?_ ?_
  | refine setConn_keeps ?_ ?_
  | (intro _ _)
  | split
  | dsimp only

theorem failFrom_keeps {mk : Nat} {sk : State} {s : State} {c : Nat} {seq : Nat} (hk : Keeps mk sk s) (hm : 7568256 &&& mk = 7568256) :
    Keeps mk sk (failFrom s c seq) := by
  suffices g : Keeps 7568256 s (failFrom s c seq) from hk.trans (g.weaken hm)
  unfold failFrom
  with_reducible repeat' first
  | exact Keeps.refl _
  | assumption
  | decide
  | (extract_lets +onlyGivenNames s1; have h1 : Keeps 7568256 s s1 := (by unfold s1; repeat' first | exact Keeps.refl _ | assumption | decide | refine failEntry_keeps ?_ ?_ | refine Keeps.foldl ?_ _ (fun u a hu => ?_) | refine Keeps.foldlFst ?_ _ (fun u a hu => ?_) | (intro _ _) | split | dsimp only); clear_value s1)
  | (extract_lets +onlyGivenNames x1; clear_value x1)
  | refine failEntry_keeps ?_ ?_
  | refine Keeps.foldl ?_ _ (fun u a hu => ?_)
  | refine Keeps.foldlFst ?_ _ (fun u a hu => ?_)
  | (intro _ _)
  | split
  | dsimp only

theorem failAll_keeps {mk : Nat} {sk : State} {s : State} {c : Nat} (hk : Keeps mk sk s) (hm : 7568256 &&& mk = 7568256) :
    Keeps mk sk (failAll s c) := by
  suffices g : Keeps 7568256 s (failAll s c) from hk.trans (g.weaken hm)
  unfold failAll
  with_reducible repeat' first
  | exact Keeps.refl _
  | assumption
  | decide
  | refine failEntry_keeps ?_ ?_
  | refine Keeps.foldl ?_ _ (fun u a hu => ?_)
  | refine Keeps.foldlFst ?_ _ (fun u a hu => ?_)
  | (intro _ _)
  | split
  | dsimp only

theorem abortAsked_keeps {mk : Nat} {sk : State} {s : State} {c : Nat} (hk : Keeps mk sk s) (hm : 7371648 &&& mk = 7371648) :
    Keeps mk sk (abortAsked s c) := by
  suffices g : Keeps 7371648 s (abortAsked s c) from hk.trans (g.weaken hm)
  unfold abortAsked
  with_reducible repeat' first
  | exact Keeps.refl _
  | assumption
  | decide
  | (extract_lets +onlyGivenNames s1; have h1 : Keeps 7371648 s s1 := (by unfold s1; repeat' first | exact Keeps.refl _ | assumption | decide | refine answer_keeps ?_ ?_ | refine descCond_keeps ?_ ?_ | refine descDone_keeps ?_ ?_ | refine setConn_keeps ?_ ?_ | refine Keeps.foldl ?_ _ (fun u a hu => ?_) | refine Keeps.foldlFst ?_ _ (fun u a hu => ?_) | (intro _ _) | split | dsimp only); clear_value s1)
  | (extract_lets +onlyGivenNames x1; clear_value x1)
  | refine answer_keeps ?_ ?_
  | refine descCond_keeps ?_ ?_
  | refine descDone_keeps ?_ ?_
  | refine setConn_keeps ?_ ?_
  | refine Keeps.foldl ?_ _ (fun u a hu => ?_)
  | refine Keeps.foldlFst ?_ _ (fun u a hu => ?_)
  | (intro _ _)
  | split
  | dsimp only

theorem leaveActive_keeps {mk : Nat} {sk : State} {s : State} {c : Nat} (hk : Keeps mk sk s) (hm : 4096 &&& mk = 4096) :
    Keeps mk sk (leaveActive s c) := by
  suffices g : Keeps 4096 s (leaveActive s c) from hk.trans (g.weaken hm)
  unfold leaveActive
  with_reducible repeat' first
  | exact Keeps.refl _
  | assumption
  | decide
  | (extract_lets +onlyGivenNames s1; have h1 : Keeps 4096 s s1 := (by unfold s1; repeat' first | exact Keeps.refl _ | assumption | decide | (fail_if_no_progress refine Keeps.win' ?_ _ rfl) | (intro _ _) | split | dsimp only); clear_value s1)
  | (extract_lets +onlyGivenNames x1; clear_value x1)
  | (fail_if_no_progress refine Keeps.win' ?_ _ rfl)
  | (intro _ _)
  | split
  | dsimp only

theorem rosterAdd_keeps {mk : Nat} {sk : State} {s : State} {c : Nat} (hk : Keeps mk sk s) (hm : 2048 &&& mk = 2048) :
    Keeps mk sk (rosterAdd s c) := by
  suffices g : Keeps 2048 s (rosterAdd s c) from hk.trans (g.weaken hm)
  unfold rosterAdd
  with_reducible repeat' first
  | exact Keeps.refl _
  | assumption
  | decide
  | (extract_lets +onlyGivenNames s1; have h1 : Keeps 2048 s s1 := (by unfold s1; repeat' first | exact Keeps.refl _ | assumption | decide | refine Keeps.ite ?_ ?_ | (fail_if_no_progress refine Keeps.shu' ?_ _ rfl) | (intro _ _) | split | dsimp only); clear_value s1)
  | (extract_lets +onlyGivenNames x1; clear_value x1)
  | refine Keeps.ite ?_ ?_
  | (fail_if_no_progress refine Keeps.shu' ?_ _ rfl)
  | (intro _ _)
  | split
  | dsimp only

theorem rosterDrop_keeps {mk : Nat} {sk : State} {s : State} {c : Nat} (hk : Keeps mk sk s) (hm : 2048 &&& mk = 2048) :
    Keeps mk sk (rosterDrop s c) := by
  suffices g : Keeps 2048 s (rosterDrop s c) from hk.trans (g.weaken hm)
  unfold rosterDrop
  with_reducible repeat' first
  | exact Keeps.refl _
  | assumption
  | decide
  | (fail_if_no_progress refine Keeps.shu' ?_ _ rfl)
  | (intro _ _)
  | split
  | dsimp only

theorem goIdle_keeps {mk : Nat} {sk : State} {s : State} {c : Nat} {cause : Nat} (hk : Keeps mk sk s) (hm : 7568256 &&& mk = 7568256) :
    Keeps mk sk (goIdle s c cause) := by
  suffices g : Keeps 7568256 s (goIdle s c cause) from hk.trans (g.weaken hm)
  unfold goIdle
  with_reducible repeat' first
  | exact Keeps.refl _
  | assumption
  | decide
  | (extract_lets +onlyGivenNames s1; have h1 : Keeps 7568256 s s1 := (by unfold s1; repeat' first | exact Keeps.refl _ | assumption | decide | refine abortAsked_keeps ?_ ?_ | refine closeSettled_keeps ?_ ?_ | refine connEvent_keeps ?_ ?_ | refine failAll_keeps ?_ ?_ | refine mirrorConn_keeps ?_ ?_ | refine rosterDrop_keeps ?_ ?_ | refine Keeps.ite ?_ ?_ | (fail_if_no_progress refine Keeps.shu' ?_ _ rfl) | (fail_if_no_progress refine Keeps.twin' ?_ _ rfl) | (fail_if_no_progress (refine Keeps.several ?_ (by refine ⟨?_, ?_, ?_, ?_, ?_, ?_, ?_, ?_, ?_, ?_, ?_, ?_, ?_, ?_, ?_, ?_, ?_, ?_, ?_, ?_⟩ <;> first | exact Or.inl rfl | exact Or.inr rfl))) | (intro _ _) | split | dsimp only); clear_value s1)
  | (extract_lets +onlyGivenNames x1; clear_value x1)
  | refine abortAsked_keeps ?_ ?_
  | refine closeSettled_keeps ?_ ?_
  | refine connEvent_keeps ?_ ?_
  | refine failAll_keeps ?_ ?_
  | refine mirrorConn_keeps ?_ ?_
  | refine rosterDrop_keeps ?_ ?_
  | refine Keeps.ite ?_ ?_
  | (fail_if_no_progress refine Keeps.shu' ?_ _ rfl)
  | (fail_if_no_progress refine Keeps.twin' ?_ _ rfl)
  | (fail_if_no_progress (refine Keeps.several ?_ (by refine ⟨?_, ?_, ?_, ?_, ?_, ?_, ?_, ?_, ?_, ?_, ?_, ?_, ?_, ?_, ?_, ?_, ?_, ?_, ?_, ?_⟩ <;> first | exact Or.inl rfl | exact Or.inr rfl)))
  | (intro _ _)
  | split
  | dsimp only

theorem toFailed_keeps {mk : Nat} {sk : State} {s : State} {c : Nat} {cause : Nat} (hk : Keeps mk sk s) (hm : 7568256 &&& mk = 7568256) :
    Keeps mk sk (toFailed s c cause) := by
  suffices g : Keeps 7568256 s (toFailed s c cause) from hk.trans (g.weaken hm)
  unfold toFailed
  with_reducible repeat' first
  | exact Keeps.refl _
  | assumption
  | decide
  | (extract_lets +onlyGivenNames s1; have h1 : Keeps 7568256 s s1 := (by unfold s1; repeat' first | exact Keeps.refl _ | assumption | decide | refine abortAsked_keeps ?_ ?_ | refine connEvent_keeps ?_ ?_ | refine failAll_keeps ?_ ?_ | refine goIdle_keeps ?_ ?_ | refine leaveActive_keeps ?_ ?_ | refine resetSettled_keeps ?_ ?_ | refine setConn_keeps ?_ ?_ | refine Keeps.ite ?_ ?_ | (intro _ _) | split | dsimp only); clear_value s1)
  | (extract_lets +onlyGivenNames x1; clear_value x1)
  | refine abortAsked_keeps ?_ ?_
  | refine connEvent_keeps ?_ ?_
  | refine failAll_keeps ?_ ?_
  | refine goIdle_keeps ?_ ?_
  | refine leaveActive_keeps ?_ ?_
  | refine resetSettled_keeps ?_ ?_
  | refine setConn_keeps ?_ ?_
  | refine Keeps.ite ?_ ?_
  | (intro _ _)
  | split
  | dsimp only

theorem closeCheck_keeps {mk : Nat} {sk : State} {s : State} {c : Nat} (hk : Keeps mk sk s) (hm : 7568256 &&& mk = 7568256) :
    Keeps mk sk (closeCheck s c) := by
  suffices g : Keeps 7568256 s (closeCheck s c) from hk.trans (g.weaken hm)
  unfold closeCheck
  with_reducible repeat' first
  | exact Keeps.refl _
  | assumption
  | decide
  | (extract_lets +onlyGivenNames s1; have h1 : Keeps 7568256 s s1 := (by unfold s1; repeat' first | exact Keeps.refl _ | assumption | decide | refine goIdle_keeps ?_ ?_ | refine Keeps.ite ?_ ?_ | (intro _ _) | split | dsimp only); clear_value s1)
  | (extract_lets +onlyGivenNames x1; clear_value x1)
  | refine goIdle_keeps ?_ ?_
  | refine Keeps.ite ?_ ?_
  | (intro _ _)
  | split
  | dsimp only

theorem toStalled_keeps {mk : Nat} {sk : State} {s : State} {c : Nat} {seq : Nat} {cause : Nat} (hk : Keeps mk sk s) (hm : 7601024 &&& mk = 7601024) :
    Keeps mk sk (toStalled s c seq cause) := by
  suffices g : Keeps 7601024 s (toStalled s c seq cause) from hk.trans (g.weaken hm)
  unfold toStalled
  with_reducible repeat' first
  | exact Keeps.refl _
  | assumption
  | decide
  | (extract_lets +onlyGivenNames s1; have h1 : Keeps 7601024 s s1 := (by unfold s1; repeat' first | exact Keeps.refl _ | assumption | decide | refine afterFree_keeps ?_ ?_ | refine closeCheck_keeps ?_ ?_ | refine connError_keeps ?_ ?_ | refine failFrom_keeps ?_ ?_ | refine leaveActive_keeps ?_ ?_ | refine selContained_keeps ?_ ?_ | refine setConn_keeps ?_ ?_ | refine Keeps.ite ?_ ?_ | (intro _ _) | split | dsimp only); clear_value s1)
  | (extract_lets +onlyGivenNames x1; clear_value x1)
  | refine afterFree_keeps ?_ ?_
  | refine closeCheck_keeps ?_ ?_
  | refine connError_keeps ?_ ?_
  | refine failFrom_keeps ?_ ?_
  | refine leaveActive_keeps ?_ ?_
  | refine selContained_keeps ?_ ?_
  | refine setConn_keeps ?_ ?_
  | refine Keeps.ite ?_ ?_
  | (intro _ _)
  | split
  | dsimp only

theorem controlOp_keeps {mk : Nat} {sk : State} {s : State} {c : Nat} {cid : Nat} {typ : Nat} {word : Nat} {seq : Nat} {srcPort : Nat} {dstPort : Nat} (hk : Keeps mk sk s) (hm : 2048 &&& mk = 2048) :
    Keeps mk sk (controlOp s c cid typ word seq srcPort dstPort).1 := by
  suffices g : Keeps 2048 s (controlOp s c cid typ word seq srcPort dstPort).1 from hk.trans (g.weaken hm)
  unfold controlOp
  with_reducible repeat' first
  | exact Keeps.refl _
  | assumption
  | decide
  | (extract_lets +onlyGivenNames s1; have h1 : Keeps 2048 s s1 := (by unfold s1; repeat' first | exact Keeps.refl _ | assumption | decide | refine setConn_keeps ?_ ?_ | (intro _ _) | split | dsimp only); clear_value s1)
  | (extract_lets +onlyGivenNames x1; clear_value x1)
  | refine setConn_keeps ?_ ?_
  | (intro _ _)
  | split
  | dsimp only

theorem sendRequest_keeps {mk : Nat} {sk : State} {s : State} {c : Nat} {e : Exchange} (hk : Keeps mk sk s) (hm : 7367552 &&& mk = 7367552) :
    Keeps mk sk (sendRequest s c e) := by
  suffices g : Keeps 7367552 s (sendRequest s c e) from hk.trans (g.weaken hm)
  unfold sendRequest
  with_reducible repeat' first
  | exact Keeps.refl _
  | assumption
  | decide
  | refine sendControl_keeps ?_ ?_
  | (intro _ _)
  | split
  | dsimp only

theorem startRequest_keeps {mk : Nat} {sk : State} {s : State} {c : Nat} {kind : Nat} {auto : Bool} (hk : Keeps mk sk s) (hm : 7367552 &&& mk = 7367552) :
    Keeps mk sk (startRequest s c kind auto) := by
  suffices g : Keeps 7367552 s (startRequest s c kind auto) from hk.trans (g.weaken hm)
  unfold startRequest
  with_reducible repeat' first
  | exact Keeps.refl _
  | assumption
  | decide
  | (extract_lets +onlyGivenNames s1; have h1 : Keeps 7367552 s s1 := (by unfold s1; repeat' first | exact Keeps.refl _ | assumption | decide | refine afterDraw_keeps ?_ ?_ | refine sendRequest_keeps ?_ ?_ | refine setConn_keeps ?_ ?_ | refine Keeps.ite ?_ ?_ | (intro _ _) | split | dsimp only); clear_value s1)
  | (extract_lets +onlyGivenNames x1; clear_value x1)
  | refine afterDraw_keeps ?_ ?_
  | refine sendRequest_keeps ?_ ?_
  | refine setConn_keeps ?_ ?_
  | refine Keeps.ite ?_ ?_
  | (intro _ _)
  | split
  | dsimp only

theorem openConn_keeps {mk : Nat} {sk : State} {s : State} {c : Nat} {mid : Nat} {tc : Nat} {twin : Bool} {auto : Bool} {retry : Nat} {kind : Nat} {owner : Nat} (hk : Keeps mk sk s) (hm : 7564160 &&& mk = 7564160) :
    Keeps mk sk (openConn s c mid tc twin auto retry kind owner) := by
  suffices g : Keeps 7564160 s (openConn s c mid tc twin auto retry kind owner) from hk.trans (g.weaken hm)
  unfold openConn
  with_reducible repeat' first
  | exact Keeps.refl _
  | assumption
  | decide
  | (extract_lets +onlyGivenNames s1; have h1 : Keeps 7564160 s s1 := (by unfold s1; repeat' first | exact Keeps.refl _ | assumption | decide | refine afterDraw_keeps ?_ ?_ | refine event_keeps ?_ ?_ | refine launch_keeps ?_ ?_ | refine openFailed_keeps ?_ ?_ | refine setConn_keeps ?_ ?_ | (fail_if_no_progress refine Keeps.twin' ?_ _ rfl) | (intro _ _) | split | dsimp only); clear_value s1)
  | (extract_lets +onlyGivenNames x1; clear_value x1)
  | refine afterDraw_keeps ?_ ?_
  | refine event_keeps ?_ ?_
  | refine launch_keeps ?_ ?_
  | refine openFailed_keeps ?_ ?_
  | refine setConn_keeps ?_ ?_
  | (fail_if_no_progress refine Keeps.twin' ?_ _ rfl)
  | (intro _ _)
  | split
  | dsimp only

theorem ownerClose_keeps {mk : Nat} {sk : State} {s : State} {c : Nat} (hk : Keeps mk sk s) (hm : 7568256 &&& mk = 7568256) :
    Keeps mk sk (ownerClose s c) := by
  suffices g : Keeps 7568256 s (ownerClose s c) from hk.trans (g.weaken hm)
  unfold ownerClose
  with_reducible repeat' first
  | exact Keeps.refl _
  | assumption
  | decide
  | (extract_lets +onlyGivenNames s1; have h1 : Keeps 7568256 s s1 := (by unfold s1; repeat' first | exact Keeps.refl _ | assumption | decide | refine goIdle_keeps ?_ ?_ | refine leaveActive_keeps ?_ ?_ | refine setConn_keeps ?_ ?_ | refine startRequest_keeps ?_ ?_ | (intro _ _) | split | dsimp only); clear_value s1)
  | (extract_lets +onlyGivenNames x1; clear_value x1)
  | refine goIdle_keeps ?_ ?_
  | refine leaveActive_keeps ?_ ?_
  | refine setConn_keeps ?_ ?_
  | refine startRequest_keeps ?_ ?_
  | (intro _ _)
  | split
  | dsimp only

theorem installKeys_keeps {mk : Nat} {sk : State} {s : State} {c : Nat} {nonceI : Nat} {nonceR : Nat} {epoch : Nat} {k : KeySet} {firstTx : Nat} {firstRx : Nat} (hk : Keeps mk sk s) (hm : 2048 &&& mk = 2048) :
    Keeps mk sk (installKeys s c nonceI nonceR epoch k firstTx firstRx) := by
  suffices g : Keeps 2048 s (installKeys s c nonceI nonceR epoch k firstTx firstRx) from hk.trans (g.weaken hm)
  unfold installKeys
  with_reducible repeat' first
  | exact Keeps.refl _
  | assumption
  | decide
  | (extract_lets +onlyGivenNames s1; have h1 : Keeps 2048 s s1 := (by unfold s1; repeat' first | exact Keeps.refl _ | assumption | decide | refine setConn_keeps ?_ ?_ | (intro _ _) | split | dsimp only); clear_value s1)
  | (extract_lets +onlyGivenNames x1; clear_value x1)
  | refine setConn_keeps ?_ ?_
  | (intro _ _)
  | split
  | dsimp only

theorem oldKeyCheck_keeps {mk : Nat} {sk : State} {s : State} {c : Nat} (hk : Keeps mk sk s) (hm : 7366656 &&& mk = 7366656) :
    Keeps mk sk (oldKeyCheck s c) := by
  suffices g : Keeps 7366656 s (oldKeyCheck s c) from hk.trans (g.weaken hm)
  unfold oldKeyCheck
  with_reducible repeat' first
  | exact Keeps.refl _
  | assumption
  | decide
  | (extract_lets +onlyGivenNames s1; have h1 : Keeps 7366656 s s1 := (by unfold s1; repeat' first | exact Keeps.refl _ | assumption | decide | refine connEvent_keeps ?_ ?_ | refine setConn_keeps ?_ ?_ | refine Keeps.ite ?_ ?_ | (intro _ _) | split | dsimp only); clear_value s1)
  | (extract_lets +onlyGivenNames x1; clear_value x1)
  | refine connEvent_keeps ?_ ?_
  | refine setConn_keeps ?_ ?_
  | refine Keeps.ite ?_ ?_
  | (intro _ _)
  | split
  | dsimp only

theorem afterReset_keeps {mk : Nat} {sk : State} {s : State} {c : Nat} {rxFirst : Nat} {cause : Nat} (hk : Keeps mk sk s) (hm : 7497728 &&& mk = 7497728) :
    Keeps mk sk (afterReset s c rxFirst cause) := by
  suffices g : Keeps 7497728 s (afterReset s c rxFirst cause) from hk.trans (g.weaken hm)
  unfold afterReset
  with_reducible repeat' first
  | exact Keeps.refl _
  | assumption
  | decide
  | (extract_lets +onlyGivenNames s1; have h1 : Keeps 7497728 s s1 := (by unfold s1; repeat' first | exact Keeps.refl _ | assumption | decide | refine connEvent_keeps ?_ ?_ | refine resetSettled_keeps ?_ ?_ | refine setConn_keeps ?_ ?_ | refine Keeps.ite ?_ ?_ | (intro _ _) | split | dsimp only); clear_value s1)
  | (extract_lets +onlyGivenNames x1; clear_value x1)
  | refine connEvent_keeps ?_ ?_
  | refine resetSettled_keeps ?_ ?_
  | refine setConn_keeps ?_ ?_
  | refine Keeps.ite ?_ ?_
  | (intro _ _)
  | split
  | dsimp only

theorem rekeyTrigger_keeps {mk : Nat} {sk : State} {s : State} {c : Nat} (hk : Keeps mk sk s) (hm : 7367552 &&& mk = 7367552) :
    Keeps mk sk (rekeyTrigger s c) := by
  suffices g : Keeps 7367552 s (rekeyTrigger s c) from hk.trans (g.weaken hm)
  unfold rekeyTrigger
  with_reducible repeat' first
  | exact Keeps.refl _
  | assumption
  | decide
  | (extract_lets +onlyGivenNames s1; have h1 : Keeps 7367552 s s1 := (by unfold s1; repeat' first | exact Keeps.refl _ | assumption | decide | refine startRequest_keeps ?_ ?_ | refine Keeps.ite ?_ ?_ | (intro _ _) | split | dsimp only); clear_value s1)
  | (extract_lets +onlyGivenNames x1; clear_value x1)
  | refine startRequest_keeps ?_ ?_
  | refine Keeps.ite ?_ ?_
  | (intro _ _)
  | split
  | dsimp only

/-! ### Accept -/

theorem mergeStore_keeps {mk : Nat} {sk : State} {s : State} {op : NewOp} {p : Nat} {e : Posting} (hk : Keeps mk sk s) (hm : 7437184 &&& mk = 7437184) :
    Keeps mk sk (mergeStore s op p e) := by
  suffices g : Keeps 7437184 s (mergeStore s op p e) from hk.trans (g.weaken hm)
  unfold mergeStore
  with_reducible repeat' first
  | exact Keeps.refl _
  | assumption
  | decide
  | (extract_lets +onlyGivenNames s1; have h1 : Keeps 7437184 s s1 := (by unfold s1; repeat' first | exact Keeps.refl _ | assumption | decide | refine count_keeps ?_ ?_ | refine freeChain_keeps ?_ ?_ | refine mirrorEntry_keeps ?_ ?_ | refine poolChanged_keeps ?_ ?_ | refine setChain_keeps ?_ ?_ | refine setEntry_keeps ?_ ?_ | refine Keeps.ite ?_ ?_ | (fail_if_no_progress refine Keeps.win' ?_ _ rfl) | (intro _ _) | split | dsimp only); clear_value s1)
  | (extract_lets +onlyGivenNames x1; clear_value x1)
  | refine count_keeps ?_ ?_
  | refine freeChain_keeps ?_ ?_
  | refine mirrorEntry_keeps ?_ ?_
  | refine poolChanged_keeps ?_ ?_
  | refine setChain_keeps ?_ ?_
  | refine setEntry_keeps ?_ ?_
  | refine Keeps.ite ?_ ?_
  | (fail_if_no_progress refine Keeps.win' ?_ _ rfl)
  | (intro _ _)
  | split
  | dsimp only

theorem noteCompletion_keeps {mk : Nat} {sk : State} {s : State} {c : Nat} {head : Nat} {seq : Nat} (hk : Keeps mk sk s) (hm : 4096 &&& mk = 4096) :
    Keeps mk sk (noteCompletion s c head seq) := by
  suffices g : Keeps 4096 s (noteCompletion s c head seq) from hk.trans (g.weaken hm)
  unfold noteCompletion
  with_reducible repeat' first
  | exact Keeps.refl _
  | assumption
  | decide
  | (extract_lets +onlyGivenNames s1; have h1 : Keeps 4096 s s1 := (by unfold s1; repeat' first | exact Keeps.refl _ | assumption | decide | refine Keeps.ite ?_ ?_ | refine Keeps.iteFst ?_ ?_ | (fail_if_no_progress refine Keeps.win' ?_ _ rfl) | (intro _ _) | split | dsimp only); clear_value s1)
  | (extract_lets +onlyGivenNames x1; clear_value x1)
  | refine Keeps.ite ?_ ?_
  | refine Keeps.iteFst ?_ ?_
  | (fail_if_no_progress refine Keeps.win' ?_ _ rfl)
  | (intro _ _)
  | split
  | dsimp only

theorem assign_keeps {mk : Nat} {sk : State} {s : State} {op : NewOp} {l : Nat} {p : Option Nat} (hk : Keeps mk sk s) (hm : 7437184 &&& mk = 7437184) :
    Keeps mk sk (assign s op l p) := by
  suffices g : Keeps 7437184 s (assign s op l p) from hk.trans (g.weaken hm)
  unfold assign
  with_reducible repeat' first
  | exact Keeps.refl _
  | assumption
  | decide
  | (extract_lets +onlyGivenNames q1; have hq1 : Keeps 7437184 s q1.1 := (by unfold q1; repeat' first | exact Keeps.refl _ | assumption | decide | refine count_keeps ?_ ?_ | refine filterItem_keeps ?_ ?_ | refine mirrorEntry_keeps ?_ ?_ | refine noteCompletion_keeps ?_ ?_ | refine rekeyTrigger_keeps ?_ ?_ | refine setChain_keeps ?_ ?_ | refine setConn_keeps ?_ ?_ | refine setEntry_keeps ?_ ?_ | refine storeChain_keeps ?_ ?_ | refine Keeps.ite ?_ ?_ | refine Keeps.iteFst ?_ ?_ | (fail_if_no_progress refine Keeps.shu' ?_ _ rfl) | (fail_if_no_progress refine Keeps.win' ?_ _ rfl) | (fail_if_no_progress (refine Keeps.several ?_ (by refine ⟨?_, ?_, ?_, ?_, ?_, ?_, ?_, ?_, ?_, ?_, ?_, ?_, ?_, ?_, ?_, ?_, ?_, ?_, ?_, ?_⟩ <;> first | exact Or.inl rfl | exact Or.inr rfl))) | (intro _ _) | split | dsimp only); clear_value q1)
  | (extract_lets +onlyGivenNames s1; have h1 : Keeps 7437184 s s1 := (by unfold s1; repeat' first | exact Keeps.refl _ | assumption | decide | refine count_keeps ?_ ?_ | refine filterItem_keeps ?_ ?_ | refine mirrorEntry_keeps ?_ ?_ | refine noteCompletion_keeps ?_ ?_ | refine rekeyTrigger_keeps ?_ ?_ | refine setChain_keeps ?_ ?_ | refine setConn_keeps ?_ ?_ | refine setEntry_keeps ?_ ?_ | refine storeChain_keeps ?_ ?_ | refine Keeps.ite ?_ ?_ | refine Keeps.iteFst ?_ ?_ | (fail_if_no_progress refine Keeps.shu' ?_ _ rfl) | (fail_if_no_progress refine Keeps.win' ?_ _ rfl) | (fail_if_no_progress (refine Keeps.several ?_ (by refine ⟨?_, ?_, ?_, ?_, ?_, ?_, ?_, ?_, ?_, ?_, ?_, ?_, ?_, ?_, ?_, ?_, ?_, ?_, ?_, ?_⟩ <;> first | exact Or.inl rfl | exact Or.inr rfl))) | (intro _ _) | split | dsimp only); clear_value s1)
  | (extract_lets +onlyGivenNames x1; clear_value x1)
  | refine count_keeps ?_ ?_
  | refine filterItem_keeps ?_ ?_
  | refine mirrorEntry_keeps ?_ ?_
  | refine noteCompletion_keeps ?_ ?_
  | refine rekeyTrigger_keeps ?_ ?_
  | refine setChain_keeps ?_ ?_
  | refine setConn_keeps ?_ ?_
  | refine setEntry_keeps ?_ ?_
  | refine storeChain_keeps ?_ ?_
  | refine Keeps.ite ?_ ?_
  | refine Keeps.iteFst ?_ ?_
  | (fail_if_no_progress refine Keeps.shu' ?_ _ rfl)
  | (fail_if_no_progress refine Keeps.win' ?_ _ rfl)
  | (fail_if_no_progress (refine Keeps.several ?_ (by refine ⟨?_, ?_, ?_, ?_, ?_, ?_, ?_, ?_, ?_, ?_, ?_, ?_, ?_, ?_, ?_, ?_, ?_, ?_, ?_, ?_⟩ <;> first | exact Or.inl rfl | exact Or.inr rfl)))
  | (intro _ _)
  | split
  | dsimp only

theorem unwait_keeps {mk : Nat} {sk : State} {s : State} {op : NewOp} (hk : Keeps mk sk s) (hm : 2048 &&& mk = 2048) :
    Keeps mk sk (unwait s op) := by
  suffices g : Keeps 2048 s (unwait s op) from hk.trans (g.weaken hm)
  unfold unwait
  with_reducible repeat' first
  | exact Keeps.refl _
  | assumption
  | decide
  | (fail_if_no_progress refine Keeps.shu' ?_ _ rfl)
  | (intro _ _)
  | split
  | dsimp only

theorem deferOp_keeps {mk : Nat} {sk : State} {s : State} {op : NewOp} (hk : Keeps mk sk s) (hm : 7366656 &&& mk = 7366656) :
    Keeps mk sk (deferOp s op) := by
  suffices g : Keeps 7366656 s (deferOp s op) from hk.trans (g.weaken hm)
  unfold deferOp
  with_reducible repeat' first
  | exact Keeps.refl _
  | assumption
  | decide
  | (extract_lets +onlyGivenNames s1; have h1 : Keeps 7366656 s s1 := (by unfold s1; repeat' first | exact Keeps.refl _ | assumption | decide | refine event_keeps ?_ ?_ | refine Keeps.ite ?_ ?_ | (fail_if_no_progress refine Keeps.shu' ?_ _ rfl) | (intro _ _) | split | dsimp only); clear_value s1)
  | (extract_lets +onlyGivenNames x1; clear_value x1)
  | refine event_keeps ?_ ?_
  | refine Keeps.ite ?_ ?_
  | (fail_if_no_progress refine Keeps.shu' ?_ _ rfl)
  | (intro _ _)
  | split
  | dsimp only

theorem takeUp_keeps {mk : Nat} {sk : State} {s : State} {op : NewOp} (hk : Keeps mk sk s) (hm : 7568256 &&& mk = 7568256) :
    Keeps mk sk (takeUp s op) := by
  suffices g : Keeps 7568256 s (takeUp s op) from hk.trans (g.weaken hm)
  unfold takeUp
  with_reducible repeat' first
  | exact Keeps.refl _
  | assumption
  | decide
  | refine assign_keeps ?_ ?_
  | refine deferOp_keeps ?_ ?_
  | refine mergeStore_keeps ?_ ?_
  | refine refusePresented_keeps ?_ ?_
  | refine unwait_keeps ?_ ?_
  | refine Keeps.ite ?_ ?_
  | (intro _ _)
  | split
  | dsimp only

theorem operationAccept_keeps {mk : Nat} {sk : State} {s : State} (hk : Keeps mk sk s) (hm : 7568256 &&& mk = 7568256) :
    Keeps mk sk (operationAccept s) := by
  suffices g : Keeps 7568256 s (operationAccept s) from hk.trans (g.weaken hm)
  unfold operationAccept
  with_reducible repeat' first
  | exact Keeps.refl _
  | assumption
  | decide
  | refine takeUp_keeps ?_ ?_
  | (intro _ _)
  | split
  | dsimp only

theorem deferredAccept_keeps {mk : Nat} {sk : State} {s : State} (hk : Keeps mk sk s) (hm : 7568256 &&& mk = 7568256) :
    Keeps mk sk (deferredAccept s) := by
  suffices g : Keeps 7568256 s (deferredAccept s) from hk.trans (g.weaken hm)
  unfold deferredAccept
  with_reducible repeat' first
  | exact Keeps.refl _
  | assumption
  | decide
  | refine takeUp_keeps ?_ ?_
  | (intro _ _)
  | split
  | dsimp only

theorem sendEntry_keeps {mk : Nat} {sk : State} {s : State} {l : Nat} {e : LedgerEntry} (hk : Keeps mk sk s) (hm : 7367168 &&& mk = 7367168) :
    Keeps mk sk (sendEntry s l e) := by
  suffices g : Keeps 7367168 s (sendEntry s l e) from hk.trans (g.weaken hm)
  unfold sendEntry
  with_reducible repeat' first
  | exact Keeps.refl _
  | assumption
  | decide
  | (extract_lets +onlyGivenNames s1; have h1 : Keeps 7367168 s s1 := (by unfold s1; repeat' first | exact Keeps.refl _ | assumption | decide | refine addRef_keeps ?_ ?_ | refine enqueueCopy_keeps ?_ ?_ | refine enqueueOper_keeps ?_ ?_ | refine noRoute_keeps ?_ ?_ | refine setEntry_keeps ?_ ?_ | refine Keeps.ite ?_ ?_ | (fail_if_no_progress refine Keeps.shu' ?_ _ rfl) | (intro _ _) | split | dsimp only); clear_value s1)
  | (extract_lets +onlyGivenNames x1; clear_value x1)
  | refine addRef_keeps ?_ ?_
  | refine enqueueCopy_keeps ?_ ?_
  | refine enqueueOper_keeps ?_ ?_
  | refine noRoute_keeps ?_ ?_
  | refine setEntry_keeps ?_ ?_
  | refine Keeps.ite ?_ ?_
  | (fail_if_no_progress refine Keeps.shu' ?_ _ rfl)
  | (intro _ _)
  | split
  | dsimp only


theorem payBandwidth_keeps {mk : Nat} {sk : State} {s : State} {op : NewOp} {t' : State} (hk : Keeps mk sk s) (hm : 8192 &&& mk = 8192)
    (e : payBandwidth s op = some t') : Keeps mk sk t' := by
  suffices g : Keeps 8192 s t' from hk.trans (g.weaken hm)
  unfold payBandwidth at e
  repeat' split at e
  all_goals try (injection e with e; subst e; exact Keeps.refl _)
  all_goals
    extract_lets n rp ri bi bp at e
    split at e
    · cases e
    · injection e with e
      subst e
      refine Keeps.ite ?_ ?_
      · refine Keeps.ite (Keeps.refl _) (setInst_keeps (Keeps.refl _) (by decide))
      · refine Keeps.eng' ?_ _ rfl
        refine Keeps.ite (Keeps.refl _) (setInst_keeps (Keeps.refl _) (by decide))

theorem operationFirstSend_keeps {mk : Nat} {sk : State} {c : Nat} {s : State} (hk : Keeps mk sk s) (hm : 7436800 &&& mk = 7436800) :
    Keeps mk sk (operationFirstSend c s) := by
  suffices g : Keeps 7436800 s (operationFirstSend c s) from hk.trans (g.weaken hm)
  unfold operationFirstSend
  with_reducible repeat' first
  | exact Keeps.refl _
  | assumption
  | decide
  | (extract_lets +onlyGivenNames q1; have hq1 : Keeps 7436800 s q1.1 := (by unfold q1; repeat' first | exact Keeps.refl _ | assumption | decide | refine count_keeps ?_ ?_ | refine payBandwidth_keeps ?_ ?_ (by assumption) | refine sendEntry_keeps ?_ ?_ | refine Keeps.ite ?_ ?_ | (fail_if_no_progress refine Keeps.win' ?_ _ rfl) | (fail_if_no_progress refine Keeps.twin' ?_ _ rfl) | (fail_if_no_progress (refine Keeps.several ?_ (by refine ⟨?_, ?_, ?_, ?_, ?_, ?_, ?_, ?_, ?_, ?_, ?_, ?_, ?_, ?_, ?_, ?_, ?_, ?_, ?_, ?_⟩ <;> first | exact Or.inl rfl | exact Or.inr rfl))) | (intro _ _) | split | dsimp only); clear_value q1)
  | (extract_lets +onlyGivenNames s1; have h1 : Keeps 7436800 s s1 := (by unfold s1; repeat' first | exact Keeps.refl _ | assumption | decide | refine count_keeps ?_ ?_ | refine payBandwidth_keeps ?_ ?_ (by assumption) | refine sendEntry_keeps ?_ ?_ | refine Keeps.ite ?_ ?_ | (fail_if_no_progress refine Keeps.win' ?_ _ rfl) | (fail_if_no_progress refine Keeps.twin' ?_ _ rfl) | (fail_if_no_progress (refine Keeps.several ?_ (by refine ⟨?_, ?_, ?_, ?_, ?_, ?_, ?_, ?_, ?_, ?_, ?_, ?_, ?_, ?_, ?_, ?_, ?_, ?_, ?_, ?_⟩ <;> first | exact Or.inl rfl | exact Or.inr rfl))) | (intro _ _) | split | dsimp only); clear_value s1)
  | (extract_lets +onlyGivenNames x1; clear_value x1)
  | refine count_keeps ?_ ?_
  | refine payBandwidth_keeps ?_ ?_ (by assumption)
  | refine sendEntry_keeps ?_ ?_
  | refine Keeps.ite ?_ ?_
  | (fail_if_no_progress refine Keeps.win' ?_ _ rfl)
  | (fail_if_no_progress refine Keeps.twin' ?_ _ rfl)
  | (fail_if_no_progress (refine Keeps.several ?_ (by refine ⟨?_, ?_, ?_, ?_, ?_, ?_, ?_, ?_, ?_, ?_, ?_, ?_, ?_, ?_, ?_, ?_, ?_, ?_, ?_, ?_⟩ <;> first | exact Or.inl rfl | exact Or.inr rfl)))
  | (intro _ _)
  | split
  | dsimp only

theorem adoptedCheck_keeps {mk : Nat} {sk : State} {s : State} {c : Nat} (hk : Keeps mk sk s) (hm : 7568256 &&& mk = 7568256) :
    Keeps mk sk (adoptedCheck s c) := by
  suffices g : Keeps 7568256 s (adoptedCheck s c) from hk.trans (g.weaken hm)
  unfold adoptedCheck
  with_reducible repeat' first
  | exact Keeps.refl _
  | assumption
  | decide
  | (extract_lets +onlyGivenNames s1; have h1 : Keeps 7568256 s s1 := (by unfold s1; repeat' first | exact Keeps.refl _ | assumption | decide | refine count_keeps ?_ ?_ | refine event_keeps ?_ ?_ | refine ownerClose_keeps ?_ ?_ | refine Keeps.ite ?_ ?_ | (intro _ _) | split | dsimp only); clear_value s1)
  | (extract_lets +onlyGivenNames x1; clear_value x1)
  | refine count_keeps ?_ ?_
  | refine event_keeps ?_ ?_
  | refine ownerClose_keeps ?_ ?_
  | refine Keeps.ite ?_ ?_
  | (intro _ _)
  | split
  | dsimp only

theorem timeoutCounts_keeps {mk : Nat} {sk : State} {s : State} {c : Nat} {seq : Nat} (hk : Keeps mk sk s) (hm : 7366656 &&& mk = 7366656) :
    Keeps mk sk (timeoutCounts s c seq) := by
  suffices g : Keeps 7366656 s (timeoutCounts s c seq) from hk.trans (g.weaken hm)
  unfold timeoutCounts
  with_reducible repeat' first
  | exact Keeps.refl _
  | assumption
  | decide
  | (extract_lets +onlyGivenNames s1; have h1 : Keeps 7366656 s s1 := (by unfold s1; repeat' first | exact Keeps.refl _ | assumption | decide | refine connEvent_keeps ?_ ?_ | refine count_keeps ?_ ?_ | refine setConn_keeps ?_ ?_ | refine Keeps.ite ?_ ?_ | (intro _ _) | split | dsimp only); clear_value s1)
  | (extract_lets +onlyGivenNames x1; clear_value x1)
  | refine connEvent_keeps ?_ ?_
  | refine count_keeps ?_ ?_
  | refine setConn_keeps ?_ ?_
  | refine Keeps.ite ?_ ?_
  | (intro _ _)
  | split
  | dsimp only

theorem retransmitTimeout_keeps {mk : Nat} {sk : State} {l : Nat} {s : State} (hk : Keeps mk sk s) (hm : 7601024 &&& mk = 7601024) :
    Keeps mk sk (retransmitTimeout l s) := by
  suffices g : Keeps 7601024 s (retransmitTimeout l s) from hk.trans (g.weaken hm)
  unfold retransmitTimeout
  with_reducible repeat' first
  | exact Keeps.refl _
  | assumption
  | decide
  | (extract_lets +onlyGivenNames s1; have h1 : Keeps 7601024 s s1 := (by unfold s1; repeat' first | exact Keeps.refl _ | assumption | decide | refine adoptedCheck_keeps ?_ ?_ | refine count_keeps ?_ ?_ | refine sendEntry_keeps ?_ ?_ | refine setEntry_keeps ?_ ?_ | refine timeoutCounts_keeps ?_ ?_ | refine toStalled_keeps ?_ ?_ | refine Keeps.ite ?_ ?_ | (intro _ _) | split | dsimp only); clear_value s1)
  | (extract_lets +onlyGivenNames x1; clear_value x1)
  | refine adoptedCheck_keeps ?_ ?_
  | refine count_keeps ?_ ?_
  | refine sendEntry_keeps ?_ ?_
  | refine setEntry_keeps ?_ ?_
  | refine timeoutCounts_keeps ?_ ?_
  | refine toStalled_keeps ?_ ?_
  | refine Keeps.ite ?_ ?_
  | (intro _ _)
  | split
  | dsimp only

end Sys2Proof.Laws
end

