-- ==== Sys2Proof/Laws/KeepsFabric.lean ====
section
/-!
SUPPORT. What the functions keep, one lemma each: the receiving shuttle, connections, the twin, the fabric and its master.
-/

namespace Sys2Proof.Laws

open Sys2Proof.Machine

set_option linter.all false

/-! ### Receive -/

theorem sendAck_keeps {mk : Nat} {sk : State} {s : State} {c : Nat} {env : Nat} {cumOnly : Bool} (hk : Keeps mk sk s) (hm : 7367552 &&& mk = 7367552) :
    Keeps mk sk (sendAck s c env cumOnly) := by
  suffices g : Keeps 7367552 s (sendAck s c env cumOnly) from hk.trans (g.weaken hm)
  unfold sendAck
  with_reducible repeat' first
  | exact Keeps.refl _
  | assumption
  | decide
  | (extract_lets +onlyGivenNames s1; have h1 : Keeps 7367552 s s1 := (by unfold s1; repeat' first | exact Keeps.refl _ | assumption | decide | refine count_keeps ?_ ?_ | refine sendControl_keeps ?_ ?_ | refine setConn_keeps ?_ ?_ | refine Keeps.ite ?_ ?_ | refine Keeps.iteFst ?_ ?_ | (intro _ _) | split | dsimp only); clear_value s1)
  | (extract_lets +onlyGivenNames x1; clear_value x1)
  | refine count_keeps ?_ ?_
  | refine sendControl_keeps ?_ ?_
  | refine setConn_keeps ?_ ?_
  | refine Keeps.ite ?_ ?_
  | refine Keeps.iteFst ?_ ?_
  | (intro _ _)
  | split
  | dsimp only

theorem ackSend_keeps {mk : Nat} {sk : State} {c : Nat} {s : State} (hk : Keeps mk sk s) (hm : 7367552 &&& mk = 7367552) :
    Keeps mk sk (ackSend c s) := by
  suffices g : Keeps 7367552 s (ackSend c s) from hk.trans (g.weaken hm)
  unfold ackSend
  with_reducible repeat' first
  | exact Keeps.refl _
  | assumption
  | decide
  | (extract_lets +onlyGivenNames s1; have h1 : Keeps 7367552 s s1 := (by unfold s1; repeat' first | exact Keeps.refl _ | assumption | decide | refine sendAck_keeps ?_ ?_ | refine Keeps.ite ?_ ?_ | (intro _ _) | split | dsimp only); clear_value s1)
  | (extract_lets +onlyGivenNames x1; clear_value x1)
  | refine sendAck_keeps ?_ ?_
  | refine Keeps.ite ?_ ?_
  | (intro _ _)
  | split
  | dsimp only

theorem sendNak_keeps {mk : Nat} {sk : State} {s : State} {c : Nat} {env : Nat} {reason : Nat} {late : Bool} {window : Nat} {offset : Nat} (hk : Keeps mk sk s) (hm : 7367552 &&& mk = 7367552) :
    Keeps mk sk (sendNak s c env reason late window offset) := by
  suffices g : Keeps 7367552 s (sendNak s c env reason late window offset) from hk.trans (g.weaken hm)
  unfold sendNak
  with_reducible repeat' first
  | exact Keeps.refl _
  | assumption
  | decide
  | (extract_lets +onlyGivenNames s1; have h1 : Keeps 7367552 s s1 := (by unfold s1; repeat' first | exact Keeps.refl _ | assumption | decide | refine count_keeps ?_ ?_ | refine sendControl_keeps ?_ ?_ | (intro _ _) | split | dsimp only); clear_value s1)
  | (extract_lets +onlyGivenNames x1; clear_value x1)
  | refine count_keeps ?_ ?_
  | refine sendControl_keeps ?_ ?_
  | (intro _ _)
  | split
  | dsimp only

theorem nakUnknown_keeps {mk : Nat} {sk : State} {s : State} {o : WireOp} (hk : Keeps mk sk s) (hm : 7367552 &&& mk = 7367552) :
    Keeps mk sk (nakUnknown s o) := by
  suffices g : Keeps 7367552 s (nakUnknown s o) from hk.trans (g.weaken hm)
  unfold nakUnknown
  with_reducible repeat' first
  | exact Keeps.refl _
  | assumption
  | decide
  | (extract_lets +onlyGivenNames s1; have h1 : Keeps 7367552 s s1 := (by unfold s1; repeat' first | exact Keeps.refl _ | assumption | decide | refine afterFree_keeps ?_ ?_ | refine count_keeps ?_ ?_ | refine sendOpen_keeps ?_ ?_ | (intro _ _) | split | dsimp only); clear_value s1)
  | (extract_lets +onlyGivenNames x1; clear_value x1)
  | refine afterFree_keeps ?_ ?_
  | refine count_keeps ?_ ?_
  | refine sendOpen_keeps ?_ ?_
  | (intro _ _)
  | split
  | dsimp only

theorem tagFailed_keeps {mk : Nat} {sk : State} {s : State} {c : Nat} {o : WireOp} (hk : Keeps mk sk s) (hm : 7397632 &&& mk = 7397632) :
    Keeps mk sk (tagFailed s c o) := by
  suffices g : Keeps 7397632 s (tagFailed s c o) from hk.trans (g.weaken hm)
  unfold tagFailed
  with_reducible repeat' first
  | exact Keeps.refl _
  | assumption
  | decide
  | (extract_lets +onlyGivenNames s1; have h1 : Keeps 7397632 s s1 := (by unfold s1; repeat' first | exact Keeps.refl _ | assumption | decide | refine connError_keeps ?_ ?_ | refine count_keeps ?_ ?_ | refine rateEvent_keeps ?_ rfl (fun u a hu => ?_) | refine selContained_keeps ?_ ?_ | (intro _ _) | split | dsimp only); clear_value s1)
  | (extract_lets +onlyGivenNames x1; clear_value x1)
  | refine connError_keeps ?_ ?_
  | refine count_keeps ?_ ?_
  | refine rateEvent_keeps ?_ rfl (fun u a hu => ?_)
  | refine selContained_keeps ?_ ?_
  | (intro _ _)
  | split
  | dsimp only

theorem tagFailedOpen_keeps {mk : Nat} {sk : State} {s : State} {o : WireOp} (hk : Keeps mk sk s) (hm : 7397632 &&& mk = 7397632) :
    Keeps mk sk (tagFailedOpen s o) := by
  suffices g : Keeps 7397632 s (tagFailedOpen s o) from hk.trans (g.weaken hm)
  unfold tagFailedOpen
  with_reducible repeat' first
  | exact Keeps.refl _
  | assumption
  | decide
  | (extract_lets +onlyGivenNames s1; have h1 : Keeps 7397632 s s1 := (by unfold s1; repeat' first | exact Keeps.refl _ | assumption | decide | refine count_keeps ?_ ?_ | refine eventFull_keeps ?_ ?_ | refine rateEvent_keeps ?_ rfl (fun u a hu => ?_) | refine selContained_keeps ?_ ?_ | (intro _ _) | split | dsimp only); clear_value s1)
  | (extract_lets +onlyGivenNames x1; clear_value x1)
  | refine count_keeps ?_ ?_
  | refine eventFull_keeps ?_ ?_
  | refine rateEvent_keeps ?_ rfl (fun u a hu => ?_)
  | refine selContained_keeps ?_ ?_
  | (intro _ _)
  | split
  | dsimp only


theorem acceptControl_keeps {mk : Nat} {sk : State} {s : State} {c : Nat} {o : WireOp} {t' : State} (hk : Keeps mk sk s) (hm : 2048 &&& mk = 2048)
    (e : acceptControl s c o = some t') : Keeps mk sk t' := by
  suffices g : Keeps 2048 s t' from hk.trans (g.weaken hm)
  unfold acceptControl at e
  extract_lets x n ok at e
  clear_value x n ok
  repeat' split at e
  all_goals first
    | cases e; done
    | (injection e with e; subst e; exact setConn_keeps (Keeps.refl _) (by decide))

theorem refuseControl_keeps {mk : Nat} {sk : State} {s : State} {c : Nat} {o : WireOp} (hk : Keeps mk sk s) (hm : 7397632 &&& mk = 7397632) :
    Keeps mk sk (refuseControl s c o) := by
  suffices g : Keeps 7397632 s (refuseControl s c o) from hk.trans (g.weaken hm)
  unfold refuseControl
  with_reducible repeat' first
  | exact Keeps.refl _
  | assumption
  | decide
  | (extract_lets +onlyGivenNames s1; have h1 : Keeps 7397632 s s1 := (by unfold s1; repeat' first | exact Keeps.refl _ | assumption | decide | refine tagFailed_keeps ?_ ?_ | refine Keeps.ite ?_ ?_ | (intro _ _) | split | dsimp only); clear_value s1)
  | (extract_lets +onlyGivenNames x1; clear_value x1)
  | refine tagFailed_keeps ?_ ?_
  | refine Keeps.ite ?_ ?_
  | (intro _ _)
  | split
  | dsimp only

theorem handled_keeps {mk : Nat} {sk : State} {s : State} {c : Nat} {o : WireOp} {reason : Nat} {window : Nat} {offset : Nat} (hk : Keeps mk sk s) (hm : 7367552 &&& mk = 7367552) :
    Keeps mk sk (handled s c o reason window offset) := by
  suffices g : Keeps 7367552 s (handled s c o reason window offset) from hk.trans (g.weaken hm)
  unfold handled
  with_reducible repeat' first
  | exact Keeps.refl _
  | assumption
  | decide
  | (extract_lets +onlyGivenNames s1; have h1 : Keeps 7367552 s s1 := (by unfold s1; repeat' first | exact Keeps.refl _ | assumption | decide | refine sendNak_keeps ?_ ?_ | refine setConn_keeps ?_ ?_ | refine Keeps.ite ?_ ?_ | refine Keeps.iteFst ?_ ?_ | (intro _ _) | split | dsimp only); clear_value s1)
  | (extract_lets +onlyGivenNames x1; clear_value x1)
  | refine sendNak_keeps ?_ ?_
  | refine setConn_keeps ?_ ?_
  | refine Keeps.ite ?_ ?_
  | refine Keeps.iteFst ?_ ?_
  | (intro _ _)
  | split
  | dsimp only

theorem answerPart_keeps {mk : Nat} {sk : State} {s : State} {src : Nat} {o : Origin} {q : Tlp} {status : Nat} {remain : Nat} {got : Nat} {data : List Byte} (hk : Keeps mk sk s) (hm : 7371648 &&& mk = 7371648) :
    Keeps mk sk (answerPart s src o q status remain got data) := by
  suffices g : Keeps 7371648 s (answerPart s src o q status remain got data) from hk.trans (g.weaken hm)
  unfold answerPart
  with_reducible repeat' first
  | exact Keeps.refl _
  | assumption
  | decide
  | (extract_lets +onlyGivenNames q1; have hq1 : Keeps 7371648 s q1.1 := (by unfold q1; repeat' first | exact Keeps.refl _ | assumption | decide | refine answer_keeps ?_ ?_ | refine enqueueTlp_keeps ?_ ?_ | refine presentTunnel_keeps ?_ ?_ | (intro _ _) | split | dsimp only); clear_value q1)
  | (extract_lets +onlyGivenNames s1; have h1 : Keeps 7371648 s s1 := (by unfold s1; repeat' first | exact Keeps.refl _ | assumption | decide | refine answer_keeps ?_ ?_ | refine enqueueTlp_keeps ?_ ?_ | refine presentTunnel_keeps ?_ ?_ | (intro _ _) | split | dsimp only); clear_value s1)
  | (extract_lets +onlyGivenNames x1; clear_value x1)
  | refine answer_keeps ?_ ?_
  | refine enqueueTlp_keeps ?_ ?_
  | refine presentTunnel_keeps ?_ ?_
  | (intro _ _)
  | split
  | dsimp only

theorem freeOpt_keeps {mk : Nat} {sk : State} {s : State} {chain : Option Nat} (hk : Keeps mk sk s) (hm : 7365504 &&& mk = 7365504) :
    Keeps mk sk (freeOpt s chain) := by
  suffices g : Keeps 7365504 s (freeOpt s chain) from hk.trans (g.weaken hm)
  unfold freeOpt
  with_reducible repeat' first
  | exact Keeps.refl _
  | assumption
  | decide
  | refine freeChain_keeps ?_ ?_
  | (intro _ _)
  | split
  | dsimp only

theorem withdraw_keeps {mk : Nat} {sk : State} {s : State} {t : Ticket} (hk : Keeps mk sk s) (hm : 7367552 &&& mk = 7367552) :
    Keeps mk sk (withdraw s t) := by
  suffices g : Keeps 7367552 s (withdraw s t) from hk.trans (g.weaken hm)
  unfold withdraw
  with_reducible repeat' first
  | exact Keeps.refl _
  | assumption
  | decide
  | (extract_lets +onlyGivenNames s1; have h1 : Keeps 7367552 s s1 := (by unfold s1; repeat' first | exact Keeps.refl _ | assumption | decide | refine descMod_keeps ?_ ?_ | refine freeOpt_keeps ?_ ?_ | refine Keeps.foldl ?_ _ (fun u a hu => ?_) | refine Keeps.foldlFst ?_ _ (fun u a hu => ?_) | (fail_if_no_progress refine Keeps.shu' ?_ _ rfl) | (intro _ _) | split | dsimp only); clear_value s1)
  | (extract_lets +onlyGivenNames x1; clear_value x1)
  | refine descMod_keeps ?_ ?_
  | refine freeOpt_keeps ?_ ?_
  | refine Keeps.foldl ?_ _ (fun u a hu => ?_)
  | refine Keeps.foldlFst ?_ _ (fun u a hu => ?_)
  | (fail_if_no_progress refine Keeps.shu' ?_ _ rfl)
  | (intro _ _)
  | split
  | dsimp only

theorem descriptorPart_keeps {mk : Nat} {sk : State} {s : State} {a : Asked} {t : Ticket} {status : Nat} {data : List Byte} {last : Bool} (hk : Keeps mk sk s) (hm : 7367552 &&& mk = 7367552) :
    Keeps mk sk (descriptorPart s a t status data last) := by
  suffices g : Keeps 7367552 s (descriptorPart s a t status data last) from hk.trans (g.weaken hm)
  unfold descriptorPart
  with_reducible repeat' first
  | exact Keeps.refl _
  | assumption
  | decide
  | (extract_lets +onlyGivenNames q1; have hq1 : Keeps 7367552 s q1.1 := (by unfold q1; repeat' first | exact Keeps.refl _ | assumption | decide | refine descCond_keeps ?_ ?_ | refine descDone_keeps ?_ ?_ | refine descMod_keeps ?_ ?_ | refine localWrite_keeps ?_ ?_ | refine withdraw_keeps ?_ ?_ | refine Keeps.ite ?_ ?_ | refine Keeps.iteFst ?_ ?_ | (intro _ _) | split | dsimp only); clear_value q1)
  | (extract_lets +onlyGivenNames s1; have h1 : Keeps 7367552 s s1 := (by unfold s1; repeat' first | exact Keeps.refl _ | assumption | decide | refine descCond_keeps ?_ ?_ | refine descDone_keeps ?_ ?_ | refine descMod_keeps ?_ ?_ | refine localWrite_keeps ?_ ?_ | refine withdraw_keeps ?_ ?_ | refine Keeps.ite ?_ ?_ | refine Keeps.iteFst ?_ ?_ | (intro _ _) | split | dsimp only); clear_value s1)
  | (extract_lets +onlyGivenNames x1; clear_value x1)
  | refine descCond_keeps ?_ ?_
  | refine descDone_keeps ?_ ?_
  | refine descMod_keeps ?_ ?_
  | refine localWrite_keeps ?_ ?_
  | refine withdraw_keeps ?_ ?_
  | refine Keeps.ite ?_ ?_
  | refine Keeps.iteFst ?_ ?_
  | (intro _ _)
  | split
  | dsimp only

theorem deliverCompletion_keeps {mk : Nat} {sk : State} {s : State} {c : Nat} {src : Nat} {o : WireOp} (hk : Keeps mk sk s) (hm : 7437184 &&& mk = 7437184) :
    Keeps mk sk (deliverCompletion s c src o).1 := by
  suffices g : Keeps 7437184 s (deliverCompletion s c src o).1 from hk.trans (g.weaken hm)
  unfold deliverCompletion
  with_reducible repeat' first
  | exact Keeps.refl _
  | assumption
  | decide
  | (extract_lets +onlyGivenNames q1; have hq1 : Keeps 7437184 s q1.1 := (by unfold q1; repeat' first | exact Keeps.refl _ | assumption | decide | refine answerPart_keeps ?_ ?_ | refine connEvent_keeps ?_ ?_ | refine count_keeps ?_ ?_ | refine descriptorPart_keeps ?_ ?_ | refine drawMark_keeps ?_ ?_ | refine releaseEntry_keeps ?_ ?_ | refine setConn_keeps ?_ ?_ | refine Keeps.ite ?_ ?_ | refine Keeps.iteFst ?_ ?_ | refine Keeps.ofPair (by assumption) ?_ | (intro _ _) | split | dsimp only); clear_value q1)
  | (extract_lets +onlyGivenNames s1; have h1 : Keeps 7437184 s s1 := (by unfold s1; repeat' first | exact Keeps.refl _ | assumption | decide | refine answerPart_keeps ?_ ?_ | refine connEvent_keeps ?_ ?_ | refine count_keeps ?_ ?_ | refine descriptorPart_keeps ?_ ?_ | refine drawMark_keeps ?_ ?_ | refine releaseEntry_keeps ?_ ?_ | refine setConn_keeps ?_ ?_ | refine Keeps.ite ?_ ?_ | refine Keeps.iteFst ?_ ?_ | refine Keeps.ofPair (by assumption) ?_ | (intro _ _) | split | dsimp only); clear_value s1)
  | (extract_lets +onlyGivenNames x1; clear_value x1)
  | refine answerPart_keeps ?_ ?_
  | refine connEvent_keeps ?_ ?_
  | refine count_keeps ?_ ?_
  | refine descriptorPart_keeps ?_ ?_
  | refine drawMark_keeps ?_ ?_
  | refine releaseEntry_keeps ?_ ?_
  | refine setConn_keeps ?_ ?_
  | refine Keeps.ite ?_ ?_
  | refine Keeps.iteFst ?_ ?_
  | refine Keeps.ofPair (by assumption) ?_
  | (intro _ _)
  | split
  | dsimp only

theorem deliverTunnel_keeps {mk : Nat} {sk : State} {s : State} {c : Nat} {src : Nat} {chain : Option Nat} {o : WireOp} (hk : Keeps mk sk s) (hm : 7367552 &&& mk = 7367552) :
    Keeps mk sk (deliverTunnel s c src chain o) := by
  suffices g : Keeps 7367552 s (deliverTunnel s c src chain o) from hk.trans (g.weaken hm)
  unfold deliverTunnel
  with_reducible repeat' first
  | exact Keeps.refl _
  | assumption
  | decide
  | (extract_lets +onlyGivenNames s1; have h1 : Keeps 7367552 s s1 := (by unfold s1; repeat' first | exact Keeps.refl _ | assumption | decide | refine freeOpt_keeps ?_ ?_ | refine setConn_keeps ?_ ?_ | refine Keeps.ite ?_ ?_ | (fail_if_no_progress refine Keeps.shu' ?_ _ rfl) | (intro _ _) | split | dsimp only); clear_value s1)
  | (extract_lets +onlyGivenNames x1; clear_value x1)
  | refine freeOpt_keeps ?_ ?_
  | refine setConn_keeps ?_ ?_
  | refine Keeps.ite ?_ ?_
  | (fail_if_no_progress refine Keeps.shu' ?_ _ rfl)
  | (intro _ _)
  | split
  | dsimp only

theorem handledHere_keeps {mk : Nat} {sk : State} {s : State} {c : Nat} {chain : Option Nat} {o : WireOp} (hk : Keeps mk sk s) (hm : 7367552 &&& mk = 7367552) :
    Keeps mk sk (handledHere s c chain o) := by
  suffices g : Keeps 7367552 s (handledHere s c chain o) from hk.trans (g.weaken hm)
  unfold handledHere
  with_reducible repeat' first
  | exact Keeps.refl _
  | assumption
  | decide
  | (extract_lets +onlyGivenNames q1; have hq1 : Keeps 7367552 s q1.1 := (by unfold q1; repeat' first | exact Keeps.refl _ | assumption | decide | refine drawMark_keeps ?_ ?_ | refine freeOpt_keeps ?_ ?_ | refine handled_keeps ?_ ?_ | refine Keeps.ofPair (by assumption) ?_ | (intro _ _) | split | dsimp only); clear_value q1)
  | (extract_lets +onlyGivenNames s1; have h1 : Keeps 7367552 s s1 := (by unfold s1; repeat' first | exact Keeps.refl _ | assumption | decide | refine drawMark_keeps ?_ ?_ | refine freeOpt_keeps ?_ ?_ | refine handled_keeps ?_ ?_ | refine Keeps.ofPair (by assumption) ?_ | (intro _ _) | split | dsimp only); clear_value s1)
  | (extract_lets +onlyGivenNames x1; clear_value x1)
  | refine drawMark_keeps ?_ ?_
  | refine freeOpt_keeps ?_ ?_
  | refine handled_keeps ?_ ?_
  | refine Keeps.ofPair (by assumption) ?_
  | (intro _ _)
  | split
  | dsimp only

theorem deliverOp_keeps {mk : Nat} {sk : State} {s : State} {c : Nat} {g : HeldOp} (hk : Keeps mk sk s) (hm : 7438208 &&& mk = 7438208) :
    Keeps mk sk (deliverOp s c g) := by
  suffices g : Keeps 7438208 s (deliverOp s c g) from hk.trans (g.weaken hm)
  unfold deliverOp
  with_reducible repeat' first
  | exact Keeps.refl _
  | assumption
  | decide
  | (extract_lets +onlyGivenNames q1; have hq1 : Keeps 7438208 s q1.1 := (by unfold q1; repeat' first | exact Keeps.refl _ | assumption | decide | refine deliverCompletion_keeps ?_ ?_ | refine deliverRequest_delivered ?_ ?_ (by assumption) | refine deliverRequest_discarded ?_ ?_ (by assumption) | refine deliverRequest_refused ?_ ?_ (by assumption) | refine deliverTunnel_keeps ?_ ?_ | refine drawMark_keeps ?_ ?_ | refine filterItem_keeps ?_ ?_ | refine freeOpt_keeps ?_ ?_ | refine handOver_keeps ?_ ?_ | refine handled_keeps ?_ ?_ | refine handledHere_keeps ?_ ?_ | refine Keeps.ite ?_ ?_ | refine Keeps.ofPair (by assumption) ?_ | (fail_if_no_progress refine Keeps.fab' ?_ _ rfl) | (fail_if_no_progress refine Keeps.twin' ?_ _ rfl) | (fail_if_no_progress (refine Keeps.several ?_ (by refine ⟨?_, ?_, ?_, ?_, ?_, ?_, ?_, ?_, ?_, ?_, ?_, ?_, ?_, ?_, ?_, ?_, ?_, ?_, ?_, ?_⟩ <;> first | exact Or.inl rfl | exact Or.inr rfl))) | (intro _ _) | split | dsimp only); clear_value q1)
  | (extract_lets +onlyGivenNames s1; have h1 : Keeps 7438208 s s1 := (by unfold s1; repeat' first | exact Keeps.refl _ | assumption | decide | refine deliverCompletion_keeps ?_ ?_ | refine deliverRequest_delivered ?_ ?_ (by assumption) | refine deliverRequest_discarded ?_ ?_ (by assumption) | refine deliverRequest_refused ?_ ?_ (by assumption) | refine deliverTunnel_keeps ?_ ?_ | refine drawMark_keeps ?_ ?_ | refine filterItem_keeps ?_ ?_ | refine freeOpt_keeps ?_ ?_ | refine handOver_keeps ?_ ?_ | refine handled_keeps ?_ ?_ | refine handledHere_keeps ?_ ?_ | refine Keeps.ite ?_ ?_ | refine Keeps.ofPair (by assumption) ?_ | (fail_if_no_progress refine Keeps.fab' ?_ _ rfl) | (fail_if_no_progress refine Keeps.twin' ?_ _ rfl) | (fail_if_no_progress (refine Keeps.several ?_ (by refine ⟨?_, ?_, ?_, ?_, ?_, ?_, ?_, ?_, ?_, ?_, ?_, ?_, ?_, ?_, ?_, ?_, ?_, ?_, ?_, ?_⟩ <;> first | exact Or.inl rfl | exact Or.inr rfl))) | (intro _ _) | split | dsimp only); clear_value s1)
  | (extract_lets +onlyGivenNames x1; clear_value x1)
  | refine deliverCompletion_keeps ?_ ?_
  | refine deliverRequest_delivered ?_ ?_ (by assumption)
  | refine deliverRequest_discarded ?_ ?_ (by assumption)
  | refine deliverRequest_refused ?_ ?_ (by assumption)
  | refine deliverTunnel_keeps ?_ ?_
  | refine drawMark_keeps ?_ ?_
  | refine filterItem_keeps ?_ ?_
  | refine freeOpt_keeps ?_ ?_
  | refine handOver_keeps ?_ ?_
  | refine handled_keeps ?_ ?_
  | refine handledHere_keeps ?_ ?_
  | refine Keeps.ite ?_ ?_
  | refine Keeps.ofPair (by assumption) ?_
  | (fail_if_no_progress refine Keeps.fab' ?_ _ rfl)
  | (fail_if_no_progress refine Keeps.twin' ?_ _ rfl)
  | (fail_if_no_progress (refine Keeps.several ?_ (by refine ⟨?_, ?_, ?_, ?_, ?_, ?_, ?_, ?_, ?_, ?_, ?_, ?_, ?_, ?_, ?_, ?_, ?_, ?_, ?_, ?_⟩ <;> first | exact Or.inl rfl | exact Or.inr rfl)))
  | (intro _ _)
  | split
  | dsimp only

theorem deliverHeld_keeps {mk : Nat} {sk : State}  {k : Nat} {s : State} {c : Nat} (hk : Keeps mk sk s) (hm : 7438208 &&& mk = 7438208) :
    Keeps mk sk (deliverHeld k s c) := by
  have aux : ∀ (k : Nat) (c : Nat) (u t : State), Keeps 7438208 u t → Keeps 7438208 u (deliverHeld k t c) := by
    intro k
    induction k with
    | zero => intro c u t h0; unfold deliverHeld; exact h0
    | succ n ih =>
      intro c u t h0
      unfold deliverHeld
      with_reducible repeat' first
        | with_reducible exact Keeps.refl _
        | with_reducible assumption
        | decide
        | (extract_lets +onlyGivenNames q1; have hq1 : Keeps 7438208 u q1.1 := (by unfold q1; repeat' first | with_reducible exact Keeps.refl _ | with_reducible assumption | decide | with_reducible refine ih _ _ _ ?_ | refine deliverOp_keeps ?_ ?_ | refine setConn_keeps ?_ ?_ | (intro _ _) | split | dsimp only); clear_value q1)
        | (extract_lets +onlyGivenNames s1; have h1 : Keeps 7438208 u s1 := (by unfold s1; repeat' first | with_reducible exact Keeps.refl _ | with_reducible assumption | decide | with_reducible refine ih _ _ _ ?_ | refine deliverOp_keeps ?_ ?_ | refine setConn_keeps ?_ ?_ | (intro _ _) | split | dsimp only); clear_value s1)
        | (extract_lets +onlyGivenNames x1; clear_value x1)
        | with_reducible refine ih _ _ _ ?_
        | refine deliverOp_keeps ?_ ?_
        | refine setConn_keeps ?_ ?_
        | (intro _ _)
        | split
        | dsimp only
  exact hk.trans ((aux k c s s (Keeps.refl s)).weaken hm)

theorem discardOp_keeps {mk : Nat} {sk : State} {s : State} {c : Nat} {cause : Nat} (hk : Keeps mk sk s) (hm : 7364608 &&& mk = 7364608) :
    Keeps mk sk (discardOp s c cause) := by
  suffices g : Keeps 7364608 s (discardOp s c cause) from hk.trans (g.weaken hm)
  unfold discardOp
  with_reducible repeat' first
  | exact Keeps.refl _
  | assumption
  | decide
  | (extract_lets +onlyGivenNames s1; have h1 : Keeps 7364608 s s1 := (by unfold s1; repeat' first | exact Keeps.refl _ | assumption | decide | refine connEvent_keeps ?_ ?_ | refine count_keeps ?_ ?_ | refine rateEvent_keeps ?_ rfl (fun u a hu => ?_) | (intro _ _) | split | dsimp only); clear_value s1)
  | (extract_lets +onlyGivenNames x1; clear_value x1)
  | refine connEvent_keeps ?_ ?_
  | refine count_keeps ?_ ?_
  | refine rateEvent_keeps ?_ rfl (fun u a hu => ?_)
  | (intro _ _)
  | split
  | dsimp only

theorem duplicateOp_keeps {mk : Nat} {sk : State} {s : State} {c : Nat} {o : WireOp} {how : Nat} (hk : Keeps mk sk s) (hm : 7367552 &&& mk = 7367552) :
    Keeps mk sk (duplicateOp s c o how) := by
  suffices g : Keeps 7367552 s (duplicateOp s c o how) from hk.trans (g.weaken hm)
  unfold duplicateOp
  with_reducible repeat' first
  | exact Keeps.refl _
  | assumption
  | decide
  | (extract_lets +onlyGivenNames s1; have h1 : Keeps 7367552 s s1 := (by unfold s1; repeat' first | exact Keeps.refl _ | assumption | decide | refine count_keeps ?_ ?_ | refine presentCompletion_keeps ?_ ?_ | refine sendAck_keeps ?_ ?_ | refine sendNak_keeps ?_ ?_ | refine Keeps.ite ?_ ?_ | refine Keeps.iteFst ?_ ?_ | (intro _ _) | split | dsimp only); clear_value s1)
  | (extract_lets +onlyGivenNames x1; clear_value x1)
  | refine count_keeps ?_ ?_
  | refine presentCompletion_keeps ?_ ?_
  | refine sendAck_keeps ?_ ?_
  | refine sendNak_keeps ?_ ?_
  | refine Keeps.ite ?_ ?_
  | refine Keeps.iteFst ?_ ?_
  | (intro _ _)
  | split
  | dsimp only

theorem receiveOp_keeps {mk : Nat} {sk : State} {s : State} {c : Nat} {i : Inbound} (hk : Keeps mk sk s) (hm : 7438208 &&& mk = 7438208) :
    Keeps mk sk (receiveOp s c i) := by
  suffices g : Keeps 7438208 s (receiveOp s c i) from hk.trans (g.weaken hm)
  unfold receiveOp
  with_reducible repeat' first
  | exact Keeps.refl _
  | assumption
  | decide
  | (extract_lets +onlyGivenNames q1; have hq1 : Keeps 7438208 s q1.1 := (by unfold q1; repeat' first | exact Keeps.refl _ | assumption | decide | refine count_keeps ?_ ?_ | refine deliverHeld_keeps ?_ ?_ | refine discardOp_keeps ?_ ?_ | refine duplicateOp_keeps ?_ ?_ | refine freeOpt_keeps ?_ ?_ | refine sendAck_keeps ?_ ?_ | refine setConn_keeps ?_ ?_ | refine Keeps.ite ?_ ?_ | (intro _ _) | split | dsimp only); clear_value q1)
  | (extract_lets +onlyGivenNames s1; have h1 : Keeps 7438208 s s1 := (by unfold s1; repeat' first | exact Keeps.refl _ | assumption | decide | refine count_keeps ?_ ?_ | refine deliverHeld_keeps ?_ ?_ | refine discardOp_keeps ?_ ?_ | refine duplicateOp_keeps ?_ ?_ | refine freeOpt_keeps ?_ ?_ | refine sendAck_keeps ?_ ?_ | refine setConn_keeps ?_ ?_ | refine Keeps.ite ?_ ?_ | (intro _ _) | split | dsimp only); clear_value s1)
  | (extract_lets +onlyGivenNames x1; clear_value x1)
  | refine count_keeps ?_ ?_
  | refine deliverHeld_keeps ?_ ?_
  | refine discardOp_keeps ?_ ?_
  | refine duplicateOp_keeps ?_ ?_
  | refine freeOpt_keeps ?_ ?_
  | refine sendAck_keeps ?_ ?_
  | refine setConn_keeps ?_ ?_
  | refine Keeps.ite ?_ ?_
  | (intro _ _)
  | split
  | dsimp only

theorem receiveAdopted_keeps {mk : Nat} {sk : State} {s : State} {c : Nat} {o : WireOp} (hk : Keeps mk sk s) (hm : 7367552 &&& mk = 7367552) :
    Keeps mk sk (receiveAdopted s c o) := by
  suffices g : Keeps 7367552 s (receiveAdopted s c o) from hk.trans (g.weaken hm)
  unfold receiveAdopted
  with_reducible repeat' first
  | exact Keeps.refl _
  | assumption
  | decide
  | (extract_lets +onlyGivenNames s1; have h1 : Keeps 7367552 s s1 := (by unfold s1; repeat' first | exact Keeps.refl _ | assumption | decide | refine count_keeps ?_ ?_ | refine sendControl_keeps ?_ ?_ | refine sendNak_keeps ?_ ?_ | refine Keeps.ite ?_ ?_ | (intro _ _) | split | dsimp only); clear_value s1)
  | (extract_lets +onlyGivenNames x1; clear_value x1)
  | refine count_keeps ?_ ?_
  | refine sendControl_keeps ?_ ?_
  | refine sendNak_keeps ?_ ?_
  | refine Keeps.ite ?_ ?_
  | (intro _ _)
  | split
  | dsimp only


theorem takeInbox_keeps {mk : Nat} {sk : State} {s : State} {f : WireOp → Bool} {t' : State} {x' : Inbound} (hk : Keeps mk sk s) (hm : 2048 &&& mk = 2048)
    (e : takeInbox s f = some (t', x')) : Keeps mk sk t' := by
  suffices g : Keeps 2048 s t' from hk.trans (g.weaken hm)
  unfold takeInbox at e
  split at e
  · injection e with e
    injection e with e1 e2
    subst e1
    exact Keeps.shu' (Keeps.refl s) _ rfl
  · cases e


theorem takeControl_keeps {mk : Nat} {sk : State} {s : State} {f : WireOp → Bool} {t' : State} {x' : WireOp} (hk : Keeps mk sk s) (hm : 7367552 &&& mk = 7367552)
    (e : takeControl s f = some (t', x')) : Keeps mk sk t' := by
  suffices g : Keeps 7367552 s t' from hk.trans (g.weaken hm)
  unfold takeControl at e
  split at e
  · next h =>
    injection e with e
    injection e with e1 e2
    subst e1
    exact freeOpt_keeps (takeInbox_keeps (Keeps.refl _) (by decide) h) (by decide)
  · cases e

theorem operationReceive_keeps {mk : Nat} {sk : State} {s : State} (hk : Keeps mk sk s) (hm : 7470976 &&& mk = 7470976) :
    Keeps mk sk (operationReceive s) := by
  suffices g : Keeps 7470976 s (operationReceive s) from hk.trans (g.weaken hm)
  unfold operationReceive
  with_reducible repeat' first
  | exact Keeps.refl _
  | assumption
  | decide
  | (extract_lets +onlyGivenNames q1; have hq1 : Keeps 7470976 s q1.1 := (by unfold q1; repeat' first | exact Keeps.refl _ | assumption | decide | refine freeOpt_keeps ?_ ?_ | refine nakUnknown_keeps ?_ ?_ | refine oldKeyCheck_keeps ?_ ?_ | refine receiveAdopted_keeps ?_ ?_ | refine receiveOp_keeps ?_ ?_ | refine tagFailed_keeps ?_ ?_ | refine takeInbox_keeps ?_ ?_ (by assumption) | refine Keeps.ite ?_ ?_ | (intro _ _) | split | dsimp only); clear_value q1)
  | (extract_lets +onlyGivenNames s1; have h1 : Keeps 7470976 s s1 := (by unfold s1; repeat' first | exact Keeps.refl _ | assumption | decide | refine freeOpt_keeps ?_ ?_ | refine nakUnknown_keeps ?_ ?_ | refine oldKeyCheck_keeps ?_ ?_ | refine receiveAdopted_keeps ?_ ?_ | refine receiveOp_keeps ?_ ?_ | refine tagFailed_keeps ?_ ?_ | refine takeInbox_keeps ?_ ?_ (by assumption) | refine Keeps.ite ?_ ?_ | (intro _ _) | split | dsimp only); clear_value s1)
  | (extract_lets +onlyGivenNames x1; clear_value x1)
  | refine freeOpt_keeps ?_ ?_
  | refine nakUnknown_keeps ?_ ?_
  | refine oldKeyCheck_keeps ?_ ?_
  | refine receiveAdopted_keeps ?_ ?_
  | refine receiveOp_keeps ?_ ?_
  | refine tagFailed_keeps ?_ ?_
  | refine takeInbox_keeps ?_ ?_ (by assumption)
  | refine Keeps.ite ?_ ?_
  | (intro _ _)
  | split
  | dsimp only

theorem acknowledged_keeps {mk : Nat} {sk : State} {s : State} {e : LedgerEntry} (hk : Keeps mk sk s) (hm : 7371648 &&& mk = 7371648) :
    Keeps mk sk (acknowledged s e) := by
  suffices g : Keeps 7371648 s (acknowledged s e) from hk.trans (g.weaken hm)
  unfold acknowledged
  with_reducible repeat' first
  | exact Keeps.refl _
  | assumption
  | decide
  | (extract_lets +onlyGivenNames s1; have h1 : Keeps 7371648 s s1 := (by unfold s1; repeat' first | exact Keeps.refl _ | assumption | decide | refine descDone_keeps ?_ ?_ | refine fenceDone_keeps ?_ ?_ | refine setEntry_keeps ?_ ?_ | refine Keeps.ite ?_ ?_ | refine Keeps.iteFst ?_ ?_ | (fail_if_no_progress refine Keeps.win' ?_ _ rfl) | (intro _ _) | split | dsimp only); clear_value s1)
  | (extract_lets +onlyGivenNames x1; clear_value x1)
  | refine descDone_keeps ?_ ?_
  | refine fenceDone_keeps ?_ ?_
  | refine setEntry_keeps ?_ ?_
  | refine Keeps.ite ?_ ?_
  | refine Keeps.iteFst ?_ ?_
  | (fail_if_no_progress refine Keeps.win' ?_ _ rfl)
  | (intro _ _)
  | split
  | dsimp only

theorem cwndUpdate_keeps {mk : Nat} {sk : State} {s : State} {c : Nat} {ce : Nat} {u : Nat} {late : Bool} (hk : Keeps mk sk s) (hm : 1050624 &&& mk = 1050624) :
    Keeps mk sk (cwndUpdate s c ce u late) := by
  suffices g : Keeps 1050624 s (cwndUpdate s c ce u late) from hk.trans (g.weaken hm)
  unfold cwndUpdate
  with_reducible repeat' first
  | exact Keeps.refl _
  | assumption
  | decide
  | (extract_lets +onlyGivenNames s1; have h1 : Keeps 1050624 s s1 := (by unfold s1; repeat' first | exact Keeps.refl _ | assumption | decide | refine count_keeps ?_ ?_ | refine setConn_keeps ?_ ?_ | refine Keeps.ite ?_ ?_ | (intro _ _) | split | dsimp only); clear_value s1)
  | (extract_lets +onlyGivenNames x1; clear_value x1)
  | refine count_keeps ?_ ?_
  | refine setConn_keeps ?_ ?_
  | refine Keeps.ite ?_ ?_
  | (intro _ _)
  | split
  | dsimp only

theorem catchUpCheck_keeps {mk : Nat} {sk : State} {s : State} (hk : Keeps mk sk s) (hm : 7430144 &&& mk = 7430144) :
    Keeps mk sk (catchUpCheck s) := by
  suffices g : Keeps 7430144 s (catchUpCheck s) from hk.trans (g.weaken hm)
  unfold catchUpCheck
  with_reducible repeat' first
  | exact Keeps.refl _
  | assumption
  | decide
  | (extract_lets +onlyGivenNames s1; have h1 : Keeps 7430144 s s1 := (by unfold s1; repeat' first | exact Keeps.refl _ | assumption | decide | refine event_keeps ?_ ?_ | refine Keeps.ite ?_ ?_ | (fail_if_no_progress refine Keeps.twin' ?_ _ rfl) | (intro _ _) | split | dsimp only); clear_value s1)
  | (extract_lets +onlyGivenNames x1; clear_value x1)
  | refine event_keeps ?_ ?_
  | refine Keeps.ite ?_ ?_
  | (fail_if_no_progress refine Keeps.twin' ?_ _ rfl)
  | (intro _ _)
  | split
  | dsimp only

theorem applyAck_keeps {mk : Nat} {sk : State} {s : State} {c : Nat} {seq : Nat} {cum : Nat} {run : Nat} {ce : Nat} (hk : Keeps mk sk s) (hm : 7568256 &&& mk = 7568256) :
    Keeps mk sk (applyAck s c seq cum run ce) := by
  suffices g : Keeps 7568256 s (applyAck s c seq cum run ce) from hk.trans (g.weaken hm)
  unfold applyAck
  with_reducible repeat' first
  | exact Keeps.refl _
  | assumption
  | decide
  | (extract_lets +onlyGivenNames s1; have h1 : Keeps 7568256 s s1 := (by unfold s1; repeat' first | exact Keeps.refl _ | assumption | decide | refine acknowledged_keeps ?_ ?_ | refine adoptedCheck_keeps ?_ ?_ | refine catchUpCheck_keeps ?_ ?_ | refine closeCheck_keeps ?_ ?_ | refine count_keeps ?_ ?_ | refine cwndUpdate_keeps ?_ ?_ | refine oldKeyCheck_keeps ?_ ?_ | refine releaseEntry_keeps ?_ ?_ | refine setConn_keeps ?_ ?_ | refine Keeps.ite ?_ ?_ | refine Keeps.iteFst ?_ ?_ | refine Keeps.foldl ?_ _ (fun u a hu => ?_) | refine Keeps.foldlFst ?_ _ (fun u a hu => ?_) | (intro _ _) | split | dsimp only); clear_value s1)
  | (extract_lets +onlyGivenNames x1; clear_value x1)
  | refine acknowledged_keeps ?_ ?_
  | refine adoptedCheck_keeps ?_ ?_
  | refine catchUpCheck_keeps ?_ ?_
  | refine closeCheck_keeps ?_ ?_
  | refine count_keeps ?_ ?_
  | refine cwndUpdate_keeps ?_ ?_
  | refine oldKeyCheck_keeps ?_ ?_
  | refine releaseEntry_keeps ?_ ?_
  | refine setConn_keeps ?_ ?_
  | refine Keeps.ite ?_ ?_
  | refine Keeps.iteFst ?_ ?_
  | refine Keeps.foldl ?_ _ (fun u a hu => ?_)
  | refine Keeps.foldlFst ?_ _ (fun u a hu => ?_)
  | (intro _ _)
  | split
  | dsimp only

theorem ackReceive_keeps {mk : Nat} {sk : State} {s : State} (hk : Keeps mk sk s) (hm : 7601024 &&& mk = 7601024) :
    Keeps mk sk (ackReceive s) := by
  suffices g : Keeps 7601024 s (ackReceive s) from hk.trans (g.weaken hm)
  unfold ackReceive
  with_reducible repeat' first
  | exact Keeps.refl _
  | assumption
  | decide
  | (extract_lets +onlyGivenNames q1; have hq1 : Keeps 7601024 s q1.1 := (by unfold q1; repeat' first | exact Keeps.refl _ | assumption | decide | refine acceptControl_keeps ?_ ?_ (by assumption) | refine applyAck_keeps ?_ ?_ | refine count_keeps ?_ ?_ | refine refuseControl_keeps ?_ ?_ | refine takeControl_keeps ?_ ?_ (by assumption) | refine Keeps.ite ?_ ?_ | (intro _ _) | split | dsimp only); clear_value q1)
  | (extract_lets +onlyGivenNames s1; have h1 : Keeps 7601024 s s1 := (by unfold s1; repeat' first | exact Keeps.refl _ | assumption | decide | refine acceptControl_keeps ?_ ?_ (by assumption) | refine applyAck_keeps ?_ ?_ | refine count_keeps ?_ ?_ | refine refuseControl_keeps ?_ ?_ | refine takeControl_keeps ?_ ?_ (by assumption) | refine Keeps.ite ?_ ?_ | (intro _ _) | split | dsimp only); clear_value s1)
  | (extract_lets +onlyGivenNames x1; clear_value x1)
  | refine acceptControl_keeps ?_ ?_ (by assumption)
  | refine applyAck_keeps ?_ ?_
  | refine count_keeps ?_ ?_
  | refine refuseControl_keeps ?_ ?_
  | refine takeControl_keeps ?_ ?_ (by assumption)
  | refine Keeps.ite ?_ ?_
  | (intro _ _)
  | split
  | dsimp only

theorem refusedOp_keeps {mk : Nat} {sk : State} {s : State} {c : Nat} {seq : Nat} {reason : Nat} {op : NewOp} (hk : Keeps mk sk s) (hm : 7502720 &&& mk = 7502720) :
    Keeps mk sk (refusedOp s c seq reason op) := by
  suffices g : Keeps 7502720 s (refusedOp s c seq reason op) from hk.trans (g.weaken hm)
  unfold refusedOp
  with_reducible repeat' first
  | exact Keeps.refl _
  | assumption
  | decide
  | refine answer_keeps ?_ ?_
  | refine descCond_keeps ?_ ?_
  | refine descDone_keeps ?_ ?_
  | refine failOp_keeps ?_ ?_
  | refine Keeps.ite ?_ ?_
  | (intro _ _)
  | split
  | dsimp only

theorem lateDrop_keeps {mk : Nat} {sk : State} {s : State} {c : Nat} {seq : Nat} {window : Nat} {offset : Nat} (hk : Keeps mk sk s) (hm : 7501824 &&& mk = 7501824) :
    Keeps mk sk (lateDrop s c seq window offset) := by
  suffices g : Keeps 7501824 s (lateDrop s c seq window offset) from hk.trans (g.weaken hm)
  unfold lateDrop
  with_reducible repeat' first
  | exact Keeps.refl _
  | assumption
  | decide
  | (extract_lets +onlyGivenNames s1; have h1 : Keeps 7501824 s s1 := (by unfold s1; repeat' first | exact Keeps.refl _ | assumption | decide | refine inboundFailed_keeps ?_ ?_ | refine postedFailure_keeps ?_ ?_ | refine setConn_keeps ?_ ?_ | (intro _ _) | split | dsimp only); clear_value s1)
  | (extract_lets +onlyGivenNames x1; clear_value x1)
  | refine inboundFailed_keeps ?_ ?_
  | refine postedFailure_keeps ?_ ?_
  | refine setConn_keeps ?_ ?_
  | (intro _ _)
  | split
  | dsimp only

theorem nakReceive_keeps {mk : Nat} {sk : State} {s : State} (hk : Keeps mk sk s) (hm : 7601024 &&& mk = 7601024) :
    Keeps mk sk (nakReceive s) := by
  suffices g : Keeps 7601024 s (nakReceive s) from hk.trans (g.weaken hm)
  unfold nakReceive
  with_reducible repeat' first
  | exact Keeps.refl _
  | assumption
  | decide
  | (extract_lets +onlyGivenNames q1; have hq1 : Keeps 7601024 s q1.1 := (by unfold q1; repeat' first | exact Keeps.refl _ | assumption | decide | refine acceptControl_keeps ?_ ?_ (by assumption) | refine adoptedCheck_keeps ?_ ?_ | refine catchUpCheck_keeps ?_ ?_ | refine closeCheck_keeps ?_ ?_ | refine connEvent_keeps ?_ ?_ | refine count_keeps ?_ ?_ | refine dropAsked_keeps ?_ ?_ | refine lateDrop_keeps ?_ ?_ | refine oldKeyCheck_keeps ?_ ?_ | refine rateEvent_keeps ?_ rfl (fun u a hu => ?_) | refine refuseControl_keeps ?_ ?_ | refine refusedOp_keeps ?_ ?_ | refine releaseEntry_keeps ?_ ?_ | refine setConn_keeps ?_ ?_ | refine tagFailed_keeps ?_ ?_ | refine takeControl_keeps ?_ ?_ (by assumption) | refine toFailed_keeps ?_ ?_ | refine Keeps.ite ?_ ?_ | refine Keeps.iteFst ?_ ?_ | (intro _ _) | split | dsimp only | refine hf1 _ ?_ | refine hf2 _ ?_ | refine hf3 _ ?_); clear_value q1)
  | (extract_lets +onlyGivenNames f1; have hf1 : ∀ u, Keeps 7601024 s u → Keeps 7601024 s (f1 u) := (by intro u hu; unfold f1; repeat' first | exact Keeps.refl _ | assumption | decide | refine acceptControl_keeps ?_ ?_ (by assumption) | refine adoptedCheck_keeps ?_ ?_ | refine catchUpCheck_keeps ?_ ?_ | refine closeCheck_keeps ?_ ?_ | refine connEvent_keeps ?_ ?_ | refine count_keeps ?_ ?_ | refine dropAsked_keeps ?_ ?_ | refine lateDrop_keeps ?_ ?_ | refine oldKeyCheck_keeps ?_ ?_ | refine rateEvent_keeps ?_ rfl (fun u a hu => ?_) | refine refuseControl_keeps ?_ ?_ | refine refusedOp_keeps ?_ ?_ | refine releaseEntry_keeps ?_ ?_ | refine setConn_keeps ?_ ?_ | refine tagFailed_keeps ?_ ?_ | refine takeControl_keeps ?_ ?_ (by assumption) | refine toFailed_keeps ?_ ?_ | refine Keeps.ite ?_ ?_ | refine Keeps.iteFst ?_ ?_ | (intro _ _) | split | dsimp only | refine hf1 _ ?_ | refine hf2 _ ?_ | refine hf3 _ ?_); clear_value f1)
  | (extract_lets +onlyGivenNames s1; have h1 : Keeps 7601024 s s1 := (by unfold s1; repeat' first | exact Keeps.refl _ | assumption | decide | refine acceptControl_keeps ?_ ?_ (by assumption) | refine adoptedCheck_keeps ?_ ?_ | refine catchUpCheck_keeps ?_ ?_ | refine closeCheck_keeps ?_ ?_ | refine connEvent_keeps ?_ ?_ | refine count_keeps ?_ ?_ | refine dropAsked_keeps ?_ ?_ | refine lateDrop_keeps ?_ ?_ | refine oldKeyCheck_keeps ?_ ?_ | refine rateEvent_keeps ?_ rfl (fun u a hu => ?_) | refine refuseControl_keeps ?_ ?_ | refine refusedOp_keeps ?_ ?_ | refine releaseEntry_keeps ?_ ?_ | refine setConn_keeps ?_ ?_ | refine tagFailed_keeps ?_ ?_ | refine takeControl_keeps ?_ ?_ (by assumption) | refine toFailed_keeps ?_ ?_ | refine Keeps.ite ?_ ?_ | refine Keeps.iteFst ?_ ?_ | (intro _ _) | split | dsimp only | refine hf1 _ ?_ | refine hf2 _ ?_ | refine hf3 _ ?_); clear_value s1)
  | (extract_lets +onlyGivenNames x1; clear_value x1)
  | refine acceptControl_keeps ?_ ?_ (by assumption)
  | refine adoptedCheck_keeps ?_ ?_
  | refine catchUpCheck_keeps ?_ ?_
  | refine closeCheck_keeps ?_ ?_
  | refine connEvent_keeps ?_ ?_
  | refine count_keeps ?_ ?_
  | refine dropAsked_keeps ?_ ?_
  | refine lateDrop_keeps ?_ ?_
  | refine oldKeyCheck_keeps ?_ ?_
  | refine rateEvent_keeps ?_ rfl (fun u a hu => ?_)
  | refine refuseControl_keeps ?_ ?_
  | refine refusedOp_keeps ?_ ?_
  | refine releaseEntry_keeps ?_ ?_
  | refine setConn_keeps ?_ ?_
  | refine tagFailed_keeps ?_ ?_
  | refine takeControl_keeps ?_ ?_ (by assumption)
  | refine toFailed_keeps ?_ ?_
  | refine Keeps.ite ?_ ?_
  | refine Keeps.iteFst ?_ ?_
  | (intro _ _)
  | split
  | dsimp only
  | refine hf1 _ ?_

theorem visibilityPoint_keeps {mk : Nat} {sk : State} {s : State} (hk : Keeps mk sk s) (hm : 7438208 &&& mk = 7438208) :
    Keeps mk sk (visibilityPoint s) := by
  suffices g : Keeps 7438208 s (visibilityPoint s) from hk.trans (g.weaken hm)
  unfold visibilityPoint
  with_reducible repeat' first
  | exact Keeps.refl _
  | assumption
  | decide
  | refine answer_keeps ?_ ?_
  | refine deliverHeld_keeps ?_ ?_
  | refine visible_keeps ?_ ?_
  | (intro _ _)
  | split
  | dsimp only

/-! ### Connect -/

theorem answerOpen_keeps {mk : Nat} {sk : State} {s : State} {o : WireOp} {status : Nat} (hk : Keeps mk sk s) (hm : 7367552 &&& mk = 7367552) :
    Keeps mk sk (answerOpen s o status) := by
  suffices g : Keeps 7367552 s (answerOpen s o status) from hk.trans (g.weaken hm)
  unfold answerOpen
  with_reducible repeat' first
  | exact Keeps.refl _
  | assumption
  | decide
  | (extract_lets +onlyGivenNames s1; have h1 : Keeps 7367552 s s1 := (by unfold s1; repeat' first | exact Keeps.refl _ | assumption | decide | refine sendOpen_keeps ?_ ?_ | (intro _ _) | split | dsimp only); clear_value s1)
  | (extract_lets +onlyGivenNames x1; clear_value x1)
  | refine sendOpen_keeps ?_ ?_
  | (intro _ _)
  | split
  | dsimp only

theorem answerKeyed_keeps {mk : Nat} {sk : State} {s : State} {c : Nat} {o : WireOp} {status : Nat} {nonceR : Nat} {first : Nat} (hk : Keeps mk sk s) (hm : 7367552 &&& mk = 7367552) :
    Keeps mk sk (answerKeyed s c o status nonceR first) := by
  suffices g : Keeps 7367552 s (answerKeyed s c o status nonceR first) from hk.trans (g.weaken hm)
  unfold answerKeyed
  with_reducible repeat' first
  | exact Keeps.refl _
  | assumption
  | decide
  | (extract_lets +onlyGivenNames q1; have hq1 : Keeps 7367552 s q1.1 := (by unfold q1; repeat' first | exact Keeps.refl _ | assumption | decide | refine controlOp_keeps ?_ ?_ | refine launch_keeps ?_ ?_ | refine setConn_keeps ?_ ?_ | (intro _ _) | split | dsimp only); clear_value q1)
  | (extract_lets +onlyGivenNames s1; have h1 : Keeps 7367552 s s1 := (by unfold s1; repeat' first | exact Keeps.refl _ | assumption | decide | refine controlOp_keeps ?_ ?_ | refine launch_keeps ?_ ?_ | refine setConn_keeps ?_ ?_ | (intro _ _) | split | dsimp only); clear_value s1)
  | (extract_lets +onlyGivenNames x1; clear_value x1)
  | refine controlOp_keeps ?_ ?_
  | refine launch_keeps ?_ ?_
  | refine setConn_keeps ?_ ?_
  | (intro _ _)
  | split
  | dsimp only

theorem answerAgain_keeps {mk : Nat} {sk : State} {s : State} {c : Nat} {o : WireOp} {a : Answered} (hk : Keeps mk sk s) (hm : 7367552 &&& mk = 7367552) :
    Keeps mk sk (answerAgain s c o a) := by
  suffices g : Keeps 7367552 s (answerAgain s c o a) from hk.trans (g.weaken hm)
  unfold answerAgain
  with_reducible repeat' first
  | exact Keeps.refl _
  | assumption
  | decide
  | refine sendControl_keeps ?_ ?_
  | (intro _ _)
  | split
  | dsimp only

theorem acceptOpen_keeps {mk : Nat} {sk : State} {s : State} {o : WireOp} {k : List Byte} {c : Nat} (hk : Keeps mk sk s) (hm : 7433088 &&& mk = 7433088) :
    Keeps mk sk (acceptOpen s o k c) := by
  suffices g : Keeps 7433088 s (acceptOpen s o k c) from hk.trans (g.weaken hm)
  unfold acceptOpen
  with_reducible repeat' first
  | exact Keeps.refl _
  | assumption
  | decide
  | (extract_lets +onlyGivenNames s1; have h1 : Keeps 7433088 s s1 := (by unfold s1; repeat' first | exact Keeps.refl _ | assumption | decide | refine afterDraw_keeps ?_ ?_ | refine answerKeyed_keeps ?_ ?_ | refine installKeys_keeps ?_ ?_ | refine mirrorConn_keeps ?_ ?_ | refine rosterAdd_keeps ?_ ?_ | refine setConn_keeps ?_ ?_ | (intro _ _) | split | dsimp only); clear_value s1)
  | (extract_lets +onlyGivenNames x1; clear_value x1)
  | refine afterDraw_keeps ?_ ?_
  | refine answerKeyed_keeps ?_ ?_
  | refine installKeys_keeps ?_ ?_
  | refine mirrorConn_keeps ?_ ?_
  | refine rosterAdd_keeps ?_ ?_
  | refine setConn_keeps ?_ ?_
  | (intro _ _)
  | split
  | dsimp only


theorem takeRequest_keeps {mk : Nat} {sk : State} {s : State} {kind : Nat} {t' : State} {x' : WireOp} (hk : Keeps mk sk s) (hm : 7367552 &&& mk = 7367552)
    (e : takeRequest s kind = some (t', x')) : Keeps mk sk t' := by
  suffices g : Keeps 7367552 s t' from hk.trans (g.weaken hm)
  unfold takeRequest at e
  exact takeControl_keeps (Keeps.refl _) (by decide) e

theorem freshOpen_keeps {mk : Nat} {sk : State} {s : State} {o : WireOp} {k : List Byte} (hk : Keeps mk sk s) (hm : 7601024 &&& mk = 7601024) :
    Keeps mk sk (freshOpen s o k) := by
  suffices g : Keeps 7601024 s (freshOpen s o k) from hk.trans (g.weaken hm)
  unfold freshOpen
  with_reducible repeat' first
  | exact Keeps.refl _
  | assumption
  | decide
  | (extract_lets +onlyGivenNames s1; have h1 : Keeps 7601024 s s1 := (by unfold s1; repeat' first | exact Keeps.refl _ | assumption | decide | refine acceptOpen_keeps ?_ ?_ | refine answerOpen_keeps ?_ ?_ | refine openRefused_keeps ?_ ?_ | refine tagFailedOpen_keeps ?_ ?_ | refine toFailed_keeps ?_ ?_ | refine Keeps.ite ?_ ?_ | refine Keeps.iteFst ?_ ?_ | (fail_if_no_progress refine Keeps.shu' ?_ _ rfl) | (intro _ _) | split | dsimp only); clear_value s1)
  | (extract_lets +onlyGivenNames x1; clear_value x1)
  | refine acceptOpen_keeps ?_ ?_
  | refine answerOpen_keeps ?_ ?_
  | refine openRefused_keeps ?_ ?_
  | refine tagFailedOpen_keeps ?_ ?_
  | refine toFailed_keeps ?_ ?_
  | refine Keeps.ite ?_ ?_
  | refine Keeps.iteFst ?_ ?_
  | (fail_if_no_progress refine Keeps.shu' ?_ _ rfl)
  | (intro _ _)
  | split
  | dsimp only

theorem connReqOpen_keeps {mk : Nat} {sk : State} {s : State} (hk : Keeps mk sk s) (hm : 7601024 &&& mk = 7601024) :
    Keeps mk sk (connReqOpen s) := by
  suffices g : Keeps 7601024 s (connReqOpen s) from hk.trans (g.weaken hm)
  unfold connReqOpen
  with_reducible repeat' first
  | exact Keeps.refl _
  | assumption
  | decide
  | (extract_lets +onlyGivenNames q1; have hq1 : Keeps 7601024 s q1.1 := (by unfold q1; repeat' first | exact Keeps.refl _ | assumption | decide | refine answerOpen_keeps ?_ ?_ | refine event_keeps ?_ ?_ | refine freshOpen_keeps ?_ ?_ | refine launch_keeps ?_ ?_ | refine takeRequest_keeps ?_ ?_ (by assumption) | refine Keeps.ite ?_ ?_ | refine Keeps.iteFst ?_ ?_ | (intro _ _) | split | dsimp only); clear_value q1)
  | (extract_lets +onlyGivenNames s1; have h1 : Keeps 7601024 s s1 := (by unfold s1; repeat' first | exact Keeps.refl _ | assumption | decide | refine answerOpen_keeps ?_ ?_ | refine event_keeps ?_ ?_ | refine freshOpen_keeps ?_ ?_ | refine launch_keeps ?_ ?_ | refine takeRequest_keeps ?_ ?_ (by assumption) | refine Keeps.ite ?_ ?_ | refine Keeps.iteFst ?_ ?_ | (intro _ _) | split | dsimp only); clear_value s1)
  | (extract_lets +onlyGivenNames x1; clear_value x1)
  | refine answerOpen_keeps ?_ ?_
  | refine event_keeps ?_ ?_
  | refine freshOpen_keeps ?_ ?_
  | refine launch_keeps ?_ ?_
  | refine takeRequest_keeps ?_ ?_ (by assumption)
  | refine Keeps.ite ?_ ?_
  | refine Keeps.iteFst ?_ ?_
  | (intro _ _)
  | split
  | dsimp only

theorem connReqClose_keeps {mk : Nat} {sk : State} {s : State} (hk : Keeps mk sk s) (hm : 7601024 &&& mk = 7601024) :
    Keeps mk sk (connReqClose s) := by
  suffices g : Keeps 7601024 s (connReqClose s) from hk.trans (g.weaken hm)
  unfold connReqClose
  with_reducible repeat' first
  | exact Keeps.refl _
  | assumption
  | decide
  | (extract_lets +onlyGivenNames q1; have hq1 : Keeps 7601024 s q1.1 := (by unfold q1; repeat' first | exact Keeps.refl _ | assumption | decide | refine acceptControl_keeps ?_ ?_ (by assumption) | refine answerKeyed_keeps ?_ ?_ | refine answerOpen_keeps ?_ ?_ | refine closeCheck_keeps ?_ ?_ | refine leaveActive_keeps ?_ ?_ | refine refuseControl_keeps ?_ ?_ | refine setConn_keeps ?_ ?_ | refine takeRequest_keeps ?_ ?_ (by assumption) | refine Keeps.ite ?_ ?_ | (intro _ _) | split | dsimp only); clear_value q1)
  | (extract_lets +onlyGivenNames s1; have h1 : Keeps 7601024 s s1 := (by unfold s1; repeat' first | exact Keeps.refl _ | assumption | decide | refine acceptControl_keeps ?_ ?_ (by assumption) | refine answerKeyed_keeps ?_ ?_ | refine answerOpen_keeps ?_ ?_ | refine closeCheck_keeps ?_ ?_ | refine leaveActive_keeps ?_ ?_ | refine refuseControl_keeps ?_ ?_ | refine setConn_keeps ?_ ?_ | refine takeRequest_keeps ?_ ?_ (by assumption) | refine Keeps.ite ?_ ?_ | (intro _ _) | split | dsimp only); clear_value s1)
  | (extract_lets +onlyGivenNames x1; clear_value x1)
  | refine acceptControl_keeps ?_ ?_ (by assumption)
  | refine answerKeyed_keeps ?_ ?_
  | refine answerOpen_keeps ?_ ?_
  | refine closeCheck_keeps ?_ ?_
  | refine leaveActive_keeps ?_ ?_
  | refine refuseControl_keeps ?_ ?_
  | refine setConn_keeps ?_ ?_
  | refine takeRequest_keeps ?_ ?_ (by assumption)
  | refine Keeps.ite ?_ ?_
  | (intro _ _)
  | split
  | dsimp only

theorem carryOut_keeps {mk : Nat} {sk : State} {s : State} {c : Nat} {o : WireOp} {k : List Byte} (hk : Keeps mk sk s) (hm : 7564160 &&& mk = 7564160) :
    Keeps mk sk (carryOut s c o k) := by
  suffices g : Keeps 7564160 s (carryOut s c o k) from hk.trans (g.weaken hm)
  unfold carryOut
  with_reducible repeat' first
  | exact Keeps.refl _
  | assumption
  | decide
  | (extract_lets +onlyGivenNames s1; have h1 : Keeps 7564160 s s1 := (by unfold s1; repeat' first | exact Keeps.refl _ | assumption | decide | refine afterDraw_keeps ?_ ?_ | refine afterFree_keeps ?_ ?_ | refine afterReset_keeps ?_ ?_ | refine answerKeyed_keeps ?_ ?_ | refine installKeys_keeps ?_ ?_ | refine mirrorConn_keeps ?_ ?_ | refine oldKeyCheck_keeps ?_ ?_ | refine Keeps.ite ?_ ?_ | (intro _ _) | split | dsimp only); clear_value s1)
  | (extract_lets +onlyGivenNames x1; clear_value x1)
  | refine afterDraw_keeps ?_ ?_
  | refine afterFree_keeps ?_ ?_
  | refine afterReset_keeps ?_ ?_
  | refine answerKeyed_keeps ?_ ?_
  | refine installKeys_keeps ?_ ?_
  | refine mirrorConn_keeps ?_ ?_
  | refine oldKeyCheck_keeps ?_ ?_
  | refine Keeps.ite ?_ ?_
  | (intro _ _)
  | split
  | dsimp only

theorem receiveExchange_keeps {mk : Nat} {sk : State} {s : State} {kind : Nat} (hk : Keeps mk sk s) (hm : 7596928 &&& mk = 7596928) :
    Keeps mk sk (receiveExchange s kind) := by
  suffices g : Keeps 7596928 s (receiveExchange s kind) from hk.trans (g.weaken hm)
  unfold receiveExchange
  with_reducible repeat' first
  | exact Keeps.refl _
  | assumption
  | decide
  | (extract_lets +onlyGivenNames q1; have hq1 : Keeps 7596928 s q1.1 := (by unfold q1; repeat' first | exact Keeps.refl _ | assumption | decide | refine acceptControl_keeps ?_ ?_ (by assumption) | refine answerAgain_keeps ?_ ?_ | refine answerKeyed_keeps ?_ ?_ | refine answerOpen_keeps ?_ ?_ | refine carryOut_keeps ?_ ?_ | refine event_keeps ?_ ?_ | refine refuseControl_keeps ?_ ?_ | refine setConn_keeps ?_ ?_ | refine startRequest_keeps ?_ ?_ | refine takeRequest_keeps ?_ ?_ (by assumption) | refine Keeps.ite ?_ ?_ | (intro _ _) | split | dsimp only); clear_value q1)
  | (extract_lets +onlyGivenNames s1; have h1 : Keeps 7596928 s s1 := (by unfold s1; repeat' first | exact Keeps.refl _ | assumption | decide | refine acceptControl_keeps ?_ ?_ (by assumption) | refine answerAgain_keeps ?_ ?_ | refine answerKeyed_keeps ?_ ?_ | refine answerOpen_keeps ?_ ?_ | refine carryOut_keeps ?_ ?_ | refine event_keeps ?_ ?_ | refine refuseControl_keeps ?_ ?_ | refine setConn_keeps ?_ ?_ | refine startRequest_keeps ?_ ?_ | refine takeRequest_keeps ?_ ?_ (by assumption) | refine Keeps.ite ?_ ?_ | (intro _ _) | split | dsimp only); clear_value s1)
  | (extract_lets +onlyGivenNames x1; clear_value x1)
  | refine acceptControl_keeps ?_ ?_ (by assumption)
  | refine answerAgain_keeps ?_ ?_
  | refine answerKeyed_keeps ?_ ?_
  | refine answerOpen_keeps ?_ ?_
  | refine carryOut_keeps ?_ ?_
  | refine event_keeps ?_ ?_
  | refine refuseControl_keeps ?_ ?_
  | refine setConn_keeps ?_ ?_
  | refine startRequest_keeps ?_ ?_
  | refine takeRequest_keeps ?_ ?_ (by assumption)
  | refine Keeps.ite ?_ ?_
  | (intro _ _)
  | split
  | dsimp only

theorem connReqReset_keeps {mk : Nat} {sk : State} {s : State} (hk : Keeps mk sk s) (hm : 7596928 &&& mk = 7596928) :
    Keeps mk sk (connReqReset s) := by
  suffices g : Keeps 7596928 s (connReqReset s) from hk.trans (g.weaken hm)
  unfold connReqReset
  with_reducible repeat' first
  | exact Keeps.refl _
  | assumption
  | decide
  | refine receiveExchange_keeps ?_ ?_
  | (intro _ _)
  | split
  | dsimp only

theorem connReqRekey_keeps {mk : Nat} {sk : State} {s : State} (hk : Keeps mk sk s) (hm : 7596928 &&& mk = 7596928) :
    Keeps mk sk (connReqRekey s) := by
  suffices g : Keeps 7596928 s (connReqRekey s) from hk.trans (g.weaken hm)
  unfold connReqRekey
  with_reducible repeat' first
  | exact Keeps.refl _
  | assumption
  | decide
  | refine receiveExchange_keeps ?_ ?_
  | (intro _ _)
  | split
  | dsimp only

theorem openEnds_keeps {mk : Nat} {sk : State} {s : State} {c : Nat} {status : Nat} (hk : Keeps mk sk s) (hm : 7497728 &&& mk = 7497728) :
    Keeps mk sk (openEnds s c status) := by
  suffices g : Keeps 7497728 s (openEnds s c status) from hk.trans (g.weaken hm)
  unfold openEnds
  with_reducible repeat' first
  | exact Keeps.refl _
  | assumption
  | decide
  | (extract_lets +onlyGivenNames s1; have h1 : Keeps 7497728 s s1 := (by unfold s1; repeat' first | exact Keeps.refl _ | assumption | decide | refine connEvent_keeps ?_ ?_ | refine openFailed_keeps ?_ ?_ | (fail_if_no_progress refine Keeps.shu' ?_ _ rfl) | (intro _ _) | split | dsimp only); clear_value s1)
  | (extract_lets +onlyGivenNames x1; clear_value x1)
  | refine connEvent_keeps ?_ ?_
  | refine openFailed_keeps ?_ ?_
  | (fail_if_no_progress refine Keeps.shu' ?_ _ rfl)
  | (intro _ _)
  | split
  | dsimp only

theorem openAnswer_keeps {mk : Nat} {sk : State} {s : State} {c : Nat} {e : Exchange} {o : WireOp} (hk : Keeps mk sk s) (hm : 7601024 &&& mk = 7601024) :
    Keeps mk sk (openAnswer s c e o) := by
  suffices g : Keeps 7601024 s (openAnswer s c e o) from hk.trans (g.weaken hm)
  unfold openAnswer
  with_reducible repeat' first
  | exact Keeps.refl _
  | assumption
  | decide
  | (extract_lets +onlyGivenNames s1; have h1 : Keeps 7601024 s s1 := (by unfold s1; repeat' first | exact Keeps.refl _ | assumption | decide | refine openEnds_keeps ?_ ?_ | refine setConn_keeps ?_ ?_ | refine tagFailed_keeps ?_ ?_ | refine toFailed_keeps ?_ ?_ | refine Keeps.ite ?_ ?_ | (fail_if_no_progress refine Keeps.shu' ?_ _ rfl) | (intro _ _) | split | dsimp only); clear_value s1)
  | (extract_lets +onlyGivenNames x1; clear_value x1)
  | refine openEnds_keeps ?_ ?_
  | refine setConn_keeps ?_ ?_
  | refine tagFailed_keeps ?_ ?_
  | refine toFailed_keeps ?_ ?_
  | refine Keeps.ite ?_ ?_
  | (fail_if_no_progress refine Keeps.shu' ?_ _ rfl)
  | (intro _ _)
  | split
  | dsimp only

theorem exchangeDone_keeps {mk : Nat} {sk : State} {s : State} {c : Nat} {e : Exchange} {o : WireOp} {k : List Byte} (hk : Keeps mk sk s) (hm : 7596288 &&& mk = 7596288) :
    Keeps mk sk (exchangeDone s c e o k) := by
  suffices g : Keeps 7596288 s (exchangeDone s c e o k) from hk.trans (g.weaken hm)
  unfold exchangeDone
  with_reducible repeat' first
  | exact Keeps.refl _
  | assumption
  | decide
  | (extract_lets +onlyGivenNames s1; have h1 : Keeps 7596288 s s1 := (by unfold s1; repeat' first | exact Keeps.refl _ | assumption | decide | refine afterReset_keeps ?_ ?_ | refine connEvent_keeps ?_ ?_ | refine installKeys_keeps ?_ ?_ | refine mirrorConn_keeps ?_ ?_ | refine oldKeyCheck_keeps ?_ ?_ | refine openSettled_keeps ?_ ?_ | refine rosterAdd_keeps ?_ ?_ | refine setConn_keeps ?_ ?_ | refine tagFailed_keeps ?_ ?_ | refine Keeps.ite ?_ ?_ | (intro _ _) | split | dsimp only); clear_value s1)
  | (extract_lets +onlyGivenNames x1; clear_value x1)
  | refine afterReset_keeps ?_ ?_
  | refine connEvent_keeps ?_ ?_
  | refine installKeys_keeps ?_ ?_
  | refine mirrorConn_keeps ?_ ?_
  | refine oldKeyCheck_keeps ?_ ?_
  | refine openSettled_keeps ?_ ?_
  | refine rosterAdd_keeps ?_ ?_
  | refine setConn_keeps ?_ ?_
  | refine tagFailed_keeps ?_ ?_
  | refine Keeps.ite ?_ ?_
  | (intro _ _)
  | split
  | dsimp only

theorem connResp_keeps {mk : Nat} {sk : State} {s : State} (hk : Keeps mk sk s) (hm : 7601024 &&& mk = 7601024) :
    Keeps mk sk (connResp s) := by
  suffices g : Keeps 7601024 s (connResp s) from hk.trans (g.weaken hm)
  unfold connResp
  with_reducible repeat' first
  | exact Keeps.refl _
  | assumption
  | decide
  | (extract_lets +onlyGivenNames q1; have hq1 : Keeps 7601024 s q1.1 := (by unfold q1; repeat' first | exact Keeps.refl _ | assumption | decide | refine acceptControl_keeps ?_ ?_ (by assumption) | refine closeCheck_keeps ?_ ?_ | refine event_keeps ?_ ?_ | refine exchangeDone_keeps ?_ ?_ | refine openAnswer_keeps ?_ ?_ | refine refuseControl_keeps ?_ ?_ | refine setConn_keeps ?_ ?_ | refine takeControl_keeps ?_ ?_ (by assumption) | refine toFailed_keeps ?_ ?_ | refine Keeps.ite ?_ ?_ | (intro _ _) | split | dsimp only); clear_value q1)
  | (extract_lets +onlyGivenNames s1; have h1 : Keeps 7601024 s s1 := (by unfold s1; repeat' first | exact Keeps.refl _ | assumption | decide | refine acceptControl_keeps ?_ ?_ (by assumption) | refine closeCheck_keeps ?_ ?_ | refine event_keeps ?_ ?_ | refine exchangeDone_keeps ?_ ?_ | refine openAnswer_keeps ?_ ?_ | refine refuseControl_keeps ?_ ?_ | refine setConn_keeps ?_ ?_ | refine takeControl_keeps ?_ ?_ (by assumption) | refine toFailed_keeps ?_ ?_ | refine Keeps.ite ?_ ?_ | (intro _ _) | split | dsimp only); clear_value s1)
  | (extract_lets +onlyGivenNames x1; clear_value x1)
  | refine acceptControl_keeps ?_ ?_ (by assumption)
  | refine closeCheck_keeps ?_ ?_
  | refine event_keeps ?_ ?_
  | refine exchangeDone_keeps ?_ ?_
  | refine openAnswer_keeps ?_ ?_
  | refine refuseControl_keeps ?_ ?_
  | refine setConn_keeps ?_ ?_
  | refine takeControl_keeps ?_ ?_ (by assumption)
  | refine toFailed_keeps ?_ ?_
  | refine Keeps.ite ?_ ?_
  | (intro _ _)
  | split
  | dsimp only

theorem connReqResend_keeps {mk : Nat} {sk : State} {c : Nat} {s : State} (hk : Keeps mk sk s) (hm : 7367552 &&& mk = 7367552) :
    Keeps mk sk (connReqResend c s) := by
  suffices g : Keeps 7367552 s (connReqResend c s) from hk.trans (g.weaken hm)
  unfold connReqResend
  with_reducible repeat' first
  | exact Keeps.refl _
  | assumption
  | decide
  | (extract_lets +onlyGivenNames s1; have h1 : Keeps 7367552 s s1 := (by unfold s1; repeat' first | exact Keeps.refl _ | assumption | decide | refine launch_keeps ?_ ?_ | refine sendRequest_keeps ?_ ?_ | refine setConn_keeps ?_ ?_ | refine Keeps.ite ?_ ?_ | (intro _ _) | split | dsimp only); clear_value s1)
  | (extract_lets +onlyGivenNames x1; clear_value x1)
  | refine launch_keeps ?_ ?_
  | refine sendRequest_keeps ?_ ?_
  | refine setConn_keeps ?_ ?_
  | refine Keeps.ite ?_ ?_
  | (intro _ _)
  | split
  | dsimp only

theorem connOpenTimeout_keeps {mk : Nat} {sk : State} {c : Nat} {s : State} (hk : Keeps mk sk s) (hm : 7497728 &&& mk = 7497728) :
    Keeps mk sk (connOpenTimeout c s) := by
  suffices g : Keeps 7497728 s (connOpenTimeout c s) from hk.trans (g.weaken hm)
  unfold connOpenTimeout
  with_reducible repeat' first
  | exact Keeps.refl _
  | assumption
  | decide
  | (extract_lets +onlyGivenNames s1; have h1 : Keeps 7497728 s s1 := (by unfold s1; repeat' first | exact Keeps.refl _ | assumption | decide | refine openEnds_keeps ?_ ?_ | refine Keeps.ite ?_ ?_ | (intro _ _) | split | dsimp only); clear_value s1)
  | (extract_lets +onlyGivenNames x1; clear_value x1)
  | refine openEnds_keeps ?_ ?_
  | refine Keeps.ite ?_ ?_
  | (intro _ _)
  | split
  | dsimp only

theorem connExchangeTimeout_keeps {mk : Nat} {sk : State} {c : Nat} {s : State} (hk : Keeps mk sk s) (hm : 7568256 &&& mk = 7568256) :
    Keeps mk sk (connExchangeTimeout c s) := by
  suffices g : Keeps 7568256 s (connExchangeTimeout c s) from hk.trans (g.weaken hm)
  unfold connExchangeTimeout
  with_reducible repeat' first
  | exact Keeps.refl _
  | assumption
  | decide
  | refine toFailed_keeps ?_ ?_
  | refine Keeps.ite ?_ ?_
  | (intro _ _)
  | split
  | dsimp only

theorem connCloseTimeout_keeps {mk : Nat} {sk : State} {c : Nat} {s : State} (hk : Keeps mk sk s) (hm : 7568256 &&& mk = 7568256) :
    Keeps mk sk (connCloseTimeout c s) := by
  suffices g : Keeps 7568256 s (connCloseTimeout c s) from hk.trans (g.weaken hm)
  unfold connCloseTimeout
  with_reducible repeat' first
  | exact Keeps.refl _
  | assumption
  | decide
  | (extract_lets +onlyGivenNames s1; have h1 : Keeps 7568256 s s1 := (by unfold s1; repeat' first | exact Keeps.refl _ | assumption | decide | refine goIdle_keeps ?_ ?_ | refine Keeps.ite ?_ ?_ | (intro _ _) | split | dsimp only); clear_value s1)
  | (extract_lets +onlyGivenNames x1; clear_value x1)
  | refine goIdle_keeps ?_ ?_
  | refine Keeps.ite ?_ ?_
  | (intro _ _)
  | split
  | dsimp only

theorem autoResumeTimer_keeps {mk : Nat} {sk : State} {c : Nat} {s : State} (hk : Keeps mk sk s) (hm : 7367552 &&& mk = 7367552) :
    Keeps mk sk (autoResumeTimer c s) := by
  suffices g : Keeps 7367552 s (autoResumeTimer c s) from hk.trans (g.weaken hm)
  unfold autoResumeTimer
  with_reducible repeat' first
  | exact Keeps.refl _
  | assumption
  | decide
  | (extract_lets +onlyGivenNames s1; have h1 : Keeps 7367552 s s1 := (by unfold s1; repeat' first | exact Keeps.refl _ | assumption | decide | refine startRequest_keeps ?_ ?_ | refine Keeps.ite ?_ ?_ | (intro _ _) | split | dsimp only); clear_value s1)
  | (extract_lets +onlyGivenNames x1; clear_value x1)
  | refine startRequest_keeps ?_ ?_
  | refine Keeps.ite ?_ ?_
  | (intro _ _)
  | split
  | dsimp only

theorem rekeyWhere_keeps {mk : Nat} {sk : State} {s : State} {f : Conn → Bool} (hk : Keeps mk sk s) (hm : 7367552 &&& mk = 7367552) :
    Keeps mk sk (rekeyWhere s f) := by
  suffices g : Keeps 7367552 s (rekeyWhere s f) from hk.trans (g.weaken hm)
  unfold rekeyWhere
  with_reducible repeat' first
  | exact Keeps.refl _
  | assumption
  | decide
  | refine startRequest_keeps ?_ ?_
  | refine Keeps.foldl ?_ _ (fun u a hu => ?_)
  | refine Keeps.foldlFst ?_ _ (fun u a hu => ?_)
  | (intro _ _)
  | split
  | dsimp only

theorem actRekeyAll_keeps {mk : Nat} {sk : State} {s : State} (hk : Keeps mk sk s) (hm : 7367552 &&& mk = 7367552) :
    Keeps mk sk (actRekeyAll s) := by
  suffices g : Keeps 7367552 s (actRekeyAll s) from hk.trans (g.weaken hm)
  unfold actRekeyAll
  with_reducible repeat' first
  | exact Keeps.refl _
  | assumption
  | decide
  | refine rekeyWhere_keeps ?_ ?_
  | (intro _ _)
  | split
  | dsimp only

theorem secretChanged_keeps {mk : Nat} {sk : State} {s : State} {mid : Nat} (hk : Keeps mk sk s) (hm : 7367552 &&& mk = 7367552) :
    Keeps mk sk (secretChanged s mid) := by
  suffices g : Keeps 7367552 s (secretChanged s mid) from hk.trans (g.weaken hm)
  unfold secretChanged
  with_reducible repeat' first
  | exact Keeps.refl _
  | assumption
  | decide
  | refine rekeyWhere_keeps ?_ ?_
  | (intro _ _)
  | split
  | dsimp only

theorem membershipCheck_keeps {mk : Nat} {sk : State} {s : State} (hk : Keeps mk sk s) (hm : 7568256 &&& mk = 7568256) :
    Keeps mk sk (membershipCheck s) := by
  suffices g : Keeps 7568256 s (membershipCheck s) from hk.trans (g.weaken hm)
  unfold membershipCheck
  with_reducible repeat' first
  | exact Keeps.refl _
  | assumption
  | decide
  | refine toFailed_keeps ?_ ?_
  | refine Keeps.foldl ?_ _ (fun u a hu => ?_)
  | refine Keeps.foldlFst ?_ _ (fun u a hu => ?_)
  | (intro _ _)
  | split
  | dsimp only

/-! ### Twin -/

theorem twinEvent_keeps {mk : Nat} {sk : State} {s : State} {code : Nat} {extra : Nat} (hk : Keeps mk sk s) (hm : 7364608 &&& mk = 7364608) :
    Keeps mk sk (twinEvent s code extra) := by
  suffices g : Keeps 7364608 s (twinEvent s code extra) from hk.trans (g.weaken hm)
  unfold twinEvent
  with_reducible repeat' first
  | exact Keeps.refl _
  | assumption
  | decide
  | refine event_keeps ?_ ?_
  | (intro _ _)
  | split
  | dsimp only

theorem mirrorDrop_keeps {mk : Nat} {sk : State} {s : State} {k : Nat} (hk : Keeps mk sk s) (hm : 7431040 &&& mk = 7431040) :
    Keeps mk sk (mirrorDrop s k) := by
  suffices g : Keeps 7431040 s (mirrorDrop s k) from hk.trans (g.weaken hm)
  unfold mirrorDrop
  with_reducible repeat' first
  | exact Keeps.refl _
  | assumption
  | decide
  | refine ledgerRelease_keeps ?_ ?_
  | (fail_if_no_progress refine Keeps.twin' ?_ _ rfl)
  | (intro _ _)
  | split
  | dsimp only

theorem mirrorDropAll_keeps {mk : Nat} {sk : State} {s : State} {f : MirrorEntry → Bool} (hk : Keeps mk sk s) (hm : 7431040 &&& mk = 7431040) :
    Keeps mk sk (mirrorDropAll s f) := by
  suffices g : Keeps 7431040 s (mirrorDropAll s f) from hk.trans (g.weaken hm)
  unfold mirrorDropAll
  with_reducible repeat' first
  | exact Keeps.refl _
  | assumption
  | decide
  | refine mirrorDrop_keeps ?_ ?_
  | refine Keeps.foldl ?_ _ (fun u a hu => ?_)
  | refine Keeps.foldlFst ?_ _ (fun u a hu => ?_)
  | (intro _ _)
  | split
  | dsimp only

theorem setTwin_keeps {mk : Nat} {sk : State} {s : State} {st : TwinSt} (hk : Keeps mk sk s) (hm : 7431040 &&& mk = 7431040) :
    Keeps mk sk (setTwin s st) := by
  suffices g : Keeps 7431040 s (setTwin s st) from hk.trans (g.weaken hm)
  unfold setTwin
  with_reducible repeat' first
  | exact Keeps.refl _
  | assumption
  | decide
  | (extract_lets +onlyGivenNames s1; have h1 : Keeps 7431040 s s1 := (by unfold s1; repeat' first | exact Keeps.refl _ | assumption | decide | refine mirrorDropAll_keeps ?_ ?_ | refine twinEvent_keeps ?_ ?_ | refine Keeps.ite ?_ ?_ | (fail_if_no_progress refine Keeps.twin' ?_ _ rfl) | (intro _ _) | split | dsimp only); clear_value s1)
  | (extract_lets +onlyGivenNames x1; clear_value x1)
  | refine mirrorDropAll_keeps ?_ ?_
  | refine twinEvent_keeps ?_ ?_
  | refine Keeps.ite ?_ ?_
  | (fail_if_no_progress refine Keeps.twin' ?_ _ rfl)
  | (intro _ _)
  | split
  | dsimp only

theorem startCatchUp_keeps {mk : Nat} {sk : State} {s : State} (hk : Keeps mk sk s) (hm : 7432192 &&& mk = 7432192) :
    Keeps mk sk (startCatchUp s) := by
  suffices g : Keeps 7432192 s (startCatchUp s) from hk.trans (g.weaken hm)
  unfold startCatchUp
  with_reducible repeat' first
  | exact Keeps.refl _
  | assumption
  | decide
  | (extract_lets +onlyGivenNames s1; have h1 : Keeps 7432192 s s1 := (by unfold s1; repeat' first | exact Keeps.refl _ | assumption | decide | refine catchUpCheck_keeps ?_ ?_ | refine mirrorConn_keeps ?_ ?_ | refine mirrorEntry_keeps ?_ ?_ | refine Keeps.foldl ?_ _ (fun u a hu => ?_) | refine Keeps.foldlFst ?_ _ (fun u a hu => ?_) | (fail_if_no_progress refine Keeps.twin' ?_ _ rfl) | (intro _ _) | split | dsimp only); clear_value s1)
  | (extract_lets +onlyGivenNames x1; clear_value x1)
  | refine catchUpCheck_keeps ?_ ?_
  | refine mirrorConn_keeps ?_ ?_
  | refine mirrorEntry_keeps ?_ ?_
  | refine Keeps.foldl ?_ _ (fun u a hu => ?_)
  | refine Keeps.foldlFst ?_ _ (fun u a hu => ?_)
  | (fail_if_no_progress refine Keeps.twin' ?_ _ rfl)
  | (intro _ _)
  | split
  | dsimp only

theorem twinCommitted_keeps {mk : Nat} {sk : State} {s : State} (hk : Keeps mk sk s) (hm : 7568256 &&& mk = 7568256) :
    Keeps mk sk (twinCommitted s) := by
  suffices g : Keeps 7568256 s (twinCommitted s) from hk.trans (g.weaken hm)
  unfold twinCommitted
  with_reducible repeat' first
  | exact Keeps.refl _
  | assumption
  | decide
  | refine ownerClose_keeps ?_ ?_
  | refine setTwin_keeps ?_ ?_
  | refine Keeps.ite ?_ ?_
  | (intro _ _)
  | split
  | dsimp only

theorem twinLinkCheck_keeps {mk : Nat} {sk : State} {s : State} (hk : Keeps mk sk s) (hm : 7430144 &&& mk = 7430144) :
    Keeps mk sk (twinLinkCheck s) := by
  suffices g : Keeps 7430144 s (twinLinkCheck s) from hk.trans (g.weaken hm)
  unfold twinLinkCheck
  with_reducible repeat' first
  | exact Keeps.refl _
  | assumption
  | decide
  | (extract_lets +onlyGivenNames s1; have h1 : Keeps 7430144 s s1 := (by unfold s1; repeat' first | exact Keeps.refl _ | assumption | decide | refine twinEvent_keeps ?_ ?_ | refine Keeps.ite ?_ ?_ | (fail_if_no_progress refine Keeps.twin' ?_ _ rfl) | (intro _ _) | split | dsimp only); clear_value s1)
  | (extract_lets +onlyGivenNames x1; clear_value x1)
  | refine twinEvent_keeps ?_ ?_
  | refine Keeps.ite ?_ ?_
  | (fail_if_no_progress refine Keeps.twin' ?_ _ rfl)
  | (intro _ _)
  | split
  | dsimp only

theorem twinMove_keeps {mk : Nat} {sk : State} {s : State} (hk : Keeps mk sk s) (hm : 7431040 &&& mk = 7431040) :
    Keeps mk sk (twinMove s) := by
  suffices g : Keeps 7431040 s (twinMove s) from hk.trans (g.weaken hm)
  unfold twinMove
  with_reducible repeat' first
  | exact Keeps.refl _
  | assumption
  | decide
  | refine setTwin_keeps ?_ ?_
  | refine twinEvent_keeps ?_ ?_
  | refine Keeps.ite ?_ ?_
  | (intro _ _)
  | split
  | dsimp only

theorem catchUpMove_keeps {mk : Nat} {sk : State} {s : State} (hk : Keeps mk sk s) (hm : 7432192 &&& mk = 7432192) :
    Keeps mk sk (catchUpMove s) := by
  suffices g : Keeps 7432192 s (catchUpMove s) from hk.trans (g.weaken hm)
  unfold catchUpMove
  with_reducible repeat' first
  | exact Keeps.refl _
  | assumption
  | decide
  | refine startCatchUp_keeps ?_ ?_
  | refine Keeps.ite ?_ ?_
  | (fail_if_no_progress refine Keeps.twin' ?_ _ rfl)
  | (intro _ _)
  | split
  | dsimp only

theorem adoptionEnd_keeps {mk : Nat} {sk : State} {s : State} (hk : Keeps mk sk s) (hm : 7432064 &&& mk = 7432064) :
    Keeps mk sk (adoptionEnd s) := by
  suffices g : Keeps 7432064 s (adoptionEnd s) from hk.trans (g.weaken hm)
  unfold adoptionEnd
  with_reducible repeat' first
  | exact Keeps.refl _
  | assumption
  | decide
  | (extract_lets +onlyGivenNames s1; have h1 : Keeps 7432064 s s1 := (by unfold s1; repeat' first | exact Keeps.refl _ | assumption | decide | refine event_keeps ?_ ?_ | refine setTwin_keeps ?_ ?_ | refine Keeps.ite ?_ ?_ | (fail_if_no_progress refine Keeps.fab' ?_ _ rfl) | (fail_if_no_progress refine Keeps.twin' ?_ _ rfl) | (fail_if_no_progress (refine Keeps.several ?_ (by refine ⟨?_, ?_, ?_, ?_, ?_, ?_, ?_, ?_, ?_, ?_, ?_, ?_, ?_, ?_, ?_, ?_, ?_, ?_, ?_, ?_⟩ <;> first | exact Or.inl rfl | exact Or.inr rfl))) | (intro _ _) | split | dsimp only); clear_value s1)
  | (extract_lets +onlyGivenNames x1; clear_value x1)
  | refine event_keeps ?_ ?_
  | refine setTwin_keeps ?_ ?_
  | refine Keeps.ite ?_ ?_
  | (fail_if_no_progress refine Keeps.fab' ?_ _ rfl)
  | (fail_if_no_progress refine Keeps.twin' ?_ _ rfl)
  | (fail_if_no_progress (refine Keeps.several ?_ (by refine ⟨?_, ?_, ?_, ?_, ?_, ?_, ?_, ?_, ?_, ?_, ?_, ?_, ?_, ?_, ?_, ?_, ?_, ?_, ?_, ?_⟩ <;> first | exact Or.inl rfl | exact Or.inr rfl)))
  | (intro _ _)
  | split
  | dsimp only

theorem twinCheck_keeps {mk : Nat} {sk : State} {s : State} (hk : Keeps mk sk s) (hm : 7434120 &&& mk = 7434120) :
    Keeps mk sk (twinCheck s) := by
  suffices g : Keeps 7434120 s (twinCheck s) from hk.trans (g.weaken hm)
  unfold twinCheck
  with_reducible repeat' first
  | exact Keeps.refl _
  | assumption
  | decide
  | refine adoptionEnd_keeps ?_ ?_
  | refine catchUpMove_keeps ?_ ?_
  | refine health_keeps ?_ ?_
  | refine twinLinkCheck_keeps ?_ ?_
  | refine twinMove_keeps ?_ ?_
  | refine Keeps.ite ?_ ?_
  | (intro _ _)
  | split
  | dsimp only

theorem adoptedContext_keeps {mk : Nat} {sk : State} {s : State} {cid : Nat} {m : MirrorConn} (hk : Keeps mk sk s) (hm : 2048 &&& mk = 2048) :
    Keeps mk sk (adoptedContext s cid m) := by
  suffices g : Keeps 2048 s (adoptedContext s cid m) from hk.trans (g.weaken hm)
  unfold adoptedContext
  with_reducible repeat' first
  | exact Keeps.refl _
  | assumption
  | decide
  | (extract_lets +onlyGivenNames s1; have h1 : Keeps 2048 s s1 := (by unfold s1; repeat' first | exact Keeps.refl _ | assumption | decide | refine setConn_keeps ?_ ?_ | refine Keeps.ite ?_ ?_ | refine Keeps.foldl ?_ _ (fun u a hu => ?_) | refine Keeps.foldlFst ?_ _ (fun u a hu => ?_) | (intro _ _) | split | dsimp only); clear_value s1)
  | (extract_lets +onlyGivenNames x1; clear_value x1)
  | refine setConn_keeps ?_ ?_
  | refine Keeps.ite ?_ ?_
  | refine Keeps.foldl ?_ _ (fun u a hu => ?_)
  | refine Keeps.foldlFst ?_ _ (fun u a hu => ?_)
  | (intro _ _)
  | split
  | dsimp only

theorem adoptContexts_keeps {mk : Nat} {sk : State} {s : State} (hk : Keeps mk sk s) (hm : 2048 &&& mk = 2048) :
    Keeps mk sk (adoptContexts s) := by
  suffices g : Keeps 2048 s (adoptContexts s) from hk.trans (g.weaken hm)
  unfold adoptContexts
  with_reducible repeat' first
  | exact Keeps.refl _
  | assumption
  | decide
  | refine adoptedContext_keeps ?_ ?_
  | refine Keeps.foldl ?_ _ (fun u a hu => ?_)
  | refine Keeps.foldlFst ?_ _ (fun u a hu => ?_)
  | (intro _ _)
  | split
  | dsimp only

theorem replayEntry_keeps {mk : Nat} {sk : State} {s : State} {k : Nat} {m : MirrorEntry} (hk : Keeps mk sk s) (hm : 7432704 &&& mk = 7432704) :
    Keeps mk sk (replayEntry s k m) := by
  suffices g : Keeps 7432704 s (replayEntry s k m) from hk.trans (g.weaken hm)
  unfold replayEntry
  with_reducible repeat' first
  | exact Keeps.refl _
  | assumption
  | decide
  | (extract_lets +onlyGivenNames s1; have h1 : Keeps 7432704 s s1 := (by unfold s1; repeat' first | exact Keeps.refl _ | assumption | decide | refine sendEntry_keeps ?_ ?_ | refine setChain_keeps ?_ ?_ | refine setConn_keeps ?_ ?_ | refine Keeps.ite ?_ ?_ | (fail_if_no_progress refine Keeps.loom' ?_ _ rfl) | (fail_if_no_progress refine Keeps.twin' ?_ _ rfl) | (fail_if_no_progress (refine Keeps.several ?_ (by refine ⟨?_, ?_, ?_, ?_, ?_, ?_, ?_, ?_, ?_, ?_, ?_, ?_, ?_, ?_, ?_, ?_, ?_, ?_, ?_, ?_⟩ <;> first | exact Or.inl rfl | exact Or.inr rfl))) | (intro _ _) | split | dsimp only); clear_value s1)
  | (extract_lets +onlyGivenNames x1; clear_value x1)
  | refine sendEntry_keeps ?_ ?_
  | refine setChain_keeps ?_ ?_
  | refine setConn_keeps ?_ ?_
  | refine Keeps.ite ?_ ?_
  | (fail_if_no_progress refine Keeps.loom' ?_ _ rfl)
  | (fail_if_no_progress refine Keeps.twin' ?_ _ rfl)
  | (fail_if_no_progress (refine Keeps.several ?_ (by refine ⟨?_, ?_, ?_, ?_, ?_, ?_, ?_, ?_, ?_, ?_, ?_, ?_, ?_, ?_, ?_, ?_, ?_, ?_, ?_, ?_⟩ <;> first | exact Or.inl rfl | exact Or.inr rfl)))
  | (intro _ _)
  | split
  | dsimp only

theorem replayStart_keeps {mk : Nat} {sk : State} {s : State} (hk : Keeps mk sk s) (hm : 7569280 &&& mk = 7569280) :
    Keeps mk sk (replayStart s) := by
  suffices g : Keeps 7569280 s (replayStart s) from hk.trans (g.weaken hm)
  unfold replayStart
  with_reducible repeat' first
  | exact Keeps.refl _
  | assumption
  | decide
  | (extract_lets +onlyGivenNames s1; have h1 : Keeps 7569280 s s1 := (by unfold s1; repeat' first | exact Keeps.refl _ | assumption | decide | refine adoptedCheck_keeps ?_ ?_ | refine adoptionEnd_keeps ?_ ?_ | refine count_keeps ?_ ?_ | refine event_keeps ?_ ?_ | refine replayEntry_keeps ?_ ?_ | refine Keeps.ite ?_ ?_ | refine Keeps.iteFst ?_ ?_ | refine Keeps.foldl ?_ _ (fun u a hu => ?_) | refine Keeps.foldlFst ?_ _ (fun u a hu => ?_) | (fail_if_no_progress refine Keeps.fab' ?_ _ rfl) | (fail_if_no_progress refine Keeps.twin' ?_ _ rfl) | (fail_if_no_progress (refine Keeps.several ?_ (by refine ⟨?_, ?_, ?_, ?_, ?_, ?_, ?_, ?_, ?_, ?_, ?_, ?_, ?_, ?_, ?_, ?_, ?_, ?_, ?_, ?_⟩ <;> first | exact Or.inl rfl | exact Or.inr rfl))) | (intro _ _) | split | dsimp only); clear_value s1)
  | (extract_lets +onlyGivenNames x1; clear_value x1)
  | refine adoptedCheck_keeps ?_ ?_
  | refine adoptionEnd_keeps ?_ ?_
  | refine count_keeps ?_ ?_
  | refine event_keeps ?_ ?_
  | refine replayEntry_keeps ?_ ?_
  | refine Keeps.ite ?_ ?_
  | refine Keeps.iteFst ?_ ?_
  | refine Keeps.foldl ?_ _ (fun u a hu => ?_)
  | refine Keeps.foldlFst ?_ _ (fun u a hu => ?_)
  | (fail_if_no_progress refine Keeps.fab' ?_ _ rfl)
  | (fail_if_no_progress refine Keeps.twin' ?_ _ rfl)
  | (fail_if_no_progress (refine Keeps.several ?_ (by refine ⟨?_, ?_, ?_, ?_, ?_, ?_, ?_, ?_, ?_, ?_, ?_, ?_, ?_, ?_, ?_, ?_, ?_, ?_, ?_, ?_⟩ <;> first | exact Or.inl rfl | exact Or.inr rfl)))
  | (intro _ _)
  | split
  | dsimp only

theorem twinDeclare_keeps {mk : Nat} {sk : State} {s : State} {cause : Nat} (hk : Keeps mk sk s) (hm : 7569288 &&& mk = 7569288) :
    Keeps mk sk (twinDeclare s cause) := by
  suffices g : Keeps 7569288 s (twinDeclare s cause) from hk.trans (g.weaken hm)
  unfold twinDeclare
  with_reducible repeat' first
  | exact Keeps.refl _
  | assumption
  | decide
  | (extract_lets +onlyGivenNames s1; have h1 : Keeps 7569288 s s1 := (by unfold s1; repeat' first | exact Keeps.refl _ | assumption | decide | refine adoptContexts_keeps ?_ ?_ | refine health_keeps ?_ ?_ | refine replayStart_keeps ?_ ?_ | refine setTwin_keeps ?_ ?_ | refine twinEvent_keeps ?_ ?_ | refine Keeps.ite ?_ ?_ | (fail_if_no_progress refine Keeps.twin' ?_ _ rfl) | (intro _ _) | split | dsimp only); clear_value s1)
  | (extract_lets +onlyGivenNames x1; clear_value x1)
  | refine adoptContexts_keeps ?_ ?_
  | refine health_keeps ?_ ?_
  | refine replayStart_keeps ?_ ?_
  | refine setTwin_keeps ?_ ?_
  | refine twinEvent_keeps ?_ ?_
  | refine Keeps.ite ?_ ?_
  | (fail_if_no_progress refine Keeps.twin' ?_ _ rfl)
  | (intro _ _)
  | split
  | dsimp only

theorem mirrorStore_keeps {mk : Nat} {sk : State} {s : State} {cid : Nat} {seq : Nat} {data : List Byte} (hk : Keeps mk sk s) (hm : 7431040 &&& mk = 7431040) :
    Keeps mk sk (mirrorStore s cid seq data) := by
  suffices g : Keeps 7431040 s (mirrorStore s cid seq data) from hk.trans (g.weaken hm)
  unfold mirrorStore
  with_reducible repeat' first
  | exact Keeps.refl _
  | assumption
  | decide
  | (extract_lets +onlyGivenNames q1; have hq1 : Keeps 7431040 s q1.1 := (by unfold q1; repeat' first | exact Keeps.refl _ | assumption | decide | refine mirrorDropAll_keeps ?_ ?_ | refine poolChanged_keeps ?_ ?_ | refine setChain_keeps ?_ ?_ | refine storeChain_keeps ?_ ?_ | (fail_if_no_progress refine Keeps.twin' ?_ _ rfl) | (intro _ _) | split | dsimp only); clear_value q1)
  | (extract_lets +onlyGivenNames s1; have h1 : Keeps 7431040 s s1 := (by unfold s1; repeat' first | exact Keeps.refl _ | assumption | decide | refine mirrorDropAll_keeps ?_ ?_ | refine poolChanged_keeps ?_ ?_ | refine setChain_keeps ?_ ?_ | refine storeChain_keeps ?_ ?_ | (fail_if_no_progress refine Keeps.twin' ?_ _ rfl) | (intro _ _) | split | dsimp only); clear_value s1)
  | (extract_lets +onlyGivenNames x1; clear_value x1)
  | refine mirrorDropAll_keeps ?_ ?_
  | refine poolChanged_keeps ?_ ?_
  | refine setChain_keeps ?_ ?_
  | refine storeChain_keeps ?_ ?_
  | (fail_if_no_progress refine Keeps.twin' ?_ _ rfl)
  | (intro _ _)
  | split
  | dsimp only

theorem takeRecord_keeps {mk : Nat} {sk : State} {s : State} {head : Nat} {data : List Byte} (hk : Keeps mk sk s) (hm : 7431040 &&& mk = 7431040) :
    Keeps mk sk (takeRecord s head data) := by
  suffices g : Keeps 7431040 s (takeRecord s head data) from hk.trans (g.weaken hm)
  unfold takeRecord
  with_reducible repeat' first
  | exact Keeps.refl _
  | assumption
  | decide
  | (extract_lets +onlyGivenNames s1; have h1 : Keeps 7431040 s s1 := (by unfold s1; repeat' first | exact Keeps.refl _ | assumption | decide | refine count_keeps ?_ ?_ | refine mirrorDropAll_keeps ?_ ?_ | refine mirrorStore_keeps ?_ ?_ | refine Keeps.ite ?_ ?_ | (fail_if_no_progress refine Keeps.twin' ?_ _ rfl) | (intro _ _) | split | dsimp only); clear_value s1)
  | (extract_lets +onlyGivenNames x1; clear_value x1)
  | refine count_keeps ?_ ?_
  | refine mirrorDropAll_keeps ?_ ?_
  | refine mirrorStore_keeps ?_ ?_
  | refine Keeps.ite ?_ ?_
  | (fail_if_no_progress refine Keeps.twin' ?_ _ rfl)
  | (intro _ _)
  | split
  | dsimp only

theorem takeRecords_keeps {mk : Nat} {sk : State}  {k : Nat} {s : State} {bs : List Byte} (hk : Keeps mk sk s) (hm : 7431040 &&& mk = 7431040) :
    Keeps mk sk (takeRecords k s bs).1 := by
  have aux : ∀ (k : Nat) (bs : List Byte) (u t : State), Keeps 7431040 u t → Keeps 7431040 u (takeRecords k t bs).1 := by
    intro k
    induction k with
    | zero => intro bs u t h0; unfold takeRecords; exact h0
    | succ n ih =>
      intro bs u t h0
      unfold takeRecords
      with_reducible repeat' first
        | with_reducible exact Keeps.refl _
        | with_reducible assumption
        | decide
        | (extract_lets +onlyGivenNames q1; have hq1 : Keeps 7431040 u q1.1 := (by unfold q1; repeat' first | with_reducible exact Keeps.refl _ | with_reducible assumption | decide | with_reducible refine ih _ _ _ ?_ | refine takeRecord_keeps ?_ ?_ | refine Keeps.ite ?_ ?_ | (intro _ _) | split | dsimp only); clear_value q1)
        | (extract_lets +onlyGivenNames s1; have h1 : Keeps 7431040 u s1 := (by unfold s1; repeat' first | with_reducible exact Keeps.refl _ | with_reducible assumption | decide | with_reducible refine ih _ _ _ ?_ | refine takeRecord_keeps ?_ ?_ | refine Keeps.ite ?_ ?_ | (intro _ _) | split | dsimp only); clear_value s1)
        | (extract_lets +onlyGivenNames x1; clear_value x1)
        | with_reducible refine ih _ _ _ ?_
        | refine takeRecord_keeps ?_ ?_
        | refine Keeps.ite ?_ ?_
        | (intro _ _)
        | split
        | dsimp only
  exact hk.trans ((aux k bs s s (Keeps.refl s)).weaken hm)

theorem takeMirror_keeps {mk : Nat} {sk : State} {s : State} (hk : Keeps mk sk s) (hm : 7431040 &&& mk = 7431040) :
    Keeps mk sk (takeMirror s) := by
  suffices g : Keeps 7431040 s (takeMirror s) from hk.trans (g.weaken hm)
  unfold takeMirror
  with_reducible repeat' first
  | exact Keeps.refl _
  | assumption
  | decide
  | (extract_lets +onlyGivenNames q1; have hq1 : Keeps 7431040 s q1.1 := (by unfold q1; repeat' first | exact Keeps.refl _ | assumption | decide | refine takeRecords_keeps ?_ ?_ | refine Keeps.ite ?_ ?_ | refine Keeps.iteFst ?_ ?_ | (fail_if_no_progress refine Keeps.twin' ?_ _ rfl) | (intro _ _) | split | dsimp only); clear_value q1)
  | (extract_lets +onlyGivenNames s1; have h1 : Keeps 7431040 s s1 := (by unfold s1; repeat' first | exact Keeps.refl _ | assumption | decide | refine takeRecords_keeps ?_ ?_ | refine Keeps.ite ?_ ?_ | refine Keeps.iteFst ?_ ?_ | (fail_if_no_progress refine Keeps.twin' ?_ _ rfl) | (intro _ _) | split | dsimp only); clear_value s1)
  | (extract_lets +onlyGivenNames x1; clear_value x1)
  | refine takeRecords_keeps ?_ ?_
  | refine Keeps.ite ?_ ?_
  | refine Keeps.iteFst ?_ ?_
  | (fail_if_no_progress refine Keeps.twin' ?_ _ rfl)
  | (intro _ _)
  | split
  | dsimp only

theorem sendReleases_keeps {mk : Nat} {sk : State} {s : State} (hk : Keeps mk sk s) (hm : 1116160 &&& mk = 1116160) :
    Keeps mk sk (sendReleases s) := by
  suffices g : Keeps 1116160 s (sendReleases s) from hk.trans (g.weaken hm)
  unfold sendReleases
  with_reducible repeat' first
  | exact Keeps.refl _
  | assumption
  | decide
  | (extract_lets +onlyGivenNames s1; have h1 : Keeps 1116160 s s1 := (by unfold s1; repeat' first | exact Keeps.refl _ | assumption | decide | refine presentRecord_keeps ?_ ?_ | refine Keeps.ite ?_ ?_ | refine Keeps.iteFst ?_ ?_ | refine Keeps.foldl ?_ _ (fun u a hu => ?_) | refine Keeps.foldlFst ?_ _ (fun u a hu => ?_) | (fail_if_no_progress refine Keeps.twin' ?_ _ rfl) | (intro _ _) | split | dsimp only); clear_value s1)
  | (extract_lets +onlyGivenNames x1; clear_value x1)
  | refine presentRecord_keeps ?_ ?_
  | refine Keeps.ite ?_ ?_
  | refine Keeps.iteFst ?_ ?_
  | refine Keeps.foldl ?_ _ (fun u a hu => ?_)
  | refine Keeps.foldlFst ?_ _ (fun u a hu => ?_)
  | (fail_if_no_progress refine Keeps.twin' ?_ _ rfl)
  | (intro _ _)
  | split
  | dsimp only

theorem twinGoneSend_keeps {mk : Nat} {sk : State} {s : State} (hk : Keeps mk sk s) (hm : 1116160 &&& mk = 1116160) :
    Keeps mk sk (twinGoneSend s) := by
  suffices g : Keeps 1116160 s (twinGoneSend s) from hk.trans (g.weaken hm)
  unfold twinGoneSend
  with_reducible repeat' first
  | exact Keeps.refl _
  | assumption
  | decide
  | refine presentRecord_keeps ?_ ?_
  | refine Keeps.ite ?_ ?_
  | (intro _ _)
  | split
  | dsimp only

theorem twinGoneNow_keeps {mk : Nat} {sk : State} {s : State} (hk : Keeps mk sk s) (hm : 7437184 &&& mk = 7437184) :
    Keeps mk sk (twinGoneNow s) := by
  suffices g : Keeps 7437184 s (twinGoneNow s) from hk.trans (g.weaken hm)
  unfold twinGoneNow
  with_reducible repeat' first
  | exact Keeps.refl _
  | assumption
  | decide
  | (extract_lets +onlyGivenNames s1; have h1 : Keeps 7437184 s s1 := (by unfold s1; repeat' first | exact Keeps.refl _ | assumption | decide | refine assign_keeps ?_ ?_ | refine emit_keeps ?_ | refine presentRecord_keeps ?_ ?_ | refine unwait_keeps ?_ ?_ | refine Keeps.ite ?_ ?_ | (intro _ _) | split | dsimp only); clear_value s1)
  | (extract_lets +onlyGivenNames x1; clear_value x1)
  | refine assign_keeps ?_ ?_
  | refine emit_keeps ?_
  | refine presentRecord_keeps ?_ ?_
  | refine unwait_keeps ?_ ?_
  | refine Keeps.ite ?_ ?_
  | (intro _ _)
  | split
  | dsimp only

theorem mirrorRateAlert_keeps {mk : Nat} {sk : State} {s : State} (hk : Keeps mk sk s) (hm : 7430144 &&& mk = 7430144) :
    Keeps mk sk (mirrorRateAlert s) := by
  suffices g : Keeps 7430144 s (mirrorRateAlert s) from hk.trans (g.weaken hm)
  unfold mirrorRateAlert
  with_reducible repeat' first
  | exact Keeps.refl _
  | assumption
  | decide
  | (extract_lets +onlyGivenNames s1; have h1 : Keeps 7430144 s s1 := (by unfold s1; repeat' first | exact Keeps.refl _ | assumption | decide | refine twinEvent_keeps ?_ ?_ | refine Keeps.ite ?_ ?_ | (fail_if_no_progress refine Keeps.twin' ?_ _ rfl) | (intro _ _) | split | dsimp only); clear_value s1)
  | (extract_lets +onlyGivenNames x1; clear_value x1)
  | refine twinEvent_keeps ?_ ?_
  | refine Keeps.ite ?_ ?_
  | (fail_if_no_progress refine Keeps.twin' ?_ _ rfl)
  | (intro _ _)
  | split
  | dsimp only

/-! ### Harmir -/

theorem harmirSend_keeps {mk : Nat} {sk : State} {s : State} {prio : Nat} {typ : Nat} {tagId : Nat} {dst : Nat} {bs : List Byte} (hk : Keeps mk sk s) (hm : 1048576 &&& mk = 1048576) :
    Keeps mk sk (harmirSend s prio typ tagId dst bs) := by
  suffices g : Keeps 1048576 s (harmirSend s prio typ tagId dst bs) from hk.trans (g.weaken hm)
  unfold harmirSend
  with_reducible repeat' first
  | exact Keeps.refl _
  | assumption
  | decide
  | (extract_lets +onlyGivenNames s1; have h1 : Keeps 1048576 s s1 := (by unfold s1; repeat' first | exact Keeps.refl _ | assumption | decide | refine count_keeps ?_ ?_ | refine emitAll_keeps ?_ | refine Keeps.ite ?_ ?_ | (intro _ _) | split | dsimp only); clear_value s1)
  | (extract_lets +onlyGivenNames x1; clear_value x1)
  | refine count_keeps ?_ ?_
  | refine emitAll_keeps ?_
  | refine Keeps.ite ?_ ?_
  | (intro _ _)
  | split
  | dsimp only

theorem busSend_keeps {mk : Nat} {sk : State} {s : State} {typ : Nat} {tagId : Nat} {dst : Nat} {body : List Byte} (hk : Keeps mk sk s) (hm : 1310720 &&& mk = 1310720) :
    Keeps mk sk (busSend s typ tagId dst body) := by
  suffices g : Keeps 1310720 s (busSend s typ tagId dst body) from hk.trans (g.weaken hm)
  unfold busSend
  with_reducible repeat' first
  | exact Keeps.refl _
  | assumption
  | decide
  | (extract_lets +onlyGivenNames s1; have h1 : Keeps 1310720 s s1 := (by unfold s1; repeat' first | exact Keeps.refl _ | assumption | decide | refine harmirSend_keeps ?_ ?_ | (fail_if_no_progress refine Keeps.mgmt' ?_ _ rfl) | (intro _ _) | split | dsimp only); clear_value s1)
  | (extract_lets +onlyGivenNames x1; clear_value x1)
  | refine harmirSend_keeps ?_ ?_
  | (fail_if_no_progress refine Keeps.mgmt' ?_ _ rfl)
  | (intro _ _)
  | split
  | dsimp only

theorem sendHeartbeat_keeps {mk : Nat} {sk : State} {s : State} {dst : Nat} {tagId : Nat} (hk : Keeps mk sk s) (hm : 1310720 &&& mk = 1310720) :
    Keeps mk sk (sendHeartbeat s dst tagId) := by
  suffices g : Keeps 1310720 s (sendHeartbeat s dst tagId) from hk.trans (g.weaken hm)
  unfold sendHeartbeat
  with_reducible repeat' first
  | exact Keeps.refl _
  | assumption
  | decide
  | (extract_lets +onlyGivenNames s1; have h1 : Keeps 1310720 s s1 := (by unfold s1; repeat' first | exact Keeps.refl _ | assumption | decide | refine busSend_keeps ?_ ?_ | refine harmirSend_keeps ?_ ?_ | refine Keeps.ite ?_ ?_ | (intro _ _) | split | dsimp only); clear_value s1)
  | (extract_lets +onlyGivenNames x1; clear_value x1)
  | refine busSend_keeps ?_ ?_
  | refine harmirSend_keeps ?_ ?_
  | refine Keeps.ite ?_ ?_
  | (intro _ _)
  | split
  | dsimp only

theorem sendLease_keeps {mk : Nat} {sk : State} {s : State} {kind : Nat} {ident : Nat} {term : Nat} (hk : Keeps mk sk s) (hm : 1310720 &&& mk = 1310720) :
    Keeps mk sk (sendLease s kind ident term) := by
  suffices g : Keeps 1310720 s (sendLease s kind ident term) from hk.trans (g.weaken hm)
  unfold sendLease
  with_reducible repeat' first
  | exact Keeps.refl _
  | assumption
  | decide
  | refine busSend_keeps ?_ ?_
  | (intro _ _)
  | split
  | dsimp only

theorem sendClaim_keeps {mk : Nat} {sk : State} {s : State} {kind : Nat} {ident : Nat} {term : Nat} (hk : Keeps mk sk s) (hm : 1310720 &&& mk = 1310720) :
    Keeps mk sk (sendClaim s kind ident term) := by
  suffices g : Keeps 1310720 s (sendClaim s kind ident term) from hk.trans (g.weaken hm)
  unfold sendClaim
  with_reducible repeat' first
  | exact Keeps.refl _
  | assumption
  | decide
  | refine busSend_keeps ?_ ?_
  | (intro _ _)
  | split
  | dsimp only

/-! ### Fabric -/

theorem ctlOn_keeps {mk : Nat} {sk : State} {s : State} {c : Nat} {m : CtlMsg} (hk : Keeps mk sk s) (hm : 7367552 &&& mk = 7367552) :
    Keeps mk sk (ctlOn s c m) := by
  suffices g : Keeps 7367552 s (ctlOn s c m) from hk.trans (g.weaken hm)
  unfold ctlOn
  with_reducible repeat' first
  | exact Keeps.refl _
  | assumption
  | decide
  | refine present_keeps ?_ ?_
  | (intro _ _)
  | split
  | dsimp only

theorem sealDirected_keeps {mk : Nat} {sk : State} {s : State} {peer : Nat} {path : List Byte} {m : CtlMsg} {t' : State} {x' : _} (hk : Keeps mk sk s) (hm : 0 &&& mk = 0) (e : sealDirected s peer path m = some (t', x')) :
    Keeps mk sk t' := by
  suffices g : Keeps 0 s t' from hk.trans (g.weaken hm)
  unfold sealDirected at e
  repeat' first | (cases e; done) | split at e | (obtain ⟨rfl, rfl⟩ := e)
  all_goals exact afterDraw_keeps (Keeps.refl _) (by decide)

theorem ctlOut_keeps {mk : Nat} {sk : State} {s : State} {p : Nat} {peer : Nat} {m : CtlMsg} (hk : Keeps mk sk s) (hm : 7365504 &&& mk = 7365504) :
    Keeps mk sk (ctlOut s p peer m) := by
  suffices g : Keeps 7365504 s (ctlOut s p peer m) from hk.trans (g.weaken hm)
  unfold ctlOut
  with_reducible repeat' first
  | exact Keeps.refl _
  | assumption
  | decide
  | (extract_lets +onlyGivenNames s1; have h1 : Keeps 7365504 s s1 := (by unfold s1; repeat' first | exact Keeps.refl _ | assumption | decide | refine launchPort_keeps ?_ ?_ | refine Keeps.ite ?_ ?_ | (intro _ _) | split | dsimp only); clear_value s1)
  | (extract_lets +onlyGivenNames x1; clear_value x1)
  | refine launchPort_keeps ?_ ?_
  | refine Keeps.ite ?_ ?_
  | (intro _ _)
  | split
  | dsimp only

theorem ctlAlong_keeps {mk : Nat} {sk : State} {s : State} {ps : List Nat} {peer : Nat} {m : CtlMsg} (hk : Keeps mk sk s) (hm : 7365504 &&& mk = 7365504) :
    Keeps mk sk (ctlAlong s ps peer m) := by
  suffices g : Keeps 7365504 s (ctlAlong s ps peer m) from hk.trans (g.weaken hm)
  unfold ctlAlong
  with_reducible repeat' first
  | exact Keeps.refl _
  | assumption
  | decide
  | refine ctlOut_keeps ?_ ?_
  | refine sealDirected_keeps ?_ ?_ (by assumption)
  | (intro _ _)
  | split
  | dsimp only

theorem ctlBack_keeps {mk : Nat} {sk : State} {s : State} {peer : Nat} {m : CtlMsg} (hk : Keeps mk sk s) (hm : 7365504 &&& mk = 7365504) :
    Keeps mk sk (ctlBack s peer m) := by
  suffices g : Keeps 7365504 s (ctlBack s peer m) from hk.trans (g.weaken hm)
  unfold ctlBack
  with_reducible repeat' first
  | exact Keeps.refl _
  | assumption
  | decide
  | (extract_lets +onlyGivenNames s1; have h1 : Keeps 7365504 s s1 := (by unfold s1; repeat' first | exact Keeps.refl _ | assumption | decide | refine ctlOut_keeps ?_ ?_ | refine Keeps.ite ?_ ?_ | (intro _ _) | split | dsimp only); clear_value s1)
  | (extract_lets +onlyGivenNames x1; clear_value x1)
  | refine ctlOut_keeps ?_ ?_
  | refine Keeps.ite ?_ ?_
  | (intro _ _)
  | split
  | dsimp only

theorem ctlRespond_keeps {mk : Nat} {sk : State} {s : State} {m : CtlMsg} {status : Nat} {content : List Byte} (hk : Keeps mk sk s) (hm : 7367552 &&& mk = 7367552) :
    Keeps mk sk (ctlRespond s m status content) := by
  suffices g : Keeps 7367552 s (ctlRespond s m status content) from hk.trans (g.weaken hm)
  unfold ctlRespond
  with_reducible repeat' first
  | exact Keeps.refl _
  | assumption
  | decide
  | (extract_lets +onlyGivenNames s1; have h1 : Keeps 7367552 s s1 := (by unfold s1; repeat' first | exact Keeps.refl _ | assumption | decide | refine ctlBack_keeps ?_ ?_ | refine ctlOn_keeps ?_ ?_ | refine sealDirected_keeps ?_ ?_ (by assumption) | refine Keeps.ite ?_ ?_ | (intro _ _) | split | dsimp only); clear_value s1)
  | (extract_lets +onlyGivenNames x1; clear_value x1)
  | refine ctlBack_keeps ?_ ?_
  | refine ctlOn_keeps ?_ ?_
  | refine sealDirected_keeps ?_ ?_ (by assumption)
  | refine Keeps.ite ?_ ?_
  | (intro _ _)
  | split
  | dsimp only

theorem ctlToMaster_keeps {mk : Nat} {sk : State} {s : State} {code : Nat} {data : List Byte} (hk : Keeps mk sk s) (hm : 7368576 &&& mk = 7368576) :
    Keeps mk sk (ctlToMaster s code data) := by
  suffices g : Keeps 7368576 s (ctlToMaster s code data) from hk.trans (g.weaken hm)
  unfold ctlToMaster
  with_reducible repeat' first
  | exact Keeps.refl _
  | assumption
  | decide
  | (extract_lets +onlyGivenNames s1; have h1 : Keeps 7368576 s s1 := (by unfold s1; repeat' first | exact Keeps.refl _ | assumption | decide | refine ctlAlong_keeps ?_ ?_ | refine ctlOn_keeps ?_ ?_ | refine Keeps.ite ?_ ?_ | (fail_if_no_progress refine Keeps.fab' ?_ _ rfl) | (intro _ _) | split | dsimp only); clear_value s1)
  | (extract_lets +onlyGivenNames x1; clear_value x1)
  | refine ctlAlong_keeps ?_ ?_
  | refine ctlOn_keeps ?_ ?_
  | refine Keeps.ite ?_ ?_
  | (fail_if_no_progress refine Keeps.fab' ?_ _ rfl)
  | (intro _ _)
  | split
  | dsimp only

theorem memberReport_keeps {mk : Nat} {sk : State} {s : State} {kind : Nat} {port : Nat} {mid : Nat} {term : Nat} (hk : Keeps mk sk s) (hm : 7368576 &&& mk = 7368576) :
    Keeps mk sk (memberReport s kind port mid term) := by
  suffices g : Keeps 7368576 s (memberReport s kind port mid term) from hk.trans (g.weaken hm)
  unfold memberReport
  with_reducible repeat' first
  | exact Keeps.refl _
  | assumption
  | decide
  | (extract_lets +onlyGivenNames s1; have h1 : Keeps 7368576 s s1 := (by unfold s1; repeat' first | exact Keeps.refl _ | assumption | decide | refine ctlToMaster_keeps ?_ ?_ | refine Keeps.ite ?_ ?_ | (fail_if_no_progress refine Keeps.fab' ?_ _ rfl) | (intro _ _) | split | dsimp only); clear_value s1)
  | (extract_lets +onlyGivenNames x1; clear_value x1)
  | refine ctlToMaster_keeps ?_ ?_
  | refine Keeps.ite ?_ ?_
  | (fail_if_no_progress refine Keeps.fab' ?_ _ rfl)
  | (intro _ _)
  | split
  | dsimp only

theorem pathRemoved_keeps {mk : Nat} {sk : State} {s : State} {p : Nat} {cause : Nat} (hk : Keeps mk sk s) (hm : 7368576 &&& mk = 7368576) :
    Keeps mk sk (pathRemoved s p cause) := by
  suffices g : Keeps 7368576 s (pathRemoved s p cause) from hk.trans (g.weaken hm)
  unfold pathRemoved
  with_reducible repeat' first
  | exact Keeps.refl _
  | assumption
  | decide
  | (extract_lets +onlyGivenNames s1; have h1 : Keeps 7368576 s s1 := (by unfold s1; repeat' first | exact Keeps.refl _ | assumption | decide | refine event_keeps ?_ ?_ | refine memberReport_keeps ?_ ?_ | refine Keeps.ite ?_ ?_ | refine Keeps.foldl ?_ _ (fun u a hu => ?_) | refine Keeps.foldlFst ?_ _ (fun u a hu => ?_) | (fail_if_no_progress refine Keeps.fab' ?_ _ rfl) | (intro _ _) | split | dsimp only); clear_value s1)
  | (extract_lets +onlyGivenNames x1; clear_value x1)
  | refine event_keeps ?_ ?_
  | refine memberReport_keeps ?_ ?_
  | refine Keeps.ite ?_ ?_
  | refine Keeps.foldl ?_ _ (fun u a hu => ?_)
  | refine Keeps.foldlFst ?_ _ (fun u a hu => ?_)
  | (fail_if_no_progress refine Keeps.fab' ?_ _ rfl)
  | (intro _ _)
  | split
  | dsimp only

theorem pathRestored_keeps {mk : Nat} {sk : State} {s : State} {p : Nat} (hk : Keeps mk sk s) (hm : 7368576 &&& mk = 7368576) :
    Keeps mk sk (pathRestored s p) := by
  suffices g : Keeps 7368576 s (pathRestored s p) from hk.trans (g.weaken hm)
  unfold pathRestored
  with_reducible repeat' first
  | exact Keeps.refl _
  | assumption
  | decide
  | (extract_lets +onlyGivenNames s1; have h1 : Keeps 7368576 s s1 := (by unfold s1; repeat' first | exact Keeps.refl _ | assumption | decide | refine event_keeps ?_ ?_ | refine memberReport_keeps ?_ ?_ | refine Keeps.ite ?_ ?_ | (fail_if_no_progress refine Keeps.fab' ?_ _ rfl) | (intro _ _) | split | dsimp only); clear_value s1)
  | (extract_lets +onlyGivenNames x1; clear_value x1)
  | refine event_keeps ?_ ?_
  | refine memberReport_keeps ?_ ?_
  | refine Keeps.ite ?_ ?_
  | (fail_if_no_progress refine Keeps.fab' ?_ _ rfl)
  | (intro _ _)
  | split
  | dsimp only

theorem dropQueue_keeps {mk : Nat} {sk : State} {s : State} {p : Nat} (hk : Keeps mk sk s) (hm : 7365504 &&& mk = 7365504) :
    Keeps mk sk (dropQueue s p) := by
  suffices g : Keeps 7365504 s (dropQueue s p) from hk.trans (g.weaken hm)
  unfold dropQueue
  with_reducible repeat' first
  | exact Keeps.refl _
  | assumption
  | decide
  | (extract_lets +onlyGivenNames s1; have h1 : Keeps 7365504 s s1 := (by unfold s1; repeat' first | exact Keeps.refl _ | assumption | decide | refine endRelay_keeps ?_ ?_ | refine releaseItem_keeps ?_ ?_ | refine setQueue_keeps ?_ ?_ | refine Keeps.foldl ?_ _ (fun u a hu => ?_) | refine Keeps.foldlFst ?_ _ (fun u a hu => ?_) | (intro _ _) | split | dsimp only); clear_value s1)
  | (extract_lets +onlyGivenNames x1; clear_value x1)
  | refine endRelay_keeps ?_ ?_
  | refine releaseItem_keeps ?_ ?_
  | refine setQueue_keeps ?_ ?_
  | refine Keeps.foldl ?_ _ (fun u a hu => ?_)
  | refine Keeps.foldlFst ?_ _ (fun u a hu => ?_)
  | (intro _ _)
  | split
  | dsimp only

theorem probesStopped_keeps {mk : Nat} {sk : State} {s : State} {p : Nat} (hk : Keeps mk sk s) (hm : 7368576 &&& mk = 7368576) :
    Keeps mk sk (probesStopped s p) := by
  suffices g : Keeps 7368576 s (probesStopped s p) from hk.trans (g.weaken hm)
  unfold probesStopped
  with_reducible repeat' first
  | exact Keeps.refl _
  | assumption
  | decide
  | refine dropQueue_keeps ?_ ?_
  | refine pathRemoved_keeps ?_ ?_
  | refine Keeps.ite ?_ ?_
  | (intro _ _)
  | split
  | dsimp only

theorem fencedEntry_keeps {mk : Nat} {sk : State} {s : State} {cause : Nat} (hk : Keeps mk sk s) (hm : 7434120 &&& mk = 7434120) :
    Keeps mk sk (fencedEntry s cause) := by
  suffices g : Keeps 7434120 s (fencedEntry s cause) from hk.trans (g.weaken hm)
  unfold fencedEntry
  with_reducible repeat' first
  | exact Keeps.refl _
  | assumption
  | decide
  | (extract_lets +onlyGivenNames s1; have h1 : Keeps 7434120 s s1 := (by unfold s1; repeat' first | exact Keeps.refl _ | assumption | decide | refine changeState_keeps ?_ ?_ | refine event_keeps ?_ ?_ | refine twinCheck_keeps ?_ ?_ | refine Keeps.ite ?_ ?_ | (fail_if_no_progress refine Keeps.fab' ?_ _ rfl) | (intro _ _) | split | dsimp only); clear_value s1)
  | (extract_lets +onlyGivenNames x1; clear_value x1)
  | refine changeState_keeps ?_ ?_
  | refine event_keeps ?_ ?_
  | refine twinCheck_keeps ?_ ?_
  | refine Keeps.ite ?_ ?_
  | (fail_if_no_progress refine Keeps.fab' ?_ _ rfl)
  | (intro _ _)
  | split
  | dsimp only

theorem fencedExit_keeps {mk : Nat} {sk : State} {s : State} (hk : Keeps mk sk s) (hm : 7434120 &&& mk = 7434120) :
    Keeps mk sk (fencedExit s) := by
  suffices g : Keeps 7434120 s (fencedExit s) from hk.trans (g.weaken hm)
  unfold fencedExit
  with_reducible repeat' first
  | exact Keeps.refl _
  | assumption
  | decide
  | (extract_lets +onlyGivenNames s1; have h1 : Keeps 7434120 s s1 := (by unfold s1; repeat' first | exact Keeps.refl _ | assumption | decide | refine changeState_keeps ?_ ?_ | refine event_keeps ?_ ?_ | refine twinCheck_keeps ?_ ?_ | refine Keeps.ite ?_ ?_ | (fail_if_no_progress refine Keeps.fab' ?_ _ rfl) | (intro _ _) | split | dsimp only); clear_value s1)
  | (extract_lets +onlyGivenNames x1; clear_value x1)
  | refine changeState_keeps ?_ ?_
  | refine event_keeps ?_ ?_
  | refine twinCheck_keeps ?_ ?_
  | refine Keeps.ite ?_ ?_
  | (fail_if_no_progress refine Keeps.fab' ?_ _ rfl)
  | (intro _ _)
  | split
  | dsimp only

theorem arrivalCounted_keeps {mk : Nat} {sk : State} {s : State} {p : Nat} {o : WireOp} {n : Nat} (hk : Keeps mk sk s) (hm : 1048576 &&& mk = 1048576) :
    Keeps mk sk (arrivalCounted s p o n) := by
  suffices g : Keeps 1048576 s (arrivalCounted s p o n) from hk.trans (g.weaken hm)
  unfold arrivalCounted
  with_reducible repeat' first
  | exact Keeps.refl _
  | assumption
  | decide
  | refine count_keeps ?_ ?_
  | refine filterItem_keeps ?_ ?_
  | (intro _ _)
  | split
  | dsimp only


theorem fabricArrive_keeps {mk : Nat} {sk s : State} {p tc : Nat} {bs : List Byte} (hk : Keeps mk sk s) (hm : 7368576 &&& mk = 7368576) :
    Keeps mk sk (fabricArrive s p tc bs) := by
  suffices g : Keeps 7368576 s (fabricArrive s p tc bs) from hk.trans (g.weaken hm)
  unfold fabricArrive
  extract_lets o slots s1 freed drop
  have h1 : Keeps 7368576 s s1 := arrivalCounted_keeps (Keeps.refl s) (by decide)
  have hf : ∀ u, Keeps 7368576 s u → Keeps 7368576 s (freed u) := fun u hu => weftRelease_keeps hu (by decide)
  have hd : ∀ u, Keeps 7368576 s u → Keeps 7368576 s (drop u) := fun u hu => count_keeps (hf u hu) (by decide)
  clear_value drop freed s1 slots o
  refine Keeps.ite (hd _ (rateEvent_keeps h1 rfl (fun u a hu => event_keeps hu (by decide)))) ?_
  refine Keeps.ite (hd _ h1) ?_
  refine Keeps.ite (hf _ (Keeps.fab' h1 _ rfl)) ?_
  refine Keeps.ite (Keeps.shu' (storeChain_keeps h1 (by decide)) _ rfl) (Keeps.ite (hd _ h1) ?_)
  split
  · exact count_keeps (hf _ (noRoute_keeps h1 (by decide))) (by decide)
  · exact enqueueOper_keeps (storeChain_keeps h1 (by decide)) (by decide)

theorem noteTerm_keeps {mk : Nat} {sk : State} {s : State} {t : Nat} (hk : Keeps mk sk s) (hm : 1024 &&& mk = 1024) :
    Keeps mk sk (noteTerm s t) := by
  suffices g : Keeps 1024 s (noteTerm s t) from hk.trans (g.weaken hm)
  unfold noteTerm
  with_reducible repeat' first
  | exact Keeps.refl _
  | assumption
  | decide
  | (fail_if_no_progress refine Keeps.fab' ?_ _ rfl)
  | (intro _ _)
  | split
  | dsimp only

theorem linkProbeSend_keeps {mk : Nat} {sk : State} {p : Nat} {s : State} (hk : Keeps mk sk s) (hm : 7366528 &&& mk = 7366528) :
    Keeps mk sk (linkProbeSend p s) := by
  suffices g : Keeps 7366528 s (linkProbeSend p s) from hk.trans (g.weaken hm)
  unfold linkProbeSend
  with_reducible repeat' first
  | exact Keeps.refl _
  | assumption
  | decide
  | (extract_lets +onlyGivenNames s1; have h1 : Keeps 7366528 s s1 := (by unfold s1; repeat' first | exact Keeps.refl _ | assumption | decide | refine launchPort_keeps ?_ ?_ | refine Keeps.ite ?_ ?_ | (fail_if_no_progress refine Keeps.fab' ?_ _ rfl) | (intro _ _) | split | dsimp only); clear_value s1)
  | (extract_lets +onlyGivenNames x1; clear_value x1)
  | refine launchPort_keeps ?_ ?_
  | refine Keeps.ite ?_ ?_
  | (fail_if_no_progress refine Keeps.fab' ?_ _ rfl)
  | (intro _ _)
  | split
  | dsimp only

theorem execLinkProbeSend_keeps {mk : Nat} {sk : State} {p : Port} {s : State} (hk : Keeps mk sk s) (hm : 7366528 &&& mk = 7366528) :
    ∃ t', execLinkProbeSend p s = .next t' ∧ Keeps mk sk t' := by
  suffices g : ∃ t', execLinkProbeSend p s = .next t' ∧ Keeps 7366528 s t' from g.imp fun _ h => ⟨h.1, hk.trans (h.2.weaken hm)⟩
  refine ⟨_, rfl, ?_⟩
  with_reducible repeat' first
  | exact Keeps.refl _
  | assumption
  | decide
  | refine linkProbeSend_keeps ?_ ?_
  | (intro _ _)
  | split
  | dsimp only


theorem takePort_keeps {mk : Nat} {sk : State} {s : State} {f : WireOp → Bool} {t' : State} {x' : Nat × WireOp} (hk : Keeps mk sk s) (hm : 1024 &&& mk = 1024)
    (e : takePort s f = some (t', x')) : Keeps mk sk t' := by
  suffices g : Keeps 1024 s t' from hk.trans (g.weaken hm)
  unfold takePort at e
  split at e
  · injection e with e
    injection e with e1 e2
    subst e1
    exact Keeps.fab' (Keeps.refl s) _ rfl
  · cases e

theorem probeActs_keeps {mk : Nat} {sk : State} {s : State} {p : Nat} {old : Option Probe} {x : Probe} (hk : Keeps mk sk s) (hm : 7368576 &&& mk = 7368576) :
    Keeps mk sk (probeActs s p old x) := by
  suffices g : Keeps 7368576 s (probeActs s p old x) from hk.trans (g.weaken hm)
  unfold probeActs
  with_reducible repeat' first
  | exact Keeps.refl _
  | assumption
  | decide
  | (extract_lets +onlyGivenNames s1; have h1 : Keeps 7368576 s s1 := (by unfold s1; repeat' first | exact Keeps.refl _ | assumption | decide | refine event_keeps ?_ ?_ | refine memberReport_keeps ?_ ?_ | refine pathRestored_keeps ?_ ?_ | refine probesStopped_keeps ?_ ?_ | refine Keeps.ite ?_ ?_ | (fail_if_no_progress refine Keeps.fab' ?_ _ rfl) | (intro _ _) | split | dsimp only); clear_value s1)
  | (extract_lets +onlyGivenNames x1; clear_value x1)
  | refine event_keeps ?_ ?_
  | refine memberReport_keeps ?_ ?_
  | refine pathRestored_keeps ?_ ?_
  | refine probesStopped_keeps ?_ ?_
  | refine Keeps.ite ?_ ?_
  | (fail_if_no_progress refine Keeps.fab' ?_ _ rfl)
  | (intro _ _)
  | split
  | dsimp only

theorem linkProbeReceive_keeps {mk : Nat} {sk : State} {s : State} (hk : Keeps mk sk s) (hm : 7434120 &&& mk = 7434120) :
    Keeps mk sk (linkProbeReceive s) := by
  suffices g : Keeps 7434120 s (linkProbeReceive s) from hk.trans (g.weaken hm)
  unfold linkProbeReceive
  with_reducible repeat' first
  | exact Keeps.refl _
  | assumption
  | decide
  | (extract_lets +onlyGivenNames q1; have hq1 : Keeps 7434120 s q1.1 := (by unfold q1; repeat' first | exact Keeps.refl _ | assumption | decide | refine count_keeps ?_ ?_ | refine probeActs_keeps ?_ ?_ | refine takePort_keeps ?_ ?_ (by assumption) | refine twinCheck_keeps ?_ ?_ | (fail_if_no_progress refine Keeps.fab' ?_ _ rfl) | (intro _ _) | split | dsimp only); clear_value q1)
  | (extract_lets +onlyGivenNames s1; have h1 : Keeps 7434120 s s1 := (by unfold s1; repeat' first | exact Keeps.refl _ | assumption | decide | refine count_keeps ?_ ?_ | refine probeActs_keeps ?_ ?_ | refine takePort_keeps ?_ ?_ (by assumption) | refine twinCheck_keeps ?_ ?_ | (fail_if_no_progress refine Keeps.fab' ?_ _ rfl) | (intro _ _) | split | dsimp only); clear_value s1)
  | (extract_lets +onlyGivenNames x1; clear_value x1)
  | refine count_keeps ?_ ?_
  | refine probeActs_keeps ?_ ?_
  | refine takePort_keeps ?_ ?_ (by assumption)
  | refine twinCheck_keeps ?_ ?_
  | (fail_if_no_progress refine Keeps.fab' ?_ _ rfl)
  | (intro _ _)
  | split
  | dsimp only

theorem execLinkProbeReceive_keeps {mk : Nat} {sk : State} {s : State} (hk : Keeps mk sk s) (hm : 7434120 &&& mk = 7434120) :
    ∃ t', execLinkProbeReceive s = .next t' ∧ Keeps mk sk t' := by
  suffices g : ∃ t', execLinkProbeReceive s = .next t' ∧ Keeps 7434120 s t' from g.imp fun _ h => ⟨h.1, hk.trans (h.2.weaken hm)⟩
  refine ⟨_, rfl, ?_⟩
  with_reducible repeat' first
  | exact Keeps.refl _
  | assumption
  | decide
  | refine linkProbeReceive_keeps ?_ ?_
  | (intro _ _)
  | split
  | dsimp only

theorem deriveLinkKey_keeps {mk : Nat} {sk : State} {s : State} {p : Nat} (hk : Keeps mk sk s) (hm : 2048 &&& mk = 2048) :
    Keeps mk sk (deriveLinkKey s p) := by
  suffices g : Keeps 2048 s (deriveLinkKey s p) from hk.trans (g.weaken hm)
  unfold deriveLinkKey
  with_reducible repeat' first
  | exact Keeps.refl _
  | assumption
  | decide
  | (extract_lets +onlyGivenNames s1; have h1 : Keeps 2048 s s1 := (by unfold s1; repeat' first | exact Keeps.refl _ | assumption | decide | refine Keeps.ite ?_ ?_ | (fail_if_no_progress refine Keeps.shu' ?_ _ rfl) | (intro _ _) | split | dsimp only); clear_value s1)
  | (extract_lets +onlyGivenNames x1; clear_value x1)
  | refine Keeps.ite ?_ ?_
  | (fail_if_no_progress refine Keeps.shu' ?_ _ rfl)
  | (intro _ _)
  | split
  | dsimp only

theorem beaconOut_keeps {mk : Nat} {sk : State} {s : State} {p : Nat} {w : Nat} (hk : Keeps mk sk s) (hm : 7366528 &&& mk = 7366528) :
    Keeps mk sk (beaconOut s p w) := by
  suffices g : Keeps 7366528 s (beaconOut s p w) from hk.trans (g.weaken hm)
  unfold beaconOut
  with_reducible repeat' first
  | exact Keeps.refl _
  | assumption
  | decide
  | (extract_lets +onlyGivenNames s1; have h1 : Keeps 7366528 s s1 := (by unfold s1; repeat' first | exact Keeps.refl _ | assumption | decide | refine launchPort_keeps ?_ ?_ | refine Keeps.ite ?_ ?_ | (fail_if_no_progress refine Keeps.fab' ?_ _ rfl) | (intro _ _) | split | dsimp only); clear_value s1)
  | (extract_lets +onlyGivenNames x1; clear_value x1)
  | refine launchPort_keeps ?_ ?_
  | refine Keeps.ite ?_ ?_
  | (fail_if_no_progress refine Keeps.fab' ?_ _ rfl)
  | (intro _ _)
  | split
  | dsimp only

theorem beaconSend_keeps {mk : Nat} {sk : State} {s : State} (hk : Keeps mk sk s) (hm : 7366528 &&& mk = 7366528) :
    Keeps mk sk (beaconSend s) := by
  suffices g : Keeps 7366528 s (beaconSend s) from hk.trans (g.weaken hm)
  unfold beaconSend
  with_reducible repeat' first
  | exact Keeps.refl _
  | assumption
  | decide
  | (extract_lets +onlyGivenNames s1; have h1 : Keeps 7366528 s s1 := (by unfold s1; repeat' first | exact Keeps.refl _ | assumption | decide | refine beaconOut_keeps ?_ ?_ | refine Keeps.ite ?_ ?_ | refine Keeps.foldl ?_ _ (fun u a hu => ?_) | refine Keeps.foldlFst ?_ _ (fun u a hu => ?_) | (fail_if_no_progress refine Keeps.fab' ?_ _ rfl) | (intro _ _) | split | dsimp only); clear_value s1)
  | (extract_lets +onlyGivenNames x1; clear_value x1)
  | refine beaconOut_keeps ?_ ?_
  | refine Keeps.ite ?_ ?_
  | refine Keeps.foldl ?_ _ (fun u a hu => ?_)
  | refine Keeps.foldlFst ?_ _ (fun u a hu => ?_)
  | (fail_if_no_progress refine Keeps.fab' ?_ _ rfl)
  | (intro _ _)
  | split
  | dsimp only

theorem execBeaconSend_keeps {mk : Nat} {sk : State} {s : State} (hk : Keeps mk sk s) (hm : 7366528 &&& mk = 7366528) :
    ∃ t', execBeaconSend s = .next t' ∧ Keeps mk sk t' := by
  suffices g : ∃ t', execBeaconSend s = .next t' ∧ Keeps 7366528 s t' from g.imp fun _ h => ⟨h.1, hk.trans (h.2.weaken hm)⟩
  refine ⟨_, rfl, ?_⟩
  with_reducible repeat' first
  | exact Keeps.refl _
  | assumption
  | decide
  | refine beaconSend_keeps ?_ ?_
  | (intro _ _)
  | split
  | dsimp only

theorem juniorStepped_keeps {mk : Nat} {sk : State} {s : State} (hk : Keeps mk sk s) (hm : 2048 &&& mk = 2048) :
    Keeps mk sk (juniorStepped s) := by
  suffices g : Keeps 2048 s (juniorStepped s) from hk.trans (g.weaken hm)
  unfold juniorStepped
  with_reducible repeat' first
  | exact Keeps.refl _
  | assumption
  | decide
  | refine Keeps.ite ?_ ?_
  | (fail_if_no_progress refine Keeps.shu' ?_ _ rfl)
  | (intro _ _)
  | split
  | dsimp only

theorem lockCheck_keeps {mk : Nat} {sk : State} {s : State} {off : Int} (hk : Keeps mk sk s) (hm : 7365632 &&& mk = 7365632) :
    Keeps mk sk (lockCheck s off) := by
  suffices g : Keeps 7365632 s (lockCheck s off) from hk.trans (g.weaken hm)
  unfold lockCheck
  with_reducible repeat' first
  | exact Keeps.refl _
  | assumption
  | decide
  | (extract_lets +onlyGivenNames s1; have h1 : Keeps 7365632 s s1 := (by unfold s1; repeat' first | exact Keeps.refl _ | assumption | decide | refine event_keeps ?_ ?_ | refine Keeps.ite ?_ ?_ | (fail_if_no_progress refine Keeps.fab' ?_ _ rfl) | (intro _ _) | split | dsimp only); clear_value s1)
  | (extract_lets +onlyGivenNames x1; clear_value x1)
  | refine event_keeps ?_ ?_
  | refine Keeps.ite ?_ ?_
  | (fail_if_no_progress refine Keeps.fab' ?_ _ rfl)
  | (intro _ _)
  | split
  | dsimp only

theorem followTime_keeps {mk : Nat} {sk : State} {s : State} {p : Nat} {tTx : Nat} (hk : Keeps mk sk s) (hm : 7367681 &&& mk = 7367681) :
    Keeps mk sk (followTime s p tTx) := by
  suffices g : Keeps 7367681 s (followTime s p tTx) from hk.trans (g.weaken hm)
  unfold followTime
  with_reducible repeat' first
  | exact Keeps.refl _
  | assumption
  | decide
  | (extract_lets +onlyGivenNames s1; have h1 : Keeps 7367681 s s1 := (by unfold s1; repeat' first | exact Keeps.refl _ | assumption | decide | refine event_keeps ?_ ?_ | refine juniorStepped_keeps ?_ ?_ | refine lockCheck_keeps ?_ ?_ | refine Keeps.ite ?_ ?_ | (fail_if_no_progress refine Keeps.ft' ?_ _ rfl) | (fail_if_no_progress refine Keeps.fab' ?_ _ rfl) | (fail_if_no_progress (refine Keeps.several ?_ (by refine ⟨?_, ?_, ?_, ?_, ?_, ?_, ?_, ?_, ?_, ?_, ?_, ?_, ?_, ?_, ?_, ?_, ?_, ?_, ?_, ?_⟩ <;> first | exact Or.inl rfl | exact Or.inr rfl))) | (intro _ _) | split | dsimp only); clear_value s1)
  | (extract_lets +onlyGivenNames x1; clear_value x1)
  | refine event_keeps ?_ ?_
  | refine juniorStepped_keeps ?_ ?_
  | refine lockCheck_keeps ?_ ?_
  | refine Keeps.ite ?_ ?_
  | (fail_if_no_progress refine Keeps.ft' ?_ _ rfl)
  | (fail_if_no_progress refine Keeps.fab' ?_ _ rfl)
  | (fail_if_no_progress (refine Keeps.several ?_ (by refine ⟨?_, ?_, ?_, ?_, ?_, ?_, ?_, ?_, ?_, ?_, ?_, ?_, ?_, ?_, ?_, ?_, ?_, ?_, ?_, ?_⟩ <;> first | exact Or.inl rfl | exact Or.inr rfl)))
  | (intro _ _)
  | split
  | dsimp only

theorem followMaster_keeps {mk : Nat} {sk : State} {s : State} {m : Nat} {term : Nat} (hk : Keeps mk sk s) (hm : 7365632 &&& mk = 7365632) :
    Keeps mk sk (followMaster s m term) := by
  suffices g : Keeps 7365632 s (followMaster s m term) from hk.trans (g.weaken hm)
  unfold followMaster
  with_reducible repeat' first
  | exact Keeps.refl _
  | assumption
  | decide
  | (extract_lets +onlyGivenNames s1; have h1 : Keeps 7365632 s s1 := (by unfold s1; repeat' first | exact Keeps.refl _ | assumption | decide | refine event_keeps ?_ ?_ | refine Keeps.ite ?_ ?_ | (fail_if_no_progress refine Keeps.fab' ?_ _ rfl) | (intro _ _) | split | dsimp only); clear_value s1)
  | (extract_lets +onlyGivenNames x1; clear_value x1)
  | refine event_keeps ?_ ?_
  | refine Keeps.ite ?_ ?_
  | (fail_if_no_progress refine Keeps.fab' ?_ _ rfl)
  | (intro _ _)
  | split
  | dsimp only


theorem memberBeacon_keeps {mk : Nat} {sk s : State} {p w : Nat} (hk : Keeps mk sk s) (hm : 7368577 &&& mk = 7368577) :
    Keeps mk sk (memberBeacon s p w) := by
  suffices g : Keeps 7368577 s (memberBeacon s p w) from hk.trans (g.weaken hm)
  unfold memberBeacon
  refine Keeps.ite (Keeps.refl s) ?_
  have h1 : Keeps 7368577 s (followMaster s (bits w 0 10) (bits w 160 32)) := followMaster_keeps (Keeps.refl s) (by decide)
  dsimp only
  generalize followMaster s (bits w 0 10) (bits w 160 32) = u at h1 ⊢
  refine Keeps.ite (Keeps.foldl (followTime_keeps (Keeps.fab' (Keeps.fab' h1 _ rfl) _ rfl) (by decide)) _ (fun v a hv => beaconOut_keeps hv (by decide))) ?_
  exact Keeps.fab' (Keeps.fab' h1 _ rfl) _ rfl

theorem juniorBeacon_keeps {mk : Nat} {sk : State} {s : State} {p : Nat} {w : Nat} (hk : Keeps mk sk s) (hm : 7367681 &&& mk = 7367681) :
    Keeps mk sk (juniorBeacon s p w) := by
  suffices g : Keeps 7367681 s (juniorBeacon s p w) from hk.trans (g.weaken hm)
  unfold juniorBeacon
  with_reducible repeat' first
  | exact Keeps.refl _
  | assumption
  | decide
  | (extract_lets +onlyGivenNames s1; have h1 : Keeps 7367681 s s1 := (by unfold s1; repeat' first | exact Keeps.refl _ | assumption | decide | refine followTime_keeps ?_ ?_ | refine Keeps.ite ?_ ?_ | (fail_if_no_progress refine Keeps.fab' ?_ _ rfl) | (intro _ _) | split | dsimp only); clear_value s1)
  | (extract_lets +onlyGivenNames x1; clear_value x1)
  | refine followTime_keeps ?_ ?_
  | refine Keeps.ite ?_ ?_
  | (fail_if_no_progress refine Keeps.fab' ?_ _ rfl)
  | (intro _ _)
  | split
  | dsimp only

theorem beaconReceive_keeps {mk : Nat} {sk : State} {s : State} (hk : Keeps mk sk s) (hm : 7368577 &&& mk = 7368577) :
    Keeps mk sk (beaconReceive s) := by
  suffices g : Keeps 7368577 s (beaconReceive s) from hk.trans (g.weaken hm)
  unfold beaconReceive
  with_reducible repeat' first
  | exact Keeps.refl _
  | assumption
  | decide
  | (extract_lets +onlyGivenNames q1; have hq1 : Keeps 7368577 s q1.1 := (by unfold q1; repeat' first | exact Keeps.refl _ | assumption | decide | refine count_keeps ?_ ?_ | refine deriveLinkKey_keeps ?_ ?_ | refine event_keeps ?_ ?_ | refine juniorBeacon_keeps ?_ ?_ | refine memberBeacon_keeps ?_ ?_ | refine takePort_keeps ?_ ?_ (by assumption) | refine Keeps.ite ?_ ?_ | (intro _ _) | split | dsimp only); clear_value q1)
  | (extract_lets +onlyGivenNames s1; have h1 : Keeps 7368577 s s1 := (by unfold s1; repeat' first | exact Keeps.refl _ | assumption | decide | refine count_keeps ?_ ?_ | refine deriveLinkKey_keeps ?_ ?_ | refine event_keeps ?_ ?_ | refine juniorBeacon_keeps ?_ ?_ | refine memberBeacon_keeps ?_ ?_ | refine takePort_keeps ?_ ?_ (by assumption) | refine Keeps.ite ?_ ?_ | (intro _ _) | split | dsimp only); clear_value s1)
  | (extract_lets +onlyGivenNames x1; clear_value x1)
  | refine count_keeps ?_ ?_
  | refine deriveLinkKey_keeps ?_ ?_
  | refine event_keeps ?_ ?_
  | refine juniorBeacon_keeps ?_ ?_
  | refine memberBeacon_keeps ?_ ?_
  | refine takePort_keeps ?_ ?_ (by assumption)
  | refine Keeps.ite ?_ ?_
  | (intro _ _)
  | split
  | dsimp only

theorem execBeaconReceive_keeps {mk : Nat} {sk : State} {s : State} (hk : Keeps mk sk s) (hm : 7368577 &&& mk = 7368577) :
    ∃ t', execBeaconReceive s = .next t' ∧ Keeps mk sk t' := by
  suffices g : ∃ t', execBeaconReceive s = .next t' ∧ Keeps 7368577 s t' from g.imp fun _ h => ⟨h.1, hk.trans (h.2.weaken hm)⟩
  refine ⟨_, rfl, ?_⟩
  with_reducible repeat' first
  | exact Keeps.refl _
  | assumption
  | decide
  | refine beaconReceive_keeps ?_ ?_
  | (intro _ _)
  | split
  | dsimp only

theorem actFtSet_keeps {mk : Nat} {sk : State} {v : Nat} {s : State} (hk : Keeps mk sk s) (hm : 1 &&& mk = 1) :
    Keeps mk sk (actFtSet v s) := by
  suffices g : Keeps 1 s (actFtSet v s) from hk.trans (g.weaken hm)
  unfold actFtSet
  with_reducible repeat' first
  | exact Keeps.refl _
  | assumption
  | decide
  | (fail_if_no_progress refine Keeps.ft' ?_ _ rfl)
  | (intro _ _)
  | split
  | dsimp only

theorem execFtSet_keeps {mk : Nat} {sk : State} {sess : Nat} {value : Nat} {s : State} (hk : Keeps mk sk s) (hm : 1310721 &&& mk = 1310721) :
    ∃ t', execFtSet sess value s = .next t' ∧ Keeps mk sk t' := by
  suffices g : ∃ t', execFtSet sess value s = .next t' ∧ Keeps 1310721 s t' from g.imp fun _ h => ⟨h.1, hk.trans (h.2.weaken hm)⟩
  refine ⟨_, rfl, ?_⟩
  with_reducible repeat' first
  | exact Keeps.refl _
  | assumption
  | decide
  | refine actFtSet_keeps ?_ ?_
  | refine actWrite_keeps ?_ rfl (fun u hu => ?_) (fun u hu => ?_)
  | refine Keeps.ite ?_ ?_
  | simp only [id_eq]
  | (intro _ _)
  | split
  | dsimp only

theorem ftPpsInEdge_keeps {mk : Nat} {sk : State} {s : State} (hk : Keeps mk sk s) (hm : 1024 &&& mk = 1024) :
    Keeps mk sk (ftPpsInEdge s) := by
  suffices g : Keeps 1024 s (ftPpsInEdge s) from hk.trans (g.weaken hm)
  unfold ftPpsInEdge
  with_reducible repeat' first
  | exact Keeps.refl _
  | assumption
  | decide
  | (extract_lets +onlyGivenNames s1; have h1 : Keeps 1024 s s1 := (by unfold s1; repeat' first | exact Keeps.refl _ | assumption | decide | refine Keeps.ite ?_ ?_ | (fail_if_no_progress refine Keeps.fab' ?_ _ rfl) | (intro _ _) | split | dsimp only); clear_value s1)
  | (extract_lets +onlyGivenNames x1; clear_value x1)
  | refine Keeps.ite ?_ ?_
  | (fail_if_no_progress refine Keeps.fab' ?_ _ rfl)
  | (intro _ _)
  | split
  | dsimp only

theorem execFtPpsInEdge_keeps {mk : Nat} {sk : State} {s : State} (hk : Keeps mk sk s) (hm : 1024 &&& mk = 1024) :
    ∃ t', execFtPpsInEdge s = .next t' ∧ Keeps mk sk t' := by
  suffices g : ∃ t', execFtPpsInEdge s = .next t' ∧ Keeps 1024 s t' from g.imp fun _ h => ⟨h.1, hk.trans (h.2.weaken hm)⟩
  refine ⟨_, rfl, ?_⟩
  with_reducible repeat' first
  | exact Keeps.refl _
  | assumption
  | decide
  | refine ftPpsInEdge_keeps ?_ ?_
  | (intro _ _)
  | split
  | dsimp only

theorem ftPpsOutPulse_keeps {mk : Nat} {sk : State} {s : State} (hk : Keeps mk sk s) (hm : 1024 &&& mk = 1024) :
    Keeps mk sk (ftPpsOutPulse s) := by
  suffices g : Keeps 1024 s (ftPpsOutPulse s) from hk.trans (g.weaken hm)
  unfold ftPpsOutPulse
  with_reducible repeat' first
  | exact Keeps.refl _
  | assumption
  | decide
  | refine emit_keeps ?_
  | refine Keeps.ite ?_ ?_
  | (fail_if_no_progress refine Keeps.fab' ?_ _ rfl)
  | (intro _ _)
  | split
  | dsimp only

theorem execFtPpsOutPulse_keeps {mk : Nat} {sk : State} {s : State} (hk : Keeps mk sk s) (hm : 1024 &&& mk = 1024) :
    ∃ t', execFtPpsOutPulse s = .next t' ∧ Keeps mk sk t' := by
  suffices g : ∃ t', execFtPpsOutPulse s = .next t' ∧ Keeps 1024 s t' from g.imp fun _ h => ⟨h.1, hk.trans (h.2.weaken hm)⟩
  refine ⟨_, rfl, ?_⟩
  with_reducible repeat' first
  | exact Keeps.refl _
  | assumption
  | decide
  | refine ftPpsOutPulse_keeps ?_ ?_
  | (intro _ _)
  | split
  | dsimp only

theorem ctlDelivered_keeps {mk : Nat} {sk : State} {s : State} {p : Nat} {o : WireOp} {m : CtlMsg} (hk : Keeps mk sk s) (hm : 7398656 &&& mk = 7398656) :
    Keeps mk sk (ctlDelivered s p o m) := by
  suffices g : Keeps 7398656 s (ctlDelivered s p o m) from hk.trans (g.weaken hm)
  unfold ctlDelivered
  with_reducible repeat' first
  | exact Keeps.refl _
  | assumption
  | decide
  | (extract_lets +onlyGivenNames s1; have h1 : Keeps 7398656 s s1 := (by unfold s1; repeat' first | exact Keeps.refl _ | assumption | decide | refine tagFailedOpen_keeps ?_ ?_ | refine Keeps.ite ?_ ?_ | (fail_if_no_progress refine Keeps.fab' ?_ _ rfl) | (intro _ _) | split | dsimp only); clear_value s1)
  | (extract_lets +onlyGivenNames x1; clear_value x1)
  | refine tagFailedOpen_keeps ?_ ?_
  | refine Keeps.ite ?_ ?_
  | (fail_if_no_progress refine Keeps.fab' ?_ _ rfl)
  | (intro _ _)
  | split
  | dsimp only

theorem directedMsgForward_keeps {mk : Nat} {sk : State} {s : State} (hk : Keeps mk sk s) (hm : 7399296 &&& mk = 7399296) :
    Keeps mk sk (directedMsgForward s) := by
  suffices g : Keeps 7399296 s (directedMsgForward s) from hk.trans (g.weaken hm)
  unfold directedMsgForward
  with_reducible repeat' first
  | exact Keeps.refl _
  | assumption
  | decide
  | (extract_lets +onlyGivenNames q1; have hq1 : Keeps 7399296 s q1.1 := (by unfold q1; repeat' first | exact Keeps.refl _ | assumption | decide | refine ctlBack_keeps ?_ ?_ | refine ctlDelivered_keeps ?_ ?_ | refine launchPort_keeps ?_ ?_ | refine takePort_keeps ?_ ?_ (by assumption) | refine Keeps.ite ?_ ?_ | (intro _ _) | split | dsimp only); clear_value q1)
  | (extract_lets +onlyGivenNames s1; have h1 : Keeps 7399296 s s1 := (by unfold s1; repeat' first | exact Keeps.refl _ | assumption | decide | refine ctlBack_keeps ?_ ?_ | refine ctlDelivered_keeps ?_ ?_ | refine launchPort_keeps ?_ ?_ | refine takePort_keeps ?_ ?_ (by assumption) | refine Keeps.ite ?_ ?_ | (intro _ _) | split | dsimp only); clear_value s1)
  | (extract_lets +onlyGivenNames x1; clear_value x1)
  | refine ctlBack_keeps ?_ ?_
  | refine ctlDelivered_keeps ?_ ?_
  | refine launchPort_keeps ?_ ?_
  | refine takePort_keeps ?_ ?_ (by assumption)
  | refine Keeps.ite ?_ ?_
  | (intro _ _)
  | split
  | dsimp only

theorem execDirectedMsgForward_keeps {mk : Nat} {sk : State} {s : State} (hk : Keeps mk sk s) (hm : 7399296 &&& mk = 7399296) :
    ∃ t', execDirectedMsgForward s = .next t' ∧ Keeps mk sk t' := by
  suffices g : ∃ t', execDirectedMsgForward s = .next t' ∧ Keeps 7399296 s t' from g.imp fun _ h => ⟨h.1, hk.trans (h.2.weaken hm)⟩
  refine ⟨_, rfl, ?_⟩
  with_reducible repeat' first
  | exact Keeps.refl _
  | assumption
  | decide
  | refine directedMsgForward_keeps ?_ ?_
  | (intro _ _)
  | split
  | dsimp only


theorem takeCtl_keeps {mk : Nat} {sk : State} {s : State} {code : Nat} {t' : State} {x' : CtlMsg} (hk : Keeps mk sk s) (hm : 1024 &&& mk = 1024)
    (e : takeCtl s code = some (t', x')) : Keeps mk sk t' := by
  suffices g : Keeps 1024 s t' from hk.trans (g.weaken hm)
  unfold takeCtl at e
  split at e
  · injection e with e
    injection e with e1 e2
    subst e1
    exact Keeps.fab' (Keeps.refl s) _ rfl
  · cases e


theorem ctlCommand_keeps {mk : Nat} {sk s : State} {code : Nat} {f : State → CtlMsg → State} (hk : Keeps mk sk s) (hm : 7368576 &&& mk = 7368576)
    (hf : ∀ u m, Keeps mk sk u → Keeps mk sk (f u m)) : Keeps mk sk (ctlCommand s code f) := by
  have w : ∀ {a : Nat} , a &&& 7368576 = a → a &&& mk = a := fun h => by
    rename_i a
    rw [← h, Nat.and_assoc, hm]
  unfold ctlCommand
  split
  · exact hk
  · next e =>
    have h1 := takeCtl_keeps hk (w (by decide)) e
    split
    · exact ctlRespond_keeps h1 (w (by decide))
    · exact hf _ _ h1

theorem neighbours_keeps {mk : Nat} {sk : State} {s : State} (hk : Keeps mk sk s) (hm : 7368576 &&& mk = 7368576) :
    Keeps mk sk (neighbours s) := by
  suffices g : Keeps 7368576 s (neighbours s) from hk.trans (g.weaken hm)
  unfold neighbours
  with_reducible repeat' first
  | exact Keeps.refl _
  | assumption
  | decide
  | refine ctlCommand_keeps ?_ ?_ (fun u a hu => ?_)
  | refine ctlRespond_keeps ?_ ?_
  | (intro _ _)
  | split
  | dsimp only

theorem execNeighbours_keeps {mk : Nat} {sk : State} {s : State} (hk : Keeps mk sk s) (hm : 7368576 &&& mk = 7368576) :
    ∃ t', execNeighbours s = .next t' ∧ Keeps mk sk t' := by
  suffices g : ∃ t', execNeighbours s = .next t' ∧ Keeps 7368576 s t' from g.imp fun _ h => ⟨h.1, hk.trans (h.2.weaken hm)⟩
  refine ⟨_, rfl, ?_⟩
  with_reducible repeat' first
  | exact Keeps.refl _
  | assumption
  | decide
  | refine neighbours_keeps ?_ ?_
  | (intro _ _)
  | split
  | dsimp only

theorem assignMid_keeps {mk : Nat} {sk : State} {s : State} (hk : Keeps mk sk s) (hm : 7368582 &&& mk = 7368582) :
    Keeps mk sk (assignMid s) := by
  suffices g : Keeps 7368582 s (assignMid s) from hk.trans (g.weaken hm)
  unfold assignMid
  with_reducible repeat' first
  | exact Keeps.refl _
  | assumption
  | decide
  | (extract_lets +onlyGivenNames q1; have hq1 : Keeps 7368582 s q1.1 := (by unfold q1; repeat' first | exact Keeps.refl _ | assumption | decide | refine ctlCommand_keeps ?_ ?_ (fun u a hu => ?_) | refine ctlRespond_keeps ?_ ?_ | refine event_keeps ?_ ?_ | refine setCfg_keeps ?_ ?_ | refine setFlash_keeps ?_ ?_ | refine Keeps.ite ?_ ?_ | (intro _ _) | split | dsimp only); clear_value q1)
  | (extract_lets +onlyGivenNames s1; have h1 : Keeps 7368582 s s1 := (by unfold s1; repeat' first | exact Keeps.refl _ | assumption | decide | refine ctlCommand_keeps ?_ ?_ (fun u a hu => ?_) | refine ctlRespond_keeps ?_ ?_ | refine event_keeps ?_ ?_ | refine setCfg_keeps ?_ ?_ | refine setFlash_keeps ?_ ?_ | refine Keeps.ite ?_ ?_ | (intro _ _) | split | dsimp only); clear_value s1)
  | (extract_lets +onlyGivenNames x1; clear_value x1)
  | refine ctlCommand_keeps ?_ ?_ (fun u a hu => ?_)
  | refine ctlRespond_keeps ?_ ?_
  | refine event_keeps ?_ ?_
  | refine setCfg_keeps ?_ ?_
  | refine setFlash_keeps ?_ ?_
  | refine Keeps.ite ?_ ?_
  | (intro _ _)
  | split
  | dsimp only

theorem execAssignMid_keeps {mk : Nat} {sk : State} {s : State} (hk : Keeps mk sk s) (hm : 7368582 &&& mk = 7368582) :
    ∃ t', execAssignMid s = .next t' ∧ Keeps mk sk t' := by
  suffices g : ∃ t', execAssignMid s = .next t' ∧ Keeps 7368582 s t' from g.imp fun _ h => ⟨h.1, hk.trans (h.2.weaken hm)⟩
  refine ⟨_, rfl, ?_⟩
  with_reducible repeat' first
  | exact Keeps.refl _
  | assumption
  | decide
  | refine assignMid_keeps ?_ ?_
  | (intro _ _)
  | split
  | dsimp only

theorem routeWrite_keeps {mk : Nat} {sk : State} {s : State} (hk : Keeps mk sk s) (hm : 7368576 &&& mk = 7368576) :
    Keeps mk sk (routeWrite s) := by
  suffices g : Keeps 7368576 s (routeWrite s) from hk.trans (g.weaken hm)
  unfold routeWrite
  with_reducible repeat' first
  | exact Keeps.refl _
  | assumption
  | decide
  | (extract_lets +onlyGivenNames q1; have hq1 : Keeps 7368576 s q1.1 := (by unfold q1; repeat' first | exact Keeps.refl _ | assumption | decide | refine ctlCommand_keeps ?_ ?_ (fun u a hu => ?_) | refine ctlRespond_keeps ?_ ?_ | refine Keeps.ite ?_ ?_ | (fail_if_no_progress refine Keeps.fab' ?_ _ rfl) | (intro _ _) | split | dsimp only); clear_value q1)
  | (extract_lets +onlyGivenNames s1; have h1 : Keeps 7368576 s s1 := (by unfold s1; repeat' first | exact Keeps.refl _ | assumption | decide | refine ctlCommand_keeps ?_ ?_ (fun u a hu => ?_) | refine ctlRespond_keeps ?_ ?_ | refine Keeps.ite ?_ ?_ | (fail_if_no_progress refine Keeps.fab' ?_ _ rfl) | (intro _ _) | split | dsimp only); clear_value s1)
  | (extract_lets +onlyGivenNames x1; clear_value x1)
  | refine ctlCommand_keeps ?_ ?_ (fun u a hu => ?_)
  | refine ctlRespond_keeps ?_ ?_
  | refine Keeps.ite ?_ ?_
  | (fail_if_no_progress refine Keeps.fab' ?_ _ rfl)
  | (intro _ _)
  | split
  | dsimp only

theorem execRouteWrite_keeps {mk : Nat} {sk : State} {s : State} (hk : Keeps mk sk s) (hm : 7368576 &&& mk = 7368576) :
    ∃ t', execRouteWrite s = .next t' ∧ Keeps mk sk t' := by
  suffices g : ∃ t', execRouteWrite s = .next t' ∧ Keeps 7368576 s t' from g.imp fun _ h => ⟨h.1, hk.trans (h.2.weaken hm)⟩
  refine ⟨_, rfl, ?_⟩
  with_reducible repeat' first
  | exact Keeps.refl _
  | assumption
  | decide
  | refine routeWrite_keeps ?_ ?_
  | (intro _ _)
  | split
  | dsimp only

theorem bankSwitch_keeps {mk : Nat} {sk : State} {s : State} (hk : Keeps mk sk s) (hm : 7368576 &&& mk = 7368576) :
    Keeps mk sk (bankSwitch s) := by
  suffices g : Keeps 7368576 s (bankSwitch s) from hk.trans (g.weaken hm)
  unfold bankSwitch
  with_reducible repeat' first
  | exact Keeps.refl _
  | assumption
  | decide
  | (extract_lets +onlyGivenNames q1; have hq1 : Keeps 7368576 s q1.1 := (by unfold q1; repeat' first | exact Keeps.refl _ | assumption | decide | refine ctlCommand_keeps ?_ ?_ (fun u a hu => ?_) | (fail_if_no_progress refine Keeps.fab' ?_ _ rfl) | (intro _ _) | split | dsimp only); clear_value q1)
  | (extract_lets +onlyGivenNames s1; have h1 : Keeps 7368576 s s1 := (by unfold s1; repeat' first | exact Keeps.refl _ | assumption | decide | refine ctlCommand_keeps ?_ ?_ (fun u a hu => ?_) | (fail_if_no_progress refine Keeps.fab' ?_ _ rfl) | (intro _ _) | split | dsimp only); clear_value s1)
  | (extract_lets +onlyGivenNames x1; clear_value x1)
  | refine ctlCommand_keeps ?_ ?_ (fun u a hu => ?_)
  | (fail_if_no_progress refine Keeps.fab' ?_ _ rfl)
  | (intro _ _)
  | split
  | dsimp only

theorem switchAnswered_keeps {mk : Nat} {sk : State} {s : State} {msg : Option CtlMsg} {status : Nat} (hk : Keeps mk sk s) (hm : 7367552 &&& mk = 7367552) :
    Keeps mk sk (switchAnswered s msg status) := by
  suffices g : Keeps 7367552 s (switchAnswered s msg status) from hk.trans (g.weaken hm)
  unfold switchAnswered
  with_reducible repeat' first
  | exact Keeps.refl _
  | assumption
  | decide
  | refine ctlRespond_keeps ?_ ?_
  | (intro _ _)
  | split
  | dsimp only

theorem execBankSwitch_keeps {mk : Nat} {sk : State} {s : State} (hk : Keeps mk sk s) (hm : 7368576 &&& mk = 7368576) :
    ∃ t', execBankSwitch s = .next t' ∧ Keeps mk sk t' := by
  suffices g : ∃ t', execBankSwitch s = .next t' ∧ Keeps 7368576 s t' from g.imp fun _ h => ⟨h.1, hk.trans (h.2.weaken hm)⟩
  refine ⟨_, rfl, ?_⟩
  with_reducible repeat' first
  | exact Keeps.refl _
  | assumption
  | decide
  | refine bankSwitch_keeps ?_ ?_
  | (intro _ _)
  | split
  | dsimp only

theorem bankSwitchTime_keeps {mk : Nat} {sk : State} {s : State} (hk : Keeps mk sk s) (hm : 7569288 &&& mk = 7569288) :
    Keeps mk sk (bankSwitchTime s) := by
  suffices g : Keeps 7569288 s (bankSwitchTime s) from hk.trans (g.weaken hm)
  unfold bankSwitchTime
  with_reducible repeat' first
  | exact Keeps.refl _
  | assumption
  | decide
  | (extract_lets +onlyGivenNames s1; have h1 : Keeps 7569288 s s1 := (by unfold s1; repeat' first | exact Keeps.refl _ | assumption | decide | refine event_keeps ?_ ?_ | refine membershipCheck_keeps ?_ ?_ | refine replayStart_keeps ?_ ?_ | refine switchAnswered_keeps ?_ ?_ | refine twinCheck_keeps ?_ ?_ | refine Keeps.ite ?_ ?_ | (fail_if_no_progress refine Keeps.fab' ?_ _ rfl) | (intro _ _) | split | dsimp only); clear_value s1)
  | (extract_lets +onlyGivenNames x1; clear_value x1)
  | refine event_keeps ?_ ?_
  | refine membershipCheck_keeps ?_ ?_
  | refine replayStart_keeps ?_ ?_
  | refine switchAnswered_keeps ?_ ?_
  | refine twinCheck_keeps ?_ ?_
  | refine Keeps.ite ?_ ?_
  | (fail_if_no_progress refine Keeps.fab' ?_ _ rfl)
  | (intro _ _)
  | split
  | dsimp only

theorem execBankSwitchTime_keeps {mk : Nat} {sk : State} {s : State} (hk : Keeps mk sk s) (hm : 7569288 &&& mk = 7569288) :
    ∃ t', execBankSwitchTime s = .next t' ∧ Keeps mk sk t' := by
  suffices g : ∃ t', execBankSwitchTime s = .next t' ∧ Keeps 7569288 s t' from g.imp fun _ h => ⟨h.1, hk.trans (h.2.weaken hm)⟩
  refine ⟨_, rfl, ?_⟩
  with_reducible repeat' first
  | exact Keeps.refl _
  | assumption
  | decide
  | refine bankSwitchTime_keeps ?_ ?_
  | (intro _ _)
  | split
  | dsimp only

theorem fabricCtlHeartbeatSend_keeps {mk : Nat} {sk : State} {s : State} (hk : Keeps mk sk s) (hm : 7368576 &&& mk = 7368576) :
    Keeps mk sk (fabricCtlHeartbeatSend s) := by
  suffices g : Keeps 7368576 s (fabricCtlHeartbeatSend s) from hk.trans (g.weaken hm)
  unfold fabricCtlHeartbeatSend
  with_reducible repeat' first
  | exact Keeps.refl _
  | assumption
  | decide
  | refine ctlToMaster_keeps ?_ ?_
  | refine Keeps.ite ?_ ?_
  | (fail_if_no_progress refine Keeps.fab' ?_ _ rfl)
  | (intro _ _)
  | split
  | dsimp only

theorem execFabricCtlHeartbeatSend_keeps {mk : Nat} {sk : State} {s : State} (hk : Keeps mk sk s) (hm : 7368576 &&& mk = 7368576) :
    ∃ t', execFabricCtlHeartbeatSend s = .next t' ∧ Keeps mk sk t' := by
  suffices g : ∃ t', execFabricCtlHeartbeatSend s = .next t' ∧ Keeps 7368576 s t' from g.imp fun _ h => ⟨h.1, hk.trans (h.2.weaken hm)⟩
  refine ⟨_, rfl, ?_⟩
  with_reducible repeat' first
  | exact Keeps.refl _
  | assumption
  | decide
  | refine fabricCtlHeartbeatSend_keeps ?_ ?_
  | (intro _ _)
  | split
  | dsimp only

theorem admitPartition_keeps {mk : Nat} {sk : State} {s : State} (hk : Keeps mk sk s) (hm : 7368576 &&& mk = 7368576) :
    Keeps mk sk (admitPartition s) := by
  suffices g : Keeps 7368576 s (admitPartition s) from hk.trans (g.weaken hm)
  unfold admitPartition
  with_reducible repeat' first
  | exact Keeps.refl _
  | assumption
  | decide
  | (extract_lets +onlyGivenNames q1; have hq1 : Keeps 7368576 s q1.1 := (by unfold q1; repeat' first | exact Keeps.refl _ | assumption | decide | refine ctlCommand_keeps ?_ ?_ (fun u a hu => ?_) | refine ctlRespond_keeps ?_ ?_ | (fail_if_no_progress refine Keeps.fab' ?_ _ rfl) | (intro _ _) | split | dsimp only); clear_value q1)
  | (extract_lets +onlyGivenNames s1; have h1 : Keeps 7368576 s s1 := (by unfold s1; repeat' first | exact Keeps.refl _ | assumption | decide | refine ctlCommand_keeps ?_ ?_ (fun u a hu => ?_) | refine ctlRespond_keeps ?_ ?_ | (fail_if_no_progress refine Keeps.fab' ?_ _ rfl) | (intro _ _) | split | dsimp only); clear_value s1)
  | (extract_lets +onlyGivenNames x1; clear_value x1)
  | refine ctlCommand_keeps ?_ ?_ (fun u a hu => ?_)
  | refine ctlRespond_keeps ?_ ?_
  | (fail_if_no_progress refine Keeps.fab' ?_ _ rfl)
  | (intro _ _)
  | split
  | dsimp only

theorem execAdmitPartition_keeps {mk : Nat} {sk : State} {s : State} (hk : Keeps mk sk s) (hm : 7368576 &&& mk = 7368576) :
    ∃ t', execAdmitPartition s = .next t' ∧ Keeps mk sk t' := by
  suffices g : ∃ t', execAdmitPartition s = .next t' ∧ Keeps 7368576 s t' from g.imp fun _ h => ⟨h.1, hk.trans (h.2.weaken hm)⟩
  refine ⟨_, rfl, ?_⟩
  with_reducible repeat' first
  | exact Keeps.refl _
  | assumption
  | decide
  | refine admitPartition_keeps ?_ ?_
  | (intro _ _)
  | split
  | dsimp only

theorem sendFenceNotices_keeps {mk : Nat} {sk : State} {s : State} {term : Nat} {cause : Nat} (hk : Keeps mk sk s) (hm : 7365504 &&& mk = 7365504) :
    Keeps mk sk (sendFenceNotices s term cause) := by
  suffices g : Keeps 7365504 s (sendFenceNotices s term cause) from hk.trans (g.weaken hm)
  unfold sendFenceNotices
  with_reducible repeat' first
  | exact Keeps.refl _
  | assumption
  | decide
  | (extract_lets +onlyGivenNames s1; have h1 : Keeps 7365504 s s1 := (by unfold s1; repeat' first | exact Keeps.refl _ | assumption | decide | refine ctlAlong_keeps ?_ ?_ | refine Keeps.foldl ?_ _ (fun u a hu => ?_) | refine Keeps.foldlFst ?_ _ (fun u a hu => ?_) | (intro _ _) | split | dsimp only); clear_value s1)
  | (extract_lets +onlyGivenNames x1; clear_value x1)
  | refine ctlAlong_keeps ?_ ?_
  | refine Keeps.foldl ?_ _ (fun u a hu => ?_)
  | refine Keeps.foldlFst ?_ _ (fun u a hu => ?_)
  | (intro _ _)
  | split
  | dsimp only

theorem fenceNotice_keeps {mk : Nat} {sk : State} {s : State} (hk : Keeps mk sk s) (hm : 7434120 &&& mk = 7434120) :
    Keeps mk sk (fenceNotice s) := by
  suffices g : Keeps 7434120 s (fenceNotice s) from hk.trans (g.weaken hm)
  unfold fenceNotice
  with_reducible repeat' first
  | exact Keeps.refl _
  | assumption
  | decide
  | (extract_lets +onlyGivenNames q1; have hq1 : Keeps 7434120 s q1.1 := (by unfold q1; repeat' first | exact Keeps.refl _ | assumption | decide | refine ctlCommand_keeps ?_ ?_ (fun u a hu => ?_) | refine fencedEntry_keeps ?_ ?_ | refine noteTerm_keeps ?_ ?_ | refine sendFenceNotices_keeps ?_ ?_ | refine Keeps.ite ?_ ?_ | (intro _ _) | split | dsimp only); clear_value q1)
  | (extract_lets +onlyGivenNames s1; have h1 : Keeps 7434120 s s1 := (by unfold s1; repeat' first | exact Keeps.refl _ | assumption | decide | refine ctlCommand_keeps ?_ ?_ (fun u a hu => ?_) | refine fencedEntry_keeps ?_ ?_ | refine noteTerm_keeps ?_ ?_ | refine sendFenceNotices_keeps ?_ ?_ | refine Keeps.ite ?_ ?_ | (intro _ _) | split | dsimp only); clear_value s1)
  | (extract_lets +onlyGivenNames x1; clear_value x1)
  | refine ctlCommand_keeps ?_ ?_ (fun u a hu => ?_)
  | refine fencedEntry_keeps ?_ ?_
  | refine noteTerm_keeps ?_ ?_
  | refine sendFenceNotices_keeps ?_ ?_
  | refine Keeps.ite ?_ ?_
  | (intro _ _)
  | split
  | dsimp only

theorem execFenceNotice_keeps {mk : Nat} {sk : State} {s : State} (hk : Keeps mk sk s) (hm : 7434120 &&& mk = 7434120) :
    ∃ t', execFenceNotice s = .next t' ∧ Keeps mk sk t' := by
  suffices g : ∃ t', execFenceNotice s = .next t' ∧ Keeps 7434120 s t' from g.imp fun _ h => ⟨h.1, hk.trans (h.2.weaken hm)⟩
  refine ⟨_, rfl, ?_⟩
  with_reducible repeat' first
  | exact Keeps.refl _
  | assumption
  | decide
  | refine fenceNotice_keeps ?_ ?_
  | (intro _ _)
  | split
  | dsimp only

theorem resyncBegin_keeps {mk : Nat} {sk : State} {s : State} (hk : Keeps mk sk s) (hm : 7434121 &&& mk = 7434121) :
    Keeps mk sk (resyncBegin s) := by
  suffices g : Keeps 7434121 s (resyncBegin s) from hk.trans (g.weaken hm)
  unfold resyncBegin
  with_reducible repeat' first
  | exact Keeps.refl _
  | assumption
  | decide
  | (extract_lets +onlyGivenNames q1; have hq1 : Keeps 7434121 s q1.1 := (by unfold q1; repeat' first | exact Keeps.refl _ | assumption | decide | refine ctlCommand_keeps ?_ ?_ (fun u a hu => ?_) | refine ctlRespond_keeps ?_ ?_ | refine event_keeps ?_ ?_ | refine fencedEntry_keeps ?_ ?_ | refine Keeps.ite ?_ ?_ | (fail_if_no_progress refine Keeps.ft' ?_ _ rfl) | (fail_if_no_progress refine Keeps.fab' ?_ _ rfl) | (fail_if_no_progress (refine Keeps.several ?_ (by refine ⟨?_, ?_, ?_, ?_, ?_, ?_, ?_, ?_, ?_, ?_, ?_, ?_, ?_, ?_, ?_, ?_, ?_, ?_, ?_, ?_⟩ <;> first | exact Or.inl rfl | exact Or.inr rfl))) | (intro _ _) | split | dsimp only); clear_value q1)
  | (extract_lets +onlyGivenNames s1; have h1 : Keeps 7434121 s s1 := (by unfold s1; repeat' first | exact Keeps.refl _ | assumption | decide | refine ctlCommand_keeps ?_ ?_ (fun u a hu => ?_) | refine ctlRespond_keeps ?_ ?_ | refine event_keeps ?_ ?_ | refine fencedEntry_keeps ?_ ?_ | refine Keeps.ite ?_ ?_ | (fail_if_no_progress refine Keeps.ft' ?_ _ rfl) | (fail_if_no_progress refine Keeps.fab' ?_ _ rfl) | (fail_if_no_progress (refine Keeps.several ?_ (by refine ⟨?_, ?_, ?_, ?_, ?_, ?_, ?_, ?_, ?_, ?_, ?_, ?_, ?_, ?_, ?_, ?_, ?_, ?_, ?_, ?_⟩ <;> first | exact Or.inl rfl | exact Or.inr rfl))) | (intro _ _) | split | dsimp only); clear_value s1)
  | (extract_lets +onlyGivenNames x1; clear_value x1)
  | refine ctlCommand_keeps ?_ ?_ (fun u a hu => ?_)
  | refine ctlRespond_keeps ?_ ?_
  | refine event_keeps ?_ ?_
  | refine fencedEntry_keeps ?_ ?_
  | refine Keeps.ite ?_ ?_
  | (fail_if_no_progress refine Keeps.ft' ?_ _ rfl)
  | (fail_if_no_progress refine Keeps.fab' ?_ _ rfl)
  | (fail_if_no_progress (refine Keeps.several ?_ (by refine ⟨?_, ?_, ?_, ?_, ?_, ?_, ?_, ?_, ?_, ?_, ?_, ?_, ?_, ?_, ?_, ?_, ?_, ?_, ?_, ?_⟩ <;> first | exact Or.inl rfl | exact Or.inr rfl)))
  | (intro _ _)
  | split
  | dsimp only

theorem execResyncBegin_keeps {mk : Nat} {sk : State} {s : State} (hk : Keeps mk sk s) (hm : 7434121 &&& mk = 7434121) :
    ∃ t', execResyncBegin s = .next t' ∧ Keeps mk sk t' := by
  suffices g : ∃ t', execResyncBegin s = .next t' ∧ Keeps 7434121 s t' from g.imp fun _ h => ⟨h.1, hk.trans (h.2.weaken hm)⟩
  refine ⟨_, rfl, ?_⟩
  with_reducible repeat' first
  | exact Keeps.refl _
  | assumption
  | decide
  | refine resyncBegin_keeps ?_ ?_
  | (intro _ _)
  | split
  | dsimp only

theorem resyncEnd_keeps {mk : Nat} {sk : State} {s : State} (hk : Keeps mk sk s) (hm : 7434120 &&& mk = 7434120) :
    Keeps mk sk (resyncEnd s) := by
  suffices g : Keeps 7434120 s (resyncEnd s) from hk.trans (g.weaken hm)
  unfold resyncEnd
  with_reducible repeat' first
  | exact Keeps.refl _
  | assumption
  | decide
  | refine ctlCommand_keeps ?_ ?_ (fun u a hu => ?_)
  | refine ctlRespond_keeps ?_ ?_
  | refine fencedExit_keeps ?_ ?_
  | refine Keeps.ite ?_ ?_
  | (intro _ _)
  | split
  | dsimp only

theorem execResyncEnd_keeps {mk : Nat} {sk : State} {s : State} (hk : Keeps mk sk s) (hm : 7434120 &&& mk = 7434120) :
    ∃ t', execResyncEnd s = .next t' ∧ Keeps mk sk t' := by
  suffices g : ∃ t', execResyncEnd s = .next t' ∧ Keeps 7434120 s t' from g.imp fun _ h => ⟨h.1, hk.trans (h.2.weaken hm)⟩
  refine ⟨_, rfl, ?_⟩
  with_reducible repeat' first
  | exact Keeps.refl _
  | assumption
  | decide
  | refine resyncEnd_keeps ?_ ?_
  | (intro _ _)
  | split
  | dsimp only

theorem admissionTimeout_keeps {mk : Nat} {sk : State} {s : State} (hk : Keeps mk sk s) (hm : 7365632 &&& mk = 7365632) :
    Keeps mk sk (admissionTimeout s) := by
  suffices g : Keeps 7365632 s (admissionTimeout s) from hk.trans (g.weaken hm)
  unfold admissionTimeout
  with_reducible repeat' first
  | exact Keeps.refl _
  | assumption
  | decide
  | refine event_keeps ?_ ?_
  | refine Keeps.ite ?_ ?_
  | (fail_if_no_progress refine Keeps.fab' ?_ _ rfl)
  | (intro _ _)
  | split
  | dsimp only

theorem execAdmissionTimeout_keeps {mk : Nat} {sk : State} {s : State} (hk : Keeps mk sk s) (hm : 7365632 &&& mk = 7365632) :
    ∃ t', execAdmissionTimeout s = .next t' ∧ Keeps mk sk t' := by
  suffices g : ∃ t', execAdmissionTimeout s = .next t' ∧ Keeps 7365632 s t' from g.imp fun _ h => ⟨h.1, hk.trans (h.2.weaken hm)⟩
  refine ⟨_, rfl, ?_⟩
  with_reducible repeat' first
  | exact Keeps.refl _
  | assumption
  | decide
  | refine admissionTimeout_keeps ?_ ?_
  | (intro _ _)
  | split
  | dsimp only

/-! ### Master -/

theorem admitSet_keeps {mk : Nat} {sk : State}  {s : State} {k : Nat} {ms : List Nat} (hk : Keeps mk sk s) (hm : 7364608 &&& mk = 7364608) :
    Keeps mk sk (admitSet s k ms).1 := by
  have aux : ∀ (k : Nat) (ms : List Nat) (u t : State), Keeps 7364608 u t → Keeps 7364608 u (admitSet t k ms).1 := by
    intro k
    induction k with
    | zero => intro ms u t h0; unfold admitSet; exact h0
    | succ n ih =>
      intro ms u t h0
      unfold admitSet
      with_reducible repeat' first
        | with_reducible exact Keeps.refl _
        | with_reducible assumption
        | decide
        | (extract_lets +onlyGivenNames q1; have hq1 : Keeps 7364608 u q1.1 := (by unfold q1; repeat' first | with_reducible exact Keeps.refl _ | with_reducible assumption | decide | with_reducible refine ih _ _ _ ?_ | refine event_keeps ?_ ?_ | refine Keeps.ite ?_ ?_ | (with_reducible refine Keeps.iteFst ?_ ?_) | (intro _ _) | split | dsimp only); clear_value q1)
        | (extract_lets +onlyGivenNames s1; have h1 : Keeps 7364608 u s1 := (by unfold s1; repeat' first | with_reducible exact Keeps.refl _ | with_reducible assumption | decide | with_reducible refine ih _ _ _ ?_ | refine event_keeps ?_ ?_ | refine Keeps.ite ?_ ?_ | (with_reducible refine Keeps.iteFst ?_ ?_) | (intro _ _) | split | dsimp only); clear_value s1)
        | (extract_lets +onlyGivenNames x1; clear_value x1)
        | with_reducible refine ih _ _ _ ?_
        | refine event_keeps ?_ ?_
        | refine Keeps.ite ?_ ?_
        | (with_reducible refine Keeps.iteFst ?_ ?_)
        | (intro _ _)
        | split
        | dsimp only
  exact hk.trans ((aux k ms s s (Keeps.refl s)).weaken hm)

theorem ctlRequest_keeps {mk : Nat} {sk : State} {s : State} {mid : Option Nat} {path : List Nat} {code : Nat} {content : List Byte} (hk : Keeps mk sk s) (hm : 7368576 &&& mk = 7368576) :
    Keeps mk sk (ctlRequest s mid path code content) := by
  suffices g : Keeps 7368576 s (ctlRequest s mid path code content) from hk.trans (g.weaken hm)
  unfold ctlRequest
  with_reducible repeat' first
  | exact Keeps.refl _
  | assumption
  | decide
  | (extract_lets +onlyGivenNames s1; have h1 : Keeps 7368576 s s1 := (by unfold s1; repeat' first | exact Keeps.refl _ | assumption | decide | refine ctlAlong_keeps ?_ ?_ | refine ctlOn_keeps ?_ ?_ | refine Keeps.ite ?_ ?_ | (fail_if_no_progress refine Keeps.fab' ?_ _ rfl) | (intro _ _) | split | dsimp only); clear_value s1)
  | (extract_lets +onlyGivenNames x1; clear_value x1)
  | refine ctlAlong_keeps ?_ ?_
  | refine ctlOn_keeps ?_ ?_
  | refine Keeps.ite ?_ ?_
  | (fail_if_no_progress refine Keeps.fab' ?_ _ rfl)
  | (intro _ _)
  | split
  | dsimp only

theorem toMember_keeps {mk : Nat} {sk : State} {s : State} {mid : Nat} {code : Nat} {content : List Byte} (hk : Keeps mk sk s) (hm : 7368576 &&& mk = 7368576) :
    Keeps mk sk (toMember s mid code content) := by
  suffices g : Keeps 7368576 s (toMember s mid code content) from hk.trans (g.weaken hm)
  unfold toMember
  with_reducible repeat' first
  | exact Keeps.refl _
  | assumption
  | decide
  | refine ctlRequest_keeps ?_ ?_
  | (intro _ _)
  | split
  | dsimp only

theorem recomputeDue_keeps {mk : Nat} {sk : State} {s : State} (hk : Keeps mk sk s) (hm : 1024 &&& mk = 1024) :
    Keeps mk sk (recomputeDue s) := by
  suffices g : Keeps 1024 s (recomputeDue s) from hk.trans (g.weaken hm)
  unfold recomputeDue
  with_reducible repeat' first
  | exact Keeps.refl _
  | assumption
  | decide
  | (fail_if_no_progress refine Keeps.fab' ?_ _ rfl)
  | (intro _ _)
  | split
  | dsimp only

theorem midRefused_keeps {mk : Nat} {sk : State} {s : State} {m : Nat} {port : Nat} {path : List Nat} (hk : Keeps mk sk s) (hm : 7368576 &&& mk = 7368576) :
    Keeps mk sk (midRefused s m port path) := by
  suffices g : Keeps 7368576 s (midRefused s m port path) from hk.trans (g.weaken hm)
  unfold midRefused
  with_reducible repeat' first
  | exact Keeps.refl _
  | assumption
  | decide
  | (extract_lets +onlyGivenNames s1; have h1 : Keeps 7368576 s s1 := (by unfold s1; repeat' first | exact Keeps.refl _ | assumption | decide | refine ctlRequest_keeps ?_ ?_ | refine event_keeps ?_ ?_ | refine Keeps.ite ?_ ?_ | (fail_if_no_progress refine Keeps.fab' ?_ _ rfl) | (intro _ _) | split | dsimp only); clear_value s1)
  | (extract_lets +onlyGivenNames x1; clear_value x1)
  | refine ctlRequest_keeps ?_ ?_
  | refine event_keeps ?_ ?_
  | refine Keeps.ite ?_ ?_
  | (fail_if_no_progress refine Keeps.fab' ?_ _ rfl)
  | (intro _ _)
  | split
  | dsimp only

theorem oldRequests_keeps {mk : Nat} {sk : State} {s : State} (hk : Keeps mk sk s) (hm : 1024 &&& mk = 1024) :
    Keeps mk sk (oldRequests s) := by
  suffices g : Keeps 1024 s (oldRequests s) from hk.trans (g.weaken hm)
  unfold oldRequests
  with_reducible repeat' first
  | exact Keeps.refl _
  | assumption
  | decide
  | (extract_lets +onlyGivenNames s1; have h1 : Keeps 1024 s s1 := (by unfold s1; repeat' first | exact Keeps.refl _ | assumption | decide | (fail_if_no_progress refine Keeps.fab' ?_ _ rfl) | (intro _ _) | split | dsimp only); clear_value s1)
  | (extract_lets +onlyGivenNames x1; clear_value x1)
  | (fail_if_no_progress refine Keeps.fab' ?_ _ rfl)
  | (intro _ _)
  | split
  | dsimp only

theorem masterDiscovery_keeps {mk : Nat} {sk : State} {s : State} (hk : Keeps mk sk s) (hm : 7368576 &&& mk = 7368576) :
    Keeps mk sk (masterDiscovery s) := by
  suffices g : Keeps 7368576 s (masterDiscovery s) from hk.trans (g.weaken hm)
  unfold masterDiscovery
  with_reducible repeat' first
  | exact Keeps.refl _
  | assumption
  | decide
  | (extract_lets +onlyGivenNames s1; have h1 : Keeps 7368576 s s1 := (by unfold s1; repeat' first | exact Keeps.refl _ | assumption | decide | refine ctlRequest_keeps ?_ ?_ | refine midRefused_keeps ?_ ?_ | refine oldRequests_keeps ?_ ?_ | refine Keeps.ite ?_ ?_ | refine Keeps.iteFst ?_ ?_ | refine Keeps.foldl ?_ _ (fun u a hu => ?_) | refine Keeps.foldlFst ?_ _ (fun u a hu => ?_) | (intro _ _) | split | dsimp only); clear_value s1)
  | (extract_lets +onlyGivenNames x1; clear_value x1)
  | refine ctlRequest_keeps ?_ ?_
  | refine midRefused_keeps ?_ ?_
  | refine oldRequests_keeps ?_ ?_
  | refine Keeps.ite ?_ ?_
  | refine Keeps.iteFst ?_ ?_
  | refine Keeps.foldl ?_ _ (fun u a hu => ?_)
  | refine Keeps.foldlFst ?_ _ (fun u a hu => ?_)
  | (intro _ _)
  | split
  | dsimp only

theorem execMasterDiscovery_keeps {mk : Nat} {sk : State} {s : State} (hk : Keeps mk sk s) (hm : 7368576 &&& mk = 7368576) :
    ∃ t', execMasterDiscovery s = .next t' ∧ Keeps mk sk t' := by
  suffices g : ∃ t', execMasterDiscovery s = .next t' ∧ Keeps 7368576 s t' from g.imp fun _ h => ⟨h.1, hk.trans (h.2.weaken hm)⟩
  refine ⟨_, rfl, ?_⟩
  with_reducible repeat' first
  | exact Keeps.refl _
  | assumption
  | decide
  | refine masterDiscovery_keeps ?_ ?_
  | (intro _ _)
  | split
  | dsimp only

theorem sendResync_keeps {mk : Nat} {sk : State} {s : State} {m : Nat} {path : List Nat} (hk : Keeps mk sk s) (hm : 7368576 &&& mk = 7368576) :
    Keeps mk sk (sendResync s m path) := by
  suffices g : Keeps 7368576 s (sendResync s m path) from hk.trans (g.weaken hm)
  unfold sendResync
  with_reducible repeat' first
  | exact Keeps.refl _
  | assumption
  | decide
  | (extract_lets +onlyGivenNames s1; have h1 : Keeps 7368576 s s1 := (by unfold s1; repeat' first | exact Keeps.refl _ | assumption | decide | refine ctlRequest_keeps ?_ ?_ | (intro _ _) | split | dsimp only); clear_value s1)
  | (extract_lets +onlyGivenNames x1; clear_value x1)
  | refine ctlRequest_keeps ?_ ?_
  | (intro _ _)
  | split
  | dsimp only

theorem listingArrived_keeps {mk : Nat} {sk : State} {s : State} {r : CtlReq} {term : Nat} {c : List Byte} (hk : Keeps mk sk s) (hm : 7368576 &&& mk = 7368576) :
    Keeps mk sk (listingArrived s r term c) := by
  suffices g : Keeps 7368576 s (listingArrived s r term c) from hk.trans (g.weaken hm)
  unfold listingArrived
  with_reducible repeat' first
  | exact Keeps.refl _
  | assumption
  | decide
  | (extract_lets +onlyGivenNames s1; have h1 : Keeps 7368576 s s1 := (by unfold s1; repeat' first | exact Keeps.refl _ | assumption | decide | refine ctlRequest_keeps ?_ ?_ | refine recomputeDue_keeps ?_ ?_ | refine sendResync_keeps ?_ ?_ | refine Keeps.ite ?_ ?_ | (fail_if_no_progress refine Keeps.fab' ?_ _ rfl) | (intro _ _) | split | dsimp only); clear_value s1)
  | (extract_lets +onlyGivenNames x1; clear_value x1)
  | refine ctlRequest_keeps ?_ ?_
  | refine recomputeDue_keeps ?_ ?_
  | refine sendResync_keeps ?_ ?_
  | refine Keeps.ite ?_ ?_
  | (fail_if_no_progress refine Keeps.fab' ?_ _ rfl)
  | (intro _ _)
  | split
  | dsimp only

theorem writeBank_keeps {mk : Nat} {sk : State} {s : State} {t : Tbl (Tbl RouteEntry)} {lv : Tbl Nat} {ep : Nat} {time : Nat} {n : Nat} {u : Nat} (hk : Keeps mk sk s) (hm : 7368576 &&& mk = 7368576) :
    Keeps mk sk (writeBank s t lv ep time n u) := by
  suffices g : Keeps 7368576 s (writeBank s t lv ep time n u) from hk.trans (g.weaken hm)
  unfold writeBank
  with_reducible repeat' first
  | exact Keeps.refl _
  | assumption
  | decide
  | (extract_lets +onlyGivenNames s1; have h1 : Keeps 7368576 s s1 := (by unfold s1; repeat' first | exact Keeps.refl _ | assumption | decide | refine toMember_keeps ?_ ?_ | refine Keeps.ite ?_ ?_ | refine Keeps.foldl ?_ _ (fun u a hu => ?_) | refine Keeps.foldlFst ?_ _ (fun u a hu => ?_) | (fail_if_no_progress refine Keeps.fab' ?_ _ rfl) | (intro _ _) | split | dsimp only); clear_value s1)
  | (extract_lets +onlyGivenNames x1; clear_value x1)
  | refine toMember_keeps ?_ ?_
  | refine Keeps.ite ?_ ?_
  | refine Keeps.foldl ?_ _ (fun u a hu => ?_)
  | refine Keeps.foldlFst ?_ _ (fun u a hu => ?_)
  | (fail_if_no_progress refine Keeps.fab' ?_ _ rfl)
  | (intro _ _)
  | split
  | dsimp only

theorem bondCheck_keeps {mk : Nat} {sk : State} {s : State} {ms : List Nat} (hk : Keeps mk sk s) (hm : 7365632 &&& mk = 7365632) :
    Keeps mk sk (bondCheck s ms) := by
  suffices g : Keeps 7365632 s (bondCheck s ms) from hk.trans (g.weaken hm)
  unfold bondCheck
  with_reducible repeat' first
  | exact Keeps.refl _
  | assumption
  | decide
  | (extract_lets +onlyGivenNames s1; have h1 : Keeps 7365632 s s1 := (by unfold s1; repeat' first | exact Keeps.refl _ | assumption | decide | refine event_keeps ?_ ?_ | refine Keeps.ite ?_ ?_ | refine Keeps.foldl ?_ _ (fun u a hu => ?_) | refine Keeps.foldlFst ?_ _ (fun u a hu => ?_) | (fail_if_no_progress refine Keeps.fab' ?_ _ rfl) | (intro _ _) | split | dsimp only); clear_value s1)
  | (extract_lets +onlyGivenNames x1; clear_value x1)
  | refine event_keeps ?_ ?_
  | refine Keeps.ite ?_ ?_
  | refine Keeps.foldl ?_ _ (fun u a hu => ?_)
  | refine Keeps.foldlFst ?_ _ (fun u a hu => ?_)
  | (fail_if_no_progress refine Keeps.fab' ?_ _ rfl)
  | (intro _ _)
  | split
  | dsimp only

theorem tableRecompute_keeps {mk : Nat} {sk : State} {s : State} (hk : Keeps mk sk s) (hm : 7368576 &&& mk = 7368576) :
    Keeps mk sk (tableRecompute s) := by
  suffices g : Keeps 7368576 s (tableRecompute s) from hk.trans (g.weaken hm)
  unfold tableRecompute
  with_reducible repeat' first
  | exact Keeps.refl _
  | assumption
  | decide
  | (extract_lets +onlyGivenNames q1; have hq1 : Keeps 7368576 s q1.1 := (by unfold q1; repeat' first | exact Keeps.refl _ | assumption | decide | refine admitSet_keeps ?_ ?_ | refine bondCheck_keeps ?_ ?_ | refine writeBank_keeps ?_ ?_ | refine Keeps.ite ?_ ?_ | refine Keeps.iteFst ?_ ?_ | refine Keeps.foldl ?_ _ (fun u a hu => ?_) | refine Keeps.foldlFst ?_ _ (fun u a hu => ?_) | refine Keeps.ofPair (by assumption) ?_ | (fail_if_no_progress refine Keeps.fab' ?_ _ rfl) | (intro _ _) | split | dsimp only); clear_value q1)
  | (extract_lets +onlyGivenNames s1; have h1 : Keeps 7368576 s s1 := (by unfold s1; repeat' first | exact Keeps.refl _ | assumption | decide | refine admitSet_keeps ?_ ?_ | refine bondCheck_keeps ?_ ?_ | refine writeBank_keeps ?_ ?_ | refine Keeps.ite ?_ ?_ | refine Keeps.iteFst ?_ ?_ | refine Keeps.foldl ?_ _ (fun u a hu => ?_) | refine Keeps.foldlFst ?_ _ (fun u a hu => ?_) | refine Keeps.ofPair (by assumption) ?_ | (fail_if_no_progress refine Keeps.fab' ?_ _ rfl) | (intro _ _) | split | dsimp only); clear_value s1)
  | (extract_lets +onlyGivenNames x1; clear_value x1)
  | refine admitSet_keeps ?_ ?_
  | refine bondCheck_keeps ?_ ?_
  | refine writeBank_keeps ?_ ?_
  | refine Keeps.ite ?_ ?_
  | refine Keeps.iteFst ?_ ?_
  | refine Keeps.foldl ?_ _ (fun u a hu => ?_)
  | refine Keeps.foldlFst ?_ _ (fun u a hu => ?_)
  | refine Keeps.ofPair (by assumption) ?_
  | (fail_if_no_progress refine Keeps.fab' ?_ _ rfl)
  | (intro _ _)
  | split
  | dsimp only

theorem execTableRecompute_keeps {mk : Nat} {sk : State} {s : State} (hk : Keeps mk sk s) (hm : 7368576 &&& mk = 7368576) :
    ∃ t', execTableRecompute s = .next t' ∧ Keeps mk sk t' := by
  suffices g : ∃ t', execTableRecompute s = .next t' ∧ Keeps 7368576 s t' from g.imp fun _ h => ⟨h.1, hk.trans (h.2.weaken hm)⟩
  refine ⟨_, rfl, ?_⟩
  with_reducible repeat' first
  | exact Keeps.refl _
  | assumption
  | decide
  | refine tableRecompute_keeps ?_ ?_
  | (intro _ _)
  | split
  | dsimp only

theorem resendBank_keeps {mk : Nat} {sk : State} {s : State} {u : Nat} (hk : Keeps mk sk s) (hm : 7368576 &&& mk = 7368576) :
    Keeps mk sk (resendBank s u) := by
  suffices g : Keeps 7368576 s (resendBank s u) from hk.trans (g.weaken hm)
  unfold resendBank
  with_reducible repeat' first
  | exact Keeps.refl _
  | assumption
  | decide
  | (extract_lets +onlyGivenNames q1; have hq1 : Keeps 7368576 s q1.1 := (by unfold q1; repeat' first | exact Keeps.refl _ | assumption | decide | refine admitSet_keeps ?_ ?_ | refine writeBank_keeps ?_ ?_ | (intro _ _) | split | dsimp only); clear_value q1)
  | (extract_lets +onlyGivenNames s1; have h1 : Keeps 7368576 s s1 := (by unfold s1; repeat' first | exact Keeps.refl _ | assumption | decide | refine admitSet_keeps ?_ ?_ | refine writeBank_keeps ?_ ?_ | (intro _ _) | split | dsimp only); clear_value s1)
  | (extract_lets +onlyGivenNames x1; clear_value x1)
  | refine admitSet_keeps ?_ ?_
  | refine writeBank_keeps ?_ ?_
  | (intro _ _)
  | split
  | dsimp only

theorem sendAdmission_keeps {mk : Nat} {sk : State} {s : State} {u : Nat} {a : AdmittedVs} (hk : Keeps mk sk s) (hm : 7368576 &&& mk = 7368576) :
    Keeps mk sk (sendAdmission s u a) := by
  suffices g : Keeps 7368576 s (sendAdmission s u a) from hk.trans (g.weaken hm)
  unfold sendAdmission
  with_reducible repeat' first
  | exact Keeps.refl _
  | assumption
  | decide
  | refine toMember_keeps ?_ ?_
  | refine Keeps.ite ?_ ?_
  | (fail_if_no_progress refine Keeps.fab' ?_ _ rfl)
  | (intro _ _)
  | split
  | dsimp only

theorem admissionsTo_keeps {mk : Nat} {sk : State} {s : State} {u : Nat} (hk : Keeps mk sk s) (hm : 7368576 &&& mk = 7368576) :
    Keeps mk sk (admissionsTo s u) := by
  suffices g : Keeps 7368576 s (admissionsTo s u) from hk.trans (g.weaken hm)
  unfold admissionsTo
  with_reducible repeat' first
  | exact Keeps.refl _
  | assumption
  | decide
  | refine sendAdmission_keeps ?_ ?_
  | refine Keeps.foldl ?_ _ (fun u a hu => ?_)
  | refine Keeps.foldlFst ?_ _ (fun u a hu => ?_)
  | (intro _ _)
  | split
  | dsimp only

theorem fabricCtlResponse_keeps {mk : Nat} {sk : State} {s : State} (hk : Keeps mk sk s) (hm : 7368576 &&& mk = 7368576) :
    Keeps mk sk (fabricCtlResponse s) := by
  suffices g : Keeps 7368576 s (fabricCtlResponse s) from hk.trans (g.weaken hm)
  unfold fabricCtlResponse
  with_reducible repeat' first
  | exact Keeps.refl _
  | assumption
  | decide
  | (extract_lets +onlyGivenNames s1; have h1 : Keeps 7368576 s s1 := (by unfold s1; repeat' first | exact Keeps.refl _ | assumption | decide | refine admissionsTo_keeps ?_ ?_ | refine ctlRequest_keeps ?_ ?_ | refine listingArrived_keeps ?_ ?_ | refine recomputeDue_keeps ?_ ?_ | refine resendBank_keeps ?_ ?_ | refine toMember_keeps ?_ ?_ | refine Keeps.ite ?_ ?_ | (fail_if_no_progress refine Keeps.fab' ?_ _ rfl) | (intro _ _) | split | dsimp only); clear_value s1)
  | (extract_lets +onlyGivenNames x1; clear_value x1)
  | refine admissionsTo_keeps ?_ ?_
  | refine ctlRequest_keeps ?_ ?_
  | refine listingArrived_keeps ?_ ?_
  | refine recomputeDue_keeps ?_ ?_
  | refine resendBank_keeps ?_ ?_
  | refine toMember_keeps ?_ ?_
  | refine Keeps.ite ?_ ?_
  | (fail_if_no_progress refine Keeps.fab' ?_ _ rfl)
  | (intro _ _)
  | split
  | dsimp only

theorem execFabricCtlResponse_keeps {mk : Nat} {sk : State} {s : State} (hk : Keeps mk sk s) (hm : 7368576 &&& mk = 7368576) :
    ∃ t', execFabricCtlResponse s = .next t' ∧ Keeps mk sk t' := by
  suffices g : ∃ t', execFabricCtlResponse s = .next t' ∧ Keeps 7368576 s t' from g.imp fun _ h => ⟨h.1, hk.trans (h.2.weaken hm)⟩
  refine ⟨_, rfl, ?_⟩
  with_reducible repeat' first
  | exact Keeps.refl _
  | assumption
  | decide
  | refine fabricCtlResponse_keeps ?_ ?_
  | (intro _ _)
  | split
  | dsimp only

theorem fabricCtlHeartbeatReceive_keeps {mk : Nat} {sk : State} {s : State} (hk : Keeps mk sk s) (hm : 1024 &&& mk = 1024) :
    Keeps mk sk (fabricCtlHeartbeatReceive s) := by
  suffices g : Keeps 1024 s (fabricCtlHeartbeatReceive s) from hk.trans (g.weaken hm)
  unfold fabricCtlHeartbeatReceive
  with_reducible repeat' first
  | exact Keeps.refl _
  | assumption
  | decide
  | refine takeCtl_keeps ?_ ?_ (by assumption)
  | refine Keeps.ite ?_ ?_
  | (fail_if_no_progress refine Keeps.fab' ?_ _ rfl)
  | (intro _ _)
  | split
  | dsimp only

theorem execFabricCtlHeartbeatReceive_keeps {mk : Nat} {sk : State} {s : State} (hk : Keeps mk sk s) (hm : 1024 &&& mk = 1024) :
    ∃ t', execFabricCtlHeartbeatReceive s = .next t' ∧ Keeps mk sk t' := by
  suffices g : ∃ t', execFabricCtlHeartbeatReceive s = .next t' ∧ Keeps 1024 s t' from g.imp fun _ h => ⟨h.1, hk.trans (h.2.weaken hm)⟩
  refine ⟨_, rfl, ?_⟩
  with_reducible repeat' first
  | exact Keeps.refl _
  | assumption
  | decide
  | refine fabricCtlHeartbeatReceive_keeps ?_ ?_
  | (intro _ _)
  | split
  | dsimp only

theorem linkLost_keeps {mk : Nat} {sk : State} {s : State} {u : Nat} {p : Nat} (hk : Keeps mk sk s) (hm : 1024 &&& mk = 1024) :
    Keeps mk sk (linkLost s u p) := by
  suffices g : Keeps 1024 s (linkLost s u p) from hk.trans (g.weaken hm)
  unfold linkLost
  with_reducible repeat' first
  | exact Keeps.refl _
  | assumption
  | decide
  | refine recomputeDue_keeps ?_ ?_
  | refine Keeps.ite ?_ ?_
  | (fail_if_no_progress refine Keeps.fab' ?_ _ rfl)
  | (intro _ _)
  | split
  | dsimp only

theorem importWanted_keeps {mk : Nat} {sk : State} {s : State} {pgid : Nat} {g : Nat} (hk : Keeps mk sk s) (hm : 1024 &&& mk = 1024) :
    Keeps mk sk (importWanted s pgid g) := by
  suffices g : Keeps 1024 s (importWanted s pgid g) from hk.trans (g.weaken hm)
  unfold importWanted
  with_reducible repeat' first
  | exact Keeps.refl _
  | assumption
  | decide
  | (extract_lets +onlyGivenNames s1; have h1 : Keeps 1024 s s1 := (by unfold s1; repeat' first | exact Keeps.refl _ | assumption | decide | refine Keeps.ite ?_ ?_ | refine Keeps.iteFst ?_ ?_ | (fail_if_no_progress refine Keeps.fab' ?_ _ rfl) | (intro _ _) | split | dsimp only); clear_value s1)
  | (extract_lets +onlyGivenNames x1; clear_value x1)
  | refine Keeps.ite ?_ ?_
  | refine Keeps.iteFst ?_ ?_
  | (fail_if_no_progress refine Keeps.fab' ?_ _ rfl)
  | (intro _ _)
  | split
  | dsimp only

theorem memberReportReceive_keeps {mk : Nat} {sk : State} {s : State} (hk : Keeps mk sk s) (hm : 7368576 &&& mk = 7368576) :
    Keeps mk sk (memberReportReceive s) := by
  suffices g : Keeps 7368576 s (memberReportReceive s) from hk.trans (g.weaken hm)
  unfold memberReportReceive
  with_reducible repeat' first
  | exact Keeps.refl _
  | assumption
  | decide
  | (extract_lets +onlyGivenNames q1; have hq1 : Keeps 7368576 s q1.1 := (by unfold q1; repeat' first | exact Keeps.refl _ | assumption | decide | refine ctlRequest_keeps ?_ ?_ | refine importWanted_keeps ?_ ?_ | refine linkLost_keeps ?_ ?_ | refine recomputeDue_keeps ?_ ?_ | refine takeCtl_keeps ?_ ?_ (by assumption) | refine Keeps.ite ?_ ?_ | (fail_if_no_progress refine Keeps.fab' ?_ _ rfl) | (intro _ _) | split | dsimp only); clear_value q1)
  | (extract_lets +onlyGivenNames s1; have h1 : Keeps 7368576 s s1 := (by unfold s1; repeat' first | exact Keeps.refl _ | assumption | decide | refine ctlRequest_keeps ?_ ?_ | refine importWanted_keeps ?_ ?_ | refine linkLost_keeps ?_ ?_ | refine recomputeDue_keeps ?_ ?_ | refine takeCtl_keeps ?_ ?_ (by assumption) | refine Keeps.ite ?_ ?_ | (fail_if_no_progress refine Keeps.fab' ?_ _ rfl) | (intro _ _) | split | dsimp only); clear_value s1)
  | (extract_lets +onlyGivenNames x1; clear_value x1)
  | refine ctlRequest_keeps ?_ ?_
  | refine importWanted_keeps ?_ ?_
  | refine linkLost_keeps ?_ ?_
  | refine recomputeDue_keeps ?_ ?_
  | refine takeCtl_keeps ?_ ?_ (by assumption)
  | refine Keeps.ite ?_ ?_
  | (fail_if_no_progress refine Keeps.fab' ?_ _ rfl)
  | (intro _ _)
  | split
  | dsimp only

theorem execMemberReport_keeps {mk : Nat} {sk : State} {s : State} (hk : Keeps mk sk s) (hm : 7368576 &&& mk = 7368576) :
    ∃ t', execMemberReport s = .next t' ∧ Keeps mk sk t' := by
  suffices g : ∃ t', execMemberReport s = .next t' ∧ Keeps 7368576 s t' from g.imp fun _ h => ⟨h.1, hk.trans (h.2.weaken hm)⟩
  refine ⟨_, rfl, ?_⟩
  with_reducible repeat' first
  | exact Keeps.refl _
  | assumption
  | decide
  | refine memberReportReceive_keeps ?_ ?_
  | (intro _ _)
  | split
  | dsimp only

theorem becomeMaster_keeps {mk : Nat} {sk : State} {s : State} {term : Nat} (hk : Keeps mk sk s) (hm : 7365632 &&& mk = 7365632) :
    Keeps mk sk (becomeMaster s term) := by
  suffices g : Keeps 7365632 s (becomeMaster s term) from hk.trans (g.weaken hm)
  unfold becomeMaster
  with_reducible repeat' first
  | exact Keeps.refl _
  | assumption
  | decide
  | (extract_lets +onlyGivenNames s1; have h1 : Keeps 7365632 s s1 := (by unfold s1; repeat' first | exact Keeps.refl _ | assumption | decide | refine event_keeps ?_ ?_ | (fail_if_no_progress refine Keeps.fab' ?_ _ rfl) | (intro _ _) | split | dsimp only); clear_value s1)
  | (extract_lets +onlyGivenNames x1; clear_value x1)
  | refine event_keeps ?_ ?_
  | (fail_if_no_progress refine Keeps.fab' ?_ _ rfl)
  | (intro _ _)
  | split
  | dsimp only

theorem twinSplit_keeps {mk : Nat} {sk : State} {s : State} (hk : Keeps mk sk s) (hm : 65536 &&& mk = 65536) :
    Keeps mk sk (twinSplit s) := by
  suffices g : Keeps 65536 s (twinSplit s) from hk.trans (g.weaken hm)
  unfold twinSplit
  with_reducible repeat' first
  | exact Keeps.refl _
  | assumption
  | decide
  | refine Keeps.ite ?_ ?_
  | (fail_if_no_progress refine Keeps.twin' ?_ _ rfl)
  | (intro _ _)
  | split
  | dsimp only

theorem timeUnlocked_keeps {mk : Nat} {sk : State} {s : State} (hk : Keeps mk sk s) (hm : 7365632 &&& mk = 7365632) :
    Keeps mk sk (timeUnlocked s) := by
  suffices g : Keeps 7365632 s (timeUnlocked s) from hk.trans (g.weaken hm)
  unfold timeUnlocked
  with_reducible repeat' first
  | exact Keeps.refl _
  | assumption
  | decide
  | refine event_keeps ?_ ?_
  | refine Keeps.ite ?_ ?_
  | (fail_if_no_progress refine Keeps.fab' ?_ _ rfl)
  | (intro _ _)
  | split
  | dsimp only

theorem trySucceed_keeps {mk : Nat} {sk : State} {s : State} (hk : Keeps mk sk s) (hm : 7627776 &&& mk = 7627776) :
    Keeps mk sk (trySucceed s) := by
  suffices g : Keeps 7627776 s (trySucceed s) from hk.trans (g.weaken hm)
  unfold trySucceed
  with_reducible repeat' first
  | exact Keeps.refl _
  | assumption
  | decide
  | refine becomeMaster_keeps ?_ ?_
  | refine sendClaim_keeps ?_ ?_
  | refine Keeps.ite ?_ ?_
  | (fail_if_no_progress refine Keeps.fab' ?_ _ rfl)
  | (intro _ _)
  | split
  | dsimp only

theorem beaconSilence_keeps {mk : Nat} {sk : State} {s : State} (hk : Keeps mk sk s) (hm : 7693312 &&& mk = 7693312) :
    Keeps mk sk (beaconSilence s) := by
  suffices g : Keeps 7693312 s (beaconSilence s) from hk.trans (g.weaken hm)
  unfold beaconSilence
  with_reducible repeat' first
  | exact Keeps.refl _
  | assumption
  | decide
  | (extract_lets +onlyGivenNames s1; have h1 : Keeps 7693312 s s1 := (by unfold s1; repeat' first | exact Keeps.refl _ | assumption | decide | refine event_keeps ?_ ?_ | refine timeUnlocked_keeps ?_ ?_ | refine trySucceed_keeps ?_ ?_ | refine twinSplit_keeps ?_ ?_ | refine Keeps.ite ?_ ?_ | (fail_if_no_progress refine Keeps.fab' ?_ _ rfl) | (intro _ _) | split | dsimp only); clear_value s1)
  | (extract_lets +onlyGivenNames x1; clear_value x1)
  | refine event_keeps ?_ ?_
  | refine timeUnlocked_keeps ?_ ?_
  | refine trySucceed_keeps ?_ ?_
  | refine twinSplit_keeps ?_ ?_
  | refine Keeps.ite ?_ ?_
  | (fail_if_no_progress refine Keeps.fab' ?_ _ rfl)
  | (intro _ _)
  | split
  | dsimp only

theorem execBeaconSilence_keeps {mk : Nat} {sk : State} {s : State} (hk : Keeps mk sk s) (hm : 7693312 &&& mk = 7693312) :
    ∃ t', execBeaconSilence s = .next t' ∧ Keeps mk sk t' := by
  suffices g : ∃ t', execBeaconSilence s = .next t' ∧ Keeps 7693312 s t' from g.imp fun _ h => ⟨h.1, hk.trans (h.2.weaken hm)⟩
  refine ⟨_, rfl, ?_⟩
  with_reducible repeat' first
  | exact Keeps.refl _
  | assumption
  | decide
  | refine beaconSilence_keeps ?_ ?_
  | (intro _ _)
  | split
  | dsimp only

theorem stepsDown_keeps {mk : Nat} {sk : State} {s : State} (hk : Keeps mk sk s) (hm : 7627776 &&& mk = 7627776) :
    Keeps mk sk (stepsDown s) := by
  suffices g : Keeps 7627776 s (stepsDown s) from hk.trans (g.weaken hm)
  unfold stepsDown
  with_reducible repeat' first
  | exact Keeps.refl _
  | assumption
  | decide
  | refine trySucceed_keeps ?_ ?_
  | (fail_if_no_progress refine Keeps.fab' ?_ _ rfl)
  | (intro _ _)
  | split
  | dsimp only

theorem heartbeatSilence_keeps {mk : Nat} {sk : State} {s : State} (hk : Keeps mk sk s) (hm : 7696264 &&& mk = 7696264) :
    Keeps mk sk (heartbeatSilence s) := by
  suffices g : Keeps 7696264 s (heartbeatSilence s) from hk.trans (g.weaken hm)
  unfold heartbeatSilence
  with_reducible repeat' first
  | exact Keeps.refl _
  | assumption
  | decide
  | (extract_lets +onlyGivenNames s1; have h1 : Keeps 7696264 s s1 := (by unfold s1; repeat' first | exact Keeps.refl _ | assumption | decide | refine event_keeps ?_ ?_ | refine fencedEntry_keeps ?_ ?_ | refine recomputeDue_keeps ?_ ?_ | refine stepsDown_keeps ?_ ?_ | refine twinSplit_keeps ?_ ?_ | refine Keeps.ite ?_ ?_ | refine Keeps.iteFst ?_ ?_ | (fail_if_no_progress refine Keeps.fab' ?_ _ rfl) | (intro _ _) | split | dsimp only); clear_value s1)
  | (extract_lets +onlyGivenNames x1; clear_value x1)
  | refine event_keeps ?_ ?_
  | refine fencedEntry_keeps ?_ ?_
  | refine recomputeDue_keeps ?_ ?_
  | refine stepsDown_keeps ?_ ?_
  | refine twinSplit_keeps ?_ ?_
  | refine Keeps.ite ?_ ?_
  | refine Keeps.iteFst ?_ ?_
  | (fail_if_no_progress refine Keeps.fab' ?_ _ rfl)
  | (intro _ _)
  | split
  | dsimp only

theorem execHeartbeatSilence_keeps {mk : Nat} {sk : State} {s : State} (hk : Keeps mk sk s) (hm : 7696264 &&& mk = 7696264) :
    ∃ t', execHeartbeatSilence s = .next t' ∧ Keeps mk sk t' := by
  suffices g : ∃ t', execHeartbeatSilence s = .next t' ∧ Keeps 7696264 s t' from g.imp fun _ h => ⟨h.1, hk.trans (h.2.weaken hm)⟩
  refine ⟨_, rfl, ?_⟩
  with_reducible repeat' first
  | exact Keeps.refl _
  | assumption
  | decide
  | refine heartbeatSilence_keeps ?_ ?_
  | (intro _ _)
  | split
  | dsimp only

theorem leaseFails_keeps {mk : Nat} {sk : State} {s : State} (hk : Keeps mk sk s) (hm : 7365632 &&& mk = 7365632) :
    Keeps mk sk (leaseFails s) := by
  suffices g : Keeps 7365632 s (leaseFails s) from hk.trans (g.weaken hm)
  unfold leaseFails
  with_reducible repeat' first
  | exact Keeps.refl _
  | assumption
  | decide
  | (extract_lets +onlyGivenNames s1; have h1 : Keeps 7365632 s s1 := (by unfold s1; repeat' first | exact Keeps.refl _ | assumption | decide | refine event_keeps ?_ ?_ | refine Keeps.ite ?_ ?_ | (fail_if_no_progress refine Keeps.fab' ?_ _ rfl) | (intro _ _) | split | dsimp only); clear_value s1)
  | (extract_lets +onlyGivenNames x1; clear_value x1)
  | refine event_keeps ?_ ?_
  | refine Keeps.ite ?_ ?_
  | (fail_if_no_progress refine Keeps.fab' ?_ _ rfl)
  | (intro _ _)
  | split
  | dsimp only

theorem leaseRenew_keeps {mk : Nat} {sk : State} {s : State} (hk : Keeps mk sk s) (hm : 7627776 &&& mk = 7627776) :
    Keeps mk sk (leaseRenew s) := by
  suffices g : Keeps 7627776 s (leaseRenew s) from hk.trans (g.weaken hm)
  unfold leaseRenew
  with_reducible repeat' first
  | exact Keeps.refl _
  | assumption
  | decide
  | (extract_lets +onlyGivenNames s1; have h1 : Keeps 7627776 s s1 := (by unfold s1; repeat' first | exact Keeps.refl _ | assumption | decide | refine leaseFails_keeps ?_ ?_ | refine sendLease_keeps ?_ ?_ | refine Keeps.ite ?_ ?_ | (fail_if_no_progress refine Keeps.fab' ?_ _ rfl) | (intro _ _) | split | dsimp only); clear_value s1)
  | (extract_lets +onlyGivenNames x1; clear_value x1)
  | refine leaseFails_keeps ?_ ?_
  | refine sendLease_keeps ?_ ?_
  | refine Keeps.ite ?_ ?_
  | (fail_if_no_progress refine Keeps.fab' ?_ _ rfl)
  | (intro _ _)
  | split
  | dsimp only

theorem execLeaseRenew_keeps {mk : Nat} {sk : State} {s : State} (hk : Keeps mk sk s) (hm : 7627776 &&& mk = 7627776) :
    ∃ t', execLeaseRenew s = .next t' ∧ Keeps mk sk t' := by
  suffices g : ∃ t', execLeaseRenew s = .next t' ∧ Keeps 7627776 s t' from g.imp fun _ h => ⟨h.1, hk.trans (h.2.weaken hm)⟩
  refine ⟨_, rfl, ?_⟩
  with_reducible repeat' first
  | exact Keeps.refl _
  | assumption
  | decide
  | refine leaseRenew_keeps ?_ ?_
  | (intro _ _)
  | split
  | dsimp only


theorem takeMsg_keeps {mk : Nat} {sk : State} {s : State} {typ : Nat} {t' : State} {x' : Msg} (hk : Keeps mk sk s) (hm : 262144 &&& mk = 262144)
    (e : takeMsg s typ = some (t', x')) : Keeps mk sk t' := by
  suffices g : Keeps 262144 s t' from hk.trans (g.weaken hm)
  unfold takeMsg at e
  split at e
  · injection e with e
    injection e with e1 e2
    subst e1
    exact Keeps.mgmt' (Keeps.refl s) _ rfl
  · cases e

theorem leaseResp_keeps {mk : Nat} {sk : State} {s : State} (hk : Keeps mk sk s) (hm : 7693312 &&& mk = 7693312) :
    Keeps mk sk (leaseResp s) := by
  suffices g : Keeps 7693312 s (leaseResp s) from hk.trans (g.weaken hm)
  unfold leaseResp
  with_reducible repeat' first
  | exact Keeps.refl _
  | assumption
  | decide
  | (extract_lets +onlyGivenNames q1; have hq1 : Keeps 7693312 s q1.1 := (by unfold q1; repeat' first | exact Keeps.refl _ | assumption | decide | refine leaseFails_keeps ?_ ?_ | refine takeMsg_keeps ?_ ?_ (by assumption) | refine Keeps.ite ?_ ?_ | (fail_if_no_progress refine Keeps.fab' ?_ _ rfl) | (fail_if_no_progress refine Keeps.twin' ?_ _ rfl) | (fail_if_no_progress (refine Keeps.several ?_ (by refine ⟨?_, ?_, ?_, ?_, ?_, ?_, ?_, ?_, ?_, ?_, ?_, ?_, ?_, ?_, ?_, ?_, ?_, ?_, ?_, ?_⟩ <;> first | exact Or.inl rfl | exact Or.inr rfl))) | (intro _ _) | split | dsimp only); clear_value q1)
  | (extract_lets +onlyGivenNames s1; have h1 : Keeps 7693312 s s1 := (by unfold s1; repeat' first | exact Keeps.refl _ | assumption | decide | refine leaseFails_keeps ?_ ?_ | refine takeMsg_keeps ?_ ?_ (by assumption) | refine Keeps.ite ?_ ?_ | (fail_if_no_progress refine Keeps.fab' ?_ _ rfl) | (fail_if_no_progress refine Keeps.twin' ?_ _ rfl) | (fail_if_no_progress (refine Keeps.several ?_ (by refine ⟨?_, ?_, ?_, ?_, ?_, ?_, ?_, ?_, ?_, ?_, ?_, ?_, ?_, ?_, ?_, ?_, ?_, ?_, ?_, ?_⟩ <;> first | exact Or.inl rfl | exact Or.inr rfl))) | (intro _ _) | split | dsimp only); clear_value s1)
  | (extract_lets +onlyGivenNames x1; clear_value x1)
  | refine leaseFails_keeps ?_ ?_
  | refine takeMsg_keeps ?_ ?_ (by assumption)
  | refine Keeps.ite ?_ ?_
  | (fail_if_no_progress refine Keeps.fab' ?_ _ rfl)
  | (fail_if_no_progress refine Keeps.twin' ?_ _ rfl)
  | (fail_if_no_progress (refine Keeps.several ?_ (by refine ⟨?_, ?_, ?_, ?_, ?_, ?_, ?_, ?_, ?_, ?_, ?_, ?_, ?_, ?_, ?_, ?_, ?_, ?_, ?_, ?_⟩ <;> first | exact Or.inl rfl | exact Or.inr rfl)))
  | (intro _ _)
  | split
  | dsimp only

theorem execLeaseResp_keeps {mk : Nat} {sk : State} {s : State} (hk : Keeps mk sk s) (hm : 7693312 &&& mk = 7693312) :
    ∃ t', execLeaseResp s = .next t' ∧ Keeps mk sk t' := by
  suffices g : ∃ t', execLeaseResp s = .next t' ∧ Keeps 7693312 s t' from g.imp fun _ h => ⟨h.1, hk.trans (h.2.weaken hm)⟩
  refine ⟨_, rfl, ?_⟩
  with_reducible repeat' first
  | exact Keeps.refl _
  | assumption
  | decide
  | refine leaseResp_keeps ?_ ?_
  | (intro _ _)
  | split
  | dsimp only

theorem claimResp_keeps {mk : Nat} {sk : State} {s : State} (hk : Keeps mk sk s) (hm : 7696264 &&& mk = 7696264) :
    Keeps mk sk (claimResp s) := by
  suffices g : Keeps 7696264 s (claimResp s) from hk.trans (g.weaken hm)
  unfold claimResp
  with_reducible repeat' first
  | exact Keeps.refl _
  | assumption
  | decide
  | (extract_lets +onlyGivenNames q1; have hq1 : Keeps 7696264 s q1.1 := (by unfold q1; repeat' first | exact Keeps.refl _ | assumption | decide | refine becomeMaster_keeps ?_ ?_ | refine event_keeps ?_ ?_ | refine fencedEntry_keeps ?_ ?_ | refine noteTerm_keeps ?_ ?_ | refine sendFenceNotices_keeps ?_ ?_ | refine takeMsg_keeps ?_ ?_ (by assumption) | refine Keeps.ite ?_ ?_ | (fail_if_no_progress refine Keeps.fab' ?_ _ rfl) | (fail_if_no_progress refine Keeps.twin' ?_ _ rfl) | (fail_if_no_progress (refine Keeps.several ?_ (by refine ⟨?_, ?_, ?_, ?_, ?_, ?_, ?_, ?_, ?_, ?_, ?_, ?_, ?_, ?_, ?_, ?_, ?_, ?_, ?_, ?_⟩ <;> first | exact Or.inl rfl | exact Or.inr rfl))) | (intro _ _) | split | dsimp only); clear_value q1)
  | (extract_lets +onlyGivenNames s1; have h1 : Keeps 7696264 s s1 := (by unfold s1; repeat' first | exact Keeps.refl _ | assumption | decide | refine becomeMaster_keeps ?_ ?_ | refine event_keeps ?_ ?_ | refine fencedEntry_keeps ?_ ?_ | refine noteTerm_keeps ?_ ?_ | refine sendFenceNotices_keeps ?_ ?_ | refine takeMsg_keeps ?_ ?_ (by assumption) | refine Keeps.ite ?_ ?_ | (fail_if_no_progress refine Keeps.fab' ?_ _ rfl) | (fail_if_no_progress refine Keeps.twin' ?_ _ rfl) | (fail_if_no_progress (refine Keeps.several ?_ (by refine ⟨?_, ?_, ?_, ?_, ?_, ?_, ?_, ?_, ?_, ?_, ?_, ?_, ?_, ?_, ?_, ?_, ?_, ?_, ?_, ?_⟩ <;> first | exact Or.inl rfl | exact Or.inr rfl))) | (intro _ _) | split | dsimp only); clear_value s1)
  | (extract_lets +onlyGivenNames x1; clear_value x1)
  | refine becomeMaster_keeps ?_ ?_
  | refine event_keeps ?_ ?_
  | refine fencedEntry_keeps ?_ ?_
  | refine noteTerm_keeps ?_ ?_
  | refine sendFenceNotices_keeps ?_ ?_
  | refine takeMsg_keeps ?_ ?_ (by assumption)
  | refine Keeps.ite ?_ ?_
  | (fail_if_no_progress refine Keeps.fab' ?_ _ rfl)
  | (fail_if_no_progress refine Keeps.twin' ?_ _ rfl)
  | (fail_if_no_progress (refine Keeps.several ?_ (by refine ⟨?_, ?_, ?_, ?_, ?_, ?_, ?_, ?_, ?_, ?_, ?_, ?_, ?_, ?_, ?_, ?_, ?_, ?_, ?_, ?_⟩ <;> first | exact Or.inl rfl | exact Or.inr rfl)))
  | (intro _ _)
  | split
  | dsimp only

theorem execClaimResp_keeps {mk : Nat} {sk : State} {s : State} (hk : Keeps mk sk s) (hm : 7696264 &&& mk = 7696264) :
    ∃ t', execClaimResp s = .next t' ∧ Keeps mk sk t' := by
  suffices g : ∃ t', execClaimResp s = .next t' ∧ Keeps 7696264 s t' from g.imp fun _ h => ⟨h.1, hk.trans (h.2.weaken hm)⟩
  refine ⟨_, rfl, ?_⟩
  with_reducible repeat' first
  | exact Keeps.refl _
  | assumption
  | decide
  | refine claimResp_keeps ?_ ?_
  | (intro _ _)
  | split
  | dsimp only

theorem witnessUnreachableFence_keeps {mk : Nat} {sk : State} {s : State} (hk : Keeps mk sk s) (hm : 7434120 &&& mk = 7434120) :
    Keeps mk sk (witnessUnreachableFence s) := by
  suffices g : Keeps 7434120 s (witnessUnreachableFence s) from hk.trans (g.weaken hm)
  unfold witnessUnreachableFence
  with_reducible repeat' first
  | exact Keeps.refl _
  | assumption
  | decide
  | (extract_lets +onlyGivenNames s1; have h1 : Keeps 7434120 s s1 := (by unfold s1; repeat' first | exact Keeps.refl _ | assumption | decide | refine event_keeps ?_ ?_ | refine fencedEntry_keeps ?_ ?_ | refine Keeps.ite ?_ ?_ | (intro _ _) | split | dsimp only); clear_value s1)
  | (extract_lets +onlyGivenNames x1; clear_value x1)
  | refine event_keeps ?_ ?_
  | refine fencedEntry_keeps ?_ ?_
  | refine Keeps.ite ?_ ?_
  | (intro _ _)
  | split
  | dsimp only

theorem execWitnessUnreachableFence_keeps {mk : Nat} {sk : State} {s : State} (hk : Keeps mk sk s) (hm : 7434120 &&& mk = 7434120) :
    ∃ t', execWitnessUnreachableFence s = .next t' ∧ Keeps mk sk t' := by
  suffices g : ∃ t', execWitnessUnreachableFence s = .next t' ∧ Keeps 7434120 s t' from g.imp fun _ h => ⟨h.1, hk.trans (h.2.weaken hm)⟩
  refine ⟨_, rfl, ?_⟩
  with_reducible repeat' first
  | exact Keeps.refl _
  | assumption
  | decide
  | refine witnessUnreachableFence_keeps ?_ ?_
  | (intro _ _)
  | split
  | dsimp only

theorem memberFenceDeadline_keeps {mk : Nat} {sk : State} {s : State} (hk : Keeps mk sk s) (hm : 7434120 &&& mk = 7434120) :
    Keeps mk sk (memberFenceDeadline s) := by
  suffices g : Keeps 7434120 s (memberFenceDeadline s) from hk.trans (g.weaken hm)
  unfold memberFenceDeadline
  with_reducible repeat' first
  | exact Keeps.refl _
  | assumption
  | decide
  | refine fencedEntry_keeps ?_ ?_
  | refine Keeps.ite ?_ ?_
  | (intro _ _)
  | split
  | dsimp only

theorem execMemberFenceDeadline_keeps {mk : Nat} {sk : State} {s : State} (hk : Keeps mk sk s) (hm : 7434120 &&& mk = 7434120) :
    ∃ t', execMemberFenceDeadline s = .next t' ∧ Keeps mk sk t' := by
  suffices g : ∃ t', execMemberFenceDeadline s = .next t' ∧ Keeps 7434120 s t' from g.imp fun _ h => ⟨h.1, hk.trans (h.2.weaken hm)⟩
  refine ⟨_, rfl, ?_⟩
  with_reducible repeat' first
  | exact Keeps.refl _
  | assumption
  | decide
  | refine memberFenceDeadline_keeps ?_ ?_
  | (intro _ _)
  | split
  | dsimp only

theorem actMasterForce_keeps {mk : Nat} {sk : State} {s : State} (hk : Keeps mk sk s) (hm : 7434120 &&& mk = 7434120) :
    Keeps mk sk (actMasterForce s) := by
  suffices g : Keeps 7434120 s (actMasterForce s) from hk.trans (g.weaken hm)
  unfold actMasterForce
  with_reducible repeat' first
  | exact Keeps.refl _
  | assumption
  | decide
  | (extract_lets +onlyGivenNames s1; have h1 : Keeps 7434120 s s1 := (by unfold s1; repeat' first | exact Keeps.refl _ | assumption | decide | refine becomeMaster_keeps ?_ ?_ | refine event_keeps ?_ ?_ | refine fencedExit_keeps ?_ ?_ | (intro _ _) | split | dsimp only); clear_value s1)
  | (extract_lets +onlyGivenNames x1; clear_value x1)
  | refine becomeMaster_keeps ?_ ?_
  | refine event_keeps ?_ ?_
  | refine fencedExit_keeps ?_ ?_
  | (intro _ _)
  | split
  | dsimp only

theorem execMasterForce_keeps {mk : Nat} {sk : State} {sess : Nat} {value : Nat} {s : State} (hk : Keeps mk sk s) (hm : 7696264 &&& mk = 7696264) :
    ∃ t', execMasterForce sess value s = .next t' ∧ Keeps mk sk t' := by
  suffices g : ∃ t', execMasterForce sess value s = .next t' ∧ Keeps 7696264 s t' from g.imp fun _ h => ⟨h.1, hk.trans (h.2.weaken hm)⟩
  refine ⟨_, rfl, ?_⟩
  with_reducible repeat' first
  | exact Keeps.refl _
  | assumption
  | decide
  | refine actMasterForce_keeps ?_ ?_
  | refine actWrite_keeps ?_ rfl (fun u hu => ?_) (fun u hu => ?_)
  | refine onOne_keeps ?_ (fun u hu => ?_)
  | refine Keeps.ite ?_ ?_
  | simp only [id_eq]
  | (intro _ _)
  | split
  | dsimp only

theorem adoptionReports_keeps {mk : Nat} {sk : State} {s : State} (hk : Keeps mk sk s) (hm : 7368576 &&& mk = 7368576) :
    Keeps mk sk (adoptionReports s) := by
  suffices g : Keeps 7368576 s (adoptionReports s) from hk.trans (g.weaken hm)
  unfold adoptionReports
  with_reducible repeat' first
  | exact Keeps.refl _
  | assumption
  | decide
  | refine memberReport_keeps ?_ ?_
  | refine Keeps.ite ?_ ?_
  | (fail_if_no_progress refine Keeps.fab' ?_ _ rfl)
  | (intro _ _)
  | split
  | dsimp only

/-! ### Pair -/

theorem mirrorRecordReceive_keeps {mk : Nat} {sk : State} {s : State} (hk : Keeps mk sk s) (hm : 7569288 &&& mk = 7569288) :
    Keeps mk sk (mirrorRecordReceive s) := by
  suffices g : Keeps 7569288 s (mirrorRecordReceive s) from hk.trans (g.weaken hm)
  unfold mirrorRecordReceive
  with_reducible repeat' first
  | exact Keeps.refl _
  | assumption
  | decide
  | (extract_lets +onlyGivenNames s1; have h1 : Keeps 7569288 s s1 := (by unfold s1; repeat' first | exact Keeps.refl _ | assumption | decide | refine takeMirror_keeps ?_ ?_ | refine twinDeclare_keeps ?_ ?_ | refine Keeps.ite ?_ ?_ | (intro _ _) | split | dsimp only); clear_value s1)
  | (extract_lets +onlyGivenNames x1; clear_value x1)
  | refine takeMirror_keeps ?_ ?_
  | refine twinDeclare_keeps ?_ ?_
  | refine Keeps.ite ?_ ?_
  | (intro _ _)
  | split
  | dsimp only

theorem twinSilence_keeps {mk : Nat} {sk : State} {s : State} (hk : Keeps mk sk s) (hm : 7696264 &&& mk = 7696264) :
    Keeps mk sk (twinSilence s) := by
  suffices g : Keeps 7696264 s (twinSilence s) from hk.trans (g.weaken hm)
  unfold twinSilence
  with_reducible repeat' first
  | exact Keeps.refl _
  | assumption
  | decide
  | (extract_lets +onlyGivenNames s1; have h1 : Keeps 7696264 s s1 := (by unfold s1; repeat' first | exact Keeps.refl _ | assumption | decide | refine fencedEntry_keeps ?_ ?_ | refine sendClaim_keeps ?_ ?_ | refine twinSplit_keeps ?_ ?_ | refine Keeps.ite ?_ ?_ | (fail_if_no_progress refine Keeps.fab' ?_ _ rfl) | (intro _ _) | split | dsimp only); clear_value s1)
  | (extract_lets +onlyGivenNames x1; clear_value x1)
  | refine fencedEntry_keeps ?_ ?_
  | refine sendClaim_keeps ?_ ?_
  | refine twinSplit_keeps ?_ ?_
  | refine Keeps.ite ?_ ?_
  | (fail_if_no_progress refine Keeps.fab' ?_ _ rfl)
  | (intro _ _)
  | split
  | dsimp only

theorem execTwinSilence_keeps {mk : Nat} {sk : State} {s : State} (hk : Keeps mk sk s) (hm : 7696264 &&& mk = 7696264) :
    ∃ t', execTwinSilence s = .next t' ∧ Keeps mk sk t' := by
  suffices g : ∃ t', execTwinSilence s = .next t' ∧ Keeps 7696264 s t' from g.imp fun _ h => ⟨h.1, hk.trans (h.2.weaken hm)⟩
  refine ⟨_, rfl, ?_⟩
  with_reducible repeat' first
  | exact Keeps.refl _
  | assumption
  | decide
  | refine twinSilence_keeps ?_ ?_
  | (intro _ _)
  | split
  | dsimp only

theorem twinLostDeclare_keeps {mk : Nat} {sk : State} {s : State} (hk : Keeps mk sk s) (hm : 7569288 &&& mk = 7569288) :
    Keeps mk sk (twinLostDeclare s) := by
  suffices g : Keeps 7569288 s (twinLostDeclare s) from hk.trans (g.weaken hm)
  unfold twinLostDeclare
  with_reducible repeat' first
  | exact Keeps.refl _
  | assumption
  | decide
  | (extract_lets +onlyGivenNames s1; have h1 : Keeps 7569288 s s1 := (by unfold s1; repeat' first | exact Keeps.refl _ | assumption | decide | refine adoptionReports_keeps ?_ ?_ | refine twinDeclare_keeps ?_ ?_ | refine Keeps.ite ?_ ?_ | (intro _ _) | split | dsimp only); clear_value s1)
  | (extract_lets +onlyGivenNames x1; clear_value x1)
  | refine adoptionReports_keeps ?_ ?_
  | refine twinDeclare_keeps ?_ ?_
  | refine Keeps.ite ?_ ?_
  | (intro _ _)
  | split
  | dsimp only

theorem silenceEnds_keeps {mk : Nat} {sk : State} {s : State} (hk : Keeps mk sk s) (hm : 65536 &&& mk = 65536) :
    Keeps mk sk (silenceEnds s) := by
  suffices g : Keeps 65536 s (silenceEnds s) from hk.trans (g.weaken hm)
  unfold silenceEnds
  with_reducible repeat' first
  | exact Keeps.refl _
  | assumption
  | decide
  | refine Keeps.ite ?_ ?_
  | (fail_if_no_progress refine Keeps.twin' ?_ _ rfl)
  | (intro _ _)
  | split
  | dsimp only

theorem treadleOpen_keeps {mk : Nat} {sk : State} {s : State} {c : Nat} {mid : Nat} {tc : Nat} {kind : Nat} {owner : Nat} (hk : Keeps mk sk s) (hm : 7568256 &&& mk = 7568256) :
    Keeps mk sk (treadleOpen s c mid tc kind owner) := by
  suffices g : Keeps 7568256 s (treadleOpen s c mid tc kind owner) from hk.trans (g.weaken hm)
  unfold treadleOpen
  with_reducible repeat' first
  | exact Keeps.refl _
  | assumption
  | decide
  | refine openConn_keeps ?_ ?_
  | refine ownerClose_keeps ?_ ?_
  | refine Keeps.ite ?_ ?_
  | (intro _ _)
  | split
  | dsimp only

theorem openTwin_keeps {mk : Nat} {sk : State} {s : State} (hk : Keeps mk sk s) (hm : 7568256 &&& mk = 7568256) :
    Keeps mk sk (openTwin s) := by
  suffices g : Keeps 7568256 s (openTwin s) from hk.trans (g.weaken hm)
  unfold openTwin
  with_reducible repeat' first
  | exact Keeps.refl _
  | assumption
  | decide
  | refine treadleOpen_keeps ?_ ?_
  | refine Keeps.ite ?_ ?_
  | (intro _ _)
  | split
  | dsimp only

theorem openManagement_keeps {mk : Nat} {sk : State} {s : State} (hk : Keeps mk sk s) (hm : 7568256 &&& mk = 7568256) :
    Keeps mk sk (openManagement s) := by
  suffices g : Keeps 7568256 s (openManagement s) from hk.trans (g.weaken hm)
  unfold openManagement
  with_reducible repeat' first
  | exact Keeps.refl _
  | assumption
  | decide
  | refine treadleOpen_keeps ?_ ?_
  | refine Keeps.ite ?_ ?_
  | (intro _ _)
  | split
  | dsimp only

theorem openTunnels_keeps {mk : Nat} {sk : State} {s : State} (hk : Keeps mk sk s) (hm : 7568256 &&& mk = 7568256) :
    Keeps mk sk (openTunnels s) := by
  suffices g : Keeps 7568256 s (openTunnels s) from hk.trans (g.weaken hm)
  unfold openTunnels
  with_reducible repeat' first
  | exact Keeps.refl _
  | assumption
  | decide
  | refine treadleOpen_keeps ?_ ?_
  | refine Keeps.ite ?_ ?_
  | refine Keeps.foldl ?_ _ (fun u a hu => ?_)
  | refine Keeps.foldlFst ?_ _ (fun u a hu => ?_)
  | (intro _ _)
  | split
  | dsimp only

theorem tellImports_keeps {mk : Nat} {sk : State} {s : State} (hk : Keeps mk sk s) (hm : 7368576 &&& mk = 7368576) :
    Keeps mk sk (tellImports s) := by
  suffices g : Keeps 7368576 s (tellImports s) from hk.trans (g.weaken hm)
  unfold tellImports
  with_reducible repeat' first
  | exact Keeps.refl _
  | assumption
  | decide
  | (extract_lets +onlyGivenNames s1; have h1 : Keeps 7368576 s s1 := (by unfold s1; repeat' first | exact Keeps.refl _ | assumption | decide | refine memberReport_keeps ?_ ?_ | refine Keeps.ite ?_ ?_ | refine Keeps.iteFst ?_ ?_ | refine Keeps.foldl ?_ _ (fun u a hu => ?_) | refine Keeps.foldlFst ?_ _ (fun u a hu => ?_) | (fail_if_no_progress refine Keeps.fab' ?_ _ rfl) | (intro _ _) | split | dsimp only); clear_value s1)
  | (extract_lets +onlyGivenNames x1; clear_value x1)
  | refine memberReport_keeps ?_ ?_
  | refine Keeps.ite ?_ ?_
  | refine Keeps.iteFst ?_ ?_
  | refine Keeps.foldl ?_ _ (fun u a hu => ?_)
  | refine Keeps.foldlFst ?_ _ (fun u a hu => ?_)
  | (fail_if_no_progress refine Keeps.fab' ?_ _ rfl)
  | (intro _ _)
  | split
  | dsimp only

theorem admitWanted_keeps {mk : Nat} {sk : State} {s : State} (hk : Keeps mk sk s) (hm : 7368576 &&& mk = 7368576) :
    Keeps mk sk (admitWanted s) := by
  suffices g : Keeps 7368576 s (admitWanted s) from hk.trans (g.weaken hm)
  unfold admitWanted
  with_reducible repeat' first
  | exact Keeps.refl _
  | assumption
  | decide
  | (extract_lets +onlyGivenNames s1; have h1 : Keeps 7368576 s s1 := (by unfold s1; repeat' first | exact Keeps.refl _ | assumption | decide | refine sendAdmission_keeps ?_ ?_ | refine Keeps.ite ?_ ?_ | refine Keeps.iteFst ?_ ?_ | refine Keeps.foldl ?_ _ (fun u a hu => ?_) | refine Keeps.foldlFst ?_ _ (fun u a hu => ?_) | (fail_if_no_progress refine Keeps.fab' ?_ _ rfl) | (intro _ _) | split | dsimp only); clear_value s1)
  | (extract_lets +onlyGivenNames x1; clear_value x1)
  | refine sendAdmission_keeps ?_ ?_
  | refine Keeps.ite ?_ ?_
  | refine Keeps.iteFst ?_ ?_
  | refine Keeps.foldl ?_ _ (fun u a hu => ?_)
  | refine Keeps.foldlFst ?_ _ (fun u a hu => ?_)
  | (fail_if_no_progress refine Keeps.fab' ?_ _ rfl)
  | (intro _ _)
  | split
  | dsimp only

theorem treadleConns_keeps {mk : Nat} {sk : State} {s : State} (hk : Keeps mk sk s) (hm : 7569280 &&& mk = 7569280) :
    Keeps mk sk (treadleConns s) := by
  suffices g : Keeps 7569280 s (treadleConns s) from hk.trans (g.weaken hm)
  unfold treadleConns
  with_reducible repeat' first
  | exact Keeps.refl _
  | assumption
  | decide
  | refine admitWanted_keeps ?_ ?_
  | refine openManagement_keeps ?_ ?_
  | refine openTunnels_keeps ?_ ?_
  | refine openTwin_keeps ?_ ?_
  | refine tellImports_keeps ?_ ?_
  | refine Keeps.ite ?_ ?_
  | (intro _ _)
  | split
  | dsimp only

theorem forgetCredits_keeps {mk : Nat} {sk : State} {s : State} {p : Nat} (hk : Keeps mk sk s) (hm : 512 &&& mk = 512) :
    Keeps mk sk (forgetCredits s p) := by
  suffices g : Keeps 512 s (forgetCredits s p) from hk.trans (g.weaken hm)
  unfold forgetCredits
  with_reducible repeat' first
  | exact Keeps.refl _
  | assumption
  | decide
  | (extract_lets +onlyGivenNames s1; have h1 : Keeps 512 s s1 := (by unfold s1; repeat' first | exact Keeps.refl _ | assumption | decide | refine Keeps.ite ?_ ?_ | refine Keeps.iteFst ?_ ?_ | (fail_if_no_progress refine Keeps.loom' ?_ _ rfl) | (intro _ _) | split | dsimp only); clear_value s1)
  | (extract_lets +onlyGivenNames x1; clear_value x1)
  | refine Keeps.ite ?_ ?_
  | refine Keeps.iteFst ?_ ?_
  | (fail_if_no_progress refine Keeps.loom' ?_ _ rfl)
  | (intro _ _)
  | split
  | dsimp only

theorem portDowned_keeps {mk : Nat} {sk : State} {s : State} {p : Nat} (hk : Keeps mk sk s) (hm : 7368576 &&& mk = 7368576) :
    Keeps mk sk (portDowned s p) := by
  suffices g : Keeps 7368576 s (portDowned s p) from hk.trans (g.weaken hm)
  unfold portDowned
  with_reducible repeat' first
  | exact Keeps.refl _
  | assumption
  | decide
  | (extract_lets +onlyGivenNames s1; have h1 : Keeps 7368576 s s1 := (by unfold s1; repeat' first | exact Keeps.refl _ | assumption | decide | refine dropQueue_keeps ?_ ?_ | refine forgetCredits_keeps ?_ ?_ | refine pathRemoved_keeps ?_ ?_ | (fail_if_no_progress refine Keeps.fab' ?_ _ rfl) | (fail_if_no_progress refine Keeps.shu' ?_ _ rfl) | (fail_if_no_progress (refine Keeps.several ?_ (by refine ⟨?_, ?_, ?_, ?_, ?_, ?_, ?_, ?_, ?_, ?_, ?_, ?_, ?_, ?_, ?_, ?_, ?_, ?_, ?_, ?_⟩ <;> first | exact Or.inl rfl | exact Or.inr rfl))) | (intro _ _) | split | dsimp only); clear_value s1)
  | (extract_lets +onlyGivenNames x1; clear_value x1)
  | refine dropQueue_keeps ?_ ?_
  | refine forgetCredits_keeps ?_ ?_
  | refine pathRemoved_keeps ?_ ?_
  | (fail_if_no_progress refine Keeps.fab' ?_ _ rfl)
  | (fail_if_no_progress refine Keeps.shu' ?_ _ rfl)
  | (fail_if_no_progress (refine Keeps.several ?_ (by refine ⟨?_, ?_, ?_, ?_, ?_, ?_, ?_, ?_, ?_, ?_, ?_, ?_, ?_, ?_, ?_, ?_, ?_, ?_, ?_, ?_⟩ <;> first | exact Or.inl rfl | exact Or.inr rfl)))
  | (intro _ _)
  | split
  | dsimp only

theorem weftClassified_keeps {mk : Nat} {sk : State} {s : State} {e : Nat × Nat} (hk : Keeps mk sk s) (hm : 7397632 &&& mk = 7397632) :
    Keeps mk sk (weftClassified s e) := by
  suffices g : Keeps 7397632 s (weftClassified s e) from hk.trans (g.weaken hm)
  unfold weftClassified
  with_reducible repeat' first
  | exact Keeps.refl _
  | assumption
  | decide
  | refine selContained_keeps ?_ ?_
  | refine selCorrectable_keeps ?_ ?_
  | refine Keeps.ite ?_ ?_
  | refine Keeps.iteFst ?_ ?_
  | (intro _ _)
  | split
  | dsimp only

theorem relayCounted_keeps {mk : Nat} {sk : State} {s : State} {d : Nat} {o : WireOp} {n : Nat} (hk : Keeps mk sk s) (hm : 1048576 &&& mk = 1048576) :
    Keeps mk sk (relayCounted s d o n) := by
  suffices g : Keeps 1048576 s (relayCounted s d o n) from hk.trans (g.weaken hm)
  unfold relayCounted
  with_reducible repeat' first
  | exact Keeps.refl _
  | assumption
  | decide
  | (extract_lets +onlyGivenNames s1; have h1 : Keeps 1048576 s s1 := (by unfold s1; repeat' first | exact Keeps.refl _ | assumption | decide | refine count_keeps ?_ ?_ | refine filterItem_keeps ?_ ?_ | (intro _ _) | split | dsimp only); clear_value s1)
  | (extract_lets +onlyGivenNames x1; clear_value x1)
  | refine count_keeps ?_ ?_
  | refine filterItem_keeps ?_ ?_
  | (intro _ _)
  | split
  | dsimp only

theorem weftArrival_keeps {mk : Nat} {sk : State} {s : State} {a : Arrival} (hk : Keeps mk sk s) (hm : 7368576 &&& mk = 7368576) :
    Keeps mk sk (weftArrival s a) := by
  suffices g : Keeps 7368576 s (weftArrival s a) from hk.trans (g.weaken hm)
  unfold weftArrival
  with_reducible repeat' first
  | exact Keeps.refl _
  | assumption
  | decide
  | (extract_lets +onlyGivenNames q1; have hq1 : Keeps 7368576 s q1.1 := (by unfold q1; repeat' first | exact Keeps.refl _ | assumption | decide | refine arrivalCounted_keeps ?_ ?_ | refine fabricArrive_keeps ?_ ?_ | refine freeChain_keeps ?_ ?_ | refine relayCounted_keeps ?_ ?_ | refine weftRelease_keeps ?_ ?_ | (intro _ _) | split | dsimp only | refine hf1 _ ?_ | refine hf2 _ ?_ | refine hf3 _ ?_); clear_value q1)
  | (extract_lets +onlyGivenNames f1; have hf1 : ∀ u, Keeps 7368576 s u → Keeps 7368576 s (f1 u) := (by intro u hu; unfold f1; repeat' first | exact Keeps.refl _ | assumption | decide | refine arrivalCounted_keeps ?_ ?_ | refine fabricArrive_keeps ?_ ?_ | refine freeChain_keeps ?_ ?_ | refine relayCounted_keeps ?_ ?_ | refine weftRelease_keeps ?_ ?_ | (intro _ _) | split | dsimp only | refine hf1 _ ?_ | refine hf2 _ ?_ | refine hf3 _ ?_); clear_value f1)
  | (extract_lets +onlyGivenNames s1; have h1 : Keeps 7368576 s s1 := (by unfold s1; repeat' first | exact Keeps.refl _ | assumption | decide | refine arrivalCounted_keeps ?_ ?_ | refine fabricArrive_keeps ?_ ?_ | refine freeChain_keeps ?_ ?_ | refine relayCounted_keeps ?_ ?_ | refine weftRelease_keeps ?_ ?_ | (intro _ _) | split | dsimp only | refine hf1 _ ?_ | refine hf2 _ ?_ | refine hf3 _ ?_); clear_value s1)
  | (extract_lets +onlyGivenNames x1; clear_value x1)
  | refine arrivalCounted_keeps ?_ ?_
  | refine fabricArrive_keeps ?_ ?_
  | refine freeChain_keeps ?_ ?_
  | refine relayCounted_keeps ?_ ?_
  | refine weftRelease_keeps ?_ ?_
  | (intro _ _)
  | split
  | dsimp only
  | refine hf1 _ ?_

theorem relayBroken_keeps {mk : Nat} {sk : State} {s : State} {b : Nat × Nat × Nat} (hk : Keeps mk sk s) (hm : 7365504 &&& mk = 7365504) :
    Keeps mk sk (relayBroken s b) := by
  suffices g : Keeps 7365504 s (relayBroken s b) from hk.trans (g.weaken hm)
  unfold relayBroken
  with_reducible repeat' first
  | exact Keeps.refl _
  | assumption
  | decide
  | refine event_keeps ?_ ?_
  | refine freeChain_keeps ?_ ?_
  | (intro _ _)
  | split
  | dsimp only

theorem portRisen_keeps {mk : Nat} {sk : State} {s : State} {p : Nat} (hk : Keeps mk sk s) (hm : 1024 &&& mk = 1024) :
    Keeps mk sk (portRisen s p) := by
  suffices g : Keeps 1024 s (portRisen s p) from hk.trans (g.weaken hm)
  unfold portRisen
  with_reducible repeat' first
  | exact Keeps.refl _
  | assumption
  | decide
  | (fail_if_no_progress refine Keeps.fab' ?_ _ rfl)
  | (intro _ _)
  | split
  | dsimp only

theorem portFollowed_keeps {mk : Nat} {sk : State} {s : State} {p : Nat} (hk : Keeps mk sk s) (hm : 7368576 &&& mk = 7368576) :
    Keeps mk sk (portFollowed s p) := by
  suffices g : Keeps 7368576 s (portFollowed s p) from hk.trans (g.weaken hm)
  unfold portFollowed
  with_reducible repeat' first
  | exact Keeps.refl _
  | assumption
  | decide
  | refine deriveLinkKey_keeps ?_ ?_
  | refine pathRemoved_keeps ?_ ?_
  | refine pathRestored_keeps ?_ ?_
  | (intro _ _)
  | split
  | dsimp only

theorem noteFirstActive_keeps {mk : Nat} {sk : State} {s : State} (hk : Keeps mk sk s) (hm : 1024 &&& mk = 1024) :
    Keeps mk sk (noteFirstActive s) := by
  suffices g : Keeps 1024 s (noteFirstActive s) from hk.trans (g.weaken hm)
  unfold noteFirstActive
  with_reducible repeat' first
  | exact Keeps.refl _
  | assumption
  | decide
  | refine Keeps.ite ?_ ?_
  | (fail_if_no_progress refine Keeps.fab' ?_ _ rfl)
  | (intro _ _)
  | split
  | dsimp only

theorem weftSettled_keeps {mk : Nat} {sk : State} {s : State} (hk : Keeps mk sk s) (hm : 7602056 &&& mk = 7602056) :
    Keeps mk sk (weftSettled s) := by
  suffices g : Keeps 7602056 s (weftSettled s) from hk.trans (g.weaken hm)
  unfold weftSettled
  with_reducible repeat' first
  | exact Keeps.refl _
  | assumption
  | decide
  | (extract_lets +onlyGivenNames s1; have h1 : Keeps 7602056 s s1 := (by unfold s1; repeat' first | exact Keeps.refl _ | assumption | decide | refine adoptionReports_keeps ?_ ?_ | refine noteFirstActive_keeps ?_ ?_ | refine portDowned_keeps ?_ ?_ | refine portFollowed_keeps ?_ ?_ | refine portRisen_keeps ?_ ?_ | refine relayBroken_keeps ?_ ?_ | refine sendReleases_keeps ?_ ?_ | refine silenceEnds_keeps ?_ ?_ | refine treadleConns_keeps ?_ ?_ | refine twinCheck_keeps ?_ ?_ | refine weftArrival_keeps ?_ ?_ | refine weftClassified_keeps ?_ ?_ | refine Keeps.foldl ?_ _ (fun u a hu => ?_) | refine Keeps.foldlFst ?_ _ (fun u a hu => ?_) | (fail_if_no_progress refine Keeps.weft' ?_ _ rfl) | (intro _ _) | split | dsimp only); clear_value s1)
  | (extract_lets +onlyGivenNames x1; clear_value x1)
  | refine adoptionReports_keeps ?_ ?_
  | refine noteFirstActive_keeps ?_ ?_
  | refine portDowned_keeps ?_ ?_
  | refine portFollowed_keeps ?_ ?_
  | refine portRisen_keeps ?_ ?_
  | refine relayBroken_keeps ?_ ?_
  | refine sendReleases_keeps ?_ ?_
  | refine silenceEnds_keeps ?_ ?_
  | refine treadleConns_keeps ?_ ?_
  | refine twinCheck_keeps ?_ ?_
  | refine weftArrival_keeps ?_ ?_
  | refine weftClassified_keeps ?_ ?_
  | refine Keeps.foldl ?_ _ (fun u a hu => ?_)
  | refine Keeps.foldlFst ?_ _ (fun u a hu => ?_)
  | (fail_if_no_progress refine Keeps.weft' ?_ _ rfl)
  | (intro _ _)
  | split
  | dsimp only

/-! ### Sessions -/

theorem releaseHold_keeps {mk : Nat} {sk : State} {s : State} (hk : Keeps mk sk s) (hm : 1048576 &&& mk = 1048576) :
    Keeps mk sk (releaseHold s) := by
  suffices g : Keeps 1048576 s (releaseHold s) from hk.trans (g.weaken hm)
  unfold releaseHold
  with_reducible repeat' first
  | exact Keeps.refl _
  | assumption
  | decide
  | (extract_lets +onlyGivenNames s1; have h1 : Keeps 1048576 s s1 := (by unfold s1; repeat' first | exact Keeps.refl _ | assumption | decide | (fail_if_no_progress refine Keeps.obs' ?_ _ rfl) | (intro _ _) | split | dsimp only); clear_value s1)
  | (extract_lets +onlyGivenNames x1; clear_value x1)
  | (fail_if_no_progress refine Keeps.obs' ?_ _ rfl)
  | (intro _ _)
  | split
  | dsimp only

theorem endSession_keeps {mk : Nat} {sk : State} {s : State} {num : Nat} {cause : Nat} (hk : Keeps mk sk s) (hm : 7626760 &&& mk = 7626760) :
    Keeps mk sk (endSession s num cause) := by
  suffices g : Keeps 7626760 s (endSession s num cause) from hk.trans (g.weaken hm)
  unfold endSession
  with_reducible repeat' first
  | exact Keeps.refl _
  | assumption
  | decide
  | (extract_lets +onlyGivenNames s1; have h1 : Keeps 7626760 s s1 := (by unfold s1; repeat' first | exact Keeps.refl _ | assumption | decide | refine claim_keeps ?_ ?_ | refine event_keeps ?_ ?_ | refine releaseHold_keeps ?_ ?_ | refine Keeps.ite ?_ ?_ | (fail_if_no_progress refine Keeps.module' ?_ _ rfl) | (fail_if_no_progress refine Keeps.mgmt' ?_ _ rfl) | (fail_if_no_progress (refine Keeps.several ?_ (by refine ⟨?_, ?_, ?_, ?_, ?_, ?_, ?_, ?_, ?_, ?_, ?_, ?_, ?_, ?_, ?_, ?_, ?_, ?_, ?_, ?_⟩ <;> first | exact Or.inl rfl | exact Or.inr rfl))) | (intro _ _) | split | dsimp only); clear_value s1)
  | (extract_lets +onlyGivenNames x1; clear_value x1)
  | refine claim_keeps ?_ ?_
  | refine event_keeps ?_ ?_
  | refine releaseHold_keeps ?_ ?_
  | refine Keeps.ite ?_ ?_
  | (fail_if_no_progress refine Keeps.module' ?_ _ rfl)
  | (fail_if_no_progress refine Keeps.mgmt' ?_ _ rfl)
  | (fail_if_no_progress (refine Keeps.several ?_ (by refine ⟨?_, ?_, ?_, ?_, ?_, ?_, ?_, ?_, ?_, ?_, ?_, ?_, ?_, ?_, ?_, ?_, ?_, ?_, ?_, ?_⟩ <;> first | exact Or.inl rfl | exact Or.inr rfl)))
  | (intro _ _)
  | split
  | dsimp only

theorem endSessions_keeps {mk : Nat} {sk : State} {s : State} {f : Session → Bool} {cause : Nat} (hk : Keeps mk sk s) (hm : 7626760 &&& mk = 7626760) :
    Keeps mk sk (endSessions s f cause) := by
  suffices g : Keeps 7626760 s (endSessions s f cause) from hk.trans (g.weaken hm)
  unfold endSessions
  with_reducible repeat' first
  | exact Keeps.refl _
  | assumption
  | decide
  | refine endSession_keeps ?_ ?_
  | refine Keeps.foldl ?_ _ (fun u a hu => ?_)
  | refine Keeps.foldlFst ?_ _ (fun u a hu => ?_)
  | (intro _ _)
  | split
  | dsimp only

theorem endMailbox_keeps {mk : Nat} {sk : State} {s : State} {v : Nat} {cause : Nat} (hk : Keeps mk sk s) (hm : 7626760 &&& mk = 7626760) :
    Keeps mk sk (endMailbox s v cause) := by
  suffices g : Keeps 7626760 s (endMailbox s v cause) from hk.trans (g.weaken hm)
  unfold endMailbox
  with_reducible repeat' first
  | exact Keeps.refl _
  | assumption
  | decide
  | refine endSessions_keeps ?_ ?_
  | (intro _ _)
  | split
  | dsimp only

end Sys2Proof.Laws
end

