-- ==== Sys2Proof/Laws/KeepsUnits.lean ====
section
/-!
SUPPORT. What the functions keep, one lemma each: the window engine, TLP ingress, the dobby, registers of functions, partitions, tunnels and the commands that settle.
-/

namespace Sys2Proof.Laws

open Sys2Proof.Machine

set_option linter.all false

/-! ### Engine -/

theorem shareRefused_keeps {mk : Nat} {sk : State} {s : State} {v : Nat} {r : Nat} (hk : Keeps mk sk s) (hm : 7364608 &&& mk = 7364608) :
    Keeps mk sk (shareRefused s v r) := by
  suffices g : Keeps 7364608 s (shareRefused s v r) from hk.trans (g.weaken hm)
  unfold shareRefused
  with_reducible repeat' first
  | exact Keeps.refl _
  | assumption
  | decide
  | refine eventIn_keeps ?_ ?_
  | (intro _ _)
  | split
  | dsimp only

theorem admFetch_keeps {mk : Nat} {sk : State}  {k : Nat} {v : Nat} {s : State} (hk : Keeps mk sk s) (hm : 24576 &&& mk = 24576) :
    Keeps mk sk (admFetch k v s) := by
  have aux : ∀ (k : Nat) (v : Nat) (u t : State), Keeps 24576 u t → Keeps 24576 u (admFetch k v t) := by
    intro k
    induction k with
    | zero => intro v u t h0; unfold admFetch; exact h0
    | succ n ih =>
      intro v u t h0
      unfold admFetch
      with_reducible repeat' first
        | with_reducible exact Keeps.refl _
        | with_reducible assumption
        | decide
        | (extract_lets +onlyGivenNames q1; have hq1 : Keeps 24576 u q1.1 := (by unfold q1; repeat' first | with_reducible exact Keeps.refl _ | with_reducible assumption | decide | with_reducible refine ih _ _ _ ?_ | refine hostFetch_keeps ?_ ?_ | refine setAdm_keeps ?_ ?_ | refine Keeps.ite ?_ ?_ | refine Keeps.ofPair (by assumption) ?_ | (fail_if_no_progress refine Keeps.eng' ?_ _ rfl) | (intro _ _) | split | dsimp only); clear_value q1)
        | (extract_lets +onlyGivenNames s1; have h1 : Keeps 24576 u s1 := (by unfold s1; repeat' first | with_reducible exact Keeps.refl _ | with_reducible assumption | decide | with_reducible refine ih _ _ _ ?_ | refine hostFetch_keeps ?_ ?_ | refine setAdm_keeps ?_ ?_ | refine Keeps.ite ?_ ?_ | refine Keeps.ofPair (by assumption) ?_ | (fail_if_no_progress refine Keeps.eng' ?_ _ rfl) | (intro _ _) | split | dsimp only); clear_value s1)
        | (extract_lets +onlyGivenNames x1; clear_value x1)
        | with_reducible refine ih _ _ _ ?_
        | refine hostFetch_keeps ?_ ?_
        | refine setAdm_keeps ?_ ?_
        | refine Keeps.ite ?_ ?_
        | refine Keeps.ofPair (by assumption) ?_
        | (fail_if_no_progress refine Keeps.eng' ?_ _ rfl)
        | (intro _ _)
        | split
        | dsimp only
  exact hk.trans ((aux k v s s (Keeps.refl s)).weaken hm)

theorem admDrop_keeps {mk : Nat} {sk : State} {s : State} {c : AdmCmd} (hk : Keeps mk sk s) (hm : 8192 &&& mk = 8192) :
    Keeps mk sk (admDrop s c) := by
  suffices g : Keeps 8192 s (admDrop s c) from hk.trans (g.weaken hm)
  unfold admDrop
  with_reducible repeat' first
  | exact Keeps.refl _
  | assumption
  | decide
  | (fail_if_no_progress refine Keeps.eng' ?_ _ rfl)
  | (intro _ _)
  | split
  | dsimp only

theorem admReserved_keeps {mk : Nat} {sk : State}  {k : Nat} {s : State} (hk : Keeps mk sk s) (hm : 2121728 &&& mk = 2121728) :
    Keeps mk sk (admReserved k s) := by
  have aux : ∀ (k : Nat) (u t : State), Keeps 2121728 u t → Keeps 2121728 u (admReserved k t) := by
    intro k
    induction k with
    | zero => intro  u t h0; unfold admReserved; exact h0
    | succ n ih =>
      intro  u t h0
      unfold admReserved
      with_reducible repeat' first
        | with_reducible exact Keeps.refl _
        | with_reducible assumption
        | decide
        | (extract_lets +onlyGivenNames q1; have hq1 : Keeps 2121728 u q1.1 := (by unfold q1; repeat' first | with_reducible exact Keeps.refl _ | with_reducible assumption | decide | with_reducible refine ih _ _ ?_ | refine admDrop_keeps ?_ ?_ | refine admFinish_keeps ?_ ?_ | (intro _ _) | split | dsimp only); clear_value q1)
        | (extract_lets +onlyGivenNames s1; have h1 : Keeps 2121728 u s1 := (by unfold s1; repeat' first | with_reducible exact Keeps.refl _ | with_reducible assumption | decide | with_reducible refine ih _ _ ?_ | refine admDrop_keeps ?_ ?_ | refine admFinish_keeps ?_ ?_ | (intro _ _) | split | dsimp only); clear_value s1)
        | (extract_lets +onlyGivenNames x1; clear_value x1)
        | with_reducible refine ih _ _ ?_
        | refine admDrop_keeps ?_ ?_
        | refine admFinish_keeps ?_ ?_
        | (intro _ _)
        | split
        | dsimp only
  exact hk.trans ((aux k s s (Keeps.refl s)).weaken hm)

theorem admDisabled_keeps {mk : Nat} {sk : State} {s : State} {v : Nat} (hk : Keeps mk sk s) (hm : 8192 &&& mk = 8192) :
    Keeps mk sk (admDisabled s v) := by
  suffices g : Keeps 8192 s (admDisabled s v) from hk.trans (g.weaken hm)
  unfold admDisabled
  with_reducible repeat' first
  | exact Keeps.refl _
  | assumption
  | decide
  | (extract_lets +onlyGivenNames s1; have h1 : Keeps 8192 s s1 := (by unfold s1; repeat' first | exact Keeps.refl _ | assumption | decide | refine setAdm_keeps ?_ ?_ | refine Keeps.ite ?_ ?_ | (fail_if_no_progress refine Keeps.eng' ?_ _ rfl) | (intro _ _) | split | dsimp only); clear_value s1)
  | (extract_lets +onlyGivenNames x1; clear_value x1)
  | refine setAdm_keeps ?_ ?_
  | refine Keeps.ite ?_ ?_
  | (fail_if_no_progress refine Keeps.eng' ?_ _ rfl)
  | (intro _ _)
  | split
  | dsimp only

theorem admSettled_keeps {mk : Nat} {sk : State} {s : State} (hk : Keeps mk sk s) (hm : 2121728 &&& mk = 2121728) :
    Keeps mk sk (admSettled s) := by
  suffices g : Keeps 2121728 s (admSettled s) from hk.trans (g.weaken hm)
  unfold admSettled
  with_reducible repeat' first
  | exact Keeps.refl _
  | assumption
  | decide
  | refine admDisabled_keeps ?_ ?_
  | refine admReserved_keeps ?_ ?_
  | refine Keeps.foldl ?_ _ (fun u a hu => ?_)
  | refine Keeps.foldlFst ?_ _ (fun u a hu => ?_)
  | (intro _ _)
  | split
  | dsimp only

theorem admqTailDoorbell_keeps {mk : Nat} {sk : State} {v : Nat} {tail : Nat} {s : State} (hk : Keeps mk sk s) (hm : 2121728 &&& mk = 2121728) :
    Keeps mk sk (admqTailDoorbell v tail s) := by
  suffices g : Keeps 2121728 s (admqTailDoorbell v tail s) from hk.trans (g.weaken hm)
  unfold admqTailDoorbell
  with_reducible repeat' first
  | exact Keeps.refl _
  | assumption
  | decide
  | (extract_lets +onlyGivenNames q1; have hq1 : Keeps 2121728 s q1.1 := (by unfold q1; repeat' first | exact Keeps.refl _ | assumption | decide | refine admFetch_keeps ?_ ?_ | refine admSettled_keeps ?_ ?_ | refine setAdm_keeps ?_ ?_ | refine Keeps.ite ?_ ?_ | (intro _ _) | split | dsimp only); clear_value q1)
  | (extract_lets +onlyGivenNames s1; have h1 : Keeps 2121728 s s1 := (by unfold s1; repeat' first | exact Keeps.refl _ | assumption | decide | refine admFetch_keeps ?_ ?_ | refine admSettled_keeps ?_ ?_ | refine setAdm_keeps ?_ ?_ | refine Keeps.ite ?_ ?_ | (intro _ _) | split | dsimp only); clear_value s1)
  | (extract_lets +onlyGivenNames x1; clear_value x1)
  | refine admFetch_keeps ?_ ?_
  | refine admSettled_keeps ?_ ?_
  | refine setAdm_keeps ?_ ?_
  | refine Keeps.ite ?_ ?_
  | (intro _ _)
  | split
  | dsimp only

theorem execAdmqTailDoorbell_keeps {mk : Nat} {sk : State} {v : Vs} {tail : Nat} {s : State} (hk : Keeps mk sk s) (hm : 2121728 &&& mk = 2121728) :
    ∃ t', execAdmqTailDoorbell v tail s = .next t' ∧ Keeps mk sk t' := by
  suffices g : ∃ t', execAdmqTailDoorbell v tail s = .next t' ∧ Keeps 2121728 s t' from g.imp fun _ h => ⟨h.1, hk.trans (h.2.weaken hm)⟩
  refine ⟨_, rfl, ?_⟩
  with_reducible repeat' first
  | exact Keeps.refl _
  | assumption
  | decide
  | refine admqTailDoorbell_keeps ?_ ?_
  | (intro _ _)
  | split
  | dsimp only

theorem admqCtrl_keeps {mk : Nat} {sk : State} {v : Nat} {value : Nat} {s : State} (hk : Keeps mk sk s) (hm : 8192 &&& mk = 8192) :
    Keeps mk sk (admqCtrl v value s) := by
  suffices g : Keeps 8192 s (admqCtrl v value s) from hk.trans (g.weaken hm)
  unfold admqCtrl
  with_reducible repeat' first
  | exact Keeps.refl _
  | assumption
  | decide
  | (extract_lets +onlyGivenNames s1; have h1 : Keeps 8192 s s1 := (by unfold s1; repeat' first | exact Keeps.refl _ | assumption | decide | refine admDisabled_keeps ?_ ?_ | refine setAdm_keeps ?_ ?_ | refine Keeps.ite ?_ ?_ | (intro _ _) | split | dsimp only); clear_value s1)
  | (extract_lets +onlyGivenNames x1; clear_value x1)
  | refine admDisabled_keeps ?_ ?_
  | refine setAdm_keeps ?_ ?_
  | refine Keeps.ite ?_ ?_
  | (intro _ _)
  | split
  | dsimp only

theorem execAdmqCtrl_keeps {mk : Nat} {sk : State} {v : Vs} {value : Nat} {s : State} (hk : Keeps mk sk s) (hm : 8192 &&& mk = 8192) :
    ∃ t', execAdmqCtrl v value s = .next t' ∧ Keeps mk sk t' := by
  suffices g : ∃ t', execAdmqCtrl v value s = .next t' ∧ Keeps 8192 s t' from g.imp fun _ h => ⟨h.1, hk.trans (h.2.weaken hm)⟩
  refine ⟨_, rfl, ?_⟩
  with_reducible repeat' first
  | exact Keeps.refl _
  | assumption
  | decide
  | refine admqCtrl_keeps ?_ ?_
  | (intro _ _)
  | split
  | dsimp only

theorem admcqHead_keeps {mk : Nat} {sk : State} {v : Nat} {value : Nat} {s : State} (hk : Keeps mk sk s) (hm : 2121728 &&& mk = 2121728) :
    Keeps mk sk (admcqHead v value s) := by
  suffices g : Keeps 2121728 s (admcqHead v value s) from hk.trans (g.weaken hm)
  unfold admcqHead
  with_reducible repeat' first
  | exact Keeps.refl _
  | assumption
  | decide
  | (extract_lets +onlyGivenNames s1; have h1 : Keeps 2121728 s s1 := (by unfold s1; repeat' first | exact Keeps.refl _ | assumption | decide | refine admSettled_keeps ?_ ?_ | refine setAdm_keeps ?_ ?_ | (intro _ _) | split | dsimp only); clear_value s1)
  | (extract_lets +onlyGivenNames x1; clear_value x1)
  | refine admSettled_keeps ?_ ?_
  | refine setAdm_keeps ?_ ?_
  | (intro _ _)
  | split
  | dsimp only

theorem execAdmcqHead_keeps {mk : Nat} {sk : State} {v : Vs} {value : Nat} {s : State} (hk : Keeps mk sk s) (hm : 2121728 &&& mk = 2121728) :
    ∃ t', execAdmcqHead v value s = .next t' ∧ Keeps mk sk t' := by
  suffices g : ∃ t', execAdmcqHead v value s = .next t' ∧ Keeps 2121728 s t' from g.imp fun _ h => ⟨h.1, hk.trans (h.2.weaken hm)⟩
  refine ⟨_, rfl, ?_⟩
  with_reducible repeat' first
  | exact Keeps.refl _
  | assumption
  | decide
  | refine admcqHead_keeps ?_ ?_
  | (intro _ _)
  | split
  | dsimp only

theorem admWait_keeps {mk : Nat} {sk : State} {s : State} {c : AdmCmd} {obj : Nat} (hk : Keeps mk sk s) (hm : 8192 &&& mk = 8192) :
    Keeps mk sk (admWait s c obj) := by
  suffices g : Keeps 8192 s (admWait s c obj) from hk.trans (g.weaken hm)
  unfold admWait
  with_reducible repeat' first
  | exact Keeps.refl _
  | assumption
  | decide
  | (fail_if_no_progress refine Keeps.eng' ?_ _ rfl)
  | (intro _ _)
  | split
  | dsimp only

theorem admDone_keeps {mk : Nat} {sk : State} {s : State} {c : AdmCmd} (hk : Keeps mk sk s) (hm : 2121728 &&& mk = 2121728) :
    Keeps mk sk (admDone s c) := by
  suffices g : Keeps 2121728 s (admDone s c) from hk.trans (g.weaken hm)
  unfold admDone
  with_reducible repeat' first
  | exact Keeps.refl _
  | assumption
  | decide
  | refine admFinish_keeps ?_ ?_
  | (intro _ _)
  | split
  | dsimp only


theorem admStart_keeps {mk : Nat} {sk s : State} {op : Nat} {f : State → AdmCmd → State} (hk : Keeps mk sk s) (hm : 2121728 &&& mk = 2121728)
    (hf : ∀ u c, Keeps mk sk u → Keeps mk sk (f u c)) : Keeps mk sk (admStart s op f) := by
  have w : ∀ {a : Nat} , a &&& 2121728 = a → a &&& mk = a := fun h => by
    rename_i a
    rw [← h, Nat.and_assoc, hm]
  unfold admStart
  split
  · exact hk
  · next c e =>
    have h1 := admDrop_keeps (c := c) hk (w (by decide))
    refine admSettled_keeps (Keeps.ite (admFinish_keeps h1 (w (by decide))) (hf _ _ h1)) (w (by decide))

theorem windowOpen_keeps {mk : Nat} {sk : State} {s : State} (hk : Keeps mk sk s) (hm : 7368704 &&& mk = 7368704) :
    Keeps mk sk (windowOpen s) := by
  suffices g : Keeps 7368704 s (windowOpen s) from hk.trans (g.weaken hm)
  unfold windowOpen
  with_reducible repeat' first
  | exact Keeps.refl _
  | assumption
  | decide
  | (extract_lets +onlyGivenNames q1; have hq1 : Keeps 7368704 s q1.1 := (by unfold q1; repeat' first | exact Keeps.refl _ | assumption | decide | refine admFinish_keeps ?_ ?_ | refine admStart_keeps ?_ ?_ (fun u a hu => ?_) | refine openRefused_keeps ?_ ?_ | refine openWindow_keeps ?_ ?_ | refine shareRefused_keeps ?_ ?_ | refine Keeps.ite ?_ ?_ | (intro _ _) | split | dsimp only); clear_value q1)
  | (extract_lets +onlyGivenNames s1; have h1 : Keeps 7368704 s s1 := (by unfold s1; repeat' first | exact Keeps.refl _ | assumption | decide | refine admFinish_keeps ?_ ?_ | refine admStart_keeps ?_ ?_ (fun u a hu => ?_) | refine openRefused_keeps ?_ ?_ | refine openWindow_keeps ?_ ?_ | refine shareRefused_keeps ?_ ?_ | refine Keeps.ite ?_ ?_ | (intro _ _) | split | dsimp only); clear_value s1)
  | (extract_lets +onlyGivenNames x1; clear_value x1)
  | refine admFinish_keeps ?_ ?_
  | refine admStart_keeps ?_ ?_ (fun u a hu => ?_)
  | refine openRefused_keeps ?_ ?_
  | refine openWindow_keeps ?_ ?_
  | refine shareRefused_keeps ?_ ?_
  | refine Keeps.ite ?_ ?_
  | (intro _ _)
  | split
  | dsimp only

theorem execWindowOpen_keeps {mk : Nat} {sk : State} {s : State} (hk : Keeps mk sk s) (hm : 7368704 &&& mk = 7368704) :
    ∃ t', execWindowOpen s = .next t' ∧ Keeps mk sk t' := by
  suffices g : ∃ t', execWindowOpen s = .next t' ∧ Keeps 7368704 s t' from g.imp fun _ h => ⟨h.1, hk.trans (h.2.weaken hm)⟩
  refine ⟨_, rfl, ?_⟩
  with_reducible repeat' first
  | exact Keeps.refl _
  | assumption
  | decide
  | refine windowOpen_keeps ?_ ?_
  | (intro _ _)
  | split
  | dsimp only

theorem windowRevoke_keeps {mk : Nat} {sk : State} {s : State} (hk : Keeps mk sk s) (hm : 7368704 &&& mk = 7368704) :
    Keeps mk sk (windowRevoke s) := by
  suffices g : Keeps 7368704 s (windowRevoke s) from hk.trans (g.weaken hm)
  unfold windowRevoke
  with_reducible repeat' first
  | exact Keeps.refl _
  | assumption
  | decide
  | (extract_lets +onlyGivenNames q1; have hq1 : Keeps 7368704 s q1.1 := (by unfold q1; repeat' first | exact Keeps.refl _ | assumption | decide | refine admFinish_keeps ?_ ?_ | refine admStart_keeps ?_ ?_ (fun u a hu => ?_) | refine admWait_keeps ?_ ?_ | refine startRevoke_keeps ?_ ?_ | refine winEvent_keeps ?_ ?_ | refine Keeps.ite ?_ ?_ | (intro _ _) | split | dsimp only); clear_value q1)
  | (extract_lets +onlyGivenNames s1; have h1 : Keeps 7368704 s s1 := (by unfold s1; repeat' first | exact Keeps.refl _ | assumption | decide | refine admFinish_keeps ?_ ?_ | refine admStart_keeps ?_ ?_ (fun u a hu => ?_) | refine admWait_keeps ?_ ?_ | refine startRevoke_keeps ?_ ?_ | refine winEvent_keeps ?_ ?_ | refine Keeps.ite ?_ ?_ | (intro _ _) | split | dsimp only); clear_value s1)
  | (extract_lets +onlyGivenNames x1; clear_value x1)
  | refine admFinish_keeps ?_ ?_
  | refine admStart_keeps ?_ ?_ (fun u a hu => ?_)
  | refine admWait_keeps ?_ ?_
  | refine startRevoke_keeps ?_ ?_
  | refine winEvent_keeps ?_ ?_
  | refine Keeps.ite ?_ ?_
  | (intro _ _)
  | split
  | dsimp only

theorem execWindowRevoke_keeps {mk : Nat} {sk : State} {s : State} (hk : Keeps mk sk s) (hm : 7368704 &&& mk = 7368704) :
    ∃ t', execWindowRevoke s = .next t' ∧ Keeps mk sk t' := by
  suffices g : ∃ t', execWindowRevoke s = .next t' ∧ Keeps 7368704 s t' from g.imp fun _ h => ⟨h.1, hk.trans (h.2.weaken hm)⟩
  refine ⟨_, rfl, ?_⟩
  with_reducible repeat' first
  | exact Keeps.refl _
  | assumption
  | decide
  | refine windowRevoke_keeps ?_ ?_
  | (intro _ _)
  | split
  | dsimp only

theorem windowFree_keeps {mk : Nat} {sk : State} {s : State} (hk : Keeps mk sk s) (hm : 2125824 &&& mk = 2125824) :
    Keeps mk sk (windowFree s) := by
  suffices g : Keeps 2125824 s (windowFree s) from hk.trans (g.weaken hm)
  unfold windowFree
  with_reducible repeat' first
  | exact Keeps.refl _
  | assumption
  | decide
  | (extract_lets +onlyGivenNames q1; have hq1 : Keeps 2125824 s q1.1 := (by unfold q1; repeat' first | exact Keeps.refl _ | assumption | decide | refine admDone_keeps ?_ ?_ | refine admFinish_keeps ?_ ?_ | refine admStart_keeps ?_ ?_ (fun u a hu => ?_) | refine freeWindow_keeps ?_ ?_ | refine Keeps.ite ?_ ?_ | (intro _ _) | split | dsimp only); clear_value q1)
  | (extract_lets +onlyGivenNames s1; have h1 : Keeps 2125824 s s1 := (by unfold s1; repeat' first | exact Keeps.refl _ | assumption | decide | refine admDone_keeps ?_ ?_ | refine admFinish_keeps ?_ ?_ | refine admStart_keeps ?_ ?_ (fun u a hu => ?_) | refine freeWindow_keeps ?_ ?_ | refine Keeps.ite ?_ ?_ | (intro _ _) | split | dsimp only); clear_value s1)
  | (extract_lets +onlyGivenNames x1; clear_value x1)
  | refine admDone_keeps ?_ ?_
  | refine admFinish_keeps ?_ ?_
  | refine admStart_keeps ?_ ?_ (fun u a hu => ?_)
  | refine freeWindow_keeps ?_ ?_
  | refine Keeps.ite ?_ ?_
  | (intro _ _)
  | split
  | dsimp only

theorem execWindowFree_keeps {mk : Nat} {sk : State} {s : State} (hk : Keeps mk sk s) (hm : 2125824 &&& mk = 2125824) :
    ∃ t', execWindowFree s = .next t' ∧ Keeps mk sk t' := by
  suffices g : ∃ t', execWindowFree s = .next t' ∧ Keeps 2125824 s t' from g.imp fun _ h => ⟨h.1, hk.trans (h.2.weaken hm)⟩
  refine ⟨_, rfl, ?_⟩
  with_reducible repeat' first
  | exact Keeps.refl _
  | assumption
  | decide
  | refine windowFree_keeps ?_ ?_
  | (intro _ _)
  | split
  | dsimp only

theorem windowRead_keeps {mk : Nat} {sk : State} {s : State} (hk : Keeps mk sk s) (hm : 2121728 &&& mk = 2121728) :
    Keeps mk sk (windowRead s) := by
  suffices g : Keeps 2121728 s (windowRead s) from hk.trans (g.weaken hm)
  unfold windowRead
  with_reducible repeat' first
  | exact Keeps.refl _
  | assumption
  | decide
  | (extract_lets +onlyGivenNames q1; have hq1 : Keeps 2121728 s q1.1 := (by unfold q1; repeat' first | exact Keeps.refl _ | assumption | decide | refine admDone_keeps ?_ ?_ | refine admFinish_keeps ?_ ?_ | refine admStart_keeps ?_ ?_ (fun u a hu => ?_) | refine hostPost_keeps ?_ ?_ | refine Keeps.ite ?_ ?_ | (intro _ _) | split | dsimp only); clear_value q1)
  | (extract_lets +onlyGivenNames s1; have h1 : Keeps 2121728 s s1 := (by unfold s1; repeat' first | exact Keeps.refl _ | assumption | decide | refine admDone_keeps ?_ ?_ | refine admFinish_keeps ?_ ?_ | refine admStart_keeps ?_ ?_ (fun u a hu => ?_) | refine hostPost_keeps ?_ ?_ | refine Keeps.ite ?_ ?_ | (intro _ _) | split | dsimp only); clear_value s1)
  | (extract_lets +onlyGivenNames x1; clear_value x1)
  | refine admDone_keeps ?_ ?_
  | refine admFinish_keeps ?_ ?_
  | refine admStart_keeps ?_ ?_ (fun u a hu => ?_)
  | refine hostPost_keeps ?_ ?_
  | refine Keeps.ite ?_ ?_
  | (intro _ _)
  | split
  | dsimp only

theorem execWindowRead_keeps {mk : Nat} {sk : State} {s : State} (hk : Keeps mk sk s) (hm : 2121728 &&& mk = 2121728) :
    ∃ t', execWindowRead s = .next t' ∧ Keeps mk sk t' := by
  suffices g : ∃ t', execWindowRead s = .next t' ∧ Keeps 2121728 s t' from g.imp fun _ h => ⟨h.1, hk.trans (h.2.weaken hm)⟩
  refine ⟨_, rfl, ?_⟩
  with_reducible repeat' first
  | exact Keeps.refl _
  | assumption
  | decide
  | refine windowRead_keeps ?_ ?_
  | (intro _ _)
  | split
  | dsimp only

theorem importWrite_keeps {mk : Nat} {sk : State} {s : State} (hk : Keeps mk sk s) (hm : 7368704 &&& mk = 7368704) :
    Keeps mk sk (importWrite s) := by
  suffices g : Keeps 7368704 s (importWrite s) from hk.trans (g.weaken hm)
  unfold importWrite
  with_reducible repeat' first
  | exact Keeps.refl _
  | assumption
  | decide
  | (extract_lets +onlyGivenNames q1; have hq1 : Keeps 7368704 s q1.1 := (by unfold q1; repeat' first | exact Keeps.refl _ | assumption | decide | refine admDone_keeps ?_ ?_ | refine admFinish_keeps ?_ ?_ | refine admStart_keeps ?_ ?_ (fun u a hu => ?_) | refine shareRefused_keeps ?_ ?_ | refine Keeps.ite ?_ ?_ | (fail_if_no_progress refine Keeps.win' ?_ _ rfl) | (intro _ _) | split | dsimp only); clear_value q1)
  | (extract_lets +onlyGivenNames s1; have h1 : Keeps 7368704 s s1 := (by unfold s1; repeat' first | exact Keeps.refl _ | assumption | decide | refine admDone_keeps ?_ ?_ | refine admFinish_keeps ?_ ?_ | refine admStart_keeps ?_ ?_ (fun u a hu => ?_) | refine shareRefused_keeps ?_ ?_ | refine Keeps.ite ?_ ?_ | (fail_if_no_progress refine Keeps.win' ?_ _ rfl) | (intro _ _) | split | dsimp only); clear_value s1)
  | (extract_lets +onlyGivenNames x1; clear_value x1)
  | refine admDone_keeps ?_ ?_
  | refine admFinish_keeps ?_ ?_
  | refine admStart_keeps ?_ ?_ (fun u a hu => ?_)
  | refine shareRefused_keeps ?_ ?_
  | refine Keeps.ite ?_ ?_
  | (fail_if_no_progress refine Keeps.win' ?_ _ rfl)
  | (intro _ _)
  | split
  | dsimp only

theorem execImportWrite_keeps {mk : Nat} {sk : State} {s : State} (hk : Keeps mk sk s) (hm : 7368704 &&& mk = 7368704) :
    ∃ t', execImportWrite s = .next t' ∧ Keeps mk sk t' := by
  suffices g : ∃ t', execImportWrite s = .next t' ∧ Keeps 7368704 s t' from g.imp fun _ h => ⟨h.1, hk.trans (h.2.weaken hm)⟩
  refine ⟨_, rfl, ?_⟩
  with_reducible repeat' first
  | exact Keeps.refl _
  | assumption
  | decide
  | refine importWrite_keeps ?_ ?_
  | (intro _ _)
  | split
  | dsimp only

theorem importInvalidate_keeps {mk : Nat} {sk : State} {s : State} (hk : Keeps mk sk s) (hm : 2125824 &&& mk = 2125824) :
    Keeps mk sk (importInvalidate s) := by
  suffices g : Keeps 2125824 s (importInvalidate s) from hk.trans (g.weaken hm)
  unfold importInvalidate
  with_reducible repeat' first
  | exact Keeps.refl _
  | assumption
  | decide
  | (extract_lets +onlyGivenNames q1; have hq1 : Keeps 2125824 s q1.1 := (by unfold q1; repeat' first | exact Keeps.refl _ | assumption | decide | refine admDone_keeps ?_ ?_ | refine admFinish_keeps ?_ ?_ | refine admStart_keeps ?_ ?_ (fun u a hu => ?_) | refine admWait_keeps ?_ ?_ | refine Keeps.ite ?_ ?_ | (fail_if_no_progress refine Keeps.win' ?_ _ rfl) | (intro _ _) | split | dsimp only); clear_value q1)
  | (extract_lets +onlyGivenNames s1; have h1 : Keeps 2125824 s s1 := (by unfold s1; repeat' first | exact Keeps.refl _ | assumption | decide | refine admDone_keeps ?_ ?_ | refine admFinish_keeps ?_ ?_ | refine admStart_keeps ?_ ?_ (fun u a hu => ?_) | refine admWait_keeps ?_ ?_ | refine Keeps.ite ?_ ?_ | (fail_if_no_progress refine Keeps.win' ?_ _ rfl) | (intro _ _) | split | dsimp only); clear_value s1)
  | (extract_lets +onlyGivenNames x1; clear_value x1)
  | refine admDone_keeps ?_ ?_
  | refine admFinish_keeps ?_ ?_
  | refine admStart_keeps ?_ ?_ (fun u a hu => ?_)
  | refine admWait_keeps ?_ ?_
  | refine Keeps.ite ?_ ?_
  | (fail_if_no_progress refine Keeps.win' ?_ _ rfl)
  | (intro _ _)
  | split
  | dsimp only

theorem execImportInvalidate_keeps {mk : Nat} {sk : State} {s : State} (hk : Keeps mk sk s) (hm : 2125824 &&& mk = 2125824) :
    ∃ t', execImportInvalidate s = .next t' ∧ Keeps mk sk t' := by
  suffices g : ∃ t', execImportInvalidate s = .next t' ∧ Keeps 2125824 s t' from g.imp fun _ h => ⟨h.1, hk.trans (h.2.weaken hm)⟩
  refine ⟨_, rfl, ?_⟩
  with_reducible repeat' first
  | exact Keeps.refl _
  | assumption
  | decide
  | refine importInvalidate_keeps ?_ ?_
  | (intro _ _)
  | split
  | dsimp only

theorem invalidateSettled_keeps {mk : Nat} {sk : State} {s : State} (hk : Keeps mk sk s) (hm : 2121728 &&& mk = 2121728) :
    Keeps mk sk (invalidateSettled s) := by
  suffices g : Keeps 2121728 s (invalidateSettled s) from hk.trans (g.weaken hm)
  unfold invalidateSettled
  with_reducible repeat' first
  | exact Keeps.refl _
  | assumption
  | decide
  | refine finishWaits_keeps ?_ ?_
  | (intro _ _)
  | split
  | dsimp only

theorem importRead_keeps {mk : Nat} {sk : State} {s : State} (hk : Keeps mk sk s) (hm : 2121728 &&& mk = 2121728) :
    Keeps mk sk (importRead s) := by
  suffices g : Keeps 2121728 s (importRead s) from hk.trans (g.weaken hm)
  unfold importRead
  with_reducible repeat' first
  | exact Keeps.refl _
  | assumption
  | decide
  | (extract_lets +onlyGivenNames q1; have hq1 : Keeps 2121728 s q1.1 := (by unfold q1; repeat' first | exact Keeps.refl _ | assumption | decide | refine admDone_keeps ?_ ?_ | refine admFinish_keeps ?_ ?_ | refine admStart_keeps ?_ ?_ (fun u a hu => ?_) | refine hostPost_keeps ?_ ?_ | refine Keeps.ite ?_ ?_ | (intro _ _) | split | dsimp only); clear_value q1)
  | (extract_lets +onlyGivenNames s1; have h1 : Keeps 2121728 s s1 := (by unfold s1; repeat' first | exact Keeps.refl _ | assumption | decide | refine admDone_keeps ?_ ?_ | refine admFinish_keeps ?_ ?_ | refine admStart_keeps ?_ ?_ (fun u a hu => ?_) | refine hostPost_keeps ?_ ?_ | refine Keeps.ite ?_ ?_ | (intro _ _) | split | dsimp only); clear_value s1)
  | (extract_lets +onlyGivenNames x1; clear_value x1)
  | refine admDone_keeps ?_ ?_
  | refine admFinish_keeps ?_ ?_
  | refine admStart_keeps ?_ ?_ (fun u a hu => ?_)
  | refine hostPost_keeps ?_ ?_
  | refine Keeps.ite ?_ ?_
  | (intro _ _)
  | split
  | dsimp only

theorem execImportRead_keeps {mk : Nat} {sk : State} {s : State} (hk : Keeps mk sk s) (hm : 2121728 &&& mk = 2121728) :
    ∃ t', execImportRead s = .next t' ∧ Keeps mk sk t' := by
  suffices g : ∃ t', execImportRead s = .next t' ∧ Keeps 2121728 s t' from g.imp fun _ h => ⟨h.1, hk.trans (h.2.weaken hm)⟩
  refine ⟨_, rfl, ?_⟩
  with_reducible repeat' first
  | exact Keeps.refl _
  | assumption
  | decide
  | refine importRead_keeps ?_ ?_
  | (intro _ _)
  | split
  | dsimp only

theorem importSetGen_keeps {mk : Nat} {sk : State} {s : State} (hk : Keeps mk sk s) (hm : 2125824 &&& mk = 2125824) :
    Keeps mk sk (importSetGen s) := by
  suffices g : Keeps 2125824 s (importSetGen s) from hk.trans (g.weaken hm)
  unfold importSetGen
  with_reducible repeat' first
  | exact Keeps.refl _
  | assumption
  | decide
  | (extract_lets +onlyGivenNames q1; have hq1 : Keeps 2125824 s q1.1 := (by unfold q1; repeat' first | exact Keeps.refl _ | assumption | decide | refine admDone_keeps ?_ ?_ | refine admFinish_keeps ?_ ?_ | refine admStart_keeps ?_ ?_ (fun u a hu => ?_) | refine Keeps.ite ?_ ?_ | (fail_if_no_progress refine Keeps.win' ?_ _ rfl) | (intro _ _) | split | dsimp only); clear_value q1)
  | (extract_lets +onlyGivenNames s1; have h1 : Keeps 2125824 s s1 := (by unfold s1; repeat' first | exact Keeps.refl _ | assumption | decide | refine admDone_keeps ?_ ?_ | refine admFinish_keeps ?_ ?_ | refine admStart_keeps ?_ ?_ (fun u a hu => ?_) | refine Keeps.ite ?_ ?_ | (fail_if_no_progress refine Keeps.win' ?_ _ rfl) | (intro _ _) | split | dsimp only); clear_value s1)
  | (extract_lets +onlyGivenNames x1; clear_value x1)
  | refine admDone_keeps ?_ ?_
  | refine admFinish_keeps ?_ ?_
  | refine admStart_keeps ?_ ?_ (fun u a hu => ?_)
  | refine Keeps.ite ?_ ?_
  | (fail_if_no_progress refine Keeps.win' ?_ _ rfl)
  | (intro _ _)
  | split
  | dsimp only

theorem execImportSetGen_keeps {mk : Nat} {sk : State} {s : State} (hk : Keeps mk sk s) (hm : 2125824 &&& mk = 2125824) :
    ∃ t', execImportSetGen s = .next t' ∧ Keeps mk sk t' := by
  suffices g : ∃ t', execImportSetGen s = .next t' ∧ Keeps 2125824 s t' from g.imp fun _ h => ⟨h.1, hk.trans (h.2.weaken hm)⟩
  refine ⟨_, rfl, ?_⟩
  with_reducible repeat' first
  | exact Keeps.refl _
  | assumption
  | decide
  | refine importSetGen_keeps ?_ ?_
  | (intro _ _)
  | split
  | dsimp only

theorem connOpenCmd_keeps {mk : Nat} {sk : State} {s : State} (hk : Keeps mk sk s) (hm : 7564160 &&& mk = 7564160) :
    Keeps mk sk (connOpenCmd s) := by
  suffices g : Keeps 7564160 s (connOpenCmd s) from hk.trans (g.weaken hm)
  unfold connOpenCmd
  with_reducible repeat' first
  | exact Keeps.refl _
  | assumption
  | decide
  | (extract_lets +onlyGivenNames q1; have hq1 : Keeps 7564160 s q1.1 := (by unfold q1; repeat' first | exact Keeps.refl _ | assumption | decide | refine admFinish_keeps ?_ ?_ | refine admStart_keeps ?_ ?_ (fun u a hu => ?_) | refine admWait_keeps ?_ ?_ | refine openConn_keeps ?_ ?_ | refine shareRefused_keeps ?_ ?_ | refine Keeps.ite ?_ ?_ | (intro _ _) | split | dsimp only); clear_value q1)
  | (extract_lets +onlyGivenNames s1; have h1 : Keeps 7564160 s s1 := (by unfold s1; repeat' first | exact Keeps.refl _ | assumption | decide | refine admFinish_keeps ?_ ?_ | refine admStart_keeps ?_ ?_ (fun u a hu => ?_) | refine admWait_keeps ?_ ?_ | refine openConn_keeps ?_ ?_ | refine shareRefused_keeps ?_ ?_ | refine Keeps.ite ?_ ?_ | (intro _ _) | split | dsimp only); clear_value s1)
  | (extract_lets +onlyGivenNames x1; clear_value x1)
  | refine admFinish_keeps ?_ ?_
  | refine admStart_keeps ?_ ?_ (fun u a hu => ?_)
  | refine admWait_keeps ?_ ?_
  | refine openConn_keeps ?_ ?_
  | refine shareRefused_keeps ?_ ?_
  | refine Keeps.ite ?_ ?_
  | (intro _ _)
  | split
  | dsimp only

theorem execConnOpen_keeps {mk : Nat} {sk : State} {s : State} (hk : Keeps mk sk s) (hm : 7564160 &&& mk = 7564160) :
    ∃ t', execConnOpen s = .next t' ∧ Keeps mk sk t' := by
  suffices g : ∃ t', execConnOpen s = .next t' ∧ Keeps 7564160 s t' from g.imp fun _ h => ⟨h.1, hk.trans (h.2.weaken hm)⟩
  refine ⟨_, rfl, ?_⟩
  with_reducible repeat' first
  | exact Keeps.refl _
  | assumption
  | decide
  | refine connOpenCmd_keeps ?_ ?_
  | (intro _ _)
  | split
  | dsimp only

theorem connModify_keeps {mk : Nat} {sk : State} {s : State} (hk : Keeps mk sk s) (hm : 3237888 &&& mk = 3237888) :
    Keeps mk sk (connModify s) := by
  suffices g : Keeps 3237888 s (connModify s) from hk.trans (g.weaken hm)
  unfold connModify
  with_reducible repeat' first
  | exact Keeps.refl _
  | assumption
  | decide
  | (extract_lets +onlyGivenNames q1; have hq1 : Keeps 3237888 s q1.1 := (by unfold q1; repeat' first | exact Keeps.refl _ | assumption | decide | refine admDone_keeps ?_ ?_ | refine admFinish_keeps ?_ ?_ | refine admStart_keeps ?_ ?_ (fun u a hu => ?_) | refine mirrorConn_keeps ?_ ?_ | refine setConn_keeps ?_ ?_ | refine Keeps.ite ?_ ?_ | (intro _ _) | split | dsimp only); clear_value q1)
  | (extract_lets +onlyGivenNames s1; have h1 : Keeps 3237888 s s1 := (by unfold s1; repeat' first | exact Keeps.refl _ | assumption | decide | refine admDone_keeps ?_ ?_ | refine admFinish_keeps ?_ ?_ | refine admStart_keeps ?_ ?_ (fun u a hu => ?_) | refine mirrorConn_keeps ?_ ?_ | refine setConn_keeps ?_ ?_ | refine Keeps.ite ?_ ?_ | (intro _ _) | split | dsimp only); clear_value s1)
  | (extract_lets +onlyGivenNames x1; clear_value x1)
  | refine admDone_keeps ?_ ?_
  | refine admFinish_keeps ?_ ?_
  | refine admStart_keeps ?_ ?_ (fun u a hu => ?_)
  | refine mirrorConn_keeps ?_ ?_
  | refine setConn_keeps ?_ ?_
  | refine Keeps.ite ?_ ?_
  | (intro _ _)
  | split
  | dsimp only

theorem execConnModify_keeps {mk : Nat} {sk : State} {s : State} (hk : Keeps mk sk s) (hm : 3237888 &&& mk = 3237888) :
    ∃ t', execConnModify s = .next t' ∧ Keeps mk sk t' := by
  suffices g : ∃ t', execConnModify s = .next t' ∧ Keeps 3237888 s t' from g.imp fun _ h => ⟨h.1, hk.trans (h.2.weaken hm)⟩
  refine ⟨_, rfl, ?_⟩
  with_reducible repeat' first
  | exact Keeps.refl _
  | assumption
  | decide
  | refine connModify_keeps ?_ ?_
  | (intro _ _)
  | split
  | dsimp only

theorem connResetCmd_keeps {mk : Nat} {sk : State} {s : State} (hk : Keeps mk sk s) (hm : 7367552 &&& mk = 7367552) :
    Keeps mk sk (connResetCmd s) := by
  suffices g : Keeps 7367552 s (connResetCmd s) from hk.trans (g.weaken hm)
  unfold connResetCmd
  with_reducible repeat' first
  | exact Keeps.refl _
  | assumption
  | decide
  | (extract_lets +onlyGivenNames q1; have hq1 : Keeps 7367552 s q1.1 := (by unfold q1; repeat' first | exact Keeps.refl _ | assumption | decide | refine admFinish_keeps ?_ ?_ | refine admStart_keeps ?_ ?_ (fun u a hu => ?_) | refine admWait_keeps ?_ ?_ | refine startRequest_keeps ?_ ?_ | refine Keeps.ite ?_ ?_ | (intro _ _) | split | dsimp only); clear_value q1)
  | (extract_lets +onlyGivenNames s1; have h1 : Keeps 7367552 s s1 := (by unfold s1; repeat' first | exact Keeps.refl _ | assumption | decide | refine admFinish_keeps ?_ ?_ | refine admStart_keeps ?_ ?_ (fun u a hu => ?_) | refine admWait_keeps ?_ ?_ | refine startRequest_keeps ?_ ?_ | refine Keeps.ite ?_ ?_ | (intro _ _) | split | dsimp only); clear_value s1)
  | (extract_lets +onlyGivenNames x1; clear_value x1)
  | refine admFinish_keeps ?_ ?_
  | refine admStart_keeps ?_ ?_ (fun u a hu => ?_)
  | refine admWait_keeps ?_ ?_
  | refine startRequest_keeps ?_ ?_
  | refine Keeps.ite ?_ ?_
  | (intro _ _)
  | split
  | dsimp only

theorem execConnReset_keeps {mk : Nat} {sk : State} {s : State} (hk : Keeps mk sk s) (hm : 7367552 &&& mk = 7367552) :
    ∃ t', execConnReset s = .next t' ∧ Keeps mk sk t' := by
  suffices g : ∃ t', execConnReset s = .next t' ∧ Keeps 7367552 s t' from g.imp fun _ h => ⟨h.1, hk.trans (h.2.weaken hm)⟩
  refine ⟨_, rfl, ?_⟩
  with_reducible repeat' first
  | exact Keeps.refl _
  | assumption
  | decide
  | refine connResetCmd_keeps ?_ ?_
  | (intro _ _)
  | split
  | dsimp only

theorem connReadCmd_keeps {mk : Nat} {sk : State} {s : State} (hk : Keeps mk sk s) (hm : 2121728 &&& mk = 2121728) :
    Keeps mk sk (connReadCmd s) := by
  suffices g : Keeps 2121728 s (connReadCmd s) from hk.trans (g.weaken hm)
  unfold connReadCmd
  with_reducible repeat' first
  | exact Keeps.refl _
  | assumption
  | decide
  | (extract_lets +onlyGivenNames q1; have hq1 : Keeps 2121728 s q1.1 := (by unfold q1; repeat' first | exact Keeps.refl _ | assumption | decide | refine admDone_keeps ?_ ?_ | refine admFinish_keeps ?_ ?_ | refine admStart_keeps ?_ ?_ (fun u a hu => ?_) | refine hostPost_keeps ?_ ?_ | refine Keeps.ite ?_ ?_ | (intro _ _) | split | dsimp only); clear_value q1)
  | (extract_lets +onlyGivenNames s1; have h1 : Keeps 2121728 s s1 := (by unfold s1; repeat' first | exact Keeps.refl _ | assumption | decide | refine admDone_keeps ?_ ?_ | refine admFinish_keeps ?_ ?_ | refine admStart_keeps ?_ ?_ (fun u a hu => ?_) | refine hostPost_keeps ?_ ?_ | refine Keeps.ite ?_ ?_ | (intro _ _) | split | dsimp only); clear_value s1)
  | (extract_lets +onlyGivenNames x1; clear_value x1)
  | refine admDone_keeps ?_ ?_
  | refine admFinish_keeps ?_ ?_
  | refine admStart_keeps ?_ ?_ (fun u a hu => ?_)
  | refine hostPost_keeps ?_ ?_
  | refine Keeps.ite ?_ ?_
  | (intro _ _)
  | split
  | dsimp only

theorem execConnRead_keeps {mk : Nat} {sk : State} {s : State} (hk : Keeps mk sk s) (hm : 2121728 &&& mk = 2121728) :
    ∃ t', execConnRead s = .next t' ∧ Keeps mk sk t' := by
  suffices g : ∃ t', execConnRead s = .next t' ∧ Keeps 2121728 s t' from g.imp fun _ h => ⟨h.1, hk.trans (h.2.weaken hm)⟩
  refine ⟨_, rfl, ?_⟩
  with_reducible repeat' first
  | exact Keeps.refl _
  | assumption
  | decide
  | refine connReadCmd_keeps ?_ ?_
  | (intro _ _)
  | split
  | dsimp only

theorem connCloseCmd_keeps {mk : Nat} {sk : State} {s : State} (hk : Keeps mk sk s) (hm : 7568256 &&& mk = 7568256) :
    Keeps mk sk (connCloseCmd s) := by
  suffices g : Keeps 7568256 s (connCloseCmd s) from hk.trans (g.weaken hm)
  unfold connCloseCmd
  with_reducible repeat' first
  | exact Keeps.refl _
  | assumption
  | decide
  | (extract_lets +onlyGivenNames q1; have hq1 : Keeps 7568256 s q1.1 := (by unfold q1; repeat' first | exact Keeps.refl _ | assumption | decide | refine admFinish_keeps ?_ ?_ | refine admStart_keeps ?_ ?_ (fun u a hu => ?_) | refine admWait_keeps ?_ ?_ | refine ownerClose_keeps ?_ ?_ | refine Keeps.ite ?_ ?_ | (intro _ _) | split | dsimp only); clear_value q1)
  | (extract_lets +onlyGivenNames s1; have h1 : Keeps 7568256 s s1 := (by unfold s1; repeat' first | exact Keeps.refl _ | assumption | decide | refine admFinish_keeps ?_ ?_ | refine admStart_keeps ?_ ?_ (fun u a hu => ?_) | refine admWait_keeps ?_ ?_ | refine ownerClose_keeps ?_ ?_ | refine Keeps.ite ?_ ?_ | (intro _ _) | split | dsimp only); clear_value s1)
  | (extract_lets +onlyGivenNames x1; clear_value x1)
  | refine admFinish_keeps ?_ ?_
  | refine admStart_keeps ?_ ?_ (fun u a hu => ?_)
  | refine admWait_keeps ?_ ?_
  | refine ownerClose_keeps ?_ ?_
  | refine Keeps.ite ?_ ?_
  | (intro _ _)
  | split
  | dsimp only

theorem execConnClose_keeps {mk : Nat} {sk : State} {s : State} (hk : Keeps mk sk s) (hm : 7568256 &&& mk = 7568256) :
    ∃ t', execConnClose s = .next t' ∧ Keeps mk sk t' := by
  suffices g : ∃ t', execConnClose s = .next t' ∧ Keeps 7568256 s t' from g.imp fun _ h => ⟨h.1, hk.trans (h.2.weaken hm)⟩
  refine ⟨_, rfl, ?_⟩
  with_reducible repeat' first
  | exact Keeps.refl _
  | assumption
  | decide
  | refine connCloseCmd_keeps ?_ ?_
  | (intro _ _)
  | split
  | dsimp only

theorem ledgerReadCmd_keeps {mk : Nat} {sk : State} {s : State} (hk : Keeps mk sk s) (hm : 2121728 &&& mk = 2121728) :
    Keeps mk sk (ledgerReadCmd s) := by
  suffices g : Keeps 2121728 s (ledgerReadCmd s) from hk.trans (g.weaken hm)
  unfold ledgerReadCmd
  with_reducible repeat' first
  | exact Keeps.refl _
  | assumption
  | decide
  | (extract_lets +onlyGivenNames q1; have hq1 : Keeps 2121728 s q1.1 := (by unfold q1; repeat' first | exact Keeps.refl _ | assumption | decide | refine admDone_keeps ?_ ?_ | refine admFinish_keeps ?_ ?_ | refine admStart_keeps ?_ ?_ (fun u a hu => ?_) | refine hostPost_keeps ?_ ?_ | refine Keeps.ite ?_ ?_ | (intro _ _) | split | dsimp only); clear_value q1)
  | (extract_lets +onlyGivenNames s1; have h1 : Keeps 2121728 s s1 := (by unfold s1; repeat' first | exact Keeps.refl _ | assumption | decide | refine admDone_keeps ?_ ?_ | refine admFinish_keeps ?_ ?_ | refine admStart_keeps ?_ ?_ (fun u a hu => ?_) | refine hostPost_keeps ?_ ?_ | refine Keeps.ite ?_ ?_ | (intro _ _) | split | dsimp only); clear_value s1)
  | (extract_lets +onlyGivenNames x1; clear_value x1)
  | refine admDone_keeps ?_ ?_
  | refine admFinish_keeps ?_ ?_
  | refine admStart_keeps ?_ ?_ (fun u a hu => ?_)
  | refine hostPost_keeps ?_ ?_
  | refine Keeps.ite ?_ ?_
  | (intro _ _)
  | split
  | dsimp only

theorem execLedgerRead_keeps {mk : Nat} {sk : State} {s : State} (hk : Keeps mk sk s) (hm : 2121728 &&& mk = 2121728) :
    ∃ t', execLedgerRead s = .next t' ∧ Keeps mk sk t' := by
  suffices g : ∃ t', execLedgerRead s = .next t' ∧ Keeps 2121728 s t' from g.imp fun _ h => ⟨h.1, hk.trans (h.2.weaken hm)⟩
  refine ⟨_, rfl, ?_⟩
  with_reducible repeat' first
  | exact Keeps.refl _
  | assumption
  | decide
  | refine ledgerReadCmd_keeps ?_ ?_
  | (intro _ _)
  | split
  | dsimp only


theorem onInst_keeps {mk : Nat} {sk s : State} {c : AdmCmd} {f : State → InstState → State} (hk : Keeps mk sk s) (hm : 2121728 &&& mk = 2121728)
    (hf : ∀ u x, Keeps mk sk u → Keeps mk sk (f u x)) : Keeps mk sk (onInst s c f) := by
  have w : ∀ {a : Nat} , a &&& 2121728 = a → a &&& mk = a := fun h => by
    rename_i a
    rw [← h, Nat.and_assoc, hm]
  unfold onInst
  split
  · exact hf _ _ hk
  · exact admFinish_keeps hk (w (by decide))
  · exact admFinish_keeps hk (w (by decide))

theorem fenceBind_keeps {mk : Nat} {sk : State} {s : State} (hk : Keeps mk sk s) (hm : 2121728 &&& mk = 2121728) :
    Keeps mk sk (fenceBind s) := by
  suffices g : Keeps 2121728 s (fenceBind s) from hk.trans (g.weaken hm)
  unfold fenceBind
  with_reducible repeat' first
  | exact Keeps.refl _
  | assumption
  | decide
  | (extract_lets +onlyGivenNames q1; have hq1 : Keeps 2121728 s q1.1 := (by unfold q1; repeat' first | exact Keeps.refl _ | assumption | decide | refine admDone_keeps ?_ ?_ | refine admFinish_keeps ?_ ?_ | refine admStart_keeps ?_ ?_ (fun u a hu => ?_) | refine onInst_keeps ?_ ?_ (fun u a hu => ?_) | refine setInst_keeps ?_ ?_ | refine Keeps.ite ?_ ?_ | (intro _ _) | split | dsimp only); clear_value q1)
  | (extract_lets +onlyGivenNames s1; have h1 : Keeps 2121728 s s1 := (by unfold s1; repeat' first | exact Keeps.refl _ | assumption | decide | refine admDone_keeps ?_ ?_ | refine admFinish_keeps ?_ ?_ | refine admStart_keeps ?_ ?_ (fun u a hu => ?_) | refine onInst_keeps ?_ ?_ (fun u a hu => ?_) | refine setInst_keeps ?_ ?_ | refine Keeps.ite ?_ ?_ | (intro _ _) | split | dsimp only); clear_value s1)
  | (extract_lets +onlyGivenNames x1; clear_value x1)
  | refine admDone_keeps ?_ ?_
  | refine admFinish_keeps ?_ ?_
  | refine admStart_keeps ?_ ?_ (fun u a hu => ?_)
  | refine onInst_keeps ?_ ?_ (fun u a hu => ?_)
  | refine setInst_keeps ?_ ?_
  | refine Keeps.ite ?_ ?_
  | (intro _ _)
  | split
  | dsimp only

theorem execFenceBind_keeps {mk : Nat} {sk : State} {s : State} (hk : Keeps mk sk s) (hm : 2121728 &&& mk = 2121728) :
    ∃ t', execFenceBind s = .next t' ∧ Keeps mk sk t' := by
  suffices g : ∃ t', execFenceBind s = .next t' ∧ Keeps 2121728 s t' from g.imp fun _ h => ⟨h.1, hk.trans (h.2.weaken hm)⟩
  refine ⟨_, rfl, ?_⟩
  with_reducible repeat' first
  | exact Keeps.refl _
  | assumption
  | decide
  | refine fenceBind_keeps ?_ ?_
  | (intro _ _)
  | split
  | dsimp only

theorem queueCreate_keeps {mk : Nat} {sk : State} {s : State} (hk : Keeps mk sk s) (hm : 7364608 &&& mk = 7364608) :
    Keeps mk sk (queueCreate s) := by
  suffices g : Keeps 7364608 s (queueCreate s) from hk.trans (g.weaken hm)
  unfold queueCreate
  with_reducible repeat' first
  | exact Keeps.refl _
  | assumption
  | decide
  | (extract_lets +onlyGivenNames q1; have hq1 : Keeps 7364608 s q1.1 := (by unfold q1; repeat' first | exact Keeps.refl _ | assumption | decide | refine admDone_keeps ?_ ?_ | refine admFinish_keeps ?_ ?_ | refine admStart_keeps ?_ ?_ (fun u a hu => ?_) | refine onInst_keeps ?_ ?_ (fun u a hu => ?_) | refine setInst_keeps ?_ ?_ | refine shareRefused_keeps ?_ ?_ | refine Keeps.ite ?_ ?_ | (intro _ _) | split | dsimp only); clear_value q1)
  | (extract_lets +onlyGivenNames s1; have h1 : Keeps 7364608 s s1 := (by unfold s1; repeat' first | exact Keeps.refl _ | assumption | decide | refine admDone_keeps ?_ ?_ | refine admFinish_keeps ?_ ?_ | refine admStart_keeps ?_ ?_ (fun u a hu => ?_) | refine onInst_keeps ?_ ?_ (fun u a hu => ?_) | refine setInst_keeps ?_ ?_ | refine shareRefused_keeps ?_ ?_ | refine Keeps.ite ?_ ?_ | (intro _ _) | split | dsimp only); clear_value s1)
  | (extract_lets +onlyGivenNames x1; clear_value x1)
  | refine admDone_keeps ?_ ?_
  | refine admFinish_keeps ?_ ?_
  | refine admStart_keeps ?_ ?_ (fun u a hu => ?_)
  | refine onInst_keeps ?_ ?_ (fun u a hu => ?_)
  | refine setInst_keeps ?_ ?_
  | refine shareRefused_keeps ?_ ?_
  | refine Keeps.ite ?_ ?_
  | (intro _ _)
  | split
  | dsimp only

theorem execQueueCreate_keeps {mk : Nat} {sk : State} {s : State} (hk : Keeps mk sk s) (hm : 7364608 &&& mk = 7364608) :
    ∃ t', execQueueCreate s = .next t' ∧ Keeps mk sk t' := by
  suffices g : ∃ t', execQueueCreate s = .next t' ∧ Keeps 7364608 s t' from g.imp fun _ h => ⟨h.1, hk.trans (h.2.weaken hm)⟩
  refine ⟨_, rfl, ?_⟩
  with_reducible repeat' first
  | exact Keeps.refl _
  | assumption
  | decide
  | refine queueCreate_keeps ?_ ?_
  | (intro _ _)
  | split
  | dsimp only

theorem queueGone_keeps {mk : Nat} {sk : State} {s : State} {i : Nat} {q : Nat} (hk : Keeps mk sk s) (hm : 2121728 &&& mk = 2121728) :
    Keeps mk sk (queueGone s i q) := by
  suffices g : Keeps 2121728 s (queueGone s i q) from hk.trans (g.weaken hm)
  unfold queueGone
  with_reducible repeat' first
  | exact Keeps.refl _
  | assumption
  | decide
  | refine finishWaits_keeps ?_ ?_
  | refine setInst_keeps ?_ ?_
  | refine Keeps.ite ?_ ?_
  | (intro _ _)
  | split
  | dsimp only

theorem queueDelete_keeps {mk : Nat} {sk : State} {s : State} (hk : Keeps mk sk s) (hm : 2121728 &&& mk = 2121728) :
    Keeps mk sk (queueDelete s) := by
  suffices g : Keeps 2121728 s (queueDelete s) from hk.trans (g.weaken hm)
  unfold queueDelete
  with_reducible repeat' first
  | exact Keeps.refl _
  | assumption
  | decide
  | (extract_lets +onlyGivenNames q1; have hq1 : Keeps 2121728 s q1.1 := (by unfold q1; repeat' first | exact Keeps.refl _ | assumption | decide | refine admFinish_keeps ?_ ?_ | refine admStart_keeps ?_ ?_ (fun u a hu => ?_) | refine admWait_keeps ?_ ?_ | refine onInst_keeps ?_ ?_ (fun u a hu => ?_) | refine queueGone_keeps ?_ ?_ | refine setInst_keeps ?_ ?_ | (intro _ _) | split | dsimp only); clear_value q1)
  | (extract_lets +onlyGivenNames s1; have h1 : Keeps 2121728 s s1 := (by unfold s1; repeat' first | exact Keeps.refl _ | assumption | decide | refine admFinish_keeps ?_ ?_ | refine admStart_keeps ?_ ?_ (fun u a hu => ?_) | refine admWait_keeps ?_ ?_ | refine onInst_keeps ?_ ?_ (fun u a hu => ?_) | refine queueGone_keeps ?_ ?_ | refine setInst_keeps ?_ ?_ | (intro _ _) | split | dsimp only); clear_value s1)
  | (extract_lets +onlyGivenNames x1; clear_value x1)
  | refine admFinish_keeps ?_ ?_
  | refine admStart_keeps ?_ ?_ (fun u a hu => ?_)
  | refine admWait_keeps ?_ ?_
  | refine onInst_keeps ?_ ?_ (fun u a hu => ?_)
  | refine queueGone_keeps ?_ ?_
  | refine setInst_keeps ?_ ?_
  | (intro _ _)
  | split
  | dsimp only

theorem execQueueDelete_keeps {mk : Nat} {sk : State} {s : State} (hk : Keeps mk sk s) (hm : 2121728 &&& mk = 2121728) :
    ∃ t', execQueueDelete s = .next t' ∧ Keeps mk sk t' := by
  suffices g : ∃ t', execQueueDelete s = .next t' ∧ Keeps 2121728 s t' from g.imp fun _ h => ⟨h.1, hk.trans (h.2.weaken hm)⟩
  refine ⟨_, rfl, ?_⟩
  with_reducible repeat' first
  | exact Keeps.refl _
  | assumption
  | decide
  | refine queueDelete_keeps ?_ ?_
  | (intro _ _)
  | split
  | dsimp only

theorem shareSet_keeps {mk : Nat} {sk : State} {s : State} (hk : Keeps mk sk s) (hm : 7364608 &&& mk = 7364608) :
    Keeps mk sk (shareSet s) := by
  suffices g : Keeps 7364608 s (shareSet s) from hk.trans (g.weaken hm)
  unfold shareSet
  with_reducible repeat' first
  | exact Keeps.refl _
  | assumption
  | decide
  | (extract_lets +onlyGivenNames q1; have hq1 : Keeps 7364608 s q1.1 := (by unfold q1; repeat' first | exact Keeps.refl _ | assumption | decide | refine admDone_keeps ?_ ?_ | refine admFinish_keeps ?_ ?_ | refine admStart_keeps ?_ ?_ (fun u a hu => ?_) | refine eventIn_keeps ?_ ?_ | refine onInst_keeps ?_ ?_ (fun u a hu => ?_) | refine setInst_keeps ?_ ?_ | refine shareRefused_keeps ?_ ?_ | refine Keeps.ite ?_ ?_ | refine Keeps.iteFst ?_ ?_ | refine Keeps.foldl ?_ _ (fun u a hu => ?_) | refine Keeps.foldlFst ?_ _ (fun u a hu => ?_) | (intro _ _) | split | dsimp only); clear_value q1)
  | (extract_lets +onlyGivenNames s1; have h1 : Keeps 7364608 s s1 := (by unfold s1; repeat' first | exact Keeps.refl _ | assumption | decide | refine admDone_keeps ?_ ?_ | refine admFinish_keeps ?_ ?_ | refine admStart_keeps ?_ ?_ (fun u a hu => ?_) | refine eventIn_keeps ?_ ?_ | refine onInst_keeps ?_ ?_ (fun u a hu => ?_) | refine setInst_keeps ?_ ?_ | refine shareRefused_keeps ?_ ?_ | refine Keeps.ite ?_ ?_ | refine Keeps.iteFst ?_ ?_ | refine Keeps.foldl ?_ _ (fun u a hu => ?_) | refine Keeps.foldlFst ?_ _ (fun u a hu => ?_) | (intro _ _) | split | dsimp only); clear_value s1)
  | (extract_lets +onlyGivenNames x1; clear_value x1)
  | refine admDone_keeps ?_ ?_
  | refine admFinish_keeps ?_ ?_
  | refine admStart_keeps ?_ ?_ (fun u a hu => ?_)
  | refine eventIn_keeps ?_ ?_
  | refine onInst_keeps ?_ ?_ (fun u a hu => ?_)
  | refine setInst_keeps ?_ ?_
  | refine shareRefused_keeps ?_ ?_
  | refine Keeps.ite ?_ ?_
  | refine Keeps.iteFst ?_ ?_
  | refine Keeps.foldl ?_ _ (fun u a hu => ?_)
  | refine Keeps.foldlFst ?_ _ (fun u a hu => ?_)
  | (intro _ _)
  | split
  | dsimp only

theorem execShareSet_keeps {mk : Nat} {sk : State} {s : State} (hk : Keeps mk sk s) (hm : 7364608 &&& mk = 7364608) :
    ∃ t', execShareSet s = .next t' ∧ Keeps mk sk t' := by
  suffices g : ∃ t', execShareSet s = .next t' ∧ Keeps 7364608 s t' from g.imp fun _ h => ⟨h.1, hk.trans (h.2.weaken hm)⟩
  refine ⟨_, rfl, ?_⟩
  with_reducible repeat' first
  | exact Keeps.refl _
  | assumption
  | decide
  | refine shareSet_keeps ?_ ?_
  | (intro _ _)
  | split
  | dsimp only

theorem tuMapCmd_keeps {mk : Nat} {sk : State} {s : State} (hk : Keeps mk sk s) (hm : 8388569 &&& mk = 8388569) :
    Keeps mk sk (tuMapCmd s) := by
  suffices g : Keeps 8388569 s (tuMapCmd s) from hk.trans (g.weaken hm)
  unfold tuMapCmd
  with_reducible repeat' first
  | exact Keeps.refl _
  | assumption
  | decide
  | (extract_lets +onlyGivenNames q1; have hq1 : Keeps 8388569 s q1.1 := (by unfold q1; repeat' first | exact Keeps.refl _ | assumption | decide | refine admDone_keeps ?_ ?_ | refine admFinish_keeps ?_ ?_ | refine admStart_keeps ?_ ?_ (fun u a hu => ?_) | refine onInst_keeps ?_ ?_ (fun u a hu => ?_) | refine read_keeps ?_ ?_ | refine setInst_keeps ?_ ?_ | refine shareRefused_keeps ?_ ?_ | refine write_keeps ?_ ?_ | refine Keeps.ite ?_ ?_ | (intro _ _) | split | dsimp only); clear_value q1)
  | (extract_lets +onlyGivenNames s1; have h1 : Keeps 8388569 s s1 := (by unfold s1; repeat' first | exact Keeps.refl _ | assumption | decide | refine admDone_keeps ?_ ?_ | refine admFinish_keeps ?_ ?_ | refine admStart_keeps ?_ ?_ (fun u a hu => ?_) | refine onInst_keeps ?_ ?_ (fun u a hu => ?_) | refine read_keeps ?_ ?_ | refine setInst_keeps ?_ ?_ | refine shareRefused_keeps ?_ ?_ | refine write_keeps ?_ ?_ | refine Keeps.ite ?_ ?_ | (intro _ _) | split | dsimp only); clear_value s1)
  | (extract_lets +onlyGivenNames x1; clear_value x1)
  | refine admDone_keeps ?_ ?_
  | refine admFinish_keeps ?_ ?_
  | refine admStart_keeps ?_ ?_ (fun u a hu => ?_)
  | refine onInst_keeps ?_ ?_ (fun u a hu => ?_)
  | refine read_keeps ?_ ?_
  | refine setInst_keeps ?_ ?_
  | refine shareRefused_keeps ?_ ?_
  | refine write_keeps ?_ ?_
  | refine Keeps.ite ?_ ?_
  | (intro _ _)
  | split
  | dsimp only

theorem execTuMap_keeps {mk : Nat} {sk : State} {s : State} (hk : Keeps mk sk s) (hm : 8388569 &&& mk = 8388569) :
    ∃ t', execTuMap s = .next t' ∧ Keeps mk sk t' := by
  suffices g : ∃ t', execTuMap s = .next t' ∧ Keeps 8388569 s t' from g.imp fun _ h => ⟨h.1, hk.trans (h.2.weaken hm)⟩
  refine ⟨_, rfl, ?_⟩
  with_reducible repeat' first
  | exact Keeps.refl _
  | assumption
  | decide
  | refine tuMapCmd_keeps ?_ ?_
  | (intro _ _)
  | split
  | dsimp only

theorem tuUnmapCmd_keeps {mk : Nat} {sk : State} {s : State} (hk : Keeps mk sk s) (hm : 2121728 &&& mk = 2121728) :
    Keeps mk sk (tuUnmapCmd s) := by
  suffices g : Keeps 2121728 s (tuUnmapCmd s) from hk.trans (g.weaken hm)
  unfold tuUnmapCmd
  with_reducible repeat' first
  | exact Keeps.refl _
  | assumption
  | decide
  | (extract_lets +onlyGivenNames q1; have hq1 : Keeps 2121728 s q1.1 := (by unfold q1; repeat' first | exact Keeps.refl _ | assumption | decide | refine admDone_keeps ?_ ?_ | refine admFinish_keeps ?_ ?_ | refine admStart_keeps ?_ ?_ (fun u a hu => ?_) | refine admWait_keeps ?_ ?_ | refine onInst_keeps ?_ ?_ (fun u a hu => ?_) | refine setInst_keeps ?_ ?_ | refine Keeps.ite ?_ ?_ | (intro _ _) | split | dsimp only); clear_value q1)
  | (extract_lets +onlyGivenNames s1; have h1 : Keeps 2121728 s s1 := (by unfold s1; repeat' first | exact Keeps.refl _ | assumption | decide | refine admDone_keeps ?_ ?_ | refine admFinish_keeps ?_ ?_ | refine admStart_keeps ?_ ?_ (fun u a hu => ?_) | refine admWait_keeps ?_ ?_ | refine onInst_keeps ?_ ?_ (fun u a hu => ?_) | refine setInst_keeps ?_ ?_ | refine Keeps.ite ?_ ?_ | (intro _ _) | split | dsimp only); clear_value s1)
  | (extract_lets +onlyGivenNames x1; clear_value x1)
  | refine admDone_keeps ?_ ?_
  | refine admFinish_keeps ?_ ?_
  | refine admStart_keeps ?_ ?_ (fun u a hu => ?_)
  | refine admWait_keeps ?_ ?_
  | refine onInst_keeps ?_ ?_ (fun u a hu => ?_)
  | refine setInst_keeps ?_ ?_
  | refine Keeps.ite ?_ ?_
  | (intro _ _)
  | split
  | dsimp only

theorem execTuUnmap_keeps {mk : Nat} {sk : State} {s : State} (hk : Keeps mk sk s) (hm : 2121728 &&& mk = 2121728) :
    ∃ t', execTuUnmap s = .next t' ∧ Keeps mk sk t' := by
  suffices g : ∃ t', execTuUnmap s = .next t' ∧ Keeps 2121728 s t' from g.imp fun _ h => ⟨h.1, hk.trans (h.2.weaken hm)⟩
  refine ⟨_, rfl, ?_⟩
  with_reducible repeat' first
  | exact Keeps.refl _
  | assumption
  | decide
  | refine tuUnmapCmd_keeps ?_ ?_
  | (intro _ _)
  | split
  | dsimp only

theorem tuUnmapComplete_keeps {mk : Nat} {sk : State} {s : State} (hk : Keeps mk sk s) (hm : 2121728 &&& mk = 2121728) :
    Keeps mk sk (tuUnmapComplete s) := by
  suffices g : Keeps 2121728 s (tuUnmapComplete s) from hk.trans (g.weaken hm)
  unfold tuUnmapComplete
  with_reducible repeat' first
  | exact Keeps.refl _
  | assumption
  | decide
  | refine admSettled_keeps ?_ ?_
  | refine finishWaits_keeps ?_ ?_
  | (intro _ _)
  | split
  | dsimp only

theorem execTuUnmapComplete_keeps {mk : Nat} {sk : State} {s : State} (hk : Keeps mk sk s) (hm : 2121728 &&& mk = 2121728) :
    ∃ t', execTuUnmapComplete s = .next t' ∧ Keeps mk sk t' := by
  suffices g : ∃ t', execTuUnmapComplete s = .next t' ∧ Keeps 2121728 s t' from g.imp fun _ h => ⟨h.1, hk.trans (h.2.weaken hm)⟩
  refine ⟨_, rfl, ?_⟩
  with_reducible repeat' first
  | exact Keeps.refl _
  | assumption
  | decide
  | refine tuUnmapComplete_keeps ?_ ?_
  | (intro _ _)
  | split
  | dsimp only

theorem tuMode_keeps {mk : Nat} {sk : State} {s : State} (hk : Keeps mk sk s) (hm : 2121728 &&& mk = 2121728) :
    Keeps mk sk (tuMode s) := by
  suffices g : Keeps 2121728 s (tuMode s) from hk.trans (g.weaken hm)
  unfold tuMode
  with_reducible repeat' first
  | exact Keeps.refl _
  | assumption
  | decide
  | refine admDone_keeps ?_ ?_
  | refine admFinish_keeps ?_ ?_
  | refine admStart_keeps ?_ ?_ (fun u a hu => ?_)
  | refine onInst_keeps ?_ ?_ (fun u a hu => ?_)
  | refine setInst_keeps ?_ ?_
  | refine Keeps.ite ?_ ?_
  | (intro _ _)
  | split
  | dsimp only

theorem execTuMode_keeps {mk : Nat} {sk : State} {s : State} (hk : Keeps mk sk s) (hm : 2121728 &&& mk = 2121728) :
    ∃ t', execTuMode s = .next t' ∧ Keeps mk sk t' := by
  suffices g : ∃ t', execTuMode s = .next t' ∧ Keeps 2121728 s t' from g.imp fun _ h => ⟨h.1, hk.trans (h.2.weaken hm)⟩
  refine ⟨_, rfl, ?_⟩
  with_reducible repeat' first
  | exact Keeps.refl _
  | assumption
  | decide
  | refine tuMode_keeps ?_ ?_
  | (intro _ _)
  | split
  | dsimp only

theorem vfMsgRing_keeps {mk : Nat} {sk : State} {i : Nat} {value : Nat} {s : State} (hk : Keeps mk sk s) (hm : 24576 &&& mk = 24576) :
    Keeps mk sk (vfMsgRing i value s) := by
  suffices g : Keeps 24576 s (vfMsgRing i value s) from hk.trans (g.weaken hm)
  unfold vfMsgRing
  with_reducible repeat' first
  | exact Keeps.refl _
  | assumption
  | decide
  | (extract_lets +onlyGivenNames s1; have h1 : Keeps 24576 s s1 := (by unfold s1; repeat' first | exact Keeps.refl _ | assumption | decide | refine msi_keeps ?_ ?_ | refine setInst_keeps ?_ ?_ | refine Keeps.ite ?_ ?_ | (fail_if_no_progress refine Keeps.eng' ?_ _ rfl) | (intro _ _) | split | dsimp only); clear_value s1)
  | (extract_lets +onlyGivenNames x1; clear_value x1)
  | refine msi_keeps ?_ ?_
  | refine setInst_keeps ?_ ?_
  | refine Keeps.ite ?_ ?_
  | (fail_if_no_progress refine Keeps.eng' ?_ _ rfl)
  | (intro _ _)
  | split
  | dsimp only

theorem execVfMsgRing_keeps {mk : Nat} {sk : State} {i : Inst} {value : Nat} {s : State} (hk : Keeps mk sk s) (hm : 24576 &&& mk = 24576) :
    ∃ t', execVfMsgRing i value s = .next t' ∧ Keeps mk sk t' := by
  suffices g : ∃ t', execVfMsgRing i value s = .next t' ∧ Keeps 24576 s t' from g.imp fun _ h => ⟨h.1, hk.trans (h.2.weaken hm)⟩
  refine ⟨_, rfl, ?_⟩
  with_reducible repeat' first
  | exact Keeps.refl _
  | assumption
  | decide
  | refine vfMsgRing_keeps ?_ ?_
  | (intro _ _)
  | split
  | dsimp only

theorem vfReplyWrite_keeps {mk : Nat} {sk : State} {v : Nat} {vf : Nat} {reply : List Byte} {s : State} (hk : Keeps mk sk s) (hm : 24576 &&& mk = 24576) :
    Keeps mk sk (vfReplyWrite v vf reply s) := by
  suffices g : Keeps 24576 s (vfReplyWrite v vf reply s) from hk.trans (g.weaken hm)
  unfold vfReplyWrite
  with_reducible repeat' first
  | exact Keeps.refl _
  | assumption
  | decide
  | (extract_lets +onlyGivenNames s1; have h1 : Keeps 24576 s s1 := (by unfold s1; repeat' first | exact Keeps.refl _ | assumption | decide | refine msi_keeps ?_ ?_ | refine setInst_keeps ?_ ?_ | refine Keeps.ite ?_ ?_ | (fail_if_no_progress refine Keeps.eng' ?_ _ rfl) | (intro _ _) | split | dsimp only); clear_value s1)
  | (extract_lets +onlyGivenNames x1; clear_value x1)
  | refine msi_keeps ?_ ?_
  | refine setInst_keeps ?_ ?_
  | refine Keeps.ite ?_ ?_
  | (fail_if_no_progress refine Keeps.eng' ?_ _ rfl)
  | (intro _ _)
  | split
  | dsimp only

theorem execVfReplyWrite_keeps {mk : Nat} {sk : State} {v : Vs} {vf : Fin 256} {reply : List Byte} {s : State} (hk : Keeps mk sk s) (hm : 24576 &&& mk = 24576) :
    ∃ t', execVfReplyWrite v vf reply s = .next t' ∧ Keeps mk sk t' := by
  suffices g : ∃ t', execVfReplyWrite v vf reply s = .next t' ∧ Keeps 24576 s t' from g.imp fun _ h => ⟨h.1, hk.trans (h.2.weaken hm)⟩
  refine ⟨_, rfl, ?_⟩
  with_reducible repeat' first
  | exact Keeps.refl _
  | assumption
  | decide
  | refine vfReplyWrite_keeps ?_ ?_
  | (intro _ _)
  | split
  | dsimp only

theorem vfEnable_keeps {mk : Nat} {sk : State} {v : Nat} {n : Nat} {s : State} (hk : Keeps mk sk s) (hm : 7364608 &&& mk = 7364608) :
    Keeps mk sk (vfEnable v n s) := by
  suffices g : Keeps 7364608 s (vfEnable v n s) from hk.trans (g.weaken hm)
  unfold vfEnable
  with_reducible repeat' first
  | exact Keeps.refl _
  | assumption
  | decide
  | (extract_lets +onlyGivenNames s1; have h1 : Keeps 7364608 s s1 := (by unfold s1; repeat' first | exact Keeps.refl _ | assumption | decide | refine eventIn_keeps ?_ ?_ | refine setAdm_keeps ?_ ?_ | refine setInst_keeps ?_ ?_ | refine Keeps.ite ?_ ?_ | refine Keeps.iteFst ?_ ?_ | refine Keeps.foldl ?_ _ (fun u a hu => ?_) | refine Keeps.foldlFst ?_ _ (fun u a hu => ?_) | (intro _ _) | split | dsimp only); clear_value s1)
  | (extract_lets +onlyGivenNames x1; clear_value x1)
  | refine eventIn_keeps ?_ ?_
  | refine setAdm_keeps ?_ ?_
  | refine setInst_keeps ?_ ?_
  | refine Keeps.ite ?_ ?_
  | refine Keeps.iteFst ?_ ?_
  | refine Keeps.foldl ?_ _ (fun u a hu => ?_)
  | refine Keeps.foldlFst ?_ _ (fun u a hu => ?_)
  | (intro _ _)
  | split
  | dsimp only

theorem execVfEnable_keeps {mk : Nat} {sk : State} {v : Vs} {numVfs : Nat} {s : State} (hk : Keeps mk sk s) (hm : 7364608 &&& mk = 7364608) :
    ∃ t', execVfEnable v numVfs s = .next t' ∧ Keeps mk sk t' := by
  suffices g : ∃ t', execVfEnable v numVfs s = .next t' ∧ Keeps 7364608 s t' from g.imp fun _ h => ⟨h.1, hk.trans (h.2.weaken hm)⟩
  refine ⟨_, rfl, ?_⟩
  with_reducible repeat' first
  | exact Keeps.refl _
  | assumption
  | decide
  | refine vfEnable_keeps ?_ ?_
  | (intro _ _)
  | split
  | dsimp only

theorem fnCleared_keeps {mk : Nat} {sk : State} {s : State} {v : Nat} {fn : Nat} (hk : Keeps mk sk s) (hm : 256 &&& mk = 256) :
    Keeps mk sk (fnCleared s v fn) := by
  suffices g : Keeps 256 s (fnCleared s v fn) from hk.trans (g.weaken hm)
  unfold fnCleared
  with_reducible repeat' first
  | exact Keeps.refl _
  | assumption
  | decide
  | refine setPart_keeps ?_ ?_
  | (intro _ _)
  | split
  | dsimp only

theorem flrStart_keeps {mk : Nat} {sk : State} {s : State} {i : Nat} {ending : Bool} (hk : Keeps mk sk s) (hm : 3432704 &&& mk = 3432704) :
    Keeps mk sk (flrStart s i ending) := by
  suffices g : Keeps 3432704 s (flrStart s i ending) from hk.trans (g.weaken hm)
  unfold flrStart
  with_reducible repeat' first
  | exact Keeps.refl _
  | assumption
  | decide
  | (extract_lets +onlyGivenNames s1; have h1 : Keeps 3432704 s s1 := (by unfold s1; repeat' first | exact Keeps.refl _ | assumption | decide | refine finishWaits_keeps ?_ ?_ | refine fnCleared_keeps ?_ ?_ | refine reply_keeps ?_ ?_ | refine setInst_keeps ?_ ?_ | refine Keeps.ite ?_ ?_ | refine Keeps.iteFst ?_ ?_ | (fail_if_no_progress refine Keeps.eng' ?_ _ rfl) | (intro _ _) | split | dsimp only); clear_value s1)
  | (extract_lets +onlyGivenNames x1; clear_value x1)
  | refine finishWaits_keeps ?_ ?_
  | refine fnCleared_keeps ?_ ?_
  | refine reply_keeps ?_ ?_
  | refine setInst_keeps ?_ ?_
  | refine Keeps.ite ?_ ?_
  | refine Keeps.iteFst ?_ ?_
  | (fail_if_no_progress refine Keeps.eng' ?_ _ rfl)
  | (intro _ _)
  | split
  | dsimp only

theorem vfFlr_keeps {mk : Nat} {sk : State} {i : Nat} {s : State} (hk : Keeps mk sk s) (hm : 3432704 &&& mk = 3432704) :
    Keeps mk sk (vfFlr i s) := by
  suffices g : Keeps 3432704 s (vfFlr i s) from hk.trans (g.weaken hm)
  unfold vfFlr
  with_reducible repeat' first
  | exact Keeps.refl _
  | assumption
  | decide
  | refine flrStart_keeps ?_ ?_
  | (intro _ _)
  | split
  | dsimp only

theorem execVfFlr_keeps {mk : Nat} {sk : State} {i : Inst} {s : State} (hk : Keeps mk sk s) (hm : 3432704 &&& mk = 3432704) :
    ∃ t', execVfFlr i s = .next t' ∧ Keeps mk sk t' := by
  suffices g : ∃ t', execVfFlr i s = .next t' ∧ Keeps 3432704 s t' from g.imp fun _ h => ⟨h.1, hk.trans (h.2.weaken hm)⟩
  refine ⟨_, rfl, ?_⟩
  with_reducible repeat' first
  | exact Keeps.refl _
  | assumption
  | decide
  | refine vfFlr_keeps ?_ ?_
  | (intro _ _)
  | split
  | dsimp only

theorem vfDisable_keeps {mk : Nat} {sk : State} {v : Nat} {s : State} (hk : Keeps mk sk s) (hm : 3432704 &&& mk = 3432704) :
    Keeps mk sk (vfDisable v s) := by
  suffices g : Keeps 3432704 s (vfDisable v s) from hk.trans (g.weaken hm)
  unfold vfDisable
  with_reducible repeat' first
  | exact Keeps.refl _
  | assumption
  | decide
  | refine flrStart_keeps ?_ ?_
  | refine setAdm_keeps ?_ ?_
  | refine Keeps.ite ?_ ?_
  | refine Keeps.foldl ?_ _ (fun u a hu => ?_)
  | refine Keeps.foldlFst ?_ _ (fun u a hu => ?_)
  | (intro _ _)
  | split
  | dsimp only

theorem execVfDisable_keeps {mk : Nat} {sk : State} {v : Vs} {s : State} (hk : Keeps mk sk s) (hm : 3432704 &&& mk = 3432704) :
    ∃ t', execVfDisable v s = .next t' ∧ Keeps mk sk t' := by
  suffices g : ∃ t', execVfDisable v s = .next t' ∧ Keeps 3432704 s t' from g.imp fun _ h => ⟨h.1, hk.trans (h.2.weaken hm)⟩
  refine ⟨_, rfl, ?_⟩
  with_reducible repeat' first
  | exact Keeps.refl _
  | assumption
  | decide
  | refine vfDisable_keeps ?_ ?_
  | (intro _ _)
  | split
  | dsimp only

theorem vfFlrComplete_keeps {mk : Nat} {sk : State} {i : Nat} {s : State} (hk : Keeps mk sk s) (hm : 7364608 &&& mk = 7364608) :
    Keeps mk sk (vfFlrComplete i s) := by
  suffices g : Keeps 7364608 s (vfFlrComplete i s) from hk.trans (g.weaken hm)
  unfold vfFlrComplete
  with_reducible repeat' first
  | exact Keeps.refl _
  | assumption
  | decide
  | (extract_lets +onlyGivenNames s1; have h1 : Keeps 7364608 s s1 := (by unfold s1; repeat' first | exact Keeps.refl _ | assumption | decide | refine eventIn_keeps ?_ ?_ | refine setInst_keeps ?_ ?_ | refine Keeps.ite ?_ ?_ | (fail_if_no_progress refine Keeps.eng' ?_ _ rfl) | (intro _ _) | split | dsimp only); clear_value s1)
  | (extract_lets +onlyGivenNames x1; clear_value x1)
  | refine eventIn_keeps ?_ ?_
  | refine setInst_keeps ?_ ?_
  | refine Keeps.ite ?_ ?_
  | (fail_if_no_progress refine Keeps.eng' ?_ _ rfl)
  | (intro _ _)
  | split
  | dsimp only

theorem execVfFlrComplete_keeps {mk : Nat} {sk : State} {i : Inst} {s : State} (hk : Keeps mk sk s) (hm : 7364608 &&& mk = 7364608) :
    ∃ t', execVfFlrComplete i s = .next t' ∧ Keeps mk sk t' := by
  suffices g : ∃ t', execVfFlrComplete i s = .next t' ∧ Keeps 7364608 s t' from g.imp fun _ h => ⟨h.1, hk.trans (h.2.weaken hm)⟩
  refine ⟨_, rfl, ?_⟩
  with_reducible repeat' first
  | exact Keeps.refl _
  | assumption
  | decide
  | refine vfFlrComplete_keeps ?_ ?_
  | (intro _ _)
  | split
  | dsimp only

theorem revokeWindows_keeps {mk : Nat} {sk : State} {s : State} {v : Nat} (hk : Keeps mk sk s) (hm : 1052672 &&& mk = 1052672) :
    Keeps mk sk (revokeWindows s v).1 := by
  suffices g : Keeps 1052672 s (revokeWindows s v).1 from hk.trans (g.weaken hm)
  unfold revokeWindows
  with_reducible repeat' first
  | exact Keeps.refl _
  | assumption
  | decide
  | (extract_lets +onlyGivenNames s1; have h1 : Keeps 1052672 s s1 := (by unfold s1; repeat' first | exact Keeps.refl _ | assumption | decide | refine startRevoke_keeps ?_ ?_ | refine Keeps.foldl ?_ _ (fun u a hu => ?_) | refine Keeps.foldlFst ?_ _ (fun u a hu => ?_) | (intro _ _) | split | dsimp only); clear_value s1)
  | (extract_lets +onlyGivenNames x1; clear_value x1)
  | refine startRevoke_keeps ?_ ?_
  | refine Keeps.foldl ?_ _ (fun u a hu => ?_)
  | refine Keeps.foldlFst ?_ _ (fun u a hu => ?_)
  | (intro _ _)
  | split
  | dsimp only

theorem pfFlr_keeps {mk : Nat} {sk : State} {v : Nat} {s : State} (hk : Keeps mk sk s) (hm : 7830408 &&& mk = 7830408) :
    Keeps mk sk (pfFlr v s) := by
  suffices g : Keeps 7830408 s (pfFlr v s) from hk.trans (g.weaken hm)
  unfold pfFlr
  with_reducible repeat' first
  | exact Keeps.refl _
  | assumption
  | decide
  | (extract_lets +onlyGivenNames s1; have h1 : Keeps 7830408 s s1 := (by unfold s1; repeat' first | exact Keeps.refl _ | assumption | decide | refine endMailbox_keeps ?_ ?_ | refine fnCleared_keeps ?_ ?_ | refine ownerClose_keeps ?_ ?_ | refine setAdm_keeps ?_ ?_ | refine startRevoke_keeps ?_ ?_ | refine vfDisable_keeps ?_ ?_ | refine winEvent_keeps ?_ ?_ | refine Keeps.foldl ?_ _ (fun u a hu => ?_) | refine Keeps.foldlFst ?_ _ (fun u a hu => ?_) | (fail_if_no_progress refine Keeps.win' ?_ _ rfl) | (fail_if_no_progress refine Keeps.eng' ?_ _ rfl) | (fail_if_no_progress (refine Keeps.several ?_ (by refine ⟨?_, ?_, ?_, ?_, ?_, ?_, ?_, ?_, ?_, ?_, ?_, ?_, ?_, ?_, ?_, ?_, ?_, ?_, ?_, ?_⟩ <;> first | exact Or.inl rfl | exact Or.inr rfl))) | (intro _ _) | split | dsimp only); clear_value s1)
  | (extract_lets +onlyGivenNames x1; clear_value x1)
  | refine endMailbox_keeps ?_ ?_
  | refine fnCleared_keeps ?_ ?_
  | refine ownerClose_keeps ?_ ?_
  | refine setAdm_keeps ?_ ?_
  | refine startRevoke_keeps ?_ ?_
  | refine vfDisable_keeps ?_ ?_
  | refine winEvent_keeps ?_ ?_
  | refine Keeps.foldl ?_ _ (fun u a hu => ?_)
  | refine Keeps.foldlFst ?_ _ (fun u a hu => ?_)
  | (fail_if_no_progress refine Keeps.win' ?_ _ rfl)
  | (fail_if_no_progress refine Keeps.eng' ?_ _ rfl)
  | (fail_if_no_progress (refine Keeps.several ?_ (by refine ⟨?_, ?_, ?_, ?_, ?_, ?_, ?_, ?_, ?_, ?_, ?_, ?_, ?_, ?_, ?_, ?_, ?_, ?_, ?_, ?_⟩ <;> first | exact Or.inl rfl | exact Or.inr rfl)))
  | (intro _ _)
  | split
  | dsimp only

theorem execPfFlr_keeps {mk : Nat} {sk : State} {v : Vs} {s : State} (hk : Keeps mk sk s) (hm : 7830408 &&& mk = 7830408) :
    ∃ t', execPfFlr v s = .next t' ∧ Keeps mk sk t' := by
  suffices g : ∃ t', execPfFlr v s = .next t' ∧ Keeps 7830408 s t' from g.imp fun _ h => ⟨h.1, hk.trans (h.2.weaken hm)⟩
  refine ⟨_, rfl, ?_⟩
  with_reducible repeat' first
  | exact Keeps.refl _
  | assumption
  | decide
  | refine pfFlr_keeps ?_ ?_
  | (intro _ _)
  | split
  | dsimp only

theorem setQueueOf_keeps {mk : Nat} {sk : State} {s : State} {i : Nat} {q : Nat} {k : Queue} (hk : Keeps mk sk s) (hm : 8192 &&& mk = 8192) :
    Keeps mk sk (setQueueOf s i q k) := by
  suffices g : Keeps 8192 s (setQueueOf s i q k) from hk.trans (g.weaken hm)
  unfold setQueueOf
  with_reducible repeat' first
  | exact Keeps.refl _
  | assumption
  | decide
  | refine setInst_keeps ?_ ?_
  | (intro _ _)
  | split
  | dsimp only

theorem stopQueue_keeps {mk : Nat} {sk : State} {s : State} {i : Nat} {q : Nat} {cause : Nat} (hk : Keeps mk sk s) (hm : 7364608 &&& mk = 7364608) :
    Keeps mk sk (stopQueue s i q cause) := by
  suffices g : Keeps 7364608 s (stopQueue s i q cause) from hk.trans (g.weaken hm)
  unfold stopQueue
  with_reducible repeat' first
  | exact Keeps.refl _
  | assumption
  | decide
  | (extract_lets +onlyGivenNames s1; have h1 : Keeps 7364608 s s1 := (by unfold s1; repeat' first | exact Keeps.refl _ | assumption | decide | refine eventIn_keeps ?_ ?_ | refine setInst_keeps ?_ ?_ | (intro _ _) | split | dsimp only); clear_value s1)
  | (extract_lets +onlyGivenNames x1; clear_value x1)
  | refine eventIn_keeps ?_ ?_
  | refine setInst_keeps ?_ ?_
  | (intro _ _)
  | split
  | dsimp only

theorem sqTailDoorbell_keeps {mk : Nat} {sk : State} {i : Nat} {q : Nat} {tail : Nat} {s : State} (hk : Keeps mk sk s) (hm : 7364608 &&& mk = 7364608) :
    Keeps mk sk (sqTailDoorbell i q tail s) := by
  suffices g : Keeps 7364608 s (sqTailDoorbell i q tail s) from hk.trans (g.weaken hm)
  unfold sqTailDoorbell
  with_reducible repeat' first
  | exact Keeps.refl _
  | assumption
  | decide
  | refine setQueueOf_keeps ?_ ?_
  | refine stopQueue_keeps ?_ ?_
  | refine Keeps.ite ?_ ?_
  | (intro _ _)
  | split
  | dsimp only

theorem execSqTailDoorbell_keeps {mk : Nat} {sk : State} {i : Inst} {q : Fin 16} {tail : Nat} {s : State} (hk : Keeps mk sk s) (hm : 7364608 &&& mk = 7364608) :
    ∃ t', execSqTailDoorbell i q tail s = .next t' ∧ Keeps mk sk t' := by
  suffices g : ∃ t', execSqTailDoorbell i q tail s = .next t' ∧ Keeps 7364608 s t' from g.imp fun _ h => ⟨h.1, hk.trans (h.2.weaken hm)⟩
  refine ⟨_, rfl, ?_⟩
  with_reducible repeat' first
  | exact Keeps.refl _
  | assumption
  | decide
  | refine sqTailDoorbell_keeps ?_ ?_
  | (intro _ _)
  | split
  | dsimp only

theorem toHost_keeps {mk : Nat} {sk : State} {s : State} {v : Nat} {req : Nat} {t : Tlp} (hk : Keeps mk sk s) (hm : 7502720 &&& mk = 7502720) :
    Keeps mk sk (toHost s v req t) := by
  suffices g : Keeps 7502720 s (toHost s v req t) from hk.trans (g.weaken hm)
  unfold toHost
  with_reducible repeat' first
  | exact Keeps.refl _
  | assumption
  | decide
  | (extract_lets +onlyGivenNames s1; have h1 : Keeps 7502720 s s1 := (by unfold s1; repeat' first | exact Keeps.refl _ | assumption | decide | refine deliverTlp_keeps ?_ ?_ | refine presentTunnel_keeps ?_ ?_ | refine Keeps.ite ?_ ?_ | (fail_if_no_progress refine Keeps.eng' ?_ _ rfl) | (intro _ _) | split | dsimp only); clear_value s1)
  | (extract_lets +onlyGivenNames x1; clear_value x1)
  | refine deliverTlp_keeps ?_ ?_
  | refine presentTunnel_keeps ?_ ?_
  | refine Keeps.ite ?_ ?_
  | (fail_if_no_progress refine Keeps.eng' ?_ _ rfl)
  | (intro _ _)
  | split
  | dsimp only

theorem readLocal_keeps {mk : Nat} {sk : State} {s : State} {t : Ticket} {d : DescState} (hk : Keeps mk sk s) (hm : 7502720 &&& mk = 7502720) :
    Keeps mk sk (readLocal s t d) := by
  suffices g : Keeps 7502720 s (readLocal s t d) from hk.trans (g.weaken hm)
  unfold readLocal
  with_reducible repeat' first
  | exact Keeps.refl _
  | assumption
  | decide
  | (extract_lets +onlyGivenNames s1; have h1 : Keeps 7502720 s s1 := (by unfold s1; repeat' first | exact Keeps.refl _ | assumption | decide | refine descCond_keeps ?_ ?_ | refine descMod_keeps ?_ ?_ | refine toHost_keeps ?_ ?_ | refine translationFault_keeps ?_ ?_ | refine Keeps.foldl ?_ _ (fun u a hu => ?_) | refine Keeps.foldlFst ?_ _ (fun u a hu => ?_) | (fail_if_no_progress refine Keeps.eng' ?_ _ rfl) | (intro _ _) | split | dsimp only); clear_value s1)
  | (extract_lets +onlyGivenNames x1; clear_value x1)
  | refine descCond_keeps ?_ ?_
  | refine descMod_keeps ?_ ?_
  | refine toHost_keeps ?_ ?_
  | refine translationFault_keeps ?_ ?_
  | refine Keeps.foldl ?_ _ (fun u a hu => ?_)
  | refine Keeps.foldlFst ?_ _ (fun u a hu => ?_)
  | (fail_if_no_progress refine Keeps.eng' ?_ _ rfl)
  | (intro _ _)
  | split
  | dsimp only

theorem fetchDescriptor_keeps {mk : Nat} {sk : State} {s : State} {i : Nat} {q : Nat} {f : Nat → Bool} (hk : Keeps mk sk s) (hm : 7502720 &&& mk = 7502720) :
    Keeps mk sk (fetchDescriptor s i q f) := by
  suffices g : Keeps 7502720 s (fetchDescriptor s i q f) from hk.trans (g.weaken hm)
  unfold fetchDescriptor
  with_reducible repeat' first
  | exact Keeps.refl _
  | assumption
  | decide
  | (extract_lets +onlyGivenNames q1; have hq1 : Keeps 7502720 s q1.1 := (by unfold q1; repeat' first | exact Keeps.refl _ | assumption | decide | refine count_keeps ?_ ?_ | refine descCond_keeps ?_ ?_ | refine eventIn_keeps ?_ ?_ | refine hostFetch_keeps ?_ ?_ | refine readLocal_keeps ?_ ?_ | refine setQueueOf_keeps ?_ ?_ | refine stopQueue_keeps ?_ ?_ | refine translationFault_keeps ?_ ?_ | refine Keeps.ite ?_ ?_ | refine Keeps.ofPair (by assumption) ?_ | (intro _ _) | split | dsimp only); clear_value q1)
  | (extract_lets +onlyGivenNames s1; have h1 : Keeps 7502720 s s1 := (by unfold s1; repeat' first | exact Keeps.refl _ | assumption | decide | refine count_keeps ?_ ?_ | refine descCond_keeps ?_ ?_ | refine eventIn_keeps ?_ ?_ | refine hostFetch_keeps ?_ ?_ | refine readLocal_keeps ?_ ?_ | refine setQueueOf_keeps ?_ ?_ | refine stopQueue_keeps ?_ ?_ | refine translationFault_keeps ?_ ?_ | refine Keeps.ite ?_ ?_ | refine Keeps.ofPair (by assumption) ?_ | (intro _ _) | split | dsimp only); clear_value s1)
  | (extract_lets +onlyGivenNames x1; clear_value x1)
  | refine count_keeps ?_ ?_
  | refine descCond_keeps ?_ ?_
  | refine eventIn_keeps ?_ ?_
  | refine hostFetch_keeps ?_ ?_
  | refine readLocal_keeps ?_ ?_
  | refine setQueueOf_keeps ?_ ?_
  | refine stopQueue_keeps ?_ ?_
  | refine translationFault_keeps ?_ ?_
  | refine Keeps.ite ?_ ?_
  | refine Keeps.ofPair (by assumption) ?_
  | (intro _ _)
  | split
  | dsimp only


theorem presentDesc_keeps {mk : Nat} {sk s : State} {t : Ticket} {d : DescState} (hk : Keeps mk sk s) (hm : 7367552 &&& mk = 7367552) :
    Keeps mk sk (presentDesc s t d) := by
  suffices g : Keeps 7367552 s (presentDesc s t d) from hk.trans (g.weaken hm)
  unfold presentDesc
  extract_lets +onlyGivenNames o s1
  have h1 : Keeps 7367552 s s1 := descMod_keeps (Keeps.refl s) (by decide)
  clear_value s1 o
  refine Keeps.ite h1 ?_
  split
  · exact Keeps.ite h1 (descCond_keeps h1 (by decide))
  · extract_lets +onlyGivenNames put fence s2
    have hp : ∀ u op, Keeps 7367552 s u → Keeps 7367552 s (put u op) := fun u op hu => present_keeps (descMod_keeps hu (by decide)) (by decide)
    have hf : ∀ u, Keeps 7367552 s u → Keeps 7367552 s (fence u) := fun u hu => presentFence_keeps (descMod_keeps hu (by decide)) (by decide)
    have h2 : Keeps 7367552 s s2 := Keeps.ite (hf _ h1) h1
    clear_value s2 put fence
    extract_lets +onlyGivenNames data ps last s3
    have h3 : Keeps 7367552 s s3 := by
      unfold s3
      split
      · exact Keeps.foldl h2 _ (fun u a hu => hp _ _ hu)
      · exact Keeps.foldl h2 _ (fun u a hu => hp _ _ hu)
      · exact hp _ _ h2
      · exact hf _ h2
      · exact h2
    clear_value s3
    exact Keeps.ite (hf _ h3) h3

theorem advanceQueue_keeps {mk : Nat} {sk : State}  {k : Nat} {s : State} {i : Nat} {q : Nat} (hk : Keeps mk sk s) (hm : 7367552 &&& mk = 7367552) :
    Keeps mk sk (advanceQueue k s i q) := by
  have aux : ∀ (k : Nat) (i : Nat) (q : Nat) (u t : State), Keeps 7367552 u t → Keeps 7367552 u (advanceQueue k t i q) := by
    intro k
    induction k with
    | zero => intro i q u t h0; unfold advanceQueue; exact h0
    | succ n ih =>
      intro i q u t h0
      unfold advanceQueue
      with_reducible repeat' first
        | with_reducible exact Keeps.refl _
        | with_reducible assumption
        | decide
        | (extract_lets +onlyGivenNames q1; have hq1 : Keeps 7367552 u q1.1 := (by unfold q1; repeat' first | with_reducible exact Keeps.refl _ | with_reducible assumption | decide | with_reducible refine ih _ _ _ _ ?_ | refine presentDesc_keeps ?_ ?_ | refine Keeps.ite ?_ ?_ | (intro _ _) | split | dsimp only); clear_value q1)
        | (extract_lets +onlyGivenNames s1; have h1 : Keeps 7367552 u s1 := (by unfold s1; repeat' first | with_reducible exact Keeps.refl _ | with_reducible assumption | decide | with_reducible refine ih _ _ _ _ ?_ | refine presentDesc_keeps ?_ ?_ | refine Keeps.ite ?_ ?_ | (intro _ _) | split | dsimp only); clear_value s1)
        | (extract_lets +onlyGivenNames x1; clear_value x1)
        | with_reducible refine ih _ _ _ _ ?_
        | refine presentDesc_keeps ?_ ?_
        | refine Keeps.ite ?_ ?_
        | (intro _ _)
        | split
        | dsimp only
  exact hk.trans ((aux k i q s s (Keeps.refl s)).weaken hm)

theorem descRow_keeps {mk : Nat} {sk : State} {s : State} {i : Nat} {q : Nat} {f : Nat → Bool} (hk : Keeps mk sk s) (hm : 7502720 &&& mk = 7502720) :
    Keeps mk sk (descRow s i q f) := by
  suffices g : Keeps 7502720 s (descRow s i q f) from hk.trans (g.weaken hm)
  unfold descRow
  with_reducible repeat' first
  | exact Keeps.refl _
  | assumption
  | decide
  | refine advanceQueue_keeps ?_ ?_
  | refine fetchDescriptor_keeps ?_ ?_
  | (intro _ _)
  | split
  | dsimp only

theorem descWrite_keeps {mk : Nat} {sk : State} {i : Nat} {q : Nat} {s : State} (hk : Keeps mk sk s) (hm : 7502720 &&& mk = 7502720) :
    Keeps mk sk (descWrite i q s) := by
  suffices g : Keeps 7502720 s (descWrite i q s) from hk.trans (g.weaken hm)
  unfold descWrite
  with_reducible repeat' first
  | exact Keeps.refl _
  | assumption
  | decide
  | refine descRow_keeps ?_ ?_
  | (intro _ _)
  | split
  | dsimp only

theorem execDescWrite_keeps {mk : Nat} {sk : State} {i : Inst} {q : Fin 16} {s : State} (hk : Keeps mk sk s) (hm : 7502720 &&& mk = 7502720) :
    ∃ t', execDescWrite i q s = .next t' ∧ Keeps mk sk t' := by
  suffices g : ∃ t', execDescWrite i q s = .next t' ∧ Keeps 7502720 s t' from g.imp fun _ h => ⟨h.1, hk.trans (h.2.weaken hm)⟩
  refine ⟨_, rfl, ?_⟩
  with_reducible repeat' first
  | exact Keeps.refl _
  | assumption
  | decide
  | refine descWrite_keeps ?_ ?_
  | (intro _ _)
  | split
  | dsimp only

theorem descRead_keeps {mk : Nat} {sk : State} {i : Nat} {q : Nat} {s : State} (hk : Keeps mk sk s) (hm : 7502720 &&& mk = 7502720) :
    Keeps mk sk (descRead i q s) := by
  suffices g : Keeps 7502720 s (descRead i q s) from hk.trans (g.weaken hm)
  unfold descRead
  with_reducible repeat' first
  | exact Keeps.refl _
  | assumption
  | decide
  | refine descRow_keeps ?_ ?_
  | (intro _ _)
  | split
  | dsimp only

theorem execDescRead_keeps {mk : Nat} {sk : State} {i : Inst} {q : Fin 16} {s : State} (hk : Keeps mk sk s) (hm : 7502720 &&& mk = 7502720) :
    ∃ t', execDescRead i q s = .next t' ∧ Keeps mk sk t' := by
  suffices g : ∃ t', execDescRead i q s = .next t' ∧ Keeps 7502720 s t' from g.imp fun _ h => ⟨h.1, hk.trans (h.2.weaken hm)⟩
  refine ⟨_, rfl, ?_⟩
  with_reducible repeat' first
  | exact Keeps.refl _
  | assumption
  | decide
  | refine descRead_keeps ?_ ?_
  | (intro _ _)
  | split
  | dsimp only

theorem descAtomic_keeps {mk : Nat} {sk : State} {i : Nat} {q : Nat} {s : State} (hk : Keeps mk sk s) (hm : 7502720 &&& mk = 7502720) :
    Keeps mk sk (descAtomic i q s) := by
  suffices g : Keeps 7502720 s (descAtomic i q s) from hk.trans (g.weaken hm)
  unfold descAtomic
  with_reducible repeat' first
  | exact Keeps.refl _
  | assumption
  | decide
  | refine descRow_keeps ?_ ?_
  | (intro _ _)
  | split
  | dsimp only

theorem execDescAtomic_keeps {mk : Nat} {sk : State} {i : Inst} {q : Fin 16} {s : State} (hk : Keeps mk sk s) (hm : 7502720 &&& mk = 7502720) :
    ∃ t', execDescAtomic i q s = .next t' ∧ Keeps mk sk t' := by
  suffices g : ∃ t', execDescAtomic i q s = .next t' ∧ Keeps 7502720 s t' from g.imp fun _ h => ⟨h.1, hk.trans (h.2.weaken hm)⟩
  refine ⟨_, rfl, ?_⟩
  with_reducible repeat' first
  | exact Keeps.refl _
  | assumption
  | decide
  | refine descAtomic_keeps ?_ ?_
  | (intro _ _)
  | split
  | dsimp only

theorem descFence_keeps {mk : Nat} {sk : State} {i : Nat} {q : Nat} {s : State} (hk : Keeps mk sk s) (hm : 7502720 &&& mk = 7502720) :
    Keeps mk sk (descFence i q s) := by
  suffices g : Keeps 7502720 s (descFence i q s) from hk.trans (g.weaken hm)
  unfold descFence
  with_reducible repeat' first
  | exact Keeps.refl _
  | assumption
  | decide
  | refine descRow_keeps ?_ ?_
  | (intro _ _)
  | split
  | dsimp only

theorem execDescFence_keeps {mk : Nat} {sk : State} {i : Inst} {q : Fin 16} {s : State} (hk : Keeps mk sk s) (hm : 7502720 &&& mk = 7502720) :
    ∃ t', execDescFence i q s = .next t' ∧ Keeps mk sk t' := by
  suffices g : ∃ t', execDescFence i q s = .next t' ∧ Keeps 7502720 s t' from g.imp fun _ h => ⟨h.1, hk.trans (h.2.weaken hm)⟩
  refine ⟨_, rfl, ?_⟩
  with_reducible repeat' first
  | exact Keeps.refl _
  | assumption
  | decide
  | refine descFence_keeps ?_ ?_
  | (intro _ _)
  | split
  | dsimp only

theorem descNop_keeps {mk : Nat} {sk : State} {i : Nat} {q : Nat} {s : State} (hk : Keeps mk sk s) (hm : 7502720 &&& mk = 7502720) :
    Keeps mk sk (descNop i q s) := by
  suffices g : Keeps 7502720 s (descNop i q s) from hk.trans (g.weaken hm)
  unfold descNop
  with_reducible repeat' first
  | exact Keeps.refl _
  | assumption
  | decide
  | refine descRow_keeps ?_ ?_
  | (intro _ _)
  | split
  | dsimp only

theorem execDescNop_keeps {mk : Nat} {sk : State} {i : Inst} {q : Fin 16} {s : State} (hk : Keeps mk sk s) (hm : 7502720 &&& mk = 7502720) :
    ∃ t', execDescNop i q s = .next t' ∧ Keeps mk sk t' := by
  suffices g : ∃ t', execDescNop i q s = .next t' ∧ Keeps 7502720 s t' from g.imp fun _ h => ⟨h.1, hk.trans (h.2.weaken hm)⟩
  refine ⟨_, rfl, ?_⟩
  with_reducible repeat' first
  | exact Keeps.refl _
  | assumption
  | decide
  | refine descNop_keeps ?_ ?_
  | (intro _ _)
  | split
  | dsimp only

theorem descFetchFail_keeps {mk : Nat} {sk : State} {i : Nat} {q : Nat} {s : State} (hk : Keeps mk sk s) (hm : 7364608 &&& mk = 7364608) :
    Keeps mk sk (descFetchFail i q s) := by
  suffices g : Keeps 7364608 s (descFetchFail i q s) from hk.trans (g.weaken hm)
  unfold descFetchFail
  with_reducible repeat' first
  | exact Keeps.refl _
  | assumption
  | decide
  | refine stopQueue_keeps ?_ ?_
  | refine Keeps.ite ?_ ?_
  | (intro _ _)
  | split
  | dsimp only

theorem execDescFetchFail_keeps {mk : Nat} {sk : State} {i : Inst} {q : Fin 16} {s : State} (hk : Keeps mk sk s) (hm : 7364608 &&& mk = 7364608) :
    ∃ t', execDescFetchFail i q s = .next t' ∧ Keeps mk sk t' := by
  suffices g : ∃ t', execDescFetchFail i q s = .next t' ∧ Keeps 7364608 s t' from g.imp fun _ h => ⟨h.1, hk.trans (h.2.weaken hm)⟩
  refine ⟨_, rfl, ?_⟩
  with_reducible repeat' first
  | exact Keeps.refl _
  | assumption
  | decide
  | refine descFetchFail_keeps ?_ ?_
  | (intro _ _)
  | split
  | dsimp only

theorem cqWrite_keeps {mk : Nat} {sk : State} {s : State} {i : Nat} {q : Nat} {tag : Nat} {done : Nat} {head : Nat} {status : Nat} {detail : Nat} {intr : Bool} (hk : Keeps mk sk s) (hm : 7364608 &&& mk = 7364608) :
    Keeps mk sk (cqWrite s i q tag done head status detail intr) := by
  suffices g : Keeps 7364608 s (cqWrite s i q tag done head status detail intr) from hk.trans (g.weaken hm)
  unfold cqWrite
  with_reducible repeat' first
  | exact Keeps.refl _
  | assumption
  | decide
  | (extract_lets +onlyGivenNames s1; have h1 : Keeps 7364608 s s1 := (by unfold s1; repeat' first | exact Keeps.refl _ | assumption | decide | refine hostPost_keeps ?_ ?_ | refine msi_keeps ?_ ?_ | refine setQueueOf_keeps ?_ ?_ | refine stopQueue_keeps ?_ ?_ | refine translationFault_keeps ?_ ?_ | refine Keeps.ite ?_ ?_ | (intro _ _) | split | dsimp only); clear_value s1)
  | (extract_lets +onlyGivenNames x1; clear_value x1)
  | refine hostPost_keeps ?_ ?_
  | refine msi_keeps ?_ ?_
  | refine setQueueOf_keeps ?_ ?_
  | refine stopQueue_keeps ?_ ?_
  | refine translationFault_keeps ?_ ?_
  | refine Keeps.ite ?_ ?_
  | (intro _ _)
  | split
  | dsimp only

theorem flushNext_keeps {mk : Nat} {sk : State} {s : State} {i : Nat} {q : Nat} {x : InstState} {k : Queue} (hk : Keeps mk sk s) (hm : 7364608 &&& mk = 7364608) :
    Keeps mk sk (flushNext s i q x k) := by
  suffices g : Keeps 7364608 s (flushNext s i q x k) from hk.trans (g.weaken hm)
  unfold flushNext
  with_reducible repeat' first
  | exact Keeps.refl _
  | assumption
  | decide
  | (extract_lets +onlyGivenNames q1; have hq1 : Keeps 7364608 s q1.1 := (by unfold q1; repeat' first | exact Keeps.refl _ | assumption | decide | refine count_keeps ?_ ?_ | refine cqWrite_keeps ?_ ?_ | refine hostFetch_keeps ?_ ?_ | refine setQueueOf_keeps ?_ ?_ | refine Keeps.ofPair (by assumption) ?_ | (intro _ _) | split | dsimp only); clear_value q1)
  | (extract_lets +onlyGivenNames s1; have h1 : Keeps 7364608 s s1 := (by unfold s1; repeat' first | exact Keeps.refl _ | assumption | decide | refine count_keeps ?_ ?_ | refine cqWrite_keeps ?_ ?_ | refine hostFetch_keeps ?_ ?_ | refine setQueueOf_keeps ?_ ?_ | refine Keeps.ofPair (by assumption) ?_ | (intro _ _) | split | dsimp only); clear_value s1)
  | (extract_lets +onlyGivenNames x1; clear_value x1)
  | refine count_keeps ?_ ?_
  | refine cqWrite_keeps ?_ ?_
  | refine hostFetch_keeps ?_ ?_
  | refine setQueueOf_keeps ?_ ?_
  | refine Keeps.ofPair (by assumption) ?_
  | (intro _ _)
  | split
  | dsimp only

theorem descriptorComplete_keeps {mk : Nat} {sk : State} {i : Nat} {q : Nat} {s : State} (hk : Keeps mk sk s) (hm : 7364608 &&& mk = 7364608) :
    Keeps mk sk (descriptorComplete i q s) := by
  suffices g : Keeps 7364608 s (descriptorComplete i q s) from hk.trans (g.weaken hm)
  unfold descriptorComplete
  with_reducible repeat' first
  | exact Keeps.refl _
  | assumption
  | decide
  | (extract_lets +onlyGivenNames s1; have h1 : Keeps 7364608 s s1 := (by unfold s1; repeat' first | exact Keeps.refl _ | assumption | decide | refine cqWrite_keeps ?_ ?_ | refine flushNext_keeps ?_ ?_ | refine queueGone_keeps ?_ ?_ | refine setQueueOf_keeps ?_ ?_ | refine Keeps.ite ?_ ?_ | refine Keeps.iteFst ?_ ?_ | (intro _ _) | split | dsimp only); clear_value s1)
  | (extract_lets +onlyGivenNames x1; clear_value x1)
  | refine cqWrite_keeps ?_ ?_
  | refine flushNext_keeps ?_ ?_
  | refine queueGone_keeps ?_ ?_
  | refine setQueueOf_keeps ?_ ?_
  | refine Keeps.ite ?_ ?_
  | refine Keeps.iteFst ?_ ?_
  | (intro _ _)
  | split
  | dsimp only

theorem execDescriptorComplete_keeps {mk : Nat} {sk : State} {i : Inst} {q : Fin 16} {s : State} (hk : Keeps mk sk s) (hm : 7364608 &&& mk = 7364608) :
    ∃ t', execDescriptorComplete i q s = .next t' ∧ Keeps mk sk t' := by
  suffices g : ∃ t', execDescriptorComplete i q s = .next t' ∧ Keeps 7364608 s t' from g.imp fun _ h => ⟨h.1, hk.trans (h.2.weaken hm)⟩
  refine ⟨_, rfl, ?_⟩
  with_reducible repeat' first
  | exact Keeps.refl _
  | assumption
  | decide
  | refine descriptorComplete_keeps ?_ ?_
  | (intro _ _)
  | split
  | dsimp only

theorem engineAnswer_keeps {mk : Nat} {sk : State} {s : State} {a : Nat × Nat × Bool × List Byte} (hk : Keeps mk sk s) (hm : 7367552 &&& mk = 7367552) :
    Keeps mk sk (engineAnswer s a) := by
  suffices g : Keeps 7367552 s (engineAnswer s a) from hk.trans (g.weaken hm)
  unfold engineAnswer
  with_reducible repeat' first
  | exact Keeps.refl _
  | assumption
  | decide
  | (extract_lets +onlyGivenNames q1; have hq1 : Keeps 7367552 s q1.1 := (by unfold q1; repeat' first | exact Keeps.refl _ | assumption | decide | refine advanceQueue_keeps ?_ ?_ | refine descCond_keeps ?_ ?_ | refine descMod_keeps ?_ ?_ | refine Keeps.ite ?_ ?_ | refine Keeps.iteFst ?_ ?_ | (fail_if_no_progress refine Keeps.eng' ?_ _ rfl) | (intro _ _) | split | dsimp only); clear_value q1)
  | (extract_lets +onlyGivenNames s1; have h1 : Keeps 7367552 s s1 := (by unfold s1; repeat' first | exact Keeps.refl _ | assumption | decide | refine advanceQueue_keeps ?_ ?_ | refine descCond_keeps ?_ ?_ | refine descMod_keeps ?_ ?_ | refine Keeps.ite ?_ ?_ | refine Keeps.iteFst ?_ ?_ | (fail_if_no_progress refine Keeps.eng' ?_ _ rfl) | (intro _ _) | split | dsimp only); clear_value s1)
  | (extract_lets +onlyGivenNames x1; clear_value x1)
  | refine advanceQueue_keeps ?_ ?_
  | refine descCond_keeps ?_ ?_
  | refine descMod_keeps ?_ ?_
  | refine Keeps.ite ?_ ?_
  | refine Keeps.iteFst ?_ ?_
  | (fail_if_no_progress refine Keeps.eng' ?_ _ rfl)
  | (intro _ _)
  | split
  | dsimp only

theorem engineSettled_keeps {mk : Nat} {sk : State} {s : State} (hk : Keeps mk sk s) (hm : 7367552 &&& mk = 7367552) :
    Keeps mk sk (engineSettled s) := by
  suffices g : Keeps 7367552 s (engineSettled s) from hk.trans (g.weaken hm)
  unfold engineSettled
  with_reducible repeat' first
  | exact Keeps.refl _
  | assumption
  | decide
  | (extract_lets +onlyGivenNames s1; have h1 : Keeps 7367552 s s1 := (by unfold s1; repeat' first | exact Keeps.refl _ | assumption | decide | refine engineAnswer_keeps ?_ ?_ | refine invalidateSettled_keeps ?_ ?_ | refine Keeps.foldl ?_ _ (fun u a hu => ?_) | refine Keeps.foldlFst ?_ _ (fun u a hu => ?_) | (fail_if_no_progress refine Keeps.eng' ?_ _ rfl) | (intro _ _) | split | dsimp only); clear_value s1)
  | (extract_lets +onlyGivenNames x1; clear_value x1)
  | refine engineAnswer_keeps ?_ ?_
  | refine invalidateSettled_keeps ?_ ?_
  | refine Keeps.foldl ?_ _ (fun u a hu => ?_)
  | refine Keeps.foldlFst ?_ _ (fun u a hu => ?_)
  | (fail_if_no_progress refine Keeps.eng' ?_ _ rfl)
  | (intro _ _)
  | split
  | dsimp only

theorem readTimedOut_keeps {mk : Nat} {sk : State} {s : State} {r : EngRead} (hk : Keeps mk sk s) (hm : 7400320 &&& mk = 7400320) :
    Keeps mk sk (readTimedOut s r) := by
  suffices g : Keeps 7400320 s (readTimedOut s r) from hk.trans (g.weaken hm)
  unfold readTimedOut
  with_reducible repeat' first
  | exact Keeps.refl _
  | assumption
  | decide
  | (extract_lets +onlyGivenNames q1; have hq1 : Keeps 7400320 s q1.1 := (by unfold q1; repeat' first | exact Keeps.refl _ | assumption | decide | refine advanceQueue_keeps ?_ ?_ | refine descCond_keeps ?_ ?_ | refine descMod_keeps ?_ ?_ | refine eventFull_keeps ?_ ?_ | refine selContained_keeps ?_ ?_ | (fail_if_no_progress refine Keeps.eng' ?_ _ rfl) | (intro _ _) | split | dsimp only); clear_value q1)
  | (extract_lets +onlyGivenNames s1; have h1 : Keeps 7400320 s s1 := (by unfold s1; repeat' first | exact Keeps.refl _ | assumption | decide | refine advanceQueue_keeps ?_ ?_ | refine descCond_keeps ?_ ?_ | refine descMod_keeps ?_ ?_ | refine eventFull_keeps ?_ ?_ | refine selContained_keeps ?_ ?_ | (fail_if_no_progress refine Keeps.eng' ?_ _ rfl) | (intro _ _) | split | dsimp only); clear_value s1)
  | (extract_lets +onlyGivenNames x1; clear_value x1)
  | refine advanceQueue_keeps ?_ ?_
  | refine descCond_keeps ?_ ?_
  | refine descMod_keeps ?_ ?_
  | refine eventFull_keeps ?_ ?_
  | refine selContained_keeps ?_ ?_
  | (fail_if_no_progress refine Keeps.eng' ?_ _ rfl)
  | (intro _ _)
  | split
  | dsimp only

/-! ### Ingress -/

theorem toPort_keeps {mk : Nat} {sk : State} {s : State} {p : Nat} {src : Nat} {o : Origin} {t : Tlp} (hk : Keeps mk sk s) (hm : 7502720 &&& mk = 7502720) :
    Keeps mk sk (toPort s p src o t) := by
  suffices g : Keeps 7502720 s (toPort s p src o t) from hk.trans (g.weaken hm)
  unfold toPort
  with_reducible repeat' first
  | exact Keeps.refl _
  | assumption
  | decide
  | refine deliverTlp_keeps ?_ ?_
  | refine dropPosted_keeps ?_ ?_
  | refine refuseTlp_keeps ?_ ?_
  | refine synthesize_keeps ?_ ?_
  | refine Keeps.ite ?_ ?_
  | (intro _ _)
  | split
  | dsimp only

theorem chargeWaiting_keeps {m : Nat} {s0 s : State} {n : Nat} {f : State → Nat → State × Nat} (h : Keeps m s0 s) (hm : m.testBit 11 = true)
    (hf : ∀ u k, Keeps m s0 u → Keeps m s0 (f u k).1) : Keeps m s0 (chargeWaiting s n f) := by
  have aux : ∀ (l : List NewOp) (a : State × List NewOp), Keeps m s0 a.1 → Keeps m s0 (l.foldl (fun (a : State × List NewOp) op =>
      if op.chain.isSome then (a.1, a.2 ++ [op])
      else
        let r := f a.1 (cells (48 + op.data.length))
        (r.1, a.2 ++ [{ op with chain := some r.2 }])) a).1 := by
    intro l
    induction l with
    | nil => exact fun _ h => h
    | cons x l ih =>
      intro a ha
      refine ih _ ?_
      dsimp only
      split
      · exact ha
      · exact hf _ _ ha
  exact Keeps.shu' (aux (s.shu.waiting.drop n) (s, []) h) _ hm

theorem intoTunnel_keeps {mk : Nat} {sk : State} {s : State} {c : Nat} {src : Nat} {ask : Option Origin} {t : Tlp} (hk : Keeps mk sk s) (hm : 7367552 &&& mk = 7367552) :
    Keeps mk sk (intoTunnel s c src ask t) := by
  suffices g : Keeps 7367552 s (intoTunnel s c src ask t) from hk.trans (g.weaken hm)
  unfold intoTunnel
  with_reducible repeat' first
  | exact Keeps.refl _
  | assumption
  | decide
  | refine chargeWaiting_keeps ?_ rfl (fun u k hu => ?_)
  | refine presentTunnel_keeps ?_ ?_
  | refine storeChain_keeps ?_ ?_
  | (intro _ _)
  | split
  | dsimp only

theorem tunnelNotice_keeps {mk : Nat} {sk : State} {s : State} {c : Nat} {what : Nat} {x : Nat} {be : Nat} {data : List Byte} (hk : Keeps mk sk s) (hm : 2048 &&& mk = 2048) :
    Keeps mk sk (tunnelNotice s c what x be data) := by
  suffices g : Keeps 2048 s (tunnelNotice s c what x be data) from hk.trans (g.weaken hm)
  unfold tunnelNotice
  with_reducible repeat' first
  | exact Keeps.refl _
  | assumption
  | decide
  | refine presentTunnel_keeps ?_ ?_
  | (intro _ _)
  | split
  | dsimp only

theorem toUpstream_keeps {mk : Nat} {sk : State} {s : State} {v : Nat} {src : Nat} {o : Origin} {t : Tlp} (hk : Keeps mk sk s) (hm : 7502720 &&& mk = 7502720) :
    Keeps mk sk (toUpstream s v src o t) := by
  suffices g : Keeps 7502720 s (toUpstream s v src o t) from hk.trans (g.weaken hm)
  unfold toUpstream
  with_reducible repeat' first
  | exact Keeps.refl _
  | assumption
  | decide
  | refine intoTunnel_keeps ?_ ?_
  | refine refuseTlp_keeps ?_ ?_
  | refine toPort_keeps ?_ ?_
  | refine Keeps.ite ?_ ?_
  | (intro _ _)
  | split
  | dsimp only

theorem ideToldOff_keeps {mk : Nat} {sk : State} {s : State} {v : Nat} {p : Nat} {t : Tlp} (hk : Keeps mk sk s) (hm : 7364608 &&& mk = 7364608) :
    Keeps mk sk (ideToldOff s v p t) := by
  suffices g : Keeps 7364608 s (ideToldOff s v p t) from hk.trans (g.weaken hm)
  unfold ideToldOff
  with_reducible repeat' first
  | exact Keeps.refl _
  | assumption
  | decide
  | refine eventIn_keeps ?_ ?_
  | (intro _ _)
  | split
  | dsimp only

theorem ideRefused_keeps {mk : Nat} {sk : State} {s : State} {v : Nat} {src : Nat} {o : Origin} {t : Tlp} (hk : Keeps mk sk s) (hm : 7502720 &&& mk = 7502720) :
    Keeps mk sk (ideRefused s v src o t) := by
  suffices g : Keeps 7502720 s (ideRefused s v src o t) from hk.trans (g.weaken hm)
  unfold ideRefused
  with_reducible repeat' first
  | exact Keeps.refl _
  | assumption
  | decide
  | refine ideToldOff_keeps ?_ ?_
  | refine refuseTlp_keeps ?_ ?_
  | (intro _ _)
  | split
  | dsimp only

theorem mcastMember_keeps {mk : Nat} {sk : State} {s : State} {p : Nat} {src : Nat} {chain : Nat} {o : Origin} {t : Tlp} (hk : Keeps mk sk s) (hm : 7365120 &&& mk = 7365120) :
    Keeps mk sk (mcastMember s p src chain o t) := by
  suffices g : Keeps 7365120 s (mcastMember s p src chain o t) from hk.trans (g.weaken hm)
  unfold mcastMember
  with_reducible repeat' first
  | exact Keeps.refl _
  | assumption
  | decide
  | (extract_lets +onlyGivenNames s1; have h1 : Keeps 7365120 s s1 := (by unfold s1; repeat' first | exact Keeps.refl _ | assumption | decide | refine addRef_keeps ?_ ?_ | refine count_keeps ?_ ?_ | refine denied_keeps ?_ ?_ | refine passed_keeps ?_ ?_ | refine pushItem_keeps ?_ ?_ | refine Keeps.ite ?_ ?_ | simp only [id_eq] | (intro _ _) | split | dsimp only); clear_value s1)
  | (extract_lets +onlyGivenNames x1; clear_value x1)
  | refine addRef_keeps ?_ ?_
  | refine count_keeps ?_ ?_
  | refine denied_keeps ?_ ?_
  | refine passed_keeps ?_ ?_
  | refine pushItem_keeps ?_ ?_
  | refine Keeps.ite ?_ ?_
  | simp only [id_eq]
  | (intro _ _)
  | split
  | dsimp only

theorem mcastTlp_keeps {mk : Nat} {sk : State} {s : State} {v : Nat} {src : Nat} {o : Origin} {t : Tlp} {g : Nat} (hk : Keeps mk sk s) (hm : 7365504 &&& mk = 7365504) :
    Keeps mk sk (mcastTlp s v src o t g) := by
  suffices g : Keeps 7365504 s (mcastTlp s v src o t g) from hk.trans (g.weaken hm)
  unfold mcastTlp
  with_reducible repeat' first
  | exact Keeps.refl _
  | assumption
  | decide
  | (extract_lets +onlyGivenNames q1; have hq1 : Keeps 7365504 s q1.1 := (by unfold q1; repeat' first | exact Keeps.refl _ | assumption | decide | refine aerPort_keeps ?_ ?_ | refine dropRef_keeps ?_ ?_ | refine mcastMember_keeps ?_ ?_ | refine storeChain_keeps ?_ ?_ | refine Keeps.ite ?_ ?_ | refine Keeps.iteFst ?_ ?_ | refine Keeps.foldl ?_ _ (fun u a hu => ?_) | refine Keeps.foldlFst ?_ _ (fun u a hu => ?_) | (intro _ _) | split | dsimp only); clear_value q1)
  | (extract_lets +onlyGivenNames s1; have h1 : Keeps 7365504 s s1 := (by unfold s1; repeat' first | exact Keeps.refl _ | assumption | decide | refine aerPort_keeps ?_ ?_ | refine dropRef_keeps ?_ ?_ | refine mcastMember_keeps ?_ ?_ | refine storeChain_keeps ?_ ?_ | refine Keeps.ite ?_ ?_ | refine Keeps.iteFst ?_ ?_ | refine Keeps.foldl ?_ _ (fun u a hu => ?_) | refine Keeps.foldlFst ?_ _ (fun u a hu => ?_) | (intro _ _) | split | dsimp only); clear_value s1)
  | (extract_lets +onlyGivenNames x1; clear_value x1)
  | refine aerPort_keeps ?_ ?_
  | refine dropRef_keeps ?_ ?_
  | refine mcastMember_keeps ?_ ?_
  | refine storeChain_keeps ?_ ?_
  | refine Keeps.ite ?_ ?_
  | refine Keeps.iteFst ?_ ?_
  | refine Keeps.foldl ?_ _ (fun u a hu => ?_)
  | refine Keeps.foldlFst ?_ _ (fun u a hu => ?_)
  | (intro _ _)
  | split
  | dsimp only

theorem toHop_keeps {mk : Nat} {sk : State} {s : State} {v : Nat} {src : Nat} {o : Origin} {t : Tlp} {h : Hop} (hk : Keeps mk sk s) (hm : 7502720 &&& mk = 7502720) :
    Keeps mk sk (toHop s v src o t h) := by
  suffices g : Keeps 7502720 s (toHop s v src o t h) from hk.trans (g.weaken hm)
  unfold toHop
  with_reducible repeat' first
  | exact Keeps.refl _
  | assumption
  | decide
  | refine apertureAccess_keeps ?_ ?_
  | refine deliverTlp_keeps ?_ ?_
  | refine enqueueTlp_keeps ?_ ?_
  | refine ideRefused_keeps ?_ ?_
  | refine refuseTlp_keeps ?_ ?_
  | refine toPort_keeps ?_ ?_
  | refine toUpstream_keeps ?_ ?_
  | refine Keeps.ite ?_ ?_
  | refine Keeps.iteFst ?_ ?_
  | (intro _ _)
  | split
  | dsimp only

theorem ptmAsk_keeps {mk : Nat} {sk : State} {s : State} {v : Nat} (hk : Keeps mk sk s) (hm : 7502720 &&& mk = 7502720) :
    Keeps mk sk (ptmAsk s v) := by
  suffices g : Keeps 7502720 s (ptmAsk s v) from hk.trans (g.weaken hm)
  unfold ptmAsk
  with_reducible repeat' first
  | exact Keeps.refl _
  | assumption
  | decide
  | refine setPart_keeps ?_ ?_
  | refine toUpstream_keeps ?_ ?_
  | refine Keeps.ite ?_ ?_
  | (intro _ _)
  | split
  | dsimp only

theorem ptmIngress_keeps {mk : Nat} {sk : State} {s : State} {v : Nat} {p : Nat} {host : Bool} {t : Tlp} (hk : Keeps mk sk s) (hm : 7502720 &&& mk = 7502720) :
    Keeps mk sk (ptmIngress s v p host t) := by
  suffices g : Keeps 7502720 s (ptmIngress s v p host t) from hk.trans (g.weaken hm)
  unfold ptmIngress
  with_reducible repeat' first
  | exact Keeps.refl _
  | assumption
  | decide
  | refine aerUnsupported_keeps ?_ ?_
  | refine ptmAsk_keeps ?_ ?_
  | refine setPart_keeps ?_ ?_
  | refine toPort_keeps ?_ ?_
  | refine Keeps.ite ?_ ?_
  | (intro _ _)
  | split
  | dsimp only

theorem routeTlp_keeps {mk : Nat} {sk : State} {s : State} {v : Nat} {src : Nat} {host : Bool} {o : Origin} {t : Tlp} (hk : Keeps mk sk s) (hm : 7502720 &&& mk = 7502720) :
    Keeps mk sk (routeTlp s v src host o t) := by
  suffices g : Keeps 7502720 s (routeTlp s v src host o t) from hk.trans (g.weaken hm)
  unfold routeTlp
  with_reducible repeat' first
  | exact Keeps.refl _
  | assumption
  | decide
  | refine deliverTlp_keeps ?_ ?_
  | refine mcastTlp_keeps ?_ ?_
  | refine ptmIngress_keeps ?_ ?_
  | refine toHop_keeps ?_ ?_
  | refine Keeps.ite ?_ ?_
  | refine Keeps.foldl ?_ _ (fun u a hu => ?_)
  | refine Keeps.foldlFst ?_ _ (fun u a hu => ?_)
  | (intro _ _)
  | split
  | dsimp only

theorem requestAnswered_keeps {mk : Nat} {sk : State} {s : State} {p : Nat} {r : OutReq} {t : Tlp} (hk : Keeps mk sk s) (hm : 7365376 &&& mk = 7365376) :
    Keeps mk sk (requestAnswered s p r t).1 := by
  suffices g : Keeps 7365376 s (requestAnswered s p r t).1 from hk.trans (g.weaken hm)
  unfold requestAnswered
  with_reducible repeat' first
  | exact Keeps.refl _
  | assumption
  | decide
  | (extract_lets +onlyGivenNames s1; have h1 : Keeps 7365376 s s1 := (by unfold s1; repeat' first | exact Keeps.refl _ | assumption | decide | refine poolChanged_keeps ?_ ?_ | refine setWarp_keeps ?_ ?_ | refine Keeps.ite ?_ ?_ | refine Keeps.iteFst ?_ ?_ | (fail_if_no_progress refine Keeps.loom' ?_ _ rfl) | (intro _ _) | split | dsimp only); clear_value s1)
  | (extract_lets +onlyGivenNames x1; clear_value x1)
  | refine poolChanged_keeps ?_ ?_
  | refine setWarp_keeps ?_ ?_
  | refine Keeps.ite ?_ ?_
  | refine Keeps.iteFst ?_ ?_
  | (fail_if_no_progress refine Keeps.loom' ?_ _ rfl)
  | (intro _ _)
  | split
  | dsimp only

theorem fromReservation_keeps {mk : Nat} {sk : State} {p : Nat} {s : State} {n : Nat} (hk : Keeps mk sk s) (hm : 7365120 &&& mk = 7365120) :
    Keeps mk sk (fromReservation p s n).1 := by
  suffices g : Keeps 7365120 s (fromReservation p s n).1 from hk.trans (g.weaken hm)
  unfold fromReservation
  with_reducible repeat' first
  | exact Keeps.refl _
  | assumption
  | decide
  | (extract_lets +onlyGivenNames s1; have h1 : Keeps 7365120 s s1 := (by unfold s1; repeat' first | exact Keeps.refl _ | assumption | decide | refine poolChanged_keeps ?_ ?_ | refine setChain_keeps ?_ ?_ | simp only [id_eq] | (fail_if_no_progress refine Keeps.loom' ?_ _ rfl) | (intro _ _) | split | dsimp only); clear_value s1)
  | (extract_lets +onlyGivenNames x1; clear_value x1)
  | refine poolChanged_keeps ?_ ?_
  | refine setChain_keeps ?_ ?_
  | simp only [id_eq]
  | (fail_if_no_progress refine Keeps.loom' ?_ _ rfl)
  | (intro _ _)
  | split
  | dsimp only

theorem passAnswer_keeps {mk : Nat} {sk : State} {s : State} {p : Nat} {r : OutReq} {t : Tlp} {last : Bool} (hk : Keeps mk sk s) (hm : 7535488 &&& mk = 7535488) :
    Keeps mk sk (passAnswer s p r t last) := by
  suffices g : Keeps 7535488 s (passAnswer s p r t last) from hk.trans (g.weaken hm)
  unfold passAnswer
  with_reducible repeat' first
  | exact Keeps.refl _
  | assumption
  | decide
  | (extract_lets +onlyGivenNames q1; have hq1 : Keeps 7535488 s q1.1 := (by unfold q1; repeat' first | exact Keeps.refl _ | assumption | decide | refine cacheAnswer_keeps ?_ ?_ | refine chargeWaiting_keeps ?_ rfl (fun u k hu => ?_) | refine count_keeps ?_ ?_ | refine discardCompletion_keeps ?_ ?_ | refine enqueueTlp_keeps ?_ ?_ | refine eventFull_keeps ?_ ?_ | refine fromReservation_keeps ?_ ?_ | refine presentTunnel_keeps ?_ ?_ | refine selContained_keeps ?_ ?_ | refine toPort_keeps ?_ ?_ | refine winDrain_keeps ?_ ?_ | refine Keeps.ite ?_ ?_ | refine Keeps.iteFst ?_ ?_ | (fail_if_no_progress refine Keeps.shu' ?_ _ rfl) | (fail_if_no_progress refine Keeps.eng' ?_ _ rfl) | (fail_if_no_progress (refine Keeps.several ?_ (by refine ⟨?_, ?_, ?_, ?_, ?_, ?_, ?_, ?_, ?_, ?_, ?_, ?_, ?_, ?_, ?_, ?_, ?_, ?_, ?_, ?_⟩ <;> first | exact Or.inl rfl | exact Or.inr rfl))) | (intro _ _) | split | dsimp only); clear_value q1)
  | (extract_lets +onlyGivenNames s1; have h1 : Keeps 7535488 s s1 := (by unfold s1; repeat' first | exact Keeps.refl _ | assumption | decide | refine cacheAnswer_keeps ?_ ?_ | refine chargeWaiting_keeps ?_ rfl (fun u k hu => ?_) | refine count_keeps ?_ ?_ | refine discardCompletion_keeps ?_ ?_ | refine enqueueTlp_keeps ?_ ?_ | refine eventFull_keeps ?_ ?_ | refine fromReservation_keeps ?_ ?_ | refine presentTunnel_keeps ?_ ?_ | refine selContained_keeps ?_ ?_ | refine toPort_keeps ?_ ?_ | refine winDrain_keeps ?_ ?_ | refine Keeps.ite ?_ ?_ | refine Keeps.iteFst ?_ ?_ | (fail_if_no_progress refine Keeps.shu' ?_ _ rfl) | (fail_if_no_progress refine Keeps.eng' ?_ _ rfl) | (fail_if_no_progress (refine Keeps.several ?_ (by refine ⟨?_, ?_, ?_, ?_, ?_, ?_, ?_, ?_, ?_, ?_, ?_, ?_, ?_, ?_, ?_, ?_, ?_, ?_, ?_, ?_⟩ <;> first | exact Or.inl rfl | exact Or.inr rfl))) | (intro _ _) | split | dsimp only); clear_value s1)
  | (extract_lets +onlyGivenNames x1; clear_value x1)
  | refine cacheAnswer_keeps ?_ ?_
  | refine chargeWaiting_keeps ?_ rfl (fun u k hu => ?_)
  | refine count_keeps ?_ ?_
  | refine discardCompletion_keeps ?_ ?_
  | refine enqueueTlp_keeps ?_ ?_
  | refine eventFull_keeps ?_ ?_
  | refine fromReservation_keeps ?_ ?_
  | refine presentTunnel_keeps ?_ ?_
  | refine selContained_keeps ?_ ?_
  | refine toPort_keeps ?_ ?_
  | refine winDrain_keeps ?_ ?_
  | refine Keeps.ite ?_ ?_
  | refine Keeps.iteFst ?_ ?_
  | (fail_if_no_progress refine Keeps.shu' ?_ _ rfl)
  | (fail_if_no_progress refine Keeps.eng' ?_ _ rfl)
  | (fail_if_no_progress (refine Keeps.several ?_ (by refine ⟨?_, ?_, ?_, ?_, ?_, ?_, ?_, ?_, ?_, ?_, ?_, ?_, ?_, ?_, ?_, ?_, ?_, ?_, ?_, ?_⟩ <;> first | exact Or.inl rfl | exact Or.inr rfl)))
  | (intro _ _)
  | split
  | dsimp only

theorem leavingAnswer_keeps {mk : Nat} {sk : State} {s : State} {p : Nat} {r : OutReq} {t : Tlp} (hk : Keeps mk sk s) (hm : 7364608 &&& mk = 7364608) :
    Keeps mk sk (leavingAnswer s p r t).1 := by
  suffices g : Keeps 7364608 s (leavingAnswer s p r t).1 from hk.trans (g.weaken hm)
  unfold leavingAnswer
  with_reducible repeat' first
  | exact Keeps.refl _
  | assumption
  | decide
  | refine ideToldOff_keeps ?_ ?_
  | refine Keeps.ite ?_ ?_
  | refine Keeps.iteFst ?_ ?_
  | (intro _ _)
  | split
  | dsimp only

theorem chargeCompletion_keeps {mk : Nat} {sk : State} {s : State} {p : Nat} {before : Nat} (hk : Keeps mk sk s) (hm : 512 &&& mk = 512) :
    Keeps mk sk (chargeCompletion s p before) := by
  suffices g : Keeps 512 s (chargeCompletion s p before) from hk.trans (g.weaken hm)
  unfold chargeCompletion
  with_reducible repeat' first
  | exact Keeps.refl _
  | assumption
  | decide
  | refine setChain_keeps ?_ ?_
  | (intro _ _)
  | split
  | dsimp only

theorem completionIn_keeps {mk : Nat} {sk : State} {s : State} {v : Nat} {p : Nat} {o : Origin} {host : Bool} {t : Tlp} (hk : Keeps mk sk s) (hm : 7535488 &&& mk = 7535488) :
    Keeps mk sk (completionIn s v p o host t) := by
  suffices g : Keeps 7535488 s (completionIn s v p o host t) from hk.trans (g.weaken hm)
  unfold completionIn
  with_reducible repeat' first
  | exact Keeps.refl _
  | assumption
  | decide
  | (extract_lets +onlyGivenNames q1; have hq1 : Keeps 7535488 s q1.1 := (by unfold q1; repeat' first | exact Keeps.refl _ | assumption | decide | refine chargeCompletion_keeps ?_ ?_ | refine leavingAnswer_keeps ?_ ?_ | refine passAnswer_keeps ?_ ?_ | refine requestAnswered_keeps ?_ ?_ | refine selContained_keeps ?_ ?_ | refine toPort_keeps ?_ ?_ | refine toUpstream_keeps ?_ ?_ | refine Keeps.ite ?_ ?_ | refine Keeps.iteFst ?_ ?_ | refine Keeps.ofPair (by assumption) ?_ | (fail_if_no_progress refine Keeps.eng' ?_ _ rfl) | (intro _ _) | split | dsimp only); clear_value q1)
  | (extract_lets +onlyGivenNames s1; have h1 : Keeps 7535488 s s1 := (by unfold s1; repeat' first | exact Keeps.refl _ | assumption | decide | refine chargeCompletion_keeps ?_ ?_ | refine leavingAnswer_keeps ?_ ?_ | refine passAnswer_keeps ?_ ?_ | refine requestAnswered_keeps ?_ ?_ | refine selContained_keeps ?_ ?_ | refine toPort_keeps ?_ ?_ | refine toUpstream_keeps ?_ ?_ | refine Keeps.ite ?_ ?_ | refine Keeps.iteFst ?_ ?_ | refine Keeps.ofPair (by assumption) ?_ | (fail_if_no_progress refine Keeps.eng' ?_ _ rfl) | (intro _ _) | split | dsimp only); clear_value s1)
  | (extract_lets +onlyGivenNames x1; clear_value x1)
  | refine chargeCompletion_keeps ?_ ?_
  | refine leavingAnswer_keeps ?_ ?_
  | refine passAnswer_keeps ?_ ?_
  | refine requestAnswered_keeps ?_ ?_
  | refine selContained_keeps ?_ ?_
  | refine toPort_keeps ?_ ?_
  | refine toUpstream_keeps ?_ ?_
  | refine Keeps.ite ?_ ?_
  | refine Keeps.iteFst ?_ ?_
  | refine Keeps.ofPair (by assumption) ?_
  | (fail_if_no_progress refine Keeps.eng' ?_ _ rfl)
  | (intro _ _)
  | split
  | dsimp only

theorem ideFailed_keeps {mk : Nat} {sk : State} {s : State} {v : Option Nat} {p : Nat} {t : Tlp} (hk : Keeps mk sk s) (hm : 7889152 &&& mk = 7889152) :
    Keeps mk sk (ideFailed s v p t) := by
  suffices g : Keeps 7889152 s (ideFailed s v p t) from hk.trans (g.weaken hm)
  unfold ideFailed
  with_reducible repeat' first
  | exact Keeps.refl _
  | assumption
  | decide
  | (extract_lets +onlyGivenNames s1; have h1 : Keeps 7889152 s s1 := (by unfold s1; repeat' first | exact Keeps.refl _ | assumption | decide | refine count_keeps ?_ ?_ | refine eventIn_keeps ?_ ?_ | (fail_if_no_progress refine Keeps.warp' ?_ _ rfl) | (fail_if_no_progress refine Keeps.vault' ?_ _ rfl) | (fail_if_no_progress (refine Keeps.several ?_ (by refine ⟨?_, ?_, ?_, ?_, ?_, ?_, ?_, ?_, ?_, ?_, ?_, ?_, ?_, ?_, ?_, ?_, ?_, ?_, ?_, ?_⟩ <;> first | exact Or.inl rfl | exact Or.inr rfl))) | (intro _ _) | split | dsimp only); clear_value s1)
  | (extract_lets +onlyGivenNames x1; clear_value x1)
  | refine count_keeps ?_ ?_
  | refine eventIn_keeps ?_ ?_
  | (fail_if_no_progress refine Keeps.warp' ?_ _ rfl)
  | (fail_if_no_progress refine Keeps.vault' ?_ _ rfl)
  | (fail_if_no_progress (refine Keeps.several ?_ (by refine ⟨?_, ?_, ?_, ?_, ?_, ?_, ?_, ?_, ?_, ?_, ?_, ?_, ?_, ?_, ?_, ?_, ?_, ?_, ?_, ?_⟩ <;> first | exact Or.inl rfl | exact Or.inr rfl)))
  | (intro _ _)
  | split
  | dsimp only

theorem logIngress_keeps {mk : Nat} {sk : State} {s : State} {v : Option Nat} {p : Nat} {t : Tlp} {c : Nat} (hk : Keeps mk sk s) (hm : 8059776 &&& mk = 8059776) :
    Keeps mk sk (logIngress s v p t c) := by
  suffices g : Keeps 8059776 s (logIngress s v p t c) from hk.trans (g.weaken hm)
  unfold logIngress
  with_reducible repeat' first
  | exact Keeps.refl _
  | assumption
  | decide
  | (extract_lets +onlyGivenNames s1; have h1 : Keeps 8059776 s s1 := (by unfold s1; repeat' first | exact Keeps.refl _ | assumption | decide | refine containPort_keeps ?_ ?_ | refine ideFailed_keeps ?_ ?_ | refine selContained_keeps ?_ ?_ | refine selCorrectable_keeps ?_ ?_ | refine Keeps.ite ?_ ?_ | (intro _ _) | split | dsimp only); clear_value s1)
  | (extract_lets +onlyGivenNames x1; clear_value x1)
  | refine containPort_keeps ?_ ?_
  | refine ideFailed_keeps ?_ ?_
  | refine selContained_keeps ?_ ?_
  | refine selCorrectable_keeps ?_ ?_
  | refine Keeps.ite ?_ ?_
  | (intro _ _)
  | split
  | dsimp only

theorem acceptTlp_keeps {mk : Nat} {sk : State} {s : State} {v : Nat} {p : Nat} {host : Bool} {ret : Ret} {t : Tlp} (hk : Keeps mk sk s) (hm : 7535488 &&& mk = 7535488) :
    Keeps mk sk (acceptTlp s v p host ret t) := by
  suffices g : Keeps 7535488 s (acceptTlp s v p host ret t) from hk.trans (g.weaken hm)
  unfold acceptTlp
  with_reducible repeat' first
  | exact Keeps.refl _
  | assumption
  | decide
  | (extract_lets +onlyGivenNames s1; have h1 : Keeps 7535488 s s1 := (by unfold s1; repeat' first | exact Keeps.refl _ | assumption | decide | refine answer_keeps ?_ ?_ | refine completionIn_keeps ?_ ?_ | refine count_keeps ?_ ?_ | refine discardCompletion_keeps ?_ ?_ | refine refuseTlp_keeps ?_ ?_ | refine routeTlp_keeps ?_ ?_ | refine Keeps.ite ?_ ?_ | (intro _ _) | split | dsimp only); clear_value s1)
  | (extract_lets +onlyGivenNames x1; clear_value x1)
  | refine answer_keeps ?_ ?_
  | refine completionIn_keeps ?_ ?_
  | refine count_keeps ?_ ?_
  | refine discardCompletion_keeps ?_ ?_
  | refine refuseTlp_keeps ?_ ?_
  | refine routeTlp_keeps ?_ ?_
  | refine Keeps.ite ?_ ?_
  | (intro _ _)
  | split
  | dsimp only

theorem countIngress_keeps {mk : Nat} {sk : State} {s : State} {p : Nat} {v : Option Nat} {t : Tlp} (hk : Keeps mk sk s) (hm : 1048576 &&& mk = 1048576) :
    Keeps mk sk (countIngress s p v t) := by
  suffices g : Keeps 1048576 s (countIngress s p v t) from hk.trans (g.weaken hm)
  unfold countIngress
  with_reducible repeat' first
  | exact Keeps.refl _
  | assumption
  | decide
  | (extract_lets +onlyGivenNames s1; have h1 : Keeps 1048576 s s1 := (by unfold s1; repeat' first | exact Keeps.refl _ | assumption | decide | refine count_keeps ?_ ?_ | refine filterItem_keeps ?_ ?_ | (intro _ _) | split | dsimp only); clear_value s1)
  | (extract_lets +onlyGivenNames x1; clear_value x1)
  | refine count_keeps ?_ ?_
  | refine filterItem_keeps ?_ ?_
  | (intro _ _)
  | split
  | dsimp only

theorem ingressCredit_keeps {mk : Nat} {sk : State} {s : State} {p : Nat} {t : Tlp} {k : Nat} (hk : Keeps mk sk s) (hm : 768 &&& mk = 768) :
    Keeps mk sk (ingressCredit s p t k) := by
  suffices g : Keeps 768 s (ingressCredit s p t k) from hk.trans (g.weaken hm)
  unfold ingressCredit
  with_reducible repeat' first
  | exact Keeps.refl _
  | assumption
  | decide
  | (extract_lets +onlyGivenNames s1; have h1 : Keeps 768 s s1 := (by unfold s1; repeat' first | exact Keeps.refl _ | assumption | decide | refine setChain_keeps ?_ ?_ | refine warpFreed_keeps ?_ ?_ | refine Keeps.ite ?_ ?_ | refine Keeps.iteFst ?_ ?_ | (intro _ _) | split | dsimp only); clear_value s1)
  | (extract_lets +onlyGivenNames x1; clear_value x1)
  | refine setChain_keeps ?_ ?_
  | refine warpFreed_keeps ?_ ?_
  | refine Keeps.ite ?_ ?_
  | refine Keeps.iteFst ?_ ?_
  | (intro _ _)
  | split
  | dsimp only

theorem exportedCompletion_keeps {mk : Nat} {sk : State} {s : State} {p : Nat} {t : Tlp} (hk : Keeps mk sk s) (hm : 7535488 &&& mk = 7535488) :
    Keeps mk sk (exportedCompletion s p t) := by
  suffices g : Keeps 7535488 s (exportedCompletion s p t) from hk.trans (g.weaken hm)
  unfold exportedCompletion
  with_reducible repeat' first
  | exact Keeps.refl _
  | assumption
  | decide
  | (extract_lets +onlyGivenNames q1; have hq1 : Keeps 7535488 s q1.1 := (by unfold q1; repeat' first | exact Keeps.refl _ | assumption | decide | refine passAnswer_keeps ?_ ?_ | refine requestAnswered_keeps ?_ ?_ | refine selContained_keeps ?_ ?_ | (intro _ _) | split | dsimp only); clear_value q1)
  | (extract_lets +onlyGivenNames s1; have h1 : Keeps 7535488 s s1 := (by unfold s1; repeat' first | exact Keeps.refl _ | assumption | decide | refine passAnswer_keeps ?_ ?_ | refine requestAnswered_keeps ?_ ?_ | refine selContained_keeps ?_ ?_ | (intro _ _) | split | dsimp only); clear_value s1)
  | (extract_lets +onlyGivenNames x1; clear_value x1)
  | refine passAnswer_keeps ?_ ?_
  | refine requestAnswered_keeps ?_ ?_
  | refine selContained_keeps ?_ ?_
  | (intro _ _)
  | split
  | dsimp only

theorem exportedConfig_keeps {mk : Nat} {sk : State} {s : State} {p : Nat} {a : AdmittedVs} {o : Origin} {t : Tlp} (hk : Keeps mk sk s) (hm : 7502720 &&& mk = 7502720) :
    Keeps mk sk (exportedConfig s p a o t) := by
  suffices g : Keeps 7502720 s (exportedConfig s p a o t) from hk.trans (g.weaken hm)
  unfold exportedConfig
  with_reducible repeat' first
  | exact Keeps.refl _
  | assumption
  | decide
  | (extract_lets +onlyGivenNames s1; have h1 : Keeps 7502720 s s1 := (by unfold s1; repeat' first | exact Keeps.refl _ | assumption | decide | refine answer_keeps ?_ ?_ | refine intoTunnel_keeps ?_ ?_ | refine refuseTlp_keeps ?_ ?_ | refine setUpReg_keeps ?_ ?_ | refine tunnelNotice_keeps ?_ ?_ | refine Keeps.ite ?_ ?_ | (intro _ _) | split | dsimp only); clear_value s1)
  | (extract_lets +onlyGivenNames x1; clear_value x1)
  | refine answer_keeps ?_ ?_
  | refine intoTunnel_keeps ?_ ?_
  | refine refuseTlp_keeps ?_ ?_
  | refine setUpReg_keeps ?_ ?_
  | refine tunnelNotice_keeps ?_ ?_
  | refine Keeps.ite ?_ ?_
  | (intro _ _)
  | split
  | dsimp only

theorem exportedAccept_keeps {mk : Nat} {sk : State} {s : State} {p : Nat} {a : AdmittedVs} {t : Tlp} (hk : Keeps mk sk s) (hm : 7535488 &&& mk = 7535488) :
    Keeps mk sk (exportedAccept s p a t) := by
  suffices g : Keeps 7535488 s (exportedAccept s p a t) from hk.trans (g.weaken hm)
  unfold exportedAccept
  with_reducible repeat' first
  | exact Keeps.refl _
  | assumption
  | decide
  | (extract_lets +onlyGivenNames s1; have h1 : Keeps 7535488 s s1 := (by unfold s1; repeat' first | exact Keeps.refl _ | assumption | decide | refine exportedCompletion_keeps ?_ ?_ | refine exportedConfig_keeps ?_ ?_ | refine intoTunnel_keeps ?_ ?_ | refine refuseTlp_keeps ?_ ?_ | refine Keeps.ite ?_ ?_ | (intro _ _) | split | dsimp only); clear_value s1)
  | (extract_lets +onlyGivenNames x1; clear_value x1)
  | refine exportedCompletion_keeps ?_ ?_
  | refine exportedConfig_keeps ?_ ?_
  | refine intoTunnel_keeps ?_ ?_
  | refine refuseTlp_keeps ?_ ?_
  | refine Keeps.ite ?_ ?_
  | (intro _ _)
  | split
  | dsimp only

theorem exportedIngress_keeps {mk : Nat} {sk : State} {s : State} {p : Nat} {a : AdmittedVs} {t : Tlp} (hk : Keeps mk sk s) (hm : 8059776 &&& mk = 8059776) :
    Keeps mk sk (exportedIngress s p a t) := by
  suffices g : Keeps 8059776 s (exportedIngress s p a t) from hk.trans (g.weaken hm)
  unfold exportedIngress
  with_reducible repeat' first
  | exact Keeps.refl _
  | assumption
  | decide
  | (extract_lets +onlyGivenNames s1; have h1 : Keeps 8059776 s s1 := (by unfold s1; repeat' first | exact Keeps.refl _ | assumption | decide | refine count_keeps ?_ ?_ | refine countIngress_keeps ?_ ?_ | refine exportedAccept_keeps ?_ ?_ | refine logIngress_keeps ?_ ?_ | refine Keeps.ite ?_ ?_ | refine Keeps.foldl ?_ _ (fun u a hu => ?_) | refine Keeps.foldlFst ?_ _ (fun u a hu => ?_) | (intro _ _) | split | dsimp only); clear_value s1)
  | (extract_lets +onlyGivenNames x1; clear_value x1)
  | refine count_keeps ?_ ?_
  | refine countIngress_keeps ?_ ?_
  | refine exportedAccept_keeps ?_ ?_
  | refine logIngress_keeps ?_ ?_
  | refine Keeps.ite ?_ ?_
  | refine Keeps.foldl ?_ _ (fun u a hu => ?_)
  | refine Keeps.foldlFst ?_ _ (fun u a hu => ?_)
  | (intro _ _)
  | split
  | dsimp only

theorem partIngress_keeps {mk : Nat} {sk : State} {s : State} {v : Nat} {p : Nat} {t : Tlp} (hk : Keeps mk sk s) (hm : 8059776 &&& mk = 8059776) :
    Keeps mk sk (partIngress s v p t) := by
  suffices g : Keeps 8059776 s (partIngress s v p t) from hk.trans (g.weaken hm)
  unfold partIngress
  with_reducible repeat' first
  | exact Keeps.refl _
  | assumption
  | decide
  | (extract_lets +onlyGivenNames s1; have h1 : Keeps 8059776 s s1 := (by unfold s1; repeat' first | exact Keeps.refl _ | assumption | decide | refine acceptTlp_keeps ?_ ?_ | refine count_keeps ?_ ?_ | refine countIngress_keeps ?_ ?_ | refine filterItem_keeps ?_ ?_ | refine logIngress_keeps ?_ ?_ | refine refuseTlp_keeps ?_ ?_ | refine Keeps.ite ?_ ?_ | refine Keeps.foldl ?_ _ (fun u a hu => ?_) | refine Keeps.foldlFst ?_ _ (fun u a hu => ?_) | (intro _ _) | split | dsimp only); clear_value s1)
  | (extract_lets +onlyGivenNames x1; clear_value x1)
  | refine acceptTlp_keeps ?_ ?_
  | refine count_keeps ?_ ?_
  | refine countIngress_keeps ?_ ?_
  | refine filterItem_keeps ?_ ?_
  | refine logIngress_keeps ?_ ?_
  | refine refuseTlp_keeps ?_ ?_
  | refine Keeps.ite ?_ ?_
  | refine Keeps.foldl ?_ _ (fun u a hu => ?_)
  | refine Keeps.foldlFst ?_ _ (fun u a hu => ?_)
  | (intro _ _)
  | split
  | dsimp only

theorem takeTlp_keeps {mk : Nat} {sk : State} {s : State} {p : Nat} {t : Tlp} (hk : Keeps mk sk s) (hm : 8059776 &&& mk = 8059776) :
    Keeps mk sk (takeTlp s p t) := by
  suffices g : Keeps 8059776 s (takeTlp s p t) from hk.trans (g.weaken hm)
  unfold takeTlp
  with_reducible repeat' first
  | exact Keeps.refl _
  | assumption
  | decide
  | refine exportedIngress_keeps ?_ ?_
  | refine partIngress_keeps ?_ ?_
  | refine Keeps.ite ?_ ?_
  | (intro _ _)
  | split
  | dsimp only

theorem tlpIngress_keeps {mk : Nat} {sk : State} {p : Nat} {t : Tlp} {s : State} (hk : Keeps mk sk s) (hm : 8059776 &&& mk = 8059776) :
    Keeps mk sk (tlpIngress p t s) := by
  suffices g : Keeps 8059776 s (tlpIngress p t s) from hk.trans (g.weaken hm)
  unfold tlpIngress
  with_reducible repeat' first
  | exact Keeps.refl _
  | assumption
  | decide
  | refine ingressCredit_keeps ?_ ?_
  | refine setPart_keeps ?_ ?_
  | refine takeTlp_keeps ?_ ?_
  | refine Keeps.ite ?_ ?_
  | (intro _ _)
  | split
  | dsimp only

theorem heldTaken_keeps {mk : Nat} {sk : State} {s : State} {v : Nat} (hk : Keeps mk sk s) (hm : 8059776 &&& mk = 8059776) :
    Keeps mk sk (heldTaken s v) := by
  suffices g : Keeps 8059776 s (heldTaken s v) from hk.trans (g.weaken hm)
  unfold heldTaken
  with_reducible repeat' first
  | exact Keeps.refl _
  | assumption
  | decide
  | refine setPart_keeps ?_ ?_
  | refine tlpIngress_keeps ?_ ?_
  | refine Keeps.ite ?_ ?_
  | refine Keeps.iteFst ?_ ?_
  | refine Keeps.foldl ?_ _ (fun u a hu => ?_)
  | refine Keeps.foldlFst ?_ _ (fun u a hu => ?_)
  | (intro _ _)
  | split
  | dsimp only

theorem errorsSent_keeps {mk : Nat} {sk : State} {s : State} (hk : Keeps mk sk s) (hm : 7502720 &&& mk = 7502720) :
    Keeps mk sk (errorsSent s) := by
  suffices g : Keeps 7502720 s (errorsSent s) from hk.trans (g.weaken hm)
  unfold errorsSent
  with_reducible repeat' first
  | exact Keeps.refl _
  | assumption
  | decide
  | (extract_lets +onlyGivenNames s1; have h1 : Keeps 7502720 s s1 := (by unfold s1; repeat' first | exact Keeps.refl _ | assumption | decide | refine toPort_keeps ?_ ?_ | refine toUpstream_keeps ?_ ?_ | refine Keeps.ite ?_ ?_ | refine Keeps.iteFst ?_ ?_ | refine Keeps.foldl ?_ _ (fun u a hu => ?_) | refine Keeps.foldlFst ?_ _ (fun u a hu => ?_) | (fail_if_no_progress refine Keeps.warp' ?_ _ rfl) | (intro _ _) | split | dsimp only); clear_value s1)
  | (extract_lets +onlyGivenNames x1; clear_value x1)
  | refine toPort_keeps ?_ ?_
  | refine toUpstream_keeps ?_ ?_
  | refine Keeps.ite ?_ ?_
  | refine Keeps.iteFst ?_ ?_
  | refine Keeps.foldl ?_ _ (fun u a hu => ?_)
  | refine Keeps.foldlFst ?_ _ (fun u a hu => ?_)
  | (fail_if_no_progress refine Keeps.warp' ?_ _ rfl)
  | (intro _ _)
  | split
  | dsimp only

/-! ### Dobby -/

theorem setItems_keeps {mk : Nat} {sk : State} {s : State} {is : List DobItem} (hk : Keeps mk sk s) (hm : 131072 &&& mk = 131072) :
    Keeps mk sk (setItems s is) := by
  suffices g : Keeps 131072 s (setItems s is) from hk.trans (g.weaken hm)
  unfold setItems
  with_reducible repeat' first
  | exact Keeps.refl _
  | assumption
  | decide
  | (fail_if_no_progress refine Keeps.dob' ?_ _ rfl)
  | (intro _ _)
  | split
  | dsimp only

theorem setItem_keeps {mk : Nat} {sk : State} {s : State} {it : DobItem} (hk : Keeps mk sk s) (hm : 131072 &&& mk = 131072) :
    Keeps mk sk (setItem s it) := by
  suffices g : Keeps 131072 s (setItem s it) from hk.trans (g.weaken hm)
  unfold setItem
  with_reducible repeat' first
  | exact Keeps.refl _
  | assumption
  | decide
  | refine setItems_keeps ?_ ?_
  | refine Keeps.ite ?_ ?_
  | (intro _ _)
  | split
  | dsimp only

theorem holdMoves_keeps {mk : Nat} {sk : State}  {k : Nat} {s : State} (hk : Keeps mk sk s) (hm : 7496576 &&& mk = 7496576) :
    Keeps mk sk (holdMoves k s) := by
  have aux : ∀ (k : Nat) (u t : State), Keeps 7496576 u t → Keeps 7496576 u (holdMoves k t) := by
    intro k
    induction k with
    | zero => intro  u t h0; unfold holdMoves; exact h0
    | succ n ih =>
      intro  u t h0
      unfold holdMoves
      with_reducible repeat' first
        | with_reducible exact Keeps.refl _
        | with_reducible assumption
        | decide
        | (extract_lets +onlyGivenNames q1; have hq1 : Keeps 7496576 u q1.1 := (by unfold q1; repeat' first | with_reducible exact Keeps.refl _ | with_reducible assumption | decide | with_reducible refine ih _ _ ?_ | refine dropRef_keeps ?_ ?_ | refine setItem_keeps ?_ ?_ | refine Keeps.ite ?_ ?_ | (intro _ _) | split | dsimp only); clear_value q1)
        | (extract_lets +onlyGivenNames s1; have h1 : Keeps 7496576 u s1 := (by unfold s1; repeat' first | with_reducible exact Keeps.refl _ | with_reducible assumption | decide | with_reducible refine ih _ _ ?_ | refine dropRef_keeps ?_ ?_ | refine setItem_keeps ?_ ?_ | refine Keeps.ite ?_ ?_ | (intro _ _) | split | dsimp only); clear_value s1)
        | (extract_lets +onlyGivenNames x1; clear_value x1)
        | with_reducible refine ih _ _ ?_
        | refine dropRef_keeps ?_ ?_
        | refine setItem_keeps ?_ ?_
        | refine Keeps.ite ?_ ?_
        | (intro _ _)
        | split
        | dsimp only
  exact hk.trans ((aux k s s (Keeps.refl s)).weaken hm)

theorem busYield_keeps {mk : Nat} {sk : State} {s : State} (hk : Keeps mk sk s) (hm : 131072 &&& mk = 131072) :
    Keeps mk sk (busYield s) := by
  suffices g : Keeps 131072 s (busYield s) from hk.trans (g.weaken hm)
  unfold busYield
  with_reducible repeat' first
  | exact Keeps.refl _
  | assumption
  | decide
  | refine Keeps.ite ?_ ?_
  | (fail_if_no_progress refine Keeps.dob' ?_ _ rfl)
  | (intro _ _)
  | split
  | dsimp only

theorem itemGone_keeps {mk : Nat} {sk : State} {s : State} {it : DobItem} (hk : Keeps mk sk s) (hm : 7496576 &&& mk = 7496576) :
    Keeps mk sk (itemGone s it) := by
  suffices g : Keeps 7496576 s (itemGone s it) from hk.trans (g.weaken hm)
  unfold itemGone
  with_reducible repeat' first
  | exact Keeps.refl _
  | assumption
  | decide
  | (extract_lets +onlyGivenNames q1; have hq1 : Keeps 7496576 s q1.1 := (by unfold q1; repeat' first | exact Keeps.refl _ | assumption | decide | refine busYield_keeps ?_ ?_ | refine dropRef_keeps ?_ ?_ | refine holdMoves_keeps ?_ ?_ | refine setItems_keeps ?_ ?_ | (fail_if_no_progress refine Keeps.dob' ?_ _ rfl) | (intro _ _) | split | dsimp only); clear_value q1)
  | (extract_lets +onlyGivenNames s1; have h1 : Keeps 7496576 s s1 := (by unfold s1; repeat' first | exact Keeps.refl _ | assumption | decide | refine busYield_keeps ?_ ?_ | refine dropRef_keeps ?_ ?_ | refine holdMoves_keeps ?_ ?_ | refine setItems_keeps ?_ ?_ | (fail_if_no_progress refine Keeps.dob' ?_ _ rfl) | (intro _ _) | split | dsimp only); clear_value s1)
  | (extract_lets +onlyGivenNames x1; clear_value x1)
  | refine busYield_keeps ?_ ?_
  | refine dropRef_keeps ?_ ?_
  | refine holdMoves_keeps ?_ ?_
  | refine setItems_keeps ?_ ?_
  | (fail_if_no_progress refine Keeps.dob' ?_ _ rfl)
  | (intro _ _)
  | split
  | dsimp only

theorem itemSeen_keeps {mk : Nat} {sk : State} {s : State} {it : DobItem} {late : Bool} (hk : Keeps mk sk s) (hm : 6144 &&& mk = 6144) :
    Keeps mk sk (itemSeen s it late) := by
  suffices g : Keeps 6144 s (itemSeen s it late) from hk.trans (g.weaken hm)
  unfold itemSeen
  with_reducible repeat' first
  | exact Keeps.refl _
  | assumption
  | decide
  | refine writeDone_keeps ?_ ?_
  | (intro _ _)
  | split
  | dsimp only

theorem itemFails_keeps {mk : Nat} {sk : State} {s : State} {it : DobItem} {reason : Nat} {am : Nat} {addr : Nat} (hk : Keeps mk sk s) (hm : 7535488 &&& mk = 7535488) :
    Keeps mk sk (itemFails s it reason am addr) := by
  suffices g : Keeps 7535488 s (itemFails s it reason am addr) from hk.trans (g.weaken hm)
  unfold itemFails
  with_reducible repeat' first
  | exact Keeps.refl _
  | assumption
  | decide
  | (extract_lets +onlyGivenNames s1; have h1 : Keeps 7535488 s s1 := (by unfold s1; repeat' first | exact Keeps.refl _ | assumption | decide | refine answer_keeps ?_ ?_ | refine count_keeps ?_ ?_ | refine dobbyDropped_keeps ?_ ?_ | refine eventFull_keeps ?_ ?_ | refine itemGone_keeps ?_ ?_ | refine itemSeen_keeps ?_ ?_ | refine rateEvent_keeps ?_ rfl (fun u a hu => ?_) | refine selContained_keeps ?_ ?_ | refine Keeps.ite ?_ ?_ | (intro _ _) | split | dsimp only); clear_value s1)
  | (extract_lets +onlyGivenNames x1; clear_value x1)
  | refine answer_keeps ?_ ?_
  | refine count_keeps ?_ ?_
  | refine dobbyDropped_keeps ?_ ?_
  | refine eventFull_keeps ?_ ?_
  | refine itemGone_keeps ?_ ?_
  | refine itemSeen_keeps ?_ ?_
  | refine rateEvent_keeps ?_ rfl (fun u a hu => ?_)
  | refine selContained_keeps ?_ ?_
  | refine Keeps.ite ?_ ?_
  | (intro _ _)
  | split
  | dsimp only

theorem itemDone_keeps {mk : Nat} {sk : State} {s : State} {it : DobItem} {data : List Byte} (hk : Keeps mk sk s) (hm : 7502720 &&& mk = 7502720) :
    Keeps mk sk (itemDone s it data) := by
  suffices g : Keeps 7502720 s (itemDone s it data) from hk.trans (g.weaken hm)
  unfold itemDone
  with_reducible repeat' first
  | exact Keeps.refl _
  | assumption
  | decide
  | (extract_lets +onlyGivenNames s1; have h1 : Keeps 7502720 s s1 := (by unfold s1; repeat' first | exact Keeps.refl _ | assumption | decide | refine answer_keeps ?_ ?_ | refine itemGone_keeps ?_ ?_ | refine itemSeen_keeps ?_ ?_ | refine Keeps.ite ?_ ?_ | (fail_if_no_progress refine Keeps.dob' ?_ _ rfl) | (intro _ _) | split | dsimp only); clear_value s1)
  | (extract_lets +onlyGivenNames x1; clear_value x1)
  | refine answer_keeps ?_ ?_
  | refine itemGone_keeps ?_ ?_
  | refine itemSeen_keeps ?_ ?_
  | refine Keeps.ite ?_ ?_
  | (fail_if_no_progress refine Keeps.dob' ?_ _ rfl)
  | (intro _ _)
  | split
  | dsimp only

theorem takeRequest129_keeps {mk : Nat} {sk : State} {s : State} {i : LoomItem} {t : Tlp} (hk : Keeps mk sk s) (hm : 7535488 &&& mk = 7535488) :
    Keeps mk sk (takeRequest129 s i t) := by
  suffices g : Keeps 7535488 s (takeRequest129 s i t) from hk.trans (g.weaken hm)
  unfold takeRequest129
  with_reducible repeat' first
  | exact Keeps.refl _
  | assumption
  | decide
  | (extract_lets +onlyGivenNames s1; have h1 : Keeps 7535488 s s1 := (by unfold s1; repeat' first | exact Keeps.refl _ | assumption | decide | refine count_keeps ?_ ?_ | refine eventFull_keeps ?_ ?_ | refine filterItem_keeps ?_ ?_ | refine itemFails_keeps ?_ ?_ | refine releaseItem_keeps ?_ ?_ | refine removeItem_keeps ?_ ?_ | refine setItems_keeps ?_ ?_ | refine Keeps.ite ?_ ?_ | (intro _ _) | split | dsimp only); clear_value s1)
  | (extract_lets +onlyGivenNames x1; clear_value x1)
  | refine count_keeps ?_ ?_
  | refine eventFull_keeps ?_ ?_
  | refine filterItem_keeps ?_ ?_
  | refine itemFails_keeps ?_ ?_
  | refine releaseItem_keeps ?_ ?_
  | refine removeItem_keeps ?_ ?_
  | refine setItems_keeps ?_ ?_
  | refine Keeps.ite ?_ ?_
  | (intro _ _)
  | split
  | dsimp only

theorem inBerr_keeps {mk : Nat} {sk : State} {s : State} {n : Nat} {reason : Nat} {am : Nat} {addr : Nat} (hk : Keeps mk sk s) (hm : 7495680 &&& mk = 7495680) :
    Keeps mk sk (inBerr s n reason am addr) := by
  suffices g : Keeps 7495680 s (inBerr s n reason am addr) from hk.trans (g.weaken hm)
  unfold inBerr
  with_reducible repeat' first
  | exact Keeps.refl _
  | assumption
  | decide
  | (extract_lets +onlyGivenNames s1; have h1 : Keeps 7495680 s s1 := (by unfold s1; repeat' first | exact Keeps.refl _ | assumption | decide | refine count_keeps ?_ ?_ | refine emit_keeps ?_ | refine event_keeps ?_ ?_ | (fail_if_no_progress refine Keeps.dob' ?_ _ rfl) | (intro _ _) | split | dsimp only); clear_value s1)
  | (extract_lets +onlyGivenNames x1; clear_value x1)
  | refine count_keeps ?_ ?_
  | refine emit_keeps ?_
  | refine event_keeps ?_ ?_
  | (fail_if_no_progress refine Keeps.dob' ?_ _ rfl)
  | (intro _ _)
  | split
  | dsimp only

theorem inFence_keeps {mk : Nat} {sk : State} {s : State} {n : Nat} {number : Nat} {cid : Nat} {answered : Bool} (hk : Keeps mk sk s) (hm : 7367552 &&& mk = 7367552) :
    Keeps mk sk (inFence s n number cid answered) := by
  suffices g : Keeps 7367552 s (inFence s n number cid answered) from hk.trans (g.weaken hm)
  unfold inFence
  with_reducible repeat' first
  | exact Keeps.refl _
  | assumption
  | decide
  | refine present_keeps ?_ ?_
  | (intro _ _)
  | split
  | dsimp only

theorem inSend_keeps {mk : Nat} {sk : State} {s : State} {n : Nat} {write : Bool} {answered : Bool} {tag : Nat} {p : Nat × Nat × Nat} {data : List Byte} (hk : Keeps mk sk s) (hm : 7502720 &&& mk = 7502720) :
    Keeps mk sk (inSend s n write answered tag p data) := by
  suffices g : Keeps 7502720 s (inSend s n write answered tag p data) from hk.trans (g.weaken hm)
  unfold inSend
  with_reducible repeat' first
  | exact Keeps.refl _
  | assumption
  | decide
  | (extract_lets +onlyGivenNames s1; have h1 : Keeps 7502720 s s1 := (by unfold s1; repeat' first | exact Keeps.refl _ | assumption | decide | refine present_keeps ?_ ?_ | refine routeTlp_keeps ?_ ?_ | refine Keeps.ite ?_ ?_ | refine Keeps.iteFst ?_ ?_ | (intro _ _) | split | dsimp only); clear_value s1)
  | (extract_lets +onlyGivenNames x1; clear_value x1)
  | refine present_keeps ?_ ?_
  | refine routeTlp_keeps ?_ ?_
  | refine Keeps.ite ?_ ?_
  | refine Keeps.iteFst ?_ ?_
  | (intro _ _)
  | split
  | dsimp only

theorem inAccess_keeps {mk : Nat} {sk : State} {s : State} {win : Nat} {x : DobIn} {write : Bool} {answered : Bool} {a : Nat} {n : Nat} {data : List Byte} (hk : Keeps mk sk s) (hm : 7502720 &&& mk = 7502720) :
    Keeps mk sk (inAccess s win x write answered a n data) := by
  suffices g : Keeps 7502720 s (inAccess s win x write answered a n data) from hk.trans (g.weaken hm)
  unfold inAccess
  with_reducible repeat' first
  | exact Keeps.refl _
  | assumption
  | decide
  | (extract_lets +onlyGivenNames s1; have h1 : Keeps 7502720 s s1 := (by unfold s1; repeat' first | exact Keeps.refl _ | assumption | decide | refine inFence_keeps ?_ ?_ | refine inSend_keeps ?_ ?_ | refine Keeps.ite ?_ ?_ | refine Keeps.iteFst ?_ ?_ | refine Keeps.foldl ?_ _ (fun u a hu => ?_) | refine Keeps.foldlFst ?_ _ (fun u a hu => ?_) | (fail_if_no_progress refine Keeps.dob' ?_ _ rfl) | (intro _ _) | split | dsimp only); clear_value s1)
  | (extract_lets +onlyGivenNames x1; clear_value x1)
  | refine inFence_keeps ?_ ?_
  | refine inSend_keeps ?_ ?_
  | refine Keeps.ite ?_ ?_
  | refine Keeps.iteFst ?_ ?_
  | refine Keeps.foldl ?_ _ (fun u a hu => ?_)
  | refine Keeps.foldlFst ?_ _ (fun u a hu => ?_)
  | (fail_if_no_progress refine Keeps.dob' ?_ _ rfl)
  | (intro _ _)
  | split
  | dsimp only

theorem inRead_keeps {mk : Nat} {sk : State} {s : State} {x : DobIn} (hk : Keeps mk sk s) (hm : 7502720 &&& mk = 7502720) :
    Keeps mk sk (inRead s x) := by
  suffices g : Keeps 7502720 s (inRead s x) from hk.trans (g.weaken hm)
  unfold inRead
  with_reducible repeat' first
  | exact Keeps.refl _
  | assumption
  | decide
  | (extract_lets +onlyGivenNames s1; have h1 : Keeps 7502720 s s1 := (by unfold s1; repeat' first | exact Keeps.refl _ | assumption | decide | refine inAccess_keeps ?_ ?_ | (intro _ _) | split | dsimp only); clear_value s1)
  | (extract_lets +onlyGivenNames x1; clear_value x1)
  | refine inAccess_keeps ?_ ?_
  | (intro _ _)
  | split
  | dsimp only

theorem inWrite_keeps {mk : Nat} {sk : State} {s : State} {x : DobIn} (hk : Keeps mk sk s) (hm : 7502720 &&& mk = 7502720) :
    Keeps mk sk (inWrite s x) := by
  suffices g : Keeps 7502720 s (inWrite s x) from hk.trans (g.weaken hm)
  unfold inWrite
  with_reducible repeat' first
  | exact Keeps.refl _
  | assumption
  | decide
  | (extract_lets +onlyGivenNames s1; have h1 : Keeps 7502720 s s1 := (by unfold s1; repeat' first | exact Keeps.refl _ | assumption | decide | refine emit_keeps ?_ | refine inAccess_keeps ?_ ?_ | refine Keeps.ite ?_ ?_ | (fail_if_no_progress refine Keeps.dob' ?_ _ rfl) | (intro _ _) | split | dsimp only); clear_value s1)
  | (extract_lets +onlyGivenNames x1; clear_value x1)
  | refine emit_keeps ?_
  | refine inAccess_keeps ?_ ?_
  | refine Keeps.ite ?_ ?_
  | (fail_if_no_progress refine Keeps.dob' ?_ _ rfl)
  | (intro _ _)
  | split
  | dsimp only

theorem drainInbuf_keeps {mk : Nat} {sk : State}  {k : Nat} {s : State} (hk : Keeps mk sk s) (hm : 7502720 &&& mk = 7502720) :
    Keeps mk sk (drainInbuf k s) := by
  have aux : ∀ (k : Nat) (u t : State), Keeps 7502720 u t → Keeps 7502720 u (drainInbuf k t) := by
    intro k
    induction k with
    | zero => intro  u t h0; unfold drainInbuf; exact h0
    | succ n ih =>
      intro  u t h0
      unfold drainInbuf
      with_reducible repeat' first
        | with_reducible exact Keeps.refl _
        | with_reducible assumption
        | decide
        | (extract_lets +onlyGivenNames q1; have hq1 : Keeps 7502720 u q1.1 := (by unfold q1; repeat' first | with_reducible exact Keeps.refl _ | with_reducible assumption | decide | with_reducible refine ih _ _ ?_ | refine inAccess_keeps ?_ ?_ | refine Keeps.ite ?_ ?_ | (fail_if_no_progress refine Keeps.dob' ?_ _ rfl) | (intro _ _) | split | dsimp only); clear_value q1)
        | (extract_lets +onlyGivenNames s1; have h1 : Keeps 7502720 u s1 := (by unfold s1; repeat' first | with_reducible exact Keeps.refl _ | with_reducible assumption | decide | with_reducible refine ih _ _ ?_ | refine inAccess_keeps ?_ ?_ | refine Keeps.ite ?_ ?_ | (fail_if_no_progress refine Keeps.dob' ?_ _ rfl) | (intro _ _) | split | dsimp only); clear_value s1)
        | (extract_lets +onlyGivenNames x1; clear_value x1)
        | with_reducible refine ih _ _ ?_
        | refine inAccess_keeps ?_ ?_
        | refine Keeps.ite ?_ ?_
        | (fail_if_no_progress refine Keeps.dob' ?_ _ rfl)
        | (intro _ _)
        | split
        | dsimp only
  exact hk.trans ((aux k s s (Keeps.refl s)).weaken hm)

theorem inStart_keeps {mk : Nat} {sk : State} {s : State} {x : DobIn} (hk : Keeps mk sk s) (hm : 7502720 &&& mk = 7502720) :
    Keeps mk sk (inStart s x) := by
  suffices g : Keeps 7502720 s (inStart s x) from hk.trans (g.weaken hm)
  unfold inStart
  with_reducible repeat' first
  | exact Keeps.refl _
  | assumption
  | decide
  | refine inRead_keeps ?_ ?_
  | refine inWrite_keeps ?_ ?_
  | refine Keeps.ite ?_ ?_
  | (fail_if_no_progress refine Keeps.dob' ?_ _ rfl)
  | (intro _ _)
  | split
  | dsimp only

theorem dobbySettled_keeps {mk : Nat} {sk : State} {s : State} (hk : Keeps mk sk s) (hm : 7502720 &&& mk = 7502720) :
    Keeps mk sk (dobbySettled s) := by
  suffices g : Keeps 7502720 s (dobbySettled s) from hk.trans (g.weaken hm)
  unfold dobbySettled
  with_reducible repeat' first
  | exact Keeps.refl _
  | assumption
  | decide
  | (extract_lets +onlyGivenNames q1; have hq1 : Keeps 7502720 s q1.1 := (by unfold q1; repeat' first | exact Keeps.refl _ | assumption | decide | refine drainInbuf_keeps ?_ ?_ | refine inStart_keeps ?_ ?_ | refine Keeps.ite ?_ ?_ | (intro _ _) | split | dsimp only); clear_value q1)
  | (extract_lets +onlyGivenNames s1; have h1 : Keeps 7502720 s s1 := (by unfold s1; repeat' first | exact Keeps.refl _ | assumption | decide | refine drainInbuf_keeps ?_ ?_ | refine inStart_keeps ?_ ?_ | refine Keeps.ite ?_ ?_ | (intro _ _) | split | dsimp only); clear_value s1)
  | (extract_lets +onlyGivenNames x1; clear_value x1)
  | refine drainInbuf_keeps ?_ ?_
  | refine inStart_keeps ?_ ?_
  | refine Keeps.ite ?_ ?_
  | (intro _ _)
  | split
  | dsimp only

theorem semTaken_keeps {mk : Nat} {sk : State} {s : State} {k : Nat} {owner : Nat} (hk : Keeps mk sk s) (hm : 1179648 &&& mk = 1179648) :
    Keeps mk sk (semTaken s k owner).1 := by
  suffices g : Keeps 1179648 s (semTaken s k owner).1 from hk.trans (g.weaken hm)
  unfold semTaken
  with_reducible repeat' first
  | exact Keeps.refl _
  | assumption
  | decide
  | (extract_lets +onlyGivenNames s1; have h1 : Keeps 1179648 s s1 := (by unfold s1; repeat' first | exact Keeps.refl _ | assumption | decide | refine count_keeps ?_ ?_ | refine Keeps.ite ?_ ?_ | refine Keeps.iteFst ?_ ?_ | (fail_if_no_progress refine Keeps.dob' ?_ _ rfl) | (intro _ _) | split | dsimp only); clear_value s1)
  | (extract_lets +onlyGivenNames x1; clear_value x1)
  | refine count_keeps ?_ ?_
  | refine Keeps.ite ?_ ?_
  | refine Keeps.iteFst ?_ ?_
  | (fail_if_no_progress refine Keeps.dob' ?_ _ rfl)
  | (intro _ _)
  | split
  | dsimp only

theorem semFreed_keeps {mk : Nat} {sk : State} {s : State} {k : Nat} {value : Nat} (hk : Keeps mk sk s) (hm : 131072 &&& mk = 131072) :
    Keeps mk sk (semFreed s k value) := by
  suffices g : Keeps 131072 s (semFreed s k value) from hk.trans (g.weaken hm)
  unfold semFreed
  with_reducible repeat' first
  | exact Keeps.refl _
  | assumption
  | decide
  | refine Keeps.ite ?_ ?_
  | (fail_if_no_progress refine Keeps.dob' ?_ _ rfl)
  | (intro _ _)
  | split
  | dsimp only

theorem vmeSemaphoreCycle_keeps {mk : Nat} {sk : State} {k : Nat} {am : Nat} {write : Bool} {value : Nat} {s : State} (hk : Keeps mk sk s) (hm : 1179648 &&& mk = 1179648) :
    Keeps mk sk (vmeSemaphoreCycle k am write value s) := by
  suffices g : Keeps 1179648 s (vmeSemaphoreCycle k am write value s) from hk.trans (g.weaken hm)
  unfold vmeSemaphoreCycle
  with_reducible repeat' first
  | exact Keeps.refl _
  | assumption
  | decide
  | (extract_lets +onlyGivenNames q1; have hq1 : Keeps 1179648 s q1.1 := (by unfold q1; repeat' first | exact Keeps.refl _ | assumption | decide | refine emit_keeps ?_ | refine semFreed_keeps ?_ ?_ | refine semTaken_keeps ?_ ?_ | refine Keeps.ite ?_ ?_ | refine Keeps.iteFst ?_ ?_ | (intro _ _) | split | dsimp only); clear_value q1)
  | (extract_lets +onlyGivenNames s1; have h1 : Keeps 1179648 s s1 := (by unfold s1; repeat' first | exact Keeps.refl _ | assumption | decide | refine emit_keeps ?_ | refine semFreed_keeps ?_ ?_ | refine semTaken_keeps ?_ ?_ | refine Keeps.ite ?_ ?_ | refine Keeps.iteFst ?_ ?_ | (intro _ _) | split | dsimp only); clear_value s1)
  | (extract_lets +onlyGivenNames x1; clear_value x1)
  | refine emit_keeps ?_
  | refine semFreed_keeps ?_ ?_
  | refine semTaken_keeps ?_ ?_
  | refine Keeps.ite ?_ ?_
  | refine Keeps.iteFst ?_ ?_
  | (intro _ _)
  | split
  | dsimp only

theorem execVmeSemaphoreCycle_keeps {mk : Nat} {sk : State} {sem : Fin 16} {am : Nat} {write : Bool} {value : BitVec 32} {s : State} (hk : Keeps mk sk s) (hm : 1179648 &&& mk = 1179648) :
    ∃ t', execVmeSemaphoreCycle sem am write value s = .next t' ∧ Keeps mk sk t' := by
  suffices g : ∃ t', execVmeSemaphoreCycle sem am write value s = .next t' ∧ Keeps 1179648 s t' from g.imp fun _ h => ⟨h.1, hk.trans (h.2.weaken hm)⟩
  refine ⟨_, rfl, ?_⟩
  with_reducible repeat' first
  | exact Keeps.refl _
  | assumption
  | decide
  | refine vmeSemaphoreCycle_keeps ?_ ?_
  | (intro _ _)
  | split
  | dsimp only

theorem vmeInboundCycle_keeps {mk : Nat} {sk : State} {c : VmeCycle} {s : State} (hk : Keeps mk sk s) (hm : 7502720 &&& mk = 7502720) :
    Keeps mk sk (vmeInboundCycle c s) := by
  suffices g : Keeps 7502720 s (vmeInboundCycle c s) from hk.trans (g.weaken hm)
  unfold vmeInboundCycle
  with_reducible repeat' first
  | exact Keeps.refl _
  | assumption
  | decide
  | (extract_lets +onlyGivenNames s1; have h1 : Keeps 7502720 s s1 := (by unfold s1; repeat' first | exact Keeps.refl _ | assumption | decide | refine count_keeps ?_ ?_ | refine denied_keeps ?_ ?_ | refine dobbySettled_keeps ?_ ?_ | refine inBerr_keeps ?_ ?_ | refine inStart_keeps ?_ ?_ | refine vmeSemaphoreCycle_keeps ?_ ?_ | refine Keeps.ite ?_ ?_ | refine Keeps.foldl ?_ _ (fun u a hu => ?_) | refine Keeps.foldlFst ?_ _ (fun u a hu => ?_) | (fail_if_no_progress refine Keeps.win' ?_ _ rfl) | (fail_if_no_progress refine Keeps.dob' ?_ _ rfl) | (fail_if_no_progress (refine Keeps.several ?_ (by refine ⟨?_, ?_, ?_, ?_, ?_, ?_, ?_, ?_, ?_, ?_, ?_, ?_, ?_, ?_, ?_, ?_, ?_, ?_, ?_, ?_⟩ <;> first | exact Or.inl rfl | exact Or.inr rfl))) | (intro _ _) | split | dsimp only); clear_value s1)
  | (extract_lets +onlyGivenNames x1; clear_value x1)
  | refine count_keeps ?_ ?_
  | refine denied_keeps ?_ ?_
  | refine dobbySettled_keeps ?_ ?_
  | refine inBerr_keeps ?_ ?_
  | refine inStart_keeps ?_ ?_
  | refine vmeSemaphoreCycle_keeps ?_ ?_
  | refine Keeps.ite ?_ ?_
  | refine Keeps.foldl ?_ _ (fun u a hu => ?_)
  | refine Keeps.foldlFst ?_ _ (fun u a hu => ?_)
  | (fail_if_no_progress refine Keeps.win' ?_ _ rfl)
  | (fail_if_no_progress refine Keeps.dob' ?_ _ rfl)
  | (fail_if_no_progress (refine Keeps.several ?_ (by refine ⟨?_, ?_, ?_, ?_, ?_, ?_, ?_, ?_, ?_, ?_, ?_, ?_, ?_, ?_, ?_, ?_, ?_, ?_, ?_, ?_⟩ <;> first | exact Or.inl rfl | exact Or.inr rfl)))
  | (intro _ _)
  | split
  | dsimp only

theorem execVmeInboundCycle_keeps {mk : Nat} {sk : State} {c : VmeCycle} {s : State} (hk : Keeps mk sk s) (hm : 7502720 &&& mk = 7502720) :
    ∃ t', execVmeInboundCycle c s = .next t' ∧ Keeps mk sk t' := by
  suffices g : ∃ t', execVmeInboundCycle c s = .next t' ∧ Keeps 7502720 s t' from g.imp fun _ h => ⟨h.1, hk.trans (h.2.weaken hm)⟩
  refine ⟨_, rfl, ?_⟩
  with_reducible repeat' first
  | exact Keeps.refl _
  | assumption
  | decide
  | refine vmeInboundCycle_keeps ?_ ?_
  | (intro _ _)
  | split
  | dsimp only

theorem inAnswered_keeps {mk : Nat} {sk : State} {s : State} {x : DobIn} (hk : Keeps mk sk s) (hm : 7502720 &&& mk = 7502720) :
    Keeps mk sk (inAnswered s x) := by
  suffices g : Keeps 7502720 s (inAnswered s x) from hk.trans (g.weaken hm)
  unfold inAnswered
  with_reducible repeat' first
  | exact Keeps.refl _
  | assumption
  | decide
  | (extract_lets +onlyGivenNames s1; have h1 : Keeps 7502720 s s1 := (by unfold s1; repeat' first | exact Keeps.refl _ | assumption | decide | refine emit_keeps ?_ | refine inBerr_keeps ?_ ?_ | refine inRead_keeps ?_ ?_ | refine inWrite_keeps ?_ ?_ | refine Keeps.ite ?_ ?_ | refine Keeps.iteFst ?_ ?_ | (fail_if_no_progress refine Keeps.dob' ?_ _ rfl) | (intro _ _) | split | dsimp only); clear_value s1)
  | (extract_lets +onlyGivenNames x1; clear_value x1)
  | refine emit_keeps ?_
  | refine inBerr_keeps ?_ ?_
  | refine inRead_keeps ?_ ?_
  | refine inWrite_keeps ?_ ?_
  | refine Keeps.ite ?_ ?_
  | refine Keeps.iteFst ?_ ?_
  | (fail_if_no_progress refine Keeps.dob' ?_ _ rfl)
  | (intro _ _)
  | split
  | dsimp only

theorem lateCompletion_keeps {mk : Nat} {sk : State} {s : State} (hk : Keeps mk sk s) (hm : 7495680 &&& mk = 7495680) :
    Keeps mk sk (lateCompletion s) := by
  suffices g : Keeps 7495680 s (lateCompletion s) from hk.trans (g.weaken hm)
  unfold lateCompletion
  with_reducible repeat' first
  | exact Keeps.refl _
  | assumption
  | decide
  | (extract_lets +onlyGivenNames s1; have h1 : Keeps 7495680 s s1 := (by unfold s1; repeat' first | exact Keeps.refl _ | assumption | decide | refine count_keeps ?_ ?_ | refine event_keeps ?_ ?_ | (fail_if_no_progress refine Keeps.dob' ?_ _ rfl) | (intro _ _) | split | dsimp only); clear_value s1)
  | (extract_lets +onlyGivenNames x1; clear_value x1)
  | refine count_keeps ?_ ?_
  | refine event_keeps ?_ ?_
  | (fail_if_no_progress refine Keeps.dob' ?_ _ rfl)
  | (intro _ _)
  | split
  | dsimp only

theorem takeCompletion129_keeps {mk : Nat} {sk : State} {s : State} {i : LoomItem} {t : Tlp} (hk : Keeps mk sk s) (hm : 7502720 &&& mk = 7502720) :
    Keeps mk sk (takeCompletion129 s i t) := by
  suffices g : Keeps 7502720 s (takeCompletion129 s i t) from hk.trans (g.weaken hm)
  unfold takeCompletion129
  with_reducible repeat' first
  | exact Keeps.refl _
  | assumption
  | decide
  | (extract_lets +onlyGivenNames s1; have h1 : Keeps 7502720 s s1 := (by unfold s1; repeat' first | exact Keeps.refl _ | assumption | decide | refine filterItem_keeps ?_ ?_ | refine inAnswered_keeps ?_ ?_ | refine lateCompletion_keeps ?_ ?_ | refine releaseItem_keeps ?_ ?_ | refine removeItem_keeps ?_ ?_ | refine Keeps.ite ?_ ?_ | (fail_if_no_progress refine Keeps.dob' ?_ _ rfl) | (intro _ _) | split | dsimp only); clear_value s1)
  | (extract_lets +onlyGivenNames x1; clear_value x1)
  | refine filterItem_keeps ?_ ?_
  | refine inAnswered_keeps ?_ ?_
  | refine lateCompletion_keeps ?_ ?_
  | refine releaseItem_keeps ?_ ?_
  | refine removeItem_keeps ?_ ?_
  | refine Keeps.ite ?_ ?_
  | (fail_if_no_progress refine Keeps.dob' ?_ _ rfl)
  | (intro _ _)
  | split
  | dsimp only

theorem dobbyTake_keeps {mk : Nat} {sk : State} {r : StoreRead} {s : State} (hk : Keeps mk sk s) (hm : 7535488 &&& mk = 7535488) :
    Keeps mk sk (dobbyTake r s) := by
  suffices g : Keeps 7535488 s (dobbyTake r s) from hk.trans (g.weaken hm)
  unfold dobbyTake
  with_reducible repeat' first
  | exact Keeps.refl _
  | assumption
  | decide
  | (extract_lets +onlyGivenNames q1; have hq1 : Keeps 7535488 s q1.1 := (by unfold q1; repeat' first | exact Keeps.refl _ | assumption | decide | refine ageOut_keeps ?_ ?_ | refine releaseItem_keeps ?_ ?_ | refine removeItem_keeps ?_ ?_ | refine storeRead_keeps ?_ ?_ | refine takeCompletion129_keeps ?_ ?_ | refine takeRequest129_keeps ?_ ?_ | refine Keeps.ite ?_ ?_ | refine Keeps.ofPair (by assumption) ?_ | (intro _ _) | split | dsimp only); clear_value q1)
  | (extract_lets +onlyGivenNames s1; have h1 : Keeps 7535488 s s1 := (by unfold s1; repeat' first | exact Keeps.refl _ | assumption | decide | refine ageOut_keeps ?_ ?_ | refine releaseItem_keeps ?_ ?_ | refine removeItem_keeps ?_ ?_ | refine storeRead_keeps ?_ ?_ | refine takeCompletion129_keeps ?_ ?_ | refine takeRequest129_keeps ?_ ?_ | refine Keeps.ite ?_ ?_ | refine Keeps.ofPair (by assumption) ?_ | (intro _ _) | split | dsimp only); clear_value s1)
  | (extract_lets +onlyGivenNames x1; clear_value x1)
  | refine ageOut_keeps ?_ ?_
  | refine releaseItem_keeps ?_ ?_
  | refine removeItem_keeps ?_ ?_
  | refine storeRead_keeps ?_ ?_
  | refine takeCompletion129_keeps ?_ ?_
  | refine takeRequest129_keeps ?_ ?_
  | refine Keeps.ite ?_ ?_
  | refine Keeps.ofPair (by assumption) ?_
  | (intro _ _)
  | split
  | dsimp only

theorem beat_keeps {mk : Nat} {sk : State} {s : State} {it : DobItem} {st : DobStep} {write : Bool} (hk : Keeps mk sk s) (hm : 131072 &&& mk = 131072) :
    Keeps mk sk (beat s it st write) := by
  suffices g : Keeps 131072 s (beat s it st write) from hk.trans (g.weaken hm)
  unfold beat
  with_reducible repeat' first
  | exact Keeps.refl _
  | assumption
  | decide
  | (extract_lets +onlyGivenNames s1; have h1 : Keeps 131072 s s1 := (by unfold s1; repeat' first | exact Keeps.refl _ | assumption | decide | refine emit_keeps ?_ | refine Keeps.ite ?_ ?_ | (fail_if_no_progress refine Keeps.dob' ?_ _ rfl) | (intro _ _) | split | dsimp only); clear_value s1)
  | (extract_lets +onlyGivenNames x1; clear_value x1)
  | refine emit_keeps ?_
  | refine Keeps.ite ?_ ?_
  | (fail_if_no_progress refine Keeps.dob' ?_ _ rfl)
  | (intro _ _)
  | split
  | dsimp only

theorem vmeCycleStart_keeps {mk : Nat} {sk : State} {s : State} (hk : Keeps mk sk s) (hm : 7535488 &&& mk = 7535488) :
    Keeps mk sk (vmeCycleStart s) := by
  suffices g : Keeps 7535488 s (vmeCycleStart s) from hk.trans (g.weaken hm)
  unfold vmeCycleStart
  with_reducible repeat' first
  | exact Keeps.refl _
  | assumption
  | decide
  | (extract_lets +onlyGivenNames s1; have h1 : Keeps 7535488 s s1 := (by unfold s1; repeat' first | exact Keeps.refl _ | assumption | decide | refine beat_keeps ?_ ?_ | refine busYield_keeps ?_ ?_ | refine count_keeps ?_ ?_ | refine itemDone_keeps ?_ ?_ | refine itemFails_keeps ?_ ?_ | refine setItem_keeps ?_ ?_ | refine Keeps.ite ?_ ?_ | (intro _ _) | split | dsimp only); clear_value s1)
  | (extract_lets +onlyGivenNames x1; clear_value x1)
  | refine beat_keeps ?_ ?_
  | refine busYield_keeps ?_ ?_
  | refine count_keeps ?_ ?_
  | refine itemDone_keeps ?_ ?_
  | refine itemFails_keeps ?_ ?_
  | refine setItem_keeps ?_ ?_
  | refine Keeps.ite ?_ ?_
  | (intro _ _)
  | split
  | dsimp only

theorem execVmeCycleStart_keeps {mk : Nat} {sk : State} {s : State} (hk : Keeps mk sk s) (hm : 7535488 &&& mk = 7535488) :
    ∃ t', execVmeCycleStart s = .next t' ∧ Keeps mk sk t' := by
  suffices g : ∃ t', execVmeCycleStart s = .next t' ∧ Keeps 7535488 s t' from g.imp fun _ h => ⟨h.1, hk.trans (h.2.weaken hm)⟩
  refine ⟨_, rfl, ?_⟩
  with_reducible repeat' first
  | exact Keeps.refl _
  | assumption
  | decide
  | refine vmeCycleStart_keeps ?_ ?_
  | (intro _ _)
  | split
  | dsimp only


theorem atomicBeat_keeps {mk : Nat} {sk s : State} {it : DobItem} {c : DobCycle} {data : List Byte} (hk : Keeps mk sk s)
    (hm : 7502720 &&& mk = 7502720) : Keeps mk sk (atomicBeat s it c data) := by
  suffices g : Keeps 7502720 s (atomicBeat s it c data) from hk.trans (g.weaken hm)
  unfold atomicBeat
  extract_lets +onlyGivenNames w n i1 same finish go
  have hf : ∀ u, Keeps 7502720 s u → Keeps 7502720 s (finish u) := fun u hu => itemDone_keeps hu (by decide)
  have hg : ∀ u p, Keeps 7502720 s u → Keeps 7502720 s (go u p) := fun u p hu => setItem_keeps (Keeps.dob' hu _ rfl) (by decide)
  have h0 : Keeps 7502720 s s := Keeps.refl s
  clear_value go finish
  refine Keeps.ite (Keeps.ite ?_ (hf _ h0)) ?_
  · exact beat_keeps (setItem_keeps h0 (by decide)) (by decide)
  · split
    · exact hg _ _ h0
    · exact beat_keeps (setItem_keeps h0 (by decide)) (by decide)
    · exact Keeps.ite (hf _ h0) (hg _ _ h0)
    · exact hf _ h0

theorem vmeCycleEnd_keeps {mk : Nat} {sk : State} {lines : Nat} {s : State} (hk : Keeps mk sk s) (hm : 7502720 &&& mk = 7502720) :
    Keeps mk sk (vmeCycleEnd lines s) := by
  suffices g : Keeps 7502720 s (vmeCycleEnd lines s) from hk.trans (g.weaken hm)
  unfold vmeCycleEnd
  with_reducible repeat' first
  | exact Keeps.refl _
  | assumption
  | decide
  | (extract_lets +onlyGivenNames q1; have hq1 : Keeps 7502720 s q1.1 := (by unfold q1; repeat' first | exact Keeps.refl _ | assumption | decide | refine atomicBeat_keeps ?_ ?_ | refine beat_keeps ?_ ?_ | refine busYield_keeps ?_ ?_ | refine count_keeps ?_ ?_ | refine itemDone_keeps ?_ ?_ | refine setItem_keeps ?_ ?_ | refine Keeps.ite ?_ ?_ | (fail_if_no_progress refine Keeps.dob' ?_ _ rfl) | (intro _ _) | split | dsimp only); clear_value q1)
  | (extract_lets +onlyGivenNames s1; have h1 : Keeps 7502720 s s1 := (by unfold s1; repeat' first | exact Keeps.refl _ | assumption | decide | refine atomicBeat_keeps ?_ ?_ | refine beat_keeps ?_ ?_ | refine busYield_keeps ?_ ?_ | refine count_keeps ?_ ?_ | refine itemDone_keeps ?_ ?_ | refine setItem_keeps ?_ ?_ | refine Keeps.ite ?_ ?_ | (fail_if_no_progress refine Keeps.dob' ?_ _ rfl) | (intro _ _) | split | dsimp only); clear_value s1)
  | (extract_lets +onlyGivenNames x1; clear_value x1)
  | refine atomicBeat_keeps ?_ ?_
  | refine beat_keeps ?_ ?_
  | refine busYield_keeps ?_ ?_
  | refine count_keeps ?_ ?_
  | refine itemDone_keeps ?_ ?_
  | refine setItem_keeps ?_ ?_
  | refine Keeps.ite ?_ ?_
  | (fail_if_no_progress refine Keeps.dob' ?_ _ rfl)
  | (intro _ _)
  | split
  | dsimp only

theorem execVmeCycleEnd_keeps {mk : Nat} {sk : State} {lines : BitVec 64} {s : State} (hk : Keeps mk sk s) (hm : 7502720 &&& mk = 7502720) :
    ∃ t', execVmeCycleEnd lines s = .next t' ∧ Keeps mk sk t' := by
  suffices g : ∃ t', execVmeCycleEnd lines s = .next t' ∧ Keeps 7502720 s t' from g.imp fun _ h => ⟨h.1, hk.trans (h.2.weaken hm)⟩
  refine ⟨_, rfl, ?_⟩
  with_reducible repeat' first
  | exact Keeps.refl _
  | assumption
  | decide
  | refine vmeCycleEnd_keeps ?_ ?_
  | (intro _ _)
  | split
  | dsimp only

theorem iackFails_keeps {mk : Nat} {sk : State} {s : State} {l : Nat} {reason : Nat} (hk : Keeps mk sk s) (hm : 7495680 &&& mk = 7495680) :
    Keeps mk sk (iackFails s l reason) := by
  suffices g : Keeps 7495680 s (iackFails s l reason) from hk.trans (g.weaken hm)
  unfold iackFails
  with_reducible repeat' first
  | exact Keeps.refl _
  | assumption
  | decide
  | refine event_keeps ?_ ?_
  | (fail_if_no_progress refine Keeps.dob' ?_ _ rfl)
  | (intro _ _)
  | split
  | dsimp only

theorem vmeBerr_keeps {mk : Nat} {sk : State} {s : State} (hk : Keeps mk sk s) (hm : 7535488 &&& mk = 7535488) :
    Keeps mk sk (vmeBerr s) := by
  suffices g : Keeps 7535488 s (vmeBerr s) from hk.trans (g.weaken hm)
  unfold vmeBerr
  with_reducible repeat' first
  | exact Keeps.refl _
  | assumption
  | decide
  | refine iackFails_keeps ?_ ?_
  | refine itemFails_keeps ?_ ?_
  | (intro _ _)
  | split
  | dsimp only

theorem execVmeBerr_keeps {mk : Nat} {sk : State} {s : State} (hk : Keeps mk sk s) (hm : 7535488 &&& mk = 7535488) :
    ∃ t', execVmeBerr s = .next t' ∧ Keeps mk sk t' := by
  suffices g : ∃ t', execVmeBerr s = .next t' ∧ Keeps 7535488 s t' from g.imp fun _ h => ⟨h.1, hk.trans (h.2.weaken hm)⟩
  refine ⟨_, rfl, ?_⟩
  with_reducible repeat' first
  | exact Keeps.refl _
  | assumption
  | decide
  | refine vmeBerr_keeps ?_ ?_
  | (intro _ _)
  | split
  | dsimp only

theorem sysconExpiry_keeps {mk : Nat} {sk : State} {s : State} {am : Nat} (hk : Keeps mk sk s) (hm : 7364608 &&& mk = 7364608) :
    Keeps mk sk (sysconExpiry s am) := by
  suffices g : Keeps 7364608 s (sysconExpiry s am) from hk.trans (g.weaken hm)
  unfold sysconExpiry
  with_reducible repeat' first
  | exact Keeps.refl _
  | assumption
  | decide
  | refine event_keeps ?_ ?_
  | refine rateEvent_keeps ?_ rfl (fun u a hu => ?_)
  | refine Keeps.ite ?_ ?_
  | (intro _ _)
  | split
  | dsimp only


theorem dobBusTimerExpiry_keeps {mk : Nat} {sk s : State} (hk : Keeps mk sk s) (hm : 7535488 &&& mk = 7535488) :
    Keeps mk sk (dobBusTimerExpiry s) := by
  suffices g : Keeps 7535488 s (dobBusTimerExpiry s) from hk.trans (g.weaken hm)
  unfold dobBusTimerExpiry
  extract_lets +onlyGivenNames past own
  have ho : ∀ t, own = some t → Keeps 7535488 s t := by
    unfold own
    intro t e
    split at e
    · split at e
      · injection e with e
        subst e
        exact itemFails_keeps (sysconExpiry_keeps (count_keeps (Keeps.refl s) (by decide)) (by decide)) (by decide)
      · cases e
    · cases e
  clear_value own past
  split
  · exact ho _ rfl
  · split
    · exact Keeps.ite (iackFails_keeps (count_keeps (Keeps.refl s) (by decide)) (by decide)) (Keeps.refl s)
    · exact Keeps.ite (inBerr_keeps (sysconExpiry_keeps (count_keeps (Keeps.refl s) (by decide)) (by decide)) (by decide)) (Keeps.refl s)
    · exact Keeps.ite (emit_keeps (sysconExpiry_keeps (count_keeps (Keeps.dob' (Keeps.refl s) _ rfl) (by decide)) (by decide))) (Keeps.refl s)
    · split
      · exact Keeps.ite (itemFails_keeps (count_keeps (Keeps.refl s) (by decide)) (by decide)) (Keeps.refl s)
      · exact Keeps.refl s

theorem lockBackoff_keeps {mk : Nat} {sk : State} {s : State} (hk : Keeps mk sk s) (hm : 7495680 &&& mk = 7495680) :
    Keeps mk sk (lockBackoff s) := by
  suffices g : Keeps 7495680 s (lockBackoff s) from hk.trans (g.weaken hm)
  unfold lockBackoff
  with_reducible repeat' first
  | exact Keeps.refl _
  | assumption
  | decide
  | (extract_lets +onlyGivenNames s1; have h1 : Keeps 7495680 s s1 := (by unfold s1; repeat' first | exact Keeps.refl _ | assumption | decide | refine count_keeps ?_ ?_ | refine eventIn_keeps ?_ ?_ | refine Keeps.ite ?_ ?_ | (fail_if_no_progress refine Keeps.dob' ?_ _ rfl) | (intro _ _) | split | dsimp only); clear_value s1)
  | (extract_lets +onlyGivenNames x1; clear_value x1)
  | refine count_keeps ?_ ?_
  | refine eventIn_keeps ?_ ?_
  | refine Keeps.ite ?_ ?_
  | (fail_if_no_progress refine Keeps.dob' ?_ _ rfl)
  | (intro _ _)
  | split
  | dsimp only

theorem execLockBackoff_keeps {mk : Nat} {sk : State} {s : State} (hk : Keeps mk sk s) (hm : 7495680 &&& mk = 7495680) :
    ∃ t', execLockBackoff s = .next t' ∧ Keeps mk sk t' := by
  suffices g : ∃ t', execLockBackoff s = .next t' ∧ Keeps 7495680 s t' from g.imp fun _ h => ⟨h.1, hk.trans (h.2.weaken hm)⟩
  refine ⟨_, rfl, ?_⟩
  with_reducible repeat' first
  | exact Keeps.refl _
  | assumption
  | decide
  | refine lockBackoff_keeps ?_ ?_
  | (intro _ _)
  | split
  | dsimp only

theorem unlockMessage_keeps {mk : Nat} {sk : State} {v : Nat} {s : State} (hk : Keeps mk sk s) (hm : 131072 &&& mk = 131072) :
    Keeps mk sk (unlockMessage v s) := by
  suffices g : Keeps 131072 s (unlockMessage v s) from hk.trans (g.weaken hm)
  unfold unlockMessage
  with_reducible repeat' first
  | exact Keeps.refl _
  | assumption
  | decide
  | refine busYield_keeps ?_ ?_
  | refine Keeps.ite ?_ ?_
  | (fail_if_no_progress refine Keeps.dob' ?_ _ rfl)
  | (intro _ _)
  | split
  | dsimp only

theorem execUnlockMessage_keeps {mk : Nat} {sk : State} {v : Vs} {s : State} (hk : Keeps mk sk s) (hm : 131072 &&& mk = 131072) :
    ∃ t', execUnlockMessage v s = .next t' ∧ Keeps mk sk t' := by
  suffices g : ∃ t', execUnlockMessage v s = .next t' ∧ Keeps 131072 s t' from g.imp fun _ h => ⟨h.1, hk.trans (h.2.weaken hm)⟩
  refine ⟨_, rfl, ?_⟩
  with_reducible repeat' first
  | exact Keeps.refl _
  | assumption
  | decide
  | refine unlockMessage_keeps ?_ ?_
  | (intro _ _)
  | split
  | dsimp only

theorem busRequestPending_keeps {mk : Nat} {sk : State} {s : State} (hk : Keeps mk sk s) (hm : 131072 &&& mk = 131072) :
    Keeps mk sk (busRequestPending s) := by
  suffices g : Keeps 131072 s (busRequestPending s) from hk.trans (g.weaken hm)
  unfold busRequestPending
  with_reducible repeat' first
  | exact Keeps.refl _
  | assumption
  | decide
  | refine Keeps.ite ?_ ?_
  | (fail_if_no_progress refine Keeps.dob' ?_ _ rfl)
  | (intro _ _)
  | split
  | dsimp only

theorem execBusRequestPending_keeps {mk : Nat} {sk : State} {s : State} (hk : Keeps mk sk s) (hm : 131072 &&& mk = 131072) :
    ∃ t', execBusRequestPending s = .next t' ∧ Keeps mk sk t' := by
  suffices g : ∃ t', execBusRequestPending s = .next t' ∧ Keeps 131072 s t' from g.imp fun _ h => ⟨h.1, hk.trans (h.2.weaken hm)⟩
  refine ⟨_, rfl, ?_⟩
  with_reducible repeat' first
  | exact Keeps.refl _
  | assumption
  | decide
  | refine busRequestPending_keeps ?_ ?_
  | (intro _ _)
  | split
  | dsimp only

theorem answerHost_keeps {mk : Nat} {sk : State} {s : State} {v : Nat} {rid : Nat} {tag : Nat} {data : List Byte} (hk : Keeps mk sk s) (hm : 7371648 &&& mk = 7371648) :
    Keeps mk sk (answerHost s v rid tag data) := by
  suffices g : Keeps 7371648 s (answerHost s v rid tag data) from hk.trans (g.weaken hm)
  unfold answerHost
  with_reducible repeat' first
  | exact Keeps.refl _
  | assumption
  | decide
  | (extract_lets +onlyGivenNames s1; have h1 : Keeps 7371648 s s1 := (by unfold s1; repeat' first | exact Keeps.refl _ | assumption | decide | refine answer_keeps ?_ ?_ | (intro _ _) | split | dsimp only); clear_value s1)
  | (extract_lets +onlyGivenNames x1; clear_value x1)
  | refine answer_keeps ?_ ?_
  | (intro _ _)
  | split
  | dsimp only

theorem semClaim_keeps {mk : Nat} {sk : State} {s : State} {v : Nat} {k : Nat} (hk : Keeps mk sk s) (hm : 1179648 &&& mk = 1179648) :
    Keeps mk sk (semClaim s v k).1 := by
  suffices g : Keeps 1179648 s (semClaim s v k).1 from hk.trans (g.weaken hm)
  unfold semClaim
  with_reducible repeat' first
  | exact Keeps.refl _
  | assumption
  | decide
  | refine semTaken_keeps ?_ ?_
  | (intro _ _)
  | split
  | dsimp only

theorem semRead_keeps {mk : Nat} {sk : State} {v : Nat} {k : Nat} {rid : Nat} {tag : Nat} {s : State} (hk : Keeps mk sk s) (hm : 7502720 &&& mk = 7502720) :
    Keeps mk sk (semRead v k rid tag s) := by
  suffices g : Keeps 7502720 s (semRead v k rid tag s) from hk.trans (g.weaken hm)
  unfold semRead
  with_reducible repeat' first
  | exact Keeps.refl _
  | assumption
  | decide
  | (extract_lets +onlyGivenNames q1; have hq1 : Keeps 7502720 s q1.1 := (by unfold q1; repeat' first | exact Keeps.refl _ | assumption | decide | refine answerHost_keeps ?_ ?_ | refine semClaim_keeps ?_ ?_ | refine Keeps.ite ?_ ?_ | refine Keeps.iteFst ?_ ?_ | (intro _ _) | split | dsimp only); clear_value q1)
  | (extract_lets +onlyGivenNames s1; have h1 : Keeps 7502720 s s1 := (by unfold s1; repeat' first | exact Keeps.refl _ | assumption | decide | refine answerHost_keeps ?_ ?_ | refine semClaim_keeps ?_ ?_ | refine Keeps.ite ?_ ?_ | refine Keeps.iteFst ?_ ?_ | (intro _ _) | split | dsimp only); clear_value s1)
  | (extract_lets +onlyGivenNames x1; clear_value x1)
  | refine answerHost_keeps ?_ ?_
  | refine semClaim_keeps ?_ ?_
  | refine Keeps.ite ?_ ?_
  | refine Keeps.iteFst ?_ ?_
  | (intro _ _)
  | split
  | dsimp only

theorem execSemRead_keeps {mk : Nat} {sk : State} {v : Vs} {sem : Fin 16} {rid : Nat} {tag : Nat} {s : State} (hk : Keeps mk sk s) (hm : 7502720 &&& mk = 7502720) :
    ∃ t', execSemRead v sem rid tag s = .next t' ∧ Keeps mk sk t' := by
  suffices g : ∃ t', execSemRead v sem rid tag s = .next t' ∧ Keeps 7502720 s t' from g.imp fun _ h => ⟨h.1, hk.trans (h.2.weaken hm)⟩
  refine ⟨_, rfl, ?_⟩
  with_reducible repeat' first
  | exact Keeps.refl _
  | assumption
  | decide
  | refine semRead_keeps ?_ ?_
  | (intro _ _)
  | split
  | dsimp only

theorem semWrite_keeps {mk : Nat} {sk : State} {v : Nat} {k : Nat} {value : Nat} {s : State} (hk : Keeps mk sk s) (hm : 131072 &&& mk = 131072) :
    Keeps mk sk (semWrite v k value s) := by
  suffices g : Keeps 131072 s (semWrite v k value s) from hk.trans (g.weaken hm)
  unfold semWrite
  with_reducible repeat' first
  | exact Keeps.refl _
  | assumption
  | decide
  | refine semFreed_keeps ?_ ?_
  | refine Keeps.ite ?_ ?_
  | (intro _ _)
  | split
  | dsimp only

theorem execSemWrite_keeps {mk : Nat} {sk : State} {v : Vs} {sem : Fin 16} {value : BitVec 32} {s : State} (hk : Keeps mk sk s) (hm : 131072 &&& mk = 131072) :
    ∃ t', execSemWrite v sem value s = .next t' ∧ Keeps mk sk t' := by
  suffices g : ∃ t', execSemWrite v sem value s = .next t' ∧ Keeps 131072 s t' from g.imp fun _ h => ⟨h.1, hk.trans (h.2.weaken hm)⟩
  refine ⟨_, rfl, ?_⟩
  with_reducible repeat' first
  | exact Keeps.refl _
  | assumption
  | decide
  | refine semWrite_keeps ?_ ?_
  | (intro _ _)
  | split
  | dsimp only

theorem freeSemaphores_keeps {mk : Nat} {sk : State} {s : State} {v : Nat} (hk : Keeps mk sk s) (hm : 7495680 &&& mk = 7495680) :
    Keeps mk sk (freeSemaphores s v) := by
  suffices g : Keeps 7495680 s (freeSemaphores s v) from hk.trans (g.weaken hm)
  unfold freeSemaphores
  with_reducible repeat' first
  | exact Keeps.refl _
  | assumption
  | decide
  | (extract_lets +onlyGivenNames s1; have h1 : Keeps 7495680 s s1 := (by unfold s1; repeat' first | exact Keeps.refl _ | assumption | decide | refine event_keeps ?_ ?_ | refine Keeps.ite ?_ ?_ | refine Keeps.foldl ?_ _ (fun u a hu => ?_) | refine Keeps.foldlFst ?_ _ (fun u a hu => ?_) | (fail_if_no_progress refine Keeps.dob' ?_ _ rfl) | (intro _ _) | split | dsimp only); clear_value s1)
  | (extract_lets +onlyGivenNames x1; clear_value x1)
  | refine event_keeps ?_ ?_
  | refine Keeps.ite ?_ ?_
  | refine Keeps.foldl ?_ _ (fun u a hu => ?_)
  | refine Keeps.foldlFst ?_ _ (fun u a hu => ?_)
  | (fail_if_no_progress refine Keeps.dob' ?_ _ rfl)
  | (intro _ _)
  | split
  | dsimp only

theorem vmeIrqAssert_keeps {mk : Nat} {sk : State} {l : Nat} {s : State} (hk : Keeps mk sk s) (hm : 1179648 &&& mk = 1179648) :
    Keeps mk sk (vmeIrqAssert l s) := by
  suffices g : Keeps 1179648 s (vmeIrqAssert l s) from hk.trans (g.weaken hm)
  unfold vmeIrqAssert
  with_reducible repeat' first
  | exact Keeps.refl _
  | assumption
  | decide
  | refine count_keeps ?_ ?_
  | refine emit_keeps ?_
  | refine Keeps.ite ?_ ?_
  | (fail_if_no_progress refine Keeps.dob' ?_ _ rfl)
  | (intro _ _)
  | split
  | dsimp only

theorem execVmeIrqAssert_keeps {mk : Nat} {sk : State} {lvl : IrqLevel} {s : State} (hk : Keeps mk sk s) (hm : 1179648 &&& mk = 1179648) :
    ∃ t', execVmeIrqAssert lvl s = .next t' ∧ Keeps mk sk t' := by
  suffices g : ∃ t', execVmeIrqAssert lvl s = .next t' ∧ Keeps 1179648 s t' from g.imp fun _ h => ⟨h.1, hk.trans (h.2.weaken hm)⟩
  refine ⟨_, rfl, ?_⟩
  with_reducible repeat' first
  | exact Keeps.refl _
  | assumption
  | decide
  | refine vmeIrqAssert_keeps ?_ ?_
  | (intro _ _)
  | split
  | dsimp only


theorem iackDone_keeps {mk : Nat} {sk s : State} {statusId : Nat} (hk : Keeps mk sk s) (hm : 7495680 &&& mk = 7495680) :
    Keeps mk sk (iackDone statusId s) := by
  suffices g : Keeps 7495680 s (iackDone statusId s) from hk.trans (g.weaken hm)
  unfold iackDone
  split
  · exact Keeps.refl s
  · next l t0 _ =>
    extract_lets +onlyGivenNames ident x1 s1 lost
    have h1 : Keeps 7495680 s s1 := Keeps.dob' (Keeps.refl s) _ rfl
    have hl : ∀ u, Keeps 7495680 s u → Keeps 7495680 s (lost u) := fun u hu => event_keeps hu (by decide)
    clear_value lost s1 x1 ident
    split
    · exact hl _ h1
    · extract_lets +onlyGivenNames r v
      refine Keeps.ite (hl _ h1) ?_
      extract_lets +onlyGivenNames only x2 s2 s3
      have h2 : Keeps 7495680 s s2 := Keeps.dob' h1 _ rfl
      have h3 : Keeps 7495680 s s3 := eventIn_keeps h2 (by decide)
      clear_value s3 s2 only x2
      exact Keeps.ite h3 (msi_keeps h3 (by decide))

theorem execIackDone_keeps {mk : Nat} {sk : State} {statusId : BitVec 32} {s : State} (hk : Keeps mk sk s) (hm : 7495680 &&& mk = 7495680) :
    ∃ t', execIackDone statusId s = .next t' ∧ Keeps mk sk t' := by
  suffices g : ∃ t', execIackDone statusId s = .next t' ∧ Keeps 7495680 s t' from g.imp fun _ h => ⟨h.1, hk.trans (h.2.weaken hm)⟩
  refine ⟨_, rfl, ?_⟩
  with_reducible repeat' first
  | exact Keeps.refl _
  | assumption
  | decide
  | refine iackDone_keeps ?_ ?_
  | (intro _ _)
  | split
  | dsimp only

theorem rearm_keeps {mk : Nat} {sk : State} {s : State} {mask : Nat} (hk : Keeps mk sk s) (hm : 131072 &&& mk = 131072) :
    Keeps mk sk (rearm s mask) := by
  suffices g : Keeps 131072 s (rearm s mask) from hk.trans (g.weaken hm)
  unfold rearm
  with_reducible repeat' first
  | exact Keeps.refl _
  | assumption
  | decide
  | (fail_if_no_progress refine Keeps.dob' ?_ _ rfl)
  | (intro _ _)
  | split
  | dsimp only

theorem actIhRearm_keeps {mk : Nat} {sk : State} {mask : Nat} {s : State} (hk : Keeps mk sk s) (hm : 131072 &&& mk = 131072) :
    Keeps mk sk (actIhRearm mask s) := by
  suffices g : Keeps 131072 s (actIhRearm mask s) from hk.trans (g.weaken hm)
  unfold actIhRearm
  with_reducible repeat' first
  | exact Keeps.refl _
  | assumption
  | decide
  | refine rearm_keeps ?_ ?_
  | (intro _ _)
  | split
  | dsimp only

theorem ihRearm_keeps {mk : Nat} {sk : State} {v : Nat} {mask : Nat} {s : State} (hk : Keeps mk sk s) (hm : 131072 &&& mk = 131072) :
    Keeps mk sk (ihRearm v mask s) := by
  suffices g : Keeps 131072 s (ihRearm v mask s) from hk.trans (g.weaken hm)
  unfold ihRearm
  with_reducible repeat' first
  | exact Keeps.refl _
  | assumption
  | decide
  | refine rearm_keeps ?_ ?_
  | refine Keeps.ite ?_ ?_
  | (intro _ _)
  | split
  | dsimp only

theorem execIhRearm_keeps {mk : Nat} {sk : State} {v : Vs} {mask : Nat} {s : State} (hk : Keeps mk sk s) (hm : 131072 &&& mk = 131072) :
    ∃ t', execIhRearm v mask s = .next t' ∧ Keeps mk sk t' := by
  suffices g : ∃ t', execIhRearm v mask s = .next t' ∧ Keeps 131072 s t' from g.imp fun _ h => ⟨h.1, hk.trans (h.2.weaken hm)⟩
  refine ⟨_, rfl, ?_⟩
  with_reducible repeat' first
  | exact Keeps.refl _
  | assumption
  | decide
  | refine ihRearm_keeps ?_ ?_
  | (intro _ _)
  | split
  | dsimp only

theorem irqRaise_keeps {mk : Nat} {sk : State} {v : Nat} {value : Nat} {s : State} (hk : Keeps mk sk s) (hm : 7495680 &&& mk = 7495680) :
    Keeps mk sk (irqRaise v value s) := by
  suffices g : Keeps 7495680 s (irqRaise v value s) from hk.trans (g.weaken hm)
  unfold irqRaise
  with_reducible repeat' first
  | exact Keeps.refl _
  | assumption
  | decide
  | (extract_lets +onlyGivenNames s1; have h1 : Keeps 7495680 s s1 := (by unfold s1; repeat' first | exact Keeps.refl _ | assumption | decide | refine count_keeps ?_ ?_ | refine dobRaise_keeps ?_ ?_ | refine eventIn_keeps ?_ ?_ | refine Keeps.ite ?_ ?_ | refine Keeps.iteFst ?_ ?_ | (fail_if_no_progress refine Keeps.dob' ?_ _ rfl) | (intro _ _) | split | dsimp only); clear_value s1)
  | (extract_lets +onlyGivenNames x1; clear_value x1)
  | refine count_keeps ?_ ?_
  | refine dobRaise_keeps ?_ ?_
  | refine eventIn_keeps ?_ ?_
  | refine Keeps.ite ?_ ?_
  | refine Keeps.iteFst ?_ ?_
  | (fail_if_no_progress refine Keeps.dob' ?_ _ rfl)
  | (intro _ _)
  | split
  | dsimp only

theorem execIrqRaise_keeps {mk : Nat} {sk : State} {v : Vs} {value : Nat} {s : State} (hk : Keeps mk sk s) (hm : 7495680 &&& mk = 7495680) :
    ∃ t', execIrqRaise v value s = .next t' ∧ Keeps mk sk t' := by
  suffices g : ∃ t', execIrqRaise v value s = .next t' ∧ Keeps 7495680 s t' from g.imp fun _ h => ⟨h.1, hk.trans (h.2.weaken hm)⟩
  refine ⟨_, rfl, ?_⟩
  with_reducible repeat' first
  | exact Keeps.refl _
  | assumption
  | decide
  | refine irqRaise_keeps ?_ ?_
  | (intro _ _)
  | split
  | dsimp only

theorem irqWithdraw_keeps {mk : Nat} {sk : State} {v : Nat} {mask : Nat} {s : State} (hk : Keeps mk sk s) (hm : 131072 &&& mk = 131072) :
    Keeps mk sk (irqWithdraw v mask s) := by
  suffices g : Keeps 131072 s (irqWithdraw v mask s) from hk.trans (g.weaken hm)
  unfold irqWithdraw
  with_reducible repeat' first
  | exact Keeps.refl _
  | assumption
  | decide
  | (fail_if_no_progress refine Keeps.dob' ?_ _ rfl)
  | (intro _ _)
  | split
  | dsimp only

theorem execIrqWithdraw_keeps {mk : Nat} {sk : State} {v : Vs} {mask : Nat} {s : State} (hk : Keeps mk sk s) (hm : 131072 &&& mk = 131072) :
    ∃ t', execIrqWithdraw v mask s = .next t' ∧ Keeps mk sk t' := by
  suffices g : ∃ t', execIrqWithdraw v mask s = .next t' ∧ Keeps 131072 s t' from g.imp fun _ h => ⟨h.1, hk.trans (h.2.weaken hm)⟩
  refine ⟨_, rfl, ?_⟩
  with_reducible repeat' first
  | exact Keeps.refl _
  | assumption
  | decide
  | refine irqWithdraw_keeps ?_ ?_
  | (intro _ _)
  | split
  | dsimp only

theorem iackinReceive_keeps {mk : Nat} {sk : State} {l : Nat} {s : State} (hk : Keeps mk sk s) (hm : 7495680 &&& mk = 7495680) :
    Keeps mk sk (iackinReceive l s) := by
  suffices g : Keeps 7495680 s (iackinReceive l s) from hk.trans (g.weaken hm)
  unfold iackinReceive
  with_reducible repeat' first
  | exact Keeps.refl _
  | assumption
  | decide
  | (extract_lets +onlyGivenNames s1; have h1 : Keeps 7495680 s s1 := (by unfold s1; repeat' first | exact Keeps.refl _ | assumption | decide | refine emit_keeps ?_ | refine eventIn_keeps ?_ ?_ | refine Keeps.ite ?_ ?_ | refine Keeps.iteFst ?_ ?_ | (fail_if_no_progress refine Keeps.dob' ?_ _ rfl) | (intro _ _) | split | dsimp only); clear_value s1)
  | (extract_lets +onlyGivenNames x1; clear_value x1)
  | refine emit_keeps ?_
  | refine eventIn_keeps ?_ ?_
  | refine Keeps.ite ?_ ?_
  | refine Keeps.iteFst ?_ ?_
  | (fail_if_no_progress refine Keeps.dob' ?_ _ rfl)
  | (intro _ _)
  | split
  | dsimp only

theorem execIackinReceive_keeps {mk : Nat} {sk : State} {lvl : IrqLevel} {_width : Nat} {s : State} (hk : Keeps mk sk s) (hm : 7495680 &&& mk = 7495680) :
    ∃ t', execIackinReceive lvl _width s = .next t' ∧ Keeps mk sk t' := by
  suffices g : ∃ t', execIackinReceive lvl _width s = .next t' ∧ Keeps 7495680 s t' from g.imp fun _ h => ⟨h.1, hk.trans (h.2.weaken hm)⟩
  refine ⟨_, rfl, ?_⟩
  with_reducible repeat' first
  | exact Keeps.refl _
  | assumption
  | decide
  | refine iackinReceive_keeps ?_ ?_
  | (intro _ _)
  | split
  | dsimp only

theorem actBerrClear_keeps {mk : Nat} {sk : State} {v : Nat} {s : State} (hk : Keeps mk sk s) (hm : 131072 &&& mk = 131072) :
    Keeps mk sk (actBerrClear v s) := by
  suffices g : Keeps 131072 s (actBerrClear v s) from hk.trans (g.weaken hm)
  unfold actBerrClear
  with_reducible repeat' first
  | exact Keeps.refl _
  | assumption
  | decide
  | (fail_if_no_progress refine Keeps.dob' ?_ _ rfl)
  | (intro _ _)
  | split
  | dsimp only

theorem actInBerrClear_keeps {mk : Nat} {sk : State} {s : State} (hk : Keeps mk sk s) (hm : 7495680 &&& mk = 7495680) :
    Keeps mk sk (actInBerrClear s) := by
  suffices g : Keeps 7495680 s (actInBerrClear s) from hk.trans (g.weaken hm)
  unfold actInBerrClear
  with_reducible repeat' first
  | exact Keeps.refl _
  | assumption
  | decide
  | refine inBerr_keeps ?_ ?_
  | (fail_if_no_progress refine Keeps.dob' ?_ _ rfl)
  | (intro _ _)
  | split
  | dsimp only

theorem dobConnWait_keeps {mk : Nat} {sk : State} {s : State} {value : Nat} (hk : Keeps mk sk s) (hm : 131072 &&& mk = 131072) :
    Keeps mk sk (dobConnWait s value) := by
  suffices g : Keeps 131072 s (dobConnWait s value) from hk.trans (g.weaken hm)
  unfold dobConnWait
  with_reducible repeat' first
  | exact Keeps.refl _
  | assumption
  | decide
  | (fail_if_no_progress refine Keeps.dob' ?_ _ rfl)
  | (intro _ _)
  | split
  | dsimp only

theorem actDobConn_keeps {mk : Nat} {sk : State} {value : Nat} {s : State} (hk : Keeps mk sk s) (hm : 7568256 &&& mk = 7568256) :
    Keeps mk sk (actDobConn value s) := by
  suffices g : Keeps 7568256 s (actDobConn value s) from hk.trans (g.weaken hm)
  unfold actDobConn
  with_reducible repeat' first
  | exact Keeps.refl _
  | assumption
  | decide
  | (extract_lets +onlyGivenNames s1; have h1 : Keeps 7568256 s s1 := (by unfold s1; repeat' first | exact Keeps.refl _ | assumption | decide | refine dobConnWait_keeps ?_ ?_ | refine openConn_keeps ?_ ?_ | refine ownerClose_keeps ?_ ?_ | refine startRequest_keeps ?_ ?_ | (intro _ _) | split | dsimp only); clear_value s1)
  | (extract_lets +onlyGivenNames x1; clear_value x1)
  | refine dobConnWait_keeps ?_ ?_
  | refine openConn_keeps ?_ ?_
  | refine ownerClose_keeps ?_ ?_
  | refine startRequest_keeps ?_ ?_
  | (intro _ _)
  | split
  | dsimp only

theorem dobConnCmd_keeps {mk : Nat} {sk : State} {op : Nat} {sess : Nat} {value : Nat} {s : State} (hk : Keeps mk sk s) (hm : 7830400 &&& mk = 7830400) :
    Keeps mk sk (dobConnCmd op sess value s) := by
  suffices g : Keeps 7830400 s (dobConnCmd op sess value s) from hk.trans (g.weaken hm)
  unfold dobConnCmd
  with_reducible repeat' first
  | exact Keeps.refl _
  | assumption
  | decide
  | refine actDobConn_keeps ?_ ?_
  | refine actWrite_keeps ?_ rfl (fun u hu => ?_) (fun u hu => ?_)
  | refine Keeps.ite ?_ ?_
  | simp only [id_eq]
  | (intro _ _)
  | split
  | dsimp only

theorem execDobConnOpen_keeps {mk : Nat} {sk : State} {sess : Nat} {value : Nat} {s : State} (hk : Keeps mk sk s) (hm : 7830400 &&& mk = 7830400) :
    ∃ t', execDobConnOpen sess value s = .next t' ∧ Keeps mk sk t' := by
  suffices g : ∃ t', execDobConnOpen sess value s = .next t' ∧ Keeps 7830400 s t' from g.imp fun _ h => ⟨h.1, hk.trans (h.2.weaken hm)⟩
  refine ⟨_, rfl, ?_⟩
  with_reducible repeat' first
  | exact Keeps.refl _
  | assumption
  | decide
  | refine dobConnCmd_keeps ?_ ?_
  | (intro _ _)
  | split
  | dsimp only

theorem execDobConnClose_keeps {mk : Nat} {sk : State} {sess : Nat} {value : Nat} {s : State} (hk : Keeps mk sk s) (hm : 7830400 &&& mk = 7830400) :
    ∃ t', execDobConnClose sess value s = .next t' ∧ Keeps mk sk t' := by
  suffices g : ∃ t', execDobConnClose sess value s = .next t' ∧ Keeps 7830400 s t' from g.imp fun _ h => ⟨h.1, hk.trans (h.2.weaken hm)⟩
  refine ⟨_, rfl, ?_⟩
  with_reducible repeat' first
  | exact Keeps.refl _
  | assumption
  | decide
  | refine dobConnCmd_keeps ?_ ?_
  | (intro _ _)
  | split
  | dsimp only

theorem execDobConnReset_keeps {mk : Nat} {sk : State} {sess : Nat} {value : Nat} {s : State} (hk : Keeps mk sk s) (hm : 7830400 &&& mk = 7830400) :
    ∃ t', execDobConnReset sess value s = .next t' ∧ Keeps mk sk t' := by
  suffices g : ∃ t', execDobConnReset sess value s = .next t' ∧ Keeps 7830400 s t' from g.imp fun _ h => ⟨h.1, hk.trans (h.2.weaken hm)⟩
  refine ⟨_, rfl, ?_⟩
  with_reducible repeat' first
  | exact Keeps.refl _
  | assumption
  | decide
  | refine dobConnCmd_keeps ?_ ?_
  | (intro _ _)
  | split
  | dsimp only

theorem sysresetInput_keeps {mk : Nat} {sk : State} {s : State} (hk : Keeps mk sk s) (hm : 7535488 &&& mk = 7535488) :
    Keeps mk sk (sysresetInput s) := by
  suffices g : Keeps 7535488 s (sysresetInput s) from hk.trans (g.weaken hm)
  unfold sysresetInput
  with_reducible repeat' first
  | exact Keeps.refl _
  | assumption
  | decide
  | (extract_lets +onlyGivenNames s1; have h1 : Keeps 7535488 s s1 := (by unfold s1; repeat' first | exact Keeps.refl _ | assumption | decide | refine event_keeps ?_ ?_ | refine itemFails_keeps ?_ ?_ | refine Keeps.ite ?_ ?_ | refine Keeps.iteFst ?_ ?_ | refine Keeps.foldl ?_ _ (fun u a hu => ?_) | refine Keeps.foldlFst ?_ _ (fun u a hu => ?_) | (fail_if_no_progress refine Keeps.dob' ?_ _ rfl) | (intro _ _) | split | dsimp only); clear_value s1)
  | (extract_lets +onlyGivenNames x1; clear_value x1)
  | refine event_keeps ?_ ?_
  | refine itemFails_keeps ?_ ?_
  | refine Keeps.ite ?_ ?_
  | refine Keeps.iteFst ?_ ?_
  | refine Keeps.foldl ?_ _ (fun u a hu => ?_)
  | refine Keeps.foldlFst ?_ _ (fun u a hu => ?_)
  | (fail_if_no_progress refine Keeps.dob' ?_ _ rfl)
  | (intro _ _)
  | split
  | dsimp only

theorem execSysresetInput_keeps {mk : Nat} {sk : State} {s : State} (hk : Keeps mk sk s) (hm : 7535488 &&& mk = 7535488) :
    ∃ t', execSysresetInput s = .next t' ∧ Keeps mk sk t' := by
  suffices g : ∃ t', execSysresetInput s = .next t' ∧ Keeps 7535488 s t' from g.imp fun _ h => ⟨h.1, hk.trans (h.2.weaken hm)⟩
  refine ⟨_, rfl, ?_⟩
  with_reducible repeat' first
  | exact Keeps.refl _
  | assumption
  | decide
  | refine sysresetInput_keeps ?_ ?_
  | (intro _ _)
  | split
  | dsimp only

theorem sysfailChange_keeps {mk : Nat} {sk : State} {a : Bool} {s : State} (hk : Keeps mk sk s) (hm : 7495680 &&& mk = 7495680) :
    Keeps mk sk (sysfailChange a s) := by
  suffices g : Keeps 7495680 s (sysfailChange a s) from hk.trans (g.weaken hm)
  unfold sysfailChange
  with_reducible repeat' first
  | exact Keeps.refl _
  | assumption
  | decide
  | refine event_keeps ?_ ?_
  | refine Keeps.ite ?_ ?_
  | (fail_if_no_progress refine Keeps.dob' ?_ _ rfl)
  | (intro _ _)
  | split
  | dsimp only

theorem execSysfailChange_keeps {mk : Nat} {sk : State} {asserted : Bool} {s : State} (hk : Keeps mk sk s) (hm : 7495680 &&& mk = 7495680) :
    ∃ t', execSysfailChange asserted s = .next t' ∧ Keeps mk sk t' := by
  suffices g : ∃ t', execSysfailChange asserted s = .next t' ∧ Keeps 7495680 s t' from g.imp fun _ h => ⟨h.1, hk.trans (h.2.weaken hm)⟩
  refine ⟨_, rfl, ?_⟩
  with_reducible repeat' first
  | exact Keeps.refl _
  | assumption
  | decide
  | refine sysfailChange_keeps ?_ ?_
  | (intro _ _)
  | split
  | dsimp only

theorem acfailChange_keeps {mk : Nat} {sk : State} {a : Bool} {s : State} (hk : Keeps mk sk s) (hm : 7495680 &&& mk = 7495680) :
    Keeps mk sk (acfailChange a s) := by
  suffices g : Keeps 7495680 s (acfailChange a s) from hk.trans (g.weaken hm)
  unfold acfailChange
  with_reducible repeat' first
  | exact Keeps.refl _
  | assumption
  | decide
  | refine event_keeps ?_ ?_
  | refine Keeps.ite ?_ ?_
  | (fail_if_no_progress refine Keeps.dob' ?_ _ rfl)
  | (intro _ _)
  | split
  | dsimp only

theorem execAcfailChange_keeps {mk : Nat} {sk : State} {asserted : Bool} {s : State} (hk : Keeps mk sk s) (hm : 7495680 &&& mk = 7495680) :
    ∃ t', execAcfailChange asserted s = .next t' ∧ Keeps mk sk t' := by
  suffices g : ∃ t', execAcfailChange asserted s = .next t' ∧ Keeps 7495680 s t' from g.imp fun _ h => ⟨h.1, hk.trans (h.2.weaken hm)⟩
  refine ⟨_, rfl, ?_⟩
  with_reducible repeat' first
  | exact Keeps.refl _
  | assumption
  | decide
  | refine acfailChange_keeps ?_ ?_
  | (intro _ _)
  | split
  | dsimp only

theorem sysresetOutEnd_keeps {mk : Nat} {sk : State} {s : State} (hk : Keeps mk sk s) (hm : 131072 &&& mk = 131072) :
    Keeps mk sk (sysresetOutEnd s) := by
  suffices g : Keeps 131072 s (sysresetOutEnd s) from hk.trans (g.weaken hm)
  unfold sysresetOutEnd
  with_reducible repeat' first
  | exact Keeps.refl _
  | assumption
  | decide
  | refine emit_keeps ?_
  | refine Keeps.ite ?_ ?_
  | (fail_if_no_progress refine Keeps.dob' ?_ _ rfl)
  | (intro _ _)
  | split
  | dsimp only

theorem execSysresetOutEnd_keeps {mk : Nat} {sk : State} {s : State} (hk : Keeps mk sk s) (hm : 131072 &&& mk = 131072) :
    ∃ t', execSysresetOutEnd s = .next t' ∧ Keeps mk sk t' := by
  suffices g : ∃ t', execSysresetOutEnd s = .next t' ∧ Keeps 131072 s t' from g.imp fun _ h => ⟨h.1, hk.trans (h.2.weaken hm)⟩
  refine ⟨_, rfl, ?_⟩
  with_reducible repeat' first
  | exact Keeps.refl _
  | assumption
  | decide
  | refine sysresetOutEnd_keeps ?_ ?_
  | (intro _ _)
  | split
  | dsimp only

theorem driveSysreset_keeps {mk : Nat} {sk : State} {s : State} (hk : Keeps mk sk s) (hm : 131072 &&& mk = 131072) :
    Keeps mk sk (driveSysreset s) := by
  suffices g : Keeps 131072 s (driveSysreset s) from hk.trans (g.weaken hm)
  unfold driveSysreset
  with_reducible repeat' first
  | exact Keeps.refl _
  | assumption
  | decide
  | refine emit_keeps ?_
  | refine Keeps.ite ?_ ?_
  | (fail_if_no_progress refine Keeps.dob' ?_ _ rfl)
  | (intro _ _)
  | split
  | dsimp only

/-! ### Registers -/

theorem receiveWrite_keeps {mk : Nat} {sk : State} {s : State} {v : Nat} {fn : Nat} {dw : Nat} {old : Nat} (hk : Keeps mk sk s) (hm : 7364864 &&& mk = 7364864) :
    Keeps mk sk (receiveWrite s v fn dw old) := by
  suffices g : Keeps 7364864 s (receiveWrite s v fn dw old) from hk.trans (g.weaken hm)
  unfold receiveWrite
  with_reducible repeat' first
  | exact Keeps.refl _
  | assumption
  | decide
  | (extract_lets +onlyGivenNames s1; have h1 : Keeps 7364864 s s1 := (by unfold s1; repeat' first | exact Keeps.refl _ | assumption | decide | refine mcastGroupEnable_keeps ?_ ?_ | refine setCfgReg_keeps ?_ ?_ | refine setPart_keeps ?_ ?_ | refine Keeps.ite ?_ ?_ | refine Keeps.foldl ?_ _ (fun u a hu => ?_) | refine Keeps.foldlFst ?_ _ (fun u a hu => ?_) | (intro _ _) | split | dsimp only); clear_value s1)
  | (extract_lets +onlyGivenNames x1; clear_value x1)
  | refine mcastGroupEnable_keeps ?_ ?_
  | refine setCfgReg_keeps ?_ ?_
  | refine setPart_keeps ?_ ?_
  | refine Keeps.ite ?_ ?_
  | refine Keeps.foldl ?_ _ (fun u a hu => ?_)
  | refine Keeps.foldlFst ?_ _ (fun u a hu => ?_)
  | (intro _ _)
  | split
  | dsimp only

theorem softwareUp_keeps {mk : Nat} {sk : State} {s : State} {p : Nat} (hk : Keeps mk sk s) (hm : 256 &&& mk = 256) :
    Keeps mk sk (softwareUp s p) := by
  suffices g : Keeps 256 s (softwareUp s p) from hk.trans (g.weaken hm)
  unfold softwareUp
  with_reducible repeat' first
  | exact Keeps.refl _
  | assumption
  | decide
  | (extract_lets +onlyGivenNames s1; have h1 : Keeps 256 s s1 := (by unfold s1; repeat' first | exact Keeps.refl _ | assumption | decide | refine setWarp_keeps ?_ ?_ | refine Keeps.ite ?_ ?_ | (intro _ _) | split | dsimp only); clear_value s1)
  | (extract_lets +onlyGivenNames x1; clear_value x1)
  | refine setWarp_keeps ?_ ?_
  | refine Keeps.ite ?_ ?_
  | (intro _ _)
  | split
  | dsimp only

theorem slotWrite_keeps {mk : Nat} {sk : State} {s : State} {k : Nat} {old : Nat} {w : Nat} {gone : Nat} (hk : Keeps mk sk s) (hm : 8027024 &&& mk = 8027024) :
    Keeps mk sk (slotWrite s k old w gone) := by
  suffices g : Keeps 8027024 s (slotWrite s k old w gone) from hk.trans (g.weaken hm)
  unfold slotWrite
  with_reducible repeat' first
  | exact Keeps.refl _
  | assumption
  | decide
  | (extract_lets +onlyGivenNames s1; have h1 : Keeps 8027024 s s1 := (by unfold s1; repeat' first | exact Keeps.refl _ | assumption | decide | refine indicatorSet_keeps ?_ ?_ | refine setSlot_keeps ?_ ?_ | refine slotPowerOff_keeps ?_ ?_ | refine slotPowerOn_keeps ?_ ?_ | refine Keeps.ite ?_ ?_ | (intro _ _) | split | dsimp only); clear_value s1)
  | (extract_lets +onlyGivenNames x1; clear_value x1)
  | refine indicatorSet_keeps ?_ ?_
  | refine setSlot_keeps ?_ ?_
  | refine slotPowerOff_keeps ?_ ?_
  | refine slotPowerOn_keeps ?_ ?_
  | refine Keeps.ite ?_ ?_
  | (intro _ _)
  | split
  | dsimp only

theorem bridgeWrite_keeps {mk : Nat} {sk : State} {s : State} {v : Nat} {fn : Nat} {p : Nat} {dw : Nat} {old : Nat} {new : Nat} {be : Nat} (hk : Keeps mk sk s) (hm : 8059792 &&& mk = 8059792) :
    Keeps mk sk (bridgeWrite s v fn p dw old new be) := by
  suffices g : Keeps 8059792 s (bridgeWrite s v fn p dw old new be) from hk.trans (g.weaken hm)
  unfold bridgeWrite
  with_reducible repeat' first
  | exact Keeps.refl _
  | assumption
  | decide
  | (extract_lets +onlyGivenNames s1; have h1 : Keeps 8059792 s s1 := (by unfold s1; repeat' first | exact Keeps.refl _ | assumption | decide | refine dpcRelease_keeps ?_ ?_ | refine dpcTrigger_keeps ?_ ?_ | refine linkDisable_keeps ?_ ?_ | refine secondaryBusReset_keeps ?_ ?_ | refine slotWrite_keeps ?_ ?_ | refine softwareUp_keeps ?_ ?_ | refine Keeps.ite ?_ ?_ | (intro _ _) | split | dsimp only); clear_value s1)
  | (extract_lets +onlyGivenNames x1; clear_value x1)
  | refine dpcRelease_keeps ?_ ?_
  | refine dpcTrigger_keeps ?_ ?_
  | refine linkDisable_keeps ?_ ?_
  | refine secondaryBusReset_keeps ?_ ?_
  | refine slotWrite_keeps ?_ ?_
  | refine softwareUp_keeps ?_ ?_
  | refine Keeps.ite ?_ ?_
  | (intro _ _)
  | split
  | dsimp only

theorem mgmtConfigWrite_keeps {mk : Nat} {sk : State} {s : State} {v : Nat} {dw : Nat} {old : Nat} {new : Nat} {be : Nat} (hk : Keeps mk sk s) (hm : 7830408 &&& mk = 7830408) :
    Keeps mk sk (mgmtConfigWrite s v dw old new be) := by
  suffices g : Keeps 7830408 s (mgmtConfigWrite s v dw old new be) from hk.trans (g.weaken hm)
  unfold mgmtConfigWrite
  with_reducible repeat' first
  | exact Keeps.refl _
  | assumption
  | decide
  | (extract_lets +onlyGivenNames s1; have h1 : Keeps 7830408 s s1 := (by unfold s1; repeat' first | exact Keeps.refl _ | assumption | decide | refine pfFlr_keeps ?_ ?_ | refine vfDisable_keeps ?_ ?_ | refine vfEnable_keeps ?_ ?_ | refine Keeps.ite ?_ ?_ | (fail_if_no_progress refine Keeps.eng' ?_ _ rfl) | (intro _ _) | split | dsimp only); clear_value s1)
  | (extract_lets +onlyGivenNames x1; clear_value x1)
  | refine pfFlr_keeps ?_ ?_
  | refine vfDisable_keeps ?_ ?_
  | refine vfEnable_keeps ?_ ?_
  | refine Keeps.ite ?_ ?_
  | (fail_if_no_progress refine Keeps.eng' ?_ _ rfl)
  | (intro _ _)
  | split
  | dsimp only

theorem marginWrite_keeps {mk : Nat} {sk : State} {s : State} {v : Nat} {fn : Nat} {dw : Nat} (hk : Keeps mk sk s) (hm : 256 &&& mk = 256) :
    Keeps mk sk (marginWrite s v fn dw) := by
  suffices g : Keeps 256 s (marginWrite s v fn dw) from hk.trans (g.weaken hm)
  unfold marginWrite
  with_reducible repeat' first
  | exact Keeps.refl _
  | assumption
  | decide
  | (extract_lets +onlyGivenNames s1; have h1 : Keeps 256 s s1 := (by unfold s1; repeat' first | exact Keeps.refl _ | assumption | decide | refine afterFree_keeps ?_ ?_ | refine setCfgReg_keeps ?_ ?_ | refine Keeps.ite ?_ ?_ | (intro _ _) | split | dsimp only); clear_value s1)
  | (extract_lets +onlyGivenNames x1; clear_value x1)
  | refine afterFree_keeps ?_ ?_
  | refine setCfgReg_keeps ?_ ?_
  | refine Keeps.ite ?_ ?_
  | (intro _ _)
  | split
  | dsimp only

theorem configWrite_keeps {mk : Nat} {sk : State} {s : State} {v : Nat} {fn : Nat} {dw : Nat} {new : Nat} {be : Nat} (hk : Keeps mk sk s) (hm : 8387480 &&& mk = 8387480) :
    Keeps mk sk (configWrite s v fn dw new be) := by
  suffices g : Keeps 8387480 s (configWrite s v fn dw new be) from hk.trans (g.weaken hm)
  unfold configWrite
  with_reducible repeat' first
  | exact Keeps.refl _
  | assumption
  | decide
  | (extract_lets +onlyGivenNames s1; have h1 : Keeps 8387480 s s1 := (by unfold s1; repeat' first | exact Keeps.refl _ | assumption | decide | refine bridgeWrite_keeps ?_ ?_ | refine marginWrite_keeps ?_ ?_ | refine mgmtConfigWrite_keeps ?_ ?_ | refine receiveWrite_keeps ?_ ?_ | refine setCfgReg_keeps ?_ ?_ | refine vfFlr_keeps ?_ ?_ | refine Keeps.ite ?_ ?_ | (intro _ _) | split | dsimp only); clear_value s1)
  | (extract_lets +onlyGivenNames x1; clear_value x1)
  | refine bridgeWrite_keeps ?_ ?_
  | refine marginWrite_keeps ?_ ?_
  | refine mgmtConfigWrite_keeps ?_ ?_
  | refine receiveWrite_keeps ?_ ?_
  | refine setCfgReg_keeps ?_ ?_
  | refine vfFlr_keeps ?_ ?_
  | refine Keeps.ite ?_ ?_
  | (intro _ _)
  | split
  | dsimp only

/-! ### Partitions -/

theorem orphanAll_keeps {mk : Nat} {sk : State} {s : State} {v : Nat} (hk : Keeps mk sk s) (hm : 137984 &&& mk = 137984) :
    Keeps mk sk (orphanAll s v) := by
  suffices g : Keeps 137984 s (orphanAll s v) from hk.trans (g.weaken hm)
  unfold orphanAll
  with_reducible repeat' first
  | exact Keeps.refl _
  | assumption
  | decide
  | (extract_lets +onlyGivenNames s1; have h1 : Keeps 137984 s s1 := (by unfold s1; repeat' first | exact Keeps.refl _ | assumption | decide | (fail_if_no_progress refine Keeps.warp' ?_ _ rfl) | (fail_if_no_progress refine Keeps.loom' ?_ _ rfl) | (fail_if_no_progress refine Keeps.shu' ?_ _ rfl) | (fail_if_no_progress refine Keeps.win' ?_ _ rfl) | (fail_if_no_progress refine Keeps.dob' ?_ _ rfl) | (fail_if_no_progress (refine Keeps.several ?_ (by refine ⟨?_, ?_, ?_, ?_, ?_, ?_, ?_, ?_, ?_, ?_, ?_, ?_, ?_, ?_, ?_, ?_, ?_, ?_, ?_, ?_⟩ <;> first | exact Or.inl rfl | exact Or.inr rfl))) | (intro _ _) | split | dsimp only); clear_value s1)
  | (extract_lets +onlyGivenNames x1; clear_value x1)
  | (fail_if_no_progress refine Keeps.warp' ?_ _ rfl)
  | (fail_if_no_progress refine Keeps.loom' ?_ _ rfl)
  | (fail_if_no_progress refine Keeps.shu' ?_ _ rfl)
  | (fail_if_no_progress refine Keeps.win' ?_ _ rfl)
  | (fail_if_no_progress refine Keeps.dob' ?_ _ rfl)
  | (fail_if_no_progress (refine Keeps.several ?_ (by refine ⟨?_, ?_, ?_, ?_, ?_, ?_, ?_, ?_, ?_, ?_, ?_, ?_, ?_, ?_, ?_, ?_, ?_, ?_, ?_, ?_⟩ <;> first | exact Or.inl rfl | exact Or.inr rfl)))
  | (intro _ _)
  | split
  | dsimp only

theorem spoolDisarm_keeps {mk : Nat} {sk : State} {s : State} {v : Nat} (hk : Keeps mk sk s) (hm : 7364608 &&& mk = 7364608) :
    Keeps mk sk (spoolDisarm s v) := by
  suffices g : Keeps 7364608 s (spoolDisarm s v) from hk.trans (g.weaken hm)
  unfold spoolDisarm
  with_reducible repeat' first
  | exact Keeps.refl _
  | assumption
  | decide
  | (extract_lets +onlyGivenNames s1; have h1 : Keeps 7364608 s s1 := (by unfold s1; repeat' first | exact Keeps.refl _ | assumption | decide | refine event_keeps ?_ ?_ | refine ringSet_keeps ?_ ?_ | refine writeLine_keeps ?_ ?_ | refine Keeps.ite ?_ ?_ | (intro _ _) | split | dsimp only); clear_value s1)
  | (extract_lets +onlyGivenNames x1; clear_value x1)
  | refine event_keeps ?_ ?_
  | refine ringSet_keeps ?_ ?_
  | refine writeLine_keeps ?_ ?_
  | refine Keeps.ite ?_ ?_
  | (intro _ _)
  | split
  | dsimp only

theorem dropProxies_keeps {mk : Nat} {sk : State} {s : State} {v : Nat} (hk : Keeps mk sk s) (hm : 256 &&& mk = 256) :
    Keeps mk sk (dropProxies s v) := by
  suffices g : Keeps 256 s (dropProxies s v) from hk.trans (g.weaken hm)
  unfold dropProxies
  with_reducible repeat' first
  | exact Keeps.refl _
  | assumption
  | decide
  | (extract_lets +onlyGivenNames s1; have h1 : Keeps 256 s s1 := (by unfold s1; repeat' first | exact Keeps.refl _ | assumption | decide | refine Keeps.ite ?_ ?_ | (fail_if_no_progress refine Keeps.warp' ?_ _ rfl) | (intro _ _) | split | dsimp only); clear_value s1)
  | (extract_lets +onlyGivenNames x1; clear_value x1)
  | refine Keeps.ite ?_ ?_
  | (fail_if_no_progress refine Keeps.warp' ?_ _ rfl)
  | (intro _ _)
  | split
  | dsimp only

theorem deliverPosted_keeps {mk : Nat} {sk : State} {s : State} {v : Nat} {p : Nat} (hk : Keeps mk sk s) (hm : 7502720 &&& mk = 7502720) :
    Keeps mk sk (deliverPosted s v p) := by
  suffices g : Keeps 7502720 s (deliverPosted s v p) from hk.trans (g.weaken hm)
  unfold deliverPosted
  with_reducible repeat' first
  | exact Keeps.refl _
  | assumption
  | decide
  | refine leaveWarp_keeps ?_ ?_
  | refine removeItem_keeps ?_ ?_
  | refine Keeps.ite ?_ ?_
  | refine Keeps.foldl ?_ _ (fun u a hu => ?_)
  | refine Keeps.foldlFst ?_ _ (fun u a hu => ?_)
  | (intro _ _)
  | split
  | dsimp only

theorem resetSlot_keeps {mk : Nat} {sk : State} {s : State} {p : Nat} (hk : Keeps mk sk s) (hm : 272 &&& mk = 272) :
    Keeps mk sk (resetSlot s p) := by
  suffices g : Keeps 272 s (resetSlot s p) from hk.trans (g.weaken hm)
  unfold resetSlot
  with_reducible repeat' first
  | exact Keeps.refl _
  | assumption
  | decide
  | refine setSlot_keeps ?_ ?_
  | (intro _ _)
  | split
  | dsimp only

theorem resetLink_keeps {mk : Nat} {sk : State} {cause : Nat} {s : State} {p : Nat} (hk : Keeps mk sk s) (hm : 8027024 &&& mk = 8027024) :
    Keeps mk sk (resetLink cause s p) := by
  suffices g : Keeps 8027024 s (resetLink cause s p) from hk.trans (g.weaken hm)
  unfold resetLink
  with_reducible repeat' first
  | exact Keeps.refl _
  | assumption
  | decide
  | (extract_lets +onlyGivenNames s1; have h1 : Keeps 8027024 s s1 := (by unfold s1; repeat' first | exact Keeps.refl _ | assumption | decide | refine assertSlotPerst_keeps ?_ ?_ | refine emit_keeps ?_ | refine failSent_keeps ?_ ?_ | refine refuseQueue_keeps ?_ ?_ | refine resetSlot_keeps ?_ ?_ | refine setWarp_keeps ?_ ?_ | refine surpriseEnd_keeps ?_ ?_ | refine warpLinkGone_keeps ?_ ?_ | refine Keeps.ite ?_ ?_ | (intro _ _) | split | dsimp only); clear_value s1)
  | (extract_lets +onlyGivenNames x1; clear_value x1)
  | refine assertSlotPerst_keeps ?_ ?_
  | refine emit_keeps ?_
  | refine failSent_keeps ?_ ?_
  | refine refuseQueue_keeps ?_ ?_
  | refine resetSlot_keeps ?_ ?_
  | refine setWarp_keeps ?_ ?_
  | refine surpriseEnd_keeps ?_ ?_
  | refine warpLinkGone_keeps ?_ ?_
  | refine Keeps.ite ?_ ?_
  | (intro _ _)
  | split
  | dsimp only

theorem resetFunctions_keeps {mk : Nat} {sk : State} {s : State} {v : Nat} (hk : Keeps mk sk s) (hm : 7758088 &&& mk = 7758088) :
    Keeps mk sk (resetFunctions s v) := by
  suffices g : Keeps 7758088 s (resetFunctions s v) from hk.trans (g.weaken hm)
  unfold resetFunctions
  with_reducible repeat' first
  | exact Keeps.refl _
  | assumption
  | decide
  | (extract_lets +onlyGivenNames s1; have h1 : Keeps 7758088 s s1 := (by unfold s1; repeat' first | exact Keeps.refl _ | assumption | decide | refine endMailbox_keeps ?_ ?_ | refine setAdm_keeps ?_ ?_ | refine setPart_keeps ?_ ?_ | refine vfDisable_keeps ?_ ?_ | (fail_if_no_progress refine Keeps.warp' ?_ _ rfl) | (fail_if_no_progress refine Keeps.eng' ?_ _ rfl) | (fail_if_no_progress refine Keeps.dob' ?_ _ rfl) | (fail_if_no_progress refine Keeps.mgmt' ?_ _ rfl) | (fail_if_no_progress (refine Keeps.several ?_ (by refine ⟨?_, ?_, ?_, ?_, ?_, ?_, ?_, ?_, ?_, ?_, ?_, ?_, ?_, ?_, ?_, ?_, ?_, ?_, ?_, ?_⟩ <;> first | exact Or.inl rfl | exact Or.inr rfl))) | (intro _ _) | split | dsimp only); clear_value s1)
  | (extract_lets +onlyGivenNames x1; clear_value x1)
  | refine endMailbox_keeps ?_ ?_
  | refine setAdm_keeps ?_ ?_
  | refine setPart_keeps ?_ ?_
  | refine vfDisable_keeps ?_ ?_
  | (fail_if_no_progress refine Keeps.warp' ?_ _ rfl)
  | (fail_if_no_progress refine Keeps.eng' ?_ _ rfl)
  | (fail_if_no_progress refine Keeps.dob' ?_ _ rfl)
  | (fail_if_no_progress refine Keeps.mgmt' ?_ _ rfl)
  | (fail_if_no_progress (refine Keeps.several ?_ (by refine ⟨?_, ?_, ?_, ?_, ?_, ?_, ?_, ?_, ?_, ?_, ?_, ?_, ?_, ?_, ?_, ?_, ?_, ?_, ?_, ?_⟩ <;> first | exact Or.inl rfl | exact Or.inr rfl)))
  | (intro _ _)
  | split
  | dsimp only

theorem dropTargets_keeps {mk : Nat} {sk : State} {s : State} {v : Nat} (hk : Keeps mk sk s) (hm : 7365504 &&& mk = 7365504) :
    Keeps mk sk (dropTargets s v) := by
  suffices g : Keeps 7365504 s (dropTargets s v) from hk.trans (g.weaken hm)
  unfold dropTargets
  with_reducible repeat' first
  | exact Keeps.refl _
  | assumption
  | decide
  | refine releaseItem_keeps ?_ ?_
  | refine removeItem_keeps ?_ ?_
  | refine Keeps.foldl ?_ _ (fun u a hu => ?_)
  | refine Keeps.foldlFst ?_ _ (fun u a hu => ?_)
  | (intro _ _)
  | split
  | dsimp only

theorem resetWindows_keeps {mk : Nat} {sk : State} {s : State} {v : Nat} (hk : Keeps mk sk s) (hm : 7368704 &&& mk = 7368704) :
    Keeps mk sk (resetWindows s v) := by
  suffices g : Keeps 7368704 s (resetWindows s v) from hk.trans (g.weaken hm)
  unfold resetWindows
  with_reducible repeat' first
  | exact Keeps.refl _
  | assumption
  | decide
  | (extract_lets +onlyGivenNames q1; have hq1 : Keeps 7368704 s q1.1 := (by unfold q1; repeat' first | exact Keeps.refl _ | assumption | decide | refine eventIn_keeps ?_ ?_ | refine revokeWindows_keeps ?_ ?_ | refine Keeps.ite ?_ ?_ | refine Keeps.iteFst ?_ ?_ | (intro _ _) | split | dsimp only); clear_value q1)
  | (extract_lets +onlyGivenNames s1; have h1 : Keeps 7368704 s s1 := (by unfold s1; repeat' first | exact Keeps.refl _ | assumption | decide | refine eventIn_keeps ?_ ?_ | refine revokeWindows_keeps ?_ ?_ | refine Keeps.ite ?_ ?_ | refine Keeps.iteFst ?_ ?_ | (intro _ _) | split | dsimp only); clear_value s1)
  | (extract_lets +onlyGivenNames x1; clear_value x1)
  | refine eventIn_keeps ?_ ?_
  | refine revokeWindows_keeps ?_ ?_
  | refine Keeps.ite ?_ ?_
  | refine Keeps.iteFst ?_ ?_
  | (intro _ _)
  | split
  | dsimp only

theorem tellExporter_keeps {mk : Nat} {sk : State} {s : State} {v : Nat} {what : Nat} (hk : Keeps mk sk s) (hm : 2048 &&& mk = 2048) :
    Keeps mk sk (tellExporter s v what) := by
  suffices g : Keeps 2048 s (tellExporter s v what) from hk.trans (g.weaken hm)
  unfold tellExporter
  with_reducible repeat' first
  | exact Keeps.refl _
  | assumption
  | decide
  | refine tunnelNotice_keeps ?_ ?_
  | (intro _ _)
  | split
  | dsimp only

theorem resetPartition_keeps {mk : Nat} {sk : State} {s : State} {v : Nat} {source : Nat} (hk : Keeps mk sk s) (hm : 8289176 &&& mk = 8289176) :
    Keeps mk sk (resetPartition s v source) := by
  suffices g : Keeps 8289176 s (resetPartition s v source) from hk.trans (g.weaken hm)
  unfold resetPartition
  with_reducible repeat' first
  | exact Keeps.refl _
  | assumption
  | decide
  | (extract_lets +onlyGivenNames s1; have h1 : Keeps 8289176 s s1 := (by unfold s1; repeat' first | exact Keeps.refl _ | assumption | decide | refine deliverPosted_keeps ?_ ?_ | refine discardPartIde_keeps ?_ ?_ | refine dropProxies_keeps ?_ ?_ | refine dropTargets_keeps ?_ ?_ | refine event_keeps ?_ ?_ | refine freeSemaphores_keeps ?_ ?_ | refine orphanAll_keeps ?_ ?_ | refine resetFunctions_keeps ?_ ?_ | refine resetLink_keeps ?_ ?_ | refine resetWindows_keeps ?_ ?_ | refine setPart_keeps ?_ ?_ | refine spoolDisarm_keeps ?_ ?_ | refine tellExporter_keeps ?_ ?_ | refine Keeps.ite ?_ ?_ | refine Keeps.foldl ?_ _ (fun u a hu => ?_) | refine Keeps.foldlFst ?_ _ (fun u a hu => ?_) | (intro _ _) | split | dsimp only); clear_value s1)
  | (extract_lets +onlyGivenNames x1; clear_value x1)
  | refine deliverPosted_keeps ?_ ?_
  | refine discardPartIde_keeps ?_ ?_
  | refine dropProxies_keeps ?_ ?_
  | refine dropTargets_keeps ?_ ?_
  | refine event_keeps ?_ ?_
  | refine freeSemaphores_keeps ?_ ?_
  | refine orphanAll_keeps ?_ ?_
  | refine resetFunctions_keeps ?_ ?_
  | refine resetLink_keeps ?_ ?_
  | refine resetWindows_keeps ?_ ?_
  | refine setPart_keeps ?_ ?_
  | refine spoolDisarm_keeps ?_ ?_
  | refine tellExporter_keeps ?_ ?_
  | refine Keeps.ite ?_ ?_
  | refine Keeps.foldl ?_ _ (fun u a hu => ?_)
  | refine Keeps.foldlFst ?_ _ (fun u a hu => ?_)
  | (intro _ _)
  | split
  | dsimp only

theorem perstAssert_keeps {mk : Nat} {sk : State} {v : Nat} {ns : Nat} {s : State} (hk : Keeps mk sk s) (hm : 8289176 &&& mk = 8289176) :
    Keeps mk sk (perstAssert v ns s) := by
  suffices g : Keeps 8289176 s (perstAssert v ns s) from hk.trans (g.weaken hm)
  unfold perstAssert
  with_reducible repeat' first
  | exact Keeps.refl _
  | assumption
  | decide
  | (extract_lets +onlyGivenNames s1; have h1 : Keeps 8289176 s s1 := (by unfold s1; repeat' first | exact Keeps.refl _ | assumption | decide | refine resetPartition_keeps ?_ ?_ | refine setPart_keeps ?_ ?_ | refine Keeps.ite ?_ ?_ | (intro _ _) | split | dsimp only); clear_value s1)
  | (extract_lets +onlyGivenNames x1; clear_value x1)
  | refine resetPartition_keeps ?_ ?_
  | refine setPart_keeps ?_ ?_
  | refine Keeps.ite ?_ ?_
  | (intro _ _)
  | split
  | dsimp only

theorem execPerstAssert_keeps {mk : Nat} {sk : State} {v : Vs} {ns : Nat} {s : State} (hk : Keeps mk sk s) (hm : 8289176 &&& mk = 8289176) :
    ∃ t', execPerstAssert v ns s = .next t' ∧ Keeps mk sk t' := by
  suffices g : ∃ t', execPerstAssert v ns s = .next t' ∧ Keeps 8289176 s t' from g.imp fun _ h => ⟨h.1, hk.trans (h.2.weaken hm)⟩
  refine ⟨_, rfl, ?_⟩
  with_reducible repeat' first
  | exact Keeps.refl _
  | assumption
  | decide
  | refine perstAssert_keeps ?_ ?_
  | (intro _ _)
  | split
  | dsimp only

theorem perstDeassert_keeps {mk : Nat} {sk : State} {v : Nat} {s : State} (hk : Keeps mk sk s) (hm : 256 &&& mk = 256) :
    Keeps mk sk (perstDeassert v s) := by
  suffices g : Keeps 256 s (perstDeassert v s) from hk.trans (g.weaken hm)
  unfold perstDeassert
  with_reducible repeat' first
  | exact Keeps.refl _
  | assumption
  | decide
  | refine setPart_keeps ?_ ?_
  | (intro _ _)
  | split
  | dsimp only

theorem execPerstDeassert_keeps {mk : Nat} {sk : State} {v : Vs} {s : State} (hk : Keeps mk sk s) (hm : 256 &&& mk = 256) :
    ∃ t', execPerstDeassert v s = .next t' ∧ Keeps mk sk t' := by
  suffices g : ∃ t', execPerstDeassert v s = .next t' ∧ Keeps 256 s t' from g.imp fun _ h => ⟨h.1, hk.trans (h.2.weaken hm)⟩
  refine ⟨_, rfl, ?_⟩
  with_reducible repeat' first
  | exact Keeps.refl _
  | assumption
  | decide
  | refine perstDeassert_keeps ?_ ?_
  | (intro _ _)
  | split
  | dsimp only

theorem exportedReset_keeps {mk : Nat} {sk : State} {s : State} {p : Nat} {cause : Nat} (hk : Keeps mk sk s) (hm : 8027008 &&& mk = 8027008) :
    Keeps mk sk (exportedReset s p cause) := by
  suffices g : Keeps 8027008 s (exportedReset s p cause) from hk.trans (g.weaken hm)
  unfold exportedReset
  with_reducible repeat' first
  | exact Keeps.refl _
  | assumption
  | decide
  | (extract_lets +onlyGivenNames s1; have h1 : Keeps 8027008 s s1 := (by unfold s1; repeat' first | exact Keeps.refl _ | assumption | decide | refine failSent_keeps ?_ ?_ | refine refuseQueue_keeps ?_ ?_ | refine setWarp_keeps ?_ ?_ | refine warpLinkGone_keeps ?_ ?_ | refine Keeps.ite ?_ ?_ | (intro _ _) | split | dsimp only); clear_value s1)
  | (extract_lets +onlyGivenNames x1; clear_value x1)
  | refine failSent_keeps ?_ ?_
  | refine refuseQueue_keeps ?_ ?_
  | refine setWarp_keeps ?_ ?_
  | refine warpLinkGone_keeps ?_ ?_
  | refine Keeps.ite ?_ ?_
  | (intro _ _)
  | split
  | dsimp only

theorem exportedDown_keeps {mk : Nat} {sk : State} {s : State} {p : Nat} {cause : Nat} (hk : Keeps mk sk s) (hm : 8027008 &&& mk = 8027008) :
    Keeps mk sk (exportedDown s p cause) := by
  suffices g : Keeps 8027008 s (exportedDown s p cause) from hk.trans (g.weaken hm)
  unfold exportedDown
  with_reducible repeat' first
  | exact Keeps.refl _
  | assumption
  | decide
  | (extract_lets +onlyGivenNames s1; have h1 : Keeps 8027008 s s1 := (by unfold s1; repeat' first | exact Keeps.refl _ | assumption | decide | refine exportedReset_keeps ?_ ?_ | refine tunnelNotice_keeps ?_ ?_ | (intro _ _) | split | dsimp only); clear_value s1)
  | (extract_lets +onlyGivenNames x1; clear_value x1)
  | refine exportedReset_keeps ?_ ?_
  | refine tunnelNotice_keeps ?_ ?_
  | (intro _ _)
  | split
  | dsimp only

theorem hotResetReceived_keeps {mk : Nat} {sk : State} {p : Nat} {s : State} (hk : Keeps mk sk s) (hm : 8289176 &&& mk = 8289176) :
    Keeps mk sk (hotResetReceived p s) := by
  suffices g : Keeps 8289176 s (hotResetReceived p s) from hk.trans (g.weaken hm)
  unfold hotResetReceived
  with_reducible repeat' first
  | exact Keeps.refl _
  | assumption
  | decide
  | refine exportedDown_keeps ?_ ?_
  | refine resetPartition_keeps ?_ ?_
  | refine Keeps.ite ?_ ?_
  | (intro _ _)
  | split
  | dsimp only

theorem execHotResetReceived_keeps {mk : Nat} {sk : State} {p : Port} {s : State} (hk : Keeps mk sk s) (hm : 8289176 &&& mk = 8289176) :
    ∃ t', execHotResetReceived p s = .next t' ∧ Keeps mk sk t' := by
  suffices g : ∃ t', execHotResetReceived p s = .next t' ∧ Keeps 8289176 s t' from g.imp fun _ h => ⟨h.1, hk.trans (h.2.weaken hm)⟩
  refine ⟨_, rfl, ?_⟩
  with_reducible repeat' first
  | exact Keeps.refl _
  | assumption
  | decide
  | refine hotResetReceived_keeps ?_ ?_
  | (intro _ _)
  | split
  | dsimp only

theorem dlDown_keeps {mk : Nat} {sk : State} {p : Nat} {s : State} (hk : Keeps mk sk s) (hm : 8289176 &&& mk = 8289176) :
    Keeps mk sk (dlDown p s) := by
  suffices g : Keeps 8289176 s (dlDown p s) from hk.trans (g.weaken hm)
  unfold dlDown
  with_reducible repeat' first
  | exact Keeps.refl _
  | assumption
  | decide
  | refine discardIde_keeps ?_ ?_
  | refine exportedDown_keeps ?_ ?_
  | refine resetPartition_keeps ?_ ?_
  | refine Keeps.ite ?_ ?_
  | (intro _ _)
  | split
  | dsimp only

theorem execDlDown_keeps {mk : Nat} {sk : State} {p : Port} {s : State} (hk : Keeps mk sk s) (hm : 8289176 &&& mk = 8289176) :
    ∃ t', execDlDown p s = .next t' ∧ Keeps mk sk t' := by
  suffices g : ∃ t', execDlDown p s = .next t' ∧ Keeps 8289176 s t' from g.imp fun _ h => ⟨h.1, hk.trans (h.2.weaken hm)⟩
  refine ⟨_, rfl, ?_⟩
  with_reducible repeat' first
  | exact Keeps.refl _
  | assumption
  | decide
  | refine dlDown_keeps ?_ ?_
  | (intro _ _)
  | split
  | dsimp only

theorem actVsReset_keeps {mk : Nat} {sk : State} {v : Nat} {s : State} (hk : Keeps mk sk s) (hm : 8289176 &&& mk = 8289176) :
    Keeps mk sk (actVsReset v s) := by
  suffices g : Keeps 8289176 s (actVsReset v s) from hk.trans (g.weaken hm)
  unfold actVsReset
  with_reducible repeat' first
  | exact Keeps.refl _
  | assumption
  | decide
  | refine resetPartition_keeps ?_ ?_
  | (intro _ _)
  | split
  | dsimp only

theorem execVsResetCmd_keeps {mk : Nat} {sk : State} {sess : Nat} {v : Vs} {value : Nat} {s : State} (hk : Keeps mk sk s) (hm : 8289176 &&& mk = 8289176) :
    ∃ t', execVsResetCmd sess v value s = .next t' ∧ Keeps mk sk t' := by
  suffices g : ∃ t', execVsResetCmd sess v value s = .next t' ∧ Keeps 8289176 s t' from g.imp fun _ h => ⟨h.1, hk.trans (h.2.weaken hm)⟩
  refine ⟨_, rfl, ?_⟩
  with_reducible repeat' first
  | exact Keeps.refl _
  | assumption
  | decide
  | refine actVsReset_keeps ?_ ?_
  | refine actWrite_keeps ?_ rfl (fun u hu => ?_) (fun u hu => ?_)
  | refine onOne_keeps ?_ (fun u hu => ?_)
  | refine Keeps.ite ?_ ?_
  | simp only [id_eq]
  | (intro _ _)
  | split
  | dsimp only

theorem trainPort_keeps {mk : Nat} {sk : State} {s : State} {p : Nat} (hk : Keeps mk sk s) (hm : 256 &&& mk = 256) :
    Keeps mk sk (trainPort s p) := by
  suffices g : Keeps 256 s (trainPort s p) from hk.trans (g.weaken hm)
  unfold trainPort
  with_reducible repeat' first
  | exact Keeps.refl _
  | assumption
  | decide
  | (extract_lets +onlyGivenNames s1; have h1 : Keeps 256 s s1 := (by unfold s1; repeat' first | exact Keeps.refl _ | assumption | decide | refine setWarp_keeps ?_ ?_ | refine Keeps.ite ?_ ?_ | (intro _ _) | split | dsimp only); clear_value s1)
  | (extract_lets +onlyGivenNames x1; clear_value x1)
  | refine setWarp_keeps ?_ ?_
  | refine Keeps.ite ?_ ?_
  | (intro _ _)
  | split
  | dsimp only

theorem startPartition_keeps {mk : Nat} {sk : State} {s : State} {v : Nat} (hk : Keeps mk sk s) (hm : 256 &&& mk = 256) :
    Keeps mk sk (startPartition s v) := by
  suffices g : Keeps 256 s (startPartition s v) from hk.trans (g.weaken hm)
  unfold startPartition
  with_reducible repeat' first
  | exact Keeps.refl _
  | assumption
  | decide
  | (extract_lets +onlyGivenNames s1; have h1 : Keeps 256 s s1 := (by unfold s1; repeat' first | exact Keeps.refl _ | assumption | decide | refine setPart_keeps ?_ ?_ | refine trainPort_keeps ?_ ?_ | refine Keeps.foldl ?_ _ (fun u a hu => ?_) | refine Keeps.foldlFst ?_ _ (fun u a hu => ?_) | (intro _ _) | split | dsimp only); clear_value s1)
  | (extract_lets +onlyGivenNames x1; clear_value x1)
  | refine setPart_keeps ?_ ?_
  | refine trainPort_keeps ?_ ?_
  | refine Keeps.foldl ?_ _ (fun u a hu => ?_)
  | refine Keeps.foldlFst ?_ _ (fun u a hu => ?_)
  | (intro _ _)
  | split
  | dsimp only

theorem partitionResetEnd_keeps {mk : Nat} {sk : State} {v : Nat} {s : State} (hk : Keeps mk sk s) (hm : 256 &&& mk = 256) :
    Keeps mk sk (partitionResetEnd v s) := by
  suffices g : Keeps 256 s (partitionResetEnd v s) from hk.trans (g.weaken hm)
  unfold partitionResetEnd
  with_reducible repeat' first
  | exact Keeps.refl _
  | assumption
  | decide
  | (extract_lets +onlyGivenNames s1; have h1 : Keeps 256 s s1 := (by unfold s1; repeat' first | exact Keeps.refl _ | assumption | decide | refine startPartition_keeps ?_ ?_ | refine Keeps.ite ?_ ?_ | (intro _ _) | split | dsimp only); clear_value s1)
  | (extract_lets +onlyGivenNames x1; clear_value x1)
  | refine startPartition_keeps ?_ ?_
  | refine Keeps.ite ?_ ?_
  | (intro _ _)
  | split
  | dsimp only

theorem execPartitionResetEnd_keeps {mk : Nat} {sk : State} {v : Vs} {s : State} (hk : Keeps mk sk s) (hm : 256 &&& mk = 256) :
    ∃ t', execPartitionResetEnd v s = .next t' ∧ Keeps mk sk t' := by
  suffices g : ∃ t', execPartitionResetEnd v s = .next t' ∧ Keeps 256 s t' from g.imp fun _ h => ⟨h.1, hk.trans (h.2.weaken hm)⟩
  refine ⟨_, rfl, ?_⟩
  with_reducible repeat' first
  | exact Keeps.refl _
  | assumption
  | decide
  | refine partitionResetEnd_keeps ?_ ?_
  | (intro _ _)
  | split
  | dsimp only

theorem partitionReady_keeps {mk : Nat} {sk : State} {v : Nat} {s : State} (hk : Keeps mk sk s) (hm : 7366912 &&& mk = 7366912) :
    Keeps mk sk (partitionReady v s) := by
  suffices g : Keeps 7366912 s (partitionReady v s) from hk.trans (g.weaken hm)
  unfold partitionReady
  with_reducible repeat' first
  | exact Keeps.refl _
  | assumption
  | decide
  | (extract_lets +onlyGivenNames s1; have h1 : Keeps 7366912 s s1 := (by unfold s1; repeat' first | exact Keeps.refl _ | assumption | decide | refine event_keeps ?_ ?_ | refine eventIn_keeps ?_ ?_ | refine setPart_keeps ?_ ?_ | refine tellExporter_keeps ?_ ?_ | refine Keeps.ite ?_ ?_ | (intro _ _) | split | dsimp only); clear_value s1)
  | (extract_lets +onlyGivenNames x1; clear_value x1)
  | refine event_keeps ?_ ?_
  | refine eventIn_keeps ?_ ?_
  | refine setPart_keeps ?_ ?_
  | refine tellExporter_keeps ?_ ?_
  | refine Keeps.ite ?_ ?_
  | (intro _ _)
  | split
  | dsimp only

theorem execPartitionReady_keeps {mk : Nat} {sk : State} {v : Vs} {s : State} (hk : Keeps mk sk s) (hm : 7366912 &&& mk = 7366912) :
    ∃ t', execPartitionReady v s = .next t' ∧ Keeps mk sk t' := by
  suffices g : ∃ t', execPartitionReady v s = .next t' ∧ Keeps 7366912 s t' from g.imp fun _ h => ⟨h.1, hk.trans (h.2.weaken hm)⟩
  refine ⟨_, rfl, ?_⟩
  with_reducible repeat' first
  | exact Keeps.refl _
  | assumption
  | decide
  | refine partitionReady_keeps ?_ ?_
  | (intro _ _)
  | split
  | dsimp only

theorem importLost_keeps {mk : Nat} {sk : State} {s : State} {v : Nat} (hk : Keeps mk sk s) (hm : 8289176 &&& mk = 8289176) :
    Keeps mk sk (importLost s v) := by
  suffices g : Keeps 8289176 s (importLost s v) from hk.trans (g.weaken hm)
  unfold importLost
  with_reducible repeat' first
  | exact Keeps.refl _
  | assumption
  | decide
  | refine resetPartition_keeps ?_ ?_
  | refine Keeps.ite ?_ ?_
  | (intro _ _)
  | split
  | dsimp only

theorem exportLost_keeps {mk : Nat} {sk : State} {s : State} {a : AdmittedVs} (hk : Keeps mk sk s) (hm : 8027008 &&& mk = 8027008) :
    Keeps mk sk (exportLost s a) := by
  suffices g : Keeps 8027008 s (exportLost s a) from hk.trans (g.weaken hm)
  unfold exportLost
  with_reducible repeat' first
  | exact Keeps.refl _
  | assumption
  | decide
  | (extract_lets +onlyGivenNames s1; have h1 : Keeps 8027008 s s1 := (by unfold s1; repeat' first | exact Keeps.refl _ | assumption | decide | refine exportedReset_keeps ?_ ?_ | refine Keeps.ite ?_ ?_ | (intro _ _) | split | dsimp only); clear_value s1)
  | (extract_lets +onlyGivenNames x1; clear_value x1)
  | refine exportedReset_keeps ?_ ?_
  | refine Keeps.ite ?_ ?_
  | (intro _ _)
  | split
  | dsimp only

theorem importsFollowed_keeps {mk : Nat} {sk : State} {s : State} (hk : Keeps mk sk s) (hm : 8289176 &&& mk = 8289176) :
    Keeps mk sk (importsFollowed s) := by
  suffices g : Keeps 8289176 s (importsFollowed s) from hk.trans (g.weaken hm)
  unfold importsFollowed
  with_reducible repeat' first
  | exact Keeps.refl _
  | assumption
  | decide
  | refine exportLost_keeps ?_ ?_
  | refine importLost_keeps ?_ ?_
  | refine Keeps.ite ?_ ?_
  | refine Keeps.foldl ?_ _ (fun u a hu => ?_)
  | refine Keeps.foldlFst ?_ _ (fun u a hu => ?_)
  | (intro _ _)
  | split
  | dsimp only

theorem enterPartition_keeps {mk : Nat} {sk : State} {s : State} {v : Nat} (hk : Keeps mk sk s) (hm : 7364864 &&& mk = 7364864) :
    Keeps mk sk (enterPartition s v) := by
  suffices g : Keeps 7364864 s (enterPartition s v) from hk.trans (g.weaken hm)
  unfold enterPartition
  with_reducible repeat' first
  | exact Keeps.refl _
  | assumption
  | decide
  | refine event_keeps ?_ ?_
  | refine setPart_keeps ?_ ?_
  | refine startPartition_keeps ?_ ?_
  | refine Keeps.ite ?_ ?_
  | (intro _ _)
  | split
  | dsimp only

theorem leavePartition_keeps {mk : Nat} {sk : State} {s : State} {v : Nat} (hk : Keeps mk sk s) (hm : 8289176 &&& mk = 8289176) :
    Keeps mk sk (leavePartition s v) := by
  suffices g : Keeps 8289176 s (leavePartition s v) from hk.trans (g.weaken hm)
  unfold leavePartition
  with_reducible repeat' first
  | exact Keeps.refl _
  | assumption
  | decide
  | (extract_lets +onlyGivenNames s1; have h1 : Keeps 8289176 s s1 := (by unfold s1; repeat' first | exact Keeps.refl _ | assumption | decide | refine discardPartIde_keeps ?_ ?_ | refine dropProxies_keeps ?_ ?_ | refine freeSemaphores_keeps ?_ ?_ | refine orphanAll_keeps ?_ ?_ | refine resetFunctions_keeps ?_ ?_ | refine resetLink_keeps ?_ ?_ | refine resetWindows_keeps ?_ ?_ | refine setPart_keeps ?_ ?_ | refine tellExporter_keeps ?_ ?_ | refine Keeps.foldl ?_ _ (fun u a hu => ?_) | refine Keeps.foldlFst ?_ _ (fun u a hu => ?_) | (intro _ _) | split | dsimp only); clear_value s1)
  | (extract_lets +onlyGivenNames x1; clear_value x1)
  | refine discardPartIde_keeps ?_ ?_
  | refine dropProxies_keeps ?_ ?_
  | refine freeSemaphores_keeps ?_ ?_
  | refine orphanAll_keeps ?_ ?_
  | refine resetFunctions_keeps ?_ ?_
  | refine resetLink_keeps ?_ ?_
  | refine resetWindows_keeps ?_ ?_
  | refine setPart_keeps ?_ ?_
  | refine tellExporter_keeps ?_ ?_
  | refine Keeps.foldl ?_ _ (fun u a hu => ?_)
  | refine Keeps.foldlFst ?_ _ (fun u a hu => ?_)
  | (intro _ _)
  | split
  | dsimp only

/-! ### Tunnel -/

theorem ownerNotice_keeps {mk : Nat} {sk : State} {s : State} {v : Nat} {t : Tlp} (hk : Keeps mk sk s) (hm : 8387480 &&& mk = 8387480) :
    Keeps mk sk (ownerNotice s v t) := by
  suffices g : Keeps 8387480 s (ownerNotice s v t) from hk.trans (g.weaken hm)
  unfold ownerNotice
  with_reducible repeat' first
  | exact Keeps.refl _
  | assumption
  | decide
  | refine configWrite_keeps ?_ ?_
  | refine resetPartition_keeps ?_ ?_
  | refine Keeps.ite ?_ ?_
  | (intro _ _)
  | split
  | dsimp only

theorem exporterNotice_keeps {mk : Nat} {sk : State} {s : State} {p : Nat} {t : Tlp} (hk : Keeps mk sk s) (hm : 8027008 &&& mk = 8027008) :
    Keeps mk sk (exporterNotice s p t) := by
  suffices g : Keeps 8027008 s (exporterNotice s p t) from hk.trans (g.weaken hm)
  unfold exporterNotice
  with_reducible repeat' first
  | exact Keeps.refl _
  | assumption
  | decide
  | refine exportedReset_keeps ?_ ?_
  | refine setWarp_keeps ?_ ?_
  | refine Keeps.ite ?_ ?_
  | (intro _ _)
  | split
  | dsimp only

theorem ownerArrival_keeps {mk : Nat} {sk : State} {s : State} {v : Nat} {t : Tlp} (hk : Keeps mk sk s) (hm : 8387480 &&& mk = 8387480) :
    Keeps mk sk (ownerArrival s v t) := by
  suffices g : Keeps 8387480 s (ownerArrival s v t) from hk.trans (g.weaken hm)
  unfold ownerArrival
  with_reducible repeat' first
  | exact Keeps.refl _
  | assumption
  | decide
  | refine acceptTlp_keeps ?_ ?_
  | refine ownerNotice_keeps ?_ ?_
  | refine Keeps.ite ?_ ?_
  | (intro _ _)
  | split
  | dsimp only

theorem exporterArrival_keeps {mk : Nat} {sk : State} {s : State} {a : AdmittedVs} {src : Nat} {t : Tlp} (hk : Keeps mk sk s) (hm : 8027008 &&& mk = 8027008) :
    Keeps mk sk (exporterArrival s a src t) := by
  suffices g : Keeps 8027008 s (exporterArrival s a src t) from hk.trans (g.weaken hm)
  unfold exporterArrival
  with_reducible repeat' first
  | exact Keeps.refl _
  | assumption
  | decide
  | (extract_lets +onlyGivenNames q1; have hq1 : Keeps 8027008 s q1.1 := (by unfold q1; repeat' first | exact Keeps.refl _ | assumption | decide | refine answer_keeps ?_ ?_ | refine enqueueTlp_keeps ?_ ?_ | refine exporterNotice_keeps ?_ ?_ | refine Keeps.ite ?_ ?_ | refine Keeps.iteFst ?_ ?_ | (intro _ _) | split | dsimp only); clear_value q1)
  | (extract_lets +onlyGivenNames s1; have h1 : Keeps 8027008 s s1 := (by unfold s1; repeat' first | exact Keeps.refl _ | assumption | decide | refine answer_keeps ?_ ?_ | refine enqueueTlp_keeps ?_ ?_ | refine exporterNotice_keeps ?_ ?_ | refine Keeps.ite ?_ ?_ | refine Keeps.iteFst ?_ ?_ | (intro _ _) | split | dsimp only); clear_value s1)
  | (extract_lets +onlyGivenNames x1; clear_value x1)
  | refine answer_keeps ?_ ?_
  | refine enqueueTlp_keeps ?_ ?_
  | refine exporterNotice_keeps ?_ ?_
  | refine Keeps.ite ?_ ?_
  | refine Keeps.iteFst ?_ ?_
  | (intro _ _)
  | split
  | dsimp only

theorem tunnelArrived_keeps {mk : Nat} {sk : State} {s : State} {r : Nat × Nat × Option Nat × Tlp} (hk : Keeps mk sk s) (hm : 8387480 &&& mk = 8387480) :
    Keeps mk sk (tunnelArrived s r) := by
  suffices g : Keeps 8387480 s (tunnelArrived s r) from hk.trans (g.weaken hm)
  unfold tunnelArrived
  with_reducible repeat' first
  | exact Keeps.refl _
  | assumption
  | decide
  | (extract_lets +onlyGivenNames s1; have h1 : Keeps 8387480 s s1 := (by unfold s1; repeat' first | exact Keeps.refl _ | assumption | decide | refine exporterArrival_keeps ?_ ?_ | refine handOver_keeps ?_ ?_ | refine ownerArrival_keeps ?_ ?_ | (intro _ _) | split | dsimp only); clear_value s1)
  | (extract_lets +onlyGivenNames x1; clear_value x1)
  | refine exporterArrival_keeps ?_ ?_
  | refine handOver_keeps ?_ ?_
  | refine ownerArrival_keeps ?_ ?_
  | (intro _ _)
  | split
  | dsimp only

theorem tunnelSettled_keeps {mk : Nat} {sk : State} {s : State} (hk : Keeps mk sk s) (hm : 8387480 &&& mk = 8387480) :
    Keeps mk sk (tunnelSettled s) := by
  suffices g : Keeps 8387480 s (tunnelSettled s) from hk.trans (g.weaken hm)
  unfold tunnelSettled
  with_reducible repeat' first
  | exact Keeps.refl _
  | assumption
  | decide
  | refine tunnelArrived_keeps ?_ ?_
  | refine Keeps.foldl ?_ _ (fun u a hu => ?_)
  | refine Keeps.foldlFst ?_ _ (fun u a hu => ?_)
  | (fail_if_no_progress refine Keeps.shu' ?_ _ rfl)
  | (intro _ _)
  | split
  | dsimp only

/-! ### Links -/

theorem lateDropSent_keeps {mk : Nat} {sk : State} {s : State} {d : LateDrop} (hk : Keeps mk sk s) (hm : 7367552 &&& mk = 7367552) :
    Keeps mk sk (lateDropSent s d) := by
  suffices g : Keeps 7367552 s (lateDropSent s d) from hk.trans (g.weaken hm)
  unfold lateDropSent
  with_reducible repeat' first
  | exact Keeps.refl _
  | assumption
  | decide
  | (extract_lets +onlyGivenNames s1; have h1 : Keeps 7367552 s s1 := (by unfold s1; repeat' first | exact Keeps.refl _ | assumption | decide | refine sendNak_keeps ?_ ?_ | (intro _ _) | split | dsimp only); clear_value s1)
  | (extract_lets +onlyGivenNames x1; clear_value x1)
  | refine sendNak_keeps ?_ ?_
  | (intro _ _)
  | split
  | dsimp only

theorem lateDropsSent_keeps {mk : Nat} {sk : State} {s : State} (hk : Keeps mk sk s) (hm : 7367552 &&& mk = 7367552) :
    Keeps mk sk (lateDropsSent s) := by
  suffices g : Keeps 7367552 s (lateDropsSent s) from hk.trans (g.weaken hm)
  unfold lateDropsSent
  with_reducible repeat' first
  | exact Keeps.refl _
  | assumption
  | decide
  | (extract_lets +onlyGivenNames s1; have h1 : Keeps 7367552 s s1 := (by unfold s1; repeat' first | exact Keeps.refl _ | assumption | decide | refine lateDropSent_keeps ?_ ?_ | refine Keeps.foldl ?_ _ (fun u a hu => ?_) | refine Keeps.foldlFst ?_ _ (fun u a hu => ?_) | (fail_if_no_progress refine Keeps.shu' ?_ _ rfl) | (intro _ _) | split | dsimp only); clear_value s1)
  | (extract_lets +onlyGivenNames x1; clear_value x1)
  | refine lateDropSent_keeps ?_ ?_
  | refine Keeps.foldl ?_ _ (fun u a hu => ?_)
  | refine Keeps.foldlFst ?_ _ (fun u a hu => ?_)
  | (fail_if_no_progress refine Keeps.shu' ?_ _ rfl)
  | (intro _ _)
  | split
  | dsimp only

theorem heldSettled_keeps {mk : Nat} {sk : State} {s : State} (hk : Keeps mk sk s) (hm : 8059776 &&& mk = 8059776) :
    Keeps mk sk (heldSettled s) := by
  suffices g : Keeps 8059776 s (heldSettled s) from hk.trans (g.weaken hm)
  unfold heldSettled
  with_reducible repeat' first
  | exact Keeps.refl _
  | assumption
  | decide
  | refine heldTaken_keeps ?_ ?_
  | refine Keeps.foldl ?_ _ (fun u a hu => ?_)
  | refine Keeps.foldlFst ?_ _ (fun u a hu => ?_)
  | (intro _ _)
  | split
  | dsimp only

theorem settle_keeps {mk : Nat} {sk : State} {s : State} (hk : Keeps mk sk s) (hm : 8388504 &&& mk = 8388504) :
    Keeps mk sk (settle s) := by
  suffices g : Keeps 8388504 s (settle s) from hk.trans (g.weaken hm)
  unfold settle
  with_reducible repeat' first
  | exact Keeps.refl _
  | assumption
  | decide
  | refine denialsRecorded_keeps ?_ ?_
  | refine dobbySettled_keeps ?_ ?_
  | refine engineSettled_keeps ?_ ?_
  | refine errorsSent_keeps ?_ ?_
  | refine health_keeps ?_ ?_
  | refine heldSettled_keeps ?_ ?_
  | refine importsFollowed_keeps ?_ ?_
  | refine lateDropsSent_keeps ?_ ?_
  | refine tunnelSettled_keeps ?_ ?_
  | refine weftSettled_keeps ?_ ?_
  | (intro _ _)
  | split
  | dsimp only

theorem execBlockLockLost_keeps {mk : Nat} {sk : State} {l : Lane} {s : State} (hk : Keeps mk sk s) (hm : 8388568 &&& mk = 8388568) :
    ∃ t', execBlockLockLost l s = .next t' ∧ Keeps mk sk t' := by
  suffices g : ∃ t', execBlockLockLost l s = .next t' ∧ Keeps 8388568 s t' from g.imp fun _ h => ⟨h.1, hk.trans (h.2.weaken hm)⟩
  refine ⟨_, rfl, ?_⟩
  with_reducible repeat' first
  | exact Keeps.refl _
  | assumption
  | decide
  | refine blockLockLost_keeps ?_ ?_
  | refine settle_keeps ?_ ?_
  | (intro _ _)
  | split
  | dsimp only

theorem execLaneAlignTimeout_keeps {mk : Nat} {sk : State} {l : Lane} {s : State} (hk : Keeps mk sk s) (hm : 8388568 &&& mk = 8388568) :
    ∃ t', execLaneAlignTimeout l s = .next t' ∧ Keeps mk sk t' := by
  suffices g : ∃ t', execLaneAlignTimeout l s = .next t' ∧ Keeps 8388568 s t' from g.imp fun _ h => ⟨h.1, hk.trans (h.2.weaken hm)⟩
  refine ⟨_, rfl, ?_⟩
  with_reducible repeat' first
  | exact Keeps.refl _
  | assumption
  | decide
  | refine laneAlignTimeout_keeps ?_ ?_
  | refine settle_keeps ?_ ?_
  | (intro _ _)
  | split
  | dsimp only

theorem execWeftBlockReceive_keeps {mk : Nat} {sk : State} {l : Lane} {levels : BitVec 130} {s : State} (hk : Keeps mk sk s) (hm : 8388568 &&& mk = 8388568) :
    ∃ t', execWeftBlockReceive l levels s = .next t' ∧ Keeps mk sk t' := by
  suffices g : ∃ t', execWeftBlockReceive l levels s = .next t' ∧ Keeps 8388568 s t' from g.imp fun _ h => ⟨h.1, hk.trans (h.2.weaken hm)⟩
  refine ⟨_, rfl, ?_⟩
  with_reducible repeat' first
  | exact Keeps.refl _
  | assumption
  | decide
  | refine settle_keeps ?_ ?_
  | refine weftBlockReceive_keeps ?_ ?_
  | (intro _ _)
  | split
  | dsimp only

theorem execAlignReceive_keeps {mk : Nat} {sk : State} {l : Lane} {s : State} (hk : Keeps mk sk s) (hm : 8388568 &&& mk = 8388568) :
    ∃ t', execAlignReceive l s = .next t' ∧ Keeps mk sk t' := by
  suffices g : ∃ t', execAlignReceive l s = .next t' ∧ Keeps 8388568 s t' from g.imp fun _ h => ⟨h.1, hk.trans (h.2.weaken hm)⟩
  refine ⟨_, rfl, ?_⟩
  with_reducible repeat' first
  | exact Keeps.refl _
  | assumption
  | decide
  | refine alignReceive_keeps ?_ ?_
  | refine settle_keeps ?_ ?_
  | (intro _ _)
  | split
  | dsimp only

theorem execTs1Receive_keeps {mk : Nat} {sk : State} {p : Port} {s : State} (hk : Keeps mk sk s) (hm : 8388568 &&& mk = 8388568) :
    ∃ t', execTs1Receive p s = .next t' ∧ Keeps mk sk t' := by
  suffices g : ∃ t', execTs1Receive p s = .next t' ∧ Keeps 8388568 s t' from g.imp fun _ h => ⟨h.1, hk.trans (h.2.weaken hm)⟩
  refine ⟨_, rfl, ?_⟩
  with_reducible repeat' first
  | exact Keeps.refl _
  | assumption
  | decide
  | refine settle_keeps ?_ ?_
  | refine ts1Receive_keeps ?_ ?_
  | (intro _ _)
  | split
  | dsimp only

theorem execTs2Receive_keeps {mk : Nat} {sk : State} {p : Port} {s : State} (hk : Keeps mk sk s) (hm : 8388568 &&& mk = 8388568) :
    ∃ t', execTs2Receive p s = .next t' ∧ Keeps mk sk t' := by
  suffices g : ∃ t', execTs2Receive p s = .next t' ∧ Keeps 8388568 s t' from g.imp fun _ h => ⟨h.1, hk.trans (h.2.weaken hm)⟩
  refine ⟨_, rfl, ?_⟩
  with_reducible repeat' first
  | exact Keeps.refl _
  | assumption
  | decide
  | refine settle_keeps ?_ ?_
  | refine ts2Receive_keeps ?_ ?_
  | (intro _ _)
  | split
  | dsimp only

theorem flitReceive_keeps {mk : Nat} {sk : State} {p : Nat} {s : State} (hk : Keeps mk sk s) (hm : 7364800 &&& mk = 7364800) :
    Keeps mk sk (flitReceive p s) := by
  suffices g : Keeps 7364800 s (flitReceive p s) from hk.trans (g.weaken hm)
  unfold flitReceive
  with_reducible repeat' first
  | exact Keeps.refl _
  | assumption
  | decide
  | (extract_lets +onlyGivenNames q1; have hq1 : Keeps 7364800 s q1.1 := (by unfold q1; repeat' first | exact Keeps.refl _ | assumption | decide | refine flitAccept_keeps ?_ ?_ | refine takeFlit_keeps ?_ ?_ | (intro _ _) | split | dsimp only); clear_value q1)
  | (extract_lets +onlyGivenNames s1; have h1 : Keeps 7364800 s s1 := (by unfold s1; repeat' first | exact Keeps.refl _ | assumption | decide | refine flitAccept_keeps ?_ ?_ | refine takeFlit_keeps ?_ ?_ | (intro _ _) | split | dsimp only); clear_value s1)
  | (extract_lets +onlyGivenNames x1; clear_value x1)
  | refine flitAccept_keeps ?_ ?_
  | refine takeFlit_keeps ?_ ?_
  | (intro _ _)
  | split
  | dsimp only

theorem execFlitReceive_keeps {mk : Nat} {sk : State} {p : Port} {s : State} (hk : Keeps mk sk s) (hm : 8388568 &&& mk = 8388568) :
    ∃ t', execFlitReceive p s = .next t' ∧ Keeps mk sk t' := by
  suffices g : ∃ t', execFlitReceive p s = .next t' ∧ Keeps 8388568 s t' from g.imp fun _ h => ⟨h.1, hk.trans (h.2.weaken hm)⟩
  refine ⟨_, rfl, ?_⟩
  with_reducible repeat' first
  | exact Keeps.refl _
  | assumption
  | decide
  | refine flitReceive_keeps ?_ ?_
  | refine settle_keeps ?_ ?_
  | (intro _ _)
  | split
  | dsimp only

theorem execReplayTimerExpiry_keeps {mk : Nat} {sk : State} {p : Port} {s : State} (hk : Keeps mk sk s) (hm : 8388568 &&& mk = 8388568) :
    ∃ t', execReplayTimerExpiry p s = .next t' ∧ Keeps mk sk t' := by
  suffices g : ∃ t', execReplayTimerExpiry p s = .next t' ∧ Keeps 8388568 s t' from g.imp fun _ h => ⟨h.1, hk.trans (h.2.weaken hm)⟩
  refine ⟨_, rfl, ?_⟩
  with_reducible repeat' first
  | exact Keeps.refl _
  | assumption
  | decide
  | refine replayTimerExpiry_keeps ?_ ?_
  | refine settle_keeps ?_ ?_
  | (intro _ _)
  | split
  | dsimp only

theorem execWeftTrainingStart_keeps {mk : Nat} {sk : State} {p : Port} {s : State} (hk : Keeps mk sk s) (hm : 8388568 &&& mk = 8388568) :
    ∃ t', execWeftTrainingStart p s = .next t' ∧ Keeps mk sk t' := by
  suffices g : ∃ t', execWeftTrainingStart p s = .next t' ∧ Keeps 8388568 s t' from g.imp fun _ h => ⟨h.1, hk.trans (h.2.weaken hm)⟩
  refine ⟨_, rfl, ?_⟩
  with_reducible repeat' first
  | exact Keeps.refl _
  | assumption
  | decide
  | refine settle_keeps ?_ ?_
  | refine weftTrainingStart_keeps ?_ ?_
  | (intro _ _)
  | split
  | dsimp only

theorem execTrainingPhaseTimeout_keeps {mk : Nat} {sk : State} {p : Port} {s : State} (hk : Keeps mk sk s) (hm : 8388568 &&& mk = 8388568) :
    ∃ t', execTrainingPhaseTimeout p s = .next t' ∧ Keeps mk sk t' := by
  suffices g : ∃ t', execTrainingPhaseTimeout p s = .next t' ∧ Keeps 8388568 s t' from g.imp fun _ h => ⟨h.1, hk.trans (h.2.weaken hm)⟩
  refine ⟨_, rfl, ?_⟩
  with_reducible repeat' first
  | exact Keeps.refl _
  | assumption
  | decide
  | refine settle_keeps ?_ ?_
  | refine trainingPhaseTimeout_keeps ?_ ?_
  | (intro _ _)
  | split
  | dsimp only

theorem execCreditInitReceive_keeps {mk : Nat} {sk : State} {p : Port} {s : State} (hk : Keeps mk sk s) (hm : 8388568 &&& mk = 8388568) :
    ∃ t', execCreditInitReceive p s = .next t' ∧ Keeps mk sk t' := by
  suffices g : ∃ t', execCreditInitReceive p s = .next t' ∧ Keeps 8388568 s t' from g.imp fun _ h => ⟨h.1, hk.trans (h.2.weaken hm)⟩
  refine ⟨_, rfl, ?_⟩
  with_reducible repeat' first
  | exact Keeps.refl _
  | assumption
  | decide
  | refine creditInitReceive_keeps ?_ ?_
  | refine settle_keeps ?_ ?_
  | (intro _ _)
  | split
  | dsimp only

theorem execFlitStartReceive_keeps {mk : Nat} {sk : State} {p : Port} {s : State} (hk : Keeps mk sk s) (hm : 8388568 &&& mk = 8388568) :
    ∃ t', execFlitStartReceive p s = .next t' ∧ Keeps mk sk t' := by
  suffices g : ∃ t', execFlitStartReceive p s = .next t' ∧ Keeps 8388568 s t' from g.imp fun _ h => ⟨h.1, hk.trans (h.2.weaken hm)⟩
  refine ⟨_, rfl, ?_⟩
  with_reducible repeat' first
  | exact Keeps.refl _
  | assumption
  | decide
  | refine flitStartReceive_keeps ?_ ?_
  | refine settle_keeps ?_ ?_
  | (intro _ _)
  | split
  | dsimp only

theorem execAlignedTimeout_keeps {mk : Nat} {sk : State} {p : Port} {s : State} (hk : Keeps mk sk s) (hm : 8388568 &&& mk = 8388568) :
    ∃ t', execAlignedTimeout p s = .next t' ∧ Keeps mk sk t' := by
  suffices g : ∃ t', execAlignedTimeout p s = .next t' ∧ Keeps 8388568 s t' from g.imp fun _ h => ⟨h.1, hk.trans (h.2.weaken hm)⟩
  refine ⟨_, rfl, ?_⟩
  with_reducible repeat' first
  | exact Keeps.refl _
  | assumption
  | decide
  | refine alignedTimeout_keeps ?_ ?_
  | refine settle_keeps ?_ ?_
  | (intro _ _)
  | split
  | dsimp only

theorem execRetrainReqReceive_keeps {mk : Nat} {sk : State} {p : Port} {s : State} (hk : Keeps mk sk s) (hm : 8388568 &&& mk = 8388568) :
    ∃ t', execRetrainReqReceive p s = .next t' ∧ Keeps mk sk t' := by
  suffices g : ∃ t', execRetrainReqReceive p s = .next t' ∧ Keeps 8388568 s t' from g.imp fun _ h => ⟨h.1, hk.trans (h.2.weaken hm)⟩
  refine ⟨_, rfl, ?_⟩
  with_reducible repeat' first
  | exact Keeps.refl _
  | assumption
  | decide
  | refine retrainReqReceive_keeps ?_ ?_
  | refine settle_keeps ?_ ?_
  | (intro _ _)
  | split
  | dsimp only

theorem execRetrainReqEnd_keeps {mk : Nat} {sk : State} {p : Port} {s : State} (hk : Keeps mk sk s) (hm : 8388568 &&& mk = 8388568) :
    ∃ t', execRetrainReqEnd p s = .next t' ∧ Keeps mk sk t' := by
  suffices g : ∃ t', execRetrainReqEnd p s = .next t' ∧ Keeps 8388568 s t' from g.imp fun _ h => ⟨h.1, hk.trans (h.2.weaken hm)⟩
  refine ⟨_, rfl, ?_⟩
  with_reducible repeat' first
  | exact Keeps.refl _
  | assumption
  | decide
  | refine retrainReqEnd_keeps ?_ ?_
  | refine settle_keeps ?_ ?_
  | (intro _ _)
  | split
  | dsimp only

theorem execRetrainRateStep_keeps {mk : Nat} {sk : State} {p : Port} {s : State} (hk : Keeps mk sk s) (hm : 8388568 &&& mk = 8388568) :
    ∃ t', execRetrainRateStep p s = .next t' ∧ Keeps mk sk t' := by
  suffices g : ∃ t', execRetrainRateStep p s = .next t' ∧ Keeps 8388568 s t' from g.imp fun _ h => ⟨h.1, hk.trans (h.2.weaken hm)⟩
  refine ⟨_, rfl, ?_⟩
  with_reducible repeat' first
  | exact Keeps.refl _
  | assumption
  | decide
  | refine retrainRateStep_keeps ?_ ?_
  | refine settle_keeps ?_ ?_
  | (intro _ _)
  | split
  | dsimp only

theorem execRetrainTimeout_keeps {mk : Nat} {sk : State} {p : Port} {s : State} (hk : Keeps mk sk s) (hm : 8388568 &&& mk = 8388568) :
    ∃ t', execRetrainTimeout p s = .next t' ∧ Keeps mk sk t' := by
  suffices g : ∃ t', execRetrainTimeout p s = .next t' ∧ Keeps 8388568 s t' from g.imp fun _ h => ⟨h.1, hk.trans (h.2.weaken hm)⟩
  refine ⟨_, rfl, ?_⟩
  with_reducible repeat' first
  | exact Keeps.refl _
  | assumption
  | decide
  | refine retrainTimeout_keeps ?_ ?_
  | refine settle_keeps ?_ ?_
  | (intro _ _)
  | split
  | dsimp only

theorem execWeftRetrainCmd_keeps {mk : Nat} {sk : State} {sess : Nat} {p : Port} {value : Nat} {s : State} (hk : Keeps mk sk s) (hm : 8388568 &&& mk = 8388568) :
    ∃ t', execWeftRetrainCmd sess p value s = .next t' ∧ Keeps mk sk t' := by
  suffices g : ∃ t', execWeftRetrainCmd sess p value s = .next t' ∧ Keeps 8388568 s t' from g.imp fun _ h => ⟨h.1, hk.trans (h.2.weaken hm)⟩
  refine ⟨_, rfl, ?_⟩
  with_reducible repeat' first
  | exact Keeps.refl _
  | assumption
  | decide
  | refine actWeftRetrain_keeps ?_ ?_
  | refine actWrite_keeps ?_ rfl (fun u hu => ?_) (fun u hu => ?_)
  | refine onOne_keeps ?_ (fun u hu => ?_)
  | refine settle_keeps ?_ ?_
  | refine Keeps.ite ?_ ?_
  | simp only [id_eq]
  | (intro _ _)
  | split
  | dsimp only

theorem warpClockDown_keeps {mk : Nat} {sk : State} {s : State} {p : Nat} (hk : Keeps mk sk s) (hm : 8289176 &&& mk = 8289176) :
    Keeps mk sk (warpClockDown s p) := by
  suffices g : Keeps 8289176 s (warpClockDown s p) from hk.trans (g.weaken hm)
  unfold warpClockDown
  with_reducible repeat' first
  | exact Keeps.refl _
  | assumption
  | decide
  | (extract_lets +onlyGivenNames s1; have h1 : Keeps 8289176 s s1 := (by unfold s1; repeat' first | exact Keeps.refl _ | assumption | decide | refine exportedDown_keeps ?_ ?_ | refine resetPartition_keeps ?_ ?_ | refine setWarp_keeps ?_ ?_ | refine surpriseState_keeps ?_ ?_ | refine warpLinkGone_keeps ?_ ?_ | refine Keeps.ite ?_ ?_ | (intro _ _) | split | dsimp only); clear_value s1)
  | (extract_lets +onlyGivenNames x1; clear_value x1)
  | refine exportedDown_keeps ?_ ?_
  | refine resetPartition_keeps ?_ ?_
  | refine setWarp_keeps ?_ ?_
  | refine surpriseState_keeps ?_ ?_
  | refine warpLinkGone_keeps ?_ ?_
  | refine Keeps.ite ?_ ?_
  | (intro _ _)
  | split
  | dsimp only

theorem clockDown_keeps {mk : Nat} {sk : State} {s : State} {p : Nat} (hk : Keeps mk sk s) (hm : 8289240 &&& mk = 8289240) :
    Keeps mk sk (clockDown s p) := by
  suffices g : Keeps 8289240 s (clockDown s p) from hk.trans (g.weaken hm)
  unfold clockDown
  with_reducible repeat' first
  | exact Keeps.refl _
  | assumption
  | decide
  | refine linkDown_keeps ?_ ?_
  | refine warpClockDown_keeps ?_ ?_
  | refine Keeps.ite ?_ ?_
  | (intro _ _)
  | split
  | dsimp only

theorem refclkLost_keeps {mk : Nat} {sk : State} {c : Nat} {s : State} (hk : Keeps mk sk s) (hm : 8289240 &&& mk = 8289240) :
    Keeps mk sk (refclkLost c s) := by
  suffices g : Keeps 8289240 s (refclkLost c s) from hk.trans (g.weaken hm)
  unfold refclkLost
  with_reducible repeat' first
  | exact Keeps.refl _
  | assumption
  | decide
  | (extract_lets +onlyGivenNames s1; have h1 : Keeps 8289240 s s1 := (by unfold s1; repeat' first | exact Keeps.refl _ | assumption | decide | refine clockDown_keeps ?_ ?_ | refine event_keeps ?_ ?_ | refine Keeps.ite ?_ ?_ | refine Keeps.foldl ?_ _ (fun u a hu => ?_) | refine Keeps.foldlFst ?_ _ (fun u a hu => ?_) | (fail_if_no_progress refine Keeps.lanes' ?_ _ rfl) | (intro _ _) | split | dsimp only); clear_value s1)
  | (extract_lets +onlyGivenNames x1; clear_value x1)
  | refine clockDown_keeps ?_ ?_
  | refine event_keeps ?_ ?_
  | refine Keeps.ite ?_ ?_
  | refine Keeps.foldl ?_ _ (fun u a hu => ?_)
  | refine Keeps.foldlFst ?_ _ (fun u a hu => ?_)
  | (fail_if_no_progress refine Keeps.lanes' ?_ _ rfl)
  | (intro _ _)
  | split
  | dsimp only

theorem execRefclkLost_keeps {mk : Nat} {sk : State} {c : Clk} {s : State} (hk : Keeps mk sk s) (hm : 8388568 &&& mk = 8388568) :
    ∃ t', execRefclkLost c s = .next t' ∧ Keeps mk sk t' := by
  suffices g : ∃ t', execRefclkLost c s = .next t' ∧ Keeps 8388568 s t' from g.imp fun _ h => ⟨h.1, hk.trans (h.2.weaken hm)⟩
  refine ⟨_, rfl, ?_⟩
  with_reducible repeat' first
  | exact Keeps.refl _
  | assumption
  | decide
  | refine refclkLost_keeps ?_ ?_
  | refine settle_keeps ?_ ?_
  | (intro _ _)
  | split
  | dsimp only

theorem clockUp_keeps {mk : Nat} {sk : State} {s : State} {p : Nat} (hk : Keeps mk sk s) (hm : 256 &&& mk = 256) :
    Keeps mk sk (clockUp s p) := by
  suffices g : Keeps 256 s (clockUp s p) from hk.trans (g.weaken hm)
  unfold clockUp
  with_reducible repeat' first
  | exact Keeps.refl _
  | assumption
  | decide
  | refine trainPort_keeps ?_ ?_
  | refine Keeps.ite ?_ ?_
  | (intro _ _)
  | split
  | dsimp only

theorem refclkRestored_keeps {mk : Nat} {sk : State} {c : Nat} {s : State} (hk : Keeps mk sk s) (hm : 7364928 &&& mk = 7364928) :
    Keeps mk sk (refclkRestored c s) := by
  suffices g : Keeps 7364928 s (refclkRestored c s) from hk.trans (g.weaken hm)
  unfold refclkRestored
  with_reducible repeat' first
  | exact Keeps.refl _
  | assumption
  | decide
  | (extract_lets +onlyGivenNames s1; have h1 : Keeps 7364928 s s1 := (by unfold s1; repeat' first | exact Keeps.refl _ | assumption | decide | refine clockUp_keeps ?_ ?_ | refine event_keeps ?_ ?_ | refine Keeps.ite ?_ ?_ | refine Keeps.foldl ?_ _ (fun u a hu => ?_) | refine Keeps.foldlFst ?_ _ (fun u a hu => ?_) | (fail_if_no_progress refine Keeps.lanes' ?_ _ rfl) | (intro _ _) | split | dsimp only); clear_value s1)
  | (extract_lets +onlyGivenNames x1; clear_value x1)
  | refine clockUp_keeps ?_ ?_
  | refine event_keeps ?_ ?_
  | refine Keeps.ite ?_ ?_
  | refine Keeps.foldl ?_ _ (fun u a hu => ?_)
  | refine Keeps.foldlFst ?_ _ (fun u a hu => ?_)
  | (fail_if_no_progress refine Keeps.lanes' ?_ _ rfl)
  | (intro _ _)
  | split
  | dsimp only

theorem execRefclkRestored_keeps {mk : Nat} {sk : State} {c : Clk} {s : State} (hk : Keeps mk sk s) (hm : 8388568 &&& mk = 8388568) :
    ∃ t', execRefclkRestored c s = .next t' ∧ Keeps mk sk t' := by
  suffices g : ∃ t', execRefclkRestored c s = .next t' ∧ Keeps 8388568 s t' from g.imp fun _ h => ⟨h.1, hk.trans (h.2.weaken hm)⟩
  refine ⟨_, rfl, ?_⟩
  with_reducible repeat' first
  | exact Keeps.refl _
  | assumption
  | decide
  | refine refclkRestored_keeps ?_ ?_
  | refine settle_keeps ?_ ?_
  | (intro _ _)
  | split
  | dsimp only

theorem execTlpIngress_keeps {mk : Nat} {sk : State} {p : Port} {t : Tlp} {s : State} (hk : Keeps mk sk s) (hm : 8388504 &&& mk = 8388504) :
    ∃ t', execTlpIngress p t s = .next t' ∧ Keeps mk sk t' := by
  suffices g : ∃ t', execTlpIngress p t s = .next t' ∧ Keeps 8388504 s t' from g.imp fun _ h => ⟨h.1, hk.trans (h.2.weaken hm)⟩
  refine ⟨_, rfl, ?_⟩
  with_reducible repeat' first
  | exact Keeps.refl _
  | assumption
  | decide
  | refine settle_keeps ?_ ?_
  | refine tlpIngress_keeps ?_ ?_
  | (intro _ _)
  | split
  | dsimp only

theorem windowTimedOut_keeps {mk : Nat} {sk : State} {s : State} {p : Nat} {r : OutReq} (hk : Keeps mk sk s) (hm : 7535488 &&& mk = 7535488) :
    Keeps mk sk (windowTimedOut s p r) := by
  suffices g : Keeps 7535488 s (windowTimedOut s p r) from hk.trans (g.weaken hm)
  unfold windowTimedOut
  with_reducible repeat' first
  | exact Keeps.refl _
  | assumption
  | decide
  | (extract_lets +onlyGivenNames q1; have hq1 : Keeps 7535488 s q1.1 := (by unfold q1; repeat' first | exact Keeps.refl _ | assumption | decide | refine passAnswer_keeps ?_ ?_ | refine requestAnswered_keeps ?_ ?_ | refine selContained_keeps ?_ ?_ | (intro _ _) | split | dsimp only); clear_value q1)
  | (extract_lets +onlyGivenNames s1; have h1 : Keeps 7535488 s s1 := (by unfold s1; repeat' first | exact Keeps.refl _ | assumption | decide | refine passAnswer_keeps ?_ ?_ | refine requestAnswered_keeps ?_ ?_ | refine selContained_keeps ?_ ?_ | (intro _ _) | split | dsimp only); clear_value s1)
  | (extract_lets +onlyGivenNames x1; clear_value x1)
  | refine passAnswer_keeps ?_ ?_
  | refine requestAnswered_keeps ?_ ?_
  | refine selContained_keeps ?_ ?_
  | (intro _ _)
  | split
  | dsimp only

theorem weCompletionTimeout_keeps {mk : Nat} {sk : State} {req : Nat} {s : State} (hk : Keeps mk sk s) (hm : 7535488 &&& mk = 7535488) :
    Keeps mk sk (weCompletionTimeout req s) := by
  suffices g : Keeps 7535488 s (weCompletionTimeout req s) from hk.trans (g.weaken hm)
  unfold weCompletionTimeout
  with_reducible repeat' first
  | exact Keeps.refl _
  | assumption
  | decide
  | (extract_lets +onlyGivenNames s1; have h1 : Keeps 7535488 s s1 := (by unfold s1; repeat' first | exact Keeps.refl _ | assumption | decide | refine readTimedOut_keeps ?_ ?_ | refine windowTimedOut_keeps ?_ ?_ | refine Keeps.ite ?_ ?_ | (intro _ _) | split | dsimp only); clear_value s1)
  | (extract_lets +onlyGivenNames x1; clear_value x1)
  | refine readTimedOut_keeps ?_ ?_
  | refine windowTimedOut_keeps ?_ ?_
  | refine Keeps.ite ?_ ?_
  | (intro _ _)
  | split
  | dsimp only

theorem execWeCompletionTimeout_keeps {mk : Nat} {sk : State} {req : Nat} {s : State} (hk : Keeps mk sk s) (hm : 8388504 &&& mk = 8388504) :
    ∃ t', execWeCompletionTimeout req s = .next t' ∧ Keeps mk sk t' := by
  suffices g : ∃ t', execWeCompletionTimeout req s = .next t' ∧ Keeps 8388504 s t' from g.imp fun _ h => ⟨h.1, hk.trans (h.2.weaken hm)⟩
  refine ⟨_, rfl, ?_⟩
  with_reducible repeat' first
  | exact Keeps.refl _
  | assumption
  | decide
  | refine settle_keeps ?_ ?_
  | refine weCompletionTimeout_keeps ?_ ?_
  | (intro _ _)
  | split
  | dsimp only

theorem execAgeSweep_keeps {mk : Nat} {sk : State} {s : State} (hk : Keeps mk sk s) (hm : 8388504 &&& mk = 8388504) :
    ∃ t', execAgeSweep s = .next t' ∧ Keeps mk sk t' := by
  suffices g : ∃ t', execAgeSweep s = .next t' ∧ Keeps 8388504 s t' from g.imp fun _ h => ⟨h.1, hk.trans (h.2.weaken hm)⟩
  refine ⟨_, rfl, ?_⟩
  with_reducible repeat' first
  | exact Keeps.refl _
  | assumption
  | decide
  | refine ageSweep_keeps ?_ ?_
  | refine settle_keeps ?_ ?_
  | (intro _ _)
  | split
  | dsimp only

theorem readback_keeps {mk : Nat} {sk : State} {r : StoreRead} {s : State} (hk : Keeps mk sk s) (hm : 7601024 &&& mk = 7601024) :
    Keeps mk sk (readback r s) := by
  suffices g : Keeps 7601024 s (readback r s) from hk.trans (g.weaken hm)
  unfold readback
  with_reducible repeat' first
  | exact Keeps.refl _
  | assumption
  | decide
  | (extract_lets +onlyGivenNames s1; have h1 : Keeps 7601024 s s1 := (by unfold s1; repeat' first | exact Keeps.refl _ | assumption | decide | refine readbackDone_keeps ?_ ?_ | refine toStalled_keeps ?_ ?_ | refine Keeps.ite ?_ ?_ | (intro _ _) | split | dsimp only); clear_value s1)
  | (extract_lets +onlyGivenNames x1; clear_value x1)
  | refine readbackDone_keeps ?_ ?_
  | refine toStalled_keeps ?_ ?_
  | refine Keeps.ite ?_ ?_
  | (intro _ _)
  | split
  | dsimp only

theorem execReadbackDone_keeps {mk : Nat} {sk : State} {r : StoreRead} {s : State} (hk : Keeps mk sk s) (hm : 8388504 &&& mk = 8388504) :
    ∃ t', execReadbackDone r s = .next t' ∧ Keeps mk sk t' := by
  suffices g : ∃ t', execReadbackDone r s = .next t' ∧ Keeps 8388504 s t' from g.imp fun _ h => ⟨h.1, hk.trans (h.2.weaken hm)⟩
  refine ⟨_, rfl, ?_⟩
  with_reducible repeat' first
  | exact Keeps.refl _
  | assumption
  | decide
  | refine readback_keeps ?_ ?_
  | refine settle_keeps ?_ ?_
  | (intro _ _)
  | split
  | dsimp only

theorem execOperationAccept_keeps {mk : Nat} {sk : State} {s : State} (hk : Keeps mk sk s) (hm : 8388504 &&& mk = 8388504) :
    ∃ t', execOperationAccept s = .next t' ∧ Keeps mk sk t' := by
  suffices g : ∃ t', execOperationAccept s = .next t' ∧ Keeps 8388504 s t' from g.imp fun _ h => ⟨h.1, hk.trans (h.2.weaken hm)⟩
  refine ⟨_, rfl, ?_⟩
  with_reducible repeat' first
  | exact Keeps.refl _
  | assumption
  | decide
  | refine operationAccept_keeps ?_ ?_
  | refine settle_keeps ?_ ?_
  | (intro _ _)
  | split
  | dsimp only

theorem execDeferredAccept_keeps {mk : Nat} {sk : State} {s : State} (hk : Keeps mk sk s) (hm : 8388504 &&& mk = 8388504) :
    ∃ t', execDeferredAccept s = .next t' ∧ Keeps mk sk t' := by
  suffices g : ∃ t', execDeferredAccept s = .next t' ∧ Keeps 8388504 s t' from g.imp fun _ h => ⟨h.1, hk.trans (h.2.weaken hm)⟩
  refine ⟨_, rfl, ?_⟩
  with_reducible repeat' first
  | exact Keeps.refl _
  | assumption
  | decide
  | refine deferredAccept_keeps ?_ ?_
  | refine settle_keeps ?_ ?_
  | (intro _ _)
  | split
  | dsimp only

theorem execOperationFirstSend_keeps {mk : Nat} {sk : State} {c : Cid} {s : State} (hk : Keeps mk sk s) (hm : 8388504 &&& mk = 8388504) :
    ∃ t', execOperationFirstSend c s = .next t' ∧ Keeps mk sk t' := by
  suffices g : ∃ t', execOperationFirstSend c s = .next t' ∧ Keeps 8388504 s t' from g.imp fun _ h => ⟨h.1, hk.trans (h.2.weaken hm)⟩
  refine ⟨_, rfl, ?_⟩
  with_reducible repeat' first
  | exact Keeps.refl _
  | assumption
  | decide
  | refine operationFirstSend_keeps ?_ ?_
  | refine settle_keeps ?_ ?_
  | (intro _ _)
  | split
  | dsimp only

theorem execRetransmitTimeout_keeps {mk : Nat} {sk : State} {ledgerIndex : Fin 65536} {s : State} (hk : Keeps mk sk s) (hm : 8388504 &&& mk = 8388504) :
    ∃ t', execRetransmitTimeout ledgerIndex s = .next t' ∧ Keeps mk sk t' := by
  suffices g : ∃ t', execRetransmitTimeout ledgerIndex s = .next t' ∧ Keeps 8388504 s t' from g.imp fun _ h => ⟨h.1, hk.trans (h.2.weaken hm)⟩
  refine ⟨_, rfl, ?_⟩
  with_reducible repeat' first
  | exact Keeps.refl _
  | assumption
  | decide
  | refine retransmitTimeout_keeps ?_ ?_
  | refine settle_keeps ?_ ?_
  | (intro _ _)
  | split
  | dsimp only

theorem execOperationReceive_keeps {mk : Nat} {sk : State} {s : State} (hk : Keeps mk sk s) (hm : 8388504 &&& mk = 8388504) :
    ∃ t', execOperationReceive s = .next t' ∧ Keeps mk sk t' := by
  suffices g : ∃ t', execOperationReceive s = .next t' ∧ Keeps 8388504 s t' from g.imp fun _ h => ⟨h.1, hk.trans (h.2.weaken hm)⟩
  refine ⟨_, rfl, ?_⟩
  with_reducible repeat' first
  | exact Keeps.refl _
  | assumption
  | decide
  | refine operationReceive_keeps ?_ ?_
  | refine settle_keeps ?_ ?_
  | (intro _ _)
  | split
  | dsimp only

theorem execAckSend_keeps {mk : Nat} {sk : State} {c : Cid} {s : State} (hk : Keeps mk sk s) (hm : 8388504 &&& mk = 8388504) :
    ∃ t', execAckSend c s = .next t' ∧ Keeps mk sk t' := by
  suffices g : ∃ t', execAckSend c s = .next t' ∧ Keeps 8388504 s t' from g.imp fun _ h => ⟨h.1, hk.trans (h.2.weaken hm)⟩
  refine ⟨_, rfl, ?_⟩
  with_reducible repeat' first
  | exact Keeps.refl _
  | assumption
  | decide
  | refine ackSend_keeps ?_ ?_
  | refine settle_keeps ?_ ?_
  | (intro _ _)
  | split
  | dsimp only

theorem execAckReceive_keeps {mk : Nat} {sk : State} {s : State} (hk : Keeps mk sk s) (hm : 8388504 &&& mk = 8388504) :
    ∃ t', execAckReceive s = .next t' ∧ Keeps mk sk t' := by
  suffices g : ∃ t', execAckReceive s = .next t' ∧ Keeps 8388504 s t' from g.imp fun _ h => ⟨h.1, hk.trans (h.2.weaken hm)⟩
  refine ⟨_, rfl, ?_⟩
  with_reducible repeat' first
  | exact Keeps.refl _
  | assumption
  | decide
  | refine ackReceive_keeps ?_ ?_
  | refine settle_keeps ?_ ?_
  | (intro _ _)
  | split
  | dsimp only

theorem execNakReceive_keeps {mk : Nat} {sk : State} {s : State} (hk : Keeps mk sk s) (hm : 8388504 &&& mk = 8388504) :
    ∃ t', execNakReceive s = .next t' ∧ Keeps mk sk t' := by
  suffices g : ∃ t', execNakReceive s = .next t' ∧ Keeps 8388504 s t' from g.imp fun _ h => ⟨h.1, hk.trans (h.2.weaken hm)⟩
  refine ⟨_, rfl, ?_⟩
  with_reducible repeat' first
  | exact Keeps.refl _
  | assumption
  | decide
  | refine nakReceive_keeps ?_ ?_
  | refine settle_keeps ?_ ?_
  | (intro _ _)
  | split
  | dsimp only

theorem execConnReqOpen_keeps {mk : Nat} {sk : State} {s : State} (hk : Keeps mk sk s) (hm : 8388504 &&& mk = 8388504) :
    ∃ t', execConnReqOpen s = .next t' ∧ Keeps mk sk t' := by
  suffices g : ∃ t', execConnReqOpen s = .next t' ∧ Keeps 8388504 s t' from g.imp fun _ h => ⟨h.1, hk.trans (h.2.weaken hm)⟩
  refine ⟨_, rfl, ?_⟩
  with_reducible repeat' first
  | exact Keeps.refl _
  | assumption
  | decide
  | refine connReqOpen_keeps ?_ ?_
  | refine settle_keeps ?_ ?_
  | (intro _ _)
  | split
  | dsimp only

theorem execConnReqClose_keeps {mk : Nat} {sk : State} {s : State} (hk : Keeps mk sk s) (hm : 8388504 &&& mk = 8388504) :
    ∃ t', execConnReqClose s = .next t' ∧ Keeps mk sk t' := by
  suffices g : ∃ t', execConnReqClose s = .next t' ∧ Keeps 8388504 s t' from g.imp fun _ h => ⟨h.1, hk.trans (h.2.weaken hm)⟩
  refine ⟨_, rfl, ?_⟩
  with_reducible repeat' first
  | exact Keeps.refl _
  | assumption
  | decide
  | refine connReqClose_keeps ?_ ?_
  | refine settle_keeps ?_ ?_
  | (intro _ _)
  | split
  | dsimp only

theorem execConnReqReset_keeps {mk : Nat} {sk : State} {s : State} (hk : Keeps mk sk s) (hm : 8388504 &&& mk = 8388504) :
    ∃ t', execConnReqReset s = .next t' ∧ Keeps mk sk t' := by
  suffices g : ∃ t', execConnReqReset s = .next t' ∧ Keeps 8388504 s t' from g.imp fun _ h => ⟨h.1, hk.trans (h.2.weaken hm)⟩
  refine ⟨_, rfl, ?_⟩
  with_reducible repeat' first
  | exact Keeps.refl _
  | assumption
  | decide
  | refine connReqReset_keeps ?_ ?_
  | refine settle_keeps ?_ ?_
  | (intro _ _)
  | split
  | dsimp only

theorem execConnReqRekey_keeps {mk : Nat} {sk : State} {s : State} (hk : Keeps mk sk s) (hm : 8388504 &&& mk = 8388504) :
    ∃ t', execConnReqRekey s = .next t' ∧ Keeps mk sk t' := by
  suffices g : ∃ t', execConnReqRekey s = .next t' ∧ Keeps 8388504 s t' from g.imp fun _ h => ⟨h.1, hk.trans (h.2.weaken hm)⟩
  refine ⟨_, rfl, ?_⟩
  with_reducible repeat' first
  | exact Keeps.refl _
  | assumption
  | decide
  | refine connReqRekey_keeps ?_ ?_
  | refine settle_keeps ?_ ?_
  | (intro _ _)
  | split
  | dsimp only

theorem execConnResp_keeps {mk : Nat} {sk : State} {s : State} (hk : Keeps mk sk s) (hm : 8388504 &&& mk = 8388504) :
    ∃ t', execConnResp s = .next t' ∧ Keeps mk sk t' := by
  suffices g : ∃ t', execConnResp s = .next t' ∧ Keeps 8388504 s t' from g.imp fun _ h => ⟨h.1, hk.trans (h.2.weaken hm)⟩
  refine ⟨_, rfl, ?_⟩
  with_reducible repeat' first
  | exact Keeps.refl _
  | assumption
  | decide
  | refine connResp_keeps ?_ ?_
  | refine settle_keeps ?_ ?_
  | (intro _ _)
  | split
  | dsimp only

theorem execConnReqResend_keeps {mk : Nat} {sk : State} {c : Cid} {s : State} (hk : Keeps mk sk s) (hm : 8388504 &&& mk = 8388504) :
    ∃ t', execConnReqResend c s = .next t' ∧ Keeps mk sk t' := by
  suffices g : ∃ t', execConnReqResend c s = .next t' ∧ Keeps 8388504 s t' from g.imp fun _ h => ⟨h.1, hk.trans (h.2.weaken hm)⟩
  refine ⟨_, rfl, ?_⟩
  with_reducible repeat' first
  | exact Keeps.refl _
  | assumption
  | decide
  | refine connReqResend_keeps ?_ ?_
  | refine settle_keeps ?_ ?_
  | (intro _ _)
  | split
  | dsimp only

theorem execConnOpenTimeout_keeps {mk : Nat} {sk : State} {c : Cid} {s : State} (hk : Keeps mk sk s) (hm : 8388504 &&& mk = 8388504) :
    ∃ t', execConnOpenTimeout c s = .next t' ∧ Keeps mk sk t' := by
  suffices g : ∃ t', execConnOpenTimeout c s = .next t' ∧ Keeps 8388504 s t' from g.imp fun _ h => ⟨h.1, hk.trans (h.2.weaken hm)⟩
  refine ⟨_, rfl, ?_⟩
  with_reducible repeat' first
  | exact Keeps.refl _
  | assumption
  | decide
  | refine connOpenTimeout_keeps ?_ ?_
  | refine settle_keeps ?_ ?_
  | (intro _ _)
  | split
  | dsimp only

theorem execConnExchangeTimeout_keeps {mk : Nat} {sk : State} {c : Cid} {s : State} (hk : Keeps mk sk s) (hm : 8388504 &&& mk = 8388504) :
    ∃ t', execConnExchangeTimeout c s = .next t' ∧ Keeps mk sk t' := by
  suffices g : ∃ t', execConnExchangeTimeout c s = .next t' ∧ Keeps 8388504 s t' from g.imp fun _ h => ⟨h.1, hk.trans (h.2.weaken hm)⟩
  refine ⟨_, rfl, ?_⟩
  with_reducible repeat' first
  | exact Keeps.refl _
  | assumption
  | decide
  | refine connExchangeTimeout_keeps ?_ ?_
  | refine settle_keeps ?_ ?_
  | (intro _ _)
  | split
  | dsimp only

theorem execConnCloseTimeout_keeps {mk : Nat} {sk : State} {c : Cid} {s : State} (hk : Keeps mk sk s) (hm : 8388504 &&& mk = 8388504) :
    ∃ t', execConnCloseTimeout c s = .next t' ∧ Keeps mk sk t' := by
  suffices g : ∃ t', execConnCloseTimeout c s = .next t' ∧ Keeps 8388504 s t' from g.imp fun _ h => ⟨h.1, hk.trans (h.2.weaken hm)⟩
  refine ⟨_, rfl, ?_⟩
  with_reducible repeat' first
  | exact Keeps.refl _
  | assumption
  | decide
  | refine connCloseTimeout_keeps ?_ ?_
  | refine settle_keeps ?_ ?_
  | (intro _ _)
  | split
  | dsimp only

theorem execAutoResumeTimer_keeps {mk : Nat} {sk : State} {c : Cid} {s : State} (hk : Keeps mk sk s) (hm : 8388504 &&& mk = 8388504) :
    ∃ t', execAutoResumeTimer c s = .next t' ∧ Keeps mk sk t' := by
  suffices g : ∃ t', execAutoResumeTimer c s = .next t' ∧ Keeps 8388504 s t' from g.imp fun _ h => ⟨h.1, hk.trans (h.2.weaken hm)⟩
  refine ⟨_, rfl, ?_⟩
  with_reducible repeat' first
  | exact Keeps.refl _
  | assumption
  | decide
  | refine autoResumeTimer_keeps ?_ ?_
  | refine settle_keeps ?_ ?_
  | (intro _ _)
  | split
  | dsimp only

theorem execRekeyAll_keeps {mk : Nat} {sk : State} {sess : Nat} {value : Nat} {s : State} (hk : Keeps mk sk s) (hm : 8388504 &&& mk = 8388504) :
    ∃ t', execRekeyAll sess value s = .next t' ∧ Keeps mk sk t' := by
  suffices g : ∃ t', execRekeyAll sess value s = .next t' ∧ Keeps 8388504 s t' from g.imp fun _ h => ⟨h.1, hk.trans (h.2.weaken hm)⟩
  refine ⟨_, rfl, ?_⟩
  with_reducible repeat' first
  | exact Keeps.refl _
  | assumption
  | decide
  | refine actRekeyAll_keeps ?_ ?_
  | refine actWrite_keeps ?_ rfl (fun u hu => ?_) (fun u hu => ?_)
  | refine onOne_keeps ?_ (fun u hu => ?_)
  | refine settle_keeps ?_ ?_
  | simp only [id_eq]
  | (intro _ _)
  | split
  | dsimp only

theorem hostAperture_keeps {mk : Nat} {sk : State} {i : Nat} {t : Tlp} {s : State} (hk : Keeps mk sk s) (hm : 7371648 &&& mk = 7371648) :
    Keeps mk sk (hostAperture i t s) := by
  suffices g : Keeps 7371648 s (hostAperture i t s) from hk.trans (g.weaken hm)
  unfold hostAperture
  with_reducible repeat' first
  | exact Keeps.refl _
  | assumption
  | decide
  | refine apertureAccess_keeps ?_ ?_
  | refine Keeps.ite ?_ ?_
  | (intro _ _)
  | split
  | dsimp only

theorem execApertureAccess_keeps {mk : Nat} {sk : State} {i : Inst} {t : Tlp} {s : State} (hk : Keeps mk sk s) (hm : 8388504 &&& mk = 8388504) :
    ∃ t', execApertureAccess i t s = .next t' ∧ Keeps mk sk t' := by
  suffices g : ∃ t', execApertureAccess i t s = .next t' ∧ Keeps 8388504 s t' from g.imp fun _ h => ⟨h.1, hk.trans (h.2.weaken hm)⟩
  refine ⟨_, rfl, ?_⟩
  with_reducible repeat' first
  | exact Keeps.refl _
  | assumption
  | decide
  | refine hostAperture_keeps ?_ ?_
  | refine settle_keeps ?_ ?_
  | (intro _ _)
  | split
  | dsimp only

theorem execHeldLoadSend_keeps {mk : Nat} {sk : State} {s : State} (hk : Keeps mk sk s) (hm : 8388504 &&& mk = 8388504) :
    ∃ t', execHeldLoadSend s = .next t' ∧ Keeps mk sk t' := by
  suffices g : ∃ t', execHeldLoadSend s = .next t' ∧ Keeps 8388504 s t' from g.imp fun _ h => ⟨h.1, hk.trans (h.2.weaken hm)⟩
  refine ⟨_, rfl, ?_⟩
  with_reducible repeat' first
  | exact Keeps.refl _
  | assumption
  | decide
  | refine heldLoadSend_keeps ?_ ?_
  | refine settle_keeps ?_ ?_
  | (intro _ _)
  | split
  | dsimp only

theorem execVisibilityPoint_keeps {mk : Nat} {sk : State} {s : State} (hk : Keeps mk sk s) (hm : 8388504 &&& mk = 8388504) :
    ∃ t', execVisibilityPoint s = .next t' ∧ Keeps mk sk t' := by
  suffices g : ∃ t', execVisibilityPoint s = .next t' ∧ Keeps 8388504 s t' from g.imp fun _ h => ⟨h.1, hk.trans (h.2.weaken hm)⟩
  refine ⟨_, rfl, ?_⟩
  with_reducible repeat' first
  | exact Keeps.refl _
  | assumption
  | decide
  | refine settle_keeps ?_ ?_
  | refine visibilityPoint_keeps ?_ ?_
  | (intro _ _)
  | split
  | dsimp only

theorem hostFenceSlot_keeps {mk : Nat} {sk : State} {i : Nat} {slot : Nat} {rid : Nat} {tag : Nat} {s : State} (hk : Keeps mk sk s) (hm : 7371648 &&& mk = 7371648) :
    Keeps mk sk (hostFenceSlot i slot rid tag s) := by
  suffices g : Keeps 7371648 s (hostFenceSlot i slot rid tag s) from hk.trans (g.weaken hm)
  unfold hostFenceSlot
  with_reducible repeat' first
  | exact Keeps.refl _
  | assumption
  | decide
  | refine fenceSlotRead_keeps ?_ ?_
  | refine Keeps.ite ?_ ?_
  | (intro _ _)
  | split
  | dsimp only

theorem execFenceSlotRead_keeps {mk : Nat} {sk : State} {i : Inst} {slot : Fin 1024} {rid : Nat} {tag : Nat} {s : State} (hk : Keeps mk sk s) (hm : 8388504 &&& mk = 8388504) :
    ∃ t', execFenceSlotRead i slot rid tag s = .next t' ∧ Keeps mk sk t' := by
  suffices g : ∃ t', execFenceSlotRead i slot rid tag s = .next t' ∧ Keeps 8388504 s t' from g.imp fun _ h => ⟨h.1, hk.trans (h.2.weaken hm)⟩
  refine ⟨_, rfl, ?_⟩
  with_reducible repeat' first
  | exact Keeps.refl _
  | assumption
  | decide
  | refine hostFenceSlot_keeps ?_ ?_
  | refine settle_keeps ?_ ?_
  | (intro _ _)
  | split
  | dsimp only

theorem execMirrorRecordReceive_keeps {mk : Nat} {sk : State} {s : State} (hk : Keeps mk sk s) (hm : 8388504 &&& mk = 8388504) :
    ∃ t', execMirrorRecordReceive s = .next t' ∧ Keeps mk sk t' := by
  suffices g : ∃ t', execMirrorRecordReceive s = .next t' ∧ Keeps 8388504 s t' from g.imp fun _ h => ⟨h.1, hk.trans (h.2.weaken hm)⟩
  refine ⟨_, rfl, ?_⟩
  with_reducible repeat' first
  | exact Keeps.refl _
  | assumption
  | decide
  | refine mirrorRecordReceive_keeps ?_ ?_
  | refine settle_keeps ?_ ?_
  | (intro _ _)
  | split
  | dsimp only

theorem execTwinLostDeclare_keeps {mk : Nat} {sk : State} {s : State} (hk : Keeps mk sk s) (hm : 8388504 &&& mk = 8388504) :
    ∃ t', execTwinLostDeclare s = .next t' ∧ Keeps mk sk t' := by
  suffices g : ∃ t', execTwinLostDeclare s = .next t' ∧ Keeps 8388504 s t' from g.imp fun _ h => ⟨h.1, hk.trans (h.2.weaken hm)⟩
  refine ⟨_, rfl, ?_⟩
  with_reducible repeat' first
  | exact Keeps.refl _
  | assumption
  | decide
  | refine settle_keeps ?_ ?_
  | refine twinLostDeclare_keeps ?_ ?_
  | (intro _ _)
  | split
  | dsimp only

theorem execMirrorRateAlert_keeps {mk : Nat} {sk : State} {s : State} (hk : Keeps mk sk s) (hm : 8388504 &&& mk = 8388504) :
    ∃ t', execMirrorRateAlert s = .next t' ∧ Keeps mk sk t' := by
  suffices g : ∃ t', execMirrorRateAlert s = .next t' ∧ Keeps 8388504 s t' from g.imp fun _ h => ⟨h.1, hk.trans (h.2.weaken hm)⟩
  refine ⟨_, rfl, ?_⟩
  with_reducible repeat' first
  | exact Keeps.refl _
  | assumption
  | decide
  | refine mirrorRateAlert_keeps ?_ ?_
  | refine settle_keeps ?_ ?_
  | (intro _ _)
  | split
  | dsimp only

theorem execDobbyTake_keeps {mk : Nat} {sk : State} {r : StoreRead} {s : State} (hk : Keeps mk sk s) (hm : 8388504 &&& mk = 8388504) :
    ∃ t', execDobbyTake r s = .next t' ∧ Keeps mk sk t' := by
  suffices g : ∃ t', execDobbyTake r s = .next t' ∧ Keeps 8388504 s t' from g.imp fun _ h => ⟨h.1, hk.trans (h.2.weaken hm)⟩
  refine ⟨_, rfl, ?_⟩
  with_reducible repeat' first
  | exact Keeps.refl _
  | assumption
  | decide
  | refine dobbyTake_keeps ?_ ?_
  | refine settle_keeps ?_ ?_
  | (intro _ _)
  | split
  | dsimp only

theorem execDobBusTimerExpiry_keeps {mk : Nat} {sk : State} {s : State} (hk : Keeps mk sk s) (hm : 8388504 &&& mk = 8388504) :
    ∃ t', execDobBusTimerExpiry s = .next t' ∧ Keeps mk sk t' := by
  suffices g : ∃ t', execDobBusTimerExpiry s = .next t' ∧ Keeps 8388504 s t' from g.imp fun _ h => ⟨h.1, hk.trans (h.2.weaken hm)⟩
  refine ⟨_, rfl, ?_⟩
  with_reducible repeat' first
  | exact Keeps.refl _
  | assumption
  | decide
  | refine dobBusTimerExpiry_keeps ?_ ?_
  | refine settle_keeps ?_ ?_
  | (intro _ _)
  | split
  | dsimp only

end Sys2Proof.Laws
end

