-- ==== Sys2Proof/Laws/KeepsModule.lean ====
section
/-!
SUPPORT. What the functions keep, one lemma each: observation, security, commits, start-up and management.
-/

namespace Sys2Proof.Laws

open Sys2Proof.Machine

set_option linter.all false

/-! ### Values -/

theorem setFwSlot_keeps {mk : Nat} {sk : State} {s : State} {k : Nat} {x : FwSlot} (hk : Keeps mk sk s) (hm : 8 &&& mk = 8) :
    Keeps mk sk (setFwSlot s k x) := by
  suffices g : Keeps 8 s (setFwSlot s k x) from hk.trans (g.weaken hm)
  unfold setFwSlot
  with_reducible repeat' first
  | exact Keeps.refl _
  | assumption
  | decide
  | (fail_if_no_progress refine Keeps.module' ?_ _ rfl)
  | (intro _ _)
  | split
  | dsimp only

theorem afterRead_keeps {mk : Nat} {sk : State} {s : State} {index : Nat} {sub : Nat} (hk : Keeps mk sk s) (hm : 7371264 &&& mk = 7371264) :
    Keeps mk sk (afterRead s index sub) := by
  suffices g : Keeps 7371264 s (afterRead s index sub) from hk.trans (g.weaken hm)
  unfold afterRead
  with_reducible repeat' first
  | exact Keeps.refl _
  | assumption
  | decide
  | refine count_keeps ?_ ?_
  | refine denied_keeps ?_ ?_
  | refine Keeps.ite ?_ ?_
  | (fail_if_no_progress refine Keeps.loom' ?_ _ rfl)
  | (fail_if_no_progress refine Keeps.shu' ?_ _ rfl)
  | (fail_if_no_progress refine Keeps.win' ?_ _ rfl)
  | (fail_if_no_progress refine Keeps.hed' ?_ _ rfl)
  | (fail_if_no_progress (refine Keeps.several ?_ (by refine ⟨?_, ?_, ?_, ?_, ?_, ?_, ?_, ?_, ?_, ?_, ?_, ?_, ?_, ?_, ?_, ?_, ?_, ?_, ?_, ?_⟩ <;> first | exact Or.inl rfl | exact Or.inr rfl)))
  | (intro _ _)
  | split
  | dsimp only

/-! ### Observe -/

theorem setTally_keeps {mk : Nat} {sk : State} {s : State} {y : Tally} (hk : Keeps mk sk s) (hm : 1048576 &&& mk = 1048576) :
    Keeps mk sk (setTally s y) := by
  suffices g : Keeps 1048576 s (setTally s y) from hk.trans (g.weaken hm)
  unfold setTally
  with_reducible repeat' first
  | exact Keeps.refl _
  | assumption
  | decide
  | (fail_if_no_progress refine Keeps.obs' ?_ _ rfl)
  | (intro _ _)
  | split
  | dsimp only

theorem tallySnapshotLaunch_keeps {mk : Nat} {sk : State} {s : State} (hk : Keeps mk sk s) (hm : 7367552 &&& mk = 7367552) :
    Keeps mk sk (tallySnapshotLaunch s) := by
  suffices g : Keeps 7367552 s (tallySnapshotLaunch s) from hk.trans (g.weaken hm)
  unfold tallySnapshotLaunch
  with_reducible repeat' first
  | exact Keeps.refl _
  | assumption
  | decide
  | (extract_lets +onlyGivenNames s1; have h1 : Keeps 7367552 s s1 := (by unfold s1; repeat' first | exact Keeps.refl _ | assumption | decide | refine setTally_keeps ?_ ?_ | refine Keeps.ite ?_ ?_ | (intro _ _) | split | dsimp only); clear_value s1)
  | (extract_lets +onlyGivenNames x1; clear_value x1)
  | refine setTally_keeps ?_ ?_
  | refine Keeps.ite ?_ ?_
  | (intro _ _)
  | split
  | dsimp only

theorem execTallySnapshotLaunch_keeps {mk : Nat} {sk : State} {s : State} (hk : Keeps mk sk s) (hm : 7367552 &&& mk = 7367552) :
    ∃ t', execTallySnapshotLaunch s = .next t' ∧ Keeps mk sk t' := by
  suffices g : ∃ t', execTallySnapshotLaunch s = .next t' ∧ Keeps 7367552 s t' from g.imp fun _ h => ⟨h.1, hk.trans (h.2.weaken hm)⟩
  refine ⟨_, rfl, ?_⟩
  with_reducible repeat' first
  | exact Keeps.refl _
  | assumption
  | decide
  | refine tallySnapshotLaunch_keeps ?_ ?_
  | (intro _ _)
  | split
  | dsimp only

theorem tallyImageComplete_keeps {mk : Nat} {sk : State} {s : State} (hk : Keeps mk sk s) (hm : 1048576 &&& mk = 1048576) :
    Keeps mk sk (tallyImageComplete s) := by
  suffices g : Keeps 1048576 s (tallyImageComplete s) from hk.trans (g.weaken hm)
  unfold tallyImageComplete
  with_reducible repeat' first
  | exact Keeps.refl _
  | assumption
  | decide
  | (extract_lets +onlyGivenNames s1; have h1 : Keeps 1048576 s s1 := (by unfold s1; repeat' first | exact Keeps.refl _ | assumption | decide | refine setTally_keeps ?_ ?_ | refine Keeps.ite ?_ ?_ | (intro _ _) | split | dsimp only); clear_value s1)
  | (extract_lets +onlyGivenNames x1; clear_value x1)
  | refine setTally_keeps ?_ ?_
  | refine Keeps.ite ?_ ?_
  | (intro _ _)
  | split
  | dsimp only

theorem execTallyImageComplete_keeps {mk : Nat} {sk : State} {s : State} (hk : Keeps mk sk s) (hm : 1048576 &&& mk = 1048576) :
    ∃ t', execTallyImageComplete s = .next t' ∧ Keeps mk sk t' := by
  suffices g : ∃ t', execTallyImageComplete s = .next t' ∧ Keeps 1048576 s t' from g.imp fun _ h => ⟨h.1, hk.trans (h.2.weaken hm)⟩
  refine ⟨_, rfl, ?_⟩
  with_reducible repeat' first
  | exact Keeps.refl _
  | assumption
  | decide
  | refine tallyImageComplete_keeps ?_ ?_
  | (intro _ _)
  | split
  | dsimp only

theorem actTallyHold_keeps {mk : Nat} {sk : State} {sess : Nat} {value : Nat} {s : State} (hk : Keeps mk sk s) (hm : 1048576 &&& mk = 1048576) :
    Keeps mk sk (actTallyHold sess value s) := by
  suffices g : Keeps 1048576 s (actTallyHold sess value s) from hk.trans (g.weaken hm)
  unfold actTallyHold
  with_reducible repeat' first
  | exact Keeps.refl _
  | assumption
  | decide
  | (extract_lets +onlyGivenNames s1; have h1 : Keeps 1048576 s s1 := (by unfold s1; repeat' first | exact Keeps.refl _ | assumption | decide | refine releaseHold_keeps ?_ ?_ | refine setTally_keeps ?_ ?_ | refine Keeps.ite ?_ ?_ | (intro _ _) | split | dsimp only); clear_value s1)
  | (extract_lets +onlyGivenNames x1; clear_value x1)
  | refine releaseHold_keeps ?_ ?_
  | refine setTally_keeps ?_ ?_
  | refine Keeps.ite ?_ ?_
  | (intro _ _)
  | split
  | dsimp only

theorem execTallyHold_keeps {mk : Nat} {sk : State} {sess : Nat} {value : Nat} {s : State} (hk : Keeps mk sk s) (hm : 1310720 &&& mk = 1310720) :
    ∃ t', execTallyHold sess value s = .next t' ∧ Keeps mk sk t' := by
  suffices g : ∃ t', execTallyHold sess value s = .next t' ∧ Keeps 1310720 s t' from g.imp fun _ h => ⟨h.1, hk.trans (h.2.weaken hm)⟩
  refine ⟨_, rfl, ?_⟩
  with_reducible repeat' first
  | exact Keeps.refl _
  | assumption
  | decide
  | refine actTallyHold_keeps ?_ ?_
  | refine actWrite_keeps ?_ rfl (fun u hu => ?_) (fun u hu => ?_)
  | simp only [id_eq]
  | (intro _ _)
  | split
  | dsimp only

theorem tallyHoldTimeout_keeps {mk : Nat} {sk : State} {s : State} (hk : Keeps mk sk s) (hm : 7364608 &&& mk = 7364608) :
    Keeps mk sk (tallyHoldTimeout s) := by
  suffices g : Keeps 7364608 s (tallyHoldTimeout s) from hk.trans (g.weaken hm)
  unfold tallyHoldTimeout
  with_reducible repeat' first
  | exact Keeps.refl _
  | assumption
  | decide
  | refine event_keeps ?_ ?_
  | refine releaseHold_keeps ?_ ?_
  | refine Keeps.ite ?_ ?_
  | (intro _ _)
  | split
  | dsimp only

theorem execTallyHoldTimeout_keeps {mk : Nat} {sk : State} {s : State} (hk : Keeps mk sk s) (hm : 7364608 &&& mk = 7364608) :
    ∃ t', execTallyHoldTimeout s = .next t' ∧ Keeps mk sk t' := by
  suffices g : ∃ t', execTallyHoldTimeout s = .next t' ∧ Keeps 7364608 s t' from g.imp fun _ h => ⟨h.1, hk.trans (h.2.weaken hm)⟩
  refine ⟨_, rfl, ?_⟩
  with_reducible repeat' first
  | exact Keeps.refl _
  | assumption
  | decide
  | refine tallyHoldTimeout_keeps ?_ ?_
  | (intro _ _)
  | split
  | dsimp only

theorem spoolDeliveryDeadline_keeps {mk : Nat} {sk : State} {r : Nat} {s : State} (hk : Keeps mk sk s) (hm : 7364608 &&& mk = 7364608) :
    Keeps mk sk (spoolDeliveryDeadline r s) := by
  suffices g : Keeps 7364608 s (spoolDeliveryDeadline r s) from hk.trans (g.weaken hm)
  unfold spoolDeliveryDeadline
  with_reducible repeat' first
  | exact Keeps.refl _
  | assumption
  | decide
  | (extract_lets +onlyGivenNames s1; have h1 : Keeps 7364608 s s1 := (by unfold s1; repeat' first | exact Keeps.refl _ | assumption | decide | refine writeLine_keeps ?_ ?_ | refine Keeps.ite ?_ ?_ | (intro _ _) | split | dsimp only); clear_value s1)
  | (extract_lets +onlyGivenNames x1; clear_value x1)
  | refine writeLine_keeps ?_ ?_
  | refine Keeps.ite ?_ ?_
  | (intro _ _)
  | split
  | dsimp only

theorem execSpoolDeliveryDeadline_keeps {mk : Nat} {sk : State} {r : Ring} {s : State} (hk : Keeps mk sk s) (hm : 7364608 &&& mk = 7364608) :
    ∃ t', execSpoolDeliveryDeadline r s = .next t' ∧ Keeps mk sk t' := by
  suffices g : ∃ t', execSpoolDeliveryDeadline r s = .next t' ∧ Keeps 7364608 s t' from g.imp fun _ h => ⟨h.1, hk.trans (h.2.weaken hm)⟩
  refine ⟨_, rfl, ?_⟩
  with_reducible repeat' first
  | exact Keeps.refl _
  | assumption
  | decide
  | refine spoolDeliveryDeadline_keeps ?_ ?_
  | (intro _ _)
  | split
  | dsimp only

theorem actSpoolRelease_keeps {mk : Nat} {sk : State} {r : Nat} {value : Nat} {s : State} (hk : Keeps mk sk s) (hm : 1048576 &&& mk = 1048576) :
    Keeps mk sk (actSpoolRelease r value s) := by
  suffices g : Keeps 1048576 s (actSpoolRelease r value s) from hk.trans (g.weaken hm)
  unfold actSpoolRelease
  with_reducible repeat' first
  | exact Keeps.refl _
  | assumption
  | decide
  | (extract_lets +onlyGivenNames s1; have h1 : Keeps 1048576 s s1 := (by unfold s1; repeat' first | exact Keeps.refl _ | assumption | decide | refine ringSet_keeps ?_ ?_ | refine Keeps.ite ?_ ?_ | (intro _ _) | split | dsimp only); clear_value s1)
  | (extract_lets +onlyGivenNames x1; clear_value x1)
  | refine ringSet_keeps ?_ ?_
  | refine Keeps.ite ?_ ?_
  | (intro _ _)
  | split
  | dsimp only

theorem execSpoolRelease_keeps {mk : Nat} {sk : State} {sess : Nat} {r : Ring} {value : Nat} {s : State} (hk : Keeps mk sk s) (hm : 1310720 &&& mk = 1310720) :
    ∃ t', execSpoolRelease sess r value s = .next t' ∧ Keeps mk sk t' := by
  suffices g : ∃ t', execSpoolRelease sess r value s = .next t' ∧ Keeps 1310720 s t' from g.imp fun _ h => ⟨h.1, hk.trans (h.2.weaken hm)⟩
  refine ⟨_, rfl, ?_⟩
  with_reducible repeat' first
  | exact Keeps.refl _
  | assumption
  | decide
  | refine actSpoolRelease_keeps ?_ ?_
  | refine actWrite_keeps ?_ rfl (fun u hu => ?_) (fun u hu => ?_)
  | refine Keeps.ite ?_ ?_
  | simp only [id_eq]
  | (intro _ _)
  | split
  | dsimp only

theorem actSpoolMark_keeps {mk : Nat} {sk : State} {r : Nat} {s : State} (hk : Keeps mk sk s) (hm : 7364608 &&& mk = 7364608) :
    Keeps mk sk (actSpoolMark r s) := by
  suffices g : Keeps 7364608 s (actSpoolMark r s) from hk.trans (g.weaken hm)
  unfold actSpoolMark
  with_reducible repeat' first
  | exact Keeps.refl _
  | assumption
  | decide
  | (extract_lets +onlyGivenNames s1; have h1 : Keeps 7364608 s s1 := (by unfold s1; repeat' first | exact Keeps.refl _ | assumption | decide | refine ringPut_keeps ?_ ?_ | refine ringSet_keeps ?_ ?_ | refine writeLine_keeps ?_ ?_ | refine Keeps.ite ?_ ?_ | (fail_if_no_progress refine Keeps.obs' ?_ _ rfl) | (intro _ _) | split | dsimp only); clear_value s1)
  | (extract_lets +onlyGivenNames x1; clear_value x1)
  | refine ringPut_keeps ?_ ?_
  | refine ringSet_keeps ?_ ?_
  | refine writeLine_keeps ?_ ?_
  | refine Keeps.ite ?_ ?_
  | (fail_if_no_progress refine Keeps.obs' ?_ _ rfl)
  | (intro _ _)
  | split
  | dsimp only

theorem execSpoolMark_keeps {mk : Nat} {sk : State} {sess : Nat} {r : Ring} {value : Nat} {s : State} (hk : Keeps mk sk s) (hm : 7626752 &&& mk = 7626752) :
    ∃ t', execSpoolMark sess r value s = .next t' ∧ Keeps mk sk t' := by
  suffices g : ∃ t', execSpoolMark sess r value s = .next t' ∧ Keeps 7626752 s t' from g.imp fun _ h => ⟨h.1, hk.trans (h.2.weaken hm)⟩
  refine ⟨_, rfl, ?_⟩
  with_reducible repeat' first
  | exact Keeps.refl _
  | assumption
  | decide
  | refine actSpoolMark_keeps ?_ ?_
  | refine actWrite_keeps ?_ rfl (fun u hu => ?_) (fun u hu => ?_)
  | refine onOne_keeps ?_ (fun u hu => ?_)
  | simp only [id_eq]
  | (intro _ _)
  | split
  | dsimp only

theorem actSpoolRewind_keeps {mk : Nat} {sk : State} {r : Nat} {s : State} (hk : Keeps mk sk s) (hm : 1048576 &&& mk = 1048576) :
    Keeps mk sk (actSpoolRewind r s) := by
  suffices g : Keeps 1048576 s (actSpoolRewind r s) from hk.trans (g.weaken hm)
  unfold actSpoolRewind
  with_reducible repeat' first
  | exact Keeps.refl _
  | assumption
  | decide
  | (extract_lets +onlyGivenNames s1; have h1 : Keeps 1048576 s s1 := (by unfold s1; repeat' first | exact Keeps.refl _ | assumption | decide | refine ringSet_keeps ?_ ?_ | (intro _ _) | split | dsimp only); clear_value s1)
  | (extract_lets +onlyGivenNames x1; clear_value x1)
  | refine ringSet_keeps ?_ ?_
  | (intro _ _)
  | split
  | dsimp only

theorem execSpoolRewind_keeps {mk : Nat} {sk : State} {sess : Nat} {r : Ring} {value : Nat} {s : State} (hk : Keeps mk sk s) (hm : 1310720 &&& mk = 1310720) :
    ∃ t', execSpoolRewind sess r value s = .next t' ∧ Keeps mk sk t' := by
  suffices g : ∃ t', execSpoolRewind sess r value s = .next t' ∧ Keeps 1310720 s t' from g.imp fun _ h => ⟨h.1, hk.trans (h.2.weaken hm)⟩
  refine ⟨_, rfl, ?_⟩
  with_reducible repeat' first
  | exact Keeps.refl _
  | assumption
  | decide
  | refine actSpoolRewind_keeps ?_ ?_
  | refine actWrite_keeps ?_ rfl (fun u hu => ?_) (fun u hu => ?_)
  | refine onOne_keeps ?_ (fun u hu => ?_)
  | refine Keeps.ite ?_ ?_
  | simp only [id_eq]
  | (intro _ _)
  | split
  | dsimp only

theorem restartRing_keeps {mk : Nat} {sk : State} {s : State} {r : Nat} {cause : Nat} (hk : Keeps mk sk s) (hm : 7364608 &&& mk = 7364608) :
    Keeps mk sk (restartRing s r cause) := by
  suffices g : Keeps 7364608 s (restartRing s r cause) from hk.trans (g.weaken hm)
  unfold restartRing
  with_reducible repeat' first
  | exact Keeps.refl _
  | assumption
  | decide
  | (extract_lets +onlyGivenNames s1; have h1 : Keeps 7364608 s s1 := (by unfold s1; repeat' first | exact Keeps.refl _ | assumption | decide | refine reportLoss_keeps ?_ ?_ | refine ringPut_keeps ?_ ?_ | refine ringSet_keeps ?_ ?_ | (intro _ _) | split | dsimp only); clear_value s1)
  | (extract_lets +onlyGivenNames x1; clear_value x1)
  | refine reportLoss_keeps ?_ ?_
  | refine ringPut_keeps ?_ ?_
  | refine ringSet_keeps ?_ ?_
  | (intro _ _)
  | split
  | dsimp only

theorem execSpoolRestart_keeps {mk : Nat} {sk : State} {sess : Nat} {r : Ring} {value : Nat} {s : State} (hk : Keeps mk sk s) (hm : 7626752 &&& mk = 7626752) :
    ∃ t', execSpoolRestart sess r value s = .next t' ∧ Keeps mk sk t' := by
  suffices g : ∃ t', execSpoolRestart sess r value s = .next t' ∧ Keeps 7626752 s t' from g.imp fun _ h => ⟨h.1, hk.trans (h.2.weaken hm)⟩
  refine ⟨_, rfl, ?_⟩
  with_reducible repeat' first
  | exact Keeps.refl _
  | assumption
  | decide
  | refine actWrite_keeps ?_ rfl (fun u hu => ?_) (fun u hu => ?_)
  | refine onOne_keeps ?_ (fun u hu => ?_)
  | refine restartRing_keeps ?_ ?_
  | simp only [id_eq]
  | (intro _ _)
  | split
  | dsimp only

theorem spoolIntrTimeout_keeps {mk : Nat} {sk : State} {r : Nat} {s : State} (hk : Keeps mk sk s) (hm : 1073152 &&& mk = 1073152) :
    Keeps mk sk (spoolIntrTimeout r s) := by
  suffices g : Keeps 1073152 s (spoolIntrTimeout r s) from hk.trans (g.weaken hm)
  unfold spoolIntrTimeout
  with_reducible repeat' first
  | exact Keeps.refl _
  | assumption
  | decide
  | (extract_lets +onlyGivenNames s1; have h1 : Keeps 1073152 s s1 := (by unfold s1; repeat' first | exact Keeps.refl _ | assumption | decide | refine msi_keeps ?_ ?_ | refine ringSet_keeps ?_ ?_ | refine Keeps.ite ?_ ?_ | (intro _ _) | split | dsimp only); clear_value s1)
  | (extract_lets +onlyGivenNames x1; clear_value x1)
  | refine msi_keeps ?_ ?_
  | refine ringSet_keeps ?_ ?_
  | refine Keeps.ite ?_ ?_
  | (intro _ _)
  | split
  | dsimp only

theorem execSpoolIntrTimeout_keeps {mk : Nat} {sk : State} {r : Ring} {s : State} (hk : Keeps mk sk s) (hm : 1073152 &&& mk = 1073152) :
    ∃ t', execSpoolIntrTimeout r s = .next t' ∧ Keeps mk sk t' := by
  suffices g : ∃ t', execSpoolIntrTimeout r s = .next t' ∧ Keeps 1073152 s t' from g.imp fun _ h => ⟨h.1, hk.trans (h.2.weaken hm)⟩
  refine ⟨_, rfl, ?_⟩
  with_reducible repeat' first
  | exact Keeps.refl _
  | assumption
  | decide
  | refine spoolIntrTimeout_keeps ?_ ?_
  | (intro _ _)
  | split
  | dsimp only

theorem treadleBody_keeps {mk : Nat} {sk : State} {s : State} (hk : Keeps mk sk s) (hm : 0 &&& mk = 0) :
    Keeps mk sk (treadleBody s).1 := by
  suffices g : Keeps 0 s (treadleBody s).1 from hk.trans (g.weaken hm)
  unfold treadleBody
  with_reducible repeat' first
  | exact Keeps.refl _
  | assumption
  | decide
  | (extract_lets +onlyGivenNames s1; have h1 : Keeps 0 s s1 := (by unfold s1; repeat' first | exact Keeps.refl _ | assumption | decide | refine afterFree_keeps ?_ ?_ | (intro _ _) | split | dsimp only); clear_value s1)
  | (extract_lets +onlyGivenNames x1; clear_value x1)
  | refine afterFree_keeps ?_ ?_
  | (intro _ _)
  | split
  | dsimp only

theorem boltSections_keeps {mk : Nat} {sk : State} {s : State} (hk : Keeps mk sk s) (hm : 7367552 &&& mk = 7367552) :
    Keeps mk sk (boltSections s).1 := by
  suffices g : Keeps 7367552 s (boltSections s).1 from hk.trans (g.weaken hm)
  unfold boltSections
  with_reducible repeat' first
  | exact Keeps.refl _
  | assumption
  | decide
  | (extract_lets +onlyGivenNames q1; have hq1 : Keeps 7367552 s q1.1 := (by unfold q1; repeat' first | exact Keeps.refl _ | assumption | decide | refine treadleBody_keeps ?_ ?_ | (intro _ _) | split | dsimp only); clear_value q1)
  | (extract_lets +onlyGivenNames s1; have h1 : Keeps 7367552 s s1 := (by unfold s1; repeat' first | exact Keeps.refl _ | assumption | decide | refine treadleBody_keeps ?_ ?_ | (intro _ _) | split | dsimp only); clear_value s1)
  | (extract_lets +onlyGivenNames x1; clear_value x1)
  | refine treadleBody_keeps ?_ ?_
  | (intro _ _)
  | split
  | dsimp only

theorem setBolt_keeps {mk : Nat} {sk : State} {s : State} {b : Bolt} (hk : Keeps mk sk s) (hm : 1048576 &&& mk = 1048576) :
    Keeps mk sk (setBolt s b) := by
  suffices g : Keeps 1048576 s (setBolt s b) from hk.trans (g.weaken hm)
  unfold setBolt
  with_reducible repeat' first
  | exact Keeps.refl _
  | assumption
  | decide
  | (fail_if_no_progress refine Keeps.obs' ?_ _ rfl)
  | (intro _ _)
  | split
  | dsimp only

theorem boltStart_keeps {mk : Nat} {sk : State} {s : State} {kind : Nat} {cause : Nat} {before : ModState} {first : List BoltSection} (hk : Keeps mk sk s) (hm : 7367552 &&& mk = 7367552) :
    Keeps mk sk (boltStart s kind cause before first) := by
  suffices g : Keeps 7367552 s (boltStart s kind cause before first) from hk.trans (g.weaken hm)
  unfold boltStart
  with_reducible repeat' first
  | exact Keeps.refl _
  | assumption
  | decide
  | (extract_lets +onlyGivenNames q1; have hq1 : Keeps 7367552 s q1.1 := (by unfold q1; repeat' first | exact Keeps.refl _ | assumption | decide | refine boltSections_keeps ?_ ?_ | refine setBolt_keeps ?_ ?_ | (intro _ _) | split | dsimp only); clear_value q1)
  | (extract_lets +onlyGivenNames s1; have h1 : Keeps 7367552 s s1 := (by unfold s1; repeat' first | exact Keeps.refl _ | assumption | decide | refine boltSections_keeps ?_ ?_ | refine setBolt_keeps ?_ ?_ | (intro _ _) | split | dsimp only); clear_value s1)
  | (extract_lets +onlyGivenNames x1; clear_value x1)
  | refine boltSections_keeps ?_ ?_
  | refine setBolt_keeps ?_ ?_
  | (intro _ _)
  | split
  | dsimp only

theorem boltDone_keeps {mk : Nat} {sk : State} {s : State} (hk : Keeps mk sk s) (hm : 7364608 &&& mk = 7364608) :
    Keeps mk sk (boltDone s) := by
  suffices g : Keeps 7364608 s (boltDone s) from hk.trans (g.weaken hm)
  unfold boltDone
  with_reducible repeat' first
  | exact Keeps.refl _
  | assumption
  | decide
  | (extract_lets +onlyGivenNames s1; have h1 : Keeps 7364608 s s1 := (by unfold s1; repeat' first | exact Keeps.refl _ | assumption | decide | refine event_keeps ?_ ?_ | refine setBolt_keeps ?_ ?_ | refine Keeps.ite ?_ ?_ | (intro _ _) | split | dsimp only); clear_value s1)
  | (extract_lets +onlyGivenNames x1; clear_value x1)
  | refine event_keeps ?_ ?_
  | refine setBolt_keeps ?_ ?_
  | refine Keeps.ite ?_ ?_
  | (intro _ _)
  | split
  | dsimp only

theorem boltLater_keeps {mk : Nat} {sk : State} {s : State} {cause : Nat} {before : ModState} (hk : Keeps mk sk s) (hm : 7364608 &&& mk = 7364608) :
    Keeps mk sk (boltLater s cause before) := by
  suffices g : Keeps 7364608 s (boltLater s cause before) from hk.trans (g.weaken hm)
  unfold boltLater
  with_reducible repeat' first
  | exact Keeps.refl _
  | assumption
  | decide
  | (extract_lets +onlyGivenNames s1; have h1 : Keeps 7364608 s s1 := (by unfold s1; repeat' first | exact Keeps.refl _ | assumption | decide | refine event_keeps ?_ ?_ | refine setBolt_keeps ?_ ?_ | refine Keeps.ite ?_ ?_ | (intro _ _) | split | dsimp only); clear_value s1)
  | (extract_lets +onlyGivenNames x1; clear_value x1)
  | refine event_keeps ?_ ?_
  | refine setBolt_keeps ?_ ?_
  | refine Keeps.ite ?_ ?_
  | (intro _ _)
  | split
  | dsimp only

theorem boltReset_keeps {mk : Nat} {sk : State} {s : State} {cause : Nat} {reason : Nat} {before : ModState} (hk : Keeps mk sk s) (hm : 7367552 &&& mk = 7367552) :
    Keeps mk sk (boltReset s cause reason before) := by
  suffices g : Keeps 7367552 s (boltReset s cause reason before) from hk.trans (g.weaken hm)
  unfold boltReset
  with_reducible repeat' first
  | exact Keeps.refl _
  | assumption
  | decide
  | (extract_lets +onlyGivenNames s1; have h1 : Keeps 7367552 s s1 := (by unfold s1; repeat' first | exact Keeps.refl _ | assumption | decide | refine boltStart_keeps ?_ ?_ | refine setBolt_keeps ?_ ?_ | refine Keeps.ite ?_ ?_ | (intro _ _) | split | dsimp only); clear_value s1)
  | (extract_lets +onlyGivenNames x1; clear_value x1)
  | refine boltStart_keeps ?_ ?_
  | refine setBolt_keeps ?_ ?_
  | refine Keeps.ite ?_ ?_
  | (intro _ _)
  | split
  | dsimp only

theorem actBoltCapture_keeps {mk : Nat} {sk : State} {s : State} (hk : Keeps mk sk s) (hm : 7367552 &&& mk = 7367552) :
    Keeps mk sk (actBoltCapture s) := by
  suffices g : Keeps 7367552 s (actBoltCapture s) from hk.trans (g.weaken hm)
  unfold actBoltCapture
  with_reducible repeat' first
  | exact Keeps.refl _
  | assumption
  | decide
  | refine boltStart_keeps ?_ ?_
  | (intro _ _)
  | split
  | dsimp only

theorem execBoltCapture_keeps {mk : Nat} {sk : State} {sess : Nat} {value : Nat} {s : State} (hk : Keeps mk sk s) (hm : 7629696 &&& mk = 7629696) :
    ∃ t', execBoltCapture sess value s = .next t' ∧ Keeps mk sk t' := by
  suffices g : ∃ t', execBoltCapture sess value s = .next t' ∧ Keeps 7629696 s t' from g.imp fun _ h => ⟨h.1, hk.trans (h.2.weaken hm)⟩
  refine ⟨_, rfl, ?_⟩
  with_reducible repeat' first
  | exact Keeps.refl _
  | assumption
  | decide
  | refine actBoltCapture_keeps ?_ ?_
  | refine actWrite_keeps ?_ rfl (fun u hu => ?_) (fun u hu => ?_)
  | refine onOne_keeps ?_ (fun u hu => ?_)
  | refine Keeps.ite ?_ ?_
  | simp only [id_eq]
  | (intro _ _)
  | split
  | dsimp only

theorem actBoltRelease_keeps {mk : Nat} {sk : State} {s : State} (hk : Keeps mk sk s) (hm : 7364608 &&& mk = 7364608) :
    Keeps mk sk (actBoltRelease s) := by
  suffices g : Keeps 7364608 s (actBoltRelease s) from hk.trans (g.weaken hm)
  unfold actBoltRelease
  with_reducible repeat' first
  | exact Keeps.refl _
  | assumption
  | decide
  | refine event_keeps ?_ ?_
  | refine setBolt_keeps ?_ ?_
  | (intro _ _)
  | split
  | dsimp only

theorem execBoltRelease_keeps {mk : Nat} {sk : State} {sess : Nat} {value : Nat} {s : State} (hk : Keeps mk sk s) (hm : 7626752 &&& mk = 7626752) :
    ∃ t', execBoltRelease sess value s = .next t' ∧ Keeps mk sk t' := by
  suffices g : ∃ t', execBoltRelease sess value s = .next t' ∧ Keeps 7626752 s t' from g.imp fun _ h => ⟨h.1, hk.trans (h.2.weaken hm)⟩
  refine ⟨_, rfl, ?_⟩
  with_reducible repeat' first
  | exact Keeps.refl _
  | assumption
  | decide
  | refine actBoltRelease_keeps ?_ ?_
  | refine actWrite_keeps ?_ rfl (fun u hu => ?_) (fun u hu => ?_)
  | refine onOne_keeps ?_ (fun u hu => ?_)
  | refine Keeps.ite ?_ ?_
  | simp only [id_eq]
  | (intro _ _)
  | split
  | dsimp only

theorem boltSectionTimeout_keeps {mk : Nat} {sk : State} {s : State} (hk : Keeps mk sk s) (hm : 1048576 &&& mk = 1048576) :
    Keeps mk sk (boltSectionTimeout s) := by
  suffices g : Keeps 1048576 s (boltSectionTimeout s) from hk.trans (g.weaken hm)
  unfold boltSectionTimeout
  with_reducible repeat' first
  | exact Keeps.refl _
  | assumption
  | decide
  | (extract_lets +onlyGivenNames s1; have h1 : Keeps 1048576 s s1 := (by unfold s1; repeat' first | exact Keeps.refl _ | assumption | decide | refine afterFree_keeps ?_ ?_ | refine setBolt_keeps ?_ ?_ | refine Keeps.ite ?_ ?_ | (intro _ _) | split | dsimp only); clear_value s1)
  | (extract_lets +onlyGivenNames x1; clear_value x1)
  | refine afterFree_keeps ?_ ?_
  | refine setBolt_keeps ?_ ?_
  | refine Keeps.ite ?_ ?_
  | (intro _ _)
  | split
  | dsimp only

theorem execBoltSectionTimeout_keeps {mk : Nat} {sk : State} {s : State} (hk : Keeps mk sk s) (hm : 1048576 &&& mk = 1048576) :
    ∃ t', execBoltSectionTimeout s = .next t' ∧ Keeps mk sk t' := by
  suffices g : ∃ t', execBoltSectionTimeout s = .next t' ∧ Keeps 1048576 s t' from g.imp fun _ h => ⟨h.1, hk.trans (h.2.weaken hm)⟩
  refine ⟨_, rfl, ?_⟩
  with_reducible repeat' first
  | exact Keeps.refl _
  | assumption
  | decide
  | refine boltSectionTimeout_keeps ?_ ?_
  | (intro _ _)
  | split
  | dsimp only

/-! ### Security -/

theorem entropyFault_keeps {mk : Nat} {sk : State} {s : State} (hk : Keeps mk sk s) (hm : 7888896 &&& mk = 7888896) :
    Keeps mk sk (entropyFault s) := by
  suffices g : Keeps 7888896 s (entropyFault s) from hk.trans (g.weaken hm)
  unfold entropyFault
  with_reducible repeat' first
  | exact Keeps.refl _
  | assumption
  | decide
  | (extract_lets +onlyGivenNames s1; have h1 : Keeps 7888896 s s1 := (by unfold s1; repeat' first | exact Keeps.refl _ | assumption | decide | refine event_keeps ?_ ?_ | refine Keeps.ite ?_ ?_ | (fail_if_no_progress refine Keeps.vault' ?_ _ rfl) | (intro _ _) | split | dsimp only); clear_value s1)
  | (extract_lets +onlyGivenNames x1; clear_value x1)
  | refine event_keeps ?_ ?_
  | refine Keeps.ite ?_ ?_
  | (fail_if_no_progress refine Keeps.vault' ?_ _ rfl)
  | (intro _ _)
  | split
  | dsimp only

theorem execEntropyFault_keeps {mk : Nat} {sk : State} {s : State} (hk : Keeps mk sk s) (hm : 7888896 &&& mk = 7888896) :
    ∃ t', execEntropyFault s = .next t' ∧ Keeps mk sk t' := by
  suffices g : ∃ t', execEntropyFault s = .next t' ∧ Keeps 7888896 s t' from g.imp fun _ h => ⟨h.1, hk.trans (h.2.weaken hm)⟩
  refine ⟨_, rfl, ?_⟩
  with_reducible repeat' first
  | exact Keeps.refl _
  | assumption
  | decide
  | refine entropyFault_keeps ?_ ?_
  | (intro _ _)
  | split
  | dsimp only

theorem entropyRecovered_keeps {mk : Nat} {sk : State} {s : State} (hk : Keeps mk sk s) (hm : 7888896 &&& mk = 7888896) :
    Keeps mk sk (entropyRecovered s) := by
  suffices g : Keeps 7888896 s (entropyRecovered s) from hk.trans (g.weaken hm)
  unfold entropyRecovered
  with_reducible repeat' first
  | exact Keeps.refl _
  | assumption
  | decide
  | (extract_lets +onlyGivenNames s1; have h1 : Keeps 7888896 s s1 := (by unfold s1; repeat' first | exact Keeps.refl _ | assumption | decide | refine event_keeps ?_ ?_ | refine Keeps.ite ?_ ?_ | (fail_if_no_progress refine Keeps.vault' ?_ _ rfl) | (intro _ _) | split | dsimp only); clear_value s1)
  | (extract_lets +onlyGivenNames x1; clear_value x1)
  | refine event_keeps ?_ ?_
  | refine Keeps.ite ?_ ?_
  | (fail_if_no_progress refine Keeps.vault' ?_ _ rfl)
  | (intro _ _)
  | split
  | dsimp only

theorem execEntropyRecovered_keeps {mk : Nat} {sk : State} {s : State} (hk : Keeps mk sk s) (hm : 7888896 &&& mk = 7888896) :
    ∃ t', execEntropyRecovered s = .next t' ∧ Keeps mk sk t' := by
  suffices g : ∃ t', execEntropyRecovered s = .next t' ∧ Keeps 7888896 s t' from g.imp fun _ h => ⟨h.1, hk.trans (h.2.weaken hm)⟩
  refine ⟨_, rfl, ?_⟩
  with_reducible repeat' first
  | exact Keeps.refl _
  | assumption
  | decide
  | refine entropyRecovered_keeps ?_ ?_
  | (intro _ _)
  | split
  | dsimp only

theorem eraseVault_keeps {mk : Nat} {sk : State} {s : State} (hk : Keeps mk sk s) (hm : 7891200 &&& mk = 7891200) :
    Keeps mk sk (eraseVault s) := by
  suffices g : Keeps 7891200 s (eraseVault s) from hk.trans (g.weaken hm)
  unfold eraseVault
  with_reducible repeat' first
  | exact Keeps.refl _
  | assumption
  | decide
  | (extract_lets +onlyGivenNames s1; have h1 : Keeps 7891200 s s1 := (by unfold s1; repeat' first | exact Keeps.refl _ | assumption | decide | refine discardIde_keeps ?_ ?_ | refine Keeps.foldl ?_ _ (fun u a hu => ?_) | refine Keeps.foldlFst ?_ _ (fun u a hu => ?_) | (fail_if_no_progress refine Keeps.shu' ?_ _ rfl) | (fail_if_no_progress refine Keeps.vault' ?_ _ rfl) | (fail_if_no_progress (refine Keeps.several ?_ (by refine ⟨?_, ?_, ?_, ?_, ?_, ?_, ?_, ?_, ?_, ?_, ?_, ?_, ?_, ?_, ?_, ?_, ?_, ?_, ?_, ?_⟩ <;> first | exact Or.inl rfl | exact Or.inr rfl))) | (intro _ _) | split | dsimp only); clear_value s1)
  | (extract_lets +onlyGivenNames x1; clear_value x1)
  | refine discardIde_keeps ?_ ?_
  | refine Keeps.foldl ?_ _ (fun u a hu => ?_)
  | refine Keeps.foldlFst ?_ _ (fun u a hu => ?_)
  | (fail_if_no_progress refine Keeps.shu' ?_ _ rfl)
  | (fail_if_no_progress refine Keeps.vault' ?_ _ rfl)
  | (fail_if_no_progress (refine Keeps.several ?_ (by refine ⟨?_, ?_, ?_, ?_, ?_, ?_, ?_, ?_, ?_, ?_, ?_, ?_, ?_, ?_, ?_, ?_, ?_, ?_, ?_, ?_⟩ <;> first | exact Or.inl rfl | exact Or.inr rfl)))
  | (intro _ _)
  | split
  | dsimp only


theorem zeroise_keeps {mk : Nat} {sk s : State} {kind : Nat} (hk : Keeps mk sk s) (hm : 8153352 &&& mk = 8153352) :
    Keeps mk sk (zeroise s kind) := by
  suffices g : Keeps 8153352 s (zeroise s kind) from hk.trans (g.weaken hm)
  unfold zeroise
  extract_lets +onlyGivenNames s1
  have h1 : Keeps 8153352 s s1 := eraseVault_keeps (Keeps.refl s) (by decide)
  clear_value s1
  extract_lets +onlyGivenNames x2 s2
  have h2 : Keeps 8153352 s s2 := Keeps.vault' h1 _ rfl
  clear_value s2 x2
  have h3 : Keeps 8153352 s { s2 with beam := [] } := Keeps.beam' h2 [] rfl (fun _ => Memory.wf_nil)
  have h4 : Keeps 8153352 s { s2 with beam := [], obs := { s2.obs with bolt := { number := s2.obs.bolt.number } } } := Keeps.obs' h3 _ rfl
  extract_lets +onlyGivenNames x3 s3 s4
  have h5 : Keeps 8153352 s s4 := endSessions_keeps h4 (by decide)
  clear_value s4
  exact event_keeps (privCount_keeps h5 (by decide)) (by decide)

theorem newDebugNonce_keeps {mk : Nat} {sk : State} {s : State} (hk : Keeps mk sk s) (hm : 524288 &&& mk = 524288) :
    Keeps mk sk (newDebugNonce s) := by
  suffices g : Keeps 524288 s (newDebugNonce s) from hk.trans (g.weaken hm)
  unfold newDebugNonce
  with_reducible repeat' first
  | exact Keeps.refl _
  | assumption
  | decide
  | refine afterDraw_keeps ?_ ?_
  | (fail_if_no_progress refine Keeps.vault' ?_ _ rfl)
  | (intro _ _)
  | split
  | dsimp only

theorem unlockRefused_keeps {mk : Nat} {sk : State} {s : State} {cause : Nat} (hk : Keeps mk sk s) (hm : 7888896 &&& mk = 7888896) :
    Keeps mk sk (unlockRefused s cause) := by
  suffices g : Keeps 7888896 s (unlockRefused s cause) from hk.trans (g.weaken hm)
  unfold unlockRefused
  with_reducible repeat' first
  | exact Keeps.refl _
  | assumption
  | decide
  | (extract_lets +onlyGivenNames s1; have h1 : Keeps 7888896 s s1 := (by unfold s1; repeat' first | exact Keeps.refl _ | assumption | decide | refine event_keeps ?_ ?_ | refine newDebugNonce_keeps ?_ ?_ | refine privCount_keeps ?_ ?_ | refine Keeps.ite ?_ ?_ | (fail_if_no_progress refine Keeps.vault' ?_ _ rfl) | (intro _ _) | split | dsimp only); clear_value s1)
  | (extract_lets +onlyGivenNames x1; clear_value x1)
  | refine event_keeps ?_ ?_
  | refine newDebugNonce_keeps ?_ ?_
  | refine privCount_keeps ?_ ?_
  | refine Keeps.ite ?_ ?_
  | (fail_if_no_progress refine Keeps.vault' ?_ _ rfl)
  | (intro _ _)
  | split
  | dsimp only

theorem debugUnlock_keeps {mk : Nat} {sk : State} {s : State} {sess : Nat} (hk : Keeps mk sk s) (hm : 8153352 &&& mk = 8153352) :
    Keeps mk sk (debugUnlock s sess) := by
  suffices g : Keeps 8153352 s (debugUnlock s sess) from hk.trans (g.weaken hm)
  unfold debugUnlock
  with_reducible repeat' first
  | exact Keeps.refl _
  | assumption
  | decide
  | (extract_lets +onlyGivenNames q1; have hq1 : Keeps 8153352 s q1.1 := (by unfold q1; repeat' first | exact Keeps.refl _ | assumption | decide | refine event_keeps ?_ ?_ | refine zeroise_keeps ?_ ?_ | (fail_if_no_progress refine Keeps.vault' ?_ _ rfl) | (intro _ _) | split | dsimp only); clear_value q1)
  | (extract_lets +onlyGivenNames s1; have h1 : Keeps 8153352 s s1 := (by unfold s1; repeat' first | exact Keeps.refl _ | assumption | decide | refine event_keeps ?_ ?_ | refine zeroise_keeps ?_ ?_ | (fail_if_no_progress refine Keeps.vault' ?_ _ rfl) | (intro _ _) | split | dsimp only); clear_value s1)
  | (extract_lets +onlyGivenNames x1; clear_value x1)
  | refine event_keeps ?_ ?_
  | refine zeroise_keeps ?_ ?_
  | (fail_if_no_progress refine Keeps.vault' ?_ _ rfl)
  | (intro _ _)
  | split
  | dsimp only

theorem tapInstruction_keeps {mk : Nat} {sk : State} {t : TapInstr} {s : State} (hk : Keeps mk sk s) (hm : 7888896 &&& mk = 7888896) :
    Keeps mk sk (tapInstruction t s) := by
  suffices g : Keeps 7888896 s (tapInstruction t s) from hk.trans (g.weaken hm)
  unfold tapInstruction
  with_reducible repeat' first
  | exact Keeps.refl _
  | assumption
  | decide
  | (extract_lets +onlyGivenNames s1; have h1 : Keeps 7888896 s s1 := (by unfold s1; repeat' first | exact Keeps.refl _ | assumption | decide | refine event_keeps ?_ ?_ | refine privCount_keeps ?_ ?_ | refine Keeps.ite ?_ ?_ | (fail_if_no_progress refine Keeps.vault' ?_ _ rfl) | (intro _ _) | split | dsimp only); clear_value s1)
  | (extract_lets +onlyGivenNames x1; clear_value x1)
  | refine event_keeps ?_ ?_
  | refine privCount_keeps ?_ ?_
  | refine Keeps.ite ?_ ?_
  | (fail_if_no_progress refine Keeps.vault' ?_ _ rfl)
  | (intro _ _)
  | split
  | dsimp only

theorem execTapInstruction_keeps {mk : Nat} {sk : State} {t : TapInstr} {s : State} (hk : Keeps mk sk s) (hm : 7888896 &&& mk = 7888896) :
    ∃ t', execTapInstruction t s = .next t' ∧ Keeps mk sk t' := by
  suffices g : ∃ t', execTapInstruction t s = .next t' ∧ Keeps 7888896 s t' from g.imp fun _ h => ⟨h.1, hk.trans (h.2.weaken hm)⟩
  refine ⟨_, rfl, ?_⟩
  with_reducible repeat' first
  | exact Keeps.refl _
  | assumption
  | decide
  | refine tapInstruction_keeps ?_ ?_
  | (intro _ _)
  | split
  | dsimp only

theorem ideKmKeyProg_keeps {mk : Nat} {sk : State} {p : Nat} {stream : Nat} {selective : Bool} {keys : List Byte} {s : State} (hk : Keeps mk sk s) (hm : 7889152 &&& mk = 7889152) :
    Keeps mk sk (ideKmKeyProg p stream selective keys s) := by
  suffices g : Keeps 7889152 s (ideKmKeyProg p stream selective keys s) from hk.trans (g.weaken hm)
  unfold ideKmKeyProg
  with_reducible repeat' first
  | exact Keeps.refl _
  | assumption
  | decide
  | refine eventIn_keeps ?_ ?_
  | refine Keeps.ite ?_ ?_
  | (fail_if_no_progress refine Keeps.warp' ?_ _ rfl)
  | (fail_if_no_progress refine Keeps.vault' ?_ _ rfl)
  | (fail_if_no_progress (refine Keeps.several ?_ (by refine ⟨?_, ?_, ?_, ?_, ?_, ?_, ?_, ?_, ?_, ?_, ?_, ?_, ?_, ?_, ?_, ?_, ?_, ?_, ?_, ?_⟩ <;> first | exact Or.inl rfl | exact Or.inr rfl)))
  | (intro _ _)
  | split
  | dsimp only

theorem execIdeKmKeyProg_keeps {mk : Nat} {sk : State} {p : Port} {stream : Nat} {selective : Bool} {keys : List Byte} {s : State} (hk : Keeps mk sk s) (hm : 7889152 &&& mk = 7889152) :
    ∃ t', execIdeKmKeyProg p stream selective keys s = .next t' ∧ Keeps mk sk t' := by
  suffices g : ∃ t', execIdeKmKeyProg p stream selective keys s = .next t' ∧ Keeps 7889152 s t' from g.imp fun _ h => ⟨h.1, hk.trans (h.2.weaken hm)⟩
  refine ⟨_, rfl, ?_⟩
  with_reducible repeat' first
  | exact Keeps.refl _
  | assumption
  | decide
  | refine ideKmKeyProg_keeps ?_ ?_
  | (intro _ _)
  | split
  | dsimp only

/-! ### Commit -/

theorem planned_keeps {mk : Nat} {sk : State} {w : State} {k : Nat} {v : Nat} (hk : Keeps mk sk w) (hm : 524290 &&& mk = 524290) :
    Keeps mk sk (planned w k v) := by
  suffices g : Keeps 524290 w (planned w k v) from hk.trans (g.weaken hm)
  unfold planned
  with_reducible repeat' first
  | exact Keeps.refl _
  | assumption
  | decide
  | refine setCfg_keeps ?_ ?_
  | refine Keeps.ite ?_ ?_
  | (fail_if_no_progress refine Keeps.vault' ?_ _ rfl)
  | (intro _ _)
  | split
  | dsimp only

theorem planBase_keeps {mk : Nat} {sk : State} {s : State} (hk : Keeps mk sk s) (hm : 2 &&& mk = 2) :
    Keeps mk sk (planBase s) := by
  suffices g : Keeps 2 s (planBase s) from hk.trans (g.weaken hm)
  unfold planBase
  with_reducible repeat' first
  | exact Keeps.refl _
  | assumption
  | decide
  | (fail_if_no_progress refine Keeps.cfg' ?_ _ rfl)
  | (intro _ _)
  | split
  | dsimp only

theorem takeClaims_keeps {mk : Nat} {sk : State} {s : State} (hk : Keeps mk sk s) (hm : 262146 &&& mk = 262146) :
    Keeps mk sk (takeClaims s) := by
  suffices g : Keeps 262146 s (takeClaims s) from hk.trans (g.weaken hm)
  unfold takeClaims
  with_reducible repeat' first
  | exact Keeps.refl _
  | assumption
  | decide
  | refine planBase_keeps ?_ ?_
  | refine Keeps.foldl ?_ _ (fun u a hu => ?_)
  | refine Keeps.foldlFst ?_ _ (fun u a hu => ?_)
  | (fail_if_no_progress refine Keeps.mgmt' ?_ _ rfl)
  | (intro _ _)
  | split
  | dsimp only

theorem personalitySet_keeps {mk : Nat} {sk : State} {s : State} {p : Nat} {old : Nat} {new : Nat} (hk : Keeps mk sk s) (hm : 7365056 &&& mk = 7365056) :
    Keeps mk sk (personalitySet s p old new) := by
  suffices g : Keeps 7365056 s (personalitySet s p old new) from hk.trans (g.weaken hm)
  unfold personalitySet
  with_reducible repeat' first
  | exact Keeps.refl _
  | assumption
  | decide
  | (extract_lets +onlyGivenNames s1; have h1 : Keeps 7365056 s s1 := (by unfold s1; repeat' first | exact Keeps.refl _ | assumption | decide | refine clockUp_keeps ?_ ?_ | refine weftDisabled_keeps ?_ ?_ | refine weftEnabled_keeps ?_ ?_ | refine Keeps.ite ?_ ?_ | refine Keeps.foldl ?_ _ (fun u a hu => ?_) | refine Keeps.foldlFst ?_ _ (fun u a hu => ?_) | (fail_if_no_progress refine Keeps.obs' ?_ _ rfl) | (intro _ _) | split | dsimp only); clear_value s1)
  | (extract_lets +onlyGivenNames x1; clear_value x1)
  | refine clockUp_keeps ?_ ?_
  | refine weftDisabled_keeps ?_ ?_
  | refine weftEnabled_keeps ?_ ?_
  | refine Keeps.ite ?_ ?_
  | refine Keeps.foldl ?_ _ (fun u a hu => ?_)
  | refine Keeps.foldlFst ?_ _ (fun u a hu => ?_)
  | (fail_if_no_progress refine Keeps.obs' ?_ _ rfl)
  | (intro _ _)
  | split
  | dsimp only

theorem warpDisabled_keeps {mk : Nat} {sk : State} {s : State} {p : Nat} (hk : Keeps mk sk s) (hm : 8027008 &&& mk = 8027008) :
    Keeps mk sk (warpDisabled s p) := by
  suffices g : Keeps 8027008 s (warpDisabled s p) from hk.trans (g.weaken hm)
  unfold warpDisabled
  with_reducible repeat' first
  | exact Keeps.refl _
  | assumption
  | decide
  | (extract_lets +onlyGivenNames s1; have h1 : Keeps 8027008 s s1 := (by unfold s1; repeat' first | exact Keeps.refl _ | assumption | decide | refine setWarp_keeps ?_ ?_ | refine softwareDown_keeps ?_ ?_ | refine warpLinkGone_keeps ?_ ?_ | refine Keeps.ite ?_ ?_ | (intro _ _) | split | dsimp only); clear_value s1)
  | (extract_lets +onlyGivenNames x1; clear_value x1)
  | refine setWarp_keeps ?_ ?_
  | refine softwareDown_keeps ?_ ?_
  | refine warpLinkGone_keeps ?_ ?_
  | refine Keeps.ite ?_ ?_
  | (intro _ _)
  | split
  | dsimp only

theorem personalityLeft_keeps {mk : Nat} {sk : State} {s : State} {p : Nat} {old : Nat} (hk : Keeps mk sk s) (hm : 8027008 &&& mk = 8027008) :
    Keeps mk sk (personalityLeft s p old) := by
  suffices g : Keeps 8027008 s (personalityLeft s p old) from hk.trans (g.weaken hm)
  unfold personalityLeft
  with_reducible repeat' first
  | exact Keeps.refl _
  | assumption
  | decide
  | refine warpDisabled_keeps ?_ ?_
  | refine Keeps.ite ?_ ?_
  | (intro _ _)
  | split
  | dsimp only

theorem fabricChanged_keeps {mk : Nat} {sk : State} {s : State} {new : Nat} (hk : Keeps mk sk s) (hm : 7365824 &&& mk = 7365824) :
    Keeps mk sk (fabricChanged s new) := by
  suffices g : Keeps 7365824 s (fabricChanged s new) from hk.trans (g.weaken hm)
  unfold fabricChanged
  with_reducible repeat' first
  | exact Keeps.refl _
  | assumption
  | decide
  | (extract_lets +onlyGivenNames s1; have h1 : Keeps 7365824 s s1 := (by unfold s1; repeat' first | exact Keeps.refl _ | assumption | decide | refine linkDown_keeps ?_ ?_ | refine Keeps.ite ?_ ?_ | refine Keeps.foldl ?_ _ (fun u a hu => ?_) | refine Keeps.foldlFst ?_ _ (fun u a hu => ?_) | (fail_if_no_progress refine Keeps.fab' ?_ _ rfl) | (intro _ _) | split | dsimp only); clear_value s1)
  | (extract_lets +onlyGivenNames x1; clear_value x1)
  | refine linkDown_keeps ?_ ?_
  | refine Keeps.ite ?_ ?_
  | refine Keeps.foldl ?_ _ (fun u a hu => ?_)
  | refine Keeps.foldlFst ?_ _ (fun u a hu => ?_)
  | (fail_if_no_progress refine Keeps.fab' ?_ _ rfl)
  | (intro _ _)
  | split
  | dsimp only

theorem gbpsChanged_keeps {mk : Nat} {sk : State} {s : State} {v : Nat} {old : Nat} {new : Nat} (hk : Keeps mk sk s) (hm : 8192 &&& mk = 8192) :
    Keeps mk sk (gbpsChanged s v old new) := by
  suffices g : Keeps 8192 s (gbpsChanged s v old new) from hk.trans (g.weaken hm)
  unfold gbpsChanged
  with_reducible repeat' first
  | exact Keeps.refl _
  | assumption
  | decide
  | (extract_lets +onlyGivenNames s1; have h1 : Keeps 8192 s s1 := (by unfold s1; repeat' first | exact Keeps.refl _ | assumption | decide | refine setInst_keeps ?_ ?_ | refine Keeps.foldl ?_ _ (fun u a hu => ?_) | refine Keeps.foldlFst ?_ _ (fun u a hu => ?_) | (fail_if_no_progress refine Keeps.eng' ?_ _ rfl) | (intro _ _) | split | dsimp only); clear_value s1)
  | (extract_lets +onlyGivenNames x1; clear_value x1)
  | refine setInst_keeps ?_ ?_
  | refine Keeps.foldl ?_ _ (fun u a hu => ?_)
  | refine Keeps.foldlFst ?_ _ (fun u a hu => ?_)
  | (fail_if_no_progress refine Keeps.eng' ?_ _ rfl)
  | (intro _ _)
  | split
  | dsimp only

theorem shareLowered_keeps {mk : Nat} {sk : State} {s : State} {v : Nat} {r : Nat} {old : Nat} {new : Nat} (hk : Keeps mk sk s) (hm : 7364608 &&& mk = 7364608) :
    Keeps mk sk (shareLowered s v r old new) := by
  suffices g : Keeps 7364608 s (shareLowered s v r old new) from hk.trans (g.weaken hm)
  unfold shareLowered
  with_reducible repeat' first
  | exact Keeps.refl _
  | assumption
  | decide
  | (extract_lets +onlyGivenNames s1; have h1 : Keeps 7364608 s s1 := (by unfold s1; repeat' first | exact Keeps.refl _ | assumption | decide | refine eventIn_keeps ?_ ?_ | refine setInst_keeps ?_ ?_ | refine Keeps.ite ?_ ?_ | refine Keeps.iteFst ?_ ?_ | refine Keeps.foldl ?_ _ (fun u a hu => ?_) | refine Keeps.foldlFst ?_ _ (fun u a hu => ?_) | (intro _ _) | split | dsimp only); clear_value s1)
  | (extract_lets +onlyGivenNames x1; clear_value x1)
  | refine eventIn_keeps ?_ ?_
  | refine setInst_keeps ?_ ?_
  | refine Keeps.ite ?_ ?_
  | refine Keeps.iteFst ?_ ?_
  | refine Keeps.foldl ?_ _ (fun u a hu => ?_)
  | refine Keeps.foldlFst ?_ _ (fun u a hu => ?_)
  | (intro _ _)
  | split
  | dsimp only

theorem chainChanged_keeps {mk : Nat} {sk : State} {s : State} {old : Nat} {new : Nat} (hk : Keeps mk sk s) (hm : 1048576 &&& mk = 1048576) :
    Keeps mk sk (chainChanged s old new) := by
  suffices g : Keeps 1048576 s (chainChanged s old new) from hk.trans (g.weaken hm)
  unfold chainChanged
  with_reducible repeat' first
  | exact Keeps.refl _
  | assumption
  | decide
  | refine Keeps.ite ?_ ?_
  | refine Keeps.foldl ?_ _ (fun u a hu => ?_)
  | refine Keeps.foldlFst ?_ _ (fun u a hu => ?_)
  | (fail_if_no_progress refine Keeps.obs' ?_ _ rfl)
  | (intro _ _)
  | split
  | dsimp only

theorem effectLow_keeps {mk : Nat} {sk : State} {s : State} {k : Nat} {old : Nat} {new : Nat} (hk : Keeps mk sk s) (hm : 8388607 &&& mk = 8388607) :
    Keeps mk sk (effectLow s k old new) := by
  suffices g : Keeps 8388607 s (effectLow s k old new) from hk.trans (g.weaken hm)
  unfold effectLow
  try dsimp only
  repeat' first
  | with_reducible exact Keeps.refl _
  | with_reducible assumption
  | with_reducible decide
  | with_reducible refine enterPartition_keeps ?_ ?_
  | with_reducible refine event_keeps ?_ ?_
  | with_reducible refine fabricChanged_keeps ?_ ?_
  | with_reducible refine feedEnableCommitted_keeps ?_ ?_
  | with_reducible refine gbpsChanged_keeps ?_ ?_
  | with_reducible refine personalitySet_keeps ?_ ?_
  | with_reducible refine poolChanged_keeps ?_ ?_
  | with_reducible refine setFeed_keeps ?_ ?_ ?_
  | with_reducible refine shareLowered_keeps ?_ ?_
  | with_reducible refine twinCommitted_keeps ?_ ?_
  | with_reducible (fail_if_no_progress refine Keeps.gov' ?_ _ rfl)
  | with_reducible (fail_if_no_progress refine Keeps.fab' ?_ _ rfl)
  | with_reducible (fail_if_no_progress refine Keeps.mgmt' ?_ _ rfl)
  | with_reducible (fail_if_no_progress (refine Keeps.several ?_ (by refine ⟨?_, ?_, ?_, ?_, ?_, ?_, ?_, ?_, ?_, ?_, ?_, ?_, ?_, ?_, ?_, ?_, ?_, ?_, ?_, ?_⟩ <;> first | exact Or.inl rfl | exact Or.inr rfl)))
  | split
  | (intro hp hq; exact feedPgood_of hp _)
  | (intro hp hq; have hf := feedPgood_of hp f; have hg := feedPgood_of hq f; simp_all [FeedPgood, FeedState.enter, FeedState.gateOff, FeedState.sample]; done)
  | (intro hp; first | exact ⟨hp.1, hp.2⟩ | (have hf := feedPgood_of hp f; cases hv : (feedOf s f).pgood <;> simp_all [FeedPgood, FeedState.enter, FeedState.gateOff, FeedState.sample] <;> done))
  | (intro _ _)

theorem effectHigh_keeps {mk : Nat} {sk : State} {s : State} {k : Nat} {old : Nat} {new : Nat} (hk : Keeps mk sk s) (hm : 7364608 &&& mk = 7364608) :
    Keeps mk sk (effectHigh s k old new) := by
  suffices g : Keeps 7364608 s (effectHigh s k old new) from hk.trans (g.weaken hm)
  unfold effectHigh
  with_reducible repeat' first
  | exact Keeps.refl _
  | assumption
  | decide
  | (extract_lets +onlyGivenNames s1; have h1 : Keeps 7364608 s s1 := (by unfold s1; repeat' first | exact Keeps.refl _ | assumption | decide | refine chainChanged_keeps ?_ ?_ | refine event_keeps ?_ ?_ | refine restartRing_keeps ?_ ?_ | refine ringSet_keeps ?_ ?_ | refine Keeps.ite ?_ ?_ | (fail_if_no_progress refine Keeps.obs' ?_ _ rfl) | (intro _ _) | split | dsimp only); clear_value s1)
  | (extract_lets +onlyGivenNames x1; clear_value x1)
  | refine chainChanged_keeps ?_ ?_
  | refine event_keeps ?_ ?_
  | refine restartRing_keeps ?_ ?_
  | refine ringSet_keeps ?_ ?_
  | refine Keeps.ite ?_ ?_
  | (fail_if_no_progress refine Keeps.obs' ?_ _ rfl)
  | (intro _ _)
  | split
  | dsimp only

theorem putInForce_keeps {mk : Nat} {sk : State} {s : State} {k : Nat} {v : Nat} (hk : Keeps mk sk s) (hm : 8388607 &&& mk = 8388607) :
    Keeps mk sk (putInForce s k v) := by
  suffices g : Keeps 8388607 s (putInForce s k v) from hk.trans (g.weaken hm)
  unfold putInForce
  with_reducible repeat' first
  | exact Keeps.refl _
  | assumption
  | decide
  | (extract_lets +onlyGivenNames s1; have h1 : Keeps 8388607 s s1 := (by unfold s1; repeat' first | exact Keeps.refl _ | assumption | decide | refine effectHigh_keeps ?_ ?_ | refine effectLow_keeps ?_ ?_ | refine leavePartition_keeps ?_ ?_ | refine personalityLeft_keeps ?_ ?_ | refine secretChanged_keeps ?_ ?_ | refine setCfg_keeps ?_ ?_ | refine setFlash_keeps ?_ ?_ | refine Keeps.ite ?_ ?_ | (fail_if_no_progress refine Keeps.vault' ?_ _ rfl) | (intro _ _) | split | dsimp only); clear_value s1)
  | (extract_lets +onlyGivenNames x1; clear_value x1)
  | refine effectHigh_keeps ?_ ?_
  | refine effectLow_keeps ?_ ?_
  | refine leavePartition_keeps ?_ ?_
  | refine personalityLeft_keeps ?_ ?_
  | refine secretChanged_keeps ?_ ?_
  | refine setCfg_keeps ?_ ?_
  | refine setFlash_keeps ?_ ?_
  | refine Keeps.ite ?_ ?_
  | (fail_if_no_progress refine Keeps.vault' ?_ _ rfl)
  | (intro _ _)
  | split
  | dsimp only

theorem journalItem_keeps {mk : Nat} {sk : State} {s : State} {x : Session} {kind : Nat} {k : Nat} {v : Nat} (hk : Keeps mk sk s) (hm : 1048576 &&& mk = 1048576) :
    Keeps mk sk (journalItem s x kind k v) := by
  suffices g : Keeps 1048576 s (journalItem s x kind k v) from hk.trans (g.weaken hm)
  unfold journalItem
  with_reducible repeat' first
  | exact Keeps.refl _
  | assumption
  | decide
  | (extract_lets +onlyGivenNames s1; have h1 : Keeps 1048576 s s1 := (by unfold s1; repeat' first | exact Keeps.refl _ | assumption | decide | refine journal_keeps ?_ ?_ | refine Keeps.ite ?_ ?_ | refine Keeps.iteFst ?_ ?_ | (intro _ _) | split | dsimp only); clear_value s1)
  | (extract_lets +onlyGivenNames x1; clear_value x1)
  | refine journal_keeps ?_ ?_
  | refine Keeps.ite ?_ ?_
  | refine Keeps.iteFst ?_ ?_
  | (intro _ _)
  | split
  | dsimp only


theorem journalItems_keeps {mk : Nat} {sk : State} {x : Session} {k : List (Nat × Nat)} {w s : State} (hk : Keeps mk sk s)
    (hm : 1572866 &&& mk = 1572866) : Keeps mk sk (journalItems x k w s) := by
  have aux : ∀ (k : List (Nat × Nat)) (w u t : State), Keeps 1572866 u t → Keeps 1572866 u (journalItems x k w t) := by
    intro k
    induction k with
    | nil => exact fun _ _ _ h => h
    | cons y l ih =>
      obtain ⟨k1, v1⟩ := y
      exact fun w u t h => ih _ _ _ (Keeps.obs' h _ rfl)
  exact hk.trans ((aux k w s s (Keeps.refl s)).weaken hm)

theorem applyCommit_keeps {mk : Nat} {sk : State} {s : State} {x : Session} {items : List (Nat × Nat)} (hk : Keeps mk sk s) (hm : 8388607 &&& mk = 8388607) :
    Keeps mk sk (applyCommit s x items).1 := by
  suffices g : Keeps 8388607 s (applyCommit s x items).1 from hk.trans (g.weaken hm)
  unfold applyCommit
  with_reducible repeat' first
  | exact Keeps.refl _
  | assumption
  | decide
  | (extract_lets +onlyGivenNames q1; have hq1 : Keeps 8388607 s q1.1 := (by unfold q1; repeat' first | exact Keeps.refl _ | assumption | decide | refine count_keeps ?_ ?_ | refine event_keeps ?_ ?_ | refine journalItems_keeps ?_ ?_ | refine planBase_keeps ?_ ?_ | refine putInForce_keeps ?_ ?_ | refine takeClaims_keeps ?_ ?_ | refine Keeps.foldl ?_ _ (fun u a hu => ?_) | refine Keeps.foldlFst ?_ _ (fun u a hu => ?_) | (fail_if_no_progress refine Keeps.obs' ?_ _ rfl) | (intro _ _) | split | dsimp only); clear_value q1)
  | (extract_lets +onlyGivenNames s1; have h1 : Keeps 8388607 s s1 := (by unfold s1; repeat' first | exact Keeps.refl _ | assumption | decide | refine count_keeps ?_ ?_ | refine event_keeps ?_ ?_ | refine journalItems_keeps ?_ ?_ | refine planBase_keeps ?_ ?_ | refine putInForce_keeps ?_ ?_ | refine takeClaims_keeps ?_ ?_ | refine Keeps.foldl ?_ _ (fun u a hu => ?_) | refine Keeps.foldlFst ?_ _ (fun u a hu => ?_) | (fail_if_no_progress refine Keeps.obs' ?_ _ rfl) | (intro _ _) | split | dsimp only); clear_value s1)
  | (extract_lets +onlyGivenNames x1; clear_value x1)
  | refine count_keeps ?_ ?_
  | refine event_keeps ?_ ?_
  | refine journalItems_keeps ?_ ?_
  | refine planBase_keeps ?_ ?_
  | refine putInForce_keeps ?_ ?_
  | refine takeClaims_keeps ?_ ?_
  | refine Keeps.foldl ?_ _ (fun u a hu => ?_)
  | refine Keeps.foldlFst ?_ _ (fun u a hu => ?_)
  | (fail_if_no_progress refine Keeps.obs' ?_ _ rfl)
  | (intro _ _)
  | split
  | dsimp only

theorem refuseCommit_keeps {mk : Nat} {sk : State} {s : State} {x : Session} {items : List (Nat × Nat)} {r : Refused} (hk : Keeps mk sk s) (hm : 7888896 &&& mk = 7888896) :
    Keeps mk sk (refuseCommit s x items r) := by
  suffices g : Keeps 7888896 s (refuseCommit s x items r) from hk.trans (g.weaken hm)
  unfold refuseCommit
  with_reducible repeat' first
  | exact Keeps.refl _
  | assumption
  | decide
  | (extract_lets +onlyGivenNames s1; have h1 : Keeps 7888896 s s1 := (by unfold s1; repeat' first | exact Keeps.refl _ | assumption | decide | refine count_keeps ?_ ?_ | refine event_keeps ?_ ?_ | refine unlockRefused_keeps ?_ ?_ | refine Keeps.ite ?_ ?_ | refine Keeps.iteFst ?_ ?_ | (intro _ _) | split | dsimp only); clear_value s1)
  | (extract_lets +onlyGivenNames x1; clear_value x1)
  | refine count_keeps ?_ ?_
  | refine event_keeps ?_ ?_
  | refine unlockRefused_keeps ?_ ?_
  | refine Keeps.ite ?_ ?_
  | refine Keeps.iteFst ?_ ?_
  | (intro _ _)
  | split
  | dsimp only

theorem commitLost_keeps {mk : Nat} {sk : State} {s : State} (hk : Keeps mk sk s) (hm : 1048584 &&& mk = 1048584) :
    Keeps mk sk (commitLost s) := by
  suffices g : Keeps 1048584 s (commitLost s) from hk.trans (g.weaken hm)
  unfold commitLost
  with_reducible repeat' first
  | exact Keeps.refl _
  | assumption
  | decide
  | (extract_lets +onlyGivenNames s1; have h1 : Keeps 1048584 s s1 := (by unfold s1; repeat' first | exact Keeps.refl _ | assumption | decide | refine journalItem_keeps ?_ ?_ | (fail_if_no_progress refine Keeps.module' ?_ _ rfl) | (intro _ _) | split | dsimp only); clear_value s1)
  | (extract_lets +onlyGivenNames x1; clear_value x1)
  | refine journalItem_keeps ?_ ?_
  | (fail_if_no_progress refine Keeps.module' ?_ _ rfl)
  | (intro _ _)
  | split
  | dsimp only

/-! ### Startup -/

theorem setModule_keeps {mk : Nat} {sk : State} {s : State} {m : ModBlk} (hk : Keeps mk sk s) (hm : 8 &&& mk = 8) :
    Keeps mk sk (setModule s m) := by
  suffices g : Keeps 8 s (setModule s m) from hk.trans (g.weaken hm)
  unfold setModule
  with_reducible repeat' first
  | exact Keeps.refl _
  | assumption
  | decide
  | (fail_if_no_progress refine Keeps.module' ?_ _ rfl)
  | (intro _ _)
  | split
  | dsimp only

theorem startWarm_keeps {mk : Nat} {sk : State} {s : State} {cause : Nat} (hk : Keeps mk sk s) (hm : 7364616 &&& mk = 7364616) :
    Keeps mk sk (startWarm s cause) := by
  suffices g : Keeps 7364616 s (startWarm s cause) from hk.trans (g.weaken hm)
  unfold startWarm
  with_reducible repeat' first
  | exact Keeps.refl _
  | assumption
  | decide
  | (extract_lets +onlyGivenNames s1; have h1 : Keeps 7364616 s s1 := (by unfold s1; repeat' first | exact Keeps.refl _ | assumption | decide | refine event_keeps ?_ ?_ | refine setModule_keeps ?_ ?_ | (intro _ _) | split | dsimp only); clear_value s1)
  | (extract_lets +onlyGivenNames x1; clear_value x1)
  | refine event_keeps ?_ ?_
  | refine setModule_keeps ?_ ?_
  | (intro _ _)
  | split
  | dsimp only

theorem requestWarm_keeps {mk : Nat} {sk : State} {s : State} {cause : Nat} (hk : Keeps mk sk s) (hm : 7364616 &&& mk = 7364616) :
    Keeps mk sk (requestWarm s cause) := by
  suffices g : Keeps 7364616 s (requestWarm s cause) from hk.trans (g.weaken hm)
  unfold requestWarm
  with_reducible repeat' first
  | exact Keeps.refl _
  | assumption
  | decide
  | refine setModule_keeps ?_ ?_
  | refine startWarm_keeps ?_ ?_
  | refine Keeps.ite ?_ ?_
  | (intro _ _)
  | split
  | dsimp only

theorem releaseWarm_keeps {mk : Nat} {sk : State} {s : State} (hk : Keeps mk sk s) (hm : 7364616 &&& mk = 7364616) :
    Keeps mk sk (releaseWarm s) := by
  suffices g : Keeps 7364616 s (releaseWarm s) from hk.trans (g.weaken hm)
  unfold releaseWarm
  with_reducible repeat' first
  | exact Keeps.refl _
  | assumption
  | decide
  | refine startWarm_keeps ?_ ?_
  | refine Keeps.ite ?_ ?_
  | (intro _ _)
  | split
  | dsimp only

theorem actWarmReset_keeps {mk : Nat} {sk : State} {s : State} (hk : Keeps mk sk s) (hm : 7364616 &&& mk = 7364616) :
    Keeps mk sk (actWarmReset s) := by
  suffices g : Keeps 7364616 s (actWarmReset s) from hk.trans (g.weaken hm)
  unfold actWarmReset
  with_reducible repeat' first
  | exact Keeps.refl _
  | assumption
  | decide
  | refine requestWarm_keeps ?_ ?_
  | (intro _ _)
  | split
  | dsimp only

theorem execWarmResetCmd_keeps {mk : Nat} {sk : State} {sess : Nat} {value : Nat} {s : State} (hk : Keeps mk sk s) (hm : 7626760 &&& mk = 7626760) :
    ∃ t', execWarmResetCmd sess value s = .next t' ∧ Keeps mk sk t' := by
  suffices g : ∃ t', execWarmResetCmd sess value s = .next t' ∧ Keeps 7626760 s t' from g.imp fun _ h => ⟨h.1, hk.trans (h.2.weaken hm)⟩
  refine ⟨_, rfl, ?_⟩
  with_reducible repeat' first
  | exact Keeps.refl _
  | assumption
  | decide
  | refine actWarmReset_keeps ?_ ?_
  | refine actWrite_keeps ?_ rfl (fun u hu => ?_) (fun u hu => ?_)
  | refine onOne_keeps ?_ (fun u hu => ?_)
  | refine Keeps.ite ?_ ?_
  | simp only [id_eq]
  | (intro _ _)
  | split
  | dsimp only

theorem rejectRunning_keeps {mk : Nat} {sk : State} {s : State} (hk : Keeps mk sk s) (hm : 8 &&& mk = 8) :
    Keeps mk sk (rejectRunning s) := by
  suffices g : Keeps 8 s (rejectRunning s) from hk.trans (g.weaken hm)
  unfold rejectRunning
  with_reducible repeat' first
  | exact Keeps.refl _
  | assumption
  | decide
  | (extract_lets +onlyGivenNames s1; have h1 : Keeps 8 s s1 := (by unfold s1; repeat' first | exact Keeps.refl _ | assumption | decide | refine setFwSlot_keeps ?_ ?_ | refine setModule_keeps ?_ ?_ | refine Keeps.ite ?_ ?_ | (intro _ _) | split | dsimp only); clear_value s1)
  | (extract_lets +onlyGivenNames x1; clear_value x1)
  | refine setFwSlot_keeps ?_ ?_
  | refine setModule_keeps ?_ ?_
  | refine Keeps.ite ?_ ?_
  | (intro _ _)
  | split
  | dsimp only

theorem beginPause_keeps {mk : Nat} {sk : State} {s : State} {k : Nat} {rollback : Bool} (hk : Keeps mk sk s) (hm : 8 &&& mk = 8) :
    Keeps mk sk (beginPause s k rollback) := by
  suffices g : Keeps 8 s (beginPause s k rollback) from hk.trans (g.weaken hm)
  unfold beginPause
  with_reducible repeat' first
  | exact Keeps.refl _
  | assumption
  | decide
  | refine setModule_keeps ?_ ?_
  | (intro _ _)
  | split
  | dsimp only

theorem rollback_keeps {mk : Nat} {sk : State} {s : State} {check : Nat} (hk : Keeps mk sk s) (hm : 7364616 &&& mk = 7364616) :
    Keeps mk sk (rollback s check) := by
  suffices g : Keeps 7364616 s (rollback s check) from hk.trans (g.weaken hm)
  unfold rollback
  with_reducible repeat' first
  | exact Keeps.refl _
  | assumption
  | decide
  | (extract_lets +onlyGivenNames s1; have h1 : Keeps 7364616 s s1 := (by unfold s1; repeat' first | exact Keeps.refl _ | assumption | decide | refine beginPause_keeps ?_ ?_ | refine event_keeps ?_ ?_ | refine rejectRunning_keeps ?_ ?_ | refine requestWarm_keeps ?_ ?_ | refine setFwSlot_keeps ?_ ?_ | refine setModule_keeps ?_ ?_ | refine Keeps.ite ?_ ?_ | (intro _ _) | split | dsimp only); clear_value s1)
  | (extract_lets +onlyGivenNames x1; clear_value x1)
  | refine beginPause_keeps ?_ ?_
  | refine event_keeps ?_ ?_
  | refine rejectRunning_keeps ?_ ?_
  | refine requestWarm_keeps ?_ ?_
  | refine setFwSlot_keeps ?_ ?_
  | refine setModule_keeps ?_ ?_
  | refine Keeps.ite ?_ ?_
  | (intro _ _)
  | split
  | dsimp only

theorem treadleWatchdogExpiry_keeps {mk : Nat} {sk : State} {s : State} (hk : Keeps mk sk s) (hm : 7364616 &&& mk = 7364616) :
    Keeps mk sk (treadleWatchdogExpiry s) := by
  suffices g : Keeps 7364616 s (treadleWatchdogExpiry s) from hk.trans (g.weaken hm)
  unfold treadleWatchdogExpiry
  with_reducible repeat' first
  | exact Keeps.refl _
  | assumption
  | decide
  | refine rollback_keeps ?_ ?_
  | refine Keeps.ite ?_ ?_
  | (intro _ _)
  | split
  | dsimp only

theorem execTreadleWatchdogExpiry_keeps {mk : Nat} {sk : State} {s : State} (hk : Keeps mk sk s) (hm : 7364616 &&& mk = 7364616) :
    ∃ t', execTreadleWatchdogExpiry s = .next t' ∧ Keeps mk sk t' := by
  suffices g : ∃ t', execTreadleWatchdogExpiry s = .next t' ∧ Keeps 7364616 s t' from g.imp fun _ h => ⟨h.1, hk.trans (h.2.weaken hm)⟩
  refine ⟨_, rfl, ?_⟩
  with_reducible repeat' first
  | exact Keeps.refl _
  | assumption
  | decide
  | refine treadleWatchdogExpiry_keeps ?_ ?_
  | (intro _ _)
  | split
  | dsimp only

theorem trialEnd_keeps {mk : Nat} {sk : State} {s : State} (hk : Keeps mk sk s) (hm : 7364616 &&& mk = 7364616) :
    Keeps mk sk (trialEnd s) := by
  suffices g : Keeps 7364616 s (trialEnd s) from hk.trans (g.weaken hm)
  unfold trialEnd
  with_reducible repeat' first
  | exact Keeps.refl _
  | assumption
  | decide
  | (extract_lets +onlyGivenNames s1; have h1 : Keeps 7364616 s s1 := (by unfold s1; repeat' first | exact Keeps.refl _ | assumption | decide | refine event_keeps ?_ ?_ | refine setFwSlot_keeps ?_ ?_ | refine setModule_keeps ?_ ?_ | refine Keeps.ite ?_ ?_ | (intro _ _) | split | dsimp only); clear_value s1)
  | (extract_lets +onlyGivenNames x1; clear_value x1)
  | refine event_keeps ?_ ?_
  | refine setFwSlot_keeps ?_ ?_
  | refine setModule_keeps ?_ ?_
  | refine Keeps.ite ?_ ?_
  | (intro _ _)
  | split
  | dsimp only

theorem execTrialEnd_keeps {mk : Nat} {sk : State} {s : State} (hk : Keeps mk sk s) (hm : 7364616 &&& mk = 7364616) :
    ∃ t', execTrialEnd s = .next t' ∧ Keeps mk sk t' := by
  suffices g : ∃ t', execTrialEnd s = .next t' ∧ Keeps 7364616 s t' from g.imp fun _ h => ⟨h.1, hk.trans (h.2.weaken hm)⟩
  refine ⟨_, rfl, ?_⟩
  with_reducible repeat' first
  | exact Keeps.refl _
  | assumption
  | decide
  | refine trialEnd_keeps ?_ ?_
  | (intro _ _)
  | split
  | dsimp only

theorem fatalBolt_keeps {mk : Nat} {sk : State} {s : State} {cause : Nat} {before : ModState} (hk : Keeps mk sk s) (hm : 7367552 &&& mk = 7367552) :
    Keeps mk sk (fatalBolt s cause before) := by
  suffices g : Keeps 7367552 s (fatalBolt s cause before) from hk.trans (g.weaken hm)
  unfold fatalBolt
  with_reducible repeat' first
  | exact Keeps.refl _
  | assumption
  | decide
  | refine boltLater_keeps ?_ ?_
  | refine boltStart_keeps ?_ ?_
  | refine Keeps.ite ?_ ?_
  | (intro _ _)
  | split
  | dsimp only

theorem enterHalted_keeps {mk : Nat} {sk : State} {s : State} {cause : Nat} (hk : Keeps mk sk s) (hm : 7364616 &&& mk = 7364616) :
    Keeps mk sk (enterHalted s cause) := by
  suffices g : Keeps 7364616 s (enterHalted s cause) from hk.trans (g.weaken hm)
  unfold enterHalted
  with_reducible repeat' first
  | exact Keeps.refl _
  | assumption
  | decide
  | (extract_lets +onlyGivenNames s1; have h1 : Keeps 7364616 s s1 := (by unfold s1; repeat' first | exact Keeps.refl _ | assumption | decide | refine changeState_keeps ?_ ?_ | refine releaseWarm_keeps ?_ ?_ | refine setModule_keeps ?_ ?_ | (intro _ _) | split | dsimp only); clear_value s1)
  | (extract_lets +onlyGivenNames x1; clear_value x1)
  | refine changeState_keeps ?_ ?_
  | refine releaseWarm_keeps ?_ ?_
  | refine setModule_keeps ?_ ?_
  | (intro _ _)
  | split
  | dsimp only

theorem enterRecovery_keeps {mk : Nat} {sk : State} {s : State} {cause : Nat} (hk : Keeps mk sk s) (hm : 7437192 &&& mk = 7437192) :
    Keeps mk sk (enterRecovery s cause) := by
  suffices g : Keeps 7437192 s (enterRecovery s cause) from hk.trans (g.weaken hm)
  unfold enterRecovery
  with_reducible repeat' first
  | exact Keeps.refl _
  | assumption
  | decide
  | (extract_lets +onlyGivenNames s1; have h1 : Keeps 7437192 s s1 := (by unfold s1; repeat' first | exact Keeps.refl _ | assumption | decide | refine changeState_keeps ?_ ?_ | refine enterHalted_keeps ?_ ?_ | refine event_keeps ?_ ?_ | refine fatalBolt_keeps ?_ ?_ | refine rejectRunning_keeps ?_ ?_ | refine setFwSlot_keeps ?_ ?_ | refine setModule_keeps ?_ ?_ | refine twinGoneNow_keeps ?_ ?_ | refine Keeps.ite ?_ ?_ | (intro _ _) | split | dsimp only); clear_value s1)
  | (extract_lets +onlyGivenNames x1; clear_value x1)
  | refine changeState_keeps ?_ ?_
  | refine enterHalted_keeps ?_ ?_
  | refine event_keeps ?_ ?_
  | refine fatalBolt_keeps ?_ ?_
  | refine rejectRunning_keeps ?_ ?_
  | refine setFwSlot_keeps ?_ ?_
  | refine setModule_keeps ?_ ?_
  | refine twinGoneNow_keeps ?_ ?_
  | refine Keeps.ite ?_ ?_
  | (intro _ _)
  | split
  | dsimp only

theorem moduleFatalError_keeps {mk : Nat} {sk : State} {cause : Nat} {s : State} (hk : Keeps mk sk s) (hm : 7437192 &&& mk = 7437192) :
    Keeps mk sk (moduleFatalError cause s) := by
  suffices g : Keeps 7437192 s (moduleFatalError cause s) from hk.trans (g.weaken hm)
  unfold moduleFatalError
  with_reducible repeat' first
  | exact Keeps.refl _
  | assumption
  | decide
  | refine boltLater_keeps ?_ ?_
  | refine enterRecovery_keeps ?_ ?_
  | refine Keeps.ite ?_ ?_
  | (intro _ _)
  | split
  | dsimp only

theorem execModuleFatalError_keeps {mk : Nat} {sk : State} {cause : Nat} {s : State} (hk : Keeps mk sk s) (hm : 7437192 &&& mk = 7437192) :
    ∃ t', execModuleFatalError cause s = .next t' ∧ Keeps mk sk t' := by
  suffices g : ∃ t', execModuleFatalError cause s = .next t' ∧ Keeps 7437192 s t' from g.imp fun _ h => ⟨h.1, hk.trans (h.2.weaken hm)⟩
  refine ⟨_, rfl, ?_⟩
  with_reducible repeat' first
  | exact Keeps.refl _
  | assumption
  | decide
  | refine moduleFatalError_keeps ?_ ?_
  | (intro _ _)
  | split
  | dsimp only

theorem thermalFatalTimeout_keeps {mk : Nat} {sk : State} {s : State} (hk : Keeps mk sk s) (hm : 7437224 &&& mk = 7437224) :
    Keeps mk sk (thermalFatalTimeout s) := by
  suffices g : Keeps 7437224 s (thermalFatalTimeout s) from hk.trans (g.weaken hm)
  unfold thermalFatalTimeout
  with_reducible repeat' first
  | exact Keeps.refl _
  | assumption
  | decide
  | refine moduleFatalError_keeps ?_ ?_
  | refine Keeps.ite ?_ ?_
  | (fail_if_no_progress refine Keeps.gov' ?_ _ rfl)
  | (intro _ _)
  | split
  | dsimp only

theorem execThermalFatalTimeout_keeps {mk : Nat} {sk : State} {s : State} (hk : Keeps mk sk s) (hm : 7437224 &&& mk = 7437224) :
    ∃ t', execThermalFatalTimeout s = .next t' ∧ Keeps mk sk t' := by
  suffices g : ∃ t', execThermalFatalTimeout s = .next t' ∧ Keeps 7437224 s t' from g.imp fun _ h => ⟨h.1, hk.trans (h.2.weaken hm)⟩
  refine ⟨_, rfl, ?_⟩
  with_reducible repeat' first
  | exact Keeps.refl _
  | assumption
  | decide
  | refine thermalFatalTimeout_keeps ?_ ?_
  | (intro _ _)
  | split
  | dsimp only

theorem warmResetDrainEnd_keeps {mk : Nat} {sk : State} {s : State} (hk : Keeps mk sk s) (hm : 7433096 &&& mk = 7433096) :
    Keeps mk sk (warmResetDrainEnd s) := by
  suffices g : Keeps 7433096 s (warmResetDrainEnd s) from hk.trans (g.weaken hm)
  unfold warmResetDrainEnd
  with_reducible repeat' first
  | exact Keeps.refl _
  | assumption
  | decide
  | (extract_lets +onlyGivenNames s1; have h1 : Keeps 7433096 s s1 := (by unfold s1; repeat' first | exact Keeps.refl _ | assumption | decide | refine boltReset_keeps ?_ ?_ | refine setModule_keeps ?_ ?_ | refine twinGoneSend_keeps ?_ ?_ | refine Keeps.ite ?_ ?_ | (intro _ _) | split | dsimp only); clear_value s1)
  | (extract_lets +onlyGivenNames x1; clear_value x1)
  | refine boltReset_keeps ?_ ?_
  | refine setModule_keeps ?_ ?_
  | refine twinGoneSend_keeps ?_ ?_
  | refine Keeps.ite ?_ ?_
  | (intro _ _)
  | split
  | dsimp only

theorem execWarmResetDrainEnd_keeps {mk : Nat} {sk : State} {s : State} (hk : Keeps mk sk s) (hm : 7433096 &&& mk = 7433096) :
    ∃ t', execWarmResetDrainEnd s = .next t' ∧ Keeps mk sk t' := by
  suffices g : ∃ t', execWarmResetDrainEnd s = .next t' ∧ Keeps 7433096 s t' from g.imp fun _ h => ⟨h.1, hk.trans (h.2.weaken hm)⟩
  refine ⟨_, rfl, ?_⟩
  with_reducible repeat' first
  | exact Keeps.refl _
  | assumption
  | decide
  | refine warmResetDrainEnd_keeps ?_ ?_
  | (intro _ _)
  | split
  | dsimp only

theorem newBeamKey_keeps {mk : Nat} {sk : State} {s : State} (hk : Keeps mk sk s) (hm : 524288 &&& mk = 524288) :
    Keeps mk sk (newBeamKey s) := by
  suffices g : Keeps 524288 s (newBeamKey s) from hk.trans (g.weaken hm)
  unfold newBeamKey
  with_reducible repeat' first
  | exact Keeps.refl _
  | assumption
  | decide
  | (extract_lets +onlyGivenNames s1; have h1 : Keeps 524288 s s1 := (by unfold s1; repeat' first | exact Keeps.refl _ | assumption | decide | refine afterDraw_keeps ?_ ?_ | (fail_if_no_progress refine Keeps.vault' ?_ _ rfl) | (intro _ _) | split | dsimp only); clear_value s1)
  | (extract_lets +onlyGivenNames x1; clear_value x1)
  | refine afterDraw_keeps ?_ ?_
  | (fail_if_no_progress refine Keeps.vault' ?_ _ rfl)
  | (intro _ _)
  | split
  | dsimp only

theorem coreReset_keeps {mk : Nat} {sk s : State} (hk : Keeps mk sk s) (hm : 8388607 &&& mk = 8388607) : Keeps mk sk (coreReset s) := by
  suffices g : Keeps 8388607 s (coreReset s) from hk.trans (g.weaken hm)
  exact { pending := rfl, now := rfl, tx := List.prefix_rfl, drawn := Nat.le_refl _, freeDraws := Nat.le_refl _
          feeds := fun h => (⟨h.1, h.2⟩ : FeedPgood s.power.a ∧ FeedPgood s.power.b)
          mem := fun h => ⟨h.1, h.2⟩
          ft := fun e => absurd e (by decide)
          cfg := fun e => absurd e (by decide)
          flash := fun e => absurd e (by decide)
          module := fun e => absurd e (by decide)
          power := fun e => absurd e (by decide)
          gov := fun e => absurd e (by decide)
          lanes := fun e => absurd e (by decide)
          weft := fun e => absurd e (by decide)
          warp := fun e => absurd e (by decide)
          loom := fun e => absurd e (by decide)
          fab := fun e => absurd e (by decide)
          shu := fun e => absurd e (by decide)
          win := fun e => absurd e (by decide)
          eng := fun e => absurd e (by decide)
          hed := fun e => absurd e (by decide)
          sel := fun e => absurd e (by decide)
          twin := fun e => absurd e (by decide)
          dob := fun e => absurd e (by decide)
          mgmt := fun e => absurd e (by decide)
          vault := fun e => absurd e (by decide)
          obs := fun e => absurd e (by decide)
          host := fun e => absurd e (by decide)
          beam := fun e => absurd e (by decide) }

theorem coreDown_keeps {mk : Nat} {sk : State} {s : State} (hk : Keeps mk sk s) (hm : 8289176 &&& mk = 8289176) :
    Keeps mk sk (coreDown s) := by
  suffices g : Keeps 8289176 s (coreDown s) from hk.trans (g.weaken hm)
  unfold coreDown
  with_reducible repeat' first
  | exact Keeps.refl _
  | assumption
  | decide
  | (extract_lets +onlyGivenNames s1; have h1 : Keeps 8289176 s s1 := (by unfold s1; repeat' first | exact Keeps.refl _ | assumption | decide | refine endSessions_keeps ?_ ?_ | refine exportedReset_keeps ?_ ?_ | refine resetPartition_keeps ?_ ?_ | refine Keeps.ite ?_ ?_ | refine Keeps.foldl ?_ _ (fun u a hu => ?_) | refine Keeps.foldlFst ?_ _ (fun u a hu => ?_) | (intro _ _) | split | dsimp only); clear_value s1)
  | (extract_lets +onlyGivenNames x1; clear_value x1)
  | refine endSessions_keeps ?_ ?_
  | refine exportedReset_keeps ?_ ?_
  | refine resetPartition_keeps ?_ ?_
  | refine Keeps.ite ?_ ?_
  | refine Keeps.foldl ?_ _ (fun u a hu => ?_)
  | refine Keeps.foldlFst ?_ _ (fun u a hu => ?_)
  | (intro _ _)
  | split
  | dsimp only

theorem warmResetCoreReset_keeps {mk : Nat} {sk : State} {s : State} (hk : Keeps mk sk s) (hm : 8388607 &&& mk = 8388607) :
    Keeps mk sk (warmResetCoreReset s) := by
  suffices g : Keeps 8388607 s (warmResetCoreReset s) from hk.trans (g.weaken hm)
  unfold warmResetCoreReset
  with_reducible repeat' first
  | exact Keeps.refl _
  | assumption
  | decide
  | (extract_lets +onlyGivenNames s1; have h1 : Keeps 8388607 s s1 := (by unfold s1; repeat' first | exact Keeps.refl _ | assumption | decide | refine changeState_keeps ?_ ?_ | refine coreDown_keeps ?_ ?_ | refine coreReset_keeps ?_ ?_ | refine driveSysreset_keeps ?_ ?_ | refine newBeamKey_keeps ?_ ?_ | refine newDebugNonce_keeps ?_ ?_ | refine noteCommit_keeps ?_ ?_ | refine Keeps.ite ?_ ?_ | (intro _ _) | split | dsimp only); clear_value s1)
  | (extract_lets +onlyGivenNames x1; clear_value x1)
  | refine changeState_keeps ?_ ?_
  | refine coreDown_keeps ?_ ?_
  | refine coreReset_keeps ?_ ?_
  | refine driveSysreset_keeps ?_ ?_
  | refine newBeamKey_keeps ?_ ?_
  | refine newDebugNonce_keeps ?_ ?_
  | refine noteCommit_keeps ?_ ?_
  | refine Keeps.ite ?_ ?_
  | (intro _ _)
  | split
  | dsimp only

theorem execWarmResetCoreReset_keeps {mk : Nat} {sk : State} {s : State} (hk : Keeps mk sk s) (hm : 8388607 &&& mk = 8388607) :
    ∃ t', execWarmResetCoreReset s = .next t' ∧ Keeps mk sk t' := by
  suffices g : ∃ t', execWarmResetCoreReset s = .next t' ∧ Keeps 8388607 s t' from g.imp fun _ h => ⟨h.1, hk.trans (h.2.weaken hm)⟩
  refine ⟨_, rfl, ?_⟩
  with_reducible repeat' first
  | exact Keeps.refl _
  | assumption
  | decide
  | refine warmResetCoreReset_keeps ?_ ?_
  | (intro _ _)
  | split
  | dsimp only

theorem boltWriteDone_keeps {mk : Nat} {sk : State} {s : State} (hk : Keeps mk sk s) (hm : 7367560 &&& mk = 7367560) :
    Keeps mk sk (boltWriteDone s) := by
  suffices g : Keeps 7367560 s (boltWriteDone s) from hk.trans (g.weaken hm)
  unfold boltWriteDone
  with_reducible repeat' first
  | exact Keeps.refl _
  | assumption
  | decide
  | (extract_lets +onlyGivenNames s1; have h1 : Keeps 7367560 s s1 := (by unfold s1; repeat' first | exact Keeps.refl _ | assumption | decide | refine boltDone_keeps ?_ ?_ | refine boltReset_keeps ?_ ?_ | refine event_keeps ?_ ?_ | refine setModule_keeps ?_ ?_ | refine Keeps.ite ?_ ?_ | (intro _ _) | split | dsimp only); clear_value s1)
  | (extract_lets +onlyGivenNames x1; clear_value x1)
  | refine boltDone_keeps ?_ ?_
  | refine boltReset_keeps ?_ ?_
  | refine event_keeps ?_ ?_
  | refine setModule_keeps ?_ ?_
  | refine Keeps.ite ?_ ?_
  | (intro _ _)
  | split
  | dsimp only

theorem execBoltWriteDone_keeps {mk : Nat} {sk : State} {s : State} (hk : Keeps mk sk s) (hm : 7367560 &&& mk = 7367560) :
    ∃ t', execBoltWriteDone s = .next t' ∧ Keeps mk sk t' := by
  suffices g : ∃ t', execBoltWriteDone s = .next t' ∧ Keeps 7367560 s t' from g.imp fun _ h => ⟨h.1, hk.trans (h.2.weaken hm)⟩
  refine ⟨_, rfl, ?_⟩
  with_reducible repeat' first
  | exact Keeps.refl _
  | assumption
  | decide
  | refine boltWriteDone_keeps ?_ ?_
  | (intro _ _)
  | split
  | dsimp only

theorem earlyHandover_keeps {mk : Nat} {sk : State} {s : State} (hk : Keeps mk sk s) (hm : 1048576 &&& mk = 1048576) :
    Keeps mk sk (earlyHandover s) := by
  suffices g : Keeps 1048576 s (earlyHandover s) from hk.trans (g.weaken hm)
  unfold earlyHandover
  with_reducible repeat' first
  | exact Keeps.refl _
  | assumption
  | decide
  | (extract_lets +onlyGivenNames s1; have h1 : Keeps 1048576 s s1 := (by unfold s1; repeat' first | exact Keeps.refl _ | assumption | decide | refine ringSet_keeps ?_ ?_ | (fail_if_no_progress refine Keeps.obs' ?_ _ rfl) | (intro _ _) | split | dsimp only); clear_value s1)
  | (extract_lets +onlyGivenNames x1; clear_value x1)
  | refine ringSet_keeps ?_ ?_
  | (fail_if_no_progress refine Keeps.obs' ?_ _ rfl)
  | (intro _ _)
  | split
  | dsimp only

theorem coreOn_keeps {mk : Nat} {sk : State} {regulated : Bool} {beamTrained : Bool} {s : State} (hk : Keeps mk sk s) (hm : 8022056 &&& mk = 8022056) :
    Keeps mk sk (coreOn regulated beamTrained s) := by
  suffices g : Keeps 8022056 s (coreOn regulated beamTrained s) from hk.trans (g.weaken hm)
  unfold coreOn
  with_reducible repeat' first
  | exact Keeps.refl _
  | assumption
  | decide
  | (extract_lets +onlyGivenNames s1; have h1 : Keeps 8022056 s s1 := (by unfold s1; repeat' first | exact Keeps.refl _ | assumption | decide | refine driveSysreset_keeps ?_ ?_ | refine earlyHandover_keeps ?_ ?_ | refine newBeamKey_keeps ?_ ?_ | refine newDebugNonce_keeps ?_ ?_ | refine putEvent_keeps ?_ ?_ | refine setModule_keeps ?_ ?_ | refine Keeps.ite ?_ ?_ | (fail_if_no_progress refine Keeps.gov' ?_ _ rfl) | (fail_if_no_progress refine Keeps.shu' ?_ _ rfl) | (fail_if_no_progress (refine Keeps.several ?_ (by refine ⟨?_, ?_, ?_, ?_, ?_, ?_, ?_, ?_, ?_, ?_, ?_, ?_, ?_, ?_, ?_, ?_, ?_, ?_, ?_, ?_⟩ <;> first | exact Or.inl rfl | exact Or.inr rfl))) | (intro _ _) | split | dsimp only); clear_value s1)
  | (extract_lets +onlyGivenNames x1; clear_value x1)
  | refine driveSysreset_keeps ?_ ?_
  | refine earlyHandover_keeps ?_ ?_
  | refine newBeamKey_keeps ?_ ?_
  | refine newDebugNonce_keeps ?_ ?_
  | refine putEvent_keeps ?_ ?_
  | refine setModule_keeps ?_ ?_
  | refine Keeps.ite ?_ ?_
  | (fail_if_no_progress refine Keeps.gov' ?_ _ rfl)
  | (fail_if_no_progress refine Keeps.shu' ?_ _ rfl)
  | (fail_if_no_progress (refine Keeps.several ?_ (by refine ⟨?_, ?_, ?_, ?_, ?_, ?_, ?_, ?_, ?_, ?_, ?_, ?_, ?_, ?_, ?_, ?_, ?_, ?_, ?_, ?_⟩ <;> first | exact Or.inl rfl | exact Or.inr rfl)))
  | (intro _ _)
  | split
  | dsimp only

theorem execCoreOn_keeps {mk : Nat} {sk : State} {regulated : Bool} {beamTrained : Bool} {s : State} (hk : Keeps mk sk s) (hm : 8022056 &&& mk = 8022056) :
    ∃ t', execCoreOn regulated beamTrained s = .next t' ∧ Keeps mk sk t' := by
  suffices g : ∃ t', execCoreOn regulated beamTrained s = .next t' ∧ Keeps 8022056 s t' from g.imp fun _ h => ⟨h.1, hk.trans (h.2.weaken hm)⟩
  refine ⟨_, rfl, ?_⟩
  with_reducible repeat' first
  | exact Keeps.refl _
  | assumption
  | decide
  | refine coreOn_keeps ?_ ?_
  | (intro _ _)
  | split
  | dsimp only


theorem journalWaiting_keeps {mk : Nat} {sk : State} {k : List HeldEvent} {s : State} (hk : Keeps mk sk s)
    (hm : 1048576 &&& mk = 1048576) : Keeps mk sk (journalWaiting k s).1 := by
  have aux : ∀ (k : List HeldEvent) (u t : State), Keeps 1048576 u t → Keeps 1048576 u (journalWaiting k t).1 := by
    intro k
    induction k with
    | nil => exact fun _ _ h => h
    | cons y l ih =>
      intro u t h
      unfold journalWaiting
      split
      · exact ih _ _ (journalChange_keeps h (by decide))
      · exact ih _ _ h
  exact hk.trans ((aux k s s (Keeps.refl s)).weaken hm)

theorem startSlot_keeps {mk : Nat} {sk : State} {s : State} {k : Nat} (hk : Keeps mk sk s) (hm : 8 &&& mk = 8) :
    Keeps mk sk (startSlot s k) := by
  suffices g : Keeps 8 s (startSlot s k) from hk.trans (g.weaken hm)
  unfold startSlot
  with_reducible repeat' first
  | exact Keeps.refl _
  | assumption
  | decide
  | refine setModule_keeps ?_ ?_
  | (intro _ _)
  | split
  | dsimp only

theorem startOther_keeps {mk : Nat} {sk : State} {s : State} {k : Nat} {other : Nat} {reason : Nat} {failed : Bool} (hk : Keeps mk sk s) (hm : 7364616 &&& mk = 7364616) :
    Keeps mk sk (startOther s k other reason failed) := by
  suffices g : Keeps 7364616 s (startOther s k other reason failed) from hk.trans (g.weaken hm)
  unfold startOther
  with_reducible repeat' first
  | exact Keeps.refl _
  | assumption
  | decide
  | (extract_lets +onlyGivenNames s1; have h1 : Keeps 7364616 s s1 := (by unfold s1; repeat' first | exact Keeps.refl _ | assumption | decide | refine event_keeps ?_ ?_ | refine setFwSlot_keeps ?_ ?_ | refine startSlot_keeps ?_ ?_ | refine Keeps.ite ?_ ?_ | (intro _ _) | split | dsimp only); clear_value s1)
  | (extract_lets +onlyGivenNames x1; clear_value x1)
  | refine event_keeps ?_ ?_
  | refine setFwSlot_keeps ?_ ?_
  | refine startSlot_keeps ?_ ?_
  | refine Keeps.ite ?_ ?_
  | (intro _ _)
  | split
  | dsimp only

theorem bootRom_keeps {mk : Nat} {sk : State} {s : State} {skip : Option Nat} (hk : Keeps mk sk s) (hm : 7364618 &&& mk = 7364618) :
    Keeps mk sk (bootRom s skip) := by
  suffices g : Keeps 7364618 s (bootRom s skip) from hk.trans (g.weaken hm)
  unfold bootRom
  with_reducible repeat' first
  | exact Keeps.refl _
  | assumption
  | decide
  | (extract_lets +onlyGivenNames s1; have h1 : Keeps 7364618 s s1 := (by unfold s1; repeat' first | exact Keeps.refl _ | assumption | decide | refine afterFree_keeps ?_ ?_ | refine enterHalted_keeps ?_ ?_ | refine event_keeps ?_ ?_ | refine startOther_keeps ?_ ?_ | refine startSlot_keeps ?_ ?_ | refine Keeps.ite ?_ ?_ | (intro _ _) | split | dsimp only); clear_value s1)
  | (extract_lets +onlyGivenNames x1; clear_value x1)
  | refine afterFree_keeps ?_ ?_
  | refine enterHalted_keeps ?_ ?_
  | refine event_keeps ?_ ?_
  | refine startOther_keeps ?_ ?_
  | refine startSlot_keeps ?_ ?_
  | refine Keeps.ite ?_ ?_
  | (intro _ _)
  | split
  | dsimp only

theorem pendingMissed_keeps {mk : Nat} {sk : State} {s : State} (hk : Keeps mk sk s) (hm : 7364616 &&& mk = 7364616) :
    Keeps mk sk (pendingMissed s) := by
  suffices g : Keeps 7364616 s (pendingMissed s) from hk.trans (g.weaken hm)
  unfold pendingMissed
  with_reducible repeat' first
  | exact Keeps.refl _
  | assumption
  | decide
  | refine event_keeps ?_ ?_
  | refine setFwSlot_keeps ?_ ?_
  | (intro _ _)
  | split
  | dsimp only

theorem startPending_keeps {mk : Nat} {sk : State} {s : State} {k : Nat} (hk : Keeps mk sk s) (hm : 7364618 &&& mk = 7364618) :
    Keeps mk sk (startPending s k) := by
  suffices g : Keeps 7364618 s (startPending s k) from hk.trans (g.weaken hm)
  unfold startPending
  with_reducible repeat' first
  | exact Keeps.refl _
  | assumption
  | decide
  | (extract_lets +onlyGivenNames s1; have h1 : Keeps 7364618 s s1 := (by unfold s1; repeat' first | exact Keeps.refl _ | assumption | decide | refine bootRom_keeps ?_ ?_ | refine event_keeps ?_ ?_ | refine setFwSlot_keeps ?_ ?_ | refine startSlot_keeps ?_ ?_ | refine Keeps.ite ?_ ?_ | (intro _ _) | split | dsimp only); clear_value s1)
  | (extract_lets +onlyGivenNames x1; clear_value x1)
  | refine bootRom_keeps ?_ ?_
  | refine event_keeps ?_ ?_
  | refine setFwSlot_keeps ?_ ?_
  | refine startSlot_keeps ?_ ?_
  | refine Keeps.ite ?_ ?_
  | (intro _ _)
  | split
  | dsimp only

theorem bootSlotSelect_keeps {mk : Nat} {sk : State} {lockstepOk : Bool} {s : State} (hk : Keeps mk sk s) (hm : 7437194 &&& mk = 7437194) :
    Keeps mk sk (bootSlotSelect lockstepOk s) := by
  suffices g : Keeps 7437194 s (bootSlotSelect lockstepOk s) from hk.trans (g.weaken hm)
  unfold bootSlotSelect
  with_reducible repeat' first
  | exact Keeps.refl _
  | assumption
  | decide
  | (extract_lets +onlyGivenNames q1; have hq1 : Keeps 7437194 s q1.1 := (by unfold q1; repeat' first | exact Keeps.refl _ | assumption | decide | refine bootRom_keeps ?_ ?_ | refine changeState_keeps ?_ ?_ | refine journalWaiting_keeps ?_ ?_ | refine moduleFatalError_keeps ?_ ?_ | refine pendingMissed_keeps ?_ ?_ | refine setModule_keeps ?_ ?_ | refine startPending_keeps ?_ ?_ | refine Keeps.ite ?_ ?_ | refine Keeps.iteFst ?_ ?_ | (fail_if_no_progress refine Keeps.obs' ?_ _ rfl) | (intro _ _) | split | dsimp only); clear_value q1)
  | (extract_lets +onlyGivenNames s1; have h1 : Keeps 7437194 s s1 := (by unfold s1; repeat' first | exact Keeps.refl _ | assumption | decide | refine bootRom_keeps ?_ ?_ | refine changeState_keeps ?_ ?_ | refine journalWaiting_keeps ?_ ?_ | refine moduleFatalError_keeps ?_ ?_ | refine pendingMissed_keeps ?_ ?_ | refine setModule_keeps ?_ ?_ | refine startPending_keeps ?_ ?_ | refine Keeps.ite ?_ ?_ | refine Keeps.iteFst ?_ ?_ | (fail_if_no_progress refine Keeps.obs' ?_ _ rfl) | (intro _ _) | split | dsimp only); clear_value s1)
  | (extract_lets +onlyGivenNames x1; clear_value x1)
  | refine bootRom_keeps ?_ ?_
  | refine changeState_keeps ?_ ?_
  | refine journalWaiting_keeps ?_ ?_
  | refine moduleFatalError_keeps ?_ ?_
  | refine pendingMissed_keeps ?_ ?_
  | refine setModule_keeps ?_ ?_
  | refine startPending_keeps ?_ ?_
  | refine Keeps.ite ?_ ?_
  | refine Keeps.iteFst ?_ ?_
  | (fail_if_no_progress refine Keeps.obs' ?_ _ rfl)
  | (intro _ _)
  | split
  | dsimp only

theorem execBootSlotSelect_keeps {mk : Nat} {sk : State} {lockstepOk : Bool} {s : State} (hk : Keeps mk sk s) (hm : 7437194 &&& mk = 7437194) :
    ∃ t', execBootSlotSelect lockstepOk s = .next t' ∧ Keeps mk sk t' := by
  suffices g : ∃ t', execBootSlotSelect lockstepOk s = .next t' ∧ Keeps 7437194 s t' from g.imp fun _ h => ⟨h.1, hk.trans (h.2.weaken hm)⟩
  refine ⟨_, rfl, ?_⟩
  with_reducible repeat' first
  | exact Keeps.refl _
  | assumption
  | decide
  | refine bootSlotSelect_keeps ?_ ?_
  | (intro _ _)
  | split
  | dsimp only

theorem storedInForce_keeps {mk : Nat} {sk : State} {s : State} {f : Nat → Bool} (hk : Keeps mk sk s) (hm : 2 &&& mk = 2) :
    Keeps mk sk (storedInForce s f) := by
  suffices g : Keeps 2 s (storedInForce s f) from hk.trans (g.weaken hm)
  unfold storedInForce
  with_reducible repeat' first
  | exact Keeps.refl _
  | assumption
  | decide
  | refine Keeps.foldl ?_ _ (fun u a hu => ?_)
  | refine Keeps.foldlFst ?_ _ (fun u a hu => ?_)
  | (fail_if_no_progress refine Keeps.cfg' ?_ _ rfl)
  | (intro _ _)
  | split
  | dsimp only

theorem spoolStart_keeps {mk : Nat} {sk : State} {s : State} (hk : Keeps mk sk s) (hm : 7364610 &&& mk = 7364610) :
    Keeps mk sk (spoolStart s) := by
  suffices g : Keeps 7364610 s (spoolStart s) from hk.trans (g.weaken hm)
  unfold spoolStart
  with_reducible repeat' first
  | exact Keeps.refl _
  | assumption
  | decide
  | (extract_lets +onlyGivenNames s1; have h1 : Keeps 7364610 s s1 := (by unfold s1; repeat' first | exact Keeps.refl _ | assumption | decide | refine putEvent_keeps ?_ ?_ | refine restartRing_keeps ?_ ?_ | refine storedInForce_keeps ?_ ?_ | refine Keeps.ite ?_ ?_ | refine Keeps.foldl ?_ _ (fun u a hu => ?_) | refine Keeps.foldlFst ?_ _ (fun u a hu => ?_) | (fail_if_no_progress refine Keeps.obs' ?_ _ rfl) | (intro _ _) | split | dsimp only); clear_value s1)
  | (extract_lets +onlyGivenNames x1; clear_value x1)
  | refine putEvent_keeps ?_ ?_
  | refine restartRing_keeps ?_ ?_
  | refine storedInForce_keeps ?_ ?_
  | refine Keeps.ite ?_ ?_
  | refine Keeps.foldl ?_ _ (fun u a hu => ?_)
  | refine Keeps.foldlFst ?_ _ (fun u a hu => ?_)
  | (fail_if_no_progress refine Keeps.obs' ?_ _ rfl)
  | (intro _ _)
  | split
  | dsimp only

theorem configReports_keeps {mk : Nat} {sk : State} {s : State} (hk : Keeps mk sk s) (hm : 7364616 &&& mk = 7364616) :
    Keeps mk sk (configReports s) := by
  suffices g : Keeps 7364616 s (configReports s) from hk.trans (g.weaken hm)
  unfold configReports
  with_reducible repeat' first
  | exact Keeps.refl _
  | assumption
  | decide
  | (extract_lets +onlyGivenNames s1; have h1 : Keeps 7364616 s s1 := (by unfold s1; repeat' first | exact Keeps.refl _ | assumption | decide | refine commitLost_keeps ?_ ?_ | refine event_keeps ?_ ?_ | refine setModule_keeps ?_ ?_ | refine Keeps.ite ?_ ?_ | (intro _ _) | split | dsimp only); clear_value s1)
  | (extract_lets +onlyGivenNames x1; clear_value x1)
  | refine commitLost_keeps ?_ ?_
  | refine event_keeps ?_ ?_
  | refine setModule_keeps ?_ ?_
  | refine Keeps.ite ?_ ?_
  | (intro _ _)
  | split
  | dsimp only

theorem reachConfig_keeps {mk : Nat} {sk : State} {s : State} (hk : Keeps mk sk s) (hm : 7364618 &&& mk = 7364618) :
    Keeps mk sk (reachConfig s) := by
  suffices g : Keeps 7364618 s (reachConfig s) from hk.trans (g.weaken hm)
  unfold reachConfig
  with_reducible repeat' first
  | exact Keeps.refl _
  | assumption
  | decide
  | (extract_lets +onlyGivenNames s1; have h1 : Keeps 7364618 s s1 := (by unfold s1; repeat' first | exact Keeps.refl _ | assumption | decide | refine changeState_keeps ?_ ?_ | refine configReports_keeps ?_ ?_ | refine event_keeps ?_ ?_ | refine releaseWarm_keeps ?_ ?_ | refine setModule_keeps ?_ ?_ | refine spoolStart_keeps ?_ ?_ | refine Keeps.ite ?_ ?_ | (intro _ _) | split | dsimp only); clear_value s1)
  | (extract_lets +onlyGivenNames x1; clear_value x1)
  | refine changeState_keeps ?_ ?_
  | refine configReports_keeps ?_ ?_
  | refine event_keeps ?_ ?_
  | refine releaseWarm_keeps ?_ ?_
  | refine setModule_keeps ?_ ?_
  | refine spoolStart_keeps ?_ ?_
  | refine Keeps.ite ?_ ?_
  | (intro _ _)
  | split
  | dsimp only

theorem bootHealthFailed_keeps {mk : Nat} {sk : State} {s : State} (hk : Keeps mk sk s) (hm : 7364618 &&& mk = 7364618) :
    Keeps mk sk (bootHealthFailed s) := by
  suffices g : Keeps 7364618 s (bootHealthFailed s) from hk.trans (g.weaken hm)
  unfold bootHealthFailed
  with_reducible repeat' first
  | exact Keeps.refl _
  | assumption
  | decide
  | (extract_lets +onlyGivenNames s1; have h1 : Keeps 7364618 s s1 := (by unfold s1; repeat' first | exact Keeps.refl _ | assumption | decide | refine bootRom_keeps ?_ ?_ | refine event_keeps ?_ ?_ | refine setFwSlot_keeps ?_ ?_ | refine setModule_keeps ?_ ?_ | refine Keeps.ite ?_ ?_ | (intro _ _) | split | dsimp only); clear_value s1)
  | (extract_lets +onlyGivenNames x1; clear_value x1)
  | refine bootRom_keeps ?_ ?_
  | refine event_keeps ?_ ?_
  | refine setFwSlot_keeps ?_ ?_
  | refine setModule_keeps ?_ ?_
  | refine Keeps.ite ?_ ?_
  | (intro _ _)
  | split
  | dsimp only

theorem configEntry_keeps {mk : Nat} {sk : State} {healthOk : Bool} {s : State} (hk : Keeps mk sk s) (hm : 7364618 &&& mk = 7364618) :
    Keeps mk sk (configEntry healthOk s) := by
  suffices g : Keeps 7364618 s (configEntry healthOk s) from hk.trans (g.weaken hm)
  unfold configEntry
  with_reducible repeat' first
  | exact Keeps.refl _
  | assumption
  | decide
  | refine bootHealthFailed_keeps ?_ ?_
  | refine reachConfig_keeps ?_ ?_
  | refine Keeps.ite ?_ ?_
  | (intro _ _)
  | split
  | dsimp only

theorem execConfigEntry_keeps {mk : Nat} {sk : State} {healthOk : Bool} {s : State} (hk : Keeps mk sk s) (hm : 7364618 &&& mk = 7364618) :
    ∃ t', execConfigEntry healthOk s = .next t' ∧ Keeps mk sk t' := by
  suffices g : ∃ t', execConfigEntry healthOk s = .next t' ∧ Keeps 7364618 s t' from g.imp fun _ h => ⟨h.1, hk.trans (h.2.weaken hm)⟩
  refine ⟨_, rfl, ?_⟩
  with_reducible repeat' first
  | exact Keeps.refl _
  | assumption
  | decide
  | refine configEntry_keeps ?_ ?_
  | (intro _ _)
  | split
  | dsimp only

theorem rosterReport_keeps {mk : Nat} {sk : State} {s : State} (hk : Keeps mk sk s) (hm : 7366656 &&& mk = 7366656) :
    Keeps mk sk (rosterReport s) := by
  suffices g : Keeps 7366656 s (rosterReport s) from hk.trans (g.weaken hm)
  unfold rosterReport
  with_reducible repeat' first
  | exact Keeps.refl _
  | assumption
  | decide
  | (extract_lets +onlyGivenNames s1; have h1 : Keeps 7366656 s s1 := (by unfold s1; repeat' first | exact Keeps.refl _ | assumption | decide | refine event_keeps ?_ ?_ | refine Keeps.ite ?_ ?_ | refine Keeps.iteFst ?_ ?_ | refine Keeps.foldl ?_ _ (fun u a hu => ?_) | refine Keeps.foldlFst ?_ _ (fun u a hu => ?_) | (fail_if_no_progress refine Keeps.shu' ?_ _ rfl) | (intro _ _) | split | dsimp only); clear_value s1)
  | (extract_lets +onlyGivenNames x1; clear_value x1)
  | refine event_keeps ?_ ?_
  | refine Keeps.ite ?_ ?_
  | refine Keeps.iteFst ?_ ?_
  | refine Keeps.foldl ?_ _ (fun u a hu => ?_)
  | refine Keeps.foldlFst ?_ _ (fun u a hu => ?_)
  | (fail_if_no_progress refine Keeps.shu' ?_ _ rfl)
  | (intro _ _)
  | split
  | dsimp only

theorem portsStart_keeps {mk : Nat} {sk : State} {s : State} (hk : Keeps mk sk s) (hm : 7365056 &&& mk = 7365056) :
    Keeps mk sk (portsStart s) := by
  suffices g : Keeps 7365056 s (portsStart s) from hk.trans (g.weaken hm)
  unfold portsStart
  with_reducible repeat' first
  | exact Keeps.refl _
  | assumption
  | decide
  | (extract_lets +onlyGivenNames s1; have h1 : Keeps 7365056 s s1 := (by unfold s1; repeat' first | exact Keeps.refl _ | assumption | decide | refine enterPartition_keeps ?_ ?_ | refine weftEnabled_keeps ?_ ?_ | refine Keeps.foldl ?_ _ (fun u a hu => ?_) | refine Keeps.foldlFst ?_ _ (fun u a hu => ?_) | (intro _ _) | split | dsimp only); clear_value s1)
  | (extract_lets +onlyGivenNames x1; clear_value x1)
  | refine enterPartition_keeps ?_ ?_
  | refine weftEnabled_keeps ?_ ?_
  | refine Keeps.foldl ?_ _ (fun u a hu => ?_)
  | refine Keeps.foldlFst ?_ _ (fun u a hu => ?_)
  | (intro _ _)
  | split
  | dsimp only

theorem storedLimits_keeps {mk : Nat} {sk : State} {s : State} (hk : Keeps mk sk s) (hm : 16 &&& mk = 16) :
    Keeps mk sk (storedLimits s) := by
  suffices g : Keeps 16 s (storedLimits s) from hk.trans (g.weaken hm)
  unfold storedLimits
  try dsimp only
  repeat' first
  | with_reducible exact Keeps.refl _
  | with_reducible assumption
  | with_reducible decide
  | with_reducible refine setFeed_keeps ?_ ?_ ?_
  | with_reducible refine Keeps.foldl ?_ _ (fun u a hu => ?_)
  | with_reducible refine Keeps.foldlFst ?_ _ (fun u a hu => ?_)
  | split
  | (intro hp hq; exact feedPgood_of hp _)
  | (intro hp hq; have hf := feedPgood_of hp f; have hg := feedPgood_of hq f; simp_all [FeedPgood, FeedState.enter, FeedState.gateOff, FeedState.sample]; done)
  | (intro hp; first | exact ⟨hp.1, hp.2⟩ | (have hf := feedPgood_of hp f; cases hv : (feedOf s f).pgood <;> simp_all [FeedPgood, FeedState.enter, FeedState.gateOff, FeedState.sample] <;> done))
  | (intro _ _)

theorem storedConfigCommit_keeps {mk : Nat} {sk : State} {s : State} (hk : Keeps mk sk s) (hm : 7830490 &&& mk = 7830490) :
    Keeps mk sk (storedConfigCommit s) := by
  suffices g : Keeps 7830490 s (storedConfigCommit s) from hk.trans (g.weaken hm)
  unfold storedConfigCommit
  with_reducible repeat' first
  | exact Keeps.refl _
  | assumption
  | decide
  | (extract_lets +onlyGivenNames s1; have h1 : Keeps 7830490 s s1 := (by unfold s1; repeat' first | exact Keeps.refl _ | assumption | decide | refine activate_keeps ?_ ?_ | refine changeState_keeps ?_ ?_ | refine event_keeps ?_ ?_ | refine poolChanged_keeps ?_ ?_ | refine portsStart_keeps ?_ ?_ | refine rosterReport_keeps ?_ ?_ | refine setModule_keeps ?_ ?_ | refine storedLimits_keeps ?_ ?_ | refine takeClaims_keeps ?_ ?_ | refine twinCommitted_keeps ?_ ?_ | refine Keeps.ite ?_ ?_ | (fail_if_no_progress refine Keeps.cfg' ?_ _ rfl) | (fail_if_no_progress refine Keeps.hed' ?_ _ rfl) | (fail_if_no_progress refine Keeps.mgmt' ?_ _ rfl) | (fail_if_no_progress (refine Keeps.several ?_ (by refine ⟨?_, ?_, ?_, ?_, ?_, ?_, ?_, ?_, ?_, ?_, ?_, ?_, ?_, ?_, ?_, ?_, ?_, ?_, ?_, ?_⟩ <;> first | exact Or.inl rfl | exact Or.inr rfl))) | (intro _ _) | split | dsimp only); clear_value s1)
  | (extract_lets +onlyGivenNames x1; clear_value x1)
  | refine activate_keeps ?_ ?_
  | refine changeState_keeps ?_ ?_
  | refine event_keeps ?_ ?_
  | refine poolChanged_keeps ?_ ?_
  | refine portsStart_keeps ?_ ?_
  | refine rosterReport_keeps ?_ ?_
  | refine setModule_keeps ?_ ?_
  | refine storedLimits_keeps ?_ ?_
  | refine takeClaims_keeps ?_ ?_
  | refine twinCommitted_keeps ?_ ?_
  | refine Keeps.ite ?_ ?_
  | (fail_if_no_progress refine Keeps.cfg' ?_ _ rfl)
  | (fail_if_no_progress refine Keeps.hed' ?_ _ rfl)
  | (fail_if_no_progress refine Keeps.mgmt' ?_ _ rfl)
  | (fail_if_no_progress (refine Keeps.several ?_ (by refine ⟨?_, ?_, ?_, ?_, ?_, ?_, ?_, ?_, ?_, ?_, ?_, ?_, ?_, ?_, ?_, ?_, ?_, ?_, ?_, ?_⟩ <;> first | exact Or.inl rfl | exact Or.inr rfl)))
  | (intro _ _)
  | split
  | dsimp only

theorem execStoredConfigCommit_keeps {mk : Nat} {sk : State} {s : State} (hk : Keeps mk sk s) (hm : 8388570 &&& mk = 8388570) :
    ∃ t', execStoredConfigCommit s = .next t' ∧ Keeps mk sk t' := by
  suffices g : ∃ t', execStoredConfigCommit s = .next t' ∧ Keeps 8388570 s t' from g.imp fun _ h => ⟨h.1, hk.trans (h.2.weaken hm)⟩
  refine ⟨_, rfl, ?_⟩
  with_reducible repeat' first
  | exact Keeps.refl _
  | assumption
  | decide
  | refine settle_keeps ?_ ?_
  | refine storedConfigCommit_keeps ?_ ?_
  | (intro _ _)
  | split
  | dsimp only

theorem serviceEntry_keeps {mk : Nat} {sk : State} {tried : Bool} {s : State} (hk : Keeps mk sk s) (hm : 7364616 &&& mk = 7364616) :
    Keeps mk sk (serviceEntry tried s) := by
  suffices g : Keeps 7364616 s (serviceEntry tried s) from hk.trans (g.weaken hm)
  unfold serviceEntry
  with_reducible repeat' first
  | exact Keeps.refl _
  | assumption
  | decide
  | refine changeState_keeps ?_ ?_
  | refine health_keeps ?_ ?_
  | refine Keeps.ite ?_ ?_
  | (intro _ _)
  | split
  | dsimp only

theorem execServiceEntry_keeps {mk : Nat} {sk : State} {tried : Bool} {s : State} (hk : Keeps mk sk s) (hm : 8388504 &&& mk = 8388504) :
    ∃ t', execServiceEntry tried s = .next t' ∧ Keeps mk sk t' := by
  suffices g : ∃ t', execServiceEntry tried s = .next t' ∧ Keeps 8388504 s t' from g.imp fun _ h => ⟨h.1, hk.trans (h.2.weaken hm)⟩
  refine ⟨_, rfl, ?_⟩
  with_reducible repeat' first
  | exact Keeps.refl _
  | assumption
  | decide
  | refine serviceEntry_keeps ?_ ?_
  | refine settle_keeps ?_ ?_
  | (intro _ _)
  | split
  | dsimp only

theorem enterTest_keeps {mk : Nat} {sk : State} {scheduled : Bool} {s : State} (hk : Keeps mk sk s) (hm : 7364616 &&& mk = 7364616) :
    Keeps mk sk (enterTest scheduled s) := by
  suffices g : Keeps 7364616 s (enterTest scheduled s) from hk.trans (g.weaken hm)
  unfold enterTest
  with_reducible repeat' first
  | exact Keeps.refl _
  | assumption
  | decide
  | refine changeState_keeps ?_ ?_
  | refine event_keeps ?_ ?_
  | refine requestWarm_keeps ?_ ?_
  | refine setModule_keeps ?_ ?_
  | refine Keeps.ite ?_ ?_
  | (intro _ _)
  | split
  | dsimp only

theorem actTestEnter_keeps {mk : Nat} {sk : State} {sess : Nat} {s : State} (hk : Keeps mk sk s) (hm : 7364616 &&& mk = 7364616) :
    Keeps mk sk (actTestEnter sess s) := by
  suffices g : Keeps 7364616 s (actTestEnter sess s) from hk.trans (g.weaken hm)
  unfold actTestEnter
  with_reducible repeat' first
  | exact Keeps.refl _
  | assumption
  | decide
  | (extract_lets +onlyGivenNames s1; have h1 : Keeps 7364616 s s1 := (by unfold s1; repeat' first | exact Keeps.refl _ | assumption | decide | refine enterTest_keeps ?_ ?_ | refine setModule_keeps ?_ ?_ | refine Keeps.ite ?_ ?_ | (intro _ _) | split | dsimp only); clear_value s1)
  | (extract_lets +onlyGivenNames x1; clear_value x1)
  | refine enterTest_keeps ?_ ?_
  | refine setModule_keeps ?_ ?_
  | refine Keeps.ite ?_ ?_
  | (intro _ _)
  | split
  | dsimp only

theorem execTestEnterCmd_keeps {mk : Nat} {sk : State} {sess : Nat} {value : Nat} {s : State} (hk : Keeps mk sk s) (hm : 7626760 &&& mk = 7626760) :
    ∃ t', execTestEnterCmd sess value s = .next t' ∧ Keeps mk sk t' := by
  suffices g : ∃ t', execTestEnterCmd sess value s = .next t' ∧ Keeps 7626760 s t' from g.imp fun _ h => ⟨h.1, hk.trans (h.2.weaken hm)⟩
  refine ⟨_, rfl, ?_⟩
  with_reducible repeat' first
  | exact Keeps.refl _
  | assumption
  | decide
  | refine actTestEnter_keeps ?_ ?_
  | refine actWrite_keeps ?_ rfl (fun u hu => ?_) (fun u hu => ?_)
  | refine onOne_keeps ?_ (fun u hu => ?_)
  | refine Keeps.ite ?_ ?_
  | simp only [id_eq]
  | (intro _ _)
  | split
  | dsimp only

theorem testEntryTime_keeps {mk : Nat} {sk : State} {s : State} (hk : Keeps mk sk s) (hm : 7364616 &&& mk = 7364616) :
    Keeps mk sk (testEntryTime s) := by
  suffices g : Keeps 7364616 s (testEntryTime s) from hk.trans (g.weaken hm)
  unfold testEntryTime
  with_reducible repeat' first
  | exact Keeps.refl _
  | assumption
  | decide
  | refine enterTest_keeps ?_ ?_
  | refine setModule_keeps ?_ ?_
  | refine Keeps.ite ?_ ?_
  | (intro _ _)
  | split
  | dsimp only

theorem execTestEntryTime_keeps {mk : Nat} {sk : State} {s : State} (hk : Keeps mk sk s) (hm : 7364616 &&& mk = 7364616) :
    ∃ t', execTestEntryTime s = .next t' ∧ Keeps mk sk t' := by
  suffices g : ∃ t', execTestEntryTime s = .next t' ∧ Keeps 7364616 s t' from g.imp fun _ h => ⟨h.1, hk.trans (h.2.weaken hm)⟩
  refine ⟨_, rfl, ?_⟩
  with_reducible repeat' first
  | exact Keeps.refl _
  | assumption
  | decide
  | refine testEntryTime_keeps ?_ ?_
  | (intro _ _)
  | split
  | dsimp only

theorem loadRefused_keeps {mk : Nat} {sk : State} {sess : Nat} {s : State} (hk : Keeps mk sk s) (hm : 7364608 &&& mk = 7364608) :
    Keeps mk sk (loadRefused sess s) := by
  suffices g : Keeps 7364608 s (loadRefused sess s) from hk.trans (g.weaken hm)
  unfold loadRefused
  with_reducible repeat' first
  | exact Keeps.refl _
  | assumption
  | decide
  | (extract_lets +onlyGivenNames s1; have h1 : Keeps 7364608 s s1 := (by unfold s1; repeat' first | exact Keeps.refl _ | assumption | decide | refine event_keeps ?_ ?_ | refine Keeps.ite ?_ ?_ | (intro _ _) | split | dsimp only); clear_value s1)
  | (extract_lets +onlyGivenNames x1; clear_value x1)
  | refine event_keeps ?_ ?_
  | refine Keeps.ite ?_ ?_
  | (intro _ _)
  | split
  | dsimp only

theorem actLoadBegin_keeps {mk : Nat} {sk : State} {sess : Nat} {s : State} (hk : Keeps mk sk s) (hm : 7626760 &&& mk = 7626760) :
    Keeps mk sk (actLoadBegin sess s) := by
  suffices g : Keeps 7626760 s (actLoadBegin sess s) from hk.trans (g.weaken hm)
  unfold actLoadBegin
  with_reducible repeat' first
  | exact Keeps.refl _
  | assumption
  | decide
  | (extract_lets +onlyGivenNames s1; have h1 : Keeps 7626760 s s1 := (by unfold s1; repeat' first | exact Keeps.refl _ | assumption | decide | refine claim_keeps ?_ ?_ | refine setFwSlot_keeps ?_ ?_ | refine setModule_keeps ?_ ?_ | (intro _ _) | split | dsimp only); clear_value s1)
  | (extract_lets +onlyGivenNames x1; clear_value x1)
  | refine claim_keeps ?_ ?_
  | refine setFwSlot_keeps ?_ ?_
  | refine setModule_keeps ?_ ?_
  | (intro _ _)
  | split
  | dsimp only

theorem execFwLoadBegin_keeps {mk : Nat} {sk : State} {sess : Nat} {value : Nat} {s : State} (hk : Keeps mk sk s) (hm : 7626760 &&& mk = 7626760) :
    ∃ t', execFwLoadBegin sess value s = .next t' ∧ Keeps mk sk t' := by
  suffices g : ∃ t', execFwLoadBegin sess value s = .next t' ∧ Keeps 7626760 s t' from g.imp fun _ h => ⟨h.1, hk.trans (h.2.weaken hm)⟩
  refine ⟨_, rfl, ?_⟩
  with_reducible repeat' first
  | exact Keeps.refl _
  | assumption
  | decide
  | refine actLoadBegin_keeps ?_ ?_
  | refine actWrite_keeps ?_ rfl (fun u hu => ?_) (fun u hu => ?_)
  | refine loadRefused_keeps ?_ ?_
  | refine onOne_keeps ?_ (fun u hu => ?_)
  | refine Keeps.ite ?_ ?_
  | (intro _ _)
  | split
  | dsimp only

theorem fwEraseDone_keeps {mk : Nat} {sk : State} {s : State} (hk : Keeps mk sk s) (hm : 7364616 &&& mk = 7364616) :
    Keeps mk sk (fwEraseDone s) := by
  suffices g : Keeps 7364616 s (fwEraseDone s) from hk.trans (g.weaken hm)
  unfold fwEraseDone
  with_reducible repeat' first
  | exact Keeps.refl _
  | assumption
  | decide
  | (extract_lets +onlyGivenNames s1; have h1 : Keeps 7364616 s s1 := (by unfold s1; repeat' first | exact Keeps.refl _ | assumption | decide | refine event_keeps ?_ ?_ | refine setFwSlot_keeps ?_ ?_ | refine setModule_keeps ?_ ?_ | refine Keeps.ite ?_ ?_ | (intro _ _) | split | dsimp only); clear_value s1)
  | (extract_lets +onlyGivenNames x1; clear_value x1)
  | refine event_keeps ?_ ?_
  | refine setFwSlot_keeps ?_ ?_
  | refine setModule_keeps ?_ ?_
  | refine Keeps.ite ?_ ?_
  | (intro _ _)
  | split
  | dsimp only

theorem execFwEraseDone_keeps {mk : Nat} {sk : State} {s : State} (hk : Keeps mk sk s) (hm : 7364616 &&& mk = 7364616) :
    ∃ t', execFwEraseDone s = .next t' ∧ Keeps mk sk t' := by
  suffices g : ∃ t', execFwEraseDone s = .next t' ∧ Keeps 7364616 s t' from g.imp fun _ h => ⟨h.1, hk.trans (h.2.weaken hm)⟩
  refine ⟨_, rfl, ?_⟩
  with_reducible repeat' first
  | exact Keeps.refl _
  | assumption
  | decide
  | refine fwEraseDone_keeps ?_ ?_
  | (intro _ _)
  | split
  | dsimp only

theorem blockRefused_keeps {mk : Nat} {sk : State} {sess : Nat} {s : State} (hk : Keeps mk sk s) (hm : 7364608 &&& mk = 7364608) :
    Keeps mk sk (blockRefused sess s) := by
  suffices g : Keeps 7364608 s (blockRefused sess s) from hk.trans (g.weaken hm)
  unfold blockRefused
  with_reducible repeat' first
  | exact Keeps.refl _
  | assumption
  | decide
  | (extract_lets +onlyGivenNames s1; have h1 : Keeps 7364608 s s1 := (by unfold s1; repeat' first | exact Keeps.refl _ | assumption | decide | refine event_keeps ?_ ?_ | refine Keeps.ite ?_ ?_ | (intro _ _) | split | dsimp only); clear_value s1)
  | (extract_lets +onlyGivenNames x1; clear_value x1)
  | refine event_keeps ?_ ?_
  | refine Keeps.ite ?_ ?_
  | (intro _ _)
  | split
  | dsimp only

theorem actBlock_keeps {mk : Nat} {sk : State} {sess : Nat} {data : List Byte} {s : State} (hk : Keeps mk sk s) (hm : 8 &&& mk = 8) :
    Keeps mk sk (actBlock sess data s) := by
  suffices g : Keeps 8 s (actBlock sess data s) from hk.trans (g.weaken hm)
  unfold actBlock
  with_reducible repeat' first
  | exact Keeps.refl _
  | assumption
  | decide
  | (extract_lets +onlyGivenNames s1; have h1 : Keeps 8 s s1 := (by unfold s1; repeat' first | exact Keeps.refl _ | assumption | decide | refine setFwSlot_keeps ?_ ?_ | refine Keeps.ite ?_ ?_ | (intro _ _) | split | dsimp only); clear_value s1)
  | (extract_lets +onlyGivenNames x1; clear_value x1)
  | refine setFwSlot_keeps ?_ ?_
  | refine Keeps.ite ?_ ?_
  | (intro _ _)
  | split
  | dsimp only

theorem execFwBlockData_keeps {mk : Nat} {sk : State} {sess : Nat} {data : List Byte} {s : State} (hk : Keeps mk sk s) (hm : 7626760 &&& mk = 7626760) :
    ∃ t', execFwBlockData sess data s = .next t' ∧ Keeps mk sk t' := by
  suffices g : ∃ t', execFwBlockData sess data s = .next t' ∧ Keeps 7626760 s t' from g.imp fun _ h => ⟨h.1, hk.trans (h.2.weaken hm)⟩
  refine ⟨_, rfl, ?_⟩
  with_reducible repeat' first
  | exact Keeps.refl _
  | assumption
  | decide
  | refine actBlock_keeps ?_ ?_
  | refine actWrite_keeps ?_ rfl (fun u hu => ?_) (fun u hu => ?_)
  | refine blockRefused_keeps ?_ ?_
  | refine Keeps.ite ?_ ?_
  | (intro _ _)
  | split
  | dsimp only

theorem actLoadEnd_keeps {mk : Nat} {sk : State} {s : State} (hk : Keeps mk sk s) (hm : 8 &&& mk = 8) :
    Keeps mk sk (actLoadEnd s) := by
  suffices g : Keeps 8 s (actLoadEnd s) from hk.trans (g.weaken hm)
  unfold actLoadEnd
  with_reducible repeat' first
  | exact Keeps.refl _
  | assumption
  | decide
  | refine setModule_keeps ?_ ?_
  | (intro _ _)
  | split
  | dsimp only

theorem execFwLoadEnd_keeps {mk : Nat} {sk : State} {sess : Nat} {value : Nat} {s : State} (hk : Keeps mk sk s) (hm : 1310728 &&& mk = 1310728) :
    ∃ t', execFwLoadEnd sess value s = .next t' ∧ Keeps mk sk t' := by
  suffices g : ∃ t', execFwLoadEnd sess value s = .next t' ∧ Keeps 1310728 s t' from g.imp fun _ h => ⟨h.1, hk.trans (h.2.weaken hm)⟩
  refine ⟨_, rfl, ?_⟩
  with_reducible repeat' first
  | exact Keeps.refl _
  | assumption
  | decide
  | refine actLoadEnd_keeps ?_ ?_
  | refine actWrite_keeps ?_ rfl (fun u hu => ?_) (fun u hu => ?_)
  | refine onOne_keeps ?_ (fun u hu => ?_)
  | refine Keeps.ite ?_ ?_
  | simp only [id_eq]
  | (intro _ _)
  | split
  | dsimp only

theorem fwVerifyDone_keeps {mk : Nat} {sk : State} {flashOk : Bool} {s : State} (hk : Keeps mk sk s) (hm : 7626762 &&& mk = 7626762) :
    Keeps mk sk (fwVerifyDone flashOk s) := by
  suffices g : Keeps 7626762 s (fwVerifyDone flashOk s) from hk.trans (g.weaken hm)
  unfold fwVerifyDone
  with_reducible repeat' first
  | exact Keeps.refl _
  | assumption
  | decide
  | (extract_lets +onlyGivenNames s1; have h1 : Keeps 7626762 s s1 := (by unfold s1; repeat' first | exact Keeps.refl _ | assumption | decide | refine claim_keeps ?_ ?_ | refine event_keeps ?_ ?_ | refine setFwSlot_keeps ?_ ?_ | refine setModule_keeps ?_ ?_ | refine Keeps.ite ?_ ?_ | (intro _ _) | split | dsimp only); clear_value s1)
  | (extract_lets +onlyGivenNames x1; clear_value x1)
  | refine claim_keeps ?_ ?_
  | refine event_keeps ?_ ?_
  | refine setFwSlot_keeps ?_ ?_
  | refine setModule_keeps ?_ ?_
  | refine Keeps.ite ?_ ?_
  | (intro _ _)
  | split
  | dsimp only

theorem execFwVerifyDone_keeps {mk : Nat} {sk : State} {flashOk : Bool} {s : State} (hk : Keeps mk sk s) (hm : 7626762 &&& mk = 7626762) :
    ∃ t', execFwVerifyDone flashOk s = .next t' ∧ Keeps mk sk t' := by
  suffices g : ∃ t', execFwVerifyDone flashOk s = .next t' ∧ Keeps 7626762 s t' from g.imp fun _ h => ⟨h.1, hk.trans (h.2.weaken hm)⟩
  refine ⟨_, rfl, ?_⟩
  with_reducible repeat' first
  | exact Keeps.refl _
  | assumption
  | decide
  | refine fwVerifyDone_keeps ?_ ?_
  | (intro _ _)
  | split
  | dsimp only

theorem activateRefused_keeps {mk : Nat} {sk : State} {sess : Nat} {s : State} (hk : Keeps mk sk s) (hm : 7364608 &&& mk = 7364608) :
    Keeps mk sk (activateRefused sess s) := by
  suffices g : Keeps 7364608 s (activateRefused sess s) from hk.trans (g.weaken hm)
  unfold activateRefused
  with_reducible repeat' first
  | exact Keeps.refl _
  | assumption
  | decide
  | (extract_lets +onlyGivenNames s1; have h1 : Keeps 7364608 s s1 := (by unfold s1; repeat' first | exact Keeps.refl _ | assumption | decide | refine event_keeps ?_ ?_ | refine Keeps.ite ?_ ?_ | (intro _ _) | split | dsimp only); clear_value s1)
  | (extract_lets +onlyGivenNames x1; clear_value x1)
  | refine event_keeps ?_ ?_
  | refine Keeps.ite ?_ ?_
  | (intro _ _)
  | split
  | dsimp only

theorem startActivation_keeps {mk : Nat} {sk : State} {s : State} {k : Nat} {mode : Nat} {unlocked : Bool} (hk : Keeps mk sk s) (hm : 7364616 &&& mk = 7364616) :
    Keeps mk sk (startActivation s k mode unlocked) := by
  suffices g : Keeps 7364616 s (startActivation s k mode unlocked) from hk.trans (g.weaken hm)
  unfold startActivation
  with_reducible repeat' first
  | exact Keeps.refl _
  | assumption
  | decide
  | (extract_lets +onlyGivenNames s1; have h1 : Keeps 7364616 s s1 := (by unfold s1; repeat' first | exact Keeps.refl _ | assumption | decide | refine beginPause_keeps ?_ ?_ | refine event_keeps ?_ ?_ | refine requestWarm_keeps ?_ ?_ | refine setModule_keeps ?_ ?_ | refine Keeps.ite ?_ ?_ | (intro _ _) | split | dsimp only); clear_value s1)
  | (extract_lets +onlyGivenNames x1; clear_value x1)
  | refine beginPause_keeps ?_ ?_
  | refine event_keeps ?_ ?_
  | refine requestWarm_keeps ?_ ?_
  | refine setModule_keeps ?_ ?_
  | refine Keeps.ite ?_ ?_
  | (intro _ _)
  | split
  | dsimp only

theorem actActivate_keeps {mk : Nat} {sk : State} {sess : Nat} {s : State} (hk : Keeps mk sk s) (hm : 7364616 &&& mk = 7364616) :
    Keeps mk sk (actActivate sess s) := by
  suffices g : Keeps 7364616 s (actActivate sess s) from hk.trans (g.weaken hm)
  unfold actActivate
  with_reducible repeat' first
  | exact Keeps.refl _
  | assumption
  | decide
  | (extract_lets +onlyGivenNames s1; have h1 : Keeps 7364616 s s1 := (by unfold s1; repeat' first | exact Keeps.refl _ | assumption | decide | refine event_keeps ?_ ?_ | refine setFwSlot_keeps ?_ ?_ | refine setModule_keeps ?_ ?_ | refine startActivation_keeps ?_ ?_ | refine Keeps.ite ?_ ?_ | (intro _ _) | split | dsimp only); clear_value s1)
  | (extract_lets +onlyGivenNames x1; clear_value x1)
  | refine event_keeps ?_ ?_
  | refine setFwSlot_keeps ?_ ?_
  | refine setModule_keeps ?_ ?_
  | refine startActivation_keeps ?_ ?_
  | refine Keeps.ite ?_ ?_
  | (intro _ _)
  | split
  | dsimp only

theorem execFwActivateCmd_keeps {mk : Nat} {sk : State} {sess : Nat} {value : Nat} {s : State} (hk : Keeps mk sk s) (hm : 7626760 &&& mk = 7626760) :
    ∃ t', execFwActivateCmd sess value s = .next t' ∧ Keeps mk sk t' := by
  suffices g : ∃ t', execFwActivateCmd sess value s = .next t' ∧ Keeps 7626760 s t' from g.imp fun _ h => ⟨h.1, hk.trans (h.2.weaken hm)⟩
  refine ⟨_, rfl, ?_⟩
  with_reducible repeat' first
  | exact Keeps.refl _
  | assumption
  | decide
  | refine actActivate_keeps ?_ ?_
  | refine actWrite_keeps ?_ rfl (fun u hu => ?_) (fun u hu => ?_)
  | refine activateRefused_keeps ?_ ?_
  | refine onOne_keeps ?_ (fun u hu => ?_)
  | refine Keeps.ite ?_ ?_
  | (intro _ _)
  | split
  | dsimp only

theorem actActivateCancel_keeps {mk : Nat} {sk : State} {s : State} (hk : Keeps mk sk s) (hm : 7364616 &&& mk = 7364616) :
    Keeps mk sk (actActivateCancel s) := by
  suffices g : Keeps 7364616 s (actActivateCancel s) from hk.trans (g.weaken hm)
  unfold actActivateCancel
  with_reducible repeat' first
  | exact Keeps.refl _
  | assumption
  | decide
  | (extract_lets +onlyGivenNames s1; have h1 : Keeps 7364616 s s1 := (by unfold s1; repeat' first | exact Keeps.refl _ | assumption | decide | refine event_keeps ?_ ?_ | refine setFwSlot_keeps ?_ ?_ | refine setModule_keeps ?_ ?_ | (intro _ _) | split | dsimp only); clear_value s1)
  | (extract_lets +onlyGivenNames x1; clear_value x1)
  | refine event_keeps ?_ ?_
  | refine setFwSlot_keeps ?_ ?_
  | refine setModule_keeps ?_ ?_
  | (intro _ _)
  | split
  | dsimp only

theorem execFwActivateCancel_keeps {mk : Nat} {sk : State} {sess : Nat} {value : Nat} {s : State} (hk : Keeps mk sk s) (hm : 7626760 &&& mk = 7626760) :
    ∃ t', execFwActivateCancel sess value s = .next t' ∧ Keeps mk sk t' := by
  suffices g : ∃ t', execFwActivateCancel sess value s = .next t' ∧ Keeps 7626760 s t' from g.imp fun _ h => ⟨h.1, hk.trans (h.2.weaken hm)⟩
  refine ⟨_, rfl, ?_⟩
  with_reducible repeat' first
  | exact Keeps.refl _
  | assumption
  | decide
  | refine actActivateCancel_keeps ?_ ?_
  | refine actWrite_keeps ?_ rfl (fun u hu => ?_) (fun u hu => ?_)
  | refine onOne_keeps ?_ (fun u hu => ?_)
  | refine Keeps.ite ?_ ?_
  | simp only [id_eq]
  | (intro _ _)
  | split
  | dsimp only

theorem fwActivationStart_keeps {mk : Nat} {sk : State} {s : State} (hk : Keeps mk sk s) (hm : 7364616 &&& mk = 7364616) :
    Keeps mk sk (fwActivationStart s) := by
  suffices g : Keeps 7364616 s (fwActivationStart s) from hk.trans (g.weaken hm)
  unfold fwActivationStart
  with_reducible repeat' first
  | exact Keeps.refl _
  | assumption
  | decide
  | (extract_lets +onlyGivenNames s1; have h1 : Keeps 7364616 s s1 := (by unfold s1; repeat' first | exact Keeps.refl _ | assumption | decide | refine event_keeps ?_ ?_ | refine setFwSlot_keeps ?_ ?_ | refine setModule_keeps ?_ ?_ | refine startActivation_keeps ?_ ?_ | refine Keeps.ite ?_ ?_ | (intro _ _) | split | dsimp only); clear_value s1)
  | (extract_lets +onlyGivenNames x1; clear_value x1)
  | refine event_keeps ?_ ?_
  | refine setFwSlot_keeps ?_ ?_
  | refine setModule_keeps ?_ ?_
  | refine startActivation_keeps ?_ ?_
  | refine Keeps.ite ?_ ?_
  | (intro _ _)
  | split
  | dsimp only

theorem execFwActivationStart_keeps {mk : Nat} {sk : State} {s : State} (hk : Keeps mk sk s) (hm : 7364616 &&& mk = 7364616) :
    ∃ t', execFwActivationStart s = .next t' ∧ Keeps mk sk t' := by
  suffices g : ∃ t', execFwActivationStart s = .next t' ∧ Keeps 7364616 s t' from g.imp fun _ h => ⟨h.1, hk.trans (h.2.weaken hm)⟩
  refine ⟨_, rfl, ?_⟩
  with_reducible repeat' first
  | exact Keeps.refl _
  | assumption
  | decide
  | refine fwActivationStart_keeps ?_ ?_
  | (intro _ _)
  | split
  | dsimp only

theorem pauseAborted_keeps {mk : Nat} {sk : State} {s : State} (hk : Keeps mk sk s) (hm : 7364616 &&& mk = 7364616) :
    Keeps mk sk (pauseAborted s) := by
  suffices g : Keeps 7364616 s (pauseAborted s) from hk.trans (g.weaken hm)
  unfold pauseAborted
  with_reducible repeat' first
  | exact Keeps.refl _
  | assumption
  | decide
  | (extract_lets +onlyGivenNames s1; have h1 : Keeps 7364616 s s1 := (by unfold s1; repeat' first | exact Keeps.refl _ | assumption | decide | refine event_keeps ?_ ?_ | refine rejectRunning_keeps ?_ ?_ | refine releaseWarm_keeps ?_ ?_ | refine requestWarm_keeps ?_ ?_ | refine setFwSlot_keeps ?_ ?_ | refine setModule_keeps ?_ ?_ | refine Keeps.ite ?_ ?_ | (intro _ _) | split | dsimp only); clear_value s1)
  | (extract_lets +onlyGivenNames x1; clear_value x1)
  | refine event_keeps ?_ ?_
  | refine rejectRunning_keeps ?_ ?_
  | refine releaseWarm_keeps ?_ ?_
  | refine requestWarm_keeps ?_ ?_
  | refine setFwSlot_keeps ?_ ?_
  | refine setModule_keeps ?_ ?_
  | refine Keeps.ite ?_ ?_
  | (intro _ _)
  | split
  | dsimp only

theorem hitlessPhaseDone_keeps {mk : Nat} {sk : State} {hashOk : Bool} {s : State} (hk : Keeps mk sk s) (hm : 7364680 &&& mk = 7364680) :
    Keeps mk sk (hitlessPhaseDone hashOk s) := by
  suffices g : Keeps 7364680 s (hitlessPhaseDone hashOk s) from hk.trans (g.weaken hm)
  unfold hitlessPhaseDone
  with_reducible repeat' first
  | exact Keeps.refl _
  | assumption
  | decide
  | refine freezeRelease_keeps ?_ ?_
  | refine freezeRequest_keeps ?_ ?_
  | refine pauseAborted_keeps ?_ ?_
  | refine setModule_keeps ?_ ?_
  | refine Keeps.ite ?_ ?_
  | (intro _ _)
  | split
  | dsimp only

theorem pauseEnds_keeps {mk : Nat} {sk : State} {s : State} (hk : Keeps mk sk s) (hm : 7364616 &&& mk = 7364616) :
    Keeps mk sk (pauseEnds s) := by
  suffices g : Keeps 7364616 s (pauseEnds s) from hk.trans (g.weaken hm)
  unfold pauseEnds
  with_reducible repeat' first
  | exact Keeps.refl _
  | assumption
  | decide
  | (extract_lets +onlyGivenNames s1; have h1 : Keeps 7364616 s s1 := (by unfold s1; repeat' first | exact Keeps.refl _ | assumption | decide | refine event_keeps ?_ ?_ | refine rollback_keeps ?_ ?_ | refine setFwSlot_keeps ?_ ?_ | refine setModule_keeps ?_ ?_ | refine Keeps.ite ?_ ?_ | (intro _ _) | split | dsimp only); clear_value s1)
  | (extract_lets +onlyGivenNames x1; clear_value x1)
  | refine event_keeps ?_ ?_
  | refine rollback_keeps ?_ ?_
  | refine setFwSlot_keeps ?_ ?_
  | refine setModule_keeps ?_ ?_
  | refine Keeps.ite ?_ ?_
  | (intro _ _)
  | split
  | dsimp only

/-! ### Mgmt -/

theorem setMgmt_keeps {mk : Nat} {sk : State} {s : State} {m : MgmtBlk} (hk : Keeps mk sk s) (hm : 262144 &&& mk = 262144) :
    Keeps mk sk (setMgmt s m) := by
  suffices g : Keeps 262144 s (setMgmt s m) from hk.trans (g.weaken hm)
  unfold setMgmt
  with_reducible repeat' first
  | exact Keeps.refl _
  | assumption
  | decide
  | (fail_if_no_progress refine Keeps.mgmt' ?_ _ rfl)
  | (intro _ _)
  | split
  | dsimp only

theorem setMailbox_keeps {mk : Nat} {sk : State} {s : State} {v : Nat} {x : Mailbox} (hk : Keeps mk sk s) (hm : 262144 &&& mk = 262144) :
    Keeps mk sk (setMailbox s v x) := by
  suffices g : Keeps 262144 s (setMailbox s v x) from hk.trans (g.weaken hm)
  unfold setMailbox
  with_reducible repeat' first
  | exact Keeps.refl _
  | assumption
  | decide
  | refine setMgmt_keeps ?_ ?_
  | (intro _ _)
  | split
  | dsimp only

theorem placeResponse_keeps {mk : Nat} {sk : State} {s : State} {v : Nat} (hk : Keeps mk sk s) (hm : 286720 &&& mk = 286720) :
    Keeps mk sk (placeResponse s v) := by
  suffices g : Keeps 286720 s (placeResponse s v) from hk.trans (g.weaken hm)
  unfold placeResponse
  with_reducible repeat' first
  | exact Keeps.refl _
  | assumption
  | decide
  | (extract_lets +onlyGivenNames s1; have h1 : Keeps 286720 s s1 := (by unfold s1; repeat' first | exact Keeps.refl _ | assumption | decide | refine msi_keeps ?_ ?_ | refine setMailbox_keeps ?_ ?_ | refine Keeps.ite ?_ ?_ | (intro _ _) | split | dsimp only); clear_value s1)
  | (extract_lets +onlyGivenNames x1; clear_value x1)
  | refine msi_keeps ?_ ?_
  | refine setMailbox_keeps ?_ ?_
  | refine Keeps.ite ?_ ?_
  | (intro _ _)
  | split
  | dsimp only

theorem mailboxSend_keeps {mk : Nat} {sk : State} {s : State} {v : Nat} {bs : List Byte} (hk : Keeps mk sk s) (hm : 1335296 &&& mk = 1335296) :
    Keeps mk sk (mailboxSend s v bs) := by
  suffices g : Keeps 1335296 s (mailboxSend s v bs) from hk.trans (g.weaken hm)
  unfold mailboxSend
  with_reducible repeat' first
  | exact Keeps.refl _
  | assumption
  | decide
  | (extract_lets +onlyGivenNames s1; have h1 : Keeps 1335296 s s1 := (by unfold s1; repeat' first | exact Keeps.refl _ | assumption | decide | refine count_keeps ?_ ?_ | refine placeResponse_keeps ?_ ?_ | refine setMailbox_keeps ?_ ?_ | (intro _ _) | split | dsimp only); clear_value s1)
  | (extract_lets +onlyGivenNames x1; clear_value x1)
  | refine count_keeps ?_ ?_
  | refine placeResponse_keeps ?_ ?_
  | refine setMailbox_keeps ?_ ?_
  | (intro _ _)
  | split
  | dsimp only

theorem sendTo_keeps {mk : Nat} {sk : State} {s : State} {source : Nat} {prio : Nat} {typ : Nat} {tagId : Nat} {bs : List Byte} (hk : Keeps mk sk s) (hm : 1335296 &&& mk = 1335296) :
    Keeps mk sk (sendTo s source prio typ tagId bs) := by
  suffices g : Keeps 1335296 s (sendTo s source prio typ tagId bs) from hk.trans (g.weaken hm)
  unfold sendTo
  with_reducible repeat' first
  | exact Keeps.refl _
  | assumption
  | decide
  | refine harmirSend_keeps ?_ ?_
  | refine mailboxSend_keeps ?_ ?_
  | refine Keeps.ite ?_ ?_
  | (intro _ _)
  | split
  | dsimp only

theorem setSession_keeps {mk : Nat} {sk : State} {s : State} {x : Session} (hk : Keeps mk sk s) (hm : 262144 &&& mk = 262144) :
    Keeps mk sk (setSession s x) := by
  suffices g : Keeps 262144 s (setSession s x) from hk.trans (g.weaken hm)
  unfold setSession
  with_reducible repeat' first
  | exact Keeps.refl _
  | assumption
  | decide
  | refine setMgmt_keeps ?_ ?_
  | refine Keeps.ite ?_ ?_
  | (intro _ _)
  | split
  | dsimp only

theorem answerPlain_keeps {mk : Nat} {sk : State} {s : State} {m : Msg} {typ : Nat} {body : List Byte} (hk : Keeps mk sk s) (hm : 1335296 &&& mk = 1335296) :
    Keeps mk sk (answerPlain s m typ body) := by
  suffices g : Keeps 1335296 s (answerPlain s m typ body) from hk.trans (g.weaken hm)
  unfold answerPlain
  with_reducible repeat' first
  | exact Keeps.refl _
  | assumption
  | decide
  | refine sendTo_keeps ?_ ?_
  | (intro _ _)
  | split
  | dsimp only

theorem reply_keeps {mk : Nat} {sk : State} {s : State} {m : Msg} {typ : Nat} {body : List Byte} (hk : Keeps mk sk s) (hm : 1335296 &&& mk = 1335296) :
    Keeps mk sk (reply s m typ body) := by
  suffices g : Keeps 1335296 s (reply s m typ body) from hk.trans (g.weaken hm)
  unfold reply
  with_reducible repeat' first
  | exact Keeps.refl _
  | assumption
  | decide
  | (extract_lets +onlyGivenNames s1; have h1 : Keeps 1335296 s s1 := (by unfold s1; repeat' first | exact Keeps.refl _ | assumption | decide | refine answerPlain_keeps ?_ ?_ | refine sendTo_keeps ?_ ?_ | refine setSession_keeps ?_ ?_ | refine Keeps.ite ?_ ?_ | (intro _ _) | split | dsimp only); clear_value s1)
  | (extract_lets +onlyGivenNames x1; clear_value x1)
  | refine answerPlain_keeps ?_ ?_
  | refine sendTo_keeps ?_ ?_
  | refine setSession_keeps ?_ ?_
  | refine Keeps.ite ?_ ?_
  | (intro _ _)
  | split
  | dsimp only

theorem answerDone_keeps {mk : Nat} {sk : State} {s : State} {m : Msg} {typ : Nat} {body : List Byte} (hk : Keeps mk sk s) (hm : 1335296 &&& mk = 1335296) :
    Keeps mk sk (answerDone s m typ body) := by
  suffices g : Keeps 1335296 s (answerDone s m typ body) from hk.trans (g.weaken hm)
  unfold answerDone
  with_reducible repeat' first
  | exact Keeps.refl _
  | assumption
  | decide
  | (extract_lets +onlyGivenNames s1; have h1 : Keeps 1335296 s s1 := (by unfold s1; repeat' first | exact Keeps.refl _ | assumption | decide | refine reply_keeps ?_ ?_ | refine setSession_keeps ?_ ?_ | refine Keeps.ite ?_ ?_ | (intro _ _) | split | dsimp only); clear_value s1)
  | (extract_lets +onlyGivenNames x1; clear_value x1)
  | refine reply_keeps ?_ ?_
  | refine setSession_keeps ?_ ?_
  | refine Keeps.ite ?_ ?_
  | (intro _ _)
  | split
  | dsimp only

theorem enqueueMsg_keeps {mk : Nat} {sk : State} {s : State} {m : Msg} (hk : Keeps mk sk s) (hm : 262144 &&& mk = 262144) :
    Keeps mk sk (enqueueMsg s m) := by
  suffices g : Keeps 262144 s (enqueueMsg s m) from hk.trans (g.weaken hm)
  unfold enqueueMsg
  with_reducible repeat' first
  | exact Keeps.refl _
  | assumption
  | decide
  | refine setMgmt_keeps ?_ ?_
  | (intro _ _)
  | split
  | dsimp only

theorem discardInSession_keeps {mk : Nat} {sk : State} {s : State} {x : Session} (hk : Keeps mk sk s) (hm : 7626752 &&& mk = 7626752) :
    Keeps mk sk (discardInSession s x) := by
  suffices g : Keeps 7626752 s (discardInSession s x) from hk.trans (g.weaken hm)
  unfold discardInSession
  with_reducible repeat' first
  | exact Keeps.refl _
  | assumption
  | decide
  | (extract_lets +onlyGivenNames s1; have h1 : Keeps 7626752 s s1 := (by unfold s1; repeat' first | exact Keeps.refl _ | assumption | decide | refine count_keeps ?_ ?_ | refine event_keeps ?_ ?_ | refine setSession_keeps ?_ ?_ | refine Keeps.ite ?_ ?_ | (intro _ _) | split | dsimp only); clear_value s1)
  | (extract_lets +onlyGivenNames x1; clear_value x1)
  | refine count_keeps ?_ ?_
  | refine event_keeps ?_ ?_
  | refine setSession_keeps ?_ ?_
  | refine Keeps.ite ?_ ?_
  | (intro _ _)
  | split
  | dsimp only

theorem discardOnBus_keeps {mk : Nat} {sk : State} {s : State} {m : Msg} (hk : Keeps mk sk s) (hm : 7364608 &&& mk = 7364608) :
    Keeps mk sk (discardOnBus s m) := by
  suffices g : Keeps 7364608 s (discardOnBus s m) from hk.trans (g.weaken hm)
  unfold discardOnBus
  with_reducible repeat' first
  | exact Keeps.refl _
  | assumption
  | decide
  | refine count_keeps ?_ ?_
  | refine event_keeps ?_ ?_
  | refine rateEvent_keeps ?_ rfl (fun u a hu => ?_)
  | (intro _ _)
  | split
  | dsimp only

theorem receiveBus_keeps {mk : Nat} {sk : State} {s : State} {m : Msg} {header : List Byte} (hk : Keeps mk sk s) (hm : 7626752 &&& mk = 7626752) :
    Keeps mk sk (receiveBus s m header) := by
  suffices g : Keeps 7626752 s (receiveBus s m header) from hk.trans (g.weaken hm)
  unfold receiveBus
  with_reducible repeat' first
  | exact Keeps.refl _
  | assumption
  | decide
  | (extract_lets +onlyGivenNames s1; have h1 : Keeps 7626752 s s1 := (by unfold s1; repeat' first | exact Keeps.refl _ | assumption | decide | refine discardOnBus_keeps ?_ ?_ | refine enqueueMsg_keeps ?_ ?_ | refine setMgmt_keeps ?_ ?_ | refine Keeps.ite ?_ ?_ | (intro _ _) | split | dsimp only); clear_value s1)
  | (extract_lets +onlyGivenNames x1; clear_value x1)
  | refine discardOnBus_keeps ?_ ?_
  | refine enqueueMsg_keeps ?_ ?_
  | refine setMgmt_keeps ?_ ?_
  | refine Keeps.ite ?_ ?_
  | (intro _ _)
  | split
  | dsimp only

theorem receiveInSession_keeps {mk : Nat} {sk : State} {s : State} {x : Session} {m : Msg} (hk : Keeps mk sk s) (hm : 1335296 &&& mk = 1335296) :
    Keeps mk sk (receiveInSession s x m) := by
  suffices g : Keeps 1335296 s (receiveInSession s x m) from hk.trans (g.weaken hm)
  unfold receiveInSession
  with_reducible repeat' first
  | exact Keeps.refl _
  | assumption
  | decide
  | (extract_lets +onlyGivenNames s1; have h1 : Keeps 1335296 s s1 := (by unfold s1; repeat' first | exact Keeps.refl _ | assumption | decide | refine enqueueMsg_keeps ?_ ?_ | refine reply_keeps ?_ ?_ | refine setSession_keeps ?_ ?_ | refine Keeps.ite ?_ ?_ | (intro _ _) | split | dsimp only); clear_value s1)
  | (extract_lets +onlyGivenNames x1; clear_value x1)
  | refine enqueueMsg_keeps ?_ ?_
  | refine reply_keeps ?_ ?_
  | refine setSession_keeps ?_ ?_
  | refine Keeps.ite ?_ ?_
  | (intro _ _)
  | split
  | dsimp only

theorem receivePlain_keeps {mk : Nat} {sk : State} {s : State} {m : Msg} (hk : Keeps mk sk s) (hm : 1335296 &&& mk = 1335296) :
    Keeps mk sk (receivePlain s m) := by
  suffices g : Keeps 1335296 s (receivePlain s m) from hk.trans (g.weaken hm)
  unfold receivePlain
  with_reducible repeat' first
  | exact Keeps.refl _
  | assumption
  | decide
  | refine answerPlain_keeps ?_ ?_
  | refine enqueueMsg_keeps ?_ ?_
  | refine Keeps.ite ?_ ?_
  | (intro _ _)
  | split
  | dsimp only

theorem receiveMsg_keeps {mk : Nat} {sk : State} {s : State} {source : Nat} {dst : Nat} {prio : Nat} {raw : List Byte} (hk : Keeps mk sk s) (hm : 7626752 &&& mk = 7626752) :
    Keeps mk sk (receiveMsg s source dst prio raw) := by
  suffices g : Keeps 7626752 s (receiveMsg s source dst prio raw) from hk.trans (g.weaken hm)
  unfold receiveMsg
  with_reducible repeat' first
  | exact Keeps.refl _
  | assumption
  | decide
  | (extract_lets +onlyGivenNames s1; have h1 : Keeps 7626752 s s1 := (by unfold s1; repeat' first | exact Keeps.refl _ | assumption | decide | refine count_keeps ?_ ?_ | refine discardInSession_keeps ?_ ?_ | refine enqueueMsg_keeps ?_ ?_ | refine receiveBus_keeps ?_ ?_ | refine receiveInSession_keeps ?_ ?_ | refine receivePlain_keeps ?_ ?_ | refine Keeps.ite ?_ ?_ | (intro _ _) | split | dsimp only); clear_value s1)
  | (extract_lets +onlyGivenNames x1; clear_value x1)
  | refine count_keeps ?_ ?_
  | refine discardInSession_keeps ?_ ?_
  | refine enqueueMsg_keeps ?_ ?_
  | refine receiveBus_keeps ?_ ?_
  | refine receiveInSession_keeps ?_ ?_
  | refine receivePlain_keeps ?_ ?_
  | refine Keeps.ite ?_ ?_
  | (intro _ _)
  | split
  | dsimp only

theorem reassemblyFailed_keeps {mk : Nat} {sk : State} {s : State} {source : Nat} {prio : Nat} {tagId : Nat} (hk : Keeps mk sk s) (hm : 1335296 &&& mk = 1335296) :
    Keeps mk sk (reassemblyFailed s source prio tagId) := by
  suffices g : Keeps 1335296 s (reassemblyFailed s source prio tagId) from hk.trans (g.weaken hm)
  unfold reassemblyFailed
  with_reducible repeat' first
  | exact Keeps.refl _
  | assumption
  | decide
  | refine answerPlain_keeps ?_ ?_
  | refine count_keeps ?_ ?_
  | (intro _ _)
  | split
  | dsimp only

theorem dropAssembly_keeps {mk : Nat} {sk : State} {s : State} {src : Nat} {typ : Nat} {tagId : Nat} (hk : Keeps mk sk s) (hm : 262144 &&& mk = 262144) :
    Keeps mk sk (dropAssembly s src typ tagId) := by
  suffices g : Keeps 262144 s (dropAssembly s src typ tagId) from hk.trans (g.weaken hm)
  unfold dropAssembly
  with_reducible repeat' first
  | exact Keeps.refl _
  | assumption
  | decide
  | refine setMgmt_keeps ?_ ?_
  | (intro _ _)
  | split
  | dsimp only

theorem takeSegment_keeps {mk : Nat} {sk : State} {s : State} {x : Assembly} {last : Bool} {data : List Byte} (hk : Keeps mk sk s) (hm : 7626752 &&& mk = 7626752) :
    Keeps mk sk (takeSegment s x last data) := by
  suffices g : Keeps 7626752 s (takeSegment s x last data) from hk.trans (g.weaken hm)
  unfold takeSegment
  with_reducible repeat' first
  | exact Keeps.refl _
  | assumption
  | decide
  | (extract_lets +onlyGivenNames s1; have h1 : Keeps 7626752 s s1 := (by unfold s1; repeat' first | exact Keeps.refl _ | assumption | decide | refine dropAssembly_keeps ?_ ?_ | refine reassemblyFailed_keeps ?_ ?_ | refine receiveMsg_keeps ?_ ?_ | refine setMgmt_keeps ?_ ?_ | refine Keeps.ite ?_ ?_ | (intro _ _) | split | dsimp only); clear_value s1)
  | (extract_lets +onlyGivenNames x1; clear_value x1)
  | refine dropAssembly_keeps ?_ ?_
  | refine reassemblyFailed_keeps ?_ ?_
  | refine receiveMsg_keeps ?_ ?_
  | refine setMgmt_keeps ?_ ?_
  | refine Keeps.ite ?_ ?_
  | (intro _ _)
  | split
  | dsimp only

theorem takeFrame_keeps {mk : Nat} {sk : State} {s : State} {prio : Nat} {typ : Nat} {tagId : Nat} {dst : Nat} {src : Nat} {seg : Nat} {data : List Byte} (hk : Keeps mk sk s) (hm : 7626752 &&& mk = 7626752) :
    Keeps mk sk (takeFrame s prio typ tagId dst src seg data) := by
  suffices g : Keeps 7626752 s (takeFrame s prio typ tagId dst src seg data) from hk.trans (g.weaken hm)
  unfold takeFrame
  with_reducible repeat' first
  | exact Keeps.refl _
  | assumption
  | decide
  | (extract_lets +onlyGivenNames s1; have h1 : Keeps 7626752 s s1 := (by unfold s1; repeat' first | exact Keeps.refl _ | assumption | decide | refine dropAssembly_keeps ?_ ?_ | refine reassemblyFailed_keeps ?_ ?_ | refine takeSegment_keeps ?_ ?_ | refine Keeps.ite ?_ ?_ | (intro _ _) | split | dsimp only); clear_value s1)
  | (extract_lets +onlyGivenNames x1; clear_value x1)
  | refine dropAssembly_keeps ?_ ?_
  | refine reassemblyFailed_keeps ?_ ?_
  | refine takeSegment_keeps ?_ ?_
  | refine Keeps.ite ?_ ?_
  | (intro _ _)
  | split
  | dsimp only

theorem canFrameReceive_keeps {mk : Nat} {sk : State} {ident : Nat} {bytes : List Byte} {s : State} (hk : Keeps mk sk s) (hm : 7626752 &&& mk = 7626752) :
    Keeps mk sk (canFrameReceive ident bytes s) := by
  suffices g : Keeps 7626752 s (canFrameReceive ident bytes s) from hk.trans (g.weaken hm)
  unfold canFrameReceive
  with_reducible repeat' first
  | exact Keeps.refl _
  | assumption
  | decide
  | (extract_lets +onlyGivenNames s1; have h1 : Keeps 7626752 s s1 := (by unfold s1; repeat' first | exact Keeps.refl _ | assumption | decide | refine count_keeps ?_ ?_ | refine takeFrame_keeps ?_ ?_ | refine Keeps.ite ?_ ?_ | (intro _ _) | split | dsimp only); clear_value s1)
  | (extract_lets +onlyGivenNames x1; clear_value x1)
  | refine count_keeps ?_ ?_
  | refine takeFrame_keeps ?_ ?_
  | refine Keeps.ite ?_ ?_
  | (intro _ _)
  | split
  | dsimp only

theorem execCanFrameReceive_keeps {mk : Nat} {sk : State} {ident : Nat} {bytes : List Byte} {s : State} (hk : Keeps mk sk s) (hm : 7626752 &&& mk = 7626752) :
    ∃ t', execCanFrameReceive ident bytes s = .next t' ∧ Keeps mk sk t' := by
  suffices g : ∃ t', execCanFrameReceive ident bytes s = .next t' ∧ Keeps 7626752 s t' from g.imp fun _ h => ⟨h.1, hk.trans (h.2.weaken hm)⟩
  refine ⟨_, rfl, ?_⟩
  with_reducible repeat' first
  | exact Keeps.refl _
  | assumption
  | decide
  | refine canFrameReceive_keeps ?_ ?_
  | (intro _ _)
  | split
  | dsimp only

theorem segmentTimeout_keeps {mk : Nat} {sk : State} {src : Nat} {typ : Nat} {tagId : Nat} {s : State} (hk : Keeps mk sk s) (hm : 1335296 &&& mk = 1335296) :
    Keeps mk sk (segmentTimeout src typ tagId s) := by
  suffices g : Keeps 1335296 s (segmentTimeout src typ tagId s) from hk.trans (g.weaken hm)
  unfold segmentTimeout
  with_reducible repeat' first
  | exact Keeps.refl _
  | assumption
  | decide
  | refine dropAssembly_keeps ?_ ?_
  | refine reassemblyFailed_keeps ?_ ?_
  | refine Keeps.ite ?_ ?_
  | (intro _ _)
  | split
  | dsimp only

theorem execSegmentTimeout_keeps {mk : Nat} {sk : State} {src : Nat} {typ : Nat} {tagId : Nat} {s : State} (hk : Keeps mk sk s) (hm : 1335296 &&& mk = 1335296) :
    ∃ t', execSegmentTimeout src typ tagId s = .next t' ∧ Keeps mk sk t' := by
  suffices g : ∃ t', execSegmentTimeout src typ tagId s = .next t' ∧ Keeps 1335296 s t' from g.imp fun _ h => ⟨h.1, hk.trans (h.2.weaken hm)⟩
  refine ⟨_, rfl, ?_⟩
  with_reducible repeat' first
  | exact Keeps.refl _
  | assumption
  | decide
  | refine segmentTimeout_keeps ?_ ?_
  | (intro _ _)
  | split
  | dsimp only

theorem canBusOff_keeps {mk : Nat} {sk : State} {s : State} (hk : Keeps mk sk s) (hm : 7626752 &&& mk = 7626752) :
    Keeps mk sk (canBusOff s) := by
  suffices g : Keeps 7626752 s (canBusOff s) from hk.trans (g.weaken hm)
  unfold canBusOff
  with_reducible repeat' first
  | exact Keeps.refl _
  | assumption
  | decide
  | refine count_keeps ?_ ?_
  | refine event_keeps ?_ ?_
  | refine setMgmt_keeps ?_ ?_
  | refine Keeps.ite ?_ ?_
  | (intro _ _)
  | split
  | dsimp only

theorem execCanBusOff_keeps {mk : Nat} {sk : State} {s : State} (hk : Keeps mk sk s) (hm : 7626752 &&& mk = 7626752) :
    ∃ t', execCanBusOff s = .next t' ∧ Keeps mk sk t' := by
  suffices g : ∃ t', execCanBusOff s = .next t' ∧ Keeps 7626752 s t' from g.imp fun _ h => ⟨h.1, hk.trans (h.2.weaken hm)⟩
  refine ⟨_, rfl, ?_⟩
  with_reducible repeat' first
  | exact Keeps.refl _
  | assumption
  | decide
  | refine canBusOff_keeps ?_ ?_
  | (intro _ _)
  | split
  | dsimp only

theorem canBusOffRecovery_keeps {mk : Nat} {sk : State} {s : State} (hk : Keeps mk sk s) (hm : 7626752 &&& mk = 7626752) :
    Keeps mk sk (canBusOffRecovery s) := by
  suffices g : Keeps 7626752 s (canBusOffRecovery s) from hk.trans (g.weaken hm)
  unfold canBusOffRecovery
  with_reducible repeat' first
  | exact Keeps.refl _
  | assumption
  | decide
  | refine event_keeps ?_ ?_
  | refine setMgmt_keeps ?_ ?_
  | refine Keeps.ite ?_ ?_
  | (intro _ _)
  | split
  | dsimp only

theorem execCanBusOffRecovery_keeps {mk : Nat} {sk : State} {s : State} (hk : Keeps mk sk s) (hm : 7626752 &&& mk = 7626752) :
    ∃ t', execCanBusOffRecovery s = .next t' ∧ Keeps mk sk t' := by
  suffices g : ∃ t', execCanBusOffRecovery s = .next t' ∧ Keeps 7626752 s t' from g.imp fun _ h => ⟨h.1, hk.trans (h.2.weaken hm)⟩
  refine ⟨_, rfl, ?_⟩
  with_reducible repeat' first
  | exact Keeps.refl _
  | assumption
  | decide
  | refine canBusOffRecovery_keeps ?_ ?_
  | (intro _ _)
  | split
  | dsimp only


theorem mailboxTake_keeps {mk : Nat} {sk s : State} {v ctrl : Nat} {data : List Byte} (hk : Keeps mk sk s) (hm : 7626752 &&& mk = 7626752) :
    Keeps mk sk (mailboxTake s v ctrl data) := by
  suffices g : Keeps 7626752 s (mailboxTake s v ctrl data) from hk.trans (g.weaken hm)
  unfold mailboxTake
  extract_lets +onlyGivenNames x n broken bs fail
  have hf : ∀ u, Keeps 7626752 s u → Keeps 7626752 s (fail u) := fun u hu => reassemblyFailed_keeps hu (by decide)
  have h0 : Keeps 7626752 s s := Keeps.refl s
  clear_value fail
  refine Keeps.ite (hf _ (setMailbox_keeps h0 (by decide))) ?_
  extract_lets +onlyGivenNames s1
  have h1 : Keeps 7626752 s s1 := Keeps.ite (hf _ h0) h0
  clear_value s1
  refine Keeps.ite (setMailbox_keeps h1 (by decide)) ?_
  have h2 := setMailbox_keeps (v := v) (x := { mailbox s1 v with building := [] }) h1 (hm := by decide)
  exact Keeps.ite (receiveMsg_keeps h2 (by decide)) (hf _ h2)

theorem mailboxFree_keeps {mk : Nat} {sk : State} {s : State} {v : Nat} (hk : Keeps mk sk s) (hm : 7626752 &&& mk = 7626752) :
    Keeps mk sk (mailboxFree s v) := by
  suffices g : Keeps 7626752 s (mailboxFree s v) from hk.trans (g.weaken hm)
  unfold mailboxFree
  with_reducible repeat' first
  | exact Keeps.refl _
  | assumption
  | decide
  | (extract_lets +onlyGivenNames q1; have hq1 : Keeps 7626752 s q1.1 := (by unfold q1; repeat' first | exact Keeps.refl _ | assumption | decide | refine mailboxTake_keeps ?_ ?_ | refine msi_keeps ?_ ?_ | refine setMailbox_keeps ?_ ?_ | refine Keeps.ite ?_ ?_ | (intro _ _) | split | dsimp only); clear_value q1)
  | (extract_lets +onlyGivenNames s1; have h1 : Keeps 7626752 s s1 := (by unfold s1; repeat' first | exact Keeps.refl _ | assumption | decide | refine mailboxTake_keeps ?_ ?_ | refine msi_keeps ?_ ?_ | refine setMailbox_keeps ?_ ?_ | refine Keeps.ite ?_ ?_ | (intro _ _) | split | dsimp only); clear_value s1)
  | (extract_lets +onlyGivenNames x1; clear_value x1)
  | refine mailboxTake_keeps ?_ ?_
  | refine msi_keeps ?_ ?_
  | refine setMailbox_keeps ?_ ?_
  | refine Keeps.ite ?_ ?_
  | (intro _ _)
  | split
  | dsimp only

theorem mbReqSegment_keeps {mk : Nat} {sk : State} {v : Nat} {ctrl : Nat} {data : List Byte} {s : State} (hk : Keeps mk sk s) (hm : 7626752 &&& mk = 7626752) :
    Keeps mk sk (mbReqSegment v ctrl data s) := by
  suffices g : Keeps 7626752 s (mbReqSegment v ctrl data s) from hk.trans (g.weaken hm)
  unfold mbReqSegment
  with_reducible repeat' first
  | exact Keeps.refl _
  | assumption
  | decide
  | (extract_lets +onlyGivenNames s1; have h1 : Keeps 7626752 s s1 := (by unfold s1; repeat' first | exact Keeps.refl _ | assumption | decide | refine mailboxFree_keeps ?_ ?_ | refine setMailbox_keeps ?_ ?_ | refine Keeps.ite ?_ ?_ | (intro _ _) | split | dsimp only); clear_value s1)
  | (extract_lets +onlyGivenNames x1; clear_value x1)
  | refine mailboxFree_keeps ?_ ?_
  | refine setMailbox_keeps ?_ ?_
  | refine Keeps.ite ?_ ?_
  | (intro _ _)
  | split
  | dsimp only

theorem execMbReqSegment_keeps {mk : Nat} {sk : State} {v : Vs} {ctrl : Nat} {bytes : List Byte} {s : State} (hk : Keeps mk sk s) (hm : 7626752 &&& mk = 7626752) :
    ∃ t', execMbReqSegment v ctrl bytes s = .next t' ∧ Keeps mk sk t' := by
  suffices g : ∃ t', execMbReqSegment v ctrl bytes s = .next t' ∧ Keeps 7626752 s t' from g.imp fun _ h => ⟨h.1, hk.trans (h.2.weaken hm)⟩
  refine ⟨_, rfl, ?_⟩
  with_reducible repeat' first
  | exact Keeps.refl _
  | assumption
  | decide
  | refine mbReqSegment_keeps ?_ ?_
  | (intro _ _)
  | split
  | dsimp only

theorem mbRespTaken_keeps {mk : Nat} {sk : State} {v : Nat} {s : State} (hk : Keeps mk sk s) (hm : 286720 &&& mk = 286720) :
    Keeps mk sk (mbRespTaken v s) := by
  suffices g : Keeps 286720 s (mbRespTaken v s) from hk.trans (g.weaken hm)
  unfold mbRespTaken
  with_reducible repeat' first
  | exact Keeps.refl _
  | assumption
  | decide
  | (extract_lets +onlyGivenNames s1; have h1 : Keeps 286720 s s1 := (by unfold s1; repeat' first | exact Keeps.refl _ | assumption | decide | refine placeResponse_keeps ?_ ?_ | refine setMailbox_keeps ?_ ?_ | refine Keeps.ite ?_ ?_ | (intro _ _) | split | dsimp only); clear_value s1)
  | (extract_lets +onlyGivenNames x1; clear_value x1)
  | refine placeResponse_keeps ?_ ?_
  | refine setMailbox_keeps ?_ ?_
  | refine Keeps.ite ?_ ?_
  | (intro _ _)
  | split
  | dsimp only

theorem execMbRespTaken_keeps {mk : Nat} {sk : State} {v : Vs} {s : State} (hk : Keeps mk sk s) (hm : 286720 &&& mk = 286720) :
    ∃ t', execMbRespTaken v s = .next t' ∧ Keeps mk sk t' := by
  suffices g : ∃ t', execMbRespTaken v s = .next t' ∧ Keeps 286720 s t' from g.imp fun _ h => ⟨h.1, hk.trans (h.2.weaken hm)⟩
  refine ⟨_, rfl, ?_⟩
  with_reducible repeat' first
  | exact Keeps.refl _
  | assumption
  | decide
  | refine mbRespTaken_keeps ?_ ?_
  | (intro _ _)
  | split
  | dsimp only


theorem nextMsg_keeps {mk : Nat} {sk : State} {s : State} {typ : Nat} {t' : State} {x' : Msg} (hk : Keeps mk sk s) (hm : 262144 &&& mk = 262144)
    (e : nextMsg s typ = some (t', x')) : Keeps mk sk t' := by
  suffices g : Keeps 262144 s t' from hk.trans (g.weaken hm)
  unfold nextMsg at e
  split at e
  · injection e with e
    injection e with e1 e2
    subst e1
    exact Keeps.mgmt' (Keeps.refl s) _ rfl
  · cases e


theorem handle_keeps {mk : Nat} {sk s : State} {typ : Nat} {f : State → Msg → State} (hk : Keeps mk sk s) (hm : 262144 &&& mk = 262144)
    (hf : ∀ u m, Keeps mk sk u → Keeps mk sk (f u m)) : Keeps mk sk (handle typ f s) := by
  have w : ∀ {a : Nat} , a &&& 262144 = a → a &&& mk = a := fun h => by
    rename_i a
    rw [← h, Nat.and_assoc, hm]
  unfold handle
  refine Keeps.ite hk ?_
  split
  · next e => exact hf _ _ (nextMsg_keeps hk (w (by decide)) e)
  · exact hk

theorem authBegin_keeps {mk : Nat} {sk : State} {s : State} (hk : Keeps mk sk s) (hm : 1335296 &&& mk = 1335296) :
    Keeps mk sk (authBegin s) := by
  suffices g : Keeps 1335296 s (authBegin s) from hk.trans (g.weaken hm)
  unfold authBegin
  with_reducible repeat' first
  | exact Keeps.refl _
  | assumption
  | decide
  | (extract_lets +onlyGivenNames q1; have hq1 : Keeps 1335296 s q1.1 := (by unfold q1; repeat' first | exact Keeps.refl _ | assumption | decide | refine afterDraw_keeps ?_ ?_ | refine answerPlain_keeps ?_ ?_ | refine handle_keeps ?_ ?_ (fun u a hu => ?_) | refine setMgmt_keeps ?_ ?_ | refine Keeps.ite ?_ ?_ | (intro _ _) | split | dsimp only); clear_value q1)
  | (extract_lets +onlyGivenNames s1; have h1 : Keeps 1335296 s s1 := (by unfold s1; repeat' first | exact Keeps.refl _ | assumption | decide | refine afterDraw_keeps ?_ ?_ | refine answerPlain_keeps ?_ ?_ | refine handle_keeps ?_ ?_ (fun u a hu => ?_) | refine setMgmt_keeps ?_ ?_ | refine Keeps.ite ?_ ?_ | (intro _ _) | split | dsimp only); clear_value s1)
  | (extract_lets +onlyGivenNames x1; clear_value x1)
  | refine afterDraw_keeps ?_ ?_
  | refine answerPlain_keeps ?_ ?_
  | refine handle_keeps ?_ ?_ (fun u a hu => ?_)
  | refine setMgmt_keeps ?_ ?_
  | refine Keeps.ite ?_ ?_
  | (intro _ _)
  | split
  | dsimp only

theorem execAuthBegin_keeps {mk : Nat} {sk : State} {s : State} (hk : Keeps mk sk s) (hm : 1335296 &&& mk = 1335296) :
    ∃ t', execAuthBegin s = .next t' ∧ Keeps mk sk t' := by
  suffices g : ∃ t', execAuthBegin s = .next t' ∧ Keeps 1335296 s t' from g.imp fun _ h => ⟨h.1, hk.trans (h.2.weaken hm)⟩
  refine ⟨_, rfl, ?_⟩
  with_reducible repeat' first
  | exact Keeps.refl _
  | assumption
  | decide
  | refine authBegin_keeps ?_ ?_
  | (intro _ _)
  | split
  | dsimp only

theorem authFailed_keeps {mk : Nat} {sk : State} {s : State} {a : AuthAttempt} {cause : Nat} (hk : Keeps mk sk s) (hm : 7626752 &&& mk = 7626752) :
    Keeps mk sk (authFailed s a cause) := by
  suffices g : Keeps 7626752 s (authFailed s a cause) from hk.trans (g.weaken hm)
  unfold authFailed
  with_reducible repeat' first
  | exact Keeps.refl _
  | assumption
  | decide
  | (extract_lets +onlyGivenNames s1; have h1 : Keeps 7626752 s s1 := (by unfold s1; repeat' first | exact Keeps.refl _ | assumption | decide | refine answerPlain_keeps ?_ ?_ | refine event_keeps ?_ ?_ | refine privCount_keeps ?_ ?_ | refine setMgmt_keeps ?_ ?_ | refine Keeps.ite ?_ ?_ | refine Keeps.iteFst ?_ ?_ | (intro _ _) | split | dsimp only); clear_value s1)
  | (extract_lets +onlyGivenNames x1; clear_value x1)
  | refine answerPlain_keeps ?_ ?_
  | refine event_keeps ?_ ?_
  | refine privCount_keeps ?_ ?_
  | refine setMgmt_keeps ?_ ?_
  | refine Keeps.ite ?_ ?_
  | refine Keeps.iteFst ?_ ?_
  | (intro _ _)
  | split
  | dsimp only

theorem openSession_keeps {mk : Nat} {sk : State} {s : State} {m : Msg} {a : AuthAttempt} (hk : Keeps mk sk s) (hm : 7626760 &&& mk = 7626760) :
    Keeps mk sk (openSession s m a) := by
  suffices g : Keeps 7626760 s (openSession s m a) from hk.trans (g.weaken hm)
  unfold openSession
  with_reducible repeat' first
  | exact Keeps.refl _
  | assumption
  | decide
  | (extract_lets +onlyGivenNames s1; have h1 : Keeps 7626760 s s1 := (by unfold s1; repeat' first | exact Keeps.refl _ | assumption | decide | refine answerPlain_keeps ?_ ?_ | refine count_keeps ?_ ?_ | refine endMailbox_keeps ?_ ?_ | refine event_keeps ?_ ?_ | refine setMgmt_keeps ?_ ?_ | refine Keeps.ite ?_ ?_ | (intro _ _) | split | dsimp only); clear_value s1)
  | (extract_lets +onlyGivenNames x1; clear_value x1)
  | refine answerPlain_keeps ?_ ?_
  | refine count_keeps ?_ ?_
  | refine endMailbox_keeps ?_ ?_
  | refine event_keeps ?_ ?_
  | refine setMgmt_keeps ?_ ?_
  | refine Keeps.ite ?_ ?_
  | (intro _ _)
  | split
  | dsimp only

theorem authProof_keeps {mk : Nat} {sk : State} {s : State} (hk : Keeps mk sk s) (hm : 7626760 &&& mk = 7626760) :
    Keeps mk sk (authProof s) := by
  suffices g : Keeps 7626760 s (authProof s) from hk.trans (g.weaken hm)
  unfold authProof
  with_reducible repeat' first
  | exact Keeps.refl _
  | assumption
  | decide
  | (extract_lets +onlyGivenNames q1; have hq1 : Keeps 7626760 s q1.1 := (by unfold q1; repeat' first | exact Keeps.refl _ | assumption | decide | refine answerPlain_keeps ?_ ?_ | refine authFailed_keeps ?_ ?_ | refine handle_keeps ?_ ?_ (fun u a hu => ?_) | refine openSession_keeps ?_ ?_ | refine setMgmt_keeps ?_ ?_ | refine Keeps.ite ?_ ?_ | (intro _ _) | split | dsimp only); clear_value q1)
  | (extract_lets +onlyGivenNames s1; have h1 : Keeps 7626760 s s1 := (by unfold s1; repeat' first | exact Keeps.refl _ | assumption | decide | refine answerPlain_keeps ?_ ?_ | refine authFailed_keeps ?_ ?_ | refine handle_keeps ?_ ?_ (fun u a hu => ?_) | refine openSession_keeps ?_ ?_ | refine setMgmt_keeps ?_ ?_ | refine Keeps.ite ?_ ?_ | (intro _ _) | split | dsimp only); clear_value s1)
  | (extract_lets +onlyGivenNames x1; clear_value x1)
  | refine answerPlain_keeps ?_ ?_
  | refine authFailed_keeps ?_ ?_
  | refine handle_keeps ?_ ?_ (fun u a hu => ?_)
  | refine openSession_keeps ?_ ?_
  | refine setMgmt_keeps ?_ ?_
  | refine Keeps.ite ?_ ?_
  | (intro _ _)
  | split
  | dsimp only

theorem execAuthProof_keeps {mk : Nat} {sk : State} {s : State} (hk : Keeps mk sk s) (hm : 7626760 &&& mk = 7626760) :
    ∃ t', execAuthProof s = .next t' ∧ Keeps mk sk t' := by
  suffices g : ∃ t', execAuthProof s = .next t' ∧ Keeps 7626760 s t' from g.imp fun _ h => ⟨h.1, hk.trans (h.2.weaken hm)⟩
  refine ⟨_, rfl, ?_⟩
  with_reducible repeat' first
  | exact Keeps.refl _
  | assumption
  | decide
  | refine authProof_keeps ?_ ?_
  | (intro _ _)
  | split
  | dsimp only

theorem authTimeout_keeps {mk : Nat} {sk : State} {num : Nat} {s : State} (hk : Keeps mk sk s) (hm : 7626752 &&& mk = 7626752) :
    Keeps mk sk (authTimeout num s) := by
  suffices g : Keeps 7626752 s (authTimeout num s) from hk.trans (g.weaken hm)
  unfold authTimeout
  with_reducible repeat' first
  | exact Keeps.refl _
  | assumption
  | decide
  | refine authFailed_keeps ?_ ?_
  | refine Keeps.ite ?_ ?_
  | (intro _ _)
  | split
  | dsimp only

theorem execAuthTimeout_keeps {mk : Nat} {sk : State} {sess : Nat} {s : State} (hk : Keeps mk sk s) (hm : 7626752 &&& mk = 7626752) :
    ∃ t', execAuthTimeout sess s = .next t' ∧ Keeps mk sk t' := by
  suffices g : ∃ t', execAuthTimeout sess s = .next t' ∧ Keeps 7626752 s t' from g.imp fun _ h => ⟨h.1, hk.trans (h.2.weaken hm)⟩
  refine ⟨_, rfl, ?_⟩
  with_reducible repeat' first
  | exact Keeps.refl _
  | assumption
  | decide
  | refine authTimeout_keeps ?_ ?_
  | (intro _ _)
  | split
  | dsimp only

theorem lockoutEnd_keeps {mk : Nat} {sk : State} {source : Nat} {s : State} (hk : Keeps mk sk s) (hm : 262144 &&& mk = 262144) :
    Keeps mk sk (lockoutEnd source s) := by
  suffices g : Keeps 262144 s (lockoutEnd source s) from hk.trans (g.weaken hm)
  unfold lockoutEnd
  with_reducible repeat' first
  | exact Keeps.refl _
  | assumption
  | decide
  | refine setMgmt_keeps ?_ ?_
  | refine Keeps.ite ?_ ?_
  | refine Keeps.iteFst ?_ ?_
  | (intro _ _)
  | split
  | dsimp only

theorem execLockoutEnd_keeps {mk : Nat} {sk : State} {source : Nat} {s : State} (hk : Keeps mk sk s) (hm : 262144 &&& mk = 262144) :
    ∃ t', execLockoutEnd source s = .next t' ∧ Keeps mk sk t' := by
  suffices g : ∃ t', execLockoutEnd source s = .next t' ∧ Keeps 262144 s t' from g.imp fun _ h => ⟨h.1, hk.trans (h.2.weaken hm)⟩
  refine ⟨_, rfl, ?_⟩
  with_reducible repeat' first
  | exact Keeps.refl _
  | assumption
  | decide
  | refine lockoutEnd_keeps ?_ ?_
  | (intro _ _)
  | split
  | dsimp only

theorem sessionIdleTimeout_keeps {mk : Nat} {sk : State} {num : Nat} {s : State} (hk : Keeps mk sk s) (hm : 7626760 &&& mk = 7626760) :
    Keeps mk sk (sessionIdleTimeout num s) := by
  suffices g : Keeps 7626760 s (sessionIdleTimeout num s) from hk.trans (g.weaken hm)
  unfold sessionIdleTimeout
  with_reducible repeat' first
  | exact Keeps.refl _
  | assumption
  | decide
  | refine endSession_keeps ?_ ?_
  | refine Keeps.ite ?_ ?_
  | (intro _ _)
  | split
  | dsimp only

theorem execSessionIdleTimeout_keeps {mk : Nat} {sk : State} {sess : Nat} {s : State} (hk : Keeps mk sk s) (hm : 7626760 &&& mk = 7626760) :
    ∃ t', execSessionIdleTimeout sess s = .next t' ∧ Keeps mk sk t' := by
  suffices g : ∃ t', execSessionIdleTimeout sess s = .next t' ∧ Keeps 7626760 s t' from g.imp fun _ h => ⟨h.1, hk.trans (h.2.weaken hm)⟩
  refine ⟨_, rfl, ?_⟩
  with_reducible repeat' first
  | exact Keeps.refl _
  | assumption
  | decide
  | refine sessionIdleTimeout_keeps ?_ ?_
  | (intro _ _)
  | split
  | dsimp only

theorem sessionEnd_keeps {mk : Nat} {sk : State} {s : State} (hk : Keeps mk sk s) (hm : 7626760 &&& mk = 7626760) :
    Keeps mk sk (sessionEnd s) := by
  suffices g : Keeps 7626760 s (sessionEnd s) from hk.trans (g.weaken hm)
  unfold sessionEnd
  with_reducible repeat' first
  | exact Keeps.refl _
  | assumption
  | decide
  | refine answerDone_keeps ?_ ?_
  | refine endSession_keeps ?_ ?_
  | refine handle_keeps ?_ ?_ (fun u a hu => ?_)
  | (intro _ _)
  | split
  | dsimp only

theorem execSessionEnd_keeps {mk : Nat} {sk : State} {s : State} (hk : Keeps mk sk s) (hm : 7626760 &&& mk = 7626760) :
    ∃ t', execSessionEnd s = .next t' ∧ Keeps mk sk t' := by
  suffices g : ∃ t', execSessionEnd s = .next t' ∧ Keeps 7626760 s t' from g.imp fun _ h => ⟨h.1, hk.trans (h.2.weaken hm)⟩
  refine ⟨_, rfl, ?_⟩
  with_reducible repeat' first
  | exact Keeps.refl _
  | assumption
  | decide
  | refine sessionEnd_keeps ?_ ?_
  | (intro _ _)
  | split
  | dsimp only

theorem readAll_keeps {mk : Nat} {sk : State} {sess : Nat} {k : List (Nat × Nat × Nat × Nat)} {s : State} {bs : List Byte} {n : Nat} (hk : Keeps mk sk s) (hm : 7371264 &&& mk = 7371264) :
    Keeps mk sk (readAll sess k s bs n).1 := by
  have aux : ∀ (k : List (Nat × Nat × Nat × Nat)) (bs : List Byte) (n : Nat) (u t : State), Keeps 7371264 u t → Keeps 7371264 u (readAll sess k t bs n).1 := by
    intro k
    induction k with
    | nil => intro bs n u t h0; unfold readAll; exact h0
    | cons x l ih =>
      obtain ⟨ix, sub, off, len⟩ := x
      intro bs n u t h0
      unfold readAll
      with_reducible repeat' first
        | with_reducible exact Keeps.refl _
        | with_reducible assumption
        | decide
        | (extract_lets +onlyGivenNames q1; have hq1 : Keeps 7371264 u q1.1 := (by unfold q1; repeat' first | with_reducible exact Keeps.refl _ | with_reducible assumption | decide | with_reducible refine ih _ _ _ _ ?_ | refine afterRead_keeps ?_ ?_ | refine Keeps.ite ?_ ?_ | (intro _ _) | split | dsimp only); clear_value q1)
        | (extract_lets +onlyGivenNames s1; have h1 : Keeps 7371264 u s1 := (by unfold s1; repeat' first | with_reducible exact Keeps.refl _ | with_reducible assumption | decide | with_reducible refine ih _ _ _ _ ?_ | refine afterRead_keeps ?_ ?_ | refine Keeps.ite ?_ ?_ | (intro _ _) | split | dsimp only); clear_value s1)
        | (extract_lets +onlyGivenNames x1; clear_value x1)
        | with_reducible refine ih _ _ _ _ ?_
        | refine afterRead_keeps ?_ ?_
        | refine Keeps.ite ?_ ?_
        | (intro _ _)
        | split
        | dsimp only
  exact hk.trans ((aux k bs n s s (Keeps.refl s)).weaken hm)

theorem readMsg_keeps {mk : Nat} {sk : State} {s : State} {m : Msg} (hk : Keeps mk sk s) (hm : 7633408 &&& mk = 7633408) :
    Keeps mk sk (readMsg s m) := by
  suffices g : Keeps 7633408 s (readMsg s m) from hk.trans (g.weaken hm)
  unfold readMsg
  with_reducible repeat' first
  | exact Keeps.refl _
  | assumption
  | decide
  | (extract_lets +onlyGivenNames q1; have hq1 : Keeps 7633408 s q1.1 := (by unfold q1; repeat' first | exact Keeps.refl _ | assumption | decide | refine answerDone_keeps ?_ ?_ | refine readAll_keeps ?_ ?_ | refine Keeps.ite ?_ ?_ | refine Keeps.iteFst ?_ ?_ | (intro _ _) | split | dsimp only); clear_value q1)
  | (extract_lets +onlyGivenNames s1; have h1 : Keeps 7633408 s s1 := (by unfold s1; repeat' first | exact Keeps.refl _ | assumption | decide | refine answerDone_keeps ?_ ?_ | refine readAll_keeps ?_ ?_ | refine Keeps.ite ?_ ?_ | refine Keeps.iteFst ?_ ?_ | (intro _ _) | split | dsimp only); clear_value s1)
  | (extract_lets +onlyGivenNames x1; clear_value x1)
  | refine answerDone_keeps ?_ ?_
  | refine readAll_keeps ?_ ?_
  | refine Keeps.ite ?_ ?_
  | refine Keeps.iteFst ?_ ?_
  | (intro _ _)
  | split
  | dsimp only

theorem read_keeps {mk : Nat} {sk : State} {s : State} (hk : Keeps mk sk s) (hm : 7633408 &&& mk = 7633408) :
    Keeps mk sk (Sys2Proof.Machine.read s) := by
  suffices g : Keeps 7633408 s (Sys2Proof.Machine.read s) from hk.trans (g.weaken hm)
  unfold Sys2Proof.Machine.read
  with_reducible repeat' first
  | exact Keeps.refl _
  | assumption
  | decide
  | refine handle_keeps ?_ ?_ (fun u a hu => ?_)
  | refine nextMsg_keeps ?_ ?_ (by assumption)
  | refine readMsg_keeps ?_ ?_
  | refine Keeps.ite ?_ ?_
  | (intro _ _)
  | split
  | dsimp only

theorem execRead_keeps {mk : Nat} {sk : State} {s : State} (hk : Keeps mk sk s) (hm : 7633408 &&& mk = 7633408) :
    ∃ t', execRead s = .next t' ∧ Keeps mk sk t' := by
  suffices g : ∃ t', execRead s = .next t' ∧ Keeps 7633408 s t' from g.imp fun _ h => ⟨h.1, hk.trans (h.2.weaken hm)⟩
  refine ⟨_, rfl, ?_⟩
  with_reducible repeat' first
  | exact Keeps.refl _
  | assumption
  | decide
  | refine read_keeps ?_ ?_
  | (intro _ _)
  | split
  | dsimp only

theorem discard_keeps {mk : Nat} {sk : State} {s : State} (hk : Keeps mk sk s) (hm : 1335296 &&& mk = 1335296) :
    Keeps mk sk (Sys2Proof.Machine.discard s) := by
  suffices g : Keeps 1335296 s (Sys2Proof.Machine.discard s) from hk.trans (g.weaken hm)
  unfold Sys2Proof.Machine.discard
  with_reducible repeat' first
  | exact Keeps.refl _
  | assumption
  | decide
  | refine answerDone_keeps ?_ ?_
  | refine handle_keeps ?_ ?_ (fun u a hu => ?_)
  | refine setSession_keeps ?_ ?_
  | refine Keeps.ite ?_ ?_
  | (intro _ _)
  | split
  | dsimp only

theorem execDiscard_keeps {mk : Nat} {sk : State} {s : State} (hk : Keeps mk sk s) (hm : 1335296 &&& mk = 1335296) :
    ∃ t', execDiscard s = .next t' ∧ Keeps mk sk t' := by
  suffices g : ∃ t', execDiscard s = .next t' ∧ Keeps 1335296 s t' from g.imp fun _ h => ⟨h.1, hk.trans (h.2.weaken hm)⟩
  refine ⟨_, rfl, ?_⟩
  with_reducible repeat' first
  | exact Keeps.refl _
  | assumption
  | decide
  | refine discard_keeps ?_ ?_
  | (intro _ _)
  | split
  | dsimp only

theorem describe_keeps {mk : Nat} {sk : State} {s : State} (hk : Keeps mk sk s) (hm : 1335296 &&& mk = 1335296) :
    Keeps mk sk (describe s) := by
  suffices g : Keeps 1335296 s (describe s) from hk.trans (g.weaken hm)
  unfold describe
  with_reducible repeat' first
  | exact Keeps.refl _
  | assumption
  | decide
  | refine answerDone_keeps ?_ ?_
  | refine handle_keeps ?_ ?_ (fun u a hu => ?_)
  | refine Keeps.ite ?_ ?_
  | (intro _ _)
  | split
  | dsimp only

theorem execDescribe_keeps {mk : Nat} {sk : State} {s : State} (hk : Keeps mk sk s) (hm : 1335296 &&& mk = 1335296) :
    ∃ t', execDescribe s = .next t' ∧ Keeps mk sk t' := by
  suffices g : ∃ t', execDescribe s = .next t' ∧ Keeps 1335296 s t' from g.imp fun _ h => ⟨h.1, hk.trans (h.2.weaken hm)⟩
  refine ⟨_, rfl, ?_⟩
  with_reducible repeat' first
  | exact Keeps.refl _
  | assumption
  | decide
  | refine describe_keeps ?_ ?_
  | (intro _ _)
  | split
  | dsimp only

theorem underHarmir_keeps {mk : Nat} {sk s old : State} {f : State → State} (hk : Keeps mk sk s) (hm : 2 &&& mk = 2)
    (hf : ∀ u, Keeps mk sk u → Keeps mk sk (f u)) : Keeps mk sk (underHarmir old f s) := by
  have hb : mk.testBit 1 = true := by
    rw [← Bool.not_eq_false]
    exact fun e => absurd (clear_of_sub hm e) (by decide)
  unfold underHarmir
  extract_lets t
  have h1 : Keeps mk sk t := hf _ (Keeps.cfg' hk _ hb)
  exact Keeps.cfg' h1 _ hb

theorem finishCommit_keeps {mk : Nat} {sk : State} {s : State} {m : Msg} {x : Session} {items : List (Nat × Nat)} (hk : Keeps mk sk s) (hm : 8388607 &&& mk = 8388607) :
    Keeps mk sk (finishCommit s m x items) := by
  suffices g : Keeps 8388607 s (finishCommit s m x items) from hk.trans (g.weaken hm)
  unfold finishCommit
  with_reducible repeat' first
  | exact Keeps.refl _
  | assumption
  | decide
  | (extract_lets +onlyGivenNames q1; have hq1 : Keeps 8388607 s q1.1 := (by unfold q1; repeat' first | exact Keeps.refl _ | assumption | decide | refine afterFree_keeps ?_ ?_ | refine answerDone_keeps ?_ ?_ | refine applyCommit_keeps ?_ ?_ | refine debugUnlock_keeps ?_ ?_ | refine endSessions_keeps ?_ ?_ | refine requestWarm_keeps ?_ ?_ | refine setSession_keeps ?_ ?_ | refine underHarmir_keeps ?_ ?_ (fun u hu => ?_) | refine zeroise_keeps ?_ ?_ | refine Keeps.ite ?_ ?_ | refine Keeps.iteFst ?_ ?_ | (intro _ _) | split | dsimp only); clear_value q1)
  | (extract_lets +onlyGivenNames s1; have h1 : Keeps 8388607 s s1 := (by unfold s1; repeat' first | exact Keeps.refl _ | assumption | decide | refine afterFree_keeps ?_ ?_ | refine answerDone_keeps ?_ ?_ | refine applyCommit_keeps ?_ ?_ | refine debugUnlock_keeps ?_ ?_ | refine endSessions_keeps ?_ ?_ | refine requestWarm_keeps ?_ ?_ | refine setSession_keeps ?_ ?_ | refine underHarmir_keeps ?_ ?_ (fun u hu => ?_) | refine zeroise_keeps ?_ ?_ | refine Keeps.ite ?_ ?_ | refine Keeps.iteFst ?_ ?_ | (intro _ _) | split | dsimp only); clear_value s1)
  | (extract_lets +onlyGivenNames x1; clear_value x1)
  | refine afterFree_keeps ?_ ?_
  | refine answerDone_keeps ?_ ?_
  | refine applyCommit_keeps ?_ ?_
  | refine debugUnlock_keeps ?_ ?_
  | refine endSessions_keeps ?_ ?_
  | refine requestWarm_keeps ?_ ?_
  | refine setSession_keeps ?_ ?_
  | refine underHarmir_keeps ?_ ?_ (fun u hu => ?_)
  | refine zeroise_keeps ?_ ?_
  | refine Keeps.ite ?_ ?_
  | refine Keeps.iteFst ?_ ?_
  | (intro _ _)
  | split
  | dsimp only

theorem commitFails_keeps {mk : Nat} {sk : State} {s : State} {m : Msg} {x : Session} (hk : Keeps mk sk s) (hm : 8151040 &&& mk = 8151040) :
    Keeps mk sk (commitFails s m x) := by
  suffices g : Keeps 8151040 s (commitFails s m x) from hk.trans (g.weaken hm)
  unfold commitFails
  with_reducible repeat' first
  | exact Keeps.refl _
  | assumption
  | decide
  | (extract_lets +onlyGivenNames s1; have h1 : Keeps 8151040 s s1 := (by unfold s1; repeat' first | exact Keeps.refl _ | assumption | decide | refine answerDone_keeps ?_ ?_ | refine refuseCommit_keeps ?_ ?_ | (intro _ _) | split | dsimp only); clear_value s1)
  | (extract_lets +onlyGivenNames x1; clear_value x1)
  | refine answerDone_keeps ?_ ?_
  | refine refuseCommit_keeps ?_ ?_
  | (intro _ _)
  | split
  | dsimp only

theorem commitMsg_keeps {mk : Nat} {sk : State} {quick : Bool} {s : State} {m : Msg} (hk : Keeps mk sk s) (hm : 8388607 &&& mk = 8388607) :
    Keeps mk sk (commitMsg quick s m) := by
  suffices g : Keeps 8388607 s (commitMsg quick s m) from hk.trans (g.weaken hm)
  unfold commitMsg
  with_reducible repeat' first
  | exact Keeps.refl _
  | assumption
  | decide
  | (extract_lets +onlyGivenNames s1; have h1 : Keeps 8388607 s s1 := (by unfold s1; repeat' first | exact Keeps.refl _ | assumption | decide | refine answerDone_keeps ?_ ?_ | refine finishCommit_keeps ?_ ?_ | refine refuseCommit_keeps ?_ ?_ | refine reply_keeps ?_ ?_ | refine setMgmt_keeps ?_ ?_ | refine Keeps.ite ?_ ?_ | (intro _ _) | split | dsimp only); clear_value s1)
  | (extract_lets +onlyGivenNames x1; clear_value x1)
  | refine answerDone_keeps ?_ ?_
  | refine finishCommit_keeps ?_ ?_
  | refine refuseCommit_keeps ?_ ?_
  | refine reply_keeps ?_ ?_
  | refine setMgmt_keeps ?_ ?_
  | refine Keeps.ite ?_ ?_
  | (intro _ _)
  | split
  | dsimp only

theorem commit_keeps {mk : Nat} {sk : State} {quick : Bool} {s : State} (hk : Keeps mk sk s) (hm : 8388607 &&& mk = 8388607) :
    Keeps mk sk (Sys2Proof.Machine.commit quick s) := by
  suffices g : Keeps 8388607 s (Sys2Proof.Machine.commit quick s) from hk.trans (g.weaken hm)
  unfold Sys2Proof.Machine.commit
  with_reducible repeat' first
  | exact Keeps.refl _
  | assumption
  | decide
  | refine commitMsg_keeps ?_ ?_
  | refine handle_keeps ?_ ?_ (fun u a hu => ?_)
  | refine settle_keeps ?_ ?_
  | refine Keeps.ite ?_ ?_
  | (intro _ _)
  | split
  | dsimp only

theorem execCommit_keeps {mk : Nat} {sk : State} {quick : Bool} {s : State} (hk : Keeps mk sk s) (hm : 8388607 &&& mk = 8388607) :
    ∃ t', execCommit quick s = .next t' ∧ Keeps mk sk t' := by
  suffices g : ∃ t', execCommit quick s = .next t' ∧ Keeps 8388607 s t' from g.imp fun _ h => ⟨h.1, hk.trans (h.2.weaken hm)⟩
  refine ⟨_, rfl, ?_⟩
  with_reducible repeat' first
  | exact Keeps.refl _
  | assumption
  | decide
  | refine commit_keeps ?_ ?_
  | (intro _ _)
  | split
  | dsimp only

theorem commitFlashDone_keeps {mk : Nat} {sk : State} {ok : Bool} {s : State} (hk : Keeps mk sk s) (hm : 8388607 &&& mk = 8388607) :
    Keeps mk sk (commitFlashDone ok s) := by
  suffices g : Keeps 8388607 s (commitFlashDone ok s) from hk.trans (g.weaken hm)
  unfold commitFlashDone
  with_reducible repeat' first
  | exact Keeps.refl _
  | assumption
  | decide
  | (extract_lets +onlyGivenNames s1; have h1 : Keeps 8388607 s s1 := (by unfold s1; repeat' first | exact Keeps.refl _ | assumption | decide | refine commitFails_keeps ?_ ?_ | refine finishCommit_keeps ?_ ?_ | refine releaseWarm_keeps ?_ ?_ | refine setMgmt_keeps ?_ ?_ | refine settle_keeps ?_ ?_ | refine Keeps.ite ?_ ?_ | (intro _ _) | split | dsimp only); clear_value s1)
  | (extract_lets +onlyGivenNames x1; clear_value x1)
  | refine commitFails_keeps ?_ ?_
  | refine finishCommit_keeps ?_ ?_
  | refine releaseWarm_keeps ?_ ?_
  | refine setMgmt_keeps ?_ ?_
  | refine settle_keeps ?_ ?_
  | refine Keeps.ite ?_ ?_
  | (intro _ _)
  | split
  | dsimp only

theorem execCommitFlashDone_keeps {mk : Nat} {sk : State} {ok : Bool} {s : State} (hk : Keeps mk sk s) (hm : 8388607 &&& mk = 8388607) :
    ∃ t', execCommitFlashDone ok s = .next t' ∧ Keeps mk sk t' := by
  suffices g : ∃ t', execCommitFlashDone ok s = .next t' ∧ Keeps 8388607 s t' from g.imp fun _ h => ⟨h.1, hk.trans (h.2.weaken hm)⟩
  refine ⟨_, rfl, ?_⟩
  with_reducible repeat' first
  | exact Keeps.refl _
  | assumption
  | decide
  | refine commitFlashDone_keeps ?_ ?_
  | (intro _ _)
  | split
  | dsimp only

theorem heartbeatSend_keeps {mk : Nat} {sk : State} {s : State} (hk : Keeps mk sk s) (hm : 1310720 &&& mk = 1310720) :
    Keeps mk sk (heartbeatSend s) := by
  suffices g : Keeps 1310720 s (heartbeatSend s) from hk.trans (g.weaken hm)
  unfold heartbeatSend
  with_reducible repeat' first
  | exact Keeps.refl _
  | assumption
  | decide
  | refine sendHeartbeat_keeps ?_ ?_
  | refine setMgmt_keeps ?_ ?_
  | refine Keeps.ite ?_ ?_
  | (intro _ _)
  | split
  | dsimp only

theorem execHeartbeatSend_keeps {mk : Nat} {sk : State} {s : State} (hk : Keeps mk sk s) (hm : 1310720 &&& mk = 1310720) :
    ∃ t', execHeartbeatSend s = .next t' ∧ Keeps mk sk t' := by
  suffices g : ∃ t', execHeartbeatSend s = .next t' ∧ Keeps 1310720 s t' from g.imp fun _ h => ⟨h.1, hk.trans (h.2.weaken hm)⟩
  refine ⟨_, rfl, ?_⟩
  with_reducible repeat' first
  | exact Keeps.refl _
  | assumption
  | decide
  | refine heartbeatSend_keeps ?_ ?_
  | (intro _ _)
  | split
  | dsimp only

theorem heartbeat_keeps {mk : Nat} {sk : State} {s : State} (hk : Keeps mk sk s) (hm : 1310720 &&& mk = 1310720) :
    Keeps mk sk (heartbeat s) := by
  suffices g : Keeps 1310720 s (heartbeat s) from hk.trans (g.weaken hm)
  unfold heartbeat
  with_reducible repeat' first
  | exact Keeps.refl _
  | assumption
  | decide
  | (extract_lets +onlyGivenNames q1; have hq1 : Keeps 1310720 s q1.1 := (by unfold q1; repeat' first | exact Keeps.refl _ | assumption | decide | refine count_keeps ?_ ?_ | refine nextMsg_keeps ?_ ?_ (by assumption) | refine sendHeartbeat_keeps ?_ ?_ | refine setMgmt_keeps ?_ ?_ | refine Keeps.ite ?_ ?_ | (intro _ _) | split | dsimp only); clear_value q1)
  | (extract_lets +onlyGivenNames s1; have h1 : Keeps 1310720 s s1 := (by unfold s1; repeat' first | exact Keeps.refl _ | assumption | decide | refine count_keeps ?_ ?_ | refine nextMsg_keeps ?_ ?_ (by assumption) | refine sendHeartbeat_keeps ?_ ?_ | refine setMgmt_keeps ?_ ?_ | refine Keeps.ite ?_ ?_ | (intro _ _) | split | dsimp only); clear_value s1)
  | (extract_lets +onlyGivenNames x1; clear_value x1)
  | refine count_keeps ?_ ?_
  | refine nextMsg_keeps ?_ ?_ (by assumption)
  | refine sendHeartbeat_keeps ?_ ?_
  | refine setMgmt_keeps ?_ ?_
  | refine Keeps.ite ?_ ?_
  | (intro _ _)
  | split
  | dsimp only

theorem execHeartbeat_keeps {mk : Nat} {sk : State} {s : State} (hk : Keeps mk sk s) (hm : 1310720 &&& mk = 1310720) :
    ∃ t', execHeartbeat s = .next t' ∧ Keeps mk sk t' := by
  suffices g : ∃ t', execHeartbeat s = .next t' ∧ Keeps 1310720 s t' from g.imp fun _ h => ⟨h.1, hk.trans (h.2.weaken hm)⟩
  refine ⟨_, rfl, ?_⟩
  with_reducible repeat' first
  | exact Keeps.refl _
  | assumption
  | decide
  | refine heartbeat_keeps ?_ ?_
  | (intro _ _)
  | split
  | dsimp only

theorem putLease_keeps {mk : Nat} {sk : State} {s : State} {x : Lease} (hk : Keeps mk sk s) (hm : 262144 &&& mk = 262144) :
    Keeps mk sk (putLease s x) := by
  suffices g : Keeps 262144 s (putLease s x) from hk.trans (g.weaken hm)
  unfold putLease
  with_reducible repeat' first
  | exact Keeps.refl _
  | assumption
  | decide
  | (extract_lets +onlyGivenNames s1; have h1 : Keeps 262144 s s1 := (by unfold s1; repeat' first | exact Keeps.refl _ | assumption | decide | refine setMgmt_keeps ?_ ?_ | refine Keeps.ite ?_ ?_ | (intro _ _) | split | dsimp only); clear_value s1)
  | (extract_lets +onlyGivenNames x1; clear_value x1)
  | refine setMgmt_keeps ?_ ?_
  | refine Keeps.ite ?_ ?_
  | (intro _ _)
  | split
  | dsimp only

theorem claimAnswer_keeps {mk : Nat} {sk : State} {s : State} {c : PendingClaim} {status : Nat} {term : Nat} (hk : Keeps mk sk s) (hm : 7626752 &&& mk = 7626752) :
    Keeps mk sk (claimAnswer s c status term) := by
  suffices g : Keeps 7626752 s (claimAnswer s c status term) from hk.trans (g.weaken hm)
  unfold claimAnswer
  with_reducible repeat' first
  | exact Keeps.refl _
  | assumption
  | decide
  | (extract_lets +onlyGivenNames s1; have h1 : Keeps 7626752 s s1 := (by unfold s1; repeat' first | exact Keeps.refl _ | assumption | decide | refine busSend_keeps ?_ ?_ | refine count_keeps ?_ ?_ | refine event_keeps ?_ ?_ | (intro _ _) | split | dsimp only); clear_value s1)
  | (extract_lets +onlyGivenNames x1; clear_value x1)
  | refine busSend_keeps ?_ ?_
  | refine count_keeps ?_ ?_
  | refine event_keeps ?_ ?_
  | (intro _ _)
  | split
  | dsimp only

theorem grantClaim_keeps {mk : Nat} {sk : State} {s : State} {c : PendingClaim} (hk : Keeps mk sk s) (hm : 7626752 &&& mk = 7626752) :
    Keeps mk sk (grantClaim s c) := by
  suffices g : Keeps 7626752 s (grantClaim s c) from hk.trans (g.weaken hm)
  unfold grantClaim
  with_reducible repeat' first
  | exact Keeps.refl _
  | assumption
  | decide
  | (extract_lets +onlyGivenNames s1; have h1 : Keeps 7626752 s s1 := (by unfold s1; repeat' first | exact Keeps.refl _ | assumption | decide | refine claimAnswer_keeps ?_ ?_ | refine putLease_keeps ?_ ?_ | refine setMgmt_keeps ?_ ?_ | refine Keeps.foldl ?_ _ (fun u a hu => ?_) | refine Keeps.foldlFst ?_ _ (fun u a hu => ?_) | (intro _ _) | split | dsimp only); clear_value s1)
  | (extract_lets +onlyGivenNames x1; clear_value x1)
  | refine claimAnswer_keeps ?_ ?_
  | refine putLease_keeps ?_ ?_
  | refine setMgmt_keeps ?_ ?_
  | refine Keeps.foldl ?_ _ (fun u a hu => ?_)
  | refine Keeps.foldlFst ?_ _ (fun u a hu => ?_)
  | (intro _ _)
  | split
  | dsimp only

theorem refuseClaims_keeps {mk : Nat} {sk : State} {s : State} {kind : Nat} {ident : Nat} {term : Nat} (hk : Keeps mk sk s) (hm : 7626752 &&& mk = 7626752) :
    Keeps mk sk (refuseClaims s kind ident term) := by
  suffices g : Keeps 7626752 s (refuseClaims s kind ident term) from hk.trans (g.weaken hm)
  unfold refuseClaims
  with_reducible repeat' first
  | exact Keeps.refl _
  | assumption
  | decide
  | (extract_lets +onlyGivenNames s1; have h1 : Keeps 7626752 s s1 := (by unfold s1; repeat' first | exact Keeps.refl _ | assumption | decide | refine claimAnswer_keeps ?_ ?_ | refine setMgmt_keeps ?_ ?_ | refine Keeps.foldl ?_ _ (fun u a hu => ?_) | refine Keeps.foldlFst ?_ _ (fun u a hu => ?_) | (intro _ _) | split | dsimp only); clear_value s1)
  | (extract_lets +onlyGivenNames x1; clear_value x1)
  | refine claimAnswer_keeps ?_ ?_
  | refine setMgmt_keeps ?_ ?_
  | refine Keeps.foldl ?_ _ (fun u a hu => ?_)
  | refine Keeps.foldlFst ?_ _ (fun u a hu => ?_)
  | (intro _ _)
  | split
  | dsimp only

theorem leaseAnswer_keeps {mk : Nat} {sk : State} {s : State} {m : Msg} {status : Nat} {holder : Nat} {term : Nat} {left : Nat} (hk : Keeps mk sk s) (hm : 1310720 &&& mk = 1310720) :
    Keeps mk sk (leaseAnswer s m status holder term left) := by
  suffices g : Keeps 1310720 s (leaseAnswer s m status holder term left) from hk.trans (g.weaken hm)
  unfold leaseAnswer
  with_reducible repeat' first
  | exact Keeps.refl _
  | assumption
  | decide
  | refine busSend_keeps ?_ ?_
  | refine count_keeps ?_ ?_
  | (intro _ _)
  | split
  | dsimp only

theorem lease_keeps {mk : Nat} {sk : State} {s : State} (hk : Keeps mk sk s) (hm : 7626752 &&& mk = 7626752) :
    Keeps mk sk (lease s) := by
  suffices g : Keeps 7626752 s (lease s) from hk.trans (g.weaken hm)
  unfold lease
  with_reducible repeat' first
  | exact Keeps.refl _
  | assumption
  | decide
  | (extract_lets +onlyGivenNames q1; have hq1 : Keeps 7626752 s q1.1 := (by unfold q1; repeat' first | exact Keeps.refl _ | assumption | decide | refine event_keeps ?_ ?_ | refine leaseAnswer_keeps ?_ ?_ | refine nextMsg_keeps ?_ ?_ (by assumption) | refine putLease_keeps ?_ ?_ | refine refuseClaims_keeps ?_ ?_ | refine Keeps.ite ?_ ?_ | (intro _ _) | split | dsimp only); clear_value q1)
  | (extract_lets +onlyGivenNames s1; have h1 : Keeps 7626752 s s1 := (by unfold s1; repeat' first | exact Keeps.refl _ | assumption | decide | refine event_keeps ?_ ?_ | refine leaseAnswer_keeps ?_ ?_ | refine nextMsg_keeps ?_ ?_ (by assumption) | refine putLease_keeps ?_ ?_ | refine refuseClaims_keeps ?_ ?_ | refine Keeps.ite ?_ ?_ | (intro _ _) | split | dsimp only); clear_value s1)
  | (extract_lets +onlyGivenNames x1; clear_value x1)
  | refine event_keeps ?_ ?_
  | refine leaseAnswer_keeps ?_ ?_
  | refine nextMsg_keeps ?_ ?_ (by assumption)
  | refine putLease_keeps ?_ ?_
  | refine refuseClaims_keeps ?_ ?_
  | refine Keeps.ite ?_ ?_
  | (intro _ _)
  | split
  | dsimp only

theorem execLease_keeps {mk : Nat} {sk : State} {s : State} (hk : Keeps mk sk s) (hm : 7626752 &&& mk = 7626752) :
    ∃ t', execLease s = .next t' ∧ Keeps mk sk t' := by
  suffices g : ∃ t', execLease s = .next t' ∧ Keeps 7626752 s t' from g.imp fun _ h => ⟨h.1, hk.trans (h.2.weaken hm)⟩
  refine ⟨_, rfl, ?_⟩
  with_reducible repeat' first
  | exact Keeps.refl _
  | assumption
  | decide
  | refine lease_keeps ?_ ?_
  | (intro _ _)
  | split
  | dsimp only

theorem leaseExpiry_keeps {mk : Nat} {sk : State} {slot : Nat} {s : State} (hk : Keeps mk sk s) (hm : 7626752 &&& mk = 7626752) :
    Keeps mk sk (leaseExpiry slot s) := by
  suffices g : Keeps 7626752 s (leaseExpiry slot s) from hk.trans (g.weaken hm)
  unfold leaseExpiry
  with_reducible repeat' first
  | exact Keeps.refl _
  | assumption
  | decide
  | (extract_lets +onlyGivenNames s1; have h1 : Keeps 7626752 s s1 := (by unfold s1; repeat' first | exact Keeps.refl _ | assumption | decide | refine grantClaim_keeps ?_ ?_ | refine putLease_keeps ?_ ?_ | refine Keeps.ite ?_ ?_ | (intro _ _) | split | dsimp only); clear_value s1)
  | (extract_lets +onlyGivenNames x1; clear_value x1)
  | refine grantClaim_keeps ?_ ?_
  | refine putLease_keeps ?_ ?_
  | refine Keeps.ite ?_ ?_
  | (intro _ _)
  | split
  | dsimp only

theorem execLeaseExpiry_keeps {mk : Nat} {sk : State} {slot : Fin 16} {s : State} (hk : Keeps mk sk s) (hm : 7626752 &&& mk = 7626752) :
    ∃ t', execLeaseExpiry slot s = .next t' ∧ Keeps mk sk t' := by
  suffices g : ∃ t', execLeaseExpiry slot s = .next t' ∧ Keeps 7626752 s t' from g.imp fun _ h => ⟨h.1, hk.trans (h.2.weaken hm)⟩
  refine ⟨_, rfl, ?_⟩
  with_reducible repeat' first
  | exact Keeps.refl _
  | assumption
  | decide
  | refine leaseExpiry_keeps ?_ ?_
  | (intro _ _)
  | split
  | dsimp only

theorem claim_keeps {mk : Nat} {sk : State} {s : State} (hk : Keeps mk sk s) (hm : 7626752 &&& mk = 7626752) :
    Keeps mk sk (claim s) := by
  suffices g : Keeps 7626752 s (claim s) from hk.trans (g.weaken hm)
  unfold claim
  with_reducible repeat' first
  | exact Keeps.refl _
  | assumption
  | decide
  | (extract_lets +onlyGivenNames q1; have hq1 : Keeps 7626752 s q1.1 := (by unfold q1; repeat' first | exact Keeps.refl _ | assumption | decide | refine grantClaim_keeps ?_ ?_ | refine nextMsg_keeps ?_ ?_ (by assumption) | refine setMgmt_keeps ?_ ?_ | refine Keeps.ite ?_ ?_ | (intro _ _) | split | dsimp only); clear_value q1)
  | (extract_lets +onlyGivenNames s1; have h1 : Keeps 7626752 s s1 := (by unfold s1; repeat' first | exact Keeps.refl _ | assumption | decide | refine grantClaim_keeps ?_ ?_ | refine nextMsg_keeps ?_ ?_ (by assumption) | refine setMgmt_keeps ?_ ?_ | refine Keeps.ite ?_ ?_ | (intro _ _) | split | dsimp only); clear_value s1)
  | (extract_lets +onlyGivenNames x1; clear_value x1)
  | refine grantClaim_keeps ?_ ?_
  | refine nextMsg_keeps ?_ ?_ (by assumption)
  | refine setMgmt_keeps ?_ ?_
  | refine Keeps.ite ?_ ?_
  | (intro _ _)
  | split
  | dsimp only

theorem execClaim_keeps {mk : Nat} {sk : State} {s : State} (hk : Keeps mk sk s) (hm : 7626752 &&& mk = 7626752) :
    ∃ t', execClaim s = .next t' ∧ Keeps mk sk t' := by
  suffices g : ∃ t', execClaim s = .next t' ∧ Keeps 7626752 s t' from g.imp fun _ h => ⟨h.1, hk.trans (h.2.weaken hm)⟩
  refine ⟨_, rfl, ?_⟩
  with_reducible repeat' first
  | exact Keeps.refl _
  | assumption
  | decide
  | refine claim_keeps ?_ ?_
  | (intro _ _)
  | split
  | dsimp only

theorem claimPendingTimeout_keeps {mk : Nat} {sk : State} {slot : Nat} {s : State} (hk : Keeps mk sk s) (hm : 7626752 &&& mk = 7626752) :
    Keeps mk sk (claimPendingTimeout slot s) := by
  suffices g : Keeps 7626752 s (claimPendingTimeout slot s) from hk.trans (g.weaken hm)
  unfold claimPendingTimeout
  with_reducible repeat' first
  | exact Keeps.refl _
  | assumption
  | decide
  | refine claimAnswer_keeps ?_ ?_
  | refine grantClaim_keeps ?_ ?_
  | refine setMgmt_keeps ?_ ?_
  | refine Keeps.ite ?_ ?_
  | (intro _ _)
  | split
  | dsimp only

theorem execClaimPendingTimeout_keeps {mk : Nat} {sk : State} {slot : Fin 16} {s : State} (hk : Keeps mk sk s) (hm : 7626752 &&& mk = 7626752) :
    ∃ t', execClaimPendingTimeout slot s = .next t' ∧ Keeps mk sk t' := by
  suffices g : ∃ t', execClaimPendingTimeout slot s = .next t' ∧ Keeps 7626752 s t' from g.imp fun _ h => ⟨h.1, hk.trans (h.2.weaken hm)⟩
  refine ⟨_, rfl, ?_⟩
  with_reducible repeat' first
  | exact Keeps.refl _
  | assumption
  | decide
  | refine claimPendingTimeout_keeps ?_ ?_
  | (intro _ _)
  | split
  | dsimp only

theorem witnessStartupEnd_keeps {mk : Nat} {sk : State} {s : State} (hk : Keeps mk sk s) (hm : 7626752 &&& mk = 7626752) :
    Keeps mk sk (witnessStartupEnd s) := by
  suffices g : Keeps 7626752 s (witnessStartupEnd s) from hk.trans (g.weaken hm)
  unfold witnessStartupEnd
  with_reducible repeat' first
  | exact Keeps.refl _
  | assumption
  | decide
  | (extract_lets +onlyGivenNames s1; have h1 : Keeps 7626752 s s1 := (by unfold s1; repeat' first | exact Keeps.refl _ | assumption | decide | refine grantClaim_keeps ?_ ?_ | refine setMgmt_keeps ?_ ?_ | refine Keeps.ite ?_ ?_ | refine Keeps.foldl ?_ _ (fun u a hu => ?_) | refine Keeps.foldlFst ?_ _ (fun u a hu => ?_) | (intro _ _) | split | dsimp only); clear_value s1)
  | (extract_lets +onlyGivenNames x1; clear_value x1)
  | refine grantClaim_keeps ?_ ?_
  | refine setMgmt_keeps ?_ ?_
  | refine Keeps.ite ?_ ?_
  | refine Keeps.foldl ?_ _ (fun u a hu => ?_)
  | refine Keeps.foldlFst ?_ _ (fun u a hu => ?_)
  | (intro _ _)
  | split
  | dsimp only

theorem execWitnessStartupEnd_keeps {mk : Nat} {sk : State} {s : State} (hk : Keeps mk sk s) (hm : 7626752 &&& mk = 7626752) :
    ∃ t', execWitnessStartupEnd s = .next t' ∧ Keeps mk sk t' := by
  suffices g : ∃ t', execWitnessStartupEnd s = .next t' ∧ Keeps 7626752 s t' from g.imp fun _ h => ⟨h.1, hk.trans (h.2.weaken hm)⟩
  refine ⟨_, rfl, ?_⟩
  with_reducible repeat' first
  | exact Keeps.refl _
  | assumption
  | decide
  | refine witnessStartupEnd_keeps ?_ ?_
  | (intro _ _)
  | split
  | dsimp only

end Sys2Proof.Laws
end

