-- ==== Sys2Proof/Laws/KeepsAll.lean ====
section
/-!
SUPPORT. What the functions keep, one lemma each: writes of objects, register targets and egress; and of every command.
-/

namespace Sys2Proof.Laws

open Sys2Proof.Machine

set_option linter.all false

/-! ### Actions -/

theorem execFeedClear_keeps {mk : Nat} {sk : State} {sess : Nat} {f : Feed} {value : Nat} {s : State} (hk : Keeps mk sk s) (hm : 7626776 &&& mk = 7626776) :
    ∃ t', execFeedClear sess f value s = .next t' ∧ Keeps mk sk t' := by
  suffices g : ∃ t', execFeedClear sess f value s = .next t' ∧ Keeps 7626776 s t' from g.imp fun _ h => ⟨h.1, hk.trans (h.2.weaken hm)⟩
  refine ⟨_, rfl, ?_⟩
  with_reducible repeat' first
  | exact Keeps.refl _
  | assumption
  | decide
  | refine actFeedClear_keeps ?_ ?_
  | refine actWrite_keeps ?_ rfl (fun u hu => ?_) (fun u hu => ?_)
  | refine health_keeps ?_ ?_
  | refine onOne_keeps ?_ (fun u hu => ?_)
  | simp only [id_eq]
  | (intro _ _)
  | split
  | dsimp only

theorem actPairClear_keeps {mk : Nat} {sk : State} {sess : Nat} {s : State} (hk : Keeps mk sk s) (hm : 524288 &&& mk = 524288) :
    Keeps mk sk (actPairClear sess s) := by
  suffices g : Keeps 524288 s (actPairClear sess s) from hk.trans (g.weaken hm)
  unfold actPairClear
  with_reducible repeat' first
  | exact Keeps.refl _
  | assumption
  | decide
  | (fail_if_no_progress refine Keeps.vault' ?_ _ rfl)
  | (intro _ _)
  | split
  | dsimp only

theorem actStickyClear_keeps {mk : Nat} {sk : State} {value : Nat} {s : State} (hk : Keeps mk sk s) (hm : 1048576 &&& mk = 1048576) :
    Keeps mk sk (actStickyClear value s) := by
  suffices g : Keeps 1048576 s (actStickyClear value s) from hk.trans (g.weaken hm)
  unfold actStickyClear
  with_reducible repeat' first
  | exact Keeps.refl _
  | assumption
  | decide
  | refine Keeps.foldl ?_ _ (fun u a hu => ?_)
  | refine Keeps.foldlFst ?_ _ (fun u a hu => ?_)
  | (fail_if_no_progress refine Keeps.obs' ?_ _ rfl)
  | (intro _ _)
  | split
  | dsimp only

theorem actBlockOffset_keeps {mk : Nat} {sk : State} {sess : Nat} {value : Nat} {s : State} (hk : Keeps mk sk s) (hm : 262144 &&& mk = 262144) :
    Keeps mk sk (actBlockOffset sess value s) := by
  suffices g : Keeps 262144 s (actBlockOffset sess value s) from hk.trans (g.weaken hm)
  unfold actBlockOffset
  with_reducible repeat' first
  | exact Keeps.refl _
  | assumption
  | decide
  | refine setSession_keeps ?_ ?_
  | (intro _ _)
  | split
  | dsimp only

theorem outState_keeps {mk : Nat} {sk s : State} {o : Host.Outcome State Fault Refusal} (h : ∃ t, o = .next t ∧ Keeps mk sk t) :
    Keeps mk sk (outState o s) := by
  obtain ⟨t, rfl, h⟩ := h
  exact h

theorem onFin_keeps {mk n k : Nat} {sk s : State} {f : Fin n → State} (hk : Keeps mk sk s) (hf : ∀ i, Keeps mk sk (f i)) :
    Keeps mk sk (onFin n k f s) := by
  unfold onFin
  split
  · exact hf _
  · exact hk

theorem actLow_keeps {mk : Nat} {sk : State} {sess : Nat} {index : Nat} {sub : Nat} {v : Nat} {s : State} (hk : Keeps mk sk s) (hm : 8388569 &&& mk = 8388569) :
    Keeps mk sk (actLow sess index sub v s) := by
  suffices g : Keeps 8388569 s (actLow sess index sub v s) from hk.trans (g.weaken hm)
  unfold actLow
  with_reducible repeat' first
  | exact Keeps.refl _
  | assumption
  | decide
  | refine actBlockOffset_keeps ?_ ?_
  | refine actWrite_keeps ?_ rfl (fun u hu => ?_) (fun u hu => ?_)
  | refine outState_keeps (execAdaptFreeze_keeps ?_ ?_)
  | refine outState_keeps (execFeedClear_keeps ?_ ?_)
  | refine outState_keeps (execFtSet_keeps ?_ ?_)
  | refine outState_keeps (execFwActivateCancel_keeps ?_ ?_)
  | refine outState_keeps (execFwActivateCmd_keeps ?_ ?_)
  | refine outState_keeps (execFwBlockData_keeps ?_ ?_)
  | refine outState_keeps (execFwLoadBegin_keeps ?_ ?_)
  | refine outState_keeps (execFwLoadEnd_keeps ?_ ?_)
  | refine outState_keeps (execMarginStart_keeps ?_ ?_)
  | refine outState_keeps (execProxyFree_keeps ?_ ?_)
  | refine outState_keeps (execTestEnterCmd_keeps ?_ ?_)
  | refine outState_keeps (execVsResetCmd_keeps ?_ ?_)
  | refine outState_keeps (execWarmResetCmd_keeps ?_ ?_)
  | refine outState_keeps (execWeftRetrainCmd_keeps ?_ ?_)
  | refine onFin_keeps ?_ (fun i => ?_)
  | refine outState_keeps ?_ ?_
  | simp only [id_eq]
  | (intro _ _)
  | split
  | dsimp only

theorem actHigh_keeps {mk : Nat} {sk : State} {sess : Nat} {index : Nat} {sub : Nat} {v : Nat} {s : State} (hk : Keeps mk sk s) (hm : 8388504 &&& mk = 8388504) :
    Keeps mk sk (actHigh sess index sub v s) := by
  suffices g : Keeps 8388504 s (actHigh sess index sub v s) from hk.trans (g.weaken hm)
  unfold actHigh
  with_reducible repeat' first
  | exact Keeps.refl _
  | assumption
  | decide
  | (extract_lets +onlyGivenNames s1; have h1 : Keeps 8388504 s s1 := (by unfold s1; repeat' first | exact Keeps.refl _ | assumption | decide | refine actBerrClear_keeps ?_ ?_ | refine actIhRearm_keeps ?_ ?_ | refine actInBerrClear_keeps ?_ ?_ | refine actPairClear_keeps ?_ ?_ | refine actStickyClear_keeps ?_ ?_ | refine actWrite_keeps ?_ rfl (fun u hu => ?_) (fun u hu => ?_) | refine dobConnCmd_keeps ?_ ?_ | refine outState_keeps (execBoltCapture_keeps ?_ ?_) | refine outState_keeps (execBoltRelease_keeps ?_ ?_) | refine outState_keeps (execHedCommit_keeps ?_ ?_) | refine outState_keeps (execMasterForce_keeps ?_ ?_) | refine outState_keeps (execPostfailClear_keeps ?_ ?_) | refine outState_keeps (execRekeyAll_keeps ?_ ?_) | refine outState_keeps (execSelErrClear_keeps ?_ ?_) | refine outState_keeps (execSelIsolateCmd_keeps ?_ ?_) | refine outState_keeps (execSpoolMark_keeps ?_ ?_) | refine outState_keeps (execSpoolRelease_keeps ?_ ?_) | refine outState_keeps (execSpoolRestart_keeps ?_ ?_) | refine outState_keeps (execSpoolRewind_keeps ?_ ?_) | refine outState_keeps (execTallyHold_keeps ?_ ?_) | refine onFin_keeps ?_ (fun i => ?_) | refine onOne_keeps ?_ (fun u hu => ?_) | refine outState_keeps ?_ ?_ | simp only [id_eq] | (intro _ _) | split | dsimp only); clear_value s1)
  | (extract_lets +onlyGivenNames x1; clear_value x1)
  | refine actBerrClear_keeps ?_ ?_
  | refine actIhRearm_keeps ?_ ?_
  | refine actInBerrClear_keeps ?_ ?_
  | refine actPairClear_keeps ?_ ?_
  | refine actStickyClear_keeps ?_ ?_
  | refine actWrite_keeps ?_ rfl (fun u hu => ?_) (fun u hu => ?_)
  | refine dobConnCmd_keeps ?_ ?_
  | refine outState_keeps (execBoltCapture_keeps ?_ ?_)
  | refine outState_keeps (execBoltRelease_keeps ?_ ?_)
  | refine outState_keeps (execHedCommit_keeps ?_ ?_)
  | refine outState_keeps (execMasterForce_keeps ?_ ?_)
  | refine outState_keeps (execPostfailClear_keeps ?_ ?_)
  | refine outState_keeps (execRekeyAll_keeps ?_ ?_)
  | refine outState_keeps (execSelErrClear_keeps ?_ ?_)
  | refine outState_keeps (execSelIsolateCmd_keeps ?_ ?_)
  | refine outState_keeps (execSpoolMark_keeps ?_ ?_)
  | refine outState_keeps (execSpoolRelease_keeps ?_ ?_)
  | refine outState_keeps (execSpoolRestart_keeps ?_ ?_)
  | refine outState_keeps (execSpoolRewind_keeps ?_ ?_)
  | refine outState_keeps (execTallyHold_keeps ?_ ?_)
  | refine onFin_keeps ?_ (fun i => ?_)
  | refine onOne_keeps ?_ (fun u hu => ?_)
  | refine outState_keeps ?_ ?_
  | simp only [id_eq]
  | (intro _ _)
  | split
  | dsimp only

theorem actObject_keeps {mk : Nat} {sk : State} {sess : Nat} {index : Nat} {sub : Nat} {v : Nat} {s : State} (hk : Keeps mk sk s) (hm : 8388569 &&& mk = 8388569) :
    Keeps mk sk (actObject sess index sub v s) := by
  suffices g : Keeps 8388569 s (actObject sess index sub v s) from hk.trans (g.weaken hm)
  unfold actObject
  with_reducible repeat' first
  | exact Keeps.refl _
  | assumption
  | decide
  | refine actHigh_keeps ?_ ?_
  | refine actLow_keeps ?_ ?_
  | refine Keeps.ite ?_ ?_
  | (intro _ _)
  | split
  | dsimp only

theorem stageValue_keeps {mk : Nat} {sk : State} {s : State} {x : Session} {k : Nat} {v : Nat} {bytes : Nat} (hk : Keeps mk sk s) (hm : 262144 &&& mk = 262144) :
    Keeps mk sk (stageValue s x k v bytes).1 := by
  suffices g : Keeps 262144 s (stageValue s x k v bytes).1 from hk.trans (g.weaken hm)
  unfold stageValue
  with_reducible repeat' first
  | exact Keeps.refl _
  | assumption
  | decide
  | refine setSession_keeps ?_ ?_
  | refine Keeps.ite ?_ ?_
  | refine Keeps.iteFst ?_ ?_
  | (intro _ _)
  | split
  | dsimp only


theorem writeValue_keeps {mk : Nat} {sk s : State} {x : Session} {r : ObjRow} {index sub v : Nat} (hk : Keeps mk sk s)
    (hm : 8388569 &&& mk = 8388569) : Keeps mk sk (writeValue s x r index sub v).1 := by
  suffices g : Keeps 8388569 s (writeValue s x r index sub v).1 from hk.trans (g.weaken hm)
  have h0 : Keeps 8388569 s s := Keeps.refl s
  have ha : Keeps 8388569 s (match (actObject x.num index sub v s, r) with | (t, _) => t) := actObject_keeps h0 (by decide)
  have key : ∀ (t : State) (p : Emit → Bool) , Keeps 8388569 s t → Keeps 8388569 s { t with tx := t.tx.take s.tx.length ++ (t.tx.drop s.tx.length).filter p } := by
    intro t p h
    obtain ⟨l, e⟩ := h.tx
    exact { Keeps.tx' h t.tx List.prefix_rfl with
      tx := ⟨(t.tx.drop s.tx.length).filter p, by
        show s.tx ++ _ = t.tx.take s.tx.length ++ _
        rw [← e, List.take_left]⟩ }
  have act : Keeps 8388569 s (match (let t := actObject x.num index sub v s
      let new := t.tx.drop s.tx.length
      match new.findSome? (fun (e : Emit) => match e with
        | Emit.status n ix sb st => if n = x.num && ix = index && sb = sub then some st else none
        | _ => none) with
      | some st =>
        (({ t with tx := t.tx.take s.tx.length ++ new.filter fun e => match e with
            | Emit.status n ix sb _ => !(n = x.num && ix = index && sb = sub)
            | _ => true }, st) : State × Nat)
      | none => (t, 0)) with | q => q.1) := by
    dsimp only
    split
    · exact key _ _ ha
    · exact ha
  unfold writeValue
  split
  · exact h0
  · exact Keeps.iteFst h0 (stageValue_keeps h0 (by decide))
  · exact Keeps.iteFst h0 (setSession_keeps h0 (by decide))
  · exact act
  · exact act

theorem objectWrite_keeps {mk : Nat} {sk : State} {sess : Nat} {index : Nat} {sub : Nat} {v : Nat} {s : State} (hk : Keeps mk sk s) (hm : 8388569 &&& mk = 8388569) :
    Keeps mk sk (objectWrite sess index sub v s) := by
  suffices g : Keeps 8388569 s (objectWrite sess index sub v s) from hk.trans (g.weaken hm)
  unfold objectWrite
  with_reducible repeat' first
  | exact Keeps.refl _
  | assumption
  | decide
  | (extract_lets +onlyGivenNames q1; have hq1 : Keeps 8388569 s q1.1 := (by unfold q1; repeat' first | exact Keeps.refl _ | assumption | decide | refine emit_keeps ?_ | refine writeValue_keeps ?_ ?_ | refine Keeps.ite ?_ ?_ | refine Keeps.iteFst ?_ ?_ | (intro _ _) | split | dsimp only); clear_value q1)
  | (extract_lets +onlyGivenNames s1; have h1 : Keeps 8388569 s s1 := (by unfold s1; repeat' first | exact Keeps.refl _ | assumption | decide | refine emit_keeps ?_ | refine writeValue_keeps ?_ ?_ | refine Keeps.ite ?_ ?_ | refine Keeps.iteFst ?_ ?_ | (intro _ _) | split | dsimp only); clear_value s1)
  | (extract_lets +onlyGivenNames x1; clear_value x1)
  | refine emit_keeps ?_
  | refine writeValue_keeps ?_ ?_
  | refine Keeps.ite ?_ ?_
  | refine Keeps.iteFst ?_ ?_
  | (intro _ _)
  | split
  | dsimp only

theorem registerWrite_keeps {mk : Nat} {sk : State} {sess : Nat} {index : Nat} {sub : Nat} {v : Nat} {s : State} (hk : Keeps mk sk s) (hm : 8388569 &&& mk = 8388569) :
    Keeps mk sk (registerWrite sess index sub v s) := by
  suffices g : Keeps 8388569 s (registerWrite sess index sub v s) from hk.trans (g.weaken hm)
  unfold registerWrite
  with_reducible repeat' first
  | exact Keeps.refl _
  | assumption
  | decide
  | refine objectWrite_keeps ?_ ?_
  | refine setMgmt_keeps ?_ ?_
  | refine settle_keeps ?_ ?_
  | refine Keeps.ite ?_ ?_
  | (intro _ _)
  | split
  | dsimp only

theorem execRegisterWrite_keeps {mk : Nat} {sk : State} {sess : Nat} {index : Nat} {sub : Nat} {value : Nat} {s : State} (hk : Keeps mk sk s) (hm : 8388569 &&& mk = 8388569) :
    ∃ t', execRegisterWrite sess index sub value s = .next t' ∧ Keeps mk sk t' := by
  suffices g : ∃ t', execRegisterWrite sess index sub value s = .next t' ∧ Keeps 8388569 s t' from g.imp fun _ h => ⟨h.1, hk.trans (h.2.weaken hm)⟩
  refine ⟨_, rfl, ?_⟩
  with_reducible repeat' first
  | exact Keeps.refl _
  | assumption
  | decide
  | refine registerWrite_keeps ?_ ?_
  | (intro _ _)
  | split
  | dsimp only

theorem writeItem_keeps {mk : Nat} {sk : State} {s : State} {x : Session} {counter : Nat} {index : Nat} {sub : Nat} {val : List Byte} (hk : Keeps mk sk s) (hm : 8388569 &&& mk = 8388569) :
    Keeps mk sk (writeItem s x counter index sub val).1 := by
  suffices g : Keeps 8388569 s (writeItem s x counter index sub val).1 from hk.trans (g.weaken hm)
  unfold writeItem
  with_reducible repeat' first
  | exact Keeps.refl _
  | assumption
  | decide
  | refine writeValue_keeps ?_ ?_
  | refine Keeps.ite ?_ ?_
  | refine Keeps.iteFst ?_ ?_
  | (intro _ _)
  | split
  | dsimp only

theorem writeAll_keeps {mk : Nat} {sk : State} {sess : Nat} {counter : Nat} {k : List (Nat × Nat × List Byte)} {s : State} {sts : List Nat} (hk : Keeps mk sk s) (hm : 8388569 &&& mk = 8388569) :
    Keeps mk sk (writeAll sess counter k s sts).1 := by
  have aux : ∀ (k : List (Nat × Nat × List Byte)) (sts : List Nat) (u t : State), Keeps 8388569 u t → Keeps 8388569 u (writeAll sess counter k t sts).1 := by
    intro k
    induction k with
    | nil => intro sts u t h0; unfold writeAll; exact h0
    | cons x l ih =>
      obtain ⟨ix, sub, val⟩ := x
      intro sts u t h0
      unfold writeAll
      with_reducible repeat' first
        | with_reducible exact Keeps.refl _
        | with_reducible assumption
        | decide
        | (extract_lets +onlyGivenNames q1; have hq1 : Keeps 8388569 u q1.1 := (by unfold q1; repeat' first | with_reducible exact Keeps.refl _ | with_reducible assumption | decide | with_reducible refine ih _ _ _ ?_ | refine writeItem_keeps ?_ ?_ | (intro _ _) | split | dsimp only); clear_value q1)
        | (extract_lets +onlyGivenNames s1; have h1 : Keeps 8388569 u s1 := (by unfold s1; repeat' first | with_reducible exact Keeps.refl _ | with_reducible assumption | decide | with_reducible refine ih _ _ _ ?_ | refine writeItem_keeps ?_ ?_ | (intro _ _) | split | dsimp only); clear_value s1)
        | (extract_lets +onlyGivenNames x1; clear_value x1)
        | with_reducible refine ih _ _ _ ?_
        | refine writeItem_keeps ?_ ?_
        | (intro _ _)
        | split
        | dsimp only
  exact hk.trans ((aux k sts s s (Keeps.refl s)).weaken hm)

theorem writeMsg_keeps {mk : Nat} {sk : State} {s : State} {m : Msg} (hk : Keeps mk sk s) (hm : 8388569 &&& mk = 8388569) :
    Keeps mk sk (writeMsg s m) := by
  suffices g : Keeps 8388569 s (writeMsg s m) from hk.trans (g.weaken hm)
  unfold writeMsg
  with_reducible repeat' first
  | exact Keeps.refl _
  | assumption
  | decide
  | (extract_lets +onlyGivenNames q1; have hq1 : Keeps 8388569 s q1.1 := (by unfold q1; repeat' first | exact Keeps.refl _ | assumption | decide | refine answerDone_keeps ?_ ?_ | refine writeAll_keeps ?_ ?_ | refine Keeps.ite ?_ ?_ | refine Keeps.iteFst ?_ ?_ | (intro _ _) | split | dsimp only); clear_value q1)
  | (extract_lets +onlyGivenNames s1; have h1 : Keeps 8388569 s s1 := (by unfold s1; repeat' first | exact Keeps.refl _ | assumption | decide | refine answerDone_keeps ?_ ?_ | refine writeAll_keeps ?_ ?_ | refine Keeps.ite ?_ ?_ | refine Keeps.iteFst ?_ ?_ | (intro _ _) | split | dsimp only); clear_value s1)
  | (extract_lets +onlyGivenNames x1; clear_value x1)
  | refine answerDone_keeps ?_ ?_
  | refine writeAll_keeps ?_ ?_
  | refine Keeps.ite ?_ ?_
  | refine Keeps.iteFst ?_ ?_
  | (intro _ _)
  | split
  | dsimp only

theorem write_keeps {mk : Nat} {sk : State} {s : State} (hk : Keeps mk sk s) (hm : 8388569 &&& mk = 8388569) :
    Keeps mk sk (Sys2Proof.Machine.write s) := by
  suffices g : Keeps 8388569 s (Sys2Proof.Machine.write s) from hk.trans (g.weaken hm)
  unfold Sys2Proof.Machine.write
  with_reducible repeat' first
  | exact Keeps.refl _
  | assumption
  | decide
  | refine handle_keeps ?_ ?_ (fun u a hu => ?_)
  | refine settle_keeps ?_ ?_
  | refine writeMsg_keeps ?_ ?_
  | (intro _ _)
  | split
  | dsimp only

theorem execWrite_keeps {mk : Nat} {sk : State} {s : State} (hk : Keeps mk sk s) (hm : 8388569 &&& mk = 8388569) :
    ∃ t', execWrite s = .next t' ∧ Keeps mk sk t' := by
  suffices g : ∃ t', execWrite s = .next t' ∧ Keeps 8388569 s t' from g.imp fun _ h => ⟨h.1, hk.trans (h.2.weaken hm)⟩
  refine ⟨_, rfl, ?_⟩
  with_reducible repeat' first
  | exact Keeps.refl _
  | assumption
  | decide
  | refine write_keeps ?_ ?_
  | (intro _ _)
  | split
  | dsimp only

theorem releaseHeld_keeps {mk : Nat} {sk : State} {s : State} (hk : Keeps mk sk s) (hm : 8388569 &&& mk = 8388569) :
    Keeps mk sk (releaseHeld s) := by
  suffices g : Keeps 8388569 s (releaseHeld s) from hk.trans (g.weaken hm)
  unfold releaseHeld
  with_reducible repeat' first
  | exact Keeps.refl _
  | assumption
  | decide
  | (extract_lets +onlyGivenNames s1; have h1 : Keeps 8388569 s s1 := (by unfold s1; repeat' first | exact Keeps.refl _ | assumption | decide | refine mailboxFree_keeps ?_ ?_ | refine objectWrite_keeps ?_ ?_ | refine setMgmt_keeps ?_ ?_ | refine Keeps.foldl ?_ _ (fun u a hu => ?_) | refine Keeps.foldlFst ?_ _ (fun u a hu => ?_) | (intro _ _) | split | dsimp only); clear_value s1)
  | (extract_lets +onlyGivenNames x1; clear_value x1)
  | refine mailboxFree_keeps ?_ ?_
  | refine objectWrite_keeps ?_ ?_
  | refine setMgmt_keeps ?_ ?_
  | refine Keeps.foldl ?_ _ (fun u a hu => ?_)
  | refine Keeps.foldlFst ?_ _ (fun u a hu => ?_)
  | (intro _ _)
  | split
  | dsimp only

theorem hitlessResume_keeps {mk : Nat} {sk : State} {s : State} (hk : Keeps mk sk s) (hm : 8388569 &&& mk = 8388569) :
    Keeps mk sk (hitlessResume s) := by
  suffices g : Keeps 8388569 s (hitlessResume s) from hk.trans (g.weaken hm)
  unfold hitlessResume
  with_reducible repeat' first
  | exact Keeps.refl _
  | assumption
  | decide
  | refine pauseEnds_keeps ?_ ?_
  | refine releaseHeld_keeps ?_ ?_
  | refine releaseWarm_keeps ?_ ?_
  | refine settle_keeps ?_ ?_
  | (intro _ _)
  | split
  | dsimp only

theorem execHitlessResume_keeps {mk : Nat} {sk : State} {s : State} (hk : Keeps mk sk s) (hm : 8388569 &&& mk = 8388569) :
    ∃ t', execHitlessResume s = .next t' ∧ Keeps mk sk t' := by
  suffices g : ∃ t', execHitlessResume s = .next t' ∧ Keeps 8388569 s t' from g.imp fun _ h => ⟨h.1, hk.trans (h.2.weaken hm)⟩
  refine ⟨_, rfl, ?_⟩
  with_reducible repeat' first
  | exact Keeps.refl _
  | assumption
  | decide
  | refine hitlessResume_keeps ?_ ?_
  | (intro _ _)
  | split
  | dsimp only

theorem execHitlessPhaseDone_keeps {mk : Nat} {sk : State} {hashOk : Bool} {s : State} (hk : Keeps mk sk s) (hm : 8388569 &&& mk = 8388569) :
    ∃ t', execHitlessPhaseDone hashOk s = .next t' ∧ Keeps mk sk t' := by
  suffices g : ∃ t', execHitlessPhaseDone hashOk s = .next t' ∧ Keeps 8388569 s t' from g.imp fun _ h => ⟨h.1, hk.trans (h.2.weaken hm)⟩
  refine ⟨_, rfl, ?_⟩
  with_reducible repeat' first
  | exact Keeps.refl _
  | assumption
  | decide
  | refine hitlessPhaseDone_keeps ?_ ?_
  | refine releaseHeld_keeps ?_ ?_
  | refine settle_keeps ?_ ?_
  | refine Keeps.ite ?_ ?_
  | (intro _ _)
  | split
  | dsimp only

/-! ### Targets -/

theorem msixWrite_keeps {mk : Nat} {sk : State} {s : State} {v : Nat} {fn : Nat} {off : Nat} {new : Nat} {be : Nat} (hk : Keeps mk sk s) (hm : 8192 &&& mk = 8192) :
    Keeps mk sk (msixWrite s v fn off new be) := by
  suffices g : Keeps 8192 s (msixWrite s v fn off new be) from hk.trans (g.weaken hm)
  unfold msixWrite
  with_reducible repeat' first
  | exact Keeps.refl _
  | assumption
  | decide
  | (extract_lets +onlyGivenNames s1; have h1 : Keeps 8192 s s1 := (by unfold s1; repeat' first | exact Keeps.refl _ | assumption | decide | refine emit_keeps ?_ | refine Keeps.ite ?_ ?_ | (fail_if_no_progress refine Keeps.eng' ?_ _ rfl) | (intro _ _) | split | dsimp only); clear_value s1)
  | (extract_lets +onlyGivenNames x1; clear_value x1)
  | refine emit_keeps ?_
  | refine Keeps.ite ?_ ?_
  | (fail_if_no_progress refine Keeps.eng' ?_ _ rfl)
  | (intro _ _)
  | split
  | dsimp only

theorem mailboxWrite_keeps {mk : Nat} {sk : State} {s : State} {v : Nat} {off : Nat} {new : Nat} {be : Nat} (hk : Keeps mk sk s) (hm : 7626752 &&& mk = 7626752) :
    Keeps mk sk (mailboxWrite s v off new be) := by
  suffices g : Keeps 7626752 s (mailboxWrite s v off new be) from hk.trans (g.weaken hm)
  unfold mailboxWrite
  with_reducible repeat' first
  | exact Keeps.refl _
  | assumption
  | decide
  | (extract_lets +onlyGivenNames s1; have h1 : Keeps 7626752 s s1 := (by unfold s1; repeat' first | exact Keeps.refl _ | assumption | decide | refine mbReqSegment_keeps ?_ ?_ | refine mbRespTaken_keeps ?_ ?_ | refine setMailbox_keeps ?_ ?_ | refine Keeps.ite ?_ ?_ | (intro _ _) | split | dsimp only); clear_value s1)
  | (extract_lets +onlyGivenNames x1; clear_value x1)
  | refine mbReqSegment_keeps ?_ ?_
  | refine mbRespTaken_keeps ?_ ?_
  | refine setMailbox_keeps ?_ ?_
  | refine Keeps.ite ?_ ?_
  | (intro _ _)
  | split
  | dsimp only

theorem admWrite_keeps {mk : Nat} {sk : State} {s : State} {v : Nat} {off : Nat} {new : Nat} {be : Nat} (hk : Keeps mk sk s) (hm : 2121728 &&& mk = 2121728) :
    Keeps mk sk (admWrite s v off new be) := by
  suffices g : Keeps 2121728 s (admWrite s v off new be) from hk.trans (g.weaken hm)
  unfold admWrite
  with_reducible repeat' first
  | exact Keeps.refl _
  | assumption
  | decide
  | (extract_lets +onlyGivenNames s1; have h1 : Keeps 2121728 s s1 := (by unfold s1; repeat' first | exact Keeps.refl _ | assumption | decide | refine admcqHead_keeps ?_ ?_ | refine admqCtrl_keeps ?_ ?_ | refine admqTailDoorbell_keeps ?_ ?_ | refine setAdm_keeps ?_ ?_ | refine Keeps.ite ?_ ?_ | (intro _ _) | split | dsimp only); clear_value s1)
  | (extract_lets +onlyGivenNames x1; clear_value x1)
  | refine admcqHead_keeps ?_ ?_
  | refine admqCtrl_keeps ?_ ?_
  | refine admqTailDoorbell_keeps ?_ ?_
  | refine setAdm_keeps ?_ ?_
  | refine Keeps.ite ?_ ?_
  | (intro _ _)
  | split
  | dsimp only

theorem clearRinging_keeps {mk : Nat} {sk : State} {s : State} {v : Nat} {first : Nat} {w : Nat} (hk : Keeps mk sk s) (hm : 8192 &&& mk = 8192) :
    Keeps mk sk (clearRinging s v first w) := by
  suffices g : Keeps 8192 s (clearRinging s v first w) from hk.trans (g.weaken hm)
  unfold clearRinging
  with_reducible repeat' first
  | exact Keeps.refl _
  | assumption
  | decide
  | (extract_lets +onlyGivenNames s1; have h1 : Keeps 8192 s s1 := (by unfold s1; repeat' first | exact Keeps.refl _ | assumption | decide | (fail_if_no_progress refine Keeps.eng' ?_ _ rfl) | (intro _ _) | split | dsimp only); clear_value s1)
  | (extract_lets +onlyGivenNames x1; clear_value x1)
  | (fail_if_no_progress refine Keeps.eng' ?_ _ rfl)
  | (intro _ _)
  | split
  | dsimp only

theorem replyWrite_keeps {mk : Nat} {sk : State} {s : State} {v : Nat} {off : Nat} {new : Nat} {be : Nat} (hk : Keeps mk sk s) (hm : 24576 &&& mk = 24576) :
    Keeps mk sk (replyWrite s v off new be) := by
  suffices g : Keeps 24576 s (replyWrite s v off new be) from hk.trans (g.weaken hm)
  unfold replyWrite
  with_reducible repeat' first
  | exact Keeps.refl _
  | assumption
  | decide
  | (extract_lets +onlyGivenNames s1; have h1 : Keeps 24576 s s1 := (by unfold s1; repeat' first | exact Keeps.refl _ | assumption | decide | refine vfReplyWrite_keeps ?_ ?_ | refine Keeps.ite ?_ ?_ | (fail_if_no_progress refine Keeps.eng' ?_ _ rfl) | (intro _ _) | split | dsimp only); clear_value s1)
  | (extract_lets +onlyGivenNames x1; clear_value x1)
  | refine vfReplyWrite_keeps ?_ ?_
  | refine Keeps.ite ?_ ?_
  | (fail_if_no_progress refine Keeps.eng' ?_ _ rfl)
  | (intro _ _)
  | split
  | dsimp only

theorem mgmtWrite_keeps {mk : Nat} {sk : State} {s : State} {v : Nat} {off : Nat} {new : Nat} {be : Nat} (hk : Keeps mk sk s) (hm : 7626752 &&& mk = 7626752) :
    Keeps mk sk (mgmtWrite s v off new be) := by
  suffices g : Keeps 7626752 s (mgmtWrite s v off new be) from hk.trans (g.weaken hm)
  unfold mgmtWrite
  with_reducible repeat' first
  | exact Keeps.refl _
  | assumption
  | decide
  | refine admWrite_keeps ?_ ?_
  | refine clearRinging_keeps ?_ ?_
  | refine mailboxWrite_keeps ?_ ?_
  | refine msixWrite_keeps ?_ ?_
  | refine replyWrite_keeps ?_ ?_
  | refine Keeps.ite ?_ ?_
  | (intro _ _)
  | split
  | dsimp only

theorem cqHeadWrite_keeps {mk : Nat} {sk : State} {s : State} {i : Nat} {q : Nat} {head : Nat} (hk : Keeps mk sk s) (hm : 8192 &&& mk = 8192) :
    Keeps mk sk (cqHeadWrite s i q head) := by
  suffices g : Keeps 8192 s (cqHeadWrite s i q head) from hk.trans (g.weaken hm)
  unfold cqHeadWrite
  with_reducible repeat' first
  | exact Keeps.refl _
  | assumption
  | decide
  | refine setQueueOf_keeps ?_ ?_
  | (intro _ _)
  | split
  | dsimp only

theorem vfWrite_keeps {mk : Nat} {sk : State} {s : State} {i : Nat} {off : Nat} {new : Nat} {be : Nat} (hk : Keeps mk sk s) (hm : 7364608 &&& mk = 7364608) :
    Keeps mk sk (vfWrite s i off new be) := by
  suffices g : Keeps 7364608 s (vfWrite s i off new be) from hk.trans (g.weaken hm)
  unfold vfWrite
  with_reducible repeat' first
  | exact Keeps.refl _
  | assumption
  | decide
  | (extract_lets +onlyGivenNames s1; have h1 : Keeps 7364608 s s1 := (by unfold s1; repeat' first | exact Keeps.refl _ | assumption | decide | refine cqHeadWrite_keeps ?_ ?_ | refine msixWrite_keeps ?_ ?_ | refine setInst_keeps ?_ ?_ | refine sqTailDoorbell_keeps ?_ ?_ | refine vfMsgRing_keeps ?_ ?_ | refine Keeps.ite ?_ ?_ | refine Keeps.foldl ?_ _ (fun u a hu => ?_) | refine Keeps.foldlFst ?_ _ (fun u a hu => ?_) | (intro _ _) | split | dsimp only); clear_value s1)
  | (extract_lets +onlyGivenNames x1; clear_value x1)
  | refine cqHeadWrite_keeps ?_ ?_
  | refine msixWrite_keeps ?_ ?_
  | refine setInst_keeps ?_ ?_
  | refine sqTailDoorbell_keeps ?_ ?_
  | refine vfMsgRing_keeps ?_ ?_
  | refine Keeps.ite ?_ ?_
  | refine Keeps.foldl ?_ _ (fun u a hu => ?_)
  | refine Keeps.foldlFst ?_ _ (fun u a hu => ?_)
  | (intro _ _)
  | split
  | dsimp only

theorem dobRegRead_keeps {mk : Nat} {sk : State} {s : State} {v : Nat} {off : Nat} (hk : Keeps mk sk s) (hm : 1179648 &&& mk = 1179648) :
    Keeps mk sk (dobRegRead s v off).1 := by
  suffices g : Keeps 1179648 s (dobRegRead s v off).1 from hk.trans (g.weaken hm)
  unfold dobRegRead
  with_reducible repeat' first
  | exact Keeps.refl _
  | assumption
  | decide
  | refine semClaim_keeps ?_ ?_
  | refine Keeps.ite ?_ ?_
  | refine Keeps.iteFst ?_ ?_
  | (intro _ _)
  | split
  | dsimp only

theorem dobRegWrite_keeps {mk : Nat} {sk : State} {s : State} {v : Nat} {off : Nat} {new : Nat} {be : Nat} (hk : Keeps mk sk s) (hm : 7495680 &&& mk = 7495680) :
    Keeps mk sk (dobRegWrite s v off new be) := by
  suffices g : Keeps 7495680 s (dobRegWrite s v off new be) from hk.trans (g.weaken hm)
  unfold dobRegWrite
  with_reducible repeat' first
  | exact Keeps.refl _
  | assumption
  | decide
  | (extract_lets +onlyGivenNames s1; have h1 : Keeps 7495680 s s1 := (by unfold s1; repeat' first | exact Keeps.refl _ | assumption | decide | refine actBerrClear_keeps ?_ ?_ | refine ihRearm_keeps ?_ ?_ | refine irqRaise_keeps ?_ ?_ | refine irqWithdraw_keeps ?_ ?_ | refine semWrite_keeps ?_ ?_ | refine Keeps.ite ?_ ?_ | (intro _ _) | split | dsimp only); clear_value s1)
  | (extract_lets +onlyGivenNames x1; clear_value x1)
  | refine actBerrClear_keeps ?_ ?_
  | refine ihRearm_keeps ?_ ?_
  | refine irqRaise_keeps ?_ ?_
  | refine irqWithdraw_keeps ?_ ?_
  | refine semWrite_keeps ?_ ?_
  | refine Keeps.ite ?_ ?_
  | (intro _ _)
  | split
  | dsimp only

theorem targetRead_keeps {mk : Nat} {sk : State} {s : State} {v : Nat} {h : Hop} {k : Nat} (hk : Keeps mk sk s) (hm : 1179648 &&& mk = 1179648) :
    Keeps mk sk (targetRead s v h k).1 := by
  suffices g : Keeps 1179648 s (targetRead s v h k).1 from hk.trans (g.weaken hm)
  unfold targetRead
  with_reducible repeat' first
  | exact Keeps.refl _
  | assumption
  | decide
  | refine dobRegRead_keeps ?_ ?_
  | (intro _ _)
  | split
  | dsimp only

theorem targetWrite_keeps {mk : Nat} {sk : State} {s : State} {v : Nat} {h : Hop} {k : Nat} {new : Nat} {be : Nat} (hk : Keeps mk sk s) (hm : 8387480 &&& mk = 8387480) :
    Keeps mk sk (targetWrite s v h k new be) := by
  suffices g : Keeps 8387480 s (targetWrite s v h k new be) from hk.trans (g.weaken hm)
  unfold targetWrite
  with_reducible repeat' first
  | exact Keeps.refl _
  | assumption
  | decide
  | refine configWrite_keeps ?_ ?_
  | refine dobRegWrite_keeps ?_ ?_
  | refine mgmtWrite_keeps ?_ ?_
  | refine vfWrite_keeps ?_ ?_
  | (intro _ _)
  | split
  | dsimp only

theorem readDwords_keeps {mk : Nat} {sk : State} {v : Nat} {h : Hop} {k : List (Nat × Nat)} {s : State} {bs : List Byte} (hk : Keeps mk sk s) (hm : 1179648 &&& mk = 1179648) :
    Keeps mk sk (readDwords v h k s bs).1 := by
  have aux : ∀ (k : List (Nat × Nat)) (bs : List Byte) (u t : State), Keeps 1179648 u t → Keeps 1179648 u (readDwords v h k t bs).1 := by
    intro k
    induction k with
    | nil => intro bs u t h0; unfold readDwords; exact h0
    | cons x l ih =>
      obtain ⟨k1, k2⟩ := x
      intro bs u t h0
      unfold readDwords
      with_reducible repeat' first
        | with_reducible exact Keeps.refl _
        | with_reducible assumption
        | decide
        | (extract_lets +onlyGivenNames q1; have hq1 : Keeps 1179648 u q1.1 := (by unfold q1; repeat' first | with_reducible exact Keeps.refl _ | with_reducible assumption | decide | with_reducible refine ih _ _ _ ?_ | refine targetRead_keeps ?_ ?_ | (intro _ _) | split | dsimp only); clear_value q1)
        | (extract_lets +onlyGivenNames s1; have h1 : Keeps 1179648 u s1 := (by unfold s1; repeat' first | with_reducible exact Keeps.refl _ | with_reducible assumption | decide | with_reducible refine ih _ _ _ ?_ | refine targetRead_keeps ?_ ?_ | (intro _ _) | split | dsimp only); clear_value s1)
        | (extract_lets +onlyGivenNames x1; clear_value x1)
        | with_reducible refine ih _ _ _ ?_
        | refine targetRead_keeps ?_ ?_
        | (intro _ _)
        | split
        | dsimp only
  exact hk.trans ((aux k bs s s (Keeps.refl s)).weaken hm)

theorem atTarget_keeps {mk : Nat} {sk : State} {s : State} {o : Origin} {t : Tlp} (hk : Keeps mk sk s) (hm : 8387480 &&& mk = 8387480) :
    Keeps mk sk (atTarget s o t) := by
  suffices g : Keeps 8387480 s (atTarget s o t) from hk.trans (g.weaken hm)
  unfold atTarget
  with_reducible repeat' first
  | exact Keeps.refl _
  | assumption
  | decide
  | (extract_lets +onlyGivenNames q1; have hq1 : Keeps 8387480 s q1.1 := (by unfold q1; repeat' first | exact Keeps.refl _ | assumption | decide | refine answer_keeps ?_ ?_ | refine configWrite_keeps ?_ ?_ | refine fenceSlotRead_keeps ?_ ?_ | refine readDwords_keeps ?_ ?_ | refine refuseTlp_keeps ?_ ?_ | refine targetWrite_keeps ?_ ?_ | refine Keeps.ite ?_ ?_ | refine Keeps.iteFst ?_ ?_ | refine Keeps.foldl ?_ _ (fun u a hu => ?_) | refine Keeps.foldlFst ?_ _ (fun u a hu => ?_) | simp only [id_eq] | (intro _ _) | split | dsimp only | refine hf1 _ _ ?_ | refine hf2 _ _ ?_ | refine hf3 _ _ ?_); clear_value q1)
  | (extract_lets +onlyGivenNames f1; have hf1 : ∀ u a, Keeps 8387480 s u → Keeps 8387480 s (f1 u a) := (by intro u a hu; unfold f1; repeat' first | exact Keeps.refl _ | assumption | decide | refine answer_keeps ?_ ?_ | refine configWrite_keeps ?_ ?_ | refine fenceSlotRead_keeps ?_ ?_ | refine readDwords_keeps ?_ ?_ | refine refuseTlp_keeps ?_ ?_ | refine targetWrite_keeps ?_ ?_ | refine Keeps.ite ?_ ?_ | refine Keeps.iteFst ?_ ?_ | refine Keeps.foldl ?_ _ (fun u a hu => ?_) | refine Keeps.foldlFst ?_ _ (fun u a hu => ?_) | simp only [id_eq] | (intro _ _) | split | dsimp only | refine hf1 _ _ ?_ | refine hf2 _ _ ?_ | refine hf3 _ _ ?_); clear_value f1)
  | (extract_lets +onlyGivenNames s1; have h1 : Keeps 8387480 s s1 := (by unfold s1; repeat' first | exact Keeps.refl _ | assumption | decide | refine answer_keeps ?_ ?_ | refine configWrite_keeps ?_ ?_ | refine fenceSlotRead_keeps ?_ ?_ | refine readDwords_keeps ?_ ?_ | refine refuseTlp_keeps ?_ ?_ | refine targetWrite_keeps ?_ ?_ | refine Keeps.ite ?_ ?_ | refine Keeps.iteFst ?_ ?_ | refine Keeps.foldl ?_ _ (fun u a hu => ?_) | refine Keeps.foldlFst ?_ _ (fun u a hu => ?_) | simp only [id_eq] | (intro _ _) | split | dsimp only | refine hf1 _ _ ?_ | refine hf2 _ _ ?_ | refine hf3 _ _ ?_); clear_value s1)
  | (extract_lets +onlyGivenNames x1; clear_value x1)
  | refine answer_keeps ?_ ?_
  | refine configWrite_keeps ?_ ?_
  | refine fenceSlotRead_keeps ?_ ?_
  | refine readDwords_keeps ?_ ?_
  | refine refuseTlp_keeps ?_ ?_
  | refine targetWrite_keeps ?_ ?_
  | refine Keeps.ite ?_ ?_
  | refine Keeps.iteFst ?_ ?_
  | refine Keeps.foldl ?_ _ (fun u a hu => ?_)
  | refine Keeps.foldlFst ?_ _ (fun u a hu => ?_)
  | simp only [id_eq]
  | (intro _ _)
  | split
  | dsimp only
  | refine hf1 _ _ ?_

/-! ### Egress -/

theorem setDeficit_keeps {mk : Nat} {sk : State} {s : State} {d : Nat} {tc : Nat} {n : Nat} (hk : Keeps mk sk s) (hm : 512 &&& mk = 512) :
    Keeps mk sk (setDeficit s d tc n) := by
  suffices g : Keeps 512 s (setDeficit s d tc n) from hk.trans (g.weaken hm)
  unfold setDeficit
  with_reducible repeat' first
  | exact Keeps.refl _
  | assumption
  | decide
  | (fail_if_no_progress refine Keeps.loom' ?_ _ rfl)
  | (intro _ _)
  | split
  | dsimp only


theorem weightedChoice_keeps {mk : Nat} {sk : State} {s : State} {d : Nat} {t' : State} {x' : LoomItem} (hk : Keeps mk sk s) (hm : 512 &&& mk = 512)
    (e : weightedChoice s d = some (t', x')) : Keeps mk sk t' := by
  suffices g : Keeps 512 s t' from hk.trans (g.weaken hm)
  unfold weightedChoice at e
  extract_lets t0 ready stay at e
  clear_value t0 ready stay
  split at e
  · injection e with e
    injection e with e1 e2
    subst e1
    exact setDeficit_keeps (Keeps.refl _) (by decide)
  · split at e
    · split at e
      · injection e with e
        injection e with e1 e2
        subst e1
        exact Keeps.loom' (setDeficit_keeps (Keeps.refl _) (by decide)) _ rfl
      · cases e
    · cases e


theorem chooseItem_keeps {mk : Nat} {sk : State} {s : State} {d : Nat} {t' : State} {x' : LoomItem} (hk : Keeps mk sk s) (hm : 512 &&& mk = 512)
    (e : chooseItem s d = some (t', x')) : Keeps mk sk t' := by
  suffices g : Keeps 512 s t' from hk.trans (g.weaken hm)
  unfold chooseItem at e
  split at e
  · injection e with e
    injection e with e1 e2
    subst e1
    exact Keeps.refl _
  · split at e
    · injection e with e
      injection e with e1 e2
      subst e1
      exact Keeps.refl _
    · exact weightedChoice_keeps (Keeps.refl _) (by decide) e

theorem countWaits_keeps {mk : Nat} {sk : State} {s : State} {d : Nat} (hk : Keeps mk sk s) (hm : 1049088 &&& mk = 1049088) :
    Keeps mk sk (countWaits s d) := by
  suffices g : Keeps 1049088 s (countWaits s d) from hk.trans (g.weaken hm)
  unfold countWaits
  with_reducible repeat' first
  | exact Keeps.refl _
  | assumption
  | decide
  | refine count_keeps ?_ ?_
  | refine setQueue_keeps ?_ ?_
  | refine Keeps.ite ?_ ?_
  | refine Keeps.foldl ?_ _ (fun u a hu => ?_)
  | refine Keeps.foldlFst ?_ _ (fun u a hu => ?_)
  | (intro _ _)
  | split
  | dsimp only


theorem takeItem_keeps {mk : Nat} {sk s : State} {k d : Nat} (hk : Keeps mk sk s) (hm : 7502720 &&& mk = 7502720) :
    Keeps mk sk (takeItem k s d).2 ∧ ∀ r, (takeItem k s d).1 = some r → Keeps mk sk r.1 := by
  have aux : ∀ (k : Nat) (t : State), Keeps 7502720 s t →
      Keeps 7502720 s (takeItem k t d).2 ∧ ∀ r, (takeItem k t d).1 = some r → Keeps 7502720 s r.1 := by
    intro k
    induction k with
    | zero => exact fun t h => ⟨h, fun r e => by cases e⟩
    | succ n ih =>
      intro t h
      unfold takeItem
      split
      · exact ⟨h, fun r e => by cases e⟩
      · next e =>
        split
        · exact ih _ (ageOut_keeps h (by decide))
        · refine ⟨h, fun r e2 => ?_⟩
          injection e2 with e2
          subst e2
          exact removeItem_keeps (chooseItem_keeps h (by decide) e) (by decide)
  have g := aux k s (Keeps.refl s)
  exact ⟨hk.trans (g.1.weaken hm), fun r e => hk.trans ((g.2 r e).weaken hm)⟩

theorem takeItem_some {mk : Nat} {sk s u : State} {k d : Nat} {r : State × LoomItem} (hk : Keeps mk sk s)
    (hm : 7502720 &&& mk = 7502720) (e : takeItem k s d = (some r, u)) : Keeps mk sk r.1 :=
  (takeItem_keeps (k := k) (d := d) hk hm).2 r (by rw [e])

theorem takeItem_none {mk : Nat} {sk s u : State} {k d : Nat} {o : Option (State × LoomItem)} (hk : Keeps mk sk s)
    (hm : 7502720 &&& mk = 7502720) (e : takeItem k s d = (o, u)) : Keeps mk sk u := by
  have g := (takeItem_keeps (k := k) (d := d) hk hm).1
  rw [e] at g
  exact g

theorem startRelay_keeps {mk : Nat} {sk : State} {s : State} {d : Nat} {p : Nat} {i : LoomItem} {o : WireOp} (hk : Keeps mk sk s) (hm : 7365504 &&& mk = 7365504) :
    Keeps mk sk (startRelay s d p i o) := by
  suffices g : Keeps 7365504 s (startRelay s d p i o) from hk.trans (g.weaken hm)
  unfold startRelay
  with_reducible repeat' first
  | exact Keeps.refl _
  | assumption
  | decide
  | (extract_lets +onlyGivenNames q1; have hq1 : Keeps 7365504 s q1.1 := (by unfold q1; repeat' first | exact Keeps.refl _ | assumption | decide | refine count_keeps ?_ ?_ | refine drawMark_keeps ?_ ?_ | refine setWeft_keeps ?_ ?_ | refine storeChain_keeps ?_ ?_ | (intro _ _) | split | dsimp only); clear_value q1)
  | (extract_lets +onlyGivenNames s1; have h1 : Keeps 7365504 s s1 := (by unfold s1; repeat' first | exact Keeps.refl _ | assumption | decide | refine count_keeps ?_ ?_ | refine drawMark_keeps ?_ ?_ | refine setWeft_keeps ?_ ?_ | refine storeChain_keeps ?_ ?_ | (intro _ _) | split | dsimp only); clear_value s1)
  | (extract_lets +onlyGivenNames x1; clear_value x1)
  | refine count_keeps ?_ ?_
  | refine drawMark_keeps ?_ ?_
  | refine setWeft_keeps ?_ ?_
  | refine storeChain_keeps ?_ ?_
  | (intro _ _)
  | split
  | dsimp only

theorem leaveWeft_keeps {mk : Nat} {sk : State} {s : State} {p : Nat} {i : LoomItem} {o : WireOp} (hk : Keeps mk sk s) (hm : 7365504 &&& mk = 7365504) :
    Keeps mk sk (leaveWeft s p i o) := by
  suffices g : Keeps 7365504 s (leaveWeft s p i o) from hk.trans (g.weaken hm)
  unfold leaveWeft
  with_reducible repeat' first
  | exact Keeps.refl _
  | assumption
  | decide
  | (extract_lets +onlyGivenNames s1; have h1 : Keeps 7365504 s s1 := (by unfold s1; repeat' first | exact Keeps.refl _ | assumption | decide | refine count_keeps ?_ ?_ | refine emit_keeps ?_ | refine event_keeps ?_ ?_ | refine rateEvent_keeps ?_ rfl (fun u a hu => ?_) | refine releaseItem_keeps ?_ ?_ | refine setWeft_keeps ?_ ?_ | refine Keeps.ite ?_ ?_ | (intro _ _) | split | dsimp only); clear_value s1)
  | (extract_lets +onlyGivenNames x1; clear_value x1)
  | refine count_keeps ?_ ?_
  | refine emit_keeps ?_
  | refine event_keeps ?_ ?_
  | refine rateEvent_keeps ?_ rfl (fun u a hu => ?_)
  | refine releaseItem_keeps ?_ ?_
  | refine setWeft_keeps ?_ ?_
  | refine Keeps.ite ?_ ?_
  | (intro _ _)
  | split
  | dsimp only

theorem countDequeue_keeps {mk : Nat} {sk : State} {s : State} {d : Nat} {i : LoomItem} (hk : Keeps mk sk s) (hm : 1048576 &&& mk = 1048576) :
    Keeps mk sk (countDequeue s d i) := by
  suffices g : Keeps 1048576 s (countDequeue s d i) from hk.trans (g.weaken hm)
  unfold countDequeue
  with_reducible repeat' first
  | exact Keeps.refl _
  | assumption
  | decide
  | (extract_lets +onlyGivenNames s1; have h1 : Keeps 1048576 s s1 := (by unfold s1; repeat' first | exact Keeps.refl _ | assumption | decide | refine count_keeps ?_ ?_ | refine Keeps.ite ?_ ?_ | (intro _ _) | split | dsimp only); clear_value s1)
  | (extract_lets +onlyGivenNames x1; clear_value x1)
  | refine count_keeps ?_ ?_
  | refine Keeps.ite ?_ ?_
  | (intro _ _)
  | split
  | dsimp only

theorem chainUnreadable_keeps {mk : Nat} {sk : State} {s : State} {i : LoomItem} {l : Nat} (hk : Keeps mk sk s) (hm : 7601024 &&& mk = 7601024) :
    Keeps mk sk (chainUnreadable s i l) := by
  suffices g : Keeps 7601024 s (chainUnreadable s i l) from hk.trans (g.weaken hm)
  unfold chainUnreadable
  with_reducible repeat' first
  | exact Keeps.refl _
  | assumption
  | decide
  | (extract_lets +onlyGivenNames s1; have h1 : Keeps 7601024 s s1 := (by unfold s1; repeat' first | exact Keeps.refl _ | assumption | decide | refine releaseItem_keeps ?_ ?_ | refine toStalled_keeps ?_ ?_ | (intro _ _) | split | dsimp only); clear_value s1)
  | (extract_lets +onlyGivenNames x1; clear_value x1)
  | refine releaseItem_keeps ?_ ?_
  | refine toStalled_keeps ?_ ?_
  | (intro _ _)
  | split
  | dsimp only

theorem readOut_keeps {mk : Nat} {sk : State} {s : State} {d : Nat} {i : LoomItem} {r : StoreRead} (hk : Keeps mk sk s) (hm : 8387480 &&& mk = 8387480) :
    Keeps mk sk (readOut s d i r) := by
  suffices g : Keeps 8387480 s (readOut s d i r) from hk.trans (g.weaken hm)
  unfold readOut
  with_reducible repeat' first
  | exact Keeps.refl _
  | assumption
  | decide
  | (extract_lets +onlyGivenNames q1; have hq1 : Keeps 8387480 s q1.1 := (by unfold q1; repeat' first | exact Keeps.refl _ | assumption | decide | refine atTarget_keeps ?_ ?_ | refine chainUnreadable_keeps ?_ ?_ | refine countDequeue_keeps ?_ ?_ | refine leaveWarp_keeps ?_ ?_ | refine leaveWeft_keeps ?_ ?_ | refine releaseItem_keeps ?_ ?_ | refine startRelay_keeps ?_ ?_ | refine storeRead_keeps ?_ ?_ | refine Keeps.ite ?_ ?_ | refine Keeps.ofPair (by assumption) ?_ | (intro _ _) | split | dsimp only); clear_value q1)
  | (extract_lets +onlyGivenNames s1; have h1 : Keeps 8387480 s s1 := (by unfold s1; repeat' first | exact Keeps.refl _ | assumption | decide | refine atTarget_keeps ?_ ?_ | refine chainUnreadable_keeps ?_ ?_ | refine countDequeue_keeps ?_ ?_ | refine leaveWarp_keeps ?_ ?_ | refine leaveWeft_keeps ?_ ?_ | refine releaseItem_keeps ?_ ?_ | refine startRelay_keeps ?_ ?_ | refine storeRead_keeps ?_ ?_ | refine Keeps.ite ?_ ?_ | refine Keeps.ofPair (by assumption) ?_ | (intro _ _) | split | dsimp only); clear_value s1)
  | (extract_lets +onlyGivenNames x1; clear_value x1)
  | refine atTarget_keeps ?_ ?_
  | refine chainUnreadable_keeps ?_ ?_
  | refine countDequeue_keeps ?_ ?_
  | refine leaveWarp_keeps ?_ ?_
  | refine leaveWeft_keeps ?_ ?_
  | refine releaseItem_keeps ?_ ?_
  | refine startRelay_keeps ?_ ?_
  | refine storeRead_keeps ?_ ?_
  | refine Keeps.ite ?_ ?_
  | refine Keeps.ofPair (by assumption) ?_
  | (intro _ _)
  | split
  | dsimp only

theorem egressArbitration_keeps {mk : Nat} {sk : State} {d : Nat} {k : StoreRead} {s : State} (hk : Keeps mk sk s) (hm : 8387480 &&& mk = 8387480) :
    Keeps mk sk (egressArbitration d k s) := by
  suffices g : Keeps 8387480 s (egressArbitration d k s) from hk.trans (g.weaken hm)
  unfold egressArbitration
  with_reducible repeat' first
  | exact Keeps.refl _
  | assumption
  | decide
  | (extract_lets +onlyGivenNames q1; have hq1 : Keeps 8387480 s q1.1 := (by unfold q1; repeat' first | exact Keeps.refl _ | assumption | decide | refine countWaits_keeps ?_ ?_ | refine readOut_keeps ?_ ?_ | refine takeItem_some ?_ ?_ (by assumption) | refine takeItem_none ?_ ?_ (by assumption) | refine Keeps.ite ?_ ?_ | refine Keeps.iteFst ?_ ?_ | (intro _ _) | split | dsimp only); clear_value q1)
  | (extract_lets +onlyGivenNames s1; have h1 : Keeps 8387480 s s1 := (by unfold s1; repeat' first | exact Keeps.refl _ | assumption | decide | refine countWaits_keeps ?_ ?_ | refine readOut_keeps ?_ ?_ | refine takeItem_some ?_ ?_ (by assumption) | refine takeItem_none ?_ ?_ (by assumption) | refine Keeps.ite ?_ ?_ | refine Keeps.iteFst ?_ ?_ | (intro _ _) | split | dsimp only); clear_value s1)
  | (extract_lets +onlyGivenNames x1; clear_value x1)
  | refine countWaits_keeps ?_ ?_
  | refine readOut_keeps ?_ ?_
  | refine takeItem_some ?_ ?_ (by assumption)
  | refine takeItem_none ?_ ?_ (by assumption)
  | refine Keeps.ite ?_ ?_
  | refine Keeps.iteFst ?_ ?_
  | (intro _ _)
  | split
  | dsimp only

theorem execEgressArbitration_keeps {mk : Nat} {sk : State} {d : Dest} {r : StoreRead} {s : State} (hk : Keeps mk sk s) (hm : 8388504 &&& mk = 8388504) :
    ∃ t', execEgressArbitration d r s = .next t' ∧ Keeps mk sk t' := by
  suffices g : ∃ t', execEgressArbitration d r s = .next t' ∧ Keeps 8388504 s t' from g.imp fun _ h => ⟨h.1, hk.trans (h.2.weaken hm)⟩
  refine ⟨_, rfl, ?_⟩
  with_reducible repeat' first
  | exact Keeps.refl _
  | assumption
  | decide
  | refine egressArbitration_keeps ?_ ?_
  | refine settle_keeps ?_ ?_
  | (intro _ _)
  | split
  | dsimp only

/-! ### Every command -/

/-- A command answers a next state, and keeps what every function keeps. -/
theorem exec_keeps (i : Instr) (s : State) : ∃ t, exec i s = .next t ∧ Keeps 8388607 s t := by
  cases i with
  | supplyRise vkeepMv aMv bMv => exact execSupplyRise_keeps (Keeps.refl s) (by decide)
  | feedRampStart f mv outMv => exact execFeedRampStart_keeps (Keeps.refl s) (by decide)
  | shortFailCheck f mv outMv => exact execShortFailCheck_keeps (Keeps.refl s) (by decide)
  | feedRampComplete f mv outMv gateMv => exact execFeedRampComplete_keeps (Keeps.refl s) (by decide)
  | gateFailTimeout f mv gateMv => exact execGateFailTimeout_keeps (Keeps.refl s) (by decide)
  | feedQualifyDone f mv => exact execFeedQualifyDone_keeps (Keeps.refl s) (by decide)
  | currentLimitEnter f mv outMv ma => exact execCurrentLimitEnter_keeps (Keeps.refl s) (by decide)
  | currentLimitExit f ma => exact execCurrentLimitExit_keeps (Keeps.refl s) (by decide)
  | faultTimerExpiry f mv => exact execFaultTimerExpiry_keeps (Keeps.refl s) (by decide)
  | fastTrip f mv ma => exact execFastTrip_keeps (Keeps.refl s) (by decide)
  | cooldownExpiry f mv => exact execCooldownExpiry_keeps (Keeps.refl s) (by decide)
  | feedOutOfRange f mv => exact execFeedOutOfRange_keeps (Keeps.refl s) (by decide)
  | feedPowerCycled f mv => exact execFeedPowerCycled_keeps (Keeps.refl s) (by decide)
  | tripCountReset f => exact execTripCountReset_keeps (Keeps.refl s) (by decide)
  | idealDiodeReverseOff f mv reverseMa => exact execIdealDiodeReverseOff_keeps (Keeps.refl s) (by decide)
  | reverseFailCheck f mv reverseMa => exact execReverseFailCheck_keeps (Keeps.refl s) (by decide)
  | idealDiodeOn f mv railMv => exact execIdealDiodeOn_keeps (Keeps.refl s) (by decide)
  | feedClear sess f value => exact execFeedClear_keeps (Keeps.refl s) (by decide)
  | vkeepChange mv => exact execVkeepChange_keeps (Keeps.refl s) (by decide)
  | vioDobChange mv => exact execVioDobChange_keeps (Keeps.refl s) (by decide)
  | coreOn regulated beamTrained => exact execCoreOn_keeps (Keeps.refl s) (by decide)
  | bootSlotSelect lockstepOk => exact execBootSlotSelect_keeps (Keeps.refl s) (by decide)
  | configEntry healthOk => exact execConfigEntry_keeps (Keeps.refl s) (by decide)
  | storedConfigCommit => exact execStoredConfigCommit_keeps (Keeps.refl s) (by decide)
  | serviceEntry warpTried => exact execServiceEntry_keeps (Keeps.refl s) (by decide)
  | governorPeriod aMv bMv aMa bMa powerW stagePs => exact execGovernorPeriod_keeps (Keeps.refl s) (by decide)
  | capacityFloorClear => exact execCapacityFloorClear_keeps (Keeps.refl s) (by decide)
  | vcoreRaiseDone mv => exact execVcoreRaiseDone_keeps (Keeps.refl s) (by decide)
  | loomRescaleDone => exact execLoomRescaleDone_keeps (Keeps.refl s) (by decide)
  | thermalLoop hottestMc => exact execThermalLoop_keeps (Keeps.refl s) (by decide)
  | thermalFatalTimeout => exact execThermalFatalTimeout_keeps (Keeps.refl s) (by decide)
  | weftBlockReceive l levels => exact execWeftBlockReceive_keeps (Keeps.refl s) (by decide)
  | blockLockAcquired l => exact execBlockLockAcquired_keeps (Keeps.refl s) (by decide)
  | blockLockLost l => exact execBlockLockLost_keeps (Keeps.refl s) (by decide)
  | laneLockTimeout l => exact execLaneLockTimeout_keeps (Keeps.refl s) (by decide)
  | alignSend p => exact execAlignSend_keeps (Keeps.refl s) (by decide)
  | alignReceive l => exact execAlignReceive_keeps (Keeps.refl s) (by decide)
  | laneAlignTimeout l => exact execLaneAlignTimeout_keeps (Keeps.refl s) (by decide)
  | refclkLost c => exact execRefclkLost_keeps (Keeps.refl s) (by decide)
  | refclkRestored c => exact execRefclkRestored_keeps (Keeps.refl s) (by decide)
  | adaptFreeze by_ => exact execAdaptFreeze_keeps (Keeps.refl s) (by decide)
  | adaptFreezeEnd => exact execAdaptFreezeEnd_keeps (Keeps.refl s) (by decide)
  | adaptFreezeHeldStart => exact execAdaptFreezeHeldStart_keeps (Keeps.refl s) (by decide)
  | marginStart sess value => exact execMarginStart_keeps (Keeps.refl s) (by decide)
  | marginStep errors => exact execMarginStep_keeps (Keeps.refl s) (by decide)
  | flitSend p => exact execFlitSend_keeps (Keeps.refl s) (by decide)
  | flitReceive p => exact execFlitReceive_keeps (Keeps.refl s) (by decide)
  | replayTimerExpiry p => exact execReplayTimerExpiry_keeps (Keeps.refl s) (by decide)
  | weftTrainingStart p => exact execWeftTrainingStart_keeps (Keeps.refl s) (by decide)
  | ts1Receive p => exact execTs1Receive_keeps (Keeps.refl s) (by decide)
  | ts2Receive p => exact execTs2Receive_keeps (Keeps.refl s) (by decide)
  | trainingPhaseTimeout p => exact execTrainingPhaseTimeout_keeps (Keeps.refl s) (by decide)
  | creditInitReceive p => exact execCreditInitReceive_keeps (Keeps.refl s) (by decide)
  | flitStartReceive p => exact execFlitStartReceive_keeps (Keeps.refl s) (by decide)
  | alignedTimeout p => exact execAlignedTimeout_keeps (Keeps.refl s) (by decide)
  | retrainReqReceive p => exact execRetrainReqReceive_keeps (Keeps.refl s) (by decide)
  | retrainRateStep p => exact execRetrainRateStep_keeps (Keeps.refl s) (by decide)
  | retrainTimeout p => exact execRetrainTimeout_keeps (Keeps.refl s) (by decide)
  | weftRetrainCmd sess p value => exact execWeftRetrainCmd_keeps (Keeps.refl s) (by decide)
  | tlpIngress p t => exact execTlpIngress_keeps (Keeps.refl s) (by decide)
  | warpLinkUp p width rate flit => exact execWarpLinkUp_keeps (Keeps.refl s) (by decide)
  | perstAssert v ns => exact execPerstAssert_keeps (Keeps.refl s) (by decide)
  | perstDeassert v => exact execPerstDeassert_keeps (Keeps.refl s) (by decide)
  | hotResetReceived p => exact execHotResetReceived_keeps (Keeps.refl s) (by decide)
  | dlDown p => exact execDlDown_keeps (Keeps.refl s) (by decide)
  | vsResetCmd sess v value => exact execVsResetCmd_keeps (Keeps.refl s) (by decide)
  | partitionResetEnd v => exact execPartitionResetEnd_keeps (Keeps.refl s) (by decide)
  | partitionReady v => exact execPartitionReady_keeps (Keeps.refl s) (by decide)
  | secondaryBusReset p => exact execSecondaryBusReset_keeps (Keeps.refl s) (by decide)
  | linkDisable p => exact execLinkDisable_keeps (Keeps.refl s) (by decide)
  | slotPowerOff k => exact execSlotPowerOff_keeps (Keeps.refl s) (by decide)
  | slotPwrenClear k => exact execSlotPwrenClear_keeps (Keeps.refl s) (by decide)
  | slotPowerOn k => exact execSlotPowerOn_keeps (Keeps.refl s) (by decide)
  | slotPerstRelease k => exact execSlotPerstRelease_keeps (Keeps.refl s) (by decide)
  | indicatorSet k attention power => exact execIndicatorSet_keeps (Keeps.refl s) (by decide)
  | indicatorBlink => exact execIndicatorBlink_keeps (Keeps.refl s) (by decide)
  | surpriseDown p => exact execSurpriseDown_keeps (Keeps.refl s) (by decide)
  | hpInputDebounced k bit => exact execHpInputDebounced_keeps (Keeps.refl s) (by decide)
  | expanderInterrupt inputs => exact execExpanderInterrupt_keeps (Keeps.refl s) (by decide)
  | expanderPoll inputs => exact execExpanderPoll_keeps (Keeps.refl s) (by decide)
  | expanderRetry e input => exact execExpanderRetry_keeps (Keeps.refl s) (by decide)
  | surpriseReport p => exact execSurpriseReport_keeps (Keeps.refl s) (by decide)
  | linkReturnL0 p width rate flit => exact execLinkReturnL0_keeps (Keeps.refl s) (by decide)
  | dpcTrigger p reason => exact execDpcTrigger_keeps (Keeps.refl s) (by decide)
  | dpcRelease p => exact execDpcRelease_keeps (Keeps.refl s) (by decide)
  | proxyFree sess value => exact execProxyFree_keeps (Keeps.refl s) (by decide)
  | mcastGroupEnable v group => exact execMcastGroupEnable_keeps (Keeps.refl s) (by decide)
  | weCompletionTimeout req => exact execWeCompletionTimeout_keeps (Keeps.refl s) (by decide)
  | sharedPromotion src => exact execSharedPromotion_keeps (Keeps.refl s) (by decide)
  | egressArbitration d r => exact execEgressArbitration_keeps (Keeps.refl s) (by decide)
  | ledgerMoveStart => exact execLedgerMoveStart_keeps (Keeps.refl s) (by decide)
  | ledgerMoveDone => exact execLedgerMoveDone_keeps (Keeps.refl s) (by decide)
  | spillWriteDone => exact execSpillWriteDone_keeps (Keeps.refl s) (by decide)
  | readbackStart d tc => exact execReadbackStart_keeps (Keeps.refl s) (by decide)
  | readbackDone r => exact execReadbackDone_keeps (Keeps.refl s) (by decide)
  | beamStackFault stack => exact execBeamStackFault_keeps (Keeps.refl s) (by decide)
  | ageSweep => exact execAgeSweep_keeps (Keeps.refl s) (by decide)
  | sharedPoolExhausted => exact execSharedPoolExhausted_keeps (Keeps.refl s) (by decide)
  | linkProbeSend p => exact execLinkProbeSend_keeps (Keeps.refl s) (by decide)
  | linkProbeReceive => exact execLinkProbeReceive_keeps (Keeps.refl s) (by decide)
  | beaconSend => exact execBeaconSend_keeps (Keeps.refl s) (by decide)
  | beaconReceive => exact execBeaconReceive_keeps (Keeps.refl s) (by decide)
  | directedMsgForward => exact execDirectedMsgForward_keeps (Keeps.refl s) (by decide)
  | masterDiscovery => exact execMasterDiscovery_keeps (Keeps.refl s) (by decide)
  | neighbours => exact execNeighbours_keeps (Keeps.refl s) (by decide)
  | assignMid => exact execAssignMid_keeps (Keeps.refl s) (by decide)
  | routeWrite => exact execRouteWrite_keeps (Keeps.refl s) (by decide)
  | bankSwitch => exact execBankSwitch_keeps (Keeps.refl s) (by decide)
  | bankSwitchTime => exact execBankSwitchTime_keeps (Keeps.refl s) (by decide)
  | fabricCtlHeartbeatSend => exact execFabricCtlHeartbeatSend_keeps (Keeps.refl s) (by decide)
  | fabricCtlHeartbeatReceive => exact execFabricCtlHeartbeatReceive_keeps (Keeps.refl s) (by decide)
  | admitPartition => exact execAdmitPartition_keeps (Keeps.refl s) (by decide)
  | fenceNotice => exact execFenceNotice_keeps (Keeps.refl s) (by decide)
  | resyncBegin => exact execResyncBegin_keeps (Keeps.refl s) (by decide)
  | resyncEnd => exact execResyncEnd_keeps (Keeps.refl s) (by decide)
  | memberReport => exact execMemberReport_keeps (Keeps.refl s) (by decide)
  | tableRecompute => exact execTableRecompute_keeps (Keeps.refl s) (by decide)
  | admissionTimeout => exact execAdmissionTimeout_keeps (Keeps.refl s) (by decide)
  | beaconSilence => exact execBeaconSilence_keeps (Keeps.refl s) (by decide)
  | heartbeatSilence => exact execHeartbeatSilence_keeps (Keeps.refl s) (by decide)
  | leaseRenew => exact execLeaseRenew_keeps (Keeps.refl s) (by decide)
  | leaseResp => exact execLeaseResp_keeps (Keeps.refl s) (by decide)
  | claimResp => exact execClaimResp_keeps (Keeps.refl s) (by decide)
  | witnessUnreachableFence => exact execWitnessUnreachableFence_keeps (Keeps.refl s) (by decide)
  | memberFenceDeadline => exact execMemberFenceDeadline_keeps (Keeps.refl s) (by decide)
  | masterForce sess value => exact execMasterForce_keeps (Keeps.refl s) (by decide)
  | ftSet sess value => exact execFtSet_keeps (Keeps.refl s) (by decide)
  | ftPpsInEdge => exact execFtPpsInEdge_keeps (Keeps.refl s) (by decide)
  | ftPpsOutPulse => exact execFtPpsOutPulse_keeps (Keeps.refl s) (by decide)
  | operationAccept => exact execOperationAccept_keeps (Keeps.refl s) (by decide)
  | deferredAccept => exact execDeferredAccept_keeps (Keeps.refl s) (by decide)
  | operationFirstSend c => exact execOperationFirstSend_keeps (Keeps.refl s) (by decide)
  | retransmitTimeout ledgerIndex => exact execRetransmitTimeout_keeps (Keeps.refl s) (by decide)
  | operationReceive => exact execOperationReceive_keeps (Keeps.refl s) (by decide)
  | ackSend c => exact execAckSend_keeps (Keeps.refl s) (by decide)
  | ackReceive => exact execAckReceive_keeps (Keeps.refl s) (by decide)
  | nakReceive => exact execNakReceive_keeps (Keeps.refl s) (by decide)
  | connReqOpen => exact execConnReqOpen_keeps (Keeps.refl s) (by decide)
  | connReqClose => exact execConnReqClose_keeps (Keeps.refl s) (by decide)
  | connReqReset => exact execConnReqReset_keeps (Keeps.refl s) (by decide)
  | connReqRekey => exact execConnReqRekey_keeps (Keeps.refl s) (by decide)
  | connResp => exact execConnResp_keeps (Keeps.refl s) (by decide)
  | connReqResend c => exact execConnReqResend_keeps (Keeps.refl s) (by decide)
  | connOpenTimeout c => exact execConnOpenTimeout_keeps (Keeps.refl s) (by decide)
  | connExchangeTimeout c => exact execConnExchangeTimeout_keeps (Keeps.refl s) (by decide)
  | connCloseTimeout c => exact execConnCloseTimeout_keeps (Keeps.refl s) (by decide)
  | autoResumeTimer c => exact execAutoResumeTimer_keeps (Keeps.refl s) (by decide)
  | rekeyAll sess value => exact execRekeyAll_keeps (Keeps.refl s) (by decide)
  | apertureAccess inst t => exact execApertureAccess_keeps (Keeps.refl s) (by decide)
  | heldLoadSend => exact execHeldLoadSend_keeps (Keeps.refl s) (by decide)
  | visibilityPoint => exact execVisibilityPoint_keeps (Keeps.refl s) (by decide)
  | windowRevokeComplete w => exact execWindowRevokeComplete_keeps (Keeps.refl s) (by decide)
  | postfailClear sess v value => exact execPostfailClear_keeps (Keeps.refl s) (by decide)
  | windowOpen => exact execWindowOpen_keeps (Keeps.refl s) (by decide)
  | windowRevoke => exact execWindowRevoke_keeps (Keeps.refl s) (by decide)
  | windowFree => exact execWindowFree_keeps (Keeps.refl s) (by decide)
  | windowRead => exact execWindowRead_keeps (Keeps.refl s) (by decide)
  | importWrite => exact execImportWrite_keeps (Keeps.refl s) (by decide)
  | importInvalidate => exact execImportInvalidate_keeps (Keeps.refl s) (by decide)
  | importRead => exact execImportRead_keeps (Keeps.refl s) (by decide)
  | importSetGen => exact execImportSetGen_keeps (Keeps.refl s) (by decide)
  | connOpen => exact execConnOpen_keeps (Keeps.refl s) (by decide)
  | connModify => exact execConnModify_keeps (Keeps.refl s) (by decide)
  | connReset => exact execConnReset_keeps (Keeps.refl s) (by decide)
  | connRead => exact execConnRead_keeps (Keeps.refl s) (by decide)
  | connClose => exact execConnClose_keeps (Keeps.refl s) (by decide)
  | ledgerRead => exact execLedgerRead_keeps (Keeps.refl s) (by decide)
  | fenceBind => exact execFenceBind_keeps (Keeps.refl s) (by decide)
  | queueCreate => exact execQueueCreate_keeps (Keeps.refl s) (by decide)
  | queueDelete => exact execQueueDelete_keeps (Keeps.refl s) (by decide)
  | shareSet => exact execShareSet_keeps (Keeps.refl s) (by decide)
  | tuMap => exact execTuMap_keeps (Keeps.refl s) (by decide)
  | tuUnmap => exact execTuUnmap_keeps (Keeps.refl s) (by decide)
  | tuUnmapComplete => exact execTuUnmapComplete_keeps (Keeps.refl s) (by decide)
  | tuMode => exact execTuMode_keeps (Keeps.refl s) (by decide)
  | admqCtrl v value => exact execAdmqCtrl_keeps (Keeps.refl s) (by decide)
  | admcqHead v value => exact execAdmcqHead_keeps (Keeps.refl s) (by decide)
  | vfMsgRing inst value => exact execVfMsgRing_keeps (Keeps.refl s) (by decide)
  | vfReplyWrite v vf reply => exact execVfReplyWrite_keeps (Keeps.refl s) (by decide)
  | vfEnable v numVfs => exact execVfEnable_keeps (Keeps.refl s) (by decide)
  | vfDisable v => exact execVfDisable_keeps (Keeps.refl s) (by decide)
  | vfFlr inst => exact execVfFlr_keeps (Keeps.refl s) (by decide)
  | vfFlrComplete inst => exact execVfFlrComplete_keeps (Keeps.refl s) (by decide)
  | pfFlr v => exact execPfFlr_keeps (Keeps.refl s) (by decide)
  | descWrite inst q => exact execDescWrite_keeps (Keeps.refl s) (by decide)
  | descRead inst q => exact execDescRead_keeps (Keeps.refl s) (by decide)
  | descAtomic inst q => exact execDescAtomic_keeps (Keeps.refl s) (by decide)
  | descFence inst q => exact execDescFence_keeps (Keeps.refl s) (by decide)
  | descNop inst q => exact execDescNop_keeps (Keeps.refl s) (by decide)
  | descriptorComplete inst q => exact execDescriptorComplete_keeps (Keeps.refl s) (by decide)
  | descFetchFail inst q => exact execDescFetchFail_keeps (Keeps.refl s) (by decide)
  | fenceSlotRead inst slot rid tag => exact execFenceSlotRead_keeps (Keeps.refl s) (by decide)
  | hedCommit sess value => exact execHedCommit_keeps (Keeps.refl s) (by decide)
  | hedCommitComplete => exact execHedCommitComplete_keeps (Keeps.refl s) (by decide)
  | debugAccess write addr len => exact execDebugAccess_keeps (Keeps.refl s) (by decide)
  | selIsolateCmd sess v value => exact execSelIsolateCmd_keeps (Keeps.refl s) (by decide)
  | routingStateError v => exact execRoutingStateError_keeps (Keeps.refl s) (by decide)
  | shadowReloadDone v ok => exact execShadowReloadDone_keeps (Keeps.refl s) (by decide)
  | selErrClear sess d value => exact execSelErrClear_keeps (Keeps.refl s) (by decide)
  | moduleFatalError cause => exact execModuleFatalError_keeps (Keeps.refl s) (by decide)
  | mirrorRecordReceive => exact execMirrorRecordReceive_keeps (Keeps.refl s) (by decide)
  | twinSilence => exact execTwinSilence_keeps (Keeps.refl s) (by decide)
  | twinLostDeclare => exact execTwinLostDeclare_keeps (Keeps.refl s) (by decide)
  | mirrorRateAlert => exact execMirrorRateAlert_keeps (Keeps.refl s) (by decide)
  | dobbyTake r => exact execDobbyTake_keeps (Keeps.refl s) (by decide)
  | vmeCycleStart => exact execVmeCycleStart_keeps (Keeps.refl s) (by decide)
  | vmeCycleEnd lines => exact execVmeCycleEnd_keeps (Keeps.refl s) (by decide)
  | vmeBerr => exact execVmeBerr_keeps (Keeps.refl s) (by decide)
  | dobBusTimerExpiry => exact execDobBusTimerExpiry_keeps (Keeps.refl s) (by decide)
  | vmeInboundCycle c => exact execVmeInboundCycle_keeps (Keeps.refl s) (by decide)
  | vmeSemaphoreCycle sem am write value => exact execVmeSemaphoreCycle_keeps (Keeps.refl s) (by decide)
  | semRead v sem rid tag => exact execSemRead_keeps (Keeps.refl s) (by decide)
  | semWrite v sem value => exact execSemWrite_keeps (Keeps.refl s) (by decide)
  | vmeIrqAssert lvl => exact execVmeIrqAssert_keeps (Keeps.refl s) (by decide)
  | iackDone statusId => exact execIackDone_keeps (Keeps.refl s) (by decide)
  | ihRearm v mask => exact execIhRearm_keeps (Keeps.refl s) (by decide)
  | irqRaise v value => exact execIrqRaise_keeps (Keeps.refl s) (by decide)
  | irqWithdraw v mask => exact execIrqWithdraw_keeps (Keeps.refl s) (by decide)
  | iackinReceive lvl width => exact execIackinReceive_keeps (_width := width) (Keeps.refl s) (by decide)
  | lockBackoff => exact execLockBackoff_keeps (Keeps.refl s) (by decide)
  | unlockMessage v => exact execUnlockMessage_keeps (Keeps.refl s) (by decide)
  | busRequestPending => exact execBusRequestPending_keeps (Keeps.refl s) (by decide)
  | dobConnOpen sess value => exact execDobConnOpen_keeps (Keeps.refl s) (by decide)
  | dobConnClose sess value => exact execDobConnClose_keeps (Keeps.refl s) (by decide)
  | dobConnReset sess value => exact execDobConnReset_keeps (Keeps.refl s) (by decide)
  | sysresetInput => exact execSysresetInput_keeps (Keeps.refl s) (by decide)
  | sysfailChange asserted => exact execSysfailChange_keeps (Keeps.refl s) (by decide)
  | acfailChange asserted => exact execAcfailChange_keeps (Keeps.refl s) (by decide)
  | sysresetOutEnd => exact execSysresetOutEnd_keeps (Keeps.refl s) (by decide)
  | warmResetCmd sess value => exact execWarmResetCmd_keeps (Keeps.refl s) (by decide)
  | warmResetDrainEnd => exact execWarmResetDrainEnd_keeps (Keeps.refl s) (by decide)
  | warmResetCoreReset => exact execWarmResetCoreReset_keeps (Keeps.refl s) (by decide)
  | testEnterCmd sess value => exact execTestEnterCmd_keeps (Keeps.refl s) (by decide)
  | testEntryTime => exact execTestEntryTime_keeps (Keeps.refl s) (by decide)
  | fwLoadBegin sess value => exact execFwLoadBegin_keeps (Keeps.refl s) (by decide)
  | fwEraseDone => exact execFwEraseDone_keeps (Keeps.refl s) (by decide)
  | fwBlockData sess data => exact execFwBlockData_keeps (Keeps.refl s) (by decide)
  | fwLoadEnd sess value => exact execFwLoadEnd_keeps (Keeps.refl s) (by decide)
  | fwVerifyDone flashOk => exact execFwVerifyDone_keeps (Keeps.refl s) (by decide)
  | fwActivateCmd sess value => exact execFwActivateCmd_keeps (Keeps.refl s) (by decide)
  | fwActivateCancel sess value => exact execFwActivateCancel_keeps (Keeps.refl s) (by decide)
  | fwActivationStart => exact execFwActivationStart_keeps (Keeps.refl s) (by decide)
  | hitlessPhaseDone hashOk => exact execHitlessPhaseDone_keeps (Keeps.refl s) (by decide)
  | hitlessResume => exact execHitlessResume_keeps (Keeps.refl s) (by decide)
  | trialEnd => exact execTrialEnd_keeps (Keeps.refl s) (by decide)
  | treadleWatchdogExpiry => exact execTreadleWatchdogExpiry_keeps (Keeps.refl s) (by decide)
  | heartbeatSend => exact execHeartbeatSend_keeps (Keeps.refl s) (by decide)
  | heartbeat => exact execHeartbeat_keeps (Keeps.refl s) (by decide)
  | authBegin => exact execAuthBegin_keeps (Keeps.refl s) (by decide)
  | authProof => exact execAuthProof_keeps (Keeps.refl s) (by decide)
  | authTimeout sess => exact execAuthTimeout_keeps (Keeps.refl s) (by decide)
  | lockoutEnd source => exact execLockoutEnd_keeps (Keeps.refl s) (by decide)
  | read => exact execRead_keeps (Keeps.refl s) (by decide)
  | write => exact execWrite_keeps (Keeps.refl s) (by decide)
  | commit quick => exact execCommit_keeps (Keeps.refl s) (by decide)
  | commitFlashDone ok => exact execCommitFlashDone_keeps (Keeps.refl s) (by decide)
  | discard => exact execDiscard_keeps (Keeps.refl s) (by decide)
  | sessionEnd => exact execSessionEnd_keeps (Keeps.refl s) (by decide)
  | describe => exact execDescribe_keeps (Keeps.refl s) (by decide)
  | sessionIdleTimeout sess => exact execSessionIdleTimeout_keeps (Keeps.refl s) (by decide)
  | lease => exact execLease_keeps (Keeps.refl s) (by decide)
  | leaseExpiry slot => exact execLeaseExpiry_keeps (Keeps.refl s) (by decide)
  | claim => exact execClaim_keeps (Keeps.refl s) (by decide)
  | claimPendingTimeout slot => exact execClaimPendingTimeout_keeps (Keeps.refl s) (by decide)
  | witnessStartupEnd => exact execWitnessStartupEnd_keeps (Keeps.refl s) (by decide)
  | canFrameReceive ident bytes => exact execCanFrameReceive_keeps (Keeps.refl s) (by decide)
  | segmentTimeout src typ tagId => exact execSegmentTimeout_keeps (Keeps.refl s) (by decide)
  | canBusOff => exact execCanBusOff_keeps (Keeps.refl s) (by decide)
  | canBusOffRecovery => exact execCanBusOffRecovery_keeps (Keeps.refl s) (by decide)
  | mbReqSegment v ctrl bytes => exact execMbReqSegment_keeps (Keeps.refl s) (by decide)
  | mbRespTaken v => exact execMbRespTaken_keeps (Keeps.refl s) (by decide)
  | entropyFault => exact execEntropyFault_keeps (Keeps.refl s) (by decide)
  | entropyRecovered => exact execEntropyRecovered_keeps (Keeps.refl s) (by decide)
  | tapInstruction t => exact execTapInstruction_keeps (Keeps.refl s) (by decide)
  | ideKmKeyProg p stream selective keys => exact execIdeKmKeyProg_keeps (Keeps.refl s) (by decide)
  | tallySnapshotLaunch => exact execTallySnapshotLaunch_keeps (Keeps.refl s) (by decide)
  | tallyImageComplete => exact execTallyImageComplete_keeps (Keeps.refl s) (by decide)
  | tallyHold sess value => exact execTallyHold_keeps (Keeps.refl s) (by decide)
  | tallyHoldTimeout => exact execTallyHoldTimeout_keeps (Keeps.refl s) (by decide)
  | spoolDeliveryDeadline r => exact execSpoolDeliveryDeadline_keeps (Keeps.refl s) (by decide)
  | spoolRelease sess r value => exact execSpoolRelease_keeps (Keeps.refl s) (by decide)
  | spoolMark sess r value => exact execSpoolMark_keeps (Keeps.refl s) (by decide)
  | spoolRewind sess r value => exact execSpoolRewind_keeps (Keeps.refl s) (by decide)
  | spoolRestart sess r value => exact execSpoolRestart_keeps (Keeps.refl s) (by decide)
  | spoolIntrTimeout r => exact execSpoolIntrTimeout_keeps (Keeps.refl s) (by decide)
  | boltCapture sess value => exact execBoltCapture_keeps (Keeps.refl s) (by decide)
  | boltRelease sess value => exact execBoltRelease_keeps (Keeps.refl s) (by decide)
  | boltWriteDone => exact execBoltWriteDone_keeps (Keeps.refl s) (by decide)
  | boltSectionTimeout => exact execBoltSectionTimeout_keeps (Keeps.refl s) (by decide)
  | registerWrite sess index sub value => exact execRegisterWrite_keeps (Keeps.refl s) (by decide)
  | fabricCtlResponse => exact execFabricCtlResponse_keeps (Keeps.refl s) (by decide)
  | sqTailDoorbell inst q tail => exact execSqTailDoorbell_keeps (Keeps.refl s) (by decide)
  | admqTailDoorbell v tail => exact execAdmqTailDoorbell_keeps (Keeps.refl s) (by decide)
  | retrainReqEnd p => exact execRetrainReqEnd_keeps (Keeps.refl s) (by decide)

end Sys2Proof.Laws
end

