-- ==== Sys2Proof/Laws/State.lean ====
section
/-!
SUPPORT. What the small updates leave: one lemma for each field of the state that an update does not touch, true by unfolding it.
-/

namespace Sys2Proof.Machine

@[simp] theorem setCfg_pending (s : State) (k : Nat) (v : Nat) : (setCfg s k v).pending = s.pending := rfl
@[simp] theorem setCfg_now (s : State) (k : Nat) (v : Nat) : (setCfg s k v).now = s.now := rfl
@[simp] theorem setCfg_ft (s : State) (k : Nat) (v : Nat) : (setCfg s k v).ft = s.ft := rfl
@[simp] theorem setCfg_drawn (s : State) (k : Nat) (v : Nat) : (setCfg s k v).drawn = s.drawn := rfl
@[simp] theorem setCfg_freeDraws (s : State) (k : Nat) (v : Nat) : (setCfg s k v).freeDraws = s.freeDraws := rfl
@[simp] theorem setCfg_flash (s : State) (k : Nat) (v : Nat) : (setCfg s k v).flash = s.flash := rfl
@[simp] theorem setCfg_module (s : State) (k : Nat) (v : Nat) : (setCfg s k v).module = s.module := rfl
@[simp] theorem setCfg_power (s : State) (k : Nat) (v : Nat) : (setCfg s k v).power = s.power := rfl
@[simp] theorem setCfg_gov (s : State) (k : Nat) (v : Nat) : (setCfg s k v).gov = s.gov := rfl
@[simp] theorem setCfg_lanes (s : State) (k : Nat) (v : Nat) : (setCfg s k v).lanes = s.lanes := rfl
@[simp] theorem setCfg_weft (s : State) (k : Nat) (v : Nat) : (setCfg s k v).weft = s.weft := rfl
@[simp] theorem setCfg_warp (s : State) (k : Nat) (v : Nat) : (setCfg s k v).warp = s.warp := rfl
@[simp] theorem setCfg_loom (s : State) (k : Nat) (v : Nat) : (setCfg s k v).loom = s.loom := rfl
@[simp] theorem setCfg_fab (s : State) (k : Nat) (v : Nat) : (setCfg s k v).fab = s.fab := rfl
@[simp] theorem setCfg_shu (s : State) (k : Nat) (v : Nat) : (setCfg s k v).shu = s.shu := rfl
@[simp] theorem setCfg_win (s : State) (k : Nat) (v : Nat) : (setCfg s k v).win = s.win := rfl
@[simp] theorem setCfg_eng (s : State) (k : Nat) (v : Nat) : (setCfg s k v).eng = s.eng := rfl
@[simp] theorem setCfg_hed (s : State) (k : Nat) (v : Nat) : (setCfg s k v).hed = s.hed := rfl
@[simp] theorem setCfg_sel (s : State) (k : Nat) (v : Nat) : (setCfg s k v).sel = s.sel := rfl
@[simp] theorem setCfg_twin (s : State) (k : Nat) (v : Nat) : (setCfg s k v).twin = s.twin := rfl
@[simp] theorem setCfg_dob (s : State) (k : Nat) (v : Nat) : (setCfg s k v).dob = s.dob := rfl
@[simp] theorem setCfg_mgmt (s : State) (k : Nat) (v : Nat) : (setCfg s k v).mgmt = s.mgmt := rfl
@[simp] theorem setCfg_vault (s : State) (k : Nat) (v : Nat) : (setCfg s k v).vault = s.vault := rfl
@[simp] theorem setCfg_obs (s : State) (k : Nat) (v : Nat) : (setCfg s k v).obs = s.obs := rfl
@[simp] theorem setCfg_host (s : State) (k : Nat) (v : Nat) : (setCfg s k v).host = s.host := rfl
@[simp] theorem setCfg_beam (s : State) (k : Nat) (v : Nat) : (setCfg s k v).beam = s.beam := rfl
@[simp] theorem setCfg_tx (s : State) (k : Nat) (v : Nat) : (setCfg s k v).tx = s.tx := rfl

@[simp] theorem setFlash_pending (s : State) (k : Nat) (v : Nat) : (setFlash s k v).pending = s.pending := rfl
@[simp] theorem setFlash_now (s : State) (k : Nat) (v : Nat) : (setFlash s k v).now = s.now := rfl
@[simp] theorem setFlash_ft (s : State) (k : Nat) (v : Nat) : (setFlash s k v).ft = s.ft := rfl
@[simp] theorem setFlash_drawn (s : State) (k : Nat) (v : Nat) : (setFlash s k v).drawn = s.drawn := rfl
@[simp] theorem setFlash_freeDraws (s : State) (k : Nat) (v : Nat) : (setFlash s k v).freeDraws = s.freeDraws := rfl
@[simp] theorem setFlash_cfg (s : State) (k : Nat) (v : Nat) : (setFlash s k v).cfg = s.cfg := rfl
@[simp] theorem setFlash_module (s : State) (k : Nat) (v : Nat) : (setFlash s k v).module = s.module := rfl
@[simp] theorem setFlash_power (s : State) (k : Nat) (v : Nat) : (setFlash s k v).power = s.power := rfl
@[simp] theorem setFlash_gov (s : State) (k : Nat) (v : Nat) : (setFlash s k v).gov = s.gov := rfl
@[simp] theorem setFlash_lanes (s : State) (k : Nat) (v : Nat) : (setFlash s k v).lanes = s.lanes := rfl
@[simp] theorem setFlash_weft (s : State) (k : Nat) (v : Nat) : (setFlash s k v).weft = s.weft := rfl
@[simp] theorem setFlash_warp (s : State) (k : Nat) (v : Nat) : (setFlash s k v).warp = s.warp := rfl
@[simp] theorem setFlash_loom (s : State) (k : Nat) (v : Nat) : (setFlash s k v).loom = s.loom := rfl
@[simp] theorem setFlash_fab (s : State) (k : Nat) (v : Nat) : (setFlash s k v).fab = s.fab := rfl
@[simp] theorem setFlash_shu (s : State) (k : Nat) (v : Nat) : (setFlash s k v).shu = s.shu := rfl
@[simp] theorem setFlash_win (s : State) (k : Nat) (v : Nat) : (setFlash s k v).win = s.win := rfl
@[simp] theorem setFlash_eng (s : State) (k : Nat) (v : Nat) : (setFlash s k v).eng = s.eng := rfl
@[simp] theorem setFlash_hed (s : State) (k : Nat) (v : Nat) : (setFlash s k v).hed = s.hed := rfl
@[simp] theorem setFlash_sel (s : State) (k : Nat) (v : Nat) : (setFlash s k v).sel = s.sel := rfl
@[simp] theorem setFlash_twin (s : State) (k : Nat) (v : Nat) : (setFlash s k v).twin = s.twin := rfl
@[simp] theorem setFlash_dob (s : State) (k : Nat) (v : Nat) : (setFlash s k v).dob = s.dob := rfl
@[simp] theorem setFlash_mgmt (s : State) (k : Nat) (v : Nat) : (setFlash s k v).mgmt = s.mgmt := rfl
@[simp] theorem setFlash_vault (s : State) (k : Nat) (v : Nat) : (setFlash s k v).vault = s.vault := rfl
@[simp] theorem setFlash_obs (s : State) (k : Nat) (v : Nat) : (setFlash s k v).obs = s.obs := rfl
@[simp] theorem setFlash_host (s : State) (k : Nat) (v : Nat) : (setFlash s k v).host = s.host := rfl
@[simp] theorem setFlash_beam (s : State) (k : Nat) (v : Nat) : (setFlash s k v).beam = s.beam := rfl
@[simp] theorem setFlash_tx (s : State) (k : Nat) (v : Nat) : (setFlash s k v).tx = s.tx := rfl

@[simp] theorem emit_pending (s : State) (e : Emit) : (emit s e).pending = s.pending := rfl
@[simp] theorem emit_now (s : State) (e : Emit) : (emit s e).now = s.now := rfl
@[simp] theorem emit_ft (s : State) (e : Emit) : (emit s e).ft = s.ft := rfl
@[simp] theorem emit_drawn (s : State) (e : Emit) : (emit s e).drawn = s.drawn := rfl
@[simp] theorem emit_freeDraws (s : State) (e : Emit) : (emit s e).freeDraws = s.freeDraws := rfl
@[simp] theorem emit_cfg (s : State) (e : Emit) : (emit s e).cfg = s.cfg := rfl
@[simp] theorem emit_flash (s : State) (e : Emit) : (emit s e).flash = s.flash := rfl
@[simp] theorem emit_module (s : State) (e : Emit) : (emit s e).module = s.module := rfl
@[simp] theorem emit_power (s : State) (e : Emit) : (emit s e).power = s.power := rfl
@[simp] theorem emit_gov (s : State) (e : Emit) : (emit s e).gov = s.gov := rfl
@[simp] theorem emit_lanes (s : State) (e : Emit) : (emit s e).lanes = s.lanes := rfl
@[simp] theorem emit_weft (s : State) (e : Emit) : (emit s e).weft = s.weft := rfl
@[simp] theorem emit_warp (s : State) (e : Emit) : (emit s e).warp = s.warp := rfl
@[simp] theorem emit_loom (s : State) (e : Emit) : (emit s e).loom = s.loom := rfl
@[simp] theorem emit_fab (s : State) (e : Emit) : (emit s e).fab = s.fab := rfl
@[simp] theorem emit_shu (s : State) (e : Emit) : (emit s e).shu = s.shu := rfl
@[simp] theorem emit_win (s : State) (e : Emit) : (emit s e).win = s.win := rfl
@[simp] theorem emit_eng (s : State) (e : Emit) : (emit s e).eng = s.eng := rfl
@[simp] theorem emit_hed (s : State) (e : Emit) : (emit s e).hed = s.hed := rfl
@[simp] theorem emit_sel (s : State) (e : Emit) : (emit s e).sel = s.sel := rfl
@[simp] theorem emit_twin (s : State) (e : Emit) : (emit s e).twin = s.twin := rfl
@[simp] theorem emit_dob (s : State) (e : Emit) : (emit s e).dob = s.dob := rfl
@[simp] theorem emit_mgmt (s : State) (e : Emit) : (emit s e).mgmt = s.mgmt := rfl
@[simp] theorem emit_vault (s : State) (e : Emit) : (emit s e).vault = s.vault := rfl
@[simp] theorem emit_obs (s : State) (e : Emit) : (emit s e).obs = s.obs := rfl
@[simp] theorem emit_host (s : State) (e : Emit) : (emit s e).host = s.host := rfl
@[simp] theorem emit_beam (s : State) (e : Emit) : (emit s e).beam = s.beam := rfl

@[simp] theorem emitAll_pending (s : State) (es : List Emit) : (emitAll s es).pending = s.pending := rfl
@[simp] theorem emitAll_now (s : State) (es : List Emit) : (emitAll s es).now = s.now := rfl
@[simp] theorem emitAll_ft (s : State) (es : List Emit) : (emitAll s es).ft = s.ft := rfl
@[simp] theorem emitAll_drawn (s : State) (es : List Emit) : (emitAll s es).drawn = s.drawn := rfl
@[simp] theorem emitAll_freeDraws (s : State) (es : List Emit) : (emitAll s es).freeDraws = s.freeDraws := rfl
@[simp] theorem emitAll_cfg (s : State) (es : List Emit) : (emitAll s es).cfg = s.cfg := rfl
@[simp] theorem emitAll_flash (s : State) (es : List Emit) : (emitAll s es).flash = s.flash := rfl
@[simp] theorem emitAll_module (s : State) (es : List Emit) : (emitAll s es).module = s.module := rfl
@[simp] theorem emitAll_power (s : State) (es : List Emit) : (emitAll s es).power = s.power := rfl
@[simp] theorem emitAll_gov (s : State) (es : List Emit) : (emitAll s es).gov = s.gov := rfl
@[simp] theorem emitAll_lanes (s : State) (es : List Emit) : (emitAll s es).lanes = s.lanes := rfl
@[simp] theorem emitAll_weft (s : State) (es : List Emit) : (emitAll s es).weft = s.weft := rfl
@[simp] theorem emitAll_warp (s : State) (es : List Emit) : (emitAll s es).warp = s.warp := rfl
@[simp] theorem emitAll_loom (s : State) (es : List Emit) : (emitAll s es).loom = s.loom := rfl
@[simp] theorem emitAll_fab (s : State) (es : List Emit) : (emitAll s es).fab = s.fab := rfl
@[simp] theorem emitAll_shu (s : State) (es : List Emit) : (emitAll s es).shu = s.shu := rfl
@[simp] theorem emitAll_win (s : State) (es : List Emit) : (emitAll s es).win = s.win := rfl
@[simp] theorem emitAll_eng (s : State) (es : List Emit) : (emitAll s es).eng = s.eng := rfl
@[simp] theorem emitAll_hed (s : State) (es : List Emit) : (emitAll s es).hed = s.hed := rfl
@[simp] theorem emitAll_sel (s : State) (es : List Emit) : (emitAll s es).sel = s.sel := rfl
@[simp] theorem emitAll_twin (s : State) (es : List Emit) : (emitAll s es).twin = s.twin := rfl
@[simp] theorem emitAll_dob (s : State) (es : List Emit) : (emitAll s es).dob = s.dob := rfl
@[simp] theorem emitAll_mgmt (s : State) (es : List Emit) : (emitAll s es).mgmt = s.mgmt := rfl
@[simp] theorem emitAll_vault (s : State) (es : List Emit) : (emitAll s es).vault = s.vault := rfl
@[simp] theorem emitAll_obs (s : State) (es : List Emit) : (emitAll s es).obs = s.obs := rfl
@[simp] theorem emitAll_host (s : State) (es : List Emit) : (emitAll s es).host = s.host := rfl
@[simp] theorem emitAll_beam (s : State) (es : List Emit) : (emitAll s es).beam = s.beam := rfl

@[simp] theorem afterDraw_pending (s : State) : (afterDraw s).pending = s.pending := rfl
@[simp] theorem afterDraw_now (s : State) : (afterDraw s).now = s.now := rfl
@[simp] theorem afterDraw_ft (s : State) : (afterDraw s).ft = s.ft := rfl
@[simp] theorem afterDraw_freeDraws (s : State) : (afterDraw s).freeDraws = s.freeDraws := rfl
@[simp] theorem afterDraw_cfg (s : State) : (afterDraw s).cfg = s.cfg := rfl
@[simp] theorem afterDraw_flash (s : State) : (afterDraw s).flash = s.flash := rfl
@[simp] theorem afterDraw_module (s : State) : (afterDraw s).module = s.module := rfl
@[simp] theorem afterDraw_power (s : State) : (afterDraw s).power = s.power := rfl
@[simp] theorem afterDraw_gov (s : State) : (afterDraw s).gov = s.gov := rfl
@[simp] theorem afterDraw_lanes (s : State) : (afterDraw s).lanes = s.lanes := rfl
@[simp] theorem afterDraw_weft (s : State) : (afterDraw s).weft = s.weft := rfl
@[simp] theorem afterDraw_warp (s : State) : (afterDraw s).warp = s.warp := rfl
@[simp] theorem afterDraw_loom (s : State) : (afterDraw s).loom = s.loom := rfl
@[simp] theorem afterDraw_fab (s : State) : (afterDraw s).fab = s.fab := rfl
@[simp] theorem afterDraw_shu (s : State) : (afterDraw s).shu = s.shu := rfl
@[simp] theorem afterDraw_win (s : State) : (afterDraw s).win = s.win := rfl
@[simp] theorem afterDraw_eng (s : State) : (afterDraw s).eng = s.eng := rfl
@[simp] theorem afterDraw_hed (s : State) : (afterDraw s).hed = s.hed := rfl
@[simp] theorem afterDraw_sel (s : State) : (afterDraw s).sel = s.sel := rfl
@[simp] theorem afterDraw_twin (s : State) : (afterDraw s).twin = s.twin := rfl
@[simp] theorem afterDraw_dob (s : State) : (afterDraw s).dob = s.dob := rfl
@[simp] theorem afterDraw_mgmt (s : State) : (afterDraw s).mgmt = s.mgmt := rfl
@[simp] theorem afterDraw_vault (s : State) : (afterDraw s).vault = s.vault := rfl
@[simp] theorem afterDraw_obs (s : State) : (afterDraw s).obs = s.obs := rfl
@[simp] theorem afterDraw_host (s : State) : (afterDraw s).host = s.host := rfl
@[simp] theorem afterDraw_beam (s : State) : (afterDraw s).beam = s.beam := rfl
@[simp] theorem afterDraw_tx (s : State) : (afterDraw s).tx = s.tx := rfl

@[simp] theorem afterFree_pending (s : State) : (afterFree s).pending = s.pending := rfl
@[simp] theorem afterFree_now (s : State) : (afterFree s).now = s.now := rfl
@[simp] theorem afterFree_ft (s : State) : (afterFree s).ft = s.ft := rfl
@[simp] theorem afterFree_drawn (s : State) : (afterFree s).drawn = s.drawn := rfl
@[simp] theorem afterFree_cfg (s : State) : (afterFree s).cfg = s.cfg := rfl
@[simp] theorem afterFree_flash (s : State) : (afterFree s).flash = s.flash := rfl
@[simp] theorem afterFree_module (s : State) : (afterFree s).module = s.module := rfl
@[simp] theorem afterFree_power (s : State) : (afterFree s).power = s.power := rfl
@[simp] theorem afterFree_gov (s : State) : (afterFree s).gov = s.gov := rfl
@[simp] theorem afterFree_lanes (s : State) : (afterFree s).lanes = s.lanes := rfl
@[simp] theorem afterFree_weft (s : State) : (afterFree s).weft = s.weft := rfl
@[simp] theorem afterFree_warp (s : State) : (afterFree s).warp = s.warp := rfl
@[simp] theorem afterFree_loom (s : State) : (afterFree s).loom = s.loom := rfl
@[simp] theorem afterFree_fab (s : State) : (afterFree s).fab = s.fab := rfl
@[simp] theorem afterFree_shu (s : State) : (afterFree s).shu = s.shu := rfl
@[simp] theorem afterFree_win (s : State) : (afterFree s).win = s.win := rfl
@[simp] theorem afterFree_eng (s : State) : (afterFree s).eng = s.eng := rfl
@[simp] theorem afterFree_hed (s : State) : (afterFree s).hed = s.hed := rfl
@[simp] theorem afterFree_sel (s : State) : (afterFree s).sel = s.sel := rfl
@[simp] theorem afterFree_twin (s : State) : (afterFree s).twin = s.twin := rfl
@[simp] theorem afterFree_dob (s : State) : (afterFree s).dob = s.dob := rfl
@[simp] theorem afterFree_mgmt (s : State) : (afterFree s).mgmt = s.mgmt := rfl
@[simp] theorem afterFree_vault (s : State) : (afterFree s).vault = s.vault := rfl
@[simp] theorem afterFree_obs (s : State) : (afterFree s).obs = s.obs := rfl
@[simp] theorem afterFree_host (s : State) : (afterFree s).host = s.host := rfl
@[simp] theorem afterFree_beam (s : State) : (afterFree s).beam = s.beam := rfl
@[simp] theorem afterFree_tx (s : State) : (afterFree s).tx = s.tx := rfl

@[simp] theorem ringSet_pending (s : State) (r : Nat) (x : RingState) : (ringSet s r x).pending = s.pending := rfl
@[simp] theorem ringSet_now (s : State) (r : Nat) (x : RingState) : (ringSet s r x).now = s.now := rfl
@[simp] theorem ringSet_ft (s : State) (r : Nat) (x : RingState) : (ringSet s r x).ft = s.ft := rfl
@[simp] theorem ringSet_drawn (s : State) (r : Nat) (x : RingState) : (ringSet s r x).drawn = s.drawn := rfl
@[simp] theorem ringSet_freeDraws (s : State) (r : Nat) (x : RingState) : (ringSet s r x).freeDraws = s.freeDraws := rfl
@[simp] theorem ringSet_cfg (s : State) (r : Nat) (x : RingState) : (ringSet s r x).cfg = s.cfg := rfl
@[simp] theorem ringSet_flash (s : State) (r : Nat) (x : RingState) : (ringSet s r x).flash = s.flash := rfl
@[simp] theorem ringSet_module (s : State) (r : Nat) (x : RingState) : (ringSet s r x).module = s.module := rfl
@[simp] theorem ringSet_power (s : State) (r : Nat) (x : RingState) : (ringSet s r x).power = s.power := rfl
@[simp] theorem ringSet_gov (s : State) (r : Nat) (x : RingState) : (ringSet s r x).gov = s.gov := rfl
@[simp] theorem ringSet_lanes (s : State) (r : Nat) (x : RingState) : (ringSet s r x).lanes = s.lanes := rfl
@[simp] theorem ringSet_weft (s : State) (r : Nat) (x : RingState) : (ringSet s r x).weft = s.weft := rfl
@[simp] theorem ringSet_warp (s : State) (r : Nat) (x : RingState) : (ringSet s r x).warp = s.warp := rfl
@[simp] theorem ringSet_loom (s : State) (r : Nat) (x : RingState) : (ringSet s r x).loom = s.loom := rfl
@[simp] theorem ringSet_fab (s : State) (r : Nat) (x : RingState) : (ringSet s r x).fab = s.fab := rfl
@[simp] theorem ringSet_shu (s : State) (r : Nat) (x : RingState) : (ringSet s r x).shu = s.shu := rfl
@[simp] theorem ringSet_win (s : State) (r : Nat) (x : RingState) : (ringSet s r x).win = s.win := rfl
@[simp] theorem ringSet_eng (s : State) (r : Nat) (x : RingState) : (ringSet s r x).eng = s.eng := rfl
@[simp] theorem ringSet_hed (s : State) (r : Nat) (x : RingState) : (ringSet s r x).hed = s.hed := rfl
@[simp] theorem ringSet_sel (s : State) (r : Nat) (x : RingState) : (ringSet s r x).sel = s.sel := rfl
@[simp] theorem ringSet_twin (s : State) (r : Nat) (x : RingState) : (ringSet s r x).twin = s.twin := rfl
@[simp] theorem ringSet_dob (s : State) (r : Nat) (x : RingState) : (ringSet s r x).dob = s.dob := rfl
@[simp] theorem ringSet_mgmt (s : State) (r : Nat) (x : RingState) : (ringSet s r x).mgmt = s.mgmt := rfl
@[simp] theorem ringSet_vault (s : State) (r : Nat) (x : RingState) : (ringSet s r x).vault = s.vault := rfl
@[simp] theorem ringSet_host (s : State) (r : Nat) (x : RingState) : (ringSet s r x).host = s.host := rfl
@[simp] theorem ringSet_beam (s : State) (r : Nat) (x : RingState) : (ringSet s r x).beam = s.beam := rfl
@[simp] theorem ringSet_tx (s : State) (r : Nat) (x : RingState) : (ringSet s r x).tx = s.tx := rfl

@[simp] theorem hostWrite_pending (s : State) (v : Nat) (a : Nat) (bs : List Byte) : (hostWrite s v a bs).pending = s.pending := rfl
@[simp] theorem hostWrite_now (s : State) (v : Nat) (a : Nat) (bs : List Byte) : (hostWrite s v a bs).now = s.now := rfl
@[simp] theorem hostWrite_ft (s : State) (v : Nat) (a : Nat) (bs : List Byte) : (hostWrite s v a bs).ft = s.ft := rfl
@[simp] theorem hostWrite_drawn (s : State) (v : Nat) (a : Nat) (bs : List Byte) : (hostWrite s v a bs).drawn = s.drawn := rfl
@[simp] theorem hostWrite_freeDraws (s : State) (v : Nat) (a : Nat) (bs : List Byte) : (hostWrite s v a bs).freeDraws = s.freeDraws := rfl
@[simp] theorem hostWrite_cfg (s : State) (v : Nat) (a : Nat) (bs : List Byte) : (hostWrite s v a bs).cfg = s.cfg := rfl
@[simp] theorem hostWrite_flash (s : State) (v : Nat) (a : Nat) (bs : List Byte) : (hostWrite s v a bs).flash = s.flash := rfl
@[simp] theorem hostWrite_module (s : State) (v : Nat) (a : Nat) (bs : List Byte) : (hostWrite s v a bs).module = s.module := rfl
@[simp] theorem hostWrite_power (s : State) (v : Nat) (a : Nat) (bs : List Byte) : (hostWrite s v a bs).power = s.power := rfl
@[simp] theorem hostWrite_gov (s : State) (v : Nat) (a : Nat) (bs : List Byte) : (hostWrite s v a bs).gov = s.gov := rfl
@[simp] theorem hostWrite_lanes (s : State) (v : Nat) (a : Nat) (bs : List Byte) : (hostWrite s v a bs).lanes = s.lanes := rfl
@[simp] theorem hostWrite_weft (s : State) (v : Nat) (a : Nat) (bs : List Byte) : (hostWrite s v a bs).weft = s.weft := rfl
@[simp] theorem hostWrite_warp (s : State) (v : Nat) (a : Nat) (bs : List Byte) : (hostWrite s v a bs).warp = s.warp := rfl
@[simp] theorem hostWrite_loom (s : State) (v : Nat) (a : Nat) (bs : List Byte) : (hostWrite s v a bs).loom = s.loom := rfl
@[simp] theorem hostWrite_fab (s : State) (v : Nat) (a : Nat) (bs : List Byte) : (hostWrite s v a bs).fab = s.fab := rfl
@[simp] theorem hostWrite_shu (s : State) (v : Nat) (a : Nat) (bs : List Byte) : (hostWrite s v a bs).shu = s.shu := rfl
@[simp] theorem hostWrite_win (s : State) (v : Nat) (a : Nat) (bs : List Byte) : (hostWrite s v a bs).win = s.win := rfl
@[simp] theorem hostWrite_eng (s : State) (v : Nat) (a : Nat) (bs : List Byte) : (hostWrite s v a bs).eng = s.eng := rfl
@[simp] theorem hostWrite_hed (s : State) (v : Nat) (a : Nat) (bs : List Byte) : (hostWrite s v a bs).hed = s.hed := rfl
@[simp] theorem hostWrite_sel (s : State) (v : Nat) (a : Nat) (bs : List Byte) : (hostWrite s v a bs).sel = s.sel := rfl
@[simp] theorem hostWrite_twin (s : State) (v : Nat) (a : Nat) (bs : List Byte) : (hostWrite s v a bs).twin = s.twin := rfl
@[simp] theorem hostWrite_dob (s : State) (v : Nat) (a : Nat) (bs : List Byte) : (hostWrite s v a bs).dob = s.dob := rfl
@[simp] theorem hostWrite_mgmt (s : State) (v : Nat) (a : Nat) (bs : List Byte) : (hostWrite s v a bs).mgmt = s.mgmt := rfl
@[simp] theorem hostWrite_vault (s : State) (v : Nat) (a : Nat) (bs : List Byte) : (hostWrite s v a bs).vault = s.vault := rfl
@[simp] theorem hostWrite_obs (s : State) (v : Nat) (a : Nat) (bs : List Byte) : (hostWrite s v a bs).obs = s.obs := rfl
@[simp] theorem hostWrite_beam (s : State) (v : Nat) (a : Nat) (bs : List Byte) : (hostWrite s v a bs).beam = s.beam := rfl
@[simp] theorem hostWrite_tx (s : State) (v : Nat) (a : Nat) (bs : List Byte) : (hostWrite s v a bs).tx = s.tx := rfl

@[simp] theorem setAdm_pending (s : State) (v : Nat) (x : AdmBlk) : (setAdm s v x).pending = s.pending := rfl
@[simp] theorem setAdm_now (s : State) (v : Nat) (x : AdmBlk) : (setAdm s v x).now = s.now := rfl
@[simp] theorem setAdm_ft (s : State) (v : Nat) (x : AdmBlk) : (setAdm s v x).ft = s.ft := rfl
@[simp] theorem setAdm_drawn (s : State) (v : Nat) (x : AdmBlk) : (setAdm s v x).drawn = s.drawn := rfl
@[simp] theorem setAdm_freeDraws (s : State) (v : Nat) (x : AdmBlk) : (setAdm s v x).freeDraws = s.freeDraws := rfl
@[simp] theorem setAdm_cfg (s : State) (v : Nat) (x : AdmBlk) : (setAdm s v x).cfg = s.cfg := rfl
@[simp] theorem setAdm_flash (s : State) (v : Nat) (x : AdmBlk) : (setAdm s v x).flash = s.flash := rfl
@[simp] theorem setAdm_module (s : State) (v : Nat) (x : AdmBlk) : (setAdm s v x).module = s.module := rfl
@[simp] theorem setAdm_power (s : State) (v : Nat) (x : AdmBlk) : (setAdm s v x).power = s.power := rfl
@[simp] theorem setAdm_gov (s : State) (v : Nat) (x : AdmBlk) : (setAdm s v x).gov = s.gov := rfl
@[simp] theorem setAdm_lanes (s : State) (v : Nat) (x : AdmBlk) : (setAdm s v x).lanes = s.lanes := rfl
@[simp] theorem setAdm_weft (s : State) (v : Nat) (x : AdmBlk) : (setAdm s v x).weft = s.weft := rfl
@[simp] theorem setAdm_warp (s : State) (v : Nat) (x : AdmBlk) : (setAdm s v x).warp = s.warp := rfl
@[simp] theorem setAdm_loom (s : State) (v : Nat) (x : AdmBlk) : (setAdm s v x).loom = s.loom := rfl
@[simp] theorem setAdm_fab (s : State) (v : Nat) (x : AdmBlk) : (setAdm s v x).fab = s.fab := rfl
@[simp] theorem setAdm_shu (s : State) (v : Nat) (x : AdmBlk) : (setAdm s v x).shu = s.shu := rfl
@[simp] theorem setAdm_win (s : State) (v : Nat) (x : AdmBlk) : (setAdm s v x).win = s.win := rfl
@[simp] theorem setAdm_hed (s : State) (v : Nat) (x : AdmBlk) : (setAdm s v x).hed = s.hed := rfl
@[simp] theorem setAdm_sel (s : State) (v : Nat) (x : AdmBlk) : (setAdm s v x).sel = s.sel := rfl
@[simp] theorem setAdm_twin (s : State) (v : Nat) (x : AdmBlk) : (setAdm s v x).twin = s.twin := rfl
@[simp] theorem setAdm_dob (s : State) (v : Nat) (x : AdmBlk) : (setAdm s v x).dob = s.dob := rfl
@[simp] theorem setAdm_mgmt (s : State) (v : Nat) (x : AdmBlk) : (setAdm s v x).mgmt = s.mgmt := rfl
@[simp] theorem setAdm_vault (s : State) (v : Nat) (x : AdmBlk) : (setAdm s v x).vault = s.vault := rfl
@[simp] theorem setAdm_obs (s : State) (v : Nat) (x : AdmBlk) : (setAdm s v x).obs = s.obs := rfl
@[simp] theorem setAdm_host (s : State) (v : Nat) (x : AdmBlk) : (setAdm s v x).host = s.host := rfl
@[simp] theorem setAdm_beam (s : State) (v : Nat) (x : AdmBlk) : (setAdm s v x).beam = s.beam := rfl
@[simp] theorem setAdm_tx (s : State) (v : Nat) (x : AdmBlk) : (setAdm s v x).tx = s.tx := rfl

@[simp] theorem setItems_pending (s : State) (is : List DobItem) : (setItems s is).pending = s.pending := rfl
@[simp] theorem setItems_now (s : State) (is : List DobItem) : (setItems s is).now = s.now := rfl
@[simp] theorem setItems_ft (s : State) (is : List DobItem) : (setItems s is).ft = s.ft := rfl
@[simp] theorem setItems_drawn (s : State) (is : List DobItem) : (setItems s is).drawn = s.drawn := rfl
@[simp] theorem setItems_freeDraws (s : State) (is : List DobItem) : (setItems s is).freeDraws = s.freeDraws := rfl
@[simp] theorem setItems_cfg (s : State) (is : List DobItem) : (setItems s is).cfg = s.cfg := rfl
@[simp] theorem setItems_flash (s : State) (is : List DobItem) : (setItems s is).flash = s.flash := rfl
@[simp] theorem setItems_module (s : State) (is : List DobItem) : (setItems s is).module = s.module := rfl
@[simp] theorem setItems_power (s : State) (is : List DobItem) : (setItems s is).power = s.power := rfl
@[simp] theorem setItems_gov (s : State) (is : List DobItem) : (setItems s is).gov = s.gov := rfl
@[simp] theorem setItems_lanes (s : State) (is : List DobItem) : (setItems s is).lanes = s.lanes := rfl
@[simp] theorem setItems_weft (s : State) (is : List DobItem) : (setItems s is).weft = s.weft := rfl
@[simp] theorem setItems_warp (s : State) (is : List DobItem) : (setItems s is).warp = s.warp := rfl
@[simp] theorem setItems_loom (s : State) (is : List DobItem) : (setItems s is).loom = s.loom := rfl
@[simp] theorem setItems_fab (s : State) (is : List DobItem) : (setItems s is).fab = s.fab := rfl
@[simp] theorem setItems_shu (s : State) (is : List DobItem) : (setItems s is).shu = s.shu := rfl
@[simp] theorem setItems_win (s : State) (is : List DobItem) : (setItems s is).win = s.win := rfl
@[simp] theorem setItems_eng (s : State) (is : List DobItem) : (setItems s is).eng = s.eng := rfl
@[simp] theorem setItems_hed (s : State) (is : List DobItem) : (setItems s is).hed = s.hed := rfl
@[simp] theorem setItems_sel (s : State) (is : List DobItem) : (setItems s is).sel = s.sel := rfl
@[simp] theorem setItems_twin (s : State) (is : List DobItem) : (setItems s is).twin = s.twin := rfl
@[simp] theorem setItems_mgmt (s : State) (is : List DobItem) : (setItems s is).mgmt = s.mgmt := rfl
@[simp] theorem setItems_vault (s : State) (is : List DobItem) : (setItems s is).vault = s.vault := rfl
@[simp] theorem setItems_obs (s : State) (is : List DobItem) : (setItems s is).obs = s.obs := rfl
@[simp] theorem setItems_host (s : State) (is : List DobItem) : (setItems s is).host = s.host := rfl
@[simp] theorem setItems_beam (s : State) (is : List DobItem) : (setItems s is).beam = s.beam := rfl
@[simp] theorem setItems_tx (s : State) (is : List DobItem) : (setItems s is).tx = s.tx := rfl

@[simp] theorem setItem_pending (s : State) (it : DobItem) : (setItem s it).pending = s.pending := rfl
@[simp] theorem setItem_now (s : State) (it : DobItem) : (setItem s it).now = s.now := rfl
@[simp] theorem setItem_ft (s : State) (it : DobItem) : (setItem s it).ft = s.ft := rfl
@[simp] theorem setItem_drawn (s : State) (it : DobItem) : (setItem s it).drawn = s.drawn := rfl
@[simp] theorem setItem_freeDraws (s : State) (it : DobItem) : (setItem s it).freeDraws = s.freeDraws := rfl
@[simp] theorem setItem_cfg (s : State) (it : DobItem) : (setItem s it).cfg = s.cfg := rfl
@[simp] theorem setItem_flash (s : State) (it : DobItem) : (setItem s it).flash = s.flash := rfl
@[simp] theorem setItem_module (s : State) (it : DobItem) : (setItem s it).module = s.module := rfl
@[simp] theorem setItem_power (s : State) (it : DobItem) : (setItem s it).power = s.power := rfl
@[simp] theorem setItem_gov (s : State) (it : DobItem) : (setItem s it).gov = s.gov := rfl
@[simp] theorem setItem_lanes (s : State) (it : DobItem) : (setItem s it).lanes = s.lanes := rfl
@[simp] theorem setItem_weft (s : State) (it : DobItem) : (setItem s it).weft = s.weft := rfl
@[simp] theorem setItem_warp (s : State) (it : DobItem) : (setItem s it).warp = s.warp := rfl
@[simp] theorem setItem_loom (s : State) (it : DobItem) : (setItem s it).loom = s.loom := rfl
@[simp] theorem setItem_fab (s : State) (it : DobItem) : (setItem s it).fab = s.fab := rfl
@[simp] theorem setItem_shu (s : State) (it : DobItem) : (setItem s it).shu = s.shu := rfl
@[simp] theorem setItem_win (s : State) (it : DobItem) : (setItem s it).win = s.win := rfl
@[simp] theorem setItem_eng (s : State) (it : DobItem) : (setItem s it).eng = s.eng := rfl
@[simp] theorem setItem_hed (s : State) (it : DobItem) : (setItem s it).hed = s.hed := rfl
@[simp] theorem setItem_sel (s : State) (it : DobItem) : (setItem s it).sel = s.sel := rfl
@[simp] theorem setItem_twin (s : State) (it : DobItem) : (setItem s it).twin = s.twin := rfl
@[simp] theorem setItem_mgmt (s : State) (it : DobItem) : (setItem s it).mgmt = s.mgmt := rfl
@[simp] theorem setItem_vault (s : State) (it : DobItem) : (setItem s it).vault = s.vault := rfl
@[simp] theorem setItem_obs (s : State) (it : DobItem) : (setItem s it).obs = s.obs := rfl
@[simp] theorem setItem_host (s : State) (it : DobItem) : (setItem s it).host = s.host := rfl
@[simp] theorem setItem_beam (s : State) (it : DobItem) : (setItem s it).beam = s.beam := rfl
@[simp] theorem setItem_tx (s : State) (it : DobItem) : (setItem s it).tx = s.tx := rfl

@[simp] theorem setDeficit_pending (s : State) (d : Nat) (tc : Nat) (n : Nat) : (setDeficit s d tc n).pending = s.pending := rfl
@[simp] theorem setDeficit_now (s : State) (d : Nat) (tc : Nat) (n : Nat) : (setDeficit s d tc n).now = s.now := rfl
@[simp] theorem setDeficit_ft (s : State) (d : Nat) (tc : Nat) (n : Nat) : (setDeficit s d tc n).ft = s.ft := rfl
@[simp] theorem setDeficit_drawn (s : State) (d : Nat) (tc : Nat) (n : Nat) : (setDeficit s d tc n).drawn = s.drawn := rfl
@[simp] theorem setDeficit_freeDraws (s : State) (d : Nat) (tc : Nat) (n : Nat) : (setDeficit s d tc n).freeDraws = s.freeDraws := rfl
@[simp] theorem setDeficit_cfg (s : State) (d : Nat) (tc : Nat) (n : Nat) : (setDeficit s d tc n).cfg = s.cfg := rfl
@[simp] theorem setDeficit_flash (s : State) (d : Nat) (tc : Nat) (n : Nat) : (setDeficit s d tc n).flash = s.flash := rfl
@[simp] theorem setDeficit_module (s : State) (d : Nat) (tc : Nat) (n : Nat) : (setDeficit s d tc n).module = s.module := rfl
@[simp] theorem setDeficit_power (s : State) (d : Nat) (tc : Nat) (n : Nat) : (setDeficit s d tc n).power = s.power := rfl
@[simp] theorem setDeficit_gov (s : State) (d : Nat) (tc : Nat) (n : Nat) : (setDeficit s d tc n).gov = s.gov := rfl
@[simp] theorem setDeficit_lanes (s : State) (d : Nat) (tc : Nat) (n : Nat) : (setDeficit s d tc n).lanes = s.lanes := rfl
@[simp] theorem setDeficit_weft (s : State) (d : Nat) (tc : Nat) (n : Nat) : (setDeficit s d tc n).weft = s.weft := rfl
@[simp] theorem setDeficit_warp (s : State) (d : Nat) (tc : Nat) (n : Nat) : (setDeficit s d tc n).warp = s.warp := rfl
@[simp] theorem setDeficit_fab (s : State) (d : Nat) (tc : Nat) (n : Nat) : (setDeficit s d tc n).fab = s.fab := rfl
@[simp] theorem setDeficit_shu (s : State) (d : Nat) (tc : Nat) (n : Nat) : (setDeficit s d tc n).shu = s.shu := rfl
@[simp] theorem setDeficit_win (s : State) (d : Nat) (tc : Nat) (n : Nat) : (setDeficit s d tc n).win = s.win := rfl
@[simp] theorem setDeficit_eng (s : State) (d : Nat) (tc : Nat) (n : Nat) : (setDeficit s d tc n).eng = s.eng := rfl
@[simp] theorem setDeficit_hed (s : State) (d : Nat) (tc : Nat) (n : Nat) : (setDeficit s d tc n).hed = s.hed := rfl
@[simp] theorem setDeficit_sel (s : State) (d : Nat) (tc : Nat) (n : Nat) : (setDeficit s d tc n).sel = s.sel := rfl
@[simp] theorem setDeficit_twin (s : State) (d : Nat) (tc : Nat) (n : Nat) : (setDeficit s d tc n).twin = s.twin := rfl
@[simp] theorem setDeficit_dob (s : State) (d : Nat) (tc : Nat) (n : Nat) : (setDeficit s d tc n).dob = s.dob := rfl
@[simp] theorem setDeficit_mgmt (s : State) (d : Nat) (tc : Nat) (n : Nat) : (setDeficit s d tc n).mgmt = s.mgmt := rfl
@[simp] theorem setDeficit_vault (s : State) (d : Nat) (tc : Nat) (n : Nat) : (setDeficit s d tc n).vault = s.vault := rfl
@[simp] theorem setDeficit_obs (s : State) (d : Nat) (tc : Nat) (n : Nat) : (setDeficit s d tc n).obs = s.obs := rfl
@[simp] theorem setDeficit_host (s : State) (d : Nat) (tc : Nat) (n : Nat) : (setDeficit s d tc n).host = s.host := rfl
@[simp] theorem setDeficit_beam (s : State) (d : Nat) (tc : Nat) (n : Nat) : (setDeficit s d tc n).beam = s.beam := rfl
@[simp] theorem setDeficit_tx (s : State) (d : Nat) (tc : Nat) (n : Nat) : (setDeficit s d tc n).tx = s.tx := rfl

@[simp] theorem setLane_pending (s : State) (l : Nat) (x : LaneState) : (setLane s l x).pending = s.pending := rfl
@[simp] theorem setLane_now (s : State) (l : Nat) (x : LaneState) : (setLane s l x).now = s.now := rfl
@[simp] theorem setLane_ft (s : State) (l : Nat) (x : LaneState) : (setLane s l x).ft = s.ft := rfl
@[simp] theorem setLane_drawn (s : State) (l : Nat) (x : LaneState) : (setLane s l x).drawn = s.drawn := rfl
@[simp] theorem setLane_freeDraws (s : State) (l : Nat) (x : LaneState) : (setLane s l x).freeDraws = s.freeDraws := rfl
@[simp] theorem setLane_cfg (s : State) (l : Nat) (x : LaneState) : (setLane s l x).cfg = s.cfg := rfl
@[simp] theorem setLane_flash (s : State) (l : Nat) (x : LaneState) : (setLane s l x).flash = s.flash := rfl
@[simp] theorem setLane_module (s : State) (l : Nat) (x : LaneState) : (setLane s l x).module = s.module := rfl
@[simp] theorem setLane_power (s : State) (l : Nat) (x : LaneState) : (setLane s l x).power = s.power := rfl
@[simp] theorem setLane_gov (s : State) (l : Nat) (x : LaneState) : (setLane s l x).gov = s.gov := rfl
@[simp] theorem setLane_weft (s : State) (l : Nat) (x : LaneState) : (setLane s l x).weft = s.weft := rfl
@[simp] theorem setLane_warp (s : State) (l : Nat) (x : LaneState) : (setLane s l x).warp = s.warp := rfl
@[simp] theorem setLane_loom (s : State) (l : Nat) (x : LaneState) : (setLane s l x).loom = s.loom := rfl
@[simp] theorem setLane_fab (s : State) (l : Nat) (x : LaneState) : (setLane s l x).fab = s.fab := rfl
@[simp] theorem setLane_shu (s : State) (l : Nat) (x : LaneState) : (setLane s l x).shu = s.shu := rfl
@[simp] theorem setLane_win (s : State) (l : Nat) (x : LaneState) : (setLane s l x).win = s.win := rfl
@[simp] theorem setLane_eng (s : State) (l : Nat) (x : LaneState) : (setLane s l x).eng = s.eng := rfl
@[simp] theorem setLane_hed (s : State) (l : Nat) (x : LaneState) : (setLane s l x).hed = s.hed := rfl
@[simp] theorem setLane_sel (s : State) (l : Nat) (x : LaneState) : (setLane s l x).sel = s.sel := rfl
@[simp] theorem setLane_twin (s : State) (l : Nat) (x : LaneState) : (setLane s l x).twin = s.twin := rfl
@[simp] theorem setLane_dob (s : State) (l : Nat) (x : LaneState) : (setLane s l x).dob = s.dob := rfl
@[simp] theorem setLane_mgmt (s : State) (l : Nat) (x : LaneState) : (setLane s l x).mgmt = s.mgmt := rfl
@[simp] theorem setLane_vault (s : State) (l : Nat) (x : LaneState) : (setLane s l x).vault = s.vault := rfl
@[simp] theorem setLane_obs (s : State) (l : Nat) (x : LaneState) : (setLane s l x).obs = s.obs := rfl
@[simp] theorem setLane_host (s : State) (l : Nat) (x : LaneState) : (setLane s l x).host = s.host := rfl
@[simp] theorem setLane_beam (s : State) (l : Nat) (x : LaneState) : (setLane s l x).beam = s.beam := rfl
@[simp] theorem setLane_tx (s : State) (l : Nat) (x : LaneState) : (setLane s l x).tx = s.tx := rfl

@[simp] theorem setWeft_pending (s : State) (p : Nat) (x : WeftPort) : (setWeft s p x).pending = s.pending := rfl
@[simp] theorem setWeft_now (s : State) (p : Nat) (x : WeftPort) : (setWeft s p x).now = s.now := rfl
@[simp] theorem setWeft_ft (s : State) (p : Nat) (x : WeftPort) : (setWeft s p x).ft = s.ft := rfl
@[simp] theorem setWeft_drawn (s : State) (p : Nat) (x : WeftPort) : (setWeft s p x).drawn = s.drawn := rfl
@[simp] theorem setWeft_freeDraws (s : State) (p : Nat) (x : WeftPort) : (setWeft s p x).freeDraws = s.freeDraws := rfl
@[simp] theorem setWeft_cfg (s : State) (p : Nat) (x : WeftPort) : (setWeft s p x).cfg = s.cfg := rfl
@[simp] theorem setWeft_flash (s : State) (p : Nat) (x : WeftPort) : (setWeft s p x).flash = s.flash := rfl
@[simp] theorem setWeft_module (s : State) (p : Nat) (x : WeftPort) : (setWeft s p x).module = s.module := rfl
@[simp] theorem setWeft_power (s : State) (p : Nat) (x : WeftPort) : (setWeft s p x).power = s.power := rfl
@[simp] theorem setWeft_gov (s : State) (p : Nat) (x : WeftPort) : (setWeft s p x).gov = s.gov := rfl
@[simp] theorem setWeft_lanes (s : State) (p : Nat) (x : WeftPort) : (setWeft s p x).lanes = s.lanes := rfl
@[simp] theorem setWeft_warp (s : State) (p : Nat) (x : WeftPort) : (setWeft s p x).warp = s.warp := rfl
@[simp] theorem setWeft_loom (s : State) (p : Nat) (x : WeftPort) : (setWeft s p x).loom = s.loom := rfl
@[simp] theorem setWeft_fab (s : State) (p : Nat) (x : WeftPort) : (setWeft s p x).fab = s.fab := rfl
@[simp] theorem setWeft_shu (s : State) (p : Nat) (x : WeftPort) : (setWeft s p x).shu = s.shu := rfl
@[simp] theorem setWeft_win (s : State) (p : Nat) (x : WeftPort) : (setWeft s p x).win = s.win := rfl
@[simp] theorem setWeft_eng (s : State) (p : Nat) (x : WeftPort) : (setWeft s p x).eng = s.eng := rfl
@[simp] theorem setWeft_hed (s : State) (p : Nat) (x : WeftPort) : (setWeft s p x).hed = s.hed := rfl
@[simp] theorem setWeft_sel (s : State) (p : Nat) (x : WeftPort) : (setWeft s p x).sel = s.sel := rfl
@[simp] theorem setWeft_twin (s : State) (p : Nat) (x : WeftPort) : (setWeft s p x).twin = s.twin := rfl
@[simp] theorem setWeft_dob (s : State) (p : Nat) (x : WeftPort) : (setWeft s p x).dob = s.dob := rfl
@[simp] theorem setWeft_mgmt (s : State) (p : Nat) (x : WeftPort) : (setWeft s p x).mgmt = s.mgmt := rfl
@[simp] theorem setWeft_vault (s : State) (p : Nat) (x : WeftPort) : (setWeft s p x).vault = s.vault := rfl
@[simp] theorem setWeft_obs (s : State) (p : Nat) (x : WeftPort) : (setWeft s p x).obs = s.obs := rfl
@[simp] theorem setWeft_host (s : State) (p : Nat) (x : WeftPort) : (setWeft s p x).host = s.host := rfl
@[simp] theorem setWeft_beam (s : State) (p : Nat) (x : WeftPort) : (setWeft s p x).beam = s.beam := rfl
@[simp] theorem setWeft_tx (s : State) (p : Nat) (x : WeftPort) : (setWeft s p x).tx = s.tx := rfl

@[simp] theorem setChain_pending (s : State) (c : Nat) (x : Chain) : (setChain s c x).pending = s.pending := rfl
@[simp] theorem setChain_now (s : State) (c : Nat) (x : Chain) : (setChain s c x).now = s.now := rfl
@[simp] theorem setChain_ft (s : State) (c : Nat) (x : Chain) : (setChain s c x).ft = s.ft := rfl
@[simp] theorem setChain_drawn (s : State) (c : Nat) (x : Chain) : (setChain s c x).drawn = s.drawn := rfl
@[simp] theorem setChain_freeDraws (s : State) (c : Nat) (x : Chain) : (setChain s c x).freeDraws = s.freeDraws := rfl
@[simp] theorem setChain_cfg (s : State) (c : Nat) (x : Chain) : (setChain s c x).cfg = s.cfg := rfl
@[simp] theorem setChain_flash (s : State) (c : Nat) (x : Chain) : (setChain s c x).flash = s.flash := rfl
@[simp] theorem setChain_module (s : State) (c : Nat) (x : Chain) : (setChain s c x).module = s.module := rfl
@[simp] theorem setChain_power (s : State) (c : Nat) (x : Chain) : (setChain s c x).power = s.power := rfl
@[simp] theorem setChain_gov (s : State) (c : Nat) (x : Chain) : (setChain s c x).gov = s.gov := rfl
@[simp] theorem setChain_lanes (s : State) (c : Nat) (x : Chain) : (setChain s c x).lanes = s.lanes := rfl
@[simp] theorem setChain_weft (s : State) (c : Nat) (x : Chain) : (setChain s c x).weft = s.weft := rfl
@[simp] theorem setChain_warp (s : State) (c : Nat) (x : Chain) : (setChain s c x).warp = s.warp := rfl
@[simp] theorem setChain_fab (s : State) (c : Nat) (x : Chain) : (setChain s c x).fab = s.fab := rfl
@[simp] theorem setChain_shu (s : State) (c : Nat) (x : Chain) : (setChain s c x).shu = s.shu := rfl
@[simp] theorem setChain_win (s : State) (c : Nat) (x : Chain) : (setChain s c x).win = s.win := rfl
@[simp] theorem setChain_eng (s : State) (c : Nat) (x : Chain) : (setChain s c x).eng = s.eng := rfl
@[simp] theorem setChain_hed (s : State) (c : Nat) (x : Chain) : (setChain s c x).hed = s.hed := rfl
@[simp] theorem setChain_sel (s : State) (c : Nat) (x : Chain) : (setChain s c x).sel = s.sel := rfl
@[simp] theorem setChain_twin (s : State) (c : Nat) (x : Chain) : (setChain s c x).twin = s.twin := rfl
@[simp] theorem setChain_dob (s : State) (c : Nat) (x : Chain) : (setChain s c x).dob = s.dob := rfl
@[simp] theorem setChain_mgmt (s : State) (c : Nat) (x : Chain) : (setChain s c x).mgmt = s.mgmt := rfl
@[simp] theorem setChain_vault (s : State) (c : Nat) (x : Chain) : (setChain s c x).vault = s.vault := rfl
@[simp] theorem setChain_obs (s : State) (c : Nat) (x : Chain) : (setChain s c x).obs = s.obs := rfl
@[simp] theorem setChain_host (s : State) (c : Nat) (x : Chain) : (setChain s c x).host = s.host := rfl
@[simp] theorem setChain_beam (s : State) (c : Nat) (x : Chain) : (setChain s c x).beam = s.beam := rfl
@[simp] theorem setChain_tx (s : State) (c : Nat) (x : Chain) : (setChain s c x).tx = s.tx := rfl

@[simp] theorem setQueue_pending (s : State) (d : Nat) (q : List LoomItem) : (setQueue s d q).pending = s.pending := rfl
@[simp] theorem setQueue_now (s : State) (d : Nat) (q : List LoomItem) : (setQueue s d q).now = s.now := rfl
@[simp] theorem setQueue_ft (s : State) (d : Nat) (q : List LoomItem) : (setQueue s d q).ft = s.ft := rfl
@[simp] theorem setQueue_drawn (s : State) (d : Nat) (q : List LoomItem) : (setQueue s d q).drawn = s.drawn := rfl
@[simp] theorem setQueue_freeDraws (s : State) (d : Nat) (q : List LoomItem) : (setQueue s d q).freeDraws = s.freeDraws := rfl
@[simp] theorem setQueue_cfg (s : State) (d : Nat) (q : List LoomItem) : (setQueue s d q).cfg = s.cfg := rfl
@[simp] theorem setQueue_flash (s : State) (d : Nat) (q : List LoomItem) : (setQueue s d q).flash = s.flash := rfl
@[simp] theorem setQueue_module (s : State) (d : Nat) (q : List LoomItem) : (setQueue s d q).module = s.module := rfl
@[simp] theorem setQueue_power (s : State) (d : Nat) (q : List LoomItem) : (setQueue s d q).power = s.power := rfl
@[simp] theorem setQueue_gov (s : State) (d : Nat) (q : List LoomItem) : (setQueue s d q).gov = s.gov := rfl
@[simp] theorem setQueue_lanes (s : State) (d : Nat) (q : List LoomItem) : (setQueue s d q).lanes = s.lanes := rfl
@[simp] theorem setQueue_weft (s : State) (d : Nat) (q : List LoomItem) : (setQueue s d q).weft = s.weft := rfl
@[simp] theorem setQueue_warp (s : State) (d : Nat) (q : List LoomItem) : (setQueue s d q).warp = s.warp := rfl
@[simp] theorem setQueue_fab (s : State) (d : Nat) (q : List LoomItem) : (setQueue s d q).fab = s.fab := rfl
@[simp] theorem setQueue_shu (s : State) (d : Nat) (q : List LoomItem) : (setQueue s d q).shu = s.shu := rfl
@[simp] theorem setQueue_win (s : State) (d : Nat) (q : List LoomItem) : (setQueue s d q).win = s.win := rfl
@[simp] theorem setQueue_eng (s : State) (d : Nat) (q : List LoomItem) : (setQueue s d q).eng = s.eng := rfl
@[simp] theorem setQueue_hed (s : State) (d : Nat) (q : List LoomItem) : (setQueue s d q).hed = s.hed := rfl
@[simp] theorem setQueue_sel (s : State) (d : Nat) (q : List LoomItem) : (setQueue s d q).sel = s.sel := rfl
@[simp] theorem setQueue_twin (s : State) (d : Nat) (q : List LoomItem) : (setQueue s d q).twin = s.twin := rfl
@[simp] theorem setQueue_dob (s : State) (d : Nat) (q : List LoomItem) : (setQueue s d q).dob = s.dob := rfl
@[simp] theorem setQueue_mgmt (s : State) (d : Nat) (q : List LoomItem) : (setQueue s d q).mgmt = s.mgmt := rfl
@[simp] theorem setQueue_vault (s : State) (d : Nat) (q : List LoomItem) : (setQueue s d q).vault = s.vault := rfl
@[simp] theorem setQueue_obs (s : State) (d : Nat) (q : List LoomItem) : (setQueue s d q).obs = s.obs := rfl
@[simp] theorem setQueue_host (s : State) (d : Nat) (q : List LoomItem) : (setQueue s d q).host = s.host := rfl
@[simp] theorem setQueue_beam (s : State) (d : Nat) (q : List LoomItem) : (setQueue s d q).beam = s.beam := rfl
@[simp] theorem setQueue_tx (s : State) (d : Nat) (q : List LoomItem) : (setQueue s d q).tx = s.tx := rfl

@[simp] theorem setConn_pending (s : State) (c : Nat) (x : Conn) : (setConn s c x).pending = s.pending := rfl
@[simp] theorem setConn_now (s : State) (c : Nat) (x : Conn) : (setConn s c x).now = s.now := rfl
@[simp] theorem setConn_ft (s : State) (c : Nat) (x : Conn) : (setConn s c x).ft = s.ft := rfl
@[simp] theorem setConn_drawn (s : State) (c : Nat) (x : Conn) : (setConn s c x).drawn = s.drawn := rfl
@[simp] theorem setConn_freeDraws (s : State) (c : Nat) (x : Conn) : (setConn s c x).freeDraws = s.freeDraws := rfl
@[simp] theorem setConn_cfg (s : State) (c : Nat) (x : Conn) : (setConn s c x).cfg = s.cfg := rfl
@[simp] theorem setConn_flash (s : State) (c : Nat) (x : Conn) : (setConn s c x).flash = s.flash := rfl
@[simp] theorem setConn_module (s : State) (c : Nat) (x : Conn) : (setConn s c x).module = s.module := rfl
@[simp] theorem setConn_power (s : State) (c : Nat) (x : Conn) : (setConn s c x).power = s.power := rfl
@[simp] theorem setConn_gov (s : State) (c : Nat) (x : Conn) : (setConn s c x).gov = s.gov := rfl
@[simp] theorem setConn_lanes (s : State) (c : Nat) (x : Conn) : (setConn s c x).lanes = s.lanes := rfl
@[simp] theorem setConn_weft (s : State) (c : Nat) (x : Conn) : (setConn s c x).weft = s.weft := rfl
@[simp] theorem setConn_warp (s : State) (c : Nat) (x : Conn) : (setConn s c x).warp = s.warp := rfl
@[simp] theorem setConn_loom (s : State) (c : Nat) (x : Conn) : (setConn s c x).loom = s.loom := rfl
@[simp] theorem setConn_fab (s : State) (c : Nat) (x : Conn) : (setConn s c x).fab = s.fab := rfl
@[simp] theorem setConn_win (s : State) (c : Nat) (x : Conn) : (setConn s c x).win = s.win := rfl
@[simp] theorem setConn_eng (s : State) (c : Nat) (x : Conn) : (setConn s c x).eng = s.eng := rfl
@[simp] theorem setConn_hed (s : State) (c : Nat) (x : Conn) : (setConn s c x).hed = s.hed := rfl
@[simp] theorem setConn_sel (s : State) (c : Nat) (x : Conn) : (setConn s c x).sel = s.sel := rfl
@[simp] theorem setConn_twin (s : State) (c : Nat) (x : Conn) : (setConn s c x).twin = s.twin := rfl
@[simp] theorem setConn_dob (s : State) (c : Nat) (x : Conn) : (setConn s c x).dob = s.dob := rfl
@[simp] theorem setConn_mgmt (s : State) (c : Nat) (x : Conn) : (setConn s c x).mgmt = s.mgmt := rfl
@[simp] theorem setConn_vault (s : State) (c : Nat) (x : Conn) : (setConn s c x).vault = s.vault := rfl
@[simp] theorem setConn_obs (s : State) (c : Nat) (x : Conn) : (setConn s c x).obs = s.obs := rfl
@[simp] theorem setConn_host (s : State) (c : Nat) (x : Conn) : (setConn s c x).host = s.host := rfl
@[simp] theorem setConn_beam (s : State) (c : Nat) (x : Conn) : (setConn s c x).beam = s.beam := rfl
@[simp] theorem setConn_tx (s : State) (c : Nat) (x : Conn) : (setConn s c x).tx = s.tx := rfl

@[simp] theorem setMgmt_pending (s : State) (m : MgmtBlk) : (setMgmt s m).pending = s.pending := rfl
@[simp] theorem setMgmt_now (s : State) (m : MgmtBlk) : (setMgmt s m).now = s.now := rfl
@[simp] theorem setMgmt_ft (s : State) (m : MgmtBlk) : (setMgmt s m).ft = s.ft := rfl
@[simp] theorem setMgmt_drawn (s : State) (m : MgmtBlk) : (setMgmt s m).drawn = s.drawn := rfl
@[simp] theorem setMgmt_freeDraws (s : State) (m : MgmtBlk) : (setMgmt s m).freeDraws = s.freeDraws := rfl
@[simp] theorem setMgmt_cfg (s : State) (m : MgmtBlk) : (setMgmt s m).cfg = s.cfg := rfl
@[simp] theorem setMgmt_flash (s : State) (m : MgmtBlk) : (setMgmt s m).flash = s.flash := rfl
@[simp] theorem setMgmt_module (s : State) (m : MgmtBlk) : (setMgmt s m).module = s.module := rfl
@[simp] theorem setMgmt_power (s : State) (m : MgmtBlk) : (setMgmt s m).power = s.power := rfl
@[simp] theorem setMgmt_gov (s : State) (m : MgmtBlk) : (setMgmt s m).gov = s.gov := rfl
@[simp] theorem setMgmt_lanes (s : State) (m : MgmtBlk) : (setMgmt s m).lanes = s.lanes := rfl
@[simp] theorem setMgmt_weft (s : State) (m : MgmtBlk) : (setMgmt s m).weft = s.weft := rfl
@[simp] theorem setMgmt_warp (s : State) (m : MgmtBlk) : (setMgmt s m).warp = s.warp := rfl
@[simp] theorem setMgmt_loom (s : State) (m : MgmtBlk) : (setMgmt s m).loom = s.loom := rfl
@[simp] theorem setMgmt_fab (s : State) (m : MgmtBlk) : (setMgmt s m).fab = s.fab := rfl
@[simp] theorem setMgmt_shu (s : State) (m : MgmtBlk) : (setMgmt s m).shu = s.shu := rfl
@[simp] theorem setMgmt_win (s : State) (m : MgmtBlk) : (setMgmt s m).win = s.win := rfl
@[simp] theorem setMgmt_eng (s : State) (m : MgmtBlk) : (setMgmt s m).eng = s.eng := rfl
@[simp] theorem setMgmt_hed (s : State) (m : MgmtBlk) : (setMgmt s m).hed = s.hed := rfl
@[simp] theorem setMgmt_sel (s : State) (m : MgmtBlk) : (setMgmt s m).sel = s.sel := rfl
@[simp] theorem setMgmt_twin (s : State) (m : MgmtBlk) : (setMgmt s m).twin = s.twin := rfl
@[simp] theorem setMgmt_dob (s : State) (m : MgmtBlk) : (setMgmt s m).dob = s.dob := rfl
@[simp] theorem setMgmt_vault (s : State) (m : MgmtBlk) : (setMgmt s m).vault = s.vault := rfl
@[simp] theorem setMgmt_obs (s : State) (m : MgmtBlk) : (setMgmt s m).obs = s.obs := rfl
@[simp] theorem setMgmt_host (s : State) (m : MgmtBlk) : (setMgmt s m).host = s.host := rfl
@[simp] theorem setMgmt_beam (s : State) (m : MgmtBlk) : (setMgmt s m).beam = s.beam := rfl
@[simp] theorem setMgmt_tx (s : State) (m : MgmtBlk) : (setMgmt s m).tx = s.tx := rfl

@[simp] theorem setMailbox_pending (s : State) (v : Nat) (x : Mailbox) : (setMailbox s v x).pending = s.pending := rfl
@[simp] theorem setMailbox_now (s : State) (v : Nat) (x : Mailbox) : (setMailbox s v x).now = s.now := rfl
@[simp] theorem setMailbox_ft (s : State) (v : Nat) (x : Mailbox) : (setMailbox s v x).ft = s.ft := rfl
@[simp] theorem setMailbox_drawn (s : State) (v : Nat) (x : Mailbox) : (setMailbox s v x).drawn = s.drawn := rfl
@[simp] theorem setMailbox_freeDraws (s : State) (v : Nat) (x : Mailbox) : (setMailbox s v x).freeDraws = s.freeDraws := rfl
@[simp] theorem setMailbox_cfg (s : State) (v : Nat) (x : Mailbox) : (setMailbox s v x).cfg = s.cfg := rfl
@[simp] theorem setMailbox_flash (s : State) (v : Nat) (x : Mailbox) : (setMailbox s v x).flash = s.flash := rfl
@[simp] theorem setMailbox_module (s : State) (v : Nat) (x : Mailbox) : (setMailbox s v x).module = s.module := rfl
@[simp] theorem setMailbox_power (s : State) (v : Nat) (x : Mailbox) : (setMailbox s v x).power = s.power := rfl
@[simp] theorem setMailbox_gov (s : State) (v : Nat) (x : Mailbox) : (setMailbox s v x).gov = s.gov := rfl
@[simp] theorem setMailbox_lanes (s : State) (v : Nat) (x : Mailbox) : (setMailbox s v x).lanes = s.lanes := rfl
@[simp] theorem setMailbox_weft (s : State) (v : Nat) (x : Mailbox) : (setMailbox s v x).weft = s.weft := rfl
@[simp] theorem setMailbox_warp (s : State) (v : Nat) (x : Mailbox) : (setMailbox s v x).warp = s.warp := rfl
@[simp] theorem setMailbox_loom (s : State) (v : Nat) (x : Mailbox) : (setMailbox s v x).loom = s.loom := rfl
@[simp] theorem setMailbox_fab (s : State) (v : Nat) (x : Mailbox) : (setMailbox s v x).fab = s.fab := rfl
@[simp] theorem setMailbox_shu (s : State) (v : Nat) (x : Mailbox) : (setMailbox s v x).shu = s.shu := rfl
@[simp] theorem setMailbox_win (s : State) (v : Nat) (x : Mailbox) : (setMailbox s v x).win = s.win := rfl
@[simp] theorem setMailbox_eng (s : State) (v : Nat) (x : Mailbox) : (setMailbox s v x).eng = s.eng := rfl
@[simp] theorem setMailbox_hed (s : State) (v : Nat) (x : Mailbox) : (setMailbox s v x).hed = s.hed := rfl
@[simp] theorem setMailbox_sel (s : State) (v : Nat) (x : Mailbox) : (setMailbox s v x).sel = s.sel := rfl
@[simp] theorem setMailbox_twin (s : State) (v : Nat) (x : Mailbox) : (setMailbox s v x).twin = s.twin := rfl
@[simp] theorem setMailbox_dob (s : State) (v : Nat) (x : Mailbox) : (setMailbox s v x).dob = s.dob := rfl
@[simp] theorem setMailbox_vault (s : State) (v : Nat) (x : Mailbox) : (setMailbox s v x).vault = s.vault := rfl
@[simp] theorem setMailbox_obs (s : State) (v : Nat) (x : Mailbox) : (setMailbox s v x).obs = s.obs := rfl
@[simp] theorem setMailbox_host (s : State) (v : Nat) (x : Mailbox) : (setMailbox s v x).host = s.host := rfl
@[simp] theorem setMailbox_beam (s : State) (v : Nat) (x : Mailbox) : (setMailbox s v x).beam = s.beam := rfl
@[simp] theorem setMailbox_tx (s : State) (v : Nat) (x : Mailbox) : (setMailbox s v x).tx = s.tx := rfl

@[simp] theorem setSession_pending (s : State) (x : Session) : (setSession s x).pending = s.pending := rfl
@[simp] theorem setSession_now (s : State) (x : Session) : (setSession s x).now = s.now := rfl
@[simp] theorem setSession_ft (s : State) (x : Session) : (setSession s x).ft = s.ft := rfl
@[simp] theorem setSession_drawn (s : State) (x : Session) : (setSession s x).drawn = s.drawn := rfl
@[simp] theorem setSession_freeDraws (s : State) (x : Session) : (setSession s x).freeDraws = s.freeDraws := rfl
@[simp] theorem setSession_cfg (s : State) (x : Session) : (setSession s x).cfg = s.cfg := rfl
@[simp] theorem setSession_flash (s : State) (x : Session) : (setSession s x).flash = s.flash := rfl
@[simp] theorem setSession_module (s : State) (x : Session) : (setSession s x).module = s.module := rfl
@[simp] theorem setSession_power (s : State) (x : Session) : (setSession s x).power = s.power := rfl
@[simp] theorem setSession_gov (s : State) (x : Session) : (setSession s x).gov = s.gov := rfl
@[simp] theorem setSession_lanes (s : State) (x : Session) : (setSession s x).lanes = s.lanes := rfl
@[simp] theorem setSession_weft (s : State) (x : Session) : (setSession s x).weft = s.weft := rfl
@[simp] theorem setSession_warp (s : State) (x : Session) : (setSession s x).warp = s.warp := rfl
@[simp] theorem setSession_loom (s : State) (x : Session) : (setSession s x).loom = s.loom := rfl
@[simp] theorem setSession_fab (s : State) (x : Session) : (setSession s x).fab = s.fab := rfl
@[simp] theorem setSession_shu (s : State) (x : Session) : (setSession s x).shu = s.shu := rfl
@[simp] theorem setSession_win (s : State) (x : Session) : (setSession s x).win = s.win := rfl
@[simp] theorem setSession_eng (s : State) (x : Session) : (setSession s x).eng = s.eng := rfl
@[simp] theorem setSession_hed (s : State) (x : Session) : (setSession s x).hed = s.hed := rfl
@[simp] theorem setSession_sel (s : State) (x : Session) : (setSession s x).sel = s.sel := rfl
@[simp] theorem setSession_twin (s : State) (x : Session) : (setSession s x).twin = s.twin := rfl
@[simp] theorem setSession_dob (s : State) (x : Session) : (setSession s x).dob = s.dob := rfl
@[simp] theorem setSession_vault (s : State) (x : Session) : (setSession s x).vault = s.vault := rfl
@[simp] theorem setSession_obs (s : State) (x : Session) : (setSession s x).obs = s.obs := rfl
@[simp] theorem setSession_host (s : State) (x : Session) : (setSession s x).host = s.host := rfl
@[simp] theorem setSession_beam (s : State) (x : Session) : (setSession s x).beam = s.beam := rfl
@[simp] theorem setSession_tx (s : State) (x : Session) : (setSession s x).tx = s.tx := rfl

@[simp] theorem setTally_pending (s : State) (y : Tally) : (setTally s y).pending = s.pending := rfl
@[simp] theorem setTally_now (s : State) (y : Tally) : (setTally s y).now = s.now := rfl
@[simp] theorem setTally_ft (s : State) (y : Tally) : (setTally s y).ft = s.ft := rfl
@[simp] theorem setTally_drawn (s : State) (y : Tally) : (setTally s y).drawn = s.drawn := rfl
@[simp] theorem setTally_freeDraws (s : State) (y : Tally) : (setTally s y).freeDraws = s.freeDraws := rfl
@[simp] theorem setTally_cfg (s : State) (y : Tally) : (setTally s y).cfg = s.cfg := rfl
@[simp] theorem setTally_flash (s : State) (y : Tally) : (setTally s y).flash = s.flash := rfl
@[simp] theorem setTally_module (s : State) (y : Tally) : (setTally s y).module = s.module := rfl
@[simp] theorem setTally_power (s : State) (y : Tally) : (setTally s y).power = s.power := rfl
@[simp] theorem setTally_gov (s : State) (y : Tally) : (setTally s y).gov = s.gov := rfl
@[simp] theorem setTally_lanes (s : State) (y : Tally) : (setTally s y).lanes = s.lanes := rfl
@[simp] theorem setTally_weft (s : State) (y : Tally) : (setTally s y).weft = s.weft := rfl
@[simp] theorem setTally_warp (s : State) (y : Tally) : (setTally s y).warp = s.warp := rfl
@[simp] theorem setTally_loom (s : State) (y : Tally) : (setTally s y).loom = s.loom := rfl
@[simp] theorem setTally_fab (s : State) (y : Tally) : (setTally s y).fab = s.fab := rfl
@[simp] theorem setTally_shu (s : State) (y : Tally) : (setTally s y).shu = s.shu := rfl
@[simp] theorem setTally_win (s : State) (y : Tally) : (setTally s y).win = s.win := rfl
@[simp] theorem setTally_eng (s : State) (y : Tally) : (setTally s y).eng = s.eng := rfl
@[simp] theorem setTally_hed (s : State) (y : Tally) : (setTally s y).hed = s.hed := rfl
@[simp] theorem setTally_sel (s : State) (y : Tally) : (setTally s y).sel = s.sel := rfl
@[simp] theorem setTally_twin (s : State) (y : Tally) : (setTally s y).twin = s.twin := rfl
@[simp] theorem setTally_dob (s : State) (y : Tally) : (setTally s y).dob = s.dob := rfl
@[simp] theorem setTally_mgmt (s : State) (y : Tally) : (setTally s y).mgmt = s.mgmt := rfl
@[simp] theorem setTally_vault (s : State) (y : Tally) : (setTally s y).vault = s.vault := rfl
@[simp] theorem setTally_host (s : State) (y : Tally) : (setTally s y).host = s.host := rfl
@[simp] theorem setTally_beam (s : State) (y : Tally) : (setTally s y).beam = s.beam := rfl
@[simp] theorem setTally_tx (s : State) (y : Tally) : (setTally s y).tx = s.tx := rfl

@[simp] theorem setBolt_pending (s : State) (b : Bolt) : (setBolt s b).pending = s.pending := rfl
@[simp] theorem setBolt_now (s : State) (b : Bolt) : (setBolt s b).now = s.now := rfl
@[simp] theorem setBolt_ft (s : State) (b : Bolt) : (setBolt s b).ft = s.ft := rfl
@[simp] theorem setBolt_drawn (s : State) (b : Bolt) : (setBolt s b).drawn = s.drawn := rfl
@[simp] theorem setBolt_freeDraws (s : State) (b : Bolt) : (setBolt s b).freeDraws = s.freeDraws := rfl
@[simp] theorem setBolt_cfg (s : State) (b : Bolt) : (setBolt s b).cfg = s.cfg := rfl
@[simp] theorem setBolt_flash (s : State) (b : Bolt) : (setBolt s b).flash = s.flash := rfl
@[simp] theorem setBolt_module (s : State) (b : Bolt) : (setBolt s b).module = s.module := rfl
@[simp] theorem setBolt_power (s : State) (b : Bolt) : (setBolt s b).power = s.power := rfl
@[simp] theorem setBolt_gov (s : State) (b : Bolt) : (setBolt s b).gov = s.gov := rfl
@[simp] theorem setBolt_lanes (s : State) (b : Bolt) : (setBolt s b).lanes = s.lanes := rfl
@[simp] theorem setBolt_weft (s : State) (b : Bolt) : (setBolt s b).weft = s.weft := rfl
@[simp] theorem setBolt_warp (s : State) (b : Bolt) : (setBolt s b).warp = s.warp := rfl
@[simp] theorem setBolt_loom (s : State) (b : Bolt) : (setBolt s b).loom = s.loom := rfl
@[simp] theorem setBolt_fab (s : State) (b : Bolt) : (setBolt s b).fab = s.fab := rfl
@[simp] theorem setBolt_shu (s : State) (b : Bolt) : (setBolt s b).shu = s.shu := rfl
@[simp] theorem setBolt_win (s : State) (b : Bolt) : (setBolt s b).win = s.win := rfl
@[simp] theorem setBolt_eng (s : State) (b : Bolt) : (setBolt s b).eng = s.eng := rfl
@[simp] theorem setBolt_hed (s : State) (b : Bolt) : (setBolt s b).hed = s.hed := rfl
@[simp] theorem setBolt_sel (s : State) (b : Bolt) : (setBolt s b).sel = s.sel := rfl
@[simp] theorem setBolt_twin (s : State) (b : Bolt) : (setBolt s b).twin = s.twin := rfl
@[simp] theorem setBolt_dob (s : State) (b : Bolt) : (setBolt s b).dob = s.dob := rfl
@[simp] theorem setBolt_mgmt (s : State) (b : Bolt) : (setBolt s b).mgmt = s.mgmt := rfl
@[simp] theorem setBolt_vault (s : State) (b : Bolt) : (setBolt s b).vault = s.vault := rfl
@[simp] theorem setBolt_host (s : State) (b : Bolt) : (setBolt s b).host = s.host := rfl
@[simp] theorem setBolt_beam (s : State) (b : Bolt) : (setBolt s b).beam = s.beam := rfl
@[simp] theorem setBolt_tx (s : State) (b : Bolt) : (setBolt s b).tx = s.tx := rfl

@[simp] theorem setInst_pending (s : State) (i : Nat) (x : InstState) : (setInst s i x).pending = s.pending := rfl
@[simp] theorem setInst_now (s : State) (i : Nat) (x : InstState) : (setInst s i x).now = s.now := rfl
@[simp] theorem setInst_ft (s : State) (i : Nat) (x : InstState) : (setInst s i x).ft = s.ft := rfl
@[simp] theorem setInst_drawn (s : State) (i : Nat) (x : InstState) : (setInst s i x).drawn = s.drawn := rfl
@[simp] theorem setInst_freeDraws (s : State) (i : Nat) (x : InstState) : (setInst s i x).freeDraws = s.freeDraws := rfl
@[simp] theorem setInst_cfg (s : State) (i : Nat) (x : InstState) : (setInst s i x).cfg = s.cfg := rfl
@[simp] theorem setInst_flash (s : State) (i : Nat) (x : InstState) : (setInst s i x).flash = s.flash := rfl
@[simp] theorem setInst_module (s : State) (i : Nat) (x : InstState) : (setInst s i x).module = s.module := rfl
@[simp] theorem setInst_power (s : State) (i : Nat) (x : InstState) : (setInst s i x).power = s.power := rfl
@[simp] theorem setInst_gov (s : State) (i : Nat) (x : InstState) : (setInst s i x).gov = s.gov := rfl
@[simp] theorem setInst_lanes (s : State) (i : Nat) (x : InstState) : (setInst s i x).lanes = s.lanes := rfl
@[simp] theorem setInst_weft (s : State) (i : Nat) (x : InstState) : (setInst s i x).weft = s.weft := rfl
@[simp] theorem setInst_warp (s : State) (i : Nat) (x : InstState) : (setInst s i x).warp = s.warp := rfl
@[simp] theorem setInst_loom (s : State) (i : Nat) (x : InstState) : (setInst s i x).loom = s.loom := rfl
@[simp] theorem setInst_fab (s : State) (i : Nat) (x : InstState) : (setInst s i x).fab = s.fab := rfl
@[simp] theorem setInst_shu (s : State) (i : Nat) (x : InstState) : (setInst s i x).shu = s.shu := rfl
@[simp] theorem setInst_win (s : State) (i : Nat) (x : InstState) : (setInst s i x).win = s.win := rfl
@[simp] theorem setInst_hed (s : State) (i : Nat) (x : InstState) : (setInst s i x).hed = s.hed := rfl
@[simp] theorem setInst_sel (s : State) (i : Nat) (x : InstState) : (setInst s i x).sel = s.sel := rfl
@[simp] theorem setInst_twin (s : State) (i : Nat) (x : InstState) : (setInst s i x).twin = s.twin := rfl
@[simp] theorem setInst_dob (s : State) (i : Nat) (x : InstState) : (setInst s i x).dob = s.dob := rfl
@[simp] theorem setInst_mgmt (s : State) (i : Nat) (x : InstState) : (setInst s i x).mgmt = s.mgmt := rfl
@[simp] theorem setInst_vault (s : State) (i : Nat) (x : InstState) : (setInst s i x).vault = s.vault := rfl
@[simp] theorem setInst_obs (s : State) (i : Nat) (x : InstState) : (setInst s i x).obs = s.obs := rfl
@[simp] theorem setInst_host (s : State) (i : Nat) (x : InstState) : (setInst s i x).host = s.host := rfl
@[simp] theorem setInst_beam (s : State) (i : Nat) (x : InstState) : (setInst s i x).beam = s.beam := rfl
@[simp] theorem setInst_tx (s : State) (i : Nat) (x : InstState) : (setInst s i x).tx = s.tx := rfl

@[simp] theorem setWarp_pending (s : State) (p : Nat) (x : WarpPort) : (setWarp s p x).pending = s.pending := rfl
@[simp] theorem setWarp_now (s : State) (p : Nat) (x : WarpPort) : (setWarp s p x).now = s.now := rfl
@[simp] theorem setWarp_ft (s : State) (p : Nat) (x : WarpPort) : (setWarp s p x).ft = s.ft := rfl
@[simp] theorem setWarp_drawn (s : State) (p : Nat) (x : WarpPort) : (setWarp s p x).drawn = s.drawn := rfl
@[simp] theorem setWarp_freeDraws (s : State) (p : Nat) (x : WarpPort) : (setWarp s p x).freeDraws = s.freeDraws := rfl
@[simp] theorem setWarp_cfg (s : State) (p : Nat) (x : WarpPort) : (setWarp s p x).cfg = s.cfg := rfl
@[simp] theorem setWarp_flash (s : State) (p : Nat) (x : WarpPort) : (setWarp s p x).flash = s.flash := rfl
@[simp] theorem setWarp_module (s : State) (p : Nat) (x : WarpPort) : (setWarp s p x).module = s.module := rfl
@[simp] theorem setWarp_power (s : State) (p : Nat) (x : WarpPort) : (setWarp s p x).power = s.power := rfl
@[simp] theorem setWarp_gov (s : State) (p : Nat) (x : WarpPort) : (setWarp s p x).gov = s.gov := rfl
@[simp] theorem setWarp_lanes (s : State) (p : Nat) (x : WarpPort) : (setWarp s p x).lanes = s.lanes := rfl
@[simp] theorem setWarp_weft (s : State) (p : Nat) (x : WarpPort) : (setWarp s p x).weft = s.weft := rfl
@[simp] theorem setWarp_loom (s : State) (p : Nat) (x : WarpPort) : (setWarp s p x).loom = s.loom := rfl
@[simp] theorem setWarp_fab (s : State) (p : Nat) (x : WarpPort) : (setWarp s p x).fab = s.fab := rfl
@[simp] theorem setWarp_shu (s : State) (p : Nat) (x : WarpPort) : (setWarp s p x).shu = s.shu := rfl
@[simp] theorem setWarp_win (s : State) (p : Nat) (x : WarpPort) : (setWarp s p x).win = s.win := rfl
@[simp] theorem setWarp_eng (s : State) (p : Nat) (x : WarpPort) : (setWarp s p x).eng = s.eng := rfl
@[simp] theorem setWarp_hed (s : State) (p : Nat) (x : WarpPort) : (setWarp s p x).hed = s.hed := rfl
@[simp] theorem setWarp_sel (s : State) (p : Nat) (x : WarpPort) : (setWarp s p x).sel = s.sel := rfl
@[simp] theorem setWarp_twin (s : State) (p : Nat) (x : WarpPort) : (setWarp s p x).twin = s.twin := rfl
@[simp] theorem setWarp_dob (s : State) (p : Nat) (x : WarpPort) : (setWarp s p x).dob = s.dob := rfl
@[simp] theorem setWarp_mgmt (s : State) (p : Nat) (x : WarpPort) : (setWarp s p x).mgmt = s.mgmt := rfl
@[simp] theorem setWarp_vault (s : State) (p : Nat) (x : WarpPort) : (setWarp s p x).vault = s.vault := rfl
@[simp] theorem setWarp_obs (s : State) (p : Nat) (x : WarpPort) : (setWarp s p x).obs = s.obs := rfl
@[simp] theorem setWarp_host (s : State) (p : Nat) (x : WarpPort) : (setWarp s p x).host = s.host := rfl
@[simp] theorem setWarp_beam (s : State) (p : Nat) (x : WarpPort) : (setWarp s p x).beam = s.beam := rfl
@[simp] theorem setWarp_tx (s : State) (p : Nat) (x : WarpPort) : (setWarp s p x).tx = s.tx := rfl

@[simp] theorem setPart_pending (s : State) (v : Nat) (x : Partition) : (setPart s v x).pending = s.pending := rfl
@[simp] theorem setPart_now (s : State) (v : Nat) (x : Partition) : (setPart s v x).now = s.now := rfl
@[simp] theorem setPart_ft (s : State) (v : Nat) (x : Partition) : (setPart s v x).ft = s.ft := rfl
@[simp] theorem setPart_drawn (s : State) (v : Nat) (x : Partition) : (setPart s v x).drawn = s.drawn := rfl
@[simp] theorem setPart_freeDraws (s : State) (v : Nat) (x : Partition) : (setPart s v x).freeDraws = s.freeDraws := rfl
@[simp] theorem setPart_cfg (s : State) (v : Nat) (x : Partition) : (setPart s v x).cfg = s.cfg := rfl
@[simp] theorem setPart_flash (s : State) (v : Nat) (x : Partition) : (setPart s v x).flash = s.flash := rfl
@[simp] theorem setPart_module (s : State) (v : Nat) (x : Partition) : (setPart s v x).module = s.module := rfl
@[simp] theorem setPart_power (s : State) (v : Nat) (x : Partition) : (setPart s v x).power = s.power := rfl
@[simp] theorem setPart_gov (s : State) (v : Nat) (x : Partition) : (setPart s v x).gov = s.gov := rfl
@[simp] theorem setPart_lanes (s : State) (v : Nat) (x : Partition) : (setPart s v x).lanes = s.lanes := rfl
@[simp] theorem setPart_weft (s : State) (v : Nat) (x : Partition) : (setPart s v x).weft = s.weft := rfl
@[simp] theorem setPart_loom (s : State) (v : Nat) (x : Partition) : (setPart s v x).loom = s.loom := rfl
@[simp] theorem setPart_fab (s : State) (v : Nat) (x : Partition) : (setPart s v x).fab = s.fab := rfl
@[simp] theorem setPart_shu (s : State) (v : Nat) (x : Partition) : (setPart s v x).shu = s.shu := rfl
@[simp] theorem setPart_win (s : State) (v : Nat) (x : Partition) : (setPart s v x).win = s.win := rfl
@[simp] theorem setPart_eng (s : State) (v : Nat) (x : Partition) : (setPart s v x).eng = s.eng := rfl
@[simp] theorem setPart_hed (s : State) (v : Nat) (x : Partition) : (setPart s v x).hed = s.hed := rfl
@[simp] theorem setPart_sel (s : State) (v : Nat) (x : Partition) : (setPart s v x).sel = s.sel := rfl
@[simp] theorem setPart_twin (s : State) (v : Nat) (x : Partition) : (setPart s v x).twin = s.twin := rfl
@[simp] theorem setPart_dob (s : State) (v : Nat) (x : Partition) : (setPart s v x).dob = s.dob := rfl
@[simp] theorem setPart_mgmt (s : State) (v : Nat) (x : Partition) : (setPart s v x).mgmt = s.mgmt := rfl
@[simp] theorem setPart_vault (s : State) (v : Nat) (x : Partition) : (setPart s v x).vault = s.vault := rfl
@[simp] theorem setPart_obs (s : State) (v : Nat) (x : Partition) : (setPart s v x).obs = s.obs := rfl
@[simp] theorem setPart_host (s : State) (v : Nat) (x : Partition) : (setPart s v x).host = s.host := rfl
@[simp] theorem setPart_beam (s : State) (v : Nat) (x : Partition) : (setPart s v x).beam = s.beam := rfl
@[simp] theorem setPart_tx (s : State) (v : Nat) (x : Partition) : (setPart s v x).tx = s.tx := rfl

@[simp] theorem setEntry_pending (s : State) (l : Nat) (e : LedgerEntry) : (setEntry s l e).pending = s.pending := rfl
@[simp] theorem setEntry_now (s : State) (l : Nat) (e : LedgerEntry) : (setEntry s l e).now = s.now := rfl
@[simp] theorem setEntry_ft (s : State) (l : Nat) (e : LedgerEntry) : (setEntry s l e).ft = s.ft := rfl
@[simp] theorem setEntry_drawn (s : State) (l : Nat) (e : LedgerEntry) : (setEntry s l e).drawn = s.drawn := rfl
@[simp] theorem setEntry_freeDraws (s : State) (l : Nat) (e : LedgerEntry) : (setEntry s l e).freeDraws = s.freeDraws := rfl
@[simp] theorem setEntry_cfg (s : State) (l : Nat) (e : LedgerEntry) : (setEntry s l e).cfg = s.cfg := rfl
@[simp] theorem setEntry_flash (s : State) (l : Nat) (e : LedgerEntry) : (setEntry s l e).flash = s.flash := rfl
@[simp] theorem setEntry_module (s : State) (l : Nat) (e : LedgerEntry) : (setEntry s l e).module = s.module := rfl
@[simp] theorem setEntry_power (s : State) (l : Nat) (e : LedgerEntry) : (setEntry s l e).power = s.power := rfl
@[simp] theorem setEntry_gov (s : State) (l : Nat) (e : LedgerEntry) : (setEntry s l e).gov = s.gov := rfl
@[simp] theorem setEntry_lanes (s : State) (l : Nat) (e : LedgerEntry) : (setEntry s l e).lanes = s.lanes := rfl
@[simp] theorem setEntry_weft (s : State) (l : Nat) (e : LedgerEntry) : (setEntry s l e).weft = s.weft := rfl
@[simp] theorem setEntry_warp (s : State) (l : Nat) (e : LedgerEntry) : (setEntry s l e).warp = s.warp := rfl
@[simp] theorem setEntry_loom (s : State) (l : Nat) (e : LedgerEntry) : (setEntry s l e).loom = s.loom := rfl
@[simp] theorem setEntry_fab (s : State) (l : Nat) (e : LedgerEntry) : (setEntry s l e).fab = s.fab := rfl
@[simp] theorem setEntry_win (s : State) (l : Nat) (e : LedgerEntry) : (setEntry s l e).win = s.win := rfl
@[simp] theorem setEntry_eng (s : State) (l : Nat) (e : LedgerEntry) : (setEntry s l e).eng = s.eng := rfl
@[simp] theorem setEntry_hed (s : State) (l : Nat) (e : LedgerEntry) : (setEntry s l e).hed = s.hed := rfl
@[simp] theorem setEntry_sel (s : State) (l : Nat) (e : LedgerEntry) : (setEntry s l e).sel = s.sel := rfl
@[simp] theorem setEntry_twin (s : State) (l : Nat) (e : LedgerEntry) : (setEntry s l e).twin = s.twin := rfl
@[simp] theorem setEntry_dob (s : State) (l : Nat) (e : LedgerEntry) : (setEntry s l e).dob = s.dob := rfl
@[simp] theorem setEntry_mgmt (s : State) (l : Nat) (e : LedgerEntry) : (setEntry s l e).mgmt = s.mgmt := rfl
@[simp] theorem setEntry_vault (s : State) (l : Nat) (e : LedgerEntry) : (setEntry s l e).vault = s.vault := rfl
@[simp] theorem setEntry_obs (s : State) (l : Nat) (e : LedgerEntry) : (setEntry s l e).obs = s.obs := rfl
@[simp] theorem setEntry_host (s : State) (l : Nat) (e : LedgerEntry) : (setEntry s l e).host = s.host := rfl
@[simp] theorem setEntry_beam (s : State) (l : Nat) (e : LedgerEntry) : (setEntry s l e).beam = s.beam := rfl
@[simp] theorem setEntry_tx (s : State) (l : Nat) (e : LedgerEntry) : (setEntry s l e).tx = s.tx := rfl

@[simp] theorem setModule_pending (s : State) (m : ModBlk) : (setModule s m).pending = s.pending := rfl
@[simp] theorem setModule_now (s : State) (m : ModBlk) : (setModule s m).now = s.now := rfl
@[simp] theorem setModule_ft (s : State) (m : ModBlk) : (setModule s m).ft = s.ft := rfl
@[simp] theorem setModule_drawn (s : State) (m : ModBlk) : (setModule s m).drawn = s.drawn := rfl
@[simp] theorem setModule_freeDraws (s : State) (m : ModBlk) : (setModule s m).freeDraws = s.freeDraws := rfl
@[simp] theorem setModule_cfg (s : State) (m : ModBlk) : (setModule s m).cfg = s.cfg := rfl
@[simp] theorem setModule_flash (s : State) (m : ModBlk) : (setModule s m).flash = s.flash := rfl
@[simp] theorem setModule_power (s : State) (m : ModBlk) : (setModule s m).power = s.power := rfl
@[simp] theorem setModule_gov (s : State) (m : ModBlk) : (setModule s m).gov = s.gov := rfl
@[simp] theorem setModule_lanes (s : State) (m : ModBlk) : (setModule s m).lanes = s.lanes := rfl
@[simp] theorem setModule_weft (s : State) (m : ModBlk) : (setModule s m).weft = s.weft := rfl
@[simp] theorem setModule_warp (s : State) (m : ModBlk) : (setModule s m).warp = s.warp := rfl
@[simp] theorem setModule_loom (s : State) (m : ModBlk) : (setModule s m).loom = s.loom := rfl
@[simp] theorem setModule_fab (s : State) (m : ModBlk) : (setModule s m).fab = s.fab := rfl
@[simp] theorem setModule_shu (s : State) (m : ModBlk) : (setModule s m).shu = s.shu := rfl
@[simp] theorem setModule_win (s : State) (m : ModBlk) : (setModule s m).win = s.win := rfl
@[simp] theorem setModule_eng (s : State) (m : ModBlk) : (setModule s m).eng = s.eng := rfl
@[simp] theorem setModule_hed (s : State) (m : ModBlk) : (setModule s m).hed = s.hed := rfl
@[simp] theorem setModule_sel (s : State) (m : ModBlk) : (setModule s m).sel = s.sel := rfl
@[simp] theorem setModule_twin (s : State) (m : ModBlk) : (setModule s m).twin = s.twin := rfl
@[simp] theorem setModule_dob (s : State) (m : ModBlk) : (setModule s m).dob = s.dob := rfl
@[simp] theorem setModule_mgmt (s : State) (m : ModBlk) : (setModule s m).mgmt = s.mgmt := rfl
@[simp] theorem setModule_vault (s : State) (m : ModBlk) : (setModule s m).vault = s.vault := rfl
@[simp] theorem setModule_obs (s : State) (m : ModBlk) : (setModule s m).obs = s.obs := rfl
@[simp] theorem setModule_host (s : State) (m : ModBlk) : (setModule s m).host = s.host := rfl
@[simp] theorem setModule_beam (s : State) (m : ModBlk) : (setModule s m).beam = s.beam := rfl
@[simp] theorem setModule_tx (s : State) (m : ModBlk) : (setModule s m).tx = s.tx := rfl

@[simp] theorem setFwSlot_pending (s : State) (k : Nat) (x : FwSlot) : (setFwSlot s k x).pending = s.pending := rfl
@[simp] theorem setFwSlot_now (s : State) (k : Nat) (x : FwSlot) : (setFwSlot s k x).now = s.now := rfl
@[simp] theorem setFwSlot_ft (s : State) (k : Nat) (x : FwSlot) : (setFwSlot s k x).ft = s.ft := rfl
@[simp] theorem setFwSlot_drawn (s : State) (k : Nat) (x : FwSlot) : (setFwSlot s k x).drawn = s.drawn := rfl
@[simp] theorem setFwSlot_freeDraws (s : State) (k : Nat) (x : FwSlot) : (setFwSlot s k x).freeDraws = s.freeDraws := rfl
@[simp] theorem setFwSlot_cfg (s : State) (k : Nat) (x : FwSlot) : (setFwSlot s k x).cfg = s.cfg := rfl
@[simp] theorem setFwSlot_flash (s : State) (k : Nat) (x : FwSlot) : (setFwSlot s k x).flash = s.flash := rfl
@[simp] theorem setFwSlot_power (s : State) (k : Nat) (x : FwSlot) : (setFwSlot s k x).power = s.power := rfl
@[simp] theorem setFwSlot_gov (s : State) (k : Nat) (x : FwSlot) : (setFwSlot s k x).gov = s.gov := rfl
@[simp] theorem setFwSlot_lanes (s : State) (k : Nat) (x : FwSlot) : (setFwSlot s k x).lanes = s.lanes := rfl
@[simp] theorem setFwSlot_weft (s : State) (k : Nat) (x : FwSlot) : (setFwSlot s k x).weft = s.weft := rfl
@[simp] theorem setFwSlot_warp (s : State) (k : Nat) (x : FwSlot) : (setFwSlot s k x).warp = s.warp := rfl
@[simp] theorem setFwSlot_loom (s : State) (k : Nat) (x : FwSlot) : (setFwSlot s k x).loom = s.loom := rfl
@[simp] theorem setFwSlot_fab (s : State) (k : Nat) (x : FwSlot) : (setFwSlot s k x).fab = s.fab := rfl
@[simp] theorem setFwSlot_shu (s : State) (k : Nat) (x : FwSlot) : (setFwSlot s k x).shu = s.shu := rfl
@[simp] theorem setFwSlot_win (s : State) (k : Nat) (x : FwSlot) : (setFwSlot s k x).win = s.win := rfl
@[simp] theorem setFwSlot_eng (s : State) (k : Nat) (x : FwSlot) : (setFwSlot s k x).eng = s.eng := rfl
@[simp] theorem setFwSlot_hed (s : State) (k : Nat) (x : FwSlot) : (setFwSlot s k x).hed = s.hed := rfl
@[simp] theorem setFwSlot_sel (s : State) (k : Nat) (x : FwSlot) : (setFwSlot s k x).sel = s.sel := rfl
@[simp] theorem setFwSlot_twin (s : State) (k : Nat) (x : FwSlot) : (setFwSlot s k x).twin = s.twin := rfl
@[simp] theorem setFwSlot_dob (s : State) (k : Nat) (x : FwSlot) : (setFwSlot s k x).dob = s.dob := rfl
@[simp] theorem setFwSlot_mgmt (s : State) (k : Nat) (x : FwSlot) : (setFwSlot s k x).mgmt = s.mgmt := rfl
@[simp] theorem setFwSlot_vault (s : State) (k : Nat) (x : FwSlot) : (setFwSlot s k x).vault = s.vault := rfl
@[simp] theorem setFwSlot_obs (s : State) (k : Nat) (x : FwSlot) : (setFwSlot s k x).obs = s.obs := rfl
@[simp] theorem setFwSlot_host (s : State) (k : Nat) (x : FwSlot) : (setFwSlot s k x).host = s.host := rfl
@[simp] theorem setFwSlot_beam (s : State) (k : Nat) (x : FwSlot) : (setFwSlot s k x).beam = s.beam := rfl
@[simp] theorem setFwSlot_tx (s : State) (k : Nat) (x : FwSlot) : (setFwSlot s k x).tx = s.tx := rfl

@[simp] theorem setCfgReg_pending (s : State) (v : Nat) (fn : Nat) (dw : Nat) (x : Nat) : (setCfgReg s v fn dw x).pending = s.pending := rfl
@[simp] theorem setCfgReg_now (s : State) (v : Nat) (fn : Nat) (dw : Nat) (x : Nat) : (setCfgReg s v fn dw x).now = s.now := rfl
@[simp] theorem setCfgReg_ft (s : State) (v : Nat) (fn : Nat) (dw : Nat) (x : Nat) : (setCfgReg s v fn dw x).ft = s.ft := rfl
@[simp] theorem setCfgReg_drawn (s : State) (v : Nat) (fn : Nat) (dw : Nat) (x : Nat) : (setCfgReg s v fn dw x).drawn = s.drawn := rfl
@[simp] theorem setCfgReg_freeDraws (s : State) (v : Nat) (fn : Nat) (dw : Nat) (x : Nat) : (setCfgReg s v fn dw x).freeDraws = s.freeDraws := rfl
@[simp] theorem setCfgReg_cfg (s : State) (v : Nat) (fn : Nat) (dw : Nat) (x : Nat) : (setCfgReg s v fn dw x).cfg = s.cfg := rfl
@[simp] theorem setCfgReg_flash (s : State) (v : Nat) (fn : Nat) (dw : Nat) (x : Nat) : (setCfgReg s v fn dw x).flash = s.flash := rfl
@[simp] theorem setCfgReg_module (s : State) (v : Nat) (fn : Nat) (dw : Nat) (x : Nat) : (setCfgReg s v fn dw x).module = s.module := rfl
@[simp] theorem setCfgReg_power (s : State) (v : Nat) (fn : Nat) (dw : Nat) (x : Nat) : (setCfgReg s v fn dw x).power = s.power := rfl
@[simp] theorem setCfgReg_gov (s : State) (v : Nat) (fn : Nat) (dw : Nat) (x : Nat) : (setCfgReg s v fn dw x).gov = s.gov := rfl
@[simp] theorem setCfgReg_lanes (s : State) (v : Nat) (fn : Nat) (dw : Nat) (x : Nat) : (setCfgReg s v fn dw x).lanes = s.lanes := rfl
@[simp] theorem setCfgReg_weft (s : State) (v : Nat) (fn : Nat) (dw : Nat) (x : Nat) : (setCfgReg s v fn dw x).weft = s.weft := rfl
@[simp] theorem setCfgReg_loom (s : State) (v : Nat) (fn : Nat) (dw : Nat) (x : Nat) : (setCfgReg s v fn dw x).loom = s.loom := rfl
@[simp] theorem setCfgReg_fab (s : State) (v : Nat) (fn : Nat) (dw : Nat) (x : Nat) : (setCfgReg s v fn dw x).fab = s.fab := rfl
@[simp] theorem setCfgReg_shu (s : State) (v : Nat) (fn : Nat) (dw : Nat) (x : Nat) : (setCfgReg s v fn dw x).shu = s.shu := rfl
@[simp] theorem setCfgReg_win (s : State) (v : Nat) (fn : Nat) (dw : Nat) (x : Nat) : (setCfgReg s v fn dw x).win = s.win := rfl
@[simp] theorem setCfgReg_eng (s : State) (v : Nat) (fn : Nat) (dw : Nat) (x : Nat) : (setCfgReg s v fn dw x).eng = s.eng := rfl
@[simp] theorem setCfgReg_hed (s : State) (v : Nat) (fn : Nat) (dw : Nat) (x : Nat) : (setCfgReg s v fn dw x).hed = s.hed := rfl
@[simp] theorem setCfgReg_sel (s : State) (v : Nat) (fn : Nat) (dw : Nat) (x : Nat) : (setCfgReg s v fn dw x).sel = s.sel := rfl
@[simp] theorem setCfgReg_twin (s : State) (v : Nat) (fn : Nat) (dw : Nat) (x : Nat) : (setCfgReg s v fn dw x).twin = s.twin := rfl
@[simp] theorem setCfgReg_dob (s : State) (v : Nat) (fn : Nat) (dw : Nat) (x : Nat) : (setCfgReg s v fn dw x).dob = s.dob := rfl
@[simp] theorem setCfgReg_mgmt (s : State) (v : Nat) (fn : Nat) (dw : Nat) (x : Nat) : (setCfgReg s v fn dw x).mgmt = s.mgmt := rfl
@[simp] theorem setCfgReg_vault (s : State) (v : Nat) (fn : Nat) (dw : Nat) (x : Nat) : (setCfgReg s v fn dw x).vault = s.vault := rfl
@[simp] theorem setCfgReg_obs (s : State) (v : Nat) (fn : Nat) (dw : Nat) (x : Nat) : (setCfgReg s v fn dw x).obs = s.obs := rfl
@[simp] theorem setCfgReg_host (s : State) (v : Nat) (fn : Nat) (dw : Nat) (x : Nat) : (setCfgReg s v fn dw x).host = s.host := rfl
@[simp] theorem setCfgReg_beam (s : State) (v : Nat) (fn : Nat) (dw : Nat) (x : Nat) : (setCfgReg s v fn dw x).beam = s.beam := rfl
@[simp] theorem setCfgReg_tx (s : State) (v : Nat) (fn : Nat) (dw : Nat) (x : Nat) : (setCfgReg s v fn dw x).tx = s.tx := rfl

@[simp] theorem setSlot_pending (s : State) (k : Nat) (x : SlotState) : (setSlot s k x).pending = s.pending := rfl
@[simp] theorem setSlot_now (s : State) (k : Nat) (x : SlotState) : (setSlot s k x).now = s.now := rfl
@[simp] theorem setSlot_ft (s : State) (k : Nat) (x : SlotState) : (setSlot s k x).ft = s.ft := rfl
@[simp] theorem setSlot_drawn (s : State) (k : Nat) (x : SlotState) : (setSlot s k x).drawn = s.drawn := rfl
@[simp] theorem setSlot_freeDraws (s : State) (k : Nat) (x : SlotState) : (setSlot s k x).freeDraws = s.freeDraws := rfl
@[simp] theorem setSlot_cfg (s : State) (k : Nat) (x : SlotState) : (setSlot s k x).cfg = s.cfg := rfl
@[simp] theorem setSlot_flash (s : State) (k : Nat) (x : SlotState) : (setSlot s k x).flash = s.flash := rfl
@[simp] theorem setSlot_module (s : State) (k : Nat) (x : SlotState) : (setSlot s k x).module = s.module := rfl
@[simp] theorem setSlot_power (s : State) (k : Nat) (x : SlotState) : (setSlot s k x).power = s.power := rfl
@[simp] theorem setSlot_gov (s : State) (k : Nat) (x : SlotState) : (setSlot s k x).gov = s.gov := rfl
@[simp] theorem setSlot_lanes (s : State) (k : Nat) (x : SlotState) : (setSlot s k x).lanes = s.lanes := rfl
@[simp] theorem setSlot_weft (s : State) (k : Nat) (x : SlotState) : (setSlot s k x).weft = s.weft := rfl
@[simp] theorem setSlot_loom (s : State) (k : Nat) (x : SlotState) : (setSlot s k x).loom = s.loom := rfl
@[simp] theorem setSlot_fab (s : State) (k : Nat) (x : SlotState) : (setSlot s k x).fab = s.fab := rfl
@[simp] theorem setSlot_shu (s : State) (k : Nat) (x : SlotState) : (setSlot s k x).shu = s.shu := rfl
@[simp] theorem setSlot_win (s : State) (k : Nat) (x : SlotState) : (setSlot s k x).win = s.win := rfl
@[simp] theorem setSlot_eng (s : State) (k : Nat) (x : SlotState) : (setSlot s k x).eng = s.eng := rfl
@[simp] theorem setSlot_hed (s : State) (k : Nat) (x : SlotState) : (setSlot s k x).hed = s.hed := rfl
@[simp] theorem setSlot_sel (s : State) (k : Nat) (x : SlotState) : (setSlot s k x).sel = s.sel := rfl
@[simp] theorem setSlot_twin (s : State) (k : Nat) (x : SlotState) : (setSlot s k x).twin = s.twin := rfl
@[simp] theorem setSlot_dob (s : State) (k : Nat) (x : SlotState) : (setSlot s k x).dob = s.dob := rfl
@[simp] theorem setSlot_mgmt (s : State) (k : Nat) (x : SlotState) : (setSlot s k x).mgmt = s.mgmt := rfl
@[simp] theorem setSlot_vault (s : State) (k : Nat) (x : SlotState) : (setSlot s k x).vault = s.vault := rfl
@[simp] theorem setSlot_obs (s : State) (k : Nat) (x : SlotState) : (setSlot s k x).obs = s.obs := rfl
@[simp] theorem setSlot_host (s : State) (k : Nat) (x : SlotState) : (setSlot s k x).host = s.host := rfl
@[simp] theorem setSlot_beam (s : State) (k : Nat) (x : SlotState) : (setSlot s k x).beam = s.beam := rfl
@[simp] theorem setSlot_tx (s : State) (k : Nat) (x : SlotState) : (setSlot s k x).tx = s.tx := rfl

@[simp] theorem setExpander_pending (s : State) (e : Nat) (x : ExpanderState) : (setExpander s e x).pending = s.pending := rfl
@[simp] theorem setExpander_now (s : State) (e : Nat) (x : ExpanderState) : (setExpander s e x).now = s.now := rfl
@[simp] theorem setExpander_ft (s : State) (e : Nat) (x : ExpanderState) : (setExpander s e x).ft = s.ft := rfl
@[simp] theorem setExpander_drawn (s : State) (e : Nat) (x : ExpanderState) : (setExpander s e x).drawn = s.drawn := rfl
@[simp] theorem setExpander_freeDraws (s : State) (e : Nat) (x : ExpanderState) : (setExpander s e x).freeDraws = s.freeDraws := rfl
@[simp] theorem setExpander_cfg (s : State) (e : Nat) (x : ExpanderState) : (setExpander s e x).cfg = s.cfg := rfl
@[simp] theorem setExpander_flash (s : State) (e : Nat) (x : ExpanderState) : (setExpander s e x).flash = s.flash := rfl
@[simp] theorem setExpander_module (s : State) (e : Nat) (x : ExpanderState) : (setExpander s e x).module = s.module := rfl
@[simp] theorem setExpander_power (s : State) (e : Nat) (x : ExpanderState) : (setExpander s e x).power = s.power := rfl
@[simp] theorem setExpander_gov (s : State) (e : Nat) (x : ExpanderState) : (setExpander s e x).gov = s.gov := rfl
@[simp] theorem setExpander_lanes (s : State) (e : Nat) (x : ExpanderState) : (setExpander s e x).lanes = s.lanes := rfl
@[simp] theorem setExpander_weft (s : State) (e : Nat) (x : ExpanderState) : (setExpander s e x).weft = s.weft := rfl
@[simp] theorem setExpander_loom (s : State) (e : Nat) (x : ExpanderState) : (setExpander s e x).loom = s.loom := rfl
@[simp] theorem setExpander_fab (s : State) (e : Nat) (x : ExpanderState) : (setExpander s e x).fab = s.fab := rfl
@[simp] theorem setExpander_shu (s : State) (e : Nat) (x : ExpanderState) : (setExpander s e x).shu = s.shu := rfl
@[simp] theorem setExpander_win (s : State) (e : Nat) (x : ExpanderState) : (setExpander s e x).win = s.win := rfl
@[simp] theorem setExpander_eng (s : State) (e : Nat) (x : ExpanderState) : (setExpander s e x).eng = s.eng := rfl
@[simp] theorem setExpander_hed (s : State) (e : Nat) (x : ExpanderState) : (setExpander s e x).hed = s.hed := rfl
@[simp] theorem setExpander_sel (s : State) (e : Nat) (x : ExpanderState) : (setExpander s e x).sel = s.sel := rfl
@[simp] theorem setExpander_twin (s : State) (e : Nat) (x : ExpanderState) : (setExpander s e x).twin = s.twin := rfl
@[simp] theorem setExpander_dob (s : State) (e : Nat) (x : ExpanderState) : (setExpander s e x).dob = s.dob := rfl
@[simp] theorem setExpander_mgmt (s : State) (e : Nat) (x : ExpanderState) : (setExpander s e x).mgmt = s.mgmt := rfl
@[simp] theorem setExpander_vault (s : State) (e : Nat) (x : ExpanderState) : (setExpander s e x).vault = s.vault := rfl
@[simp] theorem setExpander_obs (s : State) (e : Nat) (x : ExpanderState) : (setExpander s e x).obs = s.obs := rfl
@[simp] theorem setExpander_host (s : State) (e : Nat) (x : ExpanderState) : (setExpander s e x).host = s.host := rfl
@[simp] theorem setExpander_beam (s : State) (e : Nat) (x : ExpanderState) : (setExpander s e x).beam = s.beam := rfl
@[simp] theorem setExpander_tx (s : State) (e : Nat) (x : ExpanderState) : (setExpander s e x).tx = s.tx := rfl

@[simp] theorem setWin_pending (s : State) (w : Nat) (x : Window) : (setWin s w x).pending = s.pending := rfl
@[simp] theorem setWin_now (s : State) (w : Nat) (x : Window) : (setWin s w x).now = s.now := rfl
@[simp] theorem setWin_ft (s : State) (w : Nat) (x : Window) : (setWin s w x).ft = s.ft := rfl
@[simp] theorem setWin_drawn (s : State) (w : Nat) (x : Window) : (setWin s w x).drawn = s.drawn := rfl
@[simp] theorem setWin_freeDraws (s : State) (w : Nat) (x : Window) : (setWin s w x).freeDraws = s.freeDraws := rfl
@[simp] theorem setWin_cfg (s : State) (w : Nat) (x : Window) : (setWin s w x).cfg = s.cfg := rfl
@[simp] theorem setWin_flash (s : State) (w : Nat) (x : Window) : (setWin s w x).flash = s.flash := rfl
@[simp] theorem setWin_module (s : State) (w : Nat) (x : Window) : (setWin s w x).module = s.module := rfl
@[simp] theorem setWin_power (s : State) (w : Nat) (x : Window) : (setWin s w x).power = s.power := rfl
@[simp] theorem setWin_gov (s : State) (w : Nat) (x : Window) : (setWin s w x).gov = s.gov := rfl
@[simp] theorem setWin_lanes (s : State) (w : Nat) (x : Window) : (setWin s w x).lanes = s.lanes := rfl
@[simp] theorem setWin_weft (s : State) (w : Nat) (x : Window) : (setWin s w x).weft = s.weft := rfl
@[simp] theorem setWin_warp (s : State) (w : Nat) (x : Window) : (setWin s w x).warp = s.warp := rfl
@[simp] theorem setWin_loom (s : State) (w : Nat) (x : Window) : (setWin s w x).loom = s.loom := rfl
@[simp] theorem setWin_fab (s : State) (w : Nat) (x : Window) : (setWin s w x).fab = s.fab := rfl
@[simp] theorem setWin_shu (s : State) (w : Nat) (x : Window) : (setWin s w x).shu = s.shu := rfl
@[simp] theorem setWin_eng (s : State) (w : Nat) (x : Window) : (setWin s w x).eng = s.eng := rfl
@[simp] theorem setWin_hed (s : State) (w : Nat) (x : Window) : (setWin s w x).hed = s.hed := rfl
@[simp] theorem setWin_sel (s : State) (w : Nat) (x : Window) : (setWin s w x).sel = s.sel := rfl
@[simp] theorem setWin_twin (s : State) (w : Nat) (x : Window) : (setWin s w x).twin = s.twin := rfl
@[simp] theorem setWin_dob (s : State) (w : Nat) (x : Window) : (setWin s w x).dob = s.dob := rfl
@[simp] theorem setWin_mgmt (s : State) (w : Nat) (x : Window) : (setWin s w x).mgmt = s.mgmt := rfl
@[simp] theorem setWin_vault (s : State) (w : Nat) (x : Window) : (setWin s w x).vault = s.vault := rfl
@[simp] theorem setWin_obs (s : State) (w : Nat) (x : Window) : (setWin s w x).obs = s.obs := rfl
@[simp] theorem setWin_host (s : State) (w : Nat) (x : Window) : (setWin s w x).host = s.host := rfl
@[simp] theorem setWin_beam (s : State) (w : Nat) (x : Window) : (setWin s w x).beam = s.beam := rfl
@[simp] theorem setWin_tx (s : State) (w : Nat) (x : Window) : (setWin s w x).tx = s.tx := rfl

@[simp] theorem setFeed_pending (s : State) (f : Feed) (x : FeedState) : (setFeed s f x).pending = s.pending := by cases f <;> rfl
@[simp] theorem setFeed_now (s : State) (f : Feed) (x : FeedState) : (setFeed s f x).now = s.now := by cases f <;> rfl
@[simp] theorem setFeed_ft (s : State) (f : Feed) (x : FeedState) : (setFeed s f x).ft = s.ft := by cases f <;> rfl
@[simp] theorem setFeed_drawn (s : State) (f : Feed) (x : FeedState) : (setFeed s f x).drawn = s.drawn := by cases f <;> rfl
@[simp] theorem setFeed_freeDraws (s : State) (f : Feed) (x : FeedState) : (setFeed s f x).freeDraws = s.freeDraws := by cases f <;> rfl
@[simp] theorem setFeed_cfg (s : State) (f : Feed) (x : FeedState) : (setFeed s f x).cfg = s.cfg := by cases f <;> rfl
@[simp] theorem setFeed_flash (s : State) (f : Feed) (x : FeedState) : (setFeed s f x).flash = s.flash := by cases f <;> rfl
@[simp] theorem setFeed_module (s : State) (f : Feed) (x : FeedState) : (setFeed s f x).module = s.module := by cases f <;> rfl
@[simp] theorem setFeed_gov (s : State) (f : Feed) (x : FeedState) : (setFeed s f x).gov = s.gov := by cases f <;> rfl
@[simp] theorem setFeed_lanes (s : State) (f : Feed) (x : FeedState) : (setFeed s f x).lanes = s.lanes := by cases f <;> rfl
@[simp] theorem setFeed_weft (s : State) (f : Feed) (x : FeedState) : (setFeed s f x).weft = s.weft := by cases f <;> rfl
@[simp] theorem setFeed_warp (s : State) (f : Feed) (x : FeedState) : (setFeed s f x).warp = s.warp := by cases f <;> rfl
@[simp] theorem setFeed_loom (s : State) (f : Feed) (x : FeedState) : (setFeed s f x).loom = s.loom := by cases f <;> rfl
@[simp] theorem setFeed_fab (s : State) (f : Feed) (x : FeedState) : (setFeed s f x).fab = s.fab := by cases f <;> rfl
@[simp] theorem setFeed_shu (s : State) (f : Feed) (x : FeedState) : (setFeed s f x).shu = s.shu := by cases f <;> rfl
@[simp] theorem setFeed_win (s : State) (f : Feed) (x : FeedState) : (setFeed s f x).win = s.win := by cases f <;> rfl
@[simp] theorem setFeed_eng (s : State) (f : Feed) (x : FeedState) : (setFeed s f x).eng = s.eng := by cases f <;> rfl
@[simp] theorem setFeed_hed (s : State) (f : Feed) (x : FeedState) : (setFeed s f x).hed = s.hed := by cases f <;> rfl
@[simp] theorem setFeed_sel (s : State) (f : Feed) (x : FeedState) : (setFeed s f x).sel = s.sel := by cases f <;> rfl
@[simp] theorem setFeed_twin (s : State) (f : Feed) (x : FeedState) : (setFeed s f x).twin = s.twin := by cases f <;> rfl
@[simp] theorem setFeed_dob (s : State) (f : Feed) (x : FeedState) : (setFeed s f x).dob = s.dob := by cases f <;> rfl
@[simp] theorem setFeed_mgmt (s : State) (f : Feed) (x : FeedState) : (setFeed s f x).mgmt = s.mgmt := by cases f <;> rfl
@[simp] theorem setFeed_vault (s : State) (f : Feed) (x : FeedState) : (setFeed s f x).vault = s.vault := by cases f <;> rfl
@[simp] theorem setFeed_obs (s : State) (f : Feed) (x : FeedState) : (setFeed s f x).obs = s.obs := by cases f <;> rfl
@[simp] theorem setFeed_host (s : State) (f : Feed) (x : FeedState) : (setFeed s f x).host = s.host := by cases f <;> rfl
@[simp] theorem setFeed_beam (s : State) (f : Feed) (x : FeedState) : (setFeed s f x).beam = s.beam := by cases f <;> rfl
@[simp] theorem setFeed_tx (s : State) (f : Feed) (x : FeedState) : (setFeed s f x).tx = s.tx := by cases f <;> rfl

/-! ### What is read back -/

theorem Tbl.find?_set {α : Type} (t : Tbl α) (k j : Nat) (x : α) : Tbl.find? (Tbl.set t k x) j = if j = k then some x else Tbl.find? t j := by
  induction t with
  | nil =>
    simp only [Tbl.set, Tbl.find?]
  | cons r t ih =>
    obtain ⟨i, y⟩ := r
    simp only [Tbl.set]
    split
    · simp only [Tbl.find?]
    · split
      · next h =>
        subst h
        simp only [Tbl.find?]
        split <;> rfl
      · next h1 h2 =>
        simp only [Tbl.find?, ih]
        split
        · next e => rw [if_neg (by omega)]
        · rfl

theorem Tbl.get_set {α : Type} (t : Tbl α) (k j : Nat) (x d : α) : Tbl.get (Tbl.set t k x) j d = if j = k then x else Tbl.get t j d := by
  unfold Tbl.get
  rw [Tbl.find?_set]
  split <;> rfl

@[simp] theorem Tbl.find?_set_same {α : Type} (t : Tbl α) (k : Nat) (x : α) : Tbl.find? (Tbl.set t k x) k = some x := by
  simp [Tbl.find?_set]

@[simp] theorem Tbl.get_set_same {α : Type} (t : Tbl α) (k : Nat) (x d : α) : Tbl.get (Tbl.set t k x) k d = x := by
  simp [Tbl.get_set]

theorem vget_vset_same {α : Type} {n : Nat} (v : Vector α n) (k : Nat) (x d : α) (h : k < n) : vget (vset v k x) k d = x := by
  simp [vget, vset, h]

theorem vget_vset_other {α : Type} {n : Nat} (v : Vector α n) (k j : Nat) (x d : α) (h : k ≠ j) : vget (vset v k x) j d = vget v j d := by
  simp [vget, vset, h]

theorem Tbl.find?_erase {α : Type} (t : Tbl α) (k j : Nat) : Tbl.find? (Tbl.erase t k) j = if j = k then none else Tbl.find? t j := by
  induction t with
  | nil => simp [Tbl.erase, Tbl.find?]
  | cons r t ih =>
    obtain ⟨i, y⟩ := r
    unfold Tbl.erase at ih ⊢
    by_cases h : i = k
    · rw [List.filter_cons_of_neg (by simpa using h), ih]
      subst h
      simp only [Tbl.find?]
      split <;> rfl
    · rw [List.filter_cons_of_pos (by simpa using h)]
      simp only [Tbl.find?, ih]
      split
      · next e => rw [if_neg (by omega)]
      · rfl

@[simp] theorem feedOf_setFeed_same (s : State) (f : Feed) (x : FeedState) : feedOf (setFeed s f x) f = x := by cases f <;> rfl

@[simp] theorem feedOf_setFeed_other (s : State) (f : Feed) (x : FeedState) : feedOf (setFeed s f x) (otherFeed f) = feedOf s (otherFeed f) := by
  cases f <;> rfl

@[simp] theorem winOf_setWin (s : State) (w : Nat) (x : Window) : winOf (setWin s w x) w = x := Tbl.get_set_same _ _ _ _

@[simp] theorem Tbl.getD_find?_set {α : Type} (t : Tbl α) (k : Nat) (x d : α) : (Tbl.find? (Tbl.set t k x) k).getD d = x := by simp

end Sys2Proof.Machine
end

