-- ==== Sys2Proof/Laws/Frames.lean ====
section
/-!
SUPPORT. What the shared operations leave: events, counters, vectors and the change of module state touch no block but their own.
-/

namespace Sys2Proof.Machine

open Sys2Proof.Laws

@[simp] theorem beamWrite_pending (s : State) (a : Nat) (bs : List Byte) : (beamWrite s a bs).pending = s.pending := (beamWrite_keeps (mk := 4194304) (Keeps.refl s) (by decide)).pending
@[simp] theorem beamWrite_now (s : State) (a : Nat) (bs : List Byte) : (beamWrite s a bs).now = s.now := (beamWrite_keeps (mk := 4194304) (Keeps.refl s) (by decide)).now
@[simp] theorem beamWrite_ft (s : State) (a : Nat) (bs : List Byte) : (beamWrite s a bs).ft = s.ft := (beamWrite_keeps (mk := 4194304) (Keeps.refl s) (by decide)).ft (by decide)
@[simp] theorem beamWrite_cfg (s : State) (a : Nat) (bs : List Byte) : (beamWrite s a bs).cfg = s.cfg := (beamWrite_keeps (mk := 4194304) (Keeps.refl s) (by decide)).cfg (by decide)
@[simp] theorem beamWrite_flash (s : State) (a : Nat) (bs : List Byte) : (beamWrite s a bs).flash = s.flash := (beamWrite_keeps (mk := 4194304) (Keeps.refl s) (by decide)).flash (by decide)
@[simp] theorem beamWrite_module (s : State) (a : Nat) (bs : List Byte) : (beamWrite s a bs).module = s.module := (beamWrite_keeps (mk := 4194304) (Keeps.refl s) (by decide)).module (by decide)
@[simp] theorem beamWrite_power (s : State) (a : Nat) (bs : List Byte) : (beamWrite s a bs).power = s.power := (beamWrite_keeps (mk := 4194304) (Keeps.refl s) (by decide)).power (by decide)
@[simp] theorem beamWrite_gov (s : State) (a : Nat) (bs : List Byte) : (beamWrite s a bs).gov = s.gov := (beamWrite_keeps (mk := 4194304) (Keeps.refl s) (by decide)).gov (by decide)
@[simp] theorem beamWrite_lanes (s : State) (a : Nat) (bs : List Byte) : (beamWrite s a bs).lanes = s.lanes := (beamWrite_keeps (mk := 4194304) (Keeps.refl s) (by decide)).lanes (by decide)
@[simp] theorem beamWrite_weft (s : State) (a : Nat) (bs : List Byte) : (beamWrite s a bs).weft = s.weft := (beamWrite_keeps (mk := 4194304) (Keeps.refl s) (by decide)).weft (by decide)
@[simp] theorem beamWrite_warp (s : State) (a : Nat) (bs : List Byte) : (beamWrite s a bs).warp = s.warp := (beamWrite_keeps (mk := 4194304) (Keeps.refl s) (by decide)).warp (by decide)
@[simp] theorem beamWrite_loom (s : State) (a : Nat) (bs : List Byte) : (beamWrite s a bs).loom = s.loom := (beamWrite_keeps (mk := 4194304) (Keeps.refl s) (by decide)).loom (by decide)
@[simp] theorem beamWrite_fab (s : State) (a : Nat) (bs : List Byte) : (beamWrite s a bs).fab = s.fab := (beamWrite_keeps (mk := 4194304) (Keeps.refl s) (by decide)).fab (by decide)
@[simp] theorem beamWrite_shu (s : State) (a : Nat) (bs : List Byte) : (beamWrite s a bs).shu = s.shu := (beamWrite_keeps (mk := 4194304) (Keeps.refl s) (by decide)).shu (by decide)
@[simp] theorem beamWrite_win (s : State) (a : Nat) (bs : List Byte) : (beamWrite s a bs).win = s.win := (beamWrite_keeps (mk := 4194304) (Keeps.refl s) (by decide)).win (by decide)
@[simp] theorem beamWrite_eng (s : State) (a : Nat) (bs : List Byte) : (beamWrite s a bs).eng = s.eng := (beamWrite_keeps (mk := 4194304) (Keeps.refl s) (by decide)).eng (by decide)
@[simp] theorem beamWrite_hed (s : State) (a : Nat) (bs : List Byte) : (beamWrite s a bs).hed = s.hed := (beamWrite_keeps (mk := 4194304) (Keeps.refl s) (by decide)).hed (by decide)
@[simp] theorem beamWrite_sel (s : State) (a : Nat) (bs : List Byte) : (beamWrite s a bs).sel = s.sel := (beamWrite_keeps (mk := 4194304) (Keeps.refl s) (by decide)).sel (by decide)
@[simp] theorem beamWrite_twin (s : State) (a : Nat) (bs : List Byte) : (beamWrite s a bs).twin = s.twin := (beamWrite_keeps (mk := 4194304) (Keeps.refl s) (by decide)).twin (by decide)
@[simp] theorem beamWrite_dob (s : State) (a : Nat) (bs : List Byte) : (beamWrite s a bs).dob = s.dob := (beamWrite_keeps (mk := 4194304) (Keeps.refl s) (by decide)).dob (by decide)
@[simp] theorem beamWrite_mgmt (s : State) (a : Nat) (bs : List Byte) : (beamWrite s a bs).mgmt = s.mgmt := (beamWrite_keeps (mk := 4194304) (Keeps.refl s) (by decide)).mgmt (by decide)
@[simp] theorem beamWrite_vault (s : State) (a : Nat) (bs : List Byte) : (beamWrite s a bs).vault = s.vault := (beamWrite_keeps (mk := 4194304) (Keeps.refl s) (by decide)).vault (by decide)
@[simp] theorem beamWrite_obs (s : State) (a : Nat) (bs : List Byte) : (beamWrite s a bs).obs = s.obs := (beamWrite_keeps (mk := 4194304) (Keeps.refl s) (by decide)).obs (by decide)
@[simp] theorem beamWrite_host (s : State) (a : Nat) (bs : List Byte) : (beamWrite s a bs).host = s.host := (beamWrite_keeps (mk := 4194304) (Keeps.refl s) (by decide)).host (by decide)

@[simp] theorem journal_pending (s : State) (e : JournalEntry) : (journal s e).pending = s.pending := (journal_keeps (mk := 1048576) (Keeps.refl s) (by decide)).pending
@[simp] theorem journal_now (s : State) (e : JournalEntry) : (journal s e).now = s.now := (journal_keeps (mk := 1048576) (Keeps.refl s) (by decide)).now
@[simp] theorem journal_ft (s : State) (e : JournalEntry) : (journal s e).ft = s.ft := (journal_keeps (mk := 1048576) (Keeps.refl s) (by decide)).ft (by decide)
@[simp] theorem journal_cfg (s : State) (e : JournalEntry) : (journal s e).cfg = s.cfg := (journal_keeps (mk := 1048576) (Keeps.refl s) (by decide)).cfg (by decide)
@[simp] theorem journal_flash (s : State) (e : JournalEntry) : (journal s e).flash = s.flash := (journal_keeps (mk := 1048576) (Keeps.refl s) (by decide)).flash (by decide)
@[simp] theorem journal_module (s : State) (e : JournalEntry) : (journal s e).module = s.module := (journal_keeps (mk := 1048576) (Keeps.refl s) (by decide)).module (by decide)
@[simp] theorem journal_power (s : State) (e : JournalEntry) : (journal s e).power = s.power := (journal_keeps (mk := 1048576) (Keeps.refl s) (by decide)).power (by decide)
@[simp] theorem journal_gov (s : State) (e : JournalEntry) : (journal s e).gov = s.gov := (journal_keeps (mk := 1048576) (Keeps.refl s) (by decide)).gov (by decide)
@[simp] theorem journal_lanes (s : State) (e : JournalEntry) : (journal s e).lanes = s.lanes := (journal_keeps (mk := 1048576) (Keeps.refl s) (by decide)).lanes (by decide)
@[simp] theorem journal_weft (s : State) (e : JournalEntry) : (journal s e).weft = s.weft := (journal_keeps (mk := 1048576) (Keeps.refl s) (by decide)).weft (by decide)
@[simp] theorem journal_warp (s : State) (e : JournalEntry) : (journal s e).warp = s.warp := (journal_keeps (mk := 1048576) (Keeps.refl s) (by decide)).warp (by decide)
@[simp] theorem journal_loom (s : State) (e : JournalEntry) : (journal s e).loom = s.loom := (journal_keeps (mk := 1048576) (Keeps.refl s) (by decide)).loom (by decide)
@[simp] theorem journal_fab (s : State) (e : JournalEntry) : (journal s e).fab = s.fab := (journal_keeps (mk := 1048576) (Keeps.refl s) (by decide)).fab (by decide)
@[simp] theorem journal_shu (s : State) (e : JournalEntry) : (journal s e).shu = s.shu := (journal_keeps (mk := 1048576) (Keeps.refl s) (by decide)).shu (by decide)
@[simp] theorem journal_win (s : State) (e : JournalEntry) : (journal s e).win = s.win := (journal_keeps (mk := 1048576) (Keeps.refl s) (by decide)).win (by decide)
@[simp] theorem journal_eng (s : State) (e : JournalEntry) : (journal s e).eng = s.eng := (journal_keeps (mk := 1048576) (Keeps.refl s) (by decide)).eng (by decide)
@[simp] theorem journal_hed (s : State) (e : JournalEntry) : (journal s e).hed = s.hed := (journal_keeps (mk := 1048576) (Keeps.refl s) (by decide)).hed (by decide)
@[simp] theorem journal_sel (s : State) (e : JournalEntry) : (journal s e).sel = s.sel := (journal_keeps (mk := 1048576) (Keeps.refl s) (by decide)).sel (by decide)
@[simp] theorem journal_twin (s : State) (e : JournalEntry) : (journal s e).twin = s.twin := (journal_keeps (mk := 1048576) (Keeps.refl s) (by decide)).twin (by decide)
@[simp] theorem journal_dob (s : State) (e : JournalEntry) : (journal s e).dob = s.dob := (journal_keeps (mk := 1048576) (Keeps.refl s) (by decide)).dob (by decide)
@[simp] theorem journal_mgmt (s : State) (e : JournalEntry) : (journal s e).mgmt = s.mgmt := (journal_keeps (mk := 1048576) (Keeps.refl s) (by decide)).mgmt (by decide)
@[simp] theorem journal_vault (s : State) (e : JournalEntry) : (journal s e).vault = s.vault := (journal_keeps (mk := 1048576) (Keeps.refl s) (by decide)).vault (by decide)
@[simp] theorem journal_host (s : State) (e : JournalEntry) : (journal s e).host = s.host := (journal_keeps (mk := 1048576) (Keeps.refl s) (by decide)).host (by decide)
@[simp] theorem journal_beam (s : State) (e : JournalEntry) : (journal s e).beam = s.beam := (journal_keeps (mk := 1048576) (Keeps.refl s) (by decide)).beam (by decide)

@[simp] theorem journalChange_pending (s : State) (prev : Nat) (new : Nat) (cause : Nat) : (journalChange s prev new cause).pending = s.pending := (journalChange_keeps (mk := 1048576) (Keeps.refl s) (by decide)).pending
@[simp] theorem journalChange_now (s : State) (prev : Nat) (new : Nat) (cause : Nat) : (journalChange s prev new cause).now = s.now := (journalChange_keeps (mk := 1048576) (Keeps.refl s) (by decide)).now
@[simp] theorem journalChange_ft (s : State) (prev : Nat) (new : Nat) (cause : Nat) : (journalChange s prev new cause).ft = s.ft := (journalChange_keeps (mk := 1048576) (Keeps.refl s) (by decide)).ft (by decide)
@[simp] theorem journalChange_cfg (s : State) (prev : Nat) (new : Nat) (cause : Nat) : (journalChange s prev new cause).cfg = s.cfg := (journalChange_keeps (mk := 1048576) (Keeps.refl s) (by decide)).cfg (by decide)
@[simp] theorem journalChange_flash (s : State) (prev : Nat) (new : Nat) (cause : Nat) : (journalChange s prev new cause).flash = s.flash := (journalChange_keeps (mk := 1048576) (Keeps.refl s) (by decide)).flash (by decide)
@[simp] theorem journalChange_module (s : State) (prev : Nat) (new : Nat) (cause : Nat) : (journalChange s prev new cause).module = s.module := (journalChange_keeps (mk := 1048576) (Keeps.refl s) (by decide)).module (by decide)
@[simp] theorem journalChange_power (s : State) (prev : Nat) (new : Nat) (cause : Nat) : (journalChange s prev new cause).power = s.power := (journalChange_keeps (mk := 1048576) (Keeps.refl s) (by decide)).power (by decide)
@[simp] theorem journalChange_gov (s : State) (prev : Nat) (new : Nat) (cause : Nat) : (journalChange s prev new cause).gov = s.gov := (journalChange_keeps (mk := 1048576) (Keeps.refl s) (by decide)).gov (by decide)
@[simp] theorem journalChange_lanes (s : State) (prev : Nat) (new : Nat) (cause : Nat) : (journalChange s prev new cause).lanes = s.lanes := (journalChange_keeps (mk := 1048576) (Keeps.refl s) (by decide)).lanes (by decide)
@[simp] theorem journalChange_weft (s : State) (prev : Nat) (new : Nat) (cause : Nat) : (journalChange s prev new cause).weft = s.weft := (journalChange_keeps (mk := 1048576) (Keeps.refl s) (by decide)).weft (by decide)
@[simp] theorem journalChange_warp (s : State) (prev : Nat) (new : Nat) (cause : Nat) : (journalChange s prev new cause).warp = s.warp := (journalChange_keeps (mk := 1048576) (Keeps.refl s) (by decide)).warp (by decide)
@[simp] theorem journalChange_loom (s : State) (prev : Nat) (new : Nat) (cause : Nat) : (journalChange s prev new cause).loom = s.loom := (journalChange_keeps (mk := 1048576) (Keeps.refl s) (by decide)).loom (by decide)
@[simp] theorem journalChange_fab (s : State) (prev : Nat) (new : Nat) (cause : Nat) : (journalChange s prev new cause).fab = s.fab := (journalChange_keeps (mk := 1048576) (Keeps.refl s) (by decide)).fab (by decide)
@[simp] theorem journalChange_shu (s : State) (prev : Nat) (new : Nat) (cause : Nat) : (journalChange s prev new cause).shu = s.shu := (journalChange_keeps (mk := 1048576) (Keeps.refl s) (by decide)).shu (by decide)
@[simp] theorem journalChange_win (s : State) (prev : Nat) (new : Nat) (cause : Nat) : (journalChange s prev new cause).win = s.win := (journalChange_keeps (mk := 1048576) (Keeps.refl s) (by decide)).win (by decide)
@[simp] theorem journalChange_eng (s : State) (prev : Nat) (new : Nat) (cause : Nat) : (journalChange s prev new cause).eng = s.eng := (journalChange_keeps (mk := 1048576) (Keeps.refl s) (by decide)).eng (by decide)
@[simp] theorem journalChange_hed (s : State) (prev : Nat) (new : Nat) (cause : Nat) : (journalChange s prev new cause).hed = s.hed := (journalChange_keeps (mk := 1048576) (Keeps.refl s) (by decide)).hed (by decide)
@[simp] theorem journalChange_sel (s : State) (prev : Nat) (new : Nat) (cause : Nat) : (journalChange s prev new cause).sel = s.sel := (journalChange_keeps (mk := 1048576) (Keeps.refl s) (by decide)).sel (by decide)
@[simp] theorem journalChange_twin (s : State) (prev : Nat) (new : Nat) (cause : Nat) : (journalChange s prev new cause).twin = s.twin := (journalChange_keeps (mk := 1048576) (Keeps.refl s) (by decide)).twin (by decide)
@[simp] theorem journalChange_dob (s : State) (prev : Nat) (new : Nat) (cause : Nat) : (journalChange s prev new cause).dob = s.dob := (journalChange_keeps (mk := 1048576) (Keeps.refl s) (by decide)).dob (by decide)
@[simp] theorem journalChange_mgmt (s : State) (prev : Nat) (new : Nat) (cause : Nat) : (journalChange s prev new cause).mgmt = s.mgmt := (journalChange_keeps (mk := 1048576) (Keeps.refl s) (by decide)).mgmt (by decide)
@[simp] theorem journalChange_vault (s : State) (prev : Nat) (new : Nat) (cause : Nat) : (journalChange s prev new cause).vault = s.vault := (journalChange_keeps (mk := 1048576) (Keeps.refl s) (by decide)).vault (by decide)
@[simp] theorem journalChange_host (s : State) (prev : Nat) (new : Nat) (cause : Nat) : (journalChange s prev new cause).host = s.host := (journalChange_keeps (mk := 1048576) (Keeps.refl s) (by decide)).host (by decide)
@[simp] theorem journalChange_beam (s : State) (prev : Nat) (new : Nat) (cause : Nat) : (journalChange s prev new cause).beam = s.beam := (journalChange_keeps (mk := 1048576) (Keeps.refl s) (by decide)).beam (by decide)

@[simp] theorem setPortLanes_pending (s : State) (p : Nat) (f : LaneState → LaneState) : (setPortLanes s p f).pending = s.pending := (setPortLanes_keeps (mk := 64) (Keeps.refl s) (by decide)).pending
@[simp] theorem setPortLanes_now (s : State) (p : Nat) (f : LaneState → LaneState) : (setPortLanes s p f).now = s.now := (setPortLanes_keeps (mk := 64) (Keeps.refl s) (by decide)).now
@[simp] theorem setPortLanes_ft (s : State) (p : Nat) (f : LaneState → LaneState) : (setPortLanes s p f).ft = s.ft := (setPortLanes_keeps (mk := 64) (Keeps.refl s) (by decide)).ft (by decide)
@[simp] theorem setPortLanes_cfg (s : State) (p : Nat) (f : LaneState → LaneState) : (setPortLanes s p f).cfg = s.cfg := (setPortLanes_keeps (mk := 64) (Keeps.refl s) (by decide)).cfg (by decide)
@[simp] theorem setPortLanes_flash (s : State) (p : Nat) (f : LaneState → LaneState) : (setPortLanes s p f).flash = s.flash := (setPortLanes_keeps (mk := 64) (Keeps.refl s) (by decide)).flash (by decide)
@[simp] theorem setPortLanes_module (s : State) (p : Nat) (f : LaneState → LaneState) : (setPortLanes s p f).module = s.module := (setPortLanes_keeps (mk := 64) (Keeps.refl s) (by decide)).module (by decide)
@[simp] theorem setPortLanes_power (s : State) (p : Nat) (f : LaneState → LaneState) : (setPortLanes s p f).power = s.power := (setPortLanes_keeps (mk := 64) (Keeps.refl s) (by decide)).power (by decide)
@[simp] theorem setPortLanes_gov (s : State) (p : Nat) (f : LaneState → LaneState) : (setPortLanes s p f).gov = s.gov := (setPortLanes_keeps (mk := 64) (Keeps.refl s) (by decide)).gov (by decide)
@[simp] theorem setPortLanes_weft (s : State) (p : Nat) (f : LaneState → LaneState) : (setPortLanes s p f).weft = s.weft := (setPortLanes_keeps (mk := 64) (Keeps.refl s) (by decide)).weft (by decide)
@[simp] theorem setPortLanes_warp (s : State) (p : Nat) (f : LaneState → LaneState) : (setPortLanes s p f).warp = s.warp := (setPortLanes_keeps (mk := 64) (Keeps.refl s) (by decide)).warp (by decide)
@[simp] theorem setPortLanes_loom (s : State) (p : Nat) (f : LaneState → LaneState) : (setPortLanes s p f).loom = s.loom := (setPortLanes_keeps (mk := 64) (Keeps.refl s) (by decide)).loom (by decide)
@[simp] theorem setPortLanes_fab (s : State) (p : Nat) (f : LaneState → LaneState) : (setPortLanes s p f).fab = s.fab := (setPortLanes_keeps (mk := 64) (Keeps.refl s) (by decide)).fab (by decide)
@[simp] theorem setPortLanes_shu (s : State) (p : Nat) (f : LaneState → LaneState) : (setPortLanes s p f).shu = s.shu := (setPortLanes_keeps (mk := 64) (Keeps.refl s) (by decide)).shu (by decide)
@[simp] theorem setPortLanes_win (s : State) (p : Nat) (f : LaneState → LaneState) : (setPortLanes s p f).win = s.win := (setPortLanes_keeps (mk := 64) (Keeps.refl s) (by decide)).win (by decide)
@[simp] theorem setPortLanes_eng (s : State) (p : Nat) (f : LaneState → LaneState) : (setPortLanes s p f).eng = s.eng := (setPortLanes_keeps (mk := 64) (Keeps.refl s) (by decide)).eng (by decide)
@[simp] theorem setPortLanes_hed (s : State) (p : Nat) (f : LaneState → LaneState) : (setPortLanes s p f).hed = s.hed := (setPortLanes_keeps (mk := 64) (Keeps.refl s) (by decide)).hed (by decide)
@[simp] theorem setPortLanes_sel (s : State) (p : Nat) (f : LaneState → LaneState) : (setPortLanes s p f).sel = s.sel := (setPortLanes_keeps (mk := 64) (Keeps.refl s) (by decide)).sel (by decide)
@[simp] theorem setPortLanes_twin (s : State) (p : Nat) (f : LaneState → LaneState) : (setPortLanes s p f).twin = s.twin := (setPortLanes_keeps (mk := 64) (Keeps.refl s) (by decide)).twin (by decide)
@[simp] theorem setPortLanes_dob (s : State) (p : Nat) (f : LaneState → LaneState) : (setPortLanes s p f).dob = s.dob := (setPortLanes_keeps (mk := 64) (Keeps.refl s) (by decide)).dob (by decide)
@[simp] theorem setPortLanes_mgmt (s : State) (p : Nat) (f : LaneState → LaneState) : (setPortLanes s p f).mgmt = s.mgmt := (setPortLanes_keeps (mk := 64) (Keeps.refl s) (by decide)).mgmt (by decide)
@[simp] theorem setPortLanes_vault (s : State) (p : Nat) (f : LaneState → LaneState) : (setPortLanes s p f).vault = s.vault := (setPortLanes_keeps (mk := 64) (Keeps.refl s) (by decide)).vault (by decide)
@[simp] theorem setPortLanes_obs (s : State) (p : Nat) (f : LaneState → LaneState) : (setPortLanes s p f).obs = s.obs := (setPortLanes_keeps (mk := 64) (Keeps.refl s) (by decide)).obs (by decide)
@[simp] theorem setPortLanes_host (s : State) (p : Nat) (f : LaneState → LaneState) : (setPortLanes s p f).host = s.host := (setPortLanes_keeps (mk := 64) (Keeps.refl s) (by decide)).host (by decide)
@[simp] theorem setPortLanes_beam (s : State) (p : Nat) (f : LaneState → LaneState) : (setPortLanes s p f).beam = s.beam := (setPortLanes_keeps (mk := 64) (Keeps.refl s) (by decide)).beam (by decide)

@[simp] theorem count_pending (s : State) (c : Nat) (n : Nat) : (count s c n).pending = s.pending := (count_keeps (mk := 1048576) (Keeps.refl s) (by decide)).pending
@[simp] theorem count_now (s : State) (c : Nat) (n : Nat) : (count s c n).now = s.now := (count_keeps (mk := 1048576) (Keeps.refl s) (by decide)).now
@[simp] theorem count_ft (s : State) (c : Nat) (n : Nat) : (count s c n).ft = s.ft := (count_keeps (mk := 1048576) (Keeps.refl s) (by decide)).ft (by decide)
@[simp] theorem count_cfg (s : State) (c : Nat) (n : Nat) : (count s c n).cfg = s.cfg := (count_keeps (mk := 1048576) (Keeps.refl s) (by decide)).cfg (by decide)
@[simp] theorem count_flash (s : State) (c : Nat) (n : Nat) : (count s c n).flash = s.flash := (count_keeps (mk := 1048576) (Keeps.refl s) (by decide)).flash (by decide)
@[simp] theorem count_module (s : State) (c : Nat) (n : Nat) : (count s c n).module = s.module := (count_keeps (mk := 1048576) (Keeps.refl s) (by decide)).module (by decide)
@[simp] theorem count_power (s : State) (c : Nat) (n : Nat) : (count s c n).power = s.power := (count_keeps (mk := 1048576) (Keeps.refl s) (by decide)).power (by decide)
@[simp] theorem count_gov (s : State) (c : Nat) (n : Nat) : (count s c n).gov = s.gov := (count_keeps (mk := 1048576) (Keeps.refl s) (by decide)).gov (by decide)
@[simp] theorem count_lanes (s : State) (c : Nat) (n : Nat) : (count s c n).lanes = s.lanes := (count_keeps (mk := 1048576) (Keeps.refl s) (by decide)).lanes (by decide)
@[simp] theorem count_weft (s : State) (c : Nat) (n : Nat) : (count s c n).weft = s.weft := (count_keeps (mk := 1048576) (Keeps.refl s) (by decide)).weft (by decide)
@[simp] theorem count_warp (s : State) (c : Nat) (n : Nat) : (count s c n).warp = s.warp := (count_keeps (mk := 1048576) (Keeps.refl s) (by decide)).warp (by decide)
@[simp] theorem count_loom (s : State) (c : Nat) (n : Nat) : (count s c n).loom = s.loom := (count_keeps (mk := 1048576) (Keeps.refl s) (by decide)).loom (by decide)
@[simp] theorem count_fab (s : State) (c : Nat) (n : Nat) : (count s c n).fab = s.fab := (count_keeps (mk := 1048576) (Keeps.refl s) (by decide)).fab (by decide)
@[simp] theorem count_shu (s : State) (c : Nat) (n : Nat) : (count s c n).shu = s.shu := (count_keeps (mk := 1048576) (Keeps.refl s) (by decide)).shu (by decide)
@[simp] theorem count_win (s : State) (c : Nat) (n : Nat) : (count s c n).win = s.win := (count_keeps (mk := 1048576) (Keeps.refl s) (by decide)).win (by decide)
@[simp] theorem count_eng (s : State) (c : Nat) (n : Nat) : (count s c n).eng = s.eng := (count_keeps (mk := 1048576) (Keeps.refl s) (by decide)).eng (by decide)
@[simp] theorem count_hed (s : State) (c : Nat) (n : Nat) : (count s c n).hed = s.hed := (count_keeps (mk := 1048576) (Keeps.refl s) (by decide)).hed (by decide)
@[simp] theorem count_sel (s : State) (c : Nat) (n : Nat) : (count s c n).sel = s.sel := (count_keeps (mk := 1048576) (Keeps.refl s) (by decide)).sel (by decide)
@[simp] theorem count_twin (s : State) (c : Nat) (n : Nat) : (count s c n).twin = s.twin := (count_keeps (mk := 1048576) (Keeps.refl s) (by decide)).twin (by decide)
@[simp] theorem count_dob (s : State) (c : Nat) (n : Nat) : (count s c n).dob = s.dob := (count_keeps (mk := 1048576) (Keeps.refl s) (by decide)).dob (by decide)
@[simp] theorem count_mgmt (s : State) (c : Nat) (n : Nat) : (count s c n).mgmt = s.mgmt := (count_keeps (mk := 1048576) (Keeps.refl s) (by decide)).mgmt (by decide)
@[simp] theorem count_vault (s : State) (c : Nat) (n : Nat) : (count s c n).vault = s.vault := (count_keeps (mk := 1048576) (Keeps.refl s) (by decide)).vault (by decide)
@[simp] theorem count_host (s : State) (c : Nat) (n : Nat) : (count s c n).host = s.host := (count_keeps (mk := 1048576) (Keeps.refl s) (by decide)).host (by decide)
@[simp] theorem count_beam (s : State) (c : Nat) (n : Nat) : (count s c n).beam = s.beam := (count_keeps (mk := 1048576) (Keeps.refl s) (by decide)).beam (by decide)

@[simp] theorem event_pending (s : State) (code : Nat) (inst : Nat) (info : Nat) : (event s code inst info).pending = s.pending := (event_keeps (mk := 7364608) (Keeps.refl s) (by decide)).pending
@[simp] theorem event_now (s : State) (code : Nat) (inst : Nat) (info : Nat) : (event s code inst info).now = s.now := (event_keeps (mk := 7364608) (Keeps.refl s) (by decide)).now
@[simp] theorem event_ft (s : State) (code : Nat) (inst : Nat) (info : Nat) : (event s code inst info).ft = s.ft := (event_keeps (mk := 7364608) (Keeps.refl s) (by decide)).ft (by decide)
@[simp] theorem event_cfg (s : State) (code : Nat) (inst : Nat) (info : Nat) : (event s code inst info).cfg = s.cfg := (event_keeps (mk := 7364608) (Keeps.refl s) (by decide)).cfg (by decide)
@[simp] theorem event_flash (s : State) (code : Nat) (inst : Nat) (info : Nat) : (event s code inst info).flash = s.flash := (event_keeps (mk := 7364608) (Keeps.refl s) (by decide)).flash (by decide)
@[simp] theorem event_module (s : State) (code : Nat) (inst : Nat) (info : Nat) : (event s code inst info).module = s.module := (event_keeps (mk := 7364608) (Keeps.refl s) (by decide)).module (by decide)
@[simp] theorem event_power (s : State) (code : Nat) (inst : Nat) (info : Nat) : (event s code inst info).power = s.power := (event_keeps (mk := 7364608) (Keeps.refl s) (by decide)).power (by decide)
@[simp] theorem event_gov (s : State) (code : Nat) (inst : Nat) (info : Nat) : (event s code inst info).gov = s.gov := (event_keeps (mk := 7364608) (Keeps.refl s) (by decide)).gov (by decide)
@[simp] theorem event_lanes (s : State) (code : Nat) (inst : Nat) (info : Nat) : (event s code inst info).lanes = s.lanes := (event_keeps (mk := 7364608) (Keeps.refl s) (by decide)).lanes (by decide)
@[simp] theorem event_weft (s : State) (code : Nat) (inst : Nat) (info : Nat) : (event s code inst info).weft = s.weft := (event_keeps (mk := 7364608) (Keeps.refl s) (by decide)).weft (by decide)
@[simp] theorem event_warp (s : State) (code : Nat) (inst : Nat) (info : Nat) : (event s code inst info).warp = s.warp := (event_keeps (mk := 7364608) (Keeps.refl s) (by decide)).warp (by decide)
@[simp] theorem event_loom (s : State) (code : Nat) (inst : Nat) (info : Nat) : (event s code inst info).loom = s.loom := (event_keeps (mk := 7364608) (Keeps.refl s) (by decide)).loom (by decide)
@[simp] theorem event_fab (s : State) (code : Nat) (inst : Nat) (info : Nat) : (event s code inst info).fab = s.fab := (event_keeps (mk := 7364608) (Keeps.refl s) (by decide)).fab (by decide)
@[simp] theorem event_shu (s : State) (code : Nat) (inst : Nat) (info : Nat) : (event s code inst info).shu = s.shu := (event_keeps (mk := 7364608) (Keeps.refl s) (by decide)).shu (by decide)
@[simp] theorem event_win (s : State) (code : Nat) (inst : Nat) (info : Nat) : (event s code inst info).win = s.win := (event_keeps (mk := 7364608) (Keeps.refl s) (by decide)).win (by decide)
@[simp] theorem event_sel (s : State) (code : Nat) (inst : Nat) (info : Nat) : (event s code inst info).sel = s.sel := (event_keeps (mk := 7364608) (Keeps.refl s) (by decide)).sel (by decide)
@[simp] theorem event_twin (s : State) (code : Nat) (inst : Nat) (info : Nat) : (event s code inst info).twin = s.twin := (event_keeps (mk := 7364608) (Keeps.refl s) (by decide)).twin (by decide)
@[simp] theorem event_dob (s : State) (code : Nat) (inst : Nat) (info : Nat) : (event s code inst info).dob = s.dob := (event_keeps (mk := 7364608) (Keeps.refl s) (by decide)).dob (by decide)
@[simp] theorem event_mgmt (s : State) (code : Nat) (inst : Nat) (info : Nat) : (event s code inst info).mgmt = s.mgmt := (event_keeps (mk := 7364608) (Keeps.refl s) (by decide)).mgmt (by decide)
@[simp] theorem event_vault (s : State) (code : Nat) (inst : Nat) (info : Nat) : (event s code inst info).vault = s.vault := (event_keeps (mk := 7364608) (Keeps.refl s) (by decide)).vault (by decide)

@[simp] theorem eventIn_pending (s : State) (part : Option Nat) (code : Nat) (inst : Nat) (info : Nat) : (eventIn s part code inst info).pending = s.pending := (eventIn_keeps (mk := 7364608) (Keeps.refl s) (by decide)).pending
@[simp] theorem eventIn_now (s : State) (part : Option Nat) (code : Nat) (inst : Nat) (info : Nat) : (eventIn s part code inst info).now = s.now := (eventIn_keeps (mk := 7364608) (Keeps.refl s) (by decide)).now
@[simp] theorem eventIn_ft (s : State) (part : Option Nat) (code : Nat) (inst : Nat) (info : Nat) : (eventIn s part code inst info).ft = s.ft := (eventIn_keeps (mk := 7364608) (Keeps.refl s) (by decide)).ft (by decide)
@[simp] theorem eventIn_cfg (s : State) (part : Option Nat) (code : Nat) (inst : Nat) (info : Nat) : (eventIn s part code inst info).cfg = s.cfg := (eventIn_keeps (mk := 7364608) (Keeps.refl s) (by decide)).cfg (by decide)
@[simp] theorem eventIn_flash (s : State) (part : Option Nat) (code : Nat) (inst : Nat) (info : Nat) : (eventIn s part code inst info).flash = s.flash := (eventIn_keeps (mk := 7364608) (Keeps.refl s) (by decide)).flash (by decide)
@[simp] theorem eventIn_module (s : State) (part : Option Nat) (code : Nat) (inst : Nat) (info : Nat) : (eventIn s part code inst info).module = s.module := (eventIn_keeps (mk := 7364608) (Keeps.refl s) (by decide)).module (by decide)
@[simp] theorem eventIn_power (s : State) (part : Option Nat) (code : Nat) (inst : Nat) (info : Nat) : (eventIn s part code inst info).power = s.power := (eventIn_keeps (mk := 7364608) (Keeps.refl s) (by decide)).power (by decide)
@[simp] theorem eventIn_gov (s : State) (part : Option Nat) (code : Nat) (inst : Nat) (info : Nat) : (eventIn s part code inst info).gov = s.gov := (eventIn_keeps (mk := 7364608) (Keeps.refl s) (by decide)).gov (by decide)
@[simp] theorem eventIn_lanes (s : State) (part : Option Nat) (code : Nat) (inst : Nat) (info : Nat) : (eventIn s part code inst info).lanes = s.lanes := (eventIn_keeps (mk := 7364608) (Keeps.refl s) (by decide)).lanes (by decide)
@[simp] theorem eventIn_weft (s : State) (part : Option Nat) (code : Nat) (inst : Nat) (info : Nat) : (eventIn s part code inst info).weft = s.weft := (eventIn_keeps (mk := 7364608) (Keeps.refl s) (by decide)).weft (by decide)
@[simp] theorem eventIn_warp (s : State) (part : Option Nat) (code : Nat) (inst : Nat) (info : Nat) : (eventIn s part code inst info).warp = s.warp := (eventIn_keeps (mk := 7364608) (Keeps.refl s) (by decide)).warp (by decide)
@[simp] theorem eventIn_loom (s : State) (part : Option Nat) (code : Nat) (inst : Nat) (info : Nat) : (eventIn s part code inst info).loom = s.loom := (eventIn_keeps (mk := 7364608) (Keeps.refl s) (by decide)).loom (by decide)
@[simp] theorem eventIn_fab (s : State) (part : Option Nat) (code : Nat) (inst : Nat) (info : Nat) : (eventIn s part code inst info).fab = s.fab := (eventIn_keeps (mk := 7364608) (Keeps.refl s) (by decide)).fab (by decide)
@[simp] theorem eventIn_shu (s : State) (part : Option Nat) (code : Nat) (inst : Nat) (info : Nat) : (eventIn s part code inst info).shu = s.shu := (eventIn_keeps (mk := 7364608) (Keeps.refl s) (by decide)).shu (by decide)
@[simp] theorem eventIn_win (s : State) (part : Option Nat) (code : Nat) (inst : Nat) (info : Nat) : (eventIn s part code inst info).win = s.win := (eventIn_keeps (mk := 7364608) (Keeps.refl s) (by decide)).win (by decide)
@[simp] theorem eventIn_sel (s : State) (part : Option Nat) (code : Nat) (inst : Nat) (info : Nat) : (eventIn s part code inst info).sel = s.sel := (eventIn_keeps (mk := 7364608) (Keeps.refl s) (by decide)).sel (by decide)
@[simp] theorem eventIn_twin (s : State) (part : Option Nat) (code : Nat) (inst : Nat) (info : Nat) : (eventIn s part code inst info).twin = s.twin := (eventIn_keeps (mk := 7364608) (Keeps.refl s) (by decide)).twin (by decide)
@[simp] theorem eventIn_dob (s : State) (part : Option Nat) (code : Nat) (inst : Nat) (info : Nat) : (eventIn s part code inst info).dob = s.dob := (eventIn_keeps (mk := 7364608) (Keeps.refl s) (by decide)).dob (by decide)
@[simp] theorem eventIn_mgmt (s : State) (part : Option Nat) (code : Nat) (inst : Nat) (info : Nat) : (eventIn s part code inst info).mgmt = s.mgmt := (eventIn_keeps (mk := 7364608) (Keeps.refl s) (by decide)).mgmt (by decide)
@[simp] theorem eventIn_vault (s : State) (part : Option Nat) (code : Nat) (inst : Nat) (info : Nat) : (eventIn s part code inst info).vault = s.vault := (eventIn_keeps (mk := 7364608) (Keeps.refl s) (by decide)).vault (by decide)

@[simp] theorem eventFull_pending (s : State) (code : Nat) (inst : Nat) (sev : Nat) (part : Option Nat) (paired : Bool) (info : Nat) : (eventFull s code inst sev part paired info).pending = s.pending := (eventFull_keeps (mk := 7364608) (Keeps.refl s) (by decide)).pending
@[simp] theorem eventFull_now (s : State) (code : Nat) (inst : Nat) (sev : Nat) (part : Option Nat) (paired : Bool) (info : Nat) : (eventFull s code inst sev part paired info).now = s.now := (eventFull_keeps (mk := 7364608) (Keeps.refl s) (by decide)).now
@[simp] theorem eventFull_ft (s : State) (code : Nat) (inst : Nat) (sev : Nat) (part : Option Nat) (paired : Bool) (info : Nat) : (eventFull s code inst sev part paired info).ft = s.ft := (eventFull_keeps (mk := 7364608) (Keeps.refl s) (by decide)).ft (by decide)
@[simp] theorem eventFull_cfg (s : State) (code : Nat) (inst : Nat) (sev : Nat) (part : Option Nat) (paired : Bool) (info : Nat) : (eventFull s code inst sev part paired info).cfg = s.cfg := (eventFull_keeps (mk := 7364608) (Keeps.refl s) (by decide)).cfg (by decide)
@[simp] theorem eventFull_flash (s : State) (code : Nat) (inst : Nat) (sev : Nat) (part : Option Nat) (paired : Bool) (info : Nat) : (eventFull s code inst sev part paired info).flash = s.flash := (eventFull_keeps (mk := 7364608) (Keeps.refl s) (by decide)).flash (by decide)
@[simp] theorem eventFull_module (s : State) (code : Nat) (inst : Nat) (sev : Nat) (part : Option Nat) (paired : Bool) (info : Nat) : (eventFull s code inst sev part paired info).module = s.module := (eventFull_keeps (mk := 7364608) (Keeps.refl s) (by decide)).module (by decide)
@[simp] theorem eventFull_power (s : State) (code : Nat) (inst : Nat) (sev : Nat) (part : Option Nat) (paired : Bool) (info : Nat) : (eventFull s code inst sev part paired info).power = s.power := (eventFull_keeps (mk := 7364608) (Keeps.refl s) (by decide)).power (by decide)
@[simp] theorem eventFull_gov (s : State) (code : Nat) (inst : Nat) (sev : Nat) (part : Option Nat) (paired : Bool) (info : Nat) : (eventFull s code inst sev part paired info).gov = s.gov := (eventFull_keeps (mk := 7364608) (Keeps.refl s) (by decide)).gov (by decide)
@[simp] theorem eventFull_lanes (s : State) (code : Nat) (inst : Nat) (sev : Nat) (part : Option Nat) (paired : Bool) (info : Nat) : (eventFull s code inst sev part paired info).lanes = s.lanes := (eventFull_keeps (mk := 7364608) (Keeps.refl s) (by decide)).lanes (by decide)
@[simp] theorem eventFull_weft (s : State) (code : Nat) (inst : Nat) (sev : Nat) (part : Option Nat) (paired : Bool) (info : Nat) : (eventFull s code inst sev part paired info).weft = s.weft := (eventFull_keeps (mk := 7364608) (Keeps.refl s) (by decide)).weft (by decide)
@[simp] theorem eventFull_warp (s : State) (code : Nat) (inst : Nat) (sev : Nat) (part : Option Nat) (paired : Bool) (info : Nat) : (eventFull s code inst sev part paired info).warp = s.warp := (eventFull_keeps (mk := 7364608) (Keeps.refl s) (by decide)).warp (by decide)
@[simp] theorem eventFull_loom (s : State) (code : Nat) (inst : Nat) (sev : Nat) (part : Option Nat) (paired : Bool) (info : Nat) : (eventFull s code inst sev part paired info).loom = s.loom := (eventFull_keeps (mk := 7364608) (Keeps.refl s) (by decide)).loom (by decide)
@[simp] theorem eventFull_fab (s : State) (code : Nat) (inst : Nat) (sev : Nat) (part : Option Nat) (paired : Bool) (info : Nat) : (eventFull s code inst sev part paired info).fab = s.fab := (eventFull_keeps (mk := 7364608) (Keeps.refl s) (by decide)).fab (by decide)
@[simp] theorem eventFull_shu (s : State) (code : Nat) (inst : Nat) (sev : Nat) (part : Option Nat) (paired : Bool) (info : Nat) : (eventFull s code inst sev part paired info).shu = s.shu := (eventFull_keeps (mk := 7364608) (Keeps.refl s) (by decide)).shu (by decide)
@[simp] theorem eventFull_win (s : State) (code : Nat) (inst : Nat) (sev : Nat) (part : Option Nat) (paired : Bool) (info : Nat) : (eventFull s code inst sev part paired info).win = s.win := (eventFull_keeps (mk := 7364608) (Keeps.refl s) (by decide)).win (by decide)
@[simp] theorem eventFull_sel (s : State) (code : Nat) (inst : Nat) (sev : Nat) (part : Option Nat) (paired : Bool) (info : Nat) : (eventFull s code inst sev part paired info).sel = s.sel := (eventFull_keeps (mk := 7364608) (Keeps.refl s) (by decide)).sel (by decide)
@[simp] theorem eventFull_twin (s : State) (code : Nat) (inst : Nat) (sev : Nat) (part : Option Nat) (paired : Bool) (info : Nat) : (eventFull s code inst sev part paired info).twin = s.twin := (eventFull_keeps (mk := 7364608) (Keeps.refl s) (by decide)).twin (by decide)
@[simp] theorem eventFull_dob (s : State) (code : Nat) (inst : Nat) (sev : Nat) (part : Option Nat) (paired : Bool) (info : Nat) : (eventFull s code inst sev part paired info).dob = s.dob := (eventFull_keeps (mk := 7364608) (Keeps.refl s) (by decide)).dob (by decide)
@[simp] theorem eventFull_mgmt (s : State) (code : Nat) (inst : Nat) (sev : Nat) (part : Option Nat) (paired : Bool) (info : Nat) : (eventFull s code inst sev part paired info).mgmt = s.mgmt := (eventFull_keeps (mk := 7364608) (Keeps.refl s) (by decide)).mgmt (by decide)
@[simp] theorem eventFull_vault (s : State) (code : Nat) (inst : Nat) (sev : Nat) (part : Option Nat) (paired : Bool) (info : Nat) : (eventFull s code inst sev part paired info).vault = s.vault := (eventFull_keeps (mk := 7364608) (Keeps.refl s) (by decide)).vault (by decide)

@[simp] theorem privCount_pending (s : State) (c : Nat) : (privCount s c).pending = s.pending := (privCount_keeps (mk := 7364608) (Keeps.refl s) (by decide)).pending
@[simp] theorem privCount_now (s : State) (c : Nat) : (privCount s c).now = s.now := (privCount_keeps (mk := 7364608) (Keeps.refl s) (by decide)).now
@[simp] theorem privCount_ft (s : State) (c : Nat) : (privCount s c).ft = s.ft := (privCount_keeps (mk := 7364608) (Keeps.refl s) (by decide)).ft (by decide)
@[simp] theorem privCount_cfg (s : State) (c : Nat) : (privCount s c).cfg = s.cfg := (privCount_keeps (mk := 7364608) (Keeps.refl s) (by decide)).cfg (by decide)
@[simp] theorem privCount_flash (s : State) (c : Nat) : (privCount s c).flash = s.flash := (privCount_keeps (mk := 7364608) (Keeps.refl s) (by decide)).flash (by decide)
@[simp] theorem privCount_module (s : State) (c : Nat) : (privCount s c).module = s.module := (privCount_keeps (mk := 7364608) (Keeps.refl s) (by decide)).module (by decide)
@[simp] theorem privCount_power (s : State) (c : Nat) : (privCount s c).power = s.power := (privCount_keeps (mk := 7364608) (Keeps.refl s) (by decide)).power (by decide)
@[simp] theorem privCount_gov (s : State) (c : Nat) : (privCount s c).gov = s.gov := (privCount_keeps (mk := 7364608) (Keeps.refl s) (by decide)).gov (by decide)
@[simp] theorem privCount_lanes (s : State) (c : Nat) : (privCount s c).lanes = s.lanes := (privCount_keeps (mk := 7364608) (Keeps.refl s) (by decide)).lanes (by decide)
@[simp] theorem privCount_weft (s : State) (c : Nat) : (privCount s c).weft = s.weft := (privCount_keeps (mk := 7364608) (Keeps.refl s) (by decide)).weft (by decide)
@[simp] theorem privCount_warp (s : State) (c : Nat) : (privCount s c).warp = s.warp := (privCount_keeps (mk := 7364608) (Keeps.refl s) (by decide)).warp (by decide)
@[simp] theorem privCount_loom (s : State) (c : Nat) : (privCount s c).loom = s.loom := (privCount_keeps (mk := 7364608) (Keeps.refl s) (by decide)).loom (by decide)
@[simp] theorem privCount_fab (s : State) (c : Nat) : (privCount s c).fab = s.fab := (privCount_keeps (mk := 7364608) (Keeps.refl s) (by decide)).fab (by decide)
@[simp] theorem privCount_shu (s : State) (c : Nat) : (privCount s c).shu = s.shu := (privCount_keeps (mk := 7364608) (Keeps.refl s) (by decide)).shu (by decide)
@[simp] theorem privCount_win (s : State) (c : Nat) : (privCount s c).win = s.win := (privCount_keeps (mk := 7364608) (Keeps.refl s) (by decide)).win (by decide)
@[simp] theorem privCount_sel (s : State) (c : Nat) : (privCount s c).sel = s.sel := (privCount_keeps (mk := 7364608) (Keeps.refl s) (by decide)).sel (by decide)
@[simp] theorem privCount_twin (s : State) (c : Nat) : (privCount s c).twin = s.twin := (privCount_keeps (mk := 7364608) (Keeps.refl s) (by decide)).twin (by decide)
@[simp] theorem privCount_dob (s : State) (c : Nat) : (privCount s c).dob = s.dob := (privCount_keeps (mk := 7364608) (Keeps.refl s) (by decide)).dob (by decide)
@[simp] theorem privCount_mgmt (s : State) (c : Nat) : (privCount s c).mgmt = s.mgmt := (privCount_keeps (mk := 7364608) (Keeps.refl s) (by decide)).mgmt (by decide)
@[simp] theorem privCount_vault (s : State) (c : Nat) : (privCount s c).vault = s.vault := (privCount_keeps (mk := 7364608) (Keeps.refl s) (by decide)).vault (by decide)

@[simp] theorem journalAction_pending (s : State) (sess : Nat) (index : Nat) (sub : Nat) (v : Nat) : (journalAction s sess index sub v).pending = s.pending := (journalAction_keeps (mk := 1048576) (Keeps.refl s) (by decide)).pending
@[simp] theorem journalAction_now (s : State) (sess : Nat) (index : Nat) (sub : Nat) (v : Nat) : (journalAction s sess index sub v).now = s.now := (journalAction_keeps (mk := 1048576) (Keeps.refl s) (by decide)).now
@[simp] theorem journalAction_ft (s : State) (sess : Nat) (index : Nat) (sub : Nat) (v : Nat) : (journalAction s sess index sub v).ft = s.ft := (journalAction_keeps (mk := 1048576) (Keeps.refl s) (by decide)).ft (by decide)
@[simp] theorem journalAction_cfg (s : State) (sess : Nat) (index : Nat) (sub : Nat) (v : Nat) : (journalAction s sess index sub v).cfg = s.cfg := (journalAction_keeps (mk := 1048576) (Keeps.refl s) (by decide)).cfg (by decide)
@[simp] theorem journalAction_flash (s : State) (sess : Nat) (index : Nat) (sub : Nat) (v : Nat) : (journalAction s sess index sub v).flash = s.flash := (journalAction_keeps (mk := 1048576) (Keeps.refl s) (by decide)).flash (by decide)
@[simp] theorem journalAction_module (s : State) (sess : Nat) (index : Nat) (sub : Nat) (v : Nat) : (journalAction s sess index sub v).module = s.module := (journalAction_keeps (mk := 1048576) (Keeps.refl s) (by decide)).module (by decide)
@[simp] theorem journalAction_power (s : State) (sess : Nat) (index : Nat) (sub : Nat) (v : Nat) : (journalAction s sess index sub v).power = s.power := (journalAction_keeps (mk := 1048576) (Keeps.refl s) (by decide)).power (by decide)
@[simp] theorem journalAction_gov (s : State) (sess : Nat) (index : Nat) (sub : Nat) (v : Nat) : (journalAction s sess index sub v).gov = s.gov := (journalAction_keeps (mk := 1048576) (Keeps.refl s) (by decide)).gov (by decide)
@[simp] theorem journalAction_lanes (s : State) (sess : Nat) (index : Nat) (sub : Nat) (v : Nat) : (journalAction s sess index sub v).lanes = s.lanes := (journalAction_keeps (mk := 1048576) (Keeps.refl s) (by decide)).lanes (by decide)
@[simp] theorem journalAction_weft (s : State) (sess : Nat) (index : Nat) (sub : Nat) (v : Nat) : (journalAction s sess index sub v).weft = s.weft := (journalAction_keeps (mk := 1048576) (Keeps.refl s) (by decide)).weft (by decide)
@[simp] theorem journalAction_warp (s : State) (sess : Nat) (index : Nat) (sub : Nat) (v : Nat) : (journalAction s sess index sub v).warp = s.warp := (journalAction_keeps (mk := 1048576) (Keeps.refl s) (by decide)).warp (by decide)
@[simp] theorem journalAction_loom (s : State) (sess : Nat) (index : Nat) (sub : Nat) (v : Nat) : (journalAction s sess index sub v).loom = s.loom := (journalAction_keeps (mk := 1048576) (Keeps.refl s) (by decide)).loom (by decide)
@[simp] theorem journalAction_fab (s : State) (sess : Nat) (index : Nat) (sub : Nat) (v : Nat) : (journalAction s sess index sub v).fab = s.fab := (journalAction_keeps (mk := 1048576) (Keeps.refl s) (by decide)).fab (by decide)
@[simp] theorem journalAction_shu (s : State) (sess : Nat) (index : Nat) (sub : Nat) (v : Nat) : (journalAction s sess index sub v).shu = s.shu := (journalAction_keeps (mk := 1048576) (Keeps.refl s) (by decide)).shu (by decide)
@[simp] theorem journalAction_win (s : State) (sess : Nat) (index : Nat) (sub : Nat) (v : Nat) : (journalAction s sess index sub v).win = s.win := (journalAction_keeps (mk := 1048576) (Keeps.refl s) (by decide)).win (by decide)
@[simp] theorem journalAction_eng (s : State) (sess : Nat) (index : Nat) (sub : Nat) (v : Nat) : (journalAction s sess index sub v).eng = s.eng := (journalAction_keeps (mk := 1048576) (Keeps.refl s) (by decide)).eng (by decide)
@[simp] theorem journalAction_hed (s : State) (sess : Nat) (index : Nat) (sub : Nat) (v : Nat) : (journalAction s sess index sub v).hed = s.hed := (journalAction_keeps (mk := 1048576) (Keeps.refl s) (by decide)).hed (by decide)
@[simp] theorem journalAction_sel (s : State) (sess : Nat) (index : Nat) (sub : Nat) (v : Nat) : (journalAction s sess index sub v).sel = s.sel := (journalAction_keeps (mk := 1048576) (Keeps.refl s) (by decide)).sel (by decide)
@[simp] theorem journalAction_twin (s : State) (sess : Nat) (index : Nat) (sub : Nat) (v : Nat) : (journalAction s sess index sub v).twin = s.twin := (journalAction_keeps (mk := 1048576) (Keeps.refl s) (by decide)).twin (by decide)
@[simp] theorem journalAction_dob (s : State) (sess : Nat) (index : Nat) (sub : Nat) (v : Nat) : (journalAction s sess index sub v).dob = s.dob := (journalAction_keeps (mk := 1048576) (Keeps.refl s) (by decide)).dob (by decide)
@[simp] theorem journalAction_mgmt (s : State) (sess : Nat) (index : Nat) (sub : Nat) (v : Nat) : (journalAction s sess index sub v).mgmt = s.mgmt := (journalAction_keeps (mk := 1048576) (Keeps.refl s) (by decide)).mgmt (by decide)
@[simp] theorem journalAction_vault (s : State) (sess : Nat) (index : Nat) (sub : Nat) (v : Nat) : (journalAction s sess index sub v).vault = s.vault := (journalAction_keeps (mk := 1048576) (Keeps.refl s) (by decide)).vault (by decide)
@[simp] theorem journalAction_host (s : State) (sess : Nat) (index : Nat) (sub : Nat) (v : Nat) : (journalAction s sess index sub v).host = s.host := (journalAction_keeps (mk := 1048576) (Keeps.refl s) (by decide)).host (by decide)
@[simp] theorem journalAction_beam (s : State) (sess : Nat) (index : Nat) (sub : Nat) (v : Nat) : (journalAction s sess index sub v).beam = s.beam := (journalAction_keeps (mk := 1048576) (Keeps.refl s) (by decide)).beam (by decide)

@[simp] theorem msi_pending (s : State) (v : Nat) (fn : Nat) (vec : Nat) : (msi s v fn vec).pending = s.pending := (msi_keeps (mk := 24576) (Keeps.refl s) (by decide)).pending
@[simp] theorem msi_now (s : State) (v : Nat) (fn : Nat) (vec : Nat) : (msi s v fn vec).now = s.now := (msi_keeps (mk := 24576) (Keeps.refl s) (by decide)).now
@[simp] theorem msi_ft (s : State) (v : Nat) (fn : Nat) (vec : Nat) : (msi s v fn vec).ft = s.ft := (msi_keeps (mk := 24576) (Keeps.refl s) (by decide)).ft (by decide)
@[simp] theorem msi_cfg (s : State) (v : Nat) (fn : Nat) (vec : Nat) : (msi s v fn vec).cfg = s.cfg := (msi_keeps (mk := 24576) (Keeps.refl s) (by decide)).cfg (by decide)
@[simp] theorem msi_flash (s : State) (v : Nat) (fn : Nat) (vec : Nat) : (msi s v fn vec).flash = s.flash := (msi_keeps (mk := 24576) (Keeps.refl s) (by decide)).flash (by decide)
@[simp] theorem msi_module (s : State) (v : Nat) (fn : Nat) (vec : Nat) : (msi s v fn vec).module = s.module := (msi_keeps (mk := 24576) (Keeps.refl s) (by decide)).module (by decide)
@[simp] theorem msi_power (s : State) (v : Nat) (fn : Nat) (vec : Nat) : (msi s v fn vec).power = s.power := (msi_keeps (mk := 24576) (Keeps.refl s) (by decide)).power (by decide)
@[simp] theorem msi_gov (s : State) (v : Nat) (fn : Nat) (vec : Nat) : (msi s v fn vec).gov = s.gov := (msi_keeps (mk := 24576) (Keeps.refl s) (by decide)).gov (by decide)
@[simp] theorem msi_lanes (s : State) (v : Nat) (fn : Nat) (vec : Nat) : (msi s v fn vec).lanes = s.lanes := (msi_keeps (mk := 24576) (Keeps.refl s) (by decide)).lanes (by decide)
@[simp] theorem msi_weft (s : State) (v : Nat) (fn : Nat) (vec : Nat) : (msi s v fn vec).weft = s.weft := (msi_keeps (mk := 24576) (Keeps.refl s) (by decide)).weft (by decide)
@[simp] theorem msi_warp (s : State) (v : Nat) (fn : Nat) (vec : Nat) : (msi s v fn vec).warp = s.warp := (msi_keeps (mk := 24576) (Keeps.refl s) (by decide)).warp (by decide)
@[simp] theorem msi_loom (s : State) (v : Nat) (fn : Nat) (vec : Nat) : (msi s v fn vec).loom = s.loom := (msi_keeps (mk := 24576) (Keeps.refl s) (by decide)).loom (by decide)
@[simp] theorem msi_fab (s : State) (v : Nat) (fn : Nat) (vec : Nat) : (msi s v fn vec).fab = s.fab := (msi_keeps (mk := 24576) (Keeps.refl s) (by decide)).fab (by decide)
@[simp] theorem msi_shu (s : State) (v : Nat) (fn : Nat) (vec : Nat) : (msi s v fn vec).shu = s.shu := (msi_keeps (mk := 24576) (Keeps.refl s) (by decide)).shu (by decide)
@[simp] theorem msi_win (s : State) (v : Nat) (fn : Nat) (vec : Nat) : (msi s v fn vec).win = s.win := (msi_keeps (mk := 24576) (Keeps.refl s) (by decide)).win (by decide)
@[simp] theorem msi_sel (s : State) (v : Nat) (fn : Nat) (vec : Nat) : (msi s v fn vec).sel = s.sel := (msi_keeps (mk := 24576) (Keeps.refl s) (by decide)).sel (by decide)
@[simp] theorem msi_twin (s : State) (v : Nat) (fn : Nat) (vec : Nat) : (msi s v fn vec).twin = s.twin := (msi_keeps (mk := 24576) (Keeps.refl s) (by decide)).twin (by decide)
@[simp] theorem msi_dob (s : State) (v : Nat) (fn : Nat) (vec : Nat) : (msi s v fn vec).dob = s.dob := (msi_keeps (mk := 24576) (Keeps.refl s) (by decide)).dob (by decide)
@[simp] theorem msi_mgmt (s : State) (v : Nat) (fn : Nat) (vec : Nat) : (msi s v fn vec).mgmt = s.mgmt := (msi_keeps (mk := 24576) (Keeps.refl s) (by decide)).mgmt (by decide)
@[simp] theorem msi_vault (s : State) (v : Nat) (fn : Nat) (vec : Nat) : (msi s v fn vec).vault = s.vault := (msi_keeps (mk := 24576) (Keeps.refl s) (by decide)).vault (by decide)
@[simp] theorem msi_obs (s : State) (v : Nat) (fn : Nat) (vec : Nat) : (msi s v fn vec).obs = s.obs := (msi_keeps (mk := 24576) (Keeps.refl s) (by decide)).obs (by decide)
@[simp] theorem msi_host (s : State) (v : Nat) (fn : Nat) (vec : Nat) : (msi s v fn vec).host = s.host := (msi_keeps (mk := 24576) (Keeps.refl s) (by decide)).host (by decide)
@[simp] theorem msi_beam (s : State) (v : Nat) (fn : Nat) (vec : Nat) : (msi s v fn vec).beam = s.beam := (msi_keeps (mk := 24576) (Keeps.refl s) (by decide)).beam (by decide)

@[simp] theorem changeState_pending (s : State) (new : ModState) (cause : Nat) : (changeState s new cause).pending = s.pending := (changeState_keeps (mk := 7364616) (Keeps.refl s) (by decide)).pending
@[simp] theorem changeState_now (s : State) (new : ModState) (cause : Nat) : (changeState s new cause).now = s.now := (changeState_keeps (mk := 7364616) (Keeps.refl s) (by decide)).now
@[simp] theorem changeState_ft (s : State) (new : ModState) (cause : Nat) : (changeState s new cause).ft = s.ft := (changeState_keeps (mk := 7364616) (Keeps.refl s) (by decide)).ft (by decide)
@[simp] theorem changeState_cfg (s : State) (new : ModState) (cause : Nat) : (changeState s new cause).cfg = s.cfg := (changeState_keeps (mk := 7364616) (Keeps.refl s) (by decide)).cfg (by decide)
@[simp] theorem changeState_flash (s : State) (new : ModState) (cause : Nat) : (changeState s new cause).flash = s.flash := (changeState_keeps (mk := 7364616) (Keeps.refl s) (by decide)).flash (by decide)
@[simp] theorem changeState_power (s : State) (new : ModState) (cause : Nat) : (changeState s new cause).power = s.power := (changeState_keeps (mk := 7364616) (Keeps.refl s) (by decide)).power (by decide)
@[simp] theorem changeState_gov (s : State) (new : ModState) (cause : Nat) : (changeState s new cause).gov = s.gov := (changeState_keeps (mk := 7364616) (Keeps.refl s) (by decide)).gov (by decide)
@[simp] theorem changeState_lanes (s : State) (new : ModState) (cause : Nat) : (changeState s new cause).lanes = s.lanes := (changeState_keeps (mk := 7364616) (Keeps.refl s) (by decide)).lanes (by decide)
@[simp] theorem changeState_weft (s : State) (new : ModState) (cause : Nat) : (changeState s new cause).weft = s.weft := (changeState_keeps (mk := 7364616) (Keeps.refl s) (by decide)).weft (by decide)
@[simp] theorem changeState_warp (s : State) (new : ModState) (cause : Nat) : (changeState s new cause).warp = s.warp := (changeState_keeps (mk := 7364616) (Keeps.refl s) (by decide)).warp (by decide)
@[simp] theorem changeState_loom (s : State) (new : ModState) (cause : Nat) : (changeState s new cause).loom = s.loom := (changeState_keeps (mk := 7364616) (Keeps.refl s) (by decide)).loom (by decide)
@[simp] theorem changeState_fab (s : State) (new : ModState) (cause : Nat) : (changeState s new cause).fab = s.fab := (changeState_keeps (mk := 7364616) (Keeps.refl s) (by decide)).fab (by decide)
@[simp] theorem changeState_shu (s : State) (new : ModState) (cause : Nat) : (changeState s new cause).shu = s.shu := (changeState_keeps (mk := 7364616) (Keeps.refl s) (by decide)).shu (by decide)
@[simp] theorem changeState_win (s : State) (new : ModState) (cause : Nat) : (changeState s new cause).win = s.win := (changeState_keeps (mk := 7364616) (Keeps.refl s) (by decide)).win (by decide)
@[simp] theorem changeState_sel (s : State) (new : ModState) (cause : Nat) : (changeState s new cause).sel = s.sel := (changeState_keeps (mk := 7364616) (Keeps.refl s) (by decide)).sel (by decide)
@[simp] theorem changeState_twin (s : State) (new : ModState) (cause : Nat) : (changeState s new cause).twin = s.twin := (changeState_keeps (mk := 7364616) (Keeps.refl s) (by decide)).twin (by decide)
@[simp] theorem changeState_dob (s : State) (new : ModState) (cause : Nat) : (changeState s new cause).dob = s.dob := (changeState_keeps (mk := 7364616) (Keeps.refl s) (by decide)).dob (by decide)
@[simp] theorem changeState_mgmt (s : State) (new : ModState) (cause : Nat) : (changeState s new cause).mgmt = s.mgmt := (changeState_keeps (mk := 7364616) (Keeps.refl s) (by decide)).mgmt (by decide)
@[simp] theorem changeState_vault (s : State) (new : ModState) (cause : Nat) : (changeState s new cause).vault = s.vault := (changeState_keeps (mk := 7364616) (Keeps.refl s) (by decide)).vault (by decide)

@[simp] theorem health_pending (s : State) (cause : Nat) : (health s cause).pending = s.pending := (health_keeps (mk := 7364616) (Keeps.refl s) (by decide)).pending
@[simp] theorem health_now (s : State) (cause : Nat) : (health s cause).now = s.now := (health_keeps (mk := 7364616) (Keeps.refl s) (by decide)).now
@[simp] theorem health_ft (s : State) (cause : Nat) : (health s cause).ft = s.ft := (health_keeps (mk := 7364616) (Keeps.refl s) (by decide)).ft (by decide)
@[simp] theorem health_cfg (s : State) (cause : Nat) : (health s cause).cfg = s.cfg := (health_keeps (mk := 7364616) (Keeps.refl s) (by decide)).cfg (by decide)
@[simp] theorem health_flash (s : State) (cause : Nat) : (health s cause).flash = s.flash := (health_keeps (mk := 7364616) (Keeps.refl s) (by decide)).flash (by decide)
@[simp] theorem health_power (s : State) (cause : Nat) : (health s cause).power = s.power := (health_keeps (mk := 7364616) (Keeps.refl s) (by decide)).power (by decide)
@[simp] theorem health_gov (s : State) (cause : Nat) : (health s cause).gov = s.gov := (health_keeps (mk := 7364616) (Keeps.refl s) (by decide)).gov (by decide)
@[simp] theorem health_lanes (s : State) (cause : Nat) : (health s cause).lanes = s.lanes := (health_keeps (mk := 7364616) (Keeps.refl s) (by decide)).lanes (by decide)
@[simp] theorem health_weft (s : State) (cause : Nat) : (health s cause).weft = s.weft := (health_keeps (mk := 7364616) (Keeps.refl s) (by decide)).weft (by decide)
@[simp] theorem health_warp (s : State) (cause : Nat) : (health s cause).warp = s.warp := (health_keeps (mk := 7364616) (Keeps.refl s) (by decide)).warp (by decide)
@[simp] theorem health_loom (s : State) (cause : Nat) : (health s cause).loom = s.loom := (health_keeps (mk := 7364616) (Keeps.refl s) (by decide)).loom (by decide)
@[simp] theorem health_fab (s : State) (cause : Nat) : (health s cause).fab = s.fab := (health_keeps (mk := 7364616) (Keeps.refl s) (by decide)).fab (by decide)
@[simp] theorem health_shu (s : State) (cause : Nat) : (health s cause).shu = s.shu := (health_keeps (mk := 7364616) (Keeps.refl s) (by decide)).shu (by decide)
@[simp] theorem health_win (s : State) (cause : Nat) : (health s cause).win = s.win := (health_keeps (mk := 7364616) (Keeps.refl s) (by decide)).win (by decide)
@[simp] theorem health_sel (s : State) (cause : Nat) : (health s cause).sel = s.sel := (health_keeps (mk := 7364616) (Keeps.refl s) (by decide)).sel (by decide)
@[simp] theorem health_twin (s : State) (cause : Nat) : (health s cause).twin = s.twin := (health_keeps (mk := 7364616) (Keeps.refl s) (by decide)).twin (by decide)
@[simp] theorem health_dob (s : State) (cause : Nat) : (health s cause).dob = s.dob := (health_keeps (mk := 7364616) (Keeps.refl s) (by decide)).dob (by decide)
@[simp] theorem health_mgmt (s : State) (cause : Nat) : (health s cause).mgmt = s.mgmt := (health_keeps (mk := 7364616) (Keeps.refl s) (by decide)).mgmt (by decide)
@[simp] theorem health_vault (s : State) (cause : Nat) : (health s cause).vault = s.vault := (health_keeps (mk := 7364616) (Keeps.refl s) (by decide)).vault (by decide)

@[simp] theorem putEvent_pending (s : State) (h : HeldEvent) : (putEvent s h).pending = s.pending := (putEvent_keeps (mk := 7364608) (Keeps.refl s) (by decide)).pending
@[simp] theorem putEvent_now (s : State) (h : HeldEvent) : (putEvent s h).now = s.now := (putEvent_keeps (mk := 7364608) (Keeps.refl s) (by decide)).now
@[simp] theorem putEvent_ft (s : State) (h : HeldEvent) : (putEvent s h).ft = s.ft := (putEvent_keeps (mk := 7364608) (Keeps.refl s) (by decide)).ft (by decide)
@[simp] theorem putEvent_cfg (s : State) (h : HeldEvent) : (putEvent s h).cfg = s.cfg := (putEvent_keeps (mk := 7364608) (Keeps.refl s) (by decide)).cfg (by decide)
@[simp] theorem putEvent_flash (s : State) (h : HeldEvent) : (putEvent s h).flash = s.flash := (putEvent_keeps (mk := 7364608) (Keeps.refl s) (by decide)).flash (by decide)
@[simp] theorem putEvent_module (s : State) (h : HeldEvent) : (putEvent s h).module = s.module := (putEvent_keeps (mk := 7364608) (Keeps.refl s) (by decide)).module (by decide)
@[simp] theorem putEvent_power (s : State) (h : HeldEvent) : (putEvent s h).power = s.power := (putEvent_keeps (mk := 7364608) (Keeps.refl s) (by decide)).power (by decide)
@[simp] theorem putEvent_gov (s : State) (h : HeldEvent) : (putEvent s h).gov = s.gov := (putEvent_keeps (mk := 7364608) (Keeps.refl s) (by decide)).gov (by decide)
@[simp] theorem putEvent_lanes (s : State) (h : HeldEvent) : (putEvent s h).lanes = s.lanes := (putEvent_keeps (mk := 7364608) (Keeps.refl s) (by decide)).lanes (by decide)
@[simp] theorem putEvent_weft (s : State) (h : HeldEvent) : (putEvent s h).weft = s.weft := (putEvent_keeps (mk := 7364608) (Keeps.refl s) (by decide)).weft (by decide)
@[simp] theorem putEvent_warp (s : State) (h : HeldEvent) : (putEvent s h).warp = s.warp := (putEvent_keeps (mk := 7364608) (Keeps.refl s) (by decide)).warp (by decide)
@[simp] theorem putEvent_loom (s : State) (h : HeldEvent) : (putEvent s h).loom = s.loom := (putEvent_keeps (mk := 7364608) (Keeps.refl s) (by decide)).loom (by decide)
@[simp] theorem putEvent_fab (s : State) (h : HeldEvent) : (putEvent s h).fab = s.fab := (putEvent_keeps (mk := 7364608) (Keeps.refl s) (by decide)).fab (by decide)
@[simp] theorem putEvent_shu (s : State) (h : HeldEvent) : (putEvent s h).shu = s.shu := (putEvent_keeps (mk := 7364608) (Keeps.refl s) (by decide)).shu (by decide)
@[simp] theorem putEvent_win (s : State) (h : HeldEvent) : (putEvent s h).win = s.win := (putEvent_keeps (mk := 7364608) (Keeps.refl s) (by decide)).win (by decide)
@[simp] theorem putEvent_sel (s : State) (h : HeldEvent) : (putEvent s h).sel = s.sel := (putEvent_keeps (mk := 7364608) (Keeps.refl s) (by decide)).sel (by decide)
@[simp] theorem putEvent_twin (s : State) (h : HeldEvent) : (putEvent s h).twin = s.twin := (putEvent_keeps (mk := 7364608) (Keeps.refl s) (by decide)).twin (by decide)
@[simp] theorem putEvent_dob (s : State) (h : HeldEvent) : (putEvent s h).dob = s.dob := (putEvent_keeps (mk := 7364608) (Keeps.refl s) (by decide)).dob (by decide)
@[simp] theorem putEvent_mgmt (s : State) (h : HeldEvent) : (putEvent s h).mgmt = s.mgmt := (putEvent_keeps (mk := 7364608) (Keeps.refl s) (by decide)).mgmt (by decide)
@[simp] theorem putEvent_vault (s : State) (h : HeldEvent) : (putEvent s h).vault = s.vault := (putEvent_keeps (mk := 7364608) (Keeps.refl s) (by decide)).vault (by decide)

@[simp] theorem ringPut_pending (s : State) (r : Nat) (e : EventRec) : (ringPut s r e).pending = s.pending := (ringPut_keeps (mk := 7364608) (Keeps.refl s) (by decide)).pending
@[simp] theorem ringPut_now (s : State) (r : Nat) (e : EventRec) : (ringPut s r e).now = s.now := (ringPut_keeps (mk := 7364608) (Keeps.refl s) (by decide)).now
@[simp] theorem ringPut_ft (s : State) (r : Nat) (e : EventRec) : (ringPut s r e).ft = s.ft := (ringPut_keeps (mk := 7364608) (Keeps.refl s) (by decide)).ft (by decide)
@[simp] theorem ringPut_cfg (s : State) (r : Nat) (e : EventRec) : (ringPut s r e).cfg = s.cfg := (ringPut_keeps (mk := 7364608) (Keeps.refl s) (by decide)).cfg (by decide)
@[simp] theorem ringPut_flash (s : State) (r : Nat) (e : EventRec) : (ringPut s r e).flash = s.flash := (ringPut_keeps (mk := 7364608) (Keeps.refl s) (by decide)).flash (by decide)
@[simp] theorem ringPut_module (s : State) (r : Nat) (e : EventRec) : (ringPut s r e).module = s.module := (ringPut_keeps (mk := 7364608) (Keeps.refl s) (by decide)).module (by decide)
@[simp] theorem ringPut_power (s : State) (r : Nat) (e : EventRec) : (ringPut s r e).power = s.power := (ringPut_keeps (mk := 7364608) (Keeps.refl s) (by decide)).power (by decide)
@[simp] theorem ringPut_gov (s : State) (r : Nat) (e : EventRec) : (ringPut s r e).gov = s.gov := (ringPut_keeps (mk := 7364608) (Keeps.refl s) (by decide)).gov (by decide)
@[simp] theorem ringPut_lanes (s : State) (r : Nat) (e : EventRec) : (ringPut s r e).lanes = s.lanes := (ringPut_keeps (mk := 7364608) (Keeps.refl s) (by decide)).lanes (by decide)
@[simp] theorem ringPut_weft (s : State) (r : Nat) (e : EventRec) : (ringPut s r e).weft = s.weft := (ringPut_keeps (mk := 7364608) (Keeps.refl s) (by decide)).weft (by decide)
@[simp] theorem ringPut_warp (s : State) (r : Nat) (e : EventRec) : (ringPut s r e).warp = s.warp := (ringPut_keeps (mk := 7364608) (Keeps.refl s) (by decide)).warp (by decide)
@[simp] theorem ringPut_loom (s : State) (r : Nat) (e : EventRec) : (ringPut s r e).loom = s.loom := (ringPut_keeps (mk := 7364608) (Keeps.refl s) (by decide)).loom (by decide)
@[simp] theorem ringPut_fab (s : State) (r : Nat) (e : EventRec) : (ringPut s r e).fab = s.fab := (ringPut_keeps (mk := 7364608) (Keeps.refl s) (by decide)).fab (by decide)
@[simp] theorem ringPut_shu (s : State) (r : Nat) (e : EventRec) : (ringPut s r e).shu = s.shu := (ringPut_keeps (mk := 7364608) (Keeps.refl s) (by decide)).shu (by decide)
@[simp] theorem ringPut_win (s : State) (r : Nat) (e : EventRec) : (ringPut s r e).win = s.win := (ringPut_keeps (mk := 7364608) (Keeps.refl s) (by decide)).win (by decide)
@[simp] theorem ringPut_sel (s : State) (r : Nat) (e : EventRec) : (ringPut s r e).sel = s.sel := (ringPut_keeps (mk := 7364608) (Keeps.refl s) (by decide)).sel (by decide)
@[simp] theorem ringPut_twin (s : State) (r : Nat) (e : EventRec) : (ringPut s r e).twin = s.twin := (ringPut_keeps (mk := 7364608) (Keeps.refl s) (by decide)).twin (by decide)
@[simp] theorem ringPut_dob (s : State) (r : Nat) (e : EventRec) : (ringPut s r e).dob = s.dob := (ringPut_keeps (mk := 7364608) (Keeps.refl s) (by decide)).dob (by decide)
@[simp] theorem ringPut_mgmt (s : State) (r : Nat) (e : EventRec) : (ringPut s r e).mgmt = s.mgmt := (ringPut_keeps (mk := 7364608) (Keeps.refl s) (by decide)).mgmt (by decide)
@[simp] theorem ringPut_vault (s : State) (r : Nat) (e : EventRec) : (ringPut s r e).vault = s.vault := (ringPut_keeps (mk := 7364608) (Keeps.refl s) (by decide)).vault (by decide)

@[simp] theorem writeLine_pending (s : State) (r : Nat) (mark : Bool) : (writeLine s r mark).pending = s.pending := (writeLine_keeps (mk := 7364608) (Keeps.refl s) (by decide)).pending
@[simp] theorem writeLine_now (s : State) (r : Nat) (mark : Bool) : (writeLine s r mark).now = s.now := (writeLine_keeps (mk := 7364608) (Keeps.refl s) (by decide)).now
@[simp] theorem writeLine_ft (s : State) (r : Nat) (mark : Bool) : (writeLine s r mark).ft = s.ft := (writeLine_keeps (mk := 7364608) (Keeps.refl s) (by decide)).ft (by decide)
@[simp] theorem writeLine_cfg (s : State) (r : Nat) (mark : Bool) : (writeLine s r mark).cfg = s.cfg := (writeLine_keeps (mk := 7364608) (Keeps.refl s) (by decide)).cfg (by decide)
@[simp] theorem writeLine_flash (s : State) (r : Nat) (mark : Bool) : (writeLine s r mark).flash = s.flash := (writeLine_keeps (mk := 7364608) (Keeps.refl s) (by decide)).flash (by decide)
@[simp] theorem writeLine_module (s : State) (r : Nat) (mark : Bool) : (writeLine s r mark).module = s.module := (writeLine_keeps (mk := 7364608) (Keeps.refl s) (by decide)).module (by decide)
@[simp] theorem writeLine_power (s : State) (r : Nat) (mark : Bool) : (writeLine s r mark).power = s.power := (writeLine_keeps (mk := 7364608) (Keeps.refl s) (by decide)).power (by decide)
@[simp] theorem writeLine_gov (s : State) (r : Nat) (mark : Bool) : (writeLine s r mark).gov = s.gov := (writeLine_keeps (mk := 7364608) (Keeps.refl s) (by decide)).gov (by decide)
@[simp] theorem writeLine_lanes (s : State) (r : Nat) (mark : Bool) : (writeLine s r mark).lanes = s.lanes := (writeLine_keeps (mk := 7364608) (Keeps.refl s) (by decide)).lanes (by decide)
@[simp] theorem writeLine_weft (s : State) (r : Nat) (mark : Bool) : (writeLine s r mark).weft = s.weft := (writeLine_keeps (mk := 7364608) (Keeps.refl s) (by decide)).weft (by decide)
@[simp] theorem writeLine_warp (s : State) (r : Nat) (mark : Bool) : (writeLine s r mark).warp = s.warp := (writeLine_keeps (mk := 7364608) (Keeps.refl s) (by decide)).warp (by decide)
@[simp] theorem writeLine_loom (s : State) (r : Nat) (mark : Bool) : (writeLine s r mark).loom = s.loom := (writeLine_keeps (mk := 7364608) (Keeps.refl s) (by decide)).loom (by decide)
@[simp] theorem writeLine_fab (s : State) (r : Nat) (mark : Bool) : (writeLine s r mark).fab = s.fab := (writeLine_keeps (mk := 7364608) (Keeps.refl s) (by decide)).fab (by decide)
@[simp] theorem writeLine_shu (s : State) (r : Nat) (mark : Bool) : (writeLine s r mark).shu = s.shu := (writeLine_keeps (mk := 7364608) (Keeps.refl s) (by decide)).shu (by decide)
@[simp] theorem writeLine_win (s : State) (r : Nat) (mark : Bool) : (writeLine s r mark).win = s.win := (writeLine_keeps (mk := 7364608) (Keeps.refl s) (by decide)).win (by decide)
@[simp] theorem writeLine_sel (s : State) (r : Nat) (mark : Bool) : (writeLine s r mark).sel = s.sel := (writeLine_keeps (mk := 7364608) (Keeps.refl s) (by decide)).sel (by decide)
@[simp] theorem writeLine_twin (s : State) (r : Nat) (mark : Bool) : (writeLine s r mark).twin = s.twin := (writeLine_keeps (mk := 7364608) (Keeps.refl s) (by decide)).twin (by decide)
@[simp] theorem writeLine_dob (s : State) (r : Nat) (mark : Bool) : (writeLine s r mark).dob = s.dob := (writeLine_keeps (mk := 7364608) (Keeps.refl s) (by decide)).dob (by decide)
@[simp] theorem writeLine_mgmt (s : State) (r : Nat) (mark : Bool) : (writeLine s r mark).mgmt = s.mgmt := (writeLine_keeps (mk := 7364608) (Keeps.refl s) (by decide)).mgmt (by decide)
@[simp] theorem writeLine_vault (s : State) (r : Nat) (mark : Bool) : (writeLine s r mark).vault = s.vault := (writeLine_keeps (mk := 7364608) (Keeps.refl s) (by decide)).vault (by decide)

@[simp] theorem feedEvent_pending (s : State) (f : Feed) (code : Nat) (extra : Nat) : (feedEvent s f code extra).pending = s.pending := (feedEvent_keeps (mk := 7364608) (Keeps.refl s) (by decide)).pending
@[simp] theorem feedEvent_now (s : State) (f : Feed) (code : Nat) (extra : Nat) : (feedEvent s f code extra).now = s.now := (feedEvent_keeps (mk := 7364608) (Keeps.refl s) (by decide)).now
@[simp] theorem feedEvent_ft (s : State) (f : Feed) (code : Nat) (extra : Nat) : (feedEvent s f code extra).ft = s.ft := (feedEvent_keeps (mk := 7364608) (Keeps.refl s) (by decide)).ft (by decide)
@[simp] theorem feedEvent_cfg (s : State) (f : Feed) (code : Nat) (extra : Nat) : (feedEvent s f code extra).cfg = s.cfg := (feedEvent_keeps (mk := 7364608) (Keeps.refl s) (by decide)).cfg (by decide)
@[simp] theorem feedEvent_flash (s : State) (f : Feed) (code : Nat) (extra : Nat) : (feedEvent s f code extra).flash = s.flash := (feedEvent_keeps (mk := 7364608) (Keeps.refl s) (by decide)).flash (by decide)
@[simp] theorem feedEvent_module (s : State) (f : Feed) (code : Nat) (extra : Nat) : (feedEvent s f code extra).module = s.module := (feedEvent_keeps (mk := 7364608) (Keeps.refl s) (by decide)).module (by decide)
@[simp] theorem feedEvent_power (s : State) (f : Feed) (code : Nat) (extra : Nat) : (feedEvent s f code extra).power = s.power := (feedEvent_keeps (mk := 7364608) (Keeps.refl s) (by decide)).power (by decide)
@[simp] theorem feedEvent_gov (s : State) (f : Feed) (code : Nat) (extra : Nat) : (feedEvent s f code extra).gov = s.gov := (feedEvent_keeps (mk := 7364608) (Keeps.refl s) (by decide)).gov (by decide)
@[simp] theorem feedEvent_lanes (s : State) (f : Feed) (code : Nat) (extra : Nat) : (feedEvent s f code extra).lanes = s.lanes := (feedEvent_keeps (mk := 7364608) (Keeps.refl s) (by decide)).lanes (by decide)
@[simp] theorem feedEvent_weft (s : State) (f : Feed) (code : Nat) (extra : Nat) : (feedEvent s f code extra).weft = s.weft := (feedEvent_keeps (mk := 7364608) (Keeps.refl s) (by decide)).weft (by decide)
@[simp] theorem feedEvent_warp (s : State) (f : Feed) (code : Nat) (extra : Nat) : (feedEvent s f code extra).warp = s.warp := (feedEvent_keeps (mk := 7364608) (Keeps.refl s) (by decide)).warp (by decide)
@[simp] theorem feedEvent_loom (s : State) (f : Feed) (code : Nat) (extra : Nat) : (feedEvent s f code extra).loom = s.loom := (feedEvent_keeps (mk := 7364608) (Keeps.refl s) (by decide)).loom (by decide)
@[simp] theorem feedEvent_fab (s : State) (f : Feed) (code : Nat) (extra : Nat) : (feedEvent s f code extra).fab = s.fab := (feedEvent_keeps (mk := 7364608) (Keeps.refl s) (by decide)).fab (by decide)
@[simp] theorem feedEvent_shu (s : State) (f : Feed) (code : Nat) (extra : Nat) : (feedEvent s f code extra).shu = s.shu := (feedEvent_keeps (mk := 7364608) (Keeps.refl s) (by decide)).shu (by decide)
@[simp] theorem feedEvent_win (s : State) (f : Feed) (code : Nat) (extra : Nat) : (feedEvent s f code extra).win = s.win := (feedEvent_keeps (mk := 7364608) (Keeps.refl s) (by decide)).win (by decide)
@[simp] theorem feedEvent_sel (s : State) (f : Feed) (code : Nat) (extra : Nat) : (feedEvent s f code extra).sel = s.sel := (feedEvent_keeps (mk := 7364608) (Keeps.refl s) (by decide)).sel (by decide)
@[simp] theorem feedEvent_twin (s : State) (f : Feed) (code : Nat) (extra : Nat) : (feedEvent s f code extra).twin = s.twin := (feedEvent_keeps (mk := 7364608) (Keeps.refl s) (by decide)).twin (by decide)
@[simp] theorem feedEvent_dob (s : State) (f : Feed) (code : Nat) (extra : Nat) : (feedEvent s f code extra).dob = s.dob := (feedEvent_keeps (mk := 7364608) (Keeps.refl s) (by decide)).dob (by decide)
@[simp] theorem feedEvent_mgmt (s : State) (f : Feed) (code : Nat) (extra : Nat) : (feedEvent s f code extra).mgmt = s.mgmt := (feedEvent_keeps (mk := 7364608) (Keeps.refl s) (by decide)).mgmt (by decide)
@[simp] theorem feedEvent_vault (s : State) (f : Feed) (code : Nat) (extra : Nat) : (feedEvent s f code extra).vault = s.vault := (feedEvent_keeps (mk := 7364608) (Keeps.refl s) (by decide)).vault (by decide)

@[simp] theorem feedCount_pending (s : State) (f : Feed) (c : Nat) : (feedCount s f c).pending = s.pending := (feedCount_keeps (mk := 1048576) (Keeps.refl s) (by decide)).pending
@[simp] theorem feedCount_now (s : State) (f : Feed) (c : Nat) : (feedCount s f c).now = s.now := (feedCount_keeps (mk := 1048576) (Keeps.refl s) (by decide)).now
@[simp] theorem feedCount_ft (s : State) (f : Feed) (c : Nat) : (feedCount s f c).ft = s.ft := (feedCount_keeps (mk := 1048576) (Keeps.refl s) (by decide)).ft (by decide)
@[simp] theorem feedCount_cfg (s : State) (f : Feed) (c : Nat) : (feedCount s f c).cfg = s.cfg := (feedCount_keeps (mk := 1048576) (Keeps.refl s) (by decide)).cfg (by decide)
@[simp] theorem feedCount_flash (s : State) (f : Feed) (c : Nat) : (feedCount s f c).flash = s.flash := (feedCount_keeps (mk := 1048576) (Keeps.refl s) (by decide)).flash (by decide)
@[simp] theorem feedCount_module (s : State) (f : Feed) (c : Nat) : (feedCount s f c).module = s.module := (feedCount_keeps (mk := 1048576) (Keeps.refl s) (by decide)).module (by decide)
@[simp] theorem feedCount_power (s : State) (f : Feed) (c : Nat) : (feedCount s f c).power = s.power := (feedCount_keeps (mk := 1048576) (Keeps.refl s) (by decide)).power (by decide)
@[simp] theorem feedCount_gov (s : State) (f : Feed) (c : Nat) : (feedCount s f c).gov = s.gov := (feedCount_keeps (mk := 1048576) (Keeps.refl s) (by decide)).gov (by decide)
@[simp] theorem feedCount_lanes (s : State) (f : Feed) (c : Nat) : (feedCount s f c).lanes = s.lanes := (feedCount_keeps (mk := 1048576) (Keeps.refl s) (by decide)).lanes (by decide)
@[simp] theorem feedCount_weft (s : State) (f : Feed) (c : Nat) : (feedCount s f c).weft = s.weft := (feedCount_keeps (mk := 1048576) (Keeps.refl s) (by decide)).weft (by decide)
@[simp] theorem feedCount_warp (s : State) (f : Feed) (c : Nat) : (feedCount s f c).warp = s.warp := (feedCount_keeps (mk := 1048576) (Keeps.refl s) (by decide)).warp (by decide)
@[simp] theorem feedCount_loom (s : State) (f : Feed) (c : Nat) : (feedCount s f c).loom = s.loom := (feedCount_keeps (mk := 1048576) (Keeps.refl s) (by decide)).loom (by decide)
@[simp] theorem feedCount_fab (s : State) (f : Feed) (c : Nat) : (feedCount s f c).fab = s.fab := (feedCount_keeps (mk := 1048576) (Keeps.refl s) (by decide)).fab (by decide)
@[simp] theorem feedCount_shu (s : State) (f : Feed) (c : Nat) : (feedCount s f c).shu = s.shu := (feedCount_keeps (mk := 1048576) (Keeps.refl s) (by decide)).shu (by decide)
@[simp] theorem feedCount_win (s : State) (f : Feed) (c : Nat) : (feedCount s f c).win = s.win := (feedCount_keeps (mk := 1048576) (Keeps.refl s) (by decide)).win (by decide)
@[simp] theorem feedCount_eng (s : State) (f : Feed) (c : Nat) : (feedCount s f c).eng = s.eng := (feedCount_keeps (mk := 1048576) (Keeps.refl s) (by decide)).eng (by decide)
@[simp] theorem feedCount_hed (s : State) (f : Feed) (c : Nat) : (feedCount s f c).hed = s.hed := (feedCount_keeps (mk := 1048576) (Keeps.refl s) (by decide)).hed (by decide)
@[simp] theorem feedCount_sel (s : State) (f : Feed) (c : Nat) : (feedCount s f c).sel = s.sel := (feedCount_keeps (mk := 1048576) (Keeps.refl s) (by decide)).sel (by decide)
@[simp] theorem feedCount_twin (s : State) (f : Feed) (c : Nat) : (feedCount s f c).twin = s.twin := (feedCount_keeps (mk := 1048576) (Keeps.refl s) (by decide)).twin (by decide)
@[simp] theorem feedCount_dob (s : State) (f : Feed) (c : Nat) : (feedCount s f c).dob = s.dob := (feedCount_keeps (mk := 1048576) (Keeps.refl s) (by decide)).dob (by decide)
@[simp] theorem feedCount_mgmt (s : State) (f : Feed) (c : Nat) : (feedCount s f c).mgmt = s.mgmt := (feedCount_keeps (mk := 1048576) (Keeps.refl s) (by decide)).mgmt (by decide)
@[simp] theorem feedCount_vault (s : State) (f : Feed) (c : Nat) : (feedCount s f c).vault = s.vault := (feedCount_keeps (mk := 1048576) (Keeps.refl s) (by decide)).vault (by decide)
@[simp] theorem feedCount_host (s : State) (f : Feed) (c : Nat) : (feedCount s f c).host = s.host := (feedCount_keeps (mk := 1048576) (Keeps.refl s) (by decide)).host (by decide)
@[simp] theorem feedCount_beam (s : State) (f : Feed) (c : Nat) : (feedCount s f c).beam = s.beam := (feedCount_keeps (mk := 1048576) (Keeps.refl s) (by decide)).beam (by decide)

@[simp] theorem winEvent_pending (s : State) (v : Nat) (code : Nat) (info : Nat) : (winEvent s v code info).pending = s.pending := (winEvent_keeps (mk := 7364608) (Keeps.refl s) (by decide)).pending
@[simp] theorem winEvent_now (s : State) (v : Nat) (code : Nat) (info : Nat) : (winEvent s v code info).now = s.now := (winEvent_keeps (mk := 7364608) (Keeps.refl s) (by decide)).now
@[simp] theorem winEvent_ft (s : State) (v : Nat) (code : Nat) (info : Nat) : (winEvent s v code info).ft = s.ft := (winEvent_keeps (mk := 7364608) (Keeps.refl s) (by decide)).ft (by decide)
@[simp] theorem winEvent_cfg (s : State) (v : Nat) (code : Nat) (info : Nat) : (winEvent s v code info).cfg = s.cfg := (winEvent_keeps (mk := 7364608) (Keeps.refl s) (by decide)).cfg (by decide)
@[simp] theorem winEvent_flash (s : State) (v : Nat) (code : Nat) (info : Nat) : (winEvent s v code info).flash = s.flash := (winEvent_keeps (mk := 7364608) (Keeps.refl s) (by decide)).flash (by decide)
@[simp] theorem winEvent_module (s : State) (v : Nat) (code : Nat) (info : Nat) : (winEvent s v code info).module = s.module := (winEvent_keeps (mk := 7364608) (Keeps.refl s) (by decide)).module (by decide)
@[simp] theorem winEvent_power (s : State) (v : Nat) (code : Nat) (info : Nat) : (winEvent s v code info).power = s.power := (winEvent_keeps (mk := 7364608) (Keeps.refl s) (by decide)).power (by decide)
@[simp] theorem winEvent_gov (s : State) (v : Nat) (code : Nat) (info : Nat) : (winEvent s v code info).gov = s.gov := (winEvent_keeps (mk := 7364608) (Keeps.refl s) (by decide)).gov (by decide)
@[simp] theorem winEvent_lanes (s : State) (v : Nat) (code : Nat) (info : Nat) : (winEvent s v code info).lanes = s.lanes := (winEvent_keeps (mk := 7364608) (Keeps.refl s) (by decide)).lanes (by decide)
@[simp] theorem winEvent_weft (s : State) (v : Nat) (code : Nat) (info : Nat) : (winEvent s v code info).weft = s.weft := (winEvent_keeps (mk := 7364608) (Keeps.refl s) (by decide)).weft (by decide)
@[simp] theorem winEvent_warp (s : State) (v : Nat) (code : Nat) (info : Nat) : (winEvent s v code info).warp = s.warp := (winEvent_keeps (mk := 7364608) (Keeps.refl s) (by decide)).warp (by decide)
@[simp] theorem winEvent_loom (s : State) (v : Nat) (code : Nat) (info : Nat) : (winEvent s v code info).loom = s.loom := (winEvent_keeps (mk := 7364608) (Keeps.refl s) (by decide)).loom (by decide)
@[simp] theorem winEvent_fab (s : State) (v : Nat) (code : Nat) (info : Nat) : (winEvent s v code info).fab = s.fab := (winEvent_keeps (mk := 7364608) (Keeps.refl s) (by decide)).fab (by decide)
@[simp] theorem winEvent_shu (s : State) (v : Nat) (code : Nat) (info : Nat) : (winEvent s v code info).shu = s.shu := (winEvent_keeps (mk := 7364608) (Keeps.refl s) (by decide)).shu (by decide)
@[simp] theorem winEvent_win (s : State) (v : Nat) (code : Nat) (info : Nat) : (winEvent s v code info).win = s.win := (winEvent_keeps (mk := 7364608) (Keeps.refl s) (by decide)).win (by decide)
@[simp] theorem winEvent_sel (s : State) (v : Nat) (code : Nat) (info : Nat) : (winEvent s v code info).sel = s.sel := (winEvent_keeps (mk := 7364608) (Keeps.refl s) (by decide)).sel (by decide)
@[simp] theorem winEvent_twin (s : State) (v : Nat) (code : Nat) (info : Nat) : (winEvent s v code info).twin = s.twin := (winEvent_keeps (mk := 7364608) (Keeps.refl s) (by decide)).twin (by decide)
@[simp] theorem winEvent_dob (s : State) (v : Nat) (code : Nat) (info : Nat) : (winEvent s v code info).dob = s.dob := (winEvent_keeps (mk := 7364608) (Keeps.refl s) (by decide)).dob (by decide)
@[simp] theorem winEvent_mgmt (s : State) (v : Nat) (code : Nat) (info : Nat) : (winEvent s v code info).mgmt = s.mgmt := (winEvent_keeps (mk := 7364608) (Keeps.refl s) (by decide)).mgmt (by decide)
@[simp] theorem winEvent_vault (s : State) (v : Nat) (code : Nat) (info : Nat) : (winEvent s v code info).vault = s.vault := (winEvent_keeps (mk := 7364608) (Keeps.refl s) (by decide)).vault (by decide)

@[simp] theorem connEvent_pending (s : State) (c : Nat) (code : Nat) (extra : Nat) : (connEvent s c code extra).pending = s.pending := (connEvent_keeps (mk := 7364608) (Keeps.refl s) (by decide)).pending
@[simp] theorem connEvent_now (s : State) (c : Nat) (code : Nat) (extra : Nat) : (connEvent s c code extra).now = s.now := (connEvent_keeps (mk := 7364608) (Keeps.refl s) (by decide)).now
@[simp] theorem connEvent_ft (s : State) (c : Nat) (code : Nat) (extra : Nat) : (connEvent s c code extra).ft = s.ft := (connEvent_keeps (mk := 7364608) (Keeps.refl s) (by decide)).ft (by decide)
@[simp] theorem connEvent_cfg (s : State) (c : Nat) (code : Nat) (extra : Nat) : (connEvent s c code extra).cfg = s.cfg := (connEvent_keeps (mk := 7364608) (Keeps.refl s) (by decide)).cfg (by decide)
@[simp] theorem connEvent_flash (s : State) (c : Nat) (code : Nat) (extra : Nat) : (connEvent s c code extra).flash = s.flash := (connEvent_keeps (mk := 7364608) (Keeps.refl s) (by decide)).flash (by decide)
@[simp] theorem connEvent_module (s : State) (c : Nat) (code : Nat) (extra : Nat) : (connEvent s c code extra).module = s.module := (connEvent_keeps (mk := 7364608) (Keeps.refl s) (by decide)).module (by decide)
@[simp] theorem connEvent_power (s : State) (c : Nat) (code : Nat) (extra : Nat) : (connEvent s c code extra).power = s.power := (connEvent_keeps (mk := 7364608) (Keeps.refl s) (by decide)).power (by decide)
@[simp] theorem connEvent_gov (s : State) (c : Nat) (code : Nat) (extra : Nat) : (connEvent s c code extra).gov = s.gov := (connEvent_keeps (mk := 7364608) (Keeps.refl s) (by decide)).gov (by decide)
@[simp] theorem connEvent_lanes (s : State) (c : Nat) (code : Nat) (extra : Nat) : (connEvent s c code extra).lanes = s.lanes := (connEvent_keeps (mk := 7364608) (Keeps.refl s) (by decide)).lanes (by decide)
@[simp] theorem connEvent_weft (s : State) (c : Nat) (code : Nat) (extra : Nat) : (connEvent s c code extra).weft = s.weft := (connEvent_keeps (mk := 7364608) (Keeps.refl s) (by decide)).weft (by decide)
@[simp] theorem connEvent_warp (s : State) (c : Nat) (code : Nat) (extra : Nat) : (connEvent s c code extra).warp = s.warp := (connEvent_keeps (mk := 7364608) (Keeps.refl s) (by decide)).warp (by decide)
@[simp] theorem connEvent_loom (s : State) (c : Nat) (code : Nat) (extra : Nat) : (connEvent s c code extra).loom = s.loom := (connEvent_keeps (mk := 7364608) (Keeps.refl s) (by decide)).loom (by decide)
@[simp] theorem connEvent_fab (s : State) (c : Nat) (code : Nat) (extra : Nat) : (connEvent s c code extra).fab = s.fab := (connEvent_keeps (mk := 7364608) (Keeps.refl s) (by decide)).fab (by decide)
@[simp] theorem connEvent_shu (s : State) (c : Nat) (code : Nat) (extra : Nat) : (connEvent s c code extra).shu = s.shu := (connEvent_keeps (mk := 7364608) (Keeps.refl s) (by decide)).shu (by decide)
@[simp] theorem connEvent_win (s : State) (c : Nat) (code : Nat) (extra : Nat) : (connEvent s c code extra).win = s.win := (connEvent_keeps (mk := 7364608) (Keeps.refl s) (by decide)).win (by decide)
@[simp] theorem connEvent_sel (s : State) (c : Nat) (code : Nat) (extra : Nat) : (connEvent s c code extra).sel = s.sel := (connEvent_keeps (mk := 7364608) (Keeps.refl s) (by decide)).sel (by decide)
@[simp] theorem connEvent_twin (s : State) (c : Nat) (code : Nat) (extra : Nat) : (connEvent s c code extra).twin = s.twin := (connEvent_keeps (mk := 7364608) (Keeps.refl s) (by decide)).twin (by decide)
@[simp] theorem connEvent_dob (s : State) (c : Nat) (code : Nat) (extra : Nat) : (connEvent s c code extra).dob = s.dob := (connEvent_keeps (mk := 7364608) (Keeps.refl s) (by decide)).dob (by decide)
@[simp] theorem connEvent_mgmt (s : State) (c : Nat) (code : Nat) (extra : Nat) : (connEvent s c code extra).mgmt = s.mgmt := (connEvent_keeps (mk := 7364608) (Keeps.refl s) (by decide)).mgmt (by decide)
@[simp] theorem connEvent_vault (s : State) (c : Nat) (code : Nat) (extra : Nat) : (connEvent s c code extra).vault = s.vault := (connEvent_keeps (mk := 7364608) (Keeps.refl s) (by decide)).vault (by decide)

@[simp] theorem reportLoss_pending (s : State) (r : Nat) (ow : Bool) : (reportLoss s r ow).pending = s.pending := (reportLoss_keeps (mk := 7364608) (Keeps.refl s) (by decide)).pending
@[simp] theorem reportLoss_now (s : State) (r : Nat) (ow : Bool) : (reportLoss s r ow).now = s.now := (reportLoss_keeps (mk := 7364608) (Keeps.refl s) (by decide)).now
@[simp] theorem reportLoss_ft (s : State) (r : Nat) (ow : Bool) : (reportLoss s r ow).ft = s.ft := (reportLoss_keeps (mk := 7364608) (Keeps.refl s) (by decide)).ft (by decide)
@[simp] theorem reportLoss_cfg (s : State) (r : Nat) (ow : Bool) : (reportLoss s r ow).cfg = s.cfg := (reportLoss_keeps (mk := 7364608) (Keeps.refl s) (by decide)).cfg (by decide)
@[simp] theorem reportLoss_flash (s : State) (r : Nat) (ow : Bool) : (reportLoss s r ow).flash = s.flash := (reportLoss_keeps (mk := 7364608) (Keeps.refl s) (by decide)).flash (by decide)
@[simp] theorem reportLoss_module (s : State) (r : Nat) (ow : Bool) : (reportLoss s r ow).module = s.module := (reportLoss_keeps (mk := 7364608) (Keeps.refl s) (by decide)).module (by decide)
@[simp] theorem reportLoss_power (s : State) (r : Nat) (ow : Bool) : (reportLoss s r ow).power = s.power := (reportLoss_keeps (mk := 7364608) (Keeps.refl s) (by decide)).power (by decide)
@[simp] theorem reportLoss_gov (s : State) (r : Nat) (ow : Bool) : (reportLoss s r ow).gov = s.gov := (reportLoss_keeps (mk := 7364608) (Keeps.refl s) (by decide)).gov (by decide)
@[simp] theorem reportLoss_lanes (s : State) (r : Nat) (ow : Bool) : (reportLoss s r ow).lanes = s.lanes := (reportLoss_keeps (mk := 7364608) (Keeps.refl s) (by decide)).lanes (by decide)
@[simp] theorem reportLoss_weft (s : State) (r : Nat) (ow : Bool) : (reportLoss s r ow).weft = s.weft := (reportLoss_keeps (mk := 7364608) (Keeps.refl s) (by decide)).weft (by decide)
@[simp] theorem reportLoss_warp (s : State) (r : Nat) (ow : Bool) : (reportLoss s r ow).warp = s.warp := (reportLoss_keeps (mk := 7364608) (Keeps.refl s) (by decide)).warp (by decide)
@[simp] theorem reportLoss_loom (s : State) (r : Nat) (ow : Bool) : (reportLoss s r ow).loom = s.loom := (reportLoss_keeps (mk := 7364608) (Keeps.refl s) (by decide)).loom (by decide)
@[simp] theorem reportLoss_fab (s : State) (r : Nat) (ow : Bool) : (reportLoss s r ow).fab = s.fab := (reportLoss_keeps (mk := 7364608) (Keeps.refl s) (by decide)).fab (by decide)
@[simp] theorem reportLoss_shu (s : State) (r : Nat) (ow : Bool) : (reportLoss s r ow).shu = s.shu := (reportLoss_keeps (mk := 7364608) (Keeps.refl s) (by decide)).shu (by decide)
@[simp] theorem reportLoss_win (s : State) (r : Nat) (ow : Bool) : (reportLoss s r ow).win = s.win := (reportLoss_keeps (mk := 7364608) (Keeps.refl s) (by decide)).win (by decide)
@[simp] theorem reportLoss_sel (s : State) (r : Nat) (ow : Bool) : (reportLoss s r ow).sel = s.sel := (reportLoss_keeps (mk := 7364608) (Keeps.refl s) (by decide)).sel (by decide)
@[simp] theorem reportLoss_twin (s : State) (r : Nat) (ow : Bool) : (reportLoss s r ow).twin = s.twin := (reportLoss_keeps (mk := 7364608) (Keeps.refl s) (by decide)).twin (by decide)
@[simp] theorem reportLoss_dob (s : State) (r : Nat) (ow : Bool) : (reportLoss s r ow).dob = s.dob := (reportLoss_keeps (mk := 7364608) (Keeps.refl s) (by decide)).dob (by decide)
@[simp] theorem reportLoss_mgmt (s : State) (r : Nat) (ow : Bool) : (reportLoss s r ow).mgmt = s.mgmt := (reportLoss_keeps (mk := 7364608) (Keeps.refl s) (by decide)).mgmt (by decide)
@[simp] theorem reportLoss_vault (s : State) (r : Nat) (ow : Bool) : (reportLoss s r ow).vault = s.vault := (reportLoss_keeps (mk := 7364608) (Keeps.refl s) (by decide)).vault (by decide)

@[simp] theorem signalLine_pending (s : State) (r : Nat) (grave : Bool) : (signalLine s r grave).pending = s.pending := (signalLine_keeps (mk := 1073152) (Keeps.refl s) (by decide)).pending
@[simp] theorem signalLine_now (s : State) (r : Nat) (grave : Bool) : (signalLine s r grave).now = s.now := (signalLine_keeps (mk := 1073152) (Keeps.refl s) (by decide)).now
@[simp] theorem signalLine_ft (s : State) (r : Nat) (grave : Bool) : (signalLine s r grave).ft = s.ft := (signalLine_keeps (mk := 1073152) (Keeps.refl s) (by decide)).ft (by decide)
@[simp] theorem signalLine_cfg (s : State) (r : Nat) (grave : Bool) : (signalLine s r grave).cfg = s.cfg := (signalLine_keeps (mk := 1073152) (Keeps.refl s) (by decide)).cfg (by decide)
@[simp] theorem signalLine_flash (s : State) (r : Nat) (grave : Bool) : (signalLine s r grave).flash = s.flash := (signalLine_keeps (mk := 1073152) (Keeps.refl s) (by decide)).flash (by decide)
@[simp] theorem signalLine_module (s : State) (r : Nat) (grave : Bool) : (signalLine s r grave).module = s.module := (signalLine_keeps (mk := 1073152) (Keeps.refl s) (by decide)).module (by decide)
@[simp] theorem signalLine_power (s : State) (r : Nat) (grave : Bool) : (signalLine s r grave).power = s.power := (signalLine_keeps (mk := 1073152) (Keeps.refl s) (by decide)).power (by decide)
@[simp] theorem signalLine_gov (s : State) (r : Nat) (grave : Bool) : (signalLine s r grave).gov = s.gov := (signalLine_keeps (mk := 1073152) (Keeps.refl s) (by decide)).gov (by decide)
@[simp] theorem signalLine_lanes (s : State) (r : Nat) (grave : Bool) : (signalLine s r grave).lanes = s.lanes := (signalLine_keeps (mk := 1073152) (Keeps.refl s) (by decide)).lanes (by decide)
@[simp] theorem signalLine_weft (s : State) (r : Nat) (grave : Bool) : (signalLine s r grave).weft = s.weft := (signalLine_keeps (mk := 1073152) (Keeps.refl s) (by decide)).weft (by decide)
@[simp] theorem signalLine_warp (s : State) (r : Nat) (grave : Bool) : (signalLine s r grave).warp = s.warp := (signalLine_keeps (mk := 1073152) (Keeps.refl s) (by decide)).warp (by decide)
@[simp] theorem signalLine_loom (s : State) (r : Nat) (grave : Bool) : (signalLine s r grave).loom = s.loom := (signalLine_keeps (mk := 1073152) (Keeps.refl s) (by decide)).loom (by decide)
@[simp] theorem signalLine_fab (s : State) (r : Nat) (grave : Bool) : (signalLine s r grave).fab = s.fab := (signalLine_keeps (mk := 1073152) (Keeps.refl s) (by decide)).fab (by decide)
@[simp] theorem signalLine_shu (s : State) (r : Nat) (grave : Bool) : (signalLine s r grave).shu = s.shu := (signalLine_keeps (mk := 1073152) (Keeps.refl s) (by decide)).shu (by decide)
@[simp] theorem signalLine_win (s : State) (r : Nat) (grave : Bool) : (signalLine s r grave).win = s.win := (signalLine_keeps (mk := 1073152) (Keeps.refl s) (by decide)).win (by decide)
@[simp] theorem signalLine_sel (s : State) (r : Nat) (grave : Bool) : (signalLine s r grave).sel = s.sel := (signalLine_keeps (mk := 1073152) (Keeps.refl s) (by decide)).sel (by decide)
@[simp] theorem signalLine_twin (s : State) (r : Nat) (grave : Bool) : (signalLine s r grave).twin = s.twin := (signalLine_keeps (mk := 1073152) (Keeps.refl s) (by decide)).twin (by decide)
@[simp] theorem signalLine_dob (s : State) (r : Nat) (grave : Bool) : (signalLine s r grave).dob = s.dob := (signalLine_keeps (mk := 1073152) (Keeps.refl s) (by decide)).dob (by decide)
@[simp] theorem signalLine_mgmt (s : State) (r : Nat) (grave : Bool) : (signalLine s r grave).mgmt = s.mgmt := (signalLine_keeps (mk := 1073152) (Keeps.refl s) (by decide)).mgmt (by decide)
@[simp] theorem signalLine_vault (s : State) (r : Nat) (grave : Bool) : (signalLine s r grave).vault = s.vault := (signalLine_keeps (mk := 1073152) (Keeps.refl s) (by decide)).vault (by decide)
@[simp] theorem signalLine_host (s : State) (r : Nat) (grave : Bool) : (signalLine s r grave).host = s.host := (signalLine_keeps (mk := 1073152) (Keeps.refl s) (by decide)).host (by decide)
@[simp] theorem signalLine_beam (s : State) (r : Nat) (grave : Bool) : (signalLine s r grave).beam = s.beam := (signalLine_keeps (mk := 1073152) (Keeps.refl s) (by decide)).beam (by decide)

@[simp] theorem ctrWeft_pending (s : State) (p : Nat) (c : Nat) (n : Nat) : (ctrWeft s p c n).pending = s.pending := (ctrWeft_keeps (mk := 1048576) (Keeps.refl s) (by decide)).pending
@[simp] theorem ctrWeft_now (s : State) (p : Nat) (c : Nat) (n : Nat) : (ctrWeft s p c n).now = s.now := (ctrWeft_keeps (mk := 1048576) (Keeps.refl s) (by decide)).now
@[simp] theorem ctrWeft_ft (s : State) (p : Nat) (c : Nat) (n : Nat) : (ctrWeft s p c n).ft = s.ft := (ctrWeft_keeps (mk := 1048576) (Keeps.refl s) (by decide)).ft (by decide)
@[simp] theorem ctrWeft_cfg (s : State) (p : Nat) (c : Nat) (n : Nat) : (ctrWeft s p c n).cfg = s.cfg := (ctrWeft_keeps (mk := 1048576) (Keeps.refl s) (by decide)).cfg (by decide)
@[simp] theorem ctrWeft_flash (s : State) (p : Nat) (c : Nat) (n : Nat) : (ctrWeft s p c n).flash = s.flash := (ctrWeft_keeps (mk := 1048576) (Keeps.refl s) (by decide)).flash (by decide)
@[simp] theorem ctrWeft_module (s : State) (p : Nat) (c : Nat) (n : Nat) : (ctrWeft s p c n).module = s.module := (ctrWeft_keeps (mk := 1048576) (Keeps.refl s) (by decide)).module (by decide)
@[simp] theorem ctrWeft_power (s : State) (p : Nat) (c : Nat) (n : Nat) : (ctrWeft s p c n).power = s.power := (ctrWeft_keeps (mk := 1048576) (Keeps.refl s) (by decide)).power (by decide)
@[simp] theorem ctrWeft_gov (s : State) (p : Nat) (c : Nat) (n : Nat) : (ctrWeft s p c n).gov = s.gov := (ctrWeft_keeps (mk := 1048576) (Keeps.refl s) (by decide)).gov (by decide)
@[simp] theorem ctrWeft_lanes (s : State) (p : Nat) (c : Nat) (n : Nat) : (ctrWeft s p c n).lanes = s.lanes := (ctrWeft_keeps (mk := 1048576) (Keeps.refl s) (by decide)).lanes (by decide)
@[simp] theorem ctrWeft_weft (s : State) (p : Nat) (c : Nat) (n : Nat) : (ctrWeft s p c n).weft = s.weft := (ctrWeft_keeps (mk := 1048576) (Keeps.refl s) (by decide)).weft (by decide)
@[simp] theorem ctrWeft_warp (s : State) (p : Nat) (c : Nat) (n : Nat) : (ctrWeft s p c n).warp = s.warp := (ctrWeft_keeps (mk := 1048576) (Keeps.refl s) (by decide)).warp (by decide)
@[simp] theorem ctrWeft_loom (s : State) (p : Nat) (c : Nat) (n : Nat) : (ctrWeft s p c n).loom = s.loom := (ctrWeft_keeps (mk := 1048576) (Keeps.refl s) (by decide)).loom (by decide)
@[simp] theorem ctrWeft_fab (s : State) (p : Nat) (c : Nat) (n : Nat) : (ctrWeft s p c n).fab = s.fab := (ctrWeft_keeps (mk := 1048576) (Keeps.refl s) (by decide)).fab (by decide)
@[simp] theorem ctrWeft_shu (s : State) (p : Nat) (c : Nat) (n : Nat) : (ctrWeft s p c n).shu = s.shu := (ctrWeft_keeps (mk := 1048576) (Keeps.refl s) (by decide)).shu (by decide)
@[simp] theorem ctrWeft_win (s : State) (p : Nat) (c : Nat) (n : Nat) : (ctrWeft s p c n).win = s.win := (ctrWeft_keeps (mk := 1048576) (Keeps.refl s) (by decide)).win (by decide)
@[simp] theorem ctrWeft_eng (s : State) (p : Nat) (c : Nat) (n : Nat) : (ctrWeft s p c n).eng = s.eng := (ctrWeft_keeps (mk := 1048576) (Keeps.refl s) (by decide)).eng (by decide)
@[simp] theorem ctrWeft_hed (s : State) (p : Nat) (c : Nat) (n : Nat) : (ctrWeft s p c n).hed = s.hed := (ctrWeft_keeps (mk := 1048576) (Keeps.refl s) (by decide)).hed (by decide)
@[simp] theorem ctrWeft_sel (s : State) (p : Nat) (c : Nat) (n : Nat) : (ctrWeft s p c n).sel = s.sel := (ctrWeft_keeps (mk := 1048576) (Keeps.refl s) (by decide)).sel (by decide)
@[simp] theorem ctrWeft_twin (s : State) (p : Nat) (c : Nat) (n : Nat) : (ctrWeft s p c n).twin = s.twin := (ctrWeft_keeps (mk := 1048576) (Keeps.refl s) (by decide)).twin (by decide)
@[simp] theorem ctrWeft_dob (s : State) (p : Nat) (c : Nat) (n : Nat) : (ctrWeft s p c n).dob = s.dob := (ctrWeft_keeps (mk := 1048576) (Keeps.refl s) (by decide)).dob (by decide)
@[simp] theorem ctrWeft_mgmt (s : State) (p : Nat) (c : Nat) (n : Nat) : (ctrWeft s p c n).mgmt = s.mgmt := (ctrWeft_keeps (mk := 1048576) (Keeps.refl s) (by decide)).mgmt (by decide)
@[simp] theorem ctrWeft_vault (s : State) (p : Nat) (c : Nat) (n : Nat) : (ctrWeft s p c n).vault = s.vault := (ctrWeft_keeps (mk := 1048576) (Keeps.refl s) (by decide)).vault (by decide)
@[simp] theorem ctrWeft_host (s : State) (p : Nat) (c : Nat) (n : Nat) : (ctrWeft s p c n).host = s.host := (ctrWeft_keeps (mk := 1048576) (Keeps.refl s) (by decide)).host (by decide)
@[simp] theorem ctrWeft_beam (s : State) (p : Nat) (c : Nat) (n : Nat) : (ctrWeft s p c n).beam = s.beam := (ctrWeft_keeps (mk := 1048576) (Keeps.refl s) (by decide)).beam (by decide)

@[simp] theorem denied_pending (s : State) (h : Nat) (cls : Nat) (kind : Nat) (inbound : Bool) (addr : Nat) (region : Nat) (sub : Nat) : (denied s h cls kind inbound addr region sub).pending = s.pending := (denied_keeps (mk := 7364608) (Keeps.refl s) (by decide)).pending
@[simp] theorem denied_now (s : State) (h : Nat) (cls : Nat) (kind : Nat) (inbound : Bool) (addr : Nat) (region : Nat) (sub : Nat) : (denied s h cls kind inbound addr region sub).now = s.now := (denied_keeps (mk := 7364608) (Keeps.refl s) (by decide)).now
@[simp] theorem denied_ft (s : State) (h : Nat) (cls : Nat) (kind : Nat) (inbound : Bool) (addr : Nat) (region : Nat) (sub : Nat) : (denied s h cls kind inbound addr region sub).ft = s.ft := (denied_keeps (mk := 7364608) (Keeps.refl s) (by decide)).ft (by decide)
@[simp] theorem denied_cfg (s : State) (h : Nat) (cls : Nat) (kind : Nat) (inbound : Bool) (addr : Nat) (region : Nat) (sub : Nat) : (denied s h cls kind inbound addr region sub).cfg = s.cfg := (denied_keeps (mk := 7364608) (Keeps.refl s) (by decide)).cfg (by decide)
@[simp] theorem denied_flash (s : State) (h : Nat) (cls : Nat) (kind : Nat) (inbound : Bool) (addr : Nat) (region : Nat) (sub : Nat) : (denied s h cls kind inbound addr region sub).flash = s.flash := (denied_keeps (mk := 7364608) (Keeps.refl s) (by decide)).flash (by decide)
@[simp] theorem denied_module (s : State) (h : Nat) (cls : Nat) (kind : Nat) (inbound : Bool) (addr : Nat) (region : Nat) (sub : Nat) : (denied s h cls kind inbound addr region sub).module = s.module := (denied_keeps (mk := 7364608) (Keeps.refl s) (by decide)).module (by decide)
@[simp] theorem denied_power (s : State) (h : Nat) (cls : Nat) (kind : Nat) (inbound : Bool) (addr : Nat) (region : Nat) (sub : Nat) : (denied s h cls kind inbound addr region sub).power = s.power := (denied_keeps (mk := 7364608) (Keeps.refl s) (by decide)).power (by decide)
@[simp] theorem denied_gov (s : State) (h : Nat) (cls : Nat) (kind : Nat) (inbound : Bool) (addr : Nat) (region : Nat) (sub : Nat) : (denied s h cls kind inbound addr region sub).gov = s.gov := (denied_keeps (mk := 7364608) (Keeps.refl s) (by decide)).gov (by decide)
@[simp] theorem denied_lanes (s : State) (h : Nat) (cls : Nat) (kind : Nat) (inbound : Bool) (addr : Nat) (region : Nat) (sub : Nat) : (denied s h cls kind inbound addr region sub).lanes = s.lanes := (denied_keeps (mk := 7364608) (Keeps.refl s) (by decide)).lanes (by decide)
@[simp] theorem denied_weft (s : State) (h : Nat) (cls : Nat) (kind : Nat) (inbound : Bool) (addr : Nat) (region : Nat) (sub : Nat) : (denied s h cls kind inbound addr region sub).weft = s.weft := (denied_keeps (mk := 7364608) (Keeps.refl s) (by decide)).weft (by decide)
@[simp] theorem denied_warp (s : State) (h : Nat) (cls : Nat) (kind : Nat) (inbound : Bool) (addr : Nat) (region : Nat) (sub : Nat) : (denied s h cls kind inbound addr region sub).warp = s.warp := (denied_keeps (mk := 7364608) (Keeps.refl s) (by decide)).warp (by decide)
@[simp] theorem denied_loom (s : State) (h : Nat) (cls : Nat) (kind : Nat) (inbound : Bool) (addr : Nat) (region : Nat) (sub : Nat) : (denied s h cls kind inbound addr region sub).loom = s.loom := (denied_keeps (mk := 7364608) (Keeps.refl s) (by decide)).loom (by decide)
@[simp] theorem denied_fab (s : State) (h : Nat) (cls : Nat) (kind : Nat) (inbound : Bool) (addr : Nat) (region : Nat) (sub : Nat) : (denied s h cls kind inbound addr region sub).fab = s.fab := (denied_keeps (mk := 7364608) (Keeps.refl s) (by decide)).fab (by decide)
@[simp] theorem denied_shu (s : State) (h : Nat) (cls : Nat) (kind : Nat) (inbound : Bool) (addr : Nat) (region : Nat) (sub : Nat) : (denied s h cls kind inbound addr region sub).shu = s.shu := (denied_keeps (mk := 7364608) (Keeps.refl s) (by decide)).shu (by decide)
@[simp] theorem denied_win (s : State) (h : Nat) (cls : Nat) (kind : Nat) (inbound : Bool) (addr : Nat) (region : Nat) (sub : Nat) : (denied s h cls kind inbound addr region sub).win = s.win := (denied_keeps (mk := 7364608) (Keeps.refl s) (by decide)).win (by decide)
@[simp] theorem denied_sel (s : State) (h : Nat) (cls : Nat) (kind : Nat) (inbound : Bool) (addr : Nat) (region : Nat) (sub : Nat) : (denied s h cls kind inbound addr region sub).sel = s.sel := (denied_keeps (mk := 7364608) (Keeps.refl s) (by decide)).sel (by decide)
@[simp] theorem denied_twin (s : State) (h : Nat) (cls : Nat) (kind : Nat) (inbound : Bool) (addr : Nat) (region : Nat) (sub : Nat) : (denied s h cls kind inbound addr region sub).twin = s.twin := (denied_keeps (mk := 7364608) (Keeps.refl s) (by decide)).twin (by decide)
@[simp] theorem denied_dob (s : State) (h : Nat) (cls : Nat) (kind : Nat) (inbound : Bool) (addr : Nat) (region : Nat) (sub : Nat) : (denied s h cls kind inbound addr region sub).dob = s.dob := (denied_keeps (mk := 7364608) (Keeps.refl s) (by decide)).dob (by decide)
@[simp] theorem denied_mgmt (s : State) (h : Nat) (cls : Nat) (kind : Nat) (inbound : Bool) (addr : Nat) (region : Nat) (sub : Nat) : (denied s h cls kind inbound addr region sub).mgmt = s.mgmt := (denied_keeps (mk := 7364608) (Keeps.refl s) (by decide)).mgmt (by decide)
@[simp] theorem denied_vault (s : State) (h : Nat) (cls : Nat) (kind : Nat) (inbound : Bool) (addr : Nat) (region : Nat) (sub : Nat) : (denied s h cls kind inbound addr region sub).vault = s.vault := (denied_keeps (mk := 7364608) (Keeps.refl s) (by decide)).vault (by decide)

@[simp] theorem passed_pending (s : State) (h : Nat) (ownPass : Bool) (i : FilterItem) : (passed s h ownPass i).pending = s.pending := (passed_keeps (mk := 1048576) (Keeps.refl s) (by decide)).pending
@[simp] theorem passed_now (s : State) (h : Nat) (ownPass : Bool) (i : FilterItem) : (passed s h ownPass i).now = s.now := (passed_keeps (mk := 1048576) (Keeps.refl s) (by decide)).now
@[simp] theorem passed_ft (s : State) (h : Nat) (ownPass : Bool) (i : FilterItem) : (passed s h ownPass i).ft = s.ft := (passed_keeps (mk := 1048576) (Keeps.refl s) (by decide)).ft (by decide)
@[simp] theorem passed_cfg (s : State) (h : Nat) (ownPass : Bool) (i : FilterItem) : (passed s h ownPass i).cfg = s.cfg := (passed_keeps (mk := 1048576) (Keeps.refl s) (by decide)).cfg (by decide)
@[simp] theorem passed_flash (s : State) (h : Nat) (ownPass : Bool) (i : FilterItem) : (passed s h ownPass i).flash = s.flash := (passed_keeps (mk := 1048576) (Keeps.refl s) (by decide)).flash (by decide)
@[simp] theorem passed_module (s : State) (h : Nat) (ownPass : Bool) (i : FilterItem) : (passed s h ownPass i).module = s.module := (passed_keeps (mk := 1048576) (Keeps.refl s) (by decide)).module (by decide)
@[simp] theorem passed_power (s : State) (h : Nat) (ownPass : Bool) (i : FilterItem) : (passed s h ownPass i).power = s.power := (passed_keeps (mk := 1048576) (Keeps.refl s) (by decide)).power (by decide)
@[simp] theorem passed_gov (s : State) (h : Nat) (ownPass : Bool) (i : FilterItem) : (passed s h ownPass i).gov = s.gov := (passed_keeps (mk := 1048576) (Keeps.refl s) (by decide)).gov (by decide)
@[simp] theorem passed_lanes (s : State) (h : Nat) (ownPass : Bool) (i : FilterItem) : (passed s h ownPass i).lanes = s.lanes := (passed_keeps (mk := 1048576) (Keeps.refl s) (by decide)).lanes (by decide)
@[simp] theorem passed_weft (s : State) (h : Nat) (ownPass : Bool) (i : FilterItem) : (passed s h ownPass i).weft = s.weft := (passed_keeps (mk := 1048576) (Keeps.refl s) (by decide)).weft (by decide)
@[simp] theorem passed_warp (s : State) (h : Nat) (ownPass : Bool) (i : FilterItem) : (passed s h ownPass i).warp = s.warp := (passed_keeps (mk := 1048576) (Keeps.refl s) (by decide)).warp (by decide)
@[simp] theorem passed_loom (s : State) (h : Nat) (ownPass : Bool) (i : FilterItem) : (passed s h ownPass i).loom = s.loom := (passed_keeps (mk := 1048576) (Keeps.refl s) (by decide)).loom (by decide)
@[simp] theorem passed_fab (s : State) (h : Nat) (ownPass : Bool) (i : FilterItem) : (passed s h ownPass i).fab = s.fab := (passed_keeps (mk := 1048576) (Keeps.refl s) (by decide)).fab (by decide)
@[simp] theorem passed_shu (s : State) (h : Nat) (ownPass : Bool) (i : FilterItem) : (passed s h ownPass i).shu = s.shu := (passed_keeps (mk := 1048576) (Keeps.refl s) (by decide)).shu (by decide)
@[simp] theorem passed_win (s : State) (h : Nat) (ownPass : Bool) (i : FilterItem) : (passed s h ownPass i).win = s.win := (passed_keeps (mk := 1048576) (Keeps.refl s) (by decide)).win (by decide)
@[simp] theorem passed_eng (s : State) (h : Nat) (ownPass : Bool) (i : FilterItem) : (passed s h ownPass i).eng = s.eng := (passed_keeps (mk := 1048576) (Keeps.refl s) (by decide)).eng (by decide)
@[simp] theorem passed_hed (s : State) (h : Nat) (ownPass : Bool) (i : FilterItem) : (passed s h ownPass i).hed = s.hed := (passed_keeps (mk := 1048576) (Keeps.refl s) (by decide)).hed (by decide)
@[simp] theorem passed_sel (s : State) (h : Nat) (ownPass : Bool) (i : FilterItem) : (passed s h ownPass i).sel = s.sel := (passed_keeps (mk := 1048576) (Keeps.refl s) (by decide)).sel (by decide)
@[simp] theorem passed_twin (s : State) (h : Nat) (ownPass : Bool) (i : FilterItem) : (passed s h ownPass i).twin = s.twin := (passed_keeps (mk := 1048576) (Keeps.refl s) (by decide)).twin (by decide)
@[simp] theorem passed_dob (s : State) (h : Nat) (ownPass : Bool) (i : FilterItem) : (passed s h ownPass i).dob = s.dob := (passed_keeps (mk := 1048576) (Keeps.refl s) (by decide)).dob (by decide)
@[simp] theorem passed_mgmt (s : State) (h : Nat) (ownPass : Bool) (i : FilterItem) : (passed s h ownPass i).mgmt = s.mgmt := (passed_keeps (mk := 1048576) (Keeps.refl s) (by decide)).mgmt (by decide)
@[simp] theorem passed_vault (s : State) (h : Nat) (ownPass : Bool) (i : FilterItem) : (passed s h ownPass i).vault = s.vault := (passed_keeps (mk := 1048576) (Keeps.refl s) (by decide)).vault (by decide)
@[simp] theorem passed_host (s : State) (h : Nat) (ownPass : Bool) (i : FilterItem) : (passed s h ownPass i).host = s.host := (passed_keeps (mk := 1048576) (Keeps.refl s) (by decide)).host (by decide)
@[simp] theorem passed_beam (s : State) (h : Nat) (ownPass : Bool) (i : FilterItem) : (passed s h ownPass i).beam = s.beam := (passed_keeps (mk := 1048576) (Keeps.refl s) (by decide)).beam (by decide)

@[simp] theorem filterItem_pending (s : State) (b : Nat) (i : FilterItem) : (filterItem s b i).pending = s.pending := (filterItem_keeps (mk := 1048576) (Keeps.refl s) (by decide)).pending
@[simp] theorem filterItem_now (s : State) (b : Nat) (i : FilterItem) : (filterItem s b i).now = s.now := (filterItem_keeps (mk := 1048576) (Keeps.refl s) (by decide)).now
@[simp] theorem filterItem_ft (s : State) (b : Nat) (i : FilterItem) : (filterItem s b i).ft = s.ft := (filterItem_keeps (mk := 1048576) (Keeps.refl s) (by decide)).ft (by decide)
@[simp] theorem filterItem_cfg (s : State) (b : Nat) (i : FilterItem) : (filterItem s b i).cfg = s.cfg := (filterItem_keeps (mk := 1048576) (Keeps.refl s) (by decide)).cfg (by decide)
@[simp] theorem filterItem_flash (s : State) (b : Nat) (i : FilterItem) : (filterItem s b i).flash = s.flash := (filterItem_keeps (mk := 1048576) (Keeps.refl s) (by decide)).flash (by decide)
@[simp] theorem filterItem_module (s : State) (b : Nat) (i : FilterItem) : (filterItem s b i).module = s.module := (filterItem_keeps (mk := 1048576) (Keeps.refl s) (by decide)).module (by decide)
@[simp] theorem filterItem_power (s : State) (b : Nat) (i : FilterItem) : (filterItem s b i).power = s.power := (filterItem_keeps (mk := 1048576) (Keeps.refl s) (by decide)).power (by decide)
@[simp] theorem filterItem_gov (s : State) (b : Nat) (i : FilterItem) : (filterItem s b i).gov = s.gov := (filterItem_keeps (mk := 1048576) (Keeps.refl s) (by decide)).gov (by decide)
@[simp] theorem filterItem_lanes (s : State) (b : Nat) (i : FilterItem) : (filterItem s b i).lanes = s.lanes := (filterItem_keeps (mk := 1048576) (Keeps.refl s) (by decide)).lanes (by decide)
@[simp] theorem filterItem_weft (s : State) (b : Nat) (i : FilterItem) : (filterItem s b i).weft = s.weft := (filterItem_keeps (mk := 1048576) (Keeps.refl s) (by decide)).weft (by decide)
@[simp] theorem filterItem_warp (s : State) (b : Nat) (i : FilterItem) : (filterItem s b i).warp = s.warp := (filterItem_keeps (mk := 1048576) (Keeps.refl s) (by decide)).warp (by decide)
@[simp] theorem filterItem_loom (s : State) (b : Nat) (i : FilterItem) : (filterItem s b i).loom = s.loom := (filterItem_keeps (mk := 1048576) (Keeps.refl s) (by decide)).loom (by decide)
@[simp] theorem filterItem_fab (s : State) (b : Nat) (i : FilterItem) : (filterItem s b i).fab = s.fab := (filterItem_keeps (mk := 1048576) (Keeps.refl s) (by decide)).fab (by decide)
@[simp] theorem filterItem_shu (s : State) (b : Nat) (i : FilterItem) : (filterItem s b i).shu = s.shu := (filterItem_keeps (mk := 1048576) (Keeps.refl s) (by decide)).shu (by decide)
@[simp] theorem filterItem_win (s : State) (b : Nat) (i : FilterItem) : (filterItem s b i).win = s.win := (filterItem_keeps (mk := 1048576) (Keeps.refl s) (by decide)).win (by decide)
@[simp] theorem filterItem_eng (s : State) (b : Nat) (i : FilterItem) : (filterItem s b i).eng = s.eng := (filterItem_keeps (mk := 1048576) (Keeps.refl s) (by decide)).eng (by decide)
@[simp] theorem filterItem_hed (s : State) (b : Nat) (i : FilterItem) : (filterItem s b i).hed = s.hed := (filterItem_keeps (mk := 1048576) (Keeps.refl s) (by decide)).hed (by decide)
@[simp] theorem filterItem_sel (s : State) (b : Nat) (i : FilterItem) : (filterItem s b i).sel = s.sel := (filterItem_keeps (mk := 1048576) (Keeps.refl s) (by decide)).sel (by decide)
@[simp] theorem filterItem_twin (s : State) (b : Nat) (i : FilterItem) : (filterItem s b i).twin = s.twin := (filterItem_keeps (mk := 1048576) (Keeps.refl s) (by decide)).twin (by decide)
@[simp] theorem filterItem_dob (s : State) (b : Nat) (i : FilterItem) : (filterItem s b i).dob = s.dob := (filterItem_keeps (mk := 1048576) (Keeps.refl s) (by decide)).dob (by decide)
@[simp] theorem filterItem_mgmt (s : State) (b : Nat) (i : FilterItem) : (filterItem s b i).mgmt = s.mgmt := (filterItem_keeps (mk := 1048576) (Keeps.refl s) (by decide)).mgmt (by decide)
@[simp] theorem filterItem_vault (s : State) (b : Nat) (i : FilterItem) : (filterItem s b i).vault = s.vault := (filterItem_keeps (mk := 1048576) (Keeps.refl s) (by decide)).vault (by decide)
@[simp] theorem filterItem_host (s : State) (b : Nat) (i : FilterItem) : (filterItem s b i).host = s.host := (filterItem_keeps (mk := 1048576) (Keeps.refl s) (by decide)).host (by decide)
@[simp] theorem filterItem_beam (s : State) (b : Nat) (i : FilterItem) : (filterItem s b i).beam = s.beam := (filterItem_keeps (mk := 1048576) (Keeps.refl s) (by decide)).beam (by decide)

@[simp] theorem earlyHandover_pending (s : State) : (earlyHandover s).pending = s.pending := (earlyHandover_keeps (mk := 1048576) (Keeps.refl s) (by decide)).pending
@[simp] theorem earlyHandover_now (s : State) : (earlyHandover s).now = s.now := (earlyHandover_keeps (mk := 1048576) (Keeps.refl s) (by decide)).now
@[simp] theorem earlyHandover_ft (s : State) : (earlyHandover s).ft = s.ft := (earlyHandover_keeps (mk := 1048576) (Keeps.refl s) (by decide)).ft (by decide)
@[simp] theorem earlyHandover_cfg (s : State) : (earlyHandover s).cfg = s.cfg := (earlyHandover_keeps (mk := 1048576) (Keeps.refl s) (by decide)).cfg (by decide)
@[simp] theorem earlyHandover_flash (s : State) : (earlyHandover s).flash = s.flash := (earlyHandover_keeps (mk := 1048576) (Keeps.refl s) (by decide)).flash (by decide)
@[simp] theorem earlyHandover_module (s : State) : (earlyHandover s).module = s.module := (earlyHandover_keeps (mk := 1048576) (Keeps.refl s) (by decide)).module (by decide)
@[simp] theorem earlyHandover_power (s : State) : (earlyHandover s).power = s.power := (earlyHandover_keeps (mk := 1048576) (Keeps.refl s) (by decide)).power (by decide)
@[simp] theorem earlyHandover_gov (s : State) : (earlyHandover s).gov = s.gov := (earlyHandover_keeps (mk := 1048576) (Keeps.refl s) (by decide)).gov (by decide)
@[simp] theorem earlyHandover_lanes (s : State) : (earlyHandover s).lanes = s.lanes := (earlyHandover_keeps (mk := 1048576) (Keeps.refl s) (by decide)).lanes (by decide)
@[simp] theorem earlyHandover_weft (s : State) : (earlyHandover s).weft = s.weft := (earlyHandover_keeps (mk := 1048576) (Keeps.refl s) (by decide)).weft (by decide)
@[simp] theorem earlyHandover_warp (s : State) : (earlyHandover s).warp = s.warp := (earlyHandover_keeps (mk := 1048576) (Keeps.refl s) (by decide)).warp (by decide)
@[simp] theorem earlyHandover_loom (s : State) : (earlyHandover s).loom = s.loom := (earlyHandover_keeps (mk := 1048576) (Keeps.refl s) (by decide)).loom (by decide)
@[simp] theorem earlyHandover_fab (s : State) : (earlyHandover s).fab = s.fab := (earlyHandover_keeps (mk := 1048576) (Keeps.refl s) (by decide)).fab (by decide)
@[simp] theorem earlyHandover_shu (s : State) : (earlyHandover s).shu = s.shu := (earlyHandover_keeps (mk := 1048576) (Keeps.refl s) (by decide)).shu (by decide)
@[simp] theorem earlyHandover_win (s : State) : (earlyHandover s).win = s.win := (earlyHandover_keeps (mk := 1048576) (Keeps.refl s) (by decide)).win (by decide)
@[simp] theorem earlyHandover_eng (s : State) : (earlyHandover s).eng = s.eng := (earlyHandover_keeps (mk := 1048576) (Keeps.refl s) (by decide)).eng (by decide)
@[simp] theorem earlyHandover_hed (s : State) : (earlyHandover s).hed = s.hed := (earlyHandover_keeps (mk := 1048576) (Keeps.refl s) (by decide)).hed (by decide)
@[simp] theorem earlyHandover_sel (s : State) : (earlyHandover s).sel = s.sel := (earlyHandover_keeps (mk := 1048576) (Keeps.refl s) (by decide)).sel (by decide)
@[simp] theorem earlyHandover_twin (s : State) : (earlyHandover s).twin = s.twin := (earlyHandover_keeps (mk := 1048576) (Keeps.refl s) (by decide)).twin (by decide)
@[simp] theorem earlyHandover_dob (s : State) : (earlyHandover s).dob = s.dob := (earlyHandover_keeps (mk := 1048576) (Keeps.refl s) (by decide)).dob (by decide)
@[simp] theorem earlyHandover_mgmt (s : State) : (earlyHandover s).mgmt = s.mgmt := (earlyHandover_keeps (mk := 1048576) (Keeps.refl s) (by decide)).mgmt (by decide)
@[simp] theorem earlyHandover_vault (s : State) : (earlyHandover s).vault = s.vault := (earlyHandover_keeps (mk := 1048576) (Keeps.refl s) (by decide)).vault (by decide)
@[simp] theorem earlyHandover_host (s : State) : (earlyHandover s).host = s.host := (earlyHandover_keeps (mk := 1048576) (Keeps.refl s) (by decide)).host (by decide)
@[simp] theorem earlyHandover_beam (s : State) : (earlyHandover s).beam = s.beam := (earlyHandover_keeps (mk := 1048576) (Keeps.refl s) (by decide)).beam (by decide)

@[simp] theorem newDebugNonce_pending (s : State) : (newDebugNonce s).pending = s.pending := (newDebugNonce_keeps (mk := 524288) (Keeps.refl s) (by decide)).pending
@[simp] theorem newDebugNonce_now (s : State) : (newDebugNonce s).now = s.now := (newDebugNonce_keeps (mk := 524288) (Keeps.refl s) (by decide)).now
@[simp] theorem newDebugNonce_ft (s : State) : (newDebugNonce s).ft = s.ft := (newDebugNonce_keeps (mk := 524288) (Keeps.refl s) (by decide)).ft (by decide)
@[simp] theorem newDebugNonce_cfg (s : State) : (newDebugNonce s).cfg = s.cfg := (newDebugNonce_keeps (mk := 524288) (Keeps.refl s) (by decide)).cfg (by decide)
@[simp] theorem newDebugNonce_flash (s : State) : (newDebugNonce s).flash = s.flash := (newDebugNonce_keeps (mk := 524288) (Keeps.refl s) (by decide)).flash (by decide)
@[simp] theorem newDebugNonce_module (s : State) : (newDebugNonce s).module = s.module := (newDebugNonce_keeps (mk := 524288) (Keeps.refl s) (by decide)).module (by decide)
@[simp] theorem newDebugNonce_power (s : State) : (newDebugNonce s).power = s.power := (newDebugNonce_keeps (mk := 524288) (Keeps.refl s) (by decide)).power (by decide)
@[simp] theorem newDebugNonce_gov (s : State) : (newDebugNonce s).gov = s.gov := (newDebugNonce_keeps (mk := 524288) (Keeps.refl s) (by decide)).gov (by decide)
@[simp] theorem newDebugNonce_lanes (s : State) : (newDebugNonce s).lanes = s.lanes := (newDebugNonce_keeps (mk := 524288) (Keeps.refl s) (by decide)).lanes (by decide)
@[simp] theorem newDebugNonce_weft (s : State) : (newDebugNonce s).weft = s.weft := (newDebugNonce_keeps (mk := 524288) (Keeps.refl s) (by decide)).weft (by decide)
@[simp] theorem newDebugNonce_warp (s : State) : (newDebugNonce s).warp = s.warp := (newDebugNonce_keeps (mk := 524288) (Keeps.refl s) (by decide)).warp (by decide)
@[simp] theorem newDebugNonce_loom (s : State) : (newDebugNonce s).loom = s.loom := (newDebugNonce_keeps (mk := 524288) (Keeps.refl s) (by decide)).loom (by decide)
@[simp] theorem newDebugNonce_fab (s : State) : (newDebugNonce s).fab = s.fab := (newDebugNonce_keeps (mk := 524288) (Keeps.refl s) (by decide)).fab (by decide)
@[simp] theorem newDebugNonce_shu (s : State) : (newDebugNonce s).shu = s.shu := (newDebugNonce_keeps (mk := 524288) (Keeps.refl s) (by decide)).shu (by decide)
@[simp] theorem newDebugNonce_win (s : State) : (newDebugNonce s).win = s.win := (newDebugNonce_keeps (mk := 524288) (Keeps.refl s) (by decide)).win (by decide)
@[simp] theorem newDebugNonce_eng (s : State) : (newDebugNonce s).eng = s.eng := (newDebugNonce_keeps (mk := 524288) (Keeps.refl s) (by decide)).eng (by decide)
@[simp] theorem newDebugNonce_hed (s : State) : (newDebugNonce s).hed = s.hed := (newDebugNonce_keeps (mk := 524288) (Keeps.refl s) (by decide)).hed (by decide)
@[simp] theorem newDebugNonce_sel (s : State) : (newDebugNonce s).sel = s.sel := (newDebugNonce_keeps (mk := 524288) (Keeps.refl s) (by decide)).sel (by decide)
@[simp] theorem newDebugNonce_twin (s : State) : (newDebugNonce s).twin = s.twin := (newDebugNonce_keeps (mk := 524288) (Keeps.refl s) (by decide)).twin (by decide)
@[simp] theorem newDebugNonce_dob (s : State) : (newDebugNonce s).dob = s.dob := (newDebugNonce_keeps (mk := 524288) (Keeps.refl s) (by decide)).dob (by decide)
@[simp] theorem newDebugNonce_mgmt (s : State) : (newDebugNonce s).mgmt = s.mgmt := (newDebugNonce_keeps (mk := 524288) (Keeps.refl s) (by decide)).mgmt (by decide)
@[simp] theorem newDebugNonce_obs (s : State) : (newDebugNonce s).obs = s.obs := (newDebugNonce_keeps (mk := 524288) (Keeps.refl s) (by decide)).obs (by decide)
@[simp] theorem newDebugNonce_host (s : State) : (newDebugNonce s).host = s.host := (newDebugNonce_keeps (mk := 524288) (Keeps.refl s) (by decide)).host (by decide)
@[simp] theorem newDebugNonce_beam (s : State) : (newDebugNonce s).beam = s.beam := (newDebugNonce_keeps (mk := 524288) (Keeps.refl s) (by decide)).beam (by decide)

@[simp] theorem newBeamKey_pending (s : State) : (newBeamKey s).pending = s.pending := (newBeamKey_keeps (mk := 524288) (Keeps.refl s) (by decide)).pending
@[simp] theorem newBeamKey_now (s : State) : (newBeamKey s).now = s.now := (newBeamKey_keeps (mk := 524288) (Keeps.refl s) (by decide)).now
@[simp] theorem newBeamKey_ft (s : State) : (newBeamKey s).ft = s.ft := (newBeamKey_keeps (mk := 524288) (Keeps.refl s) (by decide)).ft (by decide)
@[simp] theorem newBeamKey_cfg (s : State) : (newBeamKey s).cfg = s.cfg := (newBeamKey_keeps (mk := 524288) (Keeps.refl s) (by decide)).cfg (by decide)
@[simp] theorem newBeamKey_flash (s : State) : (newBeamKey s).flash = s.flash := (newBeamKey_keeps (mk := 524288) (Keeps.refl s) (by decide)).flash (by decide)
@[simp] theorem newBeamKey_module (s : State) : (newBeamKey s).module = s.module := (newBeamKey_keeps (mk := 524288) (Keeps.refl s) (by decide)).module (by decide)
@[simp] theorem newBeamKey_power (s : State) : (newBeamKey s).power = s.power := (newBeamKey_keeps (mk := 524288) (Keeps.refl s) (by decide)).power (by decide)
@[simp] theorem newBeamKey_gov (s : State) : (newBeamKey s).gov = s.gov := (newBeamKey_keeps (mk := 524288) (Keeps.refl s) (by decide)).gov (by decide)
@[simp] theorem newBeamKey_lanes (s : State) : (newBeamKey s).lanes = s.lanes := (newBeamKey_keeps (mk := 524288) (Keeps.refl s) (by decide)).lanes (by decide)
@[simp] theorem newBeamKey_weft (s : State) : (newBeamKey s).weft = s.weft := (newBeamKey_keeps (mk := 524288) (Keeps.refl s) (by decide)).weft (by decide)
@[simp] theorem newBeamKey_warp (s : State) : (newBeamKey s).warp = s.warp := (newBeamKey_keeps (mk := 524288) (Keeps.refl s) (by decide)).warp (by decide)
@[simp] theorem newBeamKey_loom (s : State) : (newBeamKey s).loom = s.loom := (newBeamKey_keeps (mk := 524288) (Keeps.refl s) (by decide)).loom (by decide)
@[simp] theorem newBeamKey_fab (s : State) : (newBeamKey s).fab = s.fab := (newBeamKey_keeps (mk := 524288) (Keeps.refl s) (by decide)).fab (by decide)
@[simp] theorem newBeamKey_shu (s : State) : (newBeamKey s).shu = s.shu := (newBeamKey_keeps (mk := 524288) (Keeps.refl s) (by decide)).shu (by decide)
@[simp] theorem newBeamKey_win (s : State) : (newBeamKey s).win = s.win := (newBeamKey_keeps (mk := 524288) (Keeps.refl s) (by decide)).win (by decide)
@[simp] theorem newBeamKey_eng (s : State) : (newBeamKey s).eng = s.eng := (newBeamKey_keeps (mk := 524288) (Keeps.refl s) (by decide)).eng (by decide)
@[simp] theorem newBeamKey_hed (s : State) : (newBeamKey s).hed = s.hed := (newBeamKey_keeps (mk := 524288) (Keeps.refl s) (by decide)).hed (by decide)
@[simp] theorem newBeamKey_sel (s : State) : (newBeamKey s).sel = s.sel := (newBeamKey_keeps (mk := 524288) (Keeps.refl s) (by decide)).sel (by decide)
@[simp] theorem newBeamKey_twin (s : State) : (newBeamKey s).twin = s.twin := (newBeamKey_keeps (mk := 524288) (Keeps.refl s) (by decide)).twin (by decide)
@[simp] theorem newBeamKey_dob (s : State) : (newBeamKey s).dob = s.dob := (newBeamKey_keeps (mk := 524288) (Keeps.refl s) (by decide)).dob (by decide)
@[simp] theorem newBeamKey_mgmt (s : State) : (newBeamKey s).mgmt = s.mgmt := (newBeamKey_keeps (mk := 524288) (Keeps.refl s) (by decide)).mgmt (by decide)
@[simp] theorem newBeamKey_obs (s : State) : (newBeamKey s).obs = s.obs := (newBeamKey_keeps (mk := 524288) (Keeps.refl s) (by decide)).obs (by decide)
@[simp] theorem newBeamKey_host (s : State) : (newBeamKey s).host = s.host := (newBeamKey_keeps (mk := 524288) (Keeps.refl s) (by decide)).host (by decide)
@[simp] theorem newBeamKey_beam (s : State) : (newBeamKey s).beam = s.beam := (newBeamKey_keeps (mk := 524288) (Keeps.refl s) (by decide)).beam (by decide)

@[simp] theorem driveSysreset_pending (s : State) : (driveSysreset s).pending = s.pending := (driveSysreset_keeps (mk := 131072) (Keeps.refl s) (by decide)).pending
@[simp] theorem driveSysreset_now (s : State) : (driveSysreset s).now = s.now := (driveSysreset_keeps (mk := 131072) (Keeps.refl s) (by decide)).now
@[simp] theorem driveSysreset_ft (s : State) : (driveSysreset s).ft = s.ft := (driveSysreset_keeps (mk := 131072) (Keeps.refl s) (by decide)).ft (by decide)
@[simp] theorem driveSysreset_cfg (s : State) : (driveSysreset s).cfg = s.cfg := (driveSysreset_keeps (mk := 131072) (Keeps.refl s) (by decide)).cfg (by decide)
@[simp] theorem driveSysreset_flash (s : State) : (driveSysreset s).flash = s.flash := (driveSysreset_keeps (mk := 131072) (Keeps.refl s) (by decide)).flash (by decide)
@[simp] theorem driveSysreset_module (s : State) : (driveSysreset s).module = s.module := (driveSysreset_keeps (mk := 131072) (Keeps.refl s) (by decide)).module (by decide)
@[simp] theorem driveSysreset_power (s : State) : (driveSysreset s).power = s.power := (driveSysreset_keeps (mk := 131072) (Keeps.refl s) (by decide)).power (by decide)
@[simp] theorem driveSysreset_gov (s : State) : (driveSysreset s).gov = s.gov := (driveSysreset_keeps (mk := 131072) (Keeps.refl s) (by decide)).gov (by decide)
@[simp] theorem driveSysreset_lanes (s : State) : (driveSysreset s).lanes = s.lanes := (driveSysreset_keeps (mk := 131072) (Keeps.refl s) (by decide)).lanes (by decide)
@[simp] theorem driveSysreset_weft (s : State) : (driveSysreset s).weft = s.weft := (driveSysreset_keeps (mk := 131072) (Keeps.refl s) (by decide)).weft (by decide)
@[simp] theorem driveSysreset_warp (s : State) : (driveSysreset s).warp = s.warp := (driveSysreset_keeps (mk := 131072) (Keeps.refl s) (by decide)).warp (by decide)
@[simp] theorem driveSysreset_loom (s : State) : (driveSysreset s).loom = s.loom := (driveSysreset_keeps (mk := 131072) (Keeps.refl s) (by decide)).loom (by decide)
@[simp] theorem driveSysreset_fab (s : State) : (driveSysreset s).fab = s.fab := (driveSysreset_keeps (mk := 131072) (Keeps.refl s) (by decide)).fab (by decide)
@[simp] theorem driveSysreset_shu (s : State) : (driveSysreset s).shu = s.shu := (driveSysreset_keeps (mk := 131072) (Keeps.refl s) (by decide)).shu (by decide)
@[simp] theorem driveSysreset_win (s : State) : (driveSysreset s).win = s.win := (driveSysreset_keeps (mk := 131072) (Keeps.refl s) (by decide)).win (by decide)
@[simp] theorem driveSysreset_eng (s : State) : (driveSysreset s).eng = s.eng := (driveSysreset_keeps (mk := 131072) (Keeps.refl s) (by decide)).eng (by decide)
@[simp] theorem driveSysreset_hed (s : State) : (driveSysreset s).hed = s.hed := (driveSysreset_keeps (mk := 131072) (Keeps.refl s) (by decide)).hed (by decide)
@[simp] theorem driveSysreset_sel (s : State) : (driveSysreset s).sel = s.sel := (driveSysreset_keeps (mk := 131072) (Keeps.refl s) (by decide)).sel (by decide)
@[simp] theorem driveSysreset_twin (s : State) : (driveSysreset s).twin = s.twin := (driveSysreset_keeps (mk := 131072) (Keeps.refl s) (by decide)).twin (by decide)
@[simp] theorem driveSysreset_mgmt (s : State) : (driveSysreset s).mgmt = s.mgmt := (driveSysreset_keeps (mk := 131072) (Keeps.refl s) (by decide)).mgmt (by decide)
@[simp] theorem driveSysreset_vault (s : State) : (driveSysreset s).vault = s.vault := (driveSysreset_keeps (mk := 131072) (Keeps.refl s) (by decide)).vault (by decide)
@[simp] theorem driveSysreset_obs (s : State) : (driveSysreset s).obs = s.obs := (driveSysreset_keeps (mk := 131072) (Keeps.refl s) (by decide)).obs (by decide)
@[simp] theorem driveSysreset_host (s : State) : (driveSysreset s).host = s.host := (driveSysreset_keeps (mk := 131072) (Keeps.refl s) (by decide)).host (by decide)
@[simp] theorem driveSysreset_beam (s : State) : (driveSysreset s).beam = s.beam := (driveSysreset_keeps (mk := 131072) (Keeps.refl s) (by decide)).beam (by decide)

@[simp] theorem storedInForce_pending (s : State) (f : Nat → Bool) : (storedInForce s f).pending = s.pending := (storedInForce_keeps (mk := 2) (Keeps.refl s) (by decide)).pending
@[simp] theorem storedInForce_now (s : State) (f : Nat → Bool) : (storedInForce s f).now = s.now := (storedInForce_keeps (mk := 2) (Keeps.refl s) (by decide)).now
@[simp] theorem storedInForce_ft (s : State) (f : Nat → Bool) : (storedInForce s f).ft = s.ft := (storedInForce_keeps (mk := 2) (Keeps.refl s) (by decide)).ft (by decide)
@[simp] theorem storedInForce_flash (s : State) (f : Nat → Bool) : (storedInForce s f).flash = s.flash := (storedInForce_keeps (mk := 2) (Keeps.refl s) (by decide)).flash (by decide)
@[simp] theorem storedInForce_module (s : State) (f : Nat → Bool) : (storedInForce s f).module = s.module := (storedInForce_keeps (mk := 2) (Keeps.refl s) (by decide)).module (by decide)
@[simp] theorem storedInForce_power (s : State) (f : Nat → Bool) : (storedInForce s f).power = s.power := (storedInForce_keeps (mk := 2) (Keeps.refl s) (by decide)).power (by decide)
@[simp] theorem storedInForce_gov (s : State) (f : Nat → Bool) : (storedInForce s f).gov = s.gov := (storedInForce_keeps (mk := 2) (Keeps.refl s) (by decide)).gov (by decide)
@[simp] theorem storedInForce_lanes (s : State) (f : Nat → Bool) : (storedInForce s f).lanes = s.lanes := (storedInForce_keeps (mk := 2) (Keeps.refl s) (by decide)).lanes (by decide)
@[simp] theorem storedInForce_weft (s : State) (f : Nat → Bool) : (storedInForce s f).weft = s.weft := (storedInForce_keeps (mk := 2) (Keeps.refl s) (by decide)).weft (by decide)
@[simp] theorem storedInForce_warp (s : State) (f : Nat → Bool) : (storedInForce s f).warp = s.warp := (storedInForce_keeps (mk := 2) (Keeps.refl s) (by decide)).warp (by decide)
@[simp] theorem storedInForce_loom (s : State) (f : Nat → Bool) : (storedInForce s f).loom = s.loom := (storedInForce_keeps (mk := 2) (Keeps.refl s) (by decide)).loom (by decide)
@[simp] theorem storedInForce_fab (s : State) (f : Nat → Bool) : (storedInForce s f).fab = s.fab := (storedInForce_keeps (mk := 2) (Keeps.refl s) (by decide)).fab (by decide)
@[simp] theorem storedInForce_shu (s : State) (f : Nat → Bool) : (storedInForce s f).shu = s.shu := (storedInForce_keeps (mk := 2) (Keeps.refl s) (by decide)).shu (by decide)
@[simp] theorem storedInForce_win (s : State) (f : Nat → Bool) : (storedInForce s f).win = s.win := (storedInForce_keeps (mk := 2) (Keeps.refl s) (by decide)).win (by decide)
@[simp] theorem storedInForce_eng (s : State) (f : Nat → Bool) : (storedInForce s f).eng = s.eng := (storedInForce_keeps (mk := 2) (Keeps.refl s) (by decide)).eng (by decide)
@[simp] theorem storedInForce_hed (s : State) (f : Nat → Bool) : (storedInForce s f).hed = s.hed := (storedInForce_keeps (mk := 2) (Keeps.refl s) (by decide)).hed (by decide)
@[simp] theorem storedInForce_sel (s : State) (f : Nat → Bool) : (storedInForce s f).sel = s.sel := (storedInForce_keeps (mk := 2) (Keeps.refl s) (by decide)).sel (by decide)
@[simp] theorem storedInForce_twin (s : State) (f : Nat → Bool) : (storedInForce s f).twin = s.twin := (storedInForce_keeps (mk := 2) (Keeps.refl s) (by decide)).twin (by decide)
@[simp] theorem storedInForce_dob (s : State) (f : Nat → Bool) : (storedInForce s f).dob = s.dob := (storedInForce_keeps (mk := 2) (Keeps.refl s) (by decide)).dob (by decide)
@[simp] theorem storedInForce_mgmt (s : State) (f : Nat → Bool) : (storedInForce s f).mgmt = s.mgmt := (storedInForce_keeps (mk := 2) (Keeps.refl s) (by decide)).mgmt (by decide)
@[simp] theorem storedInForce_vault (s : State) (f : Nat → Bool) : (storedInForce s f).vault = s.vault := (storedInForce_keeps (mk := 2) (Keeps.refl s) (by decide)).vault (by decide)
@[simp] theorem storedInForce_obs (s : State) (f : Nat → Bool) : (storedInForce s f).obs = s.obs := (storedInForce_keeps (mk := 2) (Keeps.refl s) (by decide)).obs (by decide)
@[simp] theorem storedInForce_host (s : State) (f : Nat → Bool) : (storedInForce s f).host = s.host := (storedInForce_keeps (mk := 2) (Keeps.refl s) (by decide)).host (by decide)
@[simp] theorem storedInForce_beam (s : State) (f : Nat → Bool) : (storedInForce s f).beam = s.beam := (storedInForce_keeps (mk := 2) (Keeps.refl s) (by decide)).beam (by decide)

@[simp] theorem spoolStart_pending (s : State) : (spoolStart s).pending = s.pending := (spoolStart_keeps (mk := 7364610) (Keeps.refl s) (by decide)).pending
@[simp] theorem spoolStart_now (s : State) : (spoolStart s).now = s.now := (spoolStart_keeps (mk := 7364610) (Keeps.refl s) (by decide)).now
@[simp] theorem spoolStart_ft (s : State) : (spoolStart s).ft = s.ft := (spoolStart_keeps (mk := 7364610) (Keeps.refl s) (by decide)).ft (by decide)
@[simp] theorem spoolStart_flash (s : State) : (spoolStart s).flash = s.flash := (spoolStart_keeps (mk := 7364610) (Keeps.refl s) (by decide)).flash (by decide)
@[simp] theorem spoolStart_module (s : State) : (spoolStart s).module = s.module := (spoolStart_keeps (mk := 7364610) (Keeps.refl s) (by decide)).module (by decide)
@[simp] theorem spoolStart_power (s : State) : (spoolStart s).power = s.power := (spoolStart_keeps (mk := 7364610) (Keeps.refl s) (by decide)).power (by decide)
@[simp] theorem spoolStart_gov (s : State) : (spoolStart s).gov = s.gov := (spoolStart_keeps (mk := 7364610) (Keeps.refl s) (by decide)).gov (by decide)
@[simp] theorem spoolStart_lanes (s : State) : (spoolStart s).lanes = s.lanes := (spoolStart_keeps (mk := 7364610) (Keeps.refl s) (by decide)).lanes (by decide)
@[simp] theorem spoolStart_weft (s : State) : (spoolStart s).weft = s.weft := (spoolStart_keeps (mk := 7364610) (Keeps.refl s) (by decide)).weft (by decide)
@[simp] theorem spoolStart_warp (s : State) : (spoolStart s).warp = s.warp := (spoolStart_keeps (mk := 7364610) (Keeps.refl s) (by decide)).warp (by decide)
@[simp] theorem spoolStart_loom (s : State) : (spoolStart s).loom = s.loom := (spoolStart_keeps (mk := 7364610) (Keeps.refl s) (by decide)).loom (by decide)
@[simp] theorem spoolStart_fab (s : State) : (spoolStart s).fab = s.fab := (spoolStart_keeps (mk := 7364610) (Keeps.refl s) (by decide)).fab (by decide)
@[simp] theorem spoolStart_shu (s : State) : (spoolStart s).shu = s.shu := (spoolStart_keeps (mk := 7364610) (Keeps.refl s) (by decide)).shu (by decide)
@[simp] theorem spoolStart_win (s : State) : (spoolStart s).win = s.win := (spoolStart_keeps (mk := 7364610) (Keeps.refl s) (by decide)).win (by decide)
@[simp] theorem spoolStart_sel (s : State) : (spoolStart s).sel = s.sel := (spoolStart_keeps (mk := 7364610) (Keeps.refl s) (by decide)).sel (by decide)
@[simp] theorem spoolStart_twin (s : State) : (spoolStart s).twin = s.twin := (spoolStart_keeps (mk := 7364610) (Keeps.refl s) (by decide)).twin (by decide)
@[simp] theorem spoolStart_dob (s : State) : (spoolStart s).dob = s.dob := (spoolStart_keeps (mk := 7364610) (Keeps.refl s) (by decide)).dob (by decide)
@[simp] theorem spoolStart_mgmt (s : State) : (spoolStart s).mgmt = s.mgmt := (spoolStart_keeps (mk := 7364610) (Keeps.refl s) (by decide)).mgmt (by decide)
@[simp] theorem spoolStart_vault (s : State) : (spoolStart s).vault = s.vault := (spoolStart_keeps (mk := 7364610) (Keeps.refl s) (by decide)).vault (by decide)

@[simp] theorem boltReset_pending (s : State) (cause : Nat) (reason : Nat) (before : ModState) : (boltReset s cause reason before).pending = s.pending := (boltReset_keeps (mk := 7367552) (Keeps.refl s) (by decide)).pending
@[simp] theorem boltReset_now (s : State) (cause : Nat) (reason : Nat) (before : ModState) : (boltReset s cause reason before).now = s.now := (boltReset_keeps (mk := 7367552) (Keeps.refl s) (by decide)).now
@[simp] theorem boltReset_ft (s : State) (cause : Nat) (reason : Nat) (before : ModState) : (boltReset s cause reason before).ft = s.ft := (boltReset_keeps (mk := 7367552) (Keeps.refl s) (by decide)).ft (by decide)
@[simp] theorem boltReset_cfg (s : State) (cause : Nat) (reason : Nat) (before : ModState) : (boltReset s cause reason before).cfg = s.cfg := (boltReset_keeps (mk := 7367552) (Keeps.refl s) (by decide)).cfg (by decide)
@[simp] theorem boltReset_flash (s : State) (cause : Nat) (reason : Nat) (before : ModState) : (boltReset s cause reason before).flash = s.flash := (boltReset_keeps (mk := 7367552) (Keeps.refl s) (by decide)).flash (by decide)
@[simp] theorem boltReset_module (s : State) (cause : Nat) (reason : Nat) (before : ModState) : (boltReset s cause reason before).module = s.module := (boltReset_keeps (mk := 7367552) (Keeps.refl s) (by decide)).module (by decide)
@[simp] theorem boltReset_power (s : State) (cause : Nat) (reason : Nat) (before : ModState) : (boltReset s cause reason before).power = s.power := (boltReset_keeps (mk := 7367552) (Keeps.refl s) (by decide)).power (by decide)
@[simp] theorem boltReset_gov (s : State) (cause : Nat) (reason : Nat) (before : ModState) : (boltReset s cause reason before).gov = s.gov := (boltReset_keeps (mk := 7367552) (Keeps.refl s) (by decide)).gov (by decide)
@[simp] theorem boltReset_lanes (s : State) (cause : Nat) (reason : Nat) (before : ModState) : (boltReset s cause reason before).lanes = s.lanes := (boltReset_keeps (mk := 7367552) (Keeps.refl s) (by decide)).lanes (by decide)
@[simp] theorem boltReset_fab (s : State) (cause : Nat) (reason : Nat) (before : ModState) : (boltReset s cause reason before).fab = s.fab := (boltReset_keeps (mk := 7367552) (Keeps.refl s) (by decide)).fab (by decide)
@[simp] theorem boltReset_win (s : State) (cause : Nat) (reason : Nat) (before : ModState) : (boltReset s cause reason before).win = s.win := (boltReset_keeps (mk := 7367552) (Keeps.refl s) (by decide)).win (by decide)
@[simp] theorem boltReset_sel (s : State) (cause : Nat) (reason : Nat) (before : ModState) : (boltReset s cause reason before).sel = s.sel := (boltReset_keeps (mk := 7367552) (Keeps.refl s) (by decide)).sel (by decide)
@[simp] theorem boltReset_twin (s : State) (cause : Nat) (reason : Nat) (before : ModState) : (boltReset s cause reason before).twin = s.twin := (boltReset_keeps (mk := 7367552) (Keeps.refl s) (by decide)).twin (by decide)
@[simp] theorem boltReset_dob (s : State) (cause : Nat) (reason : Nat) (before : ModState) : (boltReset s cause reason before).dob = s.dob := (boltReset_keeps (mk := 7367552) (Keeps.refl s) (by decide)).dob (by decide)
@[simp] theorem boltReset_mgmt (s : State) (cause : Nat) (reason : Nat) (before : ModState) : (boltReset s cause reason before).mgmt = s.mgmt := (boltReset_keeps (mk := 7367552) (Keeps.refl s) (by decide)).mgmt (by decide)
@[simp] theorem boltReset_vault (s : State) (cause : Nat) (reason : Nat) (before : ModState) : (boltReset s cause reason before).vault = s.vault := (boltReset_keeps (mk := 7367552) (Keeps.refl s) (by decide)).vault (by decide)

@[simp] theorem boltDone_pending (s : State) : (boltDone s).pending = s.pending := (boltDone_keeps (mk := 7364608) (Keeps.refl s) (by decide)).pending
@[simp] theorem boltDone_now (s : State) : (boltDone s).now = s.now := (boltDone_keeps (mk := 7364608) (Keeps.refl s) (by decide)).now
@[simp] theorem boltDone_ft (s : State) : (boltDone s).ft = s.ft := (boltDone_keeps (mk := 7364608) (Keeps.refl s) (by decide)).ft (by decide)
@[simp] theorem boltDone_cfg (s : State) : (boltDone s).cfg = s.cfg := (boltDone_keeps (mk := 7364608) (Keeps.refl s) (by decide)).cfg (by decide)
@[simp] theorem boltDone_flash (s : State) : (boltDone s).flash = s.flash := (boltDone_keeps (mk := 7364608) (Keeps.refl s) (by decide)).flash (by decide)
@[simp] theorem boltDone_module (s : State) : (boltDone s).module = s.module := (boltDone_keeps (mk := 7364608) (Keeps.refl s) (by decide)).module (by decide)
@[simp] theorem boltDone_power (s : State) : (boltDone s).power = s.power := (boltDone_keeps (mk := 7364608) (Keeps.refl s) (by decide)).power (by decide)
@[simp] theorem boltDone_gov (s : State) : (boltDone s).gov = s.gov := (boltDone_keeps (mk := 7364608) (Keeps.refl s) (by decide)).gov (by decide)
@[simp] theorem boltDone_lanes (s : State) : (boltDone s).lanes = s.lanes := (boltDone_keeps (mk := 7364608) (Keeps.refl s) (by decide)).lanes (by decide)
@[simp] theorem boltDone_weft (s : State) : (boltDone s).weft = s.weft := (boltDone_keeps (mk := 7364608) (Keeps.refl s) (by decide)).weft (by decide)
@[simp] theorem boltDone_warp (s : State) : (boltDone s).warp = s.warp := (boltDone_keeps (mk := 7364608) (Keeps.refl s) (by decide)).warp (by decide)
@[simp] theorem boltDone_loom (s : State) : (boltDone s).loom = s.loom := (boltDone_keeps (mk := 7364608) (Keeps.refl s) (by decide)).loom (by decide)
@[simp] theorem boltDone_fab (s : State) : (boltDone s).fab = s.fab := (boltDone_keeps (mk := 7364608) (Keeps.refl s) (by decide)).fab (by decide)
@[simp] theorem boltDone_shu (s : State) : (boltDone s).shu = s.shu := (boltDone_keeps (mk := 7364608) (Keeps.refl s) (by decide)).shu (by decide)
@[simp] theorem boltDone_win (s : State) : (boltDone s).win = s.win := (boltDone_keeps (mk := 7364608) (Keeps.refl s) (by decide)).win (by decide)
@[simp] theorem boltDone_sel (s : State) : (boltDone s).sel = s.sel := (boltDone_keeps (mk := 7364608) (Keeps.refl s) (by decide)).sel (by decide)
@[simp] theorem boltDone_twin (s : State) : (boltDone s).twin = s.twin := (boltDone_keeps (mk := 7364608) (Keeps.refl s) (by decide)).twin (by decide)
@[simp] theorem boltDone_dob (s : State) : (boltDone s).dob = s.dob := (boltDone_keeps (mk := 7364608) (Keeps.refl s) (by decide)).dob (by decide)
@[simp] theorem boltDone_mgmt (s : State) : (boltDone s).mgmt = s.mgmt := (boltDone_keeps (mk := 7364608) (Keeps.refl s) (by decide)).mgmt (by decide)
@[simp] theorem boltDone_vault (s : State) : (boltDone s).vault = s.vault := (boltDone_keeps (mk := 7364608) (Keeps.refl s) (by decide)).vault (by decide)

@[simp] theorem twinGoneSend_pending (s : State) : (twinGoneSend s).pending = s.pending := (twinGoneSend_keeps (mk := 1116160) (Keeps.refl s) (by decide)).pending
@[simp] theorem twinGoneSend_now (s : State) : (twinGoneSend s).now = s.now := (twinGoneSend_keeps (mk := 1116160) (Keeps.refl s) (by decide)).now
@[simp] theorem twinGoneSend_ft (s : State) : (twinGoneSend s).ft = s.ft := (twinGoneSend_keeps (mk := 1116160) (Keeps.refl s) (by decide)).ft (by decide)
@[simp] theorem twinGoneSend_cfg (s : State) : (twinGoneSend s).cfg = s.cfg := (twinGoneSend_keeps (mk := 1116160) (Keeps.refl s) (by decide)).cfg (by decide)
@[simp] theorem twinGoneSend_flash (s : State) : (twinGoneSend s).flash = s.flash := (twinGoneSend_keeps (mk := 1116160) (Keeps.refl s) (by decide)).flash (by decide)
@[simp] theorem twinGoneSend_module (s : State) : (twinGoneSend s).module = s.module := (twinGoneSend_keeps (mk := 1116160) (Keeps.refl s) (by decide)).module (by decide)
@[simp] theorem twinGoneSend_power (s : State) : (twinGoneSend s).power = s.power := (twinGoneSend_keeps (mk := 1116160) (Keeps.refl s) (by decide)).power (by decide)
@[simp] theorem twinGoneSend_gov (s : State) : (twinGoneSend s).gov = s.gov := (twinGoneSend_keeps (mk := 1116160) (Keeps.refl s) (by decide)).gov (by decide)
@[simp] theorem twinGoneSend_lanes (s : State) : (twinGoneSend s).lanes = s.lanes := (twinGoneSend_keeps (mk := 1116160) (Keeps.refl s) (by decide)).lanes (by decide)
@[simp] theorem twinGoneSend_weft (s : State) : (twinGoneSend s).weft = s.weft := (twinGoneSend_keeps (mk := 1116160) (Keeps.refl s) (by decide)).weft (by decide)
@[simp] theorem twinGoneSend_warp (s : State) : (twinGoneSend s).warp = s.warp := (twinGoneSend_keeps (mk := 1116160) (Keeps.refl s) (by decide)).warp (by decide)
@[simp] theorem twinGoneSend_loom (s : State) : (twinGoneSend s).loom = s.loom := (twinGoneSend_keeps (mk := 1116160) (Keeps.refl s) (by decide)).loom (by decide)
@[simp] theorem twinGoneSend_fab (s : State) : (twinGoneSend s).fab = s.fab := (twinGoneSend_keeps (mk := 1116160) (Keeps.refl s) (by decide)).fab (by decide)
@[simp] theorem twinGoneSend_win (s : State) : (twinGoneSend s).win = s.win := (twinGoneSend_keeps (mk := 1116160) (Keeps.refl s) (by decide)).win (by decide)
@[simp] theorem twinGoneSend_eng (s : State) : (twinGoneSend s).eng = s.eng := (twinGoneSend_keeps (mk := 1116160) (Keeps.refl s) (by decide)).eng (by decide)
@[simp] theorem twinGoneSend_hed (s : State) : (twinGoneSend s).hed = s.hed := (twinGoneSend_keeps (mk := 1116160) (Keeps.refl s) (by decide)).hed (by decide)
@[simp] theorem twinGoneSend_sel (s : State) : (twinGoneSend s).sel = s.sel := (twinGoneSend_keeps (mk := 1116160) (Keeps.refl s) (by decide)).sel (by decide)
@[simp] theorem twinGoneSend_dob (s : State) : (twinGoneSend s).dob = s.dob := (twinGoneSend_keeps (mk := 1116160) (Keeps.refl s) (by decide)).dob (by decide)
@[simp] theorem twinGoneSend_mgmt (s : State) : (twinGoneSend s).mgmt = s.mgmt := (twinGoneSend_keeps (mk := 1116160) (Keeps.refl s) (by decide)).mgmt (by decide)
@[simp] theorem twinGoneSend_vault (s : State) : (twinGoneSend s).vault = s.vault := (twinGoneSend_keeps (mk := 1116160) (Keeps.refl s) (by decide)).vault (by decide)
@[simp] theorem twinGoneSend_host (s : State) : (twinGoneSend s).host = s.host := (twinGoneSend_keeps (mk := 1116160) (Keeps.refl s) (by decide)).host (by decide)
@[simp] theorem twinGoneSend_beam (s : State) : (twinGoneSend s).beam = s.beam := (twinGoneSend_keeps (mk := 1116160) (Keeps.refl s) (by decide)).beam (by decide)

@[simp] theorem boltLater_pending (s : State) (cause : Nat) (before : ModState) : (boltLater s cause before).pending = s.pending := (boltLater_keeps (mk := 7364608) (Keeps.refl s) (by decide)).pending
@[simp] theorem boltLater_now (s : State) (cause : Nat) (before : ModState) : (boltLater s cause before).now = s.now := (boltLater_keeps (mk := 7364608) (Keeps.refl s) (by decide)).now
@[simp] theorem boltLater_ft (s : State) (cause : Nat) (before : ModState) : (boltLater s cause before).ft = s.ft := (boltLater_keeps (mk := 7364608) (Keeps.refl s) (by decide)).ft (by decide)
@[simp] theorem boltLater_cfg (s : State) (cause : Nat) (before : ModState) : (boltLater s cause before).cfg = s.cfg := (boltLater_keeps (mk := 7364608) (Keeps.refl s) (by decide)).cfg (by decide)
@[simp] theorem boltLater_flash (s : State) (cause : Nat) (before : ModState) : (boltLater s cause before).flash = s.flash := (boltLater_keeps (mk := 7364608) (Keeps.refl s) (by decide)).flash (by decide)
@[simp] theorem boltLater_module (s : State) (cause : Nat) (before : ModState) : (boltLater s cause before).module = s.module := (boltLater_keeps (mk := 7364608) (Keeps.refl s) (by decide)).module (by decide)
@[simp] theorem boltLater_power (s : State) (cause : Nat) (before : ModState) : (boltLater s cause before).power = s.power := (boltLater_keeps (mk := 7364608) (Keeps.refl s) (by decide)).power (by decide)
@[simp] theorem boltLater_gov (s : State) (cause : Nat) (before : ModState) : (boltLater s cause before).gov = s.gov := (boltLater_keeps (mk := 7364608) (Keeps.refl s) (by decide)).gov (by decide)
@[simp] theorem boltLater_lanes (s : State) (cause : Nat) (before : ModState) : (boltLater s cause before).lanes = s.lanes := (boltLater_keeps (mk := 7364608) (Keeps.refl s) (by decide)).lanes (by decide)
@[simp] theorem boltLater_weft (s : State) (cause : Nat) (before : ModState) : (boltLater s cause before).weft = s.weft := (boltLater_keeps (mk := 7364608) (Keeps.refl s) (by decide)).weft (by decide)
@[simp] theorem boltLater_warp (s : State) (cause : Nat) (before : ModState) : (boltLater s cause before).warp = s.warp := (boltLater_keeps (mk := 7364608) (Keeps.refl s) (by decide)).warp (by decide)
@[simp] theorem boltLater_loom (s : State) (cause : Nat) (before : ModState) : (boltLater s cause before).loom = s.loom := (boltLater_keeps (mk := 7364608) (Keeps.refl s) (by decide)).loom (by decide)
@[simp] theorem boltLater_fab (s : State) (cause : Nat) (before : ModState) : (boltLater s cause before).fab = s.fab := (boltLater_keeps (mk := 7364608) (Keeps.refl s) (by decide)).fab (by decide)
@[simp] theorem boltLater_shu (s : State) (cause : Nat) (before : ModState) : (boltLater s cause before).shu = s.shu := (boltLater_keeps (mk := 7364608) (Keeps.refl s) (by decide)).shu (by decide)
@[simp] theorem boltLater_win (s : State) (cause : Nat) (before : ModState) : (boltLater s cause before).win = s.win := (boltLater_keeps (mk := 7364608) (Keeps.refl s) (by decide)).win (by decide)
@[simp] theorem boltLater_sel (s : State) (cause : Nat) (before : ModState) : (boltLater s cause before).sel = s.sel := (boltLater_keeps (mk := 7364608) (Keeps.refl s) (by decide)).sel (by decide)
@[simp] theorem boltLater_twin (s : State) (cause : Nat) (before : ModState) : (boltLater s cause before).twin = s.twin := (boltLater_keeps (mk := 7364608) (Keeps.refl s) (by decide)).twin (by decide)
@[simp] theorem boltLater_dob (s : State) (cause : Nat) (before : ModState) : (boltLater s cause before).dob = s.dob := (boltLater_keeps (mk := 7364608) (Keeps.refl s) (by decide)).dob (by decide)
@[simp] theorem boltLater_mgmt (s : State) (cause : Nat) (before : ModState) : (boltLater s cause before).mgmt = s.mgmt := (boltLater_keeps (mk := 7364608) (Keeps.refl s) (by decide)).mgmt (by decide)
@[simp] theorem boltLater_vault (s : State) (cause : Nat) (before : ModState) : (boltLater s cause before).vault = s.vault := (boltLater_keeps (mk := 7364608) (Keeps.refl s) (by decide)).vault (by decide)

@[simp] theorem boltStart_pending (s : State) (kind : Nat) (cause : Nat) (before : ModState) (first : List BoltSection) : (boltStart s kind cause before first).pending = s.pending := (boltStart_keeps (mk := 7367552) (Keeps.refl s) (by decide)).pending
@[simp] theorem boltStart_now (s : State) (kind : Nat) (cause : Nat) (before : ModState) (first : List BoltSection) : (boltStart s kind cause before first).now = s.now := (boltStart_keeps (mk := 7367552) (Keeps.refl s) (by decide)).now
@[simp] theorem boltStart_ft (s : State) (kind : Nat) (cause : Nat) (before : ModState) (first : List BoltSection) : (boltStart s kind cause before first).ft = s.ft := (boltStart_keeps (mk := 7367552) (Keeps.refl s) (by decide)).ft (by decide)
@[simp] theorem boltStart_cfg (s : State) (kind : Nat) (cause : Nat) (before : ModState) (first : List BoltSection) : (boltStart s kind cause before first).cfg = s.cfg := (boltStart_keeps (mk := 7367552) (Keeps.refl s) (by decide)).cfg (by decide)
@[simp] theorem boltStart_flash (s : State) (kind : Nat) (cause : Nat) (before : ModState) (first : List BoltSection) : (boltStart s kind cause before first).flash = s.flash := (boltStart_keeps (mk := 7367552) (Keeps.refl s) (by decide)).flash (by decide)
@[simp] theorem boltStart_module (s : State) (kind : Nat) (cause : Nat) (before : ModState) (first : List BoltSection) : (boltStart s kind cause before first).module = s.module := (boltStart_keeps (mk := 7367552) (Keeps.refl s) (by decide)).module (by decide)
@[simp] theorem boltStart_power (s : State) (kind : Nat) (cause : Nat) (before : ModState) (first : List BoltSection) : (boltStart s kind cause before first).power = s.power := (boltStart_keeps (mk := 7367552) (Keeps.refl s) (by decide)).power (by decide)
@[simp] theorem boltStart_gov (s : State) (kind : Nat) (cause : Nat) (before : ModState) (first : List BoltSection) : (boltStart s kind cause before first).gov = s.gov := (boltStart_keeps (mk := 7367552) (Keeps.refl s) (by decide)).gov (by decide)
@[simp] theorem boltStart_lanes (s : State) (kind : Nat) (cause : Nat) (before : ModState) (first : List BoltSection) : (boltStart s kind cause before first).lanes = s.lanes := (boltStart_keeps (mk := 7367552) (Keeps.refl s) (by decide)).lanes (by decide)
@[simp] theorem boltStart_fab (s : State) (kind : Nat) (cause : Nat) (before : ModState) (first : List BoltSection) : (boltStart s kind cause before first).fab = s.fab := (boltStart_keeps (mk := 7367552) (Keeps.refl s) (by decide)).fab (by decide)
@[simp] theorem boltStart_win (s : State) (kind : Nat) (cause : Nat) (before : ModState) (first : List BoltSection) : (boltStart s kind cause before first).win = s.win := (boltStart_keeps (mk := 7367552) (Keeps.refl s) (by decide)).win (by decide)
@[simp] theorem boltStart_sel (s : State) (kind : Nat) (cause : Nat) (before : ModState) (first : List BoltSection) : (boltStart s kind cause before first).sel = s.sel := (boltStart_keeps (mk := 7367552) (Keeps.refl s) (by decide)).sel (by decide)
@[simp] theorem boltStart_twin (s : State) (kind : Nat) (cause : Nat) (before : ModState) (first : List BoltSection) : (boltStart s kind cause before first).twin = s.twin := (boltStart_keeps (mk := 7367552) (Keeps.refl s) (by decide)).twin (by decide)
@[simp] theorem boltStart_dob (s : State) (kind : Nat) (cause : Nat) (before : ModState) (first : List BoltSection) : (boltStart s kind cause before first).dob = s.dob := (boltStart_keeps (mk := 7367552) (Keeps.refl s) (by decide)).dob (by decide)
@[simp] theorem boltStart_mgmt (s : State) (kind : Nat) (cause : Nat) (before : ModState) (first : List BoltSection) : (boltStart s kind cause before first).mgmt = s.mgmt := (boltStart_keeps (mk := 7367552) (Keeps.refl s) (by decide)).mgmt (by decide)
@[simp] theorem boltStart_vault (s : State) (kind : Nat) (cause : Nat) (before : ModState) (first : List BoltSection) : (boltStart s kind cause before first).vault = s.vault := (boltStart_keeps (mk := 7367552) (Keeps.refl s) (by decide)).vault (by decide)

@[simp] theorem fatalBolt_pending (s : State) (cause : Nat) (before : ModState) : (fatalBolt s cause before).pending = s.pending := (fatalBolt_keeps (mk := 7367552) (Keeps.refl s) (by decide)).pending
@[simp] theorem fatalBolt_now (s : State) (cause : Nat) (before : ModState) : (fatalBolt s cause before).now = s.now := (fatalBolt_keeps (mk := 7367552) (Keeps.refl s) (by decide)).now
@[simp] theorem fatalBolt_ft (s : State) (cause : Nat) (before : ModState) : (fatalBolt s cause before).ft = s.ft := (fatalBolt_keeps (mk := 7367552) (Keeps.refl s) (by decide)).ft (by decide)
@[simp] theorem fatalBolt_cfg (s : State) (cause : Nat) (before : ModState) : (fatalBolt s cause before).cfg = s.cfg := (fatalBolt_keeps (mk := 7367552) (Keeps.refl s) (by decide)).cfg (by decide)
@[simp] theorem fatalBolt_flash (s : State) (cause : Nat) (before : ModState) : (fatalBolt s cause before).flash = s.flash := (fatalBolt_keeps (mk := 7367552) (Keeps.refl s) (by decide)).flash (by decide)
@[simp] theorem fatalBolt_module (s : State) (cause : Nat) (before : ModState) : (fatalBolt s cause before).module = s.module := (fatalBolt_keeps (mk := 7367552) (Keeps.refl s) (by decide)).module (by decide)
@[simp] theorem fatalBolt_power (s : State) (cause : Nat) (before : ModState) : (fatalBolt s cause before).power = s.power := (fatalBolt_keeps (mk := 7367552) (Keeps.refl s) (by decide)).power (by decide)
@[simp] theorem fatalBolt_gov (s : State) (cause : Nat) (before : ModState) : (fatalBolt s cause before).gov = s.gov := (fatalBolt_keeps (mk := 7367552) (Keeps.refl s) (by decide)).gov (by decide)
@[simp] theorem fatalBolt_lanes (s : State) (cause : Nat) (before : ModState) : (fatalBolt s cause before).lanes = s.lanes := (fatalBolt_keeps (mk := 7367552) (Keeps.refl s) (by decide)).lanes (by decide)
@[simp] theorem fatalBolt_fab (s : State) (cause : Nat) (before : ModState) : (fatalBolt s cause before).fab = s.fab := (fatalBolt_keeps (mk := 7367552) (Keeps.refl s) (by decide)).fab (by decide)
@[simp] theorem fatalBolt_win (s : State) (cause : Nat) (before : ModState) : (fatalBolt s cause before).win = s.win := (fatalBolt_keeps (mk := 7367552) (Keeps.refl s) (by decide)).win (by decide)
@[simp] theorem fatalBolt_sel (s : State) (cause : Nat) (before : ModState) : (fatalBolt s cause before).sel = s.sel := (fatalBolt_keeps (mk := 7367552) (Keeps.refl s) (by decide)).sel (by decide)
@[simp] theorem fatalBolt_twin (s : State) (cause : Nat) (before : ModState) : (fatalBolt s cause before).twin = s.twin := (fatalBolt_keeps (mk := 7367552) (Keeps.refl s) (by decide)).twin (by decide)
@[simp] theorem fatalBolt_dob (s : State) (cause : Nat) (before : ModState) : (fatalBolt s cause before).dob = s.dob := (fatalBolt_keeps (mk := 7367552) (Keeps.refl s) (by decide)).dob (by decide)
@[simp] theorem fatalBolt_mgmt (s : State) (cause : Nat) (before : ModState) : (fatalBolt s cause before).mgmt = s.mgmt := (fatalBolt_keeps (mk := 7367552) (Keeps.refl s) (by decide)).mgmt (by decide)
@[simp] theorem fatalBolt_vault (s : State) (cause : Nat) (before : ModState) : (fatalBolt s cause before).vault = s.vault := (fatalBolt_keeps (mk := 7367552) (Keeps.refl s) (by decide)).vault (by decide)

@[simp] theorem restartRing_pending (s : State) (r : Nat) (cause : Nat) : (restartRing s r cause).pending = s.pending := (restartRing_keeps (mk := 7364608) (Keeps.refl s) (by decide)).pending
@[simp] theorem restartRing_now (s : State) (r : Nat) (cause : Nat) : (restartRing s r cause).now = s.now := (restartRing_keeps (mk := 7364608) (Keeps.refl s) (by decide)).now
@[simp] theorem restartRing_ft (s : State) (r : Nat) (cause : Nat) : (restartRing s r cause).ft = s.ft := (restartRing_keeps (mk := 7364608) (Keeps.refl s) (by decide)).ft (by decide)
@[simp] theorem restartRing_cfg (s : State) (r : Nat) (cause : Nat) : (restartRing s r cause).cfg = s.cfg := (restartRing_keeps (mk := 7364608) (Keeps.refl s) (by decide)).cfg (by decide)
@[simp] theorem restartRing_flash (s : State) (r : Nat) (cause : Nat) : (restartRing s r cause).flash = s.flash := (restartRing_keeps (mk := 7364608) (Keeps.refl s) (by decide)).flash (by decide)
@[simp] theorem restartRing_module (s : State) (r : Nat) (cause : Nat) : (restartRing s r cause).module = s.module := (restartRing_keeps (mk := 7364608) (Keeps.refl s) (by decide)).module (by decide)
@[simp] theorem restartRing_power (s : State) (r : Nat) (cause : Nat) : (restartRing s r cause).power = s.power := (restartRing_keeps (mk := 7364608) (Keeps.refl s) (by decide)).power (by decide)
@[simp] theorem restartRing_gov (s : State) (r : Nat) (cause : Nat) : (restartRing s r cause).gov = s.gov := (restartRing_keeps (mk := 7364608) (Keeps.refl s) (by decide)).gov (by decide)
@[simp] theorem restartRing_lanes (s : State) (r : Nat) (cause : Nat) : (restartRing s r cause).lanes = s.lanes := (restartRing_keeps (mk := 7364608) (Keeps.refl s) (by decide)).lanes (by decide)
@[simp] theorem restartRing_weft (s : State) (r : Nat) (cause : Nat) : (restartRing s r cause).weft = s.weft := (restartRing_keeps (mk := 7364608) (Keeps.refl s) (by decide)).weft (by decide)
@[simp] theorem restartRing_warp (s : State) (r : Nat) (cause : Nat) : (restartRing s r cause).warp = s.warp := (restartRing_keeps (mk := 7364608) (Keeps.refl s) (by decide)).warp (by decide)
@[simp] theorem restartRing_loom (s : State) (r : Nat) (cause : Nat) : (restartRing s r cause).loom = s.loom := (restartRing_keeps (mk := 7364608) (Keeps.refl s) (by decide)).loom (by decide)
@[simp] theorem restartRing_fab (s : State) (r : Nat) (cause : Nat) : (restartRing s r cause).fab = s.fab := (restartRing_keeps (mk := 7364608) (Keeps.refl s) (by decide)).fab (by decide)
@[simp] theorem restartRing_shu (s : State) (r : Nat) (cause : Nat) : (restartRing s r cause).shu = s.shu := (restartRing_keeps (mk := 7364608) (Keeps.refl s) (by decide)).shu (by decide)
@[simp] theorem restartRing_win (s : State) (r : Nat) (cause : Nat) : (restartRing s r cause).win = s.win := (restartRing_keeps (mk := 7364608) (Keeps.refl s) (by decide)).win (by decide)
@[simp] theorem restartRing_sel (s : State) (r : Nat) (cause : Nat) : (restartRing s r cause).sel = s.sel := (restartRing_keeps (mk := 7364608) (Keeps.refl s) (by decide)).sel (by decide)
@[simp] theorem restartRing_twin (s : State) (r : Nat) (cause : Nat) : (restartRing s r cause).twin = s.twin := (restartRing_keeps (mk := 7364608) (Keeps.refl s) (by decide)).twin (by decide)
@[simp] theorem restartRing_dob (s : State) (r : Nat) (cause : Nat) : (restartRing s r cause).dob = s.dob := (restartRing_keeps (mk := 7364608) (Keeps.refl s) (by decide)).dob (by decide)
@[simp] theorem restartRing_mgmt (s : State) (r : Nat) (cause : Nat) : (restartRing s r cause).mgmt = s.mgmt := (restartRing_keeps (mk := 7364608) (Keeps.refl s) (by decide)).mgmt (by decide)
@[simp] theorem restartRing_vault (s : State) (r : Nat) (cause : Nat) : (restartRing s r cause).vault = s.vault := (restartRing_keeps (mk := 7364608) (Keeps.refl s) (by decide)).vault (by decide)

@[simp] theorem commitLost_pending (s : State) : (commitLost s).pending = s.pending := (commitLost_keeps (mk := 1048584) (Keeps.refl s) (by decide)).pending
@[simp] theorem commitLost_now (s : State) : (commitLost s).now = s.now := (commitLost_keeps (mk := 1048584) (Keeps.refl s) (by decide)).now
@[simp] theorem commitLost_ft (s : State) : (commitLost s).ft = s.ft := (commitLost_keeps (mk := 1048584) (Keeps.refl s) (by decide)).ft (by decide)
@[simp] theorem commitLost_cfg (s : State) : (commitLost s).cfg = s.cfg := (commitLost_keeps (mk := 1048584) (Keeps.refl s) (by decide)).cfg (by decide)
@[simp] theorem commitLost_flash (s : State) : (commitLost s).flash = s.flash := (commitLost_keeps (mk := 1048584) (Keeps.refl s) (by decide)).flash (by decide)
@[simp] theorem commitLost_power (s : State) : (commitLost s).power = s.power := (commitLost_keeps (mk := 1048584) (Keeps.refl s) (by decide)).power (by decide)
@[simp] theorem commitLost_gov (s : State) : (commitLost s).gov = s.gov := (commitLost_keeps (mk := 1048584) (Keeps.refl s) (by decide)).gov (by decide)
@[simp] theorem commitLost_lanes (s : State) : (commitLost s).lanes = s.lanes := (commitLost_keeps (mk := 1048584) (Keeps.refl s) (by decide)).lanes (by decide)
@[simp] theorem commitLost_weft (s : State) : (commitLost s).weft = s.weft := (commitLost_keeps (mk := 1048584) (Keeps.refl s) (by decide)).weft (by decide)
@[simp] theorem commitLost_warp (s : State) : (commitLost s).warp = s.warp := (commitLost_keeps (mk := 1048584) (Keeps.refl s) (by decide)).warp (by decide)
@[simp] theorem commitLost_loom (s : State) : (commitLost s).loom = s.loom := (commitLost_keeps (mk := 1048584) (Keeps.refl s) (by decide)).loom (by decide)
@[simp] theorem commitLost_fab (s : State) : (commitLost s).fab = s.fab := (commitLost_keeps (mk := 1048584) (Keeps.refl s) (by decide)).fab (by decide)
@[simp] theorem commitLost_shu (s : State) : (commitLost s).shu = s.shu := (commitLost_keeps (mk := 1048584) (Keeps.refl s) (by decide)).shu (by decide)
@[simp] theorem commitLost_win (s : State) : (commitLost s).win = s.win := (commitLost_keeps (mk := 1048584) (Keeps.refl s) (by decide)).win (by decide)
@[simp] theorem commitLost_eng (s : State) : (commitLost s).eng = s.eng := (commitLost_keeps (mk := 1048584) (Keeps.refl s) (by decide)).eng (by decide)
@[simp] theorem commitLost_hed (s : State) : (commitLost s).hed = s.hed := (commitLost_keeps (mk := 1048584) (Keeps.refl s) (by decide)).hed (by decide)
@[simp] theorem commitLost_sel (s : State) : (commitLost s).sel = s.sel := (commitLost_keeps (mk := 1048584) (Keeps.refl s) (by decide)).sel (by decide)
@[simp] theorem commitLost_twin (s : State) : (commitLost s).twin = s.twin := (commitLost_keeps (mk := 1048584) (Keeps.refl s) (by decide)).twin (by decide)
@[simp] theorem commitLost_dob (s : State) : (commitLost s).dob = s.dob := (commitLost_keeps (mk := 1048584) (Keeps.refl s) (by decide)).dob (by decide)
@[simp] theorem commitLost_mgmt (s : State) : (commitLost s).mgmt = s.mgmt := (commitLost_keeps (mk := 1048584) (Keeps.refl s) (by decide)).mgmt (by decide)
@[simp] theorem commitLost_vault (s : State) : (commitLost s).vault = s.vault := (commitLost_keeps (mk := 1048584) (Keeps.refl s) (by decide)).vault (by decide)
@[simp] theorem commitLost_host (s : State) : (commitLost s).host = s.host := (commitLost_keeps (mk := 1048584) (Keeps.refl s) (by decide)).host (by decide)
@[simp] theorem commitLost_beam (s : State) : (commitLost s).beam = s.beam := (commitLost_keeps (mk := 1048584) (Keeps.refl s) (by decide)).beam (by decide)

@[simp] theorem journalItem_pending (s : State) (x : Session) (kind : Nat) (k : Nat) (v : Nat) : (journalItem s x kind k v).pending = s.pending := (journalItem_keeps (mk := 1048576) (Keeps.refl s) (by decide)).pending
@[simp] theorem journalItem_now (s : State) (x : Session) (kind : Nat) (k : Nat) (v : Nat) : (journalItem s x kind k v).now = s.now := (journalItem_keeps (mk := 1048576) (Keeps.refl s) (by decide)).now
@[simp] theorem journalItem_ft (s : State) (x : Session) (kind : Nat) (k : Nat) (v : Nat) : (journalItem s x kind k v).ft = s.ft := (journalItem_keeps (mk := 1048576) (Keeps.refl s) (by decide)).ft (by decide)
@[simp] theorem journalItem_cfg (s : State) (x : Session) (kind : Nat) (k : Nat) (v : Nat) : (journalItem s x kind k v).cfg = s.cfg := (journalItem_keeps (mk := 1048576) (Keeps.refl s) (by decide)).cfg (by decide)
@[simp] theorem journalItem_flash (s : State) (x : Session) (kind : Nat) (k : Nat) (v : Nat) : (journalItem s x kind k v).flash = s.flash := (journalItem_keeps (mk := 1048576) (Keeps.refl s) (by decide)).flash (by decide)
@[simp] theorem journalItem_module (s : State) (x : Session) (kind : Nat) (k : Nat) (v : Nat) : (journalItem s x kind k v).module = s.module := (journalItem_keeps (mk := 1048576) (Keeps.refl s) (by decide)).module (by decide)
@[simp] theorem journalItem_power (s : State) (x : Session) (kind : Nat) (k : Nat) (v : Nat) : (journalItem s x kind k v).power = s.power := (journalItem_keeps (mk := 1048576) (Keeps.refl s) (by decide)).power (by decide)
@[simp] theorem journalItem_gov (s : State) (x : Session) (kind : Nat) (k : Nat) (v : Nat) : (journalItem s x kind k v).gov = s.gov := (journalItem_keeps (mk := 1048576) (Keeps.refl s) (by decide)).gov (by decide)
@[simp] theorem journalItem_lanes (s : State) (x : Session) (kind : Nat) (k : Nat) (v : Nat) : (journalItem s x kind k v).lanes = s.lanes := (journalItem_keeps (mk := 1048576) (Keeps.refl s) (by decide)).lanes (by decide)
@[simp] theorem journalItem_weft (s : State) (x : Session) (kind : Nat) (k : Nat) (v : Nat) : (journalItem s x kind k v).weft = s.weft := (journalItem_keeps (mk := 1048576) (Keeps.refl s) (by decide)).weft (by decide)
@[simp] theorem journalItem_warp (s : State) (x : Session) (kind : Nat) (k : Nat) (v : Nat) : (journalItem s x kind k v).warp = s.warp := (journalItem_keeps (mk := 1048576) (Keeps.refl s) (by decide)).warp (by decide)
@[simp] theorem journalItem_loom (s : State) (x : Session) (kind : Nat) (k : Nat) (v : Nat) : (journalItem s x kind k v).loom = s.loom := (journalItem_keeps (mk := 1048576) (Keeps.refl s) (by decide)).loom (by decide)
@[simp] theorem journalItem_fab (s : State) (x : Session) (kind : Nat) (k : Nat) (v : Nat) : (journalItem s x kind k v).fab = s.fab := (journalItem_keeps (mk := 1048576) (Keeps.refl s) (by decide)).fab (by decide)
@[simp] theorem journalItem_shu (s : State) (x : Session) (kind : Nat) (k : Nat) (v : Nat) : (journalItem s x kind k v).shu = s.shu := (journalItem_keeps (mk := 1048576) (Keeps.refl s) (by decide)).shu (by decide)
@[simp] theorem journalItem_win (s : State) (x : Session) (kind : Nat) (k : Nat) (v : Nat) : (journalItem s x kind k v).win = s.win := (journalItem_keeps (mk := 1048576) (Keeps.refl s) (by decide)).win (by decide)
@[simp] theorem journalItem_eng (s : State) (x : Session) (kind : Nat) (k : Nat) (v : Nat) : (journalItem s x kind k v).eng = s.eng := (journalItem_keeps (mk := 1048576) (Keeps.refl s) (by decide)).eng (by decide)
@[simp] theorem journalItem_hed (s : State) (x : Session) (kind : Nat) (k : Nat) (v : Nat) : (journalItem s x kind k v).hed = s.hed := (journalItem_keeps (mk := 1048576) (Keeps.refl s) (by decide)).hed (by decide)
@[simp] theorem journalItem_sel (s : State) (x : Session) (kind : Nat) (k : Nat) (v : Nat) : (journalItem s x kind k v).sel = s.sel := (journalItem_keeps (mk := 1048576) (Keeps.refl s) (by decide)).sel (by decide)
@[simp] theorem journalItem_twin (s : State) (x : Session) (kind : Nat) (k : Nat) (v : Nat) : (journalItem s x kind k v).twin = s.twin := (journalItem_keeps (mk := 1048576) (Keeps.refl s) (by decide)).twin (by decide)
@[simp] theorem journalItem_dob (s : State) (x : Session) (kind : Nat) (k : Nat) (v : Nat) : (journalItem s x kind k v).dob = s.dob := (journalItem_keeps (mk := 1048576) (Keeps.refl s) (by decide)).dob (by decide)
@[simp] theorem journalItem_mgmt (s : State) (x : Session) (kind : Nat) (k : Nat) (v : Nat) : (journalItem s x kind k v).mgmt = s.mgmt := (journalItem_keeps (mk := 1048576) (Keeps.refl s) (by decide)).mgmt (by decide)
@[simp] theorem journalItem_vault (s : State) (x : Session) (kind : Nat) (k : Nat) (v : Nat) : (journalItem s x kind k v).vault = s.vault := (journalItem_keeps (mk := 1048576) (Keeps.refl s) (by decide)).vault (by decide)
@[simp] theorem journalItem_host (s : State) (x : Session) (kind : Nat) (k : Nat) (v : Nat) : (journalItem s x kind k v).host = s.host := (journalItem_keeps (mk := 1048576) (Keeps.refl s) (by decide)).host (by decide)
@[simp] theorem journalItem_beam (s : State) (x : Session) (kind : Nat) (k : Nat) (v : Nat) : (journalItem s x kind k v).beam = s.beam := (journalItem_keeps (mk := 1048576) (Keeps.refl s) (by decide)).beam (by decide)

@[simp] theorem freezeRequest_pending (s : State) (installer : Bool) : (freezeRequest s installer).pending = s.pending := (freezeRequest_keeps (mk := 7364672) (Keeps.refl s) (by decide)).pending
@[simp] theorem freezeRequest_now (s : State) (installer : Bool) : (freezeRequest s installer).now = s.now := (freezeRequest_keeps (mk := 7364672) (Keeps.refl s) (by decide)).now
@[simp] theorem freezeRequest_ft (s : State) (installer : Bool) : (freezeRequest s installer).ft = s.ft := (freezeRequest_keeps (mk := 7364672) (Keeps.refl s) (by decide)).ft (by decide)
@[simp] theorem freezeRequest_cfg (s : State) (installer : Bool) : (freezeRequest s installer).cfg = s.cfg := (freezeRequest_keeps (mk := 7364672) (Keeps.refl s) (by decide)).cfg (by decide)
@[simp] theorem freezeRequest_flash (s : State) (installer : Bool) : (freezeRequest s installer).flash = s.flash := (freezeRequest_keeps (mk := 7364672) (Keeps.refl s) (by decide)).flash (by decide)
@[simp] theorem freezeRequest_module (s : State) (installer : Bool) : (freezeRequest s installer).module = s.module := (freezeRequest_keeps (mk := 7364672) (Keeps.refl s) (by decide)).module (by decide)
@[simp] theorem freezeRequest_power (s : State) (installer : Bool) : (freezeRequest s installer).power = s.power := (freezeRequest_keeps (mk := 7364672) (Keeps.refl s) (by decide)).power (by decide)
@[simp] theorem freezeRequest_gov (s : State) (installer : Bool) : (freezeRequest s installer).gov = s.gov := (freezeRequest_keeps (mk := 7364672) (Keeps.refl s) (by decide)).gov (by decide)
@[simp] theorem freezeRequest_weft (s : State) (installer : Bool) : (freezeRequest s installer).weft = s.weft := (freezeRequest_keeps (mk := 7364672) (Keeps.refl s) (by decide)).weft (by decide)
@[simp] theorem freezeRequest_warp (s : State) (installer : Bool) : (freezeRequest s installer).warp = s.warp := (freezeRequest_keeps (mk := 7364672) (Keeps.refl s) (by decide)).warp (by decide)
@[simp] theorem freezeRequest_loom (s : State) (installer : Bool) : (freezeRequest s installer).loom = s.loom := (freezeRequest_keeps (mk := 7364672) (Keeps.refl s) (by decide)).loom (by decide)
@[simp] theorem freezeRequest_fab (s : State) (installer : Bool) : (freezeRequest s installer).fab = s.fab := (freezeRequest_keeps (mk := 7364672) (Keeps.refl s) (by decide)).fab (by decide)
@[simp] theorem freezeRequest_shu (s : State) (installer : Bool) : (freezeRequest s installer).shu = s.shu := (freezeRequest_keeps (mk := 7364672) (Keeps.refl s) (by decide)).shu (by decide)
@[simp] theorem freezeRequest_win (s : State) (installer : Bool) : (freezeRequest s installer).win = s.win := (freezeRequest_keeps (mk := 7364672) (Keeps.refl s) (by decide)).win (by decide)
@[simp] theorem freezeRequest_sel (s : State) (installer : Bool) : (freezeRequest s installer).sel = s.sel := (freezeRequest_keeps (mk := 7364672) (Keeps.refl s) (by decide)).sel (by decide)
@[simp] theorem freezeRequest_twin (s : State) (installer : Bool) : (freezeRequest s installer).twin = s.twin := (freezeRequest_keeps (mk := 7364672) (Keeps.refl s) (by decide)).twin (by decide)
@[simp] theorem freezeRequest_dob (s : State) (installer : Bool) : (freezeRequest s installer).dob = s.dob := (freezeRequest_keeps (mk := 7364672) (Keeps.refl s) (by decide)).dob (by decide)
@[simp] theorem freezeRequest_mgmt (s : State) (installer : Bool) : (freezeRequest s installer).mgmt = s.mgmt := (freezeRequest_keeps (mk := 7364672) (Keeps.refl s) (by decide)).mgmt (by decide)
@[simp] theorem freezeRequest_vault (s : State) (installer : Bool) : (freezeRequest s installer).vault = s.vault := (freezeRequest_keeps (mk := 7364672) (Keeps.refl s) (by decide)).vault (by decide)

@[simp] theorem freezeRelease_pending (s : State) (installer : Bool) : (freezeRelease s installer).pending = s.pending := (freezeRelease_keeps (mk := 7364672) (Keeps.refl s) (by decide)).pending
@[simp] theorem freezeRelease_now (s : State) (installer : Bool) : (freezeRelease s installer).now = s.now := (freezeRelease_keeps (mk := 7364672) (Keeps.refl s) (by decide)).now
@[simp] theorem freezeRelease_ft (s : State) (installer : Bool) : (freezeRelease s installer).ft = s.ft := (freezeRelease_keeps (mk := 7364672) (Keeps.refl s) (by decide)).ft (by decide)
@[simp] theorem freezeRelease_cfg (s : State) (installer : Bool) : (freezeRelease s installer).cfg = s.cfg := (freezeRelease_keeps (mk := 7364672) (Keeps.refl s) (by decide)).cfg (by decide)
@[simp] theorem freezeRelease_flash (s : State) (installer : Bool) : (freezeRelease s installer).flash = s.flash := (freezeRelease_keeps (mk := 7364672) (Keeps.refl s) (by decide)).flash (by decide)
@[simp] theorem freezeRelease_module (s : State) (installer : Bool) : (freezeRelease s installer).module = s.module := (freezeRelease_keeps (mk := 7364672) (Keeps.refl s) (by decide)).module (by decide)
@[simp] theorem freezeRelease_power (s : State) (installer : Bool) : (freezeRelease s installer).power = s.power := (freezeRelease_keeps (mk := 7364672) (Keeps.refl s) (by decide)).power (by decide)
@[simp] theorem freezeRelease_gov (s : State) (installer : Bool) : (freezeRelease s installer).gov = s.gov := (freezeRelease_keeps (mk := 7364672) (Keeps.refl s) (by decide)).gov (by decide)
@[simp] theorem freezeRelease_weft (s : State) (installer : Bool) : (freezeRelease s installer).weft = s.weft := (freezeRelease_keeps (mk := 7364672) (Keeps.refl s) (by decide)).weft (by decide)
@[simp] theorem freezeRelease_warp (s : State) (installer : Bool) : (freezeRelease s installer).warp = s.warp := (freezeRelease_keeps (mk := 7364672) (Keeps.refl s) (by decide)).warp (by decide)
@[simp] theorem freezeRelease_loom (s : State) (installer : Bool) : (freezeRelease s installer).loom = s.loom := (freezeRelease_keeps (mk := 7364672) (Keeps.refl s) (by decide)).loom (by decide)
@[simp] theorem freezeRelease_fab (s : State) (installer : Bool) : (freezeRelease s installer).fab = s.fab := (freezeRelease_keeps (mk := 7364672) (Keeps.refl s) (by decide)).fab (by decide)
@[simp] theorem freezeRelease_shu (s : State) (installer : Bool) : (freezeRelease s installer).shu = s.shu := (freezeRelease_keeps (mk := 7364672) (Keeps.refl s) (by decide)).shu (by decide)
@[simp] theorem freezeRelease_win (s : State) (installer : Bool) : (freezeRelease s installer).win = s.win := (freezeRelease_keeps (mk := 7364672) (Keeps.refl s) (by decide)).win (by decide)
@[simp] theorem freezeRelease_sel (s : State) (installer : Bool) : (freezeRelease s installer).sel = s.sel := (freezeRelease_keeps (mk := 7364672) (Keeps.refl s) (by decide)).sel (by decide)
@[simp] theorem freezeRelease_twin (s : State) (installer : Bool) : (freezeRelease s installer).twin = s.twin := (freezeRelease_keeps (mk := 7364672) (Keeps.refl s) (by decide)).twin (by decide)
@[simp] theorem freezeRelease_dob (s : State) (installer : Bool) : (freezeRelease s installer).dob = s.dob := (freezeRelease_keeps (mk := 7364672) (Keeps.refl s) (by decide)).dob (by decide)
@[simp] theorem freezeRelease_mgmt (s : State) (installer : Bool) : (freezeRelease s installer).mgmt = s.mgmt := (freezeRelease_keeps (mk := 7364672) (Keeps.refl s) (by decide)).mgmt (by decide)
@[simp] theorem freezeRelease_vault (s : State) (installer : Bool) : (freezeRelease s installer).vault = s.vault := (freezeRelease_keeps (mk := 7364672) (Keeps.refl s) (by decide)).vault (by decide)

@[simp] theorem sendTs1_pending (s : State) (p : Nat) : (sendTs1 s p).pending = s.pending := (sendTs1_keeps (mk := 64) (Keeps.refl s) (by decide)).pending
@[simp] theorem sendTs1_now (s : State) (p : Nat) : (sendTs1 s p).now = s.now := (sendTs1_keeps (mk := 64) (Keeps.refl s) (by decide)).now
@[simp] theorem sendTs1_ft (s : State) (p : Nat) : (sendTs1 s p).ft = s.ft := (sendTs1_keeps (mk := 64) (Keeps.refl s) (by decide)).ft (by decide)
@[simp] theorem sendTs1_cfg (s : State) (p : Nat) : (sendTs1 s p).cfg = s.cfg := (sendTs1_keeps (mk := 64) (Keeps.refl s) (by decide)).cfg (by decide)
@[simp] theorem sendTs1_flash (s : State) (p : Nat) : (sendTs1 s p).flash = s.flash := (sendTs1_keeps (mk := 64) (Keeps.refl s) (by decide)).flash (by decide)
@[simp] theorem sendTs1_module (s : State) (p : Nat) : (sendTs1 s p).module = s.module := (sendTs1_keeps (mk := 64) (Keeps.refl s) (by decide)).module (by decide)
@[simp] theorem sendTs1_power (s : State) (p : Nat) : (sendTs1 s p).power = s.power := (sendTs1_keeps (mk := 64) (Keeps.refl s) (by decide)).power (by decide)
@[simp] theorem sendTs1_gov (s : State) (p : Nat) : (sendTs1 s p).gov = s.gov := (sendTs1_keeps (mk := 64) (Keeps.refl s) (by decide)).gov (by decide)
@[simp] theorem sendTs1_weft (s : State) (p : Nat) : (sendTs1 s p).weft = s.weft := (sendTs1_keeps (mk := 64) (Keeps.refl s) (by decide)).weft (by decide)
@[simp] theorem sendTs1_warp (s : State) (p : Nat) : (sendTs1 s p).warp = s.warp := (sendTs1_keeps (mk := 64) (Keeps.refl s) (by decide)).warp (by decide)
@[simp] theorem sendTs1_loom (s : State) (p : Nat) : (sendTs1 s p).loom = s.loom := (sendTs1_keeps (mk := 64) (Keeps.refl s) (by decide)).loom (by decide)
@[simp] theorem sendTs1_fab (s : State) (p : Nat) : (sendTs1 s p).fab = s.fab := (sendTs1_keeps (mk := 64) (Keeps.refl s) (by decide)).fab (by decide)
@[simp] theorem sendTs1_shu (s : State) (p : Nat) : (sendTs1 s p).shu = s.shu := (sendTs1_keeps (mk := 64) (Keeps.refl s) (by decide)).shu (by decide)
@[simp] theorem sendTs1_win (s : State) (p : Nat) : (sendTs1 s p).win = s.win := (sendTs1_keeps (mk := 64) (Keeps.refl s) (by decide)).win (by decide)
@[simp] theorem sendTs1_eng (s : State) (p : Nat) : (sendTs1 s p).eng = s.eng := (sendTs1_keeps (mk := 64) (Keeps.refl s) (by decide)).eng (by decide)
@[simp] theorem sendTs1_hed (s : State) (p : Nat) : (sendTs1 s p).hed = s.hed := (sendTs1_keeps (mk := 64) (Keeps.refl s) (by decide)).hed (by decide)
@[simp] theorem sendTs1_sel (s : State) (p : Nat) : (sendTs1 s p).sel = s.sel := (sendTs1_keeps (mk := 64) (Keeps.refl s) (by decide)).sel (by decide)
@[simp] theorem sendTs1_twin (s : State) (p : Nat) : (sendTs1 s p).twin = s.twin := (sendTs1_keeps (mk := 64) (Keeps.refl s) (by decide)).twin (by decide)
@[simp] theorem sendTs1_dob (s : State) (p : Nat) : (sendTs1 s p).dob = s.dob := (sendTs1_keeps (mk := 64) (Keeps.refl s) (by decide)).dob (by decide)
@[simp] theorem sendTs1_mgmt (s : State) (p : Nat) : (sendTs1 s p).mgmt = s.mgmt := (sendTs1_keeps (mk := 64) (Keeps.refl s) (by decide)).mgmt (by decide)
@[simp] theorem sendTs1_vault (s : State) (p : Nat) : (sendTs1 s p).vault = s.vault := (sendTs1_keeps (mk := 64) (Keeps.refl s) (by decide)).vault (by decide)
@[simp] theorem sendTs1_obs (s : State) (p : Nat) : (sendTs1 s p).obs = s.obs := (sendTs1_keeps (mk := 64) (Keeps.refl s) (by decide)).obs (by decide)
@[simp] theorem sendTs1_host (s : State) (p : Nat) : (sendTs1 s p).host = s.host := (sendTs1_keeps (mk := 64) (Keeps.refl s) (by decide)).host (by decide)
@[simp] theorem sendTs1_beam (s : State) (p : Nat) : (sendTs1 s p).beam = s.beam := (sendTs1_keeps (mk := 64) (Keeps.refl s) (by decide)).beam (by decide)

@[simp] theorem sendTs2_pending (s : State) (p : Nat) (set : Nat) (width : Nat) (rate : Nat) (leader : Bool) : (sendTs2 s p set width rate leader).pending = s.pending := (sendTs2_keeps (mk := 64) (Keeps.refl s) (by decide)).pending
@[simp] theorem sendTs2_now (s : State) (p : Nat) (set : Nat) (width : Nat) (rate : Nat) (leader : Bool) : (sendTs2 s p set width rate leader).now = s.now := (sendTs2_keeps (mk := 64) (Keeps.refl s) (by decide)).now
@[simp] theorem sendTs2_ft (s : State) (p : Nat) (set : Nat) (width : Nat) (rate : Nat) (leader : Bool) : (sendTs2 s p set width rate leader).ft = s.ft := (sendTs2_keeps (mk := 64) (Keeps.refl s) (by decide)).ft (by decide)
@[simp] theorem sendTs2_cfg (s : State) (p : Nat) (set : Nat) (width : Nat) (rate : Nat) (leader : Bool) : (sendTs2 s p set width rate leader).cfg = s.cfg := (sendTs2_keeps (mk := 64) (Keeps.refl s) (by decide)).cfg (by decide)
@[simp] theorem sendTs2_flash (s : State) (p : Nat) (set : Nat) (width : Nat) (rate : Nat) (leader : Bool) : (sendTs2 s p set width rate leader).flash = s.flash := (sendTs2_keeps (mk := 64) (Keeps.refl s) (by decide)).flash (by decide)
@[simp] theorem sendTs2_module (s : State) (p : Nat) (set : Nat) (width : Nat) (rate : Nat) (leader : Bool) : (sendTs2 s p set width rate leader).module = s.module := (sendTs2_keeps (mk := 64) (Keeps.refl s) (by decide)).module (by decide)
@[simp] theorem sendTs2_power (s : State) (p : Nat) (set : Nat) (width : Nat) (rate : Nat) (leader : Bool) : (sendTs2 s p set width rate leader).power = s.power := (sendTs2_keeps (mk := 64) (Keeps.refl s) (by decide)).power (by decide)
@[simp] theorem sendTs2_gov (s : State) (p : Nat) (set : Nat) (width : Nat) (rate : Nat) (leader : Bool) : (sendTs2 s p set width rate leader).gov = s.gov := (sendTs2_keeps (mk := 64) (Keeps.refl s) (by decide)).gov (by decide)
@[simp] theorem sendTs2_weft (s : State) (p : Nat) (set : Nat) (width : Nat) (rate : Nat) (leader : Bool) : (sendTs2 s p set width rate leader).weft = s.weft := (sendTs2_keeps (mk := 64) (Keeps.refl s) (by decide)).weft (by decide)
@[simp] theorem sendTs2_warp (s : State) (p : Nat) (set : Nat) (width : Nat) (rate : Nat) (leader : Bool) : (sendTs2 s p set width rate leader).warp = s.warp := (sendTs2_keeps (mk := 64) (Keeps.refl s) (by decide)).warp (by decide)
@[simp] theorem sendTs2_loom (s : State) (p : Nat) (set : Nat) (width : Nat) (rate : Nat) (leader : Bool) : (sendTs2 s p set width rate leader).loom = s.loom := (sendTs2_keeps (mk := 64) (Keeps.refl s) (by decide)).loom (by decide)
@[simp] theorem sendTs2_fab (s : State) (p : Nat) (set : Nat) (width : Nat) (rate : Nat) (leader : Bool) : (sendTs2 s p set width rate leader).fab = s.fab := (sendTs2_keeps (mk := 64) (Keeps.refl s) (by decide)).fab (by decide)
@[simp] theorem sendTs2_shu (s : State) (p : Nat) (set : Nat) (width : Nat) (rate : Nat) (leader : Bool) : (sendTs2 s p set width rate leader).shu = s.shu := (sendTs2_keeps (mk := 64) (Keeps.refl s) (by decide)).shu (by decide)
@[simp] theorem sendTs2_win (s : State) (p : Nat) (set : Nat) (width : Nat) (rate : Nat) (leader : Bool) : (sendTs2 s p set width rate leader).win = s.win := (sendTs2_keeps (mk := 64) (Keeps.refl s) (by decide)).win (by decide)
@[simp] theorem sendTs2_eng (s : State) (p : Nat) (set : Nat) (width : Nat) (rate : Nat) (leader : Bool) : (sendTs2 s p set width rate leader).eng = s.eng := (sendTs2_keeps (mk := 64) (Keeps.refl s) (by decide)).eng (by decide)
@[simp] theorem sendTs2_hed (s : State) (p : Nat) (set : Nat) (width : Nat) (rate : Nat) (leader : Bool) : (sendTs2 s p set width rate leader).hed = s.hed := (sendTs2_keeps (mk := 64) (Keeps.refl s) (by decide)).hed (by decide)
@[simp] theorem sendTs2_sel (s : State) (p : Nat) (set : Nat) (width : Nat) (rate : Nat) (leader : Bool) : (sendTs2 s p set width rate leader).sel = s.sel := (sendTs2_keeps (mk := 64) (Keeps.refl s) (by decide)).sel (by decide)
@[simp] theorem sendTs2_twin (s : State) (p : Nat) (set : Nat) (width : Nat) (rate : Nat) (leader : Bool) : (sendTs2 s p set width rate leader).twin = s.twin := (sendTs2_keeps (mk := 64) (Keeps.refl s) (by decide)).twin (by decide)
@[simp] theorem sendTs2_dob (s : State) (p : Nat) (set : Nat) (width : Nat) (rate : Nat) (leader : Bool) : (sendTs2 s p set width rate leader).dob = s.dob := (sendTs2_keeps (mk := 64) (Keeps.refl s) (by decide)).dob (by decide)
@[simp] theorem sendTs2_mgmt (s : State) (p : Nat) (set : Nat) (width : Nat) (rate : Nat) (leader : Bool) : (sendTs2 s p set width rate leader).mgmt = s.mgmt := (sendTs2_keeps (mk := 64) (Keeps.refl s) (by decide)).mgmt (by decide)
@[simp] theorem sendTs2_vault (s : State) (p : Nat) (set : Nat) (width : Nat) (rate : Nat) (leader : Bool) : (sendTs2 s p set width rate leader).vault = s.vault := (sendTs2_keeps (mk := 64) (Keeps.refl s) (by decide)).vault (by decide)
@[simp] theorem sendTs2_obs (s : State) (p : Nat) (set : Nat) (width : Nat) (rate : Nat) (leader : Bool) : (sendTs2 s p set width rate leader).obs = s.obs := (sendTs2_keeps (mk := 64) (Keeps.refl s) (by decide)).obs (by decide)
@[simp] theorem sendTs2_host (s : State) (p : Nat) (set : Nat) (width : Nat) (rate : Nat) (leader : Bool) : (sendTs2 s p set width rate leader).host = s.host := (sendTs2_keeps (mk := 64) (Keeps.refl s) (by decide)).host (by decide)
@[simp] theorem sendTs2_beam (s : State) (p : Nat) (set : Nat) (width : Nat) (rate : Nat) (leader : Bool) : (sendTs2 s p set width rate leader).beam = s.beam := (sendTs2_keeps (mk := 64) (Keeps.refl s) (by decide)).beam (by decide)

@[simp] theorem sendCreditInit_pending (s : State) (p : Nat) : (sendCreditInit s p).pending = s.pending := (sendCreditInit_keeps (mk := 192) (Keeps.refl s) (by decide)).pending
@[simp] theorem sendCreditInit_now (s : State) (p : Nat) : (sendCreditInit s p).now = s.now := (sendCreditInit_keeps (mk := 192) (Keeps.refl s) (by decide)).now
@[simp] theorem sendCreditInit_ft (s : State) (p : Nat) : (sendCreditInit s p).ft = s.ft := (sendCreditInit_keeps (mk := 192) (Keeps.refl s) (by decide)).ft (by decide)
@[simp] theorem sendCreditInit_cfg (s : State) (p : Nat) : (sendCreditInit s p).cfg = s.cfg := (sendCreditInit_keeps (mk := 192) (Keeps.refl s) (by decide)).cfg (by decide)
@[simp] theorem sendCreditInit_flash (s : State) (p : Nat) : (sendCreditInit s p).flash = s.flash := (sendCreditInit_keeps (mk := 192) (Keeps.refl s) (by decide)).flash (by decide)
@[simp] theorem sendCreditInit_module (s : State) (p : Nat) : (sendCreditInit s p).module = s.module := (sendCreditInit_keeps (mk := 192) (Keeps.refl s) (by decide)).module (by decide)
@[simp] theorem sendCreditInit_power (s : State) (p : Nat) : (sendCreditInit s p).power = s.power := (sendCreditInit_keeps (mk := 192) (Keeps.refl s) (by decide)).power (by decide)
@[simp] theorem sendCreditInit_gov (s : State) (p : Nat) : (sendCreditInit s p).gov = s.gov := (sendCreditInit_keeps (mk := 192) (Keeps.refl s) (by decide)).gov (by decide)
@[simp] theorem sendCreditInit_warp (s : State) (p : Nat) : (sendCreditInit s p).warp = s.warp := (sendCreditInit_keeps (mk := 192) (Keeps.refl s) (by decide)).warp (by decide)
@[simp] theorem sendCreditInit_loom (s : State) (p : Nat) : (sendCreditInit s p).loom = s.loom := (sendCreditInit_keeps (mk := 192) (Keeps.refl s) (by decide)).loom (by decide)
@[simp] theorem sendCreditInit_fab (s : State) (p : Nat) : (sendCreditInit s p).fab = s.fab := (sendCreditInit_keeps (mk := 192) (Keeps.refl s) (by decide)).fab (by decide)
@[simp] theorem sendCreditInit_shu (s : State) (p : Nat) : (sendCreditInit s p).shu = s.shu := (sendCreditInit_keeps (mk := 192) (Keeps.refl s) (by decide)).shu (by decide)
@[simp] theorem sendCreditInit_win (s : State) (p : Nat) : (sendCreditInit s p).win = s.win := (sendCreditInit_keeps (mk := 192) (Keeps.refl s) (by decide)).win (by decide)
@[simp] theorem sendCreditInit_eng (s : State) (p : Nat) : (sendCreditInit s p).eng = s.eng := (sendCreditInit_keeps (mk := 192) (Keeps.refl s) (by decide)).eng (by decide)
@[simp] theorem sendCreditInit_hed (s : State) (p : Nat) : (sendCreditInit s p).hed = s.hed := (sendCreditInit_keeps (mk := 192) (Keeps.refl s) (by decide)).hed (by decide)
@[simp] theorem sendCreditInit_sel (s : State) (p : Nat) : (sendCreditInit s p).sel = s.sel := (sendCreditInit_keeps (mk := 192) (Keeps.refl s) (by decide)).sel (by decide)
@[simp] theorem sendCreditInit_twin (s : State) (p : Nat) : (sendCreditInit s p).twin = s.twin := (sendCreditInit_keeps (mk := 192) (Keeps.refl s) (by decide)).twin (by decide)
@[simp] theorem sendCreditInit_dob (s : State) (p : Nat) : (sendCreditInit s p).dob = s.dob := (sendCreditInit_keeps (mk := 192) (Keeps.refl s) (by decide)).dob (by decide)
@[simp] theorem sendCreditInit_mgmt (s : State) (p : Nat) : (sendCreditInit s p).mgmt = s.mgmt := (sendCreditInit_keeps (mk := 192) (Keeps.refl s) (by decide)).mgmt (by decide)
@[simp] theorem sendCreditInit_vault (s : State) (p : Nat) : (sendCreditInit s p).vault = s.vault := (sendCreditInit_keeps (mk := 192) (Keeps.refl s) (by decide)).vault (by decide)
@[simp] theorem sendCreditInit_obs (s : State) (p : Nat) : (sendCreditInit s p).obs = s.obs := (sendCreditInit_keeps (mk := 192) (Keeps.refl s) (by decide)).obs (by decide)
@[simp] theorem sendCreditInit_host (s : State) (p : Nat) : (sendCreditInit s p).host = s.host := (sendCreditInit_keeps (mk := 192) (Keeps.refl s) (by decide)).host (by decide)
@[simp] theorem sendCreditInit_beam (s : State) (p : Nat) : (sendCreditInit s p).beam = s.beam := (sendCreditInit_keeps (mk := 192) (Keeps.refl s) (by decide)).beam (by decide)

@[simp] theorem weftError_pending (s : State) (p : Nat) (cause : Nat) : (weftError s p cause).pending = s.pending := (weftError_keeps (mk := 128) (Keeps.refl s) (by decide)).pending
@[simp] theorem weftError_now (s : State) (p : Nat) (cause : Nat) : (weftError s p cause).now = s.now := (weftError_keeps (mk := 128) (Keeps.refl s) (by decide)).now
@[simp] theorem weftError_ft (s : State) (p : Nat) (cause : Nat) : (weftError s p cause).ft = s.ft := (weftError_keeps (mk := 128) (Keeps.refl s) (by decide)).ft (by decide)
@[simp] theorem weftError_cfg (s : State) (p : Nat) (cause : Nat) : (weftError s p cause).cfg = s.cfg := (weftError_keeps (mk := 128) (Keeps.refl s) (by decide)).cfg (by decide)
@[simp] theorem weftError_flash (s : State) (p : Nat) (cause : Nat) : (weftError s p cause).flash = s.flash := (weftError_keeps (mk := 128) (Keeps.refl s) (by decide)).flash (by decide)
@[simp] theorem weftError_module (s : State) (p : Nat) (cause : Nat) : (weftError s p cause).module = s.module := (weftError_keeps (mk := 128) (Keeps.refl s) (by decide)).module (by decide)
@[simp] theorem weftError_power (s : State) (p : Nat) (cause : Nat) : (weftError s p cause).power = s.power := (weftError_keeps (mk := 128) (Keeps.refl s) (by decide)).power (by decide)
@[simp] theorem weftError_gov (s : State) (p : Nat) (cause : Nat) : (weftError s p cause).gov = s.gov := (weftError_keeps (mk := 128) (Keeps.refl s) (by decide)).gov (by decide)
@[simp] theorem weftError_lanes (s : State) (p : Nat) (cause : Nat) : (weftError s p cause).lanes = s.lanes := (weftError_keeps (mk := 128) (Keeps.refl s) (by decide)).lanes (by decide)
@[simp] theorem weftError_warp (s : State) (p : Nat) (cause : Nat) : (weftError s p cause).warp = s.warp := (weftError_keeps (mk := 128) (Keeps.refl s) (by decide)).warp (by decide)
@[simp] theorem weftError_loom (s : State) (p : Nat) (cause : Nat) : (weftError s p cause).loom = s.loom := (weftError_keeps (mk := 128) (Keeps.refl s) (by decide)).loom (by decide)
@[simp] theorem weftError_fab (s : State) (p : Nat) (cause : Nat) : (weftError s p cause).fab = s.fab := (weftError_keeps (mk := 128) (Keeps.refl s) (by decide)).fab (by decide)
@[simp] theorem weftError_shu (s : State) (p : Nat) (cause : Nat) : (weftError s p cause).shu = s.shu := (weftError_keeps (mk := 128) (Keeps.refl s) (by decide)).shu (by decide)
@[simp] theorem weftError_win (s : State) (p : Nat) (cause : Nat) : (weftError s p cause).win = s.win := (weftError_keeps (mk := 128) (Keeps.refl s) (by decide)).win (by decide)
@[simp] theorem weftError_eng (s : State) (p : Nat) (cause : Nat) : (weftError s p cause).eng = s.eng := (weftError_keeps (mk := 128) (Keeps.refl s) (by decide)).eng (by decide)
@[simp] theorem weftError_hed (s : State) (p : Nat) (cause : Nat) : (weftError s p cause).hed = s.hed := (weftError_keeps (mk := 128) (Keeps.refl s) (by decide)).hed (by decide)
@[simp] theorem weftError_sel (s : State) (p : Nat) (cause : Nat) : (weftError s p cause).sel = s.sel := (weftError_keeps (mk := 128) (Keeps.refl s) (by decide)).sel (by decide)
@[simp] theorem weftError_twin (s : State) (p : Nat) (cause : Nat) : (weftError s p cause).twin = s.twin := (weftError_keeps (mk := 128) (Keeps.refl s) (by decide)).twin (by decide)
@[simp] theorem weftError_dob (s : State) (p : Nat) (cause : Nat) : (weftError s p cause).dob = s.dob := (weftError_keeps (mk := 128) (Keeps.refl s) (by decide)).dob (by decide)
@[simp] theorem weftError_mgmt (s : State) (p : Nat) (cause : Nat) : (weftError s p cause).mgmt = s.mgmt := (weftError_keeps (mk := 128) (Keeps.refl s) (by decide)).mgmt (by decide)
@[simp] theorem weftError_vault (s : State) (p : Nat) (cause : Nat) : (weftError s p cause).vault = s.vault := (weftError_keeps (mk := 128) (Keeps.refl s) (by decide)).vault (by decide)
@[simp] theorem weftError_obs (s : State) (p : Nat) (cause : Nat) : (weftError s p cause).obs = s.obs := (weftError_keeps (mk := 128) (Keeps.refl s) (by decide)).obs (by decide)
@[simp] theorem weftError_host (s : State) (p : Nat) (cause : Nat) : (weftError s p cause).host = s.host := (weftError_keeps (mk := 128) (Keeps.refl s) (by decide)).host (by decide)
@[simp] theorem weftError_beam (s : State) (p : Nat) (cause : Nat) : (weftError s p cause).beam = s.beam := (weftError_keeps (mk := 128) (Keeps.refl s) (by decide)).beam (by decide)

@[simp] theorem marginAbort_pending (s : State) (status : Nat) : (marginAbort s status).pending = s.pending := (marginAbort_keeps (mk := 7364672) (Keeps.refl s) (by decide)).pending
@[simp] theorem marginAbort_now (s : State) (status : Nat) : (marginAbort s status).now = s.now := (marginAbort_keeps (mk := 7364672) (Keeps.refl s) (by decide)).now
@[simp] theorem marginAbort_ft (s : State) (status : Nat) : (marginAbort s status).ft = s.ft := (marginAbort_keeps (mk := 7364672) (Keeps.refl s) (by decide)).ft (by decide)
@[simp] theorem marginAbort_cfg (s : State) (status : Nat) : (marginAbort s status).cfg = s.cfg := (marginAbort_keeps (mk := 7364672) (Keeps.refl s) (by decide)).cfg (by decide)
@[simp] theorem marginAbort_flash (s : State) (status : Nat) : (marginAbort s status).flash = s.flash := (marginAbort_keeps (mk := 7364672) (Keeps.refl s) (by decide)).flash (by decide)
@[simp] theorem marginAbort_module (s : State) (status : Nat) : (marginAbort s status).module = s.module := (marginAbort_keeps (mk := 7364672) (Keeps.refl s) (by decide)).module (by decide)
@[simp] theorem marginAbort_power (s : State) (status : Nat) : (marginAbort s status).power = s.power := (marginAbort_keeps (mk := 7364672) (Keeps.refl s) (by decide)).power (by decide)
@[simp] theorem marginAbort_gov (s : State) (status : Nat) : (marginAbort s status).gov = s.gov := (marginAbort_keeps (mk := 7364672) (Keeps.refl s) (by decide)).gov (by decide)
@[simp] theorem marginAbort_weft (s : State) (status : Nat) : (marginAbort s status).weft = s.weft := (marginAbort_keeps (mk := 7364672) (Keeps.refl s) (by decide)).weft (by decide)
@[simp] theorem marginAbort_warp (s : State) (status : Nat) : (marginAbort s status).warp = s.warp := (marginAbort_keeps (mk := 7364672) (Keeps.refl s) (by decide)).warp (by decide)
@[simp] theorem marginAbort_loom (s : State) (status : Nat) : (marginAbort s status).loom = s.loom := (marginAbort_keeps (mk := 7364672) (Keeps.refl s) (by decide)).loom (by decide)
@[simp] theorem marginAbort_fab (s : State) (status : Nat) : (marginAbort s status).fab = s.fab := (marginAbort_keeps (mk := 7364672) (Keeps.refl s) (by decide)).fab (by decide)
@[simp] theorem marginAbort_shu (s : State) (status : Nat) : (marginAbort s status).shu = s.shu := (marginAbort_keeps (mk := 7364672) (Keeps.refl s) (by decide)).shu (by decide)
@[simp] theorem marginAbort_win (s : State) (status : Nat) : (marginAbort s status).win = s.win := (marginAbort_keeps (mk := 7364672) (Keeps.refl s) (by decide)).win (by decide)
@[simp] theorem marginAbort_sel (s : State) (status : Nat) : (marginAbort s status).sel = s.sel := (marginAbort_keeps (mk := 7364672) (Keeps.refl s) (by decide)).sel (by decide)
@[simp] theorem marginAbort_twin (s : State) (status : Nat) : (marginAbort s status).twin = s.twin := (marginAbort_keeps (mk := 7364672) (Keeps.refl s) (by decide)).twin (by decide)
@[simp] theorem marginAbort_dob (s : State) (status : Nat) : (marginAbort s status).dob = s.dob := (marginAbort_keeps (mk := 7364672) (Keeps.refl s) (by decide)).dob (by decide)
@[simp] theorem marginAbort_mgmt (s : State) (status : Nat) : (marginAbort s status).mgmt = s.mgmt := (marginAbort_keeps (mk := 7364672) (Keeps.refl s) (by decide)).mgmt (by decide)
@[simp] theorem marginAbort_vault (s : State) (status : Nat) : (marginAbort s status).vault = s.vault := (marginAbort_keeps (mk := 7364672) (Keeps.refl s) (by decide)).vault (by decide)

@[simp] theorem driveSlot_pending (s : State) (k : Nat) : (driveSlot s k).pending = s.pending := (driveSlot_keeps (mk := 0) (Keeps.refl s) (by decide)).pending
@[simp] theorem driveSlot_now (s : State) (k : Nat) : (driveSlot s k).now = s.now := (driveSlot_keeps (mk := 0) (Keeps.refl s) (by decide)).now
@[simp] theorem driveSlot_ft (s : State) (k : Nat) : (driveSlot s k).ft = s.ft := (driveSlot_keeps (mk := 0) (Keeps.refl s) (by decide)).ft (by decide)
@[simp] theorem driveSlot_cfg (s : State) (k : Nat) : (driveSlot s k).cfg = s.cfg := (driveSlot_keeps (mk := 0) (Keeps.refl s) (by decide)).cfg (by decide)
@[simp] theorem driveSlot_flash (s : State) (k : Nat) : (driveSlot s k).flash = s.flash := (driveSlot_keeps (mk := 0) (Keeps.refl s) (by decide)).flash (by decide)
@[simp] theorem driveSlot_module (s : State) (k : Nat) : (driveSlot s k).module = s.module := (driveSlot_keeps (mk := 0) (Keeps.refl s) (by decide)).module (by decide)
@[simp] theorem driveSlot_power (s : State) (k : Nat) : (driveSlot s k).power = s.power := (driveSlot_keeps (mk := 0) (Keeps.refl s) (by decide)).power (by decide)
@[simp] theorem driveSlot_gov (s : State) (k : Nat) : (driveSlot s k).gov = s.gov := (driveSlot_keeps (mk := 0) (Keeps.refl s) (by decide)).gov (by decide)
@[simp] theorem driveSlot_lanes (s : State) (k : Nat) : (driveSlot s k).lanes = s.lanes := (driveSlot_keeps (mk := 0) (Keeps.refl s) (by decide)).lanes (by decide)
@[simp] theorem driveSlot_weft (s : State) (k : Nat) : (driveSlot s k).weft = s.weft := (driveSlot_keeps (mk := 0) (Keeps.refl s) (by decide)).weft (by decide)
@[simp] theorem driveSlot_warp (s : State) (k : Nat) : (driveSlot s k).warp = s.warp := (driveSlot_keeps (mk := 0) (Keeps.refl s) (by decide)).warp (by decide)
@[simp] theorem driveSlot_loom (s : State) (k : Nat) : (driveSlot s k).loom = s.loom := (driveSlot_keeps (mk := 0) (Keeps.refl s) (by decide)).loom (by decide)
@[simp] theorem driveSlot_fab (s : State) (k : Nat) : (driveSlot s k).fab = s.fab := (driveSlot_keeps (mk := 0) (Keeps.refl s) (by decide)).fab (by decide)
@[simp] theorem driveSlot_shu (s : State) (k : Nat) : (driveSlot s k).shu = s.shu := (driveSlot_keeps (mk := 0) (Keeps.refl s) (by decide)).shu (by decide)
@[simp] theorem driveSlot_win (s : State) (k : Nat) : (driveSlot s k).win = s.win := (driveSlot_keeps (mk := 0) (Keeps.refl s) (by decide)).win (by decide)
@[simp] theorem driveSlot_eng (s : State) (k : Nat) : (driveSlot s k).eng = s.eng := (driveSlot_keeps (mk := 0) (Keeps.refl s) (by decide)).eng (by decide)
@[simp] theorem driveSlot_hed (s : State) (k : Nat) : (driveSlot s k).hed = s.hed := (driveSlot_keeps (mk := 0) (Keeps.refl s) (by decide)).hed (by decide)
@[simp] theorem driveSlot_sel (s : State) (k : Nat) : (driveSlot s k).sel = s.sel := (driveSlot_keeps (mk := 0) (Keeps.refl s) (by decide)).sel (by decide)
@[simp] theorem driveSlot_twin (s : State) (k : Nat) : (driveSlot s k).twin = s.twin := (driveSlot_keeps (mk := 0) (Keeps.refl s) (by decide)).twin (by decide)
@[simp] theorem driveSlot_dob (s : State) (k : Nat) : (driveSlot s k).dob = s.dob := (driveSlot_keeps (mk := 0) (Keeps.refl s) (by decide)).dob (by decide)
@[simp] theorem driveSlot_mgmt (s : State) (k : Nat) : (driveSlot s k).mgmt = s.mgmt := (driveSlot_keeps (mk := 0) (Keeps.refl s) (by decide)).mgmt (by decide)
@[simp] theorem driveSlot_vault (s : State) (k : Nat) : (driveSlot s k).vault = s.vault := (driveSlot_keeps (mk := 0) (Keeps.refl s) (by decide)).vault (by decide)
@[simp] theorem driveSlot_obs (s : State) (k : Nat) : (driveSlot s k).obs = s.obs := (driveSlot_keeps (mk := 0) (Keeps.refl s) (by decide)).obs (by decide)
@[simp] theorem driveSlot_host (s : State) (k : Nat) : (driveSlot s k).host = s.host := (driveSlot_keeps (mk := 0) (Keeps.refl s) (by decide)).host (by decide)
@[simp] theorem driveSlot_beam (s : State) (k : Nat) : (driveSlot s k).beam = s.beam := (driveSlot_keeps (mk := 0) (Keeps.refl s) (by decide)).beam (by decide)

@[simp] theorem portEvent_pending (s : State) (p : Nat) (code : Nat) (info : Nat) : (portEvent s p code info).pending = s.pending := (portEvent_keeps (mk := 7364608) (Keeps.refl s) (by decide)).pending
@[simp] theorem portEvent_now (s : State) (p : Nat) (code : Nat) (info : Nat) : (portEvent s p code info).now = s.now := (portEvent_keeps (mk := 7364608) (Keeps.refl s) (by decide)).now
@[simp] theorem portEvent_ft (s : State) (p : Nat) (code : Nat) (info : Nat) : (portEvent s p code info).ft = s.ft := (portEvent_keeps (mk := 7364608) (Keeps.refl s) (by decide)).ft (by decide)
@[simp] theorem portEvent_cfg (s : State) (p : Nat) (code : Nat) (info : Nat) : (portEvent s p code info).cfg = s.cfg := (portEvent_keeps (mk := 7364608) (Keeps.refl s) (by decide)).cfg (by decide)
@[simp] theorem portEvent_flash (s : State) (p : Nat) (code : Nat) (info : Nat) : (portEvent s p code info).flash = s.flash := (portEvent_keeps (mk := 7364608) (Keeps.refl s) (by decide)).flash (by decide)
@[simp] theorem portEvent_module (s : State) (p : Nat) (code : Nat) (info : Nat) : (portEvent s p code info).module = s.module := (portEvent_keeps (mk := 7364608) (Keeps.refl s) (by decide)).module (by decide)
@[simp] theorem portEvent_power (s : State) (p : Nat) (code : Nat) (info : Nat) : (portEvent s p code info).power = s.power := (portEvent_keeps (mk := 7364608) (Keeps.refl s) (by decide)).power (by decide)
@[simp] theorem portEvent_gov (s : State) (p : Nat) (code : Nat) (info : Nat) : (portEvent s p code info).gov = s.gov := (portEvent_keeps (mk := 7364608) (Keeps.refl s) (by decide)).gov (by decide)
@[simp] theorem portEvent_lanes (s : State) (p : Nat) (code : Nat) (info : Nat) : (portEvent s p code info).lanes = s.lanes := (portEvent_keeps (mk := 7364608) (Keeps.refl s) (by decide)).lanes (by decide)
@[simp] theorem portEvent_weft (s : State) (p : Nat) (code : Nat) (info : Nat) : (portEvent s p code info).weft = s.weft := (portEvent_keeps (mk := 7364608) (Keeps.refl s) (by decide)).weft (by decide)
@[simp] theorem portEvent_warp (s : State) (p : Nat) (code : Nat) (info : Nat) : (portEvent s p code info).warp = s.warp := (portEvent_keeps (mk := 7364608) (Keeps.refl s) (by decide)).warp (by decide)
@[simp] theorem portEvent_loom (s : State) (p : Nat) (code : Nat) (info : Nat) : (portEvent s p code info).loom = s.loom := (portEvent_keeps (mk := 7364608) (Keeps.refl s) (by decide)).loom (by decide)
@[simp] theorem portEvent_fab (s : State) (p : Nat) (code : Nat) (info : Nat) : (portEvent s p code info).fab = s.fab := (portEvent_keeps (mk := 7364608) (Keeps.refl s) (by decide)).fab (by decide)
@[simp] theorem portEvent_shu (s : State) (p : Nat) (code : Nat) (info : Nat) : (portEvent s p code info).shu = s.shu := (portEvent_keeps (mk := 7364608) (Keeps.refl s) (by decide)).shu (by decide)
@[simp] theorem portEvent_win (s : State) (p : Nat) (code : Nat) (info : Nat) : (portEvent s p code info).win = s.win := (portEvent_keeps (mk := 7364608) (Keeps.refl s) (by decide)).win (by decide)
@[simp] theorem portEvent_sel (s : State) (p : Nat) (code : Nat) (info : Nat) : (portEvent s p code info).sel = s.sel := (portEvent_keeps (mk := 7364608) (Keeps.refl s) (by decide)).sel (by decide)
@[simp] theorem portEvent_twin (s : State) (p : Nat) (code : Nat) (info : Nat) : (portEvent s p code info).twin = s.twin := (portEvent_keeps (mk := 7364608) (Keeps.refl s) (by decide)).twin (by decide)
@[simp] theorem portEvent_dob (s : State) (p : Nat) (code : Nat) (info : Nat) : (portEvent s p code info).dob = s.dob := (portEvent_keeps (mk := 7364608) (Keeps.refl s) (by decide)).dob (by decide)
@[simp] theorem portEvent_mgmt (s : State) (p : Nat) (code : Nat) (info : Nat) : (portEvent s p code info).mgmt = s.mgmt := (portEvent_keeps (mk := 7364608) (Keeps.refl s) (by decide)).mgmt (by decide)
@[simp] theorem portEvent_vault (s : State) (p : Nat) (code : Nat) (info : Nat) : (portEvent s p code info).vault = s.vault := (portEvent_keeps (mk := 7364608) (Keeps.refl s) (by decide)).vault (by decide)

@[simp] theorem slotEvent_pending (s : State) (k : Nat) (code : Nat) (info : Nat) : (slotEvent s k code info).pending = s.pending := (slotEvent_keeps (mk := 7364608) (Keeps.refl s) (by decide)).pending
@[simp] theorem slotEvent_now (s : State) (k : Nat) (code : Nat) (info : Nat) : (slotEvent s k code info).now = s.now := (slotEvent_keeps (mk := 7364608) (Keeps.refl s) (by decide)).now
@[simp] theorem slotEvent_ft (s : State) (k : Nat) (code : Nat) (info : Nat) : (slotEvent s k code info).ft = s.ft := (slotEvent_keeps (mk := 7364608) (Keeps.refl s) (by decide)).ft (by decide)
@[simp] theorem slotEvent_cfg (s : State) (k : Nat) (code : Nat) (info : Nat) : (slotEvent s k code info).cfg = s.cfg := (slotEvent_keeps (mk := 7364608) (Keeps.refl s) (by decide)).cfg (by decide)
@[simp] theorem slotEvent_flash (s : State) (k : Nat) (code : Nat) (info : Nat) : (slotEvent s k code info).flash = s.flash := (slotEvent_keeps (mk := 7364608) (Keeps.refl s) (by decide)).flash (by decide)
@[simp] theorem slotEvent_module (s : State) (k : Nat) (code : Nat) (info : Nat) : (slotEvent s k code info).module = s.module := (slotEvent_keeps (mk := 7364608) (Keeps.refl s) (by decide)).module (by decide)
@[simp] theorem slotEvent_power (s : State) (k : Nat) (code : Nat) (info : Nat) : (slotEvent s k code info).power = s.power := (slotEvent_keeps (mk := 7364608) (Keeps.refl s) (by decide)).power (by decide)
@[simp] theorem slotEvent_gov (s : State) (k : Nat) (code : Nat) (info : Nat) : (slotEvent s k code info).gov = s.gov := (slotEvent_keeps (mk := 7364608) (Keeps.refl s) (by decide)).gov (by decide)
@[simp] theorem slotEvent_lanes (s : State) (k : Nat) (code : Nat) (info : Nat) : (slotEvent s k code info).lanes = s.lanes := (slotEvent_keeps (mk := 7364608) (Keeps.refl s) (by decide)).lanes (by decide)
@[simp] theorem slotEvent_weft (s : State) (k : Nat) (code : Nat) (info : Nat) : (slotEvent s k code info).weft = s.weft := (slotEvent_keeps (mk := 7364608) (Keeps.refl s) (by decide)).weft (by decide)
@[simp] theorem slotEvent_warp (s : State) (k : Nat) (code : Nat) (info : Nat) : (slotEvent s k code info).warp = s.warp := (slotEvent_keeps (mk := 7364608) (Keeps.refl s) (by decide)).warp (by decide)
@[simp] theorem slotEvent_loom (s : State) (k : Nat) (code : Nat) (info : Nat) : (slotEvent s k code info).loom = s.loom := (slotEvent_keeps (mk := 7364608) (Keeps.refl s) (by decide)).loom (by decide)
@[simp] theorem slotEvent_fab (s : State) (k : Nat) (code : Nat) (info : Nat) : (slotEvent s k code info).fab = s.fab := (slotEvent_keeps (mk := 7364608) (Keeps.refl s) (by decide)).fab (by decide)
@[simp] theorem slotEvent_shu (s : State) (k : Nat) (code : Nat) (info : Nat) : (slotEvent s k code info).shu = s.shu := (slotEvent_keeps (mk := 7364608) (Keeps.refl s) (by decide)).shu (by decide)
@[simp] theorem slotEvent_win (s : State) (k : Nat) (code : Nat) (info : Nat) : (slotEvent s k code info).win = s.win := (slotEvent_keeps (mk := 7364608) (Keeps.refl s) (by decide)).win (by decide)
@[simp] theorem slotEvent_sel (s : State) (k : Nat) (code : Nat) (info : Nat) : (slotEvent s k code info).sel = s.sel := (slotEvent_keeps (mk := 7364608) (Keeps.refl s) (by decide)).sel (by decide)
@[simp] theorem slotEvent_twin (s : State) (k : Nat) (code : Nat) (info : Nat) : (slotEvent s k code info).twin = s.twin := (slotEvent_keeps (mk := 7364608) (Keeps.refl s) (by decide)).twin (by decide)
@[simp] theorem slotEvent_dob (s : State) (k : Nat) (code : Nat) (info : Nat) : (slotEvent s k code info).dob = s.dob := (slotEvent_keeps (mk := 7364608) (Keeps.refl s) (by decide)).dob (by decide)
@[simp] theorem slotEvent_mgmt (s : State) (k : Nat) (code : Nat) (info : Nat) : (slotEvent s k code info).mgmt = s.mgmt := (slotEvent_keeps (mk := 7364608) (Keeps.refl s) (by decide)).mgmt (by decide)
@[simp] theorem slotEvent_vault (s : State) (k : Nat) (code : Nat) (info : Nat) : (slotEvent s k code info).vault = s.vault := (slotEvent_keeps (mk := 7364608) (Keeps.refl s) (by decide)).vault (by decide)

@[simp] theorem writeDone_pending (s : State) (u : Unseen) (late : Bool) : (writeDone s u late).pending = s.pending := (writeDone_keeps (mk := 6144) (Keeps.refl s) (by decide)).pending
@[simp] theorem writeDone_now (s : State) (u : Unseen) (late : Bool) : (writeDone s u late).now = s.now := (writeDone_keeps (mk := 6144) (Keeps.refl s) (by decide)).now
@[simp] theorem writeDone_ft (s : State) (u : Unseen) (late : Bool) : (writeDone s u late).ft = s.ft := (writeDone_keeps (mk := 6144) (Keeps.refl s) (by decide)).ft (by decide)
@[simp] theorem writeDone_cfg (s : State) (u : Unseen) (late : Bool) : (writeDone s u late).cfg = s.cfg := (writeDone_keeps (mk := 6144) (Keeps.refl s) (by decide)).cfg (by decide)
@[simp] theorem writeDone_flash (s : State) (u : Unseen) (late : Bool) : (writeDone s u late).flash = s.flash := (writeDone_keeps (mk := 6144) (Keeps.refl s) (by decide)).flash (by decide)
@[simp] theorem writeDone_module (s : State) (u : Unseen) (late : Bool) : (writeDone s u late).module = s.module := (writeDone_keeps (mk := 6144) (Keeps.refl s) (by decide)).module (by decide)
@[simp] theorem writeDone_power (s : State) (u : Unseen) (late : Bool) : (writeDone s u late).power = s.power := (writeDone_keeps (mk := 6144) (Keeps.refl s) (by decide)).power (by decide)
@[simp] theorem writeDone_gov (s : State) (u : Unseen) (late : Bool) : (writeDone s u late).gov = s.gov := (writeDone_keeps (mk := 6144) (Keeps.refl s) (by decide)).gov (by decide)
@[simp] theorem writeDone_lanes (s : State) (u : Unseen) (late : Bool) : (writeDone s u late).lanes = s.lanes := (writeDone_keeps (mk := 6144) (Keeps.refl s) (by decide)).lanes (by decide)
@[simp] theorem writeDone_weft (s : State) (u : Unseen) (late : Bool) : (writeDone s u late).weft = s.weft := (writeDone_keeps (mk := 6144) (Keeps.refl s) (by decide)).weft (by decide)
@[simp] theorem writeDone_warp (s : State) (u : Unseen) (late : Bool) : (writeDone s u late).warp = s.warp := (writeDone_keeps (mk := 6144) (Keeps.refl s) (by decide)).warp (by decide)
@[simp] theorem writeDone_loom (s : State) (u : Unseen) (late : Bool) : (writeDone s u late).loom = s.loom := (writeDone_keeps (mk := 6144) (Keeps.refl s) (by decide)).loom (by decide)
@[simp] theorem writeDone_fab (s : State) (u : Unseen) (late : Bool) : (writeDone s u late).fab = s.fab := (writeDone_keeps (mk := 6144) (Keeps.refl s) (by decide)).fab (by decide)
@[simp] theorem writeDone_eng (s : State) (u : Unseen) (late : Bool) : (writeDone s u late).eng = s.eng := (writeDone_keeps (mk := 6144) (Keeps.refl s) (by decide)).eng (by decide)
@[simp] theorem writeDone_hed (s : State) (u : Unseen) (late : Bool) : (writeDone s u late).hed = s.hed := (writeDone_keeps (mk := 6144) (Keeps.refl s) (by decide)).hed (by decide)
@[simp] theorem writeDone_sel (s : State) (u : Unseen) (late : Bool) : (writeDone s u late).sel = s.sel := (writeDone_keeps (mk := 6144) (Keeps.refl s) (by decide)).sel (by decide)
@[simp] theorem writeDone_twin (s : State) (u : Unseen) (late : Bool) : (writeDone s u late).twin = s.twin := (writeDone_keeps (mk := 6144) (Keeps.refl s) (by decide)).twin (by decide)
@[simp] theorem writeDone_dob (s : State) (u : Unseen) (late : Bool) : (writeDone s u late).dob = s.dob := (writeDone_keeps (mk := 6144) (Keeps.refl s) (by decide)).dob (by decide)
@[simp] theorem writeDone_mgmt (s : State) (u : Unseen) (late : Bool) : (writeDone s u late).mgmt = s.mgmt := (writeDone_keeps (mk := 6144) (Keeps.refl s) (by decide)).mgmt (by decide)
@[simp] theorem writeDone_vault (s : State) (u : Unseen) (late : Bool) : (writeDone s u late).vault = s.vault := (writeDone_keeps (mk := 6144) (Keeps.refl s) (by decide)).vault (by decide)
@[simp] theorem writeDone_obs (s : State) (u : Unseen) (late : Bool) : (writeDone s u late).obs = s.obs := (writeDone_keeps (mk := 6144) (Keeps.refl s) (by decide)).obs (by decide)
@[simp] theorem writeDone_host (s : State) (u : Unseen) (late : Bool) : (writeDone s u late).host = s.host := (writeDone_keeps (mk := 6144) (Keeps.refl s) (by decide)).host (by decide)
@[simp] theorem writeDone_beam (s : State) (u : Unseen) (late : Bool) : (writeDone s u late).beam = s.beam := (writeDone_keeps (mk := 6144) (Keeps.refl s) (by decide)).beam (by decide)

@[simp] theorem releaseItem_pending (s : State) (i : LoomItem) : (releaseItem s i).pending = s.pending := (releaseItem_keeps (mk := 7365504) (Keeps.refl s) (by decide)).pending
@[simp] theorem releaseItem_now (s : State) (i : LoomItem) : (releaseItem s i).now = s.now := (releaseItem_keeps (mk := 7365504) (Keeps.refl s) (by decide)).now
@[simp] theorem releaseItem_ft (s : State) (i : LoomItem) : (releaseItem s i).ft = s.ft := (releaseItem_keeps (mk := 7365504) (Keeps.refl s) (by decide)).ft (by decide)
@[simp] theorem releaseItem_cfg (s : State) (i : LoomItem) : (releaseItem s i).cfg = s.cfg := (releaseItem_keeps (mk := 7365504) (Keeps.refl s) (by decide)).cfg (by decide)
@[simp] theorem releaseItem_flash (s : State) (i : LoomItem) : (releaseItem s i).flash = s.flash := (releaseItem_keeps (mk := 7365504) (Keeps.refl s) (by decide)).flash (by decide)
@[simp] theorem releaseItem_module (s : State) (i : LoomItem) : (releaseItem s i).module = s.module := (releaseItem_keeps (mk := 7365504) (Keeps.refl s) (by decide)).module (by decide)
@[simp] theorem releaseItem_power (s : State) (i : LoomItem) : (releaseItem s i).power = s.power := (releaseItem_keeps (mk := 7365504) (Keeps.refl s) (by decide)).power (by decide)
@[simp] theorem releaseItem_gov (s : State) (i : LoomItem) : (releaseItem s i).gov = s.gov := (releaseItem_keeps (mk := 7365504) (Keeps.refl s) (by decide)).gov (by decide)
@[simp] theorem releaseItem_lanes (s : State) (i : LoomItem) : (releaseItem s i).lanes = s.lanes := (releaseItem_keeps (mk := 7365504) (Keeps.refl s) (by decide)).lanes (by decide)
@[simp] theorem releaseItem_fab (s : State) (i : LoomItem) : (releaseItem s i).fab = s.fab := (releaseItem_keeps (mk := 7365504) (Keeps.refl s) (by decide)).fab (by decide)
@[simp] theorem releaseItem_shu (s : State) (i : LoomItem) : (releaseItem s i).shu = s.shu := (releaseItem_keeps (mk := 7365504) (Keeps.refl s) (by decide)).shu (by decide)
@[simp] theorem releaseItem_win (s : State) (i : LoomItem) : (releaseItem s i).win = s.win := (releaseItem_keeps (mk := 7365504) (Keeps.refl s) (by decide)).win (by decide)
@[simp] theorem releaseItem_sel (s : State) (i : LoomItem) : (releaseItem s i).sel = s.sel := (releaseItem_keeps (mk := 7365504) (Keeps.refl s) (by decide)).sel (by decide)
@[simp] theorem releaseItem_twin (s : State) (i : LoomItem) : (releaseItem s i).twin = s.twin := (releaseItem_keeps (mk := 7365504) (Keeps.refl s) (by decide)).twin (by decide)
@[simp] theorem releaseItem_dob (s : State) (i : LoomItem) : (releaseItem s i).dob = s.dob := (releaseItem_keeps (mk := 7365504) (Keeps.refl s) (by decide)).dob (by decide)
@[simp] theorem releaseItem_mgmt (s : State) (i : LoomItem) : (releaseItem s i).mgmt = s.mgmt := (releaseItem_keeps (mk := 7365504) (Keeps.refl s) (by decide)).mgmt (by decide)
@[simp] theorem releaseItem_vault (s : State) (i : LoomItem) : (releaseItem s i).vault = s.vault := (releaseItem_keeps (mk := 7365504) (Keeps.refl s) (by decide)).vault (by decide)

@[simp] theorem removeItem_pending (s : State) (d : Nat) (id : Nat) : (removeItem s d id).pending = s.pending := (removeItem_keeps (mk := 512) (Keeps.refl s) (by decide)).pending
@[simp] theorem removeItem_now (s : State) (d : Nat) (id : Nat) : (removeItem s d id).now = s.now := (removeItem_keeps (mk := 512) (Keeps.refl s) (by decide)).now
@[simp] theorem removeItem_ft (s : State) (d : Nat) (id : Nat) : (removeItem s d id).ft = s.ft := (removeItem_keeps (mk := 512) (Keeps.refl s) (by decide)).ft (by decide)
@[simp] theorem removeItem_cfg (s : State) (d : Nat) (id : Nat) : (removeItem s d id).cfg = s.cfg := (removeItem_keeps (mk := 512) (Keeps.refl s) (by decide)).cfg (by decide)
@[simp] theorem removeItem_flash (s : State) (d : Nat) (id : Nat) : (removeItem s d id).flash = s.flash := (removeItem_keeps (mk := 512) (Keeps.refl s) (by decide)).flash (by decide)
@[simp] theorem removeItem_module (s : State) (d : Nat) (id : Nat) : (removeItem s d id).module = s.module := (removeItem_keeps (mk := 512) (Keeps.refl s) (by decide)).module (by decide)
@[simp] theorem removeItem_power (s : State) (d : Nat) (id : Nat) : (removeItem s d id).power = s.power := (removeItem_keeps (mk := 512) (Keeps.refl s) (by decide)).power (by decide)
@[simp] theorem removeItem_gov (s : State) (d : Nat) (id : Nat) : (removeItem s d id).gov = s.gov := (removeItem_keeps (mk := 512) (Keeps.refl s) (by decide)).gov (by decide)
@[simp] theorem removeItem_lanes (s : State) (d : Nat) (id : Nat) : (removeItem s d id).lanes = s.lanes := (removeItem_keeps (mk := 512) (Keeps.refl s) (by decide)).lanes (by decide)
@[simp] theorem removeItem_weft (s : State) (d : Nat) (id : Nat) : (removeItem s d id).weft = s.weft := (removeItem_keeps (mk := 512) (Keeps.refl s) (by decide)).weft (by decide)
@[simp] theorem removeItem_warp (s : State) (d : Nat) (id : Nat) : (removeItem s d id).warp = s.warp := (removeItem_keeps (mk := 512) (Keeps.refl s) (by decide)).warp (by decide)
@[simp] theorem removeItem_fab (s : State) (d : Nat) (id : Nat) : (removeItem s d id).fab = s.fab := (removeItem_keeps (mk := 512) (Keeps.refl s) (by decide)).fab (by decide)
@[simp] theorem removeItem_shu (s : State) (d : Nat) (id : Nat) : (removeItem s d id).shu = s.shu := (removeItem_keeps (mk := 512) (Keeps.refl s) (by decide)).shu (by decide)
@[simp] theorem removeItem_win (s : State) (d : Nat) (id : Nat) : (removeItem s d id).win = s.win := (removeItem_keeps (mk := 512) (Keeps.refl s) (by decide)).win (by decide)
@[simp] theorem removeItem_eng (s : State) (d : Nat) (id : Nat) : (removeItem s d id).eng = s.eng := (removeItem_keeps (mk := 512) (Keeps.refl s) (by decide)).eng (by decide)
@[simp] theorem removeItem_hed (s : State) (d : Nat) (id : Nat) : (removeItem s d id).hed = s.hed := (removeItem_keeps (mk := 512) (Keeps.refl s) (by decide)).hed (by decide)
@[simp] theorem removeItem_sel (s : State) (d : Nat) (id : Nat) : (removeItem s d id).sel = s.sel := (removeItem_keeps (mk := 512) (Keeps.refl s) (by decide)).sel (by decide)
@[simp] theorem removeItem_twin (s : State) (d : Nat) (id : Nat) : (removeItem s d id).twin = s.twin := (removeItem_keeps (mk := 512) (Keeps.refl s) (by decide)).twin (by decide)
@[simp] theorem removeItem_dob (s : State) (d : Nat) (id : Nat) : (removeItem s d id).dob = s.dob := (removeItem_keeps (mk := 512) (Keeps.refl s) (by decide)).dob (by decide)
@[simp] theorem removeItem_mgmt (s : State) (d : Nat) (id : Nat) : (removeItem s d id).mgmt = s.mgmt := (removeItem_keeps (mk := 512) (Keeps.refl s) (by decide)).mgmt (by decide)
@[simp] theorem removeItem_vault (s : State) (d : Nat) (id : Nat) : (removeItem s d id).vault = s.vault := (removeItem_keeps (mk := 512) (Keeps.refl s) (by decide)).vault (by decide)
@[simp] theorem removeItem_obs (s : State) (d : Nat) (id : Nat) : (removeItem s d id).obs = s.obs := (removeItem_keeps (mk := 512) (Keeps.refl s) (by decide)).obs (by decide)
@[simp] theorem removeItem_host (s : State) (d : Nat) (id : Nat) : (removeItem s d id).host = s.host := (removeItem_keeps (mk := 512) (Keeps.refl s) (by decide)).host (by decide)
@[simp] theorem removeItem_beam (s : State) (d : Nat) (id : Nat) : (removeItem s d id).beam = s.beam := (removeItem_keeps (mk := 512) (Keeps.refl s) (by decide)).beam (by decide)

@[simp] theorem requestGone_pending (s : State) (i : LoomItem) : (requestGone s i).pending = s.pending := (requestGone_keeps (mk := 6144) (Keeps.refl s) (by decide)).pending
@[simp] theorem requestGone_now (s : State) (i : LoomItem) : (requestGone s i).now = s.now := (requestGone_keeps (mk := 6144) (Keeps.refl s) (by decide)).now
@[simp] theorem requestGone_ft (s : State) (i : LoomItem) : (requestGone s i).ft = s.ft := (requestGone_keeps (mk := 6144) (Keeps.refl s) (by decide)).ft (by decide)
@[simp] theorem requestGone_cfg (s : State) (i : LoomItem) : (requestGone s i).cfg = s.cfg := (requestGone_keeps (mk := 6144) (Keeps.refl s) (by decide)).cfg (by decide)
@[simp] theorem requestGone_flash (s : State) (i : LoomItem) : (requestGone s i).flash = s.flash := (requestGone_keeps (mk := 6144) (Keeps.refl s) (by decide)).flash (by decide)
@[simp] theorem requestGone_module (s : State) (i : LoomItem) : (requestGone s i).module = s.module := (requestGone_keeps (mk := 6144) (Keeps.refl s) (by decide)).module (by decide)
@[simp] theorem requestGone_power (s : State) (i : LoomItem) : (requestGone s i).power = s.power := (requestGone_keeps (mk := 6144) (Keeps.refl s) (by decide)).power (by decide)
@[simp] theorem requestGone_gov (s : State) (i : LoomItem) : (requestGone s i).gov = s.gov := (requestGone_keeps (mk := 6144) (Keeps.refl s) (by decide)).gov (by decide)
@[simp] theorem requestGone_lanes (s : State) (i : LoomItem) : (requestGone s i).lanes = s.lanes := (requestGone_keeps (mk := 6144) (Keeps.refl s) (by decide)).lanes (by decide)
@[simp] theorem requestGone_weft (s : State) (i : LoomItem) : (requestGone s i).weft = s.weft := (requestGone_keeps (mk := 6144) (Keeps.refl s) (by decide)).weft (by decide)
@[simp] theorem requestGone_warp (s : State) (i : LoomItem) : (requestGone s i).warp = s.warp := (requestGone_keeps (mk := 6144) (Keeps.refl s) (by decide)).warp (by decide)
@[simp] theorem requestGone_loom (s : State) (i : LoomItem) : (requestGone s i).loom = s.loom := (requestGone_keeps (mk := 6144) (Keeps.refl s) (by decide)).loom (by decide)
@[simp] theorem requestGone_fab (s : State) (i : LoomItem) : (requestGone s i).fab = s.fab := (requestGone_keeps (mk := 6144) (Keeps.refl s) (by decide)).fab (by decide)
@[simp] theorem requestGone_eng (s : State) (i : LoomItem) : (requestGone s i).eng = s.eng := (requestGone_keeps (mk := 6144) (Keeps.refl s) (by decide)).eng (by decide)
@[simp] theorem requestGone_hed (s : State) (i : LoomItem) : (requestGone s i).hed = s.hed := (requestGone_keeps (mk := 6144) (Keeps.refl s) (by decide)).hed (by decide)
@[simp] theorem requestGone_sel (s : State) (i : LoomItem) : (requestGone s i).sel = s.sel := (requestGone_keeps (mk := 6144) (Keeps.refl s) (by decide)).sel (by decide)
@[simp] theorem requestGone_twin (s : State) (i : LoomItem) : (requestGone s i).twin = s.twin := (requestGone_keeps (mk := 6144) (Keeps.refl s) (by decide)).twin (by decide)
@[simp] theorem requestGone_dob (s : State) (i : LoomItem) : (requestGone s i).dob = s.dob := (requestGone_keeps (mk := 6144) (Keeps.refl s) (by decide)).dob (by decide)
@[simp] theorem requestGone_mgmt (s : State) (i : LoomItem) : (requestGone s i).mgmt = s.mgmt := (requestGone_keeps (mk := 6144) (Keeps.refl s) (by decide)).mgmt (by decide)
@[simp] theorem requestGone_vault (s : State) (i : LoomItem) : (requestGone s i).vault = s.vault := (requestGone_keeps (mk := 6144) (Keeps.refl s) (by decide)).vault (by decide)
@[simp] theorem requestGone_obs (s : State) (i : LoomItem) : (requestGone s i).obs = s.obs := (requestGone_keeps (mk := 6144) (Keeps.refl s) (by decide)).obs (by decide)
@[simp] theorem requestGone_host (s : State) (i : LoomItem) : (requestGone s i).host = s.host := (requestGone_keeps (mk := 6144) (Keeps.refl s) (by decide)).host (by decide)
@[simp] theorem requestGone_beam (s : State) (i : LoomItem) : (requestGone s i).beam = s.beam := (requestGone_keeps (mk := 6144) (Keeps.refl s) (by decide)).beam (by decide)

@[simp] theorem discardIde_pending (s : State) (p : Nat) (cause : Nat) : (discardIde s p cause).pending = s.pending := (discardIde_keeps (mk := 7889152) (Keeps.refl s) (by decide)).pending
@[simp] theorem discardIde_now (s : State) (p : Nat) (cause : Nat) : (discardIde s p cause).now = s.now := (discardIde_keeps (mk := 7889152) (Keeps.refl s) (by decide)).now
@[simp] theorem discardIde_ft (s : State) (p : Nat) (cause : Nat) : (discardIde s p cause).ft = s.ft := (discardIde_keeps (mk := 7889152) (Keeps.refl s) (by decide)).ft (by decide)
@[simp] theorem discardIde_cfg (s : State) (p : Nat) (cause : Nat) : (discardIde s p cause).cfg = s.cfg := (discardIde_keeps (mk := 7889152) (Keeps.refl s) (by decide)).cfg (by decide)
@[simp] theorem discardIde_flash (s : State) (p : Nat) (cause : Nat) : (discardIde s p cause).flash = s.flash := (discardIde_keeps (mk := 7889152) (Keeps.refl s) (by decide)).flash (by decide)
@[simp] theorem discardIde_module (s : State) (p : Nat) (cause : Nat) : (discardIde s p cause).module = s.module := (discardIde_keeps (mk := 7889152) (Keeps.refl s) (by decide)).module (by decide)
@[simp] theorem discardIde_power (s : State) (p : Nat) (cause : Nat) : (discardIde s p cause).power = s.power := (discardIde_keeps (mk := 7889152) (Keeps.refl s) (by decide)).power (by decide)
@[simp] theorem discardIde_gov (s : State) (p : Nat) (cause : Nat) : (discardIde s p cause).gov = s.gov := (discardIde_keeps (mk := 7889152) (Keeps.refl s) (by decide)).gov (by decide)
@[simp] theorem discardIde_lanes (s : State) (p : Nat) (cause : Nat) : (discardIde s p cause).lanes = s.lanes := (discardIde_keeps (mk := 7889152) (Keeps.refl s) (by decide)).lanes (by decide)
@[simp] theorem discardIde_weft (s : State) (p : Nat) (cause : Nat) : (discardIde s p cause).weft = s.weft := (discardIde_keeps (mk := 7889152) (Keeps.refl s) (by decide)).weft (by decide)
@[simp] theorem discardIde_loom (s : State) (p : Nat) (cause : Nat) : (discardIde s p cause).loom = s.loom := (discardIde_keeps (mk := 7889152) (Keeps.refl s) (by decide)).loom (by decide)
@[simp] theorem discardIde_fab (s : State) (p : Nat) (cause : Nat) : (discardIde s p cause).fab = s.fab := (discardIde_keeps (mk := 7889152) (Keeps.refl s) (by decide)).fab (by decide)
@[simp] theorem discardIde_shu (s : State) (p : Nat) (cause : Nat) : (discardIde s p cause).shu = s.shu := (discardIde_keeps (mk := 7889152) (Keeps.refl s) (by decide)).shu (by decide)
@[simp] theorem discardIde_win (s : State) (p : Nat) (cause : Nat) : (discardIde s p cause).win = s.win := (discardIde_keeps (mk := 7889152) (Keeps.refl s) (by decide)).win (by decide)
@[simp] theorem discardIde_sel (s : State) (p : Nat) (cause : Nat) : (discardIde s p cause).sel = s.sel := (discardIde_keeps (mk := 7889152) (Keeps.refl s) (by decide)).sel (by decide)
@[simp] theorem discardIde_twin (s : State) (p : Nat) (cause : Nat) : (discardIde s p cause).twin = s.twin := (discardIde_keeps (mk := 7889152) (Keeps.refl s) (by decide)).twin (by decide)
@[simp] theorem discardIde_dob (s : State) (p : Nat) (cause : Nat) : (discardIde s p cause).dob = s.dob := (discardIde_keeps (mk := 7889152) (Keeps.refl s) (by decide)).dob (by decide)
@[simp] theorem discardIde_mgmt (s : State) (p : Nat) (cause : Nat) : (discardIde s p cause).mgmt = s.mgmt := (discardIde_keeps (mk := 7889152) (Keeps.refl s) (by decide)).mgmt (by decide)

@[simp] theorem discardPartIde_pending (s : State) (v : Nat) : (discardPartIde s v).pending = s.pending := (discardPartIde_keeps (mk := 7889152) (Keeps.refl s) (by decide)).pending
@[simp] theorem discardPartIde_now (s : State) (v : Nat) : (discardPartIde s v).now = s.now := (discardPartIde_keeps (mk := 7889152) (Keeps.refl s) (by decide)).now
@[simp] theorem discardPartIde_ft (s : State) (v : Nat) : (discardPartIde s v).ft = s.ft := (discardPartIde_keeps (mk := 7889152) (Keeps.refl s) (by decide)).ft (by decide)
@[simp] theorem discardPartIde_cfg (s : State) (v : Nat) : (discardPartIde s v).cfg = s.cfg := (discardPartIde_keeps (mk := 7889152) (Keeps.refl s) (by decide)).cfg (by decide)
@[simp] theorem discardPartIde_flash (s : State) (v : Nat) : (discardPartIde s v).flash = s.flash := (discardPartIde_keeps (mk := 7889152) (Keeps.refl s) (by decide)).flash (by decide)
@[simp] theorem discardPartIde_module (s : State) (v : Nat) : (discardPartIde s v).module = s.module := (discardPartIde_keeps (mk := 7889152) (Keeps.refl s) (by decide)).module (by decide)
@[simp] theorem discardPartIde_power (s : State) (v : Nat) : (discardPartIde s v).power = s.power := (discardPartIde_keeps (mk := 7889152) (Keeps.refl s) (by decide)).power (by decide)
@[simp] theorem discardPartIde_gov (s : State) (v : Nat) : (discardPartIde s v).gov = s.gov := (discardPartIde_keeps (mk := 7889152) (Keeps.refl s) (by decide)).gov (by decide)
@[simp] theorem discardPartIde_lanes (s : State) (v : Nat) : (discardPartIde s v).lanes = s.lanes := (discardPartIde_keeps (mk := 7889152) (Keeps.refl s) (by decide)).lanes (by decide)
@[simp] theorem discardPartIde_weft (s : State) (v : Nat) : (discardPartIde s v).weft = s.weft := (discardPartIde_keeps (mk := 7889152) (Keeps.refl s) (by decide)).weft (by decide)
@[simp] theorem discardPartIde_loom (s : State) (v : Nat) : (discardPartIde s v).loom = s.loom := (discardPartIde_keeps (mk := 7889152) (Keeps.refl s) (by decide)).loom (by decide)
@[simp] theorem discardPartIde_fab (s : State) (v : Nat) : (discardPartIde s v).fab = s.fab := (discardPartIde_keeps (mk := 7889152) (Keeps.refl s) (by decide)).fab (by decide)
@[simp] theorem discardPartIde_shu (s : State) (v : Nat) : (discardPartIde s v).shu = s.shu := (discardPartIde_keeps (mk := 7889152) (Keeps.refl s) (by decide)).shu (by decide)
@[simp] theorem discardPartIde_win (s : State) (v : Nat) : (discardPartIde s v).win = s.win := (discardPartIde_keeps (mk := 7889152) (Keeps.refl s) (by decide)).win (by decide)
@[simp] theorem discardPartIde_sel (s : State) (v : Nat) : (discardPartIde s v).sel = s.sel := (discardPartIde_keeps (mk := 7889152) (Keeps.refl s) (by decide)).sel (by decide)
@[simp] theorem discardPartIde_twin (s : State) (v : Nat) : (discardPartIde s v).twin = s.twin := (discardPartIde_keeps (mk := 7889152) (Keeps.refl s) (by decide)).twin (by decide)
@[simp] theorem discardPartIde_dob (s : State) (v : Nat) : (discardPartIde s v).dob = s.dob := (discardPartIde_keeps (mk := 7889152) (Keeps.refl s) (by decide)).dob (by decide)
@[simp] theorem discardPartIde_mgmt (s : State) (v : Nat) : (discardPartIde s v).mgmt = s.mgmt := (discardPartIde_keeps (mk := 7889152) (Keeps.refl s) (by decide)).mgmt (by decide)

@[simp] theorem selContained_pending (s : State) (x : Nat) (cause : Nat) (action : Nat) (vs : Option Nat) (header : Nat) : (selContained s x cause action vs header).pending = s.pending := (selContained_keeps (mk := 7397632) (Keeps.refl s) (by decide)).pending
@[simp] theorem selContained_now (s : State) (x : Nat) (cause : Nat) (action : Nat) (vs : Option Nat) (header : Nat) : (selContained s x cause action vs header).now = s.now := (selContained_keeps (mk := 7397632) (Keeps.refl s) (by decide)).now
@[simp] theorem selContained_ft (s : State) (x : Nat) (cause : Nat) (action : Nat) (vs : Option Nat) (header : Nat) : (selContained s x cause action vs header).ft = s.ft := (selContained_keeps (mk := 7397632) (Keeps.refl s) (by decide)).ft (by decide)
@[simp] theorem selContained_cfg (s : State) (x : Nat) (cause : Nat) (action : Nat) (vs : Option Nat) (header : Nat) : (selContained s x cause action vs header).cfg = s.cfg := (selContained_keeps (mk := 7397632) (Keeps.refl s) (by decide)).cfg (by decide)
@[simp] theorem selContained_flash (s : State) (x : Nat) (cause : Nat) (action : Nat) (vs : Option Nat) (header : Nat) : (selContained s x cause action vs header).flash = s.flash := (selContained_keeps (mk := 7397632) (Keeps.refl s) (by decide)).flash (by decide)
@[simp] theorem selContained_module (s : State) (x : Nat) (cause : Nat) (action : Nat) (vs : Option Nat) (header : Nat) : (selContained s x cause action vs header).module = s.module := (selContained_keeps (mk := 7397632) (Keeps.refl s) (by decide)).module (by decide)
@[simp] theorem selContained_power (s : State) (x : Nat) (cause : Nat) (action : Nat) (vs : Option Nat) (header : Nat) : (selContained s x cause action vs header).power = s.power := (selContained_keeps (mk := 7397632) (Keeps.refl s) (by decide)).power (by decide)
@[simp] theorem selContained_gov (s : State) (x : Nat) (cause : Nat) (action : Nat) (vs : Option Nat) (header : Nat) : (selContained s x cause action vs header).gov = s.gov := (selContained_keeps (mk := 7397632) (Keeps.refl s) (by decide)).gov (by decide)
@[simp] theorem selContained_lanes (s : State) (x : Nat) (cause : Nat) (action : Nat) (vs : Option Nat) (header : Nat) : (selContained s x cause action vs header).lanes = s.lanes := (selContained_keeps (mk := 7397632) (Keeps.refl s) (by decide)).lanes (by decide)
@[simp] theorem selContained_weft (s : State) (x : Nat) (cause : Nat) (action : Nat) (vs : Option Nat) (header : Nat) : (selContained s x cause action vs header).weft = s.weft := (selContained_keeps (mk := 7397632) (Keeps.refl s) (by decide)).weft (by decide)
@[simp] theorem selContained_loom (s : State) (x : Nat) (cause : Nat) (action : Nat) (vs : Option Nat) (header : Nat) : (selContained s x cause action vs header).loom = s.loom := (selContained_keeps (mk := 7397632) (Keeps.refl s) (by decide)).loom (by decide)
@[simp] theorem selContained_fab (s : State) (x : Nat) (cause : Nat) (action : Nat) (vs : Option Nat) (header : Nat) : (selContained s x cause action vs header).fab = s.fab := (selContained_keeps (mk := 7397632) (Keeps.refl s) (by decide)).fab (by decide)
@[simp] theorem selContained_shu (s : State) (x : Nat) (cause : Nat) (action : Nat) (vs : Option Nat) (header : Nat) : (selContained s x cause action vs header).shu = s.shu := (selContained_keeps (mk := 7397632) (Keeps.refl s) (by decide)).shu (by decide)
@[simp] theorem selContained_win (s : State) (x : Nat) (cause : Nat) (action : Nat) (vs : Option Nat) (header : Nat) : (selContained s x cause action vs header).win = s.win := (selContained_keeps (mk := 7397632) (Keeps.refl s) (by decide)).win (by decide)
@[simp] theorem selContained_twin (s : State) (x : Nat) (cause : Nat) (action : Nat) (vs : Option Nat) (header : Nat) : (selContained s x cause action vs header).twin = s.twin := (selContained_keeps (mk := 7397632) (Keeps.refl s) (by decide)).twin (by decide)
@[simp] theorem selContained_dob (s : State) (x : Nat) (cause : Nat) (action : Nat) (vs : Option Nat) (header : Nat) : (selContained s x cause action vs header).dob = s.dob := (selContained_keeps (mk := 7397632) (Keeps.refl s) (by decide)).dob (by decide)
@[simp] theorem selContained_mgmt (s : State) (x : Nat) (cause : Nat) (action : Nat) (vs : Option Nat) (header : Nat) : (selContained s x cause action vs header).mgmt = s.mgmt := (selContained_keeps (mk := 7397632) (Keeps.refl s) (by decide)).mgmt (by decide)
@[simp] theorem selContained_vault (s : State) (x : Nat) (cause : Nat) (action : Nat) (vs : Option Nat) (header : Nat) : (selContained s x cause action vs header).vault = s.vault := (selContained_keeps (mk := 7397632) (Keeps.refl s) (by decide)).vault (by decide)

@[simp] theorem selLatch_pending (s : State) (x : Nat) (cause : Nat) (action : Nat) (vs : Option Nat) (header : Nat) : (selLatch s x cause action vs header).pending = s.pending := (selLatch_keeps (mk := 32768) (Keeps.refl s) (by decide)).pending
@[simp] theorem selLatch_now (s : State) (x : Nat) (cause : Nat) (action : Nat) (vs : Option Nat) (header : Nat) : (selLatch s x cause action vs header).now = s.now := (selLatch_keeps (mk := 32768) (Keeps.refl s) (by decide)).now
@[simp] theorem selLatch_ft (s : State) (x : Nat) (cause : Nat) (action : Nat) (vs : Option Nat) (header : Nat) : (selLatch s x cause action vs header).ft = s.ft := (selLatch_keeps (mk := 32768) (Keeps.refl s) (by decide)).ft (by decide)
@[simp] theorem selLatch_cfg (s : State) (x : Nat) (cause : Nat) (action : Nat) (vs : Option Nat) (header : Nat) : (selLatch s x cause action vs header).cfg = s.cfg := (selLatch_keeps (mk := 32768) (Keeps.refl s) (by decide)).cfg (by decide)
@[simp] theorem selLatch_flash (s : State) (x : Nat) (cause : Nat) (action : Nat) (vs : Option Nat) (header : Nat) : (selLatch s x cause action vs header).flash = s.flash := (selLatch_keeps (mk := 32768) (Keeps.refl s) (by decide)).flash (by decide)
@[simp] theorem selLatch_module (s : State) (x : Nat) (cause : Nat) (action : Nat) (vs : Option Nat) (header : Nat) : (selLatch s x cause action vs header).module = s.module := (selLatch_keeps (mk := 32768) (Keeps.refl s) (by decide)).module (by decide)
@[simp] theorem selLatch_power (s : State) (x : Nat) (cause : Nat) (action : Nat) (vs : Option Nat) (header : Nat) : (selLatch s x cause action vs header).power = s.power := (selLatch_keeps (mk := 32768) (Keeps.refl s) (by decide)).power (by decide)
@[simp] theorem selLatch_gov (s : State) (x : Nat) (cause : Nat) (action : Nat) (vs : Option Nat) (header : Nat) : (selLatch s x cause action vs header).gov = s.gov := (selLatch_keeps (mk := 32768) (Keeps.refl s) (by decide)).gov (by decide)
@[simp] theorem selLatch_lanes (s : State) (x : Nat) (cause : Nat) (action : Nat) (vs : Option Nat) (header : Nat) : (selLatch s x cause action vs header).lanes = s.lanes := (selLatch_keeps (mk := 32768) (Keeps.refl s) (by decide)).lanes (by decide)
@[simp] theorem selLatch_weft (s : State) (x : Nat) (cause : Nat) (action : Nat) (vs : Option Nat) (header : Nat) : (selLatch s x cause action vs header).weft = s.weft := (selLatch_keeps (mk := 32768) (Keeps.refl s) (by decide)).weft (by decide)
@[simp] theorem selLatch_warp (s : State) (x : Nat) (cause : Nat) (action : Nat) (vs : Option Nat) (header : Nat) : (selLatch s x cause action vs header).warp = s.warp := (selLatch_keeps (mk := 32768) (Keeps.refl s) (by decide)).warp (by decide)
@[simp] theorem selLatch_loom (s : State) (x : Nat) (cause : Nat) (action : Nat) (vs : Option Nat) (header : Nat) : (selLatch s x cause action vs header).loom = s.loom := (selLatch_keeps (mk := 32768) (Keeps.refl s) (by decide)).loom (by decide)
@[simp] theorem selLatch_fab (s : State) (x : Nat) (cause : Nat) (action : Nat) (vs : Option Nat) (header : Nat) : (selLatch s x cause action vs header).fab = s.fab := (selLatch_keeps (mk := 32768) (Keeps.refl s) (by decide)).fab (by decide)
@[simp] theorem selLatch_shu (s : State) (x : Nat) (cause : Nat) (action : Nat) (vs : Option Nat) (header : Nat) : (selLatch s x cause action vs header).shu = s.shu := (selLatch_keeps (mk := 32768) (Keeps.refl s) (by decide)).shu (by decide)
@[simp] theorem selLatch_win (s : State) (x : Nat) (cause : Nat) (action : Nat) (vs : Option Nat) (header : Nat) : (selLatch s x cause action vs header).win = s.win := (selLatch_keeps (mk := 32768) (Keeps.refl s) (by decide)).win (by decide)
@[simp] theorem selLatch_eng (s : State) (x : Nat) (cause : Nat) (action : Nat) (vs : Option Nat) (header : Nat) : (selLatch s x cause action vs header).eng = s.eng := (selLatch_keeps (mk := 32768) (Keeps.refl s) (by decide)).eng (by decide)
@[simp] theorem selLatch_hed (s : State) (x : Nat) (cause : Nat) (action : Nat) (vs : Option Nat) (header : Nat) : (selLatch s x cause action vs header).hed = s.hed := (selLatch_keeps (mk := 32768) (Keeps.refl s) (by decide)).hed (by decide)
@[simp] theorem selLatch_twin (s : State) (x : Nat) (cause : Nat) (action : Nat) (vs : Option Nat) (header : Nat) : (selLatch s x cause action vs header).twin = s.twin := (selLatch_keeps (mk := 32768) (Keeps.refl s) (by decide)).twin (by decide)
@[simp] theorem selLatch_dob (s : State) (x : Nat) (cause : Nat) (action : Nat) (vs : Option Nat) (header : Nat) : (selLatch s x cause action vs header).dob = s.dob := (selLatch_keeps (mk := 32768) (Keeps.refl s) (by decide)).dob (by decide)
@[simp] theorem selLatch_mgmt (s : State) (x : Nat) (cause : Nat) (action : Nat) (vs : Option Nat) (header : Nat) : (selLatch s x cause action vs header).mgmt = s.mgmt := (selLatch_keeps (mk := 32768) (Keeps.refl s) (by decide)).mgmt (by decide)
@[simp] theorem selLatch_vault (s : State) (x : Nat) (cause : Nat) (action : Nat) (vs : Option Nat) (header : Nat) : (selLatch s x cause action vs header).vault = s.vault := (selLatch_keeps (mk := 32768) (Keeps.refl s) (by decide)).vault (by decide)
@[simp] theorem selLatch_obs (s : State) (x : Nat) (cause : Nat) (action : Nat) (vs : Option Nat) (header : Nat) : (selLatch s x cause action vs header).obs = s.obs := (selLatch_keeps (mk := 32768) (Keeps.refl s) (by decide)).obs (by decide)
@[simp] theorem selLatch_host (s : State) (x : Nat) (cause : Nat) (action : Nat) (vs : Option Nat) (header : Nat) : (selLatch s x cause action vs header).host = s.host := (selLatch_keeps (mk := 32768) (Keeps.refl s) (by decide)).host (by decide)
@[simp] theorem selLatch_beam (s : State) (x : Nat) (cause : Nat) (action : Nat) (vs : Option Nat) (header : Nat) : (selLatch s x cause action vs header).beam = s.beam := (selLatch_keeps (mk := 32768) (Keeps.refl s) (by decide)).beam (by decide)

@[simp] theorem assertSlotPerst_pending (s : State) (p : Nat) : (assertSlotPerst s p).pending = s.pending := (assertSlotPerst_keeps (mk := 256) (Keeps.refl s) (by decide)).pending
@[simp] theorem assertSlotPerst_now (s : State) (p : Nat) : (assertSlotPerst s p).now = s.now := (assertSlotPerst_keeps (mk := 256) (Keeps.refl s) (by decide)).now
@[simp] theorem assertSlotPerst_ft (s : State) (p : Nat) : (assertSlotPerst s p).ft = s.ft := (assertSlotPerst_keeps (mk := 256) (Keeps.refl s) (by decide)).ft (by decide)
@[simp] theorem assertSlotPerst_cfg (s : State) (p : Nat) : (assertSlotPerst s p).cfg = s.cfg := (assertSlotPerst_keeps (mk := 256) (Keeps.refl s) (by decide)).cfg (by decide)
@[simp] theorem assertSlotPerst_flash (s : State) (p : Nat) : (assertSlotPerst s p).flash = s.flash := (assertSlotPerst_keeps (mk := 256) (Keeps.refl s) (by decide)).flash (by decide)
@[simp] theorem assertSlotPerst_module (s : State) (p : Nat) : (assertSlotPerst s p).module = s.module := (assertSlotPerst_keeps (mk := 256) (Keeps.refl s) (by decide)).module (by decide)
@[simp] theorem assertSlotPerst_power (s : State) (p : Nat) : (assertSlotPerst s p).power = s.power := (assertSlotPerst_keeps (mk := 256) (Keeps.refl s) (by decide)).power (by decide)
@[simp] theorem assertSlotPerst_gov (s : State) (p : Nat) : (assertSlotPerst s p).gov = s.gov := (assertSlotPerst_keeps (mk := 256) (Keeps.refl s) (by decide)).gov (by decide)
@[simp] theorem assertSlotPerst_lanes (s : State) (p : Nat) : (assertSlotPerst s p).lanes = s.lanes := (assertSlotPerst_keeps (mk := 256) (Keeps.refl s) (by decide)).lanes (by decide)
@[simp] theorem assertSlotPerst_weft (s : State) (p : Nat) : (assertSlotPerst s p).weft = s.weft := (assertSlotPerst_keeps (mk := 256) (Keeps.refl s) (by decide)).weft (by decide)
@[simp] theorem assertSlotPerst_loom (s : State) (p : Nat) : (assertSlotPerst s p).loom = s.loom := (assertSlotPerst_keeps (mk := 256) (Keeps.refl s) (by decide)).loom (by decide)
@[simp] theorem assertSlotPerst_fab (s : State) (p : Nat) : (assertSlotPerst s p).fab = s.fab := (assertSlotPerst_keeps (mk := 256) (Keeps.refl s) (by decide)).fab (by decide)
@[simp] theorem assertSlotPerst_shu (s : State) (p : Nat) : (assertSlotPerst s p).shu = s.shu := (assertSlotPerst_keeps (mk := 256) (Keeps.refl s) (by decide)).shu (by decide)
@[simp] theorem assertSlotPerst_win (s : State) (p : Nat) : (assertSlotPerst s p).win = s.win := (assertSlotPerst_keeps (mk := 256) (Keeps.refl s) (by decide)).win (by decide)
@[simp] theorem assertSlotPerst_eng (s : State) (p : Nat) : (assertSlotPerst s p).eng = s.eng := (assertSlotPerst_keeps (mk := 256) (Keeps.refl s) (by decide)).eng (by decide)
@[simp] theorem assertSlotPerst_hed (s : State) (p : Nat) : (assertSlotPerst s p).hed = s.hed := (assertSlotPerst_keeps (mk := 256) (Keeps.refl s) (by decide)).hed (by decide)
@[simp] theorem assertSlotPerst_sel (s : State) (p : Nat) : (assertSlotPerst s p).sel = s.sel := (assertSlotPerst_keeps (mk := 256) (Keeps.refl s) (by decide)).sel (by decide)
@[simp] theorem assertSlotPerst_twin (s : State) (p : Nat) : (assertSlotPerst s p).twin = s.twin := (assertSlotPerst_keeps (mk := 256) (Keeps.refl s) (by decide)).twin (by decide)
@[simp] theorem assertSlotPerst_dob (s : State) (p : Nat) : (assertSlotPerst s p).dob = s.dob := (assertSlotPerst_keeps (mk := 256) (Keeps.refl s) (by decide)).dob (by decide)
@[simp] theorem assertSlotPerst_mgmt (s : State) (p : Nat) : (assertSlotPerst s p).mgmt = s.mgmt := (assertSlotPerst_keeps (mk := 256) (Keeps.refl s) (by decide)).mgmt (by decide)
@[simp] theorem assertSlotPerst_vault (s : State) (p : Nat) : (assertSlotPerst s p).vault = s.vault := (assertSlotPerst_keeps (mk := 256) (Keeps.refl s) (by decide)).vault (by decide)
@[simp] theorem assertSlotPerst_obs (s : State) (p : Nat) : (assertSlotPerst s p).obs = s.obs := (assertSlotPerst_keeps (mk := 256) (Keeps.refl s) (by decide)).obs (by decide)
@[simp] theorem assertSlotPerst_host (s : State) (p : Nat) : (assertSlotPerst s p).host = s.host := (assertSlotPerst_keeps (mk := 256) (Keeps.refl s) (by decide)).host (by decide)
@[simp] theorem assertSlotPerst_beam (s : State) (p : Nat) : (assertSlotPerst s p).beam = s.beam := (assertSlotPerst_keeps (mk := 256) (Keeps.refl s) (by decide)).beam (by decide)

@[simp] theorem trainPort_pending (s : State) (p : Nat) : (trainPort s p).pending = s.pending := (trainPort_keeps (mk := 256) (Keeps.refl s) (by decide)).pending
@[simp] theorem trainPort_now (s : State) (p : Nat) : (trainPort s p).now = s.now := (trainPort_keeps (mk := 256) (Keeps.refl s) (by decide)).now
@[simp] theorem trainPort_ft (s : State) (p : Nat) : (trainPort s p).ft = s.ft := (trainPort_keeps (mk := 256) (Keeps.refl s) (by decide)).ft (by decide)
@[simp] theorem trainPort_cfg (s : State) (p : Nat) : (trainPort s p).cfg = s.cfg := (trainPort_keeps (mk := 256) (Keeps.refl s) (by decide)).cfg (by decide)
@[simp] theorem trainPort_flash (s : State) (p : Nat) : (trainPort s p).flash = s.flash := (trainPort_keeps (mk := 256) (Keeps.refl s) (by decide)).flash (by decide)
@[simp] theorem trainPort_module (s : State) (p : Nat) : (trainPort s p).module = s.module := (trainPort_keeps (mk := 256) (Keeps.refl s) (by decide)).module (by decide)
@[simp] theorem trainPort_power (s : State) (p : Nat) : (trainPort s p).power = s.power := (trainPort_keeps (mk := 256) (Keeps.refl s) (by decide)).power (by decide)
@[simp] theorem trainPort_gov (s : State) (p : Nat) : (trainPort s p).gov = s.gov := (trainPort_keeps (mk := 256) (Keeps.refl s) (by decide)).gov (by decide)
@[simp] theorem trainPort_lanes (s : State) (p : Nat) : (trainPort s p).lanes = s.lanes := (trainPort_keeps (mk := 256) (Keeps.refl s) (by decide)).lanes (by decide)
@[simp] theorem trainPort_weft (s : State) (p : Nat) : (trainPort s p).weft = s.weft := (trainPort_keeps (mk := 256) (Keeps.refl s) (by decide)).weft (by decide)
@[simp] theorem trainPort_loom (s : State) (p : Nat) : (trainPort s p).loom = s.loom := (trainPort_keeps (mk := 256) (Keeps.refl s) (by decide)).loom (by decide)
@[simp] theorem trainPort_fab (s : State) (p : Nat) : (trainPort s p).fab = s.fab := (trainPort_keeps (mk := 256) (Keeps.refl s) (by decide)).fab (by decide)
@[simp] theorem trainPort_shu (s : State) (p : Nat) : (trainPort s p).shu = s.shu := (trainPort_keeps (mk := 256) (Keeps.refl s) (by decide)).shu (by decide)
@[simp] theorem trainPort_win (s : State) (p : Nat) : (trainPort s p).win = s.win := (trainPort_keeps (mk := 256) (Keeps.refl s) (by decide)).win (by decide)
@[simp] theorem trainPort_eng (s : State) (p : Nat) : (trainPort s p).eng = s.eng := (trainPort_keeps (mk := 256) (Keeps.refl s) (by decide)).eng (by decide)
@[simp] theorem trainPort_hed (s : State) (p : Nat) : (trainPort s p).hed = s.hed := (trainPort_keeps (mk := 256) (Keeps.refl s) (by decide)).hed (by decide)
@[simp] theorem trainPort_sel (s : State) (p : Nat) : (trainPort s p).sel = s.sel := (trainPort_keeps (mk := 256) (Keeps.refl s) (by decide)).sel (by decide)
@[simp] theorem trainPort_twin (s : State) (p : Nat) : (trainPort s p).twin = s.twin := (trainPort_keeps (mk := 256) (Keeps.refl s) (by decide)).twin (by decide)
@[simp] theorem trainPort_dob (s : State) (p : Nat) : (trainPort s p).dob = s.dob := (trainPort_keeps (mk := 256) (Keeps.refl s) (by decide)).dob (by decide)
@[simp] theorem trainPort_mgmt (s : State) (p : Nat) : (trainPort s p).mgmt = s.mgmt := (trainPort_keeps (mk := 256) (Keeps.refl s) (by decide)).mgmt (by decide)
@[simp] theorem trainPort_vault (s : State) (p : Nat) : (trainPort s p).vault = s.vault := (trainPort_keeps (mk := 256) (Keeps.refl s) (by decide)).vault (by decide)
@[simp] theorem trainPort_obs (s : State) (p : Nat) : (trainPort s p).obs = s.obs := (trainPort_keeps (mk := 256) (Keeps.refl s) (by decide)).obs (by decide)
@[simp] theorem trainPort_host (s : State) (p : Nat) : (trainPort s p).host = s.host := (trainPort_keeps (mk := 256) (Keeps.refl s) (by decide)).host (by decide)
@[simp] theorem trainPort_beam (s : State) (p : Nat) : (trainPort s p).beam = s.beam := (trainPort_keeps (mk := 256) (Keeps.refl s) (by decide)).beam (by decide)

@[simp] theorem freeSemaphores_pending (s : State) (v : Nat) : (freeSemaphores s v).pending = s.pending := (freeSemaphores_keeps (mk := 7495680) (Keeps.refl s) (by decide)).pending
@[simp] theorem freeSemaphores_now (s : State) (v : Nat) : (freeSemaphores s v).now = s.now := (freeSemaphores_keeps (mk := 7495680) (Keeps.refl s) (by decide)).now
@[simp] theorem freeSemaphores_ft (s : State) (v : Nat) : (freeSemaphores s v).ft = s.ft := (freeSemaphores_keeps (mk := 7495680) (Keeps.refl s) (by decide)).ft (by decide)
@[simp] theorem freeSemaphores_cfg (s : State) (v : Nat) : (freeSemaphores s v).cfg = s.cfg := (freeSemaphores_keeps (mk := 7495680) (Keeps.refl s) (by decide)).cfg (by decide)
@[simp] theorem freeSemaphores_flash (s : State) (v : Nat) : (freeSemaphores s v).flash = s.flash := (freeSemaphores_keeps (mk := 7495680) (Keeps.refl s) (by decide)).flash (by decide)
@[simp] theorem freeSemaphores_module (s : State) (v : Nat) : (freeSemaphores s v).module = s.module := (freeSemaphores_keeps (mk := 7495680) (Keeps.refl s) (by decide)).module (by decide)
@[simp] theorem freeSemaphores_power (s : State) (v : Nat) : (freeSemaphores s v).power = s.power := (freeSemaphores_keeps (mk := 7495680) (Keeps.refl s) (by decide)).power (by decide)
@[simp] theorem freeSemaphores_gov (s : State) (v : Nat) : (freeSemaphores s v).gov = s.gov := (freeSemaphores_keeps (mk := 7495680) (Keeps.refl s) (by decide)).gov (by decide)
@[simp] theorem freeSemaphores_lanes (s : State) (v : Nat) : (freeSemaphores s v).lanes = s.lanes := (freeSemaphores_keeps (mk := 7495680) (Keeps.refl s) (by decide)).lanes (by decide)
@[simp] theorem freeSemaphores_weft (s : State) (v : Nat) : (freeSemaphores s v).weft = s.weft := (freeSemaphores_keeps (mk := 7495680) (Keeps.refl s) (by decide)).weft (by decide)
@[simp] theorem freeSemaphores_warp (s : State) (v : Nat) : (freeSemaphores s v).warp = s.warp := (freeSemaphores_keeps (mk := 7495680) (Keeps.refl s) (by decide)).warp (by decide)
@[simp] theorem freeSemaphores_loom (s : State) (v : Nat) : (freeSemaphores s v).loom = s.loom := (freeSemaphores_keeps (mk := 7495680) (Keeps.refl s) (by decide)).loom (by decide)
@[simp] theorem freeSemaphores_fab (s : State) (v : Nat) : (freeSemaphores s v).fab = s.fab := (freeSemaphores_keeps (mk := 7495680) (Keeps.refl s) (by decide)).fab (by decide)
@[simp] theorem freeSemaphores_shu (s : State) (v : Nat) : (freeSemaphores s v).shu = s.shu := (freeSemaphores_keeps (mk := 7495680) (Keeps.refl s) (by decide)).shu (by decide)
@[simp] theorem freeSemaphores_win (s : State) (v : Nat) : (freeSemaphores s v).win = s.win := (freeSemaphores_keeps (mk := 7495680) (Keeps.refl s) (by decide)).win (by decide)
@[simp] theorem freeSemaphores_sel (s : State) (v : Nat) : (freeSemaphores s v).sel = s.sel := (freeSemaphores_keeps (mk := 7495680) (Keeps.refl s) (by decide)).sel (by decide)
@[simp] theorem freeSemaphores_twin (s : State) (v : Nat) : (freeSemaphores s v).twin = s.twin := (freeSemaphores_keeps (mk := 7495680) (Keeps.refl s) (by decide)).twin (by decide)
@[simp] theorem freeSemaphores_mgmt (s : State) (v : Nat) : (freeSemaphores s v).mgmt = s.mgmt := (freeSemaphores_keeps (mk := 7495680) (Keeps.refl s) (by decide)).mgmt (by decide)
@[simp] theorem freeSemaphores_vault (s : State) (v : Nat) : (freeSemaphores s v).vault = s.vault := (freeSemaphores_keeps (mk := 7495680) (Keeps.refl s) (by decide)).vault (by decide)

@[simp] theorem endMailbox_pending (s : State) (v : Nat) (cause : Nat) : (endMailbox s v cause).pending = s.pending := (endMailbox_keeps (mk := 7626760) (Keeps.refl s) (by decide)).pending
@[simp] theorem endMailbox_now (s : State) (v : Nat) (cause : Nat) : (endMailbox s v cause).now = s.now := (endMailbox_keeps (mk := 7626760) (Keeps.refl s) (by decide)).now
@[simp] theorem endMailbox_ft (s : State) (v : Nat) (cause : Nat) : (endMailbox s v cause).ft = s.ft := (endMailbox_keeps (mk := 7626760) (Keeps.refl s) (by decide)).ft (by decide)
@[simp] theorem endMailbox_cfg (s : State) (v : Nat) (cause : Nat) : (endMailbox s v cause).cfg = s.cfg := (endMailbox_keeps (mk := 7626760) (Keeps.refl s) (by decide)).cfg (by decide)
@[simp] theorem endMailbox_flash (s : State) (v : Nat) (cause : Nat) : (endMailbox s v cause).flash = s.flash := (endMailbox_keeps (mk := 7626760) (Keeps.refl s) (by decide)).flash (by decide)
@[simp] theorem endMailbox_power (s : State) (v : Nat) (cause : Nat) : (endMailbox s v cause).power = s.power := (endMailbox_keeps (mk := 7626760) (Keeps.refl s) (by decide)).power (by decide)
@[simp] theorem endMailbox_gov (s : State) (v : Nat) (cause : Nat) : (endMailbox s v cause).gov = s.gov := (endMailbox_keeps (mk := 7626760) (Keeps.refl s) (by decide)).gov (by decide)
@[simp] theorem endMailbox_lanes (s : State) (v : Nat) (cause : Nat) : (endMailbox s v cause).lanes = s.lanes := (endMailbox_keeps (mk := 7626760) (Keeps.refl s) (by decide)).lanes (by decide)
@[simp] theorem endMailbox_weft (s : State) (v : Nat) (cause : Nat) : (endMailbox s v cause).weft = s.weft := (endMailbox_keeps (mk := 7626760) (Keeps.refl s) (by decide)).weft (by decide)
@[simp] theorem endMailbox_warp (s : State) (v : Nat) (cause : Nat) : (endMailbox s v cause).warp = s.warp := (endMailbox_keeps (mk := 7626760) (Keeps.refl s) (by decide)).warp (by decide)
@[simp] theorem endMailbox_loom (s : State) (v : Nat) (cause : Nat) : (endMailbox s v cause).loom = s.loom := (endMailbox_keeps (mk := 7626760) (Keeps.refl s) (by decide)).loom (by decide)
@[simp] theorem endMailbox_fab (s : State) (v : Nat) (cause : Nat) : (endMailbox s v cause).fab = s.fab := (endMailbox_keeps (mk := 7626760) (Keeps.refl s) (by decide)).fab (by decide)
@[simp] theorem endMailbox_shu (s : State) (v : Nat) (cause : Nat) : (endMailbox s v cause).shu = s.shu := (endMailbox_keeps (mk := 7626760) (Keeps.refl s) (by decide)).shu (by decide)
@[simp] theorem endMailbox_win (s : State) (v : Nat) (cause : Nat) : (endMailbox s v cause).win = s.win := (endMailbox_keeps (mk := 7626760) (Keeps.refl s) (by decide)).win (by decide)
@[simp] theorem endMailbox_sel (s : State) (v : Nat) (cause : Nat) : (endMailbox s v cause).sel = s.sel := (endMailbox_keeps (mk := 7626760) (Keeps.refl s) (by decide)).sel (by decide)
@[simp] theorem endMailbox_twin (s : State) (v : Nat) (cause : Nat) : (endMailbox s v cause).twin = s.twin := (endMailbox_keeps (mk := 7626760) (Keeps.refl s) (by decide)).twin (by decide)
@[simp] theorem endMailbox_dob (s : State) (v : Nat) (cause : Nat) : (endMailbox s v cause).dob = s.dob := (endMailbox_keeps (mk := 7626760) (Keeps.refl s) (by decide)).dob (by decide)
@[simp] theorem endMailbox_vault (s : State) (v : Nat) (cause : Nat) : (endMailbox s v cause).vault = s.vault := (endMailbox_keeps (mk := 7626760) (Keeps.refl s) (by decide)).vault (by decide)

@[simp] theorem vfDisable_pending (v : Nat) (s : State) : (vfDisable v s).pending = s.pending := (vfDisable_keeps (mk := 3432704) (Keeps.refl s) (by decide)).pending
@[simp] theorem vfDisable_now (v : Nat) (s : State) : (vfDisable v s).now = s.now := (vfDisable_keeps (mk := 3432704) (Keeps.refl s) (by decide)).now
@[simp] theorem vfDisable_ft (v : Nat) (s : State) : (vfDisable v s).ft = s.ft := (vfDisable_keeps (mk := 3432704) (Keeps.refl s) (by decide)).ft (by decide)
@[simp] theorem vfDisable_cfg (v : Nat) (s : State) : (vfDisable v s).cfg = s.cfg := (vfDisable_keeps (mk := 3432704) (Keeps.refl s) (by decide)).cfg (by decide)
@[simp] theorem vfDisable_flash (v : Nat) (s : State) : (vfDisable v s).flash = s.flash := (vfDisable_keeps (mk := 3432704) (Keeps.refl s) (by decide)).flash (by decide)
@[simp] theorem vfDisable_module (v : Nat) (s : State) : (vfDisable v s).module = s.module := (vfDisable_keeps (mk := 3432704) (Keeps.refl s) (by decide)).module (by decide)
@[simp] theorem vfDisable_power (v : Nat) (s : State) : (vfDisable v s).power = s.power := (vfDisable_keeps (mk := 3432704) (Keeps.refl s) (by decide)).power (by decide)
@[simp] theorem vfDisable_gov (v : Nat) (s : State) : (vfDisable v s).gov = s.gov := (vfDisable_keeps (mk := 3432704) (Keeps.refl s) (by decide)).gov (by decide)
@[simp] theorem vfDisable_lanes (v : Nat) (s : State) : (vfDisable v s).lanes = s.lanes := (vfDisable_keeps (mk := 3432704) (Keeps.refl s) (by decide)).lanes (by decide)
@[simp] theorem vfDisable_weft (v : Nat) (s : State) : (vfDisable v s).weft = s.weft := (vfDisable_keeps (mk := 3432704) (Keeps.refl s) (by decide)).weft (by decide)
@[simp] theorem vfDisable_loom (v : Nat) (s : State) : (vfDisable v s).loom = s.loom := (vfDisable_keeps (mk := 3432704) (Keeps.refl s) (by decide)).loom (by decide)
@[simp] theorem vfDisable_fab (v : Nat) (s : State) : (vfDisable v s).fab = s.fab := (vfDisable_keeps (mk := 3432704) (Keeps.refl s) (by decide)).fab (by decide)
@[simp] theorem vfDisable_shu (v : Nat) (s : State) : (vfDisable v s).shu = s.shu := (vfDisable_keeps (mk := 3432704) (Keeps.refl s) (by decide)).shu (by decide)
@[simp] theorem vfDisable_win (v : Nat) (s : State) : (vfDisable v s).win = s.win := (vfDisable_keeps (mk := 3432704) (Keeps.refl s) (by decide)).win (by decide)
@[simp] theorem vfDisable_sel (v : Nat) (s : State) : (vfDisable v s).sel = s.sel := (vfDisable_keeps (mk := 3432704) (Keeps.refl s) (by decide)).sel (by decide)
@[simp] theorem vfDisable_twin (v : Nat) (s : State) : (vfDisable v s).twin = s.twin := (vfDisable_keeps (mk := 3432704) (Keeps.refl s) (by decide)).twin (by decide)
@[simp] theorem vfDisable_dob (v : Nat) (s : State) : (vfDisable v s).dob = s.dob := (vfDisable_keeps (mk := 3432704) (Keeps.refl s) (by decide)).dob (by decide)
@[simp] theorem vfDisable_vault (v : Nat) (s : State) : (vfDisable v s).vault = s.vault := (vfDisable_keeps (mk := 3432704) (Keeps.refl s) (by decide)).vault (by decide)
@[simp] theorem vfDisable_beam (v : Nat) (s : State) : (vfDisable v s).beam = s.beam := (vfDisable_keeps (mk := 3432704) (Keeps.refl s) (by decide)).beam (by decide)

@[simp] theorem resetWindows_pending (s : State) (v : Nat) : (resetWindows s v).pending = s.pending := (resetWindows_keeps (mk := 7368704) (Keeps.refl s) (by decide)).pending
@[simp] theorem resetWindows_now (s : State) (v : Nat) : (resetWindows s v).now = s.now := (resetWindows_keeps (mk := 7368704) (Keeps.refl s) (by decide)).now
@[simp] theorem resetWindows_ft (s : State) (v : Nat) : (resetWindows s v).ft = s.ft := (resetWindows_keeps (mk := 7368704) (Keeps.refl s) (by decide)).ft (by decide)
@[simp] theorem resetWindows_cfg (s : State) (v : Nat) : (resetWindows s v).cfg = s.cfg := (resetWindows_keeps (mk := 7368704) (Keeps.refl s) (by decide)).cfg (by decide)
@[simp] theorem resetWindows_flash (s : State) (v : Nat) : (resetWindows s v).flash = s.flash := (resetWindows_keeps (mk := 7368704) (Keeps.refl s) (by decide)).flash (by decide)
@[simp] theorem resetWindows_module (s : State) (v : Nat) : (resetWindows s v).module = s.module := (resetWindows_keeps (mk := 7368704) (Keeps.refl s) (by decide)).module (by decide)
@[simp] theorem resetWindows_power (s : State) (v : Nat) : (resetWindows s v).power = s.power := (resetWindows_keeps (mk := 7368704) (Keeps.refl s) (by decide)).power (by decide)
@[simp] theorem resetWindows_gov (s : State) (v : Nat) : (resetWindows s v).gov = s.gov := (resetWindows_keeps (mk := 7368704) (Keeps.refl s) (by decide)).gov (by decide)
@[simp] theorem resetWindows_lanes (s : State) (v : Nat) : (resetWindows s v).lanes = s.lanes := (resetWindows_keeps (mk := 7368704) (Keeps.refl s) (by decide)).lanes (by decide)
@[simp] theorem resetWindows_weft (s : State) (v : Nat) : (resetWindows s v).weft = s.weft := (resetWindows_keeps (mk := 7368704) (Keeps.refl s) (by decide)).weft (by decide)
@[simp] theorem resetWindows_warp (s : State) (v : Nat) : (resetWindows s v).warp = s.warp := (resetWindows_keeps (mk := 7368704) (Keeps.refl s) (by decide)).warp (by decide)
@[simp] theorem resetWindows_loom (s : State) (v : Nat) : (resetWindows s v).loom = s.loom := (resetWindows_keeps (mk := 7368704) (Keeps.refl s) (by decide)).loom (by decide)
@[simp] theorem resetWindows_fab (s : State) (v : Nat) : (resetWindows s v).fab = s.fab := (resetWindows_keeps (mk := 7368704) (Keeps.refl s) (by decide)).fab (by decide)
@[simp] theorem resetWindows_shu (s : State) (v : Nat) : (resetWindows s v).shu = s.shu := (resetWindows_keeps (mk := 7368704) (Keeps.refl s) (by decide)).shu (by decide)
@[simp] theorem resetWindows_sel (s : State) (v : Nat) : (resetWindows s v).sel = s.sel := (resetWindows_keeps (mk := 7368704) (Keeps.refl s) (by decide)).sel (by decide)
@[simp] theorem resetWindows_twin (s : State) (v : Nat) : (resetWindows s v).twin = s.twin := (resetWindows_keeps (mk := 7368704) (Keeps.refl s) (by decide)).twin (by decide)
@[simp] theorem resetWindows_dob (s : State) (v : Nat) : (resetWindows s v).dob = s.dob := (resetWindows_keeps (mk := 7368704) (Keeps.refl s) (by decide)).dob (by decide)
@[simp] theorem resetWindows_mgmt (s : State) (v : Nat) : (resetWindows s v).mgmt = s.mgmt := (resetWindows_keeps (mk := 7368704) (Keeps.refl s) (by decide)).mgmt (by decide)
@[simp] theorem resetWindows_vault (s : State) (v : Nat) : (resetWindows s v).vault = s.vault := (resetWindows_keeps (mk := 7368704) (Keeps.refl s) (by decide)).vault (by decide)

@[simp] theorem spoolDisarm_pending (s : State) (v : Nat) : (spoolDisarm s v).pending = s.pending := (spoolDisarm_keeps (mk := 7364608) (Keeps.refl s) (by decide)).pending
@[simp] theorem spoolDisarm_now (s : State) (v : Nat) : (spoolDisarm s v).now = s.now := (spoolDisarm_keeps (mk := 7364608) (Keeps.refl s) (by decide)).now
@[simp] theorem spoolDisarm_ft (s : State) (v : Nat) : (spoolDisarm s v).ft = s.ft := (spoolDisarm_keeps (mk := 7364608) (Keeps.refl s) (by decide)).ft (by decide)
@[simp] theorem spoolDisarm_cfg (s : State) (v : Nat) : (spoolDisarm s v).cfg = s.cfg := (spoolDisarm_keeps (mk := 7364608) (Keeps.refl s) (by decide)).cfg (by decide)
@[simp] theorem spoolDisarm_flash (s : State) (v : Nat) : (spoolDisarm s v).flash = s.flash := (spoolDisarm_keeps (mk := 7364608) (Keeps.refl s) (by decide)).flash (by decide)
@[simp] theorem spoolDisarm_module (s : State) (v : Nat) : (spoolDisarm s v).module = s.module := (spoolDisarm_keeps (mk := 7364608) (Keeps.refl s) (by decide)).module (by decide)
@[simp] theorem spoolDisarm_power (s : State) (v : Nat) : (spoolDisarm s v).power = s.power := (spoolDisarm_keeps (mk := 7364608) (Keeps.refl s) (by decide)).power (by decide)
@[simp] theorem spoolDisarm_gov (s : State) (v : Nat) : (spoolDisarm s v).gov = s.gov := (spoolDisarm_keeps (mk := 7364608) (Keeps.refl s) (by decide)).gov (by decide)
@[simp] theorem spoolDisarm_lanes (s : State) (v : Nat) : (spoolDisarm s v).lanes = s.lanes := (spoolDisarm_keeps (mk := 7364608) (Keeps.refl s) (by decide)).lanes (by decide)
@[simp] theorem spoolDisarm_weft (s : State) (v : Nat) : (spoolDisarm s v).weft = s.weft := (spoolDisarm_keeps (mk := 7364608) (Keeps.refl s) (by decide)).weft (by decide)
@[simp] theorem spoolDisarm_warp (s : State) (v : Nat) : (spoolDisarm s v).warp = s.warp := (spoolDisarm_keeps (mk := 7364608) (Keeps.refl s) (by decide)).warp (by decide)
@[simp] theorem spoolDisarm_loom (s : State) (v : Nat) : (spoolDisarm s v).loom = s.loom := (spoolDisarm_keeps (mk := 7364608) (Keeps.refl s) (by decide)).loom (by decide)
@[simp] theorem spoolDisarm_fab (s : State) (v : Nat) : (spoolDisarm s v).fab = s.fab := (spoolDisarm_keeps (mk := 7364608) (Keeps.refl s) (by decide)).fab (by decide)
@[simp] theorem spoolDisarm_shu (s : State) (v : Nat) : (spoolDisarm s v).shu = s.shu := (spoolDisarm_keeps (mk := 7364608) (Keeps.refl s) (by decide)).shu (by decide)
@[simp] theorem spoolDisarm_win (s : State) (v : Nat) : (spoolDisarm s v).win = s.win := (spoolDisarm_keeps (mk := 7364608) (Keeps.refl s) (by decide)).win (by decide)
@[simp] theorem spoolDisarm_sel (s : State) (v : Nat) : (spoolDisarm s v).sel = s.sel := (spoolDisarm_keeps (mk := 7364608) (Keeps.refl s) (by decide)).sel (by decide)
@[simp] theorem spoolDisarm_twin (s : State) (v : Nat) : (spoolDisarm s v).twin = s.twin := (spoolDisarm_keeps (mk := 7364608) (Keeps.refl s) (by decide)).twin (by decide)
@[simp] theorem spoolDisarm_dob (s : State) (v : Nat) : (spoolDisarm s v).dob = s.dob := (spoolDisarm_keeps (mk := 7364608) (Keeps.refl s) (by decide)).dob (by decide)
@[simp] theorem spoolDisarm_mgmt (s : State) (v : Nat) : (spoolDisarm s v).mgmt = s.mgmt := (spoolDisarm_keeps (mk := 7364608) (Keeps.refl s) (by decide)).mgmt (by decide)
@[simp] theorem spoolDisarm_vault (s : State) (v : Nat) : (spoolDisarm s v).vault = s.vault := (spoolDisarm_keeps (mk := 7364608) (Keeps.refl s) (by decide)).vault (by decide)

@[simp] theorem dropProxies_pending (s : State) (v : Nat) : (dropProxies s v).pending = s.pending := (dropProxies_keeps (mk := 256) (Keeps.refl s) (by decide)).pending
@[simp] theorem dropProxies_now (s : State) (v : Nat) : (dropProxies s v).now = s.now := (dropProxies_keeps (mk := 256) (Keeps.refl s) (by decide)).now
@[simp] theorem dropProxies_ft (s : State) (v : Nat) : (dropProxies s v).ft = s.ft := (dropProxies_keeps (mk := 256) (Keeps.refl s) (by decide)).ft (by decide)
@[simp] theorem dropProxies_cfg (s : State) (v : Nat) : (dropProxies s v).cfg = s.cfg := (dropProxies_keeps (mk := 256) (Keeps.refl s) (by decide)).cfg (by decide)
@[simp] theorem dropProxies_flash (s : State) (v : Nat) : (dropProxies s v).flash = s.flash := (dropProxies_keeps (mk := 256) (Keeps.refl s) (by decide)).flash (by decide)
@[simp] theorem dropProxies_module (s : State) (v : Nat) : (dropProxies s v).module = s.module := (dropProxies_keeps (mk := 256) (Keeps.refl s) (by decide)).module (by decide)
@[simp] theorem dropProxies_power (s : State) (v : Nat) : (dropProxies s v).power = s.power := (dropProxies_keeps (mk := 256) (Keeps.refl s) (by decide)).power (by decide)
@[simp] theorem dropProxies_gov (s : State) (v : Nat) : (dropProxies s v).gov = s.gov := (dropProxies_keeps (mk := 256) (Keeps.refl s) (by decide)).gov (by decide)
@[simp] theorem dropProxies_lanes (s : State) (v : Nat) : (dropProxies s v).lanes = s.lanes := (dropProxies_keeps (mk := 256) (Keeps.refl s) (by decide)).lanes (by decide)
@[simp] theorem dropProxies_weft (s : State) (v : Nat) : (dropProxies s v).weft = s.weft := (dropProxies_keeps (mk := 256) (Keeps.refl s) (by decide)).weft (by decide)
@[simp] theorem dropProxies_loom (s : State) (v : Nat) : (dropProxies s v).loom = s.loom := (dropProxies_keeps (mk := 256) (Keeps.refl s) (by decide)).loom (by decide)
@[simp] theorem dropProxies_fab (s : State) (v : Nat) : (dropProxies s v).fab = s.fab := (dropProxies_keeps (mk := 256) (Keeps.refl s) (by decide)).fab (by decide)
@[simp] theorem dropProxies_shu (s : State) (v : Nat) : (dropProxies s v).shu = s.shu := (dropProxies_keeps (mk := 256) (Keeps.refl s) (by decide)).shu (by decide)
@[simp] theorem dropProxies_win (s : State) (v : Nat) : (dropProxies s v).win = s.win := (dropProxies_keeps (mk := 256) (Keeps.refl s) (by decide)).win (by decide)
@[simp] theorem dropProxies_eng (s : State) (v : Nat) : (dropProxies s v).eng = s.eng := (dropProxies_keeps (mk := 256) (Keeps.refl s) (by decide)).eng (by decide)
@[simp] theorem dropProxies_hed (s : State) (v : Nat) : (dropProxies s v).hed = s.hed := (dropProxies_keeps (mk := 256) (Keeps.refl s) (by decide)).hed (by decide)
@[simp] theorem dropProxies_sel (s : State) (v : Nat) : (dropProxies s v).sel = s.sel := (dropProxies_keeps (mk := 256) (Keeps.refl s) (by decide)).sel (by decide)
@[simp] theorem dropProxies_twin (s : State) (v : Nat) : (dropProxies s v).twin = s.twin := (dropProxies_keeps (mk := 256) (Keeps.refl s) (by decide)).twin (by decide)
@[simp] theorem dropProxies_dob (s : State) (v : Nat) : (dropProxies s v).dob = s.dob := (dropProxies_keeps (mk := 256) (Keeps.refl s) (by decide)).dob (by decide)
@[simp] theorem dropProxies_mgmt (s : State) (v : Nat) : (dropProxies s v).mgmt = s.mgmt := (dropProxies_keeps (mk := 256) (Keeps.refl s) (by decide)).mgmt (by decide)
@[simp] theorem dropProxies_vault (s : State) (v : Nat) : (dropProxies s v).vault = s.vault := (dropProxies_keeps (mk := 256) (Keeps.refl s) (by decide)).vault (by decide)
@[simp] theorem dropProxies_obs (s : State) (v : Nat) : (dropProxies s v).obs = s.obs := (dropProxies_keeps (mk := 256) (Keeps.refl s) (by decide)).obs (by decide)
@[simp] theorem dropProxies_host (s : State) (v : Nat) : (dropProxies s v).host = s.host := (dropProxies_keeps (mk := 256) (Keeps.refl s) (by decide)).host (by decide)
@[simp] theorem dropProxies_beam (s : State) (v : Nat) : (dropProxies s v).beam = s.beam := (dropProxies_keeps (mk := 256) (Keeps.refl s) (by decide)).beam (by decide)

@[simp] theorem warpLinkGone_pending (s : State) (p : Nat) (cause : Nat) : (warpLinkGone s p cause).pending = s.pending := (warpLinkGone_keeps (mk := 7889152) (Keeps.refl s) (by decide)).pending
@[simp] theorem warpLinkGone_now (s : State) (p : Nat) (cause : Nat) : (warpLinkGone s p cause).now = s.now := (warpLinkGone_keeps (mk := 7889152) (Keeps.refl s) (by decide)).now
@[simp] theorem warpLinkGone_ft (s : State) (p : Nat) (cause : Nat) : (warpLinkGone s p cause).ft = s.ft := (warpLinkGone_keeps (mk := 7889152) (Keeps.refl s) (by decide)).ft (by decide)
@[simp] theorem warpLinkGone_cfg (s : State) (p : Nat) (cause : Nat) : (warpLinkGone s p cause).cfg = s.cfg := (warpLinkGone_keeps (mk := 7889152) (Keeps.refl s) (by decide)).cfg (by decide)
@[simp] theorem warpLinkGone_flash (s : State) (p : Nat) (cause : Nat) : (warpLinkGone s p cause).flash = s.flash := (warpLinkGone_keeps (mk := 7889152) (Keeps.refl s) (by decide)).flash (by decide)
@[simp] theorem warpLinkGone_module (s : State) (p : Nat) (cause : Nat) : (warpLinkGone s p cause).module = s.module := (warpLinkGone_keeps (mk := 7889152) (Keeps.refl s) (by decide)).module (by decide)
@[simp] theorem warpLinkGone_power (s : State) (p : Nat) (cause : Nat) : (warpLinkGone s p cause).power = s.power := (warpLinkGone_keeps (mk := 7889152) (Keeps.refl s) (by decide)).power (by decide)
@[simp] theorem warpLinkGone_gov (s : State) (p : Nat) (cause : Nat) : (warpLinkGone s p cause).gov = s.gov := (warpLinkGone_keeps (mk := 7889152) (Keeps.refl s) (by decide)).gov (by decide)
@[simp] theorem warpLinkGone_lanes (s : State) (p : Nat) (cause : Nat) : (warpLinkGone s p cause).lanes = s.lanes := (warpLinkGone_keeps (mk := 7889152) (Keeps.refl s) (by decide)).lanes (by decide)
@[simp] theorem warpLinkGone_weft (s : State) (p : Nat) (cause : Nat) : (warpLinkGone s p cause).weft = s.weft := (warpLinkGone_keeps (mk := 7889152) (Keeps.refl s) (by decide)).weft (by decide)
@[simp] theorem warpLinkGone_loom (s : State) (p : Nat) (cause : Nat) : (warpLinkGone s p cause).loom = s.loom := (warpLinkGone_keeps (mk := 7889152) (Keeps.refl s) (by decide)).loom (by decide)
@[simp] theorem warpLinkGone_fab (s : State) (p : Nat) (cause : Nat) : (warpLinkGone s p cause).fab = s.fab := (warpLinkGone_keeps (mk := 7889152) (Keeps.refl s) (by decide)).fab (by decide)
@[simp] theorem warpLinkGone_shu (s : State) (p : Nat) (cause : Nat) : (warpLinkGone s p cause).shu = s.shu := (warpLinkGone_keeps (mk := 7889152) (Keeps.refl s) (by decide)).shu (by decide)
@[simp] theorem warpLinkGone_win (s : State) (p : Nat) (cause : Nat) : (warpLinkGone s p cause).win = s.win := (warpLinkGone_keeps (mk := 7889152) (Keeps.refl s) (by decide)).win (by decide)
@[simp] theorem warpLinkGone_sel (s : State) (p : Nat) (cause : Nat) : (warpLinkGone s p cause).sel = s.sel := (warpLinkGone_keeps (mk := 7889152) (Keeps.refl s) (by decide)).sel (by decide)
@[simp] theorem warpLinkGone_twin (s : State) (p : Nat) (cause : Nat) : (warpLinkGone s p cause).twin = s.twin := (warpLinkGone_keeps (mk := 7889152) (Keeps.refl s) (by decide)).twin (by decide)
@[simp] theorem warpLinkGone_dob (s : State) (p : Nat) (cause : Nat) : (warpLinkGone s p cause).dob = s.dob := (warpLinkGone_keeps (mk := 7889152) (Keeps.refl s) (by decide)).dob (by decide)
@[simp] theorem warpLinkGone_mgmt (s : State) (p : Nat) (cause : Nat) : (warpLinkGone s p cause).mgmt = s.mgmt := (warpLinkGone_keeps (mk := 7889152) (Keeps.refl s) (by decide)).mgmt (by decide)

@[simp] theorem twinGoneNow_pending (s : State) : (twinGoneNow s).pending = s.pending := (twinGoneNow_keeps (mk := 7437184) (Keeps.refl s) (by decide)).pending
@[simp] theorem twinGoneNow_now (s : State) : (twinGoneNow s).now = s.now := (twinGoneNow_keeps (mk := 7437184) (Keeps.refl s) (by decide)).now
@[simp] theorem twinGoneNow_ft (s : State) : (twinGoneNow s).ft = s.ft := (twinGoneNow_keeps (mk := 7437184) (Keeps.refl s) (by decide)).ft (by decide)
@[simp] theorem twinGoneNow_cfg (s : State) : (twinGoneNow s).cfg = s.cfg := (twinGoneNow_keeps (mk := 7437184) (Keeps.refl s) (by decide)).cfg (by decide)
@[simp] theorem twinGoneNow_flash (s : State) : (twinGoneNow s).flash = s.flash := (twinGoneNow_keeps (mk := 7437184) (Keeps.refl s) (by decide)).flash (by decide)
@[simp] theorem twinGoneNow_module (s : State) : (twinGoneNow s).module = s.module := (twinGoneNow_keeps (mk := 7437184) (Keeps.refl s) (by decide)).module (by decide)
@[simp] theorem twinGoneNow_power (s : State) : (twinGoneNow s).power = s.power := (twinGoneNow_keeps (mk := 7437184) (Keeps.refl s) (by decide)).power (by decide)
@[simp] theorem twinGoneNow_gov (s : State) : (twinGoneNow s).gov = s.gov := (twinGoneNow_keeps (mk := 7437184) (Keeps.refl s) (by decide)).gov (by decide)
@[simp] theorem twinGoneNow_lanes (s : State) : (twinGoneNow s).lanes = s.lanes := (twinGoneNow_keeps (mk := 7437184) (Keeps.refl s) (by decide)).lanes (by decide)
@[simp] theorem twinGoneNow_fab (s : State) : (twinGoneNow s).fab = s.fab := (twinGoneNow_keeps (mk := 7437184) (Keeps.refl s) (by decide)).fab (by decide)
@[simp] theorem twinGoneNow_sel (s : State) : (twinGoneNow s).sel = s.sel := (twinGoneNow_keeps (mk := 7437184) (Keeps.refl s) (by decide)).sel (by decide)
@[simp] theorem twinGoneNow_dob (s : State) : (twinGoneNow s).dob = s.dob := (twinGoneNow_keeps (mk := 7437184) (Keeps.refl s) (by decide)).dob (by decide)
@[simp] theorem twinGoneNow_mgmt (s : State) : (twinGoneNow s).mgmt = s.mgmt := (twinGoneNow_keeps (mk := 7437184) (Keeps.refl s) (by decide)).mgmt (by decide)
@[simp] theorem twinGoneNow_vault (s : State) : (twinGoneNow s).vault = s.vault := (twinGoneNow_keeps (mk := 7437184) (Keeps.refl s) (by decide)).vault (by decide)

@[simp] theorem poolChanged_pending (s : State) : (poolChanged s).pending = s.pending := (poolChanged_keeps (mk := 7365120) (Keeps.refl s) (by decide)).pending
@[simp] theorem poolChanged_now (s : State) : (poolChanged s).now = s.now := (poolChanged_keeps (mk := 7365120) (Keeps.refl s) (by decide)).now
@[simp] theorem poolChanged_ft (s : State) : (poolChanged s).ft = s.ft := (poolChanged_keeps (mk := 7365120) (Keeps.refl s) (by decide)).ft (by decide)
@[simp] theorem poolChanged_cfg (s : State) : (poolChanged s).cfg = s.cfg := (poolChanged_keeps (mk := 7365120) (Keeps.refl s) (by decide)).cfg (by decide)
@[simp] theorem poolChanged_flash (s : State) : (poolChanged s).flash = s.flash := (poolChanged_keeps (mk := 7365120) (Keeps.refl s) (by decide)).flash (by decide)
@[simp] theorem poolChanged_module (s : State) : (poolChanged s).module = s.module := (poolChanged_keeps (mk := 7365120) (Keeps.refl s) (by decide)).module (by decide)
@[simp] theorem poolChanged_power (s : State) : (poolChanged s).power = s.power := (poolChanged_keeps (mk := 7365120) (Keeps.refl s) (by decide)).power (by decide)
@[simp] theorem poolChanged_gov (s : State) : (poolChanged s).gov = s.gov := (poolChanged_keeps (mk := 7365120) (Keeps.refl s) (by decide)).gov (by decide)
@[simp] theorem poolChanged_lanes (s : State) : (poolChanged s).lanes = s.lanes := (poolChanged_keeps (mk := 7365120) (Keeps.refl s) (by decide)).lanes (by decide)
@[simp] theorem poolChanged_weft (s : State) : (poolChanged s).weft = s.weft := (poolChanged_keeps (mk := 7365120) (Keeps.refl s) (by decide)).weft (by decide)
@[simp] theorem poolChanged_warp (s : State) : (poolChanged s).warp = s.warp := (poolChanged_keeps (mk := 7365120) (Keeps.refl s) (by decide)).warp (by decide)
@[simp] theorem poolChanged_fab (s : State) : (poolChanged s).fab = s.fab := (poolChanged_keeps (mk := 7365120) (Keeps.refl s) (by decide)).fab (by decide)
@[simp] theorem poolChanged_shu (s : State) : (poolChanged s).shu = s.shu := (poolChanged_keeps (mk := 7365120) (Keeps.refl s) (by decide)).shu (by decide)
@[simp] theorem poolChanged_win (s : State) : (poolChanged s).win = s.win := (poolChanged_keeps (mk := 7365120) (Keeps.refl s) (by decide)).win (by decide)
@[simp] theorem poolChanged_sel (s : State) : (poolChanged s).sel = s.sel := (poolChanged_keeps (mk := 7365120) (Keeps.refl s) (by decide)).sel (by decide)
@[simp] theorem poolChanged_twin (s : State) : (poolChanged s).twin = s.twin := (poolChanged_keeps (mk := 7365120) (Keeps.refl s) (by decide)).twin (by decide)
@[simp] theorem poolChanged_dob (s : State) : (poolChanged s).dob = s.dob := (poolChanged_keeps (mk := 7365120) (Keeps.refl s) (by decide)).dob (by decide)
@[simp] theorem poolChanged_mgmt (s : State) : (poolChanged s).mgmt = s.mgmt := (poolChanged_keeps (mk := 7365120) (Keeps.refl s) (by decide)).mgmt (by decide)
@[simp] theorem poolChanged_vault (s : State) : (poolChanged s).vault = s.vault := (poolChanged_keeps (mk := 7365120) (Keeps.refl s) (by decide)).vault (by decide)

@[simp] theorem weftRelease_pending (s : State) (p : Nat) (tc : Nat) (slots : Nat) : (weftRelease s p tc slots).pending = s.pending := (weftRelease_keeps (mk := 128) (Keeps.refl s) (by decide)).pending
@[simp] theorem weftRelease_now (s : State) (p : Nat) (tc : Nat) (slots : Nat) : (weftRelease s p tc slots).now = s.now := (weftRelease_keeps (mk := 128) (Keeps.refl s) (by decide)).now
@[simp] theorem weftRelease_ft (s : State) (p : Nat) (tc : Nat) (slots : Nat) : (weftRelease s p tc slots).ft = s.ft := (weftRelease_keeps (mk := 128) (Keeps.refl s) (by decide)).ft (by decide)
@[simp] theorem weftRelease_cfg (s : State) (p : Nat) (tc : Nat) (slots : Nat) : (weftRelease s p tc slots).cfg = s.cfg := (weftRelease_keeps (mk := 128) (Keeps.refl s) (by decide)).cfg (by decide)
@[simp] theorem weftRelease_flash (s : State) (p : Nat) (tc : Nat) (slots : Nat) : (weftRelease s p tc slots).flash = s.flash := (weftRelease_keeps (mk := 128) (Keeps.refl s) (by decide)).flash (by decide)
@[simp] theorem weftRelease_module (s : State) (p : Nat) (tc : Nat) (slots : Nat) : (weftRelease s p tc slots).module = s.module := (weftRelease_keeps (mk := 128) (Keeps.refl s) (by decide)).module (by decide)
@[simp] theorem weftRelease_power (s : State) (p : Nat) (tc : Nat) (slots : Nat) : (weftRelease s p tc slots).power = s.power := (weftRelease_keeps (mk := 128) (Keeps.refl s) (by decide)).power (by decide)
@[simp] theorem weftRelease_gov (s : State) (p : Nat) (tc : Nat) (slots : Nat) : (weftRelease s p tc slots).gov = s.gov := (weftRelease_keeps (mk := 128) (Keeps.refl s) (by decide)).gov (by decide)
@[simp] theorem weftRelease_lanes (s : State) (p : Nat) (tc : Nat) (slots : Nat) : (weftRelease s p tc slots).lanes = s.lanes := (weftRelease_keeps (mk := 128) (Keeps.refl s) (by decide)).lanes (by decide)
@[simp] theorem weftRelease_warp (s : State) (p : Nat) (tc : Nat) (slots : Nat) : (weftRelease s p tc slots).warp = s.warp := (weftRelease_keeps (mk := 128) (Keeps.refl s) (by decide)).warp (by decide)
@[simp] theorem weftRelease_loom (s : State) (p : Nat) (tc : Nat) (slots : Nat) : (weftRelease s p tc slots).loom = s.loom := (weftRelease_keeps (mk := 128) (Keeps.refl s) (by decide)).loom (by decide)
@[simp] theorem weftRelease_fab (s : State) (p : Nat) (tc : Nat) (slots : Nat) : (weftRelease s p tc slots).fab = s.fab := (weftRelease_keeps (mk := 128) (Keeps.refl s) (by decide)).fab (by decide)
@[simp] theorem weftRelease_shu (s : State) (p : Nat) (tc : Nat) (slots : Nat) : (weftRelease s p tc slots).shu = s.shu := (weftRelease_keeps (mk := 128) (Keeps.refl s) (by decide)).shu (by decide)
@[simp] theorem weftRelease_win (s : State) (p : Nat) (tc : Nat) (slots : Nat) : (weftRelease s p tc slots).win = s.win := (weftRelease_keeps (mk := 128) (Keeps.refl s) (by decide)).win (by decide)
@[simp] theorem weftRelease_eng (s : State) (p : Nat) (tc : Nat) (slots : Nat) : (weftRelease s p tc slots).eng = s.eng := (weftRelease_keeps (mk := 128) (Keeps.refl s) (by decide)).eng (by decide)
@[simp] theorem weftRelease_hed (s : State) (p : Nat) (tc : Nat) (slots : Nat) : (weftRelease s p tc slots).hed = s.hed := (weftRelease_keeps (mk := 128) (Keeps.refl s) (by decide)).hed (by decide)
@[simp] theorem weftRelease_sel (s : State) (p : Nat) (tc : Nat) (slots : Nat) : (weftRelease s p tc slots).sel = s.sel := (weftRelease_keeps (mk := 128) (Keeps.refl s) (by decide)).sel (by decide)
@[simp] theorem weftRelease_twin (s : State) (p : Nat) (tc : Nat) (slots : Nat) : (weftRelease s p tc slots).twin = s.twin := (weftRelease_keeps (mk := 128) (Keeps.refl s) (by decide)).twin (by decide)
@[simp] theorem weftRelease_dob (s : State) (p : Nat) (tc : Nat) (slots : Nat) : (weftRelease s p tc slots).dob = s.dob := (weftRelease_keeps (mk := 128) (Keeps.refl s) (by decide)).dob (by decide)
@[simp] theorem weftRelease_mgmt (s : State) (p : Nat) (tc : Nat) (slots : Nat) : (weftRelease s p tc slots).mgmt = s.mgmt := (weftRelease_keeps (mk := 128) (Keeps.refl s) (by decide)).mgmt (by decide)
@[simp] theorem weftRelease_vault (s : State) (p : Nat) (tc : Nat) (slots : Nat) : (weftRelease s p tc slots).vault = s.vault := (weftRelease_keeps (mk := 128) (Keeps.refl s) (by decide)).vault (by decide)
@[simp] theorem weftRelease_obs (s : State) (p : Nat) (tc : Nat) (slots : Nat) : (weftRelease s p tc slots).obs = s.obs := (weftRelease_keeps (mk := 128) (Keeps.refl s) (by decide)).obs (by decide)
@[simp] theorem weftRelease_host (s : State) (p : Nat) (tc : Nat) (slots : Nat) : (weftRelease s p tc slots).host = s.host := (weftRelease_keeps (mk := 128) (Keeps.refl s) (by decide)).host (by decide)
@[simp] theorem weftRelease_beam (s : State) (p : Nat) (tc : Nat) (slots : Nat) : (weftRelease s p tc slots).beam = s.beam := (weftRelease_keeps (mk := 128) (Keeps.refl s) (by decide)).beam (by decide)

@[simp] theorem pushItem_pending (s : State) (d : Nat) (i : LoomItem) : (pushItem s d i).pending = s.pending := (pushItem_keeps (mk := 7365120) (Keeps.refl s) (by decide)).pending
@[simp] theorem pushItem_now (s : State) (d : Nat) (i : LoomItem) : (pushItem s d i).now = s.now := (pushItem_keeps (mk := 7365120) (Keeps.refl s) (by decide)).now
@[simp] theorem pushItem_ft (s : State) (d : Nat) (i : LoomItem) : (pushItem s d i).ft = s.ft := (pushItem_keeps (mk := 7365120) (Keeps.refl s) (by decide)).ft (by decide)
@[simp] theorem pushItem_cfg (s : State) (d : Nat) (i : LoomItem) : (pushItem s d i).cfg = s.cfg := (pushItem_keeps (mk := 7365120) (Keeps.refl s) (by decide)).cfg (by decide)
@[simp] theorem pushItem_flash (s : State) (d : Nat) (i : LoomItem) : (pushItem s d i).flash = s.flash := (pushItem_keeps (mk := 7365120) (Keeps.refl s) (by decide)).flash (by decide)
@[simp] theorem pushItem_module (s : State) (d : Nat) (i : LoomItem) : (pushItem s d i).module = s.module := (pushItem_keeps (mk := 7365120) (Keeps.refl s) (by decide)).module (by decide)
@[simp] theorem pushItem_power (s : State) (d : Nat) (i : LoomItem) : (pushItem s d i).power = s.power := (pushItem_keeps (mk := 7365120) (Keeps.refl s) (by decide)).power (by decide)
@[simp] theorem pushItem_gov (s : State) (d : Nat) (i : LoomItem) : (pushItem s d i).gov = s.gov := (pushItem_keeps (mk := 7365120) (Keeps.refl s) (by decide)).gov (by decide)
@[simp] theorem pushItem_lanes (s : State) (d : Nat) (i : LoomItem) : (pushItem s d i).lanes = s.lanes := (pushItem_keeps (mk := 7365120) (Keeps.refl s) (by decide)).lanes (by decide)
@[simp] theorem pushItem_weft (s : State) (d : Nat) (i : LoomItem) : (pushItem s d i).weft = s.weft := (pushItem_keeps (mk := 7365120) (Keeps.refl s) (by decide)).weft (by decide)
@[simp] theorem pushItem_warp (s : State) (d : Nat) (i : LoomItem) : (pushItem s d i).warp = s.warp := (pushItem_keeps (mk := 7365120) (Keeps.refl s) (by decide)).warp (by decide)
@[simp] theorem pushItem_fab (s : State) (d : Nat) (i : LoomItem) : (pushItem s d i).fab = s.fab := (pushItem_keeps (mk := 7365120) (Keeps.refl s) (by decide)).fab (by decide)
@[simp] theorem pushItem_shu (s : State) (d : Nat) (i : LoomItem) : (pushItem s d i).shu = s.shu := (pushItem_keeps (mk := 7365120) (Keeps.refl s) (by decide)).shu (by decide)
@[simp] theorem pushItem_win (s : State) (d : Nat) (i : LoomItem) : (pushItem s d i).win = s.win := (pushItem_keeps (mk := 7365120) (Keeps.refl s) (by decide)).win (by decide)
@[simp] theorem pushItem_sel (s : State) (d : Nat) (i : LoomItem) : (pushItem s d i).sel = s.sel := (pushItem_keeps (mk := 7365120) (Keeps.refl s) (by decide)).sel (by decide)
@[simp] theorem pushItem_twin (s : State) (d : Nat) (i : LoomItem) : (pushItem s d i).twin = s.twin := (pushItem_keeps (mk := 7365120) (Keeps.refl s) (by decide)).twin (by decide)
@[simp] theorem pushItem_dob (s : State) (d : Nat) (i : LoomItem) : (pushItem s d i).dob = s.dob := (pushItem_keeps (mk := 7365120) (Keeps.refl s) (by decide)).dob (by decide)
@[simp] theorem pushItem_mgmt (s : State) (d : Nat) (i : LoomItem) : (pushItem s d i).mgmt = s.mgmt := (pushItem_keeps (mk := 7365120) (Keeps.refl s) (by decide)).mgmt (by decide)
@[simp] theorem pushItem_vault (s : State) (d : Nat) (i : LoomItem) : (pushItem s d i).vault = s.vault := (pushItem_keeps (mk := 7365120) (Keeps.refl s) (by decide)).vault (by decide)

@[simp] theorem errorMessage_pending (s : State) (v : Nat) (fn : Nat) (code : Nat) : (errorMessage s v fn code).pending = s.pending := (errorMessage_keeps (mk := 256) (Keeps.refl s) (by decide)).pending
@[simp] theorem errorMessage_now (s : State) (v : Nat) (fn : Nat) (code : Nat) : (errorMessage s v fn code).now = s.now := (errorMessage_keeps (mk := 256) (Keeps.refl s) (by decide)).now
@[simp] theorem errorMessage_ft (s : State) (v : Nat) (fn : Nat) (code : Nat) : (errorMessage s v fn code).ft = s.ft := (errorMessage_keeps (mk := 256) (Keeps.refl s) (by decide)).ft (by decide)
@[simp] theorem errorMessage_cfg (s : State) (v : Nat) (fn : Nat) (code : Nat) : (errorMessage s v fn code).cfg = s.cfg := (errorMessage_keeps (mk := 256) (Keeps.refl s) (by decide)).cfg (by decide)
@[simp] theorem errorMessage_flash (s : State) (v : Nat) (fn : Nat) (code : Nat) : (errorMessage s v fn code).flash = s.flash := (errorMessage_keeps (mk := 256) (Keeps.refl s) (by decide)).flash (by decide)
@[simp] theorem errorMessage_module (s : State) (v : Nat) (fn : Nat) (code : Nat) : (errorMessage s v fn code).module = s.module := (errorMessage_keeps (mk := 256) (Keeps.refl s) (by decide)).module (by decide)
@[simp] theorem errorMessage_power (s : State) (v : Nat) (fn : Nat) (code : Nat) : (errorMessage s v fn code).power = s.power := (errorMessage_keeps (mk := 256) (Keeps.refl s) (by decide)).power (by decide)
@[simp] theorem errorMessage_gov (s : State) (v : Nat) (fn : Nat) (code : Nat) : (errorMessage s v fn code).gov = s.gov := (errorMessage_keeps (mk := 256) (Keeps.refl s) (by decide)).gov (by decide)
@[simp] theorem errorMessage_lanes (s : State) (v : Nat) (fn : Nat) (code : Nat) : (errorMessage s v fn code).lanes = s.lanes := (errorMessage_keeps (mk := 256) (Keeps.refl s) (by decide)).lanes (by decide)
@[simp] theorem errorMessage_weft (s : State) (v : Nat) (fn : Nat) (code : Nat) : (errorMessage s v fn code).weft = s.weft := (errorMessage_keeps (mk := 256) (Keeps.refl s) (by decide)).weft (by decide)
@[simp] theorem errorMessage_loom (s : State) (v : Nat) (fn : Nat) (code : Nat) : (errorMessage s v fn code).loom = s.loom := (errorMessage_keeps (mk := 256) (Keeps.refl s) (by decide)).loom (by decide)
@[simp] theorem errorMessage_fab (s : State) (v : Nat) (fn : Nat) (code : Nat) : (errorMessage s v fn code).fab = s.fab := (errorMessage_keeps (mk := 256) (Keeps.refl s) (by decide)).fab (by decide)
@[simp] theorem errorMessage_shu (s : State) (v : Nat) (fn : Nat) (code : Nat) : (errorMessage s v fn code).shu = s.shu := (errorMessage_keeps (mk := 256) (Keeps.refl s) (by decide)).shu (by decide)
@[simp] theorem errorMessage_win (s : State) (v : Nat) (fn : Nat) (code : Nat) : (errorMessage s v fn code).win = s.win := (errorMessage_keeps (mk := 256) (Keeps.refl s) (by decide)).win (by decide)
@[simp] theorem errorMessage_eng (s : State) (v : Nat) (fn : Nat) (code : Nat) : (errorMessage s v fn code).eng = s.eng := (errorMessage_keeps (mk := 256) (Keeps.refl s) (by decide)).eng (by decide)
@[simp] theorem errorMessage_hed (s : State) (v : Nat) (fn : Nat) (code : Nat) : (errorMessage s v fn code).hed = s.hed := (errorMessage_keeps (mk := 256) (Keeps.refl s) (by decide)).hed (by decide)
@[simp] theorem errorMessage_sel (s : State) (v : Nat) (fn : Nat) (code : Nat) : (errorMessage s v fn code).sel = s.sel := (errorMessage_keeps (mk := 256) (Keeps.refl s) (by decide)).sel (by decide)
@[simp] theorem errorMessage_twin (s : State) (v : Nat) (fn : Nat) (code : Nat) : (errorMessage s v fn code).twin = s.twin := (errorMessage_keeps (mk := 256) (Keeps.refl s) (by decide)).twin (by decide)
@[simp] theorem errorMessage_dob (s : State) (v : Nat) (fn : Nat) (code : Nat) : (errorMessage s v fn code).dob = s.dob := (errorMessage_keeps (mk := 256) (Keeps.refl s) (by decide)).dob (by decide)
@[simp] theorem errorMessage_mgmt (s : State) (v : Nat) (fn : Nat) (code : Nat) : (errorMessage s v fn code).mgmt = s.mgmt := (errorMessage_keeps (mk := 256) (Keeps.refl s) (by decide)).mgmt (by decide)
@[simp] theorem errorMessage_vault (s : State) (v : Nat) (fn : Nat) (code : Nat) : (errorMessage s v fn code).vault = s.vault := (errorMessage_keeps (mk := 256) (Keeps.refl s) (by decide)).vault (by decide)
@[simp] theorem errorMessage_obs (s : State) (v : Nat) (fn : Nat) (code : Nat) : (errorMessage s v fn code).obs = s.obs := (errorMessage_keeps (mk := 256) (Keeps.refl s) (by decide)).obs (by decide)
@[simp] theorem errorMessage_host (s : State) (v : Nat) (fn : Nat) (code : Nat) : (errorMessage s v fn code).host = s.host := (errorMessage_keeps (mk := 256) (Keeps.refl s) (by decide)).host (by decide)
@[simp] theorem errorMessage_beam (s : State) (v : Nat) (fn : Nat) (code : Nat) : (errorMessage s v fn code).beam = s.beam := (errorMessage_keeps (mk := 256) (Keeps.refl s) (by decide)).beam (by decide)

@[simp] theorem sendBlock_pending (s : State) (l : Nat) (header : Nat) (payload : Nat) : (sendBlock s l header payload).pending = s.pending := (sendBlock_keeps (mk := 64) (Keeps.refl s) (by decide)).pending
@[simp] theorem sendBlock_now (s : State) (l : Nat) (header : Nat) (payload : Nat) : (sendBlock s l header payload).now = s.now := (sendBlock_keeps (mk := 64) (Keeps.refl s) (by decide)).now
@[simp] theorem sendBlock_ft (s : State) (l : Nat) (header : Nat) (payload : Nat) : (sendBlock s l header payload).ft = s.ft := (sendBlock_keeps (mk := 64) (Keeps.refl s) (by decide)).ft (by decide)
@[simp] theorem sendBlock_cfg (s : State) (l : Nat) (header : Nat) (payload : Nat) : (sendBlock s l header payload).cfg = s.cfg := (sendBlock_keeps (mk := 64) (Keeps.refl s) (by decide)).cfg (by decide)
@[simp] theorem sendBlock_flash (s : State) (l : Nat) (header : Nat) (payload : Nat) : (sendBlock s l header payload).flash = s.flash := (sendBlock_keeps (mk := 64) (Keeps.refl s) (by decide)).flash (by decide)
@[simp] theorem sendBlock_module (s : State) (l : Nat) (header : Nat) (payload : Nat) : (sendBlock s l header payload).module = s.module := (sendBlock_keeps (mk := 64) (Keeps.refl s) (by decide)).module (by decide)
@[simp] theorem sendBlock_power (s : State) (l : Nat) (header : Nat) (payload : Nat) : (sendBlock s l header payload).power = s.power := (sendBlock_keeps (mk := 64) (Keeps.refl s) (by decide)).power (by decide)
@[simp] theorem sendBlock_gov (s : State) (l : Nat) (header : Nat) (payload : Nat) : (sendBlock s l header payload).gov = s.gov := (sendBlock_keeps (mk := 64) (Keeps.refl s) (by decide)).gov (by decide)
@[simp] theorem sendBlock_weft (s : State) (l : Nat) (header : Nat) (payload : Nat) : (sendBlock s l header payload).weft = s.weft := (sendBlock_keeps (mk := 64) (Keeps.refl s) (by decide)).weft (by decide)
@[simp] theorem sendBlock_warp (s : State) (l : Nat) (header : Nat) (payload : Nat) : (sendBlock s l header payload).warp = s.warp := (sendBlock_keeps (mk := 64) (Keeps.refl s) (by decide)).warp (by decide)
@[simp] theorem sendBlock_loom (s : State) (l : Nat) (header : Nat) (payload : Nat) : (sendBlock s l header payload).loom = s.loom := (sendBlock_keeps (mk := 64) (Keeps.refl s) (by decide)).loom (by decide)
@[simp] theorem sendBlock_fab (s : State) (l : Nat) (header : Nat) (payload : Nat) : (sendBlock s l header payload).fab = s.fab := (sendBlock_keeps (mk := 64) (Keeps.refl s) (by decide)).fab (by decide)
@[simp] theorem sendBlock_shu (s : State) (l : Nat) (header : Nat) (payload : Nat) : (sendBlock s l header payload).shu = s.shu := (sendBlock_keeps (mk := 64) (Keeps.refl s) (by decide)).shu (by decide)
@[simp] theorem sendBlock_win (s : State) (l : Nat) (header : Nat) (payload : Nat) : (sendBlock s l header payload).win = s.win := (sendBlock_keeps (mk := 64) (Keeps.refl s) (by decide)).win (by decide)
@[simp] theorem sendBlock_eng (s : State) (l : Nat) (header : Nat) (payload : Nat) : (sendBlock s l header payload).eng = s.eng := (sendBlock_keeps (mk := 64) (Keeps.refl s) (by decide)).eng (by decide)
@[simp] theorem sendBlock_hed (s : State) (l : Nat) (header : Nat) (payload : Nat) : (sendBlock s l header payload).hed = s.hed := (sendBlock_keeps (mk := 64) (Keeps.refl s) (by decide)).hed (by decide)
@[simp] theorem sendBlock_sel (s : State) (l : Nat) (header : Nat) (payload : Nat) : (sendBlock s l header payload).sel = s.sel := (sendBlock_keeps (mk := 64) (Keeps.refl s) (by decide)).sel (by decide)
@[simp] theorem sendBlock_twin (s : State) (l : Nat) (header : Nat) (payload : Nat) : (sendBlock s l header payload).twin = s.twin := (sendBlock_keeps (mk := 64) (Keeps.refl s) (by decide)).twin (by decide)
@[simp] theorem sendBlock_dob (s : State) (l : Nat) (header : Nat) (payload : Nat) : (sendBlock s l header payload).dob = s.dob := (sendBlock_keeps (mk := 64) (Keeps.refl s) (by decide)).dob (by decide)
@[simp] theorem sendBlock_mgmt (s : State) (l : Nat) (header : Nat) (payload : Nat) : (sendBlock s l header payload).mgmt = s.mgmt := (sendBlock_keeps (mk := 64) (Keeps.refl s) (by decide)).mgmt (by decide)
@[simp] theorem sendBlock_vault (s : State) (l : Nat) (header : Nat) (payload : Nat) : (sendBlock s l header payload).vault = s.vault := (sendBlock_keeps (mk := 64) (Keeps.refl s) (by decide)).vault (by decide)
@[simp] theorem sendBlock_obs (s : State) (l : Nat) (header : Nat) (payload : Nat) : (sendBlock s l header payload).obs = s.obs := (sendBlock_keeps (mk := 64) (Keeps.refl s) (by decide)).obs (by decide)
@[simp] theorem sendBlock_host (s : State) (l : Nat) (header : Nat) (payload : Nat) : (sendBlock s l header payload).host = s.host := (sendBlock_keeps (mk := 64) (Keeps.refl s) (by decide)).host (by decide)
@[simp] theorem sendBlock_beam (s : State) (l : Nat) (header : Nat) (payload : Nat) : (sendBlock s l header payload).beam = s.beam := (sendBlock_keeps (mk := 64) (Keeps.refl s) (by decide)).beam (by decide)

@[simp] theorem sendOn_pending (s : State) (ls : List Nat) (header : Nat) (payload : Nat → Nat) : (sendOn s ls header payload).pending = s.pending := (sendOn_keeps (mk := 64) (Keeps.refl s) (by decide)).pending
@[simp] theorem sendOn_now (s : State) (ls : List Nat) (header : Nat) (payload : Nat → Nat) : (sendOn s ls header payload).now = s.now := (sendOn_keeps (mk := 64) (Keeps.refl s) (by decide)).now
@[simp] theorem sendOn_ft (s : State) (ls : List Nat) (header : Nat) (payload : Nat → Nat) : (sendOn s ls header payload).ft = s.ft := (sendOn_keeps (mk := 64) (Keeps.refl s) (by decide)).ft (by decide)
@[simp] theorem sendOn_cfg (s : State) (ls : List Nat) (header : Nat) (payload : Nat → Nat) : (sendOn s ls header payload).cfg = s.cfg := (sendOn_keeps (mk := 64) (Keeps.refl s) (by decide)).cfg (by decide)
@[simp] theorem sendOn_flash (s : State) (ls : List Nat) (header : Nat) (payload : Nat → Nat) : (sendOn s ls header payload).flash = s.flash := (sendOn_keeps (mk := 64) (Keeps.refl s) (by decide)).flash (by decide)
@[simp] theorem sendOn_module (s : State) (ls : List Nat) (header : Nat) (payload : Nat → Nat) : (sendOn s ls header payload).module = s.module := (sendOn_keeps (mk := 64) (Keeps.refl s) (by decide)).module (by decide)
@[simp] theorem sendOn_power (s : State) (ls : List Nat) (header : Nat) (payload : Nat → Nat) : (sendOn s ls header payload).power = s.power := (sendOn_keeps (mk := 64) (Keeps.refl s) (by decide)).power (by decide)
@[simp] theorem sendOn_gov (s : State) (ls : List Nat) (header : Nat) (payload : Nat → Nat) : (sendOn s ls header payload).gov = s.gov := (sendOn_keeps (mk := 64) (Keeps.refl s) (by decide)).gov (by decide)
@[simp] theorem sendOn_weft (s : State) (ls : List Nat) (header : Nat) (payload : Nat → Nat) : (sendOn s ls header payload).weft = s.weft := (sendOn_keeps (mk := 64) (Keeps.refl s) (by decide)).weft (by decide)
@[simp] theorem sendOn_warp (s : State) (ls : List Nat) (header : Nat) (payload : Nat → Nat) : (sendOn s ls header payload).warp = s.warp := (sendOn_keeps (mk := 64) (Keeps.refl s) (by decide)).warp (by decide)
@[simp] theorem sendOn_loom (s : State) (ls : List Nat) (header : Nat) (payload : Nat → Nat) : (sendOn s ls header payload).loom = s.loom := (sendOn_keeps (mk := 64) (Keeps.refl s) (by decide)).loom (by decide)
@[simp] theorem sendOn_fab (s : State) (ls : List Nat) (header : Nat) (payload : Nat → Nat) : (sendOn s ls header payload).fab = s.fab := (sendOn_keeps (mk := 64) (Keeps.refl s) (by decide)).fab (by decide)
@[simp] theorem sendOn_shu (s : State) (ls : List Nat) (header : Nat) (payload : Nat → Nat) : (sendOn s ls header payload).shu = s.shu := (sendOn_keeps (mk := 64) (Keeps.refl s) (by decide)).shu (by decide)
@[simp] theorem sendOn_win (s : State) (ls : List Nat) (header : Nat) (payload : Nat → Nat) : (sendOn s ls header payload).win = s.win := (sendOn_keeps (mk := 64) (Keeps.refl s) (by decide)).win (by decide)
@[simp] theorem sendOn_eng (s : State) (ls : List Nat) (header : Nat) (payload : Nat → Nat) : (sendOn s ls header payload).eng = s.eng := (sendOn_keeps (mk := 64) (Keeps.refl s) (by decide)).eng (by decide)
@[simp] theorem sendOn_hed (s : State) (ls : List Nat) (header : Nat) (payload : Nat → Nat) : (sendOn s ls header payload).hed = s.hed := (sendOn_keeps (mk := 64) (Keeps.refl s) (by decide)).hed (by decide)
@[simp] theorem sendOn_sel (s : State) (ls : List Nat) (header : Nat) (payload : Nat → Nat) : (sendOn s ls header payload).sel = s.sel := (sendOn_keeps (mk := 64) (Keeps.refl s) (by decide)).sel (by decide)
@[simp] theorem sendOn_twin (s : State) (ls : List Nat) (header : Nat) (payload : Nat → Nat) : (sendOn s ls header payload).twin = s.twin := (sendOn_keeps (mk := 64) (Keeps.refl s) (by decide)).twin (by decide)
@[simp] theorem sendOn_dob (s : State) (ls : List Nat) (header : Nat) (payload : Nat → Nat) : (sendOn s ls header payload).dob = s.dob := (sendOn_keeps (mk := 64) (Keeps.refl s) (by decide)).dob (by decide)
@[simp] theorem sendOn_mgmt (s : State) (ls : List Nat) (header : Nat) (payload : Nat → Nat) : (sendOn s ls header payload).mgmt = s.mgmt := (sendOn_keeps (mk := 64) (Keeps.refl s) (by decide)).mgmt (by decide)
@[simp] theorem sendOn_vault (s : State) (ls : List Nat) (header : Nat) (payload : Nat → Nat) : (sendOn s ls header payload).vault = s.vault := (sendOn_keeps (mk := 64) (Keeps.refl s) (by decide)).vault (by decide)
@[simp] theorem sendOn_obs (s : State) (ls : List Nat) (header : Nat) (payload : Nat → Nat) : (sendOn s ls header payload).obs = s.obs := (sendOn_keeps (mk := 64) (Keeps.refl s) (by decide)).obs (by decide)
@[simp] theorem sendOn_host (s : State) (ls : List Nat) (header : Nat) (payload : Nat → Nat) : (sendOn s ls header payload).host = s.host := (sendOn_keeps (mk := 64) (Keeps.refl s) (by decide)).host (by decide)
@[simp] theorem sendOn_beam (s : State) (ls : List Nat) (header : Nat) (payload : Nat → Nat) : (sendOn s ls header payload).beam = s.beam := (sendOn_keeps (mk := 64) (Keeps.refl s) (by decide)).beam (by decide)

@[simp] theorem sendDataRow_pending (s : State) (p : Nat) (row : List Byte) : (sendDataRow s p row).pending = s.pending := (sendDataRow_keeps (mk := 64) (Keeps.refl s) (by decide)).pending
@[simp] theorem sendDataRow_now (s : State) (p : Nat) (row : List Byte) : (sendDataRow s p row).now = s.now := (sendDataRow_keeps (mk := 64) (Keeps.refl s) (by decide)).now
@[simp] theorem sendDataRow_ft (s : State) (p : Nat) (row : List Byte) : (sendDataRow s p row).ft = s.ft := (sendDataRow_keeps (mk := 64) (Keeps.refl s) (by decide)).ft (by decide)
@[simp] theorem sendDataRow_cfg (s : State) (p : Nat) (row : List Byte) : (sendDataRow s p row).cfg = s.cfg := (sendDataRow_keeps (mk := 64) (Keeps.refl s) (by decide)).cfg (by decide)
@[simp] theorem sendDataRow_flash (s : State) (p : Nat) (row : List Byte) : (sendDataRow s p row).flash = s.flash := (sendDataRow_keeps (mk := 64) (Keeps.refl s) (by decide)).flash (by decide)
@[simp] theorem sendDataRow_module (s : State) (p : Nat) (row : List Byte) : (sendDataRow s p row).module = s.module := (sendDataRow_keeps (mk := 64) (Keeps.refl s) (by decide)).module (by decide)
@[simp] theorem sendDataRow_power (s : State) (p : Nat) (row : List Byte) : (sendDataRow s p row).power = s.power := (sendDataRow_keeps (mk := 64) (Keeps.refl s) (by decide)).power (by decide)
@[simp] theorem sendDataRow_gov (s : State) (p : Nat) (row : List Byte) : (sendDataRow s p row).gov = s.gov := (sendDataRow_keeps (mk := 64) (Keeps.refl s) (by decide)).gov (by decide)
@[simp] theorem sendDataRow_weft (s : State) (p : Nat) (row : List Byte) : (sendDataRow s p row).weft = s.weft := (sendDataRow_keeps (mk := 64) (Keeps.refl s) (by decide)).weft (by decide)
@[simp] theorem sendDataRow_warp (s : State) (p : Nat) (row : List Byte) : (sendDataRow s p row).warp = s.warp := (sendDataRow_keeps (mk := 64) (Keeps.refl s) (by decide)).warp (by decide)
@[simp] theorem sendDataRow_loom (s : State) (p : Nat) (row : List Byte) : (sendDataRow s p row).loom = s.loom := (sendDataRow_keeps (mk := 64) (Keeps.refl s) (by decide)).loom (by decide)
@[simp] theorem sendDataRow_fab (s : State) (p : Nat) (row : List Byte) : (sendDataRow s p row).fab = s.fab := (sendDataRow_keeps (mk := 64) (Keeps.refl s) (by decide)).fab (by decide)
@[simp] theorem sendDataRow_shu (s : State) (p : Nat) (row : List Byte) : (sendDataRow s p row).shu = s.shu := (sendDataRow_keeps (mk := 64) (Keeps.refl s) (by decide)).shu (by decide)
@[simp] theorem sendDataRow_win (s : State) (p : Nat) (row : List Byte) : (sendDataRow s p row).win = s.win := (sendDataRow_keeps (mk := 64) (Keeps.refl s) (by decide)).win (by decide)
@[simp] theorem sendDataRow_eng (s : State) (p : Nat) (row : List Byte) : (sendDataRow s p row).eng = s.eng := (sendDataRow_keeps (mk := 64) (Keeps.refl s) (by decide)).eng (by decide)
@[simp] theorem sendDataRow_hed (s : State) (p : Nat) (row : List Byte) : (sendDataRow s p row).hed = s.hed := (sendDataRow_keeps (mk := 64) (Keeps.refl s) (by decide)).hed (by decide)
@[simp] theorem sendDataRow_sel (s : State) (p : Nat) (row : List Byte) : (sendDataRow s p row).sel = s.sel := (sendDataRow_keeps (mk := 64) (Keeps.refl s) (by decide)).sel (by decide)
@[simp] theorem sendDataRow_twin (s : State) (p : Nat) (row : List Byte) : (sendDataRow s p row).twin = s.twin := (sendDataRow_keeps (mk := 64) (Keeps.refl s) (by decide)).twin (by decide)
@[simp] theorem sendDataRow_dob (s : State) (p : Nat) (row : List Byte) : (sendDataRow s p row).dob = s.dob := (sendDataRow_keeps (mk := 64) (Keeps.refl s) (by decide)).dob (by decide)
@[simp] theorem sendDataRow_mgmt (s : State) (p : Nat) (row : List Byte) : (sendDataRow s p row).mgmt = s.mgmt := (sendDataRow_keeps (mk := 64) (Keeps.refl s) (by decide)).mgmt (by decide)
@[simp] theorem sendDataRow_vault (s : State) (p : Nat) (row : List Byte) : (sendDataRow s p row).vault = s.vault := (sendDataRow_keeps (mk := 64) (Keeps.refl s) (by decide)).vault (by decide)
@[simp] theorem sendDataRow_obs (s : State) (p : Nat) (row : List Byte) : (sendDataRow s p row).obs = s.obs := (sendDataRow_keeps (mk := 64) (Keeps.refl s) (by decide)).obs (by decide)
@[simp] theorem sendDataRow_host (s : State) (p : Nat) (row : List Byte) : (sendDataRow s p row).host = s.host := (sendDataRow_keeps (mk := 64) (Keeps.refl s) (by decide)).host (by decide)
@[simp] theorem sendDataRow_beam (s : State) (p : Nat) (row : List Byte) : (sendDataRow s p row).beam = s.beam := (sendDataRow_keeps (mk := 64) (Keeps.refl s) (by decide)).beam (by decide)

@[simp] theorem sendFlit_pending (s : State) (p : Nat) (bytes : List Byte) : (sendFlit s p bytes).pending = s.pending := (sendFlit_keeps (mk := 192) (Keeps.refl s) (by decide)).pending
@[simp] theorem sendFlit_now (s : State) (p : Nat) (bytes : List Byte) : (sendFlit s p bytes).now = s.now := (sendFlit_keeps (mk := 192) (Keeps.refl s) (by decide)).now
@[simp] theorem sendFlit_ft (s : State) (p : Nat) (bytes : List Byte) : (sendFlit s p bytes).ft = s.ft := (sendFlit_keeps (mk := 192) (Keeps.refl s) (by decide)).ft (by decide)
@[simp] theorem sendFlit_cfg (s : State) (p : Nat) (bytes : List Byte) : (sendFlit s p bytes).cfg = s.cfg := (sendFlit_keeps (mk := 192) (Keeps.refl s) (by decide)).cfg (by decide)
@[simp] theorem sendFlit_flash (s : State) (p : Nat) (bytes : List Byte) : (sendFlit s p bytes).flash = s.flash := (sendFlit_keeps (mk := 192) (Keeps.refl s) (by decide)).flash (by decide)
@[simp] theorem sendFlit_module (s : State) (p : Nat) (bytes : List Byte) : (sendFlit s p bytes).module = s.module := (sendFlit_keeps (mk := 192) (Keeps.refl s) (by decide)).module (by decide)
@[simp] theorem sendFlit_power (s : State) (p : Nat) (bytes : List Byte) : (sendFlit s p bytes).power = s.power := (sendFlit_keeps (mk := 192) (Keeps.refl s) (by decide)).power (by decide)
@[simp] theorem sendFlit_gov (s : State) (p : Nat) (bytes : List Byte) : (sendFlit s p bytes).gov = s.gov := (sendFlit_keeps (mk := 192) (Keeps.refl s) (by decide)).gov (by decide)
@[simp] theorem sendFlit_warp (s : State) (p : Nat) (bytes : List Byte) : (sendFlit s p bytes).warp = s.warp := (sendFlit_keeps (mk := 192) (Keeps.refl s) (by decide)).warp (by decide)
@[simp] theorem sendFlit_loom (s : State) (p : Nat) (bytes : List Byte) : (sendFlit s p bytes).loom = s.loom := (sendFlit_keeps (mk := 192) (Keeps.refl s) (by decide)).loom (by decide)
@[simp] theorem sendFlit_fab (s : State) (p : Nat) (bytes : List Byte) : (sendFlit s p bytes).fab = s.fab := (sendFlit_keeps (mk := 192) (Keeps.refl s) (by decide)).fab (by decide)
@[simp] theorem sendFlit_shu (s : State) (p : Nat) (bytes : List Byte) : (sendFlit s p bytes).shu = s.shu := (sendFlit_keeps (mk := 192) (Keeps.refl s) (by decide)).shu (by decide)
@[simp] theorem sendFlit_win (s : State) (p : Nat) (bytes : List Byte) : (sendFlit s p bytes).win = s.win := (sendFlit_keeps (mk := 192) (Keeps.refl s) (by decide)).win (by decide)
@[simp] theorem sendFlit_eng (s : State) (p : Nat) (bytes : List Byte) : (sendFlit s p bytes).eng = s.eng := (sendFlit_keeps (mk := 192) (Keeps.refl s) (by decide)).eng (by decide)
@[simp] theorem sendFlit_hed (s : State) (p : Nat) (bytes : List Byte) : (sendFlit s p bytes).hed = s.hed := (sendFlit_keeps (mk := 192) (Keeps.refl s) (by decide)).hed (by decide)
@[simp] theorem sendFlit_sel (s : State) (p : Nat) (bytes : List Byte) : (sendFlit s p bytes).sel = s.sel := (sendFlit_keeps (mk := 192) (Keeps.refl s) (by decide)).sel (by decide)
@[simp] theorem sendFlit_twin (s : State) (p : Nat) (bytes : List Byte) : (sendFlit s p bytes).twin = s.twin := (sendFlit_keeps (mk := 192) (Keeps.refl s) (by decide)).twin (by decide)
@[simp] theorem sendFlit_dob (s : State) (p : Nat) (bytes : List Byte) : (sendFlit s p bytes).dob = s.dob := (sendFlit_keeps (mk := 192) (Keeps.refl s) (by decide)).dob (by decide)
@[simp] theorem sendFlit_mgmt (s : State) (p : Nat) (bytes : List Byte) : (sendFlit s p bytes).mgmt = s.mgmt := (sendFlit_keeps (mk := 192) (Keeps.refl s) (by decide)).mgmt (by decide)
@[simp] theorem sendFlit_vault (s : State) (p : Nat) (bytes : List Byte) : (sendFlit s p bytes).vault = s.vault := (sendFlit_keeps (mk := 192) (Keeps.refl s) (by decide)).vault (by decide)
@[simp] theorem sendFlit_obs (s : State) (p : Nat) (bytes : List Byte) : (sendFlit s p bytes).obs = s.obs := (sendFlit_keeps (mk := 192) (Keeps.refl s) (by decide)).obs (by decide)
@[simp] theorem sendFlit_host (s : State) (p : Nat) (bytes : List Byte) : (sendFlit s p bytes).host = s.host := (sendFlit_keeps (mk := 192) (Keeps.refl s) (by decide)).host (by decide)
@[simp] theorem sendFlit_beam (s : State) (p : Nat) (bytes : List Byte) : (sendFlit s p bytes).beam = s.beam := (sendFlit_keeps (mk := 192) (Keeps.refl s) (by decide)).beam (by decide)

@[simp] theorem fillRow_pending (s : State) (p : Nat) : (fillRow s p).pending = s.pending := (fillRow_keeps (mk := 192) (Keeps.refl s) (by decide)).pending
@[simp] theorem fillRow_now (s : State) (p : Nat) : (fillRow s p).now = s.now := (fillRow_keeps (mk := 192) (Keeps.refl s) (by decide)).now
@[simp] theorem fillRow_ft (s : State) (p : Nat) : (fillRow s p).ft = s.ft := (fillRow_keeps (mk := 192) (Keeps.refl s) (by decide)).ft (by decide)
@[simp] theorem fillRow_cfg (s : State) (p : Nat) : (fillRow s p).cfg = s.cfg := (fillRow_keeps (mk := 192) (Keeps.refl s) (by decide)).cfg (by decide)
@[simp] theorem fillRow_flash (s : State) (p : Nat) : (fillRow s p).flash = s.flash := (fillRow_keeps (mk := 192) (Keeps.refl s) (by decide)).flash (by decide)
@[simp] theorem fillRow_module (s : State) (p : Nat) : (fillRow s p).module = s.module := (fillRow_keeps (mk := 192) (Keeps.refl s) (by decide)).module (by decide)
@[simp] theorem fillRow_power (s : State) (p : Nat) : (fillRow s p).power = s.power := (fillRow_keeps (mk := 192) (Keeps.refl s) (by decide)).power (by decide)
@[simp] theorem fillRow_gov (s : State) (p : Nat) : (fillRow s p).gov = s.gov := (fillRow_keeps (mk := 192) (Keeps.refl s) (by decide)).gov (by decide)
@[simp] theorem fillRow_warp (s : State) (p : Nat) : (fillRow s p).warp = s.warp := (fillRow_keeps (mk := 192) (Keeps.refl s) (by decide)).warp (by decide)
@[simp] theorem fillRow_loom (s : State) (p : Nat) : (fillRow s p).loom = s.loom := (fillRow_keeps (mk := 192) (Keeps.refl s) (by decide)).loom (by decide)
@[simp] theorem fillRow_fab (s : State) (p : Nat) : (fillRow s p).fab = s.fab := (fillRow_keeps (mk := 192) (Keeps.refl s) (by decide)).fab (by decide)
@[simp] theorem fillRow_shu (s : State) (p : Nat) : (fillRow s p).shu = s.shu := (fillRow_keeps (mk := 192) (Keeps.refl s) (by decide)).shu (by decide)
@[simp] theorem fillRow_win (s : State) (p : Nat) : (fillRow s p).win = s.win := (fillRow_keeps (mk := 192) (Keeps.refl s) (by decide)).win (by decide)
@[simp] theorem fillRow_eng (s : State) (p : Nat) : (fillRow s p).eng = s.eng := (fillRow_keeps (mk := 192) (Keeps.refl s) (by decide)).eng (by decide)
@[simp] theorem fillRow_hed (s : State) (p : Nat) : (fillRow s p).hed = s.hed := (fillRow_keeps (mk := 192) (Keeps.refl s) (by decide)).hed (by decide)
@[simp] theorem fillRow_sel (s : State) (p : Nat) : (fillRow s p).sel = s.sel := (fillRow_keeps (mk := 192) (Keeps.refl s) (by decide)).sel (by decide)
@[simp] theorem fillRow_twin (s : State) (p : Nat) : (fillRow s p).twin = s.twin := (fillRow_keeps (mk := 192) (Keeps.refl s) (by decide)).twin (by decide)
@[simp] theorem fillRow_dob (s : State) (p : Nat) : (fillRow s p).dob = s.dob := (fillRow_keeps (mk := 192) (Keeps.refl s) (by decide)).dob (by decide)
@[simp] theorem fillRow_mgmt (s : State) (p : Nat) : (fillRow s p).mgmt = s.mgmt := (fillRow_keeps (mk := 192) (Keeps.refl s) (by decide)).mgmt (by decide)
@[simp] theorem fillRow_vault (s : State) (p : Nat) : (fillRow s p).vault = s.vault := (fillRow_keeps (mk := 192) (Keeps.refl s) (by decide)).vault (by decide)
@[simp] theorem fillRow_obs (s : State) (p : Nat) : (fillRow s p).obs = s.obs := (fillRow_keeps (mk := 192) (Keeps.refl s) (by decide)).obs (by decide)
@[simp] theorem fillRow_host (s : State) (p : Nat) : (fillRow s p).host = s.host := (fillRow_keeps (mk := 192) (Keeps.refl s) (by decide)).host (by decide)
@[simp] theorem fillRow_beam (s : State) (p : Nat) : (fillRow s p).beam = s.beam := (fillRow_keeps (mk := 192) (Keeps.refl s) (by decide)).beam (by decide)

@[simp] theorem sendRow_pending (s : State) (p : Nat) (w : Nat) : (sendRow s p w).pending = s.pending := (sendRow_keeps (mk := 192) (Keeps.refl s) (by decide)).pending
@[simp] theorem sendRow_now (s : State) (p : Nat) (w : Nat) : (sendRow s p w).now = s.now := (sendRow_keeps (mk := 192) (Keeps.refl s) (by decide)).now
@[simp] theorem sendRow_ft (s : State) (p : Nat) (w : Nat) : (sendRow s p w).ft = s.ft := (sendRow_keeps (mk := 192) (Keeps.refl s) (by decide)).ft (by decide)
@[simp] theorem sendRow_cfg (s : State) (p : Nat) (w : Nat) : (sendRow s p w).cfg = s.cfg := (sendRow_keeps (mk := 192) (Keeps.refl s) (by decide)).cfg (by decide)
@[simp] theorem sendRow_flash (s : State) (p : Nat) (w : Nat) : (sendRow s p w).flash = s.flash := (sendRow_keeps (mk := 192) (Keeps.refl s) (by decide)).flash (by decide)
@[simp] theorem sendRow_module (s : State) (p : Nat) (w : Nat) : (sendRow s p w).module = s.module := (sendRow_keeps (mk := 192) (Keeps.refl s) (by decide)).module (by decide)
@[simp] theorem sendRow_power (s : State) (p : Nat) (w : Nat) : (sendRow s p w).power = s.power := (sendRow_keeps (mk := 192) (Keeps.refl s) (by decide)).power (by decide)
@[simp] theorem sendRow_gov (s : State) (p : Nat) (w : Nat) : (sendRow s p w).gov = s.gov := (sendRow_keeps (mk := 192) (Keeps.refl s) (by decide)).gov (by decide)
@[simp] theorem sendRow_warp (s : State) (p : Nat) (w : Nat) : (sendRow s p w).warp = s.warp := (sendRow_keeps (mk := 192) (Keeps.refl s) (by decide)).warp (by decide)
@[simp] theorem sendRow_loom (s : State) (p : Nat) (w : Nat) : (sendRow s p w).loom = s.loom := (sendRow_keeps (mk := 192) (Keeps.refl s) (by decide)).loom (by decide)
@[simp] theorem sendRow_fab (s : State) (p : Nat) (w : Nat) : (sendRow s p w).fab = s.fab := (sendRow_keeps (mk := 192) (Keeps.refl s) (by decide)).fab (by decide)
@[simp] theorem sendRow_shu (s : State) (p : Nat) (w : Nat) : (sendRow s p w).shu = s.shu := (sendRow_keeps (mk := 192) (Keeps.refl s) (by decide)).shu (by decide)
@[simp] theorem sendRow_win (s : State) (p : Nat) (w : Nat) : (sendRow s p w).win = s.win := (sendRow_keeps (mk := 192) (Keeps.refl s) (by decide)).win (by decide)
@[simp] theorem sendRow_eng (s : State) (p : Nat) (w : Nat) : (sendRow s p w).eng = s.eng := (sendRow_keeps (mk := 192) (Keeps.refl s) (by decide)).eng (by decide)
@[simp] theorem sendRow_hed (s : State) (p : Nat) (w : Nat) : (sendRow s p w).hed = s.hed := (sendRow_keeps (mk := 192) (Keeps.refl s) (by decide)).hed (by decide)
@[simp] theorem sendRow_sel (s : State) (p : Nat) (w : Nat) : (sendRow s p w).sel = s.sel := (sendRow_keeps (mk := 192) (Keeps.refl s) (by decide)).sel (by decide)
@[simp] theorem sendRow_twin (s : State) (p : Nat) (w : Nat) : (sendRow s p w).twin = s.twin := (sendRow_keeps (mk := 192) (Keeps.refl s) (by decide)).twin (by decide)
@[simp] theorem sendRow_dob (s : State) (p : Nat) (w : Nat) : (sendRow s p w).dob = s.dob := (sendRow_keeps (mk := 192) (Keeps.refl s) (by decide)).dob (by decide)
@[simp] theorem sendRow_mgmt (s : State) (p : Nat) (w : Nat) : (sendRow s p w).mgmt = s.mgmt := (sendRow_keeps (mk := 192) (Keeps.refl s) (by decide)).mgmt (by decide)
@[simp] theorem sendRow_vault (s : State) (p : Nat) (w : Nat) : (sendRow s p w).vault = s.vault := (sendRow_keeps (mk := 192) (Keeps.refl s) (by decide)).vault (by decide)
@[simp] theorem sendRow_obs (s : State) (p : Nat) (w : Nat) : (sendRow s p w).obs = s.obs := (sendRow_keeps (mk := 192) (Keeps.refl s) (by decide)).obs (by decide)
@[simp] theorem sendRow_host (s : State) (p : Nat) (w : Nat) : (sendRow s p w).host = s.host := (sendRow_keeps (mk := 192) (Keeps.refl s) (by decide)).host (by decide)
@[simp] theorem sendRow_beam (s : State) (p : Nat) (w : Nat) : (sendRow s p w).beam = s.beam := (sendRow_keeps (mk := 192) (Keeps.refl s) (by decide)).beam (by decide)

@[simp] theorem inboundFailed_pending (s : State) (w : Nat) (reason : Nat) (addr : Nat) : (inboundFailed s w reason addr).pending = s.pending := (inboundFailed_keeps (mk := 7499776) (Keeps.refl s) (by decide)).pending
@[simp] theorem inboundFailed_now (s : State) (w : Nat) (reason : Nat) (addr : Nat) : (inboundFailed s w reason addr).now = s.now := (inboundFailed_keeps (mk := 7499776) (Keeps.refl s) (by decide)).now
@[simp] theorem inboundFailed_ft (s : State) (w : Nat) (reason : Nat) (addr : Nat) : (inboundFailed s w reason addr).ft = s.ft := (inboundFailed_keeps (mk := 7499776) (Keeps.refl s) (by decide)).ft (by decide)
@[simp] theorem inboundFailed_cfg (s : State) (w : Nat) (reason : Nat) (addr : Nat) : (inboundFailed s w reason addr).cfg = s.cfg := (inboundFailed_keeps (mk := 7499776) (Keeps.refl s) (by decide)).cfg (by decide)
@[simp] theorem inboundFailed_flash (s : State) (w : Nat) (reason : Nat) (addr : Nat) : (inboundFailed s w reason addr).flash = s.flash := (inboundFailed_keeps (mk := 7499776) (Keeps.refl s) (by decide)).flash (by decide)
@[simp] theorem inboundFailed_module (s : State) (w : Nat) (reason : Nat) (addr : Nat) : (inboundFailed s w reason addr).module = s.module := (inboundFailed_keeps (mk := 7499776) (Keeps.refl s) (by decide)).module (by decide)
@[simp] theorem inboundFailed_power (s : State) (w : Nat) (reason : Nat) (addr : Nat) : (inboundFailed s w reason addr).power = s.power := (inboundFailed_keeps (mk := 7499776) (Keeps.refl s) (by decide)).power (by decide)
@[simp] theorem inboundFailed_gov (s : State) (w : Nat) (reason : Nat) (addr : Nat) : (inboundFailed s w reason addr).gov = s.gov := (inboundFailed_keeps (mk := 7499776) (Keeps.refl s) (by decide)).gov (by decide)
@[simp] theorem inboundFailed_lanes (s : State) (w : Nat) (reason : Nat) (addr : Nat) : (inboundFailed s w reason addr).lanes = s.lanes := (inboundFailed_keeps (mk := 7499776) (Keeps.refl s) (by decide)).lanes (by decide)
@[simp] theorem inboundFailed_weft (s : State) (w : Nat) (reason : Nat) (addr : Nat) : (inboundFailed s w reason addr).weft = s.weft := (inboundFailed_keeps (mk := 7499776) (Keeps.refl s) (by decide)).weft (by decide)
@[simp] theorem inboundFailed_warp (s : State) (w : Nat) (reason : Nat) (addr : Nat) : (inboundFailed s w reason addr).warp = s.warp := (inboundFailed_keeps (mk := 7499776) (Keeps.refl s) (by decide)).warp (by decide)
@[simp] theorem inboundFailed_loom (s : State) (w : Nat) (reason : Nat) (addr : Nat) : (inboundFailed s w reason addr).loom = s.loom := (inboundFailed_keeps (mk := 7499776) (Keeps.refl s) (by decide)).loom (by decide)
@[simp] theorem inboundFailed_fab (s : State) (w : Nat) (reason : Nat) (addr : Nat) : (inboundFailed s w reason addr).fab = s.fab := (inboundFailed_keeps (mk := 7499776) (Keeps.refl s) (by decide)).fab (by decide)
@[simp] theorem inboundFailed_shu (s : State) (w : Nat) (reason : Nat) (addr : Nat) : (inboundFailed s w reason addr).shu = s.shu := (inboundFailed_keeps (mk := 7499776) (Keeps.refl s) (by decide)).shu (by decide)
@[simp] theorem inboundFailed_sel (s : State) (w : Nat) (reason : Nat) (addr : Nat) : (inboundFailed s w reason addr).sel = s.sel := (inboundFailed_keeps (mk := 7499776) (Keeps.refl s) (by decide)).sel (by decide)
@[simp] theorem inboundFailed_twin (s : State) (w : Nat) (reason : Nat) (addr : Nat) : (inboundFailed s w reason addr).twin = s.twin := (inboundFailed_keeps (mk := 7499776) (Keeps.refl s) (by decide)).twin (by decide)
@[simp] theorem inboundFailed_mgmt (s : State) (w : Nat) (reason : Nat) (addr : Nat) : (inboundFailed s w reason addr).mgmt = s.mgmt := (inboundFailed_keeps (mk := 7499776) (Keeps.refl s) (by decide)).mgmt (by decide)
@[simp] theorem inboundFailed_vault (s : State) (w : Nat) (reason : Nat) (addr : Nat) : (inboundFailed s w reason addr).vault = s.vault := (inboundFailed_keeps (mk := 7499776) (Keeps.refl s) (by decide)).vault (by decide)

@[simp] theorem presentTunnel_pending (s : State) (cid : Nat) (src : Nat) (ask : Option Origin) (t : Tlp) : (presentTunnel s cid src ask t).pending = s.pending := (presentTunnel_keeps (mk := 2048) (Keeps.refl s) (by decide)).pending
@[simp] theorem presentTunnel_now (s : State) (cid : Nat) (src : Nat) (ask : Option Origin) (t : Tlp) : (presentTunnel s cid src ask t).now = s.now := (presentTunnel_keeps (mk := 2048) (Keeps.refl s) (by decide)).now
@[simp] theorem presentTunnel_ft (s : State) (cid : Nat) (src : Nat) (ask : Option Origin) (t : Tlp) : (presentTunnel s cid src ask t).ft = s.ft := (presentTunnel_keeps (mk := 2048) (Keeps.refl s) (by decide)).ft (by decide)
@[simp] theorem presentTunnel_cfg (s : State) (cid : Nat) (src : Nat) (ask : Option Origin) (t : Tlp) : (presentTunnel s cid src ask t).cfg = s.cfg := (presentTunnel_keeps (mk := 2048) (Keeps.refl s) (by decide)).cfg (by decide)
@[simp] theorem presentTunnel_flash (s : State) (cid : Nat) (src : Nat) (ask : Option Origin) (t : Tlp) : (presentTunnel s cid src ask t).flash = s.flash := (presentTunnel_keeps (mk := 2048) (Keeps.refl s) (by decide)).flash (by decide)
@[simp] theorem presentTunnel_module (s : State) (cid : Nat) (src : Nat) (ask : Option Origin) (t : Tlp) : (presentTunnel s cid src ask t).module = s.module := (presentTunnel_keeps (mk := 2048) (Keeps.refl s) (by decide)).module (by decide)
@[simp] theorem presentTunnel_power (s : State) (cid : Nat) (src : Nat) (ask : Option Origin) (t : Tlp) : (presentTunnel s cid src ask t).power = s.power := (presentTunnel_keeps (mk := 2048) (Keeps.refl s) (by decide)).power (by decide)
@[simp] theorem presentTunnel_gov (s : State) (cid : Nat) (src : Nat) (ask : Option Origin) (t : Tlp) : (presentTunnel s cid src ask t).gov = s.gov := (presentTunnel_keeps (mk := 2048) (Keeps.refl s) (by decide)).gov (by decide)
@[simp] theorem presentTunnel_lanes (s : State) (cid : Nat) (src : Nat) (ask : Option Origin) (t : Tlp) : (presentTunnel s cid src ask t).lanes = s.lanes := (presentTunnel_keeps (mk := 2048) (Keeps.refl s) (by decide)).lanes (by decide)
@[simp] theorem presentTunnel_weft (s : State) (cid : Nat) (src : Nat) (ask : Option Origin) (t : Tlp) : (presentTunnel s cid src ask t).weft = s.weft := (presentTunnel_keeps (mk := 2048) (Keeps.refl s) (by decide)).weft (by decide)
@[simp] theorem presentTunnel_warp (s : State) (cid : Nat) (src : Nat) (ask : Option Origin) (t : Tlp) : (presentTunnel s cid src ask t).warp = s.warp := (presentTunnel_keeps (mk := 2048) (Keeps.refl s) (by decide)).warp (by decide)
@[simp] theorem presentTunnel_loom (s : State) (cid : Nat) (src : Nat) (ask : Option Origin) (t : Tlp) : (presentTunnel s cid src ask t).loom = s.loom := (presentTunnel_keeps (mk := 2048) (Keeps.refl s) (by decide)).loom (by decide)
@[simp] theorem presentTunnel_fab (s : State) (cid : Nat) (src : Nat) (ask : Option Origin) (t : Tlp) : (presentTunnel s cid src ask t).fab = s.fab := (presentTunnel_keeps (mk := 2048) (Keeps.refl s) (by decide)).fab (by decide)
@[simp] theorem presentTunnel_win (s : State) (cid : Nat) (src : Nat) (ask : Option Origin) (t : Tlp) : (presentTunnel s cid src ask t).win = s.win := (presentTunnel_keeps (mk := 2048) (Keeps.refl s) (by decide)).win (by decide)
@[simp] theorem presentTunnel_eng (s : State) (cid : Nat) (src : Nat) (ask : Option Origin) (t : Tlp) : (presentTunnel s cid src ask t).eng = s.eng := (presentTunnel_keeps (mk := 2048) (Keeps.refl s) (by decide)).eng (by decide)
@[simp] theorem presentTunnel_hed (s : State) (cid : Nat) (src : Nat) (ask : Option Origin) (t : Tlp) : (presentTunnel s cid src ask t).hed = s.hed := (presentTunnel_keeps (mk := 2048) (Keeps.refl s) (by decide)).hed (by decide)
@[simp] theorem presentTunnel_sel (s : State) (cid : Nat) (src : Nat) (ask : Option Origin) (t : Tlp) : (presentTunnel s cid src ask t).sel = s.sel := (presentTunnel_keeps (mk := 2048) (Keeps.refl s) (by decide)).sel (by decide)
@[simp] theorem presentTunnel_twin (s : State) (cid : Nat) (src : Nat) (ask : Option Origin) (t : Tlp) : (presentTunnel s cid src ask t).twin = s.twin := (presentTunnel_keeps (mk := 2048) (Keeps.refl s) (by decide)).twin (by decide)
@[simp] theorem presentTunnel_dob (s : State) (cid : Nat) (src : Nat) (ask : Option Origin) (t : Tlp) : (presentTunnel s cid src ask t).dob = s.dob := (presentTunnel_keeps (mk := 2048) (Keeps.refl s) (by decide)).dob (by decide)
@[simp] theorem presentTunnel_mgmt (s : State) (cid : Nat) (src : Nat) (ask : Option Origin) (t : Tlp) : (presentTunnel s cid src ask t).mgmt = s.mgmt := (presentTunnel_keeps (mk := 2048) (Keeps.refl s) (by decide)).mgmt (by decide)
@[simp] theorem presentTunnel_vault (s : State) (cid : Nat) (src : Nat) (ask : Option Origin) (t : Tlp) : (presentTunnel s cid src ask t).vault = s.vault := (presentTunnel_keeps (mk := 2048) (Keeps.refl s) (by decide)).vault (by decide)
@[simp] theorem presentTunnel_obs (s : State) (cid : Nat) (src : Nat) (ask : Option Origin) (t : Tlp) : (presentTunnel s cid src ask t).obs = s.obs := (presentTunnel_keeps (mk := 2048) (Keeps.refl s) (by decide)).obs (by decide)
@[simp] theorem presentTunnel_host (s : State) (cid : Nat) (src : Nat) (ask : Option Origin) (t : Tlp) : (presentTunnel s cid src ask t).host = s.host := (presentTunnel_keeps (mk := 2048) (Keeps.refl s) (by decide)).host (by decide)
@[simp] theorem presentTunnel_beam (s : State) (cid : Nat) (src : Nat) (ask : Option Origin) (t : Tlp) : (presentTunnel s cid src ask t).beam = s.beam := (presentTunnel_keeps (mk := 2048) (Keeps.refl s) (by decide)).beam (by decide)

@[simp] theorem presentCompletion_pending (s : State) (cid : Nat) (seq : Nat) (tag : Nat) (status : Nat) (offset : Nat) (data : List Byte) : (presentCompletion s cid seq tag status offset data).pending = s.pending := (presentCompletion_keeps (mk := 2048) (Keeps.refl s) (by decide)).pending
@[simp] theorem presentCompletion_now (s : State) (cid : Nat) (seq : Nat) (tag : Nat) (status : Nat) (offset : Nat) (data : List Byte) : (presentCompletion s cid seq tag status offset data).now = s.now := (presentCompletion_keeps (mk := 2048) (Keeps.refl s) (by decide)).now
@[simp] theorem presentCompletion_ft (s : State) (cid : Nat) (seq : Nat) (tag : Nat) (status : Nat) (offset : Nat) (data : List Byte) : (presentCompletion s cid seq tag status offset data).ft = s.ft := (presentCompletion_keeps (mk := 2048) (Keeps.refl s) (by decide)).ft (by decide)
@[simp] theorem presentCompletion_cfg (s : State) (cid : Nat) (seq : Nat) (tag : Nat) (status : Nat) (offset : Nat) (data : List Byte) : (presentCompletion s cid seq tag status offset data).cfg = s.cfg := (presentCompletion_keeps (mk := 2048) (Keeps.refl s) (by decide)).cfg (by decide)
@[simp] theorem presentCompletion_flash (s : State) (cid : Nat) (seq : Nat) (tag : Nat) (status : Nat) (offset : Nat) (data : List Byte) : (presentCompletion s cid seq tag status offset data).flash = s.flash := (presentCompletion_keeps (mk := 2048) (Keeps.refl s) (by decide)).flash (by decide)
@[simp] theorem presentCompletion_module (s : State) (cid : Nat) (seq : Nat) (tag : Nat) (status : Nat) (offset : Nat) (data : List Byte) : (presentCompletion s cid seq tag status offset data).module = s.module := (presentCompletion_keeps (mk := 2048) (Keeps.refl s) (by decide)).module (by decide)
@[simp] theorem presentCompletion_power (s : State) (cid : Nat) (seq : Nat) (tag : Nat) (status : Nat) (offset : Nat) (data : List Byte) : (presentCompletion s cid seq tag status offset data).power = s.power := (presentCompletion_keeps (mk := 2048) (Keeps.refl s) (by decide)).power (by decide)
@[simp] theorem presentCompletion_gov (s : State) (cid : Nat) (seq : Nat) (tag : Nat) (status : Nat) (offset : Nat) (data : List Byte) : (presentCompletion s cid seq tag status offset data).gov = s.gov := (presentCompletion_keeps (mk := 2048) (Keeps.refl s) (by decide)).gov (by decide)
@[simp] theorem presentCompletion_lanes (s : State) (cid : Nat) (seq : Nat) (tag : Nat) (status : Nat) (offset : Nat) (data : List Byte) : (presentCompletion s cid seq tag status offset data).lanes = s.lanes := (presentCompletion_keeps (mk := 2048) (Keeps.refl s) (by decide)).lanes (by decide)
@[simp] theorem presentCompletion_weft (s : State) (cid : Nat) (seq : Nat) (tag : Nat) (status : Nat) (offset : Nat) (data : List Byte) : (presentCompletion s cid seq tag status offset data).weft = s.weft := (presentCompletion_keeps (mk := 2048) (Keeps.refl s) (by decide)).weft (by decide)
@[simp] theorem presentCompletion_warp (s : State) (cid : Nat) (seq : Nat) (tag : Nat) (status : Nat) (offset : Nat) (data : List Byte) : (presentCompletion s cid seq tag status offset data).warp = s.warp := (presentCompletion_keeps (mk := 2048) (Keeps.refl s) (by decide)).warp (by decide)
@[simp] theorem presentCompletion_loom (s : State) (cid : Nat) (seq : Nat) (tag : Nat) (status : Nat) (offset : Nat) (data : List Byte) : (presentCompletion s cid seq tag status offset data).loom = s.loom := (presentCompletion_keeps (mk := 2048) (Keeps.refl s) (by decide)).loom (by decide)
@[simp] theorem presentCompletion_fab (s : State) (cid : Nat) (seq : Nat) (tag : Nat) (status : Nat) (offset : Nat) (data : List Byte) : (presentCompletion s cid seq tag status offset data).fab = s.fab := (presentCompletion_keeps (mk := 2048) (Keeps.refl s) (by decide)).fab (by decide)
@[simp] theorem presentCompletion_win (s : State) (cid : Nat) (seq : Nat) (tag : Nat) (status : Nat) (offset : Nat) (data : List Byte) : (presentCompletion s cid seq tag status offset data).win = s.win := (presentCompletion_keeps (mk := 2048) (Keeps.refl s) (by decide)).win (by decide)
@[simp] theorem presentCompletion_eng (s : State) (cid : Nat) (seq : Nat) (tag : Nat) (status : Nat) (offset : Nat) (data : List Byte) : (presentCompletion s cid seq tag status offset data).eng = s.eng := (presentCompletion_keeps (mk := 2048) (Keeps.refl s) (by decide)).eng (by decide)
@[simp] theorem presentCompletion_hed (s : State) (cid : Nat) (seq : Nat) (tag : Nat) (status : Nat) (offset : Nat) (data : List Byte) : (presentCompletion s cid seq tag status offset data).hed = s.hed := (presentCompletion_keeps (mk := 2048) (Keeps.refl s) (by decide)).hed (by decide)
@[simp] theorem presentCompletion_sel (s : State) (cid : Nat) (seq : Nat) (tag : Nat) (status : Nat) (offset : Nat) (data : List Byte) : (presentCompletion s cid seq tag status offset data).sel = s.sel := (presentCompletion_keeps (mk := 2048) (Keeps.refl s) (by decide)).sel (by decide)
@[simp] theorem presentCompletion_twin (s : State) (cid : Nat) (seq : Nat) (tag : Nat) (status : Nat) (offset : Nat) (data : List Byte) : (presentCompletion s cid seq tag status offset data).twin = s.twin := (presentCompletion_keeps (mk := 2048) (Keeps.refl s) (by decide)).twin (by decide)
@[simp] theorem presentCompletion_dob (s : State) (cid : Nat) (seq : Nat) (tag : Nat) (status : Nat) (offset : Nat) (data : List Byte) : (presentCompletion s cid seq tag status offset data).dob = s.dob := (presentCompletion_keeps (mk := 2048) (Keeps.refl s) (by decide)).dob (by decide)
@[simp] theorem presentCompletion_mgmt (s : State) (cid : Nat) (seq : Nat) (tag : Nat) (status : Nat) (offset : Nat) (data : List Byte) : (presentCompletion s cid seq tag status offset data).mgmt = s.mgmt := (presentCompletion_keeps (mk := 2048) (Keeps.refl s) (by decide)).mgmt (by decide)
@[simp] theorem presentCompletion_vault (s : State) (cid : Nat) (seq : Nat) (tag : Nat) (status : Nat) (offset : Nat) (data : List Byte) : (presentCompletion s cid seq tag status offset data).vault = s.vault := (presentCompletion_keeps (mk := 2048) (Keeps.refl s) (by decide)).vault (by decide)
@[simp] theorem presentCompletion_obs (s : State) (cid : Nat) (seq : Nat) (tag : Nat) (status : Nat) (offset : Nat) (data : List Byte) : (presentCompletion s cid seq tag status offset data).obs = s.obs := (presentCompletion_keeps (mk := 2048) (Keeps.refl s) (by decide)).obs (by decide)
@[simp] theorem presentCompletion_host (s : State) (cid : Nat) (seq : Nat) (tag : Nat) (status : Nat) (offset : Nat) (data : List Byte) : (presentCompletion s cid seq tag status offset data).host = s.host := (presentCompletion_keeps (mk := 2048) (Keeps.refl s) (by decide)).host (by decide)
@[simp] theorem presentCompletion_beam (s : State) (cid : Nat) (seq : Nat) (tag : Nat) (status : Nat) (offset : Nat) (data : List Byte) : (presentCompletion s cid seq tag status offset data).beam = s.beam := (presentCompletion_keeps (mk := 2048) (Keeps.refl s) (by decide)).beam (by decide)

@[simp] theorem winDrain_pending (s : State) (w : Nat) : (winDrain s w).pending = s.pending := (winDrain_keeps (mk := 4096) (Keeps.refl s) (by decide)).pending
@[simp] theorem winDrain_now (s : State) (w : Nat) : (winDrain s w).now = s.now := (winDrain_keeps (mk := 4096) (Keeps.refl s) (by decide)).now
@[simp] theorem winDrain_ft (s : State) (w : Nat) : (winDrain s w).ft = s.ft := (winDrain_keeps (mk := 4096) (Keeps.refl s) (by decide)).ft (by decide)
@[simp] theorem winDrain_cfg (s : State) (w : Nat) : (winDrain s w).cfg = s.cfg := (winDrain_keeps (mk := 4096) (Keeps.refl s) (by decide)).cfg (by decide)
@[simp] theorem winDrain_flash (s : State) (w : Nat) : (winDrain s w).flash = s.flash := (winDrain_keeps (mk := 4096) (Keeps.refl s) (by decide)).flash (by decide)
@[simp] theorem winDrain_module (s : State) (w : Nat) : (winDrain s w).module = s.module := (winDrain_keeps (mk := 4096) (Keeps.refl s) (by decide)).module (by decide)
@[simp] theorem winDrain_power (s : State) (w : Nat) : (winDrain s w).power = s.power := (winDrain_keeps (mk := 4096) (Keeps.refl s) (by decide)).power (by decide)
@[simp] theorem winDrain_gov (s : State) (w : Nat) : (winDrain s w).gov = s.gov := (winDrain_keeps (mk := 4096) (Keeps.refl s) (by decide)).gov (by decide)
@[simp] theorem winDrain_lanes (s : State) (w : Nat) : (winDrain s w).lanes = s.lanes := (winDrain_keeps (mk := 4096) (Keeps.refl s) (by decide)).lanes (by decide)
@[simp] theorem winDrain_weft (s : State) (w : Nat) : (winDrain s w).weft = s.weft := (winDrain_keeps (mk := 4096) (Keeps.refl s) (by decide)).weft (by decide)
@[simp] theorem winDrain_warp (s : State) (w : Nat) : (winDrain s w).warp = s.warp := (winDrain_keeps (mk := 4096) (Keeps.refl s) (by decide)).warp (by decide)
@[simp] theorem winDrain_loom (s : State) (w : Nat) : (winDrain s w).loom = s.loom := (winDrain_keeps (mk := 4096) (Keeps.refl s) (by decide)).loom (by decide)
@[simp] theorem winDrain_fab (s : State) (w : Nat) : (winDrain s w).fab = s.fab := (winDrain_keeps (mk := 4096) (Keeps.refl s) (by decide)).fab (by decide)
@[simp] theorem winDrain_shu (s : State) (w : Nat) : (winDrain s w).shu = s.shu := (winDrain_keeps (mk := 4096) (Keeps.refl s) (by decide)).shu (by decide)
@[simp] theorem winDrain_eng (s : State) (w : Nat) : (winDrain s w).eng = s.eng := (winDrain_keeps (mk := 4096) (Keeps.refl s) (by decide)).eng (by decide)
@[simp] theorem winDrain_hed (s : State) (w : Nat) : (winDrain s w).hed = s.hed := (winDrain_keeps (mk := 4096) (Keeps.refl s) (by decide)).hed (by decide)
@[simp] theorem winDrain_sel (s : State) (w : Nat) : (winDrain s w).sel = s.sel := (winDrain_keeps (mk := 4096) (Keeps.refl s) (by decide)).sel (by decide)
@[simp] theorem winDrain_twin (s : State) (w : Nat) : (winDrain s w).twin = s.twin := (winDrain_keeps (mk := 4096) (Keeps.refl s) (by decide)).twin (by decide)
@[simp] theorem winDrain_dob (s : State) (w : Nat) : (winDrain s w).dob = s.dob := (winDrain_keeps (mk := 4096) (Keeps.refl s) (by decide)).dob (by decide)
@[simp] theorem winDrain_mgmt (s : State) (w : Nat) : (winDrain s w).mgmt = s.mgmt := (winDrain_keeps (mk := 4096) (Keeps.refl s) (by decide)).mgmt (by decide)
@[simp] theorem winDrain_vault (s : State) (w : Nat) : (winDrain s w).vault = s.vault := (winDrain_keeps (mk := 4096) (Keeps.refl s) (by decide)).vault (by decide)
@[simp] theorem winDrain_obs (s : State) (w : Nat) : (winDrain s w).obs = s.obs := (winDrain_keeps (mk := 4096) (Keeps.refl s) (by decide)).obs (by decide)
@[simp] theorem winDrain_host (s : State) (w : Nat) : (winDrain s w).host = s.host := (winDrain_keeps (mk := 4096) (Keeps.refl s) (by decide)).host (by decide)
@[simp] theorem winDrain_beam (s : State) (w : Nat) : (winDrain s w).beam = s.beam := (winDrain_keeps (mk := 4096) (Keeps.refl s) (by decide)).beam (by decide)

@[simp] theorem cacheAnswer_pending (s : State) (w : Nat) (cid : Nat) (seq : Nat) (status : Nat) (data : List Byte) : (cacheAnswer s w cid seq status data).pending = s.pending := (cacheAnswer_keeps (mk := 7371648) (Keeps.refl s) (by decide)).pending
@[simp] theorem cacheAnswer_now (s : State) (w : Nat) (cid : Nat) (seq : Nat) (status : Nat) (data : List Byte) : (cacheAnswer s w cid seq status data).now = s.now := (cacheAnswer_keeps (mk := 7371648) (Keeps.refl s) (by decide)).now
@[simp] theorem cacheAnswer_ft (s : State) (w : Nat) (cid : Nat) (seq : Nat) (status : Nat) (data : List Byte) : (cacheAnswer s w cid seq status data).ft = s.ft := (cacheAnswer_keeps (mk := 7371648) (Keeps.refl s) (by decide)).ft (by decide)
@[simp] theorem cacheAnswer_cfg (s : State) (w : Nat) (cid : Nat) (seq : Nat) (status : Nat) (data : List Byte) : (cacheAnswer s w cid seq status data).cfg = s.cfg := (cacheAnswer_keeps (mk := 7371648) (Keeps.refl s) (by decide)).cfg (by decide)
@[simp] theorem cacheAnswer_flash (s : State) (w : Nat) (cid : Nat) (seq : Nat) (status : Nat) (data : List Byte) : (cacheAnswer s w cid seq status data).flash = s.flash := (cacheAnswer_keeps (mk := 7371648) (Keeps.refl s) (by decide)).flash (by decide)
@[simp] theorem cacheAnswer_module (s : State) (w : Nat) (cid : Nat) (seq : Nat) (status : Nat) (data : List Byte) : (cacheAnswer s w cid seq status data).module = s.module := (cacheAnswer_keeps (mk := 7371648) (Keeps.refl s) (by decide)).module (by decide)
@[simp] theorem cacheAnswer_power (s : State) (w : Nat) (cid : Nat) (seq : Nat) (status : Nat) (data : List Byte) : (cacheAnswer s w cid seq status data).power = s.power := (cacheAnswer_keeps (mk := 7371648) (Keeps.refl s) (by decide)).power (by decide)
@[simp] theorem cacheAnswer_gov (s : State) (w : Nat) (cid : Nat) (seq : Nat) (status : Nat) (data : List Byte) : (cacheAnswer s w cid seq status data).gov = s.gov := (cacheAnswer_keeps (mk := 7371648) (Keeps.refl s) (by decide)).gov (by decide)
@[simp] theorem cacheAnswer_lanes (s : State) (w : Nat) (cid : Nat) (seq : Nat) (status : Nat) (data : List Byte) : (cacheAnswer s w cid seq status data).lanes = s.lanes := (cacheAnswer_keeps (mk := 7371648) (Keeps.refl s) (by decide)).lanes (by decide)
@[simp] theorem cacheAnswer_fab (s : State) (w : Nat) (cid : Nat) (seq : Nat) (status : Nat) (data : List Byte) : (cacheAnswer s w cid seq status data).fab = s.fab := (cacheAnswer_keeps (mk := 7371648) (Keeps.refl s) (by decide)).fab (by decide)
@[simp] theorem cacheAnswer_sel (s : State) (w : Nat) (cid : Nat) (seq : Nat) (status : Nat) (data : List Byte) : (cacheAnswer s w cid seq status data).sel = s.sel := (cacheAnswer_keeps (mk := 7371648) (Keeps.refl s) (by decide)).sel (by decide)
@[simp] theorem cacheAnswer_twin (s : State) (w : Nat) (cid : Nat) (seq : Nat) (status : Nat) (data : List Byte) : (cacheAnswer s w cid seq status data).twin = s.twin := (cacheAnswer_keeps (mk := 7371648) (Keeps.refl s) (by decide)).twin (by decide)
@[simp] theorem cacheAnswer_dob (s : State) (w : Nat) (cid : Nat) (seq : Nat) (status : Nat) (data : List Byte) : (cacheAnswer s w cid seq status data).dob = s.dob := (cacheAnswer_keeps (mk := 7371648) (Keeps.refl s) (by decide)).dob (by decide)
@[simp] theorem cacheAnswer_mgmt (s : State) (w : Nat) (cid : Nat) (seq : Nat) (status : Nat) (data : List Byte) : (cacheAnswer s w cid seq status data).mgmt = s.mgmt := (cacheAnswer_keeps (mk := 7371648) (Keeps.refl s) (by decide)).mgmt (by decide)
@[simp] theorem cacheAnswer_vault (s : State) (w : Nat) (cid : Nat) (seq : Nat) (status : Nat) (data : List Byte) : (cacheAnswer s w cid seq status data).vault = s.vault := (cacheAnswer_keeps (mk := 7371648) (Keeps.refl s) (by decide)).vault (by decide)

@[simp] theorem enqueueTlp_pending (s : State) (d : Nat) (src : Nat) (o : Origin) (t : Tlp) (epoch : Nat) (ord : Nat) : (enqueueTlp s d src o t epoch ord).1.pending = s.pending := (enqueueTlp_keeps (mk := 7365504) (Keeps.refl s) (by decide)).pending
@[simp] theorem enqueueTlp_now (s : State) (d : Nat) (src : Nat) (o : Origin) (t : Tlp) (epoch : Nat) (ord : Nat) : (enqueueTlp s d src o t epoch ord).1.now = s.now := (enqueueTlp_keeps (mk := 7365504) (Keeps.refl s) (by decide)).now
@[simp] theorem enqueueTlp_ft (s : State) (d : Nat) (src : Nat) (o : Origin) (t : Tlp) (epoch : Nat) (ord : Nat) : (enqueueTlp s d src o t epoch ord).1.ft = s.ft := (enqueueTlp_keeps (mk := 7365504) (Keeps.refl s) (by decide)).ft (by decide)
@[simp] theorem enqueueTlp_cfg (s : State) (d : Nat) (src : Nat) (o : Origin) (t : Tlp) (epoch : Nat) (ord : Nat) : (enqueueTlp s d src o t epoch ord).1.cfg = s.cfg := (enqueueTlp_keeps (mk := 7365504) (Keeps.refl s) (by decide)).cfg (by decide)
@[simp] theorem enqueueTlp_flash (s : State) (d : Nat) (src : Nat) (o : Origin) (t : Tlp) (epoch : Nat) (ord : Nat) : (enqueueTlp s d src o t epoch ord).1.flash = s.flash := (enqueueTlp_keeps (mk := 7365504) (Keeps.refl s) (by decide)).flash (by decide)
@[simp] theorem enqueueTlp_module (s : State) (d : Nat) (src : Nat) (o : Origin) (t : Tlp) (epoch : Nat) (ord : Nat) : (enqueueTlp s d src o t epoch ord).1.module = s.module := (enqueueTlp_keeps (mk := 7365504) (Keeps.refl s) (by decide)).module (by decide)
@[simp] theorem enqueueTlp_power (s : State) (d : Nat) (src : Nat) (o : Origin) (t : Tlp) (epoch : Nat) (ord : Nat) : (enqueueTlp s d src o t epoch ord).1.power = s.power := (enqueueTlp_keeps (mk := 7365504) (Keeps.refl s) (by decide)).power (by decide)
@[simp] theorem enqueueTlp_gov (s : State) (d : Nat) (src : Nat) (o : Origin) (t : Tlp) (epoch : Nat) (ord : Nat) : (enqueueTlp s d src o t epoch ord).1.gov = s.gov := (enqueueTlp_keeps (mk := 7365504) (Keeps.refl s) (by decide)).gov (by decide)
@[simp] theorem enqueueTlp_lanes (s : State) (d : Nat) (src : Nat) (o : Origin) (t : Tlp) (epoch : Nat) (ord : Nat) : (enqueueTlp s d src o t epoch ord).1.lanes = s.lanes := (enqueueTlp_keeps (mk := 7365504) (Keeps.refl s) (by decide)).lanes (by decide)
@[simp] theorem enqueueTlp_fab (s : State) (d : Nat) (src : Nat) (o : Origin) (t : Tlp) (epoch : Nat) (ord : Nat) : (enqueueTlp s d src o t epoch ord).1.fab = s.fab := (enqueueTlp_keeps (mk := 7365504) (Keeps.refl s) (by decide)).fab (by decide)
@[simp] theorem enqueueTlp_shu (s : State) (d : Nat) (src : Nat) (o : Origin) (t : Tlp) (epoch : Nat) (ord : Nat) : (enqueueTlp s d src o t epoch ord).1.shu = s.shu := (enqueueTlp_keeps (mk := 7365504) (Keeps.refl s) (by decide)).shu (by decide)
@[simp] theorem enqueueTlp_win (s : State) (d : Nat) (src : Nat) (o : Origin) (t : Tlp) (epoch : Nat) (ord : Nat) : (enqueueTlp s d src o t epoch ord).1.win = s.win := (enqueueTlp_keeps (mk := 7365504) (Keeps.refl s) (by decide)).win (by decide)
@[simp] theorem enqueueTlp_sel (s : State) (d : Nat) (src : Nat) (o : Origin) (t : Tlp) (epoch : Nat) (ord : Nat) : (enqueueTlp s d src o t epoch ord).1.sel = s.sel := (enqueueTlp_keeps (mk := 7365504) (Keeps.refl s) (by decide)).sel (by decide)
@[simp] theorem enqueueTlp_twin (s : State) (d : Nat) (src : Nat) (o : Origin) (t : Tlp) (epoch : Nat) (ord : Nat) : (enqueueTlp s d src o t epoch ord).1.twin = s.twin := (enqueueTlp_keeps (mk := 7365504) (Keeps.refl s) (by decide)).twin (by decide)
@[simp] theorem enqueueTlp_dob (s : State) (d : Nat) (src : Nat) (o : Origin) (t : Tlp) (epoch : Nat) (ord : Nat) : (enqueueTlp s d src o t epoch ord).1.dob = s.dob := (enqueueTlp_keeps (mk := 7365504) (Keeps.refl s) (by decide)).dob (by decide)
@[simp] theorem enqueueTlp_mgmt (s : State) (d : Nat) (src : Nat) (o : Origin) (t : Tlp) (epoch : Nat) (ord : Nat) : (enqueueTlp s d src o t epoch ord).1.mgmt = s.mgmt := (enqueueTlp_keeps (mk := 7365504) (Keeps.refl s) (by decide)).mgmt (by decide)
@[simp] theorem enqueueTlp_vault (s : State) (d : Nat) (src : Nat) (o : Origin) (t : Tlp) (epoch : Nat) (ord : Nat) : (enqueueTlp s d src o t epoch ord).1.vault = s.vault := (enqueueTlp_keeps (mk := 7365504) (Keeps.refl s) (by decide)).vault (by decide)

@[simp] theorem storeChain_pending (s : State) (src : Nat) (size : Nat) (mcast : Bool) (credit : Option (Nat × Nat × Nat)) : (storeChain s src size mcast credit).1.pending = s.pending := (storeChain_keeps (mk := 7365504) (Keeps.refl s) (by decide)).pending
@[simp] theorem storeChain_now (s : State) (src : Nat) (size : Nat) (mcast : Bool) (credit : Option (Nat × Nat × Nat)) : (storeChain s src size mcast credit).1.now = s.now := (storeChain_keeps (mk := 7365504) (Keeps.refl s) (by decide)).now
@[simp] theorem storeChain_ft (s : State) (src : Nat) (size : Nat) (mcast : Bool) (credit : Option (Nat × Nat × Nat)) : (storeChain s src size mcast credit).1.ft = s.ft := (storeChain_keeps (mk := 7365504) (Keeps.refl s) (by decide)).ft (by decide)
@[simp] theorem storeChain_cfg (s : State) (src : Nat) (size : Nat) (mcast : Bool) (credit : Option (Nat × Nat × Nat)) : (storeChain s src size mcast credit).1.cfg = s.cfg := (storeChain_keeps (mk := 7365504) (Keeps.refl s) (by decide)).cfg (by decide)
@[simp] theorem storeChain_flash (s : State) (src : Nat) (size : Nat) (mcast : Bool) (credit : Option (Nat × Nat × Nat)) : (storeChain s src size mcast credit).1.flash = s.flash := (storeChain_keeps (mk := 7365504) (Keeps.refl s) (by decide)).flash (by decide)
@[simp] theorem storeChain_module (s : State) (src : Nat) (size : Nat) (mcast : Bool) (credit : Option (Nat × Nat × Nat)) : (storeChain s src size mcast credit).1.module = s.module := (storeChain_keeps (mk := 7365504) (Keeps.refl s) (by decide)).module (by decide)
@[simp] theorem storeChain_power (s : State) (src : Nat) (size : Nat) (mcast : Bool) (credit : Option (Nat × Nat × Nat)) : (storeChain s src size mcast credit).1.power = s.power := (storeChain_keeps (mk := 7365504) (Keeps.refl s) (by decide)).power (by decide)
@[simp] theorem storeChain_gov (s : State) (src : Nat) (size : Nat) (mcast : Bool) (credit : Option (Nat × Nat × Nat)) : (storeChain s src size mcast credit).1.gov = s.gov := (storeChain_keeps (mk := 7365504) (Keeps.refl s) (by decide)).gov (by decide)
@[simp] theorem storeChain_lanes (s : State) (src : Nat) (size : Nat) (mcast : Bool) (credit : Option (Nat × Nat × Nat)) : (storeChain s src size mcast credit).1.lanes = s.lanes := (storeChain_keeps (mk := 7365504) (Keeps.refl s) (by decide)).lanes (by decide)
@[simp] theorem storeChain_fab (s : State) (src : Nat) (size : Nat) (mcast : Bool) (credit : Option (Nat × Nat × Nat)) : (storeChain s src size mcast credit).1.fab = s.fab := (storeChain_keeps (mk := 7365504) (Keeps.refl s) (by decide)).fab (by decide)
@[simp] theorem storeChain_shu (s : State) (src : Nat) (size : Nat) (mcast : Bool) (credit : Option (Nat × Nat × Nat)) : (storeChain s src size mcast credit).1.shu = s.shu := (storeChain_keeps (mk := 7365504) (Keeps.refl s) (by decide)).shu (by decide)
@[simp] theorem storeChain_win (s : State) (src : Nat) (size : Nat) (mcast : Bool) (credit : Option (Nat × Nat × Nat)) : (storeChain s src size mcast credit).1.win = s.win := (storeChain_keeps (mk := 7365504) (Keeps.refl s) (by decide)).win (by decide)
@[simp] theorem storeChain_sel (s : State) (src : Nat) (size : Nat) (mcast : Bool) (credit : Option (Nat × Nat × Nat)) : (storeChain s src size mcast credit).1.sel = s.sel := (storeChain_keeps (mk := 7365504) (Keeps.refl s) (by decide)).sel (by decide)
@[simp] theorem storeChain_twin (s : State) (src : Nat) (size : Nat) (mcast : Bool) (credit : Option (Nat × Nat × Nat)) : (storeChain s src size mcast credit).1.twin = s.twin := (storeChain_keeps (mk := 7365504) (Keeps.refl s) (by decide)).twin (by decide)
@[simp] theorem storeChain_dob (s : State) (src : Nat) (size : Nat) (mcast : Bool) (credit : Option (Nat × Nat × Nat)) : (storeChain s src size mcast credit).1.dob = s.dob := (storeChain_keeps (mk := 7365504) (Keeps.refl s) (by decide)).dob (by decide)
@[simp] theorem storeChain_mgmt (s : State) (src : Nat) (size : Nat) (mcast : Bool) (credit : Option (Nat × Nat × Nat)) : (storeChain s src size mcast credit).1.mgmt = s.mgmt := (storeChain_keeps (mk := 7365504) (Keeps.refl s) (by decide)).mgmt (by decide)
@[simp] theorem storeChain_vault (s : State) (src : Nat) (size : Nat) (mcast : Bool) (credit : Option (Nat × Nat × Nat)) : (storeChain s src size mcast credit).1.vault = s.vault := (storeChain_keeps (mk := 7365504) (Keeps.refl s) (by decide)).vault (by decide)

@[simp] theorem revokeWindows_pending (s : State) (v : Nat) : (revokeWindows s v).1.pending = s.pending := (revokeWindows_keeps (mk := 1052672) (Keeps.refl s) (by decide)).pending
@[simp] theorem revokeWindows_now (s : State) (v : Nat) : (revokeWindows s v).1.now = s.now := (revokeWindows_keeps (mk := 1052672) (Keeps.refl s) (by decide)).now
@[simp] theorem revokeWindows_ft (s : State) (v : Nat) : (revokeWindows s v).1.ft = s.ft := (revokeWindows_keeps (mk := 1052672) (Keeps.refl s) (by decide)).ft (by decide)
@[simp] theorem revokeWindows_cfg (s : State) (v : Nat) : (revokeWindows s v).1.cfg = s.cfg := (revokeWindows_keeps (mk := 1052672) (Keeps.refl s) (by decide)).cfg (by decide)
@[simp] theorem revokeWindows_flash (s : State) (v : Nat) : (revokeWindows s v).1.flash = s.flash := (revokeWindows_keeps (mk := 1052672) (Keeps.refl s) (by decide)).flash (by decide)
@[simp] theorem revokeWindows_module (s : State) (v : Nat) : (revokeWindows s v).1.module = s.module := (revokeWindows_keeps (mk := 1052672) (Keeps.refl s) (by decide)).module (by decide)
@[simp] theorem revokeWindows_power (s : State) (v : Nat) : (revokeWindows s v).1.power = s.power := (revokeWindows_keeps (mk := 1052672) (Keeps.refl s) (by decide)).power (by decide)
@[simp] theorem revokeWindows_gov (s : State) (v : Nat) : (revokeWindows s v).1.gov = s.gov := (revokeWindows_keeps (mk := 1052672) (Keeps.refl s) (by decide)).gov (by decide)
@[simp] theorem revokeWindows_lanes (s : State) (v : Nat) : (revokeWindows s v).1.lanes = s.lanes := (revokeWindows_keeps (mk := 1052672) (Keeps.refl s) (by decide)).lanes (by decide)
@[simp] theorem revokeWindows_weft (s : State) (v : Nat) : (revokeWindows s v).1.weft = s.weft := (revokeWindows_keeps (mk := 1052672) (Keeps.refl s) (by decide)).weft (by decide)
@[simp] theorem revokeWindows_warp (s : State) (v : Nat) : (revokeWindows s v).1.warp = s.warp := (revokeWindows_keeps (mk := 1052672) (Keeps.refl s) (by decide)).warp (by decide)
@[simp] theorem revokeWindows_loom (s : State) (v : Nat) : (revokeWindows s v).1.loom = s.loom := (revokeWindows_keeps (mk := 1052672) (Keeps.refl s) (by decide)).loom (by decide)
@[simp] theorem revokeWindows_fab (s : State) (v : Nat) : (revokeWindows s v).1.fab = s.fab := (revokeWindows_keeps (mk := 1052672) (Keeps.refl s) (by decide)).fab (by decide)
@[simp] theorem revokeWindows_shu (s : State) (v : Nat) : (revokeWindows s v).1.shu = s.shu := (revokeWindows_keeps (mk := 1052672) (Keeps.refl s) (by decide)).shu (by decide)
@[simp] theorem revokeWindows_eng (s : State) (v : Nat) : (revokeWindows s v).1.eng = s.eng := (revokeWindows_keeps (mk := 1052672) (Keeps.refl s) (by decide)).eng (by decide)
@[simp] theorem revokeWindows_hed (s : State) (v : Nat) : (revokeWindows s v).1.hed = s.hed := (revokeWindows_keeps (mk := 1052672) (Keeps.refl s) (by decide)).hed (by decide)
@[simp] theorem revokeWindows_sel (s : State) (v : Nat) : (revokeWindows s v).1.sel = s.sel := (revokeWindows_keeps (mk := 1052672) (Keeps.refl s) (by decide)).sel (by decide)
@[simp] theorem revokeWindows_twin (s : State) (v : Nat) : (revokeWindows s v).1.twin = s.twin := (revokeWindows_keeps (mk := 1052672) (Keeps.refl s) (by decide)).twin (by decide)
@[simp] theorem revokeWindows_dob (s : State) (v : Nat) : (revokeWindows s v).1.dob = s.dob := (revokeWindows_keeps (mk := 1052672) (Keeps.refl s) (by decide)).dob (by decide)
@[simp] theorem revokeWindows_mgmt (s : State) (v : Nat) : (revokeWindows s v).1.mgmt = s.mgmt := (revokeWindows_keeps (mk := 1052672) (Keeps.refl s) (by decide)).mgmt (by decide)
@[simp] theorem revokeWindows_vault (s : State) (v : Nat) : (revokeWindows s v).1.vault = s.vault := (revokeWindows_keeps (mk := 1052672) (Keeps.refl s) (by decide)).vault (by decide)
@[simp] theorem revokeWindows_host (s : State) (v : Nat) : (revokeWindows s v).1.host = s.host := (revokeWindows_keeps (mk := 1052672) (Keeps.refl s) (by decide)).host (by decide)
@[simp] theorem revokeWindows_beam (s : State) (v : Nat) : (revokeWindows s v).1.beam = s.beam := (revokeWindows_keeps (mk := 1052672) (Keeps.refl s) (by decide)).beam (by decide)

@[simp] theorem requestAnswered_pending (s : State) (p : Nat) (r : OutReq) (t : Tlp) : (requestAnswered s p r t).1.pending = s.pending := (requestAnswered_keeps (mk := 7365376) (Keeps.refl s) (by decide)).pending
@[simp] theorem requestAnswered_now (s : State) (p : Nat) (r : OutReq) (t : Tlp) : (requestAnswered s p r t).1.now = s.now := (requestAnswered_keeps (mk := 7365376) (Keeps.refl s) (by decide)).now
@[simp] theorem requestAnswered_ft (s : State) (p : Nat) (r : OutReq) (t : Tlp) : (requestAnswered s p r t).1.ft = s.ft := (requestAnswered_keeps (mk := 7365376) (Keeps.refl s) (by decide)).ft (by decide)
@[simp] theorem requestAnswered_cfg (s : State) (p : Nat) (r : OutReq) (t : Tlp) : (requestAnswered s p r t).1.cfg = s.cfg := (requestAnswered_keeps (mk := 7365376) (Keeps.refl s) (by decide)).cfg (by decide)
@[simp] theorem requestAnswered_flash (s : State) (p : Nat) (r : OutReq) (t : Tlp) : (requestAnswered s p r t).1.flash = s.flash := (requestAnswered_keeps (mk := 7365376) (Keeps.refl s) (by decide)).flash (by decide)
@[simp] theorem requestAnswered_module (s : State) (p : Nat) (r : OutReq) (t : Tlp) : (requestAnswered s p r t).1.module = s.module := (requestAnswered_keeps (mk := 7365376) (Keeps.refl s) (by decide)).module (by decide)
@[simp] theorem requestAnswered_power (s : State) (p : Nat) (r : OutReq) (t : Tlp) : (requestAnswered s p r t).1.power = s.power := (requestAnswered_keeps (mk := 7365376) (Keeps.refl s) (by decide)).power (by decide)
@[simp] theorem requestAnswered_gov (s : State) (p : Nat) (r : OutReq) (t : Tlp) : (requestAnswered s p r t).1.gov = s.gov := (requestAnswered_keeps (mk := 7365376) (Keeps.refl s) (by decide)).gov (by decide)
@[simp] theorem requestAnswered_lanes (s : State) (p : Nat) (r : OutReq) (t : Tlp) : (requestAnswered s p r t).1.lanes = s.lanes := (requestAnswered_keeps (mk := 7365376) (Keeps.refl s) (by decide)).lanes (by decide)
@[simp] theorem requestAnswered_weft (s : State) (p : Nat) (r : OutReq) (t : Tlp) : (requestAnswered s p r t).1.weft = s.weft := (requestAnswered_keeps (mk := 7365376) (Keeps.refl s) (by decide)).weft (by decide)
@[simp] theorem requestAnswered_fab (s : State) (p : Nat) (r : OutReq) (t : Tlp) : (requestAnswered s p r t).1.fab = s.fab := (requestAnswered_keeps (mk := 7365376) (Keeps.refl s) (by decide)).fab (by decide)
@[simp] theorem requestAnswered_shu (s : State) (p : Nat) (r : OutReq) (t : Tlp) : (requestAnswered s p r t).1.shu = s.shu := (requestAnswered_keeps (mk := 7365376) (Keeps.refl s) (by decide)).shu (by decide)
@[simp] theorem requestAnswered_win (s : State) (p : Nat) (r : OutReq) (t : Tlp) : (requestAnswered s p r t).1.win = s.win := (requestAnswered_keeps (mk := 7365376) (Keeps.refl s) (by decide)).win (by decide)
@[simp] theorem requestAnswered_sel (s : State) (p : Nat) (r : OutReq) (t : Tlp) : (requestAnswered s p r t).1.sel = s.sel := (requestAnswered_keeps (mk := 7365376) (Keeps.refl s) (by decide)).sel (by decide)
@[simp] theorem requestAnswered_twin (s : State) (p : Nat) (r : OutReq) (t : Tlp) : (requestAnswered s p r t).1.twin = s.twin := (requestAnswered_keeps (mk := 7365376) (Keeps.refl s) (by decide)).twin (by decide)
@[simp] theorem requestAnswered_dob (s : State) (p : Nat) (r : OutReq) (t : Tlp) : (requestAnswered s p r t).1.dob = s.dob := (requestAnswered_keeps (mk := 7365376) (Keeps.refl s) (by decide)).dob (by decide)
@[simp] theorem requestAnswered_mgmt (s : State) (p : Nat) (r : OutReq) (t : Tlp) : (requestAnswered s p r t).1.mgmt = s.mgmt := (requestAnswered_keeps (mk := 7365376) (Keeps.refl s) (by decide)).mgmt (by decide)
@[simp] theorem requestAnswered_vault (s : State) (p : Nat) (r : OutReq) (t : Tlp) : (requestAnswered s p r t).1.vault = s.vault := (requestAnswered_keeps (mk := 7365376) (Keeps.refl s) (by decide)).vault (by decide)

end Sys2Proof.Machine
end

