-- ==== Sys2Proof/Laws/Ops.lean ====
section
/-!
SUPPORT. What the shared operations do, said once: an accepted write, the loss of the feeds, and values read back after a change.
-/

namespace Sys2Proof.Machine

open Sys2Proof.Laws

/-! ### An accepted write -/

/-- A write that may act has its effect after its entry in the journal, and is answered with status 0. -/
theorem actWrite_done {s : State} {sess index sub v check : Nat} {refused done : State → State} (h : MayAct s sess index sub v)
    (hc : check = 0) : actWrite s sess index sub v check refused done =
      emit (done (journalAction s sess index sub v)) (.status sess index sub 0) := by
  obtain ⟨hp, hr⟩ := h
  simp [actWrite, hp, hr, hc]

/-- A write that its object's own check refuses is answered with that status. -/
theorem actWrite_refused {s : State} {sess index sub v check : Nat} {refused done : State → State} (h : MayAct s sess index sub v)
    (hc : check ≠ 0) : actWrite s sess index sub v check refused done = emit (refused s) (.status sess index sub check) := by
  obtain ⟨hp, hr⟩ := h
  simp [actWrite, hp, hr, hc]

@[simp] theorem onOne_one (f : State → State) (s : State) : onOne 1 f s = f s := rfl

/-! ### A report kept to a rate -/

/-- A rate-limited report is its report, or only a count. -/
theorem rateEvent_power {s : State} {c p g : Nat} {put : State → Nat → State} (h : ∀ u n, (put u n).power = u.power) :
    (rateEvent s c p g put).power = s.power := by
  simp only [rateEvent, apply_ite State.power, h, ite_self]

/-! ### The module's state -/

/-- A change of module state sets the state and its times, and nothing else of the module block. -/
theorem changeState_module {s : State} {new : ModState} {c : Nat} (h : s.module.state ≠ new) :
    (changeState s new c).module =
      { s.module with state := new, since := s.now, keeperSince := if new = .keeper then s.now else s.module.keeperSince } := by
  cases new <;> simp only [changeState, if_neg h]
  all_goals
    simp only [apply_ite State.module, putEvent_module, event_module, journalChange_module, ite_self]

theorem changeState_state (s : State) (new : ModState) (c : Nat) : (changeState s new c).module.state = new := by
  by_cases h : s.module.state = new
  · simp [changeState, h]
  · rw [changeState_module h]

/-- The degrading conditions are a matter of these blocks. -/
theorem degraded_congr {s t : State} (h1 : t.power = s.power) (h2 : t.gov = s.gov) (h3 : t.loom = s.loom) (h4 : t.weft = s.weft)
    (h5 : t.twin = s.twin) (h6 : t.cfg = s.cfg) : degraded t = degraded s := by
  cases s
  cases t
  dsimp only at h1 h2 h3 h4 h5 h6
  subst h1 h2 h3 h4 h5 h6
  rfl

@[simp] theorem degraded_changeState (s : State) (n : ModState) (c : Nat) : degraded (changeState s n c) = degraded s :=
  degraded_congr (by simp) (by simp) (by simp) (by simp) (by simp) (by simp)

/-- SERVICE or DEGRADED, by the conditions. -/
theorem health_service {s : State} {c : Nat} (h : s.module.state = .service) :
    (health s c).module.state = if degraded s then .degraded else .service := by
  unfold health
  rw [h]
  dsimp only
  split
  · exact changeState_state _ _ _
  · exact h

@[simp] theorem param_journalAction (s : State) (n i b v n' i' b' : Nat) :
    param (journalAction s n i b v) n' i' b' = param s n' i' b' := by
  simp [param, sessionOf]

/-! ### Feeds -/

/-- While a supply is kept, the loss of both feeds leaves the feeds' own registers. -/
theorem feedsLost_power {s : State} {c : Nat} (h : supplyUp s = true) : (feedsLost s c).power = s.power := by
  have hc : (coreLost s).power = s.power := by
    simp only [coreLost, noteCommit, pinsOnly]
    split <;> rfl
  have hs : supplyUp (coreLost s) = supplyUp s := by simp only [supplyUp, bothFeedsDown, hc]
  unfold feedsLost
  split
  · rfl
  · rfl
  · split
    · simp only
      split
      · simp [hc]
      · split
        · simp [hc]
        · next hn => exact absurd (hs.trans h) hn
    · rfl

@[simp] theorem supplyUp_feedEvent (s : State) (f : Feed) (c e : Nat) : supplyUp (feedEvent s f c e) = supplyUp s := by
  simp [supplyUp, bothFeedsDown]

/-- While a supply is kept, the release of PGOOD_x leaves the feeds' own registers. -/
theorem pgoodReleased_power {s : State} {f : Feed} {was : Bool} {c : Nat} (h : supplyUp s = true) :
    (pgoodReleased s f was c).power = s.power := by
  unfold pgoodReleased
  split
  · rw [feedsLost_power (by simpa using h)]
    simp
  · rfl

theorem supplyUp_of_feed {s : State} {f : Feed} (h : 2700 ≤ (feedOf s f).mv) : supplyUp s = true := by
  cases f <;> simp_all [supplyUp, feedOf]

/-- With a supply kept nothing is lost. -/
theorem suppliesChecked_kept {s : State} (h : supplyUp s = true) : suppliesChecked s = s := by
  unfold suppliesChecked
  split <;> simp [h]

theorem feedOf_of_power {s t : State} (h : t.power = s.power) (f : Feed) : feedOf t f = feedOf s f := by
  cases f <;> simp [feedOf, h]

@[simp] theorem feedOf_health (s : State) (c : Nat) (f : Feed) : feedOf (health s c) f = feedOf s f := feedOf_of_power (by simp) f
@[simp] theorem feedOf_feedEvent (s : State) (g : Feed) (c e : Nat) (f : Feed) : feedOf (feedEvent s g c e) f = feedOf s f :=
  feedOf_of_power (by simp) f
@[simp] theorem feedOf_feedCount (s : State) (g : Feed) (c : Nat) (f : Feed) : feedOf (feedCount s g c) f = feedOf s f :=
  feedOf_of_power (by simp) f

@[simp] theorem feedOf_journalAction (s : State) (a i b v : Nat) (f : Feed) : feedOf (journalAction s a i b v) f = feedOf s f :=
  feedOf_of_power (by simp) f
@[simp] theorem feedOf_emit (s : State) (e : Emit) (f : Feed) : feedOf (emit s e) f = feedOf s f := feedOf_of_power (by simp) f

theorem feedOf_pgoodReleased {s : State} {f : Feed} (h : 2700 ≤ (feedOf s f).mv) (was : Bool) (c : Nat) (g : Feed) :
    feedOf (pgoodReleased s f was c) g = feedOf s g := feedOf_of_power (pgoodReleased_power (supplyUp_of_feed h)) g

/-- A trip: COOLDOWN or LATCHED by the count, the cause, the gate and PGOOD_x off. -/
theorem feedOf_tripFeed {s : State} {f : Feed} {cause : Nat} (h : 2700 ≤ (feedOf s f).mv) : feedOf (tripFeed s f cause) f =
    { ((feedOf s f).gateOff s.now).enter s.now (if cfgv s 0x2003 (feedSub f) < (feedOf s f).trips + 1 then .latched else .cooldown)
      with trips := ((feedOf s f).trips + 1) % 256, lastTrip := cause } := by
  by_cases hl : cfgv s 0x2003 (feedSub f) < (feedOf s f).trips + 1 <;>
  · simp only [tripFeed, hl, if_true, if_false, feedOf_health]
    rw [feedOf_pgoodReleased (by simpa [FeedState.gateOff, FeedState.enter] using h)]
    simp [FeedState.gateOff, FeedState.enter]

theorem feedOf_tripFeed_other {s : State} {f : Feed} {cause : Nat} (h : 2700 ≤ (feedOf s f).mv) :
    feedOf (tripFeed s f cause) (otherFeed f) = feedOf s (otherFeed f) := by
  by_cases hl : cfgv s 0x2003 (feedSub f) < (feedOf s f).trips + 1 <;>
  · simp only [tripFeed, hl, if_true, if_false, feedOf_health]
    rw [feedOf_pgoodReleased (by simpa [FeedState.gateOff, FeedState.enter] using h)]
    simp

/-- A failure mark: FAILED, that mark, the gate and PGOOD_x off. -/
theorem feedOf_failFeed {s : State} {f : Feed} {mark : FailMark} {extra : Nat} (h : 2700 ≤ (feedOf s f).mv) :
    feedOf (failFeed s f mark extra) f = { ((feedOf s f).gateOff s.now).enter s.now .failed with
      gateFail := decide (mark = .gate) || (feedOf s f).gateFail, shortFail := decide (mark = .short) || (feedOf s f).shortFail,
      reverseFail := decide (mark = .reverse) || (feedOf s f).reverseFail } := by
  cases mark <;>
  · simp only [failFeed, feedOf_health]
    rw [feedOf_pgoodReleased (by simpa [FeedState.gateOff, FeedState.enter] using h)]
    simp [FeedState.gateOff, FeedState.enter]

/-! ### The governor -/

/-- The floor check moves only its own condition. -/
theorem floorCheck_gov (s : State) : ∃ b a, (floorCheck s).gov = { s.gov with belowFloor := b, atFloorSince := a } := by
  simp only [floorCheck]
  split
  · split
    · exact ⟨true, none, by simp⟩
    · exact ⟨_, _, rfl⟩
  · split
    · exact ⟨_, _, rfl⟩
    · exact ⟨_, _, rfl⟩

@[simp] theorem floorCheck_power (s : State) : (floorCheck s).power = s.power := by
  simp only [floorCheck, apply_ite State.power]
  simp

/-- A published capacity is in force and the loom rescales. -/
theorem publish_gov (s : State) (cap : Nat) : ∃ b a,
    (publish s cap).gov = { s.gov with capacity := cap, rescaling := true, belowFloor := b, atFloorSince := a } := by
  obtain ⟨b, a, h⟩ := floorCheck_gov { s with gov := { s.gov with capacity := cap, rescaling := true } }
  exact ⟨b, a, h⟩

@[simp] theorem publish_power (s : State) (cap : Nat) : (publish s cap).power = s.power := by simp [publish]

theorem unmetCheck_gov (s : State) (l : Nat) : ∃ u, (unmetCheck s l).gov = { s.gov with unmet := u } := by
  simp only [unmetCheck]
  split
  · exact ⟨_, rfl⟩
  · split
    · exact ⟨true, by simp⟩
    · exact ⟨_, rfl⟩

@[simp] theorem unmetCheck_power (s : State) (l : Nat) : (unmetCheck s l).power = s.power := by
  simp only [unmetCheck, apply_ite State.power]
  simp

/-- The end of a period moves only the floor's condition. -/
theorem floorPeriod_gov (s : State) : ∃ b a, (floorPeriod s).gov =
    { s.gov with belowFloor := b, atFloorSince := a, floorLowered := false } := by
  obtain ⟨b, a, h⟩ := floorCheck_gov s
  simp only [floorPeriod]
  split
  · exact ⟨false, none, by simp [floorCleared, h]⟩
  · exact ⟨b, a, by simp [h]⟩

@[simp] theorem floorPeriod_power (s : State) : (floorPeriod s).power = s.power := by
  simp only [floorPeriod, apply_ite State.power, floorCleared]
  simp

/-- What a period measures and computes. -/
theorem governorLimits_gov (s : State) (powerW stagePs : Nat) : (governorLimits s powerW stagePs).gov =
    { s.gov with feedW := feedLimitW s, powerW := powerW, stagePs := stagePs, periodAt := s.now
                 limit := (lowestLimit (feedLimitW s) s.gov.thermalW (cfgv s 0x2000 1)).2 } := by
  simp only [governorLimits, apply_ite State.gov, event_gov, count_gov, ite_self]

@[simp] theorem governorLimits_power (s : State) (powerW stagePs : Nat) : (governorLimits s powerW stagePs).power = s.power := by
  simp only [governorLimits, apply_ite State.power, event_power, count_power, ite_self]

@[simp] theorem governorLimits_cfg (s : State) (powerW stagePs : Nat) : (governorLimits s powerW stagePs).cfg = s.cfg := by
  simp only [governorLimits, apply_ite State.cfg, event_cfg, count_cfg, ite_self]

/-- The hardware's own limit moves; what was measured stands. -/
theorem lowerIlimit_feeds (s : State) (f : Feed) : (lowerIlimit s f).gov = s.gov ∧ (lowerIlimit s f).power.a.mv = s.power.a.mv ∧
    (lowerIlimit s f).power.a.ma = s.power.a.ma ∧ (lowerIlimit s f).power.b.mv = s.power.b.mv ∧
    (lowerIlimit s f).power.b.ma = s.power.b.ma := by
  simp only [lowerIlimit]
  cases f <;> split <;> simp [setFeed, feedOf]

/-- A raise is by one step. -/
theorem vcoreMove_raise {v ceil power limit mv : Nat} {hot : Bool} (h : vcoreMove v ceil power limit hot = .raise mv) : mv = v + 5 := by
  unfold vcoreMove at h
  split at h
  · split at h <;> cases h
  · split at h
    · cases h
    · split at h
      · split at h <;> cases h
      · split at h
        · cases h; rfl
        · cases h

/-- The move of a period: VCORE_SET stands or rises by a step of 5 mV, the capacity rises only while VCORE_SET stands and then to
what that voltage carries, the measured values stand. -/
theorem governorMove_gov (s : State) (l : Nat) :
    ((governorMove s l).gov.vcore = s.gov.vcore ∨ (governorMove s l).gov.vcore = s.gov.vcore + 5) ∧
    ((governorMove s l).gov.capacity ≤ s.gov.capacity ∨ s.gov.lowering = none ∧ s.gov.raising = none ∧
      (governorMove s l).gov.vcore = s.gov.vcore ∧
      (governorMove s l).gov.capacity = capacityNow s.gov.vcore s.gov.tjHot s.gov.stagePs) ∧
    (governorMove s l).gov.powerW = s.gov.powerW ∧ (governorMove s l).gov.stagePs = s.gov.stagePs ∧
    (governorMove s l).gov.periodAt = s.gov.periodAt ∧ (governorMove s l).gov.thermalW = s.gov.thermalW ∧
    (governorMove s l).gov.feedW = s.gov.feedW ∧ (governorMove s l).gov.limit = s.gov.limit ∧
    (governorMove s l).power = s.power := by
  -- the last part of the move, on the state the first part leaves
  have last : ∀ u : State, ∀ bound : Nat,
      let t := if bound < u.gov.capacity ∨ (u.gov.lowering.isNone ∧ u.gov.raising.isNone ∧ bound ≠ u.gov.capacity)
        then publish u bound else u
      t.gov.vcore = u.gov.vcore ∧ (t.gov.capacity ≤ u.gov.capacity ∨
        u.gov.lowering = none ∧ u.gov.raising = none ∧ t.gov.capacity = bound) ∧ t.gov.powerW = u.gov.powerW ∧
      t.gov.stagePs = u.gov.stagePs ∧ t.gov.periodAt = u.gov.periodAt ∧ t.gov.thermalW = u.gov.thermalW ∧
      t.gov.feedW = u.gov.feedW ∧ t.gov.limit = u.gov.limit ∧ t.power = u.power := by
    intro u bound
    obtain ⟨b, a, h⟩ := publish_gov u bound
    dsimp only
    split
    · next hc =>
      simp only [h, publish_power, true_and, and_self, and_true]
      rcases hc with hc | hc
      · exact .inl (Nat.le_of_lt hc)
      · simp only [Option.isNone_iff_eq_none] at hc
        exact .inr ⟨hc.1, hc.2.1⟩
    · simp
  -- the first part
  have first : ∃ u : State, governorMove s l =
      (if capacityNow (match u.gov.lowering with | some mv => mv | none => u.gov.vcore) u.gov.tjHot u.gov.stagePs < u.gov.capacity ∨
        (u.gov.lowering.isNone ∧ u.gov.raising.isNone ∧
          capacityNow (match u.gov.lowering with | some mv => mv | none => u.gov.vcore) u.gov.tjHot u.gov.stagePs ≠ u.gov.capacity)
       then publish u (capacityNow (match u.gov.lowering with | some mv => mv | none => u.gov.vcore) u.gov.tjHot u.gov.stagePs)
       else u) ∧
      (u.gov.vcore = s.gov.vcore ∨ u.gov.vcore = s.gov.vcore + 5 ∧ u.gov.raising ≠ none) ∧ u.gov.capacity ≤ s.gov.capacity ∧
      (u.gov.lowering = none → u.gov.raising = none → s.gov.lowering = none ∧ s.gov.raising = none) ∧
      u.gov.powerW = s.gov.powerW ∧ u.gov.stagePs = s.gov.stagePs ∧ u.gov.periodAt = s.gov.periodAt ∧ u.gov.tjHot = s.gov.tjHot ∧
      u.gov.thermalW = s.gov.thermalW ∧ u.gov.feedW = s.gov.feedW ∧ u.gov.limit = s.gov.limit ∧ u.power = s.power := by
    refine ⟨_, rfl, ?_⟩
    split
    · simp +contextual
    · next hl =>
      simp only [Option.not_isSome_iff_eq_none] at hl
      split
      · simp +contextual
      · next mv _ =>
        obtain ⟨b, a, h⟩ := publish_gov (count { s with gov := { s.gov with lowering := some mv, raising := none } } (ctrPower 32) 1)
          (min s.gov.capacity (capacityNow mv s.gov.tjHot s.gov.stagePs))
        simp [h]
      · next mv hm =>
        split
        · simp +contextual
        · simp [vcoreMove_raise hm]
  obtain ⟨u, e, hv, hc, hn, rest⟩ := first
  have k := last u (capacityNow (match u.gov.lowering with | some mv => mv | none => u.gov.vcore) u.gov.tjHot u.gov.stagePs)
  rw [← e] at k
  obtain ⟨k1, k2, k3, k4, k5, k6, k7, k8, k9⟩ := k
  obtain ⟨r1, r2, r3, r4, r5, r6, r7, r8⟩ := rest
  refine ⟨?_, ?_, k3.trans r1, k4.trans r2, k5.trans r3, k6.trans r5, k7.trans r6, k8.trans r7, k9.trans r8⟩
  · rw [k1]
    rcases hv with hv | hv
    · exact .inl hv
    · exact .inr hv.1
  · rcases k2 with k2 | ⟨a, b, c⟩
    · exact .inl (Nat.le_trans k2 hc)
    · refine .inr ⟨(hn a b).1, (hn a b).2, ?_, ?_⟩
      · rcases hv with hv | hv
        · rw [k1, hv]
        · exact absurd b hv.2
      · rcases hv with hv | hv
        · rw [c, a, r4, r2, hv]
        · exact absurd b hv.2

/-! ### CONFIG -/

/-- The reports of CONFIG leave the fields that say where the module stands. -/
theorem configReports_module (s : State) : (configReports s).module = { s.module with
    reportDrain := false, recovered := none, fatalAlert := if s.module.recovered.isSome then false else s.module.fatalAlert
    commitGone := none } := by
  have hl : ∀ u : State, (commitLost u).module = { u.module with commitGone := none } := by
    intro u
    unfold commitLost
    split
    · next h => rw [← h]
    · dsimp only
      split
      · rfl
      · simp
  simp only [configReports]
  rw [hl]
  split <;> split <;> simp_all [setModule]

/-! ### Firmware slots and the start of an image -/

theorem fwSlot_congr {s t : State} (h : t.module.slots = s.module.slots) (k : Nat) : fwSlot t k = fwSlot s k := by simp [fwSlot, h]

theorem slotIn_congr {s t : State} (h : t.module.slots = s.module.slots) (st : SlotSt) : slotIn t st = slotIn s st := by
  simp only [slotIn, fwSlot_congr h]

/-- Why an image does not pass is a matter of flash and the slots alone. -/
theorem imageReason_congr {s t : State} (h : t.module.slots = s.module.slots) (hf : t.flash = s.flash) (k : Nat) :
    imageReason t k = imageReason s k := by
  have e (n : Nat) : keyRevoked { t with cfg := t.flash } n = keyRevoked { s with cfg := s.flash } n := by
    show decide (Tbl.get t.flash _ _ = 1) = decide (Tbl.get s.flash _ _ = 1)
    rw [hf]
  have e2 (a b : Nat) : flashv t a b = flashv s a b := by
    show Tbl.get t.flash _ _ = Tbl.get s.flash _ _
    rw [hf]
  unfold imageReason
  rw [fwSlot_congr h]
  dsimp only
  rw [e, e2]

/-- A warm reset begins by its drain: the module state stands until the core resets. -/
@[simp] theorem startWarm_state (s : State) (c : Nat) : (startWarm s c).module.state = s.module.state := by simp [startWarm, setModule]

@[simp] theorem requestWarm_state (s : State) (c : Nat) : (requestWarm s c).module.state = s.module.state := by
  simp only [requestWarm]
  split <;> simp [setModule]

@[simp] theorem releaseWarm_state (s : State) : (releaseWarm s).module.state = s.module.state := by
  simp only [releaseWarm]
  split
  · split <;> simp
  · rfl

/-- HALTED is reached, whatever reset waits. -/
@[simp] theorem enterHalted_state (s : State) (c : Nat) : (enterHalted s c).module.state = .halted := by
  simp [enterHalted, changeState_state]

@[simp] theorem startWarm_count (s : State) (c : Nat) : (startWarm s c).module.bootCount = s.module.bootCount := by
  simp [startWarm, setModule]

@[simp] theorem releaseWarm_count (s : State) : (releaseWarm s).module.bootCount = s.module.bootCount := by
  simp only [releaseWarm]
  split
  · split <;> simp
  · rfl

@[simp] theorem changeState_count (s : State) (n : ModState) (c : Nat) :
    (changeState s n c).module.bootCount = s.module.bootCount := by
  by_cases h : s.module.state = n
  · simp [changeState, h]
  · rw [changeState_module h]

theorem enterHalted_count (s : State) (c : Nat) : (enterHalted s c).module.bootCount = s.module.bootCount := by
  simp [enterHalted, setModule]

/-! ### Module-fatal errors -/

theorem rejectRunning_module (s : State) : ∃ sl, (rejectRunning s).module = { s.module with slots := sl, trialSince := none } := by
  simp only [rejectRunning]
  split <;> exact ⟨_, rfl⟩

theorem rejectRunning_now (s : State) : (rejectRunning s).now = s.now := by
  simp only [rejectRunning]
  split <;> rfl

/-- Entry into RECOVERY, or at the third within 10 minutes HALTED. -/
theorem enterRecovery_module (s : State) (cause : Nat) (h : s.module.state ≠ .recovery) :
    (enterRecovery s cause).module.fatalLast = cause ∧ (enterRecovery s cause).module.warm = none ∧
    (enterRecovery s cause).module.pause = none ∧ (enterRecovery s cause).module.recoveries = recentRecoveries s ++ [s.now] ∧
    (enterRecovery s cause).module.state = (if 3 ≤ (recentRecoveries s).length + 1 then .halted else .recovery) := by
  -- the slots are the only thing that an image under activation or on trial changes
  have first : ∃ u : State, ∃ sl ts, ∃ b : Bool, u.now = s.now ∧ u.module = { s.module with slots := sl, trialSince := ts } ∧
      enterRecovery s cause =
        (let v := changeState (setModule u { u.module with
            pause := none, warm := none, warmHeld := none, activation := none, recoveries := recentRecoveries u ++ [u.now]
            fatalLast := cause, fatalAlert := true, recovered := some cause }) .recovery 0x0909
         let v := if b then event v 0x0C09 0 (slotField v s.module.running + at_ 8 3 + at_ 16 1) else v
         let v := fatalBolt v cause s.module.state
         if 3 ≤ (recentRecoveries u ++ [u.now]).length then enterHalted v 0x0909 else v) := by
    have hp : ∃ w : State, ∃ sl, w = (if s.module.pause.isSome && !s.module.isRollback then
             setFwSlot s s.module.pauseSlot { fwSlot s s.module.pauseSlot with st := .verified, rejected := true, trial := false }
             else s) ∧ w.module = { s.module with slots := sl } ∧ w.now = s.now := by
      refine ⟨_, ?_, rfl, ?_, ?_⟩
      · exact if s.module.pause.isSome && !s.module.isRollback then vset s.module.slots s.module.pauseSlot
          { fwSlot s s.module.pauseSlot with st := .verified, rejected := true, trial := false } else s.module.slots
      · split <;> rfl
      · split <;> rfl
    obtain ⟨w, sl, e, hw, hn⟩ := hp
    have hr : w.module.running = s.module.running := by rw [hw]
    have twin : ∀ x : State, (if inService x then twinGoneNow x else x).module = x.module ∧
        (if inService x then twinGoneNow x else x).now = x.now := by
      intro x
      split <;> simp
    by_cases ht : onTrial w
    · obtain ⟨sl', h'⟩ := rejectRunning_module w
      obtain ⟨a, b⟩ := twin (rejectRunning w)
      refine ⟨if inService (rejectRunning w) then twinGoneNow (rejectRunning w) else rejectRunning w, sl', none, true,
        b.trans ((rejectRunning_now w).trans hn), ?_, ?_⟩
      · rw [a, h', hw]
      · simp only [enterRecovery, ← e, ht, if_true, hr]
    · obtain ⟨a, b⟩ := twin w
      refine ⟨if inService w then twinGoneNow w else w, sl, s.module.trialSince, false, b.trans hn, a.trans hw, ?_⟩
      simp only [enterRecovery, ← e, ht, if_false, Bool.false_eq_true, hr]
  obtain ⟨u, sl, ts, b, hn, hm, he⟩ := first
  have hrec : recentRecoveries u = recentRecoveries s := by simp [recentRecoveries, hn, hm]
  have hmod : (changeState (setModule u { u.module with
            pause := none, warm := none, warmHeld := none, activation := none, recoveries := recentRecoveries u ++ [u.now]
            fatalLast := cause, fatalAlert := true, recovered := some cause }) .recovery 0x0909).module =
      { s.module with slots := sl, trialSince := ts, pause := none, warm := none, warmHeld := none, activation := none
                      recoveries := recentRecoveries s ++ [s.now], fatalLast := cause, fatalAlert := true
                      recovered := some cause, state := .recovery, since := s.now } := by
    rw [changeState_module (by simpa [setModule, hm] using h)]
    simp [setModule, hm, hn, hrec]
  have hwarm : ∀ v : State, v.module.warmHeld = none →
      (enterHalted v 0x0909).module.fatalLast = v.module.fatalLast ∧ (enterHalted v 0x0909).module.warm = v.module.warm ∧
      (enterHalted v 0x0909).module.pause = v.module.pause ∧ (enterHalted v 0x0909).module.recoveries = v.module.recoveries := by
    intro v hv
    by_cases hs : v.module.state = .halted
    · simp [enterHalted, changeState, setModule, hs, releaseWarm, hv]
    · have := changeState_module (s := setModule v { v.module with running := 2, started := false, toTest := false })
        (new := .halted) (c := 0x0909) (by simpa [setModule] using hs)
      have hw : (changeState (setModule v { v.module with running := 2, started := false, toTest := false }) .halted 0x0909).module.warmHeld
          = none := by
        rw [this]
        exact hv
      have hr : ∀ z : State, z.module.warmHeld = none → releaseWarm z = z := by
        intro z hz
        simp [releaseWarm, hz]
      unfold enterHalted
      dsimp only
      rw [hr _ hw, this]
      exact ⟨rfl, rfl, rfl, rfl⟩
  rw [he]
  dsimp only
  generalize changeState _ .recovery 0x0909 = x at hmod ⊢
  rw [hrec, hn]
  have key : ∀ y : State, y.module = x.module →
      (if 3 ≤ (recentRecoveries s ++ [s.now]).length then enterHalted (fatalBolt y cause s.module.state) 0x0909
        else fatalBolt y cause s.module.state).module.fatalLast = cause ∧
      (if 3 ≤ (recentRecoveries s ++ [s.now]).length then enterHalted (fatalBolt y cause s.module.state) 0x0909
        else fatalBolt y cause s.module.state).module.warm = none ∧
      (if 3 ≤ (recentRecoveries s ++ [s.now]).length then enterHalted (fatalBolt y cause s.module.state) 0x0909
        else fatalBolt y cause s.module.state).module.pause = none ∧
      (if 3 ≤ (recentRecoveries s ++ [s.now]).length then enterHalted (fatalBolt y cause s.module.state) 0x0909
        else fatalBolt y cause s.module.state).module.recoveries = recentRecoveries s ++ [s.now] ∧
      (if 3 ≤ (recentRecoveries s ++ [s.now]).length then enterHalted (fatalBolt y cause s.module.state) 0x0909
        else fatalBolt y cause s.module.state).module.state =
        (if 3 ≤ (recentRecoveries s).length + 1 then .halted else .recovery) := by
    intro y hy
    simp only [List.length_append, List.length_singleton]
    split
    · obtain ⟨a, b, c, d⟩ := hwarm (fatalBolt y cause s.module.state) (by simp [hy, hmod])
      rw [a, b, c, d, enterHalted_state]
      simp [hy, hmod]
    · simp [hy, hmod]
  cases b
  · exact key _ rfl
  · exact key _ (by simp)

/-! ### Rollback -/

theorem requestWarm_rest (s : State) (c : Nat) : (requestWarm s c).module.slots = s.module.slots ∧
    (requestWarm s c).module.trialSince = s.module.trialSince := by
  simp only [requestWarm]
  split <;> simp [startWarm, setModule]

/-- A slot after another slot, or itself, is set. -/
theorem fwSlot_setFwSlot (s : State) (k j : Nat) (x : FwSlot) (h : k < 2) :
    fwSlot (setFwSlot s k x) j = if j = k then x else fwSlot s j := by
  simp only [fwSlot, setFwSlot]
  split
  · next e => rw [e, vget_vset_same _ _ _ _ h]
  · next e => rw [vget_vset_other _ _ _ _ _ (fun c => e c.symm)]

theorem rejectRunning_slot (s : State) (h : s.module.running < 2) :
    fwSlot (rejectRunning s) s.module.running =
      { fwSlot s s.module.running with st := .verified, rejected := true, trial := false } := by
  have h1 : 1 - s.module.running < 2 := by omega
  have h2 : s.module.running ≠ 1 - s.module.running := by omega
  simp only [rejectRunning]
  split
  · show fwSlot (setFwSlot (setFwSlot s _ _) (1 - s.module.running) _) _ = _
    rw [fwSlot_setFwSlot _ _ _ _ h1, if_neg h2, fwSlot_setFwSlot _ _ _ _ h, if_pos rfl]
  · show fwSlot (setFwSlot s _ _) _ = _
    rw [fwSlot_setFwSlot _ _ _ _ h, if_pos rfl]

/-- The image that fails is rejected, and its trial is over. -/
theorem rollback_slot (s : State) (check : Nat) (h : s.module.running < 2) :
    (fwSlot (rollback s check) s.module.running).rejected = true ∧ (fwSlot (rollback s check) s.module.running).trial = false ∧
    (rollback s check).module.trialSince = none := by
  have key : ∀ t : State, t.module.slots = (rejectRunning s).module.slots → t.module.trialSince = none →
      (fwSlot t s.module.running).rejected = true ∧ (fwSlot t s.module.running).trial = false ∧ t.module.trialSince = none := by
    intro t e1 e2
    rw [fwSlot_congr e1, rejectRunning_slot s h]
    exact ⟨rfl, rfl, e2⟩
  obtain ⟨sl, hj⟩ := rejectRunning_module s
  have two : ∀ b : Bool, ∀ x y : State, rollback s check = (if b then x else y) →
      ((fwSlot x s.module.running).rejected = true ∧ (fwSlot x s.module.running).trial = false ∧ x.module.trialSince = none) →
      ((fwSlot y s.module.running).rejected = true ∧ (fwSlot y s.module.running).trial = false ∧ y.module.trialSince = none) →
      (fwSlot (rollback s check) s.module.running).rejected = true ∧ (fwSlot (rollback s check) s.module.running).trial = false ∧
      (rollback s check).module.trialSince = none := by
    intro b x y e hx hy
    rw [e]
    cases b
    · exact hy
    · exact hx
  refine two _ _ _ rfl ?_ ?_
  · simp [beginPause, setModule, fwSlot, setFwSlot, vget_vset_same _ _ _ _ h]
  · split
    · refine key _ ?_ ?_
      · rw [(requestWarm_rest _ _).1]
        simp
      · rw [(requestWarm_rest _ _).2]
        simp [hj]
    · exact key _ (by simp) (by simp [hj])

/-! ### What the configuration alone decides -/

theorem cfgv_congr {s t : State} (h : t.cfg = s.cfg) (i j : Nat) : cfgv t i j = cfgv s i j := by
  cases s
  cases t
  dsimp only at h
  subst h
  rfl

theorem cfgOn_congr {s t : State} (h : t.cfg = s.cfg) (i j : Nat) : cfgOn t i j = cfgOn s i j := by
  cases s
  cases t
  dsimp only at h
  subst h
  rfl

theorem personality_congr {s t : State} (h : t.cfg = s.cfg) (p : Nat) : personality t p = personality s p := by
  cases s
  cases t
  dsimp only at h
  subst h
  rfl

theorem portLanes_congr {s t : State} (h : t.cfg = s.cfg) (p : Nat) : portLanes t p = portLanes s p := by
  cases s
  cases t
  dsimp only at h
  subst h
  rfl

theorem lanePort_congr {s t : State} (h : t.cfg = s.cfg) (l : Nat) : lanePort t l = lanePort s l := by
  cases s
  cases t
  dsimp only at h
  subst h
  rfl

theorem isWeft_congr {s t : State} (h : t.cfg = s.cfg) (p : Nat) : isWeft t p = isWeft s p := by
  cases s
  cases t
  dsimp only at h
  subst h
  rfl

theorem isWarp_congr {s t : State} (h : t.cfg = s.cfg) (p : Nat) : isWarp t p = isWarp s p := by
  cases s
  cases t
  dsimp only at h
  subst h
  rfl

theorem portWidth_congr {s t : State} (h : t.cfg = s.cfg) (p : Nat) : portWidth t p = portWidth s p := by
  cases s
  cases t
  dsimp only at h
  subst h
  rfl

theorem clockPorts_congr {s t : State} (h : t.cfg = s.cfg) (c : Nat) : clockPorts t c = clockPorts s c := by
  cases s
  cases t
  dsimp only at h
  subst h
  rfl

theorem tcEnable_congr {s t : State} (h : t.cfg = s.cfg) (p : Nat) : tcEnable t p = tcEnable s p := by
  cases s
  cases t
  dsimp only at h
  subst h
  rfl

theorem midValid_congr {s t : State} (h : t.cfg = s.cfg) : midValid t = midValid s := by
  cases s
  cases t
  dsimp only at h
  subst h
  rfl

theorem gport_congr {s t : State} (h : t.cfg = s.cfg) (p : Nat) : gport t p = gport s p := by
  cases s
  cases t
  dsimp only at h
  subst h
  rfl

/-! ### Weft ports -/

theorem weftPort_congr {s t : State} (h : t.weft = s.weft) (p : Nat) : weftPort t p = weftPort s p := by simp only [weftPort, h]

theorem weftPort_portCongr {s t : State} (h : t.weft.port = s.weft.port) (p : Nat) : weftPort t p = weftPort s p := by
  simp only [weftPort, h]

/-! ### What is sent on a line -/

/-- A lane but for what its transmitter keeps. -/
def rxPart (x : LaneState) : LaneState := { x with txLevel := 0, txScr := 0 }

/-- A weft port but for the flit bytes that wait to fill a row. -/
def rowless (x : WeftPort) : WeftPort := { x with txRow := [] }

/-- Something is only sent: lanes change in what their transmitters keep, weft ports in the bytes that wait to fill a row, and
the output grows. -/
structure SentOnly (s t : State) : Prop where
  lane : ∀ l, rxPart (laneOf t l) = rxPart (laneOf s l)
  port : ∀ p, rowless (weftPort t p) = rowless (weftPort s p)
  weft : { t.weft with port := s.weft.port } = s.weft
  cfg : t.cfg = s.cfg
  now : t.now = s.now
  tx : ∃ es, t.tx = s.tx ++ es

theorem SentOnly.refl (s : State) : SentOnly s s := ⟨fun _ => rfl, fun _ => rfl, rfl, rfl, rfl, [], by simp⟩

theorem SentOnly.trans {s t u : State} (h : SentOnly s t) (k : SentOnly t u) : SentOnly s u := by
  obtain ⟨es, h1⟩ := h.tx
  obtain ⟨fs, k1⟩ := k.tx
  refine ⟨fun l => (k.lane l).trans (h.lane l), fun p => (k.port p).trans (h.port p), ?_, k.cfg.trans h.cfg, k.now.trans h.now,
    es ++ fs, by rw [k1, h1, List.append_assoc]⟩
  calc { u.weft with port := s.weft.port } = { { u.weft with port := t.weft.port } with port := s.weft.port } := rfl
    _ = { t.weft with port := s.weft.port } := by rw [k.weft]
    _ = s.weft := h.weft

/-- What each step of a fold only sends, the fold only sends. -/
theorem SentOnly.foldl {α : Type} {f : State → α → State} (h : ∀ u x, SentOnly u (f u x)) (l : List α) (s : State) :
    SentOnly s (l.foldl f s) := by
  induction l generalizing s with
  | nil => exact SentOnly.refl s
  | cons x l ih => exact (h s x).trans (ih (f s x))

theorem SentOnly.times {f : State → State} (h : ∀ u, SentOnly u (f u)) (n : Nat) (s : State) : SentOnly s (times f n s) := by
  induction n generalizing s with
  | zero => exact SentOnly.refl s
  | succ n ih => exact (h s).trans (ih (f s))

/-- A lane after another lane, or itself, is set. -/
theorem laneOf_setLane (s : State) (l m : Nat) (x : LaneState) :
    laneOf (setLane s l x) m = if m = l ∧ l < 256 then x else laneOf s m := by
  simp only [laneOf, setLane]
  by_cases h : m = l
  · subst h
    by_cases h2 : m < 256
    · rw [vget_vset_same _ _ _ _ h2, if_pos ⟨rfl, h2⟩]
    · simp [vget, h2]
  · rw [vget_vset_other _ _ _ _ _ (fun e => h e.symm), if_neg (fun e => h e.1)]

/-- A weft port after another, or itself, is set. -/
theorem weftPort_setWeft_if (s : State) (p q : Nat) (x : WeftPort) :
    weftPort (setWeft s p x) q = if q = p ∧ p < 128 then x else weftPort s q := by
  simp only [weftPort, setWeft]
  by_cases h : q = p
  · subst h
    by_cases h2 : q < 128
    · rw [vget_vset_same _ _ _ _ h2, if_pos ⟨rfl, h2⟩]
    · simp [vget, h2]
  · rw [vget_vset_other _ _ _ _ _ (fun e => h e.symm), if_neg (fun e => h e.1)]

theorem sendBlock_sent (s : State) (l h w : Nat) : SentOnly s (sendBlock s l h w) := by
  refine ⟨fun m => ?_, fun _ => rfl, rfl, rfl, rfl, [_], rfl⟩
  have e : ∃ a b, laneOf (sendBlock s l h w) m = laneOf (setLane s l { laneOf s l with txLevel := a, txScr := b }) m := ⟨_, _, rfl⟩
  obtain ⟨a, b, e⟩ := e
  rw [e, laneOf_setLane]
  split
  · next hm => rw [hm.1]; rfl
  · rfl

theorem sendOn_sent (s : State) (ls : List Nat) (h : Nat) (f : Nat → Nat) : SentOnly s (sendOn s ls h f) :=
  SentOnly.foldl (f := fun s (x : Nat × Nat) => sendBlock s x.1 h (f x.2)) (fun u x => sendBlock_sent u x.1 h (f x.2)) _ s

theorem emit_sent (s : State) (e : Emit) : SentOnly s (emit s e) := ⟨fun _ => rfl, fun _ => rfl, rfl, rfl, rfl, [e], rfl⟩

theorem setTxRow_sent (s : State) (p : Nat) (r : List Byte) : SentOnly s (setWeft s p { weftPort s p with txRow := r }) := by
  refine ⟨fun _ => rfl, fun q => ?_, rfl, rfl, rfl, [], by simp⟩
  rw [weftPort_setWeft_if]
  split
  · next h => rw [h.1]; rfl
  · rfl

theorem sendRows_sent (n p : Nat) (s : State) : SentOnly s (sendRows n p s) := by
  induction n generalizing s with
  | zero => exact SentOnly.refl s
  | succ n ih =>
    simp only [sendRows]
    split
    · exact SentOnly.refl s
    · exact ((setTxRow_sent s p _).trans (sendOn_sent _ _ _ _)).trans (ih _)

theorem fillRow_sent (s : State) (p : Nat) : SentOnly s (fillRow s p) := by
  simp only [fillRow]
  split
  · exact SentOnly.refl s
  · exact (setTxRow_sent s p _).trans (sendOn_sent _ _ _ _)

theorem sendRow_sent (s : State) (p w : Nat) : SentOnly s (sendRow s p w) := by
  unfold sendRow
  exact ((fillRow_sent s p).trans (emit_sent _ _)).trans (sendOn_sent _ _ _ _)

theorem sendTs1_sent (s : State) (p : Nat) : SentOnly s (sendTs1 s p) := by
  unfold sendTs1
  exact SentOnly.times (fun u => sendOn_sent u _ _ _) 8 s

/-- A flit goes out, and rows of it as far as they fill. -/
theorem sendFlit_sent (s : State) (p : Nat) (bs : List Byte) : SentOnly s (sendFlit s p bs) ∧
    ∃ es, (sendFlit s p bs).tx = s.tx ++ .flit p bs :: es := by
  have e := (setTxRow_sent (emit s (.flit p bs)) p ((weftPort s p).txRow ++ bs)).trans (sendRows_sent 5 p _)
  refine ⟨(emit_sent s _).trans e, ?_⟩
  obtain ⟨es, h⟩ := e.tx
  refine ⟨es, h.trans ?_⟩
  simp [emit]

/-- A lane that the change leaves as it is stands after the change of its port's lanes. -/
theorem setPortLanes_fixed {s : State} {p l : Nat} {f : LaneState → LaneState} (h : f (laneOf s l) = laneOf s l) :
    laneOf (setPortLanes s p f) l = laneOf s l := by
  have key : ∀ (b : Nat) (js : List Nat) (u : State), laneOf u l = laneOf s l →
      laneOf (js.foldl (fun s j => setLane s (b + j) (f (laneOf s (b + j)))) u) l = laneOf s l := by
    intro b js
    induction js with
    | nil => exact fun u hu => hu
    | cons j js ih =>
      intro u hu
      refine ih _ ?_
      rw [laneOf_setLane]
      split
      · next e => rw [← e.1, hu, h]
      · exact hu
  simp only [setPortLanes]
  split
  · exact key _ _ _ rfl
  · rfl

/-! ### RETRAIN -/

theorem marginAbort_rest (s : State) (c : Nat) : (marginAbort s c).lanes.lane = s.lanes.lane ∧ (marginAbort s c).weft = s.weft := by
  simp only [marginAbort]
  split <;> simp

/-- What RETRAIN leaves, said once: of the lanes only those that are idle or failed hunt, the port's state and training record
are new, and nothing else of the weft block but the bytes that wait to fill a row changes. -/
theorem enterRetrain_spec (s : State) (p c : Nat) (h : p < 128) :
    (∀ l, (laneOf s l).st ≠ .idle → (laneOf s l).st ≠ .failed → rxPart (laneOf (enterRetrain s p c) l) = rxPart (laneOf s l)) ∧
    rowless (weftPort (enterRetrain s p c) p) = rowless { enterWaitReplay (weftPort s p) with
      link := .retrain, since := s.now, retrainSince := s.now, lastCause := c, timer := none, agreed := false, chosen := none,
      ts2Sent := 0, ts1Seen := [], ts2Seen := [], startSent := false, startSeen := false, peerNonce := none, orderTold := false,
      rowing := false, gathered := none, rx := [], ts := [], trainRate := (enterWaitReplay (weftPort s p)).rate,
      phaseSince := s.now, reqSince := if c ≠ 4 then some s.now else none, nonce := (drawn s).toNat % 65536 } ∧
    (∀ q, q ≠ p → rowless (weftPort (enterRetrain s p c) q) = rowless (weftPort s q)) := by
  have key : ∀ v : State, v.weft = (setWeft s p { enterWaitReplay (weftPort s p) with
      link := .retrain, since := s.now, retrainSince := s.now, lastCause := c, timer := none, agreed := false, chosen := none,
      ts2Sent := 0, ts1Seen := [], ts2Seen := [], startSent := false, startSeen := false, peerNonce := none, orderTold := false,
      rowing := false, gathered := none, rx := [], ts := [], trainRate := (enterWaitReplay (weftPort s p)).rate,
      phaseSince := s.now, reqSince := if c ≠ 4 then some s.now else none
      nonce := (drawn s).toNat % 65536 }).weft → v.lanes.lane = s.lanes.lane → ∀ (w : Nat) (f : LaneState → LaneState),
      (∀ x : LaneState, x.st ≠ .idle → x.st ≠ .failed → f x = x) →
      let t := setPortLanes (if c ≠ 4 then sendRow v p w else v) p f
      (∀ l, (laneOf s l).st ≠ .idle → (laneOf s l).st ≠ .failed → rxPart (laneOf t l) = rxPart (laneOf s l)) ∧
      ∀ q, rowless (weftPort t q) = rowless (weftPort v q) := by
    intro v _ hl w f hf
    have sent : SentOnly v (if c ≠ 4 then sendRow v p w else v) := by
      split
      · exact sendRow_sent v p w
      · exact SentOnly.refl v
    dsimp only
    generalize (if c ≠ 4 then sendRow v p w else v) = u at sent
    constructor
    · intro l h1 h2
      have e : rxPart (laneOf u l) = rxPart (laneOf s l) := by
        rw [sent.lane l]
        simp only [laneOf, hl]
      have e1 : (laneOf u l).st = (laneOf s l).st := (congrArg (fun x : LaneState => x.st) e :)
      rw [setPortLanes_fixed (hf _ (by rw [e1]; exact h1) (by rw [e1]; exact h2)), e]
    · intro q
      rw [weftPort_congr (setPortLanes_weft _ _ _), sent.port q]
  have goal : ∀ t v : State, v.weft = (setWeft s p { enterWaitReplay (weftPort s p) with
      link := .retrain, since := s.now, retrainSince := s.now, lastCause := c, timer := none, agreed := false, chosen := none,
      ts2Sent := 0, ts1Seen := [], ts2Seen := [], startSent := false, startSeen := false, peerNonce := none, orderTold := false,
      rowing := false, gathered := none, rx := [], ts := [], trainRate := (enterWaitReplay (weftPort s p)).rate,
      phaseSince := s.now, reqSince := if c ≠ 4 then some s.now else none
      nonce := (drawn s).toNat % 65536 }).weft → (∀ q, rowless (weftPort t q) = rowless (weftPort v q)) →
      rowless (weftPort t p) = rowless { enterWaitReplay (weftPort s p) with
      link := .retrain, since := s.now, retrainSince := s.now, lastCause := c, timer := none, agreed := false, chosen := none,
      ts2Sent := 0, ts1Seen := [], ts2Seen := [], startSent := false, startSeen := false, peerNonce := none, orderTold := false,
      rowing := false, gathered := none, rx := [], ts := [], trainRate := (enterWaitReplay (weftPort s p)).rate,
      phaseSince := s.now, reqSince := if c ≠ 4 then some s.now else none, nonce := (drawn s).toNat % 65536 } ∧
      ∀ q, q ≠ p → rowless (weftPort t q) = rowless (weftPort s q) := by
    intro t v hv hr
    constructor
    · rw [hr p, weftPort_congr hv, weftPort_setWeft_if, if_pos ⟨rfl, h⟩]
    · intro q hq
      rw [hr q, weftPort_congr hv, weftPort_setWeft_if, if_neg (fun e => hq e.1)]
  have fixed : ∀ (n : Nat) (x : LaneState), x.st ≠ .idle → x.st ≠ .failed →
      (fun l : LaneState => if l.st = .idle ∨ l.st = .failed then laneHunts n l else l) x = x := by
    intro n x h1 h2
    simp [h1, h2]
  have e : ∃ v : State, v.weft = (setWeft s p { enterWaitReplay (weftPort s p) with
      link := .retrain, since := s.now, retrainSince := s.now, lastCause := c, timer := none, agreed := false, chosen := none,
      ts2Sent := 0, ts1Seen := [], ts2Seen := [], startSent := false, startSeen := false, peerNonce := none, orderTold := false,
      rowing := false, gathered := none, rx := [], ts := [], trainRate := (enterWaitReplay (weftPort s p)).rate,
      phaseSince := s.now, reqSince := if c ≠ 4 then some s.now else none
      nonce := (drawn s).toNat % 65536 }).weft ∧ v.lanes.lane = s.lanes.lane ∧
      enterRetrain s p c = setPortLanes (if c ≠ 4 then sendRow v p (retrainReqBlock c) else v) p
        fun l => if l.st = .idle ∨ l.st = .failed then
          laneHunts (if c ≠ 4 then sendRow v p (retrainReqBlock c) else v).now l else l := by
    unfold enterRetrain
    dsimp only
    refine ⟨_, ?_, ?_, rfl⟩
    · dsimp only
      split
      · simp only [apply_ite State.weft, (marginAbort_rest _ _).2, ite_self]
        simp
      · simp
    · dsimp only
      split
      · simp only [apply_ite State.lanes, apply_ite LanesBlk.lane, (marginAbort_rest _ _).1, ite_self]
        simp
      · simp
  obtain ⟨v, h1, h2, e⟩ := e
  obtain ⟨k1, k2⟩ := key v h1 h2 (retrainReqBlock c) _ (fixed _)
  rw [e]
  exact ⟨k1, goal _ v h1 k2⟩

/-- RETRAIN of a port: its state, the cause, and its receiver in WAIT_REPLAY. -/
theorem enterRetrain_port (s : State) (p c : Nat) (h : p < 128) :
    (weftPort (enterRetrain s p c) p).link = .retrain ∧ (weftPort (enterRetrain s p c) p).lastCause = c ∧
    (weftPort (enterRetrain s p c) p).waitReplay = true := by
  have e := (enterRetrain_spec s p c h).2.1
  have w : ∀ x : WeftPort, (enterWaitReplay x).waitReplay = true := by
    intro x
    simp only [enterWaitReplay]
    split
    · assumption
    · rfl
  exact ⟨congrArg (fun x : WeftPort => x.link) e, congrArg (fun x : WeftPort => x.lastCause) e,
    (congrArg (fun x : WeftPort => x.waitReplay) e).trans (w _)⟩

/-- RETRAIN keeps what the port has sent and not seen acknowledged. -/
theorem enterRetrain_buffer (s : State) (p c : Nat) (h : p < 128) :
    (weftPort (enterRetrain s p c) p).buffer = (weftPort s p).buffer := by
  have b : ∀ x : WeftPort, (enterWaitReplay x).buffer = x.buffer := by
    intro x
    simp only [enterWaitReplay, apply_ite WeftPort.buffer, ite_self]
  exact (congrArg (fun x : WeftPort => x.buffer) (enterRetrain_spec s p c h).2.1).trans (b _)

/-! ### Tags -/

/-- A control operation's tag is right under the key and count that sealed it. -/
theorem ctlTagOk_sealCtl (k : List Byte) (n env : Nat) (body : List Byte) (h : env < 2 ^ 128) :
    ctlTagOk k n (sealCtl k n env body) = true := by
  have e : (BitVec.ofNat 128 env).toNat = env := by simpa using h
  simp [ctlTagOk, sealCtl, gcmSeal, gcmOpen, gcmCtr, ceilDiv, e]

/-- A beacon's tag is right under the key that sealed it. -/
theorem beaconTagOk_sealBeacon (k : List Byte) (env : Nat) (body : List Byte) (h : env < 2 ^ 128) :
    beaconTagOk k (sealBeacon k env body) = true := by
  have e : (BitVec.ofNat 128 env).toNat = env := by simpa using h
  have q : envSeq { env := BitVec.ofNat 128 env, body := body, tag := [] : WireOp } = bits env 68 32 := by simp only [envSeq, e]
  simp only [envSeq, e] at q
  simp [beaconTagOk, sealBeacon, gcmSeal, gcmOpen, gcmCtr, ceilDiv, envSeq, e]

/-! ### Elements of vectors -/

/-- The element just written. -/
@[simp] theorem vget_vset_fin {α : Type} {n : Nat} (v : Vector α n) (p : Fin n) (x d : α) : vget (vset v p.val x) p.val d = x :=
  vget_vset_same _ _ _ _ p.isLt

/-- Any other element. -/
theorem vget_vset_fin_ne {α : Type} {n : Nat} (v : Vector α n) (p q : Fin n) (x d : α) (h : q ≠ p) :
    vget (vset v p.val x) q.val d = vget v q.val d :=
  vget_vset_other _ _ _ _ _ (fun e => h (Fin.ext e.symm))

/-! ### Counters send nothing and draw nothing -/

@[simp] theorem count_tx (s : State) (c n : Nat) : (count s c n).tx = s.tx := by
  simp only [count, apply_ite State.tx, ite_self]

@[simp] theorem count_drawn (s : State) (c n : Nat) : (count s c n).drawn = s.drawn := by
  simp only [count, apply_ite State.drawn, ite_self]

@[simp] theorem count_freeDraws (s : State) (c n : Nat) : (count s c n).freeDraws = s.freeDraws := by
  simp only [count, apply_ite State.freeDraws, ite_self]

@[simp] theorem ctrWeft_tx (s : State) (p c n : Nat) : (ctrWeft s p c n).tx = s.tx := count_tx _ _ _

/-- A port just written. -/
@[simp] theorem weftPort_setWeft (s : State) (p : Port) (x : WeftPort) : weftPort (setWeft s p x) p = x := by
  simp only [weftPort, setWeft]
  exact vget_vset_same _ _ _ _ p.isLt

/-- Another port than the one written. -/
theorem weftPort_setWeft_ne (s : State) (p q : Nat) (x : WeftPort) (h : p ≠ q) : weftPort (setWeft s p x) q = weftPort s q := by
  simp only [weftPort, setWeft]
  exact vget_vset_other _ _ _ _ _ h

/-- One port after an operation that writes one port. -/
theorem weftPort_of_vset {s t : State} {p : Port} {x : WeftPort} (h : t.weft.port = vset s.weft.port p x) :
    weftPort t p = x ∧ ∀ q : Port, q ≠ p → weftPort t q = weftPort s q := by
  constructor
  · simp only [weftPort, h]
    exact vget_vset_same _ _ _ _ p.isLt
  · intro q hq
    simp only [weftPort, h]
    exact vget_vset_other _ _ _ _ _ (fun e => hq (Fin.ext e.symm))

theorem marginAbort_weft' (s : State) (c : Nat) : (marginAbort s c).weft = s.weft := (marginAbort_rest s c).2

/-- A relay by cut-through that is broken off changes, of the ports, what one of them has to send. -/
theorem breakRelay_spec (s : State) (p : Nat) : (breakRelay s p).weft.downed = s.weft.downed ∧ (breakRelay s p).now = s.now ∧
    ∀ q, ∃ o, weftPort (breakRelay s p) q = { weftPort s q with out := o } := by
  simp only [breakRelay]
  split
  · refine ⟨rfl, rfl, fun q => ?_⟩
    simp only [endRelay, withRelay]
    rw [weftPort_setWeft_if]
    split
    · next d c _ h =>
      rw [h.1]
      exact ⟨_, rfl⟩
    · exact ⟨(weftPort s q).out, rfl⟩
  · exact ⟨rfl, rfl, fun q => ⟨(weftPort s q).out, rfl⟩⟩

/-- A port that goes down keeps its training record; the notes say where it was. -/
theorem linkDown_weft (s : State) (p c : Nat) :
    (linkDown s p c).weft = { (breakRelay s p).weft with
      port := vset (breakRelay s p).weft.port p { clearedLink (weftPort (breakRelay s p) p) s.now with lastCause := c }
      downed := if (weftPort s p).link = .active ∨ (weftPort s p).link = .retrain then s.weft.downed ++ [p] else s.weft.downed } := by
  obtain ⟨h1, h2, h3⟩ := breakRelay_spec s p
  obtain ⟨o, h3⟩ := h3 p
  have h4 : (weftPort (breakRelay s p) p).link = (weftPort s p).link := by rw [h3]
  simp only [linkDown]
  rw [← h1, ← h2, ← h4]
  generalize breakRelay s p = s
  by_cases h : (weftPort s p).link = .active ∨ (weftPort s p).link = .retrain
  · have hb : ((decide ((weftPort s p).link = .active) || decide ((weftPort s p).link = .retrain)) = true) := by simpa using h
    simp only [hb, h, if_true]
    split
    · simp only [apply_ite State.weft, marginAbort_weft', ite_self]
      simp [setWeft]
    · simp [setWeft]
  · have hb : ¬ ((decide ((weftPort s p).link = .active) || decide ((weftPort s p).link = .retrain)) = true) := by simpa using h
    simp only [hb, h, if_false, Bool.false_eq_true]
    split
    · simp only [apply_ite State.weft, marginAbort_weft', ite_self]
      simp [setWeft]
    · simp [setWeft]

/-- What a port that went down is. -/
theorem linkDown_port (s : State) (p : Port) (c : Nat) : weftPort (linkDown s p c) p =
    { clearedLink (weftPort s p) s.now with lastCause := c } := by
  obtain ⟨o, h⟩ := (breakRelay_spec s p).2.2 p
  rw [weftPort, linkDown_weft]
  dsimp only
  rw [vget_vset_fin, h]
  rfl

/-- A failed attempt below the limit counts, and the port is down again. -/
theorem attemptFailed_port (s : State) (p c : Nat) (h : (weftPort s p).fails + 1 < cfgv s 0x3203 (p + 1)) :
    (attemptFailed s p c).weft.port =
      vset s.weft.port p { clearedLink (weftPort s p) s.now with fails := (weftPort s p).fails + 1, lastCause := c } := by
  simp only [attemptFailed]
  rw [cfgv_congr (s := s) (by simp [setWeft]), if_neg (by omega)]
  simp [setWeft]

/-- The next rate phase. -/
theorem nextPhase_port (s : State) (p : Nat) :
    (nextPhase s p).weft.port = vset s.weft.port p { weftPort s p with
      trainRate := 2, phaseSince := s.now, ts1Seen := [], ts2Seen := [], ts := [], chosen := none, ts2Sent := 0
      lineSince := s.now, alignPos := 0 } := by
  simp [nextPhase, setWeft]

/-- Credits complete their exchange from ALIGNED: ACTIVE. -/
theorem linkActive_port (s : State) (p : Nat) (h : (weftPort s p).link = .aligned) :
    (linkActive s p).weft.port = vset s.weft.port p { weftPort s p with link := .active, since := s.now, fails := 0 } := by
  simp only [linkActive, h, if_true]
  simp [setWeft]

/-! ### Warp ports: what answers and drops leave -/

@[simp] theorem warpPort_setWarp (s : State) (p : Port) (x : WarpPort) : warpPort (setWarp s p x) p = x := by
  simp only [warpPort, setWarp, vget_vset_fin]

theorem warpPort_congr {s t : State} (h : t.warp.port = s.warp.port) (p : Nat) : warpPort t p = warpPort s p := by
  simp only [warpPort, h]

@[simp] theorem setPart_port (s : State) (v : Nat) (x : Partition) : (setPart s v x).warp.port = s.warp.port := rfl

@[simp] theorem discardCompletion_port (s : State) (v : Nat) : (discardCompletion s v).warp.port = s.warp.port := rfl

@[simp] theorem cacheAnswer_warp (s : State) (w c q st : Nat) (data : List Byte) : (cacheAnswer s w c q st data).warp = s.warp := by
  simp only [cacheAnswer]
  split <;> rfl

/-- What a port's link is, apart from what waits at it, its counts and its flow-control credits. -/
def linkPart (x : WarpPort) : WarpPort :=
  { x with synthesized := 0, dropped := 0, proxies := [], upCfg := [], reqs := [], freed := [] }

/-- Every link stands as it was. -/
def LinksKept (s t : State) : Prop := ∀ q, linkPart (warpPort t q) = linkPart (warpPort s q)

theorem LinksKept.refl (s : State) : LinksKept s s := fun _ => rfl

theorem LinksKept.trans {s t u : State} (h : LinksKept s t) (k : LinksKept t u) : LinksKept s u := fun q => (k q).trans (h q)

theorem LinksKept.of_port {s t : State} (h : t.warp.port = s.warp.port) : LinksKept s t := fun q => by rw [warpPort_congr h]

theorem LinksKept.of_warp {s t : State} (h : t.warp = s.warp) : LinksKept s t := .of_port (by rw [h])

/-- What each step of a fold leaves alone, the fold leaves alone. -/
theorem LinksKept.foldl {α : Type} {f : State → α → State} (h : ∀ u x, LinksKept u (f u x)) (l : List α) (s : State) :
    LinksKept s (l.foldl f s) := by
  induction l generalizing s with
  | nil => exact LinksKept.refl s
  | cons x l ih => exact (h s x).trans (ih (f s x))

theorem LinksKept.ite {s t u : State} {c : Prop} [Decidable c] (h : LinksKept s t) (k : LinksKept s u) :
    LinksKept s (if c then t else u) := by
  split
  · exact h
  · exact k

/-- A port written with the same link. -/
theorem setWarp_kept {s : State} {p : Nat} {x : WarpPort} (h : linkPart x = linkPart (warpPort s p)) : LinksKept s (setWarp s p x) := by
  intro q
  simp only [warpPort, setWarp]
  by_cases h1 : p = q
  · subst h1
    by_cases h2 : p < 128
    · rw [vget_vset_same _ _ _ _ h2, h, warpPort]
    · simp [vget, vset, h2]
  · rw [vget_vset_other _ _ _ _ _ h1]

theorem warpFreed_kept (s : State) (p k n : Nat) : LinksKept s (warpFreed s p k n) := setWarp_kept rfl

theorem returnCredit_kept (s : State) (c : Chain) : LinksKept s (returnCredit s c) := by
  simp only [returnCredit]
  split
  · exact .ite (.refl s) (.ite (warpFreed_kept s _ _ _) (.of_warp (by simp)))
  · exact .refl s

theorem promote_kept (s : State) (id : Nat) : LinksKept s (promote s id) := by
  simp only [promote]
  split
  · exact .refl s
  · next c _ =>
    split
    · refine .ite (.ite (.refl s) (.of_warp (by simp))) (.ite ((returnCredit_kept s c).trans (.of_warp ?_)) (.refl s))
      simp
    · exact .refl s

theorem storeChain_kept (s : State) (src size : Nat) (m : Bool) (c : Option (Nat × Nat × Nat)) :
    LinksKept s (storeChain s src size m c).1 := by
  simp only [storeChain]
  refine LinksKept.trans ?_ (.of_warp (poolChanged_warp _))
  exact LinksKept.trans (.of_warp (by simp)) (promote_kept _ _)

theorem enqueueTlp_kept (s : State) (d src : Nat) (o : Origin) (t : Tlp) (e n : Nat) : LinksKept s (enqueueTlp s d src o t e n).1 :=
  (storeChain_kept s src (cells (tlpBytes t)) false none).trans (.of_warp (by simp [enqueueTlp]))

theorem freeChain_kept (s : State) (id : Nat) : LinksKept s (freeChain s id) := by
  simp only [freeChain]
  split
  · exact .refl s
  · next c _ => exact (returnCredit_kept s c).trans (.of_warp (by simp))

theorem dropRef_kept (s : State) (id : Nat) : LinksKept s (dropRef s id) := by
  simp only [dropRef]
  split
  · exact .refl s
  · next c _ => exact .ite (freeChain_kept s id) (.ite ((returnCredit_kept s c).trans (.of_warp (by simp))) (.of_warp (by simp)))

theorem releaseItem_kept (s : State) (i : LoomItem) : LinksKept s (releaseItem s i) := by
  simp only [releaseItem]
  split
  · exact .of_port rfl
  · exact LinksKept.trans (.of_port rfl) (dropRef_kept _ _)

/-- An answer leaves every link as it is. -/
theorem answer_kept (s : State) (src : Nat) (o : Origin) (q : Tlp) (c st : Nat) (ep : Bool) (data : List Byte) :
    LinksKept s (answer s src o q c st ep data) := by
  simp only [answer]
  cases o.ret with
  | none => exact .refl s
  | port p => exact enqueueTlp_kept _ _ _ _ _ _ _
  | tunnel v =>
    dsimp only
    split
    · exact .of_warp (by simp)
    · exact .refl s
  | dobby => exact enqueueTlp_kept _ _ _ _ _ _ _
  | gone v => exact .of_port rfl
  | engine r => exact .of_port rfl
  | shuttle cid seq tag =>
    refine .of_warp ?_
    dsimp only
    cases ep <;> cases o.window <;> simp

/-- One request answered in the device's place leaves every link as it is. -/
theorem synthesize_kept (s : State) (p : Nat) (o : Origin) (t : Tlp) : LinksKept s (synthesize s p o t) := by
  simp only [synthesize]
  refine LinksKept.trans (LinksKept.trans (t := if (warpPort s p).st = .surprise then
    setWarp s p { warpPort s p with synthesized := (warpPort s p).synthesized + 1 } else s)
    (.ite (setWarp_kept rfl) (.refl s)) (.of_warp (by simp))) (.ite (answer_kept _ _ _ _ _ _ _ _) (answer_kept _ _ _ _ _ _ _ _))

/-- A posted write dropped leaves every link as it is. -/
theorem dropPosted_kept (s : State) (p : Nat) : LinksKept s (dropPosted s p) := by
  simp only [dropPosted]
  exact LinksKept.trans (t := if (warpPort s p).st = .surprise then setWarp s p { warpPort s p with dropped := (warpPort s p).dropped + 1 }
    else s) (.ite (setWarp_kept rfl) (.refl s)) (.of_warp (by simp))

/-- An item lost leaves every link as it is. -/
theorem itemLost_kept (s : State) (i : LoomItem) : LinksKept s (itemLost s i) := by
  simp only [itemLost]
  split
  · exact .of_warp (by simp)
  · split
    · exact answer_kept _ _ _ _ _ _ _ _
    · split
      · exact .of_warp (by simp)
      · exact .refl s
    · exact .refl s

/-- Refusing what is queued leaves every link as it is. -/
theorem refuseQueued_kept (s : State) (p : Nat) (i : LoomItem) : LinksKept s (refuseQueued s p i) := by
  have e : LinksKept s (releaseItem (removeItem s p i.id) i) := LinksKept.trans (.of_warp (by simp)) (releaseItem_kept _ _)
  simp only [refuseQueued]
  split
  · exact e
  · refine LinksKept.trans e (.ite ?_ (.ite ?_ (.refl _)))
    · exact LinksKept.trans (.of_warp (by simp)) (synthesize_kept _ _ _ _)
    · exact (dropPosted_kept _ _).trans (itemLost_kept _ _)

theorem refuseQueue_kept (s : State) (p : Nat) : LinksKept s (refuseQueue s p) :=
  LinksKept.foldl (fun u x => refuseQueued_kept u p x) _ _

/-- Answering what was sent leaves every link as it is. -/
theorem failSent_kept (s : State) (p : Nat) : LinksKept s (failSent s p) := by
  have one : ∀ (u : State) (x : Unseen), LinksKept u (let s := writeDone u x x.window.isSome
      match x.waiter with
      | some w => answer s p w.1 w.2 0 1 false []
      | none => s) := by
    intro u x
    dsimp only
    split
    · exact LinksKept.trans (.of_warp (writeDone_warp _ _ _)) (answer_kept _ _ _ _ _ _ _ _)
    · exact .of_warp (writeDone_warp _ _ _)
  have two : ∀ (u : State) (r : OutReq), LinksKept u
      (synthesize { u with loom := { u.loom with compHeld := u.loom.compHeld - r.reservation } } p r.origin r.t) :=
    fun u r q => (synthesize_kept _ _ _ _ q).trans rfl
  have sent : LinksKept s (setWarp s p { warpPort s p with
      reqs := [], proxies := (warpPort s p).proxies.map fun r => (r.1, { r.2 with outstanding := 0 }) }) := setWarp_kept rfl
  simp only [failSent]
  exact (sent.trans (LinksKept.foldl one _ _)).trans (LinksKept.foldl two _ _)

@[simp] theorem discardIde_port (s : State) (p c : Nat) : (discardIde s p c).warp.port = s.warp.port := by
  simp only [discardIde]
  generalize (List.filter _ _ : List Nat) = l
  have h : ∀ (l : List Nat) (u : State), (l.foldl (fun s k => event s 0x0B27 0 (p + at_ 16 (k % 65536 % 256) + at_ 24 c)) u).warp = u.warp := by
    intro l
    induction l with
    | nil => intro u; rfl
    | cons x l ih => intro u; rw [List.foldl_cons, ih, event_warp]
  rw [h]

/-- The Advanced Error Reporting registers of a port leave every link as it is. -/
theorem aerPort_kept (s : State) (p : Nat) (f : (Nat → Nat) → List (Nat × Nat) × Option Nat) : LinksKept s (aerPort s p f) := by
  have told : ∀ (u : State) (v n : Nat) (m : Option Nat), LinksKept u (match m with
      | some c => errorMessage u v n c
      | none => u) := by
    intro u v n m
    split
    · exact .of_port rfl
    · exact .refl _
  simp only [aerPort]
  refine .ite (.refl s) ?_
  split
  · next v _ =>
    have one : ∀ (u : State) (q : Nat × Nat), LinksKept u (setCfgReg u v (portFn s p) q.1 q.2) := fun u q => .of_port rfl
    simp only [aerApply]
    exact (LinksKept.foldl one _ _).trans (told _ _ _ _)
  · have one : ∀ (u : State) (q : Nat × Nat), LinksKept u (setUpReg u p q.1 q.2) := fun u q => setWarp_kept rfl
    exact .ite (.refl s) ((LinksKept.foldl one _ _).trans (told _ _ _ _))

/-- An error contained leaves every link as it is. -/
theorem selContained_kept (s : State) (x c a : Nat) (v : Option Nat) (w : Nat) : LinksKept s (selContained s x c a v w) := by
  have e : LinksKept s (aerLog s x c w) := by
    simp only [aerLog]
    split
    · exact aerPort_kept _ _ _
    · exact .refl s
  refine e.trans (.of_port ?_)
  simp only [selContained, rateEvent]
  cases v <;> dsimp only <;> split <;> simp [selLatch]

@[simp] theorem assertSlotPerst_port (s : State) (p : Nat) : (assertSlotPerst s p).warp.port = s.warp.port := by
  simp only [assertSlotPerst]
  split <;> simp [setSlot]

@[simp] theorem warpLinkGone_port (s : State) (p c : Nat) : (warpLinkGone s p c).warp.port =
    vset s.warp.port p { warpPort s p with width := 0, rate := 0, flit := false, equalised := 0, downCause := c } := by
  simp [warpLinkGone, setWarp]

/-- A surprise down: the port's link afterwards. -/
theorem surpriseEnter_link (s : State) (p : Port) (b : Bool) : linkPart (warpPort (surpriseEnter s p b) p) =
    linkPart { warpPort s p with width := 0, rate := 0, flit := false, equalised := 0, downCause := 1, st := .surprise, reportAt := s.now } := by
  simp only [surpriseEnter, surpriseState]
  rw [refuseQueue_kept _ _ _, failSent_kept _ _ _, warpPort_congr (assertSlotPerst_port _ _), warpPort_setWarp]
  generalize hg : eventFull s 0x0302 p 2 (portPart s p) false (p + at_ 16 (b2n b)) = u
  have hu : warpPort u p = warpPort s p := by rw [← hg, warpPort_congr (congrArg WarpBlk.port (eventFull_warp _ _ _ _ _ _ _))]
  have hn : u.now = s.now := by simp [← hg]
  have e := selContained_kept (warpLinkGone u p 1) p 14 3 (portPart u p) 0 p
  have e2 : warpPort (warpLinkGone u p 1) p = { warpPort s p with width := 0, rate := 0, flit := false, equalised := 0, downCause := 1 } := by
    rw [warpPort, warpLinkGone_port, vget_vset_fin, hu]
  have close : ∀ (y z : WarpPort) (n m : Nat), linkPart y = linkPart z → n = m →
      linkPart { y with st := .surprise, synthesized := 0, dropped := 0, reportAt := n } =
      linkPart { z with st := .surprise, reportAt := m } := by
    intro y z n m h hm
    subst hm
    exact congrArg (fun x : WarpPort => { x with st := .surprise, reportAt := n }) h
  refine close _ { warpPort s p with width := 0, rate := 0, flit := false, equalised := 0, downCause := 1 } _ _ ?_ ?_
  · rw [warpPort_congr (congrArg WarpBlk.port (count_warp _ _ _))]
    exact e.trans (congrArg linkPart e2)
  · simp [hn]

end Sys2Proof.Machine
end

