-- ==== Sys2Proof/WellFormed.lean ====
section
/-!
DEFINITION. Which commands are well formed: the bounds of their operands that the types do not say. A command that is not
well formed cannot come from the wires, registers and pins it stands for.
-/

namespace Sys2Proof

/-- A TLP as a data link layer can hand it over: at most 4,096 bytes, four byte enables to a doubleword, a 16-bit requester
ID and a 14-bit tag (R112, R113). -/
def Tlp.wellFormed (t : Tlp) : Bool :=
  t.len ≤ 4096 && t.data.length ≤ 4096 && t.firstBe < 16 && t.lastBe < 16 && t.rid < 2 ^ 16 && t.tag < 2 ^ 14 && t.addr < 2 ^ 64 &&
    t.completer < 2 ^ 16 && t.status < 8 && t.errs.all fun c => [1, 8, 9, 10, 11, 12, 13, 16].contains c

/-- A VME cycle: beats of 1, 2, 4 or 8 bytes, a 6-bit modifier, at most 2,048 bytes in a burst (R389, R390). -/
def VmeCycle.wellFormed (c : VmeCycle) : Bool :=
  (c.width == 1 || c.width == 2 || c.width == 4 || c.width == 8) && c.am < 64 && c.len ≤ 2048 && c.beats.length ≤ 2048

/-- The lengths a CAN FD data field can have (R466). -/
def canLength (n : Nat) : Bool := n ≤ 8 || n == 12 || n == 16 || n == 20 || n == 24 || n == 32 || n == 48 || n == 64

/-- The operands of a command are within the bounds of what it stands for. -/
def Instr.wellFormed (i : Instr) : Bool :=
  match i with
  | .supplyRise _ _ _ => true
  | .feedRampStart _ _ _ => true
  | .shortFailCheck _ _ _ => true
  | .feedRampComplete _ _ _ _ => true
  | .gateFailTimeout _ _ _ => true
  | .feedQualifyDone _ _ => true
  | .currentLimitEnter _ _ _ _ => true
  | .currentLimitExit _ _ => true
  | .faultTimerExpiry _ _ => true
  | .fastTrip _ _ _ => true
  | .cooldownExpiry _ _ => true
  | .feedOutOfRange _ _ => true
  | .feedPowerCycled _ _ => true
  | .tripCountReset _ => true
  | .idealDiodeReverseOff _ _ _ => true
  | .reverseFailCheck _ _ _ => true
  | .idealDiodeOn _ _ _ => true
  | .feedClear _ _ _ => true
  | .vkeepChange _ => true
  | .vioDobChange _ => true
  | .coreOn _ _ => true
  | .bootSlotSelect _ => true
  | .configEntry _ => true
  | .storedConfigCommit => true
  | .serviceEntry _ => true
  | .governorPeriod _ _ _ _ _ _ => true
  | .capacityFloorClear => true
  | .vcoreRaiseDone _ => true
  | .loomRescaleDone => true
  | .thermalLoop _ => true
  | .thermalFatalTimeout => true
  | .weftBlockReceive _ _ => true
  | .blockLockAcquired _ => true
  | .blockLockLost _ => true
  | .laneLockTimeout _ => true
  | .alignSend _ => true
  | .alignReceive _ => true
  | .laneAlignTimeout _ => true
  | .refclkLost _ => true
  | .refclkRestored _ => true
  | .adaptFreeze _ => true
  | .adaptFreezeEnd => true
  | .adaptFreezeHeldStart => true
  | .marginStart _ _ => true
  | .marginStep _ => true
  | .flitSend _ => true
  | .flitReceive _ => true
  | .replayTimerExpiry _ => true
  | .weftTrainingStart _ => true
  | .ts1Receive _ => true
  | .ts2Receive _ => true
  | .trainingPhaseTimeout _ => true
  | .creditInitReceive _ => true
  | .flitStartReceive _ => true
  | .alignedTimeout _ => true
  | .retrainReqReceive _ => true
  | .retrainRateStep _ => true
  | .retrainTimeout _ => true
  | .weftRetrainCmd _ _ _ => true
  | .tlpIngress _ t => t.wellFormed
  | .warpLinkUp _ width rate flit => width ≤ 16 && 1 ≤ width && 1 ≤ rate && rate ≤ 7 && (rate ≤ 5 || flit)
  | .perstAssert _ _ => true
  | .perstDeassert _ => true
  | .hotResetReceived _ => true
  | .dlDown _ => true
  | .vsResetCmd _ _ _ => true
  | .partitionResetEnd _ => true
  | .partitionReady _ => true
  | .secondaryBusReset _ => true
  | .linkDisable _ => true
  | .slotPowerOff _ => true
  | .slotPwrenClear _ => true
  | .slotPowerOn _ => true
  | .slotPerstRelease _ => true
  | .indicatorSet _ _ _ => true
  | .indicatorBlink => true
  | .surpriseDown _ => true
  | .hpInputDebounced _ _ => true
  | .expanderInterrupt inputs => inputs.length == 16
  | .expanderPoll inputs => inputs.length == 16
  | .expanderRetry _ _ => true
  | .surpriseReport _ => true
  | .linkReturnL0 _ width rate flit => width ≤ 16 && 1 ≤ width && 1 ≤ rate && rate ≤ 7 && (rate ≤ 5 || flit)
  | .dpcTrigger _ reason => reason < 4
  | .dpcRelease _ => true
  | .proxyFree _ _ => true
  | .mcastGroupEnable _ _ => true
  | .weCompletionTimeout _ => true
  | .sharedPromotion _ => true
  | .egressArbitration _ _ => true
  | .ledgerMoveStart => true
  | .ledgerMoveDone => true
  | .spillWriteDone => true
  | .readbackStart _ _ => true
  | .readbackDone _ => true
  | .beamStackFault _ => true
  | .ageSweep => true
  | .sharedPoolExhausted => true
  | .linkProbeSend _ => true
  | .linkProbeReceive => true
  | .beaconSend => true
  | .beaconReceive => true
  | .directedMsgForward => true
  | .masterDiscovery => true
  | .neighbours => true
  | .assignMid => true
  | .routeWrite => true
  | .bankSwitch => true
  | .bankSwitchTime => true
  | .fabricCtlHeartbeatSend => true
  | .fabricCtlHeartbeatReceive => true
  | .admitPartition => true
  | .fenceNotice => true
  | .resyncBegin => true
  | .resyncEnd => true
  | .memberReport => true
  | .tableRecompute => true
  | .admissionTimeout => true
  | .beaconSilence => true
  | .heartbeatSilence => true
  | .leaseRenew => true
  | .leaseResp => true
  | .claimResp => true
  | .witnessUnreachableFence => true
  | .memberFenceDeadline => true
  | .masterForce _ _ => true
  | .ftSet _ _ => true
  | .ftPpsInEdge => true
  | .ftPpsOutPulse => true
  | .operationAccept => true
  | .deferredAccept => true
  | .operationFirstSend _ => true
  | .retransmitTimeout _ => true
  | .operationReceive => true
  | .ackSend _ => true
  | .ackReceive => true
  | .nakReceive => true
  | .connReqOpen => true
  | .connReqClose => true
  | .connReqReset => true
  | .connReqRekey => true
  | .connResp => true
  | .connReqResend _ => true
  | .connOpenTimeout _ => true
  | .connExchangeTimeout _ => true
  | .connCloseTimeout _ => true
  | .autoResumeTimer _ => true
  | .rekeyAll _ _ => true
  | .apertureAccess _ t => t.wellFormed
  | .heldLoadSend => true
  | .visibilityPoint => true
  | .windowRevokeComplete _ => true
  | .postfailClear _ _ _ => true
  | .windowOpen => true
  | .windowRevoke => true
  | .windowFree => true
  | .windowRead => true
  | .importWrite => true
  | .importInvalidate => true
  | .importRead => true
  | .importSetGen => true
  | .connOpen => true
  | .connModify => true
  | .connReset => true
  | .connRead => true
  | .connClose => true
  | .ledgerRead => true
  | .fenceBind => true
  | .queueCreate => true
  | .queueDelete => true
  | .shareSet => true
  | .tuMap => true
  | .tuUnmap => true
  | .tuUnmapComplete => true
  | .tuMode => true
  | .admqCtrl _ value => value < 2 ^ 32
  | .admcqHead _ value => value < 2 ^ 32
  | .vfMsgRing _ value => value < 2 ^ 32
  | .vfReplyWrite _ _ reply => reply.length == 64
  | .vfEnable _ numVfs => numVfs ≤ 256
  | .vfDisable _ => true
  | .vfFlr _ => true
  | .vfFlrComplete _ => true
  | .pfFlr _ => true
  | .descWrite _ _ => true
  | .descRead _ _ => true
  | .descAtomic _ _ => true
  | .descFence _ _ => true
  | .descNop _ _ => true
  | .descriptorComplete _ _ => true
  | .descFetchFail _ _ => true
  | .fenceSlotRead _ _ rid tag => rid < 2 ^ 16 && tag < 2 ^ 14
  | .hedCommit _ _ => true
  | .hedCommitComplete => true
  | .debugAccess _ _ len => len ≤ 4096
  | .selIsolateCmd _ _ _ => true
  | .routingStateError _ => true
  | .shadowReloadDone _ _ => true
  | .selErrClear _ _ _ => true
  | .moduleFatalError cause => cause < 2 ^ 8
  | .mirrorRecordReceive => true
  | .twinSilence => true
  | .twinLostDeclare => true
  | .mirrorRateAlert => true
  | .dobbyTake _ => true
  | .vmeCycleStart => true
  | .vmeCycleEnd _ => true
  | .vmeBerr => true
  | .dobBusTimerExpiry => true
  | .vmeInboundCycle c => c.wellFormed
  | .vmeSemaphoreCycle _ am _ _ => am < 64
  | .semRead _ _ rid tag => rid < 2 ^ 16 && tag < 2 ^ 14
  | .semWrite _ _ _ => true
  | .vmeIrqAssert _ => true
  | .iackDone _ => true
  | .ihRearm _ mask => mask < 2 ^ 32
  | .irqRaise _ value => value < 2 ^ 32
  | .irqWithdraw _ mask => mask < 2 ^ 32
  | .iackinReceive _ width => width == 1 || width == 2 || width == 4
  | .lockBackoff => true
  | .unlockMessage _ => true
  | .busRequestPending => true
  | .dobConnOpen _ _ => true
  | .dobConnClose _ _ => true
  | .dobConnReset _ _ => true
  | .sysresetInput => true
  | .sysfailChange _ => true
  | .acfailChange _ => true
  | .sysresetOutEnd => true
  | .warmResetCmd _ _ => true
  | .warmResetDrainEnd => true
  | .warmResetCoreReset => true
  | .testEnterCmd _ _ => true
  | .testEntryTime => true
  | .fwLoadBegin _ _ => true
  | .fwEraseDone => true
  | .fwBlockData _ _ => true
  | .fwLoadEnd _ _ => true
  | .fwVerifyDone _ => true
  | .fwActivateCmd _ _ => true
  | .fwActivateCancel _ _ => true
  | .fwActivationStart => true
  | .hitlessPhaseDone _ => true
  | .hitlessResume => true
  | .trialEnd => true
  | .treadleWatchdogExpiry => true
  | .heartbeatSend => true
  | .heartbeat => true
  | .authBegin => true
  | .authProof => true
  | .authTimeout sess => sess < 2 ^ 16
  | .lockoutEnd source => source < 256
  | .read => true
  | .write => true
  | .commit _ => true
  | .commitFlashDone _ => true
  | .discard => true
  | .sessionEnd => true
  | .describe => true
  | .sessionIdleTimeout sess => sess < 2 ^ 16
  | .lease => true
  | .leaseExpiry _ => true
  | .claim => true
  | .claimPendingTimeout _ => true
  | .witnessStartupEnd => true
  | .canFrameReceive ident bytes => ident < 2 ^ 29 && bytes.length ≤ 64 && canLength bytes.length
  | .segmentTimeout src typ tagId => src < 256 && typ < 32 && tagId < 32
  | .canBusOff => true
  | .canBusOffRecovery => true
  | .mbReqSegment _ ctrl bytes => bytes.length ≤ 2048 && ctrl < 2 ^ 32
  | .mbRespTaken _ => true
  | .entropyFault => true
  | .entropyRecovered => true
  | .tapInstruction _ => true
  | .ideKmKeyProg _ stream _ _ => stream < 256
  | .tallySnapshotLaunch => true
  | .tallyImageComplete => true
  | .tallyHold _ _ => true
  | .tallyHoldTimeout => true
  | .spoolDeliveryDeadline _ => true
  | .spoolRelease _ _ _ => true
  | .spoolMark _ _ _ => true
  | .spoolRewind _ _ _ => true
  | .spoolRestart _ _ _ => true
  | .spoolIntrTimeout _ => true
  | .boltCapture _ _ => true
  | .boltRelease _ _ => true
  | .boltWriteDone => true
  | .boltSectionTimeout => true
  | .registerWrite _ index sub _ => index < 2 ^ 16 && sub < 2 ^ 8
  | .fabricCtlResponse => true
  | .sqTailDoorbell _ _ tail => tail < 2 ^ 32
  | .admqTailDoorbell _ tail => tail < 2 ^ 32
  | .retrainReqEnd _ => true

end Sys2Proof
end

