-- ==== Sys2Proof/Tests/Slice0.lean ====
section
/-!
SUPPORT. Tests: ill-formed commands, single commands on small states, and, for every statement with hypotheses, a state and
operands that meet them all.
-/

set_option maxRecDepth 20000

namespace Sys2Proof.Tests

open Sys2Proof.Machine

set_option Elab.async false

/-! ### States the tests use -/

/-- A module with feed A as given, at a time. -/
def withFeed (n : Nat) (x : FeedState) : State := { now := n, module := { state := .service }, power := { a := x } }

/-- Session 1 of an operator, an installer, a maker. -/
def asRole (r : Nat) (s : State) : State := { s with mgmt := { s.mgmt with sessions := [{ slot := 0, num := 1, role := r, source := 16 }] } }

def asOperator (s : State) : State := asRole 1 s

def asInstaller (s : State) : State := asRole 2 s

def asMaker (s : State) : State := asRole 3 s

/-! ### Ill-formed commands: one for each check of WellFormed.lean -/

/-- A TLP with nothing wrong, for the tests to spoil. -/
def okTlp : Tlp := { kind := .memWrite, addr := 4096, len := 4, data := [1, 2, 3, 4] }

def okCycle : VmeCycle := { addr := 4096, am := 9, kind := .single, write := false, width := 4, len := 4 }

theorem test_well_formed : (Instr.tlpIngress 5 okTlp).wellFormed = true ∧ (Instr.vmeInboundCycle okCycle).wellFormed = true ∧
    Instr.hedCommitComplete.wellFormed = true := by decide +kernel

theorem test_ill_tlp_len : (Instr.tlpIngress 5 { okTlp with len := 4097 }).wellFormed = false := by decide +kernel
theorem test_ill_tlp_data : (Instr.apertureAccess 0 { okTlp with data := List.replicate 4097 0 }).wellFormed = false := by
  decide +kernel
theorem test_ill_tlp_byte_enables : (Instr.tlpIngress 5 { okTlp with firstBe := 16 }).wellFormed = false ∧
    (Instr.tlpIngress 5 { okTlp with lastBe := 16 }).wellFormed = false := by decide +kernel
theorem test_ill_tlp_ids : (Instr.tlpIngress 5 { okTlp with rid := 65536 }).wellFormed = false ∧
    (Instr.tlpIngress 5 { okTlp with tag := 16384 }).wellFormed = false ∧
    (Instr.tlpIngress 5 { okTlp with addr := 2 ^ 64 }).wellFormed = false ∧
    (Instr.tlpIngress 5 { okTlp with completer := 65536 }).wellFormed = false ∧
    (Instr.tlpIngress 5 { okTlp with status := 8 }).wellFormed = false ∧
    (Instr.tlpIngress 5 { okTlp with errs := [0] }).wellFormed = false ∧
    (Instr.tlpIngress 5 { okTlp with errs := [41] }).wellFormed = false := by decide +kernel
theorem test_ill_link : (Instr.warpLinkUp 3 17 1 false).wellFormed = false ∧ (Instr.warpLinkUp 3 0 1 false).wellFormed = false ∧
    (Instr.warpLinkUp 3 4 0 false).wellFormed = false ∧ (Instr.linkReturnL0 3 17 1 false).wellFormed = false ∧
    (Instr.linkReturnL0 3 4 8 false).wellFormed = false ∧ (Instr.warpLinkUp 3 4 6 false).wellFormed = false := by decide +kernel
theorem test_ill_inputs : (Instr.expanderInterrupt (List.replicate 15 none)).wellFormed = false ∧
    (Instr.expanderPoll (List.replicate 17 none)).wellFormed = false := by decide +kernel
theorem test_ill_reason : (Instr.dpcTrigger 3 4).wellFormed = false ∧ (Instr.moduleFatalError 256).wellFormed = false := by
  decide +kernel
theorem test_ill_queue_registers : (Instr.admqCtrl 0 (2 ^ 32)).wellFormed = false ∧ (Instr.admcqHead 0 (2 ^ 32)).wellFormed = false ∧
    (Instr.vfMsgRing 0 (2 ^ 32)).wellFormed = false ∧ (Instr.sqTailDoorbell 0 0 (2 ^ 32)).wellFormed = false ∧
    (Instr.admqTailDoorbell 0 (2 ^ 32)).wellFormed = false := by decide +kernel
theorem test_ill_functions : (Instr.vfReplyWrite 0 0 [0]).wellFormed = false ∧ (Instr.vfEnable 0 257).wellFormed = false ∧
    (Instr.fenceSlotRead 0 0 65536 0).wellFormed = false ∧ (Instr.fenceSlotRead 0 0 0 16384).wellFormed = false ∧
    (Instr.debugAccess true 0 4097).wellFormed = false := by decide +kernel
theorem test_ill_cycle : (Instr.vmeInboundCycle { okCycle with width := 3 }).wellFormed = false ∧
    (Instr.vmeInboundCycle { okCycle with am := 64 }).wellFormed = false ∧
    (Instr.vmeInboundCycle { okCycle with len := 2049 }).wellFormed = false ∧
    (Instr.vmeInboundCycle { okCycle with beats := List.replicate 2049 0 }).wellFormed = false ∧
    (Instr.vmeSemaphoreCycle 0 64 true 0).wellFormed = false := by
  decide +kernel
theorem test_ill_dobby_registers : (Instr.semRead 0 0 65536 0).wellFormed = false ∧ (Instr.semRead 0 0 0 16384).wellFormed = false ∧
    (Instr.ihRearm 0 (2 ^ 32)).wellFormed = false ∧ (Instr.irqRaise 0 (2 ^ 32)).wellFormed = false ∧
    (Instr.irqWithdraw 0 (2 ^ 32)).wellFormed = false ∧ (Instr.iackinReceive 1 8).wellFormed = false := by decide +kernel
theorem test_ill_sessions : (Instr.authTimeout 65536).wellFormed = false ∧ (Instr.sessionIdleTimeout 65536).wellFormed = false ∧
    (Instr.lockoutEnd 256).wellFormed = false := by decide +kernel
theorem test_ill_frame : (Instr.canFrameReceive (2 ^ 29) []).wellFormed = false ∧
    (Instr.canFrameReceive 0 (List.replicate 65 0)).wellFormed = false ∧
    (Instr.canFrameReceive 0 (List.replicate 9 0)).wellFormed = false ∧ (Instr.segmentTimeout 256 0 0).wellFormed = false ∧
    (Instr.segmentTimeout 0 32 0).wellFormed = false ∧ (Instr.segmentTimeout 0 0 32).wellFormed = false := by decide +kernel
theorem test_ill_mailbox : (Instr.mbReqSegment 0 0 (List.replicate 2049 0)).wellFormed = false ∧
    (Instr.mbReqSegment 0 (2 ^ 32) []).wellFormed = false ∧ (Instr.ideKmKeyProg 3 256 true []).wellFormed = false ∧
    (Instr.registerWrite 0 65536 0 0).wellFormed = false ∧ (Instr.registerWrite 0 0 256 0).wellFormed = false := by decide +kernel

/-! ### Worked examples of the spec, and published values of the standards it names -/

/-- The four symbols of the worked example of chapter 3 ("Worked example: precoding four symbols"). -/
theorem test_precoding : [1, 2, 0, 3].map graySymbol = [1, 3, 0, 2] ∧ precodeAll 0 [1, 3, 0, 2] = [1, 2, 2, 0] ∧
    unprecodeAll 0 [1, 2, 2, 0] = [1, 3, 0, 2] := by decide +kernel

/-- The mixed octet pair of chapter 3: P16 on L32 to L47, P24 on L48 to L51, P26 on L52 and L53, P27 on L54, no P25. -/
def mixedPair : State := { cfg := [(key 0x3001 5, 5), (key 0x3001 6, 5), (key 0x3001 7, 3), (key 0x3002 7, 8)] }
theorem test_mixed_octets : portLanes mixedPair 16 = some (32, 16) ∧ portLanes mixedPair 24 = some (48, 4) ∧
    portLanes mixedPair 25 = none ∧ portLanes mixedPair 26 = some (52, 2) ∧ portLanes mixedPair 27 = some (54, 1) := by
  decide +kernel

/-- The example of R172: an x16 warp egress at 128.0 GT/s has K = 1,843 bobbins, and 1,325 at the capacity of 0.55 V. -/
def exampleEgress (capacity : Nat) : State :=
  { cfg := [(key 0x3001 1, 5), (key 0x3001 2, 5), (key 0x3003 1, 1), (key 0x4030 1, 2000)], gov := { capacity := capacity },
    warp := { port := vset State.reset.warp.port 0 { width := 16, rate := 7 } } }
theorem test_mark_threshold : markThreshold (exampleEgress 48000) 0 = 1843 ∧ markThreshold (exampleEgress 21714) 0 = 1325 := by
  decide +kernel

/-- The 4,144 bytes of the worked example of R152 take 17 bobbins. -/
theorem test_bobbins : cells 4144 = 17 := by decide +kernel

/-- The check values of CRC-32C and of the CRC-16 of R95, over the nine bytes "123456789". -/
def nine : List Byte := [0x31, 0x32, 0x33, 0x34, 0x35, 0x36, 0x37, 0x38, 0x39]
theorem test_crc32c : crc32c nine = 0xE3069283 := by decide +kernel
theorem test_crc16 : crc16 nine = 0x29B1 := by decide +kernel
/-- The CRC-64 of R79 over the two bytes "12", worked by hand from its polynomial. -/
theorem test_crc64 : flitCrc 0x3231 [] = 0x0B7729E569E4CED7 := by decide +kernel

/-- SHA-384 of "abc", the example of FIPS 180-4: its first eight bytes. -/
theorem test_sha384 : (sha384 [0x61, 0x62, 0x63]).take 8 = [0xcb, 0x00, 0x75, 0x3f, 0x45, 0xa3, 0x5e, 0x8b] := by decide +kernel

/-- AES-256-GCM, test case 14 of the GCM specification: zero key, nonce and block. -/
theorem test_gcm : (gcmSeal (List.replicate 32 0) (List.replicate 12 0) [] (List.replicate 16 0)).2.take 8 =
    [0xd0, 0xd1, 0xc8, 0xa7, 0x99, 0x99, 0x6b, 0xf0] := by decide +kernel

/-! ### A commit that passes its checks, for two witnesses below -/

def commitBase : State := { now := 0, module := { state := .service }, cfg := [(key 0x1120 3, 1), (key 0x4020 1, 0)], mgmt := { inbox := [{ source := 16, typ := 9, session := 1, body := [] }], sessions := [{ slot := 1, num := 1, role := 2, source := 16, staged := [(key 0x1103 2, 600)] }] } }
theorem test_commit_checks : checkCommit commitBase 2 [(key 0x1103 2, 600)] = none := by decide +kernel

theorem meets_supplyRise : ∃ (vkeepMv : Nat) (aMv : Nat) (bMv : Nat) (s : State), s.module.state = .off ∧ (2700 ≤ vkeepMv ∨ 2700 ≤ aMv ∨ 2700 ≤ bMv) :=
  ⟨2700, 0, 0, State.reset, by decide +kernel⟩

theorem meets_feedRampStart : ∃ (f : Feed) (mv : Nat) (outMv : Nat) (t0 : Nat) (s : State), (feedOf s f).st = .wait ∧ (feedOf s f).inSince = some t0 ∧ t0 + 10000000 ≤ s.now ∧ 2650 < mv ∧ mv < 14200 ∧ outMv * 10 ≤ mv * 9 :=
  ⟨.a, 12000, 10800, 0, withFeed 10000000 { st := .wait, inSince := some 0 }, by decide +kernel⟩

theorem meets_feedRampComplete : ∃ (f : Feed) (mv : Nat) (outMv : Nat) (gateMv : Nat) (s : State), (feedOf s f).st = .ramp ∧ mv ≤ outMv + 100 ∧ mv ≤ (feedOf s f).rampMv s.now mv + 100 ∧ mv + 8000 < gateMv :=
  ⟨.a, 12000, 11900, 20001, withFeed 1000000 { st := .ramp, rampUs := 1000 }, by decide +kernel⟩

theorem meets_feedQualifyDone : ∃ (f : Feed) (s : State), (feedOf s f).st = .qualify ∧ (feedOf s f).timer = none ∧ (feedOf s f).clearSince + 5000000 ≤ s.now :=
  ⟨.a, withFeed 5000000 { st := .qualify }, by decide +kernel⟩

theorem meets_currentLimitEnter : ∃ (f : Feed) (ma : Nat) (s : State), ((feedOf s f).st = .ramp ∨ (feedOf s f).st = .qualify ∨ (feedOf s f).st = .good) ∧ (feedOf s f).ilimit = false ∧ (feedOf s f).hwLimit * 1000 < ma :=
  ⟨.a, 60001, withFeed 0 { st := .ramp }, by decide +kernel⟩

theorem meets_currentLimitExit : ∃ (f : Feed) (s : State), (feedOf s f).ilimit = true :=
  ⟨.b, { power := { b := { st := .qualify, ilimit := true, timer := some 0 } } }, by decide +kernel⟩

theorem meets_faultTimerExpiry : ∃ (f : Feed) (mv : Nat) (t0 : Nat) (s : State), ((feedOf s f).st = .ramp ∨ (feedOf s f).st = .qualify ∨ (feedOf s f).st = .good) ∧ (feedOf s f).timer = some t0 ∧ t0 + cfgv s 0x2002 (feedSub f) * 1000 ≤ s.now ∧ 2700 ≤ mv :=
  ⟨.a, 2700, 0, withFeed 2000000 { st := .good, ilimit := true, timer := some 0, pgood := true }, by decide +kernel⟩

theorem meets_fastTrip : ∃ (f : Feed) (mv : Nat) (ma : Nat) (s : State), ((feedOf s f).st = .ramp ∨ (feedOf s f).st = .qualify ∨ (feedOf s f).st = .good) ∧ 2 * (feedOf s f).hwLimit * 1000 ≤ ma ∧ 2700 ≤ mv :=
  ⟨.a, 2700, 120000, withFeed 0 { st := .ramp, trips := 3 }, by decide +kernel⟩

theorem meets_cooldownExpiry : ∃ (f : Feed) (s : State), (feedOf s f).st = .cooldown ∧ (feedOf s f).since + 250000000 ≤ s.now :=
  ⟨.a, withFeed 250000000 { st := .cooldown, trips := 1 }, by decide +kernel⟩

theorem meets_tripCountReset : ∃ (f : Feed) (s : State), (feedOf s f).st = .good ∧ (feedOf s f).timer = none ∧ (feedOf s f).clearSince + 10000000000 ≤ s.now :=
  ⟨.a, withFeed 10000000000 { st := .good, pgood := true, trips := 3 }, by decide +kernel⟩

theorem meets_shortFailCheck : ∃ (f : Feed) (mv : Nat) (outMv : Nat) (s : State), ((feedOf s f).st = .wait ∨ (feedOf s f).st = .cooldown ∨ (feedOf s f).st = .latched) ∧ (feedOf s f).shortFail = false ∧ (feedOf s f).gateOffSince + 20000000 ≤ s.now ∧ mv * 9 < outMv * 10 ∧ 2700 ≤ mv :=
  ⟨.a, 12000, 10801, withFeed 20000000 { st := .wait }, by decide +kernel⟩

theorem meets_gateFailTimeout : ∃ (f : Feed) (mv : Nat) (gateMv : Nat) (s : State), (feedOf s f).st = .ramp ∧ (feedOf s f).ilimit = false ∧ gateMv ≤ mv + 8000 ∧ 2000000 ≤ (feedOf s f).gateCount + (s.now - (feedOf s f).clearSince) ∧ 2700 ≤ mv :=
  ⟨.a, 12000, 20000, withFeed 2000000 { st := .ramp }, by decide +kernel⟩

theorem meets_reverseFailCheck : ∃ (f : Feed) (mv : Nat) (reverseMa : Nat) (t0 : Nat) (s : State), (feedOf s f).st ≠ .disabled ∧ (feedOf s f).diodeOffAt = some t0 ∧ t0 + 2000 ≤ s.now ∧ 5000 ≤ reverseMa ∧ 2700 ≤ mv :=
  ⟨.a, 12000, 5000, 0, withFeed 2000 { st := .good, diodeOffAt := some 0 }, by decide +kernel⟩

theorem meets_feedOutOfRange : ∃ (f : Feed) (mv : Nat) (s : State), ((feedOf s f).st = .ramp ∨ (feedOf s f).st = .qualify ∨ (feedOf s f).st = .good) ∧ (mv < 2500 ∨ 14500 < mv) ∧ s.power.vkeepOk = true :=
  ⟨.a, 14501, { withFeed 0 { st := .good, pgood := true } with power := { a := { st := .good, pgood := true }, vkeepOk := true } }, by decide +kernel⟩

theorem meets_idealDiodeReverseOff : ∃ (f : Feed) (reverseMa : Nat) (s : State), (feedOf s f).diodeOn = true ∧ 2000 < reverseMa :=
  ⟨.a, 2001, withFeed 0 { st := .good, diodeOn := true }, by decide +kernel⟩

theorem meets_idealDiodeOn : ∃ (f : Feed) (mv : Nat) (railMv : Nat) (s : State), (feedOf s f).diodeOn = false ∧ ((feedOf s f).st = .ramp ∨ (feedOf s f).st = .qualify ∨ (feedOf s f).st = .good) ∧ railMv + 20 ≤ mv :=
  ⟨.a, 12020, 12000, withFeed 0 { st := .good }, by decide +kernel⟩

theorem meets_feedPowerCycled : ∃ (f : Feed) (mv : Nat) (t0 : Nat) (s : State), ((feedOf s f).st = .latched ∨ (feedOf s f).st = .failed) ∧ mv < 1000 ∧ (feedOf s f).lowSince = some t0 ∧ t0 + 50000000 ≤ s.now :=
  ⟨.a, 999, 0, withFeed 50000000 { st := .latched, trips := 4, lowSince := some 0 }, by decide +kernel⟩

theorem meets_feedClear : ∃ (sess : Nat) (f : Feed) (s : State), MayAct s sess 0x2006 (feedSub f) 1 ∧ ((feedOf s f).st = .latched ∨ (feedOf s f).st = .failed) :=
  ⟨1, .a, asInstaller { withFeed 0 { st := .failed, gateFail := true, trips := 2 } with module := { state := .service } }, by decide +kernel⟩

theorem meets_vkeepChange : ∃ (mv : Nat) (s : State), s.module.state ≠ .off ∧ (s.power.vkeepOk = false ∧ 2700 < mv ∨ s.power.vkeepOk = true ∧ mv < 2600 ∧ 2700 ≤ s.power.a.mv) :=
  ⟨2701, withFeed 0 { mv := 12000 }, by decide +kernel⟩

theorem meets_vioDobChange : ∃ (mv : Nat) (t0 : Nat) (s : State), s.module.state ≠ .off ∧ (s.power.vioOk = false ∧ 2650 ≤ mv ∧ mv ≤ 5600 ∧ s.power.vioSince = some t0 ∧ t0 + 10000000 ≤ s.now ∨ s.power.vioOk = true ∧ (mv < 2650 ∨ 5600 < mv)) :=
  ⟨5600, 0, { now := 10000000, module := { state := .service }, power := { vioSince := some 0 } }, by decide +kernel⟩

theorem meets_governorPeriod : ∃ (s : State), s.gov.running = true ∧ s.gov.periodAt + 100000 ≤ s.now :=
  ⟨{ now := 100000, gov := { running := true } }, by decide +kernel⟩

theorem meets_capacityFloorClear : ∃ (t0 : Nat) (s : State), s.gov.belowFloor = true ∧ cfgv s 0x2100 3 ≤ s.gov.capacity ∧ s.gov.atFloorSince = some t0 ∧ t0 + 10000000 ≤ s.now :=
  ⟨0, { now := 10000000, gov := { belowFloor := true, atFloorSince := some 0 } }, by decide +kernel⟩

theorem meets_vcoreRaiseDone : ∃ (mv : Nat) (v : Nat) (s : State), s.gov.raising = some v ∧ v ≤ mv :=
  ⟨555, 555, { gov := { vcore := 555, raising := some 555 } }, by decide +kernel⟩

theorem meets_loomRescaleDone : ∃ (s : State), s.gov.rescaling = true :=
  ⟨{ gov := { rescaling := true, lowering := some 550, vcore := 600 } }, by decide +kernel⟩

theorem meets_thermalLoop : ∃ (s : State), s.gov.running = true ∧ s.gov.thermalAt + 10000000 ≤ s.now ∧ s.module.pause = none :=
  ⟨{ now := 10000000, gov := { running := true } }, by decide +kernel⟩

theorem meets_coreOn : ∃ (s : State), s.module.state = .feedsUp ∧ s.vault.entropyOk = true :=
  ⟨{ module := { state := .feedsUp } }, by decide +kernel⟩

theorem meets_bootSlotSelect : ∃ (k : Nat) (s : State), s.module.state = .coreOn ∧ slotIn s .active = some k ∧ k < 2 ∧ (fwSlot s k).trial = false ∧ slotIn s .pending = none ∧ (fwSlot s (1 - k)).st ≠ .verified :=
  ⟨0, { module := { state := .coreOn, slots := vset (Vector.replicate 2 {}) 0 { st := .active } } }, by decide +kernel⟩

theorem meets_configEntry : ∃ (s : State), s.module.state = .boot ∧ s.module.started = true ∧ s.module.toTest = false ∧ s.module.warmHeld = none :=
  ⟨{ module := { state := .boot, started := true } }, by decide +kernel⟩

theorem meets_serviceEntry : ∃ (tried : Bool) (s : State), s.module.state = .links ∧ (List.range 128).all (portTried s tried) = true ∧ membershipSettled s = true :=
  ⟨true, { module := { state := .links } }, by decide +kernel⟩

theorem meets_warmResetCmd : ∃ (sess : Nat) (s : State), MayAct s sess 0x1340 1 1 ∧ warmStates s.module.state = true ∧ s.module.warm = none ∧ s.mgmt.inFlash = none :=
  ⟨1, asInstaller { module := { state := .service } }, by decide +kernel⟩

theorem meets_warmResetDrainEnd : ∃ (s : State), s.module.warm = some .drain ∧ (s.win.posting = [] ∧ s.shu.ledger = [] ∨ s.module.warmSince + 10000000 ≤ s.now) :=
  ⟨{ module := { state := .service, warm := some .drain } }, by decide +kernel⟩

theorem meets_warmResetCoreReset : ∃ (s : State), s.module.warm = some .reset ∧ s.module.warmSince + 1000000 ≤ s.now :=
  ⟨{ now := 1000000, module := { state := .service, warm := some .reset } }, by decide +kernel⟩

theorem meets_testEnterCmd : ∃ (sess : Nat) (s : State), MayAct s sess 0x1340 2 1 ∧ param s sess 0x1340 3 ≠ 0 ∧ s.ft + 10000000 ≤ param s sess 0x1340 3 :=
  ⟨1, { module := { state := .service }, mgmt := { sessions := [{ slot := 0, num := 1, role := 3, source := 16, params := [(key 0x1340 3, 10000000)] }] } }, by decide +kernel⟩

theorem meets_testEntryTime : ∃ (t0 : Nat) (s : State), s.module.state = .config ∧ s.module.testAt = some t0 ∧ t0 ≤ s.ft ∧ s.module.warm = none :=
  ⟨5, { ft := 5, module := { state := .config, testAt := some 5 } }, by decide +kernel⟩

theorem meets_trialEnd : ∃ (t0 : Nat) (s : State), s.module.running < 2 ∧ (fwSlot s s.module.running).trial = true ∧ s.module.trialSince = some t0 ∧ t0 + trialTime ≤ s.now :=
  ⟨0, { now := 30000000000, module := { state := .service, trialSince := some 0, slots := vset (Vector.replicate 2 {}) 0 { st := .active, trial := true } } }, by decide +kernel⟩

theorem meets_moduleFatalError : ∃ (cause : Nat) (s : State), 40 ≤ cause ∧ cause ≤ 43 ∧ coreRuns s = true ∧ s.module.state ≠ .recovery :=
  ⟨43, { module := { state := .service } }, by decide +kernel⟩

theorem meets_thermalFatalTimeout : ∃ (t0 : Nat) (s : State), coreRuns s = true ∧ s.module.state ≠ .recovery ∧ s.gov.hotTold = false ∧ s.gov.hotSince = some t0 ∧ t0 + 1000000000 ≤ s.now :=
  ⟨0, { now := 1000000000, gov := { hotSince := some 0 }, module := { state := .service } }, by decide +kernel⟩

theorem meets_treadleWatchdogExpiry : ∃ (s : State), onTrial s = true ∧ s.module.trialSince.isSome = true ∧ s.module.pause = none ∧ s.module.watchdogAt + 1000000000 ≤ s.now :=
  ⟨{ now := 30000000000, module := { state := .service, trialSince := some 0, slots := vset (Vector.replicate 2 {}) 0 { st := .active, trial := true } } }, by decide +kernel⟩

theorem meets_boltWriteDone : ∃ (s : State), s.obs.bolt.state = 1 ∧ s.module.state = .recovery ∧ s.module.warm = none :=
  ⟨{ module := { state := .recovery }, obs := { bolt := { state := 1 } } }, by decide +kernel⟩

theorem meets_fwLoadBegin : ∃ (sess : Nat) (s : State), MayAct s sess 0x1310 3 1 ∧ param s sess 0x1310 1 < 2 ∧ loadRefusal s sess = 0 :=
  ⟨1, { module := { state := .service }, mgmt := { sessions := [{ slot := 0, num := 1, role := 3, source := 16, params := [(key 0x1310 1, 1), (key 0x1310 2, 8192)] }] } }, by decide +kernel⟩

theorem meets_fwEraseDone : ∃ (sess : Nat) (k : Nat) (n : Nat) (s : State), s.module.loadStatus = 1 ∧ s.module.claim = some (sess, k, n) ∧ k < 2 :=
  ⟨1, 1, 8192, { module := { state := .service, loadStatus := 1, claim := some (1, 1, 8192) } }, by decide +kernel⟩

set_option maxRecDepth 100000 in
theorem meets_fwBlockData : ∃ (sess : Nat) (k : Nat) (n : Nat) (data : List Byte) (s : State), MayAct s sess 0x1310 5 (leNat data) ∧ data.length = 4096 ∧ s.module.claim = some (sess, k, n) ∧ k < 2 ∧ s.module.loadStatus = 2 ∧ param s sess 0x1310 4 % 4096 = 0 ∧ param s sess 0x1310 4 < n :=
  ⟨1, 1, 8192, List.replicate 4096 0, { module := { state := .service, loadStatus := 2, claim := some (1, 1, 8192) }, mgmt := { sessions := [{ slot := 0, num := 1, role := 3, source := 16, params := [] }] } }, by decide +kernel⟩

theorem meets_fwLoadEnd : ∃ (sess : Nat) (k : Nat) (n : Nat) (s : State), MayAct s sess 0x1310 6 1 ∧ s.module.claim = some (sess, k, n) ∧ s.module.loadStatus = 2 :=
  ⟨1, 1, 8192, { module := { state := .service, loadStatus := 2, claim := some (1, 1, 8192) }, mgmt := { sessions := [{ slot := 0, num := 1, role := 3, source := 16, params := [] }] } }, by decide +kernel⟩

theorem meets_fwVerifyDone : ∃ (k : Nat) (s : State), s.module.verifying = some k ∧ k < 2 :=
  ⟨1, { module := { state := .service, verifying := some 1 } }, by decide +kernel⟩

theorem meets_fwActivateCmd : ∃ (sess : Nat) (s : State), MayAct s sess 0x1320 3 1 ∧ activateRefusal s sess = 0 ∧ s.ft + 10000000 ≤ param s sess 0x1320 2 ∧ s.module.running < 2 :=
  ⟨1, { module := { state := .service, slots := vset (Vector.replicate 2 {}) 1 { st := .verified } }, mgmt := { sessions := [{ slot := 0, num := 1, role := 3, source := 16, params := [(key 0x1320 1, 1), (key 0x1320 2, 10000000)] }] } }, by decide +kernel⟩

theorem meets_fwActivateCancel : ∃ (sess : Nat) (k : Nat) (m : Nat) (t0 : Nat) (s : State), MayAct s sess 0x1320 4 1 ∧ s.module.activation = some (k, m, t0) ∧ k < 2 :=
  ⟨1, 1, 1, 0, { module := { state := .service, activation := some (1, 1, 0) }, mgmt := { sessions := [{ slot := 0, num := 1, role := 3, source := 16, params := [] }] } }, by decide +kernel⟩

theorem meets_fwActivationStart : ∃ (k : Nat) (t0 : Nat) (s : State), s.module.activation = some (k, 0, t0) ∧ t0 ≤ s.ft ∧ activationStates s.module.state 0 = true ∧ s.module.warm = none :=
  ⟨1, 0, { module := { state := .service, activation := some (1, 0, 0) } }, by decide +kernel⟩

theorem meets_hitlessPhaseDone : ∃ (s : State), s.module.pause = some .quiesce ∧ s.mgmt.inFlash = none :=
  ⟨{ module := { state := .service, pause := some .quiesce } }, by decide +kernel⟩

theorem meets_hitlessResume : ∃ (s : State), s.module.pause = some .restart ∧ s.module.pauseSlot < 2 ∧ s.module.running < 2 ∧ s.module.running ≠ s.module.pauseSlot ∧ s.module.isRollback = false ∧ s.now < s.module.pauseSince + 150000000 ∧ s.module.warmHeld = none ∧ s.mgmt.heldWrites = [] :=
  ⟨{ module := { state := .service, pause := some .restart, pauseSlot := 1 } }, by decide +kernel⟩

theorem meets_weftBlockReceive : ∃ (l : Lane) (s : State), (laneOf s l).st = .hunting :=
  ⟨0, { now := 0, lanes := { lane := vset (Vector.replicate 256 {}) 0 { st := .hunting } } }, by decide +kernel⟩

theorem meets_weftBlockKept : ∃ (l : Lane) (s : State), ((laneOf s l).st = .locked ∨ (laneOf s l).st = .aligned) ∧ lanePort s l = none :=
  ⟨0, { now := 0, lanes := { lane := vset (Vector.replicate 256 {}) 0 { st := .locked, history := [true, false] } } }, by decide +kernel⟩

theorem meets_blockLockAcquired : ∃ (l : Lane) (s : State), (laneOf s l).st = .hunting ∧ 64 ≤ (laneOf s l).valid :=
  ⟨0, { now := 0, lanes := { lane := vset (Vector.replicate 256 {}) 0 { st := .hunting, valid := 64 } } }, by decide +kernel⟩

theorem meets_blockLockLost : ∃ (l : Lane) (s : State), ((laneOf s l).st = .locked ∨ (laneOf s l).st = .aligned) ∧ 8 ≤ invalidHeaders (laneOf s l) :=
  ⟨0, { now := 0, lanes := { lane := vset (Vector.replicate 256 {}) 0 { st := .locked, history := List.replicate 8 false } } }, by decide +kernel⟩

theorem meets_laneLockTimeout : ∃ (l : Lane) (s : State), (laneOf s l).st = .hunting ∧ (laneOf s l).huntSince + 100000 ≤ s.now :=
  ⟨0, { now := 100000, lanes := { lane := vset (Vector.replicate 256 {}) 0 { st := .hunting } } }, by decide +kernel⟩

theorem meets_laneAlignTimeout : ∃ (l : Lane) (s : State), (laneOf s l).st = .aligned ∧ lanePort s l = none ∧ (laneOf s l).alignAt + 15035 ≤ s.now :=
  ⟨0, { now := 15035, lanes := { lane := vset (Vector.replicate 256 {}) 0 { st := .aligned } } }, by decide +kernel⟩

theorem meets_alignReceive : ∃ (l : Lane) (w : Nat) (ws : List Nat) (p : Nat) (j : Nat) (s : State), ((laneOf s l).st = .locked ∨ (laneOf s l).st = .aligned) ∧ (laneOf s l).aligns = w :: ws ∧ lanePolarity s l = 1 ∧ isAlign w = true ∧ lanePort s l = some (p, j) :=
  ⟨0, alignBlock 8 0, [], 0, 0, { cfg := [(key 0x3001 1, 1), (key 0x3003 1, 2), (key 0x3012 1, 1)], lanes := { lane := vset (Vector.replicate 256 {}) 0 { st := .locked, aligns := [alignBlock 8 0] } } }, by decide +kernel⟩

theorem meets_alignSend : ∃ (p : Port) (s : State), isWeft s p = true ∧ (weftPort s p).link = .active ∧ alignDue s (weftPort s p) = true :=
  ⟨0, { cfg := [(key 0x3001 1, 1), (key 0x3003 1, 2)], weft := { port := vset (Vector.replicate 128 {}) 0 { link := .active, lanes := 255, width := 8, rate := 1 } } }, by decide +kernel⟩

theorem meets_adaptFreeze : ∃ (s : State), s.lanes.frozen = none ∧ s.lanes.freezeHeld = none ∧ s.lanes.freezeEnd = none :=
  ⟨State.reset, by decide +kernel⟩

theorem meets_adaptFreezeEnd : ∃ (b : Bool) (t0 : Nat) (s : State), s.lanes.frozen = some (b, t0) ∧ t0 + 2000000 ≤ s.now :=
  ⟨true, 0, { now := 2000000, lanes := { frozen := some (true, 0) } }, by decide +kernel⟩

theorem meets_adaptFreezeHeldStart : ∃ (b : Bool) (t0 : Nat) (s : State), s.lanes.freezeHeld = some b ∧ s.lanes.frozen = none ∧ s.lanes.freezeEnd = some t0 ∧ t0 + 20000000 ≤ s.now :=
  ⟨true, 0, { now := 20000000, lanes := { freezeHeld := some true, freezeEnd := some 0 } }, by decide +kernel⟩

theorem meets_marginStart : ∃ (sess : Nat) (s : State), MayAct s sess 0x3020 4 1 ∧ s.lanes.run = none ∧ s.lanes.frozen = none ∧ marginLane s (param s sess 0x3020 1) = true :=
  ⟨1, asInstaller { cfg := [(key 0x3001 1, 1), (key 0x3003 1, 2)], weft := { port := vset (Vector.replicate 128 {}) 0 { link := .active } } }, by decide +kernel⟩

theorem meets_marginStep : ∃ (errors : Nat) (r : MarginRun) (s : State), s.lanes.run = some r ∧ r.since + 1000000 ≤ s.now ∧ errors ≤ r.limit ∧ r.step < 63 :=
  ⟨0, { lane := 0, axis := 0, limit := 0, positive := false, step := 62, since := 0 }, { now := 1000000, lanes := { run := some { lane := 0, axis := 0, limit := 0, positive := false, step := 62, since := 0 } } }, by decide +kernel⟩

theorem meets_marginStepOver : ∃ (errors : Nat) (r : MarginRun) (s : State), s.lanes.run = some r ∧ r.since + 1000000 ≤ s.now ∧ r.limit < errors :=
  ⟨1, { lane := 0, axis := 0, limit := 0, positive := true, step := 1, since := 0 }, { now := 1000000, lanes := { run := some { lane := 0, axis := 0, limit := 0, positive := true, step := 1, since := 0 } } }, by decide +kernel⟩

theorem meets_refclkLost : ∃ (c : Clk) (s : State), coreRuns s = true ∧ bit s.lanes.refLost c = false ∧ clockPorts s c = [] :=
  ⟨9, { module := { state := .service } }, by decide +kernel⟩

theorem meets_refclkRestored : ∃ (c : Clk) (s : State), coreRuns s = true ∧ bit s.lanes.refLost c = true ∧ Tbl.get s.lanes.refLostAt c 0 + 1000000 ≤ s.now ∧ clockPorts s c = [] :=
  ⟨9, { now := 1000000, module := { state := .service }, lanes := { refLost := 512, refLostAt := [(9, 0)] } }, by decide +kernel⟩

theorem meets_weftTrainingStart : ∃ (p : Port) (b : Nat) (n : Nat) (s : State), isWeft s p = true ∧ inService s = true ∧ (weftPort s p).link = .down ∧ clockOk s p = true ∧ (weftPort s p).idleSince + 100000 ≤ s.now ∧ portLanes s p = some (b, n) ∧ (weftPort s p).fails < cfgv s 0x3203 (p + 1) :=
  ⟨0, 0, 8, { now := 100000, module := { state := .service }, cfg := [(key 0x3001 1, 1), (key 0x3003 1, 2)], weft := { port := vset (Vector.replicate 128 {}) 0 {} } }, by decide +kernel⟩

theorem meets_ts1Bad : ∃ (p : Port) (l : Nat) (w : Nat) (ts : List (Nat × Nat)) (s : State), ((weftPort s p).link = .training ∨ (weftPort s p).link = .retrain) ∧ (weftPort s p).ts = (l, w) :: ts ∧ bits w 0 8 = 0x40 ∧ checkOk w = false :=
  ⟨0, 0, 0x40, [], { now := 0, module := { state := .service }, cfg := [(key 0x3001 1, 1), (key 0x3003 1, 2)], weft := { port := vset (Vector.replicate 128 {}) 0 { link := .training, ts := [(0, 0x40)] } } }, by decide +kernel⟩

theorem meets_ts1Receive : ∃ (p : Port) (l : Nat) (w : Nat) (ts : List (Nat × Nat)) (s : State), (weftPort s p).link = .training ∧ (weftPort s p).ts = (l, w) :: ts ∧ bits w 0 8 = 0x40 ∧ checkOk w = true ∧ bits w 61 2 = personality s p ∧ bits w 8 8 = portWidth s p ∧ bits w 96 16 < (weftPort s p).nonce ∧ (weftPort s p).trainRate = 2 :=
  ⟨0, 0, ts1Block 1 255 0 2 1 0 0 8, [], { now := 0, module := { state := .service }, cfg := [(key 0x3001 1, 1), (key 0x3003 1, 2)], weft := { port := vset (Vector.replicate 128 {}) 0 { link := .training, nonce := 2, trainRate := 2, ts := [(0, ts1Block 1 255 0 2 1 0 0 8)] } } }, by decide +kernel⟩

theorem meets_ts2Receive : ∃ (p : Port) (l : Nat) (w : Nat) (ts : List (Nat × Nat)) (s : State), (weftPort s p).link = .training ∧ (weftPort s p).agreed = false ∧ (weftPort s p).ts = (l, w) :: ts ∧ bits w 0 8 = 0x41 ∧ checkOk w = true ∧ (weftPort s p).peerNonce = none :=
  ⟨0, 0, ts2Block 1 255 8 0 1 0 8, [], { now := 0, module := { state := .service }, cfg := [(key 0x3001 1, 1), (key 0x3003 1, 2)], weft := { port := vset (Vector.replicate 128 {}) 0 { link := .training, ts := [(0, ts2Block 1 255 8 0 1 0 8)] } } }, by decide +kernel⟩

theorem meets_trainingPhaseTimeout : ∃ (p : Port) (s : State), (weftPort s p).link = .training ∧ (weftPort s p).trainRate = 1 ∧ (weftPort s p).phaseSince + 2000000 ≤ s.now :=
  ⟨0, { now := 2000000, module := { state := .service }, cfg := [(key 0x3001 1, 1), (key 0x3003 1, 2)], weft := { port := vset (Vector.replicate 128 {}) 0 { link := .training } } }, by decide +kernel⟩

theorem meets_creditInitReceive : ∃ (p : Port) (w : Nat) (rest : List RxItem) (s : State), (weftPort s p).link = .aligned ∧ (weftPort s p).rx = .row w :: rest ∧ bits w 0 8 = 0x48 ∧ (weftPort s p).creditSent < 4 :=
  ⟨0, creditInitBlock 7 4095 65535, [], { now := 0, module := { state := .service }, cfg := [(key 0x3001 1, 1), (key 0x3003 1, 2)], weft := { port := vset (Vector.replicate 128 {}) 0 { link := .aligned, rx := [.row (creditInitBlock 7 4095 65535)] } } }, by decide +kernel⟩

theorem meets_flitStartReceive : ∃ (p : Port) (w : Nat) (rest : List RxItem) (s : State), (weftPort s p).link = .aligned ∧ (weftPort s p).rx = .row w :: rest ∧ bits w 0 8 = 0x50 ∧ bit w 18 = false ∧ (weftPort s p).startSent = true :=
  ⟨0, flitStartBlock false 0, [], { now := 0, module := { state := .service }, cfg := [(key 0x3001 1, 1), (key 0x3003 1, 2)], weft := { port := vset (Vector.replicate 128 {}) 0 { link := .aligned, startSent := true, rx := [.row (flitStartBlock false 0)] } } }, by decide +kernel⟩

theorem meets_alignedTimeout : ∃ (p : Port) (s : State), (weftPort s p).link = .aligned ∧ (weftPort s p).since + 100000 ≤ s.now ∧ (weftPort s p).fails + 1 < cfgv s 0x3203 (p + 1) :=
  ⟨0, { now := 100000, module := { state := .service }, cfg := [(key 0x3001 1, 1), (key 0x3003 1, 2)], weft := { port := vset (Vector.replicate 128 {}) 0 { link := .aligned } } }, by decide +kernel⟩

theorem meets_flitSend : ∃ (p : Port) (s : State), (weftPort s p).link = .active ∧ (weftPort s p).nak = false ∧ (weftPort s p).resend = [] ∧ (weftPort s p).out = [] :=
  ⟨0, { now := 0, module := { state := .service }, cfg := [(key 0x3001 1, 1), (key 0x3003 1, 2)], weft := { port := vset (Vector.replicate 128 {}) 0 { link := .active } } }, by decide +kernel⟩

theorem meets_flitSendReplay : ∃ (p : Port) (f : SentFlit) (fs : List SentFlit) (s : State), (weftPort s p).link = .active ∧ (weftPort s p).nak = false ∧ (weftPort s p).resend = f :: fs :=
  ⟨0, { seq := 1023, slotMap := 3, slots := [], opAbort := false, sentAt := 0 }, [], { now := 0, module := { state := .service }, cfg := [(key 0x3001 1, 1), (key 0x3003 1, 2)], weft := { port := vset (Vector.replicate 128 {}) 0 { link := .active, resend := [{ seq := 1023, slotMap := 3, slots := [], opAbort := false, sentAt := 0 }] } } }, by decide +kernel⟩

theorem meets_flitReceiveBad : ∃ (p : Port) (bs : List Byte) (rest : List RxItem) (s : State), (weftPort s p).link = .active ∧ (weftPort s p).rx = .flit bs :: rest ∧ bs.length = 288 ∧ flitFec (bs.map BitVec.toNat) = none ∧ (weftPort s p).waitReplay = false :=
  ⟨0, (List.range 288).map (BitVec.ofNat 8), [], { now := 0, module := { state := .service }, cfg := [(key 0x3001 1, 1), (key 0x3003 1, 2)], weft := { port := vset (Vector.replicate 128 {}) 0 { link := .active, rx := [.flit ((List.range 288).map (BitVec.ofNat 8))] } } }, by decide +kernel⟩

theorem meets_flitReceive : ∃ (p : Port) (bs : List Byte) (rest : List RxItem) (c : List Nat) (h : LinkHeader) (tc : Nat) (s : State), (weftPort s p).link = .active ∧ (weftPort s p).rx = .flit bs :: rest ∧ bs.length = 288 ∧ flitFec (bs.map BitVec.toNat) = some (c, 0) ∧ h = LinkHeader.of (leNat ((c.take 8).map (BitVec.ofNat 8))) ∧ h.kind = 0 ∧ h.nak = false ∧ h.opAbort = false ∧ h.slotMap = 3 ∧ (weftPort s p).waitReplay = false ∧ (weftPort s p).countC = (weftPort s p).expect ∧ flitCrc (weftPort s p).countC (c.take 264) = leNat (((c.drop 264).take 8).map (BitVec.ofNat 8)) ∧ (weftPort s p).buffer = [] ∧ availH { weftPort s p with retH := Tbl.set (weftPort s p).retH h.crTc h.crHdr } h.crTc ≤ Tbl.get (weftPort s p).advH h.crTc 0 ∧ availD { weftPort s p with retD := Tbl.set (weftPort s p).retD h.crTc h.crData } h.crTc ≤ Tbl.get (weftPort s p).advD h.crTc 0 ∧ (weftPort s p).openSlots = 0 ∧ (weftPort s p).opening = [] ∧ (weftPort s p).relayTo = none ∧ tc = envTc (((c.drop 8).take 64).map (BitVec.ofNat 8)) ∧ ((Tbl.get (weftPort s p).gotH tc 0 + 1) % 4096 + 4096 - Tbl.get (weftPort s p).giveH tc 0) % 4096 ≤ advHdr s p tc ∧ ((Tbl.get (weftPort s p).gotD tc 0 + 1) % 65536 + 65536 - Tbl.get (weftPort s p).giveD tc 0) % 65536 ≤ advData s p tc :=
  ⟨0, (flitBytes { kind := 0, slotMap := 3 } (List.replicate 64 0) 5), [], ((flitFec ((flitBytes { kind := 0, slotMap := 3 } (List.replicate 64 0) 5).map BitVec.toNat)).getD ([], 0)).1, LinkHeader.of (leNat ((((flitFec ((flitBytes { kind := 0, slotMap := 3 } (List.replicate 64 0) 5).map BitVec.toNat)).getD ([], 0)).1.take 8).map (BitVec.ofNat 8))), 0, { now := 0, module := { state := .service }, cfg := [(key 0x3001 1, 1), (key 0x3003 1, 2)], weft := { port := vset (Vector.replicate 128 {}) 0 { link := .active, expect := 5, countC := 5, advH := [(0, 4)], advD := [(0, 64)], giveH := [], rx := [.flit (flitBytes { kind := 0, slotMap := 3 } (List.replicate 64 0) 5)] } } }, by decide +kernel⟩

theorem meets_replayTimerExpiry : ∃ (p : Port) (f : SentFlit) (fs : List SentFlit) (t0 : Nat) (s : State), (weftPort s p).link = .active ∧ (weftPort s p).buffer = f :: fs ∧ (weftPort s p).timer = some t0 ∧ t0 + 1500 ≤ s.now ∧ (weftPort s p).headReplays < 4 :=
  ⟨0, { seq := 1023, slotMap := 3, slots := [], opAbort := false, sentAt := 0 }, [], 0, { now := 1500, module := { state := .service }, cfg := [(key 0x3001 1, 1), (key 0x3003 1, 2)], weft := { port := vset (Vector.replicate 128 {}) 0 { link := .active, timer := some 0, headReplays := 3, buffer := [{ seq := 1023, slotMap := 3, slots := [], opAbort := false, sentAt := 0 }] } } }, by decide +kernel⟩

theorem meets_retrainReqReceive : ∃ (p : Port) (w : Nat) (rest : List RxItem) (s : State), (weftPort s p).link = .active ∧ (weftPort s p).rx = .row w :: rest ∧ bits w 0 8 = 0x58 :=
  ⟨0, retrainReqBlock 5, [], { now := 0, module := { state := .service }, cfg := [(key 0x3001 1, 1), (key 0x3003 1, 2)], weft := { port := vset (Vector.replicate 128 {}) 0 { link := .active, rx := [.row (retrainReqBlock 5)] } } }, by decide +kernel⟩

theorem meets_retrainReqEnd : ∃ (p : Port) (t0 : Nat) (s : State), (weftPort s p).link = .retrain ∧ (weftPort s p).reqSince = some t0 ∧ t0 + 1000 ≤ s.now :=
  ⟨0, 0, { now := 1000, module := { state := .service }, cfg := [(key 0x3001 1, 1), (key 0x3003 1, 2)], weft := { port := vset (Vector.replicate 128 {}) 0 { link := .retrain, reqSince := some 0 } } }, by decide +kernel⟩

theorem meets_retrainRateStep : ∃ (p : Port) (s : State), (weftPort s p).link = .retrain ∧ (weftPort s p).trainRate = 1 ∧ (weftPort s p).agreed = false ∧ (weftPort s p).retrainSince + 500000 ≤ s.now :=
  ⟨0, { now := 500000, module := { state := .service }, cfg := [(key 0x3001 1, 1), (key 0x3003 1, 2)], weft := { port := vset (Vector.replicate 128 {}) 0 { link := .retrain } } }, by decide +kernel⟩

theorem meets_retrainTimeout : ∃ (p : Port) (s : State), (weftPort s p).link = .retrain ∧ (weftPort s p).retrainSince + 1000000 ≤ s.now :=
  ⟨0, { now := 1000000, module := { state := .service }, cfg := [(key 0x3001 1, 1), (key 0x3003 1, 2)], weft := { port := vset (Vector.replicate 128 {}) 0 { link := .retrain } } }, by decide +kernel⟩

theorem meets_weftRetrainCmd : ∃ (sess : Nat) (p : Port) (s : State), MayAct s sess 0x3207 (p + 1) 1 ∧ isWeft s p = true ∧ (weftPort s p).link = .active :=
  ⟨1, 0, asInstaller { now := 0, module := { state := .service }, cfg := [(key 0x3001 1, 1), (key 0x3003 1, 2)], weft := { port := vset (Vector.replicate 128 {}) 0 { link := .active } } }, by decide +kernel⟩

theorem meets_warpLinkUp : ∃ (p : Port) (width : Nat) (rate : Nat) (flit : Bool) (s : State), ((warpPort s p).st = .down ∨ (warpPort s p).st = .training) ∧ isWarp s p = true ∧ inService s = true ∧ linkLet s p = true ∧ clockOk s p = true ∧ linkFits s p width rate flit = true :=
  ⟨0, 8, 1, false, { now := 0, module := { state := .service }, cfg := [(key 0x3001 1, 1), (key 0x3003 1, 1), (key 0x3101 1, 0), (key 0x3102 1, 0), (key 0x3301 1, 1), (key 0x3121 1, 0)], warp := { port := vset (Vector.replicate 128 {}) 0 {}, part := vset (Vector.replicate 32 {}) 0 {}, slot := vset (Vector.replicate 32 {}) 0 { perstN := true }, expander := vset (Vector.replicate 16 {}) 0 {} } }, by decide +kernel⟩

theorem meets_surpriseDown : ∃ (p : Port) (s : State), isDown s p = true ∧ (warpPort s p).st = .active ∧ (warpPort s p).softDown = false :=
  ⟨0, { now := 0, module := { state := .service }, cfg := [(key 0x3001 1, 1), (key 0x3003 1, 1), (key 0x3101 1, 0), (key 0x3102 1, 0), (key 0x3301 1, 1), (key 0x3121 1, 0)], warp := { port := vset (Vector.replicate 128 {}) 0 { st := .active }, part := vset (Vector.replicate 32 {}) 0 {}, slot := vset (Vector.replicate 32 {}) 0 {}, expander := vset (Vector.replicate 16 {}) 0 {} } }, by decide +kernel⟩

theorem meets_surpriseReport : ∃ (p : Port) (s : State), (warpPort s p).st = .surprise ∧ (warpPort s p).reportAt + 1000000000 ≤ s.now :=
  ⟨0, { now := 1000000000, module := { state := .service }, cfg := [(key 0x3001 1, 1), (key 0x3003 1, 1), (key 0x3101 1, 0), (key 0x3102 1, 0), (key 0x3301 1, 1), (key 0x3121 1, 0)], warp := { port := vset (Vector.replicate 128 {}) 0 { st := .surprise }, part := vset (Vector.replicate 32 {}) 0 {}, slot := vset (Vector.replicate 32 {}) 0 {}, expander := vset (Vector.replicate 16 {}) 0 {} } }, by decide +kernel⟩

theorem meets_linkReturnL0 : ∃ (p : Port) (width : Nat) (rate : Nat) (flit : Bool) (s : State), (warpPort s p).st = .surprise ∧ (warpPort s p).contained = none ∧ cardPresent s p = true ∧ isWarp s p = true ∧ inService s = true ∧ linkLet s p = true ∧ clockOk s p = true ∧ linkFits s p width rate flit = true :=
  ⟨0, 8, 1, false, { now := 0, module := { state := .service }, cfg := [(key 0x3001 1, 1), (key 0x3003 1, 1), (key 0x3101 1, 0), (key 0x3102 1, 0), (key 0x3301 1, 1), (key 0x3121 1, 0)], warp := { port := vset (Vector.replicate 128 {}) 0 { st := .surprise }, part := vset (Vector.replicate 32 {}) 0 {}, slot := vset (Vector.replicate 32 {}) 0 { inputs := 0, perstN := true }, expander := vset (Vector.replicate 16 {}) 0 {} } }, by decide +kernel⟩

theorem meets_secondaryBusReset : ∃ (p : Port) (s : State), isDown s p = true ∧ ((warpPort s p).st = .active ∨ (warpPort s p).st = .surprise) :=
  ⟨0, { now := 0, module := { state := .service }, cfg := [(key 0x3001 1, 1), (key 0x3003 1, 1), (key 0x3101 1, 0), (key 0x3102 1, 0), (key 0x3301 1, 1), (key 0x3121 1, 0)], warp := { port := vset (Vector.replicate 128 {}) 0 { st := .surprise }, part := vset (Vector.replicate 32 {}) 0 {}, slot := vset (Vector.replicate 32 {}) 0 {}, expander := vset (Vector.replicate 16 {}) 0 {} } }, by decide +kernel⟩

theorem meets_linkDisable : ∃ (p : Port) (s : State), isDown s p = true ∧ ((warpPort s p).st = .active ∨ (warpPort s p).st = .surprise) :=
  ⟨0, { now := 0, module := { state := .service }, cfg := [(key 0x3001 1, 1), (key 0x3003 1, 1), (key 0x3101 1, 0), (key 0x3102 1, 0), (key 0x3301 1, 1), (key 0x3121 1, 0)], warp := { port := vset (Vector.replicate 128 {}) 0 { st := .active }, part := vset (Vector.replicate 32 {}) 0 {}, slot := vset (Vector.replicate 32 {}) 0 {}, expander := vset (Vector.replicate 16 {}) 0 {} } }, by decide +kernel⟩

theorem meets_dpcTrigger : ∃ (p : Port) (s : State), isDown s p = true ∧ dpcEnabled s p = true ∧ ((warpPort s p).st = .active ∨ (warpPort s p).st = .surprise) :=
  ⟨0, { now := 0, module := { state := .service }, cfg := [(key 0x3001 1, 1), (key 0x3003 1, 1), (key 0x3101 1, 0), (key 0x3102 1, 0), (key 0x3301 1, 1), (key 0x3121 1, 0)], warp := { port := vset (Vector.replicate 128 {}) 0 { st := .surprise }, part := vset (Vector.replicate 32 {}) 0 { config := [(0x81, 0x10000)] }, slot := vset (Vector.replicate 32 {}) 0 {}, expander := vset (Vector.replicate 16 {}) 0 {} } }, by decide +kernel⟩

theorem meets_dpcRelease : ∃ (p : Port) (s : State), (warpPort s p).st = .dpc :=
  ⟨0, { now := 0, module := { state := .service }, cfg := [(key 0x3001 1, 1), (key 0x3003 1, 1), (key 0x3101 1, 0), (key 0x3102 1, 0), (key 0x3301 1, 1), (key 0x3121 1, 0)], warp := { port := vset (Vector.replicate 128 {}) 0 { st := .dpc }, part := vset (Vector.replicate 32 {}) 0 {}, slot := vset (Vector.replicate 32 {}) 0 {}, expander := vset (Vector.replicate 16 {}) 0 {} } }, by decide +kernel⟩

theorem meets_slotPowerOff : ∃ (k : Slot) (s : State), slotEnabled s k = true ∧ (expander s (k / 2)).silent = false :=
  ⟨0, { now := 0, module := { state := .service }, cfg := [(key 0x3001 1, 1), (key 0x3003 1, 1), (key 0x3101 1, 0), (key 0x3102 1, 0), (key 0x3301 1, 1), (key 0x3121 1, 0)], warp := { port := vset (Vector.replicate 128 {}) 0 { st := .active }, part := vset (Vector.replicate 32 {}) 0 {}, slot := vset (Vector.replicate 32 {}) 0 {}, expander := vset (Vector.replicate 16 {}) 0 {} } }, by decide +kernel⟩

theorem meets_slotPwrenClear : ∃ (k : Slot) (t0 : Nat) (s : State), (slotState s k).offAt = some t0 ∧ t0 + 1000000 ≤ s.now :=
  ⟨0, 0, { now := 1000000, module := { state := .service }, cfg := [(key 0x3001 1, 1), (key 0x3003 1, 1), (key 0x3101 1, 0), (key 0x3102 1, 0), (key 0x3301 1, 1), (key 0x3121 1, 0)], warp := { port := vset (Vector.replicate 128 {}) 0 {}, part := vset (Vector.replicate 32 {}) 0 {}, slot := vset (Vector.replicate 32 {}) 0 { offAt := some 0, pwren := true }, expander := vset (Vector.replicate 16 {}) 0 {} } }, by decide +kernel⟩

theorem meets_slotPowerOn : ∃ (k : Slot) (s : State), slotEnabled s k = true ∧ (expander s (k / 2)).silent = false :=
  ⟨0, { now := 0, module := { state := .service }, cfg := [(key 0x3001 1, 1), (key 0x3003 1, 1), (key 0x3101 1, 0), (key 0x3102 1, 0), (key 0x3301 1, 1), (key 0x3121 1, 0)], warp := { port := vset (Vector.replicate 128 {}) 0 {}, part := vset (Vector.replicate 32 {}) 0 {}, slot := vset (Vector.replicate 32 {}) 0 {}, expander := vset (Vector.replicate 16 {}) 0 {} } }, by decide +kernel⟩

theorem meets_slotPowerOnSilent : ∃ (k : Slot) (s : State), (expander s (k / 2)).silent = true :=
  ⟨0, { now := 0, module := { state := .service }, cfg := [(key 0x3001 1, 1), (key 0x3003 1, 1), (key 0x3101 1, 0), (key 0x3102 1, 0), (key 0x3301 1, 1), (key 0x3121 1, 0)], warp := { port := vset (Vector.replicate 128 {}) 0 {}, part := vset (Vector.replicate 32 {}) 0 {}, slot := vset (Vector.replicate 32 {}) 0 {}, expander := vset (Vector.replicate 16 {}) 0 { silent := true } } }, by decide +kernel⟩

theorem meets_slotPerstRelease : ∃ (k : Slot) (t0 : Nat) (s : State), (slotState s k).onAt = some t0 ∧ t0 + 100000000 ≤ s.now ∧ (slotState s k).pwren = true ∧ (slotState s k).powerFault = false ∧ (slotState s k).faultRead = false ∧ bit (slotState s k).raw 3 = true :=
  ⟨0, 0, { now := 100000000, module := { state := .service }, cfg := [(key 0x3001 1, 1), (key 0x3003 1, 1), (key 0x3101 1, 0), (key 0x3102 1, 0), (key 0x3301 1, 1), (key 0x3121 1, 0)], warp := { port := vset (Vector.replicate 128 {}) 0 {}, part := vset (Vector.replicate 32 {}) 0 {}, slot := vset (Vector.replicate 32 {}) 0 { onAt := some 0, pwren := true, raw := 8 }, expander := vset (Vector.replicate 16 {}) 0 {} } }, by decide +kernel⟩

theorem meets_indicatorSet : ∃ (k : Slot) (s : State), slotEnabled s k = true :=
  ⟨0, { now := 0, module := { state := .service }, cfg := [(key 0x3001 1, 1), (key 0x3003 1, 1), (key 0x3101 1, 0), (key 0x3102 1, 0), (key 0x3301 1, 1), (key 0x3121 1, 0)], warp := { port := vset (Vector.replicate 128 {}) 0 {}, part := vset (Vector.replicate 32 {}) 0 {}, slot := vset (Vector.replicate 32 {}) 0 {}, expander := vset (Vector.replicate 16 {}) 0 {} } }, by decide +kernel⟩

theorem meets_indicatorBlink : ∃ (s : State), s.warp.blinkAt + 333333333 ≤ s.now :=
  ⟨{ now := 333333333, module := { state := .service }, cfg := [(key 0x3001 1, 1), (key 0x3003 1, 1), (key 0x3101 1, 0), (key 0x3102 1, 0), (key 0x3301 1, 1), (key 0x3121 1, 0)], warp := { port := vset (Vector.replicate 128 {}) 0 {}, part := vset (Vector.replicate 32 {}) 0 {}, slot := vset (Vector.replicate 32 {}) 0 {}, expander := vset (Vector.replicate 16 {}) 0 {} } }, by decide +kernel⟩

theorem meets_hpInputDebounced : ∃ (k : Slot) (i : Fin 4) (s : State), i = 3 ∧ slotEnabled s k = true ∧ bit (slotState s k).inputs i = true ∧ bit (slotState s k).raw i = false ∧ Tbl.get (slotState s k).rawSince i s.now + cfgv s 0x3123 1 * ms ≤ s.now :=
  ⟨0, 3, { now := 1000000000, module := { state := .service }, cfg := [(key 0x3001 1, 1), (key 0x3003 1, 1), (key 0x3101 1, 0), (key 0x3102 1, 0), (key 0x3301 1, 1), (key 0x3121 1, 0)], warp := { port := vset (Vector.replicate 128 {}) 0 {}, part := vset (Vector.replicate 32 {}) 0 {}, slot := vset (Vector.replicate 32 {}) 0 { raw := 7, inputs := 15, rawSince := [(3, 0)] }, expander := vset (Vector.replicate 16 {}) 0 {} } }, by decide +kernel⟩

theorem meets_hpInputEmpty : ∃ (k : Slot) (i : Fin 4) (s : State), i = 0 ∧ slotEnabled s k = true ∧ bit (slotState s k).inputs i = false ∧ bit (slotState s k).raw i = true ∧ Tbl.get (slotState s k).rawSince i s.now + cfgv s 0x3123 1 * ms ≤ s.now ∧ (warpPort s (cfgv s 0x3121 (k + 1))).st = .active :=
  ⟨0, 0, { now := 1000000000, module := { state := .service }, cfg := [(key 0x3001 1, 1), (key 0x3003 1, 1), (key 0x3101 1, 0), (key 0x3102 1, 0), (key 0x3301 1, 1), (key 0x3121 1, 0)], warp := { port := vset (Vector.replicate 128 {}) 0 { st := .active }, part := vset (Vector.replicate 32 {}) 0 {}, slot := vset (Vector.replicate 32 {}) 0 { raw := 15, inputs := 14, rawSince := [(0, 0)] }, expander := vset (Vector.replicate 16 {}) 0 {} } }, by decide +kernel⟩

theorem meets_expanderInterrupt : ∃ (inputs : List (Option (BitVec 16))) (e : Expander) (v : BitVec 16) (s : State), coreRuns s = true ∧ inputs[e.val]? = some (some v) ∧ cfgv s 0x3120 (e + 1) ≠ 0 :=
  ⟨[some 0xFFF7], 0, 0xFFF7, { now := 0, module := { state := .service }, cfg := [(key 0x3001 1, 1), (key 0x3003 1, 1), (key 0x3101 1, 0), (key 0x3102 1, 0), (key 0x3301 1, 1), (key 0x3121 1, 0), (key 0x3120 1, 1)], warp := { port := vset (Vector.replicate 128 {}) 0 {}, part := vset (Vector.replicate 32 {}) 0 {}, slot := vset (Vector.replicate 32 {}) 0 {}, expander := vset (Vector.replicate 16 {}) 0 {} } }, by decide +kernel⟩

theorem meets_expanderPoll : ∃ (inputs : List (Option (BitVec 16))) (e : Expander) (s : State), coreRuns s = true ∧ s.warp.pollAt + 10000000 ≤ s.now ∧ inputs[e.val]? = none ∧ cfgv s 0x3120 (e + 1) ≠ 0 ∧ (expander s e).fails = 0 ∧ (expander s e).silent = false :=
  ⟨[], 0, { now := 10000000, module := { state := .service }, cfg := [(key 0x3001 1, 1), (key 0x3003 1, 1), (key 0x3101 1, 0), (key 0x3102 1, 0), (key 0x3301 1, 1), (key 0x3121 1, 0), (key 0x3120 1, 1)], warp := { port := vset (Vector.replicate 128 {}) 0 {}, part := vset (Vector.replicate 32 {}) 0 {}, slot := vset (Vector.replicate 32 {}) 0 {}, expander := vset (Vector.replicate 16 {}) 0 {} } }, by decide +kernel⟩

theorem meets_expanderRetry : ∃ (e : Expander) (input : Option (BitVec 16)) (s : State), (expander s e).fails = 2 ∧ (expander s e).lastTry + 1000000 ≤ s.now ∧ cfgv s 0x3120 (e + 1) ≠ 0 ∧ input = none ∧ (expander s e).silent = false :=
  ⟨0, none, { now := 10000000, module := { state := .service }, cfg := [(key 0x3001 1, 1), (key 0x3003 1, 1), (key 0x3101 1, 0), (key 0x3102 1, 0), (key 0x3301 1, 1), (key 0x3121 1, 0), (key 0x3120 1, 1)], warp := { port := vset (Vector.replicate 128 {}) 0 {}, part := vset (Vector.replicate 32 {}) 0 {}, slot := vset (Vector.replicate 32 {}) 0 {}, expander := vset (Vector.replicate 16 {}) 0 { fails := 2 } } }, by decide +kernel⟩

theorem meets_perstAssert : ∃ (v : Vs) (ns : Nat) (s : State), 1000 ≤ ns ∧ inService s = true ∧ partEnabled s v = true ∧ (partOf s v).resetSince = none :=
  ⟨0, 1000, { now := 0, module := { state := .service }, cfg := [(key 0x3001 1, 1), (key 0x3003 1, 1), (key 0x3101 1, 0), (key 0x3102 1, 1), (key 0x3301 1, 1)], warp := { port := vset (Vector.replicate 128 {}) 0 { st := .active }, part := vset (Vector.replicate 32 {}) 0 { st := 2 }, slot := vset (Vector.replicate 32 {}) 0 {}, expander := vset (Vector.replicate 16 {}) 0 {} } }, by decide +kernel⟩

theorem meets_perstShort : ∃ (ns : Nat), ns < 1000 :=
  ⟨999, by decide +kernel⟩

theorem meets_hotResetReceived : ∃ (p : Port) (v : Nat) (s : State), upstreamOf s p = some v ∧ inService s = true ∧ (warpPort s p).st = .active ∧ partEnabled s v = true ∧ (partOf s v).resetSince = none :=
  ⟨0, 0, { now := 0, module := { state := .service }, cfg := [(key 0x3001 1, 1), (key 0x3003 1, 1), (key 0x3101 1, 0), (key 0x3102 1, 1), (key 0x3301 1, 1)], warp := { port := vset (Vector.replicate 128 {}) 0 { st := .active }, part := vset (Vector.replicate 32 {}) 0 { st := 2 }, slot := vset (Vector.replicate 32 {}) 0 {}, expander := vset (Vector.replicate 16 {}) 0 {} } }, by decide +kernel⟩

theorem meets_dlDown : ∃ (p : Port) (v : Nat) (t0 : Nat) (s : State), upstreamOf s p = some v ∧ inService s = true ∧ (warpPort s p).st = .active ∧ partEnabled s v = true ∧ (partOf s v).resetSince = some t0 :=
  ⟨0, 0, 0, { now := 5, module := { state := .service }, cfg := [(key 0x3001 1, 1), (key 0x3003 1, 1), (key 0x3101 1, 0), (key 0x3102 1, 1), (key 0x3301 1, 1)], warp := { port := vset (Vector.replicate 128 {}) 0 { st := .active }, part := vset (Vector.replicate 32 {}) 0 { st := 1, resetSince := some 0 }, slot := vset (Vector.replicate 32 {}) 0 {}, expander := vset (Vector.replicate 16 {}) 0 {} } }, by decide +kernel⟩

theorem meets_vsResetCmd : ∃ (sess : Nat) (v : Vs) (s : State), MayAct s sess 0x3305 (v + 1) 1 ∧ vsResetCheck s v = 0 ∧ (partOf s v).resetSince = none :=
  ⟨1, 0, asInstaller { now := 0, module := { state := .service }, cfg := [(key 0x3001 1, 1), (key 0x3003 1, 1), (key 0x3101 1, 0), (key 0x3102 1, 1), (key 0x3301 1, 1)], warp := { port := vset (Vector.replicate 128 {}) 0 {}, part := vset (Vector.replicate 32 {}) 0 { st := 2 }, slot := vset (Vector.replicate 32 {}) 0 {}, expander := vset (Vector.replicate 16 {}) 0 {} } }, by decide +kernel⟩

theorem meets_partitionResetEnd : ∃ (v : Vs) (t0 : Nat) (s : State), (partOf s v).resetSince = some t0 ∧ t0 + 2000000 ≤ s.now ∧ (partOf s v).perst = false ∧ partEnabled s v = true :=
  ⟨0, 0, { now := 2000000, module := { state := .service }, cfg := [(key 0x3001 1, 1), (key 0x3003 1, 1), (key 0x3101 1, 0), (key 0x3102 1, 1), (key 0x3301 1, 1)], warp := { port := vset (Vector.replicate 128 {}) 0 {}, part := vset (Vector.replicate 32 {}) 0 { resetSince := some 0 }, slot := vset (Vector.replicate 32 {}) 0 {}, expander := vset (Vector.replicate 16 {}) 0 {} } }, by decide +kernel⟩

theorem meets_partitionReady : ∃ (v : Vs) (t0 : Nat) (s : State), (partOf s v).endedAt = some t0 ∧ (partOf s v).resetSince = none ∧ partEnabled s v = true ∧ inService s = true ∧ tunnelUp s v = true :=
  ⟨0, 0, { now := 0, module := { state := .service }, cfg := [(key 0x3001 1, 1), (key 0x3003 1, 1), (key 0x3101 1, 0), (key 0x3102 1, 1), (key 0x3301 1, 1)], warp := { port := vset (Vector.replicate 128 {}) 0 {}, part := vset (Vector.replicate 32 {}) 0 { endedAt := some 0 }, slot := vset (Vector.replicate 32 {}) 0 {}, expander := vset (Vector.replicate 16 {}) 0 {} } }, by decide +kernel⟩

theorem meets_proxyFree : ∃ (sess : Nat) (s : State), MayAct s sess 0x3110 4 1 ∧ proxyFreeCheck s sess = 0 ∧ param s sess 0x3110 1 < 128 :=
  ⟨1, asInstaller { now := 0, module := { state := .service }, cfg := [(key 0x3001 1, 1), (key 0x3003 1, 1), (key 0x3101 1, 0), (key 0x3102 1, 1), (key 0x3301 1, 1)], warp := { port := vset (Vector.replicate 128 {}) 0 {}, part := vset (Vector.replicate 32 {}) 0 {}, slot := vset (Vector.replicate 32 {}) 0 {}, expander := vset (Vector.replicate 16 {}) 0 {} } }, by decide +kernel⟩

theorem meets_mcastGroupEnable : ∃ (v : Vs) (group : Fin 64) (s : State), vsState s v = 2 ∧ bit (partOf s v).groups group = false ∧ groupsUsed s < 1024 :=
  ⟨0, 3, { now := 0, module := { state := .service }, cfg := [(key 0x3001 1, 1), (key 0x3003 1, 1), (key 0x3101 1, 0), (key 0x3102 1, 1), (key 0x3301 1, 1)], warp := { port := vset (Vector.replicate 128 {}) 0 {}, part := vset (Vector.replicate 32 {}) 0 { st := 2 }, slot := vset (Vector.replicate 32 {}) 0 {}, expander := vset (Vector.replicate 16 {}) 0 {} } }, by decide +kernel⟩

theorem meets_tlpInDiscard : ∃ (p : Port) (tl : Tlp) (v : Vs) (s : State), isWarp s p = true ∧ inService s = true ∧ (warpPort s p).st = .active ∧ portPart s p = some v ∧ (partOf s v).reloading = none ∧ (partOf s v).resetSince = none ∧ vsState s v = 1 ∧ ingressErrors s v p tl = [] ∧ tl.ep = false ∧ tl.kind = .completion :=
  ⟨0, { kind := .completion, addr := 0, len := 0 }, 0, { now := 0, module := { state := .service }, cfg := [(key 0x3001 1, 1), (key 0x3003 1, 1), (key 0x3101 1, 0), (key 0x3102 1, 1), (key 0x3301 1, 1)], warp := { port := vset (Vector.replicate 128 {}) 0 { st := .active }, part := vset (Vector.replicate 32 {}) 0 { st := 1 }, slot := vset (Vector.replicate 32 {}) 0 {}, expander := vset (Vector.replicate 16 {}) 0 {} } }, by decide +kernel⟩

theorem meets_tlpInReset : ∃ (p : Port) (v : Vs) (s : State), isWarp s p = true ∧ inService s = true ∧ (warpPort s p).st = .active ∧ portPart s p = some v ∧ (partOf s v).reloading = none ∧ (partOf s v).resetSince ≠ none :=
  ⟨0, 0, { now := 0, module := { state := .service }, cfg := [(key 0x3001 1, 1), (key 0x3003 1, 1), (key 0x3101 1, 0), (key 0x3102 1, 1), (key 0x3301 1, 1)], warp := { port := vset (Vector.replicate 128 {}) 0 { st := .active }, part := vset (Vector.replicate 32 {}) 0 { st := 1, resetSince := some 0 }, slot := vset (Vector.replicate 32 {}) 0 {}, expander := vset (Vector.replicate 16 {}) 0 {} } }, by decide +kernel⟩

theorem meets_tlpIngress : ∃ (p : Port) (q : Port) (tl : Tlp) (v : Vs) (k : Nat) (s : State), isWarp s p = true ∧ inService s = true ∧ (warpPort s p).st = .active ∧ portPart s p = some v ∧ (partOf s v).reloading = none ∧ (partOf s v).resetSince = none ∧ vsState s v = 2 ∧ ingressErrors s v p tl = [] ∧ tl.ep = false ∧ tlpAccess tl = some k ∧ (tl.kind = .memWrite → mcastGroup s v tl.addr = none) ∧ routeHop s v p (!isDown s p) tl = .port q ∧ (warpPort s q).st = .active ∧ fencedOff s q tl = false ∧ heddleCheck s q { cls := v, kind := k, addr := tl.addr, len := max tl.len tl.data.length } = .own :=
  ⟨0, 1, { kind := .memWrite, addr := 0x100000, len := 4, data := [1, 2, 3, 4] }, 0, 1, { now := 0, module := { state := .service }, cfg := [(key 0x3001 1, 1), (key 0x3001 2, 1), (key 0x3003 1, 1), (key 0x3003 2, 1), (key 0x3101 1, 0), (key 0x3101 2, 0), (key 0x3102 1, 1), (key 0x3102 2, 0), (key 0x3301 1, 1)], warp := { port := vset (vset (Vector.replicate 128 {}) 0 { st := .active }) 1 { st := .active }, part := vset (Vector.replicate 32 {}) 0 { st := 2, config := [(1, 2), (8, 0x00100010), (240 * 1024 + 1, 2), (240 * 1024 + 8, 0x00100010)] }, slot := vset (Vector.replicate 32 {}) 0 {}, expander := vset (Vector.replicate 16 {}) 0 {} } }, by decide +kernel⟩

theorem meets_weCompletionTimeout : ∃ (req : Nat) (r : EngRead) (x : InstState) (s : State), req < 1099511627776 ∧ s.eng.reads.find? (fun q => q.req = req) = some r ∧ instOf s r.ticket.inst = some x ∧ timedOut s x.vs r.since = true :=
  ⟨0, { req := 0, ticket := { inst := 0, q := 0, n := 0 }, off := 0, len := 4, iova := 0, since := 0 }, { vs := 0, vf := 0 }, { now := 1000000000, module := { state := .service }, cfg := [(key 0x3001 1, 1), (key 0x3003 1, 1), (key 0x3101 1, 0), (key 0x3102 1, 1), (key 0x3301 1, 1)], warp := { port := vset (Vector.replicate 128 {}) 0 {}, part := vset (Vector.replicate 32 {}) 0 {}, slot := vset (Vector.replicate 32 {}) 0 {}, expander := vset (Vector.replicate 16 {}) 0 {} }, eng := { reads := [{ req := 0, ticket := { inst := 0, q := 0, n := 0 }, off := 0, len := 4, iova := 0, since := 0 }], insts := [(0, { vs := 0, vf := 0 })] } }, by decide +kernel⟩

theorem meets_sharedPromotion : ∃ (src : Dest) (id : Nat) (c : Chain) (s : State), List.find? (fun r => r.2.account = .reserve src.val) s.loom.chains = some (id, c) ∧ chainOf s id = some c ∧ mayPromote s src c = true :=
  ⟨3, 7, { size := 1, account := .reserve 3, src := 3, refs := 1 }, { now := 9, module := { state := .service }, cfg := [(key 0x3001 1, 1), (key 0x3003 1, 2)], loom := { chains := [(7, { size := 1, account := .reserve 3, src := 3, refs := 1 })] } }, by decide +kernel⟩

theorem meets_ledgerMoveStart : ∃ (id : Nat) (c : Chain) (l : Nat) (e : LedgerEntry) (us : List Nat) (s : State), readbackDue s = false ∧ moveDue s = some (id, c) ∧ freeUnits c.size (ledgerRegion s) (ledgerInUse s) = some us ∧ c.ledger = some l ∧ Tbl.find? s.shu.ledger l = some e :=
  ⟨7, { size := 1, account := .ledger, src := 3, refs := 1, ledger := some 2 }, 2, { cid := 0, seq := 0, typ := 0, slots := 1, chain := 7, op := { cid := 0, typ := 0, head := 0 } }, [0], { now := 1000000000, module := { state := .service }, cfg := [(key 0x3001 1, 1), (key 0x3003 1, 2)], loom := { chains := [(7, { size := 1, account := .ledger, src := 3, refs := 1, ledger := some 2 })] }, shu := { ledger := [(2, { cid := 0, seq := 0, typ := 0, slots := 1, chain := 7, op := { cid := 0, typ := 0, head := 0 } })] } }, by decide +kernel⟩

theorem meets_ledgerMoveDone : ∃ (id : Nat) (c : Chain) (l : Nat) (e : LedgerEntry) (s : State), List.find? (fun r => r.2.moving) s.loom.chains = some (id, c) ∧ c.abandoned = false ∧ c.ledger = some l ∧ c.refs ≤ 1 ∧ Tbl.find? s.shu.ledger l = some e :=
  ⟨7, { size := 1, account := .ledger, src := 3, refs := 1, ledger := some 2, moving := true, units := [0] }, 2, { cid := 0, seq := 0, typ := 0, slots := 1, chain := 7, op := { cid := 0, typ := 0, head := 0 } }, { now := 1000000000, module := { state := .service }, cfg := [(key 0x3001 1, 1), (key 0x3003 1, 2)], loom := { chains := [(7, { size := 1, account := .ledger, src := 3, refs := 1, ledger := some 2, moving := true, units := [0] })] }, shu := { ledger := [(2, { cid := 0, seq := 0, typ := 0, slots := 1, chain := 7, op := { cid := 0, typ := 0, head := 0 } })] } }, by decide +kernel⟩

theorem meets_spillWriteDone : ∃ (d : Dest) (i : LoomItem) (c : Chain) (s : State), oldestSpill s = some (d.val, i) ∧ chainOf s i.chain = some c ∧ c.refs ≤ 1 :=
  ⟨0, { id := 5, chain := 7, src := 129, tc := 2, kind := 0, bytes := 32, cargo := .oper { env := 0#128, body := [], tag := [] }, place := .spilling }, { size := 1, account := .shared 129, src := 129, refs := 1 }, { now := 0, module := { state := .service }, cfg := [(key 0x3001 1, 1), (key 0x3003 1, 2)], loom := { queue := vset (Vector.replicate 130 []) 0 [{ id := 5, chain := 7, src := 129, tc := 2, kind := 0, bytes := 32, cargo := .oper { env := 0#128, body := [], tag := [] }, place := .spilling }], spillAt := [(5, [0])], chains := [(7, { size := 1, account := .shared 129, src := 129, refs := 1 })] } }, by decide +kernel⟩

theorem meets_readbackStart : ∃ (d : Dest) (tc : Tc) (i : LoomItem) (s : State), readbackCan s d tc = some i ∧ cells i.bytes ≤ sharedFree s :=
  ⟨0, 2, { id := 5, chain := 7, src := 129, tc := 2, kind := 0, bytes := 32, cargo := .oper { env := 0#128, body := [], tag := [] }, place := .spilled }, { now := 0, module := { state := .service }, cfg := [(key 0x3001 1, 1), (key 0x3003 1, 2)], loom := { queue := vset (Vector.replicate 130 []) 0 [{ id := 5, chain := 7, src := 129, tc := 2, kind := 0, bytes := 32, cargo := .oper { env := 0#128, body := [], tag := [] }, place := .spilled }] } }, by decide +kernel⟩

theorem meets_readbackDone : ∃ (r : StoreRead) (d : Dest) (i : LoomItem) (c : Nat) (rest : List (Nat × Nat × Nat)) (s : State), r = .clean ∧ s.loom.reads = (c, d.val, i.id) :: rest ∧ (queueOf s d).find? (fun j => j.id = i.id) = some i ∧ overAge s { i with place := .resident } = false :=
  ⟨.clean, 0, { id := 5, chain := 7, src := 129, tc := 2, kind := 0, bytes := 32, cargo := .oper { env := 0#128, body := [], tag := [] }, place := .reading }, 9, [], { now := 0, module := { state := .service }, cfg := [(key 0x3001 1, 1), (key 0x3003 1, 2)], loom := { queue := vset (Vector.replicate 130 []) 0 [{ id := 5, chain := 7, src := 129, tc := 2, kind := 0, bytes := 32, cargo := .oper { env := 0#128, body := [], tag := [] }, place := .reading }], reads := [(9, 0, 5)], spillAt := [(5, [0])] } }, by decide +kernel⟩

theorem meets_beamStackFault : ∃ (stack : Fin 2) (s : State), (stack = 0 ∨ Config.f48 = true) ∧ bit s.loom.badStacks stack = false ∧ coreRuns s = true :=
  ⟨0, { now := 0, module := { state := .service }, cfg := [(key 0x3001 1, 1), (key 0x3003 1, 2)], loom := {  } }, by decide +kernel⟩

theorem meets_ageSweep : ∃ (d : Dest) (i : LoomItem) (o : WireOp) (s : State), s.loom.sweepAt + cfgv s 0x4010 0 / 16 ≤ s.now ∧ queueOf s d = [i] ∧ (∀ e : Dest, e ≠ d → queueOf s e = []) ∧ i.tc < 8 ∧ i.kind < 3 ∧ i.cargo = .oper o ∧ overAge s i = true :=
  ⟨0, { id := 5, chain := 7, src := 129, tc := 2, kind := 0, bytes := 32, cargo := .oper { env := 0#128, body := [], tag := [] } }, { env := 0#128, body := [], tag := [] }, { ft := 150000000, now := 1000000000000, module := { state := .service }, cfg := [(key 0x3001 1, 1), (key 0x3003 1, 2)], loom := { queue := vset (Vector.replicate 130 []) 0 [{ id := 5, chain := 7, src := 129, tc := 2, kind := 0, bytes := 32, cargo := .oper { env := 0#128, body := [], tag := [] } }] } }, by decide +kernel⟩

theorem meets_sharedPoolExhausted : ∃ (t0 : Nat) (s : State), s.loom.exhausted = false ∧ s.loom.stuckSince = some t0 ∧ t0 + 10000 ≤ s.now :=
  ⟨0, { now := 10000, module := { state := .service }, cfg := [(key 0x3001 1, 1), (key 0x3003 1, 2)], loom := { stuckSince := some 0 } }, by decide +kernel⟩

theorem meets_egressArbitration : ∃ (d : Dest) (r : StoreRead) (p : Port) (i : LoomItem) (o : WireOp) (s : State), r = .clean ∧ d.val = p.val ∧ isWeft s p = true ∧ egressOpen s p = true ∧ queueOf s p = [i] ∧ i.kind = 3 ∧ i.place = .resident ∧ i.cargo = .oper o ∧ i.own = none ∧ i.relay = none ∧ hasCredit s p i = true ∧ envHops o < 6 ∧ envTyp o < 10 :=
  ⟨0, .clean, 0, { id := 5, chain := 7, src := 129, tc := 2, kind := 3, bytes := 32, cargo := .oper { env := 0#128, body := [], tag := [] } }, { env := 0#128, body := [], tag := [] }, { now := 0, module := { state := .service }, cfg := [(key 0x3001 1, 1), (key 0x3003 1, 2)], loom := { queue := vset (Vector.replicate 130 []) 0 [{ id := 5, chain := 7, src := 129, tc := 2, kind := 3, bytes := 32, cargo := .oper { env := 0#128, body := [], tag := [] } }] }, weft := { port := vset (Vector.replicate 128 {}) 0 { link := .active, advH := [(2, 10)], advD := [(2, 100)] } } }, by decide +kernel⟩

theorem meets_linkProbeSend : ∃ (p : Port) (t0 : Nat) (s : State), linkUp s p = true ∧ Tbl.find? s.fab.probeAt p = some t0 ∧ t0 + 1000000 ≤ s.now :=
  ⟨0, 0, { now := 1000000, ft := 0, module := { state := .service }, cfg := [(key 0x3001 1, 1), (key 0x3003 1, 2), (key 0x4100 1, 5), (key 0x4100 2, 9)], weft := { port := vset (Vector.replicate 128 {}) 0 { link := .active, width := 8, rate := 1 } }, fab := { probeAt := [(0, 0)] } }, by decide +kernel⟩

theorem meets_linkProbeReceive : ∃ (p : Port) (o : WireOp) (s : State), s.fab.inbox.find? (fun r => envTyp r.2 = 12) = some (p.val, o) :=
  ⟨0, { env := 0xC0#128, body := List.replicate 48 1#8, tag := [] }, { now := 7, ft := 5, module := { state := .service }, cfg := [(key 0x3001 1, 1), (key 0x3003 1, 2), (key 0x4100 1, 5), (key 0x4100 2, 9)], weft := { port := vset (Vector.replicate 128 {}) 0 { link := .active, width := 8, rate := 1 } }, fab := { inbox := [(0, { env := 0xC0#128, body := List.replicate 48 1#8, tag := [] })] } }, by decide +kernel⟩

theorem meets_beaconSend : ∃ (s : State), s.fab.beaconSentAt + 1000000 ≤ s.now ∧ fabricOn s = true ∧ s.fab.role = 2 ∧ s.module.state ≠ .fenced :=
  ⟨{ now := 1000000, ft := 0, module := { state := .service }, cfg := [(key 0x3001 1, 1), (key 0x3003 1, 2), (key 0x4100 1, 5), (key 0x4100 2, 9)], weft := { port := vset (Vector.replicate 128 {}) 0 { link := .active, width := 8, rate := 1 } }, fab := { role := 2 } }, by decide +kernel⟩

theorem meets_beaconBadTag : ∃ (p : Port) (o : WireOp) (k : List Byte) (s : State), s.fab.inbox.find? (fun r => envTyp r.2 = 14) = some (p.val, o) ∧ Tbl.find? s.shu.linkKeys p = some k ∧ beaconTagOk k o = false :=
  ⟨0, { env := 0xE0#128, body := List.replicate 32 1#8, tag := [] }, List.replicate 32 0#8, { now := 0, ft := 0, module := { state := .service }, cfg := [(key 0x3001 1, 1), (key 0x3003 1, 2), (key 0x4100 1, 5), (key 0x4100 2, 9)], weft := { port := vset (Vector.replicate 128 {}) 0 { link := .active, width := 8, rate := 1 } }, fab := { inbox := [(0, { env := 0xE0#128, body := List.replicate 32 1#8, tag := [] })] }, shu := { linkKeys := [(0, List.replicate 32 0#8)] } }, by decide +kernel⟩

theorem meets_beaconReceive : ∃ (p : Port) (o : WireOp) (k : List Byte) (s : State), s.fab.inbox.find? (fun r => envTyp r.2 = 14) = some (p.val, o) ∧ Tbl.find? s.shu.linkKeys p = some k ∧ beaconTagOk k o = true ∧ fabricOn s = true ∧ bits (leNat o.body) 96 32 = cfgv s 0x4100 2 ∧ s.fab.role ≠ 2 ∧ (s.fab.master = none ∨ s.module.state = .fenced ∧ s.fab.term < bits (leNat o.body) 160 32) ∧ s.fab.term ≤ bits (leNat o.body) 160 32 :=
  ⟨0, sealBeacon (List.replicate 32 0#8) 0xE0 (leBytes 32 (at_ 96 9 + at_ 160 3)), List.replicate 32 0#8, { now := 0, ft := 0, module := { state := .service }, cfg := [(key 0x3001 1, 1), (key 0x3003 1, 2), (key 0x4100 1, 5), (key 0x4100 2, 9)], weft := { port := vset (Vector.replicate 128 {}) 0 { link := .active, width := 8, rate := 1 } }, fab := { inbox := [(0, sealBeacon (List.replicate 32 0#8) 0xE0 (leBytes 32 (at_ 96 9 + at_ 160 3)))] }, shu := { linkKeys := [(0, List.replicate 32 0#8)] } }, ⟨rfl, rfl, beaconTagOk_sealBeacon _ _ _ (by decide), by decide, by decide, by decide, by decide, by decide⟩⟩

theorem meets_directedMsgForward : ∃ (p : Port) (o : WireOp) (m : CtlMsg) (s : State), s.fab.inbox.find? (fun r => isDirected r.2) = some (p.val, o) ∧ ctlMsgOf o.body (envSrc o / 128) p = m ∧ m.response = false ∧ pathIdx m < pathLen m ∧ linkUp s (pathSlot (withPath m (pathIdx m) (pathIdx m - 1) p) (pathIdx m)) = true :=
  ⟨0, { env := 0xD0#128, body := leBytes 16 (at_ 48 8) ++ [2#8, 1#8] ++ List.replicate 6 0#8, tag := [] }, ctlMsgOf (leBytes 16 (at_ 48 8) ++ [2#8, 1#8] ++ List.replicate 6 0#8) 0 0, { now := 0, ft := 0, module := { state := .service }, cfg := [(key 0x3001 1, 1), (key 0x3003 1, 2), (key 0x4100 1, 5), (key 0x4100 2, 9)], weft := { port := vset (Vector.replicate 128 {}) 0 { link := .active, width := 8, rate := 1 } }, fab := { inbox := [(0, { env := 0xD0#128, body := leBytes 16 (at_ 48 8) ++ [2#8, 1#8] ++ List.replicate 6 0#8, tag := [] })] } }, by decide +kernel⟩

theorem meets_directedBack : ∃ (p : Port) (o : WireOp) (m : CtlMsg) (s : State), s.fab.inbox.find? (fun r => isDirected r.2) = some (p.val, o) ∧ ctlMsgOf o.body (envSrc o / 128) p = m ∧ m.response = true ∧ pathIdx m = 0 ∧ m.status = 1 ∧ m.data.length = 8 :=
  ⟨0, { env := 0xD0#128, body := leBytes 16 (at_ 32 1 + at_ 40 1 + at_ 48 8) ++ [1#8, 0#8] ++ List.replicate 6 0#8, tag := [] }, ctlMsgOf (leBytes 16 (at_ 32 1 + at_ 40 1 + at_ 48 8) ++ [1#8, 0#8] ++ List.replicate 6 0#8) 0 0, { now := 0, ft := 0, module := { state := .service }, cfg := [(key 0x3001 1, 1), (key 0x3003 1, 2), (key 0x4100 1, 5), (key 0x4100 2, 9)], weft := { port := vset (Vector.replicate 128 {}) 0 { link := .active, width := 8, rate := 1 } }, fab := { inbox := [(0, { env := 0xD0#128, body := leBytes 16 (at_ 32 1 + at_ 40 1 + at_ 48 8) ++ [1#8, 0#8] ++ List.replicate 6 0#8, tag := [] })] } }, by decide +kernel⟩

theorem meets_directedHere : ∃ (p : Port) (o : WireOp) (m : CtlMsg) (r : CtlMsg) (s : State), s.fab.inbox.find? (fun r => isDirected r.2) = some (p.val, o) ∧ ctlMsgOf o.body (envSrc o / 128) p = m ∧ m.response = false ∧ pathLen m ≤ pathIdx m ∧ openDirected s (directedPeer s (withPath m (pathIdx m) (pathIdx m - 1) p)) (withPath m (pathIdx m) (pathIdx m - 1) p) = some r :=
  ⟨0, { env := 0xD0#128, body := [2#8, 0#8, 0#8, 0#8, 2#8, 0#8, 34#8, 0#8, 0#8, 0#8, 0#8, 0#8, 0#8, 0#8, 0#8, 0#8, 1#8, 1#8, 0#8, 0#8, 0#8, 0#8, 0#8, 0#8, 0#8, 0#8, 0#8, 0#8, 0#8, 0#8, 0#8, 0#8, 27#8, 228#8, 232#8, 101#8, 186#8, 82#8, 141#8, 116#8, 90#8, 139#8, 132#8, 84#8, 201#8, 211#8, 201#8, 140#8, 177#8, 102#8], tag := [] }, ctlMsgOf ([2#8, 0#8, 0#8, 0#8, 2#8, 0#8, 34#8, 0#8, 0#8, 0#8, 0#8, 0#8, 0#8, 0#8, 0#8, 0#8, 1#8, 1#8, 0#8, 0#8, 0#8, 0#8, 0#8, 0#8, 0#8, 0#8, 0#8, 0#8, 0#8, 0#8, 0#8, 0#8, 27#8, 228#8, 232#8, 101#8, 186#8, 82#8, 141#8, 116#8, 90#8, 139#8, 132#8, 84#8, 201#8, 211#8, 201#8, 140#8, 177#8, 102#8]) 0 0, { code := 2, directed := true, data := [1#8, 1#8, 0#8, 0#8, 0#8, 0#8, 0#8, 0#8, 9#8, 0#8], peer := 0, port := 0 }, { now := 0, ft := 0, module := { state := .service }, cfg := [(key 0x3001 1, 1), (key 0x3003 1, 2), (key 0x4100 1, 5), (key 0x4100 2, 9)], weft := { port := vset (Vector.replicate 128 {}) 0 { link := .active, width := 8, rate := 1 } }, fab := { inbox := [(0, { env := 0xD0#128, body := [2#8, 0#8, 0#8, 0#8, 2#8, 0#8, 34#8, 0#8, 0#8, 0#8, 0#8, 0#8, 0#8, 0#8, 0#8, 0#8, 1#8, 1#8, 0#8, 0#8, 0#8, 0#8, 0#8, 0#8, 0#8, 0#8, 0#8, 0#8, 0#8, 0#8, 0#8, 0#8, 27#8, 228#8, 232#8, 101#8, 186#8, 82#8, 141#8, 116#8, 90#8, 139#8, 132#8, 84#8, 201#8, 211#8, 201#8, 140#8, 177#8, 102#8], tag := [] })] }, vault := { secrets := [(key 0x4211 0, 1)] } }, by decide +kernel⟩

theorem meets_ftSet : ∃ (sess : Nat) (v : Nat) (s : State), MayAct s sess 0x2110 6 v ∧ s.fab.role = 2 :=
  ⟨1, 77, asInstaller { now := 0, ft := 0, module := { state := .service }, cfg := [(key 0x3001 1, 1), (key 0x3003 1, 2), (key 0x4100 1, 5), (key 0x4100 2, 9)], weft := { port := vset (Vector.replicate 128 {}) 0 { link := .active, width := 8, rate := 1 } }, fab := { role := 2 } }, by decide +kernel⟩

theorem meets_ftPpsInEdge : ∃ (s : State), cfgOn s 0x2110 4 = true ∧ s.fab.role = 2 ∧ s.ft % 1000000000 * 2 < 1000000000 :=
  ⟨{ now := 0, ft := 1000000150, module := { state := .service }, cfg := [(key 0x2110 4, 1)], weft := { port := vset (Vector.replicate 128 {}) 0 { link := .active, width := 8, rate := 1 } }, fab := { role := 2 } }, by decide +kernel⟩

theorem meets_ftPpsOutPulse : ∃ (s : State), s.fab.ppsHigh = none ∧ cfgOn s 0x2110 5 = true ∧ coreRuns s = true ∧ atSecond s = true :=
  ⟨{ now := 0, ft := 0, module := { state := .service }, cfg := [(key 0x2110 5, 1)], weft := { port := vset (Vector.replicate 128 {}) 0 { link := .active, width := 8, rate := 1 } }, fab := {  } }, by decide +kernel⟩

theorem meets_ftPpsLow : ∃ (t0 : Nat) (s : State), s.fab.ppsHigh = some t0 ∧ t0 + 100000 ≤ s.now :=
  ⟨0, { now := 100000, ft := 0, module := { state := .service }, cfg := [(key 0x3001 1, 1), (key 0x3003 1, 2), (key 0x4100 1, 5), (key 0x4100 2, 9)], weft := { port := vset (Vector.replicate 128 {}) 0 { link := .active, width := 8, rate := 1 } }, fab := { ppsHigh := some 0 } }, by decide +kernel⟩

theorem meets_neighbours : ∃ (m : CtlMsg) (s : State), s.fab.ctl.find? (fun m => m.code = 1 && !m.response) = some m :=
  ⟨{ code := 1, term := 3, data := [], peer := 7 }, { now := 0, ft := 0, module := { state := .service }, cfg := [(key 0x3001 1, 1), (key 0x3003 1, 2), (key 0x4100 1, 5), (key 0x4100 2, 9)], weft := { port := vset (Vector.replicate 128 {}) 0 { link := .active, width := 8, rate := 1 } }, fab := { term := 3, ctl := [{ code := 1, term := 3, data := [], peer := 7 }] } }, by decide +kernel⟩

theorem meets_assignMid : ∃ (m : CtlMsg) (s : State), s.fab.ctl.find? (fun m => m.code = 2 && !m.response) = some m ∧ s.fab.term ≤ m.term ∧ midValid s = false ∧ leAt m.content 0 2 < 1024 :=
  ⟨{ code := 2, term := 3, data := [17#8, 0#8], peer := 7 }, { now := 0, ft := 0, module := { state := .service }, cfg := [(key 0x3001 1, 1), (key 0x3003 1, 2)], weft := { port := vset (Vector.replicate 128 {}) 0 { link := .active, width := 8, rate := 1 } }, fab := { term := 3, ctl := [{ code := 2, term := 3, data := [17#8, 0#8], peer := 7 }] } }, by decide +kernel⟩

theorem meets_routeWrite : ∃ (m : CtlMsg) (s : State), s.fab.ctl.find? (fun m => m.code = 3 && !m.response) = some m ∧ s.fab.term ≤ m.term ∧ leAt m.content 2 2 ≤ 254 ∧ leAt m.content 5 1 = 1 ∧ leAt m.content 0 2 + leAt m.content 2 2 ≤ 1024 ∧ 16 + 16 * leAt m.content 2 2 ≤ m.content.length :=
  ⟨{ code := 3, term := 3, data := leBytes 2 4 ++ leBytes 2 1 ++ [0#8, 1#8] ++ List.replicate 10 0#8 ++ List.replicate 16 1#8, peer := 7 }, { now := 0, ft := 0, module := { state := .service }, cfg := [(key 0x3001 1, 1), (key 0x3003 1, 2), (key 0x4100 1, 5), (key 0x4100 2, 9)], weft := { port := vset (Vector.replicate 128 {}) 0 { link := .active, width := 8, rate := 1 } }, fab := { term := 3, ctl := [{ code := 3, term := 3, data := leBytes 2 4 ++ leBytes 2 1 ++ [0#8, 1#8] ++ List.replicate 10 0#8 ++ List.replicate 16 1#8, peer := 7 }] } }, by decide +kernel⟩

theorem meets_bankSwitch : ∃ (m : CtlMsg) (s : State), s.fab.ctl.find? (fun m => m.code = 4 && !m.response) = some m ∧ s.fab.term ≤ m.term :=
  ⟨{ code := 4, term := 3, data := leBytes 14 5, peer := 7 }, { now := 0, ft := 0, module := { state := .service }, cfg := [(key 0x3001 1, 1), (key 0x3003 1, 2), (key 0x4100 1, 5), (key 0x4100 2, 9)], weft := { port := vset (Vector.replicate 128 {}) 0 { link := .active, width := 8, rate := 1 } }, fab := { term := 3, ctl := [{ code := 4, term := 3, data := leBytes 14 5, peer := 7 }] } }, by decide +kernel⟩

theorem meets_bankIncomplete : ∃ (ep : Nat) (tm : Nat) (n : Nat) (s : State), s.fab.switch = some (ep, tm, n) ∧ tm ≤ s.ft ∧ bankComplete s = false :=
  ⟨4, 5, 2, { now := 0, ft := 5, module := { state := .service }, cfg := [(key 0x3001 1, 1), (key 0x3003 1, 2), (key 0x4100 1, 5), (key 0x4100 2, 9)], weft := { port := vset (Vector.replicate 128 {}) 0 { link := .active, width := 8, rate := 1 } }, fab := { switch := some (4, 5, 2) } }, by decide +kernel⟩

theorem meets_bankSwitchTime : ∃ (ep : Nat) (tm : Nat) (n : Nat) (s : State), s.fab.switch = some (ep, tm, n) ∧ tm ≤ s.ft ∧ bankComplete s = true :=
  ⟨4, 5, 2, { now := 0, ft := 5, module := { state := .service }, cfg := [(key 0x3001 1, 1), (key 0x3003 1, 2), (key 0x4100 1, 5), (key 0x4100 2, 9)], weft := { port := vset (Vector.replicate 128 {}) 0 { link := .active, width := 8, rate := 1 } }, fab := { switch := some (4, 5, 2), written := List.range 1024 } }, by decide +kernel⟩

theorem meets_fabricCtlHeartbeatSend : ∃ (s : State), fabricOn s = true ∧ s.fab.role = 1 ∧ s.fab.master.isSome = true ∧ (s.module.state ≠ .fenced ∨ s.fab.resyncing = true) ∧ s.fab.heartbeatAt + 1000000 ≤ s.now :=
  ⟨{ now := 1000000, ft := 0, module := { state := .service }, cfg := [(key 0x3001 1, 1), (key 0x3003 1, 2), (key 0x4100 1, 5), (key 0x4100 2, 9)], weft := { port := vset (Vector.replicate 128 {}) 0 { link := .active, width := 8, rate := 1 } }, fab := { role := 1, master := some 7 } }, by decide +kernel⟩

theorem meets_admitPartition : ∃ (m : CtlMsg) (s : State), s.fab.ctl.find? (fun m => m.code = 6 && !m.response) = some m ∧ s.fab.term ≤ m.term :=
  ⟨{ code := 6, term := 3, data := leBytes 10 77, peer := 7 }, { now := 0, ft := 0, module := { state := .service }, cfg := [(key 0x3001 1, 1), (key 0x3003 1, 2), (key 0x4100 1, 5), (key 0x4100 2, 9)], weft := { port := vset (Vector.replicate 128 {}) 0 { link := .active, width := 8, rate := 1 } }, fab := { term := 3, ctl := [{ code := 6, term := 3, data := leBytes 10 77, peer := 7 }] } }, by decide +kernel⟩

theorem meets_fenceNotice : ∃ (m : CtlMsg) (s : State), s.fab.ctl.find? (fun m => m.code = 7 && !m.response) = some m ∧ s.fab.term ≤ m.term ∧ (s.module.state = .service ∨ s.module.state = .degraded) :=
  ⟨{ code := 7, term := 3, data := [], peer := 7 }, { now := 0, ft := 0, module := { state := .service }, cfg := [(key 0x3001 1, 1), (key 0x3003 1, 2), (key 0x4100 1, 5), (key 0x4100 2, 9)], weft := { port := vset (Vector.replicate 128 {}) 0 { link := .active, width := 8, rate := 1 } }, fab := { term := 3, ctl := [{ code := 7, term := 3, data := [], peer := 7 }] } }, by decide +kernel⟩

theorem meets_resyncBegin : ∃ (m : CtlMsg) (s : State), s.fab.ctl.find? (fun m => m.code = 8 && !m.response) = some m ∧ s.module.state = .fenced :=
  ⟨{ code := 8, term := 3, data := leBytes 6 77 ++ leBytes 10 1 ++ leBytes 2 7, peer := 7 }, { now := 0, ft := 0, module := { state := .fenced }, cfg := [(key 0x3001 1, 1), (key 0x3003 1, 2), (key 0x4100 1, 5), (key 0x4100 2, 9)], weft := { port := vset (Vector.replicate 128 {}) 0 { link := .active, width := 8, rate := 1 } }, fab := { term := 3, ctl := [{ code := 8, term := 3, data := leBytes 6 77 ++ leBytes 10 1 ++ leBytes 2 7, peer := 7 }] } }, by decide +kernel⟩

theorem meets_resyncEnd : ∃ (m : CtlMsg) (s : State), s.fab.ctl.find? (fun m => m.code = 9 && !m.response) = some m ∧ s.fab.term ≤ m.term ∧ s.module.state = .fenced ∧ s.fab.epoch = leAt m.content 0 4 :=
  ⟨{ code := 9, term := 3, data := [], peer := 7 }, { now := 0, ft := 0, module := { state := .fenced }, cfg := [(key 0x3001 1, 1), (key 0x3003 1, 2), (key 0x4100 1, 5), (key 0x4100 2, 9)], weft := { port := vset (Vector.replicate 128 {}) 0 { link := .active, width := 8, rate := 1 } }, fab := { term := 3, ctl := [{ code := 9, term := 3, data := [], peer := 7 }], epoch := 0 } }, by decide +kernel⟩

theorem meets_admissionTimeout : ∃ (t0 : Nat) (s : State), fabricOn s = true ∧ s.fab.settled = false ∧ s.fab.firstActive = some t0 ∧ t0 + 5000000000 ≤ s.now :=
  ⟨0, { now := 5000000000, ft := 0, module := { state := .service }, cfg := [(key 0x3001 1, 1), (key 0x3003 1, 2), (key 0x4100 1, 5), (key 0x4100 2, 9)], weft := { port := vset (Vector.replicate 128 {}) 0 { link := .active, width := 8, rate := 1 } }, fab := { firstActive := some 0 } }, by decide +kernel⟩

theorem meets_memberFenceDeadline : ∃ (t0 : Nat) (s : State), fabricOn s = true ∧ s.fab.role ≠ 2 ∧ s.fab.splitAt.isSome = true ∧ s.fab.beaconAt = some t0 ∧ t0 + 40000000 ≤ s.now ∧ (s.module.state = .service ∨ s.module.state = .degraded) :=
  ⟨0, { now := 40000000, ft := 0, module := { state := .service }, cfg := [(key 0x3001 1, 1), (key 0x3003 1, 2), (key 0x4100 1, 5), (key 0x4100 2, 9)], weft := { port := vset (Vector.replicate 128 {}) 0 { link := .active, width := 8, rate := 1 } }, fab := { beaconAt := some 0, splitAt := some 0 } }, by decide +kernel⟩

theorem meets_masterDiscovery : ∃ (path : List Nat) (u : Nat) (n : Neighbour) (s : State), s.fab.role = 2 ∧ fabricOn s = true ∧ frontier s = [(path, u, n)] ∧ bit n.peer 31 = false ∧ s.fab.reqs = [] ∧ path ≠ [] :=
  ⟨[0], 5, { port := 0, link := 3, width := 8, rate := 1, peer := 0, delay := 0 }, { now := 0, ft := 0, module := { state := .service }, cfg := [(key 0x3001 1, 1), (key 0x3003 1, 2), (key 0x4100 1, 5), (key 0x4100 2, 9)], weft := { port := vset (Vector.replicate 128 {}) 0 { link := .active, width := 8, rate := 1 } }, fab := { role := 2 } }, by decide +kernel⟩

theorem meets_tableRecompute : ∃ (s : State), s.fab.role = 2 ∧ s.fab.recomputeSince.isSome = true ∧ s.fab.members = [] :=
  ⟨{ now := 0, ft := 3, module := { state := .service }, cfg := [(key 0x3001 1, 1), (key 0x3003 1, 2), (key 0x4100 1, 5), (key 0x4100 2, 9)], weft := { port := vset (Vector.replicate 128 {}) 0 { link := .active, width := 8, rate := 1 } }, fab := { role := 2, recomputeSince := some 0 } }, by decide +kernel⟩

theorem meets_fabricCtlHeartbeatReceive : ∃ (m : CtlMsg) (u : Nat) (x : Member) (s : State), s.fab.ctl.find? (fun m => m.code = 5 && !m.response) = some m ∧ ctlSender s m = some u ∧ s.fab.role = 2 ∧ m.term = s.fab.term ∧ Tbl.find? s.fab.members u = some x :=
  ⟨{ code := 5, term := 3, data := [7#8], peer := 7 }, 7, {}, { now := 0, ft := 0, module := { state := .service }, cfg := [(key 0x3001 1, 1), (key 0x3003 1, 2), (key 0x4100 1, 5), (key 0x4100 2, 9)], weft := { port := vset (Vector.replicate 128 {}) 0 { link := .active, width := 8, rate := 1 } }, fab := { term := 3, ctl := [{ code := 5, term := 3, data := [7#8], peer := 7 }], role := 2, members := [(7, {})] } }, by decide +kernel⟩

theorem meets_memberReport : ∃ (m : CtlMsg) (u : Nat) (s : State), s.fab.ctl.find? (fun m => m.code = 0x0A && !m.response) = some m ∧ ctlSender s m = some u ∧ s.fab.role = 2 ∧ leAt m.content 0 1 = 1 :=
  ⟨{ code := 0x0A, term := 3, data := [1#8], peer := 7 }, 7, { now := 0, ft := 0, module := { state := .service }, cfg := [(key 0x3001 1, 1), (key 0x3003 1, 2), (key 0x4100 1, 5), (key 0x4100 2, 9)], weft := { port := vset (Vector.replicate 128 {}) 0 { link := .active, width := 8, rate := 1 } }, fab := { term := 3, ctl := [{ code := 0x0A, term := 3, data := [1#8], peer := 7 }], role := 2 } }, by decide +kernel⟩

theorem meets_fabricCtlResponse : ∃ (m : CtlMsg) (r : CtlReq) (v : Nat) (s : State), s.fab.ctl.find? (fun m => m.response) = some m ∧ s.fab.reqs.find? (fun r => r.reqId = m.reqId) = some r ∧ s.fab.role = 2 ∧ r.code = 2 ∧ m.status = 0 ∧ r.mid = some v :=
  ⟨{ code := 2, response := true, reqId := 4 }, { reqId := 4, code := 2, path := [0], mid := some 9, sentAt := 0 }, 9, { now := 0, ft := 0, module := { state := .service }, cfg := [(key 0x3001 1, 1), (key 0x3003 1, 2), (key 0x4100 1, 5), (key 0x4100 2, 9)], weft := { port := vset (Vector.replicate 128 {}) 0 { link := .active, width := 8, rate := 1 } }, fab := { role := 2, ctl := [{ code := 2, response := true, reqId := 4 }], reqs := [{ reqId := 4, code := 2, path := [0], mid := some 9, sentAt := 0 }] } }, by decide +kernel⟩

theorem meets_heartbeatSilence : ∃ (r : Nat × Member) (s : State), s.fab.role = 2 ∧ r ∈ s.fab.members ∧ r.2.heardAt + 20000000 ≤ s.now ∧ cfgv s 0x4102 1 ≠ 0 ∧ s.fab.witnessOk = true :=
  ⟨(7, {}), { now := 20000000, ft := 0, module := { state := .service }, cfg := [(key 0x4100 1, 5), (key 0x4100 2, 9), (key 0x4102 1, 3)], weft := { port := vset (Vector.replicate 128 {}) 0 { link := .active, width := 8, rate := 1 } }, fab := { role := 2, members := [(7, {})], witnessOk := true } }, by decide +kernel⟩

theorem meets_beaconSilence : ∃ (t0 : Nat) (s : State), fabricOn s = true ∧ s.fab.role ≠ 2 ∧ s.fab.splitAt = none ∧ s.fab.beaconAt = some t0 ∧ t0 + 20000000 ≤ s.now ∧ inService s = true ∧ s.module.state ≠ .fenced ∧ candidateOf s (ownMid s) = 0 :=
  ⟨0, { now := 20000000, ft := 0, module := { state := .service }, cfg := [(key 0x3001 1, 1), (key 0x3003 1, 2), (key 0x4100 1, 5), (key 0x4100 2, 9)], weft := { port := vset (Vector.replicate 128 {}) 0 { link := .active, width := 8, rate := 1 } }, fab := { beaconAt := some 0, role := 1 } }, by decide +kernel⟩

theorem meets_beaconSenior : ∃ (t0 : Nat) (s : State), fabricOn s = true ∧ s.fab.role ≠ 2 ∧ s.fab.splitAt = none ∧ s.fab.beaconAt = some t0 ∧ t0 + 20000000 ≤ s.now ∧ inService s = true ∧ s.module.state ≠ .fenced ∧ candidateOf s (ownMid s) ≠ 0 ∧ cfgv s 0x4102 1 = 0 ∧ seniorCandidate s = ownMid s :=
  ⟨0, { now := 20000000, ft := 0, module := { state := .service }, cfg := [(key 0x4100 1, 5), (key 0x4100 2, 9), (key 0x4101 1, 5)], weft := { port := vset (Vector.replicate 128 {}) 0 { link := .active, width := 8, rate := 1 } }, fab := { beaconAt := some 0, role := 1, alive := 1 } }, by decide +kernel⟩

theorem meets_leaseRenew : ∃ (k : Nat) (ident : Nat) (s : State), leaseKind s = some (k, ident) ∧ (s.fab.leaseAt = 0 ∨ s.fab.leaseAt + 5000000 ≤ s.now) ∧ s.fab.leaseWait = none :=
  ⟨1, 9, { now := 7, ft := 0, module := { state := .service }, cfg := [(key 0x4100 1, 5), (key 0x4100 2, 9), (key 0x4102 1, 3)], weft := { port := vset (Vector.replicate 128 {}) 0 { link := .active, width := 8, rate := 1 } }, fab := { role := 2 } }, by decide +kernel⟩

theorem meets_leaseResp : ∃ (m : Msg) (s : State), s.mgmt.inbox.find? (fun m => m.typ = 0x0E) = some m ∧ leAt m.body 4 1 = 0 :=
  ⟨{ typ := 0x0E, source := 3 }, { now := 7, ft := 0, module := { state := .service }, cfg := [(key 0x3001 1, 1), (key 0x3003 1, 2), (key 0x4100 1, 5), (key 0x4100 2, 9)], weft := { port := vset (Vector.replicate 128 {}) 0 { link := .active, width := 8, rate := 1 } }, fab := {  }, mgmt := { inbox := [{ typ := 0x0E, source := 3 }] } }, by decide +kernel⟩

theorem meets_claimResp : ∃ (m : Msg) (s : State), s.mgmt.inbox.find? (fun m => m.typ = 0x10) = some m ∧ leAt m.body 4 1 = 0 ∧ s.fab.claimAt.isSome = true ∧ fabricOn s = true :=
  ⟨{ typ := 0x10, source := 3, body := leBytes 5 0 ++ leBytes 4 8 }, { now := 7, ft := 0, module := { state := .service }, cfg := [(key 0x3001 1, 1), (key 0x3003 1, 2), (key 0x4100 1, 5), (key 0x4100 2, 9)], weft := { port := vset (Vector.replicate 128 {}) 0 { link := .active, width := 8, rate := 1 } }, fab := { claimAt := some 0 }, mgmt := { inbox := [{ typ := 0x10, source := 3, body := leBytes 5 0 ++ leBytes 4 8 }] } }, by decide +kernel⟩

theorem meets_witnessUnreachableFence : ∃ (t0 : Nat) (s : State), fabricOn s = true ∧ s.fab.splitAt = some t0 ∧ t0 + 20000000 ≤ s.now ∧ cfgv s 0x4102 1 ≠ 0 ∧ candidateOf s (ownMid s) ≠ 0 ∧ s.fab.role ≠ 2 ∧ s.fab.claimAt = none ∧ witnessHeard s = false ∧ (s.module.state = .service ∨ s.module.state = .degraded) :=
  ⟨0, { now := 20000000, ft := 0, module := { state := .service }, cfg := [(key 0x4100 1, 5), (key 0x4100 2, 9), (key 0x4101 1, 5), (key 0x4102 1, 3)], weft := { port := vset (Vector.replicate 128 {}) 0 { link := .active, width := 8, rate := 1 } }, fab := { splitAt := some 0 } }, by decide +kernel⟩

theorem meets_masterForce : ∃ (sess : Nat) (s : State), MayAct s sess 0x4106 1 1 ∧ s.module.state = .fenced ∧ candidateOf s (ownMid s) ≠ 0 ∧ fabricOn s = true :=
  ⟨1, asInstaller { now := 0, ft := 0, module := { state := .fenced }, cfg := [(key 0x4100 1, 5), (key 0x4100 2, 9), (key 0x4101 1, 5)], weft := { port := vset (Vector.replicate 128 {}) 0 { link := .active, width := 8, rate := 1 } }, fab := { term := 6 } }, by decide +kernel⟩

theorem meets_operationAccept : ∃ (op : NewOp) (l : Nat) (ch : Nat) (s : State), nextWaiting (fun op => !op.told && takeable s op) s.shu.waiting [] = some op ∧ (connOf s op.cid).st = .active ∧ (connOf s op.cid).twin = false ∧ mergeTarget s op = none ∧ op.post = none ∧ op.chain = some ch ∧ Tbl.firstFree s.shu.ledger 65536 = some l :=
  ⟨{ cid := 3, typ := 5, chain := some 9 }, 0, 9, { now := 0, ft := 0, module := { state := .service }, cfg := [(key 0x4100 1, 5), (key 0x4100 2, 9)], shu := { waiting := [{ cid := 3, typ := 5, chain := some 9 }], conns := [(3, { peerMid := 7, peerCid := 3, st := .active })] } }, by decide +kernel⟩

theorem meets_deferredAccept : ∃ (op : NewOp) (l : Nat) (ch : Nat) (s : State), nextWaiting (fun op => op.told && takeable s op && resourceFree s op) s.shu.waiting [] = some op ∧ (connOf s op.cid).st = .active ∧ (connOf s op.cid).twin = false ∧ mergeTarget s op = none ∧ op.post = none ∧ op.chain = some ch ∧ Tbl.firstFree s.shu.ledger 65536 = some l :=
  ⟨{ cid := 3, typ := 5, chain := some 9, told := true }, 0, 9, { now := 0, ft := 0, module := { state := .service }, cfg := [(key 0x4100 1, 5), (key 0x4100 2, 9)], shu := { waiting := [{ cid := 3, typ := 5, chain := some 9, told := true }], conns := [(3, { peerMid := 7, peerCid := 3, st := .active })] } }, by decide +kernel⟩

theorem meets_operationFirstSend : ∃ (c : Cid) (l : Nat) (e : LedgerEntry) (s : State), firstUnsent s c = some (l, e) ∧ ((connOf s c).st = .active ∨ (connOf s c).st = .closing) ∧ twinAllows s e = true ∧ acquireAllows (connOf s c) e = true ∧ keyAllows (connOf s c) e = true ∧ windowAllows s c e = true ∧ e.op.inst = none :=
  ⟨3, 0, { cid := 3, seq := 4, typ := 5, slots := 1, chain := 7, sent := false, op := { cid := 3, typ := 5 } }, { now := 0, ft := 0, module := { state := .service }, cfg := [(key 0x4100 1, 5), (key 0x4100 2, 9)], shu := { ledger := [(0, { cid := 3, seq := 4, typ := 5, slots := 1, chain := 7, sent := false, op := { cid := 3, typ := 5 } })], conns := [(3, { peerMid := 7, peerCid := 3, st := .active, txNext := 5, cwnd := 65 })] } }, by decide +kernel⟩

theorem meets_retransmitTimeout : ∃ (l : Fin 65536) (e : LedgerEntry) (s : State), Tbl.find? s.shu.ledger l = some e ∧ e.sent = true ∧ e.deadline ≤ s.now ∧ (connOf s e.cid).live = true ∧ e.timeouts + 1 < (connOf s e.cid).retryLimit :=
  ⟨0, { cid := 3, seq := 4, typ := 5, slots := 1, chain := 7, sent := true, op := { cid := 3, typ := 5 } }, { now := 0, ft := 0, module := { state := .service }, cfg := [(key 0x4100 1, 5), (key 0x4100 2, 9)], shu := { ledger := [(0, { cid := 3, seq := 4, typ := 5, slots := 1, chain := 7, sent := true, op := { cid := 3, typ := 5 } })], conns := [(3, { peerMid := 7, peerCid := 3, st := .active, txNext := 5, cwnd := 65 })] } }, by decide +kernel⟩

theorem meets_ackSend : ∃ (c : Cid) (k : KeySet) (u : Nat × Nat) (s : State), (connOf s c).unacked.getLast? = some u ∧ (connOf s c).live = true ∧ (connOf s c).keys = some k ∧ ((connOf s c).unackedSince + 500 ≤ s.now ∨ cfgv s 0x4203 0 ≤ (connOf s c).unacked.length) :=
  ⟨3, { dataTx := [], dataRx := [], ctlTx := List.replicate 32 7#8, ctlRx := List.replicate 32 0#8 }, (4, 0), { now := 500, ft := 0, module := { state := .service }, cfg := [(key 0x4100 1, 5), (key 0x4100 2, 9)], shu := { conns := [(3, { peerMid := 7, peerCid := 3, st := .active, unacked := [(4, 0)], ceCount := 3, keys := some { dataTx := [], dataRx := [], ctlTx := List.replicate 32 7#8, ctlRx := List.replicate 32 0#8 } })] } }, by decide +kernel⟩

theorem meets_ackReceive : ∃ (o : WireOp) (ch : Option Nat) (src : Nat) (c : Nat) (x : Conn) (k : KeySet) (l : Nat) (e : LedgerEntry) (s : State), s.shu.inbox.find? (fun r => envTyp r.op = 8) = some { op := o, chain := ch, src := src } ∧ controlContext s o = some c ∧ Tbl.find? s.shu.conns c = some x ∧ x.live = true ∧ x.keys = some k ∧ ctlTagOk k.ctlRx (leAt o.body 24 8) o = true ∧ countFresh (leAt o.body 24 8) x.ctlHigh x.ctlSeen = true ∧ Tbl.find? s.shu.ledger l = some e ∧ e.cid = c ∧ e.sent = true ∧ seqBefore (bits (leAt o.body 0 32) 160 32) e.seq = false :=
  ⟨sealCtl (List.replicate 32 0#8) 1 (at_ 0 1 + at_ 4 8 + at_ 20 640 + at_ 37 896 + at_ 54 3 + at_ 68 4) (leBytes 32 (at_ 160 4 + at_ 192 1)), none, 128, 3, { peerMid := 7, peerCid := 3, st := .active, txNext := 5, keys := some { dataTx := [], dataRx := [], ctlTx := List.replicate 32 7#8, ctlRx := List.replicate 32 0#8 } }, { dataTx := [], dataRx := [], ctlTx := List.replicate 32 7#8, ctlRx := List.replicate 32 0#8 }, 0, { cid := 3, seq := 4, typ := 5, slots := 1, chain := 7, sent := true, op := { cid := 3, typ := 5 } }, { now := 0, ft := 0, module := { state := .service }, cfg := [(key 0x4100 1, 5), (key 0x4100 2, 9)], shu := { inbox := [{ op := sealCtl (List.replicate 32 0#8) 1 (at_ 0 1 + at_ 4 8 + at_ 20 640 + at_ 37 896 + at_ 54 3 + at_ 68 4) (leBytes 32 (at_ 160 4 + at_ 192 1)) }], ledger := [(0, { cid := 3, seq := 4, typ := 5, slots := 1, chain := 7, sent := true, op := { cid := 3, typ := 5 } })], conns := [(3, { peerMid := 7, peerCid := 3, st := .active, txNext := 5, keys := some { dataTx := [], dataRx := [], ctlTx := List.replicate 32 7#8, ctlRx := List.replicate 32 0#8 } })] } }, ⟨rfl, by decide, rfl, rfl, rfl, ctlTagOk_sealCtl _ _ _ _ (by decide), by decide, rfl, rfl, rfl, by decide⟩⟩

theorem meets_nakReceive : ∃ (o : WireOp) (ch : Option Nat) (src : Nat) (c : Nat) (x : Conn) (k : KeySet) (l : Nat) (e : LedgerEntry) (s : State), s.shu.inbox.find? (fun r => envTyp r.op = 9) = some { op := o, chain := ch, src := src } ∧ controlContext s o = some c ∧ Tbl.find? s.shu.conns c = some x ∧ x.live = true ∧ x.keys = some k ∧ ctlTagOk k.ctlRx (leAt o.body 24 8) o = true ∧ countFresh (leAt o.body 24 8) x.ctlHigh x.ctlSeen = true ∧ ledgerAt s c (envSeq o) = some (l, e) ∧ bits (leAt o.body 0 32) 152 8 ≠ 7 :=
  ⟨sealCtl (List.replicate 32 0#8) 1 (at_ 0 1 + at_ 4 9 + at_ 20 640 + at_ 37 896 + at_ 54 3 + at_ 68 4) (leBytes 32 (at_ 152 6 + at_ 192 1)), none, 128, 3, { peerMid := 7, peerCid := 3, st := .active, txNext := 5, keys := some { dataTx := [], dataRx := [], ctlTx := List.replicate 32 7#8, ctlRx := List.replicate 32 0#8 } }, { dataTx := [], dataRx := [], ctlTx := List.replicate 32 7#8, ctlRx := List.replicate 32 0#8 }, 0, { cid := 3, seq := 4, typ := 5, slots := 1, chain := 7, sent := true, op := { cid := 3, typ := 5 } }, { now := 0, ft := 0, module := { state := .service }, cfg := [(key 0x4100 1, 5), (key 0x4100 2, 9)], shu := { inbox := [{ op := sealCtl (List.replicate 32 0#8) 1 (at_ 0 1 + at_ 4 9 + at_ 20 640 + at_ 37 896 + at_ 54 3 + at_ 68 4) (leBytes 32 (at_ 152 6 + at_ 192 1)) }], ledger := [(0, { cid := 3, seq := 4, typ := 5, slots := 1, chain := 7, sent := true, op := { cid := 3, typ := 5 } })], conns := [(3, { peerMid := 7, peerCid := 3, st := .active, txNext := 5, keys := some { dataTx := [], dataRx := [], ctlTx := List.replicate 32 7#8, ctlRx := List.replicate 32 0#8 } })] } }, ⟨rfl, by decide, rfl, rfl, rfl, ctlTagOk_sealCtl _ _ _ _ (by decide), by decide, rfl, by decide⟩⟩

theorem meets_operationReceive : ∃ (o : WireOp) (p : WireOp) (ch : Option Nat) (src : Nat) (c : Nat) (x : Conn) (k : KeySet) (s : State), s.shu.inbox.find? (fun r => envTyp r.op < 8 || envTyp r.op = 13) = some { op := o, chain := ch, src := src } ∧ contextOf s o = some c ∧ Tbl.find? s.shu.conns c = some x ∧ c < 16384 ∧ x.live = true ∧ x.oldKeys = none ∧ x.keys = some k ∧ openArrived k.dataRx o = some p ∧ x.window = [] ∧ x.held = [] ∧ envTyp o = 5 ∧ envSeq o = x.rxE ∧ x.rxE < 2 ^ 32 ∧ x.unseen = 0 ∧ p.body.length = 16 ∧ (reqHead (leAt p.body 0 16)).len = 0 :=
  ⟨{ env := BitVec.ofNat 128 (at_ 0 1 + at_ 4 5 + at_ 20 640 + at_ 37 896 + at_ 54 3), body := [206#8, 167#8, 64#8, 61#8, 77#8, 96#8, 107#8, 110#8, 7#8, 78#8, 197#8, 211#8, 186#8, 243#8, 157#8, 24#8, 178#8, 218#8, 192#8, 190#8, 15#8, 6#8, 13#8, 157#8, 15#8, 137#8, 14#8, 218#8, 81#8, 229#8, 244#8, 178#8], tag := [] }, { env := BitVec.ofNat 128 (at_ 0 1 + at_ 4 5 + at_ 20 640 + at_ 37 896 + at_ 54 3), body := List.replicate 16 0#8, tag := [] }, none, 128, 3, { peerMid := 7, peerCid := 3, st := .active, keys := some { dataTx := [], dataRx := [], ctlTx := List.replicate 32 7#8, ctlRx := List.replicate 32 0#8 } }, { dataTx := [], dataRx := [], ctlTx := List.replicate 32 7#8, ctlRx := List.replicate 32 0#8 }, { now := 0, ft := 0, module := { state := .service }, cfg := [(key 0x4100 1, 5), (key 0x4100 2, 9)], shu := { inbox := [{ op := { env := BitVec.ofNat 128 (at_ 0 1 + at_ 4 5 + at_ 20 640 + at_ 37 896 + at_ 54 3), body := [206#8, 167#8, 64#8, 61#8, 77#8, 96#8, 107#8, 110#8, 7#8, 78#8, 197#8, 211#8, 186#8, 243#8, 157#8, 24#8, 178#8, 218#8, 192#8, 190#8, 15#8, 6#8, 13#8, 157#8, 15#8, 137#8, 14#8, 218#8, 81#8, 229#8, 244#8, 178#8], tag := [] } }], conns := [(3, { peerMid := 7, peerCid := 3, st := .active, keys := some { dataTx := [], dataRx := [], ctlTx := List.replicate 32 7#8, ctlRx := List.replicate 32 0#8 } })] } }, by decide +kernel⟩

theorem meets_operationUnknown : ∃ (o : WireOp) (ch : Option Nat) (src : Nat) (s : State), s.shu.inbox.find? (fun r => envTyp r.op < 8 || envTyp r.op = 13) = some { op := o, chain := ch, src := src } ∧ contextOf s o = none ∧ isOwnMid s (envSrc o / 128) = false :=
  ⟨{ env := BitVec.ofNat 128 (at_ 0 1 + at_ 4 5 + at_ 20 640 + at_ 37 896 + at_ 54 3), body := [], tag := [] }, none, 128, { now := 0, ft := 0, module := { state := .service }, cfg := [(key 0x4100 1, 5), (key 0x4100 2, 9)], shu := { inbox := [{ op := { env := BitVec.ofNat 128 (at_ 0 1 + at_ 4 5 + at_ 20 640 + at_ 37 896 + at_ 54 3), body := [], tag := [] } }] } }, by decide +kernel⟩

theorem meets_connReqOpen : ∃ (o : WireOp) (ch : Option Nat) (src : Nat) (k : List Byte) (c : Nat) (s : State), s.shu.inbox.find? (fun r => envTyp r.op = 10 && ctlKind r.op = 1) = some { op := o, chain := ch, src := src } ∧ openedBefore s o = none ∧ s.vault.entropyOk = true ∧ secretFor s (envSrc o / 128) = some k ∧ ctlTagOk (openKey k (envSrc o / 128) (envDst o / 128)) (reqNonce o) o = true ∧ openTimely s (bits (leAt o.body 0 32) 0 48) none = true ∧ juniorWaits s o = false ∧ openStatus s o = 0 ∧ contextForOpen s o = some c :=
  ⟨sealCtl (openKey (leBytes 32 1) 7 5) 2 (at_ 0 1 + at_ 4 10 + at_ 20 640 + at_ 37 896 + at_ 54 3) (leBytes 32 (at_ 184 1 + at_ 96 2)), none, 128, leBytes 32 1, 1, { now := 0, ft := 0, module := { state := .service }, cfg := [(key 0x4100 1, 5)], shu := { inbox := [{ op := sealCtl (openKey (leBytes 32 1) 7 5) 2 (at_ 0 1 + at_ 4 10 + at_ 20 640 + at_ 37 896 + at_ 54 3) (leBytes 32 (at_ 184 1 + at_ 96 2)) }] }, vault := { secrets := [(pairKey 7, 1)] } }, ⟨rfl, rfl, rfl, by decide, ctlTagOk_sealCtl _ _ _ _ (by decide), by decide, by decide, by decide, by decide⟩⟩

theorem meets_connReqClose : ∃ (o : WireOp) (ch : Option Nat) (src : Nat) (c : Nat) (x : Conn) (k : KeySet) (s : State), s.shu.inbox.find? (fun r => envTyp r.op = 10 && ctlKind r.op = 2) = some { op := o, chain := ch, src := src } ∧ contextOf s o = some c ∧ Tbl.find? s.shu.conns c = some x ∧ x.live = true ∧ x.keys = some k ∧ ctlTagOk k.ctlRx (leAt o.body 24 8) o = true ∧ countFresh (leAt o.body 24 8) x.ctlHigh x.ctlSeen = true ∧ ledgerOf s c ≠ [] :=
  ⟨sealCtl (List.replicate 32 0#8) 1 (at_ 0 1 + at_ 4 10 + at_ 20 640 + at_ 37 896 + at_ 54 3 + at_ 68 0) (leBytes 32 (at_ 184 2 + at_ 192 1)), none, 128, 3, { peerMid := 7, peerCid := 3, st := .active, txNext := 5, keys := some { dataTx := [], dataRx := [], ctlTx := List.replicate 32 7#8, ctlRx := List.replicate 32 0#8 } }, { dataTx := [], dataRx := [], ctlTx := List.replicate 32 7#8, ctlRx := List.replicate 32 0#8 }, { now := 0, ft := 0, module := { state := .service }, cfg := [(key 0x4100 1, 5), (key 0x4100 2, 9)], shu := { inbox := [{ op := sealCtl (List.replicate 32 0#8) 1 (at_ 0 1 + at_ 4 10 + at_ 20 640 + at_ 37 896 + at_ 54 3 + at_ 68 0) (leBytes 32 (at_ 184 2 + at_ 192 1)) }], ledger := [(0, { cid := 3, seq := 4, typ := 5, slots := 1, chain := 7, sent := true, op := { cid := 3, typ := 5 } })], conns := [(3, { peerMid := 7, peerCid := 3, st := .active, txNext := 5, keys := some { dataTx := [], dataRx := [], ctlTx := List.replicate 32 7#8, ctlRx := List.replicate 32 0#8 } })] } }, ⟨rfl, by decide, rfl, rfl, rfl, ctlTagOk_sealCtl _ _ _ _ (by decide), by decide, by decide⟩⟩

theorem meets_connReqReset : ∃ (o : WireOp) (ch : Option Nat) (src : Nat) (c : Nat) (x : Conn) (k : KeySet) (z : List Byte) (s : State), s.shu.inbox.find? (fun r => envTyp r.op = 10 && ctlKind r.op = 3) = some { op := o, chain := ch, src := src } ∧ contextOf s o = some c ∧ Tbl.find? s.shu.conns c = some x ∧ x.live = true ∧ x.keys = some k ∧ ctlTagOk k.ctlRx (leAt o.body 24 8) o = true ∧ countFresh (leAt o.body 24 8) x.ctlHigh x.ctlSeen = true ∧ x.answered = none ∧ x.exch = none ∧ secretFor s x.peerMid = some z ∧ s.vault.entropyOk = true :=
  ⟨sealCtl (List.replicate 32 0#8) 1 (at_ 0 1 + at_ 4 10 + at_ 20 640 + at_ 37 896 + at_ 54 3 + at_ 68 0) (leBytes 32 (at_ 184 3 + at_ 160 1 + at_ 64 9 + at_ 192 1)), none, 128, 3, { peerMid := 7, peerCid := 3, st := .stalled, txNext := 5, keys := some { dataTx := [], dataRx := [], ctlTx := List.replicate 32 7#8, ctlRx := List.replicate 32 0#8 } }, { dataTx := [], dataRx := [], ctlTx := List.replicate 32 7#8, ctlRx := List.replicate 32 0#8 }, leBytes 32 1, { now := 0, ft := 0, module := { state := .service }, cfg := [(key 0x4100 1, 5), (key 0x4100 2, 9)], shu := { inbox := [{ op := sealCtl (List.replicate 32 0#8) 1 (at_ 0 1 + at_ 4 10 + at_ 20 640 + at_ 37 896 + at_ 54 3 + at_ 68 0) (leBytes 32 (at_ 184 3 + at_ 160 1 + at_ 64 9 + at_ 192 1)) }], conns := [(3, { peerMid := 7, peerCid := 3, st := .stalled, txNext := 5, keys := some { dataTx := [], dataRx := [], ctlTx := List.replicate 32 7#8, ctlRx := List.replicate 32 0#8 } })] }, vault := { secrets := [(pairKey 7, 1)] } }, ⟨rfl, by decide, rfl, rfl, rfl, ctlTagOk_sealCtl _ _ _ _ (by decide), by decide, rfl, rfl, by decide, rfl⟩⟩

theorem meets_connReqRekey : ∃ (o : WireOp) (ch : Option Nat) (src : Nat) (c : Nat) (x : Conn) (k : KeySet) (z : List Byte) (s : State), s.shu.inbox.find? (fun r => envTyp r.op = 10 && ctlKind r.op = 4) = some { op := o, chain := ch, src := src } ∧ contextOf s o = some c ∧ Tbl.find? s.shu.conns c = some x ∧ x.live = true ∧ x.keys = some k ∧ ctlTagOk k.ctlRx (leAt o.body 24 8) o = true ∧ countFresh (leAt o.body 24 8) x.ctlHigh x.ctlSeen = true ∧ x.answered = none ∧ x.exch = none ∧ secretFor s x.peerMid = some z ∧ s.vault.entropyOk = true :=
  ⟨sealCtl (List.replicate 32 0#8) 1 (at_ 0 1 + at_ 4 10 + at_ 20 640 + at_ 37 896 + at_ 54 3 + at_ 68 0) (leBytes 32 (at_ 184 4 + at_ 160 1 + at_ 64 9 + at_ 192 1)), none, 128, 3, { peerMid := 7, peerCid := 3, st := .active, txNext := 5, keys := some { dataTx := [], dataRx := [], ctlTx := List.replicate 32 7#8, ctlRx := List.replicate 32 0#8 } }, { dataTx := [], dataRx := [], ctlTx := List.replicate 32 7#8, ctlRx := List.replicate 32 0#8 }, leBytes 32 1, { now := 0, ft := 0, module := { state := .service }, cfg := [(key 0x4100 1, 5), (key 0x4100 2, 9)], shu := { inbox := [{ op := sealCtl (List.replicate 32 0#8) 1 (at_ 0 1 + at_ 4 10 + at_ 20 640 + at_ 37 896 + at_ 54 3 + at_ 68 0) (leBytes 32 (at_ 184 4 + at_ 160 1 + at_ 64 9 + at_ 192 1)) }], conns := [(3, { peerMid := 7, peerCid := 3, st := .active, txNext := 5, keys := some { dataTx := [], dataRx := [], ctlTx := List.replicate 32 7#8, ctlRx := List.replicate 32 0#8 } })] }, vault := { secrets := [(pairKey 7, 1)] } }, ⟨rfl, by decide, rfl, rfl, rfl, ctlTagOk_sealCtl _ _ _ _ (by decide), by decide, rfl, rfl, by decide, rfl⟩⟩

theorem meets_connResp : ∃ (o : WireOp) (ch : Option Nat) (src : Nat) (c : Nat) (x : Conn) (k : KeySet) (e : Exchange) (s : State), s.shu.inbox.find? (fun r => envTyp r.op = 11) = some { op := o, chain := ch, src := src } ∧ controlContext s o = some c ∧ Tbl.find? s.shu.conns c = some x ∧ x.live = true ∧ x.keys = some k ∧ ctlTagOk k.ctlRx (leAt o.body 24 8) o = true ∧ countFresh (leAt o.body 24 8) x.ctlHigh x.ctlSeen = true ∧ x.exch = some e ∧ e.kind = 2 ∧ ctlKind o = 2 ∧ respStatus o = 0 ∧ ledgerOf s c ≠ [] :=
  ⟨sealCtl (List.replicate 32 0#8) 1 (at_ 0 1 + at_ 4 11 + at_ 20 640 + at_ 37 896 + at_ 54 3 + at_ 68 0) (leBytes 32 (at_ 184 2 + at_ 192 1)), none, 128, 3, { peerMid := 7, peerCid := 3, st := .closing, txNext := 5, keys := some { dataTx := [], dataRx := [], ctlTx := List.replicate 32 7#8, ctlRx := List.replicate 32 0#8 }, exch := some { kind := 2, since := 0, sentAt := 0 } }, { dataTx := [], dataRx := [], ctlTx := List.replicate 32 7#8, ctlRx := List.replicate 32 0#8 }, { kind := 2, since := 0, sentAt := 0 }, { now := 0, ft := 0, module := { state := .service }, cfg := [(key 0x4100 1, 5), (key 0x4100 2, 9)], shu := { inbox := [{ op := sealCtl (List.replicate 32 0#8) 1 (at_ 0 1 + at_ 4 11 + at_ 20 640 + at_ 37 896 + at_ 54 3 + at_ 68 0) (leBytes 32 (at_ 184 2 + at_ 192 1)) }], ledger := [(0, { cid := 3, seq := 4, typ := 5, slots := 1, chain := 7, sent := true, op := { cid := 3, typ := 5 } })], conns := [(3, { peerMid := 7, peerCid := 3, st := .closing, txNext := 5, keys := some { dataTx := [], dataRx := [], ctlTx := List.replicate 32 7#8, ctlRx := List.replicate 32 0#8 }, exch := some { kind := 2, since := 0, sentAt := 0 } })] } }, ⟨rfl, by decide, rfl, rfl, rfl, ctlTagOk_sealCtl _ _ _ _ (by decide), by decide, rfl, rfl, by decide, by decide, by decide⟩⟩

theorem meets_connReqResend : ∃ (c : Cid) (e : Exchange) (s : State), (connOf s c).exch = some e ∧ e.sentAt + 50000 ≤ s.now ∧ (e.kind = 2 ∨ s.now < e.since + 2000000) :=
  ⟨3, { kind := 2, since := 0, sentAt := 0 }, { now := 50000, ft := 0, module := { state := .service }, cfg := [(key 0x4100 1, 5), (key 0x4100 2, 9)], shu := { conns := [(3, { peerMid := 7, peerCid := 3, st := .closing, exch := some { kind := 2, since := 0, sentAt := 0 } })] } }, by decide +kernel⟩

theorem meets_connOpenTimeout : ∃ (c : Cid) (e : Exchange) (s : State), (connOf s c).exch = some e ∧ (connOf s c).st = .opening ∧ e.kind = 1 ∧ e.since + 2000000 ≤ s.now :=
  ⟨3, { kind := 1, since := 0, sentAt := 0 }, { now := 2000000, ft := 0, module := { state := .service }, cfg := [(key 0x4100 1, 5), (key 0x4100 2, 9)], shu := { conns := [(3, { peerMid := 7, peerCid := 3, st := .opening, exch := some { kind := 1, since := 0, sentAt := 0 } })] } }, by decide +kernel⟩

theorem meets_connExchangeTimeout : ∃ (c : Cid) (e : Exchange) (s : State), (connOf s c).exch = some e ∧ (e.kind = 3 ∨ e.kind = 4) ∧ e.since + 2000000 ≤ s.now ∧ (connOf s c).live = true ∧ (connOf s c).ownerKind ≠ 2 ∧ (connOf s c).ownerCloses = false :=
  ⟨3, { kind := 4, since := 0, sentAt := 0 }, { now := 2000000, ft := 0, module := { state := .service }, cfg := [(key 0x4100 1, 5), (key 0x4100 2, 9)], shu := { conns := [(3, { peerMid := 7, peerCid := 3, st := .active, exch := some { kind := 4, since := 0, sentAt := 0 } })] } }, by decide +kernel⟩

theorem meets_connCloseTimeout : ∃ (c : Cid) (t0 : Nat) (s : State), (connOf s c).st = .closing ∧ (connOf s c).closingAt = some t0 ∧ t0 + 10000000 ≤ s.now :=
  ⟨3, 0, { now := 10000000, ft := 0, module := { state := .service }, cfg := [(key 0x4100 1, 5), (key 0x4100 2, 9)], shu := { conns := [(3, { peerMid := 7, peerCid := 3, st := .closing, closingAt := some 0 })] } }, by decide +kernel⟩

theorem meets_autoResumeTimer : ∃ (c : Cid) (s : State), (connOf s c).st = .stalled ∧ (connOf s c).autoResume = true ∧ (connOf s c).exch = none ∧ s.vault.entropyOk = true ∧ (connOf s c).stalledAt + cfgv s 0x4204 0 ≤ s.now :=
  ⟨3, { now := 10000000000, ft := 0, module := { state := .service }, cfg := [(key 0x4100 1, 5), (key 0x4100 2, 9)], shu := { conns := [(3, { peerMid := 7, peerCid := 3, st := .stalled, autoResume := true })] } }, by decide +kernel⟩

theorem meets_rekeyAll : ∃ (sess : Nat) (c : Nat) (x : Conn) (s : State), MayAct s sess 0x4212 0 1 ∧ Tbl.find? s.shu.conns c = some x ∧ x.st = .active ∧ x.exch = none ∧ s.vault.entropyOk = true :=
  ⟨1, 3, { peerMid := 7, peerCid := 3, st := .active }, asInstaller { now := 0, ft := 0, module := { state := .service }, cfg := [(key 0x4100 1, 5), (key 0x4100 2, 9)], shu := { conns := [(3, { peerMid := 7, peerCid := 3, st := .active })] } }, by decide +kernel⟩

theorem meets_windowOpen : ∃ (c : AdmCmd) (s : State), (admHeads s).find? (fun c => c.op = 1 && !admFull (admOf s c.vs) && !(admOf s c.vs).disabling) = some c ∧ admBusy (admDrop s c) c = false ∧ c.target < 65536 ∧ openRefusal s c.vs c.target (Window.image (leAt c.data 0 32)) = 0 :=
  ⟨{ vs := 0, op := 1, id := 1, target := 0, arg := 0, data := fitBytes 48 (leBytes 32 (at_ 252 1 + at_ 244 12 + at_ 221 1 + at_ 213 1)), head := 1 }, { now := 0, ft := 0, module := { state := .service }, cfg := [(key 0x4100 1, 5), (key 0x3301 1, 1), (key 0x4403 1, 4)], eng := { adm := vset (Vector.replicate 32 {}) 0 { enabled := true, size := 0x404 }, cmds := [{ vs := 0, op := 1, id := 1, target := 0, arg := 0, data := fitBytes 48 (leBytes 32 (at_ 252 1 + at_ 244 12 + at_ 221 1 + at_ 213 1)), head := 1 }] }, win := {  }, shu := {  }, warp := { part := vset (Vector.replicate 32 {}) 0 { st := 2 } } }, by decide +kernel⟩

theorem meets_windowOpenRefused : ∃ (c : AdmCmd) (s : State), (admHeads s).find? (fun c => c.op = 1 && !admFull (admOf s c.vs) && !(admOf s c.vs).disabling) = some c ∧ admBusy (admDrop s c) c = false ∧ c.target < 65536 ∧ openRefusal s c.vs c.target (Window.image (leAt c.data 0 32)) ≠ 0 :=
  ⟨{ vs := 0, op := 1, id := 1, target := 0, arg := 0, data := fitBytes 48 ([]), head := 1 }, { now := 0, ft := 0, module := { state := .service }, cfg := [(key 0x4100 1, 5), (key 0x4100 2, 9), (key 0x3301 1, 1)], eng := { adm := vset (Vector.replicate 32 {}) 0 { enabled := true, size := 0x404 }, cmds := [{ vs := 0, op := 1, id := 1, target := 0, arg := 0, data := fitBytes 48 ([]), head := 1 }] }, win := {  }, shu := {  }, warp := { part := vset (Vector.replicate 32 {}) 0 { st := 2 } } }, by decide +kernel⟩

theorem meets_windowRevoke : ∃ (c : AdmCmd) (s : State), (admHeads s).find? (fun c => c.op = 2 && !admFull (admOf s c.vs) && !(admOf s c.vs).disabling) = some c ∧ admBusy (admDrop s c) c = false ∧ c.target < 65536 ∧ (winOf s c.target).st = .open_ ∧ (winOf s c.target).owner = c.vs :=
  ⟨{ vs := 0, op := 2, id := 1, target := 0, arg := 0, data := fitBytes 48 ([]), head := 1 }, { now := 0, ft := 0, module := { state := .service }, cfg := [(key 0x4100 1, 5), (key 0x4100 2, 9), (key 0x3301 1, 1)], eng := { adm := vset (Vector.replicate 32 {}) 0 { enabled := true, size := 0x404 }, cmds := [{ vs := 0, op := 2, id := 1, target := 0, arg := 0, data := fitBytes 48 ([]), head := 1 }] }, win := { windows := [(0, { st := .open_, gen := 3, owner := 0, sizeLog2 := 12, kind := 1 })] }, shu := {  }, warp := { part := vset (Vector.replicate 32 {}) 0 { st := 2 } } }, by decide +kernel⟩

theorem meets_windowRevokeComplete : ∃ (w : Fin 65536) (s : State), (winOf s w).st = .revoking ∧ (winOf s w).admitted = 0 :=
  ⟨0, { now := 0, ft := 5000000, module := { state := .service }, cfg := [(key 0x4100 1, 5), (key 0x4100 2, 9), (key 0x3301 1, 1)], eng := { adm := vset (Vector.replicate 32 {}) 0 { enabled := true, size := 0x404 } }, win := { windows := [(0, { st := .revoking, gen := 65535, owner := 0 })] }, shu := {  }, warp := { part := vset (Vector.replicate 32 {}) 0 { st := 2 } } }, by decide +kernel⟩

theorem meets_windowFree : ∃ (c : AdmCmd) (s : State), (admHeads s).find? (fun c => c.op = 3 && !admFull (admOf s c.vs) && !(admOf s c.vs).disabling) = some c ∧ admBusy (admDrop s c) c = false ∧ c.target < 65536 ∧ (winOf s c.target).st = .revoked ∧ (winOf s c.target).owner = c.vs :=
  ⟨{ vs := 0, op := 3, id := 1, target := 0, arg := 0, data := fitBytes 48 ([]), head := 1 }, { now := 0, ft := 0, module := { state := .service }, cfg := [(key 0x4100 1, 5), (key 0x4100 2, 9), (key 0x3301 1, 1)], eng := { adm := vset (Vector.replicate 32 {}) 0 { enabled := true, size := 0x404 }, cmds := [{ vs := 0, op := 3, id := 1, target := 0, arg := 0, data := fitBytes 48 ([]), head := 1 }] }, win := { windows := [(0, { st := .revoked, gen := 65535, quarUntil := 9, owner := 0 })] }, shu := {  }, warp := { part := vset (Vector.replicate 32 {}) 0 { st := 2 } } }, by decide +kernel⟩

theorem meets_windowRead : ∃ (c : AdmCmd) (s : State), (admHeads s).find? (fun c => c.op = 4 && !admFull (admOf s c.vs) && !(admOf s c.vs).disabling) = some c ∧ admBusy (admDrop s c) c = false ∧ windowStatus s c = 0 :=
  ⟨{ vs := 0, op := 4, id := 1, target := 0, arg := 4096, data := fitBytes 48 ([]), head := 1 }, { now := 0, ft := 0, module := { state := .service }, cfg := [(key 0x4100 1, 5), (key 0x4100 2, 9), (key 0x3301 1, 1)], eng := { adm := vset (Vector.replicate 32 {}) 0 { enabled := true, size := 0x404 }, cmds := [{ vs := 0, op := 4, id := 1, target := 0, arg := 4096, data := fitBytes 48 ([]), head := 1 }] }, win := { windows := [(0, { st := .open_, gen := 3, owner := 0, sizeLog2 := 12, kind := 1 })] }, shu := {  }, warp := { part := vset (Vector.replicate 32 {}) 0 { st := 2 } } }, by decide +kernel⟩

theorem meets_importWrite : ∃ (c : AdmCmd) (s : State), (admHeads s).find? (fun c => c.op = 8 && !admFull (admOf s c.vs) && !(admOf s c.vs).disabling) = some c ∧ admBusy (admDrop s c) c = false ∧ importStatus s c = 0 ∧ ownsInst s c.vs (Import.image (leAt c.data 0 32)).func = true ∧ ownsConn s c.vs (Import.image (leAt c.data 0 32)).cid = true ∧ 12 ≤ (Import.image (leAt c.data 0 32)).sizeLog2 ∧ (Import.image (leAt c.data 0 32)).sizeLog2 ≤ 41 ∧ (Import.image (leAt c.data 0 32)).base % 2 ^ (Import.image (leAt c.data 0 32)).sizeLog2 = 0 ∧ (Import.image (leAt c.data 0 32)).winBase % 2 ^ (Import.image (leAt c.data 0 32)).sizeLog2 = 0 ∧ shareAllows s (Import.image (leAt c.data 0 32)).func 3 = true :=
  ⟨{ vs := 0, op := 8, id := 1, target := 0, arg := 0, data := fitBytes 48 (leBytes 32 (at_ 253 1 + at_ 245 12 + at_ 220 3 + at_ 204 9 + at_ 188 4)), head := 1 }, { now := 0, ft := 0, module := { state := .service }, cfg := [(key 0x4100 1, 5), (key 0x3301 1, 1), (key 0x4404 1, 4)], eng := { adm := vset (Vector.replicate 32 {}) 0 { enabled := true, size := 0x404 }, cmds := [{ vs := 0, op := 8, id := 1, target := 0, arg := 0, data := fitBytes 48 (leBytes 32 (at_ 253 1 + at_ 245 12 + at_ 220 3 + at_ 204 9 + at_ 188 4)), head := 1 }], insts := [(0, { vs := 0, vf := 0 })] }, win := {  }, shu := { conns := [(3, { st := .active, peerMid := 7, ownerKind := 0, ownerId := 0 })] }, warp := { part := vset (Vector.replicate 32 {}) 0 { st := 2 } } }, by decide +kernel⟩

theorem meets_importInvalidate : ∃ (c : AdmCmd) (x : Import) (s : State), (admHeads s).find? (fun c => c.op = 9 && !admFull (admOf s c.vs) && !(admOf s c.vs).disabling) = some c ∧ admBusy (admDrop s c) c = false ∧ importStatus s c = 0 ∧ Tbl.find? s.win.imports c.target = some x :=
  ⟨{ vs := 0, op := 9, id := 1, target := 0, arg := 0, data := fitBytes 48 ([]), head := 1 }, { permR := true, permW := true, permA := true, func := 0, cid := 3, window := 9, gen := 4 }, { now := 0, ft := 0, module := { state := .service }, cfg := [(key 0x4100 1, 5), (key 0x4100 2, 9), (key 0x3301 1, 1)], eng := { adm := vset (Vector.replicate 32 {}) 0 { enabled := true, size := 0x404 }, cmds := [{ vs := 0, op := 9, id := 1, target := 0, arg := 0, data := fitBytes 48 ([]), head := 1 }], insts := [(0, { vs := 0, vf := 0 })] }, win := { imports := [(0, { permR := true, permW := true, permA := true, func := 0, cid := 3, window := 9, gen := 4 })] }, shu := {  }, warp := { part := vset (Vector.replicate 32 {}) 0 { st := 2 } } }, by decide +kernel⟩

theorem meets_importRead : ∃ (c : AdmCmd) (x : Import) (s : State), (admHeads s).find? (fun c => c.op = 0x0A && !admFull (admOf s c.vs) && !(admOf s c.vs).disabling) = some c ∧ admBusy (admDrop s c) c = false ∧ importStatus s c = 0 ∧ Tbl.find? s.win.imports c.target = some x :=
  ⟨{ vs := 0, op := 10, id := 1, target := 0, arg := 4096, data := fitBytes 48 ([]), head := 1 }, { permR := true, permW := true, permA := true, func := 0, cid := 3, window := 9, gen := 4 }, { now := 0, ft := 0, module := { state := .service }, cfg := [(key 0x4100 1, 5), (key 0x4100 2, 9), (key 0x3301 1, 1)], eng := { adm := vset (Vector.replicate 32 {}) 0 { enabled := true, size := 0x404 }, cmds := [{ vs := 0, op := 10, id := 1, target := 0, arg := 4096, data := fitBytes 48 ([]), head := 1 }], insts := [(0, { vs := 0, vf := 0 })] }, win := { imports := [(0, { permR := true, permW := true, permA := true, func := 0, cid := 3, window := 9, gen := 4 })] }, shu := {  }, warp := { part := vset (Vector.replicate 32 {}) 0 { st := 2 } } }, by decide +kernel⟩

theorem meets_importSetGen : ∃ (c : AdmCmd) (x : Import) (s : State), (admHeads s).find? (fun c => c.op = 0x0B && !admFull (admOf s c.vs) && !(admOf s c.vs).disabling) = some c ∧ admBusy (admDrop s c) c = false ∧ importStatus s c = 0 ∧ Tbl.find? s.win.imports c.target = some x :=
  ⟨{ vs := 0, op := 11, id := 1, target := 0, arg := 77, data := fitBytes 48 ([]), head := 1 }, { permR := true, permW := true, permA := true, func := 0, cid := 3, window := 9, gen := 4 }, { now := 0, ft := 0, module := { state := .service }, cfg := [(key 0x4100 1, 5), (key 0x4100 2, 9), (key 0x3301 1, 1)], eng := { adm := vset (Vector.replicate 32 {}) 0 { enabled := true, size := 0x404 }, cmds := [{ vs := 0, op := 11, id := 1, target := 0, arg := 77, data := fitBytes 48 ([]), head := 1 }], insts := [(0, { vs := 0, vf := 0 })] }, win := { imports := [(0, { permR := true, permW := true, permA := true, func := 0, cid := 3, window := 9, gen := 4 })] }, shu := {  }, warp := { part := vset (Vector.replicate 32 {}) 0 { st := 2 } } }, by decide +kernel⟩

theorem meets_apertureAccess : ∃ (i : Inst) (q : Tlp) (f : InstState) (n : Nat) (x : Import) (s : State), instOf s i.val = some f ∧ inService s = true ∧ f.flr = none ∧ f.ending = false ∧ vsState s f.vs = 2 ∧ (partOf s f.vs).resetSince = none ∧ q.ep = false ∧ importFor s i.val q.addr = some (n, x) ∧ importPermits x q = true ∧ (connOf s x.cid).st = .active ∧ q.kind = .memRead ∧ x.device = false ∧ coverage (postingsOf s x.cid x.window) (x.winBase + (q.addr - x.base)) q.len = 0 :=
  ⟨0, { kind := .memRead, addr := 16, len := 8, rid := 5, firstBe := 15, lastBe := 15 }, { vs := 0, vf := 0 }, 0, { permR := true, permW := true, permA := true, func := 0, cid := 3, window := 9, gen := 4, fwd := true }, { now := 0, ft := 0, module := { state := .service }, cfg := [(key 0x4100 1, 5), (key 0x4100 2, 9), (key 0x3301 1, 1)], eng := { adm := vset (Vector.replicate 32 {}) 0 { enabled := true, size := 0x404 }, insts := [(0, { vs := 0, vf := 0 })] }, win := { imports := [(0, { permR := true, permW := true, permA := true, func := 0, cid := 3, window := 9, gen := 4, fwd := true })] }, shu := { conns := [(3, { st := .active, peerMid := 7, ownerKind := 0, ownerId := 0 })] }, warp := { part := vset (Vector.replicate 32 {}) 0 { st := 2 } } }, by decide +kernel⟩

theorem meets_apertureStore : ∃ (i : Inst) (q : Tlp) (f : InstState) (n : Nat) (x : Import) (s : State), instOf s i.val = some f ∧ inService s = true ∧ f.flr = none ∧ f.ending = false ∧ vsState s f.vs = 2 ∧ (partOf s f.vs).resetSince = none ∧ q.ep = false ∧ importFor s i.val q.addr = some (n, x) ∧ importPermits x q = true ∧ (connOf s x.cid).st = .active ∧ q.kind = .memWrite ∧ q.data.length ≤ 4080 :=
  ⟨0, { kind := .memWrite, addr := 16, len := 8, rid := 5, firstBe := 15, lastBe := 15, data := [1#8, 2#8, 3#8, 4#8, 5#8, 6#8, 7#8, 8#8] }, { vs := 0, vf := 0 }, 0, { permR := true, permW := true, permA := true, func := 0, cid := 3, window := 9, gen := 4, fwd := true }, { now := 0, ft := 0, module := { state := .service }, cfg := [(key 0x4100 1, 5), (key 0x4100 2, 9), (key 0x3301 1, 1)], eng := { adm := vset (Vector.replicate 32 {}) 0 { enabled := true, size := 0x404 }, insts := [(0, { vs := 0, vf := 0 })] }, win := { imports := [(0, { permR := true, permW := true, permA := true, func := 0, cid := 3, window := 9, gen := 4, fwd := true })] }, shu := { conns := [(3, { st := .active, peerMid := 7, ownerKind := 0, ownerId := 0 })] }, warp := { part := vset (Vector.replicate 32 {}) 0 { st := 2 } } }, by decide +kernel⟩

theorem meets_apertureHeld : ∃ (i : Inst) (q : Tlp) (f : InstState) (n : Nat) (x : Import) (s : State), instOf s i.val = some f ∧ inService s = true ∧ f.flr = none ∧ f.ending = false ∧ vsState s f.vs = 2 ∧ (partOf s f.vs).resetSince = none ∧ q.ep = false ∧ importFor s i.val q.addr = some (n, x) ∧ importPermits x q = true ∧ (connOf s x.cid).st = .active ∧ q.kind = .memRead ∧ x.device = false ∧ x.fwd = true ∧ coverage (postingsOf s x.cid x.window) (x.winBase + (q.addr - x.base)) q.len = 1 :=
  ⟨0, { kind := .memRead, addr := 16, len := 8, rid := 5, firstBe := 15, lastBe := 15 }, { vs := 0, vf := 0 }, 0, { permR := true, permW := true, permA := true, func := 0, cid := 3, window := 9, gen := 4, fwd := true }, { now := 0, ft := 0, module := { state := .service }, cfg := [(key 0x4100 1, 5), (key 0x4100 2, 9), (key 0x3301 1, 1)], eng := { adm := vset (Vector.replicate 32 {}) 0 { enabled := true, size := 0x404 }, insts := [(0, { vs := 0, vf := 0 })] }, win := { imports := [(0, { permR := true, permW := true, permA := true, func := 0, cid := 3, window := 9, gen := 4, fwd := true })], posting := [(0, { ledger := 0, cid := 3, seq := 4, window := 9, offset := 16, data := [1#8, 2#8, 3#8, 4#8], firstBe := 15, lastBe := 15, imp := 0, device := false, rel := false })] }, shu := { conns := [(3, { st := .active, peerMid := 7, ownerKind := 0, ownerId := 0 })] }, warp := { part := vset (Vector.replicate 32 {}) 0 { st := 2 } } }, by decide +kernel⟩

theorem meets_apertureMiss : ∃ (i : Inst) (q : Tlp) (f : InstState) (s : State), instOf s i.val = some f ∧ inService s = true ∧ q.ep = false ∧ importFor s i.val q.addr = none :=
  ⟨0, { kind := .memRead, addr := 16, len := 8, rid := 5, firstBe := 15, lastBe := 15 }, { vs := 0, vf := 0 }, { now := 0, ft := 0, module := { state := .service }, cfg := [(key 0x4100 1, 5), (key 0x4100 2, 9), (key 0x3301 1, 1)], eng := { adm := vset (Vector.replicate 32 {}) 0 { enabled := true, size := 0x404 }, insts := [(0, { vs := 0, vf := 0 })] }, win := {  }, shu := { conns := [(3, { st := .active, peerMid := 7, ownerKind := 0, ownerId := 0 })] }, warp := { part := vset (Vector.replicate 32 {}) 0 { st := 2 } } }, by decide +kernel⟩

theorem meets_heldLoadSend : ∃ (l : HeldLoad) (x : Import) (s : State), s.win.heldLoads.find? (fun l => match Tbl.find? s.win.imports l.imp with | some x => decide (coverage (postingsOf s x.cid x.window) l.offset l.tlp.len = 0) | none => true) = some l ∧ Tbl.find? s.win.imports l.imp = some x ∧ l.tlp.kind = .memRead :=
  ⟨{ imp := 0, offset := 16, tlp := { kind := .memRead, addr := 16, len := 8, rid := 5, firstBe := 15, lastBe := 15 }, origin := {}, inst := 0 }, { permR := true, permW := true, permA := true, func := 0, cid := 3, window := 9, gen := 4, fwd := true }, { now := 0, ft := 0, module := { state := .service }, cfg := [(key 0x4100 1, 5), (key 0x4100 2, 9), (key 0x3301 1, 1)], eng := { adm := vset (Vector.replicate 32 {}) 0 { enabled := true, size := 0x404 }, insts := [(0, { vs := 0, vf := 0 })] }, win := { imports := [(0, { permR := true, permW := true, permA := true, func := 0, cid := 3, window := 9, gen := 4, fwd := true })], heldLoads := [{ imp := 0, offset := 16, tlp := { kind := .memRead, addr := 16, len := 8, rid := 5, firstBe := 15, lastBe := 15 }, origin := {}, inst := 0 }] }, shu := { conns := [(3, { st := .active, peerMid := 7, ownerKind := 0, ownerId := 0 })] }, warp := { part := vset (Vector.replicate 32 {}) 0 { st := 2 } } }, by decide +kernel⟩

theorem meets_visibilityPoint : ∃ (u : Unseen) (w : Nat) (x : Window) (s : State), s.win.unseen.find? (fun u => u.left) = some u ∧ u.waiter = none ∧ u.window = some w ∧ Tbl.find? s.win.windows w = some x ∧ (connOf s u.cid).held = [] :=
  ⟨{ item := 0, window := some 0, cid := 3, seq := 1, left := true }, 0, { st := .open_, admitted := 2 }, { now := 0, ft := 0, module := { state := .service }, cfg := [(key 0x4100 1, 5), (key 0x4100 2, 9), (key 0x3301 1, 1)], eng := { adm := vset (Vector.replicate 32 {}) 0 { enabled := true, size := 0x404 } }, win := { windows := [(0, { st := .open_, admitted := 2 })], unseen := [{ item := 0, window := some 0, cid := 3, seq := 1, left := true }] }, shu := { conns := [(3, { st := .active, peerMid := 7, ownerKind := 0, ownerId := 0 })] }, warp := { part := vset (Vector.replicate 32 {}) 0 { st := 2 } } }, by decide +kernel⟩

theorem meets_fenceSlotRead : ∃ (i : Inst) (slot : Fin 1024) (f : InstState) (c : Nat) (s : State), instOf s i.val = some f ∧ inService s = true ∧ Tbl.find? f.fences slot.val = some c :=
  ⟨0, 5, { vs := 0, vf := 0, fences := [(5, 3)] }, 3, { now := 0, ft := 0, module := { state := .service }, cfg := [(key 0x4100 1, 5), (key 0x4100 2, 9), (key 0x3301 1, 1)], eng := { adm := vset (Vector.replicate 32 {}) 0 { enabled := true, size := 0x404 }, insts := [(0, { vs := 0, vf := 0, fences := [(5, 3)] })] }, win := {  }, shu := { conns := [(3, { st := .active, peerMid := 7, ownerKind := 0, ownerId := 0 })] }, warp := { part := vset (Vector.replicate 32 {}) 0 { st := 2 } } }, by decide +kernel⟩

theorem meets_postfailClear : ∃ (sess : Nat) (v : Vs) (s : State), MayAct s sess 0x4311 (v + 1) 1 :=
  ⟨1, 0, asOperator { now := 0, ft := 0, module := { state := .service }, cfg := [(key 0x4100 1, 5), (key 0x4100 2, 9), (key 0x3301 1, 1)], eng := { adm := vset (Vector.replicate 32 {}) 0 { enabled := true, size := 0x404 } }, win := { fails := [(0, { reason := 1, func := 0, cid := 0, mid := 0, window := 0, offset := 0, seq := 0, time := 0 })] }, shu := {  }, warp := { part := vset (Vector.replicate 32 {}) 0 { st := 2 } } }, by decide +kernel⟩

theorem meets_connOpen : ∃ (c : AdmCmd) (k : Nat) (z : List Byte) (s : State), (admHeads s).find? (fun c => c.op = 0x10 && !admFull (admOf s c.vs) && !(admOf s c.vs).disabling) = some c ∧ admBusy (admDrop s c) c = false ∧ c.target < 2048 ∧ ownsInst s c.vs c.target = true ∧ leAt c.data 0 2 < 1024 ∧ leAt c.data 2 1 < 8 ∧ leAt c.data 3 1 < 2 ∧ leAt c.data 4 1 < 2 ∧ 1 ≤ leAt c.data 5 1 ∧ leAt c.data 5 1 < 16 ∧ shareAllows s c.target 4 = true ∧ freeContext s = some k ∧ secretFor s (leAt c.data 0 2) = some z ∧ s.vault.entropyOk = true :=
  ⟨{ vs := 0, op := 16, id := 1, target := 0, arg := 0, data := fitBytes 48 (leBytes 2 7 ++ [2#8, 1#8, 1#8, 9#8]), head := 1 }, 1, leBytes 32 1, { now := 50, ft := 60, module := { state := .service }, cfg := [(key 0x4100 1, 5), (key 0x3301 1, 1), (key 0x4401 1, 4), (key 0x4402 1, 4), (key 0x4404 1, 4), (key 0x4405 1, 4), (key 0x4408 1, 8)], eng := { adm := vset (Vector.replicate 32 {}) 0 { enabled := true, size := 0x404 }, cmds := [{ vs := 0, op := 16, id := 1, target := 0, arg := 0, data := fitBytes 48 (leBytes 2 7 ++ [2#8, 1#8, 1#8, 9#8]), head := 1 }], insts := [(0, { vs := 0, vf := 0 })] }, win := {  }, shu := {  }, warp := { part := vset (Vector.replicate 32 {}) 0 { st := 2 } }, vault := { secrets := [(pairKey 7, 1)] } }, by decide +kernel⟩

theorem meets_connModify : ∃ (c : AdmCmd) (s : State), (admHeads s).find? (fun c => c.op = 0x11 && !admFull (admOf s c.vs) && !(admOf s c.vs).disabling) = some c ∧ admBusy (admDrop s c) c = false ∧ connStatus s c = 0 ∧ leAt c.data 0 1 < 2 ∧ 1 ≤ leAt c.data 1 1 ∧ leAt c.data 1 1 < 16 :=
  ⟨{ vs := 0, op := 17, id := 1, target := 3, arg := 0, data := fitBytes 48 ([1#8, 4#8]), head := 1 }, { now := 0, ft := 0, module := { state := .service }, cfg := [(key 0x4100 1, 5), (key 0x4100 2, 9), (key 0x3301 1, 1)], eng := { adm := vset (Vector.replicate 32 {}) 0 { enabled := true, size := 0x404 }, cmds := [{ vs := 0, op := 17, id := 1, target := 3, arg := 0, data := fitBytes 48 ([1#8, 4#8]), head := 1 }], insts := [(0, { vs := 0, vf := 0 })] }, win := {  }, shu := { conns := [(3, { peerMid := 7, ownerKind := 0, ownerId := 0, st := .active })] }, warp := { part := vset (Vector.replicate 32 {}) 0 { st := 2 } } }, by decide +kernel⟩

theorem meets_connReset : ∃ (c : AdmCmd) (s : State), (admHeads s).find? (fun c => c.op = 0x12 && !admFull (admOf s c.vs) && !(admOf s c.vs).disabling) = some c ∧ admBusy (admDrop s c) c = false ∧ connStatus s c = 0 ∧ ((connOf s c.target).st = .active ∨ (connOf s c.target).st = .stalled) ∧ (connOf s c.target).exch = none ∧ s.vault.entropyOk = true :=
  ⟨{ vs := 0, op := 18, id := 1, target := 3, arg := 0, data := fitBytes 48 ([]), head := 1 }, { now := 0, ft := 0, module := { state := .service }, cfg := [(key 0x4100 1, 5), (key 0x4100 2, 9), (key 0x3301 1, 1)], eng := { adm := vset (Vector.replicate 32 {}) 0 { enabled := true, size := 0x404 }, cmds := [{ vs := 0, op := 18, id := 1, target := 3, arg := 0, data := fitBytes 48 ([]), head := 1 }], insts := [(0, { vs := 0, vf := 0 })] }, win := {  }, shu := { conns := [(3, { peerMid := 7, ownerKind := 0, ownerId := 0, st := .active })] }, warp := { part := vset (Vector.replicate 32 {}) 0 { st := 2 } } }, by decide +kernel⟩

theorem meets_connRead : ∃ (c : AdmCmd) (s : State), (admHeads s).find? (fun c => c.op = 0x13 && !admFull (admOf s c.vs) && !(admOf s c.vs).disabling) = some c ∧ admBusy (admDrop s c) c = false ∧ connStatus s c = 0 :=
  ⟨{ vs := 0, op := 19, id := 1, target := 3, arg := 4096, data := fitBytes 48 ([]), head := 1 }, { now := 0, ft := 0, module := { state := .service }, cfg := [(key 0x4100 1, 5), (key 0x4100 2, 9), (key 0x3301 1, 1)], eng := { adm := vset (Vector.replicate 32 {}) 0 { enabled := true, size := 0x404 }, cmds := [{ vs := 0, op := 19, id := 1, target := 3, arg := 4096, data := fitBytes 48 ([]), head := 1 }], insts := [(0, { vs := 0, vf := 0 })] }, win := {  }, shu := { conns := [(3, { peerMid := 7, ownerKind := 0, ownerId := 0, st := .active })] }, warp := { part := vset (Vector.replicate 32 {}) 0 { st := 2 } } }, by decide +kernel⟩

theorem meets_connClose : ∃ (c : AdmCmd) (s : State), (admHeads s).find? (fun c => c.op = 0x14 && !admFull (admOf s c.vs) && !(admOf s c.vs).disabling) = some c ∧ admBusy (admDrop s c) c = false ∧ connStatus s c = 0 ∧ ((connOf s c.target).st = .active ∨ (connOf s c.target).st = .stalled) :=
  ⟨{ vs := 0, op := 20, id := 1, target := 3, arg := 0, data := fitBytes 48 ([]), head := 1 }, { now := 0, ft := 0, module := { state := .service }, cfg := [(key 0x4100 1, 5), (key 0x4100 2, 9), (key 0x3301 1, 1)], eng := { adm := vset (Vector.replicate 32 {}) 0 { enabled := true, size := 0x404 }, cmds := [{ vs := 0, op := 20, id := 1, target := 3, arg := 0, data := fitBytes 48 ([]), head := 1 }], insts := [(0, { vs := 0, vf := 0 })] }, win := {  }, shu := { conns := [(3, { peerMid := 7, ownerKind := 0, ownerId := 0, st := .active })] }, warp := { part := vset (Vector.replicate 32 {}) 0 { st := 2 } } }, by decide +kernel⟩

theorem meets_ledgerRead : ∃ (c : AdmCmd) (w : Nat) (s : State), (admHeads s).find? (fun c => c.op = 0x15 && !admFull (admOf s c.vs) && !(admOf s c.vs).disabling) = some c ∧ admBusy (admDrop s c) c = false ∧ s.mgmt.sessions.any (fun x => x.source = 128 + c.vs && x.role = 2) = true ∧ c.target < 65536 ∧ w = (match Tbl.find? s.shu.ledger c.target with | some e => ledgerWord s c.target e | none => 0) :=
  ⟨{ vs := 0, op := 21, id := 1, target := 3, arg := 4096, data := fitBytes 48 ([]), head := 1 }, 0, { now := 0, ft := 0, module := { state := .service }, cfg := [(key 0x4100 1, 5), (key 0x4100 2, 9), (key 0x3301 1, 1)], eng := { adm := vset (Vector.replicate 32 {}) 0 { enabled := true, size := 0x404 }, cmds := [{ vs := 0, op := 21, id := 1, target := 3, arg := 4096, data := fitBytes 48 ([]), head := 1 }], insts := [(0, { vs := 0, vf := 0 })] }, win := {  }, shu := {  }, warp := { part := vset (Vector.replicate 32 {}) 0 { st := 2 } }, mgmt := { sessions := [{ slot := 0, num := 1, role := 2, source := 128 }] } }, by decide +kernel⟩

theorem meets_ledgerReadDenied : ∃ (c : AdmCmd) (s : State), (admHeads s).find? (fun c => c.op = 0x15 && !admFull (admOf s c.vs) && !(admOf s c.vs).disabling) = some c ∧ admBusy (admDrop s c) c = false ∧ s.mgmt.sessions.any (fun x => x.source = 128 + c.vs && x.role = 2) = false :=
  ⟨{ vs := 0, op := 21, id := 1, target := 3, arg := 4096, data := fitBytes 48 ([]), head := 1 }, { now := 0, ft := 0, module := { state := .service }, cfg := [(key 0x4100 1, 5), (key 0x4100 2, 9), (key 0x3301 1, 1)], eng := { adm := vset (Vector.replicate 32 {}) 0 { enabled := true, size := 0x404 }, cmds := [{ vs := 0, op := 21, id := 1, target := 3, arg := 4096, data := fitBytes 48 ([]), head := 1 }], insts := [(0, { vs := 0, vf := 0 })] }, win := {  }, shu := {  }, warp := { part := vset (Vector.replicate 32 {}) 0 { st := 2 } } }, by decide +kernel⟩

theorem meets_fenceBind : ∃ (c : AdmCmd) (x : InstState) (s : State), (admHeads s).find? (fun c => c.op = 0x18 && !admFull (admOf s c.vs) && !(admOf s c.vs).disabling) = some c ∧ admBusy (admDrop s c) c = false ∧ instStatus s c = 0 ∧ instOf s c.target = some x ∧ bit c.arg 31 = true ∧ ownsConn s c.vs (bits c.arg 10 14) = true :=
  ⟨{ vs := 0, op := 24, id := 1, target := 0, arg := (at_ 31 1 + at_ 10 3 + 5), data := fitBytes 48 ([]), head := 1 }, { vs := 0, vf := 0 }, { now := 0, ft := 0, module := { state := .service }, cfg := [(key 0x4100 1, 5), (key 0x4100 2, 9), (key 0x3301 1, 1)], eng := { adm := vset (Vector.replicate 32 {}) 0 { enabled := true, size := 0x404 }, cmds := [{ vs := 0, op := 24, id := 1, target := 0, arg := (at_ 31 1 + at_ 10 3 + 5), data := fitBytes 48 ([]), head := 1 }], insts := [(0, { vs := 0, vf := 0 })] }, win := {  }, shu := { conns := [(3, { peerMid := 7, ownerKind := 0, ownerId := 0, st := .active })] }, warp := { part := vset (Vector.replicate 32 {}) 0 { st := 2 } } }, by decide +kernel⟩

theorem meets_fenceUnbind : ∃ (c : AdmCmd) (x : InstState) (s : State), (admHeads s).find? (fun c => c.op = 0x18 && !admFull (admOf s c.vs) && !(admOf s c.vs).disabling) = some c ∧ admBusy (admDrop s c) c = false ∧ instStatus s c = 0 ∧ instOf s c.target = some x ∧ bit c.arg 31 = false :=
  ⟨{ vs := 0, op := 24, id := 1, target := 0, arg := 5, data := fitBytes 48 ([]), head := 1 }, { vs := 0, vf := 0, fences := [(5, 3)] }, { now := 0, ft := 0, module := { state := .service }, cfg := [(key 0x4100 1, 5), (key 0x4100 2, 9), (key 0x3301 1, 1)], eng := { adm := vset (Vector.replicate 32 {}) 0 { enabled := true, size := 0x404 }, cmds := [{ vs := 0, op := 24, id := 1, target := 0, arg := 5, data := fitBytes 48 ([]), head := 1 }], insts := [(0, { vs := 0, vf := 0, fences := [(5, 3)] })] }, win := {  }, shu := { conns := [(3, { peerMid := 7, ownerKind := 0, ownerId := 0, st := .active })] }, warp := { part := vset (Vector.replicate 32 {}) 0 { st := 2 } } }, by decide +kernel⟩

theorem meets_queueCreate : ∃ (c : AdmCmd) (x : InstState) (s : State), (admHeads s).find? (fun c => c.op = 0x20 && !admFull (admOf s c.vs) && !(admOf s c.vs).disabling) = some c ∧ admBusy (admDrop s c) c = false ∧ instStatus s c = 0 ∧ instOf s c.target = some x ∧ 6 ≤ leAt c.data 16 1 ∧ leAt c.data 16 1 ≤ leAt c.data 17 1 ∧ leAt c.data 17 1 ≤ 16 ∧ leAt c.data 18 1 < 16 ∧ leAt c.data 19 1 < 16 ∧ Tbl.find? x.queues (leAt c.data 18 1) = none ∧ x.flr = none ∧ shareAllows s c.target 1 = true :=
  ⟨{ vs := 0, op := 32, id := 1, target := 0, arg := 0, data := fitBytes 48 (leBytes 8 4096 ++ leBytes 8 8192 ++ [6#8, 6#8, 2#8, 1#8]), head := 1 }, { vs := 0, vf := 0 }, { now := 0, ft := 0, module := { state := .service }, cfg := [(key 0x4100 1, 5), (key 0x3301 1, 1), (key 0x4401 1, 4), (key 0x4402 1, 4), (key 0x4404 1, 4), (key 0x4405 1, 4), (key 0x4408 1, 8)], eng := { adm := vset (Vector.replicate 32 {}) 0 { enabled := true, size := 0x404 }, cmds := [{ vs := 0, op := 32, id := 1, target := 0, arg := 0, data := fitBytes 48 (leBytes 8 4096 ++ leBytes 8 8192 ++ [6#8, 6#8, 2#8, 1#8]), head := 1 }], insts := [(0, { vs := 0, vf := 0 })] }, win := {  }, shu := {  }, warp := { part := vset (Vector.replicate 32 {}) 0 { st := 2 } } }, by decide +kernel⟩

theorem meets_queueDelete : ∃ (c : AdmCmd) (x : InstState) (k : Queue) (s : State), (admHeads s).find? (fun c => c.op = 0x21 && !admFull (admOf s c.vs) && !(admOf s c.vs).disabling) = some c ∧ admBusy (admDrop s c) c = false ∧ instStatus s c = 0 ∧ instOf s c.target = some x ∧ Tbl.find? x.queues (c.arg % 16) = some k :=
  ⟨{ vs := 0, op := 33, id := 1, target := 0, arg := 2, data := fitBytes 48 ([]), head := 1 }, { vs := 0, vf := 0, queues := [(2, { sqBase := 0, cqBase := 0, sqLog := 6, cqLog := 6, vector := 1, tail := 1 })] }, { sqBase := 0, cqBase := 0, sqLog := 6, cqLog := 6, vector := 1, tail := 1 }, { now := 0, ft := 0, module := { state := .service }, cfg := [(key 0x4100 1, 5), (key 0x4100 2, 9), (key 0x3301 1, 1)], eng := { adm := vset (Vector.replicate 32 {}) 0 { enabled := true, size := 0x404 }, cmds := [{ vs := 0, op := 33, id := 1, target := 0, arg := 2, data := fitBytes 48 ([]), head := 1 }], insts := [(0, { vs := 0, vf := 0, queues := [(2, { sqBase := 0, cqBase := 0, sqLog := 6, cqLog := 6, vector := 1, tail := 1 })] })] }, win := {  }, shu := {  }, warp := { part := vset (Vector.replicate 32 {}) 0 { st := 2 } } }, by decide +kernel⟩

theorem meets_shareSet : ∃ (c : AdmCmd) (x : InstState) (s : State), (admHeads s).find? (fun c => c.op = 0x22 && !admFull (admOf s c.vs) && !(admOf s c.vs).disabling) = some c ∧ admBusy (admDrop s c) c = false ∧ instStatus s c = 0 ∧ instOf s c.target = some x ∧ (shareCounts c).any (fun r => r.1 = 1 && 16 < r.2) = false ∧ (shareCounts c).any (shareOver s c.vs) = false :=
  ⟨{ vs := 0, op := 34, id := 1, target := 0, arg := 0, data := leBytes 4 2 ++ List.replicate 44 255#8, head := 1 }, { vs := 0, vf := 0 }, { now := 0, ft := 0, module := { state := .service }, cfg := [(key 0x4100 1, 5), (key 0x3301 1, 1), (key 0x4401 1, 4), (key 0x4402 1, 4), (key 0x4404 1, 4), (key 0x4405 1, 4), (key 0x4408 1, 8)], eng := { adm := vset (Vector.replicate 32 {}) 0 { enabled := true, size := 0x404 }, cmds := [{ vs := 0, op := 34, id := 1, target := 0, arg := 0, data := leBytes 4 2 ++ List.replicate 44 255#8, head := 1 }], insts := [(0, { vs := 0, vf := 0 })] }, win := {  }, shu := {  }, warp := { part := vset (Vector.replicate 32 {}) 0 { st := 2 } } }, by decide +kernel⟩

theorem meets_tuMap : ∃ (c : AdmCmd) (x : InstState) (s : State), (admHeads s).find? (fun c => c.op = 0x28 && !admFull (admOf s c.vs) && !(admOf s c.vs).disabling) = some c ∧ admBusy (admDrop s c) c = false ∧ instStatus s c = 0 ∧ instOf s c.target = some x ∧ pageSize (leAt c.data 16 1) = true ∧ leAt c.data 0 8 % 2 ^ leAt c.data 16 1 = 0 ∧ leAt c.data 8 8 % 2 ^ leAt c.data 16 1 = 0 ∧ x.maps.any (fun k => k.iova = leAt c.data 0 8 && k.size = leAt c.data 16 1) = false ∧ shareAllows s c.target 6 = true :=
  ⟨{ vs := 0, op := 40, id := 1, target := 0, arg := 0, data := fitBytes 48 (leBytes 8 4096 ++ leBytes 8 8192 ++ [12#8, 3#8]), head := 1 }, { vs := 0, vf := 0 }, { now := 0, ft := 0, module := { state := .service }, cfg := [(key 0x4100 1, 5), (key 0x3301 1, 1), (key 0x4401 1, 4), (key 0x4402 1, 4), (key 0x4404 1, 4), (key 0x4405 1, 4), (key 0x4408 1, 8)], eng := { adm := vset (Vector.replicate 32 {}) 0 { enabled := true, size := 0x404 }, cmds := [{ vs := 0, op := 40, id := 1, target := 0, arg := 0, data := fitBytes 48 (leBytes 8 4096 ++ leBytes 8 8192 ++ [12#8, 3#8]), head := 1 }], insts := [(0, { vs := 0, vf := 0 })] }, win := {  }, shu := {  }, warp := { part := vset (Vector.replicate 32 {}) 0 { st := 2 } } }, by decide +kernel⟩

theorem meets_tuUnmap : ∃ (c : AdmCmd) (x : InstState) (s : State), (admHeads s).find? (fun c => c.op = 0x29 && !admFull (admOf s c.vs) && !(admOf s c.vs).disabling) = some c ∧ admBusy (admDrop s c) c = false ∧ instStatus s c = 0 ∧ instOf s c.target = some x ∧ pageSize (leAt c.data 8 1) = true ∧ x.maps.any (fun k => k.iova = leAt c.data 0 8 && k.size = leAt c.data 8 1) = true :=
  ⟨{ vs := 0, op := 41, id := 1, target := 0, arg := 0, data := fitBytes 48 (leBytes 8 4096 ++ [12#8]), head := 1 }, { vs := 0, vf := 0, maps := [{ iova := 4096, host := 8192, size := 12, read := true, write := true }] }, { now := 0, ft := 0, module := { state := .service }, cfg := [(key 0x4100 1, 5), (key 0x4100 2, 9), (key 0x3301 1, 1)], eng := { adm := vset (Vector.replicate 32 {}) 0 { enabled := true, size := 0x404 }, cmds := [{ vs := 0, op := 41, id := 1, target := 0, arg := 0, data := fitBytes 48 (leBytes 8 4096 ++ [12#8]), head := 1 }], insts := [(0, { vs := 0, vf := 0, maps := [{ iova := 4096, host := 8192, size := 12, read := true, write := true }] })] }, win := {  }, shu := {  }, warp := { part := vset (Vector.replicate 32 {}) 0 { st := 2 } } }, by decide +kernel⟩

theorem meets_tuMode : ∃ (c : AdmCmd) (x : InstState) (s : State), (admHeads s).find? (fun c => c.op = 0x2A && !admFull (admOf s c.vs) && !(admOf s c.vs).disabling) = some c ∧ admBusy (admDrop s c) c = false ∧ instStatus s c = 0 ∧ instOf s c.target = some x ∧ x.queues = [] :=
  ⟨{ vs := 0, op := 42, id := 1, target := 0, arg := 1, data := fitBytes 48 ([]), head := 1 }, { vs := 0, vf := 0 }, { now := 0, ft := 0, module := { state := .service }, cfg := [(key 0x4100 1, 5), (key 0x4100 2, 9), (key 0x3301 1, 1)], eng := { adm := vset (Vector.replicate 32 {}) 0 { enabled := true, size := 0x404 }, cmds := [{ vs := 0, op := 42, id := 1, target := 0, arg := 1, data := fitBytes 48 ([]), head := 1 }], insts := [(0, { vs := 0, vf := 0 })] }, win := {  }, shu := {  }, warp := { part := vset (Vector.replicate 32 {}) 0 { st := 2 } } }, by decide +kernel⟩

theorem meets_admqCtrl : ∃ (v : Vs) (value : Nat) (s : State), bit value 0 = true ∧ (admOf s v.val).enabled = false ∧ (admOf s v.val).base % 64 = 0 ∧ (admOf s v.val).cqBase % 16 = 0 ∧ 4 ≤ bits (admOf s v.val).size 0 4 ∧ bits (admOf s v.val).size 0 4 ≤ 12 ∧ 4 ≤ bits (admOf s v.val).size 8 4 ∧ bits (admOf s v.val).size 8 4 ≤ 12 :=
  ⟨1, 1, { eng := { adm := vset (Vector.replicate 32 {}) 1 { size := 0x404 } } }, by decide +kernel⟩

theorem meets_admqOff : ∃ (v : Vs) (value : Nat) (s : State), bit value 0 = false ∧ (admOf s v.val).enabled = true ∧ s.eng.waits.any (fun w => w.cmd.vs = v.val) = false :=
  ⟨0, 0, { now := 0, ft := 0, module := { state := .service }, cfg := [(key 0x4100 1, 5), (key 0x4100 2, 9), (key 0x3301 1, 1)], eng := { adm := vset (Vector.replicate 32 {}) 0 { enabled := true, size := 0x404 }, cmds := [{ vs := 0, op := 1, id := 1, target := 0, arg := 0, data := fitBytes 48 ([]), head := 1 }] }, win := {  }, shu := {  }, warp := { part := vset (Vector.replicate 32 {}) 0 { st := 2 } } }, by decide +kernel⟩

theorem meets_admqTailDoorbell : ∃ (v : Vs) (s : State), (admOf s v.val).enabled = true ∧ (admOf s v.val).disabling = false ∧ (admOf s v.val).stopped = false :=
  ⟨0, { now := 0, ft := 0, module := { state := .service }, cfg := [(key 0x4100 1, 5), (key 0x4100 2, 9), (key 0x3301 1, 1)], eng := { adm := vset (Vector.replicate 32 {}) 0 { enabled := true, size := 0x404 } }, win := {  }, shu := {  }, warp := { part := vset (Vector.replicate 32 {}) 0 { st := 2 } } }, by decide +kernel⟩

theorem meets_admqFetch : ∃ (v : Vs) (tail : Nat) (s : State), (admOf s v.val).enabled = true ∧ (admOf s v.val).disabling = false ∧ (admOf s v.val).stopped = false ∧ tail % admEntries (admOf s v.val) = ((admOf s v.val).head + 1) % admEntries (admOf s v.val) ∧ (admOf s v.val).head < admEntries (admOf s v.val) ∧ 1 < admEntries (admOf s v.val) ∧ hostDenial s v.val 0 ((admOf s v.val).base + 64 * (admOf s v.val).head) 64 = none ∧ admOpcodes.contains (leAt (hostRead s v.val ((admOf s v.val).base + 64 * (admOf s v.val).head) 64) 0 1) = true :=
  ⟨0, 1, { now := 0, ft := 0, module := { state := .service }, cfg := [(key 0x4100 1, 5), (key 0x4100 2, 9), (key 0x3301 1, 1)], eng := { adm := vset (Vector.replicate 32 {}) 0 { enabled := true, size := 0x404 } }, win := {  }, shu := {  }, warp := { part := vset (Vector.replicate 32 {}) 0 { st := 2 } }, host := vset (Vector.replicate 32 []) 0 [(0, 4#8)] }, by decide +kernel⟩

theorem meets_vfEnable : ∃ (v : Vs) (n : Nat) (s : State), (admOf s v.val).vfs = 0 ∧ n ≠ 0 ∧ coreRuns s = true ∧ n ≤ cfgv s 0x4401 (v + 1) ∧ busConflict s v = false :=
  ⟨0, 3, { now := 7, ft := 0, module := { state := .service }, cfg := [(key 0x4100 1, 5), (key 0x3301 1, 1), (key 0x4401 1, 4), (key 0x4402 1, 4), (key 0x4404 1, 4), (key 0x4405 1, 4), (key 0x4408 1, 8)], eng := { adm := vset (Vector.replicate 32 {}) 0 { enabled := true, size := 0x404 } }, win := {  }, shu := {  }, warp := { part := vset (Vector.replicate 32 {}) 0 { st := 2 } } }, by decide +kernel⟩

theorem meets_vfDisable : ∃ (v : Vs) (s : State), (admOf s v.val).vfs ≠ 0 :=
  ⟨0, { eng := { adm := vset (Vector.replicate 32 {}) 0 { vfs := 1 }, insts := [(0, { vs := 0, vf := 0 })] } }, by decide +kernel⟩

theorem meets_vfFlr : ∃ (i : Inst) (x : InstState) (s : State), instOf s i.val = some x :=
  ⟨0, { vs := 0, vf := 0, maps := [{ iova := 4096, host := 8192, size := 12, read := true, write := true }] }, { now := 0, ft := 0, module := { state := .service }, cfg := [(key 0x4100 1, 5), (key 0x4100 2, 9), (key 0x3301 1, 1)], eng := { adm := vset (Vector.replicate 32 {}) 0 { enabled := true, size := 0x404 }, insts := [(0, { vs := 0, vf := 0, maps := [{ iova := 4096, host := 8192, size := 12, read := true, write := true }] })] }, win := {  }, shu := {  }, warp := { part := vset (Vector.replicate 32 {}) 0 { st := 2 } } }, by decide +kernel⟩

theorem meets_vfFlrComplete : ∃ (i : Inst) (x : InstState) (t0 : Nat) (s : State), instOf s i.val = some x ∧ x.flr = some t0 ∧ s.eng.reads.any (fun r => r.ticket.inst = i.val) = false :=
  ⟨0, { vs := 0, vf := 0, flr := some 0 }, 0, { now := 0, ft := 0, module := { state := .service }, cfg := [(key 0x4100 1, 5), (key 0x4100 2, 9), (key 0x3301 1, 1)], eng := { adm := vset (Vector.replicate 32 {}) 0 { enabled := true, size := 0x404 }, insts := [(0, { vs := 0, vf := 0, flr := some 0 })] }, win := {  }, shu := {  }, warp := { part := vset (Vector.replicate 32 {}) 0 { st := 2 } } }, by decide +kernel⟩

theorem meets_vfMsgRing : ∃ (i : Inst) (value : Nat) (x : InstState) (s : State), instOf s i.val = some x ∧ value % 2 = 1 ∧ x.msgState ≠ 1 :=
  ⟨0, 1, { vs := 0, vf := 0 }, { now := 0, ft := 0, module := { state := .service }, cfg := [(key 0x4100 1, 5), (key 0x4100 2, 9), (key 0x3301 1, 1)], eng := { adm := vset (Vector.replicate 32 {}) 0 { enabled := true, size := 0x404 }, insts := [(0, { vs := 0, vf := 0 })] }, win := {  }, shu := {  }, warp := { part := vset (Vector.replicate 32 {}) 0 { st := 2 } } }, by decide +kernel⟩

theorem meets_vfReplyWrite : ∃ (v : Vs) (vf : Fin 256) (reply : List Byte) (i : Nat) (x : InstState) (s : State), instOfVf s v vf = some i ∧ instOf s i = some x ∧ ((fitBytes 64 reply).getLast?).getD 0 ≠ 0 :=
  ⟨0, 0, List.replicate 64 1#8, 0, { vs := 0, vf := 0, msgState := 1 }, { now := 0, ft := 0, module := { state := .service }, cfg := [(key 0x4100 1, 5), (key 0x4100 2, 9), (key 0x3301 1, 1)], eng := { adm := vset (Vector.replicate 32 {}) 0 { enabled := true, size := 0x404 }, insts := [(0, { vs := 0, vf := 0, msgState := 1 })] }, win := {  }, shu := {  }, warp := { part := vset (Vector.replicate 32 {}) 0 { st := 2 } } }, by decide +kernel⟩

theorem meets_descWrite : ∃ (i : Inst) (q : Fin 16) (x : InstState) (k : Queue) (h : Nat) (w : Nat) (a : Nat) (s : State), queueOfInst s i q = some (x, k) ∧ k.stopped = false ∧ k.deleting = false ∧ x.flr = none ∧ k.head ≠ k.tail ∧ k.work.length < 64 ∧ vsState s x.vs = 2 ∧ translate x (k.sqBase + 64 * k.head) false = some h ∧ hostDenial s x.vs 0 h 64 = none ∧ leNat (hostRead s x.vs h 64) = w ∧ (descHead w).opcode = 1 ∧ (descHead w).malformed = false ∧ importRefusal s i (descHead w) = 0 ∧ bits w 448 64 % 4096 + (descHead w).len ≤ 4096 ∧ translate x (bits w 448 64) false = some a :=
  ⟨0, 2, { vs := 0, vf := 0, queues := [(2, { sqBase := 0, cqBase := 4096, sqLog := 6, cqLog := 6, vector := 1, tail := 1 })] }, { sqBase := 0, cqBase := 4096, sqLog := 6, cqLog := 6, vector := 1, tail := 1 }, 0, leNat (leBytes 64 (at_ 176 1 + at_ 258 64 + at_ 448 8192 + at_ 288 7)), 8192, { now := 0, ft := 0, module := { state := .service }, cfg := [(key 0x4100 1, 5), (key 0x4100 2, 9), (key 0x3301 1, 1)], eng := { adm := vset (Vector.replicate 32 {}) 0 { enabled := true, size := 0x404 }, insts := [(0, { vs := 0, vf := 0, queues := [(2, { sqBase := 0, cqBase := 4096, sqLog := 6, cqLog := 6, vector := 1, tail := 1 })] })] }, win := { imports := [(0, { permR := true, permW := true, permA := true, func := 0, cid := 3, window := 9, gen := 4 })] }, shu := { conns := [(3, { st := .active, peerMid := 7, ownerKind := 0, ownerId := 0 })] }, warp := { part := vset (Vector.replicate 32 {}) 0 { st := 2 } }, host := vset (Vector.replicate 32 []) 0 (Memory.writeBytes [] 0 (leBytes 64 (at_ 176 1 + at_ 258 64 + at_ 448 8192 + at_ 288 7))) }, by decide +kernel⟩

theorem meets_descRead : ∃ (i : Inst) (q : Fin 16) (x : InstState) (k : Queue) (h : Nat) (w : Nat) (m : Import) (s : State), queueOfInst s i q = some (x, k) ∧ k.stopped = false ∧ k.deleting = false ∧ x.flr = none ∧ k.head ≠ k.tail ∧ k.work.length < 64 ∧ vsState s x.vs = 2 ∧ translate x (k.sqBase + 64 * k.head) false = some h ∧ hostDenial s x.vs 0 h 64 = none ∧ leNat (hostRead s x.vs h 64) = w ∧ (descHead w).opcode = 2 ∧ k.work = [] ∧ (descHead w).malformed = false ∧ importRefusal s i (descHead w) = 0 ∧ Tbl.find? s.win.imports (descHead w).imp = some m ∧ bit w 184 = false ∧ bit w 185 = false ∧ (descHead w).len ≤ 4080 :=
  ⟨0, 2, { vs := 0, vf := 0, queues := [(2, { sqBase := 0, cqBase := 4096, sqLog := 6, cqLog := 6, vector := 1, tail := 1 })] }, { sqBase := 0, cqBase := 4096, sqLog := 6, cqLog := 6, vector := 1, tail := 1 }, 0, leNat (leBytes 64 (at_ 176 2 + at_ 258 64 + at_ 448 8192 + at_ 217 128)), { permR := true, permW := true, permA := true, func := 0, cid := 3, window := 9, gen := 4 }, { now := 0, ft := 0, module := { state := .service }, cfg := [(key 0x4100 1, 5), (key 0x4100 2, 9), (key 0x3301 1, 1)], eng := { adm := vset (Vector.replicate 32 {}) 0 { enabled := true, size := 0x404 }, insts := [(0, { vs := 0, vf := 0, queues := [(2, { sqBase := 0, cqBase := 4096, sqLog := 6, cqLog := 6, vector := 1, tail := 1 })] })] }, win := { imports := [(0, { permR := true, permW := true, permA := true, func := 0, cid := 3, window := 9, gen := 4 })] }, shu := { conns := [(3, { st := .active, peerMid := 7, ownerKind := 0, ownerId := 0 })] }, warp := { part := vset (Vector.replicate 32 {}) 0 { st := 2 } }, host := vset (Vector.replicate 32 []) 0 (Memory.writeBytes [] 0 (leBytes 64 (at_ 176 2 + at_ 258 64 + at_ 448 8192 + at_ 217 128))) }, by decide +kernel⟩

theorem meets_descAtomic : ∃ (i : Inst) (q : Fin 16) (x : InstState) (k : Queue) (h : Nat) (w : Nat) (m : Import) (s : State), queueOfInst s i q = some (x, k) ∧ k.stopped = false ∧ k.deleting = false ∧ x.flr = none ∧ k.head ≠ k.tail ∧ k.work.length < 64 ∧ vsState s x.vs = 2 ∧ translate x (k.sqBase + 64 * k.head) false = some h ∧ hostDenial s x.vs 0 h 64 = none ∧ leNat (hostRead s x.vs h 64) = w ∧ (descHead w).opcode = 3 ∧ k.work = [] ∧ (descHead w).malformed = false ∧ importRefusal s i (descHead w) = 0 ∧ Tbl.find? s.win.imports (descHead w).imp = some m ∧ bit w 184 = false ∧ bit w 185 = false :=
  ⟨0, 2, { vs := 0, vf := 0, queues := [(2, { sqBase := 0, cqBase := 4096, sqLog := 6, cqLog := 6, vector := 1, tail := 1 })] }, { sqBase := 0, cqBase := 4096, sqLog := 6, cqLog := 6, vector := 1, tail := 1 }, 0, leNat (leBytes 64 (at_ 176 3 + at_ 258 8 + at_ 217 128 + at_ 384 5)), { permR := true, permW := true, permA := true, func := 0, cid := 3, window := 9, gen := 4 }, { now := 0, ft := 0, module := { state := .service }, cfg := [(key 0x4100 1, 5), (key 0x4100 2, 9), (key 0x3301 1, 1)], eng := { adm := vset (Vector.replicate 32 {}) 0 { enabled := true, size := 0x404 }, insts := [(0, { vs := 0, vf := 0, queues := [(2, { sqBase := 0, cqBase := 4096, sqLog := 6, cqLog := 6, vector := 1, tail := 1 })] })] }, win := { imports := [(0, { permR := true, permW := true, permA := true, func := 0, cid := 3, window := 9, gen := 4 })] }, shu := { conns := [(3, { st := .active, peerMid := 7, ownerKind := 0, ownerId := 0 })] }, warp := { part := vset (Vector.replicate 32 {}) 0 { st := 2 } }, host := vset (Vector.replicate 32 []) 0 (Memory.writeBytes [] 0 (leBytes 64 (at_ 176 3 + at_ 258 8 + at_ 217 128 + at_ 384 5))) }, by decide +kernel⟩

theorem meets_descFence : ∃ (i : Inst) (q : Fin 16) (x : InstState) (k : Queue) (h : Nat) (w : Nat) (m : Import) (s : State), queueOfInst s i q = some (x, k) ∧ k.stopped = false ∧ k.deleting = false ∧ x.flr = none ∧ k.head ≠ k.tail ∧ k.work.length < 64 ∧ vsState s x.vs = 2 ∧ translate x (k.sqBase + 64 * k.head) false = some h ∧ hostDenial s x.vs 0 h 64 = none ∧ leNat (hostRead s x.vs h 64) = w ∧ (descHead w).opcode = 4 ∧ k.work = [] ∧ (descHead w).malformed = false ∧ importRefusal s i (descHead w) = 0 ∧ Tbl.find? s.win.imports (descHead w).imp = some m ∧ bit w 184 = false ∧ bit w 185 = false :=
  ⟨0, 2, { vs := 0, vf := 0, queues := [(2, { sqBase := 0, cqBase := 4096, sqLog := 6, cqLog := 6, vector := 1, tail := 1 })] }, { sqBase := 0, cqBase := 4096, sqLog := 6, cqLog := 6, vector := 1, tail := 1 }, 0, leNat (leBytes 64 (at_ 176 4)), { permR := true, permW := true, permA := true, func := 0, cid := 3, window := 9, gen := 4 }, { now := 0, ft := 0, module := { state := .service }, cfg := [(key 0x4100 1, 5), (key 0x4100 2, 9), (key 0x3301 1, 1)], eng := { adm := vset (Vector.replicate 32 {}) 0 { enabled := true, size := 0x404 }, insts := [(0, { vs := 0, vf := 0, queues := [(2, { sqBase := 0, cqBase := 4096, sqLog := 6, cqLog := 6, vector := 1, tail := 1 })] })] }, win := { imports := [(0, { permR := true, permW := true, permA := true, func := 0, cid := 3, window := 9, gen := 4 })] }, shu := { conns := [(3, { st := .active, peerMid := 7, ownerKind := 0, ownerId := 0 })] }, warp := { part := vset (Vector.replicate 32 {}) 0 { st := 2 } }, host := vset (Vector.replicate 32 []) 0 (Memory.writeBytes [] 0 (leBytes 64 (at_ 176 4))) }, by decide +kernel⟩

theorem meets_descNop : ∃ (i : Inst) (q : Fin 16) (x : InstState) (k : Queue) (h : Nat) (w : Nat) (s : State), queueOfInst s i q = some (x, k) ∧ k.stopped = false ∧ k.deleting = false ∧ x.flr = none ∧ k.head ≠ k.tail ∧ k.work.length < 64 ∧ vsState s x.vs = 2 ∧ translate x (k.sqBase + 64 * k.head) false = some h ∧ hostDenial s x.vs 0 h 64 = none ∧ leNat (hostRead s x.vs h 64) = w ∧ ((descHead w).opcode = 0 ∨ 5 < (descHead w).opcode) :=
  ⟨0, 2, { vs := 0, vf := 0, queues := [(2, { sqBase := 0, cqBase := 4096, sqLog := 6, cqLog := 6, vector := 1, tail := 1 })] }, { sqBase := 0, cqBase := 4096, sqLog := 6, cqLog := 6, vector := 1, tail := 1 }, 0, leNat (leBytes 64 (at_ 176 9)), { now := 0, ft := 0, module := { state := .service }, cfg := [(key 0x4100 1, 5), (key 0x4100 2, 9), (key 0x3301 1, 1)], eng := { adm := vset (Vector.replicate 32 {}) 0 { enabled := true, size := 0x404 }, insts := [(0, { vs := 0, vf := 0, queues := [(2, { sqBase := 0, cqBase := 4096, sqLog := 6, cqLog := 6, vector := 1, tail := 1 })] })] }, win := { imports := [(0, { permR := true, permW := true, permA := true, func := 0, cid := 3, window := 9, gen := 4 })] }, shu := { conns := [(3, { st := .active, peerMid := 7, ownerKind := 0, ownerId := 0 })] }, warp := { part := vset (Vector.replicate 32 {}) 0 { st := 2 } }, host := vset (Vector.replicate 32 []) 0 (Memory.writeBytes [] 0 (leBytes 64 (at_ 176 9))) }, by decide +kernel⟩

theorem meets_descNopPlain : ∃ (i : Inst) (q : Fin 16) (x : InstState) (k : Queue) (h : Nat) (w : Nat) (s : State), queueOfInst s i q = some (x, k) ∧ k.stopped = false ∧ k.deleting = false ∧ x.flr = none ∧ k.head ≠ k.tail ∧ k.work.length < 64 ∧ vsState s x.vs = 2 ∧ translate x (k.sqBase + 64 * k.head) false = some h ∧ hostDenial s x.vs 0 h 64 = none ∧ leNat (hostRead s x.vs h 64) = w ∧ k.work = [] ∧ (descHead w).opcode = 5 ∧ (descHead w).malformed = false ∧ bit w 184 = false ∧ bit w 185 = false :=
  ⟨0, 2, { vs := 0, vf := 0, queues := [(2, { sqBase := 0, cqBase := 4096, sqLog := 6, cqLog := 6, vector := 1, tail := 1 })] }, { sqBase := 0, cqBase := 4096, sqLog := 6, cqLog := 6, vector := 1, tail := 1 }, 0, leNat (leBytes 64 (at_ 176 5)), { now := 0, ft := 0, module := { state := .service }, cfg := [(key 0x4100 1, 5), (key 0x4100 2, 9), (key 0x3301 1, 1)], eng := { adm := vset (Vector.replicate 32 {}) 0 { enabled := true, size := 0x404 }, insts := [(0, { vs := 0, vf := 0, queues := [(2, { sqBase := 0, cqBase := 4096, sqLog := 6, cqLog := 6, vector := 1, tail := 1 })] })] }, win := { imports := [(0, { permR := true, permW := true, permA := true, func := 0, cid := 3, window := 9, gen := 4 })] }, shu := { conns := [(3, { st := .active, peerMid := 7, ownerKind := 0, ownerId := 0 })] }, warp := { part := vset (Vector.replicate 32 {}) 0 { st := 2 } }, host := vset (Vector.replicate 32 []) 0 (Memory.writeBytes [] 0 (leBytes 64 (at_ 176 5))) }, by decide +kernel⟩

theorem meets_descriptorComplete : ∃ (i : Inst) (q : Fin 16) (x : InstState) (k : Queue) (d : DescState) (ds : List DescState) (h : Nat) (s : State), queueOfInst s i q = some (x, k) ∧ cqFull k = false ∧ k.work = d :: ds ∧ descEnded d = true ∧ k.deleting = false ∧ translate x (k.cqBase + 16 * k.cqTail) true = some h :=
  ⟨0, 2, { vs := 0, vf := 0, queues := [(2, { sqBase := 0, cqBase := 4096, sqLog := 6, cqLog := 6, vector := 1, work := [{ n := 0, opcode := 1, tag := 7, addr := 0, len := 64, imp := 0, intr := true, fenceAfter := false, head := 1, presented := true, bytesDone := 64 }] })] }, { sqBase := 0, cqBase := 4096, sqLog := 6, cqLog := 6, vector := 1, work := [{ n := 0, opcode := 1, tag := 7, addr := 0, len := 64, imp := 0, intr := true, fenceAfter := false, head := 1, presented := true, bytesDone := 64 }] }, { n := 0, opcode := 1, tag := 7, addr := 0, len := 64, imp := 0, intr := true, fenceAfter := false, head := 1, presented := true, bytesDone := 64 }, [], 4096, { now := 0, ft := 0, module := { state := .service }, cfg := [(key 0x4100 1, 5), (key 0x4100 2, 9), (key 0x3301 1, 1)], eng := { adm := vset (Vector.replicate 32 {}) 0 { enabled := true, size := 0x404 }, insts := [(0, { vs := 0, vf := 0, queues := [(2, { sqBase := 0, cqBase := 4096, sqLog := 6, cqLog := 6, vector := 1, work := [{ n := 0, opcode := 1, tag := 7, addr := 0, len := 64, imp := 0, intr := true, fenceAfter := false, head := 1, presented := true, bytesDone := 64 }] })] })] }, win := {  }, shu := {  }, warp := { part := vset (Vector.replicate 32 {}) 0 { st := 2 } } }, by decide +kernel⟩

theorem meets_sqTailDoorbell : ∃ (i : Inst) (q : Fin 16) (x : InstState) (k : Queue) (s : State), queueOfInst s i q = some (x, k) ∧ k.stopped = false ∧ k.deleting = false ∧ x.flr = none :=
  ⟨0, 2, { vs := 0, vf := 0, queues := [(2, { sqBase := 0, cqBase := 4096, sqLog := 6, cqLog := 6, vector := 1 })] }, { sqBase := 0, cqBase := 4096, sqLog := 6, cqLog := 6, vector := 1 }, { now := 0, ft := 0, module := { state := .service }, cfg := [(key 0x4100 1, 5), (key 0x4100 2, 9), (key 0x3301 1, 1)], eng := { adm := vset (Vector.replicate 32 {}) 0 { enabled := true, size := 0x404 }, insts := [(0, { vs := 0, vf := 0, queues := [(2, { sqBase := 0, cqBase := 4096, sqLog := 6, cqLog := 6, vector := 1 })] })] }, win := {  }, shu := {  }, warp := { part := vset (Vector.replicate 32 {}) 0 { st := 2 } } }, by decide +kernel⟩

theorem meets_descFetchFail : ∃ (i : Inst) (q : Fin 16) (x : InstState) (k : Queue) (s : State), queueOfInst s i q = some (x, k) ∧ k.stopped = false ∧ k.deleting = false ∧ x.flr = none ∧ k.head ≠ k.tail :=
  ⟨0, 2, { vs := 0, vf := 0, queues := [(2, { sqBase := 0, cqBase := 4096, sqLog := 6, cqLog := 6, vector := 1, tail := 1 })] }, { sqBase := 0, cqBase := 4096, sqLog := 6, cqLog := 6, vector := 1, tail := 1 }, { now := 0, ft := 0, module := { state := .service }, cfg := [(key 0x4100 1, 5), (key 0x4100 2, 9), (key 0x3301 1, 1)], eng := { adm := vset (Vector.replicate 32 {}) 0 { enabled := true, size := 0x404 }, insts := [(0, { vs := 0, vf := 0, queues := [(2, { sqBase := 0, cqBase := 4096, sqLog := 6, cqLog := 6, vector := 1, tail := 1 })] })] }, win := {  }, shu := {  }, warp := { part := vset (Vector.replicate 32 {}) 0 { st := 2 } } }, by decide +kernel⟩

theorem meets_hedCommit : ∃ (sess : Nat) (s : State), MayAct s sess 0x5000 2 1 ∧ s.hed.draining = false ∧ pendingOffence s = none :=
  ⟨1, asInstaller { now := 0, ft := 0, module := { state := .service }, cfg := [(key 0x5002 1, 0), (key 0x5010 1, 5)], hed := { epoch := 65535 }, warp := { part := vset (Vector.replicate 32 {}) 0 { st := 2 } } }, by decide +kernel⟩

theorem meets_hedCommitRefused : ∃ (sess : Nat) (s : State), MayAct s sess 0x5000 2 1 ∧ (s.hed.draining = true ∨ pendingOffence s ≠ none) :=
  ⟨1, asInstaller { now := 0, ft := 0, module := { state := .service }, cfg := [(regionKey 3 5, 1)], hed := { epoch := 4 }, warp := { part := vset (Vector.replicate 32 {}) 0 { st := 2 } } }, by decide +kernel⟩

theorem meets_hedCommitComplete : ∃ (s : State), s.hed.draining = true ∧ previousEpoch s = 0 :=
  ⟨{ now := 0, ft := 0, module := { state := .service }, cfg := [(key 0x3301 1, 1)], hed := { epoch := 4, status := 1, draining := true }, warp := { part := vset (Vector.replicate 32 {}) 0 { st := 2 } } }, by decide +kernel⟩

theorem meets_debugAccess : ∃ (write : Bool) (addr : Nat) (len : Nat) (a : Nat) (r : Nat) (sub : Nat) (s : State), coreRuns s = true ∧ heddleCheck s 128 { cls := 50, kind := b2n write, addr := addr, len := len } = .deny a r sub :=
  ⟨false, 0, 4, 0, 127, 0, { now := 0, ft := 0, module := { state := .service }, cfg := [(key 0x3301 1, 1)], hed := {  }, warp := { part := vset (Vector.replicate 32 {}) 0 { st := 2 } } }, by decide +kernel⟩

theorem meets_debugTrim : ∃ (addr : Nat) (len : Nat) (w : Nat) (s : State), coreRuns s = true ∧ heddleCheck s 128 { cls := 50, kind := 0, addr := addr, len := len } = .region w ∧ 0xF001000000 ≤ addr ∧ addr + len ≤ 0xF001000000 + trimBytes :=
  ⟨0xF001000000, 4, lockedWord ({ now := 0, ft := 0, module := { state := .service }, cfg := [(key 0x7F10 0, 0x12345678)], hed := {  }, warp := { part := vset (Vector.replicate 32 {}) 0 { st := 2 } }, vault := { debugOpen := true } }) 57, { now := 0, ft := 0, module := { state := .service }, cfg := [(key 0x7F10 0, 0x12345678)], hed := {  }, warp := { part := vset (Vector.replicate 32 {}) 0 { st := 2 } }, vault := { debugOpen := true } }, by decide +kernel⟩

theorem meets_selIsolateCmd : ∃ (sess : Nat) (v : Vs) (s : State), MayAct s sess 0x5106 (v + 1) 1 ∧ vsState s v ≠ 0 ∧ vsState s v ≠ 3 :=
  ⟨1, 0, asInstaller { now := 0, ft := 0, module := { state := .service }, cfg := [(key 0x3301 1, 1)], hed := {  }, warp := { part := vset (Vector.replicate 32 {}) 0 { st := 2 } } }, by decide +kernel⟩

theorem meets_routingStateError : ∃ (v : Vs) (s : State), vsState s v ≠ 0 ∧ (partOf s v.val).reloading = none ∧ coreRuns s = true :=
  ⟨0, { now := 9, ft := 0, module := { state := .service }, cfg := [(key 0x3301 1, 1)], hed := {  }, warp := { part := vset (Vector.replicate 32 {}) 0 { st := 2 } } }, by decide +kernel⟩

theorem meets_shadowReloadDone : ∃ (v : Vs) (t0 : Nat) (s : State), (partOf s v.val).reloading = some t0 :=
  ⟨0, 3, { now := 0, ft := 0, module := { state := .service }, cfg := [(key 0x3301 1, 1)], hed := {  }, warp := { part := vset (Vector.replicate 32 {}) 0 { st := 2, reloading := some 3 } } }, by decide +kernel⟩

theorem meets_reloadFailed : ∃ (v : Vs) (t0 : Nat) (s : State), (partOf s v.val).reloading = some t0 ∧ vsState s v ≠ 0 :=
  ⟨0, 3, { now := 0, ft := 0, module := { state := .service }, cfg := [(key 0x3301 1, 1)], hed := {  }, warp := { part := vset (Vector.replicate 32 {}) 0 { st := 2, reloading := some 3 } } }, by decide +kernel⟩

theorem meets_selErrClear : ∃ (sess : Nat) (d : Dest) (s : State), MayAct s sess 0x5102 (d + 1) 1 :=
  ⟨1, 2, asOperator { now := 0, ft := 0, module := { state := .service }, cfg := [(key 0x3301 1, 1)], hed := {  }, warp := { part := vset (Vector.replicate 32 {}) 0 { st := 2 } } }, by decide +kernel⟩

theorem meets_mirrorRecordReceive : ∃ (bs : List Byte) (rest : List (Nat × List Byte)) (ord : Nat) (s : State), s.twin.inbox = (ord, bs) :: rest ∧ ord % 2 = 0 ∧ s.twin.partial0 = [] ∧ bs.length = 16 + bits (leAt bs 0 16) 111 13 ∧ bits (leAt bs 0 16) 124 4 = 3 ∧ bits (leAt bs 0 16) 51 4 ≠ 4 ∧ s.twin.gone = false :=
  ⟨leBytes 16 (at_ 124 3 + at_ 111 56 + at_ 97 9 + at_ 51 1) ++ List.replicate 56 7#8, [], 0, { now := 0, module := { state := .service }, cfg := [(key 0x4100 1, 5), (key 0x5201 0, 1), (key 0x5203 0, 6)], twin := { inbox := [(0, leBytes 16 (at_ 124 3 + at_ 111 56 + at_ 97 9 + at_ 51 1) ++ List.replicate 56 7#8)] } }, by decide +kernel⟩

theorem meets_mirrorGone : ∃ (bs : List Byte) (rest : List (Nat × List Byte)) (ord : Nat) (s : State), s.twin.inbox = (ord, bs) :: rest ∧ ord % 2 = 0 ∧ s.twin.partial0 = [] ∧ bs.length = 16 ∧ bits (leAt bs 0 16) 111 13 = 0 ∧ bits (leAt bs 0 16) 124 4 = 4 ∧ s.twin.st = .protected_ ∧ fabricOn s = true :=
  ⟨leBytes 16 (at_ 124 4), [], 0, { now := 0, module := { state := .service }, cfg := [(key 0x4100 1, 5), (key 0x5201 0, 1), (key 0x5203 0, 6), (key 0x4100 2, 9)], twin := { st := .protected_, inbox := [(0, leBytes 16 (at_ 124 4))] } }, by decide +kernel⟩

theorem meets_twinSilence : ∃ (s : State), fabricOn s = false ∧ cfgOn s 0x5201 0 = true ∧ s.twin.st = .protected_ ∧ s.module.state = .service ∧ s.twin.silentAt = none ∧ twinHeard s = false ∧ s.module.since + 20000000 ≤ s.now ∧ cfgv s 0x4102 1 = 0 :=
  ⟨{ now := 20000000, module := { state := .service }, cfg := [(key 0x4100 1, 5), (key 0x5201 0, 1), (key 0x5203 0, 6), (key 0x5202 0, 1)], twin := { st := .protected_ } }, by decide +kernel⟩

theorem meets_twinNoSilence : ∃ (s : State), (fabricOn s = true ∨ s.twin.silentAt.isSome = true ∨ twinHeard s = true) :=
  ⟨{ now := 20000000, module := { state := .service }, cfg := [(key 0x4100 1, 5), (key 0x5201 0, 1), (key 0x5203 0, 6), (key 0x4100 2, 9)], twin := { st := .protected_ } }, by decide +kernel⟩

theorem meets_twinLostDeclare : ∃ (s : State), lostCause s ≠ 0 ∧ s.twin.st = .protected_ ∧ fabricOn s = true :=
  ⟨{ now := 0, module := { state := .service }, cfg := [(key 0x4100 1, 5), (key 0x5201 0, 1), (key 0x5203 0, 6), (key 0x4100 2, 9)], twin := { st := .protected_, gone := true } }, by decide +kernel⟩

theorem meets_twinKept : ∃ (s : State), lostCause s = 0 :=
  ⟨{ now := 0, module := { state := .service }, cfg := [(key 0x4100 1, 5), (key 0x5201 0, 1), (key 0x5203 0, 6)], twin := { st := .protected_ } }, by decide +kernel⟩

theorem meets_mirrorRateAlert : ∃ (s : State), cfgOn s 0x5201 0 = true ∧ s.twin.rateAt + 1000000 ≤ s.now :=
  ⟨{ now := 1000000, module := { state := .service }, cfg := [(key 0x4100 1, 5), (key 0x5201 0, 1), (key 0x5203 0, 6)], twin := { rateBytes := 500000000, rateAt := 0 } }, by decide +kernel⟩

theorem meets_storedConfigCommit : ∃ (s : State), s.module.state = .config ∧ s.module.warm = none ∧ storedRefusal s = none :=
  ⟨{ module := { state := .config }, flash := [(key 0x4100 1, 5), (key 0x4020 1, 0)] }, by decide +kernel⟩

theorem meets_storedRefused : ∃ (s : State), s.module.state = .config ∧ s.module.warm = none ∧ (storedRefusal s).isSome = true :=
  ⟨{ module := { state := .config }, flash := [(key 0x3003 1, 6)] }, by decide +kernel⟩

theorem meets_dobbyTake : ∃ (r : StoreRead) (i : LoomItem) (q : Tlp) (s : State), r = .clean ∧ coreRuns s = true ∧ takeNext s = some i ∧ overAge s i = false ∧ i.cargo = .tlp q ∧ q.ep = false ∧ i.kind ≤ 1 :=
  ⟨.clean, { id := 4, chain := 9, src := 0, tc := 0, kind := 0, bytes := 32, cargo := .tlp { kind := .memWrite, addr := 16, len := 4, rid := 5, firstBe := 15, data := [1#8, 2#8, 3#8, 4#8] }, origin := {}, stamp := 0 }, { kind := .memWrite, addr := 16, len := 4, rid := 5, firstBe := 15, data := [1#8, 2#8, 3#8, 4#8] }, { now := 0, module := { state := .service }, power := { vioOk := true }, cfg := [(key 0x4100 1, 5), (key 0x3301 1, 1), (key 0x6001 0, 1), (key 0x6012 1, 1)], dob := {  }, warp := { part := vset (Vector.replicate 32 {}) 0 { st := 2 } }, loom := { queue := vset (Vector.replicate 130 []) 129 [{ id := 4, chain := 9, src := 0, tc := 0, kind := 0, bytes := 32, cargo := .tlp { kind := .memWrite, addr := 16, len := 4, rid := 5, firstBe := 15, data := [1#8, 2#8, 3#8, 4#8] }, origin := {}, stamp := 0 }] } }, by decide +kernel⟩

theorem meets_vmeCycleStart : ∃ (it : DobItem) (st : DobStep) (ss : List DobStep) (s : State), dobPins s = true ∧ s.dob.cycle = none ∧ s.dob.iack = none ∧ s.dob.inbound = none ∧ s.dob.lock = none ∧ s.dob.busWanted = none ∧ s.dob.items.head? = some it ∧ it.split = false ∧ enabledBytes it.tlp ≠ [] ∧ outRefusal s it.tlp = 0 ∧ isAtomic it.tlp = false ∧ outSteps (outWin s it.win) it.tlp = st :: ss :=
  ⟨{ origin := { cls := 0, vs := 0 }, tlp := { kind := .memWrite, addr := 16, len := 4, rid := 5, firstBe := 15, data := [1#8, 2#8, 3#8, 4#8] }, item := 4, posted := true }, { addr := 0x100010, am := 0x39, mode := .single, width := 4, count := 4, off := 0 }, [], { now := 0, module := { state := .service }, power := { vioOk := true }, cfg := [(key 0x4100 1, 5), (key 0x3301 1, 1), (key 0x6001 0, 1), (key 0x6012 1, 1), (key 0x6010 1, at_ 255 1 + at_ 253 1 + at_ 248 2 + at_ 237 16 + at_ 243 1 + at_ 64 0x100000)], dob := { items := [{ origin := { cls := 0, vs := 0 }, tlp := { kind := .memWrite, addr := 16, len := 4, rid := 5, firstBe := 15, data := [1#8, 2#8, 3#8, 4#8] }, item := 4, posted := true }] }, warp := { part := vset (Vector.replicate 32 {}) 0 { st := 2 } } }, by decide +kernel⟩

theorem meets_vmeForbidden : ∃ (it : DobItem) (s : State), dobPins s = true ∧ s.dob.cycle = none ∧ s.dob.iack = none ∧ s.dob.inbound = none ∧ s.dob.lock = none ∧ s.dob.busWanted = none ∧ s.dob.items.head? = some it ∧ it.split = false ∧ (enabledBytes it.tlp ≠ [] ∨ isAtomic it.tlp = true) ∧ outRefusal s it.tlp ≠ 0 :=
  ⟨{ origin := { cls := 0, vs := 0 }, tlp := { kind := .memWrite, addr := 16, len := 4, rid := 5, firstBe := 15, data := [1#8, 2#8, 3#8, 4#8] }, item := 4, posted := true }, { now := 0, module := { state := .service }, power := { vioOk := true }, cfg := [(key 0x4100 1, 5), (key 0x3301 1, 1), (key 0x6001 0, 1), (key 0x6012 1, 1)], dob := { items := [{ origin := { cls := 0, vs := 0 }, tlp := { kind := .memWrite, addr := 16, len := 4, rid := 5, firstBe := 15, data := [1#8, 2#8, 3#8, 4#8] }, item := 4, posted := true }] }, warp := { part := vset (Vector.replicate 32 {}) 0 { st := 2 } } }, by decide +kernel⟩

theorem meets_vmeCycleEnd : ∃ (c : DobCycle) (it : DobItem) (s : State), s.dob.cycle = some c ∧ onBus s = some it ∧ isAtomic it.tlp = false ∧ c.step.count ≤ c.step.width ∧ it.steps.drop 1 = [] :=
  ⟨{ step := { addr := 0x100010, am := 0x39, mode := .single, width := 4, count := 4, off := 0 }, write := true, since := 0 }, { origin := { cls := 0, vs := 0 }, tlp := { kind := .memWrite, addr := 16, len := 4, rid := 5, firstBe := 15, data := [1#8, 2#8, 3#8, 4#8] }, item := 4, posted := true, started := true, split := true, steps := [{ addr := 0x100010, am := 0x39, mode := .single, width := 4, count := 4, off := 0 }] }, { now := 0, module := { state := .service }, power := { vioOk := true }, cfg := [(key 0x4100 1, 5), (key 0x3301 1, 1), (key 0x6001 0, 1), (key 0x6012 1, 1), (key 0x6010 1, at_ 255 1 + at_ 253 1 + at_ 248 2 + at_ 237 16 + at_ 243 1 + at_ 64 0x100000)], dob := { items := [{ origin := { cls := 0, vs := 0 }, tlp := { kind := .memWrite, addr := 16, len := 4, rid := 5, firstBe := 15, data := [1#8, 2#8, 3#8, 4#8] }, item := 4, posted := true, started := true, split := true, steps := [{ addr := 0x100010, am := 0x39, mode := .single, width := 4, count := 4, off := 0 }] }], cycle := some { step := { addr := 0x100010, am := 0x39, mode := .single, width := 4, count := 4, off := 0 }, write := true, since := 0 } }, warp := { part := vset (Vector.replicate 32 {}) 0 { st := 2 } } }, by decide +kernel⟩

theorem meets_vmeBurst : ∃ (c : DobCycle) (it : DobItem) (s : State), s.dob.cycle = some c ∧ onBus s = some it ∧ isAtomic it.tlp = false ∧ c.step.width < c.step.count ∧ s.dob.busWanted = none :=
  ⟨{ step := { addr := 0x100010, am := 0x39, mode := .single, width := 4, count := 8, off := 0 }, write := true, since := 0 }, { origin := { cls := 0, vs := 0 }, tlp := { kind := .memWrite, addr := 16, len := 4, rid := 5, firstBe := 15, data := [1#8, 2#8, 3#8, 4#8] }, item := 4, posted := true, started := true, split := true, steps := [{ addr := 0x100010, am := 0x39, mode := .single, width := 4, count := 8, off := 0 }] }, { now := 9, module := { state := .service }, power := { vioOk := true }, cfg := [(key 0x4100 1, 5), (key 0x3301 1, 1), (key 0x6001 0, 1), (key 0x6012 1, 1), (key 0x6010 1, at_ 255 1 + at_ 253 1 + at_ 248 2 + at_ 237 16 + at_ 243 1 + at_ 64 0x100000)], dob := { items := [{ origin := { cls := 0, vs := 0 }, tlp := { kind := .memWrite, addr := 16, len := 4, rid := 5, firstBe := 15, data := [1#8, 2#8, 3#8, 4#8] }, item := 4, posted := true, started := true, split := true, steps := [{ addr := 0x100010, am := 0x39, mode := .single, width := 4, count := 8, off := 0 }] }], cycle := some { step := { addr := 0x100010, am := 0x39, mode := .single, width := 4, count := 8, off := 0 }, write := true, since := 0 } }, warp := { part := vset (Vector.replicate 32 {}) 0 { st := 2 } } }, by decide +kernel⟩

theorem meets_vmeAtomic : ∃ (c : DobCycle) (it : DobItem) (s : State), s.dob.cycle = some c ∧ onBus s = some it ∧ isAtomic it.tlp = true ∧ atomicBytes it.tlp = 4 ∧ it.phase = 0 ∧ c.write = false :=
  ⟨{ step := { addr := 0x100010, am := 0x39, mode := .rmw, width := 4, count := 4, off := 0 }, write := false, since := 0 }, { origin := { cls := 0, vs := 0 }, tlp := { kind := .fetchAdd, addr := 16, len := 4, rid := 5, firstBe := 15, data := [1#8, 0#8, 0#8, 0#8] }, item := 4, posted := false, started := true, split := true }, { now := 9, module := { state := .service }, power := { vioOk := true }, cfg := [(key 0x4100 1, 5), (key 0x3301 1, 1), (key 0x6001 0, 1), (key 0x6012 1, 1), (key 0x6010 1, at_ 255 1 + at_ 253 1 + at_ 248 2 + at_ 237 16 + at_ 243 1 + at_ 64 0x100000)], dob := { items := [{ origin := { cls := 0, vs := 0 }, tlp := { kind := .fetchAdd, addr := 16, len := 4, rid := 5, firstBe := 15, data := [1#8, 0#8, 0#8, 0#8] }, item := 4, posted := false, started := true, split := true }], cycle := some { step := { addr := 0x100010, am := 0x39, mode := .rmw, width := 4, count := 4, off := 0 }, write := false, since := 0 } }, warp := { part := vset (Vector.replicate 32 {}) 0 { st := 2 } } }, by decide +kernel⟩

theorem meets_vmeBerr : ∃ (c : DobCycle) (it : DobItem) (s : State), s.dob.iack = none ∧ s.dob.cycle = some c ∧ onBus s = some it :=
  ⟨{ step := { addr := 0x100010, am := 0x39, mode := .single, width := 4, count := 4, off := 0 }, write := true, since := 0 }, { origin := { cls := 0, vs := 0 }, tlp := { kind := .memWrite, addr := 16, len := 4, rid := 5, firstBe := 15, data := [1#8, 2#8, 3#8, 4#8] }, item := 4, posted := true, started := true, split := true, steps := [{ addr := 0x100010, am := 0x39, mode := .single, width := 4, count := 4, off := 0 }] }, { now := 0, module := { state := .service }, power := { vioOk := true }, cfg := [(key 0x4100 1, 5), (key 0x3301 1, 1), (key 0x6001 0, 1), (key 0x6012 1, 1), (key 0x6010 1, at_ 255 1 + at_ 253 1 + at_ 248 2 + at_ 237 16 + at_ 243 1 + at_ 64 0x100000)], dob := { items := [{ origin := { cls := 0, vs := 0 }, tlp := { kind := .memWrite, addr := 16, len := 4, rid := 5, firstBe := 15, data := [1#8, 2#8, 3#8, 4#8] }, item := 4, posted := true, started := true, split := true, steps := [{ addr := 0x100010, am := 0x39, mode := .single, width := 4, count := 4, off := 0 }] }], cycle := some { step := { addr := 0x100010, am := 0x39, mode := .single, width := 4, count := 4, off := 0 }, write := true, since := 0 } }, warp := { part := vset (Vector.replicate 32 {}) 0 { st := 2 } } }, by decide +kernel⟩

theorem meets_vmeBerrIack : ∃ (l : Nat) (t0 : Nat) (s : State), s.dob.iack = some (l, t0) :=
  ⟨3, 0, { now := 0, module := { state := .service }, power := { vioOk := true }, cfg := [(key 0x4100 1, 5), (key 0x3301 1, 1), (key 0x6001 0, 1), (key 0x6012 1, 1)], dob := { iack := some (3, 0) }, warp := { part := vset (Vector.replicate 32 {}) 0 { st := 2 } } }, by decide +kernel⟩

theorem meets_dobBusTimerExpiry : ∃ (c : DobCycle) (it : DobItem) (s : State), s.dob.cycle = some c ∧ onBus s = some it ∧ c.since + busTimer s ≤ s.now :=
  ⟨{ step := { addr := 0x100010, am := 0x39, mode := .single, width := 4, count := 4, off := 0 }, write := true, since := 0 }, { origin := { cls := 0, vs := 0 }, tlp := { kind := .memWrite, addr := 16, len := 4, rid := 5, firstBe := 15, data := [1#8, 2#8, 3#8, 4#8] }, item := 4, posted := true, started := true, split := true, steps := [{ addr := 0x100010, am := 0x39, mode := .single, width := 4, count := 4, off := 0 }] }, { now := 1000000000, module := { state := .service }, power := { vioOk := true }, cfg := [(key 0x4100 1, 5), (key 0x3301 1, 1), (key 0x6001 0, 1), (key 0x6012 1, 1), (key 0x6010 1, at_ 255 1 + at_ 253 1 + at_ 248 2 + at_ 237 16 + at_ 243 1 + at_ 64 0x100000)], dob := { items := [{ origin := { cls := 0, vs := 0 }, tlp := { kind := .memWrite, addr := 16, len := 4, rid := 5, firstBe := 15, data := [1#8, 2#8, 3#8, 4#8] }, item := 4, posted := true, started := true, split := true, steps := [{ addr := 0x100010, am := 0x39, mode := .single, width := 4, count := 4, off := 0 }] }], cycle := some { step := { addr := 0x100010, am := 0x39, mode := .single, width := 4, count := 4, off := 0 }, write := true, since := 0 } }, warp := { part := vset (Vector.replicate 32 {}) 0 { st := 2 } } }, by decide +kernel⟩

theorem meets_lockBackoff : ∃ (v : Nat) (t0 : Nat) (s : State), s.dob.lock = some v ∧ s.dob.busWanted = some t0 ∧ t0 + cfgv s 0x6007 0 * 1000 ≤ s.now :=
  ⟨0, 0, { now := 1000000000, module := { state := .service }, power := { vioOk := true }, cfg := [(key 0x4100 1, 5), (key 0x3301 1, 1), (key 0x6001 0, 1), (key 0x6012 1, 1)], dob := { lock := some 0, busWanted := some 0, holdsBus := true }, warp := { part := vset (Vector.replicate 32 {}) 0 { st := 2 } } }, by decide +kernel⟩

theorem meets_unlockMessage : ∃ (v : Vs) (s : State), s.dob.lock = some v.val :=
  ⟨0, { now := 0, module := { state := .service }, power := { vioOk := true }, cfg := [(key 0x4100 1, 5), (key 0x3301 1, 1), (key 0x6001 0, 1), (key 0x6012 1, 1)], dob := { lock := some 0 }, warp := { part := vset (Vector.replicate 32 {}) 0 { st := 2 } } }, by decide +kernel⟩

theorem meets_busRequestPending : ∃ (s : State), s.dob.holdsBus = true ∧ s.dob.cycle = none ∧ s.dob.lock = none ∧ onBus s = none :=
  ⟨{ now := 0, module := { state := .service }, power := { vioOk := true }, cfg := [(key 0x4100 1, 5), (key 0x3301 1, 1), (key 0x6001 0, 1), (key 0x6012 1, 1)], dob := { holdsBus := true }, warp := { part := vset (Vector.replicate 32 {}) 0 { st := 2 } } }, by decide +kernel⟩

theorem meets_busWantedLater : ∃ (s : State), s.dob.holdsBus = true ∧ s.dob.cycle ≠ none ∧ s.dob.busWanted = none :=
  ⟨{ now := 0, module := { state := .service }, power := { vioOk := true }, cfg := [(key 0x4100 1, 5), (key 0x3301 1, 1), (key 0x6001 0, 1), (key 0x6012 1, 1)], dob := { holdsBus := true, cycle := some { step := { addr := 0x100010, am := 0x39, mode := .single, width := 4, count := 4, off := 0 }, write := true, since := 0 } }, warp := { part := vset (Vector.replicate 32 {}) 0 { st := 2 } } }, by decide +kernel⟩

theorem meets_vmeInboundCycle : ∃ (c : VmeCycle) (n : Nat) (w : Nat) (a : AmInfo) (s : State), dobPins s = true ∧ s.dob.cycle = none ∧ s.dob.iack = none ∧ s.dob.inbound = none ∧ semaphoreOf s c = none ∧ inWindow s c = some n ∧ amInfo c.am = some a ∧ c.write = false ∧ c.kind = .single ∧ s.dob.inbuf = [] ∧ bit (inWin s n) 254 = false ∧ inboundCheck s n a.sup 0 (((inBytes (inWin s n) c.addr (max 1 c.len)).map Prod.fst).foldl min ((((inBytes (inWin s n) c.addr (max 1 c.len)).map Prod.fst).head?).getD 0)) (((inBytes (inWin s n) c.addr (max 1 c.len)).map Prod.fst).foldl max 0 + 1 - (((inBytes (inWin s n) c.addr (max 1 c.len)).map Prod.fst).foldl min ((((inBytes (inWin s n) c.addr (max 1 c.len)).map Prod.fst).head?).getD 0))) = .region w :=
  ⟨{ am := 0x3D, addr := 0x200010, kind := .single, width := 4, len := 4, write := false, beats := [] }, 0, at_ 192 (2 ^ 48 - 1) + at_ 128 (2 ^ 48 - 1) + at_ 74 20 + at_ 65 1, { space := 1, sup := true }, { now := 0, module := { state := .service }, power := { vioOk := true }, cfg := [(key 0x4100 1, 5), (key 0x3301 1, 1), (key 0x6001 0, 1), (key 0x6012 1, 1), (key 0x6011 1, at_ 255 1 + at_ 252 1 + at_ 251 1 + at_ 250 1 + at_ 235 16 + at_ 64 0x200000)], dob := {  }, warp := { part := vset (Vector.replicate 32 {}) 0 { st := 2 } }, hed := { active := [(129 * 64 + 32, at_ 192 (2 ^ 48 - 1) + at_ 128 (2 ^ 48 - 1) + at_ 74 20 + at_ 65 1)] } }, ⟨by decide +kernel, rfl, rfl, rfl, by decide +kernel, by decide +kernel, rfl, rfl, rfl, rfl, by decide +kernel, by decide +kernel⟩⟩

theorem meets_inboundDenied : ∃ (c : VmeCycle) (n : Nat) (x : Nat) (r : Nat) (sb : Nat) (a : AmInfo) (s : State), dobPins s = true ∧ s.dob.cycle = none ∧ s.dob.iack = none ∧ s.dob.inbound = none ∧ semaphoreOf s c = none ∧ inWindow s c = some n ∧ amInfo c.am = some a ∧ c.write = false ∧ c.kind = .single ∧ inboundCheck s n a.sup 0 (((inBytes (inWin s n) c.addr (max 1 c.len)).map Prod.fst).foldl min ((((inBytes (inWin s n) c.addr (max 1 c.len)).map Prod.fst).head?).getD 0)) (((inBytes (inWin s n) c.addr (max 1 c.len)).map Prod.fst).foldl max 0 + 1 - (((inBytes (inWin s n) c.addr (max 1 c.len)).map Prod.fst).foldl min ((((inBytes (inWin s n) c.addr (max 1 c.len)).map Prod.fst).head?).getD 0))) = .deny x r sb :=
  ⟨{ am := 0x3D, addr := 0x200010, kind := .single, width := 4, len := 4, write := false, beats := [] }, 0, 16, 127, 0, { space := 1, sup := true }, { now := 0, module := { state := .service }, power := { vioOk := true }, cfg := [(key 0x4100 1, 5), (key 0x3301 1, 1), (key 0x6001 0, 1), (key 0x6012 1, 1), (key 0x6011 1, at_ 255 1 + at_ 252 1 + at_ 251 1 + at_ 250 1 + at_ 235 16 + at_ 64 0x200000)], dob := {  }, warp := { part := vset (Vector.replicate 32 {}) 0 { st := 2 } } }, ⟨by decide +kernel, rfl, rfl, rfl, by decide +kernel, by decide +kernel, rfl, rfl, rfl, by decide +kernel⟩⟩

theorem meets_inboundStray : ∃ (c : VmeCycle) (s : State), dobPins s = true ∧ s.dob.cycle = none ∧ s.dob.iack = none ∧ s.dob.inbound = none ∧ semaphoreOf s c = none ∧ inWindow s c = none :=
  ⟨{ am := 0x3D, addr := 0x200010, kind := .single, width := 4, len := 4, write := false, beats := [] }, { now := 0, module := { state := .service }, power := { vioOk := true }, cfg := [(key 0x4100 1, 5), (key 0x3301 1, 1), (key 0x6001 0, 1), (key 0x6012 1, 1)], dob := {  }, warp := { part := vset (Vector.replicate 32 {}) 0 { st := 2 } } }, by decide +kernel⟩

theorem meets_inboundSemaphore : ∃ (c : VmeCycle) (k : Nat) (s : State), dobPins s = true ∧ s.dob.cycle = none ∧ s.dob.iack = none ∧ s.dob.inbound = none ∧ semaphoreOf s c = some k ∧ k < 16 ∧ c.write = false :=
  ⟨{ am := 0x2D, addr := 0x1008, kind := .single, width := 4, len := 4, write := false, beats := [] }, 2, { now := 0, module := { state := .service }, power := { vioOk := true }, cfg := [(key 0x4100 1, 5), (key 0x3301 1, 1), (key 0x6001 0, 1), (key 0x6012 1, 1), (key 0x6025 0, 0x1000)], dob := {  }, warp := { part := vset (Vector.replicate 32 {}) 0 { st := 2 } } }, by decide +kernel⟩

theorem meets_vmeSemaphoreCycle : ∃ (am : Nat) (s : State), dobPins s = true ∧ cfgv s 0x6025 0 ≠ 65535 ∧ (am = 0x29 ∨ am = 0x2D) :=
  ⟨0x29, { now := 0, module := { state := .service }, power := { vioOk := true }, cfg := [(key 0x4100 1, 5), (key 0x3301 1, 1), (key 0x6001 0, 1), (key 0x6012 1, 1), (key 0x6025 0, 0x1000)], dob := {  }, warp := { part := vset (Vector.replicate 32 {}) 0 { st := 2 } } }, by decide +kernel⟩

theorem meets_semFreedByVme : ∃ (am : Nat) (s : State), dobPins s = true ∧ cfgv s 0x6025 0 ≠ 65535 ∧ (am = 0x29 ∨ am = 0x2D) :=
  ⟨0x29, { now := 0, module := { state := .service }, power := { vioOk := true }, cfg := [(key 0x4100 1, 5), (key 0x3301 1, 1), (key 0x6001 0, 1), (key 0x6012 1, 1), (key 0x6025 0, 0x1000)], dob := { sem := Vector.replicate 16 0xC0007FFF }, warp := { part := vset (Vector.replicate 32 {}) 0 { st := 2 } } }, by decide +kernel⟩

theorem meets_semRead : ∃ (v : Vs) (s : State), vsState s v = 2 ∧ dobbyFunction s v = true :=
  ⟨0, { now := 0, module := { state := .service }, power := { vioOk := true }, cfg := [(key 0x4100 1, 5), (key 0x3301 1, 1), (key 0x6001 0, 1), (key 0x6012 1, 1)], dob := {  }, warp := { part := vset (Vector.replicate 32 {}) 0 { st := 2 } } }, by decide +kernel⟩

theorem meets_semWrite : ∃ (v : Vs) (s : State), vsState s v = 2 ∧ dobbyFunction s v = true :=
  ⟨0, { now := 0, module := { state := .service }, power := { vioOk := true }, cfg := [(key 0x4100 1, 5), (key 0x3301 1, 1), (key 0x6001 0, 1), (key 0x6012 1, 1)], dob := { sem := Vector.replicate 16 0x80000000 }, warp := { part := vset (Vector.replicate 32 {}) 0 { st := 2 } } }, by decide +kernel⟩

theorem meets_vmeIrqAssert : ∃ (lvl : IrqLevel) (s : State), dobPins s = true ∧ s.dob.cycle = none ∧ s.dob.iack = none ∧ s.dob.inbound = none ∧ bit (cfgv s 0x6021 0) (lvl.val + 1) = true ∧ bit s.dob.armed (lvl.val + 1) = true :=
  ⟨2, { now := 0, module := { state := .service }, power := { vioOk := true }, cfg := [(key 0x4100 1, 5), (key 0x3301 1, 1), (key 0x6001 0, 1), (key 0x6012 1, 1), (key 0x6021 0, 254)], dob := {  }, warp := { part := vset (Vector.replicate 32 {}) 0 { st := 2 } } }, by decide +kernel⟩

theorem meets_iackDone : ∃ (sid : BitVec 32) (l : Nat) (t0 : Nat) (e : Nat) (s : State), s.dob.iack = some (l, t0) ∧ cfgv s 0x6023 0 = 0 ∧ irqMatch s l (sid.toNat % 256) = some e ∧ vsState s (bits (irqRoute s e) 44 5) = 2 :=
  ⟨0#32, 3, 0, 1, { now := 0, module := { state := .service }, power := { vioOk := true }, cfg := [(key 0x4100 1, 5), (key 0x3301 1, 1), (key 0x6001 0, 1), (key 0x6012 1, 1), (key 0x6020 2, at_ 63 1 + at_ 44 0 + at_ 38 5)], dob := { iack := some (3, 0) }, warp := { part := vset (Vector.replicate 32 {}) 0 { st := 2 } } }, by decide +kernel⟩

theorem meets_iackLost : ∃ (sid : BitVec 32) (l : Nat) (t0 : Nat) (s : State), s.dob.iack = some (l, t0) ∧ cfgv s 0x6023 0 = 0 ∧ irqMatch s l (sid.toNat % 256) = none :=
  ⟨0#32, 3, 0, { now := 0, module := { state := .service }, power := { vioOk := true }, cfg := [(key 0x4100 1, 5), (key 0x3301 1, 1), (key 0x6001 0, 1), (key 0x6012 1, 1)], dob := { iack := some (3, 0) }, warp := { part := vset (Vector.replicate 32 {}) 0 { st := 2 } } }, by decide +kernel⟩

theorem meets_irqRaise : ∃ (v : Vs) (value : Nat) (s : State), vsState s v = 2 ∧ dobbyFunction s v = true ∧ dobOn s = true ∧ bits value 8 3 ≠ 0 ∧ bit (cfgv s 0x6024 1) (bits value 8 3) = true ∧ s.dob.raises.any (fun r => r.1 = bits value 8 3 && r.2.1 = v.val) = false :=
  ⟨0, 0x345, { now := 0, module := { state := .service }, power := { vioOk := true }, cfg := [(key 0x4100 1, 5), (key 0x3301 1, 1), (key 0x6001 0, 1), (key 0x6012 1, 1), (key 0x6024 1, 254)], dob := {  }, warp := { part := vset (Vector.replicate 32 {}) 0 { st := 2 } } }, by decide +kernel⟩

theorem meets_irqRefused : ∃ (v : Vs) (value : Nat) (s : State), vsState s v = 2 ∧ dobbyFunction s v = true ∧ dobOn s = true ∧ (bits value 8 3 = 0 ∨ bit (cfgv s 0x6024 1) (bits value 8 3) = false) :=
  ⟨0, 0x345, { now := 0, module := { state := .service }, power := { vioOk := true }, cfg := [(key 0x4100 1, 5), (key 0x3301 1, 1), (key 0x6001 0, 1), (key 0x6012 1, 1), (key 0x6024 1, 0)], dob := {  }, warp := { part := vset (Vector.replicate 32 {}) 0 { st := 2 } } }, by decide +kernel⟩

theorem meets_iackinReceive : ∃ (lvl : IrqLevel) (r : Nat × Nat × Nat) (s : State), dobPins s = true ∧ s.dob.raises.find? (fun r => r.1 = lvl.val + 1) = some r :=
  ⟨2, (3, 0, 7), { now := 0, module := { state := .service }, power := { vioOk := true }, cfg := [(key 0x4100 1, 5), (key 0x3301 1, 1), (key 0x6001 0, 1), (key 0x6012 1, 1)], dob := { raises := [(3, 0, 7), (3, 1, 9)] }, warp := { part := vset (Vector.replicate 32 {}) 0 { st := 2 } } }, by decide +kernel⟩

theorem meets_iackPassed : ∃ (lvl : IrqLevel) (s : State), dobPins s = true ∧ s.dob.raises.find? (fun r => r.1 = lvl.val + 1) = none :=
  ⟨2, { now := 0, module := { state := .service }, power := { vioOk := true }, cfg := [(key 0x4100 1, 5), (key 0x3301 1, 1), (key 0x6001 0, 1), (key 0x6012 1, 1)], dob := {  }, warp := { part := vset (Vector.replicate 32 {}) 0 { st := 2 } } }, by decide +kernel⟩

theorem meets_sysresetInput : ∃ (s : State), dobPins s = true :=
  ⟨{ now := 0, module := { state := .service }, power := { vioOk := true }, cfg := [(key 0x4100 1, 5), (key 0x3301 1, 1), (key 0x6001 0, 1), (key 0x6012 1, 1)], dob := { items := [{ origin := { cls := 0, vs := 0 }, tlp := { kind := .memWrite, addr := 16, len := 4, rid := 5, firstBe := 15, data := [1#8, 2#8, 3#8, 4#8] }, item := 4, posted := true, started := true, split := true, steps := [{ addr := 0x100010, am := 0x39, mode := .single, width := 4, count := 4, off := 0 }] }], raises := [(3, 0, 7)], cycle := some { step := { addr := 0x100010, am := 0x39, mode := .single, width := 4, count := 4, off := 0 }, write := true, since := 0 } }, warp := { part := vset (Vector.replicate 32 {}) 0 { st := 2 } } }, by decide +kernel⟩

theorem meets_sysfailChange : ∃ (s : State), dobPins s = true :=
  ⟨{ now := 0, module := { state := .service }, power := { vioOk := true }, cfg := [(key 0x4100 1, 5), (key 0x3301 1, 1), (key 0x6001 0, 1), (key 0x6012 1, 1)], dob := {  }, warp := { part := vset (Vector.replicate 32 {}) 0 { st := 2 } } }, by decide +kernel⟩

theorem meets_acfailChange : ∃ (s : State), dobPins s = true :=
  ⟨{ now := 0, module := { state := .service }, power := { vioOk := true }, cfg := [(key 0x4100 1, 5), (key 0x3301 1, 1), (key 0x6001 0, 1), (key 0x6012 1, 1)], dob := {  }, warp := { part := vset (Vector.replicate 32 {}) 0 { st := 2 } } }, by decide +kernel⟩

theorem meets_sysresetOutEnd : ∃ (t0 : Nat) (s : State), s.dob.sysreset = some t0 ∧ t0 + 200000000 ≤ s.now :=
  ⟨0, { now := 200000000, module := { state := .service }, power := { vioOk := true }, cfg := [(key 0x4100 1, 5), (key 0x3301 1, 1), (key 0x6001 0, 1), (key 0x6012 1, 1)], dob := { sysreset := some 0 }, warp := { part := vset (Vector.replicate 32 {}) 0 { st := 2 } } }, by decide +kernel⟩

theorem meets_dobConnOpen : ∃ (sess : Nat) (value : Nat) (z : List Byte) (s : State), MayAct s sess 0x6030 1 value ∧ dobConnCheck s value = 0 ∧ bits value 30 2 = 1 ∧ secretFor s (bits value 20 10) = some z :=
  ⟨1, at_ 30 1 + at_ 20 7 + 3, leBytes 32 1, asInstaller { now := 0, module := { state := .service }, power := { vioOk := true }, cfg := [(key 0x4100 1, 5), (key 0x3301 1, 1), (key 0x6001 0, 1), (key 0x6012 1, 1)], dob := {  }, warp := { part := vset (Vector.replicate 32 {}) 0 { st := 2 } }, vault := { secrets := [(pairKey 7, 1)] } }, by decide +kernel⟩

theorem meets_dobConnClose : ∃ (sess : Nat) (value : Nat) (s : State), MayAct s sess 0x6030 1 value ∧ dobConnCheck s value = 0 ∧ bits value 30 2 = 2 ∧ (connOf s (bits value 0 14)).st = .active :=
  ⟨1, at_ 30 2 + 3, asInstaller { now := 0, module := { state := .service }, power := { vioOk := true }, cfg := [(key 0x4100 1, 5), (key 0x3301 1, 1), (key 0x6001 0, 1), (key 0x6012 1, 1)], dob := {  }, warp := { part := vset (Vector.replicate 32 {}) 0 { st := 2 } }, shu := { conns := [(3, { st := .active, peerMid := 7, ownerKind := 1 })] } }, by decide +kernel⟩

theorem meets_dobConnReset : ∃ (sess : Nat) (value : Nat) (s : State), MayAct s sess 0x6030 1 value ∧ dobConnCheck s value = 0 ∧ bits value 30 2 = 3 :=
  ⟨1, at_ 30 3 + 3, asInstaller { now := 0, module := { state := .service }, power := { vioOk := true }, cfg := [(key 0x4100 1, 5), (key 0x3301 1, 1), (key 0x6001 0, 1), (key 0x6012 1, 1)], dob := {  }, warp := { part := vset (Vector.replicate 32 {}) 0 { st := 2 } }, shu := { conns := [(3, { st := .active, peerMid := 7, ownerKind := 1 })] } }, by decide +kernel⟩

theorem meets_authBegin : ∃ (m : Msg) (s : State), serves s = true ∧ firstOf 1 [] s.mgmt.inbox = some m ∧ beginRefusal s m = 0 :=
  ⟨{ source := 16, typ := 1, session := 0, body := [2#8] ++ List.replicate 16 1#8 }, { now := 0, module := { state := .service }, cfg := [(key 0x1120 3, 1), (key 0x4020 1, 0)], mgmt := { inbox := [{ source := 16, typ := 1, session := 0, body := [2#8] ++ List.replicate 16 1#8 }] } }, by decide +kernel⟩

theorem meets_authRefused : ∃ (m : Msg) (s : State), serves s = true ∧ firstOf 1 [] s.mgmt.inbox = some m ∧ beginRefusal s m ≠ 0 :=
  ⟨{ source := 16, typ := 1, session := 0, body := [2#8] ++ List.replicate 16 1#8 }, { now := 0, module := { state := .service }, cfg := [(key 0x1120 3, 1), (key 0x4020 1, 0)], mgmt := { inbox := [{ source := 16, typ := 1, session := 0, body := [2#8] ++ List.replicate 16 1#8 }], lockouts := [(16, 0)] } }, by decide +kernel⟩

theorem meets_authProof : ∃ (m : Msg) (a : AuthAttempt) (s : State), serves s = true ∧ firstOf 3 [] s.mgmt.inbox = some m ∧ s.mgmt.attempts.find? (fun a => a.source = m.source) = some a ∧ s.now < a.since + 1000000000 ∧ m.body.take 48 = attemptProof s a ∧ sessionRoom s a.source = true :=
  ⟨{ source := 16, typ := 3, session := 0, body := attemptProof ({ now := 0, module := { state := .service }, cfg := [(key 0x1120 3, 1), (key 0x4020 1, 0)], mgmt := {  }, vault := { secrets := [(key 0x1101 2, 77)] } }) { source := 16, role := 2, num := 9, nc := List.replicate 16 1#8, nm := List.replicate 16 2#8, since := 0 } }, { source := 16, role := 2, num := 9, nc := List.replicate 16 1#8, nm := List.replicate 16 2#8, since := 0 }, { now := 0, module := { state := .service }, cfg := [(key 0x1120 3, 1), (key 0x4020 1, 0)], mgmt := { inbox := [{ source := 16, typ := 3, session := 0, body := attemptProof ({ now := 0, module := { state := .service }, cfg := [(key 0x1120 3, 1), (key 0x4020 1, 0)], mgmt := {  }, vault := { secrets := [(key 0x1101 2, 77)] } }) { source := 16, role := 2, num := 9, nc := List.replicate 16 1#8, nm := List.replicate 16 2#8, since := 0 } }], attempts := [{ source := 16, role := 2, num := 9, nc := List.replicate 16 1#8, nm := List.replicate 16 2#8, since := 0 }] }, vault := { secrets := [(key 0x1101 2, 77)] } }, by decide +kernel⟩

theorem meets_authWrong : ∃ (m : Msg) (a : AuthAttempt) (s : State), serves s = true ∧ firstOf 3 [] s.mgmt.inbox = some m ∧ s.mgmt.attempts.find? (fun a => a.source = m.source) = some a ∧ m.body.take 48 ≠ attemptProof s a :=
  ⟨{ source := 16, typ := 3, session := 0, body := [] }, { source := 16, role := 2, num := 9, nc := List.replicate 16 1#8, nm := List.replicate 16 2#8, since := 0 }, { now := 0, module := { state := .service }, cfg := [(key 0x1120 3, 1), (key 0x4020 1, 0)], mgmt := { inbox := [{ source := 16, typ := 3, session := 0, body := [] }], attempts := [{ source := 16, role := 2, num := 9, nc := List.replicate 16 1#8, nm := List.replicate 16 2#8, since := 0 }] }, vault := { secrets := [(key 0x1101 2, 77)] } }, by decide +kernel⟩

theorem meets_authTimeout : ∃ (num : Nat) (a : AuthAttempt) (s : State), s.mgmt.attempts.find? (fun a => a.num = num) = some a ∧ a.since + 1000000000 ≤ s.now :=
  ⟨9, { source := 16, role := 2, num := 9, nc := List.replicate 16 1#8, nm := List.replicate 16 2#8, since := 0 }, { now := 1000000000, module := { state := .service }, cfg := [(key 0x1120 3, 1), (key 0x4020 1, 0)], mgmt := { attempts := [{ source := 16, role := 2, num := 9, nc := List.replicate 16 1#8, nm := List.replicate 16 2#8, since := 0 }] } }, by decide +kernel⟩

theorem meets_lockoutEnd : ∃ (src : Nat) (r : Nat × Nat) (s : State), s.mgmt.lockouts.find? (fun r => r.1 = src) = some r ∧ r.2 + 60000000000 ≤ s.now :=
  ⟨16, (16, 0), { now := 60000000000, module := { state := .service }, cfg := [(key 0x1120 3, 1), (key 0x4020 1, 0)], mgmt := { lockouts := [(16, 0)] } }, by decide +kernel⟩

theorem meets_sessionIdleTimeout : ∃ (num : Nat) (x : Session) (s : State), sessionOf s num = some x ∧ x.lastMsg + cfgv s 0x1103 2 * 1000000000 ≤ s.now ∧ s.module.pause = none :=
  ⟨1, { slot := 1, num := 1, role := 2, source := 16 }, { now := 100000000000, module := { state := .service }, cfg := [(key 0x1120 3, 1), (key 0x4020 1, 0)], mgmt := { sessions := [{ slot := 1, num := 1, role := 2, source := 16 }] } }, by decide +kernel⟩

theorem meets_sessionEnd : ∃ (m : Msg) (x : Session) (s : State), serves s = true ∧ firstOf 0x0C [] s.mgmt.inbox = some m ∧ sessionOf s m.session = some x :=
  ⟨{ source := 16, typ := 12, session := 1, body := [] }, { slot := 1, num := 1, role := 2, source := 16 }, { now := 0, module := { state := .service }, cfg := [(key 0x1120 3, 1), (key 0x4020 1, 0)], mgmt := { inbox := [{ source := 16, typ := 12, session := 1, body := [] }], sessions := [{ slot := 1, num := 1, role := 2, source := 16 }] } }, by decide +kernel⟩

theorem meets_read : ∃ (m : Msg) (u : State) (ix : Nat) (sub : Nat) (off : Nat) (len : Nat) (r : ReadItem) (s : State), serves s = true ∧ firstOf 5 [] s.mgmt.inbox = some m ∧ u = setMgmt s { s.mgmt with inbox := s.mgmt.inbox.erase m } ∧ m.body ≠ [] ∧ readItems (leAt m.body 0 1) (m.body.drop 1) = some [(ix, sub, off, len)] ∧ ranged (readObject u m.session ix sub) off len = r ∧ (answerItem ix sub r).length ≤ 4307 :=
  ⟨{ source := 16, typ := 5, session := 1, body := [1#8] ++ leBytes 2 0x1103 ++ [2#8, 1#8, 0#8, 0#8, 0#8, 0#8, 0#8, 0#8] }, { now := 0, module := { state := .service }, cfg := [(key 0x1120 3, 1), (key 0x4020 1, 0)], mgmt := { sessions := [{ slot := 1, num := 1, role := 2, source := 16, txCount := 3 }] } }, 0x1103, 2, 0, 0, { status := 0, typ := 2, flags := 0, bytes := [60#8, 0#8] }, { now := 0, module := { state := .service }, cfg := [(key 0x1120 3, 1), (key 0x4020 1, 0)], mgmt := { inbox := [{ source := 16, typ := 5, session := 1, body := [1#8] ++ leBytes 2 0x1103 ++ [2#8, 1#8, 0#8, 0#8, 0#8, 0#8, 0#8, 0#8] }], sessions := [{ slot := 1, num := 1, role := 2, source := 16, txCount := 3 }] } }, by decide +kernel⟩

theorem meets_write : ∃ (m : Msg) (x : Session) (r : ObjRow) (ix : Nat) (sub : Nat) (val : List Byte) (s : State), serves s = true ∧ firstOf 7 [] s.mgmt.inbox = some m ∧ m.body ≠ [] ∧ writeItems (leAt m.body 0 1) (m.body.drop 1) = some [(ix, sub, val)] ∧ sessionOf s m.session = some x ∧ objRow ix sub = some r ∧ r.kind = .config ∧ r.typ ≠ 12 ∧ val.length = typeBytes r.typ r.len ∧ val.length ≤ 65536 ∧ writeStatus s x r ix sub (leNat val) = 0 ∧ x.staged = [] ∧ committing s x.num = false :=
  ⟨{ source := 16, typ := 7, session := 1, body := [1#8] ++ leBytes 2 0x1103 ++ [2#8, 0#8, 2#8, 0#8] ++ leBytes 2 600 }, { slot := 1, num := 1, role := 2, source := 16 }, ((objRow 0x1103 2).get (by decide +kernel)), 0x1103, 2, [0x58#8, 2#8], { now := 0, module := { state := .service }, cfg := [(key 0x1120 3, 1), (key 0x4020 1, 0)], mgmt := { inbox := [{ source := 16, typ := 7, session := 1, body := [1#8] ++ leBytes 2 0x1103 ++ [2#8, 0#8, 2#8, 0#8] ++ leBytes 2 600 }], sessions := [{ slot := 1, num := 1, role := 2, source := 16 }] } }, by decide +kernel⟩

theorem meets_registerWrite : ∃ (sess : Nat) (ix : Nat) (sub : Nat) (v : Nat) (x : Session) (r : ObjRow) (s : State), s.module.pause = none ∧ sessionOf s sess = some x ∧ objRow ix sub = some r ∧ r.kind = .config ∧ writeStatus s x r ix sub v = 0 ∧ typeBytes r.typ r.len ≤ 65536 ∧ x.staged = [] ∧ committing s x.num = false :=
  ⟨1, 0x1103, 2, 600, { slot := 1, num := 1, role := 2, source := 16 }, ((objRow 0x1103 2).get (by decide +kernel)), { now := 0, module := { state := .service }, cfg := [(key 0x1120 3, 1), (key 0x4020 1, 0)], mgmt := { sessions := [{ slot := 1, num := 1, role := 2, source := 16 }] } }, by decide +kernel⟩

theorem meets_writeHeld : ∃ (s : State), s.module.pause.isSome = true :=
  ⟨{ module := { state := .service, pause := some .restart } }, by decide +kernel⟩

theorem meets_commit : ∃ (m : Msg) (x : Session) (k : Nat) (v : Nat) (s : State), serves s = true ∧ firstOf 9 [] s.mgmt.inbox = some m ∧ s.mgmt.inFlash = none ∧ sessionOf s m.session = some x ∧ commitState s = 0 ∧ x.staged = [(k, v)] ∧ checkCommit s x.role x.staged = none ∧ keyIndex k ≠ 0x2005 ∧ isKeyObject k = false ∧ actsAtCommit k = false ∧ k ≠ key 0x7F10 0 ∧ s.module.state ≠ .test :=
  ⟨{ source := 16, typ := 9, session := 1, body := [] }, { slot := 1, num := 1, role := 2, source := 16, staged := [(key 0x1103 2, 600)] }, key 0x1103 2, 600, { now := 0, module := { state := .service }, cfg := [(key 0x1120 3, 1), (key 0x4020 1, 0)], mgmt := { inbox := [{ source := 16, typ := 9, session := 1, body := [] }], sessions := [{ slot := 1, num := 1, role := 2, source := 16, staged := [(key 0x1103 2, 600)] }] } }, ⟨by decide +kernel, by decide +kernel, by decide +kernel, by decide +kernel, by decide +kernel, by decide +kernel, test_commit_checks, by decide +kernel⟩⟩

theorem meets_commitFlash : ∃ (m : Msg) (x : Session) (s : State), serves s = true ∧ firstOf 9 [] s.mgmt.inbox = some m ∧ s.mgmt.inFlash = none ∧ sessionOf s m.session = some x ∧ commitState s = 0 ∧ x.staged ≠ [] ∧ checkCommit s x.role x.staged = none :=
  ⟨{ source := 16, typ := 9, session := 1, body := [] }, { slot := 1, num := 1, role := 2, source := 16, staged := [(key 0x1103 2, 600)] }, { now := 0, module := { state := .service }, cfg := [(key 0x1120 3, 1), (key 0x4020 1, 0)], mgmt := { inbox := [{ source := 16, typ := 9, session := 1, body := [] }], sessions := [{ slot := 1, num := 1, role := 2, source := 16, staged := [(key 0x1103 2, 600)] }] } }, ⟨by decide +kernel, by decide +kernel, by decide +kernel, by decide +kernel, by decide +kernel, by decide +kernel, test_commit_checks⟩⟩

theorem meets_commitRefused : ∃ (m : Msg) (x : Session) (s : State), serves s = true ∧ firstOf 9 [] s.mgmt.inbox = some m ∧ s.mgmt.inFlash = none ∧ sessionOf s m.session = some x ∧ (commitState s ≠ 0 ∨ x.staged = [] ∨ (checkCommit s x.role x.staged).isSome = true) :=
  ⟨{ source := 16, typ := 9, session := 1, body := [] }, { slot := 1, num := 1, role := 2, source := 16, staged := [(key 0x3003 1, 6)] }, { now := 0, module := { state := .fenced }, cfg := [(key 0x1120 3, 1), (key 0x4020 1, 0)], mgmt := { inbox := [{ source := 16, typ := 9, session := 1, body := [] }], sessions := [{ slot := 1, num := 1, role := 2, source := 16, staged := [(key 0x3003 1, 6)] }] } }, by decide +kernel⟩

theorem meets_commitFlashDone : ∃ (f : FlashCommit) (k : Nat) (v : Nat) (s : State), s.mgmt.inFlash = some f ∧ f.items = [(k, v)] ∧ s.module.warm = none ∧ keyIndex k ≠ 0x2005 ∧ isKeyObject k = false ∧ actsAtCommit k = false ∧ k ≠ key 0x7F10 0 ∧ s.module.state ≠ .test :=
  ⟨{ msg := { source := 16, typ := 9, session := 1, body := [] }, by_ := { slot := 1, num := 1, role := 2, source := 16, staged := [(key 0x1103 2, 600)] }, items := [(key 0x1103 2, 600)] }, key 0x1103 2, 600, { now := 0, module := { state := .service }, cfg := [(key 0x1120 3, 1), (key 0x4020 1, 0)], mgmt := { inFlash := some { msg := { source := 16, typ := 9, session := 1, body := [] }, by_ := { slot := 1, num := 1, role := 2, source := 16, staged := [(key 0x1103 2, 600)] }, items := [(key 0x1103 2, 600)] }, sessions := [{ slot := 1, num := 1, role := 2, source := 16, staged := [(key 0x1103 2, 600)] }] } }, by decide +kernel⟩

theorem meets_flashFailed : ∃ (f : FlashCommit) (s : State), s.mgmt.inFlash = some f ∧ s.module.warm = none :=
  ⟨{ msg := { source := 16, typ := 9, session := 1, body := [] }, by_ := { slot := 1, num := 1, role := 2, source := 16, staged := [(key 0x1103 2, 600)] }, items := [(key 0x1103 2, 600)] }, { now := 0, module := { state := .service }, cfg := [(key 0x1120 3, 1), (key 0x4020 1, 0)], mgmt := { inFlash := some { msg := { source := 16, typ := 9, session := 1, body := [] }, by_ := { slot := 1, num := 1, role := 2, source := 16, staged := [(key 0x1103 2, 600)] }, items := [(key 0x1103 2, 600)] }, sessions := [{ slot := 1, num := 1, role := 2, source := 16 }] } }, by decide +kernel⟩

theorem meets_discard : ∃ (m : Msg) (x : Session) (s : State), serves s = true ∧ firstOf 0x0B [] s.mgmt.inbox = some m ∧ sessionOf s m.session = some x :=
  ⟨{ source := 16, typ := 11, session := 1, body := [] }, { slot := 1, num := 1, role := 2, source := 16, staged := [(key 0x1103 2, 600)] }, { now := 0, module := { state := .service }, cfg := [(key 0x1120 3, 1), (key 0x4020 1, 0)], mgmt := { inbox := [{ source := 16, typ := 11, session := 1, body := [] }], sessions := [{ slot := 1, num := 1, role := 2, source := 16, staged := [(key 0x1103 2, 600)] }] } }, by decide +kernel⟩

theorem meets_describe : ∃ (m : Msg) (s : State), serves s = true ∧ firstOf 0x11 [] s.mgmt.inbox = some m ∧ 3 ≤ m.body.length :=
  ⟨{ source := 16, typ := 17, session := 1, body := leBytes 2 0x1103 ++ [2#8] }, { now := 0, module := { state := .service }, cfg := [(key 0x1120 3, 1), (key 0x4020 1, 0)], mgmt := { inbox := [{ source := 16, typ := 17, session := 1, body := leBytes 2 0x1103 ++ [2#8] }], sessions := [{ slot := 1, num := 1, role := 2, source := 16 }] } }, by decide +kernel⟩

theorem meets_heartbeatSend : ∃ (s : State), supervisorOnly s = false ∧ s.module.state ≠ .coreOn ∧ s.mgmt.heartbeatAt + 4500000 ≤ s.now :=
  ⟨{ now := 5000000, module := { state := .service }, cfg := [(key 0x1120 3, 1), (key 0x4020 1, 0)], mgmt := {  } }, by decide +kernel⟩

theorem meets_heartbeat : ∃ (m : Msg) (s : State), firstOf 0 [] s.mgmt.inbox = some m ∧ bit (leAt m.body 12 1) 0 = true ∧ supervisorOnly s = false :=
  ⟨{ source := 16, typ := 0, session := 0, body := (leBytes 4 0 ++ List.replicate 8 0#8 ++ [1#8, 0#8, 0#8, 0#8]) }, { now := 9, module := { state := .service }, cfg := [(key 0x1120 3, 1), (key 0x4020 1, 0)], mgmt := { inbox := [{ source := 16, typ := 0, session := 0, body := (leBytes 4 0 ++ List.replicate 8 0#8 ++ [1#8, 0#8, 0#8, 0#8]) }] } }, by decide +kernel⟩

theorem meets_canFrameReceive : ∃ (ident : Nat) (bs : List Byte) (data : List Byte) (seg : Byte) (s : State), s.module.state ≠ .off ∧ harmirOn s = true ∧ bs = seg :: data ∧ (bits ident 8 8 = 0 ∨ bits ident 8 8 = cfgv s 0x1120 1) ∧ ident % 256 ≠ 0 ∧ ident % 256 ≠ 255 ∧ s.mgmt.assembling.find? (fun x => assemblyKey x (ident % 256) (bits ident 21 5) (bits ident 16 5)) = none ∧ bit seg.toNat 7 = true ∧ seg.toNat % 64 = 0 ∧ bit seg.toNat 6 = false :=
  ⟨at_ 26 1 + at_ 21 5 + at_ 16 3 + 16, [0x80#8, 5#8, 6#8, 7#8], [5#8, 6#8, 7#8], 0x80#8, { now := 7, module := { state := .service }, cfg := [(key 0x1120 3, 1), (key 0x4020 1, 0)], mgmt := {  } }, by decide +kernel⟩

theorem meets_segmentTimeout : ∃ (a : Nat) (b : Nat) (c : Nat) (x : Assembly) (s : State), s.mgmt.assembling.find? (fun x => assemblyKey x a b c) = some x ∧ x.since + 50000000 < s.now :=
  ⟨16, 5, 3, { src := 16, typ := 5, tagId := 3, prio := 1, dst := 0, seq := 0, since := 0, bytes := [] }, { now := 60000000, module := { state := .service }, cfg := [(key 0x1120 3, 1), (key 0x4020 1, 0)], mgmt := { assembling := [{ src := 16, typ := 5, tagId := 3, prio := 1, dst := 0, seq := 0, since := 0, bytes := [] }] } }, by decide +kernel⟩

theorem meets_canBusOff : ∃ (s : State), s.module.state ≠ .off ∧ harmirOn s = true :=
  ⟨{ now := 0, module := { state := .service }, cfg := [(key 0x1120 3, 1), (key 0x4020 1, 0)], mgmt := {  } }, by decide +kernel⟩

theorem meets_canBusOffRecovery : ∃ (s : State), s.mgmt.canOff = true :=
  ⟨{ now := 0, module := { state := .service }, cfg := [(key 0x1120 3, 1), (key 0x4020 1, 0)], mgmt := { canOff := true } }, by decide +kernel⟩

theorem meets_mbReqSegment : ∃ (v : Vs) (ctrl : Nat) (s : State), mailboxUp s v = true ∧ serves s = true ∧ bit ctrl 31 = true ∧ bit ctrl 13 = true ∧ bit ctrl 12 = false ∧ ctrl < 2 ^ 32 ∧ (mailbox s v).reqBusy = false ∧ (mailbox s v).building = [] ∧ ctrl % 4096 ≠ 0 ∧ ctrl % 4096 ≤ 2048 :=
  ⟨0, at_ 31 1 + at_ 13 1 + 4, { now := 0, module := { state := .service }, cfg := [(key 0x1120 3, 1), (key 0x4020 1, 0), (key 0x3301 1, 1)], mgmt := {  } }, by decide +kernel⟩

theorem meets_mbRespTaken : ∃ (v : Vs) (s : State), bit (mailbox s v).respCtrl 31 = true :=
  ⟨0, { now := 0, module := { state := .service }, cfg := [(key 0x1120 3, 1), (key 0x4020 1, 0)], mgmt := { mailboxes := vset (Vector.replicate 32 {}) 0 { respCtrl := at_ 31 1 + 5, resp := [1#8], queue := [(7, [2#8])] } } }, by decide +kernel⟩

theorem meets_lease : ∃ (m : Msg) (s : State), witnesses s = true ∧ firstOf 0x0D [] s.mgmt.inbox = some m ∧ findLease s (leAt m.body 4 1) (leAt m.body 5 4) = none ∧ s.mgmt.leases.length < 16 :=
  ⟨{ source := 16, typ := 13, session := 0, body := leBytes 4 0 ++ [2#8] ++ leBytes 4 9 ++ leBytes 2 5 ++ leBytes 4 3 }, { now := 0, module := { state := .service }, cfg := [(key 0x1120 3, 1), (key 0x4020 1, 0), (key 0x1121 0, 1)], mgmt := { inbox := [{ source := 16, typ := 13, session := 0, body := leBytes 4 0 ++ [2#8] ++ leBytes 4 9 ++ leBytes 2 5 ++ leBytes 4 3 }] } }, by decide +kernel⟩

theorem meets_leaseRenewed : ∃ (m : Msg) (x : Lease) (s : State), witnesses s = true ∧ firstOf 0x0D [] s.mgmt.inbox = some m ∧ findLease s (leAt m.body 4 1) (leAt m.body 5 4) = some x ∧ x.term ≤ leAt m.body 11 4 ∧ x.holder = leAt m.body 9 2 :=
  ⟨{ source := 16, typ := 13, session := 0, body := leBytes 4 0 ++ [2#8] ++ leBytes 4 9 ++ leBytes 2 5 ++ leBytes 4 4 }, { kind := 2, ident := 9, holder := 5, term := 3, since := 0, live := true }, { now := 0, module := { state := .service }, cfg := [(key 0x1120 3, 1), (key 0x4020 1, 0), (key 0x1121 0, 1)], mgmt := { inbox := [{ source := 16, typ := 13, session := 0, body := leBytes 4 0 ++ [2#8] ++ leBytes 4 9 ++ leBytes 2 5 ++ leBytes 4 4 }], leases := [{ kind := 2, ident := 9, holder := 5, term := 3, since := 0, live := true }] } }, by decide +kernel⟩

theorem meets_leaseRefused : ∃ (m : Msg) (x : Lease) (s : State), witnesses s = true ∧ firstOf 0x0D [] s.mgmt.inbox = some m ∧ findLease s (leAt m.body 4 1) (leAt m.body 5 4) = some x ∧ (leAt m.body 11 4 < x.term ∨ x.holder ≠ leAt m.body 9 2) :=
  ⟨{ source := 16, typ := 13, session := 0, body := leBytes 4 0 ++ [2#8] ++ leBytes 4 9 ++ leBytes 2 6 ++ leBytes 4 4 }, { kind := 2, ident := 9, holder := 5, term := 3, since := 0, live := true }, { now := 0, module := { state := .service }, cfg := [(key 0x1120 3, 1), (key 0x4020 1, 0), (key 0x1121 0, 1)], mgmt := { inbox := [{ source := 16, typ := 13, session := 0, body := leBytes 4 0 ++ [2#8] ++ leBytes 4 9 ++ leBytes 2 6 ++ leBytes 4 4 }], leases := [{ kind := 2, ident := 9, holder := 5, term := 3, since := 0, live := true }] } }, by decide +kernel⟩

theorem meets_leaseExpiry : ∃ (slot : Fin 16) (x : Lease) (s : State), s.mgmt.leases[slot.val]? = some x ∧ x.live = true ∧ x.since + 20000000 ≤ s.now ∧ witnesses s = true ∧ claimsOn s x.kind x.ident = [] :=
  ⟨0, { kind := 2, ident := 9, holder := 5, term := 3, since := 0, live := true }, { now := 20000000, module := { state := .service }, cfg := [(key 0x1120 3, 1), (key 0x4020 1, 0), (key 0x1121 0, 1)], mgmt := { leases := [{ kind := 2, ident := 9, holder := 5, term := 3, since := 0, live := true }] } }, by decide +kernel⟩

theorem meets_claim : ∃ (m : Msg) (s : State), witnesses s = true ∧ firstOf 0x0F [] s.mgmt.inbox = some m ∧ s.mgmt.witnessOpen = true ∧ leaseLive s (leAt m.body 4 1) (leAt m.body 5 4) = false :=
  ⟨{ source := 16, typ := 15, session := 0, body := leBytes 4 0 ++ [2#8] ++ leBytes 4 9 ++ leBytes 2 5 ++ leBytes 4 3 }, { now := 0, module := { state := .service }, cfg := [(key 0x1120 3, 1), (key 0x4020 1, 0), (key 0x1121 0, 1)], mgmt := { inbox := [{ source := 16, typ := 15, session := 0, body := leBytes 4 0 ++ [2#8] ++ leBytes 4 9 ++ leBytes 2 5 ++ leBytes 4 3 }], witnessOpen := true, leases := [{ kind := 2, ident := 9, holder := 6, term := 7, since := 0, live := false }] } }, by decide +kernel⟩

theorem meets_claimWaits : ∃ (m : Msg) (s : State), witnesses s = true ∧ firstOf 0x0F [] s.mgmt.inbox = some m ∧ (s.mgmt.witnessOpen = false ∨ leaseLive s (leAt m.body 4 1) (leAt m.body 5 4) = true) :=
  ⟨{ source := 16, typ := 15, session := 0, body := leBytes 4 0 ++ [2#8] ++ leBytes 4 9 ++ leBytes 2 5 ++ leBytes 4 3 }, { now := 0, module := { state := .service }, cfg := [(key 0x1120 3, 1), (key 0x4020 1, 0), (key 0x1121 0, 1)], mgmt := { inbox := [{ source := 16, typ := 15, session := 0, body := leBytes 4 0 ++ [2#8] ++ leBytes 4 9 ++ leBytes 2 5 ++ leBytes 4 3 }] } }, by decide +kernel⟩

theorem meets_claimPendingTimeout : ∃ (slot : Fin 16) (c : PendingClaim) (s : State), s.mgmt.claims[slot.val]? = some c ∧ c.since + 25000000 ≤ s.now ∧ s.mgmt.witnessOpen = true ∧ witnesses s = true ∧ leaseLive s c.kind c.ident = true :=
  ⟨0, { source := 16, tagId := 0, kind := 2, ident := 9, claimant := 5, term := 3, since := 0 }, { now := 25000000, module := { state := .service }, cfg := [(key 0x1120 3, 1), (key 0x4020 1, 0), (key 0x1121 0, 1)], mgmt := { witnessOpen := true, claims := [{ source := 16, tagId := 0, kind := 2, ident := 9, claimant := 5, term := 3, since := 0 }], leases := [{ kind := 2, ident := 9, holder := 6, term := 7, since := 0, live := true }] } }, by decide +kernel⟩

theorem meets_witnessStartupEnd : ∃ (s : State), witnesses s = true ∧ s.mgmt.witnessOpen = false ∧ s.mgmt.witnessSince + 20000000 ≤ s.now :=
  ⟨{ now := 20000000, module := { state := .service }, cfg := [(key 0x1120 3, 1), (key 0x4020 1, 0), (key 0x1121 0, 1)], mgmt := { witnessSince := 0 } }, by decide +kernel⟩

theorem meets_witnessEarly : ∃ (s : State), s.now < s.mgmt.witnessSince + 20000000 :=
  ⟨{ now := 10000000, module := { state := .service }, cfg := [(key 0x1120 3, 1), (key 0x4020 1, 0), (key 0x1121 0, 1)], mgmt := { witnessSince := 0 } }, by decide +kernel⟩

theorem meets_tallySnapshotLaunch : ∃ (s : State), coreRuns s = true ∧ s.obs.tally.flight = none ∧ s.obs.tally.lastFt / cfgv s 0x7001 0 < s.ft / cfgv s 0x7001 0 :=
  ⟨{ now := 0, ft := 1000000000000, module := { state := .service }, cfg := [(key 0x3301 1, 1)], obs := {  } }, by decide +kernel⟩

theorem meets_tallyImageComplete : ∃ (m : TallyImage) (s : State), s.obs.tally.flight = some m :=
  ⟨{ number := 4, launch := 0, period := 9, locked := false, counters := [], priv := [], sticky := 0 }, { now := 0, ft := 0, module := { state := .service }, cfg := [(key 0x3301 1, 1)], obs := { tally := { flight := some { number := 4, launch := 0, period := 9, locked := false, counters := [], priv := [], sticky := 0 } } } }, by decide +kernel⟩

theorem meets_tallyHold : ∃ (sess : Nat) (s : State), MayAct s sess 0x7003 0 1 ∧ s.obs.tally.hold = none :=
  ⟨1, asOperator { now := 0, ft := 0, module := { state := .service }, cfg := [(key 0x3301 1, 1)], obs := {  } }, by decide +kernel⟩

theorem meets_tallyHoldEnds : ∃ (sess : Nat) (s : State), MayAct s sess 0x7003 0 0 :=
  ⟨1, asOperator { now := 0, ft := 0, module := { state := .service }, cfg := [(key 0x3301 1, 1)], obs := { tally := { hold := some 1, behind := some { number := 4, launch := 0, period := 9, locked := false, counters := [], priv := [], sticky := 0 } } } }, by decide +kernel⟩

theorem meets_tallyHoldTimeout : ∃ (n : Nat) (s : State), s.obs.tally.hold = some n ∧ s.obs.tally.holdSince + 1000000000 ≤ s.now :=
  ⟨1, { now := 1000000000, ft := 0, module := { state := .service }, cfg := [(key 0x3301 1, 1)], obs := { tally := { hold := some 1, behind := some { number := 4, launch := 0, period := 9, locked := false, counters := [], priv := [], sticky := 0 } } } }, by decide +kernel⟩

theorem meets_spoolDeliveryDeadline : ∃ (r : Ring) (s : State), (ringGet s r.val).armed = true ∧ ringEnabled s r.val = true ∧ ringMaster s r.val = true ∧ ringFull s r.val = false ∧ (ringGet s r.val).held ≠ [] ∧ r.val < 32 :=
  ⟨0, { now := 0, ft := 0, module := { state := .service }, cfg := [(key 0x3301 1, 1), (key 0x7101 1, 1), (key 0x7103 1, 6), (key 0x7102 1, 4096)], obs := { rings := vset (Vector.replicate 33 {}) 0 { armed := true, released := 0xFFFFFF, held := [{ code := 5, part := some 0, toInst := false, time := 0, info := 0 }] } }, eng := { fnBme := 1 } }, by decide +kernel⟩

theorem meets_spoolNothing : ∃ (r : Ring) (s : State), (ringGet s r.val).held = [] :=
  ⟨0, { now := 0, ft := 0, module := { state := .service }, cfg := [(key 0x3301 1, 1)], obs := {  } }, by decide +kernel⟩

theorem meets_spoolRelease : ∃ (sess : Nat) (value : Nat) (r : Ring) (s : State), MayAct s sess 0x7108 (r.val + 1) value ∧ releaseKind (ringGet s r.val) value = 0 :=
  ⟨1, 2, 0, asInstaller { now := 0, ft := 0, module := { state := .service }, cfg := [(key 0x3301 1, 1), (key 0x7101 1, 1), (key 0x7103 1, 6), (key 0x7102 1, 4096)], obs := { rings := vset (Vector.replicate 33 {}) 0 { armed := true, released := 0xFFFFFF, head := 4 } } }, by decide +kernel⟩

theorem meets_spoolMark : ∃ (sess : Nat) (r : Ring) (s : State), MayAct s sess 0x7109 (r.val + 1) 1 ∧ (ringGet s r.val).armed = true ∧ ringEnabled s r.val = true ∧ ringMaster s r.val = true ∧ ringFull s r.val = false ∧ spoolHeld s < 4096 :=
  ⟨1, 0, asInstaller { now := 0, ft := 0, module := { state := .service }, cfg := [(key 0x3301 1, 1), (key 0x7101 1, 1), (key 0x7103 1, 6), (key 0x7102 1, 4096)], obs := { rings := vset (Vector.replicate 33 {}) 0 { armed := true, released := 0xFFFFFF } }, eng := { fnBme := 1 } }, by decide +kernel⟩

theorem meets_spoolRewind : ∃ (sess : Nat) (r : Ring) (s : State), MayAct s sess 0x710B (r.val + 1) 1 ∧ (ringGet s r.val).marked = true :=
  ⟨1, 0, asInstaller { now := 0, ft := 0, module := { state := .service }, cfg := [(key 0x3301 1, 1), (key 0x7101 1, 1), (key 0x7103 1, 6), (key 0x7102 1, 4096)], obs := { rings := vset (Vector.replicate 33 {}) 0 { armed := true, released := 0xFFFFFF, marked := true, markSeq := 3 } } }, by decide +kernel⟩

theorem meets_spoolRestart : ∃ (sess : Nat) (r : Ring) (s : State), MayAct s sess 0x710C (r.val + 1) 1 :=
  ⟨1, 0, asInstaller { now := 0, ft := 0, module := { state := .service }, cfg := [(key 0x3301 1, 1), (key 0x7101 1, 1), (key 0x7103 1, 6), (key 0x7102 1, 4096)], obs := { rings := vset (Vector.replicate 33 {}) 0 { armed := true, released := 0xFFFFFF, head := 9, held := [{ code := 5, part := some 0, toInst := false, time := 0, info := 0 }] } }, eng := { fnBme := 1 } }, by decide +kernel⟩

theorem meets_spoolIntrTimeout : ∃ (r : Ring) (t0 : Nat) (s : State), r.val < 32 ∧ (ringGet s r.val).unsigSince = some t0 ∧ t0 + 100000 ≤ s.now ∧ cfgv s 0x710F (r.val + 1) ≠ 0 :=
  ⟨0, 0, { now := 100000, ft := 0, module := { state := .service }, cfg := [(key 0x3301 1, 1), (key 0x710F 1, 4)], obs := { rings := vset (Vector.replicate 33 {}) 0 { armed := true, released := 0xFFFFFF, unsigLines := 2, unsigSince := some 0 } } }, by decide +kernel⟩

theorem meets_boltCapture : ∃ (sess : Nat) (s : State), MayAct s sess 0x7203 0 1 ∧ boltCaptureCheck s = 0 :=
  ⟨1, asInstaller { now := 0, ft := 0, module := { state := .service }, cfg := [(key 0x3301 1, 1)], obs := {  } }, by decide +kernel⟩

theorem meets_boltRelease : ∃ (sess : Nat) (s : State), MayAct s sess 0x7202 0 1 ∧ s.obs.bolt.state = 3 :=
  ⟨1, asInstaller { now := 0, ft := 0, module := { state := .service }, cfg := [(key 0x3301 1, 1)], obs := { bolt := { state := 3, number := 5 } } }, by decide +kernel⟩

theorem meets_boltSectionTimeout : ∃ (s : State), s.obs.bolt.state = 1 ∧ s.obs.bolt.since + 250000000 ≤ s.now :=
  ⟨{ now := 250000000, ft := 0, module := { state := .service }, cfg := [(key 0x3301 1, 1)], obs := { bolt := { state := 1, sections := [{ typ := 3, flags := 0, body := [1#8], done := false }] } } }, by decide +kernel⟩

theorem meets_entropyFault : ∃ (s : State), s.module.state ≠ .off :=
  ⟨{ now := 0, ft := 0, module := { state := .service }, cfg := [(key 0x3301 1, 1)], obs := {  } }, by decide +kernel⟩

theorem meets_entropyRecovered : ∃ (s : State), s.module.state ≠ .off :=
  ⟨{ now := 0, ft := 0, module := { state := .service }, cfg := [(key 0x3301 1, 1)], obs := {  }, vault := { entropyOk := false } }, by decide +kernel⟩

theorem meets_ideKmKeyProg : ∃ (p : Port) (stream : Nat) (sel : Bool) (v : Nat) (s : State), portPart s p = some v ∧ isWarp s p = true ∧ partEnabled s v = true ∧ (warpPort s p).st = .active ∧ stream < 256 ∧ ideRoom s p stream sel = true :=
  ⟨0, 2, true, 0, { now := 0, ft := 0, module := { state := .service }, cfg := [(key 0x3301 1, 1), (key 0x3003 1, 1), (key 0x3101 1, 0)], obs := {  }, warp := { port := vset (Vector.replicate 128 {}) 0 { st := .active } } }, by decide +kernel⟩

theorem meets_idle : ∃ s : State, s.pending = [] ∧ coreRuns s = true ∧ s.fab.steer = 0 :=
  ⟨{ module := { state := .service } }, rfl, rfl, rfl⟩

theorem meets_pgood : ∃ s t : State, PgoodExact s ∧ StepsTo s t :=
  ⟨State.reset, tick State.reset, by unfold PgoodExact FeedPgood; decide +kernel, rfl⟩

theorem meets_memories : ∃ s t : State, Memories s ∧ StepsTo s t :=
  ⟨State.reset, tick State.reset, ⟨fun k => by
    by_cases h : k < 32
    · simp [State.reset, vget, h]
      decide
    · simp [vget, h]
      decide, by decide⟩, rfl⟩

theorem meets_queue : ∃ s t : State, StepsTo s t ∧ s.pending ≠ [] :=
  ⟨{ pending := [.hedCommitComplete] }, { }, by rfl, by decide⟩

theorem meets_queue_idle : ∃ s t : State, StepsTo s t ∧ s.pending = [] :=
  ⟨State.reset, tick State.reset, rfl, rfl⟩

theorem meets_fw3 : ∃ (l : Lane) (s : State), (laneOf s l).st = .hunting :=
  ⟨3, { lanes := { lane := vset (Vector.replicate 256 {}) 3 { st := .hunting } } }, by decide +kernel⟩

theorem meets_rights : ∃ (s : State) (h w : Nat) (a : Access), heddleCheck s h a = .region w ∧ a.kind = 2 :=
  ⟨{ now := 0, ft := 0, module := { state := .service }, cfg := [(key 0x3301 1, 1)], hed := {  }, warp := { part := vset (Vector.replicate 32 {}) 0 { st := 2 } }, vault := { debugOpen := true } }, 128, lockedWord ({ now := 0, ft := 0, module := { state := .service }, cfg := [(key 0x3301 1, 1)], hed := {  }, warp := { part := vset (Vector.replicate 32 {}) 0 { st := 2 } }, vault := { debugOpen := true } }) 58, { cls := 49, kind := 2, addr := 0xF004000000, len := 4 }, by decide +kernel⟩

theorem meets_rightsCommit : ∃ (s : State) (sess h r c : Nat), MayAct s sess 0x5000 2 1 ∧ h < 130 ∧ r < 64 ∧ lockedRegion h r = false ∧ 50 ≤ c ∧ c < 64 ∧ (bit (pendingRegion s h r) (192 + c) = true ∨ bit (pendingRegion s h r) (128 + c) = true) :=
  ⟨asInstaller { now := 0, ft := 0, module := { state := .service }, cfg := [(regionKey 3 5, at_ 242 1)], hed := {  }, warp := { part := vset (Vector.replicate 32 {}) 0 { st := 2 } } }, 1, 3, 5, 50, by decide +kernel⟩

theorem meets_zeroLength : ∃ (s : State) (it : DobItem), dobPins s = true ∧ s.dob.cycle = none ∧ s.dob.iack = none ∧ s.dob.inbound = none ∧ s.dob.lock = none ∧ s.dob.busWanted = none ∧ s.dob.items.head? = some it ∧ it.split = false ∧ enabledBytes it.tlp = [] ∧ isAtomic it.tlp = false ∧ it.tlp.kind ≠ .memReadLocked :=
  ⟨{ now := 0, module := { state := .service }, power := { vioOk := true }, cfg := [(key 0x4100 1, 5), (key 0x3301 1, 1), (key 0x6001 0, 1), (key 0x6012 1, 1)], dob := { items := [{ origin := {}, tlp := { kind := .memRead, addr := 16, len := 0, rid := 5 }, item := 4, posted := false }] }, warp := { part := vset (Vector.replicate 32 {}) 0 { st := 2 } } }, { origin := {}, tlp := { kind := .memRead, addr := 16, len := 0, rid := 5 }, item := 4, posted := false }, by decide +kernel⟩

end Sys2Proof.Tests
end

section
/-!
Time and reset (R7, R17, R214): the step on an empty queue, and the state the module starts from.
-/

namespace Sys2Proof.Scope

open Sys2Proof.Machine

/-- A nanosecond moves the clock and fabric time, and nothing else. -/
theorem tick_eq (s : State) : tick s = { s with now := s.now + 1, ft := (tick s).ft } := rfl

theorem step_of_empty {s : State} (h : s.pending = []) : step s = .next (tick s) := by
  unfold step
  rw [h]

/-- Fabric time stands while the core does not run. -/
theorem tick_ft_of_stopped {s : State} (h : coreRuns s = false) : (tick s).ft = s.ft := by simp [tick, h]

/-- Unsteered fabric time gains one nanosecond in each. -/
theorem ftGain_zero (n : Nat) : ftGain n 0 = 1 := by simp [ftGain]

theorem tick_ft_of_unsteered {s : State} (h : coreRuns s = true) (hz : s.fab.steer = 0) : (tick s).ft = s.ft + 1 := by
  simp only [tick, h, hz, ftGain_zero, if_true]
  omega

/-- Settles O47: on an empty queue a step is `tick`. -/
theorem idleStepPassesTime : Obligations.IdleStepPassesTime := by
  unfold Obligations.IdleStepPassesTime
  intro s hp
  refine ⟨(tick s).ft, ?_, tick_ft_of_stopped, tick_ft_of_unsteered⟩
  rw [step_of_empty hp, ← tick_eq]

/-- No host memory holds a byte at reset. -/
theorem reset_host (k : Nat) : vget State.reset.host k [] = [] := by
  by_cases h : k < 32 <;> simp [State.reset, vget, h]

theorem reset_memories : Memories State.reset :=
  ⟨fun k => by rw [reset_host]; exact Memory.wf_nil, Memory.wf_nil⟩

/-- At reset both feeds are OFF and release PGOOD_x. -/
theorem reset_pgoodExact : PgoodExact State.reset := by
  unfold PgoodExact FeedPgood
  decide

/-- Settles O48: the values of `State.reset`. -/
theorem resetState : Obligations.ResetState := by
  unfold Obligations.ResetState
  exact ⟨rfl, rfl, rfl, rfl, reset_pgoodExact, reset_memories, rfl, rfl, rfl, rfl⟩

end Sys2Proof.Scope
end

section
/-!
The warm reset and the test entries (R21, R353, R434, R435), and the end of an image's trial (R444).
-/

namespace Sys2Proof.Scope

open Sys2Proof.Machine Sys2Proof.Laws

/-! ### The start and the drain (R434) -/

/-- With nothing else under way the warm reset starts its drain. -/
theorem requestWarm_module {s : State} {cause : Nat} (hw : s.module.warm = none) (hp : s.module.pause = none)
    (hf : s.mgmt.inFlash = none) : (requestWarm s cause).module = { s.module with
      warm := some .drain, warmCause := cause, warmSince := s.now, warmHeld := none, drainStart := s.shu.ledger.length } := by
  simp [requestWarm, startWarm, setModule, hw, hp, hf]

theorem warmResetCmd_drains {sess : Nat} {s : State} (h : MayAct s sess 0x1340 1 1) (hs : warmStates s.module.state = true)
    (hw : s.module.warm = none) (hf : s.mgmt.inFlash = none) :
    Leaves (.warmResetCmd sess 1) s fun t => t.module = { s.module with
      warm := some .drain, warmCause := 1, warmSince := s.now, warmHeld := none, drainStart := s.shu.ledger.length } := by
  refine ⟨_, rfl, ?_⟩
  dsimp only
  rw [actWrite_done h (by simp [hs]), onOne_one, emit_module, actWarmReset, requestWarm_module] <;>
    simp [hw, hf, h.1]

theorem warmResetDrainEnd_done {s : State} (hw : s.module.warm = some .drain)
    (he : s.win.posting = [] ∧ s.shu.ledger = [] ∨ s.module.warmSince + 10000000 ≤ s.now) :
    Leaves (.warmResetDrainEnd) s fun t => t.module.warm = some .reset ∧ t.module.warmSince = s.now ∧
      t.module.drained = s.module.drainStart - s.shu.ledger.length ∧ t.module.recorded = s.shu.ledger.length ∧
      t.module.state = s.module.state := by
  refine ⟨_, rfl, ?_⟩
  have hc : ((s.win.posting.isEmpty && s.shu.ledger.isEmpty) || elapsed s s.module.warmSince (10 * ms)) = true := by
    rcases he with ⟨hp, hl⟩ | ht
    · simp [hp, hl]
    · simp [elapsed, ms, ht]
  simp [warmResetDrainEnd, hw, hc, setModule]

/-! ### The core goes down (R434): the feeds stand -/

/-- A fold leaves what each of its steps leaves. -/
theorem foldl_stands {α β : Type} {f : State → α → State} {g : State → β} (h : ∀ u a, g (f u a) = g u) (l : List α) (s : State) :
    g (l.foldl f s) = g s := by
  induction l generalizing s with
  | nil => rfl
  | cons a l ih => rw [List.foldl_cons, ih, h]

@[simp] theorem refuseQueue_power (s : State) (p : Nat) : (refuseQueue s p).power = s.power :=
  (refuseQueue_keeps (mk := 7502720) (Keeps.refl s) (by decide)).power (by decide)
@[simp] theorem failSent_power (s : State) (p : Nat) : (failSent s p).power = s.power :=
  (failSent_keeps (mk := 7371648) (Keeps.refl s) (by decide)).power (by decide)
@[simp] theorem surpriseEnd_power (s : State) (p : Nat) (st : WarpSt) : (surpriseEnd s p st).power = s.power :=
  (surpriseEnd_keeps (mk := 7364864) (Keeps.refl s) (by decide)).power (by decide)
@[simp] theorem tellExporter_power (s : State) (v n : Nat) : (tellExporter s v n).power = s.power :=
  (tellExporter_keeps (mk := 2048) (Keeps.refl s) (by decide)).power (by decide)
@[simp] theorem resetFunctions_power (s : State) (v : Nat) : (resetFunctions s v).power = s.power :=
  (resetFunctions_keeps (mk := 7758088) (Keeps.refl s) (by decide)).power (by decide)
@[simp] theorem dropTargets_power (s : State) (v : Nat) : (dropTargets s v).power = s.power :=
  (dropTargets_keeps (mk := 7365504) (Keeps.refl s) (by decide)).power (by decide)
@[simp] theorem deliverPosted_power (s : State) (v p : Nat) : (deliverPosted s v p).power = s.power :=
  (deliverPosted_keeps (mk := 7502720) (Keeps.refl s) (by decide)).power (by decide)
@[simp] theorem orphanAll_power (s : State) (v : Nat) : (orphanAll s v).power = s.power :=
  (orphanAll_keeps (mk := 137984) (Keeps.refl s) (by decide)).power (by decide)
@[simp] theorem endSessions_power (s : State) (f : Session → Bool) (c : Nat) : (endSessions s f c).power = s.power :=
  (endSessions_keeps (mk := 7626760) (Keeps.refl s) (by decide)).power (by decide)
@[simp] theorem exportedReset_power (s : State) (p c : Nat) : (exportedReset s p c).power = s.power :=
  (exportedReset_keeps (mk := 8027008) (Keeps.refl s) (by decide)).power (by decide)

/-- A slot's own power is a register of its bridge, not a feed. -/
@[simp] theorem resetSlot_power (s : State) (p : Nat) : (resetSlot s p).power = s.power := by
  unfold resetSlot
  split <;> rfl

@[simp] theorem resetLink_power (cause : Nat) (s : State) (p : Nat) : (resetLink cause s p).power = s.power := by
  simp only [resetLink, apply_ite State.power, refuseQueue_power, failSent_power, assertSlotPerst_power, resetSlot_power,
    setWarp_power, warpLinkGone_power, emit_power, surpriseEnd_power, ite_self]

theorem resetPartition_power (s : State) (v source : Nat) : (resetPartition s v source).power = s.power := by
  simp only [resetPartition, apply_ite State.power, event_power, tellExporter_power, freeSemaphores_power, dropProxies_power,
    resetFunctions_power, foldl_stands (g := State.power) (resetLink_power _), dropTargets_power,
    foldl_stands (g := State.power) (deliverPosted_power · v ·), discardPartIde_power, orphanAll_power, setPart_power,
    spoolDisarm_power, resetWindows_power, ite_self]

theorem coreDown_power (s : State) : (coreDown s).power = s.power := by
  simp only [coreDown]
  rw [foldl_stands (g := State.power) (exportedReset_power · · 5), foldl_stands (g := State.power), endSessions_power]
  intro u v
  split
  · exact resetPartition_power u v 5
  · rfl

/-! ### The core reset (R7, R21, R434) -/

/-- `t` has the configuration, stored and in force, and the feeds of `s`; fabric time, windows, heddles, loom and fabric are at their
reset values, and no warm reset and no image is under way. -/
structure CoreFresh (s t : State) : Prop where
  cfg : t.cfg = s.cfg
  flash : t.flash = s.flash
  power : t.power = s.power
  ft : t.ft = 0
  win : t.win = {}
  hed : t.hed = {}
  loom : t.loom = {}
  fab : t.fab = {}
  warm : t.module.warm = none
  started : t.module.started = false

theorem coreReset_fresh (s : State) : CoreFresh s (coreReset s) := ⟨rfl, rfl, rfl, rfl, rfl, rfl, rfl, rfl, rfl, rfl⟩

/-- What changes only the vault and the dobby, the blocks of this mask, leaves the core fresh. -/
theorem CoreFresh.keeps {s t u : State} (h : CoreFresh s t) (k : Keeps 655360 t u) : CoreFresh s u where
  cfg := (k.cfg (by decide)).trans h.cfg
  flash := (k.flash (by decide)).trans h.flash
  power := (k.power (by decide)).trans h.power
  ft := (k.ft (by decide)).trans h.ft
  win := (k.win (by decide)).trans h.win
  hed := (k.hed (by decide)).trans h.hed
  loom := (k.loom (by decide)).trans h.loom
  fab := (k.fab (by decide)).trans h.fab
  warm := by rw [k.module (by decide), h.warm]
  started := by rw [k.module (by decide), h.started]

theorem coreDown_configuration (s : State) : (noteCommit (coreDown s)).cfg = s.cfg ∧ (noteCommit (coreDown s)).flash = s.flash ∧
    (noteCommit (coreDown s)).power = s.power := by
  have hd := coreDown_keeps (mk := 8289176) (Keeps.refl s) (by decide)
  have hn := noteCommit_keeps (mk := 8) (Keeps.refl (coreDown s)) (by decide)
  exact ⟨(hn.cfg (by decide)).trans (hd.cfg (by decide)), (hn.flash (by decide)).trans (hd.flash (by decide)),
    (hn.power (by decide)).trans (coreDown_power s)⟩

/-! ### Records of a module that is not live wait (R525): no ring is written, so no heddle is asked -/

theorem putEvent_hed {s : State} (h : HeldEvent) (hl : s.obs.live = false) : (putEvent s h).hed = s.hed := by
  simp only [putEvent, hl, Bool.not_false, if_true]
  split
  · split <;> rfl
  · split <;> rfl

theorem event_hed {s : State} (code inst info : Nat) (hl : s.obs.live = false) : (event s code inst info).hed = s.hed := by
  unfold event eventFull
  split
  · rfl
  · exact putEvent_hed _ hl

/-- An entry in the journal makes no record live. -/
theorem journal_live (s : State) (e : JournalEntry) : (journal s e).obs.live = s.obs.live := by
  have h : ∀ (o : ObsBlk) (js : List JournalEntry) (n : Nat), { o with journal := js, journalNext := n }.live = o.live :=
    fun _ _ _ => rfl
  exact h s.obs _ _

theorem changeState_boot_hed {s : State} (c : Nat) (hl : s.obs.live = false) : (changeState s .boot c).hed = s.hed := by
  by_cases h : s.module.state = .boot
  · simp [changeState, h]
  · simp only [changeState, if_neg h, apply_ite State.hed, putEvent_hed, event_hed, journalChange, journal_live, journal_hed, hl, ite_self]

/-- Entering BOOT starts no warm reset and no image. -/
theorem changeState_boot_idle {s : State} (c : Nat) (hw : s.module.warm = none) (hs : s.module.started = false) :
    (changeState s .boot c).module.warm = none ∧ (changeState s .boot c).module.started = false := by
  by_cases h : s.module.state = .boot
  · simp [changeState, h, hw, hs]
  · rw [changeState_module h]
    exact ⟨hw, hs⟩

/-- A fresh core enters BOOT and stays fresh. -/
theorem CoreFresh.boot {s t : State} (h : CoreFresh s t) (hl : t.obs.live = false) (c : Nat) : CoreFresh s (changeState t .boot c) := by
  obtain ⟨hw, hs⟩ := changeState_boot_idle c h.warm h.started
  exact ⟨by simpa using h.cfg, by simpa using h.flash, by simpa using h.power, by simpa using h.ft, by simpa using h.win,
    (changeState_boot_hed c hl).trans h.hed, by simpa using h.loom, by simpa using h.fab, hw, hs⟩

/-- A new key of the beam where zeroisation erased the old, a new nonce, and SYSRESET: the vault and the dobby. -/
theorem coreReset_drives_keeps (s : State) :
    Keeps 655360 s (driveSysreset (newDebugNonce (if s.vault.beamKey.isNone then newBeamKey s else s))) :=
  driveSysreset_keeps (newDebugNonce_keeps (Keeps.ite (newBeamKey_keeps (Keeps.refl s) (by decide)) (Keeps.refl s)) (by decide))
    (by decide)

theorem warmResetCoreReset_fresh {s : State} (hw : s.module.warm = some .reset) (ht : s.module.warmSince + 1000000 ≤ s.now) :
    CoreFresh s (warmResetCoreReset s) ∧ (warmResetCoreReset s).module.state = .boot := by
  have he : elapsed s s.module.warmSince ms = true := decide_eq_true ht
  obtain ⟨hc, hf, hp⟩ := coreDown_configuration s
  have hr := coreReset_fresh (noteCommit (coreDown s))
  have hk := coreReset_drives_keeps (coreReset (noteCommit (coreDown s)))
  have hr' : CoreFresh s (coreReset (noteCommit (coreDown s))) :=
    { hr with cfg := hr.cfg.trans hc, flash := hr.flash.trans hf, power := hr.power.trans hp }
  simp only [warmResetCoreReset, hw, he, Bool.and_true, decide_true, if_true]
  exact ⟨(hr'.keeps hk).boot (by rw [hk.obs (by decide)]; rfl) _, changeState_state _ _ _⟩

/-! ### TEST (R435) -/

/-- A time at least 10 ms ahead is taken. -/
theorem testEnterCheck_scheduled {s : State} {sess : Nat} (h0 : param s sess 0x1340 3 ≠ 0)
    (ht : s.ft + 10000000 ≤ param s sess 0x1340 3) : testEnterCheck s sess = 0 := by
  have hn : ¬ param s sess 0x1340 3 < s.ft + 10 * ms := by simpa [ms] using ht
  simp [testEnterCheck, h0, hn]

theorem testEnterCmd_waits {sess : Nat} {s : State} (h : MayAct s sess 0x1340 2 1) (h0 : param s sess 0x1340 3 ≠ 0)
    (ht : s.ft + 10000000 ≤ param s sess 0x1340 3) :
    Leaves (.testEnterCmd sess 1) s fun t => t.module = { s.module with testAt := some (param s sess 0x1340 3) } := by
  refine ⟨_, rfl, ?_⟩
  dsimp only
  rw [actWrite_done h (by simp [testEnterCheck_scheduled h0 ht]), onOne_one, emit_module]
  simp [actTestEnter, h0, setModule]

/-- In CONFIG with no warm reset under way the entry is immediate. -/
theorem enterTest_config {s : State} (b : Bool) (hs : s.module.state = .config) (hw : s.module.warm = none) :
    (enterTest b s).module = { s.module with state := .test, since := s.now } := by
  have hne : s.module.state ≠ .test := by simp [hs]
  unfold enterTest
  simp [hs, hw, changeState_module hne]

theorem testEntryTime_enters {t0 : Nat} {s : State} (hs : s.module.state = .config) (ha : s.module.testAt = some t0)
    (ht : t0 ≤ s.ft) (hw : s.module.warm = none) :
    Leaves (.testEntryTime) s fun t => t.module.state = .test ∧ t.module.testAt = none ∧ t.module.since = s.now := by
  refine ⟨_, rfl, ?_⟩
  have hr : coreRuns s = true := by simp [coreRuns, hs]
  have he := enterTest_config (s := setModule s { s.module with testAt := none }) true hs hw
  simp only [testEntryTime, ha, hr, ht, decide_true, Bool.and_self, if_true]
  rw [he]
  exact ⟨rfl, rfl, rfl⟩

/-! ### The end of a trial (R444) -/

/-- The image stays, its mark goes. -/
theorem trialEnd_module {t0 : Nat} {s : State} (hk : s.module.running < 2) (ht : (fwSlot s s.module.running).trial = true)
    (hs : s.module.trialSince = some t0) (he : t0 + trialTime ≤ s.now) : (trialEnd s).module = (setModule s { s.module with
      trialSince := none
      slots := vset s.module.slots s.module.running { fwSlot s s.module.running with trial := false } }).module := by
  simp [trialEnd, onTrial, elapsedOpt, hk, ht, hs, he, setModule, setFwSlot]

theorem trialEnd_leaves {t0 : Nat} {s : State} (hk : s.module.running < 2) (ht : (fwSlot s s.module.running).trial = true)
    (hs : s.module.trialSince = some t0) (he : t0 + trialTime ≤ s.now) :
    Leaves (.trialEnd) s fun t => t.module.trialSince = none ∧ (fwSlot t s.module.running).trial = false ∧
      (fwSlot t s.module.running).st = (fwSlot s s.module.running).st ∧ t.module.state = s.module.state := by
  have hm := trialEnd_module hk ht hs he
  have hslot : fwSlot (trialEnd s) s.module.running = { fwSlot s s.module.running with trial := false } := by
    rw [fwSlot_congr (congrArg ModBlk.slots hm)]
    exact vget_vset_same _ _ _ _ hk
  refine ⟨trialEnd s, rfl, ?_⟩
  dsimp only
  rw [hslot, hm]
  exact ⟨rfl, rfl, rfl, rfl⟩

/-- Settles O7, a lemma for each command. -/
theorem warmResetSteps : Obligations.WarmResetSteps := by
  unfold Obligations.WarmResetSteps
  refine ⟨fun _ _ h hs hw hf => warmResetCmd_drains h hs hw hf, fun _ hw he => warmResetDrainEnd_done hw he, fun s hw ht => ?_,
    fun _ _ h h0 ht => testEnterCmd_waits h h0 ht, fun _ _ hs ha ht hw => testEntryTime_enters hs ha ht hw,
    fun _ _ hk ht hs he => trialEnd_leaves hk ht hs he⟩
  obtain ⟨h, hb⟩ := warmResetCoreReset_fresh hw ht
  exact ⟨warmResetCoreReset s, rfl, hb, h.warm, h.started, h.cfg, h.flash, h.ft, h.win, h.hed, h.loom, h.fab, h.power⟩

end Sys2Proof.Scope
end

section
/-!
What the end of a step does to sessions (R458, R463): it ends some, and changes nothing in those that stay open.
-/

namespace Sys2Proof.Scope

open Sys2Proof.Machine Sys2Proof.Laws

/-- From `s` to `t` sessions only end: one that is open in `t` stands as it was in `s`. -/
def SessionsEnd (s t : State) : Prop := ∀ n x, sessionOf t n = some x → sessionOf s n = some x

theorem SessionsEnd.refl (s : State) : SessionsEnd s s := fun _ _ h => h

theorem SessionsEnd.trans {s t u : State} (h : SessionsEnd s t) (k : SessionsEnd t u) : SessionsEnd s u :=
  fun n x e => h n x (k n x e)

theorem SessionsEnd.of_sessions {s t : State} (h : t.mgmt.sessions = s.mgmt.sessions) : SessionsEnd s t :=
  fun n x e => by rwa [sessionOf, h] at e

/-- No session ends where the block that holds them stands; the mask is every block but that one. -/
theorem SessionsEnd.of_keeps {s t : State} (h : Keeps 8126463 s t) : SessionsEnd s t :=
  .of_sessions (congrArg MgmtBlk.sessions (h.mgmt (by decide)))

theorem SessionsEnd.keeps {s t u : State} (h : SessionsEnd s t) (k : Keeps 8126463 t u) : SessionsEnd s u := h.trans (.of_keeps k)

theorem SessionsEnd.foldl {α : Type} {f : State → α → State} (h : ∀ u a, SessionsEnd u (f u a)) (l : List α) (s : State) :
    SessionsEnd s (l.foldl f s) := by
  induction l generalizing s with
  | nil => exact .refl s
  | cons a l ih => exact (h s a).trans (ih (f s a))

theorem SessionsEnd.ite {s t u : State} {c : Prop} [Decidable c] (h : SessionsEnd s t) (k : SessionsEnd s u) :
    SessionsEnd s (if c then t else u) := by
  split
  · exact h
  · exact k

/-! ### Where sessions end -/

theorem endSession_sessions (s : State) (num cause : Nat) :
    (endSession s num cause).mgmt.sessions = s.mgmt.sessions.filter fun y => y.num ≠ num := by
  unfold endSession
  split
  · next h =>
    refine (List.filter_eq_self.mpr fun y hy => ?_).symm
    simpa using List.find?_eq_none.mp h y hy
  · simp only [event_mgmt, apply_ite State.mgmt, releaseHold, ite_self]

/-- A session that ends is gone, and every other stands. -/
theorem endSession_end (s : State) (num cause : Nat) : SessionsEnd s (endSession s num cause) := by
  intro n x h
  rw [sessionOf, endSession_sessions, List.find?_filter] at h
  have hx := List.find?_some h
  have hn : n ≠ num := by
    simp only [ne_eq, decide_not, Bool.not_eq_true', decide_eq_false_iff_not, decide_eq_true_eq] at hx
    exact fun e => hx.1 (hx.2.trans e)
  rw [← h, sessionOf]
  congr 1
  funext y
  by_cases hy : y.num = n <;> simp [hy, hn]

theorem endSessions_end (s : State) (f : Session → Bool) (cause : Nat) : SessionsEnd s (endSessions s f cause) :=
  .foldl (fun u n => endSession_end u n cause) _ s

theorem flrStart_mgmt (s : State) (i : Nat) (ending : Bool) : (flrStart s i ending).mgmt = s.mgmt := by
  unfold flrStart
  split
  · rfl
  · exact (finishWaits_keeps (mk := 2121984) (fnCleared_keeps (Keeps.refl _) (by decide)) (by decide)).mgmt (by decide)

theorem vfDisable_end (v : Nat) (s : State) : SessionsEnd s (vfDisable v s) := by
  unfold vfDisable
  refine .ite (.refl s) (.trans (t := setAdm s v { admOf s v with vfs := 0 }) (.of_sessions rfl) (.foldl (fun u i => ?_) _ _))
  exact .of_sessions (by rw [flrStart_mgmt])

theorem resetFunctions_end (s : State) (v : Nat) : SessionsEnd s (resetFunctions s v) := by
  unfold resetFunctions
  extract_lets s1 s2 _ _ _ s3 _ s4 _ s5
  have h1 : SessionsEnd s s1 := vfDisable_end v s
  have h5 : SessionsEnd s1 s5 := .of_sessions rfl
  exact h1.trans (h5.trans (endSessions_end s5 _ 3))

/-- What a partition reset does before and after its functions touches no session. -/
theorem resetPartition_end (s : State) (v source : Nat) : SessionsEnd s (resetPartition s v source) := by
  unfold resetPartition
  refine .ite (.refl s) (.ite (.of_sessions rfl) ?_)
  extract_lets disarmed _ marked orphaned discarded dropped unlinked freed
  have hd : Keeps 8126463 s discarded := discardPartIde_keeps (orphanAll_keeps (setPart_keeps (spoolDisarm_keeps
    (resetWindows_keeps (Keeps.refl s) (by decide)) (by decide)) (by decide)) (by decide)) (by decide)
  have hq : Keeps 8126463 s dropped :=
    dropTargets_keeps (Keeps.foldl hd _ fun u p h => deliverPosted_keeps h (by decide)) (by decide)
  have hu : Keeps 8126463 s unlinked := Keeps.foldl hq _ fun u p h => resetLink_keeps h (by decide)
  have hf : Keeps 8126463 (resetFunctions unlinked v) freed :=
    freeSemaphores_keeps (dropProxies_keeps (Keeps.refl _) (by decide)) (by decide)
  exact ((SessionsEnd.of_keeps hu).trans (resetFunctions_end unlinked v)).keeps
    (event_keeps (tellExporter_keeps hf (by decide)) (by decide))

theorem importLost_end (s : State) (v : Nat) : SessionsEnd s (importLost s v) := by
  unfold importLost
  split
  · exact .ite (resetPartition_end s v 3) (.refl s)
  · exact .refl s

theorem importsFollowed_end (s : State) : SessionsEnd s (importsFollowed s) :=
  .foldl (fun u a => .trans (.ite (importLost_end u _) (.refl u)) (.of_keeps (exportLost_keeps (Keeps.refl _) (by decide)))) _ s

/-- A reset of the management function ends the mailbox session of its partition. -/
theorem pfFlr_end (v : Nat) (s : State) : SessionsEnd s (pfFlr v s) := by
  unfold pfFlr
  extract_lets s1 s2 _ s3 s4 ws s5 owned _ s6 cs
  have h3 : Keeps 8126463 (vfDisable v s) s3 :=
    Keeps.eng' (setAdm_keeps (fnCleared_keeps (Keeps.refl _) (by decide)) (by decide)) _ (by decide)
  have h5 : Keeps 8126463 s4 s5 := Keeps.foldl (Keeps.refl s4) _ fun u r h => startRevoke_keeps (winEvent_keeps h (by decide)) (by decide)
  have h6 : Keeps 8126463 s4 s6 := Keeps.win' h5 _ (by decide)
  exact (((vfDisable_end v s).keeps h3).trans (endSessions_end s3 _ 3)).keeps
    (Keeps.foldl h6 cs fun u c h => ownerClose_keeps h (by decide))

theorem mgmtConfigWrite_end (s : State) (v dw old new be : Nat) : SessionsEnd s (mgmtConfigWrite s v dw old new be) := by
  unfold mgmtConfigWrite
  split
  · exact .of_sessions rfl
  · exact .of_sessions rfl
  · exact .ite (pfFlr_end v s) (.refl s)
  · exact .ite (.of_keeps (vfEnable_keeps (Keeps.refl s) (by decide))) (.ite (vfDisable_end v s) (.refl s))
  · exact .refl s

theorem configWrite_end (s : State) (v fn dw new be : Nat) : SessionsEnd s (configWrite s v fn dw new be) := by
  unfold configWrite
  refine .trans (t := setCfgReg s v fn dw (cfgMerge fn dw (cfgReg s v fn dw) new be)) (.of_sessions rfl) ?_
  refine .ite (.of_keeps (receiveWrite_keeps (Keeps.refl _) (by decide))) (.ite (.of_keeps (marginWrite_keeps (Keeps.refl _) (by decide)))
    (.ite (mgmtConfigWrite_end _ _ _ _ _ _) (.ite (.ite ?_ (.refl _)) ?_)))
  · split
    · exact .of_sessions (by rw [vfFlr, flrStart_mgmt])
    · exact .refl _
  · split
    · exact .of_keeps (bridgeWrite_keeps (Keeps.refl _) (by decide))
    · exact .refl _

theorem ownerNotice_end (s : State) (v : Nat) (t : Tlp) : SessionsEnd s (ownerNotice s v t) := by
  unfold ownerNotice
  split
  · exact resetPartition_end s v 3
  · exact .ite (.refl s) (configWrite_end _ _ _ _ _ _)
  · exact .refl s

theorem ownerArrival_end (s : State) (v : Nat) (t : Tlp) : SessionsEnd s (ownerArrival s v t) :=
  .ite (.refl s) (.ite (ownerNotice_end s v t) (.ite (.refl s) (.of_keeps (acceptTlp_keeps (Keeps.refl s) (by decide)))))

theorem tunnelArrived_end (s : State) (r : Nat × Nat × Option Nat × Tlp) : SessionsEnd s (tunnelArrived s r) := by
  unfold tunnelArrived
  refine .trans ?_ (.of_keeps (handOver_keeps (Keeps.refl _) (by decide)))
  split
  · exact ownerArrival_end _ _ _
  · exact .of_keeps (exporterArrival_keeps (Keeps.refl s) (by decide))
  · exact .refl s

theorem tunnelSettled_end (s : State) : SessionsEnd s (tunnelSettled s) :=
  .trans (.of_sessions rfl) (.foldl tunnelArrived_end _ _)

/-- What follows a command in its step only ends sessions. -/
theorem settle_end (s : State) : SessionsEnd s (settle s) :=
  .trans (.of_keeps (heldSettled_keeps (lateDropsSent_keeps (weftSettled_keeps (Keeps.refl s) (by decide)) (by decide)) (by decide)))
    (.trans (tunnelSettled_end _) (.trans (.of_keeps (engineSettled_keeps (Keeps.refl _) (by decide))) (.trans (importsFollowed_end _)
      (.of_keeps (health_keeps (denialsRecorded_keeps (dobbySettled_keeps (errorsSent_keeps (Keeps.refl _) (by decide)) (by decide))
        (by decide)) (by decide))))))

/-! ### The counterexample: the value that is staged is not the value that is written -/

/-- An installer's session with nothing pending. -/
def installer : Session := { slot := 1, num := 1, role := 2, source := 16 }

/-- A module in CONFIG that serves it. -/
def installing : State := { module := { state := .config }, mgmt := { sessions := [installer] } }

/-- The row of WEFT_TC_ENABLE, whose bit 0 always reads 1 (R107). -/
def tcEnableRow : ObjRow := ⟨0x3204, 1, 128, 7, 0, 61, 255, 1, []⟩

/-- A write of 0 to WEFT_TC_ENABLE of P0 meets every premise of a direct write. -/
theorem installing_mayStage : installing.module.pause = none ∧ sessionOf installing 1 = some installer ∧
    objRow 0x3204 1 = some tcEnableRow ∧ tcEnableRow.kind = .config ∧ writeStatus installing installer tcEnableRow 0x3204 1 0 = 0 ∧
    typeBytes tcEnableRow.typ tcEnableRow.len ≤ 65536 ∧ installer.staged = [] ∧ committing installing installer.num = false := by
  decide +kernel

/-- A write of 0 stages 1, and the session is open still at the end of the step. -/
theorem installing_stages_one : (sessionOf (settle (objectWrite 1 0x3204 1 0 installing)) 1).map (fun y => y.staged) =
    some [(key 0x3204 1, 1)] := by
  decide +kernel

/-- Whatever a step's effect left, a session that the step's end shows has the pending set that the effect left it. -/
theorem staged_of_settle {u : State} {n : Nat} {l : List (Nat × Nat)} (h : (sessionOf (settle u) n).map (fun y => y.staged) = some l) :
    (sessionOf u n).map (fun y => y.staged) = some l := by
  obtain ⟨x, hx, hl⟩ := Option.map_eq_some_iff.mp h
  rw [settle_end u n x hx, Option.map_some, hl]

theorem registerWrite_settles {s : State} (sess ix sub v : Nat) (h : s.module.pause = none) :
    exec (.registerWrite sess ix sub v) s = .next (settle (objectWrite sess ix sub v s)) := by
  have he : registerWrite sess ix sub v s = settle (objectWrite sess ix sub v s) := by simp [registerWrite, h]
  rw [← he]
  rfl

/-- Refutes O40, at its third clause: a direct write of 0 to WEFT_TC_ENABLE stages 1, since bit 0 of that object always reads 1 (R107)
and the model stages `plainValue`, with the reserved and fixed bits set; the clause has the value as written join the set. -/
theorem not_objectTransactions : ¬ Obligations.ObjectTransactions := by
  unfold Obligations.ObjectTransactions
  rintro ⟨-, -, h, -⟩
  obtain ⟨hp, hx, hr, hk, hw, hb, hs, hc⟩ := installing_mayStage
  obtain ⟨u, he, hu, -⟩ := h 1 0x3204 1 0 installer tcEnableRow installing hp hx hr hk hw hb hs hc
  rw [registerWrite_settles 1 0x3204 1 0 hp] at he
  have hone := installing_stages_one
  rw [Host.Outcome.next.inj he] at hone
  replace hone := staged_of_settle hone
  rw [hu] at hone
  exact absurd hone (by decide +kernel)

end Sys2Proof.Scope
end

section
/-!
How a feed starts (R18, R414, R416, R421, R423): the commands that take it out of OFF, WAIT, RAMP and QUALIFY.
-/

namespace Sys2Proof.Scope

open Sys2Proof.Machine

/-! ### Out of OFF (R18) -/

/-- The supplies as SUPPLY_RISE leaves them: both feeds started, VKEEP measured. -/
def suppliesRisen (s : State) (vkeepMv aMv bMv : Nat) : State :=
  { s with power := { s.power with a := startFeed s .a aMv, b := startFeed s .b bMv, vkeepMv := vkeepMv, vkeepOk := decide (2700 ≤ vkeepMv) } }

/-- The reports of SUPPLY_RISE leave what the supervisor and KEEPER have set. -/
theorem supplyRise_blocks {vkeepMv aMv bMv : Nat} {s : State} (hs : s.module.state = .off)
    (hv : 2700 ≤ vkeepMv ∨ 2700 ≤ aMv ∨ 2700 ≤ bMv) :
    (supplyRise vkeepMv aMv bMv s).power = (suppliesRisen s vkeepMv aMv bMv).power ∧
      (supplyRise vkeepMv aMv bMv s).module = { s.module with state := .keeper, since := s.now, keeperSince := s.now } := by
  have hm := changeState_module (s := suppliesRisen s vkeepMv aMv bMv) (new := .keeper) (c := 0) (by simp [suppliesRisen, hs])
  unfold supplyRise
  rw [if_pos ⟨hs, hv⟩]
  dsimp only
  split
  · exact ⟨by simp only [event_power, changeState_power, suppliesRisen], by rw [event_module]; exact hm⟩
  · exact ⟨by simp only [changeState_power, suppliesRisen], hm⟩

theorem supplyRise_starts {vkeepMv aMv bMv : Nat} {s : State} (hs : s.module.state = .off)
    (hv : 2700 ≤ vkeepMv ∨ 2700 ≤ aMv ∨ 2700 ≤ bMv) :
    Leaves (.supplyRise vkeepMv aMv bMv) s fun t => t.module.state = .keeper ∧ t.module.keeperSince = s.now ∧
      t.power.a = startFeed s .a aMv ∧ t.power.b = startFeed s .b bMv ∧ t.power.vkeepMv = vkeepMv ∧
      (t.power.vkeepOk = true ↔ 2700 ≤ vkeepMv) := by
  obtain ⟨hp, hm⟩ := supplyRise_blocks hs hv
  refine ⟨supplyRise vkeepMv aMv bMv s, rfl, ?_⟩
  dsimp only
  rw [hp, hm]
  exact ⟨rfl, rfl, rfl, rfl, rfl, decide_eq_true_iff⟩

/-! ### Out of WAIT (R414, R416, R421) -/

/-- The feed as FEED_RAMP_START leaves it: sampled, and in RAMP with its counts anew. -/
def feedRamping (s : State) (f : Feed) (mv outMv : Nat) : FeedState :=
  { (feedOf s f).sample s.now mv with
    outMv := outMv, st := .ramp, since := s.now, clearSince := s.now, gateCount := 0, rampUs := cfgv s 0x2004 (feedSub f) }

/-- A sample inside the thresholds keeps the time since which the feed is there. -/
theorem sample_inSince {x : FeedState} {now mv t0 : Nat} (h : x.inSince = some t0) (hm : inThresholds mv = true) :
    (x.sample now mv).inSince = some t0 := by
  simp [FeedState.sample, hm, h]

theorem setFeed_setFeed (s : State) (f : Feed) (x y : FeedState) : setFeed (setFeed s f x) f y = setFeed s f y := by cases f <;> rfl

theorem feedRampStart_power {f : Feed} {mv outMv t0 : Nat} {s : State} (hs : (feedOf s f).st = .wait)
    (hi : (feedOf s f).inSince = some t0) (ht : t0 + 10000000 ≤ s.now) (hl : 2650 < mv) (hh : mv < 14200)
    (ho : outMv * 10 ≤ mv * 9) : (feedRampStart f mv outMv s).power = (setFeed s f (feedRamping s f mv outMv)).power := by
  have hm : inThresholds mv = true := by simp [inThresholds, hl, hh]
  have hn : shorted mv outMv = false := by simp [shorted, ho]
  have hx : ((feedOf s f).sample s.now mv).st = .wait := hs
  have hc : elapsedOpt (setFeed s f { (feedOf s f).sample s.now mv with outMv := outMv }) ((feedOf s f).sample s.now mv).inSince
      (10 * ms) = true := by
    rw [sample_inSince hi hm]
    simpa [elapsedOpt, ms] using ht
  unfold feedRampStart
  dsimp only
  rw [if_pos ⟨hx, hm, hc⟩, hn, if_neg Bool.false_ne_true, feedEvent_power, feedCount_power]
  rw [setFeed_setFeed]
  simp only [feedRamping, FeedState.enter, setFeed_now, cfgv, setFeed_cfg]

theorem feedRampStart_ramps {f : Feed} {mv outMv t0 : Nat} {s : State} (hs : (feedOf s f).st = .wait)
    (hi : (feedOf s f).inSince = some t0) (ht : t0 + 10000000 ≤ s.now) (hl : 2650 < mv) (hh : mv < 14200)
    (ho : outMv * 10 ≤ mv * 9) :
    Leaves (.feedRampStart f mv outMv) s fun t => (feedOf t f).st = .ramp ∧ (feedOf t f).since = s.now ∧ (feedOf t f).mv = mv ∧
      (feedOf t f).outMv = outMv ∧ (feedOf t f).gateCount = 0 ∧ (feedOf t f).trips = (feedOf s f).trips ∧
      (feedOf t f).pgood = (feedOf s f).pgood ∧ feedOf t (otherFeed f) = feedOf s (otherFeed f) := by
  have hp := feedRampStart_power hs hi ht hl hh ho
  refine ⟨feedRampStart f mv outMv s, rfl, ?_⟩
  dsimp only
  rw [feedOf_of_power hp f, feedOf_of_power hp (otherFeed f), feedOf_setFeed_same, feedOf_setFeed_other]
  exact ⟨rfl, rfl, rfl, rfl, rfl, rfl, rfl, rfl⟩

/-! ### Out of RAMP (R416) -/

theorem feedRampComplete_qualifies {f : Feed} {mv outMv gateMv : Nat} {s : State} (hs : (feedOf s f).st = .ramp)
    (ho : mv ≤ outMv + 100) (hr : mv ≤ (feedOf s f).rampMv s.now mv + 100) (hg : mv + 8000 < gateMv) :
    Leaves (.feedRampComplete f mv outMv gateMv) s fun t => t.power = (setFeed s f { feedOf s f with
      st := .qualify, since := s.now, clearSince := s.now, mv := mv, outMv := outMv }).power := by
  refine ⟨feedRampComplete f mv outMv gateMv s, rfl, ?_⟩
  dsimp only [feedRampComplete]
  rw [if_pos ⟨hs, ho, hr, hg⟩]
  rfl

/-! ### Out of QUALIFY (R18, R423) -/

theorem feedGood_power (f : Feed) (mv : Nat) (s : State) : (feedGood f mv s).power = (setFeed s f { feedOf s f with
    st := .good, since := s.now, clearSince := s.now, mv := mv, pgood := true, wasGood := true }).power := by
  unfold feedGood
  rw [feedEvent_power]
  rfl

theorem feedGood_module (f : Feed) (mv : Nat) (s : State) : (feedGood f mv s).module = s.module := by
  unfold feedGood
  rw [feedEvent_module, setFeed_module]

theorem feedQualifyDone_good {f : Feed} {mv : Nat} {s : State} (hs : (feedOf s f).st = .qualify) (ht : (feedOf s f).timer = none)
    (he : (feedOf s f).clearSince + 5000000 ≤ s.now) :
    Leaves (.feedQualifyDone f mv) s fun t => t.power = (setFeed s f { feedOf s f with
        st := .good, since := s.now, clearSince := s.now, mv := mv, pgood := true, wasGood := true }).power ∧
      (s.module.state = .keeper → t.module.state = .feedsUp) := by
  have hc : elapsed s (feedOf s f).clearSince (5 * ms) = true := decide_eq_true he
  refine ⟨feedQualifyDone f mv s, rfl, ?_⟩
  dsimp only [feedQualifyDone]
  rw [if_pos ⟨hs, ht, hc⟩, feedGood_module, ← feedGood_power]
  split
  · exact ⟨changeState_power .., fun _ => changeState_state ..⟩
  · next hk => exact ⟨health_power .., fun h => absurd h hk⟩

/-- Settles O1, a lemma for each command. -/
theorem feedStarts : Obligations.FeedStarts := by
  unfold Obligations.FeedStarts
  exact ⟨fun _ _ _ _ hs hv => supplyRise_starts hs hv, fun _ _ _ _ _ hs hi ht hl hh ho => feedRampStart_ramps hs hi ht hl hh ho,
    fun _ _ _ _ _ hs ho hr hg => feedRampComplete_qualifies hs ho hr hg, fun _ _ _ hs ht he => feedQualifyDone_good hs ht he⟩

end Sys2Proof.Scope
end

section
/-!
Start-up (R18, R432, R433, R494): CORE_ON, the boot ROM's choice of an image, CONFIG, and SERVICE.
-/

namespace Sys2Proof.Scope

open Sys2Proof.Machine Sys2Proof.Laws

/-! ### CORE_ON (R18, R494) -/

/-- The new key of the beam: two draws of the entropy source. -/
theorem newBeamKey_vault (s : State) : (newBeamKey s).vault = { s.vault with
    beamKey := some (leBytes 32 (Config.entropy s.drawn).toNat ++ leBytes 32 (Config.entropy (s.drawn + 1)).toNat) } := rfl

/-- A new nonce leaves the key of the beam. -/
theorem newDebugNonce_beamKey (s : State) : (newDebugNonce s).vault.beamKey = s.vault.beamKey := rfl

theorem coreOn_starts {s : State} (hs : s.module.state = .feedsUp) (he : s.vault.entropyOk = true) :
    Leaves (.coreOn true true) s fun t => t.module.state = .coreOn ∧ t.module.since = s.now ∧
      t.gov = { s.gov with running := true } ∧
      t.vault.beamKey = some (leBytes 32 (Config.entropy s.drawn).toNat ++ leBytes 32 (Config.entropy (s.drawn + 1)).toNat) ∧
      t.shu = { s.shu with rosterPending := true } ∧ t.power = s.power ∧ t.cfg = s.cfg ∧ t.flash = s.flash := by
  have hd : (earlyHandover s).drawn = s.drawn := rfl
  have hc : (decide (s.module.state = .feedsUp) && true && true && s.vault.entropyOk) = true := by simp [hs, he]
  refine ⟨coreOn true true s, rfl, ?_⟩
  dsimp only [coreOn]
  rw [if_pos hc]
  simp [driveSysreset_vault, setModule, newBeamKey_vault, newDebugNonce_beamKey, hd]

/-! ### BOOT_SLOT_SELECT (R432, R552) -/

/-- An ACTIVE slot off trial, with no other to turn to, is started when it passes, and nothing is when it does not. -/
theorem bootRom_active {s : State} {k : Nat} (ha : slotIn s .active = some k) (ht : (fwSlot s k).trial = false)
    (ho : (fwSlot s (1 - k)).st ≠ .verified) :
    bootRom s none = if imageReason s k = 0 then startSlot s k else enterHalted s 0 := by
  by_cases hr : imageReason s k = 0 <;> simp [bootRom, ha, ht, ho, hr]

/-- The records that waited have their entries in the journal, and wait on for their rings (R552). -/
def journalled (s : State) : State :=
  let r := journalWaiting s.obs.waiting s
  { r.1 with obs := { r.1.obs with waiting := r.2 } }

theorem journalled_keeps (s : State) : Keeps 1048576 s (journalled s) :=
  Keeps.obs' (journalWaiting_keeps (Keeps.refl s) (by decide)) _ (by decide)

/-- The state in which the boot ROM chooses an image at a cold start: in BOOT, with the start counted. -/
def bootCounted (s : State) : State :=
  let u := changeState (journalled s) .boot 0
  setModule u { u.module with
    bootCount := (u.module.bootCount + 1) % 2 ^ 32, bootFailed := some 5, recoveryCount := (recentRecoveries u).length % 256 }

theorem bootCounted_module {s : State} (hs : s.module.state = .coreOn) : (bootCounted s).module = { s.module with
    state := .boot, since := s.now, bootCount := (s.module.bootCount + 1) % 2 ^ 32, bootFailed := some 5
    recoveryCount := (recentRecoveries s).length % 256 } := by
  have hm := (journalled_keeps s).module (by decide)
  have hu := changeState_module (s := journalled s) (new := .boot) (c := 0) (by simp [hm, hs])
  simp [bootCounted, setModule, recentRecoveries, hu, hm, (journalled_keeps s).now]

theorem bootCounted_flash (s : State) : (bootCounted s).flash = s.flash := by
  simp only [bootCounted, setModule, changeState_flash]
  exact (journalled_keeps s).flash (by decide)

/-- At a cold start with no PENDING slot, an ACTIVE slot off trial and no other to turn to: that slot, or HALTED. -/
theorem bootSlotSelect_cold {s : State} {k : Nat} (hs : s.module.state = .coreOn) (ha : slotIn s .active = some k)
    (ht : (fwSlot s k).trial = false) (hp : slotIn s .pending = none) (ho : (fwSlot s (1 - k)).st ≠ .verified) :
    bootSlotSelect true s = if imageReason s k = 0 then startSlot (bootCounted s) k else enterHalted (bootCounted s) 0 := by
  have hslots : (bootCounted s).module.slots = s.module.slots := by rw [bootCounted_module hs]
  have h : bootSlotSelect true s = bootRom (bootCounted s) none := by
    have hp' : slotIn (bootCounted s) .pending = none := by rw [slotIn_congr hslots, hp]
    simp only [bootSlotSelect, hs, decide_true, Bool.true_or, if_true, Bool.not_true, Bool.false_eq_true, if_false]
    split
    · next h => exact absurd (hp'.symm.trans h) (by simp)
    · rfl
  rw [h, bootRom_active (by rw [slotIn_congr hslots, ha]) (by rw [fwSlot_congr hslots, ht]) (by rw [fwSlot_congr hslots]; exact ho),
    imageReason_congr hslots (bootCounted_flash s)]

theorem bootSlotSelect_selects {s : State} {k : Nat} (hs : s.module.state = .coreOn) (ha : slotIn s .active = some k)
    (ht : (fwSlot s k).trial = false) (hp : slotIn s .pending = none) (ho : (fwSlot s (1 - k)).st ≠ .verified) :
    Leaves (.bootSlotSelect true) s fun t => t.module.bootCount = (s.module.bootCount + 1) % 2 ^ 32 ∧
      (imageReason s k = 0 → t.module.state = .boot ∧ t.module.running = k ∧ t.module.started = true) ∧
      (imageReason s k ≠ 0 → t.module.state = .halted) := by
  refine ⟨bootSlotSelect true s, rfl, ?_⟩
  dsimp only
  rw [bootSlotSelect_cold hs ha ht hp ho]
  by_cases hr : imageReason s k = 0
  · simp [hr, startSlot, setModule, bootCounted_module hs]
  · simp [hr, enterHalted_count, bootCounted_module hs]

/-! ### CONFIG_ENTRY (R18, R433) -/

theorem reachConfig_module {s : State} (hs : s.module.state = .boot) (ht : s.module.toTest = false)
    (hw : s.module.warmHeld = none) : (reachConfig s).module.state = .config ∧ (reachConfig s).module.started = false ∧
      (reachConfig s).module.running = s.module.running ∧ (reachConfig s).module.watchdogAt = s.now := by
  have hm := changeState_module (s := s) (new := .config) (c := 0) (by simp [hs])
  simp [reachConfig, releaseWarm, configReports_module, setModule, hm, ht, hw]

theorem configEntry_reaches {s : State} (hs : s.module.state = .boot) (hi : s.module.started = true)
    (ht : s.module.toTest = false) (hw : s.module.warmHeld = none) :
    Leaves (.configEntry true) s fun t => t.module.state = .config ∧ t.module.started = false ∧
      t.module.running = s.module.running ∧ t.module.watchdogAt = s.now ∧ t.flash = s.flash := by
  obtain ⟨hc, hd, hr, ha⟩ := reachConfig_module hs ht hw
  have he : configEntry true s = reachConfig s := by simp [configEntry, hs, hi]
  refine ⟨configEntry true s, rfl, ?_⟩
  dsimp only
  rw [he]
  exact ⟨hc, hd, hr, ha, (reachConfig_keeps (mk := 7364618) (Keeps.refl s) (by decide)).flash (by decide)⟩

/-! ### SERVICE (R18) -/

theorem serviceEntry_serves {tried : Bool} {s : State} (hs : s.module.state = .links)
    (hp : (List.range 128).all (portTried s tried) = true) (hm : membershipSettled s = true) :
    LeavesSettling (.serviceEntry tried) s fun t => t.module.state = if degraded s then .degraded else .service := by
  refine ⟨serviceEntry tried s, rfl, ?_⟩
  dsimp only [serviceEntry]
  rw [if_pos (by simp only [hs, hp, hm, decide_true, Bool.and_self]), health_service (changeState_state _ _ _), degraded_changeState]

/-- Settles O6, a lemma for each command. -/
theorem startUp : Obligations.StartUp := by
  unfold Obligations.StartUp
  exact ⟨fun _ hs he => coreOn_starts hs he, fun _ _ hs ha _ ht hp ho => bootSlotSelect_selects hs ha ht hp ho,
    fun _ hs hi ht hw => configEntry_reaches hs hi ht hw, fun _ _ hs hp hm => serviceEntry_serves hs hp hm⟩

end Sys2Proof.Scope
end

section
/-!
Frames (R17, R33, R57, R84, R100, R126, R128, R416): what a command leaves of the state, read off the mask of blocks that its
`Keeps` lemma allows it.
-/

namespace Sys2Proof.Scope

open Sys2Proof.Machine Sys2Proof.Laws

-- One declaration at a time: side by side their threads are too much for the memory limit of the check.
set_option Elab.async false

/-- The bit of a part in the masks of `Keeps`: both number the parts in one order. -/
def partBit (p : Part) : Nat := p.ctorIdx

/-- The mask of the parts listed. -/
def maskOf : List Part → Nat
  | [] => 0
  | p :: ps => 2 ^ partBit p ||| maskOf ps

/-- The mask of every part. -/
def allParts : Nat := 2 ^ 23 - 1

theorem partBit_injective : Function.Injective partBit := Function.LeftInverse.injective Part.ofNat_ctorIdx

theorem partBit_lt (p : Part) : partBit p < 23 := by cases p <;> decide

/-- A part has its bit in the mask of a list exactly when the list has the part. -/
theorem testBit_maskOf (ps : List Part) (p : Part) : (maskOf ps).testBit (partBit p) = decide (p ∈ ps) := by
  induction ps with
  | nil => simp [maskOf]
  | cons q qs ih =>
    have hq : partBit q = partBit p ↔ p = q := by rw [partBit_injective.eq_iff, eq_comm]
    simp [maskOf, Nat.testBit_two_pow, ih, hq]

/-- A part whose bit the mask has not stands. -/
theorem same_of_keeps {m : Nat} {s t : State} (h : Keeps m s t) {p : Part} (hp : m.testBit (partBit p) = false) : p.same s t := by
  cases p with
  | ft => exact h.ft hp
  | cfg => exact h.cfg hp
  | flash => exact h.flash hp
  | module => exact h.module hp
  | power => exact h.power hp
  | gov => exact h.gov hp
  | lanes => exact h.lanes hp
  | weft => exact h.weft hp
  | warp => exact h.warp hp
  | loom => exact h.loom hp
  | fab => exact h.fab hp
  | shu => exact h.shu hp
  | win => exact h.win hp
  | eng => exact h.eng hp
  | hed => exact h.hed hp
  | sel => exact h.sel hp
  | twin => exact h.twin hp
  | dob => exact h.dob hp
  | mgmt => exact h.mgmt hp
  | vault => exact h.vault hp
  | obs => exact h.obs hp
  | host => exact h.host hp
  | beam => exact h.beam hp

/-- A command that keeps what the mask of some parts keeps touches those parts only. -/
theorem touchesOnly_of_keeps {c : Instr} {s : State} {ps : List Part} (h : ∃ t, exec c s = .next t ∧ Keeps (maskOf ps) s t) :
    TouchesOnly c s ps := by
  obtain ⟨t, he, hk⟩ := h
  exact ⟨t, he, fun p hp => same_of_keeps hk (by simp [testBit_maskOf, hp])⟩

/-- A command that keeps what the mask of all other parts keeps spares the parts listed. -/
theorem spares_of_keeps {c : Instr} {s : State} {ps : List Part}
    (h : ∃ t, exec c s = .next t ∧ Keeps (allParts ^^^ maskOf ps) s t) : Spares c s ps := by
  obtain ⟨t, he, hk⟩ := h
  have hall (p : Part) : allParts.testBit (partBit p) = true :=
    (Nat.testBit_two_pow_sub_one 23 _).trans (decide_eq_true (partBit_lt p))
  exact ⟨t, he, fun p hp => same_of_keeps hk (by simp [Nat.testBit_xor, hall, testBit_maskOf, hp])⟩

/-- Settles O52: each command keeps what the mask of its `Keeps` lemma keeps, and that is the list of its clause. -/
theorem framesPowerToLinks : Obligations.FramesPowerToLinks := by
  unfold Obligations.FramesPowerToLinks
  exact ⟨fun _ _ _ _ => touchesOnly_of_keeps (execSupplyRise_keeps (.refl _) (by decide)),
    fun _ _ _ _ _ => touchesOnly_of_keeps (execFeedRampComplete_keeps (.refl _) (by decide)),
    fun _ _ _ => touchesOnly_of_keeps (execFeedQualifyDone_keeps (.refl _) (by decide)),
    fun _ _ _ _ _ => touchesOnly_of_keeps (execCurrentLimitEnter_keeps (.refl _) (by decide)),
    fun _ _ _ => touchesOnly_of_keeps (execCurrentLimitExit_keeps (.refl _) (by decide)),
    fun _ _ _ => touchesOnly_of_keeps (execCooldownExpiry_keeps (.refl _) (by decide)),
    fun _ _ _ => touchesOnly_of_keeps (execFeedPowerCycled_keeps (.refl _) (by decide)),
    fun _ _ => touchesOnly_of_keeps (execTripCountReset_keeps (.refl _) (by decide)),
    fun _ _ _ _ => touchesOnly_of_keeps (execIdealDiodeReverseOff_keeps (.refl _) (by decide)),
    fun _ _ _ _ => touchesOnly_of_keeps (execIdealDiodeOn_keeps (.refl _) (by decide)),
    fun _ _ _ _ => touchesOnly_of_keeps (execFeedClear_keeps (.refl _) (by decide)),
    fun _ _ => touchesOnly_of_keeps (execVioDobChange_keeps (.refl _) (by decide)),
    fun _ _ _ => touchesOnly_of_keeps (execCoreOn_keeps (.refl _) (by decide)),
    fun _ _ => spares_of_keeps (execBootSlotSelect_keeps (.refl _) (by decide)),
    fun _ _ => touchesOnly_of_keeps (execConfigEntry_keeps (.refl _) (by decide)),
    fun _ => spares_of_keeps (execStoredConfigCommit_keeps (.refl _) (by decide)),
    fun _ _ => spares_of_keeps (execServiceEntry_keeps (.refl _) (by decide)),
    fun _ _ _ _ _ _ _ => touchesOnly_of_keeps (execGovernorPeriod_keeps (.refl _) (by decide)),
    fun _ => touchesOnly_of_keeps (execCapacityFloorClear_keeps (.refl _) (by decide)),
    fun _ _ => touchesOnly_of_keeps (execVcoreRaiseDone_keeps (.refl _) (by decide)),
    fun _ => touchesOnly_of_keeps (execLoomRescaleDone_keeps (.refl _) (by decide)),
    fun _ _ => touchesOnly_of_keeps (execThermalLoop_keeps (.refl _) (by decide)),
    fun _ => spares_of_keeps (execThermalFatalTimeout_keeps (.refl _) (by decide)),
    fun _ _ _ => spares_of_keeps (execWeftBlockReceive_keeps (.refl _) (by decide)),
    fun _ _ => touchesOnly_of_keeps (execBlockLockAcquired_keeps (.refl _) (by decide)),
    fun _ _ => spares_of_keeps (execBlockLockLost_keeps (.refl _) (by decide)),
    fun _ _ => touchesOnly_of_keeps (execLaneLockTimeout_keeps (.refl _) (by decide)),
    fun _ _ => touchesOnly_of_keeps (execAlignSend_keeps (.refl _) (by decide)),
    fun _ _ => spares_of_keeps (execAlignReceive_keeps (.refl _) (by decide)),
    fun _ _ => spares_of_keeps (execLaneAlignTimeout_keeps (.refl _) (by decide)),
    fun _ _ => spares_of_keeps (execRefclkLost_keeps (.refl _) (by decide)),
    fun _ _ => spares_of_keeps (execRefclkRestored_keeps (.refl _) (by decide)),
    fun _ _ => touchesOnly_of_keeps (execAdaptFreeze_keeps (.refl _) (by decide)),
    fun _ => touchesOnly_of_keeps (execAdaptFreezeEnd_keeps (.refl _) (by decide)),
    fun _ => touchesOnly_of_keeps (execAdaptFreezeHeldStart_keeps (.refl _) (by decide)),
    fun _ _ _ => touchesOnly_of_keeps (execMarginStart_keeps (.refl _) (by decide)),
    fun _ _ => touchesOnly_of_keeps (execMarginStep_keeps (.refl _) (by decide)),
    fun _ _ => touchesOnly_of_keeps (execFlitSend_keeps (.refl _) (by decide)),
    fun _ _ => spares_of_keeps (execFlitReceive_keeps (.refl _) (by decide)),
    fun _ _ => spares_of_keeps (execReplayTimerExpiry_keeps (.refl _) (by decide)),
    fun _ _ => spares_of_keeps (execWeftTrainingStart_keeps (.refl _) (by decide)),
    fun _ _ => spares_of_keeps (execTs1Receive_keeps (.refl _) (by decide)),
    fun _ _ => spares_of_keeps (execTs2Receive_keeps (.refl _) (by decide)),
    fun _ _ => spares_of_keeps (execTrainingPhaseTimeout_keeps (.refl _) (by decide)),
    fun _ _ => spares_of_keeps (execCreditInitReceive_keeps (.refl _) (by decide)),
    fun _ _ => spares_of_keeps (execFlitStartReceive_keeps (.refl _) (by decide)),
    fun _ _ => spares_of_keeps (execAlignedTimeout_keeps (.refl _) (by decide)),
    fun _ _ => spares_of_keeps (execRetrainReqReceive_keeps (.refl _) (by decide)),
    fun _ _ => spares_of_keeps (execRetrainRateStep_keeps (.refl _) (by decide)),
    fun _ _ => spares_of_keeps (execRetrainTimeout_keeps (.refl _) (by decide)),
    fun _ _ _ _ => spares_of_keeps (execWeftRetrainCmd_keeps (.refl _) (by decide)),
    fun _ _ _ => spares_of_keeps (execTlpIngress_keeps (.refl _) (by decide)),
    fun _ _ _ _ _ => touchesOnly_of_keeps (execWarpLinkUp_keeps (.refl _) (by decide)),
    fun _ _ _ => spares_of_keeps (execPerstAssert_keeps (.refl _) (by decide)),
    fun _ _ => touchesOnly_of_keeps (execPerstDeassert_keeps (.refl _) (by decide)),
    fun _ _ => spares_of_keeps (execHotResetReceived_keeps (.refl _) (by decide)),
    fun _ _ => spares_of_keeps (execDlDown_keeps (.refl _) (by decide)),
    fun _ _ _ _ => spares_of_keeps (execVsResetCmd_keeps (.refl _) (by decide)),
    fun _ _ => touchesOnly_of_keeps (execPartitionResetEnd_keeps (.refl _) (by decide)),
    fun _ _ => touchesOnly_of_keeps (execPartitionReady_keeps (.refl _) (by decide)),
    fun _ _ => touchesOnly_of_keeps (execSecondaryBusReset_keeps (.refl _) (by decide)),
    fun _ _ => touchesOnly_of_keeps (execLinkDisable_keeps (.refl _) (by decide)),
    fun _ _ => spares_of_keeps (execSlotPowerOff_keeps (.refl _) (by decide)),
    fun _ _ => touchesOnly_of_keeps (execSlotPwrenClear_keeps (.refl _) (by decide)),
    fun _ _ => touchesOnly_of_keeps (execSlotPowerOn_keeps (.refl _) (by decide)),
    fun _ _ => touchesOnly_of_keeps (execSlotPerstRelease_keeps (.refl _) (by decide)),
    fun _ _ _ _ => touchesOnly_of_keeps (execIndicatorSet_keeps (.refl _) (by decide)),
    fun _ => touchesOnly_of_keeps (execIndicatorBlink_keeps (.refl _) (by decide)),
    fun _ _ => spares_of_keeps (execSurpriseDown_keeps (.refl _) (by decide)),
    fun _ _ _ => spares_of_keeps (execHpInputDebounced_keeps (.refl _) (by decide)),
    fun _ _ => touchesOnly_of_keeps (execExpanderInterrupt_keeps (.refl _) (by decide)),
    fun _ _ => touchesOnly_of_keeps (execExpanderPoll_keeps (.refl _) (by decide)),
    fun _ _ _ => touchesOnly_of_keeps (execExpanderRetry_keeps (.refl _) (by decide)),
    fun _ _ => touchesOnly_of_keeps (execSurpriseReport_keeps (.refl _) (by decide)),
    fun _ _ _ _ _ => touchesOnly_of_keeps (execLinkReturnL0_keeps (.refl _) (by decide)),
    fun _ _ _ => spares_of_keeps (execDpcTrigger_keeps (.refl _) (by decide)),
    fun _ _ => touchesOnly_of_keeps (execDpcRelease_keeps (.refl _) (by decide)),
    fun _ _ _ => touchesOnly_of_keeps (execProxyFree_keeps (.refl _) (by decide)),
    fun _ _ _ => touchesOnly_of_keeps (execMcastGroupEnable_keeps (.refl _) (by decide)),
    fun _ _ => spares_of_keeps (execWeCompletionTimeout_keeps (.refl _) (by decide)),
    fun _ _ => touchesOnly_of_keeps (execSharedPromotion_keeps (.refl _) (by decide)),
    fun _ _ _ => spares_of_keeps (execEgressArbitration_keeps (.refl _) (by decide)),
    fun _ => touchesOnly_of_keeps (execLedgerMoveStart_keeps (.refl _) (by decide)),
    fun _ => touchesOnly_of_keeps (execLedgerMoveDone_keeps (.refl _) (by decide)),
    fun _ => touchesOnly_of_keeps (execSpillWriteDone_keeps (.refl _) (by decide))⟩

end Sys2Proof.Scope
end

section
/-!
Calm states, for the refutation of O35: in CONFIG under one configuration, with event 0x0C0F the newest record. The end of a step acts on
what a state has left in its queues, and the statement lets these be anything. What that end can do and still be calm, though, is little: a
record that enters a ring would be the newest (R520), no link is up before LINKS, and the configuration shuts the fabric, the twin and every
partition off. So whatever the queues hold, the end of a step denies nothing at P0's heddle. This section has the records and the loom.
-/

namespace Sys2Proof.Scope

open Sys2Proof.Machine Sys2Proof.Laws

-- One declaration at a time: side by side their threads are too much for the memory limit of the check.
set_option Elab.async false

/-- The configuration in force: P0 is the upstream port of partition 1, and the installer ring lies in that partition's host. -/
def spoolCfg : Tbl Nat :=
  [(key 0x3003 1, 1), (key 0x3101 1, 1), (key 0x3102 1, 1), (key 0x4001 130, 0), (key 0x7101 33, 1), (key 0x7103 33, 4), (key 0x7106 0, 1)]

/-! ### Calm states -/

/-- What tells whether a state is calm. -/
def look (s : State) : Tbl Nat × ModState × List AdmittedVs × Vector AdmBlk 32 × List EventRec :=
  (s.cfg, s.module.state, s.fab.imported, s.eng.adm, s.obs.history)

/-- What the heddle of P0 has denied: denials still to be logged, and its log. -/
def logs (s : State) : List LateDenial × DenyLog := (s.hed.late, Tbl.get s.hed.denied 0 {})

/-- In CONFIG under that configuration, with no partition imported and no admin queue; the newest record is event 0x0C0F. -/
structure Calm (s : State) : Prop where
  cfg : s.cfg = spoolCfg
  state : s.module.state = .config
  imported : s.fab.imported = []
  adm : ∀ v, (admOf s v).enabled = false
  last : s.obs.history.getLast?.map EventRec.code = some 0x0C0F

theorem Calm.congr {s t : State} (c : Calm t) (h : look t = look s) : Calm s := by
  simp only [look, Prod.mk.injEq] at h
  obtain ⟨hc, hm, hf, ha, hh⟩ := h
  exact ⟨hc ▸ c.cfg, hm ▸ c.state, hf ▸ c.imported, fun v => by simpa [admOf, ha] using c.adm v, hh ▸ c.last⟩

/-- Unless it is no longer calm, `t` shows what `s` showed, and P0's heddle has denied nothing meanwhile. -/
def Still (s t : State) : Prop := Calm t → look t = look s ∧ logs t = logs s

theorem Still.refl (s : State) : Still s s := fun _ => ⟨rfl, rfl⟩

theorem Still.trans {s t u : State} (h : Still s t) (k : Still t u) : Still s u := fun c =>
  have ⟨kl, kd⟩ := k c
  have ⟨hl, hd⟩ := h (c.congr kl)
  ⟨kl.trans hl, kd.trans hd⟩

theorem Still.same {s t u : State} (h : Still s t) (hl : look u = look t) (hd : logs u = logs t) : Still s u :=
  h.trans fun _ => ⟨hl, hd⟩

theorem Still.ite {s a b : State} {c : Prop} {_ : Decidable c} (ha : Still s a) (hb : Still s b) : Still s (if c then a else b) := by
  split
  · exact ha
  · exact hb

theorem Still.foldl {α : Type} {s t : State} {f : State → α → State} (h : Still s t) (l : List α) (hf : ∀ u a, Still u (f u a)) :
    Still s (l.foldl f t) := by
  induction l generalizing t with
  | nil => exact h
  | cons a l ih => exact ih (h.trans (hf t a))

/-- The blocks that `look` and `logs` read: configuration, module, fabric, engine, heddles and observation. -/
def lookMask : Nat := maskOf [.cfg, .module, .fab, .eng, .hed, .obs]

/-- The mask of every part but one. -/
def allBut (p : Part) : Nat := allParts ^^^ maskOf [p]

/-- What writes none of these blocks leaves the state still. -/
theorem Still.keeps {m : Nat} {s t u : State} (h : Still s t) (k : Keeps m t u) (hm : m &&& lookMask = 0) : Still s u := by
  have hb (i : Nat) (hi : lookMask.testBit i = true) : m.testBit i = false := by
    simpa [Nat.testBit_and, hi] using congrArg (Nat.testBit · i) hm
  refine h.same ?_ ?_
  · simp only [look, k.cfg (hb 1 (by decide)), k.module (hb 3 (by decide)), k.fab (hb 10 (by decide)), k.eng (hb 13 (by decide)),
      k.obs (hb 20 (by decide))]
  · simp only [logs, k.hed (hb 14 (by decide))]

/-- A command's step keeps the configuration in force, so a proof may use it. -/
theorem Still.of_cfg {s t : State} (k : t.cfg = s.cfg) (h : s.cfg = spoolCfg → Still s t) : Still s t := fun c => h (k ▸ c.cfg) c

theorem Still.of_module {s t : State} (k : t.module = s.module) (h : s.module.state = .config → Still s t) : Still s t :=
  fun c => h (k ▸ c.state) c

theorem Still.of_fab {s t : State} (k : t.fab = s.fab) (h : s.fab.imported = [] → Still s t) : Still s t :=
  fun c => h (k ▸ c.imported) c

/-! ### What the configuration says -/

/-- What the configuration alone decides is decided in the state that has it and nothing else. -/
theorem of_spoolCfg {α : Type} (f : State → α) (hf : ∀ u, f u = f { cfg := u.cfg }) {s : State} (h : s.cfg = spoolCfg) :
    f s = f { cfg := spoolCfg } := h ▸ hf s

theorem fabricOn_off {s : State} (h : s.cfg = spoolCfg) : fabricOn s = false :=
  (of_spoolCfg fabricOn (fun _ => rfl) h).trans (by decide +kernel)

theorem twin_off {s : State} (h : s.cfg = spoolCfg) : cfgOn s 0x5201 0 = false :=
  (of_spoolCfg (cfgOn · 0x5201 0) (fun _ => rfl) h).trans (by decide +kernel)

theorem weftPorts_none {s : State} (h : s.cfg = spoolCfg) : weftPorts s = [] :=
  (of_spoolCfg weftPorts (fun _ => rfl) h).trans (by decide +kernel)

theorem partEnabled_off {s : State} (h : s.cfg = spoolCfg) {v : Nat} (hv : v < 32) : partEnabled s v = false := by
  have hall : ∀ w : Fin 32, partEnabled { cfg := spoolCfg } w = false := by decide +kernel
  exact (of_spoolCfg (partEnabled · v) (fun _ => rfl) h).trans (hall ⟨v, hv⟩)

theorem upPort_zero {s : State} (h : s.cfg = spoolCfg) : upPort s 0 = none :=
  (of_spoolCfg (upPort · 0) (fun _ => rfl) h).trans (by decide +kernel)

theorem downPorts_zero {s : State} (h : s.cfg = spoolCfg) : downPorts s 0 = [] :=
  (of_spoolCfg (downPorts · 0) (fun _ => rfl) h).trans (by decide +kernel)

theorem inboundReserve_zero {s : State} (h : s.cfg = spoolCfg) : cfgv s 0x4001 130 = 0 :=
  (of_spoolCfg (cfgv · 0x4001 130) (fun _ => rfl) h).trans (by decide +kernel)

theorem inService_config {s : State} (h : s.module.state = .config) : inService s = false := by
  simp [inService, h]

/-! ### Records -/

theorem signalLine_history (s : State) (r : Nat) (g : Bool) : (signalLine s r g).obs.history = s.obs.history := by
  simp only [signalLine]
  split
  · rfl
  · split
    · rfl
    · split
      · simp [ringSet]
      · rfl

@[simp] theorem hostPost_obs (s : State) (v a : Nat) (bs : List Byte) : (hostPost s v a bs).obs = s.obs :=
  (hostPost_keeps (mk := maskOf [.hed, .host]) (Keeps.refl s) (by decide)).obs (by decide)

/-- A line is written from records that are in the history already. -/
theorem writeLine_history (s : State) (r : Nat) (m : Bool) : (writeLine s r m).obs.history = s.obs.history := by
  simp only [writeLine]
  split
  · rfl
  · rw [signalLine_history]
    split
    · rw [hostPost_obs]
      rfl
    · rw [beamWrite_obs]
      rfl

/-- The history ends with the record that has come last. -/
theorem getLast?_history (h : List EventRec) (e : EventRec) : ((h ++ [e]).drop (h.length - 16383)).getLast? = some e := by
  rw [List.getLast?_drop, if_neg (by simp), List.getLast?_concat]

/-- A record that enters its ring is the newest one. -/
theorem ringPut_still (s : State) (r : Nat) (e : EventRec) (hc : e.code ≠ 0x0C0F) : Still s (ringPut s r e) := by
  unfold ringPut
  dsimp only
  split
  · exact (Still.refl s).same rfl rfl
  · intro c
    have hl := c.last
    simp only [apply_ite State.obs, apply_ite ObsBlk.history, writeLine_history, ite_self, getLast?_history] at hl
    exact absurd (Option.some.inj hl) hc

theorem reportLoss_still (s : State) (r : Nat) (ow : Bool) : Still s (reportLoss s r ow) := by
  unfold reportLoss
  dsimp only
  refine .ite (.refl s) (.ite ((Still.refl s).same rfl rfl) ?_)
  exact ((Still.refl s).same (t := s) rfl rfl).trans (ringPut_still _ 32 _ (by simp))

theorem putEvent_still (s : State) (h : HeldEvent) (hc : h.rec_.code ≠ 0x0C0F) : Still s (putEvent s h) := by
  unfold putEvent
  dsimp only
  split
  · exact .ite ((Still.refl s).same rfl rfl) ((Still.refl s).same rfl rfl)
  · split
    · exact .ite ((Still.refl s).same rfl rfl) ((Still.refl s).same rfl rfl)
    · exact ((ringPut_still s h.ring h.rec_ hc).trans (reportLoss_still _ _ _)).trans (reportLoss_still _ _ _)

theorem Still.eventFull {s t : State} (h : Still s t) {code inst sev : Nat} {part : Option Nat} {paired : Bool} {info : Nat}
    (hc : code ≠ 0x0C0F) : Still s (eventFull t code inst sev part paired info) := by
  unfold Machine.eventFull
  split
  · exact h
  · exact h.trans (putEvent_still t _ hc)

theorem Still.event {s t : State} (h : Still s t) {code inst info : Nat} (hc : code ≠ 0x0C0F) : Still s (event t code inst info) :=
  h.eventFull hc

theorem Still.rateEvent {s t : State} (h : Still s t) {code place gap : Nat} {put : State → Nat → State}
    (hp : ∀ u n, Still u (put u n)) : Still s (rateEvent t code place gap put) := by
  unfold Machine.rateEvent
  dsimp only
  exact .ite ((h.same rfl rfl).trans (hp _ _)) (h.same rfl rfl)

theorem Still.count {s t : State} (h : Still s t) (c n : Nat) : Still s (count t c n) := by
  unfold Machine.count
  dsimp only
  exact .ite h (h.same rfl rfl)

theorem Still.filterItem {s t : State} (h : Still s t) (b : Nat) (i : FilterItem) : Still s (filterItem t b i) := by
  refine h.foldl _ fun u k => ?_
  unfold filterSlot
  dsimp only
  exact .ite (.ite ((Still.refl u).count _ _) (((Still.refl u).count _ _).count _ _)) (.refl u)

theorem Still.privCount {s t : State} (h : Still s t) (c : Nat) : Still s (privCount t c) := by
  unfold Machine.privCount
  dsimp only
  refine .ite (.event ?_ (by decide)) (h.same rfl rfl)
  exact h.same rfl rfl

/-! ### The loom -/

theorem Still.poolChanged {s t : State} (h : Still s t) : Still s (poolChanged t) := by
  unfold Machine.poolChanged
  extract_lets f m _ t1 waits _ t2 _ t3 _
  have h2 : Still s t2 := h.same rfl rfl
  have h3 : Still s t3 := by
    refine .ite (.event (.count ?_ _ _) (by decide)) (.ite (.event ?_ (by decide)) h2) <;> exact h2.same rfl rfl
  refine .ite (.event ?_ (by decide)) h3
  exact h3.same rfl rfl

theorem Still.returnCredit {s t : State} (h : Still s t) (c : Chain) : Still s (returnCredit t c) :=
  h.keeps (returnCredit_keeps (mk := 384) (Keeps.refl t) (by decide)) (by decide)

theorem Still.freeChain {s t : State} (h : Still s t) (id : Nat) : Still s (freeChain t id) := by
  unfold Machine.freeChain
  split
  · exact h
  · refine .poolChanged ?_
    exact (h.returnCredit _).same rfl rfl

theorem Still.promote {s t : State} (h : Still s t) (id : Nat) : Still s (promote t id) := by
  unfold Machine.promote
  split
  · exact h
  · dsimp only
    split
    · refine .ite (.ite h (.event (.count ?_ _ _) (by decide))) (.ite (.poolChanged ?_) h)
      · exact h.same rfl rfl
      · exact (h.returnCredit _).same rfl rfl
    · exact h

theorem Still.storeChain {s t : State} (h : Still s t) (src size : Nat) (mcast : Bool) (credit : Option (Nat × Nat × Nat)) :
    Still s (storeChain t src size mcast credit).1 := by
  unfold Machine.storeChain
  refine .poolChanged (.promote ?_ _)
  exact h.same rfl rfl

theorem Still.dropRef {s t : State} (h : Still s t) (id : Nat) : Still s (dropRef t id) := by
  unfold Machine.dropRef
  split
  · exact h
  · refine .ite (h.freeChain _) (.ite (.poolChanged ?_) ?_)
    · exact (h.returnCredit _).same rfl rfl
    · exact h.same rfl rfl

theorem Still.handOver {s t : State} (h : Still s t) (chain : Option Nat) (k : Nat) : Still s (handOver t chain k) := by
  unfold Machine.handOver
  split
  · exact h
  · split
    · split
      · refine .promote ?_ _
        exact h.same rfl rfl
      · exact h.freeChain _
    · exact h.freeChain _

theorem Still.releaseItem {s t : State} (h : Still s t) (i : LoomItem) : Still s (releaseItem t i) := by
  unfold Machine.releaseItem
  dsimp only
  split
  · exact h.same rfl rfl
  · refine .dropRef ?_ _
    exact h.same rfl rfl

theorem Still.spillLimit {s t : State} (h : Still s t) (d tc : Nat) : Still s (spillLimit t d tc) := by
  unfold Machine.spillLimit
  refine .ite (.event ?_ (by decide)) h
  exact h.same rfl rfl

theorem Still.pushItem {s t : State} (h : Still s t) (d : Nat) (i : LoomItem) : Still s (pushItem t d i) := by
  unfold Machine.pushItem
  extract_lets i' _ t1 units t2 _
  have h2 : Still s t2 := by
    refine .count ?_ _ _
    exact h.same rfl rfl
  clear_value units
  cases units with
  | some us =>
    refine .spillLimit (.count ?_ _ _) _ _
    exact h2.same rfl rfl
  | none =>
    refine .count ?_ _ _
    exact h.same rfl rfl

theorem Still.enqueueTlp {s t : State} (h : Still s t) (d src : Nat) (o : Origin) (x : Tlp) (epoch ord : Nat) :
    Still s (enqueueTlp t d src o x epoch ord).1 :=
  ((h.storeChain _ _ _ _).filterItem _ _).pushItem _ _

theorem Still.enqueueOper {s t : State} (h : Still s t) (d src chain bytes : Nat) (o : WireOp) (own : Option (Nat × Nat)) :
    Still s (enqueueOper t d src chain bytes o own) := by
  have hm : Still s (drawMark t d (envClass o)).1 := by
    unfold drawMark
    dsimp only
    have hf : Still s (if markThreshold t d < depth t d (envClass o) && cfgv t 0x4031 0 = 0 then afterFree t else t) := .ite (h.same rfl rfl) h
    exact .ite (hf.count _ _) hf
  exact (hm.filterItem _ _).pushItem _ _

end Sys2Proof.Scope
end

section
/-!
What weft ports, the shuttle, tunnels and the engine have left for the end of a step leaves a calm state as it was.
-/

namespace Sys2Proof.Scope

open Sys2Proof.Machine Sys2Proof.Laws

-- One declaration at a time: side by side their threads are too much for the memory limit of the check.
set_option Elab.async false

/-! ### Weft ports (R190): what a step has left of them -/

theorem relayBroken_still (s : State) (b : Nat × Nat × Nat) : Still s (relayBroken s b) := by
  unfold relayBroken
  exact .event ((Still.refl s).freeChain _) (by decide)

theorem selCorrectable_still (s : State) (x cause : Nat) : Still s (selCorrectable s x cause) := by
  unfold selCorrectable
  extract_lets t1 t2 c1 c2 c3 lim due _ t3
  have h2 : Still s t2 :=
    .ite (((Still.refl s).count _ _).keeps (aerReceiver_keeps (mk := 256) (Keeps.refl _) (by decide)) (by decide)) ((Still.refl s).count _ _)
  have h3 : Still s t3 := h2.same rfl rfl
  exact .ite (h3.eventFull (by decide)) h3

theorem selContained_still (s : State) (x cause action header : Nat) : Still s (selContained s x cause action none header) := by
  unfold selContained
  refine .rateEvent (.count ?_ _ _) fun u n => (Still.refl u).eventFull (by decide)
  exact ((Still.refl s).keeps (aerLog_keeps (mk := 256) (Keeps.refl s) (by decide)) (by decide)).same rfl rfl

theorem weftClassified_still (s : State) (e : Nat × Nat) : Still s (weftClassified s e) :=
  .ite (selCorrectable_still _ _ _) (selContained_still _ _ _ _ _)

theorem dropQueue_still (s : State) (p : Nat) : Still s (dropQueue s p) := by
  unfold dropQueue
  refine .foldl (.foldl ?_ _ fun u i => (Still.refl u).releaseItem i) _ fun u i =>
    (Still.refl u).keeps (endRelay_keeps (mk := 128) (Keeps.refl u) (by decide)) (by decide)
  exact (Still.refl s).same rfl rfl

/-- In a fabric that is off, no path is removed. -/
theorem pathRemoved_still (s : State) (p cause : Nat) : Still s (pathRemoved s p cause) := by
  refine .of_cfg ((pathRemoved_keeps (mk := allBut .cfg) (Keeps.refl s) (by decide)).cfg (by decide)) fun h => ?_
  have e : pathRemoved s p cause = s := by simp [pathRemoved, fabricOn_off h]
  rw [e]
  exact .refl s

theorem portDowned_still (s : State) (p : Nat) : Still s (portDowned s p) := by
  unfold portDowned
  refine .trans ?_ (dropQueue_still _ p)
  refine .same (t := pathRemoved (forgetCredits s p) p (weftPort (forgetCredits s p) p).lastCause) (.trans ?_ (pathRemoved_still _ _ _)) rfl rfl
  exact (Still.refl s).same rfl rfl

theorem portRisen_still (s : State) (p : Nat) : Still s (portRisen s p) := (Still.refl s).same rfl rfl

theorem Still.weftRelease {s t : State} (h : Still s t) (p tc slots : Nat) : Still s (weftRelease t p tc slots) :=
  h.keeps (weftRelease_keeps (mk := 128) (Keeps.refl t) (by decide)) (by decide)

theorem Still.arrivalCounted {s t : State} (h : Still s t) (p : Nat) (o : WireOp) (n : Nat) : Still s (arrivalCounted t p o n) :=
  ((h.count _ _).count _ _).filterItem _ _

theorem Still.relayCounted {s t : State} (h : Still s t) (d : Nat) (o : WireOp) (n : Nat) : Still s (relayCounted t d o n) :=
  ((((h.filterItem _ _).count _ _).count _ _).count _ _).count _ _

theorem Still.noRoute {s t : State} (h : Still s t) (mid : Nat) : Still s (noRoute t mid) :=
  h.rateEvent fun u _ => (Still.refl u).event (by decide)

theorem fabricArrive_still (s : State) (p tc : Nat) (bs : List Byte) : Still s (fabricArrive s p tc bs) := by
  unfold fabricArrive
  extract_lets o slots t1 freed drop
  have h1 : Still s t1 := (Still.refl s).arrivalCounted _ _ _
  have hfreed (u : State) (h : Still s u) : Still s (freed u) := h.weftRelease _ _ _
  have hdrop (u : State) (h : Still s u) : Still s (drop u) := .count (hfreed u h) _ _
  refine .ite (hdrop _ (h1.rateEvent fun u _ => (Still.refl u).event (by decide))) (.ite (hdrop _ h1) (.ite (hfreed _ ?_) (.ite ?_ (.ite (hdrop _ h1) ?_))))
  · exact h1.same rfl rfl
  · exact (h1.storeChain _ _ _ _).same rfl rfl
  · split
    · exact .count (hfreed _ (h1.noRoute _)) _ _
    · exact (h1.storeChain _ _ _ _).enqueueOper _ _ _ _ _ _

theorem weftArrival_still (s : State) (a : Arrival) : Still s (weftArrival s a) := by
  unfold weftArrival
  extract_lets freed
  have hfreed (u : State) (h : Still s u) : Still s (freed u) := h.weftRelease _ _ _
  split
  · exact hfreed _ ((Still.refl s).freeChain _)
  · exact hfreed _ ((((Still.refl s).arrivalCounted _ _ _).relayCounted _ _ _).freeChain _)
  · exact hfreed _ (.refl s)
  · exact fabricArrive_still _ _ _ _

theorem noteFirstActive_still (s : State) : Still s (noteFirstActive s) := .ite ((Still.refl s).same rfl rfl) (.refl s)

theorem silenceEnds_still (s : State) : Still s (silenceEnds s) := .ite ((Still.refl s).same rfl rfl) (.refl s)

/-- With no twin, its states do not change. -/
theorem twinCheck_still (s : State) : Still s (twinCheck s) := by
  refine .of_cfg ((twinCheck_keeps (mk := allBut .cfg) (Keeps.refl s) (by decide)).cfg (by decide)) fun h => ?_
  have e : twinCheck s = s := by simp [twinCheck, twin_off h]
  rw [e]
  exact .refl s

theorem presentRecord_still (s : State) (kind cid seq n ev : Nat) (data : List Byte) (mirror : Option (Nat × Nat)) (catchUp : Bool) :
    Still s (presentRecord s kind cid seq n ev data mirror catchUp) := by
  unfold presentRecord
  extract_lets bs mk ops _ _ t1
  have h1 : Still s t1 := (Still.refl s).same rfl rfl
  exact .ite (h1.count _ _) h1

theorem sendReleases_still (s : State) : Still s (sendReleases s) := by
  unfold sendReleases
  extract_lets rs _ t1
  have h1 : Still s t1 := (Still.refl s).same rfl rfl
  exact .ite h1 (h1.foldl _ fun u _ => (Still.refl u).foldl _ fun w _ => presentRecord_still w _ _ _ _ _ _ _ _)

theorem adoptionReports_still (s : State) : Still s (adoptionReports s) := by
  refine .of_cfg ((adoptionReports_keeps (mk := allBut .cfg) (Keeps.refl s) (by decide)).cfg (by decide)) fun h => ?_
  have e : adoptionReports s = s := by simp [adoptionReports, fabricOn_off h]
  rw [e]
  exact .refl s

/-- Before LINKS the treadle opens no connection. -/
theorem treadleConns_still (s : State) : Still s (treadleConns s) := by
  refine .of_module ((treadleConns_keeps (mk := allBut .module) (Keeps.refl s) (by decide)).module (by decide)) fun h => ?_
  have e : treadleConns s = s := by simp [treadleConns, inService_config h]
  rw [e]
  exact .refl s

theorem weftSettled_still (s : State) : Still s (weftSettled s) := by
  unfold weftSettled
  extract_lets down errs ins up broken _ t1 t2 t3 t4 t5 t6 t7
  have h6 : Still s t6 := by
    refine .foldl (.foldl (.foldl (.foldl (.foldl ?_ _ relayBroken_still) _ weftClassified_still) _ portDowned_still) _ portRisen_still) _
      weftArrival_still
    exact (Still.refl s).same rfl rfl
  have h7 : Still t6 t7 := by
    refine .of_cfg ?_ fun h => ?_
    · exact (Keeps.foldl (m := allBut .cfg) (.refl t6) (weftPorts t6) fun u p hu => portFollowed_keeps hu (by decide)).cfg (by decide)
    · have e : t7 = t6 := by simp [t7, weftPorts_none h]
      rw [e]
      exact .refl t6
  exact (((((h6.trans h7).trans (noteFirstActive_still _)).trans (twinCheck_still _)).trans (silenceEnds_still _)).trans
    (sendReleases_still _)).trans ((adoptionReports_still _).trans (treadleConns_still _))

/-! ### Late drops, held TLPs, tunnels (R117, R129, R248) -/

theorem Still.launch {s t : State} (h : Still s t) (c : Nat) (o : WireOp) : Still s (launch t c o) := by
  unfold Machine.launch
  refine .ite (h.same rfl rfl) ?_
  split
  · exact h.noRoute _
  · exact (h.storeChain _ _ _ _).enqueueOper _ _ _ _ _ _

theorem lateDropSent_still (s : State) (d : LateDrop) : Still s (lateDropSent s d) := by
  unfold lateDropSent sendNak sendControl
  extract_lets env x t1 y
  have h1 : Still s t1 := (Still.refl s).count _ _
  split
  · exact h1
  · refine .launch ?_ _ _
    exact h1.same rfl rfl

theorem lateDropsSent_still (s : State) : Still s (lateDropsSent s) := by
  refine .foldl ?_ _ lateDropSent_still
  exact (Still.refl s).same rfl rfl

/-- Before LINKS no warp port takes a TLP. -/
theorem tlpIngress_still (p : Nat) (t : Tlp) (s : State) : Still s (tlpIngress p t s) := by
  refine .of_module ((tlpIngress_keeps (mk := allBut .module) (Keeps.refl s) (by decide)).module (by decide)) fun h => ?_
  have e : tlpIngress p t s = s := by simp [tlpIngress, inService_config h]
  rw [e]
  exact .refl s

theorem heldTaken_still (s : State) (v : Nat) : Still s (heldTaken s v) := by
  refine .ite (.refl s) (.foldl ?_ _ fun u r => tlpIngress_still _ _ u)
  exact (Still.refl s).same rfl rfl

/-- With no partition imported a tunnel has no end here. -/
theorem tunnelArrived_still (s : State) (r : Nat × Nat × Option Nat × Tlp) : Still s (tunnelArrived s r) := by
  refine .of_fab ((tunnelArrived_keeps (mk := allBut .fab) (Keeps.refl s) (by decide)).fab (by decide)) fun h => ?_
  have e : tunnelArrived s r = handOver s r.2.2.1 s.loom.nextChain := by simp [tunnelArrived, ownerOf, exporterOf, h]
  rw [e]
  exact (Still.refl s).handOver _ _

theorem tunnelSettled_still (s : State) : Still s (tunnelSettled s) := by
  refine .foldl ?_ _ tunnelArrived_still
  exact (Still.refl s).same rfl rfl

theorem importsFollowed_still (s : State) : Still s (importsFollowed s) := by
  refine .of_fab ((importsFollowed_keeps (mk := allBut .fab) (Keeps.refl s) (by decide)).fab (by decide)) fun h => ?_
  have e : importsFollowed s = s := by simp [importsFollowed, h]
  rw [e]
  exact .refl s

/-! ### The engine (R129, R311) -/

theorem Still.descMod {s t : State} (h : Still s t) (k : Ticket) (f : DescState → DescState) : Still s (descMod t k f) := by
  unfold Machine.descMod
  split
  · split
    · exact h.same rfl rfl
    · exact h
  · exact h

theorem Still.descCond {s t : State} (h : Still s t) (k : Ticket) (status detail : Nat) : Still s (descCond t k status detail) :=
  h.descMod _ _

theorem Still.present {s t : State} (h : Still s t) (op : NewOp) : Still s (present t op) :=
  (h.storeChain _ _ _ _).same rfl rfl

theorem Still.presentFence {s t : State} (h : Still s t) (c : Nat) (o : Origin) (x : Option Tlp) (k : Option Ticket) (inst ord : Nat) :
    Still s (presentFence t c o x k inst ord) := (h.count _ _).present _

theorem Still.presentDesc {s t : State} (h : Still s t) (k : Ticket) (d : DescState) : Still s (presentDesc t k d) := by
  unfold Machine.presentDesc
  extract_lets +onlyGivenNames o t1
  have h1 : Still s t1 := h.descMod _ _
  refine .ite h1 ?_
  split
  · exact .ite h1 (h1.descCond _ _ _)
  · extract_lets put fence t2 data ps last t3
    have hput (u : State) (op : NewOp) : Still u (put u op) := ((Still.refl u).descMod _ _).present _
    have hfence (u : State) (hu : Still s u) : Still s (fence u) := (hu.descMod _ _).presentFence _ _ _ _ _ _
    have h2 : Still s t2 := .ite (hfence _ h1) h1
    have h3 : Still s t3 := by
      unfold t3
      split
      · exact h2.foldl _ fun u p => hput u _
      · exact h2.foldl _ fun u p => hput u _
      · exact h2.trans (hput _ _)
      · exact hfence _ h2
      · exact h2
    exact .ite (hfence _ h3) h3

theorem Still.advanceQueue {s t : State} (h : Still s t) (fuel i q : Nat) : Still s (advanceQueue fuel t i q) := by
  induction fuel generalizing t with
  | zero => exact h
  | succ fuel ih =>
    unfold Machine.advanceQueue
    split
    · exact h
    · split
      · exact h
      · exact .ite h (ih (h.presentDesc _ _))

theorem engineAnswer_still (s : State) (a : Nat × Nat × Bool × List Byte) : Still s (engineAnswer s a) := by
  unfold engineAnswer
  split
  · exact .refl s
  · dsimp only
    refine .ite (.advanceQueue (.descCond (.descMod ?_ _ _) _ _ _) _ _ _) (.ite ?_ (.advanceQueue (.descMod ?_ _ _) _ _ _))
    · exact (Still.refl s).same rfl rfl
    · exact ((Still.refl s).descMod _ _).same rfl rfl
    · exact ((Still.refl s).descMod _ _).same rfl rfl

theorem msi_adm (s : State) (v fn vec : Nat) : (msi s v fn vec).eng.adm = s.eng.adm := by
  unfold msi
  split
  · rfl
  · split <;> rfl

/-- An admin queue that completes a command is enabled. -/
theorem admFinish_still (s : State) (c : AdmCmd) (status detail result : Nat) : Still s (admFinish s c status detail result) := by
  unfold admFinish
  extract_lets x n t1 t
  split
  · exact .refl s
  · next he =>
    intro hc
    have hlt : c.vs < 32 := by
      by_contra hge
      exact he (by simp [x, admOf, vget, Vector.getElem?_eq_none (Nat.le_of_not_lt hge)])
    have hoff := hc.adm c.vs
    simp only [admOf, msi_adm, setAdm, vget_vset_same _ _ _ _ hlt] at hoff
    simp [hoff] at he

theorem Still.finishWaits {s t : State} (h : Still s t) (f : OpenCmd → Bool) (status detail : Nat) (result : OpenCmd → Nat) :
    Still s (finishWaits t f status detail result) := by
  refine .foldl ?_ _ fun u w => admFinish_still u _ _ _ _
  exact h.same rfl rfl

theorem engineSettled_still (s : State) : Still s (engineSettled s) := by
  refine .finishWaits (.foldl ?_ _ engineAnswer_still) _ _ _ _
  exact (Still.refl s).same rfl rfl

end Sys2Proof.Scope
end

section
/-!
What the warp ports and the dobby's masters have left for the end of a step leaves a calm state as it was.
-/

namespace Sys2Proof.Scope

open Sys2Proof.Machine Sys2Proof.Laws

-- One declaration at a time: side by side their threads are too much for the memory limit of the check.
set_option Elab.async false

/-! ### Error messages to the hosts (R141) -/

/-- A message whose sender wants no answer is refused in silence. -/
theorem refuseTlp_message (s : State) (src status : Nat) (t : Tlp) (h : t.kind = .message) : refuseTlp s src {} t status = s := by
  simp [refuseTlp, tlpKind, h]

theorem Still.dropPosted {s t : State} (h : Still s t) (p : Nat) : Still s (dropPosted t p) := by
  unfold Machine.dropPosted
  extract_lets x t1
  have h1 : Still s t1 := .ite (h.same rfl rfl) h
  exact h1.count _ _

/-- Heddles check no messages. -/
theorem toPort_message_still (s : State) (p src : Nat) (t : Tlp) (h : t.kind = .message) : Still s (toPort s p src {} t) := by
  have hk : tlpKind t = 0 := by simp [tlpKind, h]
  unfold toPort
  simp only [hk, Nat.zero_ne_one, if_false, if_true, refuseTlp_message _ _ _ _ h]
  refine .ite ?_ ((Still.refl s).dropPosted _)
  unfold deliverTlp
  simp only [tlpAccess, h, refuseTlp_message _ _ _ _ h]
  exact .ite (.refl s) ((Still.refl s).enqueueTlp _ _ _ _ _ _)

/-- A partition that is off sends its host no error message. -/
theorem errorsSent_still (s : State) : Still s (errorsSent s) := by
  unfold errorsSent
  refine .foldl ?_ _ fun u e => ?_
  · exact (Still.refl s).same rfl rfl
  · dsimp only
    split
    · next hv =>
      refine .of_cfg ((Keeps.ite (.refl u) (toUpstream_keeps (mk := allBut .cfg) (.refl u) (by decide))).cfg (by decide)) fun h => ?_
      rw [if_pos (by simp [vsState, partEnabled_off h hv])]
      exact .refl u
    · exact toPort_message_still _ _ _ _ rfl

/-! ### The dobby (R386, R390, R398): what its masters do goes through partition 0 -/

/-- A denial enters the log of its heddle; what follows is its report. -/
theorem denied_logged (s : State) (k cls kind : Nat) (inbound : Bool) (addr region sub : Nat) :
    ∃ u, look u = look (privCount s (denyCounter k cls inbound)) ∧
      (k ≠ 0 → logs u = logs (privCount s (denyCounter k cls inbound))) ∧ Still u (denied s k cls kind inbound addr region sub) := by
  unfold denied
  extract_lets t1 l1 l2 _ t2 info
  refine ⟨t2, rfl, fun hk => Prod.ext rfl ((Tbl.get_set _ _ _ _ _).trans (if_neg hk.symm)), ?_⟩
  exact .ite (.event (.refl t2) (by decide)) (.ite (.event (.refl t2) (by decide))
    (.rateEvent (.refl t2) fun u _ => (Still.refl u).event (by decide)))

/-- Denials at other heddles than P0's leave its log. -/
theorem Still.denied {s t : State} (h : Still s t) {k : Nat} (hk : k ≠ 0) (cls kind : Nat) (inbound : Bool) (addr region sub : Nat) :
    Still s (denied t k cls kind inbound addr region sub) := by
  obtain ⟨u, hl, hd, hu⟩ := denied_logged t k cls kind inbound addr region sub
  exact ((h.privCount _).same hl (hd hk)).trans hu

/-- A denial at any heddle shows in the records, or not at all. -/
theorem denied_look {s : State} {k cls kind : Nat} {inbound : Bool} {addr region sub : Nat}
    (c : Calm (denied s k cls kind inbound addr region sub)) : look (denied s k cls kind inbound addr region sub) = look s := by
  obtain ⟨u, hl, -, hu⟩ := denied_logged s k cls kind inbound addr region sub
  have e := (hu c).1
  exact e.trans (hl.trans ((Still.refl s).privCount _ ((c.congr e).congr hl)).1)

/-- Partition 0 has no host whose heddle could deny an interrupt. -/
theorem msi_still (s : State) (fn vec : Nat) : Still s (msi s 0 fn vec) := by
  refine .of_cfg ((msi_keeps (mk := allBut .cfg) (Keeps.refl s) (by decide)).cfg (by decide)) fun h => ?_
  unfold msi
  refine .ite ((Still.refl s).same rfl rfl) ?_
  simp only [hostDenial, upPort_zero h]
  exact (Still.refl s).same rfl rfl

theorem Still.postedFailure {s t : State} (h : Still s t) (func c mid window offset seq reason : Nat) :
    Still s (postedFailure t 0 func c mid window offset seq reason) := by
  unfold Machine.postedFailure
  extract_lets sev seq t1 t2 t3 _ t4
  have h4 : Still s t4 := (((h.eventFull (by decide)).eventFull (by decide)).count _ _).same rfl rfl
  split
  · exact h4.same rfl rfl
  · exact .trans (h4.same rfl rfl) (msi_still _ _ _)

section
variable {o : Origin} (ho : o.ret = .dobby) (hv : o.vs = 0)
include ho

/-- The answer to the dobby goes to it through the loom. -/
theorem Still.answer {s t : State} (h : Still s t) (src : Nat) (q : Tlp) (completer status : Nat) (ep : Bool) (data : List Byte) :
    Still s (answer t src o q completer status ep data) := by
  unfold Machine.answer
  simp only [ho]
  exact h.enqueueTlp _ _ _ _ _ _

theorem Still.refuseTlp {s t : State} (h : Still s t) (src : Nat) (q : Tlp) (status : Nat) : Still s (refuseTlp t src o q status) := by
  unfold Machine.refuseTlp
  refine .ite h (.ite ?_ ?_)
  · have hu : Still s (if status = 1 then aerUnsupported t src (q.addr % 2 ^ 64 * 2 ^ 64) else t) :=
      .ite (h.keeps (aerUnsupported_keeps (mk := 256) (Keeps.refl t) (by decide)) (by decide)) h
    exact .answer ho (.ite (hu.count _ _) hu) _ _ _ _ _ _
  · simp only [ho]
    exact h.answer ho _ _ _ _ _ _

/-- The heddles of the module and of the dobby are not P0's. -/
theorem deliverTlp_still (s : State) {d : Nat} (hd : d ≠ 0) (src : Nat) (q : Tlp) : Still s (deliverTlp s d src o q) := by
  unfold deliverTlp
  refine .ite ((Still.refl s).refuseTlp ho _ _ _) ?_
  split
  · exact (Still.refl s).enqueueTlp _ _ _ _ _ _
  · split
    · exact .refuseTlp ho ((Still.refl s).denied hd _ _ _ _ _ _) _ _ _
    · exact .enqueueTlp (.filterItem (.count (.refl s) _ _) _ _) _ _ _ _ _ _

include hv

theorem Still.refuseAccess {s t : State} (h : Still s t) (i src : Nat) (q : Tlp) (imp : Option (Nat × Import)) (cause : Nat) :
    Still s (refuseAccess t i src o q imp cause) := by
  unfold Machine.refuseAccess
  extract_lets n t1
  have h1 : Still s t1 := .count (.eventFull h (by decide)) _ _
  refine .ite ?_ (h1.answer ho _ _ _ _ _ _)
  rw [hv]
  split
  · exact h1.postedFailure _ _ _ _ _ _ _
  · exact h1.postedFailure _ _ _ _ _ _ _

theorem Still.poisonedAccess {s t : State} (h : Still s t) (i src : Nat) (q : Tlp) : Still s (poisonedAccess t i src o q) := by
  unfold Machine.poisonedAccess
  extract_lets t1
  have h1 : Still s t1 := .count (.eventFull h (by decide)) _ _
  refine .ite ?_ (h1.answer ho _ _ _ _ _ _)
  rw [hv]
  split
  · exact h1.postedFailure _ _ _ _ _ _ _
  · exact h1.postedFailure _ _ _ _ _ _ _

omit ho hv in
theorem Still.presentLoad {s t : State} (h : Still s t) (x : Import) (i src : Nat) (q : Tlp) : Still s (presentLoad t x i src o q) := by
  unfold Machine.presentLoad
  dsimp only
  split
  · exact h.present _
  · exact h.present _
  · exact h.present _

omit ho hv in
theorem Still.presentStore {s t : State} (h : Still s t) (n : Nat) (x : Import) (i src : Nat) (q : Tlp) :
    Still s (presentStore t n x i src o q) := by
  unfold Machine.presentStore
  exact h.foldl _ fun u p => (Still.refl u).present _

theorem apertureAccess_still (s : State) (i src : Nat) (q : Tlp) : Still s (apertureAccess s i src o q) := by
  unfold apertureAccess
  split
  · exact .ite (.refl s) ((Still.refl s).answer ho _ _ _ _ _ _)
  · refine .ite (.ite ((Still.refl s).count _ _) ((Still.refl s).answer ho _ _ _ _ _ _)) ?_
    extract_lets t1
    have h1 : Still s t1 := (Still.refl s).filterItem _ _
    refine .ite (h1.poisonedAccess ho hv _ _ _) ?_
    split
    · exact h1.refuseAccess ho hv _ _ _ _ _
    · refine .ite (h1.refuseAccess ho hv _ _ _ _ _) (.ite (h1.refuseAccess ho hv _ _ _ _ _)
        (.ite (.ite (h1.presentStore _ _ _ _ _) (h1.presentLoad _ _ _ _)) ?_))
      split
      · exact h1.presentStore _ _ _ _ _
      · dsimp only
        refine .ite (h1.presentLoad _ _ _ _) (.ite (.answer ho (h1.count _ _) _ _ _ _ _ _) (.count ?_ _ _))
        exact h1.same rfl rfl
      · exact h1.presentLoad _ _ _ _

end

/-! ### Cycles of the dobby's masters -/

/-- Every row of 0x6011 has the default 0. -/
theorem objDefault_window (sub : Nat) : objDefault 0x6011 sub = 0 := by
  have hall : ∀ r ∈ objRows (0x6011 / 256), r.index = 0x6011 → r.dflt = 0 := by decide +kernel
  unfold objDefault
  split
  · next r hr =>
    have hp := List.find?_some hr
    simp only [decide_eq_true_eq] at hp
    exact hall r (List.mem_of_find?_eq_some hr) hp.1
  · rfl

theorem Tbl.get_lt {t : Tbl Nat} {k d b : Nat} (h : ∀ r ∈ t, r.2 < b) (hd : d < b) : Tbl.get t k d < b := by
  induction t with
  | nil => exact hd
  | cons r t ih =>
    have ih := ih fun x hx => h x (List.mem_cons_of_mem _ hx)
    unfold Tbl.get Tbl.find?
    split
    · exact h r List.mem_cons_self
    · exact ih

/-- No value of the configuration reaches bit 64. -/
theorem inWin_shift {s : State} (h : s.cfg = spoolCfg) (n : Nat) {k : Nat} (hk : 64 ≤ k) : inWin s n >>> k = 0 := by
  have hall : ∀ r ∈ spoolCfg, r.2 < 2 ^ 64 := by decide +kernel
  have hw : inWin s n < 2 ^ 64 := by
    simp only [inWin, cfgv, h, objDefault_window]
    exact Tbl.get_lt hall (by decide)
  exact Nat.shiftRight_eq_zero _ _ (hw.trans_le (Nat.pow_le_pow_right (by decide) hk))

theorem bridgeWhere_zero {s : State} (h : s.cfg = spoolCfg) (f : Nat → Bool) : bridgeWhere s 0 f = none := by
  simp [bridgeWhere, downPorts_zero h]

theorem internalHop_ne_port (s : State) (v a p : Nat) : internalHop s v a ≠ some (.port p) := by
  unfold internalHop
  dsimp only
  repeat' split
  all_goals simp

/-- Partition 0 has no port that a dobby's access could leave by. -/
theorem routeHop_ne_port {s : State} (h : s.cfg = spoolCfg) {q : Tlp} (hq : q.kind = .memRead ∨ q.kind = .memWrite) (p : Nat) :
    routeHop s 0 129 false q ≠ .port p := by
  have ha : routeHop s 0 129 false q = addressHop s 0 129 false false q := by
    rcases hq with e | e <;> simp [routeHop, e]
  rw [ha]
  unfold addressHop
  simp only [Bool.false_and, Bool.false_eq_true, if_false, bridgeWhere_zero h]
  split
  · next x hx => exact fun e => internalHop_ne_port s 0 q.addr p (e ▸ hx)
  · unfold upHop
    split <;> simp

section
variable {o : Origin} (ho : o.ret = .dobby) (hv : o.vs = 0)
include ho

theorem toUpstream_still (s : State) (src : Nat) (q : Tlp) : Still s (toUpstream s 0 src o q) := by
  refine .of_cfg ((toUpstream_keeps (mk := allBut .cfg) (Keeps.refl s) (by decide)).cfg (by decide)) fun h => ?_
  refine .of_fab ((toUpstream_keeps (mk := allBut .fab) (Keeps.refl s) (by decide)).fab (by decide)) fun hf => ?_
  have e : toUpstream s 0 src o q = refuseTlp s src o q 1 := by simp [toUpstream, upPort_zero h, tunnelCid, hf]
  rw [e]
  exact (Still.refl s).refuseTlp ho _ _ _

omit ho in
/-- A group of partition 0 has no members. -/
theorem mcastTlp_still {s : State} (h : s.cfg = spoolCfg) (src : Nat) (q : Tlp) (g : Nat) : Still s (mcastTlp s 0 src o q g) := by
  unfold mcastTlp
  refine .ite ((Still.refl s).keeps (aerPort_keeps (mk := 256) (Keeps.refl s) (by decide)) (by decide)) ?_
  extract_lets r
  have hr : r.1.cfg = spoolCfg := ((storeChain_keeps (mk := allBut .cfg) (Keeps.refl s) (by decide)).cfg (by decide)).trans h
  have hm : mcastMembers r.1 0 src g = [] := by simp [mcastMembers, downPorts_zero hr, upPort_zero hr]
  rw [hm]
  exact .dropRef (.storeChain (.refl s) _ _ _ _) _

include hv

theorem toHop_still (s : State) (src : Nat) {q : Tlp} (hi : q.ide = none) {x : Hop} (hx : ∀ p, x ≠ .port p) :
    Still s (toHop s 0 src o q x) := by
  have hs : ideStays s src q = false := by simp [ideStays, hi]
  cases x with
  | port p => exact absurd rfl (hx p)
  | up => exact toUpstream_still ho s src q
  | none => exact (Still.refl s).refuseTlp ho _ _ _
  | blocked => exact (Still.refl s).refuseTlp ho _ _ _
  | config f => exact (Still.refl s).enqueueTlp _ _ _ _ _ _
  | mgmt f => exact deliverTlp_still ho s (by decide) _ _
  | vf i f => exact deliverTlp_still ho s (by decide) _ _
  | dobReg f => exact deliverTlp_still ho s (by decide) _ _
  | aperture i f =>
    simp only [toHop, hs, Bool.false_eq_true, if_false]
    exact apertureAccess_still ho hv s _ _ _
  | dobOut f =>
    simp only [toHop, hs, Bool.false_eq_true, if_false]
    exact .ite ((Still.refl s).refuseTlp ho _ _ _) (deliverTlp_still ho s (by decide) _ _)
  | proxy e => exact .refl s

theorem routeTlp_still {s : State} (h : s.cfg = spoolCfg) {q : Tlp} (hq : q.kind = .memRead ∨ q.kind = .memWrite) (hi : q.ide = none) :
    Still s (routeTlp s 0 129 false o q) := by
  unfold routeTlp
  split
  · exact mcastTlp_still h _ _ _
  · have hm : q.kind ≠ .message := by rcases hq with e | e <;> simp [e]
    simp only [hm, decide_false, Bool.false_and, Bool.false_eq_true, if_false]
    exact toHop_still ho hv s _ hi (routeHop_ne_port h hq)

end

theorem inSend_still (s : State) (n : Nat) (write : Bool) (tag : Nat) (p : Nat × Nat × Nat) (data : List Byte) :
    Still s (inSend s n write true tag p data) := by
  refine .of_cfg ((inSend_keeps (mk := allBut .cfg) (Keeps.refl s) (by decide)).cfg (by decide)) fun h => ?_
  have hb : bit (inWin s n) 254 = false := by simp [bit, inWin_shift h n]
  have hz : bits (inWin s n) 230 5 = 0 := by simp [bits, inWin_shift h n]
  unfold inSend
  simp only [hb, hz, Bool.false_eq_true, if_false]
  refine routeTlp_still (by simp [inOrigin]) (by simp [inOrigin, hz, hb]) h ?_ rfl
  cases write
  · exact .inl rfl
  · exact .inr rfl

theorem inAccess_still (s : State) (n : Nat) (x : DobIn) (write : Bool) (a len : Nat) (data : List Byte) :
    Still s (inAccess s n x write true a len data) := by
  refine .of_cfg ((inAccess_keeps (mk := allBut .cfg) (Keeps.refl s) (by decide)).cfg (by decide)) fun h => ?_
  have hb : bit (inWin s n) 254 = false := by simp [bit, inWin_shift h n]
  unfold inAccess
  simp only [hb, Bool.false_and, Bool.false_eq_true, if_false, if_true]
  refine .foldl ?_ _ fun u k => inSend_still u _ _ _ _ _
  exact (Still.refl s).same rfl rfl

/-- The source of the inbound writes has no room at all. -/
theorem inRoom_none {s : State} (h : s.cfg = spoolCfg) (c : VmeCycle) : inRoom s c = false := by
  have hc : 1 ≤ cells (c.len + 48) := Nat.le_max_left _ _
  simp only [inRoom, inboundReserve_zero h, decide_eq_false_iff_not]
  omega

theorem drainInbuf_none {s : State} (h : s.cfg = spoolCfg) (fuel : Nat) : drainInbuf fuel s = s := by
  cases fuel with
  | zero => rfl
  | succ fuel =>
    unfold drainInbuf
    split
    · rfl
    · simp [inRoom_none h]

theorem inStart_still (s : State) (x : DobIn) : Still s (inStart s x) := by
  refine .of_cfg ((inStart_keeps (mk := allBut .cfg) (Keeps.refl s) (by decide)).cfg (by decide)) fun h => ?_
  have hp (y : DobIn) : isPosted s y = false := by simp [isPosted, bit, inWin_shift h]
  unfold inStart inWrite inRead
  simp only [hp, Bool.false_eq_true, if_false]
  refine .ite ((Still.refl s).same rfl rfl) (.ite (inAccess_still _ _ _ _ _ _ _) (inAccess_still _ _ _ _ _ _ _))

theorem dobbySettled_still (s : State) : Still s (dobbySettled s) := by
  refine .of_cfg ((dobbySettled_keeps (mk := allBut .cfg) (Keeps.refl s) (by decide)).cfg (by decide)) fun h => ?_
  unfold dobbySettled
  simp only [drainInbuf_none h]
  split
  · next x hx =>
    have hd : (inStart s x).cfg = spoolCfg := ((inStart_keeps (mk := allBut .cfg) (Keeps.refl s) (by decide)).cfg (by decide)).trans h
    simp only [drainInbuf_none hd]
    exact .ite (inStart_still s x) (.refl s)
  · exact .refl s

end Sys2Proof.Scope
end

section
/-!
The stored configuration (R433): the event that reports a refusal is a record of the installer ring, and the spool line that it fills is a
write to a host, which the heddle of that host's port checks (R333). A denied line enters the heddle's log, so a refusal does not always leave
the heddles as they were.
-/

namespace Sys2Proof.Scope

open Sys2Proof.Machine Sys2Proof.Laws

-- One declaration at a time: side by side their threads are too much for the memory limit of the check.
set_option Elab.async false

/-! ### The end of a step -/

theorem foldl_denied_look {l : List LateDenial} {s : State}
    (c : Calm (l.foldl (fun s d => denied s d.heddle d.cls d.kind false d.addr d.region d.sub) s)) :
    look (l.foldl (fun s d => denied s d.heddle d.cls d.kind false d.addr d.region d.sub) s) = look s := by
  induction l generalizing s with
  | nil => rfl
  | cons d l ih =>
    have e := ih c
    exact e.trans (denied_look (c.congr e))

theorem denialsRecorded_calm {s : State} (c : Calm (denialsRecorded s)) : Calm s := c.congr (foldl_denied_look c)

theorem denialsRecorded_none {s : State} (h : s.hed.late = []) : (denialsRecorded s).hed.denied = s.hed.denied := by
  simp [denialsRecorded, h]

/-- A module found in CONFIG has not changed its state for its health. -/
theorem health_config {s : State} {n : Nat} (h : (health s n).module.state = .config) : health s n = s := by
  unfold health at *
  split at h
  · next hs =>
    split at h
    · simp [changeState_state] at h
    · simp [hs] at h
  · next hs =>
    split at h
    · simp [hs] at h
    · simp [changeState_state] at h
  · rfl

/-- The end of a step up to the denials that wait for their logs. -/
def blocksSettled (s : State) : State :=
  dobbySettled (errorsSent (importsFollowed (engineSettled (tunnelSettled (heldSettled (lateDropsSent (weftSettled s)))))))

theorem settle_eq (s : State) : settle s = health (denialsRecorded (blocksSettled s)) 0 := rfl

theorem blocksSettled_still (s : State) : Still s (blocksSettled s) :=
  (((((((weftSettled_still s).trans (lateDropsSent_still _)).foldl _ heldTaken_still).trans (tunnelSettled_still _)).trans
    (engineSettled_still _)).trans (importsFollowed_still _)).trans (errorsSent_still _)).trans (dobbySettled_still _)

/-- A step whose end is calm has logged no denial that did not wait for P0's heddle when the end began. -/
theorem settle_log {s : State} (c : Calm (settle s)) (hl : s.hed.late = []) :
    Tbl.get (settle s).hed.denied 0 {} = Tbl.get s.hed.denied 0 {} := by
  rw [settle_eq] at c ⊢
  have hh := health_config c.state
  rw [hh] at c ⊢
  obtain ⟨-, hd⟩ := blocksSettled_still s (denialsRecorded_calm c)
  obtain ⟨hlate, hlog⟩ := Prod.mk.inj hd
  rw [denialsRecorded_none (hlate.trans hl), hlog]

/-! ### The counterexample -/

/-- The installer ring, armed, one record short of a line. -/
def fillingRing : RingState := { armed := true, released := 0xFFFFFF, held := [{ code := 0x0900 }, { code := 0x0900 }] }

/-- A module in CONFIG whose stored configuration would unlock it, which is refused. Its next spool line goes to the host of partition 1,
and the heddle of P0 gives a partition no pass to its own host and has no region. The last event 0x0800 of P0 is less than 1 ms old. -/
def refusing : State :=
  { cfg := spoolCfg, flash := [(key 0x7F01 0, 0)], module := { state := .config }
    hed := { own := [(0, 0)] }
    eng := { fnBme := 2 }
    obs := { live := true, rings := vset (Vector.replicate 33 {}) 32 fillingRing, lastAt := [(0x0800 * 2 ^ 32, 0)] } }

/-- The end of the step in which it commits its stored configuration. -/
def refusedEnd : State := settle (storedConfigCommit refusing)

theorem refusing_refused : (storedRefusal refusing).isSome = true := by decide +kernel

/-- The line of event 0x0C0F is denied, and the heddle of P0 logs it before the step ends. -/
theorem refusedEnd_values : refusedEnd.cfg = spoolCfg ∧ refusedEnd.module.state = .config ∧ refusedEnd.fab.imported = [] ∧
    refusedEnd.eng.adm = Vector.replicate 32 {} ∧ refusedEnd.obs.history.getLast?.map EventRec.code = some 0x0C0F ∧
    (Tbl.get refusedEnd.hed.denied 0 {}).count = 1 := by
  decide +kernel

theorem refusedEnd_calm : Calm refusedEnd := by
  obtain ⟨hc, hs, hf, ha, hl, -⟩ := refusedEnd_values
  refine ⟨hc, hs, hf, fun v => ?_, hl⟩
  by_cases hv : v < 32 <;> simp [admOf, ha, vget, hv]

/-- Refutes O35, at its second clause: the line that reports the refusal is denied, and the heddle's log gains that denial. The clause asks
for some state with the heddles as they were whose end is the end of the step; that end being calm, none gives the log the denial. -/
theorem not_storedConfiguration : ¬ Obligations.StoredConfiguration := by
  unfold Obligations.StoredConfiguration
  rintro ⟨-, h⟩
  obtain ⟨u, he, -, -, -, hu⟩ := h refusing rfl rfl refusing_refused
  have hn : refusedEnd = settle u := Host.Outcome.next.inj he
  have hlog := settle_log (s := u) (hn ▸ refusedEnd_calm) (by rw [hu]; rfl)
  obtain ⟨-, -, -, -, -, hone⟩ := refusedEnd_values
  rw [hn, hlog, hu] at hone
  exact absurd hone (by decide)

end Sys2Proof.Scope
end

section
/-!
The governor's period and its moves, and the thermal loop (R28, R33, R35, R36, R39, R172).
-/

namespace Sys2Proof.Scope

open Sys2Proof.Machine

/-! ### The period (R33) -/

/-- `t` has the readings of the feeds, the limits and the move of `s`: only the conditions that a period reports, and the hardware's own
current limits, may differ. -/
structure PeriodStands (s t : State) : Prop where
  gov : ∃ b a u l, t.gov = { s.gov with belowFloor := b, atFloorSince := a, unmet := u, floorLowered := l }
  feeds : (t.power.a.mv, t.power.a.ma, t.power.b.mv, t.power.b.ma) = (s.power.a.mv, s.power.a.ma, s.power.b.mv, s.power.b.ma)

theorem PeriodStands.trans {s t u : State} (h : PeriodStands s t) (k : PeriodStands t u) : PeriodStands s u := by
  obtain ⟨⟨_, _, _, _, ht⟩, hf⟩ := h
  obtain ⟨⟨_, _, _, _, hu⟩, kf⟩ := k
  exact ⟨⟨_, _, _, _, by rw [hu, ht]⟩, kf.trans hf⟩

theorem unmetCheck_stands (s : State) (l : Nat) : PeriodStands s (unmetCheck s l) := by
  obtain ⟨u, h⟩ := unmetCheck_gov s l
  exact ⟨⟨_, _, u, _, h⟩, by rw [unmetCheck_power]⟩

theorem lowerIlimit_stands (s : State) (f : Feed) : PeriodStands s (lowerIlimit s f) := by
  obtain ⟨hg, hav, haa, hbv, hba⟩ := lowerIlimit_feeds s f
  exact ⟨⟨_, _, _, _, hg⟩, by rw [hav, haa, hbv, hba]⟩

theorem floorPeriod_stands (s : State) : PeriodStands s (floorPeriod s) := by
  obtain ⟨b, a, h⟩ := floorPeriod_gov s
  exact ⟨⟨b, a, _, _, h⟩, by rw [floorPeriod_power]⟩

/-- A period that is due measures, computes the limits and moves; what follows the move only reports. -/
theorem governorPeriod_moves {aMv bMv aMa bMa powerW stagePs : Nat} {s : State} (hr : s.gov.running = true)
    (hp : s.gov.periodAt + 100000 ≤ s.now) :
    ∃ l, PeriodStands (governorMove (governorLimits (governorSample s aMv bMv aMa bMa) powerW stagePs) l)
      (governorPeriod aMv bMv aMa bMa powerW stagePs s) := by
  have he : elapsed s s.gov.periodAt (100 * us) = true := decide_eq_true hp
  unfold governorPeriod
  rw [if_pos ⟨hr, he⟩]
  exact ⟨_, (unmetCheck_stands _ _).trans ((lowerIlimit_stands _ .a).trans ((lowerIlimit_stands _ .b).trans (floorPeriod_stands _)))⟩

/-- Settles O4: the limits are computed from the sample, and after the move they stand. -/
theorem governorPeriodEffect : Obligations.GovernorPeriodEffect := by
  unfold Obligations.GovernorPeriodEffect
  intro aMv bMv aMa bMa powerW stagePs s hr hp
  obtain ⟨l, ⟨b, a, u, f, hg⟩, hf⟩ :=
    governorPeriod_moves (aMv := aMv) (bMv := bMv) (aMa := aMa) (bMa := bMa) (powerW := powerW) (stagePs := stagePs) hr hp
  obtain ⟨hv, hc, hpw, hsp, hat, htw, hfw, hl, hpow⟩ :=
    governorMove_gov (governorLimits (governorSample s aMv bMv aMa bMa) powerW stagePs) l
  refine ⟨governorPeriod aMv bMv aMa bMa powerW stagePs s, rfl, ?_⟩
  dsimp only
  rw [hf, hg, hpow]
  dsimp only
  rw [hpw, hsp, hat, htw, hfw, hl, governorLimits_power]
  rw [governorLimits_gov] at hv hc ⊢
  exact ⟨rfl, rfl, rfl, rfl, rfl, rfl, hv, hc, rfl⟩

/-! ### The capacity floor (R39), the regulator and the loom (R35, R172) -/

theorem capacityFloorClear_clears {t0 : Nat} {s : State} (hb : s.gov.belowFloor = true) (hc : cfgv s 0x2100 3 ≤ s.gov.capacity)
    (ha : s.gov.atFloorSince = some t0) (ht : t0 + 10000000 ≤ s.now) :
    Leaves (.capacityFloorClear) s fun t => t.gov = { s.gov with belowFloor := false, atFloorSince := none } := by
  have he : elapsedOpt s s.gov.atFloorSince (10 * ms) = true := by
    rw [ha]
    exact decide_eq_true ht
  refine ⟨capacityFloorClear s, rfl, ?_⟩
  dsimp only [capacityFloorClear]
  rw [if_pos ⟨hb, hc, he⟩, floorCleared, health_gov, event_gov]

/-- The raise is over whether or not the capacity of the raised voltage is the higher one. -/
theorem vcoreRaiseDone_publishes {mv v : Nat} {s : State} (hr : s.gov.raising = some v) (hv : v ≤ mv) :
    Leaves (.vcoreRaiseDone mv) s fun t => t.gov.raising = none ∧ t.gov.vcore = s.gov.vcore ∧ t.gov.lowering = s.gov.lowering ∧
      t.gov.capacity = max s.gov.capacity (capacityNow s.gov.vcore s.gov.tjHot s.gov.stagePs) := by
  refine ⟨vcoreRaiseDone mv s, rfl, ?_⟩
  dsimp only [vcoreRaiseDone]
  rw [hr]
  dsimp only
  rw [if_pos hv]
  split
  · next hlt =>
    obtain ⟨b, a, hg⟩ := publish_gov { s with gov := { s.gov with raising := none } }
      (capacityNow s.gov.vcore s.gov.tjHot s.gov.stagePs)
    rw [hg]
    exact ⟨rfl, rfl, rfl, (max_eq_right hlt.le).symm⟩
  · next hge => exact ⟨rfl, rfl, rfl, (max_eq_left (not_lt.mp hge)).symm⟩

theorem loomRescaleDone_lowers {s : State} (h : s.gov.rescaling = true) :
    Leaves (.loomRescaleDone) s fun t => t = { s with gov := { s.gov with
      rescaling := false, vcore := s.gov.lowering.getD s.gov.vcore, lowering := none } } :=
  ⟨loomRescaleDone s, rfl, if_pos h⟩

/-! ### The thermal loop (R36) -/

/-- How the loop drives THERM_N: low from 145 °C on, released below 140 °C once the limit is back at 330 W. -/
def thermDriven (s : State) (tj : Int) (w : Nat) : Bool :=
  if 145000 ≤ tj then true else if tj < 140000 ∧ w = 330 then false else s.gov.thermN

/-- The governor after a period of the thermal loop, out of the treadle's pause. -/
def thermalPeriod (s : State) (tj : Int) : GovBlk :=
  let w := thermalStep s.gov.thermalW tj
  let hot := decide (150000 ≤ tj)
  { s.gov with
    tjHot := tj, thermalW := w, thermalAt := s.now, throttling := decide (w < 330), thermN := thermDriven s tj w
    hotSince := if hot then some (s.gov.hotSince.getD s.now) else none
    hotTold := hot && s.gov.hotTold }

theorem thermalLoop_gov {tj : Int} {s : State} (hr : s.gov.running = true) (ht : s.gov.thermalAt + 10000000 ≤ s.now)
    (hp : s.module.pause = none) : (thermalLoop tj s).gov = thermalPeriod s tj := by
  have he : elapsed s s.gov.thermalAt (10 * ms) = true := decide_eq_true ht
  unfold thermalLoop
  rw [if_pos ⟨hr, he⟩]
  simp only [health_gov, apply_ite State.gov, event_gov, ite_self, hp]
  cases h : s.gov.hotSince <;> simp [thermalPeriod, thermDriven, h]

theorem thermalLoop_moves {tj : Int} {s : State} (hr : s.gov.running = true) (ht : s.gov.thermalAt + 10000000 ≤ s.now)
    (hp : s.module.pause = none) :
    Leaves (.thermalLoop tj) s fun t => t.gov.tjHot = tj ∧ t.gov.thermalAt = s.now ∧
      t.gov.thermalW = (if tj < 140000 then min 330 (s.gov.thermalW + 5) else if tj < 145000 then s.gov.thermalW
        else s.gov.thermalW - 10) ∧
      (t.gov.throttling = true ↔ t.gov.thermalW < 330) ∧ (145000 ≤ tj → t.gov.thermN = true) ∧
      (tj < 140000 → t.gov.thermalW = 330 → t.gov.thermN = false) ∧
      (tj < 145000 → (140000 ≤ tj ∨ t.gov.thermalW ≠ 330) → t.gov.thermN = s.gov.thermN) ∧
      t.gov.vcore = s.gov.vcore ∧ t.gov.capacity = s.gov.capacity := by
  refine ⟨thermalLoop tj s, rfl, ?_⟩
  dsimp only
  rw [thermalLoop_gov hr ht hp]
  refine ⟨rfl, rfl, rfl, decide_eq_true_iff, fun h => if_pos h, fun hc hw => ?_, fun hb hn => ?_, rfl, rfl⟩
  · have hl : ¬ 145000 ≤ tj := by omega
    exact (if_neg hl).trans (if_pos ⟨hc, hw⟩)
  · have hl : ¬ 145000 ≤ tj := by omega
    refine (if_neg hl).trans (if_neg ?_)
    rintro ⟨hc, hw⟩
    exact hn.elim (fun h => by omega) (fun h => h hw)

/-- Settles O5, a lemma for each command. -/
theorem governorMoves : Obligations.GovernorMoves := by
  unfold Obligations.GovernorMoves
  exact ⟨fun _ _ hb hc ha ht => capacityFloorClear_clears hb hc ha ht, fun _ _ _ hr hv => vcoreRaiseDone_publishes hr hv,
    fun _ h => loomRescaleDone_lowers h, fun _ _ hr ht hp => thermalLoop_moves hr ht hp⟩

end Sys2Proof.Scope
end

section
/-!
Module-fatal errors and failed images (R36, R353, R444, R529): RECOVERY and HALTED, the rejection of an image on trial, and the warm reset
after the bolt.
-/

namespace Sys2Proof.Scope

open Sys2Proof.Machine Sys2Proof.Laws

/-! ### RECOVERY and HALTED (R353) -/

/-- A fatal cause of R343 enters RECOVERY from wherever the core runs. -/
theorem moduleFatalError_enters {cause : Nat} {s : State} (hl : 40 ≤ cause) (hh : cause ≤ 43) (hr : coreRuns s = true)
    (hs : s.module.state ≠ .recovery) : moduleFatalError cause s = enterRecovery s cause := by
  have hc : fatalCause cause = true := by simp [fatalCause, hl, hh]
  simp [moduleFatalError, hc, hr, hs]

theorem moduleFatalError_recovers {cause : Nat} {s : State} (hl : 40 ≤ cause) (hh : cause ≤ 43) (hr : coreRuns s = true)
    (hs : s.module.state ≠ .recovery) :
    Leaves (.moduleFatalError cause) s fun t => t.module.fatalLast = cause ∧ t.module.warm = none ∧ t.module.pause = none ∧
      t.module.recoveries = recentRecoveries s ++ [s.now] ∧
      t.module.state = (if 3 ≤ (recentRecoveries s).length + 1 then .halted else .recovery) := by
  refine ⟨moduleFatalError cause s, rfl, ?_⟩
  dsimp only
  rw [moduleFatalError_enters hl hh hr hs]
  exact enterRecovery_module s cause hs

/-! ### Tj at 150 °C for 1 s (R36) -/

/-- The time-out is told once at each entry. -/
def hotToldNow (s : State) : State := { s with gov := { s.gov with hotTold := true } }

theorem thermalFatalTimeout_enters {t0 : Nat} {s : State} (hr : coreRuns s = true) (hs : s.module.state ≠ .recovery)
    (ht : s.gov.hotTold = false) (ha : s.gov.hotSince = some t0) (he : t0 + 1000000000 ≤ s.now) :
    thermalFatalTimeout s = enterRecovery (hotToldNow s) 42 := by
  have hc : elapsedOpt s s.gov.hotSince sec = true := by
    rw [ha]
    exact decide_eq_true he
  unfold thermalFatalTimeout
  rw [hr, ht, hc]
  exact moduleFatalError_enters (s := hotToldNow s) (by decide) (by decide) hr hs

theorem thermalFatalTimeout_recovers {t0 : Nat} {s : State} (hr : coreRuns s = true) (hs : s.module.state ≠ .recovery)
    (ht : s.gov.hotTold = false) (ha : s.gov.hotSince = some t0) (he : t0 + 1000000000 ≤ s.now) :
    Leaves (.thermalFatalTimeout) s fun t => t.module.fatalLast = 42 ∧ t.gov.hotTold = true ∧
      t.module.state = (if 3 ≤ (recentRecoveries s).length + 1 then .halted else .recovery) := by
  obtain ⟨hf, -, -, -, hst⟩ := enterRecovery_module (hotToldNow s) 42 hs
  have hg := (enterRecovery_keeps (mk := 7437192) (cause := 42) (Keeps.refl (hotToldNow s)) (by decide)).gov (by decide)
  refine ⟨thermalFatalTimeout s, rfl, ?_⟩
  dsimp only
  rw [thermalFatalTimeout_enters hr hs ht ha he, hg]
  exact ⟨hf, rfl, hst⟩

/-! ### A silent treadle (R444) -/

/-- There are two slots, so an image on trial runs from one of them. -/
theorem running_lt_of_onTrial {s : State} (h : onTrial s = true) : s.module.running < 2 := by
  simp only [onTrial, Bool.and_eq_true, decide_eq_true_eq] at h
  exact h.1

theorem treadleWatchdogExpiry_rejects {s : State} (ht : onTrial s = true) (hs : s.module.trialSince.isSome = true)
    (hp : s.module.pause = none) (he : s.module.watchdogAt + 1000000000 ≤ s.now) :
    Leaves (.treadleWatchdogExpiry) s fun t => (fwSlot t s.module.running).rejected = true ∧
      (fwSlot t s.module.running).trial = false ∧ t.module.trialSince = none := by
  have hc : elapsed s s.module.watchdogAt sec = true := decide_eq_true he
  refine ⟨treadleWatchdogExpiry s, rfl, ?_⟩
  dsimp only [treadleWatchdogExpiry]
  rw [ht, hs, hp, hc]
  exact rollback_slot s 2 (running_lt_of_onTrial ht)

/-! ### The warm reset after the bolt (R529) -/

theorem boltWriteDone_resets {s : State} (hs : s.module.state = .recovery) (hw : s.module.warm = none) :
    Leaves (.boltWriteDone) s fun t => t.module.warm = some .reset ∧ t.module.warmCause = 3 ∧ t.module.warmSince = s.now ∧
      t.module.state = .recovery := by
  refine ⟨boltWriteDone s, rfl, ?_⟩
  simp [boltWriteDone, setModule, hs, hw]

/-- Settles O8, a lemma for each command. -/
theorem fatalAndFailedImages : Obligations.FatalAndFailedImages := by
  unfold Obligations.FatalAndFailedImages
  exact ⟨fun _ _ hl hh hr hs => moduleFatalError_recovers hl hh hr hs,
    fun _ _ hr hs ht ha he => thermalFatalTimeout_recovers hr hs ht ha he,
    fun _ ht hs hp he => treadleWatchdogExpiry_rejects ht hs hp he, fun _ _ hs hw => boltWriteDone_resets hs hw⟩

end Sys2Proof.Scope
end

section
/-!
Lanes (R52, R65 to R68): the freeze of adaptation, a margining run, and the reference clocks.
-/

namespace Sys2Proof.Scope

open Sys2Proof.Machine

/-! ### The freeze of adaptation (R65, R66) -/

/-- A margining run that ends early takes nothing of the lane block but itself and its status. -/
theorem marginAbort_lanes (s : State) (status : Nat) : (marginAbort s status).lanes =
    { s.lanes with run := none, marginStatus := if s.lanes.run = none then s.lanes.marginStatus else status } := by
  unfold marginAbort
  split
  · next h => simp [h]
  · next h => simp [← h]

/-- A freeze begins now, and the run of margining is over. -/
theorem freezeBegin_lanes (s : State) (installer : Bool) : (freezeBegin s installer).lanes = { s.lanes with
    frozen := some (installer, s.now), freezeHeld := none, thawed := [], run := none
    marginStatus := if s.lanes.run = none then s.lanes.marginStatus else 3 } := by
  simp only [freezeBegin, marginAbort_lanes, event_lanes]

theorem adaptFreeze_begins {s : State} (hf : s.lanes.frozen = none) (hh : s.lanes.freezeHeld = none)
    (he : s.lanes.freezeEnd = none) :
    Leaves (.adaptFreeze (.treadle true)) s fun t => t.lanes.frozen = some (false, s.now) ∧ t.lanes.freezeHeld = none ∧
      t.lanes.thawed = [] ∧ t.lanes.lane = s.lanes.lane ∧ t.lanes.run = none := by
  have hb : adaptFreeze (.treadle true) s = freezeBegin s false := by simp [adaptFreeze, freezeRequest, gapPassed, hf, hh, he]
  refine ⟨adaptFreeze (.treadle true) s, rfl, ?_⟩
  simp [hb, freezeBegin_lanes]

theorem adaptFreezeEnd_thaws {b : Bool} {t0 : Nat} {s : State} (hf : s.lanes.frozen = some (b, t0)) (ht : t0 + 2000000 ≤ s.now) :
    Leaves (.adaptFreezeEnd) s fun t => t.lanes = { s.lanes with frozen := none, thawed := [], freezeEnd := some s.now } := by
  have hc : elapsed s t0 (2 * ms) = true := decide_eq_true ht
  refine ⟨adaptFreezeEnd s, rfl, ?_⟩
  simp [adaptFreezeEnd, freezeEnd, hf, hc]

theorem adaptFreezeHeldStart_begins {b : Bool} {t0 : Nat} {s : State} (hh : s.lanes.freezeHeld = some b)
    (hf : s.lanes.frozen = none) (he : s.lanes.freezeEnd = some t0) (ht : t0 + 20000000 ≤ s.now) :
    Leaves (.adaptFreezeHeldStart) s fun t => t.lanes.frozen = some (b, s.now) ∧ t.lanes.freezeHeld = none ∧
      t.lanes.lane = s.lanes.lane := by
  have hg : gapPassed s = true := by simp [gapPassed, he, ms, ht]
  refine ⟨adaptFreezeHeldStart s, rfl, ?_⟩
  simp [adaptFreezeHeldStart, hh, hg, hf, freezeBegin_lanes]

/-! ### Margining (R67, R68) -/

theorem marginStart_runs {sess : Nat} {s : State} (h : MayAct s sess 0x3020 4 1) (hr : s.lanes.run = none)
    (hf : s.lanes.frozen = none) (hl : marginLane s (param s sess 0x3020 1) = true) :
    Leaves (.marginStart sess 1) s fun t => t.lanes = { s.lanes with
      run := some { lane := param s sess 0x3020 1, axis := param s sess 0x3020 2, limit := param s sess 0x3020 3
                    positive := false, step := 1, since := s.now }
      marginStatus := 1, marginNeg := 0, marginPos := 0 } := by
  have hc : marginCheck s sess = 0 := by simp [marginCheck, hr, hf, hl]
  refine ⟨_, rfl, ?_⟩
  dsimp only
  rw [actWrite_done h (by simp [hc]), onOne_one]
  simp [actMarginStart]

theorem marginStep_passes {errors : Nat} {r : MarginRun} {s : State} (hr : s.lanes.run = some r)
    (ht : r.since + 1000000 ≤ s.now) (he : errors ≤ r.limit) (hs : r.step < 63) :
    Leaves (.marginStep errors) s fun t =>
      t = { s with lanes := { s.lanes with run := some { r with step := r.step + 1, since := s.now } } } := by
  have hc : elapsed s r.since ms = true := decide_eq_true ht
  refine ⟨marginStep errors s, rfl, ?_⟩
  simp [marginStep, hr, hc, he, hs]

theorem marginStep_stops {errors : Nat} {r : MarginRun} {s : State} (hr : s.lanes.run = some r)
    (ht : r.since + 1000000 ≤ s.now) (he : r.limit < errors) :
    Leaves (.marginStep errors) s fun t => t.lanes = (if r.positive then
        { s.lanes with run := none, marginStatus := 2, marginPos := r.step - 1 }
      else { s.lanes with marginNeg := r.step - 1, run := some { r with positive := true, step := 1, since := s.now } }) := by
  have hc : elapsed s r.since ms = true := decide_eq_true ht
  refine ⟨marginStep errors s, rfl, ?_⟩
  cases hp : r.positive <;> simp [marginStep, hr, hc, Nat.not_le.2 he, hp]

/-! ### Reference clocks (R52) -/

theorem refclkLost_noted {c : Clk} {s : State} (hr : coreRuns s = true) (hl : bit s.lanes.refLost c = false)
    (hp : clockPorts s c = []) :
    LeavesSettling (.refclkLost c) s fun t =>
      t.lanes = { s.lanes with refLost := putBit s.lanes.refLost c true, refLostAt := Tbl.set s.lanes.refLostAt c s.now } ∧
      t.weft = s.weft ∧ t.warp = s.warp := by
  refine ⟨refclkLost c s, rfl, ?_⟩
  dsimp only [refclkLost]
  rw [hr, hl, clockPorts_congr (s := s) (by simp), hp]
  simp

theorem refclkRestored_noted {c : Clk} {s : State} (hr : coreRuns s = true) (hl : bit s.lanes.refLost c = true)
    (ht : Tbl.get s.lanes.refLostAt c 0 + 1000000 ≤ s.now) (hp : clockPorts s c = []) :
    LeavesSettling (.refclkRestored c) s fun t => t.lanes = { s.lanes with refLost := putBit s.lanes.refLost c false } ∧
      t.weft = s.weft ∧ t.warp = s.warp := by
  have hc : elapsed s (Tbl.get s.lanes.refLostAt c 0) ms = true := decide_eq_true ht
  refine ⟨refclkRestored c s, rfl, ?_⟩
  dsimp only [refclkRestored]
  rw [hr, hl, hc, clockPorts_congr (s := s) (by simp), hp]
  simp

/-- Settles O12, a lemma for each command. -/
theorem adaptationAndMargin : Obligations.AdaptationAndMargin := by
  unfold Obligations.AdaptationAndMargin
  exact ⟨fun _ hf hh he => adaptFreeze_begins hf hh he, fun _ _ _ hf ht => adaptFreezeEnd_thaws hf ht,
    fun _ _ _ hh hf he ht => adaptFreezeHeldStart_begins hh hf he ht, fun _ _ h hr hf hl => marginStart_runs h hr hf hl,
    fun _ _ _ hr ht he hs => marginStep_passes hr ht he hs, fun _ _ _ hr ht he => marginStep_stops hr ht he,
    fun _ _ hr hl hp => refclkLost_noted hr hl hp, fun _ _ hr hl ht hp => refclkRestored_noted hr hl ht hp⟩

end Sys2Proof.Scope
end

section
/-!
Frames inside a part (R57, R59, R84, R127, R134, R137, R269, R301, R302, R352, R396, R416): a command that acts on one unit leaves
the others of its kind as they were.
-/

namespace Sys2Proof.Scope

open Sys2Proof.Machine Sys2Proof.Laws

/-! ### Feeds (R416, R418) -/

theorem feedRampComplete_other (f : Feed) (mv outMv gateMv : Nat) (s : State) :
    Leaves (.feedRampComplete f mv outMv gateMv) s fun t => feedOf t (otherFeed f) = feedOf s (otherFeed f) := by
  refine ⟨feedRampComplete f mv outMv gateMv s, rfl, ?_⟩
  dsimp only [feedRampComplete]
  split
  · exact feedOf_setFeed_other ..
  · rfl

theorem currentLimitExit_other (f : Feed) (ma : Nat) (s : State) :
    Leaves (.currentLimitExit f ma) s fun t => feedOf t (otherFeed f) = feedOf s (otherFeed f) := by
  refine ⟨currentLimitExit f ma s, rfl, ?_⟩
  dsimp only [currentLimitExit]
  split
  · exact feedOf_setFeed_other ..
  · rfl

/-! ### Lanes (R57) -/

theorem laneOf_setLane_ne {s : State} {l m : Nat} {x : LaneState} (h : m ≠ l) : laneOf (setLane s l x) m = laneOf s m := by
  rw [laneOf_setLane, if_neg fun e => h e.1]

/-- A block at a hunting lane moves only that lane's search. -/
theorem weftBlockReceive_hunting {l : Nat} {s : State} (h : (laneOf s l).st = .hunting) (levels : Nat) :
    ∃ x, weftBlockReceive l levels s = setLane s l x := by
  dsimp only [weftBlockReceive]
  rw [h]
  exact ⟨_, rfl⟩

theorem weftBlockReceive_others {l : Lane} {s : State} (levels : BitVec 130) (h : (laneOf s l).st = .hunting) :
    LeavesSettling (.weftBlockReceive l levels) s fun t => (∀ m : Lane, m ≠ l → laneOf t m = laneOf s m) ∧ t.weft = s.weft := by
  obtain ⟨x, hx⟩ := weftBlockReceive_hunting h levels.toNat
  refine ⟨weftBlockReceive l levels.toNat s, rfl, ?_⟩
  dsimp only
  rw [hx]
  exact ⟨fun m hm => laneOf_setLane_ne (Fin.val_ne_of_ne hm), rfl⟩

/-! ### Weft ports (R59, R84) -/

/-- Every weft port but `p` stands as it was. -/
structure OtherPortsStand (p : Nat) (s t : State) : Prop where
  port : ∀ q, q ≠ p → weftPort t q = weftPort s q

theorem OtherPortsStand.of_weft {p : Nat} {s t : State} (h : t.weft = s.weft) : OtherPortsStand p s t :=
  ⟨fun q _ => weftPort_congr h q⟩

theorem OtherPortsStand.refl {p : Nat} (s : State) : OtherPortsStand p s s := .of_weft rfl

theorem OtherPortsStand.trans {p : Nat} {s t u : State} (h : OtherPortsStand p s t) (k : OtherPortsStand p t u) :
    OtherPortsStand p s u := ⟨fun q hq => (k.port q hq).trans (h.port q hq)⟩

theorem OtherPortsStand.foldl {p : Nat} {α : Type} {f : State → α → State} (h : ∀ u a, OtherPortsStand p u (f u a)) (l : List α)
    (s : State) : OtherPortsStand p s (l.foldl f s) := by
  induction l generalizing s with
  | nil => exact .refl s
  | cons a l ih => exact (h s a).trans (ih (f s a))

theorem OtherPortsStand.times {p : Nat} {f : State → State} (h : ∀ u, OtherPortsStand p u (f u)) (n : Nat) (s : State) :
    OtherPortsStand p s (times f n s) := by
  induction n generalizing s with
  | zero => exact .refl s
  | succ n ih => exact (h s).trans (ih (f s))

theorem setWeft_others (s : State) (p : Nat) (x : WeftPort) : OtherPortsStand p s (setWeft s p x) :=
  ⟨fun q hq => weftPort_setWeft_ne s p q x hq.symm⟩

theorem sendDataRow_others (s : State) (p q : Nat) (row : List Byte) : OtherPortsStand p s (sendDataRow s q row) :=
  .of_weft (sendOn_weft ..)

theorem fillRow_others (s : State) (p : Nat) : OtherPortsStand p s (fillRow s p) := by
  dsimp only [fillRow]
  split
  · exact .refl s
  · exact (setWeft_others ..).trans (sendDataRow_others ..)

theorem sendRow_others (s : State) (p w : Nat) : OtherPortsStand p s (sendRow s p w) := by
  unfold sendRow
  exact (fillRow_others s p).trans (.of_weft ((sendOn_weft ..).trans (emit_weft ..)))

theorem sendRows_others (n p : Nat) (s : State) : OtherPortsStand p s (sendRows n p s) := by
  induction n generalizing s with
  | zero => exact .refl s
  | succ n ih =>
    dsimp only [sendRows]
    split
    · exact .refl s
    · exact ((setWeft_others ..).trans (sendDataRow_others ..)).trans (ih _)

/-- A flit crosses the edge, and then waits and goes in the rows of its own port. -/
theorem flitOut_others (s : State) (p : Nat) (bytes : List Byte) : OtherPortsStand p s (flitOut s p bytes) := by
  have he : OtherPortsStand p s (emit (edgeCross s p true bytes.length) (.flit p bytes)) := .of_weft rfl
  unfold flitOut sendFlit
  exact (he.trans (setWeft_others ..)).trans (sendRows_others ..)

theorem sendTs1_others (s : State) (p : Nat) : OtherPortsStand p s (sendTs1 s p) :=
  .of_weft ((sendTs1_keeps (mk := 64) (Keeps.refl s) (by decide)).weft (by decide))

theorem sendCreditInit_others (s : State) (p : Nat) : OtherPortsStand p s (sendCreditInit s p) := by
  unfold sendCreditInit
  exact .times (fun u => .foldl (fun v _ => sendRow_others v p _) _ u) 4 s

theorem alignSend_others (p : Nat) (s : State) : OtherPortsStand p s (alignSend p s) := by
  have hsent (ls : List Nat) (h : Nat) (f : Nat → Nat) (x : WeftPort) : OtherPortsStand p s (sendOn (setWeft s p x) ls h f) :=
    (setWeft_others ..).trans (.of_weft (sendOn_weft ..))
  dsimp only [alignSend]
  split
  · exact .refl s
  · split
    · exact (hsent ..).trans (sendTs1_others ..)
    · split
      · exact (hsent ..).trans (sendCreditInit_others ..)
      · exact hsent ..

theorem flitSend_others (p : Nat) (s : State) : OtherPortsStand p s (flitSend p s) := by
  have hnak (b : Bool) : OtherPortsStand p s (if b = true then ctrWeft s p 8 1 else s) := by
    cases b
    · exact .refl s
    · exact .of_weft (ctrWeft_weft ..)
  have hcount (u : State) (c : Nat) (x : WeftPort) : OtherPortsStand p u (ctrWeft (setWeft u p x) p c 1) :=
    (setWeft_others ..).trans (.of_weft (ctrWeft_weft ..))
  dsimp only [flitSend]
  split
  · exact .refl s
  · split
    · exact ((hnak _).trans (setWeft_others ..)).trans (flitOut_others ..)
    · split
      · exact ((hnak _).trans (hcount ..)).trans (flitOut_others ..)
      · exact ((hnak _).trans (hcount ..)).trans (flitOut_others ..)

theorem OtherPortsStand.ports {p : Port} {s t : State} (h : OtherPortsStand p s t) (q : Port) (hq : q ≠ p) :
    weftPort t q = weftPort s q := h.port q (Fin.val_ne_of_ne hq)

theorem alignSend_leavesOthers (p : Port) (s : State) :
    Leaves (.alignSend p) s fun t => ∀ q : Port, q ≠ p → weftPort t q = weftPort s q := by
  refine ⟨if isWeft s p then alignSend p s else s, rfl, OtherPortsStand.ports ?_⟩
  split
  · exact alignSend_others p s
  · exact .refl s

/-! ### Slots, warp ports and partitions (R127, R134, R137, R352) -/

theorem slotState_setSlot_ne {s : State} {k m : Slot} {x : SlotState} (h : m ≠ k) : slotState (setSlot s k x) m = slotState s m :=
  vget_vset_fin_ne _ _ _ _ _ h

theorem warpPort_setWarp_ne {s : State} {p q : Port} {x : WarpPort} (h : q ≠ p) : warpPort (setWarp s p x) q = warpPort s q :=
  vget_vset_fin_ne _ _ _ _ _ h

theorem partOf_setPart_ne {s : State} {v w : Vs} {x : Partition} (h : w ≠ v) : partOf (setPart s v x) w = partOf s w :=
  vget_vset_fin_ne _ _ _ _ _ h

/-- A slot is set, and its expander driven. -/
theorem driveSlot_setSlot_others (s : State) (k : Slot) (x : SlotState) :
    (∀ m : Slot, m ≠ k → slotState (driveSlot (setSlot s k x) k) m = slotState s m) ∧
      (driveSlot (setSlot s k x) k).warp.port = s.warp.port ∧ (driveSlot (setSlot s k x) k).warp.part = s.warp.part :=
  ⟨fun _ hm => slotState_setSlot_ne hm, rfl, rfl⟩

theorem slotPowerOn_others (k : Slot) (s : State) :
    Leaves (.slotPowerOn k) s fun t => (∀ m : Slot, m ≠ k → slotState t m = slotState s m) ∧
      t.warp.port = s.warp.port ∧ t.warp.part = s.warp.part := by
  refine ⟨slotPowerOn k s, rfl, ?_⟩
  dsimp only [slotPowerOn]
  split
  · exact driveSlot_setSlot_others ..
  · exact ⟨fun _ _ => rfl, rfl, rfl⟩

theorem slotPwrenClear_others (k : Slot) (s : State) :
    Leaves (.slotPwrenClear k) s fun t => (∀ m : Slot, m ≠ k → slotState t m = slotState s m) ∧
      t.warp.port = s.warp.port ∧ t.warp.part = s.warp.part := by
  refine ⟨slotPwrenClear k s, rfl, ?_⟩
  dsimp only [slotPwrenClear]
  split
  · exact driveSlot_setSlot_others ..
  · exact ⟨fun _ _ => rfl, rfl, rfl⟩

theorem dpcRelease_others (p : Port) (s : State) :
    Leaves (.dpcRelease p) s fun t => (∀ q : Port, q ≠ p → warpPort t q = warpPort s q) ∧
      t.warp.slot = s.warp.slot ∧ t.warp.part = s.warp.part := by
  refine ⟨dpcRelease p s, rfl, ?_⟩
  dsimp only [dpcRelease]
  split
  · exact ⟨fun _ hq => warpPort_setWarp_ne hq, rfl, rfl⟩
  · exact ⟨fun _ _ => rfl, rfl, rfl⟩

theorem perstDeassert_others (v : Vs) (s : State) :
    Leaves (.perstDeassert v) s fun t => (∀ w : Vs, w ≠ v → partOf t w = partOf s w) ∧
      t.warp.slot = s.warp.slot ∧ t.warp.port = s.warp.port :=
  ⟨perstDeassert v s, rfl, fun _ hw => partOf_setPart_ne hw, rfl, rfl⟩

theorem routingStateError_others (v : Vs) (s : State) :
    Leaves (.routingStateError v) s fun t => (∀ w : Vs, w ≠ v → partOf t w = partOf s w) ∧
      t.warp.slot = s.warp.slot ∧ t.warp.port = s.warp.port := by
  refine ⟨routingStateError v s, rfl, ?_⟩
  dsimp only [routingStateError]
  split
  · exact ⟨fun _ _ => rfl, rfl, rfl⟩
  · exact ⟨fun _ hw => partOf_setPart_ne hw, rfl, rfl⟩

/-! ### Windows and imports (R269, R304) -/

theorem winOf_setWin_ne {s : State} {w x : Nat} {y : Window} (h : x ≠ w) : winOf (setWin s w y) x = winOf s x := by
  simp only [winOf, setWin, Tbl.get_set, if_neg h]

/-- A command that completes leaves the windows and imports. -/
@[simp] theorem admFinish_win (s : State) (c : AdmCmd) (status detail result : Nat) : (admFinish s c status detail result).win = s.win :=
  (admFinish_keeps (mk := 2121728) (Keeps.refl s) (by decide)).win (by decide)

@[simp] theorem finishWaits_win (s : State) (f : OpenCmd → Bool) (status detail : Nat) (result : OpenCmd → Nat) :
    (finishWaits s f status detail result).win = s.win :=
  (finishWaits_keeps (mk := 2121728) (Keeps.refl s) (by decide)).win (by decide)

@[simp] theorem admSettled_win (s : State) : (admSettled s).win = s.win :=
  (admSettled_keeps (mk := 2121728) (Keeps.refl s) (by decide)).win (by decide)

/-- The end of a revocation sets one window. -/
theorem endRevoke_win (s : State) (w : Nat) : ∃ y, (endRevoke s w).win = (setWin s w y).win := ⟨_, winEvent_win ..⟩

theorem windowRevokeComplete_others (w : Fin 65536) (s : State) :
    Leaves (.windowRevokeComplete w) s fun t => (∀ x : Nat, x ≠ w → winOf t x = winOf s x) ∧
      t.win.imports = s.win.imports ∧ t.win.unseen = s.win.unseen := by
  refine ⟨windowRevokeComplete w s, rfl, ?_⟩
  dsimp only [windowRevokeComplete]
  split
  · obtain ⟨y, hy⟩ := endRevoke_win s w
    simp only [winOf, finishWaits_win, hy]
    exact ⟨fun x hx => winOf_setWin_ne hx, rfl, rfl⟩
  · exact ⟨fun _ _ => rfl, rfl, rfl⟩

/-- An admin command leaves of the windows and imports what its own effect leaves. -/
theorem admStart_win {P : WinBlk → Prop} {op : Nat} {f : State → AdmCmd → State} {s : State} (hs : P s.win)
    (hf : ∀ u c, u.win = s.win → P (f u c).win) : P (admStart s op f).win := by
  dsimp only [admStart]
  split
  · exact hs
  · rw [admSettled_win]
    split
    · rw [admFinish_win]
      exact hs
    · exact hf _ _ rfl

/-- Windows and imports stand but for generations of imports. -/
def GenOnly (a b : WinBlk) : Prop := b.windows = a.windows ∧
  ∀ (n : Nat) (x y : Import), Tbl.find? a.imports n = some x → Tbl.find? b.imports n = some y → y = { x with gen := y.gen }

theorem GenOnly.refl (a : WinBlk) : GenOnly a a := by
  refine ⟨rfl, fun n x y hx hy => ?_⟩
  obtain rfl := Option.some.inj (hx.symm.trans hy)
  rfl

theorem GenOnly.set {a : WinBlk} {k : Nat} {x : Import} (h : Tbl.find? a.imports k = some x) (g : Nat) :
    GenOnly a { a with imports := Tbl.set a.imports k { x with gen := g } } := by
  refine ⟨rfl, fun n y z hy hz => ?_⟩
  rw [Tbl.find?_set] at hz
  split at hz
  · next hn =>
    subst hn
    obtain rfl := Option.some.inj (h.symm.trans hy)
    obtain rfl := Option.some.inj hz
    rfl
  · exact (GenOnly.refl a).2 n y z hy hz

theorem importSetGen_others (s : State) : Leaves (.importSetGen) s fun t => GenOnly s.win t.win := by
  refine ⟨importSetGen s, rfl, admStart_win (.refl _) fun u c hu => ?_⟩
  rw [← hu]
  dsimp only
  split
  · rw [admFinish_win]
    exact .refl _
  · split
    · rw [admFinish_win]
      exact .refl _
    · next h =>
      rw [admDone, admFinish_win]
      exact .set h _

/-! ### Instances, admin queues and semaphores (R301, R302, R396) -/

theorem msi_insts (s : State) (v fn vec : Nat) : (msi s v fn vec).eng.insts = s.eng.insts := by
  unfold msi
  split
  · rfl
  · split <;> rfl

theorem vfMsgRing_others (i : Inst) (value : Nat) (s : State) :
    Leaves (.vfMsgRing i value) s fun t => ∀ j : Nat, j ≠ i → instOf t j = instOf s j := by
  refine ⟨vfMsgRing i value s, rfl, fun j hj => ?_⟩
  dsimp only [vfMsgRing]
  split
  · rfl
  · split
    · rfl
    · simp only [instOf, msi_insts, setInst, Tbl.find?_set, if_neg hj]

theorem admOf_setAdm_ne {s : State} {v w : Vs} {x : AdmBlk} (h : w ≠ v) : admOf (setAdm s v x) w = admOf s w :=
  vget_vset_fin_ne _ _ _ _ _ h

theorem admDisabled_others (s : State) (v : Vs) {w : Vs} (h : w ≠ v) : admOf (admDisabled s v) w = admOf s w := by
  dsimp only [admDisabled]
  split
  · exact admOf_setAdm_ne h
  · rfl

theorem admqCtrl_others (v : Vs) (value : Nat) (s : State) :
    Leaves (.admqCtrl v value) s fun t => ∀ w : Vs, w ≠ v → admOf t w = admOf s w := by
  refine ⟨admqCtrl v value s, rfl, fun w hw => ?_⟩
  dsimp only [admqCtrl]
  split
  · split
    · rfl
    · exact admOf_setAdm_ne hw
  · split
    · rw [admDisabled_others _ _ hw, admOf_setAdm_ne hw]
    · exact admOf_setAdm_ne hw

theorem semWrite_others (v : Vs) (k : Fin 16) (value : BitVec 32) (s : State) :
    Leaves (.semWrite v k value) s fun t => (∀ j : Fin 16, j ≠ k → vget t.dob.sem j 0 = vget s.dob.sem j 0) ∧
      t.dob.items = s.dob.items ∧ t.dob.raises = s.dob.raises := by
  refine ⟨semWrite v k value.toNat s, rfl, ?_⟩
  dsimp only [semWrite, semFreed]
  split
  · split
    · exact ⟨fun _ _ => rfl, rfl, rfl⟩
    · exact ⟨fun j hj => vget_vset_fin_ne _ _ _ _ _ hj, rfl, rfl⟩
  · exact ⟨fun _ _ => rfl, rfl, rfl⟩

/-- Settles O56, a lemma for each command. -/
theorem framesWithinAPart : Obligations.FramesWithinAPart := by
  unfold Obligations.FramesWithinAPart
  exact ⟨feedRampComplete_other, currentLimitExit_other, fun _ levels _ h => weftBlockReceive_others levels h, alignSend_leavesOthers,
    fun p s => ⟨flitSend p s, rfl, (flitSend_others p s).ports⟩, slotPowerOn_others, slotPwrenClear_others, dpcRelease_others,
    perstDeassert_others, routingStateError_others, windowRevokeComplete_others, importSetGen_others, vfMsgRing_others,
    admqCtrl_others, semWrite_others⟩

end Sys2Proof.Scope
end

section
/-!
Weft links from DOWN to ACTIVE (R97, R98, R100 to R104): the training phases, the blocks of training, the exchange of credits and
of FLIT_START, and the attempts that fail.
-/

namespace Sys2Proof.Scope

open Sys2Proof.Machine

/-! ### What the line has brought, at the front of its queue -/

/-- A port set twice is as it was set last. -/
theorem setWeft_setWeft (s : State) (p : Nat) (x y : WeftPort) : setWeft (setWeft s p x) p y = setWeft s p y := by
  simp only [setWeft, vset, Vector.setIfInBounds_setIfInBounds]

theorem takeTs_front {p l w typ : Nat} {ts : List (Nat × Nat)} {s : State} (h : (weftPort s p).ts = (l, w) :: ts)
    (hw : bits w 0 8 = typ) (f : Nat → Nat → State → State) :
    takeTs p typ f s = f l w (setWeft s p { weftPort s p with ts := ts }) := by
  simp [takeTs, h, hw]

theorem takeRow_front {p w typ : Nat} {rest : List RxItem} {s : State} (h : (weftPort s p).rx = .row w :: rest)
    (hw : bits w 0 8 = typ) (f : Nat → State → State) :
    takeRow p typ f s = f w (setWeft s p { weftPort s p with rx := rest }) := by
  simp only [takeRow, h, hw, if_true]

/-! ### Training phases (R100, R101) -/

theorem weftTrainingStart_port {p : Port} {s : State} (hw : isWeft s p = true) (hi : inService s = true)
    (hl : (weftPort s p).link = .down) (hc : clockOk s p = true) (ht : (weftPort s p).idleSince + 100000 ≤ s.now)
    (hp : (portLanes s p).isSome = true) (hf : (weftPort s p).fails < cfgv s 0x3203 (p + 1)) :
    (weftTrainingStart p s).weft.port = vset s.weft.port p { weftPort s p with
      link := .training, since := s.now, phaseSince := s.now, trainRate := if cfgv s 0x3004 (p + 1) = 0 then 1 else 2
      nonce := (drawn s).toNat % 65536, peerNonce := none, peer212 := true, ts1Seen := [], ts2Seen := [], orderTold := false
      lineSince := s.now, alignPos := 0, chosen := none, ts2Sent := 0, agreed := false, creditSeen := 0, creditSent := 0
      startSent := false, startSeen := false } := by
  have he : elapsed s (weftPort s p).idleSince (100 * us) = true := decide_eq_true ht
  simp only [weftTrainingStart, hw, hi, hl, hc, he, hp, and_self, if_true, if_neg (Nat.not_le.2 hf), sendTs1_weft,
    setPortLanes_weft, afterDraw_weft, setWeft]

theorem weftTrainingStart_trains {p : Port} {b n : Nat} {s : State} (hw : isWeft s p = true) (hi : inService s = true)
    (hl : (weftPort s p).link = .down) (hc : clockOk s p = true) (ht : (weftPort s p).idleSince + 100000 ≤ s.now)
    (hp : portLanes s p = some (b, n)) (hf : (weftPort s p).fails < cfgv s 0x3203 (p + 1)) :
    LeavesSettling (.weftTrainingStart p) s fun t => (weftPort t p).link = .training ∧
      (weftPort t p).trainRate = (if cfgv s 0x3004 (p + 1) = 0 then 1 else 2) ∧ (weftPort t p).phaseSince = s.now ∧
      (weftPort t p).nonce = (Config.entropy s.drawn).toNat % 65536 ∧ (weftPort t p).fails = (weftPort s p).fails ∧
      (∀ q : Port, q ≠ p → weftPort t q = weftPort s q) := by
  obtain ⟨hx, hq⟩ := weftPort_of_vset (weftTrainingStart_port hw hi hl hc ht (by rw [hp]; rfl) hf)
  refine ⟨weftTrainingStart p s, rfl, ?_⟩
  simp only [hx]
  exact ⟨trivial, trivial, trivial, rfl, trivial, hq⟩

theorem trainingPhaseTimeout_nextRate {p : Port} {s : State} (hl : (weftPort s p).link = .training)
    (hr : (weftPort s p).trainRate = 1) (ht : (weftPort s p).phaseSince + 2000000 ≤ s.now) :
    LeavesSettling (.trainingPhaseTimeout p) s fun t => (weftPort t p).link = .training ∧ (weftPort t p).trainRate = 2 ∧
      (weftPort t p).phaseSince = s.now ∧ (weftPort t p).ts1Seen = [] ∧ (weftPort t p).fails = (weftPort s p).fails := by
  have he : elapsed s (weftPort s p).phaseSince (2 * ms) = true := decide_eq_true ht
  have hn : trainingPhaseTimeout p s = nextPhase s p := by simp [trainingPhaseTimeout, hl, hr, he]
  refine ⟨trainingPhaseTimeout p s, rfl, ?_⟩
  simp only [hn, (weftPort_of_vset (nextPhase_port s p)).1, hl, and_self]

/-! ### TS1 and TS2 (R97, R98, R102) -/

theorem ts1Receive_badCheck {p : Port} {l w : Nat} {ts : List (Nat × Nat)} {s : State}
    (hl : (weftPort s p).link = .training ∨ (weftPort s p).link = .retrain) (hts : (weftPort s p).ts = (l, w) :: ts)
    (hw : bits w 0 8 = 0x40) (hc : checkOk w = false) :
    LeavesSettling (.ts1Receive p) s fun t => t = ctrWeft (setWeft s p { weftPort s p with ts := ts }) p 9 1 := by
  refine ⟨ts1Receive p s, rfl, ?_⟩
  dsimp only [ts1Receive]
  rw [takeTs_front hts hw]
  simp [ts1Take, hl, hc]

theorem ts1Receive_noted {p : Port} {l w : Nat} {ts : List (Nat × Nat)} {s : State} (hl : (weftPort s p).link = .training)
    (hts : (weftPort s p).ts = (l, w) :: ts) (hw : bits w 0 8 = 0x40) (hc : checkOk w = true)
    (hp : bits w 61 2 = personality s p) (hn : bits w 8 8 = portWidth s p) (ho : bits w 96 16 < (weftPort s p).nonce)
    (hr : (weftPort s p).trainRate = 2) :
    LeavesSettling (.ts1Receive p) s fun t => (weftPort t p).peerNonce = some (bits w 96 16) ∧
      (weftPort t p).peerMask = bits w 80 16 ∧ (weftPort t p).ts1Seen = countSame (weftPort s p).ts1Seen l w ∧
      (weftPort t p).peer = at_ 31 (bits w 58 1) + at_ 17 (bits w 61 2) + bits w 63 17 ∧ (weftPort t p).link = .training ∧
      (weftPort t p).ts = ts ∧ (∀ q : Port, q ≠ p → weftPort t q = weftPort s q) := by
  have h : ts1Receive p s = setWeft s p { weftPort s p with
      ts := ts, peerNonce := some (bits w 96 16), peerMask := bits w 80 16, peer212 := bit w 60
      ts1Seen := countSame (weftPort s p).ts1Seen l w
      peer := at_ 31 (bits w 58 1) + at_ 17 (bits w 61 2) + bits w 63 17 } := by
    have hp' (x : WeftPort) : bits w 61 2 = personality (setWeft s p x) p := hp
    have hn' (x : WeftPort) : bits w 8 8 = portWidth (setWeft s p x) p := hn
    dsimp only [ts1Receive]
    rw [takeTs_front hts hw]
    simp only [ts1Take, weftPort_setWeft, hl, hc, ← hp', ← hn', hr, setWeft_setWeft]
    simp [ho.ne', ho.not_gt]
  refine ⟨ts1Receive p s, rfl, ?_⟩
  simp only [h, weftPort_setWeft, hl, true_and]
  exact fun q hq => weftPort_setWeft_ne s p q _ (Fin.val_ne_of_ne hq.symm)

theorem ts2Receive_counted {p : Port} {l w : Nat} {ts : List (Nat × Nat)} {s : State} (hl : (weftPort s p).link = .training)
    (ha : (weftPort s p).agreed = false) (hts : (weftPort s p).ts = (l, w) :: ts) (hw : bits w 0 8 = 0x41)
    (hc : checkOk w = true) (hn : (weftPort s p).peerNonce = none) :
    LeavesSettling (.ts2Receive p) s fun t => (weftPort t p).ts2Seen = countSame (weftPort s p).ts2Seen l w ∧
      (weftPort t p).link = .training ∧ (weftPort t p).ts = ts ∧ (∀ q : Port, q ≠ p → weftPort t q = weftPort s q) := by
  have h : ts2Receive p s = setWeft s p { weftPort s p with ts := ts, ts2Seen := countSame (weftPort s p).ts2Seen l w } := by
    dsimp only [ts2Receive]
    rw [takeTs_front hts hw]
    simp [ts2Take, hl, ha, hc, hn, setWeft_setWeft]
  refine ⟨ts2Receive p s, rfl, ?_⟩
  simp only [h, weftPort_setWeft, hl, true_and]
  exact fun q hq => weftPort_setWeft_ne s p q _ (Fin.val_ne_of_ne hq.symm)

/-! ### Credits, FLIT_START and the limit of ALIGNED (R100, R103) -/

theorem creditInitReceive_sets {p : Port} {w : Nat} {rest : List RxItem} {s : State} (hl : (weftPort s p).link = .aligned)
    (hx : (weftPort s p).rx = .row w :: rest) (hw : bits w 0 8 = 0x48) (hc : (weftPort s p).creditSent < 4) :
    LeavesSettling (.creditInitReceive p) s fun t => t = setWeft s p { weftPort s p with
      rx := rest, advH := Tbl.set (weftPort s p).advH (bits w 8 3) (bits w 32 12)
      advD := Tbl.set (weftPort s p).advD (bits w 8 3) (bits w 44 16)
      creditSeen := putBit (weftPort s p).creditSeen (bits w 8 3) true } := by
  refine ⟨creditInitReceive p s, rfl, ?_⟩
  dsimp only [creditInitReceive]
  rw [takeRow_front hx hw]
  simp [creditInitTake, hl, Nat.not_le.2 hc, setWeft_setWeft]

theorem flitStartReceive_active {p : Port} {w : Nat} {rest : List RxItem} {s : State} (hl : (weftPort s p).link = .aligned)
    (hx : (weftPort s p).rx = .row w :: rest) (hw : bits w 0 8 = 0x50) (hb : bit w 18 = false)
    (hs : (weftPort s p).startSent = true) :
    LeavesSettling (.flitStartReceive p) s fun t => (weftPort t p).link = .active ∧ (weftPort t p).fails = 0 ∧
      (weftPort t p).expect = bits w 8 10 ∧ (weftPort t p).since = s.now ∧ (weftPort t p).rx = rest ∧
      (∀ q : Port, q ≠ p → weftPort t q = weftPort s q) := by
  have h : flitStartReceive p s = linkActive (setWeft s p { weftPort s p with
      rx := rest, startSeen := true, expect := bits w 8 10, countC := bits w 8 10 }) p := by
    dsimp only [flitStartReceive]
    rw [takeRow_front hx hw]
    simp [flitStartTake, hl, hb, hs, setWeft_setWeft]
  obtain ⟨ha, hq⟩ := weftPort_of_vset (linkActive_port (setWeft s p { weftPort s p with
    rx := rest, startSeen := true, expect := bits w 8 10, countC := bits w 8 10 }) p (by simp [hl]))
  refine ⟨flitStartReceive p s, rfl, ?_⟩
  simp only [h, ha, weftPort_setWeft, setWeft_now, true_and]
  exact fun q hne => (hq q hne).trans (weftPort_setWeft_ne s p q _ (Fin.val_ne_of_ne hne.symm))

theorem alignedTimeout_fails {p : Port} {s : State} (hl : (weftPort s p).link = .aligned)
    (ht : (weftPort s p).since + 100000 ≤ s.now) (hf : (weftPort s p).fails + 1 < cfgv s 0x3203 (p + 1)) :
    LeavesSettling (.alignedTimeout p) s fun t => (weftPort t p).link = .down ∧
      (weftPort t p).fails = (weftPort s p).fails + 1 ∧ (weftPort t p).lastCause = 9 ∧ (weftPort t p).idleSince = s.now := by
  have he : elapsed s (weftPort s p).since (100 * us) = true := decide_eq_true ht
  have h : alignedTimeout p s = attemptFailed s p 9 := by simp [alignedTimeout, hl, he]
  refine ⟨alignedTimeout p s, rfl, ?_⟩
  simp [h, (weftPort_of_vset (attemptFailed_port s p 9 hf)).1, clearedLink]

/-- Settles O13, a lemma for each command. -/
theorem weftTraining : Obligations.WeftTraining := by
  unfold Obligations.WeftTraining
  exact ⟨fun _ _ _ _ hw hi hl hc ht hp hf => weftTrainingStart_trains hw hi hl hc ht hp hf,
    fun _ _ _ _ _ hl hts hw hc => ts1Receive_badCheck hl hts hw hc,
    fun _ _ _ _ _ hl hts hw hc hp hn ho hr => ts1Receive_noted hl hts hw hc hp hn ho hr,
    fun _ _ _ _ _ hl ha hts hw hc hn => ts2Receive_counted hl ha hts hw hc hn,
    fun _ _ hl hr ht => trainingPhaseTimeout_nextRate hl hr ht,
    fun _ _ _ _ hl hx hw hc => creditInitReceive_sets hl hx hw hc,
    fun _ _ _ _ hl hx hw hb hs => flitStartReceive_active hl hx hw hb hs, fun _ _ hl ht hf => alignedTimeout_fails hl ht hf⟩

end Sys2Proof.Scope
end

section
/-!
Running weft links (R72 to R92, R100, R101): flits sent and received, replay, and RETRAIN.
-/

namespace Sys2Proof.Scope

open Sys2Proof.Machine

/-! ### Flits sent (R81, R82, R84, R86) -/

/-- A flit crosses the edge and goes out; of its port only the bytes that wait to fill a row change. -/
theorem flitOut_sent (s : State) (p : Port) (bytes : List Byte) :
    (∃ es, (flitOut s p bytes).tx = s.tx ++ .flit p bytes :: es) ∧
      rowless (weftPort (flitOut s p bytes) p) = rowless (weftPort s p) := by
  obtain ⟨hs, htx⟩ := sendFlit_sent (edgeCross s p true bytes.length) p bytes
  exact ⟨htx, hs.port p⟩

/-- A port with nothing to resend and no operation on its way out sends an idle flit (R82). -/
theorem flitSend_of_nothing {p : Nat} {s : State} (hl : (weftPort s p).link = .active) (hn : (weftPort s p).nak = false)
    (hr : (weftPort s p).resend = []) (ho : (weftPort s p).out = []) :
    flitSend p s = flitOut (ctrWeft (setWeft s p { weftPort s p with crTc := ((weftPort s p).crTc + 1) % 8 }) p 2 1) p
      (flitBytes { currentHeader (weftPort s p) with kind := 1 } [] 0xFFFF) := by
  simp [flitSend, hl, hn, hr, fillSlots, ho]

/-- A replay round sends its next flit again, under a new header (R86). -/
theorem flitSend_of_resend {p : Nat} {f : SentFlit} {fs : List SentFlit} {s : State} (hl : (weftPort s p).link = .active)
    (hn : (weftPort s p).nak = false) (hr : (weftPort s p).resend = f :: fs) :
    flitSend p s = flitOut (setWeft s p { weftPort s p with crTc := ((weftPort s p).crTc + 1) % 8, resend := fs }) p
      (flitBytes { currentHeader (weftPort s p) with kind := 0, slotMap := f.slotMap, opAbort := f.opAbort } f.slots f.seq) := by
  simp [flitSend, hl, hn, hr]

theorem flitSend_idle {p : Port} {s : State} (hl : (weftPort s p).link = .active) (hn : (weftPort s p).nak = false)
    (hr : (weftPort s p).resend = []) (ho : (weftPort s p).out = []) :
    Leaves (.flitSend p) s fun t =>
      (∃ es, t.tx = s.tx ++ .flit p (flitBytes { currentHeader (weftPort s p) with kind := 1 } [] 0xFFFF) :: es) ∧
      { weftPort t p with txRow := [] } = { weftPort s p with crTc := ((weftPort s p).crTc + 1) % 8, txRow := [] } ∧
      (∀ q : Port, q ≠ p → weftPort t q = weftPort s q) := by
  refine ⟨flitSend p s, rfl, ?_, ?_, (flitSend_others p s).ports⟩ <;> rw [flitSend_of_nothing hl hn hr ho]
  · obtain ⟨es, h⟩ := (flitOut_sent _ p _).1
    exact ⟨es, h.trans (by rw [ctrWeft_tx]; rfl)⟩
  · refine (flitOut_sent _ p _).2.trans ?_
    rw [weftPort_congr (ctrWeft_weft ..), weftPort_setWeft]
    rfl

theorem flitSend_replays {p : Port} {f : SentFlit} {fs : List SentFlit} {s : State} (hl : (weftPort s p).link = .active)
    (hn : (weftPort s p).nak = false) (hr : (weftPort s p).resend = f :: fs) :
    Leaves (.flitSend p) s fun t =>
      (∃ es, t.tx = s.tx ++ .flit p (flitBytes { currentHeader (weftPort s p) with
        kind := 0, slotMap := f.slotMap, opAbort := f.opAbort } f.slots f.seq) :: es) ∧
      { weftPort t p with txRow := [] } =
        { weftPort s p with crTc := ((weftPort s p).crTc + 1) % 8, resend := fs, txRow := [] } ∧
      (∀ q : Port, q ≠ p → weftPort t q = weftPort s q) := by
  refine ⟨flitSend p s, rfl, ?_, ?_, (flitSend_others p s).ports⟩ <;> rw [flitSend_of_resend hl hn hr]
  · exact (flitOut_sent _ p _).1
  · refine (flitOut_sent _ p _).2.trans ?_
    rw [weftPort_setWeft]
    rfl

/-! ### Flits received (R80, R83) -/

/-- The state in which the flit at the front of a port's queue, of `n` bytes, has crossed the ingress edge. -/
def flitCrossed (s : State) (p : Nat) (rest : List RxItem) (n : Nat) : State :=
  edgeCross (setWeft s p { weftPort s p with rx := rest }) p false n

theorem flitCrossed_port (s : State) (p : Port) (rest : List RxItem) (n : Nat) :
    weftPort (flitCrossed s p rest n) p = { weftPort s p with rx := rest } := weftPort_setWeft ..

theorem flitCrossed_otherPorts (s : State) (p : Port) (rest : List RxItem) (n : Nat) (q : Port) (h : q ≠ p) :
    weftPort (flitCrossed s p rest n) q = weftPort s q := weftPort_setWeft_ne s p q _ (Fin.val_ne_of_ne h.symm)

theorem flitReceive_front {p : Nat} {bs : List Byte} {rest : List RxItem} {s : State}
    (h : (weftPort s p).rx = .flit bs :: rest) : flitReceive p s = flitAccept p bs (flitCrossed s p rest bs.length) := by
  simp only [flitReceive, takeFlit, h, flitCrossed]

theorem flitAccept_uncorrectable {p : Nat} {bs : List Byte} {s : State} (hl : (weftPort s p).link = .active)
    (hlen : bs.length = 288) (hf : flitFec (bs.map BitVec.toNat) = none) : flitAccept p bs s = badFlit s p 4 := by
  simp [flitAccept, hl, hlen, hf]

/-- A bad flit at a receiver that waits for no replay only makes it wait, under a NAK of the other round (R83). -/
theorem badFlit_weft {p c : Nat} {s : State} (h : (weftPort s p).waitReplay = false) :
    (badFlit s p c).weft = (setWeft s p { weftPort s p with
      waitReplay := true, nak := true, nakRound := !(weftPort s p).nakRound }).weft := by
  simp [badFlit, enterWaitReplay, h, setWeft]

theorem flitReceive_waits {p : Port} {bs : List Byte} {rest : List RxItem} {s : State} (hl : (weftPort s p).link = .active)
    (hx : (weftPort s p).rx = .flit bs :: rest) (hn : bs.length = 288) (hf : flitFec (bs.map BitVec.toNat) = none)
    (hw : (weftPort s p).waitReplay = false) :
    LeavesSettling (.flitReceive p) s fun t => weftPort t p = { weftPort s p with
      rx := rest, waitReplay := true, nak := true, nakRound := !(weftPort s p).nakRound } ∧
      t.weft.arrived = s.weft.arrived := by
  have hv := flitCrossed_port s p rest bs.length
  have h : flitReceive p s = badFlit (flitCrossed s p rest bs.length) p 4 := by
    rw [flitReceive_front hx]
    exact flitAccept_uncorrectable (by rw [hv]; exact hl) hn hf
  have hb := badFlit_weft (c := 4) (by rw [hv]; exact hw)
  refine ⟨flitReceive p s, rfl, ?_⟩
  dsimp only
  rw [h, weftPort_congr hb, hb, weftPort_setWeft, hv]
  exact ⟨rfl, rfl⟩

/-! ### A good flit in order (R80, R83, R91, R92) -/

theorem advHdr_congr {s t : State} (h : t.cfg = s.cfg) (p tc : Nat) : advHdr t p tc = advHdr s p tc := by
  simp only [advHdr, tcEnable_congr h, cfgv_congr h]

theorem advData_congr {s t : State} (h : t.cfg = s.cfg) (p tc : Nat) : advData t p tc = advData s p tc := by
  simp only [advData, tcEnable_congr h, cfgv_congr h]

/-- A port that has taken the counts a header returns. -/
def returned (x : WeftPort) (h : LinkHeader) : WeftPort :=
  { x with retH := Tbl.set x.retH h.crTc h.crHdr, retD := Tbl.set x.retD h.crTc h.crData }

/-- The counts a header returns exceed nothing that the peer advertised. -/
def ReturnsFit (x : WeftPort) (h : LinkHeader) : Prop :=
  availH (returned x h) h.crTc ≤ Tbl.get x.advH h.crTc 0 ∧ availD (returned x h) h.crTc ≤ Tbl.get x.advD h.crTc 0

/-- A port that has taken one payload flit in order. -/
def flitCounted (x : WeftPort) : WeftPort := { x with expect := (x.expect + 1) % 1024, countC := (x.countC + 1) % 1024 }

/-- A port that has taken a whole operation of one slot. -/
def oneSlotGot (x : WeftPort) (tc : Nat) : WeftPort :=
  { x with opening := [], openSlots := 0, relayTo := none
           gotH := Tbl.set x.gotH tc ((Tbl.get x.gotH tc 0 + 1) % 4096)
           gotD := Tbl.set x.gotD tc ((Tbl.get x.gotD tc 0 + 1) % 65536) }

/-- What the port advertised covers one more operation of one slot. -/
def OneSlotFits (s : State) (p : Nat) (x : WeftPort) (tc : Nat) : Prop :=
  ((Tbl.get x.gotH tc 0 + 1) % 4096 + 4096 - Tbl.get x.giveH tc 0) % 4096 ≤ advHdr s p tc ∧
  ((Tbl.get x.gotD tc 0 + 1) % 65536 + 65536 - Tbl.get x.giveD tc 0) % 65536 ≤ advData s p tc

/-- The header of a payload flit that carries nothing but the last slot of an operation, in slot 0. -/
structure OneSlotHeader (h : LinkHeader) : Prop where
  kind : h.kind = 0
  nak : h.nak = false
  opAbort : h.opAbort = false
  slotMap : h.slotMap = 3

/-- A port in ACTIVE whose receiver is in order, with no operation open and no flit unacknowledged, and with credits for header
`h` and for one operation of one slot in class `tc`. -/
structure AwaitsOneSlot (s : State) (p : Nat) (x : WeftPort) (h : LinkHeader) (tc : Nat) : Prop where
  active : x.link = .active
  listening : x.waitReplay = false
  inOrder : x.countC = x.expect
  acked : x.buffer = []
  returns : ReturnsFit x h
  closed : x.openSlots = 0
  opening : x.opening = []
  relay : x.relayTo = none
  fits : OneSlotFits s p x tc

theorem AwaitsOneSlot.crossed {p : Port} {rest : List RxItem} {n : Nat} {h : LinkHeader} {tc : Nat} {s : State}
    (a : AwaitsOneSlot s p (weftPort s p) h tc) :
    AwaitsOneSlot (flitCrossed s p rest n) p (weftPort (flitCrossed s p rest n) p) h tc := by
  rw [flitCrossed_port]
  exact ⟨a.active, a.listening, a.inOrder, a.acked, a.returns, a.closed, a.opening, a.relay, a.fits⟩

/-- With nothing buffered and no NAK, a header only returns credits. -/
theorem useHeader_returns {p : Port} {h : LinkHeader} {s : State} (hb : (weftPort s p).buffer = []) (hn : h.nak = false)
    (hf : ReturnsFit (weftPort s p) h) : useHeader s p h = setWeft s p (returned (weftPort s p) h) := by
  have ha : ackFlits s p h.ackSeq = s := by simp [ackFlits, hb]
  have hc : creditReturn s p h.crTc h.crHdr h.crData = setWeft s p (returned (weftPort s p) h) :=
    if_neg (not_or.2 ⟨Nat.not_lt.2 hf.1, Nat.not_lt.2 hf.2⟩)
  simp only [useHeader, ha, hc, hn]
  simp

/-- A flit whose slot 0 is the last of an operation that begins there, and that holds nothing else, brings that operation. -/
theorem takeSlots_oneSlot {p : Port} {slots : List Byte} {tc : Nat} {s : State} (ho : (weftPort s p).opening = [])
    (hn : (weftPort s p).openSlots = 0) (hr : (weftPort s p).relayTo = none) (htc : tc = envTc (slots.take 64))
    (hf : OneSlotFits s p (weftPort s p) tc) :
    (takeSlots [3, 0, 0, 0] slots false p s).weft = { (setWeft s p (oneSlotGot (weftPort s p) tc)).weft with
      arrived := s.weft.arrived ++ [{ port := p, tc := tc, bytes := slots.take 64 }] } := by
  subst htc
  have hh := Nat.not_lt.2 hf.1
  have hd := Nat.not_lt.2 hf.2
  have harr (x : WeftPort) : (setWeft s p x).weft.arrived = s.weft.arrived := rfl
  simp [takeSlots, relaySlot, ho, hn, hr, hh, hd, setWeft_setWeft, oneSlotGot, harr]

/-- A flit of that form, with no operation open, is legal and counted. -/
theorem acceptFlit_oneSlot {p : Nat} {h : LinkHeader} {slots : List Byte} {s : State} (hm : h.slotMap = 3)
    (ha : h.opAbort = false) (hn : (weftPort s p).openSlots = 0) : acceptFlit s p h slots =
      takeSlots [3, 0, 0, 0] slots false p (ctrWeft (setWeft s p (flitCounted (weftPort s p))) p 1 1) := by
  have hs : slotStates h.slotMap = [3, 0, 0, 0] := by rw [hm]; decide
  simp [acceptFlit, hs, ha, hn, slotsLegal, flitCounted]

/-- A payload flit that needs no correction and whose CRC passes with the count is used in its place. -/
theorem flitAccept_counted {p : Nat} {bs : List Byte} {c : List Nat} {h : LinkHeader} {s : State}
    (hl : (weftPort s p).link = .active) (hlen : bs.length = 288) (hf : flitFec (bs.map BitVec.toNat) = some (c, 0))
    (hh : h = LinkHeader.of (leNat ((c.take 8).map (BitVec.ofNat 8)))) (hk : h.kind = 0)
    (hw : (weftPort s p).waitReplay = false)
    (hcrc : flitCrc (weftPort s p).countC (c.take 264) = leNat (((c.drop 264).take 8).map (BitVec.ofNat 8))) :
    flitAccept p bs s = countedFlit s p h (((c.drop 8).take 256).map (BitVec.ofNat 8)) := by
  simp only [flitAccept, hl, hlen, hf, ← hh, hk, hw, hcrc]
  simp

/-- Such a flit in order returns credits and hands its operation on. -/
theorem countedFlit_oneSlot {p : Port} {h : LinkHeader} {slots : List Byte} {tc : Nat} {s : State}
    (hh : OneSlotHeader h) (a : AwaitsOneSlot s p (weftPort s p) h tc) (htc : tc = envTc (slots.take 64)) :
    (countedFlit s p h slots).weft =
      { (setWeft s p (oneSlotGot (flitCounted (returned (weftPort s p) h)) tc)).weft with
        arrived := s.weft.arrived ++ [{ port := p, tc := tc, bytes := slots.take 64 }] } := by
  have hu : countedFlit s p h slots = takeSlots [3, 0, 0, 0] slots false p
      (ctrWeft (setWeft s p (flitCounted (returned (weftPort s p) h))) p 1 1) := by
    have hl : (returned (weftPort s p) h).link = .active := a.active
    simp only [countedFlit, a.inOrder, if_true, useHeader_returns a.acked hh.nak a.returns, weftPort_setWeft, hl, true_or]
    rw [acceptFlit_oneSlot hh.slotMap hh.opAbort (by rw [weftPort_setWeft]; exact a.closed), weftPort_setWeft, setWeft_setWeft]
  have hp : weftPort (ctrWeft (setWeft s p (flitCounted (returned (weftPort s p) h))) p 1 1) p =
      flitCounted (returned (weftPort s p) h) := by rw [weftPort_congr (ctrWeft_weft ..), weftPort_setWeft]
  have hcfg : (ctrWeft (setWeft s p (flitCounted (returned (weftPort s p) h))) p 1 1).cfg = s.cfg := by simp
  rw [hu, takeSlots_oneSlot (by rw [hp]; exact a.opening) (by rw [hp]; exact a.closed) (by rw [hp]; exact a.relay) htc
    (by rw [hp, OneSlotFits, advHdr_congr hcfg, advData_congr hcfg]; exact a.fits), hp]
  simp only [setWeft, ctrWeft_weft, vset, Vector.setIfInBounds_setIfInBounds]

theorem flitReceive_takes {p : Port} {bs : List Byte} {rest : List RxItem} {c : List Nat} {h : LinkHeader} {tc : Nat} {s : State}
    (hx : (weftPort s p).rx = .flit bs :: rest) (hlen : bs.length = 288) (hf : flitFec (bs.map BitVec.toNat) = some (c, 0))
    (hof : h = LinkHeader.of (leNat ((c.take 8).map (BitVec.ofNat 8)))) (hh : OneSlotHeader h)
    (hcrc : flitCrc (weftPort s p).countC (c.take 264) = leNat (((c.drop 264).take 8).map (BitVec.ofNat 8)))
    (a : AwaitsOneSlot s p (weftPort s p) h tc) (htc : tc = envTc (((c.drop 8).take 64).map (BitVec.ofNat 8))) :
    LeavesSettling (.flitReceive p) s fun t =>
      t.weft.arrived = s.weft.arrived ++ [{ port := p, tc := tc, bytes := ((c.drop 8).take 64).map (BitVec.ofNat 8) }] ∧
      (weftPort t p).expect = ((weftPort s p).expect + 1) % 1024 ∧
      (weftPort t p).countC = ((weftPort s p).expect + 1) % 1024 ∧ (weftPort t p).link = .active ∧
      (weftPort t p).waitReplay = false ∧ (weftPort t p).rx = rest ∧ Tbl.get (weftPort t p).retH h.crTc 0 = h.crHdr ∧
      Tbl.get (weftPort t p).retD h.crTc 0 = h.crData ∧ (∀ q : Port, q ≠ p → weftPort t q = weftPort s q) := by
  have hslot : (((c.drop 8).take 256).map (BitVec.ofNat 8)).take 64 = ((c.drop 8).take 64).map (BitVec.ofNat 8) := by
    rw [← List.map_take, List.take_take, Nat.min_eq_left (by decide)]
  have hv := flitCrossed_port s p rest bs.length
  have ha := a.crossed (rest := rest) (n := bs.length)
  have hcount : flitReceive p s =
      countedFlit (flitCrossed s p rest bs.length) p h (((c.drop 8).take 256).map (BitVec.ofNat 8)) := by
    rw [flitReceive_front hx]
    exact flitAccept_counted ha.active hlen hf hof hh.kind ha.listening (by rw [hv]; exact hcrc)
  have hone := countedFlit_oneSlot (slots := ((c.drop 8).take 256).map (BitVec.ofNat 8)) hh ha (by rw [hslot]; exact htc)
  rw [← hcount, hslot, hv] at hone
  obtain ⟨hp, hq⟩ := weftPort_of_vset (s := flitCrossed s p rest bs.length) (t := flitReceive p s) (by rw [hone]; rfl)
  refine ⟨flitReceive p s, rfl, ?_⟩
  simp only [hp, hone, oneSlotGot, flitCounted, returned, Tbl.get_set_same, a.active, a.listening, a.inOrder, true_and]
  exact ⟨rfl, fun q hne => (hq q hne).trans (flitCrossed_otherPorts s p rest bs.length q hne)⟩

/-! ### Replay (R85 to R87) -/

theorem sendRow_tx (s : State) (p w : Nat) : ∃ es fs, (sendRow s p w).tx = s.tx ++ es ++ .row p w :: fs := by
  obtain ⟨es, he⟩ := (fillRow_sent s p).tx
  obtain ⟨fs, hf⟩ := (sendOn_sent (emit (fillRow s p) (.row p w)) (trainedLanes (emit (fillRow s p) (.row p w)) p) 2 fun _ => w).tx
  exact ⟨es, fs, hf.trans (by simp [emit, he])⟩

/-- A port at the start of a round from its oldest flit. -/
def roundStarted (x : WeftPort) (now : Nat) : WeftPort :=
  { x with headReplays := x.headReplays + 1, resend := x.buffer, timer := some now }

/-- A round from the oldest flit announces it in a FLIT_START row (R86). -/
theorem startRound_sent {p : Port} {f : SentFlit} {fs : List SentFlit} {s : State} (hb : (weftPort s p).buffer = f :: fs) :
    rowless (weftPort (startRound s p) p) = rowless (roundStarted (weftPort s p) s.now) ∧
    ∃ es fs', (startRound s p).tx = s.tx ++ es ++ .row p (flitStartBlock true f.seq) :: fs' := by
  obtain ⟨u, hu, hp, htx⟩ : ∃ u, startRound s p = sendRow u p (flitStartBlock true f.seq) ∧
      weftPort u p = roundStarted (weftPort s p) s.now ∧ u.tx = s.tx := by
    refine ⟨ctrWeft (weftError (setWeft s p (roundStarted (weftPort s p) s.now)) p 2) p 6 1, ?_, ?_, ctrWeft_tx ..⟩
    · simp only [startRound, hb, roundStarted]
    · rw [weftPort_congr (ctrWeft_weft ..)]
      exact weftPort_setWeft ..
  rw [hu, (sendRow_sent ..).port p, hp, ← htx]
  exact ⟨rfl, sendRow_tx ..⟩

theorem replayTimerExpiry_replays {p : Port} {f : SentFlit} {fs : List SentFlit} {t0 : Nat} {s : State}
    (hl : (weftPort s p).link = .active) (hb : (weftPort s p).buffer = f :: fs) (ht : (weftPort s p).timer = some t0)
    (he : t0 + 1500 ≤ s.now) (hr : (weftPort s p).headReplays < 4) :
    LeavesSettling (.replayTimerExpiry p) s fun t => { weftPort t p with txRow := [] } = { weftPort s p with
      headReplays := (weftPort s p).headReplays + 1, resend := f :: fs, timer := some s.now, txRow := [] } ∧
      (∃ es fs', t.tx = s.tx ++ es ++ .row p (flitStartBlock true f.seq) :: fs') := by
  have h : replayTimerExpiry p s = startRound s p := by
    simp [replayTimerExpiry, replayTrigger, hl, hb, ht, elapsedOpt, he, hr]
  refine ⟨replayTimerExpiry p s, rfl, ?_⟩
  dsimp only
  rw [h, ← hb]
  exact startRound_sent hb

/-! ### RETRAIN (R100, R101) -/

theorem retrainReqReceive_retrains {p : Port} {w : Nat} {rest : List RxItem} {s : State} (hl : (weftPort s p).link = .active)
    (hx : (weftPort s p).rx = .row w :: rest) (hw : bits w 0 8 = 0x58) :
    LeavesSettling (.retrainReqReceive p) s fun t => (weftPort t p).link = .retrain ∧ (weftPort t p).lastCause = 4 ∧
      (weftPort t p).buffer = (weftPort s p).buffer ∧ (weftPort t p).waitReplay = true := by
  have hu := weftPort_setWeft s p { weftPort s p with rx := rest }
  have h : retrainReqReceive p s = sendTs1 (enterRetrain (setWeft s p { weftPort s p with rx := rest }) p 4) p := by
    dsimp only [retrainReqReceive]
    rw [takeRow_front hx hw]
    exact if_pos (by rw [hu]; exact hl)
  obtain ⟨hlink, hcause, hwait⟩ := enterRetrain_port (setWeft s p { weftPort s p with rx := rest }) p 4 p.isLt
  refine ⟨retrainReqReceive p s, rfl, ?_⟩
  dsimp only
  rw [h, weftPort_congr (sendTs1_weft ..)]
  exact ⟨hlink, hcause, by rw [enterRetrain_buffer _ p 4 p.isLt, hu], hwait⟩

theorem retrainReqEnd_sendsTs1 {p : Port} {t0 : Nat} {s : State} (hl : (weftPort s p).link = .retrain)
    (hr : (weftPort s p).reqSince = some t0) (ht : t0 + 1000 ≤ s.now) :
    LeavesSettling (.retrainReqEnd p) s fun t => weftPort t p = { weftPort s p with reqSince := none } ∧ s.tx <+: t.tx := by
  have h : retrainReqEnd p s = sendTs1 (setWeft s p { weftPort s p with reqSince := none }) p := by
    simp [retrainReqEnd, hl, hr, elapsedOpt, us, ht]
  obtain ⟨es, htx⟩ := (sendTs1_sent (setWeft s p { weftPort s p with reqSince := none }) p).tx
  refine ⟨retrainReqEnd p s, rfl, ?_⟩
  dsimp only
  rw [h, weftPort_congr (sendTs1_weft ..), weftPort_setWeft]
  exact ⟨rfl, es, htx.symm⟩

theorem retrainRateStep_nextRate {p : Port} {s : State} (hl : (weftPort s p).link = .retrain)
    (hr : (weftPort s p).trainRate = 1) (ha : (weftPort s p).agreed = false)
    (ht : (weftPort s p).retrainSince + 500000 ≤ s.now) :
    LeavesSettling (.retrainRateStep p) s fun t => (weftPort t p).link = .retrain ∧ (weftPort t p).trainRate = 2 ∧
      (weftPort t p).phaseSince = s.now ∧ (weftPort t p).buffer = (weftPort s p).buffer := by
  have he : elapsed s (weftPort s p).retrainSince (500 * us) = true := decide_eq_true ht
  have h : retrainRateStep p s = nextPhase s p := by simp [retrainRateStep, hl, hr, ha, he]
  refine ⟨retrainRateStep p s, rfl, ?_⟩
  simp only [h, (weftPort_of_vset (nextPhase_port s p)).1, hl, and_self]

theorem retrainTimeout_downs {p : Port} {s : State} (hl : (weftPort s p).link = .retrain)
    (ht : (weftPort s p).retrainSince + 1000000 ≤ s.now) :
    LeavesSettling (.retrainTimeout p) s fun t => (weftPort t p).link = .down ∧ (weftPort t p).lastCause = 6 ∧
      (weftPort t p).buffer = [] ∧ (weftPort t p).rx = [] ∧ p.val ∈ t.weft.downed := by
  have he : elapsed s (weftPort s p).retrainSince ms = true := decide_eq_true ht
  have h : retrainTimeout p s = linkDown s p 6 := by simp [retrainTimeout, hl, he]
  refine ⟨retrainTimeout p s, rfl, ?_⟩
  simp only [h, linkDown_port, linkDown_weft, clearedLink, hl]
  simp

theorem weftRetrainCmd_retrains {sess : Nat} {p : Port} {s : State} (h : MayAct s sess 0x3207 (p + 1) 1)
    (hw : isWeft s p = true) (hl : (weftPort s p).link = .active) :
    LeavesSettling (.weftRetrainCmd sess p 1) s fun t => (weftPort t p).link = .retrain ∧ (weftPort t p).lastCause = 5 ∧
      (weftPort t p).buffer = (weftPort s p).buffer := by
  have hj (q : Nat) : weftPort (journalAction s sess 0x3207 (p + 1) 1) q = weftPort s q := weftPort_congr (journalAction_weft ..) q
  obtain ⟨hlink, hcause, -⟩ := enterRetrain_port (journalAction s sess 0x3207 (p + 1) 1) p 5 p.isLt
  refine ⟨_, rfl, ?_⟩
  dsimp only
  rw [actWrite_done h (by rw [hw]; rfl), onOne_one, weftPort_congr (emit_weft ..), actWeftRetrain, hj, hl]
  exact ⟨hlink, hcause, by rw [enterRetrain_buffer _ p 5 p.isLt, hj]⟩

/-- Settles O14, a lemma for each command. -/
theorem weftRunning : Obligations.WeftRunning := by
  unfold Obligations.WeftRunning
  exact ⟨fun _ _ hl hn hr ho => flitSend_idle hl hn hr ho, fun _ _ _ _ hl hn hr => flitSend_replays hl hn hr,
    fun _ _ _ _ hl hx hn hf hw => flitReceive_waits hl hx hn hf hw,
    fun _ _ _ _ _ _ _ hl hx hlen hf hh hk hn ha hm hw hc hcrc hb hH hD hn0 ho hr htc hgotH hgotD =>
      flitReceive_takes hx hlen hf hh ⟨hk, hn, ha, hm⟩ hcrc ⟨hl, hw, hc, hb, ⟨hH, hD⟩, hn0, ho, hr, ⟨hgotH, hgotD⟩⟩ htc,
    fun _ _ _ _ _ hl hb ht he hr => replayTimerExpiry_replays hl hb ht he hr,
    fun _ _ _ _ hl hx hw => retrainReqReceive_retrains hl hx hw, fun _ _ _ hl hr ht => retrainReqEnd_sendsTs1 hl hr ht,
    fun _ _ hl hr ha ht => retrainRateStep_nextRate hl hr ha ht, fun _ _ hl ht => retrainTimeout_downs hl ht,
    fun _ _ _ h hw hl => weftRetrainCmd_retrains h hw hl⟩

end Sys2Proof.Scope
end

section
/-!
Hot-plug slots (R131, R136): a surprise down needs a downstream link, and a slot may be given to an upstream port.
-/

namespace Sys2Proof.Scope

open Sys2Proof.Machine

theorem isDown_congr {s t : State} (h : t.cfg = s.cfg) (p : Nat) : isDown t p = isDown s p := by
  simp only [isDown, isWarp_congr h, cfgv_congr h]

/-- An empty slot takes down a downstream link only. -/
theorem inputEffect_upstream {s : State} {k : Nat} (hu : isDown s (cfgv s 0x3121 (k + 1)) = false)
    (hd : (warpPort s (cfgv s 0x3121 (k + 1))).st ≠ .dpc) :
    (inputEffect s k 0 true).warp.port = s.warp.port := by
  have hp : (slotEvent (setSlot s k { slotState s k with presenceChanged := true }) k 0x030B (k + at_ 16 (b2n (!true)))).warp.port =
      s.warp.port := by rw [slotEvent_warp]; rfl
  have hdown : isDown (slotEvent (setSlot s k { slotState s k with presenceChanged := true }) k 0x030B (k + at_ 16 (b2n (!true))))
      (cfgv s 0x3121 (k + 1)) = false := (isDown_congr (by simp) _).trans hu
  dsimp only [inputEffect]
  rw [hdown, warpPort_congr hp, if_neg (by simp), if_neg (fun h => hd h.2)]
  exact hp

/-- An upstream port keeps its active link when its slot's presence input has settled at empty. -/
theorem hpInputDebounced_upstream {s : State} {k : Nat} (hr : bit (slotState s k).raw 0 = true)
    (hu : isDown s (cfgv s 0x3121 (k + 1)) = false) (hd : (warpPort s (cfgv s 0x3121 (k + 1))).st ≠ .dpc) :
    (hpInputDebounced k 0 s).warp.port = s.warp.port := by
  dsimp only [hpInputDebounced]
  rw [hr]
  split
  · exact inputEffect_upstream (k := k) (s := setSlot s k { slotState s k with inputs := putBit (slotState s k).inputs 0 true }) hu hd
  · rfl

/-- A module in service whose slot 0 is given to P0, an upstream warp port with its link up; the slot has been empty for a second
and was taken as occupied. -/
def upstreamSlot : State where
  now := 1000000000
  module := { state := .service }
  cfg := [(key 0x3001 1, 1), (key 0x3003 1, 1), (key 0x3101 1, 0), (key 0x3102 1, 1), (key 0x3301 1, 1), (key 0x3121 1, 0)]
  warp := {
    port := vset (Vector.replicate 128 {}) 0 { st := .active }
    slot := vset (Vector.replicate 32 {}) 0 { raw := 15, inputs := 14, rawSince := [(0, 0)] } }

/-- The slot meets every premise of the clause on presence, and its port is not downstream. -/
theorem upstreamSlot_empty : ∃ (k : Slot) (i : Fin 4), i = 0 ∧ slotEnabled upstreamSlot k = true ∧
    bit (slotState upstreamSlot k).inputs i = false ∧ bit (slotState upstreamSlot k).raw i = true ∧
    Tbl.get (slotState upstreamSlot k).rawSince i upstreamSlot.now + cfgv upstreamSlot 0x3123 1 * ms ≤ upstreamSlot.now ∧
    (warpPort upstreamSlot (cfgv upstreamSlot 0x3121 (k + 1))).st = .active ∧
    isDown upstreamSlot (cfgv upstreamSlot 0x3121 (k + 1)) = false :=
  ⟨0, 0, by decide +kernel⟩

/-- Refutes O16, at its ninth clause: the slot is an upstream port's, and an upstream link has no surprise down (R131, `isDown`); the
clause asks for none that its port be downstream. -/
theorem not_hotPlug : ¬ Obligations.HotPlug := by
  unfold Obligations.HotPlug
  rintro ⟨-, -, -, -, -, -, -, -, h, -⟩
  obtain ⟨k, i, h0, he, hi, hr, ht, hl, hu⟩ := upstreamSlot_empty
  obtain ⟨t, hexec, -, -, hs⟩ := h k i upstreamSlot h0 he hi hr ht hl
  have hp : t.warp.port = upstreamSlot.warp.port := by
    rw [← Host.Outcome.next.inj hexec]
    subst h0
    exact hpInputDebounced_upstream hr hu (hl ▸ nofun)
  have hst := (congrArg WarpPort.st (warpPort_congr hp _)).trans hl
  exact absurd (hs.symm.trans hst) (by decide)

end Sys2Proof.Scope
end

section
/-!
Warp links (R128, R131 to R134, R145): training to L0, the surprise state and its reports, the software link-downs, and DPC.
-/

namespace Sys2Proof.Scope

open Sys2Proof.Machine Sys2Proof.Laws

/-- A warp port written in a state, and all others of it. -/
theorem warpPort_of_vset {s t : State} {p : Port} {x : WarpPort} (h : t.warp.port = vset s.warp.port p x) :
    warpPort t p = x ∧ ∀ q : Port, q ≠ p → warpPort t q = warpPort s q := by
  have hs : t.warp.port = (setWarp s p x).warp.port := h
  exact ⟨by rw [warpPort_congr hs, warpPort_setWarp], fun q hq => by rw [warpPort_congr hs, warpPort_setWarp_ne hq]⟩

/-! ### What a link's training reads of the state -/

theorem partEnabled_congr {s t : State} (h : t.cfg = s.cfg) (v : Nat) : partEnabled t v = partEnabled s v := by
  simp only [partEnabled, cfgOn_congr h]

theorem portPart_congr {s t : State} (h : t.cfg = s.cfg) (p : Nat) : portPart t p = portPart s p := by
  simp only [portPart, cfgv_congr h]

theorem slotOf_congr {s t : State} (h : t.cfg = s.cfg) (p : Nat) : slotOf t p = slotOf s p := by
  simp only [slotOf, cfgv_congr h]

theorem partOf_congr {s t : State} (h : t.warp.part = s.warp.part) (v : Nat) : partOf t v = partOf s v := by
  simp only [partOf, h]

theorem slotState_congr {s t : State} (h : t.warp.slot = s.warp.slot) (k : Nat) : slotState t k = slotState s k := by
  simp only [slotState, h]

theorem exportOf_congr {s t : State} (hc : t.cfg = s.cfg) (hf : t.fab = s.fab) (p : Nat) : exportOf t p = exportOf s p := by
  simp only [exportOf, isWarp_congr hc, cfgv_congr hc, portPart_congr hc, gport_congr hc, hf]

/-- `t` is `s` but for its warp ports, and for what counts and reports. -/
structure PortsOnly (s t : State) : Prop where
  cfg : t.cfg = s.cfg
  module : t.module = s.module
  lanes : t.lanes = s.lanes
  fab : t.fab = s.fab
  part : t.warp.part = s.warp.part
  slot : t.warp.slot = s.warp.slot

theorem PortsOnly.inService {s t : State} (h : PortsOnly s t) : inService t = inService s := by
  simp only [Machine.inService, h.module]

theorem PortsOnly.clockOk {s t : State} (h : PortsOnly s t) (p : Nat) : clockOk t p = clockOk s p := by
  simp only [Machine.clockOk, portClock, isWeft_congr h.cfg, h.lanes]

theorem PortsOnly.linkLet {s t : State} (h : PortsOnly s t) (p : Nat) : linkLet t p = linkLet s p := by
  simp only [Machine.linkLet, portPart_congr h.cfg, partEnabled_congr h.cfg, partOf_congr h.part, isDown_congr h.cfg,
    slotOf_congr h.cfg, slotState_congr h.slot, exportOf_congr h.cfg h.fab]

theorem PortsOnly.linkFits {s t : State} (h : PortsOnly s t) (p width rate : Nat) (flit : Bool) :
    linkFits t p width rate flit = linkFits s p width rate flit := by
  simp only [Machine.linkFits, portWidth_congr h.cfg]

theorem PortsOnly.warpAdvert {s t : State} (h : PortsOnly s t) (p : Nat) : warpAdvert t p = warpAdvert s p := by
  simp only [Machine.warpAdvert, cfgv_congr h.cfg]

/-! ### A link comes up (R145) -/

/-- What a link trains to: its port's wiring is a free value. -/
def linkedUp (s : State) (p width rate : Nat) (flit : Bool) : WarpPort :=
  { warpPort s p with
    st := .active, width := width, rate := rate, flit := flit, softDown := false
    reversed := bit (freeValue s) 0, inverted := bits (freeValue s) 1 width
    equalised := if 3 ≤ rate then rate else 0, adv := warpAdvert s p, freed := [] }

theorem warpLinkUp_port {p width rate : Nat} {flit : Bool} {s : State}
    (hd : (warpPort s p).st = .down ∨ (warpPort s p).st = .training) (hw : isWarp s p = true) (hi : inService s = true)
    (hl : linkLet s p = true) (hc : clockOk s p = true) (hf : linkFits s p width rate flit = true) :
    (warpLinkUp p width rate flit s).warp.port = vset s.warp.port p (linkedUp s p width rate flit) := by
  rcases hd with hd | hd <;> simp [warpLinkUp, hd, hw, hi, hl, hc, hf, setWarp, linkedUp]

theorem warpLinkUp_trains {p : Port} {width rate : Nat} {flit : Bool} {s : State}
    (hd : (warpPort s p).st = .down ∨ (warpPort s p).st = .training) (hw : isWarp s p = true) (hi : inService s = true)
    (hl : linkLet s p = true) (hc : clockOk s p = true) (hf : linkFits s p width rate flit = true) :
    Leaves (.warpLinkUp p width rate flit) s fun t => (warpPort t p).st = .active ∧ (warpPort t p).width = width ∧
      (warpPort t p).rate = rate ∧ (warpPort t p).flit = flit ∧ (warpPort t p).softDown = false ∧
      (warpPort t p).adv = warpAdvert s p ∧ (warpPort t p).freed = [] ∧ (warpPort t p).reqs = (warpPort s p).reqs ∧
      (∀ q : Port, q ≠ p → warpPort t q = warpPort s q) := by
  obtain ⟨hp, hq⟩ := warpPort_of_vset (warpLinkUp_port hd hw hi hl hc hf)
  refine ⟨warpLinkUp p width rate flit s, rfl, ?_⟩
  simp only [hp, linkedUp, true_and]
  exact hq

/-! ### The surprise state (R131 to R133) -/

theorem surpriseDown_surprises {p : Port} {s : State} (hd : isDown s p = true) (ha : (warpPort s p).st = .active)
    (hs : (warpPort s p).softDown = false) :
    Leaves (.surpriseDown p) s fun t => (warpPort t p).st = .surprise ∧ (warpPort t p).downCause = 1 ∧
      (warpPort t p).width = 0 ∧ (warpPort t p).rate = 0 ∧ (warpPort t p).reportAt = s.now := by
  have h : surpriseDown p s = surpriseEnter s p false := by simp [surpriseDown, hd, ha, hs]
  have hl := surpriseEnter_link s p false
  refine ⟨surpriseDown p s, rfl, ?_⟩
  dsimp only
  rw [h]
  exact ⟨congrArg WarpPort.st hl, congrArg WarpPort.downCause hl, congrArg WarpPort.width hl, congrArg WarpPort.rate hl,
    congrArg WarpPort.reportAt hl⟩

/-- The port's counts start again. -/
theorem surpriseCounts_warp (s : State) (p : Nat) : (surpriseCounts s p).warp =
    (setWarp s p { warpPort s p with synthesized := 0, dropped := 0, reportAt := s.now }).warp := by
  simp [surpriseCounts]

theorem surpriseReport_restarts {p : Port} {s : State} (hs : (warpPort s p).st = .surprise)
    (ht : (warpPort s p).reportAt + 1000000000 ≤ s.now) :
    Leaves (.surpriseReport p) s fun t =>
      warpPort t p = { warpPort s p with synthesized := 0, dropped := 0, reportAt := s.now } ∧
      (∀ q : Port, q ≠ p → warpPort t q = warpPort s q) := by
  have he : elapsed s (warpPort s p).reportAt sec = true := decide_eq_true ht
  have h : surpriseReport p s = surpriseCounts s p := by simp [surpriseReport, hs, he]
  refine ⟨surpriseReport p s, rfl, ?_⟩
  dsimp only
  rw [h]
  exact warpPort_of_vset (congrArg WarpBlk.port (surpriseCounts_warp s p))

/-- The surprise state of a port that is not contained ends with the last report. -/
theorem surpriseEnd_uncontained {p : Port} {s : State} (st : WarpSt) (hs : (warpPort s p).st = .surprise)
    (hc : (warpPort s p).contained = none) :
    PortsOnly s (surpriseEnd s p st) ∧ warpPort (surpriseEnd s p st) p =
      { warpPort s p with st := st, synthesized := 0, dropped := 0, reportAt := s.now, contained := none } := by
  have hp : warpPort (surpriseCounts s p) p = { warpPort s p with synthesized := 0, dropped := 0, reportAt := s.now } :=
    (warpPort_of_vset (congrArg WarpBlk.port (surpriseCounts_warp s p))).1
  have h : surpriseEnd s p st =
      setWarp (surpriseCounts s p) p { warpPort (surpriseCounts s p) p with st := st, contained := none } := by
    simp [surpriseEnd, hs, hc]
  rw [h, warpPort_setWarp, hp]
  refine ⟨⟨?_, ?_, ?_, ?_, ?_, ?_⟩, rfl⟩ <;> simp [surpriseCounts, setWarp]

theorem linkReturnL0_trains {p : Port} {width rate : Nat} {flit : Bool} {s : State} (hs : (warpPort s p).st = .surprise)
    (hn : (warpPort s p).contained = none) (hp : cardPresent s p = true) (hw : isWarp s p = true) (hi : inService s = true)
    (hl : linkLet s p = true) (hc : clockOk s p = true) (hf : linkFits s p width rate flit = true) :
    Leaves (.linkReturnL0 p width rate flit) s fun t => (warpPort t p).st = .active ∧ (warpPort t p).width = width ∧
      (warpPort t p).rate = rate ∧ (warpPort t p).flit = flit ∧ (warpPort t p).softDown = false ∧
      (warpPort t p).adv = warpAdvert s p ∧ (warpPort t p).freed = [] ∧ (warpPort t p).synthesized = 0 ∧
      (warpPort t p).dropped = 0 := by
  obtain ⟨ho, he⟩ := surpriseEnd_uncontained .training hs hn
  have h : linkReturnL0 p width rate flit s = warpLinkUp p width rate flit (surpriseEnd s p .training) := by
    simp [linkReturnL0, hs, hn, hp, hc, hf]
  have hu := (warpPort_of_vset (warpLinkUp_port (s := surpriseEnd s p .training) (.inr (by rw [he]))
    ((isWarp_congr ho.cfg _).trans hw) (ho.inService.trans hi) ((ho.linkLet p).trans hl) ((ho.clockOk p).trans hc)
    ((ho.linkFits p width rate flit).trans hf))).1
  refine ⟨linkReturnL0 p width rate flit s, rfl, ?_⟩
  simp [h, hu, linkedUp, he, ho.warpAdvert]

/-! ### What waits at a device: answers and drops add no request to it -/

/-- At every port the same requests wait for their answers. -/
structure RequestsKept (s t : State) : Prop where
  reqs : ∀ q, (warpPort t q).reqs = (warpPort s q).reqs

theorem RequestsKept.refl (s : State) : RequestsKept s s := ⟨fun _ => rfl⟩

theorem RequestsKept.trans {s t u : State} (h : RequestsKept s t) (k : RequestsKept t u) : RequestsKept s u :=
  ⟨fun q => (k.reqs q).trans (h.reqs q)⟩

theorem RequestsKept.of_port {s t : State} (h : t.warp.port = s.warp.port) : RequestsKept s t :=
  ⟨fun q => by rw [warpPort_congr h]⟩

theorem RequestsKept.of_warp {s t : State} (h : t.warp = s.warp) : RequestsKept s t := .of_port (by rw [h])

theorem RequestsKept.foldl {α : Type} {f : State → α → State} (h : ∀ u x, RequestsKept u (f u x)) (l : List α) (s : State) :
    RequestsKept s (l.foldl f s) := by
  induction l generalizing s with
  | nil => exact .refl s
  | cons x l ih => exact (h s x).trans (ih (f s x))

theorem RequestsKept.ite {s t u : State} {c : Prop} [Decidable c] (h : RequestsKept s t) (k : RequestsKept s u) :
    RequestsKept s (if c then t else u) := by
  split
  · exact h
  · exact k

theorem setWarp_requests {s : State} {p : Nat} {x : WarpPort} (h : x.reqs = (warpPort s p).reqs) :
    RequestsKept s (setWarp s p x) := by
  refine ⟨fun q => ?_⟩
  by_cases hq : p = q
  · subst hq
    by_cases hp : p < 128
    · rw [show warpPort (setWarp s p x) p = x from warpPort_setWarp s ⟨p, hp⟩ x, h]
    · simp [warpPort, setWarp, vget, vset, hp]
  · simp only [warpPort, setWarp, vget_vset_other _ _ _ _ _ hq]

theorem returnCredit_requests (s : State) (c : Chain) : RequestsKept s (returnCredit s c) := by
  simp only [returnCredit]
  split
  · exact .ite (.refl s) (.ite (setWarp_requests rfl) (.of_warp (by simp)))
  · exact .refl s

theorem promote_requests (s : State) (id : Nat) : RequestsKept s (promote s id) := by
  simp only [promote]
  split
  · exact .refl s
  · next c _ =>
    split
    · exact .ite (.ite (.refl s) (.of_warp (by simp))) (.ite ((returnCredit_requests s c).trans (.of_warp (by simp))) (.refl s))
    · exact .refl s

theorem storeChain_requests (s : State) (src size : Nat) (m : Bool) (c : Option (Nat × Nat × Nat)) :
    RequestsKept s (storeChain s src size m c).1 := by
  simp only [storeChain]
  refine RequestsKept.trans ?_ (.of_warp (poolChanged_warp _))
  exact RequestsKept.trans (.of_warp (by simp)) (promote_requests _ _)

theorem enqueueTlp_requests (s : State) (d src : Nat) (o : Origin) (t : Tlp) (e n : Nat) :
    RequestsKept s (enqueueTlp s d src o t e n).1 :=
  (storeChain_requests s src (cells (tlpBytes t)) false none).trans (.of_warp (by simp [enqueueTlp]))

theorem freeChain_requests (s : State) (id : Nat) : RequestsKept s (freeChain s id) := by
  simp only [freeChain]
  split
  · exact .refl s
  · next c _ => exact (returnCredit_requests s c).trans (.of_warp (by simp))

theorem dropRef_requests (s : State) (id : Nat) : RequestsKept s (dropRef s id) := by
  simp only [dropRef]
  split
  · exact .refl s
  · next c _ => exact .ite (freeChain_requests s id) (.ite ((returnCredit_requests s c).trans (.of_warp (by simp))) (.of_warp (by simp)))

theorem releaseItem_requests (s : State) (i : LoomItem) : RequestsKept s (releaseItem s i) := by
  simp only [releaseItem]
  split
  · exact .of_port rfl
  · exact ⟨(dropRef_requests _ _).reqs⟩

theorem answer_requests (s : State) (src : Nat) (o : Origin) (q : Tlp) (c st : Nat) (ep : Bool) (data : List Byte) :
    RequestsKept s (answer s src o q c st ep data) := by
  simp only [answer]
  cases o.ret with
  | none => exact .refl s
  | port p => exact enqueueTlp_requests ..
  | tunnel v =>
    dsimp only
    split
    · exact .of_warp (by simp)
    · exact .refl s
  | dobby => exact enqueueTlp_requests ..
  | gone v => exact .of_port rfl
  | engine r => exact .of_port rfl
  | shuttle cid seq tag =>
    refine .of_warp ?_
    dsimp only
    cases ep <;> cases o.window <;> simp

theorem synthesize_requests (s : State) (p : Nat) (o : Origin) (t : Tlp) : RequestsKept s (synthesize s p o t) := by
  have counted : RequestsKept s (if (warpPort s p).st = .surprise then
      setWarp s p { warpPort s p with synthesized := (warpPort s p).synthesized + 1 } else s) :=
    .ite (setWarp_requests rfl) (.refl s)
  simp only [synthesize]
  refine (counted.trans (.of_warp ?_)).trans (.ite (answer_requests ..) (answer_requests ..))
  simp

theorem dropPosted_requests (s : State) (p : Nat) : RequestsKept s (dropPosted s p) := by
  have counted : RequestsKept s (if (warpPort s p).st = .surprise then
      setWarp s p { warpPort s p with dropped := (warpPort s p).dropped + 1 } else s) := .ite (setWarp_requests rfl) (.refl s)
  simp only [dropPosted]
  exact counted.trans (.of_warp (by simp))

theorem itemLost_requests (s : State) (i : LoomItem) : RequestsKept s (itemLost s i) := by
  simp only [itemLost]
  split
  · exact .of_warp (by simp)
  · split
    · exact answer_requests ..
    · split
      · exact .of_warp (by simp)
      · exact .refl s
    · exact .refl s

theorem refuseQueued_requests (s : State) (p : Nat) (i : LoomItem) : RequestsKept s (refuseQueued s p i) := by
  have e : RequestsKept s (releaseItem (removeItem s p i.id) i) :=
    RequestsKept.trans (.of_warp (removeItem_warp ..)) (releaseItem_requests ..)
  simp only [refuseQueued]
  split
  · exact e
  · refine e.trans (.ite ?_ (.ite ?_ (.refl _)))
    · exact RequestsKept.trans (.of_warp (by simp)) (synthesize_requests ..)
    · exact (dropPosted_requests ..).trans (itemLost_requests ..)

theorem refuseQueue_requests (s : State) (p : Nat) : RequestsKept s (refuseQueue s p) :=
  .foldl (fun u i => refuseQueued_requests u p i) _ _

/-- No request sent to the device waits for its answer any more. -/
theorem failSent_reqs (s : State) (p : Port) : (warpPort (failSent s p) p).reqs = [] := by
  simp only [failSent]
  refine ((RequestsKept.foldl (fun u r => ?_) _ _).reqs p).trans
    (((RequestsKept.foldl (fun u x => ?_) _ _).reqs p).trans (by rw [warpPort_setWarp]))
  · exact ⟨(synthesize_requests ..).reqs⟩
  · split
    · exact RequestsKept.trans (.of_warp (writeDone_warp ..)) (answer_requests ..)
    · exact .of_warp (writeDone_warp ..)

/-! ### Software link-downs (R128, R133) -/

/-- A port taken down by software: what waited at it and at its device is refused. -/
theorem refused_down {p : Port} (s : State) (x : WarpPort) (hd : x.st = .down) (hs : x.softDown = true) :
    (warpPort (refuseQueue (failSent (setWarp s p x) p) p) p).st = .down ∧
    (warpPort (refuseQueue (failSent (setWarp s p x) p) p) p).softDown = true ∧
    (warpPort (refuseQueue (failSent (setWarp s p x) p) p) p).reqs = [] := by
  have hl : linkPart (warpPort (refuseQueue (failSent (setWarp s p x) p) p) p) = linkPart x := by
    rw [refuseQueue_kept, failSent_kept, warpPort_setWarp]
  exact ⟨(congrArg WarpPort.st hl).trans hd, (congrArg WarpPort.softDown hl).trans hs,
    ((refuseQueue_requests ..).reqs p).trans (failSent_reqs _ p)⟩

theorem softwareDown_port {p : Port} {s : State} (hd : isDown s p = true) :
    (warpPort (softwareDown s p) p).st = .down ∧ (warpPort (softwareDown s p) p).softDown = true ∧
    (warpPort (softwareDown s p) p).reqs = [] := by
  dsimp only [softwareDown]
  rw [hd]
  exact refused_down _ _ rfl rfl

theorem linkDisable_downs {p : Port} {s : State} (hd : isDown s p = true) :
    Leaves (.linkDisable p) s fun t => (warpPort t p).st = .down ∧ (warpPort t p).softDown = true ∧ (warpPort t p).reqs = [] :=
  ⟨softwareDown s p, rfl, softwareDown_port hd⟩

theorem secondaryBusReset_downs {p : Port} {s : State} (hd : isDown s p = true) :
    Leaves (.secondaryBusReset p) s fun t =>
      (warpPort t p).st = .down ∧ (warpPort t p).softDown = true ∧ (warpPort t p).reqs = [] := by
  refine ⟨secondaryBusReset p s, rfl, softwareDown_port ?_⟩
  rw [isDown_congr, hd]
  split
  · exact emit_cfg ..
  · rfl

/-! ### DPC (R134) -/

/-- The keys that a port holds go, and no register of a partition with them. -/
theorem discardIde_part (s : State) (p cause : Nat) : (discardIde s p cause).warp.part = s.warp.part := by
  dsimp only [discardIde]
  rw [foldl_stands (g := State.warp) fun _ _ => event_warp ..]

theorem warpLinkGone_part (s : State) (p cause : Nat) : (warpLinkGone s p cause).warp.part = s.warp.part := by
  simp [warpLinkGone, discardIde_part, setWarp]

theorem warpLinkGone_cfg (s : State) (p cause : Nat) : (warpLinkGone s p cause).cfg = s.cfg :=
  (warpLinkGone_keeps (mk := 7889152) (.refl s) (by decide)).cfg (by decide)

theorem downPorts_congr {s t : State} (h : t.cfg = s.cfg) (v : Nat) : downPorts t v = downPorts s v := by
  simp only [downPorts, isDown_congr h, portPart_congr h]

theorem bridgeOf_congr {s t : State} (h : t.cfg = s.cfg) (p : Nat) : bridgeOf t p = bridgeOf s p := by
  simp only [bridgeOf, portPart_congr h, downPorts_congr h]

theorem dpcAnswersUr_congr {s t : State} (hc : t.cfg = s.cfg) (hp : t.warp.part = s.warp.part) (p : Nat) :
    dpcAnswersUr t p = dpcAnswersUr s p := by
  simp only [dpcAnswersUr, portPart_congr hc, cfgReg, partOf_congr hp, bridgeOf_congr hc]

/-- What a link of a partition leaves when DPC takes it: its rate and width, or the last report of the surprise state. -/
theorem dpcTrigger_before (s : State) (p : Nat) (c : Prop) [Decidable c] :
    dpcAnswersUr (if c then warpLinkGone s p 2 else surpriseCounts s p) p = dpcAnswersUr s p := by
  split
  · exact dpcAnswersUr_congr (warpLinkGone_cfg s p 2) (warpLinkGone_part s p 2) p
  · exact dpcAnswersUr_congr (by simp [surpriseCounts]) (congrArg WarpBlk.part (surpriseCounts_warp s p)) p

/-- Containment under DPC, its reports and its refusals leave the port's link as it was set. -/
theorem contained_link {p : Port} (s : State) (x : WarpPort) (v : Option Nat) (c n info : Nat) :
    linkPart (warpPort (refuseQueue (failSent (portEvent (count (selContained (setWarp s p x) p c 3 v 0) (ctrSel p 5) 1)
      p n info) p) p) p) = linkPart x := by
  rw [refuseQueue_kept, failSent_kept, warpPort_congr (congrArg WarpBlk.port (portEvent_warp ..)),
    warpPort_congr (congrArg WarpBlk.port (count_warp ..)), selContained_kept, warpPort_setWarp]

theorem dpcTrigger_contains {p : Port} {reason : Nat} {s : State} (hd : isDown s p = true) (he : dpcEnabled s p = true)
    (hl : (warpPort s p).st = .active ∨ (warpPort s p).st = .surprise) :
    Leaves (.dpcTrigger p reason) s fun t => (warpPort t p).st = .dpc ∧ (warpPort t p).dpcUr = dpcAnswersUr s p ∧
      ((warpPort t p).surpriseUnder = true ↔ (warpPort s p).st = .surprise) := by
  refine ⟨dpcTrigger p reason s, rfl, ?_⟩
  dsimp only [dpcTrigger]
  rw [if_pos ⟨hd, he, hl⟩, dpcTrigger_before]
  have h := contained_link (p := p)
  exact ⟨congrArg WarpPort.st (h ..), congrArg WarpPort.dpcUr (h ..),
    (congrArg (· = true) (congrArg WarpPort.surpriseUnder (h ..))).to_iff.trans decide_eq_true_iff⟩

theorem dpcRelease_trains {p : Port} {s : State} (h : (warpPort s p).st = .dpc) :
    Leaves (.dpcRelease p) s fun t => warpPort t p = { warpPort s p with
      st := if (warpPort s p).surpriseUnder then .surprise else .training, surpriseUnder := false, synthesized := 0, dropped := 0
      reportAt := s.now } ∧ (∀ q : Port, q ≠ p → warpPort t q = warpPort s q) := by
  refine ⟨dpcRelease p s, rfl, warpPort_of_vset ?_⟩
  simp [dpcRelease, h, setWarp]

/-- Settles O15, a lemma for each command. -/
theorem warpLinks : Obligations.WarpLinks := by
  unfold Obligations.WarpLinks
  exact ⟨fun _ _ _ _ _ hd hw hi hl hc hf => warpLinkUp_trains hd hw hi hl hc hf,
    fun _ _ hd ha hs => surpriseDown_surprises hd ha hs, fun _ _ hs ht => surpriseReport_restarts hs ht,
    fun _ _ _ _ _ hs hn hp hw hi hl hc hf => linkReturnL0_trains hs hn hp hw hi hl hc hf,
    fun _ _ hd _ => secondaryBusReset_downs hd, fun _ _ hd _ => linkDisable_downs hd,
    fun _ _ _ hd he hl => dpcTrigger_contains hd he hl, fun _ _ h => dpcRelease_trains h⟩

end Sys2Proof.Scope
end

section
/-!
Quiet states, for the refutation of O17: under `spoolCfg`, in FENCED, with no partition imported and no change of the free bobbins yet. The end
of a step acts on what a state has left in its queues, and the statement lets these be anything. Whatever stores or frees a chain, though,
notes the lowest number of free bobbins (`poolChanged`), and nothing takes that note back. So where the note is absent at the end, no chain has
come or gone in between, and none has come to hold credits. This section has the loom.
-/

namespace Sys2Proof.Scope

open Sys2Proof.Machine Sys2Proof.Laws

-- One declaration at a time: side by side their threads are too much for the memory limit of the check.
set_option Elab.async false

/-! ### Quiet states -/

structure Quiet (s : State) : Prop where
  cfg : s.cfg = spoolCfg
  state : s.module.state = .fenced
  imported : s.fab.imported = []
  untouched : s.loom.freeMin = none

/-- A partition's reload, and what its ingress holds meanwhile. -/
def gate (x : Partition) : Option Nat × List (Nat × Tlp) := (x.reloading, x.held)

/-- What tells whether a state is quiet, and the gates of its partitions. -/
def outline (s : State) : Tbl Nat × ModState × List AdmittedVs × Option Nat × (Nat → Option Nat × List (Nat × Tlp)) :=
  (s.cfg, s.module.state, s.fab.imported, s.loom.freeMin, fun v => gate (partOf s v))

/-- A chain holds credits of the port that brought it. -/
def Charged (s : State) : Prop := ∃ r ∈ s.loom.chains, r.2.credit ≠ none

theorem Quiet.congr {s t : State} (c : Quiet t) (h : outline t = outline s) : Quiet s := by
  simp only [outline, Prod.mk.injEq] at h
  obtain ⟨hc, hm, hf, hl, -⟩ := h
  exact ⟨hc ▸ c.cfg, hm ▸ c.state, hf ▸ c.imported, hl ▸ c.untouched⟩

/-- Unless it is no longer quiet, `t` has the outline of `s`, and no chain has come to hold credits meanwhile. -/
def Undisturbed (s t : State) : Prop := Quiet t → outline t = outline s ∧ (Charged t → Charged s)

theorem Undisturbed.refl (s : State) : Undisturbed s s := fun _ => ⟨rfl, id⟩

theorem Undisturbed.trans {s t u : State} (h : Undisturbed s t) (k : Undisturbed t u) : Undisturbed s u := fun q =>
  have ⟨kl, kc⟩ := k q
  have ⟨hl, hc⟩ := h (q.congr kl)
  ⟨kl.trans hl, hc ∘ kc⟩

theorem Undisturbed.same {s t u : State} (h : Undisturbed s t) (hl : outline u = outline t) (hc : u.loom.chains = t.loom.chains) :
    Undisturbed s u := h.trans fun _ => ⟨hl, by simp only [Charged, hc, imp_self]⟩

theorem Undisturbed.ite {s a b : State} {c : Prop} {_ : Decidable c} (ha : Undisturbed s a) (hb : Undisturbed s b) :
    Undisturbed s (if c then a else b) := by
  split
  · exact ha
  · exact hb

theorem Undisturbed.foldl {α : Type} {s t : State} {f : State → α → State} (h : Undisturbed s t) (l : List α)
    (hf : ∀ u a, Undisturbed u (f u a)) : Undisturbed s (l.foldl f t) := by
  induction l generalizing t with
  | nil => exact h
  | cons a l ih => exact ih (h.trans (hf t a))

/-- The blocks that `outline` and `Charged` read: configuration, module, warp ports, loom and fabric. -/
def outlineMask : Nat := maskOf [.cfg, .module, .warp, .loom, .fab]

/-- What writes none of these blocks disturbs nothing. -/
theorem Undisturbed.keeps {m : Nat} {s t u : State} (h : Undisturbed s t) (k : Keeps m t u) (hm : m &&& outlineMask = 0) :
    Undisturbed s u := by
  have hb (i : Nat) (hi : outlineMask.testBit i = true) : m.testBit i = false := by
    simpa [Nat.testBit_and, hi] using congrArg (Nat.testBit · i) hm
  have hl := k.loom (hb 9 (by decide))
  refine h.same ?_ (by rw [hl])
  simp only [outline, partOf, k.cfg (hb 1 (by decide)), k.module (hb 3 (by decide)), k.warp (hb 8 (by decide)), hl,
    k.fab (hb 10 (by decide))]

/-- A command's step keeps the configuration in force, so a proof may use it. -/
theorem Undisturbed.of_cfg {s t : State} (k : t.cfg = s.cfg) (h : s.cfg = spoolCfg → Undisturbed s t) : Undisturbed s t :=
  fun q => h (k ▸ q.cfg) q

theorem Undisturbed.of_module {s t : State} (k : t.module = s.module) (h : s.module.state = .fenced → Undisturbed s t) :
    Undisturbed s t := fun q => h (k ▸ q.state) q

theorem Undisturbed.of_fab {s t : State} (k : t.fab = s.fab) (h : s.fab.imported = [] → Undisturbed s t) : Undisturbed s t :=
  fun q => h (k ▸ q.imported) q

/-- What a write to a partition leaves of it, every partition keeps. -/
theorem partOf_setPart_same {β : Type} (g : Partition → β) {s : State} {v : Nat} {x : Partition} (h : g x = g (partOf s v)) (w : Nat) :
    g (partOf (setPart s v x) w) = g (partOf s w) := by
  by_cases hw : v = w
  · subst hw
    by_cases hv : v < 32
    · rw [show partOf (setPart s v x) v = x from vget_vset_same _ _ _ _ hv, h]
    · simp [partOf, setPart, vget, vset, hv]
  · simp only [partOf, setPart, vget_vset_other _ _ _ _ _ hw]

/-! ### Chains and their credits -/

theorem Tbl.mem_of_find? {α : Type} {t : Tbl α} {k : Nat} {x : α} (h : Tbl.find? t k = some x) : (k, x) ∈ t := by
  induction t with
  | nil => simp [Tbl.find?] at h
  | cons r t ih =>
    unfold Tbl.find? at h
    split at h
    · next hk => rw [hk, ← Option.some.inj h]; exact List.mem_cons_self
    · exact List.mem_cons_of_mem _ (ih h)

theorem chainOf_mem {s : State} {id : Nat} {c : Chain} (h : chainOf s id = some c) : (id, c) ∈ s.loom.chains := Tbl.mem_of_find? h

theorem Tbl.mem_set {α : Type} {t : Tbl α} {k : Nat} {x : α} {r : Nat × α} (h : r ∈ Tbl.set t k x) : r = (k, x) ∨ r ∈ t := by
  induction t with
  | nil => simpa [Tbl.set] using h
  | cons q t ih =>
    unfold Tbl.set at h
    split at h <;> grind

/-- A chain set with no credits, or with those of a chain already there, brings none. -/
theorem charged_setChain {s : State} {id : Nat} {x : Chain} (hx : x.credit ≠ none → Charged s) (h : Charged (setChain s id x)) :
    Charged s := by
  obtain ⟨r, hr, hc⟩ := h
  rcases Tbl.mem_set hr with rfl | hr
  · exact hx hc
  · exact ⟨r, hr, hc⟩

theorem Undisturbed.setChain {s t : State} (h : Undisturbed s t) {id : Nat} {x : Chain} (hx : x.credit ≠ none → Charged t) :
    Undisturbed s (setChain t id x) := h.trans fun _ => ⟨rfl, charged_setChain hx⟩

/-- Every change of the free bobbins is noted, so its state is not quiet. -/
theorem poolChanged_undisturbed (s t : State) : Undisturbed s (poolChanged t) := by
  intro q
  have h := q.untouched
  unfold poolChanged at h
  simp only [apply_ite State.loom, apply_ite LoomBlk.freeMin, event_loom, count_loom, ite_self] at h
  exact absurd h (by simp)

theorem Undisturbed.weftRelease {s t : State} (h : Undisturbed s t) (p tc slots : Nat) : Undisturbed s (weftRelease t p tc slots) :=
  h.keeps (weftRelease_keeps (mk := 128) (Keeps.refl t) (by decide)) (by decide)

theorem Undisturbed.event {s t : State} (h : Undisturbed s t) (code inst info : Nat) : Undisturbed s (event t code inst info) :=
  h.keeps (event_keeps (mk := 7364608) (Keeps.refl t) (by decide)) (by decide)

theorem Undisturbed.eventFull {s t : State} (h : Undisturbed s t) (code inst sev : Nat) (part : Option Nat) (paired : Bool) (info : Nat) :
    Undisturbed s (eventFull t code inst sev part paired info) :=
  h.keeps (eventFull_keeps (mk := 7364608) (Keeps.refl t) (by decide)) (by decide)

theorem Undisturbed.rateEvent {s t : State} (h : Undisturbed s t) {code place gap : Nat} {put : State → Nat → State}
    (hp : ∀ u n, Undisturbed u (put u n)) : Undisturbed s (rateEvent t code place gap put) := by
  unfold Machine.rateEvent
  dsimp only
  exact .ite ((h.same rfl rfl).trans (hp _ _)) (h.same rfl rfl)

theorem Undisturbed.count {s t : State} (h : Undisturbed s t) (c n : Nat) : Undisturbed s (count t c n) :=
  h.keeps (count_keeps (mk := 1048576) (Keeps.refl t) (by decide)) (by decide)

theorem Undisturbed.filterItem {s t : State} (h : Undisturbed s t) (b : Nat) (i : FilterItem) : Undisturbed s (filterItem t b i) :=
  h.keeps (filterItem_keeps (mk := 1048576) (Keeps.refl t) (by decide)) (by decide)

theorem freeChain_undisturbed (s : State) (id : Nat) : Undisturbed s (freeChain s id) := by
  unfold freeChain
  split
  · exact .refl s
  · exact poolChanged_undisturbed _ _

theorem promote_undisturbed (s : State) (id : Nat) : Undisturbed s (promote s id) := by
  unfold promote
  split
  · exact .refl s
  · next c hc =>
    split
    · refine .ite (.ite (.refl s) (.event (.count ?_ _ _) _ _ _)) (.ite (poolChanged_undisturbed _ _) (.refl s))
      exact (Undisturbed.refl s).setChain fun h => ⟨_, chainOf_mem hc, h⟩
    · exact .refl s

theorem storeChain_undisturbed (s t : State) (src size : Nat) (mcast : Bool) (credit : Option (Nat × Nat × Nat)) :
    Undisturbed s (storeChain t src size mcast credit).1 := poolChanged_undisturbed _ _

theorem dropRef_undisturbed (s : State) (id : Nat) : Undisturbed s (dropRef s id) := by
  unfold dropRef
  split
  · exact .refl s
  · next c hc =>
    refine .ite (freeChain_undisturbed s id) (.ite (poolChanged_undisturbed _ _) ?_)
    exact (Undisturbed.refl s).setChain fun h => ⟨_, chainOf_mem hc, h⟩

theorem charged_eraseChain {s : State} {id : Nat} (h : Charged (eraseChain s id)) : Charged s := by
  obtain ⟨r, hr, hc⟩ := h
  exact ⟨r, List.mem_of_mem_filter hr, hc⟩

/-- Credits that one chain hands to another were held before. -/
theorem handOver_undisturbed (s : State) (chain : Option Nat) (k : Nat) : Undisturbed s (handOver s chain k) := by
  unfold handOver
  split
  · exact .refl s
  · next old =>
    split
    · next o n ho _ =>
      split
      · refine Undisturbed.trans ?_ (promote_undisturbed _ k)
        refine fun _ => ⟨rfl, fun h => ?_⟩
        obtain ⟨r, hr, hc⟩ := h
        rcases Tbl.mem_set hr with rfl | hr
        · exact ⟨_, chainOf_mem ho, hc⟩
        · exact charged_eraseChain ⟨r, hr, hc⟩
      · exact freeChain_undisturbed s old
    · exact freeChain_undisturbed s old

theorem releaseItem_undisturbed (s : State) (i : LoomItem) : Undisturbed s (releaseItem s i) := by
  have h : Undisturbed s { s with loom := { s.loom with spillAt := Tbl.erase s.loom.spillAt i.id } } := (Undisturbed.refl s).same rfl rfl
  unfold releaseItem
  dsimp only
  split
  · exact h
  · exact h.trans (dropRef_undisturbed _ _)

theorem Undisturbed.spillLimit {s t : State} (h : Undisturbed s t) (d tc : Nat) : Undisturbed s (spillLimit t d tc) := by
  unfold Machine.spillLimit
  refine .ite (.event ?_ _ _ _) h
  exact h.same rfl rfl

theorem Undisturbed.pushItem {s t : State} (h : Undisturbed s t) (d : Nat) (i : LoomItem) : Undisturbed s (pushItem t d i) := by
  unfold Machine.pushItem
  extract_lets i' _ t1 units t2 _
  have h2 : Undisturbed s t2 := by
    refine .count ?_ _ _
    exact h.same rfl rfl
  clear_value units
  cases units with
  | some us =>
    refine .spillLimit (.count ?_ _ _) _ _
    exact h2.same rfl rfl
  | none =>
    refine .count ?_ _ _
    exact h.same rfl rfl

theorem enqueueTlp_undisturbed (s t : State) (d src : Nat) (o : Origin) (x : Tlp) (epoch ord : Nat) :
    Undisturbed s (enqueueTlp t d src o x epoch ord).1 := ((storeChain_undisturbed s t _ _ _ _).filterItem _ _).pushItem _ _

theorem Undisturbed.enqueueOper {s t : State} (h : Undisturbed s t) (d src chain bytes : Nat) (o : WireOp) (own : Option (Nat × Nat)) :
    Undisturbed s (enqueueOper t d src chain bytes o own) := by
  have hm : Undisturbed s (drawMark t d (envClass o)).1 :=
    h.keeps (drawMark_keeps (mk := 1048576) (Keeps.refl t) (by decide)) (by decide)
  exact (hm.filterItem _ _).pushItem _ _

end Sys2Proof.Scope
end

section
/-!
What weft ports, the shuttle, tunnels and the engine have left for the end of a step disturbs no quiet state.
-/

namespace Sys2Proof.Scope

open Sys2Proof.Machine Sys2Proof.Laws

-- One declaration at a time: side by side their threads are too much for the memory limit of the check.
set_option Elab.async false

/-! ### Weft ports (R190): what a step has left of them -/

theorem relayBroken_undisturbed (s : State) (b : Nat × Nat × Nat) : Undisturbed s (relayBroken s b) :=
  (freeChain_undisturbed s b.2.2).event _ _ _

/-- A register of a function changes no gate. -/
theorem setPart_undisturbed {s : State} {v : Nat} {x : Partition} (h : gate x = gate (partOf s v)) : Undisturbed s (setPart s v x) := by
  refine (Undisturbed.refl s).same ?_ rfl
  simp only [outline, partOf_setPart_same gate h]
  rfl

theorem aerPort_undisturbed (s : State) (p : Nat) (f : (Nat → Nat) → List (Nat × Nat) × Option Nat) :
    Undisturbed s (aerPort s p f) := by
  have told (u : State) (v fn : Nat) (m : Option Nat) : Undisturbed u (match m with
      | some c => errorMessage u v fn c
      | none => u) := by
    split
    · exact (Undisturbed.refl u).same rfl rfl
    · exact .refl u
  unfold aerPort
  refine .ite (.refl s) ?_
  split
  · refine ((Undisturbed.refl s).foldl _ fun u q => ?_).trans (told _ _ _ _)
    exact setPart_undisturbed rfl
  · refine .ite (.refl s) (((Undisturbed.refl s).foldl _ fun u q => ?_).trans (told _ _ _ _))
    exact (Undisturbed.refl u).same rfl rfl

theorem selCorrectable_undisturbed (s : State) (x cause : Nat) : Undisturbed s (selCorrectable s x cause) := by
  unfold selCorrectable
  extract_lets t1 t2 c1 c2 c3 lim due _ t3
  have h1 : Undisturbed s t1 := (Undisturbed.refl s).count _ _
  have h3 : Undisturbed s t3 :=
    (Undisturbed.ite (h1.trans (aerPort_undisturbed _ _ _)) h1 : Undisturbed s t2).same rfl rfl
  exact .ite (h3.eventFull _ _ _ _ _ _) h3

theorem selContained_undisturbed (s : State) (x cause action header : Nat) :
    Undisturbed s (selContained s x cause action none header) := by
  have hl : Undisturbed s (aerLog s x cause header) := by
    unfold aerLog
    split
    · exact aerPort_undisturbed _ _ _
    · exact .refl s
  unfold selContained
  refine .rateEvent (.count ?_ _ _) fun u n => (Undisturbed.refl u).eventFull _ _ _ _ _ _
  exact hl.same rfl rfl

theorem weftClassified_undisturbed (s : State) (e : Nat × Nat) : Undisturbed s (weftClassified s e) :=
  .ite (selCorrectable_undisturbed _ _ _) (selContained_undisturbed _ _ _ _ _)

theorem dropQueue_undisturbed (s : State) (p : Nat) : Undisturbed s (dropQueue s p) := by
  unfold dropQueue
  refine .foldl (.foldl ?_ _ releaseItem_undisturbed) _ fun u i =>
    (Undisturbed.refl u).keeps (endRelay_keeps (mk := 128) (Keeps.refl u) (by decide)) (by decide)
  exact (Undisturbed.refl s).same rfl rfl

/-- In a fabric that is off, no path is removed. -/
theorem pathRemoved_undisturbed (s : State) (p cause : Nat) : Undisturbed s (pathRemoved s p cause) := by
  refine .of_cfg ((pathRemoved_keeps (mk := allBut .cfg) (Keeps.refl s) (by decide)).cfg (by decide)) fun h => ?_
  have e : pathRemoved s p cause = s := by simp [pathRemoved, fabricOn_off h]
  rw [e]
  exact .refl s

/-- Credits are forgotten, and none are given. -/
theorem forgetCredits_undisturbed (s : State) (p : Nat) : Undisturbed s (forgetCredits s p) := by
  refine fun _ => ⟨rfl, fun ⟨r, hr, hc⟩ => ?_⟩
  obtain ⟨q, hq, rfl⟩ := List.mem_map.mp hr
  refine ⟨q, hq, fun hn => hc ?_⟩
  simp [hn]

theorem portDowned_undisturbed (s : State) (p : Nat) : Undisturbed s (portDowned s p) := by
  unfold portDowned
  refine .trans ?_ (dropQueue_undisturbed _ p)
  exact ((forgetCredits_undisturbed s p).trans (pathRemoved_undisturbed _ _ _)).same rfl rfl

theorem portRisen_undisturbed (s : State) (p : Nat) : Undisturbed s (portRisen s p) := (Undisturbed.refl s).same rfl rfl

theorem Undisturbed.arrivalCounted {s t : State} (h : Undisturbed s t) (p : Nat) (o : WireOp) (n : Nat) :
    Undisturbed s (arrivalCounted t p o n) :=
  h.keeps (arrivalCounted_keeps (mk := 1048576) (Keeps.refl t) (by decide)) (by decide)

theorem Undisturbed.relayCounted {s t : State} (h : Undisturbed s t) (d : Nat) (o : WireOp) (n : Nat) :
    Undisturbed s (relayCounted t d o n) :=
  h.keeps (relayCounted_keeps (mk := 1048576) (Keeps.refl t) (by decide)) (by decide)

theorem Undisturbed.noRoute {s t : State} (h : Undisturbed s t) (mid : Nat) : Undisturbed s (noRoute t mid) :=
  h.keeps (noRoute_keeps (mk := 7364608) (Keeps.refl t) (by decide)) (by decide)

theorem fabricArrive_undisturbed (s : State) (p tc : Nat) (bs : List Byte) : Undisturbed s (fabricArrive s p tc bs) := by
  unfold fabricArrive
  extract_lets o slots t1 freed drop
  have h1 : Undisturbed s t1 := (Undisturbed.refl s).arrivalCounted _ _ _
  have hfreed (u : State) (h : Undisturbed s u) : Undisturbed s (freed u) := h.weftRelease _ _ _
  have hdrop (u : State) (h : Undisturbed s u) : Undisturbed s (drop u) := .count (hfreed u h) _ _
  refine .ite (hdrop _ (h1.rateEvent fun u _ => (Undisturbed.refl u).event _ _ _)) (.ite (hdrop _ h1)
    (.ite (hfreed _ ?_) (.ite ?_ (.ite (hdrop _ h1) ?_))))
  · exact h1.same rfl rfl
  · exact (storeChain_undisturbed s t1 _ _ _ _).same rfl rfl
  · split
    · exact .count (hfreed _ (h1.noRoute _)) _ _
    · exact (storeChain_undisturbed s t1 _ _ _ _).enqueueOper _ _ _ _ _ _

theorem weftArrival_undisturbed (s : State) (a : Arrival) : Undisturbed s (weftArrival s a) := by
  unfold weftArrival
  extract_lets freed
  have hfreed (u : State) (h : Undisturbed s u) : Undisturbed s (freed u) := h.weftRelease _ _ _
  split
  · exact hfreed _ (freeChain_undisturbed s _)
  · exact hfreed _ ((((Undisturbed.refl s).arrivalCounted _ _ _).relayCounted _ _ _).trans (freeChain_undisturbed _ _))
  · exact hfreed _ (.refl s)
  · exact fabricArrive_undisturbed _ _ _ _

theorem noteFirstActive_undisturbed (s : State) : Undisturbed s (noteFirstActive s) :=
  .ite ((Undisturbed.refl s).same rfl rfl) (.refl s)

/-- With no twin, its states do not change. -/
theorem twinCheck_undisturbed (s : State) : Undisturbed s (twinCheck s) := by
  refine .of_cfg ((twinCheck_keeps (mk := allBut .cfg) (Keeps.refl s) (by decide)).cfg (by decide)) fun h => ?_
  have e : twinCheck s = s := by simp [twinCheck, twin_off h]
  rw [e]
  exact .refl s

theorem adoptionReports_undisturbed (s : State) : Undisturbed s (adoptionReports s) := by
  refine .of_cfg ((adoptionReports_keeps (mk := allBut .cfg) (Keeps.refl s) (by decide)).cfg (by decide)) fun h => ?_
  have e : adoptionReports s = s := by simp [adoptionReports, fabricOn_off h]
  rw [e]
  exact .refl s

/-- In FENCED the treadle opens no connection. -/
theorem treadleConns_undisturbed (s : State) : Undisturbed s (treadleConns s) := by
  refine .of_module ((treadleConns_keeps (mk := allBut .module) (Keeps.refl s) (by decide)).module (by decide)) fun h => ?_
  have e : treadleConns s = s := by simp [treadleConns, h]
  rw [e]
  exact .refl s

theorem weftSettled_undisturbed (s : State) : Undisturbed s (weftSettled s) := by
  unfold weftSettled
  extract_lets down errs ins up broken _ t1 t2 t3 t4 t5 t6 t7
  have h6 : Undisturbed s t6 := by
    refine .foldl (.foldl (.foldl (.foldl (.foldl ?_ _ relayBroken_undisturbed) _ weftClassified_undisturbed) _
      portDowned_undisturbed) _ portRisen_undisturbed) _ weftArrival_undisturbed
    exact (Undisturbed.refl s).same rfl rfl
  have h7 : Undisturbed t6 t7 := by
    refine .of_cfg ?_ fun h => ?_
    · exact (Keeps.foldl (m := allBut .cfg) (.refl t6) (weftPorts t6) fun u p hu => portFollowed_keeps hu (by decide)).cfg (by decide)
    · have e : t7 = t6 := by simp [t7, weftPorts_none h]
      rw [e]
      exact .refl t6
  have hs (u : State) : Undisturbed u (sendReleases (silenceEnds u)) :=
    ((Undisturbed.refl u).keeps (silenceEnds_keeps (mk := 65536) (Keeps.refl u) (by decide)) (by decide)).keeps
      (sendReleases_keeps (mk := 1116160) (Keeps.refl _) (by decide)) (by decide)
  exact (((((h6.trans h7).trans (noteFirstActive_undisturbed _)).trans (twinCheck_undisturbed _)).trans (hs _)).trans
    (adoptionReports_undisturbed _)).trans (treadleConns_undisturbed _)

/-! ### Late drops and tunnels (R117, R248) -/

theorem Undisturbed.launch {s t : State} (h : Undisturbed s t) (c : Nat) (o : WireOp) : Undisturbed s (launch t c o) := by
  unfold Machine.launch
  refine .ite (h.same rfl rfl) ?_
  split
  · exact h.noRoute _
  · exact (storeChain_undisturbed s t _ _ _ _).enqueueOper _ _ _ _ _ _

theorem lateDropSent_undisturbed (s : State) (d : LateDrop) : Undisturbed s (lateDropSent s d) := by
  unfold lateDropSent sendNak sendControl
  extract_lets env x t1 y
  have h1 : Undisturbed s t1 := (Undisturbed.refl s).count _ _
  split
  · exact h1
  · refine .launch ?_ _ _
    exact h1.same rfl rfl

theorem lateDropsSent_undisturbed (s : State) : Undisturbed s (lateDropsSent s) := by
  refine .foldl ?_ _ lateDropSent_undisturbed
  exact (Undisturbed.refl s).same rfl rfl

/-- With no partition imported a tunnel has no end here. -/
theorem tunnelArrived_undisturbed (s : State) (r : Nat × Nat × Option Nat × Tlp) : Undisturbed s (tunnelArrived s r) := by
  refine .of_fab ((tunnelArrived_keeps (mk := allBut .fab) (Keeps.refl s) (by decide)).fab (by decide)) fun h => ?_
  have e : tunnelArrived s r = handOver s r.2.2.1 s.loom.nextChain := by simp [tunnelArrived, ownerOf, exporterOf, h]
  rw [e]
  exact handOver_undisturbed s _ _

theorem tunnelSettled_undisturbed (s : State) : Undisturbed s (tunnelSettled s) := by
  refine .foldl ?_ _ tunnelArrived_undisturbed
  exact (Undisturbed.refl s).same rfl rfl

theorem importsFollowed_undisturbed (s : State) : Undisturbed s (importsFollowed s) := by
  refine .of_fab ((importsFollowed_keeps (mk := allBut .fab) (Keeps.refl s) (by decide)).fab (by decide)) fun h => ?_
  have e : importsFollowed s = s := by simp [importsFollowed, h]
  rw [e]
  exact .refl s

/-! ### The engine (R129, R311) -/

theorem Undisturbed.descMod {s t : State} (h : Undisturbed s t) (k : Ticket) (f : DescState → DescState) :
    Undisturbed s (descMod t k f) := h.keeps (descMod_keeps (mk := 8192) (Keeps.refl t) (by decide)) (by decide)

theorem Undisturbed.descCond {s t : State} (h : Undisturbed s t) (k : Ticket) (status detail : Nat) :
    Undisturbed s (descCond t k status detail) := h.descMod _ _

theorem present_undisturbed (s t : State) (op : NewOp) : Undisturbed s (present t op) :=
  (storeChain_undisturbed s t _ _ _ _).same rfl rfl

theorem presentDesc_undisturbed (s : State) (k : Ticket) (d : DescState) : Undisturbed s (presentDesc s k d) := by
  unfold presentDesc
  extract_lets +onlyGivenNames o t1
  have h1 : Undisturbed s t1 := (Undisturbed.refl s).descMod _ _
  refine .ite h1 ?_
  split
  · exact .ite h1 (h1.descCond _ _ _)
  · extract_lets put fence t2 data ps last t3
    have hfence (u : State) : Undisturbed s (fence u) := present_undisturbed _ _ _
    have h2 : Undisturbed s t2 := .ite (hfence _) h1
    have h3 : Undisturbed s t3 := by
      unfold t3
      split
      · exact h2.foldl _ fun u p => present_undisturbed _ _ _
      · exact h2.foldl _ fun u p => present_undisturbed _ _ _
      · exact present_undisturbed _ _ _
      · exact hfence _
      · exact h2
    exact .ite (hfence _) h3

theorem advanceQueue_undisturbed (fuel : Nat) (s : State) (i q : Nat) : Undisturbed s (advanceQueue fuel s i q) := by
  induction fuel generalizing s with
  | zero => exact .refl s
  | succ fuel ih =>
    unfold advanceQueue
    split
    · exact .refl s
    · split
      · exact .refl s
      · exact .ite (.refl s) ((presentDesc_undisturbed _ _ _).trans (ih _))

theorem engineAnswer_undisturbed (s : State) (a : Nat × Nat × Bool × List Byte) : Undisturbed s (engineAnswer s a) := by
  unfold engineAnswer
  split
  · exact .refl s
  · dsimp only
    refine .ite (Undisturbed.trans (.descCond (.descMod ?_ _ _) _ _ _) (advanceQueue_undisturbed _ _ _ _)) (.ite ?_
      (Undisturbed.trans (.descMod ?_ _ _) (advanceQueue_undisturbed _ _ _ _)))
    · exact (Undisturbed.refl s).same rfl rfl
    · exact ((Undisturbed.refl s).descMod _ _).same rfl rfl
    · exact ((Undisturbed.refl s).descMod _ _).same rfl rfl

theorem engineSettled_undisturbed (s : State) : Undisturbed s (engineSettled s) := by
  have h : Undisturbed s { s with eng := { s.eng with answers := [] } } := (Undisturbed.refl s).same rfl rfl
  exact (h.foldl _ engineAnswer_undisturbed).keeps (invalidateSettled_keeps (mk := 2121728) (Keeps.refl _) (by decide)) (by decide)

end Sys2Proof.Scope
end

section
/-!
Partition resets (R126): at a partition in reset a TLP is discarded. Its credits, though, are charged to the first chain stored since it came,
which the model knows by its number, the next one to be given (R151); no clause says that no chain has that number yet.
-/

namespace Sys2Proof.Scope

open Sys2Proof.Machine Sys2Proof.Laws

-- One declaration at a time: side by side their threads are too much for the memory limit of the check.
set_option Elab.async false

/-! ### Error messages to the hosts (R341) -/

theorem dropPosted_undisturbed (s : State) (p : Nat) : Undisturbed s (dropPosted s p) := by
  unfold dropPosted
  extract_lets x t1
  have h1 : Undisturbed s t1 := .ite ((Undisturbed.refl s).same rfl rfl) (.refl s)
  exact h1.count _ _

/-- Heddles check no messages. -/
theorem toPort_message_undisturbed (s : State) (p src : Nat) (t : Tlp) (h : t.kind = .message) :
    Undisturbed s (toPort s p src {} t) := by
  have hk : tlpKind t = 0 := by simp [tlpKind, h]
  unfold toPort
  simp only [hk, Nat.zero_ne_one, if_false, if_true, refuseTlp_message _ _ _ _ h]
  refine .ite ?_ (dropPosted_undisturbed s p)
  unfold deliverTlp
  simp only [tlpAccess, h, refuseTlp_message _ _ _ _ h]
  exact .ite (.refl s) (enqueueTlp_undisturbed _ _ _ _ _ _ _ _)

/-- A partition that is off sends its host no error message. -/
theorem errorsSent_undisturbed (s : State) : Undisturbed s (errorsSent s) := by
  unfold errorsSent
  refine .foldl ?_ _ fun u e => ?_
  · exact (Undisturbed.refl s).same rfl rfl
  · dsimp only
    split
    · next hv =>
      refine .of_cfg ((Keeps.ite (.refl u) (toUpstream_keeps (mk := allBut .cfg) (.refl u) (by decide))).cfg (by decide)) fun h => ?_
      rw [if_pos (by simp [vsState, partEnabled_off h hv])]
      exact .refl u
    · exact toPort_message_undisturbed _ _ _ _ rfl

/-! ### The dobby (R386, R390): a cycle that starts is one that a master waits for -/

/-- The same cycle of a VME master is under way. -/
structure CycleKept (s t : State) : Prop where
  inbound : t.dob.inbound = s.dob.inbound

theorem CycleKept.refl (s : State) : CycleKept s s := ⟨rfl⟩

theorem CycleKept.trans {s t u : State} (h : CycleKept s t) (k : CycleKept t u) : CycleKept s u := ⟨k.inbound.trans h.inbound⟩

theorem CycleKept.of_dob {s t : State} (h : t.dob = s.dob) : CycleKept s t := ⟨by rw [h]⟩

theorem CycleKept.ite {s a b : State} {c : Prop} {_ : Decidable c} (ha : CycleKept s a) (hb : CycleKept s b) :
    CycleKept s (if c then a else b) := by
  split
  · exact ha
  · exact hb

theorem CycleKept.foldl {α : Type} {f : State → α → State} (h : ∀ u a, CycleKept u (f u a)) (l : List α) (s : State) :
    CycleKept s (l.foldl f s) := by
  induction l generalizing s with
  | nil => exact .refl s
  | cons a l ih => exact (h s a).trans (ih _)

/-- What does not write the dobby's block. -/
theorem CycleKept.keeps {m : Nat} {s t : State} (k : Keeps m s t) (h : m.testBit (partBit .dob) = false) : CycleKept s t :=
  .of_dob (k.dob h)

theorem inboundFailed_cycle (s : State) (w reason addr : Nat) : CycleKept s (inboundFailed s w reason addr) := by
  unfold inboundFailed
  extract_lets t1 l t2 lvl
  have h1 : CycleKept s t1 := .of_dob (event_dob _ _ _ _)
  split
  · exact ⟨h1.inbound⟩
  · refine .ite ⟨?_⟩ ⟨h1.inbound⟩
    simp only [dobRaise, count_dob]
    exact h1.inbound

theorem answer_cycle (s : State) (src : Nat) (o : Origin) (q : Tlp) (c st : Nat) (ep : Bool) (data : List Byte) :
    CycleKept s (answer s src o q c st ep data) := .keeps (answer_keeps (mk := 7371648) (.refl s) (by decide)) (by decide)

theorem refuseTlp_cycle (s : State) (src : Nat) (o : Origin) (t : Tlp) (status : Nat) : CycleKept s (refuseTlp s src o t status) := by
  have logged : CycleKept s (if status = 1 then aerUnsupported s src (t.addr % 2 ^ 64 * 2 ^ 64) else s) :=
    .ite (.keeps (aerUnsupported_keeps (mk := 256) (.refl s) (by decide)) (by decide)) (.refl s)
  unfold refuseTlp
  refine .ite (.refl s) (.ite ?_ ?_)
  · exact (logged.trans (.ite (.of_dob (count_dob _ _ _)) (.refl _))).trans (answer_cycle ..)
  · split
    · exact answer_cycle ..
    · exact .ite (inboundFailed_cycle ..) (.refl s)

theorem deliverTlp_cycle (s : State) (d src : Nat) (o : Origin) (t : Tlp) : CycleKept s (deliverTlp s d src o t) := by
  unfold deliverTlp
  refine .ite (refuseTlp_cycle ..) ?_
  split
  · exact .of_dob (enqueueTlp_dob ..)
  · split
    · exact CycleKept.trans (.of_dob (denied_dob ..)) (refuseTlp_cycle ..)
    · exact .of_dob ((enqueueTlp_dob ..).trans (passed_dob ..))

theorem toPort_cycle (s : State) (p src : Nat) (o : Origin) (t : Tlp) : CycleKept s (toPort s p src o t) := by
  unfold toPort
  refine .ite (deliverTlp_cycle ..) (.ite ?_ (.ite (CycleKept.trans ?_ (refuseTlp_cycle ..)) (.refl s)))
  · exact .keeps (synthesize_keeps (mk := 7371648) (.refl s) (by decide)) (by decide)
  · exact .keeps (dropPosted_keeps (mk := 1048832) (.refl s) (by decide)) (by decide)

theorem toUpstream_cycle (s : State) (v src : Nat) (o : Origin) (t : Tlp) : CycleKept s (toUpstream s v src o t) := by
  unfold toUpstream
  split
  · exact toPort_cycle ..
  · split
    · exact .keeps (intoTunnel_keeps (mk := 7367552) (.refl s) (by decide)) (by decide)
    · exact refuseTlp_cycle ..

theorem ideRefused_cycle (s : State) (v src : Nat) (o : Origin) (t : Tlp) : CycleKept s (ideRefused s v src o t) :=
  CycleKept.trans (.of_dob (eventIn_dob ..)) (refuseTlp_cycle ..)

theorem toHop_cycle (s : State) (v src : Nat) (o : Origin) (t : Tlp) (h : Hop) : CycleKept s (toHop s v src o t h) := by
  cases h with
  | port p => exact toPort_cycle ..
  | up => exact toUpstream_cycle ..
  | none | blocked => exact refuseTlp_cycle ..
  | config f => exact .of_dob (enqueueTlp_dob ..)
  | mgmt f | vf i f | dobReg f => exact deliverTlp_cycle ..
  | aperture i f =>
    exact .ite (ideRefused_cycle ..) (.keeps (apertureAccess_keeps (mk := 7371648) (.refl s) (by decide)) (by decide))
  | dobOut f => exact .ite (ideRefused_cycle ..) (.ite (refuseTlp_cycle ..) (deliverTlp_cycle ..))
  | proxy e => exact .refl s

theorem ptmAsk_cycle (s : State) (v : Nat) : CycleKept s (ptmAsk s v) :=
  .ite (.refl s) (CycleKept.trans (.of_dob (setPart_dob ..)) (toUpstream_cycle ..))

theorem ptmIngress_cycle (s : State) (v p : Nat) (host : Bool) (t : Tlp) : CycleKept s (ptmIngress s v p host t) :=
  .ite ((toPort_cycle ..).trans (ptmAsk_cycle ..)) (.ite (.of_dob (setPart_dob ..))
    (.keeps (aerUnsupported_keeps (mk := 256) (.refl s) (by decide)) (by decide)))

theorem routeTlp_cycle (s : State) (v src : Nat) (host : Bool) (o : Origin) (t : Tlp) : CycleKept s (routeTlp s v src host o t) := by
  unfold routeTlp
  split
  · exact .keeps (mcastTlp_keeps (mk := 7365504) (.refl s) (by decide)) (by decide)
  · exact .ite (ptmIngress_cycle ..) (.ite (.foldl (fun u p => deliverTlp_cycle u p _ _ _) _ s) (toHop_cycle ..))

theorem inSend_cycle (s : State) (n : Nat) (write answered : Bool) (tag : Nat) (p : Nat × Nat × Nat) (data : List Byte) :
    CycleKept s (inSend s n write answered tag p data) :=
  .ite (.keeps (present_keeps (mk := 7367552) (.refl s) (by decide)) (by decide)) (routeTlp_cycle ..)

theorem inFence_cycle (s : State) (n number cid : Nat) (answered : Bool) : CycleKept s (inFence s n number cid answered) :=
  .keeps (inFence_keeps (mk := 7367552) (.refl s) (by decide)) (by decide)

/-- The master of a cycle that is answered waits for it. -/
theorem inAccess_waits (s : State) (n : Nat) (x : DobIn) (write : Bool) (a len : Nat) (data : List Byte) :
    (inAccess s n x write true a len data).dob.inbound.isSome = true := by
  unfold inAccess
  extract_lets w bs whole ps fence cid byte ks x' _ t1 t2 t3
  have h2 : CycleKept t1 t2 := .ite (inFence_cycle ..) (.refl _)
  have h3 : CycleKept t2 t3 := .foldl (fun u k => inSend_cycle ..) _ _
  have h4 : CycleKept t3 (if fence then inFence t3 n x.number cid true else t3) := .ite (inFence_cycle ..) (.refl _)
  rw [((h2.trans h3).trans h4).inbound]
  rfl

/-- Under that configuration no write is posted, so a cycle that starts is answered. -/
theorem inStart_waits {s : State} (h : s.cfg = spoolCfg) (x : DobIn) : (inStart s x).dob.inbound.isSome = true := by
  have hp (y : DobIn) : isPosted s y = false := by simp [isPosted, bit, inWin_shift h]
  unfold inStart inWrite inRead
  simp only [hp, Bool.false_eq_true, if_false]
  split
  · rfl
  · split
    · exact inAccess_waits ..
    · exact inAccess_waits ..

/-- Where no master waits at the end, the dobby had nothing to act on. -/
theorem dobbySettled_idle {s : State} (h : s.cfg = spoolCfg) (hn : (dobbySettled s).dob.inbound = none) : dobbySettled s = s := by
  have hd (x : DobIn) : drainInbuf (inStart s x).dob.inbuf.length (inStart s x) = inStart s x :=
    drainInbuf_none (((inStart_keeps (mk := allBut .cfg) (Keeps.refl s) (by decide)).cfg (by decide)).trans h) _
  unfold dobbySettled at *
  simp only [drainInbuf_none h, hd] at *
  split at hn
  · next x hx =>
    split at hn
    · exact absurd (inStart_waits h x) (by simp [hn])
    · next hw => exact if_neg hw
  · rfl

end Sys2Proof.Scope
end

section
/-!
The end of a step from a quiet state, and the refutation of O17.
-/

namespace Sys2Proof.Scope

open Sys2Proof.Machine Sys2Proof.Laws

-- One declaration at a time: side by side their threads are too much for the memory limit of the check.
set_option Elab.async false

/-! ### What the ingress of a partition has held (R352) -/

/-- The outline but for what ingresses hold. -/
def reloads (s : State) : Tbl Nat × ModState × List AdmittedVs × Option Nat × (Nat → Option Nat) :=
  (s.cfg, s.module.state, s.fab.imported, s.loom.freeMin, fun v => (partOf s v).reloading)

/-- With every partition off, and none imported, no TLP is taken. -/
theorem takeTlp_off {s : State} (hc : s.cfg = spoolCfg) (hi : s.fab.imported = []) (p : Nat) (t : Tlp) : takeTlp s p t = s := by
  have hx : exportOf s p = none := by simp [exportOf, hi]
  unfold takeTlp
  split
  · rw [hx]
  · next v hv =>
    have hlt : v < 32 := by
      unfold portPart at hv
      split at hv
      · next h => exact Option.some.inj hv ▸ h
      · exact absurd hv (by simp)
    rw [if_pos (by simp [vsState, partEnabled_off hc hlt])]

theorem ingressCredit_reloads (s : State) (p : Nat) (t : Tlp) (k : Nat) : reloads (ingressCredit s p t k) = reloads s := by
  unfold ingressCredit
  split
  · rfl
  · split
    · split <;> rfl
    · rfl

/-- What a partition's ingress holds has no part in its reload. -/
theorem setPart_reloads {s : State} {v : Nat} {x : Partition} (h : x.reloading = (partOf s v).reloading) :
    reloads (setPart s v x) = reloads s := by
  simp only [reloads, partOf_setPart_same Partition.reloading h]
  rfl

theorem tlpIngress_reloads {s : State} (hc : s.cfg = spoolCfg) (hi : s.fab.imported = []) (p : Nat) (t : Tlp) :
    reloads (tlpIngress p t s) = reloads s := by
  unfold tlpIngress
  simp only [takeTlp_off hc hi]
  split
  · rfl
  · split
    · split
      · exact setPart_reloads rfl
      · exact ingressCredit_reloads _ _ _ _
    · exact ingressCredit_reloads _ _ _ _

/-- A fold of what leaves these parts of such a state leaves them. -/
theorem foldl_reloads {α : Type} {f : State → α → State}
    (h : ∀ u a, u.cfg = spoolCfg → u.fab.imported = [] → reloads (f u a) = reloads u) (l : List α) {s : State}
    (hc : s.cfg = spoolCfg) (hi : s.fab.imported = []) : reloads (l.foldl f s) = reloads s := by
  induction l generalizing s with
  | nil => rfl
  | cons a l ih =>
    have ha := h s a hc hi
    simp only [reloads, Prod.mk.injEq] at ha
    obtain ⟨hac, -, hai, -⟩ := ha
    exact (ih (hac.trans hc) (hai.trans hi)).trans (h s a hc hi)

theorem heldTaken_reloads (s : State) (v : Nat) (hc : s.cfg = spoolCfg) (hi : s.fab.imported = []) :
    reloads (heldTaken s v) = reloads s := by
  unfold heldTaken
  split
  · rfl
  · refine (foldl_reloads (fun u (r : Nat × Tlp) hc hi => tlpIngress_reloads hc hi r.1 r.2) _ ?_ ?_).trans (setPart_reloads rfl)
    · exact hc
    · exact hi

/-- A partition that reloads takes nothing, nor does one whose ingress holds nothing. -/
theorem heldSettled_idle {s : State} (h : ∀ v, (partOf s v).reloading.isSome = true ∨ (partOf s v).held = []) : heldSettled s = s := by
  have hv (v : Nat) : heldTaken s v = s := by
    unfold heldTaken
    rcases h v with h | h <;> simp [h]
  unfold heldSettled
  induction List.range 32 with
  | nil => rfl
  | cons v l ih => rw [List.foldl_cons, hv, ih]

/-! ### The end of a step -/

/-- The end of a step up to what the ingresses have held. -/
def beforeHeld (s : State) : State := lateDropsSent (weftSettled s)

/-- The end of a step from there up to the dobby. -/
def afterHeld (s : State) : State := errorsSent (importsFollowed (engineSettled (tunnelSettled s)))

theorem settle_held (s : State) :
    settle s = health (denialsRecorded (dobbySettled (afterHeld (heldSettled (beforeHeld s))))) 0 := rfl

theorem beforeHeld_undisturbed (s : State) : Undisturbed s (beforeHeld s) :=
  (weftSettled_undisturbed s).trans (lateDropsSent_undisturbed _)

theorem afterHeld_undisturbed (s : State) : Undisturbed s (afterHeld s) :=
  (((tunnelSettled_undisturbed s).trans (engineSettled_undisturbed _)).trans (importsFollowed_undisturbed _)).trans
    (errorsSent_undisturbed _)

theorem health_fenced {s : State} {n : Nat} (h : (health s n).module.state = .fenced) : health s n = s := by
  unfold health at *
  split at h
  · next hs =>
    split at h
    · simp [changeState_state] at h
    · simp [hs] at h
  · next hs =>
    split at h
    · simp [hs] at h
    · simp [changeState_state] at h
  · rfl

theorem denialsRecorded_undisturbed (s : State) : Undisturbed s (denialsRecorded s) :=
  (Undisturbed.refl s).keeps (denialsRecorded_keeps (mk := 7364608) (.refl s) (by decide)) (by decide)

/-- At a quiet end with no master waiting, neither the dobby nor the module's health has acted. -/
theorem quietEnd_eq {s : State} (q : Quiet (health (denialsRecorded (dobbySettled s)) 0))
    (hd : (health (denialsRecorded (dobbySettled s)) 0).dob.inbound = none) :
    health (denialsRecorded (dobbySettled s)) 0 = denialsRecorded s := by
  have he := health_fenced q.state
  have kr := denialsRecorded_keeps (mk := 7364608) (.refl (dobbySettled s)) (by decide)
  have hc : (dobbySettled s).cfg = s.cfg := (dobbySettled_keeps (mk := 7502720) (.refl s) (by decide)).cfg (by decide)
  rw [he] at q hd ⊢
  rw [dobbySettled_idle (hc.symm.trans ((kr.cfg (by decide)).symm.trans q.cfg)) (by rw [← kr.dob (by decide), hd])]

/-- A quiet state that has taken what the ingresses held was quiet before, with the same reloads. -/
theorem quiet_of_heldSettled {s : State} (q : Quiet (heldSettled s)) : Quiet s ∧ reloads (heldSettled s) = reloads s := by
  have k := heldSettled_keeps (mk := 8059776) (.refl s) (by decide)
  have hr : reloads (heldSettled s) = reloads s := foldl_reloads heldTaken_reloads _ ((k.cfg (by decide)).symm.trans q.cfg)
    (by rw [← k.fab (by decide), q.imported])
  have h := hr
  simp only [reloads, Prod.mk.injEq] at h
  obtain ⟨hc, hm, hi, hl, -⟩ := h
  exact ⟨⟨hc ▸ q.cfg, hm ▸ q.state, hi ▸ q.imported, hl ▸ q.untouched⟩, hr⟩

theorem outline_part {s t : State} (h : outline t = outline s) (v : Nat) :
    (partOf t v).reloading = (partOf s v).reloading ∧ (partOf t v).held = (partOf s v).held := by
  simp only [outline, Prod.mk.injEq] at h
  obtain ⟨-, -, -, -, hg⟩ := h
  exact Prod.mk.inj (congrFun hg v)

theorem reloads_part {s t : State} (h : reloads t = reloads s) (v : Nat) : (partOf t v).reloading = (partOf s v).reloading := by
  simp only [reloads, Prod.mk.injEq] at h
  obtain ⟨-, -, -, -, hr⟩ := h
  exact congrFun hr v

/-- A step whose end is quiet, with no master waiting, has given no chain credits, if every partition reloads at the end or had an ingress
that held nothing when the end began. -/
theorem settle_charged {s : State} (q : Quiet (settle s)) (hd : (settle s).dob.inbound = none)
    (hh : ∀ v, (partOf (settle s) v).reloading.isSome = true ∨ (partOf s v).held = []) (hc : Charged (settle s)) : Charged s := by
  have he : settle s = denialsRecorded (afterHeld (heldSettled (beforeHeld s)))  := by
    rw [settle_held] at q hd ⊢
    exact quietEnd_eq q hd
  obtain ⟨ha, hca⟩ := ((afterHeld_undisturbed _).trans (denialsRecorded_undisturbed _)) (he ▸ q)
  obtain ⟨qb, hr⟩ := quiet_of_heldSettled (Quiet.congr (he ▸ q) ha)
  obtain ⟨hb, hcb⟩ := beforeHeld_undisturbed s qb
  have hidle : heldSettled (beforeHeld s) = beforeHeld s := by
    refine heldSettled_idle fun v => ?_
    obtain ⟨hreload, -⟩ := outline_part ha v
    obtain ⟨-, hheld⟩ := outline_part hb v
    rw [← reloads_part hr v, ← hreload, ← he, hheld]
    exact hh v
  rw [he] at hc
  exact hcb (hidle ▸ hca hc)

/-! ### The counterexample -/

/-- A chain that waits in the reservation of P0, in no queue. -/
def strayChain : Chain := { size := 1, account := .reserve 0, src := 0, refs := 1 }

/-- A module in FENCED under `spoolCfg`, with the link of P0 up and partition 1 in reset. Every other partition reloads. A chain has the
number that the next one is to be given. -/
def numberTaken : State where
  cfg := spoolCfg
  module := { state := .fenced }
  warp := {
    port := vset (Vector.replicate 128 {}) 0 { st := .active }
    part := vset (Vector.replicate 32 { reloading := some 0 }) 1 { resetSince := some 0 } }
  loom := { chains := [(0, strayChain)] }

def postedWrite : Tlp := { kind := .memWrite, addr := 0, len := 4, rid := 0, data := [0, 0, 0, 0] }

/-- The end of the step in which P0 takes a posted write. -/
def writeTaken : State := settle (tlpIngress 0 postedWrite numberTaken)

/-- P0 meets every premise of the clause on a partition in reset. -/
theorem numberTaken_resets : ∃ (p : Port) (v : Vs), p.val = 0 ∧ v.val = 1 ∧ isWarp numberTaken p = true ∧
    inService numberTaken = true ∧ (warpPort numberTaken p).st = .active ∧ portPart numberTaken p = some v ∧
    (partOf numberTaken v).reloading = none ∧ (partOf numberTaken v).resetSince ≠ none := by
  refine ⟨0, 1, ?_⟩
  decide +kernel

theorem writeTaken_values : writeTaken.cfg = spoolCfg ∧ writeTaken.module.state = .fenced ∧ writeTaken.fab.imported = [] ∧
    writeTaken.loom.freeMin = none ∧ writeTaken.dob.inbound = none ∧
    writeTaken.loom.chains.any (·.2.credit.isSome) = true ∧
    (∀ v : Fin 32, v.val ≠ 1 → (partOf writeTaken v).reloading.isSome = true) := by
  decide +kernel

theorem writeTaken_quiet : Quiet writeTaken := by
  obtain ⟨hc, hm, hi, hl, -⟩ := writeTaken_values
  exact ⟨hc, hm, hi, hl⟩

theorem writeTaken_charged : Charged writeTaken := by
  obtain ⟨-, -, -, -, -, hc, -⟩ := writeTaken_values
  obtain ⟨r, hr, hs⟩ := List.any_eq_true.mp hc
  exact ⟨r, hr, fun hn => by simp [hn] at hs⟩

/-- A state with the loom of `numberTaken` has no credits in it. -/
theorem numberTaken_uncharged {u : State} (h : u.loom = numberTaken.loom) : ¬ Charged u := by
  rintro ⟨r, hr, hc⟩
  rw [h] at hr
  rw [List.mem_singleton.mp hr] at hc
  exact hc rfl

/-- Partitions past the last are as they are at reset. -/
theorem partOf_past (s : State) {v : Nat} (h : ¬ v < 32) : partOf s v = {} := by simp [partOf, vget, h]

/-- Refutes O17, at its twelfth clause: the write is discarded, and the chain that has the next number comes to hold the credits of P0
(`ingressCredit`), so the loom does not stand. No other state with the loom as it was settles to the same end: that end shows no change of the
free bobbins, and all partitions but the one in reset, whose ingress held nothing, reload in it, so the step's end has given no chain
credits. -/
theorem not_partitionResets : ¬ Obligations.PartitionResets := by
  unfold Obligations.PartitionResets
  rintro ⟨-, -, -, -, -, -, -, -, -, -, -, h, -⟩
  obtain ⟨p, v, hp, hv, hw, hi, ha, hpart, hrel, hres⟩ := numberTaken_resets
  obtain ⟨u, hexec, hpt, hl, -⟩ := h p postedWrite v numberTaken hw hi ha hpart hrel hres
  have he : writeTaken = settle u := by
    rw [writeTaken, ← hp]
    exact Host.Outcome.next.inj hexec
  obtain ⟨-, -, -, -, hd, -, hreload⟩ := writeTaken_values
  refine numberTaken_uncharged hl (settle_charged (he ▸ writeTaken_quiet) (he ▸ hd) (fun w => ?_) (he ▸ writeTaken_charged))
  by_cases hlt : w < 32
  · by_cases h1 : w = 1
    · rw [h1, ← hv, hpt, hv]
      exact .inr rfl
    · rw [← he]
      exact .inl (hreload ⟨w, hlt⟩ h1)
  · rw [partOf_past u hlt]
    exact .inr rfl

end Sys2Proof.Scope
end

section
/-!
What each command of the loom, the fabric and the shuttle leaves as it is, for O53: the lists of parts that the statement names are the masks
of the lemmas of `Keeps`.
-/

namespace Sys2Proof.Scope

open Sys2Proof.Machine Sys2Proof.Laws

/-- Settles O53: each command keeps what the mask of its `Keeps` lemma keeps, and that is the list of its clause. -/
theorem framesLoomToShuttle : Obligations.FramesLoomToShuttle := by
  unfold Obligations.FramesLoomToShuttle
  exact ⟨fun _ _ _ => touchesOnly_of_keeps (execReadbackStart_keeps (.refl _) (by decide)),
    fun _ _ => spares_of_keeps (execReadbackDone_keeps (.refl _) (by decide)),
    fun _ _ => touchesOnly_of_keeps (execBeamStackFault_keeps (.refl _) (by decide)),
    fun _ => spares_of_keeps (execAgeSweep_keeps (.refl _) (by decide)),
    fun _ => touchesOnly_of_keeps (execSharedPoolExhausted_keeps (.refl _) (by decide)),
    fun _ _ => touchesOnly_of_keeps (execLinkProbeSend_keeps (.refl _) (by decide)),
    fun _ => touchesOnly_of_keeps (execLinkProbeReceive_keeps (.refl _) (by decide)),
    fun _ => touchesOnly_of_keeps (execBeaconSend_keeps (.refl _) (by decide)),
    fun _ => touchesOnly_of_keeps (execBeaconReceive_keeps (.refl _) (by decide)),
    fun _ => touchesOnly_of_keeps (execDirectedMsgForward_keeps (.refl _) (by decide)),
    fun _ => touchesOnly_of_keeps (execMasterDiscovery_keeps (.refl _) (by decide)),
    fun _ => touchesOnly_of_keeps (execNeighbours_keeps (.refl _) (by decide)),
    fun _ => touchesOnly_of_keeps (execAssignMid_keeps (.refl _) (by decide)),
    fun _ => touchesOnly_of_keeps (execRouteWrite_keeps (.refl _) (by decide)),
    fun _ => touchesOnly_of_keeps (execBankSwitch_keeps (.refl _) (by decide)),
    fun _ => spares_of_keeps (execBankSwitchTime_keeps (.refl _) (by decide)),
    fun _ => touchesOnly_of_keeps (execFabricCtlHeartbeatSend_keeps (.refl _) (by decide)),
    fun _ => touchesOnly_of_keeps (execFabricCtlHeartbeatReceive_keeps (.refl _) (by decide)),
    fun _ => touchesOnly_of_keeps (execAdmitPartition_keeps (.refl _) (by decide)),
    fun _ => touchesOnly_of_keeps (execFenceNotice_keeps (.refl _) (by decide)),
    fun _ => spares_of_keeps (execResyncBegin_keeps (.refl _) (by decide)),
    fun _ => touchesOnly_of_keeps (execResyncEnd_keeps (.refl _) (by decide)),
    fun _ => touchesOnly_of_keeps (execMemberReport_keeps (.refl _) (by decide)),
    fun _ => touchesOnly_of_keeps (execTableRecompute_keeps (.refl _) (by decide)),
    fun _ => touchesOnly_of_keeps (execAdmissionTimeout_keeps (.refl _) (by decide)),
    fun _ => touchesOnly_of_keeps (execBeaconSilence_keeps (.refl _) (by decide)),
    fun _ => spares_of_keeps (execHeartbeatSilence_keeps (.refl _) (by decide)),
    fun _ => touchesOnly_of_keeps (execLeaseRenew_keeps (.refl _) (by decide)),
    fun _ => touchesOnly_of_keeps (execLeaseResp_keeps (.refl _) (by decide)),
    fun _ => spares_of_keeps (execClaimResp_keeps (.refl _) (by decide)),
    fun _ => touchesOnly_of_keeps (execWitnessUnreachableFence_keeps (.refl _) (by decide)),
    fun _ => touchesOnly_of_keeps (execMemberFenceDeadline_keeps (.refl _) (by decide)),
    fun _ _ _ => spares_of_keeps (execMasterForce_keeps (.refl _) (by decide)),
    fun _ _ _ => touchesOnly_of_keeps (execFtSet_keeps (.refl _) (by decide)),
    fun _ => touchesOnly_of_keeps (execFtPpsInEdge_keeps (.refl _) (by decide)),
    fun _ => touchesOnly_of_keeps (execFtPpsOutPulse_keeps (.refl _) (by decide)),
    fun _ => spares_of_keeps (execOperationAccept_keeps (.refl _) (by decide)),
    fun _ => spares_of_keeps (execDeferredAccept_keeps (.refl _) (by decide)),
    fun _ _ => spares_of_keeps (execOperationFirstSend_keeps (.refl _) (by decide)),
    fun _ _ => spares_of_keeps (execRetransmitTimeout_keeps (.refl _) (by decide)),
    fun _ => spares_of_keeps (execOperationReceive_keeps (.refl _) (by decide)),
    fun _ _ => spares_of_keeps (execAckSend_keeps (.refl _) (by decide)),
    fun _ => spares_of_keeps (execAckReceive_keeps (.refl _) (by decide)),
    fun _ => spares_of_keeps (execNakReceive_keeps (.refl _) (by decide)),
    fun _ => spares_of_keeps (execConnReqOpen_keeps (.refl _) (by decide)),
    fun _ => spares_of_keeps (execConnReqClose_keeps (.refl _) (by decide)),
    fun _ => spares_of_keeps (execConnReqReset_keeps (.refl _) (by decide)),
    fun _ => spares_of_keeps (execConnReqRekey_keeps (.refl _) (by decide))⟩

end Sys2Proof.Scope
end

section
/-!
The refutation of O18, at the end of a spill write. The statement gives the beam that the command leaves as the old one with the item in it.
But the bobbins that come free can end the spill (R165), event 0x0401 can complete a line of the installer ring, and that ring can lie in the
beam's spool area (R520): then the beam has the line as well. The item goes to the spill region, above the spool area (R162), so the place of
the line tells the two beams apart wherever the model puts the item. What the beam holds is encrypted (R163), and of the line one block is
computed.
-/

namespace Sys2Proof.Scope

open Sys2Proof.Machine Sys2Proof.Laws

/-! ### What a unit of the beam holds -/

theorem beamPut_of_key {s : State} {k : List Byte} (hk : s.vault.beamKey = some k) (u : Nat) (plain : List Byte) :
    (beamPut s u plain).beam = Memory.writeBytes s.beam (256 * u) (xtsSeal k u (fitBytes 256 plain)) := by
  simp [beamPut, hk]

/-- A unit written changes the beam, from the unit on. -/
theorem beamPut_above (s : State) (u : Nat) (plain : List Byte) :
    ∃ b, beamPut s u plain = { s with beam := b } ∧ ∀ x < 256 * u, Memory.read b x = Memory.read s.beam x := by
  unfold beamPut
  split
  · refine ⟨_, rfl, fun x hx => ?_⟩
    rw [Memory.read_writeBytes, if_neg (by omega)]
  · exact ⟨s.beam, rfl, fun _ _ => rfl⟩

/-- Bytes stored in units from `n` on change the beam, from unit `n` on. -/
theorem beamStore_above (s : State) {units : List Nat} {n : Nat} (bs : List Byte) (hu : ∀ u ∈ units, n ≤ u) :
    ∃ b, beamStore s units bs = { s with beam := b } ∧ ∀ x < 256 * n, Memory.read b x = Memory.read s.beam x := by
  have hfold (l : List (Nat × Nat)) (hl : ∀ q ∈ l, n ≤ q.1) (s : State) :
      ∃ b, l.foldl (fun s u => beamPut s u.1 ((bs.drop (256 * u.2)).take 256)) s = { s with beam := b } ∧
        ∀ x < 256 * n, Memory.read b x = Memory.read s.beam x := by
    induction l generalizing s with
    | nil => exact ⟨s.beam, rfl, fun _ _ => rfl⟩
    | cons q l ih =>
      have hq := hl q List.mem_cons_self
      obtain ⟨b, hb, hxb⟩ := beamPut_above s q.1 ((bs.drop (256 * q.2)).take 256)
      obtain ⟨c, hc, hxc⟩ := ih (fun r hr => hl r (List.mem_cons_of_mem _ hr)) { s with beam := b }
      exact ⟨c, by rw [List.foldl_cons, hb, hc], fun x hx => (hxc x hx).trans (hxb x (by omega))⟩
  exact hfold _ (fun q hq => hu q.1 (List.of_mem_zip hq).1) s

/-- The spill region begins above the bolt region and the table shadow (R162). -/
theorem spillUnit_ge (s : State) (k : Nat) : 768 * 4096 ≤ spillUnit s k := by
  simp only [spillUnit, Nat.add_assoc]
  exact Nat.le_add_right _ _

/-- Bytes that lie within one unit are written with it. -/
theorem beamWrite_unit {s : State} {a : Nat} {bs : List Byte} (h0 : bs ≠ []) (hb : a % 256 + bs.length ≤ 256) :
    beamWrite s a bs = beamPut s (a / 256) (overUnit (a / 256) a bs (beamUnit s (a / 256))) := by
  have hn : 0 < bs.length := List.length_pos_iff.mpr h0
  have hc : ceilDiv (a % 256 + bs.length) 256 = 1 := by
    unfold ceilDiv
    omega
  simp [beamWrite, hc]

/-- A unit that bytes are laid over from its start begins with them. -/
theorem take_overUnit {u n : Nat} {bs : List Byte} (plain : List Byte) (hn : n ≤ bs.length) (hb : bs.length ≤ 256) :
    (overUnit u (256 * u) bs plain).take n = bs.take n := by
  refine List.ext_getElem ?_ fun j hj _ => ?_
  · simp only [overUnit, List.length_take, List.length_map, List.length_range]
    omega
  · have hjn : j < n := by
      simp only [List.length_take] at hj
      omega
    simp [overUnit, show j < bs.length by omega]

/-! ### The first block of a sealed unit -/

@[simp] theorem length_leBytes (n x : Nat) : (leBytes n x).length = n := by
  induction n generalizing x with
  | zero => rfl
  | succ n ih => simp [leBytes, ih]

@[simp] theorem length_fitBytes (n : Nat) (bs : List Byte) : (fitBytes n bs).length = n := by
  simp only [fitBytes, List.length_take, List.length_append, List.length_replicate]
  omega

/-- Bytes filled up to a length begin as they were. -/
theorem take_fitBytes {m n : Nat} {bs : List Byte} (hmn : m ≤ n) (hm : m ≤ bs.length) : (fitBytes n bs).take m = bs.take m := by
  rw [fitBytes, List.take_take, Nat.min_eq_left hmn, List.take_append_of_le_length hm]

/-- A unit is sealed block by block, and its first block by itself. -/
theorem xtsSeal_first (key : List Byte) (unit : Nat) {bs : List Byte} (h : 16 ≤ bs.length) :
    ∃ rest, xtsSeal key unit bs = xtsSeal key unit (bs.take 16) ++ rest := by
  obtain ⟨n, hn⟩ := Nat.exists_eq_succ_of_ne_zero (show ceilDiv bs.length 16 ≠ 0 by unfold ceilDiv; omega)
  have h1 : ceilDiv (bs.take 16).length 16 = 1 := by
    rw [List.length_take_of_le h]
    rfl
  refine ⟨xtsBlocks (aesBlock (aesKeys (key.take 32))) n (xtsNext (xtsTweak key unit)) (bs.drop 16), ?_⟩
  simp only [xtsSeal, hn, h1, xtsBlocks, List.take_take, Nat.min_self, List.append_nil]

/-- The first byte that the beam then holds of bytes written from a unit's start on. -/
theorem beamWrite_read_first {s : State} {k bs : List Byte} {u : Nat} {b : Byte} (hk : s.vault.beamKey = some k) (hl : 16 ≤ bs.length)
    (hb : bs.length ≤ 256) (hs : (xtsSeal k u (bs.take 16)).head? = some b) :
    Memory.read (beamWrite s (256 * u) bs).beam (256 * u) = b := by
  have hu : 256 * u / 256 = u := by omega
  rw [beamWrite_unit (List.ne_nil_of_length_pos (by omega)) (by omega), hu, beamPut_of_key hk]
  set plain := fitBytes 256 (overUnit u (256 * u) bs (beamUnit s u)) with hp
  have hov : (overUnit u (256 * u) bs (beamUnit s u)).length = 256 := by simp [overUnit]
  have ht : plain.take 16 = bs.take 16 := by rw [hp, take_fitBytes (by decide) (by omega), take_overUnit _ hl hb]
  obtain ⟨rest, hrest⟩ := xtsSeal_first k u (bs := plain) (by simp [hp])
  obtain ⟨tl, htl⟩ := List.head?_eq_some_iff.mp hs
  rw [hrest, ht, htl, Memory.read_writeBytes]
  simp

/-! ### The record that completes a line (R520 to R522) -/

/-- The installer ring lies in the beam, takes records with no losses to report, and writes a line at the next. -/
structure LineDue (s : State) : Prop where
  takes : ringDrops s 32 = false
  place : ringPlace s 32 = none
  two : (ringGet s 32).held.length = 2
  room : unreleased (ringGet s 32) < 2 ^ cfgv s 0x7103 33
  noDrops : (ringGet s 32).drops = 0
  noOvers : (ringGet s 32).overs = 0

/-- The beam address of the installer ring's next line. -/
def lineAddr (s : State) : Nat := 0x0C000000 + (cfgv s 0x7102 33 + 64 * ((ringGet s 32).head % 2 ^ cfgv s 0x7103 33))

@[simp] theorem ringGet_ringSet (s : State) (x : RingState) : ringGet (ringSet s 32 x) 32 = x := vget_vset_same _ _ _ _ (by decide)

/-- A ring in the beam with room writes its line there, and loses nothing. -/
theorem writeLine_beam {s : State} (hn : (ringGet s 32).held ≠ []) (hp : ringPlace s 32 = none)
    (hr : unreleased (ringGet s 32) < 2 ^ cfgv s 0x7103 33) : ∃ x, x.drops = (ringGet s 32).drops ∧ x.overs = (ringGet s 32).overs ∧
      writeLine s 32 false = beamWrite (ringSet s 32 x) (lineAddr s) (lineBytes (ringGet s 32).held (ringGet s 32).head false) := by
  have he : (ringGet s 32).held.isEmpty = false := by simpa using hn
  have hw (x : RingState) : ringPlace (ringSet s 32 x) 32 = none := hp
  simp only [writeLine, he, Bool.false_eq_true, ite_false, hw, signalLine, le_refl, ite_true]
  refine ⟨_, ?_, ?_, rfl⟩
  · rfl
  · exact if_neg (Nat.not_le.mpr hr)

/-- The installer ring with a record put into it, and the history that notes it. -/
def withRecord (s : State) (e : EventRec) (since : Nat) (history : List EventRec) : State :=
  let x := ringGet s 32
  let s := ringSet s 32 { x with held := x.held ++ [e], lostPending := false, heldSince := since }
  { s with obs := { s.obs with history := history } }

theorem ringGet_withRecord (s : State) (e : EventRec) (since : Nat) (history : List EventRec) :
    ringGet (withRecord s e since history) 32 =
      { ringGet s 32 with held := (ringGet s 32).held ++ [e], lostPending := false, heldSince := since } :=
  vget_vset_same _ _ _ _ (by decide)

/-- A record that the installer ring takes is held, and the third one held is written with the others. -/
theorem ringPut_takes {s : State} (ht : ringDrops s 32 = false) (e : EventRec) : ∃ e' n history, ringPut s 32 e =
    if 3 ≤ (ringGet (withRecord s e' n history) 32).held.length then writeLine (withRecord s e' n history) 32 false
    else withRecord s e' n history := by
  unfold ringPut
  dsimp only
  rw [if_neg (by simp [ht])]
  exact ⟨_, _, _, rfl⟩

/-- The record that completes a line of a ring in the beam: the line is written there, and no loss is left to report. -/
theorem ringPut_line {s : State} (h : LineDue s) (e : EventRec) : ∃ t x e', t.vault = s.vault ∧ x.drops = 0 ∧ x.overs = 0 ∧
    ringPut s 32 e = beamWrite (ringSet t 32 x) (lineAddr s) (lineBytes ((ringGet s 32).held ++ [e']) (ringGet s 32).head false) := by
  obtain ⟨ht, hp, h2, hr, hd, ho⟩ := h
  obtain ⟨e', n, history, he⟩ := ringPut_takes ht e
  have hg := ringGet_withRecord s e' n history
  rw [if_pos (by simp [hg, h2])] at he
  obtain ⟨x, hxd, hxo, hx⟩ := writeLine_beam (s := withRecord s e' n history) (by simp [hg]) hp (by rw [hg]; exact hr)
  refine ⟨withRecord s e' n history, x, e', rfl, ?_, ?_, ?_⟩
  · rw [hxd, hg]
    exact hd
  · rw [hxo, hg]
    exact ho
  · rw [he, hx, lineAddr, hg]
    rfl

theorem reportLoss_none {s : State} {ow : Bool} (hd : (ringGet s 32).drops = 0) (ho : (ringGet s 32).overs = 0) :
    reportLoss s 32 ow = s := by
  cases ow <;> simp [reportLoss, hd, ho]

/-- An event of a live module that completes a line. -/
theorem event_line {s : State} (hs : s.module.state = .service) (hv : s.obs.live = true) (h : LineDue s) (code inst info : Nat) :
    ∃ t e', t.vault = s.vault ∧
      event s code inst info = beamWrite t (lineAddr s) (lineBytes ((ringGet s 32).held ++ [e']) (ringGet s 32).head false) := by
  have hsup : supervisorOnly s = false := by simp [supervisorOnly, hs]
  simp only [event, eventFull, hs, putEvent, hsup, hv, Bool.false_eq_true, ite_false, Bool.not_true, Option.getD_none]
  generalize EventRec.mk .. = e
  obtain ⟨t, x, e', ht, hd, ho, hx⟩ := ringPut_line h e
  have hg : ringGet (ringPut s 32 e) 32 = x := by
    rw [hx]
    unfold ringGet
    rw [beamWrite_obs]
    exact ringGet_ringSet t x
  have hl (ow : Bool) : reportLoss (ringPut s 32 e) 32 ow = ringPut s 32 e := reportLoss_none (by rw [hg, hd]) (by rw [hg, ho])
  exact ⟨ringSet t 32 x, e', ht, by rw [hl, hl, hx]⟩

/-- The line's first byte, where it begins a unit: the cipher of the oldest record's first block. The beam and the loom may have changed
since the line fell due. -/
theorem event_read_first {s : State} {k : List Byte} {u : Nat} {r : EventRec} {c : Byte} (hs : s.module.state = .service)
    (hv : s.obs.live = true) (h : LineDue s) (ha : lineAddr s = 256 * u) (hr : (ringGet s 32).held.head? = some r)
    (hk : s.vault.beamKey = some k) (hc : (xtsSeal k u (r.bytes.take 16)).head? = some c) (b : Memory) (x : LoomBlk)
    (code inst info : Nat) : Memory.read (event { s with beam := b, loom := x } code inst info).beam (256 * u) = c := by
  have hline : LineDue { s with beam := b, loom := x } := ⟨h.takes, h.place, h.two, h.room, h.noDrops, h.noOvers⟩
  obtain ⟨t, e, ht, he⟩ := event_line (s := { s with beam := b, loom := x }) hs hv hline code inst info
  obtain ⟨rs, hrs⟩ := List.head?_eq_some_iff.mp hr
  have hl : r.bytes.length = 20 := by simp [EventRec.bytes]
  have hlen : 16 ≤ (((ringGet s 32).held ++ [e]).flatMap EventRec.bytes).length := by
    simp only [hrs, List.cons_append, List.flatMap_cons, List.length_append, hl]
    omega
  have h16 : (lineBytes ((ringGet s 32).held ++ [e]) (ringGet s 32).head false).take 16 = r.bytes.take 16 := by
    rw [lineBytes, List.take_append_of_le_length (by simp), take_fitBytes (by decide) hlen, hrs, List.cons_append,
      List.flatMap_cons, List.take_append_of_le_length (by omega)]
  rw [he, show lineAddr { s with beam := b, loom := x } = 256 * u from ha]
  exact beamWrite_read_first (ht ▸ hk) (by simp [lineBytes]) (by simp [lineBytes]) (h16 ▸ hc)

/-! ### A spill write that ends the spill (R165, R166) -/

/-- Bobbins that come free above SPILL_OFF_FREE end the spill with event 0x0401. -/
theorem poolChanged_endsSpill {s : State} (hs : s.loom.spillActive = true) (he : s.loom.exhausted = false)
    (hf : cfgv s 0x4020 3 < sharedFree s) : ∃ x, poolChanged s = event { s with loom := x } 0x0401 0 (at_ 16 (sharedFree s)) := by
  unfold poolChanged
  extract_lets f m o1 t1 waits o2 t2 o3 t3 o4
  have ht3 : t3 = event { t2 with loom := { o3 with spillActive := false } } 0x0401 0 (at_ 16 f) := by
    have ha : t2.loom.spillActive = true := hs
    have hon : decide (cfgv t2 0x4020 3 < f) = true := decide_eq_true hf
    exact (if_neg (by simp [ha])).trans (if_pos (by rw [ha, hon]; rfl))
  have hx : t3.loom.exhausted = false := by
    rw [ht3, event_loom]
    exact he
  exact ⟨{ o3 with spillActive := false }, by rw [if_neg (by simp [hx]), ht3]⟩

/-- The last reference to a chain without credits frees its bobbins. -/
theorem dropRef_last {s : State} {id : Nat} {c : Chain} (hc : chainOf s id = some c) (hr : c.refs ≤ 1) (hn : c.credit = none) :
    dropRef s id = poolChanged { s with loom := { s.loom with chains := Tbl.erase s.loom.chains id } } := by
  simp only [dropRef, freeChain, hc, if_pos hr, returnCredit, hn]

/-- A spill write done frees the bobbins of its item, where the queue alone has held them; and the spill ends where that many are above
SPILL_OFF_FREE. -/
theorem spillWriteDone_endsSpill {s : State} {d : Nat} {i : LoomItem} {c : Chain} {b : Memory} (ho : oldestSpill s = some (d, i))
    (hb : beamStore s ((Tbl.get s.loom.spillAt i.id []).map (spillUnit s)) (cargoBytes i.cargo) = { s with beam := b })
    (hc : chainOf s i.chain = some c) (hr : c.refs ≤ 1) (hn : c.credit = none) (ha : s.loom.spillActive = true)
    (he : s.loom.exhausted = false)
    (hf : cfgv s 0x4020 3 < sharedFree { s with loom := { s.loom with chains := Tbl.erase s.loom.chains i.chain } }) :
    ∃ x n, spillWriteDone s = event { s with beam := b, loom := x } 0x0401 0 n := by
  simp only [spillWriteDone, ho, hb]
  have hq (q : List LoomItem) : chainOf (setQueue { s with beam := b } d q) i.chain = some c := hc
  rw [withItem, dropRef_last (hq _) hr hn]
  obtain ⟨x, hx⟩ := poolChanged_endsSpill (s := { setQueue { s with beam := b } d _ with
    loom := { s.loom with queue := vset s.loom.queue d _, chains := Tbl.erase s.loom.chains i.chain } }) ha he hf
  exact ⟨x, _, hx⟩

/-! ### The counterexample -/

/-- A key of the beam. -/
def spoolKey : List Byte := leBytes 64 1

/-- The record of the ring's restart, the oldest one held. -/
def restartRecord : EventRec := { code := 0x0B42, info := 33 }

/-- An operation on its way to the spill region, and the chain that still holds it. -/
def lastSpill : LoomItem :=
  { id := 5, chain := 7, src := 129, tc := 2, kind := 0, bytes := 16, place := .spilling, cargo := .oper { env := 0, body := [], tag := [] } }
def lastSpillChain : Chain := { size := 1, account := .shared 129, src := 129, refs := 1 }

/-- The spill write of the only item is under way, the free bobbins are at SPILL_OFF_FREE, and the installer ring lies in the beam and holds
two records. -/
def spillEnding : State :=
  { module := { state := .service }
    cfg := [(key 0x3001 1, 1), (key 0x3003 1, 2), (key 0x4020 3, 187391), (key 0x7101 33, 1)]
    loom := { spillActive := true, spillAt := [(5, [0])], chains := [(7, lastSpillChain)]
              queue := vset (Vector.replicate 130 []) 0 [lastSpill] }
    vault := { beamKey := some spoolKey }
    obs := { live := true
             rings := vset (Vector.replicate 33 {}) 32
               { armed := true, released := 0xFFFFFF, held := [restartRecord, { code := 0x0400 }] } } }

theorem spillEnding_line : LineDue spillEnding ∧ lineAddr spillEnding = 256 * 786432 := by
  refine ⟨?_, by decide +kernel⟩
  constructor <;> decide +kernel

/-- Until the item's bobbin comes free the spill goes on. -/
theorem spillEnding_free : sharedFree spillEnding = cfgv spillEnding 0x4020 3 ∧ cfgv spillEnding 0x4020 3 <
    sharedFree { spillEnding with loom := { spillEnding.loom with chains := Tbl.erase spillEnding.loom.chains 7 } } := by
  decide +kernel

theorem spillEnding_oldest : oldestSpill spillEnding = some (0, lastSpill) ∧ chainOf spillEnding 7 = some lastSpillChain := by
  decide +kernel

/-- The first byte of the cipher of the line's first block. -/
theorem restartRecord_sealed : (xtsSeal spoolKey 786432 (restartRecord.bytes.take 16)).head? = some 75 := by decide +kernel

/-- Refutes O18, at its fourth clause: the beam that SPILL_WRITE_DONE leaves in `spillEnding` holds a line of the installer ring besides the
item, and its first byte is 75, where the beam of the statement has 0. -/
theorem not_loomMemory : ¬ Obligations.LoomMemory := by
  unfold Obligations.LoomMemory
  rintro ⟨-, -, -, h, -⟩
  obtain ⟨ho, hc⟩ := spillEnding_oldest
  obtain ⟨-, hfree⟩ := spillEnding_free
  obtain ⟨t, ht, -, -, hbeam, -⟩ := h 0 lastSpill lastSpillChain spillEnding ho hc (by decide)
  obtain rfl : spillWriteDone spillEnding = t := Host.Outcome.next.inj ht
  obtain ⟨b, hb, hbelow⟩ := beamStore_above spillEnding (n := 768 * 4096)
    (units := (Tbl.get spillEnding.loom.spillAt lastSpill.id []).map (spillUnit spillEnding)) (cargoBytes lastSpill.cargo)
    (fun u hu => by obtain ⟨k, -, rfl⟩ := List.mem_map.mp hu; exact spillUnit_ge _ k)
  obtain ⟨x, n, hx⟩ := spillWriteDone_endsSpill ho hb hc (by decide) rfl rfl rfl hfree
  obtain ⟨hline, haddr⟩ := spillEnding_line
  have hread := event_read_first rfl rfl hline haddr rfl rfl restartRecord_sealed b x 0x0401 0 n
  rw [← hx, hbeam, hb, hbelow _ (by decide)] at hread
  exact absurd hread (by decide)

end Sys2Proof.Scope
end

section
/-!
Runs (R214, R463; log entries 1, 2 and 15): a command completes in every state, and only a step on an empty queue moves the clock.
-/

namespace Sys2Proof.Scope

open Sys2Proof.Machine Sys2Proof.Laws

theorem step_of_queued {s : State} {c : Instr} {cs : List Instr} (h : s.pending = c :: cs) :
    step s = exec c { s with pending := cs } := by
  unfold step
  rw [h]

/-- Every state has a next one. -/
theorem step_next (s : State) : ∃ t, StepsTo s t := by
  cases h : s.pending with
  | nil => exact ⟨tick s, step_of_empty h⟩
  | cons c cs =>
    obtain ⟨t, ht, _⟩ := exec_keeps c { s with pending := cs }
    exact ⟨t, (step_of_queued h).trans ht⟩

theorem runs (n : Nat) (s : State) : Runs n s := by
  induction n generalizing s with
  | zero => trivial
  | succ n ih =>
    obtain ⟨t, ht⟩ := step_next s
    exact ⟨t, ht, ih t⟩

/-- A step that takes a command passes no time, and leaves the rest of the queue. -/
theorem stepsTo_of_queued {s t : State} (h : StepsTo s t) (hp : s.pending ≠ []) : t.now = s.now ∧ t.pending = s.pending.tail := by
  obtain ⟨c, cs, hc⟩ := List.exists_cons_of_ne_nil hp
  obtain ⟨u, hu, k⟩ := exec_keeps c { s with pending := cs }
  cases ((step_of_queued hc).trans hu).symm.trans h
  exact ⟨k.now, by rw [k.pending, hc]; rfl⟩

/-- On an empty queue a step is a nanosecond, in which nothing is sent. -/
theorem stepsTo_of_empty {s t : State} (h : StepsTo s t) (hp : s.pending = []) : t.now = s.now + 1 ∧ t.tx = s.tx := by
  cases (step_of_empty hp).symm.trans h
  exact ⟨rfl, rfl⟩

/-- Settles O51: what every function of the model keeps, every command keeps, and a run is such commands and nanoseconds. -/
theorem commandsKeepQueueAndClock : Obligations.CommandsKeepQueueAndClock := by
  unfold Obligations.CommandsKeepQueueAndClock
  refine ⟨fun c s => ?_, runs, fun _ _ h => ⟨stepsTo_of_queued h, stepsTo_of_empty h⟩⟩
  obtain ⟨t, ht, k⟩ := exec_keeps c s
  exact ⟨t, ht, k.pending, k.now, k.tx, k.drawn, k.freeDraws⟩

end Sys2Proof.Scope
end

section
/-!
The witness (R220, R478 to R480): what LEASE, CLAIM and their timers leave of the leases and the pending claims. An answer is a message on the
bus, which of the management block moves the bus count alone.
-/

namespace Sys2Proof.Scope

open Sys2Proof.Machine Sys2Proof.Laws

/-! ### Answers -/

/-- The management block but for its bus count. -/
def uncounted (s : State) : MgmtBlk := { s.mgmt with busCount := 0 }

theorem busSend_mgmt (s : State) (typ tagId dst : Nat) (body : List Byte) :
    (busSend s typ tagId dst body).mgmt = { s.mgmt with busCount := (s.mgmt.busCount + 1) % 2 ^ 32 } :=
  (harmirSend_keeps (mk := 1048576) (Keeps.refl _) (by decide)).mgmt (by decide)

theorem claimAnswer_uncounted (s : State) (c : PendingClaim) (status term : Nat) :
    uncounted (claimAnswer s c status term) = uncounted s := by
  simp [uncounted, claimAnswer, busSend_mgmt]

theorem leaseAnswer_uncounted (s : State) (m : Msg) (status holder term left : Nat) :
    uncounted (leaseAnswer s m status holder term left) = uncounted s := by
  simp [uncounted, leaseAnswer, busSend_mgmt]

theorem claimAnswers_uncounted (cs : List PendingClaim) (s : State) (status term : Nat) :
    uncounted (cs.foldl (fun s d => claimAnswer s d status term) s) = uncounted s :=
  foldl_stands (g := uncounted) (fun u c => claimAnswer_uncounted u c status term) cs s

theorem leases_of_uncounted {s t : State} (h : uncounted t = uncounted s) : t.mgmt.leases = s.mgmt.leases := by
  have e : (uncounted t).leases = (uncounted s).leases := by rw [h]
  exact e

theorem claims_of_uncounted {s t : State} (h : uncounted t = uncounted s) : t.mgmt.claims = s.mgmt.claims := by
  have e : (uncounted t).claims = (uncounted s).claims := by rw [h]
  exact e

/-! ### Leases -/

theorem findLease_congr {s t : State} (h : t.mgmt.leases = s.mgmt.leases) (kind ident : Nat) : findLease t kind ident = findLease s kind ident := by
  simp only [findLease, h]

/-- The lease just recorded is the one of its identity. -/
theorem findLease_putLease (s : State) (x : Lease) : findLease (putLease s x) x.kind x.ident = some x := by
  simp only [findLease, putLease, setMgmt]
  generalize s.mgmt.leases = ls
  induction ls with
  | nil => simp
  | cons y ls ih =>
    by_cases hy : y.kind = x.kind ∧ y.ident = x.ident
    · simp [hy]
    · have hn : (decide (y.kind = x.kind) && decide (y.ident = x.ident)) = false := by simpa using hy
      simp only [List.any_cons, hn, Bool.false_or]
      split at ih
      · next ha => simp only [ha, if_true, List.map_cons, hn, Bool.false_eq_true, if_false, List.find?_cons]; simpa using ih
      · next ha => simp only [ha, if_false, Bool.false_eq_true, List.cons_append, List.find?_cons, hn]; simpa using ih

/-- A lease is recorded in the place of the one that had its identity. -/
theorem putLease_slot {s : State} {k : Nat} {x y : Lease} (h : s.mgmt.leases[k]? = some x) (hk : x.kind = y.kind) (hi : x.ident = y.ident) :
    (putLease s y).mgmt.leases[k]? = some y := by
  have ha : (s.mgmt.leases.any fun z => z.kind = y.kind && z.ident = y.ident) = true :=
    List.any_eq_true.mpr ⟨x, List.mem_of_getElem? h, by simp [hk, hi]⟩
  simp [putLease, setMgmt, ha, h, hk, hi]

/-- A claim that is granted makes its claimant the holder, under the next term. -/
def grantedLease (s : State) (c : PendingClaim) : Lease :=
  { kind := c.kind, ident := c.ident, holder := c.claimant
    term := (max (((findLease s c.kind c.ident).map Lease.term).getD 0) c.term + 1) % 2 ^ 32, since := s.now, live := true }

theorem grantClaim_uncounted (s : State) (c : PendingClaim) : uncounted (grantClaim s c) =
    { uncounted (putLease s (grantedLease s c)) with claims := s.mgmt.claims.filter fun d => !(d.kind = c.kind && d.ident = c.ident) } := by
  unfold grantClaim grantedLease
  rw [claimAnswers_uncounted, claimAnswer_uncounted]
  cases findLease s c.kind c.ident <;> rfl

theorem grantClaim_findLease (s : State) (c : PendingClaim) : findLease (grantClaim s c) c.kind c.ident = some (grantedLease s c) := by
  have h : (uncounted (grantClaim s c)).leases = (putLease s (grantedLease s c)).mgmt.leases := by rw [grantClaim_uncounted]; rfl
  exact (findLease_congr h c.kind c.ident).trans (findLease_putLease s (grantedLease s c))

theorem grantClaim_witnessOpen (s : State) (c : PendingClaim) : (grantClaim s c).mgmt.witnessOpen = s.mgmt.witnessOpen := by
  have h : (uncounted (grantClaim s c)).witnessOpen = s.mgmt.witnessOpen := by rw [grantClaim_uncounted]; rfl
  exact h

theorem refuseClaims_leases (s : State) (kind ident term : Nat) : (refuseClaims s kind ident term).mgmt.leases = s.mgmt.leases :=
  (leases_of_uncounted (claimAnswers_uncounted ..)).trans rfl

/-! ### LEASE and LEASE_EXPIRY (R478) -/

/-- The state in which the witness has taken a message from the inbox. -/
def taken (s : State) (m : Msg) : State := setMgmt s { s.mgmt with inbox := s.mgmt.inbox.erase m }

theorem nextMsg_of_first {s : State} {typ : Nat} {m : Msg} (h : firstOf typ [] s.mgmt.inbox = some m) :
    nextMsg s typ = some (taken s m, m) := by
  simp only [nextMsg, h, taken]

/-- The lease that a LEASE message asks for. -/
def askedLease (s : State) (m : Msg) : Lease :=
  { kind := leAt m.body 4 1, ident := leAt m.body 5 4, holder := leAt m.body 9 2, term := leAt m.body 11 4, since := s.now, live := true }

section
variable {s : State} {m : Msg} (hw : witnesses s = true) (hm : firstOf 0x0D [] s.mgmt.inbox = some m)
include hw hm

theorem lease_new (hf : findLease s (leAt m.body 4 1) (leAt m.body 5 4) = none) (hl : s.mgmt.leases.length < 16) :
    findLease (lease s) (leAt m.body 4 1) (leAt m.body 5 4) = some (askedLease s m) := by
  have hf' : findLease (taken s m) (leAt m.body 4 1) (leAt m.body 5 4) = none := hf
  have hl' : ¬ 16 ≤ (taken s m).mgmt.leases.length := by simpa [taken, setMgmt] using hl
  have he : lease s = leaseAnswer (event (putLease (taken s m) (askedLease s m)) 0x0B07 0 (leAt m.body 9 2 % 1024 + at_ 32 (leAt m.body 5 4)))
      m 0 (leAt m.body 9 2) (leAt m.body 11 4) 20000 := by
    simp only [lease, hw, nextMsg_of_first hm, hf', if_neg hl', Bool.not_true, Bool.false_eq_true, if_false]
    rfl
  rw [he, findLease_congr ((leases_of_uncounted (leaseAnswer_uncounted ..)).trans (congrArg MgmtBlk.leases (event_mgmt ..)))]
  exact findLease_putLease _ (askedLease s m)

theorem lease_renewed {x : Lease} (hf : findLease s (leAt m.body 4 1) (leAt m.body 5 4) = some x) (ht : x.term ≤ leAt m.body 11 4)
    (hh : x.holder = leAt m.body 9 2) : findLease (lease s) (leAt m.body 4 1) (leAt m.body 5 4) = some (askedLease s m) := by
  have hf' : findLease (taken s m) (leAt m.body 4 1) (leAt m.body 5 4) = some x := hf
  have he : lease s = refuseClaims (leaseAnswer (putLease (taken s m) (askedLease s m)) m 0 (leAt m.body 9 2) (leAt m.body 11 4) 20000)
      (leAt m.body 4 1) (leAt m.body 5 4) (leAt m.body 11 4) := by
    simp only [lease, hw, nextMsg_of_first hm, hf', if_neg (Nat.not_lt.mpr ht), if_pos hh, Bool.not_true, Bool.false_eq_true, if_false]
    rfl
  rw [he, findLease_congr (refuseClaims_leases ..), findLease_congr (leases_of_uncounted (leaseAnswer_uncounted ..))]
  exact findLease_putLease _ (askedLease s m)

theorem lease_refused {x : Lease} (hf : findLease s (leAt m.body 4 1) (leAt m.body 5 4) = some x)
    (h : leAt m.body 11 4 < x.term ∨ x.holder ≠ leAt m.body 9 2) : (lease s).mgmt.leases = s.mgmt.leases := by
  have hf' : findLease (taken s m) (leAt m.body 4 1) (leAt m.body 5 4) = some x := hf
  simp only [lease, hw, nextMsg_of_first hm, hf', Bool.not_true, Bool.false_eq_true, if_false]
  by_cases ht : leAt m.body 11 4 < x.term
  · rw [if_pos ht]
    exact (leases_of_uncounted (leaseAnswer_uncounted ..)).trans rfl
  · rw [if_neg ht, if_neg (h.resolve_left ht)]
    exact (leases_of_uncounted (leaseAnswer_uncounted ..)).trans rfl

end

/-- A lease as its holder renews it. -/
theorem askedLease_of_found {s : State} {m : Msg} {x : Lease} (hf : findLease s (leAt m.body 4 1) (leAt m.body 5 4) = some x)
    (hh : x.holder = leAt m.body 9 2) : askedLease s m = { x with term := leAt m.body 11 4, since := s.now, live := true } := by
  obtain ⟨hk, hi⟩ : x.kind = leAt m.body 4 1 ∧ x.ident = leAt m.body 5 4 := by simpa using List.find?_some hf
  rw [askedLease, ← hk, ← hi, ← hh]

theorem leaseExpiry_expires {k : Nat} {x : Lease} {s : State} (hx : s.mgmt.leases[k]? = some x) (hl : x.live = true)
    (ht : x.since + 20000000 ≤ s.now) (hw : witnesses s = true) (hc : claimsOn s x.kind x.ident = []) :
    (leaseExpiry k s).mgmt.leases[k]? = some { x with live := false } := by
  have hc' : claimsOn (putLease s { x with live := false }) x.kind x.ident = [] := hc
  have he : leaseExpiry k s = putLease s { x with live := false } := by
    simp [leaseExpiry, hx, hl, hw, hc', elapsed, Machine.ms, ht]
  rw [he]
  exact putLease_slot hx rfl rfl

/-! ### CLAIM, CLAIM_PENDING_TIMEOUT and the start-up time (R220, R479, R480) -/

/-- The claim that a CLAIM message makes. -/
def askedClaim (s : State) (m : Msg) : PendingClaim :=
  { source := m.source, tagId := m.tagId, kind := leAt m.body 4 1, ident := leAt m.body 5 4, claimant := leAt m.body 9 2
    term := leAt m.body 11 4, since := s.now }

theorem claim_eq {s : State} {m : Msg} (hw : witnesses s = true) (hm : firstOf 0x0F [] s.mgmt.inbox = some m) :
    claim s = if s.mgmt.witnessOpen && !leaseLive s (leAt m.body 4 1) (leAt m.body 5 4) then grantClaim (taken s m) (askedClaim s m)
      else setMgmt (taken s m) { (taken s m).mgmt with claims := s.mgmt.claims ++ [askedClaim s m] } := by
  simp only [claim, hw, nextMsg_of_first hm, Bool.not_true, Bool.false_eq_true, if_false]
  rfl

theorem claimPendingTimeout_refuses {k : Nat} {c : PendingClaim} {s : State} (hc : s.mgmt.claims[k]? = some c) (ht : c.since + 25000000 ≤ s.now)
    (ho : s.mgmt.witnessOpen = true) (hw : witnesses s = true) (hl : leaseLive s c.kind c.ident = true) :
    (claimPendingTimeout k s).mgmt.claims = s.mgmt.claims.erase c ∧ (claimPendingTimeout k s).mgmt.leases = s.mgmt.leases := by
  have he : claimPendingTimeout k s = claimAnswer (setMgmt s { s.mgmt with claims := s.mgmt.claims.erase c }) c 2
      (((findLease s c.kind c.ident).map Lease.term).getD 0) := by
    simp [claimPendingTimeout, hc, ho, hw, hl, elapsed, Machine.ms, ht]
  rw [he]
  exact ⟨(claims_of_uncounted (claimAnswer_uncounted ..)).trans rfl, (leases_of_uncounted (claimAnswer_uncounted ..)).trans rfl⟩

theorem witnessStartupEnd_opens {s : State} (hw : witnesses s = true) (ho : s.mgmt.witnessOpen = false)
    (ht : s.mgmt.witnessSince + 20000000 ≤ s.now) : (witnessStartupEnd s).mgmt.witnessOpen = true := by
  have hc : (witnesses s && !s.mgmt.witnessOpen && elapsed s s.mgmt.witnessSince (20 * Machine.ms)) = true := by
    simp [hw, ho, elapsed, Machine.ms, ht]
  rw [witnessStartupEnd, if_pos hc]
  refine foldl_stands (g := fun u => u.mgmt.witnessOpen) (fun u c => ?_) _ _
  split
  · exact grantClaim_witnessOpen u c
  · rfl

theorem witnessStartupEnd_early {s : State} (h : s.now < s.mgmt.witnessSince + 20000000) : witnessStartupEnd s = s := by
  have ht : elapsed s s.mgmt.witnessSince (20 * Machine.ms) = false := decide_eq_false (Nat.not_le.mpr h)
  simp [witnessStartupEnd, ht]

/-- Settles O42, a lemma for each command. -/
theorem witness : Obligations.Witness := by
  unfold Obligations.Witness
  refine ⟨fun m s hw hm hf hl => ⟨lease s, rfl, lease_new hw hm hf hl⟩, fun m x s hw hm hf ht hh => ⟨lease s, rfl, ?_⟩,
    fun m x s hw hm hf h => ⟨lease s, rfl, lease_refused hw hm hf h⟩,
    fun slot x s hx hl ht hw hc => ⟨leaseExpiry slot s, rfl, leaseExpiry_expires hx hl ht hw hc⟩,
    fun m s hw hm ho hl => ⟨claim s, rfl, ?_⟩, fun m s hw hm h => ⟨claim s, rfl, ?_⟩,
    fun slot c s hc ht ho hw hl => ⟨claimPendingTimeout slot s, rfl, claimPendingTimeout_refuses hc ht ho hw hl⟩,
    fun s hw ho ht => ⟨witnessStartupEnd s, rfl, witnessStartupEnd_opens hw ho ht⟩,
    fun s h => ⟨witnessStartupEnd s, rfl, witnessStartupEnd_early h⟩⟩
  · exact (lease_renewed hw hm hf ht hh).trans (by rw [askedLease_of_found hf hh])
  · dsimp only
    rw [claim_eq hw hm, ho, hl]
    exact congrArg (Option.map _) (grantClaim_findLease (taken s m) (askedClaim s m))
  · have hn : (s.mgmt.witnessOpen && !leaseLive s (leAt m.body 4 1) (leAt m.body 5 4)) = false := by
      rcases h with h | h <;> simp [h]
    dsimp only
    rw [claim_eq hw hm, hn]
    exact ⟨rfl, List.length_append⟩

end Sys2Proof.Scope
end

section
/-!
What the shared operations of the fabric leave: messages and answers, entry to FENCED and its end, and what the twin does after a step.
-/

namespace Sys2Proof.Scope

open Sys2Proof.Machine Sys2Proof.Laws

/-! ### Messages on their way (R195, R196) -/

@[simp] theorem launchPort_fab (s : State) (p : Nat) (o : WireOp) : (launchPort s p o).fab = s.fab :=
  (launchPort_keeps (mk := 7365504) (Keeps.refl s) (by decide)).fab (by decide)

@[simp] theorem ctlOn_fab (s : State) (c : Nat) (m : CtlMsg) : (ctlOn s c m).fab = s.fab :=
  (ctlOn_keeps (mk := 7367552) (Keeps.refl s) (by decide)).fab (by decide)

@[simp] theorem ctlAlong_fab (s : State) (ps : List Nat) (peer : Nat) (m : CtlMsg) : (ctlAlong s ps peer m).fab = s.fab :=
  (ctlAlong_keeps (mk := 7365504) (Keeps.refl s) (by decide)).fab (by decide)

@[simp] theorem ctlRespond_fab (s : State) (m : CtlMsg) (status : Nat) (content : List Byte) : (ctlRespond s m status content).fab = s.fab :=
  (ctlRespond_keeps (mk := 7367552) (Keeps.refl s) (by decide)).fab (by decide)

@[simp] theorem ctlRespond_cfg (s : State) (m : CtlMsg) (status : Nat) (content : List Byte) : (ctlRespond s m status content).cfg = s.cfg :=
  (ctlRespond_keeps (mk := 7367552) (Keeps.refl s) (by decide)).cfg (by decide)

@[simp] theorem ctlRespond_flash (s : State) (m : CtlMsg) (status : Nat) (content : List Byte) : (ctlRespond s m status content).flash = s.flash :=
  (ctlRespond_keeps (mk := 7367552) (Keeps.refl s) (by decide)).flash (by decide)

@[simp] theorem ctlRespond_module (s : State) (m : CtlMsg) (status : Nat) (content : List Byte) :
    (ctlRespond s m status content).module = s.module :=
  (ctlRespond_keeps (mk := 7367552) (Keeps.refl s) (by decide)).module (by decide)

@[simp] theorem switchAnswered_fab (s : State) (m : Option CtlMsg) (status : Nat) : (switchAnswered s m status).fab = s.fab :=
  (switchAnswered_keeps (mk := 7367552) (Keeps.refl s) (by decide)).fab (by decide)

@[simp] theorem sendFenceNotices_fab (s : State) (term cause : Nat) : (sendFenceNotices s term cause).fab = s.fab :=
  (sendFenceNotices_keeps (mk := 7365504) (Keeps.refl s) (by decide)).fab (by decide)

@[simp] theorem sendFenceNotices_module (s : State) (term cause : Nat) : (sendFenceNotices s term cause).module = s.module :=
  (sendFenceNotices_keeps (mk := 7365504) (Keeps.refl s) (by decide)).module (by decide)

/-- A message to the master takes the next request number. -/
theorem ctlToMaster_fab (s : State) (code : Nat) (data : List Byte) :
    (ctlToMaster s code data).fab = { s.fab with nextReq := (s.fab.nextReq + 1) % 2 ^ 32 } := by
  simp only [ctlToMaster, apply_ite State.fab, ctlOn_fab, ctlAlong_fab, ite_self]

/-- A request of the master takes the next request number, and waits for its answer. -/
theorem ctlRequest_fab (s : State) (mid : Option Nat) (path : List Nat) (code : Nat) (content : List Byte) :
    (ctlRequest s mid path code content).fab = { s.fab with
      nextReq := (s.fab.nextReq + 1) % 2 ^ 32
      reqs := s.fab.reqs ++ [{ reqId := s.fab.nextReq, code := code, path := path, mid := mid, sentAt := s.now }] } := by
  simp only [ctlRequest, apply_ite State.fab, ctlOn_fab, ctlAlong_fab, ite_self]

/-! ### Messages taken -/

/-- The state in which a FABRIC_CTL message has been taken. -/
def ctlTaken (s : State) (m : CtlMsg) : State := { s with fab := { s.fab with ctl := s.fab.ctl.erase m } }

section
variable {s : State} {code : Nat} {m : CtlMsg} (h : s.fab.ctl.find? (fun m => m.code = code && !m.response) = some m)
include h

theorem takeCtl_of_found : takeCtl s code = some (ctlTaken s m, m) := by
  simp only [takeCtl, h, ctlTaken]

/-- A command is refused for its term, or acts. -/
theorem ctlCommand_cases (f : State → CtlMsg → State) :
    ctlCommand s code f = ctlRespond (ctlTaken s m) m 3 [] ∨ ctlCommand s code f = f (ctlTaken s m) m := by
  simp only [ctlCommand, takeCtl_of_found h]
  split
  · exact .inl rfl
  · exact .inr rfl

/-- A command of a term that is not lower acts. -/
theorem ctlCommand_acts (ht : s.fab.term ≤ m.term) (f : State → CtlMsg → State) : ctlCommand s code f = f (ctlTaken s m) m := by
  have hn : decide (m.term < (ctlTaken s m).fab.term) = false := decide_eq_false (Nat.not_lt.mpr ht)
  simp only [ctlCommand, takeCtl_of_found h, hn, Bool.false_and, Bool.false_eq_true, if_false]

end

/-- A FENCED module takes RESYNC_BEGIN whatever its term. -/
theorem ctlCommand_resync {s : State} {m : CtlMsg} (h : s.fab.ctl.find? (fun m => m.code = 8 && !m.response) = some m)
    (hs : s.module.state = .fenced) (f : State → CtlMsg → State) : ctlCommand s 8 f = f (ctlTaken s m) m := by
  have hf : (ctlTaken s m).module.state = .fenced := hs
  simp [ctlCommand, takeCtl_of_found h, hf]

/-! ### The twin after a step (R367, R372) -/

@[simp] theorem twinLinkCheck_fab (s : State) : (twinLinkCheck s).fab = s.fab :=
  (twinLinkCheck_keeps (mk := 7430144) (Keeps.refl s) (by decide)).fab (by decide)

@[simp] theorem twinMove_fab (s : State) : (twinMove s).fab = s.fab :=
  (twinMove_keeps (mk := 7431040) (Keeps.refl s) (by decide)).fab (by decide)

@[simp] theorem catchUpMove_fab (s : State) : (catchUpMove s).fab = s.fab :=
  (catchUpMove_keeps (mk := 7432192) (Keeps.refl s) (by decide)).fab (by decide)

@[simp] theorem setTwin_fab (s : State) (st : TwinSt) : (setTwin s st).fab = s.fab :=
  (setTwin_keeps (mk := 7431040) (Keeps.refl s) (by decide)).fab (by decide)

/-- The end of an adoption is the end of the adopted MID, and lets the master compute new tables. -/
theorem adoptionEnd_fab (s : State) : ∃ a r, (adoptionEnd s).fab = { s.fab with adoptedMid := a, recomputeSince := r } := by
  unfold adoptionEnd
  split
  · exact ⟨none, _, by rw [setTwin_fab]; simp only [event_fab]; rfl⟩
  · exact ⟨_, _, rfl⟩

theorem twinCheck_fab (s : State) : ∃ a r, (twinCheck s).fab = { s.fab with adoptedMid := a, recomputeSince := r } := by
  unfold twinCheck
  split
  · obtain ⟨a, r, h⟩ := adoptionEnd_fab (twinMove (twinLinkCheck s))
    exact ⟨a, r, by rw [health_fab, catchUpMove_fab, h, twinMove_fab, twinLinkCheck_fab]⟩
  · exact ⟨_, _, rfl⟩

/-- The replay of an adoption moves the adopted MID, and its end the tables. -/
theorem replayStart_fab (s : State) : ∃ a r, (replayStart s).fab = { s.fab with adoptedMid := a, recomputeSince := r } := by
  unfold replayStart
  split
  · extract_lets rs _ _ t u v
    have hv : v.fab = u.fab := (Keeps.foldl (m := 7432704) (.refl u) rs fun _ _ h => replayEntry_keeps h (by decide)).fab (by decide)
    have hu : u.fab = { s.fab with adoptedMid := some s.twin.lostMid } := (count_fab ..).trans (event_fab ..)
    have hw : ((adoptedConns v).foldl adoptedCheck v).fab = v.fab :=
      (Keeps.foldl (m := 7568256) (.refl v) _ fun _ _ h => adoptedCheck_keeps h (by decide)).fab (by decide)
    obtain ⟨a, r, h⟩ := adoptionEnd_fab ((adoptedConns v).foldl adoptedCheck v)
    exact ⟨a, r, by rw [h, hw, hv, hu]⟩
  · exact ⟨_, _, rfl⟩

/-- SERVICE and DEGRADED change into each other only. -/
theorem health_fenced_iff (s : State) (c : Nat) : (health s c).module.state = .fenced ↔ s.module.state = .fenced := by
  unfold health
  split
  · next h => split <;> simp [changeState_state, h]
  · next h => split <;> simp [changeState_state, h]
  · rfl

theorem twinCheck_fenced_iff (s : State) : (twinCheck s).module.state = .fenced ↔ s.module.state = .fenced := by
  have hm : (catchUpMove (adoptionEnd (twinMove (twinLinkCheck s)))).module = s.module :=
    (catchUpMove_keeps (mk := 7434112) (adoptionEnd_keeps (twinMove_keeps (twinLinkCheck_keeps (.refl s) (by decide)) (by decide)) (by decide))
      (by decide)).module (by decide)
  unfold twinCheck
  split
  · rw [health_fenced_iff, hm]
  · rfl

/-! ### FENCED (R222, R223) -/

theorem fencedEntry_fences {s : State} (h : s.module.state = .service ∨ s.module.state = .degraded) (cause : Nat) :
    (fencedEntry s cause).module.state = .fenced ∧ ∃ a r, (fencedEntry s cause).fab = { s.fab with
      splitCount := (s.fab.splitCount + 1) % 2 ^ 32, role := if s.fab.role = 2 then 1 else s.fab.role, claimAt := none, resyncing := false
      adoptedMid := a, recomputeSince := r } := by
  have he : fencedEntry s cause = twinCheck (changeState { event s 0x0506 0 (at_ 16 cause) with fab := { s.fab with
      splitCount := (s.fab.splitCount + 1) % 2 ^ 32, role := if s.fab.role = 2 then 1 else s.fab.role, claimAt := none
      resyncing := false } } .fenced 0x0506) := by
    rcases h with h | h <;> simp [fencedEntry, h]
  rw [he]
  obtain ⟨a, r, hf⟩ := twinCheck_fab (changeState { event s 0x0506 0 (at_ 16 cause) with fab := { s.fab with
      splitCount := (s.fab.splitCount + 1) % 2 ^ 32, role := if s.fab.role = 2 then 1 else s.fab.role, claimAt := none
      resyncing := false } } .fenced 0x0506)
  exact ⟨(twinCheck_fenced_iff _).mpr (changeState_state ..), a, r, by rw [hf, changeState_fab]⟩

theorem fencedExit_leaves {s : State} (h : s.module.state = .fenced) :
    (fencedExit s).module.state ≠ .fenced ∧ ∃ a r, (fencedExit s).fab = { s.fab with
      splitAt := none, claimAt := none, mayStep := true, fencedReported := [], resyncing := false
      adoptedMid := a, recomputeSince := r } := by
  simp only [fencedExit, h]
  generalize hu : ({ event s 0x0507 0 (at_ 32 (s.fab.term % 2 ^ 32)) with fab := _ } : State) = u
  obtain ⟨a, r, hf⟩ := twinCheck_fab (changeState u (if degraded u then .degraded else .service) 0x0507)
  refine ⟨fun hx => ?_, a, r, by rw [hf, changeState_fab, ← hu]; simp only [event_fab]⟩
  rw [twinCheck_fenced_iff, changeState_state] at hx
  split at hx <;> exact absurd hx (by decide)

end Sys2Proof.Scope
end

section
/-!
A member of the fabric (R195, R197, R199 to R201, R206, R210, R222, R224): what it does on the messages of its master, and by its own timers.
-/

namespace Sys2Proof.Scope

open Sys2Proof.Machine Sys2Proof.Laws

/-! ### Messages that set a register or a table (R199, R206, R210) -/

theorem neighbours_answers {m : CtlMsg} {s : State} (h : s.fab.ctl.find? (fun m => m.code = 1 && !m.response) = some m) :
    (neighbours s).fab = { s.fab with ctl := s.fab.ctl.erase m } ∧ (neighbours s).cfg = s.cfg := by
  unfold neighbours
  rcases ctlCommand_cases h _ with e | e <;> rw [e] <;> exact ⟨ctlRespond_fab .., ctlRespond_cfg ..⟩

theorem assignMid_stores {m : CtlMsg} {s : State} (h : s.fab.ctl.find? (fun m => m.code = 2 && !m.response) = some m)
    (ht : s.fab.term ≤ m.term) (hv : midValid s = false) (hm : leAt m.content 0 2 < 1024) :
    cfgv (assignMid s) 0x4100 1 = leAt m.content 0 2 ∧ flashv (assignMid s) 0x4100 1 = leAt m.content 0 2 ∧
      (assignMid s).fab = { s.fab with ctl := s.fab.ctl.erase m } := by
  have hv' : midValid (ctlTaken s m) = false := hv
  have hn : ¬ 1024 ≤ leAt m.content 0 2 := Nat.not_le.mpr hm
  have he : assignMid s = ctlRespond (setFlash (setCfg (ctlTaken s m) (key 0x4100 1) (leAt m.content 0 2)) (key 0x4100 1)
      (leAt m.content 0 2)) m 0 [] := by
    simp [assignMid, ctlCommand_acts h ht, hv', hn]
  rw [he]
  refine ⟨?_, ?_, ctlRespond_fab ..⟩
  · rw [cfgv, ctlRespond_cfg]
    exact Tbl.get_set_same ..
  · rw [flashv, ctlRespond_flash]
    exact Tbl.get_set_same ..

theorem routeWrite_writes {m : CtlMsg} {s : State} (h : s.fab.ctl.find? (fun m => m.code = 3 && !m.response) = some m)
    (ht : s.fab.term ≤ m.term) (hn : leAt m.content 2 2 ≤ 254) (hb : leAt m.content 5 1 = 1)
    (hr : leAt m.content 0 2 + leAt m.content 2 2 ≤ 1024) (hl : 16 + 16 * leAt m.content 2 2 ≤ m.content.length) :
    (routeWrite s).fab.standby = writeEntries (leAt m.content 2 2) (leAt m.content 0 2) (m.content.drop 16) s.fab.standby ∧
      (routeWrite s).fab.active = s.fab.active ∧ (routeWrite s).fab.epoch = s.fab.epoch := by
  have hc : ¬ (254 < leAt m.content 2 2 ∨ 1024 < leAt m.content 0 2 + leAt m.content 2 2 ∨
      m.content.length < 16 + 16 * leAt m.content 2 2 ∨ leAt m.content 5 1 ≠ 1) := by omega
  simp only [← or_assoc] at hc
  simp [routeWrite, ctlCommand_acts h ht, hc, ctlTaken]

theorem bankSwitch_names {m : CtlMsg} {s : State} (h : s.fab.ctl.find? (fun m => m.code = 4 && !m.response) = some m)
    (ht : s.fab.term ≤ m.term) : (bankSwitch s).fab = { s.fab with
      ctl := s.fab.ctl.erase m, switch := some (leAt m.content 0 4, leAt m.content 4 8, leAt m.content 12 2), switchMsg := some m } := by
  rw [bankSwitch, ctlCommand_acts h ht]
  rfl

theorem admitPartition_replaces {m : CtlMsg} {s : State} (h : s.fab.ctl.find? (fun m => m.code = 6 && !m.response) = some m)
    (ht : s.fab.term ≤ m.term) : (admitPartition s).fab.imported = (s.fab.imported.filter fun b => b.pgid ≠ leAt m.content 0 2) ++
      [{ pgid := leAt m.content 0 2, gport := leAt m.content 2 4, cidA := leAt m.content 6 2, cidB := leAt m.content 8 2 }] := by
  rw [admitPartition, ctlCommand_acts h ht, ctlRespond_fab]
  rfl

/-! ### The time of a switch (R206) -/

/-- What a switch leads to moves the adopted MID, and with it the tables. -/
theorem bankSwitched_fab (u : State) : ∃ a r,
    (twinCheck (replayStart (membershipCheck u))).fab = { u.fab with adoptedMid := a, recomputeSince := r } := by
  have hm : (membershipCheck u).fab = u.fab := (membershipCheck_keeps (mk := 7568256) (.refl u) (by decide)).fab (by decide)
  obtain ⟨_, _, h1⟩ := replayStart_fab (membershipCheck u)
  obtain ⟨a, r, h2⟩ := twinCheck_fab (replayStart (membershipCheck u))
  exact ⟨a, r, by rw [h2, h1, hm]⟩

section
variable {ep tm n : Nat} {s : State} (hs : s.fab.switch = some (ep, tm, n)) (ht : tm ≤ s.ft)
include hs ht

theorem bankSwitchTime_incomplete (hb : bankComplete s = false) :
    (bankSwitchTime s).fab = { s.fab with switch := none, switchMsg := none } := by
  have hb' : bankComplete { s with fab := { s.fab with switch := none, switchMsg := none } } = false := hb
  simp only [bankSwitchTime, hs, if_neg (Nat.not_lt.mpr ht), hb', Bool.not_false, if_true, switchAnswered_fab]

theorem bankSwitchTime_complete (hb : bankComplete s = true) :
    (bankSwitchTime s).fab.active = s.fab.standby ∧ (bankSwitchTime s).fab.rotate = s.fab.standbyRotate ∧
      (bankSwitchTime s).fab.epoch = ep ∧ (bankSwitchTime s).fab.switch = none ∧ (bankSwitchTime s).fab.written = [] ∧
      (bankSwitchTime s).fab.memberCount = n := by
  have hb' : bankComplete { s with fab := { s.fab with switch := none, switchMsg := none } } = true := hb
  simp only [bankSwitchTime, hs, if_neg (Nat.not_lt.mpr ht), hb', Bool.not_true, Bool.false_eq_true, if_false]
  generalize hu : switchAnswered _ _ 0 = u
  have hf := congrArg State.fab hu
  simp only [switchAnswered_fab, apply_ite State.fab, event_fab, ite_self] at hf
  obtain ⟨a, r, h⟩ := bankSwitched_fab u
  rw [h, ← hf]
  exact ⟨rfl, rfl, rfl, rfl, rfl, rfl⟩

end

/-! ### Heartbeats (R201) -/

theorem fabricCtlHeartbeatSend_sends {s : State} (hf : fabricOn s = true) (hr : s.fab.role = 1) (hm : s.fab.master.isSome = true)
    (hs : s.module.state ≠ .fenced ∨ s.fab.resyncing = true) (ht : s.fab.heartbeatAt + 1000000 ≤ s.now) :
    (fabricCtlHeartbeatSend s).fab = { s.fab with heartbeatAt := s.now, nextReq := (s.fab.nextReq + 1) % 2 ^ 32 } := by
  have hc : (fabricOn s && s.fab.role = 1 && s.fab.master.isSome && (s.module.state ≠ .fenced || s.fab.resyncing) &&
      elapsed s s.fab.heartbeatAt Machine.ms) = true := by
    simpa [hf, hr, hm, elapsed, Machine.ms, ht] using hs
  rw [fabricCtlHeartbeatSend, if_pos hc, ctlToMaster_fab]

/-! ### FENCED (R222, R224) -/

theorem fenceNotice_fences {m : CtlMsg} {s : State} (h : s.fab.ctl.find? (fun m => m.code = 7 && !m.response) = some m)
    (ht : s.fab.term ≤ m.term) (hs : s.module.state = .service ∨ s.module.state = .degraded) :
    (fenceNotice s).module.state = .fenced ∧ (fenceNotice s).fab.splitCount = (s.fab.splitCount + 1) % 2 ^ 32 ∧
      (fenceNotice s).fab.claimAt = none ∧ (fenceNotice s).fab.high = max s.fab.high (leAt m.content 0 4) := by
  have hs' : (noteTerm (ctlTaken s m) (leAt m.content 0 4)).module.state = .service ∨
      (noteTerm (ctlTaken s m) (leAt m.content 0 4)).module.state = .degraded := hs
  have hc : (s.module.state = .service || s.module.state = .degraded) = true := by simpa using hs
  have he : fenceNotice s = sendFenceNotices (fencedEntry (noteTerm (ctlTaken s m) (leAt m.content 0 4)) 4) (leAt m.content 0 4)
      (leAt m.content 4 1) := by
    rw [fenceNotice, ctlCommand_acts h ht]
    exact if_pos hc
  obtain ⟨hst, a, r, hfab⟩ := fencedEntry_fences hs' 4
  rw [he, sendFenceNotices_module, sendFenceNotices_fab, hfab]
  exact ⟨hst, rfl, rfl, rfl⟩

theorem resyncBegin_takes {m : CtlMsg} {s : State} (h : s.fab.ctl.find? (fun m => m.code = 8 && !m.response) = some m)
    (hs : s.module.state = .fenced) :
    (resyncBegin s).module.state = .fenced ∧ (resyncBegin s).fab = { s.fab with
      ctl := s.fab.ctl.erase m, term := m.term, master := some (leAt m.content 4 2), role := 1
      admitted := midList (leAt m.content 6 2) (m.content.drop 16), imported := [], standby := [], written := [], mayStep := true
      splitAt := none, resyncing := true, importsTold := [], high := max s.fab.high m.term } := by
  have hs' : (ctlTaken s m).module.state = .fenced := hs
  rw [resyncBegin, ctlCommand_resync h hs]
  simp only [hs', if_true, ctlRespond_module, ctlRespond_fab, apply_ite State.module, apply_ite State.fab, event_module, event_fab, ite_self]
  exact ⟨trivial, rfl⟩

theorem resyncEnd_leaves {m : CtlMsg} {s : State} (h : s.fab.ctl.find? (fun m => m.code = 9 && !m.response) = some m)
    (ht : s.fab.term ≤ m.term) (hs : s.module.state = .fenced) (he : s.fab.epoch = leAt m.content 0 4) :
    (resyncEnd s).module.state ≠ .fenced ∧ (resyncEnd s).fab.splitAt = none ∧ (resyncEnd s).fab.mayStep = true := by
  have hr : resyncEnd s = ctlRespond (fencedExit (ctlTaken s m)) m 0 [] := by
    rw [resyncEnd, ctlCommand_acts h ht]
    exact if_pos he
  obtain ⟨hst, a, r, hfab⟩ := fencedExit_leaves (s := ctlTaken s m) hs
  rw [hr, ctlRespond_module, ctlRespond_fab, hfab]
  exact ⟨hst, rfl, rfl⟩

/-! ### Timers (R200, R222) -/

theorem admissionTimeout_settles {t0 : Nat} {s : State} (hf : fabricOn s = true) (hn : s.fab.settled = false)
    (h0 : s.fab.firstActive = some t0) (ht : t0 + 5000000000 ≤ s.now) :
    (admissionTimeout s).fab = { s.fab with settled := true } := by
  have hc : (fabricOn s && !s.fab.settled && elapsedOpt s s.fab.firstActive (5 * sec)) = true := by
    simp [hf, hn, h0, elapsedOpt, sec, ht]
  rw [admissionTimeout, if_pos hc, event_fab]

theorem memberFenceDeadline_fences {t0 : Nat} {s : State} (hf : fabricOn s = true) (hr : s.fab.role ≠ 2)
    (hp : s.fab.splitAt.isSome = true) (h0 : s.fab.beaconAt = some t0) (ht : t0 + 40000000 ≤ s.now)
    (hs : s.module.state = .service ∨ s.module.state = .degraded) :
    (memberFenceDeadline s).module.state = .fenced ∧ (memberFenceDeadline s).fab.splitCount = (s.fab.splitCount + 1) % 2 ^ 32 := by
  have hc : (fabricOn s && s.fab.role ≠ 2 && s.fab.splitAt.isSome && elapsedOpt s s.fab.beaconAt (40 * Machine.ms)) = true := by
    simp [hf, hr, hp, h0, elapsedOpt, Machine.ms, ht]
  rw [memberFenceDeadline, if_pos hc]
  obtain ⟨hst, a, r, hfab⟩ := fencedEntry_fences hs _
  exact ⟨hst, by rw [hfab]⟩

/-- Settles O20, a lemma for each command. -/
theorem fabricMember : Obligations.FabricMember := by
  unfold Obligations.FabricMember
  refine ⟨fun m s h => ⟨neighbours s, rfl, neighbours_answers h⟩,
    fun m s h ht hv hm => ⟨assignMid s, rfl, assignMid_stores h ht hv hm⟩,
    fun m s h ht hn hb hr hl => ⟨routeWrite s, rfl, routeWrite_writes h ht hn hb hr hl⟩,
    fun m s h ht => ⟨bankSwitch s, rfl, ?_⟩,
    fun ep tm n s hs ht hb => ⟨bankSwitchTime s, rfl, ?_⟩,
    fun ep tm n s hs ht hb => ⟨bankSwitchTime s, rfl, bankSwitchTime_complete hs ht hb⟩,
    fun s hf hr hm hs ht => ⟨fabricCtlHeartbeatSend s, rfl, ?_⟩,
    fun m s h ht => ⟨admitPartition s, rfl, admitPartition_replaces h ht⟩,
    fun m s h ht hs => ⟨fenceNotice s, rfl, fenceNotice_fences h ht hs⟩,
    fun m s h hs => ⟨resyncBegin s, rfl, ?_⟩,
    fun m s h ht hs he => ⟨resyncEnd s, rfl, resyncEnd_leaves h ht hs he⟩,
    fun t0 s hf hn h0 ht => ⟨admissionTimeout s, rfl, admissionTimeout_settles hf hn h0 ht⟩,
    fun t0 s hf hr hp h0 ht hs => ⟨memberFenceDeadline s, rfl, memberFenceDeadline_fences hf hr hp h0 ht hs⟩⟩
  · dsimp only
    rw [bankSwitch_names h ht]
    exact ⟨rfl, rfl, rfl, rfl⟩
  · dsimp only
    rw [bankSwitchTime_incomplete hs ht hb]
    exact ⟨rfl, rfl, rfl, rfl⟩
  · dsimp only
    rw [fabricCtlHeartbeatSend_sends hf hr hm hs ht]
    exact ⟨rfl, rfl, hr⟩
  · obtain ⟨hst, hfab⟩ := resyncBegin_takes h hs
    rw [hfab]
    exact ⟨rfl, rfl, rfl, rfl, rfl, rfl, hst⟩

end Sys2Proof.Scope
end

section
/-!
The master of the fabric and its candidates (R199, R201, R205, R206, R213, R218 to R221, R225): discovery, members and their tables, the lease,
splits and mastership.
-/

namespace Sys2Proof.Scope

open Sys2Proof.Machine Sys2Proof.Laws

/-! ### Tables of members -/

theorem find?_modify {α : Type} (t : Tbl α) (k j : Nat) (f : α → α) :
    Tbl.find? (Tbl.modify t k f) j = if j = k then (Tbl.find? t j).map f else Tbl.find? t j := by
  induction t with
  | nil => simp [Tbl.modify, Tbl.find?]
  | cons r t ih =>
    unfold Tbl.modify at ih ⊢
    obtain ⟨i, y⟩ := r
    by_cases hi : i = k
    · subst hi
      simp only [List.map_cons, if_true, Tbl.find?, ih]
      split <;> simp_all
    · simp only [List.map_cons, if_neg hi, Tbl.find?, ih]
      split
      · next e => rw [if_neg (by omega)]
      · rfl

/-! ### Discovery (R199) -/

theorem masterDiscovery_asks {path : List Nat} {u : Nat} {n : Neighbour} {s : State} (hr : s.fab.role = 2) (hf : fabricOn s = true)
    (hn : frontier s = [(path, u, n)]) (hp : bit n.peer 31 = false) (hq : s.fab.reqs = []) :
    (masterDiscovery s).fab.reqs = [{ reqId := s.fab.nextReq, code := 1, path := path, mid := none, sentAt := s.now }] ∧
      (masterDiscovery s).fab.nextReq = (s.fab.nextReq + 1) % 2 ^ 32 := by
  have hn' : frontier (oldRequests s) = [(path, u, n)] := hn
  have ho : (oldRequests s).fab.reqs = [] := by simp [oldRequests, hq]
  have he : masterDiscovery s = ctlRequest (oldRequests s) none path 1 [] := by
    simp [masterDiscovery, hr, hf, hn', hp, ho]
  rw [he, ctlRequest_fab, ho]
  exact ⟨rfl, rfl⟩

/-! ### Tables (R205, R206) -/

/-- Alone, a master has no pair of members to join. -/
theorem bondCheck_alone (s : State) (u : Nat) : bondCheck s [u] = s := by
  simp [bondCheck]

theorem upOrder_alone (lv : Tbl Nat) (u : Nat) : upOrder lv [u] = [u] := by
  simp [upOrder, sortBy, insertBy]

/-- The master is admitted, whatever its tables. -/
theorem admitSet_alone (s : State) (fuel : Nat) :
    (admitSet s (fuel + 1) [ownMid s]).1 = s ∧ (admitSet s (fuel + 1) [ownMid s]).2.1 = [ownMid s] := by
  have hu : ∀ u, unreachable (levels s [ownMid s]) s.fab.admitted [ownMid s] (allEntries s (levels s [ownMid s]) [ownMid s]) = some u →
      u = ownMid s := by
    intro u h
    have hm := List.mem_of_find?_eq_some h
    rw [upOrder_alone] at hm
    simpa using (List.mem_append.mp hm).imp List.mem_of_mem_filter List.mem_of_mem_filter
  unfold admitSet
  dsimp only
  split
  · exact ⟨rfl, rfl⟩
  · next u h => rw [if_pos (hu u h), hu u h]; exact ⟨rfl, rfl⟩

/-- The master's own bank is written at once. -/
theorem writeBank_own {s : State} {u : Nat} (h : u = ownMid s) (t : Tbl (Tbl RouteEntry)) (lv : Tbl Nat) (ep time n : Nat) :
    (writeBank s t lv ep time n u).fab = { s.fab with
      standby := ((List.range 1024).zip (bankOf s t u)).filter (fun r => r.2.valid), standbyRotate := 8 * Tbl.get lv u 0 % 32
      written := List.range 1024, switch := some (ep, time, n) } := by
  rw [writeBank, if_pos h]

theorem tableRecompute_alone {s : State} (hr : s.fab.role = 2) (hd : s.fab.recomputeSince.isSome = true) (hm : s.fab.members = []) :
    (tableRecompute s).fab.recomputeSince = none ∧ (tableRecompute s).fab.nextAdmitted = [ownMid s] ∧
      (tableRecompute s).fab.switch = some ((s.fab.epoch + 1) % 2 ^ 32, s.ft + 2100000, 1) ∧
      (tableRecompute s).fab.active = s.fab.active := by
  have hc : (s.fab.role ≠ 2 || s.fab.recomputeSince.isNone) = false := by
    cases h : s.fab.recomputeSince <;> simp_all
  obtain ⟨h1, h2⟩ := admitSet_alone s 1024
  simp only [tableRecompute, hc, Bool.false_eq_true, if_false, hm, Tbl.keys, List.map_nil, bondCheck_alone]
  generalize admitSet s 1025 [ownMid s] = q at *
  obtain ⟨u, ms, t⟩ := q
  dsimp only at h1 h2
  subst h1 h2
  simp only [List.foldl_cons, List.foldl_nil]
  rw [writeBank_own]
  · exact ⟨rfl, rfl, rfl, rfl⟩
  · rfl

/-! ### Members (R201, R213, R219) -/

theorem fabricCtlHeartbeatReceive_hears {m : CtlMsg} {u : Nat} {x : Member} {s : State}
    (h : s.fab.ctl.find? (fun m => m.code = 5 && !m.response) = some m) (hu : ctlSender s m = some u) (hr : s.fab.role = 2)
    (ht : m.term = s.fab.term) (hx : Tbl.find? s.fab.members u = some x) :
    Tbl.find? (fabricCtlHeartbeatReceive s).fab.members u = some { x with heardAt := s.now, state := leAt m.content 0 1 } ∧
      (fabricCtlHeartbeatReceive s).fab.ctl = s.fab.ctl.erase m := by
  have hu' : ctlSender (ctlTaken s m) m = some u := hu
  have hc : ((ctlTaken s m).fab.role = 2 && m.term = (ctlTaken s m).fab.term) = true := by simp [ctlTaken, hr, ht]
  simp only [fabricCtlHeartbeatReceive, takeCtl_of_found h, hu', hc, if_true]
  exact ⟨by rw [find?_modify, if_pos rfl]; exact congrArg (Option.map _) hx, rfl⟩

theorem memberReport_linkLost {m : CtlMsg} {u : Nat} {s : State} (h : s.fab.ctl.find? (fun m => m.code = 0x0A && !m.response) = some m)
    (hu : ctlSender s m = some u) (hr : s.fab.role = 2) (hk : leAt m.content 0 1 = 1) :
    memberReportReceive s = linkLost (ctlTaken s m) u (leAt m.content 1 1) := by
  have hu' : ctlSender (ctlTaken s m) m = some u := hu
  have hr' : (ctlTaken s m).fab.role = 2 := hr
  simp [memberReportReceive, takeCtl_of_found h, hu', hr', hk]

/-- Tables are due, at the time they first became so. -/
theorem recomputeDue_isSome (s : State) : (recomputeDue s).fab.recomputeSince.isSome = true := by
  cases h : s.fab.recomputeSince <;> simp [recomputeDue, h]

theorem fabricCtlResponse_assigned {m : CtlMsg} {r : CtlReq} {v : Nat} {s : State} (h : s.fab.ctl.find? (fun m => m.response) = some m)
    (hq : s.fab.reqs.find? (fun r => r.reqId = m.reqId) = some r) (hr : s.fab.role = 2) (hc : r.code = 2) (hs : m.status = 0)
    (hv : r.mid = some v) : fabricCtlResponse s =
      ctlRequest { ctlTaken s m with fab := { (ctlTaken s m).fab with reqs := s.fab.reqs.erase r } } (some v) r.path 1 [] := by
  simp [fabricCtlResponse, h, hq, hr, hc, hs, hv, ctlTaken]

@[simp] theorem twinSplit_fab (s : State) : (twinSplit s).fab = s.fab :=
  (twinSplit_keeps (mk := 65536) (Keeps.refl s) (by decide)).fab (by decide)

@[simp] theorem twinSplit_cfg (s : State) : (twinSplit s).cfg = s.cfg :=
  (twinSplit_keeps (mk := 65536) (Keeps.refl s) (by decide)).cfg (by decide)

/-- The members silent for 20 ms. -/
def silentMembers (s : State) : List Nat := (s.fab.members.filter fun q => decide (q.2.heardAt + 20000000 ≤ s.now)).map Prod.fst

/-- The state in which the silent members are removed, and the twin, if it is one of them, is silent too. -/
def silentRemoved (s : State) : State :=
  let u := event { s with fab := { s.fab with members := s.fab.members.filter fun r => !(silentMembers s).contains r.1 } } 0x0502 0
    (silentMembers s).length
  if (silentMembers s).contains (twinMid u) then twinSplit u else u

theorem silentRemoved_fab (s : State) : (silentRemoved s).fab =
    { s.fab with members := s.fab.members.filter fun r => !(silentMembers s).contains r.1 } := by
  simp only [silentRemoved, apply_ite State.fab, twinSplit_fab, event_fab, ite_self]

theorem silentRemoved_cfg (s : State) : (silentRemoved s).cfg = s.cfg := by
  simp only [silentRemoved, apply_ite State.cfg, twinSplit_cfg, event_cfg, ite_self]

/-- With a working lease the master stays. -/
theorem heartbeatSilence_stays {r : Nat × Member} {s : State} (hr : s.fab.role = 2) (hm : r ∈ s.fab.members)
    (ht : r.2.heardAt + 20000000 ≤ s.now) (hw : cfgv s 0x4102 1 ≠ 0) (ho : s.fab.witnessOk = true) :
    heartbeatSilence s = recomputeDue (silentRemoved s) := by
  have hin : r.1 ∈ silentMembers s := List.mem_map_of_mem (List.mem_filter.mpr ⟨hm, by simpa using ht⟩)
  have hg : (decide (s.fab.role ≠ 2) || (silentMembers s).isEmpty) = false := by
    simp [hr, List.isEmpty_eq_false_iff.mpr (List.ne_nil_of_mem hin)]
  have hk : (if cfgv (silentRemoved s) 0x4102 1 ≠ 0 then (silentRemoved s).fab.witnessOk
      else seniorCandidate s = ownMid (silentRemoved s) || !(silentMembers s).contains (seniorCandidate s)) = true := by
    rw [cfgv_congr (silentRemoved_cfg s), if_pos hw, silentRemoved_fab]
    exact ho
  exact (if_neg (Bool.eq_false_iff.mp hg)).trans (if_pos hk)

/-! ### The lease (R218) -/

theorem leaseRenew_renews {k ident : Nat} {s : State} (hk : leaseKind s = some (k, ident))
    (ht : s.fab.leaseAt = 0 ∨ s.fab.leaseAt + 5000000 ≤ s.now) (hw : s.fab.leaseWait = none) :
    (leaseRenew s).fab = { s.fab with leaseAt := s.now, leaseWait := some s.now } := by
  have hc : (s.fab.leaseAt ≠ 0 && !elapsed s s.fab.leaseAt (5 * Machine.ms)) = false := by
    rcases ht with ht | ht <;> simp [elapsed, Machine.ms, ht]
  have he : leaseRenew s = sendLease { s with fab := { s.fab with leaseAt := s.now, leaseWait := some s.now } } k ident s.fab.term := by
    simp only [leaseRenew, hk, hc, hw, Option.isSome_none, Bool.false_eq_true, if_false]
  rw [he]
  exact (sendLease_keeps (mk := 1310720) (.refl _) (by decide)).fab (by decide)

/-- The state in which a message has been taken from the Harmir inbox. -/
def msgTaken (s : State) (m : Msg) : State := { s with mgmt := { s.mgmt with inbox := s.mgmt.inbox.erase m } }

theorem takeMsg_of_found {s : State} {typ : Nat} {m : Msg} (h : s.mgmt.inbox.find? (fun m => m.typ = typ) = some m) :
    takeMsg s typ = some (msgTaken s m, m) := by
  simp only [takeMsg, h, msgTaken]

theorem leaseResp_renewed {m : Msg} {s : State} (h : s.mgmt.inbox.find? (fun m => m.typ = 0x0E) = some m) (hs : leAt m.body 4 1 = 0) :
    (leaseResp s).fab = { s.fab with leaseWait := none, leaseOk := some s.now, witnessOk := true, leaseBad := false } := by
  simp only [leaseResp, takeMsg_of_found h, hs, if_true]
  rfl

/-! ### Splits and mastership (R219 to R221, R225) -/

theorem becomeMaster_fab (s : State) (term : Nat) : (becomeMaster s term).fab = { s.fab with
    role := 2, master := some (ownMid s), term := term, members := [], reqs := [], recomputeSince := some s.now, splitAt := none
    claimAt := none, beaconSentAt := 0, mayStep := false, steer := 0, locked := false, admitted := [ownMid s], timeParent := none
    leaseAt := 0, leaseWait := none, granted := s.fab.imported, toResync := [], merging := false, wanted := [] } := by
  simp only [becomeMaster, event_fab]

theorem candidateOf_congr {s t : State} (h : t.cfg = s.cfg) (m : Nat) : candidateOf t m = candidateOf s m := by
  simp only [candidateOf, cfgv_congr h]

theorem ownMid_congr {s t : State} (h : t.cfg = s.cfg) : ownMid t = ownMid s := cfgv_congr h _ _

theorem fabricOn_congr {s t : State} (h : t.cfg = s.cfg) : fabricOn t = fabricOn s := by
  simp only [fabricOn, cfgv_congr h]

/-- A won claim makes a master under the term of the answer. -/
theorem claimResp_won {m : Msg} {s : State} (h : s.mgmt.inbox.find? (fun m => m.typ = 0x10) = some m) (hs : leAt m.body 4 1 = 0)
    (hc : s.fab.claimAt.isSome = true) (hf : fabricOn s = true) :
    (claimResp s).fab.role = 2 ∧ (claimResp s).fab.master = some (ownMid s) ∧ (claimResp s).fab.term = leAt m.body 5 4 ∧
      (claimResp s).fab.claimAt = none ∧ (claimResp s).fab.witnessOk = true := by
  have hn : (msgTaken s m).fab.claimAt.isNone = false := by
    show s.fab.claimAt.isNone = false
    cases hx : s.fab.claimAt <;> simp_all
  simp only [claimResp, takeMsg_of_found h, hs, hn, Bool.false_eq_true, if_false, if_true]
  generalize hu : ({ event _ 0x0503 0 _ with twin := _, fab := _ } : State) = u
  have hcfg : u.cfg = s.cfg := by rw [← hu]; exact event_cfg ..
  have hok : u.fab.witnessOk = true := by rw [← hu]
  rw [fabricOn_congr hcfg, if_pos hf, becomeMaster_fab, ownMid_congr hcfg]
  exact ⟨rfl, rfl, rfl, rfl, hok⟩

/-- 20 ms without a beacon unlock fabric time, if it was locked. -/
theorem timeUnlocked_fab {t0 : Nat} {s : State} (hr : s.fab.role ≠ 2) (h0 : s.fab.beaconAt = some t0) (ht : t0 + 20000000 ≤ s.now) :
    (timeUnlocked s).fab = { s.fab with locked := false } := by
  have he : elapsedOpt s s.fab.beaconAt (20 * Machine.ms) = true := by simp [h0, elapsedOpt, Machine.ms, ht]
  cases hl : s.fab.locked with
  | true => simp [timeUnlocked, hl, hr, he]
  | false =>
    have hs : timeUnlocked s = s := by simp [timeUnlocked, hl]
    rw [hs, ← hl]

theorem timeUnlocked_keeps_rest (s : State) : Keeps 7365632 s (timeUnlocked s) := timeUnlocked_keeps (.refl s) (by decide)

/-- The state in which a member has detected a split. -/
def splitDetected (s : State) : State :=
  let u := twinSplit (event (timeUnlocked s) 0x0502 0 0)
  { u with fab := { u.fab with splitAt := some u.now } }

theorem splitDetected_cfg (s : State) : (splitDetected s).cfg = s.cfg := by
  simp only [splitDetected, twinSplit_cfg, event_cfg, (timeUnlocked_keeps_rest s).cfg (by decide)]

section
variable {t0 : Nat} {s : State} (hr : s.fab.role ≠ 2) (h0 : s.fab.beaconAt = some t0) (ht : t0 + 20000000 ≤ s.now)
include hr h0 ht

theorem splitDetected_fab : (splitDetected s).fab = { s.fab with splitAt := some s.now, locked := false } := by
  have hn : (twinSplit (event (timeUnlocked s) 0x0502 0 0)).now = s.now :=
    (twinSplit_keeps (mk := 7431168) (event_keeps (timeUnlocked_keeps (.refl s) (by decide)) (by decide)) (by decide)).now
  simp only [splitDetected, hn, twinSplit_fab, event_fab, timeUnlocked_fab hr h0 ht]

/-- 20 ms without a beacon reveal a split to a module in service. -/
theorem beaconSilence_splits (hf : fabricOn s = true) (hp : s.fab.splitAt = none) (hi : inService s = true)
    (hs : s.module.state ≠ .fenced) : beaconSilence s = trySucceed (splitDetected s) := by
  have k := timeUnlocked_keeps_rest s
  have hm := k.module (by decide)
  have hfab := timeUnlocked_fab hr h0 ht
  have hq : beaconQuiet (timeUnlocked s) (20 * Machine.ms) = true := by
    simp [beaconQuiet, hfab, h0, elapsed, k.now, Machine.ms, ht]
  have hi' : inService (timeUnlocked s) = true := by simpa only [inService, hm] using hi
  have hf' : fabricOn (timeUnlocked s) = true := (fabricOn_congr (k.cfg (by decide))).trans hf
  have hb : (timeUnlocked s).fab.beaconAt.isSome = true := by rw [hfab]; simp [h0]
  have hp' : (timeUnlocked s).fab.splitAt.isSome = false := by rw [hfab]; simp [hp]
  have hg : (!fabricOn (timeUnlocked s) || (timeUnlocked s).fab.role = 2 || !inService (timeUnlocked s) ||
      (timeUnlocked s).module.state = .fenced) = false := by
    simp [hf', hi', hm, hs, hfab, hr]
  simp only [beaconSilence, hg, hp', hq, hb, Bool.not_true, Bool.false_eq_true, if_false, if_true, splitDetected]

end

theorem seniorCandidate_congr {s t : State} (hc : t.cfg = s.cfg) (ha : t.fab.alive = s.fab.alive) (hs : s.fab.beaconAt.isSome = true)
    (ht : t.fab.beaconAt.isSome = true) : seniorCandidate t = seniorCandidate s := by
  simp only [seniorCandidate, cfgv_congr hc, ha, hs, ht, Bool.true_or, if_true]

/-- A module that is no candidate waits. -/
theorem trySucceed_none {s : State} (h : candidateOf s (ownMid s) = 0) : trySucceed s = s := if_pos h

/-- Without a witness the senior candidate takes the next term. -/
theorem trySucceed_senior {s : State} (h : candidateOf s (ownMid s) ≠ 0) (hw : cfgv s 0x4102 1 = 0) (hs : seniorCandidate s = ownMid s) :
    trySucceed s = becomeMaster s (s.fab.term + 1) := by
  simp [trySucceed, h, hw, hs]

theorem witnessUnreachableFence_fences {t0 : Nat} {s : State} (hf : fabricOn s = true) (hp : s.fab.splitAt = some t0)
    (ht : t0 + 20000000 ≤ s.now) (hw : cfgv s 0x4102 1 ≠ 0) (hc : candidateOf s (ownMid s) ≠ 0) (hr : s.fab.role ≠ 2)
    (ha : s.fab.claimAt = none) (hh : witnessHeard s = false) (hs : s.module.state = .service ∨ s.module.state = .degraded) :
    (witnessUnreachableFence s).module.state = .fenced ∧
      (witnessUnreachableFence s).fab.splitCount = (s.fab.splitCount + 1) % 2 ^ 32 := by
  have he : witnessUnreachableFence s = fencedEntry (event s 0x0505 0 0) 2 := by
    simp [witnessUnreachableFence, hf, hp, hw, hc, hr, ha, hh, elapsedOpt, Machine.ms, ht]
  obtain ⟨hst, a, r, hfab⟩ := fencedEntry_fences (s := event s 0x0505 0 0) (by rwa [event_module]) 2
  rw [he, hfab, event_fab]
  exact ⟨hst, rfl⟩

theorem highestTerm_congr {s t : State} (h : t.fab = s.fab) : highestTerm t = highestTerm s := by
  simp only [highestTerm, h]

/-- MASTER_FORCE takes the role in FENCED, under a term above every one that is known, and leaves FENCED. -/
theorem actMasterForce_takes {s : State} (hs : s.module.state = .fenced) :
    (actMasterForce s).fab.role = 2 ∧ (actMasterForce s).fab.term = highestTerm s + 1 ∧
      (actMasterForce s).fab.master = some (ownMid s) ∧ (actMasterForce s).module.state ≠ .fenced := by
  have hm : (becomeMaster (event s 0x0515 0 (at_ 32 (highestTerm s + 1))) (highestTerm s + 1)).module.state = .fenced := by
    simp only [becomeMaster, event_module, hs]
  obtain ⟨hst, a, r, hfab⟩ := fencedExit_leaves hm
  simp only [actMasterForce]
  rw [hfab, becomeMaster_fab, ownMid_congr (event_cfg ..)]
  exact ⟨rfl, rfl, rfl, hst⟩

theorem masterForce_takes {sess : Nat} {s : State} (h : MayAct s sess 0x4106 1 1) (hs : s.module.state = .fenced)
    (hc : candidateOf s (ownMid s) ≠ 0) (hf : fabricOn s = true) :
    Leaves (.masterForce sess 1) s fun t => t.fab.role = 2 ∧ t.fab.term = highestTerm s + 1 ∧ t.fab.master = some (ownMid s) ∧
      t.module.state ≠ .fenced := by
  refine ⟨_, rfl, ?_⟩
  rw [actWrite_done h (by simp [hs, hc, hf])]
  have hj := actMasterForce_takes (s := journalAction s sess 0x4106 1 1) (by rw [journalAction_module]; exact hs)
  rw [highestTerm_congr (journalAction_fab ..), ownMid_congr (journalAction_cfg ..)] at hj
  exact hj

/-- Settles O21, a lemma for each command. -/
theorem fabricMaster : Obligations.FabricMaster := by
  unfold Obligations.FabricMaster
  refine ⟨fun path u n s hr hf hn hp hq _ => ⟨masterDiscovery s, rfl, masterDiscovery_asks hr hf hn hp hq⟩,
    fun s hr hd hm => ⟨tableRecompute s, rfl, tableRecompute_alone hr hd hm⟩,
    fun m u x s h hu hr ht hx => ⟨fabricCtlHeartbeatReceive s, rfl, fabricCtlHeartbeatReceive_hears h hu hr ht hx⟩,
    fun m u s h hu hr hk => ⟨memberReportReceive s, rfl, ?_⟩,
    fun m r v s h hq hr hc hs hv => ⟨fabricCtlResponse s, rfl, ?_⟩,
    fun r s hr hm ht hw ho => ⟨heartbeatSilence s, rfl, ?_⟩,
    fun t0 s hf hr hp h0 ht hi hs hc => ⟨beaconSilence s, rfl, ?_⟩,
    fun t0 s hf hr hp h0 ht hi hs hc hw hsc => ⟨beaconSilence s, rfl, ?_⟩,
    fun k ident s hk ht hw => ⟨leaseRenew s, rfl, leaseRenew_renews hk ht hw⟩,
    fun m s h hs => ⟨leaseResp s, rfl, leaseResp_renewed h hs⟩,
    fun m s h hs hc hf => ⟨claimResp s, rfl, claimResp_won h hs hc hf⟩,
    fun t0 s hf hp ht hw hc hr ha hh hs => ⟨witnessUnreachableFence s, rfl, witnessUnreachableFence_fences hf hp ht hw hc hr ha hh hs⟩,
    fun sess s h hs hc hf => masterForce_takes h hs hc hf⟩
  · dsimp only
    rw [memberReport_linkLost h hu hr hk]
    exact ⟨recomputeDue_isSome _, rfl, rfl⟩
  · dsimp only
    rw [fabricCtlResponse_assigned h hq hr hc hs hv, ctlRequest_fab]
    exact ⟨rfl, rfl⟩
  · dsimp only
    rw [heartbeatSilence_stays hr hm ht hw ho, recomputeDue, silentRemoved_fab]
    exact ⟨rfl, hr⟩
  · have hcfg := splitDetected_cfg s
    dsimp only
    rw [beaconSilence_splits hr h0 ht hf hp hi hs, trySucceed_none (by rw [candidateOf_congr hcfg, ownMid_congr hcfg, hc]),
      splitDetected_fab hr h0 ht]
  · have hcfg := splitDetected_cfg s
    have hfab := splitDetected_fab hr h0 ht
    have hsen : seniorCandidate (splitDetected s) = ownMid (splitDetected s) := by
      rw [seniorCandidate_congr (s := s) hcfg (by rw [hfab]) (by rw [h0]; rfl) (by rw [hfab, h0]; rfl), hsc, ownMid_congr hcfg]
    dsimp only
    rw [beaconSilence_splits hr h0 ht hf hp hi hs, trySucceed_senior (by rwa [candidateOf_congr hcfg, ownMid_congr hcfg])
      (by rwa [cfgv_congr hcfg]) hsen, becomeMaster_fab, ownMid_congr hcfg, hfab]
    exact ⟨rfl, rfl, rfl⟩

end Sys2Proof.Scope
end

section
/-!
Messages between neighbours (R193, R194, R196, R197, R214, R217, R263): probes, beacons and directed messages, and fabric time at the master and
at its pins.
-/

namespace Sys2Proof.Scope

open Sys2Proof.Machine Sys2Proof.Laws

/-! ### Probes (R193) -/

theorem linkProbeSend_sends {p : Port} {t0 : Nat} {s : State} (hu : linkUp s p = true) (hp : Tbl.find? s.fab.probeAt p = some t0)
    (ht : t0 + 1000000 ≤ s.now) : (linkProbeSend p s).fab = { s.fab with
      probesSent := Tbl.set s.fab.probesSent p ((Tbl.get s.fab.probesSent p 0 + 1) % 2 ^ 32)
      probeAt := Tbl.set s.fab.probeAt p s.now } := by
  have hd : elapsed s t0 Machine.ms = true := by simp [elapsed, Machine.ms, ht]
  simp only [linkProbeSend, hu, hp, hd, Bool.and_self, Bool.not_true, Bool.false_eq_true, if_false, launchPort_fab]

/-- The state in which an operation has been taken from the ports. -/
def portTaken (s : State) (r : Nat × WireOp) : State := { s with fab := { s.fab with inbox := s.fab.inbox.erase r } }

theorem takePort_of_found {s : State} {f : WireOp → Bool} {p : Nat} {o : WireOp} (h : s.fab.inbox.find? (fun r => f r.2) = some (p, o)) :
    takePort s f = some (portTaken s (p, o), p, o) := by
  simp only [takePort, h, portTaken]

/-- What a probe leads to takes no probe back and nothing from the ports. -/
def HeardKept (s t : State) : Prop := t.fab.probes = s.fab.probes ∧ t.fab.inbox = s.fab.inbox

theorem HeardKept.refl (s : State) : HeardKept s s := ⟨rfl, rfl⟩

theorem HeardKept.trans {s t u : State} (h : HeardKept s t) (k : HeardKept t u) : HeardKept s u := ⟨k.1.trans h.1, k.2.trans h.2⟩

theorem HeardKept.of_fab {s t : State} (h : t.fab = s.fab) : HeardKept s t := by
  constructor <;> rw [h]

theorem HeardKept.ite {s t u : State} {c : Prop} [Decidable c] (h : HeardKept s t) (k : HeardKept s u) : HeardKept s (if c then t else u) := by
  split
  · exact h
  · exact k

theorem HeardKept.foldl {α : Type} {f : State → α → State} (h : ∀ u a, HeardKept u (f u a)) (l : List α) (s : State) :
    HeardKept s (l.foldl f s) := by
  induction l generalizing s with
  | nil => exact .refl s
  | cons a l ih => exact (h s a).trans (ih (f s a))

theorem event_heard (s : State) (code inst info : Nat) : HeardKept s (event s code inst info) := .of_fab (event_fab ..)

theorem ctlToMaster_heard (s : State) (code : Nat) (data : List Byte) : HeardKept s (ctlToMaster s code data) := by
  constructor <;> rw [ctlToMaster_fab]

theorem memberReport_heard (s : State) (kind port mid term : Nat) : HeardKept s (memberReport s kind port mid term) :=
  .ite ⟨rfl, rfl⟩ (ctlToMaster_heard ..)

theorem pathRestored_heard (s : State) (p : Nat) : HeardKept s (pathRestored s p) := by
  unfold pathRestored
  extract_lets _ t
  have ht : HeardKept s t := ⟨rfl, rfl⟩
  refine .ite ((ht.trans (event_heard t _ _ _)).trans (memberReport_heard ..)) (.ite ?_ (.refl s))
  exact .trans (t := { s with fab := { s.fab with joined := s.fab.joined ++ [p] } }) ⟨rfl, rfl⟩ (memberReport_heard ..)

theorem pathRemoved_heard (s : State) (p cause : Nat) : HeardKept s (pathRemoved s p cause) := by
  unfold pathRemoved
  extract_lets had _ t u lost
  have ht : HeardKept s t := ⟨rfl, rfl⟩
  have hu : HeardKept s u := ht.trans (event_heard t _ _ _)
  exact .ite (.refl s) ((hu.trans (memberReport_heard ..)).trans (.foldl (fun _ _ => memberReport_heard ..) lost _))

theorem dropQueue_fab (s : State) (p : Nat) : (dropQueue s p).fab = s.fab :=
  (dropQueue_keeps (mk := 7365504) (.refl s) (by decide)).fab (by decide)

theorem probesStopped_heard (s : State) (p : Nat) : HeardKept s (probesStopped s p) :=
  .ite ((pathRemoved_heard s p 0).trans (.of_fab (dropQueue_fab ..))) (.refl s)

theorem probeActs_heard (s : State) (p : Nat) (old : Option Probe) (x : Probe) : HeardKept s (probeActs s p old x) := by
  unfold probeActs
  extract_lets changed t same was u v other k _
  have ht : HeardKept s t := .ite (event_heard ..) (.refl s)
  have hu : HeardKept t u := .ite (event_heard ..) (.refl t)
  have hv : HeardKept u v := .ite (pathRestored_heard ..) (probesStopped_heard ..)
  refine (ht.trans (hu.trans hv)).trans (.ite (.ite (.refl v) ?_) ?_)
  · exact .trans (t := { v with fab := { v.fab with fencedReported := v.fab.fencedReported ++ [k] } }) ⟨rfl, rfl⟩ (memberReport_heard ..)
  · exact ⟨rfl, rfl⟩

theorem twinCheck_heard (s : State) : HeardKept s (twinCheck s) := by
  obtain ⟨a, r, h⟩ := twinCheck_fab s
  constructor <;> rw [h]

theorem linkProbeReceive_takes {p : Nat} {o : WireOp} {s : State} (h : s.fab.inbox.find? (fun r => envTyp r.2 = 12) = some (p, o)) :
    Tbl.find? (linkProbeReceive s).fab.probes p = some (probeOf s (leNat o.body)) ∧
      (linkProbeReceive s).fab.inbox = s.fab.inbox.erase (p, o) := by
  simp only [linkProbeReceive, takePort_of_found (f := fun o => envTyp o = 12) h]
  generalize hu : ({ count (portTaken s (p, o)) _ 1 with fab := _ } : State) = u
  have hp : u.fab.probes = Tbl.set s.fab.probes p (probeOf s (leNat o.body)) := by rw [← hu, count_fab]; rfl
  have hi : u.fab.inbox = s.fab.inbox.erase (p, o) := by rw [← hu, count_fab]; rfl
  obtain ⟨h1, h2⟩ := (probeActs_heard u p (Tbl.find? (portTaken s (p, o)).fab.probes p) (probeOf (portTaken s (p, o)) (leNat o.body))).trans
    (twinCheck_heard _)
  rw [h1, h2, hp, hi]
  exact ⟨Tbl.find?_set_same .., rfl⟩

/-! ### Directed messages (R196, R197) -/

section
variable {p : Port} {o : WireOp} {m : CtlMsg} {s : State} (h : s.fab.inbox.find? (fun r => isDirected r.2) = some (p.val, o))
  (hm : ctlMsgOf o.body (envSrc o / 128) p = m)
include h hm

theorem directedMsgForward_response (hr : m.response = true) (hi : pathIdx m = 0) :
    directedMsgForward s = ctlDelivered (portTaken s (p.val, o)) p o m := by
  simp only [directedMsgForward, takePort_of_found h, hm, hr, hi, if_true]

theorem directedMsgForward_request (hr : m.response = false) : directedMsgForward s =
    (let n := withPath m (pathIdx m) (pathIdx m - 1) p
     if pathLen n ≤ pathIdx m then ctlDelivered (portTaken s (p.val, o)) p o n
     else if linkUp s (pathSlot n (pathIdx m)) then
       launchPort (portTaken s (p.val, o)) (pathSlot n (pathIdx m)) { o with body := (withPath n (pathIdx m + 1) 6 0).bytes }
     else ctlBack (portTaken s (p.val, o)) n.peer { n with response := true, status := 1, data := n.data.take 8 }) := by
  simp only [directedMsgForward, takePort_of_found h, hm, hr, Bool.false_eq_true, if_false]
  rfl

end

/-- The way that a message has come is written behind the length of its path. -/
theorem pathLen_withPath (m : CtlMsg) (i slot v : Nat) : pathLen (withPath m i slot v) = pathLen m := by
  simp only [pathLen, withPath, leAt, List.drop_zero]
  split
  · rw [List.take_set_of_le (by omega), List.take_set_of_le (by omega)]
  · rw [List.take_set_of_le (by omega)]

/-- An opened message goes to the treadle, with the port it came by. -/
theorem ctlDelivered_opened {s : State} {p : Nat} {o : WireOp} {m r : CtlMsg}
    (h : (if m.response && m.status = 1 && m.data.length = 8 then some m else openDirected s (directedPeer s m) m) = some r) :
    (ctlDelivered s p o m).fab.ctl = s.fab.ctl ++ [{ r with port := p }] ∧ (ctlDelivered s p o m).fab.inbox = s.fab.inbox := by
  simp only [ctlDelivered, h]
  split <;> exact ⟨rfl, rfl⟩

section
variable {p : Port} {o : WireOp} {m : CtlMsg} {s : State} (h : s.fab.inbox.find? (fun r => isDirected r.2) = some (p.val, o))
  (hm : ctlMsgOf o.body (envSrc o / 128) p = m)
include h hm

theorem directedMsgForward_forwards (hr : m.response = false) (hi : pathIdx m < pathLen m)
    (hu : linkUp s (pathSlot (withPath m (pathIdx m) (pathIdx m - 1) p) (pathIdx m)) = true) :
    directedMsgForward s = launchPort (portTaken s (p.val, o)) (pathSlot (withPath m (pathIdx m) (pathIdx m - 1) p) (pathIdx m))
      { o with body := (withPath (withPath m (pathIdx m) (pathIdx m - 1) p) (pathIdx m + 1) 6 0).bytes } := by
  rw [directedMsgForward_request h hm hr]
  dsimp only
  rw [pathLen_withPath, if_neg (Nat.not_le.mpr hi), if_pos hu]

theorem directedMsgForward_opens {r : CtlMsg} (hr : m.response = false) (hi : pathLen m ≤ pathIdx m)
    (ho : openDirected s (directedPeer s (withPath m (pathIdx m) (pathIdx m - 1) p)) (withPath m (pathIdx m) (pathIdx m - 1) p) = some r) :
    (directedMsgForward s).fab.ctl = s.fab.ctl ++ [{ r with port := p.val }] ∧
      (directedMsgForward s).fab.inbox = s.fab.inbox.erase (p.val, o) := by
  have hn : (withPath m (pathIdx m) (pathIdx m - 1) p).response = false := hr
  rw [directedMsgForward_request h hm hr]
  dsimp only
  rw [pathLen_withPath, if_pos hi]
  refine ctlDelivered_opened (s := portTaken s (p.val, o)) ?_
  rw [hn]
  exact ho

/-- A refusal on the way is delivered as it stands. -/
theorem directedMsgForward_refusal (hr : m.response = true) (hi : pathIdx m = 0) (hs : m.status = 1) (hl : m.data.length = 8) :
    (directedMsgForward s).fab.ctl = s.fab.ctl ++ [{ m with port := p.val }] ∧
      (directedMsgForward s).fab.inbox = s.fab.inbox.erase (p.val, o) := by
  rw [directedMsgForward_response h hm hr hi]
  exact ctlDelivered_opened (s := portTaken s (p.val, o)) (by simp [hr, hs, hl])

end

/-! ### Beacons (R194, R214, R263) -/

/-- The fabric block but for the number of the next beacon. -/
def unsequenced (s : State) : FabBlk := { s.fab with beaconSeq := 0 }

theorem beaconOut_unsequenced (s : State) (p w : Nat) : unsequenced (beaconOut s p w) = unsequenced s := by
  unfold beaconOut
  split
  · rfl
  · simp only [unsequenced, launchPort_fab]

theorem beaconSend_sends {s : State} (ht : s.fab.beaconSentAt + 1000000 ≤ s.now) (hf : fabricOn s = true) (hr : s.fab.role = 2)
    (hs : s.module.state ≠ .fenced) : unsequenced (beaconSend s) =
      { unsequenced s with beaconSentAt := s.now, alive := aliveCandidates s } := by
  have he : elapsed s s.fab.beaconSentAt Machine.ms = true := by simp [elapsed, Machine.ms, ht]
  have hc : (fabricOn s && s.fab.role = 2 && s.module.state ≠ .fenced) = true := by simp [hf, hr, hs]
  simp only [beaconSend, he, hc, Bool.not_true, Bool.false_eq_true, if_false, if_true]
  exact foldl_stands (g := unsequenced) (fun u p => beaconOut_unsequenced u p _) _ _

theorem deriveLinkKey_known {s : State} {p : Nat} {k : List Byte} (h : Tbl.find? s.shu.linkKeys p = some k) : deriveLinkKey s p = s := by
  simp [deriveLinkKey, h]

section
variable {p : Port} {o : WireOp} {k : List Byte} {s : State} (h : s.fab.inbox.find? (fun r => envTyp r.2 = 14) = some (p.val, o))
  (hk : Tbl.find? s.shu.linkKeys p = some k)
include h hk

/-- A wrong tag is counted and told, and the beacon dropped. -/
theorem beaconReceive_wrongTag (ht : beaconTagOk k o = false) :
    (beaconReceive s).fab = { s.fab with inbox := s.fab.inbox.erase (p.val, o) } ∧ (beaconReceive s).ft = s.ft := by
  have hk' : Tbl.find? (portTaken s (p.val, o)).shu.linkKeys p = some k := hk
  simp only [beaconReceive, takePort_of_found (f := fun o => envTyp o = 14) h, deriveLinkKey_known hk', count_shu, hk', ht, Bool.not_false,
    if_true, event_fab, count_fab, event_ft, count_ft]
  exact ⟨rfl, rfl⟩

theorem beaconReceive_rightTag (ht : beaconTagOk k o = true) (hf : fabricOn s = true) (hi : bits (leNat o.body) 96 32 = cfgv s 0x4100 2) :
    beaconReceive s = memberBeacon (count (portTaken s (p.val, o)) (ctrPort p 17) 1) p (leNat o.body) := by
  have hk' : Tbl.find? (portTaken s (p.val, o)).shu.linkKeys p = some k := hk
  have hf' : fabricOn (count (portTaken s (p.val, o)) (ctrPort p 17) 1) = true := (fabricOn_congr (count_cfg ..)).trans hf
  have hi' : bits (leNat o.body) 96 32 = cfgv (count (portTaken s (p.val, o)) (ctrPort p 17) 1) 0x4100 2 :=
    hi.trans (cfgv_congr (count_cfg (portTaken s (p.val, o)) ..) 0x4100 2).symm
  have hc : (fabricOn (count (portTaken s (p.val, o)) (ctrPort p 17) 1) &&
      bits (leNat o.body) 96 32 = cfgv (count (portTaken s (p.val, o)) (ctrPort p 17) 1) 0x4100 2) = true := by
    simp [hf', ← hi']
  simp only [beaconReceive, takePort_of_found (f := fun o => envTyp o = 14) h, deriveLinkKey_known hk', count_shu, hk', ht, hc, Bool.not_true,
    Bool.false_eq_true, if_false, if_true]

end

/-- Whom a member follows, and since when. -/
def allegiance (s : State) : Option Nat × Nat × Nat × Option Nat := (s.fab.master, s.fab.term, s.fab.role, s.fab.beaconAt)

theorem allegiance_congr {s t : State} (h : t.fab = s.fab) : allegiance t = allegiance s := by
  simp only [allegiance, h]

theorem lockCheck_allegiance (s : State) (off : Int) : allegiance (lockCheck s off) = allegiance s := by
  simp only [lockCheck, apply_ite allegiance]
  simp only [allegiance, event_fab, ite_self]

theorem juniorStepped_fab (s : State) : (juniorStepped s).fab = s.fab := (juniorStepped_keeps (mk := 2048) (.refl s) (by decide)).fab (by decide)

theorem followTime_allegiance (s : State) (p tTx : Nat) : allegiance (followTime s p tTx) = allegiance s := by
  unfold followTime
  extract_lets off _ t step _ u _ v
  split
  · have hv : allegiance v = allegiance s := (allegiance_congr (event_fab ..)).trans rfl
    exact (allegiance_congr (juniorStepped_fab _)).trans ((lockCheck_allegiance v off).trans hv)
  · exact lockCheck_allegiance _ _

theorem beaconOut_allegiance (s : State) (p w : Nat) : allegiance (beaconOut s p w) = allegiance s := by
  have h := congrArg (fun f : FabBlk => (f.master, f.term, f.role, f.beaconAt)) (beaconOut_unsequenced s p w)
  exact h

theorem followMaster_fab (s : State) (m term : Nat) : ∃ i f, (followMaster s m term).fab = { s.fab with
    master := some m, term := term, role := 1, splitAt := none, claimAt := none, high := max s.fab.high term, importsTold := i
    fencedReported := f } := by
  unfold followMaster
  extract_lets new _ t
  split
  · exact ⟨_, _, event_fab ..⟩
  · exact ⟨_, _, rfl⟩

/-- A beacon that a member may follow gives it its master and its term. -/
theorem memberBeacon_follows {s : State} {p w : Nat} (hr : s.fab.role ≠ 2) (ht : s.fab.term ≤ bits w 160 32)
    (hm : s.fab.master = none ∨ s.module.state = .fenced ∧ s.fab.term < bits w 160 32) :
    allegiance (memberBeacon s p w) = (some (bits w 0 10), bits w 160 32, 1, some s.now) := by
  have hg : (s.fab.role = 2 || bits w 160 32 < s.fab.term || (s.fab.term < bits w 160 32 &&
      !(s.fab.master.isNone || s.fab.master = some (bits w 0 10) || s.fab.splitAt.isSome || s.module.state = .fenced)) ||
      (bits w 160 32 = s.fab.term && s.fab.master.isSome && s.fab.master ≠ some (bits w 0 10))) = false := by
    have hl : ¬ bits w 160 32 < s.fab.term := Nat.not_lt.mpr ht
    rcases hm with hm | ⟨hm, hlt⟩
    · simp [hr, hl, hm]
    · simp [hr, hl, hm, hlt.ne']
  have hn : (followMaster s (bits w 0 10) (bits w 160 32)).now = s.now :=
    (followMaster_keeps (mk := 7365632) (.refl s) (by decide)).now
  obtain ⟨i, f, hfab⟩ := followMaster_fab s (bits w 0 10) (bits w 160 32)
  unfold memberBeacon
  extract_lets term m free t b _ u _ v x
  have hv : allegiance v = (some m, term, 1, some s.now) := by
    have e : allegiance v = (t.fab.master, t.fab.term, t.fab.role, some t.now) := rfl
    rw [e, hfab, hn]
  refine (congrArg allegiance (if_neg (Bool.eq_false_iff.mp hg))).trans ?_
  split
  · exact (foldl_stands (g := allegiance) (fun w q => beaconOut_allegiance w q _) _ _).trans ((followTime_allegiance ..).trans hv)
  · exact hv

/-! ### Fabric time (R217) -/

theorem ftSet_sets {sess v : Nat} {s : State} (h : MayAct s sess 0x2110 6 v) (hr : s.fab.role = 2) :
    Leaves (.ftSet sess v) s fun t => t.ft = v % 2 ^ 64 := by
  refine ⟨_, rfl, ?_⟩
  rw [actWrite_done h (if_pos hr)]
  rfl

/-- An edge in the first half of a second steers back to its start. -/
theorem ftPpsInEdge_steers {s : State} (hp : cfgOn s 0x2110 4 = true) (hr : s.fab.role = 2)
    (ht : s.ft % 1000000000 * 2 < 1000000000) : ftPpsInEdge s = { s with fab := { s.fab with
      offset := -(s.ft % 1000000000 : Nat), ppsLocked := true, steer := max (-200) (min 200 (-(s.ft % 1000000000 : Nat))) } } := by
  have ht' : s.ft % sec * 2 < sec := ht
  simp only [ftPpsInEdge, hp, hr, decide_true, Bool.and_self, if_true, if_pos ht']
  rfl

theorem ftPpsOutPulse_rises {s : State} (h : s.fab.ppsHigh = none) (hp : cfgOn s 0x2110 5 = true) (hr : coreRuns s = true)
    (ha : atSecond s = true) :
    ftPpsOutPulse s = { s with fab := { s.fab with ppsHigh := some s.now }, tx := s.tx ++ [.pin 1 0 true] } := by
  simp only [ftPpsOutPulse, h, hp, hr, ha, Bool.and_self, if_true, emit]

theorem ftPpsOutPulse_falls {t0 : Nat} {s : State} (h : s.fab.ppsHigh = some t0) (ht : t0 + 100000 ≤ s.now) :
    ftPpsOutPulse s = { s with fab := { s.fab with ppsHigh := none }, tx := s.tx ++ [.pin 1 0 false] } := by
  have he : elapsed s t0 (100 * us) = true := by simp [elapsed, us, ht]
  simp only [ftPpsOutPulse, h, he, if_true, emit]

/-- Settles O19, a lemma for each command. -/
theorem fabricLinkMessages : Obligations.FabricLinkMessages := by
  unfold Obligations.FabricLinkMessages
  refine ⟨fun p t0 s hu hp ht => ⟨linkProbeSend p s, rfl, ?_⟩,
    fun p o s h => ⟨linkProbeReceive s, rfl, linkProbeReceive_takes h⟩,
    fun s ht hf hr hs => ⟨beaconSend s, rfl, ?_⟩,
    fun p o k s h hk ht => ⟨beaconReceive s, rfl, beaconReceive_wrongTag h hk ht⟩,
    fun p o k s h hk ht hf hi hr hm hl => ⟨beaconReceive s, rfl, ?_⟩,
    fun p o m s h hm hr hi hu => ⟨directedMsgForward s, rfl, directedMsgForward_forwards h hm hr hi hu⟩,
    fun p o m s h hm hr hi hs hl => ⟨directedMsgForward s, rfl, directedMsgForward_refusal h hm hr hi hs hl⟩,
    fun p o m r s h hm hr hi ho => ⟨directedMsgForward s, rfl, directedMsgForward_opens h hm hr hi ho⟩,
    fun sess v s h hr => ftSet_sets h hr,
    fun s hp hr ht => ⟨ftPpsInEdge s, rfl, ?_⟩,
    fun s h hp hr ha => ⟨ftPpsOutPulse s, rfl, ftPpsOutPulse_rises h hp hr ha⟩,
    fun t0 s h ht => ⟨ftPpsOutPulse s, rfl, ftPpsOutPulse_falls h ht⟩⟩
  · dsimp only
    rw [linkProbeSend_sends hu hp ht]
    exact ⟨Tbl.get_set_same .., Tbl.find?_set_same .., rfl⟩
  · have h := congrArg (fun f : FabBlk => (f.beaconSentAt, f.term, f.role)) (beaconSend_sends ht hf hr hs)
    simp only [unsequenced, hr, Prod.mk.injEq] at h
    exact h
  · dsimp only
    rw [beaconReceive_rightTag h hk ht hf hi]
    have ha := memberBeacon_follows (s := count (portTaken s (p.val, o)) (ctrPort p 17) 1) (p := p) (w := leNat o.body)
      (by rw [count_fab]; exact hr) (by rw [count_fab]; exact hl) (by rw [count_fab, count_module]; exact hm)
    rw [count_now] at ha
    simp only [allegiance, Prod.mk.injEq] at ha
    exact ha
  · dsimp only
    rw [ftPpsInEdge_steers hp hr ht]
    exact ⟨rfl, rfl⟩

end Sys2Proof.Scope
end

section
/-!
The order of sequence numbers (R242).
-/

namespace Sys2Proof.Scope

open Sys2Proof.Machine

/-- On words of 32 bits, the distance that the order looks at is their difference. -/
theorem seqBefore_toNat (s t : BitVec 32) : seqBefore s.toNat t.toNat = decide (1 ≤ (t - s).toNat ∧ (t - s).toNat ≤ 2 ^ 31) := by
  have hd : (t.toNat + 2 ^ 32 - s.toNat) % 2 ^ 32 = (t - s).toNat := by
    rw [BitVec.toNat_sub]
    congr 1
    have := s.isLt
    omega
  simp only [seqBefore, hd, Bool.decide_and]

/-- Settles O57: the order is that of the difference, and a shift of both numbers leaves their difference. -/
theorem sequenceOrder : Obligations.SequenceOrder := by
  unfold Obligations.SequenceOrder
  refine ⟨fun s t => ?_, fun s t k => ?_⟩
  · rw [seqBefore_toNat, decide_eq_true_iff]
  · have hd : t + k - (s + k) = t - s := add_sub_add_right_eq_sub t s k
    rw [seqBefore_toNat, seqBefore_toNat, hd]

end Sys2Proof.Scope
end

section
/-!
The rules of the shuttle's shared operations (R236, R243, R251, R260): what a connection's context is after an operation has been sent on
it or a request started, and what sending leaves of the ledger and of what waits.
-/

namespace Sys2Proof.Scope

open Sys2Proof.Machine Sys2Proof.Laws

-- One declaration at a time: side by side their threads are too much for the memory limit of the check.
set_option Elab.async false

/-! ### Operations of other blocks leave the shuttle alone -/

@[simp] theorem freeChain_shu (s : State) (id : Nat) : (freeChain s id).shu = s.shu :=
  (freeChain_keeps (mk := allBut .shu) (.refl s) (by decide)).shu (by decide)

@[simp] theorem freeOpt_shu (s : State) (chain : Option Nat) : (freeOpt s chain).shu = s.shu :=
  (freeOpt_keeps (mk := allBut .shu) (.refl s) (by decide)).shu (by decide)

@[simp] theorem addRef_shu (s : State) (id : Nat) : (addRef s id).shu = s.shu :=
  (addRef_keeps (mk := allBut .shu) (.refl s) (by decide)).shu (by decide)

@[simp] theorem ledgerRelease_shu (s : State) (l chain : Nat) : (ledgerRelease s l chain).shu = s.shu :=
  (ledgerRelease_keeps (mk := allBut .shu) (.refl s) (by decide)).shu (by decide)

@[simp] theorem drawMark_shu (s : State) (d tc : Nat) : (drawMark s d tc).1.shu = s.shu :=
  (drawMark_keeps (mk := allBut .shu) (.refl s) (by decide)).shu (by decide)

@[simp] theorem enqueueOper_shu (s : State) (d src chain bytes : Nat) (o : WireOp) (own : Option (Nat × Nat)) :
    (enqueueOper s d src chain bytes o own).shu = s.shu :=
  (enqueueOper_keeps (mk := allBut .shu) (.refl s) (by decide)).shu (by decide)

@[simp] theorem enqueueCopy_shu (s : State) (d bytes l cid : Nat) (o : WireOp) : (enqueueCopy s d bytes l cid o).shu = s.shu :=
  (enqueueCopy_keeps (mk := allBut .shu) (.refl s) (by decide)).shu (by decide)

@[simp] theorem noRoute_shu (s : State) (mid : Nat) : (noRoute s mid).shu = s.shu :=
  (noRoute_keeps (mk := allBut .shu) (.refl s) (by decide)).shu (by decide)

@[simp] theorem leaveActive_shu (s : State) (c : Nat) : (leaveActive s c).shu = s.shu := rfl

@[simp] theorem noteCompletion_shu (s : State) (c head seq : Nat) : (noteCompletion s c head seq).shu = s.shu := rfl

@[simp] theorem admFinish_shu (s : State) (c : AdmCmd) (status detail result : Nat) : (admFinish s c status detail result).shu = s.shu :=
  (admFinish_keeps (mk := allBut .shu) (.refl s) (by decide)).shu (by decide)

@[simp] theorem admSettled_shu (s : State) : (admSettled s).shu = s.shu :=
  (admSettled_keeps (mk := allBut .shu) (.refl s) (by decide)).shu (by decide)

@[simp] theorem openFailed_shu (s : State) (c status : Nat) : (openFailed s c status).shu = s.shu :=
  (openFailed_keeps (mk := allBut .shu) (.refl s) (by decide)).shu (by decide)

@[simp] theorem resetSettled_shu (s : State) (c status : Nat) : (resetSettled s c status).shu = s.shu :=
  (resetSettled_keeps (mk := allBut .shu) (.refl s) (by decide)).shu (by decide)

@[simp] theorem closeSettled_shu (s : State) (c : Nat) : (closeSettled s c).shu = s.shu :=
  (closeSettled_keeps (mk := allBut .shu) (.refl s) (by decide)).shu (by decide)

/-! ### Contexts and entries read back -/

theorem connOf_congr {s t : State} (h : t.shu.conns = s.shu.conns) (c : Nat) : connOf t c = connOf s c := by
  simp only [connOf, h]

theorem connOf_of_shu {s t : State} (h : t.shu = s.shu) (c : Nat) : connOf t c = connOf s c := connOf_congr (congrArg ShuBlk.conns h) c

@[simp] theorem connOf_count (s : State) (k n c : Nat) : connOf (count s k n) c = connOf s c := connOf_of_shu (count_shu ..) c

@[simp] theorem connOf_connEvent (s : State) (j code extra c : Nat) : connOf (connEvent s j code extra) c = connOf s c :=
  connOf_of_shu (connEvent_shu ..) c

@[simp] theorem connOf_resetSettled (s : State) (j status c : Nat) : connOf (resetSettled s j status) c = connOf s c :=
  connOf_of_shu (resetSettled_shu ..) c

@[simp] theorem connOf_leaveActive (s : State) (j c : Nat) : connOf (leaveActive s j) c = connOf s c := rfl

@[simp] theorem connOf_setEntry (s : State) (l : Nat) (e : LedgerEntry) (c : Nat) : connOf (setEntry s l e) c = connOf s c := rfl

theorem connOf_eq {s : State} {c : Nat} {x : Conn} (h : Tbl.find? s.shu.conns c = some x) : connOf s c = x := by
  simp [connOf, Tbl.get, h]

@[simp] theorem connOf_setConn (s : State) (c : Nat) (x : Conn) : connOf (setConn s c x) c = x := Tbl.get_set_same _ _ _ _

theorem connOf_setConn_ne (s : State) {c j : Nat} (x : Conn) (h : j ≠ c) : connOf (setConn s c x) j = connOf s j := by
  simp only [connOf, setConn, Tbl.get_set, if_neg h]

@[simp] theorem setConn_ledger (s : State) (c : Nat) (x : Conn) : (setConn s c x).shu.ledger = s.shu.ledger := rfl
@[simp] theorem setConn_waiting (s : State) (c : Nat) (x : Conn) : (setConn s c x).shu.waiting = s.shu.waiting := rfl
@[simp] theorem setConn_inbox (s : State) (c : Nat) (x : Conn) : (setConn s c x).shu.inbox = s.shu.inbox := rfl

@[simp] theorem setEntry_conns (s : State) (l : Nat) (e : LedgerEntry) : (setEntry s l e).shu.conns = s.shu.conns := rfl
@[simp] theorem setEntry_ledger (s : State) (l : Nat) (e : LedgerEntry) : (setEntry s l e).shu.ledger = Tbl.set s.shu.ledger l e := rfl
@[simp] theorem setEntry_waiting (s : State) (l : Nat) (e : LedgerEntry) : (setEntry s l e).shu.waiting = s.shu.waiting := rfl

theorem stampNow_congr {s t : State} (hf : t.ft = s.ft) (hc : t.cfg = s.cfg) : stampNow t = stampNow s := by
  simp only [stampNow, ageTick, hf, cfgv_congr hc]

/-! ### An operation sent (R260) -/

/-- Of the shuttle, an operation on its way changes only the inbox, when it is for this module itself. -/
theorem launch_shu (s : State) (c : Nat) (o : WireOp) : ∃ q, (launch s c o).shu = { s.shu with inbox := q } := by
  unfold launch
  split
  · exact ⟨_, rfl⟩
  · refine ⟨s.shu.inbox, ?_⟩
    split <;> simp

@[simp] theorem launch_conns (s : State) (c : Nat) (o : WireOp) : (launch s c o).shu.conns = s.shu.conns := by
  obtain ⟨q, h⟩ := launch_shu s c o
  rw [h]

@[simp] theorem launch_ledger (s : State) (c : Nat) (o : WireOp) : (launch s c o).shu.ledger = s.shu.ledger := by
  obtain ⟨q, h⟩ := launch_shu s c o
  rw [h]

@[simp] theorem launch_waiting (s : State) (c : Nat) (o : WireOp) : (launch s c o).shu.waiting = s.shu.waiting := by
  obtain ⟨q, h⟩ := launch_shu s c o
  rw [h]

/-- An operation for another module passes the own inbox by. -/
theorem launch_inbox {s : State} {o : WireOp} (h : isOwnMid s (envDst o / 128) = false) (c : Nat) :
    (launch s c o).shu.inbox = s.shu.inbox := by
  unfold launch
  rw [if_neg (by simp [h])]
  split <;> simp

@[simp] theorem connOf_launch (s : State) (c : Nat) (o : WireOp) (j : Nat) : connOf (launch s c o) j = connOf s j :=
  connOf_congr (launch_conns s c o) j

/-- A context after a control operation has been sent on it: one count more, if it has a key. -/
def counted (x : Conn) : Conn := { x with ctlTx := if x.keys.isSome then x.ctlTx + 1 else x.ctlTx }

theorem counted_keyless {x : Conn} (h : x.keys = none) : counted x = x := by
  cases x
  simp only at h
  subst h
  rfl

theorem counted_keyed {x : Conn} {k : KeySet} (h : x.keys = some k) : counted x = { x with ctlTx := x.ctlTx + 1 } := by
  simp [counted, h]

section
variable (s : State) (c cid typ word seq srcPort dstPort : Nat)

@[simp] theorem connOf_sendControl : connOf (sendControl s c cid typ word seq srcPort dstPort) c = counted (connOf s c) := by
  unfold sendControl
  dsimp only
  split
  · next h => exact (counted_keyless h).symm
  · next h => rw [connOf_launch, connOf_setConn, counted_keyed h]

theorem connOf_sendControl_ne {j : Nat} (h : j ≠ c) : connOf (sendControl s c cid typ word seq srcPort dstPort) j = connOf s j := by
  unfold sendControl
  dsimp only
  split
  · rfl
  · rw [connOf_launch, connOf_setConn_ne _ _ h]

@[simp] theorem sendControl_ledger : (sendControl s c cid typ word seq srcPort dstPort).shu.ledger = s.shu.ledger := by
  unfold sendControl
  dsimp only
  split
  · rfl
  · rw [launch_ledger, setConn_ledger]

@[simp] theorem sendControl_waiting : (sendControl s c cid typ word seq srcPort dstPort).shu.waiting = s.shu.waiting := by
  unfold sendControl
  dsimp only
  split
  · rfl
  · rw [launch_waiting, setConn_waiting]

end

/-! ### A request started (R236, R238) -/

/-- The request of a RESET or a REKEY of context `c`. -/
def newRequest (s : State) (c kind : Nat) (auto : Bool) : Exchange :=
  { kind := kind, epoch := ((connOf s c).keyEpoch + 1) % 65536, nonce := (drawn s).toNat % 2 ^ 64, firstSeq := (connOf s c).txNext
    since := s.now, sentAt := s.now, auto := auto }

/-- The request of a CLOSE of context `c`. -/
def closeRequest (s : State) (c : Nat) : Exchange := { kind := 2, epoch := (connOf s c).keyEpoch, since := s.now, sentAt := s.now }

@[simp] theorem connOf_sendRequest (s : State) (c : Nat) (e : Exchange) : connOf (sendRequest s c e) c = counted (connOf s c) :=
  connOf_sendControl ..

theorem connOf_startRequest {s : State} {c kind : Nat} (auto : Bool) (hk : kind ≠ 2) (hx : (connOf s c).exch = none)
    (he : s.vault.entropyOk = true) :
    connOf (startRequest s c kind auto) c = counted { connOf s c with exch := some (newRequest s c kind auto) } := by
  simp [startRequest, hk, hx, he, newRequest]

theorem connOf_startRequest_close (s : State) (c : Nat) (auto : Bool) :
    connOf (startRequest s c 2 auto) c = counted { connOf s c with exch := some (closeRequest s c) } := by
  simp [startRequest, closeRequest]

/-- A request of one context leaves the others. -/
theorem connOf_startRequest_ne (s : State) {c j : Nat} (kind : Nat) (auto : Bool) (h : j ≠ c) :
    connOf (startRequest s c kind auto) j = connOf s j := by
  unfold startRequest sendRequest
  dsimp only
  split
  · rfl
  · split
    · rw [connOf_sendControl_ne _ _ _ _ _ _ _ _ h, connOf_setConn_ne _ _ h]
    · split
      · rfl
      · rw [connOf_sendControl_ne _ _ _ _ _ _ _ _ h, connOf_setConn_ne _ _ h]
        rfl

theorem startRequest_txNext (s : State) (c kind : Nat) (auto : Bool) :
    (connOf (startRequest s c kind auto) c).txNext = (connOf s c).txNext := by
  unfold startRequest
  dsimp only
  split
  · rfl
  · split
    · simp [counted]
    · split
      · rfl
      · simp [counted]

@[simp] theorem startRequest_ledger (s : State) (c kind : Nat) (auto : Bool) :
    (startRequest s c kind auto).shu.ledger = s.shu.ledger := by
  unfold startRequest sendRequest
  dsimp only
  split
  · rfl
  · split
    · simp
    · split
      · rfl
      · simp

@[simp] theorem startRequest_waiting (s : State) (c kind : Nat) (auto : Bool) :
    (startRequest s c kind auto).shu.waiting = s.shu.waiting := by
  unfold startRequest sendRequest
  dsimp only
  split
  · rfl
  · split
    · simp
    · split
      · rfl
      · simp

end Sys2Proof.Scope
end

section
/-!
What the shuttle sends (R242 to R253): the parts of O22.
-/

namespace Sys2Proof.Scope

open Sys2Proof.Machine Sys2Proof.Laws

-- One declaration at a time: side by side their threads are too much for the memory limit of the check.
set_option Elab.async false

/-! ### Acceptance (R243) -/

/-- An unprotected connection is not mirrored. -/
theorem mirrors_off {s : State} {c : Nat} (h : (connOf s c).twin = false) : mirrors s c = false := by simp [mirrors, h]

theorem rekeyTrigger_txNext (s : State) (c : Nat) : (connOf (rekeyTrigger s c) c).txNext = (connOf s c).txNext := by
  unfold rekeyTrigger
  dsimp only
  split
  · exact startRequest_txNext ..
  · rfl

@[simp] theorem rekeyTrigger_ledger (s : State) (c : Nat) : (rekeyTrigger s c).shu.ledger = s.shu.ledger := by
  unfold rekeyTrigger
  dsimp only
  split
  · exact startRequest_ledger ..
  · rfl

@[simp] theorem rekeyTrigger_waiting (s : State) (c : Nat) : (rekeyTrigger s c).shu.waiting = s.shu.waiting := by
  unfold rekeyTrigger
  dsimp only
  split
  · exact startRequest_waiting ..
  · rfl

/-- What the acceptance of an operation in entry `l` leaves of the shuttle, from the state `s` to `t`. -/
def Accepted (op : NewOp) (l ch : Nat) (s t : State) : Prop :=
  (Tbl.find? t.shu.ledger l).map (fun e => (e.cid, e.seq, e.typ, e.sent, e.chain)) =
      some (op.cid, (connOf s op.cid).txNext, op.typ, false, ch) ∧
    (connOf t op.cid).txNext = ((connOf s op.cid).txNext + 1) % 2 ^ 32 ∧ t.shu.waiting = s.shu.waiting.erase op

theorem assign_accepted {s : State} {op : NewOp} {l ch : Nat} (hc : op.chain = some ch) (ht : (connOf s op.cid).twin = false) :
    Accepted op l ch s (assign (unwait s op) op l none) := by
  unfold assign
  extract_lets x seq asks tag op' h q s1 s2 e s3 _ s4 a s5 _ s6 s7 s8 s9 s10
  obtain ⟨hcid, htyp, hchain⟩ : op'.cid = op.cid ∧ op'.typ = op.typ ∧ op'.chain = op.chain := by
    unfold op'
    split <;> exact ⟨rfl, rfl, rfl⟩
  have hq : q = (unwait s op, ch) := by simp [q, hchain, hc]
  have h2 : s2.shu = (unwait s op).shu := by
    unfold s2
    split <;> simp [s1, hq]
  have h6 : s6 = s5 := by
    unfold s6
    split
    · contradiction
    · rfl
  have h9 : s9.shu = s5.shu := by simp [s9, s8, s7, h6, apply_ite State.shu]
  have hx : connOf s9 op'.cid = connOf s5 op'.cid := connOf_congr (congrArg ShuBlk.conns h9) _
  have h10 : s10 = s9 := by
    have hm : mirrors s9 op'.cid = false := mirrors_off (by rw [hx, connOf_setConn]; exact ht)
    simp [s10, hm]
  have hl : s5.shu.ledger = Tbl.set s2.shu.ledger l e := rfl
  refine ⟨?_, ?_, ?_⟩
  · rw [rekeyTrigger_ledger, h10, h9, hl, Tbl.find?_set_same]
    simp [e, hcid, htyp, hq, seq, x, unwait, connOf]
  · rw [← hcid, rekeyTrigger_txNext, h10, hx, connOf_setConn, hcid]
    rfl
  · rw [rekeyTrigger_waiting, h10, h9]
    exact congrArg ShuBlk.waiting h2

/-- An operation that takes neither a merge nor a posting-buffer entry is accepted in the lowest free ledger entry. -/
theorem takeUp_assign {s : State} {op : NewOp} {l : Nat} (ha : (connOf s op.cid).st = .active) (hm : mergeTarget s op = none)
    (hp : op.post = none) (hl : Tbl.firstFree s.shu.ledger 65536 = some l) : takeUp s op = assign (unwait s op) op l none := by
  simp [takeUp, ha, hm, postPlace, hp, hl]

section
variable {s : State} {op : NewOp} {l ch : Nat} (ha : (connOf s op.cid).st = .active) (ht : (connOf s op.cid).twin = false)
  (hm : mergeTarget s op = none) (hp : op.post = none) (hc : op.chain = some ch) (hl : Tbl.firstFree s.shu.ledger 65536 = some l)
include ha ht hm hp hc hl

theorem operationAccept_accepted (hw : nextWaiting (fun op => !op.told && takeable s op) s.shu.waiting [] = some op) :
    LeavesSettling (.operationAccept) s (Accepted op l ch s) := by
  refine ⟨operationAccept s, rfl, ?_⟩
  simp only [operationAccept, hw, takeUp_assign ha hm hp hl]
  exact assign_accepted hc ht

theorem deferredAccept_accepted
    (hw : nextWaiting (fun op => op.told && takeable s op && resourceFree s op) s.shu.waiting [] = some op) :
    LeavesSettling (.deferredAccept) s (Accepted op l ch s) := by
  refine ⟨deferredAccept s, rfl, ?_⟩
  simp only [deferredAccept, hw, takeUp_assign ha hm hp hl]
  exact assign_accepted hc ht

end

/-! ### Transmission (R245, R251) -/

/-- A ledger entry as its transmission at this time leaves it. -/
def transmitted (s : State) (e : LedgerEntry) : LedgerEntry :=
  { e with stamp := stampNow s, deadline := s.now + min (4000 * 2 ^ e.timeouts) 1000000, sent := true }

/-- Of the ledger and the contexts, a transmission changes the entry it sends. -/
theorem sendEntry_shu (s : State) (l : Nat) (e : LedgerEntry) :
    ∃ q, (sendEntry s l e).shu = { s.shu with ledger := Tbl.set s.shu.ledger l (transmitted s e), inbox := q } := by
  unfold sendEntry
  extract_lets e' u o n
  have hu : u.shu = { s.shu with ledger := Tbl.set s.shu.ledger l (transmitted s e) } := rfl
  split
  · split
    · exact ⟨_, rfl⟩
    · exact ⟨_, rfl⟩
  · refine ⟨s.shu.inbox, ?_⟩
    split
    · rw [noRoute_shu, hu]
    · split
      · rw [enqueueCopy_shu, hu]
      · rw [enqueueOper_shu, addRef_shu, hu]

theorem sendEntry_entry (s : State) (l : Nat) (e : LedgerEntry) : Tbl.find? (sendEntry s l e).shu.ledger l = some (transmitted s e) := by
  obtain ⟨q, h⟩ := sendEntry_shu s l e
  rw [h]
  exact Tbl.find?_set_same ..

theorem connOf_sendEntry (s : State) (l : Nat) (e : LedgerEntry) (c : Nat) : connOf (sendEntry s l e) c = connOf s c := by
  obtain ⟨q, h⟩ := sendEntry_shu s l e
  exact connOf_congr (by rw [h]) c

theorem transmitted_congr {s t : State} (hn : t.now = s.now) (hf : t.ft = s.ft) (hc : t.cfg = s.cfg) (e : LedgerEntry) :
    transmitted t e = transmitted s e := by
  simp only [transmitted, hn, stampNow_congr hf hc]

theorem operationFirstSend_sends {c : Cid} {l : Nat} {e : LedgerEntry} {s : State} (hu : firstUnsent s c = some (l, e))
    (hs : (connOf s c).st = .active ∨ (connOf s c).st = .closing) (ht : twinAllows s e = true)
    (ha : acquireAllows (connOf s c) e = true) (hk : keyAllows (connOf s c) e = true) (hw : windowAllows s c e = true)
    (hi : e.op.inst = none) :
    LeavesSettling (.operationFirstSend c) s fun t => Tbl.find? t.shu.ledger l = some (transmitted s e) := by
  have hst : (decide ((connOf s c).st = .active) || decide ((connOf s c).st = .closing)) = true := by simpa using hs
  refine ⟨operationFirstSend c s, rfl, ?_⟩
  unfold operationFirstSend
  simp -zeta only [hu, ht, hw, payBandwidth, hi]
  extract_lets x s1 s2 s3 _ s4
  have hsame : s4.now = s.now ∧ s4.ft = s.ft ∧ s4.cfg = s.cfg := by
    have h3 : s3.now = s.now ∧ s3.ft = s.ft ∧ s3.cfg = s.cfg := by
      unfold s3
      split <;> simp [s1]
    unfold s4
    split <;> exact h3
  obtain ⟨hn, hf, hc⟩ := hsame
  rw [if_pos (by simp [x, hst, ha, hk]), sendEntry_entry, transmitted_congr hn hf hc]

/-- A timeout has the direction's window at 65, and any later mark of congestion stands for what is in flight. -/
theorem timeoutCounts_conn (s : State) (c seq : Nat) :
    ∃ k p, connOf (timeoutCounts s c seq) c = { connOf s c with cwnd := 65, decSeq := (connOf s c).txNext, consecTo := k, pathOffset := p } := by
  unfold timeoutCounts
  extract_lets x s1 y p s2
  split
  · exact ⟨0, p, by simp [s2, y, x]⟩
  · exact ⟨y.consecTo + 1, y.pathOffset, by simp [y, x]⟩

theorem timeoutCounts_rest (s : State) (c seq : Nat) :
    (timeoutCounts s c seq).now = s.now ∧ (timeoutCounts s c seq).ft = s.ft ∧ (timeoutCounts s c seq).cfg = s.cfg := by
  unfold timeoutCounts
  dsimp only
  split <;> simp

theorem retransmitTimeout_resends {l : Fin 65536} {e : LedgerEntry} {s : State} (hl : Tbl.find? s.shu.ledger l = some e)
    (hs : e.sent = true) (hd : e.deadline ≤ s.now) (hlive : (connOf s e.cid).live = true)
    (hr : e.timeouts + 1 < (connOf s e.cid).retryLimit) :
    LeavesSettling (.retransmitTimeout l) s fun t =>
      Tbl.find? t.shu.ledger l = some (transmitted s { e with timeouts := e.timeouts + 1 }) ∧ (connOf t e.cid).cwnd = 65 ∧
        (connOf t e.cid).decSeq = (connOf s e.cid).txNext := by
  refine ⟨retransmitTimeout l s, rfl, ?_⟩
  unfold retransmitTimeout
  simp -zeta only [hl, hs, hd, hlive, and_self, if_true]
  extract_lets s1 e' s2
  obtain ⟨k, p, h1⟩ := timeoutCounts_conn s e.cid e.seq
  obtain ⟨hn, hf, hc⟩ : s2.now = s.now ∧ s2.ft = s.ft ∧ s2.cfg = s.cfg := timeoutCounts_rest s e.cid e.seq
  have hlim : ¬ (connOf s2 e.cid).retryLimit ≤ e'.timeouts := by
    rw [connOf_setEntry, h1]
    exact Nat.not_le.mpr hr
  rw [if_neg hlim]
  refine ⟨?_, ?_⟩
  · exact (sendEntry_entry ..).trans
      (congrArg some (transmitted_congr ((count_now ..).trans hn) ((count_ft ..).trans hf) ((count_cfg ..).trans hc) e'))
  · rw [connOf_sendEntry, connOf_count, connOf_setEntry, h1]
    exact ⟨rfl, rfl⟩

/-! ### Acknowledgements (R248) -/

theorem sendAck_conn (s : State) (c env : Nat) (cumOnly : Bool) :
    ∃ q, connOf (sendAck s c env cumOnly) c = counted { connOf s c with ceCount := 0, unacked := q } := by
  unfold sendAck
  extract_lets x seq cum run left s1 s2
  exact ⟨left, by rw [connOf_sendControl, connOf_count, connOf_setConn]⟩

theorem sendAck_ledger (s : State) (c env : Nat) (cumOnly : Bool) : (sendAck s c env cumOnly).shu.ledger = s.shu.ledger := by
  unfold sendAck
  dsimp only
  rw [sendControl_ledger, count_shu, setConn_ledger]

theorem ackSend_acknowledges {c : Cid} {k : KeySet} {u : Nat × Nat} {s : State} (hu : (connOf s c).unacked.getLast? = some u)
    (hlive : (connOf s c).live = true) (hk : (connOf s c).keys = some k)
    (hd : (connOf s c).unackedSince + 500 ≤ s.now ∨ cfgv s 0x4203 0 ≤ (connOf s c).unacked.length) :
    LeavesSettling (.ackSend c) s fun t => (connOf t c).ceCount = 0 ∧ (connOf t c).ctlTx = (connOf s c).ctlTx + 1 ∧
      (connOf t c).rxE = (connOf s c).rxE ∧ t.shu.ledger = s.shu.ledger := by
  have hdue : (elapsed s (connOf s c).unackedSince 500 || decide (cfgv s 0x4203 0 ≤ (connOf s c).unacked.length)) = true := by
    simpa [elapsed] using hd
  refine ⟨ackSend c s, rfl, ?_⟩
  obtain ⟨q, hc⟩ := sendAck_conn s c u.2 false
  simp only [ackSend, hu, hlive, hdue, Bool.and_self, if_true]
  rw [hc, counted_keyed (k := k) (by exact hk)]
  exact ⟨rfl, rfl, rfl, sendAck_ledger ..⟩

/-- Settles O22, a lemma for each command. -/
theorem shuttleSends : Obligations.ShuttleSends := by
  unfold Obligations.ShuttleSends
  exact ⟨fun _ _ _ _ hw ha ht hm hp hc hl => operationAccept_accepted ha ht hm hp hc hl hw,
    fun _ _ _ _ hw ha ht hm hp hc hl => deferredAccept_accepted ha ht hm hp hc hl hw,
    fun _ _ _ _ hu hs ht ha hk hw hi => operationFirstSend_sends hu hs ht ha hk hw hi,
    fun _ _ _ hl hs hd hlive hr => retransmitTimeout_resends hl hs hd hlive hr,
    fun _ _ _ _ hu hlive hk hd => ackSend_acknowledges hu hlive hk hd⟩

end Sys2Proof.Scope
end

section
/-!
The Admin commands on connections and the ledger (R239, R244, R304 to R306): the parts of O28.
-/

namespace Sys2Proof.Scope

open Sys2Proof.Machine Sys2Proof.Laws

-- One declaration at a time: side by side their threads are too much for the memory limit of the check.
set_option Elab.async false

/-! ### A command that starts (R306) -/

/-- Command `c` is the next of opcode `op` to start, and no earlier command on its object is in progress. -/
def Starts (s : State) (op : Nat) (c : AdmCmd) : Prop :=
  (admHeads s).find? (fun c => c.op = op && !admFull (admOf s c.vs) && !(admOf s c.vs).disabling) = some c ∧ admBusy (admDrop s c) c = false

theorem admStart_starts {s : State} {op : Nat} {c : AdmCmd} (h : Starts s op c) (f : State → AdmCmd → State) :
    admStart s op f = admSettled (f (admDrop s c) c) := by
  obtain ⟨hf, hb⟩ := h
  simp only [admStart, hf, hb]
  rfl

@[simp] theorem connOf_admSettled (s : State) (j : Nat) : connOf (admSettled s) j = connOf s j := connOf_of_shu (admSettled_shu s) j

@[simp] theorem connOf_admDone (s : State) (c : AdmCmd) (j : Nat) : connOf (admDone s c) j = connOf s j :=
  connOf_of_shu (admFinish_shu s c 0 0 0) j

@[simp] theorem connOf_admDrop (s : State) (c : AdmCmd) (j : Nat) : connOf (admDrop s c) j = connOf s j := rfl

@[simp] theorem connOf_admWait (s : State) (c : AdmCmd) (obj j : Nat) : connOf (admWait s c obj) j = connOf s j := rfl

@[simp] theorem admDrop_now (s : State) (c : AdmCmd) : (admDrop s c).now = s.now := rfl
@[simp] theorem admWait_now (s : State) (c : AdmCmd) (obj : Nat) : (admWait s c obj).now = s.now := rfl

theorem connStatus_admDrop (s : State) (c : AdmCmd) : connStatus (admDrop s c) c = connStatus s c := rfl

/-! ### CONN_OPEN (R237) -/

/-- The context of a connection that an owner opens. -/
def Opening (s : State) (mid tc : Nat) (twin auto : Bool) (retry kind owner : Nat) (x : Conn) : Prop :=
  x.st = .opening ∧ x.peerMid = mid ∧ x.tc = tc ∧ x.twin = twin ∧ x.autoResume = auto ∧ x.retryLimit = retry ∧ x.ownerKind = kind ∧
    x.ownerId = owner ∧ x.exch.map (fun e => (e.kind, e.openTime, e.since)) = some (1, s.ft % 2 ^ 48, s.now)

theorem openConn_opening {s : State} {mid : Nat} {z : List Byte} (hz : secretFor s mid = some z) (he : s.vault.entropyOk = true)
    (c tc : Nat) (twin auto : Bool) (retry kind owner : Nat) :
    Opening s mid tc twin auto retry kind owner (connOf (openConn s c mid tc twin auto retry kind owner) c) := by
  simp only [openConn, hz, he, connOf_launch, connOf_setConn]
  exact ⟨rfl, rfl, rfl, rfl, rfl, rfl, rfl, rfl, rfl⟩

theorem connOpen_opens {c : AdmCmd} {k : Nat} {z : List Byte} {s : State} (h : Starts s 0x10 c) (hi : c.target < 2048)
    (hown : ownsInst s c.vs c.target = true) (hm : leAt c.data 0 2 < 1024) (htc : leAt c.data 2 1 < 8) (htw : leAt c.data 3 1 < 2)
    (har : leAt c.data 4 1 < 2) (hr1 : 1 ≤ leAt c.data 5 1) (hr2 : leAt c.data 5 1 < 16) (hs : shareAllows s c.target 4 = true)
    (hk : freeContext s = some k) (hz : secretFor s (leAt c.data 0 2) = some z) (he : s.vault.entropyOk = true) :
    Leaves (.connOpen) s fun t => Opening s (leAt c.data 0 2) (leAt c.data 2 1) (decide (leAt c.data 3 1 = 1)) (decide (leAt c.data 4 1 = 1))
      (leAt c.data 5 1) 0 c.target (connOf t k) := by
  refine ⟨connOpenCmd s, rfl, ?_⟩
  have hown' : ownsInst (admDrop s c) c.vs c.target = true := hown
  have hs' : shareAllows (admDrop s c) c.target 4 = true := hs
  have hk' : freeContext (admDrop s c) = some k := hk
  have hz' : secretFor (admWait (admDrop s c) c k) (leAt c.data 0 2) = some z := hz
  have hr : ¬ (decide (leAt c.data 5 1 = 0) || decide (16 ≤ leAt c.data 5 1)) = true := by
    simp only [Bool.or_eq_true, decide_eq_true_eq]
    omega
  rw [connOpenCmd, admStart_starts h]
  simp only [connOf_admSettled, hown', hs', hk', if_neg hr, Nat.not_le.mpr hi, Nat.not_le.mpr hm, Nat.not_le.mpr htc, Nat.not_le.mpr htw, Nat.not_le.mpr har,
    if_false, Bool.not_true, Bool.false_eq_true]
  exact openConn_opening hz' he ..

/-! ### CONN_MODIFY, CONN_RESET and CONN_CLOSE (R237, R239) -/

theorem presentRecord_conns (s : State) (kind cid seq n ev : Nat) (data : List Byte) (mirror : Option (Nat × Nat)) (catchUp : Bool) :
    (presentRecord s kind cid seq n ev data mirror catchUp).shu.conns = s.shu.conns := by
  unfold presentRecord
  dsimp only
  split
  · rw [count_shu]
  · rfl

@[simp] theorem connOf_mirrorConn (s : State) (c ev : Nat) (catchUp : Bool) (j : Nat) : connOf (mirrorConn s c ev catchUp) j = connOf s j := by
  unfold mirrorConn
  split
  · exact connOf_congr (presentRecord_conns ..) j
  · rfl

theorem connModify_modifies {c : AdmCmd} {s : State} (h : Starts s 0x11 c) (hst : connStatus s c = 0) (har : leAt c.data 0 1 < 2)
    (hr1 : 1 ≤ leAt c.data 1 1) (hr2 : leAt c.data 1 1 < 16) :
    Leaves (.connModify) s fun t =>
      connOf t c.target = { connOf s c.target with autoResume := decide (leAt c.data 0 1 = 1), retryLimit := leAt c.data 1 1 } := by
  refine ⟨connModify s, rfl, ?_⟩
  have hr : ¬ (decide (leAt c.data 1 1 = 0) || decide (16 ≤ leAt c.data 1 1)) = true := by
    simp only [Bool.or_eq_true, decide_eq_true_eq]
    omega
  rw [connModify, admStart_starts h]
  simp only [connOf_admSettled, connStatus_admDrop, hst, ne_eq, not_true_eq_false, if_false, Nat.not_le.mpr har, if_neg hr, connOf_admDone]
  split
  · rw [connOf_mirrorConn, connOf_setConn, connOf_admDrop]
  · rw [connOf_setConn, connOf_admDrop]

theorem connReset_requests {c : AdmCmd} {s : State} (h : Starts s 0x12 c) (hst : connStatus s c = 0)
    (ha : (connOf s c.target).st = .active ∨ (connOf s c.target).st = .stalled) (hx : (connOf s c.target).exch = none)
    (he : s.vault.entropyOk = true) :
    Leaves (.connReset) s fun t =>
      (connOf t c.target).exch.map (fun e => (e.kind, e.epoch, e.firstSeq, e.since)) =
        some (3, ((connOf s c.target).keyEpoch + 1) % 65536, (connOf s c.target).txNext, s.now) ∧
      (connOf t c.target).st = (connOf s c.target).st := by
  refine ⟨connResetCmd s, rfl, ?_⟩
  have he' : (admDrop s c).vault.entropyOk = true := he
  have hw : connOf (startRequest (admWait (admDrop s c) c c.target) c.target 3 false) c.target = _ :=
    connOf_startRequest false (by decide) hx he
  rw [connResetCmd, admStart_starts h]
  rcases ha with ha | ha <;> simp [hst, connStatus_admDrop, hx, ha, he', hw, counted, newRequest]

/-- The owner's close of a connection in use starts the CLOSE. -/
theorem ownerClose_closes {s : State} {c : Nat} (ha : (connOf s c).st = .active ∨ (connOf s c).st = .stalled) :
    connOf (ownerClose s c) c = counted { connOf s c with
      st := .closing, exch := some (closeRequest s c), closingAt := some s.now, ownerCloses := true } := by
  rcases ha with ha | ha <;> simp only [ownerClose, ha] <;>
    rw [connOf_startRequest_close, connOf_setConn, closeRequest, connOf_setConn] <;> rfl

theorem connClose_closes {c : AdmCmd} {s : State} (h : Starts s 0x14 c) (hst : connStatus s c = 0)
    (ha : (connOf s c.target).st = .active ∨ (connOf s c.target).st = .stalled) :
    Leaves (.connClose) s fun t => (connOf t c.target).st = .closing ∧ (connOf t c.target).ownerCloses = true ∧
      (connOf t c.target).closingAt = some s.now ∧ (connOf t c.target).exch.map (fun e => e.kind) = some 2 := by
  refine ⟨connCloseCmd s, rfl, ?_⟩
  have hw : connOf (ownerClose (admWait (admDrop s c) c c.target) c.target) c.target = _ := ownerClose_closes ha
  rw [connCloseCmd, admStart_starts h]
  rcases ha with ha | ha <;> simp [hst, connStatus_admDrop, ha, hw, counted, closeRequest]

/-! ### CONN_READ and LEDGER_READ (R229, R244) -/

theorem connRead_reads {c : AdmCmd} {s : State} (h : Starts s 0x13 c) (hst : connStatus s c = 0) :
    Leaves (.connRead) s fun t =>
      t = admSettled (admFinish (hostPost (admDrop s c) c.vs c.arg (contextBytes (admDrop s c) c.target)) c 0 0 0) := by
  refine ⟨connReadCmd s, rfl, ?_⟩
  rw [connReadCmd, admStart_starts h]
  simp only [connStatus_admDrop, hst, ne_eq, not_true_eq_false, if_false]
  rfl

/-- The word that LEDGER_READ gives for an entry: zero for one not in use. -/
def ledgerRow (s : State) (l : Nat) : Nat :=
  match Tbl.find? s.shu.ledger l with
  | some e => ledgerWord s l e
  | none => 0

theorem ledgerRead_reads {c : AdmCmd} {s : State} (h : Starts s 0x15 c)
    (hi : s.mgmt.sessions.any (fun x => x.source = 128 + c.vs && x.role = 2) = true) (hl : c.target < 65536) :
    Leaves (.ledgerRead) s fun t =>
      t = admSettled (admFinish (hostPost (admDrop s c) c.vs c.arg (leBytes 16 (ledgerRow s c.target))) c 0 0 0) := by
  refine ⟨ledgerReadCmd s, rfl, ?_⟩
  have hi' : (admDrop s c).mgmt.sessions.any (fun x => x.source = 128 + c.vs && x.role = 2) = true := hi
  rw [ledgerReadCmd, admStart_starts h]
  simp only [hi', Nat.not_le.mpr hl, Bool.not_true, Bool.false_eq_true, if_false]
  rfl

theorem ledgerRead_refused {c : AdmCmd} {s : State} (h : Starts s 0x15 c)
    (hi : s.mgmt.sessions.any (fun x => x.source = 128 + c.vs && x.role = 2) = false) :
    Leaves (.ledgerRead) s fun t => t = admSettled (admFinish (admDrop s c) c 5 0 0) := by
  refine ⟨ledgerReadCmd s, rfl, ?_⟩
  have hi' : (admDrop s c).mgmt.sessions.any (fun x => x.source = 128 + c.vs && x.role = 2) = false := hi
  rw [ledgerReadCmd, admStart_starts h]
  simp only [hi', Bool.not_false, if_true]

/-- Settles O28, a lemma for each command. -/
theorem connectionCommands : Obligations.ConnectionCommands := by
  unfold Obligations.ConnectionCommands
  refine ⟨fun _ _ _ _ hf hb hi hown hm htc htw har hr1 hr2 hs hk hz he =>
      connOpen_opens ⟨hf, hb⟩ hi hown hm htc htw har hr1 hr2 hs hk hz he,
    fun _ _ hf hb hst har hr1 hr2 => connModify_modifies ⟨hf, hb⟩ hst har hr1 hr2,
    fun _ _ hf hb hst ha hx he => connReset_requests ⟨hf, hb⟩ hst ha hx he,
    fun _ _ hf hb hst => connRead_reads ⟨hf, hb⟩ hst,
    fun _ _ hf hb hst ha => connClose_closes ⟨hf, hb⟩ hst ha,
    fun c w s hf hb hi hl hw => ?_,
    fun _ _ hf hb hi => ledgerRead_refused ⟨hf, hb⟩ hi⟩
  have hw' : w = ledgerRow s c.target := hw
  rw [hw']
  exact ledgerRead_reads ⟨hf, hb⟩ hi hl

end Sys2Proof.Scope
end

section
/-!
The exchanges of connections (R236 to R240, R253, R261): the parts of O24.
-/

namespace Sys2Proof.Scope

open Sys2Proof.Machine Sys2Proof.Laws

-- One declaration at a time: side by side their threads are too much for the memory limit of the check.
set_option Elab.async false

/-! ### A control operation taken from the inbox -/

/-- The state after `r` has left the inbox and its chain is free. -/
def takenFrom (s : State) (r : Inbound) : State := freeOpt { s with shu := { s.shu with inbox := s.shu.inbox.erase r } } r.chain

theorem takeControl_found {s : State} {f : WireOp → Bool} {r : Inbound} (h : s.shu.inbox.find? (fun r => f r.op) = some r) :
    takeControl s f = some (takenFrom s r, r.op) := by
  simp only [takeControl, takeInbox, h, takenFrom]

/-- What a state is that freeing a chain has left: the blocks it may change, and the others as they were. -/
theorem eq_of_freeOpt_keeps {s t : State} (k : Keeps 7365504 s t) : t = { s with
    drawn := t.drawn, freeDraws := t.freeDraws, tx := t.tx, weft := t.weft, warp := t.warp, loom := t.loom, eng := t.eng, hed := t.hed
    obs := t.obs, host := t.host, beam := t.beam } := by
  rw [← k.pending, ← k.now, ← k.ft (by decide), ← k.cfg (by decide), ← k.flash (by decide), ← k.module (by decide), ← k.power (by decide),
    ← k.gov (by decide), ← k.lanes (by decide), ← k.fab (by decide), ← k.shu (by decide), ← k.win (by decide), ← k.sel (by decide),
    ← k.twin (by decide), ← k.dob (by decide), ← k.mgmt (by decide), ← k.vault (by decide)]

/-- Of the blocks of chapter 8, taking an operation changes the inbox only. -/
theorem takenFrom_eq (s : State) (r : Inbound) : takenFrom s r = { s with
    drawn := (takenFrom s r).drawn, freeDraws := (takenFrom s r).freeDraws, tx := (takenFrom s r).tx
    weft := (takenFrom s r).weft, warp := (takenFrom s r).warp, loom := (takenFrom s r).loom, eng := (takenFrom s r).eng
    hed := (takenFrom s r).hed, obs := (takenFrom s r).obs, host := (takenFrom s r).host, beam := (takenFrom s r).beam
    shu := { s.shu with inbox := s.shu.inbox.erase r } } :=
  eq_of_freeOpt_keeps (freeOpt_keeps (.refl _) (by decide))

section
variable (s : State) (r : Inbound) (o : WireOp)

@[simp] theorem connOf_takenFrom (c : Nat) : connOf (takenFrom s r) c = connOf s c := by rw [takenFrom_eq]; rfl
@[simp] theorem takenFrom_ledger : (takenFrom s r).shu.ledger = s.shu.ledger := by rw [takenFrom_eq]
@[simp] theorem takenFrom_vault : (takenFrom s r).vault = s.vault := by rw [takenFrom_eq]
@[simp] theorem contextOf_takenFrom : contextOf (takenFrom s r) o = contextOf s o := by rw [takenFrom_eq]; rfl
@[simp] theorem controlContext_takenFrom : controlContext (takenFrom s r) o = controlContext s o := by rw [takenFrom_eq]; rfl
@[simp] theorem secretFor_takenFrom (mid : Nat) : secretFor (takenFrom s r) mid = secretFor s mid := by rw [takenFrom_eq]; rfl
@[simp] theorem openedBefore_takenFrom : openedBefore (takenFrom s r) o = openedBefore s o := by rw [takenFrom_eq]; rfl
@[simp] theorem openTimely_takenFrom (t : Nat) (old : Option Nat) : openTimely (takenFrom s r) t old = openTimely s t old := by
  rw [takenFrom_eq]; rfl
@[simp] theorem juniorWaits_takenFrom : juniorWaits (takenFrom s r) o = juniorWaits s o := by rw [takenFrom_eq]; rfl
@[simp] theorem openStatus_takenFrom : openStatus (takenFrom s r) o = openStatus s o := by rw [takenFrom_eq]; rfl
@[simp] theorem contextForOpen_takenFrom : contextForOpen (takenFrom s r) o = contextForOpen s o := by rw [takenFrom_eq]; rfl

end

/-- A control operation under the present key with a fresh count is accepted, and its count noted. -/
theorem acceptControl_noted {s : State} {c : Nat} {o : WireOp} {k : KeySet} (hk : (connOf s c).keys = some k)
    (ht : ctlTagOk k.ctlRx (leAt o.body 24 8) o = true)
    (hf : countFresh (leAt o.body 24 8) (connOf s c).ctlHigh (connOf s c).ctlSeen = true) :
    acceptControl s c o = some (setConn s c { connOf s c with
      ctlHigh := (noteCount (leAt o.body 24 8) (connOf s c).ctlHigh (connOf s c).ctlSeen).1
      ctlSeen := (noteCount (leAt o.body 24 8) (connOf s c).ctlHigh (connOf s c).ctlSeen).2 }) := by
  simp only [acceptControl, hk, ht, hf, if_true]

/-- Control operation `o` is for the live context `c`, which is `x`, under its present key `k` and with a fresh count. -/
structure Fresh (s : State) (c : Nat) (x : Conn) (k : KeySet) (o : WireOp) : Prop where
  conn : Tbl.find? s.shu.conns c = some x
  live : x.live = true
  keys : x.keys = some k
  tag : ctlTagOk k.ctlRx (leAt o.body 24 8) o = true
  count : countFresh (leAt o.body 24 8) x.ctlHigh x.ctlSeen = true

theorem Fresh.taken {s : State} {c : Nat} {x : Conn} {k : KeySet} {o : WireOp} (f : Fresh s c x k o) (r : Inbound) :
    connOf (takenFrom s r) c = x := (connOf_takenFrom ..).trans (connOf_eq f.conn)

/-- Once taken it is accepted: of its context, only the counts change. -/
theorem Fresh.accepted {s : State} {c : Nat} {x : Conn} {k : KeySet} {o : WireOp} (f : Fresh s c x k o) (r : Inbound) :
    ∃ h q, acceptControl (takenFrom s r) c o = some (setConn (takenFrom s r) c { x with ctlHigh := h, ctlSeen := q }) := by
  have ha := acceptControl_noted (s := takenFrom s r) (c := c) ((f.taken r).symm ▸ f.keys) f.tag ((f.taken r).symm ▸ f.count)
  rw [f.taken r] at ha
  exact ⟨_, _, ha⟩

/-! ### The entries of a connection -/

theorem mem_insertBy {α : Type} (le : α → α → Bool) (x y : α) (ys : List α) : y ∈ insertBy le x ys ↔ y = x ∨ y ∈ ys := by
  induction ys with
  | nil => simp [insertBy]
  | cons z zs ih =>
    simp only [insertBy]
    split
    · simp
    · simp only [List.mem_cons, ih]
      exact or_left_comm

theorem mem_sortBy {α : Type} (le : α → α → Bool) (y : α) (ys : List α) : y ∈ sortBy le ys ↔ y ∈ ys := by
  induction ys with
  | nil => simp [sortBy]
  | cons z zs ih => exact (mem_insertBy le z y _).trans ((or_congr_right ih).trans List.mem_cons.symm)

theorem mem_ledgerOf {s : State} {c : Nat} {r : Nat × LedgerEntry} : r ∈ ledgerOf s c ↔ r ∈ s.shu.ledger ∧ r.2.cid = c := by
  simp [ledgerOf, mem_sortBy]

theorem ledgerOf_nonempty {s t : State} {c : Nat} (h : t.shu.ledger = s.shu.ledger) (hs : ledgerOf s c ≠ []) : ledgerOf t c ≠ [] := by
  obtain ⟨r, hr⟩ := List.exists_mem_of_ne_nil _ hs
  exact List.ne_nil_of_mem (mem_ledgerOf.mpr (h ▸ mem_ledgerOf.mp hr))

/-- A close waits for the entries that remain. -/
theorem closeCheck_waits {s : State} {c : Nat} (h : ledgerOf s c ≠ []) : closeCheck s c = s := by
  simp [closeCheck, List.isEmpty_eq_false_iff.mpr h]

/-! ### Answers and new keys (R236, R261) -/

@[simp] theorem installKeys_ledger (s : State) (c nonceI nonceR epoch : Nat) (k : KeySet) (firstTx firstRx : Nat) :
    (installKeys s c nonceI nonceR epoch k firstTx firstRx).shu.ledger = s.shu.ledger := rfl

@[simp] theorem connOf_installKeys (s : State) (c nonceI nonceR epoch : Nat) (k : KeySet) (firstTx firstRx : Nat) :
    connOf (installKeys s c nonceI nonceR epoch k firstTx firstRx) c = { connOf s c with
      oldKeys := (connOf s c).keys, keys := some k, keyEpoch := epoch, nonceI := nonceI, nonceR := nonceR, firstTx := firstTx
      firstRx := firstRx, epochSeq := (connOf s c).txNext, ctlTx := 0, ctlBase := 0, oldHigh := (connOf s c).ctlHigh
      oldSeen := (connOf s c).ctlSeen, ctlHigh := 0, ctlSeen := [] } := by
  simp only [installKeys, connOf_setConn]

/-- An answer is noted, and its count with it. -/
theorem connOf_answerKeyed (s : State) (c : Nat) (o : WireOp) (status nonceR first : Nat) :
    ∃ a n, connOf (answerKeyed s c o status nonceR first) c = { connOf s c with answered := a, ctlTx := n } := by
  unfold answerKeyed controlOp
  dsimp only
  split
  · exact ⟨_, _, rfl⟩
  · next h =>
    split at h
    · cases h
    · exact ⟨_, _, by rw [connOf_launch, connOf_setConn, connOf_setConn]⟩

@[simp] theorem answerKeyed_ledger (s : State) (c : Nat) (o : WireOp) (status nonceR first : Nat) :
    (answerKeyed s c o status nonceR first).shu.ledger = s.shu.ledger := by
  unfold answerKeyed controlOp
  dsimp only
  split
  · rfl
  · split <;> simp

@[simp] theorem connOf_rosterAdd (s : State) (c j : Nat) : connOf (rosterAdd s c) j = connOf s j := by
  unfold rosterAdd
  dsimp only
  split <;> rfl

theorem connOf_oldKeyCheck (s : State) (c : Nat) : ∃ k q, connOf (oldKeyCheck s c) c = { connOf s c with oldKeys := k, oldSeen := q } := by
  unfold oldKeyCheck
  dsimp only
  split
  · exact ⟨none, [], by simp⟩
  · exact ⟨_, _, rfl⟩

@[simp] theorem connOf_afterReset (s : State) (c rxFirst cause : Nat) :
    connOf (afterReset s c rxFirst cause) c = { connOf s c with
      rxE := rxFirst, window := [], held := [], refusals := [], unacked := [], ceCount := 0, cwnd := cfgv s 0x4202 1, tunnel := []
      st := if (connOf s c).st = .stalled then .active else (connOf s c).st } := by
  unfold afterReset
  dsimp only
  rw [connOf_resetSettled]
  split
  · simp only [connOf_connEvent, connOf_setConn]
  · simp only [connOf_setConn]

/-! ### Requests and responses received -/

theorem live_ne_failed {x : Conn} (h : x.live = true) : x.st ≠ .failed := by
  intro hf
  simp [Conn.live, hf] at h

/-- The context that an OPEN in order makes of its sender. -/
def OpenedBy (o : WireOp) (x : Conn) : Prop :=
  x.st = .active ∧ x.peerMid = envSrc o / 128 ∧ x.peerCid = envCid o ∧ x.txNext = 0 ∧ x.rxE = 0 ∧ x.keyEpoch = 0 ∧
    x.twin = bit (leAt o.body 0 32) 60

theorem acceptOpen_opened (s : State) (o : WireOp) (k : List Byte) (c : Nat) : OpenedBy o (connOf (acceptOpen s o k c) c) := by
  unfold acceptOpen
  extract_lets b r x s1 s2
  obtain ⟨a, n, h⟩ := connOf_answerKeyed s2 c o 0 r 0
  rw [connOf_mirrorConn, connOf_rosterAdd, h, connOf_installKeys, connOf_setConn]
  exact ⟨rfl, rfl, rfl, rfl, rfl, rfl, rfl⟩

theorem connReqOpen_opens {o : WireOp} {ch : Option Nat} {src : Nat} {k : List Byte} {c : Nat} {s : State}
    (hf : s.shu.inbox.find? (fun r => envTyp r.op = 10 && ctlKind r.op = 1) = some { op := o, chain := ch, src := src })
    (hb : openedBefore s o = none) (he : s.vault.entropyOk = true) (hz : secretFor s (envSrc o / 128) = some k)
    (ht : ctlTagOk (openKey k (envSrc o / 128) (envDst o / 128)) (reqNonce o) o = true)
    (hd : openTimely s (bits (leAt o.body 0 32) 0 48) none = true) (hj : juniorWaits s o = false) (hst : openStatus s o = 0)
    (hc : contextForOpen s o = some c) : LeavesSettling (.connReqOpen) s fun t => OpenedBy o (connOf t c) := by
  refine ⟨connReqOpen s, rfl, ?_⟩
  have hf' := takeControl_found (f := fun o => envTyp o = 10 && ctlKind o = 1) hf
  unfold connReqOpen takeRequest
  simp only [hf', openedBefore_takenFrom, hb, secretFor_takenFrom, hz, takenFrom_vault, he, freshOpen, ht, Option.map_none,
    openTimely_takenFrom, hd, juniorWaits_takenFrom, hj, openStatus_takenFrom, hst, contextForOpen_takenFrom, hc, Bool.not_true,
    Bool.or_self, Bool.false_eq_true, if_false, if_true]
  exact acceptOpen_opened ..

theorem connReqClose_drains {o : WireOp} {ch : Option Nat} {src c : Nat} {x : Conn} {k : KeySet} {s : State}
    (hf : s.shu.inbox.find? (fun r => envTyp r.op = 10 && ctlKind r.op = 2) = some { op := o, chain := ch, src := src })
    (hc : contextOf s o = some c) (h : Fresh s c x k o) (hl : ledgerOf s c ≠ []) :
    LeavesSettling (.connReqClose) s fun t =>
      (connOf t c).st = .closing ∧ (connOf t c).closeAnswered = true ∧ t.shu.ledger = s.shu.ledger := by
  refine ⟨connReqClose s, rfl, ?_⟩
  have hf' := takeControl_found (f := fun o => envTyp o = 10 && ctlKind o = 2) hf
  have hx := h.taken { op := o, chain := ch, src := src }
  obtain ⟨n, q, ha⟩ := h.accepted { op := o, chain := ch, src := src }
  unfold connReqClose takeRequest requestContext
  simp -zeta only [hf', contextOf_takenFrom, hc, hx, h.live, Bool.not_true, Bool.false_eq_true, if_false, ha]
  extract_lets y s1 z s2
  have h1 : s1.shu.ledger = s.shu.ledger := by
    unfold s1
    split <;> simp
  have h2 : (connOf s2 c).st = .closing ∧ (connOf s2 c).closeAnswered = true ∧ s2.shu.ledger = s.shu.ledger := by
    unfold s2
    split
    · next hz => exact ⟨by rw [connOf_setConn]; exact hz, by rw [connOf_setConn], h1⟩
    · exact ⟨by rw [connOf_setConn], by rw [connOf_setConn], h1⟩
  obtain ⟨hst, hans, hled⟩ := h2
  obtain ⟨a, n, h3⟩ := connOf_answerKeyed s2 c o 0 0 0
  rw [closeCheck_waits (ledgerOf_nonempty ((answerKeyed_ledger ..).trans hled) hl), h3]
  exact ⟨hst, hans, (answerKeyed_ledger ..).trans hled⟩

/-- Context `y` is `x` after the peer's RESET or REKEY `o` has been carried out. -/
def CarriedOut (o : WireOp) (x y : Conn) : Prop :=
  (y.keyEpoch = reqEpoch o ∧ y.firstTx = x.txNext ∧ y.firstRx = reqFirst o ∧ y.txNext = x.txNext) ∧
    if ctlKind o = 3 then y.rxE = reqFirst o ∧ y.window = [] ∧ y.st = if x.st = .stalled then .active else x.st
    else y.rxE = x.rxE ∧ y.st = x.st

theorem carryOut_carriedOut (s : State) (c : Nat) (o : WireOp) (k : List Byte) :
    CarriedOut o (connOf s c) (connOf (carryOut s c o k) c) := by
  unfold carryOut
  extract_lets x r ni nr s1 s2 s3 s4
  have h2 : connOf s2 c = _ := connOf_installKeys ..
  obtain ⟨a, n, h4⟩ := connOf_answerKeyed s3 c o 0 r x.txNext
  obtain ⟨old, seen, h5⟩ := connOf_oldKeyCheck (mirrorConn s4 c 3 false) c
  rw [h5, connOf_mirrorConn, h4]
  unfold CarriedOut s3
  by_cases hk : ctlKind o = 3
  · have hf : connOf (afterFree s2) c = connOf s2 c := rfl
    rw [if_pos hk, if_pos hk, connOf_afterReset, hf, h2]
    exact ⟨⟨rfl, rfl, rfl, rfl⟩, rfl, rfl, rfl⟩
  · rw [if_neg hk, if_neg hk, h2]
    exact ⟨⟨rfl, rfl, rfl, rfl⟩, rfl, rfl⟩

theorem receiveExchange_carriesOut {kind : Nat} {o : WireOp} {ch : Option Nat} {src c : Nat} {x : Conn} {k : KeySet} {z : List Byte} {s : State}
    (hf : s.shu.inbox.find? (fun r => envTyp r.op = 10 && ctlKind r.op = kind) = some { op := o, chain := ch, src := src })
    (hc : contextOf s o = some c) (h : Fresh s c x k o) (ha : x.answered = none) (he : x.exch = none)
    (hz : secretFor s x.peerMid = some z) (hv : s.vault.entropyOk = true) :
    ctlKind o = kind ∧ CarriedOut o x (connOf (receiveExchange s kind) c) := by
  have hf' := takeControl_found (f := fun o => envTyp o = 10 && ctlKind o = kind) hf
  have hx := h.taken { op := o, chain := ch, src := src }
  obtain ⟨n, q, hac⟩ := h.accepted { op := o, chain := ch, src := src }
  obtain ⟨y, hy⟩ : ∃ y, y = { x with ctlHigh := n, ctlSeen := q } := ⟨_, rfl⟩
  rw [← hy] at hac
  obtain ⟨ha', he', hp'⟩ : y.answered = none ∧ y.exch = none ∧ y.peerMid = x.peerMid := by rw [hy]; exact ⟨ha, he, rfl⟩
  have hz' : secretFor (setConn (takenFrom s { op := o, chain := ch, src := src }) c y) y.peerMid = some z := by
    rw [hp']
    exact (secretFor_takenFrom ..).trans hz
  have hkind := List.find?_some hf
  simp only [Bool.and_eq_true, decide_eq_true_eq] at hkind
  refine ⟨hkind.2, ?_⟩
  unfold receiveExchange takeRequest requestContext
  simp only [hf', contextOf_takenFrom, hc, hx, h.live, hac, connOf_setConn, ha', he', setConn_vault, takenFrom_vault, hv, hz', Bool.not_true,
    Bool.false_eq_true, Bool.false_and, if_false]
  have hco := carryOut_carriedOut (setConn (takenFrom s { op := o, chain := ch, src := src }) c y) c o z
  rw [connOf_setConn] at hco
  rw [hy] at hco ⊢
  exact hco

theorem connReqReset_resets {o : WireOp} {ch : Option Nat} {src c : Nat} {x : Conn} {k : KeySet} {z : List Byte} {s : State}
    (hf : s.shu.inbox.find? (fun r => envTyp r.op = 10 && ctlKind r.op = 3) = some { op := o, chain := ch, src := src })
    (hc : contextOf s o = some c) (h : Fresh s c x k o) (ha : x.answered = none) (he : x.exch = none)
    (hz : secretFor s x.peerMid = some z) (hv : s.vault.entropyOk = true) :
    LeavesSettling (.connReqReset) s fun t => (connOf t c).keyEpoch = reqEpoch o ∧ (connOf t c).rxE = reqFirst o ∧
      (connOf t c).st = (if x.st = .stalled then .active else x.st) ∧ (connOf t c).firstTx = x.txNext ∧ (connOf t c).window = [] ∧
      (connOf t c).txNext = x.txNext := by
  obtain ⟨hkind, ⟨hep, htx, -, hnext⟩, h3⟩ := receiveExchange_carriesOut hf hc h ha he hz hv
  rw [if_pos hkind] at h3
  obtain ⟨hrx, hw, hst⟩ := h3
  exact ⟨connReqReset s, rfl, hep, hrx, hst, htx, hw, hnext⟩

theorem connReqRekey_rekeys {o : WireOp} {ch : Option Nat} {src c : Nat} {x : Conn} {k : KeySet} {z : List Byte} {s : State}
    (hf : s.shu.inbox.find? (fun r => envTyp r.op = 10 && ctlKind r.op = 4) = some { op := o, chain := ch, src := src })
    (hc : contextOf s o = some c) (h : Fresh s c x k o) (ha : x.answered = none) (he : x.exch = none)
    (hz : secretFor s x.peerMid = some z) (hv : s.vault.entropyOk = true) :
    LeavesSettling (.connReqRekey) s fun t => (connOf t c).keyEpoch = reqEpoch o ∧ (connOf t c).rxE = x.rxE ∧ (connOf t c).st = x.st ∧
      (connOf t c).firstTx = x.txNext ∧ (connOf t c).firstRx = reqFirst o ∧ (connOf t c).txNext = x.txNext := by
  obtain ⟨hkind, ⟨hep, htx, hfr, hnext⟩, h3⟩ := receiveExchange_carriesOut hf hc h ha he hz hv
  rw [if_neg (by omega)] at h3
  exact ⟨connReqRekey s, rfl, hep, h3.1, h3.2, htx, hfr, hnext⟩

theorem connResp_ends {o : WireOp} {ch : Option Nat} {src c : Nat} {x : Conn} {k : KeySet} {e : Exchange} {s : State}
    (hf : s.shu.inbox.find? (fun r => envTyp r.op = 11) = some { op := o, chain := ch, src := src })
    (hc : controlContext s o = some c) (h : Fresh s c x k o) (he : x.exch = some e) (hek : e.kind = 2)
    (hok : ctlKind o = 2) (hst : respStatus o = 0) (hl : ledgerOf s c ≠ []) :
    LeavesSettling (.connResp) s fun t => (connOf t c).exch = none ∧ (connOf t c).st = x.st ∧ t.shu.ledger = s.shu.ledger := by
  refine ⟨connResp s, rfl, ?_⟩
  have hf' := takeControl_found (f := fun o => envTyp o = 11) hf
  have hx := h.taken { op := o, chain := ch, src := src }
  obtain ⟨n, q, hac⟩ := h.accepted { op := o, chain := ch, src := src }
  have hl' (y y' : Conn) : ledgerOf (setConn (setConn (takenFrom s { op := o, chain := ch, src := src }) c y) c y') c ≠ [] :=
    ledgerOf_nonempty (takenFrom_ledger ..) hl
  unfold connResp
  simp [hf', controlContext_takenFrom, hc, hx, he, hek, hok, hst, live_ne_failed h.live, hac, closeCheck_waits (hl' _ _)]

end Sys2Proof.Scope
end

section
/-!
Timers of connections, their failure and their end (R239, R240, R253, R261), and O24.
-/

namespace Sys2Proof.Scope

open Sys2Proof.Machine Sys2Proof.Laws

-- One declaration at a time: side by side their threads are too much for the memory limit of the check.
set_option Elab.async false

/-! ### What a failing operation leaves (R250) -/

/-- The state of a connection, its cause of failure and its exchange. -/
def standing (x : Conn) : ConnSt × Nat × Option Exchange := (x.st, x.failReason, x.exch)

/-- The ledger is the same and every connection stands as it did. -/
def Stands (s t : State) : Prop := t.shu.ledger = s.shu.ledger ∧ ∀ j, standing (connOf t j) = standing (connOf s j)

theorem Stands.refl (s : State) : Stands s s := ⟨rfl, fun _ => rfl⟩

theorem Stands.trans {s t u : State} (h : Stands s t) (h' : Stands t u) : Stands s u :=
  ⟨h'.1.trans h.1, fun j => (h'.2 j).trans (h.2 j)⟩

theorem Stands.of_conns {s t : State} (hl : t.shu.ledger = s.shu.ledger) (hc : t.shu.conns = s.shu.conns) : Stands s t :=
  ⟨hl, fun j => congrArg standing (connOf_congr hc j)⟩

theorem Stands.of_shu {s t : State} (h : t.shu = s.shu) : Stands s t := .of_conns (congrArg ShuBlk.ledger h) (congrArg ShuBlk.conns h)

theorem standing_setConn {s : State} {c : Nat} {x : Conn} (h : standing x = standing (connOf s c)) (j : Nat) :
    standing (connOf (setConn s c x) j) = standing (connOf s j) := by
  by_cases hj : j = c
  · rw [hj, connOf_setConn, h]
  · rw [connOf_setConn_ne _ _ hj]

theorem Stands.setConn {s : State} {c : Nat} {x : Conn} (h : standing x = standing (connOf s c)) : Stands s (setConn s c x) :=
  ⟨rfl, standing_setConn h⟩

theorem descMod_shu (s : State) (t : Ticket) (f : DescState → DescState) : (descMod s t f).shu = s.shu := by
  unfold descMod
  split
  · split <;> rfl
  · rfl

theorem descDone_descCond_stands (s : State) (t : Ticket) (bytes status detail : Nat) :
    Stands s (descCond (descDone s t bytes) t status detail) :=
  .of_shu ((descMod_shu ..).trans (descMod_shu ..))

theorem presentTunnel_stands (s : State) (cid src : Nat) (ask : Option Origin) (t : Tlp) : Stands s (presentTunnel s cid src ask t) :=
  .of_conns rfl rfl

theorem presentCompletion_stands (s : State) (cid seq tag status offset : Nat) (data : List Byte) :
    Stands s (presentCompletion s cid seq tag status offset data) := .of_conns rfl rfl

theorem cacheAnswer_shu (s : State) (w cid seq status : Nat) (data : List Byte) : (cacheAnswer s w cid seq status data).shu = s.shu := by
  unfold cacheAnswer
  split <;> rfl

/-- The answer to a requester goes out through queues, or waits as a further operation. -/
theorem answer_stands (s : State) (src : Nat) (o : Origin) (q : Tlp) (completer status : Nat) (ep : Bool) (data : List Byte) :
    Stands s (answer s src o q completer status ep data) := by
  unfold answer
  split
  case h_1 => exact .refl s
  case h_2 => exact .of_shu (enqueueTlp_shu ..)
  case h_3 =>
    split
    · exact presentTunnel_stands ..
    · exact .refl s
  case h_4 => exact .of_shu (enqueueTlp_shu ..)
  case h_5 => exact .of_shu rfl
  case h_6 => exact .of_shu rfl
  case h_7 =>
    extract_lets s1 st data' s2
    have h1 : s1.shu = s.shu := by
      unfold s1
      split <;> simp
    have h2 : s2.shu = s1.shu := by
      unfold s2
      split
      · rw [winDrain_shu, cacheAnswer_shu]
      · rfl
    exact (Stands.of_shu (h2.trans h1)).trans (presentCompletion_stands ..)

theorem postedFailure_stands (s : State) (part func c mid window offset seq reason : Nat) :
    Stands s (postedFailure s part func c mid window offset seq reason) :=
  .of_shu ((postedFailure_keeps (mk := allBut .shu) (.refl s) (by decide)).shu (by decide))

theorem setConn_failedSince_stands (s : State) (c : Nat) (b : Bool) :
    Stands s (if (Tbl.find? s.shu.conns c).isSome then setConn s c { connOf s c with failedSince := b } else s) := by
  split
  · exact .setConn rfl
  · exact .refl s

theorem writeFailed_stands (s : State) (c seq reason : Nat) (op : NewOp) : Stands s (writeFailed s c seq reason op) := by
  unfold writeFailed
  extract_lets h x s1 s2 func
  have h1 : Stands s s1 := setConn_failedSince_stands s c true
  split
  · exact h1.trans (.of_shu ((event_shu ..).trans (eventFull_shu ..)))
  · split
    · exact h1
    · split
      · exact h1.trans (.of_shu (inboundFailed_shu ..))
      · exact h1.trans (postedFailure_stands ..)

theorem fenceDone_stands (s : State) (c seq status : Nat) (o : Origin) (tlp : Option Tlp) (ticket : Option Ticket) :
    Stands s (fenceDone s c seq status o tlp ticket) := by
  unfold fenceDone
  extract_lets x s1 s2 s3
  have h1 : Stands s s1 := setConn_failedSince_stands s c false
  have h2 : Stands s s2 := by
    unfold s2
    split
    · exact h1
    · exact h1.trans (.of_shu (count_shu ..))
  have h3 : Stands s s3 := by
    unfold s3
    split
    · exact h2.trans (.of_shu (connEvent_shu ..))
    · exact h1
  split
  · next t =>
    have h4 : Stands s (descDone s3 t 0) := h3.trans (.of_shu (descMod_shu ..))
    dsimp only
    split
    · exact h4.trans (.of_shu (descMod_shu ..))
    · split
      · exact h4.trans (.of_shu (descMod_shu ..))
      · exact h4
  · split
    · exact h3.trans (answer_stands ..)
    · exact h3

theorem failOp_stands (s : State) (c seq reason : Nat) (op : NewOp) (status : Nat) : Stands s (failOp s c seq reason op status) := by
  unfold failOp
  split
  case h_1 =>
    split
    · exact (writeFailed_stands ..).trans (descDone_descCond_stands ..)
    · exact writeFailed_stands ..
  case h_2 => exact fenceDone_stands ..
  case h_6 =>
    split
    · exact answer_stands ..
    · exact .refl s
  case h_7 => exact .refl s
  all_goals
    split
    · exact descDone_descCond_stands ..
    · split
      · exact answer_stands ..
      · exact .refl s

/-! ### All of a connection's operations fail -/

theorem Tbl.erase_of_find?_none {α : Type} {t : Tbl α} {k : Nat} (h : Tbl.find? t k = none) : Tbl.erase t k = t := by
  induction t with
  | nil => rfl
  | cons r t ih =>
    obtain ⟨i, y⟩ := r
    simp only [Tbl.find?] at h
    split at h
    · cases h
    · next hk =>
      have hk' : i ≠ k := fun e => hk e.symm
      rw [Tbl.erase, List.filter_cons_of_pos (by simpa using hk')]
      exact congrArg _ (ih h)

/-- Entry `l` has left the ledger, and every connection stands as it did. -/
def Frees (l : Nat) (s t : State) : Prop := t.shu.ledger = Tbl.erase s.shu.ledger l ∧ ∀ j, standing (connOf t j) = standing (connOf s j)

theorem Frees.then {l : Nat} {s t u : State} (h : Frees l s t) (h' : Stands t u) : Frees l s u :=
  ⟨h'.1.trans h.1, fun j => (h'.2 j).trans (h.2 j)⟩

theorem Frees.of_absent {l : Nat} {s : State} (h : Tbl.find? s.shu.ledger l = none) : Frees l s s :=
  ⟨(Tbl.erase_of_find?_none h).symm, fun _ => rfl⟩

theorem releaseEntry_frees (s : State) (l : Nat) : Frees l s (releaseEntry s l) := by
  unfold releaseEntry
  split
  · next h => exact .of_absent h
  · next e h =>
    extract_lets _ s1 _ s2 s3 _ s4 x
    have h1 : Frees l s s1 := ⟨rfl, fun _ => rfl⟩
    have h2 : Stands s1 s2 := by
      unfold s2
      split <;> exact .of_shu rfl
    have h3 : Stands s2 s3 := .of_shu (ledgerRelease_shu ..)
    have h4 : Stands s3 s4 := by
      unfold s4
      split <;> exact .of_shu rfl
    exact h1.then (h2.trans (h3.trans (h4.trans (.setConn rfl))))

theorem failEntry_frees (s : State) (l reason status : Nat) : Frees l s (failEntry s l reason status) := by
  unfold failEntry
  split
  · next h => exact .of_absent h
  · next e h =>
    extract_lets s1 x
    have h1 : Stands (releaseEntry s l) s1 := .setConn rfl
    have h2 : Stands s1 (setConn s1 e.cid { x with failed := x.failed + 1 }) := .setConn rfl
    exact (releaseEntry_frees s l).then (h1.trans (h2.trans (failOp_stands ..)))

/-- Entries that fail one after another leave the ledger. -/
theorem foldl_failEntry_frees (rs : List (Nat × LedgerEntry)) (reason status : Nat) (s : State) :
    (∀ r ∈ (rs.foldl (fun s r => failEntry s r.1 reason status) s).shu.ledger, r ∈ s.shu.ledger ∧ ∀ q ∈ rs, r.1 ≠ q.1) ∧
      ∀ j, standing (connOf (rs.foldl (fun s r => failEntry s r.1 reason status) s) j) = standing (connOf s j) := by
  induction rs generalizing s with
  | nil => exact ⟨fun r hr => ⟨hr, fun _ hq => absurd hq List.not_mem_nil⟩, fun _ => rfl⟩
  | cons q rs ih =>
    obtain ⟨hl, hst⟩ := failEntry_frees s q.1 reason status
    obtain ⟨ihl, ihst⟩ := ih (failEntry s q.1 reason status)
    refine ⟨fun r hr => ?_, fun j => (ihst j).trans (hst j)⟩
    obtain ⟨hm, hne⟩ := ihl r hr
    rw [hl] at hm
    obtain ⟨hm, hq⟩ := List.mem_filter.mp hm
    exact ⟨hm, List.forall_mem_cons.mpr ⟨by simpa using hq, hne⟩⟩

theorem failAll_empties (s : State) (c : Nat) :
    (∀ r ∈ (failAll s c).shu.ledger, r.2.cid ≠ c) ∧ ∀ j, standing (connOf (failAll s c) j) = standing (connOf s j) := by
  obtain ⟨hl, hst⟩ := foldl_failEntry_frees (ledgerOf s c) 16 2 s
  refine ⟨fun r hr hc => ?_, hst⟩
  obtain ⟨hm, hne⟩ := hl r hr
  exact hne r (mem_ledgerOf.mpr ⟨hm, hc⟩) rfl

theorem foldl_each_stands {α : Type} (f : State → α → State) (hf : ∀ s a, Stands s (f s a)) (as : List α) (s : State) :
    Stands s (as.foldl f s) := by
  induction as generalizing s with
  | nil => exact .refl s
  | cons a as ih => exact (hf s a).trans (ih _)

theorem abortAsked_stands (s : State) (c : Nat) : Stands s (abortAsked s c) := by
  unfold abortAsked
  refine (Stands.setConn (c := c) (x := { connOf s c with asked := [] }) rfl).trans (foldl_each_stands _ (fun s a => ?_) _ _)
  split
  · exact descDone_descCond_stands ..
  · split
    · exact answer_stands ..
    · exact .refl s

/-- A connection that fails, and that its owner has not closed, is FAILED with its cause, asks for nothing and has no entry. -/
theorem toFailed_failed {s : State} {c : Nat} (cause : Nat) (hl : (connOf s c).live = true) (ho : (connOf s c).ownerKind ≠ 2)
    (hc : (connOf s c).ownerCloses = false) :
    standing (connOf (toFailed s c cause) c) = (.failed, cause, none) ∧ ∀ r ∈ (toFailed s c cause).shu.ledger, r.2.cid ≠ c := by
  unfold toFailed
  extract_lets x s1 s2 _ s3 s4
  have hx : ¬ (!x.live) = true := by simp [x, hl]
  have hown : ¬ (decide (x.ownerKind = 2) || x.ownerCloses) = true := by simp [x, ho, hc]
  obtain ⟨hf, hst⟩ := failAll_empties s3 c
  obtain ⟨ha, hat⟩ := abortAsked_stands (failAll s3 c) c
  rw [if_neg hx, if_neg hown]
  unfold s4
  rw [connOf_resetSettled, resetSettled_shu, ha, hat, hst]
  refine ⟨?_, hf⟩
  unfold s3
  rw [connOf_setConn]
  rfl

/-! ### Timers (R237, R238, R239) -/

theorem connReqResend_resends {c : Cid} {e : Exchange} {s : State} (he : (connOf s c).exch = some e) (hs : e.sentAt + 50000 ≤ s.now)
    (hk : e.kind = 2 ∨ s.now < e.since + 2000000) :
    LeavesSettling (.connReqResend c) s fun t =>
      (connOf t c).exch = some { e with sentAt := s.now } ∧ (connOf t c).st = (connOf s c).st := by
  refine ⟨connReqResend c s, rfl, ?_⟩
  have hdue : (elapsed s e.sentAt (50 * us) && (decide (e.kind = 2) || !elapsed s e.since (2 * ms))) = true := by
    refine Bool.and_eq_true_iff.mpr ⟨decide_eq_true hs, ?_⟩
    rcases hk with hk | hk
    · simp [hk]
    · have hnot : elapsed s e.since (2 * ms) = false := decide_eq_false (Nat.not_le.mpr hk)
      simp [hnot]
  unfold connReqResend
  extract_lets x
  have hx : x.exch = some e := he
  simp -zeta only [hx, hdue, if_true]
  extract_lets s1
  split
  · rw [connOf_launch, connOf_setConn]
    exact ⟨rfl, rfl⟩
  · rw [connOf_setConn]
    exact ⟨rfl, rfl⟩
  · rw [connOf_sendRequest, connOf_setConn]
    exact ⟨rfl, rfl⟩

theorem openEnds_conns (s : State) (c status : Nat) : (openEnds s c status).shu.conns = Tbl.erase s.shu.conns c := by
  unfold openEnds
  dsimp only
  rw [openFailed_shu, connEvent_shu]

theorem connOpenTimeout_ends {c : Cid} {e : Exchange} {s : State} (he : (connOf s c).exch = some e) (hst : (connOf s c).st = .opening)
    (hk : e.kind = 1) (hd : e.since + 2000000 ≤ s.now) :
    LeavesSettling (.connOpenTimeout c) s fun t => Tbl.find? t.shu.conns c = none := by
  refine ⟨connOpenTimeout c s, rfl, ?_⟩
  have hdue : elapsed s e.since (2 * ms) = true := decide_eq_true hd
  simp only [connOpenTimeout, he, hst, hk, hdue, decide_true, Bool.and_self, if_true, openEnds_conns, Tbl.find?_erase]

theorem connExchangeTimeout_fails {c : Cid} {e : Exchange} {s : State} (he : (connOf s c).exch = some e) (hk : e.kind = 3 ∨ e.kind = 4)
    (hd : e.since + 2000000 ≤ s.now) (hl : (connOf s c).live = true) (ho : (connOf s c).ownerKind ≠ 2)
    (hc : (connOf s c).ownerCloses = false) :
    LeavesSettling (.connExchangeTimeout c) s fun t => (connOf t c).st = .failed ∧ (connOf t c).failReason = 4 ∧
      (connOf t c).exch = none ∧ (∀ r ∈ t.shu.ledger, r.2.cid ≠ c.val) := by
  refine ⟨connExchangeTimeout c s, rfl, ?_⟩
  have hdue : ((decide (e.kind = 3) || decide (e.kind = 4)) && elapsed s e.since (2 * ms)) = true := by
    have hlate : elapsed s e.since (2 * ms) = true := decide_eq_true hd
    simpa [hlate] using hk
  obtain ⟨hst, hled⟩ := toFailed_failed 4 hl ho hc
  simp only [standing, Prod.mk.injEq] at hst
  simp only [connExchangeTimeout, he, hdue, if_true]
  exact ⟨hst.1, hst.2.1, hst.2.2, hled⟩

theorem goIdle_gone (s : State) (c cause : Nat) : Tbl.find? (goIdle s c cause).shu.conns c = none := by
  unfold goIdle
  dsimp only
  rw [closeSettled_shu]
  simp only [Tbl.find?_erase, if_true]

theorem connCloseTimeout_ends {c : Cid} {t0 : Nat} {s : State} (hst : (connOf s c).st = .closing) (hc : (connOf s c).closingAt = some t0)
    (hd : t0 + 10000000 ≤ s.now) : LeavesSettling (.connCloseTimeout c) s fun t => Tbl.find? t.shu.conns c = none := by
  refine ⟨connCloseTimeout c s, rfl, ?_⟩
  have hdue : elapsedOpt s (some t0) (10 * ms) = true := decide_eq_true hd
  simp only [connCloseTimeout, hst, hc, hdue, decide_true, Bool.and_self, if_true, goIdle_gone]

theorem autoResumeTimer_resets {c : Cid} {s : State} (hst : (connOf s c).st = .stalled) (ha : (connOf s c).autoResume = true)
    (he : (connOf s c).exch = none) (hv : s.vault.entropyOk = true) (hd : (connOf s c).stalledAt + cfgv s 0x4204 0 ≤ s.now) :
    LeavesSettling (.autoResumeTimer c) s fun t =>
      (connOf t c).exch = some (newRequest s c 3 true) ∧ (connOf t c).st = .stalled := by
  refine ⟨autoResumeTimer c s, rfl, ?_⟩
  have hdue : elapsed s (connOf s c).stalledAt (cfgv s 0x4204 0) = true := by simpa [elapsed] using hd
  have hr := connOf_startRequest true (by decide : 3 ≠ 2) he hv
  simp only [autoResumeTimer, hst, ha, he, hdue, Option.isNone_none, decide_true, Bool.and_self, if_true]
  rw [hr]
  exact ⟨rfl, hst⟩

/-! ### REKEY_ALL (R261) -/

@[simp] theorem startRequest_vault (s : State) (c kind : Nat) (auto : Bool) : (startRequest s c kind auto).vault = s.vault :=
  (startRequest_keeps (mk := 7367552) (.refl s) (by decide)).vault (by decide)

/-- A connection with an exchange under way begins no other. -/
theorem startRequest_busy {s : State} {c kind : Nat} (auto : Bool) (hk : kind ≠ 2) (he : (connOf s c).exch.isSome = true) :
    startRequest s c kind auto = s := by
  simp [startRequest, hk, he]

theorem rekeys_busy {c : Nat} (cs : List Nat) (s : State) (he : (connOf s c).exch.isSome = true) :
    connOf (cs.foldl (fun s c => startRequest s c 4 false) s) c = connOf s c := by
  induction cs generalizing s with
  | nil => rfl
  | cons j cs ih =>
    by_cases h : c = j
    · rw [List.foldl_cons, ← h, startRequest_busy false (by decide) he, ih s he]
    · have hj := connOf_startRequest_ne s 4 false h
      rw [List.foldl_cons, ih _ (hj ▸ he), hj]

/-- A REKEY started for each of a list of connections: one of the list that has no exchange under way asks for its next epoch. -/
theorem rekeys_request {c : Nat} {cs : List Nat} {s : State} (hm : c ∈ cs) (he : (connOf s c).exch = none) (hv : s.vault.entropyOk = true) :
    (connOf (cs.foldl (fun s c => startRequest s c 4 false) s) c).exch.map (fun e => (e.kind, e.epoch, e.firstSeq)) =
      some (4, ((connOf s c).keyEpoch + 1) % 65536, (connOf s c).txNext) := by
  induction cs generalizing s with
  | nil => exact absurd hm List.not_mem_nil
  | cons j cs ih =>
    by_cases h : c = j
    · have hr := connOf_startRequest false (by decide : 4 ≠ 2) he hv
      rw [List.foldl_cons, ← h, rekeys_busy cs _ (by rw [hr]; rfl), hr]
      rfl
    · have hj := connOf_startRequest_ne s 4 false h
      have := ih (s := startRequest s j 4 false) (List.mem_of_ne_of_mem h hm) (hj ▸ he) ((startRequest_vault ..).symm ▸ hv)
      rwa [hj] at this

theorem rekeyAll_rekeys {sess c : Nat} {x : Conn} {s : State} (h : MayAct s sess 0x4212 0 1) (hx : Tbl.find? s.shu.conns c = some x)
    (hst : x.st = .active) (he : x.exch = none) (hv : s.vault.entropyOk = true) :
    LeavesSettling (.rekeyAll sess 1) s fun t =>
      (connOf t c).exch.map (fun e => (e.kind, e.epoch, e.firstSeq)) = some (4, (x.keyEpoch + 1) % 65536, x.txNext) := by
  refine ⟨_, rfl, ?_⟩
  have hj : connOf (journalAction s sess 0x4212 0 1) c = x := (connOf_of_shu (journalAction_shu ..) c).trans (connOf_eq hx)
  have hm : c ∈ (s.shu.conns.filter fun r => r.2.st = .active && true).map Prod.fst :=
    List.mem_map.mpr ⟨(c, x), List.mem_filter.mpr ⟨Tbl.mem_of_find? hx, by simp [hst]⟩, rfl⟩
  have hr := rekeys_request (s := journalAction s sess 0x4212 0 1) hm (hj ▸ he) ((journalAction_vault ..).symm ▸ hv)
  rw [hj] at hr
  rw [actWrite_done h rfl, onOne_one, actRekeyAll, rekeyWhere, journalAction_shu]
  exact hr

/-- Settles O24, a lemma for each command. -/
theorem connectionExchanges : Obligations.ConnectionExchanges := by
  unfold Obligations.ConnectionExchanges
  exact ⟨fun _ _ _ _ _ _ hf hb he hz ht hd hj hst hc => connReqOpen_opens hf hb he hz ht hd hj hst hc,
    fun _ _ _ _ _ _ _ hf hc hx hlive hk ht hn hl => connReqClose_drains hf hc ⟨hx, hlive, hk, ht, hn⟩ hl,
    fun _ _ _ _ _ _ _ _ hf hc hx hlive hk ht hn ha he hz hv => connReqReset_resets hf hc ⟨hx, hlive, hk, ht, hn⟩ ha he hz hv,
    fun _ _ _ _ _ _ _ _ hf hc hx hlive hk ht hn ha he hz hv => connReqRekey_rekeys hf hc ⟨hx, hlive, hk, ht, hn⟩ ha he hz hv,
    fun _ _ _ _ _ _ _ _ hf hc hx hlive hk ht hn he hek hok hst hl => connResp_ends hf hc ⟨hx, hlive, hk, ht, hn⟩ he hek hok hst hl,
    fun _ _ _ he hs hk => connReqResend_resends he hs hk,
    fun _ _ _ he hst hk hd => connOpenTimeout_ends he hst hk hd,
    fun _ _ _ he hk hd hl ho hc => connExchangeTimeout_fails he hk hd hl ho hc,
    fun _ _ _ hst hc hd => connCloseTimeout_ends hst hc hd,
    fun _ _ hst ha he hv hd => autoResumeTimer_resets hst ha he hv hd,
    fun _ _ _ _ h hx hst he hv => rekeyAll_rekeys h hx hst he hv⟩

end Sys2Proof.Scope
end

section
/-!
Requests to oneself, for the refutation of O23: the module sends itself a request of an exchange only where it starts or repeats one, and the
end of a step in CONFIG under `spoolCfg` starts none. What the end of such a step puts into the inbox has arrived by a weft port, or is a
LATE_DROP.
-/

namespace Sys2Proof.Scope

open Sys2Proof.Machine Sys2Proof.Laws

-- One declaration at a time: side by side their threads are too much for the memory limit of the check.
set_option Elab.async false

/-! ### A request to oneself -/

/-- A request of an exchange that the module has sent itself: it holds no bobbins. -/
def SelfAsked (r : Inbound) : Prop := r.chain = none ∧ envTyp r.op = 10

/-- The inbox holds a request that the module has sent itself. -/
def Asks (s : State) : Prop := ∃ r ∈ s.shu.inbox, SelfAsked r

theorem Asks.of_inbox {s t : State} (h : t.shu.inbox = s.shu.inbox) : Asks t → Asks s := fun ⟨r, hr, ha⟩ => ⟨r, h ▸ hr, ha⟩

theorem Asks.of_append {s t : State} {r : Inbound} (h : t.shu.inbox = s.shu.inbox ++ [r]) (hr : ¬ SelfAsked r) : Asks t → Asks s := by
  rintro ⟨q, hq, ha⟩
  rw [h, List.mem_append, List.mem_singleton] at hq
  rcases hq with hq | rfl
  · exact ⟨q, hq, ha⟩
  · exact absurd ha hr

/-- Unless it is no longer calm, `t` shows what `s` showed, and the module has not sent itself a request meanwhile. -/
def Tame (s t : State) : Prop := Calm t → look t = look s ∧ (Asks t → Asks s)

theorem Tame.refl (s : State) : Tame s s := fun _ => ⟨rfl, id⟩

theorem Tame.trans {s t u : State} (h : Tame s t) (k : Tame t u) : Tame s u := fun c =>
  have ⟨kl, ka⟩ := k c
  have ⟨hl, ha⟩ := h (c.congr kl)
  ⟨kl.trans hl, ha ∘ ka⟩

theorem Tame.foldl {α : Type} {f : State → α → State} (hf : ∀ u a, Tame u (f u a)) (l : List α) (s : State) : Tame s (l.foldl f s) := by
  induction l generalizing s with
  | nil => exact .refl s
  | cons a l ih => exact (hf s a).trans (ih _)

/-- What leaves calm states still is tame if, in a calm state, it puts no request to oneself into the inbox. -/
theorem Still.tame {s t : State} (h : Still s t) (ha : Calm s → Asks t → Asks s) : Tame s t := fun c =>
  have hl := (h c).1
  ⟨hl, ha (c.congr hl)⟩

theorem Still.tame_of_inbox {s t : State} (h : Still s t) (hi : t.shu.inbox = s.shu.inbox) : Tame s t := h.tame fun _ => .of_inbox hi

theorem Still.tame_of_shu {s t : State} (h : Still s t) (hs : t.shu = s.shu) : Tame s t := h.tame_of_inbox (congrArg ShuBlk.inbox hs)

/-- What does nothing in a calm state. -/
theorem Still.tame_of_eq {s t : State} (h : Still s t) (he : Calm s → t = s) : Tame s t := h.tame fun c => he c ▸ id

/-! ### Weft ports (R190) -/

theorem relayBroken_tame (s : State) (b : Nat × Nat × Nat) : Tame s (relayBroken s b) :=
  (relayBroken_still s b).tame_of_shu ((relayBroken_keeps (mk := allBut .shu) (.refl s) (by decide)).shu (by decide))

theorem weftClassified_tame (s : State) (e : Nat × Nat) : Tame s (weftClassified s e) :=
  (weftClassified_still s e).tame_of_shu ((weftClassified_keeps (mk := allBut .shu) (.refl s) (by decide)).shu (by decide))

theorem dropQueue_shu (s : State) (p : Nat) : (dropQueue s p).shu = s.shu :=
  (dropQueue_keeps (mk := allBut .shu) (.refl s) (by decide)).shu (by decide)

theorem pathRemoved_off {s : State} (h : s.cfg = spoolCfg) (p cause : Nat) : pathRemoved s p cause = s := by
  simp [pathRemoved, fabricOn_off h]

theorem portDowned_tame (s : State) (p : Nat) : Tame s (portDowned s p) := by
  refine (portDowned_still s p).tame fun c => .of_inbox ?_
  unfold portDowned
  rw [dropQueue_shu]
  have hc : (forgetCredits s p).cfg = spoolCfg := c.cfg
  simp only [pathRemoved_off hc]
  rfl

theorem portRisen_tame (s : State) (p : Nat) : Tame s (portRisen s p) := (portRisen_still s p).tame_of_shu rfl

theorem arrivalCounted_shu (s : State) (p : Nat) (o : WireOp) (n : Nat) : (arrivalCounted s p o n).shu = s.shu :=
  (arrivalCounted_keeps (mk := allBut .shu) (.refl s) (by decide)).shu (by decide)

theorem relayCounted_shu (s : State) (d : Nat) (o : WireOp) (n : Nat) : (relayCounted s d o n).shu = s.shu :=
  (relayCounted_keeps (mk := allBut .shu) (.refl s) (by decide)).shu (by decide)

theorem rateEvent_shu {s : State} {code place gap : Nat} {put : State → Nat → State} (h : ∀ u n, (put u n).shu = u.shu) :
    (rateEvent s code place gap put).shu = s.shu := by
  unfold rateEvent
  extract_lets k n due
  split
  · exact h _ _
  · rfl

/-- What a weft port brings for this module holds bobbins. -/
theorem fabricArrive_asks (s : State) (p tc : Nat) (bs : List Byte) : Asks (fabricArrive s p tc bs) → Asks s := by
  unfold fabricArrive
  extract_lets o slots t1 freed drop _ q
  have h1 : t1.shu = s.shu := arrivalCounted_shu ..
  have hfreed (u : State) : (freed u).shu = u.shu := weftRelease_shu ..
  have hdrop (u : State) : (drop u).shu = u.shu := (count_shu ..).trans (hfreed u)
  split
  · exact .of_inbox (by rw [hdrop, rateEvent_shu fun _ _ => event_shu .., h1])
  · split
    · exact .of_inbox (by rw [hdrop, h1])
    · split
      · exact .of_inbox (by rw [hfreed, h1])
      · split
        · have hq : q.1.shu = s.shu := (storeChain_shu ..).trans h1
          exact .of_append (r := { op := o, chain := some q.2, src := p }) (hq ▸ rfl) fun h => by cases h.1
        · split
          · exact .of_inbox (by rw [hdrop, h1])
          · split
            · exact .of_inbox (by rw [count_shu, hfreed, noRoute_shu, h1])
            · exact .of_inbox (by rw [enqueueOper_shu, storeChain_shu, h1])

theorem weftArrival_tame (s : State) (a : Arrival) : Tame s (weftArrival s a) := by
  refine (weftArrival_still s a).tame fun _ => ?_
  unfold weftArrival
  extract_lets freed
  have hfreed (u : State) : (freed u).shu = u.shu := weftRelease_shu ..
  split
  · exact .of_inbox (by rw [hfreed, freeChain_shu])
  · exact .of_inbox (by rw [hfreed, freeChain_shu, relayCounted_shu, arrivalCounted_shu])
  · exact .of_inbox (by rw [hfreed])
  · exact fabricArrive_asks _ _ _ _

theorem presentRecord_inbox (s : State) (kind cid seq n ev : Nat) (data : List Byte) (mirror : Option (Nat × Nat)) (catchUp : Bool) :
    (presentRecord s kind cid seq n ev data mirror catchUp).shu.inbox = s.shu.inbox := by
  unfold presentRecord
  dsimp only
  split
  · rw [count_shu]
  · rfl

theorem sendReleases_tame (s : State) : Tame s (sendReleases s) := by
  refine (sendReleases_still s).tame_of_inbox ?_
  unfold sendReleases
  extract_lets rs _ t1
  split
  · rfl
  · exact foldl_stands (g := fun u => u.shu.inbox) (fun u c => foldl_stands (g := fun u => u.shu.inbox) (fun w q => presentRecord_inbox ..) _ u) _ t1

theorem weftSettled_tame (s : State) : Tame s (weftSettled s) := by
  unfold weftSettled
  extract_lets down errs ins up broken _ t1 t2 t3 t4 t5 t6 t7
  have h1 : Tame s t1 := Still.tame_of_shu ((Still.refl s).same rfl rfl) rfl
  have h6 : Tame s t6 := ((((h1.trans (.foldl relayBroken_tame _ _)).trans (.foldl weftClassified_tame _ _)).trans
    (.foldl portDowned_tame _ _)).trans (.foldl portRisen_tame _ _)).trans (.foldl weftArrival_tame _ _)
  have h7 : Tame t6 t7 := by
    have hc : t7.cfg = t6.cfg :=
      (Keeps.foldl (m := allBut .cfg) (.refl t6) (weftPorts t6) fun u p hu => portFollowed_keeps hu (by decide)).cfg (by decide)
    intro c
    have e : t7 = t6 := by simp [t7, weftPorts_none (hc.symm.trans c.cfg)]
    rw [e]
    exact ⟨rfl, id⟩
  have hfirst := (noteFirstActive_still t7).tame_of_shu ((noteFirstActive_keeps (mk := allBut .shu) (.refl t7) (by decide)).shu (by decide))
  have htwin (u : State) := (twinCheck_still u).tame_of_eq fun c => by simp [twinCheck, twin_off c.cfg]
  have hsilence (u : State) := (silenceEnds_still u).tame_of_shu ((silenceEnds_keeps (mk := allBut .shu) (.refl u) (by decide)).shu (by decide))
  have hreports (u : State) := (adoptionReports_still u).tame_of_eq fun c => by simp [adoptionReports, fabricOn_off c.cfg]
  have hconns (u : State) := (treadleConns_still u).tame_of_eq fun c => by simp [treadleConns, inService_config c.state]
  exact (((((h6.trans h7).trans hfirst).trans (htwin _)).trans (hsilence _)).trans (sendReleases_tame _)).trans
    ((hreports _).trans (hconns _))

/-! ### Late drops, held TLPs, tunnels and imports (R117, R129, R248) -/

/-- The type of an operation is the one its envelope was made with. -/
theorem envTyp_word {o : WireOp} {e : EnvFields} (h : o.env = BitVec.ofNat 128 e.word) : envTyp o = e.typ % 16 := by
  simp only [envTyp, h, BitVec.toNat_ofNat, bits, EnvFields.word, at_, Nat.shiftLeft_eq, Nat.shiftRight_eq_div_pow]
  omega

theorem envTyp_sealCtl (k : List Byte) (n : Nat) (e : EnvFields) (body : List Byte) : envTyp (sealCtl k n e.word body) = e.typ % 16 :=
  envTyp_word rfl

theorem launch_asks {o : WireOp} (h : envTyp o ≠ 10) (s : State) (c : Nat) : Asks (launch s c o) → Asks s := by
  by_cases hm : isOwnMid s (envDst o / 128) = true
  · refine .of_append (r := { op := o }) ?_ fun ha => h ha.2
    simp [launch, hm]
  · exact .of_inbox (launch_inbox (by simpa using hm) c)

theorem lateDropSent_tame (s : State) (d : LateDrop) : Tame s (lateDropSent s d) := by
  refine (lateDropSent_still s d).tame fun _ => ?_
  unfold lateDropSent sendNak sendControl
  extract_lets env x t1 y
  split
  · exact .of_inbox (by rw [count_shu])
  · refine fun ha => Asks.of_inbox ?_ (launch_asks ?_ _ _ ha)
    · rw [setConn_inbox, count_shu]
    · rw [envTyp_sealCtl]
      exact (by decide : 9 % 16 ≠ 10)

theorem lateDropsSent_tame (s : State) : Tame s (lateDropsSent s) :=
  .trans (Still.tame_of_inbox ((Still.refl s).same rfl rfl) rfl) (.foldl lateDropSent_tame _ _)

theorem heldTaken_tame (s : State) (v : Nat) : Tame s (heldTaken s v) := by
  unfold heldTaken
  split
  · exact .refl s
  · have hp : Tame s (setPart s v { partOf s v with held := [] }) := Still.tame_of_shu ((Still.refl s).same rfl rfl) rfl
    exact hp.trans (.foldl (fun u r => (tlpIngress_still _ _ u).tame_of_eq fun c => by simp [tlpIngress, inService_config c.state]) _ _)

theorem tunnelArrived_tame (s : State) (r : Nat × Nat × Option Nat × Tlp) : Tame s (tunnelArrived s r) := by
  refine (tunnelArrived_still s r).tame fun c => .of_inbox ?_
  have e : tunnelArrived s r = handOver s r.2.2.1 s.loom.nextChain := by simp [tunnelArrived, ownerOf, exporterOf, c.imported]
  rw [e, (handOver_keeps (mk := allBut .shu) (.refl s) (by decide)).shu (by decide)]

theorem tunnelSettled_tame (s : State) : Tame s (tunnelSettled s) :=
  .trans (Still.tame_of_inbox ((Still.refl s).same rfl rfl) rfl) (.foldl tunnelArrived_tame _ _)

theorem importsFollowed_tame (s : State) : Tame s (importsFollowed s) :=
  (importsFollowed_still s).tame_of_eq fun c => by simp [importsFollowed, c.imported]

/-! ### The engine (R311): what it presents waits -/

@[simp] theorem present_inbox (s : State) (op : NewOp) : (present s op).shu.inbox = s.shu.inbox := by simp [present]

@[simp] theorem presentFence_inbox (s : State) (c : Nat) (o : Origin) (x : Option Tlp) (k : Option Ticket) (inst ord : Nat) :
    (presentFence s c o x k inst ord).shu.inbox = s.shu.inbox := by simp [presentFence]

@[simp] theorem descMod_inbox (s : State) (t : Ticket) (f : DescState → DescState) : (descMod s t f).shu.inbox = s.shu.inbox := by
  rw [descMod_shu]

@[simp] theorem descCond_inbox (s : State) (t : Ticket) (status detail : Nat) : (descCond s t status detail).shu.inbox = s.shu.inbox :=
  descMod_inbox ..

theorem presentDesc_inbox (s : State) (k : Ticket) (d : DescState) : (presentDesc s k d).shu.inbox = s.shu.inbox := by
  unfold presentDesc
  extract_lets +onlyGivenNames o t1
  have h1 : t1.shu.inbox = s.shu.inbox := descMod_inbox ..
  split
  · exact h1
  · split
    · split
      · exact h1
      · rw [descCond_inbox, h1]
    · extract_lets put fence t2 data ps last t3
      have hput (u : State) (op : NewOp) : (put u op).shu.inbox = u.shu.inbox := by simp [put]
      have hfence (u : State) : (fence u).shu.inbox = u.shu.inbox := by simp [fence]
      have h2 : t2.shu.inbox = s.shu.inbox := by
        unfold t2
        split
        · rw [hfence, h1]
        · exact h1
      have h3 : t3.shu.inbox = t2.shu.inbox := by
        unfold t3
        split
        · exact foldl_stands (g := fun u => u.shu.inbox) (fun u p => hput u _) _ _
        · exact foldl_stands (g := fun u => u.shu.inbox) (fun u p => hput u _) _ _
        · exact hput _ _
        · exact hfence _
        · rfl
      split
      · rw [hfence, h3, h2]
      · rw [h3, h2]

theorem advanceQueue_inbox (fuel : Nat) (s : State) (i q : Nat) : (advanceQueue fuel s i q).shu.inbox = s.shu.inbox := by
  induction fuel generalizing s with
  | zero => rfl
  | succ fuel ih =>
    unfold advanceQueue
    split
    · rfl
    · split
      · rfl
      · split
        · rfl
        · rw [ih, presentDesc_inbox]

theorem engineAnswer_inbox (s : State) (a : Nat × Nat × Bool × List Byte) : (engineAnswer s a).shu.inbox = s.shu.inbox := by
  unfold engineAnswer
  split
  · rfl
  · dsimp only
    split
    · rw [advanceQueue_inbox, descCond_inbox, descMod_inbox]
    · split
      · exact descMod_inbox ..
      · rw [advanceQueue_inbox, descMod_inbox]
        exact descMod_inbox ..

theorem engineSettled_tame (s : State) : Tame s (engineSettled s) := by
  refine (engineSettled_still s).tame_of_inbox ?_
  unfold engineSettled
  rw [(invalidateSettled_keeps (mk := allBut .shu) (.refl _) (by decide)).shu (by decide)]
  exact foldl_stands (g := fun u => u.shu.inbox) engineAnswer_inbox _ _

/-! ### Error messages to the hosts (R341) -/

theorem toPort_message_shu (s : State) (p src : Nat) (t : Tlp) (h : t.kind = .message) : (toPort s p src {} t).shu = s.shu := by
  have hk : tlpKind t = 0 := by simp [tlpKind, h]
  unfold toPort
  simp only [hk, Nat.zero_ne_one, if_false, if_true, refuseTlp_message _ _ _ _ h]
  split
  · unfold deliverTlp
    simp only [tlpAccess, h, refuseTlp_message _ _ _ _ h]
    split
    · rfl
    · exact enqueueTlp_shu ..
  · exact (dropPosted_keeps (mk := allBut .shu) (.refl s) (by decide)).shu (by decide)

/-- A partition that is off sends its host no error message. -/
theorem errorsSent_tame (s : State) : Tame s (errorsSent s) := by
  unfold errorsSent
  refine .trans (Still.tame_of_shu ((Still.refl s).same rfl rfl) rfl) (.foldl (fun u e => ?_) _ _)
  dsimp only
  split
  · next hv =>
    intro c
    have hc : u.cfg = spoolCfg :=
      (((Keeps.ite (.refl u) (toUpstream_keeps (mk := allBut .cfg) (.refl u) (by decide))).cfg (by decide)).symm).trans c.cfg
    rw [if_pos (by simp [vsState, partEnabled_off hc hv])]
    exact ⟨rfl, id⟩
  · exact (toPort_message_still _ _ _ _ rfl).tame_of_shu (toPort_message_shu _ _ _ _ rfl)

/-! ### The end of a step -/

/-- The end of a step up to the dobby. -/
def beforeDobby (s : State) : State :=
  errorsSent (importsFollowed (engineSettled (tunnelSettled (heldSettled (lateDropsSent (weftSettled s))))))

theorem beforeDobby_tame (s : State) : Tame s (beforeDobby s) :=
  ((((((weftSettled_tame s).trans (lateDropsSent_tame _)).trans (.foldl heldTaken_tame _ _)).trans (tunnelSettled_tame _)).trans
    (engineSettled_tame _)).trans (importsFollowed_tame _)).trans (errorsSent_tame _)

/-- A step whose end is calm, with no VME master waiting, has not had the module send itself a request in its end. -/
theorem settle_asks {s : State} (c : Calm (settle s)) (hd : (settle s).dob.inbound = none) (ha : Asks (settle s)) : Asks s := by
  have hs : settle s = health (denialsRecorded (dobbySettled (beforeDobby s))) 0 := rfl
  rw [hs] at c hd ha
  have hh := health_config c.state
  rw [hh] at c hd ha
  have k := denialsRecorded_keeps (mk := 7364608) (.refl (dobbySettled (beforeDobby s))) (by decide)
  have hc := denialsRecorded_calm c
  have hcfg : (dobbySettled (beforeDobby s)).cfg = (beforeDobby s).cfg := (dobbySettled_keeps (mk := 7502720) (.refl _) (by decide)).cfg (by decide)
  have he := dobbySettled_idle (hcfg.symm.trans hc.cfg) (by rw [← k.dob (by decide), hd])
  rw [he] at hc k ha
  obtain ⟨-, hasks⟩ := beforeDobby_tame s hc
  have hshu := k.shu (by decide)
  exact hasks (ha.imp fun r hr => by rwa [hshu] at hr)

end Sys2Proof.Scope
end

section
/-!
The last acknowledgement of an adopted connection (R248, R372): it closes the connection, and the request of that CLOSE, when the peer is a MID
of this module itself, is in the inbox before the step ends.
-/

namespace Sys2Proof.Scope

open Sys2Proof.Machine Sys2Proof.Laws

-- One declaration at a time: side by side their threads are too much for the memory limit of the check.
set_option Elab.async false

/-! ### The counterexample -/

def adoptedKeys : KeySet :=
  { dataTx := [], dataRx := [], ctlTx := List.replicate 32 7#8, ctlRx := List.replicate 32 0#8 }

/-- An ACK of MID 6 to MID 6 that covers sequence number 4. -/
def lastAck : WireOp :=
  sealCtl adoptedKeys.ctlRx 1 (at_ 0 1 + at_ 4 8 + at_ 20 768 + at_ 37 768 + at_ 54 3 + at_ 68 4) (leBytes 32 (at_ 160 4 + at_ 192 1))

/-- A connection adopted from the lost twin, whose peer is the twin's own MID. -/
def adoptedConn : Conn :=
  { st := .active, peerMid := 6, peerCid := 3, txNext := 5, keys := some adoptedKeys, adopted := true }

/-- Its one entry. -/
def adoptedEntry : LedgerEntry := { cid := 16387, seq := 4, typ := 6, slots := 1, chain := 7, sent := true, op := { cid := 16387, typ := 6 } }

/-- A module in CONFIG under `spoolCfg` that replays the connections of its lost twin, MID 6. The newest record is event 0x0C0F. -/
def replayingTwin : State where
  cfg := spoolCfg
  module := { state := .config }
  fab := { adoptedMid := some 6 }
  twin := { replaying := true, lostMid := 6 }
  obs := { history := [{ code := 0x0C0F }] }
  shu := { conns := [(16387, adoptedConn)], ledger := [(0, adoptedEntry)] }

/-- The same with the ACK in its inbox. -/
def ackWaits : State := { replayingTwin with shu := { replayingTwin.shu with inbox := [{ op := lastAck }] } }

/-- What taking the ACK leaves: the connection's CLOSE is under way. -/
def lastAcked : State :=
  applyAck (count (setConn replayingTwin 16387 { adoptedConn with ctlHigh := 1, ctlSeen := [1] }) (ctrShuttle 0 29) 1) 16387 4 4 0 0

theorem lastAck_tag : ctlTagOk adoptedKeys.ctlRx (leAt lastAck.body 24 8) lastAck = true := ctlTagOk_sealCtl _ _ _ _ (by decide)

theorem takenFrom_ackWaits : takenFrom ackWaits { op := lastAck } = replayingTwin := by
  simp [takenFrom, ackWaits, freeOpt, replayingTwin]

/-- What the ACK says: its context, its count, its sequence number, CUM_SEQ, RUN and CE_COUNT. -/
theorem lastAck_fields : controlContext replayingTwin lastAck = some 16387 ∧ leAt lastAck.body 24 8 = 1 ∧ envSeq lastAck = 4 ∧
    bits (leAt lastAck.body 0 32) 160 32 = 4 ∧ bits (leAt lastAck.body 0 32) 144 16 = 0 ∧ bits (leAt lastAck.body 0 32) 128 16 = 0 := by
  decide +kernel

theorem ackReceive_ackWaits : ackReceive ackWaits = lastAcked := by
  obtain ⟨hc, hn, hseq, hcum, hrun, hce⟩ := lastAck_fields
  have hf : takeControl ackWaits (fun o => envTyp o = 8) = some (replayingTwin, lastAck) :=
    (takeControl_found (r := { op := lastAck }) (by decide +kernel)).trans (by rw [takenFrom_ackWaits])
  have hx : connOf replayingTwin 16387 = adoptedConn := rfl
  have hlive : adoptedConn.live = true := rfl
  have ha := acceptControl_noted (s := replayingTwin) (c := 16387) (k := adoptedKeys) rfl lastAck_tag (by rw [hn]; rfl)
  have hq : noteCount 1 adoptedConn.ctlHigh adoptedConn.ctlSeen = (1, [1]) := rfl
  rw [hn, hx, hq] at ha
  simp only [ackReceive, hf, hc, hx, hlive, ha, hseq, hcum, hrun, hce, connOf_setConn, Bool.not_true, Bool.false_eq_true, if_false]
  rfl

/-- The end of the step in which the ACK is taken. -/
def lastAckedEnd : State := settle lastAcked

/-- It is calm, no VME master waits, and the module has sent itself the CLOSE. -/
theorem lastAckedEnd_values : lastAckedEnd.cfg = spoolCfg ∧ lastAckedEnd.module.state = .config ∧ lastAckedEnd.fab.imported = [] ∧
    lastAckedEnd.eng.adm = Vector.replicate 32 {} ∧ lastAckedEnd.obs.history.getLast?.map EventRec.code = some 0x0C0F ∧
    lastAckedEnd.dob.inbound = none ∧ (lastAckedEnd.shu.inbox.any fun r => r.chain = none && envTyp r.op = 10) = true := by
  decide +kernel

theorem lastAckedEnd_calm : Calm lastAckedEnd := by
  obtain ⟨hc, hs, hf, ha, hl, -⟩ := lastAckedEnd_values
  refine ⟨hc, hs, hf, fun v => ?_, hl⟩
  by_cases hv : v < 32 <;> simp [admOf, ha, vget, hv]

theorem lastAckedEnd_asks : Asks lastAckedEnd := by
  obtain ⟨-, -, -, -, -, -, h⟩ := lastAckedEnd_values
  simpa [Asks, SelfAsked] using h

/-- Refutes O23, at its first clause: the last entry of an adopted connection released, the connection closes (R372), and the request of that
CLOSE is for a MID of this module and enters its inbox, which so has more left in it than the clause says. The clause asks for some state
with nothing more in its inbox whose end is the end of the step; that end being calm, the step's end has sent no such request. -/
theorem not_shuttleReceives : ¬ Obligations.ShuttleReceives := by
  unfold Obligations.ShuttleReceives
  rintro ⟨h, -⟩
  obtain ⟨hc, hn, -, hcum, -⟩ := lastAck_fields
  obtain ⟨u, he, -, hu⟩ := h lastAck none 128 16387 adoptedConn adoptedKeys 0 adoptedEntry ackWaits (by decide +kernel) hc rfl rfl rfl
    lastAck_tag (by rw [hn]; rfl) rfl rfl rfl (by rw [hcum]; decide +kernel)
  have hend : settle (ackReceive ackWaits) = settle u := Host.Outcome.next.inj he
  rw [ackReceive_ackWaits, ← lastAckedEnd] at hend
  obtain ⟨-, -, -, -, -, hd, -⟩ := lastAckedEnd_values
  obtain ⟨r, hr, -⟩ := settle_asks (hend ▸ lastAckedEnd_calm) (hend ▸ hd) (hend ▸ lastAckedEnd_asks)
  rw [hu] at hr
  simp [ackWaits] at hr

end Sys2Proof.Scope
end

section
/-!
What each command of the windows, the window engine, the heddles, the selvedge, the twin pair and the dobby leaves as it is, for O54: the lists
of parts that the statement names are the masks of the lemmas of `Keeps`.
-/

namespace Sys2Proof.Scope

open Sys2Proof.Machine Sys2Proof.Laws

-- One declaration at a time: side by side their threads are too much for the memory limit of the check.
set_option Elab.async false

/-- Settles O54: each command keeps what the mask of its `Keeps` lemma keeps, and that is the list of its clause. -/
theorem framesWindowsToDobby : Obligations.FramesWindowsToDobby := by
  unfold Obligations.FramesWindowsToDobby
  exact ⟨fun _ => spares_of_keeps (execConnResp_keeps (.refl _) (by decide)),
    fun _ _ => spares_of_keeps (execConnReqResend_keeps (.refl _) (by decide)),
    fun _ _ => spares_of_keeps (execConnOpenTimeout_keeps (.refl _) (by decide)),
    fun _ _ => spares_of_keeps (execConnExchangeTimeout_keeps (.refl _) (by decide)),
    fun _ _ => spares_of_keeps (execConnCloseTimeout_keeps (.refl _) (by decide)),
    fun _ _ => spares_of_keeps (execAutoResumeTimer_keeps (.refl _) (by decide)),
    fun _ _ _ => spares_of_keeps (execRekeyAll_keeps (.refl _) (by decide)),
    fun _ _ _ => spares_of_keeps (execApertureAccess_keeps (.refl _) (by decide)),
    fun _ => spares_of_keeps (execHeldLoadSend_keeps (.refl _) (by decide)),
    fun _ => spares_of_keeps (execVisibilityPoint_keeps (.refl _) (by decide)),
    fun _ _ => touchesOnly_of_keeps (execWindowRevokeComplete_keeps (.refl _) (by decide)),
    fun _ _ _ _ => touchesOnly_of_keeps (execPostfailClear_keeps (.refl _) (by decide)),
    fun _ => touchesOnly_of_keeps (execWindowOpen_keeps (.refl _) (by decide)),
    fun _ => touchesOnly_of_keeps (execWindowRevoke_keeps (.refl _) (by decide)),
    fun _ => touchesOnly_of_keeps (execWindowFree_keeps (.refl _) (by decide)),
    fun _ => touchesOnly_of_keeps (execWindowRead_keeps (.refl _) (by decide)),
    fun _ => touchesOnly_of_keeps (execImportWrite_keeps (.refl _) (by decide)),
    fun _ => touchesOnly_of_keeps (execImportInvalidate_keeps (.refl _) (by decide)),
    fun _ => touchesOnly_of_keeps (execImportRead_keeps (.refl _) (by decide)),
    fun _ => touchesOnly_of_keeps (execImportSetGen_keeps (.refl _) (by decide)),
    fun _ => touchesOnly_of_keeps (execConnOpen_keeps (.refl _) (by decide)),
    fun _ => touchesOnly_of_keeps (execConnModify_keeps (.refl _) (by decide)),
    fun _ => touchesOnly_of_keeps (execConnReset_keeps (.refl _) (by decide)),
    fun _ => touchesOnly_of_keeps (execConnRead_keeps (.refl _) (by decide)),
    fun _ => touchesOnly_of_keeps (execConnClose_keeps (.refl _) (by decide)),
    fun _ => touchesOnly_of_keeps (execLedgerRead_keeps (.refl _) (by decide)),
    fun _ => touchesOnly_of_keeps (execFenceBind_keeps (.refl _) (by decide)),
    fun _ => touchesOnly_of_keeps (execQueueCreate_keeps (.refl _) (by decide)),
    fun _ => touchesOnly_of_keeps (execQueueDelete_keeps (.refl _) (by decide)),
    fun _ => touchesOnly_of_keeps (execShareSet_keeps (.refl _) (by decide)),
    fun _ => spares_of_keeps (execTuMap_keeps (.refl _) (by decide)),
    fun _ => touchesOnly_of_keeps (execTuUnmap_keeps (.refl _) (by decide)),
    fun _ => touchesOnly_of_keeps (execTuUnmapComplete_keeps (.refl _) (by decide)),
    fun _ => touchesOnly_of_keeps (execTuMode_keeps (.refl _) (by decide)),
    fun _ _ _ => touchesOnly_of_keeps (execAdmqCtrl_keeps (.refl _) (by decide)),
    fun _ _ _ => touchesOnly_of_keeps (execAdmcqHead_keeps (.refl _) (by decide)),
    fun _ _ _ => touchesOnly_of_keeps (execVfMsgRing_keeps (.refl _) (by decide)),
    fun _ _ _ _ => touchesOnly_of_keeps (execVfReplyWrite_keeps (.refl _) (by decide)),
    fun _ _ _ => touchesOnly_of_keeps (execVfEnable_keeps (.refl _) (by decide)),
    fun _ _ => touchesOnly_of_keeps (execVfDisable_keeps (.refl _) (by decide)),
    fun _ _ => touchesOnly_of_keeps (execVfFlr_keeps (.refl _) (by decide)),
    fun _ _ => touchesOnly_of_keeps (execVfFlrComplete_keeps (.refl _) (by decide)),
    fun _ _ => spares_of_keeps (execPfFlr_keeps (.refl _) (by decide)),
    fun _ _ _ => touchesOnly_of_keeps (execDescWrite_keeps (.refl _) (by decide)),
    fun _ _ _ => touchesOnly_of_keeps (execDescRead_keeps (.refl _) (by decide)),
    fun _ _ _ => touchesOnly_of_keeps (execDescAtomic_keeps (.refl _) (by decide)),
    fun _ _ _ => touchesOnly_of_keeps (execDescFence_keeps (.refl _) (by decide)),
    fun _ _ _ => touchesOnly_of_keeps (execDescNop_keeps (.refl _) (by decide)),
    fun _ _ _ => touchesOnly_of_keeps (execDescriptorComplete_keeps (.refl _) (by decide)),
    fun _ _ _ => touchesOnly_of_keeps (execDescFetchFail_keeps (.refl _) (by decide)),
    fun _ _ _ _ _ => spares_of_keeps (execFenceSlotRead_keeps (.refl _) (by decide)),
    fun _ _ _ => touchesOnly_of_keeps (execHedCommit_keeps (.refl _) (by decide)),
    fun _ => touchesOnly_of_keeps (execHedCommitComplete_keeps (.refl _) (by decide)),
    fun _ _ _ _ => touchesOnly_of_keeps (execDebugAccess_keeps (.refl _) (by decide)),
    fun _ _ _ _ => touchesOnly_of_keeps (execSelIsolateCmd_keeps (.refl _) (by decide)),
    fun _ _ => touchesOnly_of_keeps (execRoutingStateError_keeps (.refl _) (by decide)),
    fun _ _ _ => touchesOnly_of_keeps (execShadowReloadDone_keeps (.refl _) (by decide)),
    fun _ _ _ _ => touchesOnly_of_keeps (execSelErrClear_keeps (.refl _) (by decide)),
    fun _ _ => touchesOnly_of_keeps (execModuleFatalError_keeps (.refl _) (by decide)),
    fun _ => spares_of_keeps (execMirrorRecordReceive_keeps (.refl _) (by decide)),
    fun _ => spares_of_keeps (execTwinSilence_keeps (.refl _) (by decide)),
    fun _ => spares_of_keeps (execTwinLostDeclare_keeps (.refl _) (by decide)),
    fun _ => spares_of_keeps (execMirrorRateAlert_keeps (.refl _) (by decide)),
    fun _ _ => spares_of_keeps (execDobbyTake_keeps (.refl _) (by decide)),
    fun _ => touchesOnly_of_keeps (execVmeCycleStart_keeps (.refl _) (by decide)),
    fun _ _ => touchesOnly_of_keeps (execVmeCycleEnd_keeps (.refl _) (by decide)),
    fun _ => touchesOnly_of_keeps (execVmeBerr_keeps (.refl _) (by decide)),
    fun _ => spares_of_keeps (execDobBusTimerExpiry_keeps (.refl _) (by decide)),
    fun _ _ => touchesOnly_of_keeps (execVmeInboundCycle_keeps (.refl _) (by decide)),
    fun _ _ _ _ _ => touchesOnly_of_keeps (execVmeSemaphoreCycle_keeps (.refl _) (by decide)),
    fun _ _ _ _ _ => touchesOnly_of_keeps (execSemRead_keeps (.refl _) (by decide)),
    fun _ _ _ _ => touchesOnly_of_keeps (execSemWrite_keeps (.refl _) (by decide)),
    fun _ _ => touchesOnly_of_keeps (execVmeIrqAssert_keeps (.refl _) (by decide)),
    fun _ _ => touchesOnly_of_keeps (execIackDone_keeps (.refl _) (by decide)),
    fun _ _ _ => touchesOnly_of_keeps (execIhRearm_keeps (.refl _) (by decide)),
    fun _ _ _ => touchesOnly_of_keeps (execIrqRaise_keeps (.refl _) (by decide)),
    fun _ _ _ => touchesOnly_of_keeps (execIrqWithdraw_keeps (.refl _) (by decide)),
    fun _ width _ => touchesOnly_of_keeps (execIackinReceive_keeps (_width := width) (.refl _) (by decide)),
    fun _ => touchesOnly_of_keeps (execLockBackoff_keeps (.refl _) (by decide)),
    fun _ _ => touchesOnly_of_keeps (execUnlockMessage_keeps (.refl _) (by decide)),
    fun _ => touchesOnly_of_keeps (execBusRequestPending_keeps (.refl _) (by decide)),
    fun _ _ _ => spares_of_keeps (execDobConnOpen_keeps (.refl _) (by decide)),
    fun _ _ _ => spares_of_keeps (execDobConnClose_keeps (.refl _) (by decide)),
    fun _ _ _ => spares_of_keeps (execDobConnReset_keeps (.refl _) (by decide)),
    fun _ => touchesOnly_of_keeps (execSysresetInput_keeps (.refl _) (by decide))⟩

end Sys2Proof.Scope
end

section
/-!
The Admin commands on windows (R267, R269 to R271, R304 to R306): the parts of O25.
-/

namespace Sys2Proof.Scope

open Sys2Proof.Machine Sys2Proof.Laws

-- One declaration at a time: side by side their threads are too much for the memory limit of the check.
set_option Elab.async false

/-! ### Windows read back -/

theorem winOf_congr {s t : State} (h : t.win = s.win) (w : Nat) : winOf t w = winOf s w := by simp only [winOf, h]

@[simp] theorem winOf_winEvent (s : State) (v code info w : Nat) : winOf (winEvent s v code info) w = winOf s w :=
  winOf_congr (winEvent_win ..) w

@[simp] theorem winOf_admDrop (s : State) (c : AdmCmd) (w : Nat) : winOf (admDrop s c) w = winOf s w := rfl

/-- A window that its partition owns is in the reach of the partition's commands (R269). -/
theorem windowStatus_own {s : State} {c : AdmCmd} (ht : c.target < 65536) (ho : (winOf s c.target).owner = c.vs) : windowStatus s c = 0 := by
  simp [windowStatus, Nat.not_le.mpr ht, ho]

theorem windowStatus_admDrop (s : State) (c : AdmCmd) : windowStatus (admDrop s c) c = windowStatus s c := rfl

/-! ### WINDOW_OPEN (R269, R270) -/

/-- The entry that an open makes: the image, owned by the partition, under the next generation, which is never 0. -/
def openedWindow (s : State) (v w : Nat) (i : Window) : Window :=
  { i with st := .open_, gen := if (winOf s w).gen = 65535 then 1 else (winOf s w).gen + 1, owner := v
           devCache := if i.device then i.devCache else 0, port := if i.kind = 1 then 0 else i.port, cache := [] }

theorem openWindow_win (s : State) (v w : Nat) (i : Window) : (openWindow s v w i).win = (setWin s w (openedWindow s v w i)).win := by
  simp only [openWindow, winEvent_win, count_win]
  rfl

theorem openRefused_win (s : State) (v w status : Nat) : (openRefused s v w status).win = s.win := by
  simp only [openRefused]
  split <;> simp only [winEvent_win]

theorem openRefusal_admDrop (s : State) (c : AdmCmd) (v w : Nat) (i : Window) : openRefusal (admDrop s c) v w i = openRefusal s v w i := rfl

theorem windowOpen_opens {c : AdmCmd} {s : State} (h : Starts s 1 c) (ht : c.target < 65536)
    (hr : openRefusal s c.vs c.target (Window.image (leAt c.data 0 32)) = 0) :
    (windowOpen s).win = (setWin s c.target (openedWindow s c.vs c.target (Window.image (leAt c.data 0 32)))).win := by
  rw [windowOpen, admStart_starts h]
  simp only [openRefusal_admDrop, hr, Nat.not_le.mpr ht, if_false, ne_eq, not_true_eq_false, admSettled_win, admFinish_win, openWindow_win]
  rfl

theorem windowOpen_refused {c : AdmCmd} {s : State} (h : Starts s 1 c) (ht : c.target < 65536)
    (hr : openRefusal s c.vs c.target (Window.image (leAt c.data 0 32)) ≠ 0) : (windowOpen s).win = s.win := by
  rw [windowOpen, admStart_starts h]
  simp only [openRefusal_admDrop, Nat.not_le.mpr ht, if_false, if_pos hr, admSettled_win, admFinish_win, openRefused_win]
  split
  · exact eventIn_win ..
  · rfl

/-! ### WINDOW_REVOKE and its end (R269, R271) -/

theorem startRevoke_win (s : State) (w : Nat) :
    (startRevoke s w).win = (setWin s w { winOf s w with st := .revoking, revokeAt := s.now }).win := count_win ..

theorem windowRevoke_revokes {c : AdmCmd} {s : State} (h : Starts s 2 c) (hst : windowStatus s c = 0) (ho : (winOf s c.target).st = .open_) :
    (windowRevoke s).win = (setWin s c.target { winOf s c.target with st := .revoking, revokeAt := s.now }).win := by
  rw [windowRevoke, admStart_starts h]
  simp only [windowStatus_admDrop, hst, winOf_admDrop, ho, if_false, ne_eq, not_true_eq_false, admSettled_win]
  refine (startRevoke_win ..).trans ?_
  simp only [setWin, winOf_winEvent, winEvent_win, winEvent_now]
  rfl

/-- The entry at the end of a revocation; the last generation quarantines it. -/
def revokedWindow (s : State) (w : Nat) : Window :=
  { winOf s w with
    st := .revoked, quarUntil := if (winOf s w).gen = 65535 then (s.ft + cfgv s 0x4010 0 + 10 * ms) / us % 2 ^ 44 else 0 }

theorem windowRevokeComplete_revoked {w : Nat} {s : State} (hr : (winOf s w).st = .revoking) (ha : (winOf s w).admitted = 0) :
    (windowRevokeComplete w s).win = (setWin s w (revokedWindow s w)).win := by
  rw [windowRevokeComplete, if_pos ⟨hr, ha⟩, finishWaits_win, endRevoke, winEvent_win]
  rfl

/-! ### WINDOW_FREE and WINDOW_READ (R267, R269) -/

theorem windowFree_frees {c : AdmCmd} {s : State} (h : Starts s 3 c) (hst : windowStatus s c = 0) (hr : (winOf s c.target).st = .revoked) :
    (windowFree s).win =
      (setWin s c.target { gen := (winOf s c.target).gen, quarUntil := (winOf s c.target).quarUntil }).win := by
  rw [windowFree, admStart_starts h]
  simp only [windowStatus_admDrop, hst, winOf_admDrop, hr, if_false, ne_eq, not_true_eq_false, admSettled_win, admDone, admFinish_win]
  rfl

theorem windowRead_reads {c : AdmCmd} {s : State} (h : Starts s 4 c) (hst : windowStatus s c = 0) :
    windowRead s = admSettled (admFinish (hostPost (admDrop s c) c.vs c.arg (leBytes 32 (winOf s c.target).word)) c 0 0 0) := by
  rw [windowRead, admStart_starts h]
  simp only [windowStatus_admDrop, hst, if_false, ne_eq, not_true_eq_false, winOf_admDrop]
  rfl

/-- A state with one window set shows that window, and the others as they were. -/
theorem winOf_of_setWin {s t : State} {w : Nat} {y : Window} (h : t.win = (setWin s w y).win) :
    winOf t w = y ∧ ∀ x, x ≠ w → winOf t x = winOf s x :=
  ⟨(winOf_congr h w).trans (winOf_setWin ..), fun x hx => (winOf_congr h x).trans (winOf_setWin_ne hx)⟩

/-- Settles O25: each command sets the one entry it names, and the read gives the entry's word. -/
theorem windowTable : Obligations.WindowTable := by
  unfold Obligations.WindowTable
  refine ⟨fun c s hf hb ht hr => ⟨windowOpen s, rfl, ?_⟩, fun c s hf hb ht hr => ⟨windowOpen s, rfl, windowOpen_refused ⟨hf, hb⟩ ht hr⟩,
    fun c s hf hb ht ho hw => ⟨windowRevoke s, rfl, winOf_of_setWin (windowRevoke_revokes ⟨hf, hb⟩ (windowStatus_own ht hw) ho)⟩,
    fun w s hr ha => ⟨windowRevokeComplete w s, rfl, ?_⟩,
    fun c s hf hb ht hr hw => ⟨windowFree s, rfl, (winOf_of_setWin (windowFree_frees ⟨hf, hb⟩ (windowStatus_own ht hw) hr)).1⟩,
    fun c s hf hb hst => ⟨windowRead s, rfl, windowRead_reads ⟨hf, hb⟩ hst⟩⟩
  · obtain ⟨hw, hother⟩ := winOf_of_setWin (windowOpen_opens ⟨hf, hb⟩ ht hr)
    rw [hw]
    exact ⟨rfl, rfl, rfl, rfl, rfl, rfl, hother⟩
  · beta_reduce
    rw [(winOf_of_setWin (windowRevokeComplete_revoked hr ha)).1]
    exact ⟨rfl, rfl, rfl⟩

end Sys2Proof.Scope
end

section
/-!
The Admin commands on imports (R277, R304, R306, R317): the parts of O26.
-/

namespace Sys2Proof.Scope

open Sys2Proof.Machine Sys2Proof.Laws

-- One declaration at a time: side by side their threads are too much for the memory limit of the check.
set_option Elab.async false

theorem importStatus_admDrop (s : State) (c : AdmCmd) : importStatus (admDrop s c) c = importStatus s c := rfl

/-- The windows and imports after an admin command that has put `x` in its entry. -/
def withImport (s : State) (n : Nat) (x : Import) : WinBlk := { s.win with imports := Tbl.set s.win.imports n x }

/-- The image is in order for an entry of the command's partition: function and connection are the partition's, the bases fit the size, and
the function's share allows one entry more (R277, R317). -/
structure ImportFits (s : State) (c : AdmCmd) (x : Import) : Prop where
  inst : ownsInst s c.vs x.func = true
  conn : ownsConn s c.vs x.cid = true
  least : 12 ≤ x.sizeLog2
  most : x.sizeLog2 ≤ 41
  base : x.base % 2 ^ x.sizeLog2 = 0
  winBase : x.winBase % 2 ^ x.sizeLog2 = 0
  share : shareAllows s x.func 3 = true

theorem ImportFits.admDrop {s : State} {c : AdmCmd} {x : Import} (h : ImportFits s c x) : ImportFits (admDrop s c) c x :=
  ⟨h.inst, h.conn, h.least, h.most, h.base, h.winBase, h.share⟩

theorem importWrite_stores {c : AdmCmd} {s : State} (h : Starts s 8 c) (hst : importStatus s c = 0)
    (hx : ImportFits s c (Import.image (leAt c.data 0 32))) : (importWrite s).win = withImport s c.target (Import.image (leAt c.data 0 32)) := by
  obtain ⟨hi, hc, hl, hm, hb, hw, hs⟩ := hx.admDrop
  have hsize : ¬ ((Import.image (leAt c.data 0 32)).sizeLog2 < 12 ∨ 41 < (Import.image (leAt c.data 0 32)).sizeLog2) := by omega
  rw [importWrite, admStart_starts h]
  simp only [importStatus_admDrop, hst, hi, hc, hsize, hb, hw, hs, ne_eq, not_true_eq_false, if_false, Bool.not_true, Bool.or_false,
    Bool.false_eq_true, Bool.and_false, Bool.or_eq_true, decide_eq_true_eq, admSettled_win, admDone, admFinish_win]
  rfl

theorem importInvalidate_removes {c : AdmCmd} {x : Import} {s : State} (h : Starts s 9 c) (hst : importStatus s c = 0)
    (hx : Tbl.find? s.win.imports c.target = some x) :
    (importInvalidate s).win = { s.win with imports := Tbl.erase s.win.imports c.target } := by
  have hx' : Tbl.find? (admDrop s c).win.imports c.target = some x := hx
  rw [importInvalidate, admStart_starts h]
  simp only [importStatus_admDrop, hst, hx', ne_eq, not_true_eq_false, if_false, admSettled_win]
  split
  · rfl
  · rw [admDone, admFinish_win]
    rfl

theorem importRead_reads {c : AdmCmd} {x : Import} {s : State} (h : Starts s 0x0A c) (hst : importStatus s c = 0)
    (hx : Tbl.find? s.win.imports c.target = some x) :
    importRead s = admSettled (admFinish (hostPost (admDrop s c) c.vs c.arg (leBytes 32 x.word)) c 0 0 0) := by
  have hx' : Tbl.find? (admDrop s c).win.imports c.target = some x := hx
  rw [importRead, admStart_starts h]
  simp only [importStatus_admDrop, hst, hx', ne_eq, not_true_eq_false, if_false]
  rfl

theorem importSetGen_sets {c : AdmCmd} {x : Import} {s : State} (h : Starts s 0x0B c) (hst : importStatus s c = 0)
    (hx : Tbl.find? s.win.imports c.target = some x) :
    (importSetGen s).win = withImport s c.target { x with gen := c.arg % 65536 } := by
  have hx' : Tbl.find? (admDrop s c).win.imports c.target = some x := hx
  rw [importSetGen, admStart_starts h]
  simp only [importStatus_admDrop, hst, hx', ne_eq, not_true_eq_false, if_false, admSettled_win, admDone, admFinish_win]
  rfl

/-- Settles O26: each command changes the one entry it names, and the read gives the entry's word. -/
theorem importTable : Obligations.ImportTable := by
  unfold Obligations.ImportTable
  refine ⟨fun c s hf hb hst hi hc hl hm hbase hwin hs => ⟨importWrite s, rfl, ?_⟩,
    fun c x s hf hb hst hx => ⟨importInvalidate s, rfl, ?_⟩,
    fun c x s hf hb hst hx => ⟨importRead s, rfl, importRead_reads ⟨hf, hb⟩ hst hx⟩,
    fun c x s hf hb hst hx => ⟨importSetGen s, rfl, ?_⟩⟩ <;> beta_reduce
  · rw [importWrite_stores ⟨hf, hb⟩ hst ⟨hi, hc, hl, hm, hbase, hwin, hs⟩]
    exact ⟨Tbl.find?_set_same .., rfl⟩
  · rw [importInvalidate_removes ⟨hf, hb⟩ hst hx]
    exact ⟨by rw [Tbl.find?_erase, if_pos rfl], rfl⟩
  · rw [importSetGen_sets ⟨hf, hb⟩ hst hx]
    exact Tbl.find?_set_same ..

end Sys2Proof.Scope
end

section
/-!
Apertures, held loads, visibility, fences and posted failures (R278, R279, R283 to R286, R289, R290, R314): the parts of O27.
-/

namespace Sys2Proof.Scope

open Sys2Proof.Machine Sys2Proof.Laws

-- One declaration at a time: side by side their threads are too much for the memory limit of the check.
set_option Elab.async false

/-! ### What waits in the shuttle after an operation is presented (R243) -/

theorem present_waiting (s : State) (op : NewOp) :
    ∃ k, (present s op).shu.waiting = s.shu.waiting ++ [{ op with chain := some k }] :=
  ⟨_, congrArg (· ++ _) (congrArg ShuBlk.waiting (storeChain_shu ..))⟩

/-- Of what a reader sees of waiting operations, an operation presented adds itself, when the reader does not look at its chain. -/
theorem map_present_waiting {β : Type} (g : NewOp → β) (s : State) (op : NewOp) (hg : ∀ k, g { op with chain := some k } = g op) :
    (present s op).shu.waiting.map g = s.shu.waiting.map g ++ [g op] := by
  obtain ⟨k, hk⟩ := present_waiting s op
  rw [hk, List.map_append, List.map_singleton, hg]

@[simp] theorem present_win (s : State) (op : NewOp) : (present s op).win = s.win := storeChain_win ..

/-! ### An access that reaches an import (R278, R279, R283) -/

/-- The state in which an access is looked up: the filters have seen it. -/
def accessSeen (s : State) (o : Origin) (q : Tlp) : State := filterItem s 4 (tlpItem q (some o.cls) (some (o.mid, o.vs, o.rid)))

section
variable (s : State) (o : Origin) (q : Tlp)

theorem filterItem_access : filterItem s 4 (tlpItem q (some o.cls) (some (o.mid, o.vs, o.rid))) = accessSeen s o q := rfl

@[simp] theorem accessSeen_shu : (accessSeen s o q).shu = s.shu := filterItem_shu ..
@[simp] theorem accessSeen_win : (accessSeen s o q).win = s.win := filterItem_win ..
@[simp] theorem connOf_accessSeen (c : Nat) : connOf (accessSeen s o q) c = connOf s c := connOf_of_shu (accessSeen_shu ..) c

@[simp] theorem importFor_accessSeen (i a : Nat) : importFor (accessSeen s o q) i a = importFor s i a := by
  simp only [importFor, accessSeen_win]

@[simp] theorem postingsOf_accessSeen (c w : Nat) : postingsOf (accessSeen s o q) c w = postingsOf s c w := by
  simp only [postingsOf, accessSeen_win, connOf_accessSeen]

end

/-- Access `q` reaches import `n`, which is `x`, in the aperture of function `i`, which is `f`, and is permitted there. -/
structure Reaches (s : State) (i : Nat) (q : Tlp) (f : InstState) (n : Nat) (x : Import) : Prop where
  inst : instOf s i = some f
  noFlr : f.flr = none
  stays : f.ending = false
  ready : vsState s f.vs = 2
  noReset : (partOf s f.vs).resetSince = none
  clean : q.ep = false
  found : importFor s i q.addr = some (n, x)
  permitted : importPermits x q = true

/-- The window offset of an access to an import. -/
def windowOffset (x : Import) (q : Tlp) : Nat := x.winBase + (q.addr - x.base)

section
variable {s : State} {i : Nat} {q : Tlp} {f : InstState} {n : Nat} {x : Import} (h : Reaches s i q f n x) (src : Nat) (o : Origin)
include h

/-- A store is presented, whatever the state of its connection. -/
theorem apertureAccess_store (hk : q.kind = .memWrite) : apertureAccess s i src o q = presentStore (accessSeen s o q) n x i src o q := by
  simp [apertureAccess, filterItem_access, h.inst, h.noFlr, h.stays, h.ready, h.noReset, h.clean, h.found, h.permitted, hk]

variable (hk : q.kind = .memRead) (hd : x.device = false) (ha : (connOf s x.cid).st = .active)
include hk hd ha

/-- A load that no posting-buffer entry overlaps is presented. -/
theorem apertureAccess_load (hc : coverage (postingsOf s x.cid x.window) (windowOffset x q) q.len = 0) :
    apertureAccess s i src o q = presentLoad (accessSeen s o q) x i src o q := by
  simp only [windowOffset] at hc
  simp [apertureAccess, filterItem_access, h.inst, h.noFlr, h.stays, h.ready, h.noReset, h.clean, h.found, h.permitted, hk, hd, ha, hc]

/-- A load that may be forwarded and is covered in part is held. -/
theorem apertureAccess_held (hw : x.fwd = true) (hc : coverage (postingsOf s x.cid x.window) (windowOffset x q) q.len = 1) :
    apertureAccess s i src o q = count { accessSeen s o q with win := { s.win with
      heldLoads := s.win.heldLoads ++ [{ imp := n, offset := windowOffset x q, tlp := q, origin := o, inst := i, src := src }] } }
      (ctrWin o.vs 3) 1 := by
  simp only [windowOffset] at hc
  simp [apertureAccess, filterItem_access, h.inst, h.noFlr, h.stays, h.ready, h.noReset, h.clean, h.found, h.permitted, hk, hd, ha, hc, hw,
    windowOffset]

end

/-! ### What an access presents (R278, R279) -/

/-- A load is presented as one READ of its length at its window offset. -/
theorem presentLoad_read {q : Tlp} (hk : q.kind = .memRead) (s : State) (x : Import) (i src : Nat) (o : Origin) :
    presentLoad s x i src o q = present s (accessOp s x i src o q 1 (windowOffset x q) q.len true true false [] none) := by
  simp only [presentLoad, hk]
  rfl

/-- A store that fits one operation is presented as one WRITE of all its bytes. -/
theorem presentStore_write {q : Tlp} (hl : q.data.length ≤ 4080) (s : State) (n : Nat) (x : Import) (i src : Nat) (o : Origin) :
    presentStore s n x i src o q =
      present s (accessOp s x i src o q 0 (windowOffset x q) q.data.length true (!decide (q.lastBe = 0)) x.relStores q.data (some n)) := by
  simp [presentStore, pieces, hl, windowOffset]

/-! ### An access of a host -/

/-- The loom's source of an access of a host to function `f`: the upstream port of its partition. -/
def hostSrc (s : State) (f : InstState) : Nat := (upPort s f.vs).getD 128

/-- The origin of the access `q` of a host to function `f`. -/
def accessOrigin (s : State) (f : InstState) (q : Tlp) : Origin := hostOrigin s f.vs q.rid (tlpKind q = 1)

theorem hostAperture_served {s : State} {i : Nat} {q : Tlp} {f : InstState} (hi : instOf s i = some f) (hs : inService s = true) :
    hostAperture i q s = apertureAccess s i (hostSrc s f) (accessOrigin s f q) q := by
  simp only [hostAperture, hi, hs, if_true]
  rfl

section
variable {i : Inst} {q : Tlp} {f : InstState} {n : Nat} {x : Import} {s : State} (h : Reaches s i q f n x) (hs : inService s = true)
include h hs

theorem apertureAccess_reads (hk : q.kind = .memRead) (hd : x.device = false) (ha : (connOf s x.cid).st = .active)
    (hc : coverage (postingsOf s x.cid x.window) (windowOffset x q) q.len = 0) :
    LeavesSettling (.apertureAccess i q) s fun t => t.shu.waiting.map (fun o => (o.cid, o.typ, o.gen, o.head)) =
      s.shu.waiting.map (fun o => (o.cid, o.typ, o.gen, o.head)) ++ [(x.cid, 1, x.gen, reqWord {
        rid := q.rid, vs := f.vs, kind := 0, tag := 0, len := q.len, lastBe := q.lastBe, firstBe := q.firstBe, atom := 0, ns := q.ns
        window := x.window, offset := windowOffset x q })] := by
  refine ⟨hostAperture i q s, rfl, ?_⟩
  beta_reduce
  rw [hostAperture_served h.inst hs, apertureAccess_load h _ _ hk hd ha hc, presentLoad_read hk, map_present_waiting _ _ _ fun _ => rfl,
    accessSeen_shu]
  simp only [accessOp, hk]
  rfl

theorem apertureAccess_writes (hk : q.kind = .memWrite) (hl : q.data.length ≤ 4080) :
    LeavesSettling (.apertureAccess i q) s fun t => t.shu.waiting.map (fun o => (o.cid, o.typ, o.gen, o.rel, o.data, o.post)) =
      s.shu.waiting.map (fun o => (o.cid, o.typ, o.gen, o.rel, o.data, o.post)) ++ [(x.cid, 0, x.gen, x.relStores, q.data, some n)] := by
  refine ⟨hostAperture i q s, rfl, ?_⟩
  beta_reduce
  rw [hostAperture_served h.inst hs, apertureAccess_store h _ _ hk, presentStore_write hl, map_present_waiting _ _ _ fun _ => rfl,
    accessSeen_shu]
  rfl

theorem apertureAccess_holds (hk : q.kind = .memRead) (hd : x.device = false) (ha : (connOf s x.cid).st = .active) (hw : x.fwd = true)
    (hc : coverage (postingsOf s x.cid x.window) (windowOffset x q) q.len = 1) :
    LeavesSettling (.apertureAccess i q) s fun t => t.win.heldLoads.map (fun l => (l.imp, l.offset, l.tlp, l.inst)) =
      s.win.heldLoads.map (fun l => (l.imp, l.offset, l.tlp, l.inst)) ++ [(n, windowOffset x q, q, i.val)] ∧
      t.shu.waiting = s.shu.waiting := by
  refine ⟨hostAperture i q s, rfl, ?_⟩
  rw [hostAperture_served h.inst hs, apertureAccess_held h _ _ hk hd ha hw hc]
  simp only [count_win, count_shu, List.map_append, List.map_singleton, accessSeen_shu, and_self]

end

/-! ### An access past every import (R279) -/

/-- What an access that is refused asks of the shuttle: nothing, but that an answer goes through a tunnel; and no load is held. -/
def AsksTunnelOnly (s t : State) : Prop := (∀ o ∈ t.shu.waiting, o ∈ s.shu.waiting ∨ o.typ = 6) ∧ t.win.heldLoads = s.win.heldLoads

theorem AsksTunnelOnly.of_same {s t : State} (hw : t.shu = s.shu) (hl : t.win.heldLoads = s.win.heldLoads) : AsksTunnelOnly s t :=
  ⟨fun _ ho => .inl (hw ▸ ho), hl⟩

theorem AsksTunnelOnly.trans {s t u : State} (h : AsksTunnelOnly s t) (k : AsksTunnelOnly t u) : AsksTunnelOnly s u :=
  ⟨fun o ho => (k.1 o ho).elim (h.1 o) .inr, k.2.trans h.2⟩

theorem AsksTunnelOnly.ite {s t u : State} {c : Prop} [Decidable c] (h : AsksTunnelOnly s t) (k : AsksTunnelOnly s u) :
    AsksTunnelOnly s (if c then t else u) := by
  split
  · exact h
  · exact k

theorem count_asksTunnelOnly (s : State) (c n : Nat) : AsksTunnelOnly s (count s c n) :=
  .of_same (count_shu ..) (congrArg WinBlk.heldLoads (count_win ..))

theorem presentTunnel_asksTunnelOnly (s : State) (cid src : Nat) (ask : Option Origin) (t : Tlp) :
    AsksTunnelOnly s (presentTunnel s cid src ask t) := by
  refine ⟨fun o ho => (List.mem_append.mp ho).imp_right fun hm => ?_, rfl⟩
  obtain ⟨_, _, rfl⟩ := List.mem_map.mp hm
  rfl

/-- The answer to an origin leads to a host, or nowhere. -/
def ToHost (o : Origin) : Prop := o.ret = .none ∨ ∃ s v, o.ret = hostRet s v

theorem accessOrigin_toHost (s : State) (f : InstState) (q : Tlp) : ToHost (accessOrigin s f q) := by
  by_cases h : tlpKind q = 1
  · exact .inr ⟨s, f.vs, by simp [accessOrigin, hostOrigin, h]⟩
  · exact .inl (by simp [accessOrigin, hostOrigin, h])

/-- An answer to a host leaves by the upstream port or, past a tunnel, in it. -/
theorem answer_asksTunnelOnly {o : Origin} (h : ToHost o) (s : State) (src : Nat) (q : Tlp) (completer status : Nat) (ep : Bool)
    (data : List Byte) : AsksTunnelOnly s (answer s src o q completer status ep data) := by
  obtain hr | ⟨u, v, hr⟩ := h
  · simp only [answer, hr]
    exact .of_same rfl rfl
  · unfold hostRet at hr
    split at hr
    · simp only [answer, hr]
      exact .of_same (enqueueTlp_shu ..) (congrArg WinBlk.heldLoads (enqueueTlp_win ..))
    · simp only [answer, hr]
      split
      · exact presentTunnel_asksTunnelOnly ..
      · exact .of_same rfl rfl

@[simp] theorem msi_win (s : State) (v fn vec : Nat) : (msi s v fn vec).win = s.win :=
  (msi_keeps (mk := allBut .win) (.refl s) (by decide)).win (by decide)

theorem postedFailure_heldLoads (s : State) (part func c mid window offset seq reason : Nat) :
    (postedFailure s part func c mid window offset seq reason).win.heldLoads = s.win.heldLoads := by
  unfold postedFailure
  extract_lets sev n s1 s2 s3 x s4
  have h4 : s4.win.heldLoads = s.win.heldLoads := by simp [s4, x, s3, s2, s1]
  split
  · exact h4
  · rw [msi_win]
    exact h4

theorem postedFailure_asksTunnelOnly (s : State) (part func c mid window offset seq reason : Nat) :
    AsksTunnelOnly s (postedFailure s part func c mid window offset seq reason) :=
  .of_same ((postedFailure_keeps (mk := allBut .shu) (.refl s) (by decide)).shu (by decide)) (postedFailure_heldLoads ..)

/-- A refused access past every import is answered, or logged as a posted failure. -/
theorem refuseAccess_asksTunnelOnly {o : Origin} (h : ToHost o) (s : State) (i src : Nat) (q : Tlp) (cause : Nat) :
    AsksTunnelOnly s (refuseAccess s i src o q none cause) := by
  unfold refuseAccess
  extract_lets n s1
  have h1 : AsksTunnelOnly s s1 := .of_same (by simp [s1]) (by simp [s1])
  exact h1.trans (.ite (postedFailure_asksTunnelOnly ..) (answer_asksTunnelOnly h ..))

theorem apertureAccess_pastImports {s : State} {i src : Nat} {q : Tlp} {f : InstState} {o : Origin} (h : ToHost o) (hi : instOf s i = some f)
    (he : q.ep = false) (hn : importFor s i q.addr = none) : AsksTunnelOnly s (apertureAccess s i src o q) := by
  simp only [apertureAccess, hi, filterItem_access, he, importFor_accessSeen, hn, Bool.false_eq_true, if_false]
  exact .ite (.ite (count_asksTunnelOnly ..) (answer_asksTunnelOnly h ..))
    ((AsksTunnelOnly.of_same (accessSeen_shu ..) (by rw [accessSeen_win])).trans (refuseAccess_asksTunnelOnly h ..))

/-! ### HELD_LOAD_SEND (R283) -/

/-- Nothing in the posting buffer overlaps a held load any more. -/
def loadFree (s : State) (l : HeldLoad) : Bool :=
  match Tbl.find? s.win.imports l.imp with
  | some x => decide (coverage (postingsOf s x.cid x.window) l.offset l.tlp.len = 0)
  | none => true

theorem heldLoadSend_presents {l : HeldLoad} {x : Import} {s : State} (hl : s.win.heldLoads.find? (loadFree s) = some l)
    (hx : Tbl.find? s.win.imports l.imp = some x) :
    heldLoadSend s = presentLoad { s with win := { s.win with heldLoads := s.win.heldLoads.erase l } } x l.inst l.src l.origin l.tlp := by
  unfold heldLoadSend
  split
  · next hn => exact nomatch hl.symm.trans hn
  · next y hy =>
    obtain rfl : l = y := Option.some.inj (hl.symm.trans hy)
    simp only [hx]

theorem heldLoadSend_sends {l : HeldLoad} {x : Import} {s : State} (hl : s.win.heldLoads.find? (loadFree s) = some l)
    (hx : Tbl.find? s.win.imports l.imp = some x) (hk : l.tlp.kind = .memRead) :
    LeavesSettling (.heldLoadSend) s fun t => t.win.heldLoads = s.win.heldLoads.erase l ∧
      t.shu.waiting.map (fun o => (o.cid, o.typ)) = s.shu.waiting.map (fun o => (o.cid, o.typ)) ++ [(x.cid, 1)] := by
  refine ⟨heldLoadSend s, rfl, ?_⟩
  beta_reduce
  rw [heldLoadSend_presents hl hx, presentLoad_read hk, present_win, map_present_waiting _ _ _ fun _ => rfl]
  exact ⟨rfl, rfl⟩

/-! ### VISIBILITY_POINT (R284, R285) -/

/-- Where the connection holds nothing back, nothing is delivered. -/
theorem deliverHeld_of_empty {s : State} {c : Nat} (h : (connOf s c).held = []) (fuel : Nat) : deliverHeld fuel s c = s := by
  cases fuel with
  | zero => rfl
  | succ n => simp [deliverHeld, h]

/-- A write that has become visible is forgotten, and its window drains by one; what its connection holds back stays. -/
theorem visible_drains {u : Unseen} {w : Nat} {x : Window} {s : State} (hw : u.window = some w) (hx : Tbl.find? s.win.windows w = some x) :
    (visible s u).win = { s.win with
      unseen := s.win.unseen.filter (fun y => y ≠ u), windows := Tbl.set s.win.windows w { x with admitted := x.admitted - 1 } } ∧
    (connOf (visible s u) u.cid).held = (connOf s u.cid).held := by
  simp only [visible, writeDone, hw, Bool.false_eq_true, if_false]
  split
  · simp only [connOf_of_shu (winDrain_shu ..), connOf_setConn]
    simp only [winDrain, setConn, hx, true_and]
    rfl
  · rw [connOf_of_shu (winDrain_shu ..)]
    simp only [winDrain, hx, true_and]
    rfl

theorem visibilityPoint_visible {u : Unseen} {w : Nat} {x : Window} {s : State} (hu : s.win.unseen.find? (fun u => u.left) = some u)
    (hn : u.waiter = none) (hw : u.window = some w) (hx : Tbl.find? s.win.windows w = some x) (hc : (connOf s u.cid).held = []) :
    LeavesSettling (.visibilityPoint) s fun t => t.win.unseen = s.win.unseen.filter (fun y => y ≠ u) ∧ (winOf t w).admitted = x.admitted - 1 := by
  refine ⟨visibilityPoint s, rfl, ?_⟩
  obtain ⟨hwin, hheld⟩ := visible_drains hw hx
  have hv : visibilityPoint s = visible s u := by
    simp only [visibilityPoint, hu, hn]
    exact deliverHeld_of_empty (hheld.trans hc) _
  simp only [hv, winOf, hwin, Tbl.get_set_same, and_self]

/-! ### Fence slots (R314) and POSTFAIL_CLEAR (R289, R290) -/

theorem fenceSlotRead_fences {i : Inst} {slot : Fin 1024} {rid tag : Nat} {f : InstState} {c : Nat} {s : State} (hi : instOf s i.val = some f)
    (hs : inService s = true) (hc : Tbl.find? f.fences slot.val = some c) :
    LeavesSettling (.fenceSlotRead i slot rid tag) s fun t => t.shu.waiting.map (fun o => (o.cid, o.typ, o.acq, o.rel)) =
      s.shu.waiting.map (fun o => (o.cid, o.typ, o.acq, o.rel)) ++ [(c, 5, true, true)] := by
  refine ⟨hostFenceSlot i slot rid tag s, rfl, ?_⟩
  simp only [hostFenceSlot, hi, hs, if_true, fenceSlotRead, hc, presentFence]
  rw [map_present_waiting _ _ _ fun _ => rfl, count_shu]

theorem postfailClear_clears {sess : Nat} {v : Vs} {s : State} (h : MayAct s sess 0x4311 (v + 1) 1) :
    Leaves (.postfailClear sess v 1) s fun t => Tbl.find? t.win.fails v.val = none ∧ t.win.failCount = s.win.failCount := by
  refine ⟨_, rfl, ?_⟩
  simp only [actWrite_done h rfl, onOne_one, emit_win, actPostfailClear, journalAction_win, Tbl.find?_erase, if_true, and_self]

/-- Settles O27, a lemma for each clause. -/
theorem aperturesAndOrder : Obligations.AperturesAndOrder := by
  unfold Obligations.AperturesAndOrder
  exact ⟨fun _ _ _ _ _ _ hi hs hf he hv hr hp hn hm ha hk hd hc =>
      apertureAccess_reads ⟨hi, hf, he, hv, hr, hp, hn, hm⟩ hs hk hd ha hc,
    fun _ _ _ _ _ _ hi hs hf he hv hr hp hn hm _ hk hl => apertureAccess_writes ⟨hi, hf, he, hv, hr, hp, hn, hm⟩ hs hk hl,
    fun _ _ _ _ _ _ hi hs hf he hv hr hp hn hm ha hk hd hw hc =>
      apertureAccess_holds ⟨hi, hf, he, hv, hr, hp, hn, hm⟩ hs hk hd ha hw hc,
    fun i q f s hi hs hp hn => ⟨hostAperture i q s, rfl, by
      rw [hostAperture_served hi hs]
      exact apertureAccess_pastImports (accessOrigin_toHost ..) hi hp hn⟩,
    fun _ _ _ hl hx hk => heldLoadSend_sends hl hx hk,
    fun _ _ _ _ hu hn hw hx hc => visibilityPoint_visible hu hn hw hx hc,
    fun _ _ _ _ _ _ _ hi hs hc => fenceSlotRead_fences hi hs hc,
    fun _ _ _ h => postfailClear_clears h⟩

end Sys2Proof.Scope
end

section
/-!
The memories of hosts and the bolt region of the beam stay in canonical form (R302, R490, R528; log entry 4).
-/

namespace Sys2Proof.Scope

open Sys2Proof.Machine Sys2Proof.Laws

/-- Settles O50: a nanosecond writes no memory, and every function of the model that a command runs keeps the canonical form. -/
theorem memoriesStayCanonical : Obligations.MemoriesStayCanonical := by
  unfold Obligations.MemoriesStayCanonical
  intro s t hm h
  cases hp : s.pending with
  | nil =>
    cases (step_of_empty hp).symm.trans h
    exact hm
  | cons c cs =>
    obtain ⟨u, hu, k⟩ := exec_keeps c { s with pending := cs }
    cases ((step_of_queued hp).trans hu).symm.trans h
    exact k.mem hm

end Sys2Proof.Scope
end

section
/-!
SHARE_SET (R316, R317): as the bandwidth share of a virtual function changes, its token bucket is cut to the new depth, which the fifth clause
of O29 leaves out.
-/

namespace Sys2Proof.Scope

open Sys2Proof.Machine

/-- A SHARE_SET of partition 0 that gives its function 0 a bandwidth share of 1 Gb/s and leaves the other counts. -/
def bandwidthShare : AdmCmd :=
  { vs := 0, op := 0x22, id := 0, target := 0, arg := 0, head := 1
    data := List.replicate 16 255 ++ [1, 0, 0, 0] ++ List.replicate 4 255 ++ List.replicate 24 0 }

/-- The command is next in the ring of partition 0, 1 ns after the bucket of its function, whose bandwidth is unlimited, was filled. -/
def unlimitedBefore : State :=
  { State.reset with
    now := 1
    eng := { State.reset.eng with
      adm := vset State.reset.eng.adm 0 { size := 0x404, enabled := true }
      cmds := [bandwidthShare]
      insts := [(0, { vs := 0, vf := 0 })] } }

/-- The bucket counts from the command on. -/
theorem shareSet_restartsBucket : (instOf (shareSet unlimitedBefore) 0).map InstState.bucketAt = some 1 := by decide +kernel

/-- Refutes O29, at its fifth clause: the function passes from unlimited bandwidth to a share of 1 Gb/s, so its bucket is cut to the depth of that
rate and counts from now on (R317), while the clause has the function keep all but its shares. -/
theorem not_instanceCommands : ¬ Obligations.InstanceCommands := by
  unfold Obligations.InstanceCommands
  rintro ⟨-, -, -, -, hshare, -⟩
  obtain ⟨t, ht, hinst⟩ := hshare bandwidthShare { vs := 0, vf := 0 } unlimitedBefore (by decide +kernel) (by decide +kernel) (by decide +kernel)
    rfl (by decide +kernel) (by decide +kernel)
  obtain rfl : shareSet unlimitedBefore = t := Host.Outcome.next.inj ht
  have hb := shareSet_restartsBucket
  rw [show instOf (shareSet unlimitedBefore) 0 = _ from hinst] at hb
  exact absurd hb (by decide)

end Sys2Proof.Scope
end

section
/-!
ADMQ_TAIL (R302): a command ring that the heddle of the host's port denies stops the queue (log entry 116), which the third clause of O30 leaves
out.
-/

namespace Sys2Proof.Scope

open Sys2Proof.Machine

/-- P0 is the upstream port of partition 1, and its heddle, which passes nothing unchecked, has no region; the partition's admin queue is
enabled. -/
def deniedRing : State :=
  { State.reset with
    cfg := spoolCfg
    hed := { State.reset.hed with own := [(0, 0)] }
    eng := { State.reset.eng with adm := vset State.reset.eng.adm 1 { size := 0x404, enabled := true } } }

/-- The fetch of the first command is denied, and the head stays. -/
theorem admqTailDoorbell_denied : (admOf (admqTailDoorbell 1 1 deniedRing) 1).head = 0 := by decide +kernel

/-- Refutes O30, at its third clause: the heddle denies the fetch of the command, so the queue stops with its head where it was, while the clause
has the head reach the tail. -/
theorem not_functionsAndRings : ¬ Obligations.FunctionsAndRings := by
  unfold Obligations.FunctionsAndRings
  rintro ⟨-, -, htail, -⟩
  obtain ⟨t, ht, hhead, -⟩ := htail 1 1 deniedRing (by decide +kernel) (by decide +kernel) (by decide +kernel)
  obtain rfl : admqTailDoorbell 1 1 deniedRing = t := Host.Outcome.next.inj ht
  exact absurd (admqTailDoorbell_denied.symm.trans hhead) (by decide +kernel)

end Sys2Proof.Scope
end

section
/-!
What sending leaves of the window engine: records, vectors, items of the loom and answers keep its instances, with their queues, and its
local reads.
-/

namespace Sys2Proof.Scope

open Sys2Proof.Machine Sys2Proof.Laws

-- One declaration at a time: side by side their threads are too much for the memory limit of the check.
set_option Elab.async false

/-! ### The engine kept -/

/-- The engine's instances, with their queues, and its local reads are the same. -/
structure EngineKept (s t : State) : Prop where
  insts : t.eng.insts = s.eng.insts
  reads : t.eng.reads = s.eng.reads

theorem EngineKept.refl (s : State) : EngineKept s s := ⟨rfl, rfl⟩

theorem EngineKept.trans {s t u : State} (h : EngineKept s t) (k : EngineKept t u) : EngineKept s u :=
  ⟨k.insts.trans h.insts, k.reads.trans h.reads⟩

theorem EngineKept.same {s t u : State} (h : EngineKept s t) (hu : u.eng = t.eng) : EngineKept s u :=
  h.trans ⟨congrArg EngBlk.insts hu, congrArg EngBlk.reads hu⟩

theorem EngineKept.ite {s a b : State} {c : Prop} {_ : Decidable c} (ha : EngineKept s a) (hb : EngineKept s b) :
    EngineKept s (if c then a else b) := by
  split
  · exact ha
  · exact hb

/-- What does not write the engine's block. -/
theorem EngineKept.keeps {m : Nat} {s t u : State} (h : EngineKept s t) (k : Keeps m t u) (hm : m.testBit (partBit .eng) = false) :
    EngineKept s u := h.same (k.eng hm)

theorem EngineKept.instOf {s t : State} (h : EngineKept s t) (i : Nat) : instOf t i = instOf s i := congrArg (Tbl.find? · i) h.insts

theorem queueOfInst_congr {s t : State} {i : Nat} (h : instOf t i = instOf s i) (q : Nat) : queueOfInst t i q = queueOfInst s i q := by
  simp only [queueOfInst, h]

theorem EngineKept.queueOfInst {s t : State} (h : EngineKept s t) (i q : Nat) : queueOfInst t i q = queueOfInst s i q :=
  queueOfInst_congr (h.instOf i) q

/-! ### Vectors and records (R489, R490, R526) -/

theorem EngineKept.msi {s t : State} (h : EngineKept s t) (v fn vec : Nat) : EngineKept s (msi t v fn vec) := by
  unfold Machine.msi
  split
  · exact ⟨h.insts, h.reads⟩
  · split
    · exact h.same rfl
    · exact h.same rfl

theorem EngineKept.hostPost {s t : State} (h : EngineKept s t) (v a : Nat) (bs : List Byte) : EngineKept s (hostPost t v a bs) :=
  h.keeps (hostPost_keeps (mk := 2113536) (.refl t) (by decide)) (by decide)

theorem EngineKept.count {s t : State} (h : EngineKept s t) (c n : Nat) : EngineKept s (count t c n) :=
  h.keeps (count_keeps (mk := 1048576) (.refl t) (by decide)) (by decide)

theorem EngineKept.filterItem {s t : State} (h : EngineKept s t) (b : Nat) (i : FilterItem) : EngineKept s (filterItem t b i) :=
  h.keeps (filterItem_keeps (mk := 1048576) (.refl t) (by decide)) (by decide)

theorem EngineKept.signalLine {s t : State} (h : EngineKept s t) (r : Nat) (g : Bool) : EngineKept s (signalLine t r g) := by
  unfold Machine.signalLine
  dsimp only
  exact .ite h (.ite h (.ite ((h.msi _ _ _).same rfl) (h.same rfl)))

theorem EngineKept.writeLine {s t : State} (h : EngineKept s t) (r : Nat) (mark : Bool) : EngineKept s (writeLine t r mark) := by
  unfold Machine.writeLine
  dsimp only
  refine .ite h (.signalLine ?_ _ _)
  split
  · refine .hostPost ?_ _ _ _
    exact h.same rfl
  · refine EngineKept.keeps ?_ (beamWrite_keeps (mk := 4194304) (.refl _) (by decide)) (by decide)
    exact h.same rfl

theorem EngineKept.ringPut {s t : State} (h : EngineKept s t) (r : Nat) (e : EventRec) : EngineKept s (ringPut t r e) := by
  unfold Machine.ringPut
  dsimp only
  refine .ite (h.same rfl) (.ite (.writeLine ?_ _ _) ?_) <;> exact h.same rfl

theorem EngineKept.reportLoss {s t : State} (h : EngineKept s t) (r : Nat) (ow : Bool) : EngineKept s (reportLoss t r ow) := by
  unfold Machine.reportLoss
  dsimp only
  refine .ite h (.ite (h.same rfl) (.ringPut ?_ _ _))
  exact h.same rfl

theorem EngineKept.putEvent {s t : State} (h : EngineKept s t) (e : HeldEvent) : EngineKept s (putEvent t e) := by
  unfold Machine.putEvent
  dsimp only
  split
  · exact .ite (h.same rfl) (h.same rfl)
  · split
    · exact .ite (h.same rfl) (h.same rfl)
    · exact ((h.ringPut _ _).reportLoss _ _).reportLoss _ _

theorem EngineKept.eventFull {s t : State} (h : EngineKept s t) (code inst sev : Nat) (part : Option Nat) (paired : Bool) (info : Nat) :
    EngineKept s (eventFull t code inst sev part paired info) := by
  unfold Machine.eventFull
  split
  · exact h
  · exact h.putEvent _

theorem EngineKept.event {s t : State} (h : EngineKept s t) (code inst info : Nat) : EngineKept s (event t code inst info) :=
  h.eventFull ..

theorem EngineKept.eventIn {s t : State} (h : EngineKept s t) (part : Option Nat) (code inst info : Nat) :
    EngineKept s (eventIn t part code inst info) := h.eventFull ..

theorem EngineKept.rateEvent {s t : State} (h : EngineKept s t) {code place gap : Nat} {put : State → Nat → State}
    (hp : ∀ {u} n, EngineKept s u → EngineKept s (put u n)) : EngineKept s (rateEvent t code place gap put) := by
  unfold Machine.rateEvent
  dsimp only
  refine .ite (hp _ ?_) (h.same rfl)
  exact h.same rfl

theorem EngineKept.privCount {s t : State} (h : EngineKept s t) (c : Nat) : EngineKept s (privCount t c) := by
  unfold Machine.privCount
  dsimp only
  refine .ite (.event ?_ _ _ _) (h.same rfl)
  exact h.same rfl

/-! ### The loom (R147, R149, R165) -/

theorem EngineKept.poolChanged {s t : State} (h : EngineKept s t) : EngineKept s (poolChanged t) := by
  unfold Machine.poolChanged
  extract_lets f m _ t1 waits _ t2 _ t3 _
  have h2 : EngineKept s t2 := h.same rfl
  have h3 : EngineKept s t3 := by
    refine .ite (.event (.count ?_ _ _) _ _ _) (.ite (.event ?_ _ _ _) h2) <;> exact h2.same rfl
  refine .ite (.event ?_ _ _ _) h3
  exact h3.same rfl

theorem EngineKept.returnCredit {s t : State} (h : EngineKept s t) (c : Chain) : EngineKept s (returnCredit t c) :=
  h.keeps (returnCredit_keeps (mk := 384) (.refl t) (by decide)) (by decide)

theorem EngineKept.promote {s t : State} (h : EngineKept s t) (id : Nat) : EngineKept s (promote t id) := by
  unfold Machine.promote
  split
  · exact h
  · dsimp only
    split
    · refine .ite (.ite h (.event (.count ?_ _ _) _ _ _)) (.ite (.poolChanged ?_) h)
      · exact h.same rfl
      · exact (h.returnCredit _).same rfl
    · exact h

theorem EngineKept.storeChain {s t : State} (h : EngineKept s t) (src size : Nat) (mcast : Bool) (credit : Option (Nat × Nat × Nat)) :
    EngineKept s (storeChain t src size mcast credit).1 := by
  unfold Machine.storeChain
  refine .poolChanged (.promote ?_ _)
  exact h.same rfl

theorem EngineKept.spillLimit {s t : State} (h : EngineKept s t) (d tc : Nat) : EngineKept s (spillLimit t d tc) := by
  unfold Machine.spillLimit
  refine .ite (.event ?_ _ _ _) h
  exact h.same rfl

theorem EngineKept.pushItem {s t : State} (h : EngineKept s t) (d : Nat) (i : LoomItem) : EngineKept s (pushItem t d i) := by
  unfold Machine.pushItem
  dsimp only
  split
  · refine .spillLimit (.count ?_ _ _) _ _
    refine EngineKept.same (EngineKept.count ?_ _ _) rfl
    exact h.same rfl
  · refine .count ?_ _ _
    exact h.same rfl

theorem EngineKept.enqueueTlp {s t : State} (h : EngineKept s t) (d src : Nat) (o : Origin) (x : Tlp) (epoch ord : Nat) :
    EngineKept s (enqueueTlp t d src o x epoch ord).1 := ((h.storeChain _ _ _ _).filterItem _ _).pushItem _ _

theorem EngineKept.present {s t : State} (h : EngineKept s t) (op : NewOp) : EngineKept s (present t op) :=
  (h.storeChain _ _ _ _).same rfl

theorem EngineKept.presentFence {s t : State} (h : EngineKept s t) (c : Nat) (o : Origin) (x : Option Tlp) (k : Option Ticket)
    (inst ord : Nat) : EngineKept s (presentFence t c o x k inst ord) := (h.count _ _).present _

theorem EngineKept.presentTunnel {s t : State} (h : EngineKept s t) (cid src : Nat) (ask : Option Origin) (x : Tlp) :
    EngineKept s (presentTunnel t cid src ask x) := h.same rfl

/-! ### Answers, refusals and delivery (R325, R333) -/

theorem EngineKept.answer {s t : State} (h : EngineKept s t) (src : Nat) (o : Origin) (q : Tlp) (completer status : Nat) (ep : Bool)
    (data : List Byte) : EngineKept s (answer t src o q completer status ep data) := by
  unfold Machine.answer
  split
  case h_1 => exact h
  case h_2 => exact h.enqueueTlp ..
  case h_3 =>
    split
    · exact h.presentTunnel ..
    · exact h
  case h_4 => exact h.enqueueTlp ..
  case h_5 => exact h.same rfl
  case h_6 => exact ⟨h.insts, h.reads⟩
  case h_7 =>
    extract_lets t1 st data' t2
    have h1 : EngineKept s t1 := .ite (h.eventFull ..) h
    have h2 : EngineKept s t2 := by
      unfold t2
      split
      · refine EngineKept.keeps ?_ (winDrain_keeps (mk := 4096) (.refl _) (by decide)) (by decide)
        unfold cacheAnswer
        split
        · exact h1.same rfl
        · exact h1
      · exact h1
    exact h2.same rfl

theorem EngineKept.inboundFailed {s t : State} (h : EngineKept s t) (w reason addr : Nat) : EngineKept s (inboundFailed t w reason addr) := by
  unfold Machine.inboundFailed
  extract_lets t1 l t2 lvl
  have h1 : EngineKept s t1 := h.event ..
  split
  · exact h1.same rfl
  · refine .ite (EngineKept.same (EngineKept.count ?_ _ _) rfl) ?_ <;> exact h1.same rfl

theorem EngineKept.refuseTlp {s t : State} (h : EngineKept s t) (src : Nat) (o : Origin) (q : Tlp) (status : Nat) :
    EngineKept s (refuseTlp t src o q status) := by
  unfold Machine.refuseTlp
  extract_lets t1
  have h1 : EngineKept s t1 := .ite (h.keeps (aerUnsupported_keeps (mk := 256) (.refl t) (by decide)) (by decide)) h
  refine .ite h (.ite (.answer (.ite (h1.count _ _) h1) ..) ?_)
  split
  · exact h.answer ..
  · exact .ite (h.inboundFailed ..) h

theorem EngineKept.denied {s t : State} (h : EngineKept s t) (d cls kind : Nat) (inbound : Bool) (addr region sub : Nat) :
    EngineKept s (denied t d cls kind inbound addr region sub) := by
  unfold Machine.denied
  extract_lets t1 l l' _ t2 info
  have h2 : EngineKept s t2 := (h.privCount _).same rfl
  exact .ite (h2.event ..) (.ite (h2.event ..) (h2.rateEvent fun _ hu => hu.event ..))

theorem EngineKept.passed {s t : State} (h : EngineKept s t) (d : Nat) (own : Bool) (i : FilterItem) : EngineKept s (passed t d own i) :=
  (h.count _ _).filterItem _ _

theorem EngineKept.deliverTlp {s t : State} (h : EngineKept s t) (d src : Nat) (o : Origin) (q : Tlp) :
    EngineKept s (deliverTlp t d src o q) := by
  unfold Machine.deliverTlp
  refine .ite (h.refuseTlp ..) ?_
  split
  · exact h.enqueueTlp ..
  · split
    · exact (h.denied ..).refuseTlp ..
    · exact (h.passed ..).enqueueTlp ..

/-- A request towards the host leaves, or its answer waits for the end of the step. -/
theorem EngineKept.toHost {s t : State} (h : EngineKept s t) (v req : Nat) (q : Tlp) : EngineKept s (toHost t v req q) := by
  unfold Machine.toHost
  dsimp only
  split
  · exact h.deliverTlp ..
  · split
    · exact h.presentTunnel ..
    · exact ⟨h.insts, h.reads⟩

end Sys2Proof.Scope
end

section
/-!
Queues as their descriptors advance (R310): what presenting leaves of every queue, and of the engine's local reads.
-/

namespace Sys2Proof.Scope

open Sys2Proof.Machine Sys2Proof.Laws

-- One declaration at a time: side by side their threads are too much for the memory limit of the check.
set_option Elab.async false

/-! ### Queues read back -/

/-- Queue `q` of virtual function `i`. -/
def queueAt (s : State) (i q : Nat) : Option Queue := (queueOfInst s i q).map Prod.snd

theorem queueAt_of_queueOfInst {s : State} {i q : Nat} {x : InstState} {k : Queue} (h : queueOfInst s i q = some (x, k)) :
    queueAt s i q = some k := congrArg (Option.map Prod.snd) h

theorem queueOfInst_eq_some_iff {s : State} {i q : Nat} {x : InstState} {k : Queue} :
    queueOfInst s i q = some (x, k) ↔ instOf s i = some x ∧ Tbl.find? x.queues q = some k := by
  unfold queueOfInst
  cases instOf s i with
  | none => simp
  | some y => cases hy : Tbl.find? y.queues q <;> grind

theorem instOf_setInst (s : State) (i j : Nat) (x : InstState) : instOf (setInst s i x) j = if j = i then some x else instOf s j :=
  Tbl.find?_set ..

theorem setQueueOf_eq {s : State} {i : Nat} {x : InstState} (h : instOf s i = some x) (q : Nat) (k : Queue) :
    setQueueOf s i q k = setInst s i { x with queues := Tbl.set x.queues q k } := by
  simp only [setQueueOf, h]

theorem setQueueOf_reads (s : State) (i q : Nat) (k : Queue) : (setQueueOf s i q k).eng.reads = s.eng.reads := by
  unfold setQueueOf
  split <;> rfl

theorem queueOfInst_setQueueOf {s : State} {i q : Nat} {x : InstState} {k : Queue} (h : queueOfInst s i q = some (x, k)) (l : Queue) :
    queueOfInst (setQueueOf s i q l) i q = some ({ x with queues := Tbl.set x.queues q l }, l) := by
  obtain ⟨hi, -⟩ := queueOfInst_eq_some_iff.mp h
  rw [setQueueOf_eq hi, queueOfInst_eq_some_iff, instOf_setInst, if_pos rfl]
  exact ⟨rfl, Tbl.find?_set_same ..⟩

/-- Setting a queue that is there leaves the others. -/
theorem queueAt_setQueueOf {s : State} {i q : Nat} {k : Queue} (h : queueAt s i q = some k) (l : Queue) (j p : Nat) :
    queueAt (setQueueOf s i q l) j p = if j = i ∧ p = q then some l else queueAt s j p := by
  obtain ⟨⟨x, k'⟩, hq, rfl⟩ := Option.map_eq_some_iff.mp h
  obtain ⟨hi, -⟩ := queueOfInst_eq_some_iff.mp hq
  by_cases hj : j = i
  · subst hj
    by_cases hp : p = q
    · subst hp
      simp [queueAt, queueOfInst_setQueueOf hq]
    · simp [queueAt, queueOfInst, setQueueOf_eq hi, instOf_setInst, hi, Tbl.find?_set, hp]
      cases Tbl.find? x.queues p <;> rfl
  · simp [queueAt, queueOfInst, setQueueOf_eq hi, instOf_setInst, hj]

/-! ### Descriptors that go on -/

/-- What a descriptor in progress becomes: the same one, with no condition lost, and presented if it was. -/
structure Follows (d e : DescState) : Prop where
  n : e.n = d.n
  conds : ∀ c ∈ d.conds, c ∈ e.conds
  presented : d.presented = true → e.presented = true

theorem Follows.refl (d : DescState) : Follows d d := ⟨rfl, fun _ h => h, id⟩

theorem Follows.trans {d e f : DescState} (h : Follows d e) (k : Follows e f) : Follows d f :=
  ⟨k.n.trans h.n, fun c hc => k.conds c (h.conds c hc), fun hp => k.presented (h.presented hp)⟩

/-- A queue takes and loses no descriptor, and those in progress go on. -/
structure Advances (k l : Queue) : Prop where
  head : l.head = k.head
  count : l.count = k.count
  work : ∃ g : DescState → DescState, (∀ d, Follows d (g d)) ∧ l.work = k.work.map g

theorem Advances.refl (k : Queue) : Advances k k := ⟨rfl, rfl, id, Follows.refl, (List.map_id _).symm⟩

theorem Advances.trans {k l m : Queue} (h : Advances k l) (h' : Advances l m) : Advances k m := by
  obtain ⟨g, hg, hl⟩ := h.work
  obtain ⟨f, hf, hm⟩ := h'.work
  exact ⟨h'.head.trans h.head, h'.count.trans h.count, f ∘ g, fun d => (hg d).trans (hf (g d)), by rw [hm, hl, List.map_map]⟩

/-- The engine's local reads are the same, and every queue only advances. -/
structure QueuesAdvance (s t : State) : Prop where
  reads : t.eng.reads = s.eng.reads
  queues : ∀ {i q k}, queueAt s i q = some k → ∃ l, queueAt t i q = some l ∧ Advances k l

theorem QueuesAdvance.refl (s : State) : QueuesAdvance s s := ⟨rfl, fun {_ _ k} h => ⟨k, h, .refl k⟩⟩

theorem QueuesAdvance.trans {s t u : State} (h : QueuesAdvance s t) (h' : QueuesAdvance t u) : QueuesAdvance s u := by
  refine ⟨h'.reads.trans h.reads, fun hk => ?_⟩
  obtain ⟨l, hl, hkl⟩ := h.queues hk
  obtain ⟨m, hm, hlm⟩ := h'.queues hl
  exact ⟨m, hm, hkl.trans hlm⟩

theorem QueuesAdvance.ite {s a b : State} {c : Prop} {_ : Decidable c} (ha : QueuesAdvance s a) (hb : QueuesAdvance s b) :
    QueuesAdvance s (if c then a else b) := by
  split
  · exact ha
  · exact hb

theorem QueuesAdvance.foldl {α : Type} {s t : State} {f : State → α → State} (h : QueuesAdvance s t) (l : List α)
    (hf : ∀ u a, QueuesAdvance u (f u a)) : QueuesAdvance s (l.foldl f t) := by
  induction l generalizing t with
  | nil => exact h
  | cons a l ih => exact ih (h.trans (hf t a))

theorem EngineKept.queuesAdvance {s t : State} (h : EngineKept s t) : QueuesAdvance s t :=
  ⟨h.reads, fun {i q k} hk => ⟨k, (congrArg (Option.map Prod.snd) (h.queueOfInst i q)).trans hk, .refl k⟩⟩

/-! ### A descriptor changed -/

/-- A queue with its descriptors of number `n` changed. -/
def workChanged (k : Queue) (n : Nat) (f : DescState → DescState) : Queue :=
  { k with work := k.work.map fun d => if d.n = n then f d else d }

theorem workChanged_advances {f : DescState → DescState} (hf : ∀ d, Follows d (f d)) (k : Queue) (n : Nat) :
    Advances k (workChanged k n f) := by
  refine ⟨rfl, rfl, _, fun d => ?_, rfl⟩
  split
  · exact hf d
  · exact .refl d

theorem descMod_eq {s : State} {t : Ticket} {k : Queue} (h : queueAt s t.inst t.q = some k) (f : DescState → DescState) :
    descMod s t f = setQueueOf s t.inst t.q (workChanged k t.n f) := by
  obtain ⟨⟨x, k'⟩, hq, rfl⟩ := Option.map_eq_some_iff.mp h
  obtain ⟨hi, hk⟩ := queueOfInst_eq_some_iff.mp hq
  simp only [descMod, setQueueOf, hi, hk]
  rfl

/-- The queue of a descriptor that is changed. -/
theorem queueAt_descMod {s : State} {t : Ticket} {k : Queue} (h : queueAt s t.inst t.q = some k) (f : DescState → DescState) :
    queueAt (descMod s t f) t.inst t.q = some (workChanged k t.n f) := by
  rw [descMod_eq h, queueAt_setQueueOf h, if_pos ⟨rfl, rfl⟩]

theorem descMod_none {s : State} {t : Ticket} (h : queueAt s t.inst t.q = none) (f : DescState → DescState) : descMod s t f = s := by
  unfold descMod
  split
  · next x hi =>
    split
    · next k hk => simp [queueAt, queueOfInst, hi, hk] at h
    · rfl
  · rfl

theorem descMod_advances {f : DescState → DescState} (hf : ∀ d, Follows d (f d)) (s : State) (t : Ticket) :
    QueuesAdvance s (descMod s t f) := by
  cases h : queueAt s t.inst t.q with
  | none =>
    rw [descMod_none h]
    exact .refl s
  | some k =>
    rw [descMod_eq h]
    refine ⟨setQueueOf_reads .., fun {i q l} hl => ?_⟩
    rw [queueAt_setQueueOf h]
    split
    · next hiq =>
      obtain ⟨rfl, rfl⟩ := hiq
      obtain rfl : k = l := Option.some.inj (h.symm.trans hl)
      exact ⟨_, rfl, workChanged_advances hf k t.n⟩
    · exact ⟨l, hl, .refl l⟩

theorem descCond_advances (s : State) (t : Ticket) (status detail : Nat) : QueuesAdvance s (descCond s t status detail) :=
  descMod_advances (f := fun d => { d with conds := d.conds ++ [(status, detail)] })
    (fun _ => { n := rfl, conds := fun _ => List.mem_append_left _, presented := id }) s t

/-! ### Presenting (R310) -/

/-- A descriptor whose operations have been presented. -/
def markPresented (d : DescState) : DescState := { d with presented := true }

/-- A descriptor with one operation more to be answered. -/
def oneLeft (d : DescState) : DescState := { d with left := d.left + 1 }

theorem markPresented_follows (d : DescState) : Follows d (markPresented d) := ⟨rfl, fun _ h => h, fun _ => rfl⟩

theorem oneLeft_follows (d : DescState) : Follows d (oneLeft d) := ⟨rfl, fun _ h => h, id⟩

theorem presentDesc_advances (s : State) (t : Ticket) (d : DescState) :
    QueuesAdvance (descMod s t markPresented) (presentDesc s t d) := by
  unfold presentDesc
  extract_lets +onlyGivenNames o s1
  change QueuesAdvance s1 _
  refine .ite (.refl s1) ?_
  split
  · exact .ite (.refl s1) (descCond_advances ..)
  · extract_lets put fence s2 data ps last s3
    have hput (u : State) (op : NewOp) : QueuesAdvance u (put u op) :=
      (descMod_advances oneLeft_follows u t).trans ((EngineKept.refl _).present op).queuesAdvance
    have hfence (u : State) : QueuesAdvance u (fence u) :=
      (descMod_advances oneLeft_follows u t).trans ((EngineKept.refl _).presentFence ..).queuesAdvance
    have h2 : QueuesAdvance s1 s2 := .ite (hfence s1) (.refl s1)
    have h3 : QueuesAdvance s1 s3 := by
      unfold s3
      split
      · exact h2.foldl _ fun u p => hput u _
      · exact h2.foldl _ fun u p => hput u _
      · exact h2.trans (hput _ _)
      · exact h2.trans (hfence _)
      · exact h2
    exact .ite (h3.trans (hfence s3)) h3

theorem advanceQueue_advances (fuel : Nat) (s : State) (i q : Nat) : QueuesAdvance s (advanceQueue fuel s i q) := by
  induction fuel generalizing s with
  | zero => exact .refl s
  | succ fuel ih =>
    unfold advanceQueue
    split
    · exact .refl s
    · split
      · exact .refl s
      · exact .ite (.refl s) (((descMod_advances markPresented_follows s _).trans (presentDesc_advances s _ _)).trans (ih _))

/-- Where every descriptor in progress is presented, nothing is left to present. -/
theorem advanceQueue_of_presented {s : State} {i q : Nat} {k : Queue} (hk : queueAt s i q = some k)
    (hp : ∀ d ∈ k.work, d.presented = true) (fuel : Nat) : advanceQueue fuel s i q = s := by
  obtain ⟨⟨x, k'⟩, hq, rfl⟩ := Option.map_eq_some_iff.mp hk
  cases fuel with
  | zero => rfl
  | succ fuel =>
    have hn : k'.work.find? (fun d => !d.presented) = none := List.find?_eq_none.mpr fun d hd => by simp [hp d hd]
    simp only [advanceQueue, hq, hn]

end Sys2Proof.Scope
end

section
/-!
The descriptor rows (R308 to R312, R315), and O31.
-/

namespace Sys2Proof.Scope

open Sys2Proof.Machine Sys2Proof.Laws

-- One declaration at a time: side by side their threads are too much for the memory limit of the check.
set_option Elab.async false

/-! ### A descriptor fetched (R308, R309) -/

/-- The queue runs, in a virtual function and a partition that are ready, and its next descriptor, of word `w`, can be read at host address `a`. -/
structure Fetches (s : State) (i q : Nat) (x : InstState) (k : Queue) (a w : Nat) : Prop where
  queue : queueOfInst s i q = some (x, k)
  runs : k.stopped = false
  stays : k.deleting = false
  noFlr : x.flr = none
  waits : k.head ≠ k.tail
  room : k.work.length < 64
  ready : vsState s x.vs = 2
  found : translate x (k.sqBase + 64 * k.head) false = some a
  allowed : hostDenial s x.vs 0 a 64 = none
  word : leNat (hostRead s x.vs a 64) = w

/-- The descriptor in progress that word `w` becomes. -/
def fetched (k : Queue) (w : Nat) : DescState := descStart k.count ((k.head + 1) % 2 ^ k.sqLog) (descHead w)

/-- The queue that has taken word `w` into progress. -/
def queueTaken (k : Queue) (w : Nat) : Queue :=
  { k with head := (k.head + 1) % 2 ^ k.sqLog, count := k.count + 1, work := k.work ++ [fetched k w] }

/-- The descriptor that the queue takes next. -/
def nextTicket (i q : Nat) (k : Queue) : Ticket := { inst := i, q := q, n := k.count }

theorem importRefusal_setQueueOf (s : State) (i q : Nat) (k : Queue) (j : Nat) (d : DescHead) :
    importRefusal (setQueueOf s i q k) j d = importRefusal s j d := by
  unfold setQueueOf
  split <;> rfl

section
variable {s : State} {i q : Nat} {x : InstState} {k : Queue} {a w : Nat} (h : Fetches s i q x k a w)
include h

theorem Fetches.queueAt_taken : queueAt (setQueueOf s i q (queueTaken k w)) i q = some (queueTaken k w) :=
  queueAt_of_queueOfInst (queueOfInst_setQueueOf h.queue _)

theorem Fetches.instOf_taken : instOf (setQueueOf s i q (queueTaken k w)) i = some { x with queues := Tbl.set x.queues q (queueTaken k w) } :=
  (queueOfInst_eq_some_iff.mp (queueOfInst_setQueueOf h.queue _)).1

theorem fetchDescriptor_malformed {f : Nat → Bool} (hf : f (descHead w).opcode = true) (hm : (descHead w).malformed = true) :
    fetchDescriptor s i q f = descCond (setQueueOf s i q (queueTaken k w)) (nextTicket i q k) 8 0 := by
  obtain ⟨hq, hr, hd, hl, hw, hn, hv, ht, ha, hx⟩ := h
  simp [fetchDescriptor, hq, hr, hd, hl, hw, Nat.not_le.mpr hn, hv, ht, hostFetch, ha, hx, hf, hm, queueTaken, fetched, nextTicket]

theorem fetchDescriptor_inOrder {f : Nat → Bool} (hf : f (descHead w).opcode = true) (hm : (descHead w).malformed = false)
    (hi : importRefusal s i (descHead w) = 0) :
    fetchDescriptor s i q f =
      if (descHead w).opcode = 1 then readLocal (setQueueOf s i q (queueTaken k w)) (nextTicket i q k) (fetched k w)
      else setQueueOf s i q (queueTaken k w) := by
  obtain ⟨hq, hr, hd, hl, hw, hn, hv, ht, ha, hx⟩ := h
  simp [fetchDescriptor, hq, hr, hd, hl, hw, Nat.not_le.mpr hn, hv, ht, hostFetch, ha, hx, hf, hm, importRefusal_setQueueOf, hi, queueTaken, fetched,
    nextTicket]

end

/-- In `t` queue `q` of virtual function `i`, which was `k`, has one descriptor more in progress. -/
def TookNext (i q : Nat) (k : Queue) (t : State) : Prop :=
  (queueOfInst t i q).map (fun r => (r.2.head, r.2.count, r.2.work.length)) =
    some ((k.head + 1) % 2 ^ k.sqLog, k.count + 1, k.work.length + 1)

/-- What a queue that has taken the descriptor advances to. -/
theorem tookNext_of_advances {t : State} {i q w : Nat} {k : Queue} (h : ∃ l, queueAt t i q = some l ∧ Advances (queueTaken k w) l) :
    TookNext i q k t := by
  obtain ⟨l, hl, hh, hc, g, -, hw⟩ := h
  obtain ⟨r, hr, rfl⟩ := Option.map_eq_some_iff.mp hl
  simp [TookNext, hr, hh, hc, hw, queueTaken]

end Sys2Proof.Scope
end

section
/-!
The heddle's check of the accesses of a partition's own functions reads the configuration, the heddles and the vault alone (R325 to R330).
-/

namespace Sys2Proof.Scope

open Sys2Proof.Machine Sys2Proof.Laws

theorem upPort_congr {s t : State} (h : t.cfg = s.cfg) (v : Nat) : upPort t v = upPort s v := by
  simp only [upPort, portPart_congr h, cfgv_congr h, isWarp_congr h]

theorem activeRegion_congr {s t : State} (hh : t.hed = s.hed) (hv : t.vault = s.vault) (p r : Nat) :
    activeRegion t p r = activeRegion s p r := by
  simp only [activeRegion, lockedWord, hh, hv]

theorem activeOwn_congr {s t : State} (hh : t.hed = s.hed) (p : Nat) : activeOwn t p = activeOwn s p := by
  simp only [activeOwn, hh]

theorem regionCheck_congr {s t : State} (hh : t.hed = s.hed) (hv : t.vault = s.vault) (p lo hi : Nat) (a : Access) :
    regionCheck t p lo hi a = regionCheck s p lo hi a := by
  simp only [regionCheck, winner, activeRegion_congr hh hv]

theorem heddleCheck_congr {s t : State} (hc : t.cfg = s.cfg) (hh : t.hed = s.hed) (hv : t.vault = s.vault) (p : Nat) (a : Access) :
    heddleCheck t p a = heddleCheck s p a := by
  simp only [heddleCheck, regionCheck_congr hh hv, activeOwn_congr hh, portPart_congr hc]

theorem hostDenial_congr {s t : State} (hc : t.cfg = s.cfg) (hh : t.hed = s.hed) (hv : t.vault = s.vault) (v kind a n : Nat) :
    hostDenial t v kind a n = hostDenial s v kind a n := by
  simp only [hostDenial, upPort_congr hc, heddleCheck_congr hc hh hv]

/-- What a function writes to its host does not depend on the engine's instances. -/
theorem hostPost_host_setInst (s : State) (i : Nat) (x : InstState) (v a : Nat) (bs : List Byte) :
    (hostPost (setInst s i x) v a bs).host = (hostPost s v a bs).host := by
  simp only [hostPost, hostDenial_congr (t := setInst s i x) (s := s) rfl rfl rfl]
  split <;> rfl

end Sys2Proof.Scope
end

section
/-!
What each descriptor row presents, the completions and the stops (R300, R310 to R312, R315), and O31.
-/

namespace Sys2Proof.Scope

open Sys2Proof.Machine Sys2Proof.Laws

-- One declaration at a time: side by side their threads are too much for the memory limit of the check.
set_option Elab.async false

/-! ### Operations of one descriptor (R310) -/

theorem descMod_win (s : State) (t : Ticket) (f : DescState → DescState) : (descMod s t f).win = s.win :=
  (descMod_keeps (mk := maskOf [.eng]) (.refl s) (by decide)).win (by decide)

theorem setQueueOf_shu (s : State) (i q : Nat) (k : Queue) : (setQueueOf s i q k).shu = s.shu :=
  (setQueueOf_keeps (mk := maskOf [.eng]) (.refl s) (by decide)).shu (by decide)

theorem setQueueOf_win (s : State) (i q : Nat) (k : Queue) : (setQueueOf s i q k).win = s.win :=
  (setQueueOf_keeps (mk := maskOf [.eng]) (.refl s) (by decide)).win (by decide)

theorem engineOrigin_setQueueOf (s : State) (i q : Nat) (k : Queue) : engineOrigin (setQueueOf s i q k) i = engineOrigin s i := by
  cases hi : instOf s i with
  | none => simp [setQueueOf, hi]
  | some x =>
    simp only [setQueueOf_eq hi, engineOrigin, instOf_setInst, hi, if_true]
    rfl

theorem engineOrigin_vs {s : State} {i : Nat} {x : InstState} (h : instOf s i = some x) : (engineOrigin s i).vs = x.vs := by
  simp only [engineOrigin, h]

/-- A descriptor that has met no condition, has no fence before or after it, and names import `m`. -/
structure Plain (s : State) (d : DescState) (m : Import) : Prop where
  found : Tbl.find? s.win.imports d.imp = some m
  clean : d.conds = []
  before : d.fenceBefore = false
  after : d.fenceAfter = false

section
variable {s : State} {d : DescState} {m : Import} (h : Plain s d m) (t : Ticket)
include h

/-- A READ that fits one operation is one READ of its length at its window offset. -/
theorem presentDesc_read (ho : d.opcode = 2) (hl : d.len ≤ 4080) : presentDesc s t d =
    present (descMod (descMod s t markPresented) t oneLeft)
      (descOp m t.inst 1 t (engineOrigin s t.inst) d d.offset d.len 0 (m.acqLoads || d.acq) []) := by
  obtain ⟨hm, hc, hb, ha⟩ := h
  simp [presentDesc, descMod_win, hm, hc, hb, ha, ho, pieces, hl]
  rfl

theorem presentDesc_atomic (ho : d.opcode = 3) : presentDesc s t d =
    present (descMod (descMod s t markPresented) t oneLeft)
      (descOp m t.inst 2 t (engineOrigin s t.inst) d d.offset d.len 0 (m.acqLoads || d.acq)
        (leBytes d.len d.opA ++ if d.atom = 2 then leBytes d.len d.opB else [])) := by
  obtain ⟨hm, hc, hb, ha⟩ := h
  simp [presentDesc, descMod_win, hm, hc, hb, ha, ho]
  rfl

theorem presentDesc_fence (ho : d.opcode = 4) : presentDesc s t d =
    presentFence (descMod (descMod s t markPresented) t oneLeft) m.cid (engineOrigin s t.inst) none (some t) t.inst m.ord := by
  obtain ⟨hm, hc, hb, ha⟩ := h
  simp [presentDesc, descMod_win, hm, hc, hb, ha, ho]
  rfl

end

/-- A NOP without fences presents nothing. -/
theorem presentDesc_nop {s : State} {d : DescState} (ho : d.opcode = 5) (hc : d.conds = []) (hb : d.fenceBefore = false)
    (ha : d.fenceAfter = false) (t : Ticket) : presentDesc s t d = descMod s t markPresented := by
  cases hm : Tbl.find? s.win.imports d.imp with
  | none =>
    simp [presentDesc, descMod_win, hm, hc, hb, ha, ho]
    rfl
  | some m =>
    simp [presentDesc, descMod_win, hm, hc, hb, ha, ho]
    rfl

section
variable {s : State} {i q : Nat} {x : InstState} {k : Queue} {a w : Nat} (h : Fetches s i q x k a w)
include h

/-- A descriptor in order, alone in its queue and with nothing to read, is presented as it is fetched. -/
theorem descRow_presents {f : Nat → Bool} (hf : f (descHead w).opcode = true) (hm : (descHead w).malformed = false)
    (hi : importRefusal s i (descHead w) = 0) (ho : (descHead w).opcode ≠ 1) (hk : k.work = []) :
    descRow s i q f = presentDesc (setQueueOf s i q (queueTaken k w)) (nextTicket i q k) (fetched k w) := by
  have hw : (queueTaken k w).work = [fetched k w] := by simp [queueTaken, hk]
  have hstep : advanceQueue 65 (setQueueOf s i q (queueTaken k w)) i q =
      advanceQueue 64 (presentDesc (setQueueOf s i q (queueTaken k w)) (nextTicket i q k) (fetched k w)) i q := by
    rw [advanceQueue, queueOfInst_setQueueOf h.queue]
    simp only [hw]
    rfl
  obtain ⟨l, hl, -, -, g, hg, hlw⟩ := (presentDesc_advances (setQueueOf s i q (queueTaken k w)) (nextTicket i q k) (fetched k w)).queues
    (queueAt_descMod (t := nextTicket i q k) h.queueAt_taken _)
  have hp : ∀ d ∈ l.work, d.presented = true := by
    intro d hd
    obtain rfl : d = g (markPresented (fetched k w)) := by simpa [hlw, workChanged, hw, nextTicket, fetched, descStart] using hd
    exact (hg _).presented rfl
  rw [descRow, fetchDescriptor_inOrder h hf hm hi, if_neg ho, hstep]
  exact advanceQueue_of_presented hl hp 64

/-- The queue has taken the descriptor that it presents. -/
theorem Fetches.tookNext_presented :
    TookNext i q k (presentDesc (setQueueOf s i q (queueTaken k w)) (nextTicket i q k) (fetched k w)) :=
  tookNext_of_advances (((descMod_advances markPresented_follows _ _).trans (presentDesc_advances ..)).queues h.queueAt_taken)

theorem Fetches.origin : (engineOrigin (setQueueOf s i q (queueTaken k w)) i).rid = (engineOrigin s i).rid ∧
    (engineOrigin (setQueueOf s i q (queueTaken k w)) i).vs = x.vs := by
  rw [engineOrigin_setQueueOf, engineOrigin_vs (queueOfInst_eq_some_iff.mp h.queue).1]
  exact ⟨rfl, rfl⟩

end

/-- The descriptor of a word without fence bits is plain. -/
theorem plain_fetched {s : State} {w : Nat} {m : Import} (i q : Nat) (k : Queue) (hm : Tbl.find? s.win.imports (descHead w).imp = some m)
    (hb : bit w 184 = false) (ha : bit w 185 = false) : Plain (setQueueOf s i q (queueTaken k w)) (fetched k w) m :=
  ⟨(congrArg (fun b => Tbl.find? b.imports _) (setQueueOf_win ..)).trans hm, rfl, hb, ha⟩

/-- A reserved opcode makes a descriptor malformed (R311). -/
theorem malformed_of_reserved {d : DescHead} (h : d.opcode = 0 ∨ 5 < d.opcode) : d.malformed = true := by
  have hn : (decide (1 ≤ d.opcode) && decide (d.opcode ≤ 5)) = false := by
    simp only [Bool.and_eq_false_iff, decide_eq_false_iff_not]
    omega
  simp only [DescHead.malformed, hn, Bool.not_false, Bool.true_or]

/-- A NOP without fences is refused by no import (R279). -/
theorem importRefusal_nop {w : Nat} (ho : (descHead w).opcode = 5) (hb : bit w 184 = false) (ha : bit w 185 = false) (s : State) (i : Nat) :
    importRefusal s i (descHead w) = 0 := by
  have hn : (descHead w).needsImport = false := by
    simp only [DescHead.needsImport, ho]
    simpa [descHead] using ⟨hb, ha⟩
  simp [importRefusal, hn]

/-- What an operation of type `typ` for the whole range of descriptor `d` on import `m` shows: connection, type, generation and head. -/
def wholeOp (s : State) (i : Nat) (x : InstState) (m : Import) (d : DescHead) (typ : Nat) : Nat × Nat × Nat × Nat :=
  (m.cid, typ, m.gen, reqWord { rid := (engineOrigin s i).rid, vs := x.vs, kind := 2, tag := 0, len := d.len, lastBe := 15, firstBe := 15
                                atom := d.atom, ns := false, window := m.window, offset := m.winBase + d.off })

/-- Of an operation presented on a queue that has taken its descriptor, what a reader sees is added to what it saw. -/
theorem map_present_taken {β : Type} (g : NewOp → β) (hg : ∀ op k, g { op with chain := some k } = g op) (s : State) (i q : Nat) (k : Queue)
    (t : Ticket) (op : NewOp) :
    (present (descMod (descMod (setQueueOf s i q k) t markPresented) t oneLeft) op).shu.waiting.map g = s.shu.waiting.map g ++ [g op] := by
  rw [map_present_waiting g _ _ fun _ => hg .., descMod_shu, descMod_shu, setQueueOf_shu]

section
variable {i : Inst} {q : Fin 16} {s : State} {x : InstState} {k : Queue} {a w : Nat} {m : Import} (h : Fetches s i q x k a w)
include h

section
variable (hk : k.work = []) (hm : (descHead w).malformed = false) (hr : importRefusal s i (descHead w) = 0)
  (hi : Tbl.find? s.win.imports (descHead w).imp = some m) (hb : bit w 184 = false) (ha : bit w 185 = false)
include hk hm hr hi hb ha

theorem descRead_reads (ho : (descHead w).opcode = 2) (hl : (descHead w).len ≤ 4080) :
    Leaves (.descRead i q) s fun t => TookNext i q k t ∧ t.shu.waiting.map (fun o => (o.cid, o.typ, o.gen, o.head)) =
      s.shu.waiting.map (fun o => (o.cid, o.typ, o.gen, o.head)) ++ [wholeOp s i x m (descHead w) 1] := by
  refine ⟨descRead i q s, rfl, ?_⟩
  rw [descRead, descRow_presents h (by simp [ho]) hm hr (by simp [ho]) hk]
  refine ⟨h.tookNext_presented, ?_⟩
  obtain ⟨hrid, hvs⟩ := h.origin
  rw [presentDesc_read (plain_fetched i q k hi hb ha) _ ho hl, map_present_taken _ fun _ _ => rfl]
  simp only [descOp, nextTicket, hrid, hvs]
  rfl

theorem descAtomic_asks (ho : (descHead w).opcode = 3) :
    Leaves (.descAtomic i q) s fun t => TookNext i q k t ∧ t.shu.waiting.map (fun o => (o.cid, o.typ, o.gen, o.head)) =
      s.shu.waiting.map (fun o => (o.cid, o.typ, o.gen, o.head)) ++ [wholeOp s i x m (descHead w) 2] := by
  refine ⟨descAtomic i q s, rfl, ?_⟩
  rw [descAtomic, descRow_presents h (by simp [ho]) hm hr (by simp [ho]) hk]
  refine ⟨h.tookNext_presented, ?_⟩
  obtain ⟨hrid, hvs⟩ := h.origin
  rw [presentDesc_atomic (plain_fetched i q k hi hb ha) _ ho, map_present_taken _ fun _ _ => rfl]
  simp only [descOp, nextTicket, hrid, hvs]
  rfl

theorem descFence_fences (ho : (descHead w).opcode = 4) :
    Leaves (.descFence i q) s fun t => TookNext i q k t ∧ t.shu.waiting.map (fun o => (o.cid, o.typ, o.acq, o.rel)) =
      s.shu.waiting.map (fun o => (o.cid, o.typ, o.acq, o.rel)) ++ [(m.cid, 5, true, true)] := by
  refine ⟨descFence i q s, rfl, ?_⟩
  rw [descFence, descRow_presents h (by simp [ho]) hm hr (by simp [ho]) hk]
  refine ⟨h.tookNext_presented, ?_⟩
  rw [presentDesc_fence (plain_fetched i q k hi hb ha) _ ho, presentFence, map_present_waiting _ _ _ fun _ => rfl, count_shu, descMod_shu,
    descMod_shu, setQueueOf_shu]

end

/-! ### DESC_NOP: reserved opcodes and NOPs (R311) -/

theorem descNop_malformed (ho : (descHead w).opcode = 0 ∨ 5 < (descHead w).opcode) :
    Leaves (.descNop i q) s fun t => TookNext i q k t ∧
      ((queueOfInst t i q).any fun r => r.2.work.any fun e => e.n = k.count && e.conds.contains (8, 0)) = true := by
  refine ⟨descNop i q s, rfl, ?_⟩
  have hf : (!(decide (1 ≤ (descHead w).opcode) && decide ((descHead w).opcode ≤ 4))) = true := by
    simp only [Bool.not_eq_true', Bool.and_eq_false_iff, decide_eq_false_iff_not]
    omega
  rw [descNop, descRow, fetchDescriptor_malformed h hf (malformed_of_reserved ho)]
  have ha := advanceQueue_advances 65 (descCond (setQueueOf s i q (queueTaken k w)) (nextTicket i q k) 8 0) i q
  refine ⟨tookNext_of_advances (((descCond_advances ..).trans ha).queues h.queueAt_taken), ?_⟩
  obtain ⟨l, hl, -, -, g, hg, hw⟩ := ha.queues (i := i) (q := q) (queueAt_descMod (t := nextTicket i q k) h.queueAt_taken _)
  obtain ⟨r, hr, rfl⟩ := Option.map_eq_some_iff.mp hl
  have hn := (hg { fetched k w with conds := [(8, 0)] }).n
  have hc := (hg { fetched k w with conds := [(8, 0)] }).conds (8, 0) (by simp)
  simp only [hr, Option.any_some, List.any_eq_true, Bool.and_eq_true, decide_eq_true_eq, List.contains_iff_mem]
  refine ⟨_, ?_, hn, hc⟩
  rw [hw]
  refine List.mem_map_of_mem ?_
  refine List.mem_map.mpr ⟨fetched k w, by simp [queueTaken], ?_⟩
  exact if_pos rfl

theorem descNop_passes (hk : k.work = []) (ho : (descHead w).opcode = 5) (hm : (descHead w).malformed = false) (hb : bit w 184 = false)
    (ha : bit w 185 = false) :
    Leaves (.descNop i q) s fun t => TookNext i q k t ∧ t.shu.waiting = s.shu.waiting := by
  refine ⟨descNop i q s, rfl, ?_⟩
  rw [descNop, descRow_presents h (by simp [ho]) hm (importRefusal_nop ho hb ha s i) (by simp [ho]) hk]
  refine ⟨h.tookNext_presented, ?_⟩
  rw [presentDesc_nop ho rfl hb ha, descMod_shu, setQueueOf_shu]

end

/-! ### DESC_WRITE: the local data is read (R315) -/

/-- A range within a page is one part. -/
theorem pageParts_of_page {a n : Nat} (h0 : 0 < n) (h : a % 4096 + n ≤ 4096) : pageParts (n + 1) a n = [(a, n)] := by
  obtain ⟨n, rfl⟩ := Nat.exists_eq_add_one.mpr h0
  have hk : min (n + 1) (4096 - a % 4096) = n + 1 := by omega
  simp [pageParts, hk]

/-- The engine with a local read of all the data of a descriptor asked for. -/
def readAsked (s : State) (t : Ticket) (d : DescState) : State :=
  { s with eng := { s.eng with
    nextReq := s.eng.nextReq + 1
    reads := s.eng.reads ++ [{ req := s.eng.nextReq, ticket := t, off := d.addr - d.addr, len := d.len, iova := d.addr, since := s.now }] } }

theorem readLocal_asks {s : State} {t : Ticket} {d : DescState} {x : InstState} {a : Nat} (hi : instOf s t.inst = some x) (h0 : 0 < d.len)
    (hp : d.addr % 4096 + d.len ≤ 4096) (ha : translate x d.addr false = some a) : QueuesAdvance (readAsked s t d) (readLocal s t d) := by
  simp only [readLocal, hi, pageParts_of_page h0 hp, List.foldl_cons, List.foldl_nil, ha]
  exact (descMod_advances (f := fun d => { d with reads := d.reads + 1 }) (fun _ => ⟨rfl, fun _ h => h, id⟩) _ _).trans
    ((EngineKept.refl _).toHost ..).queuesAdvance

theorem descWrite_reads {i : Inst} {q : Fin 16} {s : State} {x : InstState} {k : Queue} {a w b : Nat} (h : Fetches s i q x k a w)
    (ho : (descHead w).opcode = 1) (hm : (descHead w).malformed = false) (hr : importRefusal s i (descHead w) = 0)
    (hp : bits w 448 64 % 4096 + (descHead w).len ≤ 4096) (ht : translate x (bits w 448 64) false = some b) :
    Leaves (.descWrite i q) s fun t => TookNext i q k t ∧ t.eng.reads.map (fun r => (r.off, r.len, r.iova)) =
      s.eng.reads.map (fun r => (r.off, r.len, r.iova)) ++ [(0, (descHead w).len, bits w 448 64)] := by
  refine ⟨descWrite i q s, rfl, ?_⟩
  have h0 : 0 < (descHead w).len := by
    by_contra hz
    obtain hz : (descHead w).len = 0 := by omega
    simp [DescHead.malformed, ho, hz] at hm
  have hread : QueuesAdvance (readAsked (setQueueOf s i q (queueTaken k w)) (nextTicket i q k) (fetched k w)) (descWrite i q s) := by
    rw [descWrite, descRow, fetchDescriptor_inOrder h (by simp [ho]) hm hr, if_pos ho]
    exact (readLocal_asks h.instOf_taken h0 hp ht).trans (advanceQueue_advances ..)
  refine ⟨tookNext_of_advances (hread.queues h.queueAt_taken), ?_⟩
  rw [hread.reads]
  simp only [readAsked, setQueueOf_reads, List.map_append, List.map_singleton, Nat.sub_self]
  rfl

/-! ### Completions and stops (R300, R310 to R312) -/

/-- A queue that is not being deleted stays. -/
theorem queueGone_of_staying {s : State} {i q : Nat} {k : Queue} (h : queueAt s i q = some k) (hd : k.deleting = false) :
    queueGone s i q = s := by
  obtain ⟨⟨x, k'⟩, hq, rfl⟩ := Option.map_eq_some_iff.mp h
  obtain ⟨hi, hk⟩ := queueOfInst_eq_some_iff.mp hq
  have hd' : k'.deleting = false := hd
  simp [queueGone, hi, hk, hd']

/-- A queue after a completion at its tail. -/
def completed (k : Queue) : Queue :=
  { k with cqTail := (k.cqTail + 1) % 2 ^ k.cqLog, phase := if (k.cqTail + 1) % 2 ^ k.cqLog = 0 then !k.phase else k.phase }

theorem cqWrite_writes {s : State} {i q : Nat} {x : InstState} {k : Queue} {a : Nat} (hq : queueOfInst s i q = some (x, k))
    (ha : translate x (k.cqBase + 16 * k.cqTail) true = some a) (tag done head status detail : Nat) (intr : Bool) :
    queueAt (cqWrite s i q tag done head status detail intr) i q = some (completed k) ∧
      (cqWrite s i q tag done head status detail intr).host =
        (hostPost s x.vs a (cqBytes tag done head status detail q k.phase)).host := by
  have hpost : queueAt (hostPost s x.vs a (cqBytes tag done head status detail q k.phase)) i q = some k :=
    (congrArg _ (((EngineKept.refl s).hostPost ..).queueOfInst i q)).trans (queueAt_of_queueOfInst hq)
  have hset : queueAt (setQueueOf (hostPost s x.vs a (cqBytes tag done head status detail q k.phase)) i q (completed k)) i q =
      some (completed k) := (queueAt_setQueueOf hpost ..).trans (if_pos ⟨rfl, rfl⟩)
  have hhost : (setQueueOf (hostPost s x.vs a (cqBytes tag done head status detail q k.phase)) i q (completed k)).host = _ :=
    (setQueueOf_keeps (mk := maskOf [.eng]) (.refl _) (by decide)).host (by decide)
  simp only [cqWrite, hq, ha]
  split
  · exact ⟨(congrArg _ (((EngineKept.refl _).msi ..).queueOfInst i q)).trans hset,
      ((msi_keeps (mk := allBut .host) (.refl _) (by decide)).host (by decide)).trans hhost⟩
  · exact ⟨hset, hhost⟩

theorem descriptorComplete_completes {i : Inst} {q : Fin 16} {s : State} {x : InstState} {k : Queue} {d : DescState} {ds : List DescState}
    {h : Nat} (hq : queueOfInst s i q = some (x, k)) (hf : cqFull k = false) (hw : k.work = d :: ds) (he : descEnded d = true)
    (hd : k.deleting = false) (ht : translate x (k.cqBase + 16 * k.cqTail) true = some h) :
    Leaves (.descriptorComplete i q) s fun t => queueAt t i q = some (completed { k with work := ds }) ∧
      t.host = (hostPost s x.vs h
        (cqBytes d.tag d.bytesDone d.head (descStatus d.conds).1 (descStatus d.conds).2 q.val k.phase)).host := by
  refine ⟨descriptorComplete i q s, rfl, ?_⟩
  obtain ⟨hqueue, hhost⟩ := cqWrite_writes (queueOfInst_setQueueOf hq { k with work := ds }) ht d.tag d.bytesDone d.head
    (descStatus d.conds).1 (descStatus d.conds).2 d.intr
  simp only [descriptorComplete, hq, hf, hw, he, if_true, Bool.false_eq_true, if_false]
  rw [queueGone_of_staying hqueue hd]
  refine ⟨hqueue, hhost.trans ?_⟩
  rw [setQueueOf_eq (queueOfInst_eq_some_iff.mp hq).1, hostPost_host_setInst]

/-- A queue with its function, after the queue has stopped: it is marked, and its error bit is set (R312). -/
def stoppedIn (x : InstState) (q : Nat) (k : Queue) : InstState × Queue :=
  ({ x with queues := Tbl.set x.queues q { k with stopped := true }, errors := putBit x.errors q true }, { k with stopped := true })

theorem queueOfInst_stopQueue {s : State} {i q : Nat} {x : InstState} {k : Queue} (h : queueOfInst s i q = some (x, k)) (cause : Nat) :
    queueOfInst (stopQueue s i q cause) i q = some (stoppedIn x q k) := by
  simp only [stopQueue, h]
  rw [((EngineKept.refl _).eventIn ..).queueOfInst, queueOfInst_eq_some_iff, instOf_setInst, if_pos rfl]
  exact ⟨rfl, Tbl.find?_set_same ..⟩

theorem sqTailDoorbell_rings {i : Inst} {q : Fin 16} {tail : Nat} {x : InstState} {k : Queue} {s : State}
    (hq : queueOfInst s i q = some (x, k)) (hs : k.stopped = false) (hd : k.deleting = false) (hf : x.flr = none) :
    Leaves (.sqTailDoorbell i q tail) s fun t => queueOfInst t i q =
      (if 2 ^ k.sqLog ≤ tail then some (stoppedIn x q k)
      else some ({ x with queues := Tbl.set x.queues q { k with tail := tail } }, { k with tail := tail })) := by
  refine ⟨sqTailDoorbell i q tail s, rfl, ?_⟩
  have hr : (k.stopped || k.deleting || x.flr.isSome) = false := by simp [hs, hd, hf]
  simp only [sqTailDoorbell, hq, hr, Bool.false_eq_true, if_false]
  by_cases hl : 2 ^ k.sqLog ≤ tail
  · simp only [if_pos hl]
    exact queueOfInst_stopQueue hq 1
  · simp only [if_neg hl]
    exact queueOfInst_setQueueOf hq _

theorem descFetchFail_stops {i : Inst} {q : Fin 16} {x : InstState} {k : Queue} {s : State} (hq : queueOfInst s i q = some (x, k))
    (hs : k.stopped = false) (hd : k.deleting = false) (hf : x.flr = none) (hw : k.head ≠ k.tail) :
    Leaves (.descFetchFail i q) s fun t => queueOfInst t i q = some (stoppedIn x q k) := by
  refine ⟨descFetchFail i q s, rfl, ?_⟩
  have hr : (k.stopped || k.deleting || x.flr.isSome || decide (k.head = k.tail)) = false := by simp [hs, hd, hf, hw]
  simp only [descFetchFail, hq, hr, Bool.false_eq_true, if_false]
  exact queueOfInst_stopQueue hq 2

/-- Settles O31, a lemma for each clause. -/
theorem descriptors : Obligations.Descriptors := by
  unfold Obligations.Descriptors
  exact ⟨fun _ _ _ _ _ _ _ _ hq hs hd hf hw hn hv ht ha hx ho hm hr hp hb =>
      descWrite_reads ⟨hq, hs, hd, hf, hw, hn, hv, ht, ha, hx⟩ ho hm hr hp hb,
    fun _ _ _ _ _ _ _ _ hq hs hd hf hw hn hv ht ha hx ho hk hm hr hi hb hc hl =>
      descRead_reads ⟨hq, hs, hd, hf, hw, hn, hv, ht, ha, hx⟩ hk hm hr hi hb hc ho hl,
    fun _ _ _ _ _ _ _ _ hq hs hd hf hw hn hv ht ha hx ho hk hm hr hi hb hc =>
      descAtomic_asks ⟨hq, hs, hd, hf, hw, hn, hv, ht, ha, hx⟩ hk hm hr hi hb hc ho,
    fun _ _ _ _ _ _ _ _ hq hs hd hf hw hn hv ht ha hx ho hk hm hr hi hb hc =>
      descFence_fences ⟨hq, hs, hd, hf, hw, hn, hv, ht, ha, hx⟩ hk hm hr hi hb hc ho,
    fun _ _ _ _ _ _ _ hq hs hd hf hw hn hv ht ha hx ho => descNop_malformed ⟨hq, hs, hd, hf, hw, hn, hv, ht, ha, hx⟩ ho,
    fun _ _ _ _ _ _ _ hq hs hd hf hw hn hv ht ha hx hk ho hm hb hc =>
      descNop_passes ⟨hq, hs, hd, hf, hw, hn, hv, ht, ha, hx⟩ hk ho hm hb hc,
    fun _ _ _ _ _ _ _ _ hq hf hw he hd ht => descriptorComplete_completes hq hf hw he hd ht,
    fun _ _ _ _ _ _ hq hs hd hf => sqTailDoorbell_rings hq hs hd hf,
    fun _ _ _ _ _ hq hs hd hf hw => descFetchFail_stops hq hs hd hf hw⟩

end Sys2Proof.Scope
end

section
/-!
A step with a command at the front of its queue runs that command (R463; log entry 1).
-/

namespace Sys2Proof.Scope

open Sys2Proof.Machine

/-- Settles O46: the queue of the state is its front and the rest, and a step runs the front. -/
theorem stepRunsTheFrontCommand : Obligations.StepRunsTheFrontCommand := by
  unfold Obligations.StepRunsTheFrontCommand
  exact fun _ _ _ => step_of_queued rfl

end Sys2Proof.Scope
end

section
/-!
PGOOD_x is asserted exactly in GOOD, after every step (R416, R423).
-/

namespace Sys2Proof.Scope

open Sys2Proof.Machine Sys2Proof.Laws

/-- Settles O49: a nanosecond changes no feed, and every function of the model that a command runs keeps PGOOD_x exact. -/
theorem pgoodStaysExact : Obligations.PgoodStaysExact := by
  unfold Obligations.PgoodStaysExact
  intro s t hm h
  cases hp : s.pending with
  | nil =>
    cases (step_of_empty hp).symm.trans h
    exact hm
  | cons c cs =>
    obtain ⟨u, hu, k⟩ := exec_keeps c { s with pending := cs }
    cases ((step_of_queued hp).trans hu).symm.trans h
    exact k.feeds hm

end Sys2Proof.Scope
end

section
/-!
What each command of management, security and observation leaves as it is, for O55: the lists of parts that the statement names are the masks
of the lemmas of `Keeps`.
-/

namespace Sys2Proof.Scope

open Sys2Proof.Machine Sys2Proof.Laws

-- One declaration at a time: side by side their threads are too much for the memory limit of the check.
set_option Elab.async false

/-- Settles O55: each command keeps what the mask of its `Keeps` lemma keeps, and that is the list of its clause. -/
theorem framesManagement : Obligations.FramesManagement := by
  unfold Obligations.FramesManagement
  exact ⟨fun _ _ => touchesOnly_of_keeps (execSysfailChange_keeps (.refl _) (by decide)),
    fun _ _ => touchesOnly_of_keeps (execAcfailChange_keeps (.refl _) (by decide)),
    fun _ => touchesOnly_of_keeps (execSysresetOutEnd_keeps (.refl _) (by decide)),
    fun _ _ _ => touchesOnly_of_keeps (execWarmResetCmd_keeps (.refl _) (by decide)),
    fun _ => touchesOnly_of_keeps (execWarmResetDrainEnd_keeps (.refl _) (by decide)),
    fun _ _ _ => touchesOnly_of_keeps (execTestEnterCmd_keeps (.refl _) (by decide)),
    fun _ => touchesOnly_of_keeps (execTestEntryTime_keeps (.refl _) (by decide)),
    fun _ _ _ => touchesOnly_of_keeps (execFwLoadBegin_keeps (.refl _) (by decide)),
    fun _ => touchesOnly_of_keeps (execFwEraseDone_keeps (.refl _) (by decide)),
    fun _ _ _ => touchesOnly_of_keeps (execFwBlockData_keeps (.refl _) (by decide)),
    fun _ _ _ => touchesOnly_of_keeps (execFwLoadEnd_keeps (.refl _) (by decide)),
    fun _ _ => touchesOnly_of_keeps (execFwVerifyDone_keeps (.refl _) (by decide)),
    fun _ _ _ => touchesOnly_of_keeps (execFwActivateCmd_keeps (.refl _) (by decide)),
    fun _ _ _ => touchesOnly_of_keeps (execFwActivateCancel_keeps (.refl _) (by decide)),
    fun _ => touchesOnly_of_keeps (execFwActivationStart_keeps (.refl _) (by decide)),
    fun _ _ => spares_of_keeps (execHitlessPhaseDone_keeps (.refl _) (by decide)),
    fun _ => spares_of_keeps (execHitlessResume_keeps (.refl _) (by decide)),
    fun _ => touchesOnly_of_keeps (execTrialEnd_keeps (.refl _) (by decide)),
    fun _ => touchesOnly_of_keeps (execTreadleWatchdogExpiry_keeps (.refl _) (by decide)),
    fun _ => touchesOnly_of_keeps (execHeartbeatSend_keeps (.refl _) (by decide)),
    fun _ => touchesOnly_of_keeps (execHeartbeat_keeps (.refl _) (by decide)),
    fun _ => touchesOnly_of_keeps (execAuthBegin_keeps (.refl _) (by decide)),
    fun _ => touchesOnly_of_keeps (execAuthProof_keeps (.refl _) (by decide)),
    fun _ _ => touchesOnly_of_keeps (execAuthTimeout_keeps (.refl _) (by decide)),
    fun _ _ => touchesOnly_of_keeps (execLockoutEnd_keeps (.refl _) (by decide)),
    fun _ => touchesOnly_of_keeps (execRead_keeps (.refl _) (by decide)),
    fun _ => spares_of_keeps (execWrite_keeps (.refl _) (by decide)),
    fun _ => touchesOnly_of_keeps (execDiscard_keeps (.refl _) (by decide)),
    fun _ => touchesOnly_of_keeps (execSessionEnd_keeps (.refl _) (by decide)),
    fun _ => touchesOnly_of_keeps (execDescribe_keeps (.refl _) (by decide)),
    fun _ _ => touchesOnly_of_keeps (execSessionIdleTimeout_keeps (.refl _) (by decide)),
    fun _ => touchesOnly_of_keeps (execLease_keeps (.refl _) (by decide)),
    fun _ _ => touchesOnly_of_keeps (execLeaseExpiry_keeps (.refl _) (by decide)),
    fun _ => touchesOnly_of_keeps (execClaim_keeps (.refl _) (by decide)),
    fun _ _ => touchesOnly_of_keeps (execClaimPendingTimeout_keeps (.refl _) (by decide)),
    fun _ => touchesOnly_of_keeps (execWitnessStartupEnd_keeps (.refl _) (by decide)),
    fun _ _ _ => touchesOnly_of_keeps (execCanFrameReceive_keeps (.refl _) (by decide)),
    fun _ _ _ _ => touchesOnly_of_keeps (execSegmentTimeout_keeps (.refl _) (by decide)),
    fun _ => touchesOnly_of_keeps (execCanBusOff_keeps (.refl _) (by decide)),
    fun _ => touchesOnly_of_keeps (execCanBusOffRecovery_keeps (.refl _) (by decide)),
    fun _ _ _ _ => touchesOnly_of_keeps (execMbReqSegment_keeps (.refl _) (by decide)),
    fun _ _ => touchesOnly_of_keeps (execMbRespTaken_keeps (.refl _) (by decide)),
    fun _ => touchesOnly_of_keeps (execEntropyFault_keeps (.refl _) (by decide)),
    fun _ => touchesOnly_of_keeps (execEntropyRecovered_keeps (.refl _) (by decide)),
    fun _ _ => touchesOnly_of_keeps (execTapInstruction_keeps (.refl _) (by decide)),
    fun _ _ _ _ _ => touchesOnly_of_keeps (execIdeKmKeyProg_keeps (.refl _) (by decide)),
    fun _ => touchesOnly_of_keeps (execTallySnapshotLaunch_keeps (.refl _) (by decide)),
    fun _ => touchesOnly_of_keeps (execTallyImageComplete_keeps (.refl _) (by decide)),
    fun _ _ _ => touchesOnly_of_keeps (execTallyHold_keeps (.refl _) (by decide)),
    fun _ => touchesOnly_of_keeps (execTallyHoldTimeout_keeps (.refl _) (by decide)),
    fun _ _ => touchesOnly_of_keeps (execSpoolDeliveryDeadline_keeps (.refl _) (by decide)),
    fun _ _ _ _ => touchesOnly_of_keeps (execSpoolRelease_keeps (.refl _) (by decide)),
    fun _ _ _ _ => touchesOnly_of_keeps (execSpoolMark_keeps (.refl _) (by decide)),
    fun _ _ _ _ => touchesOnly_of_keeps (execSpoolRewind_keeps (.refl _) (by decide)),
    fun _ _ _ _ => touchesOnly_of_keeps (execSpoolRestart_keeps (.refl _) (by decide)),
    fun _ _ => touchesOnly_of_keeps (execSpoolIntrTimeout_keeps (.refl _) (by decide)),
    fun _ _ _ => touchesOnly_of_keeps (execBoltCapture_keeps (.refl _) (by decide)),
    fun _ _ _ => touchesOnly_of_keeps (execBoltRelease_keeps (.refl _) (by decide)),
    fun _ => touchesOnly_of_keeps (execBoltWriteDone_keeps (.refl _) (by decide)),
    fun _ => touchesOnly_of_keeps (execBoltSectionTimeout_keeps (.refl _) (by decide)),
    fun _ _ _ _ _ => spares_of_keeps (execRegisterWrite_keeps (.refl _) (by decide)),
    fun _ => touchesOnly_of_keeps (execFabricCtlResponse_keeps (.refl _) (by decide)),
    fun _ _ _ _ => touchesOnly_of_keeps (execSqTailDoorbell_keeps (.refl _) (by decide)),
    fun _ _ _ => touchesOnly_of_keeps (execAdmqTailDoorbell_keeps (.refl _) (by decide)),
    fun _ _ => spares_of_keeps (execRetrainReqEnd_keeps (.refl _) (by decide))⟩

end Sys2Proof.Scope
end

section
/-!
Current limit, the fault timer, the fast trip and the trip count of a feed (R416, R418, R419, R420, R423).
-/

namespace Sys2Proof.Scope

open Sys2Proof.Machine

/-- The gate of a feed is on in RAMP, QUALIFY and GOOD. -/
theorem gateOn_iff {x : FeedState} : x.gateOn = true ↔ x.st = .ramp ∨ x.st = .qualify ∨ x.st = .good := by
  simp [FeedState.gateOn, or_assoc]

/-! ### The current limit (R418) -/

/-- A feed that enters current limit is held there; its report is another matter. -/
theorem currentLimitEnter_power {f : Feed} {mv outMv ma : Nat} {s : State}
    (hs : (feedOf s f).st = .ramp ∨ (feedOf s f).st = .qualify ∨ (feedOf s f).st = .good) (hi : (feedOf s f).ilimit = false)
    (hm : (feedOf s f).hwLimit * 1000 < ma) : ∃ g e, (currentLimitEnter f mv outMv ma s).power = (setFeed s f { feedOf s f with
      ilimit := true, timer := some s.now, mv := mv, outMv := outMv, ma := heldCurrent (feedOf s f).hwLimit mv outMv
      foldback := decide (heldCurrent (feedOf s f).hwLimit mv outMv < (feedOf s f).hwLimit * 1000)
      gateCount := g, clearSince := s.now, timerEventAt := e }).power := by
  have hc : (feedOf s f).gateOn ∧ ¬ (feedOf s f).ilimit ∧ (feedOf s f).hwLimit * 1000 < ma := ⟨gateOn_iff.mpr hs, by simp [hi], hm⟩
  dsimp only [currentLimitEnter]
  rw [if_pos hc, apply_ite State.power, feedEvent_power, ite_self, feedCount_power]
  exact ⟨_, _, rfl⟩

theorem currentLimitEnter_limits {f : Feed} {mv outMv ma : Nat} {s : State}
    (hs : (feedOf s f).st = .ramp ∨ (feedOf s f).st = .qualify ∨ (feedOf s f).st = .good) (hi : (feedOf s f).ilimit = false)
    (hm : (feedOf s f).hwLimit * 1000 < ma) :
    Leaves (.currentLimitEnter f mv outMv ma) s fun t => (feedOf t f).ilimit = true ∧ (feedOf t f).timer = some s.now ∧
      (feedOf t f).ma = heldCurrent (feedOf s f).hwLimit mv outMv ∧ (feedOf t f).st = (feedOf s f).st ∧
      (feedOf t f).pgood = (feedOf s f).pgood ∧ (feedOf t f).trips = (feedOf s f).trips ∧
      feedOf t (otherFeed f) = feedOf s (otherFeed f) := by
  obtain ⟨g, e, hp⟩ := currentLimitEnter_power (mv := mv) (outMv := outMv) hs hi hm
  refine ⟨currentLimitEnter f mv outMv ma s, rfl, ?_⟩
  dsimp only
  rw [feedOf_of_power hp f, feedOf_of_power hp (otherFeed f), feedOf_setFeed_same, feedOf_setFeed_other]
  exact ⟨rfl, rfl, rfl, rfl, rfl, rfl, rfl⟩

theorem currentLimitExit_ends {f : Feed} {ma : Nat} {s : State} (hi : (feedOf s f).ilimit = true) :
    Leaves (.currentLimitExit f ma) s fun t => t.power = (setFeed s f { feedOf s f with
      ilimit := false, foldback := false, timer := none, ma := ma,
      clearSince := if (feedOf s f).st = .good then (feedOf s f).clearSince else s.now }).power := by
  refine ⟨currentLimitExit f ma s, rfl, ?_⟩
  dsimp only [currentLimitExit]
  rw [if_pos hi]

/-! ### Trips (R416, R418, R419) -/

/-- What a trip for `cause` leaves of a feed whose voltage keeps the supervisor running. -/
theorem tripFeed_measured {s : State} {f : Feed} {mv cause : Nat} (hm : 2700 ≤ mv) (x : FeedState)
    (hx : x = feedOf (tripFeed (setFeed s f { feedOf s f with mv := mv }) f cause) f) :
    x.st = (if cfgv s 0x2003 (feedSub f) < (feedOf s f).trips + 1 then .latched else .cooldown) ∧
      x.trips = ((feedOf s f).trips + 1) % 256 ∧ x.lastTrip = cause ∧ x.pgood = false ∧ x.timer = none ∧ x.ilimit = false := by
  rw [feedOf_tripFeed (by simpa using hm), feedOf_setFeed_same, cfgv, setFeed_cfg] at hx
  subst hx
  exact ⟨rfl, rfl, rfl, rfl, rfl, rfl⟩

theorem faultTimerExpiry_trips {f : Feed} {mv t0 : Nat} {s : State}
    (hs : (feedOf s f).st = .ramp ∨ (feedOf s f).st = .qualify ∨ (feedOf s f).st = .good) (ht : (feedOf s f).timer = some t0)
    (he : t0 + cfgv s 0x2002 (feedSub f) * 1000 ≤ s.now) (hm : 2700 ≤ mv) :
    Leaves (.faultTimerExpiry f mv) s fun t =>
      (feedOf t f).st = (if cfgv s 0x2003 (feedSub f) < (feedOf s f).trips + 1 then .latched else .cooldown) ∧
      (feedOf t f).trips = ((feedOf s f).trips + 1) % 256 ∧ (feedOf t f).lastTrip = 1 ∧ (feedOf t f).pgood = false ∧
      (feedOf t f).timer = none ∧ (feedOf t f).ilimit = false := by
  have he : elapsedOpt s (feedOf s f).timer (cfgv s 0x2002 (feedSub f) * us) = true := by
    rw [ht]
    exact decide_eq_true he
  refine ⟨faultTimerExpiry f mv s, rfl, ?_⟩
  dsimp only [faultTimerExpiry]
  rw [if_pos ⟨gateOn_iff.mpr hs, he⟩]
  exact tripFeed_measured hm _ rfl

theorem fastTrip_trips {f : Feed} {mv ma : Nat} {s : State}
    (hs : (feedOf s f).st = .ramp ∨ (feedOf s f).st = .qualify ∨ (feedOf s f).st = .good)
    (ha : 2 * (feedOf s f).hwLimit * 1000 ≤ ma) (hm : 2700 ≤ mv) :
    Leaves (.fastTrip f mv ma) s fun t =>
      (feedOf t f).st = (if cfgv s 0x2003 (feedSub f) < (feedOf s f).trips + 1 then .latched else .cooldown) ∧
      (feedOf t f).trips = ((feedOf s f).trips + 1) % 256 ∧ (feedOf t f).lastTrip = 2 ∧ (feedOf t f).pgood = false ∧
      (feedOf t f).timer = none ∧ (feedOf t f).ilimit = false := by
  refine ⟨fastTrip f mv ma s, rfl, ?_⟩
  dsimp only [fastTrip]
  rw [if_pos ⟨gateOn_iff.mpr hs, ha⟩]
  exact tripFeed_measured hm _ rfl

/-! ### After a trip (R416, R420) -/

theorem cooldownExpiry_waits {f : Feed} {mv : Nat} {s : State} (hs : (feedOf s f).st = .cooldown)
    (he : (feedOf s f).since + 250000000 ≤ s.now) :
    Leaves (.cooldownExpiry f mv) s fun t => (feedOf t f).st = .wait ∧ (feedOf t f).since = s.now ∧ (feedOf t f).mv = mv ∧
      (feedOf t f).trips = (feedOf s f).trips ∧ (feedOf t f).pgood = (feedOf s f).pgood ∧
      feedOf t (otherFeed f) = feedOf s (otherFeed f) := by
  have hc : elapsed s (feedOf s f).since (250 * ms) = true := decide_eq_true he
  refine ⟨cooldownExpiry f mv s, rfl, ?_⟩
  dsimp only [cooldownExpiry]
  rw [if_pos ⟨hs, hc⟩, feedOf_feedEvent, feedOf_feedEvent, feedOf_setFeed_same, feedOf_setFeed_other]
  exact ⟨rfl, rfl, rfl, rfl, rfl, rfl⟩

theorem tripCountReset_clears {f : Feed} {s : State} (hs : (feedOf s f).st = .good) (ht : (feedOf s f).timer = none)
    (he : (feedOf s f).clearSince + 10000000000 ≤ s.now) :
    Leaves (.tripCountReset f) s fun t => t.power = (setFeed s f { feedOf s f with trips := 0 }).power := by
  have hc : elapsed s (feedOf s f).clearSince (10 * sec) = true := decide_eq_true he
  refine ⟨tripCountReset f s, rfl, ?_⟩
  dsimp only [tripCountReset]
  rw [if_pos ⟨hs, ht, hc⟩]

/-- Settles O2, a lemma for each command. -/
theorem feedTrips : Obligations.FeedTrips := by
  unfold Obligations.FeedTrips
  exact ⟨fun _ _ _ _ _ hs hi hm => currentLimitEnter_limits hs hi hm,
    fun _ _ _ hi => currentLimitExit_ends hi,
    fun _ _ _ _ hs ht he hm => faultTimerExpiry_trips hs ht he hm,
    fun _ _ _ _ hs ha hm => fastTrip_trips hs ha hm,
    fun _ _ _ hs he => cooldownExpiry_waits hs he,
    fun _ _ hs ht he => tripCountReset_clears hs ht he⟩

end Sys2Proof.Scope
end

section
/-!
The failure marks of a feed, its thresholds and its diode, what clears it, and the two supply voltages (R414, R416, R421, R422, R426, R427,
R450).
-/

namespace Sys2Proof.Scope

open Sys2Proof.Machine

/-! ### Failure marks (R421) -/

theorem shortFailCheck_fails {f : Feed} {mv outMv : Nat} {s : State}
    (hs : (feedOf s f).st = .wait ∨ (feedOf s f).st = .cooldown ∨ (feedOf s f).st = .latched) (hf : (feedOf s f).shortFail = false)
    (he : (feedOf s f).gateOffSince + 20000000 ≤ s.now) (ho : mv * 9 < outMv * 10) (hm : 2700 ≤ mv) :
    Leaves (.shortFailCheck f mv outMv) s fun t => (feedOf t f).st = .failed ∧ (feedOf t f).shortFail = true ∧
      (feedOf t f).gateFail = (feedOf s f).gateFail ∧ (feedOf t f).reverseFail = (feedOf s f).reverseFail ∧
      (feedOf t f).pgood = false := by
  have hg : (feedOf s f).gateOn ≠ true ∧ (feedOf s f).st ≠ .disabled ∧ (feedOf s f).st ≠ .off := by
    rcases hs with h | h | h <;> simp [FeedState.gateOn, h]
  have hc : ¬ (feedOf s f).gateOn = true ∧ (feedOf s f).st ≠ .disabled ∧ (feedOf s f).st ≠ .off ∧ ¬ (feedOf s f).shortFail = true ∧
      elapsed s (feedOf s f).gateOffSince (20 * ms) = true ∧ shorted mv outMv = true :=
    ⟨hg.1, hg.2.1, hg.2.2, by simp [hf], decide_eq_true he, decide_eq_true ho⟩
  refine ⟨shortFailCheck f mv outMv s, rfl, ?_⟩
  dsimp only [shortFailCheck]
  rw [if_pos, feedOf_failFeed (by simpa [FeedState.sample] using hm), feedOf_setFeed_same]
  · exact ⟨rfl, rfl, rfl, rfl, rfl⟩
  · simp only [elapsed, setFeed_now]
    exact hc

theorem gateFailTimeout_fails {f : Feed} {mv gateMv : Nat} {s : State} (hs : (feedOf s f).st = .ramp) (hi : (feedOf s f).ilimit = false)
    (hg : gateMv ≤ mv + 8000) (he : 2000000 ≤ (feedOf s f).gateCount + (s.now - (feedOf s f).clearSince)) (hm : 2700 ≤ mv) :
    Leaves (.gateFailTimeout f mv gateMv) s fun t => (feedOf t f).st = .failed ∧ (feedOf t f).gateFail = true ∧
      (feedOf t f).shortFail = (feedOf s f).shortFail ∧ (feedOf t f).reverseFail = (feedOf s f).reverseFail ∧
      (feedOf t f).pgood = false := by
  refine ⟨gateFailTimeout f mv gateMv s, rfl, ?_⟩
  dsimp only [gateFailTimeout]
  rw [if_pos ⟨hs, by simp [hi], hg, he⟩, feedOf_failFeed (by simpa using hm), feedOf_setFeed_same]
  exact ⟨rfl, rfl, rfl, rfl, rfl⟩

theorem reverseFailCheck_fails {f : Feed} {mv reverseMa t0 : Nat} {s : State} (hs : (feedOf s f).st ≠ .disabled)
    (hd : (feedOf s f).diodeOffAt = some t0) (he : t0 + 2000 ≤ s.now) (hr : 5000 ≤ reverseMa) (hm : 2700 ≤ mv) :
    Leaves (.reverseFailCheck f mv reverseMa) s fun t => (feedOf t f).st = .failed ∧ (feedOf t f).reverseFail = true ∧
      (feedOf t f).gateFail = (feedOf s f).gateFail ∧ (feedOf t f).shortFail = (feedOf s f).shortFail ∧
      (feedOf t f).pgood = false := by
  have hc : elapsedOpt s (feedOf s f).diodeOffAt (2 * us) = true := by
    rw [hd]
    exact decide_eq_true he
  refine ⟨reverseFailCheck f mv reverseMa s, rfl, ?_⟩
  dsimp only [reverseFailCheck]
  rw [if_pos ⟨hs, hc⟩, if_pos hr, feedOf_failFeed (by simpa using hm), feedOf_setFeed_same]
  exact ⟨rfl, rfl, rfl, rfl, rfl⟩

/-! ### Thresholds (R414, R416) -/

theorem supplyUp_of_vkeep {s : State} (h : s.power.vkeepOk = true) : supplyUp s = true := by
  simp [supplyUp, h]

theorem setFeed_vkeepOk (s : State) (f : Feed) (x : FeedState) : (setFeed s f x).power.vkeepOk = s.power.vkeepOk := by
  cases f <;> rfl

theorem feedOutOfRange_power {f : Feed} {mv : Nat} {s : State} (hg : (feedOf s f).gateOn = true) (ho : outThresholds mv = true)
    (hk : s.power.vkeepOk = true) : (feedOutOfRange f mv s).power =
      (setFeed s f ((((feedOf s f).sample s.now mv).gateOff s.now).enter s.now .wait)).power := by
  have hk : ∀ x, (setFeed s f x).power.vkeepOk = true := fun x => by rw [setFeed_vkeepOk, hk]
  dsimp only [feedOutOfRange]
  rw [if_pos ⟨hg, ho⟩, suppliesChecked_kept, health_power, pgoodReleased_power, feedEvent_power, feedCount_power]
  · exact supplyUp_of_vkeep (by rw [feedEvent_power, feedCount_power, hk])
  · refine supplyUp_of_vkeep ?_
    rw [health_power, pgoodReleased_power, feedEvent_power, feedCount_power, hk]
    exact supplyUp_of_vkeep (by rw [feedEvent_power, feedCount_power, hk])

theorem feedOutOfRange_waits {f : Feed} {mv : Nat} {s : State}
    (hs : (feedOf s f).st = .ramp ∨ (feedOf s f).st = .qualify ∨ (feedOf s f).st = .good) (hm : mv < 2500 ∨ 14500 < mv)
    (hk : s.power.vkeepOk = true) :
    Leaves (.feedOutOfRange f mv) s fun t => (feedOf t f).st = .wait ∧ (feedOf t f).pgood = false ∧ (feedOf t f).timer = none ∧
      (feedOf t f).trips = (feedOf s f).trips ∧ (feedOf t f).mv = mv ∧ feedOf t (otherFeed f) = feedOf s (otherFeed f) := by
  have hp := feedOutOfRange_power (mv := mv) (gateOn_iff.mpr hs) (by simpa [outThresholds] using hm) hk
  refine ⟨feedOutOfRange f mv s, rfl, ?_⟩
  dsimp only
  rw [feedOf_of_power hp f, feedOf_of_power hp (otherFeed f), feedOf_setFeed_same, feedOf_setFeed_other]
  exact ⟨rfl, rfl, rfl, rfl, rfl, rfl⟩

/-! ### The ideal diode (R422) -/

theorem idealDiodeReverseOff_opens {f : Feed} {mv reverseMa : Nat} {s : State} (hd : (feedOf s f).diodeOn = true)
    (hr : 2000 < reverseMa) :
    Leaves (.idealDiodeReverseOff f mv reverseMa) s fun t => t.power = (setFeed s f { feedOf s f with
      diodeOn := false, diodeOffAt := some s.now, reverses := (feedOf s f).reverses + 1, mv := mv }).power := by
  refine ⟨idealDiodeReverseOff f mv reverseMa s, rfl, ?_⟩
  dsimp only [idealDiodeReverseOff]
  rw [if_pos ⟨hd, hr⟩, rateEvent_power fun _ _ => feedEvent_power .., feedCount_power]

theorem idealDiodeOn_closes {f : Feed} {mv railMv : Nat} {s : State} (hd : (feedOf s f).diodeOn = false)
    (hs : (feedOf s f).st = .ramp ∨ (feedOf s f).st = .qualify ∨ (feedOf s f).st = .good) (hm : railMv + 20 ≤ mv) :
    Leaves (.idealDiodeOn f mv railMv) s fun t => t.power = (setFeed s f { feedOf s f with
      diodeOn := true, diodeOffAt := none, mv := mv }).power := by
  refine ⟨idealDiodeOn f mv railMv s, rfl, ?_⟩
  dsimp only [idealDiodeOn]
  rw [if_pos ⟨by simp [hd], gateOn_iff.mpr hs, hm⟩]

/-! ### What clears a feed (R414, R416) -/

theorem feedOf_clearFeed_same (s : State) (f : Feed) (cycled : Nat) : feedOf (clearFeed s f cycled) f = { feedOf s f with
    st := .wait, since := s.now, trips := 0, gateFail := false, shortFail := false, reverseFail := false, gateOffSince := s.now } := by
  dsimp only [clearFeed]
  rw [feedOf_health, feedOf_feedEvent, feedOf_setFeed_same]
  rfl

theorem feedOf_clearFeed_other (s : State) (f : Feed) (cycled : Nat) :
    feedOf (clearFeed s f cycled) (otherFeed f) = feedOf s (otherFeed f) := by
  dsimp only [clearFeed]
  rw [feedOf_health, feedOf_feedEvent, feedOf_setFeed_other]

theorem feedPowerCycled_clears {f : Feed} {mv t0 : Nat} {s : State} (hs : (feedOf s f).st = .latched ∨ (feedOf s f).st = .failed)
    (hm : mv < 1000) (hl : (feedOf s f).lowSince = some t0) (he : t0 + 50000000 ≤ s.now) :
    Leaves (.feedPowerCycled f mv) s fun t => (feedOf t f).st = .wait ∧ (feedOf t f).trips = 0 ∧ (feedOf t f).gateFail = false ∧
      (feedOf t f).shortFail = false ∧ (feedOf t f).reverseFail = false ∧ feedOf t (otherFeed f) = feedOf s (otherFeed f) := by
  have hc : elapsedOpt (setFeed s f ((feedOf s f).sample s.now mv)) ((feedOf s f).sample s.now mv).lowSince (50 * ms) = true := by
    simpa [FeedState.sample, hm, hl, elapsedOpt, ms] using he
  have hx : ((feedOf s f).sample s.now mv).st = .latched ∨ ((feedOf s f).sample s.now mv).st = .failed := hs
  refine ⟨feedPowerCycled f mv s, rfl, ?_⟩
  dsimp only [feedPowerCycled]
  rw [if_pos ⟨hm, hc⟩, if_pos hx, feedOf_clearFeed_same, feedOf_clearFeed_other, feedOf_setFeed_other]
  exact ⟨rfl, rfl, rfl, rfl, rfl, rfl⟩

theorem feedClear_clears {sess : Nat} {f : Feed} {s : State} (h : MayAct s sess 0x2006 (feedSub f) 1)
    (hs : (feedOf s f).st = .latched ∨ (feedOf s f).st = .failed) :
    Leaves (.feedClear sess f 1) s fun t => (feedOf t f).st = .wait ∧ (feedOf t f).trips = 0 ∧ (feedOf t f).gateFail = false ∧
      (feedOf t f).shortFail = false ∧ (feedOf t f).reverseFail = false ∧ feedOf t (otherFeed f) = feedOf s (otherFeed f) := by
  refine ⟨_, rfl, ?_⟩
  dsimp only
  rw [actWrite_done h rfl, onOne_one, feedOf_emit, feedOf_emit, feedOf_health, feedOf_health, actFeedClear,
    if_pos (by rwa [feedOf_journalAction]), feedOf_clearFeed_same, feedOf_clearFeed_other, feedOf_journalAction _ _ _ _ _ (otherFeed f)]
  exact ⟨rfl, rfl, rfl, rfl, rfl, rfl⟩

/-! ### The keeper voltage and the backplane's (R426, R427) -/

theorem vkeepChange_follows {mv : Nat} {s : State} (hs : s.module.state ≠ .off)
    (hv : s.power.vkeepOk = false ∧ 2700 < mv ∨ s.power.vkeepOk = true ∧ mv < 2600 ∧ 2700 ≤ s.power.a.mv) :
    Leaves (.vkeepChange mv) s fun t => t.power = { s.power with vkeepMv := mv, vkeepOk := !s.power.vkeepOk } := by
  refine ⟨vkeepChange mv s, rfl, ?_⟩
  dsimp only [vkeepChange]
  rw [if_neg hs]
  rcases hv with ⟨hk, hm⟩ | ⟨hk, hm, ha⟩
  · rw [if_pos ⟨by simp [hk], hm⟩, event_power, hk]
    rfl
  · rw [if_neg (by simp [hk]), if_pos ⟨hk, hm⟩, suppliesChecked_kept, event_power, hk]
    · rfl
    · exact supplyUp_of_feed (f := .a) (by simpa [feedOf] using ha)

theorem vioDobChange_follows {mv t0 : Nat} {s : State} (hs : s.module.state ≠ .off)
    (hv : s.power.vioOk = false ∧ 2650 ≤ mv ∧ mv ≤ 5600 ∧ s.power.vioSince = some t0 ∧ t0 + 10000000 ≤ s.now ∨
      s.power.vioOk = true ∧ (mv < 2650 ∨ 5600 < mv)) :
    Leaves (.vioDobChange mv) s fun t => t.power.vioMv = mv ∧ t.power.vioOk = !s.power.vioOk ∧ t.power.a = s.power.a ∧
      t.power.b = s.power.b ∧ t.power.vkeepMv = s.power.vkeepMv ∧ t.power.vkeepOk = s.power.vkeepOk := by
  refine ⟨vioDobChange mv s, rfl, ?_⟩
  dsimp only [vioDobChange]
  rw [if_neg hs]
  rcases hv with ⟨hk, hl, hh, ht, he⟩ | ⟨hk, hm⟩
  · have hr : vioInRange mv = true := by simp [vioInRange, hl, hh]
    have hc : t0 + 10 * ms ≤ s.now := he
    rw [if_pos ⟨by simp [hk], by simpa [hr, ht, elapsedOpt] using hc⟩, event_power, hk]
    exact ⟨rfl, rfl, rfl, rfl, rfl, rfl⟩
  · have hr : vioInRange mv = false := by
      simp only [vioInRange, Bool.and_eq_false_iff, decide_eq_false_iff_not]
      omega
    rw [if_neg (by simp [hk]), if_pos ⟨hk, by simp [hr]⟩, event_power, hk]
    exact ⟨rfl, rfl, rfl, rfl, rfl, rfl⟩

/-- Settles O3, a lemma for each clause. -/
theorem feedFailures : Obligations.FeedFailures := by
  unfold Obligations.FeedFailures
  exact ⟨fun _ _ _ _ hs hf he ho hm => shortFailCheck_fails hs hf he ho hm,
    fun _ _ _ _ hs hi hg he hm => gateFailTimeout_fails hs hi hg he hm,
    fun _ _ _ _ _ hs hd he hr hm => reverseFailCheck_fails hs hd he hr hm,
    fun _ _ _ hs hm hk => feedOutOfRange_waits hs hm hk,
    fun _ _ _ _ hd hr => idealDiodeReverseOff_opens hd hr,
    fun _ _ _ _ hd hs hm => idealDiodeOn_closes hd hs hm,
    fun _ _ _ _ hs hm hl he => feedPowerCycled_clears hs hm hl he,
    fun _ _ _ h hs => feedClear_clears h hs,
    fun _ _ hs hv => vkeepChange_follows hs hv,
    fun _ _ _ hs hv => vioDobChange_follows hs hv⟩

end Sys2Proof.Scope
end

section
/-!
The load of a firmware image: begin, erase, blocks, end and verification (R437, R438, R439; log entry 79).
-/

namespace Sys2Proof.Scope

open Sys2Proof.Machine

/-! ### Slots -/

theorem fwSlot_setFwSlot_same (s : State) (x : FwSlot) {k : Nat} (hk : k < 2) : fwSlot (setFwSlot s k x) k = x := by
  rw [fwSlot_setFwSlot _ _ _ _ hk, if_pos rfl]

theorem fwSlot_setFwSlot_other (s : State) (x : FwSlot) {k j : Nat} (hk : k < 2) (hj : j ≠ k) :
    fwSlot (setFwSlot s k x) j = fwSlot s j := by
  rw [fwSlot_setFwSlot _ _ _ _ hk, if_neg hj]

theorem fwSlot_emit (s : State) (e : Emit) (j : Nat) : fwSlot (emit s e) j = fwSlot s j := rfl

theorem fwSlot_event (s : State) (c i d j : Nat) : fwSlot (event s c i d) j = fwSlot s j := fwSlot_congr (by rw [event_module]) j

theorem fwSlot_journalAction (s : State) (n i b v j : Nat) : fwSlot (journalAction s n i b v) j = fwSlot s j :=
  fwSlot_congr (by rw [journalAction_module]) j

/-! ### Begin and erase (R438) -/

theorem actLoadBegin_module (sess : Nat) (s : State) : (actLoadBegin sess s).module =
    { (setFwSlot s (param s sess 0x1310 1) {}).module with
      claim := some (sess, param s sess 0x1310 1, param s sess 0x1310 2), loadStatus := 1, loadSince := s.now, verifying := none } := rfl

theorem fwSlot_actLoadBegin (sess : Nat) (s : State) (j : Nat) :
    fwSlot (actLoadBegin sess s) j = fwSlot (setFwSlot s (param s sess 0x1310 1) {}) j :=
  fwSlot_congr rfl j

theorem fwLoadBegin_begins {sess : Nat} {s : State} (h : MayAct s sess 0x1310 3 1) (hk : param s sess 0x1310 1 < 2)
    (hr : loadRefusal s sess = 0) :
    Leaves (.fwLoadBegin sess 1) s fun t => t.module.claim = some (sess, param s sess 0x1310 1, param s sess 0x1310 2) ∧
      t.module.loadStatus = 1 ∧ t.module.loadSince = s.now ∧ t.module.verifying = none ∧ fwSlot t (param s sess 0x1310 1) = {} ∧
      (∀ j, j ≠ param s sess 0x1310 1 → fwSlot t j = fwSlot s j) ∧ t.module.state = s.module.state := by
  have hc : (if (1 : Nat) = 1 then loadCheck s sess else 0) = 0 := by simp [loadCheck, hr]
  refine ⟨_, rfl, ?_⟩
  dsimp only
  rw [actWrite_done h hc, onOne_one, emit_module, actLoadBegin_module, param_journalAction, param_journalAction]
  refine ⟨rfl, rfl, journalAction_now .., rfl, ?_, fun j hj => ?_, ?_⟩
  · rw [fwSlot_emit, fwSlot_actLoadBegin, param_journalAction]
    exact fwSlot_setFwSlot_same _ _ hk
  · rw [fwSlot_emit, fwSlot_actLoadBegin, param_journalAction]
    exact (fwSlot_setFwSlot_other _ _ hk hj).trans (fwSlot_journalAction ..)
  · show (journalAction s sess 0x1310 3 1).module.state = s.module.state
    rw [journalAction_module]

theorem fwEraseDone_loads {sess k n : Nat} {s : State} (hl : s.module.loadStatus = 1) (hc : s.module.claim = some (sess, k, n))
    (hk : k < 2) :
    Leaves (.fwEraseDone) s fun t => t.module.loadStatus = 2 ∧ fwSlot t k = { st := .loading, length := n } ∧
      t.module.claim = some (sess, k, n) ∧ (∀ j, j ≠ k → fwSlot t j = fwSlot s j) := by
  refine ⟨fwEraseDone s, rfl, ?_⟩
  simp only [fwEraseDone, hl, hc, ne_eq, not_true_eq_false, if_false, event_module]
  refine ⟨rfl, ?_, hc, fun j hj => ?_⟩
  · exact (fwSlot_event ..).trans (fwSlot_setFwSlot_same s _ hk)
  · exact (fwSlot_event ..).trans (fwSlot_setFwSlot_other s _ hk hj)

/-! ### Blocks and the end of the load (R439) -/

theorem fwBlockData_stores {sess k n : Nat} {data : List Byte} {s : State} (h : MayAct s sess 0x1310 5 (leNat data))
    (hd : data.length = 4096) (hc : s.module.claim = some (sess, k, n)) (hk : k < 2) (hl : s.module.loadStatus = 2)
    (ha : param s sess 0x1310 4 % 4096 = 0) (hn : param s sess 0x1310 4 < n) :
    Leaves (.fwBlockData sess data) s fun t =>
      (fwSlot t k).image = Memory.writeBytes (fwSlot s k).image (param s sess 0x1310 4) data ∧
      param s sess 0x1310 4 ∈ (fwSlot t k).blocks ∧ (fwSlot t k).st = (fwSlot s k).st ∧
      (∀ j, j ≠ k → fwSlot t j = fwSlot s j) ∧ t.module.claim = s.module.claim := by
  have hr : blockRefusal s sess = 0 := by simp [blockRefusal, hc, ha, hn]
  have hb : (if data.length ≠ 4096 then 4 else blockCheck s sess) = 0 := by simp [hd, blockCheck, hr, hl]
  have hj : (journalAction s sess 0x1310 5 (leNat data)).module.claim = some (sess, k, n) := by rw [journalAction_module, hc]
  refine ⟨_, rfl, ?_⟩
  dsimp only
  rw [actWrite_done h hb]
  simp only [fwSlot_emit, emit_module, actBlock, hj, param_journalAction, fwSlot_journalAction]
  rw [fwSlot_setFwSlot_same _ _ hk]
  refine ⟨rfl, ?_, rfl, fun j hj => ?_, hj.trans hc.symm⟩
  · dsimp only
    split
    · next hin => exact List.contains_iff_mem.mp hin
    · exact List.mem_append_right _ (List.mem_singleton.mpr rfl)
  · rw [fwSlot_setFwSlot_other _ _ hk hj, fwSlot_journalAction]

theorem fwLoadEnd_verifies {sess k n : Nat} {s : State} (h : MayAct s sess 0x1310 6 1) (hc : s.module.claim = some (sess, k, n))
    (hl : s.module.loadStatus = 2) :
    Leaves (.fwLoadEnd sess 1) s fun t =>
      t.module = { s.module with loadStatus := 3, verifying := some k, loadSince := s.now } := by
  have he : (if (1 : Nat) = 1 then loadEndCheck s sess else 0) = 0 := by simp [loadEndCheck, hc, hl]
  refine ⟨_, rfl, ?_⟩
  dsimp only
  rw [actWrite_done h he, onOne_one, emit_module]
  simp only [actLoadEnd, journalAction_module, hc, journalAction_now]
  rfl

/-! ### Verification (R437, R439) -/

theorem fwVerifyDone_ends {flashOk : Bool} {k : Nat} {s : State} (hv : s.module.verifying = some k) (hk : k < 2) :
    Leaves (.fwVerifyDone flashOk) s fun t => t.module.verifying = none ∧ t.module.claim = none ∧
      (loadReason s k flashOk = 0 → t.module.loadStatus = 4 ∧ fwSlot t k = { fwSlot s k with st := .verified }) ∧
      (loadReason s k flashOk ≠ 0 → t.module.loadStatus = 8 + loadReason s k flashOk ∧ fwSlot t k = {}) ∧
      (∀ j, j ≠ k → fwSlot t j = fwSlot s j) := by
  refine ⟨fwVerifyDone flashOk s, rfl, ?_⟩
  simp only [fwVerifyDone, hv]
  by_cases hr : loadReason s k flashOk = 0
  · simp only [if_pos hr, event_module, fwSlot_event]
    refine ⟨rfl, rfl, fun _ => ⟨rfl, ?_⟩, fun hn => absurd hr hn, fun j hj => ?_⟩
    · exact fwSlot_setFwSlot_same _ _ hk
    · exact fwSlot_setFwSlot_other _ _ hk hj
  · simp only [if_neg hr, event_module, fwSlot_event]
    refine ⟨rfl, rfl, fun he => absurd he hr, fun _ => ⟨rfl, ?_⟩, fun j hj => ?_⟩
    · exact fwSlot_setFwSlot_same _ _ hk
    · exact fwSlot_setFwSlot_other _ _ hk hj

/-- Settles O9, a lemma for each command. -/
theorem firmwareLoad : Obligations.FirmwareLoad := by
  unfold Obligations.FirmwareLoad
  exact ⟨fun _ _ h hk hr => fwLoadBegin_begins h hk hr,
    fun _ _ _ _ hl hc hk => fwEraseDone_loads hl hc hk,
    fun _ _ _ _ _ h hd hc hk hl ha hn => fwBlockData_stores h hd hc hk hl ha hn,
    fun _ _ _ _ h hc hl => fwLoadEnd_verifies h hc hl,
    fun _ _ _ hv hk => fwVerifyDone_ends hv hk⟩

end Sys2Proof.Scope
end

section
/-!
The activation of a firmware image, its cancellation and its start, and the hitless pause (R440, R441, R442, R443; log entry 80).
-/

namespace Sys2Proof.Scope

open Sys2Proof.Machine Sys2Proof.Laws

/-! ### Activations (R440, R441) -/

/-- The slot that an activation is to start is PENDING. -/
def slotPending (s : State) : State := setFwSlot s (otherSlot s) { fwSlot s (otherSlot s) with st := .pending }

/-- An activation with a time waits for it. -/
theorem actActivate_module {sess : Nat} {s : State} (h : param s sess 0x1320 2 ≠ 0) : (actActivate sess s).module =
    { (slotPending s).module with activation := some (otherSlot s, param s sess 0x1320 1, param s sess 0x1320 2) } := by
  dsimp only [actActivate]
  rw [if_neg h, setModule, event_module]
  rfl

theorem fwActivateCmd_waits {sess : Nat} {s : State} (h : MayAct s sess 0x1320 3 1) (hr : activateRefusal s sess = 0)
    (ht : s.ft + 10000000 ≤ param s sess 0x1320 2) (hn : s.module.running < 2) :
    Leaves (.fwActivateCmd sess 1) s fun t =>
      t.module.activation = some (1 - s.module.running, param s sess 0x1320 1, param s sess 0x1320 2) ∧
      (fwSlot t (1 - s.module.running)).st = .pending ∧ fwSlot t s.module.running = fwSlot s s.module.running ∧
      t.module.state = s.module.state := by
  have hl : ¬ param s sess 0x1320 2 < s.ft + 10 * ms := Nat.not_lt.mpr ht
  have hl : activateSoon s sess = false := by rw [activateSoon, decide_eq_false hl, Bool.and_false]
  have hc : (if (1 : Nat) = 1 then activateCheck s sess else 0) = 0 := by simp [activateCheck, hr, hl]
  have hz : param s sess 0x1320 2 ≠ 0 := by omega
  have hk : 1 - s.module.running < 2 := by omega
  have ho : s.module.running ≠ 1 - s.module.running := by omega
  refine ⟨_, rfl, ?_⟩
  dsimp only
  rw [actWrite_done h hc, onOne_one, fwSlot_emit, fwSlot_emit, emit_module]
  have hm := actActivate_module (s := journalAction s sess 0x1320 3 1) (sess := sess) (by rwa [param_journalAction])
  rw [otherSlot, param_journalAction, param_journalAction] at hm
  have hslot : ∀ j, fwSlot (actActivate sess (journalAction s sess 0x1320 3 1)) j = fwSlot (slotPending (journalAction s sess 0x1320 3 1)) j :=
    fun j => fwSlot_congr (by rw [hm]) j
  rw [hslot, hslot, hm, slotPending, otherSlot, journalAction_module]
  refine ⟨rfl, ?_, ?_, ?_⟩
  · rw [fwSlot_setFwSlot_same _ _ hk]
  · rw [fwSlot_setFwSlot_other _ _ hk ho, fwSlot_journalAction]
  · show (journalAction s sess 0x1320 3 1).module.state = s.module.state
    rw [journalAction_module]

theorem fwActivateCancel_cancels {sess k m t0 : Nat} {s : State} (h : MayAct s sess 0x1320 4 1)
    (ha : s.module.activation = some (k, m, t0)) (hk : k < 2) :
    Leaves (.fwActivateCancel sess 1) s fun t => t.module.activation = none ∧ fwSlot t k = { fwSlot s k with st := .verified } ∧
      (∀ j, j ≠ k → fwSlot t j = fwSlot s j) := by
  have hc : (if (decide ((1 : Nat) = 1) && s.module.activation.isNone) = true then 5 else 0) = 0 := by simp [ha]
  refine ⟨_, rfl, ?_⟩
  dsimp only
  rw [actWrite_done h hc, onOne_one]
  simp only [actActivateCancel, journalAction_module, ha, fwSlot_emit, fwSlot_event, fwSlot_journalAction, emit_module, event_module]
  refine ⟨rfl, fwSlot_setFwSlot_same _ _ hk, fun j hj => ?_⟩
  exact (fwSlot_setFwSlot_other _ _ hk hj).trans (fwSlot_journalAction ..)

theorem fwActivationStart_pauses {k t0 : Nat} {s : State} (ha : s.module.activation = some (k, 0, t0)) (ht : t0 ≤ s.ft)
    (hs : activationStates s.module.state 0 = true) (hw : s.module.warm = none) :
    Leaves (.fwActivationStart) s fun t => t.module.activation = none ∧ t.module.pause = some .quiesce ∧ t.module.pauseSlot = k ∧
      t.module.pauseSince = s.now ∧ t.module.isRollback = false := by
  refine ⟨fwActivationStart s, rfl, ?_⟩
  simp only [fwActivationStart, ha, if_neg (Nat.not_lt.mpr ht), hs, hw, Option.isNone_none, Bool.and_self, if_true, startActivation]
  exact ⟨rfl, rfl, rfl, event_now .., rfl⟩

/-! ### The hitless pause (R442, R443) -/

theorem hitlessPhaseDone_saves {hashOk : Bool} {s : State} (hp : s.module.pause = some .quiesce) (hf : s.mgmt.inFlash = none) :
    Leaves (.hitlessPhaseDone hashOk) s fun t => t.module = { s.module with pause := some .save } := by
  have ht : hitlessPhaseDone hashOk s = setModule s { s.module with pause := some .save } := by
    simp [hitlessPhaseDone, hp, hf]
  refine ⟨_, rfl, ?_⟩
  dsimp only
  rw [ht, if_neg (by simp [setModule])]
  rfl

/-- Mailbox segments that waited are taken without a change of the module block. -/
theorem releaseHeld_module {s : State} (h : s.mgmt.heldWrites = []) : (releaseHeld s).module = s.module := by
  dsimp only [releaseHeld]
  rw [h, List.foldl_nil, foldl_stands (g := State.module) fun u v => (mailboxFree_keeps (mk := 7626752) (Keeps.refl u) (by decide)).module (by decide)]
  rfl

theorem pauseEnds_module {s : State} (ht : s.now < s.module.pauseSince + 150000000) : (pauseEnds s).module =
    { s.module with
      slots := vset (vset s.module.slots s.module.running { fwSlot s s.module.running with st := .verified, trial := false })
        s.module.pauseSlot { fwSlot (setFwSlot s s.module.running { fwSlot s s.module.running with st := .verified, trial := false })
          s.module.pauseSlot with st := .active, trial := !s.module.isRollback }
      pause := none, running := s.module.pauseSlot, prevSlot := s.module.running, lastPauseUs := pauseUs s, isRollback := false
      watchdogAt := s.now, trialSince := if s.module.isRollback then none else some s.now } := by
  have hn : ¬ 150000 < pauseUs s := by
    simp only [pauseUs, us]
    omega
  dsimp only [pauseEnds]
  rw [if_neg (by simp [hn]), event_module]
  rfl

theorem releaseWarm_none {s : State} (h : s.module.warmHeld = none) : releaseWarm s = s := by
  simp [releaseWarm, h]

theorem hitlessResume_activates {s : State} (hp : s.module.pause = some .restart) (hk : s.module.pauseSlot < 2)
    (hn : s.module.running < 2) (hne : s.module.running ≠ s.module.pauseSlot) (hr : s.module.isRollback = false)
    (ht : s.now < s.module.pauseSince + 150000000) (hw : s.module.warmHeld = none) (hh : s.mgmt.heldWrites = []) :
    LeavesSettling (.hitlessResume) s fun t => t.module.pause = none ∧ t.module.running = s.module.pauseSlot ∧
      (fwSlot t s.module.pauseSlot).st = .active ∧ (fwSlot t s.module.pauseSlot).trial = true ∧
      (fwSlot t s.module.running).st = .verified := by
  have hm : (releaseHeld (releaseWarm (pauseEnds s))).module = (pauseEnds s).module := by
    rw [releaseWarm_none (by rw [pauseEnds_module ht]; exact hw), releaseHeld_module]
    rw [(pauseEnds_keeps (mk := 7364616) (Keeps.refl s) (by decide)).mgmt (by decide), hh]
  refine ⟨releaseHeld (releaseWarm (pauseEnds s)), ?_, ?_⟩
  · show Host.Outcome.next (hitlessResume s) = _
    simp only [hitlessResume, hp]
  · simp only [fwSlot, hm, pauseEnds_module ht, hr]
    rw [vget_vset_same _ _ _ _ hk, vget_vset_other _ _ _ _ _ hne.symm, vget_vset_same _ _ _ _ hn]
    simp only [Bool.not_false, and_self]

/-- Settles O10, a lemma for each command. -/
theorem firmwareActivation : Obligations.FirmwareActivation := by
  unfold Obligations.FirmwareActivation
  exact ⟨fun _ _ h hr ht hn => fwActivateCmd_waits h hr ht hn,
    fun _ _ _ _ _ h ha hk => fwActivateCancel_cancels h ha hk,
    fun _ _ _ ha ht hs hw => fwActivationStart_pauses ha ht hs hw,
    fun _ _ hp hf => hitlessPhaseDone_saves hp hf,
    fun _ hp hk hn hne hr ht hw hh => hitlessResume_activates hp hk hn hne hr ht hw hh⟩

end Sys2Proof.Scope
end

section
/-!
What the writing of event records leaves of the heddles and of the tally and the bolt (R334, R489, R490, R517, R529): a record may leave a
denial to be recorded at the end of the step, and nothing else of theirs.
-/

namespace Sys2Proof.Scope

open Sys2Proof.Machine Sys2Proof.Laws

-- One declaration at a time: side by side their threads are too much for the memory limit of the check.
set_option Elab.async false

/-- The heddles' rule sets, the tally and the bolt are the same. -/
structure RulesKept (s t : State) : Prop where
  hed : ∃ l, t.hed = { s.hed with late := l }
  tally : t.obs.tally = s.obs.tally
  bolt : t.obs.bolt = s.obs.bolt

theorem RulesKept.refl (s : State) : RulesKept s s := ⟨⟨s.hed.late, rfl⟩, rfl, rfl⟩

theorem RulesKept.trans {s t u : State} (h : RulesKept s t) (k : RulesKept t u) : RulesKept s u := by
  obtain ⟨l, hl⟩ := h.hed
  obtain ⟨m, hm⟩ := k.hed
  exact ⟨⟨m, by rw [hm, hl]⟩, k.tally.trans h.tally, k.bolt.trans h.bolt⟩

theorem RulesKept.same {s t u : State} (h : RulesKept s t) (hh : u.hed = t.hed) (ht : u.obs.tally = t.obs.tally)
    (hb : u.obs.bolt = t.obs.bolt) : RulesKept s u :=
  h.trans ⟨⟨t.hed.late, hh⟩, ht, hb⟩

theorem RulesKept.ite {s a b : State} {c : Prop} {_ : Decidable c} (ha : RulesKept s a) (hb : RulesKept s b) :
    RulesKept s (if c then a else b) := by
  split
  · exact ha
  · exact hb

/-- What writes neither the heddles' block nor the observation block. -/
theorem RulesKept.keeps {m : Nat} {s t u : State} (h : RulesKept s t) (k : Keeps m t u) (hm : m.testBit (partBit .hed) = false)
    (ho : m.testBit (partBit .obs) = false) : RulesKept s u :=
  h.same (k.hed hm) (congrArg ObsBlk.tally (k.obs ho)) (congrArg ObsBlk.bolt (k.obs ho))

theorem RulesKept.noteDenial {s t : State} (h : RulesKept s t) (d : LateDenial) : RulesKept s (noteDenial t d) :=
  h.trans ⟨⟨_, rfl⟩, rfl, rfl⟩

theorem RulesKept.msi {s t : State} (h : RulesKept s t) (v fn vec : Nat) : RulesKept s (msi t v fn vec) := by
  unfold Machine.msi
  split
  · exact h.same rfl rfl rfl
  · split
    · exact h.noteDenial _
    · exact h.same rfl rfl rfl

theorem RulesKept.hostPost {s t : State} (h : RulesKept s t) (v a : Nat) (bs : List Byte) : RulesKept s (hostPost t v a bs) := by
  unfold Machine.hostPost
  split
  · exact h.noteDenial _
  · exact h.same rfl rfl rfl

theorem RulesKept.count {s t : State} (h : RulesKept s t) (c n : Nat) : RulesKept s (count t c n) := by
  unfold Machine.count
  dsimp only
  exact .ite h (h.same rfl rfl rfl)

theorem RulesKept.signalLine {s t : State} (h : RulesKept s t) (r : Nat) (g : Bool) : RulesKept s (signalLine t r g) := by
  unfold Machine.signalLine
  dsimp only
  exact .ite h (.ite h (.ite ((h.msi _ _ _).same rfl rfl rfl) (h.same rfl rfl rfl)))

theorem RulesKept.writeLine {s t : State} (h : RulesKept s t) (r : Nat) (mark : Bool) : RulesKept s (writeLine t r mark) := by
  unfold Machine.writeLine
  dsimp only
  refine .ite h (.signalLine ?_ _ _)
  split
  · refine .hostPost ?_ _ _ _
    exact h.same rfl rfl rfl
  · refine RulesKept.keeps ?_ (beamWrite_keeps (mk := 4194304) (.refl _) (by decide)) (by decide) (by decide)
    exact h.same rfl rfl rfl

theorem RulesKept.ringPut {s t : State} (h : RulesKept s t) (r : Nat) (e : EventRec) : RulesKept s (ringPut t r e) := by
  unfold Machine.ringPut
  dsimp only
  refine .ite (h.same rfl rfl rfl) (.ite (.writeLine ?_ _ _) ?_) <;> exact h.same rfl rfl rfl

theorem RulesKept.reportLoss {s t : State} (h : RulesKept s t) (r : Nat) (ow : Bool) : RulesKept s (reportLoss t r ow) := by
  unfold Machine.reportLoss
  dsimp only
  refine .ite h (.ite (h.same rfl rfl rfl) (.ringPut ?_ _ _))
  exact h.same rfl rfl rfl

theorem RulesKept.putEvent {s t : State} (h : RulesKept s t) (e : HeldEvent) : RulesKept s (putEvent t e) := by
  unfold Machine.putEvent
  dsimp only
  split
  · exact .ite (h.same rfl rfl rfl) (h.same rfl rfl rfl)
  · split
    · exact .ite (h.same rfl rfl rfl) (h.same rfl rfl rfl)
    · exact ((h.ringPut _ _).reportLoss _ _).reportLoss _ _

theorem RulesKept.eventFull {s t : State} (h : RulesKept s t) (code inst sev : Nat) (part : Option Nat) (paired : Bool) (info : Nat) :
    RulesKept s (eventFull t code inst sev part paired info) := by
  unfold Machine.eventFull
  split
  · exact h
  · exact h.putEvent _

theorem RulesKept.event {s t : State} (h : RulesKept s t) (code inst info : Nat) : RulesKept s (event t code inst info) :=
  h.eventFull ..

theorem RulesKept.rateEvent {s t : State} (h : RulesKept s t) {code place gap : Nat} {put : State → Nat → State}
    (hp : ∀ {u} n, RulesKept s u → RulesKept s (put u n)) : RulesKept s (rateEvent t code place gap put) := by
  unfold Machine.rateEvent
  dsimp only
  refine .ite (hp _ ?_) (h.same rfl rfl rfl)
  exact h.same rfl rfl rfl

theorem RulesKept.privCount {s t : State} (h : RulesKept s t) (c : Nat) : RulesKept s (privCount t c) := by
  unfold Machine.privCount
  dsimp only
  refine .ite (.event ?_ _ _ _) (h.same rfl rfl rfl)
  exact h.same rfl rfl rfl

/-- An entry in the journal is of the observation block's journal only. -/
theorem journal_images (s : State) (e : JournalEntry) :
    (journal s e).obs.tally = s.obs.tally ∧ (journal s e).obs.bolt = s.obs.bolt := by
  have h : ∀ (o : ObsBlk) (js : List JournalEntry) (n : Nat), { o with journal := js, journalNext := n }.tally = o.tally ∧
      { o with journal := js, journalNext := n }.bolt = o.bolt := fun _ _ _ => ⟨rfl, rfl⟩
  exact h s.obs _ _

theorem RulesKept.journal {s t : State} (h : RulesKept s t) (e : JournalEntry) : RulesKept s (journal t e) := by
  obtain ⟨htally, hbolt⟩ := journal_images t e
  exact h.same (journal_hed t e) htally hbolt

theorem RulesKept.journalAction {s t : State} (h : RulesKept s t) (sess index sub v : Nat) :
    RulesKept s (journalAction t sess index sub v) := by
  unfold Machine.journalAction
  split
  · exact h.journal _
  · exact h

end Sys2Proof.Scope
end

section
/-!
The tally: launch, completion, hold and release (R517, R518, R519; log entries 64, 65).
-/

namespace Sys2Proof.Scope

open Sys2Proof.Machine

theorem journalAction_tally (s : State) (sess index sub v : Nat) : (journalAction s sess index sub v).obs.tally = s.obs.tally :=
  ((RulesKept.refl s).journalAction ..).tally

/-! ### Images (R517) -/

theorem tallySnapshotLaunch_launches {s : State} (hr : coreRuns s = true) (hf : s.obs.tally.flight = none)
    (hp : s.obs.tally.lastFt / cfgv s 0x7001 0 < s.ft / cfgv s 0x7001 0) :
    Leaves (.tallySnapshotLaunch) s fun t => t.obs.tally.launched = s.obs.tally.launched + 1 ∧ t.obs.tally.lastFt = s.ft ∧
      t.obs.tally.flight.map (fun m => (m.number, m.launch, m.period, m.sticky)) =
        some ((s.obs.tally.launched + 1) % 2 ^ 32, s.ft % 2 ^ 64, cfgv s 0x7001 0, s.obs.sticky) ∧
      t.obs.tally.image = s.obs.tally.image := by
  refine ⟨tallySnapshotLaunch s, rfl, ?_⟩
  dsimp only [tallySnapshotLaunch]
  rw [if_pos (by simp [hr, hf, hp])]
  exact ⟨rfl, rfl, rfl, rfl⟩

theorem tallyImageComplete_shows {m : TallyImage} {s : State} (hf : s.obs.tally.flight = some m) :
    Leaves (.tallyImageComplete) s fun t => t.obs.tally.snapshot = m.number ∧ t.obs.tally.flight = none ∧
      t.obs.tally.image = (if s.obs.tally.hold = none then some m else s.obs.tally.image) ∧
      t.obs.tally.behind = (if s.obs.tally.hold = none then s.obs.tally.behind else some m) := by
  refine ⟨tallyImageComplete s, rfl, ?_⟩
  simp only [tallyImageComplete, hf]
  cases hh : s.obs.tally.hold with
  | none => exact ⟨rfl, rfl, rfl, rfl⟩
  | some n => exact ⟨rfl, rfl, rfl, rfl⟩

/-! ### Hold and release (R519) -/

/-- A hold that ends lets the image behind it through. -/
theorem releaseHold_tally (s : State) : (releaseHold s).obs.tally = { s.obs.tally with
    hold := none, behind := none
    image := if s.obs.tally.behind = none then s.obs.tally.image else s.obs.tally.behind } := by
  cases hb : s.obs.tally.behind with
  | none => simp only [releaseHold, hb, if_true]
  | some m => simp only [releaseHold, hb, reduceCtorEq, if_false]

theorem tallyHold_holds {sess : Nat} {s : State} (h : MayAct s sess 0x7003 0 1) (hh : s.obs.tally.hold = none) :
    Leaves (.tallyHold sess 1) s fun t => t.obs.tally.hold = some sess ∧ t.obs.tally.holdSince = s.now ∧
      t.obs.tally.image = s.obs.tally.image := by
  refine ⟨_, rfl, ?_⟩
  dsimp only
  rw [actWrite_done h rfl, emit_obs]
  simp only [actTallyHold, if_true, journalAction_tally, hh, Option.isSome_none, Bool.false_eq_true, if_false]
  exact ⟨rfl, journalAction_now .., rfl⟩

theorem tallyHold_releases {sess : Nat} {s : State} (h : MayAct s sess 0x7003 0 0) :
    Leaves (.tallyHold sess 0) s fun t => t.obs.tally.hold = none ∧ t.obs.tally.behind = none := by
  refine ⟨_, rfl, ?_⟩
  dsimp only
  rw [actWrite_done h rfl, emit_obs]
  show (releaseHold (journalAction s sess 0x7003 0 0)).obs.tally.hold = none ∧ _
  rw [releaseHold_tally]
  exact ⟨rfl, rfl⟩

theorem tallyHoldTimeout_releases {n : Nat} {s : State} (hh : s.obs.tally.hold = some n)
    (he : s.obs.tally.holdSince + 1000000000 ≤ s.now) :
    Leaves (.tallyHoldTimeout) s fun t => t.obs.tally.hold = none ∧
      t.obs.tally.image = (if s.obs.tally.behind = none then s.obs.tally.image else s.obs.tally.behind) := by
  have hc : elapsed s s.obs.tally.holdSince sec = true := decide_eq_true he
  refine ⟨tallyHoldTimeout s, rfl, ?_⟩
  simp only [tallyHoldTimeout, hh, hc, if_true]
  rw [((RulesKept.refl _).event ..).tally, releaseHold_tally]
  exact ⟨rfl, rfl⟩

/-- Settles O43, a lemma for each clause. -/
theorem tally : Obligations.Tally := by
  unfold Obligations.Tally
  exact ⟨fun _ hr hf hp => tallySnapshotLaunch_launches hr hf hp,
    fun _ _ hf => tallyImageComplete_shows hf,
    fun _ _ h hh => tallyHold_holds h hh,
    fun _ _ h => tallyHold_releases h,
    fun _ _ hh he => tallyHoldTimeout_releases hh he⟩

end Sys2Proof.Scope
end

section
/-!
SPOOL_REWIND (R524): a mark whose line has been overwritten is gone, and a rewind to it is refused, which the fifth clause of O44 leaves out.
-/

namespace Sys2Proof.Scope

open Sys2Proof.Machine

/-- The ring of partition 0, of 64 lines, in which line 80 lies over the line of the mark, line 16. -/
def overwrittenRing : RingState := { armed := true, head := 81, released := 17, marked := true, markSeq := 16, markGone := true }

/-- An installer's session 1 and that ring. -/
def markOverwritten : State :=
  { module := { state := .service }
    cfg := [(key 0x3301 1, 1), (key 0x7101 1, 1), (key 0x7103 1, 6), (key 0x7102 1, 4096)]
    mgmt := { sessions := [{ slot := 0, num := 1, role := 2, source := 16 }] }
    obs := { rings := vset (Vector.replicate 33 {}) 0 overwrittenRing } }

theorem emit_ring (s : State) (e : Emit) (r : Nat) : ringGet (emit s e) r = ringGet s r := rfl

theorem markOverwritten_ring : ringGet markOverwritten 0 = overwrittenRing := by decide +kernel

/-- The rewind has no effect but its status 5. -/
theorem rewind_refused (h : MayAct markOverwritten 1 0x710B 1 1) :
    exec (.spoolRewind 1 0 1) markOverwritten = .next (emit markOverwritten (.status 1 0x710B 1 5)) :=
  congrArg Host.Outcome.next (actWrite_refused h (by decide))

/-- Refutes O44, at its fifth clause: the ring has a mark, but its line has been overwritten, so SPOOL_REWIND is refused (R524) and the released
line stays 17, while the clause has the ring go back to before the mark. -/
theorem not_spool : ¬ Obligations.Spool := by
  unfold Obligations.Spool
  rintro ⟨-, -, -, -, hrewind, -⟩
  have hmay : MayAct markOverwritten 1 0x710B 1 1 := by decide +kernel
  obtain ⟨t, ht, hring⟩ := hrewind 1 0 markOverwritten hmay (by decide +kernel)
  obtain rfl : emit markOverwritten (.status 1 0x710B 1 5) = t := Host.Outcome.next.inj ((rewind_refused hmay).symm.trans ht)
  have hr := congrArg RingState.released hring
  rw [emit_ring] at hr
  dsimp only [Fin.val_zero] at hr
  rw [markOverwritten_ring] at hr
  exact absurd hr (by decide)

end Sys2Proof.Scope
end

section
/-!
The bolt, the entropy test, the test access port and IDE keys (R493, R497, R502, R529, R532; log entries 66, 73).
-/

namespace Sys2Proof.Scope

open Sys2Proof.Machine Sys2Proof.Laws

/-! ### The bolt (R529, R532) -/

theorem journalAction_bolt (s : State) (sess index sub v : Nat) : (journalAction s sess index sub v).obs.bolt = s.obs.bolt :=
  ((RulesKept.refl s).journalAction ..).bolt

theorem boltCapture_begins {sess : Nat} {s : State} (h : MayAct s sess 0x7203 0 1) (hc : boltCaptureCheck s = 0) :
    Leaves (.boltCapture sess 1) s fun t => t.obs.bolt.state = 1 ∧ t.obs.bolt.number = (s.obs.bolt.number + 1) % 2 ^ 32 ∧
      t.obs.bolt.kind = 3 ∧ t.obs.bolt.since = s.now ∧
      t.obs.bolt.sections.map (fun x => x.typ) = [2, 3, 4, 5, 6, 7, 8, 9, 10, 11, 12] := by
  refine ⟨_, rfl, ?_⟩
  dsimp only
  rw [actWrite_done h (by rw [if_pos rfl, hc]), onOne_one, emit_obs]
  refine ⟨rfl, ?_, rfl, journalAction_now .., rfl⟩
  exact congrArg (fun b : Bolt => (b.number + 1) % 2 ^ 32) (journalAction_bolt s sess 0x7203 0 1)

theorem boltRelease_releases {sess : Nat} {s : State} (h : MayAct s sess 0x7202 0 1) (hs : s.obs.bolt.state = 3) :
    Leaves (.boltRelease sess 1) s fun t => t.obs.bolt = { s.obs.bolt with state := 2 } := by
  refine ⟨_, rfl, ?_⟩
  dsimp only
  rw [actWrite_done h (by simp [hs]), onOne_one, emit_obs, actBoltRelease, ((RulesKept.refl _).event ..).bolt, journalAction_bolt]
  rfl

theorem boltSectionTimeout_cuts {s : State} (hs : s.obs.bolt.state = 1) (he : s.obs.bolt.since + 250000000 ≤ s.now) :
    Leaves (.boltSectionTimeout) s fun t =>
      t.obs.bolt.sections.map (fun x => x.typ) = s.obs.bolt.sections.map (fun x => x.typ) ∧
      (∀ x ∈ t.obs.bolt.sections, x.done = true) := by
  have hc : elapsed s s.obs.bolt.since (250 * ms) = true := decide_eq_true he
  refine ⟨boltSectionTimeout s, rfl, ?_⟩
  dsimp only [boltSectionTimeout]
  by_cases ha : s.obs.bolt.sections.any (fun x => !x.done) = true
  · rw [if_pos (by simp only [hs, hc, ha]; rfl)]
    simp only [setBolt, List.map_map, List.mem_map]
    refine ⟨List.map_congr_left fun x _ => ?_, ?_⟩
    · show BoltSection.typ (if _ then _ else _) = _
      split <;> rfl
    · rintro _ ⟨x, -, rfl⟩
      split
      · next hd => exact hd
      · rfl
  · rw [if_neg (by simp only [ha, Bool.and_false, Bool.false_eq_true, not_false_eq_true])]
    refine ⟨rfl, fun x hx => ?_⟩
    by_contra hd
    exact ha (List.any_eq_true.mpr ⟨x, hx, by simpa using hd⟩)

/-! ### Entropy and the test access port (R494, R497) -/

theorem entropyFault_kept {s : State} (hs : s.module.state ≠ .off) :
    Leaves (.entropyFault) s fun t => t.vault.entropyOk = false := by
  refine ⟨entropyFault s, rfl, ?_⟩
  dsimp only [entropyFault]
  by_cases he : s.vault.entropyOk = true
  · rw [if_pos (by simp [he, hs])]
    simp only [apply_ite State.vault, event_vault, ite_self]
  · rw [if_neg (by simp [he])]
    simpa using he

theorem entropyRecovered_kept {s : State} (hs : s.module.state ≠ .off) :
    Leaves (.entropyRecovered) s fun t => t.vault.entropyOk = true := by
  refine ⟨entropyRecovered s, rfl, ?_⟩
  dsimp only [entropyRecovered]
  by_cases he : s.vault.entropyOk = true
  · rw [if_neg (by simp [he])]
    exact he
  · rw [if_pos (by simp [he, hs])]
    simp only [apply_ite State.vault, event_vault, ite_self]

theorem tapInstruction_acts (i : TapInstr) (s : State) :
    Leaves (.tapInstruction i) s fun t => t.vault.tap = (if tapCode i = 0 ∨ scanStates s = true then i else .bypass) := by
  refine ⟨tapInstruction i s, rfl, ?_⟩
  simp only [tapInstruction, Bool.or_eq_true, decide_eq_true_eq]
  split
  · rfl
  · rw [event_vault, privCount_vault]

/-! ### IDE keys (R502) -/

theorem ideKmKeyProg_places {p : Port} {stream : Nat} {sel : Bool} {keys : List Byte} {v : Nat} {s : State}
    (hv : portPart s p = some v) (hw : isWarp s p = true) (he : partEnabled s v = true) (ha : (warpPort s p).st = .active)
    (hn : stream < 256) (hr : ideRoom s p stream sel = true) :
    Leaves (.ideKmKeyProg p stream sel keys) s fun t => Tbl.find? t.vault.ide (ideKey p stream) = some keys ∧
      (sel = true → (p.val, stream) ∈ t.warp.ideSel) := by
  refine ⟨ideKmKeyProg p stream sel keys s, rfl, ?_⟩
  simp only [ideKmKeyProg, hv, hw, he, ha, hn, hr, decide_true, Bool.and_self, if_true]
  refine ⟨Tbl.find?_set_same .., fun hs => ?_⟩
  split
  · exact List.mem_append_right _ (List.mem_singleton.mpr rfl)
  · next hc => simpa [hs] using hc

/-- Settles O45, a lemma for each clause. -/
theorem boltAndVault : Obligations.BoltAndVault := by
  unfold Obligations.BoltAndVault
  exact ⟨fun _ _ h hc => boltCapture_begins h hc,
    fun _ _ h hs => boltRelease_releases h hs,
    fun _ hs he => boltSectionTimeout_cuts hs he,
    fun _ hs => entropyFault_kept hs,
    fun _ hs => entropyRecovered_kept hs,
    tapInstruction_acts,
    fun _ _ _ _ _ _ hv hw he ha hn hr => ideKmKeyProg_places hv hw he ha hn hr⟩

end Sys2Proof.Scope
end

section
/-!
Sessions: authentication, lock-out, idle time and end (R453, R455, R458, R460, R463; log entry 86).
-/

namespace Sys2Proof.Scope

open Sys2Proof.Machine Sys2Proof.Laws

/-! ### Answers (R456, R459, R470) -/

/-- A served message is taken and handled. -/
theorem handle_first {s : State} {typ : Nat} {m : Msg} (hs : serves s = true) (hm : firstOf typ [] s.mgmt.inbox = some m)
    (f : State → Msg → State) : handle typ f s = f (taken s m) m := by
  simp only [handle, hs, nextMsg_of_first hm, Bool.not_true, Bool.false_eq_true, if_false]

theorem placeResponse_mgmt (s : State) (v : Nat) : ∃ mb, (placeResponse s v).mgmt = { s.mgmt with mailboxes := mb } := by
  unfold placeResponse
  dsimp only
  split
  · split
    · exact ⟨_, rfl⟩
    · exact ⟨_, msi_mgmt ..⟩
  · exact ⟨_, rfl⟩

/-- What is sent to a source is of the management block only in the mailbox it waits in. -/
theorem sendTo_mgmt (s : State) (source prio typ tagId : Nat) (bs : List Byte) :
    ∃ mb, (sendTo s source prio typ tagId bs).mgmt = { s.mgmt with mailboxes := mb } := by
  unfold sendTo
  split
  · obtain ⟨mb, h⟩ := placeResponse_mgmt (setMailbox (count s (ctrMgmt 4) 1) (source - 128)
      { mailbox s (source - 128) with queue := (mailbox s (source - 128)).queue ++ mailboxSegments 4 true bs }) (source - 128)
    refine ⟨mb, h.trans ?_⟩
    simp only [setMailbox, setMgmt, count_mgmt]
  · exact ⟨s.mgmt.mailboxes, (harmirSend_keeps (mk := 1048576) (Keeps.refl _) (by decide)).mgmt (by decide)⟩

theorem answerPlain_mgmt (s : State) (m : Msg) (typ : Nat) (body : List Byte) :
    ∃ mb, (answerPlain s m typ body).mgmt = { s.mgmt with mailboxes := mb } := sendTo_mgmt ..

theorem answerPlain_sessions (s : State) (m : Msg) (typ : Nat) (body : List Byte) :
    (answerPlain s m typ body).mgmt.sessions = s.mgmt.sessions := by
  obtain ⟨mb, h⟩ := answerPlain_mgmt s m typ body
  rw [h]

theorem answerPlain_attempts (s : State) (m : Msg) (typ : Nat) (body : List Byte) :
    (answerPlain s m typ body).mgmt.attempts = s.mgmt.attempts := by
  obtain ⟨mb, h⟩ := answerPlain_mgmt s m typ body
  rw [h]

theorem answerPlain_inbox (s : State) (m : Msg) (typ : Nat) (body : List Byte) :
    (answerPlain s m typ body).mgmt.inbox = s.mgmt.inbox := by
  obtain ⟨mb, h⟩ := answerPlain_mgmt s m typ body
  rw [h]

/-! ### AUTH_BEGIN (R455) -/

/-- A source has one attempt at a time: the one that takes the others' place. -/
theorem filter_source_replaced (as : List AuthAttempt) (a : AuthAttempt) {src : Nat} (h : a.source = src) :
    ((as.filter fun x => x.source ≠ src) ++ [a]).filter (fun x => x.source = src) = [a] := by
  have hn : (as.filter fun x => x.source ≠ src).filter (fun x => x.source = src) = [] := by simp
  rw [List.filter_append, hn, List.nil_append]
  simp [h]

theorem authBegin_challenges {m : Msg} {s : State} (hs : serves s = true) (hm : firstOf 1 [] s.mgmt.inbox = some m)
    (hr : beginRefusal s m = 0) :
    Leaves (.authBegin) s fun t =>
      (t.mgmt.attempts.filter fun a => a.source = m.source).map (fun a => (a.role, a.nc, a.since)) =
        [(leAt m.body 0 1, (m.body.drop 1).take 16, s.now)] ∧
      t.mgmt.sessions = s.mgmt.sessions ∧ t.mgmt.inbox = s.mgmt.inbox.erase m := by
  have hr : ¬ beginRefusal (taken s m) m ≠ 0 := not_not_intro hr
  refine ⟨authBegin s, rfl, ?_⟩
  simp only [authBegin, handle_first hs hm, if_neg hr, answerPlain_sessions, answerPlain_attempts, answerPlain_inbox, setMgmt]
  exact ⟨congrArg (List.map _) (filter_source_replaced (src := m.source) _ _ rfl), rfl, rfl⟩

theorem authBegin_refused {m : Msg} {s : State} (hs : serves s = true) (hm : firstOf 1 [] s.mgmt.inbox = some m)
    (hr : beginRefusal s m ≠ 0) :
    Leaves (.authBegin) s fun t => t.mgmt.attempts = s.mgmt.attempts ∧ t.mgmt.sessions = s.mgmt.sessions := by
  have hr : beginRefusal (taken s m) m ≠ 0 := hr
  refine ⟨authBegin s, rfl, ?_⟩
  simp only [authBegin, handle_first hs hm, if_pos hr]
  exact ⟨answerPlain_attempts .., answerPlain_sessions ..⟩

/-! ### AUTH_PROOF and AUTH_TIMEOUT (R455) -/

/-- A failed attempt is gone, and no session opens. -/
theorem authFailed_gone (s : State) (a : AuthAttempt) (cause : Nat) : (authFailed s a cause).mgmt.sessions = s.mgmt.sessions ∧
    (authFailed s a cause).mgmt.attempts = s.mgmt.attempts.filter fun x => x.num ≠ a.num := by
  unfold authFailed
  dsimp only
  split <;> simp only [event_mgmt, setMgmt, privCount_mgmt, answerPlain_sessions, answerPlain_attempts, and_self]

theorem num_ne_of_filter {as : List AuthAttempt} {n : Nat} {b : AuthAttempt} (h : b ∈ as.filter fun x => x.num ≠ n) : b.num ≠ n := by
  simpa using (List.mem_filter.mp h).2

/-- The session that the right proof opens. -/
def openedSession (s : State) (a : AuthAttempt) (slot : Nat) : Session :=
  { slot := slot, num := a.num, role := a.role, source := a.source
    key := hmacRole s a.role "HARMIR-S1" (a.nc ++ a.nm ++ leBytes 2 a.num), lastMsg := s.now }

theorem endSessions_now (s : State) (f : Session → Bool) (cause : Nat) : (endSessions s f cause).now = s.now :=
  (endSessions_keeps (mk := 8388607) (Keeps.refl s) (by decide)).now

theorem openSession_opens (s : State) (m : Msg) (a : AuthAttempt) : (∃ slot, openedSession s a slot ∈ (openSession s m a).mgmt.sessions) ∧
    ∀ b ∈ (openSession s m a).mgmt.attempts, b.num ≠ a.num := by
  have hn : (if 128 ≤ a.source then endMailbox s (a.source - 128) 4 else s).now = s.now := by
    split
    · exact endSessions_now ..
    · rfl
  unfold openSession
  simp only [answerPlain_sessions, answerPlain_attempts, event_mgmt, count_mgmt, setMgmt]
  refine ⟨⟨sessionSlot (if 128 ≤ a.source then endMailbox s (a.source - 128) 4 else s) a.source, ?_⟩, fun b hb => num_ne_of_filter hb⟩
  rw [hn]
  exact List.mem_append_right _ (List.mem_singleton.mpr rfl)

theorem authProof_opens {m : Msg} {a : AuthAttempt} {s : State} (hs : serves s = true) (hm : firstOf 3 [] s.mgmt.inbox = some m)
    (ha : s.mgmt.attempts.find? (fun a => a.source = m.source) = some a) (ht : s.now < a.since + 1000000000)
    (hp : m.body.take 48 = attemptProof s a) (hr : sessionRoom s a.source = true) :
    Leaves (.authProof) s fun t =>
      t.mgmt.sessions.any (fun x => x.num = a.num && x.role = a.role && x.source = a.source &&
        x.key = hmacRole s a.role "HARMIR-S1" (a.nc ++ a.nm ++ leBytes 2 a.num)) = true ∧
      (∀ b ∈ t.mgmt.attempts, b.num ≠ a.num) := by
  have ha : (taken s m).mgmt.attempts.find? (fun a => a.source = m.source) = some a := ha
  have ht : ¬ elapsed (taken s m) a.since sec = true := by
    rw [elapsed, decide_eq_true_eq]
    exact Nat.not_le.mpr ht
  have hp : ¬ m.body.take 48 ≠ attemptProof (taken s m) { a with tagId := m.tagId } := not_not_intro hp
  have hr : sessionRoom (taken s m) a.source = true := hr
  refine ⟨authProof s, rfl, ?_⟩
  simp only [authProof, handle_first hs hm, ha, if_neg ht, if_neg hp, hr, Bool.not_true, Bool.false_eq_true, if_false]
  obtain ⟨⟨slot, hin⟩, hgone⟩ := openSession_opens (taken s m) m { a with tagId := m.tagId }
  refine ⟨List.any_eq_true.mpr ⟨_, hin, ?_⟩, hgone⟩
  simp only [openedSession, decide_true, Bool.true_and]
  exact decide_eq_true rfl

theorem authProof_fails {m : Msg} {a : AuthAttempt} {s : State} (hs : serves s = true) (hm : firstOf 3 [] s.mgmt.inbox = some m)
    (ha : s.mgmt.attempts.find? (fun a => a.source = m.source) = some a) (hp : m.body.take 48 ≠ attemptProof s a) :
    Leaves (.authProof) s fun t => t.mgmt.sessions = s.mgmt.sessions ∧ (∀ b ∈ t.mgmt.attempts, b.num ≠ a.num) := by
  have hf : ∃ cause, authProof s = authFailed (taken s m) { a with tagId := m.tagId } cause := by
    have ha : (taken s m).mgmt.attempts.find? (fun a => a.source = m.source) = some a := ha
    have hp : m.body.take 48 ≠ attemptProof (taken s m) { a with tagId := m.tagId } := hp
    simp only [authProof, handle_first hs hm, ha, if_pos hp]
    split
    · exact ⟨2, rfl⟩
    · exact ⟨1, rfl⟩
  obtain ⟨cause, hf⟩ := hf
  obtain ⟨hsess, hatt⟩ := authFailed_gone (taken s m) { a with tagId := m.tagId } cause
  refine ⟨authProof s, rfl, ?_⟩
  dsimp only
  rw [hf, hsess, hatt]
  exact ⟨rfl, fun b hb => num_ne_of_filter hb⟩

theorem authTimeout_fails {num : Nat} {a : AuthAttempt} {s : State} (ha : s.mgmt.attempts.find? (fun a => a.num = num) = some a)
    (ht : a.since + 1000000000 ≤ s.now) :
    Leaves (.authTimeout num) s fun t => (∀ b ∈ t.mgmt.attempts, b.num ≠ num) ∧ t.mgmt.sessions = s.mgmt.sessions := by
  have hc : elapsed s a.since sec = true := decide_eq_true ht
  have hn : a.num = num := by simpa using List.find?_some ha
  obtain ⟨hsess, hatt⟩ := authFailed_gone s a 2
  refine ⟨authTimeout num s, rfl, ?_⟩
  simp only [authTimeout, ha, hc, if_true]
  rw [hsess, hatt, hn]
  exact ⟨fun b hb => num_ne_of_filter hb, rfl⟩

theorem lockoutEnd_ends {src : Nat} {r : Nat × Nat} {s : State} (hr : s.mgmt.lockouts.find? (fun r => r.1 = src) = some r)
    (ht : r.2 + 60000000000 ≤ s.now) : Leaves (.lockoutEnd src) s fun t => t.mgmt.lockouts = s.mgmt.lockouts.erase r := by
  have hc : elapsed s r.2 (60 * sec) = true := decide_eq_true ht
  refine ⟨lockoutEnd src s, rfl, ?_⟩
  simp only [lockoutEnd, hr, hc, if_true, setMgmt]

/-! ### The end of a session (R458, R460) -/

theorem sessionOf_endSession_same (s : State) (num cause : Nat) : sessionOf (endSession s num cause) num = none := by
  rw [sessionOf, endSession_sessions, List.find?_eq_none]
  intro x hx
  simpa using (List.mem_filter.mp hx).2

theorem sessionOf_endSession_other (s : State) {num n : Nat} (cause : Nat) (h : n ≠ num) :
    sessionOf (endSession s num cause) n = sessionOf s n := by
  rw [sessionOf, endSession_sessions, List.find?_filter, sessionOf]
  congr 1
  funext y
  by_cases hy : y.num = n <;> simp [hy, h]

theorem sessionIdleTimeout_ends {num : Nat} {x : Session} {s : State} (hx : sessionOf s num = some x)
    (ht : x.lastMsg + cfgv s 0x1103 2 * 1000000000 ≤ s.now) (hp : s.module.pause = none) :
    Leaves (.sessionIdleTimeout num) s fun t => sessionOf t num = none ∧ (∀ n, n ≠ num → sessionOf t n = sessionOf s n) := by
  have hc : elapsed s x.lastMsg (cfgv s 0x1103 2 * sec) = true := decide_eq_true ht
  refine ⟨sessionIdleTimeout num s, rfl, ?_⟩
  simp only [sessionIdleTimeout, hx, hc, hp, Option.isNone_none, Bool.and_self, if_true]
  exact ⟨sessionOf_endSession_same .., fun n hn => sessionOf_endSession_other _ _ hn⟩

theorem sessionEnd_ends {m : Msg} {s : State} (hs : serves s = true) (hm : firstOf 0x0C [] s.mgmt.inbox = some m) :
    Leaves (.sessionEnd) s fun t => sessionOf t m.session = none := by
  refine ⟨sessionEnd s, rfl, ?_⟩
  simp only [sessionEnd, handle_first hs hm]
  exact sessionOf_endSession_same ..

/-- Settles O39, a lemma for each clause. -/
theorem sessions : Obligations.Sessions := by
  unfold Obligations.Sessions
  exact ⟨fun _ _ hs hm hr => authBegin_challenges hs hm hr,
    fun _ _ hs hm hr => authBegin_refused hs hm hr,
    fun _ _ _ hs hm ha ht hp hr => authProof_opens hs hm ha ht hp hr,
    fun _ _ _ hs hm ha hp => authProof_fails hs hm ha hp,
    fun _ _ _ ha ht => authTimeout_fails ha ht,
    fun _ _ _ hr ht => lockoutEnd_ends hr ht,
    fun _ _ _ hx ht hp => sessionIdleTimeout_ends hx ht hp,
    fun _ _ _ hs hm _ => sessionEnd_ends hs hm⟩

end Sys2Proof.Scope
end

section
/-!
The Harmir bus, mailboxes and heartbeats (R464, R466, R467, R468, R470; log entries 87, 90).
-/

namespace Sys2Proof.Scope

open Sys2Proof.Machine Sys2Proof.Laws

/-! ### Heartbeats (R468) -/

theorem harmirSend_mgmt (s : State) (prio typ tagId dst : Nat) (bs : List Byte) : (harmirSend s prio typ tagId dst bs).mgmt = s.mgmt :=
  (harmirSend_keeps (mk := 1048576) (Keeps.refl s) (by decide)).mgmt (by decide)

/-- A heartbeat is of the management block only in the bus count, which the supervisor has none of. -/
theorem sendHeartbeat_mgmt (s : State) (dst tagId : Nat) : ∃ n, (sendHeartbeat s dst tagId).mgmt = { s.mgmt with busCount := n } := by
  unfold sendHeartbeat
  split
  · exact ⟨s.mgmt.busCount, harmirSend_mgmt ..⟩
  · exact ⟨_, busSend_mgmt ..⟩

theorem sendHeartbeat_bus {s : State} {dst tagId : Nat} (h : supervisorOnly s = false) :
    sendHeartbeat s dst tagId = busSend s 0 tagId dst (heartbeatBody s true) := by
  rw [sendHeartbeat, h, if_neg Bool.false_ne_true]

theorem heartbeatSend_counts {s : State} (ho : supervisorOnly s = false) (hc : s.module.state ≠ .coreOn)
    (ht : s.mgmt.heartbeatAt + 4500000 ≤ s.now) :
    Leaves (.heartbeatSend) s fun t => t.mgmt.heartbeatAt = s.now ∧ t.mgmt.busCount = (s.mgmt.busCount + 1) % 2 ^ 32 := by
  have he : elapsed s s.mgmt.heartbeatAt (4500 * us) = true := decide_eq_true ht
  refine ⟨heartbeatSend s, rfl, ?_⟩
  dsimp only [heartbeatSend]
  rw [if_neg (by simp [ho, hc]), if_pos (by simp [he]), sendHeartbeat_bus, busSend_mgmt]
  · exact ⟨rfl, rfl⟩
  · exact ho

theorem heartbeat_heard {m : Msg} {s : State} (hm : firstOf 0 [] s.mgmt.inbox = some m) (hb : bit (leAt m.body 12 1) 0 = true)
    (ho : supervisorOnly s = false) :
    Leaves (.heartbeat) s fun t => Tbl.find? t.mgmt.heard m.source = some (s.now, leNat m.body) ∧
      t.mgmt.inbox = s.mgmt.inbox.erase m := by
  have ho : supervisorOnly (count (taken s m) (ctrMgmt 13) 1) = false := by
    simp only [supervisorOnly, count_module]
    exact ho
  refine ⟨heartbeat s, rfl, ?_⟩
  simp only [heartbeat, nextMsg_of_first hm, hb, ho, Bool.not_false, Bool.and_self, if_true]
  split
  · simp only [setMgmt, count_mgmt, count_now]
    exact ⟨Tbl.find?_set_same .., rfl⟩
  · obtain ⟨n, hn⟩ := sendHeartbeat_mgmt (setMgmt (count (taken s m) (ctrMgmt 13) 1) { (count (taken s m) (ctrMgmt 13) 1).mgmt with
      heard := Tbl.set (count (taken s m) (ctrMgmt 13) 1).mgmt.heard m.source ((count (taken s m) (ctrMgmt 13) 1).now, leNat m.body) })
      m.source m.tagId
    simp only [hn]
    simp only [setMgmt, count_mgmt, count_now]
    exact ⟨Tbl.find?_set_same .., rfl⟩

/-! ### Frames and segments (R464 to R467) -/

theorem answerPlain_assembling (s : State) (m : Msg) (typ : Nat) (body : List Byte) :
    (answerPlain s m typ body).mgmt.assembling = s.mgmt.assembling := by
  obtain ⟨mb, h⟩ := answerPlain_mgmt s m typ body
  rw [h]

theorem reassemblyFailed_assembling (s : State) (source prio tagId : Nat) :
    (reassemblyFailed s source prio tagId).mgmt.assembling = s.mgmt.assembling := by
  rw [reassemblyFailed, answerPlain_assembling, count_mgmt]

/-- A first segment of a message that none is put together of begins it. -/
theorem takeSegment_first {s : State} {x : Assembly} {data : List Byte}
    (hn : s.mgmt.assembling.find? (fun y => assemblyKey y x.src x.typ x.tagId) = none) :
    (takeSegment s x false data).mgmt = { s.mgmt with
      assembling := s.mgmt.assembling ++ [{ x with bytes := x.bytes ++ data, since := s.now }] } := by
  have hf : s.mgmt.assembling.filter (fun y => !assemblyKey y x.src x.typ x.tagId) = s.mgmt.assembling :=
    List.filter_eq_self.mpr fun y hy => by simpa using List.find?_eq_none.mp hn y hy
  simp only [takeSegment, dropAssembly, setMgmt, hf, Bool.false_eq_true, if_false]

theorem canFrameReceive_begins {ident : Nat} {bs data : List Byte} {seg : Byte} {s : State} (hs : s.module.state ≠ .off)
    (hh : harmirOn s = true) (hb : bs = seg :: data) (hd : bits ident 8 8 = 0 ∨ bits ident 8 8 = cfgv s 0x1120 1)
    (hz : ident % 256 ≠ 0) (hx : ident % 256 ≠ 255)
    (hn : s.mgmt.assembling.find? (fun x => assemblyKey x (ident % 256) (bits ident 21 5) (bits ident 16 5)) = none)
    (hf : bit seg.toNat 7 = true) (hq : seg.toNat % 64 = 0) (hl : bit seg.toNat 6 = false) :
    Leaves (.canFrameReceive ident bs) s fun t => t.mgmt.assembling = s.mgmt.assembling ++ [{
        src := ident % 256, typ := bits ident 21 5, tagId := bits ident 16 5, prio := bits ident 26 3, dst := bits ident 8 8, seq := 0
        since := s.now, bytes := data.take 63 }] ∧ t.mgmt.inbox = s.mgmt.inbox := by
  subst hb
  have hto : (bits ident 8 8 = 0 || bits ident 8 8 = cfgv (count s (ctrMgmt 8) 1) 0x1120 1) && ident % 256 ≠ 0 && ident % 256 ≠ 255 := by
    rw [cfgv, count_cfg, ← cfgv]
    simpa [hz, hx] using hd
  refine ⟨canFrameReceive ident (seg :: data) s, rfl, ?_⟩
  dsimp only [canFrameReceive]
  rw [if_neg (by simp [hs, hh]), if_pos hto]
  simp only [takeFrame, count_mgmt, hn, hf, hq, hl, Bool.not_true, Bool.false_eq_true, if_false, ne_eq, not_true_eq_false]
  rw [takeSegment_first (by rw [count_mgmt]; exact hn), count_mgmt, count_now]
  exact ⟨rfl, rfl⟩

theorem segmentTimeout_drops {a b c : Nat} {x : Assembly} {s : State}
    (hx : s.mgmt.assembling.find? (fun x => assemblyKey x a b c) = some x) (ht : x.since + 50000000 < s.now) :
    Leaves (.segmentTimeout a b c) s fun t => t.mgmt.assembling = s.mgmt.assembling.filter (fun x => !assemblyKey x a b c) := by
  have ht : x.since + 50 * ms < s.now := ht
  refine ⟨segmentTimeout a b c s, rfl, ?_⟩
  simp only [segmentTimeout, hx, if_pos ht, reassemblyFailed_assembling]
  rfl

theorem canBusOff_off {s : State} (hs : s.module.state ≠ .off) (hh : harmirOn s = true) :
    Leaves (.canBusOff) s fun t => t.mgmt.canOff = true ∧ harmirOn t = false := by
  have hm : (canBusOff s).mgmt = { s.mgmt with canOff := true } := by
    dsimp only [canBusOff]
    rw [if_neg (by simp [hs, hh]), event_mgmt, count_mgmt]
    rfl
  refine ⟨canBusOff s, rfl, ?_⟩
  dsimp only [harmirOn]
  rw [hm]
  exact ⟨rfl, Bool.and_false _⟩

theorem canBusOffRecovery_on {s : State} (ho : s.mgmt.canOff = true) :
    Leaves (.canBusOffRecovery) s fun t => t.mgmt.canOff = false := by
  refine ⟨canBusOffRecovery s, rfl, ?_⟩
  dsimp only [canBusOffRecovery]
  rw [if_pos ho, event_mgmt]
  rfl

/-! ### Mailboxes (R469, R470) -/

theorem mailbox_setMailbox_same (s : State) (v : Vs) (x : Mailbox) : mailbox (setMailbox s v x) v = x := vget_vset_fin ..

theorem mailbox_congr {s t : State} (h : t.mgmt = s.mgmt) (v : Nat) : mailbox t v = mailbox s v := by simp only [mailbox, h]

theorem mailbox_msi (s : State) (a b c : Nat) (v : Nat) : mailbox (msi s a b c) v = mailbox s v := mailbox_congr (msi_mgmt ..) v

/-- What MB_REQ_CTRL holds of a segment handed over: GO, FIRST, LAST and the length. -/
theorem reqCtrl_fields (ctrl : Nat) (go : Bool) : bit (bits ctrl 0 14 + at_ 31 (b2n go)) 13 = bit ctrl 13 ∧
    bit (bits ctrl 0 14 + at_ 31 (b2n go)) 12 = bit ctrl 12 ∧ (bits ctrl 0 14 + at_ 31 (b2n go)) % 4096 = ctrl % 4096 := by
  simp only [bit, bits, at_, Nat.shiftRight_eq_div_pow, Nat.shiftLeft_eq, Nat.pow_zero, Nat.div_one, decide_eq_decide]
  omega

/-- A first segment, whole in itself, that is not the last is kept for the next. -/
theorem mailboxTake_first {s : State} {v : Vs} {ctrl : Nat} {data : List Byte} (hb : (mailbox s v).building = [])
    (hf : bit ctrl 13 = true) (hl : bit ctrl 12 = false) (hz : ctrl % 4096 ≠ 0) (hn : ctrl % 4096 ≤ 2048) :
    mailboxTake s v ctrl data = setMailbox s v { mailbox s v with building := fitBytes (ctrl % 4096) data } := by
  have hn : ¬ 2048 < ctrl % 4096 := Nat.not_lt.mpr hn
  simp [mailboxTake, hb, hf, hl, hz, hn]

/-- A segment that has been handed over is taken. -/
theorem mailboxFree_busy {s : State} {v : Nat} (h : (mailbox s v).reqBusy = true) : mailboxFree s v =
    msi (mailboxTake (setMailbox s v { mailbox s v with reqBusy := false, reqCtrl := (mailbox s v).reqCtrl % 2 ^ 31 }) v
      (mailbox s v).reqCtrl (mailbox s v).reqBytes) v 0 2 := by
  simp only [mailboxFree, h, Bool.not_true, Bool.false_eq_true, if_false]

theorem mbReqSegment_takes {v : Vs} {ctrl : Nat} {bs : List Byte} {s : State} (hu : mailboxUp s v = true) (hs : serves s = true)
    (hg : bit ctrl 31 = true) (hf : bit ctrl 13 = true) (hl : bit ctrl 12 = false) (hb : (mailbox s v).reqBusy = false)
    (he : (mailbox s v).building = []) (hz : ctrl % 4096 ≠ 0) (hn : ctrl % 4096 ≤ 2048) :
    Leaves (.mbReqSegment v ctrl bs) s fun t => (mailbox t v).building = fitBytes (ctrl % 4096) (bs.take 2048) ∧
      (mailbox t v).reqBusy = false ∧ t.mgmt.inbox = s.mgmt.inbox := by
  obtain ⟨hc13, hc12, hlen⟩ := reqCtrl_fields ctrl (bit ctrl 31)
  refine ⟨mbReqSegment v ctrl bs s, rfl, ?_⟩
  dsimp only [mbReqSegment]
  rw [if_neg (by simp [hu, hb]), if_pos (by rw [hg, Bool.true_and]; exact hs), mailboxFree_busy (by rw [mailbox_setMailbox_same, hg]),
    mailbox_msi, msi_mgmt, mailbox_setMailbox_same]
  rw [mailboxTake_first, mailbox_setMailbox_same, mailbox_setMailbox_same, hlen]
  · exact ⟨rfl, rfl, rfl⟩
  · rw [mailbox_setMailbox_same]
    exact he
  · exact hc13.trans hf
  · exact hc12.trans hl
  · rwa [hlen]
  · rwa [hlen]

theorem mbRespTaken_next {v : Vs} {s : State} (hr : bit (mailbox s v).respCtrl 31 = true) :
    Leaves (.mbRespTaken v) s fun t => (match (mailbox s v).queue with
      | [] => decide (mailbox t v = { mailbox s v with respCtrl := 0, resp := [] })
      | (c, b) :: q => decide (mailbox t v = { mailbox s v with respCtrl := c + at_ 31 1, resp := b, queue := q })) = true := by
  refine ⟨mbRespTaken v s, rfl, ?_⟩
  simp only [mbRespTaken, hr, if_true, placeResponse, mailbox_setMailbox_same]
  cases hq : (mailbox s v).queue with
  | nil => exact decide_eq_true (mailbox_setMailbox_same ..)
  | cons r q =>
    refine decide_eq_true ?_
    have hz : bit 0 31 = false := by decide
    simp only [hz, Bool.false_eq_true, if_false, mailbox_msi, mailbox_setMailbox_same]

/-- Settles O41, a lemma for each command. -/
theorem busAndMailboxes : Obligations.BusAndMailboxes := by
  unfold Obligations.BusAndMailboxes
  exact ⟨fun _ ho hc ht => heartbeatSend_counts ho hc ht,
    fun _ _ hm hb ho => heartbeat_heard hm hb ho,
    fun _ _ _ _ _ hs hh hb hd hz hx hn hf hq hl => canFrameReceive_begins hs hh hb hd hz hx hn hf hq hl,
    fun _ _ _ _ _ hx ht => segmentTimeout_drops hx ht,
    fun _ hs hh => canBusOff_off hs hh,
    fun _ ho => canBusOffRecovery_on ho,
    fun _ _ _ _ hu hs hg hf hl _ hb he hz hn => mbReqSegment_takes hu hs hg hf hl hb he hz hn,
    fun _ _ hr => mbRespTaken_next hr⟩

end Sys2Proof.Scope
end

section
/-!
Heddles: commits and their end, and the debug access port (R332, R333, R334, R335, R336, R498).
-/

namespace Sys2Proof.Scope

open Sys2Proof.Machine Sys2Proof.Laws

/-! ### Commits (R335, R337) -/

theorem pendingOffence_congr {s t : State} (h : t.cfg = s.cfg) : pendingOffence t = pendingOffence s := by
  cases s
  cases t
  dsimp only at h
  subst h
  rfl

theorem pendingOwn_congr {s t : State} (h : t.cfg = s.cfg) (k : Nat) : pendingOwn t k = pendingOwn s k := by
  simp only [pendingOwn, cfgv_congr h]

theorem pendingMap_congr {s t : State} (h : t.cfg = s.cfg) (i : Nat) : pendingMap t i = pendingMap s i := cfgv_congr h ..

/-- A table written out over a list of keys gives each of them its value. -/
theorem find?_keys {α : Type} (f : Nat → α) {l : List Nat} {k : Nat} (h : k ∈ l) : Tbl.find? (l.map fun i => (i, f i)) k = some (f k) := by
  induction l with
  | nil => cases h
  | cons a l ih =>
    rw [List.map_cons, Tbl.find?]
    split
    · next e => rw [e]
    · next e => exact ih ((List.mem_cons.mp h).resolve_left e)

theorem activeOwn_of_table {s : State} {f : Nat → Nat} (ho : s.hed.own = (List.range 130).map fun h => (h, f h)) (h128 : f 128 = 1)
    (h129 : f 129 = 0) (h : Fin 130) : activeOwn s h = f h := by
  unfold activeOwn
  split
  · next e => rw [e, h128]
  · split
    · next e => rw [e, h129]
    · rw [ho, Tbl.get, find?_keys f (List.mem_range.mpr h.isLt), Option.getD_some]

theorem activeMap_of_table {s : State} {f : Nat → Nat} (hm : s.hed.map = (List.range 64).map fun i => (i, f i)) (i : Fin 64) :
    activeMap s i = f i := by
  rw [activeMap, hm, Tbl.get, find?_keys f (List.mem_range.mpr i.isLt), Option.getD_some]

/-- What an event leaves of the heddles' block, but for the denials to be recorded. -/
theorem event_hed_late (s : State) (c i d : Nat) : ∃ l, (event s c i d).hed = { s.hed with late := l } :=
  ((RulesKept.refl s).event c i d).hed

/-- A commit without an offence makes the pending sets the active ones under the next epoch. -/
theorem actHedCommit_commits {s : State} (hd : s.hed.draining = false) (ho : pendingOffence s = none) :
    ∃ c l, (actHedCommit s).hed = { (activate s).hed with
      epoch := if s.hed.epoch = 65535 then 1 else s.hed.epoch + 1, status := 1, detail := 0, changed := c, draining := true
      drainSince := s.now, late := l } := by
  simp only [actHedCommit, hd, Bool.false_eq_true, if_false, ho]
  exact ⟨_, ((RulesKept.refl _).event ..).hed⟩

theorem hedCommit_commits {sess : Nat} {s : State} (h : MayAct s sess 0x5000 2 1) (hd : s.hed.draining = false)
    (ho : pendingOffence s = none) :
    Leaves (.hedCommit sess 1) s fun t => t.hed.epoch = (if s.hed.epoch = 65535 then 1 else s.hed.epoch + 1) ∧ t.hed.status = 1 ∧
      t.hed.detail = 0 ∧ t.hed.draining = true ∧ t.hed.drainSince = s.now ∧ (∀ h : Fin 130, activeOwn t h = pendingOwn s h) ∧
      (∀ i : Fin 64, activeMap t i = pendingMap s i) := by
  have hcfg : (journalAction s sess 0x5000 2 1).cfg = s.cfg := journalAction_cfg ..
  obtain ⟨c, l, hl⟩ := actHedCommit_commits (s := journalAction s sess 0x5000 2 1) (by rwa [journalAction_hed])
    (by rwa [pendingOffence_congr hcfg])
  have hown := congrArg HedBlk.own hl
  have hmap := congrArg HedBlk.map hl
  refine ⟨_, rfl, ?_⟩
  dsimp only
  rw [actWrite_done h rfl, onOne_one, emit_hed, hl, journalAction_hed, journalAction_now]
  refine ⟨rfl, rfl, rfl, rfl, rfl, fun k => ?_, fun i => ?_⟩
  · exact (activeOwn_of_table hown rfl rfl k).trans (pendingOwn_congr hcfg k)
  · exact (activeMap_of_table hmap i).trans (pendingMap_congr hcfg i)

/-- A refused commit leaves its status and its detail. -/
theorem hedRefuse_hed (s : State) (detail : Nat) : ∃ l, (hedRefuse s detail).hed = { s.hed with status := 3, detail := detail, late := l } := by
  obtain ⟨l, hl⟩ := event_hed_late { s with hed := { s.hed with status := 3, detail := detail } } 0x0805 0 detail
  exact ⟨l, hl⟩

/-- A commit with an offence, or while another drains, is refused. -/
theorem actHedCommit_refuses {s : State} (h : s.hed.draining = true ∨ pendingOffence s ≠ none) : actHedCommit s =
    hedRefuse s (if s.hed.draining = true then 0x50000 else (pendingOffence s).getD 0) := by
  unfold actHedCommit
  by_cases hd : s.hed.draining = true
  · simp only [if_pos hd]
    rfl
  · obtain ⟨d, ho⟩ := Option.ne_none_iff_exists'.mp (h.resolve_left hd)
    simp only [if_neg hd, ho, Option.getD_some]

theorem hedCommit_refused {sess : Nat} {s : State} (h : MayAct s sess 0x5000 2 1)
    (hd : s.hed.draining = true ∨ pendingOffence s ≠ none) :
    Leaves (.hedCommit sess 1) s fun t => t.hed.status = 3 ∧
      t.hed.detail = (if s.hed.draining = true then 0x50000 else (pendingOffence s).getD 0) ∧ t.hed.active = s.hed.active ∧
      t.hed.own = s.hed.own ∧ t.hed.map = s.hed.map ∧ t.hed.epoch = s.hed.epoch := by
  have hp : pendingOffence (journalAction s sess 0x5000 2 1) = pendingOffence s := pendingOffence_congr (journalAction_cfg ..)
  obtain ⟨l, hl⟩ := hedRefuse_hed (journalAction s sess 0x5000 2 1)
    (if s.hed.draining = true then 0x50000 else (pendingOffence s).getD 0)
  refine ⟨_, rfl, ?_⟩
  dsimp only
  rw [actWrite_done h rfl, onOne_one, emit_hed, actHedCommit_refuses (by rwa [hp, journalAction_hed]), hp, journalAction_hed, hl,
    journalAction_hed]
  exact ⟨rfl, rfl, rfl, rfl, rfl, rfl⟩

theorem hedCommitComplete_ends {s : State} (hd : s.hed.draining = true) (hp : previousEpoch s = 0) :
    Leaves (.hedCommitComplete) s fun t => t.hed.status = 2 ∧ t.hed.draining = false ∧ t.hed.epoch = s.hed.epoch := by
  refine ⟨hedCommitComplete s, rfl, ?_⟩
  dsimp only [hedCommitComplete]
  rw [if_pos ⟨hd, hp⟩]
  obtain ⟨l, hl⟩ := event_hed_late { s with hed := { s.hed with status := 2, draining := false } } 0x0804 0
    (s.hed.epoch + at_ 32 ((s.now - s.hed.drainSince) / us % 2 ^ 32))
  rw [hl]
  exact ⟨rfl, rfl, rfl⟩

/-! ### The debug access port (R332, R334, R498) -/

/-- The log of a heddle with one more denial. -/
def deniedLog (s : State) (l : DenyLog) (cls kind addr region sub : Nat) : DenyLog :=
  { l with address := addr % 2 ^ 64, time := s.ft % 2 ^ 48, cls := cls, kind := kind, region := region, sub := sub
           epoch := s.hed.epoch, count := (l.count + 1) % 2 ^ 32 }

/-- A denial counted and recorded, before its event. -/
def denialLogged (s : State) (h cls kind : Nat) (inbound : Bool) (addr region sub : Nat) : State :=
  let s := privCount s (denyCounter h cls inbound)
  { s with hed := { s.hed with
      denied := Tbl.set s.hed.denied h (deniedLog s (Tbl.get s.hed.denied h {}) cls kind addr region sub) } }

theorem denied_reports (s : State) (h cls kind : Nat) (inbound : Bool) (addr region sub : Nat) :
    RulesKept (denialLogged s h cls kind inbound addr region sub) (denied s h cls kind inbound addr region sub) := by
  unfold denied
  dsimp only
  exact .ite ((RulesKept.refl _).event ..) (.ite ((RulesKept.refl _).event ..) ((RulesKept.refl _).rateEvent fun _ k => k.event ..))

/-- A denial is recorded at its heddle. -/
theorem denied_records (s : State) (h cls kind : Nat) (inbound : Bool) (addr region sub : Nat) :
    (Tbl.find? (denied s h cls kind inbound addr region sub).hed.denied h).map (fun l => (l.address, l.cls, l.kind, l.region, l.sub)) =
      some (addr % 2 ^ 64, cls, kind, region, sub) := by
  obtain ⟨l, hl⟩ := (denied_reports s h cls kind inbound addr region sub).hed
  rw [hl]
  dsimp only [denialLogged]
  rw [Tbl.find?_set_same]
  rfl

theorem getLast?_emit (s : State) (e : Emit) : (emit s e).tx.getLast? = some e := List.getLast?_concat ..

theorem debugAccess_denied {write : Bool} {addr len a r sub : Nat} {s : State} (hr : coreRuns s = true)
    (hc : heddleCheck s 128 { cls := 50, kind := b2n write, addr := addr, len := len } = .deny a r sub) :
    Leaves (.debugAccess write addr len) s fun t =>
      (Tbl.find? t.hed.denied 128).map (fun l => (l.address, l.cls, l.kind, l.region, l.sub)) =
        some (a % 2 ^ 64, 50, b2n write, r, sub) ∧
      (write = false → t.tx.getLast? = some (.tdo 0)) := by
  refine ⟨debugAccess write addr len s, rfl, ?_⟩
  simp only [debugAccess, hr, Bool.not_true, Bool.false_eq_true, if_false, hc]
  cases write with
  | false =>
    simp only [Bool.false_eq_true, if_false]
    exact ⟨denied_records .., fun _ => getLast?_emit ..⟩
  | true =>
    simp only [if_true]
    exact ⟨denied_records .., fun h => absurd h (by decide)⟩

theorem debugAccess_trim {addr len w : Nat} {s : State} (hr : coreRuns s = true)
    (hc : heddleCheck s 128 { cls := 50, kind := 0, addr := addr, len := len } = .region w) (hl : 0xF001000000 ≤ addr)
    (hh : addr + len ≤ 0xF001000000 + trimBytes) :
    Leaves (.debugAccess false addr len) s fun t =>
      t.tx.getLast? = some (.tdo (cfgv s 0x7F10 0 / 2 ^ (8 * (addr - 0xF001000000)) % 2 ^ (8 * len))) := by
  have hc : heddleCheck s 128 { cls := 50, kind := b2n false, addr := addr, len := len } = .region w := hc
  have hin : (decide (0xF001000000 ≤ addr) && decide (addr + len ≤ 0xF001000000 + trimBytes)) = true := by simp [hl, hh]
  refine ⟨debugAccess false addr len s, rfl, ?_⟩
  simp only [debugAccess, hr, Bool.not_true, Bool.false_eq_true, if_false, hc, if_pos hin, getLast?_emit]
  rw [cfgv_congr (passed_cfg ..)]

/-- Settles O32, a lemma for each clause. -/
theorem heddleCommits : Obligations.HeddleCommits := by
  unfold Obligations.HeddleCommits
  exact ⟨fun _ _ h hd ho => hedCommit_commits h hd ho,
    fun _ _ h hd => hedCommit_refused h hd,
    fun _ hd hp => hedCommitComplete_ends hd hp,
    fun _ _ _ _ _ _ _ hr hc => debugAccess_denied hr hc,
    fun _ _ _ _ hr hc hl hh => debugAccess_trim hr hc hl hh⟩

end Sys2Proof.Scope
end

section
/-!
What a class may do at a region, and the class bits that no installer sets (R328, R331, R335).
-/

namespace Sys2Proof.Scope

open Sys2Proof.Machine

/-! ### Rights (R327, R328) -/

theorem permits_rights {w : Nat} {a : Access} (h : permits w a = true) : (a.kind = 0 → bit w (192 + a.cls) = true) ∧
    (a.kind = 1 ∨ a.kind = 3 → bit w (128 + a.cls) = true) ∧
    (a.kind = 2 → bit w (192 + a.cls) = true ∧ bit w (128 + a.cls) = true) := by
  refine ⟨fun k => ?_, fun k => ?_, fun k => ?_⟩
  · simpa [permits, k] using h
  · rcases k with k | k
    · simpa [permits, k] using h
    · simpa [permits, k] using h
  · simpa [permits, k] using h

/-- The region that passes an access permits it: its first byte is among those that are checked. -/
theorem regionCheck_permits {s : State} {h lo hi w : Nat} {a : Access} (hw : regionCheck s h lo hi a = .region w) :
    permits w a = true := by
  unfold regionCheck at hw
  dsimp only at hw
  split at hw
  · split at hw
    · cases hw
    · cases hw
  · next hbad =>
    split at hw
    · next r hr =>
      cases hw
      have hfirst := List.find?_eq_none.mp hbad a.addr (List.mem_cons_self ..)
      simpa only [hr, Bool.not_eq_true, Bool.not_eq_false'] using hfirst
    · cases hw

theorem heddleCheck_permits {s : State} {h w : Nat} {a : Access} (hw : heddleCheck s h a = .region w) : permits w a = true := by
  unfold heddleCheck at hw
  split at hw
  · exact regionCheck_permits hw
  · split at hw
    · split at hw
      · cases hw
      · exact regionCheck_permits hw
    · split at hw
      · cases hw
      · exact regionCheck_permits hw

/-! ### Class bits -/

theorem bit_eq_testBit (x i : Nat) : bit x i = x.testBit i := by
  rw [bit, Nat.testBit_eq_decide_div_mod_eq, Nat.shiftRight_eq_div_pow]

theorem testBit_bits (x lo n i : Nat) : (bits x lo n).testBit i = (decide (i < n) && x.testBit (lo + i)) := by
  rw [bits, Nat.testBit_mod_two_pow, Nat.testBit_shiftRight]

/-- A region of the installer's with one of the class bits from 50 on is an offence. -/
theorem regionCause_class {h r w c : Nat} (hl : lockedRegion h r = false) (hc : 50 ≤ c) (hn : c < 64)
    (hb : bit w (192 + c) = true ∨ bit w (128 + c) = true) : regionCause h r w ≠ 0 := by
  have hboth : bits (bits w 192 64 ||| bits w 128 64) 50 14 ≠ 0 := by
    intro he
    have hz : (bits (bits w 192 64 ||| bits w 128 64) 50 14).testBit (c - 50) = true := by
      rw [testBit_bits, decide_eq_true (by omega), Bool.true_and, Nat.testBit_or, testBit_bits, testBit_bits,
        show 50 + (c - 50) = c by omega, decide_eq_true hn, ← bit_eq_testBit, ← bit_eq_testBit]
      simpa using hb
    rw [he, Nat.zero_testBit] at hz
    cases hz
  simp only [regionCause, hl, Bool.false_eq_true, if_false]
  split
  · decide
  · split
    · decide
    · rw [if_pos (by simp [hboth])]
      decide

theorem pendingOffence_of_region {s : State} {h r : Nat} (hh : h < 130) (hr : r < 64) (hc : regionCause h r (pendingRegion s h r) ≠ 0) :
    pendingOffence s ≠ none := by
  intro hn
  unfold pendingOffence at hn
  dsimp only at hn
  split at hn
  · cases hn
  · next hnone =>
    refine List.find?_eq_none.mp hnone (h, r) ?_ (decide_eq_true hc)
    exact List.mem_flatMap.mpr ⟨h, List.mem_range.mpr hh, List.mem_map.mpr ⟨r, List.mem_range.mpr hr, rfl⟩⟩

theorem hedCommit_classBit {s : State} {sess h r c : Nat} (hm : MayAct s sess 0x5000 2 1) (hh : h < 130) (hr : r < 64)
    (hl : lockedRegion h r = false) (hc : 50 ≤ c) (hn : c < 64)
    (hb : bit (pendingRegion s h r) (192 + c) = true ∨ bit (pendingRegion s h r) (128 + c) = true) :
    Leaves (.hedCommit sess 1) s fun t => t.hed.active = s.hed.active ∧ t.hed.own = s.hed.own ∧ t.hed.map = s.hed.map := by
  obtain ⟨t, ht, -, -, hactive, hown, hmap, -⟩ :=
    hedCommit_refused hm (.inr (pendingOffence_of_region hh hr (regionCause_class hl hc hn hb)))
  exact ⟨t, ht, hactive, hown, hmap⟩

/-! ### The locked regions (R331, R553) -/

theorem lockedClasses_lt (r : Nat) (o : Bool) : (lockedClasses r o).1 < 2 ^ 51 ∧ (lockedClasses r o).2 < 2 ^ 51 := by
  unfold lockedClasses
  cases o with
  | false => dsimp only; split <;> decide
  | true => dsimp only; split <;> decide

/-- What stands below the class masks of a locked region. -/
theorem lockedPlace_lt (r : Nat) : at_ 80 ((lockedPlace r).1 / 65536) + at_ 74 (lockedPlace r).2.1 + at_ 65 (b2n (lockedPlace r).2.2) +
    at_ 64 1 < 2 ^ 128 := by
  unfold lockedPlace
  split <;> decide

/-- A region's word by its two class masks and what stands below them. -/
theorem testBit_masks {a b low c : Nat} (hb : b < 2 ^ 64) (hl : low < 2 ^ 128) (hc : c < 64) :
    (2 ^ 192 * a + (2 ^ 128 * b + low)).testBit (192 + c) = a.testBit c ∧
    (2 ^ 192 * a + (2 ^ 128 * b + low)).testBit (128 + c) = b.testBit c := by
  have hlow : 2 ^ 128 * b + low < 2 ^ 192 := by omega
  constructor
  · rw [Nat.testBit_two_pow_mul_add _ hlow, if_neg (by omega), show 192 + c - 192 = c by omega]
  · rw [Nat.testBit_two_pow_mul_add _ hlow, if_pos (by omega), Nat.testBit_two_pow_mul_add _ hl, if_neg (by omega),
      show 128 + c - 128 = c by omega]

theorem at_eq_mul (lo v : Nat) : at_ lo v = 2 ^ lo * v := by
  rw [at_, Nat.shiftLeft_eq, Nat.mul_comm]

theorem lockedWord_masks (s : State) (r : Nat) : lockedWord s r = 2 ^ 192 * (lockedClasses r s.vault.debugOpen).1 +
    (2 ^ 128 * (lockedClasses r s.vault.debugOpen).2 + (at_ 80 ((lockedPlace r).1 / 65536) + at_ 74 (lockedPlace r).2.1 +
      at_ 65 (b2n (lockedPlace r).2.2) + at_ 64 1)) := by
  dsimp only [lockedWord]
  rw [at_eq_mul 192, at_eq_mul 128]
  simp only [Nat.add_assoc]

theorem lockedRegion_classes {s : State} {r c : Nat} (hl : lockedRegion 128 r = true) (hc : 51 ≤ c) (hn : c < 64) :
    bit (activeRegion s 128 r) (192 + c) = false ∧ bit (activeRegion s 128 r) (128 + c) = false := by
  obtain ⟨hread, hwrite⟩ := lockedClasses_lt r s.vault.debugOpen
  obtain ⟨h192, h128⟩ := testBit_masks (a := (lockedClasses r s.vault.debugOpen).1) (lt_trans hwrite (by decide)) (lockedPlace_lt r) hn
  have hp : 2 ^ 51 ≤ 2 ^ c := Nat.pow_le_pow_right (by decide) hc
  rw [activeRegion, if_pos hl, bit_eq_testBit, bit_eq_testBit, lockedWord_masks, h192, h128]
  exact ⟨Nat.testBit_lt_two_pow (lt_of_lt_of_le hread hp), Nat.testBit_lt_two_pow (lt_of_lt_of_le hwrite hp)⟩

/-- Settles O58: what passes an access permits it, an offence keeps the active sets, and the locked regions' masks end below bit 51. -/
theorem classRights : Obligations.ClassRights := by
  unfold Obligations.ClassRights
  exact ⟨fun _ _ _ _ hw => permits_rights (heddleCheck_permits hw),
    fun _ _ _ _ _ hm hh hr hl hc hn hb => hedCommit_classBit hm hh hr hl hc hn hb,
    fun _ _ _ hl hc hn => lockedRegion_classes hl hc hn⟩

end Sys2Proof.Scope
end

section
/-!
The selvedge: isolation of a partition, its routing state, and the error logs (R344, R351, R352).
-/

namespace Sys2Proof.Scope

open Sys2Proof.Machine

theorem partOf_setPart_eq (s : State) (v : Vs) (x : Partition) : partOf (setPart s v x) v = x := vget_vset_fin ..

theorem vsState_congr {s t : State} (hw : t.warp = s.warp) (hc : t.cfg = s.cfg) (v : Nat) : vsState t v = vsState s v := by
  rw [vsState, vsState, partEnabled_congr hc, partOf_congr (congrArg WarpBlk.part hw)]

/-! ### Isolation (R341, R343, R351) -/

theorem rateEvent_warp {s : State} {c p g : Nat} {put : State → Nat → State} (h : ∀ u n, (put u n).warp = u.warp) :
    (rateEvent s c p g put).warp = s.warp := by
  simp only [rateEvent, apply_ite State.warp, h, ite_self]

/-- A contained error that the advanced error reports have no bit for is charged to its partition, and nothing else of the warp block moves. -/
theorem selContained_warp {s : State} {x cause action v header : Nat} (ha : aerBit cause = none) :
    (selContained s x cause action (some v) header).warp =
      (setPart s v { partOf s v with errors := ((partOf s v).errors + 1) % 2 ^ 32 }).warp := by
  have hl : (selLatch (aerLog s x cause header) x cause action (some v) header).warp = s.warp := by
    rw [aerLog, ha]
    rfl
  dsimp only [selContained]
  rw [rateEvent_warp fun u n => eventFull_warp .., count_warp]
  simp only [setPart, partOf, count_warp, hl]

theorem discardPartIde_part (s : State) (v : Nat) : (discardPartIde s v).warp.part = s.warp.part :=
  foldl_stands (g := fun u : State => u.warp.part) (fun u p => discardIde_part u p 2) _ s

theorem isolate_isolates {s : State} {v : Vs} {cause : Nat} (ha : aerBit cause = none) (hv : vsState s v ≠ 0) :
    (partOf (isolate s v cause) v).st = 3 ∧ (partOf (isolate s v cause) v).isolateCause = cause ∧
      (partOf (isolate s v cause) v).reloading = none ∧ (∀ w : Vs, w ≠ v → partOf (isolate s v cause) w = partOf s w) := by
  have hp : (isolate s v cause).warp.part = (setPart (selContained s 128 cause 5 (some v.val) 0) v
      { partOf (selContained s 128 cause 5 (some v.val) 0) v with st := 3, isolateCause := cause, reloading := none }).warp.part := by
    dsimp only [isolate]
    rw [if_neg hv, eventFull_warp, discardPartIde_part, count_warp]
  refine ⟨?_, ?_, ?_, fun w hw => ?_⟩
  · rw [partOf_congr hp, partOf_setPart_eq]
  · rw [partOf_congr hp, partOf_setPart_eq]
  · rw [partOf_congr hp, partOf_setPart_eq]
  · rw [partOf_congr hp, partOf_setPart_ne hw, partOf_congr (congrArg WarpBlk.part (selContained_warp ha)), partOf_setPart_ne hw]

theorem selIsolateCmd_isolates {sess : Nat} {v : Vs} {s : State} (h : MayAct s sess 0x5106 (v + 1) 1) (h0 : vsState s v ≠ 0)
    (h3 : vsState s v ≠ 3) :
    Leaves (.selIsolateCmd sess v 1) s fun t => (partOf t v.val).st = 3 ∧ (partOf t v.val).isolateCause = 27 ∧
      (partOf t v.val).reloading = none ∧ (∀ w : Vs, w ≠ v → partOf t w = partOf s w) := by
  have hs : ∀ k, vsState (journalAction s sess 0x5106 (v + 1) 1) k = vsState s k :=
    vsState_congr (journalAction_warp ..) (journalAction_cfg ..)
  obtain ⟨hst, hcause, hreload, hothers⟩ := isolate_isolates (s := journalAction s sess 0x5106 (v + 1) 1) (v := v) (cause := 27) rfl
    (by rwa [hs])
  refine ⟨_, rfl, ?_⟩
  dsimp only
  rw [actWrite_done h rfl, onOne_one, actSelIsolate, hs, if_neg h3]
  refine ⟨hst, hcause, hreload, fun w hw => ?_⟩
  exact (hothers w hw).trans (partOf_congr (by rw [journalAction_warp]) w)

/-! ### Routing state (R352) -/

theorem routingStateError_reloads {v : Vs} {s : State} (h0 : vsState s v ≠ 0) (hl : (partOf s v.val).reloading = none)
    (hr : coreRuns s = true) :
    Leaves (.routingStateError v) s fun t => partOf t v.val = { partOf s v.val with reloading := some s.now } := by
  refine ⟨routingStateError v s, rfl, ?_⟩
  dsimp only [routingStateError]
  rw [if_neg (by simp [h0, hl, hr]), partOf_setPart_eq]

/-- A correctable error that is no receiver error leaves the warp block. -/
theorem selCorrectable_warp {s : State} {x cause : Nat} (h : cause ≠ 1) : (selCorrectable s x cause).warp = s.warp := by
  unfold selCorrectable
  extract_lets t1 t2 c1 c2 c3 lim due _ t3
  have h3 : t3.warp = s.warp := (congrArg State.warp (if_neg h)).trans (count_warp ..)
  split
  · exact (eventFull_warp ..).trans h3
  · exact h3

theorem shadowReloadDone_restores {v : Vs} {t0 : Nat} {s : State} (hl : (partOf s v.val).reloading = some t0) :
    Leaves (.shadowReloadDone v true) s fun t => partOf t v.val = { partOf s v.val with reloading := none } := by
  refine ⟨shadowReloadDone v true s, rfl, ?_⟩
  simp only [shadowReloadDone, hl, if_true]
  rw [partOf_congr (congrArg WarpBlk.part ((event_warp ..).trans ((count_warp ..).trans (selCorrectable_warp (by decide))))),
    partOf_setPart_eq]

theorem shadowReloadDone_isolates {v : Vs} {t0 : Nat} {s : State} (hl : (partOf s v.val).reloading = some t0)
    (h0 : vsState s v ≠ 0) :
    Leaves (.shadowReloadDone v false) s fun t => (partOf t v.val).st = 3 ∧ (partOf t v.val).isolateCause = 26 ∧
      (partOf t v.val).reloading = none := by
  have hs : vsState (setPart s v { partOf s v.val with reloading := none }) v = vsState s v := by
    rw [vsState, vsState, partEnabled_congr (setPart_cfg ..), partOf_setPart_eq]
  obtain ⟨hst, hcause, hreload, -⟩ := isolate_isolates (v := v) (cause := 26) rfl (hs ▸ h0)
  refine ⟨shadowReloadDone v false s, rfl, ?_⟩
  simp only [shadowReloadDone, hl, Bool.false_eq_true, if_false]
  exact ⟨hst, hcause, hreload⟩

/-! ### The error logs (R344) -/

theorem selErrClear_clears {sess : Nat} {d : Dest} {s : State} (h : MayAct s sess 0x5102 (d + 1) 1) :
    Leaves (.selErrClear sess d 1) s fun t => Tbl.find? t.sel.log d.val = none ∧
      (∀ e : Dest, e ≠ d → Tbl.find? t.sel.log e.val = Tbl.find? s.sel.log e.val) := by
  refine ⟨_, rfl, ?_⟩
  dsimp only
  rw [actWrite_done h rfl, onOne_one, emit_sel, actSelErrClear, journalAction_sel]
  refine ⟨?_, fun e he => ?_⟩
  · rw [Tbl.find?_erase, if_pos rfl]
  · rw [Tbl.find?_erase, if_neg (Fin.val_ne_of_ne he)]

/-- Settles O33, a lemma for each clause. -/
theorem selvedgeActs : Obligations.SelvedgeActs := by
  unfold Obligations.SelvedgeActs
  exact ⟨fun _ _ _ h h0 h3 => selIsolateCmd_isolates h h0 h3,
    fun _ _ h0 hl hr => routingStateError_reloads h0 hl hr,
    fun _ _ _ hl => shadowReloadDone_restores hl,
    fun _ _ _ hl h0 => shadowReloadDone_isolates hl h0,
    fun _ _ _ h => selErrClear_clears h⟩

end Sys2Proof.Scope
end

section
/-!
The twin pair: mirror records, silence, loss and the mirror rate (R364, R365, R366, R370, R371; log entries 35, 38).
-/

namespace Sys2Proof.Scope

open Sys2Proof.Machine Sys2Proof.Laws

/-! ### Records (R364, R365) -/

/-- Bytes that are one whole record are that record, and leave none. -/
theorem takeRecords_one {s : State} {bs : List Byte} {n : Nat} (hn : bits (leAt bs 0 16) 111 13 = n) (hl : bs.length = 16 + n) :
    takeRecords (bs.length + 1) s bs = (takeRecord s (leAt bs 0 16) ((bs.drop 16).take n), []) := by
  have hrest : bs.drop (16 + n) = [] := List.drop_eq_nil_of_le (by omega)
  have hnil : ∀ (u : State) (k : Nat), takeRecords k u [] = (u, []) := fun u k => by
    cases k with
    | zero => rfl
    | succ k => simp [takeRecords]
  rw [takeRecords, if_neg (by simp [hn, hl]), hn, hrest, hnil]

/-- The oldest WRITE of the twin connection is taken. -/
def recordsTaken (s : State) (rest : List (Nat × List Byte)) : State := { s with twin := { s.twin with inbox := rest } }

/-- A WRITE of class 0 that is one whole record. -/
theorem takeMirror_one {s : State} {bs : List Byte} {rest : List (Nat × List Byte)} {ord n : Nat} (hi : s.twin.inbox = (ord, bs) :: rest)
    (ho : ord % 2 = 0) (hp : s.twin.partial0 = []) (hn : bits (leAt bs 0 16) 111 13 = n) (hl : bs.length = 16 + n) :
    (takeMirror s).twin =
      { (takeRecord (recordsTaken s rest) (leAt bs 0 16) ((bs.drop 16).take n)).twin with partial0 := [] } := by
  have hall : (if ord % 2 = 0 then s.twin.partial0 else s.twin.partial1) ++ bs = bs := by rw [if_pos ho, hp, List.nil_append]
  have htake := takeRecords_one (s := recordsTaken s rest) hn hl
  unfold takeMirror
  rw [hi]
  dsimp only
  rw [hall]
  dsimp only [recordsTaken] at htake
  rw [htake]
  dsimp only
  rw [if_pos ho]
  rfl

theorem takeMirror_cfg (s : State) : (takeMirror s).cfg = s.cfg :=
  (takeMirror_keeps (mk := 7431040) (Keeps.refl s) (by decide)).cfg (by decide)

/-- A CONN record of an open connection is kept as its context. -/
theorem takeRecord_conn {s : State} {head : Nat} {data : List Byte} (hk : bits head 124 4 = 3) (hc : bits head 51 4 ≠ 4) :
    (takeRecord s head data).twin = { s.twin with
      conns := Tbl.set s.twin.conns (bits head 97 14) (MirrorConn.mk (data.take 40) (leAt data 40 8) (leAt data 48 8)) } := by
  simp only [takeRecord, hk, if_neg hc, count_twin]

theorem takeRecord_gone {s : State} {head : Nat} {data : List Byte} (hk : bits head 124 4 = 4) :
    (takeRecord s head data).twin = { s.twin with gone := true } := by
  simp only [takeRecord, hk, count_twin]

theorem mirrorRecordReceive_conn {bs : List Byte} {rest : List (Nat × List Byte)} {ord : Nat} {s : State}
    (hi : s.twin.inbox = (ord, bs) :: rest) (ho : ord % 2 = 0) (hp : s.twin.partial0 = [])
    (hl : bs.length = 16 + bits (leAt bs 0 16) 111 13) (hk : bits (leAt bs 0 16) 124 4 = 3) (hc : bits (leAt bs 0 16) 51 4 ≠ 4)
    (hg : s.twin.gone = false) :
    LeavesSettling (.mirrorRecordReceive) s fun t => (Tbl.find? t.twin.conns (bits (leAt bs 0 16) 97 14)).map
        (fun m => (m.ctx, m.nonceI, m.nonceR)) = some (((bs.drop 16).take (bits (leAt bs 0 16) 111 13)).take 40,
          leAt ((bs.drop 16).take (bits (leAt bs 0 16) 111 13)) 40 8, leAt ((bs.drop 16).take (bits (leAt bs 0 16) 111 13)) 48 8) ∧
      t.twin.inbox = rest ∧ t.twin.partial0 = [] := by
  have ht := takeMirror_one hi ho hp rfl hl
  rw [takeRecord_conn hk hc] at ht
  refine ⟨mirrorRecordReceive s, rfl, ?_⟩
  dsimp only [mirrorRecordReceive]
  rw [if_neg (by rw [ht]; simp [recordsTaken, hg]), ht]
  dsimp only
  rw [Tbl.find?_set_same]
  exact ⟨rfl, rfl, rfl⟩

/-! ### The twin declared lost (R371) -/

theorem setTwin_twin {st : TwinSt} (h : st ≠ .joining) (s : State) :
    (setTwin s st).twin = { s.twin with st := st, catching := false } := by
  dsimp only [setTwin]
  rw [if_neg h]
  simp only [apply_ite State.twin, twinEvent, event_twin, ite_self]

theorem adoptContexts_twin (s : State) : (adoptContexts s).twin = s.twin :=
  (adoptContexts_keeps (mk := 2048) (Keeps.refl s) (by decide)).twin (by decide)

theorem adoptContexts_fab (s : State) : (adoptContexts s).fab = s.fab :=
  (adoptContexts_keeps (mk := 2048) (Keeps.refl s) (by decide)).fab (by decide)

theorem adoptContexts_cfg (s : State) : (adoptContexts s).cfg = s.cfg :=
  (adoptContexts_keeps (mk := 2048) (Keeps.refl s) (by decide)).cfg (by decide)

theorem setTwin_cfg (s : State) (st : TwinSt) : (setTwin s st).cfg = s.cfg :=
  (setTwin_keeps (mk := 7431040) (Keeps.refl s) (by decide)).cfg (by decide)

/-- The loss is reported, and the lost twin noted. -/
def lossTold (s : State) (cause : Nat) : State :=
  let s := twinEvent s 0x0D03 (at_ 16 cause)
  { s with twin := { s.twin with lostMid := twinMid s, contextsClosed := 0, replaying := false } }

/-- In fabric mode, a half that is joined begins to adopt, and the replay waits. -/
theorem twinDeclare_adopts {s : State} (hs : s.twin.st = .protected_) (hf : fabricOn s = true) (cause : Nat) :
    (twinDeclare s cause).twin = { s.twin with
      lostMid := twinMid s, contextsClosed := 0, replaying := false, st := .adopting, catching := false } ∧
    (twinDeclare s cause).fab = s.fab := by
  have hd : twinDeclare s cause = health (adoptContexts (setTwin (lossTold s cause) .adopting)) 0 := by
    simp only [twinDeclare, hs]
    rw [if_pos]
    · rfl
    · refine (fabricOn_congr ?_).trans hf
      rw [health_cfg, adoptContexts_cfg, setTwin_cfg]
      exact event_cfg ..
  have ht : (lossTold s cause).twin = { s.twin with lostMid := twinMid s, contextsClosed := 0, replaying := false } := by
    simp only [lossTold, twinEvent, event_twin, twinMid, cfgv_congr (event_cfg ..)]
  rw [hd]
  constructor
  · rw [health_twin, adoptContexts_twin, setTwin_twin (by decide), ht]
  · rw [health_fab, adoptContexts_fab, setTwin_fab]
    exact event_fab ..

theorem mirrorRecordReceive_gone {bs : List Byte} {rest : List (Nat × List Byte)} {ord : Nat} {s : State}
    (hi : s.twin.inbox = (ord, bs) :: rest) (ho : ord % 2 = 0) (hp : s.twin.partial0 = []) (hl : bs.length = 16)
    (hn : bits (leAt bs 0 16) 111 13 = 0) (hk : bits (leAt bs 0 16) 124 4 = 4) (hs : s.twin.st = .protected_)
    (hf : fabricOn s = true) :
    LeavesSettling (.mirrorRecordReceive) s fun t => t.twin.st = .adopting ∧ t.twin.lostMid = twinMid s ∧ t.twin.inbox = rest := by
  have ht := takeMirror_one hi ho hp hn (by rw [hl])
  rw [takeRecord_gone hk] at ht
  obtain ⟨htwin, -⟩ := twinDeclare_adopts (s := takeMirror s) (by rw [ht]; exact hs) ((fabricOn_congr (takeMirror_cfg s)).trans hf) 1
  refine ⟨mirrorRecordReceive s, rfl, ?_⟩
  dsimp only [mirrorRecordReceive]
  rw [if_pos (by rw [ht]), htwin, ht]
  exact ⟨rfl, cfgv_congr (takeMirror_cfg s) .., rfl⟩

/-- What the adoption tells the master is told once. -/
theorem adoptionReports_adopting {s : State} (hs : s.twin.st = .adopting) (hf : fabricOn s = true) :
    (adoptionReports s).twin = s.twin ∧ (adoptionReports s).fab.adoptTold = some (s.fab.adoptTold.getD s.twin.lostMid) := by
  have htold : ∀ (u : State) (k p m n : Nat), (memberReport u k p m n).fab.adoptTold = u.fab.adoptTold := fun u k p m n => by
    unfold memberReport
    split
    · rfl
    · rw [ctlToMaster_fab]
  simp only [adoptionReports, hf, Bool.not_true, Bool.false_eq_true, if_false, hs]
  cases ha : s.fab.adoptTold with
  | none => exact ⟨(memberReport_keeps (mk := 7368576) (Keeps.refl _) (by decide)).twin (by decide), htold ..⟩
  | some m => exact ⟨rfl, ha⟩

theorem twinLostDeclare_adopts {s : State} (hc : lostCause s ≠ 0) (hs : s.twin.st = .protected_) (hf : fabricOn s = true) :
    LeavesSettling (.twinLostDeclare) s fun t => t.twin.st = .adopting ∧ t.twin.lostMid = twinMid s ∧
      t.fab.adoptTold = some (s.fab.adoptTold.getD (twinMid s)) := by
  obtain ⟨htwin, hfab⟩ := twinDeclare_adopts hs hf (lostCause s)
  obtain ⟨hr, htold⟩ := adoptionReports_adopting (s := twinDeclare s (lostCause s)) (by rw [htwin])
    ((fabricOn_congr ((twinDeclare_keeps (mk := 8388605) (Keeps.refl s) (by decide)).cfg (by decide))).trans hf)
  refine ⟨twinLostDeclare s, rfl, ?_⟩
  dsimp only [twinLostDeclare]
  rw [if_neg hc, hr, htold, htwin, hfab]
  exact ⟨rfl, rfl, rfl⟩

theorem twinLostDeclare_stands {s : State} (hc : lostCause s = 0) : LeavesSettling (.twinLostDeclare) s fun t => t = s := by
  refine ⟨twinLostDeclare s, rfl, ?_⟩
  dsimp only [twinLostDeclare]
  rw [if_pos hc]

/-! ### Silence (R370) -/

theorem twinLinkCheck_twin (s : State) : ∃ n h, (twinLinkCheck s).twin = { s.twin with linksTold := n, heldTold := h } := by
  unfold twinLinkCheck
  dsimp only
  split
  · exact ⟨s.twin.linksTold, s.twin.heldTold, rfl⟩
  · exact ⟨_, _, event_twin ..⟩

/-- A half that enters FENCED leaves the pair, and the silence that it has seen stands. -/
theorem twinCheck_silentAt {s : State} (hm : s.module.state = .fenced) (hs : s.twin.st = .protected_) :
    (twinCheck s).twin.silentAt = s.twin.silentAt := by
  obtain ⟨n, h, hl⟩ := twinLinkCheck_twin s
  have hlm : (twinLinkCheck s).module.state = .fenced :=
    (congrArg ModBlk.state ((twinLinkCheck_keeps (mk := 7430144) (Keeps.refl s) (by decide)).module (by decide))).trans hm
  have hmove : twinMove (twinLinkCheck s) = setTwin (twinLinkCheck s) .fenced := by simp only [twinMove, hl, hs, hlm]
  have hst : (setTwin (twinLinkCheck s) .fenced).twin.st = .fenced := by rw [setTwin_twin (by decide)]
  have hend : adoptionEnd (setTwin (twinLinkCheck s) .fenced) = setTwin (twinLinkCheck s) .fenced := by simp [adoptionEnd, hst]
  have hcatch : catchUpMove (setTwin (twinLinkCheck s) .fenced) = setTwin (twinLinkCheck s) .fenced := by simp [catchUpMove, hst]
  unfold twinCheck
  split
  · rw [health_twin, hmove, hend, hcatch, setTwin_twin (by decide), hl]
  · rfl

theorem fencedEntry_silentAt {s : State} (hm : s.module.state = .service) (hs : s.twin.st = .protected_) (cause : Nat) :
    (fencedEntry s cause).twin.silentAt = s.twin.silentAt := by
  simp only [fencedEntry, hm]
  rw [twinCheck_silentAt (changeState_state ..)]
  · rw [changeState_twin]
    exact congrArg TwinBlk.silentAt (event_twin ..)
  · rw [changeState_twin]
    exact (congrArg TwinBlk.st (event_twin ..)).trans hs

theorem twinSilence_splits {s : State} (hf : fabricOn s = false) (he : cfgOn s 0x5201 0 = true) (hs : s.twin.st = .protected_)
    (hm : s.module.state = .service) (hq : s.twin.silentAt = none) (hh : twinHeard s = false)
    (ht : s.module.since + 20000000 ≤ s.now) (hw : cfgv s 0x4102 1 = 0) :
    Leaves (.twinSilence) s fun t => t.twin.silentAt = some s.now ∧
      t.module.state = (if cfgv s 0x5202 0 = 0 then .service else .fenced) := by
  have he20 : elapsed s s.module.since (20 * ms) = true := decide_eq_true ht
  have hsplit : twinSplit s = { s with twin := { s.twin with silentAt := some s.now, leaseSince := false } } := by
    simp [twinSplit, he, hq]
  have hw : cfgv (twinSplit s) 0x4102 1 = 0 := by rw [cfgv_congr (twinSplit_cfg s), hw]
  have hj : cfgv (twinSplit s) 0x5202 0 = cfgv s 0x5202 0 := cfgv_congr (twinSplit_cfg s) ..
  refine ⟨twinSilence s, rfl, ?_⟩
  dsimp only [twinSilence]
  rw [if_neg (by simp [hf, he, hs, hm, hq, hh, he20]), if_pos hw, hj]
  split
  · rw [hsplit]
    exact ⟨rfl, hm⟩
  · have hm' : (twinSplit s).module.state = .service := by rw [hsplit]; exact hm
    rw [fencedEntry_silentAt hm' (by rw [hsplit]; exact hs), (fencedEntry_fences (.inl hm') 3).1, hsplit]
    exact ⟨rfl, rfl⟩

theorem twinSilence_stands {s : State} (h : fabricOn s = true ∨ s.twin.silentAt.isSome = true ∨ twinHeard s = true) :
    Leaves (.twinSilence) s fun t => t = s := by
  refine ⟨twinSilence s, rfl, ?_⟩
  dsimp only [twinSilence]
  rw [if_pos]
  rcases h with h | h | h <;> simp [h]

/-! ### The mirror rate (R366) -/

theorem mirrorRateAlert_ends {s : State} (he : cfgOn s 0x5201 0 = true) (ht : s.twin.rateAt + 1000000 ≤ s.now) :
    LeavesSettling (.mirrorRateAlert) s fun t => t.twin.gbps = s.twin.rateBytes * 8 / (s.now - s.twin.rateAt) ∧ t.twin.rateBytes = 0 ∧
      t.twin.rateAt = s.now := by
  have hc : elapsed s s.twin.rateAt ms = true := decide_eq_true ht
  refine ⟨mirrorRateAlert s, rfl, ?_⟩
  dsimp only [mirrorRateAlert]
  rw [if_neg (by simp [he, hc])]
  simp only [twinEvent, apply_ite State.twin, event_twin, apply_ite TwinBlk.gbps, apply_ite TwinBlk.rateBytes,
    apply_ite TwinBlk.rateAt, ite_self, and_self]

/-- Settles O34, a lemma for each clause. -/
theorem twinPair : Obligations.TwinPair := by
  unfold Obligations.TwinPair
  exact ⟨fun _ _ _ _ hi ho hp hl hk hc hg => mirrorRecordReceive_conn hi ho hp hl hk hc hg,
    fun _ _ _ _ hi ho hp hl hn hk hs hf => mirrorRecordReceive_gone hi ho hp hl hn hk hs hf,
    fun _ hf he hs hm hq hh ht hw => twinSilence_splits hf he hs hm hq hh ht hw,
    fun _ h => twinSilence_stands h,
    fun _ hc hs hf => twinLostDeclare_adopts hc hs hf,
    fun _ hc => twinLostDeclare_stands hc,
    fun _ he ht => mirrorRateAlert_ends he ht⟩

end Sys2Proof.Scope
end

section
/-!
Rules of the dobby (R386, R397, R400): what ends an item, and what its list keeps.
-/

namespace Sys2Proof.Scope

open Sys2Proof.Machine Sys2Proof.Laws

/-! ### The list of items -/

/-- Every item of `js` stands in `is`, by its number and by whether it is on the bus. -/
def ItemsOf (is js : List DobItem) : Prop := ∀ j ∈ js, ∃ i ∈ is, i.item = j.item ∧ i.started = j.started

theorem ItemsOf.refl (is : List DobItem) : ItemsOf is is := fun j hj => ⟨j, hj, rfl, rfl⟩

theorem ItemsOf.trans {is js ks : List DobItem} (h : ItemsOf is js) (k : ItemsOf js ks) : ItemsOf is ks := fun x hx => by
  obtain ⟨j, hj, hji, hjs⟩ := k x hx
  obtain ⟨i, hi, hii, his⟩ := h j hj
  exact ⟨i, hi, hii.trans hji, his.trans hjs⟩

theorem ItemsOf.filter (is : List DobItem) (p : DobItem → Bool) : ItemsOf is (is.filter p) := fun j hj =>
  ⟨j, (List.mem_filter.mp hj).1, rfl, rfl⟩

/-- An item takes its place again. -/
theorem ItemsOf.set {is : List DobItem} {x : DobItem} (h : ∃ i ∈ is, i.item = x.item ∧ i.started = x.started) :
    ItemsOf is (is.map fun i => if i.item = x.item then x else i) := fun j hj => by
  obtain ⟨i, hi, rfl⟩ := List.mem_map.mp hj
  by_cases hx : i.item = x.item
  · rw [if_pos hx]
    exact h
  · rw [if_neg hx]
    exact ⟨i, hi, rfl, rfl⟩

theorem dropRef_dob (s : State) (id : Nat) : (dropRef s id).dob = s.dob :=
  (dropRef_keeps (mk := 7365504) (Keeps.refl s) (by decide)).dob (by decide)

/-- Held writes enter the FIFO: of the dobby's block only the list changes. -/
theorem holdMoves_dob (k : Nat) (s : State) : ∃ is, (holdMoves k s).dob = { s.dob with items := is } ∧ ItemsOf s.dob.items is := by
  induction k generalizing s with
  | zero => exact ⟨s.dob.items, rfl, .refl _⟩
  | succ k ih =>
    have stands : ∃ is, s.dob = { s.dob with items := is } ∧ ItemsOf s.dob.items is := ⟨s.dob.items, rfl, .refl _⟩
    unfold holdMoves
    split
    · next i hi =>
      split
      · next c hc =>
        split
        · obtain ⟨is, his, hof⟩ := ih (dropRef (setItem s { i with chain := none }) c)
          rw [dropRef_dob] at his hof
          exact ⟨is, his, (ItemsOf.set (x := { i with chain := none }) ⟨i, List.mem_of_find?_eq_some hi, rfl, rfl⟩).trans hof⟩
        · exact stands
      · exact stands
    · exact stands

/-! ### Who has the bus (R398) -/

theorem busYield_dob (s : State) : ∃ h w, (busYield s).dob = { s.dob with holdsBus := h, busWanted := w } := by
  unfold busYield
  split
  · exact ⟨false, none, rfl⟩
  · exact ⟨s.dob.holdsBus, s.dob.busWanted, rfl⟩

theorem busYield_stands (s : State) : (busYield s).dob.items = s.dob.items ∧ (busYield s).dob.lock = s.dob.lock := by
  obtain ⟨h, w, hd⟩ := busYield_dob s
  rw [hd]
  exact ⟨rfl, rfl⟩

/-- With no other master waiting, the bus stays as it is. -/
theorem busYield_idle {s : State} (h : s.dob.busWanted = none) : busYield s = s := if_neg (by simp [h])

/-! ### An item that ends (R400) -/

/-- An item has left the dobby: no cycle is under way, and the list has lost it and gained none. -/
structure Ended (s : State) (n : Nat) (t : State) : Prop where
  cycle : t.dob.cycle = none
  gone : ∀ j ∈ t.dob.items, j.item ≠ n
  rest : ItemsOf s.dob.items t.dob.items

theorem Ended.congr {s t u : State} {n : Nat} (h : Ended s n t) (hc : u.dob.cycle = t.dob.cycle) (hi : u.dob.items = t.dob.items) :
    Ended s n u := ⟨hc.trans h.cycle, hi ▸ h.gone, hi ▸ h.rest⟩

theorem Ended.of_dob {s t u : State} {n : Nat} (h : Ended s n t) (hd : u.dob = t.dob) : Ended s n u := h.congr (by rw [hd]) (by rw [hd])

theorem Ended.from_dob {s t u : State} {n : Nat} (h : Ended s n t) (hd : s.dob = u.dob) : Ended u n t := ⟨h.cycle, h.gone, hd ▸ h.rest⟩

theorem Ended.ite {s a b : State} {n : Nat} {c : Prop} {_ : Decidable c} (ha : Ended s n a) (hb : Ended s n b) :
    Ended s n (if c then a else b) := by
  split
  · exact ha
  · exact hb

/-- The item is out of the list, with what still held it. -/
def itemOut (s : State) (it : DobItem) : State :=
  match it.chain with
  | some c => dropRef (setItems { s with dob := { s.dob with cycle := none } } (s.dob.items.filter fun i => i.item ≠ it.item)) c
  | none => setItems { s with dob := { s.dob with cycle := none } } (s.dob.items.filter fun i => i.item ≠ it.item)

theorem itemOut_dob (s : State) (it : DobItem) :
    (itemOut s it).dob = { s.dob with cycle := none, items := s.dob.items.filter fun i => i.item ≠ it.item } := by
  unfold itemOut
  split
  · exact dropRef_dob _ _
  · rfl

theorem itemGone_eq (s : State) (it : DobItem) : itemGone s it = busYield (holdMoves 64 (itemOut s it)) := rfl

theorem itemGone_ended (s : State) (it : DobItem) : Ended s it.item (itemGone s it) := by
  obtain ⟨is, h3, hof⟩ := holdMoves_dob 64 (itemOut s it)
  obtain ⟨b, w, h4⟩ := busYield_dob (holdMoves 64 (itemOut s it))
  rw [itemOut_dob] at hof
  rw [h3, itemOut_dob, ← itemGone_eq] at h4
  refine ⟨by rw [h4], ?_, ?_⟩
  · rw [h4]
    intro j hj
    obtain ⟨i, hi, hij, -⟩ := hof j hj
    rw [← hij]
    simpa using (List.mem_filter.mp hi).2
  · rw [h4]
    exact ItemsOf.trans (.filter _ _) hof

theorem itemSeen_dob (s : State) (it : DobItem) (late : Bool) : (itemSeen s it late).dob = s.dob := by
  unfold itemSeen
  split
  · exact writeDone_dob _ _ _
  · rfl

theorem answer_dob (s : State) (src : Nat) (o : Origin) (q : Tlp) (c st : Nat) (ep : Bool) (data : List Byte) :
    (answer s src o q c st ep data).dob = s.dob := (answer_keeps (mk := 7371648) (.refl s) (by decide)).dob (by decide)

/-- A dropped write is logged, and the list and the cycle stand. -/
theorem dobbyDropped_items (s : State) (v reason w am addr : Nat) :
    (dobbyDropped s v reason w am addr).dob.items = s.dob.items ∧ (dobbyDropped s v reason w am addr).dob.cycle = s.dob.cycle := by
  unfold dobbyDropped
  dsimp only
  split
  · simp only [eventFull_dob, and_self]
  · simp only [msi_dob, eventFull_dob, and_self]

theorem rateEvent_dob {s : State} {c p g : Nat} {put : State → Nat → State} (h : ∀ u n, (put u n).dob = u.dob) :
    (rateEvent s c p g put).dob = s.dob := by
  simp only [rateEvent, apply_ite State.dob, h, ite_self]

/-- An item that fails leaves the dobby, whatever is told of it and to whom. -/
theorem itemFails_ended (s : State) (it : DobItem) (reason am addr : Nat) : Ended s it.item (itemFails s it reason am addr) := by
  unfold itemFails
  extract_lets bus t1 t2 sev t3
  have h1 : t1.dob = s.dob := by
    change (if bus = true then _ else s).dob = s.dob
    rw [apply_ite State.dob, count_dob, selContained_dob, ite_self]
  have h2 : Ended s it.item t2 := (itemGone_ended t1 it).from_dob h1
  refine .ite (.ite (h2.of_dob (itemSeen_dob ..)) ?_) ?_
  · obtain ⟨hi, hc⟩ := dobbyDropped_items t2 it.origin.vs reason it.win am addr
    exact h2.congr hc hi
  · refine h2.of_dob ((answer_dob ..).trans ((itemSeen_dob ..).trans ?_))
    exact rateEvent_dob fun _ _ => eventFull_dob ..

/-- So does an item that ends well. -/
theorem itemDone_ended (s : State) (it : DobItem) (data : List Byte) : Ended s it.item (itemDone s it data) := by
  unfold itemDone
  extract_lets t1 _ t2
  have h2 : Ended s it.item t2 := .ite ((itemGone_ended s it).congr rfl rfl) (itemGone_ended s it)
  exact .ite (h2.of_dob (itemSeen_dob ..)) (h2.of_dob ((answer_dob ..).trans (itemSeen_dob ..)))

end Sys2Proof.Scope
end

section
/-!
Accesses of length 0 at the dobby (R387).
-/

namespace Sys2Proof.Scope

open Sys2Proof.Machine Sys2Proof.Laws

/-- Nothing holds the bus back: the dobby drives its pins, nothing is under way, and no lock and no other master has a claim. -/
structure BusFree (s : State) : Prop where
  pins : dobPins s = true
  cycle : s.dob.cycle = none
  iack : s.dob.iack = none
  inbound : s.dob.inbound = none
  lock : s.dob.lock = none
  wanted : s.dob.busWanted = none

/-- The oldest item of a free bus has not been split into transactions. -/
structure FirstOf (s : State) (it : DobItem) : Prop extends BusFree s where
  head : s.dob.items.head? = some it
  whole : it.split = false

/-- An access that enables no byte ends at once. -/
theorem vmeCycleStart_empty {s : State} {it : DobItem} (h : FirstOf s it) (hb : enabledBytes it.tlp = []) (ha : isAtomic it.tlp = false) :
    vmeCycleStart s = itemDone s it (if it.posted then [] else leBytes 4 0) := by
  unfold vmeCycleStart
  rw [if_neg (by simp [h.pins, h.cycle, h.iack, h.inbound])]
  simp [busYield_idle h.wanted, dobNext, h.lock, h.head, h.whole, hb, ha]

/-- Settles O59: the item ends without a cycle. -/
theorem zeroLengthAccesses : Obligations.ZeroLengthAccesses := by
  unfold Obligations.ZeroLengthAccesses
  intro s it hp hc hk hn hl hw hh hs hb ha _
  refine ⟨_, rfl, ?_⟩
  rw [vmeCycleStart_empty ⟨⟨hp, hc, hk, hn, hl, hw⟩, hh, hs⟩ hb ha]
  obtain ⟨hcycle, hgone, -⟩ := itemDone_ended s it (if it.posted then [] else leBytes 4 0)
  exact ⟨hcycle, by simpa using hgone, rfl⟩

end Sys2Proof.Scope
end

section
/-!
The dobby as master of the backplane (R377, R386, R387, R394, R395, R397 to R400; log entries 49, 50, 125).
-/

namespace Sys2Proof.Scope

open Sys2Proof.Machine Sys2Proof.Laws

/-! ### The chain of an item that the dobby has taken (R151, R156) -/

theorem poolChanged_queue (s : State) : (poolChanged s).loom.queue = s.loom.queue := by
  simp only [poolChanged, apply_ite State.loom, event_loom, count_loom, apply_ite LoomBlk.queue, ite_self]

theorem returnCredit_loom (s : State) (c : Chain) : (returnCredit s c).loom = s.loom := by
  unfold returnCredit
  split
  · simp only [apply_ite State.loom, warpFreed, setWarp_loom, weftRelease_loom, ite_self]
  · rfl

theorem dropRef_queue (s : State) (id : Nat) : (dropRef s id).loom.queue = s.loom.queue := by
  unfold dropRef
  split
  · rfl
  · next c hc =>
    split
    · simp only [freeChain, hc, poolChanged_queue, returnCredit_loom]
    · split
      · simp only [poolChanged_queue, setChain, returnCredit_loom]
      · rfl

theorem releaseItem_queue (s : State) (i : LoomItem) (d : Nat) : queueOf (releaseItem s i) d = queueOf s d := by
  unfold queueOf releaseItem
  dsimp only
  split
  · rfl
  · rw [dropRef_queue]

/-! ### DOBBY_TAKE (R397) -/

/-- The loom and the filters after a request has left queue 129. -/
def requestOut (s : State) (i : LoomItem) (t : Tlp) : State :=
  filterItem (removeItem s 129 i.id) 7 (tlpItem t (some i.origin.cls) (some (i.origin.mid, i.origin.vs, i.origin.rid)))

theorem requestOut_queue (s : State) (i : LoomItem) (t : Tlp) : ∀ j ∈ queueOf (requestOut s i t) 129, j.id ≠ i.id := by
  have h : queueOf (requestOut s i t) 129 = (queueOf s 129).filter fun j => j.id ≠ i.id := by
    simp only [requestOut, queueOf, filterItem_loom, removeItem, setQueue]
    exact vget_vset_same _ _ _ _ (by decide)
  intro j hj
  rw [h] at hj
  simpa using (List.mem_filter.mp hj).2

/-- A request without an error joins the list, in the FIFO or on the hold list. -/
theorem takeRequest129_joins {s : State} {i : LoomItem} {t : Tlp} (he : t.ep = false) :
    ∃ it : DobItem, (it.tlp, it.item, it.posted, it.origin) = (t, i.id, decide (i.kind = 0), i.origin) ∧
      (takeRequest129 s i t).dob.items = s.dob.items ++ [it] ∧
      queueOf (takeRequest129 s i t) 129 = queueOf (requestOut s i t) 129 := by
  have hd : (requestOut s i t).dob = s.dob := (filterItem_dob ..).trans (removeItem_dob ..)
  unfold takeRequest129
  simp only [he, Bool.false_eq_true, if_false]
  split
  · exact ⟨_, rfl, by rw [← hd]; rfl, rfl⟩
  · exact ⟨_, rfl, by rw [← hd]; rfl, releaseItem_queue ..⟩

theorem dobbyTake_request {i : LoomItem} {q : Tlp} {s : State} (hc : coreRuns s = true)
    (ht : takeNext s = some i) (ho : overAge s i = false) (hi : i.cargo = .tlp q) (hk : i.kind ≤ 1) :
    dobbyTake .clean s = takeRequest129 (removeItem s 129 i.id) i q := by
  have hne : i.kind ≠ 2 := by omega
  simp [dobbyTake, hc, ht, ho, storeRead, hi, hne]

theorem dobbyTake_joins {r : StoreRead} {i : LoomItem} {q : Tlp} {s : State} (hr : r = .clean) (hc : coreRuns s = true)
    (ht : takeNext s = some i) (ho : overAge s i = false) (hi : i.cargo = .tlp q) (he : q.ep = false) (hk : i.kind ≤ 1) :
    LeavesSettling (.dobbyTake r) s fun t => t.dob.items.map (fun j => (j.tlp, j.item, j.posted, j.origin)) =
      s.dob.items.map (fun j => (j.tlp, j.item, j.posted, j.origin)) ++ [(q, i.id, decide (i.kind = 0), i.origin)] ∧
      ∀ j ∈ queueOf t 129, j.id ≠ i.id := by
  subst hr
  refine ⟨dobbyTake .clean s, rfl, ?_⟩
  obtain ⟨it, hit, hitems, hq⟩ := takeRequest129_joins (s := removeItem s 129 i.id) (i := i) he
  rw [dobbyTake_request hc ht ho hi hk, hitems, hq, List.map_append, List.map_singleton, hit, removeItem_dob]
  exact ⟨rfl, requestOut_queue _ _ _⟩

/-! ### VME_CYCLE_START (R385 to R387, R394) -/

/-- The dobby writes. -/
def dobWrites (it : DobItem) : Bool := tlpKind it.tlp = 0 || it.tlp.kind = .deferrableWrite

/-- The item on the bus, split into its transactions. -/
def begun (it : DobItem) (ss : List DobStep) : DobItem := { it with split := true, started := true, steps := ss }

/-- It takes its place in the list, and is counted. -/
def beganIn (s : State) (it : DobItem) (ss : List DobStep) : State := count (setItem s (begun it ss)) (ctrDob it.win) 1

theorem outWin_beganIn (s : State) (it : DobItem) (ss : List DobStep) (n : Nat) : outWin (beganIn s it ss) n = outWin s n :=
  (cfgv_congr (count_cfg ..) 0x6010 (n + 1) :)

theorem vmeCycleStart_begins {it : DobItem} {st : DobStep} {ss : List DobStep} {s : State} (h : FirstOf s it)
    (hb : enabledBytes it.tlp ≠ []) (hr : outRefusal s it.tlp = 0) (ha : isAtomic it.tlp = false)
    (hs : outSteps (outWin s it.win) it.tlp = st :: ss) :
    vmeCycleStart s = beat (beganIn s it (st :: ss)) (begun it (st :: ss)) st (dobWrites it) := by
  unfold vmeCycleStart
  rw [if_neg (by simp [h.pins, h.cycle, h.iack, h.inbound])]
  simp only [busYield_idle h.wanted, dobNext, h.lock, h.head, h.whole, Bool.not_false, Bool.true_and, ha, Bool.false_eq_true,
    if_false, hr, hs, List.isEmpty_eq_false_iff.mpr hb, ne_eq, not_true_eq_false]
  rfl

theorem vmeCycleStart_beat {it : DobItem} {st : DobStep} {ss : List DobStep} {s : State} (h : FirstOf s it)
    (hb : enabledBytes it.tlp ≠ []) (hr : outRefusal s it.tlp = 0) (ha : isAtomic it.tlp = false)
    (hs : outSteps (outWin s it.win) it.tlp = st :: ss) :
    Leaves .vmeCycleStart s fun t => t.dob.cycle = some { step := st, write := dobWrites it, since := s.now } ∧
      t.dob.holdsBus = true ∧ t.tx.getLast? = some (.vme st.addr st.am (dobWrites it) (min st.width st.count)
        (if dobWrites it then
          onLanes (st.mode = .mblt) st.width st.addr st.addr (stepData (outWin s it.win) it st (min st.width st.count)) else 0)) := by
  have hnow : (beganIn s it (st :: ss)).now = s.now := count_now ..
  refine ⟨vmeCycleStart s, rfl, ?_⟩
  rw [vmeCycleStart_begins h hb hr ha hs, ← hnow]
  refine ⟨rfl, rfl, ?_⟩
  simp only [beat, emit, List.getLast?_concat, outWin_beganIn]
  rfl

theorem vmeCycleStart_refused {it : DobItem} {s : State} (h : FirstOf s it)
    (hb : enabledBytes it.tlp ≠ [] ∨ isAtomic it.tlp = true) (hr : outRefusal s it.tlp ≠ 0) :
    Leaves .vmeCycleStart s fun t => t.dob.cycle = none ∧ ∀ j ∈ t.dob.items, j.item ≠ it.item := by
  have hne : ((enabledBytes it.tlp).isEmpty && !isAtomic it.tlp) = false := by
    rcases hb with hb | hb
    · simp [hb]
    · simp [hb]
  refine ⟨vmeCycleStart s, rfl, ?_⟩
  unfold vmeCycleStart
  rw [if_neg (by simp [h.pins, h.cycle, h.iack, h.inbound])]
  simp only [busYield_idle h.wanted, dobNext, h.lock, h.head, h.whole, Bool.not_false, Bool.true_and, hne, Bool.false_eq_true, if_false, if_pos hr]
  obtain ⟨hcycle, hgone, -⟩ := itemFails_ended s it (outRefusal s it.tlp) 0 (match outWindow s it.tlp.addr with
    | some n => outVme (outWin s n) it.tlp.addr
    | none => it.tlp.addr)
  exact ⟨hcycle, hgone⟩

/-! ### VME_CYCLE_END (R383, R386, R394) -/

/-- What a read latches goes to the item. -/
def latched (lines : Nat) (c : DobCycle) (it : DobItem) : DobItem :=
  if c.write then it
  else { it with got := Tbl.set it.got c.step.addr (fitBytes (min c.step.width c.step.count)
    (offLanes (c.step.mode = .mblt) c.step.width c.step.addr c.step.addr (min c.step.width c.step.count) lines)) }

theorem latched_item (lines : Nat) (c : DobCycle) (it : DobItem) : (latched lines c it).item = it.item := by
  unfold latched
  split <;> rfl

theorem latched_steps (lines : Nat) (c : DobCycle) (it : DobItem) : (latched lines c it).steps = it.steps := by
  unfold latched
  split <;> rfl

/-- The cycle is over, and its item stands as given. -/
def cycleOver (s : State) (it : DobItem) : State := setItem { s with dob := { s.dob with cycle := none } } it

/-- The item without its first transaction, which is over. -/
def stepped (lines : Nat) (c : DobCycle) (it : DobItem) : DobItem :=
  { latched lines c it with steps := (latched lines c it).steps.drop 1 }

/-- DTACK of the last beat of a transaction that is not an atomic's. -/
theorem vmeCycleEnd_step {lines : Nat} {c : DobCycle} {it : DobItem} {s : State} (hc : s.dob.cycle = some c)
    (hb : onBus s = some it) (ha : isAtomic it.tlp = false) (hn : c.step.count ≤ c.step.width) :
    vmeCycleEnd lines s =
      if (stepped lines c it).steps.isEmpty then
        itemDone (cycleOver s (stepped lines c it)) (stepped lines c it) (if c.write then [] else
          readBack (outWin (cycleOver s (stepped lines c it)) (stepped lines c it).win) (stepped lines c it) (stepped lines c it).tlp.len)
      else busYield (cycleOver s (stepped lines c it)) := by
  have hz : c.step.count - min c.step.width c.step.count = 0 := by omega
  unfold vmeCycleEnd
  simp only [hc, hb, ha, Bool.false_eq_true, if_false, hz, if_true]
  rfl

theorem vmeCycleEnd_last {lines : BitVec 64} {c : DobCycle} {it : DobItem} {s : State} (hc : s.dob.cycle = some c)
    (hb : onBus s = some it) (ha : isAtomic it.tlp = false) (hn : c.step.count ≤ c.step.width) (hs : it.steps.drop 1 = []) :
    Leaves (.vmeCycleEnd lines) s fun t => t.dob.cycle = none ∧ ∀ j ∈ t.dob.items, j.item ≠ it.item := by
  have hlast : (stepped lines.toNat c it).steps.isEmpty = true :=
    List.isEmpty_iff.mpr ((congrArg (List.drop 1) (latched_steps lines.toNat c it)).trans hs)
  have hitem : (stepped lines.toNat c it).item = it.item := latched_item ..
  refine ⟨vmeCycleEnd lines.toNat s, rfl, ?_⟩
  rw [vmeCycleEnd_step hc hb ha hn, if_pos hlast, ← hitem]
  obtain ⟨hcycle, hgone, -⟩ := itemDone_ended (cycleOver s (stepped lines.toNat c it)) (stepped lines.toNat c it) _
  exact ⟨hcycle, hgone⟩

/-- What is left of a burst after a beat. -/
def restOf (c : DobCycle) : DobStep :=
  { c.step with addr := c.step.addr + c.step.width, count := c.step.count - c.step.width }

theorem vmeCycleEnd_burst {lines : BitVec 64} {c : DobCycle} {it : DobItem} {s : State} (hc : s.dob.cycle = some c)
    (hb : onBus s = some it) (ha : isAtomic it.tlp = false) (hn : c.step.width < c.step.count) (hw : s.dob.busWanted = none) :
    Leaves (.vmeCycleEnd lines) s fun t =>
      t.dob.cycle = some { step := restOf c, write := c.write, since := s.now } ∧ t.dob.holdsBus = true := by
  have hm : min c.step.width c.step.count = c.step.width := by omega
  have hz : c.step.count - c.step.width ≠ 0 := by omega
  refine ⟨vmeCycleEnd lines.toNat s, rfl, ?_⟩
  unfold vmeCycleEnd
  simp only [hc, hb, ha, Bool.false_eq_true, if_false, hm, hz, setItem, setItems, hw, Option.isSome_none, Bool.false_and]
  exact ⟨rfl, rfl⟩

/-- The read of a 4-byte atomic is over: its write follows at the same address. -/
theorem vmeCycleEnd_atomic {lines : BitVec 64} {c : DobCycle} {it : DobItem} {s : State} (hc : s.dob.cycle = some c)
    (hb : onBus s = some it) (ha : isAtomic it.tlp = true) (hn : atomicBytes it.tlp = 4) (hp : it.phase = 0) (hw : c.write = false) :
    Leaves (.vmeCycleEnd lines) s fun t => t.dob.cycle = some {
      step := { addr := atomicBase (outWin s it.win) it.tlp, am := outAm (outWin s it.win) 0, mode := .rmw, width := 4, count := 4, off := 0 }
      write := true
      since := s.now } := by
  refine ⟨vmeCycleEnd lines.toNat s, rfl, ?_⟩
  unfold vmeCycleEnd
  simp only [hc, hb, ha, if_true, atomicBeat, hw, Bool.false_eq_true, if_false, hn, hp]
  simp [beat, atomicStep, hn, emit, setItem, setItems]

/-! ### BERR and the bus timer (R399, R400, R404) -/

theorem vmeBerr_item {c : DobCycle} {it : DobItem} {s : State} (hi : s.dob.iack = none) (hc : s.dob.cycle = some c)
    (hb : onBus s = some it) : Leaves .vmeBerr s fun t => t.dob.cycle = none ∧ ∀ j ∈ t.dob.items, j.item ≠ it.item := by
  obtain ⟨hcycle, hgone, -⟩ := itemFails_ended s it 1 c.step.am c.step.addr
  refine ⟨vmeBerr s, rfl, ?_⟩
  simp only [vmeBerr, hi, hc, hb]
  exact ⟨hcycle, hgone⟩

theorem vmeBerr_iack {l t0 : Nat} {s : State} (hi : s.dob.iack = some (l, t0)) :
    Leaves .vmeBerr s fun t => t.dob.iack = none ∧ t.dob.armed = putBit s.dob.armed l false ∧ t.dob.items = s.dob.items := by
  refine ⟨vmeBerr s, rfl, ?_⟩
  simp only [vmeBerr, hi, iackFails, event_dob, and_self]

theorem dobBusTimerExpiry_item {c : DobCycle} {it : DobItem} {s : State} (hc : s.dob.cycle = some c) (hb : onBus s = some it)
    (ht : c.since + busTimer s ≤ s.now) :
    LeavesSettling .dobBusTimerExpiry s fun t => t.dob.cycle = none ∧ ∀ j ∈ t.dob.items, j.item ≠ it.item := by
  have he : elapsed s c.since (busTimer s) = true := decide_eq_true ht
  obtain ⟨hcycle, hgone, -⟩ := itemFails_ended (sysconExpiry (count s (ctrDob 78) 1) c.step.am) it 2 c.step.am c.step.addr
  refine ⟨dobBusTimerExpiry s, rfl, ?_⟩
  simp only [dobBusTimerExpiry, hc, hb, he, if_true]
  exact ⟨hcycle, hgone⟩

/-! ### The lock and the bus (R395, R398) -/

theorem lockBackoff_releases {v t0 : Nat} {s : State} (hl : s.dob.lock = some v) (hw : s.dob.busWanted = some t0)
    (ht : t0 + cfgv s 0x6007 0 * 1000 ≤ s.now) :
    Leaves .lockBackoff s fun t => t.dob.lock = none ∧ t.dob.holdsBus = false ∧ t.dob.busWanted = none := by
  have he : elapsed s t0 (cfgv s 0x6007 0 * us) = true := decide_eq_true ht
  refine ⟨lockBackoff s, rfl, ?_⟩
  simp only [lockBackoff, hl, hw, he, if_true, eventIn_dob, count_dob, and_self]

theorem unlockMessage_releases {v : Vs} {s : State} (hl : s.dob.lock = some v.val) :
    Leaves (.unlockMessage v) s fun t => t.dob.lock = none ∧ t.dob.items = s.dob.items := by
  refine ⟨unlockMessage v.val s, rfl, ?_⟩
  unfold unlockMessage
  rw [if_pos hl]
  obtain ⟨hitems, hlock⟩ := busYield_stands { s with dob := { s.dob with lock := none, holdsBus := s.dob.cycle.isSome } }
  exact ⟨hlock, hitems⟩

theorem busRequestPending_yields {s : State} (hh : s.dob.holdsBus = true) (hc : s.dob.cycle = none) (hl : s.dob.lock = none)
    (hb : onBus s = none) : Leaves .busRequestPending s fun t => t.dob.holdsBus = false := by
  refine ⟨busRequestPending s, rfl, ?_⟩
  simp [busRequestPending, hh, hc, hl, inAtomic, hb]

theorem busRequestPending_waits {s : State} (hh : s.dob.holdsBus = true) (hc : s.dob.cycle ≠ none) (hw : s.dob.busWanted = none) :
    Leaves .busRequestPending s fun t => t.dob.holdsBus = true ∧ t.dob.busWanted = some s.now := by
  refine ⟨busRequestPending s, rfl, ?_⟩
  simp [busRequestPending, hh, hc, hw]

/-- Settles O36, a lemma for each clause. -/
theorem dobbyCycles : Obligations.DobbyCycles := by
  unfold Obligations.DobbyCycles
  exact ⟨fun _ _ _ _ hr hc ht ho hi he hk => dobbyTake_joins hr hc ht ho hi he hk,
    fun _ _ _ _ hp hc hk hn hl hw hh hs hb hr ha ho => vmeCycleStart_beat ⟨⟨hp, hc, hk, hn, hl, hw⟩, hh, hs⟩ hb hr ha ho,
    fun _ _ hp hc hk hn hl hw hh hs hb hr => vmeCycleStart_refused ⟨⟨hp, hc, hk, hn, hl, hw⟩, hh, hs⟩ hb hr,
    fun _ _ _ _ hc hb ha hn hs => vmeCycleEnd_last hc hb ha hn hs,
    fun _ _ _ _ hc hb ha hn hw => vmeCycleEnd_burst hc hb ha hn hw,
    fun _ _ _ _ hc hb ha hn hp hw => vmeCycleEnd_atomic hc hb ha hn hp hw,
    fun _ _ _ hi hc hb => vmeBerr_item hi hc hb,
    fun _ _ _ hi => vmeBerr_iack hi,
    fun _ _ _ hc hb ht => dobBusTimerExpiry_item hc hb ht,
    fun _ _ _ hl hw ht => lockBackoff_releases hl hw ht,
    fun _ _ hl => unlockMessage_releases hl,
    fun _ hh hc hl hb => busRequestPending_yields hh hc hl hb,
    fun _ hh hc hw => busRequestPending_waits hh hc hw⟩

end Sys2Proof.Scope
end

section
/-!
The dobby as slave of the backplane: inbound cycles and semaphores (R388, R389, R391, R396; log entries 57, 119).
-/

namespace Sys2Proof.Scope

open Sys2Proof.Machine Sys2Proof.Laws

-- One declaration at a time: side by side their threads are too much for the memory limit of the check.
set_option Elab.async false

/-! ### What the requests of a cycle leave of the dobby (R389, R391) -/

/-- The dobby's side of the backplane as slave: the cycle under way, the number of the next one, and the write buffer. -/
def slaveSide (s : State) : Option DobIn × Nat × List DobIn := (s.dob.inbound, s.dob.inNumber, s.dob.inbuf)

/-- That side is the same. -/
structure SlaveKept (s t : State) : Prop where
  side : slaveSide t = slaveSide s

theorem SlaveKept.of_dob {s t : State} (h : t.dob = s.dob) : SlaveKept s t := ⟨by simp only [slaveSide, h]⟩

theorem SlaveKept.refl (s : State) : SlaveKept s s := ⟨rfl⟩

theorem SlaveKept.trans {s t u : State} (h : SlaveKept s t) (k : SlaveKept t u) : SlaveKept s u := ⟨k.side.trans h.side⟩

theorem SlaveKept.ite {s a b : State} {c : Prop} {_ : Decidable c} (ha : SlaveKept s a) (hb : SlaveKept s b) :
    SlaveKept s (if c then a else b) := by
  split
  · exact ha
  · exact hb

theorem SlaveKept.foldl {α : Type} {f : State → α → State} (h : ∀ u a, SlaveKept u (f u a)) (l : List α) (s : State) :
    SlaveKept s (l.foldl f s) := by
  induction l generalizing s with
  | nil => exact .refl s
  | cons a l ih => exact (h s a).trans (ih _)

/-- What does not write the dobby's block. -/
theorem SlaveKept.keeps {m : Nat} {s t : State} (k : Keeps m s t) (h : m.testBit (partBit .dob) = false) : SlaveKept s t :=
  .of_dob (k.dob h)

/-- A failed inbound write is logged, and may raise an interrupt. -/
theorem inboundFailed_slave (s : State) (w reason addr : Nat) : SlaveKept s (inboundFailed s w reason addr) := by
  have he := event_dob s 0x0A03 0 (reason + at_ 8 w)
  unfold inboundFailed
  dsimp only
  split
  · exact ⟨by simp only [slaveSide, he]⟩
  · refine .ite ⟨?_⟩ ⟨by simp only [slaveSide, he]⟩
    simp only [slaveSide, dobRaise, count_dob, he]

theorem refuseTlp_slave (s : State) (src : Nat) (o : Origin) (t : Tlp) (status : Nat) : SlaveKept s (refuseTlp s src o t status) := by
  have logged : SlaveKept s (if status = 1 then aerUnsupported s src (t.addr % 2 ^ 64 * 2 ^ 64) else s) :=
    .ite (.keeps (aerUnsupported_keeps (mk := 256) (.refl s) (by decide)) (by decide)) (.refl s)
  unfold refuseTlp
  refine .ite (.refl s) (.ite ?_ ?_)
  · exact (logged.trans (.ite (.of_dob (count_dob _ _ _)) (.refl _))).trans (.of_dob (answer_dob ..))
  · split
    · exact .of_dob (answer_dob ..)
    · exact .ite (inboundFailed_slave ..) (.refl s)

theorem deliverTlp_slave (s : State) (d src : Nat) (o : Origin) (t : Tlp) : SlaveKept s (deliverTlp s d src o t) := by
  unfold deliverTlp
  refine .ite (refuseTlp_slave ..) ?_
  split
  · exact .of_dob (enqueueTlp_dob ..)
  · split
    · exact SlaveKept.trans (.of_dob (denied_dob ..)) (refuseTlp_slave ..)
    · exact .of_dob ((enqueueTlp_dob ..).trans (passed_dob ..))

theorem toPort_slave (s : State) (p src : Nat) (o : Origin) (t : Tlp) : SlaveKept s (toPort s p src o t) := by
  unfold toPort
  refine .ite (deliverTlp_slave ..) (.ite ?_ (.ite (SlaveKept.trans ?_ (refuseTlp_slave ..)) (.refl s)))
  · exact .keeps (synthesize_keeps (mk := 7371648) (.refl s) (by decide)) (by decide)
  · exact .keeps (dropPosted_keeps (mk := 1048832) (.refl s) (by decide)) (by decide)

theorem toUpstream_slave (s : State) (v src : Nat) (o : Origin) (t : Tlp) : SlaveKept s (toUpstream s v src o t) := by
  unfold toUpstream
  split
  · exact toPort_slave ..
  · split
    · exact .keeps (intoTunnel_keeps (mk := 7367552) (.refl s) (by decide)) (by decide)
    · exact refuseTlp_slave ..

theorem ideRefused_slave (s : State) (v src : Nat) (o : Origin) (t : Tlp) : SlaveKept s (ideRefused s v src o t) :=
  SlaveKept.trans (.of_dob (eventIn_dob ..)) (refuseTlp_slave ..)

theorem toHop_slave (s : State) (v src : Nat) (o : Origin) (t : Tlp) (h : Hop) : SlaveKept s (toHop s v src o t h) := by
  cases h with
  | port p => exact toPort_slave ..
  | up => exact toUpstream_slave ..
  | none | blocked => exact refuseTlp_slave ..
  | config f => exact .of_dob (enqueueTlp_dob ..)
  | mgmt f | vf i f | dobReg f => exact deliverTlp_slave ..
  | aperture i f =>
    exact .ite (ideRefused_slave ..) (.keeps (apertureAccess_keeps (mk := 7371648) (.refl s) (by decide)) (by decide))
  | dobOut f => exact .ite (ideRefused_slave ..) (.ite (refuseTlp_slave ..) (deliverTlp_slave ..))
  | proxy e => exact .refl s

theorem ptmAsk_slave (s : State) (v : Nat) : SlaveKept s (ptmAsk s v) :=
  .ite (.refl s) (SlaveKept.trans (.of_dob (setPart_dob ..)) (toUpstream_slave ..))

theorem ptmIngress_slave (s : State) (v p : Nat) (host : Bool) (t : Tlp) : SlaveKept s (ptmIngress s v p host t) :=
  .ite ((toPort_slave ..).trans (ptmAsk_slave ..)) (.ite (.of_dob (setPart_dob ..))
    (.keeps (aerUnsupported_keeps (mk := 256) (.refl s) (by decide)) (by decide)))

theorem routeTlp_slave (s : State) (v src : Nat) (host : Bool) (o : Origin) (t : Tlp) : SlaveKept s (routeTlp s v src host o t) := by
  unfold routeTlp
  split
  · exact .keeps (mcastTlp_keeps (mk := 7365504) (.refl s) (by decide)) (by decide)
  · exact .ite (ptmIngress_slave ..) (.ite (.foldl (fun u p => deliverTlp_slave u p _ _ _) _ s) (toHop_slave ..))

theorem inSend_slave (s : State) (n : Nat) (write answered : Bool) (tag : Nat) (p : Nat × Nat × Nat) (data : List Byte) :
    SlaveKept s (inSend s n write answered tag p data) :=
  .ite (.keeps (present_keeps (mk := 7367552) (.refl s) (by decide)) (by decide)) (routeTlp_slave ..)

theorem inFence_slave (s : State) (n number cid : Nat) (answered : Bool) : SlaveKept s (inFence s n number cid answered) :=
  .keeps (inFence_keeps (mk := 7367552) (.refl s) (by decide)) (by decide)

/-! ### Inbound reads (R388, R389, R391) -/

/-- The master of an answered access waits for it, under the number and at the place that the cycle has. -/
theorem inAccess_awaits (s : State) (n : Nat) (x : DobIn) (write : Bool) (a len : Nat) (data : List Byte) :
    ∃ y, (y.cycle, y.win, y.number, y.next, y.held) = (x.cycle, x.win, x.number, x.next, x.held) ∧
      (inAccess s n x write true a len data).dob.inbound = some y ∧
      (inAccess s n x write true a len data).dob.inNumber = s.dob.inNumber ∧
      (inAccess s n x write true a len data).dob.inbuf = s.dob.inbuf := by
  unfold inAccess
  extract_lets w bs whole ps fence cid byte ks x' _ t1 t2 t3
  have h2 : SlaveKept t1 t2 := .ite (inFence_slave ..) (.refl _)
  have h3 : SlaveKept t2 t3 := .foldl (fun u k => inSend_slave ..) _ _
  have h4 : SlaveKept t3 (if fence then inFence t3 n x.number cid true else t3) := .ite (inFence_slave ..) (.refl _)
  have hs := ((h2.trans h3).trans h4).side
  simp only [slaveSide, Prod.mk.injEq] at hs
  obtain ⟨hin, hnum, hbuf⟩ := hs
  exact ⟨{ x' with got := [] }, rfl, hin, hnum, hbuf⟩

theorem inRead_awaits (s : State) (x : DobIn) :
    ∃ y, (y.cycle, y.win, y.number, y.next, y.held) = (x.cycle, x.win, x.number, x.next + inChunk s x.win x.cycle x.next, x.held) ∧
      (inRead s x).dob.inbound = some y ∧ (inRead s x).dob.inNumber = s.dob.inNumber ∧ (inRead s x).dob.inbuf = s.dob.inbuf :=
  inAccess_awaits s x.win { x with next := x.next + inChunk s x.win x.cycle x.next } false (x.cycle.addr + x.next)
    (inChunk s x.win x.cycle x.next) []

/-- With nothing in the write buffer, and no cycle held, the dobby has nothing to act on. -/
theorem dobbySettled_rests {s : State} {x : DobIn} (hb : s.dob.inbuf = []) (hi : s.dob.inbound = some x) (hx : x.held = false) :
    dobbySettled s = s := by
  simp [dobbySettled, hb, drainInbuf, hi, hx]

/-- The module side of an inbound cycle: the lowest byte, and how many there are to the highest. -/
def inSpan (s : State) (n : Nat) (c : VmeCycle) : Nat × Nat :=
  let ms := (inBytes (inWin s n) c.addr (max 1 c.len)).map Prod.fst
  let lo := ms.foldl min ((ms.head?).getD 0)
  (lo, ms.foldl max 0 + 1 - lo)

/-- No cycle is under way on a backplane that the dobby drives. -/
structure BusQuiet (s : State) : Prop where
  pins : dobPins s = true
  cycle : s.dob.cycle = none
  iack : s.dob.iack = none
  inbound : s.dob.inbound = none

/-- Inbound window `n` answers the single read cycle `c`, with the modifier `a`. -/
structure ReadsIn (s : State) (c : VmeCycle) (n : Nat) (a : AmInfo) : Prop extends BusQuiet s where
  sem : semaphoreOf s c = none
  window : inWindow s c = some n
  am : amInfo c.am = some a
  read : c.write = false
  single : c.kind = .single

theorem inWin_congr {s t : State} (h : t.cfg = s.cfg) (n : Nat) : inWin t n = inWin s n := cfgv_congr h ..

theorem inChunk_congr {s t : State} (h : t.cfg = s.cfg) (w : Nat) (c : VmeCycle) (d : Nat) : inChunk t w c d = inChunk s w c d := by
  simp only [inChunk, inWin_congr h, cfgv_congr h]

theorem regionCheck129_congr {s t : State} (h : t.hed = s.hed) (lo hi : Nat) (a : Access) :
    regionCheck t 129 lo hi a = regionCheck s 129 lo hi a := by
  have ha : ∀ r, activeRegion t 129 r = activeRegion s 129 r := fun r => by simp [activeRegion, lockedRegion, h]
  simp only [regionCheck, winner, ha]

theorem inboundCheck_counted (s : State) (n k ctr : Nat) (sup : Bool) (lo len : Nat) :
    inboundCheck (count s ctr 1) n sup k lo len = inboundCheck s n sup k lo len := regionCheck129_congr (count_hed ..) ..

/-- The cycle as it begins. -/
def cycleIn (s : State) (c : VmeCycle) (n : Nat) : DobIn := { cycle := c, win := n, since := s.now, left := 0, number := s.dob.inNumber }

/-- It is counted at its window, and takes the next number. -/
def begunIn (s : State) (c : VmeCycle) (n : Nat) : State :=
  let t := count s (ctrDob (16 + n)) 1
  { t with dob := { t.dob with inbound := some (cycleIn t c n), inNumber := t.dob.inNumber + 1 } }

theorem vmeInboundCycle_begins {s : State} {c : VmeCycle} {n w : Nat} {a : AmInfo} (h : ReadsIn s c n a) (hl : bit (inWin s n) 254 = false)
    (hv : inboundCheck s n a.sup 0 (inSpan s n c).1 (inSpan s n c).2 = .region w) :
    vmeInboundCycle c s = dobbySettled (inStart (begunIn s c n) (cycleIn (count s (ctrDob (16 + n)) 1) c n)) := by
  dsimp only [inSpan] at hv
  unfold vmeInboundCycle
  rw [if_neg (by simp [h.pins, h.cycle, h.iack, h.inbound])]
  simp only [h.sem, h.window, h.am, h.read, h.single, reduceCtorEq, decide_false, Bool.false_and, Bool.false_eq_true, if_false,
    inboundCheck_counted, hv, hl]
  rfl

theorem inStart_read {s : State} {x : DobIn} (hb : s.dob.inbuf = []) (hw : x.cycle.write = false) (hh : x.held = false) :
    inStart s x = inRead s x := by
  have hx : { x with held := false } = x := by rw [← hh]
  simp [inStart, inWaits, hw, hb, hx]

theorem vmeInboundCycle_asks {s : State} {c : VmeCycle} {n w : Nat} {a : AmInfo} (h : ReadsIn s c n a) (hb : s.dob.inbuf = [])
    (hl : bit (inWin s n) 254 = false) (hv : inboundCheck s n a.sup 0 (inSpan s n c).1 (inSpan s n c).2 = .region w) :
    Leaves (.vmeInboundCycle c) s fun t => t.dob.inbound.map (fun x => (x.cycle, x.win, x.number, x.next)) =
      some (c, n, s.dob.inNumber, inChunk s n c 0) ∧ t.dob.inNumber = s.dob.inNumber + 1 := by
  have hd : (count s (ctrDob (16 + n)) 1).dob = s.dob := count_dob ..
  have hbuf : (begunIn s c n).dob.inbuf = [] := (congrArg DobBlk.inbuf hd).trans hb
  have hchunk : inChunk (begunIn s c n) n c 0 = inChunk s n c 0 := inChunk_congr (count_cfg ..) ..
  obtain ⟨y, hy, hin, hnum, hinbuf⟩ := inRead_awaits (begunIn s c n) (cycleIn (count s (ctrDob (16 + n)) 1) c n)
  obtain ⟨hcycle, hwin, hnumber, hnext, hheld⟩ := by simpa only [Prod.mk.injEq] using hy
  refine ⟨vmeInboundCycle c s, rfl, ?_⟩
  rw [vmeInboundCycle_begins h hl hv, inStart_read hbuf h.read rfl]
  rw [dobbySettled_rests (hinbuf.trans hbuf) hin hheld]
  dsimp only
  rw [hin, hnum, Option.map_some, hcycle, hwin, hnumber, hnext]
  dsimp only [cycleIn]
  rw [hchunk, Nat.zero_add, hd]
  exact ⟨rfl, congrArg (fun d : DobBlk => d.inNumber + 1) hd⟩

/-! ### Refused and stray cycles (R388, R396) -/

theorem inBerr_rules (s : State) (n reason am addr : Nat) : RulesKept s (inBerr s n reason am addr) :=
  (((RulesKept.refl s).count _ _).event ..).same rfl rfl rfl

theorem vmeInboundCycle_denied {s : State} {c : VmeCycle} {n x r sb : Nat} {a : AmInfo} (h : ReadsIn s c n a)
    (hv : inboundCheck s n a.sup 0 (inSpan s n c).1 (inSpan s n c).2 = .deny x r sb) :
    Leaves (.vmeInboundCycle c) s fun t => t.dob.inbound = none ∧ t.tx.getLast? = some (.vmeAnswer true []) ∧
      (Tbl.find? t.hed.denied 129).map (fun l => (l.address, l.cls, l.kind, l.region, l.sub)) = some (x % 2 ^ 64, 48, 0, r, sb) := by
  dsimp only [inSpan] at hv
  have he : vmeInboundCycle c s = inBerr (denied (count s (ctrDob (16 + n)) 1) 129 48 0 true x r sb) n 8 c.am c.addr := by
    unfold vmeInboundCycle
    rw [if_neg (by simp [h.pins, h.cycle, h.iack, h.inbound])]
    simp only [h.sem, h.window, h.am, h.read, h.single, reduceCtorEq, decide_false, Bool.false_and, Bool.false_eq_true, if_false,
      inboundCheck_counted, hv]
  refine ⟨vmeInboundCycle c s, rfl, ?_⟩
  rw [he]
  obtain ⟨l, hl⟩ := (inBerr_rules (denied (count s (ctrDob (16 + n)) 1) 129 48 0 true x r sb) n 8 c.am c.addr).hed
  refine ⟨rfl, getLast?_emit .., ?_⟩
  rw [hl]
  exact denied_records ..

theorem vmeInboundCycle_stray {s : State} {c : VmeCycle} (h : BusQuiet s) (hs : semaphoreOf s c = none) (hw : inWindow s c = none) :
    Leaves (.vmeInboundCycle c) s fun t => t.dob.stray = some (c.am, s.now) ∧ t.tx = s.tx := by
  refine ⟨vmeInboundCycle c s, rfl, ?_⟩
  unfold vmeInboundCycle
  rw [if_neg (by simp [h.pins, h.cycle, h.iack, h.inbound])]
  simp only [hs, hw, and_self]

/-! ### Semaphores (R396) -/

/-- A read returns the semaphore and claims it when it is free. -/
theorem semTaken_value (s : State) {k : Nat} (hk : k < 16) (owner : Nat) :
    vget (semTaken s k owner).1.dob.sem k 0 = (if bit (vget s.dob.sem k 0) 31 then vget s.dob.sem k 0 else at_ 31 1 + owner) ∧
      (semTaken s k owner).2 = vget s.dob.sem k 0 := by
  unfold semTaken
  dsimp only
  split
  · exact ⟨rfl, rfl⟩
  · rw [count_dob]
    exact ⟨vget_vset_same _ _ _ _ hk, rfl⟩

/-- A write with OWNED clear frees it. -/
theorem semFreed_value (s : State) {k : Nat} (hk : k < 16) (value : Nat) :
    vget (semFreed s k value).dob.sem k 0 = if bit value 31 then vget s.dob.sem k 0 else 0 := by
  unfold semFreed
  split
  · rfl
  · exact vget_vset_same _ _ _ _ hk

/-- The semaphore block is in the VME short space. -/
def semAm (am : Nat) : Prop := am = 0x29 ∨ am = 0x2D

theorem vmeSemaphoreCycle_reads {s : State} {k am : Nat} (hp : dobPins s = true) (hb : cfgv s 0x6025 0 ≠ 65535) (ha : semAm am)
    (hk : k < 16) (value : Nat) :
    vget (vmeSemaphoreCycle k am false value s).dob.sem k 0 = (if bit (vget s.dob.sem k 0) 31 then vget s.dob.sem k 0 else 0xC0007FFF) ∧
      (vmeSemaphoreCycle k am false value s).tx.getLast? = some (.vmeAnswer false [vget s.dob.sem k 0 % 2 ^ 32]) := by
  obtain ⟨hvalue, hread⟩ := semTaken_value s hk (at_ 30 1 + 0x7FFF)
  unfold vmeSemaphoreCycle
  rw [if_neg (by rcases ha with rfl | rfl <;> simp [hp, hb])]
  simp only [Bool.false_eq_true, if_false, emit_dob, getLast?_emit, hread]
  exact ⟨hvalue, trivial⟩

theorem vmeSemaphoreCycle_writes {s : State} {k am : Nat} (hp : dobPins s = true) (hb : cfgv s 0x6025 0 ≠ 65535) (ha : semAm am)
    (hk : k < 16) (value : Nat) :
    vget (vmeSemaphoreCycle k am true value s).dob.sem k 0 = if bit value 31 then vget s.dob.sem k 0 else 0 := by
  unfold vmeSemaphoreCycle
  rw [if_neg (by rcases ha with rfl | rfl <;> simp [hp, hb])]
  exact semFreed_value s hk value

/-- A cycle at the block is one in short space. -/
theorem semaphoreOf_am {s : State} {c : VmeCycle} {k : Nat} (h : semaphoreOf s c = some k) : cfgv s 0x6025 0 ≠ 65535 ∧ semAm c.am := by
  unfold semaphoreOf at h
  dsimp only at h
  split at h
  · next hc =>
    simp only [Bool.and_eq_true, Bool.or_eq_true, decide_eq_true_eq, ne_eq] at hc
    obtain ⟨⟨⟨⟨⟨⟨hb, ha⟩, -⟩, -⟩, -⟩, -⟩, -⟩ := hc
    exact ⟨hb, ha⟩
  · exact absurd h (by simp)

theorem vmeInboundCycle_semaphore {s : State} {c : VmeCycle} {k : Nat} (h : BusQuiet s) (hs : semaphoreOf s c = some k) (hk : k < 16)
    (hw : c.write = false) :
    Leaves (.vmeInboundCycle c) s fun t =>
      vget t.dob.sem k 0 = (if bit (vget s.dob.sem k 0) 31 then vget s.dob.sem k 0 else 0xC0007FFF) ∧
      t.tx.getLast? = some (.vmeAnswer false [vget s.dob.sem k 0 % 2 ^ 32]) := by
  obtain ⟨hb, ha⟩ := semaphoreOf_am hs
  have he : vmeInboundCycle c s = vmeSemaphoreCycle k c.am false ((c.beats.headD 0).toNat % 2 ^ 32) s := by
    unfold vmeInboundCycle
    rw [if_neg (by simp [h.pins, h.cycle, h.iack, h.inbound])]
    simp only [hs, hw]
  refine ⟨vmeInboundCycle c s, rfl, ?_⟩
  rw [he]
  exact vmeSemaphoreCycle_reads h.pins hb ha hk _

theorem semRead_claims {v : Vs} {sem : Fin 16} {rid tag : Nat} {s : State} (hv : vsState s v = 2) (hd : dobbyFunction s v = true) :
    Leaves (.semRead v sem rid tag) s fun t => vget t.dob.sem sem 0 =
      if bit (vget s.dob.sem sem 0) 31 then vget s.dob.sem sem 0 else 0x80000000 + (cfgv s 0x4100 1 % 1024 * 32 + v) % 32768 := by
  refine ⟨semRead v.val sem.val rid tag s, rfl, ?_⟩
  simp only [semRead, hv, hd, decide_true, Bool.and_self, if_true, answerHost, answer_dob]
  exact (semTaken_value s sem.isLt _).1

theorem semWrite_frees {v : Vs} {sem : Fin 16} {value : BitVec 32} {s : State} (hv : vsState s v = 2) (hd : dobbyFunction s v = true) :
    Leaves (.semWrite v sem value) s fun t => vget t.dob.sem sem 0 = if bit value.toNat 31 then vget s.dob.sem sem 0 else 0 := by
  refine ⟨semWrite v.val sem.val value.toNat s, rfl, ?_⟩
  simp only [semWrite, hv, hd, decide_true, Bool.and_self, if_true]
  exact semFreed_value s sem.isLt _

/-- Settles O37, a lemma for each clause. -/
theorem dobbySlave : Obligations.DobbySlave := by
  unfold Obligations.DobbySlave
  exact ⟨fun _ _ _ _ _ hp hc hk hn hs hw ha hr h1 hb hl hv => vmeInboundCycle_asks ⟨⟨hp, hc, hk, hn⟩, hs, hw, ha, hr, h1⟩ hb hl hv,
    fun _ _ _ _ _ _ _ hp hc hk hn hs hw ha hr h1 hv => vmeInboundCycle_denied ⟨⟨hp, hc, hk, hn⟩, hs, hw, ha, hr, h1⟩ hv,
    fun _ _ hp hc hk hn hs hw => vmeInboundCycle_stray ⟨hp, hc, hk, hn⟩ hs hw,
    fun _ _ _ hp hc hk hn hs h16 hw => vmeInboundCycle_semaphore ⟨hp, hc, hk, hn⟩ hs h16 hw,
    fun sem _ value _ hp hb ha => ⟨_, rfl, vmeSemaphoreCycle_reads hp hb ha sem.isLt value.toNat⟩,
    fun sem _ value _ hp hb ha => ⟨_, rfl, vmeSemaphoreCycle_writes hp hb ha sem.isLt value.toNat⟩,
    fun _ _ _ _ _ hv hd => semRead_claims hv hd,
    fun _ _ _ _ hv hd => semWrite_frees hv hd⟩

end Sys2Proof.Scope
end

section
/-!
The dobby's interrupts, the backplane's utility lines and the dobby's connections (R393, R403 to R408; log entries 59, 130).
-/

namespace Sys2Proof.Scope

open Sys2Proof.Machine Sys2Proof.Laws

-- One declaration at a time: side by side their threads are too much for the memory limit of the check.
set_option Elab.async false

/-! ### Interrupt handling (R404 to R406) -/

theorem vmeIrqAssert_starts {lvl : IrqLevel} {s : State} (h : BusQuiet s) (hh : bit (cfgv s 0x6021 0) (lvl.val + 1) = true)
    (ha : bit s.dob.armed (lvl.val + 1) = true) :
    Leaves (.vmeIrqAssert lvl) s fun t => t.dob.iack = some (lvl.val + 1, s.now) ∧ t.tx.getLast? = some (.iack (lvl.val + 1)) := by
  refine ⟨vmeIrqAssert (lvl.val + 1) s, rfl, ?_⟩
  simp only [vmeIrqAssert, h.pins, hh, ha, h.iack, h.cycle, h.inbound, Option.isNone_none, Bool.and_self, if_true, emit_dob, count_dob]
  exact ⟨trivial, getLast?_emit ..⟩

/-- The IACK of a level is over, and the level re-armed at once or not. -/
def iackOver (s : State) (l : Nat) : State :=
  { s with dob := { s.dob with
      iack := none, armed := if bit (cfgv s 0x6022 0) l then s.dob.armed else putBit s.dob.armed l false } }

theorem irqMatch_congr {s t : State} (h : t.cfg = s.cfg) (l ident : Nat) : irqMatch t l ident = irqMatch s l ident := by
  have hr : irqRoute t = irqRoute s := funext fun _ => cfgv_congr h ..
  simp only [irqMatch, hr]

/-- The partition that receives the level is noted. -/
def iackReceived (s : State) (l v : Nat) : State :=
  { iackOver s l with dob := { (iackOver s l).dob with receiver := Tbl.set s.dob.receiver l v } }

/-- An interrupt of an 8-bit status/ID that routes to a partition in service is told there, with a vector or without. -/
theorem iackDone_received {sid l t0 e : Nat} {s : State} (hi : s.dob.iack = some (l, t0)) (hc : cfgv s 0x6023 0 = 0)
    (hm : irqMatch s l (sid % 256) = some e) (hv : vsState s (bits (irqRoute s e) 44 5) = 2) :
    (iackDone sid s).dob = (iackReceived s l (bits (irqRoute s e) 44 5)).dob := by
  have hm' : irqMatch (iackOver s l) l (sid % 256) = some e := (irqMatch_congr rfl ..).trans hm
  unfold iackOver at hm'
  unfold iackDone
  simp only [hi, hc]
  rw [hm']
  dsimp only
  rw [if_neg (by exact not_not.mpr hv)]
  simp only [apply_ite State.dob, msi_dob, eventIn_dob, ite_self]
  rfl

theorem iackDone_routes {sid : BitVec 32} {l t0 e : Nat} {s : State} (hi : s.dob.iack = some (l, t0)) (hc : cfgv s 0x6023 0 = 0)
    (hm : irqMatch s l (sid.toNat % 256) = some e) (hv : vsState s (bits (irqRoute s e) 44 5) = 2) :
    Leaves (.iackDone sid) s fun t => t.dob.iack = none ∧ Tbl.find? t.dob.receiver l = some (bits (irqRoute s e) 44 5) ∧
      t.dob.armed = if bit (cfgv s 0x6022 0) l then s.dob.armed else putBit s.dob.armed l false := by
  refine ⟨iackDone sid.toNat s, rfl, ?_⟩
  dsimp only
  rw [iackDone_received hi hc hm hv]
  exact ⟨rfl, Tbl.find?_set_same .., rfl⟩

theorem iackDone_lost {sid : BitVec 32} {l t0 : Nat} {s : State} (hi : s.dob.iack = some (l, t0)) (hc : cfgv s 0x6023 0 = 0)
    (hm : irqMatch s l (sid.toNat % 256) = none) :
    Leaves (.iackDone sid) s fun t => t.dob.iack = none ∧ t.dob.receiver = s.dob.receiver := by
  have hm' : irqMatch (iackOver s l) l (sid.toNat % 256) = none := (irqMatch_congr rfl ..).trans hm
  unfold iackOver at hm'
  refine ⟨iackDone sid.toNat s, rfl, ?_⟩
  unfold iackDone
  simp only [hi, hc]
  rw [hm']
  simp only [event_dob, and_self]

/-! ### Re-arming (R404) -/

/-- The number whose bits below `n` are those that `p` names. -/
def levelMask (p : Nat → Bool) (n : Nat) : Nat := ((List.range n).map fun l => if p l then at_ l 1 else 0).sum

theorem levelMask_succ (p : Nat → Bool) (n : Nat) : levelMask p (n + 1) = 2 ^ n * (p n).toNat + levelMask p n := by
  simp only [levelMask, List.range_succ, List.map_append, List.map_singleton, List.sum_append, List.sum_singleton, at_eq_mul]
  cases p n <;> simp [Nat.add_comm]

theorem levelMask_lt (p : Nat → Bool) (n : Nat) : levelMask p n < 2 ^ n := by
  induction n with
  | zero => exact Nat.one_pos
  | succ n ih =>
    rw [levelMask_succ, pow_succ]
    cases p n <;> simp <;> omega

theorem testBit_levelMask (p : Nat → Bool) {n l : Nat} (h : l < n) : (levelMask p n).testBit l = p l := by
  induction n with
  | zero => exact absurd h (by omega)
  | succ n ih =>
    rw [levelMask_succ, Nat.testBit_two_pow_mul_add _ (levelMask_lt p n)]
    by_cases hl : l < n
    · rw [if_pos hl, ih hl]
    · obtain rfl : l = n := by omega
      rw [if_neg hl, Nat.sub_self]
      cases p l <;> rfl

/-- Re-arming sets the bits of levels 1 to 7 that the mask names. -/
theorem bit_rearm (s : State) {mask : Nat} (hm : mask < 256) (l : Fin 8) :
    bit (rearm s mask).dob.armed l = (bit s.dob.armed l || (l.val != 0 && mask.testBit l)) := by
  have h254 : Nat.testBit 254 l.val = (l.val != 0) := by
    revert l
    decide
  dsimp only [rearm]
  rw [bit_eq_testBit, bit_eq_testBit, Nat.testBit_or, Nat.mod_eq_of_lt hm, Nat.testBit_and, h254, Bool.and_comm (mask.testBit l)]

theorem ihRearm_rearms (v : Vs) (mask : Nat) (s : State) :
    Leaves (.ihRearm v mask) s fun t => ∀ l : Fin 8, bit t.dob.armed l =
      (bit s.dob.armed l || (l.val != 0 && bit mask l && decide (Tbl.find? s.dob.receiver l = some v.val))) := by
  refine ⟨ihRearm v.val mask s, rfl, fun l => ?_⟩
  have hp := testBit_levelMask (fun l => bit mask l && decide (Tbl.find? s.dob.receiver l = some v.val)) l.isLt
  have h := bit_rearm s (levelMask_lt (fun l => bit mask l && decide (Tbl.find? s.dob.receiver l = some v.val)) 8) l
  rw [hp] at h
  rw [Bool.and_assoc]
  exact h

/-! ### Raises (R380, R407) -/

theorem irqRaise_raises {v : Vs} {value : Nat} {s : State} (hv : vsState s v = 2) (hf : dobbyFunction s v = true) (ho : dobOn s = true)
    (hl : bits value 8 3 ≠ 0) (hb : bit (cfgv s 0x6024 1) (bits value 8 3) = true)
    (hn : s.dob.raises.any (fun r => r.1 = bits value 8 3 && r.2.1 = v.val) = false) :
    Leaves (.irqRaise v value) s fun t =>
      t.dob.raises = s.dob.raises ++ [(bits value 8 3, v.val, bits value 0 8)] ∧ Tbl.find? t.dob.irqResult v = some 0 := by
  refine ⟨irqRaise v.val value s, rfl, ?_⟩
  simp only [irqRaise, ho, hl, hb, hn, hv, hf, Bool.not_true, Bool.false_eq_true, if_false, decide_false, decide_true, Bool.or_self,
    Bool.and_self, if_true, count_dob, dobRaise, Tbl.find?_set_same, and_self]

theorem irqRaise_refused {v : Vs} {value : Nat} {s : State} (hv : vsState s v = 2) (hf : dobbyFunction s v = true) (ho : dobOn s = true)
    (hb : bits value 8 3 = 0 ∨ bit (cfgv s 0x6024 1) (bits value 8 3) = false) :
    Leaves (.irqRaise v value) s fun t => t.dob.raises = s.dob.raises ∧ Tbl.find? t.dob.irqResult v = some 2 := by
  have hr : (decide (bits value 8 3 = 0) || !bit (cfgv s 0x6024 1) (bits value 8 3)) = true := by
    rcases hb with hb | hb <;> simp [hb]
  refine ⟨irqRaise v.val value s, rfl, ?_⟩
  simp only [irqRaise, ho, hr, hv, hf, Bool.not_true, Bool.false_eq_true, if_false, decide_true, Bool.and_self, if_true,
    OfNat.ofNat_ne_zero, eventIn_dob, Tbl.find?_set_same, and_self]

/-! ### What is sent stays sent -/

theorem sent_rfl {es : List Emit} : es <+: es := ⟨[], List.append_nil _⟩

theorem msi_sent (s : State) (v fn vec : Nat) : s.tx <+: (msi s v fn vec).tx := by
  unfold msi
  split
  · exact sent_rfl
  · split
    · exact sent_rfl
    · exact ⟨_, rfl⟩

theorem hostPost_tx (s : State) (v a : Nat) (bs : List Byte) : (hostPost s v a bs).tx = s.tx := by
  unfold hostPost
  split <;> rfl

theorem beamWrite_tx (s : State) (a : Nat) (bs : List Byte) : (beamWrite s a bs).tx = s.tx := by
  unfold beamWrite
  exact foldl_stands (g := State.tx) (fun u _ => by unfold beamPut; dsimp only; split <;> rfl) _ _

theorem sent_ite {s a b : State} {c : Prop} {_ : Decidable c} (ha : s.tx <+: a.tx) (hb : s.tx <+: b.tx) :
    s.tx <+: (if c then a else b).tx := by
  split
  · exact ha
  · exact hb

theorem signalLine_sent (s : State) (r : Nat) (grave : Bool) : s.tx <+: (signalLine s r grave).tx :=
  sent_ite sent_rfl (sent_ite sent_rfl (sent_ite (msi_sent ..) sent_rfl))

theorem writeLine_sent (s : State) (r : Nat) (mark : Bool) : s.tx <+: (writeLine s r mark).tx := by
  refine sent_ite sent_rfl (List.IsPrefix.trans ?_ (signalLine_sent ..))
  split
  · rw [hostPost_tx]
    exact sent_rfl
  · rw [beamWrite_tx]
    exact sent_rfl

theorem ringPut_sent (s : State) (r : Nat) (e : EventRec) : s.tx <+: (ringPut s r e).tx := by
  unfold ringPut
  refine sent_ite sent_rfl (sent_ite (List.IsPrefix.trans ?_ (writeLine_sent ..)) sent_rfl)
  exact sent_rfl

theorem reportLoss_sent (s : State) (r : Nat) (ow : Bool) : s.tx <+: (reportLoss s r ow).tx := by
  unfold reportLoss
  refine sent_ite sent_rfl (sent_ite sent_rfl (List.IsPrefix.trans ?_ (ringPut_sent ..)))
  exact sent_rfl

theorem putEvent_sent (s : State) (h : HeldEvent) : s.tx <+: (putEvent s h).tx :=
  sent_ite (sent_ite sent_rfl sent_rfl) (sent_ite (sent_ite sent_rfl sent_rfl)
    (((ringPut_sent ..).trans (reportLoss_sent ..)).trans (reportLoss_sent ..)))

theorem eventIn_sent (s : State) (part : Option Nat) (code inst info : Nat) : s.tx <+: (eventIn s part code inst info).tx := by
  unfold eventIn eventFull
  split
  · exact sent_rfl
  · exact putEvent_sent ..

/-! ### IACKs to the module (R407) -/

theorem iackinReceive_answers {lvl : IrqLevel} {wd : Nat} {r : Nat × Nat × Nat} {s : State} (hp : dobPins s = true)
    (hr : s.dob.raises.find? (fun r => r.1 = lvl.val + 1) = some r) :
    Leaves (.iackinReceive lvl wd) s fun t => t.dob.raises = s.dob.raises.erase r ∧ .statusId (lvl.val + 1) r.2.2 ∈ t.tx := by
  refine ⟨iackinReceive (lvl.val + 1) s, rfl, ?_⟩
  simp only [iackinReceive, hp, hr, Bool.not_true, Bool.false_eq_true, if_false, eventIn_dob, emit_dob, true_and]
  exact (eventIn_sent ..).subset (List.mem_append_right _ (List.mem_singleton.mpr rfl))

theorem iackinReceive_passes {lvl : IrqLevel} {wd : Nat} {s : State} (hp : dobPins s = true)
    (hr : s.dob.raises.find? (fun r => r.1 = lvl.val + 1) = none) :
    Leaves (.iackinReceive lvl wd) s fun t => t.dob.raises = s.dob.raises ∧ t.tx = s.tx ++ [.iackOut (lvl.val + 1)] := by
  refine ⟨iackinReceive (lvl.val + 1) s, rfl, ?_⟩
  simp only [iackinReceive, hp, hr, Bool.not_true, Bool.false_eq_true, if_false]
  exact ⟨rfl, rfl⟩

/-! ### The utility lines (R403, R408) -/

/-- Items that fail one after another all leave the list, which gains none. -/
theorem foldl_itemFails (l : List DobItem) (reason am addr : Nat) (s : State) :
    ItemsOf s.dob.items (l.foldl (fun s it => itemFails s it reason am addr) s).dob.items ∧
      ∀ i ∈ l, ∀ j ∈ (l.foldl (fun s it => itemFails s it reason am addr) s).dob.items, j.item ≠ i.item := by
  induction l generalizing s with
  | nil => exact ⟨.refl _, fun i hi => absurd hi (by simp)⟩
  | cons a l ih =>
    obtain ⟨-, hgone, hrest⟩ := itemFails_ended s a reason am addr
    obtain ⟨hof, hout⟩ := ih (itemFails s a reason am addr)
    refine ⟨hrest.trans hof, fun i hi j hj => ?_⟩
    rcases List.mem_cons.mp hi with rfl | hi
    · obtain ⟨k, hk, hkj, -⟩ := hof j hj
      exact hkj ▸ hgone k hk
    · exact hout i hi j hj

theorem sysresetInput_clears {s : State} (hp : dobPins s = true) :
    Leaves .sysresetInput s fun t => t.dob.raises = [] ∧ t.dob.armed = 0 ∧ t.dob.cycle = none ∧ t.dob.iack = none ∧
      t.dob.inbound = none ∧ t.dob.lock = none ∧ t.dob.holdsBus = false ∧ ∀ j ∈ t.dob.items, j.started = false := by
  refine ⟨sysresetInput s, rfl, ?_⟩
  simp only [sysresetInput, hp, Bool.not_true, Bool.false_eq_true, if_false, event_dob, true_and]
  intro j hj
  obtain ⟨hof, hout⟩ := foldl_itemFails _ _ _ _ s
  obtain ⟨i, hi, hij, hs⟩ := hof j hj
  by_contra hstarted
  exact hout i (List.mem_filter.mpr ⟨hi, by rw [hs]; simpa using hstarted⟩) j hj hij.symm

theorem sysfailChange_follows (b : Bool) {s : State} (hp : dobPins s = true) :
    Leaves (.sysfailChange b) s fun t => t.dob.sysfail = b ∧ t.dob.items = s.dob.items := by
  refine ⟨sysfailChange b s, rfl, ?_⟩
  by_cases hb : s.dob.sysfail = b
  · simp [sysfailChange, hp, hb]
  · simp [sysfailChange, hp, hb]

theorem acfailChange_follows (b : Bool) {s : State} (hp : dobPins s = true) :
    Leaves (.acfailChange b) s fun t => t.dob.acfail = b ∧ t.dob.items = s.dob.items := by
  refine ⟨acfailChange b s, rfl, ?_⟩
  by_cases hb : s.dob.acfail = b
  · simp [acfailChange, hp, hb]
  · simp [acfailChange, hp, hb]

theorem sysresetOutEnd_ends {t0 : Nat} {s : State} (hs : s.dob.sysreset = some t0) (ht : t0 + 200000000 ≤ s.now) :
    Leaves .sysresetOutEnd s fun t => t.dob.sysreset = none ∧ t.tx = s.tx ++ [.pin 2 0 false] := by
  have he : elapsedOpt s s.dob.sysreset (200 * ms) = true := by
    rw [hs]
    exact decide_eq_true ht
  refine ⟨sysresetOutEnd s, rfl, ?_⟩
  simp only [sysresetOutEnd, he, if_true]
  exact ⟨rfl, rfl⟩

/-! ### Connections of the dobby (R393) -/

/-- The command is journaled, and waits for its connection. -/
def dobConnTaken (sess value : Nat) (s : State) : State := dobConnWait (journalAction s sess 0x6030 1 value) value

theorem connOf_dobConnTaken (sess value : Nat) (s : State) (c : Nat) : connOf (dobConnTaken sess value s) c = connOf s c :=
  connOf_of_shu (journalAction_shu ..) c

theorem dobConnTaken_vault (sess value : Nat) (s : State) : (dobConnTaken sess value s).vault = s.vault := journalAction_vault ..

theorem dobConnTaken_cfg (sess value : Nat) (s : State) : (dobConnTaken sess value s).cfg = s.cfg := journalAction_cfg ..

theorem secretFor_congr {s t : State} (hc : t.cfg = s.cfg) (hv : t.vault = s.vault) (m : Nat) : secretFor t m = secretFor s m := by
  simp only [secretFor, midValid_congr hc, hv]

theorem dobConnCmd_acts {op sess value : Nat} {s : State} (h : MayAct s sess 0x6030 1 value) (hc : dobConnCheck s value = 0)
    (ho : bits value 30 2 = op) :
    dobConnCmd op sess value s = emit (actDobConn value (journalAction s sess 0x6030 1 value)) (.status sess 0x6030 1 0) := by
  rw [dobConnCmd, if_pos ho, actWrite_done h hc]

theorem openConn_dob {s : State} {mid : Nat} {z : List Byte} (hz : secretFor s mid = some z) (he : s.vault.entropyOk = true)
    (c tc : Nat) (twin auto : Bool) (retry kind owner : Nat) : (openConn s c mid tc twin auto retry kind owner).dob = s.dob := by
  simp only [openConn, hz, he]
  exact (launch_keeps (mk := 7367552) (Keeps.refl _) (by decide)).dob (by decide)

theorem dobConnOpen_opens {sess value : Nat} {z : List Byte} {s : State} (h : MayAct s sess 0x6030 1 value) (hc : dobConnCheck s value = 0)
    (ho : bits value 30 2 = 1) (hz : secretFor s (bits value 20 10) = some z) :
    Leaves (.dobConnOpen sess value) s fun t => (connOf t (bits value 0 14)).st = .opening ∧
      (connOf t (bits value 0 14)).peerMid = bits value 20 10 ∧ (connOf t (bits value 0 14)).ownerKind = 1 ∧
      t.dob.connWait = some (bits value 0 14) := by
  have hent : s.vault.entropyOk = true := by
    by_contra hne
    simp [dobConnCheck, ho, hne] at hc
  have hz' : secretFor (dobConnTaken sess value s) (bits value 20 10) = some z :=
    (secretFor_congr (dobConnTaken_cfg ..) (dobConnTaken_vault ..) _).trans hz
  have he' : (dobConnTaken sess value s).vault.entropyOk = true := by rw [dobConnTaken_vault, hent]
  have ha : actDobConn value (journalAction s sess 0x6030 1 value) = openConn (dobConnTaken sess value s) (bits value 0 14)
      (bits value 20 10) (cfgv (dobConnTaken sess value s) 0x6030 2) false true (cfgv (dobConnTaken sess value s) 0x4201 0) 1 0 := by
    simp only [actDobConn, ho]
    rfl
  obtain ⟨hst, hmid, -, -, -, -, hkind, -⟩ := openConn_opening hz' he' (bits value 0 14)
    (cfgv (dobConnTaken sess value s) 0x6030 2) false true (cfgv (dobConnTaken sess value s) 0x4201 0) 1 0
  refine ⟨dobConnCmd 1 sess value s, rfl, ?_⟩
  rw [dobConnCmd_acts h hc ho, ha]
  exact ⟨hst, hmid, hkind, congrArg DobBlk.connWait (openConn_dob hz' he' ..)⟩

theorem startRequest_dob (s : State) (c kind : Nat) (auto : Bool) : (startRequest s c kind auto).dob = s.dob :=
  (startRequest_keeps (mk := 7367552) (.refl s) (by decide)).dob (by decide)

theorem ownerClose_dob {s : State} {c : Nat} (ha : (connOf s c).st = .active) : (ownerClose s c).dob = s.dob := by
  simp only [ownerClose, ha, startRequest_dob, setConn_dob]
  exact (leaveActive_keeps (mk := 4096) (.refl s) (by decide)).dob (by decide)

theorem dobConnClose_closes {sess value : Nat} {s : State} (h : MayAct s sess 0x6030 1 value) (hc : dobConnCheck s value = 0)
    (ho : bits value 30 2 = 2) (ha : (connOf s (bits value 0 14)).st = .active) :
    Leaves (.dobConnClose sess value) s fun t => (connOf t (bits value 0 14)).st = .closing ∧
      (connOf t (bits value 0 14)).exch.map (fun e => e.kind) = some 2 ∧ t.dob.connWait = some (bits value 0 14) := by
  have ha' : (connOf (dobConnTaken sess value s) (bits value 0 14)).st = .active := by rw [connOf_dobConnTaken, ha]
  have hact : actDobConn value (journalAction s sess 0x6030 1 value) = ownerClose (dobConnTaken sess value s) (bits value 0 14) := by
    simp only [actDobConn, ho]
    rfl
  refine ⟨dobConnCmd 2 sess value s, rfl, ?_⟩
  rw [dobConnCmd_acts h hc ho, hact]
  have hx : connOf (emit (ownerClose (dobConnTaken sess value s) (bits value 0 14)) (.status sess 0x6030 1 0)) (bits value 0 14) = _ :=
    ownerClose_closes (.inl ha')
  dsimp only
  rw [hx]
  exact ⟨rfl, rfl, congrArg DobBlk.connWait (ownerClose_dob ha')⟩

/-- A reset is taken with the entropy source healthy and no exchange under way. -/
theorem dobConnCheck_reset {s : State} {value : Nat} (ho : bits value 30 2 = 3) (hc : dobConnCheck s value = 0) :
    s.vault.entropyOk = true ∧ (connOf s (bits value 0 14)).exch = none := by
  simp only [dobConnCheck, ho] at hc
  split at hc
  · exact absurd hc (by decide)
  · split at hc
    · next h =>
      simp only [Bool.and_eq_true, Option.isNone_iff_eq_none] at h
      obtain ⟨⟨⟨hent, -⟩, -⟩, hex⟩ := h
      exact ⟨hent, hex⟩
    · exact absurd hc (by decide)

theorem dobConnReset_requests {sess value : Nat} {s : State} (h : MayAct s sess 0x6030 1 value) (hc : dobConnCheck s value = 0)
    (ho : bits value 30 2 = 3) :
    Leaves (.dobConnReset sess value) s fun t => (connOf t (bits value 0 14)).exch.map (fun e => (e.kind, e.epoch, e.firstSeq)) =
        some (3, ((connOf s (bits value 0 14)).keyEpoch + 1) % 65536, (connOf s (bits value 0 14)).txNext) ∧
      t.dob.connWait = some (bits value 0 14) := by
  obtain ⟨hent, hex⟩ := dobConnCheck_reset ho hc
  have hex' : (connOf (dobConnTaken sess value s) (bits value 0 14)).exch = none := by rw [connOf_dobConnTaken, hex]
  have he' : (dobConnTaken sess value s).vault.entropyOk = true := by rw [dobConnTaken_vault, hent]
  have hact : actDobConn value (journalAction s sess 0x6030 1 value) =
      startRequest (dobConnTaken sess value s) (bits value 0 14) 3 false := by
    simp only [actDobConn, ho]
    rfl
  refine ⟨dobConnCmd 3 sess value s, rfl, ?_⟩
  rw [dobConnCmd_acts h hc ho, hact]
  have hx : connOf (emit (startRequest (dobConnTaken sess value s) (bits value 0 14) 3 false) (.status sess 0x6030 1 0))
      (bits value 0 14) = _ := connOf_startRequest false (by decide) hex' he'
  dsimp only
  rw [hx]
  simp only [counted, newRequest, connOf_dobConnTaken, Option.map_some, true_and]
  exact congrArg DobBlk.connWait (startRequest_dob ..)

/-- Settles O38, a lemma for each clause. -/
theorem dobbyInterrupts : Obligations.DobbyInterrupts := by
  unfold Obligations.DobbyInterrupts
  exact ⟨fun _ _ hp hc hk hn hh ha => vmeIrqAssert_starts ⟨hp, hc, hk, hn⟩ hh ha,
    fun _ _ _ _ _ hi hc hm hv => iackDone_routes hi hc hm hv,
    fun _ _ _ _ hi hc hm => iackDone_lost hi hc hm,
    ihRearm_rearms,
    fun _ _ _ hv hf ho hl hb hn => irqRaise_raises hv hf ho hl hb hn,
    fun _ _ _ hv hf ho hb => irqRaise_refused hv hf ho hb,
    fun _ _ _ => ⟨_, rfl, rfl⟩,
    fun _ _ _ _ hp hr => iackinReceive_answers hp hr,
    fun _ _ _ hp hr => iackinReceive_passes hp hr,
    fun _ hp => sysresetInput_clears hp,
    fun b _ hp => sysfailChange_follows b hp,
    fun b _ hp => acfailChange_follows b hp,
    fun _ _ hs ht => sysresetOutEnd_ends hs ht,
    fun _ _ _ _ h hc ho hz => dobConnOpen_opens h hc ho hz,
    fun _ _ _ h hc ho ha => dobConnClose_closes h hc ho ha,
    fun _ _ _ h hc ho => dobConnReset_requests h hc ho⟩

end Sys2Proof.Scope
end
